-- ==== Sys2Proof/Word.lean ====
section
/-!
DEFINITION. The words of the module: a byte, a 32-bit register or bus word (R7), the 64-bit word of a memory (R20), and
module time (ch00, *Time*: a 64-bit count of nanoseconds).
-/

namespace Sys2Proof

/-- A byte. -/
abbrev Byte := BitVec 8

/-- A 32-bit register or bus word (R7). -/
abbrev Word := BitVec 32

/-- A 64-bit memory word, point value or time (R17, R20). -/
abbrev Word64 := BitVec 64

end Sys2Proof
end

