-- ==== Sys2Proof/Syntax.lean ====
section
/-!
DEFINITION. The commands and events of the module: one constructor of `Instr` per row of the table of operations and
events, and the plain data their operands are made of. A command that is a write to a register carries the value
written; an event of a bus, a pin or a protocol carries what arrives. Where an arriving frame is protected by
cryptography, the operand carries the frame as opened and whether its check passed (notes/assumptions/4).
-/

namespace Sys2Proof

/-- The units that have an enable pair (R33): blocks, fabric ports and DMA-like channels. -/
inductive UnitId where
  | sch | img | jrn | hop | fab | port (p : Fin 4) | gate | loop | mtr | can (c : Fin 4) | mem | key | evt | mch | upd
  deriving DecidableEq, Repr

/-- The blocks with a dual-mode function and an assist ring (Table 1-11). -/
inductive AsnBlock where
  | hop | fab | loop | mtr | can (c : Fin 4) | key | evt
  deriving DecidableEq, Repr

/-- The atomic operations of a core (R22). -/
inductive AmoOp where
  | swap | add | xor | and | or | min | max | minu | maxu | lr | sc
  deriving DecidableEq, Repr

/-- What a core does at an address (R18). -/
inductive MemKind where
  | load | store | fetch | amo (op : AmoOp)
  deriving DecidableEq, Repr

/-- An output channel: DO0 to DO23, or AO0 to AO7. -/
inductive OutCh where
  | digital (c : Nat) | analog (c : Nat)
  deriving DecidableEq, Repr

/-- A Leat frame's header and payload (Table 5-3). -/
structure Leat where
  ver : Nat := 1
  lane : Nat
  cp : Bool := false
  ttl : Nat := 64
  dst : Nat
  src : Nat
  typ : Nat
  auth : Bool := false
  session : Nat := 0
  seq : Nat := 0
  /-- LEN as the header states it. -/
  len : Nat
  flow : Nat := 0
  origin : Nat := 0
  payload : List Byte
  deriving DecidableEq, Repr

/-- A frame as it arrives at a port: its link protection as read, and the checks at its end (R163, R166, R171). Port 4 is
the internal port, where only `leat` counts. -/
structure RxFrame where
  leat : Leat
  /-- The frame carried a SecTAG. -/
  secured : Bool := true
  an : Nat := 0
  pn : Nat := 0
  /-- DA is the port's FAB_MAC or the Leat group address. -/
  daOk : Bool := true
  icvOk : Bool := true
  fcsOk : Bool := true
  /-- A word of the frame read for transmission carries poison: its address (R386). -/
  poisonAt : Option Nat := none
  deriving DecidableEq, Repr

/-- A UDP datagram at a tunnel port (R173, R174). -/
structure Datagram where
  srcAddr : BitVec 128
  srcPort : Nat
  dstPort : Nat
  extHeader : Bool := false
  sumOk : Bool := true
  frame : RxFrame
  deriving DecidableEq, Repr

/-- A KEYX payload (Table 5-6) and whether its TAG verifies. -/
structure Keyx where
  an : Nat
  caps : Nat
  port : Nat
  mac : Nat
  node : Nat
  nonce : BitVec 128
  peerNonce : BitVec 128 := 0
  tagOk : Bool := true
  deriving DecidableEq, Repr

/-- A HELLO payload (Table 5-8). -/
structure Hello where
  node : Nat
  nstate : Nat
  mac : Nat
  port : Nat
  int : Nat
  dead : Nat
  heard : Nat
  lsaSeq : Nat := 0
  deriving DecidableEq, Repr

/-- One adjacency of an LSA (Table 5-10). -/
structure LsaAdj where
  node : Nat
  cost : Nat
  port : Nat
  media : Nat
  deriving DecidableEq, Repr

/-- An LSA (Table 5-10). -/
structure Lsa where
  node : Nat
  /-- 1 TENTATIVE, 2 ASSIGNED, 3 WITHDRAWN. -/
  state : Nat
  configured : Bool := false
  gmcap : Bool := false
  mac : Nat
  seq : Nat
  /-- Bit 0 of byte 13 (R450). -/
  alias_ : Bool := false
  adj : List LsaAdj := []
  deriving DecidableEq, Repr

/-- What a PTP Announce says of its sender (R198). Identities compare as numbers. -/
structure PtpAnnounce where
  port : Nat
  priority1 : Nat
  clockClass : Nat
  accuracy : Nat
  variance : Nat
  priority2 : Nat
  gm : Nat
  steps : Nat
  sender : Nat
  deriving DecidableEq, Repr

/-- A PTP message at a port, with its ingress time stamp in MT where one is taken (R198). Times in ns. -/
inductive PtpMsg where
  | announce (a : PtpAnnounce)
  | sync (origin ingress : Nat)
  | delayResp (received : Nat)
  | delayReq (ingress : Nat)
  deriving DecidableEq, Repr

/-- A PTP message with the domain number of its header (R198). -/
structure PtpFrame where
  domain : Nat := 0
  msg : PtpMsg
  deriving DecidableEq, Repr

/-- A completed analog conversion (R332, R333): the 16-bit code, and whether the voltage at the terminal lies below −0.1 V,
which code 0 does not tell (Table 9-7). -/
structure AiResult where
  code : Nat
  under : Bool := false
  deriving DecidableEq, Repr

/-- A CAN or CAN FD frame (R354); `ago` counts of the time-stamp counter lie between its start of frame and its end. -/
structure CanFrame where
  xtd : Bool := false
  id : Nat
  rtr : Bool := false
  fdf : Bool := true
  brs : Bool := true
  esi : Bool := false
  dlc : Nat
  data : List Byte
  ago : Nat := 0
  deriving DecidableEq, Repr

/-- How a transmission attempt ends (R349, R350): successfully, with arbitration lost, without acknowledgement, or with
an error of the given LEC code. -/
inductive CanEnd where
  | ok | arbLost | noAck | error (lec : Nat)
  deriving DecidableEq, Repr

/-- What wakes a controller (R367). -/
inductive CanWake where
  | pattern | frame (f : CanFrame) | overflow
  deriving DecidableEq, Repr

/-- The gate's session establishment at the key engine (R422): the session slot, the tenant, the rights, the peer's
ephemeral public key and the handshake's context. -/
structure KeyEstablish where
  session : Nat
  tenant : Nat
  rights : Nat
  peer : BitVec 512
  context : List Byte
  deriving DecidableEq, Repr

/-- The fabric's requests to the key engine (R422). -/
inductive KeyFabric where
  | kx
  | sak (context : List Byte)
  | tag (message : List Byte)
  deriving DecidableEq, Repr

/-- An event as its source posts it (R433, R438). -/
structure EvtPost where
  code : Nat
  tenant : Nat := 0
  unit : Nat := 0
  subj : Nat := 0
  val1 : Nat := 0
  val2 : Nat := 0
  extra : Nat := 0
  /-- The fields whose source word carries poison (R439): [0] SUBJ, [1] and [2] VAL first and second, [3] EXTRA. -/
  poison : BitVec 4 := 0
  deriving DecidableEq, Repr

/-- A Fantail payload (Table 14-5). -/
structure Fantail where
  role : Nat
  side : Bool
  pref : Bool := false
  ready : Bool := false
  handoff : Bool := false
  needsync : Bool := false
  node : Nat
  snode : Nat
  beat : Nat := 0
  epoch : Nat
  cfgid : Nat
  mseq : Nat := 0
  mt : Nat := 0
  /-- The sender's MAC, known to the link (R453). -/
  mac : Nat := 0
  deriving DecidableEq, Repr

/-- A mirror item (Table 14-4). -/
inductive MirItem where
  | pt (own : Nat) (bytes : List Byte)
  | force (bytes : List Byte)
  | fclr (key : Nat)
  | retf (task retlen ofs : Nat) (bytes : List Byte)
  | loop (n : Nat) (words : List Word)
  | outb (idx : Nat) (bytes : List Byte)
  | commit (task relcnt c : Nat)
  | baseend
  | reserved (typ : Nat)
  deriving DecidableEq, Repr

/-- A MIRROR payload (Table 14-3). -/
structure MirFrame where
  base : Bool := false
  last : Bool := true
  frag : Nat := 0
  mseq : Nat
  cfgid : Nat
  items : List MirItem
  deriving DecidableEq, Repr

/-- A BULK payload (Table 15-6) with its data. -/
structure BulkMsg where
  kind : Nat
  xid : Nat
  offset : Nat := 0
  /-- Bytes 8 to 11: BLEN of an OPEN, the number of bytes following of a DATA. -/
  size : Nat := 0
  status : Nat := 0
  data : List Byte := []
  deriving DecidableEq, Repr

/-- How the programming of a block ends (R483, R484): programmed, reported as failed by the flash or by the read-back, halted
by the poisoned word at an address. -/
inductive FlashEnd where
  | ok | failed | poison (addr : Nat)
  deriving DecidableEq, Repr

/-- A recovery ORDER (Table 15-12). -/
structure RecOrder where
  mac : Nat
  op : Nat
  slot : Nat
  nonce : BitVec 128
  server : Nat
  port : Nat
  tool : Nat
  /-- The file name's bytes, NUL-padded. -/
  file : List (BitVec 8) := []
  deriving DecidableEq, Repr

/-- A message the ROM sends in recovery mode (Table 15-12), and a TFTP message (R499). -/
inductive RecMsg where
  | announce (reason pufState : Nat) (nonce : BitVec 128)
  | status (op result received : Nat)
  | tftpRead (file : List (BitVec 8)) | tftpAck (block : Nat) | tftpError (code : Nat)
  deriving DecidableEq, Repr

/-- What the supervisor measures (R507): VIN and HU in mV, input power in 10 mW. -/
structure Rails where
  vin : Nat
  vhu : Nat
  pin : Nat := 0
  deriving DecidableEq, Repr

/-- What the ROM's part of a start finds outside the machine's own memory (R400, R405, R520): the self-test's results,
the secret decoded from the PUF array (none: the decode failed), the cell errors corrected, the button RCV, the failing
rows of each bank. -/
structure RomFacts where
  bistPass : Bool
  checkerPass : Bool
  failGroup : Nat := 0
  /-- The entropy source's start-up test of 1,024 samples (R424). -/
  entropyPass : Bool := true
  badRows : List (Nat × Nat) := []
  puf : Option (BitVec 1072)
  corrected : Nat := 0
  /-- The cells read at this start, as the helper's code offset they would enrol (R407). -/
  offset : List Byte := []
  rcv : Bool := false
  deriving DecidableEq, Repr

/-- What a sample set brings (R269, R270, R295): the 40 decimated 24-bit samples, the channels whose front end reports an
open input or a stuck modulator, and the registers of which one copy, or both, fail their parity. -/
structure MtrInput where
  samples : List Int
  faulty : BitVec 40 := 0
  oneCopy : List Nat := []
  bothCopies : List Nat := []
  deriving DecidableEq, Repr

/-- The commands and events of the module, in the order of the table of operations and events. -/
inductive Instr where
  /-- REGISTER_WRITE (R30). -/
  | registerWrite (m a : Nat) (v : Word)
  /-- READ_CLEAR (R8). -/
  | readClear (m a : Nat)
  /-- LATCHING_READ (R15). -/
  | latchingRead (m a : Nat)
  /-- ADDR_DATA_READ (R86). -/
  | addrDataRead (m a : Nat)
  /-- BLOCK_ENABLE (R33). -/
  | blockEnable (u : UnitId)
  /-- BLOCK_DISABLE (R33). -/
  | blockDisable (u : UnitId)
  /-- BLOCK_MODE_WRITE (R32). -/
  | blockModeWrite (b : AsnBlock) (ring : Bool) (v : Word)
  /-- DRAIN_UNIT_COMPLETE (R33). -/
  | drainUnitComplete (u : UnitId)
  /-- ENGINE_CROSSBAR_ERROR (R24). -/
  | engineCrossbarError (u : UnitId)
  /-- CORE_MEMORY_ACCESS (R18). -/
  | coreMemoryAccess (c : Nat) (k : MemKind) (addr size : Nat) (data : Word64)
  /-- FENCE (R31). -/
  | fence (c : Nat)
  /-- CDWBI (R28). -/
  | cdwbi (c addr : Nat)
  /-- CDINV (R28). -/
  | cdinv (c addr : Nat)
  /-- CIINV (R28). -/
  | ciinv (c : Nat)
  /-- MEINFO_WRITE (R384). -/
  | meinfoWrite (c : Nat) (v : Word)
  /-- ASSIST_KICK (R40). -/
  | assistKick (b : AsnBlock)
  /-- ASSIST_TIMEOUT (R41). -/
  | assistTimeout (b : AsnBlock)
  /-- TASK_LEAD_START (R51). -/
  | taskLeadStart (t : Nat)
  /-- TASK_RELEASE (R49). -/
  | taskRelease (t : Nat)
  /-- FREE_RUN_RELEASE (R59). -/
  | freeRunRelease (t : Nat)
  /-- FREE_RUN_BOUND_EXPIRY (R60). -/
  | freeRunBoundExpiry (t : Nat)
  /-- SCH_DONE (R57). -/
  | schDone (m : Nat)
  /-- SCH_ABORT (R58). -/
  | schAbort (m : Nat)
  /-- TASK_STOP (R61). -/
  | taskStop (t : Nat)
  /-- TASK_START (R61). -/
  | taskStart (t : Nat)
  /-- IDLE_WINDOW_END (R69). -/
  | idleWindowEnd
  /-- IDLE_WIN_WRITE (R69). -/
  | idleWinWrite (v : Word)
  /-- IDLE_CLRMIN (R69). -/
  | idleClrmin
  /-- HOLD_BOUND_EXPIRY (R75). -/
  | holdBoundExpiry
  /-- SWITCH_ARM (R76). -/
  | switchArm
  /-- SWITCH_CANCEL (R76). -/
  | switchCancel
  /-- SWITCH_INSTANT (R76). -/
  | switchInstant
  /-- SWITCH_GO (R76). -/
  | switchGo
  /-- INPUT_COPY (R92). -/
  | inputCopy
  /-- INPUT_COPY_COMPLETE (R53). -/
  | inputCopyComplete
  /-- COMMIT_START (R96). -/
  | commitStart
  /-- COMMIT_JOURNAL_STAGED (R99). -/
  | commitJournalStaged
  /-- COMMIT_COMPLETE (R57). -/
  | commitComplete
  /-- JOURNAL_WRITE (R99). -/
  | journalWrite
  /-- STATION_IN_PDU (R103). -/
  | stationInPdu (n : Nat) (pdu : List Byte)
  /-- STATION_STATUS_PDU (R106). -/
  | stationStatusPdu (n : Nat) (pdu : List Byte)
  /-- STATION_REFRESH (R104). -/
  | stationRefresh (n : Nat)
  /-- STATION_TIMEOUT (R107). -/
  | stationTimeout (n : Nat)
  /-- STATION_REARM (R107). -/
  | stationRearm (n : Nat)
  /-- STATION_PROBE (R101). -/
  | stationProbe (n : Nat)
  /-- STATION_ENABLE (R107). -/
  | stationEnable (n : Nat)
  /-- STATION_DISABLE (R107). -/
  | stationDisable (n : Nat)
  /-- FORCE_SET (R116). -/
  | forceSet
  /-- FORCE_CLEAR (R116). -/
  | forceClear
  /-- FORCE_CLEARALL (R116). -/
  | forceClearall
  /-- IMG_MDATA_WRITE (R86). -/
  | imgMdataWrite (v : Word)
  /-- PUSH_SEND (R131). -/
  | pushSend (n : Nat)
  /-- SUB_RECEIVED (R130). -/
  | subReceived (src : Nat) (body : List Byte)
  /-- UNSUB_RECEIVED (R130). -/
  | unsubReceived (src : Nat) (body : List Byte)
  /-- FETCH_RECEIVED (R130). -/
  | fetchReceived (src : Nat) (body : List Byte)
  /-- SUBACK_RECEIVED (R129). -/
  | subackReceived (src : Nat) (body : List Byte)
  /-- PUSH_RECEIVED (R134). -/
  | pushReceived (src : Nat) (body : List Byte)
  /-- RANGE_STALE_TIMER (R129). -/
  | rangeStaleTimer (r : Nat)
  /-- SUB_RETRY_TIMER (R129). -/
  | subRetryTimer (r : Nat)
  /-- LEASE_RENEWAL_TIMER (R129). -/
  | leaseRenewalTimer (r : Nat)
  /-- OUTBOUND_LEASE_EXPIRY (R130). -/
  | outboundLeaseExpiry (e : Nat)
  /-- PRODUCER_RANGE_TIMER (R130). -/
  | producerRangeTimer (e : Nat)
  /-- HOP_INIT_COMPLETE (R140). -/
  | hopInitComplete
  /-- PINSCAN (R141). -/
  | pinscan (bank : Nat)
  /-- PINSCAN_COMPLETE (R142). -/
  | pinscanComplete
  /-- UNPIN (R141). -/
  | unpin (bank : Nat)
  /-- LOOKUP_READ (R156). -/
  | lookupRead (p : Nat)
  /-- LOOKUP_TOUCH (R156). -/
  | lookupTouch (p : Nat)
  /-- PAGE_IN_COMPLETE (R144). -/
  | pageInComplete (page : Nat)
  /-- REFETCH_TIMER (R150). -/
  | refetchTimer (slot : Nat)
  /-- HOP_TDATA_WRITE (R154). -/
  | hopTdataWrite (v : Word)
  /-- FRAME_FORWARD (R167). -/
  | frameForward (p : Nat) (f : RxFrame)
  /-- UDP_DATAGRAM_RECEIVED (R174). -/
  | udpDatagramReceived (p : Nat) (d : Datagram)
  /-- NEIGHBOR_SOLICIT_RECEIVED (R175). -/
  | neighborSolicitReceived (p : Nat) (target : BitVec 128)
  /-- ECHO_REQUEST_RECEIVED (R175). -/
  | echoRequestReceived (p : Nat) (dst : BitVec 128)
  /-- LINK_UP (R177). -/
  | linkUp (p speed : Nat)
  /-- LINK_DOWN (R177). -/
  | linkDown (p : Nat)
  /-- KEYX_OFFER_RECEIVED (R164). -/
  | keyxOfferReceived (p : Nat) (k : Keyx)
  /-- KEYX_ANSWER_RECEIVED (R164). -/
  | keyxAnswerReceived (p : Nat) (k : Keyx)
  /-- KEYX_OFFER_TIMER (R164). -/
  | keyxOfferTimer (p : Nat)
  /-- KEYING_TIMEOUT (R177). -/
  | keyingTimeout (p : Nat)
  /-- REKEY_TIMER (R165). -/
  | rekeyTimer (p : Nat)
  /-- OLD_SA_DELETE (R165). -/
  | oldSaDelete (p : Nat)
  /-- HELLO_TIMER (R176). -/
  | helloTimer (p : Nat)
  /-- HELLO_RECEIVED (R177). -/
  | helloReceived (p : Nat) (h : Hello)
  /-- DEAD_TIMER (R176). -/
  | deadTimer (p : Nat)
  /-- NODE_CLAIM_PICK (R179). -/
  | nodeClaimPick
  /-- TENTATIVE_TIMER (R179). -/
  | tentativeTimer
  /-- NONODE_RETRY (R181). -/
  | nonodeRetry
  /-- LSA_RECEIVED (R183). -/
  | lsaReceived (p : Nat) (l : Lsa)
  /-- LSACK_RECEIVED (R183). -/
  | lsackReceived (p : Nat) (items : List (Nat × Nat))
  /-- LSA_RETRANSMIT (R183). -/
  | lsaRetransmit (p : Nat)
  /-- LSA_REFRESH (R182). -/
  | lsaRefresh
  /-- LSA_AGE_OUT (R183). -/
  | lsaAgeOut (n : Nat)
  /-- ROUTE_COMPUTE_START (R185). -/
  | routeComputeStart
  /-- ROUTE_COMPUTE_COMPLETE (R185). -/
  | routeComputeComplete
  /-- QUENCH_RECEIVED (R194). -/
  | quenchReceived (p : Nat) (f : Leat)
  /-- QUENCH_RESEND (R193). -/
  | quenchResend
  /-- QUENCH_RULE_EXPIRY (R194). -/
  | quenchRuleExpiry (k : Nat)
  /-- PREEMPT_VERIFY_COMPLETE (R192). -/
  | preemptVerifyComplete (p : Nat) (ok : Bool)
  /-- PTP_MESSAGE_RECEIVED (R198). -/
  | ptpMessageReceived (p : Nat) (x : PtpFrame)
  /-- PTP_TX_TIMER (R198). -/
  | ptpTxTimer (p : Nat)
  /-- PTP_ANNOUNCE_TIMEOUT (R199). -/
  | ptpAnnounceTimeout
  /-- MBX_SEND (R201). -/
  | mbxSend (len : Nat)
  /-- OPEN_RECEIVED (R214). -/
  | openReceived (f : Leat)
  /-- CONFIRM_RECEIVED (R214). -/
  | confirmReceived (f : Leat)
  /-- ABANDON_RECEIVED (R218). -/
  | abandonReceived (f : Leat)
  /-- PENDING_TIMEOUT (R214). -/
  | pendingTimeout (slot : Nat)
  /-- SESSION_READ (R207). -/
  | sessionRead (f : Leat)
  /-- SESSION_WRITE (R208). -/
  | sessionWrite (f : Leat)
  /-- SESSION_SUB (R221). -/
  | sessionSub (f : Leat)
  /-- SESSION_UNSUB (R221). -/
  | sessionUnsub (f : Leat)
  /-- SESSION_FORCE (R222). -/
  | sessionForce (f : Leat)
  /-- SESSION_CLOSE (R219). -/
  | sessionClose (f : Leat)
  /-- EVREAD (R447). -/
  | evread (f : Leat)
  /-- SUB_PERIOD_PUSH (R221). -/
  | subPeriodPush (slot : Nat)
  /-- SESSION_IDLE_EXPIRY (R227). -/
  | sessionIdleExpiry (slot : Nat)
  /-- SESSION_LIFETIME_EXPIRY (R227). -/
  | sessionLifetimeExpiry (slot : Nat)
  /-- EXPIRED_SLOT_FREE (R227). -/
  | expiredSlotFree (slot : Nat)
  /-- TENANT_REVOKE (R228). -/
  | tenantRevoke (t : Nat)
  /-- TENANT_CLOSEALL (R228). -/
  | tenantCloseall (t : Nat)
  /-- SLOT_CLOSE (R231). -/
  | slotClose
  /-- AUTH_QUENCH_RECEIVED (R223). -/
  | authQuenchReceived (p : Nat) (f : Leat)
  /-- ASSIST_RESULT_RECEIVED (R224). -/
  | assistResultReceived (f : Leat)
  /-- LOOP_DUE (R242). -/
  | loopDue (group : Bool) (n : Nat)
  /-- LOOP_EVALUATION (R249). -/
  | loopEvaluation
  /-- GROUP_EVALUATION (R257). -/
  | groupEvaluation
  /-- LOOP_MDATA_WRITE (R235). -/
  | loopMdataWrite (v : Word)
  /-- SAMPLE_SET_ARRIVAL (R271). -/
  | sampleSetArrival (m : MtrInput)
  /-- ZC_TIMEOUT (R273). -/
  | zcTimeout
  /-- SYNTHETIC_CROSSING (R273). -/
  | syntheticCrossing
  /-- CHECKPOINT_TIMER (R293). -/
  | checkpointTimer
  /-- CHECKPOINT_COMPLETE (R293). -/
  | checkpointComplete
  /-- METER_CLEAR (R292). -/
  | meterClear (feeder : Nat)
  /-- METER_CKPT (R293). -/
  | meterCkpt
  /-- METER_RESTORE (R295). -/
  | meterRestore (reg : Nat)
  /-- CALAPPLY (R277). -/
  | calapply (ch : Nat)
  /-- MTR_MDATA_WRITE (R300). -/
  | mtrMdataWrite (v : Word)
  /-- DI_EDGE (R305). -/
  | diEdge (levels : BitVec 32)
  /-- DI_FILTER_ACCEPT (R306). -/
  | diFilterAccept (ch : Nat)
  /-- DI_FILTER_WRITE (R306). -/
  | diFilterWrite (ch : Nat) (v : Word)
  /-- FREQ_GATE_WINDOW_END (R310). -/
  | freqGateWindowEnd (k : Nat)
  /-- COUNTER_CONFIG_WRITE (R308). -/
  | counterConfigWrite (k : Nat) (v : Word)
  /-- COUNTER_CLEAR (R311). -/
  | counterClear (k : Nat)
  /-- COUNTER_LOAD (R311). -/
  | counterLoad (k : Nat)
  /-- DO_RESUME (R317). -/
  | doResume (o : OutCh)
  /-- DO_RESUMEALL (R317). -/
  | doResumeall (analog : Bool)
  /-- DO_OCCLR (R315). -/
  | doOcclr (ch : Nat)
  /-- OUTPUT_RELOAD (R318). -/
  | outputReload (o : OutCh)
  /-- OUTPUT_ENABLE (R318). -/
  | outputEnable (analog : Bool)
  /-- OUTPUT_DISABLE (R318). -/
  | outputDisable (analog : Bool)
  /-- DO_CONFIG_WRITE (R318). -/
  | doConfigWrite (o : OutCh) (safeCode : Bool) (v : Word)
  /-- KEEPALIVE_SILENCE (R316). -/
  | keepaliveSilence (o : OutCh)
  /-- KICK (R319). -/
  | kick
  /-- KICK_EXPIRY (R319). -/
  | kickExpiry
  /-- KA_CFG_WRITE (R319). -/
  | kaCfgWrite (v : Word)
  /-- DO_OVERCURRENT (R315). -/
  | doOvercurrent (ch : Nat)
  /-- AO_OVERCURRENT (R334). -/
  | aoOvercurrent (ch : Nat)
  /-- FIELD_SUPPLY_FAIL (R317). -/
  | fieldSupplyFail (g : Nat)
  /-- FIELD_SUPPLY_RETURN (R317). -/
  | fieldSupplyReturn (g : Nat)
  /-- REFLEX_ARM (R323). -/
  | reflexArm (w : Nat) (v : Word)
  /-- REFLEX_DISARM (R323). -/
  | reflexDisarm (w : Nat) (v : Word)
  /-- REFLEX_ENABLE (R324). -/
  | reflexEnable
  /-- REFLEX_DISABLE (R323). -/
  | reflexDisable
  /-- REFLEX_CFG_WRITE (R323). -/
  | reflexCfgWrite (rule word : Nat) (v : Word)
  /-- PULSE_EXPIRY (R324). -/
  | pulseExpiry (target : Nat)
  /-- AI_CONVERSION_COMPLETE (R332). -/
  | aiConversionComplete (ch : Nat) (r : AiResult)
  /-- AI_CONFIG_WRITE (R332). -/
  | aiConfigWrite (ch : Nat) (v : Word)
  /-- CAN_TX_REQUEST (R348). -/
  | canTxRequest (c w : Nat) (v : Word)
  /-- CAN_TX_CANCEL (R352). -/
  | canTxCancel (c w : Nat) (v : Word)
  /-- CAN_FRAME_START (R348). -/
  | canFrameStart (c : Nat)
  /-- CAN_TX_ATTEMPT_END (R349). -/
  | canTxAttemptEnd (c : Nat) (r : CanEnd)
  /-- CAN_FRAME_RECEIVED (R354). -/
  | canFrameReceived (c : Nat) (f : CanFrame)
  /-- CAN_PROTOCOL_EXCEPTION (R340). -/
  | canProtocolException (c : Nat)
  /-- CAN_RX_LOCK (R357). -/
  | canRxLock (c buf : Nat)
  /-- CAN_RX_RELEASE (R357). -/
  | canRxRelease (c : Nat) (pop : Bool)
  /-- CAN_LOCK_TIMEOUT (R357). -/
  | canLockTimeout (c : Nat)
  /-- CAN_RXNEW_FREE (R356). -/
  | canRxnewFree (c w : Nat) (v : Word)
  /-- CAN_MDATA_WRITE (R347). -/
  | canMdataWrite (c : Nat) (v : Word)
  /-- CAN_SLEEP (R366). -/
  | canSleep (c : Nat)
  /-- CAN_SLEEP_ENTERED (R366). -/
  | canSleepEntered (c : Nat)
  /-- CAN_WAKE (R366). -/
  | canWake (c : Nat)
  /-- CAN_WAKE_EVENT (R367). -/
  | canWakeEvent (c : Nat) (e : CanWake)
  /-- CAN_BORECOV (R363). -/
  | canBorecov (c : Nat)
  /-- CAN_BUSOFF_RECOVERY_COMPLETE (R363). -/
  | canBusoffRecoveryComplete (c : Nat)
  /-- CAN_TXRESUME (R351). -/
  | canTxresume (c : Nat)
  /-- CAN_ABORTALL (R353). -/
  | canAbortall (c : Nat)
  /-- CAN_TS_CAPTURE (R361). -/
  | canTsCapture (c : Nat)
  /-- REWRITE_QUEUE_SERVICE (R379). -/
  | rewriteQueueService
  /-- SCRUB_STEP (R394). -/
  | scrubStep
  /-- SECDED_SCRUB (R396). -/
  | secdedScrub
  /-- DRAM_SCRUB_BURST (R396). -/
  | dramScrubBurst
  /-- BUCKET_LEAK (R393). -/
  | bucketLeak (k : Nat)
  /-- EGRESS_RELEASE_FABTX (R386). -/
  | egressReleaseFabtx
  /-- EGRESS_RELEASE_MIRROR (R386). -/
  | egressReleaseMirror
  /-- INJECT_ODD (R402). -/
  | injectOdd (lanes : BitVec 8)
  /-- INJECT_EVEN (R402). -/
  | injectEven (lanes : BitVec 8)
  /-- INJECT_PAR (R402). -/
  | injectPar (lanes : BitVec 8)
  /-- INJECT_TAG (R402). -/
  | injectTag
  /-- INJECT_POISON (R402). -/
  | injectPoison (lanes : BitVec 8)
  /-- INJECT_DOUBLE (R402). -/
  | injectDouble
  /-- STRIPE_WINDOW_STORE (R402). -/
  | stripeWindowStore (addr : Nat) (data : Word64)
  /-- SMAP_WRITE (R397). -/
  | smapWrite (v : Word)
  /-- KEY_CQTAIL_WRITE (R421). -/
  | keyCqtailWrite (v : Word)
  /-- KEY_HASH (R422). -/
  | keyHash
  /-- KEY_HMAC (R422). -/
  | keyHmac
  /-- KEY_KDF (R410). -/
  | keyKdf
  /-- KEY_GCM_ENC (R422). -/
  | keyGcmEnc
  /-- KEY_GCM_DEC (R422). -/
  | keyGcmDec
  /-- KEY_SIGN (R422). -/
  | keySign
  /-- KEY_VERIFY (R422). -/
  | keyVerify
  /-- KEY_ECDH (R422). -/
  | keyEcdh
  /-- KEY_KEYGEN (R422). -/
  | keyKeygen
  /-- KEY_PUBKEY (R422). -/
  | keyPubkey
  /-- KEY_RANDOM (R424). -/
  | keyRandom
  /-- KEY_WRAP (R418). -/
  | keyWrap
  /-- KEY_UNWRAP (R418). -/
  | keyUnwrap
  /-- KEY_SEAL (R418). -/
  | keySeal
  /-- KEY_UNSEAL (R418). -/
  | keyUnseal
  /-- KEY_RESEAL (R419). -/
  | keyReseal
  /-- KEY_IMPORT (R422). -/
  | keyImport
  /-- KEY_EXTEND (R417). -/
  | keyExtend
  /-- KEY_DECLARE (R419). -/
  | keyDeclare
  /-- KEY_ADOPT (R419). -/
  | keyAdopt
  /-- KEY_SETPOL (R422). -/
  | keySetpol
  /-- KEY_OP_COMPLETE (R421). -/
  | keyOpComplete
  /-- KEY_SESSION_ESTABLISH (R422). -/
  | keySessionEstablish (r : KeyEstablish)
  /-- KEY_SESSION_CRYPT (R422). -/
  | keySessionCrypt (session dir seq : Nat)
  /-- KEY_TENANT_HMAC (R422). -/
  | keyTenantHmac (tenant : Nat) (data : List Byte)
  /-- KEY_FABRIC_DERIVE (R422). -/
  | keyFabricDerive (r : KeyFabric)
  /-- KEY_INVAL (R414). -/
  | keyInval (slot : Nat)
  /-- KEY_ERASE (R415). -/
  | keyErase (slot : Nat)
  /-- TAMPER_ACK (R428). -/
  | tamperAck
  /-- ZEROIZE (R428). -/
  | zeroize
  /-- TAMPER_LOOP_CONFIRM (R543). -/
  | tamperLoopConfirm (loop : Nat) (isOpen : Bool)
  /-- ON_DIE_TAMPER (R425). -/
  | onDieTamper (src : Nat)
  /-- DRBG_RESEED (R424). -/
  | drbgReseed (pass : Bool)
  /-- ENTROPY_HEALTH_FAILURE (R424). -/
  | entropyHealthFailure
  /-- EVENT_POST (R438). -/
  | eventPost (e : EvtPost)
  /-- SW_POST (R441). -/
  | swPost (m : Nat)
  /-- RECORD_WRITE (R439). -/
  | recordWrite (bad : Bool)
  /-- TAIL_WRITE (R440). -/
  | tailWrite
  /-- EVT_CLEAR (R444). -/
  | evtClear
  /-- EVT_FLUSH (R440). -/
  | evtFlush
  /-- TAIL_SCAN_COMPLETE (R443). -/
  | tailScanComplete
  /-- EVT_OLDEST_READ (R445). -/
  | evtOldestRead
  /-- FANTAIL_SEND (R464). -/
  | fantailSend
  /-- FANTAIL_RECEIVED (R452). -/
  | fantailReceived (onP4 : Bool) (f : Fantail)
  /-- PATH_LOSS (R464). -/
  | pathLoss (onP4 : Bool)
  /-- PARTNER_LOSS (R452). -/
  | partnerLoss
  /-- ELECT_TIMEOUT (R452). -/
  | electTimeout
  /-- MIRROR_SEND (R460). -/
  | mirrorSend
  /-- MIRROR_RECEIVED (R459). -/
  | mirrorReceived (f : MirFrame)
  /-- LOOP_STATE_SYNC (R458). -/
  | loopStateSync
  /-- P4_FRAME_RECEIVED (R461). -/
  | p4FrameReceived (f : Leat)
  /-- PAIR_SWITCHOVER (R469). -/
  | pairSwitchover
  /-- PAIR_RESYNC (R473). -/
  | pairResync
  /-- PAIR_DEMOTE (R452). -/
  | pairDemote
  /-- BULK_OPEN (R483). -/
  | bulkOpen (src : Nat) (x : BulkMsg)
  /-- BULK_DATA (R483). -/
  | bulkData (src : Nat) (x : BulkMsg)
  /-- BULK_BLOCK_PROGRAMMED (R483). -/
  | bulkBlockProgrammed (r : FlashEnd)
  /-- BULK_END (R483). -/
  | bulkEnd (src : Nat) (x : BulkMsg)
  /-- BULK_ABORT (R483). -/
  | bulkAbort (src : Nat) (x : BulkMsg)
  /-- TRANSFER_TIMEOUT (R483). -/
  | transferTimeout
  /-- UPD_ERASE (R496). -/
  | updErase (slot : Nat)
  /-- UPD_VERIFY (R496). -/
  | updVerify (slot : Nat)
  /-- VERIFY_COMPLETE (R481). -/
  | verifyComplete
  /-- UPD_STAGE (R487). -/
  | updStage (slot : Nat)
  /-- STAGE_COMPLETE (R487). -/
  | stageComplete
  /-- UPD_UNSTAGE (R496). -/
  | updUnstage
  /-- UPD_ACTIVATE (R496). -/
  | updActivate (slot : Nat)
  /-- UPD_CONFIRM (R496). -/
  | updConfirm (slot : Nat)
  /-- UPD_RECOVER (R496). -/
  | updRecover
  /-- MIGRATION_COMPLETE (R488). -/
  | migrationComplete
  /-- UPD_COMMIT (R490). -/
  | updCommit
  /-- UPD_ABORT (R491). -/
  | updAbort
  /-- HOLDMAX_EXPIRY (R491). -/
  | holdmaxExpiry
  /-- RECOVERY_ANNOUNCE_TIMER (R498). -/
  | recoveryAnnounceTimer
  /-- RECOVERY_LOAD (R499). -/
  | recoveryLoad (o : RecOrder)
  /-- RECOVERY_ENROL (R499). -/
  | recoveryEnrol (o : RecOrder)
  /-- RECOVERY_RESTART (R499). -/
  | recoveryRestart (o : RecOrder)
  /-- TFTP_DATA_RECEIVED (R499). -/
  | tftpDataReceived (block : Nat) (data : List Byte)
  /-- TFTP_RETRANSMIT_TIMER (R499). -/
  | tftpRetransmitTimer
  /-- POWER_GOOD (R506). -/
  | powerGood (r : Rails)
  /-- HU_CAP_MEASURED (R506). -/
  | huCapMeasured (uF : Nat)
  /-- HU_FULL (R505). -/
  | huFull
  /-- POWER_SOURCE_CHANGE (R502). -/
  | powerSourceChange (x1 poe type2 : Bool)
  /-- VIN_LOW (R507). -/
  | vinLow (r : Rails)
  /-- VIN_WARNING (R507). -/
  | vinWarning (r : Rails)
  /-- TESTBRAKE (R509). -/
  | testbrake
  /-- HALT (R509). -/
  | halt
  /-- BRAKE_MARKER_WRITTEN (R510). -/
  | brakeMarkerWritten
  /-- VIN_RESUME_LEVEL (R512). -/
  | vinResumeLevel (r : Rails)
  /-- RESUME_WINDOW_COMPLETE (R513). -/
  | resumeWindowComplete
  /-- HU_RESET_LEVEL (R512). -/
  | huResetLevel
  /-- MODULE_RESET_RELEASE (R546). -/
  | moduleResetRelease (f : RomFacts)
  /-- RUNTIME_START (R546). -/
  | runtimeStart
  /-- REPLICA_WAIT_END (R558). -/
  | replicaWaitEnd
  /-- SYS_LOCK_SET (R569). -/
  | sysLockSet
  /-- SYS_RST_RESET (R563). -/
  | sysRstReset
  /-- SYS_RST_FATAL (R560). -/
  | sysRstFatal
  /-- WDT_KICK (R562). -/
  | wdtKick
  /-- WDT_EXPIRY (R562). -/
  | wdtExpiry
  /-- MT_LOAD (R552). -/
  | mtLoad
  /-- RTC_TICK (R533). -/
  | rtcTick
  /-- OSC_STOP (R534). -/
  | oscStop
  /-- BACKUP_POWER_ON (R529). -/
  | backupPowerOn
  /-- BACKUP_SOURCE_CHANGE (R528). -/
  | backupSourceChange (main : Bool)
  /-- VBAT_MEASURE (R531). -/
  | vbatMeasure (mV : Nat)
  /-- RTC_FREEZE_READ (R536). -/
  | rtcFreezeRead (a : Nat)
  /-- FREEZE_TIMEOUT (R536). -/
  | freezeTimeout
  /-- RTC_SET (R538). -/
  | rtcSet
  /-- RTC_SYNC (R539). -/
  | rtcSync
  /-- SYNC_MATCH (R539). -/
  | syncMatch
  /-- BBINIT (R542). -/
  | bbinit
  /-- BACKUP_BYTE_WRITE (R542). -/
  | backupByteWrite (i : Nat) (v : Word)
  /-- CAN_RX_ERROR (R362). -/
  | canRxError (c : Nat) (lec : Nat)
  /-- CAN_INTEGRATION_COMPLETE (R368). -/
  | canIntegrationComplete (c : Nat)
  /-- FLASH_ERASE_COMPLETE (R496). -/
  | flashEraseComplete (ok : Bool)
  /-- START_RECORD_WRITE (R566). -/
  | startRecordWrite
  deriving DecidableEq, Repr

end Sys2Proof
end

