-- ==== Sys2Proof/Decode.lean ====
section
/-!
DEFINITION. The commands that table words spell. No row of the table of operations and events has bits: a command arrives as a
register write, a frame, an edge or an instant, never as an instruction word, so every word is rejected.
-/

namespace Sys2Proof

/-- The command of a table word: none, since the table gives no row any bits. -/
def decodeTableWord (_nbits _w : Nat) : Option Instr := none

end Sys2Proof
end

