-- ==== Sys2Proof/Machine/SMap.lean ====
section
/-!
DEFINITION. Sparse maps from a number to a value, in one canonical form: keys strictly rising and no entry equal to
what an unlisted key reads as. Memory, the register file and every numbered table of the machine are kept this way, so
that equal contents are equal data.
-/

namespace Sys2Proof.Machine

/-- A sparse map: the entries that differ from the default. -/
abbrev SMap (β : Type) := List (Nat × β)

/-- The value at a key: the entry's, or the default `d` where none is listed. -/
def SMap.get {β : Type} (d : Nat → β) : SMap β → Nat → β
  | [], k => d k
  | (j, v) :: m, k => if j = k then v else SMap.get d m k

/-- The map without any entry at `k`. -/
def SMap.erase {β : Type} : SMap β → Nat → SMap β
  | [], _ => []
  | (j, v) :: m, k => if j = k then SMap.erase m k else (j, v) :: SMap.erase m k

/-- The map with an entry put before the first larger key. -/
def SMap.insert {β : Type} (k : Nat) (v : β) : SMap β → SMap β
  | [] => [(k, v)]
  | (j, w) :: m => if k < j then (k, v) :: (j, w) :: m else (j, w) :: SMap.insert k v m

/-- The map with the value at `k` replaced; writing the default removes the entry. -/
def SMap.set {β : Type} [DecidableEq β] (d : Nat → β) (m : SMap β) (k : Nat) (v : β) : SMap β :=
  if v = d k then SMap.erase m k else SMap.insert k v (SMap.erase m k)

/-- Every key of the map is above `k`. -/
def SMap.above {β : Type} (k : Nat) (m : SMap β) : Bool := m.all fun e => k < e.1

/-- The canonical form: keys strictly rising, no entry equal to the default. -/
def SMap.wf {β : Type} [DecidableEq β] (d : Nat → β) : SMap β → Bool
  | [] => true
  | (k, v) :: m => SMap.above k m && decide (v ≠ d k) && SMap.wf d m

/-- Values written at consecutive keys from `k`. -/
def SMap.setMany {β : Type} [DecidableEq β] (d : Nat → β) (m : SMap β) (k : Nat) : List β → SMap β
  | [] => m
  | v :: vs => SMap.setMany d (SMap.set d m k v) (k + 1) vs

/-- The `n` values at consecutive keys from `k`. -/
def SMap.getMany {β : Type} (d : Nat → β) (m : SMap β) (k : Nat) : Nat → List β
  | 0 => []
  | n + 1 => SMap.get d m k :: SMap.getMany d m (k + 1) n

end Sys2Proof.Machine
end

