-- ==== Sys2Proof/Machine/CanState.lean ====
section
/-!
DEFINITION. What a CAN controller keeps beside its registers (ch10). Its 32 KiB message RAM is a map of 32-bit words by
word number (Table 10-1). Instants are elapsed unless said otherwise.
-/

namespace Sys2Proof.Machine

/-- A transmission in progress (R348, R349): its buffer, and, for a frame with BRS, where in a data bit its level is checked, in
CAN cycles from the bit's start (R343). -/
structure CanAttempt where
  buf : Nat
  check : Option Nat := none
  deriving DecidableEq, Repr

/-- A shadow of R357: the buffer it belongs to and the words it holds. -/
structure CanShadow where
  buf : Nat
  words : List (BitVec 32)
  deriving DecidableEq, Repr

/-- A locked receive buffer (R357): its number and since when. -/
structure CanLock where
  buf : Nat
  since : Nat
  deriving DecidableEq, Repr

/-- One CAN FD controller. -/
structure CanState where
  ram : SMap (BitVec 32) := []
  /-- Message RAM words with a parity error or poison (R351, R359). -/
  badWords : SMap Bool := []
  attempt : Option CanAttempt := none
  shadows : List CanShadow := []
  lock : Option CanLock := none
  /-- Receive FIFO positions (R355): next slot to write, next to read, slots used. -/
  fifoPut : Nat := 0
  fifoGet : Nat := 0
  fifoLevel : Nat := 0
  /-- A SLEEP waits for the frame on the bus (R366). -/
  sleepPending : Bool := false
  /-- Bus-off recovery is under way (R363). -/
  recovering : Bool := false
  /-- Elapsed time of the last RXOVR, FLTOVF and PXE records (once per second). -/
  rxovrAt : Option Nat := none
  fltovfAt : Option Nat := none
  pxeAt : Option Nat := none
  /-- Station PDUs waiting for a transmit buffer, oldest first: station and PDU (R360). -/
  stnOut : List (Nat × List (BitVec 8)) := []
  /-- Station frames passed to the image unit and not yet taken by it: station, PDU and time stamp (R354). -/
  stnIn : List (Nat × List (BitVec 8) × Nat) := []
  deriving DecidableEq, Repr

end Sys2Proof.Machine
end

