-- ==== Sys2Proof/Machine/DioState.lean ====
section
/-!
DEFINITION. What the field I/O blocks keep beside their registers (ch09): the inputs' levels, counter measurements, the
field side of every output, the reflex pulses and the analog converters. Instants are elapsed unless said otherwise.
-/

namespace Sys2Proof.Machine

/-- One counting input's measurement (R308, R310). -/
structure CntX where
  /-- The reference edge, none before the first edge or after F became 0 (R310). -/
  refEdge : Option Nat := none
  lastEdge : Nat := 0
  /-- Rising edges after the reference edge. -/
  n : Nat := 0
  /-- Consecutive windows without an edge. -/
  zero : Nat := 0
  /-- A rising edge has come in the window in progress. -/
  seen : Bool := false
  /-- MT of the last window end, or of the write that began the window in progress. -/
  winEnd : Nat := 0
  /-- When QUAD_ERR was last recorded (R309). -/
  qerrAt : Option Nat := none
  /-- The IO cycle of the last counted edge, and its direction (R311). -/
  step : Option (Nat × Bool) := none
  deriving DecidableEq, Repr

/-- The field side of one output (R315 to R317): its configuration, the level or code it last received, its held level,
the level at the terminal. -/
structure OutX where
  hasCfg : Bool := false
  tmo : Nat := 0
  safe : Nat := 0
  safeCode : Nat := 0
  /-- Value last applied while LIVE; none: the default level (R316). -/
  held : Option Nat := none
  /-- Level the channel's driver is set to; none: high impedance (DO0 to DO7). -/
  level : Option Nat := none
  /-- The last keep-alive toggle received before the keep-alive stopped, and the TMO of the silence timing that it began. -/
  toggleAt : Nat := 0
  timing : Nat := 0
  deriving DecidableEq, Repr

/-- What the reflex matrix has done in one IO cycle (R327 to R329). -/
structure RfxCycle where
  /-- The cycle's number from 1; 0: none. -/
  cycle : Nat := 0
  /-- The arming before the cycle's first ARM or DISARM write. -/
  arms : Option Nat := none
  fired : List Nat := []
  /-- FOLLOW rules that became active. -/
  active : List Nat := []
  /-- V without the matrix: as the cycle began, with what other writers wrote in it. -/
  before : Nat := 0
  /-- What acts: target, rule, trigger level. -/
  acts : List (Nat × Nat × Bool) := []
  /-- Rules counted as suppressed. -/
  sup : Nat := 0
  /-- Locks set in the cycle. -/
  locks : List Nat := []
  deriving DecidableEq, Repr

/-- One analog input (R332): the conversion in progress began at `convStart`. -/
structure AiX where
  /-- A conversion has completed since the channel was last reconfigured. -/
  done : Bool := false
  /-- MT at the end of the last conversion; none before the first. -/
  endMt : Option Nat := none
  convStart : Nat := 0
  deriving DecidableEq, Repr

/-- The field I/O blocks. -/
structure DioState where
  /-- Synchronised levels of the inputs, before filtering (R305, R306). -/
  raw : BitVec 32 := 0
  /-- Since when each filtered input has held its level. -/
  since : SMap Nat := []
  cnts : SMap CntX := []
  /-- Field sides of DO0 to DO23 and, at 32 + c, of AO0 to AO7. -/
  outs : SMap OutX := []
  /-- A pulse's expiry, by target (R324). -/
  pulses : SMap (Option Nat) := []
  /-- From when the kick supervisor counts (R319). -/
  kickFrom : Nat := 0
  rfx : RfxCycle := {}
  /-- The IO cycle, from 1, in which the inputs' levels last changed. -/
  edgeCycle : Nat := 0
  /-- When RFX_FIRE was last recorded, by rule. -/
  rfxAt : SMap (Option Nat) := []
  ais : SMap AiX := []
  /-- The value lanes carry: OUTEN has been set since the module reset (R318), for the digital outputs, for the analog. -/
  lane : Bool := false
  laneA : Bool := false
  deriving DecidableEq, Repr

end Sys2Proof.Machine
end

