-- ==== Sys2Proof/Machine/EvtState.lean ====
section
/-!
DEFINITION. What the event recorder keeps beside its registers (ch13). The ring lies in DRAM and the tail in MRAM, so
both are memory of the machine.
-/

namespace Sys2Proof.Machine

/-- A record as a source posts it into staging (R433, before SEQ, class, NODE, TIDX and CRC). -/
structure EvtRec where
  mt : Word64
  code : Nat
  tenant : Nat := 0
  unit : Nat := 0
  subj : Nat := 0
  val1 : Nat := 0
  val2 : Nat := 0
  /-- Bytes 44 to 55, the low byte first. -/
  extra : Nat := 0
  /-- The fields whose source word carried poison (R439): [0] SUBJ, [1] and [2] VAL first and second, [3] EXTRA. -/
  poison : BitVec 4 := 0
  deriving DecidableEq, Repr

/-- A record whose SEQ is assigned and whose turn to be written has not come (R442): it is with the format server
(`asnSeq`), or stands behind one that is. -/
structure EvtInFlight where
  asnSeq : Option Nat
  seq : Nat
  /-- FLAGS as classed, with UNFMT and ASSISTED as they come. -/
  flags : Nat
  posted : EvtRec
  deriving DecidableEq, Repr

/-- The event recorder. -/
structure EvtState where
  /-- The staging FIFO, oldest first, at most 960 records (R438). -/
  staging : List EvtRec := []
  /-- Posts dropped since the last EVT_OVERFLOW (R438). -/
  dropped : Nat := 0
  /-- The class table, one byte per index (R437); every byte resets to 0x0A. -/
  classes : SMap Byte := []
  /-- The next SEQ, as assigned to records taken from staging. -/
  seqAssign : Nat := 0
  /-- EVT_NEXT: one above the last record written (R439 step 7). -/
  next : Nat := 0
  /-- The SEQ of the EVT_START record (the start of the window after a reset). -/
  base : Nat := 0
  /-- FLOOR, the lowest visible SEQ (R444). -/
  floor : Nat := 0
  /-- The reservation SEQ_RES (R434). -/
  seqRes : Nat := 0
  /-- The tail queue, oldest first: tail index and record bytes (R440, at most 16). -/
  tailQ : List (Nat × List Byte) := []
  /-- Records with the format server, in descriptor order (R442). -/
  inFlight : List EvtInFlight := []
  /-- The tail scan of this start has been run (R443: at EN after a reset). -/
  scanned : Bool := false
  deriving DecidableEq, Repr

end Sys2Proof.Machine
end

