-- ==== Sys2Proof/Machine/FabState.lean ====
section
/-!
DEFINITION. What the fabric keeps beside its registers (ch05): adjacencies, security associations, lanes, the link-state
database, the routing tables, QUENCH rules, the boundary clock and the mailbox.
-/

namespace Sys2Proof.Machine

/-- A secure association (R163): its AN and key, the highest packet number accepted. -/
structure FabSa where
  an : Nat
  sak : List Byte
  highPn : Nat := 0
  deriving DecidableEq, Repr

/-- One fabric port's link state (R164 to R166, R176, R177). Instants are elapsed. -/
structure FabPort where
  nonce : BitVec 128 := 0
  /-- The DRBG delivered that nonce (R424). -/
  nonceOk : Bool := false
  /-- When the current nonce's first OFFER was sent. -/
  nonceAt : Nat := 0
  offerAt : Nat := 0
  /-- AN that this side's next OFFER carries. -/
  offerAn : Nat := 0
  /-- AN of the peer's last OFFER, and that one came since the exchange began (R164). -/
  peerAn : Nat := 0
  offerSeen : Bool := false
  /-- A rekey is under way (R165). -/
  rekeying : Bool := false
  keyingSince : Nat := 0
  keyFailAt : Option Nat := none
  peerMac : Nat := 0
  peerNode : Nat := 0
  peerCaps : Nat := 0
  peerKnown : Bool := false
  rx : List FabSa := []
  tx : Option FabSa := none
  txPn : Nat := 0
  saAt : Nat := 0
  /-- When the old receive SA is to be deleted (R165). -/
  oldSaAt : Option Nat := none
  helloAt : Nat := 0
  /-- The instant the neighbour is declared dead. -/
  deadAt : Option Nat := none
  /-- A HELLO arrived as the dead timer expired: that expiry is void (R178). -/
  deadVoid : Bool := false
  /-- The 802.3br verify exchange succeeded (R192). -/
  verified : Bool := false
  /-- LSAs sent and not yet acknowledged (R183). -/
  unacked : List Lsa := []
  lsaSentAt : Nat := 0
  /-- How much of each CONTROL policer's burst is used, in 8 × 10^11ths of a byte, and since when: CP and other CONTROL
  (R191). Entries 8 to 11 police the internal port's frames by egress port. -/
  cpUsed : Nat := 0
  cpAt : Nat := 0
  ctlUsed : Nat := 0
  ctlAt : Nat := 0
  /-- PTP: when Announce was last heard, and the port's next transmissions (R198). -/
  annAt : Option Nat := none
  ptpTxAt : Nat := 0
  /-- When a frame last passed (Table 16-7). -/
  trafficAt : Option Nat := none
  deriving DecidableEq, Repr

/-- A frame waiting in a lane: whether it lies in the shared pool (R189). -/
structure FabQueued where
  frame : Leat
  pool : Bool := false
  deriving DecidableEq, Repr

/-- A QUENCH drop rule (R194). -/
structure FabRule where
  valid : Bool := false
  payload : List Byte := []
  issuer : Nat := 0
  /-- Elapsed instant of expiry. -/
  until_ : Nat := 0
  hits : Nat := 0
  deriving DecidableEq, Repr

/-- A stored LSA (R182, R184): the 48 bytes' fields, and when it was installed. -/
structure FabLsa where
  lsa : Lsa
  at_ : Nat
  /-- It was held before this module first flooded its own LSA (R180). -/
  beforeOwn : Bool := false
  deriving DecidableEq, Repr

/-- A QUENCH of this module's own that is still to be resent (R193). -/
structure FabResend where
  frame : Leat
  left : Nat
  at_ : Nat
  deriving DecidableEq, Repr

/-- The boundary clock (R198, R199). Times in MT. -/
structure FabPtp where
  /-- The dataset of the master that is followed. -/
  best : Option PtpAnnounce := none
  /-- The dataset of the master heard at each port. -/
  foreign : SMap (Option PtpAnnounce) := []
  /-- Consecutive Sync intervals below 200 ns. -/
  good : Nat := 0
  /-- t2 − t1 of the last Sync; t3 of the Delay_Req under way; t4 − t3 of the last answered one. -/
  toSlave : Int := 0
  t3 : Option Nat := none
  toMaster : Option Int := none
  /-- Elapsed instant of the last Sync from this master. -/
  syncAt : Option Nat := none
  /-- The messages last sent by each port, and how many intervals have passed at it. -/
  sent : SMap (List PtpMsg) := []
  intervals : SMap Nat := []
  deriving DecidableEq, Repr

/-- The fabric. -/
structure FabState where
  ports : SMap FabPort := []
  /-- Frames queued, by egress port × 4 + lane, oldest first (R189). -/
  queues : SMap (List FabQueued) := []
  /-- Deficit counters of the weighted lanes, by port × 4 + lane, and the lane in turn by port (R190). -/
  deficit : SMap Nat := []
  drrLane : SMap Nat := []
  /-- The frame last put on the wire of each port. -/
  lastTx : SMap (Option Leat) := []
  /-- The bytes last put on the medium of each port (R158, R173). -/
  lastWire : SMap (List Byte) := []
  /-- When ICV_CUT was last recorded (R171). -/
  icvEvtAt : Option Nat := none
  /-- When the ages of the link-state entries were last written (R184). -/
  agesAt : Nat := 0
  /-- Frames that wait for the internal port's transmit channel, the first halted by poison (R386). -/
  txWait : List (Leat × Option Nat) := []
  /-- Frames delivered at the internal port and not yet taken by their client (R160). -/
  inbox : List Leat := []
  lsdb : SMap (Option FabLsa) := []
  /-- SEQ of the own LSA, and whether this module has flooded one (R180, R182). -/
  ownSeq : Nat := 0
  ownFlooded : Bool := false
  ownAt : Nat := 0
  /-- Active and shadow routing entries by node (Table 5-21); unlisted entries read 7 (NONE). -/
  routes : SMap (BitVec 32) := []
  shadow : SMap (BitVec 32) := []
  /-- Count of installed database changes (Table 5-11). -/
  generation : Nat := 0
  /-- The change that no computation has covered yet: when it came. -/
  dirtyAt : Option Nat := none
  /-- The table of the computation that runs, from the database at its start (R186). -/
  computing : Option (SMap (BitVec 32)) := none
  /-- Elapsed instants of the claim procedure (R179): EN, TENTATIVE flooded, next retry. -/
  enAt : Nat := 0
  tentativeAt : Option Nat := none
  candidate : Nat := 0
  retryAt : Nat := 0
  /-- The first adjacency's database exchange is complete (R179). -/
  exchanged : Bool := false
  rules : SMap FabRule := []
  resend : List FabResend := []
  ptp : FabPtp := {}
  /-- The mailbox, 0x8000 to 0xCFFF, by word (R201). -/
  mailbox : SMap (BitVec 32) := []
  /-- Leat SEQ per TYPE (Table 5-3). -/
  seqs : SMap Nat := []
  /-- Tunnel answers sent: Neighbor Advertisements and echo replies (R175), by port. -/
  ndAnswers : SMap Nat := []
  /-- The address each tunnel port asks Neighbor Discovery for: its gateway, or its on-link peer (R175). -/
  solicits : SMap (BitVec 128) := []
  echoAnswers : SMap Nat := []
  deriving DecidableEq, Repr

end Sys2Proof.Machine
end

