-- ==== Sys2Proof/Machine/GateState.lean ====
section
/-!
DEFINITION. What the tenant gate keeps beside its registers (ch06). The tenant table and the masks are memory of the
machine (R205); the session and subscription tables are internal and are held here.
-/

namespace Sys2Proof.Machine

/-- A token bucket (R225): its tokens in bytes × 10^6 and the elapsed time of the last refill. -/
structure Bucket where
  tokens : Nat := 0
  at_ : Nat := 0
  deriving DecidableEq, Repr

/-- One session slot (R212 to R215, R227). -/
structure Session where
  /-- 0 FREE, 1 PENDING, 2 OPEN, 3 EXPIRED (GATE_SINFO). -/
  state : Nat := 0
  sid : Nat := 0
  node : Nat := 0
  tenant : Nat := 0
  zone : Nat := 0
  rights : Nat := 0
  nc : BitVec 128 := 0
  ks : BitVec 256 := 0
  idleS : Nat := 0
  lifeMin : Nat := 0
  /-- Elapsed: when the slot entered its state, when OPEN began, the last request that passed R215. -/
  since : Nat := 0
  openedAt : Nat := 0
  lastReq : Nat := 0
  /-- The highest SEQ accepted and the SEQs accepted within 32 of it: bit k for highest − k (R215). -/
  anySeq : Bool := false
  hiSeq : Nat := 0
  seen : BitVec 33 := 0
  bucket : Bucket := {}
  /-- Closed by a command while a request already started is still to be answered (R228). -/
  closing : Bool := false
  /-- When REFUSE RATE was last sent (R225). -/
  rateAt : Option Nat := none
  deriving DecidableEq, Repr

/-- One subscription entry (R221). -/
structure SubEntry where
  slot : Nat
  id : Nat
  per : Nat
  due : Nat
  /-- Producer sequence and status at the last push, none before the first. -/
  last : Option (Nat × Nat) := none
  deriving DecidableEq, Repr

/-- What a request's items are read for. -/
inductive GateFor where
  | read | write | sub (per : Nat) | push
  deriving DecidableEq, Repr

/-- A request in progress: its items are judged in turn; one whose page is not resident waits for it (R144). -/
structure GateJob where
  slot : Nat
  /-- TYPE and lane of the request, and of its reply. -/
  typ : Nat
  lane : Nat
  reqid : Nat
  what : GateFor
  /-- The visibility masks that named the session's tenant as the request started (R205). -/
  masks : List Nat
  /-- Items still to judge, as the message holds them. -/
  todo : List (List Byte)
  /-- Items of the reply. -/
  done : List (List Byte) := []
  deriving DecidableEq, Repr

/-- The tenant gate. -/
structure GateState where
  sessions : SMap Session := []
  subs : List SubEntry := []
  tenantBuckets : SMap Bucket := []
  openBucket : Bucket := {}
  /-- When NOSESS was last sent to a node (R212). -/
  nosess : SMap (Option Nat) := []
  waits : List GateJob := []
  deriving DecidableEq, Repr

end Sys2Proof.Machine
end

