-- ==== Sys2Proof/Machine/HopState.lean ====
section
/-!
DEFINITION. What the point pager keeps beside its registers (ch04). Records, frames and the replica store are memory of
the machine.
-/

namespace Sys2Proof.Machine

/-- One inbound table entry with its timers (R127, R129, Table 4-15). -/
structure HopRange where
  first : Nat := 0
  node : Nat := 0
  count : Nat := 0
  maxper : Nat := 0
  slot : Nat := 0
  pinc : Nat := 0
  /-- 0 none, 1 SUBSCRIBING, 2 LIVE, 3 STALE (Table 4-15). -/
  state : Nat := 0
  /-- A producer incarnation has been stored since the range was made. -/
  pincKnown : Bool := false
  /-- Elapsed instant at which the range timer expires (T_STALE). -/
  staleAt : Nat := 0
  /-- Elapsed time of the last SUB sent. -/
  lastSub : Nat := 0
  /-- Refusal codes already recorded (R129, R122): bit c for RESULT c, bit 255 kept as bit 8. -/
  refused : Nat := 0
  deriving DecidableEq, Repr

/-- One outbound table entry (R130). -/
structure HopOut where
  valid : Bool := false
  first : Nat := 0
  node : Nat := 0
  count : Nat := 0
  maxper : Nat := 0
  /-- Elapsed instants of lease expiry and of the next full push. -/
  leaseEnd : Nat := 0
  nextPush : Nat := 0
  deriving DecidableEq, Repr

/-- One frame of the replica cache (R138, R141, R144). -/
structure HopFrame where
  page : Option Nat := none
  pins : BitVec 2 := 0
  ref : Bool := false
  busy : Bool := false
  deriving DecidableEq, Repr

/-- An outstanding miss (R144): port 0 the gate, 1 to 4 the lookup ports; the ID asked for; the page; the victim frame,
none while the assist server chooses (R146). -/
structure HopMiss where
  port : Nat
  id : Nat
  page : Nat
  frame : Option Nat
  deriving DecidableEq, Repr

/-- A record waiting for a FETCH answer (R150). -/
structure HopRefetch where
  slot : Nat
  tries : Nat
  sentAt : Nat
  deriving DecidableEq, Repr

/-- The point pager. -/
structure HopState where
  /-- The node table, one word per node (Table 4-14). -/
  nodeTab : SMap (BitVec 32) := []
  ranges : SMap HopRange := []
  outs : SMap HopOut := []
  /-- The push-pending bitmap by own index (R126). -/
  pending : SMap Bool := []
  frames : SMap HopFrame := []
  /-- The clock hand (R145). -/
  hand : Nat := 0
  misses : List HopMiss := []
  /-- The bank of a pin scan in progress (R141). -/
  scan : Option Nat := none
  refetch : List HopRefetch := []
  deriving DecidableEq, Repr

end Sys2Proof.Machine
end

