-- ==== Sys2Proof/Machine/ImgState.lean ====
section
/-!
DEFINITION. What the image unit keeps beside its registers (ch03): its memory's lists, the force table, the transfer
queue, journal staging and the stations.
-/

namespace Sys2Proof.Machine

/-- One force (R113). -/
structure Force where
  valid : Bool := false
  key : Word := 0
  out : Bool := false
  hasShadow : Bool := false
  value : Word64 := 0
  shadow : Word64 := 0
  mt : Word64 := 0
  deriving DecidableEq, Repr

/-- The kinds of transfer of R92. -/
inductive XferKind where
  | commit | copy
  deriving DecidableEq, Repr

/-- A staged journal record (R99): its task, the retained bytes and the address of a poisoned word, if any. -/
structure JrnRec where
  task : Nat
  bytes : List Byte
  poisonAt : Option Nat := none
  deriving DecidableEq, Repr

/-- An output slot as a commit reads it (R95, R96 step 1). -/
structure OutRead where
  value : Nat
  q : Nat
  alarm : Bool
  poison : Bool
  deriving DecidableEq, Repr

/-- A queued or running transfer (R92): a commit (ordered by its SCH_DONE) or an input copy (ordered by release
instant, priority, task). -/
structure Xfer where
  kind : XferKind
  task : Nat
  relInst : Nat := 0
  prio : Nat := 0
  /-- Elapsed time at which the transfer started. -/
  started : Nat := 0
  /-- The lead was abandoned or the iteration aborted: the result is discarded. -/
  discard : Bool := false
  /-- The record of a commit that waits for staging space (R99). -/
  waits : Option JrnRec := none
  /-- A commit in hand: its instant C, its output slots in list order, the keys forced as it began (R96, R119), the record it
  staged and the one that this replaced. -/
  at_ : Nat := 0
  outs : List OutRead := []
  forced : List Nat := []
  jrn : Option (JrnRec × Option JrnRec) := none
  deriving DecidableEq, Repr

/-- One station's buffers and timers (R93, R103, R104, R107). -/
structure Stn where
  /-- A block has been accepted. -/
  everIn : Bool := false
  front : List Byte := []
  /-- MT at which the front block's last segment was accepted (R93). -/
  frontMt : Word64 := 0
  /-- Assembly of the block arriving: its SEQ, the next segment expected, the bytes so far. -/
  asmActive : Bool := false
  asmSeq : Nat := 0
  asmNext : Nat := 0
  asmData : List Byte := []
  /-- A copy reads the station: the front buffer is locked (R94). -/
  locked : Bool := false
  /-- A block that completed while the buffer was locked: bytes and MT. -/
  back : Option (List Byte × Word64) := none
  /-- The output block, 240 bytes by offset. -/
  outBlk : SMap Byte := []
  outSeq : Nat := 0
  /-- Elapsed time of the last OUT sent. -/
  lastOut : Nat := 0
  outSent : Bool := false
  /-- Elapsed time of the last valid IN accepted (R107). -/
  lastIn : Nat := 0
  /-- Elapsed time of the last STN_BADPDU event, none before the first (R103). -/
  badEvt : Option Nat := none
  /-- A PROBE is held while the station gate is closed (R455). -/
  probeHeld : Bool := false
  deriving DecidableEq, Repr

/-- One task's image bookkeeping. -/
structure ImgTask where
  /-- The journal slot (0 or 1) that the last record went to; none before the first since reset (R99). -/
  jslot : Option Nat := none
  /-- IFLAGS bits 1 to 4 of the copy in hand. -/
  flags : Nat := 0
  /-- The local sample of the iteration has been written; a DI bit of it is forced (R89). -/
  sampled : Bool := false
  diForced : Bool := false
  deriving DecidableEq, Repr

/-- The image unit. -/
structure ImgState where
  /-- The two list banks, by word address (Table 3-1, words 0 to 0x17FFF). -/
  lists : SMap Word := []
  /-- The force table, entries 0 to 1,023 (R113). -/
  forces : SMap Force := []
  queue : List Xfer := []
  cur : Option Xfer := none
  tasks : SMap ImgTask := []
  stns : SMap Stn := []
  /-- Staged journal records, oldest first (R99). -/
  staged : List JrnRec := []
  deriving DecidableEq, Repr

end Sys2Proof.Machine
end

