-- ==== Sys2Proof/Machine/KeyState.lean ====
section
/-!
DEFINITION. What the key vault and crypto engine keep beside their registers (ch12). No address of the map reaches the
vault, so its slots, its working keys and the session records are held here.
-/

namespace Sys2Proof.Machine

/-- One slot of the vault (Table 12-3). TAG is represented by `tagOk`: whether the stored tag verifies. -/
structure KeySlot where
  /-- 0 EMPTY, 1 ROOT, 2 KDK, 3 AES, 4 ECPRIV, 5 ECPUB. -/
  kind : Nat := 0
  bind : Bool := false
  parent : Nat := 0
  depth : Nat := 0
  usage : BitVec 16 := 0
  cmask : BitVec 16 := 0
  gen : Nat := 0
  pgen : Nat := 0
  purpose : Nat := 0
  /-- MATERIAL in slot order: 32 bytes, or d then Q, or Q. -/
  material : List (BitVec 8) := []
  tagOk : Bool := true
  /-- A word of the slot is uncorrectable (SECDED). -/
  uncorrectable : Bool := false
  /-- KEY_SLOTBAD has been recorded for the slot (R413: a first INTEG). -/
  badNoted : Bool := false
  deriving DecidableEq, Repr

/-- What an operation inside the engine does when it completes (R421, R416), beyond writing DST. -/
inductive KeyEffect where
  | none
  /-- A created or unwrapped key goes to a slot. -/
  | slot (n : Nat) (k : KeySlot)
  /-- The hash state at AUX is rewritten. -/
  | hashState (addr : Nat) (bytes : List (BitVec 8))
  /-- M, KEY_SUCC, the adoption of the successor, TPOL. -/
  | measure (m : BitVec 256)
  | declare (m : BitVec 256)
  | adopt
  | policy (tpol : Nat)
  deriving DecidableEq, Repr

/-- An operation inside the engine (R416), from its key's latching to its completion. -/
structure KeyInside where
  /-- SEQ of the ring descriptor. -/
  seq : Nat
  /-- The slots whose keys are latched: none, the key slot, or the key slot and the one to wrap. -/
  keys : List Nat
  status : Nat
  dst : Nat
  out : List (BitVec 8)
  effect : KeyEffect
  /-- It draws from the DRBG (R424). -/
  rng : Bool := false
  deriving DecidableEq, Repr

/-- A session record (R422): tenant, rights, direction keys' source K_S, and the tenant root's GEN at its creation. -/
structure KeySession where
  valid : Bool := false
  tenant : Nat := 0
  rights : Nat := 0
  gen : Nat := 0
  ks : BitVec 256 := 0
  sealOk : Bool := true
  deriving DecidableEq, Repr

/-- What the gate does with a use of a session record once the key-use check has passed (R422). -/
inductive KeyAct where
  /-- Open an inbound frame of the gate. -/
  | openIn (f : Leat)
  /-- Verify an authorised QUENCH received on a port. -/
  | quench (p : Nat) (f : Leat)
  /-- Protect an outbound frame (its payload in the clear) and send it; the slot is freed after it. -/
  | seal (f : Leat) (thenFree : Bool)
  /-- A use asked for by itself: its direction and the SEQ of its frame. -/
  | bare (dir seq : Nat)
  deriving DecidableEq, Repr

/-- A session use that waits for the key-use server's answer (R422, ASSIST mode): the SEQ of its descriptor. -/
structure KeyUse where
  asnSeq : Nat
  session : Nat
  act : KeyAct
  deriving DecidableEq, Repr

/-- The key vault and crypto engine. -/
structure KeyState where
  slots : SMap KeySlot := []
  /-- K_PUF and K_INT, in the engine and in no slot (R405, R409). -/
  kPuf : Option (BitVec 256) := none
  kInt : BitVec 256 := 0
  /-- The vault seed VS in use (R408). -/
  seed : BitVec 256 := 0
  inside : Option KeyInside := none
  sessions : SMap KeySession := []
  /-- A descriptor with OWN = 0 was found: execution waits for CQTAIL (R421). -/
  stopped : Bool := false
  uses : List KeyUse := []
  /-- Enabled tamper sources that read active now: bit order of the fired field of KEY_TAMP (R425, R428). -/
  active : BitVec 7 := 0
  deriving DecidableEq, Repr

end Sys2Proof.Machine
end

