-- ==== Sys2Proof/Machine/LoopState.lean ====
section
/-!
DEFINITION. What the loop engine keeps beside its registers (ch07). Its 128 KiB memory is a map of 32-bit words: loop n's
word at record offset 4k is word 64n + k, group g's word j is word 0x4000 + 8g + j (Table 7-1).
-/

namespace Sys2Proof.Machine

/-- Bookkeeping of one loop that the loop memory does not show (the internal area of Table 7-1). -/
structure LoopX where
  /-- The next due instant, in MT (R242). -/
  nextDue : Nat := 0
  armed : Bool := false
  /-- The MODE that the last evaluation ran in (R253). -/
  lastMode : Nat := 0
  /-- No evaluation has been made since MODE left OFF. -/
  first : Bool := false
  /-- Evaluations since the last publication (R259). -/
  pub : Nat := 0
  /-- When LOOP_MISS was last recorded (R246). -/
  missAt : Option Nat := none
  /-- A descriptor of the loop is with the server (R260). -/
  posted : Bool := false
  /-- The words of the record that carry an uncorrectable error (R263), until each is rewritten. -/
  bad : BitVec 64 := 0
  deriving DecidableEq, Repr

/-- A due evaluation (R243): its instant, whether it is a group, its number. -/
structure LoopDue where
  at_ : Nat
  group : Bool
  n : Nat
  deriving DecidableEq, Repr

/-- What an evaluation of a loop gives before it is applied (R249 to R254, R257): nothing is written to the record until then
(R262). -/
structure LoopEv where
  n : Nat
  /-- The MODE it ran in. -/
  mode : Nat := 0
  pv : BitVec 32 := 0
  sp : BitVec 32 := 0
  /-- Nothing is applied: the output, I and D are held. -/
  hold : Bool := false
  /-- A deadline was missed: nothing is written for this due (R246). -/
  missed : Bool := false
  /-- The conditions it found (Table 7-6). -/
  pvBad : Bool := false
  spBad : Bool := false
  badCoef : Bool := false
  limInv : Bool := false
  numErr : Bool := false
  trkFrc : Bool := false
  /-- What becomes of GAP, none where it stays. -/
  gap : Option Bool := none
  /-- MANOUT as the change to MAN sets it (Table 7-5). -/
  manOut : Option (BitVec 32) := none
  /-- Record words as they stood at its start (R254): KP, B, OUT, the rate bound, OLO, OHI, OGAIN, OOFS. -/
  kp : BitVec 32 := 0
  b : BitVec 32 := 0
  out : BitVec 32 := 0
  lim : Option (BitVec 32) := none
  lo : BitVec 32 := 0
  hi : BitVec 32 := 0
  gain : BitVec 32 := 0
  ofs : BitVec 32 := 0
  /-- The requested output; the integral, the filtered derivative, the derivative input. -/
  u : BitVec 32 := 0
  i : BitVec 32 := 0
  d : BitVec 32 := 0
  x : BitVec 32 := 0
  p : BitVec 32 := 0
  sat : Bool := false
  /-- The PV was usable, so p, d and the history are those of this evaluation. -/
  law : Bool := false
  /-- Served by the assist server: I and D are not the engine's (R261). -/
  served : Bool := false
  /-- The answer is still with the server. -/
  waits : Bool := false
  /-- May be selected in its group (R257). -/
  eligible : Bool := false
  /-- The output is held: REQ is published UNCERTAIN (R259). -/
  heldOut : Bool := false
  /-- Q of the PV's source, the start of the evaluation in MT. -/
  q : Nat := 0
  start : Nat := 0
  deriving DecidableEq, Repr

/-- The loop engine. -/
structure LoopState where
  mem : SMap (BitVec 32) := []
  loops : SMap LoopX := []
  /-- The due queue, in service order (R243). -/
  queue : List LoopDue := []
  /-- Groups whose selection waits for the server, with their members' results (R257, R261). -/
  waiting : List (Nat × List LoopEv) := []
  /-- Evaluations of single loops that wait for the server (R260). -/
  singles : List LoopEv := []
  /-- The due instants of groups, and those armed. -/
  groups : SMap LoopX := []
  deriving DecidableEq, Repr

end Sys2Proof.Machine
end

