-- ==== Sys2Proof/Machine/MemState.lean ====
section
/-!
DEFINITION. What the memories hold beside their data bytes (ch11): the state of the check bits, the stripe's disagreement
with the data, the caches, the Dresser's bookkeeping and the spare rows.
-/

namespace Sys2Proof.Machine

/-- The check bits of one 64-bit word, as their difference from the clean encoding of the word's stored data (R374):
bit j of `par` is set when lane j's parity bit is wrong for a clean word, `tags` are the poison tags. For a SECDED word
`flips` counts the flipped bits of the code word. A word with the default value is clean and valid. -/
structure Flaw where
  par : BitVec 8 := 0
  tags : BitVec 2 := 0
  flips : BitVec 72 := 0
  deriving DecidableEq, Repr

/-- One cache line: 64 bytes, whether it is dirty, and one poison bit per 8-byte word (R385). -/
structure CacheLine where
  dirty : Bool
  data : List Byte
  poison : BitVec 8 := 0
  deriving DecidableEq, Repr

/-- One entry of the spare-row map (R397). -/
structure SpareEntry where
  row : Nat := 0
  valid : Bool := false
  fuse : Bool := false
  deriving DecidableEq, Repr

/-- A soft repair in progress (R398): bank, physical row, spare, words copied. -/
structure Repair where
  bank : Nat
  row : Nat
  spare : Nat
  copied : Nat := 0
  deriving DecidableEq, Repr

/-- What the memory system keeps for a core: its latest access-fault trap (R24, R384), the fault-detail CSRs (Table 11-3), its
reservation. -/
structure CoreTrap where
  cause : Nat := 0
  mtval : Nat := 0
  /-- Traps taken from memory accesses and vendor CSRs since reset. -/
  count : Nat := 0
  meaddr : Nat := 0
  meinfo : Nat := 0
  /-- The 4-byte word that a load-reserve holds, as physical address / 4. -/
  resv : Option Nat := none
  /-- The core runs in user mode; a trap takes it to machine mode (R18). -/
  user : Bool := false
  /-- The mode that the latest trap left was user mode. -/
  fromUser : Bool := false
  /-- How many times an engine has raised the core's assist interrupt (R40, rule 1). -/
  assistIrqs : Nat := 0
  deriving DecidableEq, Repr

/-- The memory-integrity block. -/
structure MemState where
  /-- Check-bit state by word address / 8; unlisted words are clean and valid. -/
  flaws : SMap Flaw := []
  /-- For each stripe row, the XOR of the stripe word with the 16 data words; 0 when they agree (R375). -/
  sdiff : SMap Word64 := []
  /-- For each stripe row, the lanes of the stripe word whose parity is wrong. -/
  spar : SMap (BitVec 8) := []
  /-- The rewrite queue: word addresses, oldest first, at most 16 (R379). -/
  rewriteQ : List Nat := []
  /-- Spare-row map entries 0 to 135 (R397). -/
  spares : SMap SpareEntry := []
  /-- For bank × 512 + row: the last sweep that corrected an error there and how many consecutive sweeps did (R398). -/
  corrRows : SMap (Nat × Nat) := []
  repair : Option Repair := none
  /-- Banks for which SPAREOUT has been recorded (R399). -/
  spareOut : BitVec 17 := 0
  /-- MEM_UE records in the current second: the second and the count (R403). -/
  ueSecond : Nat × Nat := (0, 0)
  /-- Position of the SECDED sweep: the next word address / 8 of the core-local memories (R396). -/
  secPos : Nat := 0
  /-- Data and instruction cache lines, by core × 2^26 + line address / 64. -/
  dcache : SMap (Option CacheLine) := []
  icache : SMap (Option CacheLine) := []
  traps : SMap CoreTrap := []
  deriving DecidableEq, Repr

end Sys2Proof.Machine
end

