-- ==== Sys2Proof/Machine/MtrState.lean ====
section
/-!
DEFINITION. What the metering engine keeps beside its registers (ch08): its memory by 32-bit word (Table 8-15), the 384
cumulative registers, the time base, the interval in progress, checkpoints and publication.
-/

namespace Sys2Proof.Machine

/-- A cumulative register with its residue (R284, R285): COUNT modulo 2^48, WRAP modulo 256, BAD, and the residue in
units of 2^-32 LSB. -/
structure MtrReg where
  count : Nat := 0
  wrap : Nat := 0
  bad : Bool := false
  resid : Int := 0
  deriving DecidableEq, Repr

/-- A checkpoint being written (R293, R294): its slot, its CSEQ, and the registers as they stood at its start. -/
structure MtrCkpt where
  slot : Nat
  cseq : Nat
  mt : Nat
  regs : SMap MtrReg
  deriving DecidableEq, Repr

/-- Sums of one feeder phase: squares and the fundamental bin's real and imaginary sums over the reference cycle in
progress, squares and squared fundamental magnitudes over the interval in progress (R276, R279, R289). -/
structure MtrPhase where
  cycV2 : Rat := 0
  cycI2 : Rat := 0
  cycVr : Rat := 0
  cycVi : Rat := 0
  cycIr : Rat := 0
  cycIi : Rat := 0
  intV2 : Rat := 0
  intI2 : Rat := 0
  intV1 : Rat := 0
  intI1 : Rat := 0
  deriving DecidableEq, Repr

/-- A command kept until the checkpoint in progress completes (R302). -/
inductive MtrWait where
  | clear (feeder : Nat) | restore (reg : Nat) | ckpt
  deriving DecidableEq, Repr

/-- A channel's filter: what it keeps, by code, and its newest outputs, the latest first (R275). -/
structure MtrChan where
  filt : Nat := 0
  hist : List Rat := []
  deriving DecidableEq, Repr

/-- A round in progress, for a fault that abandons it (R299): the registers and sums before its samples, and how many samples
it accumulates or streams. -/
structure MtrRound where
  regs : SMap MtrReg
  phases : SMap MtrPhase
  count : Nat
  deriving DecidableEq, Repr

/-- The metering engine. -/
structure MtrState where
  /-- Channel, staging and feeder records, publication table, latch pages: word address = offset / 4. -/
  mem : SMap (BitVec 32) := []
  regs : SMap MtrReg := []
  /-- The registers at the last latch (R289). -/
  snaps : SMap MtrReg := []
  phases : SMap MtrPhase := []
  /-- The 40 channels' filters. -/
  chans : List MtrChan := []
  /-- Frequency of the previous reference cycle in Hz, the fundamental bin's oscillator (Table 8-5). -/
  osc : Rat := 0
  round : Option MtrRound := none
  /-- Flags of the set records of the interval in progress, by set (Table 8-9). -/
  flags : SMap Nat := []
  /-- Header flags of the interval in progress (Table 8-8). -/
  hdrFlags : Nat := 0
  ncyc : Nat := 0
  nsamp : Nat := 0
  /-- MT of the crossing that opened the interval, and the latch length in force (R287). -/
  openMt : Nat := 0
  nlat : Nat := 0
  /-- MT of the crossing that opened the reference cycle in progress. -/
  cycMt : Nat := 0
  /-- Samples in the reference cycle in progress, samples and cycles since EN (Table 8-14). -/
  cycSamples : Nat := 0
  sinceEn : Nat := 0
  cycles : Nat := 0
  /-- Elapsed instant of the last valid crossing, whether the detector is armed, the previous reference sample with the
  stamp and the elapsed instant of its arrival (R272). -/
  zcAt : Option Nat := none
  armed : Bool := false
  prevRef : Rat := 0
  prevStamp : Nat := 0
  prevAt : Nat := 0
  /-- Elapsed instants of the next sample set and of the end of TMO_MS (R270, R273). -/
  sampleAt : Nat := 0
  tmoAt : Nat := 0
  /-- Samples since the start of FALLBACK, the number of synthetic crossings made, the run of good crossings. -/
  fbSamples : Nat := 0
  fbCount : Nat := 0
  run : Nat := 0
  /-- A new interval begins with the next sample (Table 8-14, LATCH). -/
  latStart : Bool := false
  /-- A calibration waits for the cycle boundary: its channel (R277). -/
  calPend : Option Nat := none
  /-- Feeders to clear at the next round (R292). -/
  clearPend : List Nat := []
  ckpt : Option MtrCkpt := none
  /-- A further checkpoint was requested during one, or while the writer is halted (R293). -/
  ckptQueued : Bool := false
  /-- Commands kept until the checkpoint completes (R302). -/
  waits : List MtrWait := []
  /-- Elapsed instant of the next timed checkpoint. -/
  ckptAt : Nat := 0
  /-- The engine has been enabled since the module reset (R293: first EN). -/
  started : Bool := false
  /-- Next publication entry to write, none when no publication runs, and the closing crossing's MT (R291). -/
  pubNext : Option Nat := none
  pubMt : Nat := 0
  /-- Entries whose first publication since a takeover is still to come (R468). -/
  unsure : List Nat := []
  /-- Elapsed time at which MTR_OVR was last recorded, by channel (R269). -/
  ovrAt : SMap (Option Nat) := []
  deriving DecidableEq, Repr

end Sys2Proof.Machine
end

