-- ==== Sys2Proof/Machine/PairState.lean ====
section
/-!
DEFINITION. What the pair block keeps beside its registers (ch14): Fantail timers, the partner's last Fantail, the mirror
queue and a standby's assembly of batches. Instants are elapsed.
-/

namespace Sys2Proof.Machine

/-- A part of a base copy (R459): own-point records, force table entries (the first part also clears the standby's table),
a task's journal record, loops' state words, outbound entries, its end. -/
inductive MirUnit where
  | pts (own : List Nat)
  | forces (clear : Bool) (idx : List Nat)
  | journal (task : Nat)
  | loops (ns : List Nat)
  | outs (es : List Nat)
  | done
  deriving DecidableEq, Repr

/-- A queued mirror batch (R460): its MSEQ, its frames, and where a poisoned source word lies, if any. -/
structure MirBatch where
  frames : List MirFrame
  poisonAt : Option Nat := none
  deriving DecidableEq, Repr

/-- The pair block. -/
structure PairState where
  /-- When the last Fantail was sent, and how many modulo 2^16 (Table 14-5). -/
  lastBeat : Nat := 0
  beatCount : Nat := 0
  /-- P4's link is up (R460). -/
  p4Link : Bool := false
  /-- Loss timers whose expiry a Fantail of the same FAB cycle, taken just before it, makes void (R465): [0] P4's path, [1] the
  fabric's, [2] both. -/
  void : BitVec 3 := 0
  /-- Elapsed times of the last valid Fantail on P4 and on the fabric, and of the last from an ACTIVE partner. -/
  heardP4 : Option Nat := none
  heardFab : Option Nat := none
  heardActive : Option Nat := none
  /-- The partner's last Fantail. -/
  partner : Option Fantail := none
  /-- The partner's silence has been reported (Table 14-1). -/
  silent : Bool := false
  /-- When the present role was entered (ELECT_MS). -/
  since : Nat := 0
  /-- Batches waiting for the mirror channel, oldest first, and the batch that poison has halted (R386). -/
  queue : List MirBatch := []
  halted : Option MirBatch := none
  /-- MSEQ of the last batch sent. -/
  sentSeq : Nat := 0
  /-- What a base copy still has to send, in order (R459). -/
  base : List MirUnit := []
  /-- Standby: frames of the batch being assembled. -/
  rxFrames : List MirFrame := []
  /-- Standby: the next MSEQ expected, none before the first batch. -/
  rxNext : Option Nat := none
  /-- Standby: the base copy arriving: 0 none, 1 without a gap so far, 2 with one. -/
  rxBase : Nat := 0
  /-- When the last loop-state sweep was made (R458). -/
  lsyncAt : Nat := 0
  /-- The Fantail and the mirror frame last sent. -/
  lastSent : Option Fantail := none
  lastMirror : Option MirFrame := none
  /-- Frames that P4 has accepted and that wait for the pair block. -/
  p4In : List Leat := []
  /-- RESUMEALL is due once every task that owns a local output has committed (R454). -/
  resumeDue : Bool := false
  /-- Loops with an analog output for destination are waited for too (R559). -/
  resumeLoops : Bool := false
  /-- Tasks that have committed since. -/
  committed : List Nat := []
  deriving DecidableEq, Repr

end Sys2Proof.Machine
end

