-- ==== Sys2Proof/Machine/PwrState.lean ====
section
/-!
DEFINITION. What the power block, the real-time clock and the start sequence keep beside their registers (ch16 to ch18).
Instants are elapsed unless said otherwise.
-/

namespace Sys2Proof.Machine

/-- The power supervisor (ch16). -/
structure PwrState where
  /-- The module has reached power-good and its reset is released. -/
  released : Bool := false
  /-- When the Brake in hand began, and MT at the warning. -/
  brakeAt : Nat := 0
  /-- Since when VIN has been at or above the resume level (R512), none while it is below. -/
  okSince : Option Nat := none
  /-- When PWR_INLOW was last recorded (R507). -/
  inlowAt : Option Nat := none
  /-- In a Brake: when HELD was reached (R510), and whether an iteration was aborted at the bound (R511). -/
  heldAt : Option Nat := none
  qabort : Bool := false
  deriving DecidableEq, Repr

/-- The real-time clock (ch17). -/
structure RtcState where
  /-- Elapsed instant of the last second boundary, where the prescaler is 0 (R533). -/
  secAt : Nat := 0
  /-- The oscillator is stopped (R534). -/
  stopped : Bool := false
  /-- The seven shadows, SUBSEC to YEAR (R536), meaningful while FROZEN, and when they were taken. -/
  shadows : List (BitVec 32) := []
  frozenAt : Nat := 0
  /-- The FAB clock was LOCKED at the SYNC's GO (R535). -/
  syncLocked : Bool := false
  /-- A SET accepted while the oscillator is stopped waits for the next RTC cycle (R538). -/
  setPending : Bool := false
  /-- A SYNC whose instant came while the oscillator is stopped waits for the next RTC cycle (R539). -/
  syncDue : Bool := false
  /-- The seven time registers as they stood before the last refresh that a tick or a commit made (R537). -/
  prior : List (BitVec 32) := []
  /-- The RTC cycle of the last write of a backup byte, and that cycle's writes, oldest first (R542). -/
  wroteCyc : Nat := 0
  wrote : List (Nat × BitVec 32) := []
  /-- When RTC_VBLOW was last recorded (R531). -/
  vblowAt : Option Nat := none
  /-- The domain has lost its supply since the last start (R529): the next start records RTC_BDLOSS. -/
  lost : Bool := false
  /-- The last sample of each tamper loop: open = true (R543). -/
  loops : BitVec 3 := 0
  deriving DecidableEq, Repr

/-- The start sequence (ch18): where it stands, and the facts later steps need. -/
structure StartState where
  /-- 0 in reset, 1 ROM part done and runtime entered, 2 locked and running, 3 recovery mode, 4 ROM halted (R561). -/
  phase : Nat := 0
  /-- Elapsed time of the last module reset, from which free-running counters count, and of its release (SYS_TLOCK,
  SYS_TREL). -/
  resetAt : Nat := 0
  origin : Nat := 0
  /-- The slot the ROM chose, and whether it fell back (R486, R555). -/
  slot : Nat := 0
  fellBack : Bool := false
  /-- The slot's first start (SYS_START.FIRST); a migrated configuration is still to be written to flash (R551). -/
  first : Bool := false
  migDue : Bool := false
  /-- The restart kind chosen: 1 WARM, 2 COLD. -/
  kind : Nat := 0
  /-- A cold start waits for its replicas (R558). -/
  waiting : Bool := false
  lockedAt : Nat := 0
  /-- The first release of a task has been made (SYS_TREL). -/
  firstRel : Bool := false
  /-- The tasks that this warm start found no usable journal record for (R557). -/
  lost : List Nat := []
  /-- Elapsed instant of the watchdog's expiry (R562); none while WDT_MS is 0. -/
  wdtAt : Option Nat := none
  /-- The code offset that an enrolment writes, from the cells read at this start (R407). -/
  pufOffset : List (BitVec 8) := []
  /-- When LASTMT was last written (R566). -/
  lastMtAt : Nat := 0
  deriving DecidableEq, Repr

end Sys2Proof.Machine
end

