-- ==== Sys2Proof/Config.lean ====
section
/-!
DEFINITION. What the spec leaves to an implementation, and the free values: constants without a body, so that nothing in
Lean can evaluate them or prove a value of them. A fresh value is a constant applied to `State.fresh`, a counter that the
step that takes the value advances.
-/

namespace Sys2Proof

/-- MAC bytes 2 to 5, set at the factory (Table 5-17). -/
opaque Config.factoryMacLo : BitVec 32

/-- MAC bytes 0 and 1, set at the factory (Table 5-17). -/
opaque Config.factoryMacHi : BitVec 16

/-- The module is the coated build, EFM-1640-AC (R1, Table 18-8): SYS_ID alone shows it. -/
opaque Config.coated : Bool

/-- The vendor anchor held in mask ROM: the SHA-256 of the vendor's signing key (R477). -/
opaque Config.vendorAnchor : BitVec 256

/-- The ROM version that ANNOUNCE carries (Table 15-12). -/
opaque Config.romVersion : BitVec 64

/-- The contents of the boot ROM, which the spec does not give. -/
opaque Config.romByte : Nat → BitVec 8

/-- A fresh bit the spec leaves open. -/
opaque Config.freeBit : Nat → Bool

/-- A fresh number the spec leaves open. -/
opaque Config.freeNat : Nat → Nat

/-- A fresh 32-bit value the spec leaves open. -/
opaque Config.free32 : Nat → BitVec 32

/-- A fresh 64-bit value the spec leaves open. -/
opaque Config.free64 : Nat → BitVec 64

/-- A fresh 256-bit value the spec leaves open (a digest, a random block). -/
opaque Config.free256 : Nat → BitVec 256

/-- A fresh real quantity (as a rational) whose exact value the spec leaves open: the filters' history before the first sample. -/
opaque Config.freeRat : Nat → Rat

/-- A metering channel's filter (R268, R275): the 0.5 Hz high-pass filter, after the integrator where the flag says ROGO. The
spec gives neither order nor coefficients: what the filter keeps is a code, its next code and its output are functions of
the code and the sample. -/
opaque Config.filterNext : Bool → Nat → Rat → Nat
opaque Config.filterOut : Bool → Nat → Rat → Rat

/-- The cubic interpolator at a phase in units of 2^-16 sample, on the newest samples, the latest first (R275): which cubic
the spec does not say. -/
opaque Config.cubic : Int → List Rat → Rat

/-- Cosine and sine of a fraction of a turn, as the single-bin DFT's oscillator gives them (Table 8-5). -/
opaque Config.cosTurn : Rat → Rat
opaque Config.sinTurn : Rat → Rat

/-- Accuracy and variance of the module's own clock, as its Announce gives them (R198): the spec states neither. -/
opaque Config.clockAccuracy : BitVec 8
opaque Config.clockVariance : BitVec 16

end Sys2Proof
end

