-- ==== Sys2Proof/Machine/Fld.lean ====
section
/-!
DEFINITION. A field of a 32-bit register (R6, R7), and how a word's field is read and replaced.
-/

namespace Sys2Proof.Machine

/-- A field: the register's address, its lowest bit, its width. -/
structure Fld where
  addr : Nat
  lo : Nat
  w : Nat
  deriving DecidableEq, Repr

/-- The field [lo + w - 1 : lo] of a word, as a number (R6). -/
def getField (x : Word) (lo w : Nat) : Nat := x.toNat / 2 ^ lo % 2 ^ w

/-- A word with its field [lo + w - 1 : lo] replaced by the low `w` bits of `v`. -/
def putField (x : Word) (lo w v : Nat) : Word :=
  BitVec.ofNat 32 (x.toNat % 2 ^ lo + 2 ^ lo * (v % 2 ^ w) + 2 ^ (lo + w) * (x.toNat / 2 ^ (lo + w)))

/-- Byte `i` (from the low end) of a number: the order of every structure of the module (R7). -/
def byteOf (x i : Nat) : Byte := BitVec.ofNat 8 (x / 2 ^ (8 * i))

/-- The `n` bytes of a number, the low byte first (R7). -/
def bytesLE (x : Nat) : Nat → List Byte
  | 0 => []
  | n + 1 => BitVec.ofNat 8 x :: bytesLE (x / 256) n

/-- The number that bytes spell, the low byte first (R7). -/
def natLE : List Byte → Nat
  | [] => 0
  | b :: bs => b.toNat + 256 * natLE bs

end Sys2Proof.Machine
end

