-- ==== Sys2Proof/Machine/Regs.lean ====
section
/-!
DEFINITION. The names of the module's registers and of their fields, as the register tables of the spec's chapters
give them (R7: 32 bits, little-endian). `R.<REGISTER>.addr` is the bus address of the register (of element `i`, and of
sub-element `j`, of an array), `R.<REGISTER>.<FIELD>` the field. A register that the spec banks per master
(SCH_DISP, EVT_SW_*) is kept once per master, 0x0100_0000 apart; `bankAddr` (Machine/Operands.lean) says which copy a
master sees.
-/

namespace Sys2Proof.Machine

def R.SCH_CTRL.addr : Nat := 0x40010000
def R.SCH_CTRL.EN : Fld := ⟨R.SCH_CTRL.addr, 0, 1⟩
def R.SCH_STAT.addr : Nat := 0x40010004
def R.SCH_STAT.STATE : Fld := ⟨R.SCH_STAT.addr, 0, 2⟩
def R.SCH_STAT.ENREQ : Fld := ⟨R.SCH_STAT.addr, 2, 1⟩
def R.SCH_STAT.MODE_ACT : Fld := ⟨R.SCH_STAT.addr, 3, 1⟩
def R.SCH_STAT.MODE_REJ : Fld := ⟨R.SCH_STAT.addr, 4, 1⟩
def R.SCH_STAT.HOLD : Fld := ⟨R.SCH_STAT.addr, 8, 2⟩
def R.SCH_STAT.HOLDSRC : Fld := ⟨R.SCH_STAT.addr, 10, 2⟩
def R.SCH_STAT.FCAUSE : Fld := ⟨R.SCH_STAT.addr, 16, 4⟩
def R.SCH_STAT.FARG : Fld := ⟨R.SCH_STAT.addr, 24, 8⟩
def R.SCH_INTEN.addr : Nat := 0x40010008
def R.SCH_INTEN.IE : Fld := ⟨R.SCH_INTEN.addr, 0, 6⟩
def R.SCH_INTSTAT.addr : Nat := 0x4001000C
def R.SCH_INTSTAT.HELD : Fld := ⟨R.SCH_INTSTAT.addr, 0, 1⟩
def R.SCH_INTSTAT.QABORT : Fld := ⟨R.SCH_INTSTAT.addr, 1, 1⟩
def R.SCH_INTSTAT.TSTOP : Fld := ⟨R.SCH_INTSTAT.addr, 2, 1⟩
def R.SCH_INTSTAT.GOREJ : Fld := ⟨R.SCH_INTSTAT.addr, 3, 1⟩
def R.SCH_INTSTAT.MTSTEP : Fld := ⟨R.SCH_INTSTAT.addr, 4, 1⟩
def R.SCH_INTSTAT.SWCANCEL : Fld := ⟨R.SCH_INTSTAT.addr, 5, 1⟩
def R.SCH_SWP_LO.addr : Nat := 0x40010010
def R.SCH_SWP_LO.SWP_LO : Fld := ⟨R.SCH_SWP_LO.addr, 0, 32⟩
def R.SCH_SWP_HI.addr : Nat := 0x40010014
def R.SCH_SWP_HI.SWP_HI : Fld := ⟨R.SCH_SWP_HI.addr, 0, 32⟩
def R.SCH_SWP_CMD.addr : Nat := 0x40010018
def R.SCH_SWP_CMD.ARM : Fld := ⟨R.SCH_SWP_CMD.addr, 0, 1⟩
def R.SCH_SWP_CMD.GO : Fld := ⟨R.SCH_SWP_CMD.addr, 1, 1⟩
def R.SCH_SWP_CMD.CANCEL : Fld := ⟨R.SCH_SWP_CMD.addr, 2, 1⟩
def R.SCH_QTMO.addr : Nat := 0x4001001C
def R.SCH_QTMO.QTMO_US : Fld := ⟨R.SCH_QTMO.addr, 0, 12⟩
def R.SCH_IDLE_WIN.addr : Nat := 0x40010020
def R.SCH_IDLE_WIN.WIN_MS : Fld := ⟨R.SCH_IDLE_WIN.addr, 0, 13⟩
def R.SCH_IDLE_WIN.CLRMIN : Fld := ⟨R.SCH_IDLE_WIN.addr, 31, 1⟩
def R.SCH_DONE.addr : Nat := 0x40010028
def R.SCH_DONE.DONE : Fld := ⟨R.SCH_DONE.addr, 0, 1⟩
def R.SCH_ABORT.addr : Nat := 0x4001002C
def R.SCH_ABORT.ABORT : Fld := ⟨R.SCH_ABORT.addr, 0, 1⟩
def R.SCH_DISP.addr (i : Nat) : Nat := 0x40010030 + i * 0x1000000
def R.SCH_DISP.TASK (i : Nat) : Fld := ⟨(R.SCH_DISP.addr i), 0, 8⟩
def R.SCH_DISP.KIND (i : Nat) : Fld := ⟨(R.SCH_DISP.addr i), 8, 2⟩
def R.SCH_DISP.IMGLATE (i : Nat) : Fld := ⟨(R.SCH_DISP.addr i), 10, 1⟩
def R.SCH_DISP.LATE1 (i : Nat) : Fld := ⟨(R.SCH_DISP.addr i), 11, 1⟩
def R.SCH_CORE_CFG.addr (i : Nat) : Nat := 0x40010100 + i * 0x20
def R.SCH_CORE_CFG.FREE (i : Nat) : Fld := ⟨(R.SCH_CORE_CFG.addr i), 0, 1⟩
def R.SCH_CORE_CFG.ERR_VALID (i : Nat) : Fld := ⟨(R.SCH_CORE_CFG.addr i), 1, 1⟩
def R.SCH_CORE_CFG.GAP_US (i : Nat) : Fld := ⟨(R.SCH_CORE_CFG.addr i), 16, 10⟩
def R.SCH_CORE_STAT.addr (i : Nat) : Nat := 0x40010104 + i * 0x20
def R.SCH_CORE_STAT.TASK (i : Nat) : Fld := ⟨(R.SCH_CORE_STAT.addr i), 0, 8⟩
def R.SCH_CORE_STAT.BUSY (i : Nat) : Fld := ⟨(R.SCH_CORE_STAT.addr i), 8, 1⟩
def R.SCH_CORE_STAT.ERRRUN (i : Nat) : Fld := ⟨(R.SCH_CORE_STAT.addr i), 9, 1⟩
def R.SCH_CORE_STAT.ERRPEND (i : Nat) : Fld := ⟨(R.SCH_CORE_STAT.addr i), 10, 1⟩
def R.SCH_CORE_STAT.NTASK (i : Nat) : Fld := ⟨(R.SCH_CORE_STAT.addr i), 16, 5⟩
def R.SCH_CORE_ERRCAUSE.addr (i : Nat) : Nat := 0x40010108 + i * 0x20
def R.SCH_CORE_ERRCAUSE.OVERRUN (i : Nat) : Fld := ⟨(R.SCH_CORE_ERRCAUSE.addr i), 0, 1⟩
def R.SCH_CORE_ERRCAUSE.STOPPED (i : Nat) : Fld := ⟨(R.SCH_CORE_ERRCAUSE.addr i), 1, 1⟩
def R.SCH_CORE_ERRCAUSE.IMGLATE (i : Nat) : Fld := ⟨(R.SCH_CORE_ERRCAUSE.addr i), 2, 1⟩
def R.SCH_CORE_ERRCAUSE.STATION (i : Nat) : Fld := ⟨(R.SCH_CORE_ERRCAUSE.addr i), 3, 1⟩
def R.SCH_CORE_ERRCAUSE.TRAP (i : Nat) : Fld := ⟨(R.SCH_CORE_ERRCAUSE.addr i), 4, 1⟩
def R.SCH_CORE_ERRCAUSE.QABORT (i : Nat) : Fld := ⟨(R.SCH_CORE_ERRCAUSE.addr i), 5, 1⟩
def R.SCH_CORE_ERRCAUSE.RESUMED (i : Nat) : Fld := ⟨(R.SCH_CORE_ERRCAUSE.addr i), 6, 1⟩
def R.SCH_CORE_ERRCAUSE.MTSTEP (i : Nat) : Fld := ⟨(R.SCH_CORE_ERRCAUSE.addr i), 7, 1⟩
def R.SCH_CORE_ERRCAUSE.LASTTASK (i : Nat) : Fld := ⟨(R.SCH_CORE_ERRCAUSE.addr i), 16, 8⟩
def R.SCH_CORE_IDLE.addr (i : Nat) : Nat := 0x4001010C + i * 0x20
def R.SCH_CORE_IDLE.IDLE (i : Nat) : Fld := ⟨(R.SCH_CORE_IDLE.addr i), 0, 32⟩
def R.SCH_CORE_IDLEMIN.addr (i : Nat) : Nat := 0x40010110 + i * 0x20
def R.SCH_CORE_IDLEMIN.IDLEMIN (i : Nat) : Fld := ⟨(R.SCH_CORE_IDLEMIN.addr i), 0, 14⟩
def R.SCH_CORE_ERRCNT.addr (i : Nat) : Nat := 0x40010114 + i * 0x20
def R.SCH_CORE_ERRCNT.RELS (i : Nat) : Fld := ⟨(R.SCH_CORE_ERRCNT.addr i), 0, 16⟩
def R.SCH_CORE_ERRCNT.TRAPS (i : Nat) : Fld := ⟨(R.SCH_CORE_ERRCNT.addr i), 16, 16⟩
def R.SCH_CORE_PREEMPT.addr (i : Nat) : Nat := 0x40010118 + i * 0x20
def R.SCH_CORE_PREEMPT.COUNT (i : Nat) : Fld := ⟨(R.SCH_CORE_PREEMPT.addr i), 0, 32⟩
def R.SCH_TASK_CFG.addr (i : Nat) : Nat := 0x40011000 + i * 0x40
def R.SCH_TASK_CFG.EN (i : Nat) : Fld := ⟨(R.SCH_TASK_CFG.addr i), 0, 1⟩
def R.SCH_TASK_CFG.CORE (i : Nat) : Fld := ⟨(R.SCH_TASK_CFG.addr i), 1, 4⟩
def R.SCH_TASK_CFG.PRIO (i : Nat) : Fld := ⟨(R.SCH_TASK_CFG.addr i), 8, 4⟩
def R.SCH_TASK_CFG.OVR_POL (i : Nat) : Fld := ⟨(R.SCH_TASK_CFG.addr i), 12, 2⟩
def R.SCH_TASK_CFG.OVR_ERR (i : Nat) : Fld := ⟨(R.SCH_TASK_CFG.addr i), 14, 1⟩
def R.SCH_TASK_CFG.IMGLATE_ERR (i : Nat) : Fld := ⟨(R.SCH_TASK_CFG.addr i), 15, 1⟩
def R.SCH_TASK_CFG.OVR_LIM (i : Nat) : Fld := ⟨(R.SCH_TASK_CFG.addr i), 16, 8⟩
def R.SCH_TASK_PER.addr (i : Nat) : Nat := 0x40011004 + i * 0x40
def R.SCH_TASK_PER.PER_US (i : Nat) : Fld := ⟨(R.SCH_TASK_PER.addr i), 0, 24⟩
def R.SCH_TASK_OFS.addr (i : Nat) : Nat := 0x40011008 + i * 0x40
def R.SCH_TASK_OFS.OFS_US (i : Nat) : Fld := ⟨(R.SCH_TASK_OFS.addr i), 0, 24⟩
def R.SCH_TASK_LEAD.addr (i : Nat) : Nat := 0x4001100C + i * 0x40
def R.SCH_TASK_LEAD.LEAD_US (i : Nat) : Fld := ⟨(R.SCH_TASK_LEAD.addr i), 0, 16⟩
def R.SCH_TASK_CMD.addr (i : Nat) : Nat := 0x40011010 + i * 0x40
def R.SCH_TASK_CMD.STOP (i : Nat) : Fld := ⟨(R.SCH_TASK_CMD.addr i), 0, 1⟩
def R.SCH_TASK_CMD.START (i : Nat) : Fld := ⟨(R.SCH_TASK_CMD.addr i), 1, 1⟩
def R.SCH_TASK_STAT.addr (i : Nat) : Nat := 0x40011014 + i * 0x40
def R.SCH_TASK_STAT.STATE (i : Nat) : Fld := ⟨(R.SCH_TASK_STAT.addr i), 0, 3⟩
def R.SCH_TASK_STAT.LATEPEND (i : Nat) : Fld := ⟨(R.SCH_TASK_STAT.addr i), 3, 1⟩
def R.SCH_TASK_STAT.IMGLATE_LAST (i : Nat) : Fld := ⟨(R.SCH_TASK_STAT.addr i), 4, 1⟩
def R.SCH_TASK_STAT.STOPSRC (i : Nat) : Fld := ⟨(R.SCH_TASK_STAT.addr i), 5, 2⟩
def R.SCH_TASK_STAT.OVRCONS (i : Nat) : Fld := ⟨(R.SCH_TASK_STAT.addr i), 8, 8⟩
def R.SCH_TASK_RELCNT.addr (i : Nat) : Nat := 0x40011018 + i * 0x40
def R.SCH_TASK_RELCNT.COUNT (i : Nat) : Fld := ⟨(R.SCH_TASK_RELCNT.addr i), 0, 32⟩
def R.SCH_TASK_OVRCNT.addr (i : Nat) : Nat := 0x4001101C + i * 0x40
def R.SCH_TASK_OVRCNT.COUNT (i : Nat) : Fld := ⟨(R.SCH_TASK_OVRCNT.addr i), 0, 32⟩
def R.SCH_TASK_SKIPCNT.addr (i : Nat) : Nat := 0x40011020 + i * 0x40
def R.SCH_TASK_SKIPCNT.COUNT (i : Nat) : Fld := ⟨(R.SCH_TASK_SKIPCNT.addr i), 0, 32⟩
def R.SCH_TASK_DEFCNT.addr (i : Nat) : Nat := 0x40011024 + i * 0x40
def R.SCH_TASK_DEFCNT.COUNT (i : Nat) : Fld := ⟨(R.SCH_TASK_DEFCNT.addr i), 0, 32⟩
def R.SCH_TASK_IMGLCNT.addr (i : Nat) : Nat := 0x40011028 + i * 0x40
def R.SCH_TASK_IMGLCNT.COUNT (i : Nat) : Fld := ⟨(R.SCH_TASK_IMGLCNT.addr i), 0, 32⟩
def R.SCH_TASK_ABTCNT.addr (i : Nat) : Nat := 0x4001102C + i * 0x40
def R.SCH_TASK_ABTCNT.COUNT (i : Nat) : Fld := ⟨(R.SCH_TASK_ABTCNT.addr i), 0, 32⟩
def R.SCH_TASK_EXEC_LAST.addr (i : Nat) : Nat := 0x40011030 + i * 0x40
def R.SCH_TASK_EXEC_LAST.COUNT (i : Nat) : Fld := ⟨(R.SCH_TASK_EXEC_LAST.addr i), 0, 32⟩
def R.SCH_TASK_EXEC_MAX.addr (i : Nat) : Nat := 0x40011034 + i * 0x40
def R.SCH_TASK_EXEC_MAX.COUNT (i : Nat) : Fld := ⟨(R.SCH_TASK_EXEC_MAX.addr i), 0, 32⟩
def R.SCH_TASK_RESP_MAX.addr (i : Nat) : Nat := 0x40011038 + i * 0x40
def R.SCH_TASK_RESP_MAX.COUNT (i : Nat) : Fld := ⟨(R.SCH_TASK_RESP_MAX.addr i), 0, 32⟩
def R.SCH_TASK_L1CNT.addr (i : Nat) : Nat := 0x4001103C + i * 0x40
def R.SCH_TASK_L1CNT.COUNT (i : Nat) : Fld := ⟨(R.SCH_TASK_L1CNT.addr i), 0, 32⟩
def R.IMG_CTRL.addr : Nat := 0x40020000
def R.IMG_CTRL.EN : Fld := ⟨R.IMG_CTRL.addr, 0, 1⟩
def R.IMG_STAT.addr : Nat := 0x40020004
def R.IMG_STAT.STATE : Fld := ⟨R.IMG_STAT.addr, 0, 2⟩
def R.IMG_STAT.ENREQ : Fld := ⟨R.IMG_STAT.addr, 2, 1⟩
def R.IMG_STAT.MODE_ACT : Fld := ⟨R.IMG_STAT.addr, 3, 1⟩
def R.IMG_STAT.MODE_REJ : Fld := ⟨R.IMG_STAT.addr, 4, 1⟩
def R.IMG_STAT.FCAUSE : Fld := ⟨R.IMG_STAT.addr, 16, 4⟩
def R.IMG_STAT.FARG : Fld := ⟨R.IMG_STAT.addr, 24, 8⟩
def R.IMG_INTEN.addr : Nat := 0x40020008
def R.IMG_INTEN.IE : Fld := ⟨R.IMG_INTEN.addr, 0, 8⟩
def R.IMG_INTSTAT.addr : Nat := 0x4002000C
def R.IMG_INTSTAT.STNDOWN : Fld := ⟨R.IMG_INTSTAT.addr, 0, 1⟩
def R.IMG_INTSTAT.STNUP : Fld := ⟨R.IMG_INTSTAT.addr, 1, 1⟩
def R.IMG_INTSTAT.STNREJOIN : Fld := ⟨R.IMG_INTSTAT.addr, 2, 1⟩
def R.IMG_INTSTAT.OUTREJ : Fld := ⟨R.IMG_INTSTAT.addr, 3, 1⟩
def R.IMG_INTSTAT.FRCFULL : Fld := ⟨R.IMG_INTSTAT.addr, 4, 1⟩
def R.IMG_INTSTAT.FRCDROP : Fld := ⟨R.IMG_INTSTAT.addr, 5, 1⟩
def R.IMG_INTSTAT.JRNFAULT : Fld := ⟨R.IMG_INTSTAT.addr, 6, 1⟩
def R.IMG_INTSTAT.BADPDU : Fld := ⟨R.IMG_INTSTAT.addr, 7, 1⟩
def R.IMG_MADDR.addr : Nat := 0x40020010
def R.IMG_MADDR.WADDR : Fld := ⟨R.IMG_MADDR.addr, 2, 17⟩
def R.IMG_MDATA.addr : Nat := 0x40020014
def R.IMG_MDATA.DATA : Fld := ⟨R.IMG_MDATA.addr, 0, 32⟩
def R.IMG_LBANK.addr : Nat := 0x40020018
def R.IMG_LBANK.ACT : Fld := ⟨R.IMG_LBANK.addr, 0, 1⟩
def R.IMG_LBANK.NEXT : Fld := ⟨R.IMG_LBANK.addr, 1, 1⟩
def R.IMG_STN_CANBASE.addr : Nat := 0x4002001C
def R.IMG_STN_CANBASE.BASE : Fld := ⟨R.IMG_STN_CANBASE.addr, 0, 3⟩
def R.IMG_FRC_KEY.addr : Nat := 0x40020020
def R.IMG_FRC_KEY.KEY : Fld := ⟨R.IMG_FRC_KEY.addr, 0, 32⟩
def R.IMG_FRC_VLO.addr : Nat := 0x40020024
def R.IMG_FRC_VLO.VLO : Fld := ⟨R.IMG_FRC_VLO.addr, 0, 32⟩
def R.IMG_FRC_VHI.addr : Nat := 0x40020028
def R.IMG_FRC_VHI.VHI : Fld := ⟨R.IMG_FRC_VHI.addr, 0, 32⟩
def R.IMG_FRC_CMD.addr : Nat := 0x4002002C
def R.IMG_FRC_CMD.OP : Fld := ⟨R.IMG_FRC_CMD.addr, 0, 2⟩
def R.IMG_FRC_CMD.GO : Fld := ⟨R.IMG_FRC_CMD.addr, 8, 1⟩
def R.IMG_FRC_STAT.addr : Nat := 0x40020030
def R.IMG_FRC_STAT.RESULT : Fld := ⟨R.IMG_FRC_STAT.addr, 0, 2⟩
def R.IMG_FRC_STAT.COUNT : Fld := ⟨R.IMG_FRC_STAT.addr, 16, 11⟩
def R.IMG_JRN_CTRL.addr : Nat := 0x40020080
def R.IMG_JRN_CTRL.EN : Fld := ⟨R.IMG_JRN_CTRL.addr, 0, 1⟩
def R.IMG_JRN_STAT.addr : Nat := 0x40020084
def R.IMG_JRN_STAT.STATE : Fld := ⟨R.IMG_JRN_STAT.addr, 0, 2⟩
def R.IMG_JRN_STAT.ENREQ : Fld := ⟨R.IMG_JRN_STAT.addr, 2, 1⟩
def R.IMG_JRN_STAT.MODE_ACT : Fld := ⟨R.IMG_JRN_STAT.addr, 3, 1⟩
def R.IMG_JRN_STAT.MODE_REJ : Fld := ⟨R.IMG_JRN_STAT.addr, 4, 1⟩
def R.IMG_JRN_STAT.FCAUSE : Fld := ⟨R.IMG_JRN_STAT.addr, 16, 4⟩
def R.IMG_JRN_FADDR.addr : Nat := 0x40020088
def R.IMG_JRN_FADDR.FADDR : Fld := ⟨R.IMG_JRN_FADDR.addr, 0, 32⟩
def R.IMG_CNT_JSKIP.addr : Nat := 0x4002008C
def R.IMG_CNT_JSKIP.COUNT : Fld := ⟨R.IMG_CNT_JSKIP.addr, 0, 32⟩
def R.IMG_CNT_JSUPER.addr : Nat := 0x40020090
def R.IMG_CNT_JSUPER.COUNT : Fld := ⟨R.IMG_CNT_JSUPER.addr, 0, 32⟩
def R.IMG_TASK_IBUF.addr (i : Nat) : Nat := 0x40021000 + i * 0x20
def R.IMG_TASK_IBUF.IBUF (i : Nat) : Fld := ⟨(R.IMG_TASK_IBUF.addr i), 4, 12⟩
def R.IMG_TASK_OBUF.addr (i : Nat) : Nat := 0x40021004 + i * 0x20
def R.IMG_TASK_OBUF.OBUF (i : Nat) : Fld := ⟨(R.IMG_TASK_OBUF.addr i), 4, 12⟩
def R.IMG_TASK_ILIST.addr (i : Nat) : Nat := 0x40021008 + i * 0x20
def R.IMG_TASK_ILIST.FIRST (i : Nat) : Fld := ⟨(R.IMG_TASK_ILIST.addr i), 0, 14⟩
def R.IMG_TASK_ILIST.COUNT (i : Nat) : Fld := ⟨(R.IMG_TASK_ILIST.addr i), 16, 11⟩
def R.IMG_TASK_OLIST.addr (i : Nat) : Nat := 0x4002100C + i * 0x20
def R.IMG_TASK_OLIST.FIRST (i : Nat) : Fld := ⟨(R.IMG_TASK_OLIST.addr i), 0, 14⟩
def R.IMG_TASK_OLIST.COUNT (i : Nat) : Fld := ⟨(R.IMG_TASK_OLIST.addr i), 16, 11⟩
def R.IMG_TASK_RET.addr (i : Nat) : Nat := 0x40021010 + i * 0x20
def R.IMG_TASK_RET.RETOFS (i : Nat) : Fld := ⟨(R.IMG_TASK_RET.addr i), 4, 12⟩
def R.IMG_TASK_RET.RETLEN (i : Nat) : Fld := ⟨(R.IMG_TASK_RET.addr i), 16, 15⟩
def R.IMG_TASK_STAT.addr (i : Nat) : Nat := 0x40021014 + i * 0x20
def R.IMG_TASK_STAT.IFLAGS (i : Nat) : Fld := ⟨(R.IMG_TASK_STAT.addr i), 0, 5⟩
def R.IMG_TASK_TIME.addr (i : Nat) : Nat := 0x40021018 + i * 0x20
def R.IMG_TASK_TIME.ICOPY (i : Nat) : Fld := ⟨(R.IMG_TASK_TIME.addr i), 0, 16⟩
def R.IMG_TASK_TIME.OCOMMIT (i : Nat) : Fld := ⟨(R.IMG_TASK_TIME.addr i), 16, 16⟩
def R.IMG_TASK_JRN.addr (i : Nat) : Nat := 0x4002101C + i * 0x20
def R.IMG_TASK_JRN.JOFS (i : Nat) : Fld := ⟨(R.IMG_TASK_JRN.addr i), 3, 20⟩
def R.IMG_STN_CFG.addr (i : Nat) : Nat := 0x40024000 + i * 0x40
def R.IMG_STN_CFG.EN (i : Nat) : Fld := ⟨(R.IMG_STN_CFG.addr i), 0, 1⟩
def R.IMG_STN_CFG.XPORT (i : Nat) : Fld := ⟨(R.IMG_STN_CFG.addr i), 1, 1⟩
def R.IMG_STN_CFG.CANCH (i : Nat) : Fld := ⟨(R.IMG_STN_CFG.addr i), 2, 2⟩
def R.IMG_STN_CFG.AUTO_REARM (i : Nat) : Fld := ⟨(R.IMG_STN_CFG.addr i), 4, 1⟩
def R.IMG_STN_CFG.IN_LEN (i : Nat) : Fld := ⟨(R.IMG_STN_CFG.addr i), 8, 8⟩
def R.IMG_STN_CFG.OUT_LEN (i : Nat) : Fld := ⟨(R.IMG_STN_CFG.addr i), 16, 8⟩
def R.IMG_STN_NODE.addr (i : Nat) : Nat := 0x40024004 + i * 0x40
def R.IMG_STN_NODE.NODE (i : Nat) : Fld := ⟨(R.IMG_STN_NODE.addr i), 0, 12⟩
def R.IMG_STN_TIME.addr (i : Nat) : Nat := 0x40024008 + i * 0x40
def R.IMG_STN_TIME.PER_MS (i : Nat) : Fld := ⟨(R.IMG_STN_TIME.addr i), 0, 16⟩
def R.IMG_STN_TIME.TMO_MS (i : Nat) : Fld := ⟨(R.IMG_STN_TIME.addr i), 16, 16⟩
def R.IMG_STN_CMD.addr (i : Nat) : Nat := 0x4002400C + i * 0x40
def R.IMG_STN_CMD.REARM (i : Nat) : Fld := ⟨(R.IMG_STN_CMD.addr i), 0, 1⟩
def R.IMG_STN_CMD.PROBE (i : Nat) : Fld := ⟨(R.IMG_STN_CMD.addr i), 1, 1⟩
def R.IMG_STN_STAT.addr (i : Nat) : Nat := 0x40024010 + i * 0x40
def R.IMG_STN_STAT.STATE (i : Nat) : Fld := ⟨(R.IMG_STN_STAT.addr i), 0, 3⟩
def R.IMG_STN_STAT.UNDELIV (i : Nat) : Fld := ⟨(R.IMG_STN_STAT.addr i), 3, 1⟩
def R.IMG_STN_STAT.OUTREJ (i : Nat) : Fld := ⟨(R.IMG_STN_STAT.addr i), 4, 1⟩
def R.IMG_STN_STAT.POISONOUT (i : Nat) : Fld := ⟨(R.IMG_STN_STAT.addr i), 5, 1⟩
def R.IMG_STN_STAT.DCAUSE (i : Nat) : Fld := ⟨(R.IMG_STN_STAT.addr i), 8, 8⟩
def R.IMG_STN_STAT.IN_SEQ (i : Nat) : Fld := ⟨(R.IMG_STN_STAT.addr i), 16, 16⟩
def R.IMG_STN_AGE.addr (i : Nat) : Nat := 0x40024014 + i * 0x40
def R.IMG_STN_AGE.AGE (i : Nat) : Fld := ⟨(R.IMG_STN_AGE.addr i), 0, 32⟩
def R.IMG_STN_EPOCH.addr (i : Nat) : Nat := 0x40024018 + i * 0x40
def R.IMG_STN_EPOCH.EPOCH (i : Nat) : Fld := ⟨(R.IMG_STN_EPOCH.addr i), 0, 32⟩
def R.IMG_STN_CNT.addr (i : Nat) : Nat := 0x4002401C + i * 0x40
def R.IMG_STN_CNT.DROPS (i : Nat) : Fld := ⟨(R.IMG_STN_CNT.addr i), 0, 16⟩
def R.IMG_STN_CNT.BADPDU (i : Nat) : Fld := ⟨(R.IMG_STN_CNT.addr i), 16, 16⟩
def R.HOP_CTRL.addr : Nat := 0x40030000
def R.HOP_CTRL.EN : Fld := ⟨R.HOP_CTRL.addr, 0, 1⟩
def R.HOP_CTRL.MODE : Fld := ⟨R.HOP_CTRL.addr, 1, 1⟩
def R.HOP_STAT.addr : Nat := 0x40030004
def R.HOP_STAT.STATE : Fld := ⟨R.HOP_STAT.addr, 0, 2⟩
def R.HOP_STAT.ENREQ : Fld := ⟨R.HOP_STAT.addr, 2, 1⟩
def R.HOP_STAT.MODE_ACT : Fld := ⟨R.HOP_STAT.addr, 3, 1⟩
def R.HOP_STAT.MODE_REJ : Fld := ⟨R.HOP_STAT.addr, 4, 1⟩
def R.HOP_STAT.INIT : Fld := ⟨R.HOP_STAT.addr, 8, 1⟩
def R.HOP_STAT.FCAUSE : Fld := ⟨R.HOP_STAT.addr, 16, 4⟩
def R.HOP_STAT.FARG : Fld := ⟨R.HOP_STAT.addr, 20, 12⟩
def R.HOP_INTEN.addr : Nat := 0x40030008
def R.HOP_INTEN.IE : Fld := ⟨R.HOP_INTEN.addr, 0, 9⟩
def R.HOP_INTSTAT.addr : Nat := 0x4003000C
def R.HOP_INTSTAT.RNGSTALE : Fld := ⟨R.HOP_INTSTAT.addr, 0, 1⟩
def R.HOP_INTSTAT.SUBREFUSED : Fld := ⟨R.HOP_INTSTAT.addr, 1, 1⟩
def R.HOP_INTSTAT.REFAIL : Fld := ⟨R.HOP_INTSTAT.addr, 2, 1⟩
def R.HOP_INTSTAT.PINDONE : Fld := ⟨R.HOP_INTSTAT.addr, 3, 1⟩
def R.HOP_INTSTAT.PINLIMIT : Fld := ⟨R.HOP_INTSTAT.addr, 4, 1⟩
def R.HOP_INTSTAT.MISSBUSY : Fld := ⟨R.HOP_INTSTAT.addr, 5, 1⟩
def R.HOP_INTSTAT.SUBEXP : Fld := ⟨R.HOP_INTSTAT.addr, 6, 1⟩
def R.HOP_INTSTAT.BADMSG : Fld := ⟨R.HOP_INTSTAT.addr, 7, 1⟩
def R.HOP_INTSTAT.INITDONE : Fld := ⟨R.HOP_INTSTAT.addr, 8, 1⟩
def R.HOP_NODE.addr : Nat := 0x40030010
def R.HOP_NODE.NODE : Fld := ⟨R.HOP_NODE.addr, 0, 12⟩
def R.HOP_OWN_CNT.addr : Nat := 0x40030014
def R.HOP_OWN_CNT.COUNT : Fld := ⟨R.HOP_OWN_CNT.addr, 0, 17⟩
def R.HOP_RBASE.addr : Nat := 0x40030018
def R.HOP_RBASE.RBASE : Fld := ⟨R.HOP_RBASE.addr, 23, 9⟩
def R.HOP_SUBCFG.addr : Nat := 0x4003001C
def R.HOP_SUBCFG.STALE_MULT : Fld := ⟨R.HOP_SUBCFG.addr, 0, 4⟩
def R.HOP_SUBCFG.RETRY : Fld := ⟨R.HOP_SUBCFG.addr, 8, 8⟩
def R.HOP_PINC.addr : Nat := 0x40030020
def R.HOP_PINC.PINC : Fld := ⟨R.HOP_PINC.addr, 0, 16⟩
def R.HOP_PIN_CMD.addr : Nat := 0x40030024
def R.HOP_PIN_CMD.OP : Fld := ⟨R.HOP_PIN_CMD.addr, 0, 2⟩
def R.HOP_PIN_CMD.BANK : Fld := ⟨R.HOP_PIN_CMD.addr, 2, 1⟩
def R.HOP_PIN_CMD.GO : Fld := ⟨R.HOP_PIN_CMD.addr, 8, 1⟩
def R.HOP_PIN_STAT.addr : Nat := 0x40030028
def R.HOP_PIN_STAT.RESULT : Fld := ⟨R.HOP_PIN_STAT.addr, 0, 2⟩
def R.HOP_PIN_STAT.UNRES : Fld := ⟨R.HOP_PIN_STAT.addr, 16, 16⟩
def R.HOP_CACHE.addr : Nat := 0x4003002C
def R.HOP_CACHE.RESIDENT : Fld := ⟨R.HOP_CACHE.addr, 0, 10⟩
def R.HOP_CACHE.PINNED : Fld := ⟨R.HOP_CACHE.addr, 16, 9⟩
def R.HOP_TADDR.addr : Nat := 0x40030030
def R.HOP_TADDR.WADDR : Fld := ⟨R.HOP_TADDR.addr, 2, 16⟩
def R.HOP_TDATA.addr : Nat := 0x40030034
def R.HOP_TDATA.DATA : Fld := ⟨R.HOP_TDATA.addr, 0, 32⟩
def R.HOP_ASN_BASE.addr : Nat := 0x40030040
def R.HOP_ASN_BASE.BASE : Fld := ⟨R.HOP_ASN_BASE.addr, 5, 27⟩
def R.HOP_ASN_CFG.addr : Nat := 0x40030044
def R.HOP_ASN_CFG.LOG2N : Fld := ⟨R.HOP_ASN_CFG.addr, 0, 4⟩
def R.HOP_ASN_CFG.SRV_KIND : Fld := ⟨R.HOP_ASN_CFG.addr, 4, 2⟩
def R.HOP_ASN_CFG.SRV_CORE : Fld := ⟨R.HOP_ASN_CFG.addr, 8, 4⟩
def R.HOP_ASN_CFG.SRV_NODE : Fld := ⟨R.HOP_ASN_CFG.addr, 16, 12⟩
def R.HOP_ASN_TMO.addr : Nat := 0x40030048
def R.HOP_ASN_TMO.TMO_US : Fld := ⟨R.HOP_ASN_TMO.addr, 0, 16⟩
def R.HOP_ASN_POST.addr : Nat := 0x4003004C
def R.HOP_ASN_POST.SEQ : Fld := ⟨R.HOP_ASN_POST.addr, 0, 16⟩
def R.HOP_ASN_REAP.addr : Nat := 0x40030050
def R.HOP_ASN_REAP.SEQ : Fld := ⟨R.HOP_ASN_REAP.addr, 0, 16⟩
def R.HOP_ASN_STAT.addr : Nat := 0x40030054
def R.HOP_ASN_STAT.FULL : Fld := ⟨R.HOP_ASN_STAT.addr, 0, 1⟩
def R.HOP_ASN_STAT.LATE : Fld := ⟨R.HOP_ASN_STAT.addr, 1, 1⟩
def R.HOP_ASN_STAT.BADRING : Fld := ⟨R.HOP_ASN_STAT.addr, 2, 1⟩
def R.HOP_ASN_DROP.addr : Nat := 0x40030058
def R.HOP_ASN_DROP.COUNT : Fld := ⟨R.HOP_ASN_DROP.addr, 0, 32⟩
def R.HOP_ASN_TOCNT.addr : Nat := 0x4003005C
def R.HOP_ASN_TOCNT.COUNT : Fld := ⟨R.HOP_ASN_TOCNT.addr, 0, 32⟩
def R.HOP_ASN_KICK.addr : Nat := 0x40030060
def R.HOP_ASN_KICK.KICK : Fld := ⟨R.HOP_ASN_KICK.addr, 0, 1⟩
def R.HOP_CNT_HIT.addr : Nat := 0x40030080
def R.HOP_CNT_HIT.COUNT : Fld := ⟨R.HOP_CNT_HIT.addr, 0, 32⟩
def R.HOP_CNT_MISS.addr : Nat := 0x40030084
def R.HOP_CNT_MISS.COUNT : Fld := ⟨R.HOP_CNT_MISS.addr, 0, 32⟩
def R.HOP_CNT_EVICT.addr : Nat := 0x40030088
def R.HOP_CNT_EVICT.COUNT : Fld := ⟨R.HOP_CNT_EVICT.addr, 0, 32⟩
def R.HOP_CNT_PUSHTX.addr : Nat := 0x4003008C
def R.HOP_CNT_PUSHTX.COUNT : Fld := ⟨R.HOP_CNT_PUSHTX.addr, 0, 32⟩
def R.HOP_CNT_PUSHRX.addr : Nat := 0x40030090
def R.HOP_CNT_PUSHRX.COUNT : Fld := ⟨R.HOP_CNT_PUSHRX.addr, 0, 32⟩
def R.HOP_CNT_OLDSEQ.addr : Nat := 0x40030094
def R.HOP_CNT_OLDSEQ.COUNT : Fld := ⟨R.HOP_CNT_OLDSEQ.addr, 0, 32⟩
def R.HOP_CNT_NOSUB.addr : Nat := 0x40030098
def R.HOP_CNT_NOSUB.COUNT : Fld := ⟨R.HOP_CNT_NOSUB.addr, 0, 32⟩
def R.HOP_CNT_REFETCH.addr : Nat := 0x4003009C
def R.HOP_CNT_REFETCH.COUNT : Fld := ⟨R.HOP_CNT_REFETCH.addr, 0, 32⟩
def R.HOP_CNT_REFAIL.addr : Nat := 0x400300A0
def R.HOP_CNT_REFAIL.COUNT : Fld := ⟨R.HOP_CNT_REFAIL.addr, 0, 32⟩
def R.HOP_CNT_IMGMISS.addr : Nat := 0x400300A4
def R.HOP_CNT_IMGMISS.COUNT : Fld := ⟨R.HOP_CNT_IMGMISS.addr, 0, 32⟩
def R.HOP_CNT_MISSBUSY.addr : Nat := 0x400300A8
def R.HOP_CNT_MISSBUSY.COUNT : Fld := ⟨R.HOP_CNT_MISSBUSY.addr, 0, 32⟩
def R.HOP_CNT_BADMSG.addr : Nat := 0x400300AC
def R.HOP_CNT_BADMSG.COUNT : Fld := ⟨R.HOP_CNT_BADMSG.addr, 0, 32⟩
def R.HOP_LK_ID.addr (i : Nat) : Nat := 0x40030100 + i * 0x40
def R.HOP_LK_ID.ID (i : Nat) : Fld := ⟨(R.HOP_LK_ID.addr i), 0, 32⟩
def R.HOP_LK_CMD.addr (i : Nat) : Nat := 0x40030104 + i * 0x40
def R.HOP_LK_CMD.OP (i : Nat) : Fld := ⟨(R.HOP_LK_CMD.addr i), 0, 2⟩
def R.HOP_LK_CMD.GO (i : Nat) : Fld := ⟨(R.HOP_LK_CMD.addr i), 8, 1⟩
def R.HOP_LK_STAT.addr (i : Nat) : Nat := 0x40030108 + i * 0x40
def R.HOP_LK_STAT.RESULT (i : Nat) : Fld := ⟨(R.HOP_LK_STAT.addr i), 0, 3⟩
def R.HOP_LK_STAT.MISS (i : Nat) : Fld := ⟨(R.HOP_LK_STAT.addr i), 3, 1⟩
def R.HOP_LK_SLOT.addr (i : Nat) : Nat := 0x4003010C + i * 0x40
def R.HOP_LK_SLOT.SLOT (i : Nat) : Fld := ⟨(R.HOP_LK_SLOT.addr i), 0, 18⟩
def R.HOP_LK_DATA.addr (i j : Nat) : Nat := 0x40030110 + i * 0x40 + j * 0x4
def R.HOP_LK_DATA.DATA (i j : Nat) : Fld := ⟨(R.HOP_LK_DATA.addr i j), 0, 32⟩
def R.FAB_CTRL.addr : Nat := 0x40050000
def R.FAB_CTRL.EN : Fld := ⟨R.FAB_CTRL.addr, 0, 1⟩
def R.FAB_CTRL.MODE : Fld := ⟨R.FAB_CTRL.addr, 1, 1⟩
def R.FAB_STAT.addr : Nat := 0x40050004
def R.FAB_STAT.STATE : Fld := ⟨R.FAB_STAT.addr, 0, 2⟩
def R.FAB_STAT.ENREQ : Fld := ⟨R.FAB_STAT.addr, 2, 1⟩
def R.FAB_STAT.MODE_ACT : Fld := ⟨R.FAB_STAT.addr, 3, 1⟩
def R.FAB_STAT.MODE_REJ : Fld := ⟨R.FAB_STAT.addr, 4, 1⟩
def R.FAB_STAT.SPFBUSY : Fld := ⟨R.FAB_STAT.addr, 8, 1⟩
def R.FAB_STAT.FCAUSE : Fld := ⟨R.FAB_STAT.addr, 16, 4⟩
def R.FAB_INTEN.addr : Nat := 0x40050008
def R.FAB_INTEN.IE : Fld := ⟨R.FAB_INTEN.addr, 0, 16⟩
def R.FAB_INTSTAT.addr : Nat := 0x4005000C
def R.FAB_INTSTAT.ADJUP : Fld := ⟨R.FAB_INTSTAT.addr, 0, 1⟩
def R.FAB_INTSTAT.ADJDOWN : Fld := ⟨R.FAB_INTSTAT.addr, 1, 1⟩
def R.FAB_INTSTAT.ROUTECHG : Fld := ⟨R.FAB_INTSTAT.addr, 2, 1⟩
def R.FAB_INTSTAT.UNREACH : Fld := ⟨R.FAB_INTSTAT.addr, 3, 1⟩
def R.FAB_INTSTAT.NODEOK : Fld := ⟨R.FAB_INTSTAT.addr, 4, 1⟩
def R.FAB_INTSTAT.DUPNODE : Fld := ⟨R.FAB_INTSTAT.addr, 5, 1⟩
def R.FAB_INTSTAT.NONODE : Fld := ⟨R.FAB_INTSTAT.addr, 6, 1⟩
def R.FAB_INTSTAT.KEYFAIL : Fld := ⟨R.FAB_INTSTAT.addr, 7, 1⟩
def R.FAB_INTSTAT.QUENCH : Fld := ⟨R.FAB_INTSTAT.addr, 8, 1⟩
def R.FAB_INTSTAT.QFULL : Fld := ⟨R.FAB_INTSTAT.addr, 9, 1⟩
def R.FAB_INTSTAT.ICVCUT : Fld := ⟨R.FAB_INTSTAT.addr, 10, 1⟩
def R.FAB_INTSTAT.PTPSTEP : Fld := ⟨R.FAB_INTSTAT.addr, 11, 1⟩
def R.FAB_INTSTAT.GMCHG : Fld := ⟨R.FAB_INTSTAT.addr, 12, 1⟩
def R.FAB_INTSTAT.HOLDOVER : Fld := ⟨R.FAB_INTSTAT.addr, 13, 1⟩
def R.FAB_INTSTAT.MBXRX : Fld := ⟨R.FAB_INTSTAT.addr, 14, 1⟩
def R.FAB_INTSTAT.PREEMPTOFF : Fld := ⟨R.FAB_INTSTAT.addr, 15, 1⟩
def R.FAB_NODE.addr : Nat := 0x40050010
def R.FAB_NODE.CFG : Fld := ⟨R.FAB_NODE.addr, 0, 12⟩
def R.FAB_NODE.ACT : Fld := ⟨R.FAB_NODE.addr, 16, 12⟩
def R.FAB_NODE.NSTATE : Fld := ⟨R.FAB_NODE.addr, 28, 3⟩
def R.FAB_MAC_LO.addr : Nat := 0x40050014
def R.FAB_MAC_LO.MAC : Fld := ⟨R.FAB_MAC_LO.addr, 0, 32⟩
def R.FAB_MAC_HI.addr : Nat := 0x40050018
def R.FAB_MAC_HI.MAC : Fld := ⟨R.FAB_MAC_HI.addr, 0, 16⟩
def R.FAB_ETYPE.addr : Nat := 0x4005001C
def R.FAB_ETYPE.ETYPE : Fld := ⟨R.FAB_ETYPE.addr, 0, 16⟩
def R.FAB_HELLO.addr : Nat := 0x40050020
def R.FAB_HELLO.INT : Fld := ⟨R.FAB_HELLO.addr, 0, 8⟩
def R.FAB_HELLO.DEAD : Fld := ⟨R.FAB_HELLO.addr, 8, 4⟩
def R.FAB_SEC.addr : Nat := 0x40050024
def R.FAB_SEC.KSLOT : Fld := ⟨R.FAB_SEC.addr, 0, 6⟩
def R.FAB_SEC.RPW : Fld := ⟨R.FAB_SEC.addr, 8, 8⟩
def R.FAB_SEC.REKEY_MIN : Fld := ⟨R.FAB_SEC.addr, 16, 8⟩
def R.FAB_LSDB.addr : Nat := 0x40050028
def R.FAB_LSDB.BASE : Fld := ⟨R.FAB_LSDB.addr, 18, 14⟩
def R.FAB_PTP_CFG.addr : Nat := 0x40050030
def R.FAB_PTP_CFG.DOMAIN : Fld := ⟨R.FAB_PTP_CFG.addr, 0, 8⟩
def R.FAB_PTP_CFG.PRIORITY1 : Fld := ⟨R.FAB_PTP_CFG.addr, 8, 8⟩
def R.FAB_PTP_CFG.PRIORITY2 : Fld := ⟨R.FAB_PTP_CFG.addr, 16, 8⟩
def R.FAB_PTP_CFG.GMCAP : Fld := ⟨R.FAB_PTP_CFG.addr, 24, 1⟩
def R.FAB_PTP_STAT.addr : Nat := 0x40050034
def R.FAB_PTP_STAT.STATE : Fld := ⟨R.FAB_PTP_STAT.addr, 0, 2⟩
def R.FAB_PTP_STAT.SLAVE : Fld := ⟨R.FAB_PTP_STAT.addr, 4, 3⟩
def R.FAB_PTP_STAT.STEPSREM : Fld := ⟨R.FAB_PTP_STAT.addr, 8, 8⟩
def R.FAB_PTP_OFS.addr : Nat := 0x40050038
def R.FAB_PTP_OFS.OFS : Fld := ⟨R.FAB_PTP_OFS.addr, 0, 32⟩
def R.FAB_PTP_STEP.addr : Nat := 0x4005003C
def R.FAB_PTP_STEP.STEP_US : Fld := ⟨R.FAB_PTP_STEP.addr, 0, 16⟩
def R.FAB_ASN_BASE.addr : Nat := 0x40050040
def R.FAB_ASN_BASE.BASE : Fld := ⟨R.FAB_ASN_BASE.addr, 5, 27⟩
def R.FAB_ASN_CFG.addr : Nat := 0x40050044
def R.FAB_ASN_CFG.LOG2N : Fld := ⟨R.FAB_ASN_CFG.addr, 0, 4⟩
def R.FAB_ASN_CFG.SRV_KIND : Fld := ⟨R.FAB_ASN_CFG.addr, 4, 2⟩
def R.FAB_ASN_CFG.SRV_CORE : Fld := ⟨R.FAB_ASN_CFG.addr, 8, 4⟩
def R.FAB_ASN_CFG.SRV_NODE : Fld := ⟨R.FAB_ASN_CFG.addr, 16, 12⟩
def R.FAB_ASN_TMO.addr : Nat := 0x40050048
def R.FAB_ASN_TMO.TMO_US : Fld := ⟨R.FAB_ASN_TMO.addr, 0, 16⟩
def R.FAB_ASN_POST.addr : Nat := 0x4005004C
def R.FAB_ASN_POST.SEQ : Fld := ⟨R.FAB_ASN_POST.addr, 0, 16⟩
def R.FAB_ASN_REAP.addr : Nat := 0x40050050
def R.FAB_ASN_REAP.SEQ : Fld := ⟨R.FAB_ASN_REAP.addr, 0, 16⟩
def R.FAB_ASN_STAT.addr : Nat := 0x40050054
def R.FAB_ASN_STAT.FULL : Fld := ⟨R.FAB_ASN_STAT.addr, 0, 1⟩
def R.FAB_ASN_STAT.LATE : Fld := ⟨R.FAB_ASN_STAT.addr, 1, 1⟩
def R.FAB_ASN_STAT.BADRING : Fld := ⟨R.FAB_ASN_STAT.addr, 2, 1⟩
def R.FAB_ASN_DROP.addr : Nat := 0x40050058
def R.FAB_ASN_DROP.COUNT : Fld := ⟨R.FAB_ASN_DROP.addr, 0, 32⟩
def R.FAB_ASN_TOCNT.addr : Nat := 0x4005005C
def R.FAB_ASN_TOCNT.COUNT : Fld := ⟨R.FAB_ASN_TOCNT.addr, 0, 32⟩
def R.FAB_ASN_KICK.addr : Nat := 0x40050060
def R.FAB_ASN_KICK.KICK : Fld := ⟨R.FAB_ASN_KICK.addr, 0, 1⟩
def R.FAB_RT_ADDR.addr : Nat := 0x40050070
def R.FAB_RT_ADDR.NODE : Fld := ⟨R.FAB_RT_ADDR.addr, 0, 12⟩
def R.FAB_RT_DATA.addr : Nat := 0x40050074
def R.FAB_RT_DATA.DATA : Fld := ⟨R.FAB_RT_DATA.addr, 0, 32⟩
def R.FAB_RTS_ADDR.addr : Nat := 0x40050078
def R.FAB_RTS_ADDR.NODE : Fld := ⟨R.FAB_RTS_ADDR.addr, 0, 12⟩
def R.FAB_RTS_DATA.addr : Nat := 0x4005007C
def R.FAB_RTS_DATA.DATA : Fld := ⟨R.FAB_RTS_DATA.addr, 0, 32⟩
def R.FAB_CNT_LSARX.addr : Nat := 0x40050080
def R.FAB_CNT_LSARX.COUNT : Fld := ⟨R.FAB_CNT_LSARX.addr, 0, 32⟩
def R.FAB_CNT_SPF.addr : Nat := 0x40050084
def R.FAB_CNT_SPF.COUNT : Fld := ⟨R.FAB_CNT_SPF.addr, 0, 32⟩
def R.FAB_CNT_NOROUTE.addr : Nat := 0x40050088
def R.FAB_CNT_NOROUTE.COUNT : Fld := ⟨R.FAB_CNT_NOROUTE.addr, 0, 32⟩
def R.FAB_CNT_BADHDR.addr : Nat := 0x4005008C
def R.FAB_CNT_BADHDR.COUNT : Fld := ⟨R.FAB_CNT_BADHDR.addr, 0, 32⟩
def R.FAB_CNT_MBXDROP.addr : Nat := 0x40050090
def R.FAB_CNT_MBXDROP.COUNT : Fld := ⟨R.FAB_CNT_MBXDROP.addr, 0, 32⟩
def R.FAB_CNT_QFULL.addr : Nat := 0x40050094
def R.FAB_CNT_QFULL.COUNT : Fld := ⟨R.FAB_CNT_QFULL.addr, 0, 32⟩
def R.FAB_Q_ADDR.addr : Nat := 0x40050098
def R.FAB_Q_ADDR.WADDR : Fld := ⟨R.FAB_Q_ADDR.addr, 2, 11⟩
def R.FAB_Q_DATA.addr : Nat := 0x4005009C
def R.FAB_Q_DATA.DATA : Fld := ⟨R.FAB_Q_DATA.addr, 0, 32⟩
def R.FAB_MBX_TX.addr : Nat := 0x400500A0
def R.FAB_MBX_TX.LEN : Fld := ⟨R.FAB_MBX_TX.addr, 0, 11⟩
def R.FAB_MBX_TX.GO : Fld := ⟨R.FAB_MBX_TX.addr, 16, 1⟩
def R.FAB_MBX_TX.RESULT : Fld := ⟨R.FAB_MBX_TX.addr, 17, 2⟩
def R.FAB_MBX_RX.addr : Nat := 0x400500A4
def R.FAB_MBX_RX.FULL : Fld := ⟨R.FAB_MBX_RX.addr, 0, 8⟩
def R.FAB_P_CTRL.addr (i : Nat) : Nat := 0x40050100 + i * 0x80
def R.FAB_P_CTRL.EN (i : Nat) : Fld := ⟨(R.FAB_P_CTRL.addr i), 0, 1⟩
def R.FAB_P_CTRL.MEDIA (i : Nat) : Fld := ⟨(R.FAB_P_CTRL.addr i), 8, 2⟩
def R.FAB_P_CTRL.T1L_AMP (i : Nat) : Fld := ⟨(R.FAB_P_CTRL.addr i), 10, 1⟩
def R.FAB_P_CTRL.PREEMPT_EN (i : Nat) : Fld := ⟨(R.FAB_P_CTRL.addr i), 11, 1⟩
def R.FAB_P_CTRL.PTP_EN (i : Nat) : Fld := ⟨(R.FAB_P_CTRL.addr i), 12, 1⟩
def R.FAB_P_STAT.addr (i : Nat) : Nat := 0x40050104 + i * 0x80
def R.FAB_P_STAT.STATE (i : Nat) : Fld := ⟨(R.FAB_P_STAT.addr i), 0, 2⟩
def R.FAB_P_STAT.ENREQ (i : Nat) : Fld := ⟨(R.FAB_P_STAT.addr i), 2, 1⟩
def R.FAB_P_STAT.MODE_ACT (i : Nat) : Fld := ⟨(R.FAB_P_STAT.addr i), 3, 1⟩
def R.FAB_P_STAT.MODE_REJ (i : Nat) : Fld := ⟨(R.FAB_P_STAT.addr i), 4, 1⟩
def R.FAB_P_STAT.LINK (i : Nat) : Fld := ⟨(R.FAB_P_STAT.addr i), 8, 1⟩
def R.FAB_P_STAT.SPEED (i : Nat) : Fld := ⟨(R.FAB_P_STAT.addr i), 9, 2⟩
def R.FAB_P_STAT.ADJ (i : Nat) : Fld := ⟨(R.FAB_P_STAT.addr i), 11, 3⟩
def R.FAB_P_STAT.PREEMPT_ACT (i : Nat) : Fld := ⟨(R.FAB_P_STAT.addr i), 14, 1⟩
def R.FAB_P_STAT.FCAUSE (i : Nat) : Fld := ⟨(R.FAB_P_STAT.addr i), 16, 4⟩
def R.FAB_P_STAT.NBR (i : Nat) : Fld := ⟨(R.FAB_P_STAT.addr i), 20, 12⟩
def R.FAB_P_COST.addr (i : Nat) : Nat := 0x40050108 + i * 0x80
def R.FAB_P_COST.COST (i : Nat) : Fld := ⟨(R.FAB_P_COST.addr i), 0, 16⟩
def R.FAB_P_PTPDLY.addr (i : Nat) : Nat := 0x4005010C + i * 0x80
def R.FAB_P_PTPDLY.RXDLY (i : Nat) : Fld := ⟨(R.FAB_P_PTPDLY.addr i), 0, 16⟩
def R.FAB_P_PTPDLY.TXDLY (i : Nat) : Fld := ⟨(R.FAB_P_PTPDLY.addr i), 16, 16⟩
def R.FAB_P_IP.addr (i j : Nat) : Nat := 0x40050110 + i * 0x80 + j * 0x4
def R.FAB_P_IP.IP (i j : Nat) : Fld := ⟨(R.FAB_P_IP.addr i j), 0, 32⟩
def R.FAB_P_PEER.addr (i j : Nat) : Nat := 0x40050120 + i * 0x80 + j * 0x4
def R.FAB_P_PEER.PEER (i j : Nat) : Fld := ⟨(R.FAB_P_PEER.addr i j), 0, 32⟩
def R.FAB_P_GW.addr (i j : Nat) : Nat := 0x40050130 + i * 0x80 + j * 0x4
def R.FAB_P_GW.GW (i j : Nat) : Fld := ⟨(R.FAB_P_GW.addr i j), 0, 32⟩
def R.FAB_P_UDP.addr (i : Nat) : Nat := 0x40050140 + i * 0x80
def R.FAB_P_UDP.PORT (i : Nat) : Fld := ⟨(R.FAB_P_UDP.addr i), 0, 16⟩
def R.FAB_P_UDP.MTU (i : Nat) : Fld := ⟨(R.FAB_P_UDP.addr i), 16, 16⟩
def R.FAB_P_SHARE.addr (i : Nat) : Nat := 0x40050144 + i * 0x80
def R.FAB_P_SHARE.CYC (i : Nat) : Fld := ⟨(R.FAB_P_SHARE.addr i), 0, 8⟩
def R.FAB_P_SHARE.EVT (i : Nat) : Fld := ⟨(R.FAB_P_SHARE.addr i), 8, 8⟩
def R.FAB_P_SHARE.BULK (i : Nat) : Fld := ⟨(R.FAB_P_SHARE.addr i), 16, 8⟩
def R.FAB_P_CNT_RXFRM.addr (i : Nat) : Nat := 0x40050148 + i * 0x80
def R.FAB_P_CNT_RXFRM.COUNT (i : Nat) : Fld := ⟨(R.FAB_P_CNT_RXFRM.addr i), 0, 32⟩
def R.FAB_P_CNT_TXFRM.addr (i : Nat) : Nat := 0x4005014C + i * 0x80
def R.FAB_P_CNT_TXFRM.COUNT (i : Nat) : Fld := ⟨(R.FAB_P_CNT_TXFRM.addr i), 0, 32⟩
def R.FAB_P_CNT_FCSERR.addr (i : Nat) : Nat := 0x40050150 + i * 0x80
def R.FAB_P_CNT_FCSERR.COUNT (i : Nat) : Fld := ⟨(R.FAB_P_CNT_FCSERR.addr i), 0, 32⟩
def R.FAB_P_CNT_ICVFAIL.addr (i : Nat) : Nat := 0x40050154 + i * 0x80
def R.FAB_P_CNT_ICVFAIL.COUNT (i : Nat) : Fld := ⟨(R.FAB_P_CNT_ICVFAIL.addr i), 0, 32⟩
def R.FAB_P_CNT_ICVCUT.addr (i : Nat) : Nat := 0x40050158 + i * 0x80
def R.FAB_P_CNT_ICVCUT.COUNT (i : Nat) : Fld := ⟨(R.FAB_P_CNT_ICVCUT.addr i), 0, 32⟩
def R.FAB_P_CNT_REPLAY.addr (i : Nat) : Nat := 0x4005015C + i * 0x80
def R.FAB_P_CNT_REPLAY.COUNT (i : Nat) : Fld := ⟨(R.FAB_P_CNT_REPLAY.addr i), 0, 32⟩
def R.FAB_P_CNT_CTLPOL.addr (i : Nat) : Nat := 0x40050160 + i * 0x80
def R.FAB_P_CNT_CTLPOL.COUNT (i : Nat) : Fld := ⟨(R.FAB_P_CNT_CTLPOL.addr i), 0, 32⟩
def R.FAB_P_CNT_QDROP.addr (i : Nat) : Nat := 0x40050164 + i * 0x80
def R.FAB_P_CNT_QDROP.COUNT (i : Nat) : Fld := ⟨(R.FAB_P_CNT_QDROP.addr i), 0, 32⟩
def R.FAB_P_CNT_DROP.addr (i j : Nat) : Nat := 0x40050168 + i * 0x80 + j * 0x4
def R.FAB_P_CNT_DROP.COUNT (i j : Nat) : Fld := ⟨(R.FAB_P_CNT_DROP.addr i j), 0, 32⟩
def R.FAB_P_CNT_NOROUTE.addr (i : Nat) : Nat := 0x40050178 + i * 0x80
def R.FAB_P_CNT_NOROUTE.COUNT (i : Nat) : Fld := ⟨(R.FAB_P_CNT_NOROUTE.addr i), 0, 32⟩
def R.FAB_P_CNT_MISC.addr (i : Nat) : Nat := 0x4005017C + i * 0x80
def R.FAB_P_CNT_MISC.COUNT (i : Nat) : Fld := ⟨(R.FAB_P_CNT_MISC.addr i), 0, 32⟩
def R.GATE_CTRL.addr : Nat := 0x40060000
def R.GATE_CTRL.EN : Fld := ⟨R.GATE_CTRL.addr, 0, 1⟩
def R.GATE_STAT.addr : Nat := 0x40060004
def R.GATE_STAT.STATE : Fld := ⟨R.GATE_STAT.addr, 0, 2⟩
def R.GATE_STAT.ENREQ : Fld := ⟨R.GATE_STAT.addr, 2, 1⟩
def R.GATE_STAT.MODE_ACT : Fld := ⟨R.GATE_STAT.addr, 3, 1⟩
def R.GATE_STAT.MODE_REJ : Fld := ⟨R.GATE_STAT.addr, 4, 1⟩
def R.GATE_STAT.FCAUSE : Fld := ⟨R.GATE_STAT.addr, 16, 4⟩
def R.GATE_INTEN.addr : Nat := 0x40060008
def R.GATE_INTEN.IE : Fld := ⟨R.GATE_INTEN.addr, 0, 6⟩
def R.GATE_INTSTAT.addr : Nat := 0x4006000C
def R.GATE_INTSTAT.SESSFULL : Fld := ⟨R.GATE_INTSTAT.addr, 0, 1⟩
def R.GATE_INTSTAT.BADTAG : Fld := ⟨R.GATE_INTSTAT.addr, 1, 1⟩
def R.GATE_INTSTAT.RATE : Fld := ⟨R.GATE_INTSTAT.addr, 2, 1⟩
def R.GATE_INTSTAT.KEYREF : Fld := ⟨R.GATE_INTSTAT.addr, 3, 1⟩
def R.GATE_INTSTAT.TCMDDONE : Fld := ⟨R.GATE_INTSTAT.addr, 4, 1⟩
def R.GATE_INTSTAT.SUBFULL : Fld := ⟨R.GATE_INTSTAT.addr, 5, 1⟩
def R.GATE_TBASE.addr : Nat := 0x40060010
def R.GATE_TBASE.BASE : Fld := ⟨R.GATE_TBASE.addr, 18, 14⟩
def R.GATE_CFG.addr : Nat := 0x40060014
def R.GATE_CFG.KSLOT : Fld := ⟨R.GATE_CFG.addr, 0, 6⟩
def R.GATE_CFG.OPEN_RATE : Fld := ⟨R.GATE_CFG.addr, 8, 8⟩
def R.GATE_TCMD.addr : Nat := 0x40060018
def R.GATE_TCMD.TENANT : Fld := ⟨R.GATE_TCMD.addr, 0, 8⟩
def R.GATE_TCMD.OP : Fld := ⟨R.GATE_TCMD.addr, 8, 2⟩
def R.GATE_TCMD.GO : Fld := ⟨R.GATE_TCMD.addr, 16, 1⟩
def R.GATE_SCNT.addr : Nat := 0x4006001C
def R.GATE_SCNT.OPEN : Fld := ⟨R.GATE_SCNT.addr, 0, 10⟩
def R.GATE_SCNT.PENDING : Fld := ⟨R.GATE_SCNT.addr, 16, 10⟩
def R.GATE_SADDR.addr : Nat := 0x40060020
def R.GATE_SADDR.SLOT : Fld := ⟨R.GATE_SADDR.addr, 0, 9⟩
def R.GATE_SINFO.addr : Nat := 0x40060024
def R.GATE_SINFO.STATE : Fld := ⟨R.GATE_SINFO.addr, 0, 2⟩
def R.GATE_SINFO.TENANT : Fld := ⟨R.GATE_SINFO.addr, 8, 8⟩
def R.GATE_SINFO.ZONE : Fld := ⟨R.GATE_SINFO.addr, 16, 8⟩
def R.GATE_SINFO.RIGHTS : Fld := ⟨R.GATE_SINFO.addr, 24, 7⟩
def R.GATE_SNODE.addr : Nat := 0x40060028
def R.GATE_SNODE.NODE : Fld := ⟨R.GATE_SNODE.addr, 0, 12⟩
def R.GATE_SCMD.addr : Nat := 0x4006002C
def R.GATE_SCMD.CLOSE : Fld := ⟨R.GATE_SCMD.addr, 0, 1⟩
def R.GATE_CNT_ACCEPT.addr : Nat := 0x40060080
def R.GATE_CNT_ACCEPT.COUNT : Fld := ⟨R.GATE_CNT_ACCEPT.addr, 0, 32⟩
def R.GATE_CNT_REFUSE.addr : Nat := 0x40060084
def R.GATE_CNT_REFUSE.COUNT : Fld := ⟨R.GATE_CNT_REFUSE.addr, 0, 32⟩
def R.GATE_CNT_BADTAG.addr : Nat := 0x40060088
def R.GATE_CNT_BADTAG.COUNT : Fld := ⟨R.GATE_CNT_BADTAG.addr, 0, 32⟩
def R.GATE_CNT_REPLAY.addr : Nat := 0x4006008C
def R.GATE_CNT_REPLAY.COUNT : Fld := ⟨R.GATE_CNT_REPLAY.addr, 0, 32⟩
def R.GATE_CNT_RATEDROP.addr : Nat := 0x40060090
def R.GATE_CNT_RATEDROP.COUNT : Fld := ⟨R.GATE_CNT_RATEDROP.addr, 0, 32⟩
def R.GATE_CNT_BADREQ.addr : Nat := 0x40060094
def R.GATE_CNT_BADREQ.COUNT : Fld := ⟨R.GATE_CNT_BADREQ.addr, 0, 32⟩
def R.GATE_CNT_KEYREF.addr : Nat := 0x40060098
def R.GATE_CNT_KEYREF.COUNT : Fld := ⟨R.GATE_CNT_KEYREF.addr, 0, 32⟩
def R.LOOP_CTRL.addr : Nat := 0x40070000
def R.LOOP_CTRL.EN : Fld := ⟨R.LOOP_CTRL.addr, 0, 1⟩
def R.LOOP_CTRL.MODE : Fld := ⟨R.LOOP_CTRL.addr, 1, 1⟩
def R.LOOP_STAT.addr : Nat := 0x40070004
def R.LOOP_STAT.STATE : Fld := ⟨R.LOOP_STAT.addr, 0, 2⟩
def R.LOOP_STAT.ENREQ : Fld := ⟨R.LOOP_STAT.addr, 2, 1⟩
def R.LOOP_STAT.MODE_ACT : Fld := ⟨R.LOOP_STAT.addr, 3, 1⟩
def R.LOOP_STAT.MODE_REJ : Fld := ⟨R.LOOP_STAT.addr, 4, 1⟩
def R.LOOP_STAT.HOLDING : Fld := ⟨R.LOOP_STAT.addr, 8, 1⟩
def R.LOOP_STAT.FCAUSE : Fld := ⟨R.LOOP_STAT.addr, 16, 4⟩
def R.LOOP_STAT.FARG : Fld := ⟨R.LOOP_STAT.addr, 24, 8⟩
def R.LOOP_INTEN.addr : Nat := 0x40070008
def R.LOOP_INTEN.IE : Fld := ⟨R.LOOP_INTEN.addr, 0, 8⟩
def R.LOOP_INTSTAT.addr : Nat := 0x4007000C
def R.LOOP_INTSTAT.MISS : Fld := ⟨R.LOOP_INTSTAT.addr, 0, 1⟩
def R.LOOP_INTSTAT.PVBAD : Fld := ⟨R.LOOP_INTSTAT.addr, 1, 1⟩
def R.LOOP_INTSTAT.BADCOEF : Fld := ⟨R.LOOP_INTSTAT.addr, 2, 1⟩
def R.LOOP_INTSTAT.CFGERR : Fld := ⟨R.LOOP_INTSTAT.addr, 3, 1⟩
def R.LOOP_INTSTAT.POISON : Fld := ⟨R.LOOP_INTSTAT.addr, 4, 1⟩
def R.LOOP_INTSTAT.GRPNONE : Fld := ⟨R.LOOP_INTSTAT.addr, 5, 1⟩
def R.LOOP_INTSTAT.WRREJ : Fld := ⟨R.LOOP_INTSTAT.addr, 6, 1⟩
def R.LOOP_INTSTAT.MTSTEP : Fld := ⟨R.LOOP_INTSTAT.addr, 7, 1⟩
def R.LOOP_MADDR.addr : Nat := 0x40070010
def R.LOOP_MADDR.WADDR : Fld := ⟨R.LOOP_MADDR.addr, 2, 15⟩
def R.LOOP_MDATA.addr : Nat := 0x40070014
def R.LOOP_MDATA.DATA : Fld := ⟨R.LOOP_MDATA.addr, 0, 32⟩
def R.LOOP_LOAD.addr : Nat := 0x40070018
def R.LOOP_LOAD.LOAD : Fld := ⟨R.LOOP_LOAD.addr, 0, 14⟩
def R.LOOP_LSEL.addr : Nat := 0x4007001C
def R.LOOP_LSEL.LOOP : Fld := ⟨R.LOOP_LSEL.addr, 0, 8⟩
def R.LOOP_LSTAT.addr : Nat := 0x40070020
def R.LOOP_LSTAT.STAT : Fld := ⟨R.LOOP_LSTAT.addr, 0, 32⟩
def R.LOOP_LOUT.addr : Nat := 0x40070024
def R.LOOP_LOUT.OUT : Fld := ⟨R.LOOP_LOUT.addr, 0, 32⟩
def R.LOOP_LPV.addr : Nat := 0x40070028
def R.LOOP_LPV.PV : Fld := ⟨R.LOOP_LPV.addr, 0, 32⟩
def R.LOOP_LSP.addr : Nat := 0x4007002C
def R.LOOP_LSP.SP : Fld := ⟨R.LOOP_LSP.addr, 0, 32⟩
def R.LOOP_ASN_BASE.addr : Nat := 0x40070040
def R.LOOP_ASN_BASE.BASE : Fld := ⟨R.LOOP_ASN_BASE.addr, 5, 27⟩
def R.LOOP_ASN_CFG.addr : Nat := 0x40070044
def R.LOOP_ASN_CFG.LOG2N : Fld := ⟨R.LOOP_ASN_CFG.addr, 0, 4⟩
def R.LOOP_ASN_CFG.SRV_KIND : Fld := ⟨R.LOOP_ASN_CFG.addr, 4, 2⟩
def R.LOOP_ASN_CFG.SRV_CORE : Fld := ⟨R.LOOP_ASN_CFG.addr, 8, 4⟩
def R.LOOP_ASN_CFG.SRV_NODE : Fld := ⟨R.LOOP_ASN_CFG.addr, 16, 12⟩
def R.LOOP_ASN_TMO.addr : Nat := 0x40070048
def R.LOOP_ASN_TMO.TMO_US : Fld := ⟨R.LOOP_ASN_TMO.addr, 0, 16⟩
def R.LOOP_ASN_POST.addr : Nat := 0x4007004C
def R.LOOP_ASN_POST.SEQ : Fld := ⟨R.LOOP_ASN_POST.addr, 0, 16⟩
def R.LOOP_ASN_REAP.addr : Nat := 0x40070050
def R.LOOP_ASN_REAP.SEQ : Fld := ⟨R.LOOP_ASN_REAP.addr, 0, 16⟩
def R.LOOP_ASN_STAT.addr : Nat := 0x40070054
def R.LOOP_ASN_STAT.FULL : Fld := ⟨R.LOOP_ASN_STAT.addr, 0, 1⟩
def R.LOOP_ASN_STAT.LATE : Fld := ⟨R.LOOP_ASN_STAT.addr, 1, 1⟩
def R.LOOP_ASN_STAT.BADRING : Fld := ⟨R.LOOP_ASN_STAT.addr, 2, 1⟩
def R.LOOP_ASN_DROP.addr : Nat := 0x40070058
def R.LOOP_ASN_DROP.COUNT : Fld := ⟨R.LOOP_ASN_DROP.addr, 0, 32⟩
def R.LOOP_ASN_TOCNT.addr : Nat := 0x4007005C
def R.LOOP_ASN_TOCNT.COUNT : Fld := ⟨R.LOOP_ASN_TOCNT.addr, 0, 32⟩
def R.LOOP_ASN_KICK.addr : Nat := 0x40070060
def R.LOOP_ASN_KICK.KICK : Fld := ⟨R.LOOP_ASN_KICK.addr, 0, 1⟩
def R.LOOP_CNT_EVAL.addr : Nat := 0x40070080
def R.LOOP_CNT_EVAL.COUNT : Fld := ⟨R.LOOP_CNT_EVAL.addr, 0, 32⟩
def R.LOOP_CNT_MISS.addr : Nat := 0x40070084
def R.LOOP_CNT_MISS.COUNT : Fld := ⟨R.LOOP_CNT_MISS.addr, 0, 32⟩
def R.LOOP_CNT_DEF.addr : Nat := 0x40070088
def R.LOOP_CNT_DEF.COUNT : Fld := ⟨R.LOOP_CNT_DEF.addr, 0, 32⟩
def R.LOOP_CNT_PVBAD.addr : Nat := 0x4007008C
def R.LOOP_CNT_PVBAD.COUNT : Fld := ⟨R.LOOP_CNT_PVBAD.addr, 0, 32⟩
def R.LOOP_GRP_STAT.addr (i : Nat) : Nat := 0x40070100 + i * 0x4
def R.LOOP_GRP_STAT.SEL (i : Nat) : Fld := ⟨(R.LOOP_GRP_STAT.addr i), 0, 8⟩
def R.LOOP_GRP_STAT.NONE (i : Nat) : Fld := ⟨(R.LOOP_GRP_STAT.addr i), 8, 1⟩
def R.MTR_CTRL.addr : Nat := 0x40080000
def R.MTR_CTRL.EN : Fld := ⟨R.MTR_CTRL.addr, 0, 1⟩
def R.MTR_CTRL.MODE : Fld := ⟨R.MTR_CTRL.addr, 1, 1⟩
def R.MTR_STAT.addr : Nat := 0x40080004
def R.MTR_STAT.STATE : Fld := ⟨R.MTR_STAT.addr, 0, 2⟩
def R.MTR_STAT.ENREQ : Fld := ⟨R.MTR_STAT.addr, 2, 1⟩
def R.MTR_STAT.MODE_ACT : Fld := ⟨R.MTR_STAT.addr, 3, 1⟩
def R.MTR_STAT.MODE_REJ : Fld := ⟨R.MTR_STAT.addr, 4, 1⟩
def R.MTR_STAT.ZCSTATE : Fld := ⟨R.MTR_STAT.addr, 8, 2⟩
def R.MTR_STAT.RESTORED : Fld := ⟨R.MTR_STAT.addr, 10, 1⟩
def R.MTR_STAT.FCAUSE : Fld := ⟨R.MTR_STAT.addr, 16, 4⟩
def R.MTR_STAT.FARG : Fld := ⟨R.MTR_STAT.addr, 20, 12⟩
def R.MTR_INTEN.addr : Nat := 0x40080008
def R.MTR_INTEN.IE : Fld := ⟨R.MTR_INTEN.addr, 0, 12⟩
def R.MTR_INTSTAT.addr : Nat := 0x4008000C
def R.MTR_INTSTAT.LATCH : Fld := ⟨R.MTR_INTSTAT.addr, 0, 1⟩
def R.MTR_INTSTAT.NOZC : Fld := ⟨R.MTR_INTSTAT.addr, 1, 1⟩
def R.MTR_INTSTAT.ZCOK : Fld := ⟨R.MTR_INTSTAT.addr, 2, 1⟩
def R.MTR_INTSTAT.OVR : Fld := ⟨R.MTR_INTSTAT.addr, 3, 1⟩
def R.MTR_INTSTAT.CHFAULT : Fld := ⟨R.MTR_INTSTAT.addr, 4, 1⟩
def R.MTR_INTSTAT.REGBAD : Fld := ⟨R.MTR_INTSTAT.addr, 5, 1⟩
def R.MTR_INTSTAT.CKPTHALT : Fld := ⟨R.MTR_INTSTAT.addr, 6, 1⟩
def R.MTR_INTSTAT.CMDDONE : Fld := ⟨R.MTR_INTSTAT.addr, 7, 1⟩
def R.MTR_INTSTAT.GAP : Fld := ⟨R.MTR_INTSTAT.addr, 8, 1⟩
def R.MTR_INTSTAT.WRAP : Fld := ⟨R.MTR_INTSTAT.addr, 9, 1⟩
def R.MTR_INTSTAT.NOCKPT : Fld := ⟨R.MTR_INTSTAT.addr, 10, 1⟩
def R.MTR_INTSTAT.WRREJ : Fld := ⟨R.MTR_INTSTAT.addr, 11, 1⟩
def R.MTR_MADDR.addr : Nat := 0x40080010
def R.MTR_MADDR.WADDR : Fld := ⟨R.MTR_MADDR.addr, 2, 16⟩
def R.MTR_MDATA.addr : Nat := 0x40080014
def R.MTR_MDATA.DATA : Fld := ⟨R.MTR_MDATA.addr, 0, 32⟩
def R.MTR_CFG.addr : Nat := 0x40080018
def R.MTR_CFG.REFPH : Fld := ⟨R.MTR_CFG.addr, 0, 2⟩
def R.MTR_CFG.NOMFREQ : Fld := ⟨R.MTR_CFG.addr, 2, 1⟩
def R.MTR_CFG.LATCHEV : Fld := ⟨R.MTR_CFG.addr, 3, 1⟩
def R.MTR_CFG.NLAT : Fld := ⟨R.MTR_CFG.addr, 16, 12⟩
def R.MTR_ZC.addr : Nat := 0x4008001C
def R.MTR_ZC.HYST : Fld := ⟨R.MTR_ZC.addr, 0, 8⟩
def R.MTR_ZC.TMO_MS : Fld := ⟨R.MTR_ZC.addr, 8, 8⟩
def R.MTR_ZC.RECOV : Fld := ⟨R.MTR_ZC.addr, 16, 4⟩
def R.MTR_CKPT_BASE.addr : Nat := 0x40080020
def R.MTR_CKPT_BASE.BASE : Fld := ⟨R.MTR_CKPT_BASE.addr, 14, 9⟩
def R.MTR_CKPT_CFG.addr : Nat := 0x40080024
def R.MTR_CKPT_CFG.CKPT_S : Fld := ⟨R.MTR_CKPT_CFG.addr, 0, 12⟩
def R.MTR_CKPT_CFG.BUSY : Fld := ⟨R.MTR_CKPT_CFG.addr, 16, 1⟩
def R.MTR_CKPT_CFG.HALT : Fld := ⟨R.MTR_CKPT_CFG.addr, 17, 1⟩
def R.MTR_CKPT_CFG.SLOT : Fld := ⟨R.MTR_CKPT_CFG.addr, 18, 1⟩
def R.MTR_CKPT_SEQ.addr : Nat := 0x40080028
def R.MTR_CKPT_SEQ.CSEQ : Fld := ⟨R.MTR_CKPT_SEQ.addr, 0, 32⟩
def R.MTR_CMD.addr : Nat := 0x4008002C
def R.MTR_CMD.OP : Fld := ⟨R.MTR_CMD.addr, 0, 3⟩
def R.MTR_CMD.ARG : Fld := ⟨R.MTR_CMD.addr, 8, 9⟩
def R.MTR_CMD.GO : Fld := ⟨R.MTR_CMD.addr, 24, 1⟩
def R.MTR_CMD.RESULT : Fld := ⟨R.MTR_CMD.addr, 25, 3⟩
def R.MTR_RSEL.addr : Nat := 0x40080030
def R.MTR_RSEL.REG : Fld := ⟨R.MTR_RSEL.addr, 0, 9⟩
def R.MTR_RVAL_LO.addr : Nat := 0x40080034
def R.MTR_RVAL_LO.VAL : Fld := ⟨R.MTR_RVAL_LO.addr, 0, 32⟩
def R.MTR_RVAL_HI.addr : Nat := 0x40080038
def R.MTR_RVAL_HI.VAL : Fld := ⟨R.MTR_RVAL_HI.addr, 0, 32⟩
def R.MTR_LATCH.addr : Nat := 0x4008003C
def R.MTR_LATCH.PAGE : Fld := ⟨R.MTR_LATCH.addr, 0, 1⟩
def R.MTR_ASN_BASE.addr : Nat := 0x40080040
def R.MTR_ASN_BASE.BASE : Fld := ⟨R.MTR_ASN_BASE.addr, 5, 27⟩
def R.MTR_ASN_CFG.addr : Nat := 0x40080044
def R.MTR_ASN_CFG.LOG2N : Fld := ⟨R.MTR_ASN_CFG.addr, 0, 4⟩
def R.MTR_ASN_CFG.SRV_KIND : Fld := ⟨R.MTR_ASN_CFG.addr, 4, 2⟩
def R.MTR_ASN_CFG.SRV_CORE : Fld := ⟨R.MTR_ASN_CFG.addr, 8, 4⟩
def R.MTR_ASN_CFG.SRV_NODE : Fld := ⟨R.MTR_ASN_CFG.addr, 16, 12⟩
def R.MTR_ASN_TMO.addr : Nat := 0x40080048
def R.MTR_ASN_TMO.TMO_US : Fld := ⟨R.MTR_ASN_TMO.addr, 0, 16⟩
def R.MTR_ASN_POST.addr : Nat := 0x4008004C
def R.MTR_ASN_POST.SEQ : Fld := ⟨R.MTR_ASN_POST.addr, 0, 16⟩
def R.MTR_ASN_REAP.addr : Nat := 0x40080050
def R.MTR_ASN_REAP.SEQ : Fld := ⟨R.MTR_ASN_REAP.addr, 0, 16⟩
def R.MTR_ASN_STAT.addr : Nat := 0x40080054
def R.MTR_ASN_STAT.FULL : Fld := ⟨R.MTR_ASN_STAT.addr, 0, 1⟩
def R.MTR_ASN_STAT.LATE : Fld := ⟨R.MTR_ASN_STAT.addr, 1, 1⟩
def R.MTR_ASN_STAT.BADRING : Fld := ⟨R.MTR_ASN_STAT.addr, 2, 1⟩
def R.MTR_ASN_DROP.addr : Nat := 0x40080058
def R.MTR_ASN_DROP.COUNT : Fld := ⟨R.MTR_ASN_DROP.addr, 0, 32⟩
def R.MTR_ASN_TOCNT.addr : Nat := 0x4008005C
def R.MTR_ASN_TOCNT.COUNT : Fld := ⟨R.MTR_ASN_TOCNT.addr, 0, 32⟩
def R.MTR_ASN_KICK.addr : Nat := 0x40080060
def R.MTR_ASN_KICK.KICK : Fld := ⟨R.MTR_ASN_KICK.addr, 0, 1⟩
def R.MTR_LSEQ.addr : Nat := 0x40080070
def R.MTR_LSEQ.LSEQ : Fld := ⟨R.MTR_LSEQ.addr, 0, 32⟩
def R.MTR_FREQ.addr : Nat := 0x40080074
def R.MTR_FREQ.FREQ : Fld := ⟨R.MTR_FREQ.addr, 0, 32⟩
def R.MTR_CKPT_FREG.addr : Nat := 0x40080078
def R.MTR_CKPT_FREG.REG : Fld := ⟨R.MTR_CKPT_FREG.addr, 0, 9⟩
def R.MTR_CNT_ROUND.addr : Nat := 0x40080080
def R.MTR_CNT_ROUND.COUNT : Fld := ⟨R.MTR_CNT_ROUND.addr, 0, 32⟩
def R.MTR_CNT_OVR.addr : Nat := 0x40080084
def R.MTR_CNT_OVR.COUNT : Fld := ⟨R.MTR_CNT_OVR.addr, 0, 32⟩
def R.MTR_CNT_ZCREJ.addr : Nat := 0x40080088
def R.MTR_CNT_ZCREJ.COUNT : Fld := ⟨R.MTR_CNT_ZCREJ.addr, 0, 32⟩
def R.MTR_CNT_NOZC.addr : Nat := 0x4008008C
def R.MTR_CNT_NOZC.COUNT : Fld := ⟨R.MTR_CNT_NOZC.addr, 0, 32⟩
def R.MTR_CNT_GAP.addr : Nat := 0x40080090
def R.MTR_CNT_GAP.COUNT : Fld := ⟨R.MTR_CNT_GAP.addr, 0, 32⟩
def R.MTR_CNT_SEGCHG.addr : Nat := 0x40080094
def R.MTR_CNT_SEGCHG.COUNT : Fld := ⟨R.MTR_CNT_SEGCHG.addr, 0, 32⟩
def R.MTR_CNT_CORR.addr : Nat := 0x40080098
def R.MTR_CNT_CORR.COUNT : Fld := ⟨R.MTR_CNT_CORR.addr, 0, 32⟩
def R.MTR_CH_STAT.addr (i : Nat) : Nat := 0x40080100 + i * 0x4
def R.MTR_CH_STAT.SEG (i : Nat) : Fld := ⟨(R.MTR_CH_STAT.addr i), 0, 3⟩
def R.MTR_CH_STAT.OVR (i : Nat) : Fld := ⟨(R.MTR_CH_STAT.addr i), 8, 1⟩
def R.MTR_CH_STAT.FAULT (i : Nat) : Fld := ⟨(R.MTR_CH_STAT.addr i), 9, 1⟩
def R.DIO_CTRL.addr : Nat := 0x40090000
def R.DIO_CTRL.OUTEN : Fld := ⟨R.DIO_CTRL.addr, 0, 1⟩
def R.DIO_CTRL.RFXEN : Fld := ⟨R.DIO_CTRL.addr, 1, 1⟩
def R.DIO_CTRL.AUTORES : Fld := ⟨R.DIO_CTRL.addr, 2, 1⟩
def R.DIO_STAT.addr : Nat := 0x40090004
def R.DIO_STAT.OUTACT : Fld := ⟨R.DIO_STAT.addr, 0, 1⟩
def R.DIO_STAT.KASTOP : Fld := ⟨R.DIO_STAT.addr, 1, 1⟩
def R.DIO_STAT.KASUSP : Fld := ⟨R.DIO_STAT.addr, 2, 1⟩
def R.DIO_STAT.FSOK : Fld := ⟨R.DIO_STAT.addr, 4, 3⟩
def R.DIO_INTEN.addr : Nat := 0x40090008
def R.DIO_INTEN.IE : Fld := ⟨R.DIO_INTEN.addr, 0, 11⟩
def R.DIO_INTSTAT.addr : Nat := 0x4009000C
def R.DIO_INTSTAT.KASTOP : Fld := ⟨R.DIO_INTSTAT.addr, 0, 1⟩
def R.DIO_INTSTAT.DOSAFE : Fld := ⟨R.DIO_INTSTAT.addr, 1, 1⟩
def R.DIO_INTSTAT.DOOC : Fld := ⟨R.DIO_INTSTAT.addr, 2, 1⟩
def R.DIO_INTSTAT.FSFAIL : Fld := ⟨R.DIO_INTSTAT.addr, 3, 1⟩
def R.DIO_INTSTAT.FSRET : Fld := ⟨R.DIO_INTSTAT.addr, 4, 1⟩
def R.DIO_INTSTAT.RFXFIRE : Fld := ⟨R.DIO_INTSTAT.addr, 5, 1⟩
def R.DIO_INTSTAT.CMTLOCK : Fld := ⟨R.DIO_INTSTAT.addr, 6, 1⟩
def R.DIO_INTSTAT.QERR : Fld := ⟨R.DIO_INTSTAT.addr, 7, 1⟩
def R.DIO_INTSTAT.CNTWRAP : Fld := ⟨R.DIO_INTSTAT.addr, 8, 1⟩
def R.DIO_INTSTAT.WRREJ : Fld := ⟨R.DIO_INTSTAT.addr, 9, 1⟩
def R.DIO_INTSTAT.CMDDONE : Fld := ⟨R.DIO_INTSTAT.addr, 10, 1⟩
def R.DIO_KA_CFG.addr : Nat := 0x40090010
def R.DIO_KA_CFG.KICK_MS : Fld := ⟨R.DIO_KA_CFG.addr, 0, 10⟩
def R.DIO_KA_KICK.addr : Nat := 0x40090014
def R.DIO_KA_KICK.KICK : Fld := ⟨R.DIO_KA_KICK.addr, 0, 1⟩
def R.DIO_DI_STATE.addr : Nat := 0x40090018
def R.DIO_DI_STATE.STATE : Fld := ⟨R.DIO_DI_STATE.addr, 0, 32⟩
def R.DIO_DI_EDGE.addr : Nat := 0x4009001C
def R.DIO_DI_EDGE.EDGE : Fld := ⟨R.DIO_DI_EDGE.addr, 0, 32⟩
def R.DIO_DO_VAL.addr : Nat := 0x40090020
def R.DIO_DO_VAL.V : Fld := ⟨R.DIO_DO_VAL.addr, 0, 24⟩
def R.DIO_DO_PIN.addr : Nat := 0x40090024
def R.DIO_DO_PIN.PIN : Fld := ⟨R.DIO_DO_PIN.addr, 0, 24⟩
def R.DIO_DO_FMASK.addr : Nat := 0x40090028
def R.DIO_DO_FMASK.FMASK : Fld := ⟨R.DIO_DO_FMASK.addr, 0, 24⟩
def R.DIO_DO_LOCK.addr : Nat := 0x4009002C
def R.DIO_DO_LOCK.LOCK : Fld := ⟨R.DIO_DO_LOCK.addr, 0, 8⟩
def R.DIO_DO_CMD.addr : Nat := 0x40090030
def R.DIO_DO_CMD.CH : Fld := ⟨R.DIO_DO_CMD.addr, 0, 5⟩
def R.DIO_DO_CMD.OP : Fld := ⟨R.DIO_DO_CMD.addr, 8, 3⟩
def R.DIO_DO_CMD.GO : Fld := ⟨R.DIO_DO_CMD.addr, 16, 1⟩
def R.DIO_DO_CMD.RESULT : Fld := ⟨R.DIO_DO_CMD.addr, 17, 2⟩
def R.DIO_RFX_ARM.addr (i : Nat) : Nat := 0x40090040 + i * 0x4
def R.DIO_RFX_ARM.ARM (i : Nat) : Fld := ⟨(R.DIO_RFX_ARM.addr i), 0, 32⟩
def R.DIO_RFX_DISARM.addr (i : Nat) : Nat := 0x40090048 + i * 0x4
def R.DIO_RFX_DISARM.DISARM (i : Nat) : Fld := ⟨(R.DIO_RFX_DISARM.addr i), 0, 32⟩
def R.DIO_RFX_FIRED.addr (i : Nat) : Nat := 0x40090050 + i * 0x4
def R.DIO_RFX_FIRED.FIRED (i : Nat) : Fld := ⟨(R.DIO_RFX_FIRED.addr i), 0, 32⟩
def R.DIO_CNT_CMTLOCK.addr : Nat := 0x40090080
def R.DIO_CNT_CMTLOCK.COUNT : Fld := ⟨R.DIO_CNT_CMTLOCK.addr, 0, 32⟩
def R.DIO_CNT_RFXSUP.addr : Nat := 0x40090084
def R.DIO_CNT_RFXSUP.COUNT : Fld := ⟨R.DIO_CNT_RFXSUP.addr, 0, 32⟩
def R.DIO_CNT_KASTOP.addr : Nat := 0x40090088
def R.DIO_CNT_KASTOP.COUNT : Fld := ⟨R.DIO_CNT_KASTOP.addr, 0, 32⟩
def R.DIO_CNT_OC.addr : Nat := 0x4009008C
def R.DIO_CNT_OC.COUNT : Fld := ⟨R.DIO_CNT_OC.addr, 0, 32⟩
def R.DIO_CNT_CFG.addr (i : Nat) : Nat := 0x40090100 + i * 0x20
def R.DIO_CNT_CFG.MODE (i : Nat) : Fld := ⟨(R.DIO_CNT_CFG.addr i), 0, 2⟩
def R.DIO_CNT_CFG.EDGE (i : Nat) : Fld := ⟨(R.DIO_CNT_CFG.addr i), 2, 2⟩
def R.DIO_CNT_CFG.DIR (i : Nat) : Fld := ⟨(R.DIO_CNT_CFG.addr i), 4, 1⟩
def R.DIO_CNT_CFG.GATE_MS (i : Nat) : Fld := ⟨(R.DIO_CNT_CFG.addr i), 8, 10⟩
def R.DIO_CNT_CFG.ZERO (i : Nat) : Fld := ⟨(R.DIO_CNT_CFG.addr i), 20, 4⟩
def R.DIO_CNT_VAL.addr (i : Nat) : Nat := 0x40090104 + i * 0x20
def R.DIO_CNT_VAL.VAL (i : Nat) : Fld := ⟨(R.DIO_CNT_VAL.addr i), 0, 32⟩
def R.DIO_CNT_LATCH.addr (i : Nat) : Nat := 0x40090108 + i * 0x20
def R.DIO_CNT_LATCH.LATCH (i : Nat) : Fld := ⟨(R.DIO_CNT_LATCH.addr i), 0, 32⟩
def R.DIO_CNT_FREQ.addr (i : Nat) : Nat := 0x4009010C + i * 0x20
def R.DIO_CNT_FREQ.FREQ (i : Nat) : Fld := ⟨(R.DIO_CNT_FREQ.addr i), 0, 32⟩
def R.DIO_CNT_PRESET.addr (i : Nat) : Nat := 0x40090110 + i * 0x20
def R.DIO_CNT_PRESET.PRESET (i : Nat) : Fld := ⟨(R.DIO_CNT_PRESET.addr i), 0, 32⟩
def R.DIO_CNT_CMD.addr (i : Nat) : Nat := 0x40090114 + i * 0x20
def R.DIO_CNT_CMD.CLEAR (i : Nat) : Fld := ⟨(R.DIO_CNT_CMD.addr i), 0, 1⟩
def R.DIO_CNT_CMD.LOAD (i : Nat) : Fld := ⟨(R.DIO_CNT_CMD.addr i), 1, 1⟩
def R.DIO_CNT_ERR.addr (i : Nat) : Nat := 0x40090118 + i * 0x20
def R.DIO_CNT_ERR.COUNT (i : Nat) : Fld := ⟨(R.DIO_CNT_ERR.addr i), 0, 32⟩
def R.DIO_CNT_STAT.addr (i : Nat) : Nat := 0x4009011C + i * 0x20
def R.DIO_CNT_STAT.WRAP (i : Nat) : Fld := ⟨(R.DIO_CNT_STAT.addr i), 0, 1⟩
def R.DIO_CNT_STAT.FZERO (i : Nat) : Fld := ⟨(R.DIO_CNT_STAT.addr i), 1, 1⟩
def R.DIO_FLT.addr (i : Nat) : Nat := 0x40090200 + i * 0x4
def R.DIO_FLT.FLT (i : Nat) : Fld := ⟨(R.DIO_FLT.addr i), 0, 8⟩
def R.DIO_FLT.FUNIT (i : Nat) : Fld := ⟨(R.DIO_FLT.addr i), 8, 1⟩
def R.DIO_DO_CFG.addr (i : Nat) : Nat := 0x40090300 + i * 0x8
def R.DIO_DO_CFG.SAFE (i : Nat) : Fld := ⟨(R.DIO_DO_CFG.addr i), 0, 2⟩
def R.DIO_DO_CFG.TMO (i : Nat) : Fld := ⟨(R.DIO_DO_CFG.addr i), 8, 8⟩
def R.DIO_DO_STAT.addr (i : Nat) : Nat := 0x40090304 + i * 0x8
def R.DIO_DO_STAT.FSTATE (i : Nat) : Fld := ⟨(R.DIO_DO_STAT.addr i), 0, 2⟩
def R.DIO_DO_STAT.OC (i : Nat) : Fld := ⟨(R.DIO_DO_STAT.addr i), 2, 1⟩
def R.DIO_DO_STAT.LOCKED (i : Nat) : Fld := ⟨(R.DIO_DO_STAT.addr i), 3, 1⟩
def R.DIO_DO_STAT.FORCED (i : Nat) : Fld := ⟨(R.DIO_DO_STAT.addr i), 4, 1⟩
def R.DIO_RFX_CFG0.addr (i : Nat) : Nat := 0x40090400 + i * 0x8
def R.DIO_RFX_CFG0.CFG0 (i : Nat) : Fld := ⟨(R.DIO_RFX_CFG0.addr i), 0, 32⟩
def R.DIO_RFX_CFG1.addr (i : Nat) : Nat := 0x40090404 + i * 0x8
def R.DIO_RFX_CFG1.CFG1 (i : Nat) : Fld := ⟨(R.DIO_RFX_CFG1.addr i), 0, 32⟩
def R.AIO_CTRL.addr : Nat := 0x400A0000
def R.AIO_CTRL.OUTEN : Fld := ⟨R.AIO_CTRL.addr, 0, 1⟩
def R.AIO_CTRL.AUTORES : Fld := ⟨R.AIO_CTRL.addr, 1, 1⟩
def R.AIO_STAT.addr : Nat := 0x400A0004
def R.AIO_STAT.AIFAULT : Fld := ⟨R.AIO_STAT.addr, 0, 8⟩
def R.AIO_STAT.AONLIVE : Fld := ⟨R.AIO_STAT.addr, 8, 8⟩
def R.AIO_STAT.FS4OK : Fld := ⟨R.AIO_STAT.addr, 16, 1⟩
def R.AIO_STAT.OUTACT : Fld := ⟨R.AIO_STAT.addr, 17, 1⟩
def R.AIO_INTEN.addr : Nat := 0x400A0008
def R.AIO_INTEN.IE : Fld := ⟨R.AIO_INTEN.addr, 0, 8⟩
def R.AIO_INTSTAT.addr : Nat := 0x400A000C
def R.AIO_INTSTAT.AIFAULT : Fld := ⟨R.AIO_INTSTAT.addr, 0, 1⟩
def R.AIO_INTSTAT.AIOK : Fld := ⟨R.AIO_INTSTAT.addr, 1, 1⟩
def R.AIO_INTSTAT.AOSAFE : Fld := ⟨R.AIO_INTSTAT.addr, 2, 1⟩
def R.AIO_INTSTAT.AOOC : Fld := ⟨R.AIO_INTSTAT.addr, 3, 1⟩
def R.AIO_INTSTAT.FSFAIL : Fld := ⟨R.AIO_INTSTAT.addr, 4, 1⟩
def R.AIO_INTSTAT.FSRET : Fld := ⟨R.AIO_INTSTAT.addr, 5, 1⟩
def R.AIO_INTSTAT.SRCREJ : Fld := ⟨R.AIO_INTSTAT.addr, 6, 1⟩
def R.AIO_INTSTAT.CMDDONE : Fld := ⟨R.AIO_INTSTAT.addr, 7, 1⟩
def R.AIO_AO_CMD.addr : Nat := 0x400A0010
def R.AIO_AO_CMD.CH : Fld := ⟨R.AIO_AO_CMD.addr, 0, 3⟩
def R.AIO_AO_CMD.OP : Fld := ⟨R.AIO_AO_CMD.addr, 8, 3⟩
def R.AIO_AO_CMD.GO : Fld := ⟨R.AIO_AO_CMD.addr, 16, 1⟩
def R.AIO_AO_CMD.RESULT : Fld := ⟨R.AIO_AO_CMD.addr, 17, 2⟩
def R.AIO_CNT_SRCREJ.addr : Nat := 0x400A0080
def R.AIO_CNT_SRCREJ.COUNT : Fld := ⟨R.AIO_CNT_SRCREJ.addr, 0, 32⟩
def R.AIO_AI_CFG.addr (i : Nat) : Nat := 0x400A0100 + i * 0x10
def R.AIO_AI_CFG.EN (i : Nat) : Fld := ⟨(R.AIO_AI_CFG.addr i), 0, 1⟩
def R.AIO_AI_CFG.RANGE (i : Nat) : Fld := ⟨(R.AIO_AI_CFG.addr i), 1, 2⟩
def R.AIO_AI_CFG.CONV (i : Nat) : Fld := ⟨(R.AIO_AI_CFG.addr i), 3, 2⟩
def R.AIO_AI_CFG.WBDIS (i : Nat) : Fld := ⟨(R.AIO_AI_CFG.addr i), 5, 1⟩
def R.AIO_AI_DATA.addr (i : Nat) : Nat := 0x400A0104 + i * 0x10
def R.AIO_AI_DATA.CODE (i : Nat) : Fld := ⟨(R.AIO_AI_DATA.addr i), 0, 16⟩
def R.AIO_AI_DATA.RANGE (i : Nat) : Fld := ⟨(R.AIO_AI_DATA.addr i), 16, 2⟩
def R.AIO_AI_DATA.FAULT (i : Nat) : Fld := ⟨(R.AIO_AI_DATA.addr i), 24, 1⟩
def R.AIO_AI_DATA.FCODE (i : Nat) : Fld := ⟨(R.AIO_AI_DATA.addr i), 25, 3⟩
def R.AIO_AI_ENG.addr (i : Nat) : Nat := 0x400A0108 + i * 0x10
def R.AIO_AI_ENG.ENG (i : Nat) : Fld := ⟨(R.AIO_AI_ENG.addr i), 0, 32⟩
def R.AIO_AI_CNT.addr (i : Nat) : Nat := 0x400A010C + i * 0x10
def R.AIO_AI_CNT.COUNT (i : Nat) : Fld := ⟨(R.AIO_AI_CNT.addr i), 0, 32⟩
def R.AIO_AO_CFG.addr (i : Nat) : Nat := 0x400A0200 + i * 0x10
def R.AIO_AO_CFG.SAFE (i : Nat) : Fld := ⟨(R.AIO_AO_CFG.addr i), 0, 2⟩
def R.AIO_AO_CFG.TMO (i : Nat) : Fld := ⟨(R.AIO_AO_CFG.addr i), 8, 8⟩
def R.AIO_AO_CFG.SRC (i : Nat) : Fld := ⟨(R.AIO_AO_CFG.addr i), 16, 1⟩
def R.AIO_AO_SAFECODE.addr (i : Nat) : Nat := 0x400A0204 + i * 0x10
def R.AIO_AO_SAFECODE.CODE (i : Nat) : Fld := ⟨(R.AIO_AO_SAFECODE.addr i), 0, 16⟩
def R.AIO_AO_CODE.addr (i : Nat) : Nat := 0x400A0208 + i * 0x10
def R.AIO_AO_CODE.CODE (i : Nat) : Fld := ⟨(R.AIO_AO_CODE.addr i), 0, 16⟩
def R.AIO_AO_STAT.addr (i : Nat) : Nat := 0x400A020C + i * 0x10
def R.AIO_AO_STAT.FSTATE (i : Nat) : Fld := ⟨(R.AIO_AO_STAT.addr i), 0, 2⟩
def R.AIO_AO_STAT.OC (i : Nat) : Fld := ⟨(R.AIO_AO_STAT.addr i), 2, 1⟩
def R.AIO_AO_STAT.FORCED (i : Nat) : Fld := ⟨(R.AIO_AO_STAT.addr i), 3, 1⟩
def R.CAN_CTRL.addr (i : Nat) : Nat := 0x400B0000 + i * 0x4000
def R.CAN_CTRL.EN (i : Nat) : Fld := ⟨(R.CAN_CTRL.addr i), 0, 1⟩
def R.CAN_CTRL.MODE (i : Nat) : Fld := ⟨(R.CAN_CTRL.addr i), 1, 1⟩
def R.CAN_STAT.addr (i : Nat) : Nat := 0x400B0004 + i * 0x4000
def R.CAN_STAT.STATE (i : Nat) : Fld := ⟨(R.CAN_STAT.addr i), 0, 2⟩
def R.CAN_STAT.ENREQ (i : Nat) : Fld := ⟨(R.CAN_STAT.addr i), 2, 1⟩
def R.CAN_STAT.MODE_ACT (i : Nat) : Fld := ⟨(R.CAN_STAT.addr i), 3, 1⟩
def R.CAN_STAT.MODE_REJ (i : Nat) : Fld := ⟨(R.CAN_STAT.addr i), 4, 1⟩
def R.CAN_STAT.SLEEP (i : Nat) : Fld := ⟨(R.CAN_STAT.addr i), 8, 1⟩
def R.CAN_STAT.TXHALT (i : Nat) : Fld := ⟨(R.CAN_STAT.addr i), 9, 1⟩
def R.CAN_STAT.INTEG (i : Nat) : Fld := ⟨(R.CAN_STAT.addr i), 10, 1⟩
def R.CAN_STAT.FCAUSE (i : Nat) : Fld := ⟨(R.CAN_STAT.addr i), 16, 4⟩
def R.CAN_STAT.FARG (i : Nat) : Fld := ⟨(R.CAN_STAT.addr i), 24, 8⟩
def R.CAN_INTEN.addr (i : Nat) : Nat := 0x400B0008 + i * 0x4000
def R.CAN_INTEN.IE (i : Nat) : Fld := ⟨(R.CAN_INTEN.addr i), 0, 16⟩
def R.CAN_INTSTAT.addr (i : Nat) : Nat := 0x400B000C + i * 0x4000
def R.CAN_INTSTAT.RXNEW (i : Nat) : Fld := ⟨(R.CAN_INTSTAT.addr i), 0, 1⟩
def R.CAN_INTSTAT.TXDONE (i : Nat) : Fld := ⟨(R.CAN_INTSTAT.addr i), 1, 1⟩
def R.CAN_INTSTAT.EPASS (i : Nat) : Fld := ⟨(R.CAN_INTSTAT.addr i), 2, 1⟩
def R.CAN_INTSTAT.ERRACT (i : Nat) : Fld := ⟨(R.CAN_INTSTAT.addr i), 3, 1⟩
def R.CAN_INTSTAT.BUSOFF (i : Nat) : Fld := ⟨(R.CAN_INTSTAT.addr i), 4, 1⟩
def R.CAN_INTSTAT.BORECOV (i : Nat) : Fld := ⟨(R.CAN_INTSTAT.addr i), 5, 1⟩
def R.CAN_INTSTAT.LONE (i : Nat) : Fld := ⟨(R.CAN_INTSTAT.addr i), 6, 1⟩
def R.CAN_INTSTAT.WAKE (i : Nat) : Fld := ⟨(R.CAN_INTSTAT.addr i), 7, 1⟩
def R.CAN_INTSTAT.TXHALT (i : Nat) : Fld := ⟨(R.CAN_INTSTAT.addr i), 8, 1⟩
def R.CAN_INTSTAT.RXOVR (i : Nat) : Fld := ⟨(R.CAN_INTSTAT.addr i), 9, 1⟩
def R.CAN_INTSTAT.FLTOVF (i : Nat) : Fld := ⟨(R.CAN_INTSTAT.addr i), 10, 1⟩
def R.CAN_INTSTAT.PXE (i : Nat) : Fld := ⟨(R.CAN_INTSTAT.addr i), 11, 1⟩
def R.CAN_INTSTAT.LOCKTO (i : Nat) : Fld := ⟨(R.CAN_INTSTAT.addr i), 12, 1⟩
def R.CAN_INTSTAT.WRREJ (i : Nat) : Fld := ⟨(R.CAN_INTSTAT.addr i), 13, 1⟩
def R.CAN_INTSTAT.CMDDONE (i : Nat) : Fld := ⟨(R.CAN_INTSTAT.addr i), 14, 1⟩
def R.CAN_INTSTAT.RAMERR (i : Nat) : Fld := ⟨(R.CAN_INTSTAT.addr i), 15, 1⟩
def R.CAN_CFG.addr (i : Nat) : Nat := 0x400B0010 + i * 0x4000
def R.CAN_CFG.FDEN (i : Nat) : Fld := ⟨(R.CAN_CFG.addr i), 0, 1⟩
def R.CAN_CFG.NISO (i : Nat) : Fld := ⟨(R.CAN_CFG.addr i), 1, 1⟩
def R.CAN_CFG.BRSEN (i : Nat) : Fld := ⟨(R.CAN_CFG.addr i), 2, 1⟩
def R.CAN_CFG.LISTEN (i : Nat) : Fld := ⟨(R.CAN_CFG.addr i), 3, 1⟩
def R.CAN_CFG.LOOPBACK (i : Nat) : Fld := ⟨(R.CAN_CFG.addr i), 4, 1⟩
def R.CAN_CFG.TERM (i : Nat) : Fld := ⟨(R.CAN_CFG.addr i), 5, 1⟩
def R.CAN_CFG.BOAUTO (i : Nat) : Fld := ⟨(R.CAN_CFG.addr i), 6, 1⟩
def R.CAN_CFG.NOMATCH (i : Nat) : Fld := ⟨(R.CAN_CFG.addr i), 7, 1⟩
def R.CAN_CFG.OVWR (i : Nat) : Fld := ⟨(R.CAN_CFG.addr i), 8, 1⟩
def R.CAN_CFG.LONE_POL (i : Nat) : Fld := ⟨(R.CAN_CFG.addr i), 9, 1⟩
def R.CAN_CFG.LONE_LIM (i : Nat) : Fld := ⟨(R.CAN_CFG.addr i), 16, 8⟩
def R.CAN_NBT.addr (i : Nat) : Nat := 0x400B0014 + i * 0x4000
def R.CAN_NBT.NBRP (i : Nat) : Fld := ⟨(R.CAN_NBT.addr i), 0, 9⟩
def R.CAN_NBT.NTSEG1 (i : Nat) : Fld := ⟨(R.CAN_NBT.addr i), 9, 8⟩
def R.CAN_NBT.NTSEG2 (i : Nat) : Fld := ⟨(R.CAN_NBT.addr i), 17, 7⟩
def R.CAN_NBT.NSJW (i : Nat) : Fld := ⟨(R.CAN_NBT.addr i), 24, 7⟩
def R.CAN_NBT.TRIPLE (i : Nat) : Fld := ⟨(R.CAN_NBT.addr i), 31, 1⟩
def R.CAN_DBT.addr (i : Nat) : Nat := 0x400B0018 + i * 0x4000
def R.CAN_DBT.DBRP (i : Nat) : Fld := ⟨(R.CAN_DBT.addr i), 0, 5⟩
def R.CAN_DBT.DTSEG1 (i : Nat) : Fld := ⟨(R.CAN_DBT.addr i), 8, 5⟩
def R.CAN_DBT.DTSEG2 (i : Nat) : Fld := ⟨(R.CAN_DBT.addr i), 16, 4⟩
def R.CAN_DBT.DSJW (i : Nat) : Fld := ⟨(R.CAN_DBT.addr i), 24, 4⟩
def R.CAN_DBT.TDC (i : Nat) : Fld := ⟨(R.CAN_DBT.addr i), 31, 1⟩
def R.CAN_TDC.addr (i : Nat) : Nat := 0x400B001C + i * 0x4000
def R.CAN_TDC.TDCO (i : Nat) : Fld := ⟨(R.CAN_TDC.addr i), 0, 7⟩
def R.CAN_TDC.TDCV (i : Nat) : Fld := ⟨(R.CAN_TDC.addr i), 8, 7⟩
def R.CAN_ERR.addr (i : Nat) : Nat := 0x400B0020 + i * 0x4000
def R.CAN_ERR.TEC (i : Nat) : Fld := ⟨(R.CAN_ERR.addr i), 0, 8⟩
def R.CAN_ERR.REC (i : Nat) : Fld := ⟨(R.CAN_ERR.addr i), 8, 8⟩
def R.CAN_ERR.EST (i : Nat) : Fld := ⟨(R.CAN_ERR.addr i), 16, 2⟩
def R.CAN_ERR.LONE (i : Nat) : Fld := ⟨(R.CAN_ERR.addr i), 18, 1⟩
def R.CAN_ERR.LEC (i : Nat) : Fld := ⟨(R.CAN_ERR.addr i), 20, 4⟩
def R.CAN_ERR.ACKRUN (i : Nat) : Fld := ⟨(R.CAN_ERR.addr i), 24, 8⟩
def R.CAN_CMD.addr (i : Nat) : Nat := 0x400B0024 + i * 0x4000
def R.CAN_CMD.OP (i : Nat) : Fld := ⟨(R.CAN_CMD.addr i), 0, 3⟩
def R.CAN_CMD.GO (i : Nat) : Fld := ⟨(R.CAN_CMD.addr i), 8, 1⟩
def R.CAN_CMD.RESULT (i : Nat) : Fld := ⟨(R.CAN_CMD.addr i), 9, 3⟩
def R.CAN_RXFIFO.addr (i : Nat) : Nat := 0x400B0028 + i * 0x4000
def R.CAN_RXFIFO.FIRST (i : Nat) : Fld := ⟨(R.CAN_RXFIFO.addr i), 0, 7⟩
def R.CAN_RXFIFO.COUNT (i : Nat) : Fld := ⟨(R.CAN_RXFIFO.addr i), 8, 8⟩
def R.CAN_RXFIFO.LEVEL (i : Nat) : Fld := ⟨(R.CAN_RXFIFO.addr i), 16, 8⟩
def R.CAN_RXFIFO.GET (i : Nat) : Fld := ⟨(R.CAN_RXFIFO.addr i), 24, 7⟩
def R.CAN_RXLOCK.addr (i : Nat) : Nat := 0x400B002C + i * 0x4000
def R.CAN_RXLOCK.BUF (i : Nat) : Fld := ⟨(R.CAN_RXLOCK.addr i), 0, 7⟩
def R.CAN_RXLOCK.LOCK (i : Nat) : Fld := ⟨(R.CAN_RXLOCK.addr i), 8, 1⟩
def R.CAN_RXLOCK.POP (i : Nat) : Fld := ⟨(R.CAN_RXLOCK.addr i), 9, 1⟩
def R.CAN_MADDR.addr (i : Nat) : Nat := 0x400B0030 + i * 0x4000
def R.CAN_MADDR.WADDR (i : Nat) : Fld := ⟨(R.CAN_MADDR.addr i), 2, 13⟩
def R.CAN_MDATA.addr (i : Nat) : Nat := 0x400B0034 + i * 0x4000
def R.CAN_MDATA.DATA (i : Nat) : Fld := ⟨(R.CAN_MDATA.addr i), 0, 32⟩
def R.CAN_HADDR.addr (i : Nat) : Nat := 0x400B0038 + i * 0x4000
def R.CAN_HADDR.WADDR (i : Nat) : Fld := ⟨(R.CAN_HADDR.addr i), 2, 10⟩
def R.CAN_HDATA.addr (i : Nat) : Nat := 0x400B003C + i * 0x4000
def R.CAN_HDATA.DATA (i : Nat) : Fld := ⟨(R.CAN_HDATA.addr i), 0, 32⟩
def R.CAN_ASN_BASE.addr (i : Nat) : Nat := 0x400B0040 + i * 0x4000
def R.CAN_ASN_BASE.BASE (i : Nat) : Fld := ⟨(R.CAN_ASN_BASE.addr i), 5, 27⟩
def R.CAN_ASN_CFG.addr (i : Nat) : Nat := 0x400B0044 + i * 0x4000
def R.CAN_ASN_CFG.LOG2N (i : Nat) : Fld := ⟨(R.CAN_ASN_CFG.addr i), 0, 4⟩
def R.CAN_ASN_CFG.SRV_KIND (i : Nat) : Fld := ⟨(R.CAN_ASN_CFG.addr i), 4, 2⟩
def R.CAN_ASN_CFG.SRV_CORE (i : Nat) : Fld := ⟨(R.CAN_ASN_CFG.addr i), 8, 4⟩
def R.CAN_ASN_CFG.SRV_NODE (i : Nat) : Fld := ⟨(R.CAN_ASN_CFG.addr i), 16, 12⟩
def R.CAN_ASN_TMO.addr (i : Nat) : Nat := 0x400B0048 + i * 0x4000
def R.CAN_ASN_TMO.TMO_US (i : Nat) : Fld := ⟨(R.CAN_ASN_TMO.addr i), 0, 16⟩
def R.CAN_ASN_POST.addr (i : Nat) : Nat := 0x400B004C + i * 0x4000
def R.CAN_ASN_POST.SEQ (i : Nat) : Fld := ⟨(R.CAN_ASN_POST.addr i), 0, 16⟩
def R.CAN_ASN_REAP.addr (i : Nat) : Nat := 0x400B0050 + i * 0x4000
def R.CAN_ASN_REAP.SEQ (i : Nat) : Fld := ⟨(R.CAN_ASN_REAP.addr i), 0, 16⟩
def R.CAN_ASN_STAT.addr (i : Nat) : Nat := 0x400B0054 + i * 0x4000
def R.CAN_ASN_STAT.FULL (i : Nat) : Fld := ⟨(R.CAN_ASN_STAT.addr i), 0, 1⟩
def R.CAN_ASN_STAT.LATE (i : Nat) : Fld := ⟨(R.CAN_ASN_STAT.addr i), 1, 1⟩
def R.CAN_ASN_STAT.BADRING (i : Nat) : Fld := ⟨(R.CAN_ASN_STAT.addr i), 2, 1⟩
def R.CAN_ASN_DROP.addr (i : Nat) : Nat := 0x400B0058 + i * 0x4000
def R.CAN_ASN_DROP.COUNT (i : Nat) : Fld := ⟨(R.CAN_ASN_DROP.addr i), 0, 32⟩
def R.CAN_ASN_TOCNT.addr (i : Nat) : Nat := 0x400B005C + i * 0x4000
def R.CAN_ASN_TOCNT.COUNT (i : Nat) : Fld := ⟨(R.CAN_ASN_TOCNT.addr i), 0, 32⟩
def R.CAN_ASN_KICK.addr (i : Nat) : Nat := 0x400B0060 + i * 0x4000
def R.CAN_ASN_KICK.KICK (i : Nat) : Fld := ⟨(R.CAN_ASN_KICK.addr i), 0, 1⟩
def R.CAN_TSCNT.addr (i : Nat) : Nat := 0x400B0070 + i * 0x4000
def R.CAN_TSCNT.TSCNT (i : Nat) : Fld := ⟨(R.CAN_TSCNT.addr i), 0, 32⟩
def R.CAN_TSC_CNT.addr (i : Nat) : Nat := 0x400B0074 + i * 0x4000
def R.CAN_TSC_CNT.CNT (i : Nat) : Fld := ⟨(R.CAN_TSC_CNT.addr i), 0, 32⟩
def R.CAN_TSC_MT_LO.addr (i : Nat) : Nat := 0x400B0078 + i * 0x4000
def R.CAN_TSC_MT_LO.MT (i : Nat) : Fld := ⟨(R.CAN_TSC_MT_LO.addr i), 0, 32⟩
def R.CAN_TSC_MT_HI.addr (i : Nat) : Nat := 0x400B007C + i * 0x4000
def R.CAN_TSC_MT_HI.MT (i : Nat) : Fld := ⟨(R.CAN_TSC_MT_HI.addr i), 0, 32⟩
def R.CAN_TXRQ.addr (i j : Nat) : Nat := 0x400B0080 + i * 0x4000 + j * 0x4
def R.CAN_TXRQ.RQ (i j : Nat) : Fld := ⟨(R.CAN_TXRQ.addr i j), 0, 32⟩
def R.CAN_TXCAN.addr (i j : Nat) : Nat := 0x400B0088 + i * 0x4000 + j * 0x4
def R.CAN_TXCAN.CAN (i j : Nat) : Fld := ⟨(R.CAN_TXCAN.addr i j), 0, 32⟩
def R.CAN_TXDONE.addr (i j : Nat) : Nat := 0x400B0090 + i * 0x4000 + j * 0x4
def R.CAN_TXDONE.DONE (i j : Nat) : Fld := ⟨(R.CAN_TXDONE.addr i j), 0, 32⟩
def R.CAN_RXNEW.addr (i j : Nat) : Nat := 0x400B0098 + i * 0x4000 + j * 0x4
def R.CAN_RXNEW.NEW (i j : Nat) : Fld := ⟨(R.CAN_RXNEW.addr i j), 0, 32⟩
def R.CAN_TXHALT.addr (i : Nat) : Nat := 0x400B00A8 + i * 0x4000
def R.CAN_TXHALT.BUF (i : Nat) : Fld := ⟨(R.CAN_TXHALT.addr i), 0, 6⟩
def R.CAN_TXHALT.HALT (i : Nat) : Fld := ⟨(R.CAN_TXHALT.addr i), 15, 1⟩
def R.CAN_TXHALT.OFS (i : Nat) : Fld := ⟨(R.CAN_TXHALT.addr i), 16, 15⟩
def R.CAN_WUF_ID.addr (i : Nat) : Nat := 0x400B00B0 + i * 0x4000
def R.CAN_WUF_ID.ID (i : Nat) : Fld := ⟨(R.CAN_WUF_ID.addr i), 0, 29⟩
def R.CAN_WUF_ID.XTD (i : Nat) : Fld := ⟨(R.CAN_WUF_ID.addr i), 29, 1⟩
def R.CAN_WUF_MASK.addr (i : Nat) : Nat := 0x400B00B4 + i * 0x4000
def R.CAN_WUF_MASK.MASK (i : Nat) : Fld := ⟨(R.CAN_WUF_MASK.addr i), 0, 29⟩
def R.CAN_WUF_CFG.addr (i : Nat) : Nat := 0x400B00B8 + i * 0x4000
def R.CAN_WUF_CFG.WMODE (i : Nat) : Fld := ⟨(R.CAN_WUF_CFG.addr i), 0, 1⟩
def R.CAN_WUF_CFG.DLC (i : Nat) : Fld := ⟨(R.CAN_WUF_CFG.addr i), 1, 4⟩
def R.CAN_WUF_CFG.DATAEN (i : Nat) : Fld := ⟨(R.CAN_WUF_CFG.addr i), 5, 1⟩
def R.CAN_WUF_CFG.RATE (i : Nat) : Fld := ⟨(R.CAN_WUF_CFG.addr i), 6, 2⟩
def R.CAN_WUF_CFG.WAKESRC (i : Nat) : Fld := ⟨(R.CAN_WUF_CFG.addr i), 8, 3⟩
def R.CAN_WUF_D.addr (i j : Nat) : Nat := 0x400B00BC + i * 0x4000 + j * 0x4
def R.CAN_WUF_D.DATA (i j : Nat) : Fld := ⟨(R.CAN_WUF_D.addr i j), 0, 32⟩
def R.CAN_WUF_DM.addr (i j : Nat) : Nat := 0x400B00C4 + i * 0x4000 + j * 0x4
def R.CAN_WUF_DM.MASK (i j : Nat) : Fld := ⟨(R.CAN_WUF_DM.addr i j), 0, 32⟩
def R.CAN_CNT_RXOK.addr (i : Nat) : Nat := 0x400B0100 + i * 0x4000
def R.CAN_CNT_RXOK.COUNT (i : Nat) : Fld := ⟨(R.CAN_CNT_RXOK.addr i), 0, 32⟩
def R.CAN_CNT_TXOK.addr (i : Nat) : Nat := 0x400B0104 + i * 0x4000
def R.CAN_CNT_TXOK.COUNT (i : Nat) : Fld := ⟨(R.CAN_CNT_TXOK.addr i), 0, 32⟩
def R.CAN_CNT_REJ.addr (i : Nat) : Nat := 0x400B0108 + i * 0x4000
def R.CAN_CNT_REJ.COUNT (i : Nat) : Fld := ⟨(R.CAN_CNT_REJ.addr i), 0, 32⟩
def R.CAN_CNT_RXOVR.addr (i : Nat) : Nat := 0x400B010C + i * 0x4000
def R.CAN_CNT_RXOVR.COUNT (i : Nat) : Fld := ⟨(R.CAN_CNT_RXOVR.addr i), 0, 32⟩
def R.CAN_CNT_FLTOVF.addr (i : Nat) : Nat := 0x400B0110 + i * 0x4000
def R.CAN_CNT_FLTOVF.COUNT (i : Nat) : Fld := ⟨(R.CAN_CNT_FLTOVF.addr i), 0, 32⟩
def R.CAN_CNT_STNRX.addr (i : Nat) : Nat := 0x400B0114 + i * 0x4000
def R.CAN_CNT_STNRX.COUNT (i : Nat) : Fld := ⟨(R.CAN_CNT_STNRX.addr i), 0, 32⟩
def R.CAN_CNT_ERR.addr (i : Nat) : Nat := 0x400B0118 + i * 0x4000
def R.CAN_CNT_ERR.COUNT (i : Nat) : Fld := ⟨(R.CAN_CNT_ERR.addr i), 0, 32⟩
def R.CAN_CNT_ACKERR.addr (i : Nat) : Nat := 0x400B011C + i * 0x4000
def R.CAN_CNT_ACKERR.COUNT (i : Nat) : Fld := ⟨(R.CAN_CNT_ACKERR.addr i), 0, 32⟩
def R.CAN_CNT_PXE.addr (i : Nat) : Nat := 0x400B0120 + i * 0x4000
def R.CAN_CNT_PXE.COUNT (i : Nat) : Fld := ⟨(R.CAN_CNT_PXE.addr i), 0, 32⟩
def R.CAN_CNT_ARBLOST.addr (i : Nat) : Nat := 0x400B0124 + i * 0x4000
def R.CAN_CNT_ARBLOST.COUNT (i : Nat) : Fld := ⟨(R.CAN_CNT_ARBLOST.addr i), 0, 32⟩
def R.MEM_CTRL.addr : Nat := 0x40040000
def R.MEM_CTRL.EN : Fld := ⟨R.MEM_CTRL.addr, 0, 1⟩
def R.MEM_STAT.addr : Nat := 0x40040004
def R.MEM_STAT.STATE : Fld := ⟨R.MEM_STAT.addr, 0, 2⟩
def R.MEM_STAT.ENREQ : Fld := ⟨R.MEM_STAT.addr, 2, 1⟩
def R.MEM_STAT.MODE_ACT : Fld := ⟨R.MEM_STAT.addr, 3, 1⟩
def R.MEM_STAT.MODE_REJ : Fld := ⟨R.MEM_STAT.addr, 4, 1⟩
def R.MEM_STAT.REPAIRING : Fld := ⟨R.MEM_STAT.addr, 8, 1⟩
def R.MEM_STAT.DRAMACT : Fld := ⟨R.MEM_STAT.addr, 9, 1⟩
def R.MEM_STAT.FCAUSE : Fld := ⟨R.MEM_STAT.addr, 16, 4⟩
def R.MEM_INTEN.addr : Nat := 0x40040008
def R.MEM_INTEN.IE : Fld := ⟨R.MEM_INTEN.addr, 0, 8⟩
def R.MEM_INTSTAT.addr : Nat := 0x4004000C
def R.MEM_INTSTAT.UNCORR : Fld := ⟨R.MEM_INTSTAT.addr, 0, 1⟩
def R.MEM_INTSTAT.CEBURST : Fld := ⟨R.MEM_INTSTAT.addr, 1, 1⟩
def R.MEM_INTSTAT.STRMIS : Fld := ⟨R.MEM_INTSTAT.addr, 2, 1⟩
def R.MEM_INTSTAT.REPAIR : Fld := ⟨R.MEM_INTSTAT.addr, 3, 1⟩
def R.MEM_INTSTAT.SPAREOUT : Fld := ⟨R.MEM_INTSTAT.addr, 4, 1⟩
def R.MEM_INTSTAT.EGRHALT : Fld := ⟨R.MEM_INTSTAT.addr, 5, 1⟩
def R.MEM_INTSTAT.SWEEP : Fld := ⟨R.MEM_INTSTAT.addr, 6, 1⟩
def R.MEM_INTSTAT.WRREJ : Fld := ⟨R.MEM_INTSTAT.addr, 7, 1⟩
def R.MEM_PHASE.addr : Nat := 0x40040010
def R.MEM_PHASE.PHASE : Fld := ⟨R.MEM_PHASE.addr, 0, 2⟩
def R.MEM_DRS_CFG.addr : Nat := 0x40040014
def R.MEM_DRS_CFG.STEP_US : Fld := ⟨R.MEM_DRS_CFG.addr, 0, 12⟩
def R.MEM_DRS_CFG.MISPOL : Fld := ⟨R.MEM_DRS_CFG.addr, 12, 1⟩
def R.MEM_DRS_CFG.DRAMEN : Fld := ⟨R.MEM_DRS_CFG.addr, 13, 1⟩
def R.MEM_DRS_CFG.DRAM_MBPS : Fld := ⟨R.MEM_DRS_CFG.addr, 16, 8⟩
def R.MEM_DRS_CFG.REPEAT : Fld := ⟨R.MEM_DRS_CFG.addr, 24, 4⟩
def R.MEM_DRS_DLO.addr : Nat := 0x40040018
def R.MEM_DRS_DLO.DLO : Fld := ⟨R.MEM_DRS_DLO.addr, 0, 11⟩
def R.MEM_DRS_DHI.addr : Nat := 0x4004001C
def R.MEM_DRS_DHI.DHI : Fld := ⟨R.MEM_DRS_DHI.addr, 0, 11⟩
def R.MEM_DRS_POS.addr : Nat := 0x40040020
def R.MEM_DRS_POS.POS : Fld := ⟨R.MEM_DRS_POS.addr, 0, 16⟩
def R.MEM_DRS_SWEEPS.addr : Nat := 0x40040024
def R.MEM_DRS_SWEEPS.SWEEPS : Fld := ⟨R.MEM_DRS_SWEEPS.addr, 0, 32⟩
def R.MEM_DRS_DPOS.addr : Nat := 0x40040028
def R.MEM_DRS_DPOS.DPOS : Fld := ⟨R.MEM_DRS_DPOS.addr, 0, 32⟩
def R.MEM_UE_ADDR.addr : Nat := 0x40040030
def R.MEM_UE_ADDR.ADDR : Fld := ⟨R.MEM_UE_ADDR.addr, 0, 32⟩
def R.MEM_UE_INFO.addr : Nat := 0x40040034
def R.MEM_UE_INFO.CLASS : Fld := ⟨R.MEM_UE_INFO.addr, 0, 3⟩
def R.MEM_UE_INFO.LANES : Fld := ⟨R.MEM_UE_INFO.addr, 4, 8⟩
def R.MEM_UE_INFO.MASTER : Fld := ⟨R.MEM_UE_INFO.addr, 16, 5⟩
def R.MEM_UE_INFO.VALID : Fld := ⟨R.MEM_UE_INFO.addr, 31, 1⟩
def R.MEM_EGR_ADDR.addr : Nat := 0x40040038
def R.MEM_EGR_ADDR.ADDR : Fld := ⟨R.MEM_EGR_ADDR.addr, 0, 32⟩
def R.MEM_EGR_INFO.addr : Nat := 0x4004003C
def R.MEM_EGR_INFO.CHAN : Fld := ⟨R.MEM_EGR_INFO.addr, 0, 4⟩
def R.MEM_EGR_INFO.UNIT : Fld := ⟨R.MEM_EGR_INFO.addr, 4, 4⟩
def R.MEM_EGR_INFO.VALID : Fld := ⟨R.MEM_EGR_INFO.addr, 31, 1⟩
def R.MEM_EGR_HALT.addr : Nat := 0x40040040
def R.MEM_EGR_HALT.FABTX : Fld := ⟨R.MEM_EGR_HALT.addr, 0, 1⟩
def R.MEM_EGR_HALT.MIRROR : Fld := ⟨R.MEM_EGR_HALT.addr, 1, 1⟩
def R.MEM_SMAP_ADDR.addr : Nat := 0x40040050
def R.MEM_SMAP_ADDR.ENTRY : Fld := ⟨R.MEM_SMAP_ADDR.addr, 0, 8⟩
def R.MEM_SMAP_DATA.addr : Nat := 0x40040054
def R.MEM_SMAP_DATA.ROW : Fld := ⟨R.MEM_SMAP_DATA.addr, 0, 9⟩
def R.MEM_SMAP_DATA.VALID : Fld := ⟨R.MEM_SMAP_DATA.addr, 15, 1⟩
def R.MEM_SMAP_DATA.FUSE : Fld := ⟨R.MEM_SMAP_DATA.addr, 16, 1⟩
def R.MEM_INJ_ADDR.addr : Nat := 0x40040058
def R.MEM_INJ_ADDR.WADDR : Fld := ⟨R.MEM_INJ_ADDR.addr, 3, 29⟩
def R.MEM_INJ_CTRL.addr : Nat := 0x4004005C
def R.MEM_INJ_CTRL.KIND : Fld := ⟨R.MEM_INJ_CTRL.addr, 0, 3⟩
def R.MEM_INJ_CTRL.LANES : Fld := ⟨R.MEM_INJ_CTRL.addr, 8, 8⟩
def R.MEM_INJ_CTRL.GO : Fld := ⟨R.MEM_INJ_CTRL.addr, 16, 1⟩
def R.MEM_INJ_CTRL.RESULT : Fld := ⟨R.MEM_INJ_CTRL.addr, 17, 2⟩
def R.MEM_BIST.addr : Nat := 0x40040060
def R.MEM_BIST.DONE : Fld := ⟨R.MEM_BIST.addr, 0, 1⟩
def R.MEM_BIST.PASS : Fld := ⟨R.MEM_BIST.addr, 1, 1⟩
def R.MEM_BIST.CHKPASS : Fld := ⟨R.MEM_BIST.addr, 2, 1⟩
def R.MEM_BIST.FAILGRP : Fld := ⟨R.MEM_BIST.addr, 4, 3⟩
def R.MEM_BIST.REPAIRED : Fld := ⟨R.MEM_BIST.addr, 16, 8⟩
def R.MEM_CNT_CORR.addr (i : Nat) : Nat := 0x40040080 + i * 0x4
def R.MEM_CNT_CORR.COUNT (i : Nat) : Fld := ⟨(R.MEM_CNT_CORR.addr i), 0, 32⟩
def R.MEM_CNT_UE.addr : Nat := 0x4004009C
def R.MEM_CNT_UE.COUNT : Fld := ⟨R.MEM_CNT_UE.addr, 0, 32⟩
def R.MEM_CNT_STRMIS.addr : Nat := 0x400400A0
def R.MEM_CNT_STRMIS.COUNT : Fld := ⟨R.MEM_CNT_STRMIS.addr, 0, 32⟩
def R.MEM_CNT_TAGFIX.addr : Nat := 0x400400A4
def R.MEM_CNT_TAGFIX.COUNT : Fld := ⟨R.MEM_CNT_TAGFIX.addr, 0, 32⟩
def R.MEM_CNT_REPAIR.addr : Nat := 0x400400A8
def R.MEM_CNT_REPAIR.COUNT : Fld := ⟨R.MEM_CNT_REPAIR.addr, 0, 32⟩
def R.MEM_CNT_RWQDROP.addr : Nat := 0x400400AC
def R.MEM_CNT_RWQDROP.COUNT : Fld := ⟨R.MEM_CNT_RWQDROP.addr, 0, 32⟩
def R.MEM_LB_CFG.addr (i : Nat) : Nat := 0x40040100 + i * 0x8
def R.MEM_LB_CFG.LIMIT (i : Nat) : Fld := ⟨(R.MEM_LB_CFG.addr i), 0, 8⟩
def R.MEM_LB_CFG.LEAK_MS (i : Nat) : Fld := ⟨(R.MEM_LB_CFG.addr i), 16, 16⟩
def R.MEM_LB_STAT.addr (i : Nat) : Nat := 0x40040104 + i * 0x8
def R.MEM_LB_STAT.LEVEL (i : Nat) : Fld := ⟨(R.MEM_LB_STAT.addr i), 0, 8⟩
def R.MEM_LB_STAT.OVF (i : Nat) : Fld := ⟨(R.MEM_LB_STAT.addr i), 16, 16⟩
def R.KEY_CTRL.addr : Nat := 0x400C0000
def R.KEY_CTRL.EN : Fld := ⟨R.KEY_CTRL.addr, 0, 1⟩
def R.KEY_CTRL.MODE : Fld := ⟨R.KEY_CTRL.addr, 1, 1⟩
def R.KEY_STAT.addr : Nat := 0x400C0004
def R.KEY_STAT.STATE : Fld := ⟨R.KEY_STAT.addr, 0, 2⟩
def R.KEY_STAT.ENREQ : Fld := ⟨R.KEY_STAT.addr, 2, 1⟩
def R.KEY_STAT.MODE_ACT : Fld := ⟨R.KEY_STAT.addr, 3, 1⟩
def R.KEY_STAT.MODE_REJ : Fld := ⟨R.KEY_STAT.addr, 4, 1⟩
def R.KEY_STAT.BUSY : Fld := ⟨R.KEY_STAT.addr, 8, 1⟩
def R.KEY_STAT.FCAUSE : Fld := ⟨R.KEY_STAT.addr, 16, 4⟩
def R.KEY_INTEN.addr : Nat := 0x400C0008
def R.KEY_INTEN.IE : Fld := ⟨R.KEY_INTEN.addr, 0, 7⟩
def R.KEY_INTSTAT.addr : Nat := 0x400C000C
def R.KEY_INTSTAT.CQDONE : Fld := ⟨R.KEY_INTSTAT.addr, 0, 1⟩
def R.KEY_INTSTAT.CQFULL : Fld := ⟨R.KEY_INTSTAT.addr, 1, 1⟩
def R.KEY_INTSTAT.SCMDDONE : Fld := ⟨R.KEY_INTSTAT.addr, 2, 1⟩
def R.KEY_INTSTAT.TAMPER : Fld := ⟨R.KEY_INTSTAT.addr, 3, 1⟩
def R.KEY_INTSTAT.ENTROPY : Fld := ⟨R.KEY_INTSTAT.addr, 4, 1⟩
def R.KEY_INTSTAT.SLOTBAD : Fld := ⟨R.KEY_INTSTAT.addr, 5, 1⟩
def R.KEY_INTSTAT.USEREF : Fld := ⟨R.KEY_INTSTAT.addr, 6, 1⟩
def R.KEY_CQBASE.addr : Nat := 0x400C0010
def R.KEY_CQBASE.BASE : Fld := ⟨R.KEY_CQBASE.addr, 6, 26⟩
def R.KEY_CQCFG.addr : Nat := 0x400C0014
def R.KEY_CQCFG.LOG2N : Fld := ⟨R.KEY_CQCFG.addr, 0, 4⟩
def R.KEY_CQTAIL.addr : Nat := 0x400C0018
def R.KEY_CQTAIL.TAIL : Fld := ⟨R.KEY_CQTAIL.addr, 0, 16⟩
def R.KEY_CQHEAD.addr : Nat := 0x400C001C
def R.KEY_CQHEAD.HEAD : Fld := ⟨R.KEY_CQHEAD.addr, 0, 16⟩
def R.KEY_SCMD.addr : Nat := 0x400C0020
def R.KEY_SCMD.SLOT : Fld := ⟨R.KEY_SCMD.addr, 0, 6⟩
def R.KEY_SCMD.OP : Fld := ⟨R.KEY_SCMD.addr, 8, 2⟩
def R.KEY_SCMD.GO : Fld := ⟨R.KEY_SCMD.addr, 16, 1⟩
def R.KEY_SCMD.RESULT : Fld := ⟨R.KEY_SCMD.addr, 17, 2⟩
def R.KEY_SADDR.addr : Nat := 0x400C0024
def R.KEY_SADDR.SLOT : Fld := ⟨R.KEY_SADDR.addr, 0, 6⟩
def R.KEY_SATTR.addr : Nat := 0x400C0028
def R.KEY_SATTR.KIND : Fld := ⟨R.KEY_SATTR.addr, 0, 4⟩
def R.KEY_SATTR.BIND : Fld := ⟨R.KEY_SATTR.addr, 4, 1⟩
def R.KEY_SATTR.USABLE : Fld := ⟨R.KEY_SATTR.addr, 5, 1⟩
def R.KEY_SATTR.UCAUSE : Fld := ⟨R.KEY_SATTR.addr, 6, 2⟩
def R.KEY_SATTR.PARENT : Fld := ⟨R.KEY_SATTR.addr, 8, 8⟩
def R.KEY_SATTR.USAGE : Fld := ⟨R.KEY_SATTR.addr, 16, 16⟩
def R.KEY_SGEN.addr : Nat := 0x400C002C
def R.KEY_SGEN.GEN : Fld := ⟨R.KEY_SGEN.addr, 0, 16⟩
def R.KEY_SGEN.PGEN : Fld := ⟨R.KEY_SGEN.addr, 16, 16⟩
def R.KEY_SPURP.addr : Nat := 0x400C0030
def R.KEY_SPURP.PURPOSE : Fld := ⟨R.KEY_SPURP.addr, 0, 16⟩
def R.KEY_SPURP.CMASK : Fld := ⟨R.KEY_SPURP.addr, 16, 16⟩
def R.KEY_PUF.addr : Nat := 0x400C0034
def R.KEY_PUF.STATE : Fld := ⟨R.KEY_PUF.addr, 0, 2⟩
def R.KEY_PUF.ENROLLED : Fld := ⟨R.KEY_PUF.addr, 2, 1⟩
def R.KEY_PUF.NEWSEED : Fld := ⟨R.KEY_PUF.addr, 3, 1⟩
def R.KEY_PUF.CORR : Fld := ⟨R.KEY_PUF.addr, 16, 16⟩
def R.KEY_TAMP.addr : Nat := 0x400C0038
def R.KEY_TAMP.LATCH : Fld := ⟨R.KEY_TAMP.addr, 0, 2⟩
def R.KEY_TAMP.TPOL : Fld := ⟨R.KEY_TAMP.addr, 2, 1⟩
def R.KEY_TAMP.FIRED : Fld := ⟨R.KEY_TAMP.addr, 4, 7⟩
def R.KEY_TAMP.ACTIVE : Fld := ⟨R.KEY_TAMP.addr, 11, 1⟩
def R.KEY_TAMP.ZEROED : Fld := ⟨R.KEY_TAMP.addr, 12, 1⟩
def R.KEY_TAMP_CMD.addr : Nat := 0x400C003C
def R.KEY_TAMP_CMD.ACK : Fld := ⟨R.KEY_TAMP_CMD.addr, 0, 1⟩
def R.KEY_TAMP_CMD.ZEROIZE : Fld := ⟨R.KEY_TAMP_CMD.addr, 1, 1⟩
def R.KEY_TAMP_CMD.RESULT : Fld := ⟨R.KEY_TAMP_CMD.addr, 2, 2⟩
def R.KEY_ASN_BASE.addr : Nat := 0x400C0040
def R.KEY_ASN_BASE.BASE : Fld := ⟨R.KEY_ASN_BASE.addr, 5, 27⟩
def R.KEY_ASN_CFG.addr : Nat := 0x400C0044
def R.KEY_ASN_CFG.LOG2N : Fld := ⟨R.KEY_ASN_CFG.addr, 0, 4⟩
def R.KEY_ASN_CFG.SRV_KIND : Fld := ⟨R.KEY_ASN_CFG.addr, 4, 2⟩
def R.KEY_ASN_CFG.SRV_CORE : Fld := ⟨R.KEY_ASN_CFG.addr, 8, 4⟩
def R.KEY_ASN_CFG.SRV_NODE : Fld := ⟨R.KEY_ASN_CFG.addr, 16, 12⟩
def R.KEY_ASN_TMO.addr : Nat := 0x400C0048
def R.KEY_ASN_TMO.TMO_US : Fld := ⟨R.KEY_ASN_TMO.addr, 0, 16⟩
def R.KEY_ASN_POST.addr : Nat := 0x400C004C
def R.KEY_ASN_POST.SEQ : Fld := ⟨R.KEY_ASN_POST.addr, 0, 16⟩
def R.KEY_ASN_REAP.addr : Nat := 0x400C0050
def R.KEY_ASN_REAP.SEQ : Fld := ⟨R.KEY_ASN_REAP.addr, 0, 16⟩
def R.KEY_ASN_STAT.addr : Nat := 0x400C0054
def R.KEY_ASN_STAT.FULL : Fld := ⟨R.KEY_ASN_STAT.addr, 0, 1⟩
def R.KEY_ASN_STAT.LATE : Fld := ⟨R.KEY_ASN_STAT.addr, 1, 1⟩
def R.KEY_ASN_STAT.BADRING : Fld := ⟨R.KEY_ASN_STAT.addr, 2, 1⟩
def R.KEY_ASN_DROP.addr : Nat := 0x400C0058
def R.KEY_ASN_DROP.COUNT : Fld := ⟨R.KEY_ASN_DROP.addr, 0, 32⟩
def R.KEY_ASN_TOCNT.addr : Nat := 0x400C005C
def R.KEY_ASN_TOCNT.COUNT : Fld := ⟨R.KEY_ASN_TOCNT.addr, 0, 32⟩
def R.KEY_ASN_KICK.addr : Nat := 0x400C0060
def R.KEY_ASN_KICK.KICK : Fld := ⟨R.KEY_ASN_KICK.addr, 0, 1⟩
def R.KEY_DRBG.addr : Nat := 0x400C0070
def R.KEY_DRBG.STATE : Fld := ⟨R.KEY_DRBG.addr, 0, 2⟩
def R.KEY_DRBG.PR : Fld := ⟨R.KEY_DRBG.addr, 2, 1⟩
def R.KEY_DRBG.RESEED : Fld := ⟨R.KEY_DRBG.addr, 3, 1⟩
def R.KEY_DRBG_CNT.addr : Nat := 0x400C0074
def R.KEY_DRBG_CNT.CNT : Fld := ⟨R.KEY_DRBG_CNT.addr, 0, 32⟩
def R.KEY_MEAS.addr (i : Nat) : Nat := 0x400C0080 + i * 0x4
def R.KEY_MEAS.M (i : Nat) : Fld := ⟨(R.KEY_MEAS.addr i), 0, 32⟩
def R.KEY_SUCC.addr (i : Nat) : Nat := 0x400C00A0 + i * 0x4
def R.KEY_SUCC.SUCC (i : Nat) : Fld := ⟨(R.KEY_SUCC.addr i), 0, 32⟩
def R.KEY_MSTAT.addr : Nat := 0x400C00C0
def R.KEY_MSTAT.SUCCV : Fld := ⟨R.KEY_MSTAT.addr, 0, 1⟩
def R.KEY_MSTAT.ADOPTED : Fld := ⟨R.KEY_MSTAT.addr, 1, 1⟩
def R.KEY_MSTAT.EXTENDS : Fld := ⟨R.KEY_MSTAT.addr, 8, 8⟩
def R.KEY_CNT_OPS.addr : Nat := 0x400C0100
def R.KEY_CNT_OPS.COUNT : Fld := ⟨R.KEY_CNT_OPS.addr, 0, 32⟩
def R.KEY_CNT_REVOKED.addr : Nat := 0x400C0104
def R.KEY_CNT_REVOKED.COUNT : Fld := ⟨R.KEY_CNT_REVOKED.addr, 0, 32⟩
def R.KEY_CNT_STALE.addr : Nat := 0x400C0108
def R.KEY_CNT_STALE.COUNT : Fld := ⟨R.KEY_CNT_STALE.addr, 0, 32⟩
def R.KEY_CNT_AUTHFAIL.addr : Nat := 0x400C010C
def R.KEY_CNT_AUTHFAIL.COUNT : Fld := ⟨R.KEY_CNT_AUTHFAIL.addr, 0, 32⟩
def R.KEY_CNT_USEREF.addr : Nat := 0x400C0110
def R.KEY_CNT_USEREF.COUNT : Fld := ⟨R.KEY_CNT_USEREF.addr, 0, 32⟩
def R.EVT_CTRL.addr : Nat := 0x400D0000
def R.EVT_CTRL.EN : Fld := ⟨R.EVT_CTRL.addr, 0, 1⟩
def R.EVT_CTRL.MODE : Fld := ⟨R.EVT_CTRL.addr, 1, 1⟩
def R.EVT_STAT.addr : Nat := 0x400D0004
def R.EVT_STAT.STATE : Fld := ⟨R.EVT_STAT.addr, 0, 2⟩
def R.EVT_STAT.ENREQ : Fld := ⟨R.EVT_STAT.addr, 2, 1⟩
def R.EVT_STAT.MODE_ACT : Fld := ⟨R.EVT_STAT.addr, 3, 1⟩
def R.EVT_STAT.MODE_REJ : Fld := ⟨R.EVT_STAT.addr, 4, 1⟩
def R.EVT_STAT.SCAN : Fld := ⟨R.EVT_STAT.addr, 8, 1⟩
def R.EVT_STAT.HDRBAD : Fld := ⟨R.EVT_STAT.addr, 9, 1⟩
def R.EVT_STAT.FCAUSE : Fld := ⟨R.EVT_STAT.addr, 16, 4⟩
def R.EVT_INTEN.addr : Nat := 0x400D0008
def R.EVT_INTEN.IE : Fld := ⟨R.EVT_INTEN.addr, 0, 5⟩
def R.EVT_INTSTAT.addr : Nat := 0x400D000C
def R.EVT_INTSTAT.DROP : Fld := ⟨R.EVT_INTSTAT.addr, 0, 1⟩
def R.EVT_INTSTAT.TAILDROP : Fld := ⟨R.EVT_INTSTAT.addr, 1, 1⟩
def R.EVT_INTSTAT.CLEARED : Fld := ⟨R.EVT_INTSTAT.addr, 2, 1⟩
def R.EVT_INTSTAT.SCANDONE : Fld := ⟨R.EVT_INTSTAT.addr, 3, 1⟩
def R.EVT_INTSTAT.CMDDONE : Fld := ⟨R.EVT_INTSTAT.addr, 4, 1⟩
def R.EVT_RBASE.addr : Nat := 0x400D0010
def R.EVT_RBASE.BASE : Fld := ⟨R.EVT_RBASE.addr, 26, 6⟩
def R.EVT_TBASE.addr : Nat := 0x400D0014
def R.EVT_TBASE.BASE : Fld := ⟨R.EVT_TBASE.addr, 12, 11⟩
def R.EVT_CFG.addr : Nat := 0x400D0018
def R.EVT_CFG.DEFCLS : Fld := ⟨R.EVT_CFG.addr, 0, 8⟩
def R.EVT_CADDR.addr : Nat := 0x400D001C
def R.EVT_CADDR.WADDR : Fld := ⟨R.EVT_CADDR.addr, 2, 10⟩
def R.EVT_CDATA.addr : Nat := 0x400D0020
def R.EVT_CDATA.DATA : Fld := ⟨R.EVT_CDATA.addr, 0, 32⟩
def R.EVT_CMD.addr : Nat := 0x400D0024
def R.EVT_CMD.OP : Fld := ⟨R.EVT_CMD.addr, 0, 2⟩
def R.EVT_CMD.GO : Fld := ⟨R.EVT_CMD.addr, 8, 1⟩
def R.EVT_CMD.RESULT : Fld := ⟨R.EVT_CMD.addr, 9, 1⟩
def R.EVT_ASN_SCR.addr : Nat := 0x400D0028
def R.EVT_ASN_SCR.BASE : Fld := ⟨R.EVT_ASN_SCR.addr, 6, 26⟩
def R.EVT_ASN_BASE.addr : Nat := 0x400D0040
def R.EVT_ASN_BASE.BASE : Fld := ⟨R.EVT_ASN_BASE.addr, 5, 27⟩
def R.EVT_ASN_CFG.addr : Nat := 0x400D0044
def R.EVT_ASN_CFG.LOG2N : Fld := ⟨R.EVT_ASN_CFG.addr, 0, 4⟩
def R.EVT_ASN_CFG.SRV_KIND : Fld := ⟨R.EVT_ASN_CFG.addr, 4, 2⟩
def R.EVT_ASN_CFG.SRV_CORE : Fld := ⟨R.EVT_ASN_CFG.addr, 8, 4⟩
def R.EVT_ASN_CFG.SRV_NODE : Fld := ⟨R.EVT_ASN_CFG.addr, 16, 12⟩
def R.EVT_ASN_TMO.addr : Nat := 0x400D0048
def R.EVT_ASN_TMO.TMO_US : Fld := ⟨R.EVT_ASN_TMO.addr, 0, 16⟩
def R.EVT_ASN_POST.addr : Nat := 0x400D004C
def R.EVT_ASN_POST.SEQ : Fld := ⟨R.EVT_ASN_POST.addr, 0, 16⟩
def R.EVT_ASN_REAP.addr : Nat := 0x400D0050
def R.EVT_ASN_REAP.SEQ : Fld := ⟨R.EVT_ASN_REAP.addr, 0, 16⟩
def R.EVT_ASN_STAT.addr : Nat := 0x400D0054
def R.EVT_ASN_STAT.FULL : Fld := ⟨R.EVT_ASN_STAT.addr, 0, 1⟩
def R.EVT_ASN_STAT.LATE : Fld := ⟨R.EVT_ASN_STAT.addr, 1, 1⟩
def R.EVT_ASN_STAT.BADRING : Fld := ⟨R.EVT_ASN_STAT.addr, 2, 1⟩
def R.EVT_ASN_DROP.addr : Nat := 0x400D0058
def R.EVT_ASN_DROP.COUNT : Fld := ⟨R.EVT_ASN_DROP.addr, 0, 32⟩
def R.EVT_ASN_TOCNT.addr : Nat := 0x400D005C
def R.EVT_ASN_TOCNT.COUNT : Fld := ⟨R.EVT_ASN_TOCNT.addr, 0, 32⟩
def R.EVT_ASN_KICK.addr : Nat := 0x400D0060
def R.EVT_ASN_KICK.KICK : Fld := ⟨R.EVT_ASN_KICK.addr, 0, 1⟩
def R.EVT_NEXT_LO.addr : Nat := 0x400D0070
def R.EVT_NEXT_LO.SEQ : Fld := ⟨R.EVT_NEXT_LO.addr, 0, 32⟩
def R.EVT_NEXT_HI.addr : Nat := 0x400D0074
def R.EVT_NEXT_HI.SEQ : Fld := ⟨R.EVT_NEXT_HI.addr, 0, 32⟩
def R.EVT_OLDEST_LO.addr : Nat := 0x400D0078
def R.EVT_OLDEST_LO.SEQ : Fld := ⟨R.EVT_OLDEST_LO.addr, 0, 32⟩
def R.EVT_OLDEST_HI.addr : Nat := 0x400D007C
def R.EVT_OLDEST_HI.SEQ : Fld := ⟨R.EVT_OLDEST_HI.addr, 0, 32⟩
def R.EVT_FLOOR_LO.addr : Nat := 0x400D0080
def R.EVT_FLOOR_LO.SEQ : Fld := ⟨R.EVT_FLOOR_LO.addr, 0, 32⟩
def R.EVT_FLOOR_HI.addr : Nat := 0x400D0084
def R.EVT_FLOOR_HI.SEQ : Fld := ⟨R.EVT_FLOOR_HI.addr, 0, 32⟩
def R.EVT_TNEXT.addr : Nat := 0x400D0088
def R.EVT_TNEXT.TNEXT : Fld := ⟨R.EVT_TNEXT.addr, 0, 32⟩
def R.EVT_TFIRST.addr : Nat := 0x400D008C
def R.EVT_TFIRST.TCLR : Fld := ⟨R.EVT_TFIRST.addr, 0, 32⟩
def R.EVT_STAGE.addr : Nat := 0x400D0090
def R.EVT_STAGE.STAGED : Fld := ⟨R.EVT_STAGE.addr, 0, 10⟩
def R.EVT_CNT_REC.addr : Nat := 0x400D00A0
def R.EVT_CNT_REC.COUNT : Fld := ⟨R.EVT_CNT_REC.addr, 0, 32⟩
def R.EVT_CNT_DROP.addr : Nat := 0x400D00A4
def R.EVT_CNT_DROP.COUNT : Fld := ⟨R.EVT_CNT_DROP.addr, 0, 32⟩
def R.EVT_CNT_TAILDROP.addr : Nat := 0x400D00A8
def R.EVT_CNT_TAILDROP.COUNT : Fld := ⟨R.EVT_CNT_TAILDROP.addr, 0, 32⟩
def R.EVT_CNT_SUPP.addr : Nat := 0x400D00AC
def R.EVT_CNT_SUPP.COUNT : Fld := ⟨R.EVT_CNT_SUPP.addr, 0, 32⟩
def R.EVT_CNT_UNFMT.addr : Nat := 0x400D00B0
def R.EVT_CNT_UNFMT.COUNT : Fld := ⟨R.EVT_CNT_UNFMT.addr, 0, 32⟩
def R.EVT_CNT_TAILBAD.addr : Nat := 0x400D00B4
def R.EVT_CNT_TAILBAD.COUNT : Fld := ⟨R.EVT_CNT_TAILBAD.addr, 0, 32⟩
def R.EVT_SW_HDR.addr (i : Nat) : Nat := 0x400D0100 + i * 0x1000000
def R.EVT_SW_HDR.CODE (i : Nat) : Fld := ⟨(R.EVT_SW_HDR.addr i), 0, 16⟩
def R.EVT_SW_HDR.TENANT (i : Nat) : Fld := ⟨(R.EVT_SW_HDR.addr i), 16, 8⟩
def R.EVT_SW_UNIT.addr (i : Nat) : Nat := 0x400D0104 + i * 0x1000000
def R.EVT_SW_UNIT.UNIT (i : Nat) : Fld := ⟨(R.EVT_SW_UNIT.addr i), 0, 16⟩
def R.EVT_SW_ARG.addr (i j : Nat) : Nat := 0x400D0108 + i * 0x1000000 + j * 0x4
def R.EVT_SW_ARG.ARG (i j : Nat) : Fld := ⟨(R.EVT_SW_ARG.addr i j), 0, 32⟩
def R.EVT_SW_GO.addr (i : Nat) : Nat := 0x400D0128 + i * 0x1000000
def R.EVT_SW_GO.GO (i : Nat) : Fld := ⟨(R.EVT_SW_GO.addr i), 0, 1⟩
def R.EVT_SW_GO.RESULT (i : Nat) : Fld := ⟨(R.EVT_SW_GO.addr i), 1, 2⟩
def R.PAIR_CFG.addr : Nat := 0x400E0000
def R.PAIR_CFG.MODE : Fld := ⟨R.PAIR_CFG.addr, 0, 2⟩
def R.PAIR_CFG.SIDE : Fld := ⟨R.PAIR_CFG.addr, 2, 1⟩
def R.PAIR_CFG.PREF : Fld := ⟨R.PAIR_CFG.addr, 3, 1⟩
def R.PAIR_CFG.FBEN : Fld := ⟨R.PAIR_CFG.addr, 4, 1⟩
def R.PAIR_CFG.PNODE : Fld := ⟨R.PAIR_CFG.addr, 16, 12⟩
def R.PAIR_STAT.addr : Nat := 0x400E0004
def R.PAIR_STAT.ROLE : Fld := ⟨R.PAIR_STAT.addr, 0, 3⟩
def R.PAIR_STAT.READY : Fld := ⟨R.PAIR_STAT.addr, 3, 1⟩
def R.PAIR_STAT.NEEDSYNC : Fld := ⟨R.PAIR_STAT.addr, 4, 1⟩
def R.PAIR_STAT.P4OK : Fld := ⟨R.PAIR_STAT.addr, 5, 1⟩
def R.PAIR_STAT.FABOK : Fld := ⟨R.PAIR_STAT.addr, 6, 1⟩
def R.PAIR_STAT.GATE : Fld := ⟨R.PAIR_STAT.addr, 7, 1⟩
def R.PAIR_STAT.CFGMIS : Fld := ⟨R.PAIR_STAT.addr, 8, 1⟩
def R.PAIR_STAT.SIDECLASH : Fld := ⟨R.PAIR_STAT.addr, 9, 1⟩
def R.PAIR_STAT.SWPEND : Fld := ⟨R.PAIR_STAT.addr, 10, 1⟩
def R.PAIR_STAT.PHEARD : Fld := ⟨R.PAIR_STAT.addr, 16, 12⟩
def R.PAIR_INTEN.addr : Nat := 0x400E0008
def R.PAIR_INTEN.IE : Fld := ⟨R.PAIR_INTEN.addr, 0, 11⟩
def R.PAIR_INTSTAT.addr : Nat := 0x400E000C
def R.PAIR_INTSTAT.ROLECHG : Fld := ⟨R.PAIR_INTSTAT.addr, 0, 1⟩
def R.PAIR_INTSTAT.TAKEOVER : Fld := ⟨R.PAIR_INTSTAT.addr, 1, 1⟩
def R.PAIR_INTSTAT.DEMOTE : Fld := ⟨R.PAIR_INTSTAT.addr, 2, 1⟩
def R.PAIR_INTSTAT.PATHLOSS : Fld := ⟨R.PAIR_INTSTAT.addr, 3, 1⟩
def R.PAIR_INTSTAT.PARTNERLOST : Fld := ⟨R.PAIR_INTSTAT.addr, 4, 1⟩
def R.PAIR_INTSTAT.MIRLOST : Fld := ⟨R.PAIR_INTSTAT.addr, 5, 1⟩
def R.PAIR_INTSTAT.READY : Fld := ⟨R.PAIR_INTSTAT.addr, 6, 1⟩
def R.PAIR_INTSTAT.CFGMIS : Fld := ⟨R.PAIR_INTSTAT.addr, 7, 1⟩
def R.PAIR_INTSTAT.SIDECLASH : Fld := ⟨R.PAIR_INTSTAT.addr, 8, 1⟩
def R.PAIR_INTSTAT.OUTREJHI : Fld := ⟨R.PAIR_INTSTAT.addr, 9, 1⟩
def R.PAIR_INTSTAT.CMDDONE : Fld := ⟨R.PAIR_INTSTAT.addr, 10, 1⟩
def R.PAIR_SNODE.addr : Nat := 0x400E0010
def R.PAIR_SNODE.SNODE : Fld := ⟨R.PAIR_SNODE.addr, 0, 12⟩
def R.PAIR_EPOCH.addr : Nat := 0x400E0014
def R.PAIR_EPOCH.EPOCH : Fld := ⟨R.PAIR_EPOCH.addr, 0, 32⟩
def R.PAIR_PEPOCH.addr : Nat := 0x400E0018
def R.PAIR_PEPOCH.PEPOCH : Fld := ⟨R.PAIR_PEPOCH.addr, 0, 32⟩
def R.PAIR_FTL.addr : Nat := 0x400E001C
def R.PAIR_FTL.HB : Fld := ⟨R.PAIR_FTL.addr, 0, 8⟩
def R.PAIR_FTL.LOSS : Fld := ⟨R.PAIR_FTL.addr, 8, 8⟩
def R.PAIR_FTL.ELECT_MS : Fld := ⟨R.PAIR_FTL.addr, 16, 16⟩
def R.PAIR_MBASE.addr : Nat := 0x400E0020
def R.PAIR_MBASE.MBASE : Fld := ⟨R.PAIR_MBASE.addr, 16, 16⟩
def R.PAIR_MSIZE.addr : Nat := 0x400E0024
def R.PAIR_MSIZE.MSIZE : Fld := ⟨R.PAIR_MSIZE.addr, 0, 4⟩
def R.PAIR_LSYNC.addr : Nat := 0x400E0028
def R.PAIR_LSYNC.LSYNC_MS : Fld := ⟨R.PAIR_LSYNC.addr, 0, 10⟩
def R.PAIR_CMD.addr : Nat := 0x400E002C
def R.PAIR_CMD.OP : Fld := ⟨R.PAIR_CMD.addr, 0, 2⟩
def R.PAIR_CMD.GO : Fld := ⟨R.PAIR_CMD.addr, 8, 1⟩
def R.PAIR_CMD.RESULT : Fld := ⟨R.PAIR_CMD.addr, 9, 2⟩
def R.PAIR_CFGID.addr : Nat := 0x400E0030
def R.PAIR_CFGID.CFGID : Fld := ⟨R.PAIR_CFGID.addr, 0, 32⟩
def R.PAIR_MCH_CTRL.addr : Nat := 0x400E0080
def R.PAIR_MCH_CTRL.EN : Fld := ⟨R.PAIR_MCH_CTRL.addr, 0, 1⟩
def R.PAIR_MCH_STAT.addr : Nat := 0x400E0084
def R.PAIR_MCH_STAT.STATE : Fld := ⟨R.PAIR_MCH_STAT.addr, 0, 2⟩
def R.PAIR_MCH_STAT.ENREQ : Fld := ⟨R.PAIR_MCH_STAT.addr, 2, 1⟩
def R.PAIR_MCH_STAT.MODE_ACT : Fld := ⟨R.PAIR_MCH_STAT.addr, 3, 1⟩
def R.PAIR_MCH_STAT.MODE_REJ : Fld := ⟨R.PAIR_MCH_STAT.addr, 4, 1⟩
def R.PAIR_MCH_STAT.FCAUSE : Fld := ⟨R.PAIR_MCH_STAT.addr, 16, 4⟩
def R.PAIR_MSEQ_TX.addr : Nat := 0x400E0088
def R.PAIR_MSEQ_TX.MSEQ : Fld := ⟨R.PAIR_MSEQ_TX.addr, 0, 32⟩
def R.PAIR_MSEQ_RX.addr : Nat := 0x400E008C
def R.PAIR_MSEQ_RX.MSEQ : Fld := ⟨R.PAIR_MSEQ_RX.addr, 0, 32⟩
def R.PAIR_CNT_FTP4.addr : Nat := 0x400E0090
def R.PAIR_CNT_FTP4.COUNT : Fld := ⟨R.PAIR_CNT_FTP4.addr, 0, 32⟩
def R.PAIR_CNT_FTFAB.addr : Nat := 0x400E0094
def R.PAIR_CNT_FTFAB.COUNT : Fld := ⟨R.PAIR_CNT_FTFAB.addr, 0, 32⟩
def R.PAIR_CNT_BATCH.addr : Nat := 0x400E0098
def R.PAIR_CNT_BATCH.COUNT : Fld := ⟨R.PAIR_CNT_BATCH.addr, 0, 32⟩
def R.PAIR_CNT_MIRLOST.addr : Nat := 0x400E009C
def R.PAIR_CNT_MIRLOST.COUNT : Fld := ⟨R.PAIR_CNT_MIRLOST.addr, 0, 32⟩
def R.PAIR_CNT_P4DISC.addr : Nat := 0x400E00A0
def R.PAIR_CNT_P4DISC.COUNT : Fld := ⟨R.PAIR_CNT_P4DISC.addr, 0, 32⟩
def R.PAIR_CNT_TAKEOVER.addr : Nat := 0x400E00A4
def R.PAIR_CNT_TAKEOVER.COUNT : Fld := ⟨R.PAIR_CNT_TAKEOVER.addr, 0, 32⟩
def R.PAIR_TMASK.addr (i : Nat) : Nat := 0x400E0100 + i * 0x4
def R.PAIR_TMASK.MASK (i : Nat) : Fld := ⟨(R.PAIR_TMASK.addr i), 0, 32⟩
def R.PAIR_LMASK.addr (i : Nat) : Nat := 0x400E0120 + i * 0x4
def R.PAIR_LMASK.MASK (i : Nat) : Fld := ⟨(R.PAIR_LMASK.addr i), 0, 32⟩
def R.UPD_CTRL.addr : Nat := 0x400F0000
def R.UPD_CTRL.EN : Fld := ⟨R.UPD_CTRL.addr, 0, 1⟩
def R.UPD_STAT.addr : Nat := 0x400F0004
def R.UPD_STAT.STATE : Fld := ⟨R.UPD_STAT.addr, 0, 2⟩
def R.UPD_STAT.ENREQ : Fld := ⟨R.UPD_STAT.addr, 2, 1⟩
def R.UPD_STAT.MODE_ACT : Fld := ⟨R.UPD_STAT.addr, 3, 1⟩
def R.UPD_STAT.MODE_REJ : Fld := ⟨R.UPD_STAT.addr, 4, 1⟩
def R.UPD_STAT.XFER : Fld := ⟨R.UPD_STAT.addr, 8, 1⟩
def R.UPD_STAT.ERASESUSP : Fld := ⟨R.UPD_STAT.addr, 9, 1⟩
def R.UPD_STAT.FCAUSE : Fld := ⟨R.UPD_STAT.addr, 16, 4⟩
def R.UPD_INTEN.addr : Nat := 0x400F0008
def R.UPD_INTEN.IE : Fld := ⟨R.UPD_INTEN.addr, 0, 6⟩
def R.UPD_INTSTAT.addr : Nat := 0x400F000C
def R.UPD_INTSTAT.CMDDONE : Fld := ⟨R.UPD_INTSTAT.addr, 0, 1⟩
def R.UPD_INTSTAT.RXDONE : Fld := ⟨R.UPD_INTSTAT.addr, 1, 1⟩
def R.UPD_INTSTAT.MIGDONE : Fld := ⟨R.UPD_INTSTAT.addr, 2, 1⟩
def R.UPD_INTSTAT.ABORTED : Fld := ⟨R.UPD_INTSTAT.addr, 3, 1⟩
def R.UPD_INTSTAT.SWITCHED : Fld := ⟨R.UPD_INTSTAT.addr, 4, 1⟩
def R.UPD_INTSTAT.FAULT : Fld := ⟨R.UPD_INTSTAT.addr, 5, 1⟩
def R.UPD_CMD.addr : Nat := 0x400F0010
def R.UPD_CMD.OP : Fld := ⟨R.UPD_CMD.addr, 0, 4⟩
def R.UPD_CMD.SLOT : Fld := ⟨R.UPD_CMD.addr, 4, 1⟩
def R.UPD_CMD.GO : Fld := ⟨R.UPD_CMD.addr, 8, 1⟩
def R.UPD_CMD.RESULT : Fld := ⟨R.UPD_CMD.addr, 12, 4⟩
def R.UPD_PHASE.addr : Nat := 0x400F0014
def R.UPD_PHASE.PHASE : Fld := ⟨R.UPD_PHASE.addr, 0, 3⟩
def R.UPD_HOLD.addr : Nat := 0x400F0018
def R.UPD_HOLD.HOLDMAX : Fld := ⟨R.UPD_HOLD.addr, 0, 7⟩
def R.UPD_MSTAGE.addr : Nat := 0x400F001C
def R.UPD_MSTAGE.BASE : Fld := ⟨R.UPD_MSTAGE.addr, 12, 20⟩
def R.UPD_BAYEXEC.addr : Nat := 0x400F0020
def R.UPD_BAYEXEC.BAY : Fld := ⟨R.UPD_BAYEXEC.addr, 0, 17⟩
def R.UPD_BAYNEXT.addr : Nat := 0x400F0024
def R.UPD_BAYNEXT.BAY : Fld := ⟨R.UPD_BAYNEXT.addr, 0, 17⟩
def R.UPD_BOOT.addr : Nat := 0x400F0028
def R.UPD_BOOT.ACT : Fld := ⟨R.UPD_BOOT.addr, 0, 1⟩
def R.UPD_BOOT.STATEA : Fld := ⟨R.UPD_BOOT.addr, 1, 3⟩
def R.UPD_BOOT.STATEB : Fld := ⟨R.UPD_BOOT.addr, 4, 3⟩
def R.UPD_BOOT.ATTEMPT : Fld := ⟨R.UPD_BOOT.addr, 7, 1⟩
def R.UPD_BOOT.RECOVERY : Fld := ⟨R.UPD_BOOT.addr, 8, 1⟩
def R.UPD_SLOT_STAT.addr (i : Nat) : Nat := 0x400F002C + i * 0x4
def R.UPD_SLOT_STAT.STATE (i : Nat) : Fld := ⟨(R.UPD_SLOT_STAT.addr i), 0, 3⟩
def R.UPD_SLOT_STAT.RESULT (i : Nat) : Fld := ⟨(R.UPD_SLOT_STAT.addr i), 4, 4⟩
def R.UPD_RVER_LO.addr : Nat := 0x400F0034
def R.UPD_RVER_LO.VER : Fld := ⟨R.UPD_RVER_LO.addr, 0, 32⟩
def R.UPD_RVER_HI.addr : Nat := 0x400F0038
def R.UPD_RVER_HI.VER : Fld := ⟨R.UPD_RVER_HI.addr, 0, 32⟩
def R.UPD_SVER_LO.addr : Nat := 0x400F003C
def R.UPD_SVER_LO.VER : Fld := ⟨R.UPD_SVER_LO.addr, 0, 32⟩
def R.UPD_SVER_HI.addr : Nat := 0x400F0040
def R.UPD_SVER_HI.VER : Fld := ⟨R.UPD_SVER_HI.addr, 0, 32⟩
def R.UPD_SVN.addr : Nat := 0x400F0044
def R.UPD_SVN.SVN : Fld := ⟨R.UPD_SVN.addr, 0, 32⟩
def R.UPD_XFER.addr : Nat := 0x400F0048
def R.UPD_XFER.XID : Fld := ⟨R.UPD_XFER.addr, 0, 16⟩
def R.UPD_XFER.SRC : Fld := ⟨R.UPD_XFER.addr, 16, 12⟩
def R.UPD_XOFS.addr : Nat := 0x400F004C
def R.UPD_XOFS.OFS : Fld := ⟨R.UPD_XOFS.addr, 0, 32⟩
def R.UPD_SMEAS.addr (i : Nat) : Nat := 0x400F0050 + i * 0x4
def R.UPD_SMEAS.MEAS (i : Nat) : Fld := ⟨(R.UPD_SMEAS.addr i), 0, 32⟩
def R.UPD_FADDR.addr : Nat := 0x400F0070
def R.UPD_FADDR.FADDR : Fld := ⟨R.UPD_FADDR.addr, 0, 32⟩
def R.UPD_CNT_BULKRX.addr : Nat := 0x400F0080
def R.UPD_CNT_BULKRX.COUNT : Fld := ⟨R.UPD_CNT_BULKRX.addr, 0, 32⟩
def R.UPD_CNT_CRCERR.addr : Nat := 0x400F0084
def R.UPD_CNT_CRCERR.COUNT : Fld := ⟨R.UPD_CNT_CRCERR.addr, 0, 32⟩
def R.UPD_CNT_VERIFY.addr : Nat := 0x400F0088
def R.UPD_CNT_VERIFY.COUNT : Fld := ⟨R.UPD_CNT_VERIFY.addr, 0, 32⟩
def R.UPD_CNT_HANDOVER.addr : Nat := 0x400F008C
def R.UPD_CNT_HANDOVER.COUNT : Fld := ⟨R.UPD_CNT_HANDOVER.addr, 0, 32⟩
def R.UPD_CNT_ABORT.addr : Nat := 0x400F0090
def R.UPD_CNT_ABORT.COUNT : Fld := ⟨R.UPD_CNT_ABORT.addr, 0, 32⟩
def R.PWR_CFG.addr : Nat := 0x40100000
def R.PWR_CFG.MKBASE : Fld := ⟨R.PWR_CFG.addr, 6, 17⟩
def R.PWR_STAT.addr : Nat := 0x40100004
def R.PWR_STAT.PSTATE : Fld := ⟨R.PWR_STAT.addr, 0, 2⟩
def R.PWR_STAT.WARN : Fld := ⟨R.PWR_STAT.addr, 2, 1⟩
def R.PWR_STAT.VINOK : Fld := ⟨R.PWR_STAT.addr, 3, 1⟩
def R.PWR_STAT.HUSW : Fld := ⟨R.PWR_STAT.addr, 4, 1⟩
def R.PWR_STAT.CHG : Fld := ⟨R.PWR_STAT.addr, 5, 1⟩
def R.PWR_STAT.HUOK : Fld := ⟨R.PWR_STAT.addr, 6, 1⟩
def R.PWR_STAT.SRCX1 : Fld := ⟨R.PWR_STAT.addr, 7, 1⟩
def R.PWR_STAT.SRCPOE : Fld := ⟨R.PWR_STAT.addr, 8, 1⟩
def R.PWR_STAT.POET2 : Fld := ⟨R.PWR_STAT.addr, 9, 1⟩
def R.PWR_STAT.HALTED : Fld := ⟨R.PWR_STAT.addr, 10, 1⟩
def R.PWR_STAT.MKVALID : Fld := ⟨R.PWR_STAT.addr, 11, 1⟩
def R.PWR_STAT.RCV : Fld := ⟨R.PWR_STAT.addr, 12, 1⟩
def R.PWR_STAT.BCAUSE : Fld := ⟨R.PWR_STAT.addr, 16, 2⟩
def R.PWR_INTEN.addr : Nat := 0x40100008
def R.PWR_INTEN.IE : Fld := ⟨R.PWR_INTEN.addr, 0, 7⟩
def R.PWR_INTSTAT.addr : Nat := 0x4010000C
def R.PWR_INTSTAT.BRAKE : Fld := ⟨R.PWR_INTSTAT.addr, 0, 1⟩
def R.PWR_INTSTAT.BRAKED : Fld := ⟨R.PWR_INTSTAT.addr, 1, 1⟩
def R.PWR_INTSTAT.RESUME : Fld := ⟨R.PWR_INTSTAT.addr, 2, 1⟩
def R.PWR_INTSTAT.INLOW : Fld := ⟨R.PWR_INTSTAT.addr, 3, 1⟩
def R.PWR_INTSTAT.SRCCHG : Fld := ⟨R.PWR_INTSTAT.addr, 4, 1⟩
def R.PWR_INTSTAT.HULOW : Fld := ⟨R.PWR_INTSTAT.addr, 5, 1⟩
def R.PWR_INTSTAT.CMDDONE : Fld := ⟨R.PWR_INTSTAT.addr, 6, 1⟩
def R.PWR_VIN.addr : Nat := 0x40100010
def R.PWR_VIN.VIN : Fld := ⟨R.PWR_VIN.addr, 0, 16⟩
def R.PWR_VHU.addr : Nat := 0x40100014
def R.PWR_VHU.VHU : Fld := ⟨R.PWR_VHU.addr, 0, 16⟩
def R.PWR_PIN.addr : Nat := 0x40100018
def R.PWR_PIN.PIN : Fld := ⟨R.PWR_PIN.addr, 0, 16⟩
def R.PWR_HUCAP.addr : Nat := 0x4010001C
def R.PWR_HUCAP.HUCAP : Fld := ⟨R.PWR_HUCAP.addr, 0, 16⟩
def R.PWR_CMD.addr : Nat := 0x40100020
def R.PWR_CMD.OP : Fld := ⟨R.PWR_CMD.addr, 0, 2⟩
def R.PWR_CMD.GO : Fld := ⟨R.PWR_CMD.addr, 8, 1⟩
def R.PWR_CMD.RESULT : Fld := ⟨R.PWR_CMD.addr, 9, 2⟩
def R.PWR_BRK_LO.addr : Nat := 0x40100024
def R.PWR_BRK_LO.MT : Fld := ⟨R.PWR_BRK_LO.addr, 0, 32⟩
def R.PWR_BRK_HI.addr : Nat := 0x40100028
def R.PWR_BRK_HI.MT : Fld := ⟨R.PWR_BRK_HI.addr, 0, 32⟩
def R.PWR_BRKTIME.addr : Nat := 0x4010002C
def R.PWR_BRKTIME.TBRAKED : Fld := ⟨R.PWR_BRKTIME.addr, 0, 16⟩
def R.PWR_BRKTIME.THELD : Fld := ⟨R.PWR_BRKTIME.addr, 16, 16⟩
def R.PWR_DIP.addr : Nat := 0x40100030
def R.PWR_DIP.DIP : Fld := ⟨R.PWR_DIP.addr, 0, 32⟩
def R.PWR_HUMIN.addr : Nat := 0x40100034
def R.PWR_HUMIN.HUMIN : Fld := ⟨R.PWR_HUMIN.addr, 0, 16⟩
def R.PWR_CNT_BRAKE.addr : Nat := 0x40100080
def R.PWR_CNT_BRAKE.COUNT : Fld := ⟨R.PWR_CNT_BRAKE.addr, 0, 32⟩
def R.PWR_CNT_RESUME.addr : Nat := 0x40100084
def R.PWR_CNT_RESUME.COUNT : Fld := ⟨R.PWR_CNT_RESUME.addr, 0, 32⟩
def R.PWR_CNT_INLOW.addr : Nat := 0x40100088
def R.PWR_CNT_INLOW.COUNT : Fld := ⟨R.PWR_CNT_INLOW.addr, 0, 32⟩
def R.RTC_STAT.addr : Nat := 0x40110000
def R.RTC_STAT.OSF : Fld := ⟨R.RTC_STAT.addr, 0, 1⟩
def R.RTC_STAT.BBAD : Fld := ⟨R.RTC_STAT.addr, 1, 1⟩
def R.RTC_STAT.TQ : Fld := ⟨R.RTC_STAT.addr, 2, 2⟩
def R.RTC_STAT.FROZEN : Fld := ⟨R.RTC_STAT.addr, 4, 1⟩
def R.RTC_STAT.SYNCPEND : Fld := ⟨R.RTC_STAT.addr, 5, 1⟩
def R.RTC_STAT.VBLOW : Fld := ⟨R.RTC_STAT.addr, 6, 1⟩
def R.RTC_STAT.ONMAIN : Fld := ⟨R.RTC_STAT.addr, 7, 1⟩
def R.RTC_STAT.CHG : Fld := ⟨R.RTC_STAT.addr, 8, 1⟩
def R.RTC_INTEN.addr : Nat := 0x40110004
def R.RTC_INTEN.IE : Fld := ⟨R.RTC_INTEN.addr, 0, 6⟩
def R.RTC_INTSTAT.addr : Nat := 0x40110008
def R.RTC_INTSTAT.TICK : Fld := ⟨R.RTC_INTSTAT.addr, 0, 1⟩
def R.RTC_INTSTAT.SETDONE : Fld := ⟨R.RTC_INTSTAT.addr, 1, 1⟩
def R.RTC_INTSTAT.FRZ_TO : Fld := ⟨R.RTC_INTSTAT.addr, 2, 1⟩
def R.RTC_INTSTAT.OSCSTOP : Fld := ⟨R.RTC_INTSTAT.addr, 3, 1⟩
def R.RTC_INTSTAT.VBLOW : Fld := ⟨R.RTC_INTSTAT.addr, 4, 1⟩
def R.RTC_INTSTAT.CMDDONE : Fld := ⟨R.RTC_INTSTAT.addr, 5, 1⟩
def R.RTC_CMD.addr : Nat := 0x4011000C
def R.RTC_CMD.OP : Fld := ⟨R.RTC_CMD.addr, 0, 2⟩
def R.RTC_CMD.GO : Fld := ⟨R.RTC_CMD.addr, 8, 1⟩
def R.RTC_CMD.RESULT : Fld := ⟨R.RTC_CMD.addr, 9, 2⟩
def R.RTC_SUBSEC.addr : Nat := 0x40110010
def R.RTC_SUBSEC.SUBSEC : Fld := ⟨R.RTC_SUBSEC.addr, 0, 15⟩
def R.RTC_SEC.addr : Nat := 0x40110014
def R.RTC_SEC.SEC : Fld := ⟨R.RTC_SEC.addr, 0, 6⟩
def R.RTC_MIN.addr : Nat := 0x40110018
def R.RTC_MIN.MIN : Fld := ⟨R.RTC_MIN.addr, 0, 6⟩
def R.RTC_HOUR.addr : Nat := 0x4011001C
def R.RTC_HOUR.HOUR : Fld := ⟨R.RTC_HOUR.addr, 0, 5⟩
def R.RTC_DAY.addr : Nat := 0x40110020
def R.RTC_DAY.DAY : Fld := ⟨R.RTC_DAY.addr, 0, 5⟩
def R.RTC_DAY.WDAY : Fld := ⟨R.RTC_DAY.addr, 8, 3⟩
def R.RTC_MON.addr : Nat := 0x40110024
def R.RTC_MON.MON : Fld := ⟨R.RTC_MON.addr, 0, 4⟩
def R.RTC_YEAR.addr : Nat := 0x40110028
def R.RTC_YEAR.YEAR : Fld := ⟨R.RTC_YEAR.addr, 0, 16⟩
def R.RTC_SSEC.addr : Nat := 0x40110030
def R.RTC_SSEC.SEC : Fld := ⟨R.RTC_SSEC.addr, 0, 6⟩
def R.RTC_SMIN.addr : Nat := 0x40110034
def R.RTC_SMIN.MIN : Fld := ⟨R.RTC_SMIN.addr, 0, 6⟩
def R.RTC_SHOUR.addr : Nat := 0x40110038
def R.RTC_SHOUR.HOUR : Fld := ⟨R.RTC_SHOUR.addr, 0, 5⟩
def R.RTC_SDAY.addr : Nat := 0x4011003C
def R.RTC_SDAY.DAY : Fld := ⟨R.RTC_SDAY.addr, 0, 5⟩
def R.RTC_SMON.addr : Nat := 0x40110040
def R.RTC_SMON.MON : Fld := ⟨R.RTC_SMON.addr, 0, 4⟩
def R.RTC_SYEAR.addr : Nat := 0x40110044
def R.RTC_SYEAR.YEAR : Fld := ⟨R.RTC_SYEAR.addr, 0, 16⟩
def R.RTC_SYNC_LO.addr : Nat := 0x40110048
def R.RTC_SYNC_LO.MT : Fld := ⟨R.RTC_SYNC_LO.addr, 0, 32⟩
def R.RTC_SYNC_HI.addr : Nat := 0x4011004C
def R.RTC_SYNC_HI.MT : Fld := ⟨R.RTC_SYNC_HI.addr, 0, 32⟩
def R.RTC_TCH.addr : Nat := 0x40110050
def R.RTC_TCH.MODE : Fld := ⟨R.RTC_TCH.addr, 0, 2⟩
def R.RTC_TCH.RES : Fld := ⟨R.RTC_TCH.addr, 2, 2⟩
def R.RTC_TCH.VCHG : Fld := ⟨R.RTC_TCH.addr, 4, 2⟩
def R.RTC_TAMPCFG.addr : Nat := 0x40110054
def R.RTC_TAMPCFG.EN0 : Fld := ⟨R.RTC_TAMPCFG.addr, 0, 1⟩
def R.RTC_TAMPCFG.EN1 : Fld := ⟨R.RTC_TAMPCFG.addr, 1, 1⟩
def R.RTC_TAMPCFG.ENCOV : Fld := ⟨R.RTC_TAMPCFG.addr, 2, 1⟩
def R.RTC_TAMPCFG.POL0 : Fld := ⟨R.RTC_TAMPCFG.addr, 4, 1⟩
def R.RTC_TAMPCFG.POL1 : Fld := ⟨R.RTC_TAMPCFG.addr, 5, 1⟩
def R.RTC_TAMPCFG.POLCOV : Fld := ⟨R.RTC_TAMPCFG.addr, 6, 1⟩
def R.RTC_TLATCH.addr : Nat := 0x40110058
def R.RTC_TLATCH.LATCH : Fld := ⟨R.RTC_TLATCH.addr, 0, 2⟩
def R.RTC_TLATCH.FIRED : Fld := ⟨R.RTC_TLATCH.addr, 2, 7⟩
def R.RTC_VBAT.addr : Nat := 0x4011005C
def R.RTC_VBAT.VBAT : Fld := ⟨R.RTC_VBAT.addr, 0, 12⟩
def R.RTC_BKCRC.addr : Nat := 0x40110060
def R.RTC_BKCRC.CRC : Fld := ⟨R.RTC_BKCRC.addr, 0, 32⟩
def R.RTC_BKP.addr (i : Nat) : Nat := 0x40110100 + i * 0x4
def R.RTC_BKP.BKP (i : Nat) : Fld := ⟨(R.RTC_BKP.addr i), 0, 32⟩
def R.SYS_ID.addr : Nat := 0x40000000
def R.SYS_ID.PRODUCT : Fld := ⟨R.SYS_ID.addr, 0, 16⟩
def R.SYS_ID.BUILD : Fld := ⟨R.SYS_ID.addr, 16, 4⟩
def R.SYS_RSTCAUSE.addr : Nat := 0x40000004
def R.SYS_RSTCAUSE.CAUSE : Fld := ⟨R.SYS_RSTCAUSE.addr, 0, 4⟩
def R.SYS_START.addr : Nat := 0x40000008
def R.SYS_START.KIND : Fld := ⟨R.SYS_START.addr, 0, 2⟩
def R.SYS_START.ROLLBACK : Fld := ⟨R.SYS_START.addr, 2, 1⟩
def R.SYS_START.CLEAN : Fld := ⟨R.SYS_START.addr, 3, 1⟩
def R.SYS_START.FALLBACK : Fld := ⟨R.SYS_START.addr, 4, 1⟩
def R.SYS_START.MIGRATED : Fld := ⟨R.SYS_START.addr, 5, 1⟩
def R.SYS_START.FIRST : Fld := ⟨R.SYS_START.addr, 6, 1⟩
def R.SYS_START.CRASHES : Fld := ⟨R.SYS_START.addr, 8, 2⟩
def R.SYS_LOCK.addr : Nat := 0x4000000C
def R.SYS_LOCK.LOCK : Fld := ⟨R.SYS_LOCK.addr, 0, 1⟩
def R.SYS_RST.addr : Nat := 0x40000010
def R.SYS_RST.OP : Fld := ⟨R.SYS_RST.addr, 0, 2⟩
def R.SYS_RST.GO : Fld := ⟨R.SYS_RST.addr, 8, 1⟩
def R.SYS_WDT.addr : Nat := 0x40000014
def R.SYS_WDT.WDT_MS : Fld := ⟨R.SYS_WDT.addr, 0, 14⟩
def R.SYS_WDTKICK.addr : Nat := 0x40000018
def R.SYS_WDTKICK.KICK : Fld := ⟨R.SYS_WDTKICK.addr, 0, 1⟩
def R.SYS_STARTCFG.addr : Nat := 0x4000001C
def R.SYS_STARTCFG.COLDWAIT_MS : Fld := ⟨R.SYS_STARTCFG.addr, 0, 10⟩
def R.SYS_MT_LO.addr : Nat := 0x40000020
def R.SYS_MT_LO.MT : Fld := ⟨R.SYS_MT_LO.addr, 0, 32⟩
def R.SYS_MT_HI.addr : Nat := 0x40000024
def R.SYS_MT_HI.MT : Fld := ⟨R.SYS_MT_HI.addr, 0, 32⟩
def R.SYS_MTINIT_LO.addr : Nat := 0x40000028
def R.SYS_MTINIT_LO.MT : Fld := ⟨R.SYS_MTINIT_LO.addr, 0, 32⟩
def R.SYS_MTINIT_HI.addr : Nat := 0x4000002C
def R.SYS_MTINIT_HI.MT : Fld := ⟨R.SYS_MTINIT_HI.addr, 0, 32⟩
def R.SYS_MTCMD.addr : Nat := 0x40000030
def R.SYS_MTCMD.LOAD : Fld := ⟨R.SYS_MTCMD.addr, 0, 1⟩
def R.SYS_TLOCK.addr : Nat := 0x40000034
def R.SYS_TLOCK.US : Fld := ⟨R.SYS_TLOCK.addr, 0, 32⟩
def R.SYS_TREL.addr : Nat := 0x40000038
def R.SYS_TREL.US : Fld := ⟨R.SYS_TREL.addr, 0, 32⟩

end Sys2Proof.Machine
end

