-- ==== Sys2Proof/Machine/RegTable.lean ====
section
/-!
DEFINITION. The register table: for every register of the spec's tables its address (or addresses), and for every
field its bits, access code (R8, Table 0-3) and the values that are not reserved (R10). A field marked `own := true` is
one that a command of its own writes (the spec's table of operations has a row for it): REGISTER_WRITE leaves it alone.
-/

namespace Sys2Proof.Machine

/-- The access codes of Table 0-3 (R8), and `rwOff`: "RW, written in OFF only" (the CAN, key, recorder and loader
tables use it). -/
inductive Access where
  | rw | ro | wo | w1c | w1s | rc | sc | rwl | rwOff
  deriving DecidableEq, Repr

/-- One field of a register: its lowest bit, its width, its access code, whether a command of its own governs it, and
the ranges of values that are not reserved (empty: every value). -/
structure FieldDesc where
  lo : Nat
  w : Nat
  acc : Access
  own : Bool := false
  legal : List (Nat × Nat) := []
  deriving DecidableEq, Repr

/-- One register, or an array of registers of up to three dimensions (count, stride). -/
structure RegDesc where
  base : Nat
  dims : List (Nat × Nat) := []
  fields : List FieldDesc
  deriving DecidableEq, Repr

def regTableSch0 : List RegDesc := [
  ⟨0x40010000, [], [⟨0, 1, .rw, true, []⟩]⟩ /- SCH_CTRL -/,
  ⟨0x40010004, [], [⟨0, 2, .ro, false, []⟩, ⟨2, 1, .ro, false, []⟩, ⟨3, 1, .ro, false, []⟩, ⟨4, 1, .w1c, false, []⟩, ⟨8, 2, .ro, false, []⟩, ⟨10, 2, .ro, false, []⟩, ⟨16, 4, .ro, false, []⟩, ⟨24, 8, .ro, false, []⟩]⟩ /- SCH_STAT -/,
  ⟨0x40010008, [], [⟨0, 6, .rw, false, []⟩]⟩ /- SCH_INTEN -/,
  ⟨0x4001000C, [], [⟨0, 1, .w1c, false, []⟩, ⟨1, 1, .w1c, false, []⟩, ⟨2, 1, .w1c, false, []⟩, ⟨3, 1, .w1c, false, []⟩, ⟨4, 1, .w1c, false, []⟩, ⟨5, 1, .w1c, false, []⟩]⟩ /- SCH_INTSTAT -/,
  ⟨0x40010010, [], [⟨0, 32, .rw, false, []⟩]⟩ /- SCH_SWP_LO -/,
  ⟨0x40010014, [], [⟨0, 32, .rw, false, []⟩]⟩ /- SCH_SWP_HI -/,
  ⟨0x40010018, [], [⟨0, 1, .sc, true, []⟩, ⟨1, 1, .wo, true, []⟩, ⟨2, 1, .wo, true, []⟩]⟩ /- SCH_SWP_CMD -/,
  ⟨0x4001001C, [], [⟨0, 12, .rw, false, [(1, 2000)]⟩]⟩ /- SCH_QTMO -/,
  ⟨0x40010020, [], [⟨0, 13, .rw, true, [(1, 8000)]⟩, ⟨31, 1, .wo, true, []⟩]⟩ /- SCH_IDLE_WIN -/,
  ⟨0x40010028, [], [⟨0, 1, .wo, true, []⟩]⟩ /- SCH_DONE -/,
  ⟨0x4001002C, [], [⟨0, 1, .wo, true, []⟩]⟩ /- SCH_ABORT -/,
  ⟨0x40010030, [(17, 0x1000000)], [⟨0, 8, .ro, false, []⟩, ⟨8, 2, .ro, false, []⟩, ⟨10, 1, .ro, false, []⟩, ⟨11, 1, .ro, false, []⟩]⟩ /- SCH_DISP -/,
  ⟨0x40010100, [(16, 0x20)], [⟨0, 1, .rwl, false, []⟩, ⟨1, 1, .rwl, false, []⟩, ⟨16, 10, .rwl, false, [(2, 1023)]⟩]⟩ /- SCH_CORE_CFG -/,
  ⟨0x40010104, [(16, 0x20)], [⟨0, 8, .ro, false, []⟩, ⟨8, 1, .ro, false, []⟩, ⟨9, 1, .ro, false, []⟩, ⟨10, 1, .ro, false, []⟩, ⟨16, 5, .ro, false, []⟩]⟩ /- SCH_CORE_STAT -/,
  ⟨0x40010108, [(16, 0x20)], [⟨0, 1, .w1c, false, []⟩, ⟨1, 1, .w1c, false, []⟩, ⟨2, 1, .w1c, false, []⟩, ⟨3, 1, .w1c, false, []⟩, ⟨4, 1, .w1c, false, []⟩, ⟨5, 1, .w1c, false, []⟩, ⟨6, 1, .w1c, false, []⟩, ⟨7, 1, .w1c, false, []⟩, ⟨16, 8, .ro, false, []⟩]⟩ /- SCH_CORE_ERRCAUSE -/,
  ⟨0x4001010C, [(16, 0x20)], [⟨0, 32, .ro, false, []⟩]⟩ /- SCH_CORE_IDLE -/,
  ⟨0x40010110, [(16, 0x20)], [⟨0, 14, .ro, false, []⟩]⟩ /- SCH_CORE_IDLEMIN -/,
  ⟨0x40010114, [(16, 0x20)], [⟨0, 16, .rc, false, []⟩, ⟨16, 16, .rc, false, []⟩]⟩ /- SCH_CORE_ERRCNT -/,
  ⟨0x40010118, [(16, 0x20)], [⟨0, 32, .rc, false, []⟩]⟩ /- SCH_CORE_PREEMPT -/,
  ⟨0x40011000, [(256, 0x40)], [⟨0, 1, .rwl, false, []⟩, ⟨1, 4, .rwl, false, []⟩, ⟨8, 4, .rwl, false, []⟩, ⟨12, 2, .rwl, false, [(0, 1)]⟩, ⟨14, 1, .rwl, false, []⟩, ⟨15, 1, .rwl, false, []⟩, ⟨16, 8, .rwl, false, []⟩]⟩ /- SCH_TASK_CFG -/,
  ⟨0x40011004, [(256, 0x40)], [⟨0, 24, .rwl, false, [(100, 10000000)]⟩]⟩ /- SCH_TASK_PER -/,
  ⟨0x40011008, [(256, 0x40)], [⟨0, 24, .rwl, false, []⟩]⟩ /- SCH_TASK_OFS -/,
  ⟨0x4001100C, [(256, 0x40)], [⟨0, 16, .rwl, false, []⟩]⟩ /- SCH_TASK_LEAD -/,
  ⟨0x40011010, [(256, 0x40)], [⟨0, 1, .sc, true, []⟩, ⟨1, 1, .sc, true, []⟩]⟩ /- SCH_TASK_CMD -/,
  ⟨0x40011014, [(256, 0x40)], [⟨0, 3, .ro, false, []⟩, ⟨3, 1, .ro, false, []⟩, ⟨4, 1, .ro, false, []⟩, ⟨5, 2, .ro, false, []⟩, ⟨8, 8, .ro, false, []⟩]⟩ /- SCH_TASK_STAT -/]

def regTableSch1 : List RegDesc := [
  ⟨0x40011018, [(256, 0x40)], [⟨0, 32, .ro, false, []⟩]⟩ /- SCH_TASK_RELCNT -/,
  ⟨0x4001101C, [(256, 0x40)], [⟨0, 32, .rc, false, []⟩]⟩ /- SCH_TASK_OVRCNT -/,
  ⟨0x40011020, [(256, 0x40)], [⟨0, 32, .rc, false, []⟩]⟩ /- SCH_TASK_SKIPCNT -/,
  ⟨0x40011024, [(256, 0x40)], [⟨0, 32, .rc, false, []⟩]⟩ /- SCH_TASK_DEFCNT -/,
  ⟨0x40011028, [(256, 0x40)], [⟨0, 32, .rc, false, []⟩]⟩ /- SCH_TASK_IMGLCNT -/,
  ⟨0x4001102C, [(256, 0x40)], [⟨0, 32, .rc, false, []⟩]⟩ /- SCH_TASK_ABTCNT -/,
  ⟨0x40011030, [(256, 0x40)], [⟨0, 32, .ro, false, []⟩]⟩ /- SCH_TASK_EXEC_LAST -/,
  ⟨0x40011034, [(256, 0x40)], [⟨0, 32, .rc, false, []⟩]⟩ /- SCH_TASK_EXEC_MAX -/,
  ⟨0x40011038, [(256, 0x40)], [⟨0, 32, .rc, false, []⟩]⟩ /- SCH_TASK_RESP_MAX -/,
  ⟨0x4001103C, [(256, 0x40)], [⟨0, 32, .rc, false, []⟩]⟩ /- SCH_TASK_L1CNT -/]

def regTableSch : List RegDesc := regTableSch0 ++ regTableSch1

def regTableImg0 : List RegDesc := [
  ⟨0x40020000, [], [⟨0, 1, .rw, true, []⟩]⟩ /- IMG_CTRL -/,
  ⟨0x40020004, [], [⟨0, 2, .ro, false, []⟩, ⟨2, 1, .ro, false, []⟩, ⟨3, 1, .ro, false, []⟩, ⟨4, 1, .w1c, false, []⟩, ⟨16, 4, .ro, false, []⟩, ⟨24, 8, .ro, false, []⟩]⟩ /- IMG_STAT -/,
  ⟨0x40020008, [], [⟨0, 8, .rw, false, []⟩]⟩ /- IMG_INTEN -/,
  ⟨0x4002000C, [], [⟨0, 1, .w1c, false, []⟩, ⟨1, 1, .w1c, false, []⟩, ⟨2, 1, .w1c, false, []⟩, ⟨3, 1, .w1c, false, []⟩, ⟨4, 1, .w1c, false, []⟩, ⟨5, 1, .w1c, false, []⟩, ⟨6, 1, .w1c, false, []⟩, ⟨7, 1, .w1c, false, []⟩]⟩ /- IMG_INTSTAT -/,
  ⟨0x40020010, [], [⟨2, 17, .rw, false, []⟩]⟩ /- IMG_MADDR -/,
  ⟨0x40020014, [], [⟨0, 32, .rw, true, []⟩]⟩ /- IMG_MDATA -/,
  ⟨0x40020018, [], [⟨0, 1, .ro, false, []⟩, ⟨1, 1, .rwl, false, []⟩]⟩ /- IMG_LBANK -/,
  ⟨0x4002001C, [], [⟨0, 3, .rwl, false, []⟩]⟩ /- IMG_STN_CANBASE -/,
  ⟨0x40020020, [], [⟨0, 32, .rw, false, []⟩]⟩ /- IMG_FRC_KEY -/,
  ⟨0x40020024, [], [⟨0, 32, .rw, false, []⟩]⟩ /- IMG_FRC_VLO -/,
  ⟨0x40020028, [], [⟨0, 32, .rw, false, []⟩]⟩ /- IMG_FRC_VHI -/,
  ⟨0x4002002C, [], [⟨0, 2, .rw, false, []⟩, ⟨8, 1, .sc, true, []⟩]⟩ /- IMG_FRC_CMD -/,
  ⟨0x40020030, [], [⟨0, 2, .ro, false, []⟩, ⟨16, 11, .ro, false, []⟩]⟩ /- IMG_FRC_STAT -/,
  ⟨0x40020080, [], [⟨0, 1, .rw, true, []⟩]⟩ /- IMG_JRN_CTRL -/,
  ⟨0x40020084, [], [⟨0, 2, .ro, false, []⟩, ⟨2, 1, .ro, false, []⟩, ⟨3, 1, .ro, false, []⟩, ⟨4, 1, .w1c, false, []⟩, ⟨16, 4, .ro, false, []⟩]⟩ /- IMG_JRN_STAT -/,
  ⟨0x40020088, [], [⟨0, 32, .ro, false, []⟩]⟩ /- IMG_JRN_FADDR -/,
  ⟨0x4002008C, [], [⟨0, 32, .rc, false, []⟩]⟩ /- IMG_CNT_JSKIP -/,
  ⟨0x40020090, [], [⟨0, 32, .rc, false, []⟩]⟩ /- IMG_CNT_JSUPER -/,
  ⟨0x40021000, [(256, 0x20)], [⟨4, 12, .rwl, false, []⟩]⟩ /- IMG_TASK_IBUF -/,
  ⟨0x40021004, [(256, 0x20)], [⟨4, 12, .rwl, false, []⟩]⟩ /- IMG_TASK_OBUF -/,
  ⟨0x40021008, [(256, 0x20)], [⟨0, 14, .rwl, false, []⟩, ⟨16, 11, .rwl, false, []⟩]⟩ /- IMG_TASK_ILIST -/,
  ⟨0x4002100C, [(256, 0x20)], [⟨0, 14, .rwl, false, []⟩, ⟨16, 11, .rwl, false, []⟩]⟩ /- IMG_TASK_OLIST -/,
  ⟨0x40021010, [(256, 0x20)], [⟨4, 12, .rwl, false, []⟩, ⟨16, 15, .rwl, false, []⟩]⟩ /- IMG_TASK_RET -/,
  ⟨0x40021014, [(256, 0x20)], [⟨0, 5, .ro, false, []⟩]⟩ /- IMG_TASK_STAT -/,
  ⟨0x40021018, [(256, 0x20)], [⟨0, 16, .ro, false, []⟩, ⟨16, 16, .ro, false, []⟩]⟩ /- IMG_TASK_TIME -/]

def regTableImg1 : List RegDesc := [
  ⟨0x4002101C, [(256, 0x20)], [⟨3, 20, .rwl, false, []⟩]⟩ /- IMG_TASK_JRN -/,
  ⟨0x40024000, [(64, 0x40)], [⟨0, 1, .rw, true, []⟩, ⟨1, 1, .rwl, false, []⟩, ⟨2, 2, .rwl, false, []⟩, ⟨4, 1, .rwl, false, []⟩, ⟨8, 8, .rwl, false, [(0, 240)]⟩, ⟨16, 8, .rwl, false, [(0, 240)]⟩]⟩ /- IMG_STN_CFG -/,
  ⟨0x40024004, [(64, 0x40)], [⟨0, 12, .rwl, false, []⟩]⟩ /- IMG_STN_NODE -/,
  ⟨0x40024008, [(64, 0x40)], [⟨0, 16, .rwl, false, [(1, 10000)]⟩, ⟨16, 16, .rwl, false, [(1, 65535)]⟩]⟩ /- IMG_STN_TIME -/,
  ⟨0x4002400C, [(64, 0x40)], [⟨0, 1, .wo, true, []⟩, ⟨1, 1, .wo, true, []⟩]⟩ /- IMG_STN_CMD -/,
  ⟨0x40024010, [(64, 0x40)], [⟨0, 3, .ro, false, []⟩, ⟨3, 1, .ro, false, []⟩, ⟨4, 1, .w1c, false, []⟩, ⟨5, 1, .w1c, false, []⟩, ⟨8, 8, .ro, false, []⟩, ⟨16, 16, .ro, false, []⟩]⟩ /- IMG_STN_STAT -/,
  ⟨0x40024014, [(64, 0x40)], [⟨0, 32, .ro, false, []⟩]⟩ /- IMG_STN_AGE -/,
  ⟨0x40024018, [(64, 0x40)], [⟨0, 32, .ro, false, []⟩]⟩ /- IMG_STN_EPOCH -/,
  ⟨0x4002401C, [(64, 0x40)], [⟨0, 16, .rc, false, []⟩, ⟨16, 16, .rc, false, []⟩]⟩ /- IMG_STN_CNT -/]

def regTableImg : List RegDesc := regTableImg0 ++ regTableImg1

def regTableHop0 : List RegDesc := [
  ⟨0x40030000, [], [⟨0, 1, .rw, true, []⟩, ⟨1, 1, .rw, true, []⟩]⟩ /- HOP_CTRL -/,
  ⟨0x40030004, [], [⟨0, 2, .ro, false, []⟩, ⟨2, 1, .ro, false, []⟩, ⟨3, 1, .ro, false, []⟩, ⟨4, 1, .w1c, false, []⟩, ⟨8, 1, .ro, false, []⟩, ⟨16, 4, .ro, false, []⟩, ⟨20, 12, .ro, false, []⟩]⟩ /- HOP_STAT -/,
  ⟨0x40030008, [], [⟨0, 9, .rw, false, []⟩]⟩ /- HOP_INTEN -/,
  ⟨0x4003000C, [], [⟨0, 1, .w1c, false, []⟩, ⟨1, 1, .w1c, false, []⟩, ⟨2, 1, .w1c, false, []⟩, ⟨3, 1, .w1c, false, []⟩, ⟨4, 1, .w1c, false, []⟩, ⟨5, 1, .w1c, false, []⟩, ⟨6, 1, .w1c, false, []⟩, ⟨7, 1, .w1c, false, []⟩, ⟨8, 1, .w1c, false, []⟩]⟩ /- HOP_INTSTAT -/,
  ⟨0x40030010, [], [⟨0, 12, .rwl, false, []⟩]⟩ /- HOP_NODE -/,
  ⟨0x40030014, [], [⟨0, 17, .rwl, false, [(0, 65536)]⟩]⟩ /- HOP_OWN_CNT -/,
  ⟨0x40030018, [], [⟨23, 9, .rwl, false, []⟩]⟩ /- HOP_RBASE -/,
  ⟨0x4003001C, [], [⟨0, 4, .rwl, false, [(2, 15)]⟩, ⟨8, 8, .rwl, false, [(1, 255)]⟩]⟩ /- HOP_SUBCFG -/,
  ⟨0x40030020, [], [⟨0, 16, .ro, false, []⟩]⟩ /- HOP_PINC -/,
  ⟨0x40030024, [], [⟨0, 2, .rw, false, [(0, 2)]⟩, ⟨2, 1, .rw, false, []⟩, ⟨8, 1, .sc, true, []⟩]⟩ /- HOP_PIN_CMD -/,
  ⟨0x40030028, [], [⟨0, 2, .ro, false, []⟩, ⟨16, 16, .ro, false, []⟩]⟩ /- HOP_PIN_STAT -/,
  ⟨0x4003002C, [], [⟨0, 10, .ro, false, []⟩, ⟨16, 9, .ro, false, []⟩]⟩ /- HOP_CACHE -/,
  ⟨0x40030030, [], [⟨2, 16, .rw, false, []⟩]⟩ /- HOP_TADDR -/,
  ⟨0x40030034, [], [⟨0, 32, .rw, true, []⟩]⟩ /- HOP_TDATA -/,
  ⟨0x40030040, [], [⟨5, 27, .rw, false, []⟩]⟩ /- HOP_ASN_BASE -/,
  ⟨0x40030044, [], [⟨0, 4, .rw, true, [(4, 12)]⟩, ⟨4, 2, .rw, true, [(0, 2)]⟩, ⟨8, 4, .rw, true, []⟩, ⟨16, 12, .rw, true, []⟩]⟩ /- HOP_ASN_CFG -/,
  ⟨0x40030048, [], [⟨0, 16, .rw, false, [(1, 65535)]⟩]⟩ /- HOP_ASN_TMO -/,
  ⟨0x4003004C, [], [⟨0, 16, .ro, false, []⟩]⟩ /- HOP_ASN_POST -/,
  ⟨0x40030050, [], [⟨0, 16, .ro, false, []⟩]⟩ /- HOP_ASN_REAP -/,
  ⟨0x40030054, [], [⟨0, 1, .ro, false, []⟩, ⟨1, 1, .w1c, false, []⟩, ⟨2, 1, .w1c, false, []⟩]⟩ /- HOP_ASN_STAT -/,
  ⟨0x40030058, [], [⟨0, 32, .rc, false, []⟩]⟩ /- HOP_ASN_DROP -/,
  ⟨0x4003005C, [], [⟨0, 32, .rc, false, []⟩]⟩ /- HOP_ASN_TOCNT -/,
  ⟨0x40030060, [], [⟨0, 1, .wo, true, []⟩]⟩ /- HOP_ASN_KICK -/,
  ⟨0x40030080, [], [⟨0, 32, .rc, false, []⟩]⟩ /- HOP_CNT_HIT -/,
  ⟨0x40030084, [], [⟨0, 32, .rc, false, []⟩]⟩ /- HOP_CNT_MISS -/]

def regTableHop1 : List RegDesc := [
  ⟨0x40030088, [], [⟨0, 32, .rc, false, []⟩]⟩ /- HOP_CNT_EVICT -/,
  ⟨0x4003008C, [], [⟨0, 32, .rc, false, []⟩]⟩ /- HOP_CNT_PUSHTX -/,
  ⟨0x40030090, [], [⟨0, 32, .rc, false, []⟩]⟩ /- HOP_CNT_PUSHRX -/,
  ⟨0x40030094, [], [⟨0, 32, .rc, false, []⟩]⟩ /- HOP_CNT_OLDSEQ -/,
  ⟨0x40030098, [], [⟨0, 32, .rc, false, []⟩]⟩ /- HOP_CNT_NOSUB -/,
  ⟨0x4003009C, [], [⟨0, 32, .rc, false, []⟩]⟩ /- HOP_CNT_REFETCH -/,
  ⟨0x400300A0, [], [⟨0, 32, .rc, false, []⟩]⟩ /- HOP_CNT_REFAIL -/,
  ⟨0x400300A4, [], [⟨0, 32, .rc, false, []⟩]⟩ /- HOP_CNT_IMGMISS -/,
  ⟨0x400300A8, [], [⟨0, 32, .rc, false, []⟩]⟩ /- HOP_CNT_MISSBUSY -/,
  ⟨0x400300AC, [], [⟨0, 32, .rc, false, []⟩]⟩ /- HOP_CNT_BADMSG -/,
  ⟨0x40030100, [(4, 0x40)], [⟨0, 32, .rw, false, []⟩]⟩ /- HOP_LK_ID -/,
  ⟨0x40030104, [(4, 0x40)], [⟨0, 2, .rw, false, [(1, 2)]⟩, ⟨8, 1, .sc, true, []⟩]⟩ /- HOP_LK_CMD -/,
  ⟨0x40030108, [(4, 0x40)], [⟨0, 3, .ro, false, []⟩, ⟨3, 1, .ro, false, []⟩]⟩ /- HOP_LK_STAT -/,
  ⟨0x4003010C, [(4, 0x40)], [⟨0, 18, .ro, false, []⟩]⟩ /- HOP_LK_SLOT -/,
  ⟨0x40030110, [(4, 0x40), (8, 0x4)], [⟨0, 32, .ro, false, []⟩]⟩ /- HOP_LK_DATA -/]

def regTableHop : List RegDesc := regTableHop0 ++ regTableHop1

def regTableFab0 : List RegDesc := [
  ⟨0x40050000, [], [⟨0, 1, .rw, true, []⟩, ⟨1, 1, .rw, true, []⟩]⟩ /- FAB_CTRL -/,
  ⟨0x40050004, [], [⟨0, 2, .ro, false, []⟩, ⟨2, 1, .ro, false, []⟩, ⟨3, 1, .ro, false, []⟩, ⟨4, 1, .w1c, false, []⟩, ⟨8, 1, .ro, false, []⟩, ⟨16, 4, .ro, false, []⟩]⟩ /- FAB_STAT -/,
  ⟨0x40050008, [], [⟨0, 16, .rw, false, []⟩]⟩ /- FAB_INTEN -/,
  ⟨0x4005000C, [], [⟨0, 1, .w1c, false, []⟩, ⟨1, 1, .w1c, false, []⟩, ⟨2, 1, .w1c, false, []⟩, ⟨3, 1, .w1c, false, []⟩, ⟨4, 1, .w1c, false, []⟩, ⟨5, 1, .w1c, false, []⟩, ⟨6, 1, .w1c, false, []⟩, ⟨7, 1, .w1c, false, []⟩, ⟨8, 1, .w1c, false, []⟩, ⟨9, 1, .w1c, false, []⟩, ⟨10, 1, .w1c, false, []⟩, ⟨11, 1, .w1c, false, []⟩, ⟨12, 1, .w1c, false, []⟩, ⟨13, 1, .w1c, false, []⟩, ⟨14, 1, .w1c, false, []⟩, ⟨15, 1, .w1c, false, []⟩]⟩ /- FAB_INTSTAT -/,
  ⟨0x40050010, [], [⟨0, 12, .rwl, false, [(0, 4094)]⟩, ⟨16, 12, .ro, false, []⟩, ⟨28, 3, .ro, false, []⟩]⟩ /- FAB_NODE -/,
  ⟨0x40050014, [], [⟨0, 32, .ro, false, []⟩]⟩ /- FAB_MAC_LO -/,
  ⟨0x40050018, [], [⟨0, 16, .ro, false, []⟩]⟩ /- FAB_MAC_HI -/,
  ⟨0x4005001C, [], [⟨0, 16, .rwl, false, []⟩]⟩ /- FAB_ETYPE -/,
  ⟨0x40050020, [], [⟨0, 8, .rwl, false, [(1, 100)]⟩, ⟨8, 4, .rwl, false, [(2, 15)]⟩]⟩ /- FAB_HELLO -/,
  ⟨0x40050024, [], [⟨0, 6, .rwl, false, []⟩, ⟨8, 8, .rwl, false, []⟩, ⟨16, 8, .rwl, false, [(1, 255)]⟩]⟩ /- FAB_SEC -/,
  ⟨0x40050028, [], [⟨18, 14, .rwl, false, []⟩]⟩ /- FAB_LSDB -/,
  ⟨0x40050030, [], [⟨0, 8, .rwl, false, []⟩, ⟨8, 8, .rwl, false, []⟩, ⟨16, 8, .rwl, false, []⟩, ⟨24, 1, .rwl, false, []⟩]⟩ /- FAB_PTP_CFG -/,
  ⟨0x40050034, [], [⟨0, 2, .ro, false, []⟩, ⟨4, 3, .ro, false, []⟩, ⟨8, 8, .ro, false, []⟩]⟩ /- FAB_PTP_STAT -/,
  ⟨0x40050038, [], [⟨0, 32, .ro, false, []⟩]⟩ /- FAB_PTP_OFS -/,
  ⟨0x4005003C, [], [⟨0, 16, .rw, false, [(1, 65535)]⟩]⟩ /- FAB_PTP_STEP -/,
  ⟨0x40050040, [], [⟨5, 27, .rw, false, []⟩]⟩ /- FAB_ASN_BASE -/,
  ⟨0x40050044, [], [⟨0, 4, .rw, true, [(4, 12)]⟩, ⟨4, 2, .rw, true, [(0, 2)]⟩, ⟨8, 4, .rw, true, []⟩, ⟨16, 12, .rw, true, []⟩]⟩ /- FAB_ASN_CFG -/,
  ⟨0x40050048, [], [⟨0, 16, .rw, false, [(1, 65535)]⟩]⟩ /- FAB_ASN_TMO -/,
  ⟨0x4005004C, [], [⟨0, 16, .ro, false, []⟩]⟩ /- FAB_ASN_POST -/,
  ⟨0x40050050, [], [⟨0, 16, .ro, false, []⟩]⟩ /- FAB_ASN_REAP -/,
  ⟨0x40050054, [], [⟨0, 1, .ro, false, []⟩, ⟨1, 1, .w1c, false, []⟩, ⟨2, 1, .w1c, false, []⟩]⟩ /- FAB_ASN_STAT -/,
  ⟨0x40050058, [], [⟨0, 32, .rc, false, []⟩]⟩ /- FAB_ASN_DROP -/,
  ⟨0x4005005C, [], [⟨0, 32, .rc, false, []⟩]⟩ /- FAB_ASN_TOCNT -/,
  ⟨0x40050060, [], [⟨0, 1, .wo, true, []⟩]⟩ /- FAB_ASN_KICK -/,
  ⟨0x40050070, [], [⟨0, 12, .rw, false, []⟩]⟩ /- FAB_RT_ADDR -/]

def regTableFab1 : List RegDesc := [
  ⟨0x40050074, [], [⟨0, 32, .ro, false, []⟩]⟩ /- FAB_RT_DATA -/,
  ⟨0x40050078, [], [⟨0, 12, .rw, false, []⟩]⟩ /- FAB_RTS_ADDR -/,
  ⟨0x4005007C, [], [⟨0, 32, .rw, true, []⟩]⟩ /- FAB_RTS_DATA -/,
  ⟨0x40050080, [], [⟨0, 32, .rc, false, []⟩]⟩ /- FAB_CNT_LSARX -/,
  ⟨0x40050084, [], [⟨0, 32, .rc, false, []⟩]⟩ /- FAB_CNT_SPF -/,
  ⟨0x40050088, [], [⟨0, 32, .rc, false, []⟩]⟩ /- FAB_CNT_NOROUTE -/,
  ⟨0x4005008C, [], [⟨0, 32, .rc, false, []⟩]⟩ /- FAB_CNT_BADHDR -/,
  ⟨0x40050090, [], [⟨0, 32, .rc, false, []⟩]⟩ /- FAB_CNT_MBXDROP -/,
  ⟨0x40050094, [], [⟨0, 32, .rc, false, []⟩]⟩ /- FAB_CNT_QFULL -/,
  ⟨0x40050098, [], [⟨2, 11, .rw, false, []⟩]⟩ /- FAB_Q_ADDR -/,
  ⟨0x4005009C, [], [⟨0, 32, .ro, false, []⟩]⟩ /- FAB_Q_DATA -/,
  ⟨0x400500A0, [], [⟨0, 11, .rw, false, []⟩, ⟨16, 1, .sc, true, []⟩, ⟨17, 2, .ro, false, []⟩]⟩ /- FAB_MBX_TX -/,
  ⟨0x400500A4, [], [⟨0, 8, .w1c, false, []⟩]⟩ /- FAB_MBX_RX -/,
  ⟨0x40050100, [(4, 0x80)], [⟨0, 1, .rw, true, []⟩, ⟨8, 2, .rwl, false, []⟩, ⟨10, 1, .rwl, false, []⟩, ⟨11, 1, .rwl, false, []⟩, ⟨12, 1, .rwl, false, []⟩]⟩ /- FAB_P_CTRL -/,
  ⟨0x40050104, [(4, 0x80)], [⟨0, 2, .ro, false, []⟩, ⟨2, 1, .ro, false, []⟩, ⟨3, 1, .ro, false, []⟩, ⟨4, 1, .w1c, false, []⟩, ⟨8, 1, .ro, false, []⟩, ⟨9, 2, .ro, false, []⟩, ⟨11, 3, .ro, false, []⟩, ⟨14, 1, .ro, false, []⟩, ⟨16, 4, .ro, false, []⟩, ⟨20, 12, .ro, false, []⟩]⟩ /- FAB_P_STAT -/,
  ⟨0x40050108, [(4, 0x80)], [⟨0, 16, .rwl, false, []⟩]⟩ /- FAB_P_COST -/,
  ⟨0x4005010C, [(4, 0x80)], [⟨0, 16, .rwl, false, []⟩, ⟨16, 16, .rwl, false, []⟩]⟩ /- FAB_P_PTPDLY -/,
  ⟨0x40050110, [(4, 0x80), (4, 0x4)], [⟨0, 32, .rwl, false, []⟩]⟩ /- FAB_P_IP -/,
  ⟨0x40050120, [(4, 0x80), (4, 0x4)], [⟨0, 32, .rwl, false, []⟩]⟩ /- FAB_P_PEER -/,
  ⟨0x40050130, [(4, 0x80), (4, 0x4)], [⟨0, 32, .rwl, false, []⟩]⟩ /- FAB_P_GW -/,
  ⟨0x40050140, [(4, 0x80)], [⟨0, 16, .rwl, false, []⟩, ⟨16, 16, .rwl, false, [(0, 9000)]⟩]⟩ /- FAB_P_UDP -/,
  ⟨0x40050144, [(4, 0x80)], [⟨0, 8, .rw, false, [(1, 255)]⟩, ⟨8, 8, .rw, false, [(1, 255)]⟩, ⟨16, 8, .rw, false, [(1, 255)]⟩]⟩ /- FAB_P_SHARE -/,
  ⟨0x40050148, [(4, 0x80)], [⟨0, 32, .rc, false, []⟩]⟩ /- FAB_P_CNT_RXFRM -/,
  ⟨0x4005014C, [(4, 0x80)], [⟨0, 32, .rc, false, []⟩]⟩ /- FAB_P_CNT_TXFRM -/,
  ⟨0x40050150, [(4, 0x80)], [⟨0, 32, .rc, false, []⟩]⟩ /- FAB_P_CNT_FCSERR -/]

def regTableFab2 : List RegDesc := [
  ⟨0x40050154, [(4, 0x80)], [⟨0, 32, .rc, false, []⟩]⟩ /- FAB_P_CNT_ICVFAIL -/,
  ⟨0x40050158, [(4, 0x80)], [⟨0, 32, .rc, false, []⟩]⟩ /- FAB_P_CNT_ICVCUT -/,
  ⟨0x4005015C, [(4, 0x80)], [⟨0, 32, .rc, false, []⟩]⟩ /- FAB_P_CNT_REPLAY -/,
  ⟨0x40050160, [(4, 0x80)], [⟨0, 32, .rc, false, []⟩]⟩ /- FAB_P_CNT_CTLPOL -/,
  ⟨0x40050164, [(4, 0x80)], [⟨0, 32, .rc, false, []⟩]⟩ /- FAB_P_CNT_QDROP -/,
  ⟨0x40050168, [(4, 0x80), (4, 0x4)], [⟨0, 32, .rc, false, []⟩]⟩ /- FAB_P_CNT_DROP -/,
  ⟨0x40050178, [(4, 0x80)], [⟨0, 32, .rc, false, []⟩]⟩ /- FAB_P_CNT_NOROUTE -/,
  ⟨0x4005017C, [(4, 0x80)], [⟨0, 32, .rc, false, []⟩]⟩ /- FAB_P_CNT_MISC -/]

def regTableFab : List RegDesc := regTableFab0 ++ regTableFab1 ++ regTableFab2

def regTableGate : List RegDesc := [
  ⟨0x40060000, [], [⟨0, 1, .rw, true, []⟩]⟩ /- GATE_CTRL -/,
  ⟨0x40060004, [], [⟨0, 2, .ro, false, []⟩, ⟨2, 1, .ro, false, []⟩, ⟨3, 1, .ro, false, []⟩, ⟨4, 1, .w1c, false, []⟩, ⟨16, 4, .ro, false, []⟩]⟩ /- GATE_STAT -/,
  ⟨0x40060008, [], [⟨0, 6, .rw, false, []⟩]⟩ /- GATE_INTEN -/,
  ⟨0x4006000C, [], [⟨0, 1, .w1c, false, []⟩, ⟨1, 1, .w1c, false, []⟩, ⟨2, 1, .w1c, false, []⟩, ⟨3, 1, .w1c, false, []⟩, ⟨4, 1, .w1c, false, []⟩, ⟨5, 1, .w1c, false, []⟩]⟩ /- GATE_INTSTAT -/,
  ⟨0x40060010, [], [⟨18, 14, .rwl, false, []⟩]⟩ /- GATE_TBASE -/,
  ⟨0x40060014, [], [⟨0, 6, .rwl, false, []⟩, ⟨8, 8, .rwl, false, [(1, 255)]⟩]⟩ /- GATE_CFG -/,
  ⟨0x40060018, [], [⟨0, 8, .rw, false, []⟩, ⟨8, 2, .rw, false, [(1, 2)]⟩, ⟨16, 1, .sc, true, []⟩]⟩ /- GATE_TCMD -/,
  ⟨0x4006001C, [], [⟨0, 10, .ro, false, []⟩, ⟨16, 10, .ro, false, []⟩]⟩ /- GATE_SCNT -/,
  ⟨0x40060020, [], [⟨0, 9, .rw, false, []⟩]⟩ /- GATE_SADDR -/,
  ⟨0x40060024, [], [⟨0, 2, .ro, false, []⟩, ⟨8, 8, .ro, false, []⟩, ⟨16, 8, .ro, false, []⟩, ⟨24, 7, .ro, false, []⟩]⟩ /- GATE_SINFO -/,
  ⟨0x40060028, [], [⟨0, 12, .ro, false, []⟩]⟩ /- GATE_SNODE -/,
  ⟨0x4006002C, [], [⟨0, 1, .wo, true, []⟩]⟩ /- GATE_SCMD -/,
  ⟨0x40060080, [], [⟨0, 32, .rc, false, []⟩]⟩ /- GATE_CNT_ACCEPT -/,
  ⟨0x40060084, [], [⟨0, 32, .rc, false, []⟩]⟩ /- GATE_CNT_REFUSE -/,
  ⟨0x40060088, [], [⟨0, 32, .rc, false, []⟩]⟩ /- GATE_CNT_BADTAG -/,
  ⟨0x4006008C, [], [⟨0, 32, .rc, false, []⟩]⟩ /- GATE_CNT_REPLAY -/,
  ⟨0x40060090, [], [⟨0, 32, .rc, false, []⟩]⟩ /- GATE_CNT_RATEDROP -/,
  ⟨0x40060094, [], [⟨0, 32, .rc, false, []⟩]⟩ /- GATE_CNT_BADREQ -/,
  ⟨0x40060098, [], [⟨0, 32, .rc, false, []⟩]⟩ /- GATE_CNT_KEYREF -/]

def regTableLoop0 : List RegDesc := [
  ⟨0x40070000, [], [⟨0, 1, .rw, true, []⟩, ⟨1, 1, .rw, true, []⟩]⟩ /- LOOP_CTRL -/,
  ⟨0x40070004, [], [⟨0, 2, .ro, false, []⟩, ⟨2, 1, .ro, false, []⟩, ⟨3, 1, .ro, false, []⟩, ⟨4, 1, .w1c, false, []⟩, ⟨8, 1, .ro, false, []⟩, ⟨16, 4, .ro, false, []⟩, ⟨24, 8, .ro, false, []⟩]⟩ /- LOOP_STAT -/,
  ⟨0x40070008, [], [⟨0, 8, .rw, false, []⟩]⟩ /- LOOP_INTEN -/,
  ⟨0x4007000C, [], [⟨0, 1, .w1c, false, []⟩, ⟨1, 1, .w1c, false, []⟩, ⟨2, 1, .w1c, false, []⟩, ⟨3, 1, .w1c, false, []⟩, ⟨4, 1, .w1c, false, []⟩, ⟨5, 1, .w1c, false, []⟩, ⟨6, 1, .w1c, false, []⟩, ⟨7, 1, .w1c, false, []⟩]⟩ /- LOOP_INTSTAT -/,
  ⟨0x40070010, [], [⟨2, 15, .rw, false, []⟩]⟩ /- LOOP_MADDR -/,
  ⟨0x40070014, [], [⟨0, 32, .rw, true, []⟩]⟩ /- LOOP_MDATA -/,
  ⟨0x40070018, [], [⟨0, 14, .ro, false, []⟩]⟩ /- LOOP_LOAD -/,
  ⟨0x4007001C, [], [⟨0, 8, .rw, false, []⟩]⟩ /- LOOP_LSEL -/,
  ⟨0x40070020, [], [⟨0, 32, .ro, false, []⟩]⟩ /- LOOP_LSTAT -/,
  ⟨0x40070024, [], [⟨0, 32, .ro, false, []⟩]⟩ /- LOOP_LOUT -/,
  ⟨0x40070028, [], [⟨0, 32, .ro, false, []⟩]⟩ /- LOOP_LPV -/,
  ⟨0x4007002C, [], [⟨0, 32, .ro, false, []⟩]⟩ /- LOOP_LSP -/,
  ⟨0x40070040, [], [⟨5, 27, .rw, false, []⟩]⟩ /- LOOP_ASN_BASE -/,
  ⟨0x40070044, [], [⟨0, 4, .rw, true, [(4, 12)]⟩, ⟨4, 2, .rw, true, [(0, 2)]⟩, ⟨8, 4, .rw, true, []⟩, ⟨16, 12, .rw, true, []⟩]⟩ /- LOOP_ASN_CFG -/,
  ⟨0x40070048, [], [⟨0, 16, .rw, false, [(1, 65535)]⟩]⟩ /- LOOP_ASN_TMO -/,
  ⟨0x4007004C, [], [⟨0, 16, .ro, false, []⟩]⟩ /- LOOP_ASN_POST -/,
  ⟨0x40070050, [], [⟨0, 16, .ro, false, []⟩]⟩ /- LOOP_ASN_REAP -/,
  ⟨0x40070054, [], [⟨0, 1, .ro, false, []⟩, ⟨1, 1, .w1c, false, []⟩, ⟨2, 1, .w1c, false, []⟩]⟩ /- LOOP_ASN_STAT -/,
  ⟨0x40070058, [], [⟨0, 32, .rc, false, []⟩]⟩ /- LOOP_ASN_DROP -/,
  ⟨0x4007005C, [], [⟨0, 32, .rc, false, []⟩]⟩ /- LOOP_ASN_TOCNT -/,
  ⟨0x40070060, [], [⟨0, 1, .wo, true, []⟩]⟩ /- LOOP_ASN_KICK -/,
  ⟨0x40070080, [], [⟨0, 32, .rc, false, []⟩]⟩ /- LOOP_CNT_EVAL -/,
  ⟨0x40070084, [], [⟨0, 32, .rc, false, []⟩]⟩ /- LOOP_CNT_MISS -/,
  ⟨0x40070088, [], [⟨0, 32, .rc, false, []⟩]⟩ /- LOOP_CNT_DEF -/,
  ⟨0x4007008C, [], [⟨0, 32, .rc, false, []⟩]⟩ /- LOOP_CNT_PVBAD -/]

def regTableLoop1 : List RegDesc := [
  ⟨0x40070100, [(32, 0x4)], [⟨0, 8, .ro, false, []⟩, ⟨8, 1, .ro, false, []⟩]⟩ /- LOOP_GRP_STAT -/]

def regTableLoop : List RegDesc := regTableLoop0 ++ regTableLoop1

def regTableMtr0 : List RegDesc := [
  ⟨0x40080000, [], [⟨0, 1, .rw, true, []⟩, ⟨1, 1, .rw, true, []⟩]⟩ /- MTR_CTRL -/,
  ⟨0x40080004, [], [⟨0, 2, .ro, false, []⟩, ⟨2, 1, .ro, false, []⟩, ⟨3, 1, .ro, false, []⟩, ⟨4, 1, .w1c, false, []⟩, ⟨8, 2, .ro, false, []⟩, ⟨10, 1, .ro, false, []⟩, ⟨16, 4, .ro, false, []⟩, ⟨20, 12, .ro, false, []⟩]⟩ /- MTR_STAT -/,
  ⟨0x40080008, [], [⟨0, 12, .rw, false, []⟩]⟩ /- MTR_INTEN -/,
  ⟨0x4008000C, [], [⟨0, 1, .w1c, false, []⟩, ⟨1, 1, .w1c, false, []⟩, ⟨2, 1, .w1c, false, []⟩, ⟨3, 1, .w1c, false, []⟩, ⟨4, 1, .w1c, false, []⟩, ⟨5, 1, .w1c, false, []⟩, ⟨6, 1, .w1c, false, []⟩, ⟨7, 1, .w1c, false, []⟩, ⟨8, 1, .w1c, false, []⟩, ⟨9, 1, .w1c, false, []⟩, ⟨10, 1, .w1c, false, []⟩, ⟨11, 1, .w1c, false, []⟩]⟩ /- MTR_INTSTAT -/,
  ⟨0x40080010, [], [⟨2, 16, .rw, false, []⟩]⟩ /- MTR_MADDR -/,
  ⟨0x40080014, [], [⟨0, 32, .rw, true, []⟩]⟩ /- MTR_MDATA -/,
  ⟨0x40080018, [], [⟨0, 2, .rwl, false, [(0, 2)]⟩, ⟨2, 1, .rwl, false, []⟩, ⟨3, 1, .rw, false, []⟩, ⟨16, 12, .rw, false, [(1, 4000)]⟩]⟩ /- MTR_CFG -/,
  ⟨0x4008001C, [], [⟨0, 8, .rwl, false, [(1, 200)]⟩, ⟨8, 8, .rwl, false, [(25, 255)]⟩, ⟨16, 4, .rwl, false, [(2, 15)]⟩]⟩ /- MTR_ZC -/,
  ⟨0x40080020, [], [⟨14, 9, .rwl, false, []⟩]⟩ /- MTR_CKPT_BASE -/,
  ⟨0x40080024, [], [⟨0, 12, .rw, false, [(1, 3600)]⟩, ⟨16, 1, .ro, false, []⟩, ⟨17, 1, .ro, false, []⟩, ⟨18, 1, .ro, false, []⟩]⟩ /- MTR_CKPT_CFG -/,
  ⟨0x40080028, [], [⟨0, 32, .ro, false, []⟩]⟩ /- MTR_CKPT_SEQ -/,
  ⟨0x4008002C, [], [⟨0, 3, .rw, false, [(1, 4)]⟩, ⟨8, 9, .rw, false, []⟩, ⟨24, 1, .sc, true, []⟩, ⟨25, 3, .ro, false, []⟩]⟩ /- MTR_CMD -/,
  ⟨0x40080030, [], [⟨0, 9, .rw, false, []⟩]⟩ /- MTR_RSEL -/,
  ⟨0x40080034, [], [⟨0, 32, .ro, false, []⟩]⟩ /- MTR_RVAL_LO -/,
  ⟨0x40080038, [], [⟨0, 32, .ro, false, []⟩]⟩ /- MTR_RVAL_HI -/,
  ⟨0x4008003C, [], [⟨0, 1, .ro, false, []⟩]⟩ /- MTR_LATCH -/,
  ⟨0x40080040, [], [⟨5, 27, .rw, false, []⟩]⟩ /- MTR_ASN_BASE -/,
  ⟨0x40080044, [], [⟨0, 4, .rw, true, [(4, 12)]⟩, ⟨4, 2, .rw, true, [(0, 2)]⟩, ⟨8, 4, .rw, true, []⟩, ⟨16, 12, .rw, true, []⟩]⟩ /- MTR_ASN_CFG -/,
  ⟨0x40080048, [], [⟨0, 16, .rw, false, [(1, 65535)]⟩]⟩ /- MTR_ASN_TMO -/,
  ⟨0x4008004C, [], [⟨0, 16, .ro, false, []⟩]⟩ /- MTR_ASN_POST -/,
  ⟨0x40080050, [], [⟨0, 16, .ro, false, []⟩]⟩ /- MTR_ASN_REAP -/,
  ⟨0x40080054, [], [⟨0, 1, .ro, false, []⟩, ⟨1, 1, .w1c, false, []⟩, ⟨2, 1, .w1c, false, []⟩]⟩ /- MTR_ASN_STAT -/,
  ⟨0x40080058, [], [⟨0, 32, .rc, false, []⟩]⟩ /- MTR_ASN_DROP -/,
  ⟨0x4008005C, [], [⟨0, 32, .rc, false, []⟩]⟩ /- MTR_ASN_TOCNT -/,
  ⟨0x40080060, [], [⟨0, 1, .wo, true, []⟩]⟩ /- MTR_ASN_KICK -/]

def regTableMtr1 : List RegDesc := [
  ⟨0x40080070, [], [⟨0, 32, .ro, false, []⟩]⟩ /- MTR_LSEQ -/,
  ⟨0x40080074, [], [⟨0, 32, .ro, false, []⟩]⟩ /- MTR_FREQ -/,
  ⟨0x40080078, [], [⟨0, 9, .ro, false, []⟩]⟩ /- MTR_CKPT_FREG -/,
  ⟨0x40080080, [], [⟨0, 32, .rc, false, []⟩]⟩ /- MTR_CNT_ROUND -/,
  ⟨0x40080084, [], [⟨0, 32, .rc, false, []⟩]⟩ /- MTR_CNT_OVR -/,
  ⟨0x40080088, [], [⟨0, 32, .rc, false, []⟩]⟩ /- MTR_CNT_ZCREJ -/,
  ⟨0x4008008C, [], [⟨0, 32, .rc, false, []⟩]⟩ /- MTR_CNT_NOZC -/,
  ⟨0x40080090, [], [⟨0, 32, .rc, false, []⟩]⟩ /- MTR_CNT_GAP -/,
  ⟨0x40080094, [], [⟨0, 32, .rc, false, []⟩]⟩ /- MTR_CNT_SEGCHG -/,
  ⟨0x40080098, [], [⟨0, 32, .rc, false, []⟩]⟩ /- MTR_CNT_CORR -/,
  ⟨0x40080100, [(40, 0x4)], [⟨0, 3, .ro, false, []⟩, ⟨8, 1, .w1c, false, []⟩, ⟨9, 1, .ro, false, []⟩]⟩ /- MTR_CH_STAT -/]

def regTableMtr : List RegDesc := regTableMtr0 ++ regTableMtr1

def regTableDio0 : List RegDesc := [
  ⟨0x40090000, [], [⟨0, 1, .rw, true, []⟩, ⟨1, 1, .rw, true, []⟩, ⟨2, 1, .rw, false, []⟩]⟩ /- DIO_CTRL -/,
  ⟨0x40090004, [], [⟨0, 1, .ro, false, []⟩, ⟨1, 1, .ro, false, []⟩, ⟨2, 1, .ro, false, []⟩, ⟨4, 3, .ro, false, []⟩]⟩ /- DIO_STAT -/,
  ⟨0x40090008, [], [⟨0, 11, .rw, false, []⟩]⟩ /- DIO_INTEN -/,
  ⟨0x4009000C, [], [⟨0, 1, .w1c, false, []⟩, ⟨1, 1, .w1c, false, []⟩, ⟨2, 1, .w1c, false, []⟩, ⟨3, 1, .w1c, false, []⟩, ⟨4, 1, .w1c, false, []⟩, ⟨5, 1, .w1c, false, []⟩, ⟨6, 1, .w1c, false, []⟩, ⟨7, 1, .w1c, false, []⟩, ⟨8, 1, .w1c, false, []⟩, ⟨9, 1, .w1c, false, []⟩, ⟨10, 1, .w1c, false, []⟩]⟩ /- DIO_INTSTAT -/,
  ⟨0x40090010, [], [⟨0, 10, .rwl, true, [(0, 1000)]⟩]⟩ /- DIO_KA_CFG -/,
  ⟨0x40090014, [], [⟨0, 1, .wo, true, []⟩]⟩ /- DIO_KA_KICK -/,
  ⟨0x40090018, [], [⟨0, 32, .ro, false, []⟩]⟩ /- DIO_DI_STATE -/,
  ⟨0x4009001C, [], [⟨0, 32, .w1c, false, []⟩]⟩ /- DIO_DI_EDGE -/,
  ⟨0x40090020, [], [⟨0, 24, .ro, false, []⟩]⟩ /- DIO_DO_VAL -/,
  ⟨0x40090024, [], [⟨0, 24, .ro, false, []⟩]⟩ /- DIO_DO_PIN -/,
  ⟨0x40090028, [], [⟨0, 24, .ro, false, []⟩]⟩ /- DIO_DO_FMASK -/,
  ⟨0x4009002C, [], [⟨0, 8, .w1c, false, []⟩]⟩ /- DIO_DO_LOCK -/,
  ⟨0x40090030, [], [⟨0, 5, .rw, false, []⟩, ⟨8, 3, .rw, false, [(1, 4)]⟩, ⟨16, 1, .sc, true, []⟩, ⟨17, 2, .ro, false, []⟩]⟩ /- DIO_DO_CMD -/,
  ⟨0x40090040, [(2, 0x4)], [⟨0, 32, .w1s, true, []⟩]⟩ /- DIO_RFX_ARM -/,
  ⟨0x40090048, [(2, 0x4)], [⟨0, 32, .wo, true, []⟩]⟩ /- DIO_RFX_DISARM -/,
  ⟨0x40090050, [(2, 0x4)], [⟨0, 32, .w1c, false, []⟩]⟩ /- DIO_RFX_FIRED -/,
  ⟨0x40090080, [], [⟨0, 32, .rc, false, []⟩]⟩ /- DIO_CNT_CMTLOCK -/,
  ⟨0x40090084, [], [⟨0, 32, .rc, false, []⟩]⟩ /- DIO_CNT_RFXSUP -/,
  ⟨0x40090088, [], [⟨0, 32, .rc, false, []⟩]⟩ /- DIO_CNT_KASTOP -/,
  ⟨0x4009008C, [], [⟨0, 32, .rc, false, []⟩]⟩ /- DIO_CNT_OC -/,
  ⟨0x40090100, [(8, 0x20)], [⟨0, 2, .rw, true, [(0, 2)]⟩, ⟨2, 2, .rw, false, [(0, 2)]⟩, ⟨4, 1, .rw, false, []⟩, ⟨8, 10, .rw, false, [(1, 1000)]⟩, ⟨20, 4, .rw, false, [(1, 15)]⟩]⟩ /- DIO_CNT_CFG -/,
  ⟨0x40090104, [(8, 0x20)], [⟨0, 32, .ro, false, []⟩]⟩ /- DIO_CNT_VAL -/,
  ⟨0x40090108, [(8, 0x20)], [⟨0, 32, .ro, false, []⟩]⟩ /- DIO_CNT_LATCH -/,
  ⟨0x4009010C, [(8, 0x20)], [⟨0, 32, .ro, false, []⟩]⟩ /- DIO_CNT_FREQ -/,
  ⟨0x40090110, [(8, 0x20)], [⟨0, 32, .rw, false, []⟩]⟩ /- DIO_CNT_PRESET -/]

def regTableDio1 : List RegDesc := [
  ⟨0x40090114, [(8, 0x20)], [⟨0, 1, .wo, true, []⟩, ⟨1, 1, .wo, true, []⟩]⟩ /- DIO_CNT_CMD -/,
  ⟨0x40090118, [(8, 0x20)], [⟨0, 32, .rc, false, []⟩]⟩ /- DIO_CNT_ERR -/,
  ⟨0x4009011C, [(8, 0x20)], [⟨0, 1, .w1c, false, []⟩, ⟨1, 1, .ro, false, []⟩]⟩ /- DIO_CNT_STAT -/,
  ⟨0x40090200, [(24, 0x4)], [⟨0, 8, .rw, true, []⟩, ⟨8, 1, .rw, true, []⟩]⟩ /- DIO_FLT -/,
  ⟨0x40090300, [(24, 0x8)], [⟨0, 2, .rwl, true, []⟩, ⟨8, 8, .rwl, true, [(1, 255)]⟩]⟩ /- DIO_DO_CFG -/,
  ⟨0x40090304, [(24, 0x8)], [⟨0, 2, .ro, false, []⟩, ⟨2, 1, .ro, false, []⟩, ⟨3, 1, .ro, false, []⟩, ⟨4, 1, .ro, false, []⟩]⟩ /- DIO_DO_STAT -/,
  ⟨0x40090400, [(64, 0x8)], [⟨0, 32, .rw, true, []⟩]⟩ /- DIO_RFX_CFG0 -/,
  ⟨0x40090404, [(64, 0x8)], [⟨0, 32, .rw, true, []⟩]⟩ /- DIO_RFX_CFG1 -/]

def regTableDio : List RegDesc := regTableDio0 ++ regTableDio1

def regTableAio : List RegDesc := [
  ⟨0x400A0000, [], [⟨0, 1, .rw, true, []⟩, ⟨1, 1, .rw, false, []⟩]⟩ /- AIO_CTRL -/,
  ⟨0x400A0004, [], [⟨0, 8, .ro, false, []⟩, ⟨8, 8, .ro, false, []⟩, ⟨16, 1, .ro, false, []⟩, ⟨17, 1, .ro, false, []⟩]⟩ /- AIO_STAT -/,
  ⟨0x400A0008, [], [⟨0, 8, .rw, false, []⟩]⟩ /- AIO_INTEN -/,
  ⟨0x400A000C, [], [⟨0, 1, .w1c, false, []⟩, ⟨1, 1, .w1c, false, []⟩, ⟨2, 1, .w1c, false, []⟩, ⟨3, 1, .w1c, false, []⟩, ⟨4, 1, .w1c, false, []⟩, ⟨5, 1, .w1c, false, []⟩, ⟨6, 1, .w1c, false, []⟩, ⟨7, 1, .w1c, false, []⟩]⟩ /- AIO_INTSTAT -/,
  ⟨0x400A0010, [], [⟨0, 3, .rw, false, []⟩, ⟨8, 3, .rw, false, [(1, 3)]⟩, ⟨16, 1, .sc, true, []⟩, ⟨17, 2, .ro, false, []⟩]⟩ /- AIO_AO_CMD -/,
  ⟨0x400A0080, [], [⟨0, 32, .rc, false, []⟩]⟩ /- AIO_CNT_SRCREJ -/,
  ⟨0x400A0100, [(8, 0x10)], [⟨0, 1, .rw, true, []⟩, ⟨1, 2, .rw, true, []⟩, ⟨3, 2, .rw, true, []⟩, ⟨5, 1, .rw, false, []⟩]⟩ /- AIO_AI_CFG -/,
  ⟨0x400A0104, [(8, 0x10)], [⟨0, 16, .ro, false, []⟩, ⟨16, 2, .ro, false, []⟩, ⟨24, 1, .ro, false, []⟩, ⟨25, 3, .ro, false, []⟩]⟩ /- AIO_AI_DATA -/,
  ⟨0x400A0108, [(8, 0x10)], [⟨0, 32, .ro, false, []⟩]⟩ /- AIO_AI_ENG -/,
  ⟨0x400A010C, [(8, 0x10)], [⟨0, 32, .ro, false, []⟩]⟩ /- AIO_AI_CNT -/,
  ⟨0x400A0200, [(8, 0x10)], [⟨0, 2, .rwl, true, [(0, 2)]⟩, ⟨8, 8, .rwl, true, [(1, 255)]⟩, ⟨16, 1, .rwl, true, []⟩]⟩ /- AIO_AO_CFG -/,
  ⟨0x400A0204, [(8, 0x10)], [⟨0, 16, .rwl, true, []⟩]⟩ /- AIO_AO_SAFECODE -/,
  ⟨0x400A0208, [(8, 0x10)], [⟨0, 16, .ro, false, []⟩]⟩ /- AIO_AO_CODE -/,
  ⟨0x400A020C, [(8, 0x10)], [⟨0, 2, .ro, false, []⟩, ⟨2, 1, .ro, false, []⟩, ⟨3, 1, .ro, false, []⟩]⟩ /- AIO_AO_STAT -/]

def regTableCan0 : List RegDesc := [
  ⟨0x400B0000, [(4, 0x4000)], [⟨0, 1, .rw, true, []⟩, ⟨1, 1, .rw, true, []⟩]⟩ /- CAN_CTRL -/,
  ⟨0x400B0004, [(4, 0x4000)], [⟨0, 2, .ro, false, []⟩, ⟨2, 1, .ro, false, []⟩, ⟨3, 1, .ro, false, []⟩, ⟨4, 1, .w1c, false, []⟩, ⟨8, 1, .ro, false, []⟩, ⟨9, 1, .ro, false, []⟩, ⟨10, 1, .ro, false, []⟩, ⟨16, 4, .ro, false, []⟩, ⟨24, 8, .ro, false, []⟩]⟩ /- CAN_STAT -/,
  ⟨0x400B0008, [(4, 0x4000)], [⟨0, 16, .rw, false, []⟩]⟩ /- CAN_INTEN -/,
  ⟨0x400B000C, [(4, 0x4000)], [⟨0, 1, .w1c, false, []⟩, ⟨1, 1, .w1c, false, []⟩, ⟨2, 1, .w1c, false, []⟩, ⟨3, 1, .w1c, false, []⟩, ⟨4, 1, .w1c, false, []⟩, ⟨5, 1, .w1c, false, []⟩, ⟨6, 1, .w1c, false, []⟩, ⟨7, 1, .w1c, false, []⟩, ⟨8, 1, .w1c, false, []⟩, ⟨9, 1, .w1c, false, []⟩, ⟨10, 1, .w1c, false, []⟩, ⟨11, 1, .w1c, false, []⟩, ⟨12, 1, .w1c, false, []⟩, ⟨13, 1, .w1c, false, []⟩, ⟨14, 1, .w1c, false, []⟩, ⟨15, 1, .w1c, false, []⟩]⟩ /- CAN_INTSTAT -/,
  ⟨0x400B0010, [(4, 0x4000)], [⟨0, 1, .rwOff, false, []⟩, ⟨1, 1, .rwOff, false, []⟩, ⟨2, 1, .rwOff, false, []⟩, ⟨3, 1, .rwOff, false, []⟩, ⟨4, 1, .rwOff, false, []⟩, ⟨5, 1, .rwOff, false, []⟩, ⟨6, 1, .rwOff, false, []⟩, ⟨7, 1, .rwOff, false, []⟩, ⟨8, 1, .rwOff, false, []⟩, ⟨9, 1, .rwOff, false, []⟩, ⟨16, 8, .rwOff, false, [(1, 255)]⟩]⟩ /- CAN_CFG -/,
  ⟨0x400B0014, [(4, 0x4000)], [⟨0, 9, .rwOff, false, []⟩, ⟨9, 8, .rwOff, false, []⟩, ⟨17, 7, .rwOff, false, []⟩, ⟨24, 7, .rwOff, false, []⟩, ⟨31, 1, .rwOff, false, []⟩]⟩ /- CAN_NBT -/,
  ⟨0x400B0018, [(4, 0x4000)], [⟨0, 5, .rwOff, false, []⟩, ⟨8, 5, .rwOff, false, []⟩, ⟨16, 4, .rwOff, false, []⟩, ⟨24, 4, .rwOff, false, []⟩, ⟨31, 1, .rwOff, false, []⟩]⟩ /- CAN_DBT -/,
  ⟨0x400B001C, [(4, 0x4000)], [⟨0, 7, .rwOff, false, []⟩, ⟨8, 7, .ro, false, []⟩]⟩ /- CAN_TDC -/,
  ⟨0x400B0020, [(4, 0x4000)], [⟨0, 8, .ro, false, []⟩, ⟨8, 8, .ro, false, []⟩, ⟨16, 2, .ro, false, []⟩, ⟨18, 1, .ro, false, []⟩, ⟨20, 4, .ro, false, []⟩, ⟨24, 8, .ro, false, []⟩]⟩ /- CAN_ERR -/,
  ⟨0x400B0024, [(4, 0x4000)], [⟨0, 3, .rw, false, [(1, 5)]⟩, ⟨8, 1, .sc, true, []⟩, ⟨9, 3, .ro, false, []⟩]⟩ /- CAN_CMD -/,
  ⟨0x400B0028, [(4, 0x4000)], [⟨0, 7, .rwOff, false, []⟩, ⟨8, 8, .rwOff, false, [(0, 128)]⟩, ⟨16, 8, .ro, false, []⟩, ⟨24, 7, .ro, false, []⟩]⟩ /- CAN_RXFIFO -/,
  ⟨0x400B002C, [(4, 0x4000)], [⟨0, 7, .rw, true, []⟩, ⟨8, 1, .rw, true, []⟩, ⟨9, 1, .wo, true, []⟩]⟩ /- CAN_RXLOCK -/,
  ⟨0x400B0030, [(4, 0x4000)], [⟨2, 13, .rw, false, []⟩]⟩ /- CAN_MADDR -/,
  ⟨0x400B0034, [(4, 0x4000)], [⟨0, 32, .rw, true, []⟩]⟩ /- CAN_MDATA -/,
  ⟨0x400B0038, [(4, 0x4000)], [⟨2, 10, .rw, false, []⟩]⟩ /- CAN_HADDR -/,
  ⟨0x400B003C, [(4, 0x4000)], [⟨0, 32, .ro, false, []⟩]⟩ /- CAN_HDATA -/,
  ⟨0x400B0040, [(4, 0x4000)], [⟨5, 27, .rw, false, []⟩]⟩ /- CAN_ASN_BASE -/,
  ⟨0x400B0044, [(4, 0x4000)], [⟨0, 4, .rw, true, [(4, 12)]⟩, ⟨4, 2, .rw, true, [(0, 2)]⟩, ⟨8, 4, .rw, true, []⟩, ⟨16, 12, .rw, true, []⟩]⟩ /- CAN_ASN_CFG -/,
  ⟨0x400B0048, [(4, 0x4000)], [⟨0, 16, .rw, false, [(1, 65535)]⟩]⟩ /- CAN_ASN_TMO -/,
  ⟨0x400B004C, [(4, 0x4000)], [⟨0, 16, .ro, false, []⟩]⟩ /- CAN_ASN_POST -/,
  ⟨0x400B0050, [(4, 0x4000)], [⟨0, 16, .ro, false, []⟩]⟩ /- CAN_ASN_REAP -/,
  ⟨0x400B0054, [(4, 0x4000)], [⟨0, 1, .ro, false, []⟩, ⟨1, 1, .w1c, false, []⟩, ⟨2, 1, .w1c, false, []⟩]⟩ /- CAN_ASN_STAT -/,
  ⟨0x400B0058, [(4, 0x4000)], [⟨0, 32, .rc, false, []⟩]⟩ /- CAN_ASN_DROP -/,
  ⟨0x400B005C, [(4, 0x4000)], [⟨0, 32, .rc, false, []⟩]⟩ /- CAN_ASN_TOCNT -/,
  ⟨0x400B0060, [(4, 0x4000)], [⟨0, 1, .wo, true, []⟩]⟩ /- CAN_ASN_KICK -/]

def regTableCan1 : List RegDesc := [
  ⟨0x400B0070, [(4, 0x4000)], [⟨0, 32, .ro, false, []⟩]⟩ /- CAN_TSCNT -/,
  ⟨0x400B0074, [(4, 0x4000)], [⟨0, 32, .ro, false, []⟩]⟩ /- CAN_TSC_CNT -/,
  ⟨0x400B0078, [(4, 0x4000)], [⟨0, 32, .ro, false, []⟩]⟩ /- CAN_TSC_MT_LO -/,
  ⟨0x400B007C, [(4, 0x4000)], [⟨0, 32, .ro, false, []⟩]⟩ /- CAN_TSC_MT_HI -/,
  ⟨0x400B0080, [(4, 0x4000), (2, 0x4)], [⟨0, 32, .w1s, true, []⟩]⟩ /- CAN_TXRQ -/,
  ⟨0x400B0088, [(4, 0x4000), (2, 0x4)], [⟨0, 32, .w1s, true, []⟩]⟩ /- CAN_TXCAN -/,
  ⟨0x400B0090, [(4, 0x4000), (2, 0x4)], [⟨0, 32, .w1c, false, []⟩]⟩ /- CAN_TXDONE -/,
  ⟨0x400B0098, [(4, 0x4000), (4, 0x4)], [⟨0, 32, .w1c, true, []⟩]⟩ /- CAN_RXNEW -/,
  ⟨0x400B00A8, [(4, 0x4000)], [⟨0, 6, .ro, false, []⟩, ⟨15, 1, .ro, false, []⟩, ⟨16, 15, .ro, false, []⟩]⟩ /- CAN_TXHALT -/,
  ⟨0x400B00B0, [(4, 0x4000)], [⟨0, 29, .rw, false, []⟩, ⟨29, 1, .rw, false, []⟩]⟩ /- CAN_WUF_ID -/,
  ⟨0x400B00B4, [(4, 0x4000)], [⟨0, 29, .rw, false, []⟩]⟩ /- CAN_WUF_MASK -/,
  ⟨0x400B00B8, [(4, 0x4000)], [⟨0, 1, .rw, false, []⟩, ⟨1, 4, .rw, false, []⟩, ⟨5, 1, .rw, false, []⟩, ⟨6, 2, .rw, false, []⟩, ⟨8, 3, .ro, false, []⟩]⟩ /- CAN_WUF_CFG -/,
  ⟨0x400B00BC, [(4, 0x4000), (2, 0x4)], [⟨0, 32, .rw, false, []⟩]⟩ /- CAN_WUF_D -/,
  ⟨0x400B00C4, [(4, 0x4000), (2, 0x4)], [⟨0, 32, .rw, false, []⟩]⟩ /- CAN_WUF_DM -/,
  ⟨0x400B0100, [(4, 0x4000)], [⟨0, 32, .rc, false, []⟩]⟩ /- CAN_CNT_RXOK -/,
  ⟨0x400B0104, [(4, 0x4000)], [⟨0, 32, .rc, false, []⟩]⟩ /- CAN_CNT_TXOK -/,
  ⟨0x400B0108, [(4, 0x4000)], [⟨0, 32, .rc, false, []⟩]⟩ /- CAN_CNT_REJ -/,
  ⟨0x400B010C, [(4, 0x4000)], [⟨0, 32, .rc, false, []⟩]⟩ /- CAN_CNT_RXOVR -/,
  ⟨0x400B0110, [(4, 0x4000)], [⟨0, 32, .rc, false, []⟩]⟩ /- CAN_CNT_FLTOVF -/,
  ⟨0x400B0114, [(4, 0x4000)], [⟨0, 32, .rc, false, []⟩]⟩ /- CAN_CNT_STNRX -/,
  ⟨0x400B0118, [(4, 0x4000)], [⟨0, 32, .rc, false, []⟩]⟩ /- CAN_CNT_ERR -/,
  ⟨0x400B011C, [(4, 0x4000)], [⟨0, 32, .rc, false, []⟩]⟩ /- CAN_CNT_ACKERR -/,
  ⟨0x400B0120, [(4, 0x4000)], [⟨0, 32, .rc, false, []⟩]⟩ /- CAN_CNT_PXE -/,
  ⟨0x400B0124, [(4, 0x4000)], [⟨0, 32, .rc, false, []⟩]⟩ /- CAN_CNT_ARBLOST -/]

def regTableCan : List RegDesc := regTableCan0 ++ regTableCan1

def regTableMem0 : List RegDesc := [
  ⟨0x40040000, [], [⟨0, 1, .rw, true, []⟩]⟩ /- MEM_CTRL -/,
  ⟨0x40040004, [], [⟨0, 2, .ro, false, []⟩, ⟨2, 1, .ro, false, []⟩, ⟨3, 1, .ro, false, []⟩, ⟨4, 1, .w1c, false, []⟩, ⟨8, 1, .ro, false, []⟩, ⟨9, 1, .ro, false, []⟩, ⟨16, 4, .ro, false, []⟩]⟩ /- MEM_STAT -/,
  ⟨0x40040008, [], [⟨0, 8, .rw, false, []⟩]⟩ /- MEM_INTEN -/,
  ⟨0x4004000C, [], [⟨0, 1, .w1c, false, []⟩, ⟨1, 1, .w1c, false, []⟩, ⟨2, 1, .w1c, false, []⟩, ⟨3, 1, .w1c, false, []⟩, ⟨4, 1, .w1c, false, []⟩, ⟨5, 1, .w1c, false, []⟩, ⟨6, 1, .w1c, false, []⟩, ⟨7, 1, .w1c, false, []⟩]⟩ /- MEM_INTSTAT -/,
  ⟨0x40040010, [], [⟨0, 2, .rwl, false, []⟩]⟩ /- MEM_PHASE -/,
  ⟨0x40040014, [], [⟨0, 12, .rw, false, [(1, 4095)]⟩, ⟨12, 1, .rw, false, []⟩, ⟨13, 1, .rw, false, []⟩, ⟨16, 8, .rw, false, [(1, 255)]⟩, ⟨24, 4, .rw, false, [(2, 15)]⟩]⟩ /- MEM_DRS_CFG -/,
  ⟨0x40040018, [], [⟨0, 11, .rw, false, []⟩]⟩ /- MEM_DRS_DLO -/,
  ⟨0x4004001C, [], [⟨0, 11, .rw, false, []⟩]⟩ /- MEM_DRS_DHI -/,
  ⟨0x40040020, [], [⟨0, 16, .ro, false, []⟩]⟩ /- MEM_DRS_POS -/,
  ⟨0x40040024, [], [⟨0, 32, .ro, false, []⟩]⟩ /- MEM_DRS_SWEEPS -/,
  ⟨0x40040028, [], [⟨0, 32, .ro, false, []⟩]⟩ /- MEM_DRS_DPOS -/,
  ⟨0x40040030, [], [⟨0, 32, .ro, false, []⟩]⟩ /- MEM_UE_ADDR -/,
  ⟨0x40040034, [], [⟨0, 3, .ro, false, []⟩, ⟨4, 8, .ro, false, []⟩, ⟨16, 5, .ro, false, []⟩, ⟨31, 1, .w1c, false, []⟩]⟩ /- MEM_UE_INFO -/,
  ⟨0x40040038, [], [⟨0, 32, .ro, false, []⟩]⟩ /- MEM_EGR_ADDR -/,
  ⟨0x4004003C, [], [⟨0, 4, .ro, false, []⟩, ⟨4, 4, .ro, false, []⟩, ⟨31, 1, .w1c, false, []⟩]⟩ /- MEM_EGR_INFO -/,
  ⟨0x40040040, [], [⟨0, 1, .w1c, true, []⟩, ⟨1, 1, .w1c, true, []⟩]⟩ /- MEM_EGR_HALT -/,
  ⟨0x40040050, [], [⟨0, 8, .rw, false, []⟩]⟩ /- MEM_SMAP_ADDR -/,
  ⟨0x40040054, [], [⟨0, 9, .rw, true, []⟩, ⟨15, 1, .rw, true, []⟩, ⟨16, 1, .ro, false, []⟩]⟩ /- MEM_SMAP_DATA -/,
  ⟨0x40040058, [], [⟨3, 29, .rw, false, []⟩]⟩ /- MEM_INJ_ADDR -/,
  ⟨0x4004005C, [], [⟨0, 3, .rw, false, [(1, 6)]⟩, ⟨8, 8, .rw, false, []⟩, ⟨16, 1, .sc, true, []⟩, ⟨17, 2, .ro, false, []⟩]⟩ /- MEM_INJ_CTRL -/,
  ⟨0x40040060, [], [⟨0, 1, .ro, false, []⟩, ⟨1, 1, .ro, false, []⟩, ⟨2, 1, .ro, false, []⟩, ⟨4, 3, .ro, false, []⟩, ⟨16, 8, .ro, false, []⟩]⟩ /- MEM_BIST -/,
  ⟨0x40040080, [(7, 0x4)], [⟨0, 32, .rc, false, []⟩]⟩ /- MEM_CNT_CORR -/,
  ⟨0x4004009C, [], [⟨0, 32, .rc, false, []⟩]⟩ /- MEM_CNT_UE -/,
  ⟨0x400400A0, [], [⟨0, 32, .rc, false, []⟩]⟩ /- MEM_CNT_STRMIS -/,
  ⟨0x400400A4, [], [⟨0, 32, .rc, false, []⟩]⟩ /- MEM_CNT_TAGFIX -/]

def regTableMem1 : List RegDesc := [
  ⟨0x400400A8, [], [⟨0, 32, .rc, false, []⟩]⟩ /- MEM_CNT_REPAIR -/,
  ⟨0x400400AC, [], [⟨0, 32, .rc, false, []⟩]⟩ /- MEM_CNT_RWQDROP -/,
  ⟨0x40040100, [(7, 0x8)], [⟨0, 8, .rw, false, [(1, 255)]⟩, ⟨16, 16, .rw, false, [(1, 65535)]⟩]⟩ /- MEM_LB_CFG -/,
  ⟨0x40040104, [(7, 0x8)], [⟨0, 8, .ro, false, []⟩, ⟨16, 16, .rc, false, []⟩]⟩ /- MEM_LB_STAT -/]

def regTableMem : List RegDesc := regTableMem0 ++ regTableMem1

def regTableKey0 : List RegDesc := [
  ⟨0x400C0000, [], [⟨0, 1, .rw, true, []⟩, ⟨1, 1, .rw, true, []⟩]⟩ /- KEY_CTRL -/,
  ⟨0x400C0004, [], [⟨0, 2, .ro, false, []⟩, ⟨2, 1, .ro, false, []⟩, ⟨3, 1, .ro, false, []⟩, ⟨4, 1, .w1c, false, []⟩, ⟨8, 1, .ro, false, []⟩, ⟨16, 4, .ro, false, []⟩]⟩ /- KEY_STAT -/,
  ⟨0x400C0008, [], [⟨0, 7, .rw, false, []⟩]⟩ /- KEY_INTEN -/,
  ⟨0x400C000C, [], [⟨0, 1, .w1c, false, []⟩, ⟨1, 1, .w1c, false, []⟩, ⟨2, 1, .w1c, false, []⟩, ⟨3, 1, .w1c, false, []⟩, ⟨4, 1, .w1c, false, []⟩, ⟨5, 1, .w1c, false, []⟩, ⟨6, 1, .w1c, false, []⟩]⟩ /- KEY_INTSTAT -/,
  ⟨0x400C0010, [], [⟨6, 26, .rwOff, false, []⟩]⟩ /- KEY_CQBASE -/,
  ⟨0x400C0014, [], [⟨0, 4, .rwOff, false, [(2, 10)]⟩]⟩ /- KEY_CQCFG -/,
  ⟨0x400C0018, [], [⟨0, 16, .rw, true, []⟩]⟩ /- KEY_CQTAIL -/,
  ⟨0x400C001C, [], [⟨0, 16, .ro, false, []⟩]⟩ /- KEY_CQHEAD -/,
  ⟨0x400C0020, [], [⟨0, 6, .rw, false, []⟩, ⟨8, 2, .rw, false, [(1, 2)]⟩, ⟨16, 1, .sc, true, []⟩, ⟨17, 2, .ro, false, []⟩]⟩ /- KEY_SCMD -/,
  ⟨0x400C0024, [], [⟨0, 6, .rw, false, []⟩]⟩ /- KEY_SADDR -/,
  ⟨0x400C0028, [], [⟨0, 4, .ro, false, []⟩, ⟨4, 1, .ro, false, []⟩, ⟨5, 1, .ro, false, []⟩, ⟨6, 2, .ro, false, []⟩, ⟨8, 8, .ro, false, []⟩, ⟨16, 16, .ro, false, []⟩]⟩ /- KEY_SATTR -/,
  ⟨0x400C002C, [], [⟨0, 16, .ro, false, []⟩, ⟨16, 16, .ro, false, []⟩]⟩ /- KEY_SGEN -/,
  ⟨0x400C0030, [], [⟨0, 16, .ro, false, []⟩, ⟨16, 16, .ro, false, []⟩]⟩ /- KEY_SPURP -/,
  ⟨0x400C0034, [], [⟨0, 2, .ro, false, []⟩, ⟨2, 1, .ro, false, []⟩, ⟨3, 1, .ro, false, []⟩, ⟨16, 16, .ro, false, []⟩]⟩ /- KEY_PUF -/,
  ⟨0x400C0038, [], [⟨0, 2, .ro, false, []⟩, ⟨2, 1, .ro, false, []⟩, ⟨4, 7, .ro, false, []⟩, ⟨11, 1, .ro, false, []⟩, ⟨12, 1, .ro, false, []⟩]⟩ /- KEY_TAMP -/,
  ⟨0x400C003C, [], [⟨0, 1, .sc, true, []⟩, ⟨1, 1, .wo, true, []⟩, ⟨2, 2, .ro, false, []⟩]⟩ /- KEY_TAMP_CMD -/,
  ⟨0x400C0040, [], [⟨5, 27, .rw, false, []⟩]⟩ /- KEY_ASN_BASE -/,
  ⟨0x400C0044, [], [⟨0, 4, .rw, true, [(4, 12)]⟩, ⟨4, 2, .rw, true, [(0, 2)]⟩, ⟨8, 4, .rw, true, []⟩, ⟨16, 12, .rw, true, []⟩]⟩ /- KEY_ASN_CFG -/,
  ⟨0x400C0048, [], [⟨0, 16, .rw, false, [(1, 65535)]⟩]⟩ /- KEY_ASN_TMO -/,
  ⟨0x400C004C, [], [⟨0, 16, .ro, false, []⟩]⟩ /- KEY_ASN_POST -/,
  ⟨0x400C0050, [], [⟨0, 16, .ro, false, []⟩]⟩ /- KEY_ASN_REAP -/,
  ⟨0x400C0054, [], [⟨0, 1, .ro, false, []⟩, ⟨1, 1, .w1c, false, []⟩, ⟨2, 1, .w1c, false, []⟩]⟩ /- KEY_ASN_STAT -/,
  ⟨0x400C0058, [], [⟨0, 32, .rc, false, []⟩]⟩ /- KEY_ASN_DROP -/,
  ⟨0x400C005C, [], [⟨0, 32, .rc, false, []⟩]⟩ /- KEY_ASN_TOCNT -/,
  ⟨0x400C0060, [], [⟨0, 1, .wo, true, []⟩]⟩ /- KEY_ASN_KICK -/]

def regTableKey1 : List RegDesc := [
  ⟨0x400C0070, [], [⟨0, 2, .ro, false, []⟩, ⟨2, 1, .rw, false, []⟩, ⟨3, 1, .sc, true, []⟩]⟩ /- KEY_DRBG -/,
  ⟨0x400C0074, [], [⟨0, 32, .ro, false, []⟩]⟩ /- KEY_DRBG_CNT -/,
  ⟨0x400C0080, [(8, 0x4)], [⟨0, 32, .ro, false, []⟩]⟩ /- KEY_MEAS -/,
  ⟨0x400C00A0, [(8, 0x4)], [⟨0, 32, .ro, false, []⟩]⟩ /- KEY_SUCC -/,
  ⟨0x400C00C0, [], [⟨0, 1, .ro, false, []⟩, ⟨1, 1, .ro, false, []⟩, ⟨8, 8, .ro, false, []⟩]⟩ /- KEY_MSTAT -/,
  ⟨0x400C0100, [], [⟨0, 32, .rc, false, []⟩]⟩ /- KEY_CNT_OPS -/,
  ⟨0x400C0104, [], [⟨0, 32, .rc, false, []⟩]⟩ /- KEY_CNT_REVOKED -/,
  ⟨0x400C0108, [], [⟨0, 32, .rc, false, []⟩]⟩ /- KEY_CNT_STALE -/,
  ⟨0x400C010C, [], [⟨0, 32, .rc, false, []⟩]⟩ /- KEY_CNT_AUTHFAIL -/,
  ⟨0x400C0110, [], [⟨0, 32, .rc, false, []⟩]⟩ /- KEY_CNT_USEREF -/]

def regTableKey : List RegDesc := regTableKey0 ++ regTableKey1

def regTableEvt0 : List RegDesc := [
  ⟨0x400D0000, [], [⟨0, 1, .rw, true, []⟩, ⟨1, 1, .rw, true, []⟩]⟩ /- EVT_CTRL -/,
  ⟨0x400D0004, [], [⟨0, 2, .ro, false, []⟩, ⟨2, 1, .ro, false, []⟩, ⟨3, 1, .ro, false, []⟩, ⟨4, 1, .w1c, false, []⟩, ⟨8, 1, .ro, false, []⟩, ⟨9, 1, .ro, false, []⟩, ⟨16, 4, .ro, false, []⟩]⟩ /- EVT_STAT -/,
  ⟨0x400D0008, [], [⟨0, 5, .rw, false, []⟩]⟩ /- EVT_INTEN -/,
  ⟨0x400D000C, [], [⟨0, 1, .w1c, false, []⟩, ⟨1, 1, .w1c, false, []⟩, ⟨2, 1, .w1c, false, []⟩, ⟨3, 1, .w1c, false, []⟩, ⟨4, 1, .w1c, false, []⟩]⟩ /- EVT_INTSTAT -/,
  ⟨0x400D0010, [], [⟨26, 6, .rwl, false, []⟩]⟩ /- EVT_RBASE -/,
  ⟨0x400D0014, [], [⟨12, 11, .rwl, false, []⟩]⟩ /- EVT_TBASE -/,
  ⟨0x400D0018, [], [⟨0, 6, .rw, false, []⟩]⟩ /- EVT_CFG; bits [7:6] of a class byte are reserved (R437) -/,
  ⟨0x400D001C, [], [⟨2, 10, .rw, false, []⟩]⟩ /- EVT_CADDR -/,
  ⟨0x400D0020, [], [⟨0, 32, .rw, true, []⟩]⟩ /- EVT_CDATA -/,
  ⟨0x400D0024, [], [⟨0, 2, .rw, false, [(1, 2)]⟩, ⟨8, 1, .sc, true, []⟩, ⟨9, 1, .ro, false, []⟩]⟩ /- EVT_CMD -/,
  ⟨0x400D0028, [], [⟨6, 26, .rwOff, false, []⟩]⟩ /- EVT_ASN_SCR -/,
  ⟨0x400D0040, [], [⟨5, 27, .rw, false, []⟩]⟩ /- EVT_ASN_BASE -/,
  ⟨0x400D0044, [], [⟨0, 4, .rw, true, [(4, 12)]⟩, ⟨4, 2, .rw, true, [(0, 2)]⟩, ⟨8, 4, .rw, true, []⟩, ⟨16, 12, .rw, true, []⟩]⟩ /- EVT_ASN_CFG -/,
  ⟨0x400D0048, [], [⟨0, 16, .rw, false, [(1, 65535)]⟩]⟩ /- EVT_ASN_TMO -/,
  ⟨0x400D004C, [], [⟨0, 16, .ro, false, []⟩]⟩ /- EVT_ASN_POST -/,
  ⟨0x400D0050, [], [⟨0, 16, .ro, false, []⟩]⟩ /- EVT_ASN_REAP -/,
  ⟨0x400D0054, [], [⟨0, 1, .ro, false, []⟩, ⟨1, 1, .w1c, false, []⟩, ⟨2, 1, .w1c, false, []⟩]⟩ /- EVT_ASN_STAT -/,
  ⟨0x400D0058, [], [⟨0, 32, .rc, false, []⟩]⟩ /- EVT_ASN_DROP -/,
  ⟨0x400D005C, [], [⟨0, 32, .rc, false, []⟩]⟩ /- EVT_ASN_TOCNT -/,
  ⟨0x400D0060, [], [⟨0, 1, .wo, true, []⟩]⟩ /- EVT_ASN_KICK -/,
  ⟨0x400D0070, [], [⟨0, 32, .ro, false, []⟩]⟩ /- EVT_NEXT_LO -/,
  ⟨0x400D0074, [], [⟨0, 32, .ro, false, []⟩]⟩ /- EVT_NEXT_HI -/,
  ⟨0x400D0078, [], [⟨0, 32, .ro, false, []⟩]⟩ /- EVT_OLDEST_LO -/,
  ⟨0x400D007C, [], [⟨0, 32, .ro, false, []⟩]⟩ /- EVT_OLDEST_HI -/,
  ⟨0x400D0080, [], [⟨0, 32, .ro, false, []⟩]⟩ /- EVT_FLOOR_LO -/]

def regTableEvt1 : List RegDesc := [
  ⟨0x400D0084, [], [⟨0, 32, .ro, false, []⟩]⟩ /- EVT_FLOOR_HI -/,
  ⟨0x400D0088, [], [⟨0, 32, .ro, false, []⟩]⟩ /- EVT_TNEXT -/,
  ⟨0x400D008C, [], [⟨0, 32, .ro, false, []⟩]⟩ /- EVT_TFIRST -/,
  ⟨0x400D0090, [], [⟨0, 10, .ro, false, []⟩]⟩ /- EVT_STAGE -/,
  ⟨0x400D00A0, [], [⟨0, 32, .rc, false, []⟩]⟩ /- EVT_CNT_REC -/,
  ⟨0x400D00A4, [], [⟨0, 32, .rc, false, []⟩]⟩ /- EVT_CNT_DROP -/,
  ⟨0x400D00A8, [], [⟨0, 32, .rc, false, []⟩]⟩ /- EVT_CNT_TAILDROP -/,
  ⟨0x400D00AC, [], [⟨0, 32, .rc, false, []⟩]⟩ /- EVT_CNT_SUPP -/,
  ⟨0x400D00B0, [], [⟨0, 32, .rc, false, []⟩]⟩ /- EVT_CNT_UNFMT -/,
  ⟨0x400D00B4, [], [⟨0, 32, .rc, false, []⟩]⟩ /- EVT_CNT_TAILBAD -/,
  ⟨0x400D0100, [(17, 0x1000000)], [⟨0, 16, .rw, false, []⟩, ⟨16, 8, .rw, false, []⟩]⟩ /- EVT_SW_HDR -/,
  ⟨0x400D0104, [(17, 0x1000000)], [⟨0, 16, .rw, false, []⟩]⟩ /- EVT_SW_UNIT -/,
  ⟨0x400D0108, [(17, 0x1000000), (8, 0x4)], [⟨0, 32, .rw, false, []⟩]⟩ /- EVT_SW_ARG -/,
  ⟨0x400D0128, [(17, 0x1000000)], [⟨0, 1, .sc, true, []⟩, ⟨1, 2, .ro, false, []⟩]⟩ /- EVT_SW_GO -/]

def regTableEvt : List RegDesc := regTableEvt0 ++ regTableEvt1

def regTablePair : List RegDesc := [
  ⟨0x400E0000, [], [⟨0, 2, .rwl, false, [(0, 1)]⟩, ⟨2, 1, .rwl, false, []⟩, ⟨3, 1, .rwl, false, []⟩, ⟨4, 1, .rwl, false, []⟩, ⟨16, 12, .rwl, false, []⟩]⟩ /- PAIR_CFG -/,
  ⟨0x400E0004, [], [⟨0, 3, .ro, false, []⟩, ⟨3, 1, .ro, false, []⟩, ⟨4, 1, .ro, false, []⟩, ⟨5, 1, .ro, false, []⟩, ⟨6, 1, .ro, false, []⟩, ⟨7, 1, .ro, false, []⟩, ⟨8, 1, .ro, false, []⟩, ⟨9, 1, .ro, false, []⟩, ⟨10, 1, .ro, false, []⟩, ⟨16, 12, .ro, false, []⟩]⟩ /- PAIR_STAT -/,
  ⟨0x400E0008, [], [⟨0, 11, .rw, false, []⟩]⟩ /- PAIR_INTEN -/,
  ⟨0x400E000C, [], [⟨0, 1, .w1c, false, []⟩, ⟨1, 1, .w1c, false, []⟩, ⟨2, 1, .w1c, false, []⟩, ⟨3, 1, .w1c, false, []⟩, ⟨4, 1, .w1c, false, []⟩, ⟨5, 1, .w1c, false, []⟩, ⟨6, 1, .w1c, false, []⟩, ⟨7, 1, .w1c, false, []⟩, ⟨8, 1, .w1c, false, []⟩, ⟨9, 1, .w1c, false, []⟩, ⟨10, 1, .w1c, false, []⟩]⟩ /- PAIR_INTSTAT -/,
  ⟨0x400E0010, [], [⟨0, 12, .rwl, false, [(1, 4094)]⟩]⟩ /- PAIR_SNODE -/,
  ⟨0x400E0014, [], [⟨0, 32, .ro, false, []⟩]⟩ /- PAIR_EPOCH -/,
  ⟨0x400E0018, [], [⟨0, 32, .ro, false, []⟩]⟩ /- PAIR_PEPOCH -/,
  ⟨0x400E001C, [], [⟨0, 8, .rwl, false, [(1, 100)]⟩, ⟨8, 8, .rwl, false, [(3, 255)]⟩, ⟨16, 16, .rwl, false, [(100, 10000)]⟩]⟩ /- PAIR_FTL -/,
  ⟨0x400E0020, [], [⟨16, 16, .rwl, false, []⟩]⟩ /- PAIR_MBASE -/,
  ⟨0x400E0024, [], [⟨0, 4, .rwl, false, [(6, 10)]⟩]⟩ /- PAIR_MSIZE -/,
  ⟨0x400E0028, [], [⟨0, 10, .rwl, false, [(1, 1000)]⟩]⟩ /- PAIR_LSYNC -/,
  ⟨0x400E002C, [], [⟨0, 2, .rw, false, [(1, 3)]⟩, ⟨8, 1, .sc, true, []⟩, ⟨9, 2, .ro, false, []⟩]⟩ /- PAIR_CMD -/,
  ⟨0x400E0030, [], [⟨0, 32, .rwl, false, []⟩]⟩ /- PAIR_CFGID -/,
  ⟨0x400E0080, [], [⟨0, 1, .rw, true, []⟩]⟩ /- PAIR_MCH_CTRL -/,
  ⟨0x400E0084, [], [⟨0, 2, .ro, false, []⟩, ⟨2, 1, .ro, false, []⟩, ⟨3, 1, .ro, false, []⟩, ⟨4, 1, .w1c, false, []⟩, ⟨16, 4, .ro, false, []⟩]⟩ /- PAIR_MCH_STAT -/,
  ⟨0x400E0088, [], [⟨0, 32, .ro, false, []⟩]⟩ /- PAIR_MSEQ_TX -/,
  ⟨0x400E008C, [], [⟨0, 32, .ro, false, []⟩]⟩ /- PAIR_MSEQ_RX -/,
  ⟨0x400E0090, [], [⟨0, 32, .rc, false, []⟩]⟩ /- PAIR_CNT_FTP4 -/,
  ⟨0x400E0094, [], [⟨0, 32, .rc, false, []⟩]⟩ /- PAIR_CNT_FTFAB -/,
  ⟨0x400E0098, [], [⟨0, 32, .rc, false, []⟩]⟩ /- PAIR_CNT_BATCH -/,
  ⟨0x400E009C, [], [⟨0, 32, .rc, false, []⟩]⟩ /- PAIR_CNT_MIRLOST -/,
  ⟨0x400E00A0, [], [⟨0, 32, .rc, false, []⟩]⟩ /- PAIR_CNT_P4DISC -/,
  ⟨0x400E00A4, [], [⟨0, 32, .rc, false, []⟩]⟩ /- PAIR_CNT_TAKEOVER -/,
  ⟨0x400E0100, [(8, 0x4)], [⟨0, 32, .rwl, false, []⟩]⟩ /- PAIR_TMASK -/,
  ⟨0x400E0120, [(8, 0x4)], [⟨0, 32, .rwl, false, []⟩]⟩ /- PAIR_LMASK -/]

def regTableUpd0 : List RegDesc := [
  ⟨0x400F0000, [], [⟨0, 1, .rw, true, []⟩]⟩ /- UPD_CTRL -/,
  ⟨0x400F0004, [], [⟨0, 2, .ro, false, []⟩, ⟨2, 1, .ro, false, []⟩, ⟨3, 1, .ro, false, []⟩, ⟨4, 1, .w1c, false, []⟩, ⟨8, 1, .ro, false, []⟩, ⟨9, 1, .ro, false, []⟩, ⟨16, 4, .ro, false, []⟩]⟩ /- UPD_STAT -/,
  ⟨0x400F0008, [], [⟨0, 6, .rw, false, []⟩]⟩ /- UPD_INTEN -/,
  ⟨0x400F000C, [], [⟨0, 1, .w1c, false, []⟩, ⟨1, 1, .w1c, false, []⟩, ⟨2, 1, .w1c, false, []⟩, ⟨3, 1, .w1c, false, []⟩, ⟨4, 1, .w1c, false, []⟩, ⟨5, 1, .w1c, false, []⟩]⟩ /- UPD_INTSTAT -/,
  ⟨0x400F0010, [], [⟨0, 4, .rw, false, [(1, 9)]⟩, ⟨4, 1, .rw, false, []⟩, ⟨8, 1, .sc, true, []⟩, ⟨12, 4, .ro, false, []⟩]⟩ /- UPD_CMD -/,
  ⟨0x400F0014, [], [⟨0, 3, .ro, false, []⟩]⟩ /- UPD_PHASE -/,
  ⟨0x400F0018, [], [⟨0, 7, .rw, false, [(5, 100)]⟩]⟩ /- UPD_HOLD -/,
  ⟨0x400F001C, [], [⟨12, 20, .rwOff, false, []⟩]⟩ /- UPD_MSTAGE -/,
  ⟨0x400F0020, [], [⟨0, 17, .ro, false, []⟩]⟩ /- UPD_BAYEXEC -/,
  ⟨0x400F0024, [], [⟨0, 17, .ro, false, []⟩]⟩ /- UPD_BAYNEXT -/,
  ⟨0x400F0028, [], [⟨0, 1, .ro, false, []⟩, ⟨1, 3, .ro, false, []⟩, ⟨4, 3, .ro, false, []⟩, ⟨7, 1, .ro, false, []⟩, ⟨8, 1, .ro, false, []⟩]⟩ /- UPD_BOOT -/,
  ⟨0x400F002C, [(2, 0x4)], [⟨0, 3, .ro, false, []⟩, ⟨4, 4, .ro, false, []⟩]⟩ /- UPD_SLOT_STAT -/,
  ⟨0x400F0034, [], [⟨0, 32, .ro, false, []⟩]⟩ /- UPD_RVER_LO -/,
  ⟨0x400F0038, [], [⟨0, 32, .ro, false, []⟩]⟩ /- UPD_RVER_HI -/,
  ⟨0x400F003C, [], [⟨0, 32, .ro, false, []⟩]⟩ /- UPD_SVER_LO -/,
  ⟨0x400F0040, [], [⟨0, 32, .ro, false, []⟩]⟩ /- UPD_SVER_HI -/,
  ⟨0x400F0044, [], [⟨0, 32, .ro, false, []⟩]⟩ /- UPD_SVN -/,
  ⟨0x400F0048, [], [⟨0, 16, .ro, false, []⟩, ⟨16, 12, .ro, false, []⟩]⟩ /- UPD_XFER -/,
  ⟨0x400F004C, [], [⟨0, 32, .ro, false, []⟩]⟩ /- UPD_XOFS -/,
  ⟨0x400F0050, [(8, 0x4)], [⟨0, 32, .ro, false, []⟩]⟩ /- UPD_SMEAS -/,
  ⟨0x400F0070, [], [⟨0, 32, .ro, false, []⟩]⟩ /- UPD_FADDR -/,
  ⟨0x400F0080, [], [⟨0, 32, .rc, false, []⟩]⟩ /- UPD_CNT_BULKRX -/,
  ⟨0x400F0084, [], [⟨0, 32, .rc, false, []⟩]⟩ /- UPD_CNT_CRCERR -/,
  ⟨0x400F0088, [], [⟨0, 32, .rc, false, []⟩]⟩ /- UPD_CNT_VERIFY -/,
  ⟨0x400F008C, [], [⟨0, 32, .rc, false, []⟩]⟩ /- UPD_CNT_HANDOVER -/]

def regTableUpd1 : List RegDesc := [
  ⟨0x400F0090, [], [⟨0, 32, .rc, false, []⟩]⟩ /- UPD_CNT_ABORT -/]

def regTableUpd : List RegDesc := regTableUpd0 ++ regTableUpd1

def regTablePwr : List RegDesc := [
  ⟨0x40100000, [], [⟨6, 17, .rwl, false, []⟩]⟩ /- PWR_CFG -/,
  ⟨0x40100004, [], [⟨0, 2, .ro, false, []⟩, ⟨2, 1, .ro, false, []⟩, ⟨3, 1, .ro, false, []⟩, ⟨4, 1, .ro, false, []⟩, ⟨5, 1, .ro, false, []⟩, ⟨6, 1, .ro, false, []⟩, ⟨7, 1, .ro, false, []⟩, ⟨8, 1, .ro, false, []⟩, ⟨9, 1, .ro, false, []⟩, ⟨10, 1, .ro, false, []⟩, ⟨11, 1, .ro, false, []⟩, ⟨12, 1, .ro, false, []⟩, ⟨16, 2, .ro, false, []⟩]⟩ /- PWR_STAT -/,
  ⟨0x40100008, [], [⟨0, 7, .rw, false, []⟩]⟩ /- PWR_INTEN -/,
  ⟨0x4010000C, [], [⟨0, 1, .w1c, false, []⟩, ⟨1, 1, .w1c, false, []⟩, ⟨2, 1, .w1c, false, []⟩, ⟨3, 1, .w1c, false, []⟩, ⟨4, 1, .w1c, false, []⟩, ⟨5, 1, .w1c, false, []⟩, ⟨6, 1, .w1c, false, []⟩]⟩ /- PWR_INTSTAT -/,
  ⟨0x40100010, [], [⟨0, 16, .ro, false, []⟩]⟩ /- PWR_VIN -/,
  ⟨0x40100014, [], [⟨0, 16, .ro, false, []⟩]⟩ /- PWR_VHU -/,
  ⟨0x40100018, [], [⟨0, 16, .ro, false, []⟩]⟩ /- PWR_PIN -/,
  ⟨0x4010001C, [], [⟨0, 16, .ro, false, []⟩]⟩ /- PWR_HUCAP -/,
  ⟨0x40100020, [], [⟨0, 2, .rw, false, [(1, 2)]⟩, ⟨8, 1, .sc, true, []⟩, ⟨9, 2, .ro, false, []⟩]⟩ /- PWR_CMD -/,
  ⟨0x40100024, [], [⟨0, 32, .ro, false, []⟩]⟩ /- PWR_BRK_LO -/,
  ⟨0x40100028, [], [⟨0, 32, .ro, false, []⟩]⟩ /- PWR_BRK_HI -/,
  ⟨0x4010002C, [], [⟨0, 16, .ro, false, []⟩, ⟨16, 16, .ro, false, []⟩]⟩ /- PWR_BRKTIME -/,
  ⟨0x40100030, [], [⟨0, 32, .ro, false, []⟩]⟩ /- PWR_DIP -/,
  ⟨0x40100034, [], [⟨0, 16, .ro, false, []⟩]⟩ /- PWR_HUMIN -/,
  ⟨0x40100080, [], [⟨0, 32, .rc, false, []⟩]⟩ /- PWR_CNT_BRAKE -/,
  ⟨0x40100084, [], [⟨0, 32, .rc, false, []⟩]⟩ /- PWR_CNT_RESUME -/,
  ⟨0x40100088, [], [⟨0, 32, .rc, false, []⟩]⟩ /- PWR_CNT_INLOW -/]

def regTableRtc : List RegDesc := [
  ⟨0x40110000, [], [⟨0, 1, .ro, false, []⟩, ⟨1, 1, .ro, false, []⟩, ⟨2, 2, .ro, false, []⟩, ⟨4, 1, .ro, false, []⟩, ⟨5, 1, .ro, false, []⟩, ⟨6, 1, .ro, false, []⟩, ⟨7, 1, .ro, false, []⟩, ⟨8, 1, .ro, false, []⟩]⟩ /- RTC_STAT -/,
  ⟨0x40110004, [], [⟨0, 6, .rw, false, []⟩]⟩ /- RTC_INTEN -/,
  ⟨0x40110008, [], [⟨0, 1, .w1c, false, []⟩, ⟨1, 1, .w1c, false, []⟩, ⟨2, 1, .w1c, false, []⟩, ⟨3, 1, .w1c, false, []⟩, ⟨4, 1, .w1c, false, []⟩, ⟨5, 1, .w1c, false, []⟩]⟩ /- RTC_INTSTAT -/,
  ⟨0x4011000C, [], [⟨0, 2, .rw, false, [(1, 3)]⟩, ⟨8, 1, .sc, true, []⟩, ⟨9, 2, .ro, false, []⟩]⟩ /- RTC_CMD -/,
  ⟨0x40110010, [], [⟨0, 15, .ro, false, []⟩]⟩ /- RTC_SUBSEC -/,
  ⟨0x40110014, [], [⟨0, 6, .ro, false, []⟩]⟩ /- RTC_SEC -/,
  ⟨0x40110018, [], [⟨0, 6, .ro, false, []⟩]⟩ /- RTC_MIN -/,
  ⟨0x4011001C, [], [⟨0, 5, .ro, false, []⟩]⟩ /- RTC_HOUR -/,
  ⟨0x40110020, [], [⟨0, 5, .ro, false, []⟩, ⟨8, 3, .ro, false, []⟩]⟩ /- RTC_DAY -/,
  ⟨0x40110024, [], [⟨0, 4, .ro, false, []⟩]⟩ /- RTC_MON -/,
  ⟨0x40110028, [], [⟨0, 16, .ro, false, []⟩]⟩ /- RTC_YEAR -/,
  ⟨0x40110030, [], [⟨0, 6, .rw, false, []⟩]⟩ /- RTC_SSEC -/,
  ⟨0x40110034, [], [⟨0, 6, .rw, false, []⟩]⟩ /- RTC_SMIN -/,
  ⟨0x40110038, [], [⟨0, 5, .rw, false, []⟩]⟩ /- RTC_SHOUR -/,
  ⟨0x4011003C, [], [⟨0, 5, .rw, false, []⟩]⟩ /- RTC_SDAY -/,
  ⟨0x40110040, [], [⟨0, 4, .rw, false, []⟩]⟩ /- RTC_SMON -/,
  ⟨0x40110044, [], [⟨0, 16, .rw, false, []⟩]⟩ /- RTC_SYEAR -/,
  ⟨0x40110048, [], [⟨0, 32, .rw, false, []⟩]⟩ /- RTC_SYNC_LO -/,
  ⟨0x4011004C, [], [⟨0, 32, .rw, false, []⟩]⟩ /- RTC_SYNC_HI -/,
  ⟨0x40110050, [], [⟨0, 2, .rwl, false, [(0, 2)]⟩, ⟨2, 2, .rwl, false, []⟩, ⟨4, 2, .rwl, false, [(0, 1)]⟩]⟩ /- RTC_TCH -/,
  ⟨0x40110054, [], [⟨0, 1, .rwl, false, []⟩, ⟨1, 1, .rwl, false, []⟩, ⟨2, 1, .rwl, false, []⟩, ⟨4, 1, .rwl, false, []⟩, ⟨5, 1, .rwl, false, []⟩, ⟨6, 1, .rwl, false, []⟩]⟩ /- RTC_TAMPCFG -/,
  ⟨0x40110058, [], [⟨0, 2, .ro, false, []⟩, ⟨2, 7, .ro, false, []⟩]⟩ /- RTC_TLATCH -/,
  ⟨0x4011005C, [], [⟨0, 12, .ro, false, []⟩]⟩ /- RTC_VBAT -/,
  ⟨0x40110060, [], [⟨0, 32, .ro, false, []⟩]⟩ /- RTC_BKCRC -/,
  ⟨0x40110100, [(16, 0x4)], [⟨0, 32, .rw, true, []⟩]⟩ /- RTC_BKP -/]

def regTableSys : List RegDesc := [
  ⟨0x40000000, [], [⟨0, 16, .ro, false, []⟩, ⟨16, 4, .ro, false, []⟩]⟩ /- SYS_ID -/,
  ⟨0x40000004, [], [⟨0, 4, .ro, false, []⟩]⟩ /- SYS_RSTCAUSE -/,
  ⟨0x40000008, [], [⟨0, 2, .rwl, false, [(0, 2)]⟩, ⟨2, 1, .rwl, false, []⟩, ⟨3, 1, .rwl, false, []⟩, ⟨4, 1, .rwl, false, []⟩, ⟨5, 1, .rwl, false, []⟩, ⟨6, 1, .rwl, false, []⟩, ⟨8, 2, .rwl, false, []⟩]⟩ /- SYS_START -/,
  ⟨0x4000000C, [], [⟨0, 1, .w1s, true, []⟩]⟩ /- SYS_LOCK -/,
  ⟨0x40000010, [], [⟨0, 2, .rw, false, [(1, 2)]⟩, ⟨8, 1, .sc, true, []⟩]⟩ /- SYS_RST -/,
  ⟨0x40000014, [], [⟨0, 14, .rwl, false, [(0, 0), (10, 10000)]⟩]⟩ /- SYS_WDT -/,
  ⟨0x40000018, [], [⟨0, 1, .wo, true, []⟩]⟩ /- SYS_WDTKICK -/,
  ⟨0x4000001C, [], [⟨0, 10, .rwl, false, [(0, 600)]⟩]⟩ /- SYS_STARTCFG -/,
  ⟨0x40000020, [], [⟨0, 32, .ro, false, []⟩]⟩ /- SYS_MT_LO -/,
  ⟨0x40000024, [], [⟨0, 32, .ro, false, []⟩]⟩ /- SYS_MT_HI -/,
  ⟨0x40000028, [], [⟨0, 32, .rw, false, []⟩]⟩ /- SYS_MTINIT_LO -/,
  ⟨0x4000002C, [], [⟨0, 32, .rw, false, []⟩]⟩ /- SYS_MTINIT_HI -/,
  ⟨0x40000030, [], [⟨0, 1, .sc, true, []⟩]⟩ /- SYS_MTCMD -/,
  ⟨0x40000034, [], [⟨0, 32, .ro, false, []⟩]⟩ /- SYS_TLOCK -/,
  ⟨0x40000038, [], [⟨0, 32, .ro, false, []⟩]⟩ /- SYS_TREL -/]

/-- The table of the block whose 64 KiB window holds the address (ch01, *Address map*: the register-block bases). The
CAN controllers share one window. -/
def regTableOf (addr : Nat) : List RegDesc :=
  match addr / 0x10000 - 0x4000 with
  | 0 => regTableSys
  | 1 => regTableSch
  | 2 => regTableImg
  | 3 => regTableHop
  | 4 => regTableMem
  | 5 => regTableFab
  | 6 => regTableGate
  | 7 => regTableLoop
  | 8 => regTableMtr
  | 9 => regTableDio
  | 10 => regTableAio
  | 11 => regTableCan
  | 12 => regTableKey
  | 13 => regTableEvt
  | 14 => regTablePair
  | 15 => regTableUpd
  | 16 => regTablePwr
  | 17 => regTableRtc
  | _ => []

/-- Whether the address is an element of the array `dims` from `base`. -/
def RegDesc.covers (base : Nat) : List (Nat × Nat) → Nat → Bool
  | [], a => a == base
  | (count, stride) :: rest, a =>
    if a < base then false
    else
      let i := (a - base) / stride
      i < count && RegDesc.covers (base + i * stride) rest a

/-- Whether the register (or one of the array) is at the address. -/
def RegDesc.holds (d : RegDesc) (a : Nat) : Bool := RegDesc.covers d.base d.dims a

/-- The register at a bus address, none where an offset holds no register (R25). -/
def regAt (a : Nat) : Option RegDesc := (regTableOf a).find? (·.holds a)

/-- Whether a value of a field is not reserved (R10). -/
def FieldDesc.allows (f : FieldDesc) (v : Nat) : Bool :=
  f.legal.isEmpty || f.legal.any fun (lo, hi) => lo ≤ v && v ≤ hi

end Sys2Proof.Machine
end

