-- ==== Sys2Proof/Machine/Resets.lean ====
section
/-!
DEFINITION. The reset value of every register (R14): the value the spec's tables state, 0 for every register not
listed here (the tables state 0x0000_0000 for them).
-/

namespace Sys2Proof.Machine

/-- The registers whose reset value is not 0: address, array, value. -/
def nonzeroResets : List (Nat × List (Nat × Nat) × BitVec 32) := [
  (0x4001001C, [], 0x000007D0#32) /- SCH_QTMO -/,
  (0x40010020, [], 0x000003E8#32) /- SCH_IDLE_WIN -/,
  (0x40010100, [(16, 0x20)], 0x00020000#32) /- SCH_CORE_CFG -/,
  (0x40010110, [(16, 0x20)], 0x00002710#32) /- SCH_CORE_IDLEMIN -/,
  (0x40011004, [(256, 0x40)], 0x000F4240#32) /- SCH_TASK_PER -/,
  (0x4002001C, [], 0x00000004#32) /- IMG_STN_CANBASE -/,
  (0x40024008, [(64, 0x40)], 0x012C0064#32) /- IMG_STN_TIME -/,
  (0x4003001C, [], 0x00000A03#32) /- HOP_SUBCFG -/,
  (0x40030044, [], 0x00000004#32) /- HOP_ASN_CFG -/,
  (0x40030048, [], 0x000003E8#32) /- HOP_ASN_TMO -/,
  (0x4005001C, [], 0x000088B5#32) /- FAB_ETYPE -/,
  (0x40050020, [], 0x0000030A#32) /- FAB_HELLO -/,
  (0x40050024, [], 0x003C4000#32) /- FAB_SEC -/,
  (0x40050030, [], 0x00808000#32) /- FAB_PTP_CFG -/,
  (0x4005003C, [], 0x000003E8#32) /- FAB_PTP_STEP -/,
  (0x40050044, [], 0x00000004#32) /- FAB_ASN_CFG -/,
  (0x40050048, [], 0x000003E8#32) /- FAB_ASN_TMO -/,
  (0x40050100, [(4, 0x80)], 0x00001800#32) /- FAB_P_CTRL -/,
  (0x40050140, [(4, 0x80)], 0x05DCBE0A#32) /- FAB_P_UDP -/,
  (0x40050144, [(4, 0x80)], 0x000F193C#32) /- FAB_P_SHARE -/,
  (0x40060014, [], 0x00001000#32) /- GATE_CFG -/,
  (0x40070044, [], 0x00000004#32) /- LOOP_ASN_CFG -/,
  (0x40070048, [], 0x000003E8#32) /- LOOP_ASN_TMO -/,
  (0x40070100, [(32, 0x4)], 0x000000FF#32) /- LOOP_GRP_STAT -/,
  (0x40080018, [], 0x00320008#32) /- MTR_CFG -/,
  (0x4008001C, [], 0x00042814#32) /- MTR_ZC -/,
  (0x40080024, [], 0x00000001#32) /- MTR_CKPT_CFG -/,
  (0x40080044, [], 0x00000004#32) /- MTR_ASN_CFG -/,
  (0x40080048, [], 0x000003E8#32) /- MTR_ASN_TMO -/,
  (0x40090100, [(8, 0x20)], 0x00306400#32) /- DIO_CNT_CFG -/,
  (0x40090300, [(8, 0x8)], 0x00000A03#32) /- DIO_DO_CFG 0 to 7 -/,
  (0x40090300, [(24, 0x8)], 0x00000A00#32) /- DIO_DO_CFG -/,
  (0x40090404, [(64, 0x8)], 0x00000001#32) /- DIO_RFX_CFG1 -/,
  (0x400A0200, [(8, 0x10)], 0x00000A00#32) /- AIO_AO_CFG -/,
  (0x400B0010, [(4, 0x4000)], 0x00100041#32) /- CAN_CFG -/,
  (0x400B0014, [(4, 0x4000)], 0x1F3EFC00#32) /- CAN_NBT -/,
  (0x400B0018, [(4, 0x4000)], 0x89091C00#32) /- CAN_DBT -/,
  (0x400B001C, [(4, 0x4000)], 0x0000001E#32) /- CAN_TDC -/,
  (0x400B0044, [(4, 0x4000)], 0x00000004#32) /- CAN_ASN_CFG -/,
  (0x400B0048, [(4, 0x4000)], 0x000003E8#32) /- CAN_ASN_TMO -/,
  (0x40040010, [], 0x00000001#32) /- MEM_PHASE -/,
  (0x40040014, [], 0x03100008#32) /- MEM_DRS_CFG -/,
  (0x40040100, [(7, 0x8)], 0x00640010#32) /- MEM_LB_CFG -/,
  (0x400C0014, [], 0x00000004#32) /- KEY_CQCFG -/,
  (0x400C0044, [], 0x00000004#32) /- KEY_ASN_CFG -/,
  (0x400C0048, [], 0x000003E8#32) /- KEY_ASN_TMO -/,
  (0x400D0018, [], 0x0000000A#32) /- EVT_CFG -/,
  (0x400D0020, [], 0x0A0A0A0A#32) /- EVT_CDATA -/,
  (0x400D0044, [], 0x00000004#32) /- EVT_ASN_CFG -/,
  (0x400D0048, [], 0x000003E8#32) /- EVT_ASN_TMO -/,
  (0x400E001C, [], 0x01F40A0A#32) /- PAIR_FTL -/,
  (0x400E0024, [], 0x00000008#32) /- PAIR_MSIZE -/,
  (0x400E0028, [], 0x00000064#32) /- PAIR_LSYNC -/,
  (0x400F0018, [], 0x00000014#32) /- UPD_HOLD -/,
  (0x40110000, [], 0x00000083#32) /- RTC_STAT -/,
  (0x40110020, [], 0x00000601#32) /- RTC_DAY -/,
  (0x40110024, [], 0x00000001#32) /- RTC_MON -/,
  (0x40110028, [], 0x000007D0#32) /- RTC_YEAR -/,
  (0x40110058, [], 0x00000002#32) /- RTC_TLATCH -/,
  (0x40000004, [], 0x00000001#32) /- SYS_RSTCAUSE -/,
  (0x4000001C, [], 0x000001F4#32) /- SYS_STARTCFG -/]

/-- What a register reads as right after reset. FAB_MAC_LO and FAB_MAC_HI are set at the factory (Table 5-17), SYS_ID.BUILD by
the build (Table 18-8): free values of the configuration. -/
def resetOf (a : Nat) : BitVec 32 :=
  if a = R.FAB_MAC_LO.addr then Config.factoryMacLo
  else if a = R.FAB_MAC_HI.addr then Config.factoryMacHi.setWidth 32
  else if a = R.SYS_ID.addr then (if Config.coated then 0x00011640#32 else 0x00001640#32)
  else
    match nonzeroResets.find? fun (b, dims, _) => RegDesc.covers b dims a with
    | some (_, _, v) => v
    | none => 0#32

end Sys2Proof.Machine
end

