-- ==== Sys2Proof/Machine/SchState.lean ====
section
/-!
DEFINITION. What the cycle scheduler keeps beside its registers (ch02).
-/

namespace Sys2Proof.Machine

/-- One task's running bookkeeping (R49 to R67). Times in MT are in nanoseconds of module time; times marked elapsed
count elapsed nanoseconds. -/
structure SchTask where
  /-- The current iteration has been released (R53: IMAGING after its release). -/
  released : Bool := false
  /-- The non-local copy of the current lead window is complete, or there is none. -/
  copied : Bool := false
  /-- A STOP waits for the iteration's end (Table 2-2). -/
  stopWaits : Bool := false
  /-- The image of this iteration was late (R53). -/
  imgLate : Bool := false
  /-- This iteration is a late release (R63). -/
  late1 : Bool := false
  /-- The iteration has already been dispatched once (a further dispatch is a resume, R84 SCH_DISP.KIND). -/
  begun : Bool := false
  /-- A release instant is armed in `nextRel`. -/
  armed : Bool := false
  /-- The next release instant: MT on a periodic core (R49), elapsed on a free-running core (R59). -/
  nextRel : Nat := 0
  /-- The instant in MT at which this release was made together with that of another task of the same instant (R54); its own
  TASK_RELEASE of that instant has then nothing left to do. -/
  sharedAt : Option Nat := none
  /-- The MT release instant of the current iteration (R48, R92). -/
  relInst : Nat := 0
  /-- The elapsed time of the current release (response time, PER_US bound of R60). -/
  relElapsed : Nat := 0
  /-- The next elapsed instant at which a free-running iteration overruns (R60). -/
  nextBound : Nat := 0
  /-- Nanoseconds of task code in the current iteration (SCH_TASKn_EXEC_LAST). -/
  execNs : Nat := 0
  deriving DecidableEq, Repr

/-- One core's bookkeeping (R47, R68 to R72). -/
structure SchCore where
  /-- A pending error release has met one of the moments of R71 and runs next. -/
  errReleased : Bool := false
  /-- A cause was raised while the error task ran (R72). -/
  errRaised : Bool := false
  /-- Nanoseconds in which the core was not idle, in the window in progress (R68, R69). -/
  busyNs : Nat := 0
  deriving DecidableEq, Repr

/-- The scheduler. -/
structure SchState where
  tasks : SMap SchTask := []
  cores : SMap SchCore := []
  /-- Elapsed instants at which the bounds of the hold and of the drain in force expire (R75). -/
  holdBound : Option Nat := none
  drainBound : Option Nat := none
  /-- The last release instant made on a periodic core, in MT (R82); none before the first. -/
  lastMade : Option Nat := none
  /-- The switch instant latched by ARM, in MT (R76). -/
  swInstant : Nat := 0
  /-- The MT boundary at which the idle window in progress began; none before the first boundary (R69). MT 0 is one. -/
  winStart : Option Nat := some 0
  /-- Elapsed instant at which counting in that window began. -/
  winElapsed : Nat := 0
  deriving DecidableEq, Repr

end Sys2Proof.Machine
end

