-- ==== Sys2Proof/Machine/UpdState.lean ====
section
/-!
DEFINITION. What the update loader and the ROM's recovery mode keep beside the UPD registers (ch15). Slots, boot record,
recovery log and migrated configurations are bytes of the NOR flash, which is memory of the machine.
-/

namespace Sys2Proof.Machine

/-- A BULK transfer in progress (R482 to R484): source node, XID, slot, length, the next offset, bytes not yet
programmed. -/
structure UpdXfer where
  src : Nat
  xid : Nat
  slot : Nat
  blen : Nat
  expected : Nat := 0
  /-- Bytes received since the last programmed block, oldest first. -/
  buf : List (BitVec 8) := []
  programmed : Nat := 0
  /-- The slot has been erased and OPENACK sent; the END has come. -/
  opened : Bool := false
  ended : Bool := false
  lastData : Nat := 0
  deriving DecidableEq, Repr

/-- A flash erase under way: the slot and whether an accepted OPEN started it (R483, R496). -/
structure UpdErase where
  slot : Nat
  forOpen : Bool
  deriving DecidableEq, Repr

/-- A UPD_CMD in progress (R496). -/
inductive UpdJob where
  | erase | verify | stage
  deriving DecidableEq, Repr

/-- A TFTP load in recovery mode (R499). -/
structure UpdTftp where
  slot : Nat
  /-- The ORDER that started it: the tool's address, the file name. -/
  tool : Nat
  file : List (BitVec 8) := []
  block : Nat := 0
  received : Nat := 0
  repeats : Nat := 0
  last : Nat := 0
  deriving DecidableEq, Repr

/-- An entry of the recovery log (R499): the OP, the result, the tool's address, the bundle's VERSION. -/
structure RecLog where
  op : Nat
  result : Nat
  tool : Nat
  version : Nat
  deriving DecidableEq, Repr

/-- The update loader. -/
structure UpdState where
  xfer : Option UpdXfer := none
  erase : Option UpdErase := none
  job : Option UpdJob := none
  /-- A verification of a slot is running (R483, R496). -/
  verifying : Option Nat := none
  /-- Slot from which staging was made (R487). -/
  staged : Nat := 0
  /-- Answers sent by the loader: the last BULK message. -/
  lastBulk : Option BulkMsg := none
  /-- The switch instant of the handover in hand, and the elapsed instant HOLDMAX expires (R491). -/
  swmt : Nat := 0
  holdEnds : Option Nat := none
  /-- When HELD was reached (hold duration of UPD_HANDOVER). -/
  heldAt : Nat := 0
  /-- The handover is past COMMIT and a Brake has begun (R494). -/
  brakeInCommit : Bool := false
  /-- The module is in recovery mode (R497): its REASON, the current nonce, when ANNOUNCE was last sent. -/
  recovery : Option Nat := none
  nonce : BitVec 128 := 0
  announceAt : Nat := 0
  /-- An ORDER has been accepted: no further ANNOUNCE (R498). -/
  ordered : Bool := false
  tftp : Option UpdTftp := none
  /-- The last message the ROM sent in recovery mode. -/
  lastRecovery : Option RecMsg := none
  /-- Its UDP payload. -/
  lastRecBytes : List (BitVec 8) := []
  /-- The recovery log's entries, the oldest first; its bytes in flash have a layout that is not stated (R474, R499). -/
  log : List RecLog := []
  deriving DecidableEq, Repr

end Sys2Proof.Machine
end

