-- ==== Sys2Proof/Machine/State.lean ====
section
/-!
DEFINITION. The state of the module: every register, every memory byte, and what each block keeps beside its registers,
with the queue of the commands that wait. All plain data.
-/

namespace Sys2Proof.Machine

/-- A descriptor that an engine has posted to its assist ring (R39 to R41). The descriptor itself is memory; this is what
the engine remembers of it. -/
structure AsnPost where
  seq : Nat
  func : Nat
  src : Nat
  /-- Elapsed time of the posting (BLOCK_ASN_TMO). -/
  postedAt : Nat
  /-- The fallback has been applied (R41). -/
  timedOut : Bool := false
  /-- The unit's input carried poison (R43). -/
  poison : Bool := false
  /-- What the unit needs when its result comes. -/
  ctx : List Nat := []
  deriving DecidableEq, Repr

/-- The module. -/
structure State where
  /-- Registers by bus address; an unlisted register holds its reset value. -/
  regs : SMap Word := []
  /-- Companion words captured by a read of a latched group's low or first word (R15). -/
  latched : SMap (Option Word) := []
  /-- Memory bytes by physical address; what an unlisted byte reads as is `emptyByte`. -/
  mem : SMap Byte := []
  /-- Module time. -/
  mt : Word64 := 0
  /-- Elapsed nanoseconds, across module resets too: no discipline of MT moves them. -/
  now : Nat := 0
  /-- The value last returned to a master by a read. -/
  busRead : Word64 := 0
  /-- How many free values have been taken (the model's own field, no part of the machine). -/
  fresh : Nat := 0
  /-- Posted assist descriptors by block (`asnKey`). -/
  asn : SMap (List AsnPost) := []
  sch : SchState := {}
  img : ImgState := {}
  hop : HopState := {}
  fab : FabState := {}
  gate : GateState := {}
  loop : LoopState := {}
  mtr : MtrState := {}
  dio : DioState := {}
  can : SMap CanState := []
  integ : MemState := {}
  key : KeyState := {}
  evt : EvtState := {}
  pair : PairState := {}
  upd : UpdState := {}
  pwr : PwrState := {}
  rtc : RtcState := {}
  start : StartState := {}
  /-- The commands that wait, the oldest first. -/
  pending : List Instr := []
  deriving DecidableEq, Repr

/-- Why the machine stops. -/
inductive Fault where
  /-- The command names a unit the module does not have (task 256, port 4 of the fabric for a HELLO, ...): no such command can arise.
  Raised by every meaning with a unit number; safe: the machine stops where the hardware has no behaviour at all. -/
  | noSuchUnit
  deriving DecidableEq, Repr

/-- Why a command has no meaning here. -/
inductive Refusal where
  /-- The command is not modelled; raised by its own arm of `exec` alone; safe. -/
  | notModelled (mnemonic : String)
  deriving DecidableEq, Repr

/-- The state right after reset: every register at its reset value (`resetOf`), nothing in memory, no unit with work in
flight, module time 0 (R14, R569), no command waiting. -/
def State.reset : State := {}

end Sys2Proof.Machine
end

