-- ==== Sys2Proof/Machine/Ops.lean ====
section
/-!
DEFINITION. The named operations over registers, memory, time and free values that every block's meaning is written
with: a field read and written, an interrupt bit raised, a counter counted, bytes of memory read and written at a bus
address, a block's enable pair.
-/

namespace Sys2Proof.Machine

/-! Registers. -/

/-- A register's value. -/
def State.reg (s : State) (a : Nat) : Word := SMap.get resetOf s.regs a

/-- The state with a register replaced. -/
def State.setReg (s : State) (a : Nat) (v : Word) : State := { s with regs := SMap.set resetOf s.regs a v }

/-- A field's value. -/
def State.rd (s : State) (f : Fld) : Nat := getField (s.reg f.addr) f.lo f.w

/-- The state with a field replaced (the value's low bits). -/
def State.wr (s : State) (f : Fld) (v : Nat) : State := s.setReg f.addr (putField (s.reg f.addr) f.lo f.w v)

/-- Whether a one-bit field is set. -/
def State.on (s : State) (f : Fld) : Bool := s.rd f != 0

/-- The state with a field set to a truth value. -/
def State.wrb (s : State) (f : Fld) (b : Bool) : State := s.wr f (if b then 1 else 0)

/-- The state with a bit set: an interrupt status bit raised (R12). -/
def State.raise (s : State) (f : Fld) : State := s.wr f 1

/-- The state with a bit cleared. -/
def State.clear (s : State) (f : Fld) : State := s.wr f 0

/-- A counter that saturates at all ones, counted up by `n`. -/
def State.bumpBy (s : State) (f : Fld) (n : Nat) : State := s.wr f (min (s.rd f + n) (2 ^ f.w - 1))

/-- A saturating counter counted once. -/
def State.bump (s : State) (f : Fld) : State := s.bumpBy f 1

/-- A counter that wraps, counted once. -/
def State.wrap (s : State) (f : Fld) : State := s.wr f (s.rd f + 1)

/-- A 64-bit quantity held in two registers, low word first. -/
def State.rd64 (s : State) (lo hi : Nat) : Nat := (s.reg lo).toNat + 2 ^ 32 * (s.reg hi).toNat

/-- A 64-bit quantity written to two registers. -/
def State.wr64 (s : State) (lo hi : Nat) (v : Nat) : State :=
  (s.setReg lo (BitVec.ofNat 32 v)).setReg hi (BitVec.ofNat 32 (v / 2 ^ 32))

/-- The value that a written word gives a field. -/
def Fld.of (f : Fld) (v : Word) : Nat := getField v f.lo f.w

/-- The state with a field replaced where the write is not discarded (R10, R11). -/
def State.wrIf (s : State) (ok : Bool) (f : Fld) (v : Nat) : State := if ok then s.wr f v else s

/-- RWL fields are locked: SYS_LOCK.LOCK is set, outside the commit phase of a handover (Table 0-3, R490). -/
def State.locked (s : State) : Bool := s.on R.SYS_LOCK.LOCK && s.rd R.UPD_PHASE.PHASE != 5

/-- A bit of a register field. -/
def State.bit (s : State) (f : Fld) (i : Nat) : Bool := (s.rd f).testBit i

/-- The state with a bit of a register field set to a truth value. -/
def State.setBit (s : State) (f : Fld) (i : Nat) (b : Bool) : State := s.wrb ⟨f.addr, f.lo + i, 1⟩ b

/-! Free values: each taken once, by a counter that is the model's own. -/

/-- The counter advanced past the values of this step. -/
def State.taken (s : State) (n : Nat := 1) : State := { s with fresh := s.fresh + n }

/-! Memory (Table 1-3). -/

/-- The regions of the address map that hold memory. -/
inductive Region where
  | rom | local_ | shared | stripe | points | mram | regs | nor | dram
  deriving DecidableEq, Repr

/-- The region of a bus address, none where the map has no range (R24). The parity reserve of DRAM is no range. -/
def regionOf (a : Nat) : Option Region :=
  if a < 0x20000 then some .rom
  else if 0x08000000 ≤ a ∧ a < 0x08080000 then some .local_
  else if 0x09000000 ≤ a ∧ a < 0x09880000 then some .local_
  else if 0x10000000 ≤ a ∧ a < 0x10800000 then some .shared
  else if 0x18000000 ≤ a ∧ a < 0x18080000 then some .stripe
  else if 0x20000000 ≤ a ∧ a < 0x20200000 then some .points
  else if 0x30000000 ≤ a ∧ a < 0x30800000 then some .mram
  else if 0x40000000 ≤ a ∧ a < 0x40120000 then some .regs
  else if 0x60000000 ≤ a ∧ a < 0x64000000 then some .nor
  else if 0x80000000 ≤ a ∧ a < 0xF0000000 then some .dram
  else none

/-- The offset in core c's alias that the core-local window's offset o shows (R26, Table 1-4): the executing bay at 0, the
other bay after it. `ex` is the core's bit of UPD_BAYEXEC. -/
def localOffset (c o : Nat) (ex : Bool) : Nat :=
  let bay := if c = 16 then 0x30000 else 0x20000
  if o < bay then (if ex then o + bay else o)
  else if o < 2 * bay then (if ex then o - bay else o)
  else o

/-- The physical address that master m reaches at bus address a: the own-point window shows the third region of shared
SRAM (R27), the core-local window the core's own memory (R26). -/
def State.phys (s : State) (m a : Nat) : Nat :=
  if 0x20000000 ≤ a ∧ a < 0x20200000 then a - 0x20000000 + 0x10600000
  else if 0x08000000 ≤ a ∧ a < 0x08080000 then
    0x09000000 + m * 0x80000 +
      localOffset m (a - 0x08000000) ((s.reg R.UPD_BAYEXEC.addr).getLsbD m)
  else a

/-- Whether a local-memory alias address is mapped: a control core's bytes from 0x5_0000 are not (R26). -/
def aliasMapped (a : Nat) : Bool :=
  let c := (a - 0x09000000) / 0x80000
  c == 16 || (a - 0x09000000) % 0x80000 < 0x50000

/-- Whether master m's access of n bytes at bus address a reaches memory or a register (R24, R26). -/
def State.mapped (_s : State) (m a n : Nat) : Bool :=
  match regionOf a, regionOf (a + (n - 1)) with
  | some r, some r' =>
    r == r' && (r != .local_ || (if a < 0x09000000 then m == 16 || (a + n) - 0x08000000 ≤ 0x50000
                                 else aliasMapped a && aliasMapped (a + (n - 1))))
  | _, _ => false

/-- What an unlisted byte reads as: the ROM's contents, erased flash all ones, everything else 0 (notes/assumptions/2). -/
def emptyByte (a : Nat) : Byte :=
  if a < 0x20000 then Config.romByte a else if 0x60000000 ≤ a ∧ a < 0x64000000 then 0xFF#8 else 0#8

/-- A byte of memory at a physical address. -/
def State.byte (s : State) (a : Nat) : Byte := SMap.get emptyByte s.mem a

/-- The state with a byte of memory replaced. -/
def State.setByte (s : State) (a : Nat) (b : Byte) : State := { s with mem := SMap.set emptyByte s.mem a b }

/-- The n bytes of memory from a physical address. -/
def State.bytes (s : State) (a n : Nat) : List Byte := SMap.getMany emptyByte s.mem a n

/-- The state with bytes of memory replaced from a physical address. -/
def State.putBytes (s : State) (a : Nat) (bs : List Byte) : State :=
  { s with mem := SMap.setMany emptyByte s.mem a bs }

/-- The number that the n bytes at a physical address spell. -/
def State.num (s : State) (a n : Nat) : Nat := natLE (s.bytes a n)

/-- The state with a number of n bytes at a physical address. -/
def State.putNum (s : State) (a n v : Nat) : State := s.putBytes a (bytesLE v n)

/-- The memory's canonical form: addresses strictly rising, no entry equal to what an unlisted address reads as. -/
def Memory.wf (m : SMap Byte) : Bool := SMap.wf emptyByte m

/-- The general region of shared SRAM (R27). -/
def inGeneral (a n : Nat) : Bool := 0x10000000 ≤ a && a + n ≤ 0x10400000

/-- The own-point region of shared SRAM, physical (R27): the address of own record i. -/
def ownRecord (i : Nat) : Nat := 0x10600000 + 32 * i

/-- MRAM's base (Table 1-3). -/
def mramBase : Nat := 0x30000000

/-- The NOR flash's base (Table 1-3). -/
def norBase : Nat := 0x60000000

/-! Time. -/

/-- One task's bookkeeping, one core's. -/
def State.task (s : State) (t : Nat) : SchTask := SMap.get (fun _ => {}) s.sch.tasks t

def State.setTask (s : State) (t : Nat) (x : SchTask) : State :=
  { s with sch := { s.sch with tasks := SMap.set (fun _ => {}) s.sch.tasks t x } }

def State.core (s : State) (c : Nat) : SchCore := SMap.get (fun _ => {}) s.sch.cores c

def State.setCore (s : State) (c : Nat) (x : SchCore) : State :=
  { s with sch := { s.sch with cores := SMap.set (fun _ => {}) s.sch.cores c x } }

/-- Time spent on core c: a core that runs a task or its error task is not idle, and a running task's execution time
grows (R68, Table 2-10). -/
def State.spend (s : State) (d c : Nat) : State :=
  let busy := s.on (R.SCH_CORE_STAT.BUSY c)
  let s := if busy || s.on (R.SCH_CORE_STAT.ERRRUN c) then
      s.setCore c { s.core c with busyNs := (s.core c).busyNs + d } else s
  if busy then
    let t := s.rd (R.SCH_CORE_STAT.TASK c)
    s.setTask t { s.task t with execNs := (s.task t).execNs + d }
  else s

/-- The state d nanoseconds later, as far as the clocks and the cores go. -/
def State.elapse (s : State) (d : Nat) : State :=
  if d = 0 then s
  else
    let s := (List.range 16).foldl (fun s c => s.spend d c) s
    { s with now := s.now + d, mt := s.mt + BitVec.ofNat 64 d }

/-- Module time as a number of nanoseconds. -/
def State.mtNs (s : State) : Nat := s.mt.toNat

/-- Time advanced to an elapsed instant, where it lies ahead: what a timer's command does first. -/
def State.advance (s : State) (t : Nat) : State := s.elapse (t - s.now)

/-- Time advanced to an instant of MT, where it lies ahead. -/
def State.advanceMt (s : State) (t : Nat) : State := s.elapse (t - s.mtNs)

end Sys2Proof.Machine

namespace Sys2Proof

/-! Units with an enable pair (R33). -/

/-- Where a unit's enable pair lies (Table 1-3; ch03, ch05, ch14: offsets 0x0080, 0x0100 + 0x80p, 0x0080). -/
def UnitId.base : UnitId → Nat
  | .sch => 0x40010000
  | .img => 0x40020000
  | .jrn => 0x40020080
  | .hop => 0x40030000
  | .fab => 0x40050000
  | .port p => 0x40050100 + p.val * 0x80
  | .gate => 0x40060000
  | .loop => 0x40070000
  | .mtr => 0x40080000
  | .can c => 0x400B0000 + c.val * 0x4000
  | .mem => 0x40040000
  | .key => 0x400C0000
  | .evt => 0x400D0000
  | .mch => 0x400E0080
  | .upd => 0x400F0000

/-- CTRL.EN, CTRL.MODE and the fields of STAT that every unit has (Tables 1-7, 1-8). -/
def UnitId.EN (u : UnitId) : Machine.Fld := ⟨u.base, 0, 1⟩
def UnitId.MODE (u : UnitId) : Machine.Fld := ⟨u.base, 1, 1⟩
def UnitId.STATE (u : UnitId) : Machine.Fld := ⟨u.base + 4, 0, 2⟩
def UnitId.ENREQ (u : UnitId) : Machine.Fld := ⟨u.base + 4, 2, 1⟩
def UnitId.MODE_ACT (u : UnitId) : Machine.Fld := ⟨u.base + 4, 3, 1⟩
def UnitId.MODE_REJ (u : UnitId) : Machine.Fld := ⟨u.base + 4, 4, 1⟩
def UnitId.FCAUSE (u : UnitId) : Machine.Fld := ⟨u.base + 4, 16, 4⟩

/-- FARG, where a unit's STAT has one: most blocks at [31:24], HOP and MTR at [31:20]. -/
def UnitId.FARG : UnitId → Option Machine.Fld
  | .sch => some Machine.R.SCH_STAT.FARG
  | .img => some Machine.R.IMG_STAT.FARG
  | .hop => some Machine.R.HOP_STAT.FARG
  | .loop => some Machine.R.LOOP_STAT.FARG
  | .mtr => some Machine.R.MTR_STAT.FARG
  | .can c => some (Machine.R.CAN_STAT.FARG c.val)
  | _ => none

end Sys2Proof

namespace Sys2Proof.Machine

/-- STATE (Table 1-8). -/
def stOff : Nat := 0
def stRun : Nat := 1
def stDrain : Nat := 2
def stFault : Nat := 3

/-- A unit is in RUN. -/
def State.running (s : State) (u : UnitId) : Bool := s.rd u.STATE == stRun

/-- A unit does work: RUN, or DRAIN with its current unit. -/
def State.working (s : State) (u : UnitId) : Bool := s.rd u.STATE == stRun || s.rd u.STATE == stDrain

/-- A block with a dual-mode function works in ASSIST mode. -/
def State.assist (s : State) (u : UnitId) : Bool := s.on u.MODE_ACT

/-- A unit enters FAULT with a cause (and an argument): RUN or DRAIN to FAULT (R33, R35). -/
def State.toFault (s : State) (u : UnitId) (cause : Nat) (arg : Nat := 0) : State :=
  let s := (s.wr u.STATE stFault).wr u.FCAUSE cause
  match u.FARG with
  | some f => s.wr f arg
  | none => s

/-! Outcomes. -/

/-- The outcome of a command that names a unit: next where the module has that unit. -/
def onUnit (ok : Bool) (s' : State) : Host.Outcome State Fault Refusal :=
  if ok then .next s' else .fault .noSuchUnit

/-- A list without the elements at which `p` holds, and the first such element. -/
def takeFirst {α : Type} (p : α → Bool) : List α → Option (α × List α)
  | [] => none
  | x :: xs => if p x then some (x, xs) else (takeFirst p xs).map fun (y, ys) => (y, x :: ys)

/-- A state transformer applied to each element of a list in turn. -/
def State.each {α : Type} (s : State) (xs : List α) (f : State → α → State) : State := xs.foldl f s

/-- The numbers below n at which a predicate holds, in rising order. -/
def below (n : Nat) (p : Nat → Bool) : List Nat := (List.range n).filter p

end Sys2Proof.Machine
end

