-- ==== Sys2Proof/Machine/EvtOps.lean ====
section
/-!
DEFINITION. Posting an event into event staging (R438), and the CRC-32C of records (R433).
-/

namespace Sys2Proof.Machine

/-- One bit step of CRC-32C, reflected, polynomial 0x1EDC6F41. -/
def crcBit (c : Nat) : Nat := if c % 2 = 1 then Nat.xor (c / 2) 0x82F63B78 else c / 2

/-- One byte taken into a CRC-32C. -/
def crcByte (c : Nat) (b : Byte) : Nat :=
  crcBit (crcBit (crcBit (crcBit (crcBit (crcBit (crcBit (crcBit (Nat.xor c b.toNat))))))))

/-- The CRC-32C of bytes (the value that R433, R443, R511 and the other records store). -/
def crc32c (bs : List Byte) : Nat := Nat.xor (bs.foldl crcByte 0xFFFFFFFF) 0xFFFFFFFF

/-- The capacity of the staging FIFO (R438). -/
def stagingMax : Nat := 960

/-- A record posted into staging; a full FIFO drops and counts it (R438). -/
def State.post (s : State) (r : EvtRec) : State :=
  if s.evt.staging.length < stagingMax then
    let s := { s with evt := { s.evt with staging := s.evt.staging ++ [r] } }
    s.wr R.EVT_STAGE.STAGED s.evt.staging.length
  else
    let s := { s with evt := { s.evt with dropped := s.evt.dropped + 1 } }
    (s.bump R.EVT_CNT_DROP.COUNT).raise R.EVT_INTSTAT.DROP

/-- An event of a block posted with the present MT (R433, R436). -/
def State.event (s : State) (code : Nat) (unit subj val1 val2 tenant extra : Nat := 0) : State :=
  s.post { mt := s.mt, code := code, tenant := tenant, unit := unit, subj := subj, val1 := val1, val2 := val2,
           extra := extra }

/-- An event recorded at most once per `period` nanoseconds: recorded when none has been or the last is that old. -/
def dueAgain (last : Option Nat) (now period : Nat) : Bool :=
  match last with
  | none => true
  | some t => t + period ≤ now

/-- One second, in ns. -/
def sec : Nat := 1000000000

/-- One millisecond, in ns. -/
def ms : Nat := 1000000

/-- One microsecond, in ns. -/
def us : Nat := 1000

end Sys2Proof.Machine
end

