-- ==== Sys2Proof/Machine/MemOps.lean ====
section
/-!
DEFINITION. Memory with its checks (ch11): parity lanes and poison tags of shared SRAM, the stripe, SECDED of the
core-local memories, DRAM parity; correction, poisoning, writing; the leaky buckets and the egress channels.
A word is named by its number, its physical address / 8.
-/

namespace Sys2Proof.Machine

/-- The word number of a physical address. -/
def wordOf (a : Nat) : Nat := a / 8

/-- A clean, valid word (R374). -/
def noFlaw (_ : Nat) : Flaw := {}

/-- The poisoned encoding (R374): both tags set, every parity bit inverted. -/
def poisonFlaw : Flaw := { par := 0xFF#8, tags := 3#2 }

/-- The check state of a word. -/
def State.flaw (s : State) (w : Nat) : Flaw := SMap.get noFlaw s.integ.flaws w

/-- A word's check state replaced. -/
def State.setFlaw (s : State) (w : Nat) (f : Flaw) : State :=
  { s with integ := { s.integ with flaws := SMap.set noFlaw s.integ.flaws w f } }

/-- Whether a word number lies in shared SRAM, in the core-local memories, in DRAM, in MRAM. -/
def isShared (w : Nat) : Bool := 0x10000000 / 8 ≤ w && w < 0x10800000 / 8
def isLocal (w : Nat) : Bool := 0x09000000 / 8 ≤ w && w < 0x09880000 / 8
def isDram (w : Nat) : Bool := 0x80000000 / 8 ≤ w && w < 0xF0000000 / 8
def isMram (w : Nat) : Bool := 0x30000000 / 8 ≤ w && w < 0x30800000 / 8

/-- The class of Table 11-5 that a word's memory belongs to. -/
def classOf (w : Nat) : Nat :=
  if isShared w then 0 else if isLocal w then 2 else if isDram w then 5 else if isMram w then 6 else 7

/-- The stripe row of a shared SRAM word (R20), and a row's word in bank b. -/
def rowOf (w : Nat) : Nat := (w - 0x10000000 / 8) / 16
def rowWord (k b : Nat) : Nat := 0x10000000 / 8 + 16 * k + b

/-- The data of a word. -/
def State.word (s : State) (w : Nat) : Word64 := BitVec.ofNat 64 (s.num (8 * w) 8)

/-- The data of a word replaced, its checks untouched. -/
def State.putWord (s : State) (w : Nat) (d : Word64) : State := s.putNum (8 * w) 8 d.toNat

/-- The 64-bit mask of a set of lanes. -/
def laneMask (l : BitVec 8) : Word64 :=
  BitVec.ofNat 64 ((List.range 8).foldl (fun acc j => acc + (if l.getLsbD j then 255 * 256 ^ j else 0)) 0)

/-- How many bits are set. -/
def popcount {n : Nat} (x : BitVec n) : Nat := ((List.range n).filter fun i => x.getLsbD i).length

/-- The lanes of a shared SRAM or DRAM word whose parity does not match the encoding its tags select (R374); every lane
where the tags disagree and the lanes do not settle it. -/
def Flaw.invalid (f : Flaw) : BitVec 8 :=
  if f.tags = 0#2 then f.par
  else if f.tags = 3#2 then ~~~f.par
  else if f.par = 0#8 ∨ f.par = 0xFF#8 then 0#8
  else 0xFF#8

/-- The word is poisoned: by its tags, or by its lanes where the tags disagree (R374). -/
def Flaw.poisoned (f : Flaw) : Bool := f.tags == 3#2 || (f.tags != 0#2 && f.par == 0xFF#8)

/-- The tags disagree and the lanes settle it (R374). -/
def Flaw.tagSettled (f : Flaw) : Bool := f.tags != 0#2 && f.tags != 3#2 && (f.par == 0#8 || f.par == 0xFF#8)

/-- The tags disagree and the lanes do not settle it. -/
def Flaw.tagOpen (f : Flaw) : Bool := f.tags != 0#2 && f.tags != 3#2 && f.par != 0#8 && f.par != 0xFF#8

/-- The difference of a row's stripe word from the XOR of its data words (R375), and its invalid lanes. -/
def State.sdiff (s : State) (k : Nat) : Word64 := SMap.get (fun _ => 0) s.integ.sdiff k
def State.spar (s : State) (k : Nat) : BitVec 8 := SMap.get (fun _ => 0) s.integ.spar k

def State.setSdiff (s : State) (k : Nat) (d : Word64) : State :=
  { s with integ := { s.integ with sdiff := SMap.set (fun _ => 0) s.integ.sdiff k d } }

def State.setSpar (s : State) (k : Nat) (p : BitVec 8) : State :=
  { s with integ := { s.integ with spar := SMap.set (fun _ => 0) s.integ.spar k p } }

/-- The lanes that fail in some word of a row other than bank b. -/
def State.othersInvalid (s : State) (k b : Nat) : BitVec 8 :=
  (below 16 (· != b)).foldl (fun acc b' => acc ||| (s.flaw (rowWord k b')).invalid) 0#8

/-- The failing lanes of a word that cannot be rebuilt: invalid in the stripe word or in another word (R377). -/
def State.lost (s : State) (w : Nat) : BitVec 8 :=
  let k := rowOf w
  (s.flaw w).invalid &&& (s.spar k ||| s.othersInvalid k (w % 16))

/-- MEM_PHASE is SERVICE. -/
def State.inService (s : State) : Bool := s.rd R.MEM_PHASE.PHASE == 0

/-- One correction of a class: counted, and into its leaky bucket (R392, R393). -/
def State.corrected (s : State) (c : Nat) : State :=
  let s := s.bump (R.MEM_CNT_CORR.COUNT c)
  let level := s.rd (R.MEM_LB_STAT.LEVEL c) + 1
  if level ≤ s.rd (R.MEM_LB_CFG.LIMIT c) then s.wr (R.MEM_LB_STAT.LEVEL c) level
  else
    let s := (s.wr (R.MEM_LB_STAT.LEVEL c) 0).bump (R.MEM_LB_STAT.OVF c)
    if s.inService then s else (s.raise R.MEM_INTSTAT.CEBURST).event 0x0B01 (unit := c)

/-- An uncorrectable error reported: counted, raised, recorded at most 64 times per second, held in MEM_UE (R382, R403). -/
def State.uncorrectable (s : State) (m w : Nat) (cls : Nat) (lanes : BitVec 8) : State :=
  let s := (s.bump R.MEM_CNT_UE.COUNT).raise R.MEM_INTSTAT.UNCORR
  let second := s.now / sec
  let n := if s.integ.ueSecond.1 = second then s.integ.ueSecond.2 else 0
  let s := if n < 64 then s.event 0x0B00 (unit := cls) (subj := 8 * w) else s
  let s := { s with integ := { s.integ with ueSecond := (second, min 64 (n + 1)) } }
  if s.on R.MEM_UE_INFO.VALID then s
  else
    (((((s.wr R.MEM_UE_ADDR.ADDR (8 * w)).wr R.MEM_UE_INFO.CLASS cls).wr R.MEM_UE_INFO.LANES lanes.toNat).wr
      R.MEM_UE_INFO.MASTER m).raise R.MEM_UE_INFO.VALID)

/-- A word found uncorrectable is written back poisoned and reported (R382). MRAM cannot hold poison (R390). -/
def State.poison (s : State) (m w : Nat) (lanes : BitVec 8) : State :=
  let s := if isMram w then s else s.setFlaw w poisonFlaw
  s.uncorrectable m w (classOf w) lanes

/-- A corrected word's address goes to the rewrite queue of 16 entries, or is dropped (R379). -/
def State.queueRewrite (s : State) (w : Nat) : State :=
  if s.integ.rewriteQ.length < 16 then
    { s with integ := { s.integ with rewriteQ := s.integ.rewriteQ ++ [w] } }
  else s.bump R.MEM_CNT_RWQDROP.COUNT

/-- A word as an access receives it: its data, whether it is poisoned, whether this access found it uncorrectable and in
which lanes, and the state after. -/
structure WordRead where
  data : Word64
  poisoned : Bool := false
  new : Bool := false
  lanes : BitVec 8 := 0xFF
  st : State

/-- A flaw of a SECDED word (R371, R372): corrected, uncorrectable, or three flips and more, which may be miscorrected. -/
def State.readSecded (s : State) (m w : Nat) : WordRead :=
  let f := s.flaw w
  if f.tags ≠ 0 then { data := s.word w, poisoned := true, st := s }
  else if f.flips = 0 then { data := s.word w, st := s }
  else if popcount f.flips = 1 then { data := s.word w, st := (s.setFlaw w {}).corrected (classOf w) }
  else if popcount f.flips = 2 then
    let d := s.word w ^^^ f.flips.setWidth 64
    { data := d, poisoned := true, new := true, st := (s.putWord w d).poison m w 0xFF }
  else { data := Config.free64 s.fresh, st := s.taken }

/-- A read of a shared SRAM word (R374, R377, R382). -/
def State.readShared (s : State) (m w : Nat) : WordRead :=
  let f := s.flaw w
  let s := if f.tagSettled then s.bump R.MEM_CNT_TAGFIX.COUNT else s
  if f.poisoned then { data := s.word w, poisoned := true, st := s }
  else if f.invalid = 0 then { data := s.word w, st := s }
  else if f.tagOpen ∨ s.lost w ≠ 0 then
    { data := s.word w, poisoned := true, new := true, lanes := f.invalid, st := s.poison m w f.invalid }
  else
    { data := s.word w ^^^ (s.sdiff (rowOf w) &&& laneMask f.invalid)
      st := (s.corrected 0).queueRewrite w }

/-- A read of a DRAM word (R388, R389): no correction. -/
def State.readDram (s : State) (m w : Nat) : WordRead :=
  let f := s.flaw w
  if f.par = 0 then { data := s.word w, st := s }
  else if f.par = 0xFF then { data := s.word w, poisoned := true, st := s }
  else { data := s.word w, poisoned := true, new := true, lanes := f.par, st := s.poison m w f.par }

/-- A read of an MRAM word (R390). -/
def State.readMram (s : State) (m w : Nat) : WordRead :=
  let n := popcount (s.flaw w).flips
  if n = 0 then { data := s.word w, st := s }
  else if n = 1 then { data := s.word w, st := s.corrected 6 }
  else { data := s.word w, poisoned := true, new := true, st := s.poison m w 0xFF }

/-- The stripe word of a row (R375). -/
def State.stripeWord (s : State) (k : Nat) : Word64 :=
  (List.range 16).foldl (fun acc b => acc ^^^ s.word (rowWord k b)) (s.sdiff k)

/-- The stripe diagnostic window's word numbers. -/
def stripeWindow : Nat := 0x18000000 / 8

/-- A read of a stripe word through its window (R377, Table 11-1): failing lanes are recomputed from the 16 data words, and the
word waits for its rewrite. -/
def State.readStripe (s : State) (k : Nat) : WordRead :=
  let p := s.spar k
  if p = 0 then { data := s.stripeWord k, st := s }
  else { data := s.stripeWord k ^^^ (s.sdiff k &&& laneMask p), st := (s.corrected 1).queueRewrite (stripeWindow + k) }

/-- A read of a ROM word, whose parity failure is never corrected (R391). -/
def State.readRom (s : State) (w : Nat) : WordRead :=
  { data := s.word w, poisoned := (s.flaw w).par != 0, st := s }

/-- A read of one word by master m (0 to 16 cores, 17 Dresser, 18 image unit, 19 Hopper, 20 other engine). -/
def State.readWord (s : State) (m w : Nat) : WordRead :=
  if isShared w then s.readShared m w
  else if isLocal w then s.readSecded m w
  else if isDram w then s.readDram m w
  else if isMram w then s.readMram m w
  else if w < 0x20000 / 8 then s.readRom w
  else { data := s.word w, st := s }

/-- Before a write into a row with lanes that cannot be rebuilt (R380): every word of the row with an invalid lane among
them is poisoned, and those lanes of the stripe are recomputed from the stored data. -/
def State.settleRow (s : State) (m k : Nat) (lost : BitVec 8) : State :=
  let bad := below 16 fun b => (s.flaw (rowWord k b)).invalid &&& lost != 0
  let s := s.each bad fun s b => s.poison m (rowWord k b) ((s.flaw (rowWord k b)).invalid)
  (s.setSdiff k (s.sdiff k &&& ~~~laneMask lost)).setSpar k (s.spar k &&& ~~~lost)

/-- What a write does first to the old word of shared SRAM (R380). -/
def State.prepareShared (s : State) (m w : Nat) : State :=
  let f := s.flaw w
  if f.invalid = 0 then (if f.tagSettled then s.bump R.MEM_CNT_TAGFIX.COUNT else s)
  else
    let k := rowOf w
    let lost := if f.tagOpen then 0xFF#8 else s.lost w
    if f.poisoned then s
    else if lost ≠ 0 then s.settleRow m k lost
    else
      let d := s.sdiff k &&& laneMask f.invalid
      (((s.putWord w (s.word w ^^^ d)).setSdiff k (s.sdiff k ^^^ d)).setFlaw w {}).corrected 0

/-- What a write narrower than a word does first to the old word elsewhere. -/
def State.prepareOther (s : State) (m w : Nat) : State :=
  if isLocal w ∨ isDram w then (s.readWord m w).st else s

/-- A word holds the poisoned encoding of its memory. -/
def State.wordPoisoned (s : State) (w : Nat) : Bool :=
  if isDram w then (s.flaw w).par == 0xFF#8 else (s.flaw w).poisoned

/-- Bytes written into one word from byte offset o of it: an 8-byte write leaves it clean, a narrower one leaves a poisoned
word poisoned with the new bytes merged (R380). -/
def State.writeWord (s : State) (m w o : Nat) (bs : List Byte) : State :=
  let full := o == 0 && bs.length == 8
  let s := if isShared w then s.prepareShared m w else if full then s else s.prepareOther m w
  let s := s.putBytes (8 * w + o) bs
  if full || isMram w then s.setFlaw w {}
  else if s.wordPoisoned w then s.setFlaw w poisonFlaw
  else if isShared w then s.setFlaw w {}
  else s

/-- Bytes written from a physical address, word by word; `n` bounds the words. -/
def State.writeWords (s : State) (m a : Nat) (bs : List Byte) : Nat → State
  | 0 => s
  | n + 1 =>
    let o := a % 8
    let k := 8 - o
    let s := s.writeWord m (wordOf a) o (bs.take k)
    if bs.length ≤ k then s else State.writeWords s m (a + k) (bs.drop k) n

/-- Bytes written by a master from a physical address. -/
def State.write (s : State) (m a : Nat) (bs : List Byte) : State :=
  if bs.isEmpty then s else s.writeWords m a bs (bs.length + 1)

/-- A number of n bytes written by a master. -/
def State.writeNum (s : State) (m a n v : Nat) : State := s.write m a (bytesLE v n)

/-- A copy engine writes a poisoned word: its data with the poisoned encoding (R380). -/
def State.writePoison (s : State) (m w : Nat) (d : Word64) : State :=
  let s := s.writeWord m w 0 (bytesLE d.toNat 8)
  if isMram w then s else s.setFlaw w poisonFlaw

/-- What a master receives of a range of bytes: the bytes, the address of the first poisoned word if any, whether it was
found now, and the state after. -/
structure Fetched where
  bytes : List Byte := []
  poison : Option Nat := none
  new : Bool := false
  lanes : BitVec 8 := 0xFF
  st : State

/-- The words from w to w + n − 1 read in turn. -/
def State.readWords (s : State) (m w : Nat) : Nat → Fetched
  | 0 => { st := s }
  | n + 1 =>
    let r := s.readWord m w
    let rest := State.readWords r.st m (w + 1) n
    { bytes := bytesLE r.data.toNat 8 ++ rest.bytes
      poison := if r.poisoned then some (8 * w) else rest.poison
      new := if r.poisoned then r.new else rest.new
      lanes := if r.poisoned then r.lanes else rest.lanes
      st := rest.st }

/-- A range of n bytes read by a master from a physical address. -/
def State.fetch (s : State) (m a n : Nat) : Fetched :=
  let w := wordOf a
  let r := s.readWords m w (wordOf (a + (n - 1)) + 1 - w)
  { r with bytes := (r.bytes.drop (a % 8)).take n }

/-- A number of n bytes read by a master. -/
def State.fetchNum (s : State) (m a n : Nat) : Nat := natLE (s.fetch m a n).bytes

/-- Whether any word of a range is poisoned or will be found uncorrectable by a read. -/
def State.poisonIn (s : State) (m a n : Nat) : Option Nat := (s.fetch m a n).poison

/-- Masters of MEM_UE_INFO (Table 11-8). -/
def mDresser : Nat := 17
def mImage : Nat := 18
def mHopper : Nat := 19
def mEngine : Nat := 20

/-- An egress channel halts at a poisoned word (R386): held in MEM_EGR, raised, recorded. -/
def State.egressHalt (s : State) (chan unit a : Nat) : State :=
  let s := (s.raise R.MEM_INTSTAT.EGRHALT).event 0x0B05 (unit := unit) (subj := a) (val1 := chan)
  let s := if chan = 1 then s.raise R.MEM_EGR_HALT.FABTX else if chan = 2 then s.raise R.MEM_EGR_HALT.MIRROR else s
  if s.on R.MEM_EGR_INFO.VALID then s
  else
    (((s.wr R.MEM_EGR_ADDR.ADDR a).wr R.MEM_EGR_INFO.CHAN chan).wr R.MEM_EGR_INFO.UNIT unit).raise R.MEM_EGR_INFO.VALID

/-! What the memory system keeps for a core. -/

def State.hart (s : State) (c : Nat) : CoreTrap := SMap.get (fun _ => ({} : CoreTrap)) s.integ.traps c

def State.setHart (s : State) (c : Nat) (x : CoreTrap) : State :=
  { s with integ := { s.integ with traps := SMap.set (fun _ => ({} : CoreTrap)) s.integ.traps c x } }

end Sys2Proof.Machine
end

