-- ==== Sys2Proof/Machine/AsnOps.lean ====
section
/-!
DEFINITION. Assist rings (R37 to R43): posting a descriptor, reaping the oldest completed one, timing one out, the
check of a ring at enable.
-/

namespace Sys2Proof

/-- The unit whose enable pair governs a block's assist ring. -/
def AsnBlock.unit : AsnBlock → UnitId
  | .hop => .hop
  | .fab => .fab
  | .loop => .loop
  | .mtr => .mtr
  | .can c => .can c
  | .key => .key
  | .evt => .evt

/-- A block's ring among the rings kept. -/
def AsnBlock.key' : AsnBlock → Nat
  | .hop => 0
  | .fab => 1
  | .loop => 2
  | .mtr => 3
  | .key => 4
  | .evt => 5
  | .can c => 6 + c.val

/-- The assist registers (Tables 1-13 to 1-20). -/
def AsnBlock.BASE (b : AsnBlock) : Machine.Fld := ⟨b.unit.base + 0x40, 5, 27⟩
def AsnBlock.LOG2N (b : AsnBlock) : Machine.Fld := ⟨b.unit.base + 0x44, 0, 4⟩
def AsnBlock.SRV_KIND (b : AsnBlock) : Machine.Fld := ⟨b.unit.base + 0x44, 4, 2⟩
def AsnBlock.SRV_CORE (b : AsnBlock) : Machine.Fld := ⟨b.unit.base + 0x44, 8, 4⟩
def AsnBlock.SRV_NODE (b : AsnBlock) : Machine.Fld := ⟨b.unit.base + 0x44, 16, 12⟩
def AsnBlock.TMO (b : AsnBlock) : Machine.Fld := ⟨b.unit.base + 0x48, 0, 16⟩
def AsnBlock.POST (b : AsnBlock) : Machine.Fld := ⟨b.unit.base + 0x4C, 0, 16⟩
def AsnBlock.REAP (b : AsnBlock) : Machine.Fld := ⟨b.unit.base + 0x50, 0, 16⟩
def AsnBlock.FULL (b : AsnBlock) : Machine.Fld := ⟨b.unit.base + 0x54, 0, 1⟩
def AsnBlock.LATE (b : AsnBlock) : Machine.Fld := ⟨b.unit.base + 0x54, 1, 1⟩
def AsnBlock.BADRING (b : AsnBlock) : Machine.Fld := ⟨b.unit.base + 0x54, 2, 1⟩
def AsnBlock.DROP (b : AsnBlock) : Machine.Fld := ⟨b.unit.base + 0x58, 0, 32⟩
def AsnBlock.TOCNT (b : AsnBlock) : Machine.Fld := ⟨b.unit.base + 0x5C, 0, 32⟩

/-- A block's event source (Table 13-2). -/
def AsnBlock.source : AsnBlock → Nat
  | .hop => 0x04
  | .fab => 0x05
  | .loop => 0x07
  | .mtr => 0x08
  | .can _ => 0x0A
  | .key => 0x0C
  | .evt => 0x0D

/-- A remote host may serve the function (Table 1-11). -/
def AsnBlock.remoteAllowed : AsnBlock → Bool
  | .mtr => true
  | .fab => true
  | .evt => true
  | _ => false

/-- A control core may serve the function (Table 1-11). -/
def AsnBlock.coreAllowed : AsnBlock → Bool
  | .key => false
  | _ => true

end Sys2Proof

namespace Sys2Proof.Machine

/-- A block's posted descriptors, the oldest first. -/
def State.posts (s : State) (b : AsnBlock) : List AsnPost := SMap.get (fun _ => []) s.asn b.key'

def State.setPosts (s : State) (b : AsnBlock) (ps : List AsnPost) : State :=
  { s with asn := SMap.set (fun _ => []) s.asn b.key' ps }

/-- Ring size N (R40). -/
def State.ringSize (s : State) (b : AsnBlock) : Nat := 2 ^ s.rd b.LOG2N

/-- Where the descriptor of a SEQ lies (R40). -/
def State.slotAddr (s : State) (b : AsnBlock) (seq : Nat) : Nat :=
  32 * s.rd b.BASE + 32 * (seq % s.ringSize b)

/-- The ring is full (R40, rule 4). -/
def State.ringFull (s : State) (b : AsnBlock) : Bool :=
  (s.rd b.POST + 0x10000 - s.rd b.REAP) % 0x10000 == s.ringSize b

/-- FULL follows the ring. -/
def State.syncFull (s : State) (b : AsnBlock) : State := s.wrb b.FULL (s.ringFull b)

/-- Bytes 0 to 7 of a descriptor (Table 1-12). -/
def descHead (seq func flags src status : Nat) : List Byte :=
  bytesLE seq 2 ++ bytesLE func 1 ++ bytesLE flags 1 ++ bytesLE src 2 ++ bytesLE status 2

/-- The server's core: SVC, or the designated control core (Table 1-14). -/
def State.serverCore (s : State) (b : AsnBlock) : Nat := if s.rd b.SRV_KIND = 1 then s.rd b.SRV_CORE else 16

/-- The server signalled of a post (R40, rule 1): the assist interrupt of SVC or of the control core; a remote host is told by a
frame (`asnPostTo`). -/
def State.signalServer (s : State) (b : AsnBlock) : State :=
  if s.rd b.SRV_KIND = 2 then s
  else
    let x := s.hart (s.serverCore b)
    s.setHart (s.serverCore b) { x with assistIrqs := x.assistIrqs + 1 }

/-- A descriptor posted with its 16 argument bytes and its MT (R40, rule 1; the present MT unless the block states another); with a full ring the unit is refused and counted, and the
event `code` recorded (rule 4); where the block's chapter names no event for it, the code within the block's source is free
(notes/assumptions/12). The flag tells which. -/
def State.asnPost (s : State) (b : AsnBlock) (func src : Nat) (arg : List Byte) (poison : Bool) (ctx : List Nat)
    (code : Option Nat) (at_ : Nat := s.mtNs) : Bool × State :=
  if s.ringFull b then
    match code with
    | some 0 => (false, s.bump b.DROP)
    | some c => (false, (s.bump b.DROP).event c (unit := src))
    | none => (false, ((s.bump b.DROP).event (b.source * 256 + Config.freeNat s.fresh % 64) (unit := src)).taken)
  else
    let seq := s.rd b.POST
    let a := s.slotAddr b seq
    let s := s.write mEngine (a + 8) (bytesLE at_ 8 ++ arg)
    let s := s.write mEngine a (descHead seq func (if poison then 3 else 1) src 0)
    let s := s.wr b.POST (seq + 1)
    let p : AsnPost := { seq := seq, func := func, src := src, postedAt := s.now, poison := poison, ctx := ctx }
    (true, ((s.setPosts b (s.posts b ++ [p])).syncFull b).signalServer b)

/-- What a reap finds (R40, rule 3). -/
structure Reaped where
  post : AsnPost
  /-- STATUS, 0 OK. -/
  status : Nat
  /-- Bytes 16 to 31. -/
  result : List Byte
  /-- The result is to be applied: STATUS OK, in time, and no poison in the argument (R41, R43). -/
  ok : Bool
  st : State

/-- A descriptor is still owned by the server: OWN is 1. -/
def State.owned (s : State) (b : AsnBlock) (p : AsnPost) : Bool := s.num (s.slotAddr b p.seq + 3) 1 % 2 == 1

/-- The oldest descriptor, taken when its OWN is 0; a result after the timeout sets LATE and is discarded (R41). -/
def State.asnReap (s : State) (b : AsnBlock) : Option Reaped :=
  match s.posts b with
  | [] => none
  | p :: rest =>
    let a := s.slotAddr b p.seq
    if s.owned b p then none
    else
      let s' := ((s.setPosts b rest).wr b.REAP (p.seq + 1)).syncFull b
      let s' := if p.timedOut then s'.raise b.LATE else s'
      let r := s'.fetch mEngine (a + 16) 16
      let status := s.num (a + 6) 2
      some { post := p, status := status, result := r.bytes
             ok := status == 0 && !p.timedOut && !p.poison && r.poison.isNone, st := r.st }

/-- Every completed descriptor from the oldest on, each applied (R40, rule 3); `n` bounds the loop. -/
def State.asnKick (s : State) (b : AsnBlock) (apply : Reaped → State) : Nat → State
  | 0 => s
  | n + 1 =>
    match s.asnReap b with
    | none => s
    | some r => State.asnKick (apply r) b apply n

/-- The first descriptor still owned by the server whose time has run out: marked, counted, and its post (R41). -/
def State.asnTimeout (s : State) (b : AsnBlock) : Option (AsnPost × State) :=
  let late := fun (p : AsnPost) => !p.timedOut && s.owned b p && p.postedAt + us * s.rd b.TMO ≤ s.now
  match (s.posts b).find? late with
  | none => none
  | some p =>
    let ps := (s.posts b).map fun q => if q.seq == p.seq then { q with timedOut := true } else q
    some (p, (s.setPosts b ps).bump b.TOCNT)

/-- The ring fails the check at enable (R37, R40 rule 5). -/
def State.ringBad (s : State) (b : AsnBlock) : Bool :=
  let n := s.ringSize b
  let base := 32 * s.rd b.BASE
  let kind := s.rd b.SRV_KIND
  let node := s.rd b.SRV_NODE
  !inGeneral base (32 * n) || base % (32 * n) != 0
    || (kind == 1 && !b.coreAllowed)
    || (kind == 2 && (!b.remoteAllowed || node == 0 || node == 4095))

/-- A successful check empties the ring (R40 rule 5). -/
def State.ringStart (s : State) (b : AsnBlock) : State :=
  (((s.wr b.POST 0).wr b.REAP 0).setPosts b []).syncFull b

end Sys2Proof.Machine
end

