-- ==== Sys2Proof/Machine/Operands.lean ====
section
/-!
DEFINITION. The operands of commands: outputs and their registers, banked registers (one copy per master), the elements of a
register array, the windows of the register space, the time registers, and the sizes of a core's access.
-/

namespace Sys2Proof

/-- The key of an output's field side in `DioState.outs`. -/
def OutCh.key : OutCh → Nat
  | .digital c => c
  | .analog c => 32 + c

/-- The module has the output: DO0 to DO23, AO0 to AO7. -/
def OutCh.ok : OutCh → Bool
  | .digital c => c < 24
  | .analog c => c < 8

/-- The channel number. -/
def OutCh.ch : OutCh → Nat
  | .digital c => c
  | .analog c => c

/-- CH has the value: 0 to 31 in DIO_DO_CMD, 0 to 7 in AIO_AO_CMD. -/
def OutCh.nameable : OutCh → Bool
  | .digital c => c < 32
  | .analog c => c < 8

def OutCh.FSTATE : OutCh → Machine.Fld
  | .digital c => Machine.R.DIO_DO_STAT.FSTATE c
  | .analog c => Machine.R.AIO_AO_STAT.FSTATE c

def OutCh.OC : OutCh → Machine.Fld
  | .digital c => Machine.R.DIO_DO_STAT.OC c
  | .analog c => Machine.R.AIO_AO_STAT.OC c

def OutCh.isAnalog : OutCh → Bool
  | .digital _ => false
  | .analog _ => true

end Sys2Proof

namespace Sys2Proof.Machine

/-- A register with one copy for each master (R84 SCH_DISP, R446 EVT_SW registers). -/
def RegDesc.banked (d : RegDesc) : Bool := d.dims.any (·.2 == 0x1000000)

/-- Where master m's copy of a banked register is kept. -/
def bankAddr (m a : Nat) : Nat := a + 0x1000000 * m

/-- Where master m finds a register. -/
def RegDesc.place (d : RegDesc) (m a : Nat) : Nat := if d.banked then bankAddr m a else a

/-- The element of an array of `count` registers `stride` apart from `base` at an address. -/
def elem (base stride count a : Nat) : Option Nat :=
  if base ≤ a ∧ (a - base) % stride = 0 ∧ (a - base) / stride < count then some ((a - base) / stride) else none

/-- The unit of a controller. -/
def canUnit (c : Nat) : UnitId := .can (Fin.ofNat 4 c)

/-- The block that an OFF-only field belongs to, by its window (Table 1-3). -/
def unitAt (a : Nat) : UnitId :=
  if 0x400B0000 ≤ a ∧ a < 0x400C0000 then canUnit ((a - 0x400B0000) / 0x4000)
  else if 0x400C0000 ≤ a ∧ a < 0x400D0000 then .key
  else if 0x400D0000 ≤ a ∧ a < 0x400E0000 then .evt
  else .upd

/-- The SVC mailbox window (R201), by word. -/
def mailboxWord (a : Nat) : Option Nat := elem 0x40058000 4 0x1400 a

/-- The time registers' addresses, SUBSEC to YEAR. -/
def timeRegs : List Nat :=
  [R.RTC_SUBSEC.addr, R.RTC_SEC.addr, R.RTC_MIN.addr, R.RTC_HOUR.addr, R.RTC_DAY.addr, R.RTC_MON.addr, R.RTC_YEAR.addr]

/-- The access sizes of each kind: instructions of 2 or 4 bytes, atomic operations of 4. -/
def sizeOk (k : MemKind) (n : Nat) : Bool :=
  match k with
  | .fetch => n == 2 || n == 4
  | .amo _ => n == 4
  | _ => n == 1 || n == 2 || n == 4 || n == 8

end Sys2Proof.Machine
end

