-- ==== Sys2Proof/Machine/Records.lean ====
section
/-!
DEFINITION. Records that the module keeps in two copies, each with a count: the copy with the lower count is rewritten
with a count above both, and the valid copy with the higher count is read (R443, R485, R566, R567).
-/

namespace Sys2Proof.Machine

/-- A two-copy record: where the copies lie, their length, where CNT stands in a copy, what makes a copy valid. -/
structure TwoCopy where
  at0 : Nat
  at1 : Nat
  len : Nat
  cntOfs : Nat
  valid : List Byte → Bool

/-- A number at an offset of a byte list. -/
def numAt (bs : List Byte) (o n : Nat) : Nat := natLE ((bs.drop o).take n)

/-- Bytes followed by their CRC-32C. -/
def withCrc (bs : List Byte) : List Byte := bs ++ bytesLE (crc32c bs) 4

/-- A record's last four bytes are the CRC-32C of the bytes before them. -/
def crcOk (bs : List Byte) : Bool := numAt bs (bs.length - 4) 4 == crc32c (bs.take (bs.length - 4))

/-- n zero bytes. -/
def zeros (n : Nat) : List Byte := List.replicate n 0#8

/-- The two copies as stored. -/
def TwoCopy.copies (c : TwoCopy) (s : State) : List Byte × List Byte := (s.bytes c.at0 c.len, s.bytes c.at1 c.len)

/-- The valid copy with the higher count. -/
def TwoCopy.best (c : TwoCopy) (s : State) : Option (List Byte) :=
  let (x, y) := c.copies s
  match c.valid x, c.valid y with
  | true, true => if numAt x c.cntOfs 4 < numAt y c.cntOfs 4 then some y else some x
  | true, false => some x
  | false, true => some y
  | false, false => none

/-- The higher count of the valid copies, 0 with none. -/
def TwoCopy.cnt (c : TwoCopy) (s : State) : Nat :=
  match c.best s with
  | some x => numAt x c.cntOfs 4
  | none => 0

/-- The copy to rewrite: an invalid one, else the one with the lower count. -/
def TwoCopy.target (c : TwoCopy) (s : State) : Nat :=
  let (x, y) := c.copies s
  match c.valid x, c.valid y with
  | true, true => if numAt x c.cntOfs 4 < numAt y c.cntOfs 4 then c.at0 else c.at1
  | true, false => c.at1
  | false, _ => c.at0

/-- A rewrite of the record, made from the new count. -/
def TwoCopy.rewrite (c : TwoCopy) (s : State) (mk : Nat → List Byte) : State :=
  s.write mEngine (c.target s) (mk (c.cnt s + 1))

/-- The start record (R566, Table 18-7). -/
def startRecord : TwoCopy where
  at0 := mramBase + 0x7FE000
  at1 := mramBase + 0x7FE080
  len := 128
  cntOfs := 8
  valid bs := numAt bs 0 4 == 0x54525453 && numAt bs 4 2 == 1 && crcOk bs

/-- The fields of the start record. -/
structure StartRec where
  reqkind : Nat := 0
  crashes : Nat := 0
  lastkind : Nat := 0
  crwin : Nat := 0
  starts : Nat := 0
  lastmt : Nat := 0

/-- The start record as read; with no valid copy REQKIND, CRASHES and LASTMT are 0 (R566). -/
def State.startRec (s : State) : StartRec :=
  match startRecord.best s with
  | none => {}
  | some b =>
    let k := numAt b 12 1
    { reqkind := if k ≤ 2 then k else 0, crashes := numAt b 13 1, lastkind := numAt b 14 1, crwin := numAt b 16 4
      starts := numAt b 20 4, lastmt := numAt b 24 8 }

/-- The start record rewritten (R566). -/
def State.putStartRec (s : State) (r : StartRec) : State :=
  startRecord.rewrite s fun cnt =>
    withCrc (bytesLE 0x54525453 4 ++ bytesLE 1 2 ++ zeros 2 ++ bytesLE cnt 4 ++ bytesLE r.reqkind 1 ++
      bytesLE r.crashes 1 ++ bytesLE r.lastkind 1 ++ zeros 1 ++ bytesLE r.crwin 4 ++ bytesLE r.starts 4 ++
      bytesLE r.lastmt 8 ++ zeros 92)

/-- The identity record (R567). -/
def identityRecord : TwoCopy where
  at0 := mramBase + 0x7F8800
  at1 := mramBase + 0x7F8840
  len := 64
  cntOfs := 8
  valid bs := numAt bs 0 4 == 0x54444952 && numAt bs 4 2 == 1 && crcOk bs

/-- HOP_PINC, the last claimed node, PAIR_EPOCH (R567); 0 with no valid copy. -/
structure IdentRec where
  pinc : Nat := 0
  node : Nat := 0
  epoch : Nat := 0

def State.identRec (s : State) : IdentRec :=
  match identityRecord.best s with
  | none => {}
  | some b => { pinc := numAt b 12 2, node := numAt b 14 2, epoch := numAt b 16 4 }

/-- The identity record rewritten (R567). -/
def State.putIdentRec (s : State) (r : IdentRec) : State :=
  identityRecord.rewrite s fun cnt =>
    withCrc (bytesLE 0x54444952 4 ++ bytesLE 1 2 ++ zeros 2 ++ bytesLE cnt 4 ++ bytesLE r.pinc 2 ++
      bytesLE r.node 2 ++ bytesLE r.epoch 4 ++ zeros 40)

end Sys2Proof.Machine
end

