-- ==== Sys2Proof/Machine/CanOps.lean ====
section
/-!
DEFINITION. The CAN FD controllers' message RAM, transmit buffers and receive buffers (ch10), and the image unit's use of
TB56 to TB63.
-/

namespace Sys2Proof.Machine

def noCan (_ : Nat) : CanState := {}

/-- Controller c. -/
def State.canOf (s : State) (c : Nat) : CanState := SMap.get noCan s.can c

def State.setCan (s : State) (c : Nat) (x : CanState) : State := { s with can := SMap.set noCan s.can c x }

/-- A word of a controller's message RAM, by word number (R345). -/
def State.canRam (s : State) (c w : Nat) : Word := SMap.get (fun _ => 0) (s.canOf c).ram w

def State.setCanRam (s : State) (c w : Nat) (v : Word) : State :=
  s.setCan c { s.canOf c with ram := SMap.set (fun _ => 0) (s.canOf c).ram w v
                              badWords := SMap.set (fun _ => false) (s.canOf c).badWords w false }

/-- Consecutive words of the message RAM. -/
def State.canWords (s : State) (c w n : Nat) : List Word := (List.range n).map fun i => s.canRam c (w + i)

def State.setCanWords (s : State) (c : Nat) : Nat → List Word → State
  | _, [] => s
  | w, v :: vs => State.setCanWords (s.setCanRam c w v) c (w + 1) vs

/-- A word's parity fails. -/
def State.canBad (s : State) (c w : Nat) : Bool := SMap.get (fun _ => false) (s.canOf c).badWords w

/-- First words of the areas of Table 10-4. -/
def tbWord (b : Nat) : Nat := 20 * b
def rbWord (k : Nat) : Nat := 0x1400 / 4 + 20 * k
def filterWord (f : Nat) : Nat := 0x4000 / 4 + 4 * f
def holdWord (h : Nat) : Nat := 0x4800 / 4 + 20 * h

/-- Data bytes of a DLC (ISO 11898-1): 8 at most in a classical frame. -/
def dlcLen (fd : Bool) (dlc : Nat) : Nat :=
  if dlc ≤ 8 then dlc
  else if fd then (match dlc with | 9 => 12 | 10 => 16 | 11 => 20 | 12 => 24 | 13 => 32 | 14 => 48 | _ => 64)
  else 8

/-- The smallest FD DLC that holds n bytes. -/
def dlcFor (n : Nat) : Nat :=
  if n ≤ 8 then n else if n ≤ 12 then 9 else if n ≤ 16 then 10 else if n ≤ 20 then 11 else if n ≤ 24 then 12
  else if n ≤ 32 then 13 else if n ≤ 48 then 14 else 15

/-- The time-stamp counter: 10 MHz from module reset (R361). -/
def State.canTs (s : State) : Nat := (s.now - s.start.resetAt) / 100 % 2 ^ 32

/-! Transmit buffers (R348, R349). -/

def txEmpty : Nat := 0
def txPending : Nat := 1
def txActive : Nat := 2
def txOk : Nat := 3
def txAborted : Nat := 4
def txNoAck : Nat := 5
def txPoison : Nat := 6
def txBadfmt : Nat := 7

/-- A buffer's STAT word. -/
def State.tbStat (s : State) (c b : Nat) : Word := s.canRam c (tbWord b + 3)

def State.setTbStat (s : State) (c b : Nat) (v : Word) : State := s.setCanRam c (tbWord b + 3) v

/-- TXST. -/
def State.txst (s : State) (c b : Nat) : Nat := getField (s.tbStat c b) 0 3

def State.setTxst (s : State) (c b st : Nat) : State := s.setTbStat c b (putField (s.tbStat c b) 0 3 st)

/-- One bit of a group of 32-bit registers. -/
def regBit (reg : Nat → Fld) (b : Nat) : Fld := ⟨(reg (b / 32)).addr, b % 32, 1⟩

/-- A buffer's bits in TXRQ (PENDING or ACTIVE), TXCAN (a cancel is latched) and TXDONE. -/
def canRq (c b : Nat) : Fld := regBit (R.CAN_TXRQ.RQ c) b
def canCan (c b : Nat) : Fld := regBit (R.CAN_TXCAN.CAN c) b
def canDone (c b : Nat) : Fld := regBit (R.CAN_TXDONE.DONE c) b

/-- A buffer reaches an end state (R349). -/
def State.txEndState (s : State) (c b st : Nat) : State :=
  let s := s.setTxst c b st
  ((((s.clear (canRq c b)).clear (canCan c b)).raise (canDone c b)).raise (R.CAN_INTSTAT.TXDONE c))

/-- A buffer goes to PENDING. -/
def State.txPend (s : State) (c b : Nat) : State := (s.setTxst c b txPending).raise (canRq c b)

/-- A request for a buffer (R348). ATTEMPTS and CANCEL_LATE start anew with it (notes/assumptions/20). -/
def State.txRequest (s : State) (c b : Nat) : State :=
  let st := s.txst c b
  if st = txPending ∨ st = txActive then s
  else
    let id := s.canRam c (tbWord b)
    let ctl := s.canRam c (tbWord b + 1)
    let fdf := ctl.getLsbD 4
    let brs := ctl.getLsbD 5
    let s := s.setTbStat c b 0
    if (fdf && !s.on (R.CAN_CFG.FDEN c)) || (brs && !s.on (R.CAN_CFG.BRSEN c)) || (id.getLsbD 30 && fdf) then
      s.txEndState c b txBadfmt
    else s.txPend c b

/-- A cancel of a buffer (R352). -/
def State.txCancel (s : State) (c b : Nat) : State :=
  if s.txst c b = txPending then s.txEndState c b txAborted
  else if s.txst c b = txActive then s.raise (canCan c b)
  else s

/-! Stations (R360). -/

/-- Stations are configured on controller c (R354). -/
def State.stationsOn (s : State) (c : Nat) : Bool :=
  (List.range 64).any fun n =>
    s.on (R.IMG_STN_CFG.EN n) && !s.on (R.IMG_STN_CFG.XPORT n) && s.rd (R.IMG_STN_CFG.CANCH n) == c

/-- A free station transmit buffer: the lowest of TB56 to TB63 that is neither PENDING nor ACTIVE. -/
def State.stnTb (s : State) (c : Nat) : Option Nat :=
  ((List.range 8).map (56 + ·)).find? fun b => s.txst c b ≠ txPending ∧ s.txst c b ≠ txActive

/-- Bytes as the words of a buffer's data. -/
def dataWords (bs : List Byte) : List Word :=
  (List.range 16).map fun i => BitVec.ofNat 32 (natLE ((bs.drop (4 * i)).take 4))

/-- The TYPE of a station PDU (Table 3-7). -/
def pduType (pdu : List Byte) : Nat := numAt pdu 0 1 % 16

/-- A PDU put into a transmit buffer as one FD frame and requested (R102); BRS as the controller permits it. -/
def State.stnPlace (s : State) (c b stn : Nat) (pdu : List Byte) : State :=
  let id := s.rd R.IMG_STN_CANBASE.BASE * 0x100 + (pduType pdu - 1) * 0x40 + stn
  let dlc := dlcFor pdu.length
  let ctl := dlc + 16 + (if s.on (R.CAN_CFG.BRSEN c) then 32 else 0)
  let pad := List.replicate (dlcLen true dlc - pdu.length) 0#8
  let s := s.setCanWords c (tbWord b) [BitVec.ofNat 32 id, BitVec.ofNat 32 ctl]
  (s.setCanWords c (tbWord b + 4) (dataWords (pdu ++ pad))).txRequest c b

/-- Waiting PDUs put into free buffers, the oldest first; `n` bounds them. -/
def State.stnFill (s : State) (c : Nat) : Nat → State
  | 0 => s
  | n + 1 =>
    match (s.canOf c).stnOut, s.stnTb c with
    | (stn, pdu) :: rest, some b =>
      State.stnFill ((s.setCan c { s.canOf c with stnOut := rest }).stnPlace c b stn pdu) c n
    | _, _ => s

/-- The image unit sends PDUs of a station on controller c: a newer OUT replaces a waiting one (R360). -/
def State.canStation (s : State) (c stn : Nat) (pdus : List (List Byte)) : State :=
  let isOut := pdus.any fun p => pduType p == 1
  let x := s.canOf c
  let waiting := x.stnOut.filter fun (n, p) => !(isOut && n == stn && pduType p == 1)
  let s := s.setCan c { x with stnOut := waiting ++ pdus.map fun p => (stn, p) }
  s.stnFill c (s.canOf c).stnOut.length

/-- A buffer reached an end state: a waiting station PDU takes a station buffer that is free. -/
def State.txEnd (s : State) (c b st : Nat) : State :=
  let s := s.txEndState c b st
  s.stnFill c (s.canOf c).stnOut.length

/-! Receive buffers (R356, R357). -/

/-- A receive buffer's bit of RXNEW. -/
def canNew (c k : Nat) : Fld := regBit (R.CAN_RXNEW.NEW c) k

/-- A receive buffer is FULL. -/
def State.rbFull (s : State) (c k : Nat) : Bool := (s.canRam c (rbWord k + 3)).getLsbD 0

/-- The 20 words of a received frame (Table 10-5): data bytes beyond its length are undefined and free. -/
def State.rxWords (s : State) (f : CanFrame) (filter : Nat) : List Word × State :=
  let id := f.id + (if f.xtd then 2 ^ 29 else 0) + (if f.rtr then 2 ^ 30 else 0) + (if f.esi then 2 ^ 31 else 0)
  let ctl := f.dlc % 16 + (if f.fdf then 16 else 0) + (if f.brs && f.fdf then 32 else 0) + 256 * (filter % 128)
  let ts := s.canTs + 2 ^ 32 - f.ago % 2 ^ 32
  let len := if f.rtr then 0 else dlcLen f.fdf f.dlc
  let junk := (List.range (64 - len)).map fun i => (Config.free32 (s.fresh + i)).setWidth 8
  let bytes := (f.data ++ List.replicate 64 0#8).take len ++ junk
  ([BitVec.ofNat 32 id, BitVec.ofNat 32 ctl, BitVec.ofNat 32 ts, 0] ++ dataWords bytes, s.taken 64)

/-- A frame lost or overwritten (R356): counted, raised, recorded once per controller per second. -/
def State.rxovr (s : State) (c k : Nat) : State :=
  let s := (s.bump (R.CAN_CNT_RXOVR.COUNT c)).raise (R.CAN_INTSTAT.RXOVR c)
  if dueAgain (s.canOf c).rxovrAt s.now sec then
    (s.setCan c { s.canOf c with rxovrAt := some s.now }).event 0x0A06 (unit := c) (subj := k)
  else s

/-- A frame written into a buffer: FULL, RXNEW (R356). -/
def State.rbWrite (s : State) (c k : Nat) (ws : List Word) (ovr : Bool) : State :=
  let s := s.setCanWords c (rbWord k) ws
  let s := s.setCanRam c (rbWord k + 3) (if ovr then 3 else 1)
  (s.raise (canNew c k)).raise (R.CAN_INTSTAT.RXNEW c)

/-- A store under R356, the buffer not locked. -/
def State.rbStore (s : State) (c k : Nat) (ws : List Word) : State :=
  if !s.rbFull c k then s.rbWrite c k ws false
  else if s.on (R.CAN_CFG.OVWR c) then (s.rbWrite c k ws true).rxovr c k
  else s.rxovr c k

/-- The command that waits next, in the same CAN cycle, locks buffer k. -/
def State.lockNext (s : State) (c k : Nat) : Bool :=
  match s.pending with
  | .canRxLock d b :: _ => d == c && b == k
  | .registerWrite _ a v :: _ =>
    a == R.CAN_RXLOCK.addr c && v.getLsbD 8 && (R.CAN_RXLOCK.BUF c).of v == k
  | _ => false

/-- A store of a frame for buffer k: into a shadow while the buffer is locked, or as it is being locked (R357, R358). -/
def State.rxStore (s : State) (c k : Nat) (ws : List Word) : State :=
  let x := s.canOf c
  if x.lock.any (·.buf == k) || s.lockNext c k then
    if x.shadows.any (·.buf == k) then
      let s := if s.on (R.CAN_CFG.OVWR c) then
          s.setCan c { x with shadows := x.shadows.map fun h => if h.buf == k then { h with words := ws } else h }
        else s
      s.rxovr c k
    else if x.shadows.length < 8 then s.setCan c { x with shadows := x.shadows ++ [{ buf := k, words := ws }] }
    else s.rxovr c k
  else s.rbStore c k ws

/-- The FIFO's LEVEL and GET as registers show them: GET names the receive buffer of the oldest frame. -/
def State.fifoSync (s : State) (c : Nat) : State :=
  let x := s.canOf c
  (s.wr (R.CAN_RXFIFO.LEVEL c) x.fifoLevel).wr (R.CAN_RXFIFO.GET c) (s.rd (R.CAN_RXFIFO.FIRST c) + x.fifoGet)

/-- A frame for the FIFO: into the slot after the newest, or lost where it is full (R356). -/
def State.fifoStore (s : State) (c : Nat) (ws : List Word) : State :=
  let n := s.rd (R.CAN_RXFIFO.COUNT c)
  let x := s.canOf c
  let k := s.rd (R.CAN_RXFIFO.FIRST c) + x.fifoPut
  if n ≤ x.fifoLevel then s.rxovr c k
  else
    let s := s.setCan c { x with fifoPut := (x.fifoPut + 1) % n, fifoLevel := x.fifoLevel + 1 }
    (s.rxStore c k ws).fifoSync c

/-- Buffer k freed: FULL and its RXNEW bit clear. -/
def State.rbFree (s : State) (c k : Nat) : State :=
  (s.setCanRam c (rbWord k + 3) (putField (s.canRam c (rbWord k + 3)) 0 1 0)).clear (canNew c k)

/-- The oldest FIFO slot freed (R357). -/
def State.fifoPop (s : State) (c : Nat) : State :=
  let x := s.canOf c
  if x.fifoLevel = 0 then s
  else
    let s := s.rbFree c (s.rd (R.CAN_RXFIFO.FIRST c) + x.fifoGet)
    let x := s.canOf c
    (s.setCan c { x with fifoGet := (x.fifoGet + 1) % max 1 (s.rd (R.CAN_RXFIFO.COUNT c))
                         fifoLevel := x.fifoLevel - 1 }).fifoSync c

/-- The lock released: a shadow moves into the buffer as one store (R357). -/
def State.rxUnlock (s : State) (c : Nat) : State :=
  let x := s.canOf c
  match x.lock with
  | none => s
  | some l =>
    let s := s.setCan c { x with lock := none, shadows := x.shadows.filter (·.buf != l.buf) }
    match x.shadows.find? (·.buf == l.buf) with
    | some h => s.rbStore c l.buf h.words
    | none => s

/-! The acceptance filters (R355). -/

/-- A filter's fields: TYPE, XTD, ID1, ID2, RXBUF, FIFO, ACTION. -/
structure CanFilter where
  typ : Nat
  xtd : Bool
  id1 : Nat
  id2 : Nat
  rxbuf : Nat
  fifo : Bool
  action : Nat
  deriving DecidableEq, Repr

def State.canFilter (s : State) (c f : Nat) : CanFilter :=
  let w := fun i => s.canRam c (filterWord f + i)
  { typ := getField (w 0) 30 2, xtd := (w 0).getLsbD 29, id1 := getField (w 0) 0 29, id2 := getField (w 1) 0 29
    rxbuf := getField (w 2) 0 7, fifo := (w 2).getLsbD 7, action := getField (w 2) 8 2 }

/-- The filter matches a frame. -/
def CanFilter.hits (t : CanFilter) (f : CanFrame) : Bool :=
  t.typ != 0 && t.xtd == f.xtd &&
    (if t.typ = 1 then Nat.land (Nat.xor f.id t.id1) t.id2 == 0
     else if t.typ = 2 then t.id1 ≤ f.id && f.id ≤ t.id2
     else f.id == t.id1 || f.id == t.id2)

/-- A receive buffer lies in the FIFO's range. -/
def State.inFifo (s : State) (c k : Nat) : Bool :=
  s.rd (R.CAN_RXFIFO.FIRST c) ≤ k && k < s.rd (R.CAN_RXFIFO.FIRST c) + s.rd (R.CAN_RXFIFO.COUNT c)

/-- What EN finds wrong with a controller's timing (R342). -/
def State.canTimingBad (s : State) (c : Nat) : Bool :=
  let f := fun (x : Fld) => s.rd x + 1
  let seg1 := f (R.CAN_NBT.NTSEG1 c)
  let seg2 := f (R.CAN_NBT.NTSEG2 c)
  let bit := f (R.CAN_NBT.NBRP c) * (1 + seg1 + seg2)
  let dseg2 := f (R.CAN_DBT.DTSEG2 c)
  let dbit := f (R.CAN_DBT.DBRP c) * (1 + f (R.CAN_DBT.DTSEG1 c) + dseg2)
  bit < 80 || 8000 < bit || dbit < 16 || seg2 < f (R.CAN_NBT.NSJW c) || dseg2 < f (R.CAN_DBT.DSJW c)
    || (s.on (R.CAN_NBT.TRIPLE c) && (s.on (R.CAN_CFG.FDEN c) || bit < 640 || seg1 < 3)) || seg1 == 1

/-- What EN finds wrong with a controller: cause and argument (Table 10-12). -/
def State.canFault (s : State) (c : Nat) : Option (Nat × Nat) :=
  let bad := fun f =>
    let t := s.canFilter c f
    t.typ ≠ 0 ∧ (2 ≤ t.action ∨ (t.action = 0 ∧ !t.fifo ∧ s.inFifo c t.rxbuf))
  if s.canTimingBad c then some (1, 0)
  else if 128 < s.rd (R.CAN_RXFIFO.FIRST c) + s.rd (R.CAN_RXFIFO.COUNT c) then some (2, 0)
  else
    match (List.range 128).find? fun f => bad f with
    | some f => some (2, f)
    | none => if s.assist (canUnit c) ∧ s.ringBad (.can (Fin.ofNat 4 c)) then some (4, 0) else none

/-- A controller starts from OFF (R368): counters 0, bus integration; one that was in BUS_OFF first recovers (R363). -/
def State.canStart (s : State) (c : Nat) : State :=
  let off := s.rd (R.CAN_ERR.EST c) == 2
  let passive := s.rd (R.CAN_ERR.EST c) == 1
  let s := ((s.wr (R.CAN_ERR.TEC c) 0).wr (R.CAN_ERR.REC c) 0).clear (R.CAN_STAT.SLEEP c)
  let s := if off then s else s.wr (R.CAN_ERR.EST c) 0
  let s := if passive then s.raise (R.CAN_INTSTAT.ERRACT c) else s
  let x := s.canOf c
  let s := s.setCan c { x with sleepPending := false
                               recovering := off && (x.recovering || s.on (R.CAN_CFG.BOAUTO c)) }
  s.raise (R.CAN_STAT.INTEG c)

end Sys2Proof.Machine
end

