-- ==== Sys2Proof/Machine/Sha.lean ====
section
/-!
DEFINITION. SHA-256 (FIPS 180-4), HMAC-SHA-256 (FIPS 198-1) and the KDF of R410.
-/

namespace Sys2Proof.Machine

/-- The constants of SHA-256's rounds. -/
def shaK0 : List Word := [
  0x428a2f98#32, 0x71374491#32, 0xb5c0fbcf#32, 0xe9b5dba5#32, 0x3956c25b#32, 0x59f111f1#32, 0x923f82a4#32, 0xab1c5ed5#32,
  0xd807aa98#32, 0x12835b01#32, 0x243185be#32, 0x550c7dc3#32, 0x72be5d74#32, 0x80deb1fe#32, 0x9bdc06a7#32, 0xc19bf174#32,
  0xe49b69c1#32, 0xefbe4786#32, 0x0fc19dc6#32, 0x240ca1cc#32, 0x2de92c6f#32, 0x4a7484aa#32, 0x5cb0a9dc#32, 0x76f988da#32,
  0x983e5152#32, 0xa831c66d#32, 0xb00327c8#32, 0xbf597fc7#32, 0xc6e00bf3#32, 0xd5a79147#32, 0x06ca6351#32, 0x14292967#32]

def shaK1 : List Word := [
  0x27b70a85#32, 0x2e1b2138#32, 0x4d2c6dfc#32, 0x53380d13#32, 0x650a7354#32, 0x766a0abb#32, 0x81c2c92e#32, 0x92722c85#32,
  0xa2bfe8a1#32, 0xa81a664b#32, 0xc24b8b70#32, 0xc76c51a3#32, 0xd192e819#32, 0xd6990624#32, 0xf40e3585#32, 0x106aa070#32,
  0x19a4c116#32, 0x1e376c08#32, 0x2748774c#32, 0x34b0bcb5#32, 0x391c0cb3#32, 0x4ed8aa4a#32, 0x5b9cca4f#32, 0x682e6ff3#32,
  0x748f82ee#32, 0x78a5636f#32, 0x84c87814#32, 0x8cc70208#32, 0x90befffa#32, 0xa4506ceb#32, 0xbef9a3f7#32, 0xc67178f2#32]

/-- The initial hash value of SHA-256. -/
def shaInit : List Word := [
  0x6a09e667#32, 0xbb67ae85#32, 0x3c6ef372#32, 0xa54ff53a#32, 0x510e527f#32, 0x9b05688c#32, 0x1f83d9ab#32, 0x5be0cd19#32]

/-- A big-endian number of the bytes. -/
def natBE (bs : List Byte) : Nat := bs.foldl (fun n b => 256 * n + b.toNat) 0

/-- The n bytes of a number, the high byte first. -/
def bytesBE (x n : Nat) : List Byte := (bytesLE x n).reverse

/-- The list cut into pieces of n. -/
def chunks {α : Type} (n : Nat) (xs : List α) : List (List α) :=
  (List.range ((xs.length + (n - 1)) / n)).map fun i => (xs.drop (n * i)).take n

/-- The message schedule, the newest word first. -/
def shaSchedule (blk : List Byte) : List Word :=
  (List.range 48).foldl (fun (w : List Word) _ =>
    let a := w.getD 14 0
    let b := w.getD 1 0
    (((b.rotateRight 17 ^^^ b.rotateRight 19 ^^^ (b >>> 10)) + w.getD 6 0 +
      (a.rotateRight 7 ^^^ a.rotateRight 18 ^^^ (a >>> 3)) + w.getD 15 0) :: w))
    ((chunks 4 blk).map fun c => BitVec.ofNat 32 (natBE c)).reverse

/-- One round on (a, ..., h). -/
def shaRound (v : List Word) (kw : Word × Word) : List Word :=
  match v with
  | [a, b, c, d, e, f, g, h] =>
    let t1 := h + (e.rotateRight 6 ^^^ e.rotateRight 11 ^^^ e.rotateRight 25) + ((e &&& f) ^^^ (~~~e &&& g)) + kw.1 + kw.2
    let t2 := (a.rotateRight 2 ^^^ a.rotateRight 13 ^^^ a.rotateRight 22) + ((a &&& b) ^^^ (a &&& c) ^^^ (b &&& c))
    [t1 + t2, a, b, c, d + t1, e, f, g]
  | v => v

/-- A block of 64 bytes taken into a hash value. -/
def shaBlock (h : List Word) (blk : List Byte) : List Word :=
  ((((shaK0 ++ shaK1).zip (shaSchedule blk).reverse).foldl shaRound h).zip h).map fun (x, y) => x + y

/-- Whole blocks taken into a hash value. -/
def shaBlocks (h : List Word) (bs : List Byte) : List Word := (chunks 64 bs).foldl shaBlock h

/-- The padding of a message of n bytes. -/
def shaPad (n : Nat) : List Byte :=
  0x80#8 :: List.replicate ((119 - n % 64) % 64) 0#8 ++ bytesBE (8 * n) 8

/-- A hash value as its 32 bytes. -/
def shaBytes (h : List Word) : List Byte := h.flatMap fun w => bytesBE w.toNat 4

def sha256 (bs : List Byte) : List Byte := shaBytes (shaBlocks shaInit (bs ++ shaPad bs.length))

/-- HMAC-SHA-256. -/
def hmac (key msg : List Byte) : List Byte :=
  let k := if 64 < key.length then sha256 key else key
  let k := k ++ List.replicate (64 - k.length) 0#8
  sha256 (k.map (· ^^^ 0x5C#8) ++ sha256 (k.map (· ^^^ 0x36#8) ++ msg))

/-- The ASCII bytes of a label. -/
def ascii (l : String) : List Byte := l.toList.map fun c => BitVec.ofNat 8 c.toNat

/-- KDF(KI, label, context) with L bits, a multiple of 8 (R410). -/
def kdf (ki label ctx : List Byte) (l : Nat := 256) : List Byte :=
  ((List.range ((l + 255) / 256)).flatMap fun i =>
    hmac ki (bytesBE (i + 1) 4 ++ label ++ [0#8] ++ ctx ++ bytesBE l 4)).take (l / 8)

end Sys2Proof.Machine
end

