-- ==== Sys2Proof/Machine/Aes.lean ====
section
/-!
DEFINITION. AES-256 (FIPS 197) and its GCM mode with 12-byte nonces and 16-byte tags (SP 800-38D), which ch05, ch06 and ch12
name.
-/

namespace Sys2Proof.Machine

/-- Multiplication by x in the field of AES. -/
def aesX (a : Byte) : Byte := (a <<< 1) ^^^ (if a.msb then 0x1B#8 else 0#8)

/-- Multiplication in the field of AES. -/
def aesMul (a b : Byte) : Byte :=
  ((List.range 8).foldl (fun (acc : Byte × Byte) i =>
    (if b.getLsbD i then acc.1 ^^^ acc.2 else acc.1, aesX acc.2)) (0#8, a)).1

/-- The inverse in the field of AES, 0 of 0: the 254th power. -/
def aesInv (a : Byte) : Byte :=
  let sq := fun x => aesMul x x
  (List.range 6).foldl (fun (acc : Byte) _ => aesMul (sq acc) (sq a)) (sq a)

/-- The substitution box. -/
def aesSub (a : Byte) : Byte :=
  let b := aesInv a
  b ^^^ b.rotateLeft 1 ^^^ b.rotateLeft 2 ^^^ b.rotateLeft 3 ^^^ b.rotateLeft 4 ^^^ 0x63#8

/-- The box as a table. -/
def aesBox : Array Byte := ((List.range 256).map fun i => aesSub (BitVec.ofNat 8 i)).toArray

def aesS (a : Byte) : Byte := aesBox.getD a.toNat 0#8

/-- Bytes combined by exclusive or, as many as the shorter list has. -/
def xorBytes (a b : List Byte) : List Byte := (a.zip b).map fun (x, y) => x ^^^ y

/-- The key schedule, the newest word first: 52 words after the 8 of the key. -/
def aesSchedule (key : List Byte) : List (List Byte) :=
  ((List.range 52).foldl (fun (acc : List (List Byte) × Byte) j =>
    let i := j + 8
    let w := acc.1
    let t := w.headD []
    let (t, rc) :=
      if i % 8 = 0 then
        (xorBytes ((t.drop 1 ++ t.take 1).map aesS) [acc.2, 0#8, 0#8, 0#8], aesX acc.2)
      else if i % 8 = 4 then (t.map aesS, acc.2)
      else (t, acc.2)
    (xorBytes (w.getD 7 []) t :: w, rc)) ((chunks 4 key).reverse, 1#8)).1

/-- The 15 round keys. -/
def aesRoundKeys (key : List Byte) : List (List Byte) := chunks 16 (aesSchedule key).reverse.flatten

/-- ShiftRows: byte r of column c comes from column c + r. -/
def aesShift (b : List Byte) : List Byte :=
  (List.range 16).map fun k => b.getD ((k + 4 * (k % 4)) % 16) 0#8

/-- MixColumns of one column. -/
def aesMix (c : List Byte) : List Byte :=
  let g := fun i => c.getD (i % 4) 0#8
  (List.range 4).map fun i => aesX (g i) ^^^ (aesX (g (i + 1)) ^^^ g (i + 1)) ^^^ g (i + 2) ^^^ g (i + 3)

/-- AES-256 of a block under round keys. -/
def aesBlock (ks : List (List Byte)) (blk : List Byte) : List Byte :=
  let st := xorBytes blk (ks.headD [])
  let st := ((ks.drop 1).take 13).foldl (fun st k => xorBytes ((chunks 4 (aesShift (st.map aesS))).flatMap aesMix) k) st
  xorBytes (aesShift (st.map aesS)) (ks.getD 14 [])

/-- Multiplication in the field of GCM; bit 0 of SP 800-38D is the most significant bit. -/
def gcmMul (x y : BitVec 128) : BitVec 128 :=
  ((List.range 128).foldl (fun (acc : BitVec 128 × BitVec 128) i =>
    let z := if x.getMsbD i then acc.1 ^^^ acc.2 else acc.1
    (z, (acc.2 >>> 1) ^^^ (if acc.2.getLsbD 0 then 0xE1#128 <<< 120 else 0#128))) (0#128, y)).1

/-- A block of bytes as a number, short blocks padded with zeros. -/
def gcmNum (bs : List Byte) : BitVec 128 := BitVec.ofNat 128 (natBE (bs ++ List.replicate (16 - bs.length) 0#8))

/-- GHASH of additional data and ciphertext. -/
def ghash (h : BitVec 128) (aad ct : List Byte) : BitVec 128 :=
  let len := BitVec.ofNat 128 (8 * aad.length * 2 ^ 64 + 8 * ct.length)
  ((chunks 16 aad ++ chunks 16 ct).map gcmNum ++ [len]).foldl (fun y x => gcmMul (y ^^^ x) h) 0#128

/-- Counter mode from counter block 2 of a nonce. -/
def gcmCtr (ks : List (List Byte)) (iv data : List Byte) : List Byte :=
  ((chunks 16 data).zipIdx.flatMap fun (c, i) => xorBytes c (aesBlock ks (iv ++ bytesBE (i + 2) 4)))

/-- The 16-byte tag of a ciphertext. -/
def gcmTag (ks : List (List Byte)) (iv aad ct : List Byte) : List Byte :=
  let h := gcmNum (aesBlock ks (List.replicate 16 0#8))
  xorBytes (bytesBE (ghash h aad ct).toNat 16) (aesBlock ks (iv ++ bytesBE 1 4))

/-- GCM encryption: the ciphertext followed by its tag. -/
def gcmSeal (key iv aad pt : List Byte) : List Byte :=
  let ks := aesRoundKeys key
  let ct := gcmCtr ks iv pt
  ct ++ gcmTag ks iv aad ct

/-- GCM decryption of a ciphertext followed by its tag: none where the tag fails. -/
def gcmOpen (key iv aad msg : List Byte) : Option (List Byte) :=
  let n := msg.length - 16
  let ks := aesRoundKeys key
  if msg.length < 16 ∨ gcmTag ks iv aad (msg.take n) ≠ msg.drop n then none else some (gcmCtr ks iv (msg.take n))

end Sys2Proof.Machine
end

