-- ==== Sys2Proof/Machine/P256.lean ====
section
/-!
DEFINITION. The curve P-256 with ECDH and ECDSA (SP 800-186, FIPS 186-5), which ch06 and ch12 name.
-/

namespace Sys2Proof.Machine

/-- The field's prime, the group's order, the coefficient b, the base point. -/
def p256P : Nat := 0xFFFFFFFF00000001000000000000000000000000FFFFFFFFFFFFFFFFFFFFFFFF
def p256N : Nat := 0xFFFFFFFF00000000FFFFFFFFFFFFFFFFBCE6FAADA7179E84F3B9CAC2FC632551
def p256B : Nat := 0x5AC635D8AA3A93E7B3EBBD55769886BC651D06B0CC53B0F63BCE3C3E27D2604B
def p256G : Nat × Nat :=
  (0x6B17D1F2E12C4247F8BCE6E563A440F277037D812DEB33A0F4A13945D898C296,
   0x4FE342E2FE1A7F9B8EE7EB4A7C0F9E162BCE33576B315ECECBB6406837BF51F5)

/-- x to the power e modulo m, for e below 2^256. -/
def powMod (x e m : Nat) : Nat :=
  (List.range 256).foldr (fun i acc => let a := acc * acc % m; if e.testBit i then a * x % m else a) 1

/-- A point: none is the point at infinity. -/
abbrev EcPoint := Option (Nat × Nat)

/-- The point lies on the curve. -/
def ecOn (q : Nat × Nat) : Bool :=
  q.1 < p256P && q.2 < p256P &&
    q.2 * q.2 % p256P == (q.1 * q.1 * q.1 + (p256P - 3) * q.1 + p256B) % p256P

/-- The point of a slope through (x1, y1) and x2. -/
def ecLine (l x1 y1 x2 : Nat) : EcPoint :=
  let x := (l * l + 2 * p256P - x1 - x2) % p256P
  some (x, (l * (x1 + p256P - x) + p256P - y1) % p256P)

/-- Addition. -/
def ecAdd (a b : EcPoint) : EcPoint :=
  match a, b with
  | none, q => q
  | q, none => q
  | some (x1, y1), some (x2, y2) =>
    if x1 = x2 then
      if (y1 + y2) % p256P = 0 then none
      else ecLine ((3 * x1 * x1 + p256P - 3) % p256P * powMod (2 * y1 % p256P) (p256P - 2) p256P % p256P) x1 y1 x2
    else ecLine ((y2 + p256P - y1) % p256P * powMod ((x2 + p256P - x1) % p256P) (p256P - 2) p256P % p256P) x1 y1 x2

/-- A multiple, for a scalar below 2^256. -/
def ecMul (k : Nat) (q : EcPoint) : EcPoint :=
  (List.range 256).foldr (fun i acc => let a := ecAdd acc acc; if k.testBit i then ecAdd a q else a) none

/-- Coordinates as 64 bytes, big-endian. -/
def ecBytes : EcPoint → List Byte
  | none => List.replicate 64 0#8
  | some (x, y) => bytesBE x 32 ++ bytesBE y 32

/-- The point that 64 bytes spell: none where it is not on the curve. -/
def ecOf (bs : List Byte) : EcPoint :=
  let q := (natBE (bs.take 32), natBE ((bs.drop 32).take 32))
  if ecOn q then some q else none

/-- The public key of a private one. -/
def ecPub (d : Nat) : EcPoint := ecMul d (some p256G)

/-- The private key of extra random bits c (R409). -/
def ecPriv (c : Nat) : Nat := c % (p256N - 1) + 1

/-- The x-coordinate of a shared point, as 32 bytes. -/
def ecdhX (d : Nat) (q : EcPoint) : List Byte :=
  match ecMul d q with
  | some (x, _) => bytesBE x 32
  | none => List.replicate 32 0#8

/-- An ECDSA signature r ‖ s of a digest under a private key, with the per-message secret k. -/
def ecdsaSign (d k : Nat) (digest : List Byte) : List Byte :=
  let r := match ecPub k with | some (x, _) => x % p256N | none => 0
  let s := powMod k (p256N - 2) p256N * (natBE digest + r * d) % p256N
  bytesBE r 32 ++ bytesBE s 32

/-- An ECDSA signature verifies. -/
def ecdsaOk (q : EcPoint) (digest sig : List Byte) : Bool :=
  let r := natBE (sig.take 32)
  let s := natBE ((sig.drop 32).take 32)
  let w := powMod s (p256N - 2) p256N
  0 < r && r < p256N && 0 < s && s < p256N && q.isSome &&
    match ecAdd (ecMul (natBE digest * w % p256N) (some p256G)) (ecMul (r * w % p256N) q) with
    | some (x, _) => x % p256N == r
    | none => false

end Sys2Proof.Machine
end

