-- ==== Sys2Proof/Machine/KeyOps.lean ====
section
/-!
DEFINITION. The key vault's slots and their usability, the DRBG, the key-use check, the keys of tenants and sessions (ch06,
ch12).
-/

namespace Sys2Proof.Machine

/-! Slots (R411 to R413). -/

def State.kslot (s : State) (n : Nat) : KeySlot := SMap.get (fun _ => ({} : KeySlot)) s.key.slots n

def State.setKslot (s : State) (n : Nat) (k : KeySlot) : State :=
  { s with key := { s.key with slots := SMap.set (fun _ => ({} : KeySlot)) s.key.slots n k } }

/-- KINDs (Table 12-3). -/
def kdRoot : Nat := 1
def kdKdk : Nat := 2
def kdAes : Nat := 3
def kdEcPriv : Nat := 4
def kdEcPub : Nat := 5

/-- What makes a chain of parents unusable (R413). -/
structure ChainFlaws where
  revoked : Bool := false
  integ : Bool := false
  empty : Bool := false
  deriving DecidableEq, Repr

/-- The flaws on a slot's chain of parents, itself included; at most 7 steps lie above it. -/
def State.chainFlaws (s : State) : Nat → Nat → ChainFlaws
  | 0, _ => { empty := true }
  | d + 1, n =>
    let x := s.kslot n
    if x.kind = 0 then { empty := true }
    else
      let bad := !x.tagOk || x.uncorrectable
      if x.parent = 0xFF then { integ := bad }
      else
        let up := State.chainFlaws s d x.parent
        { revoked := x.pgen != (s.kslot x.parent).gen || up.revoked, integ := bad || up.integ, empty := up.empty }

/-- UCAUSE of a slot (R413, KEY_SATTR): 0 usable, 1 EMPTY, 2 INTEG, 3 KEY_REVOKED. -/
def State.slotCause (s : State) (n : Nat) : Nat :=
  let f := s.chainFlaws 9 n
  if f.revoked then 3 else if f.integ then 2 else if f.empty then 1 else 0

/-- Status codes (Table 12-9). -/
def ksOk : Nat := 0
def ksStaleGen : Nat := 1
def ksRevoked : Nat := 2
def ksEmpty : Nat := 3
def ksInteg : Nat := 4
def ksUsage : Nat := 5
def ksKind : Nat := 6
def ksBadLen : Nat := 7
def ksBadAddr : Nat := 8
def ksAuthFail : Nat := 9
def ksSigBad : Nat := 10
def ksNoSlot : Nat := 11
def ksSlotBusy : Nat := 12
def ksDepth : Nat := 13
def ksEntropy : Nat := 14
def ksNotHeld : Nat := 15
def ksLocked : Nat := 16
def ksPoison : Nat := 17
def ksZeroized : Nat := 18
def ksBadOp : Nat := 19
def ksNoSucc : Nat := 20
def ksBadPoint : Nat := 21

/-- The status of a use of a slot (R413). -/
def causeStatus : Nat → Nat
  | 0 => ksOk
  | 1 => ksEmpty
  | 2 => ksInteg
  | _ => ksRevoked

/-- A use of a slot: its status, and the state with a first INTEG recorded (R413). -/
def State.useSlot (s : State) (n : Nat) : Nat × State :=
  let c := s.slotCause n
  let x := s.kslot n
  if c = 2 ∧ !x.badNoted then
    (ksInteg, ((s.setKslot n { x with badNoted := true }).raise R.KEY_INTSTAT.SLOTBAD).event 0x0C06 (unit := n))
  else (causeStatus c, s)

/-- An operation's result counted (KEY_CNT_OPS to KEY_CNT_AUTHFAIL). -/
def State.keyCount (s : State) (status : Nat) : State :=
  let s := s.bump R.KEY_CNT_OPS.COUNT
  if status = ksRevoked then s.bump R.KEY_CNT_REVOKED.COUNT
  else if status = ksStaleGen then s.bump R.KEY_CNT_STALE.COUNT
  else if status = ksAuthFail ∨ status = ksSigBad then s.bump R.KEY_CNT_AUTHFAIL.COUNT
  else s

/-! The DRBG (R424). Its output is free. -/

def drbgReady : Nat := 1
def drbgError : Nat := 2

def State.drbgOk (s : State) : Bool := s.rd R.KEY_DRBG.STATE == drbgReady

/-- A generate request that takes n free values: reseeded before it where PR is set, or after 2^20 requests. -/
def State.drawn (s : State) (n : Nat := 1) : State :=
  let c := s.rd R.KEY_DRBG_CNT.CNT
  (s.taken n).wr R.KEY_DRBG_CNT.CNT (if s.on R.KEY_DRBG.PR ∨ 2 ^ 20 ≤ c then 1 else c + 1)

/-- n random bytes from the i-th free values on. -/
def drbgBytes (i n : Nat) : List Byte :=
  ((List.range ((n + 31) / 32)).flatMap fun k => bytesBE (Config.free256 (i + k)).toNat 32).take n

/-! Tenants (R205, R213). -/

/-- A tenant table entry (Table 6-3). -/
structure Tenant where
  rights : Nat
  maxsess : Nat
  gen : Nat
  idleS : Nat
  lifeMin : Nat
  trate : Nat
  tburst : Nat
  srate : Nat
  sburst : Nat
  deriving DecidableEq, Repr

def State.tenantAddr (s : State) (t : Nat) : Nat := 0x40000 * s.rd R.GATE_TBASE.BASE + 32 * t

/-- A tenant's entry; one with a field outside its range has MAXSESS 0, and so has one that cannot be read (R205). -/
def State.tenant (s : State) (t : Nat) : Tenant × State :=
  let r := s.fetch mEngine (s.tenantAddr t) 32
  let b := numAt r.bytes
  let x : Tenant := { rights := b 0 2, maxsess := b 2 2, gen := b 4 2, idleS := b 6 2, lifeMin := b 8 2, trate := b 12 4
                      tburst := b 16 4, srate := b 20 4, sburst := b 24 4 }
  let rate := fun v => 1 ≤ v && v ≤ 1000000
  let depth := fun v => 1600 ≤ v && v ≤ 16777215
  let good := x.maxsess ≤ 512 && x.idleS != 0 && x.lifeMin != 0 && rate x.trate && depth x.tburst && rate x.srate &&
    depth x.sburst && r.poison.isNone
  (if good then x else { x with maxsess := 0 }, r.st)

/-- The tenant key K_T (R213). -/
def State.tenantKey (s : State) (t gen : Nat) : List Byte :=
  kdf ((s.kslot (s.rd R.GATE_CFG.KSLOT)).material.take 32) (ascii "GATE-TENANT") (bytesLE t 1 ++ bytesLE gen 2)

/-! Session records and the key-use check (R422). -/

def State.ksess (s : State) (k : Nat) : KeySession := SMap.get (fun _ => ({} : KeySession)) s.key.sessions k

def State.setKsess (s : State) (k : Nat) (x : KeySession) : State :=
  { s with key := { s.key with sessions := SMap.set (fun _ => ({} : KeySession)) s.key.sessions k x } }

/-- What the engine answers to the gate. -/
inductive KeyAns where
  | ok | revoked | refused | notrun
  deriving DecidableEq, Repr

/-- A refused use counted (Table 12-16). -/
def State.useRefused (s : State) : State := (s.bump R.KEY_CNT_USEREF.COUNT).raise R.KEY_INTSTAT.USEREF

/-- The key-use check of a session record (R422, R423). -/
def State.keyUse (s : State) (k : Nat) : KeyAns × State :=
  if !s.running .key then (.notrun, s)
  else
    let r := s.ksess k
    let root := s.rd R.GATE_CFG.KSLOT
    if !r.valid || !r.sealOk then (.refused, s.useRefused)
    else
      let (st, s) := s.useSlot root
      if st = ksRevoked ∨ (st = ksOk ∧ (s.kslot root).gen ≠ r.gen) then
        (.revoked, s.useRefused.bump R.KEY_CNT_REVOKED.COUNT)
      else if st ≠ ksOk then (.refused, s.useRefused)
      else (.ok, s)

/-- The tenant root asked for by the gate's port (R422): available while the engine runs and the slot is usable. -/
def State.rootUse (s : State) : KeyAns × State :=
  if !s.running .key then (.notrun, s)
  else
    let (st, s) := s.useSlot (s.rd R.GATE_CFG.KSLOT)
    if st = ksOk then (.ok, s)
    else (if st = ksRevoked then .revoked else .refused, s.keyCount st)

/-- An HMAC under a tenant key (R422), counted as an operation. -/
def State.tenantUse (s : State) : KeyAns × State :=
  match s.rootUse with
  | (.ok, s) => (.ok, s.keyCount ksOk)
  | r => r

/-- Session establishment (R214, R422): a new key pair, the shared x-coordinate, K_S and the session record; the module's
public key, none where the DRBG or the peer's point fails. `ctx` of the new key is Zx followed by the context. -/
def State.establish (s : State) (k tenant rights : Nat) (kt : List Byte) (peer ctx : List Byte) :
    Option (List Byte) × State :=
  match ecOf peer with
  | none => (none, s.keyCount ksBadPoint)
  | some q =>
    if !s.drbgOk then (none, s.keyCount ksEntropy)
    else
      let d := ecPriv (Config.free256 s.fresh).toNat
      let ks := kdf kt (ascii "GATE-SESS") (ecdhX d (some q) ++ ctx)
      let s := (s.drawn).setKsess k
        { valid := true, tenant := tenant, rights := rights, gen := (s.kslot (s.rd R.GATE_CFG.KSLOT)).gen
          ks := BitVec.ofNat 256 (natBE ks) }
      (some (ecBytes (ecPub d)), s.keyCount ksOk)

end Sys2Proof.Machine
end

