-- ==== Sys2Proof/Machine/Points.lean ====
section
/-!
DEFINITION. Point IDs, point records and the status word (ch04): what an ID names, how an own record is written and counted,
how a replica reads with its range's overlay.
-/

namespace Sys2Proof.Machine

/-- A status word (Table 4-1). Its reserved bits are 0. -/
structure PStat where
  q : Nat := 0
  forced : Bool := false
  subst : Bool := false
  stale : Bool := false
  poison : Bool := false
  multiw : Bool := false
  alarm : Bool := false
  undeliv : Bool := false
  shadow : Bool := false
  deriving DecidableEq, Repr

def PStat.ofNat (n : Nat) : PStat where
  q := n % 4
  forced := n.testBit 2
  subst := n.testBit 3
  stale := n.testBit 4
  poison := n.testBit 5
  multiw := n.testBit 6
  alarm := n.testBit 7
  undeliv := n.testBit 8
  shadow := n.testBit 9

def PStat.toNat (p : PStat) : Nat :=
  p.q % 4 + 4 * p.forced.toNat + 8 * p.subst.toNat + 16 * p.stale.toNat + 32 * p.poison.toNat + 64 * p.multiw.toNat
    + 128 * p.alarm.toNat + 256 * p.undeliv.toNat + 512 * p.shadow.toNat

/-- Q (Table 4-1). -/
def qGood : Nat := 0
def qUncertain : Nat := 1
def qBad : Nat := 2
def qNone : Nat := 3

/-- The status bits whose change counts (R126): Q, FORCED, SUBST, POISON, ALARM, UNDELIV. -/
def PStat.counted (p : PStat) : Nat × Bool × Bool × Bool × Bool × Bool :=
  (p.q, p.forced, p.subst, p.poison, p.alarm, p.undeliv)

/-- A record's parts (Table 0-7). -/
def recVal (r : List Byte) : Nat := numAt r 0 8
def recTime (r : List Byte) : Nat := numAt r 8 8
def recStat (r : List Byte) : PStat := PStat.ofNat (numAt r 16 4)
def recTenantWord (r : List Byte) : Nat := numAt r 20 4
def recSeq (r : List Byte) : Nat := numAt r 24 4
def recType (r : List Byte) : Nat := numAt r 28 4 % 16

/-- The own node (R122): HOP_NODE, or FAB_NODE.ACT where HOP_NODE is 0; 4095 names no node. -/
def State.ownNode (s : State) : Nat :=
  let n := s.rd R.HOP_NODE.NODE
  if n = 0 then s.rd R.FAB_NODE.ACT else if n ≤ 4094 then n else 0

/-- Configured own points (R125). -/
def State.ownCount (s : State) : Nat := s.rd R.HOP_OWN_CNT.COUNT

/-- What a point ID names (R122): an own index, a replica (its inbound entry and slot), or nothing. -/
inductive Named where
  | own (i : Nat) | replica (entry slot : Nat) | nothing
  deriving DecidableEq, Repr

/-- An inbound table entry. -/
def State.range (s : State) (e : Nat) : HopRange := SMap.get (fun _ => {}) s.hop.ranges e

def State.setRange (s : State) (e : Nat) (r : HopRange) : State :=
  { s with hop := { s.hop with ranges := SMap.set (fun _ => {}) s.hop.ranges e r } }

/-- A node's entries of the inbound table (Table 4-14): the first and how many. -/
def State.nodeRanges (s : State) (node : Nat) : Nat × Nat :=
  let w := SMap.get (fun _ => 0) s.hop.nodeTab node
  (getField w 0 14, getField w 14 14)

/-- The inbound entry of a node that covers an index. -/
def State.rangeOf (s : State) (node idx : Nat) : Option Nat :=
  let (first, n) := s.nodeRanges node
  ((List.range n).map (first + ·)).find? fun e =>
    let r := s.range e
    r.node == node && r.first ≤ idx && idx < r.first + r.count

/-- Resolution of a point ID (R122). -/
def State.resolve (s : State) (id : Nat) : Named :=
  let node := id / 2 ^ 20 % 2 ^ 12
  let idx := id % 2 ^ 20
  if node = 0 ∨ node = 4095 then .nothing
  else if node = s.ownNode then (if idx < s.ownCount then .own idx else .nothing)
  else
    match s.rangeOf node idx with
    | some e => .replica e ((s.range e).slot + (idx - (s.range e).first))
    | none => .nothing

/-- An own record's 32 bytes: at HOP_OWN_CNT and above it reads TYPE NONE (R125). -/
def State.ownBytes (s : State) (i : Nat) : List Byte :=
  if i < s.ownCount then s.bytes (ownRecord i) 32 else zeros 32

/-- A configured own record as the loader leaves it (R125, R88): Q NONE, sequence 0, MULTIW where it holds; value, tenant word, TYPE
and UNIT as the MEM sections gave them. -/
def State.initRecord (s : State) (i : Nat) (multiw : Bool) : State :=
  (s.writeNum mEngine (ownRecord i + 16) 4 (PStat.toNat { q := qNone, multiw := multiw })).writeNum mEngine (ownRecord i + 24) 4 0

/-- The tenant of an own point (R436). -/
def State.ownTenant (s : State) (i : Nat) : Nat := recTenantWord (s.ownBytes i) % 256

/-- An own index marked pending for push (R126, R131); no mark is kept outside RUN (R156). -/
def State.markPending (s : State) (i : Nat) : State :=
  if s.running .hop then
    { s with hop := { s.hop with pending := SMap.set (fun _ => false) s.hop.pending i true } }
  else s

/-- An own record's producer sequence counted up and its index marked (R126). -/
def State.countOwn (s : State) (m i : Nat) : State :=
  (s.writeNum m (ownRecord i + 24) 4 (recSeq (s.bytes (ownRecord i) 32) + 1)).markPending i

/-- An own record written by master m with a value, a status and a timestamp, and counted where it changed (R96, R126). An
index at or above HOP_OWN_CNT names no record, and nothing is written. -/
def State.ownWrite (s : State) (m i val : Nat) (st : PStat) (ts : Nat) : State :=
  if i < s.ownCount then
    let a := ownRecord i
    let old := s.bytes a 32
    let s := ((s.writeNum m a 8 val).writeNum m (a + 8) 8 ts).writeNum m (a + 16) 4 st.toNat
    if val % 2 ^ 64 ≠ recVal old ∨ st.counted ≠ (recStat old).counted then s.countOwn m i else s
  else s

/-- Age of a timestamp at an instant of MT in µs, saturating; 0 for a later one (R90). -/
def ageOf (now ts : Nat) : Nat := min ((now - ts) / us) 0xFFFFFFFF

/-- No timestamp (R90). -/
def ageNone : Nat := 0xFFFFFFFF

/-! Replicas. -/

/-- Range states (R128). -/
def rngSub : Nat := 1
def rngLive : Nat := 2
def rngStale : Nat := 3

/-- A replica record as read, with its range's overlay (Table 4-4). The table gives SUBSCRIBING the status Q NONE and STALE alone; a
stored POISON still shows there (notes/assumptions/156). -/
def overlay (state : Nat) (r : List Byte) : List Byte :=
  let st := recStat r
  let st' : PStat :=
    if state = rngLive then { st with stale := false }
    else if state = rngStale then { st with stale := true, q := if st.q = qGood then qUncertain else st.q }
    else { q := qNone, stale := true, poison := st.poison }
  r.take 16 ++ bytesLE st'.toNat 4 ++ r.drop 20

/-- A frame of the replica cache. -/
def State.frame (s : State) (f : Nat) : HopFrame := SMap.get (fun _ => {}) s.hop.frames f

def State.setFrame (s : State) (f : Nat) (x : HopFrame) : State :=
  { s with hop := { s.hop with frames := SMap.set (fun _ => {}) s.hop.frames f x } }

/-- The frame that holds a page and no transfer (R138). -/
def State.frameOf (s : State) (page : Nat) : Option Nat :=
  (List.range 512).find? fun f => (s.frame f).page == some page && !(s.frame f).busy

/-- The frame that holds a page or is receiving it: at most one (R138). -/
def State.frameWith (s : State) (page : Nat) : Option Nat := (List.range 512).find? fun f => (s.frame f).page == some page

/-- The replica store's and the cache's address of a slot (R137, R138). -/
def State.storeAddr (s : State) (slot : Nat) : Nat := 0x800000 * s.rd R.HOP_RBASE.RBASE + 32 * slot
def frameAddr (f slot : Nat) : Nat := 0x10400000 + 0x1000 * f + 32 * (slot % 128)

/-- Replicas are served: RUN with INIT clear (R140, R143). -/
def State.hopServes (s : State) : Bool := s.running .hop && !s.on R.HOP_STAT.INIT

end Sys2Proof.Machine
end

