-- ==== Sys2Proof/Machine/LeatOps.lean ====
section
/-!
DEFINITION. A Leat frame's way through the switch (ch05): QUENCH rules, CONTROL policing, the routing table, the lanes and
their buffer, delivery at the internal port, and what a sender in the module fills in.
-/

namespace Sys2Proof.Machine

/-- Lanes (Table 5-3) and types (Table 5-4). -/
def laneControl : Nat := 0
def laneCyclic : Nat := 1
def laneEvent : Nat := 2
def laneBulk : Nat := 3

def tyKeyx : Nat := 1
def tyHello : Nat := 2
def tyLsa : Nat := 3
def tyLsack : Nat := 4
def tyQuench : Nat := 5
def tyPoint : Nat := 6
def tyStation : Nat := 7
def tySession : Nat := 8
def tyEvent : Nat := 9
def tyAssist : Nat := 10
def tyAssistResult : Nat := 11
def tyMirror : Nat := 12
def tyFantail : Nat := 13
def tyBulk : Nat := 14
def tyMbx : Nat := 15

/-- Control-plane types (R160). -/
def cpType (t : Nat) : Bool := t == 1 || t == 2 || t == 3 || t == 4 || t == 5 || t == 13

/-- Link-local types (Table 5-4). -/
def linkType (t : Nat) : Bool := 1 ≤ t && t ≤ 4

/-- The lanes of a type (Table 5-4). -/
def laneOk (typ lane : Nat) : Bool :=
  if cpType typ then lane == 0
  else if typ = tySession then lane == 0 || lane == 2
  else if typ = tyEvent then lane == 2
  else if typ = tyBulk then lane == 3
  else if typ = tyMbx then lane == 1 || lane == 2 || lane == 3
  else lane == 1

/-- A header the destination accepts (R162); a payload above 1,472 bytes is none the module accepts (R161). -/
def headerOk (f : Leat) : Bool :=
  1 ≤ f.typ && f.typ ≤ 15 && laneOk f.typ f.lane && f.cp == cpType f.typ && f.len == f.payload.length && f.len ≤ 1472
    && !(f.auth && f.session == 0)

/-- Bytes of a frame in the packet buffer: from DA to FCS (R161). -/
def frameBytes (f : Leat) : Nat := 70 + f.payload.length

/-- A port's state (R164 to R177). -/
def State.port (s : State) (p : Nat) : FabPort := SMap.get (fun _ => {}) s.fab.ports p

def State.setPort (s : State) (p : Nat) (x : FabPort) : State :=
  { s with fab := { s.fab with ports := SMap.set (fun _ => {}) s.fab.ports p x } }

/-- A sender in the module limits LEN to 1,160 bytes (R161). -/
def maxSend : Nat := 1160

/-- Adjacency UP (R177). -/
def adjUp : Nat := 3

/-! Lanes (R189). -/

def State.lane (s : State) (p lane : Nat) : List FabQueued := SMap.get (fun _ => []) s.fab.queues (4 * p + lane)

def State.setLane (s : State) (p lane : Nat) (q : List FabQueued) : State :=
  { s with fab := { s.fab with queues := SMap.set (fun _ => []) s.fab.queues (4 * p + lane) q } }

/-- Bytes of queued frames that satisfy a predicate. -/
def heldBytes (q : List FabQueued) (p : FabQueued → Bool) : Nat :=
  ((q.filter p).map fun x => frameBytes x.frame).sum

/-- The reserve of each lane. -/
def laneReserve : Nat → Nat
  | 0 => 65536
  | 1 => 196608
  | 2 => 131072
  | _ => 65536

/-- A frame finds room in its lane's reserve, in the pool, or nowhere (R189). -/
inductive Room where
  | reserve | pool | none
  deriving DecidableEq, Repr

/-- Where a frame for an egress port finds room (R189). DESIGN CHOICE: the 8 KiB kept for CP frames stay free beside whatever
CONTROL frames are queued, CP ones included, and a frame delivered at the internal port takes no room
(notes/assumptions/158). -/
def State.room (s : State) (p : Nat) (f : Leat) : Room :=
  let n := frameBytes f
  let ports := List.range 4
  let inRes := fun (x : FabQueued) => !x.pool
  let used := (ports.map fun q => heldBytes (s.lane q f.lane) inRes).sum
  let mine := heldBytes (s.lane p f.lane) inRes
  let fits :=
    used + n ≤ laneReserve f.lane &&
      (f.lane != 0 || (mine + n ≤ 16384 && (f.cp || used + n ≤ 65536 - 8192)))
  if fits then .reserve
  else
    let portPool := ((List.range 4).map fun l => heldBytes (s.lane p l) (·.pool)).sum
    let allPool := (ports.flatMap fun q => (List.range 4).map fun l => heldBytes (s.lane q l) (·.pool)).sum
    if portPool + n ≤ 288 * 1024 ∧ allPool + n ≤ 576 * 1024 then .pool else .none

/-- A frame queued at an egress port; without room it is dropped and counted at the port where it came in, or at the egress
port where it came from the module itself (R189). -/
def State.enqueue (s : State) (inPort p : Nat) (f : Leat) : State :=
  let q := s.lane p f.lane
  match s.room p f with
  | .reserve => s.setLane p f.lane (q ++ [{ frame := f }])
  | .pool => s.setLane p f.lane (q ++ [{ frame := f, pool := true }])
  | .none => s.bump (R.FAB_P_CNT_DROP.COUNT (if inPort < 4 then inPort else p) f.lane)

/-! CONTROL policing (R191). -/

/-- A link's rate in Mbit/s by SPEED (Table 5-20). -/
def mbits : Nat → Nat
  | 1 => 10
  | 2 => 100
  | 3 => 1000
  | _ => 0

/-- A frame taken from a policer whose use is counted in 8 × 10^11ths of a byte: percent `pc` of the rate of `mb` Mbit/s
drains 10^6 · pc · mb of them in a nanosecond; `none` where the burst would be exceeded. -/
def police (used dt mb pc burst bytes : Nat) : Option Nat :=
  let unit := 800000000000
  let left := used - 1000000 * dt * mb * pc
  if left + bytes * unit ≤ burst * unit then some (left + bytes * unit) else none

/-- The CONTROL policer of an ingress port (4: the internal port, at the egress port's rate): the state after, or none where
the frame is beyond it. -/
def State.ctlPolice (s : State) (inPort egress : Nat) (f : Leat) : Option State :=
  if f.lane ≠ 0 then some s
  else
    let key := if inPort < 4 then inPort else 8 + egress
    let mb := mbits (s.rd (R.FAB_P_STAT.SPEED (if inPort < 4 then inPort else egress)))
    let x := s.port key
    if f.cp then
      (police x.cpUsed (s.now - x.cpAt) mb 2 4096 (frameBytes f)).map fun u =>
        s.setPort key { x with cpUsed := u, cpAt := s.now }
    else
      (police x.ctlUsed (s.now - x.ctlAt) mb 8 12288 (frameBytes f)).map fun u =>
        s.setPort key { x with ctlUsed := u, ctlAt := s.now }

/-! QUENCH rules (R193, R194). -/

def State.rule (s : State) (p r : Nat) : FabRule := SMap.get (fun _ => {}) s.fab.rules (32 * p + r)

def State.setRule (s : State) (p r : Nat) (x : FabRule) : State :=
  { s with fab := { s.fab with rules := SMap.set (fun _ => {}) s.fab.rules (32 * p + r) x } }

/-- A rule matches a frame: SRC and lane, and the fields its payload flags (Table 5-15). -/
def FabRule.hit (x : FabRule) (f : Leat) : Bool :=
  let b := numAt x.payload
  let flag := fun k => b 8 1 / 2 ^ k % 2 == 1
  x.valid && b 0 2 % 4096 == f.src && b 4 1 / 2 ^ f.lane % 2 == 1
    && (!flag 0 || b 2 2 % 4096 == f.dst) && (!flag 1 || b 5 1 == f.typ) && (!flag 2 || b 6 2 == f.flow)
    && (!flag 3 || b 12 4 == f.session)

/-- The lowest rule of a port that matches a frame. -/
def State.ruleHit (s : State) (p : Nat) (f : Leat) : Option Nat := (List.range 32).find? fun r => (s.rule p r).hit f

/-- A port has a valid rule (R169). -/
def State.hasRule (s : State) (p : Nat) : Bool := (List.range 32).any fun r => (s.rule p r).valid

/-- A frame dropped by a rule: counted in QDROP of a fabric port and in the rule (R194). -/
def State.quenched (s : State) (p r : Nat) : State :=
  let x := s.rule p r
  let s := s.setRule p r { x with hits := x.hits + 1 }
  if p < 4 then s.bump (R.FAB_P_CNT_QDROP.COUNT p) else s

/-- A Leat header (Table 5-3). -/
def leatHeader (f : Leat) : List Byte :=
  bytesLE (f.ver + 16 * f.lane + 64 * f.cp.toNat) 1 ++ bytesLE f.ttl 1 ++ bytesLE f.dst 2 ++ bytesLE f.src 2 ++
    bytesLE f.typ 1 ++ bytesLE f.auth.toNat 1 ++ bytesLE f.session 4 ++ bytesLE f.seq 4 ++ bytesLE f.len 2 ++
    bytesLE f.flow 2 ++ bytesLE f.origin 8

/-! The SVC mailbox (R201). -/

/-- Bytes of the mailbox window from an offset above FAB + 0x8000. -/
def State.mbxBytes (s : State) (o n : Nat) : List Byte :=
  (List.range ((n + 3) / 4)).flatMap (fun i => bytesLE (SMap.get (fun _ => 0#32) s.fab.mailbox (o / 4 + i)).toNat 4)
    |>.take n

/-- Whole words of the mailbox window replaced. -/
def State.mbxPut (s : State) (o : Nat) (bs : List Byte) : State :=
  s.each (List.range ((bs.length + 3) / 4)) fun s i =>
    let m := SMap.set (fun _ => 0#32) s.fab.mailbox (o / 4 + i) (BitVec.ofNat 32 (numAt bs (4 * i) 4))
    { s with fab := { s.fab with mailbox := m } }

/-- An MBX frame for this node placed in the lowest free receive slot, or dropped (R201). -/
def State.mbxReceive (s : State) (f : Leat) : State :=
  match (List.range 8).find? fun k => !s.bit R.FAB_MBX_RX.FULL k with
  | some k =>
    ((s.mbxPut (0x1000 + 0x800 * k) (leatHeader f ++ f.payload)).setBit R.FAB_MBX_RX.FULL k true).raise
      R.FAB_INTSTAT.MBXRX
  | none => s.bump R.FAB_CNT_MBXDROP.COUNT

/-! Routes and delivery (R167). -/

/-- PORT of a routing entry: LOCAL and NONE (Table 5-21). -/
def portLocal : Nat := 4
def portNone : Nat := 7

/-- An active routing entry, NONE where none is installed. DESIGN CHOICE: Table 5-17 gives FAB_RT_DATA the reset 0 and Table
5-21 its PORT field the reset 7; an entry not written reads as Table 5-21 says (notes/assumptions/158). -/
def State.routeWord (s : State) (n : Nat) : Word := SMap.get (fun _ => 7#32) s.fab.routes n
def State.routePort (s : State) (n : Nat) : Nat := getField (s.routeWord n) 0 3

/-- A frame waits for its client at the internal port. -/
def State.toInbox (s : State) (f : Leat) : State := { s with fab := { s.fab with inbox := s.fab.inbox ++ [f] } }

/-- The frame at the internal port (R162): a mailbox frame to its slot, every other to its client's queue; the gate judges no
mailbox frame (Table 6-1). -/
def State.deliver (s : State) (f : Leat) : State :=
  if !headerOk f then s.bump R.FAB_CNT_BADHDR.COUNT
  else if f.typ = tyMbx then s.mbxReceive f
  else s.toInbox f

/-- A frame leaves for an egress port. Its ingress port has policed it; one from the internal port is policed here, at the
rate of its egress port (R191). -/
def State.leave (s : State) (inPort p : Nat) (f : Leat) : State :=
  if inPort < 4 then s.enqueue inPort p f
  else
    match s.ctlPolice inPort p f with
    | some s => s.enqueue inPort p f
    | none => s.bump (R.FAB_P_CNT_CTLPOL.COUNT p)

/-- The ports in adjacency UP. -/
def State.upPorts (s : State) : List Nat := below 4 fun p => s.rd (R.FAB_P_STAT.ADJ p) == adjUp

/-! Sending (R161, R450). -/

/-- Roles (Table 14-11). -/
def roleSolo : Nat := 0
def roleElecting : Nat := 1
def roleStandby : Nat := 2
def roleActive : Nat := 3
def roleDemoted : Nat := 4

/-- The module is ACTIVE in a pair. -/
def State.pairActive (s : State) : Bool := s.rd R.PAIR_STAT.ROLE == roleActive

/-- SRC of a frame of a type (R450): the service node for POINT, STATION, SESSION and EVENT of an ACTIVE module. -/
def State.srcNode (s : State) (typ : Nat) : Nat :=
  if s.pairActive && 6 ≤ typ && typ ≤ 9 then s.rd R.PAIR_SNODE.SNODE else s.rd R.FAB_NODE.ACT

/-- The next SEQ of a type (Table 5-3). -/
def State.leatSeq (s : State) (typ : Nat) : Nat := SMap.get (fun _ => 0) s.fab.seqs typ

/-- A frame as a sender of the module completes it. -/
def State.leatFrame (s : State) (typ lane dst : Nat) (payload : List Byte) (session : Nat := 0) (flow : Nat := 0) : Leat :=
  { lane := lane, cp := cpType typ, ttl := if linkType typ then 1 else 64, dst := dst, src := s.srcNode typ, typ := typ
    auth := session != 0, session := session, seq := s.leatSeq typ, len := payload.length, flow := flow, origin := s.mtNs
    payload := payload }

/-- What a sender of the module writes as a frame enters the switch (R161): VER, CP by the type, ORIGIN; TTL 64, or 1 for a
link-local type (R160). -/
def State.stamped (s : State) (f : Leat) : Leat :=
  { f with ver := 1, cp := cpType f.typ, ttl := if linkType f.typ then 1 else 64, origin := s.mtNs }

/-- A frame enters the switch at the internal port (R160, R161, R167, R168, R194): the module's own rules, the route, a
broadcast on every port UP; a link-local type is never forwarded. The flag says that it was not turned away for want of a
route. -/
def State.enter (s : State) (f₀ : Leat) : Bool × State :=
  let f := s.stamped f₀
  match s.ruleHit 4 f with
  | some r => (true, s.quenched 4 r)
  | none =>
    if linkType f.typ then (true, s)
    else if f.dst = 4095 then (true, s.each s.upPorts fun s p => s.leave 4 p f)
    else
      let p := s.routePort f.dst
      if p < 4 ∧ f.dst ≠ 0 then (true, s.leave 4 p f)
      else if p = portLocal ∧ f.dst ≠ 0 then (true, s.deliver f)
      else (false, s.bump R.FAB_CNT_NOROUTE.COUNT)

/-- A frame handed to the internal port's transmit channel, egress channel 1 (R386): it waits while the channel is halted; a
poisoned source word halts the channel and holds the frame. -/
def State.txIn (s : State) (f : Leat) (poisonAt : Option Nat) : Bool × State :=
  let hold := fun (s : State) => { s with fab := { s.fab with txWait := s.fab.txWait ++ [(f, poisonAt)] } }
  if s.on R.MEM_EGR_HALT.FABTX then (true, hold s)
  else
    match poisonAt with
    | some a => (true, hold (s.egressHalt 1 0 a))
    | none => s.enter f

/-- A frame made by a sender takes its SEQ (Table 5-3). -/
def State.tookSeq (s : State) (f : Leat) : State :=
  { s with fab := { s.fab with seqs := SMap.set (fun _ => 0) s.fab.seqs f.typ ((f.seq + 1) % 2 ^ 32) } }

/-- The module can send routed frames: the fabric runs and has a node (R181). -/
def State.canSend (s : State) : Bool := s.running .fab && s.rd R.FAB_NODE.ACT != 0

/-- A routed frame sent by a block: nothing leaves while the fabric does not run, or while the module has no node (R181), and
nothing longer than a sender's limit (R161). -/
def State.leatSend (s : State) (typ lane dst : Nat) (payload : List Byte) (session : Nat := 0) (flow : Nat := 0)
    (poisonAt : Option Nat := none) : Bool × State :=
  if s.canSend && payload.length ≤ maxSend then
    let f := s.leatFrame typ lane dst payload session flow
    (s.tookSeq f).txIn f poisonAt
  else (false, s)

/-- A routed frame sent, whether or not it left. -/
def State.leatPost (s : State) (typ lane dst : Nat) (payload : List Byte) : State := (s.leatSend typ lane dst payload).2

/-- A frame delivered to a client of the internal port is taken by it: the first one with this type, source and payload. -/
def State.takeInbox (s : State) (typ src : Nat) (payload : List Byte) : State :=
  match takeFirst (fun f => f.typ == typ && f.src == src && f.payload == payload) s.fab.inbox with
  | some (_, rest) => { s with fab := { s.fab with inbox := rest } }
  | none => s

end Sys2Proof.Machine
end

