-- ==== Sys2Proof/Machine/GateSess.lean ====
section
/-!
DEFINITION. The tenant gate's sessions (ch06): slots, protection of their frames, refusals, the policers, assist frames to a
remote host.
-/

namespace Sys2Proof.Machine

/-! Slots (R212). -/

def sFree : Nat := 0
def sPending : Nat := 1
def sOpen : Nat := 2
def sExpired : Nat := 3

def State.sess (s : State) (k : Nat) : Session := SMap.get (fun _ => ({} : Session)) s.gate.sessions k

/-- GATE_SCNT follows the slots. -/
def State.syncSessions (s : State) : State :=
  let n := fun st => (s.gate.sessions.filter fun (_, x) => x.state == st).length
  (s.wr R.GATE_SCNT.OPEN (n sOpen)).wr R.GATE_SCNT.PENDING (n sPending)

def State.setSess (s : State) (k : Nat) (x : Session) : State :=
  ({ s with gate := { s.gate with sessions := SMap.set (fun _ => ({} : Session)) s.gate.sessions k x } } : State).syncSessions

/-- A slot returns to FREE; its subscriptions, its record and its work in progress go with it. -/
def State.freeSess (s : State) (k : Nat) : State :=
  let s := (s.setSess k {}).setKsess k {}
  { s with gate := { s.gate with subs := s.gate.subs.filter (·.slot != k), waits := s.gate.waits.filter (·.slot != k) } }

/-- A session closed by the key engine's answer (R228). -/
def State.keyClosed (s : State) (k : Nat) : State :=
  ((s.freeSess k).bump R.GATE_CNT_KEYREF.COUNT).raise R.GATE_INTSTAT.KEYREF

/-! Codes (Table 6-8). -/

def gcOk : Nat := 0
def gcNosess : Nat := 1
def gcExpired : Nat := 2
def gcRate : Nat := 3
def gcRight : Nat := 4
def gcNotvis : Nat := 5
def gcAbsent : Nat := 6
def gcNotwritable : Nat := 7
def gcNotown : Nat := 8
def gcForced : Nat := 9
def gcBusy : Nat := 10
def gcNotrun : Nat := 11
def gcFull : Nat := 12
def gcTenant : Nat := 13
def gcBadreq : Nat := 14
def gcKeyref : Nat := 15
def gcNotfound : Nat := 16
def gcBadkey : Nat := 17
def gcStandby : Nat := 18

/-- Requests or items refused. -/
def State.refuses (s : State) : State := s.bump R.GATE_CNT_REFUSE.COUNT

/-! Unprotected refusals (R217). -/

/-- An unprotected REFUSE. -/
def State.refuseRaw (s : State) (f : Leat) (code tenant : Nat) : State :=
  s.refuses.leatPost tySession f.lane f.src
    (bytesLE 31 1 ++ bytesLE 1 1 ++ zeros 2 ++ bytesLE code 1 ++ bytesLE tenant 1 ++ zeros 2 ++ bytesLE f.session 4 ++ zeros 4)

/-- A NOSESS refusal, at most once per second per source node (R212). -/
def State.refuseNosess (s : State) (f : Leat) : State :=
  if dueAgain (SMap.get (fun _ => none) s.gate.nosess f.src) s.now sec then
    State.refuseRaw { s with gate := { s.gate with nosess := SMap.set (fun _ => none) s.gate.nosess f.src (some s.now) } } f
      gcNosess 0
  else s.refuses

/-! Protection (R215). -/

/-- The nonce of a frame: DIR 0 towards the module, 1 from it. -/
def sessNonce (session seq dir : Nat) : List Byte := bytesLE session 4 ++ bytesLE seq 4 ++ bytesLE dir 4

/-- The additional data: the Leat header with TTL 0. -/
def sessAad (f : Leat) : List Byte := leatHeader { f with ttl := 0 }

/-- K_S as bytes. -/
def State.sessKey (s : State) (k : Nat) : List Byte := bytesBE (s.ksess k).ks.toNat 32

/-- An outbound frame protected and handed to the switch. -/
def State.sealOut (s : State) (k : Nat) (f : Leat) (thenFree : Bool) : State :=
  let ct := gcmSeal (s.sessKey k) (sessNonce f.session f.seq 1) (sessAad f) f.payload
  let s := ((s.keyCount ksOk).txIn { f with payload := ct } none).2
  if thenFree then s.freeSess k else s

/-- What is done with a use that the engine does not let through (R228, R423). An inbound frame is answered with REFUSE
KEYREF; nothing can be protected then, so it goes in the form of R217. -/
def State.useDenied (s : State) (k : Nat) (a : KeyAns) (act : KeyAct) : State :=
  match a with
  | .revoked => s.keyClosed k
  | _ =>
    match act with
    | .openIn f => s.refuseRaw f gcKeyref 0
    | .quench _ f => s.refuseRaw f gcKeyref 0
    | .seal _ thenFree => if thenFree then s.freeSess k else s.refuses
    | .bare _ _ => s

/-- The direction of a use (Table 12-10) and the SEQ of its frame. -/
def KeyAct.dir : KeyAct → Nat
  | .openIn _ => 1
  | .seal _ _ => 2
  | .quench _ _ => 3
  | .bare d _ => d

def KeyAct.seq : KeyAct → Nat
  | .openIn f => f.seq
  | .seal f _ => f.seq
  | .quench _ f => f.seq
  | .bare _ n => n

/-- A use of a session record (R422): refused; posted to the key-use server in ASSIST mode, to wait for its answer; or let
through, which the flag tells. -/
def State.askUse (s : State) (k : Nat) (act : KeyAct) : Bool × State :=
  match s.keyUse k with
  | (.ok, s) =>
    if s.assist .key then
      let r := s.ksess k
      let arg := bytesLE (s.sess k).sid 4 ++ bytesLE r.tenant 1 ++ bytesLE act.dir 1 ++ bytesLE r.gen 2 ++
        bytesLE act.seq 4 ++ zeros 4
      let seq := s.rd AsnBlock.key.POST
      match s.asnPost .key 7 k arg false [k] none with
      | (true, s) => (false, { s with key := { s.key with uses := s.key.uses ++ [{ asnSeq := seq, session := k, act := act }] } })
      | (false, s) => (false, s.useRefused.useDenied k .refused act)
    else (true, s)
  | (a, s) => (false, s.useDenied k a act)

/-- A message of a session sent under protection (R215): TYPE, lane and plaintext. -/
def State.sendSess (s : State) (k typ lane : Nat) (plain : List Byte) (thenFree : Bool := false) : State :=
  let x := s.sess k
  if s.canSend then
    let f := { s.leatFrame typ lane x.node plain x.sid with len := plain.length + 16 }
    match (s.tookSeq f).askUse k (.seal f thenFree) with
    | (true, s) => s.sealOut k f thenFree
    | (false, s) => s
  else if thenFree then s.freeSess k
  else s

/-- KIND, VER and REQID. -/
def sessHead (kind reqid : Nat) : List Byte := bytesLE kind 1 ++ bytesLE 1 1 ++ bytesLE reqid 2

/-- REPLY and REFUSE (Table 6-7), in the type and lane of the frame they answer. -/
def State.sendReply (s : State) (k typ lane reqid result : Nat) (thenFree : Bool := false) : State :=
  s.sendSess k typ lane (sessHead 4 reqid ++ bytesLE result 1 ++ zeros 3) thenFree

def State.sendRefuse (s : State) (k typ lane reqid code : Nat) : State :=
  s.refuses.sendSess k typ lane (sessHead 31 reqid ++ bytesLE code 1 ++ zeros 3)

/-! Replay (R215). -/

/-- A SEQ is one the session has not accepted and at most 32 below the highest accepted. -/
def Session.fresh (x : Session) (seq : Nat) : Bool :=
  !x.anySeq || x.hiSeq < seq || (x.hiSeq - seq ≤ 32 && !x.seen.getLsbD (x.hiSeq - seq))

/-- A SEQ accepted. -/
def Session.accept (x : Session) (seq : Nat) : Session :=
  if !x.anySeq then { x with anySeq := true, hiSeq := seq, seen := 1 }
  else if x.hiSeq < seq then
    { x with hiSeq := seq, seen := (if seq - x.hiSeq ≤ 32 then x.seen <<< (seq - x.hiSeq) else 0) ||| 1 }
  else { x with seen := x.seen ||| (1#33 <<< (x.hiSeq - seq)) }

/-! Policers (R225, R226). -/

/-- A bucket refilled to an instant at `rate` units of 1,000 bytes/s, up to its depth in bytes. -/
def Bucket.refill (b : Bucket) (now rate depth : Nat) : Bucket :=
  { tokens := min (1000000 * depth) (b.tokens + rate * (now - b.at_)), at_ := now }

def State.tenantBucket (s : State) (t : Nat) : Bucket := SMap.get (fun _ => ({} : Bucket)) s.gate.tenantBuckets t

/-- A cost in bytes charged to the tenant's and the session's buckets: both are refilled; they are debited where both hold it,
which the flag tells. -/
def State.charge (s : State) (k : Nat) (cost : Nat) : Bool × State :=
  let x := s.sess k
  let (ten, s) := s.tenant x.tenant
  let tb := (s.tenantBucket x.tenant).refill s.now ten.trate ten.tburst
  let sb := x.bucket.refill s.now ten.srate ten.sburst
  let c := 1000000 * cost
  let ok := c ≤ tb.tokens && c ≤ sb.tokens
  let d := fun (b : Bucket) => if ok then { b with tokens := b.tokens - c } else b
  let s := s.setSess k { x with bucket := d sb }
  (ok, { s with gate := { s.gate with
    tenantBuckets := SMap.set (fun _ => ({} : Bucket)) s.gate.tenantBuckets x.tenant (d tb) } })

/-- A tenant's buckets brought up to now, before its entry changes: a new rate or depth counts from here (R225). -/
def State.settleTenant (s : State) (t : Nat) : State :=
  let (ten, s) := s.tenant t
  let subs := s.gate.sessions.map fun (k, x) =>
    (k, if x.state = sOpen ∧ x.tenant = t then { x with bucket := x.bucket.refill s.now ten.srate ten.sburst } else x)
  { s with gate := { s.gate with sessions := subs
                                 tenantBuckets := SMap.set (fun _ => ({} : Bucket)) s.gate.tenantBuckets t
                                   ((s.tenantBucket t).refill s.now ten.trate ten.tburst) } }

/-- A word of the tenant table is about to be written by a core (R205, R225). -/
def State.settleAt (s : State) (p : Nat) : State :=
  let base := 0x40000 * s.rd R.GATE_TBASE.BASE
  if s.running .gate && base ≤ p && p < base + 0x2000 then s.settleTenant ((p - base) / 32) else s

/-- The open-rate bucket (R216): one token of OPEN_RATE a second, at most OPEN_RATE of them. -/
def State.openCharge (s : State) : Bool × State :=
  let r := s.rd R.GATE_CFG.OPEN_RATE
  let b : Bucket := { tokens := min (sec * r) (s.gate.openBucket.tokens + r * (s.now - s.gate.openBucket.at_)), at_ := s.now }
  if sec ≤ b.tokens then (true, { s with gate := { s.gate with openBucket := { b with tokens := b.tokens - sec } } })
  else
    (false, (State.bump { s with gate := { s.gate with openBucket := b } } R.GATE_CNT_RATEDROP.COUNT).raise
      R.GATE_INTSTAT.RATE)

/-! Remote assist (R38, R224). -/

/-- Rights (Table 6-4). -/
def rtRead : Nat := 0
def rtWrite : Nat := 1
def rtSub : Nat := 2
def rtEvent : Nat := 3
def rtForce : Nat := 4
def rtQuench : Nat := 5
def rtAssist : Nat := 6

/-- The newest OPEN session that holds ASSIST and whose node is the block's SRV_NODE (R224). -/
def State.assistSession (s : State) (b : AsnBlock) : Option Nat :=
  let ok := fun (x : Session) => x.state == sOpen && x.rights.testBit rtAssist && x.node == s.rd b.SRV_NODE
  let cands := s.gate.sessions.filter fun (_, x) => ok x
  cands.foldl (fun (best : Option Nat) (k, x) =>
    match best with
    | some b => if (s.sess b).openedAt < x.openedAt then some k else best
    | none => some k) none

/-- A descriptor sent to its remote host in an ASSIST frame (Table 5-12). -/
def State.sendAssist (s : State) (b : AsnBlock) (seq : Nat) : State :=
  match s.assistSession b with
  | some k =>
    if s.running .gate then
      s.sendSess k tyAssist laneCyclic (bytesLE (b.unit.base / 65536 % 256) 1 ++ zeros 3 ++ s.bytes (s.slotAddr b seq) 32)
    else s
  | none => s

/-- A descriptor posted, and sent where a remote host serves the block (R40 rule 1, R224). -/
def State.asnPostTo (s : State) (b : AsnBlock) (func src : Nat) (arg : List Byte) (poison : Bool) (ctx : List Nat)
    (code : Option Nat) (at_ : Nat := s.mtNs) : Bool × State :=
  let seq := s.rd b.POST
  match s.asnPost b func src arg poison ctx code at_ with
  | (true, s) => (true, if s.rd b.SRV_KIND = 2 then s.sendAssist b seq else s)
  | r => r

end Sys2Proof.Machine
end

