-- ==== Sys2Proof/Machine/Events.lean ====
section
/-!
DEFINITION. The event recorder (ch13): classing, numbering, formatting and writing records, the tail, the operator clear,
software postings.
-/

namespace Sys2Proof.Machine

/-- A class byte's fields (R437). A SEV of 6 or 7 is treated as CRITICAL. -/
def clsSev (c : Nat) : Nat := min (c % 8) 5
def clsPersist (c : Nat) : Bool := c / 8 % 2 == 1
def clsSuppress (c : Nat) : Bool := c / 16 % 2 == 1
def clsAsn (c : Nat) : Bool := c / 32 % 2 == 1

/-- Every class byte resets to 0x0A (R437). -/
def defaultClass (_ : Nat) : Byte := 0x0A#8

/-- EVT_START, EVT_OVERFLOW and EVT_CLEAR are always recorded and always persistent (R437). -/
def alwaysKept (code : Nat) : Bool := code == 0x0D00 || code == 0x0D01 || code == 0x0D02

/-- The class byte of a code: the table's, or DEFCLS (R437). -/
def State.classByte (s : State) (code : Nat) : Nat :=
  let src := code / 256
  let ev := code % 256
  let c :=
    if 1 ≤ src ∧ src ≤ 0x3F ∧ ev < 0x40 then (SMap.get defaultClass s.evt.classes (64 * (src - 1) + ev)).toNat
    else s.rd R.EVT_CFG.DEFCLS
  if alwaysKept code then c % 8 + 8 + c / 32 % 2 * 32 else c

/-- The tail header (Table 13-4) in its two copies. -/
def State.tailHeader (s : State) : TwoCopy where
  at0 := mramBase + 4096 * s.rd R.EVT_TBASE.BASE
  at1 := mramBase + 4096 * s.rd R.EVT_TBASE.BASE + 0x80
  len := 128
  cntOfs := 8
  valid bs := numAt bs 0 4 == 0x4C545645 && numAt bs 4 2 == 1 && crcOk bs

/-- The header written at a reservation or a clear (R443): TCLR, SEQ_RES and FLOOR as they stand. -/
def State.writeTailHeader (s : State) : State :=
  s.tailHeader.rewrite s fun cnt =>
    withCrc (bytesLE 0x4C545645 4 ++ bytesLE 1 2 ++ zeros 2 ++ bytesLE cnt 4 ++ bytesLE (s.rd R.EVT_TFIRST.TCLR) 4 ++
      bytesLE s.evt.seqRes 8 ++ bytesLE s.evt.floor 8 ++ zeros 92)

/-- A tail slot's address (R440). -/
def State.tailSlot (s : State) (tidx : Nat) : Nat :=
  mramBase + 4096 * s.rd R.EVT_TBASE.BASE + 0x1000 + 64 * (tidx % 32768)

/-- A ring slot's address (R439). -/
def State.ringSlot (s : State) (seq : Nat) : Nat := 0x4000000 * s.rd R.EVT_RBASE.BASE + 64 * (seq % 2 ^ 20)

/-- A source word carried poison (R439). -/
def EvtRec.poisoned (r : EvtRec) : Bool := r.poison != 0

/-- A field of a record: 0 where its source word carried poison (R439). -/
def EvtRec.clean (r : EvtRec) (i v : Nat) : Nat := if r.poison.getLsbD i then 0 else v

/-- The 60 bytes of a record before its CRC (Table 13-1). A source word with poison is written as 0 (R439). -/
def recordBody (r : EvtRec) (seq flags node tidx : Nat) : List Byte :=
  bytesLE seq 8 ++ bytesLE r.mt.toNat 8 ++ bytesLE r.code 2 ++ bytesLE flags 1 ++ bytesLE r.tenant 1 ++
    bytesLE r.unit 2 ++ bytesLE node 2 ++ bytesLE (r.clean 0 r.subj) 4 ++ bytesLE (r.clean 1 r.val1) 8 ++
    bytesLE (r.clean 2 r.val2) 8 ++ bytesLE (r.clean 3 r.extra) 12 ++ bytesLE tidx 4

/-- SEQ reaching SEQ_RES − 32,768 writes a new reservation (R434). -/
def State.reserve (s : State) : State :=
  if s.evt.seqRes ≤ s.evt.seqAssign + 32768 then
    ({ s with evt := { s.evt with seqRes := s.evt.seqRes + 65536 } }).writeTailHeader
  else s

/-- Steps 4 to 7 of R439 for a record with its SEQ and FLAGS: the tail, the CRC, the ring, EVT_NEXT. -/
def State.emit (s : State) (r : EvtRec) (seq flags : Nat) : State :=
  let persist := flags / 8 % 2 == 1
  let room := s.evt.tailQ.length < 16
  let s := if persist && !room then (s.bump R.EVT_CNT_TAILDROP.COUNT).raise R.EVT_INTSTAT.TAILDROP else s
  let kept := persist && room
  let tidx := if kept then s.rd R.EVT_TNEXT.TNEXT else 0xFFFFFFFF
  let flags := if persist && !room then flags - 8 else flags
  let bytes := withCrc (recordBody r seq flags (s.rd R.FAB_NODE.ACT) tidx)
  let s := s.write mEngine (s.ringSlot seq) bytes
  let s :=
    if kept then
      let s := s.wr R.EVT_TNEXT.TNEXT (tidx + 1)
      { s with evt := { s.evt with tailQ := s.evt.tailQ ++ [(tidx, bytes)] } }
    else s
  { (s.bump R.EVT_CNT_REC.COUNT) with evt := { s.evt with next := seq + 1 } }

/-- Records at the head of the line that no longer wait for the server are written, in SEQ order (R442); `n` bounds them. -/
def State.emitReady (s : State) : Nat → State
  | 0 => s
  | n + 1 =>
    match s.evt.inFlight with
    | { asnSeq := none, seq, flags, posted } :: rest =>
      State.emitReady (({ s with evt := { s.evt with inFlight := rest } }).emit posted seq flags) n
    | _ => s

/-- A record that is ready joins the line, and the line's ready head is written. -/
def State.line (s : State) (e : EvtInFlight) : State :=
  let s := { s with evt := { s.evt with inFlight := s.evt.inFlight ++ [e] } }
  s.emitReady s.evt.inFlight.length

/-- The scratch slot of a descriptor (R442). -/
def State.evtScratch (s : State) (seq : Nat) : Nat := 64 * s.rd R.EVT_ASN_SCR.BASE + 64 * (seq % s.ringSize .evt)

/-- A classed record: its SEQ, and its formatting by the recorder or by the server (R439, R442). -/
def State.number (s : State) (r : EvtRec) (cls : Nat) : State :=
  let seq := s.evt.seqAssign
  let flags := clsSev cls + (if clsPersist cls then 8 else 0) + (if r.poisoned then 32 else 0)
  let s := ({ s with evt := { s.evt with seqAssign := seq + 1 } }).reserve
  if clsAsn cls && s.assist .evt then
    let body := recordBody r seq flags (s.rd R.FAB_NODE.ACT) 0xFFFFFFFF
    let s1 := s.write mEngine (s.evtScratch (s.rd AsnBlock.evt.POST)) (withCrc body)
    let dseq := s.rd AsnBlock.evt.POST
    let arg := bytesLE seq 8 ++ bytesLE r.code 2 ++ bytesLE flags 1 ++ bytesLE r.tenant 1 ++ zeros 4
    let (ok, s2) := (if s.ringFull .evt then s else s1).asnPostTo .evt 6 0 arg r.poisoned [seq] none
    if ok then s2.line { asnSeq := some dseq, seq := seq, flags := flags, posted := r }
    else (s2.bump R.EVT_CNT_UNFMT.COUNT).line { asnSeq := none, seq := seq, flags := flags + 16, posted := r }
  else s.line { asnSeq := none, seq := seq, flags := flags, posted := r }

/-- A record that its class keeps is numbered; a suppressed one is counted (R437). -/
def State.record (s : State) (r : EvtRec) : State :=
  let cls := s.classByte r.code
  if clsSuppress cls && !alwaysKept r.code then s.bump R.EVT_CNT_SUPP.COUNT else s.number r cls

/-- Room in the FIFO after drops: EVT_OVERFLOW goes in with the number of dropped records (R438). -/
def State.overflow (s : State) : State :=
  if s.evt.dropped = 0 ∨ stagingMax ≤ s.evt.staging.length then s
  else
    let r : EvtRec := { mt := s.mt, code := 0x0D01, val1 := s.evt.dropped }
    let s := { s with evt := { s.evt with dropped := 0, staging := s.evt.staging ++ [r] } }
    s.wr R.EVT_STAGE.STAGED s.evt.staging.length

/-- The oldest staged record taken (R439); `bad`: its words are uncorrectable, and it is dropped and counted (R438). -/
def State.takeStaged (s : State) (bad : Bool) : State :=
  match s.evt.staging with
  | [] => s
  | r :: rest =>
    let s := { s with evt := { s.evt with staging := rest } }
    let s := s.wr R.EVT_STAGE.STAGED rest.length
    if bad then
      let s : State := { s with evt := { s.evt with dropped := s.evt.dropped + 1 } }
      ((s.bump R.EVT_CNT_DROP.COUNT).raise R.EVT_INTSTAT.DROP).overflow
    else s.overflow.record r

/-- The recorder takes records: RUN, with the scan done. -/
def State.evtReady (s : State) : Bool := s.running .evt && !s.on R.EVT_STAT.SCAN

/-- Every staged record taken; `n` bounds them. -/
def State.takeAll (s : State) : Nat → State
  | 0 => s
  | n + 1 => State.takeAll (s.takeStaged false) n

/-- The tail queue's oldest record written to its slot (R440). -/
def State.tailWrite (s : State) : State :=
  match s.evt.tailQ with
  | [] => s
  | (tidx, bytes) :: rest =>
    ({ s with evt := { s.evt with tailQ := rest } }).write mEngine (s.tailSlot tidx) bytes

/-- The whole tail queue written out. -/
def State.flushTail (s : State) : State := (List.range s.evt.tailQ.length).foldl (fun s _ => s.tailWrite) s

/-- The 64 bytes of tail slot k. -/
def State.tailBytes (s : State) (k : Nat) : List Byte := s.bytes (s.tailSlot k) 64

/-- A tail slot is valid: CRC correct, TIDX of this slot (R443). -/
def State.tailValid (s : State) (k : Nat) : Bool :=
  let b := s.tailBytes k
  crcOk b && numAt b 56 4 % 32768 == k

/-- The slots that hold anything, in rising order: only they can be valid. -/
def State.tailUsed (s : State) : List Nat :=
  let base := s.tailSlot 0
  ((s.mem.filterMap fun (a, _) => if base ≤ a ∧ a < base + 64 * 32768 then some ((a - base) / 64) else none)).dedup

/-- Tail index and SEQ of every valid slot. -/
def State.tailEntries (s : State) : List (Nat × Nat) :=
  (s.tailUsed.filter s.tailValid).map fun k => (numAt (s.tailBytes k) 56 4, numAt (s.tailBytes k) 0 8)

/-- The lowest tail index from t on whose slot is not among the valid ones; `n` bounds the search. -/
def firstGap (ks : List Nat) (t : Nat) : Nat → Nat
  | 0 => t
  | n + 1 => if ks.contains (t % 32768) then firstGap ks (t + 1) n else t

/-- A record written directly, ahead of staging: EVT_START, EVT_TAILBAD, EVT_CLEAR (R434, R444). -/
def State.direct (s : State) (code : Nat) (subj val1 val2 extra : Nat := 0) : State :=
  s.record { mt := s.mt, code := code, subj := subj, val1 := val1, val2 := val2, extra := extra }

/-- The end of the tail scan at EN after a reset (R434, R443): the next tail index, the reservation, EVT_START and, for
invalid slots between valid ones, EVT_TAILBAD. -/
def State.tailScan (s : State) : State :=
  let es := s.tailEntries
  let ts := es.map (·.1)
  let hi := ts.foldl max 0
  let lo := ts.foldl min hi
  let lastSeq := (es.map (·.2)).foldl max 0
  let span := min (hi + 1 - lo) 32768
  let gaps := if es.isEmpty then 0 else span - ts.length
  let hdr := s.tailHeader.best s
  let tclr0 := match hdr with | some b => numAt b 12 4 | none => if es.isEmpty then 0 else lo
  let tnext := if es.isEmpty then tclr0 else hi + 1
  let start := match hdr with | some b => numAt b 16 8 | none => if es.isEmpty then 1 else lastSeq + 1
  let floor := match hdr with | some b => numAt b 24 8 | none => 0
  let s := (s.wr R.EVT_TNEXT.TNEXT tnext).wr R.EVT_TFIRST.TCLR tclr0
  let s := { s with evt := { s.evt with seqAssign := start, next := start, base := start, floor := floor
                                        seqRes := start + 65536, scanned := true } }
  let s := (s.wrb R.EVT_STAT.HDRBAD hdr.isNone).writeTailHeader
  let s := s.bumpBy R.EVT_CNT_TAILBAD.COUNT gaps
  let s := s.direct 0x0D00 (val1 := lastSeq) (val2 := if hdr.isNone then 1 else 0)
    (extra := gaps % 2 ^ 32 + 2 ^ 32 * tnext)
  let s := if gaps = 0 then s else s.direct 0x0D03 (subj := firstGap (ts.map (· % 32768)) (hi + 1 - span) (ts.length + 1)) (val1 := gaps)
  (s.clear R.EVT_STAT.SCAN).raise R.EVT_INTSTAT.SCANDONE

/-- The lowest SEQ the ring still holds (ch13, *Reading*). -/
def State.evtOldest (s : State) : Nat := max (s.evt.next - 2 ^ 20) s.evt.base

/-- What EN finds wrong with the recorder's configuration, the lowest cause (Table 13-8). -/
def State.evtFault (s : State) : Option Nat :=
  let ring := 0x4000000 * s.rd R.EVT_RBASE.BASE
  let scr := 64 * s.rd R.EVT_ASN_SCR.BASE
  let n := s.ringSize .evt
  if ring < 0x80000000 ∨ 0xF0000000 < ring + 0x4000000 then some 1
  else if 0x7F0000 < 4096 * s.rd R.EVT_TBASE.BASE + 0x201000 then some 2
  else if s.assist .evt ∧ (s.ringBad .evt ∨ !inGeneral scr (64 * n) ∨ scr % (64 * n) ≠ 0) then some 4
  else none

/-- The recorder starts: after a module reset the tail scan first (R443, R448). -/
def State.evtStart (s : State) : State :=
  if s.evt.scanned then s else s.raise R.EVT_STAT.SCAN

/-- Records that are with the server, or wait behind one, are in progress: a crossbar error abandons them without a SEQ, so their
numbers are given again; else the record at the front of staging (R448). A scan in progress ends with nothing done. -/
def State.evtXbar (s : State) : State :=
  let s := s.clear R.EVT_STAT.SCAN
  match s.evt.inFlight with
  | e :: _ => { s with evt := { s.evt with inFlight := [], seqAssign := e.seq } }
  | [] =>
    let rest := s.evt.staging.drop 1
    State.wr { s with evt := { s.evt with staging := rest } } R.EVT_STAGE.STAGED rest.length

/-- OFF: a scan not complete starts anew at the next EN (R443). -/
def State.evtOff (s : State) : State := s.clear R.EVT_STAT.SCAN

/-- What a reaped or timed-out format descriptor does (R442): the record as the server left it, or as posted with UNFMT. -/
def State.evtResult (s : State) (dseq : Nat) (ok : Bool) : State :=
  let scratch := s.fetch mEngine (s.evtScratch dseq) 64
  let good := ok && scratch.poison.isNone
  let b := scratch.bytes
  let fix := fun (e : EvtInFlight) =>
    if e.asnSeq ≠ some dseq then e
    else if good then
      let f := numAt b 18 1
      { e with asnSeq := none
               flags := (f % 8 + e.flags / 8 % 8 * 8 + 64)
               posted := { e.posted with tenant := numAt b 19 1, subj := numAt b 24 4, val1 := numAt b 28 8
                                         val2 := numAt b 36 8, extra := numAt b 44 12 } }
    else { e with asnSeq := none, flags := e.flags + 16 }
  let held := s.evt.inFlight.any fun e => e.asnSeq == some dseq
  let s := if held && !good then scratch.st.bump R.EVT_CNT_UNFMT.COUNT else scratch.st
  let s := { s with evt := { s.evt with inFlight := s.evt.inFlight.map fix } }
  s.emitReady s.evt.inFlight.length

/-- An EVT_CMD completes with a result. -/
def State.evtCmdDone (s : State) (op result : Nat) : State :=
  ((s.wr R.EVT_CMD.OP op).wr R.EVT_CMD.RESULT result).raise R.EVT_INTSTAT.CMDDONE

/-- The sources of Table 13-2; every other value is reserved (R435). -/
def evtSource (src : Nat) : Bool := (1 ≤ src && src ≤ 0x11) || src == 0x20 || (0x40 ≤ src && src ≤ 0x7F)

/-- EVENT_POST (R438): a source posts into staging; a posting with a reserved source is refused (R435). -/
def execEventPost (e : EvtPost) (s : State) : Host.Outcome State Fault Refusal :=
  .next (
    if evtSource (e.code / 256) then
      s.post { mt := s.mt, code := e.code, tenant := e.tenant, unit := e.unit, subj := e.subj, val1 := e.val1, val2 := e.val2
               extra := e.extra, poison := e.poison }
    else s)

/-- Whether master m may post with this source: SVC 0x20, a control core 0x40 to 0x7F (R441). -/
def mayPost (m src : Nat) : Bool := if m == 16 then src == 0x20 else 0x40 ≤ src && src ≤ 0x7F

/-- SW_POST (R441): GO of master m's copy of the software port. -/
def execSwPost (m : Nat) (s : State) : Host.Outcome State Fault Refusal :=
  let code := s.rd (R.EVT_SW_HDR.CODE m)
  let arg := fun i => s.rd (R.EVT_SW_ARG.ARG m i)
  onUnit (m < 17) (
    if !mayPost m (code / 256) then s.wr (R.EVT_SW_GO.RESULT m) 1
    else if stagingMax ≤ s.evt.staging.length then s.wr (R.EVT_SW_GO.RESULT m) 2
    else
      (s.event code (s.rd (R.EVT_SW_UNIT.UNIT m)) (arg 0) (arg 1 + 2 ^ 32 * arg 2) (arg 3 + 2 ^ 32 * arg 4)
        (s.rd (R.EVT_SW_HDR.TENANT m)) (arg 5 + 2 ^ 32 * arg 6 + 2 ^ 64 * arg 7)).wr (R.EVT_SW_GO.RESULT m) 0)

/-- RECORD_WRITE (R439). -/
def execRecordWrite (bad : Bool) (s : State) : Host.Outcome State Fault Refusal :=
  .next (if s.evtReady then s.takeStaged bad else s)

/-- TAIL_WRITE (R440). -/
def execTailWrite (s : State) : Host.Outcome State Fault Refusal := .next s.tailWrite

/-- EVT_CLEAR (R444): posts already staged fall below the floor; EVT_CLEAR is the first visible record. -/
def execEvtClear (s : State) : Host.Outcome State Fault Refusal :=
  .next (
    if !s.evtReady then s.evtCmdDone 1 1
    else
      let s := s.takeAll (s.evt.staging.length + 1)
      let s := { s with evt := { s.evt with floor := s.evt.seqAssign } }
      let s := (s.wr R.EVT_TFIRST.TCLR (s.rd R.EVT_TNEXT.TNEXT)).writeTailHeader
      ((s.direct 0x0D02).raise R.EVT_INTSTAT.CLEARED).evtCmdDone 1 0)

/-- EVT_FLUSH (R440): the tail queue written out. -/
def execEvtFlush (s : State) : Host.Outcome State Fault Refusal :=
  .next (if s.running .evt then s.flushTail.evtCmdDone 2 0 else s.evtCmdDone 2 1)

/-- TAIL_SCAN_COMPLETE (R443). -/
def execTailScanComplete (s : State) : Host.Outcome State Fault Refusal :=
  .next (if s.running .evt && s.on R.EVT_STAT.SCAN then s.tailScan else s)

/-- A read of EVT_OLDEST_LO (R445): the group latched from one instant; the read returns OLDEST bits [31:0]. -/
def State.oldestRead (s : State) : State :=
  let old := s.evtOldest
  let s := (s.wr64 R.EVT_OLDEST_LO.addr R.EVT_OLDEST_HI.addr old).wr64 R.EVT_NEXT_LO.addr R.EVT_NEXT_HI.addr s.evt.next
  let s := s.wr64 R.EVT_FLOOR_LO.addr R.EVT_FLOOR_HI.addr s.evt.floor
  { s with busRead := (s.reg R.EVT_OLDEST_LO.addr).setWidth 64 }

def execEvtOldestRead (s : State) : Host.Outcome State Fault Refusal := .next s.oldestRead

end Sys2Proof.Machine
end

