-- ==== Sys2Proof/Machine/MirOps.lean ====
section
/-!
DEFINITION. Mirror batches at the active (ch14): their items and frames as bytes, and the mirror queue.
-/

namespace Sys2Proof

open Machine

/-- The body of a mirror item (Table 14-4). -/
def MirItem.body : MirItem → List Byte
  | .pt own bytes => bytesLE own 4 ++ bytes
  | .force bytes => bytes
  | .fclr key => bytesLE key 4
  | .retf task retlen ofs bytes => bytesLE task 2 ++ bytesLE retlen 2 ++ bytesLE ofs 2 ++ zeros 2 ++ bytes
  | .loop n words => bytesLE n 2 ++ zeros 2 ++ words.flatMap fun w => bytesLE w.toNat 4
  | .outb idx bytes => bytesLE idx 2 ++ zeros 2 ++ bytes
  | .commit task relcnt c => bytesLE task 2 ++ zeros 2 ++ bytesLE relcnt 4 ++ bytesLE c 8
  | .baseend => []
  | .reserved _ => []

/-- TYPE of a mirror item (Table 14-4). -/
def MirItem.typ : MirItem → Nat
  | .pt _ _ => 1
  | .force _ => 2
  | .fclr _ => 3
  | .retf _ _ _ _ => 4
  | .loop _ _ => 5
  | .outb _ _ => 6
  | .commit _ _ _ => 7
  | .baseend => 8
  | .reserved t => t

/-- An item with its 4-byte header (R463). -/
def MirItem.bytes (i : MirItem) : List Byte :=
  bytesLE i.typ 1 ++ zeros 1 ++ bytesLE i.body.length 2 ++ i.body

/-- A MIRROR payload (Table 14-3). -/
def MirFrame.bytes (f : MirFrame) : List Byte :=
  bytesLE 1 1 ++ bytesLE (f.base.toNat + 2 * f.last.toNat) 1 ++ bytesLE f.frag 1 ++ bytesLE f.items.length 1 ++
    bytesLE f.mseq 4 ++ bytesLE f.cfgid 4 ++ f.items.flatMap (·.bytes)

end Sys2Proof

namespace Sys2Proof.Machine

/-- Bytes of items that a frame holds: 1,160 less the header (R463). -/
def frameRoom : Nat := 1148

/-- Items split into frames in their order (R463). -/
def packItems (items : List MirItem) : List (List MirItem) :=
  let (done, cur, _) := items.foldl (fun (acc : List (List MirItem) × List MirItem × Nat) i =>
    let (done, cur, used) := acc
    let n := i.bytes.length
    if used + n ≤ frameRoom then (done, cur ++ [i], used + n) else (done ++ [cur], [i], n)) ([], [], 0)
  done ++ [cur]

/-- The frames of a batch. -/
def batchFrames (items : List MirItem) (base : Bool) (mseq cfgid : Nat) : List MirFrame :=
  let parts := packItems items
  parts.zipIdx.map fun (is, k) =>
    { base := base, last := k + 1 == parts.length, frag := k, mseq := mseq, cfgid := cfgid, items := is }

/-- Bytes of a batch's payloads. -/
def MirBatch.size (b : MirBatch) : Nat := (b.frames.map (·.bytes.length)).sum

/-- A pair event (R472): the partner node, and the epoch. -/
def State.pairEvent (s : State) (code : Nat) (val2 : Nat := 0) : State :=
  s.event code (subj := s.rd R.PAIR_CFG.PNODE) (val1 := s.rd R.PAIR_EPOCH.EPOCH) (val2 := val2)

/-- A batch lost (R460). -/
def State.mirLost (s : State) : State :=
  ((s.raise R.PAIR_INTSTAT.MIRLOST).bump R.PAIR_CNT_MIRLOST.COUNT).pairEvent 0x0E06

/-- Capacity of the mirror queue (R460). -/
def State.mirCapacity (s : State) : Nat := 1024 * 2 ^ s.rd R.PAIR_MSIZE.MSIZE

/-- A batch numbered and queued by an ACTIVE module (R460): dropped when it is beyond 64 KiB or finds no room. Its number is
used up either way, so that the standby sees the gap. -/
def State.queueBatch (s : State) (items : List MirItem) (base : Bool := false) (poisonAt : Option Nat := none) : State :=
  if s.rd R.PAIR_STAT.ROLE != 3 || items.isEmpty then s
  else
    let s := s.wr R.PAIR_MSEQ_TX.MSEQ (s.rd R.PAIR_MSEQ_TX.MSEQ + 1)
    let b : MirBatch := { frames := batchFrames items base (s.rd R.PAIR_MSEQ_TX.MSEQ) (s.rd R.PAIR_CFGID.CFGID)
                          poisonAt := poisonAt }
    let used := ((s.pair.queue ++ s.pair.halted.toList).map (·.size)).sum
    if 65536 < b.size ∨ s.mirCapacity < used + b.size then s.mirLost
    else { s with pair := { s.pair with queue := s.pair.queue ++ [b] } }

end Sys2Proof.Machine
end

