-- ==== Sys2Proof/Machine/ImgBase.lean ====
section
/-!
DEFINITION. The image unit's buffers, lists, forces as they are looked up, the local sample and the transfer queue (ch03).
-/

namespace Sys2Proof.Machine

/-- The global alias of an offset in a control core's data memory (Table 1-4). -/
def dataAddr (core ofs : Nat) : Nat := 0x09040000 + core * 0x80000 + ofs

/-- A task's core. -/
def State.taskCore (s : State) (t : Nat) : Nat := s.rd (R.SCH_TASK_CFG.CORE t)

/-- A task's input buffer, output buffer, retained range (R85, R99). -/
def State.ibuf (s : State) (t : Nat) : Nat := dataAddr (s.taskCore t) (16 * s.rd (R.IMG_TASK_IBUF.IBUF t))
def State.obuf (s : State) (t : Nat) : Nat := dataAddr (s.taskCore t) (16 * s.rd (R.IMG_TASK_OBUF.OBUF t))
def State.retAddr (s : State) (t : Nat) : Nat := dataAddr (s.taskCore t) (16 * s.rd (R.IMG_TASK_RET.RETOFS t))

/-- Counts of a task's lists and its retained bytes. -/
def State.icount (s : State) (t : Nat) : Nat := s.rd (R.IMG_TASK_ILIST.COUNT t)
def State.ocount (s : State) (t : Nat) : Nat := s.rd (R.IMG_TASK_OLIST.COUNT t)
def State.retlen (s : State) (t : Nat) : Nat := s.rd (R.IMG_TASK_RET.RETLEN t)

/-- An image list entry (Table 3-2). -/
structure ImgEntry where
  kind : Nat
  flags : Nat
  iofs : Nat
  ref : Nat
  aux : Nat
  deriving DecidableEq, Repr

/-- A word of the image unit's memory. -/
def State.imgWord (s : State) (w : Nat) : Word := SMap.get (fun _ => 0) s.img.lists w

/-- Entry k of a list bank (Table 3-1). -/
def State.listEntry (s : State) (bank k : Nat) : ImgEntry :=
  let w := fun i => s.imgWord (bank * 0xC000 + 4 * k + i)
  { kind := getField (w 0) 0 8, flags := getField (w 0) 8 8, iofs := getField (w 0) 16 16, ref := (w 1).toNat
    aux := (w 2).toNat + 2 ^ 32 * (w 3).toNat }

/-- A run of entries. -/
def State.listRun (s : State) (bank first n : Nat) : List ImgEntry :=
  (List.range n).map fun k => s.listEntry bank (first + k)

/-- A task's lists in a bank. -/
def State.inListOf (s : State) (bank t : Nat) : List ImgEntry :=
  s.listRun bank (s.rd (R.IMG_TASK_ILIST.FIRST t)) (s.icount t)
def State.outListOf (s : State) (bank t : Nat) : List ImgEntry :=
  s.listRun bank (s.rd (R.IMG_TASK_OLIST.FIRST t)) (s.ocount t)

/-- A task's active lists. -/
def State.inList (s : State) (t : Nat) : List ImgEntry := s.inListOf (s.rd R.IMG_LBANK.ACT) t
def State.outList (s : State) (t : Nat) : List ImgEntry := s.outListOf (s.rd R.IMG_LBANK.ACT) t

/-- A configured task (R45). -/
def State.configured (s : State) (t : Nat) : Bool := s.on (R.SCH_TASK_CFG.EN t)

/-- The configured tasks, ascending. -/
def State.cfgTasks (s : State) : List Nat := below 256 s.configured

/-- Entry kinds (Table 3-3). -/
def kPoint : Nat := 1
def kAi : Nat := 2
def kSin : Nat := 3
def kShdr : Nat := 4
def kOpt : Nat := 8
def kDo : Nat := 9
def kAo : Nat := 10
def kSout : Nat := 11

/-- SIN and SOUT references: station, byte offset, LEN. -/
def ImgEntry.stn (e : ImgEntry) : Nat := e.ref % 64
def ImgEntry.ofs (e : ImgEntry) : Nat := e.ref / 256 % 256
def ImgEntry.len (e : ImgEntry) : Nat := e.ref / 65536 % 16
def ImgEntry.mirror (e : ImgEntry) : Bool := e.flags / 4 % 2 == 1

/-- The tasks whose active lists name a station, ascending (R70). -/
def State.stnTasks (s : State) (n : Nat) : List Nat :=
  s.cfgTasks.filter fun t =>
    (s.inList t).any (fun e => (e.kind == kSin || e.kind == kShdr) && e.stn == n)
      || (s.outList t).any fun e => e.kind == kSout && e.stn == n

/-! Forces (R112 to R115). -/

def noForce (_ : Nat) : Force := {}

def State.forceAt (s : State) (i : Nat) : Force := SMap.get noForce s.img.forces i

/-- The table index of the force on a key. -/
def State.forceIdx (s : State) (key : Nat) : Option Nat :=
  (s.img.forces.find? fun (_, f) => f.valid && f.key.toNat == key).map (·.1)

/-- The forced value of an input key, of an output key. -/
def State.inForce (s : State) (key : Nat) : Option Nat :=
  match s.forceIdx key with
  | some i => if (s.forceAt i).out then none else some (s.forceAt i).value.toNat
  | none => none
def State.outForce (s : State) (key : Nat) : Option Nat :=
  match s.forceIdx key with
  | some i => if (s.forceAt i).out then some (s.forceAt i).value.toNat else none
  | none => none

/-! The local sample (R50, R89). -/

def State.imgTask (s : State) (t : Nat) : ImgTask := SMap.get (fun _ => {}) s.img.tasks t

def State.setImgTask (s : State) (t : Nat) (x : ImgTask) : State :=
  { s with img := { s.img with tasks := SMap.set (fun _ => {}) s.img.tasks t x } }

/-- The DI bits after forcing, and whether one is forced (R89, R114). -/
def State.diForced (s : State) : Nat × Bool :=
  (List.range 32).foldl (fun (acc : Nat × Bool) k =>
    match s.inForce k with
    | some v => (acc.1 + v % 2 * 2 ^ k, true)
    | none => (acc.1 + s.rd R.DIO_DI_STATE.STATE / 2 ^ k % 2 * 2 ^ k, acc.2)) (0, false)

/-- IFLAGS written once the whole image is complete (R89). -/
def State.imgFinish (s : State) (t : Nat) : State :=
  let x := s.imgTask t
  let late := if (s.task t).imgLate then 1 else 0
  let late1 := if (s.task t).late1 then 32 else 0
  let flags := late + (x.flags ||| if x.diForced then 8 else 0) + late1
  let s := s.writeNum mImage (s.ibuf t + 36) 4 flags
  (s.wr (R.IMG_TASK_STAT.IFLAGS t) flags)

/-- The IO cycle in progress, numbered from 1: 10 ns. -/
def State.ioCycle (s : State) : Nat := s.now / 10 + 1

/-- One counting input's measurement. -/
def State.cnt (s : State) (k : Nat) : CntX := SMap.get (fun _ => {}) s.dio.cnts k

/-- A counter as a latch takes it: without an edge counted in the same IO cycle (R311). -/
def State.cntLatched (s : State) (k : Nat) : Nat :=
  let v := s.rd (R.DIO_CNT_VAL.VAL k)
  match (s.cnt k).step with
  | some (c, up) => if c = s.ioCycle then (if up then v + 2 ^ 32 - 1 else v + 1) % 2 ^ 32 else v
  | none => v

/-- The local sample of an iteration: the counters latched, bytes 0 to 35 written; 36 to 39 where the copy is complete. -/
def State.imgSample (s : State) (t : Nat) : State :=
  let (di, forced) := s.diForced
  let s := (List.range 8).foldl (fun s i => s.wr (R.DIO_CNT_LATCH.LATCH i) (s.cntLatched i)) s
  let cnts := (List.range 8).flatMap fun i => bytesLE (s.rd (R.DIO_CNT_LATCH.LATCH i)) 4
  let s := s.write mImage (s.ibuf t) (bytesLE di 4 ++ cnts)
  let s := s.write mImage (s.ibuf t + 40) (zeros 8)
  s.setImgTask t { s.imgTask t with sampled := true, diForced := forced }

/-! The transfer queue (R92). -/

/-- Transfer a is served before transfer b: commits first and in their order, then input copies by release instant,
priority and task. -/
def Xfer.before (a b : Xfer) : Bool :=
  match a.kind, b.kind with
  | .commit, .copy => true
  | .copy, .copy =>
    a.relInst < b.relInst || (a.relInst == b.relInst && (a.prio < b.prio || (a.prio == b.prio && a.task < b.task)))
  | _, _ => false

/-- A transfer put into the queue, behind those it does not come before. -/
def insertXfer (x : Xfer) : List Xfer → List Xfer
  | [] => [x]
  | y :: ys => if x.before y then x :: y :: ys else y :: insertXfer x ys

def State.queueXfer (s : State) (x : Xfer) : State := { s with img := { s.img with queue := insertXfer x s.img.queue } }

/-- A task's non-local copy queued, for a release instant (R51). -/
def State.queueCopy (s : State) (t relInst : Nat) : State :=
  let s := s.setImgTask t { s.imgTask t with sampled := false, diForced := false, flags := 0 }
  if s.icount t = 0 then s
  else s.queueXfer { kind := .copy, task := t, relInst := relInst, prio := s.rd (R.SCH_TASK_CFG.PRIO t) }

/-- A task's commit queued (R57). -/
def State.queueCommit (s : State) (t : Nat) : State := s.queueXfer { kind := .commit, task := t }

/-- A task's copy abandoned: taken from the queue, or its result discarded when it ends (R74, Table 2-2). -/
def State.dropCopy (s : State) (t : Nat) : State :=
  let mine := fun (x : Xfer) => x.kind == .copy && x.task == t
  let cur := s.img.cur.map fun x => if mine x then { x with discard := true } else x
  { s with img := { s.img with queue := s.img.queue.filter (fun x => !mine x), cur := cur } }

end Sys2Proof.Machine
end

