-- ==== Sys2Proof/Machine/LoopBase.lean ====
section
/-!
DEFINITION. The loop engine's memory (ch07): words of loop records and group entries, the status word, and what a hold's end and
a step of module time do to every loop.
-/

namespace Sys2Proof.Machine

/-- A word of the loop engine's memory. -/
def State.loopWord (s : State) (w : Nat) : Word := SMap.get (fun _ => 0) s.loop.mem w

def State.setLoopWord (s : State) (w : Nat) (v : Word) : State :=
  { s with loop := { s.loop with mem := SMap.set (fun _ => 0) s.loop.mem w v } }

/-- The word of loop n's record at a byte offset (R233, R234). -/
def State.lw (s : State) (n ofs : Nat) : Word := s.loopWord (64 * n + ofs / 4)

def State.setLw (s : State) (n ofs : Nat) (v : Word) : State := s.setLoopWord (64 * n + ofs / 4) v

/-- Word j of group g's entry (Table 7-7). -/
def State.gw (s : State) (g j : Nat) : Word := s.loopWord (0x4000 + 8 * g + j)

def State.setGw (s : State) (g j : Nat) (v : Word) : State := s.setLoopWord (0x4000 + 8 * g + j) v

def State.loopX (s : State) (n : Nat) : LoopX := SMap.get (fun _ => {}) s.loop.loops n

def State.setLoopX (s : State) (n : Nat) (x : LoopX) : State :=
  { s with loop := { s.loop with loops := SMap.set (fun _ => {}) s.loop.loops n x } }

def State.groupX (s : State) (g : Nat) : LoopX := SMap.get (fun _ => {}) s.loop.groups g

def State.setGroupX (s : State) (g : Nat) (x : LoopX) : State :=
  { s with loop := { s.loop with groups := SMap.set (fun _ => {}) s.loop.groups g x } }

/-- MODEs (Table 7-2). -/
def lmOff : Nat := 0
def lmMan : Nat := 1
def lmAuto : Nat := 2
def lmTrack : Nat := 3

def State.loopMode (s : State) (n : Nat) : Nat := getField (s.lw n 0) 0 3

/-- Bits of the status word (Table 7-6). -/
def lsPvbad : Nat := 0
def lsSpbad : Nat := 1
def lsBadcoef : Nat := 2
def lsNumerr : Nat := 3
def lsLiminv : Nat := 4
def lsSat : Nat := 5
def lsLoser : Nat := 6
def lsTrkfrc : Nat := 7
def lsMiss : Nat := 8
def lsPoison : Nat := 9
def lsCfgerr : Nat := 10
def lsGap : Nat := 11

def State.lstat (s : State) (n b : Nat) : Bool := (s.lw n 0xA0).getLsbD b

def State.setLstat (s : State) (n b : Nat) (v : Bool) : State := s.setLw n 0xA0 (putField (s.lw n 0xA0) b 1 v.toNat)

/-- A loop's period and offset in ns (R242). -/
def State.loopPer (s : State) (n : Nat) : Nat := us * (s.lw n 4).toNat
def State.loopOfs (s : State) (n : Nat) : Nat := us * (s.lw n 8).toNat

/-- The first instant of a grid at or after an instant of MT. -/
def gridNext (per ofs from_ : Nat) : Nat :=
  let per := max 1 per
  let r := (from_ + per - ofs % per) % per
  if r = 0 then from_ else from_ + (per - r)

/-- The loops whose MODE is not OFF. -/
def State.liveLoops (s : State) : List Nat := below 256 fun n => s.loopMode n != lmOff

/-- A group's members, in table order (Table 7-7). -/
def State.members (s : State) (g : Nat) : List Nat :=
  ((List.range 8).map fun j => getField (s.gw g (j / 4)) (8 * (j % 4)) 8).filter (· != 0xFF)

/-- A group is in use (Table 7-7). -/
def State.groupOn (s : State) (g : Nat) : Bool := (s.gw g 2).getLsbD 0

/-- The group of a loop. -/
def State.groupOf (s : State) (n : Nat) : Option Nat :=
  (List.range 32).find? fun g => s.groupOn g && (s.members g).contains n

/-- GAP in every loop that is not OFF (R248). -/
def State.loopGaps (s : State) : State := s.each s.liveLoops fun s n => s.setLstat n lsGap true

/-- A SWITCH or BRAKE hold ends (R248): what was due before it is not made up, and every loop has GAP set. -/
def State.loopHoldEnd (s : State) : State := State.loopGaps { s with loop := { s.loop with queue := [] } }

/-- A grid moved by a step of MT from `old`: forward, the instants inside the step are counted as deferrals and skipped;
backward, the next instant stays, which lies after the last one served (R248). -/
def LoopX.step (x : LoopX) (per ofs old mt : Nat) : LoopX × Nat :=
  let next := if x.armed then x.nextDue else gridNext per ofs old
  if next < mt then
    let nxt := gridNext per ofs mt
    ({ x with armed := true, nextDue := nxt }, (nxt - next) / max 1 per)
  else (x, 0)

/-- What a step of MT from `old` does to the loops (R248), after MT has its new value. -/
def State.loopMtStep (s : State) (old : Nat) : State :=
  let s := (s.loopGaps).raise R.LOOP_INTSTAT.MTSTEP
  let count := fun (s : State) (k : Nat) => if s.running .loop then s.bumpBy R.LOOP_CNT_DEF.COUNT k else s
  let s := s.each (s.liveLoops.filter fun n => (s.groupOf n).isNone) fun s n =>
    let (x, k) := (s.loopX n).step (s.loopPer n) (s.loopOfs n) old s.mtNs
    count (s.setLoopX n x) k
  s.each (below 32 fun g => s.groupOn g && (s.members g).any fun n => s.loopMode n != lmOff) fun s g =>
    let n := (s.members g).headD 0
    let (x, k) := (s.groupX g).step (s.loopPer n) (s.loopOfs n) old s.mtNs
    count (s.setGroupX g x) k

/-- What the engine drops as it drains: the evaluations that have not begun. One that waits for the server is in its
computation, which completes (R262, Table 1-10). -/
def State.loopDrain (s : State) : State := { s with loop := { s.loop with queue := [] } }

/-- A crossbar error abandons every evaluation without writes (R262). -/
def State.loopXbar (s : State) : State :=
  { s with loop := { s.loop with
    queue := [], waiting := [], singles := [], loops := s.loop.loops.map fun (n, x) => (n, { x with posted := false }) } }

end Sys2Proof.Machine
end

