-- ==== Sys2Proof/Machine/SchOps.lean ====
section
/-!
DEFINITION. The cycle scheduler's shared operations (ch02): dispatch, error tasks, release, overrun, the end of an iteration,
holds, resumption and steps of module time.
-/

namespace Sys2Proof.Machine

/-- Task states (R61). -/
def tsUnused : Nat := 0
def tsIdle : Nat := 1
def tsImaging : Nat := 2
def tsReady : Nat := 3
def tsRunning : Nat := 4
def tsPreempted : Nat := 5
def tsCommitting : Nat := 6
def tsStopped : Nat := 7

def State.tstate (s : State) (t : Nat) : Nat := s.rd (R.SCH_TASK_STAT.STATE t)
def State.setTstate (s : State) (t st : Nat) : State := s.wr (R.SCH_TASK_STAT.STATE t) st

/-- A task's priority, period, offset and lead, in nanoseconds where they are times. -/
def State.prio (s : State) (t : Nat) : Nat := s.rd (R.SCH_TASK_CFG.PRIO t)
def State.perNs (s : State) (t : Nat) : Nat := us * s.rd (R.SCH_TASK_PER.PER_US t)
def State.ofsNs (s : State) (t : Nat) : Nat := us * s.rd (R.SCH_TASK_OFS.OFS_US t)
def State.leadNs (s : State) (t : Nat) : Nat := us * s.rd (R.SCH_TASK_LEAD.LEAD_US t)

/-- A core is free-running; its gap (R46, R59). -/
def State.freeCore (s : State) (c : Nat) : Bool := s.on (R.SCH_CORE_CFG.FREE c)
def State.freeTask (s : State) (t : Nat) : Bool := s.freeCore (s.taskCore t)
def State.gapNs (s : State) (t : Nat) : Nat := us * s.rd (R.SCH_CORE_CFG.GAP_US (s.taskCore t))

/-- A core carries a configured task. -/
def State.carries (s : State) (c : Nat) : Bool := s.rd (R.SCH_CORE_STAT.NTASK c) != 0

/-- The first instant of the grid at or after t (R49). -/
def State.gridFrom (s : State) (t from_ : Nat) : Nat :=
  let per := max 1 (s.perNs t)
  let r := (from_ + per - s.ofsNs t % per) % per
  if r = 0 then from_ else from_ + (per - r)

/-- Releases are withheld: a hold is in force or the scheduler is not in RUN (R74). -/
def State.withheld (s : State) : Bool := s.rd R.SCH_STAT.HOLD != 0 || !s.running .sch

/-- A task's iteration is released and not committed (R62). -/
def State.inFlight (s : State) (t : Nat) : Bool :=
  let st := s.tstate t
  (st == tsImaging && (s.task t).released) || st == tsReady || st == tsRunning || st == tsPreempted || st == tsCommitting

/-! Error tasks (R70 to R73). -/

/-- Causes (Table 2-8), as bits. -/
def causeOverrun : Nat := 0
def causeStopped : Nat := 1
def causeImglate : Nat := 2
def causeStation : Nat := 3
def causeTrap : Nat := 4
def causeQabort : Nat := 5
def causeResumed : Nat := 6
def causeMtstep : Nat := 7

/-- A cause's bit of a core. -/
def causeBit (c b : Nat) : Fld := ⟨R.SCH_CORE_ERRCAUSE.addr c, b, 1⟩

/-- A cause raised on a core, for a task where one is concerned (R71, R72): outside RUN and DRAIN it sets its bit alone. -/
def State.setCause (s : State) (c b : Nat) (task : Option Nat := none) : State :=
  let s := s.raise (causeBit c b)
  let s := match task with
    | some t => s.wr (R.SCH_CORE_ERRCAUSE.LASTTASK c) t
    | none => s
  if !s.working .sch then s
  else if s.on (R.SCH_CORE_STAT.ERRRUN c) then s.setCore c { s.core c with errRaised := true }
  else s.raise (R.SCH_CORE_STAT.ERRPEND c)

/-- A moment of R71 on a core: a pending error release is made, unless it is withheld. -/
def State.errorMoment (s : State) (c : Nat) : State :=
  if s.on (R.SCH_CORE_STAT.ERRPEND c) && !s.withheld && !(s.core c).errReleased then
    (s.setCore c { s.core c with errReleased := true }).bump (R.SCH_CORE_ERRCNT.RELS c)
  else s

/-! Dispatch (R48, R55, R56). -/

/-- Task a runs before task b (R48): priority; a pre-empted task before the ready ones of its own priority, since it resumes
once none of higher priority is ready; then release instant, then number. -/
def State.outranks (s : State) (a b : Nat) : Bool :=
  let x := s.prio a; let y := s.prio b
  let p := (s.task a).relInst; let q := (s.task b).relInst
  let u := s.tstate a == tsPreempted; let v := s.tstate b == tsPreempted
  x < y || (x == y && ((u && !v) || (u == v && (p < q || (p == q && a < b)))))

/-- The highest of the ready and pre-empted tasks of a core. -/
def State.nextTask (s : State) (c : Nat) : Option Nat :=
  let ts := (s.sch.tasks.map (·.1)).filter fun t =>
    s.taskCore t == c && (s.tstate t == tsReady || s.tstate t == tsPreempted)
  ts.foldl (fun best t =>
    match best with
    | none => some t
    | some b => if s.outranks t b then some t else best) none

/-- SCH_DISP as core c reads it: task, kind, IMGLATE, LATE1. -/
def State.showDisp (s : State) (c t kind : Nat) (late late1 : Bool) : State :=
  (((s.wr (R.SCH_DISP.TASK c) t).wr (R.SCH_DISP.KIND c) kind).wrb (R.SCH_DISP.IMGLATE c) late).wrb
    (R.SCH_DISP.LATE1 c) late1

/-- A task dispatched on its core: a new iteration or a resumed one. -/
def State.dispatch (s : State) (c t : Nat) : State :=
  let x := s.task t
  let s := (s.setTstate t tsRunning).setTask t { x with begun := true }
  let s := (s.wr (R.SCH_CORE_STAT.TASK c) t).raise (R.SCH_CORE_STAT.BUSY c)
  s.showDisp c t (if x.begun then 2 else 1) x.imgLate x.late1

/-- The error task dispatched on a core. The spec gives SCH_DISP no task number then: TASK is free
(notes/assumptions/22). -/
def State.dispatchError (s : State) (c : Nat) : State :=
  let s := (s.clear (R.SCH_CORE_STAT.ERRPEND c)).raise (R.SCH_CORE_STAT.ERRRUN c)
  let s := s.setCore c { s.core c with errReleased := false, errRaised := false }
  (s.showDisp c (Config.freeNat s.fresh % 256) 3 false false).taken

/-- The core takes what it is to run next (R48, R71): the error task once released, before any ready task; else the highest
ready task, which pre-empts one of lower priority unless an error release waits for that one to end; an idle core is a
moment of R71. -/
def State.settle (s : State) (c : Nat) : State :=
  if s.on (R.SCH_CORE_STAT.ERRRUN c) then s
  else if s.on (R.SCH_CORE_STAT.BUSY c) then
    let r := s.rd (R.SCH_CORE_STAT.TASK c)
    match s.nextTask c with
    | some t =>
      if !(s.core c).errReleased && s.prio t < s.prio r then
        ((s.setTstate r tsPreempted).bump (R.SCH_CORE_PREEMPT.COUNT c)).dispatch c t
      else s
    | none => s
  else if (s.core c).errReleased then s.dispatchError c
  else
    match s.nextTask c with
    | some t => s.dispatch c t
    | none =>
      let s := s.errorMoment c
      if (s.core c).errReleased then s.dispatchError c else s.wr (R.SCH_DISP.KIND c) 0

/-- A cause raised, and the core's first idle cycle if it is idle (R71). -/
def State.raiseCause (s : State) (c b : Nat) (task : Option Nat := none) : State := (s.setCause c b task).settle c

/-! Release (R49 to R53, R59). -/

/-- A lead window begins: IMAGING, and the non-local copy is queued (R51). -/
def State.leadStart (s : State) (t relInst : Nat) : State :=
  let s := (s.setTstate t tsImaging).setTask t { s.task t with released := false, copied := s.icount t == 0
                                                               imgLate := false, late1 := false, begun := false }
  s.queueCopy t relInst

/-- A lead not yet released is abandoned with its partial image (R74, Table 2-2). -/
def State.dropLead (s : State) (t : Nat) : State :=
  if s.tstate t = tsImaging ∧ !(s.task t).released then (s.dropCopy t).setTstate t tsIdle else s

/-- The first release after a start: SYS_TREL (Table 18-8). -/
def State.firstRelease (s : State) : State :=
  if s.start.firstRel then s
  else
    let s := { s with start := { s.start with firstRel := true } }
    s.wr R.SYS_TREL.US (min ((s.now - s.start.origin) / 1000) (2 ^ 32 - 1))

/-- A release made on a periodic core is the last one made (R82). -/
def State.noteRelease (s : State) (t : Nat) : State :=
  if s.freeTask t then s else { s with sch := { s.sch with lastMade := some s.mtNs } }

/-- A release made: the local sample, RELCNT, ready if the copy is complete, late otherwise (R53). A LATE1 release is made at a
commit or an abort, which serves a cause that it raises (R73). -/
def State.makeRelease (s : State) (t : Nat) (late1 : Bool := false) : State :=
  let c := s.taskCore t
  let s := ((s.firstRelease.imgSample t).wrap (R.SCH_TASK_RELCNT.COUNT t)).noteRelease t
  let x := s.task t
  let s := s.setTask t { x with released := true, late1 := late1, imgLate := !x.copied, begun := false
                                relInst := s.mtNs, relElapsed := s.now, nextBound := s.now + s.perNs t
                                execNs := 0, armed := x.armed && !s.freeTask t }
  let s := s.wrb (R.SCH_TASK_STAT.IMGLATE_LAST t) (!x.copied)
  if x.copied then ((s.imgFinish t).setTstate t tsReady).settle c
  else
    let s := s.bump (R.SCH_TASK_IMGLCNT.COUNT t)
    if s.on (R.SCH_TASK_CFG.IMGLATE_ERR t) then
      if late1 then ((s.setCause c causeImglate (some t)).errorMoment c).settle c else s.raiseCause c causeImglate (some t)
    else s

/-- A release whose lead has not begun, or that has none: the copy begins with it (R51, R63). -/
def State.releaseNow (s : State) (t : Nat) (late1 : Bool := false) : State :=
  (s.leadStart t s.mtNs).makeRelease t late1

/-- The non-local copy of a task ended (R53): a released task becomes ready. -/
def State.copyDone (s : State) (t : Nat) : State :=
  let s := s.setTask t { s.task t with copied := true }
  if s.tstate t = tsImaging ∧ (s.task t).released then
    ((s.imgFinish t).setTstate t tsReady).settle (s.taskCore t)
  else s

/-- One deferral (R65). -/
def State.defer (s : State) (t : Nat) (n : Nat := 1) : State := s.bumpBy (R.SCH_TASK_DEFCNT.COUNT t) n

/-- The first release instant of a periodic task from an instant of MT on, past the last release made (R82). -/
def State.nextInstant (s : State) (t from_ : Nat) : Nat :=
  s.gridFrom t (match s.sch.lastMade with | some r => max from_ (r + 1) | none => from_)

/-- The next release of a task armed from now on: the first grid instant at least LEAD_US ahead (R78, R572), or, on a
free-running core, GAP_US ahead with the lead at once (R59). -/
def State.armTask (s : State) (t : Nat) : State :=
  if s.freeTask t then
    let s := s.setTask t { s.task t with armed := true, nextRel := s.now + s.gapNs t }
    s.leadStart t (s.mtNs + s.gapNs t)
  else s.setTask t { s.task t with armed := true, nextRel := s.nextInstant t (s.mtNs + s.leadNs t) }

/-! The end of an iteration (R57, R58, R63). -/

/-- The core of a running task is free. -/
def State.freeTheCore (s : State) (t : Nat) : State :=
  let c := s.taskCore t
  if s.on (R.SCH_CORE_STAT.BUSY c) && s.rd (R.SCH_CORE_STAT.TASK c) == t then s.clear (R.SCH_CORE_STAT.BUSY c) else s

/-- The lead window that an iteration's end lets begin: at once on a free-running core; where its start has passed and the
release instant has not, on a periodic one (R52, R59). -/
def State.leadAfterEnd (s : State) (t : Nat) : State :=
  let x := s.task t
  if s.withheld then s
  else if s.freeTask t then s.armTask t
  else if x.armed && s.leadNs t != 0 && x.nextRel ≤ s.mtNs + s.leadNs t && s.mtNs < x.nextRel then s.leadStart t x.nextRel
  else s

/-- A task's iteration has ended, by a commit or an abort: IDLE, or STOPPED where a STOP waits; a pending LATE1 release is
made, counted as a deferral in a hold, or dropped with a STOP (Table 2-2, R63). On a free-running core the next release
instant is GAP_US away (R59). -/
def State.iterEnd (s : State) (t : Nat) : State :=
  let x := s.task t
  let pend := s.on (R.SCH_TASK_STAT.LATEPEND t)
  let s := s.clear (R.SCH_TASK_STAT.LATEPEND t)
  let s := s.setTask t { x with released := false, begun := false, late1 := false, stopWaits := false }
  if x.stopWaits then
    ((s.setTstate t tsStopped).wr (R.SCH_TASK_STAT.STOPSRC t) 1).setTask t { s.task t with armed := false }
  else
    let s := s.setTstate t tsIdle
    let s := if s.freeTask t then s.setTask t { s.task t with armed := true, nextRel := s.now + s.gapNs t } else s
    if pend then
      if s.withheld then s.defer t else (s.bump (R.SCH_TASK_L1CNT.COUNT t)).releaseNow t true
    else s.leadAfterEnd t

/-- HELD within a handover starts the count of HOLDMAX (R491). -/
def State.handoverHeld (s : State) : State :=
  if s.rd R.UPD_PHASE.PHASE = 3 ∧ s.rd R.SCH_STAT.HOLDSRC = 1 then
    { s with upd := { s.upd with heldAt := s.now, holdEnds := some (s.now + ms * s.rd R.UPD_HOLD.HOLDMAX) } }
  else s

/-- Every task of the five states is gone: a hold reaches HELD (R74). -/
def State.checkHeld (s : State) : State :=
  if s.rd R.SCH_STAT.HOLD = 1 ∧ !(s.sch.tasks.any fun (t, _) => s.inFlight t) then
    let s : State := { s with sch := { s.sch with holdBound := none } }
    let s : State := if s.rd R.SCH_STAT.HOLDSRC = 2 then { s with pwr := { s.pwr with heldAt := some s.now } } else s
    ((s.wr R.SCH_STAT.HOLD 2).raise R.SCH_INTSTAT.HELD).handoverHeld
  else s

/-- A commit completed (R57, Table 2-2): response and execution times, OVRCONS cleared, a moment of R71. -/
def State.commitDone (s : State) (t : Nat) : State :=
  let x := s.task t
  let c := s.taskCore t
  let s := s.wr (R.SCH_TASK_STAT.OVRCONS t) 0
  let exec := min (x.execNs / 2) (2 ^ 32 - 1)
  let s := s.wr (R.SCH_TASK_EXEC_LAST.COUNT t) exec
  let s := s.wr (R.SCH_TASK_EXEC_MAX.COUNT t) (max exec (s.rd (R.SCH_TASK_EXEC_MAX.COUNT t)))
  let resp := min ((s.now - x.relElapsed) / 10) (2 ^ 32 - 1)
  let s := s.wr (R.SCH_TASK_RESP_MAX.COUNT t) (max resp (s.rd (R.SCH_TASK_RESP_MAX.COUNT t)))
  let s := s.errorMoment c
  (((s.iterEnd t).settle c).checkHeld)

/-- An iteration aborted (R58): discarded, counted, the cause raised and served at this abort; the task to IDLE or STOPPED. -/
def State.abortIter (s : State) (t cause : Nat) : State :=
  let c := s.taskCore t
  let s := ((s.dropCopy t).freeTheCore t).bump (R.SCH_TASK_ABTCNT.COUNT t)
  let s := (s.setCause c cause (some t)).errorMoment c
  ((s.iterEnd t).settle c).checkHeld

/-- A task stopped at OVR_LIM (R64): the iteration aborted, any pending LATE1 release dropped. -/
def State.limitStop (s : State) (t : Nat) : State :=
  let c := s.taskCore t
  let s := ((s.dropCopy t).freeTheCore t).bump (R.SCH_TASK_ABTCNT.COUNT t)
  let s := (s.clear (R.SCH_TASK_STAT.LATEPEND t)).setTask t { s.task t with released := false, begun := false, late1 := false
                                                                            stopWaits := false, armed := false }
  let s := (s.setTstate t tsStopped).wr (R.SCH_TASK_STAT.STOPSRC t) 2
  let s := ((s.setCause c causeStopped (some t)).raise R.SCH_INTSTAT.TSTOP).errorMoment c
  (s.settle c).checkHeld

/-- An overrun (R62 to R64). A consecutive count beyond its 8 bits is free (notes/assumptions/23). With a STOP waiting no
release is kept pending: under LATE1 it is dropped, counted neither as a skip nor as a deferral. -/
def State.overrun (s : State) (t : Nat) : State :=
  let c := s.taskCore t
  let s := s.bump (R.SCH_TASK_OVRCNT.COUNT t)
  let n := s.rd (R.SCH_TASK_STAT.OVRCONS t) + 1
  let s := if n < 256 then s.wr (R.SCH_TASK_STAT.OVRCONS t) n
    else (s.wr (R.SCH_TASK_STAT.OVRCONS t) (Config.freeNat s.fresh)).taken
  let s := if s.on (R.SCH_TASK_CFG.OVR_ERR t) then s.setCause c causeOverrun (some t) else s
  let s :=
    if s.rd (R.SCH_TASK_CFG.OVR_POL t) = 0 ∨ s.on (R.SCH_TASK_STAT.LATEPEND t) then
      s.bump (R.SCH_TASK_SKIPCNT.COUNT t)
    else if (s.task t).stopWaits then s
    else s.raise (R.SCH_TASK_STAT.LATEPEND t)
  let lim := s.rd (R.SCH_TASK_CFG.OVR_LIM t)
  if lim ≠ 0 ∧ lim ≤ n ∧ s.tstate t ≠ tsCommitting then s.limitStop t else s.settle c

/-! Holds (R74 to R80). -/

/-- Every lead in progress for a release that has not happened is abandoned (R74). -/
def State.dropLeads (s : State) : State := s.each (s.sch.tasks.map (·.1)) fun s t => s.dropLead t

/-- A hold begins: 1 SWITCH, 2 BRAKE (R74, R75, R80). -/
def State.beginHold (s : State) (src : Nat) : State :=
  let held := s.rd R.SCH_STAT.HOLD == 2
  let bound := us * (if src = 2 then 2000 else s.rd R.SCH_QTMO.QTMO_US)
  let s := (s.wr R.SCH_STAT.HOLDSRC src).dropLeads
  if held then s
  else
    let s := { s with sch := { s.sch with holdBound := some (s.now + bound) } }
    (s.wr R.SCH_STAT.HOLD 1).checkHeld

/-- A switchover that was pending is cancelled with its switch point: CMDDONE reports ROLE (R470). -/
def State.switchoverOff (s : State) : State :=
  if s.on R.PAIR_STAT.SWPEND then
    (((s.clear R.PAIR_STAT.SWPEND).clear R.PAIR_CMD.GO).wr R.PAIR_CMD.RESULT 2).raise R.PAIR_INTSTAT.CMDDONE
  else s

/-- The bays and the image bank that a switch point would take into service are given up (R491, R493). -/
def State.unstageBays (s : State) : State :=
  (s.wr R.UPD_BAYNEXT.BAY (s.rd R.UPD_BAYEXEC.BAY)).wr R.IMG_LBANK.NEXT (s.rd R.IMG_LBANK.ACT)

/-- A Brake interrupts a handover: before COMMIT it is put back to STAGED (R493); in COMMIT it goes on, and the module will
not resume (R494). -/
def State.brakeHandover (s : State) : State :=
  let p := s.rd R.UPD_PHASE.PHASE
  if 2 ≤ p ∧ p ≤ 4 then
    let s : State := { s with upd := { s.upd with holdEnds := none } }
    (((s.unstageBays.wr R.UPD_PHASE.PHASE 1).raise R.UPD_INTSTAT.ABORTED).bump R.UPD_CNT_ABORT.COUNT)
  else if p = 5 then { s with upd := { s.upd with brakeInCommit := true } }
  else s

/-- Brake's hold (R77, R80): a switch point armed or held is cancelled. -/
def State.brakeHold (s : State) : State :=
  let sw := s.on R.SCH_SWP_CMD.ARM || s.rd R.SCH_STAT.HOLDSRC == 1
  let s := if sw then ((s.clear R.SCH_SWP_CMD.ARM).raise R.SCH_INTSTAT.SWCANCEL).switchoverOff else s
  s.brakeHandover.beginHold 2

/-- How many release instants of a periodic task lie from its next one up to below a later one. -/
def State.instantsBelow (s : State) (t upTo : Nat) : Nat :=
  let x := s.task t
  if upTo ≤ x.nextRel then 0 else (upTo - 1 - x.nextRel) / max 1 (s.perNs t) + 1

/-- A task resumes after a hold (R78): the instants that fell between the start of the hold and the resumption are deferrals. -/
def State.resumeTask (s : State) (t : Nat) : State :=
  let st := s.tstate t
  let x := s.task t
  if st = tsStopped ∨ st = tsUnused then s
  else if s.freeTask t then
    if s.inFlight t then s else
    let s := if x.armed && x.nextRel ≤ s.now then s.defer t else s
    s.armTask t
  else
    let nxt := s.nextInstant t (s.mtNs + s.leadNs t)
    let s := if x.armed then s.defer t (s.instantsBelow t nxt) else s
    s.setTask t { s.task t with armed := true, nextRel := nxt }

/-- A switch or Brake hold ends (R78): every task of a scheduler in RUN resumes (outside RUN none is released, R572), every core
that carries tasks receives RESUMED. -/
def State.endHold (s : State) : State :=
  let s := { s with sch := { s.sch with holdBound := none } }
  let s := (s.wr R.SCH_STAT.HOLD 0).wr R.SCH_STAT.HOLDSRC 0
  let s := if s.running .sch then s.each s.cfgTasks fun s t => s.resumeTask t else s
  let s := s.each (below 16 s.carries) fun s c => s.setCause c causeResumed
  (s.each (List.range 16) fun s c => s.settle c).loopHoldEnd

/-! Steps of module time (R69, R82). -/

/-- The idle window in progress is discarded (R69). -/
def State.dropWindow (s : State) : State := { s with sch := { s.sch with winStart := none } }

/-- MT loaded (R69, R569): the idle window in progress is discarded, and no release counts as made in the new MT. -/
def State.setMt (s : State) (mt : Nat) : State :=
  State.dropWindow { s with mt := BitVec.ofNat 64 mt, sch := { s.sch with lastMade := none } }

/-- One task at a step of MT from `old` to the present MT (R82): forward, the instants passed are deferrals and a lead for
one of them is abandoned; backward, no instant up to the last release that Millrace made is used again. -/
def State.stepTask (s : State) (old t : Nat) : State :=
  let x := s.task t
  if s.freeTask t || !x.armed then s
  else if old ≤ s.mtNs then
    let nxt := s.gridFrom t s.mtNs
    let n := s.instantsBelow t nxt
    if n = 0 then s
    else
      let s := ((s.dropLead t).defer t n).setTask t { (s.dropLead t).task t with nextRel := nxt }
      if s.tstate t = tsIdle then s.leadAfterEnd t else s
  else if s.tstate t = tsImaging ∧ !x.released then s
  else
    s.setTask t { x with nextRel := min x.nextRel (s.nextInstant t s.mtNs) }

/-- MT stepped during the metering interval (Table 8-8, MTSTEP). -/
def State.mtrMtStep (s : State) : State :=
  if s.working .mtr then { s with mtr := { s.mtr with hdrFlags := s.mtr.hdrFlags ||| 16 } } else s

/-- MT steps to a value (R82): MTSTEP on every core that carries tasks; the idle window is discarded (R69). -/
def State.mtStep (s : State) (mt : Nat) : State :=
  let old := s.mtNs
  let s := ({ s with mt := BitVec.ofNat 64 mt }).dropWindow
  let s := s.each (s.sch.tasks.map (·.1)) fun s t => s.stepTask old t
  let s := s.each (below 16 s.carries) fun s c => s.setCause c causeMtstep
  (((s.each (List.range 16) fun s c => s.settle c).raise R.SCH_INTSTAT.MTSTEP).loopMtStep old).mtrMtStep

/-! Enable and drain (R83, R572). -/

/-- Configured tasks of a core. -/
def State.tasksOf (s : State) (c : Nat) : List Nat := s.cfgTasks.filter fun t => s.taskCore t == c

/-- NTASK of every core, and STATE of every task, as the task configuration stands (R61, Table 2-8). -/
def State.syncTasks (s : State) (t : Nat) : State :=
  let s := s.each (List.range 16) fun s c => s.wr (R.SCH_CORE_STAT.NTASK c) (s.tasksOf c).length
  if s.configured t ∧ s.tstate t = tsUnused then s.setTstate t tsIdle
  else if !s.configured t ∧ s.tstate t ≠ tsUnused then (s.setTstate t tsUnused).setTask t {}
  else s

/-- What EN finds wrong (R83, Table 2-4): cause and argument, the lowest of each (R571). -/
def State.schFault (s : State) : Option (Nat × Nat) :=
  let cores := List.range 16
  let free := cores.filter s.freeCore
  let first := fun (n : Nat) (xs : List Nat) (p : Nat → Bool) => (xs.find? p).map fun a => (n, a)
  let phase := fun t => !s.freeTask t && (s.perNs t ≤ s.ofsNs t || s.perNs t ≤ s.leadNs t)
  (first 1 cores fun c => !s.freeCore c && 16 < (s.tasksOf c).length) <|>
  (if 4 < free.length then (free.head?).map fun a => (2, a) else none) <|>
  (first 3 cores fun c => s.freeCore c && (s.tasksOf c).length != 1) <|>
  (first 4 s.cfgTasks phase) <|>
  (first 5 cores fun c => !(s.tasksOf c).isEmpty && !s.on (R.SCH_CORE_CFG.ERR_VALID c))

/-- The scheduler enters RUN: every configured task that is not STOPPED is armed; a cause still set leads to one error
release, after the error task where that still runs (R72, R572). -/
def State.schStart (s : State) : State :=
  let s := s.each (s.cfgTasks.filter fun t => s.tstate t != tsStopped && !s.inFlight t) fun s t =>
    s.armTask t
  s.each (List.range 16) fun s c =>
    let s :=
      if getField (s.reg (R.SCH_CORE_ERRCAUSE.addr c)) 0 8 = 0 then s
      else if s.on (R.SCH_CORE_STAT.ERRRUN c) then s.setCore c { s.core c with errRaised := true }
      else s.raise (R.SCH_CORE_STAT.ERRPEND c)
    s.settle c

/-- The scheduler's drain begins (R74, R75): leads abandoned, the bound set. -/
def State.schDrain (s : State) : State :=
  let s := { s with sch := { s.sch with drainBound := some (s.now + us * s.rd R.SCH_QTMO.QTMO_US) } }
  s.dropLeads

/-- Nothing of the scheduler's unit of work is left: no iteration in flight. -/
def State.schDrained (s : State) : Bool := !(s.sch.tasks.any fun (t, _) => s.inFlight t)

/-- The scheduler reaches OFF: no task is armed, no error release is pending. -/
def State.schOff (s : State) : State :=
  let s := { s with sch := { s.sch with drainBound := none } }
  let s := s.each (s.sch.tasks.map (·.1)) fun s t => s.setTask t { s.task t with armed := false }
  s.each (List.range 16) fun s c =>
    (s.clear (R.SCH_CORE_STAT.ERRPEND c)).setCore c { s.core c with errReleased := false }

end Sys2Proof.Machine
end

