-- ==== Sys2Proof/Machine/StnOps.lean ====
section
/-!
DEFINITION. Remote stations (ch03): PDUs sent, blocks accepted, station states, dropouts, output blocks.
-/

namespace Sys2Proof.Machine

/-- Station states (R107). -/
def stnOff : Nat := 0
def stnStart : Nat := 1
def stnUp : Nat := 2
def stnDown : Nat := 3
def stnRejoin : Nat := 4

/-- Causes of a dropout (R107). -/
def dropTimeout : Nat := 1
def dropUnreach : Nat := 2
def dropReboot : Nat := 3
def dropFault : Nat := 4

def State.stn (s : State) (n : Nat) : Stn := SMap.get (fun _ => {}) s.img.stns n

def State.setStn (s : State) (n : Nat) (x : Stn) : State :=
  { s with img := { s.img with stns := SMap.set (fun _ => {}) s.img.stns n x } }

def State.stnState (s : State) (n : Nat) : Nat := s.rd (R.IMG_STN_STAT.STATE n)

/-- The station gate is open (R455). -/
def State.gateOpen (s : State) : Bool := s.on R.PAIR_STAT.GATE

/-- The image unit runs its stations: any state but OFF (R121). -/
def State.stationsRun (s : State) : Bool := s.rd R.IMG_STAT.STATE != stOff

/-! Sending (R100 to R104). -/

/-- A PDU's header (Table 3-7). -/
def pduHead (typ seg count seq epoch : Nat) : List Byte :=
  bytesLE (typ + 16) 1 ++ bytesLE (seg + 16 * count) 1 ++ bytesLE seq 2 ++ bytesLE epoch 4

/-- Segments of a block on CAN FD (R101). -/
def segments (n : Nat) : Nat := max 1 ((n + 55) / 56)

/-- A block's PDUs: one on the fabric, segments of 56 bytes on CAN FD (R101, R102). -/
def blockPdus (can : Bool) (typ seq epoch : Nat) (blk : List Byte) : List (List Byte) :=
  if can then
    let k := segments blk.length
    (List.range k).map fun i => pduHead typ i k seq epoch ++ (blk.drop (56 * i)).take 56
  else [pduHead typ 0 1 seq epoch ++ blk]

/-- PDUs on their way to a station, by its transport (R102). -/
def State.stnPut (s : State) (n : Nat) (pdus : List (List Byte)) : State :=
  if s.on (R.IMG_STN_CFG.XPORT n) then
    s.each pdus fun s p => (s.leatSend tyStation laneCyclic (s.rd (R.IMG_STN_NODE.NODE n)) p).2
  else s.canStation (s.rd (R.IMG_STN_CFG.CANCH n)) n pdus

/-- A station's output block as it stands. -/
def State.outBlock (s : State) (n : Nat) : List Byte :=
  SMap.getMany (fun _ => 0#8) (s.stn n).outBlk 0 (s.rd (R.IMG_STN_CFG.OUT_LEN n))

/-- An OUT of the current block, with a new SEQ or the same (R104); none while the gate is closed (R455). -/
def State.sendOut (s : State) (n : Nat) (fresh : Bool) : State :=
  let x := s.stn n
  let seq := if fresh then (x.outSeq + 1) % 65536 else x.outSeq
  let s := s.setStn n { x with outSeq := seq }
  if s.gateOpen then
    let s := s.setStn n { s.stn n with lastOut := s.now, outSent := true }
    s.stnPut n (blockPdus (!s.on (R.IMG_STN_CFG.XPORT n)) 1 seq (s.rd R.PAIR_EPOCH.EPOCH) (s.outBlock n))
  else s

/-- A CTRL PDU (Table 3-8). Its SEQ names no block: the spec leaves it open, and it is free (notes/assumptions/24). -/
def State.putCtrl (s : State) (n code : Nat) : State :=
  let pdu := pduHead 3 0 1 (Config.freeNat s.fresh % 65536) (s.rd R.PAIR_EPOCH.EPOCH) ++ bytesLE code 1 ++ zeros 7
  (s.taken).stnPut n [pdu]

/-- CTRL PROBE, held while the gate is closed (R455). -/
def State.sendProbe (s : State) (n : Nat) : State :=
  if s.gateOpen then s.putCtrl n 1 else s.setStn n { s.stn n with probeHeld := true }

/-- CTRL SAFE, not sent while the gate is closed (R455). -/
def State.sendSafe (s : State) (n : Nat) : State := if s.gateOpen then s.putCtrl n 2 else s

/-- The gate opens: held PROBEs are sent (R455). -/
def State.openGate (s : State) : State :=
  let s := s.raise R.PAIR_STAT.GATE
  s.each (below 64 fun n => (s.stn n).probeHeld) fun s n =>
    (s.setStn n { s.stn n with probeHeld := false }).putCtrl n 1

/-- The gate closes (R455). -/
def State.closeGate (s : State) : State := s.clear R.PAIR_STAT.GATE

/-! States (Table 3-9). -/

/-- A station event (Table 3-11). -/
def State.stnEvent (s : State) (code n : Nat) : State := s.event code (unit := n)

/-- STATION raised on the core of each task whose lists name the station (R70). -/
def State.raiseStation (s : State) (n : Nat) : State :=
  s.each (s.stnTasks n) fun s t => s.raiseCause (s.taskCore t) causeStation (some t)

/-- OFF to START (Table 3-9). -/
def State.stnBegin (s : State) (n : Nat) : State :=
  if s.stnState n = stnOff then
    let s := s.setStn n { s.stn n with asmActive := false, probeHeld := false }
    (s.wr (R.IMG_STN_STAT.STATE n) stnStart).sendProbe n
  else s

/-- To OFF, with CTRL SAFE where the station was UP (Table 3-9). -/
def State.stnEnd (s : State) (n : Nat) : State :=
  let st := s.stnState n
  if st = stnOff then s
  else
    let s := if st = stnUp then s.sendSafe n else s
    (s.wr (R.IMG_STN_STAT.STATE n) stnOff).setStn n { s.stn n with asmActive := false, probeHeld := false }

/-- A dropout (R107): only a station that is UP or REJOIN drops out. -/
def State.dropout (s : State) (n cause : Nat) : State :=
  if s.stnState n = stnUp ∨ s.stnState n = stnRejoin then
    let s := (s.wr (R.IMG_STN_STAT.STATE n) stnDown).wr (R.IMG_STN_STAT.DCAUSE n) cause
    let s := (s.bump (R.IMG_STN_CNT.DROPS n)).raise R.IMG_INTSTAT.STNDOWN
    (s.raiseStation n).stnEvent 0x0301 n
  else s

/-- REJOIN to UP (Table 3-9). -/
def State.rearm (s : State) (n : Nat) : State :=
  if s.stnState n = stnRejoin then (s.wr (R.IMG_STN_STAT.STATE n) stnUp).stnEvent 0x0303 n else s

/-- What a valid IN does to a station's state (Table 3-9). -/
def State.inState (s : State) (n : Nat) : State :=
  let st := s.stnState n
  if st = stnStart then ((s.wr (R.IMG_STN_STAT.STATE n) stnUp).raise R.IMG_INTSTAT.STNUP).stnEvent 0x0300 n
  else if st = stnDown then
    let s := (s.wr (R.IMG_STN_STAT.STATE n) stnRejoin).raise R.IMG_INTSTAT.STNREJOIN
    let s := (s.raiseStation n).stnEvent 0x0302 n
    if s.on (R.IMG_STN_CFG.AUTO_REARM n) then s.rearm n else s
  else s

/-! Reception (R101, R103, R106). -/

/-- A PDU discarded (R103): counted, raised, recorded once per station per second. -/
def State.badPdu (s : State) (n : Nat) : State :=
  let s := (s.bump (R.IMG_STN_CNT.BADPDU n)).raise R.IMG_INTSTAT.BADPDU
  if dueAgain (s.stn n).badEvt s.now sec then
    (s.setStn n { s.stn n with badEvt := some s.now }).stnEvent 0x0305 n
  else s

/-- The largest EPOCH shown by the station (R106). -/
def State.seeEpoch (s : State) (n e : Nat) : State := s.wr (R.IMG_STN_EPOCH.EPOCH n) (max e (s.rd (R.IMG_STN_EPOCH.EPOCH n)))

/-- Bytes of a PDU as it arrives with n data bytes: padded to an FD length on CAN (R102). -/
def pduLength (can : Bool) (n : Nat) : Nat := if can then dlcLen true (dlcFor (8 + n)) else 8 + n

/-- A complete valid block (R93, R94, R103): into the front buffer, or behind it while a copy reads it. -/
def State.acceptBlock (s : State) (n seq : Nat) (blk : List Byte) : State :=
  let x := { s.stn n with asmActive := false, lastIn := s.now, everIn := true }
  let s := s.setStn n (if x.locked then { x with back := some (blk, s.mt) } else { x with front := blk, frontMt := s.mt })
  (s.wr (R.IMG_STN_STAT.IN_SEQ n) seq).inState n

/-- An IN segment of a station (R103). -/
def State.inSegment (s : State) (n : Nat) (pdu : List Byte) : State :=
  let can := !s.on (R.IMG_STN_CFG.XPORT n)
  let total := s.rd (R.IMG_STN_CFG.IN_LEN n)
  let count := if can then segments total else 1
  let i := numAt pdu 1 1 % 16
  let seq := numAt pdu 2 2
  let want := if can then min 56 (total - 56 * i) else total
  if numAt pdu 1 1 / 16 ≠ count ∨ count ≤ i ∨ pdu.length ≠ pduLength can want then s.badPdu n
  else
    let s := if (s.stn n).asmActive && (s.stn n).asmSeq != seq then s.badPdu n else s
    let x := s.stn n
    let x := if x.asmActive && x.asmSeq != seq then { x with asmActive := false } else x
    let next := if x.asmActive then x.asmNext else 0
    if i ≠ next then (s.setStn n { x with asmActive := false }).badPdu n
    else
      let data := (if x.asmActive then x.asmData else []) ++ (pdu.drop 8).take want
      if i + 1 = count then ((s.setStn n x).seeEpoch n (numAt pdu 4 4)).acceptBlock n seq data
      else s.setStn n { x with asmActive := true, asmSeq := seq, asmNext := i + 1, asmData := data }

/-- A PDU's TYPE and version are ones a station sends (R100, R103). -/
def pduKind (pdu : List Byte) : Nat := if pdu.length < 8 ∨ numAt pdu 0 1 / 16 ≠ 1 then 0 else numAt pdu 0 1 % 16

/-- The PDU taken from what the controllers or the fabric passed to the image unit. -/
def State.takeStnPdu (s : State) (n : Nat) (pdu : List Byte) : State :=
  if s.on (R.IMG_STN_CFG.XPORT n) then s.takeInbox tyStation (s.rd (R.IMG_STN_NODE.NODE n)) pdu
  else
    let c := s.rd (R.IMG_STN_CFG.CANCH n)
    match takeFirst (fun p => p.1 == n && p.2.1 == pdu) (s.canOf c).stnIn with
    | some (_, rest) => s.setCan c { s.canOf c with stnIn := rest }
    | none => s

/-! Output blocks (R104, R109). -/

/-- The mirror points of a station's output block (Table 3-3). -/
def State.mirrorPoints (s : State) (n : Nat) : List Nat :=
  ((s.cfgTasks.flatMap s.outList).filter fun e =>
    e.kind == kSout && e.stn == n && e.aux % 2 ^ 32 != 0xFFFFFFFF).map (·.aux % 2 ^ 32)

/-- UNDELIV of every mirror point of a block. -/
def State.markMirrors (s : State) (n : Nat) (undeliv : Bool) : State :=
  s.each (s.mirrorPoints n) fun s i =>
    let r := s.ownBytes i
    if (recStat r).undeliv == undeliv then s
    else s.ownWrite mImage i (recVal r) { recStat r with undeliv := undeliv } s.mtNs

/-- Bytes of the output block replaced. -/
def State.setOut (s : State) (n ofs : Nat) (bs : List Byte) : State :=
  s.setStn n { s.stn n with outBlk := SMap.setMany (fun _ => 0#8) (s.stn n).outBlk ofs bs }

/-- Delivery is allowed (R109). -/
def State.delivers (s : State) (n : Nat) : Bool := s.stnState n == stnUp

/-- A commit wrote the block (R104, R109): a new OUT and UNDELIV clear in UP, UNDELIV otherwise. -/
def State.commitBlock (s : State) (n : Nat) : State :=
  if s.delivers n then ((s.clear (R.IMG_STN_STAT.UNDELIV n)).markMirrors n false).sendOut n true
  else (s.raise (R.IMG_STN_STAT.UNDELIV n)).markMirrors n true

/-- A force changed the block (R104, R109): sent at once in UP unless it holds undelivered data. -/
def State.forcedBlock (s : State) (n : Nat) : State :=
  if s.delivers n then (if s.on (R.IMG_STN_STAT.UNDELIV n) then s else s.sendOut n true)
  else (s.raise (R.IMG_STN_STAT.UNDELIV n)).markMirrors n true

/-- No route to a station's node, or its controller is bus-off (R107). -/
def State.unreach (s : State) (p : Nat → Bool) : State :=
  s.each (below 64 fun n => s.on (R.IMG_STN_CFG.EN n) && p n) fun s n => s.dropout n dropUnreach

/-- The stations of a controller (R360). -/
def State.canUnreach (s : State) (c : Nat) : State :=
  s.unreach fun n => !s.on (R.IMG_STN_CFG.XPORT n) && s.rd (R.IMG_STN_CFG.CANCH n) == c

/-- The stations whose node has no route (R107). -/
def State.fabUnreach (s : State) : State :=
  s.unreach fun n => s.on (R.IMG_STN_CFG.XPORT n) && s.routePort (s.rd (R.IMG_STN_NODE.NODE n)) == portNone

end Sys2Proof.Machine
end

