-- ==== Sys2Proof/Machine/HopOps.lean ====
section
/-!
DEFINITION. The point pager's working (ch04): subscription messages, pushes, the sequence rule, the replica cache with its
clock and page transfers, lookups, the pin scan, the enable checks.
-/

namespace Sys2Proof.Machine

/-! Tables. -/

/-- Nodes with inbound entries, as the node table lists them. -/
def State.tabNodes (s : State) : List Nat := (s.hop.nodeTab.filter fun (_, w) => getField w 14 14 != 0).map (·.1)

/-- The inbound entries of the configuration (Table 4-14). -/
def State.inEntries (s : State) : List Nat :=
  s.tabNodes.flatMap fun n => (List.range (s.nodeRanges n).2).map ((s.nodeRanges n).1 + ·)

def State.outEntry (s : State) (e : Nat) : HopOut := SMap.get (fun _ => {}) s.hop.outs e

def State.setOutEntry (s : State) (e : Nat) (x : HopOut) : State :=
  { s with hop := { s.hop with outs := SMap.set (fun _ => {}) s.hop.outs e x } }

/-- A word of an outbound entry in the tag store (Table 4-14, R130). -/
def State.outWord (s : State) (e k : Nat) : Nat :=
  let x := s.outEntry e
  match k with
  | 0 => x.first + x.node * 2 ^ 20
  | 1 => x.count + x.maxper * 2 ^ 16
  | 2 => if x.valid then (x.leaseEnd - s.now) / ms else 0
  | _ => x.valid.toNat

/-- The mirror item of an outbound entry (Table 14-4). -/
def State.outItem (s : State) (e : Nat) : MirItem := .outb e ((List.range 4).flatMap fun k => bytesLE (s.outWord e k) 4)

/-- An outbound entry made, renewed or removed: an ACTIVE module mirrors the change (R458). -/
def State.changeOut (s : State) (e : Nat) (x : HopOut) : State :=
  let s := s.setOutEntry e x
  s.queueBatch [s.outItem e]

/-- The outbound entries held. -/
def State.outList' (s : State) : List Nat := (s.hop.outs.filter fun (_, x) => x.valid).map (·.1)

/-- A range's name in an event: producer node and FIRST (R153). -/
def HopRange.name (r : HopRange) : Nat := r.node * 2 ^ 20 + r.first

/-- T_STALE and T_RETRY (R129). -/
def State.tStale (s : State) (r : HopRange) : Nat := 10 * ms * r.maxper * s.rd R.HOP_SUBCFG.STALE_MULT
def State.tRetry (s : State) : Nat := 100 * ms * s.rd R.HOP_SUBCFG.RETRY

/-! Messages (R136). -/

/-- Kinds of message. -/
def kSub : Nat := 1
def kSuback : Nat := 2
def kUnsub : Nat := 3
def kPush : Nat := 4
def kFetch : Nat := 5

/-- Bytes of one item of a kind (Table 4-8). -/
def itemSize : Nat → Nat
  | 1 => 12
  | 4 => 36
  | _ => 8

/-- A message body (Table 4-7). -/
def State.pointBody (s : State) (kind : Nat) (items : List (List Byte)) : List Byte :=
  bytesLE kind 1 ++ bytesLE 1 1 ++ bytesLE items.length 2 ++
    bytesLE (if kind = kSuback ∨ kind = kPush then s.rd R.HOP_PINC.PINC else 0) 2 ++ zeros 2 ++ items.flatten

/-- Messages of at most 32 items sent to a node. -/
def State.sendPoint (s : State) (kind node : Nat) (items : List (List Byte)) : State :=
  s.each (chunks 32 items) fun s c => (s.leatSend tyPoint laneCyclic node (s.pointBody kind c)).2

/-- A standby's pager sends no PUSH and no SUBACK (R455), nor does one whose own node is 0 (R122). -/
def State.hopMute (s : State) : Bool := s.rd R.PAIR_STAT.ROLE == roleStandby || s.ownNode == 0

/-- Bytes 0 to 5 of a SUB item. -/
def subHead (first count maxper : Nat) : List Byte := bytesLE first 4 ++ bytesLE count 2 ++ bytesLE maxper 2

/-- A SUB for an inbound range (R129). A range of the own node is not subscribed; its refusal 255 is recorded once (R122). -/
def State.sendSub (s : State) (e : Nat) (dump : Bool) : State :=
  let r := s.range e
  let s := s.setRange e { r with lastSub := s.now }
  if r.node = s.ownNode then
    if r.refused.testBit 8 then s
    else (s.setRange e { s.range e with refused := r.refused + 256 }).event 0x0402 (subj := r.name) (val1 := 255)
  else
  s.sendPoint kSub r.node [subHead r.first r.count r.maxper ++ bytesLE dump.toNat 1 ++ zeros 3]

/-- A range enters LIVE, or its timer restarts (Table 4-5). -/
def State.rangeLive (s : State) (e : Nat) : State :=
  let r := s.range e
  let s := s.setRange e { r with state := rngLive, staleAt := s.now + s.tStale r }
  if r.state = rngLive then s else s.event 0x0400 (subj := r.name)

/-- A LIVE range enters STALE (Table 4-5). -/
def State.rangeStale (s : State) (e : Nat) : State :=
  let r := s.range e
  let s := (s.setRange e { r with state := rngStale }).raise R.HOP_INTSTAT.RNGSTALE
  (s.event 0x0401 (subj := r.name)).sendSub e true

/-- No route to a producer (Table 4-5). -/
def State.producersLost (s : State) (nodes : List Nat) : State :=
  if s.hopServes then
    s.each (s.inEntries.filter fun e => (s.range e).state == rngLive && nodes.contains (s.range e).node)
      fun s e => s.rangeStale e
  else s

/-! Pushing (R131, R132). -/

/-- The PUSH item of an own index as the record stands; poison is never pushed (R132). -/
def State.pushItem (s : State) (i : Nat) : List Byte × State :=
  let r := s.fetch mHopper (ownRecord i) 32
  let rec_ := if r.poison.isSome then
      zeros 8 ++ (r.bytes.drop 8).take 8 ++ bytesLE ({ recStat r.bytes with q := qBad, poison := true } : PStat).toNat 4 ++
        r.bytes.drop 20
    else r.bytes
  (bytesLE i 4 ++ rec_, r.st)

/-- Own indices pushed to a node, in messages of 32 items; sent items are counted. -/
def State.pushTo (s : State) (node : Nat) (idx : List Nat) : State :=
  s.each (chunks 32 idx) fun s c =>
    let (items, s) := c.foldl (fun (acc : List (List Byte) × State) i =>
      let (it, s) := acc.2.pushItem i
      (acc.1 ++ [it], s)) ([], s)
    if s.hopMute then s
    else
      let (ok, s) := s.leatSend tyPoint laneCyclic node (s.pointBody kPush items)
      if ok then s.bumpBy R.HOP_CNT_PUSHTX.COUNT items.length else s

/-- Every record of an outbound range pushed. -/
def State.pushRange (s : State) (x : HopOut) : State := s.pushTo x.node ((List.range x.count).map (x.first + ·))

/-- The n lowest pending indices pushed to every outbound entry that covers them, their marks cleared (R131). The marks go also
where no item can leave, the pager being mute or the fabric unable to send (notes/assumptions/156). -/
def State.pushPending (s : State) (n : Nat) : State :=
  let idx := (s.hop.pending.filter (·.2)).map (·.1) |>.take n
  let s := s.each s.outList' fun s e =>
    let x := s.outEntry e
    s.pushTo x.node (idx.filter fun i => x.first ≤ i && i < x.first + x.count)
  s.each idx fun s i => { s with hop := { s.hop with pending := SMap.set (fun _ => false) s.hop.pending i false } }

/-! Producer (R130). -/

/-- SUBACK results. -/
def saOk : Nat := 0
def saFull : Nat := 1
def saRange : Nat := 2
def saBadper : Nat := 3

/-- A SUB item judged (Table 4-6): its result, the entry to dump, the state after. -/
def State.subItem (s : State) (src : Nat) (it : List Byte) : Nat × Option Nat × State :=
  let first := numAt it 0 4 % 2 ^ 20
  let count := numAt it 4 2
  let maxper := numAt it 6 2
  let dump := numAt it 8 1 % 2 == 1
  if s.ownCount < first + count ∨ count = 0 then (saRange, none, s)
  else if maxper = 0 ∨ 6000 < maxper then (saBadper, none, s)
  else
    let held := s.outList'.find? fun e =>
      let x := s.outEntry e
      x.node == src && x.first == first && x.count == count
    match (match held with | some e => some e | none => (List.range 4096).find? fun e => !(s.outEntry e).valid) with
    | none => (saFull, none, s.event 0x0402 (subj := src * 2 ^ 20 + first) (val1 := saFull))
    | some e =>
      let x := s.outEntry e
      let keep := held.isSome && x.maxper == maxper && !dump
      let s := s.changeOut e { valid := true, first := first, node := src, count := count, maxper := maxper
                               leaseEnd := s.now + 60 * sec
                               nextPush := if keep then x.nextPush else s.now + 10 * ms * maxper }
      (saOk, if dump then some e else none, s)

/-- SUB items handled: one SUBACK, then the dumps. -/
def State.subIn (s : State) (src : Nat) (items : List (List Byte)) : State :=
  let (acks, dumps, s) := items.foldl (fun (acc : List (List Byte) × List Nat × State) it =>
    let (r, d, s) := acc.2.2.subItem src it
    (acc.1 ++ [it.take 6 ++ bytesLE r 1 ++ zeros 1], acc.2.1 ++ d.toList, s)) ([], [], s)
  let s := if s.hopMute then s else s.sendPoint kSuback src acks
  s.each dumps fun s e => s.pushRange (s.outEntry e)

def State.unsubIn (s : State) (src : Nat) (items : List (List Byte)) : State :=
  s.each items fun s it =>
    match s.outList'.find? fun e =>
      let x := s.outEntry e
      x.node == src && x.first == numAt it 0 4 % 2 ^ 20 && x.count == numAt it 4 2 with
    | some e => s.changeOut e {}
    | none => s

def State.fetchIn (s : State) (src : Nat) (items : List (List Byte)) : State :=
  s.each items fun s it =>
    let first := numAt it 0 4 % 2 ^ 20
    s.pushTo src (((List.range (numAt it 4 2)).map (first + ·)).filter (· < s.ownCount))

/-! Consumer (R129, R134, R150). -/

/-- The inbound entry that a SUBACK names. -/
def State.rangeNamed (s : State) (src first count : Nat) : Option Nat :=
  s.inEntries.find? fun e => (s.range e).node == src && (s.range e).first == first && (s.range e).count == count

/-- SUBACK items (Table 4-5). A RESULT of 4 to 255, which Table 4-8 does not give, refuses the range like the others
(notes/assumptions/156). -/
def State.subackIn (s : State) (src pinc : Nat) (items : List (List Byte)) : State :=
  s.each items fun s it =>
    match s.rangeNamed src (numAt it 0 4 % 2 ^ 20) (numAt it 4 2) with
    | none => s
    | some e =>
      let r := s.range e
      let res := numAt it 6 1
      if res = saOk then
        let s := if r.pincKnown then s else s.setRange e { r with pinc := pinc, pincKnown := true }
        if r.state = rngSub ∨ r.state = rngStale then s.rangeLive e else s
      else if r.state = rngSub then
        let s := s.raise R.HOP_INTSTAT.SUBREFUSED
        if r.refused.testBit res then s
        else (s.setRange e { r with refused := r.refused ||| 2 ^ res }).event 0x0402 (subj := r.name) (val1 := res)
      else s

/-- A replica record written to the store and, where its page is resident, to the frame (R138). -/
def State.putReplica (s : State) (slot : Nat) (rec_ : List Byte) : State :=
  let s := s.write mHopper (s.storeAddr slot) rec_
  match s.frameOf (slot / 128) with
  | some f => s.write mHopper (frameAddr f slot) rec_
  | none => s

/-- A replica's record awaits repair, or carries poison in the store (R150). -/
def State.needsRepair (s : State) (slot : Nat) : Bool :=
  s.hop.refetch.any (fun x => x.slot == slot) ||
    (List.range 4).any fun k => s.wordPoisoned (wordOf (s.storeAddr slot) + k)

/-- One PUSH item (R134). -/
def State.pushIn1 (s : State) (src pinc : Nat) (it : List Byte) : State :=
  let idx := numAt it 0 4 % 2 ^ 20
  let rec_ := it.drop 4
  match s.rangeOf src idx with
  | none => s.bump R.HOP_CNT_NOSUB.COUNT
  | some e =>
    let r := s.range e
    let slot := r.slot + (idx - r.first)
    let changed := r.pinc != pinc
    let d := (recSeq rec_ + 2 ^ 32 - recSeq (s.bytes (s.storeAddr slot) 32)) % 2 ^ 32
    if !changed && 2 ^ 31 ≤ d then s.bump R.HOP_CNT_OLDSEQ.COUNT
    else
      let s := if changed then
          (s.setRange e { r with pinc := pinc, pincKnown := true }).event 0x0406 (subj := r.name) (val1 := pinc) else s
      let st := { recStat rec_ with stale := false }
      let ty := numAt rec_ 28 4
      let stored := rec_.take 16 ++ bytesLE st.toNat 4 ++ (rec_.drop 20).take 8 ++
        bytesLE (if ty.testBit 8 then ty else ty + 256) 4
      let repaired := s.needsRepair slot
      let s := (s.bump R.HOP_CNT_PUSHRX.COUNT).putReplica slot stored
      let s := if repaired then
          ({ s with hop := { s.hop with refetch := s.hop.refetch.filter (·.slot != slot) } }.bump
            R.HOP_CNT_REFETCH.COUNT).corrected 5
        else s
      if r.state = rngLive ∨ r.state = rngStale then s.rangeLive e else s

/-- A point message body taken (R136): discarded and counted where it is malformed, handled by its kind else. -/
def State.pointMsg (s : State) (src : Nat) (body : List Byte) : State :=
  let s := s.takeInbox tyPoint src body
  if !s.hopServes then s
  else
    let kind := numAt body 0 1
    let count := numAt body 2 2
    let items := chunks (itemSize kind) (body.drop 8)
    if kind = 0 ∨ 5 < kind ∨ numAt body 1 1 ≠ 1 ∨ count = 0 ∨ 32 < count ∨ body.length ≠ 8 + count * itemSize kind then
      (s.bump R.HOP_CNT_BADMSG.COUNT).raise R.HOP_INTSTAT.BADMSG
    else
      let pinc := numAt body 4 2
      match kind with
      | 1 => s.subIn src items
      | 2 => s.subackIn src pinc items
      | 3 => s.unsubIn src items
      | 4 => s.each items fun s it => s.pushIn1 src pinc it
      | _ => s.fetchIn src items

/-! The replica cache (R138, R144 to R148). -/

/-- RESIDENT and PINNED follow the frames. -/
def State.syncCache (s : State) : State :=
  let held := s.hop.frames.filter fun (_, x) => x.page.isSome && !x.busy
  (s.wr R.HOP_CACHE.RESIDENT held.length).wr R.HOP_CACHE.PINNED (held.filter fun (_, x) => x.pins != 0).length

/-- The clock over the frames (R145): the frame chosen, and the state with the hand moved and the reference bits it passed
cleared; `n` bounds the frames examined. -/
def State.clock (s : State) : Nat → Option Nat × State
  | 0 => (none, s)
  | n + 1 =>
    let f := s.hop.hand
    let x := s.frame f
    let s : State := { s with hop := { s.hop with hand := (f + 1) % 512 } }
    if x.pins ≠ 0 ∨ x.busy then s.clock n
    else if x.ref then (s.setFrame f { x with ref := false }).clock n
    else (some f, s)

/-- The victim of a miss (R145): a clock round may have to pass every reference bit before it meets a frame again. -/
def State.victim (s : State) : Option Nat × State := s.clock 1024

/-- A page transfer into a frame begins. -/
def State.beginPage (s : State) (f page : Nat) : State :=
  let x := s.frame f
  let s := if x.page.isSome then s.bump R.HOP_CNT_EVICT.COUNT else s
  (s.setFrame f { page := some page, pins := x.pins, busy := true }).syncCache

/-- A FETCH for a replica's index sent to its producer (R150). -/
def State.sendFetch (s : State) (slot : Nat) : State :=
  match s.inEntries.find? fun e => (s.range e).slot ≤ slot && slot < (s.range e).slot + (s.range e).count with
  | some e =>
    let r := s.range e
    s.sendPoint kFetch r.node [bytesLE (r.first + (slot - r.slot)) 4 ++ bytesLE 1 2 ++ zeros 2]
  | none => s

/-- A FETCH for a replica's record, unless one is under way (R150). -/
def State.askRefetch (s : State) (slot : Nat) : State :=
  if s.hop.refetch.any (·.slot == slot) then s
  else
    State.sendFetch
      { s with hop := { s.hop with refetch := s.hop.refetch ++ [{ slot := slot, tries := 1, sentAt := s.now }] } } slot

/-- One record of a page moved into its frame; a parity failure poisons the record and asks for it again (R150). -/
def State.moveRecord (s : State) (f slot : Nat) : State :=
  let r := s.fetch mHopper (s.storeAddr slot) 32
  let a := frameAddr f slot
  let s := r.st
  if r.poison.isNone then s.write mHopper a r.bytes
  else
    let bad := r.bytes.take 16 ++ bytesLE ({ recStat r.bytes with q := qBad, poison := true } : PStat).toNat 4 ++ r.bytes.drop 20
    let s := s.each (List.range 4) fun s k => s.writePoison mHopper (wordOf a + k) (BitVec.ofNat 64 (numAt bad (8 * k) 8))
    s.askRefetch slot

/-- A page transfer completes: the frame is resident and referenced. -/
def State.endPage (s : State) (f page : Nat) : State :=
  let s := s.each (List.range 128) fun s k => s.moveRecord f (128 * page + k)
  (s.setFrame f { s.frame f with page := some page, busy := false, ref := true }).syncCache

/-! Lookups (R144, R156). -/

/-- What a lookup answers. -/
inductive LkAns where
  /-- The record, its slot or own index, and whether its words carried poison. -/
  | found (rec_ : List Byte) (slot : Nat) (poison : Bool)
  | absent | busy | notrun | waits
  deriving DecidableEq, Repr

/-- RESULT of a lookup port. -/
def lkOk : Nat := 0
def lkAbsent : Nat := 1
def lkBusy : Nat := 2
def lkNotown : Nat := 3
def lkNotrun : Nat := 4

/-- A resident replica's record with its overlay. -/
def State.readFrame (s : State) (e f slot : Nat) : LkAns × State :=
  let r := s.fetch mHopper (frameAddr f slot) 32
  (.found (overlay (s.range e).state r.bytes) slot r.poison.isSome, r.st.setFrame f { r.st.frame f with ref := true })

/-- A miss: its page is being read, is chosen for a victim, or is refused with BUSY (R144 to R146). -/
def State.miss (s : State) (port id page : Nat) : LkAns × State :=
  let s := s.bump R.HOP_CNT_MISS.COUNT
  let add := fun (s : State) (f : Option Nat) =>
    { s with hop := { s.hop with misses := s.hop.misses ++ [{ port := port, id := id, page := page, frame := f }] } }
  let busy := fun (s : State) => (LkAns.busy, (s.bump R.HOP_CNT_MISSBUSY.COUNT).raise R.HOP_INTSTAT.MISSBUSY)
  if 16 ≤ s.hop.misses.length then busy s
  else
    match s.hop.misses.find? (·.page == page) with
    | some m => (.waits, add s m.frame)
    | none =>
      match s.victim with
      | (none, s) => busy s
      | (some f, s) =>
        if s.assist .hop then
          let free := 512 - (s.hop.frames.filter fun (_, x) => x.pins != 0).length
          let arg := bytesLE page 2 ++ bytesLE f 2 ++ bytesLE free 2 ++ zeros 10
          match s.asnPost .hop 4 port arg false [page, f] none with
          | (true, s) => (.waits, add s none)
          | (false, s) => (.waits, add (s.beginPage f page) (some f))
        else (.waits, add (s.beginPage f page) (some f))

/-- A request for a point's record from the gate (port 0) or a lookup port (1 to 4). -/
def State.lookup (s : State) (port id : Nat) : LkAns × State :=
  match s.resolve id with
  | .nothing => (.absent, s)
  | .own i =>
    let r := s.fetch mHopper (ownRecord i) 32
    (.found r.bytes i r.poison.isSome, r.st)
  | .replica e slot =>
    if !s.hopServes then (.notrun, s)
    else
      match s.frameOf (slot / 128) with
      | some f =>
        let (a, s) := s.readFrame e f slot
        (a, s.bump R.HOP_CNT_HIT.COUNT)
      | none => s.miss port id (slot / 128)

/-- A lookup port's answer shown (Table 4-19). -/
def State.showLookup (s : State) (p : Nat) (a : LkAns) (miss : Bool) : State :=
  let done := fun (s : State) (r : Nat) =>
    ((s.wr (R.HOP_LK_STAT.RESULT p) r).wrb (R.HOP_LK_STAT.MISS p) miss).clear (R.HOP_LK_CMD.GO p)
  match a with
  | .found b slot _ =>
    let s := s.each (List.range 8) fun s j => s.wr (R.HOP_LK_DATA.DATA p j) (numAt b (4 * j) 4)
    done (s.wr (R.HOP_LK_SLOT.SLOT p) slot) lkOk
  | .absent => done s lkAbsent
  | .busy => done s lkBusy
  | .notrun => done s lkNotrun
  | .waits => s.raise (R.HOP_LK_CMD.GO p)

/-- The misses of a page answered at its lookup ports; what the gate waits for is returned (R144, R148). -/
def State.answerMisses (s : State) (page : Nat) : List Nat × State :=
  let (mine, rest) := s.hop.misses.partition (·.page == page)
  let s : State := { s with hop := { s.hop with misses := rest } }
  let s := s.each (mine.filter (·.port != 0)) fun s m =>
    match s.resolve m.id with
    | .replica e slot =>
      match s.frameOf page with
      | some f =>
        let (a, s) := s.readFrame e f slot
        s.showLookup (m.port - 1) a true
      | none => s
    | _ => s
  ((mine.filter (·.port == 0)).map (·.id), s)

/-- The misses of a page learn its frame. -/
def State.giveFrame (s : State) (page f : Nat) : State :=
  { s with hop := { s.hop with misses := s.hop.misses.map fun m => if m.page == page then { m with frame := some f } else m } }

/-- The page-choice result of the assist server, or the HW choice in its stead (R146); a page that a pin scan has meanwhile brought
in stays in its one frame (R138). -/
def State.choose (s : State) (page : Nat) (server : Option Nat) (fallback : Nat) : State :=
  let usable := fun f => f < 512 && (s.frame f).pins == 0 && !(s.frame f).busy
  let (f, s) : Option Nat × State :=
    match server with
    | some v =>
      if usable v then (some v, s)
      else
        let s := s.bump AsnBlock.hop.DROP
        if usable fallback then (some fallback, s) else s.victim
    | none =>
      let s := s.bump AsnBlock.hop.DROP
      if usable fallback then (some fallback, s) else s.victim
  match s.frameWith page, f with
  | some g, _ => s.giveFrame page g
  | none, some f => (s.beginPage f page).giveFrame page f
  | none, none => s

/-- A reaped FUNC 4 result; a result after its timeout finds its miss already served (R41, R146). -/
def State.hopResult (r : Reaped) : State :=
  match r.post.ctx with
  | [page, f] =>
    if r.post.timedOut then r.st
    else r.st.choose page (if r.ok then some (numAt r.result 8 2) else none) f
  | _ => r.st

/-- A FUNC 4 descriptor timed out (R146). -/
def State.hopTimeout (s : State) (p : AsnPost) : State :=
  match p.ctx with
  | [page, f] => s.choose page none f
  | _ => s

/-! The pin scan (R141, R142). -/

/-- The POINT entries of a list bank that are not all zero: their point IDs. -/
def State.bankPoints (s : State) (bank : Nat) : List Nat :=
  s.img.lists.filterMap fun (w, x) =>
    if bank * 0xC000 ≤ w && w < (bank + 1) * 0xC000 && w % 4 == 0 && getField x 0 8 == kPoint then
      some (s.imgWord (w + 1)).toNat else none

/-- The scan's result on the frames: PINLIMIT, or the pages of the bank pinned (R141, R142). A page already being read is waited for,
in the frame that it is read into. -/
def State.scanDone (s : State) (bank : Nat) : State :=
  let ids := s.bankPoints bank
  let pages := (ids.filterMap fun id => match s.resolve id with | .replica _ slot => some (slot / 128) | _ => none).dedup
  let unres := (ids.filter fun id => s.resolve id == .nothing).length
  let pinned := (s.hop.frames.filterMap fun (_, x) => if x.pins != 0 then x.page else none)
  let s : State := { s with hop := { s.hop with scan := none } }
  let s := (s.clear R.HOP_PIN_CMD.GO).raise R.HOP_INTSTAT.PINDONE
  if 384 < (pages ++ pinned).dedup.length then
    ((s.wr R.HOP_PIN_STAT.RESULT 1).raise R.HOP_INTSTAT.PINLIMIT).event 0x0403 (unit := bank)
  else
    let bit : BitVec 2 := if bank = 0 then 1#2 else 2#2
    let pin := fun (s : State) (f : Nat) => s.setFrame f { s.frame f with pins := (s.frame f).pins ||| bit }
    let s := s.each pages fun s page =>
      match s.frameWith page with
      | some f => pin (if (s.frame f).busy then s.endPage f page else s) f
      | none =>
        match s.victim with
        | (some f, s) =>
          pin ((s.beginPage f page).endPage f page) f
        | (none, s) => s
    ((s.wr R.HOP_PIN_STAT.RESULT 0).wr R.HOP_PIN_STAT.UNRES unres).syncCache

/-- The scan ends because the block leaves RUN (R142); one stopped by a drain that ends in RUN does so too
(notes/assumptions/156). -/
def State.scanLost (s : State) : State :=
  if s.hop.scan.isSome then
    let s : State := { s with hop := { s.hop with scan := none } }
    ((s.wr R.HOP_PIN_STAT.RESULT 2).clear R.HOP_PIN_CMD.GO).raise R.HOP_INTSTAT.PINDONE
  else s

/-! Enable (R155). -/

/-- Two runs of numbers overlap. -/
def overlaps (a n b m : Nat) : Bool := a < b + m && b < a + n

/-- The first node with a range at which a check fails. -/
def State.failingNode (s : State) (bad : Nat → List HopRange → Bool) : Option Nat :=
  s.tabNodes.find? fun n => bad n ((List.range (s.nodeRanges n).2).map fun k => s.range ((s.nodeRanges n).1 + k))

/-- A node's ranges ascend in FIRST without overlap. -/
def ascending : List HopRange → Bool
  | a :: b :: rest => a.first + a.count ≤ b.first && ascending (b :: rest)
  | _ => true

/-- FCAUSE and FARG of HOP_STAT (Table 4-17), the lowest failing cause; none where the checks pass. -/
def State.hopFault (s : State) : Option (Nat × Nat) :=
  let base := s.storeAddr 0
  let total := (s.tabNodes.map fun n => (s.nodeRanges n).2).sum
  let all := s.inEntries
  let self := s.rd R.HOP_NODE.NODE
  let nodeBad := fun n =>
    let (f, k) := s.nodeRanges n
    8192 < total || 8192 < f + k || s.tabNodes.any fun m =>
      m != n && overlaps f k (s.nodeRanges m).1 (s.nodeRanges m).2
  if base < 0x80000000 ∨ 0xF0000000 < base + 0x800000 then some (1, 0)
  else
    match s.tabNodes.find? nodeBad with
    | some n => some (2, n)
    | none =>
      match s.failingNode fun _ rs => rs.any (fun r => r.count == 0 || 2 ^ 20 < r.first + r.count) || !ascending rs with
      | some n => some (3, n)
      | none =>
        match all.find? fun e => 262144 < (s.range e).slot + (s.range e).count || all.any fun e' =>
          e' != e && overlaps (s.range e).slot (s.range e).count (s.range e').slot (s.range e').count with
        | some e => some (4, (s.range e).node)
        | none =>
          match all.find? fun e => (s.range e).maxper == 0 || 6000 < (s.range e).maxper with
          | some e => some (5, (s.range e).node)
          | none =>
            if self = 4095 ∨ (self ≠ 0 ∧ all.any fun e => (s.range e).node == self) then some (6, 0)
            else if s.on UnitId.hop.MODE && s.ringBad .hop then some (8, 0)
            else none

/-- What waits for a page ends with NOTRUN, and the scan with it; what the gate waits for is told by the caller. -/
def State.hopTurned (s : State) : State :=
  let s := s.scanLost
  let s := s.each (s.hop.misses.filter (·.port != 0)) fun s m => s.showLookup (m.port - 1) .notrun true
  { s with hop := { s.hop with misses := [] } }

/-- A crossbar error (R142, R155): the page transfers in progress are abandoned, their frames invalid; ranges, outbound entries, the
other frames and the pending marks stay until OFF. -/
def State.hopXbar (s : State) : State :=
  let s := s.hopTurned
  let frames := s.hop.frames.map fun (f, x) => if x.busy then (f, { x with page := none, busy := false }) else (f, x)
  State.syncCache { s with hop := { s.hop with frames := frames.filter fun (_, x) => x != {} } }

/-- What the pager loses at OFF (R155): cache, pins, outbound entries, pending marks. An outstanding FETCH is sent again when the
block next runs. -/
def State.hopLose (s : State) : State :=
  let s := s.hopTurned
  let s := s.each (s.hop.ranges.map (·.1)) fun s e => s.setRange e { s.range e with state := 0, refused := 0 }
  let s : State := { s with hop := { s.hop with frames := [], hand := 0, outs := [], pending := [] } }
  (s.clear R.HOP_STAT.INIT).syncCache

/-- The FETCHes outstanding as the block left RUN sent again (Table 1-10, R155); a slot of no range is given up. -/
def State.refetchAgain (s : State) : State :=
  let held := s.hop.refetch.filter fun x => s.inEntries.any fun e =>
    (s.range e).slot ≤ x.slot && x.slot < (s.range e).slot + (s.range e).count
  let s : State := { s with hop := { s.hop with refetch := held.map fun x => { x with tries := 1, sentAt := s.now } } }
  s.each held fun s x => s.sendFetch x.slot

/-- RUN entered: the store's initialisation begins (R140). -/
def State.hopStart (s : State) : State :=
  s.hopLose.raise R.HOP_STAT.INIT

/-- EN written 0 (Table 4-5), in RUN or in FAULT: UNSUB for every LIVE or STALE range. -/
def State.hopDrain (s : State) : State :=
  s.each s.inEntries fun s e =>
    let r := s.range e
    let s := if r.state = rngLive ∨ r.state = rngStale then
        s.sendPoint kUnsub r.node [bytesLE r.first 4 ++ bytesLE r.count 2 ++ zeros 2] else s
    s.setRange e { r with state := 0, refused := 0 }

/-- The current page transfer is the unit of work (R36, R155). -/
def State.hopDrained (s : State) : Bool := s.hop.frames.all fun (_, x) => !x.busy

/-- The store's record of a slot never received (R140). -/
def blankReplica : List Byte := zeros 16 ++ bytesLE qNone 4 ++ zeros 8 ++ bytesLE 256 4

/-- Every range SUBSCRIBING, and the outstanding FETCHes sent again (Table 4-5, R155). -/
def State.hopSubscribe (s : State) : State :=
  (s.each s.inEntries fun s e => (s.setRange e { s.range e with state := rngSub }).sendSub e true).refetchAgain

/-- INIT clears (R140): every slot of every range initialised, every range SUBSCRIBING. -/
def State.hopInit (s : State) : State :=
  if s.on R.HOP_STAT.INIT ∧ s.running .hop then
    let s := s.each s.inEntries fun s e =>
      let r := s.range e
      s.each (List.range r.count) fun s k => s.write mHopper (s.storeAddr (r.slot + k)) blankReplica
    let s := (s.clear R.HOP_STAT.INIT).raise R.HOP_INTSTAT.INITDONE
    s.hopSubscribe
  else s

end Sys2Proof.Machine
end

