-- ==== Sys2Proof/Machine/FabOps.lean ====
section
/-!
DEFINITION. The fabric's control plane (ch05): the KEYX exchange, adjacencies, the own LSA and flooding, the database in
shared SRAM, route computation, QUENCH rules.
-/

namespace Sys2Proof.Machine

/-- FAB_MAC as a number, byte 0 the highest (notes/assumptions/35). -/
def State.ownMac (s : State) : Nat := 2 ^ 32 * s.rd R.FAB_MAC_HI.MAC + s.rd R.FAB_MAC_LO.MAC

/-- A MAC's bytes. -/
def macBytes (m : Nat) : List Byte := bytesBE m 6

/-- ADJ (R177). -/
def adjDown : Nat := 0
def adjKeying : Nat := 1
def adjHello : Nat := 2
def fADJ (p : Nat) : Fld := R.FAB_P_STAT.ADJ p

/-- MEDIA (Table 5-1). -/
def mediaUdp : Nat := 2
def State.udp (s : State) (p : Nat) : Bool := s.rd (R.FAB_P_CTRL.MEDIA p) == mediaUdp

/-- A fabric port, by number. -/
def portUnit (p : Nat) : UnitId := .port ⟨p % 4, Nat.mod_lt _ (by decide)⟩

/-- A port works and its link is up. -/
def State.portOn (s : State) (p : Nat) : Bool := s.working (portUnit p) && s.on (R.FAB_P_STAT.LINK p)

/-- A port takes part in the fabric: both work and its link is up. -/
def State.portLive (s : State) (p : Nat) : Bool := s.portOn p && s.working .fab

/-- A port takes frames in: neither it nor the fabric drains (R36, R203). -/
def State.takesFrames (s : State) (p : Nat) : Bool :=
  s.running (portUnit p) && s.running .fab && s.on (R.FAB_P_STAT.LINK p)

/-! What the control plane sends over a link. -/

/-- A link-local frame for a port. -/
def State.linkSend (s : State) (p typ : Nat) (payload : List Byte) : State :=
  let f := s.leatFrame typ laneControl 4095 payload
  (s.tookSeq f).leave 4 p f

/-- The site fabric key (R164). -/
def State.siteKey (s : State) : List Byte :=
  (SMap.get (fun _ => ({} : KeySlot)) s.key.slots (s.rd R.FAB_SEC.KSLOT)).material.take 32

/-- K_KX (R164). -/
def State.kKx (s : State) : List Byte := kdf s.siteKey (ascii "LEAT-KX") []

/-- The SAK (R164). -/
def State.sak (s : State) (peerMac : Nat) (own peer : BitVec 128) (an : Nat) : List Byte :=
  let m := s.ownMac
  let n := fun (x : BitVec 128) => bytesBE x.toNat 16
  kdf s.siteKey (ascii "LEAT-SAK")
    (macBytes (min m peerMac) ++ macBytes (max m peerMac) ++ (if m < peerMac then n own ++ n peer else n peer ++ n own) ++
      bytesLE an 1)

/-- The key engine serves the fabric (R411, R413, R423): RUN, and a usable slot of PURPOSE SITE_FABRIC. -/
def State.fabKeyOk (s : State) : Bool :=
  let k := s.rd R.FAB_SEC.KSLOT
  s.running .key && s.slotCause k == 0 && (s.kslot k).purpose == 4

/-- A KEYX sent (Table 5-6): 1 OFFER, 2 ANSWER; none while the key engine gives no tag or gave no nonce (R423, R424). -/
def State.sendKeyx (s : State) (p msg an : Nat) (peerNonce : BitVec 128) : State :=
  if !s.fabKeyOk || !(s.port p).nonceOk then s
  else
    let caps := 1 + (if s.on (R.FAB_P_CTRL.PTP_EN p) then 2 else 0)
    let body := bytesLE msg 1 ++ bytesLE an 1 ++ bytesLE caps 1 ++ bytesLE p 1 ++ macBytes s.ownMac ++
      bytesLE (s.rd R.FAB_NODE.ACT) 2 ++ bytesBE (s.port p).nonce.toNat 16 ++ bytesBE peerNonce.toNat 16
    let f := s.leatFrame tyKeyx laneControl 4095 (body ++ zeros 16)
    s.linkSend p tyKeyx (body ++ (hmac s.kKx (leatHeader f ++ body)).take 16)

/-- An OFFER sent now. -/
def State.offer (s : State) (p : Nat) : State :=
  (s.setPort p { s.port p with offerAt := s.now }).sendKeyx p 1 (s.port p).offerAn 0

/-- A fresh nonce from the DRBG (R164). -/
def State.newNonce (s : State) (p : Nat) : State :=
  if s.drbgOk then
    (s.setPort p { s.port p with nonce := (Config.free256 s.fresh).truncate 128, nonceOk := true, nonceAt := s.now }).drawn
  else s.setPort p { s.port p with nonceOk := false, nonceAt := s.now }

/-- KEYING entered (Table 5-9): a new nonce, the first OFFER. -/
def State.keying (s : State) (p : Nat) : State :=
  let s := s.wr (fADJ p) adjKeying
  let s := s.setPort p { s.port p with offerAn := 0, rekeying := false, keyingSince := s.now, rx := [], tx := none
                                       txPn := 0, oldSaAt := none, deadAt := none, deadVoid := false
                                       peerNode := 0, peerKnown := false, offerSeen := false, verified := false }
  (s.newNonce p).offer p

/-- A HELLO sent (Table 5-8). -/
def State.sendHello (s : State) (p : Nat) : State :=
  let s := s.setPort p { s.port p with helloAt := s.now }
  s.linkSend p tyHello
    (bytesLE (s.rd R.FAB_NODE.ACT + 4096 * s.rd R.FAB_NODE.NSTATE) 2 ++ macBytes s.ownMac ++ bytesLE p 1 ++
      bytesLE (s.rd R.FAB_HELLO.INT) 1 ++ bytesLE (s.rd R.FAB_HELLO.DEAD) 1 ++ zeros 1 ++
      bytesLE (s.port p).peerNode 2 ++ bytesLE s.fab.ownSeq 4 ++ zeros 2)

/-! The database (R182 to R184). -/

/-- NSTATE (Table 5-16). -/
def nsUnassigned : Nat := 0
def nsClaiming : Nat := 1
def nsAssigned : Nat := 2
def nsDuplicate : Nat := 3
def nsNonode : Nat := 4

/-- States of an LSA (Table 5-10). -/
def lsTentative : Nat := 1
def lsAssigned : Nat := 2
def lsWithdrawn : Nat := 3

/-- An LSA's 48 bytes (Table 5-10). -/
def lsaBytes (l : Lsa) : List Byte :=
  let adj := fun (a : LsaAdj) => bytesLE a.node 2 ++ bytesLE a.cost 2 ++ bytesLE a.port 1 ++ bytesLE a.media 1 ++ zeros 2
  bytesLE (l.node + 4096 * l.state + 16384 * l.configured.toNat + 32768 * l.gmcap.toNat) 2 ++ macBytes l.mac ++
    bytesLE l.seq 4 ++ bytesLE l.adj.length 1 ++ bytesLE l.alias_.toNat 1 ++ zeros 2 ++
    ((l.adj.flatMap adj) ++ zeros 32).take 32

def State.lsa (s : State) (n : Nat) : Option FabLsa := SMap.get (fun _ => none) s.fab.lsdb n

def State.setLsa (s : State) (n : Nat) (x : Option FabLsa) : State :=
  { s with fab := { s.fab with lsdb := SMap.set (fun _ => none) s.fab.lsdb n x } }

/-- Where node n's entry lies (R184). -/
def State.lsaAddr (s : State) (n : Nat) : Nat := 0x40000 * s.rd R.FAB_LSDB.BASE + 64 * n

/-- Key of the lower of two alias LSAs of node n, kept beside the higher (R451). -/
def lowAlias (n : Nat) : Nat := 4096 + n

/-- Whether an adjacency leaves the own LSA known to a neighbour: one in UP stands (R180). -/
def State.canFlood (s : State) : Bool := !s.upPorts.isEmpty

/-- An entry as shared SRAM shows it. What TWOWAY says of a node is not stated: free (notes/assumptions/37). -/
def State.showLsa (s : State) (n : Nat) : State :=
  if 4096 ≤ n then s
  else
    match s.lsa n with
    | none => s.write mEngine (s.lsaAddr n) (zeros 64)
    | some x =>
      (s.write mEngine (s.lsaAddr n)
        (lsaBytes x.lsa ++ bytesLE ((s.now - x.at_) / ms) 4 ++
          bytesLE (1 + (if Config.freeBit s.fresh then 2 else 0)) 1 ++ zeros 11)).taken

/-- The ages that the entries show follow the time (R184): those that have reached another millisecond. -/
def State.showAges (s : State) : State :=
  let before := s.fab.agesAt
  let s : State := { s with fab := { s.fab with agesAt := s.now } }
  s.each (s.fab.lsdb.map (·.1)) fun s n =>
    match s.lsa n with
    | some x => if (s.now - x.at_) / ms = (before - x.at_) / ms then s else s.showLsa n
    | none => s

/-- A change of the database (R185). -/
def State.dbChanged (s : State) : State :=
  { s with fab := { s.fab with generation := (s.fab.generation + 1) % 2 ^ 32
                               dirtyAt := some (s.fab.dirtyAt.getD s.now) } }

/-- An LSA installed (R183, R203: LSARX). -/
def State.installLsa (s : State) (n : Nat) (l : Lsa) : State :=
  ((s.setLsa n (some { lsa := l, at_ := s.now, beforeOwn := !s.fab.ownFlooded })).showLsa n).dbChanged

/-- A node's entry removed. -/
def State.removeLsa (s : State) (n : Nat) : State :=
  if (s.lsa n).isSome then ((s.setLsa n none).showLsa n).dbChanged else s

/-- LSAs sent to one adjacency, at most 24 a message, to be acknowledged (R182, R183). -/
def State.sendLsas (s : State) (p : Nat) (ls : List Lsa) : State :=
  let s := s.each (chunks 24 ls) fun s c =>
    s.linkSend p tyLsa (bytesLE c.length 2 ++ zeros 2 ++ c.flatMap lsaBytes)
  let x := s.port p
  let old := x.unacked.filter fun y => !ls.any fun l => l.node == y.node && l.alias_ == y.alias_
  s.setPort p { x with unacked := old ++ ls, lsaSentAt := s.now }

/-- LSAs flooded on every adjacency in UP but one. -/
def State.flood (s : State) (l : Lsa) (except : Option Nat := none) : State :=
  s.each (s.upPorts.filter fun p => some p != except) fun s p => s.sendLsas p [l]

/-- LSACK (R182, R183). -/
def State.sendAck (s : State) (p : Nat) (l : Lsa) : State :=
  s.linkSend p tyLsack (bytesLE 1 2 ++ zeros 2 ++ bytesLE l.node 2 ++ zeros 2 ++ bytesLE l.seq 4)

/-- Media of an adjacency (Table 5-10) and its default cost (Table 5-20). -/
def State.adjMedia (s : State) (p : Nat) : Nat :=
  if s.udp p then 3 else match s.rd (R.FAB_P_STAT.SPEED p) with | 3 => 0 | 2 => 1 | _ => 2

def State.adjCost (s : State) (p : Nat) : Nat :=
  let c := s.rd (R.FAB_P_COST.COST p)
  if c ≠ 0 then c else match s.adjMedia p with | 0 => 10 | 1 => 100 | 2 => 1000 | _ => 500

/-- The module's adjacencies as its LSA lists them. -/
def State.ownAdj (s : State) : List LsaAdj :=
  s.upPorts.map fun p => { node := (s.port p).peerNode, cost := s.adjCost p, port := p, media := s.adjMedia p }

/-- The own LSA originated with a new SEQ, installed and flooded (R182). It counts as flooded once an adjacency in UP could
take it (R180). -/
def State.originate (s : State) (node state : Nat) (seq : Option Nat := none) : State :=
  let q := (seq.getD (s.fab.ownSeq + 1)) % 2 ^ 32
  let l : Lsa := { node := node, state := state, configured := s.rd R.FAB_NODE.CFG != 0, gmcap := s.on R.FAB_PTP_CFG.GMCAP
                   mac := s.ownMac, seq := q, adj := if state = lsWithdrawn then [] else s.ownAdj }
  let s := s.flood l
  let s : State := { s with fab := { s.fab with ownSeq := q, ownAt := s.now } }
  let s := if state = lsWithdrawn then s.removeLsa node else s.installLsa node l
  { s with fab := { s.fab with ownFlooded := s.fab.ownFlooded || s.canFlood } }

/-- The own LSA flooded at a change of the adjacencies (R182). -/
def State.reoriginate (s : State) : State :=
  if s.rd R.FAB_NODE.NSTATE = nsAssigned then s.originate (s.rd R.FAB_NODE.ACT) lsAssigned
  else if s.fab.tentativeAt.isSome then s.originate s.fab.candidate lsTentative
  else s

/-- The alias LSA originated, or withdrawn (R450). -/
def State.aliasLsa (s : State) (on : Bool) : State :=
  let sn := s.rd R.PAIR_SNODE.SNODE
  let l : Lsa := { node := sn, state := if on then lsAssigned else lsWithdrawn, configured := true, mac := s.ownMac
                   seq := s.rd R.PAIR_EPOCH.EPOCH, alias_ := true
                   adj := if on then [{ node := s.rd R.FAB_NODE.ACT, cost := 1, port := 0, media := 0 }] else [] }
  if s.running .fab then
    let s := s.flood l
    if on then s.installLsa sn l else s.removeLsa sn
  else s

/-! Adjacencies (Table 5-9). -/

/-- An adjacency leaves UP: out of the own LSA, ADJDOWN, and its event unless it only falls back to HELLO. -/
def State.leaveUp (s : State) (p to_ : Nat) (event : Bool) : State :=
  let was := s.rd (fADJ p) == adjUp
  let peer := (s.port p).peerNode
  let s := s.wr (fADJ p) to_
  let s := s.setPort p { s.port p with unacked := [] }
  if was then
    let s := (s.raise R.FAB_INTSTAT.ADJDOWN).reoriginate
    if event then s.event 0x0501 (unit := p) (subj := peer) else s
  else s

/-- Preemption as its three conditions stand (R192): it ends with any of them, and then wants a new verify exchange. -/
def State.preemptSync (s : State) (p : Nat) : State :=
  let x := s.port p
  if x.verified && !(s.on (R.FAB_P_CTRL.PREEMPT_EN p) && x.peerCaps % 2 == 1) then
    (s.setPort p { x with verified := false }).clear (R.FAB_P_STAT.PREEMPT_ACT p)
  else s

/-- The SA deleted. -/
def State.dropSa (s : State) (p : Nat) : State :=
  s.setPort p { s.port p with rx := [], tx := none, txPn := 0, oldSaAt := none, rekeying := false, deadAt := none
                              deadVoid := false }

/-- A port's adjacency goes DOWN. -/
def State.portDown (s : State) (p : Nat) : State := (s.leaveUp p adjDown true).dropSa p

/-- Frames queued for a port discarded, each counted in the DROP counter of its lane (R172). -/
def State.dropQueues (s : State) (p : Nat) : State :=
  s.each (List.range 4) fun s l => (s.bumpBy (R.FAB_P_CNT_DROP.COUNT p l) (s.lane p l).length).setLane p l []

/-! Node numbers (R179 to R181). -/

/-- NONODE (R181). -/
def State.noNode (s : State) : State :=
  let s := ((s.wr R.FAB_NODE.NSTATE nsNonode).raise R.FAB_INTSTAT.NONODE).event 0x0505
  { s with fab := { s.fab with retryAt := s.now + 10 * sec, tentativeAt := none } }

/-- A candidate picked and its TENTATIVE LSA flooded (R179). -/
def State.pickNode (s : State) : State :=
  let last := s.identRec.node
  let free := fun n => (s.lsa n).isNone
  let cand := if 1 ≤ last ∧ last ≤ 4094 ∧ free last then some last
    else ((List.range 4094).map (· + 1)).find? free
  match cand with
  | none => s.noNode
  | some n =>
    let s : State := { s.wr R.FAB_NODE.NSTATE nsClaiming with
      fab := { s.fab with candidate := n, tentativeAt := some s.now } }
    s.originate n lsTentative

/-- This module yields its number (R180). -/
def State.yieldNode (s : State) (node : Nat) : State :=
  let s := s.originate node lsWithdrawn
  let s := (s.wr R.FAB_NODE.ACT 0)
  let s : State := { s with fab := { s.fab with tentativeAt := none, ownFlooded := false } }
  if s.rd R.FAB_NODE.CFG = 0 then s.wr R.FAB_NODE.NSTATE nsClaiming
  else ((s.wr R.FAB_NODE.NSTATE nsDuplicate).raise R.FAB_INTSTAT.DUPNODE).event 0x0504 (subj := node)

/-! Routes (R185 to R187). -/

/-- A path found: its cost, egress port, next hop, hops, and whether it crosses a tunnel. -/
structure FabPath where
  cost : Nat
  port : Nat
  next : Nat
  hops : Nat
  tunnel : Bool
  deriving DecidableEq, Repr

/-- The better of two paths (R185): cost, then egress port, then next hop; then fewer hops. -/
def FabPath.before (a b : FabPath) : Bool :=
  a.cost < b.cost || (a.cost == b.cost && (a.port < b.port || (a.port == b.port &&
    (a.next < b.next || (a.next == b.next && a.hops < b.hops)))))

/-- A link is listed by both ends; an alias adjacency counts as such (R185, R450). -/
def State.twoWay (s : State) (u v : Nat) : Bool :=
  match s.lsa v with
  | none => false
  | some x => x.lsa.state != lsWithdrawn && (x.lsa.alias_ || x.lsa.adj.any fun a => a.node == u)

/-- The adjacencies that lead from node u: its own, and the alias nodes that name it (R450). -/
def State.edges (s : State) (u : Nat) : List LsaAdj :=
  let own := match s.lsa u with
    | some x => if x.lsa.alias_ || x.lsa.state == lsWithdrawn then [] else x.lsa.adj.filter fun a => s.twoWay u a.node
    | none => []
  own ++ (s.fab.lsdb.filterMap fun (n, x) =>
    match x with
    | some y =>
      if n < 4096 && y.lsa.alias_ && y.lsa.adj.any (fun a => a.node == u) then
        some { node := n, cost := 1, port := 0, media := 0 } else none
    | none => none)

/-- One round of relaxation from the nodes reached so far. -/
def State.relax (s : State) (own : Nat) (m : SMap (Option FabPath)) : SMap (Option FabPath) :=
  let get := SMap.get (fun _ => none) m
  let from_ := (own, (none : Option FabPath)) :: m.filter (·.1 != own)
  from_.foldl (fun m (u, p) =>
    (s.edges u).foldl (fun m a =>
      let cand : FabPath := match p with
        | none => { cost := a.cost, port := a.port, next := a.node, hops := 1, tunnel := a.media == 3 }
        | some q => { q with cost := q.cost + a.cost, hops := q.hops + 1, tunnel := q.tunnel || a.media == 3 }
      if a.node = own || (u ≠ own && (get u).isNone) then m
      else
        match SMap.get (fun _ => none) m a.node with
        | some q => if cand.before q then SMap.set (fun _ => none) m a.node (some cand) else m
        | none => SMap.set (fun _ => none) m a.node (some cand)) m) m

/-- Rounds until every shortest path is found: at most one per node. -/
def State.paths (s : State) (own : Nat) : Nat → SMap (Option FabPath) → SMap (Option FabPath)
  | 0, m => m
  | n + 1, m => s.paths own n (s.relax own m)

/-- A routing entry (Table 5-21). -/
def routeEntry (p : FabPath) : Word :=
  BitVec.ofNat 32 (p.port + 8 * p.tunnel.toNat + 256 * min p.hops 255 + 65536 * min p.cost 65535)

/-- The routing table that the database gives (R185, R450): every ASSIGNED node; this node, and its alias, LOCAL. -/
def State.computeRoutes (s : State) : SMap Word :=
  let own := s.rd R.FAB_NODE.ACT
  let found := s.paths own s.fab.lsdb.length []
  let t := found.foldl (fun (t : SMap Word) (n, p) =>
    match p, s.lsa n with
    | some q, some x => if x.lsa.state = lsAssigned then SMap.set (fun _ => 7#32) t n (routeEntry q) else t
    | _, _ => t) []
  let t := if own = 0 then t else SMap.set (fun _ => 7#32) t own 4#32
  let sn := s.rd R.PAIR_SNODE.SNODE
  match s.lsa sn with
  | some x => if x.lsa.alias_ && x.lsa.mac == s.ownMac && s.pairActive then SMap.set (fun _ => 7#32) t sn 4#32 else t
  | none => t

/-- The nodes that a table reaches. -/
def reached (t : SMap Word) : List Nat := (t.filter fun (_, w) => getField w 0 3 != portNone).map (·.1)

/-- A routing table installed (R185): nodes lost are recorded and their stations told. -/
def State.installRoutes (s : State) (t : SMap Word) : State :=
  let lost := (reached s.fab.routes).filter fun n => !(reached t).contains n
  let s : State := { s with fab := { s.fab with routes := t } }
  let s := (s.bump R.FAB_CNT_SPF.COUNT).raise R.FAB_INTSTAT.ROUTECHG
  if lost.isEmpty then s
  else ((s.raise R.FAB_INTSTAT.UNREACH).each lost fun s n => s.event 0x0506 (subj := n)).fabUnreach.producersLost lost

/-- A routing entry without its reserved bits [7:4] (R9, Table 5-21). -/
def entryBits (v : Word) : Word := v &&& 0xFFFFFF0F#32

/-- A shadow table with its reserved PORT values made NONE (Table 5-21). -/
def shadowTable (t : SMap Word) : SMap Word :=
  t.foldl (fun (r : SMap Word) (n, w) =>
    let p := getField w 0 3
    SMap.set (fun _ => 7#32) r n (if p = 5 ∨ p = 6 then putField w 0 3 7 else w)) []

/-- SPFBUSY: a computation runs or a descriptor is posted (Table 5-18). -/
def State.spfBusy (s : State) : State :=
  s.wrb R.FAB_STAT.SPFBUSY (s.fab.computing.isSome || !(s.posts .fab).isEmpty)

/-- A reaped FUNC 5 result (R187, Table 1-11). -/
def State.routeResult (r : Reaped) : State :=
  let s := if r.ok && numAt r.result 12 1 % 2 == 1 then r.st.installRoutes (shadowTable r.st.fab.shadow) else r.st
  s.spfBusy

/-! QUENCH (R193 to R195). -/

/-- A QUENCH a module accepts (R162, R193): a header that Table 5-4 allows, 20 bytes, LIFETIME up to 600 s (Table 5-15).
DESIGN CHOICE: every hop, whose control plane a QUENCH reaches, checks it as its destination does
(notes/assumptions/158). -/
def quenchOk (f : Leat) : Bool := headerOk f && f.payload.length == 20 && numAt f.payload 10 2 ≤ 600

/-- A QUENCH rule installed on a port, replaced or removed (R193 to R195). Its events name the port in UNIT and the rule, by its
QID, in SUBJ (R202). -/
def State.installQuench (s : State) (q : Nat) (f : Leat) : State :=
  let qid := fun (b : List Byte) => numAt b 16 4
  let same := (List.range 32).find? fun r =>
    (s.rule q r).valid && (s.rule q r).issuer == f.src && qid (s.rule q r).payload == qid f.payload
  let life := numAt f.payload 10 2
  if life = 0 then match same with | some r => s.setRule q r {} | none => s
  else
    match (match same with | some r => some r | none => (List.range 32).find? fun r => !(s.rule q r).valid) with
    | none => ((s.bump R.FAB_CNT_QFULL.COUNT).raise R.FAB_INTSTAT.QFULL).event 0x0509 (unit := q) (subj := qid f.payload)
    | some r =>
      let s := s.setRule q r { valid := true, payload := f.payload, issuer := f.src, until_ := s.now + sec * life }
      (s.raise R.FAB_INTSTAT.QUENCH).event 0x0508 (unit := q) (subj := qid f.payload)

/-- A QUENCH on its way to the flood's source (R194): a rule on the port it leaves through, at the source on the internal
port. `inPort` 4: this module is its origin. DST 4095 names no node, so no route leads there. -/
def State.quenchHop (s : State) (inPort : Nat) (f : Leat) : State :=
  if !quenchOk f then s.bump R.FAB_CNT_BADHDR.COUNT
  else
    let q := s.routePort f.dst
    if f.dst = 0 ∨ f.dst = 4095 ∨ q = portNone then
      if inPort < 4 then s.bump (R.FAB_P_CNT_NOROUTE.COUNT inPort) else s.bump R.FAB_CNT_NOROUTE.COUNT
    else if q = portLocal then s.installQuench 4 f
    else if inPort < 4 ∧ f.ttl = 0 then s.bump (R.FAB_P_CNT_MISC.COUNT inPort)
    else (s.installQuench q f).leave inPort q (if inPort < 4 then { f with ttl := f.ttl - 1 } else f)

/-- A QUENCH issued by this module, sent three times 10 ms apart (R193). -/
def State.quenchIssue (s : State) (f : Leat) : State :=
  let s := s.quenchHop 4 (s.stamped f)
  { s with fab := { s.fab with resend := s.fab.resend ++ [{ frame := f, left := 2, at_ := s.now + 10 * ms }] } }

end Sys2Proof.Machine
end

