-- ==== Sys2Proof/Machine/FabWire.lean ====
section
/-!
DEFINITION. A frame's bytes as a fabric port puts them on its medium (ch05): the protected and the unprotected Leat frame
(R158, R163), the FCS, and the IPv6 datagram of a tunnel (R173).
-/

namespace Sys2Proof.Machine

/-- One bit of the IEEE 802.3 CRC-32, reflected. -/
def fcsBit (c : Nat) : Nat := if c % 2 = 1 then Nat.xor (c / 2) 0xEDB88320 else c / 2

/-- One byte of it. -/
def fcsByte (c : Nat) (b : Byte) : Nat := (List.range 8).foldl (fun c _ => fcsBit c) (Nat.xor c b.toNat)

/-- The FCS of a frame's bytes, in the order sent (Table 5-2); ended with its complement where the frame is cut off (R171). -/
def fcsBytes (cut : Bool) (bs : List Byte) : List Byte :=
  let crc := bs.foldl fcsByte 0xFFFFFFFF
  bytesLE (if cut then crc else Nat.xor crc 0xFFFFFFFF) 4

/-- The Leat group address (Table 5-2). -/
def groupMac : Nat := 0x034C45415400

/-- DA of a frame at a port: the group address for the link-local types, else the next hop (Table 5-2, R167, R173). -/
def State.frameDa (s : State) (p : Nat) (f : Leat) : Nat := if linkType f.typ then groupMac else (s.port p).peerMac

/-- SecTAG of a frame with n bytes of secure data (Table 5-5): EtherType, TCI and AN, SL, PN. -/
def secTag (an pn n : Nat) : List Byte :=
  [0x88#8, 0xE5#8] ++ bytesLE (0x4C + an) 1 ++ bytesLE (if n < 48 then n else 0) 1 ++ bytesBE pn 4

/-- A frame from DA to the end of the ICV (R158, R163): KEYX without protection; every other one sealed by GCM-AES-256 under
the SA, nonce SCI ‖ PN, with everything up to the Leat header in the clear. -/
def State.frameBody (s : State) (p : Nat) (f : Leat) (pn : Nat) : List Byte :=
  let head := macBytes (s.frameDa p f) ++ macBytes s.ownMac
  let inner := bytesBE (s.rd R.FAB_ETYPE.ETYPE) 2 ++ leatHeader f
  match f.typ == tyKeyx, (s.port p).tx with
  | false, some a =>
    let clear := head ++ secTag a.an pn (30 + f.payload.length) ++ inner
    clear ++ gcmSeal a.sak (macBytes s.ownMac ++ bytesBE 1 2 ++ bytesBE pn 4) clear f.payload
  | _, _ => head ++ inner ++ f.payload

/-- An IPv6 address of four register words, byte 0 the highest (R175). -/
def State.ip6 (s : State) (a : Nat) : BitVec 128 :=
  BitVec.ofNat 128 ((s.reg a).toNat * 2 ^ 96 + (s.reg (a + 4)).toNat * 2 ^ 64 + (s.reg (a + 8)).toNat * 2 ^ 32
    + (s.reg (a + 12)).toNat)

/-- DSCP of a lane (R173). -/
def laneDscp : Nat → Nat
  | 0 => 48
  | 1 => 34
  | 2 => 18
  | _ => 0

/-- The ones' complement sum of 16-bit words, folded; a byte left over counts as the high one. -/
def onesSum (bs : List Byte) : Nat :=
  let t := ((chunks 2 bs).map fun c => natBE (c ++ zeros (2 - c.length))).sum
  (t % 65535 + if t ≠ 0 ∧ t % 65535 = 0 then 65535 else 0)

/-- The UDP datagram of a tunnel port around a payload (R173): UDP ports, length, checksum over the pseudo header. -/
def State.udpBytes (s : State) (p : Nat) (src dst : List Byte) (bs : List Byte) : List Byte :=
  let port := bytesBE (s.rd (R.FAB_P_UDP.PORT p)) 2
  let n := 8 + bs.length
  let pseudo := src ++ dst ++ bytesBE n 4 ++ bytesBE 17 4
  let sum := 65535 - onesSum (pseudo ++ port ++ port ++ bytesBE n 2 ++ zeros 2 ++ bs)
  port ++ port ++ bytesBE n 2 ++ bytesBE (if sum = 0 then 65535 else sum) 2 ++ bs

/-- The IPv6 packet of a tunnel port around a frame (R173): DSCP by lane, next header 17, hop limit 64. The flow label and the
ECN bits, which the spec does not give, are 0 (notes/assumptions/157). -/
def State.datagram (s : State) (p : Nat) (f : Leat) (bs : List Byte) : List Byte :=
  let src := bytesBE (s.ip6 (R.FAB_P_IP.addr p 0)).toNat 16
  let dst := bytesBE (s.ip6 (R.FAB_P_PEER.addr p 0)).toNat 16
  let udp := s.udpBytes p src dst bs
  bytesBE (6 * 2 ^ 28 + laneDscp f.lane * 2 ^ 22) 4 ++ bytesBE udp.length 2 ++ bytesBE 17 1 ++ bytesBE 64 1 ++ src ++ dst ++ udp

/-- What a port puts on its medium for a frame: an Ethernet frame with its FCS, or a tunnel's packet. -/
def State.wireBytes (s : State) (p : Nat) (f : Leat) (pn : Nat) (cut : Bool) : List Byte :=
  let bs := s.frameBody p f pn
  if s.udp p then s.datagram p f bs else bs ++ fcsBytes cut bs

end Sys2Proof.Machine
end

