-- ==== Sys2Proof/Machine/FabTx.lean ====
section
/-!
DEFINITION. The egress side of a fabric port (R165, R174, R190, R192): what goes on the wire, which lane is served next, and
the fabric's and the ports' enable checks (R203).
-/

namespace Sys2Proof.Machine

/-- The transmit PN is exhausted (R165, Table 5-9): UP to KEYING. -/
def State.pnExhausted (s : State) (p : Nat) : State := ((s.leaveUp p adjKeying true).dropSa p).keying p

/-- A datagram's length for a frame in a tunnel (R174). -/
def datagramBytes (f : Leat) : Nat := 40 + 8 + 22 + 28 + f.payload.length + 16

/-- Frames that a port sends under its transmit SA take packet numbers (R165). -/
def State.spendPn (s : State) (p n : Nat) : State :=
  let x := s.port p
  let s := s.setPort p { x with txPn := x.txPn + n, trafficAt := some s.now }
  if x.txPn + n < 0xFFFFFFFF then s else s.pnExhausted p

/-- A frame put on the medium of a port (R158, R165, R167, R173): KEYX unprotected, every other frame under the transmit SA with
the next PN; a datagram above the MTU is not sent (R174). A frame that is `cut` off ends with a complemented FCS (R171). -/
def State.putOnWire (s : State) (p : Nat) (f : Leat) (cut : Bool := false) : State :=
  if s.udp p && s.rd (R.FAB_P_UDP.MTU p) < datagramBytes f then s.bump (R.FAB_P_CNT_MISC.COUNT p)
  else
    let bytes := s.wireBytes p f ((s.port p).txPn + 1) cut
    let s := s.bump (R.FAB_P_CNT_TXFRM.COUNT p)
    let s : State := { s with fab := { s.fab with lastTx := SMap.set (fun _ => none) s.fab.lastTx p (some f)
                                                  lastWire := SMap.set (fun _ => []) s.fab.lastWire p bytes } }
    s.spendPn p (if f.typ = tyKeyx then 0 else 1)

/-- A frame that the port can send now: KEYX, or any frame under a transmit SA. -/
def State.sendable (s : State) (p : Nat) (f : Leat) : Bool := f.typ == tyKeyx || (s.port p).tx.isSome

/-- The frame of the CONTROL lane that goes first: CP before the rest (Table 5-14). -/
def ctlNext (q : List FabQueued) : Option (FabQueued × List FabQueued) :=
  match takeFirst (fun x => x.frame.cp) q with
  | some r => some r
  | none => takeFirst (fun _ => true) q

/-- Weight of a lane (Table 5-20). -/
def State.laneShare (s : State) (p : Nat) : Nat → Nat
  | 1 => s.rd (R.FAB_P_SHARE.CYC p)
  | 2 => s.rd (R.FAB_P_SHARE.EVT p)
  | _ => s.rd (R.FAB_P_SHARE.BULK p)

def State.deficit (s : State) (p l : Nat) : Nat := SMap.get (fun _ => 0) s.fab.deficit (4 * p + l)

def State.setDeficit (s : State) (p l d : Nat) : State :=
  { s with fab := { s.fab with deficit := SMap.set (fun _ => 0) s.fab.deficit (4 * p + l) d } }

/-- One turn of deficit round robin (R190): the lane in turn sends while its deficit covers the head, else the next lane
comes with its quantum added; `n` bounds the search. -/
def State.drrTurn (s : State) (p : Nat) : Nat → State
  | 0 => s
  | n + 1 =>
    let l := max 1 (SMap.get (fun _ => 1) s.fab.drrLane p)
    match s.lane p l with
    | x :: rest =>
      if frameBytes x.frame ≤ s.deficit p l then
        ((s.setDeficit p l (s.deficit p l - frameBytes x.frame)).setLane p l rest).putOnWire p x.frame
      else (nextLane s p l).drrTurn p n
    | [] => (nextLane (s.setDeficit p l 0) p l).drrTurn p n
where
  /-- The lane after l in turn, its quantum added. -/
  nextLane (s : State) (p l : Nat) : State :=
    let l' := if l = 3 then 1 else l + 1
    let s := { s with fab := { s.fab with drrLane := SMap.set (fun _ => 1) s.fab.drrLane p l' } }
    s.setDeficit p l' (s.deficit p l' + 64 * s.laneShare p l')

/-- One frame of a port sent, where one can be (Table 5-14). -/
def State.txPort (s : State) (p : Nat) : State :=
  if !s.portLive p then s
  else
    match ctlNext ((s.lane p 0).filter fun x => s.sendable p x.frame) with
    | some (x, _) =>
      match takeFirst (· == x) (s.lane p 0) with
      | some (_, rest) => (s.setLane p 0 rest).putOnWire p x.frame
      | none => s
    | none =>
      if (s.port p).tx.isNone || (s.lane p 1 ++ s.lane p 2 ++ s.lane p 3).isEmpty then s else s.drrTurn p 200

/-! Enable (R203). -/

/-- FCAUSE of FAB_STAT (Table 5-18), none where the checks pass. -/
def State.fabFault (s : State) : Option Nat :=
  let et := s.rd R.FAB_ETYPE.ETYPE
  let slot := SMap.get (fun _ => ({} : KeySlot)) s.key.slots (s.rd R.FAB_SEC.KSLOT)
  if !inGeneral (s.lsaAddr 0) 0x40000 then some 1
  else if et < 0x600 || [0x0800, 0x8100, 0x86DD, 0x88A8, 0x88E5, 0x88F7].contains et then some 2
  else if slot.kind = 0 || slot.purpose != 4 then some 3
  else if s.on UnitId.fab.MODE && s.ringBad .fab then some 5
  else none

/-- The module's node number as RUN is entered: configured, or to be claimed (R179). -/
def State.nodeStart (s : State) : State :=
  let cfg := s.rd R.FAB_NODE.CFG
  if cfg = 0 then s.wr R.FAB_NODE.NSTATE nsClaiming
  else
    let s := ((s.wr R.FAB_NODE.ACT cfg).wr R.FAB_NODE.NSTATE nsAssigned).raise R.FAB_INTSTAT.NODEOK
    (s.event 0x0503 (subj := cfg)).originate cfg lsAssigned

/-- A port whose link is up and whose adjacency is DOWN starts keying (Table 5-9). -/
def State.portAgain (s : State) (p : Nat) : State :=
  if s.portLive p && s.rd (fADJ p) == adjDown && s.running .fab then s.keying p else s

/-- The fabric enters RUN from OFF: its node, and keying on the links that are up. -/
def State.fabStart (s : State) : State :=
  let s := { s with fab := { s.fab with enAt := s.now, exchanged := false, tentativeAt := none, ownFlooded := false
                                        routes := [], computing := none, dirtyAt := none, ptp := {} } }
  ((s.wr R.FAB_PTP_STAT.SLAVE 7).wr R.FAB_PTP_STAT.STATE 0).nodeStart.each (List.range 4) State.portAgain

/-- The fabric enters RUN again from DRAIN: its tables stand, and the LSA it withdrew is flooded anew. -/
def State.fabAgain (s : State) : State :=
  if s.rd R.FAB_NODE.ACT ≠ 0 then s.originate (s.rd R.FAB_NODE.ACT) lsAssigned
  else if s.rd R.FAB_NODE.NSTATE = nsClaiming then
    { s with fab := { s.fab with enAt := s.now, tentativeAt := none } }
  else s

/-- EN cleared: WITHDRAWN flooded for the own LSA (R203). -/
def State.fabDrain (s : State) : State :=
  if s.rd R.FAB_NODE.ACT ≠ 0 then s.originate (s.rd R.FAB_NODE.ACT) lsWithdrawn
  else if s.fab.tentativeAt.isSome then s.originate s.fab.candidate lsWithdrawn
  else s

/-- The flood of WITHDRAWN has left: no LSA waits at a port that can send it. A frame is on the medium at one instant, so no
other unit of work is in hand (R36, R203). -/
def State.fabDrained (s : State) : Bool :=
  (List.range 4).all fun p => !(s.portLive p && (s.port p).tx.isSome) || (s.lane p 0).all fun x => x.frame.typ != tyLsa

/-- OFF: routes, database entries and QUENCH rules are lost (R194, R203), the adjacencies with the control plane, and the
frames still queued, which count as dropped. -/
def State.fabOff (s : State) : State :=
  let lost := reached s.fab.routes
  let s := s.each (s.fab.lsdb.map (·.1)) fun s n => (s.setLsa n none).showLsa n
  let s := s.each (List.range 4) fun s p => ((s.wr (fADJ p) adjDown).dropSa p).dropQueues p
  let s : State := { s with fab := { s.fab with routes := [], lsdb := [], rules := [], resend := [], computing := none
                                                dirtyAt := none, tentativeAt := none, ownFlooded := false, ptp := {} } }
  let s := (s.wr R.FAB_PTP_STAT.SLAVE 7).wr R.FAB_PTP_STAT.STATE 0
  ((s.wr R.FAB_NODE.ACT 0).wr R.FAB_NODE.NSTATE nsUnassigned).spfBusy.fabUnreach.producersLost lost

/-- A fault discards the frames in flight (R203). -/
def State.fabXbar (s : State) : State :=
  State.spfBusy { s with fab := { s.fab with queues := [], txWait := [], computing := none } }

/-- An address R175 reserves: unspecified, multicast, link-local. -/
def badIp (x : BitVec 128) : Bool :=
  x == 0 || x.toNat / 2 ^ 120 == 0xFF || x.toNat / 2 ^ 118 == 0x3FA

/-- FCAUSE of a port (Table 5-20). -/
def State.portFault (s : State) (p : Nat) : Option Nat :=
  let m := s.rd (R.FAB_P_CTRL.MEDIA p)
  if m = 3 || (2 ≤ p && m != 0) then some 1
  else if m = mediaUdp && (badIp (s.ip6 (R.FAB_P_IP.addr p 0)) || badIp (s.ip6 (R.FAB_P_PEER.addr p 0))) then some 2
  else if m = mediaUdp && s.rd (R.FAB_P_UDP.MTU p) < 1280 then some 3
  else none

/-- A port's EN written 0, or its link down (Table 5-9): the adjacency goes DOWN, preemption ends. -/
def State.portStop (s : State) (p : Nat) : State := (s.portDown p).clear (R.FAB_P_STAT.PREEMPT_ACT p)

/-- A port reaches OFF, or its link goes down (R172). -/
def State.portOff (s : State) (p : Nat) : State :=
  (((s.portStop p).dropQueues p).clear (R.FAB_P_STAT.LINK p)).wr (R.FAB_P_STAT.SPEED p) 0

/-- A port enters RUN: a tunnel asks for the link address of its gateway, or of its on-link peer (R175). -/
def State.portStart (s : State) (p : Nat) : State :=
  if s.udp p then
    let gw := s.ip6 (R.FAB_P_GW.addr p 0)
    let target := if gw = 0 then s.ip6 (R.FAB_P_PEER.addr p 0) else gw
    { s with fab := { s.fab with solicits := SMap.set (fun _ => 0#128) s.fab.solicits p target } }
  else s

end Sys2Proof.Machine
end

