-- ==== Sys2Proof/Machine/F32.lean ====
section
/-!
DEFINITION. IEEE 754 binary32 (FLOAT32), computed exactly and rounded once: the arithmetic of the loop engine (R249), of
conversions and of published values. A finite value is an integer multiple of 2^-149.
-/

namespace Sys2Proof.Machine

def F32.expo (x : Word) : Nat := getField x 23 8
def F32.frac (x : Word) : Nat := getField x 0 23
def F32.neg (x : Word) : Bool := x.getLsbD 31
def F32.isNaN (x : Word) : Bool := F32.expo x == 255 && F32.frac x != 0
def F32.isInf (x : Word) : Bool := F32.expo x == 255 && F32.frac x == 0
def F32.finite (x : Word) : Bool := F32.expo x != 255

/-- The quiet NaN that an invalid operation gives; its payload is no value the spec states. -/
def F32.nan : Word := 0x7FC00000#32

/-- Infinity with a sign. -/
def F32.inf (neg : Bool) : Word := if neg then 0xFF800000#32 else 0x7F800000#32

/-- Zero with a sign. -/
def F32.zero (neg : Bool) : Word := if neg then 0x80000000#32 else 0#32

/-- The magnitude of a finite value as a multiple of 2^-149. -/
def F32.mag (x : Word) : Nat :=
  if F32.expo x = 0 then F32.frac x else (2 ^ 23 + F32.frac x) * 2 ^ (F32.expo x - 1)

/-- A finite value as a multiple of 2^-149. -/
def F32.scaled (x : Word) : Int := if F32.neg x then -(F32.mag x : Int) else (F32.mag x : Int)

/-- Whether a quotient q with remainder r of d is rounded up in magnitude: to nearest, ties to even, or in a given
direction. -/
def F32.roundsUp (dir : Option Bool) (q r d : Nat) : Bool :=
  match dir with
  | none => d < 2 * r || (2 * r == d && q % 2 == 1)
  | some up => r != 0 && up

/-- The binary32 of ± n / d (d not 0): to nearest, ties to even, or to the neighbour that `dir` names; an overflow gives
infinity. -/
def F32.ofRatio (dir : Option Bool) (neg : Bool) (n d : Nat) : Word :=
  if n = 0 then F32.zero neg
  else
    let g : Int := (Nat.log2 n : Int) - (Nat.log2 d : Int)
    let fits := if 0 ≤ g then d * 2 ^ g.toNat ≤ n else d ≤ n * 2 ^ (-g).toNat
    let e := if fits then g else g - 1
    let k := max e (-126) - 23
    let num := if 0 ≤ k then n else n * 2 ^ (-k).toNat
    let den := if 0 ≤ k then d * 2 ^ k.toNat else d
    let q := num / den + (F32.roundsUp dir (num / den) (num % den) den).toNat
    BitVec.ofNat 32 (min ((k + 149).toNat * 2 ^ 23 + q) 0x7F800000 + (if neg then 2 ^ 31 else 0))

/-- The nearest binary32 of an integer. -/
def F32.ofInt (z : Int) : Word := F32.ofRatio none (z < 0) z.natAbs 1

/-! Arithmetic, to nearest. An invalid operation gives a NaN, which no rule stores. -/

def F32.minus (x : Word) : Word := x ^^^ 0x80000000#32

def F32.add (x y : Word) : Word :=
  if F32.isNaN x || F32.isNaN y then F32.nan
  else if F32.isInf x then (if F32.isInf y && F32.neg x != F32.neg y then F32.nan else x)
  else if F32.isInf y then y
  else
    let z := F32.scaled x + F32.scaled y
    if z = 0 then F32.zero (F32.neg x && F32.neg y) else F32.ofRatio none (z < 0) z.natAbs (2 ^ 149)

def F32.sub (x y : Word) : Word := F32.add x (F32.minus y)

def F32.mul (x y : Word) : Word :=
  let sg := F32.neg x != F32.neg y
  if F32.isNaN x || F32.isNaN y then F32.nan
  else if F32.isInf x || F32.isInf y then
    (if (F32.finite x && F32.mag x == 0) || (F32.finite y && F32.mag y == 0) then F32.nan else F32.inf sg)
  else F32.ofRatio none sg (F32.mag x * F32.mag y) (2 ^ 298)

def F32.div (x y : Word) : Word :=
  let sg := F32.neg x != F32.neg y
  if F32.isNaN x || F32.isNaN y || (F32.isInf x && F32.isInf y) then F32.nan
  else if F32.isInf x then F32.inf sg
  else if F32.isInf y then F32.zero sg
  else if F32.mag y = 0 then (if F32.mag x = 0 then F32.nan else F32.inf sg)
  else F32.ofRatio none sg (F32.mag x) (F32.mag y)

/-- The order of values that are no NaN. -/
def F32.key (x : Word) : Int := if F32.isInf x then (if F32.neg x then -(2 ^ 300) else 2 ^ 300) else F32.scaled x

def F32.lt (x y : Word) : Bool := !F32.isNaN x && !F32.isNaN y && decide (F32.key x < F32.key y)

/-- x kept within lo and hi. -/
def F32.clamp (x lo hi : Word) : Word := if F32.lt x lo then lo else if F32.lt hi x then hi else x

/-! Conversions. -/

/-- The nearest integer of a finite value, ties to even. -/
def F32.round (x : Word) : Int :=
  let m := F32.mag x
  let d := 2 ^ 149
  let q := m / d + (F32.roundsUp none (m / d) (m % d) d).toNat
  if F32.neg x then -(q : Int) else q

/-- The nearest binary32 of a binary64. -/
def F32.ofDouble (x : Word64) : Word :=
  let e := x.toNat / 2 ^ 52 % 2 ^ 11
  let f := x.toNat % 2 ^ 52
  let sg := x.getLsbD 63
  if e = 2047 then (if f = 0 then F32.inf sg else F32.nan)
  else
    let m := if e = 0 then f else 2 ^ 52 + f
    F32.ofRatio none sg (m * 2 ^ (e - 1)) (2 ^ 1074)

/-- The binary64 of a finite value. -/
def F32.toDouble (x : Word) : Word64 :=
  let m := F32.mag x
  let sg : Nat := if F32.neg x then 2 ^ 63 else 0
  if m = 0 then BitVec.ofNat 64 sg
  else
    let l := Nat.log2 m
    let f := if l ≤ 52 then m * 2 ^ (52 - l) else m / 2 ^ (l - 52)
    BitVec.ofNat 64 (sg + (l + 874) * 2 ^ 52 + (f - 2 ^ 52))

/-- The nearest binary32 of a rational, or the neighbour that `dir` names. -/
def F32.ofRat (dir : Option Bool) (q : Rat) : Word := F32.ofRatio dir (q < 0) q.num.natAbs q.den

/-- The root of a rational at or above 0, to 128 fractional bits, rounded down. -/
def ratSqrt (q : Rat) : Rat := (Nat.sqrt (q.num.natAbs * q.den * 2 ^ 256) : Rat) / (q.den * 2 ^ 128)

/-- A finite value as a rational. -/
def F32.toRat (x : Word) : Rat := (F32.scaled x : Rat) / 2 ^ 149

/-- 1 and 10^-6. -/
def F32.one : Word := 0x3F800000#32
def F32.millionth : Word := F32.ofRatio none false 1 1000000

end Sys2Proof.Machine
end

