-- ==== Sys2Proof/Machine/DioOps.lean ====
section
/-!
DEFINITION. The outputs' value registers and field sides (R312 to R321, R334 to R336), the reflex actions (R322 to R328), the
inputs' changes with their counters (R304 to R311) and the analog conversions (R331 to R333).
-/

namespace Sys2Proof

/-! An output's registers. -/

/-- The default before any configuration (R317): high impedance for DO0 to DO7, OFF, 0 V. -/
def OutCh.defaultLevel : OutCh → Option Nat
  | .digital c => if c < 8 then none else some 0
  | .analog _ => some 0

/-- The off state after a trip (R315): high impedance of a push-pull output, an open high-side switch. -/
def OutCh.tripped (o : OutCh) : Option Nat := o.defaultLevel

end Sys2Proof

namespace Sys2Proof.Machine

/-- The digital outputs, the analog outputs. -/
def digitalOuts : List OutCh := (List.range 24).map .digital
def analogOuts : List OutCh := (List.range 8).map .analog

/-- The outputs of a block: DIO's or AIO's. -/
def blockOuts (analog : Bool) : List OutCh := if analog then analogOuts else digitalOuts

/-- The registers that DIO and AIO have alike. -/
def fOUTEN (analog : Bool) : Fld := if analog then R.AIO_CTRL.OUTEN else R.DIO_CTRL.OUTEN
def fAUTORES (analog : Bool) : Fld := if analog then R.AIO_CTRL.AUTORES else R.DIO_CTRL.AUTORES
def fOUTACT (analog : Bool) : Fld := if analog then R.AIO_STAT.OUTACT else R.DIO_STAT.OUTACT

/-- FSTATE (R317). -/
def fsNosupply : Nat := 0
def fsDefault : Nat := 1
def fsSafe : Nat := 2
def fsLive : Nat := 3

def State.out (s : State) (o : OutCh) : OutX := SMap.get (fun _ => {}) s.dio.outs o.key

def State.setOutX (s : State) (o : OutCh) (x : OutX) : State :=
  { s with dio := { s.dio with outs := SMap.set (fun _ => {}) s.dio.outs o.key x } }

/-- V of a digital output, the code register of an analog one (R314, R336). -/
def State.outVal (s : State) : OutCh → Nat
  | .digital c => (s.bit R.DIO_DO_VAL.V c).toNat
  | .analog c => s.rd (R.AIO_AO_CODE.CODE c)

/-- The held level (R316). -/
def State.heldLevel (s : State) (o : OutCh) : Option Nat :=
  match (s.out o).held with
  | some v => some v
  | none => o.defaultLevel

/-- The programmed safe level, as the field side holds it (R316, R335). -/
def State.safeLevel (s : State) (o : OutCh) : Option Nat :=
  let x := s.out o
  match o with
  | .digital c => if x.safe = 2 then s.heldLevel o else if x.safe = 3 ∧ c < 8 then none else some (x.safe % 2)
  | .analog _ => if x.safe = 1 then s.heldLevel o else if x.safe = 2 then some x.safeCode else some 0

/-- The level that the field-side state calls for (R315, Table 9-3). -/
def State.calledLevel (s : State) (o : OutCh) : Option Nat :=
  let f := s.rd o.FSTATE
  if f = fsLive then (s.out o).held
  else if f = fsSafe then s.safeLevel o
  else if f = fsDefault then o.defaultLevel
  else none

/-- The terminal driven to what the field side calls for, off while tripped; the return lane reports it. What the lane
reports of a terminal in high impedance or without supply is free (notes/assumptions/30). -/
def State.drive (s : State) (o : OutCh) : State :=
  let lvl := if !o.isAnalog && s.on o.OC && s.rd o.FSTATE != fsNosupply then o.tripped else s.calledLevel o
  let s := s.setOutX o { s.out o with level := lvl }
  match o with
  | .analog _ => s
  | .digital c =>
    match lvl with
    | some v => s.setBit R.DIO_DO_PIN.PIN c (v % 2 == 1)
    | none => (s.setBit R.DIO_DO_PIN.PIN c (Config.freeBit s.fresh)).taken

/-- FSTATE set; AIO_STAT.AONLIVE follows (Table 9-13). -/
def State.setFst (s : State) (o : OutCh) (v : Nat) : State :=
  let s := s.wr o.FSTATE v
  match o with
  | .digital _ => s
  | .analog c => s.setBit R.AIO_STAT.AONLIVE c (v != fsLive)

/-- The present value sent on the value lane: a LIVE output applies and holds it (Table 9-3). -/
def State.applyVal (s : State) (o : OutCh) : State :=
  let lane := if o.isAnalog then s.dio.laneA else s.dio.lane
  if lane && s.rd o.FSTATE == fsLive then
    (s.setOutX o { s.out o with held := some (s.outVal o) }).drive o
  else s

/-- A configuration frame received (Table 9-3): DEFAULT to SAFE, and with the frames of OUTEN LIVE to SAFE too. -/
def State.cfgFrame (s : State) (o : OutCh) (outen : Bool) : State :=
  let f := s.rd o.FSTATE
  if f = fsNosupply then s
  else
    let x := { s.out o with hasCfg := true }
    let x := match o with
      | .digital c => { x with tmo := s.rd (R.DIO_DO_CFG.TMO c), safe := s.rd (R.DIO_DO_CFG.SAFE c) }
      | .analog c => { x with tmo := s.rd (R.AIO_AO_CFG.TMO c), safe := s.rd (R.AIO_AO_CFG.SAFE c)
                              safeCode := s.rd (R.AIO_AO_SAFECODE.CODE c) }
    let s := s.setOutX o x
    if f = fsLive ∧ !outen then s else (s.setFst o fsSafe).drive o

/-- A RESUME received with the keep-alive running (Table 9-3): it carries the present value (R318). -/
def State.resume (s : State) (o : OutCh) : State :=
  let f := s.rd o.FSTATE
  if s.on (fOUTACT o.isAnalog) && (f == fsSafe || f == fsLive) then
    ((s.setFst o fsLive).setOutX o { s.out o with held := some (s.outVal o) }).drive o
  else s

/-- The last keep-alive toggle: the silence timing that it begins has the TMO of now (R316, Table 9-3). -/
def OutX.lastToggle (x : OutX) (now : Nat) : OutX := { x with toggleAt := now, timing := x.tmo }

/-- The keep-alive runs while OUTEN = 1 and KASTOP = 0 (R319): OUTACT follows; where it stops, the last toggle is now
(Table 9-4). -/
def State.kaUpdate1 (s : State) (analog : Bool) : State :=
  let run := s.on (fOUTEN analog) && !s.on R.DIO_STAT.KASTOP
  let s := if s.on (fOUTACT analog) && !run then
      s.each (blockOuts analog) fun s o => s.setOutX o ((s.out o).lastToggle s.now) else s
  s.wrb (fOUTACT analog) run

def State.kaUpdate (s : State) : State := (s.kaUpdate1 false).kaUpdate1 true

/-- Brake suspends the kick supervisor (R320). -/
def State.kaSuspend (s : State) : State := s.raise R.DIO_STAT.KASUSP

/-- Supervision restarts with a full KICK_MS (R320). -/
def State.kaUnsuspend (s : State) : State :=
  let s := s.clear R.DIO_STAT.KASUSP
  { s with dio := { s.dio with kickFrom := s.now } }

/-- A RESUME of every output of a block (RESUMEALL). -/
def State.resumeAll (s : State) (analog : Bool) : State := s.each (blockOuts analog) fun s o => s.resume o

/-! V and its writers. -/

def State.pulse (s : State) (c : Nat) : Option Nat := SMap.get (fun _ => none) s.dio.pulses c

def State.setPulse (s : State) (c : Nat) (t : Option Nat) : State :=
  { s with dio := { s.dio with pulses := SMap.set (fun _ => none) s.dio.pulses c t } }

/-- The IO cycle's record of the matrix. -/
def State.rfxCycle (s : State) : RfxCycle :=
  if s.dio.rfx.cycle = s.ioCycle then s.dio.rfx else { cycle := s.ioCycle, before := s.rd R.DIO_DO_VAL.V }

def State.setRfxCycle (s : State) (y : RfxCycle) : State := { s with dio := { s.dio with rfx := y } }

/-- A number with one bit replaced. -/
def withBit (n i : Nat) (b : Bool) : Nat := if n.testBit i == b then n else n ^^^ 2 ^ i

/-- V of a digital output written: a pulse on it ends (R314, R324). -/
def State.writeV (s : State) (c : Nat) (b : Bool) : State :=
  ((s.setBit R.DIO_DO_VAL.V c b).setPulse c none).applyVal (.digital c)

/-- An analog code latched (R334). -/
def State.writeCode (s : State) (c v : Nat) : State := (s.wr (R.AIO_AO_CODE.CODE c) v).applyVal (.analog c)

/-- A code from the commit batch (source 0) or from the loop engine (source 1): latched where SRC names that source, else
discarded and counted (R336). -/
def State.aoWrite (s : State) (c v src : Nat) : State :=
  if s.rd (R.AIO_AO_CFG.SRC c) = src then s.writeCode c v
  else (s.bump R.AIO_CNT_SRCREJ.COUNT).raise R.AIO_INTSTAT.SRCREJ

/-! The reflex matrix. -/

/-- A rule's fields (Table 9-5). -/
def State.rfx (s : State) (r lo w : Nat) : Nat := getField (s.reg (R.DIO_RFX_CFG0.addr r)) lo w
def State.rfxTrig (s : State) (r : Nat) : Nat := s.rfx r 0 3
def State.rfxEdge (s : State) (r : Nat) : Nat := s.rfx r 3 2
def State.rfxTgt (s : State) (r : Nat) : Nat := s.rfx r 12 3
def State.rfxAct (s : State) (r : Nat) : Nat := s.rfx r 15 3
def State.rfxPw (s : State) (r : Nat) : Nat := getField (s.reg (R.DIO_RFX_CFG1.addr r)) 0 16

def actPulse : Nat := 3
def actFollow : Nat := 4
def actFollowInv : Nat := 5

/-- The state of an input (R305). -/
def State.di (s : State) (k : Nat) : Bool := s.bit R.DIO_DI_STATE.STATE k

/-- The qualifier holds (R322). -/
def State.rfxQual (s : State) (r : Nat) : Bool :=
  s.rfx r 5 1 == 0 || s.di (s.rfx r 6 5) == (s.rfx r 11 1 == 0)

def State.rfxArmed (s : State) (r : Nat) : Bool := s.bit (R.DIO_RFX_ARM.ARM (r / 32)) (r % 32)

/-- A rule's action on V of its target (R324): `lvl` the trigger's level, `old` V without it. -/
def State.rfxAction (s : State) (r : Nat) (lvl old : Bool) : State :=
  let t := s.rfxTgt r
  match s.rfxAct r with
  | 0 => s.writeV t true
  | 1 => s.writeV t false
  | 2 => s.writeV t !old
  | 3 => (s.writeV t true).setPulse t (some (s.now + 10 * s.rfxPw r))
  | 4 => s.writeV t lvl
  | 5 => s.writeV t !lvl
  | _ => s

/-- The rules that act on a target in the cycle, the lowest first: those that fired, and the FOLLOW rules that became active
and whose qualifier holds (R324, R327). -/
def State.rfxOn (s : State) (y : RfxCycle) (t : Nat) : List Nat :=
  below 64 fun r => s.rfxTgt r == t && (y.fired.contains r || (y.active.contains r && s.rfxQual r))

/-- The IO cycle's rules act (R326, R327): on each target the lowest-numbered, the others counted; on a forced target all are
counted. What has already acted in the cycle and still stands acts once. -/
def State.rfxSettle (s : State) : State :=
  let y := s.rfxCycle
  let winner := fun t =>
    if s.bit R.DIO_DO_FMASK.FMASK t then none else (s.rfxOn y t).head?.map fun r => (t, r, s.di (s.rfxTrig r))
  let acts := (List.range 8).filterMap winner
  let sup := ((List.range 8).map fun t => (s.rfxOn y t).length - (if (winner t).isSome then 1 else 0)).sum
  let s1 := s.each (acts.filter fun x => !y.acts.contains x) fun s (t, r, lvl) => s.rfxAction r lvl (y.before.testBit t)
  let gone := y.acts.filter fun (t, _) => (winner t).isNone && !s.bit R.DIO_DO_FMASK.FMASK t
  let s1 := s1.each gone fun s (t, _) => s.writeV t (y.before.testBit t)
  (s1.bumpBy R.DIO_CNT_RFXSUP.COUNT (sup - y.sup)).setRfxCycle { y with acts := acts, sup := max sup y.sup }

/-- V written by another writer in a cycle in which the matrix may have acted. -/
def State.otherV (s : State) (c : Nat) (b : Bool) : State :=
  let y := s.rfxCycle
  (s.writeV c b).setRfxCycle { y with before := withBit y.before c b, acts := y.acts.filter (·.1 != c) }

/-- A commit's batch (R97): locked outputs keep V, the commit counted once (R325). A reflex action of the same IO cycle stands, and a lock of its firing
acts from the next commit (R328). -/
def State.ioBatch (s : State) (dos : List (Nat × Bool)) (aos : List (Nat × Nat)) : State :=
  let held := fun c => c < 8 && s.bit R.DIO_DO_LOCK.LOCK c && !s.rfxCycle.locks.contains c
  let s1 := s.each dos fun s (c, b) => if held c then s else s.otherV c b
  let s1 := s1.rfxSettle
  let s2 := if dos.any fun (c, _) => held c then
      (s1.bump R.DIO_CNT_CMTLOCK.COUNT).raise R.DIO_INTSTAT.CMTLOCK else s1
  s2.each aos fun s (c, v) => s.aoWrite c v 0

/-- The image unit forces an output or ends its force (R115, R116); the value, where there is one, is written. -/
def State.ioForce (s : State) (o : OutCh) (forced : Bool) (v : Option Nat) : State :=
  match o with
  | .digital c =>
    let s := s.setBit R.DIO_DO_FMASK.FMASK c forced
    match v with
    | some n => s.otherV c (n % 2 == 1)
    | none => s
  | .analog c =>
    let s := s.wrb (R.AIO_AO_STAT.FORCED c) forced
    match v with
    | some n => s.writeCode c (n % 65536)
    | none => s

/-- What a firing marks besides its action (R322, R325, Table 9-5): FIRED, ONESHOT, LOCK, IRQ. -/
def State.rfxMark (s : State) (r : Nat) : State :=
  let s := s.setBit (R.DIO_RFX_FIRED.FIRED (r / 32)) (r % 32) true
  let s := if s.rfx r 18 1 = 1 then s.setBit (R.DIO_RFX_ARM.ARM (r / 32)) (r % 32) false else s
  let t := s.rfxTgt r
  let s := if s.rfx r 19 1 = 1 ∧ !s.bit R.DIO_DO_LOCK.LOCK t then
      let y := s.rfxCycle
      (s.setRfxCycle { y with locks := t :: y.locks }).setBit R.DIO_DO_LOCK.LOCK t true
    else s
  if s.rfx r 20 1 = 1 then
    let s := s.raise R.DIO_INTSTAT.RFXFIRE
    if dueAgain (SMap.get (fun _ => none) s.dio.rfxAt r) s.now sec then
      let s := { s with dio := { s.dio with rfxAt := SMap.set (fun _ => none) s.dio.rfxAt r (some s.now) } }
      s.event 0x0905 (unit := r)
    else s
  else s

/-- Rules that become active: the FOLLOW rules among them write their trigger's level where the qualifier holds (R324). -/
def State.rfxActivate (s : State) (rs : List Nat) : State :=
  if s.on R.DIO_CTRL.RFXEN then
    let y := s.rfxCycle
    (s.setRfxCycle { y with
      active := y.active ++ rs.filter fun r => s.rfxAct r == actFollow || s.rfxAct r == actFollowInv }).rfxSettle
  else s

/-- The arming of all rules as a number. -/
def State.rfxArms (s : State) : Nat := s.rd (R.DIO_RFX_ARM.ARM 0) + 2 ^ 32 * s.rd (R.DIO_RFX_ARM.ARM 1)

/-- An ARM or DISARM write: the matrix keeps the arming it had for the rest of the IO cycle (R329). -/
def State.rfxNoteArms (s : State) : State :=
  let y := s.rfxCycle
  s.setRfxCycle { y with arms := some (y.arms.getD s.rfxArms) }

/-- The armed rules whose trigger shows the edge that EDGE selects and whose qualifier holds; `old` the states in the cycle
before (R322, R329). -/
def State.rfxFire (s : State) (old : Nat) : State :=
  if s.on R.DIO_CTRL.RFXEN then
    let y := s.rfxCycle
    let arms := y.arms.getD s.rfxArms
    let rs := below 64 fun r =>
      let t := s.rfxTrig r
      arms.testBit r && s.di t != old.testBit t &&
        (s.rfxEdge r == 2 || s.rfxEdge r == (if s.di t then 0 else 1)) && s.rfxQual r
    (s.setRfxCycle { y with fired := y.fired ++ rs }).rfxSettle.each rs fun s r => s.rfxMark r
  else s

/-! Counters (R308 to R311). -/

def cntOff : Nat := 0
def cntCount : Nat := 1
def cntQuad : Nat := 2

def State.setCnt (s : State) (k : Nat) (x : CntX) : State :=
  { s with dio := { s.dio with cnts := SMap.set (fun _ => {}) s.dio.cnts k x } }

/-- A counter counted once, up or down, modulo 2^32 (R308). -/
def State.countOne (s : State) (k : Nat) (up : Bool) : State :=
  let v := s.rd (R.DIO_CNT_VAL.VAL k)
  let wraps := if up then v == 2 ^ 32 - 1 else v == 0
  let s := s.setCnt k { s.cnt k with step := some (s.ioCycle, up) }
  let s := s.wr (R.DIO_CNT_VAL.VAL k) (if up then v + 1 else v + 2 ^ 32 - 1)
  if wraps then (s.raise (R.DIO_CNT_STAT.WRAP k)).raise R.DIO_INTSTAT.CNTWRAP else s

/-- A counter set by CLEAR or LOAD: before an edge counted in the same IO cycle (R311). -/
def State.setCount (s : State) (k v : Nat) : State :=
  let s := s.wr (R.DIO_CNT_VAL.VAL k) v
  match (s.cnt k).step with
  | some (c, up) => if c = s.ioCycle then s.countOne k up else s
  | none => s

/-- A rising edge for the frequency measurement (R310); edge times are resolved to 10 ns. -/
def State.freqEdge (s : State) (k : Nat) : State :=
  let x := { s.cnt k with seen := true }
  let t := s.now / 10 * 10
  match x.refEdge with
  | none => s.setCnt k { x with refEdge := some t, lastEdge := t, n := 0 }
  | some _ => s.setCnt k { x with lastEdge := t, n := x.n + 1 }

/-- A pair in QUAD (R309): A leading B counts up; both at once is illegal. -/
def State.quad (s : State) (k : Nat) (old : Nat) : State :=
  let a := s.di k
  let b := s.di (k + 1)
  let ca := a != old.testBit k
  let cb := b != old.testBit (k + 1)
  if ca && cb then
    let s := (s.bump (R.DIO_CNT_ERR.COUNT k)).raise R.DIO_INTSTAT.QERR
    if dueAgain (s.cnt k).qerrAt s.now sec then
      (s.setCnt k { s.cnt k with qerrAt := some s.now }).event 0x0906 (unit := k) else s
  else if ca || cb then
    let lead := if ca then a != b else a == b
    s.countOne k (lead != s.on (R.DIO_CNT_CFG.DIR k))
  else s

/-- One counting input after a change of the states. -/
def State.countInput (s : State) (old : Nat) (k : Nat) : State :=
  let m := s.rd (R.DIO_CNT_CFG.MODE k)
  let lvl := s.di k
  let changed := lvl != old.testBit k
  let s1 :=
    if m = cntQuad then s.quad k old
    else if m = cntCount ∧ changed then
      let e := s.rd (R.DIO_CNT_CFG.EDGE k)
      if e = 2 ∨ e = (if lvl then 0 else 1) then s.countOne k (!s.on (R.DIO_CNT_CFG.DIR k)) else s
    else s
  if m ≠ cntOff ∧ changed ∧ lvl then s1.freqEdge k else s1

/-- New states of the inputs (R305): DIO_DI_EDGE, the counters, the reflex rules. -/
def State.diStates (s : State) (new : Nat) : State :=
  let old := s.rd R.DIO_DI_STATE.STATE
  let s := s.wr R.DIO_DI_STATE.STATE new
  let s := s.wr R.DIO_DI_EDGE.EDGE (s.rd R.DIO_DI_EDGE.EDGE ||| (old ^^^ new))
  (s.each (List.range 8) fun s k => s.countInput old k).rfxFire old

/-- A gate window that gives no value: without an edge it counts towards ZERO (R310). -/
def State.freqQuiet (s : State) (k : Nat) (x : CntX) : State :=
  let z := if x.seen then 0 else x.zero + 1
  if !x.seen && s.rd (R.DIO_CNT_CFG.ZERO k) ≤ z then
    ((s.setCnt k { s.cnt k with zero := z, refEdge := none, n := 0 }).wr (R.DIO_CNT_FREQ.FREQ k) 0).raise
      (R.DIO_CNT_STAT.FZERO k)
  else s.setCnt k { s.cnt k with zero := z }

/-- A gate window ends (R310). A value that does not fit 32 bits, or edges at no distance, cannot arise from the inputs of
Table 9-1: the value is free. -/
def State.freqEnd (s : State) (k : Nat) : State :=
  let x := s.cnt k
  let s := s.setCnt k { x with seen := false, winEnd := s.mtNs }
  if s.rd (R.DIO_CNT_CFG.MODE k) = cntOff then s
  else
    match x.refEdge with
    | some r =>
      if 0 < x.n then
        let d := x.lastEdge - r
        let f := x.n * 10 ^ 12 / d
        let s := s.setCnt k { x with refEdge := some x.lastEdge, n := 0, zero := 0, seen := false, winEnd := s.mtNs }
        let s := if d = 0 ∨ 2 ^ 32 ≤ f then (s.wr (R.DIO_CNT_FREQ.FREQ k) (Config.freeNat s.fresh)).taken
          else s.wr (R.DIO_CNT_FREQ.FREQ k) f
        s.clear (R.DIO_CNT_STAT.FZERO k)
      else s.freqQuiet k x
    | none => s.freqQuiet k x
/-! Analog inputs (R331 to R333). -/

def State.ai (s : State) (ch : Nat) : AiX := SMap.get (fun _ => {}) s.dio.ais ch

def State.setAi (s : State) (ch : Nat) (x : AiX) : State :=
  { s with dio := { s.dio with ais := SMap.set (fun _ => {}) s.dio.ais ch x } }

/-- A conversion's time (R332). -/
def convTime (conv : Nat) : Nat :=
  match conv with
  | 0 => ms
  | 1 => 20 * ms
  | 2 => 16667 * us
  | _ => 100 * ms

/-- R0 (1 + A t + B t² + C (t − 100) t³) below a resistance of code × 1/32 Ω, for t = k × 2^-149 °C: the Callendar–Van
Dusen equation, R0 = 1,000 Ω; C acts below 0 °C only; no temperature of a code lies above 1,000 °C. Both sides are scaled by 10^15 × 2^596 / R0. -/
def cvdBelow (k : Int) (code : Nat) : Bool :=
  let d : Int := 2 ^ 149
  let cubic := if k < 0 then 4183 * (k - 100 * d) * k ^ 3 else 0
  k ≤ 1000 * d && 10 ^ 15 * d ^ 4 + 3908300000000 * k * d ^ 3 - 577500000 * k ^ 2 * d ^ 2 - cubic
    ≤ 31250000000 * code * d ^ 4

/-- The largest magnitude word below 2^n + base at which a test holds, searched bit by bit. -/
def searchBits (p : Nat → Bool) : Nat → Nat → Nat
  | 0, base => base
  | n + 1, base => searchBits p n (if p (base + 2 ^ n) then base + 2 ^ n else base)

/-- ENG of a PT1000 code (R331): one of the two binary32 neighbours of the temperature, `up` which. -/
def engPt (code : Nat) (up : Bool) : Word :=
  if 32000 ≤ code then
    let m := searchBits (fun b => cvdBelow (F32.mag (BitVec.ofNat 32 b)) code) 31 0
    BitVec.ofNat 32 (m + up.toNat)
  else
    let m := searchBits (fun b => !cvdBelow (-(F32.mag (BitVec.ofNat 32 b) : Int)) code) 31 0
    BitVec.ofNat 32 (2 ^ 31 + m + up.toNat)

/-- ENG (R331): the code in the range's unit. How it is rounded to FLOAT32 is open: either neighbour, freely
(notes/assumptions/31); a PT1000 code below −200 °C has no temperature in IEC 60751: free. -/
def engOf (range code fresh : Nat) : Word :=
  let up := Config.freeBit fresh
  match range with
  | 0 => F32.ofRatio (some up) false code 6400
  | 1 => F32.ofRatio (some up) false (3 * code) 8000
  | 2 => if 5927 ≤ code then engPt code up else Config.free32 fresh
  | _ => F32.ofRatio none false (2 * code) 1

/-- The fault code of a conversion (Table 9-7, FCODE): 1 SAT, 2 WIREBRK, 3 SHORT, none without a fault. The code that names a
voltage below −0.1 V, or a current above 21.0 mA, is not stated: free among the three (notes/assumptions/32). -/
def faultOf (range : Nat) (r : AiResult) (wbdis : Bool) (fresh : Nat) : Nat :=
  let open_ := 1 + Config.freeNat fresh % 3
  match range with
  | 0 => if r.code = 65535 then 1 else if r.code = 0 ∧ r.under then open_ else 0
  | 1 => if r.code = 65535 then 1
         else if wbdis then 0 else if r.code < 9600 then 2 else if 56000 < r.code then open_ else 0
  | 2 => if r.code = 65535 then 2 else if r.code < 5920 then 3 else 0
  | _ => if r.code = 65535 then 2 else if r.code < 25 then 3 else 0

/-- What an AI slot carries (R333). -/
structure AiSlot where
  value : Nat
  stat : PStat
  age : Nat
  deriving DecidableEq, Repr

/-- A channel reads BAD: disabled, no conversion completed, or in a fault condition (R333). -/
def State.aiBad (s : State) (ch : Nat) : Bool :=
  !s.on (R.AIO_AI_CFG.EN ch) || !(s.ai ch).done || s.on (R.AIO_AI_DATA.FAULT ch)

def State.aiSlot (s : State) (ch : Nat) : AiSlot :=
  { value := s.rd (R.AIO_AI_DATA.CODE ch) + 2 ^ 16 * s.rd (R.AIO_AI_DATA.RANGE ch) + 2 ^ 32 * s.rd (R.AIO_AI_ENG.ENG ch)
    stat := { q := if s.aiBad ch then qBad else qGood }
    age := match (s.ai ch).endMt with | some t => ageOf s.mtNs t | none => ageNone }

end Sys2Proof.Machine
end

