-- ==== Sys2Proof/Machine/PairOps.lean ====
section
/-!
DEFINITION. The redundant pair's working (ch14): roles, the epoch claim, demotion, the Fantail, what an ACTIVE module mirrors,
the mirror channel, and the handing over of activity.
-/

namespace Sys2Proof

open Machine

/-- A Fantail payload on a path: 0 P4, 1 fabric (Table 14-5). -/
def Fantail.bytes (f : Fantail) (path : Nat) : List Byte :=
  bytesLE (f.role + 8 * f.side.toNat + 16 * f.pref.toNat + 32 * f.ready.toNat + 64 * f.handoff.toNat +
    128 * f.needsync.toNat) 1 ++ bytesLE path 1 ++ bytesLE f.node 2 ++ bytesLE f.snode 2 ++ bytesLE f.beat 2 ++
    bytesLE f.epoch 4 ++ bytesLE f.cfgid 4 ++ bytesLE f.mseq 4 ++ bytesLE f.mt 8 ++ zeros 4

end Sys2Proof

namespace Sys2Proof.Machine

/-! Roles. -/

def State.role (s : State) : Nat := s.rd R.PAIR_STAT.ROLE

/-- PNODE names a partner (Table 14-10). -/
def State.partnerValid (s : State) : Bool := s.rd R.PAIR_CFG.PNODE != 0 && s.rd R.PAIR_CFG.PNODE != 4095

/-- A role entered. -/
def State.setRole (s : State) (r : Nat) : State :=
  let s := if s.role = r then s else s.raise R.PAIR_INTSTAT.ROLECHG
  { s.wr R.PAIR_STAT.ROLE r with pair := { s.pair with since := s.now } }

/-- CFGMIS set: INTSTAT and the event when it was clear (Tables 14-8, 14-12). -/
def State.setCfgmis (s : State) : State :=
  if s.on R.PAIR_STAT.CFGMIS then s
  else ((s.raise R.PAIR_STAT.CFGMIS).raise R.PAIR_INTSTAT.CFGMIS).pairEvent 0x0E09

/-- READY lost and a base copy asked for (R459). -/
def State.needSync (s : State) : State := (s.clear R.PAIR_STAT.READY).raise R.PAIR_STAT.NEEDSYNC

/-- STANDBY entered: a base copy is asked for (Table 14-1). -/
def State.toStandby (s : State) : State :=
  let s := (s.setRole roleStandby).needSync
  { s with pair := { s.pair with rxFrames := [], rxNext := none, rxBase := 0, base := [], queue := []
                                 heardActive := some s.now } }

/-! The epoch claim (R456). -/

/-- The stored epoch. -/
def State.storedEpoch (s : State) : Nat := s.identRec.epoch

/-- E: the largest epoch known. -/
def State.epochSeen (s : State) : Nat :=
  let stations := (List.range 64).map fun n => s.rd (R.IMG_STN_EPOCH.EPOCH n)
  stations.foldl max (max s.storedEpoch ((s.pair.partner.map (·.epoch)).getD 0))

/-- The epoch that a claim takes. -/
def State.nextEpoch (s : State) : Nat :=
  let e := s.epochSeen
  if s.rd R.PAIR_CFG.MODE = 1 then (if (e + 1) % 2 = s.rd R.PAIR_CFG.SIDE then e + 1 else e + 2) else e + 1

/-- A claim: the epoch written to MRAM; refused past the last epoch. -/
def State.claim (s : State) : Bool × State :=
  let e := s.nextEpoch
  if 0xFFFFFFFF < e then (false, s.pairEvent 0x0E0B)
  else (true, (s.putIdentRec { s.identRec with epoch := e }).wr R.PAIR_EPOCH.EPOCH e)

/-! Leaving ACTIVE. -/

/-- EN of a unit written 0 (Table 1-9): `drain` is what the unit does as its drain begins, `off` as it reaches OFF. ENREQ
is the value last written in every state (Table 1-8). -/
def State.disableWith (s : State) (u : UnitId) (drain off : State → State) : State :=
  let st := s.rd u.STATE
  let s := (s.clear u.EN).clear u.ENREQ
  if st = stRun then drain (s.wr u.STATE stDrain)
  else if st = stFault then
    let s := (s.wr u.STATE stOff).clear u.FCAUSE
    off (match u.FARG with | some f => s.clear f | none => s)
  else s

/-- The steps that demotion and a switchover share (R454, R469): the gate closed, the scheduler and the loop engine stopped, the
local outputs' lanes off, every session closed, the alias withdrawn. -/
def State.stepDown (s : State) : State :=
  let s := s.closeGate
  let s := s.disableWith .sch State.schDrain State.schOff
  let s := s.disableWith .loop State.loopDrain id
  let s := ((s.clear (fOUTEN false)).clear (fOUTEN true)).kaUpdate
  let s := s.each (s.gate.sessions.map (·.1)) fun s k => s.freeSess k
  s.aliasLsa false

/-- The role's command ends: RESULT and CMDDONE (R473). -/
def State.pairDone (s : State) (result : Nat) : State :=
  ((s.wr R.PAIR_CMD.RESULT result).clear R.PAIR_CMD.GO).raise R.PAIR_INTSTAT.CMDDONE

def prOk : Nat := 0
def prNotready : Nat := 1
def prRole : Nat := 2

/-- Demotion (Table 14-2). -/
def State.pairDemote (s : State) : State :=
  if s.role ≠ roleActive then s
  else
    let s := (if s.on R.PAIR_STAT.SWPEND then (s.clear R.PAIR_STAT.SWPEND).pairDone prRole else s).stepDown
    let s : State := { s with pair := { s.pair with queue := [], base := [] } }
    ((s.setRole roleDemoted).raise R.PAIR_INTSTAT.DEMOTE).pairEvent 0x0E03

/-- A station refused this module for a higher epoch (Table 14-1, R456). -/
def State.pairOutrej (s : State) (epoch : Nat) : State :=
  if epoch ≤ s.rd R.PAIR_EPOCH.EPOCH then s
  else if s.role = roleActive then (s.raise R.PAIR_INTSTAT.OUTREJHI).pairDemote
  else if s.role = roleSolo ∧ s.gateOpen then
    let r := s.claim
    if r.1 then r.2.pairEvent 0x0E0A else r.2
  else s

/-! P4 (R461). Its frames and its SA are those of port 4. -/

/-- P4's link and SA are up. -/
def State.p4Up (s : State) : Bool := s.pair.p4Link && (s.port 4).tx.isSome

/-- A frame put on P4: from the private node to the partner's, TTL 1. -/
def State.p4Frame (s : State) (typ : Nat) (payload : List Byte) : Leat :=
  { s.leatFrame typ (if typ = tyMirror then laneCyclic else laneControl) (s.rd R.PAIR_CFG.PNODE) payload with
    ttl := 1, src := s.rd R.FAB_NODE.CFG }

def State.p4Put (s : State) (f : Leat) : State :=
  let x := s.port 4
  let bytes := s.frameBody 4 f (x.txPn + 1)
  let s := (s.tookSeq f).setPort 4 { x with trafficAt := some s.now, txPn := if f.typ = tyKeyx then x.txPn else x.txPn + 1 }
  { s with fab := { s.fab with lastTx := SMap.set (fun _ => none) s.fab.lastTx 4 (some f)
                               lastWire := SMap.set (fun _ => []) s.fab.lastWire 4 (bytes ++ fcsBytes false bytes) } }

/-! The Fantail (R464). -/

/-- The Fantail as this module sends it now. -/
def State.fantail (s : State) (handoff : Bool) : Fantail :=
  { role := s.role, side := s.on R.PAIR_CFG.SIDE, pref := s.on R.PAIR_CFG.PREF, ready := s.on R.PAIR_STAT.READY
    handoff := handoff, needsync := s.on R.PAIR_STAT.NEEDSYNC && s.role != roleActive, node := s.rd R.FAB_NODE.CFG
    snode := s.rd R.PAIR_SNODE.SNODE, beat := s.pair.beatCount
    epoch := if s.role = roleElecting then s.storedEpoch else s.rd R.PAIR_EPOCH.EPOCH
    cfgid := s.rd R.PAIR_CFGID.CFGID
    mseq := if s.role = roleActive then s.pair.sentSeq else s.rd R.PAIR_MSEQ_RX.MSEQ, mt := s.mtNs, mac := s.ownMac }

/-- A Fantail sent on both paths. -/
def State.sendFantail (s : State) (handoff : Bool) : State :=
  let f := s.fantail handoff
  let s := { s with pair := { s.pair with lastSent := some f, lastBeat := s.now, beatCount := (f.beat + 1) % 65536 } }
  let s := if s.p4Up then s.p4Put (s.p4Frame tyFantail (f.bytes 0)) else s
  (s.leatSend tyFantail laneControl (s.rd R.PAIR_CFG.PNODE) (f.bytes 1)).2

/-! What the ACTIVE module mirrors (R458). -/

/-- An own-point record as a mirror item, and the address of poison in it. -/
def State.ptItem (s : State) (i : Nat) : MirItem × Option Nat × State :=
  let r := s.fetch mEngine (ownRecord i) 32
  (.pt i r.bytes, r.poison, r.st)

def State.ptItems (s : State) (pts : List Nat) : List MirItem × Option Nat × State :=
  pts.foldl (fun (acc : List MirItem × Option Nat × State) i =>
    let (it, p, s) := acc.2.2.ptItem i
    (acc.1 ++ [it], acc.2.1.or p, s)) ([], none, s)

/-- A journal record in items (Table 14-4). -/
def retItems (t n : Nat) (bytes : List Byte) : List MirItem :=
  (chunks 1120 bytes).zipIdx.map fun (b, k) => .retf t n (1120 * k) b

/-- Task t's journal is mirrored; loop n's state is. -/
def State.tMirrored (s : State) (t : Nat) : Bool := s.bit (R.PAIR_TMASK.MASK (t / 32)) (t % 32)
def State.lMirrored (s : State) (n : Nat) : Bool := s.bit (R.PAIR_LMASK.MASK (n / 32)) (n % 32)

/-- The latest journal record of a task that the module still holds apart from its slots. -/
def State.heldJrn (s : State) (t : Nat) : Option JrnRec :=
  match s.img.cur.bind (·.waits) with
  | some r => if r.task = t then some r else s.img.staged.find? (·.task == t)
  | none => s.img.staged.find? (·.task == t)

/-- A commit's batch (R458, R459): the point records, the journal record, the commit. A commit that mirrors nothing makes
none. -/
def State.mirrorCommit (s : State) (t c : Nat) (pts : List Nat) : State :=
  if s.role ≠ roleActive then s
  else
    let rec? := if s.tMirrored t then s.heldJrn t else none
    if pts.isEmpty && rec?.isNone then s
    else
      let (items, p, s) := s.ptItems pts
      let (ret, q) := match rec? with
        | some r => (retItems t (s.retlen t) r.bytes, r.poisonAt)
        | none => ([], none)
      s.queueBatch (items ++ ret ++ [.commit t (s.rd (R.SCH_TASK_RELCNT.COUNT t)) c]) false (p.or q)

/-- A loop's state words (Table 14-4). -/
def State.loopItem (s : State) (n : Nat) : MirItem := .loop n ((List.range 6).map fun k => s.lw n (0x80 + 4 * k))

/-- The loop-state sweep (R458). -/
def State.loopSweep (s : State) : State := s.queueBatch ((below 256 s.lMirrored).map s.loopItem)

/-! The mirror channel (R460, R461). -/

/-- A mirror frame can leave: on P4, or on the fabric with FBEN. -/
def State.mirrorPath (s : State) : Bool := s.p4Up || (s.on R.PAIR_CFG.FBEN && s.canSend)

def State.putMirror (s : State) (f : MirFrame) : State :=
  let s := { s with pair := { s.pair with lastMirror := some f } }
  if s.p4Up then s.p4Put (s.p4Frame tyMirror f.bytes)
  else (s.leatSend tyMirror laneCyclic (s.rd R.PAIR_CFG.PNODE) f.bytes).2

/-- A batch sent, or halted by the poison in it (R386, R461). -/
def State.sendBatch (s : State) (b : MirBatch) : State :=
  match b.poisonAt with
  | some a =>
    let s := { s with pair := { s.pair with halted := some b } }
    ((s.egressHalt 2 0 a).raise R.PAIR_INTSTAT.MIRLOST).toFault .mch 1
  | none =>
    let s := s.each b.frames fun s f => s.putMirror f
    let s := { s with pair := { s.pair with sentSeq := (b.frames.head?.map fun (f : MirFrame) => f.mseq).getD 0 } }
    let s := if b.frames.any (·.items.contains .baseend) then s.clear R.PAIR_STAT.NEEDSYNC else s
    s.bump R.PAIR_CNT_BATCH.COUNT

/-- The channel may send its next batch. -/
def State.mirrorReady (s : State) : Bool := s.role == roleActive && s.running .mch && !s.on R.MEM_EGR_HALT.MIRROR && s.mirrorPath

/-- The oldest queued batch sent. -/
def State.sendQueued (s : State) : State :=
  match s.pair.queue with
  | [] => s
  | b :: rest => if s.mirrorReady then State.sendBatch { s with pair := { s.pair with queue := rest } } b else s

/-- Every queued batch sent, as far as the channel can. -/
def State.mirrorFlush (s : State) : State := (List.range s.pair.queue.length).foldl (fun s _ => s.sendQueued) s

/-! Handing over (R469, R470). -/

/-- HELD is reached with a switchover armed: the final batches, the HANDOFF, and the five steps. The scheduler passes to OFF
at once and the hold ends with it. -/
def State.handOff (s : State) : State :=
  let s := (s.mirrorFlush.sendFantail true).clear R.PAIR_STAT.SWPEND
  let s := s.stepDown
  let s := if s.rd UnitId.sch.STATE = stDrain then s.schOff.wr UnitId.sch.STATE stOff else s
  s.endHold.toStandby.pairDone prOk

/-- A hold reached HELD with a switchover armed hands the activity over (R469). -/
def State.atHeld (s : State) : State :=
  if s.on R.PAIR_STAT.SWPEND && s.rd R.SCH_STAT.HOLD == 2 then s.handOff else s

end Sys2Proof.Machine
end

