-- ==== Sys2Proof/Machine/ImgOps.lean ====
section
/-!
DEFINITION. The image unit's transfers (ch03): input slots, the commit's steps, forces and their table, the journal, the checks
at enable.
-/

namespace Sys2Proof.Machine

/-! Input images (R89 to R94, R108, R114). -/

/-- One input slot: its value and status with age, whether either word carries poison, whether its status counts for IFLAGS. -/
structure Slot where
  value : Nat
  w2 : Nat
  age : Nat
  stat : Option PStat
  poisonVal : Bool := false
  poisonStat : Bool := false

/-- A slot under an input force (R114): forced value, Q GOOD, FORCED. STALE and the status word's poison tag, which the rule does not
name, stay as the source gives them (notes/assumptions/155). -/
def Slot.forced (x : Slot) (st : PStat) (v : Nat) : Slot :=
  let st : PStat := { st with q := qGood, forced := true, subst := false, poison := false }
  { x with value := v, w2 := st.toNat, stat := some st, poisonVal := false }

/-- A slot of a status. -/
def slotOf (value : Nat) (st : PStat) (age : Nat) : Slot := { value := value, w2 := st.toNat, age := age, stat := some st }

/-- A record copied into a slot (R90, R91): a poisoned source word keeps its tags, and the status is BAD and POISON. -/
def State.recordSlot (s : State) (a : Nat) (range : Option Nat) : Slot × State :=
  let v := s.fetch mImage a 8
  let t := v.st.fetch mImage (a + 8) 8
  let w := t.st.fetch mImage (a + 16) 16
  let raw := v.bytes ++ t.bytes ++ w.bytes
  let r := match range with | some st => overlay st raw | none => raw
  let bad := v.poison.isSome || t.poison.isSome || w.poison.isSome
  let st := recStat r
  let st := if bad then { st with q := qBad, poison := true } else st
  let age := if recType r = 0 then ageNone else ageOf s.mtNs (recTime r)
  ({ slotOf (recVal r) st age with poisonVal := v.poison.isSome, poisonStat := t.poison.isSome || w.poison.isSome }, w.st)

/-- An absent record (R91). -/
def absentSlot : Slot := slotOf 0 { q := qNone } ageNone

/-- A POINT slot (R91, R143). -/
def State.pointSlot (s : State) (id : Nat) : Slot × State :=
  let (x, s) : Slot × State :=
    match s.resolve id with
    | .own i => s.recordSlot (ownRecord i) none
    | .nothing => (absentSlot, s)
    | .replica e slot =>
      if !s.hopServes then (absentSlot, s)
      else
        match s.frameOf (slot / 128) with
        | some f => s.recordSlot (frameAddr f slot) (some (s.range e).state)
        | none => (absentSlot, s.bump R.HOP_CNT_IMGMISS.COUNT)
  match s.inForce id, x.stat with
  | some v, some st => (x.forced st v, s)
  | _, _ => (x, s)

/-- The bytes of a station's front buffer at an offset. -/
def State.frontNum (s : State) (n ofs len : Nat) : Nat := natLE (((s.stn n).front.drop ofs).take len)

/-- Age of a station block (R93). -/
def State.stnAge (s : State) (n : Nat) : Nat :=
  if (s.stn n).everIn then ageOf s.mtNs (s.stn n).frontMt.toNat else ageNone

/-- A SIN slot (R90, R108, R114). -/
def State.sinSlot (s : State) (e : ImgEntry) : Slot :=
  let n := e.stn
  let live := s.stnState n == stnUp || s.stnState n == stnRejoin
  let ever := (s.stn n).everIn
  let raw := if ever then s.frontNum n e.ofs e.len else 0
  let sub := e.flags % 4
  let x :=
    if live then slotOf raw {} (s.stnAge n)
    else if sub = 0 then
      slotOf raw { q := if ever then qUncertain else qNone, subst := true, stale := true } (s.stnAge n)
    else if sub = 1 then slotOf e.aux { q := qUncertain, subst := true } (s.stnAge n)
    else slotOf raw { q := qBad, stale := true } (s.stnAge n)
  match s.inForce (0x10000 + n * 0x100 + e.ofs), x.stat with
  | some v, some st => x.forced st (v % 256 ^ e.len)
  | _, _ => x

/-- A SHDR slot (Table 3-5): bytes 8 to 11 carry the station's epoch. -/
def State.shdrSlot (s : State) (n : Nat) : Slot :=
  let v := s.stnState n + (if s.on (R.IMG_STN_STAT.UNDELIV n) then 256 else 0)
    + (if s.on (R.IMG_STN_STAT.OUTREJ n) then 512 else 0) + 65536 * s.rd (R.IMG_STN_STAT.IN_SEQ n)
  { value := v, w2 := s.rd (R.IMG_STN_EPOCH.EPOCH n), age := s.stnAge n, stat := none }

/-- An input entry's slot. -/
def State.inSlot (s : State) (e : ImgEntry) : Slot × State :=
  if e.kind = kPoint then s.pointSlot e.ref
  else if e.kind = kAi then
    let a := s.aiSlot (e.ref % 8)
    let x := slotOf a.value a.stat a.age
    (match s.inForce (0x200 + e.ref % 8) with | some v => x.forced a.stat v | none => x, s)
  else if e.kind = kSin then (s.sinSlot e, s)
  else (s.shdrSlot e.stn, s)

/-- IFLAGS bits 1 to 4 that a slot sets (Table 3-4). -/
def Slot.flags (x : Slot) : Nat :=
  match x.stat with
  | none => 0
  | some st => (if st.subst then 2 else 0) + (if st.stale then 4 else 0) + (if st.forced then 8 else 0)
      + (if st.poison then 16 else 0)

/-- A slot written into an input buffer, with the tags of its source words (R91). -/
def State.putSlot (s : State) (a : Nat) (x : Slot) : State :=
  let put := fun (s : State) (a v : Nat) (p : Bool) =>
    if p then s.writePoison mImage (wordOf a) (BitVec.ofNat 64 v) else s.writeNum mImage a 8 v
  put (put s a x.value x.poisonVal) (a + 8) (x.w2 + 2 ^ 32 * x.age) x.poisonStat

/-- The stations whose blocks a task's copy reads. -/
def State.copyStns (s : State) (t : Nat) : List Nat :=
  ((s.inList t).filter fun e => e.kind == kSin || e.kind == kShdr).map (·.stn)

/-- A queued input copy starts when no other transfer runs (R92, R94): the slots are copied, their stations locked. -/
def State.inputCopy (s : State) : State :=
  match s.img.queue, s.img.cur, s.running .img with
  | x :: rest, none, true =>
    if x.kind ≠ .copy then s
    else
      let t := x.task
      let s := { s with img := { s.img with queue := rest, cur := some { x with started := s.now } } }
      let base := s.ibuf t
      let s := s.each (s.copyStns t) fun s n => s.setStn n { s.stn n with locked := true }
      s.each (s.inList t) fun s e =>
        let (x, s) := s.inSlot e
        let s := s.putSlot (base + e.iofs) x
        s.setImgTask t { s.imgTask t with flags := (s.imgTask t).flags ||| x.flags }
  | _, _, _ => s

/-- A station's copy ended: a block that completed meanwhile becomes the front buffer (R94). -/
def State.unlockStn (s : State) (n : Nat) : State :=
  let x := s.stn n
  match x.back with
  | some (blk, mt) => s.setStn n { x with locked := false, back := none, front := blk, frontMt := mt }
  | none => s.setStn n { x with locked := false }

/-- A duration in 10 ns units, saturating at 16 bits. -/
def t10 (ns : Nat) : Nat := min (ns / 10) 0xFFFF

/-- The running input copy ends (R53, R92): T / 2 GB/s after its start. A discarded one changes nothing more. -/
def State.copyComplete (s : State) : State :=
  match s.img.cur with
  | none => s
  | some x =>
    if x.kind ≠ .copy then s
    else
      let t := x.task
      let s := s.advance (x.started + (48 + 16 * s.icount t) / 2)
      let s := s.each (s.copyStns t) fun s n => s.unlockStn n
      let s := { s with img := { s.img with cur := none } }
      if x.discard then s
      else (s.wr (R.IMG_TASK_TIME.ICOPY t) (t10 (s.now - x.started))).copyDone t

/-! The force table (R112 to R118). -/

/-- A force's 32 bytes (R113). -/
def Force.bytes (f : Force) : List Byte :=
  if f.valid then
    bytesLE f.key.toNat 4 ++ bytesLE (1 + 2 * f.out.toNat + 4 * f.hasShadow.toNat) 4 ++ bytesLE f.value.toNat 8 ++
      bytesLE f.shadow.toNat 8 ++ bytesLE f.mt.toNat 8
  else zeros 32

/-- The mirror item of a force table entry. -/
def State.forceItem' (s : State) (i : Nat) : MirItem :=
  .force (SMap.get (fun _ => ({} : Force)) s.img.forces i).bytes

/-- A force command mirrored (R458): the entries set, the keys cleared. -/
def State.mirrorForce (s : State) (set cleared : List Nat) : State :=
  s.queueBatch (set.map s.forceItem' ++ cleared.map .fclr)

/-- Where entry i of the table's copy lies (R567). -/
def forceCopy (i : Nat) : Nat := mramBase + 0x7F0000 + 32 * i

/-- Active forces, and COUNT with them. -/
def State.syncForces (s : State) : State :=
  s.wr R.IMG_FRC_STAT.COUNT (s.img.forces.filter fun (_, f) => f.valid).length

/-- An entry replaced, in the table and in its MRAM copy (R117). -/
def State.setForce (s : State) (i : Nat) (f : Force) : State :=
  (({ s with img := { s.img with forces := SMap.set noForce s.img.forces i f } }).putBytes (forceCopy i) f.bytes).syncForces

/-- What a key names (R112). -/
inductive ForceKey where
  | di (k : Nat) | ai (k : Nat) | digOut (k : Nat) | anaOut (k : Nat) | stnIn (n ofs : Nat) | stnOut (n ofs : Nat)
  | ownPt (i : Nat) | replicaPt | bad
  deriving DecidableEq, Repr

def State.forceKey (s : State) (key : Nat) : ForceKey :=
  let node := key / 2 ^ 20 % 4096
  let i := key % 2 ^ 20
  if node = 0 then
    if i < 32 then .di i
    else if 0x100 ≤ i ∧ i < 0x118 then .digOut (i - 0x100)
    else if 0x200 ≤ i ∧ i < 0x208 then .ai (i - 0x200)
    else if 0x300 ≤ i ∧ i < 0x308 then .anaOut (i - 0x300)
    else if 0x10000 ≤ i ∧ i < 0x14000 then .stnIn ((i - 0x10000) / 256) (i % 256)
    else if 0x20000 ≤ i ∧ i < 0x24000 then .stnOut ((i - 0x20000) / 256) (i % 256)
    else .bad
  else if node = 4095 then .bad
  else if node = s.ownNode then (if i < s.ownCount then .ownPt i else .bad)
  else .replicaPt

/-- An output key (R112). -/
def ForceKey.isOut : ForceKey → Bool
  | .digOut _ => true
  | .anaOut _ => true
  | .stnOut _ _ => true
  | .ownPt _ => true
  | _ => false

/-- The SOUT entry's LEN for a station's item: the largest of the active lists (R115). -/
def State.soutLen (s : State) (n ofs : Nat) : Option Nat :=
  let es := (s.cfgTasks.flatMap s.outList).filter fun e => e.kind == kSout && e.stn == n && e.ofs == ofs
  if es.isEmpty then none else some ((es.map (·.len)).foldl max 0)

/-- A value written into a station's output item by a force, and what follows (R104, R115). -/
def State.forceItem (s : State) (n ofs v : Nat) : State :=
  match s.soutLen n ofs with
  | some len => (s.setOut n ofs (bytesLE v len)).forcedBlock n
  | none => s

/-- An output force applied at once (R115). -/
def State.applyForce (s : State) (k : ForceKey) (v : Nat) : State :=
  match k with
  | .ownPt i => s.ownWrite mImage i v { recStat (s.ownBytes i) with forced := true } s.mtNs
  | .digOut c => s.ioForce (.digital c) true (some v)
  | .anaOut c => s.ioForce (.analog c) true (some v)
  | .stnOut n ofs => s.forceItem n ofs v
  | _ => s

/-- An output force removed (R116): back to the shadow where there is one. -/
def State.releaseForce (s : State) (k : ForceKey) (shadow : Option Nat) : State :=
  match k with
  | .ownPt i =>
    let r := s.ownBytes i
    s.ownWrite mImage i (shadow.getD (recVal r)) { recStat r with forced := false, shadow := false } s.mtNs
  | .digOut c => s.ioForce (.digital c) false shadow
  | .anaOut c => s.ioForce (.analog c) false shadow
  | .stnOut n ofs => match shadow with | some v => s.forceItem n ofs v | none => s
  | _ => s

/-- The tenant of an event about a key (R436). -/
def State.keyTenant (s : State) (k : ForceKey) : Nat := match k with | .ownPt i => s.ownTenant i | _ => 0

/-- The force at a table index removed. -/
def State.removeForce (s : State) (i : Nat) : State :=
  let f := s.forceAt i
  let s := s.setForce i {}
  if f.out then s.releaseForce (s.forceKey f.key.toNat) (if f.hasShadow then some f.shadow.toNat else none) else s

/-- The key and the value of the force registers. -/
def State.frcKey (s : State) : Nat := s.rd R.IMG_FRC_KEY.KEY
def State.frcVal (s : State) : Nat := s.rd64 R.IMG_FRC_VLO.addr R.IMG_FRC_VHI.addr

/-- A force command's end (R116, R117): RESULT and the event. -/
def State.forceDone (s : State) (op code result : Nat) : State :=
  let s := (s.wr R.IMG_FRC_CMD.OP op).wr R.IMG_FRC_STAT.RESULT result
  s.event code (subj := s.frcKey) (val1 := s.frcVal) (val2 := result) (tenant := s.keyTenant (s.forceKey s.frcKey))

/-- SET (R116). -/
def State.forceSet (s : State) : State :=
  let key := s.frcKey
  let k := s.forceKey key
  if k = .bad then s.forceDone 1 0x0310 3
  else
    let free := (List.range 1024).find? fun i => !(s.forceAt i).valid
    match s.forceIdx key, free with
    | none, none => (s.raise R.IMG_INTSTAT.FRCFULL).forceDone 1 0x0313 1
    | some i, _ =>
      let s := s.setForce i { s.forceAt i with value := BitVec.ofNat 64 s.frcVal, mt := s.mt }
      let s := if k.isOut then s.applyForce k s.frcVal else s
      (s.mirrorForce [i] []).forceDone 1 0x0310 0
    | none, some i =>
      let s := s.setForce i { valid := true, key := BitVec.ofNat 32 key, out := k.isOut, value := BitVec.ofNat 64 s.frcVal
                              mt := s.mt }
      let s := if k.isOut then s.applyForce k s.frcVal else s
      (s.mirrorForce [i] []).forceDone 1 0x0310 0

/-- CLEAR (R116). -/
def State.forceClear (s : State) : State :=
  match s.forceIdx s.frcKey with
  | none => s.forceDone 2 0x0311 2
  | some i => ((s.removeForce i).mirrorForce [] [s.frcKey]).forceDone 2 0x0311 0

/-- CLEARALL (R116). -/
def State.forceClearAll (s : State) : State :=
  let es := s.img.forces.filter fun (_, f) => f.valid
  let s' := s.each (es.map (·.1)) fun s i => s.removeForce i
  (s'.mirrorForce [] [0xFFFFFFFF]).forceDone 3 0x0312 0

/-- Forces on own points that the configuration does not hold are removed at the switch point (R118). -/
def State.forcesOnline (s : State) : State :=
  let gone := s.img.forces.filter fun (_, f) =>
    f.valid && f.key.toNat / 2 ^ 20 == s.ownNode && s.ownNode != 0 && s.ownCount ≤ f.key.toNat % 2 ^ 20
  s.each gone fun s (i, f) =>
    ((s.setForce i {}).raise R.IMG_INTSTAT.FRCDROP).event 0x0314 (subj := f.key.toNat) (val1 := f.value.toNat)

/-- An entry of the MRAM copy. -/
def State.forceStored (s : State) (i : Nat) : Force :=
  let b := s.bytes (forceCopy i) 32
  let fl := numAt b 4 4
  if fl % 2 = 0 then {}
  else { valid := true, key := BitVec.ofNat 32 (numAt b 0 4), out := fl / 2 % 2 == 1, hasShadow := fl / 4 % 2 == 1
         value := BitVec.ofNat 64 (numAt b 8 8), shadow := BitVec.ofNat 64 (numAt b 16 8), mt := BitVec.ofNat 64 (numAt b 24 8) }

/-- The table rebuilt from its MRAM copy at a warm start (R117): a refused key or a repeated one is not restored. -/
def State.forcesWarm (s : State) : State :=
  s.each (List.range 1024) fun s i =>
    let f := s.forceStored i
    if !f.valid then s
    else if s.forceKey f.key.toNat = .bad ∨ s.forceIdx f.key.toNat ≠ none then
      (s.setForce i {}).event 0x0314 (subj := f.key.toNat) (val1 := f.value.toNat)
    else
      let s := s.setForce i f
      if f.out then s.applyForce (s.forceKey f.key.toNat) f.value.toNat else s

/-- A cold start writes every entry as 0 (R567). -/
def State.forcesCold (s : State) : State :=
  ({ s with img := { s.img with forces := [] } }.putBytes (forceCopy 0) (zeros 32768)).syncForces

/-- A commit's value becomes the shadow of a key that was forced as the commit began (R115, R119). -/
def State.shadowForce (s : State) (began : List Nat) (key v : Nat) : State :=
  match s.forceIdx key with
  | some i => if began.contains key then s.setForce i { s.forceAt i with hasShadow := true, shadow := BitVec.ofNat 64 v } else s
  | none => s

/-! Commits (R95 to R99). -/

/-- An output slot read (R95). Poison in either of its words is the value's: the slot is the unit that R98 speaks of, for a DO, AO or
SOUT entry as for a record (notes/assumptions/155). -/
def State.outSlot (s : State) (a : Nat) : OutRead × State :=
  let r := s.fetch mImage a 16
  let st := PStat.ofNat (numAt r.bytes 8 4)
  ({ value := numAt r.bytes 0 8, q := st.q, alarm := st.alarm, poison := r.poison.isSome }, r.st)

/-- The output slots of a task's list read, in list order (R96 step 1). -/
def State.readOuts (s : State) (t : Nat) : List ImgEntry → List OutRead × State
  | [] => ([], s)
  | e :: es =>
    let (o, s) := s.outSlot (s.obuf t + e.iofs)
    let (os, s) := State.readOuts s t es
    (o :: os, s)

/-- POISON_OUT (R98): the task and the item. -/
def State.poisonOut (s : State) (t item : Nat) : State := s.event 0x0321 (unit := t) (subj := item)

/-- A station's output item under a force, and a shadow with it: what its mirror point shows of it (R96 step 3). -/
structure ItemForce where
  forced : Bool := false
  shadow : Bool := false
  deriving DecidableEq, Repr

/-- An own record written by a commit (R96 step 2, R98, R115, R119). `undeliv` is given for a mirror point (R109), with the force on
its station item. -/
def State.commitPoint (s : State) (x : Xfer) (i : Nat) (o : OutRead) (value : Nat) (undeliv : Option Bool)
    (item : ItemForce := {}) : State :=
  let r := s.ownBytes i
  let old := recStat r
  let und := undeliv.getD old.undeliv
  if o.poison then
    (s.ownWrite mImage i (recVal r) { old with q := qBad, poison := true, undeliv := und } x.at_).poisonOut x.task i
  else
    let key := s.ownNode * 2 ^ 20 + i
    let force := if s.ownNode = 0 then none else s.outForce key
    let shadow := (force.isSome && x.forced.contains key) || item.shadow
    let st : PStat := { old with q := o.q, alarm := o.alarm, stale := false, forced := force.isSome || item.forced
                                 poison := false, shadow := shadow, undeliv := und }
    (if force.isSome then s.shadowForce x.forced key value else s).ownWrite mImage i (force.getD value) st x.at_

/-- A mirror point to be written: its station and index, its value, the slot, the force on the item. -/
structure MirrorOut where
  stn : Nat
  point : Nat
  value : Nat
  slot : OutRead
  item : ItemForce := {}

/-- What a commit gathers as it goes through the output list: DO bits, AO codes, stations written, mirror points, own points whose entries
carry MIRROR. -/
structure Gather where
  dos : List (Nat × Bool) := []
  aos : List (Nat × Nat) := []
  stns : List Nat := []
  mirrors : List MirrorOut := []
  mirPts : List Nat := []
  st : State

/-- A DO entry (R95, R98, R115). -/
def Gather.dig (g : Gather) (x : Xfer) (e : ImgEntry) (o : OutRead) : Gather :=
  let chs := below 24 fun c => e.aux.testBit c
  if o.poison then { g with st := g.st.poisonOut x.task 0x100 }
  else
    let s := g.st.each chs fun s c => s.shadowForce x.forced (0x100 + c) (o.value / 2 ^ c % 2)
    let val := fun c => match s.outForce (0x100 + c) with | some v => v % 2 == 1 | none => o.value.testBit c
    { g with st := s, dos := g.dos ++ chs.map fun c => (c, val c) }

/-- An AO entry (R95, R98, R115). -/
def Gather.ana (g : Gather) (x : Xfer) (e : ImgEntry) (o : OutRead) : Gather :=
  let c := e.ref % 8
  if o.poison then { g with st := g.st.poisonOut x.task (0x300 + c) }
  else
    let s := g.st.shadowForce x.forced (0x300 + c) (o.value % 65536)
    { g with st := s, aos := g.aos ++ [(c, (s.outForce (0x300 + c)).getD (o.value % 65536) % 65536)] }

/-- A SOUT entry (R95, R96 step 3, R98, R115). -/
def Gather.sout (g : Gather) (x : Xfer) (e : ImgEntry) (o : OutRead) : Gather :=
  let n := e.stn
  let key := 0x20000 + n * 0x100 + e.ofs
  let mir := if e.aux % 2 ^ 32 = 0xFFFFFFFF then [] else [e.aux % 2 ^ 32]
  let ms := if e.mirror then g.mirPts ++ mir else g.mirPts
  if o.poison then
    let s := (g.st.raise (R.IMG_STN_STAT.POISONOUT n)).poisonOut x.task key
    { g with st := s, stns := g.stns ++ [n], mirPts := ms
             mirrors := g.mirrors ++ mir.map fun i => { stn := n, point := i, value := 0, slot := o } }
  else
    let v := o.value % 256 ^ e.len
    let force := g.st.outForce key
    let len := if force.isSome then (g.st.soutLen n e.ofs).getD e.len else e.len
    let v' := match force with | some f => f % 256 ^ len | none => v
    let s := if force.isSome then g.st.shadowForce x.forced key v else g.st
    let item : ItemForce := { forced := force.isSome, shadow := force.isSome && x.forced.contains key }
    { g with st := s.setOut n e.ofs (bytesLE v' len), stns := g.stns ++ [n], mirPts := ms
             mirrors := g.mirrors ++ mir.map fun i => { stn := n, point := i, value := v', slot := o, item := item } }

/-- One output entry of a commit with the slot read for it. -/
def Gather.entry (g : Gather) (x : Xfer) (e : ImgEntry) (o : OutRead) : Gather :=
  if e.kind = kOpt then
    let i := e.ref % 2 ^ 20
    { g with st := g.st.commitPoint x i o o.value none, mirPts := if e.mirror then g.mirPts ++ [i] else g.mirPts }
  else if e.kind = kDo then g.dig x e o
  else if e.kind = kAo then g.ana x e o
  else g.sout x e o

/-- Bytes of staging in use. -/
def State.stagingUsed (s : State) : Nat := (s.img.staged.map (·.bytes.length)).sum

/-- Staging holds 92 KiB (Table 3-1). -/
def stagingBytes : Nat := 94208

/-- A journal record staged (R99): in place of an unbegun record of the same task, or where there is room. -/
def State.stageJrn (s : State) (r : JrnRec) : Option State :=
  if s.img.staged.any (·.task == r.task) then
    let staged := s.img.staged.map fun x => if x.task == r.task then r else x
    some (({ s with img := { s.img with staged := staged } }).bump R.IMG_CNT_JSUPER.COUNT)
  else if s.stagingUsed + r.bytes.length ≤ stagingBytes then
    some { s with img := { s.img with staged := s.img.staged ++ [r] } }
  else none

/-- A record that an abandoned commit staged taken back, where the writer has not begun it. -/
def State.unstageJrn (s : State) (x : Xfer) : State :=
  match x.jrn with
  | some (r, old) =>
    { s with img := { s.img with staged := s.img.staged.flatMap fun y => if y = r then old.toList else [y] } }
  | none => s

/-- A commit's journal record (Table 3-6). -/
def State.jrnRecord (s : State) (t c : Nat) : JrnRec × State :=
  let n := s.retlen t
  let r := s.fetch mImage (s.retAddr t) n
  let body := bytesLE t 2 ++ bytesLE n 2 ++ bytesLE (s.rd (R.SCH_TASK_RELCNT.COUNT t)) 4 ++ bytesLE c 8 ++ r.bytes
  ({ task := t, bytes := withCrc body ++ zeros 4, poisonAt := r.poison }, r.st)

/-- The running commit's transfer replaced. -/
def State.setCur (s : State) (x : Option Xfer) : State := { s with img := { s.img with cur := x } }

/-- The journal step (R96 step 5, R99): staged, skipped while the channel does not run, or waiting for room. -/
def State.journalStep (s : State) (x : Xfer) (r : JrnRec) : State :=
  if !s.running .jrn then (s.setCur (some { x with waits := none })).bump R.IMG_CNT_JSKIP.COUNT
  else
    let old := s.img.staged.find? (·.task == r.task)
    match s.stageJrn r with
    | some s => s.setCur (some { x with waits := none, jrn := some (r, old) })
    | none => s.setCur (some { x with waits := some r })

/-- The journal step of a commit of a task with retained data. -/
def State.commitJournal (s : State) (x : Xfer) : State :=
  if s.retlen x.task = 0 then s
  else
    let (r, s) := s.jrnRecord x.task x.at_
    s.journalStep x r

/-- The keys under an output force. -/
def State.forcedKeys (s : State) : List Nat := (s.img.forces.filter fun (_, f) => f.valid && f.out).map fun (_, f) => f.key.toNat

/-- A queued commit starts (R96): C is the present MT, the output slots and the retained range are read, and the forces that act
are noted (R119). What it writes stands from its end on, so that an abandoned commit has written none of its outputs (R121). -/
def State.commitStart (s : State) : State :=
  match s.img.queue, s.img.cur, s.running .img with
  | x :: rest, none, true =>
    if x.kind ≠ .commit then s
    else
      let (outs, u) := s.readOuts x.task (s.outList x.task)
      let x := { x with started := s.now, at_ := s.mtNs, outs := outs, forced := s.forcedKeys }
      ({ u with img := { u.img with queue := rest, cur := some x } }).commitJournal x
  | _, _, _ => s

/-- A commit that waits for staging is tried again (R99). -/
def State.commitStaged (s : State) : State :=
  match s.img.cur with
  | some x => match x.waits with | some r => s.journalStep x r | none => s
  | none => s

/-- What a commit writes (R96, steps 2 to 4 and 6), by the slots it has read. A force set, replaced or removed since it began
already holds: it acts at once when the commit is done (R119), and takes no shadow from it. -/
def State.commitOutputs (s : State) (x : Xfer) : State :=
  let g := ((s.outList x.task).zip x.outs).foldl (fun g (e, o) => g.entry x e o) ({ st := s } : Gather)
  let s : State := g.st.each g.mirrors fun s m =>
    s.commitPoint x m.point m.slot m.value (some (!s.delivers m.stn)) m.item
  let s : State := s.each g.stns.dedup fun s n => s.commitBlock n
  let s : State := s.ioBatch g.dos g.aos
  s.mirrorCommit x.task x.at_ g.mirPts

/-- The running commit ends (R57, R96): T / 2 GB/s after its start at the earliest, once its record is staged. -/
def State.commitComplete (s : State) : State :=
  match s.img.cur with
  | none => s
  | some x =>
    if x.kind ≠ .commit ∨ x.waits.isSome then s
    else
      let t := x.task
      let s := (s.advance (x.started + (16 * s.ocount t + s.retlen t) / 2)).commitOutputs x
      let s := (s.setCur none).wr (R.IMG_TASK_TIME.OCOMMIT t) (t10 (s.now - x.started))
      s.commitDone t

/-! The journal writer (R99). -/

/-- A slot of a task's journal in MRAM. -/
def State.jrnSlot (s : State) (t k : Nat) : Nat :=
  mramBase + 8 * s.rd (R.IMG_TASK_JRN.JOFS t) + k * (24 + s.retlen t)

/-- A slot holds a complete record of the task: task, length and CRC (Table 3-6). -/
def State.jrnValid (s : State) (t k : Nat) : Bool :=
  let n := s.retlen t
  let b := s.bytes (s.jrnSlot t k) (20 + n)
  numAt b 0 2 == t && numAt b 2 2 == n && crcOk b

/-- C of a slot. -/
def State.jrnC (s : State) (t k : Nat) : Nat := numAt (s.bytes (s.jrnSlot t k) 16) 8 8

/-- The slot that the next record goes to: the other of the last one written; at first the one without the latest complete
record (R99). -/
def State.nextSlot (s : State) (t : Nat) : Nat :=
  match (s.imgTask t).jslot with
  | some k => 1 - k
  | none => if s.jrnValid t 0 && (!s.jrnValid t 1 || s.jrnC t 1 ≤ s.jrnC t 0) then 1 else 0

/-- The oldest staged record written, or the channel halted by poison in it (R99), egress channel 4 (R386): the record is dropped, and
a commit that waits for staging space skips the step. Outside RUN staged records stay staged. -/
def State.journalWrite (s : State) : State :=
  match s.img.staged with
  | [] => s
  | r :: rest =>
    if !s.running .jrn then s
    else
      let s := { s with img := { s.img with staged := rest } }
      match r.poisonAt with
      | some a =>
        let s := (s.toFault .jrn 1).wr R.IMG_JRN_FADDR.FADDR a
        (((s.raise R.IMG_INTSTAT.JRNFAULT).event 0x0320 (unit := r.task) (subj := a)).egressHalt 4 0 a).commitStaged
      | none =>
        let k := s.nextSlot r.task
        let s := s.putBytes (s.jrnSlot r.task k) r.bytes
        s.setImgTask r.task { s.imgTask r.task with jslot := some k }

/-! The checks at enable (R87, R88, R121). -/

/-- An entry breaks R87; `size` is the image's. -/
def ImgEntry.bad (e : ImgEntry) (out : Bool) (size : Nat) : Bool :=
  let kinds := if out then [kOpt, kDo, kAo, kSout] else [kPoint, kAi, kSin, kShdr]
  let flagsOk := if e.kind = kSin then e.flags < 3 else if out then e.flags % 4 = 0 && e.flags < 8 else e.flags = 0
  let lenOk := !(e.kind == kSin || e.kind == kSout) || (1 ≤ e.len && e.len ≤ 8)
  !kinds.contains e.kind || !flagsOk || !lenOk || e.iofs % 16 != 0 || size < e.iofs + 16 || (!out && e.iofs < 48)

/-- The channels an output entry owns: DO c is c, AO c is 32 + c (R88). -/
def ImgEntry.owns (e : ImgEntry) : List Nat :=
  if e.kind = kDo then below 24 fun c => e.aux.testBit c else if e.kind = kAo then [32 + e.ref % 8] else []

/-- The first entry that names a channel already owned: its task (R88). -/
def doubleOwner : List (Nat × List Nat) → List Nat → Option Nat
  | [], _ => none
  | (t, chs) :: rest, owned => if chs.any owned.contains then some t else doubleOwner rest (chs ++ owned)

/-- Byte ranges in the data memory of a task's core: kind (0 input, 1 output, 2 retained), from, to. -/
def State.imgSpans (s : State) (t : Nat) : List (Nat × Nat × Nat) :=
  let i := 16 * s.rd (R.IMG_TASK_IBUF.IBUF t)
  let o := 16 * s.rd (R.IMG_TASK_OBUF.OBUF t)
  let r := 16 * s.rd (R.IMG_TASK_RET.RETOFS t)
  [(0, i, i + 48 + 16 * s.icount t), (1, o, o + 16 * s.ocount t), (2, r, r + s.retlen t)].filter fun (_, a, b) => a < b

/-- A task's ranges lie outside their memory, or overlap as R85 forbids. -/
def State.imgRangeBad (s : State) (ts : List Nat) (t : Nat) : Bool :=
  let mine := s.imgSpans t
  let meets := fun (x y : Nat × Nat × Nat) => x.2.1 < y.2.2 && y.2.1 < x.2.2
  mine.any (fun x => 0x10000 < x.2.2)
    || (s.retlen t != 0 && 0x7F0000 < 8 * s.rd (R.IMG_TASK_JRN.JOFS t) + 2 * (24 + s.retlen t))
    || mine.any (fun x => mine.any fun y => x.1 == 0 && y.1 != 0 && meets x y)
    || ts.any fun u => u != t && s.taskCore u == s.taskCore t && mine.any fun x => (s.imgSpans u).any (meets x)

/-- A station reference fails (Table 3-13, cause 5). -/
def State.stnRefBad (s : State) (e : ImgEntry) : Bool :=
  let n := e.stn
  (e.kind == kSin || e.kind == kShdr || e.kind == kSout) &&
    (!s.on (R.IMG_STN_CFG.EN n)
      || (e.kind == kSin && s.rd (R.IMG_STN_CFG.IN_LEN n) < e.ofs + e.len)
      || (e.kind == kSout && s.rd (R.IMG_STN_CFG.OUT_LEN n) < e.ofs + e.len))

/-- A station group fails (Table 3-13, cause 6). -/
def State.stnBad (s : State) (n : Nat) : Bool :=
  let node := s.rd (R.IMG_STN_NODE.NODE n)
  (s.on (R.IMG_STN_CFG.XPORT n) && (node == 0 || node == 4095)) || s.rd (R.IMG_STN_TIME.TMO_MS n) < s.rd (R.IMG_STN_TIME.PER_MS n)

/-- What EN finds wrong with the image unit: cause and argument (Table 3-13). -/
def State.imgFault (s : State) : Option (Nat × Nat) :=
  let bank := s.rd R.IMG_LBANK.NEXT
  let ts := s.cfgTasks
  let first := fun (n : Nat) (p : Nat → Bool) => (ts.find? p).map fun a => (n, a)
  let ins := s.inListOf bank
  let outs := s.outListOf bank
  let range := fun f n => 12288 < f + n || 1024 < n
  (first 1 fun t => range (s.rd (R.IMG_TASK_ILIST.FIRST t)) (s.icount t) || range (s.rd (R.IMG_TASK_OLIST.FIRST t)) (s.ocount t)) <|>
  (first 2 (s.imgRangeBad ts)) <|>
  (first 3 fun t => (ins t).any (·.bad false (48 + 16 * s.icount t)) || (outs t).any (·.bad true (16 * s.ocount t))) <|>
  ((doubleOwner (ts.flatMap fun t => (outs t).map fun e => (t, e.owns)) []).map fun t => (4, t)) <|>
  (first 5 fun t => (ins t).any s.stnRefBad || (outs t).any s.stnRefBad) <|>
  (((List.range 64).find? s.stnBad).map fun n => (6, n))

/-- Own points that OPT entries of several tasks name (R88). -/
def State.multiPoints (s : State) : List Nat :=
  let named := s.cfgTasks.map fun t => (((s.outList t).filter (·.kind == kOpt)).map fun e => e.ref % 2 ^ 20).dedup
  (named.flatten.filter fun i => 2 ≤ (named.filter (·.contains i)).length).dedup

/-- The active lists have changed: MULTIW of every own point follows them (R88). -/
def State.syncMulti (s : State) : State :=
  let multi := s.multiPoints
  s.each (List.range s.ownCount) fun s i =>
    let st := recStat (s.ownBytes i)
    if st.multiw = multi.contains i then s
    else s.writeNum mEngine (ownRecord i + 16) 4 (PStat.toNat { st with multiw := multi.contains i })

/-- Enabled stations that are OFF start (Table 3-9). -/
def State.stnsBegin (s : State) : State := s.each (below 64 fun n => s.on (R.IMG_STN_CFG.EN n)) fun s n => s.stnBegin n

/-- The image unit enters RUN from OFF: the selected bank becomes active, enabled stations start (R121, Table 3-9). -/
def State.imgStart (s : State) : State := ((s.wr R.IMG_LBANK.ACT (s.rd R.IMG_LBANK.NEXT)).syncMulti).stnsBegin

/-- The image unit reaches OFF: every station with it (Table 3-9). -/
def State.imgOff (s : State) : State := s.each (List.range 64) fun s n => s.stnEnd n

/-- The transfer in hand, or the one about to start, abandoned (R121); a commit's task is aborted with none of its outputs written
(notes/assumptions/28). -/
def State.imgDrop (s : State) : State :=
  match s.img.cur, s.img.queue with
  | some x, _ =>
    if x.kind = .commit then ((s.unstageJrn x).setCur none).abortIter x.task causeTrap
    else (((s.setCur none).each (s.copyStns x.task)) fun s n => s.unlockStn n)
  | none, x :: rest =>
    if x.kind = .commit then ({ s with img := { s.img with queue := rest } }).abortIter x.task causeTrap
    else { s with img := { s.img with queue := rest } }
  | none, [] => s

/-- A crossbar error of the image unit (R121). -/
def State.imgXbar (s : State) : State := (s.toFault .img 7).imgDrop

end Sys2Proof.Machine
end

