-- ==== Sys2Proof/Machine/GateOps.lean ====
section
/-!
DEFINITION. The tenant gate's judgement (ch06): the handshake, visibility and writability, the items of a request in turn, the
order of checks, subscriptions, reading events.
-/

namespace Sys2Proof.Machine

/-! Visibility (R207 to R209). -/

/-- Bit t of visibility mask m; mask 0 is empty (R205). -/
def State.maskBit (s : State) (m t : Nat) : Bool :=
  m != 0 && (s.num (0x40000 * s.rd R.GATE_TBASE.BASE + 0x2000 + 32 * m + t / 8) 1).testBit (t % 8)

/-- The masks that name a tenant, as they stand now. -/
def State.masksOf (s : State) (t : Nat) : List Nat := below 256 fun m => s.maskBit m t

/-- A session may read a record (R207), by the masks its request started with (R205). -/
def mayRead (masks : List Nat) (x : Session) (r : List Byte) : Bool :=
  let w := recTenantWord r
  let zone := x.zone == 0 || w / 256 % 256 == x.zone
  x.tenant == 0 || w.testBit 24 || (w % 256 == x.tenant && zone) || (masks.contains (w / 65536 % 256) && zone)

/-- A session that holds WRITE may write an own record (R208). -/
def mayWrite (x : Session) (r : List Byte) : Bool :=
  let w := recTenantWord r
  x.tenant == 0 || (w % 256 == x.tenant && w.testBit 25 && (x.zone == 0 || w / 256 % 256 == x.zone))

/-- A record for a message: a poisoned one is substituted (R387). -/
def unpoisoned (b : List Byte) (poison : Bool) : List Byte :=
  if poison then
    zeros 8 ++ (b.drop 8).take 8 ++ bytesLE ({ recStat b with q := qBad, poison := true } : PStat).toNat 4 ++ b.drop 20
  else b

/-- What a session sees at an ID: a record, a code, or nothing yet. -/
inductive Sight where
  | shown (rec_ : List Byte) | code (c : Nat) | waits
  deriving DecidableEq, Repr

/-- A lookup by the gate; one resumed after its page came is answered from the frame without another hit counted. -/
def State.gateLook (s : State) (id : Nat) (resumed : Bool) : LkAns × State :=
  match resumed, s.resolve id with
  | true, .replica e slot =>
    match s.hopServes, s.frameOf (slot / 128) with
    | true, some f => s.readFrame e f slot
    | _, _ => s.lookup 0 id
  | _, _ => s.lookup 0 id

/-- An ID as a session sees it (R207, R209, R230). -/
def State.see (s : State) (masks : List Nat) (x : Session) (id : Nat) (resumed : Bool) : Sight × State :=
  match s.gateLook id resumed with
  | (.found b _ p, s) => (if mayRead masks x b then .shown (unpoisoned b p) else .code gcNotvis, s)
  | (.absent, s) => (.code (if x.tenant = 0 then gcAbsent else gcNotvis), s)
  | (.busy, s) => (.code gcBusy, s)
  | (.notrun, s) => (.code gcNotrun, s)
  | (.waits, s) => (.waits, s)

/-! Items. -/

/-- An item of a READREP or PUSH (R219), of a WRITEREP or SUBREP. -/
def readItem (id code : Nat) (r : List Byte) : List Byte := bytesLE id 4 ++ bytesLE code 1 ++ zeros 3 ++ r
def codeItem (id code : Nat) : List Byte := bytesLE id 4 ++ bytesLE code 1 ++ zeros 3

/-- The state with a refused item counted. -/
def State.counted (s : State) (code : Nat) : State := if code = gcOk then s else s.refuses

/-- One item of a WRITE (R208 to R210). -/
def State.writeItem (s : State) (x : Session) (id : Nat) (it : List Byte) (seen : Sight) : Nat × State :=
  match seen with
  | .waits => (gcNotrun, s)
  | .code c => (c, s)
  | .shown r =>
    match s.resolve id with
    | .own i =>
      if !mayWrite x r then (gcNotwritable, s)
      else if (recStat r).forced then (gcForced, s)
      else
        (gcOk, s.ownWrite mEngine i (numAt it 8 8)
          { recStat (s.ownBytes i) with q := qGood, alarm := numAt it 4 1 % 2 == 1 } s.mtNs)
    | _ => (gcNotown, s)

/-- One item of a SUB (R221). -/
def State.subOne (s : State) (k id per : Nat) : Nat × State :=
  let due := s.now + 10 * ms * per
  if s.gate.subs.any fun e => e.slot == k && e.id == id then
    (gcOk, { s with gate := { s.gate with subs := s.gate.subs.map fun e =>
      if e.slot == k && e.id == id then { e with per := per, due := due } else e } })
  else if 256 ≤ (s.gate.subs.filter (·.slot == k)).length ∨ 16384 ≤ s.gate.subs.length then
    (gcFull, s.raise R.GATE_INTSTAT.SUBFULL)
  else (gcOk, { s with gate := { s.gate with subs := s.gate.subs ++ [{ slot := k, id := id, per := per, due := due }] } })

/-- The entry of a session for an ID. -/
def State.subOf (s : State) (k id : Nat) : Option SubEntry := s.gate.subs.find? fun e => e.slot == k && e.id == id

/-- What an item gives: nothing yet, no item of the reply, or one. -/
inductive ItemOut where
  | waits | skip | item (bs : List Byte)
  deriving DecidableEq, Repr

/-- One item of a request judged. -/
def State.jobItem (s : State) (j : GateJob) (resumed : Bool) (it : List Byte) : ItemOut × State :=
  let id := numAt it 0 4
  let x := s.sess j.slot
  let (seen, s) := s.see j.masks x id resumed
  if seen = .waits then (.waits, s)
  else
    match j.what with
    | .read =>
      match seen with
      | .shown r => (.item (readItem id gcOk r), s)
      | .code c => (.item (readItem id c (zeros 32)), s.refuses)
      | .waits => (.waits, s)
    | .write =>
      let (c, s) := s.writeItem x id it seen
      (.item (codeItem id c), s.counted c)
    | .sub per =>
      match seen with
      | .shown _ => let (c, s) := s.subOne j.slot id per; (.item (codeItem id c), s.counted c)
      | .code c => (.item (codeItem id c), s.refuses)
      | .waits => (.waits, s)
    | .push =>
      match seen with
      | .shown r =>
        if (s.subOf j.slot id).any fun e => e.last == some (recSeq r, (recStat r).toNat) then (.skip, s)
        else (.item (readItem id gcOk r), s)
      | .code c => if c = gcBusy ∨ c = gcNotrun then (.skip, s) else (.item (readItem id gcNotvis (zeros 32)), s)
      | .waits => (.waits, s)

/-! Replies. -/

/-- A counted list of items after the head: READREP and PUSH with MORE, WRITEREP and SUBREP. -/
def itemsBody (kind reqid : Nat) (more : Bool) (items : List (List Byte)) : List Byte :=
  sessHead kind reqid ++ bytesLE items.length 2 ++ bytesLE more.toNat 2 ++ items.flatten

/-- Pushed items remembered: sequence and status, or the entry removed where the point is no longer readable (R221). -/
def State.pushed (s : State) (k : Nat) (items : List (List Byte)) : State :=
  let subs := s.gate.subs.filterMap fun e =>
    match items.find? fun it => e.slot == k && numAt it 0 4 == e.id with
    | some it =>
      if numAt it 4 1 = gcOk then some { e with last := some (recSeq (it.drop 8), (recStat (it.drop 8)).toNat) } else none
    | none => some e
  { s with gate := { s.gate with subs := subs } }

/-- The replies of a finished request, and the end of a session that was only waiting for them. -/
def State.finishJob (s : State) (j : GateJob) : State :=
  let last := (s.sess j.slot).closing && !s.gate.waits.any (·.slot == j.slot)
  match j.what with
  | .push =>
    let s := s.each (chunks 28 j.done) fun s items =>
      let body := itemsBody 23 (Config.freeNat s.fresh % 65536) false items
      let r := s.taken.charge j.slot (body.length + 16 + 64)
      if r.1 then (r.2.sendSess j.slot j.typ j.lane body).pushed j.slot items else r.2
    if last then s.freeSess j.slot else s
  | .read =>
    let s := s.bump R.GATE_CNT_ACCEPT.COUNT
    let a := j.done.take 28
    let b := j.done.drop 28
    if b.isEmpty then s.sendSess j.slot j.typ j.lane (itemsBody 17 j.reqid false a) last
    else (s.sendSess j.slot j.typ j.lane (itemsBody 17 j.reqid true a)).sendSess j.slot j.typ j.lane
      (itemsBody 17 j.reqid false b) last
  | .write =>
    (s.bump R.GATE_CNT_ACCEPT.COUNT).sendSess j.slot j.typ j.lane (itemsBody 19 j.reqid false j.done) last
  | .sub _ =>
    (s.bump R.GATE_CNT_ACCEPT.COUNT).sendSess j.slot j.typ j.lane (itemsBody 21 j.reqid false j.done) last

/-- The items of a request judged in turn, until one waits for its page (R144). -/
def State.runJob (s : State) (j : GateJob) (resumed : Bool) : List (List Byte) → State
  | [] => s.finishJob { j with todo := [] }
  | it :: rest =>
    match s.jobItem j resumed it with
    | (.waits, s) => { s with gate := { s.gate with waits := s.gate.waits ++ [{ j with todo := it :: rest }] } }
    | (.skip, s) => State.runJob s j false rest
    | (.item b, s) => State.runJob s { j with done := j.done ++ [b] } false rest

/-- Requests that wait for one of these IDs go on (R144); all of them where no ID is given. -/
def State.gateResume (s : State) (ids : Option (List Nat)) : State :=
  let ready := fun (j : GateJob) => ids.all fun l => l.contains (numAt (j.todo.headD []) 0 4)
  s.each (s.gate.waits.filter ready) fun s j =>
    match takeFirst (· == j) s.gate.waits with
    | some (_, rest) => State.runJob { s with gate := { s.gate with waits := rest } } { j with todo := [] } true j.todo
    | none => s

/-- A session closed by a command: after the requests already started (R228). -/
def State.closeSess (s : State) (k : Nat) : State :=
  if (s.sess k).state = sFree then s
  else if s.gate.waits.any (·.slot == k) then s.setSess k { s.sess k with closing := true }
  else s.freeSess k

/-! Forces (R222). -/

/-- A FORCE carried out as a force command, and its result as a code. -/
def State.gateForce (s : State) (op key value : Nat) : Nat × State :=
  let s := (s.wr R.IMG_FRC_KEY.KEY key).wr64 R.IMG_FRC_VLO.addr R.IMG_FRC_VHI.addr value
  let s := if op = 1 then s.forceSet else if op = 2 then s.forceClear else s.forceClearAll
  (match s.rd R.IMG_FRC_STAT.RESULT with | 0 => gcOk | 1 => gcFull | 2 => gcNotfound | _ => gcBadkey, s)

/-! Reading events (R220, R447). -/

/-- The progress of a scan. -/
structure EvScan where
  /-- Where the scan stands. -/
  pos : Nat
  skip : Nat := 0
  scanned : Nat := 0
  found : List (List Byte) := []
  deriving DecidableEq, Repr

/-- A record taken into a scan, unless it has ended. -/
def EvScan.take (v : EvScan) (tenant max seq : Nat) (b : List Byte) : EvScan :=
  if max ≤ v.found.length ∨ 4096 ≤ v.scanned then v
  else
    { v with pos := seq + 1, scanned := v.scanned + 1
             found := if tenant = 0 ∨ numAt b 19 1 = tenant then v.found ++ [b] else v.found }

/-- The tail's visible records of a range of SEQ, in SEQ order. -/
def State.tailRange (s : State) (lo hi : Nat) : List (Nat × List Byte) :=
  let es := s.tailEntries.filter fun (ti, q) => s.rd R.EVT_TFIRST.TCLR ≤ ti && lo ≤ q && q < hi
  es.foldl (fun m (ti, q) => SMap.set (fun _ => []) m q (s.tailBytes (ti % 32768))) []

/-- A scan from `frm` for a tenant (R447). -/
def State.evScan (s : State) (tenant frm max_ : Nat) : EvScan × Bool × Bool × Nat :=
  let floor := s.evt.floor
  let old := s.evtOldest
  let cleared := frm < floor
  let start := max frm floor
  let tail := start < old
  let ended := fun (v : EvScan) => max_ ≤ v.found.length || 4096 ≤ v.scanned
  let v : EvScan := { pos := start }
  let v := if tail then
      let t := s.tailRange start old
      let v := t.foldl (fun v (q, b) => v.take tenant max_ q b) v
      let v := if ended v then v else { v with pos := old }
      { v with skip := (v.pos - start) - (t.filter fun (q, _) => q < v.pos).length }
    else v
  let v := if ended v then v
    else (List.range (min 4096 (s.evt.next - v.pos))).foldl (fun (v : EvScan) _ =>
      v.take tenant max_ v.pos (s.bytes (s.ringSlot v.pos) 64)) v
  ({ v with skip := v.skip + (if cleared then floor - frm else 0) }, tail, cleared, start)

/-- The body of EVDATA (Table 13-6). -/
def State.evData (s : State) (tenant reqid frm max_ : Nat) : List Byte :=
  let (v, tail, cleared, start) := s.evScan tenant frm max_
  sessHead 41 reqid ++ bytesLE start 8 ++ bytesLE v.pos 8 ++ bytesLE v.skip 8 ++ bytesLE v.found.length 2 ++
    bytesLE (tail.toNat + 2 * cleared.toNat) 2 ++ v.found.flatten

/-! Requests (R219, R230). -/

/-- A request taken apart. -/
inductive Request where
  | items (what : GateFor) (right : Nat) (its : List (List Byte))
  | unsub (ids : List Nat)
  | force (op key value : Nat)
  | close
  | evread (frm max : Nat)
  | bad
  deriving DecidableEq, Repr

/-- The form of a plaintext (Table 6-7, Table 13-6): TYPE, lane, VER, KIND, COUNT and length. -/
def requestOf (typ lane : Nat) (pt : List Byte) : Request :=
  let n := numAt pt
  let len := pt.length
  let its := fun (c size : Nat) (r : Request) => if 1 ≤ c ∧ c ≤ 32 ∧ len = 8 + size * c then r else .bad
  if len < 4 ∨ n 1 1 ≠ 1 then .bad
  else if typ = tyEvent then
    if n 0 1 = 40 ∧ lane = laneEvent ∧ len = 16 ∧ 1 ≤ n 12 2 ∧ n 12 2 ≤ 17 then .evread (n 4 8) (n 12 2) else .bad
  else if lane = laneEvent then
    match n 0 1 with
    | 16 => its (n 4 2) 4 (.items .read rtRead (chunks 4 (pt.drop 8)))
    | 20 => if 1 ≤ n 4 2 ∧ n 4 2 ≤ 6000 then its (n 6 2) 4 (.items (.sub (n 4 2)) rtSub (chunks 4 (pt.drop 8))) else .bad
    | 22 => its (n 6 2) 4 (.unsub ((chunks 4 (pt.drop 8)).map fun b => numAt b 0 4))
    | _ => .bad
  else if lane = laneControl then
    match n 0 1 with
    | 18 => its (n 4 2) 16 (.items .write rtWrite (chunks 16 (pt.drop 8)))
    | 24 => if len = 20 ∧ 1 ≤ n 4 1 ∧ n 4 1 ≤ 3 then .force (n 4 1) (n 8 4) (n 12 8) else .bad
    | 30 => if len = 4 then .close else .bad
    | _ => .bad
  else .bad

/-- The right a request needs. -/
def Request.right : Request → Option Nat
  | .items _ r _ => some r
  | .unsub _ => some rtSub
  | .force _ _ _ => some rtForce
  | .evread _ _ => some rtEvent
  | .close => none
  | .bad => none

/-- A well-formed request that the session has the right to (R230 step 7). -/
def State.serve (s : State) (k : Nat) (f : Leat) (reqid : Nat) (r : Request) : State :=
  match r with
  | .items what _ its =>
    s.runJob { slot := k, typ := f.typ, lane := f.lane, reqid := reqid, what := what, masks := s.masksOf (s.sess k).tenant,
               todo := [] } false its
  | .unsub ids =>
    let s : State := { s with gate := { s.gate with subs := s.gate.subs.filter fun e => !(e.slot == k && ids.contains e.id) } }
    (s.bump R.GATE_CNT_ACCEPT.COUNT).sendSess k f.typ f.lane (itemsBody 21 reqid false (ids.map (codeItem · gcOk)))
  | .force op key value =>
    let (c, s) := s.gateForce op key value
    (if c = gcOk then s.bump R.GATE_CNT_ACCEPT.COUNT else s.refuses).sendReply k f.typ f.lane reqid c
  | .close => (s.bump R.GATE_CNT_ACCEPT.COUNT).sendReply k f.typ f.lane reqid gcOk true
  | .evread frm n =>
    (s.bump R.GATE_CNT_ACCEPT.COUNT).sendSess k f.typ f.lane (s.evData (s.sess k).tenant reqid frm n)
  | .bad => s

/-- A request's form and right, then the request (R230 steps 5 to 7). -/
def State.gateRequest (s : State) (k : Nat) (f : Leat) (pt : List Byte) : State :=
  let reqid := numAt pt 2 2
  let r := requestOf f.typ f.lane pt
  if r = .bad then (s.bump R.GATE_CNT_BADREQ.COUNT).sendRefuse k f.typ f.lane reqid gcBadreq
  else if r.right.any fun b => !(s.sess k).rights.testBit b then s.sendRefuse k f.typ f.lane reqid gcRight
  else s.serve k f reqid r

/-- REFUSE RATE, at most once per 100 ms (R225). -/
def State.rateRefused (s : State) (k : Nat) (f : Leat) (reqid : Nat) : State :=
  let s := (s.bump R.GATE_CNT_RATEDROP.COUNT).raise R.GATE_INTSTAT.RATE
  let x := s.sess k
  if dueAgain x.rateAt s.now (100 * ms) then
    (s.setSess k { x with rateAt := some s.now }).sendRefuse k f.typ f.lane reqid gcRate
  else s

/-- A valid CONFIRM (R214): the session's bucket starts full (R225). -/
def State.confirm (s : State) (k : Nat) (f : Leat) (reqid : Nat) : State :=
  let x := (s.sess k).accept f.seq
  let full : Bucket := { tokens := s.num (s.tenantAddr x.tenant + 24) 4 * 1000000, at_ := s.now }
  let s := s.setSess k { x with state := sOpen, since := s.now, openedAt := s.now, lastReq := s.now, bucket := full }
  (s.bump R.GATE_CNT_ACCEPT.COUNT).sendReply k f.typ f.lane reqid gcOk

/-- The plaintext of an inbound frame, or what its tag and SEQ make of it (R215). -/
def State.openFrame (s : State) (k : Nat) (f : Leat) : Option (List Byte) × State :=
  match gcmOpen (s.sessKey k) (sessNonce f.session f.seq 0) (sessAad f) f.payload with
  | none =>
    (none, ((s.keyCount ksAuthFail).bump R.GATE_CNT_BADTAG.COUNT).raise R.GATE_INTSTAT.BADTAG)
  | some pt =>
    let s := s.keyCount ksOk
    if (s.sess k).fresh f.seq then (some pt, s) else (none, s.bump R.GATE_CNT_REPLAY.COUNT)

/-- A request of an established session, charged to its rate and run (R220). -/
def State.gateCharged (s : State) (k : Nat) (f : Leat) (pt : List Byte) (reqid : Nat) : State :=
  let r := s.charge k (f.len + 64)
  if r.1 then r.2.gateRequest k f pt else r.2.rateRefused k f reqid

/-- A frame of a session that opened under its key: CONFIRM while the session is pending (R212; one of a wrong form is BADREQ,
R219), a request after it. -/
def State.gatePlain (s : State) (k : Nat) (f : Leat) (pt : List Byte) : State :=
  let x := s.sess k
  let reqid := numAt pt 2 2
  if x.state = sPending then
    if pt.length = 4 ∧ numAt pt 0 2 = 0x103 ∧ f.lane = laneControl ∧ f.typ = tySession then s.confirm k f reqid
    else if numAt pt 0 1 = 3 then (s.bump R.GATE_CNT_BADREQ.COUNT).sendRefuse k f.typ f.lane reqid gcBadreq
    else s.refuseNosess f
  else
    let s := s.setSess k { x.accept f.seq with lastReq := if x.state = sOpen then s.now else x.lastReq }
    if x.state = sExpired then s.sendRefuse k f.typ f.lane reqid gcExpired else s.gateCharged k f pt reqid

/-- A SESSION or EVENT frame whose use of K_S the engine allowed (R230 from step 2 on). -/
def State.gateOpened (s : State) (k : Nat) (f : Leat) : State :=
  match s.openFrame k f with
  | (none, s) => s
  | (some pt, s) => s.gatePlain k f pt

/-- The slot of a frame's session (R212). -/
def State.sessionOf (s : State) (f : Leat) : Option Nat :=
  let k := f.session % 512
  let x := s.sess k
  if x.state ≠ sFree ∧ x.sid = f.session ∧ x.node = f.src ∧ !x.closing then some k else none

/-! The handshake (R214, R216 to R218). -/

/-- TAG of a handshake message: under K_T, over the header with TTL 0 and the bytes. -/
def openTag (kt : List Byte) (f : Leat) (bs : List Byte) : List Byte := (hmac kt (sessAad f ++ bs)).take 16

/-- A slot for a new session: one of the FREE ones, which the spec leaves open. -/
def State.newSlot (s : State) : Option Nat :=
  let free := below 512 fun k => (s.sess k).state == sFree
  free[Config.freeNat s.fresh % free.length]?

/-- OPENACK and the PENDING slot (Table 6-6). -/
def State.openAck (s : State) (f : Leat) (t : Nat) (ten : Tenant) (kt : List Byte) (k : Nat) : State :=
  let b := f.payload
  let zone := numAt b 3 1
  let rights := Nat.land (numAt b 4 2) (Nat.land ten.rights (if t = 0 then 0x7F else 0x0F))
  let hi := Config.freeNat (s.fresh + 1)
  let sid := k + 512 * (if k = 0 then 1 + hi % (2 ^ 23 - 1) else hi % 2 ^ 23)
  let nc := (b.drop 8).take 16
  let nm := drbgBytes (s.fresh + 2) 16
  match (s.drawn 3).establish k t rights kt ((b.drop 24).take 64) (nc ++ nm ++ bytesLE sid 4) with
  | (none, s) => s.refuseRaw f gcKeyref t
  | (some qm, s) =>
    let s := s.setSess k
      { state := sPending, sid := sid, node := f.src, tenant := t, zone := zone, rights := rights
        nc := BitVec.ofNat 128 (natBE nc), idleS := ten.idleS, lifeMin := ten.lifeMin, since := s.now }
    let body := bytesLE 2 1 ++ bytesLE 1 1 ++ bytesLE t 1 ++ bytesLE zone 1 ++ bytesLE rights 2 ++ bytesLE ten.idleS 2 ++
      bytesLE sid 4 ++ nm ++ qm
    if s.canSend then
      let g := { s.leatFrame tySession laneControl f.src body with len := 108 }
      ((s.tookSeq g).txIn { g with payload := body ++ openTag kt g (body ++ nc) } none).2
    else s

/-- OPEN (R214, R216). -/
def State.openIn (s : State) (f : Leat) : State :=
  let b := f.payload
  let t := numAt b 2 1
  if s.rd R.PAIR_STAT.ROLE = roleStandby then s.refuseRaw f gcStandby t
  else
    let r := s.openCharge
    if !r.1 then r.2
    else
      match r.2.tenantUse with
      | (.ok, s) =>
        let (ten, s) := s.tenant t
        let kt := s.tenantKey t ten.gen
        let mine := s.gate.sessions.filter fun (_, x) => x.tenant == t && (x.state == sPending || x.state == sOpen)
        if openTag kt f (b.take 88) ≠ b.drop 88 then
          (s.bump R.GATE_CNT_BADTAG.COUNT).raise R.GATE_INTSTAT.BADTAG
        else if ten.maxsess = 0 then s.refuseRaw f gcTenant t
        else if ten.maxsess ≤ mine.length then s.refuseRaw f gcFull t
        else
          match s.newSlot with
          | none => (s.raise R.GATE_INTSTAT.SESSFULL).refuseRaw f gcFull t
          | some k => s.openAck f t ten kt k
      | (_, s) => s.refuseRaw f gcKeyref t

/-- ABANDON (R218). -/
def State.abandonIn (s : State) (f : Leat) : State :=
  let b := f.payload
  let t := numAt b 2 1
  let sid := numAt b 4 4
  let k := sid % 512
  let r := s.openCharge
  if !r.1 then r.2
  else
    match r.2.tenantUse with
    | (.ok, s) =>
      let (ten, s) := s.tenant t
      let x := s.sess k
      if openTag (s.tenantKey t ten.gen) f (b.take 24) ≠ b.drop 24 then
        (s.bump R.GATE_CNT_BADTAG.COUNT).raise R.GATE_INTSTAT.BADTAG
      else if (x.state = sPending ∨ x.state = sOpen) ∧ x.sid = sid ∧ x.node = f.src ∧ x.tenant = t ∧
          x.nc.toNat = natBE ((b.drop 8).take 16) then s.freeSess k
      else s.bump R.GATE_CNT_BADREQ.COUNT
    | (_, s) => s.bump R.GATE_CNT_BADREQ.COUNT

/-- A frame of a client judged (Table 6-1, R230): handshake kinds in the clear, every other under its session. -/
def State.gateFrame (s : State) (f : Leat) : State :=
  let s := s.takeInbox f.typ f.src f.payload
  let b := f.payload
  if !s.running .gate then s
  else if !f.auth then
    if f.typ = tySession ∧ numAt b 0 2 = 0x101 ∧ b.length = 104 ∧ f.lane = laneControl then s.openIn f
    else if f.typ = tySession ∧ numAt b 0 2 = 0x105 ∧ b.length = 40 ∧ f.lane = laneControl then s.abandonIn f
    else s.bump R.GATE_CNT_BADREQ.COUNT
  else
    match s.sessionOf f with
    | none => s.refuseNosess f
    | some k =>
      match s.askUse k (.openIn f) with
      | (true, s) => s.gateOpened k f
      | (false, s) => s

/-! Authorised QUENCH (R223). -/

/-- An authorised QUENCH whose use of K_S the engine allowed: tag, SEQ and right, then the rule and the QUENCH without its
authority. -/
def State.quenchOpened (s : State) (p k : Nat) (f : Leat) : State :=
  let body := f.payload.take 20
  if (gcmOpen (s.sessKey k) (sessNonce f.session f.seq 0) (sessAad f ++ body) (f.payload.drop 20)).isNone then
    ((s.keyCount ksAuthFail).bump R.GATE_CNT_BADTAG.COUNT).raise R.GATE_INTSTAT.BADTAG
  else
    let s := s.keyCount ksOk
    let x := s.sess k
    if !x.fresh f.seq then s.bump R.GATE_CNT_REPLAY.COUNT
    else if x.state = sPending then s.refuseNosess f
    else
      let s := s.setSess k { x.accept f.seq with lastReq := if x.state = sOpen then s.now else x.lastReq }
      if x.state = sExpired then s.sendRefuse k tySession f.lane 0 gcExpired
      else if !x.rights.testBit rtQuench then s.sendRefuse k tySession f.lane 0 gcRight
      else s.quenchHop p { f with auth := false, session := 0, len := 20, payload := body }

/-- An authorised QUENCH at the first module that receives it (R204, R223). -/
def State.authQuenchIn (s : State) (p : Nat) (f : Leat) : State :=
  let s := s.takeInbox f.typ f.src f.payload
  if !s.running .gate then s
  else if !f.auth ∨ f.payload.length ≠ 36 then s.bump R.GATE_CNT_BADREQ.COUNT
  else
    match s.sessionOf f with
    | none => s.refuseNosess f
    | some k =>
      match s.askUse k (.quench p f) with
      | (true, s) => s.quenchOpened p k f
      | (false, s) => s

/-! Periods and expiry (R221, R227). -/

/-- The subscriptions of a session that are due, at the earliest instant at which one is (R221). -/
def State.pushDue (s : State) (k : Nat) : State :=
  let mine := s.gate.subs.filter (·.slot == k)
  match mine.map (·.due) with
  | [] => s
  | d :: ds =>
    if !s.running .gate ∨ (s.sess k).state ≠ sOpen then s
    else
      let s := s.advance (ds.foldl min d)
      let due := (s.gate.subs.filter fun e => e.slot == k && e.due ≤ s.now).map (·.id)
      let subs := s.gate.subs.map fun e =>
        if e.slot == k && e.due ≤ s.now then { e with due := e.due + 10 * ms * e.per } else e
      let s : State := { s with gate := { s.gate with subs := subs } }
      s.runJob { slot := k, typ := tySession, lane := laneEvent, reqid := 0, what := .push, masks := s.masksOf (s.sess k).tenant,
                 todo := [] } false
        (due.map (bytesLE · 4))

/-- An OPEN session expires: its subscriptions end, its slot is held for 10 s (R227). -/
def State.expire (s : State) (k : Nat) : State :=
  let s := s.setSess k { s.sess k with state := sExpired, since := s.now }
  { s with gate := { s.gate with subs := s.gate.subs.filter (·.slot != k) } }

/-! Commands and enable (R228, R229, R231). -/

/-- The sessions of a tenant closed. -/
def State.closeTenant (s : State) (t : Nat) : State :=
  s.each ((s.gate.sessions.filter fun (_, x) => x.state != sFree && x.tenant == t).map (·.1)) fun s k => s.closeSess k

/-- A tenant command ends (Table 6-10, Table 6-12). -/
def State.tcmdDone (s : State) (t op : Nat) : State :=
  (((s.wr R.GATE_TCMD.TENANT t).wr R.GATE_TCMD.OP op).clear R.GATE_TCMD.GO).raise R.GATE_INTSTAT.TCMDDONE

/-- FCAUSE of the gate (Table 6-11); none where the checks pass. -/
def State.gateFault (s : State) : Option Nat :=
  let base := 0x40000 * s.rd R.GATE_TBASE.BASE
  let k := s.kslot (s.rd R.GATE_CFG.KSLOT)
  if base < 0x10000000 ∨ 0x10400000 ≤ base then some 1
  else if k.kind = 0 ∨ k.purpose ≠ 5 then some 2
  else none

/-- RUN entered: every tenant's bucket full at its depth (R225), and the open-rate bucket. -/
def State.gateStart (s : State) : State :=
  let full := fun t => ({ tokens := s.num (s.tenantAddr t + 16) 4 * 1000000, at_ := s.now } : Bucket)
  { s with gate := { s.gate with
    tenantBuckets := (List.range 256).foldl (fun m t => SMap.set (fun _ => ({} : Bucket)) m t (full t)) []
    openBucket := { tokens := sec * s.rd R.GATE_CFG.OPEN_RATE, at_ := s.now } } }

/-- Every session lost (R229). -/
def State.gateOff (s : State) : State :=
  s.each (s.gate.sessions.map (·.1)) fun s k => s.freeSess k

/-- A use that waits for the key-use server on behalf of the gate. -/
def KeyUse.ofGate (u : KeyUse) : Bool :=
  match u.act with
  | .bare _ _ => false
  | _ => true

/-- The current request is the unit of work (R231): none waits for its page or for the key-use server. -/
def State.gateDrained (s : State) : Bool := s.gate.waits.isEmpty && !s.key.uses.any KeyUse.ofGate

/-- A fault drops the request in progress without an answer (R231). -/
def State.gateXbar (s : State) : State :=
  { s with gate := { s.gate with waits := [] }, key := { s.key with uses := s.key.uses.filter fun u => !u.ofGate } }

end Sys2Proof.Machine
end

