-- ==== Sys2Proof/Machine/LoopOps.lean ====
section
/-!
DEFINITION. The loop engine's evaluation (ch07): sources, the control law, destinations and publications, groups, deadline
misses, the configuration checks.
-/

namespace Sys2Proof.Machine

/-! Sources (R236 to R238). -/

/-- A record's value as FLOAT32 by its TYPE; none where the TYPE is not convertible (R237). -/
def recFloat (r : List Byte) : Option Word :=
  let v := numAt r 0 8
  match recType r with
  | 1 => some (F32.ofInt v)
  | 2 => some (F32.ofInt (BitVec.ofNat 32 v).toInt)
  | 3 => some (F32.ofInt (v % 2 ^ 32 : Nat))
  | 4 => some (F32.ofInt (BitVec.ofNat 64 v).toInt)
  | 5 => some (F32.ofInt v)
  | 6 => some (BitVec.ofNat 32 v)
  | 7 => some (F32.ofDouble (BitVec.ofNat 64 v))
  | _ => none

/-- An own point as a source: its value and Q where it is usable (R238). -/
def State.ownSource (s : State) (i : Nat) : Option (Word × Nat) × State :=
  if s.ownCount ≤ i then (none, s)
  else
    let r := s.fetch mEngine (ownRecord i) 32
    let st := recStat r.bytes
    (if r.poison.isSome || st.poison || st.q == qBad || st.q == qNone then none
     else (recFloat r.bytes).map fun v => (v, st.q), r.st)

/-- KIND and REF of a source or destination word. -/
def wKind (w : Word) : Nat := getField w 0 4
def wRef (w : Word) : Nat := getField w 8 20

/-- A source's raw value and Q, where it is usable (R236, R238): for an analog input the latest completed conversion, unless that
found a fault of Table 9-7 (R333). -/
def State.loopSource (s : State) (w : Word) : Option (Word × Nat) × State :=
  let k := wRef w
  match wKind w with
  | 1 => (if k < 8 ∧ (s.ai k).endMt.isSome ∧ !s.on (R.AIO_AI_DATA.FAULT k) then some (F32.ofInt (s.rd (R.AIO_AI_DATA.CODE k)), qGood) else none, s)
  | 2 => s.ownSource k
  | 3 => (if k < 8 ∧ s.rd (R.DIO_CNT_CFG.MODE k) ≠ cntOff then some (F32.ofInt (s.rd (R.DIO_CNT_FREQ.FREQ k)), qGood) else none, s)
  | 4 => (if k < 8 ∧ s.rd (R.DIO_CNT_CFG.MODE k) ≠ cntOff then some (F32.ofInt (s.rd (R.DIO_CNT_VAL.VAL k)), qGood) else none, s)
  | _ => (none, s)

/-! Destinations (R239, R240). -/

/-- An integer within bounds, as the low n bits. -/
def satInt (z lo hi : Int) (n : Nat) : Nat := (max lo (min hi z) % (2 ^ n : Int)).toNat

/-- FLOAT32 converted to an own point's TYPE (R239); for a TYPE without a conversion the value is free. -/
def typedValue (typ : Nat) (x : Word) (fresh : Nat) : Nat :=
  let z := F32.round x
  match typ with
  | 1 => (!F32.lt x 0x3F000000#32).toNat
  | 2 => satInt z (-(2 ^ 31)) (2 ^ 31 - 1) 64
  | 3 => satInt z 0 (2 ^ 32 - 1) 64
  | 4 => satInt z (-(2 ^ 63)) (2 ^ 63 - 1) 64
  | 5 => satInt z 0 (2 ^ 64 - 1) 64
  | 6 => x.toNat
  | 7 => (F32.toDouble x).toNat
  | _ => (Config.free64 fresh).toNat

/-- The force key of an own point, of an analog output (R112). -/
def State.ownKey (s : State) (i : Nat) : Nat := s.ownNode * 2 ^ 20 + i
def aoKey (c : Nat) : Nat := 0x300 + c

/-- The force on an own point. -/
def State.ownForce (s : State) (i : Nat) : Option Nat := if s.ownNode = 0 then none else s.outForce (s.ownKey i)

/-- An own point written by the engine: through the force table where it is forced (R239, R240). -/
def State.loopPoint (s : State) (i : Nat) (x : Word) (q start : Nat) : State :=
  let r := s.ownBytes i
  let v := typedValue (recType r) x s.fresh
  let f := s.ownForce i
  let s := s.taken
  let st : PStat := { recStat r with q := q, stale := false, poison := false, forced := f.isSome, shadow := f.isSome }
  (if f.isSome then s.shadowForce [s.ownKey i] (s.ownKey i) v else s).ownWrite mEngine i (f.getD v) st start

/-- The AO code of an output. -/
def aoCode (u gain ofs : Word) : Nat :=
  let y := F32.add (F32.mul u gain) ofs
  if F32.finite y then satInt (F32.round y) 0 65535 16 else if F32.neg y then 0 else 65535

/-- A destination written (R239, R240). -/
def State.loopDest (s : State) (dest u gain ofs : Word) (q start : Nat) : State :=
  let k := wRef dest
  match wKind dest with
  | 1 =>
    let c := aoCode u gain ofs
    if (s.outForce (aoKey k)).isSome then s.shadowForce [aoKey k] (aoKey k) c else s.aoWrite k c 1
  | 2 => s.loopPoint k u q start
  | _ => s

/-- The forced value of a destination in output units (R240): the inverse of the code's scaling for an analog output. -/
def State.destForce (s : State) (dest gain ofs : Word) : Option Word :=
  let k := wRef dest
  match wKind dest with
  | 1 => (s.outForce (aoKey k)).map fun v => F32.div (F32.sub (F32.ofInt (v % 65536 : Nat)) ofs) gain
  | 2 => (s.ownForce k).bind fun _ => recFloat (s.ownBytes k)
  | _ => none

/-! The control law (R249 to R253). -/

/-- Ts in s (R245, R249). -/
def State.loopTs (s : State) (n : Nat) : Word := F32.mul (F32.ofInt (s.lw n 4).toNat) F32.millionth

/-- A coefficient check fails (R250). -/
def State.badCoef (s : State) (n : Nat) : Bool :=
  let w := fun ofs => s.lw n ofs
  ((List.range 17).any fun k => !F32.finite (w (0x20 + 4 * k))) ||
    [0x20, 0x24, 0x28, 0x2C, 0x3C, 0x40].any (fun o => F32.lt (w o) 0#32) ||
    F32.lt (w 0x30) 0#32 || F32.lt F32.one (w 0x30)

/-- The effective set-point (R251). -/
def ramp (last target rate ts : Word) : Word :=
  if F32.lt 0#32 rate then
    let st := F32.mul rate ts
    F32.clamp target (F32.sub last st) (F32.add last st)
  else target

/-- p of R249 with a gain and a set-point weight. -/
def propTerm (rev : Bool) (k b pv sp : Word) : Word :=
  F32.mul k (if rev then F32.sub pv (F32.mul b sp) else F32.sub (F32.mul b sp) pv)

/-- The law of R249 on scaled inputs, and its MAN and TRACK forms (R253): `track` is the output that is applied instead of the
law's. -/
def State.loopLaw (s : State) (ev : LoopEv) (track : Option Word) (first : Bool) : LoopEv :=
  let n := ev.n
  let pv := ev.pv
  let sp := ev.sp
  let w := fun ofs => s.lw n ofs
  let c := s.lw n 0
  let rev := c.getLsbD 3
  let ts := s.loopTs n
  let out := w 0x8C
  let e := if rev then F32.sub pv sp else F32.sub sp pv
  let i0 := if w 0x20 ≠ w 0x98 ∨ w 0x30 ≠ w 0x9C then
      F32.add (w 0x80) (F32.sub (propTerm rev (w 0x98) (w 0x9C) pv sp) (propTerm rev (w 0x20) (w 0x30) pv sp)) else w 0x80
  let p := propTerm rev (w 0x20) (w 0x30) pv sp
  let i0 := if first then F32.sub out p else i0
  let i := F32.add i0 (F32.mul (F32.mul (w 0x24) ts) e)
  let x := if c.getLsbD 4 then (if rev then pv else F32.minus pv) else e
  let xprev := if s.lstat n lsGap then x else w 0x88
  let a := F32.div (w 0x2C) (F32.add (w 0x2C) ts)
  let d0 := if first then 0#32 else w 0x84
  let d := F32.add (F32.mul a d0)
    (F32.div (F32.mul (F32.mul (F32.sub F32.one a) (w 0x28)) (F32.sub x xprev)) ts)
  let ev := { ev with d := d, x := x, p := p, law := true, gap := some false }
  match track with
  | some v => { ev with u := v, i := F32.sub (F32.sub v p) d }
  | none =>
    let u0 := F32.add (F32.add p i) d
    let u := match ev.lim with
      | some lim => F32.clamp u0 (F32.sub out lim) (F32.add out lim)
      | none => u0
    let u := F32.clamp u ev.lo ev.hi
    let same := F32.finite u0 && F32.scaled u == F32.scaled u0
    { ev with u := u, i := if same then i else F32.sub (F32.sub u p) d, sat := !same }

/-- Every result of the law is finite (R250). -/
def LoopEv.finite (v : LoopEv) : Bool :=
  [v.pv, v.sp, v.u, v.i, v.d, v.x, v.p].all F32.finite

/-- The output that is applied in place of the law's (Table 7-5): the forced value, MANOUT, or the track point's value within
the limits, and the last output while that is unusable, which the flag tells. -/
def State.trackOut (s : State) (n mode : Nat) (forced trk manOut : Option Word) : Option Word × Bool :=
  let limited := fun v => F32.clamp v (s.lw n 0x38) (s.lw n 0x34)
  match forced with
  | some v => (some (limited v), false)
  | none =>
    if mode = lmMan then (some (manOut.getD (s.lw n 0x58)), false)
    else if mode = lmTrack then
      match trk with
      | some v => if F32.isNaN v then (some (s.lw n 0x8C), true) else (some (limited v), false)
      | none => (some (s.lw n 0x8C), true)
    else (none, false)

/-- A loop evaluated on its record as it stands now (R249 to R254): what it gives, nothing of it written yet. `forced` is what a
forced destination makes it track (R240). In ASSIST mode an evaluation in AUTO with usable sources goes to the server (R260). -/
def State.loopBegin (s : State) (n : Nat) (forced : Option Word) : LoopEv × State :=
  let w := fun ofs => s.lw n ofs
  let mode := s.loopMode n
  let y := s.loopX n
  let (pvS, t) := s.loopSource (w 0x0C)
  let (spS, t) := if wKind (w 0x10) = 0 then (some (w 0x54, qGood), t) else t.loopSource (w 0x10)
  let (trk, t) := if mode = lmTrack ∧ forced.isNone then t.ownSource (getField (w 0x1C) 0 20) else (none, t)
  let manOut := if mode = lmMan ∧ (y.lastMode = lmAuto ∨ y.lastMode = lmTrack) then some (w 0x8C) else none
  let (applied, heldOut) := s.trackOut n mode forced (trk.map (·.1)) manOut
  let auto := mode == lmAuto && forced.isNone
  let ev : LoopEv :=
    { n := n, mode := mode, pv := w 0x90, sp := w 0x94, pvBad := pvS.isNone, spBad := spS.isNone, badCoef := s.badCoef n
      limInv := F32.lt (w 0x34) (w 0x38), trkFrc := forced.isSome, manOut := manOut, kp := w 0x20, b := w 0x30
      out := w 0x8C, lim := if F32.lt 0#32 (w 0x3C) then some (F32.mul (w 0x3C) (s.loopTs n)) else none
      lo := w 0x38, hi := w 0x34, gain := w 0x5C, ofs := w 0x60, heldOut := heldOut
      q := match pvS with | some (_, q) => q | none => qBad
      start := s.mtNs }
  let held := { ev with hold := true, heldOut := true }
  if ev.badCoef || ev.limInv then ({ held with gap := if ev.pvBad ∧ mode = lmAuto then some true else none }, t)
  else
    match pvS with
    | none =>
      match applied with
      | none => ({ held with gap := some true }, t)
      | some u => ({ ev with u := u, gap := some true }, t)
    | some (raw, _) =>
      let pv := F32.add (F32.mul (w 0x44) raw) (w 0x48)
      let target := match spS with
        | some (r, _) => if wKind (w 0x10) = 0 then r else F32.add (F32.mul (w 0x4C) r) (w 0x50)
        | none => w 0x94
      let sp := if !auto && (w 0).getLsbD 5 then pv else ramp (w 0x94) target (w 0x40) (s.loopTs n)
      let ev := { ev with pv := pv, sp := sp }
      if auto && s.assist .loop && (w 0).getLsbD 6 && !ev.spBad then
        ({ ev with served := true, waits := true, gap := some false }, t)
      else
        let v := s.loopLaw ev applied y.first
        if v.finite then ({ v with eligible := auto }, t) else ({ held with numErr := true, gap := some true }, t)

/-- A status flag that follows a condition, with what its entry and its exit do. -/
def State.loopFlag (s : State) (n b : Nat) (on : Bool) (entry : State → State) (exit : State → State := id) : State :=
  let was := s.lstat n b
  let s := s.setLstat n b on
  if on && !was then entry s else if was && !on then exit s else s

/-- The end of an evaluation (R234, R250, R252, R264): the status word, LASTMT and EVALCNT, with the events of the flags, and the
loop's bookkeeping. -/
def State.loopNoted (s : State) (v : LoopEv) : State :=
  let n := v.n
  let s := match v.manOut with | some u => s.setLw n 0x58 u | none => s
  let s := s.setLw n 0xA0 (putField (s.lw n 0xA0) 16 3 (if s.loopMode n = lmOff then lmOff else v.mode))
  let s := s.loopFlag n lsPvbad v.pvBad
    (fun s => ((s.bump R.LOOP_CNT_PVBAD.COUNT).raise R.LOOP_INTSTAT.PVBAD).event 0x0700 (unit := n))
    (fun s => s.event 0x0701 (unit := n))
  let s := s.setLstat n lsSpbad v.spBad
  let s := s.loopFlag n lsBadcoef v.badCoef fun s => (s.raise R.LOOP_INTSTAT.BADCOEF).event 0x0702 (unit := n)
  let s := s.loopFlag n lsLiminv v.limInv fun s => (s.raise R.LOOP_INTSTAT.BADCOEF).event 0x0705 (unit := n)
  let s := s.loopFlag n lsNumerr v.numErr fun s => s.raise R.LOOP_INTSTAT.BADCOEF
  let s := ((s.setLstat n lsTrkfrc v.trkFrc).setLstat n lsLoser false).setLstat n lsSat v.sat
  let s := match v.gap with | some g => s.setLstat n lsGap g | none => s
  let s := (s.setLw n 0xA8 (BitVec.ofNat 32 v.start)).setLw n 0xAC (BitVec.ofNat 32 (v.start / 2 ^ 32))
  let s := (s.setLw n 0xB0 (s.lw n 0xB0 + 1)).bump R.LOOP_CNT_EVAL.COUNT
  s.setLoopX n { s.loopX n with lastMode := v.mode, first := (s.loopX n).first && v.hold }

/-! Publications (R259). -/

def State.publish (s : State) (v : LoopEv) : State :=
  let w := s.lw v.n 0x18
  let x := s.loopX v.n
  if !w.getLsbD 20 then s
  else if x.pub + 1 < getField w 24 8 then s.setLoopX v.n { x with pub := x.pub + 1 }
  else
    let s := s.setLoopX v.n { x with pub := 0 }
    let k := getField w 0 20
    let s := s.loopPoint k (s.lw v.n 0x90) (if v.pvBad then qBad else v.q) v.start
    let s := s.loopPoint (k + 1) (s.lw v.n 0x94) (if v.spBad then qUncertain else qGood) v.start
    s.loopPoint (k + 2) (s.lw v.n 0xB4) (if v.heldOut then qUncertain else qGood) v.start

/-! State written back (R234, R257). -/

/-- The state words of an evaluation that applies, with the output that is applied: KPLAST and BLAST are what it used (R254); I
and D of a served loop are the server's (R261). -/
def State.writeBack (s : State) (v : LoopEv) (out : Word) : State :=
  let n := v.n
  let s := (s.setLw n 0x8C out).setLw n 0xB4 v.u
  let s := if v.served || !v.law then s else
    ((((s.setLw n 0x80 v.i).setLw n 0x84 v.d).setLw n 0x88 v.x).setLw n 0x98 v.kp).setLw n 0x9C v.b
  if v.law || v.served then (s.setLw n 0x90 v.pv).setLw n 0x94 v.sp else s

/-- An evaluation whose integral follows an output that is not its own request (R253): i = out − p − d. -/
def LoopEv.tracking (v : LoopEv) (out : Word) : LoopEv :=
  if v.law then { v with i := F32.sub (F32.sub out v.p) v.d } else v

/-! Deadline misses (R246). -/

/-- An own-point destination rewritten with Q UNCERTAIN. -/
def State.missDest (s : State) (dest : Word) : State :=
  if wKind dest = 2 ∧ wRef dest < s.ownCount then
    let r := s.ownBytes (wRef dest)
    s.ownWrite mEngine (wRef dest) (recVal r) { recStat r with q := qUncertain } s.mtNs
  else s

/-- A miss of a loop; LOOP_MISS at most once per loop per second. -/
def State.loopMiss (s : State) (n : Nat) : State :=
  let w := s.lw n 0xA4
  let s := s.setLw n 0xA4 (putField w 0 16 (min (getField w 0 16 + 1) 0xFFFF))
  let s := ((s.bump R.LOOP_CNT_MISS.COUNT).setLstat n lsMiss true).setLstat n lsGap true
  let s := s.raise R.LOOP_INTSTAT.MISS
  let x := s.loopX n
  let s := if dueAgain x.missAt s.now sec then (s.setLoopX n { x with missAt := some s.now }).event 0x0703 (unit := n) else s
  match s.groupOf n with
  | some g => s.missDest (s.gw g 3)
  | none => s.missDest (s.lw n 0x14)

/-- A descriptor posted for an evaluation in AUTO (R260, Table 7-9), its flags those of the evaluation before; the flag tells
whether the ring took it. A refused post is a miss (R246). -/
def State.loopPost (s : State) (v : LoopEv) (grp : Nat) : Bool × State :=
  let n := v.n
  let x := s.loopX n
  let flags := (s.lstat n lsSat).toNat + 2 * (s.lstat n lsLoser).toNat + 4 * (s.lstat n lsGap).toNat +
    8 * (x.lastMode != lmAuto || x.first).toNat
  let arg := bytesLE v.pv.toNat 4 ++ bytesLE v.sp.toNat 4 ++ bytesLE v.out.toNat 4 ++ bytesLE flags 1 ++ zeros 3
  match s.asnPost .loop 3 (n + 256 * grp) arg false [n] (some 0) with
  | (true, s) => (true, s.setLoopX n { s.loopX n with posted := true })
  | (false, s) => (false, s.loopMiss n)

/-! A loop by itself. -/

/-- LOOP_LOAD: the configured demand in 0.01 % of 6,250,000 evaluations a second (R244). -/
def State.syncLoad (s : State) : State :=
  let per := fun n => max 1 (s.lw n 4).toNat
  let r : Rat := (s.liveLoops.map fun n => (1600 : Rat) / per n).sum +
    ((below 32 s.groupOn).map fun g =>
      (40 * (8 + 4 * (s.members g).length) : Rat) / per ((s.members g).headD 0)).sum
  s.wr R.LOOP_LOAD.LOAD (min r.floor.toNat 9216)

/-- MODE becomes OFF by the engine's own doing: MODE_ACT and LOOP_LOAD follow. -/
def State.loopToOff (s : State) (n : Nat) : State :=
  let s := s.setLw n 0 (putField (s.lw n 0) 0 3 lmOff)
  (s.setLw n 0xA0 (putField (s.lw n 0xA0) 16 3 lmOff)).syncLoad

/-- A loop's record is unreadable: the loop stops (R263). -/
def State.loopPoisoned (s : State) (n : Nat) : State :=
  (((s.loopToOff n).setLstat n lsPoison true).raise R.LOOP_INTSTAT.POISON).event 0x0704 (unit := n)

/-- What an evaluation gives is applied to the loop's own destination. -/
def State.loopApply (s : State) (v : LoopEv) : State :=
  let s := s.loopNoted v
  if v.hold then s.publish v
  else ((s.writeBack v v.u).loopDest (s.lw v.n 0x14) v.u v.gain v.ofs qGood v.start).publish v

/-- One loop evaluated (R243, R249, R260). -/
def State.loopRun (s : State) (n : Nat) : State :=
  if s.loopMode n = lmOff then s
  else if (s.loopX n).bad ≠ 0 then s.loopPoisoned n
  else
    let (v, s) := s.loopBegin n (s.destForce (s.lw n 0x14) (s.lw n 0x5C) (s.lw n 0x60))
    if v.waits then
      match s.loopPost v 0 with
      | (true, s) => { s with loop := { s.loop with singles := s.loop.singles ++ [v] } }
      | (false, s) => s
    else s.loopApply v

/-! Groups (R256 to R258). -/

/-- The lowest request among the eligible, the earlier one on a tie. -/
def lowest : List LoopEv → Option LoopEv
  | [] => none
  | v :: vs =>
    match lowest vs with
    | some b => if F32.lt b.u v.u then some b else some v
    | none => some v

/-- A member's state with no member eligible (R253, R258): the group holds its output, which the member tracks. -/
def State.memberAlone (s : State) (v : LoopEv) : State :=
  let v := { v with heldOut := true }
  let s := s.loopNoted v
  let out := s.lw v.n 0x8C
  (if v.hold then s else s.writeBack (v.tracking out) out).publish v

/-- A member's state under a selected output (R257 steps 2 to 4). While the group's destination is forced, the output is the
forced value and the winner tracks it (R240; notes/assumptions/160). -/
def State.memberUnder (s : State) (win : Nat) (forced : Bool) (out : Word) (v : LoopEv) : State :=
  let n := v.n
  let s := s.loopNoted v
  let loser := v.mode == lmAuto && n != win
  let s :=
    if v.hold then s.setLw n 0x8C out
    else if v.mode = lmAuto ∧ (!forced ∨ loser) then s.writeBack v out
    else s.writeBack (v.tracking out) out
  let s := if loser then (if v.served then s else s.setLw n 0x80 out).setLstat n lsLoser true else s
  s.publish v

/-- A group's selection (R257, R258). A member that missed keeps everything (R246). -/
def State.groupSelect (s : State) (g : Nat) (all : List LoopEv) : State :=
  let vs := all.filter fun v => !v.missed && s.loopMode v.n != lmOff
  let start := match vs with | v :: _ => v.start | [] => s.mtNs
  let frc := s.destForce (s.gw g 3) (s.gw g 5) (s.gw g 6)
  match lowest (vs.filter (·.eligible)) with
  | none =>
    let was := s.on (R.LOOP_GRP_STAT.NONE g)
    let s := (s.setGw g 2 (putField (s.gw g 2) 8 8 0xFF)).wr (R.LOOP_GRP_STAT.SEL g) 0xFF
    let s := (s.raise (R.LOOP_GRP_STAT.NONE g)).raise R.LOOP_INTSTAT.GRPNONE
    let s := if was then s else s.event 0x0707 (unit := g)
    s.each vs State.memberAlone
  | some win =>
    let pos := (s.members g).findIdx (· == win.n)
    let s := (s.setGw g 2 (putField (s.gw g 2) 8 8 pos)).setGw g 4 win.u
    let s := (s.wr (R.LOOP_GRP_STAT.SEL g) win.n).clear (R.LOOP_GRP_STAT.NONE g)
    let s := s.loopDest (s.gw g 3) win.u (s.gw g 5) (s.gw g 6) qGood start
    s.each vs fun s v => s.memberUnder win.n frc.isSome (frc.getD win.u) v

/-- One group evaluated, member after member (R243, R257, R260). -/
def State.groupRun (s : State) (g : Nat) : State :=
  let frc := s.destForce (s.gw g 3) (s.gw g 5) (s.gw g 6)
  let go := fun (acc : List LoopEv × State) (n : Nat) =>
    let s := acc.2
    if s.loopMode n = lmOff then acc
    else if (s.loopX n).bad ≠ 0 then (acc.1, s.loopPoisoned n)
    else
      let (v, s) := s.loopBegin n (if s.loopMode n = lmAuto then none else frc)
      let v := { v with trkFrc := frc.isSome }
      if v.waits then
        match s.loopPost v (g + 1) with
        | (true, s) => (acc.1 ++ [v], s)
        | (false, s) => (acc.1 ++ [{ v with waits := false, missed := true }], s)
      else (acc.1 ++ [v], s)
  let (vs, s) := (s.members g).foldl go ([], s)
  if vs.any (·.waits) then { s with loop := { s.loop with waiting := s.loop.waiting.filter (·.1 != g) ++ [(g, vs)] } }
  else s.groupSelect g vs

/-! Answers of the server (R261). -/

/-- A requested output under the rate limit and the limits that stood as the evaluation began (R254). -/
def LoopEv.servedOut (v : LoopEv) (u : Word) : Word :=
  let r := match v.lim with
    | some lim => F32.clamp u (F32.sub v.out lim) (F32.add v.out lim)
    | none => u
  F32.clamp r v.lo v.hi

/-- A waiting evaluation with its answer: the limited request, or a miss. -/
def LoopEv.filled (v : LoopEv) (u : Option Word) : LoopEv :=
  match u with
  | some req => { v with waits := false, u := v.servedOut req, sat := v.servedOut req != req, eligible := true }
  | none => { v with waits := false, missed := true }

/-- An answer for loop n: an OK one with its requested output, or a miss (R246, R261). A loop that has gone OFF meanwhile takes
none; a group selects once every posted member has its answer. -/
def State.loopAnswer (s : State) (n : Nat) (req : Option Word) : State :=
  let s := s.setLoopX n { s.loopX n with posted := false }
  let u := req.bind fun w => if F32.finite w then some w else none
  let s := if u.isNone && s.loopMode n != lmOff then s.loopMiss n else s
  match s.loop.waiting.find? fun (_, vs) => vs.any fun v => v.n == n && v.waits with
  | some (g, vs) =>
    let vs := vs.map fun v => if v.n == n then v.filled u else v
    let rest := s.loop.waiting.filter (·.1 != g)
    if vs.any (·.waits) then { s with loop := { s.loop with waiting := rest ++ [(g, vs)] } }
    else State.groupSelect { s with loop := { s.loop with waiting := rest } } g vs
  | none =>
    match takeFirst (fun v => v.n == n) s.loop.singles with
    | some (v, rest) =>
      let s : State := { s with loop := { s.loop with singles := rest } }
      if u.isNone || s.loopMode n = lmOff then s else s.loopApply (v.filled u)
    | none => s

/-- A reaped FUNC 3 result; one after its timeout has been counted as a miss already (R41). -/
def State.loopResult (r : Reaped) : State :=
  match r.post.ctx with
  | [n] => if r.post.timedOut then r.st
           else r.st.loopAnswer n (if r.ok then some (BitVec.ofNat 32 (numAt r.result 0 4)) else none)
  | _ => r.st

def State.loopTimeout (s : State) (p : AsnPost) : State :=
  match p.ctx with
  | [n] => s.loopAnswer n none
  | _ => s

/-! Checks (R241, R256). -/

/-- A source word names nothing it may (Table 7-3). -/
def State.srcBad (s : State) (w : Word) (sp : Bool) : Bool :=
  match wKind w with
  | 0 => !sp
  | 1 => 8 ≤ wRef w
  | 2 => s.ownCount ≤ wRef w
  | 3 => 8 ≤ wRef w
  | 4 => 8 ≤ wRef w
  | _ => true

def State.destBad (s : State) (w : Word) : Bool :=
  match wKind w with
  | 0 => false
  | 1 => 8 ≤ wRef w
  | 2 => s.ownCount ≤ wRef w
  | _ => true

/-- The AO channel of a destination word. -/
def aoOf (w : Word) : Option Nat := if wKind w = 1 then some (wRef w) else none

/-- The AO channel a loop writes: its own destination, or its group's. -/
def State.loopAo (s : State) (n : Nat) : Option Nat :=
  match s.groupOf n with
  | some g => aoOf (s.gw g 3)
  | none => aoOf (s.lw n 0x14)

/-- The AO channels named by loops and groups not in OFF, loop n and its group left out (R239, R241). -/
def State.aoNamed (s : State) (n : Nat) : List Nat :=
  let live := fun g => s.groupOn g && s.groupOf n != some g && (s.members g).any fun m => s.loopMode m != lmOff
  ((s.liveLoops.filter fun m => m != n && (s.groupOf m).isNone).filterMap fun m => aoOf (s.lw m 0x14)) ++
    (below 32 live).filterMap fun g => aoOf (s.gw g 3)

/-- CFGCODE of a loop that is to run in a mode; none where every check passes (R241). -/
def State.loopCfg (s : State) (n mode : Nat) : Option Nat :=
  let per := (s.lw n 4).toNat
  let dest := s.lw n 0x14
  let pub := s.lw n 0x18
  if per < 50 ∨ 60000000 < per then some 1
  else if per ≤ (s.lw n 8).toNat then some 2
  else if s.srcBad (s.lw n 0x0C) false then some 3
  else if s.srcBad (s.lw n 0x10) true then some 4
  else if s.destBad dest ∨ (wKind dest ≠ 0 ∧ (s.groupOf n).isSome) then some 5
  else if pub.getLsbD 20 ∧ (getField pub 24 8 = 0 ∨ s.ownCount ≤ getField pub 0 20 + 2) then some 6
  else if mode = lmTrack ∧ s.ownCount ≤ getField (s.lw n 0x1C) 0 20 then some 7
  else if (s.loopAo n).any (s.aoNamed n).contains then some 8
  else none

/-- A loop returned to OFF by a failing check. -/
def State.cfgFailed (s : State) (n code : Nat) : State :=
  let s := s.loopToOff n
  let s := s.setLw n 0xA0 (putField (putField (s.lw n 0xA0) lsCfgerr 1 1) 12 4 code)
  (s.raise R.LOOP_INTSTAT.CFGERR).event 0x0706 (unit := n) (val1 := code)

/-- A group that EN finds wrong (R256). -/
def State.groupBad (s : State) (g : Nat) : Bool :=
  let ms := s.members g
  ms.length < 2 || ms.any (fun n => ms.count n != 1 || (below 32 fun h => h != g && s.groupOn h).any fun h =>
    (s.members h).contains n) ||
    ms.any (fun n => s.lw n 4 != s.lw (ms.headD 0) 4 || s.lw n 8 != s.lw (ms.headD 0) 8) || s.destBad (s.gw g 3)

/-- FCAUSE and FARG of LOOP_STAT; none where the checks pass (Table 7-12). -/
def State.loopFault (s : State) : Option (Nat × Nat) :=
  match (List.range 32).find? fun g => s.groupOn g && s.groupBad g with
  | some g => some (1, g)
  | none => if s.on UnitId.loop.MODE && s.ringBad .loop then some (3, 0) else none

/-- RUN entered: every loop not in OFF checked again (R241). -/
def State.loopStart (s : State) : State :=
  let s := s.each s.liveLoops fun s n =>
    match s.loopCfg n (s.loopMode n) with
    | some c => s.cfgFailed n c
    | none => s
  let s := s.each (s.loop.loops.map (·.1)) fun s n => s.setLoopX n { s.loopX n with armed := false, posted := false }
  ({ s with loop := { s.loop with queue := [], waiting := [], singles := [], groups := [] } } : State).syncLoad

/-- RESUMEALL for both blocks, once every task that owns a local output has committed and, where they are waited for, every
loop that serves an analog output, by itself or in a group, has made an evaluation (R454, R559). -/
def State.resumeWhenDue (s : State) : State :=
  let owners := s.cfgTasks.filter fun t => (s.outList t).any fun e => e.kind == kDo || e.kind == kAo
  let ao := fun n =>
    wKind (s.lw n 0x14) == 1 || (match s.groupOf n with | some g => wKind (s.gw g 3) == 1 | none => false)
  let early := s.liveLoops.any fun n => ao n && (s.loopX n).first
  if s.pair.resumeDue && owners.all s.pair.committed.contains && !(s.pair.resumeLoops && early) then
    ({ s with pair := { s.pair with resumeDue := false } }.resumeAll false).resumeAll true
  else s

/-- Posted descriptors awaiting a result are the unit of work in ASSIST mode (Table 1-10). -/
def State.loopDrained (s : State) : Bool := (s.loop.loops.filter fun (_, x) => x.posted).isEmpty

end Sys2Proof.Machine
end

