-- ==== Sys2Proof/Machine/Memory.lean ====
section
/-!
DEFINITION. The memory-integrity block's commands (ch11): the rewrite queue, the Dresser's sweeps, the leaky buckets, the
injections, the stripe window and the spare-row map.
-/

namespace Sys2Proof.Machine

/-- A shared SRAM word rewritten with its rebuilt lanes (R377, R379): the stripe is left alone, and already matches. -/
def State.rewriteRebuilt (s : State) (w : Nat) : State :=
  let k := rowOf w
  let d := s.sdiff k &&& laneMask (s.flaw w).invalid
  ((s.putWord w (s.word w ^^^ d)).setSdiff k (s.sdiff k ^^^ d)).setFlaw w {}

/-- A stripe word's failing lanes recomputed from the 16 data words (Table 11-1). -/
def State.rewriteStripe (s : State) (k : Nat) : State :=
  (s.setSdiff k (s.sdiff k &&& ~~~laneMask (s.spar k))).setSpar k 0

/-- The rewrite queue's oldest word, read again and, if it still fails, rewritten (R379). -/
def State.rewriteNext (s : State) : State :=
  match s.integ.rewriteQ with
  | [] => s
  | w :: rest =>
    let s : State := { s with integ := { s.integ with rewriteQ := rest } }
    if stripeWindow ≤ w ∧ w < stripeWindow + 65536 then s.rewriteStripe (w - stripeWindow)
    else
      let f := s.flaw w
      if !f.poisoned && f.invalid != 0 && !f.tagOpen && s.lost w == 0 then s.rewriteRebuilt w else s

/-- REWRITE_QUEUE_SERVICE (R379). -/
def execRewriteQueueService (s : State) : Host.Outcome State Fault Refusal :=
  .next (if s.running .mem then s.rewriteNext else s)

/-- A correction in a physical row noted (R398): how many consecutive sweeps have corrected it. -/
def State.noteCorrected (s : State) (bank row : Nat) : State :=
  let key := bank * 512 + row
  let sweep := s.rd R.MEM_DRS_SWEEPS.SWEEPS
  let old := SMap.get (fun _ => (0, 0)) s.integ.corrRows key
  let n := if old.2 = 0 then 1 else if old.1 = sweep then old.2 else if old.1 + 1 = sweep then old.2 + 1 else 1
  { s with integ := { s.integ with corrRows := SMap.set (fun _ => (0, 0)) s.integ.corrRows key (sweep, n) } }

/-- A spare-row map entry (R397). -/
def State.spare (s : State) (e : Nat) : SpareEntry := SMap.get (fun _ => {}) s.integ.spares e

def State.setSpare (s : State) (e : Nat) (x : SpareEntry) : State :=
  { s with integ := { s.integ with spares := SMap.set (fun _ => {}) s.integ.spares e x } }

/-- A bank's free spare (R398). -/
def State.freeSpare (s : State) (bank : Nat) : Option Nat := (List.range 8).find? fun i => !(s.spare (8 * bank + i)).valid

/-- A row that REPEAT consecutive sweeps have corrected goes into repair, or its bank is out of spares (R398, R399). -/
def State.considerRepair (s : State) (bank row : Nat) : State :=
  let n := (SMap.get (fun _ => (0, 0)) s.integ.corrRows (bank * 512 + row)).2
  if n < s.rd R.MEM_DRS_CFG.REPEAT ∨ s.integ.repair.isSome then s
  else
    match s.freeSpare bank with
    | some i =>
      ({ s with integ := { s.integ with repair := some { bank := bank, row := row, spare := i } } }).raise
        R.MEM_STAT.REPAIRING
    | none =>
      if s.integ.spareOut.getLsbD bank then s
      else
        let out := s.integ.spareOut ||| BitVec.ofNat 17 (2 ^ bank)
        (({ s with integ := { s.integ with spareOut := out } }).raise R.MEM_INTSTAT.SPAREOUT).event 0x0B04
          (unit := bank)

/-- One word settled (R394): tags, failing lanes rebuilt and rewritten, or the word poisoned; whether an error was corrected. `lost`
is taken before the step changes any word of the row. -/
def State.mendWord (s : State) (k b : Nat) (lost : BitVec 8) : Bool × State :=
  let w := rowWord k b
  let f := s.flaw w
  if f.tagSettled then
    (false, (s.bump R.MEM_CNT_TAGFIX.COUNT).setFlaw w (if f.par = 0 then {} else poisonFlaw))
  else if f.tagOpen then (false, s.poison mDresser w f.invalid)
  else if f.invalid = 0 then (false, s)
  else if f.poisoned then (false, s.setFlaw w poisonFlaw)
  else if lost ≠ 0 then (false, s.poison mDresser w f.invalid)
  else (true, (s.rewriteRebuilt w).corrected 0)

/-- One word in a scrub step; a correction counts towards a repair of its row (R394, R398). -/
def State.scrubWord (s : State) (k b : Nat) (lost : BitVec 8) : State :=
  match s.mendWord k b lost with
  | (true, s) => (s.noteCorrected b (k / 128)).considerRepair b (k / 128)
  | (false, s) => s

/-- The stripe word's failing lanes recomputed from the 16 data words (Table 11-1, R394). -/
def State.scrubStripe (s : State) (k : Nat) : State :=
  if s.spar k = 0 then s
  else (((s.rewriteStripe k).corrected 1).noteCorrected 16 (k / 128)).considerRepair 16 (k / 128)

/-- One word of a repair's copy, corrected as it is read (R398). -/
def State.copyWord (s : State) (bank k : Nat) : State :=
  if bank = 16 then (if s.spar k = 0 then s else (s.rewriteStripe k).corrected 1)
  else (s.mendWord k bank (s.lost (rowWord k bank))).2

/-- Eight words of a repair's copy; at the last the map entry becomes valid (R398). -/
def State.repairStep (s : State) : State :=
  match s.integ.repair with
  | none => s
  | some r =>
    let s := s.each (List.range 8) fun s i => s.copyWord r.bank (128 * r.row + r.copied + i)
    if r.copied + 8 < 128 then
      { s with integ := { s.integ with repair := some { r with copied := r.copied + 8 } } }
    else
      let s := s.setSpare (8 * r.bank + r.spare) { row := r.row, valid := true }
      let s := { s with integ := { s.integ with
        repair := none
        corrRows := SMap.set (fun _ => (0, 0)) s.integ.corrRows (r.bank * 512 + r.row) (0, 0) } }
      (((s.clear R.MEM_STAT.REPAIRING).raise R.MEM_INTSTAT.REPAIR).bump R.MEM_CNT_REPAIR.COUNT).event 0x0B03
        (unit := r.bank) (subj := r.row)

/-- The lanes in which a row's stripe word disagrees with its data words. -/
def laneDiff (d : Word64) : Nat :=
  (List.range 8).foldl (fun acc j => acc + (if d.toNat / 256 ^ j % 256 = 0 then 0 else 2 ^ j)) 0

/-- The consistency check (R395). -/
def State.consistency (s : State) (k : Nat) : State :=
  let d := s.sdiff k
  if d = 0 then s
  else
    let s := ((s.bump R.MEM_CNT_STRMIS.COUNT).raise R.MEM_INTSTAT.STRMIS).event 0x0B02
      (subj := 0x10000000 + 128 * k) (val1 := laneDiff d)
    let s := s.setSdiff k 0
    if s.on R.MEM_DRS_CFG.MISPOL then s
    else s.each (List.range 16) fun s b => s.setFlaw (rowWord k b) poisonFlaw

/-- The whole rewrite queue served; `n` bounds it. -/
def State.rewriteAll (s : State) : Nat → State
  | 0 => s
  | n + 1 => State.rewriteAll s.rewriteNext n

/-- SCRUB_STEP (R394, R395, R398): the rewrite queue first, then one stripe row. -/
def execScrubStep (s : State) : Host.Outcome State Fault Refusal :=
  .next (
    if !s.working .mem then s
    else
      let s := s.rewriteAll 16
      let k := s.rd R.MEM_DRS_POS.POS
      let lost := (List.range 16).map fun b => s.lost (rowWord k b)
      let s := s.each (List.range 16) fun s b => s.scrubWord k b (lost.getD b 0)
      let s := ((s.scrubStripe k).consistency k).repairStep
      let s := s.wr R.MEM_DRS_POS.POS (k + 1)
      if k = 65535 then (s.wrap R.MEM_DRS_SWEEPS.SWEEPS).raise R.MEM_INTSTAT.SWEEP else s)

/-- SECDED_SCRUB (R396): the next word of the core-local memories, the SECDED memories whose words can fail here. -/
def execSecdedScrub (s : State) : Host.Outcome State Fault Refusal :=
  .next (
    if !s.running .mem then s
    else
      let pos := s.integ.secPos
      let s := (s.readWord mDresser (0x09000000 / 8 + pos)).st
      { s with integ := { s.integ with secPos := (pos + 1) % (0x880000 / 8) } })

/-- BUCKET_LEAK (R393): 1 is taken from a level above 0. -/
def execBucketLeak (k : Nat) (s : State) : Host.Outcome State Fault Refusal :=
  onUnit (k < 7) (s.wr (R.MEM_LB_STAT.LEVEL k) (s.rd (R.MEM_LB_STAT.LEVEL k) - 1))

/-- The address an injection may alter (R402). -/
def injectable (a : Nat) : Bool :=
  (0x10000000 ≤ a && a < 0x10800000) || (0x18000000 ≤ a && a < 0x18080000) ||
    (0x09000000 ≤ a && a < 0x09880000 && aliasMapped a) || (0x80000000 ≤ a && a < 0xF0000000)

/-- What an injection alters: bits of the data, parity bits, tag 0. -/
structure Injection where
  data : Word64 := 0
  par : BitVec 8 := 0
  tag : Bool := false
  flips : BitVec 72 := 0
  poison : Bool := false

/-- Bit o of each selected lane. -/
def laneBits (l : BitVec 8) (o : Nat) : Word64 :=
  BitVec.ofNat 64 ((List.range 8).foldl (fun acc j => acc + (if l.getLsbD j then 2 ^ o * 256 ^ j else 0)) 0)

/-- An injection into the word at an address (R402): the stripe is not updated. -/
def State.alter (s : State) (a : Nat) (i : Injection) : State :=
  if 0x18000000 ≤ a ∧ a < 0x18080000 then
    let k := (a - 0x18000000) / 8
    (s.setSdiff k (s.sdiff k ^^^ i.data)).setSpar k (s.spar k ^^^ i.par)
  else
    let w := wordOf a
    let f := s.flaw w
    if i.poison then s.setFlaw w poisonFlaw
    else if isLocal w then
      s.setFlaw w { f with flips := f.flips ^^^ i.flips ^^^ (i.data.setWidth 72 ^^^ (i.par.setWidth 72 <<< 64))
                           tags := if i.tag then f.tags ^^^ 1#2 else f.tags }
    else
      let s := if isShared w then s.setSdiff (rowOf w) (s.sdiff (rowOf w) ^^^ i.data) else s
      (s.putWord w (s.word w ^^^ i.data)).setFlaw w
        { f with par := f.par ^^^ i.par, tags := if i.tag && isShared w then f.tags ^^^ 1#2 else f.tags }

/-- MEM_INJ_CTRL's GO (R402): NOTTEST outside TEST, BADADDR, else the word is altered. -/
def State.inject (s : State) (kind : Nat) (lanes : BitVec 8) (i : Injection) : State :=
  let s := (s.wr R.MEM_INJ_CTRL.KIND kind).wr R.MEM_INJ_CTRL.LANES lanes.toNat
  let a := 8 * s.rd R.MEM_INJ_ADDR.WADDR
  if s.rd R.MEM_PHASE.PHASE ≠ 2 then (s.wr R.MEM_INJ_CTRL.RESULT 1).raise R.MEM_INTSTAT.WRREJ
  else if !injectable a then s.wr R.MEM_INJ_CTRL.RESULT 2
  else (s.alter a i).wr R.MEM_INJ_CTRL.RESULT 0

/-- INJECT_ODD (R402): bit 0 of each lane flips, so its parity fails. -/
def execInjectOdd (lanes : BitVec 8) (s : State) : Host.Outcome State Fault Refusal :=
  .next (s.inject 1 lanes { data := laneBits lanes 0, par := if (isLocal (s.rd R.MEM_INJ_ADDR.WADDR)) then 0 else lanes })

/-- INJECT_EVEN (R402): bits 0 and 1 of each lane flip, which parity does not see (R376). -/
def execInjectEven (lanes : BitVec 8) (s : State) : Host.Outcome State Fault Refusal :=
  .next (s.inject 2 lanes { data := laneBits lanes 0 ||| laneBits lanes 1 })

/-- INJECT_PAR (R402). -/
def execInjectPar (lanes : BitVec 8) (s : State) : Host.Outcome State Fault Refusal :=
  .next (s.inject 3 lanes { par := lanes })

/-- INJECT_TAG (R402). -/
def execInjectTag (s : State) : Host.Outcome State Fault Refusal :=
  .next (s.inject 4 (BitVec.ofNat 8 (s.rd R.MEM_INJ_CTRL.LANES)) { tag := true })

/-- INJECT_POISON (R402): the poisoned encoding. -/
def execInjectPoison (lanes : BitVec 8) (s : State) : Host.Outcome State Fault Refusal :=
  .next (s.inject 5 lanes { poison := true })

/-- INJECT_DOUBLE (R402): two bits of a SECDED word flip; which two the spec does not say (notes/assumptions/15). -/
def execInjectDouble (s : State) : Host.Outcome State Fault Refusal :=
  let i := Config.freeNat s.fresh % 72
  let j := (i + 1 + Config.freeNat (s.fresh + 1) % 71) % 72
  .next ((s.inject 6 (BitVec.ofNat 8 (s.rd R.MEM_INJ_CTRL.LANES)) { flips := (1#72 <<< i) ||| (1#72 <<< j) }).taken 2)

/-- A store into the stripe window (R402): in TEST the stripe word with fresh parity, otherwise without effect. -/
def State.stripeStore (s : State) (a : Nat) (d : Word64) : State :=
  if s.rd R.MEM_PHASE.PHASE = 2 then
    let k := (a - 0x18000000) / 8
    (s.setSdiff k (s.sdiff k ^^^ s.stripeWord k ^^^ d)).setSpar k 0
  else s

/-- STRIPE_WINDOW_STORE (R402). -/
def execStripeWindowStore (addr : Nat) (data : Word64) (s : State) : Host.Outcome State Fault Refusal :=
  onUnit (0x18000000 ≤ addr && addr < 0x18080000) (s.stripeStore addr data)

/-- A row newly mapped to a spare holds no data of its own (R397): its words are free values, the stripe stays. -/
def State.freshRow (s : State) (bank row : Nat) : State :=
  (List.range 128).foldl (fun s i =>
    let k := 128 * row + i
    let v := Config.free64 s.fresh
    if bank = 16 then (s.setSdiff k (s.sdiff k ^^^ s.stripeWord k ^^^ v)).taken
    else
      let w := rowWord k bank
      (((s.setSdiff k (s.sdiff k ^^^ s.word w ^^^ v)).putWord w v).setFlaw w {}).taken) s

/-- A write of MEM_SMAP_DATA (R397): a soft map entry, while OFF and not fused; otherwise discarded with WRREJ. The address advances. -/
def State.smapWrite (s : State) (v : Word) : State :=
  let e := s.rd R.MEM_SMAP_ADDR.ENTRY
  let old := s.spare e
  let new : SpareEntry := { row := getField v 0 9, valid := getField v 15 1 = 1 }
  let s' :=
    if s.rd UnitId.mem.STATE ≠ stOff ∨ old.fuse ∨ 136 ≤ e then s.raise R.MEM_INTSTAT.WRREJ
    else
      let s := s.setSpare e new
      if new.valid && (!old.valid || old.row != new.row) then s.freshRow (e / 8) new.row else s
  s'.wr R.MEM_SMAP_ADDR.ENTRY (e + 1)

def execSmapWrite (v : Word) (s : State) : Host.Outcome State Fault Refusal := .next (s.smapWrite v)

/-- What EN finds wrong with the Dresser's configuration (Table 11-9): the DRAM scrub range. -/
def State.memFault (s : State) : Option Nat :=
  let lo := s.rd R.MEM_DRS_DLO.DLO
  let hi := s.rd R.MEM_DRS_DHI.DHI
  if s.on R.MEM_DRS_CFG.DRAMEN && (hi < lo || 1792 ≤ hi) then some 1 else none

/-- The Dresser starts: an interrupted repair begins again (R398). -/
def State.memStart (s : State) : State :=
  { s with integ := { s.integ with repair := s.integ.repair.map fun r => { r with copied := 0 } } }

end Sys2Proof.Machine
end

