-- ==== Sys2Proof/Machine/MtrOps.lean ====
section
/-!
DEFINITION. The metering engine's operations (ch08): channel and feeder records, the cumulative registers and their
residues, checkpoints, the latch page, publication, the reference cycle.
-/

namespace Sys2Proof.Machine

/-! Engine memory (Tables 8-15, 8-16). -/

/-- What a word of the engine memory holds at reset: the CFG of Fn.Lk names Vk (R267); every other word 0. -/
def mtrDefault (w : Nat) : Word :=
  if 128 ≤ w ∧ w < 1280 ∧ w % 32 = 0 then BitVec.ofNat 32 (128 * ((w / 32 - 4) % 3)) else 0

/-- A word of the engine memory. -/
def State.mw (s : State) (w : Nat) : Word := SMap.get mtrDefault s.mtr.mem w

def State.setMw (s : State) (w : Nat) (v : Word) : State :=
  { s with mtr := { s.mtr with mem := SMap.set mtrDefault s.mtr.mem w v } }

/-- A word of channel c's record, by byte offset; record 40 is the staging record (Table 8-15). -/
def State.chw (s : State) (c ofs : Nat) : Word := s.mw (32 * c + ofs / 4)

/-- Feeder f's FDR_CFG, f from 0 (Table 8-15). -/
def State.fdr (s : State) (f : Nat) : Word := s.mw (0x600 + 8 * f)

def State.fdrOn (s : State) (f : Nat) : Bool := (s.fdr f).getLsbD 0
def State.fdrSummed (s : State) (f : Nat) : Bool := (s.fdr f).getLsbD 1

/-- The feeder's samples are streamed (R298). -/
def State.fdrStreams (s : State) (f : Nat) : Bool := s.assist .mtr && (s.fdr f).getLsbD 2

/-- ELSB, signed. -/
def elsbOf (w : Word) : Int := (BitVec.ofNat 8 (getField w 8 8)).toInt
def State.fdrElsb (s : State) (f : Nat) : Int := elsbOf (s.fdr f)

/-- The voltage channel of a current channel (R267). -/
def State.vsel (s : State) (c : Nat) : Nat := getField (s.chw c 0) 7 2

/-! Flags of the interval in progress (Tables 8-8, 8-9). -/

def mfGap : Nat := 0
def mfAssist : Nat := 1
def mfOvr : Nat := 2
def mfChfault : Nat := 3
def mfBad : Nat := 4
def mfCleared : Nat := 5
def mfSegchg : Nat := 6
def mfCal : Nat := 7

def hfFirst : Nat := 0
def hfNozc : Nat := 1
def hfTbswitch : Nat := 2
def hfFreqrange : Nat := 3
def hfRestored : Nat := 5

/-- A set's flag set. -/
def State.setFlag (s : State) (b set : Nat) : State :=
  let old := SMap.get (fun _ => 0) s.mtr.flags set
  { s with mtr := { s.mtr with flags := SMap.set (fun _ => 0) s.mtr.flags set (Nat.lor old (2 ^ b)) } }

/-- A header flag set. -/
def State.hdrFlag (s : State) (b : Nat) : State :=
  { s with mtr := { s.mtr with hdrFlags := Nat.lor s.mtr.hdrFlags (2 ^ b) } }

/-- The sets that use a channel: a current channel's phase and its SUM; every phase a voltage channel measures and their
SUM; every set for VN (R267, R269). -/
def State.setsOf (s : State) (c : Nat) : List Nat :=
  if 4 ≤ c then
    let f := (c - 4) / 3
    [4 * f + (c - 4) % 3, 4 * f + 3]
  else
    let uses := fun σ => c == 3 || s.vsel (4 + 3 * (σ / 4) + σ % 4) == c
    below 48 fun σ => if σ % 4 = 3 then [0, 1, 2].any fun k => uses (4 * (σ / 4) + k) else uses σ

def State.flagChannel (s : State) (b c : Nat) : State := s.each (s.setsOf c) fun s σ => s.setFlag b σ

/-! Cumulative registers (R280 to R285). -/

def State.mreg (s : State) (r : Nat) : MtrReg := SMap.get (fun _ => {}) s.mtr.regs r

def State.setMreg (s : State) (r : Nat) (x : MtrReg) : State :=
  { s with mtr := { s.mtr with regs := SMap.set (fun _ => {}) s.mtr.regs r x } }

/-- A register's 64-bit word (R285). -/
def MtrReg.word (x : MtrReg) : Nat := x.count % 2 ^ 48 + 2 ^ 48 * (x.wrap % 256) + 2 ^ 56 * x.bad.toNat

/-- A register's 64-bit word read back with its residue. -/
def MtrReg.ofWord (w resid : Nat) : MtrReg where
  count := w % 2 ^ 48
  wrap := w / 2 ^ 48 % 256
  bad := w.testBit 56
  resid := (BitVec.ofNat 64 resid).toInt

/-- A register's number of its set (Table 8-6). -/
def qEaImp : Nat := 0
def qEaExp : Nat := 1
def qEaNet : Nat := 2
def qEfImp : Nat := 3
def qEfExp : Nat := 4
def qErPos : Nat := 5
def qErNeg : Nat := 6
def qEs : Nat := 7

/-- Energy in units of 2^-32 LSB added to a register (R284, R285): whole LSBs carry, the residue of EA_NET keeps its sign
(DEDUCED from 'signed', truncation towards 0), COUNT wraps. The flag tells a wrap or a borrow. -/
def MtrReg.add (x : MtrReg) (net : Bool) (inc : Int) : MtrReg × Bool :=
  if x.bad then (x, false)
  else
    let total := x.resid + inc
    let carry := if net then Int.tdiv total (2 ^ 32) else total / 2 ^ 32
    let resid := if net then Int.tmod total (2 ^ 32) else total % 2 ^ 32
    let c := (x.count : Int) + carry
    let wraps := 2 ^ 48 ≤ c
    let borrows := c < 0
    ({ x with
       count := (c % 2 ^ 48).toNat
       wrap := if wraps then (x.wrap + 1) % 256 else if borrows then (x.wrap + 255) % 256 else x.wrap
       resid := resid }, wraps || borrows)

/-- Energy added to register r; a wrap is raised and recorded. -/
def State.addReg (s : State) (r : Nat) (inc : Int) : State :=
  let (x, wrapped) := (s.mreg r).add (r % 8 == qEaNet) inc
  let s := s.setMreg r x
  if wrapped then (s.raise R.MTR_INTSTAT.WRAP).event 0x080B (subj := r) else s

/-- Energy classified by its sign into a pair of registers (R281). -/
def State.addSigned (s : State) (rPos rNeg : Nat) (inc : Int) : State :=
  if 0 ≤ inc then s.addReg rPos inc else s.addReg rNeg (-inc)

/-- Energy in J as units of 2^-32 LSB of 10^ELSB mWh; the rounding of a fraction is free (R284). -/
def energyUnits (joule : Rat) (elsb : Int) (fresh : Nat) : Int :=
  let e := joule / (36 / 10) * (10 ^ (6 - elsb).toNat / 10 ^ 6) * 2 ^ 32
  e.floor + (if e.den = 1 then 0 else (Config.freeBit fresh).toNat)

/-- One sample's energies of a feeder's phases (R281, R282). -/
def State.addSample (s : State) (f : Nat) (incs : List Int) : State :=
  let base := 32 * f
  let s := s.each (incs.zip (List.range 3)) fun s (inc, k) =>
    let r := base + 8 * k
    let s := (s.addSigned r (r + qEaExp) inc).addReg (r + qEaNet) inc
    let s := s.addReg (base + 24 + qEaNet) inc
    if s.fdrSummed f then s else s.addSigned (base + 24) (base + 24 + qEaExp) inc
  if s.fdrSummed f then s.addSigned (base + 24) (base + 24 + qEaExp) incs.sum else s

/-- One cycle's energies of a feeder's phases: P1, Q1 and S times the duration (R281, R282). -/
def State.addCycle (s : State) (f : Nat) (incs : List (Int × Int × Int)) : State :=
  let base := 32 * f
  let sum := base + 24
  let s := s.each (incs.zip (List.range 3)) fun s ((p, q, a), k) =>
    let r := base + 8 * k
    let s := ((s.addSigned (r + qEfImp) (r + qEfExp) p).addSigned (r + qErPos) (r + qErNeg) q).addReg (r + qEs) a
    let s := s.addReg (sum + qEs) a
    if s.fdrSummed f then s else (s.addSigned (sum + qEfImp) (sum + qEfExp) p).addSigned (sum + qErPos) (sum + qErNeg) q
  if s.fdrSummed f then
    (s.addSigned (sum + qEfImp) (sum + qEfExp) (incs.map (·.1)).sum).addSigned (sum + qErPos) (sum + qErNeg)
      (incs.map (·.2.1)).sum
  else s

/-! Checkpoints (R293 to R295). -/

/-- Slot k's address in MRAM. -/
def State.ckptAddr (s : State) (k : Nat) : Nat := mramBase + 2 ^ 14 * s.rd R.MTR_CKPT_BASE.BASE + 8192 * k

/-- A slot's bytes up to register n (Table 8-11). -/
def MtrCkpt.bytes (c : MtrCkpt) (elsb : List Int) (n : Nat) : List Byte :=
  bytesLE 0x4352544D 4 ++ bytesLE 1 2 ++ zeros 2 ++ bytesLE c.cseq 4 ++ zeros 4 ++ bytesLE c.mt 8
    ++ elsb.map (fun e => BitVec.ofInt 8 e) ++ zeros 4
    ++ (List.range n).flatMap fun r =>
        let x := SMap.get (fun _ => {}) c.regs r
        bytesLE x.word 8 ++ bytesLE (BitVec.ofInt 64 x.resid).toNat 8

/-- A checkpoint starts, or follows the one in progress, or waits while the writer is halted. -/
def State.ckptStart (s : State) : State :=
  if s.mtr.ckpt.isSome || s.on R.MTR_CKPT_CFG.HALT then { s with mtr := { s.mtr with ckptQueued := true } }
  else
    let seq := s.rd R.MTR_CKPT_SEQ.CSEQ
    let c : MtrCkpt := { slot := if seq = 0 then 0 else 1 - s.rd R.MTR_CKPT_CFG.SLOT, cseq := (seq + 1) % 2 ^ 32,
                         mt := s.mtNs, regs := s.mtr.regs }
    ({ s with mtr := { s.mtr with ckpt := some c, ckptQueued := false } } : State).raise R.MTR_CKPT_CFG.BUSY

/-- A queued checkpoint starts. -/
def State.ckptNext (s : State) : State := if s.mtr.ckptQueued then s.ckptStart else s

/-- A slot read: its bytes where it is valid (R293). -/
def State.ckptSlot (s : State) (k : Nat) : Option (List Byte) :=
  let r := s.fetch mEngine (s.ckptAddr k) 6188
  if r.poison.isNone && numAt r.bytes 0 4 == 0x4352544D && numAt r.bytes 4 2 == 1 && crcOk r.bytes then some r.bytes else none

/-- The newest valid slot: its number and its bytes. -/
def State.ckptNewest (s : State) : Option (Nat × List Byte) :=
  match s.ckptSlot 0, s.ckptSlot 1 with
  | some a, some b =>
    let d := (numAt b 8 4 + 2 ^ 32 - numAt a 8 4) % 2 ^ 32
    if 1 ≤ d ∧ d ≤ 2 ^ 31 - 1 then some (1, b) else some (0, a)
  | some a, none => some (0, a)
  | none, some b => some (1, b)
  | none, none => none

/-- Register r of a slot. -/
def slotReg (b : List Byte) (r : Nat) : MtrReg := MtrReg.ofWord (numAt b (40 + 16 * r) 8) (numAt b (48 + 16 * r) 8)

/-- A command of MTR_CMD ends with a result. -/
def State.mtrDone (s : State) (result : Nat) : State :=
  ((s.clear R.MTR_CMD.GO).wr R.MTR_CMD.RESULT result).raise R.MTR_INTSTAT.CMDDONE

/-- BAD cleared from the register that halted the writer: checkpoints resume (R295). -/
def State.unhalt (s : State) (r : Nat → Bool) : State :=
  if s.on R.MTR_CKPT_CFG.HALT && r (s.rd R.MTR_CKPT_FREG.REG) then (s.clear R.MTR_CKPT_CFG.HALT).ckptNext else s

/-- RESTORE of a register (R295). -/
def State.restoreReg (s : State) (r : Nat) : State :=
  match s.ckptNewest with
  | none => s.mtrDone 3
  | some (_, b) =>
    let x := { slotReg b r with bad := false }
    let s := (s.setMreg r x).setFlag mfGap (r / 8)
    let s : State := { s with mtr := { s.mtr with
      round := s.mtr.round.map fun d => { d with regs := SMap.set (fun _ => {}) d.regs r x } } }
    ((s.event 0x0808 (subj := r)).mtrDone 0).unhalt (· == r)

/-- CLEAR of feeder f, from 0, at the start of a round (R292). -/
def State.clearFeeder (s : State) (f : Nat) : State :=
  let s := s.each (List.range 32) fun s i => s.setMreg (32 * f + i) {}
  let s : State := { s with mtr := { s.mtr with
    snaps := (List.range 32).foldl (fun m i => SMap.set (fun _ => {}) m (32 * f + i) {}) s.mtr.snaps } }
  let s := s.each (List.range 4) fun s k => s.setFlag mfCleared (4 * f + k)
  ((((s.event 0x0803 (unit := f + 1)).mtrDone 0).unhalt (· / 32 == f))).ckptStart

/-- A command kept until the checkpoint completed (R302). -/
def State.mtrWaited (s : State) : MtrWait → State
  | .clear f => { s with mtr := { s.mtr with clearPend := s.mtr.clearPend ++ [f] } }
  | .restore r => s.restoreReg r
  | .ckpt => s.ckptStart.mtrDone 0

/-- The checkpoint in progress ends: the slot written, or abandoned at the first BAD register (R293, R295), egress channel 5
(R386); a register has no bus address, so the address held is free. -/
def State.ckptEnd (s : State) : State :=
  match s.mtr.ckpt with
  | none => s
  | some c =>
    let elsb := (List.range 12).map s.fdrElsb
    let s : State := { s with mtr := { s.mtr with ckpt := none } }
    let s := s.clear R.MTR_CKPT_CFG.BUSY
    let a := s.ckptAddr c.slot
    let s := match (List.range 384).find? fun r => (SMap.get (fun _ => ({} : MtrReg)) c.regs r).bad || (s.mreg r).bad with
      | some r =>
        let s := s.write mEngine a (c.bytes elsb r)
        let s := (((s.wr R.MTR_CKPT_FREG.REG r).raise R.MTR_CKPT_CFG.HALT).raise R.MTR_INTSTAT.CKPTHALT).event 0x0807 (subj := r)
        (s.egressHalt 5 0 (Config.free32 s.fresh).toNat).taken
      | none =>
        let s := s.write mEngine a (withCrc (c.bytes elsb 384))
        (s.wr R.MTR_CKPT_CFG.SLOT c.slot).wr R.MTR_CKPT_SEQ.CSEQ c.cseq
    let ws := s.mtr.waits
    let s : State := { s with mtr := { s.mtr with waits := [] } }
    (s.each ws State.mtrWaited).ckptNext

/-- The registers restored at the first EN after a module reset (R293). -/
def State.restoreAll (s : State) : State :=
  match s.ckptNewest with
  | none => ((s.clear R.MTR_STAT.RESTORED).raise R.MTR_INTSTAT.NOCKPT).event 0x0809
  | some (k, b) =>
    let scaled := below 12 fun f => BitVec.ofInt 8 (s.fdrElsb f) != b.getD (24 + f) 0
    let s := s.each (List.range 384) fun s r => s.setMreg r (if scaled.contains (r / 32) then {} else slotReg b r)
    let s := s.each scaled fun s f => (s.event 0x0803 (unit := f + 1) (val1 := Config.freeNat s.fresh)).taken
    let s := (s.wr R.MTR_CKPT_CFG.SLOT k).wr R.MTR_CKPT_SEQ.CSEQ (numAt b 8 4)
    let s : State := { s with mtr := { s.mtr with snaps := s.mtr.regs } }
    (s.raise R.MTR_STAT.RESTORED).hdrFlag hfRestored

/-! The latch (R287 to R290). -/

/-- A quotient as FLOAT32, its rounding free; by 0, a value no rule states. -/
def quot (a b : Rat) (fresh : Nat) : Word :=
  if b = 0 then Config.free32 fresh else F32.ofRat (some (Config.freeBit fresh)) (a / b)

/-- The root of a ratio as FLOAT32, its rounding free; where no root exists, a value no rule states. -/
def rootOf (a b : Rat) (fresh : Nat) : Word :=
  if b = 0 ∨ a / b < 0 then Config.free32 fresh else F32.ofRat (some (Config.freeBit fresh)) (ratSqrt (a / b))

/-- The snapshot minus the previous one, modulo 2^48 (R289). -/
def regDelta (old new : MtrReg) : Nat := (new.count + 2 ^ 48 - old.count % 2 ^ 48) % 2 ^ 48

/-- The energy between two snapshots in J, with the residues. -/
def regJoule (net : Bool) (elsb : Int) (old new : MtrReg) : Rat :=
  let d := regDelta old new
  let z : Int := if net && 2 ^ 47 ≤ d then (d : Int) - 2 ^ 48 else d
  ((z * 2 ^ 32 + new.resid - old.resid : Int) : Rat) / 2 ^ 32 * (36 / 10) * (10 ^ (3 + elsb).toNat / 10 ^ 3)

def State.phase (s : State) (i : Nat) : MtrPhase := SMap.get (fun _ => {}) s.mtr.phases i

def State.setPhase (s : State) (i : Nat) (p : MtrPhase) : State :=
  { s with mtr := { s.mtr with phases := SMap.set (fun _ => {}) s.mtr.phases i p } }

/-- Samples of the interval times 125 µs, in s. -/
def State.intervalSec (s : State) : Rat := (s.mtr.nsamp : Rat) / 8000

/-- A set record's 11 interval values (Table 8-9, R289). -/
def State.setValues (s : State) (σ fresh : Nat) : List Word :=
  let f := σ / 4
  let t := s.intervalSec
  let e := fun q => regJoule (q == qEaNet) (s.fdrElsb f) (SMap.get (fun _ => {}) s.mtr.snaps (8 * σ + q)) (s.mreg (8 * σ + q))
  let net := e qEaNet
  let app := e qEs
  let ph := s.phase (3 * f + σ % 4)
  let n : Rat := s.mtr.nsamp
  let c : Rat := s.mtr.ncyc
  let phs := if σ % 4 = 3 then fun _ => 0#32 else fun w => w
  [phs (rootOf ph.intV2 n fresh), phs (rootOf ph.intI2 n (fresh + 1)), phs (rootOf ph.intV1 c (fresh + 2)),
   phs (rootOf ph.intI1 c (fresh + 3)), quot net t (fresh + 4), quot (e qEfImp - e qEfExp) t (fresh + 5),
   quot (e qErPos - e qErNeg) t (fresh + 6), quot app t (fresh + 7),
   if app = 0 then 0#32 else quot net app (fresh + 8),
   phs (rootOf (ph.intV2 * c - ph.intV1 * n) (ph.intV1 * n) (fresh + 9)),
   phs (rootOf (ph.intI2 * c - ph.intI1 * n) (ph.intI1 * n) (fresh + 10))]

/-- A set record (Table 8-9). -/
def State.setRecord (s : State) (σ fresh : Nat) : List Byte :=
  if !s.fdrOn (σ / 4) then zeros 176 ++ bytesLE 256 4 ++ zeros 12
  else
    let new := fun q => s.mreg (8 * σ + q)
    let flags := SMap.get (fun _ => 0) s.mtr.flags σ
    let bad := (List.range 8).any fun q => (new q).bad
    let flags := if bad then Nat.lor flags (2 ^ mfBad) else flags
    let vals := if flags.testBit mfAssist then List.replicate 11 0#32 else s.setValues σ fresh
    (List.range 8).flatMap (fun q => bytesLE (new q).word 8)
      ++ (List.range 8).flatMap (fun q => bytesLE (regDelta (SMap.get (fun _ => {}) s.mtr.snaps (8 * σ + q)) (new q)) 8)
      ++ vals.flatMap (fun w => bytesLE w.toNat 4) ++ zeros 4 ++ bytesLE flags 4
      ++ [if σ % 4 = 3 then 0xFF#8 else BitVec.ofNat 8 (s.rd (R.MTR_CH_STAT.SEG (4 + 3 * (σ / 4) + σ % 4)))] ++ zeros 11

/-- A page header (Table 8-8). -/
def State.pageHeader (s : State) (lseq close fresh : Nat) : List Byte :=
  bytesLE lseq 4 ++ bytesLE s.mtr.ncyc 4 ++ bytesLE s.mtr.openMt 8 ++ bytesLE close 8 ++ bytesLE s.mtr.nsamp 4
    ++ bytesLE (quot s.mtr.ncyc s.intervalSec fresh).toNat 4 ++ bytesLE s.mtr.hdrFlags 4 ++ zeros 28

/-- The bytes as 32-bit words. -/
def wordsOf (bs : List Byte) : List Word := (List.range (bs.length / 4)).map fun i => BitVec.ofNat 32 (numAt bs (4 * i) 4)

/-- Where a latch page lies in the engine memory, by word. -/
def pageBase (p : Nat) : Nat := 0xC00 + 0x1000 * p

/-- The interval closes: the inactive page is written and becomes the last complete one (R288, R289). -/
def State.latchPage (s : State) (close : Nat) : State :=
  let page := 1 - s.rd R.MTR_LATCH.PAGE
  let lseq := (s.rd R.MTR_LSEQ.LSEQ + 1) % 2 ^ 32
  let bs := s.pageHeader lseq close s.fresh ++ (List.range 48).flatMap fun σ => s.setRecord σ (s.fresh + 1 + 11 * σ)
  let s := s.taken 529
  let m := s.mtr
  let s : State := { s with mtr := { m with
    mem := SMap.setMany mtrDefault m.mem (pageBase page) (wordsOf bs)
    snaps := m.regs
    flags := []
    hdrFlags := 0
    ncyc := 0
    nsamp := 0
    openMt := close
    nlat := s.rd R.MTR_CFG.NLAT
    phases := m.phases.map fun (i, p) => (i, { p with intV2 := 0, intI2 := 0, intV1 := 0, intI1 := 0 })
    latStart := true
    pubNext := some 0
    pubMt := close } }
  let s : State := { s with mtr := { s.mtr with phases := s.mtr.phases.filter fun e => e.2 != {} } }
  let s := ((s.wr R.MTR_LATCH.PAGE page).wr R.MTR_LSEQ.LSEQ lseq).raise R.MTR_INTSTAT.LATCH
  if s.on R.MTR_CFG.LATCHEV then s.event 0x0800 (val1 := lseq) else s

/-! Publication (R291). -/

/-- The binary64 of a natural number below 2^53. -/
def doubleOfNat (n : Nat) : Nat :=
  if n = 0 then 0 else let l := Nat.log2 n; (l + 1023) * 2 ^ 52 + (n * 2 ^ (52 - l) - 2 ^ 52)

/-- An integer converted to a TYPE as R239 converts; for a TYPE without a conversion the value is free. -/
def typedInt (typ n fresh : Nat) : Nat :=
  match typ with
  | 1 => if n = 0 then 0 else 1
  | 2 => min n (2 ^ 31 - 1)
  | 3 => min n (2 ^ 32 - 1)
  | 4 => n
  | 5 => n
  | 6 => (F32.ofInt n).toNat
  | 7 => doubleOfNat n
  | _ => (Config.free64 fresh).toNat

/-- A cumulative register as an own point holds it: WRAP x 2^48 + COUNT, signed for EA_NET. -/
def cumulative (q w : Nat) : Nat :=
  let v := w % 2 ^ 56
  if q = qEaNet ∧ 2 ^ 55 ≤ v then 2 ^ 64 - 2 ^ 56 + v else v

/-- Publication entry e: a set, a quantity, an own index (Table 8-10). -/
def State.pubEntry (s : State) (e : Nat) : Nat × Word := (getField (s.mw (0x800 + 2 * e)) 0 20, s.mw (0x801 + 2 * e))

/-- An entry written to its point. -/
def State.meterPublish (s : State) (e : Nat) : State :=
  let (i, w) := s.pubEntry e
  if !w.getLsbD 16 then s
  else
    let σ := getField w 0 8
    let q := getField w 8 8
    let base := pageBase (s.rd R.MTR_LATCH.PAGE)
    let rec0 := base + 16 + 48 * σ
    let pair := fun k => (s.mw (rec0 + 2 * k)).toNat + 2 ^ 32 * (s.mw (rec0 + 2 * k + 1)).toNat
    let flags := (s.mw (rec0 + 44)).toNat
    let hdr := (s.mw (base + 8)).toNat
    let r := s.ownBytes i
    let typ := recType r
    let v := if q < 8 then cumulative q (pair q)
      else if q < 16 then typedInt typ (pair q) s.fresh
      else if q < 27 then typedValue typ (s.mw (rec0 + 32 + (q - 16))) s.fresh
      else typedValue typ (s.mw (base + 7)) s.fresh
    let bad := q < 16 && (pair (q % 8)).testBit 56
    let uncertain := s.mtr.unsure.contains e || hdr.testBit hfNozc || [mfGap, mfAssist, mfOvr, mfChfault].any flags.testBit
    let f := s.ownForce i
    let ts := s.mtr.pubMt
    let s := s.taken
    let st : PStat := { recStat r with q := if bad then qBad else if uncertain then qUncertain else qGood
                                       poison := bad, stale := false, forced := f.isSome, shadow := f.isSome }
    let s : State := { s with mtr := { s.mtr with unsure := s.mtr.unsure.filter (· != e) } }
    (if f.isSome then s.shadowForce [s.ownKey i] (s.ownKey i) v else s).ownWrite mEngine i (f.getD v) st ts

/-- One round's 16 entries, written by an ACTIVE or SOLO module alone (R468). -/
def State.publishRound (s : State) : State :=
  match s.mtr.pubNext with
  | none => s
  | some n =>
    let s := if s.role = roleActive ∨ s.role = roleSolo then s.each ((List.range 16).map (n + ·)) State.meterPublish else s
    { s with mtr := { s.mtr with pubNext := if n + 16 < 512 then some (n + 16) else none } }

/-! The reference cycle (R272 to R278, R281). -/

/-- The fundamental quantities of one phase over a cycle of n samples (Table 8-5): P1, Q1 and the squared magnitudes of V1 and
I1, each bin scaled to rms by the root of 2 over n. -/
def MtrPhase.phasors (x : MtrPhase) (n : Nat) : Rat × Rat × Rat × Rat :=
  let k : Rat := 2 / ((n : Rat) * n)
  (k * (x.cycVr * x.cycIr + x.cycVi * x.cycIi), k * (x.cycVi * x.cycIr - x.cycVr * x.cycIi),
   k * (x.cycVr * x.cycVr + x.cycVi * x.cycVi), k * (x.cycIr * x.cycIr + x.cycIi * x.cycIi))

/-- A corrected sample pair added to a phase's sums, at an angle in turns (R279). -/
def MtrPhase.take (p : MtrPhase) (x y angle : Rat) : MtrPhase :=
  let co := Config.cosTurn angle
  let si := Config.sinTurn angle
  { p with
    cycV2 := p.cycV2 + x * x, cycI2 := p.cycI2 + y * y, intV2 := p.intV2 + x * x, intI2 := p.intI2 + y * y
    cycVr := p.cycVr + x * co, cycVi := p.cycVi - x * si, cycIr := p.cycIr + y * co, cycIi := p.cycIi - y * si }

/-- A feeder's cycle energies and fundamental magnitudes. S is the root of the cycle's products (R279). -/
def State.cycleFeeder (s : State) (f : Nat) : State :=
  if !s.fdrOn f || s.fdrStreams f then s
  else
    let t : Rat := (s.mtr.cycSamples : Rat) / 8000
    let elsb := s.fdrElsb f
    let fr := s.fresh
    let incs := (List.range 3).map fun k =>
      let ph := s.phase (3 * f + k)
      let (p, q, _, _) := ph.phasors s.mtr.cycSamples
      (energyUnits (p * t) elsb (fr + 3 * k), energyUnits (q * t) elsb (fr + 3 * k + 1),
       energyUnits (ratSqrt (ph.cycV2 * ph.cycI2) / 8000) elsb (fr + 3 * k + 2))
    let s := s.each (List.range 3) fun s k =>
      let ph := s.phase (3 * f + k)
      let (_, _, v2, i2) := ph.phasors s.mtr.cycSamples
      s.setPhase (3 * f + k) { ph with intV1 := ph.intV1 + v2, intI1 := ph.intI1 + i2 }
    (s.addCycle f incs).taken 9

/-- A current channel's segment for the next cycle, from the mean square of the cycle (R276). -/
def State.segUp (s : State) (c : Nat) (ms2 : Rat) (seg : Nat) : Nat → Nat
  | 0 => seg
  | n + 1 =>
    let t := F32.toRat (s.chw c (0x10 + 4 * seg))
    if seg < 7 ∧ t * t ≤ ms2 then State.segUp s c ms2 (seg + 1) n else seg

def State.segDown (s : State) (c : Nat) (ms2 : Rat) (seg : Nat) : Nat → Nat
  | 0 => seg
  | n + 1 =>
    let t := F32.toRat (s.chw c (0x0C + 4 * seg)) * (1 - F32.toRat (s.chw c 0x08))
    if 0 < seg ∧ ms2 < t * t then State.segDown s c ms2 (seg - 1) n else seg

def State.selectSeg (s : State) (c : Nat) : State :=
  if s.mtr.cycSamples = 0 then s
  else
    let ms2 := (s.phase (c - 4)).cycI2 / s.mtr.cycSamples
    let old := s.rd (R.MTR_CH_STAT.SEG c)
    let new := s.segDown c ms2 (s.segUp c ms2 old 7) 7
    if new = old then s
    else ((s.wr (R.MTR_CH_STAT.SEG c) new).bump R.MTR_CNT_SEGCHG.COUNT).flagChannel mfSegchg c

/-- A pending calibration installed (R277, R278). -/
def State.installCal (s : State) : State :=
  match s.mtr.calPend with
  | none => s
  | some c =>
    let s := s.each (List.range 32) fun s i => s.setMw (32 * c + i) (s.mw (0x500 + i))
    let s : State := { s with mtr := { s.mtr with calPend := none } }
    (s.event 0x080A (unit := c)).flagChannel mfCal c

/-- A phase's sums as a reference cycle begins. -/
def MtrPhase.newCycle (p : MtrPhase) : MtrPhase :=
  { p with cycV2 := 0, cycI2 := 0, cycVr := 0, cycVi := 0, cycIr := 0, cycIi := 0 }

/-- A boundary of reference cycles at an instant of MT: the cycle in progress ends, where there is one, counts, and may
close the interval; the next begins (R272, R277, R278, R287). -/
def State.cycleBoundary (s : State) (at_ : Nat) (ends : Bool) : State :=
  let s := if !ends then s
    else
      let s := s.each (List.range 12) State.cycleFeeder
      let period : Int := (at_ : Int) - s.mtr.cycMt
      let s := s.setReg R.MTR_FREQ.addr (quot 1000000000 period s.fresh)
      let s := if period < 15380000 ∨ 22220000 < period then s.taken.hdrFlag hfFreqrange else s.taken
      let s : State := { s with mtr := { s.mtr with
        cycles := s.mtr.cycles + 1, ncyc := s.mtr.ncyc + 1
        osc := if period = 0 then Config.freeRat s.fresh else 1000000000 / (period : Rat) } }
      if s.mtr.nlat ≤ s.mtr.ncyc then s.latchPage at_ else s
  let s := s.installCal
  let s := if ends then s.each ((List.range 36).map (4 + ·)) State.selectSeg else s
  let m := s.mtr
  { s with mtr := { m with
      cycMt := at_, cycSamples := 0
      phases := (m.phases.map fun (i, p) => (i, p.newCycle)).filter fun e => e.2 != {} } }

/-- TMO_MS in ns. -/
def State.tmoNs (s : State) : Nat := ms * s.rd R.MTR_ZC.TMO_MS

def zcSeek : Nat := 0
def zcLocked : Nat := 1
def zcFallback : Nat := 2

/-- A valid crossing of the reference phase, at an instant of MT and of elapsed time (Table 8-4, R274). -/
def State.validCrossing (s : State) (at_ el : Nat) : State :=
  let z := s.rd R.MTR_STAT.ZCSTATE
  let good := match s.mtr.zcAt with
    | some t => 15380000 ≤ el - t && el - t ≤ 22220000
    | none => false
  let s : State := { s with mtr := { s.mtr with zcAt := some el, armed := false, tmoAt := el + s.tmoNs } }
  if z = zcSeek then (s.wr R.MTR_STAT.ZCSTATE zcLocked).cycleBoundary at_ false
  else if z = zcLocked then s.cycleBoundary at_ true
  else
    let run := if good then s.mtr.run + 1 else 1
    let s : State := { s with mtr := { s.mtr with run := run } }
    if run < s.rd R.MTR_ZC.RECOV then s
    else
      let s := ((s.hdrFlag hfTbswitch).wr R.MTR_STAT.ZCSTATE zcLocked)
      let s := (s.raise R.MTR_INTSTAT.ZCOK).event 0x0802
      if s.mtr.cycSamples = 0 then s else s.cycleBoundary at_ true

/-- The zero-crossing test on a reference sample with its stamp (R272). -/
def State.zeroCross (s : State) (ref : Rat) (stamp : Nat) : State :=
  let m := s.mtr
  let hyst := F32.toRat (s.chw (s.rd R.MTR_CFG.REFPH) 4) * s.rd R.MTR_ZC.HYST / 1000
  let cross := m.armed && decide (m.prevRef < 0) && decide (0 ≤ ref)
  let part := fun (a b : Nat) => a + ((b : Rat) - a) * (-m.prevRef) / (ref - m.prevRef) |>.floor.toNat
  let at_ := part m.prevStamp stamp
  let el := part m.prevAt s.now
  let s : State := { s with mtr := { m with
    armed := m.armed || decide (ref < -hyst), prevRef := ref, prevStamp := stamp, prevAt := s.now } }
  if !cross then s
  else
    match m.zcAt with
    | some t => if el < t + 15 * ms then s.bump R.MTR_CNT_ZCREJ.COUNT else s.validCrossing at_ el
    | none => s.validCrossing at_ el

/-- FALLBACK entered: the cycle in progress ends, synthetic crossings follow (Table 8-4). -/
def State.toFallback (s : State) : State :=
  let s := s.advance s.mtr.tmoAt
  let locked := s.rd R.MTR_STAT.ZCSTATE == zcLocked
  let s := (s.hdrFlag hfNozc).cycleBoundary s.mtNs locked
  let s : State := { s with mtr := { s.mtr with fbSamples := 0, fbCount := 0, run := 0 } }
  (((s.wr R.MTR_STAT.ZCSTATE zcFallback).bump R.MTR_CNT_NOZC.COUNT).raise R.MTR_INTSTAT.NOZC).event 0x0801

/-- The sample at which the k-th synthetic crossing falls (R273). -/
def State.synthAt (s : State) (k : Nat) : Nat := if s.on R.MTR_CFG.NOMFREQ then k * 400 / 3 else 160 * k

/-- A synthetic crossing, at the stamp of the sample that opens the new cycle (R273). -/
def State.synthetic (s : State) : State :=
  let s : State := { s with mtr := { s.mtr with fbCount := s.mtr.fbCount + 1 } }
  (s.hdrFlag hfNozc).cycleBoundary (s.mtr.prevStamp + 125000) true

/-! The round (R271). -/

/-- A sample at either end of the 24-bit scale is clipped (R269). -/
def clipped (raw : Int) : Bool := decide (2 ^ 23 - 1 ≤ raw) || decide (raw ≤ -(2 ^ 23))

/-- A channel's front end (R269): its FAULT and OVR bits, what is counted, raised and recorded. -/
def State.frontEnd (s : State) (c : Nat) (raw : Int) (faulty : Bool) : State :=
  if !(s.chw c 0).getLsbD 0 then s
  else
    let s := if faulty && !s.on (R.MTR_CH_STAT.FAULT c) then
        (s.raise R.MTR_INTSTAT.CHFAULT).event 0x0805 (unit := c) else s
    let s := s.wrb (R.MTR_CH_STAT.FAULT c) faulty
    if faulty || !clipped raw then s
    else
      let s := ((s.raise (R.MTR_CH_STAT.OVR c)).raise R.MTR_INTSTAT.OVR).bump R.MTR_CNT_OVR.COUNT
      let last := SMap.get (fun _ => none) s.mtr.ovrAt c
      if dueAgain last s.now sec then
        ({ s with mtr := { s.mtr with ovrAt := SMap.set (fun _ => none) s.mtr.ovrAt c (some s.now) } } : State).event 0x0804
          (unit := c)
      else s

/-- The flags of the interval that a channel's sample belongs to (R269, R272). -/
def State.sampleFlags (s : State) (c : Nat) (raw : Int) : State :=
  if !(s.chw c 0).getLsbD 0 then s
  else if s.on (R.MTR_CH_STAT.FAULT c) then s.flagChannel mfChfault c
  else if clipped raw then s.flagChannel mfOvr c
  else s

/-- A channel is of the ROGO type: a current channel whose SENSOR says so (Table 8-2). -/
def State.rogo (s : State) (c : Nat) : Bool := decide (4 ≤ c) && getField (s.chw c 0) 2 2 == 1

/-- The set's samples filtered (R275, step 1): full scale is 1; a faulty channel's samples read 0. -/
def State.filterSet (s : State) (raw : Nat → Int) : State :=
  let next := (List.range 40).map fun c =>
    let x : MtrChan := s.mtr.chans.getD c {}
    let v : Rat := if s.on (R.MTR_CH_STAT.FAULT c) then 0 else (raw c : Rat) / 2 ^ 23
    ({ filt := Config.filterNext (s.rogo c) x.filt v
       hist := (Config.filterOut (s.rogo c) x.filt v :: x.hist).take 5 } : MtrChan)
  { s with mtr := { s.mtr with chans := next } }

/-- The fractional delay (R275, step 4): the fixed 2 samples, and the cubic interpolator where the phase is not 0. -/
def delayed (ph : Int) (h : List Rat) : Rat := if ph = 0 then h.getD 2 0 else Config.cubic ph h

/-- A corrected sample in primary units (R275, steps 2 to 4): FSPRI, the segment's gain and its phase, all of the one record
in force; 0 for a faulty or disabled channel. -/
def State.correctSample (s : State) (c : Nat) : Rat :=
  let cfg := s.chw c 0
  if !cfg.getLsbD 0 || s.on (R.MTR_CH_STAT.FAULT c) then 0
  else
    let seg := if c < 4 then 0 else s.rd (R.MTR_CH_STAT.SEG c)
    let k := F32.toRat (s.chw c 4) * F32.toRat (s.chw c (0x30 + 4 * seg))
    let x := delayed (s.chw c (0x50 + 4 * seg)).toInt ((s.mtr.chans.getD c {}).hist.map (· * k))
    if 4 ≤ c ∧ cfg.getLsbD 9 then -x else x

/-- A sample neither accumulated nor streamed: the interval is flagged with a gap (Table 1-11, Table 8-15). -/
def State.sampleGap (s : State) (c : Nat) : State :=
  ((s.bump R.MTR_CNT_GAP.COUNT).raise R.MTR_INTSTAT.GAP).flagChannel mfGap c

/-- One channel's sample posted to the ring (R298, Table 8-14). -/
def State.stream (s : State) (c : Nat) (x : Rat) (stamp : Nat) (ovr : Bool) : State :=
  let m := s.mtr
  let z := s.rd R.MTR_STAT.ZCSTATE
  let flags := ovr.toNat + 2 * (z != zcSeek && m.cycSamples == 0).toNat + 4 * (m.hdrFlags.testBit hfNozc).toNat
    + 8 * m.latStart.toNat
  let arg := bytesLE (F32.ofRat (some (Config.freeBit s.fresh)) x).toNat 4 ++ bytesLE m.sinceEn 4 ++ bytesLE m.cycles 2
    ++ bytesLE (if c < 4 then 0 else s.rd (R.MTR_CH_STAT.SEG c)) 1 ++ bytesLE flags 1 ++ zeros 4
  match s.taken.asnPostTo .mtr 2 c arg false [] none stamp with
  | (true, s) => s
  | (false, s) => s.sampleGap c

/-- A feeder's three slots: sums of squares, then energy or ASSIST (R281, R298). -/
def State.feederSlots (s : State) (f : Nat) (v i : Nat → Rat) : State :=
  let vi := fun k => (v (s.vsel (4 + 3 * f + k)), i (4 + 3 * f + k))
  let angle := s.mtr.osc * s.mtr.cycSamples / 8000
  let s := s.each (List.range 3) fun s k =>
    let (x, y) := vi k
    s.setPhase (3 * f + k) ((s.phase (3 * f + k)).take x y angle)
  if !s.fdrOn f then s
  else if s.fdrStreams f then s.each (List.range 4) fun s k => s.setFlag mfAssist (4 * f + k)
  else
    let incs := (List.range 3).map fun k =>
      let (x, y) := vi k
      energyUnits (x * y / 8000) (s.fdrElsb f) (s.fresh + k)
    (s.addSample f incs).taken 3

/-- Failing register copies: corrected from the other copy, or BAD (R295). -/
def State.regParity (s : State) (one both : List Nat) : State :=
  let s := s.each (one.filter (· < 384)) fun s _ => s.bump R.MTR_CNT_CORR.COUNT
  s.each (both.filter (· < 384)) fun s r =>
    if (s.mreg r).bad then s
    else ((s.setMreg r { s.mreg r with bad := true }).raise R.MTR_INTSTAT.REGBAD).event 0x0806 (subj := r)

/-- The samples that a round accumulates or streams: three of each feeder that does either, four of the voltage channels with
them. -/
def State.roundSamples (s : State) : Nat :=
  let n := (below 12 fun f => s.fdrOn f || s.fdrStreams f).length
  if n = 0 then 0 else 3 * n + 4

/-- A round (Table 8-3). -/
def State.mtrRound (s : State) (m : MtrInput) : State :=
  let stamp := s.mtNs - 187500
  let pend := s.mtr.clearPend
  let s : State := { s with mtr := { s.mtr with clearPend := [] } }
  let s := (s.each pend State.clearFeeder).regParity m.oneCopy m.bothCopies
  let raw := fun c => max (-(2 ^ 23)) (min (2 ^ 23 - 1) (m.samples.getD c 0))
  let s := (s.each (List.range 40) fun s c => s.frontEnd c (raw c) (m.faulty.getLsbD c)).filterSet raw
  let s := s.zeroCross (s.correctSample (s.rd R.MTR_CFG.REFPH) - s.correctSample 3) stamp
  let s := s.each (List.range 40) fun s c => s.sampleFlags c (raw c)
  let i := s.correctSample
  let v := fun c => i c - i 3
  let s0 := s
  let s := s.each (List.range 12) fun s f => s.feederSlots f v i
  let volts := if (List.range 12).any s0.fdrStreams then List.range 4 else []
  let amps := ((List.range 36).map (4 + ·)).filter fun c => s0.fdrStreams ((c - 4) / 3)
  let s := s.each (volts ++ amps) fun s c => s.stream c (if c < 3 then v c else i c) stamp (clipped (raw c))
  let n := s.mtr
  let s : State := { s with mtr := { n with
    round := some { regs := s0.mtr.regs, phases := s0.mtr.phases, count := s0.roundSamples }
    cycSamples := n.cycSamples + 1, sinceEn := n.sinceEn + 1, nsamp := n.nsamp + 1, fbSamples := n.fbSamples + 1
    latStart := false } }
  s.publishRound.bump R.MTR_CNT_ROUND.COUNT

/-! Enable, faults (R293, R299). -/

/-- A channel record fails its checks (R299); every record is checked, whatever its EN and its kind of channel. -/
def State.badChannel (s : State) (rec : Nat) : Bool :=
  let w := fun o => s.chw rec o
  let cfg := w 0
  let gain := fun x => !F32.finite x || F32.lt x 0x3F000000#32 || F32.lt 0x40000000#32 x
  let phase := fun (x : Word) => x.toInt < -65536 || 65536 < x.toInt
  let ts := (List.range 7).map fun i => w (0x10 + 4 * i)
  1 < getField cfg 2 2 || 4 < getField cfg 4 3 || getField cfg 7 2 == 3
    || !F32.finite (w 4) || !F32.lt 0#32 (w 4)
    || ts.any (fun t => !F32.finite t || F32.lt t 0#32)
    || (List.range 6).any (fun i => !F32.lt (ts.getD i 0) (ts.getD (i + 1) 0))
    || !F32.finite (w 8) || F32.lt (w 8) 0#32 || F32.lt 0x3F000000#32 (w 8)
    || (List.range 8).any (fun i => gain (w (0x30 + 4 * i)) || phase (w (0x50 + 4 * i)))

/-- A feeder record with a reserved ELSB or reserved bits. -/
def State.badFeeder (s : State) (f : Nat) : Bool :=
  let w := s.fdr f
  getField w 3 5 != 0 || getField w 16 16 != 0 || elsbOf w < -3 || 6 < elsbOf w
    || (List.range 7).any fun i => s.mw (0x601 + 8 * f + i) != 0

/-- A publication entry that Table 8-17 does not allow. -/
def State.badPub (s : State) (e : Nat) : Bool :=
  let (i, w) := s.pubEntry e
  let q := getField w 8 8
  w.getLsbD 16 && (27 < q || 47 < getField w 0 8 || s.ownCount ≤ i
    || (q < 8 && recType (s.ownBytes i) != (if q = qEaNet then 4 else 5)))

/-- What EN finds wrong: the lowest cause with its first channel, feeder or entry. -/
def State.mtrFault (s : State) : Option (Nat × Nat) :=
  match (List.range 40).find? s.badChannel with
  | some c => some (1, c)
  | none =>
    match (List.range 12).find? s.badFeeder with
    | some f => some (2, f + 1)
    | none =>
      match (List.range 512).find? s.badPub with
      | some e => some (3, e)
      | none =>
        if 0x7F0000 < 2 ^ 14 * s.rd R.MTR_CKPT_BASE.BASE + 0x4000 then some (4, 0)
        else if s.assist .mtr && s.ringBad .mtr then some (6, 0) else none

/-- The engine starts (R276, R293, Table 8-4): what the filters and the oscillator keep of the time before is free; the sets
whose interval a fault or a stop cut short keep GAP, as the deltas of the first interval hold its energy (R289, R299). -/
def State.mtrStart (s : State) : State :=
  let first := !s.mtr.started
  let m := s.mtr
  let fr := s.fresh
  let chans := (List.range 40).map fun c =>
    ({ filt := Config.freeNat (fr + c), hist := (List.range 4).map fun i => Config.freeRat (fr + 40 + 4 * c + i) } : MtrChan)
  let s := s.taken 201
  let s : State := { s with mtr := { m with
    started := true, phases := [], chans := chans, osc := Config.freeRat (fr + 200), round := none
    flags := (m.flags.map fun (i, n) => (i, n % 2)).filter fun e => e.2 != 0, hdrFlags := 1, ncyc := 0, nsamp := 0, openMt := s.mtNs, cycMt := s.mtNs
    nlat := s.rd R.MTR_CFG.NLAT, cycSamples := 0, sinceEn := 0, cycles := 0, zcAt := none, armed := false, prevRef := 0
    prevStamp := s.mtNs, prevAt := s.now, sampleAt := max m.sampleAt s.now, tmoAt := s.now + s.tmoNs, fbSamples := 0
    fbCount := 0, run := 0, latStart := true, pubNext := none
    ckptAt := s.now + sec * s.rd R.MTR_CKPT_CFG.CKPT_S } }
  let s := s.each ((List.range 36).map (4 + ·)) fun s c => s.wr (R.MTR_CH_STAT.SEG c) 0
  let s := s.wr R.MTR_STAT.ZCSTATE zcSeek
  if first then s.restoreAll else s.clear R.MTR_STAT.RESTORED

/-- The engine enters OFF: a checkpoint starts (R293). -/
def State.mtrOff (s : State) : State := s.ckptStart

/-- The round in progress undone: none of its samples is accumulated, and each is counted (R299, R302); a checkpoint begun in
it takes the registers of its boundary (R294). -/
def State.abandonRound (s : State) : State :=
  match s.mtr.round with
  | none => s
  | some d =>
    if s.mtr.sampleAt ≤ s.now ∨ d.count = 0 then s
    else
      let m := s.mtr
      let s : State := { s with mtr := { m with
        regs := d.regs, phases := d.phases, nsamp := m.nsamp - 1, cycSamples := m.cycSamples - 1, round := none
        ckpt := m.ckpt.map fun c => if c.regs = m.regs then { c with regs := d.regs } else c } }
      (s.bumpBy R.MTR_CNT_GAP.COUNT d.count).raise R.MTR_INTSTAT.GAP

/-- A fault abandons the round; the interval's sets carry GAP (R299). -/
def State.mtrXbar (s : State) : State := s.abandonRound.each (List.range 48) fun s σ => s.setFlag mfGap σ

/-- MTR_MDATA as read: the internal area reads 0 (Table 8-15). -/
def State.mtrWord (s : State) (w : Nat) : Word := if w < 0x2C00 then s.mw w else 0

/-- MTR_RVAL as the selected register gives it; 384 to 511 read 0 (R302). -/
def State.mtrRval (s : State) : Nat :=
  let r := s.rd R.MTR_RSEL.REG
  if r < 384 then (s.mreg r).word else 0

end Sys2Proof.Machine
end

