-- ==== Sys2Proof/Machine/Can.lean ====
section
/-!
DEFINITION. The CAN FD controllers' commands (ch10): requests and cancels, attempts, reception and filtering, locks, sleep and
wake, bus-off, captures.
-/

namespace Sys2Proof.Machine

/-- The controller takes part in the bus: RUN or DRAIN, awake, integrated, not BUS_OFF (R366 to R368). -/
def State.canOnBus (s : State) (c : Nat) : Bool :=
  s.working (canUnit c) && !s.on (R.CAN_STAT.SLEEP c) && !s.on (R.CAN_STAT.INTEG c) && s.rd (R.CAN_ERR.EST c) != 2

/-! Errors (R362 to R365). -/

/-- The error state after a change of TEC or REC short of bus-off: passive above 127 (R362). -/
def State.canErrState (s : State) (c : Nat) : State :=
  let passive := 127 < s.rd (R.CAN_ERR.TEC c) || 127 < s.rd (R.CAN_ERR.REC c)
  let est := s.rd (R.CAN_ERR.EST c)
  if est = 0 ∧ passive then
    (((s.wr (R.CAN_ERR.EST c) 1).raise (R.CAN_INTSTAT.EPASS c)).event 0x0A02 (unit := c))
  else if est = 1 ∧ !passive then (s.wr (R.CAN_ERR.EST c) 0).raise (R.CAN_INTSTAT.ERRACT c)
  else s

/-- BUS_OFF entered (R363): recovery starts at once with BOAUTO; the image unit is told (R360). TEC above 255 does not fit its
field: what it reads is free (notes/assumptions/21). -/
def State.busOff (s : State) (c : Nat) : State :=
  let s := ((s.wr (R.CAN_ERR.EST c) 2).wr (R.CAN_ERR.TEC c) (Config.freeNat s.fresh)).taken
  let s := (s.raise (R.CAN_INTSTAT.BUSOFF c)).event 0x0A00 (unit := c)
  let s := if s.on (R.CAN_CFG.BOAUTO c) then
      (s.setCan c { s.canOf c with recovering := true }).raise (R.CAN_STAT.INTEG c) else s
  s.canUnreach c

/-- TEC counted up by a transmitter's error flag (ISO 11898-1). -/
def State.tecUp (s : State) (c : Nat) : State :=
  let t := s.rd (R.CAN_ERR.TEC c) + 8
  if 255 < t then s.busOff c else (s.wr (R.CAN_ERR.TEC c) t).canErrState c

/-- ACKRUN back to 0, and LONE with it (R365). -/
def State.ackSeen (s : State) (c : Nat) : State := (s.wr (R.CAN_ERR.ACKRUN c) 0).clear (R.CAN_ERR.LONE c)

/-- An error frame sent by the controller. -/
def State.errorFrame (s : State) (c lec : Nat) : State := (s.bump (R.CAN_CNT_ERR.COUNT c)).wr (R.CAN_ERR.LEC c) lec

/-! Attempts. -/

/-- A buffer's identifier as the bus compares it, lowest first (R348). -/
def State.arbKey (s : State) (c b : Nat) : List Nat :=
  let w := s.canRam c (tbWord b)
  let xtd := w.getLsbD 29
  let id := getField w 0 29
  [if xtd then id / 2 ^ 18 else id % 2 ^ 11, if xtd then 1 else 0, if xtd then id % 2 ^ 18 else 0,
   if w.getLsbD 30 then 1 else 0, b]

/-- Lists of numbers compared place by place. -/
def keyBelow : List Nat → List Nat → Bool
  | x :: xs, y :: ys => x < y || (x == y && keyBelow xs ys)
  | _, _ => false

/-- The pending buffer that would win on the bus (R348). -/
def State.winner (s : State) (c : Nat) : Option Nat :=
  (below 64 fun b => s.txst c b == txPending).foldl (fun best b =>
    match best with
    | none => some b
    | some a => if keyBelow (s.arbKey c b) (s.arbKey c a) then some b else best) none

/-- The first word of a buffer that fails parity, among the words a transmission reads: ID, CTL and the data of its length. -/
def State.badTbWord (s : State) (c b : Nat) : Option Nat :=
  let ctl := s.canRam c (tbWord b + 1)
  let words := (dlcLen (ctl.getLsbD 4) (getField ctl 0 4) + 3) / 4
  ([0, 1] ++ (List.range words).map (4 + ·)).find? fun i => s.canBad c (tbWord b + i)

/-- Transmission halts at a buffer's failing word (R351), egress channel 3 (R386): the address held is the word's offset in
the message RAM, which has no bus address (notes/assumptions/25). -/
def State.txHalt (s : State) (c b i : Nat) : State :=
  let s := (s.txEnd c b txPoison).raise (R.CAN_STAT.TXHALT c)
  let s := ((s.wr (R.CAN_TXHALT.BUF c) b).raise (R.CAN_TXHALT.HALT c)).wr (R.CAN_TXHALT.OFS c) (4 * (tbWord b + i))
  ((s.raise (R.CAN_INTSTAT.TXHALT c)).event 0x0A05 (unit := c) (subj := b)).egressHalt 3 c (4 * (tbWord b + i))

/-- ATTEMPTS counted (R350, Table 10-5). -/
def State.attemptFailed (s : State) (c b : Nat) : State :=
  let w := s.tbStat c b
  s.setTbStat c b (putField w 8 8 (min 255 (getField w 8 8 + 1)))

/-- Where a data bit of a transmitted frame with BRS is checked (R343): with TDC the loop delay, measured and stored in TDCV,
and TDCO after the bit's start; without TDC at the ordinary sample point. The delay is the transceiver's: free. -/
def State.dataCheck (s : State) (c b : Nat) : Option Nat × State :=
  if !(s.canRam c (tbWord b + 1)).getLsbD 5 then (none, s)
  else if s.on (R.CAN_DBT.TDC c) then
    let s := (s.wr (R.CAN_TDC.TDCV c) (Config.freeNat s.fresh)).taken
    (some (s.rd (R.CAN_TDC.TDCV c) + s.rd (R.CAN_TDC.TDCO c)), s)
  else (some ((s.rd (R.CAN_DBT.DBRP c) + 1) * (s.rd (R.CAN_DBT.DTSEG1 c) + 2)), s)

/-- An arbitration opportunity (R348, R351): the winning buffer becomes ACTIVE with its start-of-frame time stamp. ID and CTL are
read before the start of frame; whether a failing data word is read before it or after is free (notes/assumptions/25). -/
def State.canStartFrame (s : State) (c : Nat) : State :=
  if !s.canOnBus c || !s.running (canUnit c) || s.on (R.CAN_STAT.TXHALT c) || s.on (R.CAN_CFG.LISTEN c)
      || (s.canOf c).sleepPending || (s.canOf c).attempt.isSome then s
  else
    match s.winner c with
    | none => s
    | some b =>
      match s.badTbWord c b with
      | some i =>
        if i < 2 || Config.freeBit s.fresh then (s.taken).txHalt c b i
        else (((((s.taken).errorFrame c (s.rd (R.CAN_ERR.LEC c))).attemptFailed c b).tecUp c).txHalt c b i)
      | none =>
        let s := s.setTxst c b txActive
        let s := s.setCanRam c (tbWord b + 2) (BitVec.ofNat 32 s.canTs)
        let (check, s) := s.dataCheck c b
        s.setCan c { s.canOf c with attempt := some { buf := b, check := check } }

/-- A failed attempt: ABORTED where a cancel is latched, PENDING otherwise (R350, R352). -/
def State.attemptBack (s : State) (c b : Nat) : State :=
  if s.on (canCan c b) then s.txEnd c b txAborted else s.txPend c b

/-- ABORT under the lone-node policy (R365): every PENDING buffer, and the one just failed, to NO_ACK. -/
def State.loneAbort (s : State) (c : Nat) : State :=
  s.each (below 64 fun b => s.txst c b == txPending) fun s b => s.txEndState c b txNoAck

/-- An ACK error (R364, R365). -/
def State.ackError (s : State) (c b : Nat) : State :=
  let s := ((s.bump (R.CAN_CNT_ACKERR.COUNT c)).errorFrame c 3).attemptFailed c b
  let s := if s.rd (R.CAN_ERR.EST c) = 0 then s.tecUp c else s
  let n := min 255 (s.rd (R.CAN_ERR.ACKRUN c) + 1)
  let s := s.wr (R.CAN_ERR.ACKRUN c) n
  let reached := s.rd (R.CAN_CFG.LONE_LIM c) ≤ n && !s.on (R.CAN_ERR.LONE c)
  let s := if reached then
      ((s.raise (R.CAN_ERR.LONE c)).raise (R.CAN_INTSTAT.LONE c)).event 0x0A03 (unit := c) else s
  let s := s.attemptBack c b
  if s.on (R.CAN_CFG.LONE_POL c) then
    if reached then (s.loneAbort c).stnFill c (s.canOf c).stnOut.length
    else if s.on (R.CAN_ERR.LONE c) && s.txst c b == txPending then s.txEnd c b txNoAck
    else s
  else s

/-- The end of the attempt in progress (R349 to R352, R362). -/
def State.canEndAttempt (s : State) (c : Nat) (r : CanEnd) : State :=
  match (s.canOf c).attempt with
  | none => s
  | some a =>
    let b := a.buf
    let s := s.setCan c { s.canOf c with attempt := none }
    match r with
    | .ok =>
      let late := s.on (canCan c b)
      let s := s.bump (R.CAN_CNT_TXOK.COUNT c)
      let s := (s.wr (R.CAN_ERR.TEC c) (s.rd (R.CAN_ERR.TEC c) - 1)).canErrState c
      let s := s.ackSeen c
      let s := if late then s.setTbStat c b (putField (s.tbStat c b) 3 1 1) else s
      s.txEnd c b txOk
    | .arbLost => (s.bump (R.CAN_CNT_ARBLOST.COUNT c)).attemptBack c b
    | .noAck => s.ackError c b
    | .error lec => (((s.errorFrame c lec).attemptFailed c b).tecUp c).attemptBack c b

/-! Reception. -/

/-- A filter overflow (R359): counted, raised, recorded once per controller per second. -/
def State.fltovf (s : State) (c : Nat) : State :=
  let s := (s.bump (R.CAN_CNT_FLTOVF.COUNT c)).raise (R.CAN_INTSTAT.FLTOVF c)
  if dueAgain (s.canOf c).fltovfAt s.now sec then
    (s.setCan c { s.canOf c with fltovfAt := some s.now }).event 0x0A07 (unit := c)
  else s

/-- The ring of a controller. -/
def canAsn (c : Nat) : AsnBlock := .can (Fin.ofNat 4 c)

/-- A free hold slot: no descriptor that waits names it (R359). -/
def State.freeHold (s : State) (c : Nat) : Option Nat :=
  (List.range 32).find? fun h => !((s.posts (canAsn c)).any fun p => !p.timedOut && p.src % 256 == h)

/-- A frame handed to the assist server (R359). The filter number of its CTL word, which no filter gives, is free
(notes/assumptions/26). -/
def State.canToServer (s : State) (c : Nat) (f : CanFrame) : State :=
  match s.freeHold c with
  | none => s.fltovf c
  | some h =>
    if s.ringFull (canAsn c) then (s.bump (canAsn c).DROP).fltovf c
    else
      let (ws, s) := (s.taken).rxWords f (Config.freeNat s.fresh % 128)
      let s := s.setCanWords c (holdWord h) ws
      let arg := (ws.take 3).flatMap (fun w => bytesLE w.toNat 4) ++ bytesLE h 1 ++ zeros 3
      (s.asnPost (canAsn c) 1 (256 * c + h) arg false [h] (some 0x0A07)).2

/-- A frame without error meets the rules of R354. -/
def State.canFilterFrame (s : State) (c : Nat) (f : CanFrame) : State :=
  let base := 0x100 * s.rd R.IMG_STN_CANBASE.BASE
  if s.stationsOn c && f.fdf && !f.xtd && base ≤ f.id && f.id < base + 0x100 then
    let typ := (f.id - base) / 0x40 + 1
    if typ = 2 ∨ typ = 4 then
      let s := s.bump (R.CAN_CNT_STNRX.COUNT c)
      s.setCan c { s.canOf c with stnIn := (s.canOf c).stnIn ++ [((f.id - base) % 0x40, f.data, (s.canTs + 2 ^ 32 - f.ago % 2 ^ 32) % 2 ^ 32)] }
    else s.bump (R.CAN_CNT_REJ.COUNT c)
  else if s.assist (canUnit c) then s.canToServer c f
  else
    match (List.range 128).find? fun i => (s.canFilter c i).hits f with
    | some i =>
      let t := s.canFilter c i
      if t.action = 1 then s.bump (R.CAN_CNT_REJ.COUNT c)
      else
        let (ws, s) := s.rxWords f i
        if t.fifo then s.fifoStore c ws else s.rxStore c t.rxbuf ws
    | none =>
      if s.on (R.CAN_CFG.NOMATCH c) then
        let (ws, s) := s.rxWords f 0x7F
        s.fifoStore c ws
      else s.bump (R.CAN_CNT_REJ.COUNT c)

/-- A bus error while receiving (R362): an error frame, REC up. A controller that listens sends none
(notes/assumptions/27). -/
def State.canRxErr (s : State) (c lec : Nat) : State :=
  if !s.canOnBus c then s
  else if s.on (R.CAN_CFG.LISTEN c) then s.wr (R.CAN_ERR.LEC c) lec
  else
    let s := s.errorFrame c lec
    (s.wr (R.CAN_ERR.REC c) (min 255 (s.rd (R.CAN_ERR.REC c) + 1))).canErrState c

/-- REC after a frame received without error (ISO 11898-1): one less, or, above 127, a value from 119 to 127. -/
def State.recDown (s : State) (c : Nat) : State :=
  let n := s.rd (R.CAN_ERR.REC c)
  if 127 < n then (((s.wr (R.CAN_ERR.REC c) (119 + Config.freeNat s.fresh % 9)).taken).canErrState c)
  else s.wr (R.CAN_ERR.REC c) (n - 1)

/-- A frame on the bus completes (R340, R354, R365): a recessive FDF bit without FDEN is a form error. -/
def State.canReceive (s : State) (c : Nat) (f : CanFrame) : State :=
  if !s.canOnBus c then s
  else if f.fdf && !s.on (R.CAN_CFG.FDEN c) then s.canRxErr c 2
  else (((s.bump (R.CAN_CNT_RXOK.COUNT c)).recDown c).ackSeen c).canFilterFrame c f

/-- A reaped descriptor's result (R359). -/
def State.canResult (r : Reaped) (c : Nat) : State :=
  let s := r.st
  let h := r.post.src % 256
  if r.post.timedOut then s
  else if r.status ≠ 0 then s
  else if !r.ok then s.fltovf c
  else
    let acc := numAt r.result 14 1
    let k := numAt r.result 15 1 % 128
    let ws := s.canWords c (holdWord h) 20
    if acc % 2 = 0 then s.bump (R.CAN_CNT_REJ.COUNT c)
    else if acc / 2 % 2 = 1 then s.fifoStore c ws
    else if s.inFifo c k then s
    else s.rxStore c k ws

/-! Message RAM writes (R345, R347). -/

/-- What a firmware write to a word of the message RAM meets. -/
inductive CanWrite where
  | done | silent | rejected
  deriving DecidableEq, Repr

def State.canWriteMay (s : State) (c w : Nat) : CanWrite :=
  let off := s.rd (canUnit c).STATE == stOff
  if w < 1280 then
    let st := s.txst c (w / 20)
    if st = txPending ∨ st = txActive then .rejected else if w % 20 = 3 then .silent else .done
  else if w < 3840 then (if !off then .rejected else if (w - 1280) % 20 = 3 then .silent else .done)
  else if 4096 ≤ w ∧ w < 4608 then (if off then .done else .rejected)
  else .silent

/-- A write through MDATA (R345, R347): the address advances in every case. -/
def State.canMdata (s : State) (c : Nat) (v : Word) : State :=
  let w := s.rd (R.CAN_MADDR.WADDR c)
  let s := s.wr (R.CAN_MADDR.WADDR c) (w + 1)
  match s.canWriteMay c w with
  | .done => s.setCanRam c w v
  | .silent => s
  | .rejected => s.raise (R.CAN_INTSTAT.WRREJ c)

/-- A read of the message RAM (R345): internal and reserved areas read 0; a parity error sets RAMERR and the buffer's PERR. -/
def State.canReadRam (s : State) (c w : Nat) : Word × State :=
  if (3840 ≤ w ∧ w < 4096) ∨ 4608 ≤ w then (0, s)
  else
    let v := s.canRam c w
    if !s.canBad c w then (v, s)
    else
      let s := s.raise (R.CAN_INTSTAT.RAMERR c)
      let s := if 1280 ≤ w ∧ w < 3840 then
          let st := rbWord ((w - 1280) / 20) + 3
          s.setCanRam c st (putField (s.canRam c st) 2 1 1) else s
      (v, s)

/-! Sleep and wake (R366, R367). -/

/-- A command completes with a result. -/
def State.canCmd (s : State) (c op result : Nat) : State :=
  ((s.wr (R.CAN_CMD.OP c) op).wr (R.CAN_CMD.RESULT c) result).raise (R.CAN_INTSTAT.CMDDONE c)

/-- The controller wakes, or a SLEEP under way ends, with a source (R367). -/
def State.canWakeUp (s : State) (c src : Nat) : State :=
  let s := s.setCan c { s.canOf c with sleepPending := false }
  let s := ((s.clear (R.CAN_STAT.SLEEP c)).wr (R.CAN_WUF_CFG.WAKESRC c) src).raise (R.CAN_INTSTAT.WAKE c)
  (s.raise (R.CAN_STAT.INTEG c)).event 0x0A04 (unit := c)

/-- Asleep, or on the way there, in RUN. -/
def State.canSleeps (s : State) (c : Nat) : Bool :=
  s.running (canUnit c) && (s.on (R.CAN_STAT.SLEEP c) || (s.canOf c).sleepPending)

/-- A classical frame is the wake frame (R366). -/
def State.wakeFrame (s : State) (c : Nat) (f : CanFrame) : Bool :=
  let mask := s.rd (R.CAN_WUF_MASK.MASK c)
  let data := numAt f.data 0 8
  let two := fun (r : Nat → Nat → Nat) => r c 0 + 2 ^ 32 * r c 1
  let d := two fun i j => s.rd (R.CAN_WUF_D.DATA i j)
  let m := two fun i j => s.rd (R.CAN_WUF_DM.MASK i j)
  !f.fdf && f.xtd == s.on (R.CAN_WUF_ID.XTD c) && Nat.land (Nat.xor f.id (s.rd (R.CAN_WUF_ID.ID c))) mask == 0
    && f.dlc == s.rd (R.CAN_WUF_CFG.DLC c)
    && (!s.on (R.CAN_WUF_CFG.DATAEN c) || Nat.land (Nat.xor data d) (m % 2 ^ (8 * min 8 f.dlc)) == 0)

/-- What wakes an otherwise sleeping controller, by WMODE (R366). -/
def State.wakeSource (s : State) (c : Nat) (e : CanWake) : Option Nat :=
  match e, s.on (R.CAN_WUF_CFG.WMODE c) with
  | .pattern, false => some 1
  | .frame f, true => if s.wakeFrame c f then some 2 else none
  | .overflow, true => some 3
  | _, _ => none

/-- CAN_TX_REQUEST (R348): W1S to CANn_TXRQ0 (w 0) or TXRQ1 (w 1). -/
def execCanTxRequest (c w : Nat) (v : Word) (s : State) : Host.Outcome State Fault Refusal :=
  onUnit (c < 4 && w < 2) (s.each (below 32 fun b => v.getLsbD b) fun s b => s.txRequest c (32 * w + b))

/-- A cancel of a buffer (R352). One whose start-of-frame sample point falls in the same CAN cycle, in the start that waits
next, is latched (R353). -/
def State.cancelAt (s : State) (c b : Nat) : State :=
  match s.pending with
  | .canFrameStart d :: _ =>
    if d = c ∧ s.txst c b = txPending ∧ ((s.canStartFrame c).canOf c).attempt.any (·.buf == b) then s.raise (canCan c b)
    else s.txCancel c b
  | _ => s.txCancel c b

/-- CAN_TX_CANCEL (R352). -/
def execCanTxCancel (c w : Nat) (v : Word) (s : State) : Host.Outcome State Fault Refusal :=
  onUnit (c < 4 && w < 2)
    (let s := s.each (below 32 fun b => v.getLsbD b) fun s b => s.cancelAt c (32 * w + b)
     s.stnFill c (s.canOf c).stnOut.length)

/-- CAN_FRAME_START (R348). -/
def execCanFrameStart (c : Nat) (s : State) : Host.Outcome State Fault Refusal := onUnit (c < 4) (s.canStartFrame c)

/-- CAN_TX_ATTEMPT_END (R349). -/
def execCanTxAttemptEnd (c : Nat) (r : CanEnd) (s : State) : Host.Outcome State Fault Refusal :=
  onUnit (c < 4) (s.canEndAttempt c r)

/-- CAN_FRAME_RECEIVED (R354). -/
def execCanFrameReceived (c : Nat) (f : CanFrame) (s : State) : Host.Outcome State Fault Refusal :=
  onUnit (c < 4) (s.canReceive c f)

/-- CAN_PROTOCOL_EXCEPTION (R340, Table 10-1). -/
def execCanProtocolException (c : Nat) (s : State) : Host.Outcome State Fault Refusal :=
  onUnit (c < 4) (
    if s.canOnBus c && s.on (R.CAN_CFG.FDEN c) then
      let s := (s.raise (R.CAN_STAT.INTEG c)).bump (R.CAN_CNT_PXE.COUNT c)
      let s := (s.raise (R.CAN_INTSTAT.PXE c)).wr (R.CAN_ERR.LEC c) 7
      if dueAgain (s.canOf c).pxeAt s.now sec then
        (s.setCan c { s.canOf c with pxeAt := some s.now }).event 0x0A08 (unit := c)
      else s
    else s)

/-- CAN_RX_LOCK (R357): one lock at a time; a lock held elsewhere is released first. -/
def execCanRxLock (c buf : Nat) (s : State) : Host.Outcome State Fault Refusal :=
  onUnit (c < 4 && buf < 128) (
    let s := if (s.canOf c).lock.any (·.buf == buf) then s else s.rxUnlock c
    let s := (s.wr (R.CAN_RXLOCK.BUF c) buf).raise (R.CAN_RXLOCK.LOCK c)
    s.setCan c { s.canOf c with lock := some { buf := buf, since := s.now } })

/-- CAN_RX_RELEASE (R357): the write of 0, with POP or without. -/
def execCanRxRelease (c : Nat) (pop : Bool) (s : State) : Host.Outcome State Fault Refusal :=
  onUnit (c < 4) (
    let s := (s.rxUnlock c).setReg (R.CAN_RXLOCK.addr c) 0
    if pop then s.fifoPop c else s)

/-- CAN_LOCK_TIMEOUT (R357). -/
def execCanLockTimeout (c : Nat) (s : State) : Host.Outcome State Fault Refusal :=
  onUnit (c < 4) (
    match (s.canOf c).lock with
    | none => s
    | some l => (((s.advance (l.since + ms)).rxUnlock c).clear (R.CAN_RXLOCK.LOCK c)).raise (R.CAN_INTSTAT.LOCKTO c))

/-- CAN_RXNEW_FREE (R356). -/
def execCanRxnewFree (c w : Nat) (v : Word) (s : State) : Host.Outcome State Fault Refusal :=
  onUnit (c < 4 && w < 4) (s.each (below 32 fun b => v.getLsbD b) fun s b => s.rbFree c (32 * w + b))

/-- CAN_MDATA_WRITE (R347). -/
def execCanMdataWrite (c : Nat) (v : Word) (s : State) : Host.Outcome State Fault Refusal := onUnit (c < 4) (s.canMdata c v)

/-- CAN_SLEEP (R366). -/
def execCanSleep (c : Nat) (s : State) : Host.Outcome State Fault Refusal :=
  onUnit (c < 4) (
    if !s.running (canUnit c) || s.rd (R.CAN_ERR.EST c) == 2 then s.canCmd c 1 1
    else if s.on (R.CAN_WUF_CFG.WMODE c) && 8 < s.rd (R.CAN_WUF_CFG.DLC c) then s.canCmd c 1 2
    else (s.setCan c { s.canOf c with sleepPending := !s.on (R.CAN_STAT.SLEEP c) }).canCmd c 1 0)

/-- CAN_SLEEP_ENTERED (R366): the frame on the bus has completed. -/
def execCanSleepEntered (c : Nat) (s : State) : Host.Outcome State Fault Refusal :=
  onUnit (c < 4) (
    if (s.canOf c).sleepPending && (s.canOf c).attempt.isNone then
      (s.setCan c { s.canOf c with sleepPending := false }).raise (R.CAN_STAT.SLEEP c)
    else s)

/-- CAN_WAKE (R366): the local wake. In RUN alone: a controller in OFF keeps its transceiver asleep (R367). -/
def execCanWake (c : Nat) (s : State) : Host.Outcome State Fault Refusal :=
  onUnit (c < 4) (
    if !s.running (canUnit c) then s.canCmd c 2 1
    else if s.canSleeps c then (s.canWakeUp c 4).canCmd c 2 0
    else s.canCmd c 2 0)

/-- CAN_WAKE_EVENT (R367). -/
def execCanWakeEvent (c : Nat) (e : CanWake) (s : State) : Host.Outcome State Fault Refusal :=
  onUnit (c < 4) (
    match s.wakeSource c e with
    | some src => if s.canSleeps c then s.canWakeUp c src else s
    | none => s)

/-- CAN_BORECOV (R363). -/
def execCanBorecov (c : Nat) (s : State) : Host.Outcome State Fault Refusal :=
  onUnit (c < 4) (
    if s.rd (R.CAN_ERR.EST c) = 2 then
      ((s.setCan c { s.canOf c with recovering := true }).raise (R.CAN_STAT.INTEG c)).canCmd c 3 0
    else s.canCmd c 3 3)

/-- CAN_BUSOFF_RECOVERY_COMPLETE (R363). -/
def execCanBusoffRecoveryComplete (c : Nat) (s : State) : Host.Outcome State Fault Refusal :=
  onUnit (c < 4) (
    if (s.canOf c).recovering then
      let s := (s.setCan c { s.canOf c with recovering := false }).clear (R.CAN_STAT.INTEG c)
      let s := ((s.wr (R.CAN_ERR.EST c) 0).wr (R.CAN_ERR.TEC c) 0).wr (R.CAN_ERR.REC c) 0
      ((s.raise (R.CAN_INTSTAT.BORECOV c)).raise (R.CAN_INTSTAT.ERRACT c)).event 0x0A01 (unit := c)
    else s)

/-- CAN_TXRESUME (R351). -/
def execCanTxresume (c : Nat) (s : State) : Host.Outcome State Fault Refusal :=
  onUnit (c < 4) (
    if s.on (R.CAN_STAT.TXHALT c) then ((s.clear (R.CAN_STAT.TXHALT c)).clear (R.CAN_TXHALT.HALT c)).canCmd c 4 0
    else s.canCmd c 4 4)

/-- CAN_ABORTALL (R353). -/
def execCanAbortall (c : Nat) (s : State) : Host.Outcome State Fault Refusal :=
  onUnit (c < 4) (
    let s := s.each (List.range 64) fun s b => s.cancelAt c b
    (s.stnFill c (s.canOf c).stnOut.length).canCmd c 5 0)

/-- CAN_TS_CAPTURE (R361): at the next whole millisecond of MT that has not been captured. -/
def execCanTsCapture (c : Nat) (s : State) : Host.Outcome State Fault Refusal :=
  onUnit (c < 4) (
    let last := s.rd64 (R.CAN_TSC_MT_LO.addr c) (R.CAN_TSC_MT_HI.addr c)
    let at_ := (s.mtNs + ms - 1) / ms * ms
    let s := s.advanceMt (if at_ = last then at_ + ms else at_)
    (s.wr (R.CAN_TSC_CNT.CNT c) s.canTs).wr64 (R.CAN_TSC_MT_LO.addr c) (R.CAN_TSC_MT_HI.addr c) s.mtNs)

/-- CAN_RX_ERROR (R362). -/
def execCanRxError (c lec : Nat) (s : State) : Host.Outcome State Fault Refusal := onUnit (c < 4) (s.canRxErr c lec)

/-- CAN_INTEGRATION_COMPLETE (R368). -/
def execCanIntegrationComplete (c : Nat) (s : State) : Host.Outcome State Fault Refusal :=
  onUnit (c < 4) (if (s.canOf c).recovering then s else s.clear (R.CAN_STAT.INTEG c))

end Sys2Proof.Machine
end

