-- ==== Sys2Proof/Machine/Dio.lean ====
section
/-!
DEFINITION. The field I/O blocks' commands (ch09): inputs and filters, counters, outputs and their field sides, the
keep-alive and its supervisor, the reflex matrix, analog conversions.
-/

namespace Sys2Proof.Machine

/-! Digital inputs. -/

/-- A filter's time, 0 where it is bypassed (R306). -/
def State.filterTime (s : State) (ch : Nat) : Nat :=
  s.rd (R.DIO_FLT.FLT (ch - 8)) * (if s.on (R.DIO_FLT.FUNIT (ch - 8)) then ms else 10 * us)

/-- The filtered channels whose level has been held for the filter time by the IO cycle in progress (R306). -/
def State.filtersDue (s : State) : List Nat :=
  below 32 fun ch => 8 ≤ ch && s.filterTime ch != 0 && s.dio.raw.getLsbD ch != s.di ch
    && (SMap.get (fun _ => 0) s.dio.since ch + s.filterTime ch) / 10 ≤ s.now / 10

/-- The synchronised levels take new values, once in an IO cycle (R305, R306): the unfiltered channels change state, a filter
that accepts in this cycle does, and a filtered channel whose level changes restarts its stability count. All changes of the
cycle stand before a rule is evaluated (R322). -/
def State.diLevels (s : State) (levels : BitVec 32) : State :=
  let s := if s.dio.edgeCycle = s.ioCycle then s.advance (10 * s.ioCycle) else s
  let old := s.dio.raw
  let filtered := fun ch => 8 ≤ ch && s.filterTime ch != 0
  let held := s.filtersDue.foldl (fun n ch => withBit n ch (old.getLsbD ch)) (s.rd R.DIO_DI_STATE.STATE)
  let s1 := s.each (below 32 fun ch => filtered ch && levels.getLsbD ch != old.getLsbD ch) fun s ch =>
    { s with dio := { s.dio with since := SMap.set (fun _ => 0) s.dio.since ch s.now } }
  let s1 : State := { s1 with dio := { s1.dio with raw := levels, edgeCycle := s.ioCycle } }
  s1.diStates ((List.range 32).foldl (fun n ch => if filtered ch then n else withBit n ch (levels.getLsbD ch)) held)

/-- The inputs as the reset is released: the states are the levels at the couplers, every filter bypassed; no change is seen
(R305, R338). What the return lanes and the supplies show is shown again (Tables 9-10, 9-13). -/
def State.fieldSample (s : State) : State :=
  let supplied := fun o => s.rd (OutCh.FSTATE o) != fsNosupply
  let fs := ((List.range 3).map fun g => (supplied (.digital (8 * g))).toNat * 2 ^ g).sum
  let nlive := ((List.range 8).map fun c => (s.rd (R.AIO_AO_STAT.FSTATE c) != fsLive).toNat * 2 ^ c).sum
  ((s.wr R.DIO_DI_STATE.STATE s.dio.raw.toNat).wr R.DIO_STAT.FSOK fs).wr R.AIO_STAT.AONLIVE nlive
    |>.wrb R.AIO_STAT.FS4OK (supplied (.analog 0))

/-- A filter accepts the level it has seen for the filter time (R306). -/
def State.diAccept (s : State) (ch : Nat) : State :=
  let lvl := s.dio.raw.getLsbD ch
  if s.filterTime ch ≠ 0 ∧ lvl ≠ s.di ch then
    let s := s.advance (SMap.get (fun _ => 0) s.dio.since ch + s.filterTime ch)
    s.diStates (withBit (s.rd R.DIO_DI_STATE.STATE) ch lvl)
  else s

/-- DIO_FLTn written (R306): the channel's count restarts; a bypass passes the level at once. -/
def State.filterWrite (s : State) (ch : Nat) (v : Word) : State :=
  let s := s.wr (R.DIO_FLT.FLT (ch - 8)) ((R.DIO_FLT.FLT (ch - 8)).of v)
  let s := s.wr (R.DIO_FLT.FUNIT (ch - 8)) ((R.DIO_FLT.FUNIT (ch - 8)).of v)
  let s := { s with dio := { s.dio with since := SMap.set (fun _ => 0) s.dio.since ch s.now } }
  if s.filterTime ch = 0 then s.diStates (withBit (s.rd R.DIO_DI_STATE.STATE) ch (s.dio.raw.getLsbD ch)) else s

def execDiEdge (levels : BitVec 32) (s : State) : Host.Outcome State Fault Refusal := .next (s.diLevels levels)

def execDiFilterAccept (ch : Nat) (s : State) : Host.Outcome State Fault Refusal :=
  onUnit (8 ≤ ch && ch < 32) (s.diAccept ch)

def execDiFilterWrite (ch : Nat) (v : Word) (s : State) : Host.Outcome State Fault Refusal :=
  onUnit (8 ≤ ch && ch < 32) (s.filterWrite ch v)

/-! Counters. -/

/-- The next gate window end (R310): an MT instant that is a whole multiple of GATE_MS. -/
def State.gateEnd (s : State) (k : Nat) : Nat :=
  let g := ms * s.rd (R.DIO_CNT_CFG.GATE_MS k)
  if s.mtNs % g = 0 ∧ s.mtNs ≠ (s.cnt k).winEnd then s.mtNs else (s.mtNs / g + 1) * g

def execFreqGateWindowEnd (k : Nat) (s : State) : Host.Outcome State Fault Refusal :=
  onUnit (k < 8) (if s.rd (R.DIO_CNT_CFG.MODE k) = cntOff then s else (s.advanceMt (s.gateEnd k)).freqEnd k)

/-- DIO_CNTn_CFG written (R308, R310, R10): a new MODE clears the counter and the measurement; a new MODE or GATE_MS begins a
window. QUAD on an odd channel is reserved (R309). -/
def State.counterConfig (s : State) (k : Nat) (v : Word) : State :=
  let mode := (R.DIO_CNT_CFG.MODE k).of v
  let edge := (R.DIO_CNT_CFG.EDGE k).of v
  let gate := (R.DIO_CNT_CFG.GATE_MS k).of v
  let zw := (R.DIO_CNT_CFG.ZERO k).of v
  let s1 := s.wrIf (mode < 2 || (mode == 2 && k % 2 == 0)) (R.DIO_CNT_CFG.MODE k) mode
  let s1 := s1.wrIf (edge < 3) (R.DIO_CNT_CFG.EDGE k) edge
  let s1 := s1.wr (R.DIO_CNT_CFG.DIR k) ((R.DIO_CNT_CFG.DIR k).of v)
  let s1 := s1.wrIf (1 ≤ gate && gate ≤ 1000) (R.DIO_CNT_CFG.GATE_MS k) gate
  let s1 := s1.wrIf (1 ≤ zw) (R.DIO_CNT_CFG.ZERO k) zw
  if s1.rd (R.DIO_CNT_CFG.MODE k) ≠ s.rd (R.DIO_CNT_CFG.MODE k) then
    let s1 := (s1.wr (R.DIO_CNT_VAL.VAL k) 0).wr (R.DIO_CNT_FREQ.FREQ k) 0
    (s1.clear (R.DIO_CNT_STAT.FZERO k)).setCnt k { qerrAt := (s.cnt k).qerrAt, winEnd := s.mtNs }
  else if s1.rd (R.DIO_CNT_CFG.GATE_MS k) ≠ s.rd (R.DIO_CNT_CFG.GATE_MS k) then
    s1.setCnt k { s1.cnt k with winEnd := s.mtNs }
  else s1

def execCounterConfigWrite (k : Nat) (v : Word) (s : State) : Host.Outcome State Fault Refusal :=
  onUnit (k < 8) (s.counterConfig k v)

def execCounterClear (k : Nat) (s : State) : Host.Outcome State Fault Refusal :=
  onUnit (k < 8) (s.setCount k 0)

def execCounterLoad (k : Nat) (s : State) : Host.Outcome State Fault Refusal :=
  onUnit (k < 8) (s.setCount k (s.rd (R.DIO_CNT_PRESET.PRESET k)))

/-! Output commands (DIO_DO_CMD, AIO_AO_CMD). -/

/-- RESULT codes. -/
def ocOk : Nat := 0
def ocNoka : Nat := 1
def ocBadch : Nat := 2

/-- An output command as its register shows it: CH, OP, RESULT, and CMDDONE. -/
def State.outCmdDone (s : State) (analog : Bool) (ch : Option Nat) (op res : Nat) : State :=
  if analog then
    let s := match ch with | some c => s.wr R.AIO_AO_CMD.CH c | none => s
    ((s.wr R.AIO_AO_CMD.OP op).wr R.AIO_AO_CMD.RESULT res).raise R.AIO_INTSTAT.CMDDONE
  else
    let s := match ch with | some c => s.wr R.DIO_DO_CMD.CH c | none => s
    ((s.wr R.DIO_DO_CMD.OP op).wr R.DIO_DO_CMD.RESULT res).raise R.DIO_INTSTAT.CMDDONE

/-- RESUME (R317, R318): NOKA where the keep-alive does not run. -/
def State.doResume (s : State) (o : OutCh) : State :=
  let a := o.isAnalog
  if !o.ok then s.outCmdDone a (some o.ch) 1 ocBadch
  else (s.resume o).outCmdDone a (some o.ch) 1 (if s.on (fOUTACT a) then ocOk else ocNoka)

def State.doResumeAll (s : State) (analog : Bool) : State :=
  (s.resumeAll analog).outCmdDone analog none 2 (if s.on (fOUTACT analog) then ocOk else ocNoka)

/-- OCCLR (R315): OC clears and the terminal takes the level that the field-side state calls for. -/
def State.occlr (s : State) (ch : Nat) : State :=
  if 24 ≤ ch then s.outCmdDone false (some ch) 3 ocBadch
  else ((s.clear (R.DIO_DO_STAT.OC ch)).drive (.digital ch)).outCmdDone false (some ch) 3 ocOk

/-- RELOAD: the configuration sent again (Tables 9-9, 9-12). -/
def State.reload (s : State) (o : OutCh) : State :=
  let a := o.isAnalog
  let op := if a then 3 else 4
  if !o.ok then s.outCmdDone a (some o.ch) op ocBadch
  else (s.cfgFrame o false).outCmdDone a (some o.ch) op ocOk

def execDoResume (o : OutCh) (s : State) : Host.Outcome State Fault Refusal := onUnit o.nameable (s.doResume o)

def execDoResumeall (analog : Bool) (s : State) : Host.Outcome State Fault Refusal := .next (s.doResumeAll analog)

def execDoOcclr (ch : Nat) (s : State) : Host.Outcome State Fault Refusal := onUnit (ch < 32) (s.occlr ch)

def execOutputReload (o : OutCh) (s : State) : Host.Outcome State Fault Refusal := onUnit o.nameable (s.reload o)

/-! Keep-alive (R316 to R321). -/

/-- The value lanes of a block in use. -/
def State.laneOn (s : State) (analog : Bool) : State :=
  { s with dio := if analog then { s.dio with laneA := true } else { s.dio with lane := true } }

/-- OUTEN set (R318): every configuration and value sent, then the keep-alive started. An OUTEN already set sends nothing. -/
def State.outEnable (s : State) (analog : Bool) : State :=
  if s.on (fOUTEN analog) then s
  else
    let s := s.raise (fOUTEN analog)
    (((s.laneOn analog).each (blockOuts analog) fun s o => s.cfgFrame o true)).kaUpdate

def State.outDisable (s : State) (analog : Bool) : State := (s.clear (fOUTEN analog)).kaUpdate

def execOutputEnable (analog : Bool) (s : State) : Host.Outcome State Fault Refusal := .next (s.outEnable analog)

def execOutputDisable (analog : Bool) (s : State) : Host.Outcome State Fault Refusal := .next (s.outDisable analog)

/-- An output's CFG, or an AO's SAFECODE, written (R318, R335): sent to the field side while OUTEN = 1. -/
def State.outConfig (s : State) (o : OutCh) (safeCode : Bool) (v : Word) : State :=
  if s.locked then s
  else
    let s1 := match o with
      | .digital c =>
        let safe := (R.DIO_DO_CFG.SAFE c).of v
        let tmo := (R.DIO_DO_CFG.TMO c).of v
        (s.wrIf (c < 8 || safe != 3) (R.DIO_DO_CFG.SAFE c) safe).wrIf (1 ≤ tmo) (R.DIO_DO_CFG.TMO c) tmo
      | .analog c =>
        if safeCode then s.wr (R.AIO_AO_SAFECODE.CODE c) ((R.AIO_AO_SAFECODE.CODE c).of v)
        else
          let safe := (R.AIO_AO_CFG.SAFE c).of v
          let tmo := (R.AIO_AO_CFG.TMO c).of v
          ((s.wrIf (safe != 3) (R.AIO_AO_CFG.SAFE c) safe).wrIf (1 ≤ tmo) (R.AIO_AO_CFG.TMO c) tmo).wr
            (R.AIO_AO_CFG.SRC c) ((R.AIO_AO_CFG.SRC c).of v)
    if s1.on (fOUTEN o.isAnalog) then s1.cfgFrame o false else s1

def execDoConfigWrite (o : OutCh) (safeCode : Bool) (v : Word) (s : State) : Host.Outcome State Fault Refusal :=
  onUnit (o.ok && (o.isAnalog || !safeCode)) (s.outConfig o safeCode v)

/-- The command that waits next, in the same cycle, is a kick. -/
def State.kickNext (s : State) : Bool :=
  match s.pending with
  | .kick :: _ => true
  | .registerWrite _ a v :: _ => a == R.DIO_KA_KICK.addr && v.getLsbD 0
  | _ => false

/-- Silence (R316, Table 9-3): LIVE to SAFE, between TMO and 1.1 TMO after the last toggle; when within it, is open. A toggle of
the same cycle prevails (R321): the kick that waits next restarts the keep-alive. -/
def State.silence (s : State) (o : OutCh) : State :=
  if s.rd o.FSTATE = fsLive ∧ !s.on (fOUTACT o.isAnalog) then
    let x := s.out o
    let late := Config.freeNat s.fresh % (ms * x.timing / 10 + 1)
    let s := (s.advance (x.toggleAt + ms * x.timing + late)).taken
    if s.kickNext && s.on R.DIO_STAT.KASTOP && s.on (fOUTEN o.isAnalog) then s else
    let s := (s.setFst o fsSafe).drive o
    if o.isAnalog then (s.raise R.AIO_INTSTAT.AOSAFE).event 0x0909 (unit := o.ch)
    else (s.raise R.DIO_INTSTAT.DOSAFE).event 0x0900 (unit := o.ch)
  else s

def execKeepaliveSilence (o : OutCh) (s : State) : Host.Outcome State Fault Refusal := onUnit o.ok (s.silence o)

/-- The kick supervisor counts from now (R319). -/
def State.kickNow (s : State) : State := { s with dio := { s.dio with kickFrom := s.now } }

/-- A kick (R319): the supervisor restarts, KASTOP clears, the keep-alive runs again. -/
def State.kick (s : State) : State := (s.kickNow.clear R.DIO_STAT.KASTOP).kaUpdate

/-- KICK_MS without a kick (R319); not while suspended (R320). A kick that waits next takes effect in the same IO cycle and
prevails. -/
def State.kickExpiry (s : State) : State :=
  let k := s.rd R.DIO_KA_CFG.KICK_MS
  if k ≠ 0 ∧ !s.on R.DIO_STAT.KASUSP ∧ !s.on R.DIO_STAT.KASTOP then
    let s := s.advance (s.dio.kickFrom + ms * k)
    if s.kickNext then s else
    let s := (s.raise R.DIO_STAT.KASTOP).raise R.DIO_INTSTAT.KASTOP
    ((s.bump R.DIO_CNT_KASTOP.COUNT).event 0x0904).kaUpdate
  else s

/-- DIO_KA_CFG written (R319); a discarded write restarts nothing (R10, R11). -/
def State.kaCfg (s : State) (v : Word) : State :=
  let k := R.DIO_KA_CFG.KICK_MS.of v
  if s.locked || 1000 < k then s else (s.wr R.DIO_KA_CFG.KICK_MS k).kickNow

def execKick (s : State) : Host.Outcome State Fault Refusal := .next s.kick

def execKickExpiry (s : State) : Host.Outcome State Fault Refusal := .next s.kickExpiry

def execKaCfgWrite (v : Word) (s : State) : Host.Outcome State Fault Refusal := .next (s.kaCfg v)

/-! Overcurrent and field supplies (R315, R317, R334). -/

/-- A digital output trips (R315). -/
def State.doTrip (s : State) (ch : Nat) : State :=
  if s.rd (R.DIO_DO_STAT.FSTATE ch) = fsNosupply ∨ s.on (R.DIO_DO_STAT.OC ch) then s
  else
    let s := ((s.raise (R.DIO_DO_STAT.OC ch)).drive (.digital ch)).raise R.DIO_INTSTAT.DOOC
    (s.bump R.DIO_CNT_OC.COUNT).event 0x0901 (unit := ch)

/-- An analog output's current limit acts (R334): it keeps running. -/
def State.aoTrip (s : State) (ch : Nat) : State :=
  if s.rd (R.AIO_AO_STAT.FSTATE ch) = fsNosupply then s
  else ((s.raise (R.AIO_AO_STAT.OC ch)).raise R.AIO_INTSTAT.AOOC).event 0x090A (unit := ch)

def execDoOvercurrent (ch : Nat) (s : State) : Host.Outcome State Fault Refusal := onUnit (ch < 24) (s.doTrip ch)

def execAoOvercurrent (ch : Nat) (s : State) : Host.Outcome State Fault Refusal := onUnit (ch < 8) (s.aoTrip ch)

/-- The outputs of supply group g: FS1 to FS3 digital, FS4 analog (R312). -/
def groupOuts (g : Nat) : List OutCh :=
  if g = 4 then analogOuts else (List.range 8).map fun i => .digital (8 * (g - 1) + i)

/-- FSOK of a group. -/
def fsOk (g : Nat) : Fld := if g = 4 then R.AIO_STAT.FS4OK else ⟨R.DIO_STAT.FSOK.addr, R.DIO_STAT.FSOK.lo + (g - 1), 1⟩

/-- The group has its supply, as the field side of its outputs knows (R312). -/
def State.supplied (s : State) (g : Nat) : Bool := (groupOuts g).any fun o => s.rd o.FSTATE != fsNosupply

/-- Supply below its off level (Table 9-3): configuration, held level and OC lost. -/
def State.fsFail (s : State) (g : Nat) : State :=
  if !s.supplied g then s
  else
    let s := s.clear (fsOk g)
    let s := s.each (groupOuts g) fun s o => (((s.setOutX o {}).clear o.OC).setFst o fsNosupply).drive o
    (s.raise (if g = 4 then R.AIO_INTSTAT.FSFAIL else R.DIO_INTSTAT.FSFAIL)).event 0x0902 (unit := g)

/-- Supply above its on level (Table 9-3): DEFAULT; with OUTEN the configuration and the value are sent again, and with
AUTORES a RESUME. -/
def State.fsReturn (s : State) (g : Nat) : State :=
  if s.supplied g then s
  else
    let a : Bool := g = 4
    let s := s.raise (fsOk g)
    let s := s.each (groupOuts g) fun s o => (s.setFst o fsDefault).drive o
    let s := (s.raise (if a then R.AIO_INTSTAT.FSRET else R.DIO_INTSTAT.FSRET)).event 0x0903 (unit := g)
    if s.on (fOUTEN a) then
      let s := s.each (groupOuts g) fun s o => s.cfgFrame o false
      if s.on (fAUTORES a) then s.each (groupOuts g) fun s o => s.resume o else s
    else s

def execFieldSupplyFail (g : Nat) (s : State) : Host.Outcome State Fault Refusal := onUnit (1 ≤ g && g ≤ 4) (s.fsFail g)

def execFieldSupplyReturn (g : Nat) (s : State) : Host.Outcome State Fault Refusal :=
  onUnit (1 ≤ g && g ≤ 4) (s.fsReturn g)

/-! The reflex matrix (R322 to R329). -/

/-- A rule that may be armed (R323). -/
def State.rfxValid (s : State) (r : Nat) : Bool :=
  let act := s.rfxAct r
  s.rfxEdge r != 3 && act < 6 && !(act == actPulse && s.rfxPw r == 0)
    && !((act == actFollow || act == actFollowInv) && s.rfxEdge r != 2)

/-- A write of DIO_RFX_ARM0 or DIO_RFX_ARM1 (R323, R324). -/
def State.rfxArm (s : State) (w : Nat) (v : Word) : State :=
  let asked := (List.range 32).filter fun b => v.getLsbD b && !s.rfxArmed (32 * w + b)
  let good := (asked.map (32 * w + ·)).filter s.rfxValid
  let s1 := s.rfxNoteArms.each good fun s r => s.setBit (R.DIO_RFX_ARM.ARM (r / 32)) (r % 32) true
  let s1 := if good.length < asked.length then s1.raise R.DIO_INTSTAT.WRREJ else s1
  s1.rfxActivate good

def execReflexArm (w : Nat) (v : Word) (s : State) : Host.Outcome State Fault Refusal := onUnit (w < 2) (s.rfxArm w v)

def execReflexDisarm (w : Nat) (v : Word) (s : State) : Host.Outcome State Fault Refusal :=
  onUnit (w < 2) (s.rfxNoteArms.setReg (R.DIO_RFX_ARM.addr w) (s.reg (R.DIO_RFX_ARM.addr w) &&& ~~~v))

/-- RFXEN set (R324): the armed rules become active. -/
def State.rfxEnable (s : State) : State :=
  if s.on R.DIO_CTRL.RFXEN then s else (s.raise R.DIO_CTRL.RFXEN).rfxActivate (below 64 s.rfxArmed)

def execReflexEnable (s : State) : Host.Outcome State Fault Refusal := .next s.rfxEnable

def execReflexDisable (s : State) : Host.Outcome State Fault Refusal := .next (s.clear R.DIO_CTRL.RFXEN)

/-- A rule's configuration word written, only while it is disarmed (R323); reserved bits ignored (R9). -/
def State.rfxConfig (s : State) (rule word : Nat) (v : Word) : State :=
  if s.rfxArmed rule then s.raise R.DIO_INTSTAT.WRREJ
  else if word = 0 then s.setReg (R.DIO_RFX_CFG0.addr rule) (v &&& 0x001FFFFF#32)
  else s.setReg (R.DIO_RFX_CFG1.addr rule) (v &&& 0x0000FFFF#32)

def execReflexCfgWrite (rule word : Nat) (v : Word) (s : State) : Host.Outcome State Fault Refusal :=
  onUnit (rule < 64 && word < 2) (s.rfxConfig rule word v)

/-- A pulse ends (R324); on an output forced meanwhile it writes nothing (R326). -/
def State.pulseEnd (s : State) (target : Nat) : State :=
  match s.pulse target with
  | some t =>
    let s := s.advance t
    if s.bit R.DIO_DO_FMASK.FMASK target then s.setPulse target none else s.otherV target false
  | none => s

def execPulseExpiry (target : Nat) (s : State) : Host.Outcome State Fault Refusal :=
  onUnit (target < 8) (s.pulseEnd target)

/-! Analog inputs (R331 to R333). -/

/-- A conversion completes (R332, R333): the result, its end in MT, entering a fault condition and recovering from it. -/
def State.aiConversion (s : State) (ch : Nat) (r : AiResult) : State :=
  if !s.on (R.AIO_AI_CFG.EN ch) then s
  else
    let s := s.advance ((s.ai ch).convStart + convTime (s.rd (R.AIO_AI_CFG.CONV ch)))
    let range := s.rd (R.AIO_AI_CFG.RANGE ch)
    let fc := faultOf range r (s.on (R.AIO_AI_CFG.WBDIS ch)) s.fresh
    let was := s.bit R.AIO_STAT.AIFAULT ch
    let s := (s.wr (R.AIO_AI_CNT.COUNT ch) (s.rd (R.AIO_AI_CNT.COUNT ch) + 1)).setReg (R.AIO_AI_ENG.addr ch)
      (engOf range r.code s.fresh)
    let s := (s.wr (R.AIO_AI_DATA.CODE ch) r.code).wr (R.AIO_AI_DATA.RANGE ch) range
    let s := ((s.wrb (R.AIO_AI_DATA.FAULT ch) (fc != 0)).wr (R.AIO_AI_DATA.FCODE ch) fc).taken
    let s := s.setAi ch { done := true, endMt := some s.mtNs, convStart := s.now }
    let s := s.setBit R.AIO_STAT.AIFAULT ch (fc != 0)
    if fc ≠ 0 ∧ !was then (s.raise R.AIO_INTSTAT.AIFAULT).event 0x0907 (unit := ch)
    else if fc = 0 ∧ was then (s.raise R.AIO_INTSTAT.AIOK).event 0x0908 (unit := ch)
    else s

def execAiConversionComplete (ch : Nat) (r : AiResult) (s : State) : Host.Outcome State Fault Refusal :=
  onUnit (ch < 8 && r.code < 65536) (s.aiConversion ch r)

/-- AIO_AIn_CFG written (R332): a change of EN, RANGE or CONV abandons the conversion in progress. -/
def State.aiConfig (s : State) (ch : Nat) (v : Word) : State :=
  let old := s.reg (R.AIO_AI_CFG.addr ch)
  let s := s.setReg (R.AIO_AI_CFG.addr ch) (v &&& 0x3F#32)
  if old &&& 0x1F#32 = v &&& 0x1F#32 then s
  else s.setAi ch { s.ai ch with done := false, convStart := s.now }

def execAiConfigWrite (ch : Nat) (v : Word) (s : State) : Host.Outcome State Fault Refusal :=
  onUnit (ch < 8) (s.aiConfig ch v)

end Sys2Proof.Machine
end

