-- ==== Sys2Proof/Machine/Hop.lean ====
section
/-!
DEFINITION. The point pager's commands (ch04): messages, range and lease timers, the initialisation, the pin scan, the lookup
ports, page transfers, refetches, writes of the tag store.
-/

namespace Sys2Proof.Machine

/-- A share of the CYCLIC lane lets n pending indices go (R131). -/
def execPushSend (n : Nat) (s : State) : Host.Outcome State Fault Refusal :=
  .next (if s.hopServes then s.pushPending n else s)

def execSubReceived (src : Nat) (body : List Byte) (s : State) : Host.Outcome State Fault Refusal :=
  .next (s.pointMsg src body)

def execUnsubReceived (src : Nat) (body : List Byte) (s : State) : Host.Outcome State Fault Refusal :=
  .next (s.pointMsg src body)

def execFetchReceived (src : Nat) (body : List Byte) (s : State) : Host.Outcome State Fault Refusal :=
  .next (s.pointMsg src body)

def execSubackReceived (src : Nat) (body : List Byte) (s : State) : Host.Outcome State Fault Refusal :=
  .next (s.pointMsg src body)

def execPushReceived (src : Nat) (body : List Byte) (s : State) : Host.Outcome State Fault Refusal :=
  .next (s.pointMsg src body)

/-! Range timers (Table 4-5). -/

def State.staleTimer (s : State) (e : Nat) : State :=
  if s.hopServes && (s.range e).state == rngLive then (s.advance (s.range e).staleAt).rangeStale e else s

def execRangeStaleTimer (r : Nat) (s : State) : Host.Outcome State Fault Refusal := onUnit (r < 8192) (s.staleTimer r)

def State.retryTimer (s : State) (e : Nat) : State :=
  let x := s.range e
  if s.hopServes && (x.state == rngSub || x.state == rngStale) then (s.advance (x.lastSub + s.tRetry)).sendSub e true
  else s

def execSubRetryTimer (r : Nat) (s : State) : Host.Outcome State Fault Refusal := onUnit (r < 8192) (s.retryTimer r)

def State.renewTimer (s : State) (e : Nat) : State :=
  if s.hopServes && (s.range e).state == rngLive then (s.advance ((s.range e).lastSub + 20 * sec)).sendSub e false else s

def execLeaseRenewalTimer (r : Nat) (s : State) : Host.Outcome State Fault Refusal := onUnit (r < 8192) (s.renewTimer r)

/-! Producer timers (Table 4-6). -/

def State.leaseOut (s : State) (e : Nat) : State :=
  let x := s.outEntry e
  if x.valid then
    let s := (s.advance x.leaseEnd).changeOut e {}
    (s.raise R.HOP_INTSTAT.SUBEXP).event 0x0405 (subj := x.node * 2 ^ 20 + x.first)
  else s

def execOutboundLeaseExpiry (e : Nat) (s : State) : Host.Outcome State Fault Refusal := onUnit (e < 4096) (s.leaseOut e)

def State.fullPush (s : State) (e : Nat) : State :=
  let x := s.outEntry e
  if x.valid && s.hopServes then
    let s := (s.advance x.nextPush).pushRange x
    s.setOutEntry e { x with nextPush := s.now + 10 * ms * x.maxper }
  else s

def execProducerRangeTimer (e : Nat) (s : State) : Host.Outcome State Fault Refusal := onUnit (e < 4096) (s.fullPush e)

def execHopInitComplete (s : State) : Host.Outcome State Fault Refusal := .next s.hopInit

/-! The pin scan (R141, R142). -/

/-- PINSCAN: NOTRUN where replicas are not served; ignored while a scan runs. -/
def State.pinScan (s : State) (bank : Nat) : State :=
  if s.hop.scan.isSome then s
  else
    let s := (s.wr R.HOP_PIN_CMD.OP 1).wr R.HOP_PIN_CMD.BANK bank
    if s.hopServes then { s with hop := { s.hop with scan := some bank } }.raise R.HOP_PIN_CMD.GO
    else (s.wr R.HOP_PIN_STAT.RESULT 2).raise R.HOP_INTSTAT.PINDONE

def execPinscan (bank : Nat) (s : State) : Host.Outcome State Fault Refusal := onUnit (bank < 2) (s.pinScan bank)

/-- PINSCAN_COMPLETE; a scan that a drain has stopped completes nothing (R142). -/
def execPinscanComplete (s : State) : Host.Outcome State Fault Refusal :=
  .next (match s.hop.scan with | some b => if s.running .hop then s.scanDone b else s | none => s)

/-- UNPIN (R141). -/
def State.unpin (s : State) (bank : Nat) : State :=
  if s.hop.scan.isSome then s
  else
    let s := (s.wr R.HOP_PIN_CMD.OP 2).wr R.HOP_PIN_CMD.BANK bank
    let bit : BitVec 2 := if bank = 0 then 1#2 else 2#2
    let s := s.each (s.hop.frames.map (·.1)) fun s f => s.setFrame f { s.frame f with pins := (s.frame f).pins &&& ~~~bit }
    ((s.wr R.HOP_PIN_STAT.RESULT 0).raise R.HOP_INTSTAT.PINDONE).syncCache

def execUnpin (bank : Nat) (s : State) : Host.Outcome State Fault Refusal := onUnit (bank < 2) (s.unpin bank)

/-! Lookup ports (R156). -/

/-- READ: a GO while the port is busy is ignored (R13). -/
def State.portRead (s : State) (p : Nat) : State :=
  if s.on (R.HOP_LK_CMD.GO p) then s
  else
    let (a, s) := (s.wr (R.HOP_LK_CMD.OP p) 1).lookup (p + 1) (s.rd (R.HOP_LK_ID.ID p))
    s.showLookup p a false

def execLookupRead (p : Nat) (s : State) : Host.Outcome State Fault Refusal := onUnit (p < 4) (s.portRead p)

/-- TOUCH: an own index marked pending; NOTOWN for a replica. An ID that names nothing answers ABSENT, as a READ of it does
(notes/assumptions/156). -/
def State.portTouch (s : State) (p : Nat) : State :=
  if s.on (R.HOP_LK_CMD.GO p) then s
  else
    let s := s.wr (R.HOP_LK_CMD.OP p) 2
    let done := fun (s : State) (r : Nat) => (s.wr (R.HOP_LK_STAT.RESULT p) r).clear (R.HOP_LK_STAT.MISS p)
    if !s.running .hop then done s lkNotrun
    else
      match s.resolve (s.rd (R.HOP_LK_ID.ID p)) with
      | .own i => done ((s.markPending i).wr (R.HOP_LK_SLOT.SLOT p) i) lkOk
      | .replica _ _ => done s lkNotown
      | .nothing => done s lkAbsent

def execLookupTouch (p : Nat) (s : State) : Host.Outcome State Fault Refusal := onUnit (p < 4) (s.portTouch p)

/-! Page transfers and refetches (R144, R150). -/

/-- The frame that a page is being read into. -/
def State.pageFrame (s : State) (page : Nat) : Option Nat :=
  (s.hop.misses.find? fun m => m.page == page && m.frame.isSome).bind (·.frame)

/-- The frame becomes resident and the misses that wait for its page are answered. -/
def State.pageResident (s : State) (f page : Nat) : State :=
  let r := (s.endPage f page).answerMisses page
  r.2.gateResume (some r.1)

/-- A page has been read: its frame becomes resident and what waited for it is answered. -/
def State.pageIn (s : State) (page : Nat) : State :=
  match s.pageFrame page with
  | some f => s.pageResident f page
  | none => s

def execPageInComplete (page : Nat) (s : State) : Host.Outcome State Fault Refusal := onUnit (page < 2048) (s.pageIn page)

/-- 100 ms without an answer to a FETCH: repeated, or the record is given up after three (R150). -/
def State.refetchOut (s : State) (slot : Nat) : State :=
  match s.hop.refetch.find? (·.slot == slot) with
  | none => s
  | some x =>
    if !s.hopServes then s
    else
    let s := s.advance (x.sentAt + 100 * ms)
    if x.tries < 3 then
      State.sendFetch { s with hop := { s.hop with refetch := s.hop.refetch.map fun y =>
        if y.slot == slot then { y with tries := y.tries + 1, sentAt := s.now } else y } } slot
    else
      let s : State := { s with hop := { s.hop with refetch := s.hop.refetch.filter (·.slot != slot) } }
      ((s.bump R.HOP_CNT_REFAIL.COUNT).raise R.HOP_INTSTAT.REFAIL).event 0x0404 (unit := slot / 128) (subj := slot)

def execRefetchTimer (slot : Nat) (s : State) : Host.Outcome State Fault Refusal :=
  onUnit (slot < 262144) (s.refetchOut slot)

/-! The tag store (R154). -/

/-- A word of an inbound entry, as firmware reads it (Table 4-15). -/
def HopRange.word (r : HopRange) : Nat → Nat
  | 0 => r.first + r.node * 2 ^ 20
  | 1 => r.count + r.maxper * 2 ^ 16
  | 2 => r.slot
  | _ => r.pinc + r.state * 2 ^ 16

/-- A word of an inbound entry written; bytes 12 to 15 are Hopper's. -/
def HopRange.putWord (r : HopRange) (k v : Nat) : HopRange :=
  match k with
  | 0 => { r with first := v % 2 ^ 20, node := v / 2 ^ 20 % 4096 }
  | 1 => { r with count := v % 2 ^ 16, maxper := v / 2 ^ 16 % 2 ^ 16 }
  | 2 => { r with slot := v % 2 ^ 18 }
  | _ => r

/-- A word of the tag store as it is read (Table 4-14); the frame tags and the timers are internal, and what they read as is
free. -/
def State.tagRead (s : State) (w : Nat) : Nat :=
  let a := 4 * w
  if 0x2000 ≤ a ∧ a < 0x6000 then (SMap.get (fun _ => (0 : BitVec 32)) s.hop.nodeTab ((a - 0x2000) / 4)).toNat
  else if 0x6000 ≤ a ∧ a < 0x26000 then (s.range ((a - 0x6000) / 16)).word (w % 4)
  else if 0x26000 ≤ a ∧ a < 0x36000 then s.outWord ((a - 0x26000) / 16) (w % 4)
  else if 0x3E000 ≤ a then
    (List.range 32).foldl (fun n k =>
      n + (SMap.get (fun _ => false) s.hop.pending (8 * (a - 0x3E000) + k)).toNat * 2 ^ k) 0
  else (Config.free32 s.fresh).toNat

/-- A write of HOP_TDATA: the node and inbound tables in OFF or within a handover, and HOP_TADDR advanced. -/
def State.tagWrite (s : State) (v : Word) : State :=
  let w := s.rd R.HOP_TADDR.WADDR
  let a := 4 * w
  let open_ := s.rd UnitId.hop.STATE == stOff || s.rd R.UPD_PHASE.PHASE == 5
  let s :=
    if !open_ then s
    else if 0x2000 ≤ a ∧ a < 0x6000 then
      let tab := SMap.set (fun _ => (0 : BitVec 32)) s.hop.nodeTab ((a - 0x2000) / 4) (v &&& 0x0FFFFFFF)
      { s with hop := { s.hop with nodeTab := tab } }
    else if 0x6000 ≤ a ∧ a < 0x26000 then
      s.setRange ((a - 0x6000) / 16) ((s.range ((a - 0x6000) / 16)).putWord (w % 4) v.toNat)
    else s
  s.wr R.HOP_TADDR.WADDR (w + 1)

def execHopTdataWrite (v : Word) (s : State) : Host.Outcome State Fault Refusal := .next (s.tagWrite v)

end Sys2Proof.Machine
end

