-- ==== Sys2Proof/Machine/Image.lean ====
section
/-!
DEFINITION. The image unit's commands (ch03): input copies, commits, the journal writer, station PDUs and timers, forces, writes
of its memory.
-/

namespace Sys2Proof.Machine

/-- A STATUS PDU (R101, R106, R107): the epoch, OUTREJ, then what the reported state means. -/
def State.statusPdu (s : State) (n : Nat) (pdu : List Byte) : State :=
  let st := numAt pdu 8 1
  let epoch := numAt pdu 4 4
  let s := s.seeEpoch n epoch
  let s := if numAt pdu 9 1 % 2 = 1 then
      (((s.raise (R.IMG_STN_STAT.OUTREJ n)).raise R.IMG_INTSTAT.OUTREJ).stnEvent 0x0304 n).pairOutrej epoch
    else s
  if st = 0 then s.dropout n dropReboot
  else if st = 1 ∨ st = 2 then s
  else s.dropout n dropFault

/-- A PDU that arrives from a station (R100, R103): in OFF nothing is received. -/
def State.stnPdu (s : State) (n : Nat) (pdu : List Byte) : State :=
  let s := s.takeStnPdu n pdu
  if s.stnState n = stnOff then s
  else
    let k := pduKind pdu
    if k = 2 then s.inSegment n pdu
    else if k = 4 then
      if numAt pdu 1 1 = 16 ∧ pdu.length = pduLength (!s.on (R.IMG_STN_CFG.XPORT n)) 8 then s.statusPdu n pdu
      else s.badPdu n
    else s.badPdu n

/-- The refresh of a station's block (R104, R109): PER_MS after the last OUT, the same block with the same SEQ. -/
def State.stnRefresh (s : State) (n : Nat) : State :=
  if s.stationsRun && s.delivers n && !s.on (R.IMG_STN_STAT.UNDELIV n) && (s.stn n).outSent && s.gateOpen then
    (s.advance ((s.stn n).lastOut + ms * s.rd (R.IMG_STN_TIME.PER_MS n))).sendOut n false
  else s

/-- The station's timeout (R107): TMO_MS after the last valid IN. -/
def State.stnTimeout (s : State) (n : Nat) : State :=
  if s.stnState n = stnUp ∨ s.stnState n = stnRejoin then
    (s.advance ((s.stn n).lastIn + ms * s.rd (R.IMG_STN_TIME.TMO_MS n))).dropout n dropTimeout
  else s

/-- A write of a word of the image unit's memory (R86): the active bank only in OFF; force table, station state and staging
not at all. The address advances in every case. -/
def State.imgMdata (s : State) (v : Word) : State :=
  let w := s.rd R.IMG_MADDR.WADDR
  let s := s.wr R.IMG_MADDR.WADDR (w + 1)
  let bank := w / 0xC000
  if bank < 2 ∧ (bank ≠ s.rd R.IMG_LBANK.ACT ∨ s.rd R.IMG_STAT.STATE = stOff) then
    { s with img := { s.img with lists := SMap.set (fun _ => 0) s.img.lists w v } }
  else s

/-- A read of a word of the image unit's memory (R86, R113). -/
def State.imgRead (s : State) (w : Nat) : Word :=
  if w < 0x18000 then s.imgWord w
  else if w < 0x1A000 then
    let o := w - 0x18000
    BitVec.ofNat 32 (numAt (s.forceAt (o / 8)).bytes (4 * (o % 8)) 4)
  else 0

/-- INPUT_COPY (R92). -/
def execInputCopy (s : State) : Host.Outcome State Fault Refusal := .next s.inputCopy

/-- INPUT_COPY_COMPLETE (R53). -/
def execInputCopyComplete (s : State) : Host.Outcome State Fault Refusal := .next s.copyComplete

/-- COMMIT_START (R96). -/
def execCommitStart (s : State) : Host.Outcome State Fault Refusal := .next s.commitStart

/-- COMMIT_JOURNAL_STAGED (R99). -/
def execCommitJournalStaged (s : State) : Host.Outcome State Fault Refusal := .next s.commitStaged

/-- A completed commit, remembered while RESUMEALL waits for it (R559). -/
def State.commitSeen (s : State) : State :=
  let s' := s.commitComplete
  match s.img.cur with
  | some x => if s'.img.cur.isNone && x.kind = .commit then
      State.resumeWhenDue { s' with pair := { s'.pair with committed := x.task :: s'.pair.committed.filter (· != x.task) } }
    else s'
  | none => s'

/-- COMMIT_COMPLETE (R57): it may bring a hold to HELD (R74). -/
def execCommitComplete (s : State) : Host.Outcome State Fault Refusal := .next s.commitSeen.atHeld

/-- JOURNAL_WRITE (R99). -/
def execJournalWrite (s : State) : Host.Outcome State Fault Refusal := .next s.journalWrite

/-- STATION_IN_PDU (R103). -/
def execStationInPdu (n : Nat) (pdu : List Byte) (s : State) : Host.Outcome State Fault Refusal := onUnit (n < 64) (s.stnPdu n pdu)

/-- STATION_STATUS_PDU (R106). -/
def execStationStatusPdu (n : Nat) (pdu : List Byte) (s : State) : Host.Outcome State Fault Refusal :=
  onUnit (n < 64) (s.stnPdu n pdu)

/-- STATION_REFRESH (R104). -/
def execStationRefresh (n : Nat) (s : State) : Host.Outcome State Fault Refusal := onUnit (n < 64) (s.stnRefresh n)

/-- STATION_TIMEOUT (R107). -/
def execStationTimeout (n : Nat) (s : State) : Host.Outcome State Fault Refusal := onUnit (n < 64) (s.stnTimeout n)

/-- STATION_REARM (R107). -/
def execStationRearm (n : Nat) (s : State) : Host.Outcome State Fault Refusal := onUnit (n < 64) (s.rearm n)

/-- STATION_PROBE (R101, R455). -/
def execStationProbe (n : Nat) (s : State) : Host.Outcome State Fault Refusal :=
  onUnit (n < 64) (if s.stnState n = stnOff then s else s.sendProbe n)

/-- STATION_ENABLE (Table 3-9). -/
def execStationEnable (n : Nat) (s : State) : Host.Outcome State Fault Refusal :=
  onUnit (n < 64) (
    let s := s.raise (R.IMG_STN_CFG.EN n)
    if s.running .img then s.stnBegin n else s)

/-- STATION_DISABLE (Table 3-9). -/
def execStationDisable (n : Nat) (s : State) : Host.Outcome State Fault Refusal :=
  onUnit (n < 64) ((s.clear (R.IMG_STN_CFG.EN n)).stnEnd n)

/-- FORCE_SET (R116). -/
def execForceSet (s : State) : Host.Outcome State Fault Refusal := .next s.forceSet

/-- FORCE_CLEAR (R116). -/
def execForceClear (s : State) : Host.Outcome State Fault Refusal := .next s.forceClear

/-- FORCE_CLEARALL (R116). -/
def execForceClearall (s : State) : Host.Outcome State Fault Refusal := .next s.forceClearAll

/-- IMG_MDATA_WRITE (R86). -/
def execImgMdataWrite (v : Word) (s : State) : Host.Outcome State Fault Refusal := .next (s.imgMdata v)

end Sys2Proof.Machine
end

