-- ==== Sys2Proof/Machine/Loop.lean ====
section
/-!
DEFINITION. The loop engine's commands (ch07): due instants, evaluations of loops and groups, writes of the loop memory.
-/

namespace Sys2Proof.Machine

/-- Evaluations are withheld by a hold (R248). -/
def State.loopHeld (s : State) : Bool :=
  s.rd R.SCH_STAT.HOLD != 0 && (s.rd R.SCH_STAT.HOLDSRC == 1 || s.rd R.SCH_STAT.HOLDSRC == 2)

/-- The lowest loop number of a due entry (R243). -/
def State.dueRank (s : State) (d : LoopDue) : Nat := if d.group then (s.members d.n).foldl min 256 else d.n

/-- An entry put into the due queue: by instant, then by loop number (R243). -/
def State.insertDue (s : State) (d : LoopDue) : List LoopDue → List LoopDue
  | [] => [d]
  | e :: es =>
    if d.at_ < e.at_ || (d.at_ == e.at_ && s.dueRank d < s.dueRank e) then d :: e :: es
    else e :: State.insertDue s d es

/-- An instant served: queued, or a deferral under a hold. `late`: a previous evaluation is not complete, whose members
`missed` count a miss. -/
def State.dueNow (s : State) (d : LoopDue) (late : Bool) (missed : List Nat) : State :=
  if !s.running .loop then s
  else if s.loopHeld then s.bump R.LOOP_CNT_DEF.COUNT
  else
    let s := if late then s.each missed State.loopMiss else s
    let posted := missed.any fun n => (s.loopX n).posted
    if late && posted then s
    else
      let q := s.loop.queue.filter fun e => !(e.group == d.group && e.n == d.n)
      { s with loop := { s.loop with queue := s.insertDue d q } }

/-- A loop outside a group falls due (R242, R246). -/
def State.loopFallsDue (s : State) (n : Nat) : State :=
  if s.loopMode n = lmOff ∨ (s.groupOf n).isSome then s
  else
    let x := s.loopX n
    let t := if x.armed then x.nextDue else gridNext (s.loopPer n) (s.loopOfs n) s.mtNs
    let s := (s.advanceMt t).setLoopX n { x with armed := true, nextDue := t + s.loopPer n }
    let late := x.posted || s.loop.queue.any fun e => !e.group && e.n == n
    s.dueNow { at_ := t, group := false, n := n } late [n]

/-- A group falls due at the common instants of its members. -/
def State.groupFallsDue (s : State) (g : Nat) : State :=
  let live := (s.members g).filter fun n => s.loopMode n != lmOff
  if !s.groupOn g || live.isEmpty then s
  else
    let n := (s.members g).headD 0
    let x := s.groupX g
    let t := if x.armed then x.nextDue else gridNext (s.loopPer n) (s.loopOfs n) s.mtNs
    let s := (s.advanceMt t).setGroupX g { x with armed := true, nextDue := t + s.loopPer n }
    let late := s.loop.waiting.any (·.1 == g) || s.loop.queue.any fun e => e.group && e.n == g
    s.dueNow { at_ := t, group := true, n := g } late live

def execLoopDue (group : Bool) (n : Nat) (s : State) : Host.Outcome State Fault Refusal :=
  onUnit (n < (if group then 32 else 256)) (if group then s.groupFallsDue n else s.loopFallsDue n)

/-- The evaluation at the front of the due queue, where it is one of the kind asked for. -/
def State.serveDue (s : State) (group : Bool) : State :=
  match s.loop.queue with
  | d :: rest =>
    if d.group != group || s.loopHeld || !s.running .loop then s
    else
      let s : State := { s with loop := { s.loop with queue := rest } }
      if group then s.groupRun d.n else s.loopRun d.n
  | [] => s

def execLoopEvaluation (s : State) : Host.Outcome State Fault Refusal := .next (s.serveDue false).resumeWhenDue

def execGroupEvaluation (s : State) : Host.Outcome State Fault Refusal := .next (s.serveDue true).resumeWhenDue

/-! The loop memory (R232 to R235). -/

/-- A write that R235 excludes. -/
def State.loopRej (s : State) : State := s.raise R.LOOP_INTSTAT.WRREJ

/-- CTRL written: a reserved MODE leaves MODE as it is; MODE leaving OFF is checked (R241, Table 7-5), and starts its grid, and
its group's where no other member runs (R242). -/
def State.loopCtrl (s : State) (n : Nat) (v : Word) : State :=
  let old := s.loopMode n
  let mode := if 3 < getField v 0 3 then old else getField v 0 3
  let s := s.setLw n 0 (putField v 0 3 mode)
  if mode = old then s
  else if old = lmOff then
    match (s.setLw n 0 (putField v 0 3 0)).loopCfg n mode with
    | some c => (s.cfgFailed n c).syncLoad
    | none =>
      let s := (s.setLw n 0x84 0#32).setLstat n lsGap true
      let s := s.setLoopX n { s.loopX n with armed := false, first := true, lastMode := lmOff }
      let s := match s.groupOf n with
        | some g => if (s.members g).all fun m => m == n || s.loopMode m == lmOff then s.setGroupX g {} else s
        | none => s
      s.syncLoad
  else if mode = lmOff then
    let s := s.setLw n 0xA0 (putField (s.lw n 0xA0) 16 3 0)
    let s := s.setLoopX n { s.loopX n with armed := false }
    ({ s with loop := { s.loop with queue := s.loop.queue.filter fun e => !(!e.group && e.n == n) } } : State).syncLoad
  else s.syncLoad

/-- A word of a loop record written (R235). -/
def State.loopWrite (s : State) (n ofs : Nat) (v : Word) : State :=
  let idle := match s.groupOf n with
    | some _ => s.rd UnitId.loop.STATE == stOff
    | none => s.loopMode n == lmOff
  let s := s.setLoopX n { s.loopX n with bad := (s.loopX n).bad &&& ~~~(1#64 <<< (ofs / 4)) }
  if ofs = 0 then s.loopCtrl n v
  else if ofs < 0x20 then (if idle then s.setLw n ofs v else s.loopRej)
  else if ofs < 0x80 then s.setLw n ofs v
  else if ofs ≤ 0x8C then (if s.loopMode n = lmOff then s.setLw n ofs v else s.loopRej)
  else if ofs = 0xA0 then s.setLw n ofs (s.lw n ofs &&& ~~~(v &&& 0x700#32))
  else s.loopRej

/-- A word of a group entry written: in OFF or within a handover; SEL and OUT are the engine's (R235, Table 7-7). -/
def State.groupWrite (s : State) (g j : Nat) (v : Word) : State :=
  if s.rd UnitId.loop.STATE ≠ stOff ∧ s.rd R.UPD_PHASE.PHASE ≠ 5 then s.loopRej
  else
    match j with
    | 2 => s.setGw g 2 (putField (s.gw g 2) 0 1 (getField v 0 1))
    | 4 => s.loopRej
    | 7 => s
    | _ => s.setGw g j v

/-- A write of LOOP_MDATA, and LOOP_MADDR advanced. -/
def State.loopMdata (s : State) (v : Word) : State :=
  let w := s.rd R.LOOP_MADDR.WADDR
  let s :=
    if w < 0x4000 then s.loopWrite (w / 64) (4 * (w % 64)) v
    else if w < 0x4100 then s.groupWrite ((w - 0x4000) / 8) (w % 8) v
    else s
  s.wr R.LOOP_MADDR.WADDR (w + 1)

def execLoopMdataWrite (v : Word) (s : State) : Host.Outcome State Fault Refusal := .next (s.loopMdata v)

end Sys2Proof.Machine
end

