-- ==== Sys2Proof/Machine/Mtr.lean ====
section
/-!
DEFINITION. The metering engine's commands (ch08).
-/

namespace Sys2Proof.Machine

/-- SAMPLE_SET_ARRIVAL (R270, R271): a sample set every 125 µs of the sample clock, one round in RUN. -/
def execSampleSetArrival (m : MtrInput) (s : State) : Host.Outcome State Fault Refusal :=
  .next (
    if !s.running .mtr then s
    else
      let s := s.advance s.mtr.sampleAt
      let s : State := { s with mtr := { s.mtr with sampleAt := s.now + 125 * us } }
      s.mtrRound m)

/-- ZC_TIMEOUT (R273): in SEEK and LOCKED, TMO_MS without a valid crossing. -/
def execZcTimeout (s : State) : Host.Outcome State Fault Refusal :=
  .next (if !s.running .mtr || s.rd R.MTR_STAT.ZCSTATE == zcFallback then s else s.toFallback)

/-- SYNTHETIC_CROSSING (R273): in FALLBACK, once its sample has come. -/
def execSyntheticCrossing (s : State) : Host.Outcome State Fault Refusal :=
  .next (
    if s.running .mtr && s.rd R.MTR_STAT.ZCSTATE == zcFallback && s.synthAt (s.mtr.fbCount + 1) ≤ s.mtr.fbSamples then
      s.synthetic
    else s)

/-- CHECKPOINT_TIMER (R293). -/
def execCheckpointTimer (s : State) : Host.Outcome State Fault Refusal :=
  .next (
    if !s.running .mtr then s
    else
      let s := s.advance s.mtr.ckptAt
      let s : State := { s with mtr := { s.mtr with ckptAt := s.now + sec * s.rd R.MTR_CKPT_CFG.CKPT_S } }
      s.ckptStart)

/-- CHECKPOINT_COMPLETE (R293, R295). -/
def execCheckpointComplete (s : State) : Host.Outcome State Fault Refusal := .next s.ckptEnd

/-- MTR_CMD written with GO: the command's fields, and the command; ignored while GO reads 1, a command waiting for its round
or for the checkpoint in progress (R13, R292, R302). -/
def State.mtrCmd (s : State) (op arg : Nat) (f : State → State) : State :=
  if s.on R.MTR_CMD.GO then s else f ((s.wr R.MTR_CMD.OP op).wr R.MTR_CMD.ARG arg)

/-- A command kept until the checkpoint in progress completes; GO reads 1 meanwhile (R8, R302). -/
def State.mtrHold (s : State) (w : MtrWait) : State :=
  State.raise { s with mtr := { s.mtr with waits := s.mtr.waits ++ [w] } } R.MTR_CMD.GO

/-- METER_CLEAR (R292, R302): at the next round, or after the checkpoint in progress. -/
def State.meterClear (s : State) (n : Nat) : State :=
  if !s.running .mtr then s.mtrDone 5
  else if n = 0 ∨ 12 < n then s.mtrDone 1
  else if s.mtr.ckpt.isSome then s.mtrHold (.clear (n - 1))
  else State.raise { s with mtr := { s.mtr with clearPend := s.mtr.clearPend ++ [n - 1] } } R.MTR_CMD.GO

def execMeterClear (feeder : Nat) (s : State) : Host.Outcome State Fault Refusal :=
  .next (s.mtrCmd 1 feeder fun s => s.meterClear (s.rd R.MTR_CMD.ARG))

/-- CKPT and RESTORE are carried out in RUN and in OFF (R302). -/
def State.mtrAwake (s : State) : Bool := s.running .mtr || s.rd UnitId.mtr.STATE == stOff

/-- METER_CKPT (R293, R302): done as the checkpoint starts. -/
def State.meterCkpt (s : State) : State :=
  if !s.mtrAwake then s.mtrDone 5
  else if s.mtr.ckpt.isSome then s.mtrHold .ckpt
  else s.ckptStart.mtrDone 0

def execMeterCkpt (s : State) : Host.Outcome State Fault Refusal :=
  .next (s.mtrCmd 2 (s.rd R.MTR_CMD.ARG) State.meterCkpt)

/-- METER_RESTORE (R295, R302). -/
def State.meterRestore (s : State) (r : Nat) : State :=
  if !s.mtrAwake then s.mtrDone 5
  else if 383 < r then s.mtrDone 1
  else if s.mtr.ckpt.isSome then s.mtrHold (.restore r)
  else s.restoreReg r

def execMeterRestore (reg : Nat) (s : State) : Host.Outcome State Fault Refusal :=
  .next (s.mtrCmd 3 reg fun s => s.meterRestore (s.rd R.MTR_CMD.ARG))

/-- CALAPPLY (R277, R299): the staged record is checked and waits for the next cycle boundary. -/
def State.meterCal (s : State) (c : Nat) : State :=
  if !s.running .mtr then s.mtrDone 5
  else if 39 < c then s.mtrDone 1
  else if s.mtr.calPend.isSome then s.mtrDone 4
  else if s.badChannel 40 then s.mtrDone 2
  else State.mtrDone { s with mtr := { s.mtr with calPend := some c } } 0

def execCalapply (ch : Nat) (s : State) : Host.Outcome State Fault Refusal :=
  .next (s.mtrCmd 4 ch fun s => s.meterCal (s.rd R.MTR_CMD.ARG))

/-- A word of the engine memory that firmware may write now (R300). -/
def State.mtrWritable (s : State) (w : Nat) : Bool :=
  let off := s.rd UnitId.mtr.STATE == stOff
  if w < 0x500 then off
  else if w < 0x520 then s.mtr.calPend.isNone
  else if 0x600 ≤ w ∧ w < 0x660 then off
  else if 0x800 ≤ w ∧ w < 0xC00 then off || s.rd R.UPD_PHASE.PHASE == 5
  else false

/-- A write of MTR_MDATA (R300): written, or discarded with WRREJ; the address advances. -/
def State.mtrMdata (s : State) (v : Word) : State :=
  let w := s.rd R.MTR_MADDR.WADDR
  let s' := if s.mtrWritable w then s.setMw w v else s.raise R.MTR_INTSTAT.WRREJ
  s'.wr R.MTR_MADDR.WADDR (w + 1)

def execMtrMdataWrite (v : Word) (s : State) : Host.Outcome State Fault Refusal := .next (s.mtrMdata v)

end Sys2Proof.Machine
end

