-- ==== Sys2Proof/Machine/Fab.lean ====
section
/-!
DEFINITION. The fabric's commands (ch05): frames and datagrams, links and keys, HELLO and adjacency, node numbers, the
link-state database and routes, QUENCH, preemption, fabric time, the SVC mailbox.
-/

namespace Sys2Proof.Machine

/-! Frames (R162, R166 to R171). -/

/-- A link's frame may go cut-through to port q (R169). DESIGN CHOICE: R169 stores whole every frame from a port with a valid
rule, R196 forwards it after 42 bytes; the model stores it, so a failure at its end never counts ICVCUT
(notes/assumptions/158). -/
def State.cutThrough (s : State) (p q : Nat) (f : Leat) : Bool :=
  ((List.range (f.lane + 1)).all fun l => (s.lane q l).isEmpty)
    && s.rd (R.FAB_P_STAT.SPEED q) ≤ s.rd (R.FAB_P_STAT.SPEED p) && !s.udp p && !s.udp q && !s.hasRule p
    && s.portLive q && (s.port q).tx.isSome

/-- The integrity failure counted at the ingress port (R171). -/
def State.badEnd (s : State) (p : Nat) (f : RxFrame) : State :=
  if !f.fcsOk then s.bump (R.FAB_P_CNT_FCSERR.COUNT p) else s.bump (R.FAB_P_CNT_ICVFAIL.COUNT p)

/-- A cut-through frame cut off at its end (R171): the egress port ends it with a complemented FCS; ICV_CUT at most once a
second. -/
def State.icvCut (s : State) (p q : Nat) (f : RxFrame) : State :=
  let s := s.putOnWire q { f.leat with ttl := f.leat.ttl - 1 } true
  let s := (((s.badEnd p f).bump (R.FAB_P_CNT_ICVCUT.COUNT q)).raise R.FAB_INTSTAT.ICVCUT)
  if dueAgain s.fab.icvEvtAt s.now sec then
    State.event { s with fab := { s.fab with icvEvtAt := some s.now } } 0x050A (unit := q)
  else s

/-- A whole, valid, policed frame from port p switched on its type and DST (R160, R162, R167, R168, R193, R204): the link-local
types, whose content acts by its own commands, are never forwarded; a QUENCH goes to the gate or to this hop's control
plane. DESIGN CHOICE: a frame with DST 4095 and a reserved TYPE counts as a broadcast, and a broadcast that arrives with TTL 0
is delivered before MISC counts it (notes/assumptions/158). -/
def State.route (s : State) (p : Nat) (l : Leat) : State :=
  if linkType l.typ then s
  else if l.typ = tyQuench then
    if l.auth then (if headerOk l then s.toInbox l else s.bump R.FAB_CNT_BADHDR.COUNT) else s.quenchHop p l
  else if l.dst = 4095 then
    if s.routePort l.src = p then
      let s := s.deliver l
      if l.ttl = 0 then s.bump (R.FAB_P_CNT_MISC.COUNT p)
      else s.each (s.upPorts.filter (· != p)) fun s q => s.leave p q { l with ttl := l.ttl - 1 }
    else s
  else
    let q := s.routePort l.dst
    if l.dst = 0 ∨ q = portNone then s.bump (R.FAB_P_CNT_NOROUTE.COUNT p)
    else if q = portLocal then s.deliver l
    else if l.ttl = 0 then s.bump (R.FAB_P_CNT_MISC.COUNT p)
    else s.leave p q { l with ttl := l.ttl - 1 }

/-- A whole, valid frame from port p: the port's rules (R194), its CONTROL policers (R191), then the switch. -/
def State.switch (s : State) (p : Nat) (l : Leat) : State :=
  match s.ruleHit p l with
  | some r => s.quenched p r
  | none =>
    match s.ctlPolice p p l with
    | none => s.bump (R.FAB_P_CNT_CTLPOL.COUNT p)
    | some s => s.route p l

/-- A frame that passed protection's header checks (R162, R166, R169, R171, R181). -/
def State.frameGo (s : State) (p : Nat) (f : RxFrame) : State :=
  let l := f.leat
  let good := f.icvOk && f.fcsOk
  let x := s.port p
  let s1 := if good then
      s.setPort p { x with rx := x.rx.map fun a => if a.an = f.an then { a with highPn := max a.highPn f.pn } else a }
    else s
  if l.ver ≠ 1 then s1.bump (R.FAB_P_CNT_MISC.COUNT p)
  else if s.rd R.FAB_NODE.ACT = 0 ∧ !linkType l.typ then s1
  else
    let q := s.routePort l.dst
    let cut := l.dst != 4095 && l.dst != 0 && q < 4 && l.ttl != 0 && l.typ != tyQuench && !linkType l.typ && s.cutThrough p q l
    if cut then
      match s1.ctlPolice p q l with
      | none => s1.bump (R.FAB_P_CNT_CTLPOL.COUNT p)
      | some s2 => if good then s2.putOnWire q { l with ttl := l.ttl - 1 } else s2.icvCut p q f
    else if good then s1.switch p l
    else s1.badEnd p f

/-- A frame arriving at a fabric port (R166). KEYX frames act through their own commands; a frame under an AN without an SA
cannot pass its ICV check (notes/assumptions/36). -/
def State.frameIn (s : State) (p : Nat) (f : RxFrame) : State :=
  if !s.takesFrames p then s
  else
    let s := (s.setPort p { s.port p with trafficAt := some s.now }).bump (R.FAB_P_CNT_RXFRM.COUNT p)
    let misc := s.bump (R.FAB_P_CNT_MISC.COUNT p)
    if !f.daOk then misc
    else if f.secured == (f.leat.typ == tyKeyx) then misc
    else if !f.secured then s
    else
      match (s.port p).rx.find? fun a => a.an == f.an with
      | none => s.bump (R.FAB_P_CNT_ICVFAIL.COUNT p)
      | some a =>
        if f.pn + s.rd R.FAB_SEC.RPW ≤ a.highPn then s.bump (R.FAB_P_CNT_REPLAY.COUNT p) else s.frameGo p f

/-- A frame of a client of the internal port (R160, R161, R386); a QUENCH comes only through the mailbox (R193). -/
def State.frameFromInside (s : State) (f : RxFrame) : State :=
  if s.canSend && f.leat.typ != tyQuench && f.leat.payload.length ≤ maxSend then ((s.tookSeq f.leat).txIn f.leat f.poisonAt).2 else s

def execFrameForward (p : Nat) (f : RxFrame) (s : State) : Host.Outcome State Fault Refusal :=
  onUnit (p < 5) (if p = 4 then s.frameFromInside f else s.frameIn p f)

/-- A datagram at a tunnel port (R173, R174). -/
def State.datagramIn (s : State) (p : Nat) (d : Datagram) : State :=
  if !s.udp p || !s.portLive p then s
  else
    let port := s.rd (R.FAB_P_UDP.PORT p)
    if d.srcAddr != s.ip6 (R.FAB_P_PEER.addr p 0) || d.srcPort != port || d.dstPort != port || d.extHeader || !d.sumOk then
      s.bump (R.FAB_P_CNT_MISC.COUNT p)
    else s.frameIn p { d.frame with fcsOk := true }

def execUdpDatagramReceived (p : Nat) (d : Datagram) (s : State) : Host.Outcome State Fault Refusal :=
  onUnit (p < 4) (s.datagramIn p d)

/-- The link-local address of recovery mode (R497): fe80::/64 with the modified EUI-64 of FAB_MAC. -/
def State.recoveryIp (s : State) : BitVec 128 :=
  match macBytes s.ownMac with
  | [a, b, c, d, e, f] => BitVec.ofNat 128 (natBE ([0xFE#8, 0x80#8] ++ zeros 6 ++ [a ^^^ 2#8, b, c, 0xFF#8, 0xFE#8, d, e, f]))
  | _ => 0

/-- A Neighbor Solicitation answered (R175, R497). -/
def State.solicit (s : State) (p : Nat) (target : BitVec 128) : State :=
  let mine :=
    if s.upd.recovery.isSome then p == 0 && target == s.recoveryIp
    else s.udp p && s.portOn p && target == s.ip6 (R.FAB_P_IP.addr p 0)
  if mine then
    { s with fab := { s.fab with ndAnswers := SMap.set (fun _ => 0) s.fab.ndAnswers p
                                   (SMap.get (fun _ => 0) s.fab.ndAnswers p + 1) } }
  else s

def execNeighborSolicitReceived (p : Nat) (target : BitVec 128) (s : State) : Host.Outcome State Fault Refusal :=
  onUnit (p < 4) (s.solicit p target)

/-- An echo request answered (R175); recovery mode answers none (R497). -/
def State.echo (s : State) (p : Nat) (dst : BitVec 128) : State :=
  if s.upd.recovery.isNone && s.udp p && s.portOn p && dst == s.ip6 (R.FAB_P_IP.addr p 0) then
    { s with fab := { s.fab with echoAnswers := SMap.set (fun _ => 0) s.fab.echoAnswers p
                                   (SMap.get (fun _ => 0) s.fab.echoAnswers p + 1) } }
  else s

def execEchoRequestReceived (p : Nat) (dst : BitVec 128) (s : State) : Host.Outcome State Fault Refusal :=
  onUnit (p < 4) (s.echo p dst)

/-! Links (R157, R177). -/

/-- A speed that a port's media can reach (Table 5-1). -/
def State.speedOk (s : State) (p speed : Nat) : Bool :=
  if 2 ≤ p then speed == 1
  else if s.rd (R.FAB_P_CTRL.MEDIA p) = 1 then speed == 2 else speed == 2 || speed == 3

/-- Link up, or the tunnel's peer resolved (Table 5-9). -/
def State.linkUp (s : State) (p speed : Nat) : State :=
  if s.running (portUnit p) ∧ s.speedOk p speed then
    let s := (s.raise (R.FAB_P_STAT.LINK p)).wr (R.FAB_P_STAT.SPEED p) speed
    if s.rd (fADJ p) = adjDown ∧ s.running .fab then s.keying p else s
  else s

def State.linkDown (s : State) (p : Nat) : State := if s.on (R.FAB_P_STAT.LINK p) then s.portOff p else s

/-! Keys (R164, R165). -/

/-- A KEYX whose TAG fails: dropped, KEYFAIL at most once per port per 10 s (R164). -/
def State.keyFail (s : State) (p : Nat) : State :=
  let x := s.port p
  if dueAgain x.keyFailAt s.now (10 * sec) then
    (s.setPort p { x with keyFailAt := some s.now }).raise R.FAB_INTSTAT.KEYFAIL
  else s

/-- What a KEYX tells of the far end (Table 5-6). -/
def State.learnPeer (s : State) (p : Nat) (k : Keyx) : State :=
  (s.setPort p { s.port p with peerMac := k.mac, peerCaps := k.caps, peerKnown := true }).preemptSync p

/-- A rekey starts: a new OFFER with the next AN (R165). -/
def State.rekey (s : State) (p : Nat) : State :=
  match (s.port p).tx with
  | some a => (s.setPort p { s.port p with offerAn := (a.an + 1) % 4, rekeying := true, nonceAt := s.now }).offer p
  | none => s

/-- The port takes part in the exchange: its adjacency is not DOWN. -/
def State.keyxOpen (s : State) (p : Nat) : Bool := s.portLive p && s.rd (fADJ p) != adjDown

/-- An OFFER (R164): answered; one that carries the next AN while this side holds the old SA starts this side's rekey too
(notes/assumptions/38). -/
def State.keyxOffer (s : State) (p : Nat) (k : Keyx) : State :=
  if !s.keyxOpen p || !s.fabKeyOk then s
  else if !k.tagOk then s.keyFail p
  else
    let s := s.learnPeer p k
    let s := s.setPort p { s.port p with peerAn := k.an, offerSeen := true }
    let x := s.port p
    let start := !x.rekeying && (match x.tx with | some a => a.an != k.an | none => false)
    let s := if start then s.rekey p else s
    s.sendKeyx p 2 (if s.ownMac < k.mac then (s.port p).offerAn else k.an) k.nonce

/-- An ANSWER that names the current nonce installs the SA (R164, R165, Table 5-9), under the AN of the lower-MAC side's OFFER:
its ANSWER carries the same one where the OFFER has not been seen. -/
def State.keyxAnswer (s : State) (p : Nat) (k : Keyx) : State :=
  let x := s.port p
  if !s.keyxOpen p || !s.fabKeyOk then s
  else if !k.tagOk then s.keyFail p
  else if k.peerNonce ≠ x.nonce ∨ !(s.rd (fADJ p) = adjKeying || x.rekeying) then s
  else
    let s := s.learnPeer p k
    let an := if s.ownMac < k.mac then x.offerAn else if x.offerSeen then x.peerAn else k.an
    let sa : FabSa := { an := an, sak := s.sak k.mac x.nonce k.nonce an }
    let x := s.port p
    let s := s.setPort p { x with tx := some sa, rx := sa :: (x.rx.filter (·.an != an)).take 1, txPn := 0, saAt := s.now
                                  oldSaAt := if x.rx.isEmpty then none else some (s.now + sec), rekeying := false }
    if s.rd (fADJ p) = adjKeying then (s.wr (fADJ p) adjHello).sendHello p else s

def execKeyxOfferReceived (p : Nat) (k : Keyx) (s : State) : Host.Outcome State Fault Refusal :=
  onUnit (p < 4) (s.keyxOffer p k)

def execKeyxAnswerReceived (p : Nat) (k : Keyx) (s : State) : Host.Outcome State Fault Refusal :=
  onUnit (p < 4) (s.keyxAnswer p k)

/-- Every 100 ms the OFFER is repeated; after 1 s without success with a new nonce (R164). -/
def State.offerTimer (s : State) (p : Nat) : State :=
  if s.portLive p && (s.rd (fADJ p) == adjKeying || (s.port p).rekeying) then
    let s := s.advance ((s.port p).offerAt + 100 * ms)
    (if (s.port p).nonceAt + sec ≤ s.now then s.newNonce p else s).offer p
  else s

/-- 10 s in KEYING without an SA (Table 5-9). -/
def State.keyingTimeout (s : State) (p : Nat) : State :=
  if s.portLive p && s.rd (fADJ p) == adjKeying then
    let s := s.advance ((s.port p).keyingSince + 10 * sec)
    (s.setPort p { s.port p with keyingSince := s.now }).event 0x0502 (unit := p)
  else s

/-- REKEY_MIN after installation, or at PN 0xC000_0000 (R165). -/
def State.rekeyTimer (s : State) (p : Nat) : State :=
  let x := s.port p
  if x.tx.isSome && !x.rekeying && s.portLive p then
    let s := if 0xC0000000 ≤ x.txPn then s else s.advance (x.saAt + 60 * sec * s.rd R.FAB_SEC.REKEY_MIN)
    (s.setPort p { s.port p with offerSeen := false }).rekey p
  else s

/-- The old SA deleted 1 s after the new one was installed (R165). -/
def State.oldSaDelete (s : State) (p : Nat) : State :=
  match (s.port p).oldSaAt with
  | some t =>
    let s := s.advance t
    s.setPort p { s.port p with rx := (s.port p).rx.take 1, oldSaAt := none }
  | none => s

def execKeyxOfferTimer (p : Nat) (s : State) : Host.Outcome State Fault Refusal := onUnit (p < 4) (s.offerTimer p)

def execKeyingTimeout (p : Nat) (s : State) : Host.Outcome State Fault Refusal := onUnit (p < 4) (s.keyingTimeout p)

def execRekeyTimer (p : Nat) (s : State) : Host.Outcome State Fault Refusal := onUnit (p < 4) (s.rekeyTimer p)

def execOldSaDelete (p : Nat) (s : State) : Host.Outcome State Fault Refusal := onUnit (p < 4) (s.oldSaDelete p)

/-! HELLO and adjacency (R176 to R178). -/

/-- The adjacency is in HELLO or UP. -/
def State.helloing (s : State) (p : Nat) : Bool :=
  s.portLive p && (s.rd (fADJ p) == adjHello || s.rd (fADJ p) == adjUp)

def State.helloTimer (s : State) (p : Nat) : State :=
  if s.helloing p then (s.advance ((s.port p).helloAt + 100 * us * s.rd R.FAB_HELLO.INT)).sendHello p else s

/-- HELLO to UP (Table 5-9): the adjacency in the own LSA, the whole database sent (R183); with nothing to send the exchange is
complete (R179). -/
def State.comeUp (s : State) (p : Nat) : State :=
  let s := (((s.wr (fADJ p) adjUp).raise R.FAB_INTSTAT.ADJUP).event 0x0500 (unit := p) (subj := (s.port p).peerNode))
  let s := s.reoriginate
  let s := s.sendLsas p (s.fab.lsdb.filterMap fun (n, x) => if n < 4096 then x.map (·.lsa) else none)
  if (s.port p).unacked.isEmpty then { s with fab := { s.fab with exchanged := true } } else s

/-- One FAB cycle, rounded down to a nanosecond. -/
def fabCycle : Nat := 6

/-- A HELLO (Table 5-9). It names this module where it gives the module's node, 0 for one without a number: so a claimant's
first adjacency forms (R179, notes/assumptions/36). One that arrives as the dead timer expires voids the expiry (R178). -/
def State.hello (s : State) (p : Nat) (h : Hello) : State :=
  if !s.helloing p then s
  else
    let void := match (s.port p).deadAt with | some t => t ≤ s.now + fabCycle | none => false
    let s := s.setPort p { s.port p with deadAt := some (s.now + 100 * us * h.int * h.dead), deadVoid := void }
    let x := s.port p
    let up := s.rd (fADJ p) == adjUp
    let named := h.heard == s.rd R.FAB_NODE.ACT
    if up && (h.mac != x.peerMac || h.node != x.peerNode) then ((s.leaveUp p adjKeying true).dropSa p).keying p
    else
      let s := (s.setPort p { s.port p with peerMac := h.mac, peerNode := h.node }).wr (R.FAB_P_STAT.NBR p) h.node
      if up && !named then s.leaveUp p adjHello false
      else if !up && named then s.comeUp p
      else s

/-- The command that follows this one, in the same cycle, is a HELLO at the port. -/
def State.helloNext (s : State) (p : Nat) : Bool :=
  match s.pending with
  | .helloReceived q _ :: _ => q == p
  | _ => false

/-- The neighbour is dead (R176, Table 5-9), unless a HELLO of the same FAB cycle prevails (R178): one taken just before, or
the one that waits next. -/
def State.deadTimer (s : State) (p : Nat) : State :=
  let x := s.port p
  match x.deadAt with
  | some t =>
    if !s.helloing p then s
    else if x.deadVoid then s.setPort p { x with deadVoid := false }
    else if s.helloNext p then (s.advance t).setPort p { x with deadAt := none }
    else (s.advance t).portDown p
  | none => s

def execHelloTimer (p : Nat) (s : State) : Host.Outcome State Fault Refusal := onUnit (p < 4) (s.helloTimer p)

def execHelloReceived (p : Nat) (h : Hello) (s : State) : Host.Outcome State Fault Refusal := onUnit (p < 4) (s.hello p h)

def execDeadTimer (p : Nat) (s : State) : Host.Outcome State Fault Refusal := onUnit (p < 4) (s.deadTimer p)

/-! Node numbers (R179 to R181). -/

/-- A claiming module picks (R179): once its first adjacency has exchanged databases, or 500 ms after EN with none. -/
def State.claimPick (s : State) : State :=
  if !s.running .fab || s.rd R.FAB_NODE.NSTATE != nsClaiming || s.fab.tentativeAt.isSome then s
  else if s.fab.exchanged then s.pickNode
  else if s.upPorts.isEmpty then (s.advance (s.fab.enAt + 500 * ms)).pickNode
  else s

/-- 300 ms without a conflict: ASSIGNED (R179). -/
def State.claimed (s : State) : State :=
  match s.fab.tentativeAt with
  | none => s
  | some t =>
    if !s.running .fab then s
    else
      let s := s.advance (t + 300 * ms)
      let n := s.fab.candidate
      let s := (s.wr R.FAB_NODE.ACT n).wr R.FAB_NODE.NSTATE nsAssigned
      let s : State := { s with fab := { s.fab with tentativeAt := none } }
      let s := (s.originate n lsAssigned).putIdentRec { s.identRec with node := n }
      (s.raise R.FAB_INTSTAT.NODEOK).event 0x0503 (subj := n)

def State.claimRetry (s : State) : State :=
  if s.running .fab ∧ s.rd R.FAB_NODE.NSTATE = nsNonode then (s.advance s.fab.retryAt).pickNode else s

def execNodeClaimPick (s : State) : Host.Outcome State Fault Refusal := .next s.claimPick

def execTentativeTimer (s : State) : Host.Outcome State Fault Refusal := .next s.claimed

def execNonodeRetry (s : State) : Host.Outcome State Fault Refusal := .next s.claimRetry

/-! Link state (R180, R182, R183, R451). -/

/-- The node this module claims or holds. -/
def State.myNode (s : State) : Nat :=
  let a := s.rd R.FAB_NODE.ACT
  if a ≠ 0 then a else if s.fab.tentativeAt.isSome then s.fab.candidate else 0

/-- This module yields to another's claim of its number (R180). Of two ASSIGNED claims one held before this module first
flooded its own prevails, and so does one that comes before that. -/
def State.yieldsTo (s : State) (l : Lsa) : Bool :=
  let mineAssigned := s.rd R.FAB_NODE.ACT != 0
  let theirsAssigned := l.state == lsAssigned
  if mineAssigned && theirsAssigned then
    !s.fab.ownFlooded || (match s.lsa l.node with | some x => x.lsa.mac == l.mac && x.beforeOwn | none => false)
      || l.mac < s.ownMac
  else if mineAssigned then false
  else if theirsAssigned then true
  else l.mac < s.ownMac

/-- SEQ a is newer than b (R183). -/
def seqNewer (a b : Nat) : Bool :=
  let d := (a + 2 ^ 32 - b) % 2 ^ 32
  1 ≤ d && d ≤ 2 ^ 31 - 1

/-- A newer LSA: a WITHDRAWN one removes its entry once it has been flooded on (R183). -/
def State.takeLsa (s : State) (p : Nat) (l : Lsa) : State :=
  let s := (s.bump R.FAB_CNT_LSARX.COUNT).sendAck p l
  let s := s.flood l (some p)
  if l.state = lsWithdrawn then s.removeLsa l.node else s.installLsa l.node l

/-- An LSA judged by its SEQ (R183): installed and flooded on, acknowledged, or answered with the stored copy. -/
def State.lsaBySeq (s : State) (p : Nat) (l : Lsa) : State :=
  match s.lsa l.node with
  | some x =>
    if l.seq = x.lsa.seq then s.sendAck p l
    else if seqNewer l.seq x.lsa.seq then s.takeLsa p l
    else s.sendLsas p [x.lsa]
  | none => s.takeLsa p l

/-- An alias LSA (R450, R451). -/
def State.aliasIn (s : State) (p : Nat) (l : Lsa) : State :=
  let mine := s.pairActive && l.node == s.rd R.PAIR_SNODE.SNODE && l.mac != s.ownMac
  if mine && l.state == lsAssigned then
    if s.rd R.PAIR_EPOCH.EPOCH < l.seq then (s.lsaBySeq p l).pairDemote
    else if l.seq < s.rd R.PAIR_EPOCH.EPOCH then
      ((s.bump R.FAB_CNT_LSARX.COUNT).setLsa (lowAlias l.node) (some { lsa := l, at_ := s.now })).sendAck p l
    else s.sendAck p l
  else s.lsaBySeq p l

/-- An LSA for this module's own node (R182, R183): a newer one makes it flood its own with a higher SEQ, an equal one is
acknowledged, an older one answered with the stored copy. -/
def State.ownLsaIn (s : State) (p : Nat) (l : Lsa) : State :=
  if seqNewer l.seq s.fab.ownSeq then
    (s.sendAck p l).originate l.node (if s.rd R.FAB_NODE.ACT = 0 then lsTentative else lsAssigned) (some (l.seq + 1))
  else if l.seq = s.fab.ownSeq then s.sendAck p l
  else
    match s.lsa l.node with
    | some x => s.sendLsas p [x.lsa]
    | none => s.sendAck p l

/-- An LSA received (R180, R182, R183). -/
def State.lsaIn (s : State) (p : Nat) (l : Lsa) : State :=
  if !s.helloing p || !s.running .fab then s
  else if l.node = 0 ∨ 4094 < l.node ∨ l.state = 0 ∨ 3 < l.state then s
  else if l.alias_ then s.aliasIn p l
  else if l.node = s.myNode ∧ l.mac ≠ s.ownMac ∧ l.state ≠ lsWithdrawn ∧ s.yieldsTo l then (s.yieldNode l.node).lsaBySeq p l
  else if l.node = s.myNode then s.ownLsaIn p l
  else s.lsaBySeq p l

/-- An LSACK (R183): the acknowledged LSAs need no repeat; an exchange with nothing left is complete (R179). -/
def State.lsackIn (s : State) (p : Nat) (items : List (Nat × Nat)) : State :=
  if !s.helloing p then s
  else
    let left := (s.port p).unacked.filter fun u => !items.contains (u.node, u.seq)
    let s := s.setPort p { s.port p with unacked := left }
    if left.isEmpty ∧ s.rd (fADJ p) = adjUp then { s with fab := { s.fab with exchanged := true } } else s

/-- Unacknowledged LSAs repeated every 2 ms (R183), but for one that the database has meanwhile replaced. -/
def State.lsaRepeat (s : State) (p : Nat) : State :=
  let x := s.port p
  if s.portLive p ∧ s.rd (fADJ p) = adjUp ∧ !x.unacked.isEmpty then
    let s := s.advance (x.lsaSentAt + 2 * ms)
    let again := x.unacked.filter fun l => match s.lsa l.node with | some y => !seqNewer y.lsa.seq l.seq | none => true
    (s.setPort p { s.port p with unacked := [], lsaSentAt := s.now }).sendLsas p again
  else s

/-- The own LSA flooded every 30 s (R182). -/
def State.lsaRefresh (s : State) : State :=
  if s.running .fab ∧ s.rd R.FAB_NODE.NSTATE = nsAssigned then (s.advance (s.fab.ownAt + 30 * sec)).reoriginate else s

/-- An entry not refreshed for 120 s (R183). -/
def State.lsaAgeOut (s : State) (n : Nat) : State :=
  match s.lsa n with
  | some x => if n = s.myNode then s else (s.advance (x.at_ + 120 * sec)).removeLsa n
  | none => s

def execLsaReceived (p : Nat) (l : Lsa) (s : State) : Host.Outcome State Fault Refusal := onUnit (p < 4) (s.lsaIn p l)

def execLsackReceived (p : Nat) (items : List (Nat × Nat)) (s : State) : Host.Outcome State Fault Refusal :=
  onUnit (p < 4) (s.lsackIn p items)

def execLsaRetransmit (p : Nat) (s : State) : Host.Outcome State Fault Refusal := onUnit (p < 4) (s.lsaRepeat p)

def execLsaRefresh (s : State) : Host.Outcome State Fault Refusal := .next s.lsaRefresh

def execLsaAgeOut (n : Nat) (s : State) : Host.Outcome State Fault Refusal := onUnit (n < 4096) (s.lsaAgeOut n)

/-! Routes (R185 to R187). -/

/-- 0.5 ms after an uncovered change: a computation, or a FUNC 5 descriptor (R185, R187). -/
def State.routeStart (s : State) : State :=
  match s.fab.dirtyAt, s.fab.computing with
  | some t, none =>
    if !s.running .fab then s
    else
      let s := s.advance (t + 500 * us)
      let s : State := { s with fab := { s.fab with dirtyAt := none } }
      if s.assist .fab then
        (s.asnPostTo .fab 5 0 (bytesLE s.fab.generation 4 ++ bytesLE (s.rd R.FAB_NODE.ACT) 2 ++ zeros 10) false [] none).2.spfBusy
      else ({ s with fab := { s.fab with computing := some s.computeRoutes } } : State).spfBusy
  | _, _ => s

/-- The finished table replaces the routes (R185). -/
def State.routeDone (s : State) : State :=
  match s.fab.computing with
  | some t => (({ s with fab := { s.fab with computing := none } } : State).spfBusy).installRoutes t
  | none => s

def execRouteComputeStart (s : State) : Host.Outcome State Fault Refusal := .next s.routeStart

def execRouteComputeComplete (s : State) : Host.Outcome State Fault Refusal := .next s.routeDone

/-! QUENCH (R193 to R195). -/

/-- A QUENCH at a hop (R181, R193): from a fabric port through its rules and policers, to the gate where it carries a session's
authority; from the internal port it is the module's own. -/
def State.quenchIn (s : State) (p : Nat) (f : Leat) : State :=
  let f := { f with typ := tyQuench }
  if !s.canSend then s
  else if p = 4 then (if f.auth then s.toInbox f else s.quenchIssue f)
  else if s.takesFrames p then s.switch p f
  else s

/-- The origin's repeats (R193). -/
def State.quenchResend (s : State) : State :=
  match s.fab.resend with
  | [] => s
  | x :: rest =>
    let s := s.advance x.at_
    let again := if x.left ≤ 1 then [] else [{ x with left := x.left - 1, at_ := s.now + 10 * ms }]
    let s : State := { s with fab := { s.fab with resend := rest ++ again } }
    if s.canSend then s.quenchHop 4 (s.stamped x.frame) else s

/-- A rule's LIFETIME ends (R194). -/
def State.ruleExpiry (s : State) (k : Nat) : State :=
  let x := s.rule (k / 32) (k % 32)
  if x.valid then (s.advance x.until_).setRule (k / 32) (k % 32) {} else s

def execQuenchReceived (p : Nat) (f : Leat) (s : State) : Host.Outcome State Fault Refusal :=
  onUnit (p < 5) (s.quenchIn p f)

def execQuenchResend (s : State) : Host.Outcome State Fault Refusal := .next s.quenchResend

def execQuenchRuleExpiry (k : Nat) (s : State) : Host.Outcome State Fault Refusal := onUnit (k < 160) (s.ruleExpiry k)

/-! Preemption (R192, R174). -/

def State.verifyDone (s : State) (p : Nat) (ok : Bool) : State :=
  let x := s.port p
  if !(s.portLive p && s.on (R.FAB_P_CTRL.PREEMPT_EN p) && x.peerKnown && x.peerCaps % 2 == 1 && !s.udp p) then s
  else
    let s := (s.setPort p { x with verified := ok }).wrb (R.FAB_P_STAT.PREEMPT_ACT p) ok
    if ok then s else (s.raise R.FAB_INTSTAT.PREEMPTOFF).event 0x050E (unit := p)

def execPreemptVerifyComplete (p : Nat) (ok : Bool) (s : State) : Host.Outcome State Fault Refusal :=
  onUnit (p < 4) (s.verifyDone p ok)

/-! Fabric time (R198, R199). -/

/-- A port of the boundary clock (R198). -/
def State.ptpPort (s : State) (p : Nat) : Bool :=
  s.portLive p && s.on (R.FAB_P_CTRL.PTP_EN p) && !s.udp p && (s.port p).tx.isSome

/-- STATE of FAB_PTP_STAT. -/
def ptpFree : Nat := 0
def ptpAcquiring : Nat := 1
def ptpLocked : Nat := 2
def ptpHoldover : Nat := 3

def State.setPtp (s : State) (x : FabPtp) : State := { s with fab := { s.fab with ptp := x } }

/-- What the best-master clock algorithm ranks first in a dataset (R198). -/
def ptpRank (a : PtpAnnounce) : List Nat := [a.priority1, a.clockClass, a.accuracy, a.variance, a.priority2, a.gm]

/-- Lists compared place by place. -/
def listBelow : List Nat → List Nat → Bool
  | x :: xs, y :: ys => x < y || (x == y && listBelow xs ys)
  | _, _ => false

/-- How one dataset stands to another: plainly better or worse, or by topology alone. -/
inductive PtpOrder where
  | better | betterByPath | worse | worseByPath
  deriving DecidableEq, Repr

/-- IEEE 1588's data set comparison of what ports p and q heard, `own` the receiver (R198). -/
def ptpCompare (own p q : Nat) (a b : PtpAnnounce) : PtpOrder :=
  if a.gm ≠ b.gm then (if listBelow (ptpRank a) (ptpRank b) then .better else .worse)
  else if a.steps + 1 < b.steps then .better
  else if b.steps + 1 < a.steps then .worse
  else if a.steps < b.steps then (if own < b.sender then .better else .betterByPath)
  else if b.steps < a.steps then (if own < a.sender then .worse else .worseByPath)
  else if listBelow [a.sender, a.port, p] [b.sender, b.port, q] then .betterByPath
  else .worseByPath

/-- The own clock's rank; its accuracy and variance, which the spec does not state, are free (notes/assumptions/39). -/
def State.ownPtpRank (s : State) : List Nat :=
  [s.rd R.FAB_PTP_CFG.PRIORITY1, if s.on R.FAB_PTP_CFG.GMCAP then 248 else 255, Config.clockAccuracy.toNat,
   Config.clockVariance.toNat, s.rd R.FAB_PTP_CFG.PRIORITY2, s.ownMac]

/-- The master heard at a port of the clock: within its last three Announce intervals, or the one that is followed, whose loss
PTP_ANNOUNCE_TIMEOUT tells. A master counts from its first Announce (notes/assumptions/39). -/
def State.ptpForeign (s : State) (p : Nat) : Option PtpAnnounce :=
  let live := s.rd R.FAB_PTP_STAT.SLAVE == p || (match (s.port p).annAt with | some t => s.now < t + 3 * sec | none => false)
  if s.ptpPort p && live then SMap.get (fun _ => none) s.fab.ptp.foreign p else none

/-- The best master heard, with its port. -/
def State.ptpHeard (s : State) : Option (Nat × PtpAnnounce) :=
  (List.range 4).foldl (fun m p =>
    match s.ptpForeign p, m with
    | some a, some (q, b) =>
      (match ptpCompare s.ownMac p q a b with | .better => some (p, a) | .betterByPath => some (p, a) | _ => m)
    | some a, none => some (p, a)
    | none, _ => m) none

/-- The master to follow: the best heard, unless this clock may be grandmaster and is better (R198). -/
def State.ptpMaster (s : State) : Option (Nat × PtpAnnounce) :=
  match s.ptpHeard with
  | some (q, b) => if s.on R.FAB_PTP_CFG.GMCAP && listBelow s.ownPtpRank (ptpRank b) then none else some (q, b)
  | none => none

/-- What a port of the clock does. -/
inductive PtpRole where
  | listening | master | passive | slave
  deriving DecidableEq, Repr

/-- The state decision of the default best-master clock algorithm (R198): where the port hears a master that the followed one
beats only by topology it is passive. A slave-only clock without a master listens. -/
def State.ptpRole (s : State) (p : Nat) : PtpRole :=
  match s.ptpMaster with
  | none => if s.on R.FAB_PTP_CFG.GMCAP then .master else .listening
  | some (q, b) =>
    if p = q then .slave
    else
      match s.ptpForeign p with
      | some a => if ptpCompare s.ownMac q p b a = .betterByPath then .passive else .master
      | none => .master

/-- The grandmaster of the clock, 0 with none. -/
def State.grandmaster (s : State) (m : Option PtpAnnounce) : Nat :=
  match m with
  | some b => b.gm
  | none => if s.on R.FAB_PTP_CFG.GMCAP then s.ownMac else 0

/-- The clock follows the master it should (R198, R199); a change of grandmaster names its port, 7 for the own clock. -/
def State.ptpDecide (s : State) : State :=
  let x := s.fab.ptp
  let slave := s.rd R.FAB_PTP_STAT.SLAVE
  let old := s.grandmaster x.best
  let fresh := { x with good := 0, toMaster := none, t3 := none, syncAt := none }
  match s.ptpMaster with
  | some (q, b) =>
    let same := slave == q && (match x.best with | some o => o.sender == b.sender | none => false)
    let s := s.setPtp { (if same then x else fresh) with best := some b }
    let s := (s.wr R.FAB_PTP_STAT.SLAVE q).wr R.FAB_PTP_STAT.STEPSREM (min 255 (b.steps + 1))
    let s := if same then s else s.wr R.FAB_PTP_STAT.STATE ptpAcquiring
    if b.gm = old then s else (s.raise R.FAB_INTSTAT.GMCHG).event 0x050C (unit := q)
  | none =>
    if x.best.isNone then s
    else
      let s := s.setPtp { fresh with best := none }
      let s := (s.wr R.FAB_PTP_STAT.SLAVE 7).wr R.FAB_PTP_STAT.STEPSREM 0
      let s := if s.rd R.FAB_PTP_STAT.STATE = ptpHoldover then s else s.wr R.FAB_PTP_STAT.STATE ptpFree
      if s.on R.FAB_PTP_CFG.GMCAP then (s.raise R.FAB_INTSTAT.GMCHG).event 0x050C (unit := 7) else s

def State.setForeign (s : State) (p : Nat) (a : Option PtpAnnounce) : State :=
  let s := s.setPtp { s.fab.ptp with foreign := SMap.set (fun _ => none) s.fab.ptp.foreign p a }
  s.setPort p { s.port p with annAt := a.map fun _ => s.now }

/-- An Announce (R198, R199); the own one come back, or one from 255 steps, counts for nothing. -/
def State.ptpAnnounce (s : State) (p : Nat) (a : PtpAnnounce) : State :=
  if a.gm = s.ownMac ∨ 255 ≤ a.steps then s else (s.setForeign p (some a)).ptpDecide

/-- MT after a slew of at most 100 ppm over the interval since the last Sync (R199). -/
def slewed (mt dt : Nat) (offset : Int) : Nat :=
  let lim : Int := dt / 10000
  ((mt : Int) - max (-lim) (min lim offset)).toNat

/-- A Sync's offset taken (R199): a step above STEP_US, a slew below; LOCKED after 16 intervals below 200 ns. -/
def State.ptpOffset (s : State) (offset : Int) (dt : Nat) : State :=
  let shown := max (-(2 ^ 31 : Int)) (min (2 ^ 31 - 1) offset)
  let s := s.setReg R.FAB_PTP_OFS.addr (BitVec.ofInt 32 shown)
  let x := s.fab.ptp
  if us * s.rd R.FAB_PTP_STEP.STEP_US < offset.natAbs then
    let s := (s.setPtp { x with good := 0, toMaster := none }).wr R.FAB_PTP_STAT.STATE ptpAcquiring
    ((s.mtStep ((s.mtNs : Int) - offset).toNat).raise R.FAB_INTSTAT.PTPSTEP).event 0x050B
      (unit := s.rd R.FAB_PTP_STAT.SLAVE)
  else
    let good := if offset.natAbs < 200 then x.good + 1 else 0
    let s := { s.setPtp { x with good := good } with mt := BitVec.ofNat 64 (slewed s.mtNs dt offset) }
    if 16 ≤ good then s.wr R.FAB_PTP_STAT.STATE ptpLocked else s

/-- PTP messages a port has put on its link, inside MACsec like every other frame (R198): a two-step Sync is two frames. -/
def State.ptpPut (s : State) (p : Nat) (m : List PtpMsg) : State :=
  let n := (m.map fun x => match x with | .sync _ _ => 2 | _ => 1).sum
  let s := s.setPtp { s.fab.ptp with sent := SMap.set (fun _ => []) s.fab.ptp.sent p m }
  (s.bumpBy (R.FAB_P_CNT_TXFRM.COUNT p) n).spendPn p n

/-- A PTP message of the clock's domain (R198); time stamps corrected by FAB_Pn_PTPDLY. -/
def State.ptpIn (s : State) (p domain : Nat) (m : PtpMsg) : State :=
  if !s.ptpPort p || domain != s.rd R.FAB_PTP_CFG.DOMAIN then s
  else
    let slave := s.rd R.FAB_PTP_STAT.SLAVE == p && s.fab.ptp.best.isSome
    let rx := s.rd (R.FAB_P_PTPDLY.RXDLY p)
    match m with
    | .announce a => s.ptpAnnounce p a
    | .sync origin ingress =>
      if !slave then s
      else
        let x := s.fab.ptp
        let d : Int := (ingress : Int) - rx - origin
        let s := s.setPtp { x with toSlave := d, syncAt := some s.now }
        match x.toMaster with
        | some u => s.ptpOffset ((d - u) / 2) (s.now - x.syncAt.getD s.now)
        | none => s
    | .delayResp received =>
      if !slave then s
      else
        match s.fab.ptp.t3 with
        | some t3 => s.setPtp { s.fab.ptp with toMaster := some ((received : Int) - t3), t3 := none }
        | none => s
    | .delayReq ingress => if s.ptpRole p = .master then s.ptpPut p [.delayResp (ingress - rx)] else s

def execPtpMessageReceived (p : Nat) (x : PtpFrame) (s : State) : Host.Outcome State Fault Refusal :=
  onUnit (p < 4) (s.ptpIn p x.domain x.msg)

/-- This clock as its Announce gives it on a master port. -/
def State.ptpSelf (s : State) (p : Nat) : PtpAnnounce :=
  match s.fab.ptp.best with
  | some b => { b with port := p, steps := b.steps + 1, sender := s.ownMac }
  | none => { port := p, priority1 := s.rd R.FAB_PTP_CFG.PRIORITY1, clockClass := if s.on R.FAB_PTP_CFG.GMCAP then 248 else 255
              accuracy := Config.clockAccuracy.toNat, variance := Config.clockVariance.toNat
              priority2 := s.rd R.FAB_PTP_CFG.PRIORITY2, gm := s.ownMac, steps := 0, sender := s.ownMac }

/-- Every 2^-4 s a slave port sends Delay_Req, a master port Sync, and Announce once a second (R198); a passive or listening
port sends nothing. -/
def State.ptpTx (s : State) (p : Nat) : State :=
  if !s.ptpPort p then s
  else
    let s := s.advance (s.port p).ptpTxAt
    let s := s.setPort p { s.port p with ptpTxAt := s.now + 62500 * us }
    let n := SMap.get (fun _ => 0) s.fab.ptp.intervals p
    let s := s.setPtp { s.fab.ptp with intervals := SMap.set (fun _ => 0) s.fab.ptp.intervals p (n + 1) }
    let tx := s.rd (R.FAB_P_PTPDLY.TXDLY p)
    match s.ptpRole p with
    | .slave => (s.setPtp { s.fab.ptp with t3 := some (s.mtNs + tx) }).ptpPut p [.delayReq (s.mtNs + tx)]
    | .master => s.ptpPut p (.sync (s.mtNs + tx) 0 :: (if n % 16 = 0 then [.announce (s.ptpSelf p)] else []))
    | _ => s

def execPtpTxTimer (p : Nat) (s : State) : Host.Outcome State Fault Refusal := onUnit (p < 4) (s.ptpTx p)

/-- The slave port loses its master (R199): HOLDOVER; then another master heard, or the own clock, is followed. -/
def State.ptpLost (s : State) : State :=
  let p := s.rd R.FAB_PTP_STAT.SLAVE
  match s.fab.ptp.best, (s.port p).annAt with
  | some _, some t =>
    let s := (s.advance (t + 3 * sec)).setForeign p none
    let s := ((s.wr R.FAB_PTP_STAT.STATE ptpHoldover).raise R.FAB_INTSTAT.HOLDOVER).event 0x050D (unit := p)
    s.ptpDecide
  | _, _ => s

def execPtpAnnounceTimeout (s : State) : Host.Outcome State Fault Refusal := .next s.ptpLost

/-! The SVC mailbox (R201). -/

/-- The frame that SVC has written, of `len` bytes; SRC is the fabric's, as are TTL and ORIGIN at entry. -/
def State.mbxFrame (s : State) (len : Nat) : Leat :=
  let b := s.mbxBytes 0 len
  let n := numAt b
  { ver := n 0 1 % 16, lane := n 0 1 / 16 % 4, cp := n 0 1 / 64 % 2 == 1, ttl := n 1 1, dst := n 2 2 % 4096
    src := s.srcNode (n 6 1), typ := n 6 1, auth := n 7 1 % 2 == 1, session := n 8 4, seq := n 12 4, len := n 16 2
    flow := n 18 2, origin := n 20 8, payload := b.drop 28 }

/-- FAB_MBX_TX.GO (R201). A QUENCH that R193 does not allow ends BADHDR; one under a session's authority goes to the gate.
DESIGN CHOICE: while the fabric does not run, or the module has no node, RESULT is NOROUTE and nothing counts
(notes/assumptions/158). -/
def State.mbxSend (s : State) (len : Nat) : State :=
  let s := s.wr R.FAB_MBX_TX.LEN len
  let f := s.stamped (s.mbxFrame len)
  let res := fun (s : State) (r : Nat) => s.wr R.FAB_MBX_TX.RESULT r
  let quench := f.typ == tyQuench
  if len < 28 ∨ 1188 < len ∨ (!quench ∧ f.typ ≠ tyMbx) then res s 2
  else if !s.canSend then res s 1
  else if quench && !(if f.auth then headerOk f else quenchOk f) then res (s.bump R.FAB_CNT_BADHDR.COUNT) 2
  else if quench && f.auth then res (s.toInbox f) 0
  else if f.dst = 0 ∨ (f.dst = 4095 ∧ quench) ∨ (f.dst ≠ 4095 ∧ s.routePort f.dst = portNone) then
    res (s.bump R.FAB_CNT_NOROUTE.COUNT) 1
  else if quench then res (s.quenchIssue f) 0
  else res ((s.tookSeq f).txIn f none).2 0

def execMbxSend (len : Nat) (s : State) : Host.Outcome State Fault Refusal := .next (s.mbxSend len)

end Sys2Proof.Machine
end

