-- ==== Sys2Proof/Machine/Rtc.lean ====
section
/-!
DEFINITION. The real-time clock and backup domain (ch17): counting, freeze shadows, the staged commit, the backup bytes,
the domain's supply.
-/

namespace Sys2Proof.Machine

/-! The calendar (R533). -/

def leapYear (y : Nat) : Bool := y % 4 == 0 && (y % 100 != 0 || y % 400 == 0)

def daysIn (y m : Nat) : Nat :=
  match m with
  | 2 => if leapYear y then 29 else 28
  | 4 => 30
  | 6 => 30
  | 9 => 30
  | 11 => 30
  | _ => 31

/-- A date and time as the time registers and the staging registers give it. -/
structure Calendar where
  year : Nat
  month : Nat
  day : Nat
  hour : Nat
  minute : Nat
  second : Nat
  deriving DecidableEq, Repr

/-- Days from 2000-01-01. -/
def Calendar.dayNumber (c : Calendar) : Nat :=
  ((List.range (c.year - 2000)).map fun k => if leapYear (2000 + k) then 366 else 365).sum
    + ((List.range (c.month - 1)).map fun k => daysIn c.year (k + 1)).sum + (c.day - 1)

/-- 1 Monday to 7 Sunday; 2000-01-01 was a Saturday. -/
def Calendar.weekday (c : Calendar) : Nat := (c.dayNumber + 5) % 7 + 1

/-- The date exists and every field is in its range (R538). -/
def Calendar.valid (c : Calendar) : Bool :=
  2000 ≤ c.year && c.year ≤ 2199 && 1 ≤ c.month && c.month ≤ 12 && 1 ≤ c.day && c.day ≤ daysIn c.year c.month
    && c.hour ≤ 23 && c.minute ≤ 59 && c.second ≤ 59

/-- One second later; 2000-01-01 00:00:00 after the last second of 2199. -/
def Calendar.next (c : Calendar) : Calendar :=
  if c.second < 59 then { c with second := c.second + 1 }
  else if c.minute < 59 then { c with second := 0, minute := c.minute + 1 }
  else if c.hour < 23 then { c with second := 0, minute := 0, hour := c.hour + 1 }
  else
    let d := { c with second := 0, minute := 0, hour := 0 }
    if c.day < daysIn c.year c.month then { d with day := c.day + 1 }
    else if c.month < 12 then { d with day := 1, month := c.month + 1 }
    else if c.year < 2199 then { d with day := 1, month := 1, year := c.year + 1 }
    else { d with day := 1, month := 1, year := 2000 }

/-- The calendar. -/
def State.calendar (s : State) : Calendar where
  year := s.rd R.RTC_YEAR.YEAR
  month := s.rd R.RTC_MON.MON
  day := s.rd R.RTC_DAY.DAY
  hour := s.rd R.RTC_HOUR.HOUR
  minute := s.rd R.RTC_MIN.MIN
  second := s.rd R.RTC_SEC.SEC

/-- The calendar replaced, WDAY computed. -/
def State.setCalendar (s : State) (c : Calendar) : State :=
  let s := ((s.wr R.RTC_YEAR.YEAR c.year).wr R.RTC_MON.MON c.month).wr R.RTC_DAY.DAY c.day
  let s := ((s.wr R.RTC_HOUR.HOUR c.hour).wr R.RTC_MIN.MIN c.minute).wr R.RTC_SEC.SEC c.second
  s.wr R.RTC_DAY.WDAY c.weekday

/-- The prescaler's count (RTC_SUBSEC): 32,768 counts a second; it stands while the oscillator is stopped. -/
def State.subsec (s : State) : Nat :=
  if s.rtc.stopped then s.rd R.RTC_SUBSEC.SUBSEC else 32768 * (s.now - s.rtc.secAt) / sec % 32768

/-- A time register's value once `sub` counts of the present second are gone. -/
def State.timeReg (s : State) (sub a : Nat) : Word := if a = R.RTC_SUBSEC.addr then BitVec.ofNat 32 sub else s.reg a

/-- All seven time registers. -/
def State.timeNow (s : State) (sub : Nat) : List Word := timeRegs.map (s.timeReg sub)

/-- The RTC cycle of the present instant. -/
def State.rtcCycle (s : State) : Nat := 32768 * s.now / sec

/-! Writing (R538 to R540). -/

/-- The staged calendar. -/
def State.staged (s : State) : Calendar where
  year := s.rd R.RTC_SYEAR.YEAR
  month := s.rd R.RTC_SMON.MON
  day := s.rd R.RTC_SDAY.DAY
  hour := s.rd R.RTC_SHOUR.HOUR
  minute := s.rd R.RTC_SMIN.MIN
  second := s.rd R.RTC_SSEC.SEC

/-- An RTC_CMD completes. -/
def State.rtcDone (s : State) (op res : Nat) : State :=
  (((s.wr R.RTC_CMD.OP op).wr R.RTC_CMD.RESULT res).clear R.RTC_CMD.GO).raise R.RTC_INTSTAT.CMDDONE

/-- The commit (R538): the calendar, the prescaler at 0, OSF cleared, TQ set, SETDONE; how RTC_SET's words carry the old and
the new time is free (notes/assumptions/41). -/
def State.rtcCommit (s : State) (tq : Nat) : State :=
  let s : State := { s with rtc := { s.rtc with prior := s.timeNow s.subsec } }
  let s := s.setCalendar s.staged
  let s : State := { s with rtc := { s.rtc with secAt := s.now, stopped := false, setPending := false, syncDue := false } }
  let s := (((s.wr R.RTC_SUBSEC.SUBSEC 0).clear R.RTC_STAT.OSF).wr R.RTC_STAT.TQ tq).raise R.RTC_INTSTAT.SETDONE
  (s.event 0x1100 (val1 := (Config.free64 s.fresh).toNat) (val2 := (Config.free64 (s.fresh + 1)).toNat)).taken 2

/-- RTC_SET: BUSY while a SYNC is pending, BADDATE, else the commit at the next RTC cycle; with the oscillator stopped that
cycle comes when it runs again. A command while GO reads 1 has no effect (R13). -/
def execRtcSet (s : State) : Host.Outcome State Fault Refusal :=
  .next (
    if s.on R.RTC_CMD.GO then s
    else if s.on R.RTC_STAT.SYNCPEND then s.rtcDone 1 2
    else if !s.staged.valid then s.rtcDone 1 1
    else if s.rtc.stopped then
      State.raise { s with rtc := { s.rtc with setPending := true } } R.RTC_CMD.GO |>.wr R.RTC_CMD.OP 1
    else (s.rtcCommit 1).rtcDone 1 0)

/-- RTC_SYNC: BUSY, BADDATE, LATE, else a commit armed at an instant of MT. -/
def execRtcSync (s : State) : Host.Outcome State Fault Refusal :=
  .next (
    if s.on R.RTC_CMD.GO then s
    else if s.on R.RTC_STAT.SYNCPEND then s.rtcDone 2 2
    else if !s.staged.valid then s.rtcDone 2 1
    else if s.rd64 R.RTC_SYNC_LO.addr R.RTC_SYNC_HI.addr < s.mtNs + ms then s.rtcDone 2 3
    else
      let locked := s.rd R.FAB_PTP_STAT.STATE == ptpLocked
      let s : State := { s with rtc := { s.rtc with syncLocked := locked } }
      (s.raise R.RTC_STAT.SYNCPEND).rtcDone 2 0)

/-- The end of a SYNC: the commit, with the quality that FAB's state at GO gives (R535); staged values that have become no
date since GO answer BADDATE and change nothing (notes/assumptions/171). -/
def State.syncCommit (s : State) : State :=
  let s := s.clear R.RTC_STAT.SYNCPEND
  if s.staged.valid then s.rtcCommit (if s.rtc.syncLocked then 2 else 1)
  else State.rtcDone { s with rtc := { s.rtc with syncDue := false } } 2 1

/-- SYNC_MATCH (R539): MT reaches the instant; with the oscillator stopped the commit follows when it runs again. -/
def execSyncMatch (s : State) : Host.Outcome State Fault Refusal :=
  .next (
    if s.on R.RTC_STAT.SYNCPEND && !s.rtc.syncDue then
      let s := s.advanceMt (s.rd64 R.RTC_SYNC_LO.addr R.RTC_SYNC_HI.addr)
      if s.rtc.stopped then { s with rtc := { s.rtc with syncDue := true } } else s.syncCommit
    else s)

/-! Counting (R533, R534). -/

/-- RTC_TICK: one second of the crystal. A tick comes only from a running oscillator, so after a stop it shows that the
oscillator runs again (notes/assumptions/42); a SET or SYNC that waited for it commits and the tick is discarded (R540). -/
def execRtcTick (s : State) : Host.Outcome State Fault Refusal :=
  .next (
    if s.rtc.setPending then (s.rtcCommit 1).rtcDone 1 0
    else if s.rtc.syncDue then s.syncCommit
    else
      let prior := s.timeNow (if s.rtc.stopped then s.subsec else 32767)
      let s := if s.rtc.stopped then s else s.advance (s.rtc.secAt + sec)
      let at_ := if s.rtc.stopped then s.now else s.rtc.secAt + sec
      let s : State := { s with rtc := { s.rtc with secAt := at_, stopped := false, prior := prior } }
      let s := (s.setCalendar s.calendar.next).wr R.RTC_SUBSEC.SUBSEC 0
      if s.on R.RTC_STAT.ONMAIN then s.raise R.RTC_INTSTAT.TICK else s)

/-- OSC_STOP: no crystal edge for 2 ms; nothing more happens while the oscillator stays stopped. -/
def execOscStop (s : State) : Host.Outcome State Fault Refusal :=
  .next (
    if s.rtc.stopped then s else
    let s := s.wr R.RTC_SUBSEC.SUBSEC s.subsec
    let s : State := { s with rtc := { s.rtc with stopped := true } }
    let s := (s.raise R.RTC_STAT.OSF).wr R.RTC_STAT.TQ 0
    if s.on R.RTC_STAT.ONMAIN then (s.raise R.RTC_INTSTAT.OSCSTOP).event 0x1101 else s)

/-! Supply (R528 to R531). -/

/-- The B registers' addresses (Table 17-3), RTC_STAT apart. -/
def backupRegs : List Nat :=
  [R.RTC_SUBSEC.addr, R.RTC_SEC.addr, R.RTC_MIN.addr, R.RTC_HOUR.addr, R.RTC_DAY.addr, R.RTC_MON.addr, R.RTC_YEAR.addr,
   R.RTC_TCH.addr, R.RTC_TAMPCFG.addr, R.RTC_TLATCH.addr, R.RTC_BKCRC.addr] ++ (List.range 16).map fun i => R.RTC_BKP.addr i

/-- BACKUP_POWER_ON (R529): every B register at its reset value, the latch UNKNOWN with no fired bits;
SYS_RSTCAUSE reads POWERON (R560). Whether the main rail returned just before or after the crossing makes no difference
(R530). A SET or SYNC that waits for the crystal still waits: RTC_CMD is no B register. -/
def execBackupPowerOn (s : State) : Host.Outcome State Fault Refusal :=
  .next (
    let s := s.each (R.SYS_RSTCAUSE.addr :: backupRegs) fun s a => s.setReg a (resetOf a)
    let s := ((s.raise R.RTC_STAT.OSF).raise R.RTC_STAT.BBAD).wr R.RTC_STAT.TQ 0
    let s := (s.wr R.KEY_TAMP.LATCH 2).wr R.KEY_TAMP.FIRED 0
    let a := s.key.active &&& 0x78#7
    let s : State := { s with rtc := { s.rtc with secAt := s.now, stopped := false, lost := true } }
    State.wrb { s with key := { s.key with active := a } } R.KEY_TAMP.ACTIVE (a != 0))

/-- BACKUP_SOURCE_CHANGE (R528). -/
def execBackupSourceChange (main : Bool) (s : State) : Host.Outcome State Fault Refusal :=
  .next (s.wrb R.RTC_STAT.ONMAIN main)

/-- VBAT_MEASURE (R531): only on main power. -/
def execVbatMeasure (mV : Nat) (s : State) : Host.Outcome State Fault Refusal :=
  .next (
    if !s.on R.RTC_STAT.ONMAIN then s
    else
      let s := s.wr R.RTC_VBAT.VBAT (min mV 4095)
      if mV < 2500 then
        let s := (s.raise R.RTC_STAT.VBLOW).raise R.RTC_INTSTAT.VBLOW
        if dueAgain s.rtc.vblowAt s.now (3600 * sec) then
          State.event { s with rtc := { s.rtc with vblowAt := some s.now } } 0x1104 (val1 := mV)
        else s
      else if 2600 ≤ mV then s.clear R.RTC_STAT.VBLOW
      else s)

/-! Reading (R536). -/

/-- The copy that a freezing read takes: that before a refresh of the same IO cycle (R537), so before a tick or commit in it,
and before the count reached in it. -/
def State.timeCopy (s : State) : List Word :=
  let t := s.now - s.now % 10
  if s.rtc.stopped then s.timeNow s.subsec
  else if t ≤ s.rtc.secAt && !s.rtc.prior.isEmpty then s.rtc.prior
  else s.timeNow ((32768 * (t - s.rtc.secAt) - 1) / sec % 32768)

/-- A read of a time register: the first freezes all seven, every one returns its shadow, YEAR releases. -/
def State.freezeRead (s : State) (a : Nat) : State :=
  let s :=
    if s.on R.RTC_STAT.FROZEN then s
    else State.raise { s with rtc := { s.rtc with shadows := s.timeCopy, frozenAt := s.now } } R.RTC_STAT.FROZEN
  let v := s.rtc.shadows.getD (timeRegs.idxOf a) 0
  let s : State := { s with busRead := v.setWidth 64 }
  if a = R.RTC_YEAR.addr then s.clear R.RTC_STAT.FROZEN else s

def execRtcFreezeRead (a : Nat) (s : State) : Host.Outcome State Fault Refusal :=
  onUnit (timeRegs.contains a) (s.freezeRead a)

/-- FREEZE_TIMEOUT: 50 ms without a read of RTC_YEAR. -/
def execFreezeTimeout (s : State) : Host.Outcome State Fault Refusal :=
  .next (
    if s.on R.RTC_STAT.FROZEN then
      let s := s.advance (s.rtc.frozenAt + 50 * ms)
      ((s.clear R.RTC_STAT.FROZEN).raise R.RTC_INTSTAT.FRZ_TO).event 0x1103
    else s)

/-! Backup bytes (R542). -/

/-- The 64 backup bytes. -/
def State.backupBytes (s : State) : List Byte :=
  (List.range 16).flatMap fun i => bytesLE (s.reg (R.RTC_BKP.addr i)).toNat 4

/-- RTC_BKCRC recomputed over the bytes. -/
def State.backupCrc (s : State) : State := s.wr R.RTC_BKCRC.CRC (crc32c s.backupBytes)

/-- At each release of module reset the CRC is recomputed over the stored bytes; a mismatch sets BBAD. -/
def State.backupCheck (s : State) : State :=
  if s.rd R.RTC_BKCRC.CRC = crc32c s.backupBytes then s else s.raise R.RTC_STAT.BBAD

/-- The writes of backup bytes that fell in the present RTC cycle. -/
def State.wroteNow (s : State) : List (Nat × Word) := if s.rtc.wroteCyc = s.rtcCycle then s.rtc.wrote else []

/-- BBINIT: all bytes 0, the CRC, BBAD cleared; a write of the same RTC cycle is applied after it, and the command is without
effect while GO reads 1 (R13). -/
def execBbinit (s : State) : Host.Outcome State Fault Refusal :=
  .next (
    if s.on R.RTC_CMD.GO then s
    else
      let s := s.each (List.range 16) fun s i => s.setReg (R.RTC_BKP.addr i) 0
      let s := s.each s.wroteNow fun s w => s.setReg (R.RTC_BKP.addr w.1) w.2
      (s.backupCrc.clear R.RTC_STAT.BBAD).rtcDone 3 0)

/-- A backup word written, and the CRC with it. -/
def State.backupWrite (s : State) (i : Nat) (v : Word) : State :=
  let s : State := { s with rtc := { s.rtc with wrote := s.wroteNow ++ [(i, v)], wroteCyc := s.rtcCycle } }
  (s.setReg (R.RTC_BKP.addr i) v).backupCrc

def execBackupByteWrite (i : Nat) (v : Word) (s : State) : Host.Outcome State Fault Refusal :=
  onUnit (i < 16) (s.backupWrite i v)

end Sys2Proof.Machine
end

