-- ==== Sys2Proof/Machine/Sched.lean ====
section
/-!
DEFINITION. The cycle scheduler's commands (ch02): lead windows, releases, the end of iterations, STOP and START, the idle
windows, the hold bound and the switch point. A command that may end the last iteration of a hold hands over where a
switchover is armed (`State.atHeld`). SWITCH_GO is in Machine/Upd.lean.
-/

namespace Sys2Proof.Machine

/-- The lead window of a task begins at its instant (R51, R52): a periodic task that is IDLE, before its release instant, with
a lead above 0, and no hold. -/
def State.taskLead (s : State) (t : Nat) : State :=
  let x := s.task t
  if s.withheld || s.freeTask t || !x.armed || s.tstate t != tsIdle || s.leadNs t == 0 then s
  else
    let s' := s.advanceMt (x.nextRel - s.leadNs t)
    if s'.mtNs < x.nextRel then s'.leadStart t x.nextRel else s

/-- The switch instant (R76): the armed switch point's hold begins; a handover's PHASE goes from ARMED to HOLD (R488). -/
def State.switchInstant (s : State) : State :=
  if s.on R.SCH_SWP_CMD.ARM then
    let s := if s.rd R.UPD_PHASE.PHASE = 2 then
        State.wr { s with upd := { s.upd with swmt := s.sch.swInstant } } R.UPD_PHASE.PHASE 3 else s
    (s.clear R.SCH_SWP_CMD.ARM).beginHold 1
  else s

/-- A release instant of a task arrives, at MT now (Table 2-2). -/
def State.releaseInstant (s : State) (t : Nat) : State :=
  let st := s.tstate t
  if s.withheld then s.defer t
  else if st = tsIdle then s.releaseNow t
  else if st = tsImaging ∧ !(s.task t).released then s.makeRelease t
  else s.overrun t

/-- An armed switch point whose instant MT has reached takes effect before a release (R76, R79). -/
def State.switchDue (s : State) (at_ : Nat) : State :=
  if s.on R.SCH_SWP_CMD.ARM && s.sch.swInstant ≤ at_ then s.switchInstant else s

/-- One task of those that share a release instant: its next instant is the grid's next. -/
def State.shareRelease (s : State) (at_ t : Nat) : State :=
  (s.setTask t { s.task t with nextRel := at_ + s.perNs t, sharedAt := some at_ }).releaseInstant t

/-- A number put before the first of a list that it comes before. -/
def insertBy (before : Nat → Nat → Bool) (x : Nat) : List Nat → List Nat
  | [] => [x]
  | y :: ys => if before x y then x :: y :: ys else y :: insertBy before x ys

/-- The armed tasks of periodic cores whose next release instant is at_, in the order of R48. -/
def State.sharers (s : State) (at_ : Nat) : List Nat :=
  let ts := s.cfgTasks.filter fun t => !s.freeTask t && (s.task t).armed && (s.task t).nextRel == at_
  ts.foldr (insertBy fun a b => s.prio a < s.prio b || (s.prio a == s.prio b && a < b)) []

/-- A grid release instant (R49, R54, R76, R79): every task whose instant it is shares the sample and becomes ready in the order
of R48; the TASK_RELEASE of another of them at that instant then finds its release made (notes/assumptions/153). -/
def State.taskRelease (s : State) (t : Nat) : State :=
  let x := s.task t
  if s.freeTask t || !x.armed then s
  else if x.sharedAt = some s.mtNs then s.setTask t { x with sharedAt := none }
  else
    let s := (s.advanceMt x.nextRel).switchDue x.nextRel
    let s := s.each (s.sharers x.nextRel) fun s u => s.shareRelease x.nextRel u
    s.setTask t { s.task t with sharedAt := none }

/-- The release of a free-running task (R59), after a switch point whose instant has come (R76); in a hold, its one deferral
(R78). -/
def State.freeRelease (s : State) (t : Nat) : State :=
  let x := s.task t
  if !s.freeTask t || !x.armed then s
  else
    let s := s.advance x.nextRel
    let s := s.switchDue s.mtNs
    let s := s.setTask t { s.task t with armed := false }
    s.releaseInstant t

/-- The PER_US bound of a free-running iteration (R60). -/
def State.freeBound (s : State) (t : Nat) : State :=
  let x := s.task t
  if !s.freeTask t || !s.inFlight t then s
  else
    let s := s.advance x.nextBound
    (s.setTask t { s.task t with nextBound := x.nextBound + s.perNs t }).overrun t

/-- SCH_DONE by master m (R57, R72): the running error task completes, or the running iteration goes to COMMITTING. -/
def State.schDone (s : State) (m : Nat) : State :=
  if 16 ≤ m then s
  else if s.on (R.SCH_CORE_STAT.ERRRUN m) then
    let again := (s.core m).errRaised
    let s := (s.clear (R.SCH_CORE_STAT.ERRRUN m)).setCore m { s.core m with errRaised := false }
    let s := if again && s.working .sch then (s.raise (R.SCH_CORE_STAT.ERRPEND m)).errorMoment m else s
    s.settle m
  else if s.on (R.SCH_CORE_STAT.BUSY m) then
    let t := s.rd (R.SCH_CORE_STAT.TASK m)
    let s := ((s.freeTheCore t).setTstate t tsCommitting).queueCommit t
    s.settle m
  else s

/-- SCH_ABORT by master m (R58, R72): the error task is aborted and its trap counted, or the running iteration is aborted with
TRAP. -/
def State.schAbort (s : State) (m : Nat) : State :=
  if 16 ≤ m then s
  else if s.on (R.SCH_CORE_STAT.ERRRUN m) then
    let again := (s.core m).errRaised
    let s := (s.clear (R.SCH_CORE_STAT.ERRRUN m)).bump (R.SCH_CORE_ERRCNT.TRAPS m)
    let s := s.setCore m { s.core m with errRaised := false }
    let s := if again && s.working .sch then (s.raise (R.SCH_CORE_STAT.ERRPEND m)).errorMoment m else s
    s.settle m
  else if s.on (R.SCH_CORE_STAT.BUSY m) then s.abortIter (s.rd (R.SCH_CORE_STAT.TASK m)) causeTrap
  else s

/-- STOP of a task (Table 2-2, R572). -/
def State.stopTask (s : State) (t : Nat) : State :=
  let st := s.tstate t
  if st = tsUnused ∨ st = tsStopped then s
  else if s.inFlight t then
    (s.clear (R.SCH_TASK_STAT.LATEPEND t)).setTask t { s.task t with stopWaits := true, armed := (s.task t).armed }
  else
    let s := s.dropLead t
    ((s.setTstate t tsStopped).wr (R.SCH_TASK_STAT.STOPSRC t) 1).setTask t { s.task t with armed := false }

/-- START of a stopped task (Table 2-2, R59, R572). In a hold or a drain it takes part in the resumption. -/
def State.startTask (s : State) (t : Nat) : State :=
  if s.tstate t ≠ tsStopped then s
  else
    let s := (s.setTstate t tsIdle).wr (R.SCH_TASK_STAT.STOPSRC t) 0
    if !s.working .sch then s
    else if s.withheld && s.freeTask t then s
    else s.armTask t

/-- One core's idle count published at the end of a window of `total` nanoseconds (R69). -/
def State.publishIdle (s : State) (total c : Nat) : State :=
  let busy := (s.core c).busyNs
  let s := s.setCore c { s.core c with busyNs := 0 }
  let idle := (total - busy) / 2
  let frac := 10000 * idle / max 1 (total / 2)
  let s := s.wr (R.SCH_CORE_IDLE.IDLE c) (min idle (2 ^ 32 - 1))
  if frac < s.rd (R.SCH_CORE_IDLEMIN.IDLEMIN c) then s.wr (R.SCH_CORE_IDLEMIN.IDLEMIN c) frac else s

/-- WIN_MS in nanoseconds. -/
def State.winNs (s : State) : Nat := ms * max 1 (s.rd R.SCH_IDLE_WIN.WIN_MS)

/-- A boundary of the idle windows (R69): the window that ends there is published; without one, counting begins. -/
def State.idleWindow (s : State) : State :=
  let w := s.winNs
  match s.sch.winStart with
  | some b =>
    let s := s.advanceMt (b + w)
    let total := s.now - s.sch.winElapsed
    let s := s.each (List.range 16) fun s c => s.publishIdle total c
    { s with sch := { s.sch with winStart := some (s.mtNs / w * w), winElapsed := s.now } }
  | none =>
    let s := s.advanceMt ((s.mtNs + w - 1) / w * w)
    let s := s.each (List.range 16) fun s c => s.setCore c { s.core c with busyNs := 0 }
    { s with sch := { s.sch with winStart := some (s.mtNs / w * w), winElapsed := s.now } }

/-- IDLEMIN of every core back to 10,000 (R69). -/
def State.clearIdleMin (s : State) : State := s.each (List.range 16) fun s c => s.wr (R.SCH_CORE_IDLEMIN.IDLEMIN c) 10000

/-- SCH_IDLE_WIN written (R69): a change of WIN_MS discards the window in progress; a reserved WIN_MS is discarded (R10). -/
def State.writeIdleWin (s : State) (v : Word) : State :=
  let n := getField v 0 13
  let s := if 1 ≤ n ∧ n ≤ 8000 ∧ n ≠ s.rd R.SCH_IDLE_WIN.WIN_MS then (s.wr R.SCH_IDLE_WIN.WIN_MS n).dropWindow else s
  if v.getLsbD 31 then s.clearIdleMin else s

/-- The bound that expires next: the hold's or the drain's (R75). -/
def SchState.nextBound (x : SchState) : Option Nat :=
  match x.holdBound, x.drainBound with
  | some a, some b => some (min a b)
  | some a, none => some a
  | none, b => b

/-- A bound that has not come by an instant. -/
def stillAhead (at_ : Nat) (b : Option Nat) : Option Nat := b.filter fun x => at_ < x

/-- A bound expires (R75): every iteration released and not in COMMITTING is aborted with QABORT. -/
def State.holdExpiry (s : State) : State :=
  match s.sch.nextBound with
  | none => s
  | some b =>
    let s := s.advance b
    let s := { s with sch := { s.sch with holdBound := stillAhead b s.sch.holdBound
                                          drainBound := stillAhead b s.sch.drainBound } }
    let ts := (s.sch.tasks.map (·.1)).filter fun t => s.inFlight t && s.tstate t != tsCommitting
    let s := if ts.isEmpty then s else s.raise R.SCH_INTSTAT.QABORT
    let s : State := if !ts.isEmpty && s.rd R.SCH_STAT.HOLDSRC == 2 then { s with pwr := { s.pwr with qabort := true } } else s
    (s.each ts fun s t => s.abortIter t causeQabort).checkHeld

/-- The switch point armed (R76), whatever the scheduler's STATE: a handover runs on either module of a pair (R471). The instant is
latched; one already past takes effect at once. A staged handover's PHASE reads ARMED (R488). An ARM in a hold, on which the
spec is silent, is ignored (notes/assumptions/152). -/
def State.armSwitch (s : State) : State :=
  if s.on R.SCH_SWP_CMD.ARM || s.rd R.SCH_STAT.HOLD != 0 then s
  else
    let at_ := s.rd64 R.SCH_SWP_LO.addr R.SCH_SWP_HI.addr
    let s := { s with sch := { s.sch with swInstant := at_ } }
    let s := s.raise R.SCH_SWP_CMD.ARM
    let s := if s.rd R.UPD_PHASE.PHASE = 1 then s.wr R.UPD_PHASE.PHASE 2 else s
    if at_ ≤ s.mtNs then s.switchInstant else s

/-- TASK_LEAD_START (R51). -/
def execTaskLeadStart (t : Nat) (s : State) : Host.Outcome State Fault Refusal := onUnit (t < 256) (s.taskLead t)

/-- SCH_ABORT (R58). -/
def execSchAbort (m : Nat) (s : State) : Host.Outcome State Fault Refusal := onUnit (m < 17) (s.schAbort m |>.atHeld)

/-- SCH_DONE (R57). -/
def execSchDone (m : Nat) (s : State) : Host.Outcome State Fault Refusal := onUnit (m < 17) (s.schDone m)

/-- TASK_RELEASE (R49). -/
def execTaskRelease (t : Nat) (s : State) : Host.Outcome State Fault Refusal := onUnit (t < 256) (s.taskRelease t |>.atHeld)

/-- FREE_RUN_RELEASE (R59). -/
def execFreeRunRelease (t : Nat) (s : State) : Host.Outcome State Fault Refusal := onUnit (t < 256) (s.freeRelease t)

/-- FREE_RUN_BOUND_EXPIRY (R60). -/
def execFreeRunBoundExpiry (t : Nat) (s : State) : Host.Outcome State Fault Refusal := onUnit (t < 256) (s.freeBound t |>.atHeld)

/-- TASK_STOP (R61). -/
def execTaskStop (t : Nat) (s : State) : Host.Outcome State Fault Refusal := onUnit (t < 256) (s.stopTask t)

/-- TASK_START (R61). -/
def execTaskStart (t : Nat) (s : State) : Host.Outcome State Fault Refusal := onUnit (t < 256) (s.startTask t)

/-- IDLE_WINDOW_END (R69). -/
def execIdleWindowEnd (s : State) : Host.Outcome State Fault Refusal := .next s.idleWindow

/-- IDLE_WIN_WRITE (R69). -/
def execIdleWinWrite (v : Word) (s : State) : Host.Outcome State Fault Refusal := .next (s.writeIdleWin v)

/-- IDLE_CLRMIN (R69). -/
def execIdleClrmin (s : State) : Host.Outcome State Fault Refusal := .next s.clearIdleMin

/-- CANCEL (R76, R488): before its instant a switch point is disarmed, a pending switchover with it, and a handover is STAGED
again; otherwise it is ignored. -/
def State.cancelSwitch (s : State) : State :=
  if s.on R.SCH_SWP_CMD.ARM then
    let s := if s.rd R.UPD_PHASE.PHASE = 2 then s.wr R.UPD_PHASE.PHASE 1 else s
    (s.clear R.SCH_SWP_CMD.ARM).switchoverOff
  else s

/-- SWITCH_CANCEL (R76). -/
def execSwitchCancel (s : State) : Host.Outcome State Fault Refusal := .next s.cancelSwitch

/-- HOLD_BOUND_EXPIRY (R75). -/
def execHoldBoundExpiry (s : State) : Host.Outcome State Fault Refusal := .next s.holdExpiry.atHeld

/-- SWITCH_ARM (R76). -/
def execSwitchArm (s : State) : Host.Outcome State Fault Refusal := .next s.armSwitch.atHeld

/-- SWITCH_INSTANT (R76): acts when a switch point is armed. -/
def execSwitchInstant (s : State) : Host.Outcome State Fault Refusal :=
  .next (if s.on R.SCH_SWP_CMD.ARM then (s.advanceMt s.sch.swInstant).switchInstant.atHeld else s)

end Sys2Proof.Machine
end

