-- ==== Sys2Proof/Machine/VaultOps.lean ====
section
/-!
DEFINITION. The crypto engine's operations on the command ring, the vault's invalidation and the tamper response (ch12).
-/

namespace Sys2Proof.Machine

/-! The measurement (R417, R419). -/

/-- The 32 bytes held in eight registers from an address. -/
def State.bytes32 (s : State) (a : Nat) : List Byte := (List.range 8).flatMap fun i => bytesLE (s.reg (a + 4 * i)).toNat 4

def State.setBytes32 (s : State) (a : Nat) (b : List Byte) : State :=
  s.each (List.range 8) fun s i => s.setReg (a + 4 * i) (BitVec.ofNat 32 (numAt b (4 * i) 4))

/-- M and KEY_SUCC. -/
def State.measM (s : State) : List Byte := s.bytes32 (R.KEY_MEAS.addr 0)
def State.measSucc (s : State) : List Byte := s.bytes32 (R.KEY_SUCC.addr 0)

/-- SYS_LOCK.LOCK is set. -/
def State.isLocked (s : State) : Bool := s.on R.SYS_LOCK.LOCK

/-- M extended by a digest (R417). -/
def State.extendM (s : State) (d : List Byte) : State :=
  (s.setBytes32 (R.KEY_MEAS.addr 0) (sha256 (s.measM ++ d))).bump R.KEY_MSTAT.EXTENDS

/-! The vault seed's record (R408, Table 12-2). -/

def seedKek (kPuf : List Byte) : List Byte := kdf kPuf (ascii "VAULT-SEED-KEK") []

def seedCopy (kPuf : List Byte) (cnt tpol : Nat) (nonce vs : List Byte) : List Byte :=
  let head := bytesLE 0x56534B56 4 ++ bytesLE 1 1 ++ bytesLE tpol 1 ++ zeros 2 ++ bytesLE cnt 4
  head ++ nonce ++ gcmSeal (seedKek kPuf) nonce head vs ++ zeros 56

/-- A copy opened: VS, where its tag verifies and its fields are those of Table 12-2. -/
def seedOpen (kPuf : List Byte) (b : List Byte) : Option (List Byte) :=
  if numAt b 0 4 = 0x56534B56 ∧ numAt b 4 1 = 1 ∧ numAt b 5 1 ≤ 1 then
    gcmOpen (seedKek kPuf) ((b.drop 12).take 12) (b.take 12) ((b.drop 24).take 48)
  else none

def seedRecord (kPuf : List Byte) : TwoCopy where
  at0 := mramBase + 0x7FF000
  at1 := mramBase + 0x7FF080
  len := 128
  cntOfs := 8
  valid b := (seedOpen kPuf b).isSome

/-! Blobs (R418, Table 12-6). -/

def blobHead (content bind usage purpose len : Nat) : List Byte :=
  bytesLE 0x4B424C42 4 ++ bytesLE 1 1 ++ bytesLE content 1 ++ bytesLE bind 1 ++ zeros 1 ++ bytesLE usage 2 ++
    bytesLE purpose 2 ++ bytesLE len 4

def blobKey (k head m : List Byte) : List Byte := kdf k (ascii "VAULT-WRAP") (head ++ m)

def sealBlob (kb head nonce pt : List Byte) : List Byte := head ++ nonce ++ gcmSeal kb nonce head pt

/-- A blob's form is that of Table 12-6: its content kinds, and LEN for each. -/
def blobForm (b : List Byte) : Bool :=
  let c := numAt b 5 1
  let len := numAt b 12 4
  numAt b 0 4 == 0x4B424C42 && numAt b 4 1 == 1 && b.length == 44 + len &&
    (if c = 0 then 1 ≤ len && len ≤ 4096 else if c = 2 ∨ c = 3 then len == 32 else (c == 4 || c == 5) && len == 96)

def openBlob (kb b : List Byte) : Option (List Byte) :=
  gcmOpen kb ((b.drop 16).take 12) (b.take 16) (b.drop 28)

/-! Descriptors (R421, Table 12-7). -/

/-- A command descriptor's fields. -/
structure KeyDesc where
  op : Nat
  bind : Bool
  succ : Bool
  final : Bool
  kslot : Nat
  xslot : Nat
  usage : BitVec 16
  cmask : BitVec 16
  purpose : Nat
  ckind : Nat
  tpol : Nat
  srclen : Nat
  src : Nat
  dst : Nat
  dstlen : Nat
  aux : Nat
  auxlen : Nat

def KeyDesc.ofBytes (b : List Byte) : KeyDesc where
  op := numAt b 0 1
  bind := (numAt b 1 1).testBit 1
  succ := (numAt b 1 1).testBit 2
  final := (numAt b 1 1).testBit 3
  kslot := numAt b 2 1
  xslot := numAt b 3 1
  usage := BitVec.ofNat 16 (numAt b 4 2)
  cmask := BitVec.ofNat 16 (numAt b 6 2)
  purpose := numAt b 8 2
  ckind := numAt b 10 1
  tpol := numAt b 11 1
  srclen := numAt b 12 4
  src := numAt b 16 4
  dst := numAt b 20 4
  dstlen := numAt b 24 4
  aux := numAt b 28 4
  auxlen := numAt b 32 4

/-- N of the command ring, and a descriptor's address. -/
def State.cqSize (s : State) : Nat := 2 ^ s.rd R.KEY_CQCFG.LOG2N
def State.cqAddr (s : State) (seq : Nat) : Nat := 64 * s.rd R.KEY_CQBASE.BASE + 64 * (seq % s.cqSize)

/-- A descriptor ends: STATUS, RSLOT, OUTLEN and MT written, OWN cleared last, KEY_CQHEAD advanced (R421). -/
def State.cqEnd (s : State) (seq status : Nat) (rslot : Option Nat) (outlen : Nat) : State :=
  let a := s.cqAddr seq
  let irq := s.num (a + 1) 1 % 2 == 1
  let s := s.writeNum mEngine (a + 36) 2 status
  let s := match rslot with | some n => s.writeNum mEngine (a + 38) 1 n | none => s
  let s := (s.writeNum mEngine (a + 40) 4 outlen).writeNum mEngine (a + 44) 8 s.mtNs
  let s := s.writeNum mEngine (a + 39) 1 (s.num (a + 39) 1 / 2 * 2)
  let s := (s.wr R.KEY_CQHEAD.HEAD (seq + 1)).keyCount status
  if irq then s.raise R.KEY_INTSTAT.CQDONE else s

/-- The engine may take a descriptor. -/
def State.cqReady (s : State) : Bool :=
  s.running .key && s.key.inside.isNone && !s.key.stopped && s.rd R.KEY_CQHEAD.HEAD != s.rd R.KEY_CQTAIL.TAIL

/-- The front of the ring looked at: OWN = 0 stops execution; an OP that Table 12-8 does not list ends with BADOP, a
descriptor that cannot be read with POISON; `n` bounds the ring. -/
def State.cqSkip (s : State) : Nat → State
  | 0 => s
  | n + 1 =>
    if !s.cqReady then s
    else
      let h := s.rd R.KEY_CQHEAD.HEAD
      let r := s.fetch mEngine (s.cqAddr h) 64
      if r.poison.isSome then State.cqSkip (r.st.cqEnd h ksPoison none 0) n
      else if numAt r.bytes 39 1 % 2 = 0 then { r.st with key := { r.st.key with stopped := true } }
      else if numAt r.bytes 0 1 = 0 ∨ 0x15 < numAt r.bytes 0 1 then State.cqSkip (r.st.cqEnd h ksBadOp none 0) n
      else r.st

def State.cqFront (s : State) : State := s.cqSkip 1025

/-- What an operation's latching gives. -/
structure KeyRes where
  st : State
  status : Nat := 0
  keys : List Nat := []
  out : List Byte := []
  effect : KeyEffect := .none
  rng : Bool := false

/-- A failure: nothing is written. -/
def kErr (s : State) (status : Nat) : KeyRes := { st := s, status := status }

/-- An operation enters the engine (R416): the descriptor at KEY_CQHEAD where it carries this OP. -/
def State.keyOp (s : State) (op : Nat) (f : KeyDesc → State → KeyRes) : State :=
  if !s.cqReady then s
  else
    let h := s.rd R.KEY_CQHEAD.HEAD
    let r := s.fetch mEngine (s.cqAddr h) 64
    let d := KeyDesc.ofBytes r.bytes
    if r.poison.isSome || numAt r.bytes 39 1 % 2 = 0 || d.op ≠ op then r.st.cqFront
    else
      let x := f d r.st
      let ok := x.status = ksOk
      let i : KeyInside := { seq := h, keys := x.keys, status := x.status, dst := d.dst
                             out := if ok then x.out else [], effect := if ok then x.effect else .none, rng := x.rng }
      ({ x.st with key := { x.st.key with inside := some i } } : State).raise R.KEY_STAT.BUSY

/-- An address range that SRC, DST and AUX may name (R421): the general region, a core's alias, usable DRAM. -/
def keyArea (a n : Nat) : Bool :=
  n == 0 || inGeneral a n || (0x80000000 ≤ a && a + n ≤ 0xF0000000) ||
    (0x09000000 ≤ a && a + n ≤ 0x09880000 && aliasMapped a && aliasMapped (a + n - 1) &&
      (a - 0x09000000) / 0x80000 == (a + n - 1 - 0x09000000) / 0x80000)

/-- Source bytes read: BADADDR, POISON or the bytes. -/
def State.keyRead (s : State) (a n : Nat) (k : List Byte → State → KeyRes) : KeyRes :=
  if !keyArea a n then kErr s ksBadAddr
  else if n = 0 then k [] s
  else
    let r := s.fetch mEngine a n
    if r.poison.isSome then kErr r.st ksPoison else k r.bytes r.st

/-- The result must fit at DST. -/
def State.keyFits (s : State) (d : KeyDesc) (n : Nat) (k : State → KeyRes) : KeyRes :=
  if d.dstlen < n then kErr s ksBadLen
  else if !keyArea d.dst d.dstlen then kErr s ksBadAddr
  else k s

/-- Whether a slot lacks the usage bit asked for. -/
def KeySlot.lacks (x : KeySlot) (bit : Option Nat) : Bool :=
  match bit with
  | some b => !x.usage.getLsbD b
  | none => false

/-- The key of an operation: usable, of one of the kinds, with the usage bit (R413, Table 12-8). -/
def State.keyOf (s : State) (n : Nat) (kinds : List Nat) (bit : Option Nat) (k : KeySlot → State → KeyRes) : KeyRes :=
  let (st, s) := s.useSlot n
  if st ≠ ksOk then kErr s st
  else
    let x := s.kslot n
    if !kinds.contains x.kind then kErr s ksKind
    else if x.lacks bit then kErr s ksUsage
    else
      let r := k x s
      { r with keys := n :: r.keys }

/-- Usage bits that a kind may hold (Table 12-4). -/
def usageOf : Nat → BitVec 16
  | 1 => 0x0438
  | 2 => 0x063C
  | 3 => 0x0203
  | 4 => 0x03C0
  | 5 => 0x0280
  | _ => 0

/-- The destination slot of a created key (Tables 12-7, 12-9). -/
def State.keyDest (s : State) (x : Nat) (k : Nat → KeyRes) : KeyRes :=
  if x = 0xFF then
    match (List.range 62).find? fun i => (s.kslot (i + 2)).kind == 0 with
    | some i => k (i + 2)
    | none => kErr s ksNoSlot
  else if x < 2 ∨ 63 < x then kErr s ksBadOp
  else if (s.kslot x).kind ≠ 0 then kErr s ksSlotBusy
  else k x

/-- A key created under a parent, which must itself be usable: what would derive from an empty slot stays empty (R406, R411 to
R413). -/
def State.keyMake (s : State) (d : KeyDesc) (parent kind : Nat) (usage : BitVec 16) (purpose : Nat) (bind : Bool)
    (material out : List Byte) : KeyRes :=
  let (st, s) := s.useSlot parent
  let p := s.kslot parent
  if st ≠ ksOk then kErr s st
  else if 7 ≤ p.depth then kErr s ksDepth
  else
    s.keyDest d.xslot fun n =>
      { st := s, out := out
        effect := .slot n { kind := kind, bind := bind, parent := parent, depth := p.depth + 1
                            usage := usage &&& p.cmask &&& usageOf kind, cmask := d.cmask, pgen := p.gen
                            purpose := purpose, material := material } }

/-- A created key's PURPOSE must not be reserved (Table 12-7). -/
def KeyDesc.badPurpose (d : KeyDesc) : Bool := 6 < d.purpose

/-- d then Q of a private key. -/
def ecPair (d : Nat) : List Byte := bytesBE d 32 ++ ecBytes (ecPub d)

/-- d and Q of a slot's material. -/
def KeySlot.ecD (x : KeySlot) : Nat := natBE (x.material.take 32)
def KeySlot.ecQ (x : KeySlot) : List Byte := if x.kind = kdEcPriv then (x.material.drop 32).take 64 else x.material.take 64

/-- An operation that needs the DRBG (R424). -/
def State.keyRng (s : State) (k : State → KeyRes) : KeyRes :=
  if s.drbgOk then { k s with rng := true } else kErr s ksEntropy

/-! Operations (Table 12-8). -/

/-- Bounds of data. -/
def kMax : Nat := 65536

/-- A state of HASH: H, then the 8-byte count of bytes taken (notes/assumptions/40). -/
def opHash (d : KeyDesc) (s : State) : KeyRes :=
  if kMax < d.srclen ∨ (d.srclen % 64 ≠ 0 ∧ !d.final) ∨ d.auxlen < 40 then kErr s ksBadLen
  else
    s.keyRead d.aux 40 fun a s => s.keyRead d.src d.srclen fun m s =>
      s.keyFits d (if d.final then 32 else 0) fun s =>
        let h := (chunks 4 (a.take 32)).map fun w => BitVec.ofNat 32 (natBE w)
        let n := numAt a 32 8 + d.srclen
        let h' := shaBlocks h (if d.final then m ++ shaPad n else m)
        { st := s, out := if d.final then shaBytes h' else [], effect := .hashState d.aux (shaBytes h' ++ bytesLE n 8) }

def opHmac (d : KeyDesc) (s : State) : KeyRes :=
  s.keyOf d.kslot [kdKdk] (some 2) fun k s =>
    if kMax < d.srclen then kErr s ksBadLen
    else s.keyRead d.src d.srclen fun m s => s.keyFits d 32 fun s => { st := s, out := hmac k.material m }

/-- KDF over label, 0x00 and context as they stand at AUX (R410). -/
def kdfRaw (ki data : List Byte) (l : Nat) : List Byte :=
  ((List.range ((l + 255) / 256)).flatMap fun i => hmac ki (bytesBE (i + 1) 4 ++ data ++ bytesBE l 4)).take (l / 8)

def opKdf (d : KeyDesc) (s : State) : KeyRes :=
  s.keyOf d.kslot [kdRoot, kdKdk] (some 3) fun k s =>
    if d.badPurpose then kErr s ksBadOp
    else if 256 < d.auxlen then kErr s ksBadLen
    else if d.ckind < 2 ∨ 4 < d.ckind then kErr s ksKind
    else
      s.keyRead d.aux d.auxlen fun a s =>
        let data := a ++ (if d.bind then s.measM else [])
        let mat := if d.ckind = kdEcPriv then ecPair (ecPriv (natBE (kdfRaw k.material data 384)))
          else kdfRaw k.material data 256
        s.keyMake d d.kslot d.ckind d.usage d.purpose d.bind mat []

/-- IV and AAD at AUX. -/
def gcmAuxBad (d : KeyDesc) : Bool := d.auxlen < 12 || 12 + 1024 < d.auxlen

def opGcmEnc (d : KeyDesc) (s : State) : KeyRes :=
  s.keyOf d.kslot [kdAes] (some 0) fun k s =>
    if gcmAuxBad d ∨ kMax < d.srclen then kErr s ksBadLen
    else
      s.keyRead d.aux d.auxlen fun a s => s.keyRead d.src d.srclen fun m s => s.keyFits d (d.srclen + 16) fun s =>
        { st := s, out := gcmSeal k.material (a.take 12) (a.drop 12) m }

def opGcmDec (d : KeyDesc) (s : State) : KeyRes :=
  s.keyOf d.kslot [kdAes] (some 1) fun k s =>
    if gcmAuxBad d ∨ d.srclen < 16 ∨ kMax + 16 < d.srclen then kErr s ksBadLen
    else
      s.keyRead d.aux d.auxlen fun a s => s.keyRead d.src d.srclen fun m s => s.keyFits d (d.srclen - 16) fun s =>
        match gcmOpen k.material (a.take 12) (a.drop 12) m with
        | some pt => { st := s, out := pt }
        | none => kErr s ksAuthFail

def opSign (d : KeyDesc) (s : State) : KeyRes :=
  s.keyOf d.kslot [kdEcPriv] (some 6) fun k s =>
    if d.srclen ≠ 32 then kErr s ksBadLen
    else
      s.keyRead d.src 32 fun m s => s.keyFits d 64 fun s => s.keyRng fun s =>
        { st := s.drawn, out := ecdsaSign k.ecD (ecPriv (Config.free256 s.fresh).toNat) m }

/-- The verification itself. -/
def verifyWith (q : List Byte) (d : KeyDesc) (s : State) : KeyRes :=
  if d.srclen ≠ 96 then kErr s ksBadLen
  else
    s.keyRead d.src 96 fun m s =>
      match ecOf q with
      | none => kErr s ksBadPoint
      | some p => if ecdsaOk (some p) (m.take 32) (m.drop 32) then { st := s } else kErr s ksSigBad

def opVerify (d : KeyDesc) (s : State) : KeyRes :=
  if d.kslot = 0xFF then
    if d.auxlen ≠ 64 then kErr s ksBadLen else s.keyRead d.aux 64 fun q s => verifyWith q d s
  else s.keyOf d.kslot [kdEcPriv, kdEcPub] (some 7) fun k s => verifyWith k.ecQ d s

def opEcdh (d : KeyDesc) (s : State) : KeyRes :=
  s.keyOf d.kslot [kdEcPriv] (some 8) fun k s =>
    if d.badPurpose then kErr s ksBadOp
    else if d.auxlen ≠ 64 then kErr s ksBadLen
    else
      s.keyRead d.aux 64 fun q s =>
        match ecOf q with
        | none => kErr s ksBadPoint
        | some p => s.keyMake d 0 kdKdk d.usage d.purpose false (ecdhX k.ecD (some p)) []

def opKeygen (d : KeyDesc) (s : State) : KeyRes :=
  if d.badPurpose then kErr s ksBadOp
  else
    s.keyFits d 64 fun s => s.keyRng fun s =>
      let mat := ecPair (ecPriv (Config.free256 s.fresh).toNat)
      { s.drawn.keyMake d 0 kdEcPriv d.usage d.purpose false mat (mat.drop 32) with rng := true }

def opPubkey (d : KeyDesc) (s : State) : KeyRes :=
  s.keyOf d.kslot [kdEcPriv, kdEcPub] none fun k s => s.keyFits d 64 fun s => { st := s, out := k.ecQ }

def opRandom (d : KeyDesc) (s : State) : KeyRes :=
  if kMax < d.dstlen then kErr s ksBadLen
  else
    s.keyFits d d.dstlen fun s => s.keyRng fun s =>
      { st := s.drawn ((d.dstlen + 31) / 32), out := drbgBytes s.fresh d.dstlen }

def opWrap (d : KeyDesc) (s : State) : KeyRes :=
  s.keyOf d.kslot [kdRoot, kdKdk] (some 4) fun k s =>
    let w := s.keyOf d.xslot [kdKdk, kdAes, kdEcPriv, kdEcPub] (some 9) fun x s =>
      let len := if x.kind = kdKdk ∨ x.kind = kdAes then 32 else 96
      s.keyFits d (44 + len) fun s => s.keyRng fun s =>
        let head := blobHead x.kind d.bind.toNat x.usage.toNat x.purpose len
        let kb := blobKey k.material head (if d.bind then s.measM else [])
        { st := s.drawn, out := sealBlob kb head (drbgBytes s.fresh 12) (x.material ++ zeros (len - x.material.length)) }
    w

/-- The key a blob holds, put under a parent. -/
def State.unwrapTo (s : State) (d : KeyDesc) (parent : Nat) (b pt : List Byte) : KeyRes :=
  let kind := numAt b 5 1
  if 6 < numAt b 10 2 then kErr s ksBadOp
  else
    s.keyMake d parent kind (BitVec.ofNat 16 (numAt b 8 2)) (numAt b 10 2) (numAt b 6 1 % 2 == 1)
      (pt.take (if kind = kdEcPub then 64 else pt.length)) []

def opUnwrap (d : KeyDesc) (s : State) : KeyRes :=
  s.keyOf d.kslot [kdRoot, kdKdk] (some 5) fun k s =>
    if d.srclen < 45 ∨ 44 + 4096 < d.srclen then kErr s ksBadLen
    else
      s.keyRead d.src d.srclen fun b s =>
        let m := if numAt b 6 1 % 2 = 1 then s.measM else []
        if !blobForm b || numAt b 5 1 = 0 then kErr s ksAuthFail
        else
          match openBlob (blobKey k.material (b.take 16) m) b with
          | some pt => s.unwrapTo d d.kslot b pt
          | none => kErr s ksAuthFail

/-- DATA sealed; `to` is M′ of R418. -/
def State.sealData (s : State) (d : KeyDesc) (k : List Byte) (bind : Bool) (to_ pt : List Byte) : KeyRes :=
  s.keyFits d (44 + pt.length) fun s => s.keyRng fun s =>
    let head := blobHead 0 bind.toNat 0 0 pt.length
    { st := s.drawn, out := sealBlob (blobKey k head to_) head (drbgBytes s.fresh 12) pt }

def opSeal (d : KeyDesc) (s : State) : KeyRes :=
  s.keyOf d.kslot [kdRoot, kdKdk] (some 10) fun k s =>
    if d.srclen = 0 ∨ 4096 < d.srclen then kErr s ksBadLen
    else if d.succ ∧ !s.on R.KEY_MSTAT.SUCCV then kErr s ksNoSucc
    else
      s.keyRead d.src d.srclen fun pt s =>
        s.sealData d k.material (d.bind || d.succ) (if d.succ then s.measSucc else if d.bind then s.measM else []) pt

/-- A DATA blob opened under M′. -/
def State.unsealWith (s : State) (k b : List Byte) (bound : Bool) : Option (List Byte) :=
  let bind := numAt b 6 1 % 2 == 1
  if !blobForm b || numAt b 5 1 ≠ 0 || (bound && !bind) then none
  else openBlob (blobKey k (b.take 16) (if bind then s.measM else [])) b

def opUnseal (d : KeyDesc) (s : State) : KeyRes :=
  s.keyOf d.kslot [kdRoot, kdKdk] (some 10) fun k s =>
    if d.srclen < 45 ∨ 44 + 4096 < d.srclen then kErr s ksBadLen
    else
      s.keyRead d.src d.srclen fun b s => s.keyFits d (d.srclen - 44) fun s =>
        match s.unsealWith k.material b false with
        | some pt => { st := s, out := pt }
        | none => kErr s ksAuthFail

def opReseal (d : KeyDesc) (s : State) : KeyRes :=
  s.keyOf d.kslot [kdRoot, kdKdk] (some 10) fun k s =>
    if d.srclen < 45 ∨ 44 + 4096 < d.srclen then kErr s ksBadLen
    else if !s.on R.KEY_MSTAT.SUCCV then kErr s ksNoSucc
    else
      s.keyRead d.src d.srclen fun b s =>
        match s.unsealWith k.material b true with
        | some pt => s.sealData d k.material true s.measSucc pt
        | none => kErr s ksAuthFail

def opImport (d : KeyDesc) (s : State) : KeyRes :=
  s.keyOf 1 [kdEcPriv] (some 8) fun k s =>
    if d.auxlen ≠ 64 ∨ d.srclen < 45 ∨ 44 + 4096 < d.srclen then kErr s ksBadLen
    else
      s.keyRead d.aux 64 fun q s => s.keyRead d.src d.srclen fun b s =>
        match ecOf q with
        | none => kErr s ksBadPoint
        | some p =>
          let kb := kdf (ecdhX k.ecD (some p)) (ascii "VAULT-IMPORT") (b.take 16)
          if !blobForm b || numAt b 5 1 = 0 then kErr s ksAuthFail
          else
            match openBlob kb b with
            | some pt => s.unwrapTo d 1 b pt
            | none => kErr s ksAuthFail

def opExtend (d : KeyDesc) (s : State) : KeyRes :=
  if s.isLocked then kErr s ksLocked
  else if d.srclen ≠ 32 then kErr s ksBadLen
  else s.keyRead d.src 32 fun m s => { st := s, effect := .measure (BitVec.ofNat 256 (natLE m)) }

def opDeclare (d : KeyDesc) (s : State) : KeyRes :=
  if d.srclen ≠ 32 then kErr s ksBadLen
  else s.keyRead d.src 32 fun m s => { st := s, effect := .declare (BitVec.ofNat 256 (natLE m)) }

/-- HELD with HOLDSRC SWITCH (R419). -/
def State.heldForSwitch (s : State) : Bool := s.rd R.SCH_STAT.HOLD == 2 && s.rd R.SCH_STAT.HOLDSRC == 1

def opAdopt (_ : KeyDesc) (s : State) : KeyRes :=
  if !s.heldForSwitch then kErr s ksNotHeld
  else if !s.on R.KEY_MSTAT.SUCCV then kErr s ksNoSucc
  else { st := s, effect := .adopt }

def opSetpol (d : KeyDesc) (s : State) : KeyRes :=
  if s.isLocked then kErr s ksLocked
  else if 1 < d.tpol then kErr s ksBadOp
  else if s.key.kPuf.isNone then kErr s ksEmpty
  else { st := s, effect := .policy d.tpol }

/-! Completion (R416, R421). -/

/-- What an operation does at its completion beyond DST. -/
def State.keyEffect (s : State) : KeyEffect → State
  | .none => s
  | .slot n k => s.setKslot n k
  | .hashState a b => s.write mEngine a b
  | .measure d => s.extendM (bytesLE d.toNat 32)
  | .declare m => (s.setBytes32 (R.KEY_SUCC.addr 0) (bytesLE m.toNat 32)).raise R.KEY_MSTAT.SUCCV
  | .adopt =>
    (((s.setBytes32 (R.KEY_MEAS.addr 0) s.measSucc).clear R.KEY_MSTAT.SUCCV).raise R.KEY_MSTAT.ADOPTED).event 0x0C08
  | .policy t =>
    match s.key.kPuf with
    | some k =>
      let kp := bytesBE k.toNat 32
      let nonce := drbgBytes s.fresh 12
      (((seedRecord kp).rewrite s.drawn fun cnt => seedCopy kp cnt t nonce (bytesBE s.key.seed.toNat 32))).wr
        R.KEY_TAMP.TPOL t
    | none => s

/-- The status and effect of an operation as it completes: an ADOPT whose switch hold has ended meanwhile, cancelled by Brake
or otherwise, is not carried out (R419, R420). -/
def State.keyEnds (s : State) (i : KeyInside) : KeyInside :=
  if i.effect = .adopt ∧ !s.heldForSwitch then { i with status := ksNotHeld, effect := .none } else i

/-- The operation inside the engine completes. -/
def State.keyDone (s : State) : State :=
  match s.key.inside with
  | none => s
  | some x =>
    let i := s.keyEnds x
    let s : State := { s with key := { s.key with inside := none } }
    let s := s.clear R.KEY_STAT.BUSY
    let good := i.status == ksOk || i.status == ksStaleGen
    let s := if good then (s.write mEngine i.dst i.out).keyEffect i.effect else s
    let rslot := match i.effect with | .slot n _ => some n | _ => none
    (s.cqEnd i.seq i.status (if good then rslot else none) (if good then i.out.length else 0)).cqFront

/-! Invalidation (R414 to R416). -/

/-- Slot a lies strictly above slot n in its chain of parents; `d` bounds the chain. -/
def State.isAncestor (s : State) (a n : Nat) : Nat → Bool
  | 0 => false
  | d + 1 =>
    let p := (s.kslot n).parent
    (s.kslot n).kind != 0 && p != 0xFF && (p == a || State.isAncestor s a p d)

/-- A slot's descendants. -/
def State.descendants (s : State) (n : Nat) : List Nat := below 64 fun k => s.isAncestor n k 8

/-- An operation inside the engine whose key lies below slot n ends with STALE_GEN in place of OK (R416). -/
def State.staleInside (s : State) (n : Nat) : State :=
  match s.key.inside with
  | some i =>
    let lower := i.keys.any fun k => s.isAncestor n k 8
    if lower && i.status == ksOk then { s with key := { s.key with inside := some { i with status := ksStaleGen } } } else s
  | none => s

/-- KEY_SCMD ends. -/
def State.scmdDone (s : State) (result : Nat) : State := (s.wr R.KEY_SCMD.RESULT result).raise R.KEY_INTSTAT.SCMDDONE

/-- A slot's GEN raised, its descendants erased first where it would pass 0xFFFF (R414). -/
def State.raiseGen (s : State) (n : Nat) : State :=
  let x := s.kslot n
  let s := s.staleInside n
  let s := if x.gen < 0xFFFF then s else s.each (s.descendants n) fun s k => s.setKslot k {}
  s.setKslot n { x with gen := (x.gen + 1) % 2 ^ 16 }

/-- INVAL (R414). That of slot 0 invalidates every key but slot 1, so the keys imported under slot 1 too: it raises slot 1's GEN
with its own (DEDUCED, notes/assumptions/166). -/
def State.invalSlot (s : State) (n : Nat) : State :=
  if n = 1 then s.scmdDone 2
  else if (s.kslot n).kind = 0 then s.scmdDone 1
  else
    let s := s.raiseGen n
    let s := if n = 0 ∧ (s.kslot 1).kind ≠ 0 then s.raiseGen 1 else s
    (s.event 0x0C05 (unit := n) (val1 := (s.kslot n).gen)).scmdDone 0

/-- ERASE (R415): the slot and its descendants; slots 0 and 1 refuse it (R409). -/
def State.eraseSlot (s : State) (n : Nat) : State :=
  if n < 2 then s.scmdDone 2
  else if (s.kslot n).kind = 0 then s.scmdDone 1
  else
    let s := s.staleInside n
    let s := s.each (n :: s.descendants n) fun s k => s.setKslot k {}
    (s.event 0x0C05 (unit := n) (val1 := 0)).scmdDone 0

/-! Tamper (R425 to R429). -/

/-- The command ring lies in the general region, aligned to its size (R421). -/
def State.cqPlaced (s : State) : Bool :=
  let base := 64 * s.rd R.KEY_CQBASE.BASE
  let size := 64 * s.cqSize
  inGeneral base size && base % size == 0

/-- Ring descriptors not yet executed complete with ZEROIZED (R429); `n` bounds the ring. -/
def State.zeroRing (s : State) : Nat → State
  | 0 => s
  | n + 1 =>
    let h := s.rd R.KEY_CQHEAD.HEAD
    if h = s.rd R.KEY_CQTAIL.TAIL ∨ s.num (s.cqAddr h + 39) 1 % 2 = 0 then s
    else State.zeroRing (s.cqEnd h ksZeroized none 0) n

/-- A source's bit in the latch, which KEY_TAMP mirrors (R425, R543). -/
def State.latchTamper (s : State) (src : Nat) : State :=
  let s := (s.setBit R.RTC_TLATCH.FIRED src true).wr R.RTC_TLATCH.LATCH 1
  (s.wr R.KEY_TAMP.FIRED (s.rd R.RTC_TLATCH.FIRED)).wr R.KEY_TAMP.LATCH 1

/-- Both vault seed copies overwritten with zeros (R426). -/
def State.eraseSeed (s : State) : State :=
  (s.write mEngine (mramBase + 0x7FF000) (zeros 128)).write mEngine (mramBase + 0x7FF080) (zeros 128)

/-- The zeroize line (R426, R429). -/
def State.zeroizeLine (s : State) : State :=
  let s := match s.key.inside with
    | some i =>
      let s : State := { s with key := { s.key with inside := none } }
      (s.clear R.KEY_STAT.BUSY).cqEnd i.seq ksZeroized none 0
    | none => s
  let s := if s.cqPlaced then s.zeroRing 1025 else s
  let s : State := { s with key := { s.key with slots := [], kPuf := none, kInt := 0, seed := 0, uses := [] } }
  let s := ((s.setBytes32 (R.KEY_MEAS.addr 0) (zeros 32)).setBytes32 (R.KEY_SUCC.addr 0) (zeros 32)).clear R.KEY_MSTAT.SUCCV
  let s := (s.wr R.KEY_DRBG.STATE 0).wr R.KEY_DRBG_CNT.CNT 0
  let s := s.each (List.range 4) fun s p =>
    if adjHello ≤ s.rd (fADJ p) then s.pnExhausted p else s.dropSa p
  let s := s.each (s.gate.sessions.map (·.1)) fun s k => s.freeSess k
  let s : State := { s with key := { s.key with sessions := [] } }
  ((s.eraseSeed.raise R.KEY_TAMP.ZEROED).raise R.KEY_INTSTAT.TAMPER)

/-- A source fires with main power present (R426). -/
def State.tamperFire (s : State) (src : Nat) : State :=
  ((s.latchTamper src).zeroizeLine).event 0x0C03 (unit := src)

/-- A loop's confirmed state (R425 to R427, R543): whether it reads as tampered. -/
def State.loopTampers (s : State) (i : Nat) (isOpen : Bool) : Bool :=
  s.on ⟨R.RTC_TAMPCFG.addr, i, 1⟩ && isOpen != s.on ⟨R.RTC_TAMPCFG.addr, 4 + i, 1⟩

def State.setActive (s : State) (i : Nat) (b : Bool) : State :=
  let a := if b then s.key.active ||| BitVec.ofNat 7 (2 ^ i) else s.key.active &&& ~~~BitVec.ofNat 7 (2 ^ i)
  ({ s with key := { s.key with active := a } } : State).wrb R.KEY_TAMP.ACTIVE (a != 0)

def State.tamperLoop (s : State) (i : Nat) (isOpen : Bool) : State :=
  if s.rtc.stopped then s
  else
    let was := s.key.active.getLsbD i
    let bit := BitVec.ofNat 3 (2 ^ i)
    let s : State := { s with rtc := { s.rtc with loops := if isOpen then s.rtc.loops ||| bit else s.rtc.loops &&& ~~~bit } }
    let now := s.loopTampers i isOpen
    let s := s.setActive i now
    if !now || was then s
    else if s.on R.RTC_STAT.ONMAIN then s.tamperFire i
    else s.latchTamper i

/-! Enable and faults (R423, R432). -/

/-- What EN finds wrong. -/
def State.keyFault (s : State) : Option Nat :=
  if s.assist .key && s.ringBad .key then some 1
  else if !s.cqPlaced then some 2
  else none

def State.keyStart (s : State) : State :=
  State.cqFront { s with key := { s.key with stopped := false } }

/-- A crossbar error abandons the operation, its OWN left at 1; a session use that waited for its server is answered NOTRUN
(R423). -/
def State.keyXbar (s : State) : State :=
  let us := s.key.uses
  let s := ({ s with key := { s.key with inside := none, uses := [] } } : State).clear R.KEY_STAT.BUSY
  s.each us fun s u => s.useDenied u.session .notrun u.act

/-- The DRBG enters ERROR (R424). -/
def State.drbgFails (s : State) : State :=
  let s := ((s.wr R.KEY_DRBG.STATE drbgError).raise R.KEY_INTSTAT.ENTROPY).event 0x0C07
  match s.key.inside with
  | some i =>
    if i.rng then { s with key := { s.key with inside := some { i with status := ksEntropy, out := [], effect := .none } } }
    else s
  | none => s

end Sys2Proof.Machine
end

