-- ==== Sys2Proof/Machine/Vault.lean ====
section
/-!
DEFINITION. The commands of the key vault and crypto engine (ch12).
-/

namespace Sys2Proof.Machine

/-- A write of KEY_CQTAIL (R421). -/
def execKeyCqtailWrite (v : Word) (s : State) : Host.Outcome State Fault Refusal :=
  let t := R.KEY_CQTAIL.TAIL.of v
  let ahead := (t + 0x10000 - s.rd R.KEY_CQHEAD.HEAD) % 0x10000
  .next (
    if s.cqSize < ahead then s.raise R.KEY_INTSTAT.CQFULL
    else
      let s := s.wr R.KEY_CQTAIL.TAIL t
      State.cqFront { s with key := { s.key with stopped := false } })

/-! The operations of Table 12-8, each taken from the ring's front (R416, R421). -/

def execKeyHash (s : State) : Host.Outcome State Fault Refusal := .next (s.keyOp 0x01 opHash)
def execKeyHmac (s : State) : Host.Outcome State Fault Refusal := .next (s.keyOp 0x02 opHmac)
def execKeyKdf (s : State) : Host.Outcome State Fault Refusal := .next (s.keyOp 0x03 opKdf)
def execKeyGcmEnc (s : State) : Host.Outcome State Fault Refusal := .next (s.keyOp 0x04 opGcmEnc)
def execKeyGcmDec (s : State) : Host.Outcome State Fault Refusal := .next (s.keyOp 0x05 opGcmDec)
def execKeySign (s : State) : Host.Outcome State Fault Refusal := .next (s.keyOp 0x06 opSign)
def execKeyVerify (s : State) : Host.Outcome State Fault Refusal := .next (s.keyOp 0x07 opVerify)
def execKeyEcdh (s : State) : Host.Outcome State Fault Refusal := .next (s.keyOp 0x08 opEcdh)
def execKeyKeygen (s : State) : Host.Outcome State Fault Refusal := .next (s.keyOp 0x09 opKeygen)
def execKeyPubkey (s : State) : Host.Outcome State Fault Refusal := .next (s.keyOp 0x0A opPubkey)
def execKeyRandom (s : State) : Host.Outcome State Fault Refusal := .next (s.keyOp 0x0B opRandom)
def execKeyWrap (s : State) : Host.Outcome State Fault Refusal := .next (s.keyOp 0x0C opWrap)
def execKeyUnwrap (s : State) : Host.Outcome State Fault Refusal := .next (s.keyOp 0x0D opUnwrap)
def execKeySeal (s : State) : Host.Outcome State Fault Refusal := .next (s.keyOp 0x0E opSeal)
def execKeyUnseal (s : State) : Host.Outcome State Fault Refusal := .next (s.keyOp 0x0F opUnseal)
def execKeyReseal (s : State) : Host.Outcome State Fault Refusal := .next (s.keyOp 0x10 opReseal)
def execKeyImport (s : State) : Host.Outcome State Fault Refusal := .next (s.keyOp 0x11 opImport)
def execKeyExtend (s : State) : Host.Outcome State Fault Refusal := .next (s.keyOp 0x12 opExtend)
def execKeyDeclare (s : State) : Host.Outcome State Fault Refusal := .next (s.keyOp 0x13 opDeclare)
def execKeyAdopt (s : State) : Host.Outcome State Fault Refusal := .next (s.keyOp 0x14 opAdopt)
def execKeySetpol (s : State) : Host.Outcome State Fault Refusal := .next (s.keyOp 0x15 opSetpol)

/-- KEY_OP_COMPLETE (R416, R421): in RUN and DRAIN. -/
def execKeyOpComplete (s : State) : Host.Outcome State Fault Refusal :=
  .next (if s.working .key then s.keyDone else s)

/-! The internal ports (R422, R423). -/

/-- KEY_SESSION_ESTABLISH. -/
def execKeySessionEstablish (r : KeyEstablish) (s : State) : Host.Outcome State Fault Refusal :=
  onUnit (r.session < 512) (
    match s.rootUse with
    | (.ok, s) =>
      let (t, s) := s.tenant r.tenant
      (s.establish r.session r.tenant r.rights (s.tenantKey r.tenant t.gen) (bytesBE r.peer.toNat 64) r.context).2
    | (_, s) => s)

/-- KEY_SESSION_CRYPT: the key-use check, then the operation; in ASSIST mode it waits for the server's answer. -/
def execKeySessionCrypt (session dir seq : Nat) (s : State) : Host.Outcome State Fault Refusal :=
  onUnit (session < 512) (
    match s.askUse session (.bare dir seq) with
    | (true, s) => s.keyCount ksOk
    | (false, s) => s)

/-- KEY_TENANT_HMAC: under K_T, which the engine derives and does not keep. -/
def execKeyTenantHmac (tenant : Nat) (_data : List Byte) (s : State) : Host.Outcome State Fault Refusal :=
  onUnit (tenant < 256) s.tenantUse.2

/-- KEY_FABRIC_DERIVE: K_KX, a SAK or a KEYX tag from the site key; nothing of it stays in the engine. -/
def execKeyFabricDerive (_r : KeyFabric) (s : State) : Host.Outcome State Fault Refusal :=
  .next (
    if !s.running .key then s
    else
      let (st, s) := s.useSlot (s.rd R.FAB_SEC.KSLOT)
      s.keyCount st)

/-! Slots (R414, R415): apart from the engine's datapath, in every STATE. -/

def execKeyInval (slot : Nat) (s : State) : Host.Outcome State Fault Refusal :=
  onUnit (slot < 64) (((s.wr R.KEY_SCMD.SLOT slot).wr R.KEY_SCMD.OP 1).invalSlot slot)

def execKeyErase (slot : Nat) (s : State) : Host.Outcome State Fault Refusal :=
  onUnit (slot < 64) (((s.wr R.KEY_SCMD.SLOT slot).wr R.KEY_SCMD.OP 2).eraseSlot slot)

/-! Tamper (R425 to R428). -/

/-- TAMPER_ACK: ACTIVE while an enabled source reads active, else the latch reads CLEAR. -/
def execTamperAck (s : State) : Host.Outcome State Fault Refusal :=
  .next (
    if s.key.active ≠ 0 then s.wr R.KEY_TAMP_CMD.RESULT 1
    else
      let s := (s.wr R.RTC_TLATCH.LATCH 0).wr R.RTC_TLATCH.FIRED 0
      ((s.wr R.KEY_TAMP.LATCH 0).wr R.KEY_TAMP.FIRED 0).wr R.KEY_TAMP_CMD.RESULT 0)

/-- ZEROIZE: the source SW. -/
def execZeroize (s : State) : Host.Outcome State Fault Refusal := .next (s.tamperFire 6)

/-- TAMPER_LOOP_CONFIRM: TAMP0, TAMP1 and COVER. -/
def execTamperLoopConfirm (loop : Nat) (isOpen : Bool) (s : State) : Host.Outcome State Fault Refusal :=
  onUnit (loop < 3) (s.tamperLoop loop isOpen)

/-- ON_DIE_TAMPER: 0 VGLITCH, 1 TEMP, 2 CLKMON. -/
def execOnDieTamper (src : Nat) (s : State) : Host.Outcome State Fault Refusal := onUnit (src < 3) (s.tamperFire (3 + src))

/-! Random numbers (R424). -/

/-- DRBG_RESEED: a reseed; from ERROR or UNINST the start-up test and a new instantiation. -/
def execDrbgReseed (pass : Bool) (s : State) : Host.Outcome State Fault Refusal :=
  .next (
    let s := s.clear R.KEY_DRBG.RESEED
    if pass then (s.wr R.KEY_DRBG.STATE drbgReady).wr R.KEY_DRBG_CNT.CNT 0 else s.drbgFails)

def execEntropyHealthFailure (s : State) : Host.Outcome State Fault Refusal := .next s.drbgFails

end Sys2Proof.Machine
end

