-- ==== Sys2Proof/Machine/RegOps.lean ====
section
/-!
DEFINITION. Reading and writing a register by its address (R8 to R15, R25, R32): access codes, reserved encodings and lock,
the registers whose contents a block computes, the configuration registers that have a handler of their own, latched
groups, read-to-clear fields, address and data pairs. Commands that a write starts are in Bus.lean.
-/

namespace Sys2Proof.Machine

/-! Writing. -/

/-- A written word meets one field (Table 0-3, R9, R10); a field with a command of its own is left to it. -/
def State.writeField (s : State) (a : Nat) (v : Word) (f : FieldDesc) : State :=
  let fld : Fld := ⟨a, f.lo, f.w⟩
  let x := fld.of v
  if f.own then s
  else
    match f.acc with
    | .rw => s.wrIf (f.allows x) fld x
    | .rwl => s.wrIf (!s.locked && f.allows x) fld x
    | .rwOff => s.wrIf (s.rd (unitAt a).STATE == stOff && f.allows x) fld x
    | .w1c => s.setReg a (s.reg a &&& ~~~(putField 0 f.lo f.w x))
    | .w1s => s.setReg a (s.reg a ||| putField 0 f.lo f.w x)
    | .ro => s
    | .wo => s
    | .rc => s
    | .sc => s

/-- A write that sets GO together with a reserved OP or KIND is discarded as a whole (R570). -/
def RegDesc.badGo (d : RegDesc) (v : Word) : Bool :=
  d.fields.any (fun f => f.acc == .sc && f.own && getField v f.lo f.w != 0)
    && d.fields.any (fun f => !f.own && f.acc == .rw && !f.allows (getField v f.lo f.w))

/-- What follows a write of some registers in their block. A write of SYS_WDT that was discarded, for the lock or for a
reserved value, restarts nothing (R10, R11). -/
def State.afterWrite (s : State) (a : Nat) (v : Word) : State :=
  match elem (R.SCH_TASK_CFG.addr 0) 0x40 256 a with
  | some t => s.syncTasks t
  | none =>
    match elem (R.CAN_RXFIFO.addr 0) 0x4000 4 a with
    | some c =>
      if s.rd (canUnit c).STATE = stOff then
        (s.setCan c { s.canOf c with fifoPut := 0, fifoGet := 0, fifoLevel := 0 }).fifoSync c
      else s
    | none =>
      if a = R.SYS_WDT.addr then
        let w := s.rd R.SYS_WDT.WDT_MS
        if s.locked || R.SYS_WDT.WDT_MS.of v != w then s
        else { s with start := { s.start with wdtAt := if w = 0 then none else some (s.now + ms * w) } }
      else if a = R.RTC_TAMPCFG.addr then
        s.each (List.range 3) fun s i =>
          if s.loopTampers i (s.rtc.loops.getLsbD i) then s else s.setActive i false
      else
        match elem (R.FAB_P_CTRL.addr 0) 0x80 4 a with
        | some p => s.preemptSync p
        | none => s

/-- A plain write of a tabled register by a master: every field by its access code. -/
def State.tableWrite (s : State) (m a : Nat) (v : Word) (d : RegDesc) : State :=
  if d.badGo v then s
  else
    let offOnly := d.fields.any (·.acc == .rwOff)
    let rejected := offOnly && 0x400B0000 ≤ a && a < 0x400C0000 && s.rd (unitAt a).STATE != stOff
    let s' := d.fields.foldl (fun s f => s.writeField (d.place m a) v f) s
    let s' := if rejected then s'.raise (R.CAN_INTSTAT.WRREJ ((a - 0x400B0000) / 0x4000)) else s'
    s'.afterWrite a v

/-- A plain write of a register by a master. -/
def State.plainWrite (s : State) (m a : Nat) (v : Word) : State :=
  match mailboxWord a with
  | some w => { s with fab := { s.fab with mailbox := SMap.set (fun _ => 0#32) s.fab.mailbox w v } }
  | none =>
    match regAt a with
    | none => s
    | some d => s.tableWrite m a v d

/-! Mode and assist ring (R32). -/

/-- BLOCK_CTRL.MODE, or BLOCK_ASN_CFG, written: in OFF it takes effect; in any other state a change is discarded and sets
MODE_REJ. -/
def State.modeWrite (s : State) (b : AsnBlock) (ring : Bool) (v : Word) : State :=
  let u := b.unit
  let off := s.rd u.STATE == stOff
  if ring then
    let log := b.LOG2N.of v
    let kind := b.SRV_KIND.of v
    let s1 := s.wrIf (4 ≤ log && log ≤ 12) b.LOG2N log
    let s1 := (s1.wrIf (kind ≤ 2) b.SRV_KIND kind).wr b.SRV_CORE (b.SRV_CORE.of v)
    let s1 := s1.wr b.SRV_NODE (b.SRV_NODE.of v)
    if off then s1
    else if s1.reg (u.base + 0x44) = s.reg (u.base + 0x44) then s else s.raise u.MODE_REJ
  else if off then (s.wr u.MODE (u.MODE.of v)).wr u.MODE_ACT (u.MODE.of v)
  else if s.rd u.MODE = u.MODE.of v then s
  else s.raise u.MODE_REJ

/-! Registers with a handler of their own. -/

/-- The class table's four bytes at EVT_CADDR written, bits [7:6] of each reserved (R9, R437), and the address advanced
(Table 13-9). -/
def State.classWrite (s : State) (v : Word) : State :=
  let w := s.rd R.EVT_CADDR.WADDR
  let cs := SMap.setMany defaultClass s.evt.classes (4 * w) (bytesLE (v &&& 0x3F3F3F3F#32).toNat 4)
  State.wr { s with evt := { s.evt with classes := cs } } R.EVT_CADDR.WADDR (w + 1)

/-- A shadow routing entry without its reserved bits (Table 5-21), written, in ASSIST mode, and the address advanced (Table 5-17). -/
def State.shadowWrite (s : State) (v : Word) : State :=
  let n := s.rd R.FAB_RTS_ADDR.NODE
  let t := SMap.set (fun _ => 7#32) s.fab.shadow n (entryBits v)
  let s := if s.assist .fab then { s with fab := { s.fab with shadow := t } } else s
  s.wr R.FAB_RTS_ADDR.NODE (n + 1)

/-- The message RAM word at CANn_MADDR written. -/
def State.handlerCan (s : State) (a : Nat) (v : Word) : Option State :=
  (elem (R.CAN_MDATA.addr 0) 0x4000 4 a).map fun c => s.canMdata c v

/-- DIO and AIO configuration. -/
def State.handlerIo (s : State) (a : Nat) (v : Word) : Option State :=
  if a = R.DIO_KA_CFG.addr then some (s.kaCfg v)
  else
    match elem (R.DIO_FLT.addr 0) 4 24 a with
    | some k => some (s.filterWrite (k + 8) v)
    | none =>
      match elem (R.DIO_CNT_CFG.addr 0) 0x20 8 a with
      | some k => some (s.counterConfig k v)
      | none =>
        match elem (R.DIO_DO_CFG.addr 0) 8 24 a with
        | some c => some (s.outConfig (.digital c) false v)
        | none =>
          match elem (R.DIO_RFX_CFG0.addr 0) 8 64 a with
          | some r => some (s.rfxConfig r 0 v)
          | none => (elem (R.DIO_RFX_CFG1.addr 0) 8 64 a).map fun r => s.rfxConfig r 1 v

/-- Analog configuration. -/
def State.handlerAio (s : State) (a : Nat) (v : Word) : Option State :=
  match elem (R.AIO_AI_CFG.addr 0) 0x10 8 a with
  | some c => some (s.aiConfig c v)
  | none =>
    match elem (R.AIO_AO_CFG.addr 0) 0x10 8 a with
    | some c => some (s.outConfig (.analog c) false v)
    | none => (elem (R.AIO_AO_SAFECODE.addr 0) 0x10 8 a).map fun c => s.outConfig (.analog c) true v

/-- The blocks that have assist registers (Table 1-11). -/
def asnBlocks : List AsnBlock := [.hop, .fab, .loop, .mtr, .can 0, .can 1, .can 2, .can 3, .key, .evt]

/-- A write that has a handler of its own in place of the field by field write, and starts no command. -/
def State.handler (s : State) (a : Nat) (v : Word) : Option State :=
  if a = R.SCH_IDLE_WIN.addr then some (s.writeIdleWin v)
  else if a = R.IMG_MDATA.addr then some (s.imgMdata v)
  else if a = R.HOP_TDATA.addr then some (s.tagWrite v)
  else if a = R.LOOP_MDATA.addr then some (s.loopMdata v)
  else if a = R.MTR_MDATA.addr then some (s.mtrMdata v)
  else if a = R.MEM_SMAP_DATA.addr then some (s.smapWrite v)
  else if a = R.EVT_CDATA.addr then some (s.classWrite v)
  else if a = R.FAB_RTS_DATA.addr then some (s.shadowWrite v)
  else
    match asnBlocks.find? fun b => b.unit.base + 0x44 == a with
    | some b => some (s.modeWrite b true v)
    | none =>
      match elem (R.RTC_BKP.addr 0) 4 16 a with
      | some i => some (s.backupWrite i v)
      | none =>
        if 0x400B0000 ≤ a ∧ a < 0x400C0000 then s.handlerCan a v
        else if 0x40090000 ≤ a ∧ a < 0x400A0000 then s.handlerIo a v
        else if 0x400A0000 ≤ a ∧ a < 0x400B0000 then s.handlerAio a v
        else none

/-- A configuration write: everything that a write of the register does but for the commands it may start; a station's EN, with the
image unit in OFF, starts nothing and is set (Table 3-9). -/
def State.cfgWrite (s : State) (m a : Nat) (v : Word) : State :=
  match s.handler a v with
  | some s' => s'
  | none =>
    let s := s.plainWrite m a v
    match elem (R.IMG_STN_CFG.addr 0) 0x40 64 a with
    | some n => s.wr (R.IMG_STN_CFG.EN n) ((R.IMG_STN_CFG.EN n).of v)
    | none => s

/-! Reading. -/

/-- A word of the QUENCH rule table (Table 5-17). -/
def State.ruleWord (s : State) (w : Nat) : Nat :=
  let r := s.rule (w / 8 / 32) (w / 8 % 32)
  if !r.valid then 0
  else
    match w % 8 with
    | 5 => (r.until_ - s.now) / ms
    | 6 => 1 + 2 * r.issuer
    | 7 => r.hits
    | j => numAt r.payload (4 * j) 4

/-- SYS, GATE, KEY and RTC registers whose contents are computed. -/
def State.viewSys (s : State) (a : Nat) : Option Nat :=
  if a = R.SYS_MT_LO.addr then some (s.mtNs % 2 ^ 32)
  else if a = R.SYS_MT_HI.addr then some (s.mtNs / 2 ^ 32)
  else if a = R.GATE_SINFO.addr then
    let x := s.sess (s.rd R.GATE_SADDR.SLOT)
    some (x.state + x.tenant * 2 ^ 8 + x.zone * 2 ^ 16 + x.rights * 2 ^ 24)
  else if a = R.GATE_SNODE.addr then some (s.sess (s.rd R.GATE_SADDR.SLOT)).node
  else if a = R.RTC_STAT.addr then
    let chg := s.on R.RTC_STAT.ONMAIN && s.rd R.RTC_TCH.MODE != 0
    some (putField (s.reg a) 8 1 chg.toNat).toNat
  else none

/-- A slot's attributes (Table 12-16). -/
def State.viewKey (s : State) (a : Nat) : Option Nat :=
  let n := s.rd R.KEY_SADDR.SLOT
  let k := s.kslot n
  if a = R.KEY_SATTR.addr then
    let cause := s.slotCause n
    some (k.kind + k.bind.toNat * 2 ^ 4 + (cause == 0).toNat * 2 ^ 5 + cause * 2 ^ 6 + k.parent * 2 ^ 8
      + k.usage.toNat * 2 ^ 16)
  else if a = R.KEY_SGEN.addr then some (k.gen + k.pgen * 2 ^ 16)
  else if a = R.KEY_SPURP.addr then some (k.purpose + k.cmask.toNat * 2 ^ 16)
  else none

/-- Fabric registers. -/
def State.viewFab (s : State) (a : Nat) : Option Nat :=
  if a = R.FAB_RT_DATA.addr then some (s.routeWord (s.rd R.FAB_RT_ADDR.NODE)).toNat
  else if a = R.FAB_RTS_DATA.addr then some (SMap.get (fun _ => 7#32) s.fab.shadow (s.rd R.FAB_RTS_ADDR.NODE)).toNat
  else if a = R.FAB_Q_DATA.addr then some (s.ruleWord (s.rd R.FAB_Q_ADDR.WADDR))
  else none

/-- The engines' address and data pairs and their selected registers. -/
def State.viewEngine (s : State) (a : Nat) : Option Nat :=
  let n := s.rd R.LOOP_LSEL.LOOP
  if a = R.IMG_MDATA.addr then some (s.imgRead (s.rd R.IMG_MADDR.WADDR)).toNat
  else if a = R.HOP_TDATA.addr then some (s.tagRead (s.rd R.HOP_TADDR.WADDR))
  else if a = R.LOOP_MDATA.addr then
    let w := s.rd R.LOOP_MADDR.WADDR
    some (if w < 0x4100 then (s.loopWord w).toNat else 0)
  else if a = R.LOOP_LSTAT.addr then some (s.lw n 0xA0).toNat
  else if a = R.LOOP_LOUT.addr then some (s.lw n 0x8C).toNat
  else if a = R.LOOP_LPV.addr then some (s.lw n 0x90).toNat
  else if a = R.LOOP_LSP.addr then some (s.lw n 0x94).toNat
  else if a = R.LOOP_STAT.addr then
    some (putField (s.reg a) 8 1 (s.loopHeld && s.running .loop).toNat).toNat
  else if a = R.MTR_MDATA.addr then some (s.mtrWord (s.rd R.MTR_MADDR.WADDR)).toNat
  else if a = R.MTR_RVAL_LO.addr then some (s.mtrRval % 2 ^ 32)
  else if a = R.MTR_RVAL_HI.addr then some (s.mtrRval / 2 ^ 32 % 2 ^ 32)
  else if a = R.EVT_CDATA.addr then
    some (natLE (SMap.getMany defaultClass s.evt.classes (4 * s.rd R.EVT_CADDR.WADDR) 4))
  else if a = R.MEM_STAT.addr then some (putField (s.reg a) 9 1 (s.running .mem && s.on R.MEM_DRS_CFG.DRAMEN).toNat).toNat
  else if a = R.MEM_SMAP_DATA.addr then
    let e := s.spare (s.rd R.MEM_SMAP_ADDR.ENTRY)
    some (e.row + e.valid.toNat * 2 ^ 15 + e.fuse.toNat * 2 ^ 16)
  else
    (elem (R.IMG_STN_AGE.addr 0) 0x40 64 a).map fun n => if (s.stn n).everIn then s.stnAge n else 0

/-- DIO_DO_STAT, whose LOCKED and FORCED follow DIO_DO_LOCK and DIO_DO_FMASK; the CAN controllers' time stamp counter. -/
def State.viewIo (s : State) (a : Nat) : Option Nat :=
  match elem (R.DIO_DO_STAT.addr 0) 8 24 a with
  | some c =>
    let v := putField (s.reg a) 3 1 (c < 8 && s.bit R.DIO_DO_LOCK.LOCK c).toNat
    some (putField v 4 1 (s.bit R.DIO_DO_FMASK.FMASK c).toNat).toNat
  | none => (elem (R.CAN_TSCNT.addr 0) 0x4000 4 a).map fun _ => s.canTs

/-- What a register reads as, WO fields 0. -/
def State.view (s : State) (m a : Nat) : Word :=
  match (s.viewSys a <|> s.viewKey a <|> s.viewFab a <|> s.viewEngine a <|> s.viewIo a) with
  | some v => BitVec.ofNat 32 v
  | none =>
    match mailboxWord a with
    | some w => SMap.get (fun _ => 0#32) s.fab.mailbox w
    | none =>
      match regAt a with
      | some d => s.reg (d.place m a)
      | none => 0

/-- The companions that a read of a latched group's low or first word captures (R15 and the tables of each chapter). -/
def companions (a : Nat) : List Nat :=
  if a = R.SYS_MT_LO.addr then [R.SYS_MT_HI.addr]
  else if a = R.MTR_RVAL_LO.addr then [R.MTR_RVAL_HI.addr]
  else if a = R.PWR_BRK_LO.addr then [R.PWR_BRK_HI.addr]
  else if a = R.UPD_RVER_LO.addr then [R.UPD_RVER_HI.addr]
  else if a = R.UPD_SVER_LO.addr then [R.UPD_SVER_HI.addr]
  else if a = R.LOOP_LSTAT.addr then [R.LOOP_LOUT.addr, R.LOOP_LPV.addr, R.LOOP_LSP.addr]
  else if a = R.SCH_SWP_LO.addr then [R.SCH_SWP_HI.addr]
  else if a = R.SYS_MTINIT_LO.addr then [R.SYS_MTINIT_HI.addr]
  else if a = R.RTC_SYNC_LO.addr then [R.RTC_SYNC_HI.addr]
  else
    match elem (R.CAN_TSC_CNT.addr 0) 0x4000 4 a with
    | some c => [R.CAN_TSC_MT_LO.addr c, R.CAN_TSC_MT_HI.addr c]
    | none =>
      match elem (R.AIO_AI_DATA.addr 0) 0x10 8 a with
      | some c => [R.AIO_AI_ENG.addr c, R.AIO_AI_CNT.addr c]
      | none => []

/-- The companions captured. -/
def State.latch (s : State) (m a : Nat) : State :=
  s.each (companions a) fun s b =>
    { s with latched := SMap.set (fun _ => none) s.latched b (some (s.view m b)) }

/-- A captured companion given up: its register is written (notes/assumptions/10). -/
def State.unlatch (s : State) (a : Nat) : State := { s with latched := SMap.set (fun _ => none) s.latched a none }

/-- A register's word as a read finds it: a captured companion, or its present contents. -/
def State.latchedView (s : State) (m a : Nat) : Word :=
  match SMap.get (fun _ => (none : Option Word)) s.latched a with
  | some v => v
  | none => s.view m a

/-- The RC fields of a register cleared by a read (Table 0-3). -/
def State.clearRc (s : State) (m a : Nat) : State :=
  match regAt a with
  | none => s
  | some d => d.fields.foldl (fun s f => if f.acc == .rc then s.wr ⟨d.place m a, f.lo, f.w⟩ 0 else s) s

/-- The address field of an address and data pair whose data register is at a. -/
def pairAddress (a : Nat) : Option Fld :=
  if a = R.IMG_MDATA.addr then some R.IMG_MADDR.WADDR
  else if a = R.HOP_TDATA.addr then some R.HOP_TADDR.WADDR
  else if a = R.LOOP_MDATA.addr then some R.LOOP_MADDR.WADDR
  else if a = R.MTR_MDATA.addr then some R.MTR_MADDR.WADDR
  else if a = R.MEM_SMAP_DATA.addr then some R.MEM_SMAP_ADDR.ENTRY
  else if a = R.EVT_CDATA.addr then some R.EVT_CADDR.WADDR
  else if a = R.FAB_Q_DATA.addr then some R.FAB_Q_ADDR.WADDR
  else
    match elem (R.CAN_MDATA.addr 0) 0x4000 4 a with
    | some c => some (R.CAN_MADDR.WADDR c)
    | none => (elem (R.CAN_HDATA.addr 0) 0x4000 4 a).map fun c => R.CAN_HADDR.WADDR c

/-- The CAN message RAM reads, which may report a parity error (R345, R359). -/
def State.ramView (s : State) (a : Nat) : Option (Word × State) :=
  match elem (R.CAN_MDATA.addr 0) 0x4000 4 a with
  | some c => some (s.canReadRam c (s.rd (R.CAN_MADDR.WADDR c)))
  | none =>
    match elem (R.CAN_HDATA.addr 0) 0x4000 4 a with
    | some c =>
      let w := s.rd (R.CAN_HADDR.WADDR c)
      some (if w < 640 then s.canReadRam c (holdWord 0 + w) else (0, s))
    | none => none

/-- The words of the tag store that are internal read as a free value, taken here (R154). -/
def State.viewTaken (s : State) (a : Nat) : State := if a = R.HOP_TDATA.addr then s.taken else s

/-- A register read by a master: what the block holds, a latched group captured, RC fields cleared, an address advanced, the
time registers frozen (R536), the recorder's group latched (R445). -/
def State.regRead (s : State) (m a : Nat) : State :=
  if timeRegs.contains a then s.freezeRead a
  else if a = R.EVT_OLDEST_LO.addr then s.oldestRead
  else
    let (v, s) := (s.ramView a).getD (s.latchedView m a, s.viewTaken a)
    let s := (s.latch m a).clearRc m a
    let s := match pairAddress a with
      | some f => s.wr f (s.rd f + 1)
      | none => s
    { s with busRead := v.setWidth 64 }

/-- READ_CLEAR (R8, R12): a read of an RC counter or field. -/
def execReadClear (m a : Nat) (s : State) : Host.Outcome State Fault Refusal := onUnit (m < 17) (s.regRead m a)

/-- LATCHING_READ (R15). -/
def execLatchingRead (m a : Nat) (s : State) : Host.Outcome State Fault Refusal := onUnit (m < 17) (s.regRead m a)

/-- ADDR_DATA_READ (R86). -/
def execAddrDataRead (m a : Nat) (s : State) : Host.Outcome State Fault Refusal := onUnit (m < 17) (s.regRead m a)

/-- BLOCK_MODE_WRITE (R32). -/
def execBlockModeWrite (b : AsnBlock) (ring : Bool) (v : Word) (s : State) : Host.Outcome State Fault Refusal :=
  .next (s.modeWrite b ring v)

end Sys2Proof.Machine
end

