-- ==== Sys2Proof/Machine/UpdOps.lean ====
section
/-!
DEFINITION. The update loader's working (ch15): flash, boot record, bundles and their checks, configuration images, the
migration of retained data, the steps of a handover, the BULK exchange.
-/

namespace Sys2Proof

open Machine

/-- A BULK payload (Table 15-6). -/
def BulkMsg.bytes (x : BulkMsg) : List Byte :=
  bytesLE x.kind 1 ++ bytesLE 1 1 ++ bytesLE x.xid 2 ++ bytesLE x.offset 4 ++ bytesLE x.size 4 ++ bytesLE x.status 1 ++
    zeros 3 ++ x.data

end Sys2Proof

namespace Sys2Proof.Machine

/-! Result codes (Table 15-13), slot states (Table 15-8), phases. -/

def ucOk : Nat := 0
def ucBadfmt : Nat := 1
def ucProduct : Nat := 2
def ucBadpart : Nat := 3
def ucCrc : Nat := 4
def ucUntrusted : Nat := 5
def ucSigbad : Nat := 6
def ucDigest : Nat := 7
def ucRollback : Nat := 8
def ucBadcfg : Nat := 9
def ucNohandover : Nat := 10
def ucBadmap : Nat := 11
def ucState : Nat := 12
def ucBusy : Nat := 13
def ucFlash : Nat := 14
def ucPoison : Nat := 15

def slEmpty : Nat := 0
def slReceiving : Nat := 1
def slReceived : Nat := 2
def slVerified : Nat := 3
def slTrial : Nat := 4
def slGood : Nat := 5
def slBad : Nat := 6

def phIdle : Nat := 0
def phStaged : Nat := 1
def phArmed : Nat := 2
def phHold : Nat := 3
def phReady : Nat := 4
def phCommit : Nat := 5

/-! Flash (R474). -/

/-- Where a slot lies, its size, and where its migrated configuration lies (Table 15-1). -/
def slotBase (k : Nat) : Nat := if k = 0 then norBase + 0x200000 else norBase + 0x1E00000
def slotSize : Nat := 28 * 0x100000
def migBase (k : Nat) : Nat := if k = 0 then norBase + 0x3A00000 else norBase + 0x3B80000

/-- An area's bytes are listed no longer: they read as bytes never written, all ones in flash (an erase), zeros elsewhere. -/
def State.unlist (s : State) (a n : Nat) : State := { s with mem := s.mem.filter fun (k, _) => k < a || a + n ≤ k }

/-- A number in a slot. -/
def State.slotNum (s : State) (k o n : Nat) : Nat := s.num (slotBase k + o) n

/-- The slot holds data. -/
def State.slotData (s : State) (k : Nat) : Bool := s.mem.any fun (a, _) => slotBase k ≤ a && a < slotBase k + slotSize

/-! The boot record (R485). -/

structure BootRec where
  act : Nat := 0
  stA : Nat := 0
  stB : Nat := 0
  recovery : Bool := false
  attempt : Bool := false
  svn : Nat := 0
  swmt : Nat := 0
  anchors : List Byte := zeros 128

/-- K_ROOT, the key of slot 0 (R409). -/
def State.kRoot (s : State) : List Byte := (s.kslot 0).material

/-- The two copies in flash. -/
def State.bootCopies (s : State) : TwoCopy where
  at0 := norBase
  at1 := norBase + 0x10000
  len := 256
  cntOfs := 8
  valid b := numAt b 0 4 == 0x52434255 && numAt b 4 2 == 1 && crc32c (b.take 220) == numAt b 220 4
    && hmac (kdf s.kRoot (ascii "UPD-BOOTREC") []) (b.take 224) == b.drop 224

/-- The boot record, where a copy is valid. -/
def State.bootRec (s : State) : Option BootRec :=
  (s.bootCopies.best s).map fun b =>
    { act := numAt b 12 1, stA := numAt b 13 1, stB := numAt b 14 1, recovery := numAt b 15 1 % 2 == 1
      attempt := numAt b 15 1 / 2 % 2 == 1, svn := numAt b 16 4, swmt := numAt b 24 8, anchors := (b.drop 32).take 128 }

/-- The registers that show the boot record. -/
def State.showBoot (s : State) (r : BootRec) : State :=
  let s := ((s.wr R.UPD_BOOT.ACT r.act).wr R.UPD_BOOT.STATEA r.stA).wr R.UPD_BOOT.STATEB r.stB
  ((s.wrb R.UPD_BOOT.ATTEMPT r.attempt).wrb R.UPD_BOOT.RECOVERY r.recovery).wr R.UPD_SVN.SVN r.svn

/-- The boot record rewritten. -/
def State.putBoot (s : State) (r : BootRec) : State :=
  let key := kdf s.kRoot (ascii "UPD-BOOTREC") []
  let s := s.bootCopies.rewrite s fun cnt =>
    let head := bytesLE 0x52434255 4 ++ bytesLE 1 2 ++ zeros 2 ++ bytesLE cnt 4 ++ bytesLE r.act 1 ++ bytesLE r.stA 1 ++
      bytesLE r.stB 1 ++ bytesLE (r.recovery.toNat + 2 * r.attempt.toNat) 1 ++ bytesLE r.svn 4 ++ zeros 4 ++
      bytesLE r.swmt 8 ++ r.anchors ++ zeros 60
    let b := withCrc head
    b ++ hmac key b
  s.showBoot r

/-- The boot record as it stands, or the empty one. -/
def State.boot (s : State) : BootRec := s.bootRec.getD {}

def BootRec.slot (r : BootRec) (k : Nat) : Nat := if k = 0 then r.stA else r.stB
def BootRec.setSlot (r : BootRec) (k st : Nat) : BootRec := if k = 0 then { r with stA := st } else { r with stB := st }

/-! The bundle (R475 to R478). -/

/-- A part entry (Table 15-3). -/
structure Part where
  typ : Nat
  target : Nat
  offset : Nat
  len : Nat
  digest : List Byte
  deriving DecidableEq

/-- A manifest (Table 15-2). -/
structure Manifest where
  magic : Nat
  fmt : Nat
  nparts : Nat
  blen : Nat
  product : Nat
  svn : Nat
  version : Nat
  fromver : Nat
  cfgid : Nat
  cfgnative : Nat
  cfgmin : Nat
  flags : Nat
  body : Nat
  signer : List Byte
  parts : List Part
  sig : List Byte

def State.part (s : State) (k i : Nat) : Part :=
  let n := fun o w => s.slotNum k (128 + 64 * i + o) w
  { typ := n 0 1, target := n 1 1, offset := n 4 4, len := n 8 4, digest := s.bytes (slotBase k + 128 + 64 * i + 16) 32 }

def State.manifest (s : State) (k : Nat) : Manifest :=
  let n := s.slotNum k
  let p := n 6 2
  { magic := n 0 4, fmt := n 4 2, nparts := p, blen := n 8 4, product := n 12 4, svn := n 16 4, version := n 20 8
    fromver := n 28 8, cfgid := n 36 4, cfgnative := n 40 2, cfgmin := n 42 2, flags := n 44 2, body := n 48 4
    signer := s.bytes (slotBase k + 64) 64, parts := (List.range p).map (s.part k)
    sig := s.bytes (slotBase k + 128 + 64 * p) 64 }

/-- The parts of a type. -/
def Manifest.ofType (m : Manifest) (t : Nat) : List Part := m.parts.filter (·.typ == t)

/-- The limit of a part type (Table 15-4); a reserved type has none that it can keep. -/
def partLimit : Nat → Option Nat
  | 2 => some (192 * 1024)
  | 3 => some (16 * 0x100000)
  | 4 => some (128 * 1024)
  | 5 => some (64 * 1024)
  | 6 => some (1536 * 1024)
  | 7 => some (256 * 1024)
  | 8 => some 128
  | 9 => some (64 * 1024)
  | _ => none

/-- Two ranges of bytes share none. -/
def apart (a n b m : Nat) : Bool := a + n ≤ b || b + m ≤ a || n == 0 || m == 0

/-- The layout of R476 as far as the manifest shows it. -/
def Manifest.layoutOk (m : Manifest) : Bool :=
  let once := fun t => (m.ofType t).length == 1
  let others := m.parts.filter (·.typ != 1)
  let crctab := m.parts.headD { typ := 0, target := 0, offset := 0, len := 0, digest := [] }
  3 ≤ m.nparts && m.nparts ≤ 60 && m.blen ≤ slotSize && m.body % 4096 == 0 && m.body ≤ m.blen
    && once 1 && once 2 && once 6 && crctab.typ == 1 && crctab.offset == 4096
    && crctab.len == 4 * ((m.blen - m.body + 4095) / 4096) && 4096 + crctab.len ≤ m.body
    && (others.all fun p => match partLimit p.typ with
        | some l => m.body ≤ p.offset && p.offset + p.len ≤ m.blen && p.len ≤ l && p.offset % 4096 == 0
        | none => false)
    && (m.parts.zipIdx.all fun (p, i) => m.parts.zipIdx.all fun (q, j) =>
        i == j || (apart p.offset p.len q.offset q.len && (p.typ == 9 || p.typ != q.typ || p.target != q.target)))

/-- Every byte of a range of a slot is 0. -/
def State.slotZero (s : State) (k o n : Nat) : Bool := (s.bytes (slotBase k + o) n).all (· == 0#8)

/-- Bytes of the bundle that belong to no part, up to its end, are 0 (R476). -/
def State.paddingOk (s : State) (k : Nat) (m : Manifest) : Bool :=
  (List.range (m.blen - 4096)).all fun i =>
    let o := 4096 + i
    (m.parts.any fun p => p.offset ≤ o && o < p.offset + p.len) || s.slotNum k o 1 == 0

/-- The signer is trusted (R477): the vendor's, or one of the site anchors. -/
def trusted (signer anchors : List Byte) : Bool :=
  let h := sha256 signer
  h == bytesBE Config.vendorAnchor.toNat 32 || (chunks 32 anchors).any fun a => a == h && a != zeros 32

/-- SIGNER goes to a vault slot of PURPOSE UPDATE_VERIFY: the one that holds such a key, else the lowest empty one
(notes/assumptions/43). -/
def State.placeSigner (s : State) (signer : List Byte) : State :=
  let own := fun n => (s.kslot n).kind == kdEcPub && (s.kslot n).purpose == 6
  let slots := (List.range 62).map (· + 2)
  match (slots.find? own).or (slots.find? fun n => (s.kslot n).kind == 0) with
  | some n => s.setKslot n { s.kslot n with kind := kdEcPub, parent := 0xFF, usage := usageOf kdEcPub, purpose := 6, material := signer
                                            tagOk := true }
  | none => s

/-- Checks 1 to 5 of Table 15-5 on what block 0 holds. -/
def State.checkHead (s : State) (k : Nat) (anchors : List Byte) : Nat :=
  let m := s.manifest k
  let signed := 128 + 64 * m.nparts
  if m.magic ≠ 0x4E4D5055 ∨ m.fmt ≠ 1 then ucBadfmt
  else if m.product ≠ 0x1640 then ucProduct
  else if !m.layoutOk || !s.slotZero k (signed + 64) (4096 - signed - 64) then ucBadpart
  else if !trusted m.signer anchors then ucUntrusted
  else if !ecdsaOk (ecOf m.signer) (sha256 (s.bytes (slotBase k) signed)) m.sig then ucSigbad
  else ucOk

/-- A part's digest holds. -/
def State.digestOk (s : State) (k : Nat) (p : Part) : Bool := sha256 (s.bytes (slotBase k + p.offset) p.len) == p.digest

/-- Check 6: the CRC table's digest. -/
def State.checkTable (s : State) (k : Nat) : Nat :=
  if ((s.manifest k).ofType 1).all (s.digestOk k) then ucOk else ucDigest

/-- A block of the body has the CRC that the table states (R476). -/
def State.blockOk (s : State) (k body blen j : Nat) (data : List Byte) : Bool :=
  crc32c (data.take (min 4096 (blen - body - 4096 * j))) == s.slotNum k (4096 + 4 * j) 4

/-- Check 7 over the whole body. -/
def State.blocksOk (s : State) (k : Nat) (m : Manifest) : Bool :=
  (List.range ((m.blen - m.body + 4095) / 4096)).all fun j =>
    s.blockOk k m.body m.blen j (s.bytes (slotBase k + m.body + 4096 * j) 4096)

/-- The measurement of a bundle (R478): 32 zero bytes extended with the manifest's digest and every part's. -/
def State.bundleMeasure (s : State) (k : Nat) : List Byte :=
  let m := s.manifest k
  let ext := fun (a d : List Byte) => sha256 (a ++ d)
  m.parts.foldl (fun a p => ext a p.digest) (ext (zeros 32) (sha256 (s.bytes (slotBase k) (192 + 64 * m.nparts))))

/-! Configuration images (R479). -/

/-- A configuration image at an address: whether its header and its sections stand (check 10). -/
def State.cfgOk (s : State) (a len : Nat) (m : Manifest) : Bool :=
  let fmt := s.num (a + 4) 2
  let total := s.num (a + 12) 4
  s.num a 4 == 0x47464E43 && s.num (a + 8) 4 == m.cfgid && m.cfgmin ≤ fmt && fmt ≤ m.cfgnative && total ≤ len
    && (List.range (s.num (a + 6) 2)).all fun i =>
      let e := a + 32 + 16 * i
      let o := s.num (e + 4) 4
      let n := s.num (e + 8) 4
      o + n ≤ total && crc32c (s.bytes (a + o) n) == s.num (e + 12) 4

/-- The sections of a type: address and length. -/
def State.cfgSections (s : State) (a typ : Nat) : List (Nat × Nat) :=
  ((List.range (s.num (a + 6) 2)).filter fun i => s.num (a + 32 + 16 * i) 2 == typ).map fun i =>
    (a + s.num (a + 36 + 16 * i) 4, s.num (a + 40 + 16 * i) 4)

/-- The REGS items, in order: address and value. -/
def State.cfgRegs (s : State) (a : Nat) : List (Nat × Word) :=
  (s.cfgSections a 1).flatMap fun (o, n) =>
    (List.range (n / 8)).map fun i => (s.num (o + 8 * i) 4, BitVec.ofNat 32 (s.num (o + 8 * i + 4) 4))

/-- The MEM sections: target, word address, words. -/
def State.cfgMems (s : State) (a : Nat) : List (Nat × Nat × List Byte) :=
  (s.cfgSections a 2).map fun (o, n) => (s.num o 2, s.num (o + 4) 4, s.bytes (o + 12) (min (s.num (o + 8) 4) (n - 12)))

/-- The value that a configuration gives a register. -/
def cfgReg (items : List (Nat × Word)) (a : Nat) : Option Word := (items.reverse.find? (·.1 == a)).map (·.2)

/-- Where a slot's CONFIG part lies, and its length. -/
def State.cfgPart (s : State) (k : Nat) : Nat × Nat :=
  match (s.manifest k).ofType 6 with
  | p :: _ => (slotBase k + p.offset, p.len)
  | [] => (slotBase k, 0)

/-- A register's value under a slot's configuration: its last item, or the register's reset value. -/
def State.cfgValue (s : State) (k a : Nat) : Word := (cfgReg (s.cfgRegs (s.cfgPart k).1) a).getD (resetOf a)

/-- The address register of a memory's pair and its data register (R479): targets 1 to 8. -/
def memPair (target : Nat) : Option (Fld × Nat) :=
  match target with
  | 1 => some (R.IMG_MADDR.WADDR, R.IMG_MDATA.addr)
  | 2 => some (R.HOP_TADDR.WADDR, R.HOP_TDATA.addr)
  | 3 => some (R.LOOP_MADDR.WADDR, R.LOOP_MDATA.addr)
  | 4 => some (R.MTR_MADDR.WADDR, R.MTR_MDATA.addr)
  | 5 => some (R.CAN_MADDR.WADDR 0, R.CAN_MDATA.addr 0)
  | 6 => some (R.CAN_MADDR.WADDR 1, R.CAN_MDATA.addr 1)
  | 7 => some (R.CAN_MADDR.WADDR 2, R.CAN_MDATA.addr 2)
  | 8 => some (R.CAN_MADDR.WADDR 3, R.CAN_MDATA.addr 3)
  | _ => none

/-- The words of a section's data. -/
def cfgWords (bs : List Byte) : List Word := (chunks 4 bs).map fun c => BitVec.ofNat 32 (natLE c)

/-- One MEM section written through its memory's pair; target 9 directly to shared SRAM from the word address. -/
def State.putMem (s : State) (x : Nat × Nat × List Byte) : State :=
  let (target, w, bs) := x
  match memPair target with
  | some (f, d) => s.each (cfgWords bs).zipIdx fun s (v, i) => (s.wr f (w + i)).cfgWrite 16 d v
  | none => if target = 9 then s.write mEngine (0x10000000 + 4 * w) bs else s

/-! Check 10 and 11; VERIFY (R481). -/

/-- The checks of VERIFY and of a start, in order: the first failure decides. -/
def State.checkBundle (s : State) (k : Nat) (anchors : List Byte) (floor : Nat) : Nat :=
  let m := s.manifest k
  let head := s.checkHead k anchors
  if head = ucBadfmt ∨ head = ucProduct then head
  else if head = ucBadpart ∨ !s.paddingOk k m then ucBadpart
  else if head ≠ ucOk then head
  else if s.checkTable k ≠ ucOk then ucDigest
  else if !s.blocksOk k m then ucCrc
  else if !m.parts.all (s.digestOk k) then ucDigest
  else if m.svn < floor then ucRollback
  else
    let (a, n) := s.cfgPart k
    if s.cfgOk a n m then ucOk else ucBadcfg

/-- An entry of a migration map (Table 15-9). -/
structure MapEntry where
  op : Nat
  newTask : Nat
  oldTask : Nat
  len : Nat
  oldOfs : Nat
  newOfs : Nat
  pattern : Nat

/-- A slot's migration map: where it lies, none without a MIGMAP part. -/
def State.mapPart (s : State) (k : Nat) : Option Nat := ((s.manifest k).ofType 7).head?.map fun p => slotBase k + p.offset

def State.mapEntries (s : State) (a : Nat) : List MapEntry :=
  (List.range (s.num (a + 12) 4)).map fun i =>
    let n := fun o w => s.num (a + 16 + 16 * i + o) w
    { op := n 0 1, newTask := n 2 2, oldTask := n 4 2, len := n 6 2, oldOfs := n 8 2, newOfs := n 10 2, pattern := n 12 4 }

/-- Bytes that an entry writes. -/
def MapEntry.out (e : MapEntry) : Nat := if e.op = 4 ∨ e.op = 5 then 8 else e.len

/-- A task of a slot's configuration, and its retained range there: core, address, length. -/
def State.newTask (s : State) (k t : Nat) : Bool := getField (s.cfgValue k (R.SCH_TASK_CFG.addr t)) 0 1 == 1
def State.newRet (s : State) (k t : Nat) : Nat × Nat × Nat :=
  let c := getField (s.cfgValue k (R.SCH_TASK_CFG.addr t)) 1 4
  let r := s.cfgValue k (R.IMG_TASK_RET.addr t)
  (c, 16 * getField r 4 12, getField r 16 15)

/-- The map is valid (R489) against a slot's configuration and the running one. -/
def State.mapOk (s : State) (k a : Nat) (m : Manifest) : Bool :=
  s.num a 4 == 0x50414D47 && s.num (a + 4) 8 == m.fromver
    && (s.mapEntries a).all fun e =>
      1 ≤ e.op && e.op ≤ 5 && (e.op < 4 || (1 ≤ e.len && e.len ≤ 8))
        && e.newTask < 256 && s.newTask k e.newTask && e.newOfs + e.out ≤ (s.newRet k e.newTask).2.2
        && (e.op == 2 || e.op == 3 ||
            (e.oldTask < 256 && s.configured e.oldTask && e.oldOfs + e.len ≤ s.retlen e.oldTask))

/-- Check 11 (STAGE). -/
def State.checkStage (s : State) (k : Nat) : Nat :=
  let m := s.manifest k
  let running := s.rd64 R.UPD_RVER_LO.addr R.UPD_RVER_HI.addr
  if m.flags % 2 = 0 ∨ m.fromver ≠ running ∨ s.num ((s.cfgPart k).1 + 4) 2 ≠ m.cfgnative then ucNohandover
  else
    match s.mapPart k with
    | some a => if s.mapOk k a m then ucOk else ucBadmap
    | none => ucOk

/-! Slots (R486). -/

/-- The running slot (R486). -/
def State.runSlot (s : State) : Nat := s.start.slot

/-- The versions of the running and of the other slot; an unverified slot shows none (notes/assumptions/44). -/
def State.showVersions (s : State) : State :=
  let ver := fun k => if 3 ≤ s.rd (R.UPD_SLOT_STAT.STATE k) ∧ s.rd (R.UPD_SLOT_STAT.STATE k) ≤ 5 then (s.manifest k).version else 0
  (s.wr64 R.UPD_RVER_LO.addr R.UPD_RVER_HI.addr (ver s.runSlot)).wr64 R.UPD_SVER_LO.addr R.UPD_SVER_HI.addr (ver (1 - s.runSlot))

/-- A slot's state: persistent ones in the boot record too, where RECEIVING and RECEIVED stand as EMPTY. -/
def State.setSlot (s : State) (k st : Nat) : State :=
  let s := s.wr (R.UPD_SLOT_STAT.STATE k) st
  let kept := if st = slReceiving ∨ st = slReceived then slEmpty else st
  let s := if s.boot.slot k = kept ∧ s.bootRec.isSome then s else s.putBoot (s.boot.setSlot k kept)
  s.showVersions

/-- A check's result on a slot: VERIFIED or BAD, the measurement, the event. -/
def State.verified (s : State) (k r : Nat) : State :=
  let s := s.wr (R.UPD_SLOT_STAT.RESULT k) r
  if r = ucOk then
    ((s.setSlot k slVerified).setBytes32 (R.UPD_SMEAS.addr 0) (s.bundleMeasure k)).event 0x0F00 (unit := k)
  else (s.setSlot k slBad).event 0x0F01 (unit := k) (val1 := r)

/-- VERIFY of a slot: the signer placed in the vault, the checks, their result. -/
def State.verifySlot (s : State) (k : Nat) : Nat × State :=
  let s := s.bump R.UPD_CNT_VERIFY.COUNT
  let b := s.boot
  let m := s.manifest k
  let s := if trusted m.signer b.anchors then s.placeSigner m.signer else s
  let r := s.checkBundle k b.anchors b.svn
  (r, s.verified k r)

/-! Transfers (R482 to R484). -/

/-- An answer of the loader. -/
def State.bulkAnswer (s : State) (dst : Nat) (x : BulkMsg) : State :=
  let s : State := { s with upd := { s.upd with lastBulk := some x } }
  (s.leatSend tyBulk 3 dst x.bytes).2

/-- The transfer ends. -/
def State.endXfer (s : State) : State :=
  let s : State := { s with upd := { s.upd with xfer := none } }
  (s.clear R.UPD_STAT.XFER).raise R.UPD_INTSTAT.RXDONE

/-- The transfer is abandoned: its slot EMPTY, or BAD on a failed check with UPD_BAD; ABORT with a code where there is one. -/
def State.dropXfer (s : State) (x : UpdXfer) (st : Nat) (code : Option Nat) : State :=
  let s := match code with
    | some c => (s.bulkAnswer x.src { kind := 7, xid := x.xid, status := c }).wr (R.UPD_SLOT_STAT.RESULT x.slot) c
    | none => s
  let s : State := { s with upd := { s.upd with verifying := none, erase := none } }
  let s := if st = slBad then s.event 0x0F01 (unit := x.slot) (val1 := code.getD ucOk) else s
  ((s.setSlot x.slot st).clear R.UPD_STAT.ERASESUSP).endXfer

/-- The loader enters FAULT. -/
def State.updFail (s : State) (cause : Nat) : State := (s.toFault .upd cause).raise R.UPD_INTSTAT.FAULT

/-- A 4,096-byte block, or the bundle's last one, is ready to be programmed. -/
def UpdXfer.block (x : UpdXfer) : Option (List Byte) :=
  if !x.opened then none
  else if 4096 ≤ x.buf.length then some (x.buf.take 4096)
  else if !x.buf.isEmpty && x.programmed + x.buf.length == x.blen then some x.buf
  else none

/-- The code that a block's checks give (R483): the block CRC before programming. -/
def State.blockCheck (s : State) (x : UpdXfer) (data : List Byte) : Nat :=
  let m := s.manifest x.slot
  if 4096 ≤ x.programmed ∧ m.body ≤ x.programmed then
    if s.blockOk x.slot m.body x.blen ((x.programmed - m.body) / 4096) data then ucOk else ucCrc
  else ucOk

/-- The early checks once a block is in flash: 1 to 5 with block 0, 6 when the CRC table is complete. -/
def State.earlyCheck (s : State) (slot before after : Nat) : Nat :=
  if before = 0 then s.checkHead slot s.boot.anchors
  else
    let n := match (s.manifest slot).ofType 1 with | p :: _ => 4096 + p.len | [] => 0
    if before < n ∧ n ≤ after then s.checkTable slot else ucOk

/-- VERIFY starts on a received slot. -/
def State.startVerify (s : State) (k : Nat) : State :=
  { s.setSlot k slReceived with upd := { s.upd with verifying := some k } }

/-- A block programmed: ACK, the early checks, and VERIFY once an END has come and nothing is left. -/
def State.blockDone (s : State) (x : UpdXfer) (data : List Byte) : State :=
  let s := s.putBytes (slotBase x.slot + x.programmed) data
  let y := { x with programmed := x.programmed + data.length, buf := x.buf.drop data.length }
  let s : State := { s with upd := { s.upd with xfer := some y } }
  let s := (s.wr R.UPD_XOFS.OFS y.programmed).bulkAnswer x.src { kind := 4, xid := x.xid, offset := y.expected }
  let c := s.earlyCheck x.slot x.programmed y.programmed
  if c ≠ ucOk then s.dropXfer y slBad (some c)
  else if y.ended ∧ y.programmed = y.blen then s.startVerify y.slot
  else s

/-! Commands (R496). -/

/-- A command is in progress (R13). -/
def State.updBusy (s : State) : Bool := s.on R.UPD_CMD.GO

/-- A command completes. -/
def State.updDone (s : State) (res : Nat) : State :=
  let s : State := { s with upd := { s.upd with job := none } }
  ((s.wr R.UPD_CMD.RESULT res).clear R.UPD_CMD.GO).raise R.UPD_INTSTAT.CMDDONE

/-- A command issued: ignored while one runs (R13); STATE while the loader is not in RUN (notes/assumptions/45) or where its
own condition fails. -/
def State.updCmd (s : State) (op slot : Nat) (ok : Bool) (run : State → State) : State :=
  if s.updBusy then s
  else
    let s := (s.wr R.UPD_CMD.OP op).wr R.UPD_CMD.SLOT slot
    if s.running .upd && ok then run (s.raise R.UPD_CMD.GO) else s.updDone ucState

/-! Handover (R487 to R495). -/

/-- A bit of BAYEXEC, and the alias address of a core's inactive code bay (Table 1-4, R487). -/
def State.bayExec (s : State) (c : Nat) : Bool := s.bit R.UPD_BAYEXEC.BAY c
def State.inactiveBay (s : State) (c : Nat) : Nat :=
  0x09000000 + c * 0x80000 + (if s.bayExec c then 0 else if c = 16 then 0x30000 else 0x20000)

/-- A code part copied into its core's inactive bay, whose bit of BAYNEXT is set to it. -/
def State.stagePart (s : State) (k : Nat) (p : Part) : State :=
  let c := if p.typ = 2 then 16 else p.target % 16
  let s := s.write mEngine (s.inactiveBay c) (s.bytes (slotBase k + p.offset) p.len)
  s.setBit R.UPD_BAYNEXT.BAY c (!s.bayExec c)

/-- The image lists of a slot's configuration, at a bank's addresses. -/
def State.stageLists (s : State) (k bank : Nat) : State :=
  let mems := (s.cfgMems (s.cfgPart k).1).filter fun x => x.1 == 1
  s.each mems fun s (_, w, bs) =>
    s.each (cfgWords bs).zipIdx fun s (v, i) =>
      if w + i < 0x18000 then (s.wr R.IMG_MADDR.WADDR (0xC000 * bank + (w + i) % 0xC000)).imgMdata v else s

/-- STAGE's end: check 11, the parts' digests, the copies; the runtime's share: the lists of the other bank, the pin scan for
it, the successor declared (R419, R487). Sealed blobs lie where the runtime keeps them; their resealing is its own commands
(notes/assumptions/46). -/
def State.stageDone (s : State) (k : Nat) : State :=
  let c := s.checkStage k
  let parts := (s.manifest k).parts.filter fun p => p.typ == 2 || p.typ == 4
  if c ≠ ucOk then s.updDone c
  else if !parts.all (s.digestOk k) then
    ((s.wr (R.UPD_SLOT_STAT.RESULT k) ucDigest).setSlot k slBad).event 0x0F01 (unit := k) (val1 := ucDigest) |>.updDone ucDigest
  else
    let s := s.each parts fun s p => s.stagePart k p
    let bank := 1 - s.rd R.IMG_LBANK.ACT
    let s := ((s.stageLists k bank).wr R.IMG_LBANK.NEXT bank).pinScan bank
    let s := s.keyEffect (.declare (BitVec.ofNat 256 (natLE (s.bytes32 (R.UPD_SMEAS.addr 0)))))
    let s : State := { s with upd := { s.upd with staged := k } }
    ((s.wr R.UPD_PHASE.PHASE phStaged).event 0x0F02 (unit := k)).updDone ucOk

/-- The tasks that a slot's configuration gives a retained range. -/
def State.newRetTasks (s : State) (k : Nat) : List Nat :=
  below 256 fun t => s.newTask k t && 0 < (s.newRet k t).2.2

/-- A retained range before its map entries: the new CC_DATA image, or 0. -/
def State.newRetInit (s : State) (k t : Nat) : List Byte :=
  let (c, o, n) := s.newRet k t
  match (s.manifest k).parts.find? fun p => p.typ == 5 && p.target == c with
  | some p => (List.range n).map fun i =>
      if o + i < p.len then s.byte (slotBase k + p.offset + o + i) else 0#8
  | none => zeros n

/-- Bytes replaced within a list. -/
def splice (bs : List Byte) (o : Nat) (new : List Byte) : List Byte := bs.take o ++ new ++ bs.drop (o + new.length)

/-- What an entry writes, from the bytes it reads. -/
def MapEntry.value (e : MapEntry) (old : List Byte) : List Byte :=
  match e.op with
  | 1 => old
  | 3 => (List.range e.len).map fun i => byteOf e.pattern (i % 4)
  | 4 =>
    let neg := match old.getLast? with | some b => b.msb | none => false
    old ++ List.replicate (8 - e.len) (if neg then 0xFF#8 else 0#8)
  | 5 => old ++ zeros (8 - e.len)
  | _ => zeros e.len

/-- A new retained range, its map entries applied in order, reading the old ranges with `old`. -/
def migrated (es : List MapEntry) (old : Nat → Nat → Nat → List Byte) (t : Nat) (init : List Byte) : List Byte :=
  (es.filter (·.newTask == t)).foldl (fun bs e => splice bs e.newOfs (e.value (old e.oldTask e.oldOfs e.len))) init

/-- The migration step (R488): the new ranges, one after the other in task order, from UPD_MSTAGE (notes/assumptions/47). -/
def State.migrate (s : State) (k : Nat) : State :=
  let es := match s.mapPart k with | some a => s.mapEntries a | none => []
  let old := fun t o n => s.bytes (s.retAddr t + o) n
  let bs := (s.newRetTasks k).flatMap fun t => migrated es old t (s.newRetInit k t)
  s.write mEngine (4096 * s.rd R.UPD_MSTAGE.BASE) bs

/-- Step 2 of the commit phase: the staged ranges copied into the data memories. -/
def State.placeMigrated (s : State) (k : Nat) : State :=
  (((s.newRetTasks k).foldl (fun (acc : Nat × State) t =>
    let (c, o, n) := s.newRet k t
    (acc.1 + n, acc.2.write mEngine (dataAddr c o) (acc.2.bytes acc.1 n))) (4096 * s.rd R.UPD_MSTAGE.BASE, s))).2

/-- Step 4: an inbound range whose node, FIRST, COUNT and SLOT are not what they were starts SUBSCRIBING. -/
def State.rangesChanged (s : State) (old : State) : State :=
  let es := (s.inEntries ++ old.inEntries).eraseDups
  s.each es fun s e =>
    let r := s.range e
    let q := old.range e
    if r.node = q.node ∧ r.first = q.first ∧ r.count = q.count ∧ r.slot = q.slot then s
    else if s.inEntries.contains e ∧ s.running .hop then
      (s.setRange e { r with state := rngSub, refused := 0, pincKnown := false }).sendSub e true
    else s.setRange e { r with state := 0, refused := 0, pincKnown := false }

/-- Step 5, a loop record: set OFF where its sources, destination, PER or OFS change, rewritten, returned to its mode. -/
def State.loopRecord (s : State) (n : Nat) (words : List (Nat × Word)) : State :=
  let src := words.filter fun (o, _) => 0 < o && o < 0x20
  let coef := words.filter fun (o, _) => 0x20 ≤ o && o < 0x80
  let ctrl := ((words.find? (·.1 == 0)).map (·.2)).getD 0
  if getField ctrl 0 3 = 0 then s.loopCtrl n 0
  else
    let moved := src.any fun (o, v) => s.lw n o != v
    let s := if moved then src.foldl (fun s (o, v) => s.loopWrite n o v) (s.loopCtrl n 0) else s
    (coef.foldl (fun s (o, v) => s.loopWrite n o v) s).loopCtrl n ctrl

/-- Step 5: every loop, as the new configuration has it. -/
def State.loopsChanged (s : State) (mems : List (Nat × Nat × List Byte)) : State :=
  let ws := (mems.filter (·.1 == 3)).flatMap fun (_, w, bs) => (cfgWords bs).zipIdx.map fun (v, i) => (w + i, v)
  s.each (List.range 256) fun s n =>
    s.loopRecord n ((ws.filter fun (w, _) => w < 0x4000 && w / 64 == n).map fun (w, v) => (4 * (w % 64), v))

/-- Step 4: the tag store's tables, the group table, the publication table; own records that are new, as the loader leaves them
(R125). MULTIW follows the lists when they become active. -/
def State.tablesChanged (s : State) (ownBefore : Nat) (mems : List (Nat × Nat × List Byte)) : State :=
  let old := s
  let s := s.each (mems.filter (·.1 == 2)) State.putMem
  let s := s.rangesChanged old
  let s := s.each (mems.filter (·.1 == 9)) fun s (_, w, bs) =>
    s.each (chunks 32 bs).zipIdx fun s (b, i) =>
      let a := 0x10000000 + 4 * w + 32 * i
      if 0x10600000 ≤ a ∧ ownBefore ≤ (a - 0x10600000) / 32 ∧ (a - 0x10600000) / 32 < s.rd R.HOP_OWN_CNT.COUNT then
        s.write mEngine a b
      else s
  let s := s.each ((List.range s.ownCount).drop ownBefore) fun s i => s.initRecord i false
  s.each mems fun s (t, w, bs) =>
    s.each (cfgWords bs).zipIdx fun s (v, i) =>
      let x := w + i
      if t = 3 ∧ 0x4000 ≤ x ∧ x < 0x4100 then (s.wr R.LOOP_MADDR.WADDR x).loopMdata v
      else if t = 4 ∧ 0x800 ≤ x ∧ x < 0xC00 then (s.wr R.MTR_MADDR.WADDR x).mtrMdata v
      else s

/-- The commit phase, steps 1 to 6 (Table 15-10). Step 7, GO, is the SVC's own write. -/
def State.commitPhase (s : State) (k : Nat) : State :=
  let s := s.wr R.UPD_PHASE.PHASE phCommit
  let s := s.wr (R.UPD_SLOT_STAT.STATE k) slTrial
  let s := s.putBoot { s.boot.setSlot k slTrial with act := k, attempt := true, swmt := s.upd.swmt }
  let s := s.placeMigrated k
  let own := s.rd R.HOP_OWN_CNT.COUNT
  let a := (s.cfgPart k).1
  let mems := s.cfgMems a
  let s := s.each ((s.cfgRegs a).filter fun (x, v) => s.view 16 x != v) fun s (x, v) => s.cfgWrite 16 x v
  let s := (s.tablesChanged own mems).loopsChanged mems
  if s.on R.KEY_MSTAT.SUCCV then s.keyEffect .adopt else s

/-- The abort of R491: bays and bank given up, GO written by the loader itself, PHASE IDLE with it. -/
def State.updAbort (s : State) : State :=
  let s : State := { s.unstageBays with upd := { s.upd with holdEnds := none } }
  let s := if s.rd R.SCH_STAT.HOLDSRC = 1 then s.endHold else s
  let s := ((s.wr R.UPD_PHASE.PHASE phIdle).raise R.UPD_INTSTAT.ABORTED).bump R.UPD_CNT_ABORT.COUNT
  s.event 0x0F04 (unit := s.upd.staged)

/-- GO in a switch hold (R76, R490): the bays and the image bank change, a committed handover is complete, the old bank's pins
are given up (the runtime's UNPIN), the hold ends. How
UPD_HANDOVER's words carry the hold duration is free (notes/assumptions/48). A GO written before HELD, while the hold still reads
QUIESCING, acts like one written after it: the spec speaks of neither (notes/assumptions/152). -/
def State.switchGo (s : State) : State :=
  if s.rd R.SCH_STAT.HOLD = 0 ∨ s.rd R.SCH_STAT.HOLDSRC ≠ 1 then s.raise R.SCH_INTSTAT.GOREJ
  else
    let done := s.rd R.UPD_PHASE.PHASE == phCommit
    let bank := s.rd R.IMG_LBANK.ACT
    let s := (s.wr R.UPD_BAYEXEC.BAY (s.rd R.UPD_BAYNEXT.BAY)).wr R.IMG_LBANK.ACT (s.rd R.IMG_LBANK.NEXT)
    let s := if done then s.syncMulti.unpin bank else s
    let s : State := { s with upd := { s.upd with holdEnds := none } }
    let s := s.wr R.UPD_PHASE.PHASE phIdle
    let s :=
      if done then
        let k := s.upd.staged
        let s : State := { s.forcesOnline with start := { s.start with slot := k } }
        let s := s.wr R.PAIR_CFGID.CFGID (s.manifest k).cfgid
        let s := ((s.showVersions.raise R.UPD_INTSTAT.SWITCHED).bump R.UPD_CNT_HANDOVER.COUNT)
        let s := (s.event 0x0F03 (unit := k) (val1 := (s.manifest k).version) (val2 := Config.freeNat s.fresh)).taken
        s.updDone ucOk
      else s
    s.endHold

/-! Enable, drain, faults (R501). -/

/-- What EN finds wrong: MSTAGE outside the general region. -/
def State.updFault (s : State) : Option Nat := if inGeneral (4096 * s.rd R.UPD_MSTAGE.BASE) 4096 then none else some 4

def State.updStart (s : State) : State := s.clear R.UPD_STAT.ERASESUSP

/-- A drain suspends an erase in progress (R484). -/
def State.updDrain (s : State) : State := if s.upd.erase.isSome then s.raise R.UPD_STAT.ERASESUSP else s

/-- No block is being programmed. -/
def State.updDrained (s : State) : Bool :=
  match s.upd.xfer with
  | some x => x.block.isNone
  | none => true

end Sys2Proof.Machine
end

