-- ==== Sys2Proof/Machine/Units.lean ====
section
/-!
DEFINITION. The enable pair of every unit (R33 to R36, R40, R571): what a block checks when EN is written 1, what it does as
it enters RUN, as its drain begins, as it reaches OFF, and what a crossbar error abandons.
-/

namespace Sys2Proof

/-- The block whose assist ring a unit's enable pair governs. -/
def UnitId.ring : UnitId → Option AsnBlock
  | .hop => some .hop
  | .fab => some .fab
  | .loop => some .loop
  | .mtr => some .mtr
  | .can c => some (.can c)
  | .key => some .key
  | .evt => some .evt
  | _ => none

/-- FCAUSE of a crossbar error (the FCAUSE table of each block); the scheduler and the ports have none. -/
def UnitId.xbarCause : UnitId → Option Nat
  | .sch => none
  | .port _ => none
  | .img => some 7
  | .jrn => some 2
  | .hop => some 7
  | .fab => some 4
  | .gate => some 3
  | .loop => some 2
  | .mtr => some 5
  | .can _ => some 3
  | .mem => some 2
  | .key => some 3
  | .evt => some 3
  | .mch => some 2
  | .upd => some 3

end Sys2Proof

namespace Sys2Proof.Machine

/-- MCH finds its queue outside the general region or misaligned to its size (Table 14-9). -/
def State.mchFault (s : State) : Option Nat :=
  let base := 65536 * s.rd R.PAIR_MBASE.MBASE
  if !inGeneral base s.mirCapacity || base % s.mirCapacity != 0 then some 3 else none

/-- What a unit's check at enable reports, cause and argument (R571); none where all passes. -/
def State.unitFault (s : State) (u : UnitId) : Option (Nat × Nat) :=
  let plain := fun (o : Option Nat) => o.map fun n => (n, 0)
  match u with
  | .sch => s.schFault
  | .img => s.imgFault
  | .jrn => none
  | .hop => s.hopFault
  | .fab => plain s.fabFault
  | .port p => plain (s.portFault p.val)
  | .gate => plain s.gateFault
  | .loop => s.loopFault
  | .mtr => s.mtrFault
  | .can c => s.canFault c.val
  | .mem => plain s.memFault
  | .key => plain s.keyFault
  | .evt => plain s.evtFault
  | .mch => plain s.mchFault
  | .upd => plain s.updFault

/-- What a unit does as it enters RUN from OFF. -/
def State.unitStart (s : State) (u : UnitId) : State :=
  match u with
  | .sch => s.schStart
  | .img => s.imgStart
  | .jrn => s
  | .hop => s.hopStart
  | .fab => s.fabStart
  | .port p => s.portStart p.val
  | .gate => s.gateStart
  | .loop => s.loopStart
  | .mtr => s.mtrStart
  | .can c => s.canStart c.val
  | .mem => s.memStart
  | .key => s.keyStart
  | .evt => s.evtStart
  | .mch => s
  | .upd => s.updStart

/-- What a unit does as it enters RUN again from DRAIN: it accepts work. Inbound ranges, which ceased at EN = 0, subscribe
again (Table 4-5); the fabric announces its node again; a port's adjacency starts anew; tasks are armed anew; stations enabled meanwhile start
(Table 3-9). -/
def State.unitAgain (s : State) (u : UnitId) : State :=
  match u with
  | .img => s.stnsBegin
  | .sch => State.schStart { s with sch := { s.sch with drainBound := none } }
  | .hop => if s.on R.HOP_STAT.INIT then s else s.scanLost.hopSubscribe
  | .fab => s.fabAgain
  | .port p => s.portAgain p.val
  | .gate => s.gateStart
  | .key => s.keyStart
  | .upd => s.updStart
  | _ => s

/-- What a unit does as its drain begins; a sleeping CAN controller is OFF at once (R367). -/
def State.unitDrain (s : State) (u : UnitId) : State :=
  match u with
  | .sch => s.schDrain
  | .jrn => s.commitStaged
  | .hop => s.hopDrain
  | .fab => s.fabDrain
  | .port p => s.portStop p.val
  | .loop => s.loopDrain
  | .can c => if s.on (R.CAN_STAT.SLEEP c.val) then s.wr (UnitId.can c).STATE stOff else s
  | .upd => s.updDrain
  | _ => s

/-- A unit's unit of work is complete (Table 1-10): in ASSIST mode, with every posted descriptor answered or timed out; the
metering engine, whose descriptors ask for no result, with its round in either mode. -/
def State.unitDrained (s : State) (u : UnitId) : Bool :=
  let own : Bool := match u with
    | .sch => s.schDrained
    | .img => s.img.cur.isNone
    | .hop => s.hopDrained
    | .fab => s.fabDrained
    | .gate => s.gateDrained
    | .loop => s.loopDrained
    | .can c => (s.canOf c.val).attempt.isNone
    | .key => s.key.inside.isNone
    | .upd => s.updDrained
    | _ => true
  let answered : Bool := match u.ring with
    | some b => !s.assist u || b == .mtr || (s.posts b).all (·.timedOut)
    | none => true
  own && answered

/-- What a unit does as it reaches OFF. -/
def State.unitOff (s : State) (u : UnitId) : State :=
  match u with
  | .sch => s.schOff
  | .img => s.imgOff
  | .hop => s.hopDrain.hopLose.gateResume none
  | .fab => s.fabOff
  | .port p => s.portOff p.val
  | .gate => s.gateOff
  | .mtr => s.mtrOff
  | .evt => s.evtOff
  | _ => s

/-- EN written 1 (Tables 1-7 to 1-9). -/
def State.enable (s : State) (u : UnitId) : State :=
  let s := (s.raise u.EN).raise u.ENREQ
  if s.rd u.STATE ≠ stOff then s
  else
    let s := match u.ring with
      | some b => if s.assist u && s.ringBad b then s.raise b.BADRING else s
      | none => s
    match s.unitFault u with
    | some (cause, arg) =>
      let s := s.toFault u cause arg
      if u = .upd then s.raise R.UPD_INTSTAT.FAULT else s
    | none =>
      let s := match u.ring with
        | some b => if s.assist u then s.ringStart b else s
        | none => s
      (s.wr u.STATE stRun).unitStart u

/-- EN written 0. -/
def State.disable (s : State) (u : UnitId) : State := s.disableWith u (·.unitDrain u) (·.unitOff u)

/-- The unit in hand of a draining unit is complete: OFF or RUN by the last EN written, one written in the same cycle
included (R34). -/
def State.drainDone (s : State) (u : UnitId) : State :=
  if s.rd u.STATE = stDrain ∧ s.unitDrained u then
    if s.on u.ENREQ then (s.wr u.STATE stRun).unitAgain u else (s.wr u.STATE stOff).unitOff u
  else s

/-- What a crossbar error abandons, the unit already in FAULT (R35 and each block's chapter). A CAN frame still completes on
the wire (R368). -/
def State.unitAbandon (s : State) (u : UnitId) : State :=
  match u with
  | .img => s.imgXbar
  | .jrn => (s.raise R.IMG_INTSTAT.JRNFAULT).commitStaged
  | .hop => s.hopXbar.gateResume none
  | .fab => s.fabXbar
  | .gate => s.gateXbar
  | .loop => s.loopXbar
  | .mtr => s.mtrXbar
  | .key => s.keyXbar
  | .evt => s.evtXbar
  | .mem => { s with integ := { s.integ with repair := s.integ.repair.map fun r => { r with copied := 0 } } }
  | .upd => s.raise R.UPD_INTSTAT.FAULT
  | _ => s

/-- A crossbar error of an engine that works. -/
def State.xbarError (s : State) (u : UnitId) : State :=
  match u.xbarCause with
  | none => s
  | some cause => if s.working u then (s.toFault u cause).unitAbandon u else s

/-! The commands. -/

/-- BLOCK_ENABLE (R33, R37, R571). -/
def execBlockEnable (u : UnitId) (s : State) : Host.Outcome State Fault Refusal := .next (s.enable u)

/-- BLOCK_DISABLE (R33). -/
def execBlockDisable (u : UnitId) (s : State) : Host.Outcome State Fault Refusal := .next (s.disable u)

/-- DRAIN_UNIT_COMPLETE (R33, R34, R36). -/
def execDrainUnitComplete (u : UnitId) (s : State) : Host.Outcome State Fault Refusal := .next (s.drainDone u)

/-- ENGINE_CROSSBAR_ERROR (R35, R373). -/
def execEngineCrossbarError (u : UnitId) (s : State) : Host.Outcome State Fault Refusal := .next (s.xbarError u).atHeld

end Sys2Proof.Machine
end

