-- ==== Sys2Proof/Machine/Pair.lean ====
section
/-!
DEFINITION. The redundant pair's commands (ch14): Fantails sent and received, losses and elections, takeover, the mirror channel
at both ends, P4, and the pair's own commands.
-/

namespace Sys2Proof.Machine

/-! Takeover (R452, R454, R462). -/

/-- The journal slot with the newest complete record of a task (R99). -/
def State.newestSlot (s : State) (t : Nat) : Option Nat :=
  match s.jrnValid t 0, s.jrnValid t 1 with
  | true, true => some (if s.jrnC t 1 ≤ s.jrnC t 0 then 0 else 1)
  | true, false => some 0
  | false, true => some 1
  | false, false => none

/-- A task's retained data restored from its journal into its core's data memory. -/
def State.restoreRet (s : State) (t : Nat) : State :=
  if s.retlen t = 0 then s
  else
    match s.newestSlot t with
    | some k => s.write 16 (s.retAddr t) (s.bytes (s.jrnSlot t k + 16) (s.retlen t))
    | none => s

/-- HOP_PINC counted on and kept in MRAM (R133). -/
def State.pincUp (s : State) : State :=
  let i := s.identRec
  let n := (i.pinc + 1) % 65536
  (s.putIdentRec { i with pinc := n }).wr R.HOP_PINC.PINC n

/-- The start sequence has not reached its step 15, at which the claim is made (R455). -/
def State.starting (s : State) : Bool := s.start.phase == 1 || s.start.waiting

/-- Takeover (Table 14-2): the claim, then every step; a refused claim leaves the role as it was (R456). The flag says which. A role won
before step 15 of the start has its claim and its steps there. -/
def State.takeOver (s : State) : Bool × State :=
  let s : State := { s with pair := { s.pair with rxFrames := [], rxBase := 0, rxNext := none, queue := [], base := [] } }
  let r := if s.starting then (true, s) else s.claim
  let s := if r.1 then r.2.each (r.2.gate.sessions.map (·.1)) fun s k => s.freeSess k else r.2
  if !r.1 then (false, s)
  else if s.starting then
    (true, ((s.setRole roleActive).clear R.PAIR_STAT.READY).clear R.PAIR_STAT.NEEDSYNC)
  else
    let s := ((s.setRole roleActive).clear R.PAIR_STAT.READY).clear R.PAIR_STAT.NEEDSYNC
    let s := s.openGate.pincUp
    let s := s.each s.outList' fun s e => s.pushRange (s.outEntry e)
    let s := (s.aliasLsa true).each s.cfgTasks State.restoreRet
    let s := s.each (below 64 fun n => s.on (R.IMG_STN_CFG.EN n)) fun s n => s.markMirrors n true
    let s := ((s.enable .loop).enable .sch).outEnable false
    let s := s.outEnable true
    (true, { s with pair := { s.pair with resumeDue := true, resumeLoops := false, committed := [] }
                    mtr := { s.mtr with unsure := List.range 512 } })

/-- A standby takes over (R452, R466, R468). What PAIR_TAKEOVER carries for its cause and for UNSYNC has no stated encoding, and is
free (notes/assumptions/49). -/
def State.standbyTakesOver (s : State) : State :=
  let r := s.takeOver
  if !r.1 then r.2
  else
    let s := (r.2.raise R.PAIR_INTSTAT.TAKEOVER).bump R.PAIR_CNT_TAKEOVER.COUNT
    (s.pairEvent 0x0E02 (Config.freeNat s.fresh)).taken

/-! The base copy (R459). -/

/-- Own points that output entries with MIRROR = 1 write (R96, R458). -/
def State.mirrorOwn (s : State) : List Nat :=
  let es := (s.cfgTasks.flatMap s.outList).filter (·.mirror)
  (es.flatMap fun e =>
    if e.kind = kOpt then [e.ref % 2 ^ 20]
    else if e.kind = kSout ∧ e.aux % 2 ^ 32 ≠ 0xFFFFFFFF then [e.aux % 2 ^ 32] else []).dedup

/-- The parts of a base copy: every mirrored item's current value, then its end. -/
def State.baseUnits (s : State) : List MirUnit :=
  let journals := s.cfgTasks.filter fun t => s.tMirrored t && s.retlen t != 0
  (chunks 256 s.mirrorOwn).map .pts ++
    (match chunks 256 (below 1024 fun i => (s.forceAt i).valid) with
     | [] => [.forces true []]
     | c :: cs => .forces true c :: cs.map (.forces false)) ++
    journals.map .journal ++ (chunks 256 (below 256 s.lMirrored)).map .loops ++
    (chunks 512 (List.range 4096)).map .outs ++ [.done]

/-- The latest journal record of a task: held by the image unit, or the newest of its slots. -/
def State.latestJrn (s : State) (t : Nat) : List Byte × Option Nat :=
  match s.heldJrn t with
  | some r => (r.bytes, r.poisonAt)
  | none =>
    match s.newestSlot t with
    | some k => (s.bytes (s.jrnSlot t k) (24 + s.retlen t), none)
    | none => ([], none)

/-- A part of a base copy as a batch flagged BASE. The first part with forces also clears the standby's table. -/
def State.sendBase (s : State) : State :=
  match s.pair.base with
  | [] => s
  | u :: rest =>
    let s := { s with pair := { s.pair with base := rest } }
    match u with
    | .pts own =>
      let (items, p, s) := s.ptItems own
      s.queueBatch items true p
    | .forces clear idx => s.queueBatch ((if clear then [.fclr 0xFFFFFFFF] else []) ++ idx.map s.forceItem') true
    | .journal t =>
      let (bytes, p) := s.latestJrn t
      s.queueBatch (if bytes.isEmpty then [] else retItems t (s.retlen t) bytes) true p
    | .loops ns => s.queueBatch (ns.map s.loopItem) true
    | .outs es => s.queueBatch (es.map s.outItem) true
    | .done => s.queueBatch [.baseend] true

/-- A base copy asked for by the partner begins, unless one runs. -/
def State.startBase (s : State) : State :=
  let busy := !s.pair.base.isEmpty || s.pair.queue.any fun b => b.frames.any (·.base)
  if busy then s else State.raise { s with pair := { s.pair with base := s.baseUnits } } R.PAIR_STAT.NEEDSYNC

/-- MIRROR_SEND (R460): the next queued batch; with none queued, the next part of a base copy. -/
def State.mirrorSend (s : State) : State :=
  if !s.mirrorReady then s
  else if s.pair.queue.isEmpty then s.sendBase.sendQueued
  else s.sendQueued

/-! P4 (R461). -/

/-- A KEYX body for P4 (Table 5-6). -/
def State.p4Keyx (s : State) (msg an : Nat) (peerNonce : BitVec 128) : State :=
  if !s.fabKeyOk || !(s.port 4).nonceOk then s
  else
    let body := bytesLE msg 1 ++ bytesLE an 1 ++ bytesLE 1 1 ++ bytesLE 4 1 ++ macBytes s.ownMac ++
      bytesLE (s.rd R.FAB_NODE.ACT) 2 ++ bytesBE (s.port 4).nonce.toNat 16 ++ bytesBE peerNonce.toNat 16
    let f := s.p4Frame tyKeyx (body ++ zeros 16)
    s.p4Put { f with payload := body ++ (hmac s.kKx (leatHeader f ++ body)).take 16 }

/-- P4's OFFER, repeated every 100 ms, with a new nonce after 1 s (R164). -/
def State.p4Offer (s : State) : State :=
  let x := s.port 4
  if !s.pair.p4Link || x.tx.isSome || (x.nonceOk && s.now < x.offerAt + 100 * ms) then s
  else
    let s := if !x.nonceOk || x.nonceAt + sec ≤ s.now then s.newNonce 4 else s
    (s.setPort 4 { s.port 4 with offerAt := s.now }).p4Keyx 1 (s.port 4).offerAn 0

/-- A MAC as six bytes spell it, as `macBytes` lays one out. -/
def macOf (b : List Byte) : Nat := natLE b.reverse

/-- A KEYX on P4 whose tag fails (R164). -/
def State.p4KeyFail (s : State) : State :=
  if dueAgain (s.port 4).keyFailAt s.now (10 * sec) then
    (s.setPort 4 { s.port 4 with keyFailAt := some s.now }).raise R.FAB_INTSTAT.KEYFAIL
  else s

/-- A KEYX on P4: an OFFER is answered, an ANSWER that names the current nonce installs the SA (R164). -/
def State.p4KeyxIn (s : State) (f : Leat) : State :=
  let b := f.payload
  let be := fun o => BitVec.ofNat 128 (natLE ((b.drop o).take 16).reverse)
  if b.length ≠ 60 ∨ !s.fabKeyOk then s
  else if (b.drop 44).take 16 ≠ (hmac s.kKx (leatHeader f ++ b.take 44)).take 16 then s.p4KeyFail
  else
    let an := numAt b 1 1
    let mac := macOf ((b.drop 4).take 6)
    let s := s.setPort 4 { s.port 4 with peerMac := mac, peerCaps := numAt b 2 1, peerKnown := true }
    let s := if (s.port 4).nonceOk then s else s.newNonce 4
    let x := s.port 4
    if numAt b 0 1 = 1 then
      (s.setPort 4 { x with peerAn := an }).p4Keyx 2 (if s.ownMac < mac then x.offerAn else an) (be 12)
    else if numAt b 0 1 = 2 ∧ be 28 = x.nonce ∧ x.nonceOk then
      let k := if s.ownMac < mac then x.offerAn else x.peerAn
      let sa : FabSa := { an := k, sak := s.sak mac x.nonce (be 12) k }
      s.setPort 4 { x with tx := some sa, rx := [sa], txPn := 0, saAt := s.now }
    else s

/-- P4's link comes up, or goes down: then its SA is lost (R461). -/
def State.p4LinkUp (s : State) : State := { s with pair := { s.pair with p4Link := true } }

def State.p4LinkDown (s : State) : State := State.setPort { s with pair := { s.pair with p4Link := false } } 4 {}

/-- LINK_UP and LINK_DOWN: a fabric port's, or P4's. -/
def execLinkUp (p speed : Nat) (s : State) : Host.Outcome State Fault Refusal :=
  onUnit (p < 5) (if p = 4 then s.p4LinkUp else s.linkUp p speed)

def execLinkDown (p : Nat) (s : State) : Host.Outcome State Fault Refusal :=
  onUnit (p < 5) (if p = 4 then s.p4LinkDown else s.linkDown p)

/-- A frame on P4: KEYX, FANTAIL and MIRROR for this node with TTL 1, the last two under the SA; any other is discarded and
counted (R461). -/
def State.p4Receive (s : State) (f : Leat) : State :=
  if !s.pair.p4Link then s
  else if f.dst ≠ s.rd R.FAB_NODE.CFG ∨ f.ttl ≠ 1 ∨ !headerOk f then s.bump R.PAIR_CNT_P4DISC.COUNT
  else if f.typ = tyKeyx then s.p4KeyxIn f
  else if (f.typ = tyFantail ∨ f.typ = tyMirror) ∧ s.p4Up then { s with pair := { s.pair with p4In := s.pair.p4In ++ [f] } }
  else s.bump R.PAIR_CNT_P4DISC.COUNT

/-- A frame for the pair block taken from where it waits. -/
def State.takePair (s : State) (onP4 : Bool) (typ src : Nat) (payload : List Byte) : State :=
  if onP4 then
    match takeFirst (fun f => f.typ == typ && f.payload == payload) s.pair.p4In with
    | some (_, rest) => { s with pair := { s.pair with p4In := rest } }
    | none => s
  else s.takeInbox typ src payload

/-! Fantails (R452, R453, R464). -/

/-- HB and the loss time, in nanoseconds. -/
def State.hbNs (s : State) : Nat := 100 * us * s.rd R.PAIR_FTL.HB
def State.lossNs (s : State) : Nat := s.rd R.PAIR_FTL.LOSS * s.hbNs

/-- FANTAIL_SEND (R464). -/
def State.fantailBeat (s : State) : State :=
  if s.role = roleSolo ∨ !s.partnerValid then s
  else ((s.advance (s.pair.lastBeat + s.hbNs)).p4Offer).sendFantail false

/-- This module wins an election against a Fantail (R453). -/
def State.wins (s : State) (f : Fantail) : Bool :=
  let own := s.on R.PAIR_CFG.PREF
  if s.storedEpoch ≠ f.epoch then f.epoch < s.storedEpoch
  else if own ≠ f.pref then own
  else s.ownMac < f.mac

/-- One FAB cycle after an instant is not past: an expiry then falls in the present cycle (R465). -/
def State.expiring (s : State) (t : Nat) : Bool := t ≤ s.now + fabCycle

/-- The elapsed instant of the last valid Fantail, or of the role's entry where none came since. -/
def State.lastHeard (s : State) : Nat := max s.pair.since (max (s.pair.heardP4.getD 0) (s.pair.heardFab.getD 0))

/-- The same for a Fantail of an active partner. -/
def State.lastActive (s : State) : Nat := max s.pair.since (s.pair.heardActive.getD 0)

/-- When the loss timers of a path and of both paths expire; none where the timer does not run. -/
def State.pathExpiry (s : State) (onP4 : Bool) : Option Nat :=
  if s.on (if onP4 then R.PAIR_STAT.P4OK else R.PAIR_STAT.FABOK) then
    (if onP4 then s.pair.heardP4 else s.pair.heardFab).map (· + s.lossNs)
  else none

def State.lossExpiry (s : State) : Option Nat :=
  if s.role = roleStandby then some (s.lastActive + s.lossNs)
  else if s.role = roleActive ∧ !s.pair.silent then some (s.lastHeard + s.lossNs)
  else none

/-- Whether a Fantail stops the timer of both paths: that of a standby asks for an active partner. -/
def State.stopsLoss (s : State) (f : Fantail) : Bool := s.role != roleStandby || f.role == roleActive

/-- The expiries that a Fantail of the present cycle makes void (R465). -/
def State.voided (s : State) (onP4 : Bool) (f : Fantail) : BitVec 3 :=
  let v := s.pair.void
  let v := if (s.pathExpiry onP4).any s.expiring then v ||| (if onP4 then 1#3 else 2#3) else v
  if s.stopsLoss f && s.lossExpiry.any s.expiring then v ||| 4#3 else v

/-- A Fantail is valid (R464). -/
def State.fantailValid (s : State) (f : Fantail) : Bool :=
  s.role != roleSolo && s.partnerValid && f.node == s.rd R.PAIR_CFG.PNODE && f.snode == s.rd R.PAIR_SNODE.SNODE

/-- What a valid Fantail shows in the registers. -/
def State.noteFantail (s : State) (onP4 : Bool) (f : Fantail) : State :=
  let s := s.bump (if onP4 then R.PAIR_CNT_FTP4.COUNT else R.PAIR_CNT_FTFAB.COUNT)
  let s := (s.wr R.PAIR_STAT.PHEARD f.node).wr R.PAIR_PEPOCH.PEPOCH f.epoch
  let x := { s.pair with partner := some f, silent := false, void := s.voided onP4 f }
  let x := if onP4 then { x with heardP4 := some s.now } else { x with heardFab := some s.now }
  let s : State := { s with pair := if f.role = roleActive then { x with heardActive := some s.now } else x }
  let s := s.raise (if onP4 then R.PAIR_STAT.P4OK else R.PAIR_STAT.FABOK)
  let clash := f.side == s.on R.PAIR_CFG.SIDE
  let s := if clash && !s.on R.PAIR_STAT.SIDECLASH then (s.raise R.PAIR_INTSTAT.SIDECLASH).pairEvent 0x0E08 else s
  let s := s.wrb R.PAIR_STAT.SIDECLASH clash
  if f.cfgid ≠ s.rd R.PAIR_CFGID.CFGID then s.setCfgmis else s.clear R.PAIR_STAT.CFGMIS

/-- The role table's rows for a valid Fantail (Table 14-1). -/
def State.roleFantail (s : State) (f : Fantail) : State :=
  let r := s.role
  if r = roleElecting then
    if f.role = roleActive then s.toStandby.pairEvent 0x0E01
    else if f.role = roleElecting then
      if s.wins f then
        let r := s.takeOver
        if r.1 then r.2.pairEvent 0x0E00 else r.2
      else s.toStandby.pairEvent 0x0E01
    else s
  else if r = roleStandby then
    if f.handoff then s.standbyTakesOver
    else if f.role = roleActive ∧ s.on R.PAIR_STAT.CFGMIS then s.needSync
    else s
  else if r = roleActive then
    if f.role = roleActive then (if s.rd R.PAIR_EPOCH.EPOCH < f.epoch then s.pairDemote else s)
    else if f.role = roleStandby ∧ f.needsync then s.startBase
    else s
  else if r = roleDemoted ∧ f.role = roleActive then s.toStandby
  else s

/-- A Fantail arrives; one that is not valid is dropped (R464). -/
def State.fantailIn (s : State) (onP4 : Bool) (f : Fantail) : State :=
  let s := s.takePair onP4 tyFantail f.node (f.bytes (if onP4 then 0 else 1))
  if !s.fantailValid f then s
  else (s.noteFantail onP4 f).roleFantail f

/-- The command that follows this one, in the same cycle, is a valid Fantail; its path and what it says. -/
def State.fantailNext (s : State) : Option (Bool × Fantail) :=
  match s.pending with
  | .fantailReceived onP4 f :: _ => if s.fantailValid f then some (onP4, f) else none
  | _ => none

/-- The Fantail that waits next is accepted in this cycle: its path and its partner count as heard. -/
def State.heardNow (s : State) (onP4 : Bool) (f : Fantail) : State :=
  let x := if onP4 then { s.pair with heardP4 := some s.now } else { s.pair with heardFab := some s.now }
  { s with pair := if f.role = roleActive then { x with heardActive := some s.now } else x }

/-- A loss timer expires at an instant, unless a Fantail of the same FAB cycle prevails (R465): one taken just before, or the one
that waits next. `bit` is the timer's in `void`; `stops` says whether a Fantail stops it. -/
def State.lossTimer (s : State) (bit : Nat) (due : Option Nat) (stops : Bool → Fantail → Bool) (lost : State → State) : State :=
  if s.pair.void.getLsbD bit then { s with pair := { s.pair with void := s.pair.void &&& ~~~(1#3 <<< bit) } }
  else
    match due with
    | none => s
    | some t =>
      match s.fantailNext with
      | some (onP4, f) => if stops onP4 f then (s.advance t).heardNow onP4 f else lost (s.advance t)
      | none => lost (s.advance t)

/-- A path lost (R464). -/
def State.pathLost (s : State) (onP4 : Bool) : State :=
  s.lossTimer (if onP4 then 0 else 1) (s.pathExpiry onP4) (fun q _ => q == onP4) fun s =>
    ((s.clear (if onP4 then R.PAIR_STAT.P4OK else R.PAIR_STAT.FABOK)).raise R.PAIR_INTSTAT.PATHLOSS).pairEvent 0x0E04

/-- PARTNERLOST raised and recorded (Table 14-1). -/
def State.partnerLost (s : State) : State :=
  (State.raise { s with pair := { s.pair with silent := true } } R.PAIR_INTSTAT.PARTNERLOST).pairEvent 0x0E05

/-- PARTNER_LOSS: no active partner for LOSS × HB on both paths. -/
def State.partnerSilent (s : State) : State :=
  s.lossTimer 2 s.lossExpiry (fun _ f => s.stopsLoss f) fun s =>
    if s.role = roleStandby then s.standbyTakesOver else s.partnerLost

/-- ELECT_TIMEOUT. -/
def State.electTimeout (s : State) : State :=
  let wait := ms * s.rd R.PAIR_FTL.ELECT_MS
  if s.role = roleElecting ∧ s.partnerValid then
    let r := (s.advance (s.lastHeard + wait)).takeOver
    if r.1 then r.2.partnerLost else r.2
  else if s.role = roleDemoted then
    (s.advance (s.lastActive + wait)).setRole roleElecting
  else s

/-! The standby's side of the mirror (R459, R462). -/

/-- A gap: READY is lost and a base copy asked for. -/
def State.mirGap (s : State) : State :=
  let s := s.needSync
  { s with pair := { s.pair with rxBase := if s.pair.rxBase = 1 then 2 else s.pair.rxBase } }

/-- A force table entry as its 32 bytes spell it (R113). -/
def forceOf (b : List Byte) : Force :=
  let fl := numAt b 4 4
  { valid := fl % 2 == 1, key := BitVec.ofNat 32 (numAt b 0 4), out := fl / 2 % 2 == 1, hasShadow := fl / 4 % 2 == 1
    value := BitVec.ofNat 64 (numAt b 8 8), shadow := BitVec.ofNat 64 (numAt b 16 8), mt := BitVec.ofNat 64 (numAt b 24 8) }

/-- A force entered into the table by its key. -/
def State.mirForce (s : State) (f : Force) : State :=
  match s.forceIdx f.key.toNat with
  | some i => s.setForce i f
  | none =>
    match (List.range 1024).find? fun i => !(s.forceAt i).valid with
    | some i => if f.valid then s.setForce i f else s
    | none => s

/-- Forces cleared by key. -/
def State.mirClear (s : State) (key : Nat) : State :=
  let es := s.img.forces.filter fun (_, f) => f.valid && (key == 0xFFFFFFFF || f.key.toNat == key)
  s.each (es.map (·.1)) fun s i => s.setForce i {}

/-- An outbound entry as its 16 bytes spell it (Table 4-14). -/
def State.mirOut (s : State) (e : Nat) (b : List Byte) : State :=
  let w0 := numAt b 0 4
  let w1 := numAt b 4 4
  s.setOutEntry e { s.outEntry e with first := w0 % 2 ^ 20, node := w0 / 2 ^ 20, count := w1 % 2 ^ 16, maxper := w1 / 2 ^ 16
                                      leaseEnd := s.now + ms * numAt b 8 4, valid := numAt b 12 4 % 2 == 1 }

/-- A journal record assembled from a batch's RETF items and written to the standby's own slot (R459, R463). -/
def State.mirJournal (s : State) (t : Nat) (items : List MirItem) : State :=
  let parts := items.filterMap fun | .retf t' _ o b => if t' = t then some (o, b) else none | _ => none
  let rec_ := parts.foldl (fun (acc : List Byte) (o, b) => acc.take o ++ b) []
  let n := s.retlen t
  if n = 0 ∨ rec_.length < 20 + n ∨ !crcOk (rec_.take (20 + n)) ∨ numAt rec_ 0 2 ≠ t ∨ numAt rec_ 2 2 ≠ n then s
  else
    let k := s.nextSlot t
    (s.putBytes (s.jrnSlot t k) (rec_.take (24 + n))).setImgTask t { s.imgTask t with jslot := some k }

/-- One item applied. -/
def State.mirItem (s : State) (i : MirItem) : State :=
  match i with
  | .pt own b => if own < 65536 then s.write mEngine (ownRecord own) b else s
  | .force b => s.mirForce (forceOf b)
  | .fclr key => s.mirClear key
  | .retf _ _ _ _ => s
  | .loop n ws =>
    if n < 256 then
      let s := (s.each ws.zipIdx fun s (w, k) => s.setLw n (0x80 + 4 * k) w).setLstat n lsGap true
      s.setLoopX n { s.loopX n with first := false }
    else s
  | .outb e b => if e < 4096 then s.mirOut e b else s
  | .commit _ _ _ => s
  | .baseend =>
    let good := s.pair.rxBase = 1 ∧ !s.on R.PAIR_STAT.CFGMIS
    let s : State := { s with pair := { s.pair with rxBase := 0 } }
    if good then
      (((s.raise R.PAIR_STAT.READY).clear R.PAIR_STAT.NEEDSYNC).raise R.PAIR_INTSTAT.READY).pairEvent 0x0E07
    else s
  | .reserved _ => s

/-- A complete batch applied. -/
def State.mirApply (s : State) (frames : List MirFrame) : State :=
  let items := frames.flatMap (·.items)
  if items.any fun | .reserved _ => true | _ => false then s.mirGap
  else
    let base := frames.any (·.base)
    let s : State := if base && s.pair.rxBase == 0 then { s with pair := { s.pair with rxBase := 1 } } else s
    let tasks := (items.filterMap fun | .retf t _ _ _ => some t | _ => none).dedup
    let s := (s.each tasks fun s t => s.mirJournal t items).each items State.mirItem
    (s.wr R.PAIR_MSEQ_RX.MSEQ ((frames.head?.map (·.mseq)).getD 0)).bump R.PAIR_CNT_BATCH.COUNT

/-- A mirror frame assembled: frames of a batch in order, batches in MSEQ order (R459). -/
def State.mirFrame (s : State) (f : MirFrame) : State :=
  let held := s.pair.rxFrames
  let next := s.pair.rxNext
  let seen := fun (s : State) (fs : List MirFrame) =>
    { s with pair := { s.pair with rxFrames := fs, rxNext := some ((f.mseq + 1) % 2 ^ 32) } }
  let end_ := fun (s : State) (fs : List MirFrame) => if f.last then (seen s []).mirApply fs else seen s fs
  if f.cfgid ≠ s.rd R.PAIR_CFGID.CFGID then (seen s []).setCfgmis.mirGap
  else if f.frag = 0 then
    let s := if held.isEmpty && (next.isNone || next == some f.mseq) then s else s.mirGap
    end_ s [f]
  else if !held.isEmpty && held.length == f.frag && held.all (·.mseq == f.mseq) then end_ s (held ++ [f])
  else (seen s []).mirGap

/-- A mirror frame arrives; only a standby takes one. -/
def State.mirrorIn (s : State) (f : MirFrame) : State :=
  let s := (s.takePair true tyMirror 0 f.bytes).takePair false tyMirror (s.rd R.PAIR_CFG.PNODE) f.bytes
  if s.role = roleStandby then s.mirFrame f else s

/-! Commands of the role (R469, R473); one that comes while GO reads 1 is ignored (R13). -/

/-- PAIR_CMD's OP as written. -/
def State.pairOp (s : State) (op : Nat) : State := s.wr R.PAIR_CMD.OP op

/-- SWITCHOVER: a switch point one HB ahead, where an ACTIVE module's partner reports READY and no hold or switch point is
in the way. -/
def State.switchover (s : State) : State :=
  let s := s.pairOp 1
  let ready := match s.pair.partner with | some f => f.ready && f.role == roleStandby | none => false
  if s.role ≠ roleActive ∨ !ready ∨ s.withheld ∨ s.on R.SCH_SWP_CMD.ARM then s.pairDone prNotready
  else
    let s := (s.wr64 R.SCH_SWP_LO.addr R.SCH_SWP_HI.addr (s.mtNs + s.hbNs)).raise R.PAIR_CMD.GO
    (s.raise R.PAIR_STAT.SWPEND).armSwitch.atHeld

/-- FANTAIL_SEND (R464). -/
def execFantailSend (s : State) : Host.Outcome State Fault Refusal := .next s.fantailBeat

/-- FANTAIL_RECEIVED (R452, R453, R464). -/
def execFantailReceived (onP4 : Bool) (f : Fantail) (s : State) : Host.Outcome State Fault Refusal := .next (s.fantailIn onP4 f)

/-- PATH_LOSS (R464). -/
def execPathLoss (onP4 : Bool) (s : State) : Host.Outcome State Fault Refusal := .next (s.pathLost onP4)

/-- PARTNER_LOSS (R452). -/
def execPartnerLoss (s : State) : Host.Outcome State Fault Refusal := .next s.partnerSilent

/-- ELECT_TIMEOUT (R452). -/
def execElectTimeout (s : State) : Host.Outcome State Fault Refusal := .next s.electTimeout

/-- MIRROR_SEND (R460, R461). -/
def execMirrorSend (s : State) : Host.Outcome State Fault Refusal := .next s.mirrorSend

/-- MIRROR_RECEIVED (R459). -/
def execMirrorReceived (f : MirFrame) (s : State) : Host.Outcome State Fault Refusal := .next (s.mirrorIn f)

/-- LOOP_STATE_SYNC (R458). -/
def execLoopStateSync (s : State) : Host.Outcome State Fault Refusal :=
  .next (
    if s.role ≠ roleActive then s
    else
      let s := s.advance (s.pair.lsyncAt + ms * s.rd R.PAIR_LSYNC.LSYNC_MS)
      State.loopSweep { s with pair := { s.pair with lsyncAt := s.now } })

/-- P4_FRAME_RECEIVED (R461). -/
def execP4FrameReceived (f : Leat) (s : State) : Host.Outcome State Fault Refusal := .next (s.p4Receive f)

/-- PAIR_SWITCHOVER (R469). -/
def execPairSwitchover (s : State) : Host.Outcome State Fault Refusal :=
  .next (if s.on R.PAIR_CMD.GO then s else s.switchover)

/-- PAIR_RESYNC (R473): a standby asks for a base copy. -/
def execPairResync (s : State) : Host.Outcome State Fault Refusal :=
  .next (
    if s.on R.PAIR_CMD.GO then s
    else
    let s := s.pairOp 2
    if s.role = roleStandby then (s.raise R.PAIR_STAT.NEEDSYNC).pairDone prOk else s.pairDone prRole)

/-- PAIR_DEMOTE (R452). -/
def execPairDemote (s : State) : Host.Outcome State Fault Refusal :=
  .next (
    if s.on R.PAIR_CMD.GO then s
    else
    let s := s.pairOp 3
    if s.role = roleActive then s.pairDemote.pairDone prOk else s.pairDone prRole)

/-- EGRESS_RELEASE_MIRROR (R386, R461): the halted batch is discarded; the gap in MSEQ leads to a base copy. -/
def execEgressReleaseMirror (s : State) : Host.Outcome State Fault Refusal :=
  .next (State.clear { s with pair := { s.pair with halted := none } } R.MEM_EGR_HALT.MIRROR)

end Sys2Proof.Machine
end

