-- ==== Sys2Proof/Machine/Reset.lean ====
section
/-!
DEFINITION. The module reset (R14, R560): what it keeps and what it sets.
-/

namespace Sys2Proof.Machine

/-- The codes of Table 18-6. -/
def rcPoweron : Nat := 1
def rcHucollapse : Nat := 2
def rcWarnstart : Nat := 3
def rcSwreset : Nat := 4
def rcWdt : Nat := 5
def rcFatal : Nat := 6
def rcHandoverTmo : Nat := 7
def rcHandoverBrake : Nat := 8
def rcBistfail : Nat := 9
def rcCfgfail : Nat := 10
def rcRecovery : Nat := 11

/-- Registers that a module reset leaves alone: the backup domain's (R14, R560), and those that show the field side or a
measured condition (R315, R527). -/
def keptRegs : List Nat :=
  backupRegs ++ [R.SYS_RSTCAUSE.addr, R.DIO_DO_PIN.addr, R.PWR_VIN.addr, R.PWR_VHU.addr, R.PWR_PIN.addr]

/-- Fields of the same kind within other registers. -/
def keptFields : List Fld :=
  [R.RTC_STAT.OSF, R.RTC_STAT.BBAD, R.RTC_STAT.TQ, R.RTC_STAT.ONMAIN, R.RTC_STAT.CHG, R.KEY_TAMP.LATCH, R.KEY_TAMP.FIRED, R.KEY_TAMP.ACTIVE, R.PWR_STAT.WARN,
   R.PWR_STAT.VINOK, R.PWR_STAT.HUSW, R.PWR_STAT.CHG, R.PWR_STAT.HUOK, R.PWR_STAT.SRCX1, R.PWR_STAT.SRCPOE, R.PWR_STAT.POET2,
   R.PWR_STAT.RCV] ++
  (digitalOuts ++ analogOuts).flatMap fun o => [o.FSTATE, o.OC]

/-- A non-volatile address: MRAM or the NOR flash. -/
def nonvolatile (a : Nat) : Bool := (mramBase ≤ a && a < mramBase + 0x800000) || (norBase ≤ a && a < norBase + 0x4000000)

/-- The module reset (R14): every register at its reset value but those kept, every block's work lost, MT from 0; MRAM, flash,
the backup domain and the outputs' field sides go on. A LIVE output whose keep-alive ran holds its level for its TMO from here (R318, Table 9-3).
While a reset is not yet released the lower cause stays (R560). -/
def State.moduleReset (s : State) (cause : Nat) : State :=
  let cause := if s.start.phase = 0 then min cause (s.rd R.SYS_RSTCAUSE.CAUSE) else cause
  let blank : State := { now := s.now, fresh := s.fresh, pending := s.pending }
  let running := fun k => s.on (fOUTACT (32 ≤ k))
  let outs := s.dio.outs.map fun (k, x) => (k, if running k then x.lastToggle s.now else x)
  let fuses := s.integ.spares.filter fun (_, x) => x.fuse
  let t : State := { blank with
    mem := s.mem.filter fun (a, _) => nonvolatile a
    sch := { winElapsed := s.now }
    dio := { raw := s.dio.raw, outs := outs }
    integ := { flaws := s.integ.flaws.filter fun (w, _) => nonvolatile (8 * w), spares := fuses }
    key := { active := s.key.active }
    upd := { log := s.upd.log }
    pwr := { s.pwr with brakeAt := 0, heldAt := none, qabort := false }
    rtc := { secAt := s.rtc.secAt, stopped := s.rtc.stopped, lost := s.rtc.lost, loops := s.rtc.loops, vblowAt := s.rtc.vblowAt }
    start := { resetAt := s.now } }
  let t := t.each keptRegs fun t a => t.setReg a (s.reg a)
  let t := t.each keptFields fun t f => t.wr f (s.rd f)
  t.wr R.SYS_RSTCAUSE.CAUSE cause

end Sys2Proof.Machine
end

