-- ==== Sys2Proof/Machine/Power.lean ====
section
/-!
DEFINITION. Power supervision and Brake (ch16).
-/

namespace Sys2Proof.Machine

/-! Levels (Table 16-1), in millivolts. -/

def vWarning : Nat := 8500
def vResume : Nat := 9000
def huGood : Nat := 44000
def huFull : Nat := 48000

/-- PSTATE (R512). -/
def psNormal : Nat := 0
def psBraking : Nat := 1
def psBraked : Nat := 2

def State.pstate (s : State) : Nat := s.rd R.PWR_STAT.PSTATE

/-- The measured rails as the registers show them; in a Brake the lowest HU is kept. -/
def State.rails (s : State) (r : Rails) : State :=
  let s := ((s.wr R.PWR_VIN.VIN (min r.vin 65535)).wr R.PWR_VHU.VHU (min r.vhu 65535)).wr R.PWR_PIN.PIN (min r.pin 65535)
  let s := s.wrb R.PWR_STAT.HUOK (huGood ≤ r.vhu)
  if s.pstate ≠ psNormal then s.wr R.PWR_HUMIN.HUMIN (min (s.rd R.PWR_HUMIN.HUMIN) (min r.vhu 65535)) else s

/-- VIN at or above the resume level: the switch opens, the charger runs until HU is full, the window runs (R505, R512). -/
def State.vinGood (s : State) (r : Rails) : State :=
  let s := ((s.clear R.PWR_STAT.WARN).raise R.PWR_STAT.VINOK).clear R.PWR_STAT.HUSW
  let s := s.wrb R.PWR_STAT.CHG (r.vhu < huFull)
  match s.pwr.okSince with
  | some _ => s
  | none => { s with pwr := { s.pwr with okSince := some s.now } }

/-! Starting (R502 to R507). -/

/-- POWER_GOOD: VIN has been at or above 9.0 V for 20 ms and HU is at or above 44 V (R506); PoE alone only with Type 2
power granted (R503). Module reset may be released from then on. -/
def State.powerGood (s : State) (r : Rails) : State :=
  let poeOnly := s.on R.PWR_STAT.SRCPOE && !s.on R.PWR_STAT.SRCX1
  if s.pwr.released || r.vin < vResume || r.vhu < huGood || (poeOnly && !s.on R.PWR_STAT.POET2) then s
  else
    let s := (s.rails r).vinGood r
    let s := s.advance (s.pwr.okSince.getD s.now + 20 * ms)
    { s with pwr := { s.pwr with released := true } }

def execPowerGood (r : Rails) (s : State) : Host.Outcome State Fault Refusal := .next (s.powerGood r)

/-- HU_CAP_MEASURED (R506). -/
def execHuCapMeasured (uF : Nat) (s : State) : Host.Outcome State Fault Refusal :=
  .next (
    let s := s.wr R.PWR_HUCAP.HUCAP (min uF 65535)
    if uF < 448 then (s.raise R.PWR_INTSTAT.HULOW).event 0x1004 (val1 := uF) else s)

/-- HU_FULL: the charger stops (R505). -/
def execHuFull (s : State) : Host.Outcome State Fault Refusal := .next (s.clear R.PWR_STAT.CHG)

/-- POWER_SOURCE_CHANGE: which source supplies, and whether Type 2 power is granted (R502, R503). -/
def execPowerSourceChange (x1 poe type2 : Bool) (s : State) : Host.Outcome State Fault Refusal :=
  .next (
    let changed := s.on R.PWR_STAT.SRCX1 != x1 || s.on R.PWR_STAT.SRCPOE != poe
    let s := ((s.wrb R.PWR_STAT.SRCX1 x1).wrb R.PWR_STAT.SRCPOE poe).wrb R.PWR_STAT.POET2 (type2 && !x1)
    if changed then (s.raise R.PWR_INTSTAT.SRCCHG).event 0x1003 else s)

/-! Brake (R509 to R512). -/

/-- Brake begins with a cause: 1 WARNING, 2 TESTBRAKE, 3 HALT. The recorder writes out its tail queue (R440). -/
def State.brakeBegin (s : State) (cause : Nat) : State :=
  let s : State := { s with pwr := { s.pwr with brakeAt := s.now, heldAt := none, qabort := false } }
  let s := (s.wr R.PWR_STAT.PSTATE psBraking).wr R.PWR_STAT.BCAUSE cause
  let s := s.wr64 R.PWR_BRK_LO.addr R.PWR_BRK_HI.addr s.mtNs
  let s := (s.wr R.PWR_HUMIN.HUMIN (s.rd R.PWR_VHU.VHU)).bump R.PWR_CNT_BRAKE.COUNT
  let s := ((s.raise R.PWR_INTSTAT.BRAKE).event 0x1000 (val1 := cause)).kaSuspend
  s.ckptStart.flushTail.brakeHold

/-- VIN_WARNING: the hold-up switch closes; before lock the module is reset, after it Brake begins (R507, R508, R512). -/
def State.vinWarning (s : State) (r : Rails) : State :=
  if vWarning ≤ r.vin then s
  else
    let s := s.rails r
    let s := ((s.raise R.PWR_STAT.WARN).clear R.PWR_STAT.VINOK).raise R.PWR_STAT.HUSW
    let s : State := { s.clear R.PWR_STAT.CHG with pwr := { s.pwr with okSince := none } }
    if !s.pwr.released then s
    else if !s.on R.SYS_LOCK.LOCK then
      State.moduleReset { s with pwr := { s.pwr with released := false } } rcWarnstart
    else if s.pstate = psNormal then s.brakeBegin 1
    else s

/-- VIN_LOW: VIN below 9.0 V and not below the warning level (R507, R512, R515). -/
def State.vinLow (s : State) (r : Rails) : State :=
  if vResume ≤ r.vin ∨ r.vin < vWarning then s
  else
    let was := s.on R.PWR_STAT.VINOK
    let s := ((s.rails r).clear R.PWR_STAT.WARN).clear R.PWR_STAT.VINOK
    let s : State := { s with pwr := { s.pwr with okSince := none } }
    if !s.pwr.released ∨ s.pstate ≠ psNormal ∨ !was then s
    else
      let s := (s.raise R.PWR_INTSTAT.INLOW).bump R.PWR_CNT_INLOW.COUNT
      if dueAgain s.pwr.inlowAt s.now sec then
        State.event { s with pwr := { s.pwr with inlowAt := some s.now } } 0x1005
      else s

def execVinLow (r : Rails) (s : State) : Host.Outcome State Fault Refusal := .next (s.vinLow r)

/-- A PWR_CMD: before lock LOCKED; outside NORMAL STATE; else Brake begins. -/
def State.pwrCmd (s : State) (op cause : Nat) : State :=
  let s := s.wr R.PWR_CMD.OP op
  let done := fun (s : State) r => (s.wr R.PWR_CMD.RESULT r).raise R.PWR_INTSTAT.CMDDONE
  if !s.on R.SYS_LOCK.LOCK then done s 2
  else if s.pstate ≠ psNormal then done s 1
  else done (s.brakeBegin cause) 0

/-- TESTBRAKE (R509). -/
def execTestbrake (s : State) : Host.Outcome State Fault Refusal := .next (s.pwrCmd 1 2)

/-- HALT (R509). -/
def execHalt (s : State) : Host.Outcome State Fault Refusal := .next (s.pwrCmd 2 3)

/-- Where the clean-stop marker lies (R511). -/
def State.markerAt (s : State) : Nat := mramBase + 64 * s.rd R.PWR_CFG.MKBASE

/-- Every step of Brake has completed (R510). -/
def State.brakeDone (s : State) : Bool :=
  s.rd R.SCH_STAT.HOLD == 2 && s.img.cur.isNone && s.img.staged.isEmpty && s.mtr.ckpt.isNone && s.evt.tailQ.isEmpty

/-- Microseconds since the Brake began, saturating at a number of bits. -/
def State.brakeUs (s : State) (at_ bits : Nat) : Nat := min ((at_ - s.pwr.brakeAt) / us) (2 ^ bits - 1)

/-- Resume (R513); with a handover in its commit phase the module is reset instead (R494). -/
def State.resumeBrake (s : State) : State :=
  if s.upd.brakeInCommit then s.moduleReset rcHandoverBrake
  else
    let s := (s.putNum s.markerAt 4 0).clear R.PWR_STAT.MKVALID
    let s := (s.wr R.PWR_STAT.PSTATE psNormal).endHold.kaUnsuspend
    let late := s.now - s.pwr.brakeAt
    let s : State := { s with start := { s.start with wdtAt := s.start.wdtAt.map (· + late) } }
    let s := (s.wr R.PWR_DIP.DIP (s.brakeUs s.now 32)).bump R.PWR_CNT_RESUME.COUNT
    (s.raise R.PWR_INTSTAT.RESUME).event 0x1002 (val1 := s.rd R.PWR_DIP.DIP)

/-- HU reaches the reset level in the same IO cycle: the command that follows this one (R516). -/
def State.collapseNext (s : State) : Bool :=
  match s.pending with
  | .huResetLevel :: _ => true
  | _ => false

/-- The module resumes where it is BRAKED, not by HALT, and the window of 20 ms is complete (R512, R513), unless HU reaches the
reset level in that cycle (R516). -/
def State.resumeIfDue (s : State) : State :=
  match s.pwr.okSince with
  | some t =>
    if s.pstate = psBraked ∧ !s.collapseNext ∧ s.rd R.PWR_STAT.BCAUSE ≠ 3 ∧ t + 20 * ms ≤ s.now then s.resumeBrake else s
  | none => s

/-- The marker's bytes (Table 16-3). -/
def State.marker (s : State) : List Byte :=
  let flags := s.pwr.qabort.toNat + 2 * (!s.img.staged.isEmpty || !s.running .jrn).toNat +
    4 * (s.mtr.ckpt.isSome || s.mtr.ckptQueued).toNat + 8 * (!s.evt.tailQ.isEmpty).toNat
  withCrc (bytesLE 0x4B524D43 4 ++ bytesLE 1 2 ++ bytesLE (s.rd R.PWR_STAT.BCAUSE) 1 ++ bytesLE flags 1 ++
    bytesLE (s.rd R.PWR_CNT_BRAKE.COUNT) 4 ++ zeros 4 ++ bytesLE (s.rd64 R.PWR_BRK_LO.addr R.PWR_BRK_HI.addr) 8 ++
    bytesLE s.mtNs 8 ++ bytesLE s.evt.next 8 ++ zeros 20)

/-- A bound of a hold or a drain that expires before an instant does so (R75). -/
def State.expireBefore (s : State) (at_ : Nat) : State :=
  if s.sch.nextBound.any (· ≤ at_) then s.holdExpiry else s

/-- BRAKE_MARKER_WRITTEN: when every step has completed, at 2,650 µs at the latest (R510, R511). The hold bound, 2,000 µs,
has expired by then (R75). -/
def State.brakeMarker (s : State) : State :=
  if s.pstate ≠ psBraking then s
  else
    let end_ := s.pwr.brakeAt + 2650 * us
    let s := if s.brakeDone then s else ((s.expireBefore end_).expireBefore end_).advance end_
    let s := (s.putBytes s.markerAt s.marker).raise R.PWR_STAT.MKVALID
    let s := (s.wr R.PWR_STAT.PSTATE psBraked).wrb R.PWR_STAT.HALTED (s.rd R.PWR_STAT.BCAUSE == 3)
    let s := (s.wr R.PWR_BRKTIME.TBRAKED (s.brakeUs s.now 16)).wr R.PWR_BRKTIME.THELD
      (s.brakeUs (s.pwr.heldAt.getD s.now) 16)
    ((s.raise R.PWR_INTSTAT.BRAKED).event 0x1001).resumeIfDue

def execBrakeMarkerWritten (s : State) : Host.Outcome State Fault Refusal := .next s.brakeMarker

/-- VIN_RESUME_LEVEL (R512). -/
def execVinResumeLevel (r : Rails) (s : State) : Host.Outcome State Fault Refusal :=
  .next (if r.vin < vResume then s else (s.rails r).vinGood r)

/-- RESUME_WINDOW_COMPLETE (R512 to R515): VIN has been good for 20 ms; the module resumes if it is BRAKED and not by HALT. -/
def State.windowComplete (s : State) : State :=
  match s.pwr.okSince with
  | some t => if s.pstate = psBraked then (s.advance (t + 20 * ms)).resumeIfDue else s
  | none => s

def execResumeWindowComplete (s : State) : Host.Outcome State Fault Refusal := .next s.windowComplete

/-- HU_RESET_LEVEL (R512, R516): HU below the reset level resets the module. -/
def execHuResetLevel (s : State) : Host.Outcome State Fault Refusal :=
  .next (
    if !s.pwr.released then s
    else
      let s : State := { s.clear R.PWR_STAT.HUOK with pwr := { s.pwr with released := false } }
      s.moduleReset rcHucollapse)

end Sys2Proof.Machine
end

