-- ==== Sys2Proof/Machine/RomVault.lean ====
section
/-!
DEFINITION. The ROM's bring-up of the vault (R405 to R409, R427, R428, R430) and enrolment (R407).
-/

namespace Sys2Proof.Machine

/-- KEY_PUF.STATE (Table 12-14). -/
def pufOk : Nat := 1
def pufFail : Nat := 2
def pufNoHelper : Nat := 3

/-! The helper record (Table 12-1). -/

def helperAt : Nat := norBase + 0x40000
def helperLen : Nat := 1316

/-- The flash holds a helper record: its MAGIC and VER (notes/assumptions/50). -/
def State.helperFound (s : State) : Bool := s.num helperAt 4 == 0x46504C48 && s.num (helperAt + 4) 2 == 1

/-- The key-check value of a key (R406). -/
def kcv (k : List Byte) : List Byte := (hmac k (ascii "PUF-CHECK")).take 16

/-- R406: the record's CRC, and its KCV against the key. -/
def State.helperAccepts (s : State) (k : List Byte) : Bool :=
  crcOk (s.bytes helperAt helperLen) && s.bytes (helperAt + 16) 16 == kcv k

/-- The record of an enrolment. -/
def helperRecord (cnt : Nat) (k offset : List Byte) : List Byte :=
  let ofs := (offset ++ zeros 1278).take 1278
  let ofs := ofs.take 1277 ++ (ofs.drop 1277).map (· &&& 0x0F#8)
  withCrc (bytesLE 0x46504C48 4 ++ bytesLE 1 2 ++ zeros 2 ++ bytesLE cnt 4 ++ zeros 4 ++ kcv k ++ ofs ++ zeros 2)

/-- Enrolment (R407): a secret from the DRBG, K_PUF its digest, the record in flash. -/
def State.enrol (s : State) : State :=
  let k := sha256 (drbgBytes s.fresh 134)
  let cnt := if s.helperFound then s.num (helperAt + 8) 4 + 1 else 1
  let s := (s.drawn 5).putBytes helperAt (helperRecord cnt k s.start.pufOffset)
  let s : State := { s with key := { s.key with kPuf := some (BitVec.ofNat 256 (natBE k)) } }
  (s.raise R.KEY_PUF.ENROLLED).event 0x0C01 (val1 := cnt)

/-- K_PUF as bytes, where it has been rebuilt. -/
def State.kPufBytes (s : State) : Option (List Byte) := s.key.kPuf.map fun k => bytesBE k.toNat 32

/-- A new vault seed where no copy verifies (R408). -/
def State.newSeed (s : State) (kp : List Byte) : State :=
  let vs := drbgBytes s.fresh 32
  let nonce := drbgBytes (s.fresh + 1) 12
  let s := s.drawn 2
  let s := s.write mEngine (mramBase + 0x7FF000) (seedCopy kp 1 0 nonce vs)
  let s : State := { s with key := { s.key with seed := BitVec.ofNat 256 (natBE vs) } }
  ((s.raise R.KEY_PUF.NEWSEED).wr R.KEY_TAMP.TPOL 0).event 0x0C02

/-- The seed in use (R408): the valid copy with the higher count, or a new one. -/
def State.loadSeed (s : State) (kp : List Byte) : State :=
  match (seedRecord kp).best s with
  | none => s.newSeed kp
  | some b =>
    let vs := (seedOpen kp b).getD []
    ({ s with key := { s.key with seed := BitVec.ofNat 256 (natBE vs) } } : State).wr R.KEY_TAMP.TPOL (numAt b 5 1)

/-- The tamper response that the ROM gives (R427). -/
def State.romTamper (s : State) : State :=
  s.eraseSeed.event 0x0C03 (val1 := s.rd R.RTC_TLATCH.FIRED)

/-- R428: UNKNOWN under the policy of the valid copy. -/
def State.romUnknown (s : State) (kp : List Byte) : State :=
  match (seedRecord kp).best s with
  | none => s
  | some b => if numAt b 5 1 = 0 then s.romTamper else s.event 0x0C04

/-- Slots 0 and 1, K_INT (R409, R412). -/
def State.fillRoots (s : State) (kp : List Byte) : State :=
  let root := kdf kp (ascii "VAULT-ROOT") (bytesBE s.key.seed.toNat 32)
  let d := ecPriv (natBE (kdf kp (ascii "DEVICE-ID") [] 384))
  let s := s.setKslot 0
    { kind := kdRoot, parent := 0xFF, usage := 0x0438, cmask := 0x07FF, purpose := 1, material := root }
  let s := s.setKslot 1
    { kind := kdEcPriv, parent := 0xFF, usage := 0x0140, purpose := 2, material := ecPair d }
  { s with key := { s.key with kInt := BitVec.ofNat 256 (natBE (kdf root (ascii "VAULT-INT") [])) } }

/-- The vault from K_PUF on: latch and policy, seed, root, slots. -/
def State.vaultFrom (s : State) (kp : List Byte) : State :=
  let s := if s.rd R.RTC_TLATCH.LATCH = 2 then s.romUnknown kp else s
  ((s.loadSeed kp).fillRoots kp).wr R.KEY_PUF.STATE pufOk

/-- The PUF's reading tried against the helper data: K_PUF where it agrees. -/
def State.pufTry (s : State) (f : RomFacts) : State :=
  match f.puf with
  | some x =>
    let k := sha256 (bytesLE x.toNat 134)
    if s.helperAccepts k then { s with key := { s.key with kPuf := some (BitVec.ofNat 256 (natBE k)) } } else s
  | none => s

/-- The vault opened with K_PUF, or left shut without it. -/
def State.vaultOpen (s : State) : State :=
  match s.kPufBytes with
  | some kp => s.vaultFrom kp
  | none => (s.wr R.KEY_PUF.STATE pufFail).event 0x0C00

/-- The DRBG instantiated, or in ERROR where the start-up test failed (R424). -/
def State.drbgStart (s : State) (pass : Bool) : State := if pass then s.wr R.KEY_DRBG.STATE drbgReady else s.drbgFails

/-- Step 3 of a start: the DRBG, the latch, the PUF root, the vault. The ROM's own draws do not look at the DRBG's state
(notes/assumptions/166). -/
def State.vaultStart (s : State) (f : RomFacts) : State :=
  let s := (s.drbgStart f.entropyPass).wr R.KEY_PUF.CORR (min f.corrected 0xFFFF)
  let s : State := { s with start := { s.start with pufOffset := f.offset } }
  let s := if s.rd R.RTC_TLATCH.LATCH = 1 then s.romTamper else s
  let s := if s.helperFound then s.pufTry f else (s.wr R.KEY_PUF.STATE pufNoHelper).enrol
  s.vaultOpen

end Sys2Proof.Machine
end

