-- ==== Sys2Proof/Machine/Upd.lean ====
section
/-!
DEFINITION. The commands of the update loader, the BULK exchange, handover and recovery mode (ch15).
-/

namespace Sys2Proof.Machine

/-! Bringing a bundle in (R482 to R484). -/

/-- A BULK frame of a kind: taken, and served by the loader in RUN. -/
def State.bulkIn (s : State) (kind src : Nat) (x : BulkMsg) (f : State → State) : State :=
  let s := s.takeInbox tyBulk src x.bytes
  if s.running .upd && x.kind == kind then f s else s

/-- A frame of the transfer in progress: its XID, from the OPEN's source; others are ignored. -/
def State.bulkOf (s : State) (src : Nat) (x : BulkMsg) (f : UpdXfer → State → State) : State :=
  match s.upd.xfer with
  | some y => if y.src = src ∧ y.xid = x.xid then f y s else s
  | none => s

/-- The slot that an OPEN fills: the one that is not running. -/
def State.spareSlot (s : State) : Nat := 1 - s.runSlot

def State.slotState (s : State) (k : Nat) : Nat := s.rd (R.UPD_SLOT_STAT.STATE k)

/-- A slot that an OPEN or an ERASE may clear (Table 15-8). -/
def State.mayErase (s : State) (k : Nat) : Bool :=
  k != s.runSlot && [slEmpty, slVerified, slGood, slBad].contains (s.slotState k)

/-- The code that answers an OPEN: OK where it is accepted (R483). -/
def State.openCode (s : State) (blen : Nat) : Nat :=
  if s.updBusy || s.upd.xfer.isSome || s.upd.verifying.isSome || s.upd.erase.isSome then ucBusy
  else if s.rd R.UPD_PHASE.PHASE ≠ phIdle ∨ !s.mayErase s.spareSlot then ucState
  else if slotSize < blen then ucBadpart
  else ucOk

/-- OPEN (R483): refused, or the slot becomes RECEIVING and its erase starts. -/
def State.bulkOpen (s : State) (src : Nat) (x : BulkMsg) : State :=
  let c := s.openCode x.size
  if c ≠ ucOk then s.bulkAnswer src { kind := 2, xid := x.xid, status := c }
  else
    let k := s.spareSlot
    let y : UpdXfer := { src := src, xid := x.xid, slot := k, blen := x.size, lastData := s.now }
    let s := (s.setSlot k slReceiving).bump R.UPD_CNT_BULKRX.COUNT
    let s : State := { s with upd := { s.upd with xfer := some y, erase := some { slot := k, forOpen := true } } }
    (((s.wr R.UPD_XFER.XID x.xid).wr R.UPD_XFER.SRC src).wr R.UPD_XOFS.OFS 0).raise R.UPD_STAT.XFER

def execBulkOpen (src : Nat) (x : BulkMsg) (s : State) : Host.Outcome State Fault Refusal :=
  .next (s.bulkIn 1 src x fun s => s.bulkOpen src x)

/-- A DATA frame that the loader takes: in offset order, 1 to 1,024 bytes, at most 32 KiB unacknowledged. -/
def UpdXfer.takes (y : UpdXfer) (x : BulkMsg) : Bool :=
  !y.ended && x.offset == y.expected && 1 ≤ x.size && x.size ≤ 1024 && x.data.length == x.size
    && y.expected + x.size ≤ y.blen && y.expected + x.size ≤ y.programmed + 32 * 1024

/-- DATA (R483): buffered, or answered with the offset expected. -/
def State.bulkData (s : State) (x : BulkMsg) (y : UpdXfer) : State :=
  if y.takes x then
    let y := { y with buf := y.buf ++ x.data, expected := y.expected + x.size, lastData := s.now }
    ({ s with upd := { s.upd with xfer := some y } } : State).bump R.UPD_CNT_BULKRX.COUNT
  else
    let s : State := { s with upd := { s.upd with xfer := some { y with lastData := s.now } } }
    s.bulkAnswer y.src { kind := 4, xid := y.xid, offset := y.expected }

def execBulkData (src : Nat) (x : BulkMsg) (s : State) : Host.Outcome State Fault Refusal :=
  .next (s.bulkIn 3 src x fun s => s.bulkOf src x fun y s => s.bulkData x y)

/-- The flash offset of the block in hand. -/
def UpdXfer.flashOffset (y : UpdXfer) : Nat := slotBase y.slot - norBase + y.programmed

/-- A 4,096-byte block checked and programmed, or not (R483, R484). -/
def State.blockEnd (s : State) (r : FlashEnd) (y : UpdXfer) (data : List Byte) : State :=
  let c := s.blockCheck y data
  if c ≠ ucOk then (s.bump R.UPD_CNT_CRCERR.COUNT).dropXfer y slBad (some c)
  else
    match r with
    | .ok => s.blockDone y data
    | .failed => ((s.wr R.UPD_FADDR.FADDR y.flashOffset).updFail 2).dropXfer y slEmpty (some ucFlash)
    | .poison a => ((s.egressHalt 6 0 a).updFail 1).dropXfer y slEmpty (some ucPoison)

/-- BULK_BLOCK_PROGRAMMED: in RUN, and in DRAIN with the block in hand (R484). -/
def execBulkBlockProgrammed (r : FlashEnd) (s : State) : Host.Outcome State Fault Refusal :=
  .next (
    match s.upd.xfer with
    | some y =>
      match y.block with
      | some data => if s.working .upd then s.blockEnd r y data else s
      | none => s
    | none => s)

/-- END (R483): with data missing it is answered with the offset expected. -/
def State.bulkEnd (s : State) (y : UpdXfer) : State :=
  if y.expected < y.blen then s.bulkAnswer y.src { kind := 4, xid := y.xid, offset := y.expected }
  else
    let s : State := { s with upd := { s.upd with xfer := some { y with ended := true } } }
    let s := s.bump R.UPD_CNT_BULKRX.COUNT
    if y.programmed = y.blen ∧ !y.ended then s.startVerify y.slot else s

def execBulkEnd (src : Nat) (x : BulkMsg) (s : State) : Host.Outcome State Fault Refusal :=
  .next (s.bulkIn 5 src x fun s => s.bulkOf src x fun y s => s.bulkEnd y)

/-- ABORT from the sender abandons the transfer. -/
def execBulkAbort (src : Nat) (x : BulkMsg) (s : State) : Host.Outcome State Fault Refusal :=
  .next (s.bulkIn 7 src x fun s => s.bulkOf src x fun y s => (s.bump R.UPD_CNT_BULKRX.COUNT).dropXfer y slEmpty none)

/-- TRANSFER_TIMEOUT: ten seconds without a DATA frame. -/
def execTransferTimeout (s : State) : Host.Outcome State Fault Refusal :=
  .next (
    match s.upd.xfer with
    | some y => if y.ended then s else (s.advance (y.lastData + 10 * sec)).dropXfer y slEmpty none
    | none => s)

/-- FLASH_ERASE_COMPLETE: of an accepted OPEN, answered now, or of an ERASE (R483, R484, R496). -/
def State.eraseEnd (s : State) (ok : Bool) (e : UpdErase) : State :=
  let s : State := { s with upd := { s.upd with erase := none } }
  let bad := !ok
  let s := if bad then (s.wr R.UPD_FADDR.FADDR (slotBase e.slot - norBase)).updFail 2
    else s.unlist (slotBase e.slot) slotSize
  if e.forOpen then
    match s.upd.xfer with
    | some y =>
      if bad then s.dropXfer y slEmpty (some ucFlash)
      else
        let s : State := { s with upd := { s.upd with xfer := some { y with opened := true } } }
        s.bulkAnswer y.src { kind := 2, xid := y.xid, status := ucOk }
    | none => s
  else s.updDone (if bad then ucFlash else ucOk)

def execFlashEraseComplete (ok : Bool) (s : State) : Host.Outcome State Fault Refusal :=
  .next (
    match s.upd.erase with
    | some e => if s.running .upd then s.eraseEnd ok e else s
    | none => s)

/-! Loader commands (R496). -/

def execUpdErase (slot : Nat) (s : State) : Host.Outcome State Fault Refusal :=
  onUnit (slot < 2) (s.updCmd 1 slot (s.mayErase slot && s.upd.erase.isNone) fun s =>
    { s.setSlot slot slEmpty with upd := { s.upd with job := some .erase, erase := some { slot := slot, forOpen := false } } })

/-- VERIFY: on a slot RECEIVED, or EMPTY with data. -/
def execUpdVerify (slot : Nat) (s : State) : Host.Outcome State Fault Refusal :=
  let st := s.slotState slot
  let ok := s.upd.verifying.isNone && (st == slReceived || (st == slEmpty && s.slotData slot))
  onUnit (slot < 2) (s.updCmd 2 slot ok fun s =>
    { s with upd := { s.upd with job := some .verify, verifying := some slot } })

/-- A verification's result answered to the transfer that asked for it, or to the command. -/
def State.verifyAnswer (s : State) (r : Nat) : State :=
  match s.upd.xfer with
  | some y => (s.bulkAnswer y.src { kind := 6, xid := y.xid, status := r }).endXfer
  | none => s.updDone r

/-- VERIFY_COMPLETE: the result to the transfer's sender, or to UPD_CMD. -/
def State.verifyEnd (s : State) (k : Nat) : State :=
  match ({ s with upd := { s.upd with verifying := none } } : State).verifySlot k with
  | (r, s) => s.verifyAnswer r

def execVerifyComplete (s : State) : Host.Outcome State Fault Refusal :=
  .next (
    match s.upd.verifying with
    | some k => if s.running .upd then s.verifyEnd k else s
    | none => s)

def execUpdStage (slot : Nat) (s : State) : Host.Outcome State Fault Refusal :=
  onUnit (slot < 2) (s.updCmd 3 slot (s.slotState slot == slVerified && s.rd R.UPD_PHASE.PHASE == phIdle) fun s =>
    { s with upd := { s.upd with job := some .stage, staged := slot } })

def execStageComplete (s : State) : Host.Outcome State Fault Refusal :=
  .next (if s.running .upd && s.upd.job == some .stage then s.stageDone s.upd.staged else s)

/-- The slot field as it stands, for operations that name no slot. -/
def State.cmdSlot (s : State) : Nat := s.rd R.UPD_CMD.SLOT

def execUpdUnstage (s : State) : Host.Outcome State Fault Refusal :=
  .next (s.updCmd 4 s.cmdSlot (s.rd R.UPD_PHASE.PHASE == phStaged) fun s =>
    (((s.unpin (s.rd R.IMG_LBANK.NEXT)).unstageBays).wr R.UPD_PHASE.PHASE phIdle).updDone ucOk)

/-- A slot made the TRIAL slot for the next start (Table 15-8). -/
def State.makeTrial (s : State) (slot : Nat) : State :=
  let s := s.wr (R.UPD_SLOT_STAT.STATE slot) slTrial
  (s.putBoot { s.boot.setSlot slot slTrial with act := slot, attempt := false, swmt := 0 }).showVersions

def execUpdActivate (slot : Nat) (s : State) : Host.Outcome State Fault Refusal :=
  onUnit (slot < 2) (s.updCmd 5 slot (s.slotState slot == slVerified) fun s => (s.makeTrial slot).updDone ucOk)

/-- CONFIRM (Table 15-8): the SVN floor and the site anchors with it. -/
def State.confirmSlot (s : State) (slot : Nat) : State :=
  let m := s.manifest slot
  let b := s.boot
  let anchors := match m.ofType 8 with
    | p :: _ => s.bytes (slotBase slot + p.offset) p.len ++ zeros (128 - p.len)
    | [] => b.anchors
  let s := s.wr (R.UPD_SLOT_STAT.STATE slot) slGood
  let s := s.putBoot { b.setSlot slot slGood with svn := max b.svn m.svn, anchors := anchors }
  s.showVersions.event 0x0F05 (unit := slot)

def execUpdConfirm (slot : Nat) (s : State) : Host.Outcome State Fault Refusal :=
  onUnit (slot < 2) (s.updCmd 6 slot (slot == s.runSlot && s.slotState slot == slTrial) fun s =>
    (s.confirmSlot slot).updDone ucOk)

/-- RECOVER: the RECOVERY bit, for the next start; UPD_RECOVERY is recorded with it (notes/assumptions/52). -/
def execUpdRecover (s : State) : Host.Outcome State Fault Refusal :=
  .next (s.updCmd 7 s.cmdSlot true fun s =>
    ((s.putBoot { s.boot with recovery := true }).event 0x0F07 (unit := s.boot.act)).updDone ucOk)

/-! Handover (R487 to R495). -/

/-- MIGRATION_COMPLETE: the new retained ranges lie in UPD_MSTAGE; READY (R488). -/
def execMigrationComplete (s : State) : Host.Outcome State Fault Refusal :=
  .next (
    if s.rd R.UPD_PHASE.PHASE = phHold ∧ s.heldForSwitch ∧ s.running .upd then
      ((s.migrate s.upd.staged).raise R.UPD_INTSTAT.MIGDONE).wr R.UPD_PHASE.PHASE phReady
    else s)

/-- HOLDMAX expires in a later SYS cycle, of 4 ns: a COMMIT in its own comes too late (R495). -/
def State.holdLeft (s : State) : Bool :=
  match s.upd.holdEnds with
  | some t => s.now / 4 < t / 4
  | none => true

/-- COMMIT (R490): the commit phase; the command completes with GO. -/
def execUpdCommit (s : State) : Host.Outcome State Fault Refusal :=
  .next (s.updCmd 8 s.cmdSlot (s.rd R.UPD_PHASE.PHASE == phReady && s.holdLeft) fun s => s.commitPhase s.upd.staged)

/-- ABORT (R496): with ARMED the switch point is cancelled, with HOLD and READY the handover aborts (R491). -/
def execUpdAbort (s : State) : Host.Outcome State Fault Refusal :=
  let p := s.rd R.UPD_PHASE.PHASE
  .next (s.updCmd 9 s.cmdSlot (p == phArmed || p == phHold || p == phReady) fun s =>
    (if p = phArmed then s.cancelSwitch else s.updAbort).updDone ucOk)

/-- HOLDMAX_EXPIRY (R491). -/
def execHoldmaxExpiry (s : State) : Host.Outcome State Fault Refusal :=
  .next (
    match s.upd.holdEnds with
    | some t =>
      let s := s.advance t
      let p := s.rd R.UPD_PHASE.PHASE
      if p = phHold ∨ p = phReady then s.updAbort
      else if p = phCommit then s.moduleReset rcHandoverTmo
      else s
    | none => s)

/-- SWITCH_GO (R76). -/
def execSwitchGo (s : State) : Host.Outcome State Fault Refusal := .next s.switchGo

/-! Recovery mode (R497 to R499). -/

/-- A recovery message's head (R498): MAGIC, KIND, VER. -/
def recHead (kind : Nat) : List Byte := bytesLE 0x56434552 4 ++ bytesLE kind 1 ++ bytesLE 1 1 ++ zeros 2

/-- A message's UDP payload: ANNOUNCE and STATUS (Table 15-12), and the TFTP messages of RFC 1350, whose numbers are big-endian. -/
def State.recBytes (s : State) (m : RecMsg) : List Byte :=
  match m with
  | .announce reason puf nonce =>
    let q := if puf = pufFail then zeros 64 else (s.kslot 1).ecQ
    recHead 1 ++ macBytes s.ownMac ++ zeros 2 ++ bytesLE 0x1640 4 ++ bytesLE reason 1 ++ bytesLE puf 1 ++
      bytesLE (s.slotState 0) 1 ++ bytesLE (s.slotState 1) 1 ++ bytesLE Config.romVersion.toNat 8 ++ bytesBE nonce.toNat 16 ++
      q ++ zeros (64 - q.length)
  | .status op result received =>
    recHead 3 ++ macBytes s.ownMac ++ bytesLE op 1 ++ bytesLE result 1 ++ bytesLE received 4 ++ zeros 12
  | .tftpRead file => bytesBE 1 2 ++ file.takeWhile (· != 0#8) ++ zeros 1 ++ ascii "octet" ++ zeros 1
  | .tftpAck block => bytesBE 4 2 ++ bytesBE (block % 65536) 2
  | .tftpError code => bytesBE 5 2 ++ bytesBE code 2 ++ zeros 1

/-- A message of the ROM. -/
def State.recSend (s : State) (m : RecMsg) : State :=
  { s with upd := { s.upd with lastRecovery := some m, lastRecBytes := s.recBytes m } }

/-- RECOVERY_ANNOUNCE_TIMER: every 1 s until an ORDER is accepted (R498). -/
def execRecoveryAnnounceTimer (s : State) : Host.Outcome State Fault Refusal :=
  .next (
    match s.upd.recovery with
    | some reason =>
      if s.upd.ordered then s
      else
        let s := s.advance s.upd.announceAt
        let nonce : BitVec 128 := (Config.free256 s.fresh).setWidth 128
        let s : State := { s with upd := { s.upd with nonce := nonce, announceAt := s.now + sec } }
        s.drawn.recSend (.announce reason (s.rd R.KEY_PUF.STATE) nonce)
    | none => s)

/-- An entry of the recovery log (R499); its bytes' layout is not stated (R474). -/
def State.recLog (s : State) (op result tool version : Nat) : State :=
  let a := norBase + 0x20000 + 64 * (s.upd.log.length % 1024)
  let bytes := bytesLE (Config.free256 s.fresh).toNat 32 ++ bytesLE (Config.free256 (s.fresh + 1)).toNat 32
  let s := (s.taken 2).putBytes a bytes
  { s with upd := { s.upd with log := s.upd.log ++ [{ op := op, result := result, tool := tool, version := version }] } }

/-- An order ends: its entry in the log, STATUS to the tool. -/
def State.recDone (s : State) (op result tool received version : Nat) : State :=
  (s.recLog op result tool version).recSend (.status op result received)

/-- An ORDER for this module: its MAC, and the nonce of the current ANNOUNCE (R498). -/
def State.recOrder (s : State) (o : RecOrder) (op : Nat) (f : State → State) : State :=
  if s.upd.recovery.isSome && s.upd.lastRecovery.isSome && o.op == op && o.mac == s.ownMac && o.nonce == s.upd.nonce then f s
  else s

/-- It is accepted: no further ANNOUNCE. -/
def State.recAccept (s : State) : State := { s with upd := { s.upd with ordered := true } }

/-- LOAD: SLOT must not be the ACT slot if that is GOOD; the slot erased, the read request sent. -/
def State.recLoad (s : State) (o : RecOrder) : State :=
  let b := s.boot
  if s.upd.tftp.isSome then s.recDone 1 ucBusy o.tool 0 0
  else if 1 < o.slot ∨ (o.slot = b.act ∧ b.slot o.slot = slGood ∧ s.bootRec.isSome) then s.recDone 1 ucState o.tool 0 0
  else
    let s := (s.recAccept.unlist (slotBase o.slot) slotSize).setSlot o.slot slReceiving
    let s : State := { s with upd := { s.upd with tftp := some { slot := o.slot, tool := o.tool, file := o.file, last := s.now } } }
    s.recSend (.tftpRead o.file)

def execRecoveryLoad (o : RecOrder) (s : State) : Host.Outcome State Fault Refusal :=
  .next (s.recOrder o 1 fun s => s.recLoad o)

/-- ENROL: only while the recovery input is held (R499, R407). -/
def execRecoveryEnrol (o : RecOrder) (s : State) : Host.Outcome State Fault Refusal :=
  .next (s.recOrder o 2 fun s =>
    if s.on R.PWR_STAT.RCV then s.recAccept.enrol.recDone 2 ucOk o.tool 0 0 else s.recDone 2 ucState o.tool 0 0)

/-- The RECOVERY bit cleared, where there is a record. -/
def State.clearRecovery (s : State) : State :=
  if s.bootRec.isSome then s.putBoot { s.boot with recovery := false } else s

/-- RESTART. -/
def execRecoveryRestart (o : RecOrder) (s : State) : Host.Outcome State Fault Refusal :=
  .next (s.recOrder o 3 fun s => ((s.recAccept.clearRecovery).recDone 3 ucOk o.tool 0 0).moduleReset rcRecovery)

/-- A LOAD ends without a bundle to start. -/
def State.tftpEnd (s : State) (t : UpdTftp) (st result : Nat) : State :=
  let s : State := { s with upd := { s.upd with tftp := none } }
  let s := (s.setSlot t.slot st).wr (R.UPD_SLOT_STAT.RESULT t.slot) result
  s.recDone 1 result t.tool t.received 0

/-- The whole bundle is there: VERIFY, STATUS; on OK the slot is TRIAL as ACT and the module restarts. -/
def State.tftpVerify (s : State) (t : UpdTftp) : State :=
  let (r, s) := ({ s.setSlot t.slot slReceived with upd := { s.upd with tftp := none } } : State).verifySlot t.slot
  let s := s.recDone 1 r t.tool t.received (s.manifest t.slot).version
  if r = ucOk then ((s.makeTrial t.slot).clearRecovery).moduleReset rcRecovery else s

/-- The checks of R483 at their points, once the bytes from `before` to `after` are in flash. -/
def State.tftpChecks (s : State) (slot before after : Nat) (last : Bool) : Nat :=
  let m := s.manifest slot
  let start := (after - 1) / 4096 * 4096
  let crc :=
    if (after % 4096 = 0 ∨ last) ∧ 4096 ≤ start ∧ m.body ≤ start then
      if s.blockOk slot m.body m.blen ((start - m.body) / 4096) (s.bytes (slotBase slot + start) 4096) then ucOk else ucCrc
    else ucOk
  if crc ≠ ucOk then crc
  else if before < 4096 then (if 4096 ≤ after then s.earlyCheck slot 0 after else ucOk)
  else s.earlyCheck slot before after

/-- The next DATA block: programmed, checked, acknowledged. -/
def State.tftpBlock (s : State) (t : UpdTftp) (data : List Byte) : State :=
  let after := t.received + data.length
  if slotSize < after then (s.tftpEnd t slEmpty ucBadpart).recSend (.tftpError 3)
  else
    let last := data.length < 512
    let s := s.putBytes (slotBase t.slot + t.received) data
    let u := { t with block := t.block + 1, received := after, repeats := 0, last := s.now }
    let c := if data.isEmpty then ucOk else s.tftpChecks t.slot t.received after last
    if c ≠ ucOk then s.tftpEnd u slBad c
    else
      let s : State := { s with upd := { s.upd with tftp := some u } }
      let s := s.recSend (.tftpAck u.block)
      if last then s.tftpVerify u else s

/-- TFTP_DATA_RECEIVED (R499); a block already programmed is acknowledged again. -/
def execTftpDataReceived (block : Nat) (data : List Byte) (s : State) : Host.Outcome State Fault Refusal :=
  .next (
    match s.upd.tftp with
    | some t =>
      if s.upd.recovery.isNone ∨ 512 < data.length then s
      else if block % 65536 = (t.block + 1) % 65536 then s.tftpBlock t data
      else if block % 65536 = t.block % 65536 ∧ t.block ≠ 0 then s.recSend (.tftpAck t.block)
      else s
    | none => s)

/-- TFTP_RETRANSMIT_TIMER: after 1 s without DATA the last acknowledgement again; after 5 repeats STATUS FLASH (R499). -/
def execTftpRetransmitTimer (s : State) : Host.Outcome State Fault Refusal :=
  .next (
    match s.upd.tftp with
    | some t =>
      let s := s.advance (t.last + sec)
      if 5 ≤ t.repeats then s.tftpEnd t slEmpty ucFlash
      else
        let s : State := { s with upd := { s.upd with tftp := some { t with repeats := t.repeats + 1, last := s.now } } }
        s.recSend (if t.block = 0 then .tftpRead t.file else .tftpAck t.block)
    | none => s)

end Sys2Proof.Machine
end

