-- ==== Sys2Proof/Machine/RomStart.lean ====
section
/-!
DEFINITION. The boot ROM's part of a start: self-test, vault, choice of the slot, checks, parts placed, measurement, and the
entry into recovery mode (R546 steps 1 to 6).
-/

namespace Sys2Proof.Machine

/-! Self-test (R400, R401, R561). -/

/-- A failing row mapped to a free spare of its bank; whether it could be. -/
def State.mapRow (s : State) (bank row : Nat) : Bool × State :=
  if (List.range 8).any fun i => (s.spare (8 * bank + i)).valid && (s.spare (8 * bank + i)).row == row then (true, s)
  else
    match s.freeSpare bank with
    | some i => (true, (s.setSpare (8 * bank + i) { row := row, valid := true }).bump R.MEM_BIST.REPAIRED)
    | none => (false, s)

/-- The soft spare map's two copies (R397, R567). -/
def softMap : TwoCopy where
  at0 := mramBase + 0x7F8000
  at1 := mramBase + 0x7F8400
  len := 552
  cntOfs := 544
  valid := crcOk

/-- The soft map loaded: its valid entries, where no entry stands already. -/
def State.loadSoftMap (s : State) : State :=
  match softMap.best s with
  | none => s
  | some b =>
    s.each (List.range 136) fun s e =>
      let v := numAt b (4 * e) 4
      if v.testBit 15 && !v.testBit 16 && !(s.spare e).valid then s.setSpare e { row := v % 512, valid := true } else s

/-- The self-test: whether it passes, and its results in MEM_BIST. -/
def State.selfTest (s : State) (f : RomFacts) : Bool × State :=
  let (mapped, s) := f.badRows.foldl (fun (acc : Bool × State) (b, r) =>
    let (ok, s) := acc.2.mapRow b r
    (acc.1 && ok, s)) (true, s)
  let pass := f.bistPass && f.checkerPass && mapped
  let s := ((s.raise R.MEM_BIST.DONE).wrb R.MEM_BIST.PASS pass).wrb R.MEM_BIST.CHKPASS f.checkerPass
  (pass, (if pass then s else (s.wr R.MEM_BIST.FAILGRP f.failGroup).event 0x0B06).loadSoftMap)

/-- A failed self-test: reset with BISTFAIL, or the ROM halts where the last reset had that cause already (R561). -/
def State.bistFail (s : State) : State :=
  if s.rd R.SYS_RSTCAUSE.CAUSE = rcBistfail then { s with start := { s.start with phase := 4 } }
  else s.moduleReset rcBistfail

/-! The slot (R485, R486, R497). -/

/-- A register's value that a slot's configuration gives. -/
def State.cfgField (s : State) (k : Nat) (f : Fld) : Nat := f.of (s.cfgValue k f.addr)

/-- The clean-stop marker where the configuration of a slot places it (R553). -/
def State.slotMarker (s : State) (k : Nat) : List Byte := s.bytes (mramBase + 64 * s.cfgField k R.PWR_CFG.MKBASE) 64

/-- It is valid (R511, Table 16-3). -/
def markerOk (b : List Byte) : Bool := numAt b 0 4 == 0x4B524D43 && numAt b 4 2 == 1 && crcOk b

/-- The checks of a start (Table 15-5) but for step 10, which the runtime makes. -/
def State.startCheck (s : State) (k : Nat) (anchors : List Byte) (floor : Nat) : Nat × State :=
  let m := s.manifest k
  let s := if trusted m.signer anchors then s.placeSigner m.signer else s
  let c := s.checkBundle k anchors floor
  (if c = ucBadcfg then ucOk else c, s)

/-- A slot is BAD: ACT goes to the other one where that is GOOD, with UPD_FALLBACK (Table 15-8). -/
def State.slotBad (s : State) (k code : Nat) : State :=
  let b := s.boot
  let good := b.slot (1 - k) == slGood
  let s := (s.wr (R.UPD_SLOT_STAT.STATE k) slBad).wr (R.UPD_SLOT_STAT.RESULT k) code
  let s := s.putBoot { b.setSlot k slBad with act := if good then 1 - k else b.act }
  if good then s.event 0x0F06 (unit := 1 - k) else s

/-- The boot record's states shown in the slot registers. -/
def State.showSlots (s : State) : State :=
  let b := s.boot
  (((s.showBoot b).wr (R.UPD_SLOT_STAT.STATE 0) b.stA).wr (R.UPD_SLOT_STAT.STATE 1) b.stB)

/-- The slot that the record asks for: ACT in TRIAL or GOOD, or the other one where it is GOOD; whether it is a fallback. -/
def BootRec.wanted (b : BootRec) : Option (Nat × Bool) :=
  let a := b.slot b.act
  if a = slTrial ∨ a = slGood then some (b.act, false)
  else if b.slot (1 - b.act) = slGood then some (1 - b.act, true) else none

/-- A TRIAL slot whose attempt is used up: started before, and not stopped cleanly; HANDOVER_TMO uses up none (R555). -/
def State.spent (s : State) (b : BootRec) (k : Nat) : Bool :=
  b.slot k == slTrial && b.attempt && !markerOk (s.slotMarker k) && s.rd R.SYS_RSTCAUSE.CAUSE != rcHandoverTmo

/-- The slot to start, tried in turn: at most three tries. The slot and whether the ROM fell back. -/
def State.pickSlot (s : State) (fell : Bool) : Nat → Option (Nat × Bool) × State
  | 0 => (none, s)
  | n + 1 =>
    let b := s.boot
    match b.wanted with
    | none => (none, s)
    | some (k, other) =>
      if s.spent b k then State.pickSlot (s.slotBad k (s.rd (R.UPD_SLOT_STAT.RESULT k))) true n
      else
        let (c, s) := s.startCheck k b.anchors b.svn
        if c = ucOk then (some (k, fell || other), s) else State.pickSlot (s.slotBad k c) true n

/-- No valid boot record: the slots against the vendor anchor only, the first that passes started as GOOD, with a new
record (R486). -/
def State.pickVendor (s : State) : Option (Nat × Bool) × State :=
  let (c0, s) := s.startCheck 0 [] 0
  if c0 = ucOk then (some (0, false), (s.putBoot { act := 0, stA := slGood }).showSlots)
  else
    let (c1, s) := s.startCheck 1 [] 0
    if c1 = ucOk then (some (1, false), (s.putBoot { act := 1, stB := slGood }).showSlots) else (none, s)

/-! Recovery mode (R497). -/

/-- The ROM enters recovery mode with a REASON (Table 15-12). -/
def State.enterRecovery (s : State) (reason : Nat) : State :=
  let s := s.wr R.MEM_PHASE.PHASE 3
  { s with start := { s.start with phase := 3 }, upd := { s.upd with recovery := some reason, announceAt := s.now } }

/-! Parts (R548). -/

/-- A part's bytes. -/
def State.partBytes (s : State) (k : Nat) (p : Part) : List Byte := s.bytes (slotBase k + p.offset) p.len

/-- A part placed for a start. The address of SVC_EXT is in no layout that the spec gives, and is free
(notes/assumptions/53). -/
def State.placePart (s : State) (k : Nat) (p : Part) : State :=
  if p.typ = 2 then s.write mEngine 0x09800000 (s.partBytes k p)
  else if p.typ = 3 then
    let a := 0x80000000 + 4096 * (Config.freeNat s.fresh % ((0x70000000 - 0x1000000) / 4096))
    (s.taken).write mEngine a (s.partBytes k p)
  else if p.typ = 4 then s.write mEngine (0x09000000 + p.target % 16 * 0x80000) (s.partBytes k p)
  else if p.typ = 5 then s.write mEngine (dataAddr (p.target % 16) 0) (s.partBytes k p)
  else s

/-- M extended for the manifest and each part (R478). -/
def State.extendBundle (s : State) (k : Nat) : State :=
  let m := s.manifest k
  let s := s.extendM (sha256 (s.bytes (slotBase k) (192 + 64 * m.nparts)))
  s.each m.parts fun s p => s.extendM p.digest

/-- The slot entered: ATTEMPT where it is in TRIAL, the parts, the measurement; SVC enters the runtime. -/
def State.enterSlot (s : State) (k : Nat) (fell : Bool) : State :=
  let b := s.boot
  let first := b.slot k == slTrial && !b.attempt
  let s := if first then s.putBoot { b with attempt := true } else s
  let s : State := { s with start := { s.start with phase := 1, slot := k, fellBack := fell, first := first } }
  let s := s.each (s.manifest k).parts fun s p => s.placePart k p
  (s.extendBundle k).showVersions

/-- The slot that R486 gives with a valid boot record, or recovery where none can run. -/
def State.slotOfRecord (s : State) : State :=
  match s.pickSlot false 3 with
  | (some (k, fell), s) => s.enterSlot k fell
  | (none, s) => s.enterRecovery 2

/-- What a search without a boot record has found, `t` the state after it. -/
def State.enterVendor (s : State) (rcv : Bool) (t : State) : Option (Nat × Bool) → State
  | some (k, fell) => if rcv then s.enterRecovery 3 else t.enterSlot k fell
  | none => t.enterRecovery 4

/-- The slot without a valid boot record. With the recovery input held a slot that could be started is left as it is. -/
def State.slotOfVendor (s : State) (rcv : Bool) : State :=
  let r := s.pickVendor
  s.enterVendor rcv r.2 r.1

/-- The slot where there is a boot record. The recovery input is the last of the cases (R497): held, it leaves the slots as they
are where one of them could be started. -/
def State.slotFrom (s : State) (b : BootRec) (rcv : Bool) : State :=
  if b.recovery then s.enterRecovery 1
  else if b.wanted.isNone then s.enterRecovery 2
  else if rcv && (s.pickSlot false 3).1.isSome then s.enterRecovery 3
  else s.slotOfRecord

/-- Steps 4 to 6: recovery mode, or a slot entered. -/
def State.chooseSlot (s : State) (rcv : Bool) : State :=
  match s.bootRec with
  | some b => s.showSlots.slotFrom b rcv
  | none => s.slotOfVendor rcv

/-- The ROM's part of a start. -/
def State.romStart (s : State) (f : RomFacts) : State :=
  let s : State := State.fieldSample { s with start := { s.start with phase := 1, origin := s.now } }
  let s := (s.wrb R.PWR_STAT.RCV f.rcv).backupCheck
  let (pass, s) := s.selfTest f
  if !pass then s.bistFail
  else
    let s := (s.wr R.MEM_PHASE.PHASE 1).vaultStart f
    if s.rd R.KEY_PUF.STATE = pufFail then s.showSlots.enterRecovery 5 else s.chooseSlot f.rcv

/-- MODULE_RESET_RELEASE (R546): once power is good (R506). -/
def execModuleResetRelease (f : RomFacts) (s : State) : Host.Outcome State Fault Refusal :=
  .next (if s.start.phase = 0 ∧ s.pwr.released then s.romStart f else s)

end Sys2Proof.Machine
end

