-- ==== Sys2Proof/Machine/Start.lean ====
section
/-!
DEFINITION. The vendor runtime's part of a start, the lock, the watchdog, the start record, the SYS commands (ch18).
-/

namespace Sys2Proof.Machine

/-! Choosing the kind (R555, R556). -/

def kindWarm : Nat := 1
def kindCold : Nat := 2

/-- A stop that counts as a crash (Table 18-6, R556). -/
def isCrash (cause : Nat) (marked : Bool) : Bool := (cause == rcWdt || cause == rcFatal) && !marked

/-- CRASHES and CRWIN_S updated at step 7. -/
def StartRec.crashed (r : StartRec) (crash : Bool) : StartRec :=
  if !crash then { r with crashes := 0 }
  else if r.crashes = 0 ∨ 600 ≤ r.crwin then { r with crashes := 1, crwin := 0 }
  else { r with crashes := r.crashes + 1 }

/-- Table 18-4: kind, ROLLBACK, CLEAN, FALLBACK. -/
def chooseKind (fell : Bool) (r : StartRec) (marker : Option Nat) : Nat × Bool × Bool × Bool :=
  if fell then (kindCold, false, false, true)
  else if r.reqkind = kindCold ∨ 3 ≤ r.crashes then (kindCold, false, false, false)
  else
    match marker with
    | some flags => (kindWarm, flags.testBit 1, true, false)
    | none => (kindWarm, true, false, false)

/-- Step 7: the kind in SYS_START, the crash count in the start record. -/
def State.chooseStart (s : State) : State :=
  let b := s.slotMarker s.runSlot
  let marker := if markerOk b then some (numAt b 7 1) else none
  let r := s.startRec.crashed (isCrash (s.rd R.SYS_RSTCAUSE.CAUSE) marker.isSome)
  let (kind, rollback, clean, fell) := chooseKind s.start.fellBack r marker
  let s := (s.wr R.SYS_START.KIND kind).wrb R.SYS_START.ROLLBACK rollback
  let s := (s.wrb R.SYS_START.CLEAN clean).wrb R.SYS_START.FALLBACK fell
  let s := (s.wrb R.SYS_START.FIRST s.start.first).wr R.SYS_START.CRASHES (min r.crashes 3)
  let s := s.putStartRec { r with crashes := if 3 ≤ r.crashes then 0 else r.crashes }
  { s with start := { s.start with kind := kind } }

/-! The configuration (R550, R551). -/

/-- Registers that no configuration may write: enables and commands (R550). -/
def cfgForbidden : List Nat :=
  ([UnitId.sch, .img, .jrn, .hop, .fab, .port 0, .port 1, .port 2, .port 3, .gate, .loop, .mtr, .can 0, .can 1, .can 2, .can 3,
    .mem, .key, .evt, .mch, .upd].map UnitId.base) ++
  [R.DIO_CTRL.addr, R.AIO_CTRL.addr, R.SYS_LOCK.addr, R.SYS_RST.addr, R.SYS_MTCMD.addr]

/-- Words of a MEM section's memory (R479: Tables 3-1, 4-14, 7-1, 8-15, 10-4, R27); a reserved target has none. -/
def memWords (target : Nat) : Nat :=
  match target with
  | 1 => 0x20000
  | 2 => 0x10000
  | 3 => 0x8000
  | 4 => 0x10000
  | 9 => 0x200000
  | t => if 5 ≤ t ∧ t ≤ 8 then 0x2000 else 0

/-- A REGS item that the loader refuses (R550). -/
def cfgItemBad (a : Nat) (v : Word) : Bool :=
  match regAt a with
  | none => true
  | some d =>
    cfgForbidden.contains a
      || (d.fields.any fun f => (f.acc == .sc || f.acc == .wo) && getField v f.lo f.w != 0)
      || (a == R.PWR_CFG.addr && 0x7F0000 ≤ 64 * R.PWR_CFG.MKBASE.of v)

/-- The configuration at an address stands against R550. -/
def State.cfgAccepted (s : State) (a : Nat) : Bool :=
  ((s.cfgRegs a).all fun (x, v) => !cfgItemBad x v)
    && (s.cfgMems a).all fun (t, w, bs) => w + (bs.length + 3) / 4 ≤ memWords t

/-- The configured own records (R125, R88). -/
def State.initOwn (s : State) : State :=
  let multi := s.multiPoints
  s.each (List.range s.ownCount) fun s i => s.initRecord i (multi.contains i)

/-- A configuration applied: every MEM section, then every REGS section (R550). -/
def State.applyCfg (s : State) (a : Nat) : State :=
  let s := s.each (s.cfgMems a) State.putMem
  let s := s.each (s.cfgRegs a) fun s (x, v) => s.cfgWrite 16 x v
  let s := (s.wr R.IMG_MADDR.WADDR 0).wr R.IMG_LBANK.ACT (s.rd R.IMG_LBANK.NEXT)
  s.initOwn

/-- The migrated image's header (R480), and whether the stored one serves the slot's CONFIG part. -/
def State.migTag (s : State) (k : Nat) (head image : List Byte) : List Byte :=
  (hmac (kdf s.kRoot (ascii "UPD-CFG") (bytesLE k 1)) (head ++ image)).take 16

def State.migrated? (s : State) (k : Nat) : Bool :=
  let a := migBase k
  let len := s.num (a + 40) 4
  let image := s.bytes (a + 64) (min len (1536 * 1024))
  let (c, n) := s.cfgPart k
  s.num a 4 == 0x4746434D && s.bytes (a + 8) 32 == sha256 (s.bytes c n) && s.num (a + 44) 4 == crc32c image
    && s.bytes (a + 48) 16 == s.migTag k (s.bytes a 48) image

/-- The configuration migrated to CFGNATIVE: what a new format changes is the runtime's own, and the image keeps its sections
(notes/assumptions/54). -/
def State.cfgMigrate (s : State) (k : Nat) : List Byte :=
  let (c, n) := s.cfgPart k
  splice (s.bytes c n) 4 (bytesLE (s.manifest k).cfgnative 2)

/-- The migrated image written to its area of flash, after the first release (R551). -/
def State.writeMigrated (s : State) (k : Nat) : State :=
  let (c, n) := s.cfgPart k
  let image := s.cfgMigrate k
  let head := bytesLE 0x4746434D 4 ++ bytesLE (s.manifest k).cfgnative 2 ++ zeros 2 ++ sha256 (s.bytes c n) ++
    bytesLE image.length 4 ++ bytesLE (crc32c image) 4
  let s := s.putBytes (migBase k) (head ++ s.migTag k head image ++ image)
  State.event { s with start := { s.start with migDue := false } } 0x0102 (unit := k)

/-- Step 9: checked, migrated where its format is older, applied; false where it is refused. -/
def State.loadCfg (s : State) (k : Nat) : Bool × State :=
  let (a, n) := s.cfgPart k
  let m := s.manifest k
  if !s.cfgOk a n m then (false, s)
  else
    let old := s.num (a + 4) 2 != m.cfgnative
    let stored := old && s.migrated? k
    let src := if stored then migBase k + 64 else a
    if !s.cfgAccepted src then (false, s)
    else
      let due := old && !stored
      let s : State := { s with start := { s.start with migDue := due } }
      let s := s.wrb R.SYS_START.MIGRATED due
      (true, (s.applyCfg src).wr R.PAIR_CFGID.CFGID m.cfgid)

/-! Restore (R492, R552, R554, R557). -/

/-- A task's journal place under a configuration: offset in MRAM, RETLEN. -/
structure JrnPlace where
  addr : Nat
  retlen : Nat

/-- A valid record of a task at a place: slot 0 or 1, RELCNT, C, data (R557). -/
structure JrnFound where
  relcnt : Nat
  c : Nat
  data : List Byte

def State.jrnAt (s : State) (t : Nat) (p : JrnPlace) (k : Nat) : Option JrnFound :=
  let b := s.bytes (p.addr + k * (24 + p.retlen)) (20 + p.retlen)
  if numAt b 0 2 = t ∧ numAt b 2 2 = p.retlen ∧ crcOk b then
    some { relcnt := numAt b 4 4, c := numAt b 8 8, data := (b.drop 16).take p.retlen }
  else none

/-- Of two valid records the newer: its RELCNT exceeds the other's by 1 to 2^31 − 1, modulo 2^32. -/
def JrnFound.newer (x y : JrnFound) : JrnFound :=
  let d := (y.relcnt + 2 ^ 32 - x.relcnt) % 2 ^ 32
  if 1 ≤ d ∧ d < 2 ^ 31 then y else x

def State.jrnFind (s : State) (t : Nat) (p : JrnPlace) : Option JrnFound :=
  match s.jrnAt t p 0, s.jrnAt t p 1 with
  | some x, some y => some (x.newer y)
  | some x, none => some x
  | none, y => y

/-- A task's place in the configuration of a slot, and in the running one. -/
def State.cfgPlace (s : State) (k t : Nat) : JrnPlace where
  addr := mramBase + 8 * s.cfgField k (R.IMG_TASK_JRN.JOFS t)
  retlen := s.cfgField k (R.IMG_TASK_RET.RETLEN t)

def State.runPlace (s : State) (t : Nat) : JrnPlace where
  addr := s.jrnSlot t 0
  retlen := s.retlen t

/-- Records in the old layout are used through the migration map: after a handover those with C below SWMT, at the first start of
a restart activation those that the slot's FROMVER names (R492). -/
structure OldRecords where
  use : Bool
  /-- Every record counts as old, or those with C below SWMT. -/
  all : Bool
  below : Nat

def State.oldRecords (s : State) (k : Nat) : OldRecords :=
  let b := s.boot
  let m := s.manifest k
  if b.swmt ≠ 0 ∧ b.act = k then { use := true, all := false, below := b.swmt }
  else if s.start.first then { use := m.fromver == (s.manifest (1 - k)).version && m.fromver != 0, all := true, below := 0 }
  else { use := false, all := false, below := 0 }

def OldRecords.covers (o : OldRecords) (x : JrnFound) : Bool := o.all || x.c < o.below

/-- The retained data that a warm start finds for a task: the record as it stands, the old records migrated, or none. The C
that goes with it, none for a migrated one. -/
def State.warmData (s : State) (k t : Nat) : Option (List Byte × Option Nat) :=
  let o := s.oldRecords k
  let asIs := (s.jrnFind t (s.runPlace t)).filter fun x => !o.covers x
  match asIs with
  | some x => some (x.data, some x.c)
  | none =>
    match s.mapPart k with
    | none => none
    | some a =>
      let es := (s.mapEntries a).filter (·.newTask == t)
      let old := fun u => (s.jrnFind u (s.cfgPlace (1 - k) u)).filter o.covers
      let reads := es.filter fun e => e.op != 2 && e.op != 3
      if !o.use || es.isEmpty || !(reads.all fun e => (old e.oldTask).isSome) then none
      else
        let get := fun u ofs n => match old u with | some x => (x.data.drop ofs).take n | none => zeros n
        some (migrated es get t (s.newRetInit k t), none)

/-- A task's two journal slots written in the present layout, RELCNT 0 (R557). -/
def State.rewriteJournal (s : State) (t c : Nat) (data : List Byte) : State :=
  let b := withCrc (bytesLE t 2 ++ bytesLE data.length 2 ++ zeros 4 ++ bytesLE c 8 ++ data) ++ zeros 4
  (s.putBytes (s.jrnSlot t 0) b).putBytes (s.jrnSlot t 1) b

/-- One task's retained range restored from what the start found for it; MT at the start's load is `mt`. -/
def State.restoreTask (s : State) (t mt : Nat) (found : Option (List Byte × Option Nat)) : State :=
  let a := s.retAddr t
  let n := s.retlen t
  match found with
  | some (data, c) => (s.write mEngine a (data.take n)).rewriteJournal t (c.getD mt) (data.take n)
  | none => s.rewriteJournal t mt (s.bytes a n)

/-- The tasks that hold retained data. -/
def State.retTasks (s : State) : List Nat := s.cfgTasks.filter fun t => s.retlen t != 0

/-- The clock's time on the PTP timescale in ns, with the UTC offset in seconds from RTC_BKP15 (notes/assumptions/55). -/
def State.rtcPtp (s : State) : Nat :=
  let c := s.calendar
  let day := 10957 + c.dayNumber
  let secs : Int := 86400 * day + 3600 * c.hour + 60 * c.minute + c.second + (s.reg (R.RTC_BKP.addr 15)).toInt
  sec * secs.toNat + sec * s.subsec / 32768

/-- The commit instants of a task's valid journal records at a place. -/
def State.jrnInstants (s : State) (p : Nat × JrnPlace) : List Nat :=
  [s.jrnAt p.1 p.2 0, s.jrnAt p.1 p.2 1].filterMap (·.map (·.c))

/-- The tasks with retained data in the other slot's configuration, each with its journal place. -/
def State.oldTasks (s : State) (k : Nat) : List (Nat × JrnPlace) :=
  ((List.range 256).map fun t => (t, s.cfgPlace (1 - k) t)).filter (·.2.retlen != 0)

/-- MT for a start (R552): over the journal records in the running layout, and those in the old one where it is read. -/
def State.startMt (s : State) (k : Nat) : Nat :=
  let rtc := if s.rd R.RTC_STAT.TQ ≠ 0 ∧ !s.on R.RTC_STAT.BBAD then s.rtcPtp else 0
  let b := s.slotMarker k
  let marker := if markerOk b then numAt b 24 8 + sec else 0
  let cs := (s.retTasks.map fun t => (t, s.runPlace t)).flatMap s.jrnInstants ++
    (if (s.oldRecords k).use then (s.oldTasks k).flatMap s.jrnInstants else [])
  max (max rtc marker) (max ((s.startRec.lastmt) + sec) (cs.foldl (fun n c => max n (c + sec)) 0))

/-- MT loaded through SYS_MTINIT. -/
def State.loadMt (s : State) (t : Nat) : State :=
  (s.wr64 R.SYS_MTINIT_LO.addr R.SYS_MTINIT_HI.addr t).setMt t

/-- The force table (Table 18-3): from its copy, or cleared with FORCE_CLEARALL if it held entries. -/
def State.restoreForces (s : State) (warm : Bool) : State :=
  if warm then s.forcesWarm
  else
    let held := (List.range 1024).any fun i => (s.forceStored i).valid
    let s := s.forcesCold
    if held then s.event 0x0312 (subj := s.frcKey) (val1 := s.frcVal) else s

/-- Step 10. Every task's record is read before the first is written back. -/
def State.restore (s : State) (k : Nat) : State :=
  let warm := s.start.kind == kindWarm
  let mt := s.startMt k
  let found := s.retTasks.map fun t => (t, if warm then s.warmData k t else none)
  let s := s.loadMt mt
  let s := s.each found fun s x => s.restoreTask x.1 mt x.2
  let lost := if warm then (found.filter (·.2.isNone)).map (·.1) else []
  let s : State := { s with start := { s.start with lost := lost } }
  let s := (s.restoreForces warm).pincUp
  s.wr R.PAIR_EPOCH.EPOCH s.identRec.epoch

/-! Blocks (Table 18-1 steps 11 and 12). -/

/-- The blocks in the order of step 11. The journal channel goes with IMG and the ports with FAB (notes/assumptions/56). -/
def startOrder : List UnitId :=
  [.mem, .key, .evt, .mtr, .can 0, .can 1, .can 2, .can 3, .img, .jrn, .hop, .fab, .port 0, .port 1, .port 2, .port 3, .gate]

/-- The blocks whose FAULT fails the start. -/
def startBlocks : List UnitId := startOrder.filter fun u => u.base % 0x1000 = 0

/-- A pair's election begins with FAB: `setRole` sets `pair.since` to this instant, from which the election timer runs (R547).
The mirror channel is enabled for it. -/
def State.pairBegin (s : State) : State :=
  if s.rd R.PAIR_CFG.MODE = 1 then
    let s := (s.setRole roleElecting).enable .mch
    if s.partnerValid then s else s.setCfgmis
  else s

/-- SYS_START (R555, R568); how its words carry what it carries is not stated, and free. `task` names a task without a
usable record (R557). -/
def State.startEvent (s : State) (task : Nat := 0) : State :=
  let n := s.fresh
  (s.event 0x0100 (subj := task) (val1 := Config.freeNat n) (val2 := Config.freeNat (n + 1))
    (extra := Config.freeNat (n + 2))).taken 3

/-- SYS_START, and one item of it more for each task that takes the values of CC_DATA for want of a record (R557,
notes/assumptions/172). -/
def State.startEvents (s : State) : State := s.startEvent.each s.start.lost fun s t => s.startEvent t

/-- Step 11: false where a block reads FAULT. -/
def State.enableBlocks (s : State) : Bool × State :=
  let s := (s.each startOrder fun s u => s.enable u).pairBegin
  let s := ((s.outEnable false).outEnable true).startEvents
  let s := if s.rtc.lost then State.event { s with rtc := { s.rtc with lost := false } } 0x1102 else s
  (startBlocks.all fun u => s.rd u.STATE != stFault, s)

/-- Step 12: Hopper's INIT, the pin scan of the active bank; false on PINLIMIT. -/
def State.pinActive (s : State) : Bool × State :=
  let bank := s.rd R.IMG_LBANK.ACT
  let s := s.hopInit.pinScan bank
  let s := match s.hop.scan with | some b => s.scanDone b | none => s
  (s.rd R.HOP_PIN_STAT.RESULT = 0, s)

/-- The event ring written with zeros where the configuration places it in DRAM (R549): clean words of 0. -/
def State.clearRing (s : State) : State :=
  let a := 0x4000000 * s.rd R.EVT_RBASE.BASE
  if a < 0x80000000 ∨ 0xF0000000 < a + 0x4000000 then s
  else
    let t := s.unlist a 0x4000000
    { t with integ := { t.integ with flaws := t.integ.flaws.filter fun (w, _) => 8 * w < a || a + 0x4000000 ≤ 8 * w } }

/-- Step 13 up to the lock: the marker invalidated, the start record, MEM_PHASE SERVICE. -/
def State.beforeLock (s : State) : State :=
  let s := s.putNum s.markerAt 4 0
  let r := s.startRec
  let s := s.putStartRec { r with reqkind := 0, lastkind := s.start.kind, starts := r.starts + 1, lastmt := s.mtNs }
  s.wr R.MEM_PHASE.PHASE 0

/-- A failed step 9, 11 or 12: the slot BAD, reset with CFGFAIL. -/
def State.cfgFail (s : State) : State :=
  ((s.wr (R.UPD_SLOT_STAT.RESULT s.runSlot) ucBadcfg).slotBad s.runSlot ucBadcfg).moduleReset rcCfgfail

/-- RUNTIME_START: steps 7 to 13, up to the lock. The event ring is cleared where the configuration places it (R549). -/
def State.runtimeStart (s : State) : State :=
  let k := s.runSlot
  let s := s.chooseStart
  let r := s.loadCfg k
  let s := r.2.clearRing
  if !r.1 then s.cfgFail
  else
    let r := (s.restore k).enableBlocks
    if !r.1 then r.2.cfgFail
    else
      let r := r.2.pinActive
      if !r.1 then r.2.cfgFail else r.2.beforeLock

def execRuntimeStart (s : State) : Host.Outcome State Fault Refusal :=
  .next (if s.start.phase = 1 ∧ s.start.kind = 0 then s.runtimeStart else s)

/-! Lock and service (R558, Table 18-1 steps 13 to 15). -/

/-- Step 15: SOLO claims; an election already won takes its steps; LOOP and SCH are enabled in SOLO and ACTIVE alone. -/
def State.enterService (s : State) : State :=
  let s : State := { s with start := { s.start with waiting := false } }
  if s.rd R.PAIR_CFG.MODE = 1 then
    if s.role = roleActive then
      let s := s.takeOver.2
      State.resumeWhenDue { s with pair := { s.pair with resumeLoops := true } }
    else s
  else
    let r := (s.setRole roleSolo).claim
    let s := if r.1 then r.2.openGate else r.2
    let s := (s.enable .loop).enable .sch
    State.resumeWhenDue { s with pair := { s.pair with resumeDue := true, resumeLoops := true, committed := [] } }

/-- SYS_LOCK.LOCK set (W1S): the start's step 13 (R569, R568); a cold start waits for its replicas unless COLDWAIT_MS is 0. -/
def State.lockSet (s : State) : State :=
  let s := s.raise R.SYS_LOCK.LOCK
  if s.start.phase = 1 ∧ s.start.kind ≠ 0 then
    let cold := s.start.kind == kindCold && s.rd R.SYS_STARTCFG.COLDWAIT_MS != 0
    let s := s.wr R.SYS_TLOCK.US (min ((s.now - s.start.origin) / 1000) (2 ^ 32 - 1))
    let s := s.event 0x0101 (val1 := s.rd R.SYS_TLOCK.US)
    let s : State := { s with start := { s.start with phase := 2, lockedAt := s.now, lastMtAt := s.now, waiting := cold } }
    if cold then s else s.enterService
  else s

def execSysLockSet (s : State) : Host.Outcome State Fault Refusal := .next s.lockSet

/-- Every inbound range that a POINT entry of a configured task names is LIVE (R558). -/
def State.inputsLive (s : State) : Bool :=
  s.cfgTasks.all fun t => (s.inList t).all fun e =>
    e.kind != kPoint || (match s.resolve e.ref with | .replica r _ => (s.range r).state == rngLive | _ => true)

/-- REPLICA_WAIT_END: the named ranges are LIVE, or COLDWAIT_MS has elapsed. -/
def execReplicaWaitEnd (s : State) : Host.Outcome State Fault Refusal :=
  .next (
    if !s.start.waiting then s
    else if s.inputsLive then s.enterService
    else (s.advance (s.start.lockedAt + ms * s.rd R.SYS_STARTCFG.COLDWAIT_MS)).enterService)

/-- SYS_LOCK.LOCK is set in the same IO cycle: by the command that follows this one (R564). -/
def State.lockFollows (s : State) : Bool :=
  match s.pending with
  | .sysLockSet :: _ => true
  | .registerWrite _ a v :: _ => a == R.SYS_LOCK.addr && v.getLsbD R.SYS_LOCK.LOCK.lo
  | _ => false

/-- VIN_WARNING; a warning of the IO cycle in which LOCK is set comes after the lock (R564). -/
def execVinWarning (r : Rails) (s : State) : Host.Outcome State Fault Refusal :=
  .next ((if s.lockFollows then s.lockSet else s).vinWarning r)

/-! Reset by command, watchdog (R562, R563, R565). -/

/-- SYS_RST (Table 18-8): OP as written, the reset it names. -/
def execSysRstReset (s : State) : Host.Outcome State Fault Refusal := .next (s.moduleReset rcSwreset)
def execSysRstFatal (s : State) : Host.Outcome State Fault Refusal := .next (s.moduleReset rcFatal)

/-- The watchdog started again (R562). -/
def State.wdtKick (s : State) : State :=
  let w := s.rd R.SYS_WDT.WDT_MS
  { s with start := { s.start with wdtAt := if w = 0 then none else some (s.now + ms * w) } }

def execWdtKick (s : State) : Host.Outcome State Fault Refusal := .next s.wdtKick

/-- The cause of an expiry: with a SYS_RST in the same CORE cycle, the command that follows this one, the one that it names
(R565). -/
def State.wdtCause (s : State) : Nat :=
  match s.pending with
  | .sysRstReset :: _ => rcSwreset
  | .sysRstFatal :: _ => rcFatal
  | .registerWrite _ a v :: _ =>
    if a != R.SYS_RST.addr || !v.getLsbD 8 then rcWdt
    else if R.SYS_RST.OP.of v = 1 then rcSwreset
    else if R.SYS_RST.OP.of v = 2 then rcFatal
    else rcWdt
  | _ => rcWdt

/-- WDT_EXPIRY: suspended while PSTATE is not NORMAL. -/
def execWdtExpiry (s : State) : Host.Outcome State Fault Refusal :=
  .next (
    match s.start.wdtAt with
    | some t => if s.pstate = psNormal then (s.advance t).moduleReset s.wdtCause else s
    | none => s)

/-! MT, the start record. -/

/-- MT_LOAD: SYS_MTCMD.LOAD, discarded once LOCK is set (Table 18-8). -/
def State.mtLoad (s : State) : State :=
  if s.on R.SYS_LOCK.LOCK then s
  else s.setMt (s.rd64 R.SYS_MTINIT_LO.addr R.SYS_MTINIT_HI.addr)

def execMtLoad (s : State) : Host.Outcome State Fault Refusal := .next s.mtLoad

/-- START_RECORD_WRITE: each second after lock LASTMT, and CRWIN_S while CRASHES is above 0 (R556, R566); a migrated
configuration goes to flash once a release has been made (R551). -/
def State.startTick (s : State) : State :=
  if s.start.phase ≠ 2 then s
  else
    let s := s.advance (s.start.lastMtAt + sec)
    let s : State := { s with start := { s.start with lastMtAt := s.now } }
    let r := s.startRec
    let s := s.putStartRec { r with lastmt := s.mtNs, crwin := if 0 < r.crashes then r.crwin + 1 else r.crwin }
    if s.start.migDue ∧ s.start.firstRel then s.writeMigrated s.runSlot else s

def execStartRecordWrite (s : State) : Host.Outcome State Fault Refusal := .next s.startTick

end Sys2Proof.Machine
end

