-- ==== Sys2Proof/Machine/Assist.lean ====
section
/-!
DEFINITION. Assist rings served: the kick, the timeout, results of a remote host (R38 to R43, R187, R224, R422).
-/

namespace Sys2Proof.Machine

/-! The key-use server (R422). -/

/-- A use that waited is let through. -/
def State.useAllowed (s : State) (k : Nat) (act : KeyAct) (openedAssist : State → Nat → Leat → State) : State :=
  match act with
  | .openIn f => if f.typ = tyAssistResult then openedAssist s k f else s.gateOpened k f
  | .quench p f => s.quenchOpened p k f
  | .seal f thenFree => s.sealOut k f thenFree
  | .bare _ _ => s.keyCount ksOk

/-- The use that a descriptor asks for, taken. -/
def State.takeUse (s : State) (seq : Nat) : Option KeyUse × State :=
  match takeFirst (fun (u : KeyUse) => u.asnSeq == seq) s.key.uses with
  | some (u, rest) => (some u, { s with key := { s.key with uses := rest } })
  | none => (none, s)

/-- A use refused by its server, or for want of an answer in time: fail closed (Table 1-11). -/
def State.useTurned (s : State) (seq : Nat) : State :=
  match s.takeUse seq with
  | (some u, s) => s.useRefused.useDenied u.session .refused u.act
  | (none, s) => s

/-- A use whose session has closed meanwhile: a frame of it finds no session (R228). -/
def State.useGone (s : State) (act : KeyAct) : State :=
  match act with
  | .openIn f => s.refuseNosess f
  | .quench _ f => s.refuseNosess f
  | _ => s.useRefused

/-- A key-use descriptor reaped: PERMIT with STATUS OK lets its use through, where the check still passes as its key is latched
(R416, R422): an INVAL of the root that has taken effect meanwhile gives KEY_REVOKED, and the session closes (R228). -/
def keyResult (r : Reaped) (openedAssist : State → Nat → Leat → State) : State :=
  match r.st.takeUse r.post.seq with
  | (some u, s) =>
    if !(s.ksess u.session).valid then s.useGone u.act
    else if r.ok && numAt r.result 12 1 % 2 == 1 then
      match s.keyUse u.session with
      | (.ok, s) => s.useAllowed u.session u.act openedAssist
      | (a, s) => s.useDenied u.session a u.act
    else s.useRefused.useDenied u.session .refused u.act
  | (none, s) => s

/-! Reaping (R40, R42). -/

/-- One reaped descriptor applied by its block. -/
def asnApply (b : AsnBlock) (openedAssist : State → Nat → Leat → State) (r : Reaped) : State :=
  match b with
  | .hop => State.hopResult r
  | .fab => State.routeResult r
  | .loop => State.loopResult r
  | .mtr => r.st
  | .can c => State.canResult r c.val
  | .key => keyResult r openedAssist
  | .evt => if r.post.timedOut then r.st else r.st.evtResult r.post.seq r.ok

/-- BLOCK_ASN_KICK: the engine reaps while it works in ASSIST mode. -/
def State.kick' (s : State) (b : AsnBlock) (openedAssist : State → Nat → Leat → State) : State :=
  if s.working b.unit && s.assist b.unit then s.asnKick b (asnApply b openedAssist) 4096 else s

/-! Results of a remote host (R38, R187, R224). -/

/-- The block whose register base carries a number in bits [23:16] (Table 5-12); CAN's four share one, and have no remote
server. -/
def remoteBlock (n : Nat) : Option AsnBlock :=
  [AsnBlock.mtr, .fab, .evt].find? fun b => b.unit.base / 65536 % 256 == n

/-- An ASSIST_RESULT payload's descriptor goes to its slot (R40 rule 2): bytes 16 to 31, then bytes 0 to 7. -/
def State.putResult (s : State) (b : AsnBlock) (d : List Byte) : State :=
  let a := s.slotAddr b (numAt d 0 2)
  (s.write mEngine (a + 16) (d.drop 16)).write mEngine a (d.take 8)

/-- Route entries into the shadow table. -/
def State.putRoutes (s : State) (b : AsnBlock) (es : List (List Byte)) : State :=
  if b = .fab then
    let t := es.foldl (fun t e => SMap.set (fun _ => 7#32) t (numAt e 0 2) (entryBits (BitVec.ofNat 32 (numAt e 2 4)))) s.fab.shadow
    { s with fab := { s.fab with shadow := t } }
  else s

/-- The plaintext of an ASSIST_RESULT accepted for a block (Table 5-12): its entries, and its descriptor where OWN is 0. -/
def State.assistResult (s : State) (b : AsnBlock) (pt : List Byte) (openedAssist : State → Nat → Leat → State) : State :=
  let n := numAt pt 2 2
  let d := (pt.drop 4).take 32
  if pt.length ≠ 36 + 6 * n ∨ 187 < n ∨ !((s.posts b).any fun p => p.seq == numAt d 0 2) then s.bump R.GATE_CNT_BADREQ.COUNT
  else
    let s := s.putRoutes b (chunks 6 (pt.drop 36))
    if numAt d 3 1 % 2 = 1 then s else (s.putResult b d).kick' b openedAssist

/-- An ASSIST_RESULT whose use of K_S the engine allowed: the checks of a session frame, the ASSIST right, and the session
that serves the block (R38, R224). Its own result runs no further result. -/
def State.assistOpened (s : State) (k : Nat) (f : Leat) : State :=
  match s.openFrame k f with
  | (none, s) => s
  | (some pt, s) =>
    let x := s.sess k
    if x.state = sPending then s.refuseNosess f
    else
      let s := s.setSess k { x.accept f.seq with lastReq := if x.state = sOpen then s.now else x.lastReq }
      if x.state = sExpired then s.sendRefuse k f.typ f.lane 0 gcExpired
      else
        match remoteBlock (numAt pt 0 1) with
        | none => s.bump R.GATE_CNT_BADREQ.COUNT
        | some b =>
          if s.rd b.SRV_KIND = 2 ∧ x.rights.testBit rtAssist ∧ s.assistSession b = some k then
            s.assistResult b pt fun s _ _ => s
          else s.sendRefuse k f.typ f.lane 0 gcRight

/-- ASSIST_RESULT_RECEIVED: judged by the gate as every frame of a session, then handed to the posting block. -/
def State.assistResultIn (s : State) (f : Leat) : State :=
  let s := s.takeInbox f.typ f.src f.payload
  if !s.running .gate then s
  else if !f.auth ∨ f.typ ≠ tyAssistResult then s.bump R.GATE_CNT_BADREQ.COUNT
  else
    match s.sessionOf f with
    | none => s.refuseNosess f
    | some k =>
      match s.askUse k (.openIn f) with
      | (true, s) => s.assistOpened k f
      | (false, s) => s

def execAssistResultReceived (f : Leat) (s : State) : Host.Outcome State Fault Refusal := .next (s.assistResultIn f)

/-- ASSIST_KICK (R40). -/
def State.asnKicked (s : State) (b : AsnBlock) : State := s.kick' b State.assistOpened

def execAssistKick (b : AsnBlock) (s : State) : Host.Outcome State Fault Refusal := .next (s.asnKicked b)

/-! Timeouts (R41). -/

/-- The fallback of a block for a unit whose descriptor timed out (Table 1-11). -/
def State.asnFallback (s : State) (b : AsnBlock) (p : AsnPost) : State :=
  match b with
  | .hop => s.hopTimeout p
  | .fab => s.spfBusy
  | .loop => s.loopTimeout p
  | .mtr => s.sampleGap p.src
  | .can c => s.fltovf c.val
  | .key => s.useTurned p.seq
  | .evt => s.evtResult p.seq false

/-- ASSIST_TIMEOUT: the oldest descriptor still owned by the server and not yet timed out, at its instant. -/
def State.asnExpire (s : State) (b : AsnBlock) : State :=
  match (s.posts b).find? fun p => !p.timedOut && s.owned b p with
  | none => s
  | some p =>
    match (s.advance (p.postedAt + us * s.rd b.TMO)).asnTimeout b with
    | some (p, s) => s.asnFallback b p
    | none => s

def execAssistTimeout (b : AsnBlock) (s : State) : Host.Outcome State Fault Refusal := .next (s.asnExpire b)

end Sys2Proof.Machine
end

