-- ==== Sys2Proof/Machine/Gate.lean ====
section
/-!
DEFINITION. The tenant gate's commands (ch06): frames of clients, timers of sessions, tenant commands, the authorised QUENCH.
A frame is judged by what it holds, whichever command brings it.
-/

namespace Sys2Proof.Machine

def execOpenReceived (f : Leat) (s : State) : Host.Outcome State Fault Refusal := .next (s.gateFrame f)

def execConfirmReceived (f : Leat) (s : State) : Host.Outcome State Fault Refusal := .next (s.gateFrame f)

def execAbandonReceived (f : Leat) (s : State) : Host.Outcome State Fault Refusal := .next (s.gateFrame f)

/-- Two seconds without a valid CONFIRM (R214). -/
def State.pendingOut (s : State) (k : Nat) : State :=
  if (s.sess k).state = sPending then (s.advance ((s.sess k).since + 2 * sec)).freeSess k else s

def execPendingTimeout (slot : Nat) (s : State) : Host.Outcome State Fault Refusal :=
  onUnit (slot < 512) (s.pendingOut slot)

def execSessionRead (f : Leat) (s : State) : Host.Outcome State Fault Refusal := .next (s.gateFrame f)

def execSessionWrite (f : Leat) (s : State) : Host.Outcome State Fault Refusal := .next (s.gateFrame f)

def execSessionSub (f : Leat) (s : State) : Host.Outcome State Fault Refusal := .next (s.gateFrame f)

def execSessionUnsub (f : Leat) (s : State) : Host.Outcome State Fault Refusal := .next (s.gateFrame f)

def execSessionForce (f : Leat) (s : State) : Host.Outcome State Fault Refusal := .next (s.gateFrame f)

def execSessionClose (f : Leat) (s : State) : Host.Outcome State Fault Refusal := .next (s.gateFrame f)

def execEvread (f : Leat) (s : State) : Host.Outcome State Fault Refusal := .next (s.gateFrame f)

def execSubPeriodPush (slot : Nat) (s : State) : Host.Outcome State Fault Refusal :=
  onUnit (slot < 512) (s.pushDue slot)

/-- IDLE_S without a request that passes R215 (R227). -/
def State.idleOut (s : State) (k : Nat) : State :=
  let x := s.sess k
  if x.state = sOpen then (s.advance (x.lastReq + sec * x.idleS)).expire k else s

def execSessionIdleExpiry (slot : Nat) (s : State) : Host.Outcome State Fault Refusal :=
  onUnit (slot < 512) (s.idleOut slot)

/-- LIFE_MIN minutes after the session became OPEN (R227). -/
def State.lifeOut (s : State) (k : Nat) : State :=
  let x := s.sess k
  if x.state = sOpen then (s.advance (x.openedAt + 60 * sec * x.lifeMin)).expire k else s

def execSessionLifetimeExpiry (slot : Nat) (s : State) : Host.Outcome State Fault Refusal :=
  onUnit (slot < 512) (s.lifeOut slot)

/-- Ten seconds after its expiry a slot is FREE (R227). -/
def State.expiredOut (s : State) (k : Nat) : State :=
  let x := s.sess k
  if x.state = sExpired then (s.advance (x.since + 10 * sec)).freeSess k else s

def execExpiredSlotFree (slot : Nat) (s : State) : Host.Outcome State Fault Refusal :=
  onUnit (slot < 512) (s.expiredOut slot)

/-- REVOKE (R228): GEN of the tenant's entry counted up, its sessions closed. -/
def State.revoke (s : State) (t : Nat) : State :=
  let a := s.tenantAddr t + 4
  let s := s.writeNum mEngine a 2 (s.fetchNum mEngine a 2 + 1)
  (s.closeTenant t).tcmdDone t 1

def execTenantRevoke (t : Nat) (s : State) : Host.Outcome State Fault Refusal := onUnit (t < 256) (s.revoke t)

def execTenantCloseall (t : Nat) (s : State) : Host.Outcome State Fault Refusal :=
  onUnit (t < 256) ((s.closeTenant t).tcmdDone t 2)

def execSlotClose (s : State) : Host.Outcome State Fault Refusal := .next (s.closeSess (s.rd R.GATE_SADDR.SLOT))

def execAuthQuenchReceived (p : Nat) (f : Leat) (s : State) : Host.Outcome State Fault Refusal :=
  onUnit (p < 5) (s.authQuenchIn p f)

end Sys2Proof.Machine
end

