-- ==== Sys2Proof/Machine/Scrub.lean ====
section
/-!
DEFINITION. The commands of memory integrity that reach other blocks (ch11): the DRAM sweep and the release of halted egress
channels.
-/

namespace Sys2Proof.Machine

/-- The DRAM sweep's range (R396). -/
def State.dramLo (s : State) : Nat := 0x80000000 + 2 ^ 20 * s.rd R.MEM_DRS_DLO.DLO
def State.dramEnd (s : State) : Nat := 0x80000000 + 2 ^ 20 * (s.rd R.MEM_DRS_DHI.DHI + 1)

/-- One word of a burst; a failing word of the replica store is fetched again (R150, R389, R396). -/
def State.scrubDram (s : State) (w : Nat) : State :=
  let r := s.readWord mDresser w
  let s := r.st
  let base := s.storeAddr 0
  if r.new ∧ base ≤ 8 * w ∧ 8 * w < base + 0x800000 ∧ s.hopServes then s.askRefetch ((8 * w - base) / 32) else s

/-- DRAM_SCRUB_BURST (R396): the next 64 bytes of the range. -/
def execDramScrubBurst (s : State) : Host.Outcome State Fault Refusal :=
  .next (
    if !s.running .mem || !s.on R.MEM_DRS_CFG.DRAMEN then s
    else
      let p := s.rd R.MEM_DRS_DPOS.DPOS
      let a := if s.dramLo ≤ p ∧ p < s.dramEnd then p / 64 * 64 else s.dramLo
      let s := s.each (List.range 8) fun s i => s.scrubDram (wordOf a + i)
      s.wr R.MEM_DRS_DPOS.DPOS (if a + 64 < s.dramEnd then a + 64 else s.dramLo))

/-- The frames that waited at the halted transmit channel go on, up to the next that carries poison. -/
def State.txResume (s : State) (fs : List (Leat × Option Nat)) : State := s.each fs fun s (f, a) => (s.txIn f a).2

/-- EGRESS_RELEASE_FABTX (R386): the halted frame is discarded. -/
def execEgressReleaseFabtx (s : State) : Host.Outcome State Fault Refusal :=
  .next (
    if !s.on R.MEM_EGR_HALT.FABTX then s
    else
      let fs := s.fab.txWait
      let s : State := { s with fab := { s.fab with txWait := [] } }
      (s.clear R.MEM_EGR_HALT.FABTX).txResume (fs.drop 1))

end Sys2Proof.Machine
end

