-- ==== Sys2Proof/Machine/Bus.lean ====
section
/-!
DEFINITION. REGISTER_WRITE: a word written to any register by a master (R8 to R15, R25, R32, R33, R570). The fields are
written by their access codes, and then the commands that the word starts are carried out, each by its own meaning.
-/

namespace Sys2Proof.Machine

/-- A command carried out as part of a write: a command that has no unit to act on changes nothing. -/
def State.obey (s : State) (f : State → Host.Outcome State Fault Refusal) : State :=
  match f s with
  | .next t => t
  | .fault _ => s
  | .refused _ => s

/-- A command carried out where a bit of the written word is 1. -/
def State.obeyIf (s : State) (v : Word) (bit : Nat) (f : State → Host.Outcome State Fault Refusal) : State :=
  if v.getLsbD bit then s.obey f else s

/-- One of two commands, by a bit of the written word. -/
def State.obeyBit (s : State) (v : Word) (bit : Nat) (set clear : State → Host.Outcome State Fault Refusal) : State :=
  if v.getLsbD bit then s.obey set else s.obey clear

/-- A level field that a command sets and another clears: only a change is a command. -/
def State.obeyLevel (s : State) (v : Word) (f : Fld) (set clear : State → Host.Outcome State Fault Refusal) : State :=
  if f.of v = s.rd f then s else if f.of v = 0 then s.obey clear else s.obey set

/-- Every unit with an enable pair. -/
def allUnits : List UnitId := startOrder ++ [.sch, .loop, .mch, .upd]

/-- The unit whose CTRL register lies at an address. -/
def ctrlUnit (a : Nat) : Option UnitId := allUnits.find? fun u => u.base == a

/-- The block whose assist ring has its kick register at an address (Table 1-14). -/
def kickBlock (a : Nat) : Option AsnBlock := asnBlocks.find? fun b => b.unit.base + 0x60 == a

/-- CTRL of a unit: MODE first, so that a word that sets both enables the block in its new mode; then EN. -/
def State.ctrlWrite (s : State) (u : UnitId) (v : Word) : State :=
  let s := match u.ring with
    | some b => s.modeWrite b false v
    | none => s
  s.obeyBit v 0 (execBlockEnable u) (execBlockDisable u)

/-- The scheduler's commands (Tables 2-5 to 2-10). STOP and START written together: START is discarded (Table 2-10). -/
def State.obeySch (s : State) (m a : Nat) (v : Word) : State :=
  if a = R.SCH_SWP_CMD.addr then
    ((s.obeyIf v 2 execSwitchCancel).obeyIf v 0 execSwitchArm).obeyIf v 1 execSwitchGo
  else if a = R.SCH_DONE.addr then s.obeyIf v 0 (execSchDone m)
  else if a = R.SCH_ABORT.addr then s.obeyIf v 0 (execSchAbort m)
  else
    match elem (R.SCH_TASK_CMD.addr 0) 0x40 256 a with
    | some t => if v.getLsbD 0 then s.obey (execTaskStop t) else s.obeyIf v 1 (execTaskStart t)
    | none => s

/-- FRC_CMD, and each station's enable and commands (Tables 3-13 to 3-15). -/
def State.obeyImg (s : State) (a : Nat) (v : Word) : State :=
  if a = R.IMG_FRC_CMD.addr then
    if v.getLsbD 8 then
      match R.IMG_FRC_CMD.OP.of v with
      | 1 => s.obey execForceSet
      | 2 => s.obey execForceClear
      | 3 => s.obey execForceClearall
      | _ => s
    else s
  else
    match elem (R.IMG_STN_CFG.addr 0) 0x40 64 a with
    | some n => s.obeyLevel v (R.IMG_STN_CFG.EN n) (execStationEnable n) (execStationDisable n)
    | none =>
      match elem (R.IMG_STN_CMD.addr 0) 0x40 64 a with
      | some n => (s.obeyIf v 0 (execStationRearm n)).obeyIf v 1 (execStationProbe n)
      | none => s

/-- HOP_PIN_CMD and the lookup ports (Tables 4-10, 4-11). -/
def State.obeyHop (s : State) (a : Nat) (v : Word) : State :=
  if a = R.HOP_PIN_CMD.addr then
    let bank := R.HOP_PIN_CMD.BANK.of v
    if v.getLsbD 8 then
      match R.HOP_PIN_CMD.OP.of v with
      | 1 => s.obey (execPinscan bank)
      | 2 => s.obey (execUnpin bank)
      | _ => s
    else s
  else
    match elem (R.HOP_LK_CMD.addr 0) 0x40 4 a with
    | some p =>
      if v.getLsbD 8 then
        match (R.HOP_LK_CMD.OP p).of v with
        | 1 => s.obey (execLookupRead p)
        | 2 => s.obey (execLookupTouch p)
        | _ => s
      else s
    | none => s

/-- The gate's commands (Table 6-13). -/
def State.obeyGate (s : State) (a : Nat) (v : Word) : State :=
  if a = R.GATE_TCMD.addr then
    let t := R.GATE_TCMD.TENANT.of v
    if v.getLsbD 16 then
      match R.GATE_TCMD.OP.of v with
      | 1 => s.obey (execTenantRevoke t)
      | 2 => s.obey (execTenantCloseall t)
      | _ => s
    else s
  else if a = R.GATE_SCMD.addr then s.obeyIf v 0 execSlotClose
  else s

/-- MTR_CMD (Table 8-15). -/
def State.obeyMtr (s : State) (a : Nat) (v : Word) : State :=
  let arg := R.MTR_CMD.ARG.of v
  if a = R.MTR_CMD.addr ∧ v.getLsbD 24 then
    match R.MTR_CMD.OP.of v with
    | 1 => s.obey (execMeterClear arg)
    | 2 => s.obey execMeterCkpt
    | 3 => s.obey (execMeterRestore arg)
    | 4 => s.obey (execCalapply arg)
    | _ => s
  else s

/-- The digital commands (Tables 9-8 to 9-10). -/
def State.obeyDio (s : State) (a : Nat) (v : Word) : State :=
  if a = R.DIO_CTRL.addr then
    (s.obeyLevel v R.DIO_CTRL.OUTEN (execOutputEnable false) (execOutputDisable false)).obeyLevel v R.DIO_CTRL.RFXEN
      execReflexEnable execReflexDisable
  else if a = R.DIO_KA_KICK.addr then s.obeyIf v 0 execKick
  else if a = R.DIO_DO_CMD.addr then
    let c := R.DIO_DO_CMD.CH.of v
    if v.getLsbD 16 then
      match R.DIO_DO_CMD.OP.of v with
      | 1 => s.obey (execDoResume (.digital c))
      | 2 => s.obey (execDoResumeall false)
      | 3 => s.obey (execDoOcclr c)
      | 4 => s.obey (execOutputReload (.digital c))
      | _ => s
    else s
  else
    match elem (R.DIO_RFX_ARM.addr 0) 4 2 a with
    | some w => s.obey (execReflexArm w v)
    | none =>
      match elem (R.DIO_RFX_DISARM.addr 0) 4 2 a with
      | some w => s.obey (execReflexDisarm w v)
      | none =>
        match elem (R.DIO_CNT_CMD.addr 0) 0x20 8 a with
        | some k => if v.getLsbD 1 then s.obey (execCounterLoad k) else s.obeyIf v 0 (execCounterClear k)
        | none => s

/-- The analog commands (Table 9-12). -/
def State.obeyAio (s : State) (a : Nat) (v : Word) : State :=
  if a = R.AIO_CTRL.addr then s.obeyLevel v R.AIO_CTRL.OUTEN (execOutputEnable true) (execOutputDisable true)
  else if a = R.AIO_AO_CMD.addr then
    let c := R.AIO_AO_CMD.CH.of v
    if v.getLsbD 16 then
      match R.AIO_AO_CMD.OP.of v with
      | 1 => s.obey (execDoResume (.analog c))
      | 2 => s.obey (execDoResumeall true)
      | 3 => s.obey (execOutputReload (.analog c))
      | _ => s
    else s
  else s

/-- A CAN controller's commands (Tables 10-11 to 10-14), o its register's offset. -/
def State.obeyCan (s : State) (c o : Nat) (v : Word) : State :=
  if o = 0x24 then
    if v.getLsbD 8 then
      match (R.CAN_CMD.OP c).of v with
      | 1 => s.obey (execCanSleep c)
      | 2 => s.obey (execCanWake c)
      | 3 => s.obey (execCanBorecov c)
      | 4 => s.obey (execCanTxresume c)
      | 5 => s.obey (execCanAbortall c)
      | _ => s
    else s
  else if o = 0x2C then
    if v.getLsbD 8 then s.obey (execCanRxLock c ((R.CAN_RXLOCK.BUF c).of v)) else s.obey (execCanRxRelease c (v.getLsbD 9))
  else
    match elem 0x80 4 2 o with
    | some w => s.obey (execCanTxRequest c w v)
    | none =>
      match elem 0x88 4 2 o with
      | some w => s.obey (execCanTxCancel c w v)
      | none =>
        match elem 0x98 4 4 o with
        | some w => s.obey (execCanRxnewFree c w v)
        | none => s

/-- The Dresser's commands (Table 11-10). -/
def State.obeyMem (s : State) (a : Nat) (v : Word) : State :=
  if a = R.MEM_EGR_HALT.addr then (s.obeyIf v 0 execEgressReleaseFabtx).obeyIf v 1 execEgressReleaseMirror
  else if a = R.MEM_INJ_CTRL.addr ∧ v.getLsbD 16 then
    let lanes := BitVec.ofNat 8 (R.MEM_INJ_CTRL.LANES.of v)
    match R.MEM_INJ_CTRL.KIND.of v with
    | 1 => s.obey (execInjectOdd lanes)
    | 2 => s.obey (execInjectEven lanes)
    | 3 => s.obey (execInjectPar lanes)
    | 4 => s.obey execInjectTag
    | 5 => s.obey (execInjectPoison lanes)
    | 6 => s.obey execInjectDouble
    | _ => s
  else s

/-- The vault's commands (Table 12-16). A RESEED written is pending until DRBG_RESEED ends it (R424). -/
def State.obeyKey (s : State) (a : Nat) (v : Word) : State :=
  if a = R.KEY_CQTAIL.addr then s.obey (execKeyCqtailWrite v)
  else if a = R.KEY_SCMD.addr then
    let n := R.KEY_SCMD.SLOT.of v
    if v.getLsbD 16 then
      match R.KEY_SCMD.OP.of v with
      | 1 => s.obey (execKeyInval n)
      | 2 => s.obey (execKeyErase n)
      | _ => s
    else s
  else if a = R.KEY_TAMP_CMD.addr then (s.obeyIf v 0 execTamperAck).obeyIf v 1 execZeroize
  else if a = R.KEY_DRBG.addr ∧ v.getLsbD 3 then s.raise R.KEY_DRBG.RESEED
  else s

/-- The recorder's commands (Table 13-9). -/
def State.obeyEvt (s : State) (m a : Nat) (v : Word) : State :=
  if a = R.EVT_CMD.addr ∧ v.getLsbD 8 then
    match R.EVT_CMD.OP.of v with
    | 1 => s.obey execEvtClear
    | 2 => s.obey execEvtFlush
    | _ => s
  else if a = R.EVT_SW_GO.addr 0 then s.obeyIf v 0 (execSwPost m)
  else s

/-- PAIR_CMD (Table 14-9). -/
def State.obeyPair (s : State) (a : Nat) (v : Word) : State :=
  if a = R.PAIR_CMD.addr ∧ v.getLsbD 8 then
    match R.PAIR_CMD.OP.of v with
    | 1 => s.obey execPairSwitchover
    | 2 => s.obey execPairResync
    | 3 => s.obey execPairDemote
    | _ => s
  else s

/-- UPD_CMD (Table 15-14). -/
def State.obeyUpd (s : State) (a : Nat) (v : Word) : State :=
  let n := R.UPD_CMD.SLOT.of v
  if a = R.UPD_CMD.addr ∧ v.getLsbD 8 then
    match R.UPD_CMD.OP.of v with
    | 1 => s.obey (execUpdErase n)
    | 2 => s.obey (execUpdVerify n)
    | 3 => s.obey (execUpdStage n)
    | 4 => s.obey execUpdUnstage
    | 5 => s.obey (execUpdActivate n)
    | 6 => s.obey (execUpdConfirm n)
    | 7 => s.obey execUpdRecover
    | 8 => s.obey execUpdCommit
    | 9 => s.obey execUpdAbort
    | _ => s
  else s

/-- The power, clock and system controllers' commands (Tables 16-10, 17-3, 18-8). -/
def State.obeySys (s : State) (a : Nat) (v : Word) : State :=
  if a = R.PWR_CMD.addr ∧ v.getLsbD 8 then
    match R.PWR_CMD.OP.of v with
    | 1 => s.obey execTestbrake
    | 2 => s.obey execHalt
    | _ => s
  else if a = R.RTC_CMD.addr ∧ v.getLsbD 8 then
    match R.RTC_CMD.OP.of v with
    | 1 => s.obey execRtcSet
    | 2 => s.obey execRtcSync
    | 3 => s.obey execBbinit
    | _ => s
  else if a = R.SYS_LOCK.addr then s.obeyIf v 0 execSysLockSet
  else if a = R.SYS_RST.addr ∧ v.getLsbD 8 then
    match R.SYS_RST.OP.of v with
    | 1 => s.obey execSysRstReset
    | 2 => s.obey execSysRstFatal
    | _ => s
  else if a = R.SYS_WDTKICK.addr then s.obeyIf v 0 execWdtKick
  else if a = R.SYS_MTCMD.addr then s.obeyIf v 0 execMtLoad
  else s

/-- The commands that a word starts, by the block of its address (Table 1-3). -/
def State.obeyWord (s : State) (m a : Nat) (v : Word) : State :=
  match ctrlUnit a with
  | some u => s.ctrlWrite u v
  | none =>
    match kickBlock a with
    | some b => s.obeyIf v 0 (execAssistKick b)
    | none =>
      match a / 0x10000 with
      | 0x4001 => s.obeySch m a v
      | 0x4002 => s.obeyImg a v
      | 0x4003 => s.obeyHop a v
      | 0x4004 => s.obeyMem a v
      | 0x4005 => if a = R.FAB_MBX_TX.addr then s.obeyIf v 16 (execMbxSend (R.FAB_MBX_TX.LEN.of v)) else s
      | 0x4006 => s.obeyGate a v
      | 0x4008 => s.obeyMtr a v
      | 0x4009 => s.obeyDio a v
      | 0x400A => s.obeyAio a v
      | 0x400B => s.obeyCan ((a - 0x400B0000) / 0x4000) ((a - 0x400B0000) % 0x4000) v
      | 0x400C => s.obeyKey a v
      | 0x400D => s.obeyEvt m a v
      | 0x400E => s.obeyPair a v
      | 0x400F => s.obeyUpd a v
      | _ => s.obeySys a v

/-- A write of a register: its handler, or its fields and the commands that the word starts; GO beside a reserved OP or KIND
discards the whole word (R570). -/
def State.regWrite (s : State) (m a : Nat) (v : Word) : State :=
  if (regAt a).any (·.badGo v) then s
  else
    let s := s.unlatch a
    match s.handler a v with
    | some s' => s'
    | none => (s.plainWrite m a v).obeyWord m a v

/-- REGISTER_WRITE (R8 to R15, R32, R33, R570): masters 0 to 15 are the control cores, 16 the SVC core. -/
def execRegisterWrite (m a : Nat) (v : Word) (s : State) : Host.Outcome State Fault Refusal :=
  onUnit (m < 17) (s.regWrite m a v)

end Sys2Proof.Machine
end

