-- ==== Sys2Proof/Machine/Cores.lean ====
section
/-!
DEFINITION. The cores' accesses (R18 to R31, R384, R385): every kind at every mapped address, the caches, the poison faults,
load-reserve and store-conditional, the mode, and the vendor CSRs. A core's program, its general registers and its pc are its
RISC-V hart's; the model keeps what the memory system does to it: the value returned (`busRead`), the trap's cause, value and
mode, MEADDR and MEINFO.
-/

namespace Sys2Proof.Machine

/-! Traps and the vendor CSRs. -/

/-- A precise trap of core c: its cause and value, and the core in machine mode (R18). -/
def State.trap (s : State) (c cause a : Nat) : State :=
  let x := s.hart c
  s.setHart c { x with cause := cause, mtval := a, count := x.count + 1, user := false, fromUser := x.user }

/-- An illegal-instruction exception of core c (R28). Whether its trap value holds the instruction the spec does not say: a free
value (notes/assumptions/151). -/
def State.illegal (s : State) (c : Nat) : State := (s.trap c 2 (Config.free32 s.fresh).toNat).taken

/-- A vendor CSR accessed by core c: in machine mode only (R28, Table 11-3). -/
def State.vendorCsr (s : State) (c : Nat) (t : State) : State := if (s.hart c).user then s.illegal c else t

/-- COREID (CSR 0x7C3, Table 1-5). -/
def coreId (c : Nat) : Nat := c

/-- What core c reads from the vendor CSR n in machine mode (Tables 1-5, 11-3): none where the access raises an
illegal-instruction exception, a CSR that no chapter defines. The write-only CSRs read 0 (Table 0-3). -/
def State.csrRead (s : State) (c n : Nat) : Option Nat :=
  if 0x7C0 ≤ n ∧ n ≤ 0x7C2 then some 0
  else if n = 0x7C3 then some (coreId c)
  else if n = 0x7C4 then some (s.hart c).meaddr
  else if n = 0x7C5 then some (s.hart c).meinfo
  else none

/-- Access-fault causes by the kind of access (R24, R384). -/
def faultCause : MemKind → Nat
  | .load => 5
  | .store => 7
  | .fetch => 1
  | .amo .lr => 5
  | .amo _ => 7

/-- A poison fault (Table 11-3): MEADDR and MEINFO written with the trap. -/
def State.poisonTrap (s : State) (c : Nat) (k : MemKind) (a w : Nat) (new : Bool) (lanes : BitVec 8) : State :=
  let fetch : Nat := if k = .fetch then 1 else 0
  let info := 1 + 2 * fetch + 4 * new.toNat + 8 * classOf w + 64 * (if new then lanes.toNat else 0xFF)
  let s := s.setHart c { s.hart c with meaddr := 8 * w, meinfo := info }
  s.trap c (faultCause k) a

/-! Caches. -/

/-- The two caches of a core: the data cache holds NOR flash and DRAM, the instruction cache ROM and shared SRAM too
(Table 1-3). -/
def cached (fetch : Bool) (p : Nat) : Bool :=
  match regionOf p with
  | some .nor => true
  | some .dram => true
  | some .rom => fetch
  | some .shared => fetch
  | _ => false

/-- The control cores have caches; the service core has none (R23). -/
def hasCaches (c : Nat) : Bool := c < 16

/-- Lines that a core's cache holds: 16 KiB of instructions, 8 KiB of data (R23, notes/assumptions/57). -/
def cacheLines (fetch : Bool) : Nat := if fetch then 256 else 128

/-- Where core c's copy of the line of physical address p is kept. -/
def lineKey (c p : Nat) : Nat := c * 2 ^ 26 + p / 64

def noLine (_ : Nat) : Option CacheLine := none

def State.cacheLine (s : State) (fetch : Bool) (key : Nat) : Option CacheLine :=
  SMap.get noLine (if fetch then s.integ.icache else s.integ.dcache) key

def State.setLine (s : State) (fetch : Bool) (key : Nat) (x : Option CacheLine) : State :=
  if fetch then { s with integ := { s.integ with icache := SMap.set noLine s.integ.icache key x } }
  else { s with integ := { s.integ with dcache := SMap.set noLine s.integ.dcache key x } }

/-- The words of a line read for a fill, and which were found uncorrectable now, with their lanes. -/
def State.fillWords (s : State) (c w : Nat) : Nat → List WordRead × State
  | 0 => ([], s)
  | n + 1 =>
    let r := s.readWord c w
    let (rest, t) := State.fillWords r.st c (w + 1) n
    (r :: rest, t)

/-- A line as a fill reads it: one poison bit per poisoned word (R385). -/
def filledLine (ws : List WordRead) : CacheLine :=
  { dirty := false
    data := ws.flatMap fun r => bytesLE r.data.toNat 8
    poison := BitVec.ofNat 8 (ws.foldr (fun r acc => 2 * acc + r.poisoned.toNat) 0) }

/-- The line of physical address p in core c's cache, filled where the cache does not hold it; beside it what the fill found in
word j. -/
def State.openLine (s : State) (c : Nat) (fetch : Bool) (p : Nat) : CacheLine × List WordRead × State :=
  match s.cacheLine fetch (lineKey c p) with
  | some x => (x, [], s)
  | none =>
    let (ws, t) := s.fillWords c (p / 64 * 8) 8
    let x := filledLine ws
    (x, ws, t.setLine fetch (lineKey c p) (some x))

/-- A line written back, poisoned words in the poisoned encoding of their memory (R385). -/
def State.lineBack (s : State) (c key : Nat) (x : CacheLine) : State :=
  if !x.dirty then s
  else
    let w := key % 2 ^ 26 * 8
    s.each (List.range 8) fun s j =>
      let bs := (x.data.drop (8 * j)).take 8
      if x.poison.getLsbD j then s.writePoison c (w + j) (BitVec.ofNat 64 (natLE bs)) else (s.settleAt (8 * (w + j))).write c (8 * (w + j)) bs

/-- A line written back and invalidated. -/
def State.dropLine (s : State) (fetch : Bool) (key : Nat) : State :=
  match s.cacheLine fetch key with
  | some x => (s.lineBack (key / 2 ^ 26) key x).setLine fetch key none
  | none => s

/-- A cache may replace one of its lines at any access, and must where it holds more than its capacity (R23): which, and when
before that, the spec does not say (notes/assumptions/57). -/
def State.evictSome (s : State) (c : Nat) (fetch : Bool) : State :=
  let keys := ((if fetch then s.integ.icache else s.integ.dcache).map (·.1)).filter fun k => k / 2 ^ 26 == c
  let s' := match keys[Config.freeNat (s.fresh + 1) % keys.length]? with
    | some k => if cacheLines fetch < keys.length || Config.freeBit s.fresh then s.dropLine fetch k else s
    | none => s
  s'.taken 2

/-! Words as a core sees them. -/

/-- The last word of an own record at HOP_OWN_CNT or above reads TYPE NONE (R125). -/
def State.shownType (s : State) (w : Nat) (d : Word64) : Word64 :=
  if ownRecord 0 / 8 ≤ w ∧ w < ownRecord 65536 / 8 ∧ w % 4 = 3 ∧ s.ownCount ≤ (w - ownRecord 0 / 8) / 4 then
    d &&& 0xFFFFFFF0FFFFFFFF#64
  else d

/-- A word at physical address 8 × w as core c loads or fetches it. -/
def State.coreWord (s : State) (c : Nat) (fetch : Bool) (w : Nat) : WordRead :=
  if 0x18000000 / 8 ≤ w ∧ w < 0x18080000 / 8 then s.readStripe (w - stripeWindow)
  else if hasCaches c && cached fetch (8 * w) then
    let (x, ws, t) := s.openLine c fetch (8 * w)
    let j := w % 8
    let found := ws[j]?
    { data := BitVec.ofNat 64 (natLE ((x.data.drop (8 * j)).take 8))
      poisoned := x.poison.getLsbD j
      new := (found.map (·.new)).getD false
      lanes := (found.map (·.lanes)).getD 0xFF
      st := t.evictSome c fetch }
  else
    let r := s.readWord c w
    { r with data := s.shownType w r.data }

/-- The 8-byte words that an access touches: bus address of its first byte there, and how many bytes. -/
def wordChunks (a n : Nat) : List (Nat × Nat) :=
  let k := 8 - a % 8
  if n ≤ k then [(a, n)] else [(a, k), (a + k, n - k)]

/-- What core c receives of memory. -/
def State.coreRead (s : State) (c : Nat) (fetch : Bool) (a n : Nat) : Fetched :=
  (wordChunks a n).foldl (fun acc x =>
    let p := acc.st.phys c x.1
    let r := acc.st.coreWord c fetch (p / 8)
    let first := acc.poison.isNone && r.poisoned
    { bytes := acc.bytes ++ ((bytesLE r.data.toNat 8).drop (p % 8)).take x.2
      poison := if first then some (p / 8) else acc.poison
      new := if first then r.new else acc.new
      lanes := if first then r.lanes else acc.lanes
      st := r.st }) { st := s }

/-- A store ends the other cores' reservations of the words it touches. -/
def State.breakResv (s : State) (c p n : Nat) : State :=
  s.each (s.integ.traps.map (·.1)) fun s d =>
    let x := s.hart d
    if d != c && x.resv.any (fun r => r * 4 < p + n && p < r * 4 + 4) then s.setHart d { x with resv := none } else s

/-- Bytes stored into one word by core c: through its data cache, to memory, or to the stripe window. -/
def State.coreStoreWord (s : State) (c p : Nat) (bs : List Byte) : State :=
  if 0x18000000 ≤ p ∧ p < 0x18080000 then
    let old := bytesLE (s.stripeWord ((p - 0x18000000) / 8)).toNat 8
    let new := old.take (p % 8) ++ bs ++ old.drop (p % 8 + bs.length)
    s.stripeStore p (BitVec.ofNat 64 (natLE new))
  else if hasCaches c && cached false p then
    let (x, _, t) := s.openLine c false p
    let o := p % 64
    let y := { x with dirty := true
                      data := x.data.take o ++ bs ++ x.data.drop (o + bs.length)
                      poison := if bs.length = 8 then x.poison &&& ~~~(1#8 <<< (o / 8)) else x.poison }
    (t.setLine false (lineKey c p) (some y)).evictSome c false
  else (s.settleAt p).write c p bs

/-- Bytes stored by core c: a store never faults on poison. -/
def State.coreStore (s : State) (c a : Nat) (bs : List Byte) : State :=
  s.each (wordChunks a bs.length) fun s x =>
    let p := s.phys c x.1
    (s.coreStoreWord c p ((bs.drop (x.1 - a)).take x.2)).breakResv c p x.2

/-! Accesses. -/

/-- The value an atomic operation writes. -/
def amoResult : AmoOp → Word → Word → Word
  | .swap, _, y => y
  | .add, x, y => x + y
  | .xor, x, y => x ^^^ y
  | .and, x, y => x &&& y
  | .or, x, y => x ||| y
  | .min, x, y => if x.toInt ≤ y.toInt then x else y
  | .max, x, y => if x.toInt ≤ y.toInt then y else x
  | .minu, x, y => if x.toNat ≤ y.toNat then x else y
  | .maxu, x, y => if x.toNat ≤ y.toNat then y else x
  | .lr, x, _ => x
  | .sc, _, y => y

/-- A value returned to the core. -/
def State.returned (s : State) (v : Nat) : State := { s with busRead := BitVec.ofNat 64 v }

/-- A load-reserve holds a word; whatever a core held before it gives up. -/
def State.setResv (s : State) (c : Nat) (r : Option Nat) : State := s.setHart c { s.hart c with resv := r }

/-- A store-conditional succeeds only with the reservation of its word held; it may fail all the same (notes/assumptions/58). -/
def State.holds (s : State) (c p : Nat) : Bool := (s.hart c).resv == some (p / 4) && Config.freeBit s.fresh

/-- An access to memory by core c. -/
def State.memAccess (s : State) (c : Nat) (k : MemKind) (a n : Nat) (v : Word64) : State :=
  let read := fun (then_ : State → Nat → State) =>
    let f := s.coreRead c (k == .fetch) a n
    match f.poison with
    | some w => f.st.poisonTrap c k a w f.new f.lanes
    | none => then_ (f.st.returned (natLE f.bytes)) (natLE f.bytes)
  match k with
  | .load => read fun t _ => t
  | .fetch => read fun t _ => t
  | .store => s.coreStore c a (bytesLE v.toNat n)
  | .amo .lr => read fun t _ => t.setResv c (some (s.phys c a / 4))
  | .amo .sc =>
    let ok := s.holds c (s.phys c a)
    let t := ((if ok then s.coreStore c a (bytesLE v.toNat 4) else s).setResv c none).taken
    t.returned (if ok then 0 else 1)
  | .amo op => read fun t x => t.coreStore c a (bytesLE (amoResult op (BitVec.ofNat 32 x) (v.setWidth 32)).toNat 4)

/-- A word stored to a register by an access of n bytes: what a narrower access puts on the other bytes the spec does not say
(notes/assumptions/59). -/
def State.laneWord (s : State) (a n : Nat) (v : Word64) : Word :=
  let o := a % 4
  let free := bytesLE (Config.free32 s.fresh).toNat 4
  let bs := bytesLE v.toNat n
  BitVec.ofNat 32 (natLE ((free.take o ++ bs ++ free.drop (o + n)).take 4))

/-- An access to a register by core c. -/
def State.regAccess (s : State) (c : Nat) (k : MemKind) (a n : Nat) (v : Word64) : State :=
  let r := a / 4 * 4
  let t := s.regRead c r
  let x := natLE (((bytesLE t.busRead.toNat 4).drop (a % 4)).take n)
  match k with
  | .load => t.returned x
  | .fetch => t.returned x
  | .store => (s.regWrite c r (s.laneWord a n v)).taken
  | .amo .lr => (t.returned x).setResv c (some (a / 4))
  | .amo .sc =>
    let ok := s.holds c a
    let u := ((if ok then s.regWrite c r (v.setWidth 32) else s).setResv c none).taken
    u.returned (if ok then 0 else 1)
  | .amo op => (t.returned x).regWrite c r (amoResult op (BitVec.ofNat 32 x) (v.setWidth 32))

/-- A kind that stores. -/
def stores : MemKind → Bool
  | .store => true
  | .amo .lr => false
  | .amo _ => true
  | _ => false

/-- Whether the crossbar completes an access with an error (R24): no range there, or a store to the ROM or the NOR window. -/
def State.busError (s : State) (c : Nat) (k : MemKind) (a n : Nat) : Bool :=
  !s.mapped c a n || (stores k && (regionOf a == some .rom || regionOf a == some .nor))

/-- An atomic operation on an address that is not a multiple of 4. -/
def misAmo (k : MemKind) (a : Nat) : Bool :=
  match k with
  | .amo _ => a % 4 != 0
  | _ => false

/-- CORE_MEMORY_ACCESS: a crossbar error is an access fault (R24); a misaligned atomic operation too (notes/assumptions/60). -/
def State.coreAccess (s : State) (c : Nat) (k : MemKind) (a n : Nat) (v : Word64) : State :=
  if s.busError c k a n || misAmo k a then s.trap c (faultCause k) a
  else if regionOf a = some .regs then s.regAccess c k a n v
  else if inGeneral a n then s.showAges.memAccess c k a n v
  else s.memAccess c k a n v

/-- CORE_MEMORY_ACCESS (R18, R24, R384). -/
def execCoreMemoryAccess (c : Nat) (k : MemKind) (addr size : Nat) (data : Word64) (s : State) :
    Host.Outcome State Fault Refusal :=
  onUnit (c < 17 && addr < 2 ^ 32 && sizeOk k size) (s.coreAccess c k addr size data)

/-- FENCE (R31): commands act one at a time and each completes, so the order it asks for already holds. -/
def execFence (c : Nat) (s : State) : Host.Outcome State Fault Refusal := onUnit (c < 17) s

/-- CDWBI (R28, R385): in user mode an illegal-instruction exception. -/
def execCdwbi (c addr : Nat) (s : State) : Host.Outcome State Fault Refusal :=
  onUnit (c < 17 && addr < 2 ^ 32) (s.vendorCsr c (s.dropLine false (lineKey c addr)))

/-- CDINV (R28): in user mode an illegal-instruction exception. -/
def execCdinv (c addr : Nat) (s : State) : Host.Outcome State Fault Refusal :=
  onUnit (c < 17 && addr < 2 ^ 32) (s.vendorCsr c (s.setLine false (lineKey c addr) none))

/-- The whole instruction cache of core c invalidated. -/
def State.dropCode (s : State) (c : Nat) : State :=
  { s with integ := { s.integ with icache := s.integ.icache.filter fun e => e.1 / 2 ^ 26 != c } }

/-- CIINV (R28): in user mode an illegal-instruction exception. -/
def execCiinv (c : Nat) (s : State) : Host.Outcome State Fault Refusal := onUnit (c < 17) (s.vendorCsr c (s.dropCode c))

/-- MEINFO_WRITE (Table 11-3): any write clears VALID and nothing else; in user mode an illegal-instruction exception. -/
def execMeinfoWrite (c : Nat) (_v : Word) (s : State) : Host.Outcome State Fault Refusal :=
  onUnit (c < 17) (s.vendorCsr c (s.setHart c { s.hart c with meinfo := (s.hart c).meinfo / 2 * 2 }))

end Sys2Proof.Machine
end

