-- ==== Sys2Proof/Machine/Dispatch.lean ====
section
/-!
DEFINITION. The dispatch: one arm per command, each one direct call of its meaning.
-/

namespace Sys2Proof.Machine

def exec (i : Instr) (s : State) : Host.Outcome State Fault Refusal :=
  match i with
  | .registerWrite m a v => Sys2Proof.Machine.execRegisterWrite m a v s
  | .readClear m a => Sys2Proof.Machine.execReadClear m a s
  | .latchingRead m a => Sys2Proof.Machine.execLatchingRead m a s
  | .addrDataRead m a => Sys2Proof.Machine.execAddrDataRead m a s
  | .blockEnable u => Sys2Proof.Machine.execBlockEnable u s
  | .blockDisable u => Sys2Proof.Machine.execBlockDisable u s
  | .blockModeWrite b ring v => Sys2Proof.Machine.execBlockModeWrite b ring v s
  | .drainUnitComplete u => Sys2Proof.Machine.execDrainUnitComplete u s
  | .engineCrossbarError u => Sys2Proof.Machine.execEngineCrossbarError u s
  | .coreMemoryAccess c k addr size data => Sys2Proof.Machine.execCoreMemoryAccess c k addr size data s
  | .fence c => Sys2Proof.Machine.execFence c s
  | .cdwbi c addr => Sys2Proof.Machine.execCdwbi c addr s
  | .cdinv c addr => Sys2Proof.Machine.execCdinv c addr s
  | .ciinv c => Sys2Proof.Machine.execCiinv c s
  | .meinfoWrite c v => Sys2Proof.Machine.execMeinfoWrite c v s
  | .assistKick b => Sys2Proof.Machine.execAssistKick b s
  | .assistTimeout b => Sys2Proof.Machine.execAssistTimeout b s
  | .taskLeadStart t => Sys2Proof.Machine.execTaskLeadStart t s
  | .taskRelease t => Sys2Proof.Machine.execTaskRelease t s
  | .freeRunRelease t => Sys2Proof.Machine.execFreeRunRelease t s
  | .freeRunBoundExpiry t => Sys2Proof.Machine.execFreeRunBoundExpiry t s
  | .schDone m => Sys2Proof.Machine.execSchDone m s
  | .schAbort m => Sys2Proof.Machine.execSchAbort m s
  | .taskStop t => Sys2Proof.Machine.execTaskStop t s
  | .taskStart t => Sys2Proof.Machine.execTaskStart t s
  | .idleWindowEnd => Sys2Proof.Machine.execIdleWindowEnd s
  | .idleWinWrite v => Sys2Proof.Machine.execIdleWinWrite v s
  | .idleClrmin => Sys2Proof.Machine.execIdleClrmin s
  | .holdBoundExpiry => Sys2Proof.Machine.execHoldBoundExpiry s
  | .switchArm => Sys2Proof.Machine.execSwitchArm s
  | .switchCancel => Sys2Proof.Machine.execSwitchCancel s
  | .switchInstant => Sys2Proof.Machine.execSwitchInstant s
  | .switchGo => Sys2Proof.Machine.execSwitchGo s
  | .inputCopy => Sys2Proof.Machine.execInputCopy s
  | .inputCopyComplete => Sys2Proof.Machine.execInputCopyComplete s
  | .commitStart => Sys2Proof.Machine.execCommitStart s
  | .commitJournalStaged => Sys2Proof.Machine.execCommitJournalStaged s
  | .commitComplete => Sys2Proof.Machine.execCommitComplete s
  | .journalWrite => Sys2Proof.Machine.execJournalWrite s
  | .stationInPdu n pdu => Sys2Proof.Machine.execStationInPdu n pdu s
  | .stationStatusPdu n pdu => Sys2Proof.Machine.execStationStatusPdu n pdu s
  | .stationRefresh n => Sys2Proof.Machine.execStationRefresh n s
  | .stationTimeout n => Sys2Proof.Machine.execStationTimeout n s
  | .stationRearm n => Sys2Proof.Machine.execStationRearm n s
  | .stationProbe n => Sys2Proof.Machine.execStationProbe n s
  | .stationEnable n => Sys2Proof.Machine.execStationEnable n s
  | .stationDisable n => Sys2Proof.Machine.execStationDisable n s
  | .forceSet => Sys2Proof.Machine.execForceSet s
  | .forceClear => Sys2Proof.Machine.execForceClear s
  | .forceClearall => Sys2Proof.Machine.execForceClearall s
  | .imgMdataWrite v => Sys2Proof.Machine.execImgMdataWrite v s
  | .pushSend n => Sys2Proof.Machine.execPushSend n s
  | .subReceived src body => Sys2Proof.Machine.execSubReceived src body s
  | .unsubReceived src body => Sys2Proof.Machine.execUnsubReceived src body s
  | .fetchReceived src body => Sys2Proof.Machine.execFetchReceived src body s
  | .subackReceived src body => Sys2Proof.Machine.execSubackReceived src body s
  | .pushReceived src body => Sys2Proof.Machine.execPushReceived src body s
  | .rangeStaleTimer r => Sys2Proof.Machine.execRangeStaleTimer r s
  | .subRetryTimer r => Sys2Proof.Machine.execSubRetryTimer r s
  | .leaseRenewalTimer r => Sys2Proof.Machine.execLeaseRenewalTimer r s
  | .outboundLeaseExpiry e => Sys2Proof.Machine.execOutboundLeaseExpiry e s
  | .producerRangeTimer e => Sys2Proof.Machine.execProducerRangeTimer e s
  | .hopInitComplete => Sys2Proof.Machine.execHopInitComplete s
  | .pinscan bank => Sys2Proof.Machine.execPinscan bank s
  | .pinscanComplete => Sys2Proof.Machine.execPinscanComplete s
  | .unpin bank => Sys2Proof.Machine.execUnpin bank s
  | .lookupRead p => Sys2Proof.Machine.execLookupRead p s
  | .lookupTouch p => Sys2Proof.Machine.execLookupTouch p s
  | .pageInComplete page => Sys2Proof.Machine.execPageInComplete page s
  | .refetchTimer slot => Sys2Proof.Machine.execRefetchTimer slot s
  | .hopTdataWrite v => Sys2Proof.Machine.execHopTdataWrite v s
  | .frameForward p f => Sys2Proof.Machine.execFrameForward p f s
  | .udpDatagramReceived p d => Sys2Proof.Machine.execUdpDatagramReceived p d s
  | .neighborSolicitReceived p target => Sys2Proof.Machine.execNeighborSolicitReceived p target s
  | .echoRequestReceived p dst => Sys2Proof.Machine.execEchoRequestReceived p dst s
  | .linkUp p speed => Sys2Proof.Machine.execLinkUp p speed s
  | .linkDown p => Sys2Proof.Machine.execLinkDown p s
  | .keyxOfferReceived p k => Sys2Proof.Machine.execKeyxOfferReceived p k s
  | .keyxAnswerReceived p k => Sys2Proof.Machine.execKeyxAnswerReceived p k s
  | .keyxOfferTimer p => Sys2Proof.Machine.execKeyxOfferTimer p s
  | .keyingTimeout p => Sys2Proof.Machine.execKeyingTimeout p s
  | .rekeyTimer p => Sys2Proof.Machine.execRekeyTimer p s
  | .oldSaDelete p => Sys2Proof.Machine.execOldSaDelete p s
  | .helloTimer p => Sys2Proof.Machine.execHelloTimer p s
  | .helloReceived p h => Sys2Proof.Machine.execHelloReceived p h s
  | .deadTimer p => Sys2Proof.Machine.execDeadTimer p s
  | .nodeClaimPick => Sys2Proof.Machine.execNodeClaimPick s
  | .tentativeTimer => Sys2Proof.Machine.execTentativeTimer s
  | .nonodeRetry => Sys2Proof.Machine.execNonodeRetry s
  | .lsaReceived p l => Sys2Proof.Machine.execLsaReceived p l s
  | .lsackReceived p items => Sys2Proof.Machine.execLsackReceived p items s
  | .lsaRetransmit p => Sys2Proof.Machine.execLsaRetransmit p s
  | .lsaRefresh => Sys2Proof.Machine.execLsaRefresh s
  | .lsaAgeOut n => Sys2Proof.Machine.execLsaAgeOut n s
  | .routeComputeStart => Sys2Proof.Machine.execRouteComputeStart s
  | .routeComputeComplete => Sys2Proof.Machine.execRouteComputeComplete s
  | .quenchReceived p f => Sys2Proof.Machine.execQuenchReceived p f s
  | .quenchResend => Sys2Proof.Machine.execQuenchResend s
  | .quenchRuleExpiry k => Sys2Proof.Machine.execQuenchRuleExpiry k s
  | .preemptVerifyComplete p ok => Sys2Proof.Machine.execPreemptVerifyComplete p ok s
  | .ptpMessageReceived p x => Sys2Proof.Machine.execPtpMessageReceived p x s
  | .ptpTxTimer p => Sys2Proof.Machine.execPtpTxTimer p s
  | .ptpAnnounceTimeout => Sys2Proof.Machine.execPtpAnnounceTimeout s
  | .mbxSend len => Sys2Proof.Machine.execMbxSend len s
  | .openReceived f => Sys2Proof.Machine.execOpenReceived f s
  | .confirmReceived f => Sys2Proof.Machine.execConfirmReceived f s
  | .abandonReceived f => Sys2Proof.Machine.execAbandonReceived f s
  | .pendingTimeout slot => Sys2Proof.Machine.execPendingTimeout slot s
  | .sessionRead f => Sys2Proof.Machine.execSessionRead f s
  | .sessionWrite f => Sys2Proof.Machine.execSessionWrite f s
  | .sessionSub f => Sys2Proof.Machine.execSessionSub f s
  | .sessionUnsub f => Sys2Proof.Machine.execSessionUnsub f s
  | .sessionForce f => Sys2Proof.Machine.execSessionForce f s
  | .sessionClose f => Sys2Proof.Machine.execSessionClose f s
  | .evread f => Sys2Proof.Machine.execEvread f s
  | .subPeriodPush slot => Sys2Proof.Machine.execSubPeriodPush slot s
  | .sessionIdleExpiry slot => Sys2Proof.Machine.execSessionIdleExpiry slot s
  | .sessionLifetimeExpiry slot => Sys2Proof.Machine.execSessionLifetimeExpiry slot s
  | .expiredSlotFree slot => Sys2Proof.Machine.execExpiredSlotFree slot s
  | .tenantRevoke t => Sys2Proof.Machine.execTenantRevoke t s
  | .tenantCloseall t => Sys2Proof.Machine.execTenantCloseall t s
  | .slotClose => Sys2Proof.Machine.execSlotClose s
  | .authQuenchReceived p f => Sys2Proof.Machine.execAuthQuenchReceived p f s
  | .assistResultReceived f => Sys2Proof.Machine.execAssistResultReceived f s
  | .loopDue group n => Sys2Proof.Machine.execLoopDue group n s
  | .loopEvaluation => Sys2Proof.Machine.execLoopEvaluation s
  | .groupEvaluation => Sys2Proof.Machine.execGroupEvaluation s
  | .loopMdataWrite v => Sys2Proof.Machine.execLoopMdataWrite v s
  | .sampleSetArrival m => Sys2Proof.Machine.execSampleSetArrival m s
  | .zcTimeout => Sys2Proof.Machine.execZcTimeout s
  | .syntheticCrossing => Sys2Proof.Machine.execSyntheticCrossing s
  | .checkpointTimer => Sys2Proof.Machine.execCheckpointTimer s
  | .checkpointComplete => Sys2Proof.Machine.execCheckpointComplete s
  | .meterClear feeder => Sys2Proof.Machine.execMeterClear feeder s
  | .meterCkpt => Sys2Proof.Machine.execMeterCkpt s
  | .meterRestore reg => Sys2Proof.Machine.execMeterRestore reg s
  | .calapply ch => Sys2Proof.Machine.execCalapply ch s
  | .mtrMdataWrite v => Sys2Proof.Machine.execMtrMdataWrite v s
  | .diEdge levels => Sys2Proof.Machine.execDiEdge levels s
  | .diFilterAccept ch => Sys2Proof.Machine.execDiFilterAccept ch s
  | .diFilterWrite ch v => Sys2Proof.Machine.execDiFilterWrite ch v s
  | .freqGateWindowEnd k => Sys2Proof.Machine.execFreqGateWindowEnd k s
  | .counterConfigWrite k v => Sys2Proof.Machine.execCounterConfigWrite k v s
  | .counterClear k => Sys2Proof.Machine.execCounterClear k s
  | .counterLoad k => Sys2Proof.Machine.execCounterLoad k s
  | .doResume o => Sys2Proof.Machine.execDoResume o s
  | .doResumeall analog => Sys2Proof.Machine.execDoResumeall analog s
  | .doOcclr ch => Sys2Proof.Machine.execDoOcclr ch s
  | .outputReload o => Sys2Proof.Machine.execOutputReload o s
  | .outputEnable analog => Sys2Proof.Machine.execOutputEnable analog s
  | .outputDisable analog => Sys2Proof.Machine.execOutputDisable analog s
  | .doConfigWrite o safeCode v => Sys2Proof.Machine.execDoConfigWrite o safeCode v s
  | .keepaliveSilence o => Sys2Proof.Machine.execKeepaliveSilence o s
  | .kick => Sys2Proof.Machine.execKick s
  | .kickExpiry => Sys2Proof.Machine.execKickExpiry s
  | .kaCfgWrite v => Sys2Proof.Machine.execKaCfgWrite v s
  | .doOvercurrent ch => Sys2Proof.Machine.execDoOvercurrent ch s
  | .aoOvercurrent ch => Sys2Proof.Machine.execAoOvercurrent ch s
  | .fieldSupplyFail g => Sys2Proof.Machine.execFieldSupplyFail g s
  | .fieldSupplyReturn g => Sys2Proof.Machine.execFieldSupplyReturn g s
  | .reflexArm w v => Sys2Proof.Machine.execReflexArm w v s
  | .reflexDisarm w v => Sys2Proof.Machine.execReflexDisarm w v s
  | .reflexEnable => Sys2Proof.Machine.execReflexEnable s
  | .reflexDisable => Sys2Proof.Machine.execReflexDisable s
  | .reflexCfgWrite rule word v => Sys2Proof.Machine.execReflexCfgWrite rule word v s
  | .pulseExpiry target => Sys2Proof.Machine.execPulseExpiry target s
  | .aiConversionComplete ch r => Sys2Proof.Machine.execAiConversionComplete ch r s
  | .aiConfigWrite ch v => Sys2Proof.Machine.execAiConfigWrite ch v s
  | .canTxRequest c w v => Sys2Proof.Machine.execCanTxRequest c w v s
  | .canTxCancel c w v => Sys2Proof.Machine.execCanTxCancel c w v s
  | .canFrameStart c => Sys2Proof.Machine.execCanFrameStart c s
  | .canTxAttemptEnd c r => Sys2Proof.Machine.execCanTxAttemptEnd c r s
  | .canFrameReceived c f => Sys2Proof.Machine.execCanFrameReceived c f s
  | .canProtocolException c => Sys2Proof.Machine.execCanProtocolException c s
  | .canRxLock c buf => Sys2Proof.Machine.execCanRxLock c buf s
  | .canRxRelease c pop => Sys2Proof.Machine.execCanRxRelease c pop s
  | .canLockTimeout c => Sys2Proof.Machine.execCanLockTimeout c s
  | .canRxnewFree c w v => Sys2Proof.Machine.execCanRxnewFree c w v s
  | .canMdataWrite c v => Sys2Proof.Machine.execCanMdataWrite c v s
  | .canSleep c => Sys2Proof.Machine.execCanSleep c s
  | .canSleepEntered c => Sys2Proof.Machine.execCanSleepEntered c s
  | .canWake c => Sys2Proof.Machine.execCanWake c s
  | .canWakeEvent c e => Sys2Proof.Machine.execCanWakeEvent c e s
  | .canBorecov c => Sys2Proof.Machine.execCanBorecov c s
  | .canBusoffRecoveryComplete c => Sys2Proof.Machine.execCanBusoffRecoveryComplete c s
  | .canTxresume c => Sys2Proof.Machine.execCanTxresume c s
  | .canAbortall c => Sys2Proof.Machine.execCanAbortall c s
  | .canTsCapture c => Sys2Proof.Machine.execCanTsCapture c s
  | .rewriteQueueService => Sys2Proof.Machine.execRewriteQueueService s
  | .scrubStep => Sys2Proof.Machine.execScrubStep s
  | .secdedScrub => Sys2Proof.Machine.execSecdedScrub s
  | .dramScrubBurst => Sys2Proof.Machine.execDramScrubBurst s
  | .bucketLeak k => Sys2Proof.Machine.execBucketLeak k s
  | .egressReleaseFabtx => Sys2Proof.Machine.execEgressReleaseFabtx s
  | .egressReleaseMirror => Sys2Proof.Machine.execEgressReleaseMirror s
  | .injectOdd lanes => Sys2Proof.Machine.execInjectOdd lanes s
  | .injectEven lanes => Sys2Proof.Machine.execInjectEven lanes s
  | .injectPar lanes => Sys2Proof.Machine.execInjectPar lanes s
  | .injectTag => Sys2Proof.Machine.execInjectTag s
  | .injectPoison lanes => Sys2Proof.Machine.execInjectPoison lanes s
  | .injectDouble => Sys2Proof.Machine.execInjectDouble s
  | .stripeWindowStore addr data => Sys2Proof.Machine.execStripeWindowStore addr data s
  | .smapWrite v => Sys2Proof.Machine.execSmapWrite v s
  | .keyCqtailWrite v => Sys2Proof.Machine.execKeyCqtailWrite v s
  | .keyHash => Sys2Proof.Machine.execKeyHash s
  | .keyHmac => Sys2Proof.Machine.execKeyHmac s
  | .keyKdf => Sys2Proof.Machine.execKeyKdf s
  | .keyGcmEnc => Sys2Proof.Machine.execKeyGcmEnc s
  | .keyGcmDec => Sys2Proof.Machine.execKeyGcmDec s
  | .keySign => Sys2Proof.Machine.execKeySign s
  | .keyVerify => Sys2Proof.Machine.execKeyVerify s
  | .keyEcdh => Sys2Proof.Machine.execKeyEcdh s
  | .keyKeygen => Sys2Proof.Machine.execKeyKeygen s
  | .keyPubkey => Sys2Proof.Machine.execKeyPubkey s
  | .keyRandom => Sys2Proof.Machine.execKeyRandom s
  | .keyWrap => Sys2Proof.Machine.execKeyWrap s
  | .keyUnwrap => Sys2Proof.Machine.execKeyUnwrap s
  | .keySeal => Sys2Proof.Machine.execKeySeal s
  | .keyUnseal => Sys2Proof.Machine.execKeyUnseal s
  | .keyReseal => Sys2Proof.Machine.execKeyReseal s
  | .keyImport => Sys2Proof.Machine.execKeyImport s
  | .keyExtend => Sys2Proof.Machine.execKeyExtend s
  | .keyDeclare => Sys2Proof.Machine.execKeyDeclare s
  | .keyAdopt => Sys2Proof.Machine.execKeyAdopt s
  | .keySetpol => Sys2Proof.Machine.execKeySetpol s
  | .keyOpComplete => Sys2Proof.Machine.execKeyOpComplete s
  | .keySessionEstablish r => Sys2Proof.Machine.execKeySessionEstablish r s
  | .keySessionCrypt session dir seq => Sys2Proof.Machine.execKeySessionCrypt session dir seq s
  | .keyTenantHmac tenant data => Sys2Proof.Machine.execKeyTenantHmac tenant data s
  | .keyFabricDerive r => Sys2Proof.Machine.execKeyFabricDerive r s
  | .keyInval slot => Sys2Proof.Machine.execKeyInval slot s
  | .keyErase slot => Sys2Proof.Machine.execKeyErase slot s
  | .tamperAck => Sys2Proof.Machine.execTamperAck s
  | .zeroize => Sys2Proof.Machine.execZeroize s
  | .tamperLoopConfirm loop isOpen => Sys2Proof.Machine.execTamperLoopConfirm loop isOpen s
  | .onDieTamper src => Sys2Proof.Machine.execOnDieTamper src s
  | .drbgReseed pass => Sys2Proof.Machine.execDrbgReseed pass s
  | .entropyHealthFailure => Sys2Proof.Machine.execEntropyHealthFailure s
  | .eventPost e => Sys2Proof.Machine.execEventPost e s
  | .swPost m => Sys2Proof.Machine.execSwPost m s
  | .recordWrite bad => Sys2Proof.Machine.execRecordWrite bad s
  | .tailWrite => Sys2Proof.Machine.execTailWrite s
  | .evtClear => Sys2Proof.Machine.execEvtClear s
  | .evtFlush => Sys2Proof.Machine.execEvtFlush s
  | .tailScanComplete => Sys2Proof.Machine.execTailScanComplete s
  | .evtOldestRead => Sys2Proof.Machine.execEvtOldestRead s
  | .fantailSend => Sys2Proof.Machine.execFantailSend s
  | .fantailReceived onP4 f => Sys2Proof.Machine.execFantailReceived onP4 f s
  | .pathLoss onP4 => Sys2Proof.Machine.execPathLoss onP4 s
  | .partnerLoss => Sys2Proof.Machine.execPartnerLoss s
  | .electTimeout => Sys2Proof.Machine.execElectTimeout s
  | .mirrorSend => Sys2Proof.Machine.execMirrorSend s
  | .mirrorReceived f => Sys2Proof.Machine.execMirrorReceived f s
  | .loopStateSync => Sys2Proof.Machine.execLoopStateSync s
  | .p4FrameReceived f => Sys2Proof.Machine.execP4FrameReceived f s
  | .pairSwitchover => Sys2Proof.Machine.execPairSwitchover s
  | .pairResync => Sys2Proof.Machine.execPairResync s
  | .pairDemote => Sys2Proof.Machine.execPairDemote s
  | .bulkOpen src x => Sys2Proof.Machine.execBulkOpen src x s
  | .bulkData src x => Sys2Proof.Machine.execBulkData src x s
  | .bulkBlockProgrammed r => Sys2Proof.Machine.execBulkBlockProgrammed r s
  | .bulkEnd src x => Sys2Proof.Machine.execBulkEnd src x s
  | .bulkAbort src x => Sys2Proof.Machine.execBulkAbort src x s
  | .transferTimeout => Sys2Proof.Machine.execTransferTimeout s
  | .updErase slot => Sys2Proof.Machine.execUpdErase slot s
  | .updVerify slot => Sys2Proof.Machine.execUpdVerify slot s
  | .verifyComplete => Sys2Proof.Machine.execVerifyComplete s
  | .updStage slot => Sys2Proof.Machine.execUpdStage slot s
  | .stageComplete => Sys2Proof.Machine.execStageComplete s
  | .updUnstage => Sys2Proof.Machine.execUpdUnstage s
  | .updActivate slot => Sys2Proof.Machine.execUpdActivate slot s
  | .updConfirm slot => Sys2Proof.Machine.execUpdConfirm slot s
  | .updRecover => Sys2Proof.Machine.execUpdRecover s
  | .migrationComplete => Sys2Proof.Machine.execMigrationComplete s
  | .updCommit => Sys2Proof.Machine.execUpdCommit s
  | .updAbort => Sys2Proof.Machine.execUpdAbort s
  | .holdmaxExpiry => Sys2Proof.Machine.execHoldmaxExpiry s
  | .recoveryAnnounceTimer => Sys2Proof.Machine.execRecoveryAnnounceTimer s
  | .recoveryLoad o => Sys2Proof.Machine.execRecoveryLoad o s
  | .recoveryEnrol o => Sys2Proof.Machine.execRecoveryEnrol o s
  | .recoveryRestart o => Sys2Proof.Machine.execRecoveryRestart o s
  | .tftpDataReceived block data => Sys2Proof.Machine.execTftpDataReceived block data s
  | .tftpRetransmitTimer => Sys2Proof.Machine.execTftpRetransmitTimer s
  | .powerGood r => Sys2Proof.Machine.execPowerGood r s
  | .huCapMeasured uF => Sys2Proof.Machine.execHuCapMeasured uF s
  | .huFull => Sys2Proof.Machine.execHuFull s
  | .powerSourceChange x1 poe type2 => Sys2Proof.Machine.execPowerSourceChange x1 poe type2 s
  | .vinLow r => Sys2Proof.Machine.execVinLow r s
  | .vinWarning r => Sys2Proof.Machine.execVinWarning r s
  | .testbrake => Sys2Proof.Machine.execTestbrake s
  | .halt => Sys2Proof.Machine.execHalt s
  | .brakeMarkerWritten => Sys2Proof.Machine.execBrakeMarkerWritten s
  | .vinResumeLevel r => Sys2Proof.Machine.execVinResumeLevel r s
  | .resumeWindowComplete => Sys2Proof.Machine.execResumeWindowComplete s
  | .huResetLevel => Sys2Proof.Machine.execHuResetLevel s
  | .moduleResetRelease f => Sys2Proof.Machine.execModuleResetRelease f s
  | .runtimeStart => Sys2Proof.Machine.execRuntimeStart s
  | .replicaWaitEnd => Sys2Proof.Machine.execReplicaWaitEnd s
  | .sysLockSet => Sys2Proof.Machine.execSysLockSet s
  | .sysRstReset => Sys2Proof.Machine.execSysRstReset s
  | .sysRstFatal => Sys2Proof.Machine.execSysRstFatal s
  | .wdtKick => Sys2Proof.Machine.execWdtKick s
  | .wdtExpiry => Sys2Proof.Machine.execWdtExpiry s
  | .mtLoad => Sys2Proof.Machine.execMtLoad s
  | .rtcTick => Sys2Proof.Machine.execRtcTick s
  | .oscStop => Sys2Proof.Machine.execOscStop s
  | .backupPowerOn => Sys2Proof.Machine.execBackupPowerOn s
  | .backupSourceChange main => Sys2Proof.Machine.execBackupSourceChange main s
  | .vbatMeasure mV => Sys2Proof.Machine.execVbatMeasure mV s
  | .rtcFreezeRead a => Sys2Proof.Machine.execRtcFreezeRead a s
  | .freezeTimeout => Sys2Proof.Machine.execFreezeTimeout s
  | .rtcSet => Sys2Proof.Machine.execRtcSet s
  | .rtcSync => Sys2Proof.Machine.execRtcSync s
  | .syncMatch => Sys2Proof.Machine.execSyncMatch s
  | .bbinit => Sys2Proof.Machine.execBbinit s
  | .backupByteWrite word v => Sys2Proof.Machine.execBackupByteWrite word v s
  | .canRxError c lec => Sys2Proof.Machine.execCanRxError c lec s
  | .canIntegrationComplete c => Sys2Proof.Machine.execCanIntegrationComplete c s
  | .flashEraseComplete ok => Sys2Proof.Machine.execFlashEraseComplete ok s
  | .startRecordWrite => Sys2Proof.Machine.execStartRecordWrite s

end Sys2Proof.Machine
end

