-- ==== Sys2Proof/Machine/Tick.lean ====
section
/-!
DEFINITION. The clock: what passes while no command waits (notes/assumptions/1). One cycle of CORE, 2 ns: time and the cores' budgets go
on, each port sends a frame where it can, and the ages that the link-state database shows follow.
-/

namespace Sys2Proof.Machine

/-- One CORE cycle, in nanoseconds (Table 0-2). -/
def corePeriod : Nat := 2

/-- A cycle in which no command acts. -/
def State.idle (s : State) : State :=
  let t := s.elapse corePeriod
  (t.each (List.range 4) fun t p => t.txPort p).showAges

end Sys2Proof.Machine
end

