-- ==== Sys2Proof/WellFormed.lean ====
section
/-!
DEFINITION. Well-formed commands: every unit that a command names is one that the module has (the counts and ranges of the
spec's tables). A command that is not well formed cannot arise, and the machine stops on it.
-/

namespace Sys2Proof

open Machine

/-- Every unit number of the command lies within what the module has. -/
def Instr.wf : Instr → Bool
  | .registerWrite m _ _ => m < 17
  | .readClear m _ => m < 17
  | .latchingRead m _ => m < 17
  | .addrDataRead m _ => m < 17
  | .blockEnable _ => true
  | .blockDisable _ => true
  | .blockModeWrite _ _ _ => true
  | .drainUnitComplete _ => true
  | .engineCrossbarError _ => true
  | .coreMemoryAccess c k addr size _ => c < 17 && addr < 2 ^ 32 && sizeOk k size
  | .fence c => c < 17
  | .cdwbi c addr => c < 17 && addr < 2 ^ 32
  | .cdinv c addr => c < 17 && addr < 2 ^ 32
  | .ciinv c => c < 17
  | .meinfoWrite c _ => c < 17
  | .assistKick _ => true
  | .assistTimeout _ => true
  | .taskLeadStart t => t < 256
  | .taskRelease t => t < 256
  | .freeRunRelease t => t < 256
  | .freeRunBoundExpiry t => t < 256
  | .schDone m => m < 17
  | .schAbort m => m < 17
  | .taskStop t => t < 256
  | .taskStart t => t < 256
  | .idleWindowEnd => true
  | .idleWinWrite _ => true
  | .idleClrmin => true
  | .holdBoundExpiry => true
  | .switchArm => true
  | .switchCancel => true
  | .switchInstant => true
  | .switchGo => true
  | .inputCopy => true
  | .inputCopyComplete => true
  | .commitStart => true
  | .commitJournalStaged => true
  | .commitComplete => true
  | .journalWrite => true
  | .stationInPdu n _ => n < 64
  | .stationStatusPdu n _ => n < 64
  | .stationRefresh n => n < 64
  | .stationTimeout n => n < 64
  | .stationRearm n => n < 64
  | .stationProbe n => n < 64
  | .stationEnable n => n < 64
  | .stationDisable n => n < 64
  | .forceSet => true
  | .forceClear => true
  | .forceClearall => true
  | .imgMdataWrite _ => true
  | .pushSend _ => true
  | .subReceived _ _ => true
  | .unsubReceived _ _ => true
  | .fetchReceived _ _ => true
  | .subackReceived _ _ => true
  | .pushReceived _ _ => true
  | .rangeStaleTimer r => r < 8192
  | .subRetryTimer r => r < 8192
  | .leaseRenewalTimer r => r < 8192
  | .outboundLeaseExpiry e => e < 4096
  | .producerRangeTimer e => e < 4096
  | .hopInitComplete => true
  | .pinscan bank => bank < 2
  | .pinscanComplete => true
  | .unpin bank => bank < 2
  | .lookupRead p => p < 4
  | .lookupTouch p => p < 4
  | .pageInComplete page => page < 2048
  | .refetchTimer slot => slot < 262144
  | .hopTdataWrite _ => true
  | .frameForward p _ => p < 5
  | .udpDatagramReceived p _ => p < 4
  | .neighborSolicitReceived p _ => p < 4
  | .echoRequestReceived p _ => p < 4
  | .linkUp p _ => p < 5
  | .linkDown p => p < 5
  | .keyxOfferReceived p _ => p < 4
  | .keyxAnswerReceived p _ => p < 4
  | .keyxOfferTimer p => p < 4
  | .keyingTimeout p => p < 4
  | .rekeyTimer p => p < 4
  | .oldSaDelete p => p < 4
  | .helloTimer p => p < 4
  | .helloReceived p _ => p < 4
  | .deadTimer p => p < 4
  | .nodeClaimPick => true
  | .tentativeTimer => true
  | .nonodeRetry => true
  | .lsaReceived p _ => p < 4
  | .lsackReceived p _ => p < 4
  | .lsaRetransmit p => p < 4
  | .lsaRefresh => true
  | .lsaAgeOut n => n < 4096
  | .routeComputeStart => true
  | .routeComputeComplete => true
  | .quenchReceived p _ => p < 5
  | .quenchResend => true
  | .quenchRuleExpiry k => k < 160
  | .preemptVerifyComplete p _ => p < 4
  | .ptpMessageReceived p _ => p < 4
  | .ptpTxTimer p => p < 4
  | .ptpAnnounceTimeout => true
  | .mbxSend _ => true
  | .openReceived _ => true
  | .confirmReceived _ => true
  | .abandonReceived _ => true
  | .pendingTimeout slot => slot < 512
  | .sessionRead _ => true
  | .sessionWrite _ => true
  | .sessionSub _ => true
  | .sessionUnsub _ => true
  | .sessionForce _ => true
  | .sessionClose _ => true
  | .evread _ => true
  | .subPeriodPush slot => slot < 512
  | .sessionIdleExpiry slot => slot < 512
  | .sessionLifetimeExpiry slot => slot < 512
  | .expiredSlotFree slot => slot < 512
  | .tenantRevoke t => t < 256
  | .tenantCloseall t => t < 256
  | .slotClose => true
  | .authQuenchReceived p _ => p < 5
  | .assistResultReceived _ => true
  | .loopDue group n => n < (if group then 32 else 256)
  | .loopEvaluation => true
  | .groupEvaluation => true
  | .loopMdataWrite _ => true
  | .sampleSetArrival _ => true
  | .zcTimeout => true
  | .syntheticCrossing => true
  | .checkpointTimer => true
  | .checkpointComplete => true
  | .meterClear _ => true
  | .meterCkpt => true
  | .meterRestore _ => true
  | .calapply _ => true
  | .mtrMdataWrite _ => true
  | .diEdge _ => true
  | .diFilterAccept ch => 8 ≤ ch && ch < 32
  | .diFilterWrite ch _ => 8 ≤ ch && ch < 32
  | .freqGateWindowEnd k => k < 8
  | .counterConfigWrite k _ => k < 8
  | .counterClear k => k < 8
  | .counterLoad k => k < 8
  | .doResume o => o.nameable
  | .doResumeall _ => true
  | .doOcclr ch => ch < 32
  | .outputReload o => o.nameable
  | .outputEnable _ => true
  | .outputDisable _ => true
  | .doConfigWrite o safeCode _ => o.ok && (o.isAnalog || !safeCode)
  | .keepaliveSilence o => o.ok
  | .kick => true
  | .kickExpiry => true
  | .kaCfgWrite _ => true
  | .doOvercurrent ch => ch < 24
  | .aoOvercurrent ch => ch < 8
  | .fieldSupplyFail g => 1 ≤ g && g ≤ 4
  | .fieldSupplyReturn g => 1 ≤ g && g ≤ 4
  | .reflexArm w _ => w < 2
  | .reflexDisarm w _ => w < 2
  | .reflexEnable => true
  | .reflexDisable => true
  | .reflexCfgWrite rule word _ => rule < 64 && word < 2
  | .pulseExpiry target => target < 8
  | .aiConversionComplete ch r => ch < 8 && r.code < 65536
  | .aiConfigWrite ch _ => ch < 8
  | .canTxRequest c w _ => c < 4 && w < 2
  | .canTxCancel c w _ => c < 4 && w < 2
  | .canFrameStart c => c < 4
  | .canTxAttemptEnd c _ => c < 4
  | .canFrameReceived c _ => c < 4
  | .canProtocolException c => c < 4
  | .canRxLock c buf => c < 4 && buf < 128
  | .canRxRelease c _ => c < 4
  | .canLockTimeout c => c < 4
  | .canRxnewFree c w _ => c < 4 && w < 4
  | .canMdataWrite c _ => c < 4
  | .canSleep c => c < 4
  | .canSleepEntered c => c < 4
  | .canWake c => c < 4
  | .canWakeEvent c _ => c < 4
  | .canBorecov c => c < 4
  | .canBusoffRecoveryComplete c => c < 4
  | .canTxresume c => c < 4
  | .canAbortall c => c < 4
  | .canTsCapture c => c < 4
  | .rewriteQueueService => true
  | .scrubStep => true
  | .secdedScrub => true
  | .dramScrubBurst => true
  | .bucketLeak k => k < 7
  | .egressReleaseFabtx => true
  | .egressReleaseMirror => true
  | .injectOdd _ => true
  | .injectEven _ => true
  | .injectPar _ => true
  | .injectTag => true
  | .injectPoison _ => true
  | .injectDouble => true
  | .stripeWindowStore addr _ => 0x18000000 ≤ addr && addr < 0x18080000
  | .smapWrite _ => true
  | .keyCqtailWrite _ => true
  | .keyHash => true
  | .keyHmac => true
  | .keyKdf => true
  | .keyGcmEnc => true
  | .keyGcmDec => true
  | .keySign => true
  | .keyVerify => true
  | .keyEcdh => true
  | .keyKeygen => true
  | .keyPubkey => true
  | .keyRandom => true
  | .keyWrap => true
  | .keyUnwrap => true
  | .keySeal => true
  | .keyUnseal => true
  | .keyReseal => true
  | .keyImport => true
  | .keyExtend => true
  | .keyDeclare => true
  | .keyAdopt => true
  | .keySetpol => true
  | .keyOpComplete => true
  | .keySessionEstablish r => r.session < 512
  | .keySessionCrypt session _ _ => session < 512
  | .keyTenantHmac tenant _ => tenant < 256
  | .keyFabricDerive _ => true
  | .keyInval slot => slot < 64
  | .keyErase slot => slot < 64
  | .tamperAck => true
  | .zeroize => true
  | .tamperLoopConfirm loop _ => loop < 3
  | .onDieTamper src => src < 3
  | .drbgReseed _ => true
  | .entropyHealthFailure => true
  | .eventPost _ => true
  | .swPost m => m < 17
  | .recordWrite _ => true
  | .tailWrite => true
  | .evtClear => true
  | .evtFlush => true
  | .tailScanComplete => true
  | .evtOldestRead => true
  | .fantailSend => true
  | .fantailReceived _ _ => true
  | .pathLoss _ => true
  | .partnerLoss => true
  | .electTimeout => true
  | .mirrorSend => true
  | .mirrorReceived _ => true
  | .loopStateSync => true
  | .p4FrameReceived _ => true
  | .pairSwitchover => true
  | .pairResync => true
  | .pairDemote => true
  | .bulkOpen _ _ => true
  | .bulkData _ _ => true
  | .bulkBlockProgrammed _ => true
  | .bulkEnd _ _ => true
  | .bulkAbort _ _ => true
  | .transferTimeout => true
  | .updErase slot => slot < 2
  | .updVerify slot => slot < 2
  | .verifyComplete => true
  | .updStage slot => slot < 2
  | .stageComplete => true
  | .updUnstage => true
  | .updActivate slot => slot < 2
  | .updConfirm slot => slot < 2
  | .updRecover => true
  | .migrationComplete => true
  | .updCommit => true
  | .updAbort => true
  | .holdmaxExpiry => true
  | .recoveryAnnounceTimer => true
  | .recoveryLoad _ => true
  | .recoveryEnrol _ => true
  | .recoveryRestart _ => true
  | .tftpDataReceived _ _ => true
  | .tftpRetransmitTimer => true
  | .powerGood _ => true
  | .huCapMeasured _ => true
  | .huFull => true
  | .powerSourceChange _ _ _ => true
  | .vinLow _ => true
  | .vinWarning _ => true
  | .testbrake => true
  | .halt => true
  | .brakeMarkerWritten => true
  | .vinResumeLevel _ => true
  | .resumeWindowComplete => true
  | .huResetLevel => true
  | .moduleResetRelease _ => true
  | .runtimeStart => true
  | .replicaWaitEnd => true
  | .sysLockSet => true
  | .sysRstReset => true
  | .sysRstFatal => true
  | .wdtKick => true
  | .wdtExpiry => true
  | .mtLoad => true
  | .rtcTick => true
  | .oscStop => true
  | .backupPowerOn => true
  | .backupSourceChange _ => true
  | .vbatMeasure _ => true
  | .rtcFreezeRead a => timeRegs.contains a
  | .freezeTimeout => true
  | .rtcSet => true
  | .rtcSync => true
  | .syncMatch => true
  | .bbinit => true
  | .backupByteWrite i _ => i < 16
  | .canRxError c _ => c < 4
  | .canIntegrationComplete c => c < 4
  | .flashEraseComplete _ => true
  | .startRecordWrite => true

end Sys2Proof
end

