-- ==== Sys2Proof/Safety.lean ====
section
/-!
DEFINITION. What a sound state is, and a safe run: memory and registers in their canonical forms, and only well-formed commands
waiting. A run is safe while it does not stop.
-/

namespace Sys2Proof.Machine

/-- Memory and the register file in their canonical forms, with q as the queue. -/
structure Sound (q : List Instr) (s : State) : Prop where
  queue : s.pending = q
  mem : Memory.wf s.mem = true
  regs : SMap.wf resetOf s.regs = true

/-- The invariant of the module: canonical forms, and every waiting command well formed. -/
structure State.Inv (s : State) : Prop where
  mem : Memory.wf s.mem = true
  regs : SMap.wf resetOf s.regs = true
  queue : ∀ c ∈ s.pending, c.wf = true

/-- An outcome that is a next state. -/
def isNext (o : Host.Outcome State Fault Refusal) : Prop := ∃ t, o = .next t

end Sys2Proof.Machine
end

