-- ==== Sys2Proof/Certificates/Slice0/Obligations.lean ====
section
/-!
DEFINITION. The statements about the model: one proposition each, over every state. Most state a family of commands, clause by
clause: under what the rules say of the state and the operands, what the command answers and what it leaves.
-/

open Sys2Proof Sys2Proof.Machine

/-- REGISTER_WRITE (R8, R10, R11, R25), by a register of each kind: an RW register takes the word; a write of an RO register is
discarded; a locked RWL register keeps its value, an unlocked one takes a value that is not reserved and keeps its value against
a reserved one; a W1C register clears the bits written 1; a write of an offset that holds no register is discarded. -/
def Obligations.register_write_by_access_code : Prop :=
  ∀ (s : State) (m : Nat) (v : Word), m < 17 →
    exec (.registerWrite m R.RTC_SYNC_LO.addr v) s = .next (s.setReg R.RTC_SYNC_LO.addr v) ∧
    exec (.registerWrite m R.SYS_ID.addr v) s = .next s ∧
    (s.locked = true → exec (.registerWrite m R.SYS_STARTCFG.addr v) s = .next s) ∧
    (s.locked = false → R.SYS_STARTCFG.COLDWAIT_MS.of v ≤ 600 →
      exec (.registerWrite m R.SYS_STARTCFG.addr v) s =
        .next (s.wr R.SYS_STARTCFG.COLDWAIT_MS (R.SYS_STARTCFG.COLDWAIT_MS.of v))) ∧
    (600 < R.SYS_STARTCFG.COLDWAIT_MS.of v → exec (.registerWrite m R.SYS_STARTCFG.addr v) s = .next s) ∧
    exec (.registerWrite m R.DIO_DI_EDGE.addr v) s =
      .next (s.setReg R.DIO_DI_EDGE.addr (s.reg R.DIO_DI_EDGE.addr &&& ~~~v)) ∧
    exec (.registerWrite m 0x4011FFFC v) s = .next s

/-- READ_CLEAR, LATCHING_READ and ADDR_DATA_READ (R8, R15, R86): a read of an RC counter returns its value and leaves it 0, and no
other register changes; a read of SYS_MT_LO returns the low word of MT and latches the high one, and a read of SYS_MT_HI returns
the latched word; a read of FAB_Q_DATA returns the word at the pair's address, which counts on by one. -/
def Obligations.register_read_effects : Prop :=
  ∀ (s : State) (m : Nat), m < 17 →
    (∀ a ∈ [R.HOP_CNT_HIT.addr, R.GATE_CNT_ACCEPT.addr, R.LOOP_CNT_EVAL.addr, R.IMG_CNT_JSKIP.addr],
      SMap.get (fun _ => (none : Option Word)) s.latched a = none →
      ∃ t, exec (.readClear m a) s = .next t ∧ t.busRead = (s.reg a).setWidth 64 ∧ t.reg a = 0 ∧
        (∀ b, b ≠ a → t.reg b = s.reg b) ∧ t.mem = s.mem) ∧
    (SMap.get (fun _ => (none : Option Word)) s.latched R.SYS_MT_LO.addr = none →
      ∃ t, exec (.latchingRead m R.SYS_MT_LO.addr) s = .next t ∧ t.busRead = BitVec.ofNat 64 (s.mtNs % 2 ^ 32) ∧
        SMap.get (fun _ => (none : Option Word)) t.latched R.SYS_MT_HI.addr = some (BitVec.ofNat 32 (s.mtNs / 2 ^ 32)) ∧
        t.regs = s.regs ∧ t.mem = s.mem) ∧
    (∀ w, SMap.get (fun _ => (none : Option Word)) s.latched R.SYS_MT_HI.addr = some w →
      ∃ t, exec (.latchingRead m R.SYS_MT_HI.addr) s = .next t ∧ t.busRead = w.setWidth 64) ∧
    (SMap.get (fun _ => (none : Option Word)) s.latched R.FAB_Q_DATA.addr = none →
      ∃ t, exec (.addrDataRead m R.FAB_Q_DATA.addr) s = .next t ∧
        t.busRead = BitVec.ofNat 64 (s.ruleWord (s.rd R.FAB_Q_ADDR.WADDR) % 2 ^ 32) ∧
        t.rd R.FAB_Q_ADDR.WADDR = (s.rd R.FAB_Q_ADDR.WADDR + 1) % 2 ^ R.FAB_Q_ADDR.WADDR.w)

/-- BLOCK_ENABLE, for every unit (Tables 1-7 to 1-9, R33, R37, R40, R571): outside OFF only EN and ENREQ change; in OFF a ring that
fails its check in ASSIST mode sets BADRING, a check that fails takes the unit to FAULT with the cause it names (the update
channel raises its FAULT interrupt too), and a check that passes takes it to RUN and starts it, with its ring emptied in ASSIST
mode. The next state is given whole, so nothing else changes. -/
def Obligations.block_enable : Prop :=
  ∀ (s : State),
    (∀ u : UnitId, ((s.raise u.EN).raise u.ENREQ).rd u.STATE ≠ stOff →
      exec (.blockEnable u) s = .next ((s.raise u.EN).raise u.ENREQ)) ∧
    (∀ (u : UnitId) (cause arg : Nat) (t r : State), t = (s.raise u.EN).raise u.ENREQ → t.rd u.STATE = stOff →
      r = (match u.ring with | some b => if (t.assist u && t.ringBad b) = true then t.raise b.BADRING else t | none => t) →
      r.unitFault u = some (cause, arg) → exec (.blockEnable u) s =
        .next (if u = .upd then (r.toFault u cause arg).raise R.UPD_INTSTAT.FAULT else r.toFault u cause arg)) ∧
    (∀ (u : UnitId) (t r : State), t = (s.raise u.EN).raise u.ENREQ → t.rd u.STATE = stOff →
      r = (match u.ring with | some b => if (t.assist u && t.ringBad b) = true then t.raise b.BADRING else t | none => t) →
      r.unitFault u = none → exec (.blockEnable u) s =
        .next ((State.wr (match u.ring with | some b => if r.assist u = true then r.ringStart b else r | none => r) u.STATE stRun).unitStart u))

/-- BLOCK_DISABLE, DRAIN_UNIT_COMPLETE and ENGINE_CROSSBAR_ERROR, for every unit (Tables 1-7 to 1-9, R33 to R35): EN and ENREQ
clear; RUN goes to DRAIN, FAULT to OFF with its cause cleared; a drained unit goes to OFF, or to RUN where EN was written 1
meanwhile; a crossbar error of a unit that works takes it to FAULT with the cause of its table, and does nothing to another. -/
def Obligations.block_disable : Prop :=
  ∀ (s : State),
    (∀ u : UnitId, s.rd u.STATE = stRun →
      exec (.blockDisable u) s = .next ((((s.clear u.EN).clear u.ENREQ).wr u.STATE stDrain).unitDrain u)) ∧
    (∀ u : UnitId, s.rd u.STATE = stFault → u.FARG = none →
      exec (.blockDisable u) s = .next (((((s.clear u.EN).clear u.ENREQ).wr u.STATE stOff).clear u.FCAUSE).unitOff u)) ∧
    (∀ (u : UnitId) (f : Fld), s.rd u.STATE = stFault → u.FARG = some f →
      exec (.blockDisable u) s = .next ((((((s.clear u.EN).clear u.ENREQ).wr u.STATE stOff).clear u.FCAUSE).clear f).unitOff u)) ∧
    (∀ u : UnitId, s.rd u.STATE = stOff ∨ s.rd u.STATE = stDrain →
      exec (.blockDisable u) s = .next ((s.clear u.EN).clear u.ENREQ)) ∧
    (∀ u : UnitId, s.rd u.STATE = stDrain → s.unitDrained u = true → s.on u.ENREQ = false →
      exec (.drainUnitComplete u) s = .next ((s.wr u.STATE stOff).unitOff u)) ∧
    (∀ u : UnitId, s.rd u.STATE = stDrain → s.unitDrained u = true → s.on u.ENREQ = true →
      exec (.drainUnitComplete u) s = .next ((s.wr u.STATE stRun).unitAgain u)) ∧
    (∀ u : UnitId, s.rd u.STATE ≠ stDrain ∨ s.unitDrained u = false → exec (.drainUnitComplete u) s = .next s) ∧
    (∀ (u : UnitId) (cause : Nat), u.xbarCause = some cause → s.working u = true →
      exec (.engineCrossbarError u) s = .next ((s.toFault u cause).unitAbandon u).atHeld) ∧
    (∀ u : UnitId, u.xbarCause = none ∨ s.working u = false → exec (.engineCrossbarError u) s = .next s.atHeld)

/-- BLOCK_MODE_WRITE, ASSIST_KICK and ASSIST_TIMEOUT (R32, R40, R41): MODE written in OFF takes effect at once; written in another
state a change is discarded and sets MODE_REJ, an equal value changes nothing; the ring's register takes its legal fields in
OFF, and outside OFF keeps its value, with MODE_REJ for a change. A kick applies the oldest descriptor where the block works in
ASSIST mode and that descriptor is done, and does nothing where one of these fails; a timeout marks the oldest descriptor that
the server still owns, once its time has run out, and its unit falls back; without such a descriptor nothing happens. -/
def Obligations.mode_and_assist : Prop :=
  ∀ (s : State),
    (∀ (b : AsnBlock) (v : Word), s.rd b.unit.STATE = stOff →
      exec (.blockModeWrite b false v) s = .next ((s.wr b.unit.MODE (b.unit.MODE.of v)).wr b.unit.MODE_ACT (b.unit.MODE.of v))) ∧
    (∀ (b : AsnBlock) (v : Word), s.rd b.unit.STATE ≠ stOff → s.rd b.unit.MODE ≠ b.unit.MODE.of v →
      exec (.blockModeWrite b false v) s = .next (s.raise b.unit.MODE_REJ)) ∧
    (∀ (b : AsnBlock) (v : Word), s.rd b.unit.STATE ≠ stOff → s.rd b.unit.MODE = b.unit.MODE.of v →
      exec (.blockModeWrite b false v) s = .next s) ∧
    (∀ (b : AsnBlock) (v : Word) (r : State), r = (((s.wrIf (4 ≤ b.LOG2N.of v && b.LOG2N.of v ≤ 12) b.LOG2N (b.LOG2N.of v)).wrIf
      (b.SRV_KIND.of v ≤ 2) b.SRV_KIND (b.SRV_KIND.of v)).wr b.SRV_CORE (b.SRV_CORE.of v)).wr b.SRV_NODE (b.SRV_NODE.of v) →
      (s.rd b.unit.STATE = stOff → exec (.blockModeWrite b true v) s = .next r) ∧
      (s.rd b.unit.STATE ≠ stOff → exec (.blockModeWrite b true v) s =
        .next (if r.reg (b.unit.base + 0x44) = s.reg (b.unit.base + 0x44) then s else s.raise b.unit.MODE_REJ))) ∧
    (∀ b : AsnBlock, s.working b.unit = false ∨ s.assist b.unit = false ∨ s.asnReap b = none → exec (.assistKick b) s = .next s) ∧
    (∀ (b : AsnBlock) (r : Reaped), s.working b.unit = true → s.assist b.unit = true → s.asnReap b = some r →
      (asnApply b State.assistOpened r).asnReap b = none →
      exec (.assistKick b) s = .next (asnApply b State.assistOpened r)) ∧
    (∀ b : AsnBlock, (s.posts b).find? (fun p => !p.timedOut && s.owned b p) = none → exec (.assistTimeout b) s = .next s) ∧
    (∀ (b : AsnBlock) (p x : AsnPost) (t : State), (s.posts b).find? (fun q => !q.timedOut && s.owned b q) = some p →
      (s.advance (p.postedAt + us * s.rd b.TMO)).asnTimeout b = some (x, t) →
      exec (.assistTimeout b) s = .next (t.asnFallback b x))

/-- CORE_MEMORY_ACCESS, FENCE, CDWBI, CDINV, CIINV and MEINFO_WRITE (R18, R24, R28, R31, R384, R385). An access that the crossbar
ends with an error traps with the access-fault cause of its kind and the address in its trap value, takes the core to machine
mode, and changes no memory and no register. A load or a fetch outside the registers answers the bytes it reads where none of
them is poisoned, and traps on the first poisoned word with MEADDR and MEINFO.VALID set where one is. A store, and the store of
an atomic operation, goes through the core's stores; a load-reserve takes the reservation; a store-conditional without it stores
nothing and answers 1. An access to a register reads or writes it. FENCE changes nothing. In machine mode CDWBI writes a dirty
line back and drops it, CDINV drops a line, CIINV drops the instruction cache alone, and a write of MEINFO clears VALID alone;
in user mode each of the four raises an illegal-instruction exception. -/
def Obligations.core_access : Prop :=
  ∀ (s : State),
    (∀ (c addr size : Nat) (k : MemKind) (v : Word64), c < 17 → addr < 2 ^ 32 → sizeOk k size = true → s.busError c k addr size = true →
      exec (.coreMemoryAccess c k addr size v) s = .next (s.trap c (faultCause k) addr)) ∧
    (∀ (c cause a : Nat), ((s.trap c cause a).hart c).cause = cause ∧ ((s.trap c cause a).hart c).mtval = a ∧
      ((s.trap c cause a).hart c).count = (s.hart c).count + 1 ∧ ((s.trap c cause a).hart c).user = false ∧
      (s.trap c cause a).mem = s.mem ∧ (s.trap c cause a).regs = s.regs) ∧
    (∀ (c addr size : Nat) (k : MemKind) (v : Word64) (u : State) (f : Fetched), c < 17 → addr < 2 ^ 32 → sizeOk k size = true →
      k = .load ∨ k = .fetch → s.busError c k addr size = false → regionOf addr ≠ some .regs →
      u = (if inGeneral addr size = true then s.showAges else s) → f = u.coreRead c (k == .fetch) addr size →
      (f.poison = none → exec (.coreMemoryAccess c k addr size v) s = .next (f.st.returned (natLE f.bytes))) ∧
      (∀ w, f.poison = some w → exec (.coreMemoryAccess c k addr size v) s = .next (f.st.poisonTrap c k addr w f.new f.lanes))) ∧
    (∀ (c a w : Nat) (k : MemKind) (new : Bool) (lanes : BitVec 8) (t : State), t = s.poisonTrap c k a w new lanes →
      (t.hart c).cause = faultCause k ∧ (t.hart c).mtval = a ∧ (t.hart c).meaddr = 8 * w ∧ (t.hart c).meinfo % 2 = 1 ∧
      t.mem = s.mem ∧ t.regs = s.regs) ∧
    (∀ (c addr size : Nat) (v : Word64) (u : State), c < 17 → addr < 2 ^ 32 → sizeOk .store size = true →
      s.busError c .store addr size = false → regionOf addr ≠ some .regs → u = (if inGeneral addr size = true then s.showAges else s) →
      exec (.coreMemoryAccess c .store addr size v) s = .next (u.coreStore c addr (bytesLE v.toNat size))) ∧
    (∀ (c addr size : Nat) (v : Word64) (u : State) (op : AmoOp), c < 17 → addr < 2 ^ 32 → sizeOk (.amo op) size = true →
      s.busError c (.amo op) addr size = false → addr % 4 = 0 → regionOf addr ≠ some .regs →
      u = (if inGeneral addr size = true then s.showAges else s) →
      (op = .sc → u.holds c (u.phys c addr) = false → ∃ t, exec (.coreMemoryAccess c (.amo op) addr size v) s = .next t ∧ t.busRead = 1 ∧
        t.mem = u.mem ∧ t.regs = u.regs ∧ (t.hart c).resv = none) ∧
      (op = .sc → u.holds c (u.phys c addr) = true → exec (.coreMemoryAccess c (.amo op) addr size v) s =
        .next ((((u.coreStore c addr (bytesLE v.toNat 4)).setResv c none).taken).returned 0)) ∧
      (op = .lr → (u.coreRead c false addr size).poison = none → exec (.coreMemoryAccess c (.amo op) addr size v) s =
        .next (((u.coreRead c false addr size).st.returned (natLE (u.coreRead c false addr size).bytes)).setResv c (some (u.phys c addr / 4)))) ∧
      (op ≠ .sc → op ≠ .lr → (u.coreRead c false addr size).poison = none → exec (.coreMemoryAccess c (.amo op) addr size v) s =
        .next (((u.coreRead c false addr size).st.returned (natLE (u.coreRead c false addr size).bytes)).coreStore c addr
          (bytesLE (amoResult op (BitVec.ofNat 32 (natLE (u.coreRead c false addr size).bytes)) (v.setWidth 32)).toNat 4)))) ∧
    (∀ (c addr size : Nat) (k : MemKind) (v : Word64), c < 17 → addr < 2 ^ 32 → sizeOk k size = true → s.busError c k addr size = false →
      misAmo k addr = false → regionOf addr = some .regs → exec (.coreMemoryAccess c k addr size v) s = .next (s.regAccess c k addr size v)) ∧
    (∀ c, c < 17 → exec (.fence c) s = .next s) ∧
    (∀ (c addr : Nat) (v : Word), c < 17 → addr < 2 ^ 32 → (s.hart c).user = true → exec (.cdwbi c addr) s = .next (s.illegal c) ∧
      exec (.cdinv c addr) s = .next (s.illegal c) ∧ exec (.ciinv c) s = .next (s.illegal c) ∧ exec (.meinfoWrite c v) s = .next (s.illegal c)) ∧
    (∀ c addr, c < 17 → addr < 2 ^ 32 → (s.hart c).user = false → s.cacheLine false (lineKey c addr) = none → exec (.cdwbi c addr) s = .next s) ∧
    (∀ (c addr : Nat) (x : CacheLine), c < 17 → addr < 2 ^ 32 → (s.hart c).user = false → s.cacheLine false (lineKey c addr) = some x →
      exec (.cdwbi c addr) s = .next ((s.lineBack c (lineKey c addr) x).setLine false (lineKey c addr) none) ∧
      (x.dirty = false → s.lineBack c (lineKey c addr) x = s)) ∧
    (∀ c addr, c < 17 → addr < 2 ^ 32 → (s.hart c).user = false →
      ∃ t, exec (.cdinv c addr) s = .next t ∧ t.cacheLine false (lineKey c addr) = none ∧ t.mem = s.mem ∧ t.regs = s.regs) ∧
    (∀ c, c < 17 → (s.hart c).user = false → ∃ t, exec (.ciinv c) s = .next t ∧ (∀ p, p < 2 ^ 32 → t.cacheLine true (lineKey c p) = none) ∧
      t.mem = s.mem ∧ t.regs = s.regs ∧ t.integ.dcache = s.integ.dcache) ∧
    (∀ (c : Nat) (v : Word), c < 17 → (s.hart c).user = false →
      exec (.meinfoWrite c v) s = .next (s.setHart c { s.hart c with meinfo := (s.hart c).meinfo / 2 * 2 }))

/-- TASK_LEAD_START, TASK_RELEASE, FREE_RUN_RELEASE and FREE_RUN_BOUND_EXPIRY (R49, R51, R52, R54, R59, R60, R62, R65, R74, R76). A
lead begins at its instant for an idle armed periodic task with a lead, before the release instant; otherwise, and while
releases are withheld, nothing happens. At a grid release instant a switch point that is due takes effect first, and then every
task that shares the instant is released in its turn, its next instant one period later; the command of a task whose release at
this instant has been made is absorbed. A free-running task is released at its own instant. A release that falls in a hold is a
deferral; outside one it releases an idle task, makes the release of a task whose lead has begun, and is an overrun of a task in
flight. The PER_US bound of a free-running iteration is an overrun. -/
def Obligations.task_release : Prop :=
  ∀ (s : State),
    (∀ (t : Nat) (u : State), t < 256 → s.withheld = false → s.freeTask t = false → (s.task t).armed = true → s.tstate t = tsIdle →
      s.leadNs t ≠ 0 → u = s.advanceMt ((s.task t).nextRel - s.leadNs t) →
      (u.mtNs < (s.task t).nextRel → exec (.taskLeadStart t) s = .next (u.leadStart t (s.task t).nextRel)) ∧
      ((s.task t).nextRel ≤ u.mtNs → exec (.taskLeadStart t) s = .next s)) ∧
    (∀ t, t < 256 → s.withheld = true ∨ s.freeTask t = true ∨ (s.task t).armed = false ∨ s.tstate t ≠ tsIdle ∨ s.leadNs t = 0 →
      exec (.taskLeadStart t) s = .next s) ∧
    (∀ (t : Nat) (r : Nat) (u v : State), t < 256 → s.freeTask t = false → (s.task t).armed = true → (s.task t).sharedAt ≠ some s.mtNs →
      r = (s.task t).nextRel → u = (s.advanceMt r).switchDue r → v = u.each (u.sharers r) (fun w k => w.shareRelease r k) →
      exec (.taskRelease t) s = .next (v.setTask t { v.task t with sharedAt := none }).atHeld) ∧
    (∀ t, t < 256 → s.freeTask t = false → (s.task t).armed = true → (s.task t).sharedAt = some s.mtNs →
      exec (.taskRelease t) s = .next (s.setTask t { s.task t with sharedAt := none }).atHeld) ∧
    (∀ t, t < 256 → s.freeTask t = true ∨ (s.task t).armed = false → exec (.taskRelease t) s = .next s.atHeld) ∧
    (∀ (t r : Nat) (u : State), u = s.setTask t { s.task t with nextRel := r + s.perNs t, sharedAt := some r } →
      s.shareRelease r t = u.releaseInstant t) ∧
    (∀ t, (s.withheld = true → s.releaseInstant t = s.bumpBy (R.SCH_TASK_DEFCNT.COUNT t) 1) ∧
      (s.withheld = false → s.tstate t = tsIdle → s.releaseInstant t = (s.leadStart t s.mtNs).makeRelease t) ∧
      (s.withheld = false → s.tstate t = tsImaging → (s.task t).released = false → s.releaseInstant t = s.makeRelease t) ∧
      (s.withheld = false → s.tstate t ≠ tsIdle → s.tstate t ≠ tsImaging ∨ (s.task t).released = true → s.releaseInstant t = s.overrun t)) ∧
    (∀ (t : Nat) (u v : State), t < 256 → s.freeTask t = true → (s.task t).armed = true → u = s.advance (s.task t).nextRel →
      v = u.switchDue u.mtNs → exec (.freeRunRelease t) s = .next (State.releaseInstant (v.setTask t { v.task t with armed := false }) t)) ∧
    (∀ t, t < 256 → s.freeTask t = false ∨ (s.task t).armed = false → exec (.freeRunRelease t) s = .next s) ∧
    (∀ (t : Nat) (u : State), t < 256 → s.freeTask t = true → s.inFlight t = true →
      u = (s.advance (s.task t).nextBound).setTask t
        { (s.advance (s.task t).nextBound).task t with nextBound := (s.task t).nextBound + (s.advance (s.task t).nextBound).perNs t } →
      exec (.freeRunBoundExpiry t) s = .next (u.overrun t).atHeld) ∧
    (∀ t, t < 256 → s.freeTask t = false ∨ s.inFlight t = false → exec (.freeRunBoundExpiry t) s = .next s.atHeld)

/-- SCH_DONE, SCH_ABORT, TASK_STOP and TASK_START (R57, R58, R61, R72, R572). SCH_DONE of a control core takes its running iteration
to COMMITTING and frees the core; SCH_ABORT aborts it with TRAP: the iteration is discarded, counted, and its task goes on as at
the end of an iteration. While the error task runs, SCH_DONE completes it and SCH_ABORT aborts it and counts its trap; a cause
raised during its run pends one further error release while the scheduler works. On a core with nothing running, and for the SVC
core, which runs no task, both are ignored. STOP takes an idle task, and one whose lead has begun without a release, to STOPPED;
a task in flight waits for its end with no release kept pending; on an unused or a stopped task it is ignored. START takes a
stopped task to IDLE, and arms it while the scheduler works, but not a free-running one while releases are withheld. -/
def Obligations.iteration_end : Prop :=
  ∀ (s : State),
    (∀ (m t : Nat), m < 16 → s.on (R.SCH_CORE_STAT.ERRRUN m) = false → s.on (R.SCH_CORE_STAT.BUSY m) = true →
      t = s.rd (R.SCH_CORE_STAT.TASK m) →
      exec (.schDone m) s = .next ((((s.freeTheCore t).setTstate t tsCommitting).queueCommit t).settle m)) ∧
    (∀ m, m < 16 → s.on (R.SCH_CORE_STAT.ERRRUN m) = false → s.on (R.SCH_CORE_STAT.BUSY m) = false → exec (.schDone m) s = .next s) ∧
    (exec (.schDone 16) s = .next s ∧ exec (.schAbort 16) s = .next s.atHeld) ∧
    (∀ (m : Nat) (u : State), m < 16 → s.on (R.SCH_CORE_STAT.ERRRUN m) = true →
      u = (s.clear (R.SCH_CORE_STAT.ERRRUN m)).setCore m { s.core m with errRaised := false } →
      exec (.schDone m) s = .next (State.settle
        (if ((s.core m).errRaised && u.working .sch) = true then (u.raise (R.SCH_CORE_STAT.ERRPEND m)).errorMoment m else u) m)) ∧
    (∀ (m : Nat) (u : State), m < 16 → s.on (R.SCH_CORE_STAT.ERRRUN m) = true →
      u = ((s.clear (R.SCH_CORE_STAT.ERRRUN m)).bump (R.SCH_CORE_ERRCNT.TRAPS m)).setCore m { s.core m with errRaised := false } →
      exec (.schAbort m) s = .next (State.settle
        (if ((s.core m).errRaised && u.working .sch) = true then (u.raise (R.SCH_CORE_STAT.ERRPEND m)).errorMoment m else u) m).atHeld) ∧
    (∀ m, m < 16 → s.on (R.SCH_CORE_STAT.ERRRUN m) = false → s.on (R.SCH_CORE_STAT.BUSY m) = false →
      exec (.schAbort m) s = .next s.atHeld) ∧
    (∀ m, m < 16 → s.on (R.SCH_CORE_STAT.ERRRUN m) = false → s.on (R.SCH_CORE_STAT.BUSY m) = true →
      exec (.schAbort m) s = .next (s.abortIter (s.rd (R.SCH_CORE_STAT.TASK m)) causeTrap).atHeld) ∧
    (∀ (t cause : Nat) (u v : State), u = ((s.dropCopy t).freeTheCore t).bump (R.SCH_TASK_ABTCNT.COUNT t) →
      v = (u.setCause (s.taskCore t) cause (some t)).errorMoment (s.taskCore t) →
      s.abortIter t cause = ((v.iterEnd t).settle (s.taskCore t)).checkHeld) ∧
    (∀ t, t < 256 → s.inFlight t = true → ∃ u, exec (.taskStop t) s = .next u ∧ (u.task t).stopWaits = true ∧
      u.rd (R.SCH_TASK_STAT.LATEPEND t) = 0 ∧ u.tstate t = s.tstate t ∧ u.mem = s.mem) ∧
    (∀ t, t < 256 → s.tstate t = tsImaging → (s.task t).released = false → exec (.taskStop t) s =
      .next ((((s.dropLead t).setTstate t tsStopped).wr (R.SCH_TASK_STAT.STOPSRC t) 1).setTask t { (s.dropLead t).task t with armed := false })) ∧
    (∀ t, t < 256 → s.tstate t = tsUnused ∨ s.tstate t = tsStopped → exec (.taskStop t) s = .next s) ∧
    (∀ t, t < 256 → s.tstate t = tsIdle → ∃ u, exec (.taskStop t) s = .next u ∧ u.tstate t = tsStopped ∧
      u.rd (R.SCH_TASK_STAT.STOPSRC t) = 1 ∧ (u.task t).armed = false ∧ u.mem = s.mem) ∧
    (∀ t, t < 256 → s.tstate t ≠ tsStopped → exec (.taskStart t) s = .next s) ∧
    (∀ (t : Nat) (u : State), t < 256 → s.tstate t = tsStopped → u = (s.setTstate t tsIdle).wr (R.SCH_TASK_STAT.STOPSRC t) 0 →
      u.working .sch = false → exec (.taskStart t) s = .next u) ∧
    (∀ (t : Nat) (u : State), t < 256 → s.tstate t = tsStopped → u = (s.setTstate t tsIdle).wr (R.SCH_TASK_STAT.STOPSRC t) 0 →
      u.working .sch = true → u.withheld = false → exec (.taskStart t) s = .next (u.armTask t)) ∧
    (∀ (t : Nat) (u : State), t < 256 → s.tstate t = tsStopped → u = (s.setTstate t tsIdle).wr (R.SCH_TASK_STAT.STOPSRC t) 0 →
      u.working .sch = true → u.withheld = true → exec (.taskStart t) s = .next (if u.freeTask t = true then u else u.armTask t))

/-- IDLE_WINDOW_END, IDLE_WIN_WRITE and IDLE_CLRMIN (R69): at a boundary the idle counts of the window that ends are published and
the next window begins; a new legal WIN_MS is stored and discards the window in progress, a reserved one is discarded; CLRMIN
sets IDLEMIN of every core to 10,000 and changes no other register and no memory. -/
def Obligations.idle_windows : Prop :=
  ∀ (s : State),
    (s.sch.winStart = none → ∃ u, exec .idleWindowEnd s = .next u ∧ u.sch.winStart.isSome = true) ∧
    (∀ (b : Nat) (u : State), s.sch.winStart = some b → u = s.advanceMt (b + s.winNs) →
      exec .idleWindowEnd s = .next
        (let v := u.each (List.range 16) fun x c => x.publishIdle (u.now - u.sch.winElapsed) c
         { v with sch := { v.sch with winStart := some (v.mtNs / s.winNs * s.winNs), winElapsed := v.now } })) ∧
    (∀ v : Word, v.getLsbD 31 = false → 1 ≤ getField v 0 13 → getField v 0 13 ≤ 8000 → getField v 0 13 ≠ s.rd R.SCH_IDLE_WIN.WIN_MS →
      ∃ u, exec (.idleWinWrite v) s = .next u ∧ u.rd R.SCH_IDLE_WIN.WIN_MS = getField v 0 13 ∧ u.sch.winStart = none ∧ u.mem = s.mem) ∧
    (∀ v : Word, v.getLsbD 31 = false → getField v 0 13 = 0 ∨ 8000 < getField v 0 13 → exec (.idleWinWrite v) s = .next s) ∧
    (∃ u, exec .idleClrmin s = .next u ∧ (∀ c, c < 16 → u.rd (R.SCH_CORE_IDLEMIN.IDLEMIN c) = 10000) ∧
      (∀ a, (∀ c, c < 16 → a ≠ R.SCH_CORE_IDLEMIN.addr c) → u.reg a = s.reg a) ∧ u.mem = s.mem)

/-- HOLD_BOUND_EXPIRY, SWITCH_ARM, SWITCH_CANCEL, SWITCH_INSTANT and SWITCH_GO (R74 to R76, R488, R490). At the bound of a hold or a
drain every iteration released and not in COMMITTING is aborted with QABORT, and QABORT is set where there is one; with no bound
running nothing happens. ARM latches the instant of SCH_SWP (a staged handover reads ARMED), and one already past takes effect
at once; an ARM while one is armed or a hold is in force is ignored, the model's choice (notes/assumptions/152). CANCEL disarms
before the instant, a handover back to STAGED; at the instant the hold begins, a handover in HOLD with its instant as SWMT; both
are ignored with nothing armed. GO outside a switch hold sets GOREJ and changes nothing else; in one it takes the next bays and
the next image bank into service, ends the handover procedure, and ends the hold. -/
def Obligations.switch_points : Prop :=
  ∀ (s : State),
    (s.sch.nextBound = none → exec .holdBoundExpiry s = .next s.atHeld) ∧
    (∀ (b : Nat) (u v : State) (ts : List Nat), s.sch.nextBound = some b →
      u = { s.advance b with sch := { (s.advance b).sch with holdBound := stillAhead b (s.advance b).sch.holdBound, drainBound := stillAhead b (s.advance b).sch.drainBound } } →
      ts = (u.sch.tasks.map (·.1)).filter (fun t => u.inFlight t && u.tstate t != tsCommitting) →
      (ts = [] → exec .holdBoundExpiry s = .next u.checkHeld.atHeld) ∧
      (ts ≠ [] → v = u.raise R.SCH_INTSTAT.QABORT → v.rd R.SCH_STAT.HOLDSRC ≠ 2 →
        exec .holdBoundExpiry s = .next (v.each ts fun w t => w.abortIter t causeQabort).checkHeld.atHeld) ∧
      (ts ≠ [] → v = u.raise R.SCH_INTSTAT.QABORT → v.rd R.SCH_STAT.HOLDSRC = 2 → exec .holdBoundExpiry s =
        .next (State.each { v with pwr := { v.pwr with qabort := true } } ts fun w t => w.abortIter t causeQabort).checkHeld.atHeld)) ∧
    (s.on R.SCH_SWP_CMD.ARM = true ∨ s.rd R.SCH_STAT.HOLD ≠ 0 → exec .switchArm s = .next s.atHeld) ∧
    (∀ (i : Nat) (u v : State), s.on R.SCH_SWP_CMD.ARM = false → s.rd R.SCH_STAT.HOLD = 0 → i = s.rd64 R.SCH_SWP_LO.addr R.SCH_SWP_HI.addr →
      u = State.raise { s with sch := { s.sch with swInstant := i } } R.SCH_SWP_CMD.ARM →
      v = (if u.rd R.UPD_PHASE.PHASE = 1 then u.wr R.UPD_PHASE.PHASE 2 else u) →
      exec .switchArm s = .next (if i ≤ v.mtNs then v.switchInstant else v).atHeld) ∧
    (s.on R.SCH_SWP_CMD.ARM = false → exec .switchCancel s = .next s ∧ exec .switchInstant s = .next s) ∧
    (s.on R.SCH_SWP_CMD.ARM = true → s.rd R.UPD_PHASE.PHASE ≠ 2 →
      exec .switchCancel s = .next (s.clear R.SCH_SWP_CMD.ARM).switchoverOff) ∧
    (s.on R.SCH_SWP_CMD.ARM = true → s.rd R.UPD_PHASE.PHASE = 2 →
      exec .switchCancel s = .next ((s.wr R.UPD_PHASE.PHASE 1).clear R.SCH_SWP_CMD.ARM).switchoverOff) ∧
    (∀ u : State, s.on R.SCH_SWP_CMD.ARM = true → u = s.advanceMt s.sch.swInstant →
      (s.rd R.UPD_PHASE.PHASE ≠ 2 → exec .switchInstant s = .next ((u.clear R.SCH_SWP_CMD.ARM).beginHold 1).atHeld) ∧
      (s.rd R.UPD_PHASE.PHASE = 2 → exec .switchInstant s = .next (((State.wr { u with upd := { u.upd with swmt := u.sch.swInstant } }
        R.UPD_PHASE.PHASE 3).clear R.SCH_SWP_CMD.ARM).beginHold 1).atHeld)) ∧
    (s.rd R.SCH_STAT.HOLD = 0 ∨ s.rd R.SCH_STAT.HOLDSRC ≠ 1 →
      ∃ u, exec .switchGo s = .next u ∧ u.rd R.SCH_INTSTAT.GOREJ = 1 ∧ (∀ a, a ≠ R.SCH_INTSTAT.addr → u.reg a = s.reg a) ∧ u.mem = s.mem) ∧
    (∀ u v : State, s.rd R.SCH_STAT.HOLD ≠ 0 → s.rd R.SCH_STAT.HOLDSRC = 1 →
      u = (s.wr R.UPD_BAYEXEC.BAY (s.rd R.UPD_BAYNEXT.BAY)).wr R.IMG_LBANK.ACT (s.rd R.IMG_LBANK.NEXT) →
      (s.rd R.UPD_PHASE.PHASE ≠ phCommit → v = State.wr { u with upd := { u.upd with holdEnds := none } } R.UPD_PHASE.PHASE phIdle →
        exec .switchGo s = .next v.endHold) ∧
      (∀ x y z : State, s.rd R.UPD_PHASE.PHASE = phCommit →
        x = State.wr { u.syncMulti.unpin (s.rd R.IMG_LBANK.ACT) with upd := { (u.syncMulti.unpin (s.rd R.IMG_LBANK.ACT)).upd with holdEnds := none } }
          R.UPD_PHASE.PHASE phIdle → y = { x.forcesOnline with start := { x.start with slot := x.upd.staged } } →
        z = ((y.wr R.PAIR_CFGID.CFGID (y.manifest x.upd.staged).cfgid).showVersions.raise R.UPD_INTSTAT.SWITCHED).bump R.UPD_CNT_HANDOVER.COUNT →
        exec .switchGo s = .next ((((z.event 0x0F03 (unit := x.upd.staged) (val1 := (z.manifest x.upd.staged).version)
          (val2 := Config.freeNat z.fresh)).taken).updDone ucOk).endHold)))

/-- INPUT_COPY, INPUT_COPY_COMPLETE, COMMIT_START, COMMIT_JOURNAL_STAGED, COMMIT_COMPLETE and JOURNAL_WRITE (R53, R57, R92, R96,
R99, R121). A copy at the head of the queue is made when the running unit has no transfer in hand: its stations are locked, and
each slot is written in list order and its flags gathered. The copy ends T / 2 GB/s after its start: one that is not discarded
writes ICOPY and makes its task ready, a discarded one frees the unit alone. A commit starts under the same condition: C is the
present MT, the output slots are read and the journal step is made; what it writes stands from its end on, which also writes
OCOMMIT. A commit that waits for staging tries its journal step again. The journal writer puts the oldest staged record in the
next slot, in RUN only; poison in it halts the channel. Each does nothing where its transfer is not at hand. That a transfer
starts when the unit runs none is the model's reading (notes/assumptions/28). -/
def Obligations.image_transfers : Prop :=
  ∀ (s : State),
    (∀ x rest, s.img.queue = x :: rest → s.img.cur = none → s.running .img = true → x.kind = .copy →
      ∃ t, exec .inputCopy s = .next t ∧ t = (let u : State := { s with img := { s.img with queue := rest, cur := some { x with started := s.now } } }
        (u.each (u.copyStns x.task) fun s n => s.setStn n { s.stn n with locked := true }).each
          ((u.each (u.copyStns x.task) fun s n => s.setStn n { s.stn n with locked := true }).inList x.task) fun v e =>
            (((v.inSlot e).2.putSlot (u.ibuf x.task + e.iofs) (v.inSlot e).1).setImgTask x.task
              { ((v.inSlot e).2.putSlot (u.ibuf x.task + e.iofs) (v.inSlot e).1).imgTask x.task with
                flags := (((v.inSlot e).2.putSlot (u.ibuf x.task + e.iofs) (v.inSlot e).1).imgTask x.task).flags ||| (v.inSlot e).1.flags }))) ∧
    (∀ x rest, s.img.queue = x :: rest → (x.kind ≠ .copy → exec .inputCopy s = .next s) ∧ (x.kind ≠ .commit → exec .commitStart s = .next s)) ∧
    (s.img.queue = [] ∨ s.img.cur ≠ none ∨ s.running .img = false → exec .inputCopy s = .next s ∧ exec .commitStart s = .next s) ∧
    (∀ (x : Xfer) (u : State), s.img.cur = some x → x.kind = .copy →
      u = ((s.advance (x.started + (48 + 16 * s.icount x.task) / 2)).each
        ((s.advance (x.started + (48 + 16 * s.icount x.task) / 2)).copyStns x.task) fun s n => s.unlockStn n).setCur none →
      (x.discard = true → exec .inputCopyComplete s = .next u) ∧
      (x.discard = false → exec .inputCopyComplete s =
        .next ((u.wr (R.IMG_TASK_TIME.ICOPY x.task) (t10 (u.now - x.started))).copyDone x.task))) ∧
    (∀ x : Xfer, s.img.cur = none ∨ s.img.cur = some x ∧ x.kind ≠ .copy → exec .inputCopyComplete s = .next s) ∧
    (∀ (x x' : Xfer) (rest : List Xfer) (u : State), s.img.queue = x :: rest → s.img.cur = none → s.running .img = true →
      x.kind = .commit → x' = { x with started := s.now, at_ := s.mtNs, outs := (s.readOuts x.task (s.outList x.task)).1, forced := s.forcedKeys } →
      u = (s.readOuts x.task (s.outList x.task)).2 →
      exec .commitStart s = .next (({ u with img := { u.img with queue := rest, cur := some x' } }).commitJournal x')) ∧
    (∀ x : Xfer, s.commitOutputs x =
        (let g := ((s.outList x.task).zip x.outs).foldl (fun g p => Gather.entry g x p.1 p.2) ({ st := s } : Gather)
         let u : State := g.st.each g.mirrors fun w m => w.commitPoint x m.point m.slot m.value (some (!w.delivers m.stn)) m.item
         let v : State := u.each g.stns.dedup fun w n => w.commitBlock n
         State.mirrorCommit (v.ioBatch g.dos g.aos) x.task x.at_ g.mirPts)) ∧
    (∀ (x : Xfer) (r : JrnRec) (old : Option JrnRec), s.running .jrn = true → old = s.img.staged.find? (·.task == r.task) →
      (∀ u, s.stageJrn r = some u → s.journalStep x r = u.setCur (some { x with waits := none, jrn := some (r, old) })) ∧
      (s.stageJrn r = none → s.journalStep x r = s.setCur (some { x with waits := some r }))) ∧
    (∀ (x : Xfer) r, s.running .jrn = false →
      s.journalStep x r = (s.setCur (some { x with waits := none })).bump R.IMG_CNT_JSKIP.COUNT) ∧
    (∀ (x : Xfer) r, s.img.cur = some x → x.waits = some r → exec .commitJournalStaged s = .next (s.journalStep x r)) ∧
    (∀ x : Xfer, s.img.cur = some x → x.waits = none → exec .commitJournalStaged s = .next s) ∧
    (s.img.cur = none → exec .commitJournalStaged s = .next s ∧ exec .commitComplete s = .next s.atHeld) ∧
    (∀ x : Xfer, s.img.cur = some x → x.kind ≠ .commit ∨ x.waits ≠ none → exec .commitComplete s = .next s.atHeld) ∧
    (∀ (x : Xfer) (u v : State), s.img.cur = some x → x.kind = .commit → x.waits = none →
      u = ((s.advance (x.started + (16 * s.ocount x.task + s.retlen x.task) / 2)).commitOutputs x).setCur none →
      v = (u.wr (R.IMG_TASK_TIME.OCOMMIT x.task) (t10 (u.now - x.started))).commitDone x.task → v.img.cur = none →
      exec .commitComplete s =
        .next (State.resumeWhenDue { v with pair := { v.pair with committed := x.task :: v.pair.committed.filter (· != x.task) } }).atHeld) ∧
    (∀ (r : JrnRec) (rest : List JrnRec) (u : State) (k : Nat), s.img.staged = r :: rest → s.running .jrn = true → r.poisonAt = none →
      u = { s with img := { s.img with staged := rest } } → k = u.nextSlot r.task →
      exec .journalWrite s = .next ((u.putBytes (u.jrnSlot r.task k) r.bytes).setImgTask r.task
        { (u.putBytes (u.jrnSlot r.task k) r.bytes).imgTask r.task with jslot := some k })) ∧
    (∀ (r : JrnRec) (rest : List JrnRec) (a : Nat) (u : State), s.img.staged = r :: rest → s.running .jrn = true → r.poisonAt = some a →
      u = { s with img := { s.img with staged := rest } } →
      exec .journalWrite s = .next (State.commitStaged ((((((u.toFault .jrn 1).wr R.IMG_JRN_FADDR.FADDR a).raise R.IMG_INTSTAT.JRNFAULT).event
        0x0320 (unit := r.task) (subj := a)).egressHalt 4 0 a)))) ∧
    (∀ t, s.nextSlot t = match (s.imgTask t).jslot with
      | some k => 1 - k
      | none => if s.jrnValid t 0 = true ∧ (s.jrnValid t 1 = false ∨ s.jrnC t 1 ≤ s.jrnC t 0) then 1 else 0) ∧
    (s.img.staged = [] ∨ s.running .jrn = false → exec .journalWrite s = .next s)

/-- The station commands (Table 3-9, R100 to R109, R455). An OFF station takes its PDU and does nothing; an IN goes to the assembly
of its block, a whole STATUS records its epoch and raises OUTREJ where the station says so, and state 0 is a reboot, 1 and 2 are
no dropout, any other a fault; a PDU of another kind, or a STATUS of another length, is counted bad, by whichever command it
comes. A refresh sends the same block with the same SEQ PER_MS after the last OUT while the station is UP, has been sent an OUT,
holds no undelivered data and the gate is open; otherwise nothing. A timeout drops a station that is UP or REJOIN out to DOWN
with its cause, and is ignored in any other state. REARM takes REJOIN to UP. A probe is sent, or held while the gate is closed;
an OFF station sends none. Enabling starts a station that is OFF while the image unit runs; disabling takes it to OFF, with CTRL
SAFE where it was UP. -/
def Obligations.remote_stations : Prop :=
  ∀ (s : State),
    (∀ (n : Nat) (p : List Byte), n < 64 → (s.takeStnPdu n p).stnState n = stnOff →
      exec (.stationInPdu n p) s = .next (s.takeStnPdu n p) ∧ exec (.stationStatusPdu n p) s = .next (s.takeStnPdu n p)) ∧
    (∀ (n : Nat) (p : List Byte), n < 64 → (s.takeStnPdu n p).stnState n ≠ stnOff → pduKind p = 2 →
      exec (.stationInPdu n p) s = .next ((s.takeStnPdu n p).inSegment n p) ∧ exec (.stationStatusPdu n p) s = .next ((s.takeStnPdu n p).inSegment n p)) ∧
    (∀ (n : Nat) (p : List Byte), n < 64 → (s.takeStnPdu n p).stnState n ≠ stnOff → pduKind p = 4 → numAt p 1 1 = 16 →
      p.length = pduLength (!(s.takeStnPdu n p).on (R.IMG_STN_CFG.XPORT n)) 8 →
      exec (.stationStatusPdu n p) s = .next ((s.takeStnPdu n p).statusPdu n p) ∧
      exec (.stationInPdu n p) s = .next ((s.takeStnPdu n p).statusPdu n p)) ∧
    (∀ (n : Nat) (p : List Byte) (u v : State), u = s.seeEpoch n (numAt p 4 4) →
      v = (if numAt p 9 1 % 2 = 1 then (((u.raise (R.IMG_STN_STAT.OUTREJ n)).raise R.IMG_INTSTAT.OUTREJ).stnEvent 0x0304 n).pairOutrej (numAt p 4 4) else u) →
      s.statusPdu n p = if numAt p 8 1 = 0 then v.dropout n dropReboot else if numAt p 8 1 = 1 ∨ numAt p 8 1 = 2 then v else v.dropout n dropFault) ∧
    (∀ (n : Nat) (p : List Byte), n < 64 → (s.takeStnPdu n p).stnState n ≠ stnOff → pduKind p ≠ 2 →
      pduKind p ≠ 4 ∨ numAt p 1 1 ≠ 16 ∨ p.length ≠ pduLength (!(s.takeStnPdu n p).on (R.IMG_STN_CFG.XPORT n)) 8 →
      exec (.stationInPdu n p) s = .next ((s.takeStnPdu n p).badPdu n) ∧ exec (.stationStatusPdu n p) s = .next ((s.takeStnPdu n p).badPdu n)) ∧
    (∀ n, n < 64 → s.stationsRun = true → s.delivers n = true → s.on (R.IMG_STN_STAT.UNDELIV n) = false → (s.stn n).outSent = true →
      s.gateOpen = true → exec (.stationRefresh n) s =
        .next ((s.advance ((s.stn n).lastOut + ms * s.rd (R.IMG_STN_TIME.PER_MS n))).sendOut n false)) ∧
    (∀ n, n < 64 → s.delivers n = false ∨ s.on (R.IMG_STN_STAT.UNDELIV n) = true ∨ s.gateOpen = false ∨ (s.stn n).outSent = false ∨
      s.stationsRun = false → exec (.stationRefresh n) s = .next s) ∧
    (∀ (n : Nat) (u : State), n < 64 → s.stnState n = stnUp ∨ s.stnState n = stnRejoin →
      u = s.advance ((s.stn n).lastIn + ms * s.rd (R.IMG_STN_TIME.TMO_MS n)) →
      exec (.stationTimeout n) s = .next (((((((u.wr (R.IMG_STN_STAT.STATE n) stnDown).wr (R.IMG_STN_STAT.DCAUSE n) dropTimeout).bump
        (R.IMG_STN_CNT.DROPS n)).raise R.IMG_INTSTAT.STNDOWN).raiseStation n)).stnEvent 0x0301 n)) ∧
    (∀ n, n < 64 → s.stnState n ≠ stnUp → s.stnState n ≠ stnRejoin → exec (.stationTimeout n) s = .next s) ∧
    (∀ n, n < 64 → s.stnState n = stnRejoin →
      exec (.stationRearm n) s = .next ((s.wr (R.IMG_STN_STAT.STATE n) stnUp).stnEvent 0x0303 n)) ∧
    (∀ n, n < 64 → s.stnState n ≠ stnRejoin → exec (.stationRearm n) s = .next s) ∧
    (∀ n, n < 64 → s.stnState n = stnOff → exec (.stationProbe n) s = .next s) ∧
    (∀ n, n < 64 → s.stnState n ≠ stnOff → s.gateOpen = true → exec (.stationProbe n) s = .next (s.putCtrl n 1)) ∧
    (∀ n, n < 64 → s.stnState n ≠ stnOff → s.gateOpen = false →
      exec (.stationProbe n) s = .next (s.setStn n { s.stn n with probeHeld := true })) ∧
    (∀ n, n < 64 → s.running .img = true → s.stnState n = stnOff → ∃ u : State, u.stnState n = stnStart ∧
      exec (.stationEnable n) s = .next (u.sendProbe n) ∧ u.on (R.IMG_STN_CFG.EN n) = true ∧ u.mem = s.mem ∧
      ∀ a, a ≠ (R.IMG_STN_CFG.EN n).addr → a ≠ (R.IMG_STN_STAT.STATE n).addr → u.reg a = s.reg a) ∧
    (∀ n, n < 64 → (s.raise (R.IMG_STN_CFG.EN n)).stnState n ≠ stnOff → exec (.stationEnable n) s = .next (s.raise (R.IMG_STN_CFG.EN n))) ∧
    (∀ n, n < 64 → s.running .img = false → exec (.stationEnable n) s = .next (s.raise (R.IMG_STN_CFG.EN n))) ∧
    (∀ (n : Nat) (u : State), n < 64 → u = s.clear (R.IMG_STN_CFG.EN n) → u.stnState n = stnOff → exec (.stationDisable n) s = .next u) ∧
    (∀ (n : Nat) (u : State), n < 64 → u = s.clear (R.IMG_STN_CFG.EN n) → u.stnState n = stnUp →
      exec (.stationDisable n) s = .next (((u.sendSafe n).wr (R.IMG_STN_STAT.STATE n) stnOff).setStn n
        { ((u.sendSafe n).wr (R.IMG_STN_STAT.STATE n) stnOff).stn n with asmActive := false, probeHeld := false })) ∧
    (∀ (n : Nat) (u : State), n < 64 → u = s.clear (R.IMG_STN_CFG.EN n) → u.stnState n ≠ stnOff → u.stnState n ≠ stnUp →
      exec (.stationDisable n) s = .next ((u.wr (R.IMG_STN_STAT.STATE n) stnOff).setStn n
        { u.stn n with asmActive := false, probeHeld := false }))

/-- FORCE_SET, FORCE_CLEAR, FORCE_CLEARALL and IMG_MDATA_WRITE (R86, R112, R116, R117). A key that names nothing ends with RESULT 3
and sets no force; a set entry is replaced, or the lowest free one is taken, an output force is applied, and the change is
mirrored; a full table raises FRCFULL and ends with RESULT 1. CLEAR of an absent key ends with RESULT 2, of a present one
removes and mirrors it; CLEARALL removes every force. A word written to a list bank other than the active one, or to either bank
in OFF, is stored; any other write stores nothing; IMG_MADDR advances in every case, and no other register and no memory
changes. That CLEARALL and CLEAR carry the force value registers in their event is the model's reading (notes/assumptions/145). -/
def Obligations.force_commands : Prop :=
  ∀ (s : State),
    (s.forceKey s.frcKey = .bad → exec .forceSet s = .next (s.forceDone 1 0x0310 3)) ∧
    (s.forceKey s.frcKey ≠ .bad → s.forceIdx s.frcKey = none → ((List.range 1024).find? fun i => !(s.forceAt i).valid) = none →
      exec .forceSet s = .next ((s.raise R.IMG_INTSTAT.FRCFULL).forceDone 1 0x0313 1)) ∧
    (∀ i (u : State), s.forceKey s.frcKey ≠ .bad → s.forceIdx s.frcKey = some i →
      u = s.setForce i { s.forceAt i with value := BitVec.ofNat 64 s.frcVal, mt := s.mt } →
      exec .forceSet s = .next (((if (s.forceKey s.frcKey).isOut then u.applyForce (s.forceKey s.frcKey) u.frcVal else u).mirrorForce [i] []).forceDone 1 0x0310 0)) ∧
    (∀ i (u : State), s.forceKey s.frcKey ≠ .bad → s.forceIdx s.frcKey = none →
      ((List.range 1024).find? fun i => !(s.forceAt i).valid) = some i →
      u = s.setForce i { valid := true, key := BitVec.ofNat 32 s.frcKey, out := (s.forceKey s.frcKey).isOut,
                         value := BitVec.ofNat 64 s.frcVal, mt := s.mt } →
      exec .forceSet s = .next (((if (s.forceKey s.frcKey).isOut then u.applyForce (s.forceKey s.frcKey) u.frcVal else u).mirrorForce [i] []).forceDone 1 0x0310 0)) ∧
    (s.forceIdx s.frcKey = none → exec .forceClear s = .next (s.forceDone 2 0x0311 2)) ∧
    (∀ i, s.forceIdx s.frcKey = some i → exec .forceClear s = .next (((s.removeForce i).mirrorForce [] [s.frcKey]).forceDone 2 0x0311 0)) ∧
    (exec .forceClearall s = .next (((s.each ((s.img.forces.filter fun (_, f) => f.valid).map (·.1)) fun s i => s.removeForce i).mirrorForce []
        [0xFFFFFFFF]).forceDone 3 0x0312 0)) ∧
    (∀ v : Word, ∃ t, exec (.imgMdataWrite v) s = .next t ∧
      t.rd R.IMG_MADDR.WADDR = (s.rd R.IMG_MADDR.WADDR + 1) % 2 ^ R.IMG_MADDR.WADDR.w ∧ t.mem = s.mem ∧
      (∀ a, a ≠ R.IMG_MADDR.addr → t.reg a = s.reg a) ∧
      (s.rd R.IMG_MADDR.WADDR / 0xC000 < 2 ∧ s.rd R.IMG_MADDR.WADDR / 0xC000 ≠ s.rd R.IMG_LBANK.ACT →
        ∀ w, SMap.get (fun _ => (0 : Word)) t.img.lists w =
          if w = s.rd R.IMG_MADDR.WADDR then v else SMap.get (fun _ => (0 : Word)) s.img.lists w) ∧
      (s.rd R.IMG_MADDR.WADDR / 0xC000 < 2 ∧ s.rd R.IMG_STAT.STATE = stOff →
        ∀ w, SMap.get (fun _ => (0 : Word)) t.img.lists w =
          if w = s.rd R.IMG_MADDR.WADDR then v else SMap.get (fun _ => (0 : Word)) s.img.lists w) ∧
      (2 ≤ s.rd R.IMG_MADDR.WADDR / 0xC000 ∨ s.rd R.IMG_MADDR.WADDR / 0xC000 = s.rd R.IMG_LBANK.ACT ∧ s.rd R.IMG_STAT.STATE ≠ stOff → t.img = s.img))

/-- SUB_RECEIVED, UNSUB_RECEIVED, FETCH_RECEIVED, SUBACK_RECEIVED, PUSH_RECEIVED and PUSH_SEND (R130, R131, R134, R136). The body is
taken from the fabric; while replicas are not served it is then discarded; one of another version, of a wrong kind, count or
length is discarded, counted and raises BADMSG; any other is handled by the kind it names, whichever of the five commands
carried it. A push for an index that no range covers counts NOSUB alone; one that the sequence rule turns away, from the
incarnation in force, counts OLDSEQ alone; an accepted one counts PUSHRX and stores the record without STALE and with its type
valid, an incarnation that differs is taken and recorded, and a LIVE or STALE range is LIVE again. PUSH_SEND lets at most n
pending indices go to the nodes whose entries cover them and clears their marks; outside service it does nothing. -/
def Obligations.point_messages : Prop :=
  ∀ (s : State),
    (∀ (src : Nat) (b : List Byte) (u : State), u = s.takeInbox tyPoint src b → u.hopServes = false →
      ∀ c ∈ [Instr.subReceived src b, .unsubReceived src b, .fetchReceived src b, .subackReceived src b, .pushReceived src b],
      exec c s = .next u) ∧
    (∀ (src : Nat) (b : List Byte) (u : State), u = s.takeInbox tyPoint src b → u.hopServes = true →
      numAt b 0 1 = 0 ∨ 5 < numAt b 0 1 ∨ numAt b 1 1 ≠ 1 ∨ numAt b 2 2 = 0 ∨ 32 < numAt b 2 2 ∨
        b.length ≠ 8 + numAt b 2 2 * itemSize (numAt b 0 1) →
      ∀ c ∈ [Instr.subReceived src b, .unsubReceived src b, .fetchReceived src b, .subackReceived src b, .pushReceived src b],
      exec c s = .next ((u.bump R.HOP_CNT_BADMSG.COUNT).raise R.HOP_INTSTAT.BADMSG)) ∧
    (∀ (src : Nat) (b : List Byte) (u : State), u = s.takeInbox tyPoint src b → u.hopServes = true →
      numAt b 1 1 = 1 → numAt b 2 2 ≠ 0 → numAt b 2 2 ≤ 32 → b.length = 8 + numAt b 2 2 * itemSize (numAt b 0 1) →
      ∀ c ∈ [Instr.subReceived src b, .unsubReceived src b, .fetchReceived src b, .subackReceived src b, .pushReceived src b],
      (numAt b 0 1 = kSub → exec c s = .next (u.subIn src (chunks 12 (b.drop 8)))) ∧
      (numAt b 0 1 = kSuback → exec c s = .next (u.subackIn src (numAt b 4 2) (chunks 8 (b.drop 8)))) ∧
      (numAt b 0 1 = kUnsub → exec c s = .next (u.unsubIn src (chunks 8 (b.drop 8)))) ∧
      (numAt b 0 1 = kPush → exec c s = .next (u.each (chunks 36 (b.drop 8)) fun v it => v.pushIn1 src (numAt b 4 2) it)) ∧
      (numAt b 0 1 = kFetch → exec c s = .next (u.fetchIn src (chunks 8 (b.drop 8))))) ∧
    (∀ (src pinc : Nat) (it : List Byte), s.rangeOf src (numAt it 0 4 % 2 ^ 20) = none →
      s.pushIn1 src pinc it = s.bump R.HOP_CNT_NOSUB.COUNT) ∧
    (∀ (src pinc : Nat) (it : List Byte) (e slot d : Nat), s.rangeOf src (numAt it 0 4 % 2 ^ 20) = some e →
      slot = (s.range e).slot + (numAt it 0 4 % 2 ^ 20 - (s.range e).first) →
      d = (recSeq (it.drop 4) + 2 ^ 32 - recSeq (s.bytes (s.storeAddr slot) 32)) % 2 ^ 32 →
      ((s.range e).pinc = pinc → 2 ^ 31 ≤ d → s.pushIn1 src pinc it = s.bump R.HOP_CNT_OLDSEQ.COUNT) ∧
      ((s.range e).pinc ≠ pinc ∨ d < 2 ^ 31 →
        ∀ (u v : State) (st : PStat) (ty : Nat), u = (if (s.range e).pinc = pinc then s
          else (s.setRange e { s.range e with pinc := pinc, pincKnown := true }).event 0x0406 (subj := (s.range e).name) (val1 := pinc)) → u.needsRepair slot = false →
        st = { recStat (it.drop 4) with stale := false } → ty = numAt (it.drop 4) 28 4 →
        v = (u.bump R.HOP_CNT_PUSHRX.COUNT).putReplica slot ((it.drop 4).take 16 ++ bytesLE st.toNat 4 ++ ((it.drop 4).drop 20).take 8 ++
          bytesLE (if ty.testBit 8 then ty else ty + 256) 4) →
        s.pushIn1 src pinc it = if (s.range e).state = rngLive ∨ (s.range e).state = rngStale then v.rangeLive e else v)) ∧
    (∀ n, s.hopServes = false → exec (.pushSend n) s = .next s) ∧
    (∀ (n : Nat) (idx : List Nat), s.hopServes = true → idx = ((s.hop.pending.filter (·.2)).map (·.1)).take n →
      exec (.pushSend n) s = .next ((s.each s.outList' fun u e => u.pushTo (u.outEntry e).node
        (idx.filter fun i => (u.outEntry e).first ≤ i && i < (u.outEntry e).first + (u.outEntry e).count)).each idx
          fun u i => { u with hop := { u.hop with pending := SMap.set (fun _ => false) u.hop.pending i false } }))

/-- RANGE_STALE_TIMER, SUB_RETRY_TIMER, LEASE_RENEWAL_TIMER, OUTBOUND_LEASE_EXPIRY and PRODUCER_RANGE_TIMER (Tables 4-5, 4-6, R129
to R131). A LIVE range whose timer ends is STALE, raises RNGSTALE, is recorded and subscribes again with a dump; a SUB of a
SUBSCRIBING or STALE range is repeated T_RETRY after the last one with a dump, that of a LIVE one is renewed 20 s after it
without a dump. An outbound entry whose lease ends is removed, raises SUBEXP and is recorded; a valid one pushes its whole range
while replicas are served, and comes due MAXPER later. While replicas are not served the range timers and the pushes do nothing,
nor does a timer in another state or of an entry that is not valid. -/
def Obligations.range_timers : Prop :=
  ∀ (s : State),
    (∀ (r : Nat) (u : State), r < 8192 → s.hopServes = true → (s.range r).state = rngLive → u = s.advance (s.range r).staleAt →
      exec (.rangeStaleTimer r) s = .next ((((u.setRange r { u.range r with state := rngStale }).raise R.HOP_INTSTAT.RNGSTALE).event 0x0401
        (subj := (u.range r).name)).sendSub r true)) ∧
    (∀ r, r < 8192 → s.hopServes = false ∨ (s.range r).state ≠ rngLive →
      exec (.rangeStaleTimer r) s = .next s ∧ exec (.leaseRenewalTimer r) s = .next s) ∧
    (∀ r, r < 8192 → s.hopServes = true → (s.range r).state = rngSub ∨ (s.range r).state = rngStale →
      exec (.subRetryTimer r) s = .next ((s.advance ((s.range r).lastSub + s.tRetry)).sendSub r true)) ∧
    (∀ r, r < 8192 → s.hopServes = false ∨ (s.range r).state ≠ rngSub ∧ (s.range r).state ≠ rngStale → exec (.subRetryTimer r) s = .next s) ∧
    (∀ e, e < 4096 → s.hopServes = false → exec (.producerRangeTimer e) s = .next s) ∧
    (∀ r, r < 8192 → s.hopServes = true → (s.range r).state = rngLive →
      exec (.leaseRenewalTimer r) s = .next ((s.advance ((s.range r).lastSub + 20 * sec)).sendSub r false)) ∧
    (∀ e, e < 4096 → (s.outEntry e).valid = true → exec (.outboundLeaseExpiry e) s =
      .next ((((s.advance (s.outEntry e).leaseEnd).changeOut e {}).raise R.HOP_INTSTAT.SUBEXP).event 0x0405
        (subj := (s.outEntry e).node * 2 ^ 20 + (s.outEntry e).first))) ∧
    (∀ e, e < 4096 → (s.outEntry e).valid = false →
      exec (.outboundLeaseExpiry e) s = .next s ∧ exec (.producerRangeTimer e) s = .next s) ∧
    (∀ (e : Nat) (u : State), e < 4096 → (s.outEntry e).valid = true → s.hopServes = true →
      u = (s.advance (s.outEntry e).nextPush).pushRange (s.outEntry e) → exec (.producerRangeTimer e) s =
        .next (u.setOutEntry e { s.outEntry e with nextPush := u.now + 10 * ms * (s.outEntry e).maxper }))

/-- HOP_INIT_COMPLETE, PINSCAN, PINSCAN_COMPLETE, UNPIN, LOOKUP_READ, LOOKUP_TOUCH, PAGE_IN_COMPLETE, REFETCH_TIMER and
HOP_TDATA_WRITE (R140 to R156). While INIT is set in RUN its end initialises every slot of every range, clears INIT, raises
INITDONE and subscribes each range. A scan starts while replicas are served and ends by its completion in RUN alone; outside
service it ends at once with NOTRUN; GO while one runs is ignored, also for UNPIN, which otherwise takes the bank's pins away
and ends with OK. A GO to a busy lookup port is ignored; READ answers by the lookup; TOUCH marks an own index, answers NOTOWN
for a replica, ABSENT for what names nothing (the model's choice, notes/assumptions/156) and NOTRUN outside RUN. A page that has
been read makes its frame resident and answers what waited for it. A refetch is repeated 100 ms after the last one and given up,
counted and recorded after three. A word of the node or inbound tables is stored in OFF only (or in a handover's phase 5);
HOP_TADDR advances in every case, and no other register and no memory changes. -/
def Obligations.replica_store : Prop :=
  ∀ (s : State),
    (∀ u v : State, s.on R.HOP_STAT.INIT = true → s.running .hop = true →
      u = s.each s.inEntries (fun s e => s.each (List.range (s.range e).count) fun t k => t.write mHopper (t.storeAddr ((s.range e).slot + k)) blankReplica) →
      v = (u.clear R.HOP_STAT.INIT).raise R.HOP_INTSTAT.INITDONE →
      exec .hopInitComplete s =
        .next (v.each v.inEntries fun s e => (s.setRange e { s.range e with state := rngSub }).sendSub e true).refetchAgain) ∧
    (s.on R.HOP_STAT.INIT = false ∨ s.running .hop = false → exec .hopInitComplete s = .next s) ∧
    (∀ b, b < 2 → s.hop.scan.isSome = true → exec (.pinscan b) s = .next s ∧ exec (.unpin b) s = .next s) ∧
    (∀ (b : Nat) (u : State), b < 2 → s.hop.scan = none → u = (s.wr R.HOP_PIN_CMD.OP 1).wr R.HOP_PIN_CMD.BANK b → u.hopServes = true →
      exec (.pinscan b) s = .next ({ u with hop := { u.hop with scan := some b } }.raise R.HOP_PIN_CMD.GO)) ∧
    (∀ (b : Nat) (u : State), b < 2 → s.hop.scan = none → u = (s.wr R.HOP_PIN_CMD.OP 1).wr R.HOP_PIN_CMD.BANK b → u.hopServes = false →
      ∃ t, exec (.pinscan b) s = .next t ∧ t = (u.wr R.HOP_PIN_STAT.RESULT 2).raise R.HOP_INTSTAT.PINDONE ∧
        t.rd R.HOP_PIN_STAT.RESULT = 2 ∧ t.rd R.HOP_INTSTAT.PINDONE = 1) ∧
    (s.hop.scan = none ∨ s.running .hop = false → exec .pinscanComplete s = .next s) ∧
    (∀ b, s.hop.scan = some b → s.running .hop = true → exec .pinscanComplete s = .next (s.scanDone b)) ∧
    (∀ (b : Nat) (u : State), b < 2 → s.hop.scan = none → u = (s.wr R.HOP_PIN_CMD.OP 2).wr R.HOP_PIN_CMD.BANK b →
      exec (.unpin b) s = .next ((((u.each (u.hop.frames.map (·.1)) fun v f =>
        v.setFrame f { v.frame f with pins := (v.frame f).pins &&& ~~~(if b = 0 then 1#2 else 2#2) }).wr
          R.HOP_PIN_STAT.RESULT 0).raise R.HOP_INTSTAT.PINDONE).syncCache)) ∧
    (∀ p, p < 4 → s.on (R.HOP_LK_CMD.GO p) = true → exec (.lookupRead p) s = .next s ∧ exec (.lookupTouch p) s = .next s) ∧
    (∀ p, p < 4 → s.on (R.HOP_LK_CMD.GO p) = false → exec (.lookupRead p) s =
      .next (((s.wr (R.HOP_LK_CMD.OP p) 1).lookup (p + 1) (s.rd (R.HOP_LK_ID.ID p))).2.showLookup p
        ((s.wr (R.HOP_LK_CMD.OP p) 1).lookup (p + 1) (s.rd (R.HOP_LK_ID.ID p))).1 false)) ∧
    (∀ (p : Nat) (u : State), p < 4 → s.on (R.HOP_LK_CMD.GO p) = false → u = s.wr (R.HOP_LK_CMD.OP p) 2 → u.running .hop = false →
      exec (.lookupTouch p) s = .next ((u.wr (R.HOP_LK_STAT.RESULT p) lkNotrun).clear (R.HOP_LK_STAT.MISS p))) ∧
    (∀ (p i : Nat) (u : State), p < 4 → s.on (R.HOP_LK_CMD.GO p) = false → u = s.wr (R.HOP_LK_CMD.OP p) 2 → u.running .hop = true →
      u.resolve (u.rd (R.HOP_LK_ID.ID p)) = .own i → exec (.lookupTouch p) s =
        .next ((((u.markPending i).wr (R.HOP_LK_SLOT.SLOT p) i).wr (R.HOP_LK_STAT.RESULT p) lkOk).clear (R.HOP_LK_STAT.MISS p))) ∧
    (∀ (p i slot : Nat) (u : State), p < 4 → s.on (R.HOP_LK_CMD.GO p) = false → u = s.wr (R.HOP_LK_CMD.OP p) 2 → u.running .hop = true →
      (u.resolve (u.rd (R.HOP_LK_ID.ID p)) = .replica i slot → exec (.lookupTouch p) s =
        .next ((u.wr (R.HOP_LK_STAT.RESULT p) lkNotown).clear (R.HOP_LK_STAT.MISS p))) ∧
      (u.resolve (u.rd (R.HOP_LK_ID.ID p)) = .nothing → exec (.lookupTouch p) s =
        .next ((u.wr (R.HOP_LK_STAT.RESULT p) lkAbsent).clear (R.HOP_LK_STAT.MISS p)))) ∧
    (∀ (page f : Nat), page < 2048 → s.pageFrame page = some f → exec (.pageInComplete page) s =
      .next (((s.endPage f page).answerMisses page).2.gateResume (some ((s.endPage f page).answerMisses page).1))) ∧
    (∀ page, page < 2048 → s.pageFrame page = none → exec (.pageInComplete page) s = .next s) ∧
    (∀ (k : Nat) (x : HopRefetch) (u : State), k < 262144 → s.hop.refetch.find? (·.slot == k) = some x → x.tries < 3 →
      s.hopServes = true → u = s.advance (x.sentAt + 100 * ms) → exec (.refetchTimer k) s =
        .next (State.sendFetch { u with hop := { u.hop with refetch := u.hop.refetch.map fun y =>
          if y.slot == k then { y with tries := y.tries + 1, sentAt := u.now } else y } } k)) ∧
    (∀ (k : Nat) (x : HopRefetch) (u : State), k < 262144 → s.hop.refetch.find? (·.slot == k) = some x → 3 ≤ x.tries →
      s.hopServes = true → u = s.advance (x.sentAt + 100 * ms) → exec (.refetchTimer k) s =
        .next (((State.bump { u with hop := { u.hop with refetch := u.hop.refetch.filter (·.slot != k) } } R.HOP_CNT_REFAIL.COUNT).raise
          R.HOP_INTSTAT.REFAIL).event 0x0404 (unit := k / 128) (subj := k))) ∧
    (∀ k, k < 262144 → s.hopServes = false → exec (.refetchTimer k) s = .next s) ∧
    (∀ k, k < 262144 → s.hop.refetch.find? (·.slot == k) = none → exec (.refetchTimer k) s = .next s) ∧
    (∀ v : Word, ∃ t, exec (.hopTdataWrite v) s = .next t ∧
      t.rd R.HOP_TADDR.WADDR = (s.rd R.HOP_TADDR.WADDR + 1) % 2 ^ R.HOP_TADDR.WADDR.w ∧ t.mem = s.mem ∧
      (∀ a, a ≠ R.HOP_TADDR.addr → t.reg a = s.reg a) ∧
      (s.rd UnitId.hop.STATE ≠ stOff → s.rd R.UPD_PHASE.PHASE ≠ 5 → t.hop = s.hop) ∧
      (s.rd UnitId.hop.STATE = stOff ∨ s.rd R.UPD_PHASE.PHASE = 5 → 0x2000 ≤ 4 * s.rd R.HOP_TADDR.WADDR →
        4 * s.rd R.HOP_TADDR.WADDR < 0x6000 → SMap.get (fun _ => (0 : BitVec 32)) t.hop.nodeTab ((4 * s.rd R.HOP_TADDR.WADDR - 0x2000) / 4) = v &&& 0x0FFFFFFF) ∧
      (∀ e, s.rd UnitId.hop.STATE = stOff ∨ s.rd R.UPD_PHASE.PHASE = 5 → 0x6000 ≤ 4 * s.rd R.HOP_TADDR.WADDR →
        4 * s.rd R.HOP_TADDR.WADDR < 0x26000 → e = (4 * s.rd R.HOP_TADDR.WADDR - 0x6000) / 16 →
        t.range e = (s.range e).putWord (s.rd R.HOP_TADDR.WADDR % 4) v.toNat))

/-- FRAME_FORWARD, UDP_DATAGRAM_RECEIVED, NEIGHBOR_SOLICIT_RECEIVED and ECHO_REQUEST_RECEIVED (R160, R166, R167, R169, R171, R173 to
R175, R181, R204, R497). A port takes frames while it and the fabric are in RUN and its link is up, and counts each in RXFRM. A
frame to another address, an unsecured one that is no KEYX and a secured KEYX count MISC; an unsecured KEYX acts by its own
command; a secured frame under no SA counts ICVFAIL, one behind the replay window REPLAY. Of the others one of another version
counts MISC; while the module has no node a routed one is dropped; a good one that is stored whole goes to the switch, one sent
on cut-through goes out with TTL one less unless its policer stops it; a failed one is counted at its port, and cut off at the
egress port where it was being sent. A client's frame enters at the internal port while the fabric can send, unless it is a
QUENCH or too long. A datagram that is not the peer's counts MISC, the peer's frame is taken as one of the link. A solicitation
and an echo request for the address of a tunnel port are answered; in recovery mode only a solicitation of the recovery address
at port 0. -/
def Obligations.frames_forwarded : Prop :=
  ∀ (s : State),
    (∀ (p : Nat) (f : RxFrame), p < 4 → s.takesFrames p = false → exec (.frameForward p f) s = .next s) ∧
    (∀ (p : Nat) (f : RxFrame) (u : State), p < 4 → s.takesFrames p = true →
      u = (s.setPort p { s.port p with trafficAt := some s.now }).bump (R.FAB_P_CNT_RXFRM.COUNT p) →
      (f.daOk = false → exec (.frameForward p f) s = .next (u.bump (R.FAB_P_CNT_MISC.COUNT p))) ∧
      (f.daOk = true → f.secured = (f.leat.typ == tyKeyx) → exec (.frameForward p f) s = .next (u.bump (R.FAB_P_CNT_MISC.COUNT p))) ∧
      (f.daOk = true → f.secured = false → f.leat.typ = tyKeyx → exec (.frameForward p f) s = .next u)) ∧
    (∀ (p : Nat) (f : RxFrame) (u : State), p < 4 → s.takesFrames p = true →
      u = (s.setPort p { s.port p with trafficAt := some s.now }).bump (R.FAB_P_CNT_RXFRM.COUNT p) →
      f.daOk = true → f.secured = true → f.leat.typ ≠ tyKeyx → ((u.port p).rx.find? fun a => a.an == f.an) = none →
      exec (.frameForward p f) s = .next (u.bump (R.FAB_P_CNT_ICVFAIL.COUNT p))) ∧
    (∀ (p : Nat) (f : RxFrame) (a : FabSa) (u : State), p < 4 → s.takesFrames p = true →
      u = (s.setPort p { s.port p with trafficAt := some s.now }).bump (R.FAB_P_CNT_RXFRM.COUNT p) →
      f.daOk = true → f.secured = true → f.leat.typ ≠ tyKeyx → ((u.port p).rx.find? fun a => a.an == f.an) = some a →
      (f.pn + u.rd R.FAB_SEC.RPW ≤ a.highPn → exec (.frameForward p f) s = .next (u.bump (R.FAB_P_CNT_REPLAY.COUNT p))) ∧
      (a.highPn < f.pn + u.rd R.FAB_SEC.RPW → exec (.frameForward p f) s = .next (u.frameGo p f))) ∧
    (∀ (p q : Nat) (f : RxFrame) (u : State), q = s.routePort f.leat.dst →
      u = (if f.icvOk = true ∧ f.fcsOk = true then s.setPort p { s.port p with rx := (s.port p).rx.map fun a =>
        if a.an = f.an then { a with highPn := max a.highPn f.pn } else a } else s) →
      (f.leat.ver ≠ 1 → s.frameGo p f = u.bump (R.FAB_P_CNT_MISC.COUNT p)) ∧
      (f.leat.ver = 1 → s.rd R.FAB_NODE.ACT = 0 → linkType f.leat.typ = false → s.frameGo p f = u) ∧
      (f.leat.ver = 1 → s.rd R.FAB_NODE.ACT ≠ 0 ∨ linkType f.leat.typ = true →
        f.leat.dst = 4095 ∨ f.leat.dst = 0 ∨ 4 ≤ q ∨ f.leat.ttl = 0 ∨ f.leat.typ = tyQuench ∨ linkType f.leat.typ = true ∨
          s.cutThrough p q f.leat = false →
        (f.icvOk = true → f.fcsOk = true → s.frameGo p f = u.switch p f.leat) ∧
        (f.icvOk = false ∨ f.fcsOk = false → s.frameGo p f = u.badEnd p f)) ∧
      (f.leat.ver = 1 → s.rd R.FAB_NODE.ACT ≠ 0 → f.leat.dst ≠ 4095 → f.leat.dst ≠ 0 → q < 4 → f.leat.ttl ≠ 0 → f.leat.typ ≠ tyQuench →
        linkType f.leat.typ = false → s.cutThrough p q f.leat = true →
        (u.ctlPolice p q f.leat = none → s.frameGo p f = u.bump (R.FAB_P_CNT_CTLPOL.COUNT p)) ∧
        ∀ v, u.ctlPolice p q f.leat = some v →
          (f.icvOk = true → f.fcsOk = true → s.frameGo p f = v.putOnWire q { f.leat with ttl := f.leat.ttl - 1 }) ∧
          (f.icvOk = false ∨ f.fcsOk = false → s.frameGo p f = v.icvCut p q f))) ∧
    (∀ f : RxFrame, s.canSend = true → f.leat.typ ≠ tyQuench → f.leat.payload.length ≤ maxSend →
      exec (.frameForward 4 f) s = .next ((s.tookSeq f.leat).txIn f.leat f.poisonAt).2) ∧
    (∀ f : RxFrame, s.canSend = false ∨ f.leat.typ = tyQuench ∨ maxSend < f.leat.payload.length → exec (.frameForward 4 f) s = .next s) ∧
    (∀ (p : Nat) (d : Datagram), p < 4 → s.udp p = false ∨ s.portLive p = false → exec (.udpDatagramReceived p d) s = .next s) ∧
    (∀ (p : Nat) (d : Datagram), p < 4 → s.udp p = true → s.portLive p = true →
      d.srcAddr ≠ s.ip6 (R.FAB_P_PEER.addr p 0) ∨ d.srcPort ≠ s.rd (R.FAB_P_UDP.PORT p) ∨ d.dstPort ≠ s.rd (R.FAB_P_UDP.PORT p) ∨
        d.extHeader = true ∨ d.sumOk = false → exec (.udpDatagramReceived p d) s = .next (s.bump (R.FAB_P_CNT_MISC.COUNT p))) ∧
    (∀ (p : Nat) (d : Datagram), p < 4 → s.udp p = true → s.portLive p = true →
      d.srcAddr = s.ip6 (R.FAB_P_PEER.addr p 0) → d.srcPort = s.rd (R.FAB_P_UDP.PORT p) → d.dstPort = s.rd (R.FAB_P_UDP.PORT p) →
      d.extHeader = false → d.sumOk = true → exec (.udpDatagramReceived p d) s = .next (s.frameIn p { d.frame with fcsOk := true })) ∧
    (∀ (p : Nat) (x : BitVec 128), p < 4 →
      (if s.upd.recovery.isSome = true then p = 0 ∧ x = s.recoveryIp else s.udp p = true ∧ s.portOn p = true ∧ x = s.ip6 (R.FAB_P_IP.addr p 0)) →
      ∃ t, exec (.neighborSolicitReceived p x) s = .next t ∧ t.regs = s.regs ∧ t.mem = s.mem ∧
        SMap.get (fun _ => 0) t.fab.ndAnswers p = SMap.get (fun _ => 0) s.fab.ndAnswers p + 1) ∧
    (∀ (p : Nat) (x : BitVec 128), p < 4 →
      ¬ (if s.upd.recovery.isSome = true then p = 0 ∧ x = s.recoveryIp else s.udp p = true ∧ s.portOn p = true ∧ x = s.ip6 (R.FAB_P_IP.addr p 0)) →
      exec (.neighborSolicitReceived p x) s = .next s) ∧
    (∀ (p : Nat) (x : BitVec 128), p < 4 → s.upd.recovery = none → s.udp p = true → s.portOn p = true → x = s.ip6 (R.FAB_P_IP.addr p 0) →
      ∃ t, exec (.echoRequestReceived p x) s = .next t ∧ t.regs = s.regs ∧ t.mem = s.mem ∧
        SMap.get (fun _ => 0) t.fab.echoAnswers p = SMap.get (fun _ => 0) s.fab.echoAnswers p + 1) ∧
    (∀ (p : Nat) (x : BitVec 128), p < 4 → s.upd.recovery ≠ none ∨ s.udp p = false ∨ s.portOn p = false ∨ x ≠ s.ip6 (R.FAB_P_IP.addr p 0) →
      exec (.echoRequestReceived p x) s = .next s)

/-- LINK_UP, LINK_DOWN, KEYX_OFFER_RECEIVED, KEYX_ANSWER_RECEIVED, KEYX_OFFER_TIMER, KEYING_TIMEOUT, REKEY_TIMER and OLD_SA_DELETE
(Table 5-9, R157, R164, R165, R177). On a fabric port in RUN a link comes up at a speed of its medium and shows it, and with the
adjacency DOWN and the fabric in RUN keying starts; otherwise LINK_UP does nothing. LINK_DOWN takes a link that is up down. At
port 4 both move the pair link alone. A KEYX is taken while the adjacency is not DOWN and the key engine serves the fabric; a
failed TAG drops it; an OFFER is answered, after this side's own rekey where it calls for one; an ANSWER to another nonce, or
outside KEYING and a rekey, changes nothing; one that names the nonce installs the SA, and the adjacency goes on from KEYING to
HELLO, or stands through a rekey. An OFFER is repeated each 100 ms, with a new nonce after 1 s; 10 s in KEYING are recorded; a
rekey starts REKEY_MIN after the SA or at PN 0xC000_0000; the old SA goes 1 s after the new one. Which side starts its rekey at
an OFFER is the model's reading (notes/assumptions/38). -/
def Obligations.links_and_keys : Prop :=
  ∀ (s : State),
    (∀ (p v : Nat) (u : State), p < 4 → s.running (portUnit p) = true → s.speedOk p v = true →
      u = (s.raise (R.FAB_P_STAT.LINK p)).wr (R.FAB_P_STAT.SPEED p) v →
      (u.rd (fADJ p) = adjDown → u.running .fab = true → exec (.linkUp p v) s = .next (u.keying p)) ∧
      (u.rd (fADJ p) ≠ adjDown ∨ u.running .fab = false → exec (.linkUp p v) s = .next u)) ∧
    (∀ p v, p < 4 → s.running (portUnit p) = false ∨ s.speedOk p v = false → exec (.linkUp p v) s = .next s) ∧
    (∀ v, exec (.linkUp 4 v) s = .next { s with pair := { s.pair with p4Link := true } } ∧
      exec (.linkDown 4) s = .next (State.setPort { s with pair := { s.pair with p4Link := false } } 4 {})) ∧
    (∀ p, p < 4 → s.on (R.FAB_P_STAT.LINK p) = true → exec (.linkDown p) s = .next (s.portOff p)) ∧
    (∀ p, p < 4 → s.on (R.FAB_P_STAT.LINK p) = false → exec (.linkDown p) s = .next s) ∧
    (∀ (p : Nat) (k : Keyx), p < 4 → s.keyxOpen p = false ∨ s.fabKeyOk = false →
      exec (.keyxOfferReceived p k) s = .next s ∧ exec (.keyxAnswerReceived p k) s = .next s) ∧
    (∀ (p : Nat) (k : Keyx), p < 4 → s.keyxOpen p = true → s.fabKeyOk = true → k.tagOk = false →
      exec (.keyxOfferReceived p k) s = .next (s.keyFail p) ∧ exec (.keyxAnswerReceived p k) s = .next (s.keyFail p)) ∧
    (∀ (p : Nat) (k : Keyx) (u v : State), p < 4 → s.keyxOpen p = true → s.fabKeyOk = true → k.tagOk = true →
      u = (s.learnPeer p k).setPort p { (s.learnPeer p k).port p with peerAn := k.an, offerSeen := true } →
      ((u.port p).rekeying = true ∨ (∀ a, (u.port p).tx = some a → a.an = k.an) → v = u) →
      ((u.port p).rekeying = false → (∃ a, (u.port p).tx = some a ∧ a.an ≠ k.an) → v = u.rekey p) → exec (.keyxOfferReceived p k) s =
        .next (v.sendKeyx p 2 (if v.ownMac < k.mac then (v.port p).offerAn else k.an) k.nonce)) ∧
    (∀ (p : Nat) (k : Keyx), p < 4 → s.keyxOpen p = true → s.fabKeyOk = true → k.tagOk = true →
      k.peerNonce ≠ (s.port p).nonce ∨ (s.rd (fADJ p) ≠ adjKeying ∧ (s.port p).rekeying = false) → exec (.keyxAnswerReceived p k) s = .next s) ∧
    (∀ (p an : Nat) (k : Keyx) (u v : State), p < 4 → s.keyxOpen p = true → s.fabKeyOk = true → k.tagOk = true → k.peerNonce = (s.port p).nonce →
      s.rd (fADJ p) = adjKeying ∨ (s.port p).rekeying = true → u = s.learnPeer p k →
      an = (if u.ownMac < k.mac then (s.port p).offerAn else if (s.port p).offerSeen then (s.port p).peerAn else k.an) →
      v = u.setPort p { u.port p with
        tx := some { an := an, sak := u.sak k.mac (s.port p).nonce k.nonce an },
        rx := { an := an, sak := u.sak k.mac (s.port p).nonce k.nonce an } :: ((u.port p).rx.filter (·.an != an)).take 1,
        txPn := 0, saAt := u.now, oldSaAt := if (u.port p).rx.isEmpty then none else some (u.now + sec), rekeying := false } →
      (v.rd (fADJ p) = adjKeying → exec (.keyxAnswerReceived p k) s = .next ((v.wr (fADJ p) adjHello).sendHello p)) ∧
      (v.rd (fADJ p) ≠ adjKeying → exec (.keyxAnswerReceived p k) s = .next v)) ∧
    (∀ (p : Nat) (u : State), p < 4 → s.portLive p = true → s.rd (fADJ p) = adjKeying ∨ (s.port p).rekeying = true →
      u = s.advance ((s.port p).offerAt + 100 * ms) →
      exec (.keyxOfferTimer p) s = .next ((if (u.port p).nonceAt + sec ≤ u.now then u.newNonce p else u).offer p)) ∧
    (∀ p, p < 4 → s.portLive p = false → exec (.keyxOfferTimer p) s = .next s ∧ exec (.keyingTimeout p) s = .next s ∧ exec (.rekeyTimer p) s = .next s) ∧
    (∀ (p : Nat) (u : State), p < 4 → s.portLive p = true → s.rd (fADJ p) = adjKeying → u = s.advance ((s.port p).keyingSince + 10 * sec) →
      exec (.keyingTimeout p) s = .next ((u.setPort p { u.port p with keyingSince := u.now }).event 0x0502 (unit := p))) ∧
    (∀ (p : Nat) (u : State), p < 4 → (s.port p).tx.isSome = true → (s.port p).rekeying = false → s.portLive p = true →
      u = (if 0xC0000000 ≤ (s.port p).txPn then s else s.advance ((s.port p).saAt + 60 * sec * s.rd R.FAB_SEC.REKEY_MIN)) →
      exec (.rekeyTimer p) s = .next ((u.setPort p { u.port p with offerSeen := false }).rekey p)) ∧
    (∀ p, p < 4 → (s.port p).tx = none ∨ (s.port p).rekeying = true → exec (.rekeyTimer p) s = .next s) ∧
    (∀ p, p < 4 → s.rd (fADJ p) ≠ adjKeying → exec (.keyingTimeout p) s = .next s ∧
      ((s.port p).rekeying = false → exec (.keyxOfferTimer p) s = .next s)) ∧
    (∀ (p i : Nat) (u : State), p < 4 → (s.port p).oldSaAt = some i → u = s.advance i →
      exec (.oldSaDelete p) s = .next (u.setPort p { u.port p with rx := (u.port p).rx.take 1, oldSaAt := none })) ∧
    (∀ p, p < 4 → (s.port p).oldSaAt = none → exec (.oldSaDelete p) s = .next s)

/-- HELLO_TIMER, HELLO_RECEIVED, DEAD_TIMER, NODE_CLAIM_PICK, TENTATIVE_TIMER and NONODE_RETRY (Table 5-9, R176 to R180). While the
adjacency is in HELLO or UP, HELLO goes out INT after the last one, and a HELLO sets the dead instant. In UP one from another
MAC or node takes the adjacency through KEYING again, one that no longer names this node back to HELLO; in HELLO one that names
it brings the adjacency UP. The dead timer takes the port DOWN, unless a HELLO of the same FAB cycle prevails: one just taken,
or the next command. A claiming module picks its number once a neighbour's database is exchanged, or 500 ms after EN with no
adjacency UP; 300 ms without a conflict the candidate is its number, NSTATE says so, NODEOK is raised and recorded and the
number kept; without a free number it picks again at the retry instant. Outside these states nothing happens. That a claimant
without a number is named by 0, and what one command counts as the same cycle, are the model's readings (notes/assumptions/36
and 33). -/
def Obligations.adjacency_and_node_number : Prop :=
  ∀ (s : State),
    (∀ p, p < 4 → s.helloing p = true →
      exec (.helloTimer p) s = .next ((s.advance ((s.port p).helloAt + 100 * us * s.rd R.FAB_HELLO.INT)).sendHello p)) ∧
    (∀ (p : Nat) (h : Hello), p < 4 → s.helloing p = false → exec (.helloTimer p) s = .next s ∧ exec (.helloReceived p h) s = .next s) ∧
    (∀ (p : Nat) (h : Hello) (u v : State), p < 4 → s.helloing p = true →
      u = s.setPort p { s.port p with
        deadAt := some (s.now + 100 * us * h.int * h.dead),
        deadVoid := (match (s.port p).deadAt with | some t => decide (t ≤ s.now + fabCycle) | none => false) } →
      v = (u.setPort p { u.port p with peerMac := h.mac, peerNode := h.node }).wr (R.FAB_P_STAT.NBR p) h.node →
      (u.rd (fADJ p) = adjUp → h.mac ≠ (u.port p).peerMac ∨ h.node ≠ (u.port p).peerNode →
        exec (.helloReceived p h) s = .next (((u.leaveUp p adjKeying true).dropSa p).keying p)) ∧
      (u.rd (fADJ p) = adjUp → h.mac = (u.port p).peerMac → h.node = (u.port p).peerNode →
        (h.heard ≠ u.rd R.FAB_NODE.ACT → v.rd R.FAB_NODE.ACT = u.rd R.FAB_NODE.ACT →
          exec (.helloReceived p h) s = .next (v.leaveUp p adjHello false)) ∧
        (h.heard = u.rd R.FAB_NODE.ACT → exec (.helloReceived p h) s = .next v)) ∧
      (u.rd (fADJ p) ≠ adjUp → (h.heard = u.rd R.FAB_NODE.ACT → exec (.helloReceived p h) s = .next (v.comeUp p)) ∧
        (h.heard ≠ u.rd R.FAB_NODE.ACT → exec (.helloReceived p h) s = .next v))) ∧
    (∀ p i, p < 4 → (s.port p).deadAt = some i → s.helloing p = true →
      ((s.port p).deadVoid = true → exec (.deadTimer p) s = .next (s.setPort p { s.port p with deadVoid := false })) ∧
      ((s.port p).deadVoid = false → s.helloNext p = true →
        exec (.deadTimer p) s = .next ((s.advance i).setPort p { s.port p with deadAt := none })) ∧
      ((s.port p).deadVoid = false → s.helloNext p = false → exec (.deadTimer p) s = .next ((s.advance i).portDown p))) ∧
    (∀ p, p < 4 → s.helloing p = false ∨ (s.port p).deadAt = none → exec (.deadTimer p) s = .next s) ∧
    (s.running .fab = true → s.rd R.FAB_NODE.NSTATE = nsClaiming → s.fab.tentativeAt = none →
      (s.fab.exchanged = true → exec .nodeClaimPick s = .next s.pickNode) ∧
      (s.fab.exchanged = false → s.upPorts = [] → exec .nodeClaimPick s = .next (s.advance (s.fab.enAt + 500 * ms)).pickNode) ∧
      (s.fab.exchanged = false → s.upPorts ≠ [] → exec .nodeClaimPick s = .next s)) ∧
    (s.running .fab = false ∨ s.rd R.FAB_NODE.NSTATE ≠ nsClaiming ∨ s.fab.tentativeAt ≠ none → exec .nodeClaimPick s = .next s) ∧
    (∀ (i : Nat) (u v x w : State), s.fab.tentativeAt = some i → s.running .fab = true → u = s.advance (i + 300 * ms) →
      v = (u.wr R.FAB_NODE.ACT u.fab.candidate).wr R.FAB_NODE.NSTATE nsAssigned →
      x = { v with fab := { v.fab with tentativeAt := none } } → w = x.originate u.fab.candidate lsAssigned →
      exec .tentativeTimer s = .next (((w.putIdentRec { x.identRec with node := u.fab.candidate }).raise R.FAB_INTSTAT.NODEOK).event 0x0503
        (subj := u.fab.candidate))) ∧
    (s.fab.tentativeAt = none ∨ s.running .fab = false → exec .tentativeTimer s = .next s) ∧
    (s.running .fab = true → s.rd R.FAB_NODE.NSTATE = nsNonode → exec .nonodeRetry s = .next (s.advance s.fab.retryAt).pickNode) ∧
    (s.running .fab = false ∨ s.rd R.FAB_NODE.NSTATE ≠ nsNonode → exec .nonodeRetry s = .next s)

/-- LSA_RECEIVED, LSACK_RECEIVED, LSA_RETRANSMIT, LSA_REFRESH, LSA_AGE_OUT, ROUTE_COMPUTE_START and ROUTE_COMPUTE_COMPLETE (R180,
R182, R183, R185, R187). Outside HELLO and UP nothing is taken, nor an LSA while the fabric does not run or of a wrong node or
state. An LSA of another node is acknowledged where its SEQ is the stored one, taken where newer or unknown, answered with the
stored copy where older; a claim of this module's own number to which it yields makes it yield first; any other LSA of the own
number makes it flood with a higher SEQ, acknowledge, or answer. A taken LSA is counted, acknowledged, flooded on and installed,
a WITHDRAWN one removes its entry. An acknowledged LSA is not repeated, the others are every 2 ms, but for those the database
has replaced. A refresh comes 30 s after the last, an age-out 120 s after the last LSA of another node. 0.5 ms after a change a
computation starts, in ASSIST mode a descriptor is posted; its end replaces the routes. -/
def Obligations.link_state_routing : Prop :=
  ∀ (s : State),
    (∀ (p : Nat) (l : Lsa) (x : List (Nat × Nat)), p < 4 → s.helloing p = false →
      exec (.lsaReceived p l) s = .next s ∧ exec (.lsackReceived p x) s = .next s) ∧
    (∀ (p : Nat) (l : Lsa), p < 4 → s.running .fab = false → exec (.lsaReceived p l) s = .next s) ∧
    (∀ (p : Nat) (l : Lsa), p < 4 → s.helloing p = true → s.running .fab = true → 1 ≤ l.node → l.node ≤ 4094 → 1 ≤ l.state → l.state ≤ 3 →
      (l.alias_ = true → exec (.lsaReceived p l) s = .next (s.aliasIn p l)) ∧
      (l.alias_ = false → l.node = s.myNode → l.mac ≠ s.ownMac → l.state ≠ lsWithdrawn → s.yieldsTo l = true →
        exec (.lsaReceived p l) s = .next ((s.yieldNode l.node).lsaBySeq p l)) ∧
      (l.alias_ = false → l.node = s.myNode → l.mac = s.ownMac ∨ l.state = lsWithdrawn ∨ s.yieldsTo l = false →
        (seqNewer l.seq s.fab.ownSeq = true → exec (.lsaReceived p l) s =
          .next ((s.sendAck p l).originate l.node (if (s.sendAck p l).rd R.FAB_NODE.ACT = 0 then lsTentative else lsAssigned) (some (l.seq + 1)))) ∧
        (seqNewer l.seq s.fab.ownSeq = false → l.seq = s.fab.ownSeq → exec (.lsaReceived p l) s = .next (s.sendAck p l)) ∧
        (seqNewer l.seq s.fab.ownSeq = false → l.seq ≠ s.fab.ownSeq →
          (s.lsa l.node = none → exec (.lsaReceived p l) s = .next (s.sendAck p l)) ∧
          ∀ x, s.lsa l.node = some x → exec (.lsaReceived p l) s = .next (s.sendLsas p [x.lsa])))) ∧
    (∀ (p : Nat) (l : Lsa) (u v : State), u = (s.bump R.FAB_CNT_LSARX.COUNT).sendAck p l → v = u.flood l (some p) →
      s.takeLsa p l = if l.state = lsWithdrawn then v.removeLsa l.node else v.installLsa l.node l) ∧
    (∀ (p : Nat) (l : Lsa), p < 4 → l.node = 0 ∨ 4094 < l.node ∨ l.state = 0 ∨ 3 < l.state → exec (.lsaReceived p l) s = .next s) ∧
    (∀ (p : Nat) (l : Lsa), p < 4 → s.helloing p = true → s.running .fab = true → 1 ≤ l.node → l.node ≤ 4094 → 1 ≤ l.state → l.state ≤ 3 →
      l.alias_ = false → l.node ≠ s.myNode →
      (s.lsa l.node = none → exec (.lsaReceived p l) s = .next (s.takeLsa p l)) ∧
      ∀ x, s.lsa l.node = some x →
        (l.seq = x.lsa.seq → exec (.lsaReceived p l) s = .next (s.sendAck p l)) ∧
        (l.seq ≠ x.lsa.seq → seqNewer l.seq x.lsa.seq = true → exec (.lsaReceived p l) s = .next (s.takeLsa p l)) ∧
        (l.seq ≠ x.lsa.seq → seqNewer l.seq x.lsa.seq = false → exec (.lsaReceived p l) s = .next (s.sendLsas p [x.lsa]))) ∧
    (∀ (p : Nat) (l : List (Nat × Nat)) (left : List Lsa) (u : State), p < 4 → s.helloing p = true →
      left = (s.port p).unacked.filter (fun x => !l.contains (x.node, x.seq)) → u = s.setPort p { s.port p with unacked := left } →
      (left = [] → u.rd (fADJ p) = adjUp → exec (.lsackReceived p l) s = .next { u with fab := { u.fab with exchanged := true } }) ∧
      (left ≠ [] ∨ u.rd (fADJ p) ≠ adjUp → exec (.lsackReceived p l) s = .next u)) ∧
    (∀ (p : Nat) (u : State), p < 4 → s.portLive p = true → s.rd (fADJ p) = adjUp → (s.port p).unacked ≠ [] → u = s.advance ((s.port p).lsaSentAt + 2 * ms) →
      exec (.lsaRetransmit p) s = .next ((u.setPort p { u.port p with unacked := [], lsaSentAt := u.now }).sendLsas p
        ((s.port p).unacked.filter fun l => match u.lsa l.node with | some y => !seqNewer y.lsa.seq l.seq | none => true))) ∧
    (∀ p, p < 4 → s.portLive p = false ∨ (s.port p).unacked = [] ∨ s.rd (fADJ p) ≠ adjUp → exec (.lsaRetransmit p) s = .next s) ∧
    (s.running .fab = true → s.rd R.FAB_NODE.NSTATE = nsAssigned → exec .lsaRefresh s = .next (s.advance (s.fab.ownAt + 30 * sec)).reoriginate) ∧
    (s.running .fab = false ∨ s.rd R.FAB_NODE.NSTATE ≠ nsAssigned → exec .lsaRefresh s = .next s) ∧
    (∀ (n : Nat) (x : FabLsa), n < 4096 → s.lsa n = some x → n ≠ s.myNode → exec (.lsaAgeOut n) s = .next ((s.advance (x.at_ + 120 * sec)).removeLsa n)) ∧
    (∀ n, n < 4096 → s.lsa n = none ∨ n = s.myNode → exec (.lsaAgeOut n) s = .next s) ∧
    (∀ (i : Nat) (u : State), s.fab.dirtyAt = some i → s.fab.computing = none → s.running .fab = true →
      u = { s.advance (i + 500 * us) with fab := { (s.advance (i + 500 * us)).fab with dirtyAt := none } } →
      (u.assist .fab = false → exec .routeComputeStart s =
        .next ({ u with fab := { u.fab with computing := some u.computeRoutes } } : State).spfBusy) ∧
      (u.assist .fab = true → exec .routeComputeStart s = .next
        (u.asnPostTo .fab 5 0 (bytesLE u.fab.generation 4 ++ bytesLE (u.rd R.FAB_NODE.ACT) 2 ++ zeros 10) false [] none).2.spfBusy)) ∧
    (s.fab.dirtyAt = none ∨ s.fab.computing ≠ none ∨ s.running .fab = false → exec .routeComputeStart s = .next s) ∧
    (∀ r, s.fab.computing = some r →
      exec .routeComputeComplete s = .next ((({ s with fab := { s.fab with computing := none } } : State).spfBusy).installRoutes r)) ∧
    (s.fab.computing = none → exec .routeComputeComplete s = .next s)

/-- QUENCH_RECEIVED, QUENCH_RESEND, QUENCH_RULE_EXPIRY, PREEMPT_VERIFY_COMPLETE and MBX_SEND (R181, R192 to R194, R201). A QUENCH
from a fabric port that takes frames goes to the switch, which a rule or a policer may stop; at the internal port an authorised
one goes to the gate, the module's own is issued and repeated; while the fabric cannot send nothing is taken. The oldest repeat
is sent at its instant and comes again 10 ms later until none is left. A rule goes at the end of its LIFETIME. A verified
exchange shows in PREEMPT_ACT, a failed one clears it, raises PREEMPTOFF and is recorded; without its conditions the command
does nothing. A mailbox frame of a wrong length or type ends with RESULT 2, and so does a QUENCH that its header or payload does
not allow, which counts BADHDR; one without a route counts NOROUTE and ends with RESULT 1, as does every frame while the fabric
cannot send (the model's choice, notes/assumptions/158); every other is sent, with RESULT 0. -/
def Obligations.quench_and_preemption : Prop :=
  ∀ (s : State),
    (∀ (p : Nat) (f : Leat), p < 5 → s.canSend = false → exec (.quenchReceived p f) s = .next s) ∧
    (∀ (f g : Leat), s.canSend = true → g = { f with typ := tyQuench } →
      (f.auth = true → exec (.quenchReceived 4 f) s = .next (s.toInbox g)) ∧
      (f.auth = false → exec (.quenchReceived 4 f) s = .next (s.quenchIssue g))) ∧
    (∀ (p : Nat) (f g : Leat), p < 4 → s.canSend = true → g = { f with typ := tyQuench } →
      (s.takesFrames p = true → exec (.quenchReceived p f) s = .next (s.switch p g)) ∧
      (s.takesFrames p = false → exec (.quenchReceived p f) s = .next s)) ∧
    (∀ (p : Nat) (g : Leat), g.typ = tyQuench →
      (∀ r, s.ruleHit p g = some r → s.switch p g = s.quenched p r) ∧
      (s.ruleHit p g = none → s.ctlPolice p p g = none → s.switch p g = s.bump (R.FAB_P_CNT_CTLPOL.COUNT p)) ∧
      ∀ u, s.ruleHit p g = none → s.ctlPolice p p g = some u →
        (g.auth = false → s.switch p g = u.quenchHop p g) ∧
        (g.auth = true → headerOk g = true → s.switch p g = u.toInbox g) ∧
        (g.auth = true → headerOk g = false → s.switch p g = u.bump R.FAB_CNT_BADHDR.COUNT)) ∧
    (s.fab.resend = [] → exec .quenchResend s = .next s) ∧
    (∀ x rest (u : State), s.fab.resend = x :: rest →
      u = { s.advance x.at_ with fab := { (s.advance x.at_).fab with
        resend := rest ++ (if x.left ≤ 1 then [] else [{ x with left := x.left - 1, at_ := (s.advance x.at_).now + 10 * ms }]) } } →
      exec .quenchResend s = .next (if u.canSend = true then u.quenchHop 4 (u.stamped x.frame) else u)) ∧
    (∀ k, k < 160 → (s.rule (k / 32) (k % 32)).valid = true →
      exec (.quenchRuleExpiry k) s = .next ((s.advance (s.rule (k / 32) (k % 32)).until_).setRule (k / 32) (k % 32) {})) ∧
    (∀ k, k < 160 → (s.rule (k / 32) (k % 32)).valid = false → exec (.quenchRuleExpiry k) s = .next s) ∧
    (∀ p, p < 4 → s.portLive p = true → s.on (R.FAB_P_CTRL.PREEMPT_EN p) = true → (s.port p).peerKnown = true → (s.port p).peerCaps % 2 = 1 → s.udp p = false →
      (∃ t, exec (.preemptVerifyComplete p true) s = .next t ∧ t.rd (R.FAB_P_STAT.PREEMPT_ACT p) = 1 ∧ (t.port p).verified = true ∧ t.mem = s.mem ∧
        ∀ a, a ≠ (R.FAB_P_STAT.PREEMPT_ACT p).addr → t.reg a = s.reg a) ∧
      exec (.preemptVerifyComplete p false) s =
        .next ((((s.setPort p { s.port p with verified := false }).clear (R.FAB_P_STAT.PREEMPT_ACT p)).raise R.FAB_INTSTAT.PREEMPTOFF).event 0x050E (unit := p))) ∧
    (∀ p b, p < 4 → s.portLive p = false ∨ s.on (R.FAB_P_CTRL.PREEMPT_EN p) = false ∨ s.udp p = true ∨ (s.port p).peerKnown = false ∨
      (s.port p).peerCaps % 2 = 0 → exec (.preemptVerifyComplete p b) s = .next s) ∧
    (∀ (n : Nat) (u : State) (f : Leat), u = s.wr R.FAB_MBX_TX.LEN n → f = u.stamped (u.mbxFrame n) →
      n < 28 ∨ 1188 < n ∨ (f.typ ≠ tyQuench ∧ f.typ ≠ tyMbx) →
      ∃ t, exec (.mbxSend n) s = .next t ∧ t.rd R.FAB_MBX_TX.RESULT = 2 ∧ t.mem = s.mem ∧ ∀ a, a ≠ R.FAB_MBX_TX.addr → t.reg a = s.reg a) ∧
    (∀ (n : Nat) (u : State) (f : Leat), u = s.wr R.FAB_MBX_TX.LEN n → f = u.stamped (u.mbxFrame n) → 28 ≤ n → n ≤ 1188 →
      f.typ = tyQuench ∨ f.typ = tyMbx →
      (u.canSend = false → exec (.mbxSend n) s = .next (u.wr R.FAB_MBX_TX.RESULT 1)) ∧
      (u.canSend = true → f.typ = tyMbx → f.dst ≠ 0 → f.dst = 4095 ∨ u.routePort f.dst ≠ portNone →
        exec (.mbxSend n) s = .next (((u.tookSeq f).txIn f none).2.wr R.FAB_MBX_TX.RESULT 0)) ∧
      (u.canSend = true → f.typ = tyMbx → f.dst = 0 ∨ (f.dst ≠ 4095 ∧ u.routePort f.dst = portNone) →
        exec (.mbxSend n) s = .next ((u.bump R.FAB_CNT_NOROUTE.COUNT).wr R.FAB_MBX_TX.RESULT 1)) ∧
      (u.canSend = true → f.typ = tyQuench → (if f.auth = true then headerOk f else quenchOk f) = false →
        exec (.mbxSend n) s = .next ((u.bump R.FAB_CNT_BADHDR.COUNT).wr R.FAB_MBX_TX.RESULT 2)) ∧
      (u.canSend = true → f.typ = tyQuench → f.auth = true → headerOk f = true →
        exec (.mbxSend n) s = .next ((u.toInbox f).wr R.FAB_MBX_TX.RESULT 0)) ∧
      (u.canSend = true → f.typ = tyQuench → f.auth = false → quenchOk f = true → f.dst = 0 ∨ f.dst = 4095 ∨ u.routePort f.dst = portNone →
        exec (.mbxSend n) s = .next ((u.bump R.FAB_CNT_NOROUTE.COUNT).wr R.FAB_MBX_TX.RESULT 1)) ∧
      (u.canSend = true → f.typ = tyQuench → f.auth = false → quenchOk f = true → f.dst ≠ 0 → f.dst ≠ 4095 → u.routePort f.dst ≠ portNone →
        exec (.mbxSend n) s = .next ((u.quenchIssue f).wr R.FAB_MBX_TX.RESULT 0)))

/-- PTP_MESSAGE_RECEIVED, PTP_TX_TIMER and PTP_ANNOUNCE_TIMEOUT (R198, R199). A message at a port without fabric time, or of another
domain, changes nothing. An Announce of this clock or from 255 steps changes nothing; any other is kept for its port and the
master decided anew. At the slave port of a followed master a Sync sets the path and, once a Delay_Resp has told the other half,
the offset is taken; elsewhere both change nothing. A Delay_Req at a master port is answered and put on the wire, at another
port not. Each 62.5 ms a slave port sends Delay_Req, a master port Sync and with each sixteenth Announce, a passive or listening
one nothing. 3 s without an Announce of the followed master the state is HOLDOVER, HOLDOVER is raised and recorded with its
port, and the master decided anew; without a master nothing happens. -/
def Obligations.fabric_time : Prop :=
  ∀ (s : State),
    (∀ (p d : Nat) (m : PtpMsg), p < 4 → s.ptpPort p = false ∨ d ≠ s.rd R.FAB_PTP_CFG.DOMAIN → exec (.ptpMessageReceived p ⟨d, m⟩) s = .next s) ∧
    (∀ (p d : Nat) (a : PtpAnnounce), p < 4 → s.ptpPort p = true → d = s.rd R.FAB_PTP_CFG.DOMAIN →
      (a.gm = s.ownMac ∨ 255 ≤ a.steps → exec (.ptpMessageReceived p ⟨d, .announce a⟩) s = .next s) ∧
      (a.gm ≠ s.ownMac → a.steps < 255 → exec (.ptpMessageReceived p ⟨d, .announce a⟩) s = .next (s.setForeign p (some a)).ptpDecide)) ∧
    (∀ p d o i r, p < 4 → s.rd R.FAB_PTP_STAT.SLAVE ≠ p ∨ s.fab.ptp.best = none →
      exec (.ptpMessageReceived p ⟨d, .sync o i⟩) s = .next s ∧ exec (.ptpMessageReceived p ⟨d, .delayResp r⟩) s = .next s) ∧
    (∀ (p d o i : Nat) (e : Int) (u : State), p < 4 → s.ptpPort p = true → d = s.rd R.FAB_PTP_CFG.DOMAIN → s.rd R.FAB_PTP_STAT.SLAVE = p →
      s.fab.ptp.best.isSome = true → e = (i : Int) - s.rd (R.FAB_P_PTPDLY.RXDLY p) - o →
      u = s.setPtp { s.fab.ptp with toSlave := e, syncAt := some s.now } →
      (s.fab.ptp.toMaster = none → exec (.ptpMessageReceived p ⟨d, .sync o i⟩) s = .next u) ∧
      (∀ m, s.fab.ptp.toMaster = some m →
        exec (.ptpMessageReceived p ⟨d, .sync o i⟩) s = .next (u.ptpOffset ((e - m) / 2) (u.now - s.fab.ptp.syncAt.getD s.now)))) ∧
    (∀ (p d r : Nat), p < 4 → s.ptpPort p = true → d = s.rd R.FAB_PTP_CFG.DOMAIN → s.rd R.FAB_PTP_STAT.SLAVE = p → s.fab.ptp.best.isSome = true →
      (s.fab.ptp.t3 = none → exec (.ptpMessageReceived p ⟨d, .delayResp r⟩) s = .next s) ∧
      (∀ t3, s.fab.ptp.t3 = some t3 → exec (.ptpMessageReceived p ⟨d, .delayResp r⟩) s =
        .next (s.setPtp { s.fab.ptp with toMaster := some ((r : Int) - t3), t3 := none }))) ∧
    (∀ p d i, p < 4 → s.ptpPort p = true → d = s.rd R.FAB_PTP_CFG.DOMAIN →
      (s.ptpRole p = .master → exec (.ptpMessageReceived p ⟨d, .delayReq i⟩) s = .next (s.ptpPut p [.delayResp (i - s.rd (R.FAB_P_PTPDLY.RXDLY p))])) ∧
      (s.ptpRole p ≠ .master → exec (.ptpMessageReceived p ⟨d, .delayReq i⟩) s = .next s)) ∧
    (∀ p, p < 4 → s.ptpPort p = false → exec (.ptpTxTimer p) s = .next s) ∧
    (∀ (p n tx : Nat) (t u : State), p < 4 → s.ptpPort p = true → t = s.advance (s.port p).ptpTxAt →
      n = SMap.get (fun _ => 0) t.fab.ptp.intervals p →
      u = (t.setPort p { t.port p with ptpTxAt := t.now + 62500 * us }).setPtp
        { t.fab.ptp with intervals := SMap.set (fun _ => 0) t.fab.ptp.intervals p (n + 1) } →
      tx = u.rd (R.FAB_P_PTPDLY.TXDLY p) →
      (u.ptpRole p = .slave → exec (.ptpTxTimer p) s =
        .next ((u.setPtp { u.fab.ptp with t3 := some (u.mtNs + tx) }).ptpPut p [.delayReq (u.mtNs + tx)])) ∧
      (u.ptpRole p = .master → exec (.ptpTxTimer p) s =
        .next (u.ptpPut p (.sync (u.mtNs + tx) 0 :: (if n % 16 = 0 then [.announce (u.ptpSelf p)] else [])))) ∧
      (u.ptpRole p = .passive ∨ u.ptpRole p = .listening → exec (.ptpTxTimer p) s = .next u)) ∧
    (∀ (b : PtpAnnounce) (i p : Nat) (u : State), s.fab.ptp.best = some b → p = s.rd R.FAB_PTP_STAT.SLAVE → (s.port p).annAt = some i →
      u = (s.advance (i + 3 * sec)).setForeign p none →
      exec .ptpAnnounceTimeout s = .next (((u.wr R.FAB_PTP_STAT.STATE ptpHoldover).raise R.FAB_INTSTAT.HOLDOVER).event 0x050D (unit := p)).ptpDecide) ∧
    (s.fab.ptp.best = none ∨ (s.port (s.rd R.FAB_PTP_STAT.SLAVE)).annAt = none → exec .ptpAnnounceTimeout s = .next s)

/-- Every frame command of the gate, each judged by what the frame holds, whichever of the ten commands brings it (Table 6-1, R212,
R215, R217, R225, R227, R230). Outside RUN a frame is taken and nothing else happens; one in the clear that is no OPEN and no
ABANDON counts BADREQ; one without a session is refused NOSESS; one whose use the key engine does not let through, or that does
not open under its key, goes no further; one of a PENDING session that is no CONFIRM is refused NOSESS, a CONFIRM of a wrong
form BADREQ; a request of an EXPIRED session is refused EXPIRED, one above its rate is counted and refused RATE, a malformed one
counts BADREQ and is refused, one without its right is refused RIGHT. -/
def Obligations.gate_frames_turned_away : Prop :=
  ∀ (s : State) (f : Leat),
    (∀ u : State, u = s.takeInbox f.typ f.src f.payload → u.running .gate = false →
      ∀ c ∈ [Instr.openReceived f, .confirmReceived f, .abandonReceived f, .sessionRead f, .sessionWrite f, .sessionSub f, .sessionUnsub f,
        .sessionForce f, .sessionClose f, .evread f], exec c s = .next u) ∧
    (∀ u : State, u = s.takeInbox f.typ f.src f.payload → u.running .gate = true → f.auth = false →
      f.typ ≠ tySession ∨ f.lane ≠ laneControl ∨
        ¬ ((numAt f.payload 0 2 = 0x101 ∧ f.payload.length = 104) ∨ (numAt f.payload 0 2 = 0x105 ∧ f.payload.length = 40)) →
      ∀ c ∈ [Instr.openReceived f, .confirmReceived f, .abandonReceived f, .sessionRead f, .sessionWrite f, .sessionSub f, .sessionUnsub f,
        .sessionForce f, .sessionClose f, .evread f], exec c s = .next (u.bump R.GATE_CNT_BADREQ.COUNT)) ∧
    (∀ u : State, u = s.takeInbox f.typ f.src f.payload → u.running .gate = true → f.auth = true → u.sessionOf f = none →
      ∀ c ∈ [Instr.openReceived f, .confirmReceived f, .abandonReceived f, .sessionRead f, .sessionWrite f, .sessionSub f, .sessionUnsub f,
        .sessionForce f, .sessionClose f, .evread f], exec c s = .next (u.refuseNosess f)) ∧
    (∀ (k : Nat) (u v : State), u = s.takeInbox f.typ f.src f.payload → u.running .gate = true → f.auth = true → u.sessionOf f = some k →
      u.askUse k (.openIn f) = (false, v) → ∀ c ∈ [Instr.openReceived f, .confirmReceived f, .abandonReceived f, .sessionRead f, .sessionWrite f, .sessionSub f, .sessionUnsub f,
        .sessionForce f, .sessionClose f, .evread f], exec c s = .next v) ∧
    (∀ (k : Nat) (u v w : State), u = s.takeInbox f.typ f.src f.payload → u.running .gate = true → f.auth = true → u.sessionOf f = some k →
      u.askUse k (.openIn f) = (true, v) → v.openFrame k f = (none, w) → ∀ c ∈ [Instr.openReceived f, .confirmReceived f, .abandonReceived f, .sessionRead f, .sessionWrite f, .sessionSub f, .sessionUnsub f,
        .sessionForce f, .sessionClose f, .evread f], exec c s = .next w) ∧
    (∀ (k : Nat) (u v w : State) (pt : List Byte), u = s.takeInbox f.typ f.src f.payload → u.running .gate = true → f.auth = true →
      u.sessionOf f = some k → u.askUse k (.openIn f) = (true, v) → v.openFrame k f = (some pt, w) → (w.sess k).state = sPending →
      (numAt pt 0 1 ≠ 3 → ∀ c ∈ [Instr.openReceived f, .confirmReceived f, .abandonReceived f, .sessionRead f, .sessionWrite f, .sessionSub f, .sessionUnsub f,
        .sessionForce f, .sessionClose f, .evread f], exec c s = .next (w.refuseNosess f)) ∧
      (numAt pt 0 1 = 3 → pt.length ≠ 4 ∨ numAt pt 0 2 ≠ 0x103 ∨ f.lane ≠ laneControl ∨ f.typ ≠ tySession →
        ∀ c ∈ [Instr.openReceived f, .confirmReceived f, .abandonReceived f, .sessionRead f, .sessionWrite f, .sessionSub f, .sessionUnsub f,
        .sessionForce f, .sessionClose f, .evread f], exec c s =
          .next ((w.bump R.GATE_CNT_BADREQ.COUNT).sendRefuse k f.typ f.lane (numAt pt 2 2) gcBadreq))) ∧
    (∀ (k : Nat) (u v w : State) (pt : List Byte), u = s.takeInbox f.typ f.src f.payload → u.running .gate = true → f.auth = true →
      u.sessionOf f = some k → u.askUse k (.openIn f) = (true, v) → v.openFrame k f = (some pt, w) → (w.sess k).state = sExpired →
      ∀ c ∈ [Instr.openReceived f, .confirmReceived f, .abandonReceived f, .sessionRead f, .sessionWrite f, .sessionSub f, .sessionUnsub f,
        .sessionForce f, .sessionClose f, .evread f], exec c s =
        .next ((w.setSess k { (w.sess k).accept f.seq with lastReq := (w.sess k).lastReq }).sendRefuse k f.typ f.lane (numAt pt 2 2) gcExpired)) ∧
    (∀ (k : Nat) (u v w x : State) (pt : List Byte), u = s.takeInbox f.typ f.src f.payload → u.running .gate = true → f.auth = true →
      u.sessionOf f = some k → u.askUse k (.openIn f) = (true, v) → v.openFrame k f = (some pt, w) → (w.sess k).state = sOpen →
      x = w.setSess k { (w.sess k).accept f.seq with lastReq := w.now } → ∀ c ∈ [Instr.openReceived f, .confirmReceived f, .abandonReceived f, .sessionRead f, .sessionWrite f, .sessionSub f, .sessionUnsub f,
        .sessionForce f, .sessionClose f, .evread f],
      (∀ y, x.charge k (f.len + 64) = (false, y) → exec c s = .next (y.rateRefused k f (numAt pt 2 2))) ∧
      (∀ y, x.charge k (f.len + 64) = (true, y) → requestOf f.typ f.lane pt = .bad →
        exec c s = .next ((y.bump R.GATE_CNT_BADREQ.COUNT).sendRefuse k f.typ f.lane (numAt pt 2 2) gcBadreq)) ∧
      (∀ y b, x.charge k (f.len + 64) = (true, y) → requestOf f.typ f.lane pt ≠ .bad → (requestOf f.typ f.lane pt).right = some b →
        (y.sess k).rights.testBit b = false → exec c s = .next (y.sendRefuse k f.typ f.lane (numAt pt 2 2) gcRight)))

/-- OPEN_RECEIVED, CONFIRM_RECEIVED, ABANDON_RECEIVED, SESSION_READ, SESSION_WRITE, SESSION_SUB, SESSION_UNSUB, SESSION_FORCE,
SESSION_CLOSE, EVREAD, AUTH_QUENCH_RECEIVED and ASSIST_RESULT_RECEIVED (R38, R204, R214 to R224, R230, R447), in RUN. An OPEN is
refused by a standby; else, charged to the open rate and under the tenant root, a good TAG and room in the tenant's quota give
it a free slot and its OPENACK. An ABANDON whose TAG holds and that names its session frees the slot. A CONFIRM opens its
pending session with a full bucket. A request of an OPEN session that opens, is in its rate and has its right is served,
whichever command carries it: items run in turn under the masks read now, UNSUB removes its subscriptions, FORCE gives its code,
CLOSE frees the slot with its reply, EVREAD answers the scan. An authorised QUENCH goes on to its check under the session,
outside RUN no further; a remote host's assist result is taken from the OPEN session that serves the block with the ASSIST right
alone, and refused RIGHT otherwise. -/
def Obligations.gate_requests : Prop :=
  ∀ (s : State) (f : Leat),
    (∀ u : State, u = s.takeInbox f.typ f.src f.payload → u.running .gate = true → f.auth = false → f.typ = tySession → f.lane = laneControl →
      ∀ c ∈ [Instr.openReceived f, .confirmReceived f, .abandonReceived f, .sessionRead f, .sessionWrite f, .sessionSub f, .sessionUnsub f,
        .sessionForce f, .sessionClose f, .evread f],
      (numAt f.payload 0 2 = 0x101 → f.payload.length = 104 → exec c s = .next (u.openIn f)) ∧
      (numAt f.payload 0 2 = 0x105 → f.payload.length = 40 → exec c s = .next (u.abandonIn f))) ∧
    (∀ t, t = numAt f.payload 2 1 →
      (s.rd R.PAIR_STAT.ROLE = roleStandby → s.openIn f = s.refuseRaw f gcStandby t) ∧
      (∀ u, s.rd R.PAIR_STAT.ROLE ≠ roleStandby → s.openCharge = (false, u) → s.openIn f = u) ∧
      (∀ (u v w : State) (ten : Tenant) (kt : List Byte) (k : Nat), s.rd R.PAIR_STAT.ROLE ≠ roleStandby → s.openCharge = (true, u) →
        u.tenantUse = (.ok, v) → v.tenant t = (ten, w) → kt = w.tenantKey t ten.gen →
        (openTag kt f (f.payload.take 88) ≠ f.payload.drop 88 → s.openIn f = (w.bump R.GATE_CNT_BADTAG.COUNT).raise R.GATE_INTSTAT.BADTAG) ∧
        (openTag kt f (f.payload.take 88) = f.payload.drop 88 →
          (w.gate.sessions.filter fun (_, x) => x.tenant == t && (x.state == sPending || x.state == sOpen)).length < ten.maxsess →
          w.newSlot = some k → s.openIn f = w.openAck f t ten kt k))) ∧
    (∀ (t k : Nat) (u v w : State) (ten : Tenant), t = numAt f.payload 2 1 → k = numAt f.payload 4 4 % 512 → s.openCharge = (true, u) →
      u.tenantUse = (.ok, v) → v.tenant t = (ten, w) →
      openTag (w.tenantKey t ten.gen) f (f.payload.take 24) = f.payload.drop 24 →
      (w.sess k).state = sPending ∨ (w.sess k).state = sOpen → (w.sess k).sid = numAt f.payload 4 4 → (w.sess k).node = f.src →
      (w.sess k).tenant = t → (w.sess k).nc.toNat = natBE ((f.payload.drop 8).take 16) → s.abandonIn f = w.freeSess k) ∧
    (∀ (k : Nat) (u v w : State) (pt : List Byte) (x : Session), u = s.takeInbox f.typ f.src f.payload → u.running .gate = true → f.auth = true →
      u.sessionOf f = some k → u.askUse k (.openIn f) = (true, v) → v.openFrame k f = (some pt, w) → (w.sess k).state = sPending →
      pt.length = 4 → numAt pt 0 2 = 0x103 → f.lane = laneControl → f.typ = tySession → x = (w.sess k).accept f.seq →
      ∀ c ∈ [Instr.openReceived f, .confirmReceived f, .abandonReceived f, .sessionRead f, .sessionWrite f, .sessionSub f, .sessionUnsub f,
        .sessionForce f, .sessionClose f, .evread f],
      exec c s = .next (((w.setSess k { x with
        state := sOpen, since := w.now, openedAt := w.now, lastReq := w.now,
        bucket := { tokens := w.num (w.tenantAddr x.tenant + 24) 4 * 1000000, at_ := w.now } }).bump R.GATE_CNT_ACCEPT.COUNT).sendReply k
          f.typ f.lane (numAt pt 2 2) gcOk)) ∧
    (∀ (k : Nat) (u v w x y : State) (pt : List Byte) (m : List Nat), u = s.takeInbox f.typ f.src f.payload → u.running .gate = true →
      f.auth = true → u.sessionOf f = some k → u.askUse k (.openIn f) = (true, v) → v.openFrame k f = (some pt, w) → (w.sess k).state = sOpen →
      x = w.setSess k { (w.sess k).accept f.seq with lastReq := w.now } → x.charge k (f.len + 64) = (true, y) →
      m = y.masksOf (y.sess k).tenant →
      ∀ c ∈ [Instr.openReceived f, .confirmReceived f, .abandonReceived f, .sessionRead f, .sessionWrite f, .sessionSub f, .sessionUnsub f,
        .sessionForce f, .sessionClose f, .evread f],
      (∀ its, requestOf f.typ f.lane pt = .items .read rtRead its → (y.sess k).rights.testBit rtRead = true → exec c s =
        .next (y.runJob { slot := k, typ := f.typ, lane := f.lane, reqid := numAt pt 2 2, what := .read, masks := m, todo := [] } false its)) ∧
      (∀ its, requestOf f.typ f.lane pt = .items .write rtWrite its → (y.sess k).rights.testBit rtWrite = true → exec c s =
        .next (y.runJob { slot := k, typ := f.typ, lane := f.lane, reqid := numAt pt 2 2, what := .write, masks := m, todo := [] } false its)) ∧
      (∀ per its, requestOf f.typ f.lane pt = .items (.sub per) rtSub its → (y.sess k).rights.testBit rtSub = true → exec c s =
        .next (y.runJob { slot := k, typ := f.typ, lane := f.lane, reqid := numAt pt 2 2, what := .sub per, masks := m, todo := [] } false its)) ∧
      (∀ ids, requestOf f.typ f.lane pt = .unsub ids → (y.sess k).rights.testBit rtSub = true → exec c s =
        .next ((State.bump { y with gate := { y.gate with subs := y.gate.subs.filter fun e => !(e.slot == k && ids.contains e.id) } }
          R.GATE_CNT_ACCEPT.COUNT).sendSess k f.typ f.lane (itemsBody 21 (numAt pt 2 2) false (ids.map (codeItem · gcOk))))) ∧
      (∀ op key v, requestOf f.typ f.lane pt = .force op key v → (y.sess k).rights.testBit rtForce = true → exec c s =
        .next ((if (y.gateForce op key v).1 = gcOk then (y.gateForce op key v).2.bump R.GATE_CNT_ACCEPT.COUNT else (y.gateForce op key v).2.refuses).sendReply
          k f.typ f.lane (numAt pt 2 2) (y.gateForce op key v).1)) ∧
      (requestOf f.typ f.lane pt = .close → exec c s =
        .next ((y.bump R.GATE_CNT_ACCEPT.COUNT).sendReply k f.typ f.lane (numAt pt 2 2) gcOk true)) ∧
      (∀ a n, requestOf f.typ f.lane pt = .evread a n → (y.sess k).rights.testBit rtEvent = true → exec c s =
        .next ((y.bump R.GATE_CNT_ACCEPT.COUNT).sendSess k f.typ f.lane (y.evData (y.sess k).tenant (numAt pt 2 2) a n)))) ∧
    (∀ (p : Nat) (u : State), p < 5 → u = s.takeInbox f.typ f.src f.payload →
      (u.running .gate = false → exec (.authQuenchReceived p f) s = .next u) ∧
      (u.running .gate = true → f.auth = false ∨ f.payload.length ≠ 36 → exec (.authQuenchReceived p f) s = .next (u.bump R.GATE_CNT_BADREQ.COUNT)) ∧
      (u.running .gate = true → f.auth = true → f.payload.length = 36 → u.sessionOf f = none → exec (.authQuenchReceived p f) s = .next (u.refuseNosess f)) ∧
      ∀ k v, u.running .gate = true → f.auth = true → f.payload.length = 36 → u.sessionOf f = some k → u.askUse k (.quench p f) = (true, v) →
        exec (.authQuenchReceived p f) s = .next (v.quenchOpened p k f)) ∧
    (∀ (k : Nat) (u v : State), u = s.takeInbox f.typ f.src f.payload → (u.running .gate = false → exec (.assistResultReceived f) s = .next u) ∧
      (u.running .gate = true → f.auth = false ∨ f.typ ≠ tyAssistResult → exec (.assistResultReceived f) s = .next (u.bump R.GATE_CNT_BADREQ.COUNT)) ∧
      (u.running .gate = true → f.auth = true → f.typ = tyAssistResult → u.sessionOf f = none → exec (.assistResultReceived f) s = .next (u.refuseNosess f)) ∧
      (u.running .gate = true → f.auth = true → f.typ = tyAssistResult → u.sessionOf f = some k → u.askUse k (.openIn f) = (false, v) →
        exec (.assistResultReceived f) s = .next v) ∧
      (∀ (w y : State) (pt : List Byte) (b : AsnBlock) (x : Session), u.running .gate = true → f.auth = true → f.typ = tyAssistResult → u.sessionOf f = some k →
        u.askUse k (.openIn f) = (true, v) → v.openFrame k f = (some pt, w) → x = w.sess k → x.state = sOpen → remoteBlock (numAt pt 0 1) = some b →
        y = w.setSess k { x.accept f.seq with lastReq := w.now } →
        (y.rd b.SRV_KIND = 2 → x.rights.testBit rtAssist = true → y.assistSession b = some k → exec (.assistResultReceived f) s = .next (y.assistResult b pt fun s _ _ => s)) ∧
        (y.rd b.SRV_KIND ≠ 2 ∨ x.rights.testBit rtAssist = false ∨ y.assistSession b ≠ some k →
          exec (.assistResultReceived f) s = .next (y.sendRefuse k f.typ f.lane 0 gcRight))))

/-- PENDING_TIMEOUT, SUB_PERIOD_PUSH, SESSION_IDLE_EXPIRY, SESSION_LIFETIME_EXPIRY, EXPIRED_SLOT_FREE, TENANT_REVOKE,
TENANT_CLOSEALL and SLOT_CLOSE (R214, R221, R227, R228). A session PENDING for 2 s and one EXPIRED for 10 s free their slot; an
OPEN one expires after IDLE_S without a request and LIFE_MIN after it opened: it is EXPIRED from then on and its subscriptions
end; each does nothing in another state. The subscriptions of an OPEN session that are due are pushed together, their next
instant PER later; without one, outside RUN or in another state nothing is pushed. REVOKE counts the tenant's GEN up and closes
its sessions, CLOSEALL closes them, and either shows its tenant and operation and ends with GO clear and TCMDDONE. SLOT_CLOSE
frees the slot named, waits for requests that have started, and does nothing to a free slot. -/
def Obligations.gate_timers_and_commands : Prop :=
  ∀ (s : State),
    (∀ k, k < 512 → (s.sess k).state = sPending → exec (.pendingTimeout k) s = .next ((s.advance ((s.sess k).since + 2 * sec)).freeSess k)) ∧
    (∀ k, k < 512 → (s.sess k).state ≠ sPending → exec (.pendingTimeout k) s = .next s) ∧
    (∀ (k : Nat) (u : State), k < 512 → (s.sess k).state = sOpen →
      (u = s.advance ((s.sess k).lastReq + sec * (s.sess k).idleS) → exec (.sessionIdleExpiry k) s = .next (u.expire k)) ∧
      (u = s.advance ((s.sess k).openedAt + 60 * sec * (s.sess k).lifeMin) → exec (.sessionLifetimeExpiry k) s = .next (u.expire k))) ∧
    (∀ k, k < 512 → (s.sess k).state ≠ sOpen → exec (.sessionIdleExpiry k) s = .next s ∧ exec (.sessionLifetimeExpiry k) s = .next s) ∧
    (∀ k, ((s.expire k).sess k).state = sExpired ∧ ((s.expire k).sess k).since = s.now ∧ (s.expire k).gate.subs = s.gate.subs.filter (·.slot != k)) ∧
    (∀ k, k < 512 → (s.sess k).state = sExpired → exec (.expiredSlotFree k) s = .next ((s.advance ((s.sess k).since + 10 * sec)).freeSess k)) ∧
    (∀ k, k < 512 → (s.sess k).state ≠ sExpired → exec (.expiredSlotFree k) s = .next s) ∧
    (∀ t, t < 256 → ∃ u v : State, exec (.tenantRevoke t) s = .next v ∧
      u = (s.writeNum mEngine (s.tenantAddr t + 4) 2 (s.fetchNum mEngine (s.tenantAddr t + 4) 2 + 1)).closeTenant t ∧
      v.rd R.GATE_TCMD.TENANT = t ∧ v.rd R.GATE_TCMD.OP = 1 ∧ v.rd R.GATE_TCMD.GO = 0 ∧ v.rd R.GATE_INTSTAT.TCMDDONE = 1 ∧ v.mem = u.mem ∧ v.gate = u.gate ∧
      ∀ a, a ≠ R.GATE_TCMD.addr → a ≠ R.GATE_INTSTAT.addr → v.reg a = u.reg a) ∧
    (∀ t, t < 256 → exec (.tenantCloseall t) s = .next ((s.closeTenant t).tcmdDone t 2)) ∧
    (∀ k, k = s.rd R.GATE_SADDR.SLOT →
      ((s.sess k).state = sFree → exec .slotClose s = .next s) ∧
      ((s.sess k).state ≠ sFree → s.gate.waits.any (·.slot == k) = true → exec .slotClose s = .next (s.setSess k { s.sess k with closing := true })) ∧
      ((s.sess k).state ≠ sFree → s.gate.waits.any (·.slot == k) = false → exec .slotClose s = .next (s.freeSess k))) ∧
    (∀ k, k < 512 → s.running .gate = false ∨ (s.sess k).state ≠ sOpen → exec (.subPeriodPush k) s = .next s) ∧
    (∀ (k d : Nat) (ds : List Nat) (u : State), k < 512 → s.running .gate = true → (s.sess k).state = sOpen →
      (s.gate.subs.filter (·.slot == k)).map (·.due) = d :: ds → u = s.advance (ds.foldl min d) →
      exec (.subPeriodPush k) s = .next (State.runJob
        { u with gate := { u.gate with subs := u.gate.subs.map fun e => if e.slot == k && e.due ≤ u.now then { e with due := e.due + 10 * ms * e.per } else e } }
        { slot := k, typ := tySession, lane := laneEvent, reqid := 0, what := .push, masks := u.masksOf (u.sess k).tenant, todo := [] } false
        (((u.gate.subs.filter fun e => e.slot == k && e.due ≤ u.now).map (·.id)).map (bytesLE · 4))))

/-- LOOP_DUE, LOOP_EVALUATION, GROUP_EVALUATION and LOOP_MDATA_WRITE (R235, R242 to R248): a loop that is OFF or in a group does not
fall due by itself; one that falls due is queued by instant, its next instant a period later; under a hold a due instant counts
a deferral; the entry at the front of the queue is evaluated; an instant that falls due while the last evaluation still waits
counts a miss for each member; a write of the loop memory that R235 admits is made, one that it excludes raises WRREJ, and
LOOP_MADDR advances in every case. An evaluation may also end a pair handover's hold (R559). -/
def Obligations.loop_commands : Prop :=
  ∀ (s : State),
    (∀ n, n < 256 → s.loopMode n = lmOff ∨ (s.groupOf n).isSome = true → exec (.loopDue false n) s = .next s) ∧
    (∀ (n i : Nat) (u : State), n < 256 → s.loopMode n ≠ lmOff → s.groupOf n = none →
      i = (if (s.loopX n).armed then (s.loopX n).nextDue else gridNext (s.loopPer n) (s.loopOfs n) s.mtNs) →
      u = (s.advanceMt i).setLoopX n { s.loopX n with armed := true, nextDue := i + s.loopPer n } →
      (u.running .loop = false → exec (.loopDue false n) s = .next u) ∧
      (u.running .loop = true → u.loopHeld = true → exec (.loopDue false n) s = .next (u.bump R.LOOP_CNT_DEF.COUNT)) ∧
      (u.running .loop = true → u.loopHeld = false → (s.loopX n).posted = false → (u.loop.queue.any fun e => !e.group && e.n == n) = false →
        exec (.loopDue false n) s = .next { u with loop := { u.loop with
          queue := u.insertDue { at_ := i, group := false, n := n } (u.loop.queue.filter fun e => !(e.group == false && e.n == n)) } }) ∧
      (∀ w, u.running .loop = true → u.loopHeld = false → w = u.loopMiss n → (u.loopX n).posted = true → (w.loopX n).posted = true →
        (s.loopX n).posted = true → exec (.loopDue false n) s = .next w)) ∧
    (∀ g, g < 32 → s.groupOn g = false ∨ ((s.members g).filter fun n => s.loopMode n != lmOff) = [] → exec (.loopDue true g) s = .next s) ∧
    (∀ (g i : Nat) (u : State), g < 32 → s.groupOn g = true → ((s.members g).filter fun n => s.loopMode n != lmOff) ≠ [] →
      i = (if (s.groupX g).armed then (s.groupX g).nextDue else gridNext (s.loopPer ((s.members g).headD 0)) (s.loopOfs ((s.members g).headD 0)) s.mtNs) →
      u = (s.advanceMt i).setGroupX g { s.groupX g with armed := true, nextDue := i + s.loopPer ((s.members g).headD 0) } →
      exec (.loopDue true g) s = .next (u.dueNow { at_ := i, group := true, n := g }
        (u.loop.waiting.any (·.1 == g) || u.loop.queue.any fun e => e.group && e.n == g) ((s.members g).filter fun n => s.loopMode n != lmOff))) ∧
    (∀ (d : LoopDue) (rest : List LoopDue) (u : State), s.loop.queue = d :: rest → s.loopHeld = false → s.running .loop = true →
      u = { s with loop := { s.loop with queue := rest } } →
      (d.group = false → exec .loopEvaluation s = .next (u.loopRun d.n).resumeWhenDue ∧ exec .groupEvaluation s = .next s.resumeWhenDue) ∧
      (d.group = true → exec .groupEvaluation s = .next (u.groupRun d.n).resumeWhenDue ∧ exec .loopEvaluation s = .next s.resumeWhenDue)) ∧
    (s.loop.queue = [] ∨ s.loopHeld = true ∨ s.running .loop = false →
      exec .loopEvaluation s = .next s.resumeWhenDue ∧ exec .groupEvaluation s = .next s.resumeWhenDue) ∧
    (∀ v : Word, 0x4100 ≤ s.rd R.LOOP_MADDR.WADDR →
      exec (.loopMdataWrite v) s = .next (s.wr R.LOOP_MADDR.WADDR (s.rd R.LOOP_MADDR.WADDR + 1))) ∧
    (∀ (v : Word) (n j : Nat) (u : State), n < 256 → j < 64 → s.rd R.LOOP_MADDR.WADDR = 64 * n + j →
      u = s.setLoopX n { s.loopX n with bad := (s.loopX n).bad &&& ~~~(1#64 <<< j) } →
      (j = 0 → exec (.loopMdataWrite v) s = .next ((u.loopCtrl n v).wr R.LOOP_MADDR.WADDR (64 * n + j + 1))) ∧
      ((8 ≤ j ∧ j < 32) ∨ (32 ≤ j ∧ j ≤ 35 ∧ s.loopMode n = lmOff) ∨ (1 ≤ j ∧ j < 8 ∧ s.groupOf n = none ∧ s.loopMode n = lmOff) ∨
          (1 ≤ j ∧ j < 8 ∧ s.groupOf n ≠ none ∧ s.rd UnitId.loop.STATE = stOff) →
        exec (.loopMdataWrite v) s = .next ((u.setLw n (4 * j) v).wr R.LOOP_MADDR.WADDR (64 * n + j + 1))) ∧
      (j = 40 → exec (.loopMdataWrite v) s =
        .next ((u.setLw n (4 * j) (u.lw n (4 * j) &&& ~~~(v &&& 0x700#32))).wr R.LOOP_MADDR.WADDR (64 * n + j + 1))) ∧
      ((35 < j ∧ j ≠ 40) ∨ (32 ≤ j ∧ j ≤ 35 ∧ s.loopMode n ≠ lmOff) ∨ (1 ≤ j ∧ j < 8 ∧ s.groupOf n = none ∧ s.loopMode n ≠ lmOff) ∨
          (1 ≤ j ∧ j < 8 ∧ s.groupOf n ≠ none ∧ s.rd UnitId.loop.STATE ≠ stOff) →
        exec (.loopMdataWrite v) s = .next ((u.raise R.LOOP_INTSTAT.WRREJ).wr R.LOOP_MADDR.WADDR (64 * n + j + 1)))) ∧
    (∀ (v : Word) (g j : Nat), g < 32 → j < 8 → s.rd R.LOOP_MADDR.WADDR = 0x4000 + 8 * g + j →
      (s.rd UnitId.loop.STATE ≠ stOff → s.rd R.UPD_PHASE.PHASE ≠ 5 →
        exec (.loopMdataWrite v) s = .next ((s.raise R.LOOP_INTSTAT.WRREJ).wr R.LOOP_MADDR.WADDR (0x4000 + 8 * g + j + 1))) ∧
      (s.rd UnitId.loop.STATE = stOff ∨ s.rd R.UPD_PHASE.PHASE = 5 →
        (j ≠ 2 → j ≠ 4 → j ≠ 7 → exec (.loopMdataWrite v) s = .next ((s.setGw g j v).wr R.LOOP_MADDR.WADDR (0x4000 + 8 * g + j + 1))) ∧
        (j = 2 → exec (.loopMdataWrite v) s =
          .next ((s.setGw g 2 (putField (s.gw g 2) 0 1 (getField v 0 1))).wr R.LOOP_MADDR.WADDR (0x4000 + 8 * g + j + 1))) ∧
        (j = 4 → exec (.loopMdataWrite v) s = .next ((s.raise R.LOOP_INTSTAT.WRREJ).wr R.LOOP_MADDR.WADDR (0x4000 + 8 * g + j + 1)))))

/-- SAMPLE_SET_ARRIVAL, ZC_TIMEOUT, SYNTHETIC_CROSSING, CHECKPOINT_TIMER and CHECKPOINT_COMPLETE (R270 to R273, R293, R295): outside
RUN nothing happens; a sample set every 125 us runs one round; without a crossing the zero-cross unit falls back; a synthetic
crossing comes when its sample has come; a checkpoint starts at its period and a started one is written to its slot with its
sequence number once none of its registers is BAD; one that meets a BAD register halts the writer and ends. -/
def Obligations.metering_rounds : Prop :=
  ∀ (s : State),
    (∀ m : MtrInput, s.running .mtr = false → exec (.sampleSetArrival m) s = .next s ∧ exec .zcTimeout s = .next s ∧
      exec .syntheticCrossing s = .next s ∧ exec .checkpointTimer s = .next s) ∧
    (∀ (m : MtrInput) (u : State), s.running .mtr = true → u = s.advance s.mtr.sampleAt →
      exec (.sampleSetArrival m) s = .next (State.mtrRound { u with mtr := { u.mtr with sampleAt := u.now + 125 * us } } m)) ∧
    (s.running .mtr = true → s.rd R.MTR_STAT.ZCSTATE ≠ zcFallback → exec .zcTimeout s = .next s.toFallback) ∧
    (s.rd R.MTR_STAT.ZCSTATE = zcFallback → exec .zcTimeout s = .next s) ∧
    (s.running .mtr = true → s.rd R.MTR_STAT.ZCSTATE = zcFallback → s.synthAt (s.mtr.fbCount + 1) ≤ s.mtr.fbSamples →
      exec .syntheticCrossing s = .next s.synthetic) ∧
    (s.rd R.MTR_STAT.ZCSTATE ≠ zcFallback ∨ s.mtr.fbSamples < s.synthAt (s.mtr.fbCount + 1) → exec .syntheticCrossing s = .next s) ∧
    (∀ u : State, s.running .mtr = true → u = s.advance s.mtr.ckptAt →
      exec .checkpointTimer s = .next (State.ckptStart { u with mtr := { u.mtr with ckptAt := u.now + sec * u.rd R.MTR_CKPT_CFG.CKPT_S } })) ∧
    (s.mtr.ckpt = none → exec .checkpointComplete s = .next s) ∧
    (∀ (c : MtrCkpt) (u v : State), s.mtr.ckpt = some c → u = ({ s with mtr := { s.mtr with ckpt := none } } : State).clear R.MTR_CKPT_CFG.BUSY →
      ((List.range 384).find? fun r => (SMap.get (fun _ => ({} : MtrReg)) c.regs r).bad || (u.mreg r).bad) = none →
      v = ((u.write mEngine (u.ckptAddr c.slot) (withCrc (c.bytes ((List.range 12).map s.fdrElsb) 384))).wr R.MTR_CKPT_CFG.SLOT c.slot).wr
        R.MTR_CKPT_SEQ.CSEQ c.cseq → exec .checkpointComplete s =
          .next (({ v with mtr := { v.mtr with waits := [] } } : State).each v.mtr.waits State.mtrWaited).ckptNext) ∧
    (∀ (c : MtrCkpt) (u v w : State) (r : Nat), s.mtr.ckpt = some c →
      u = ({ s with mtr := { s.mtr with ckpt := none } } : State).clear R.MTR_CKPT_CFG.BUSY →
      ((List.range 384).find? fun r => (SMap.get (fun _ => ({} : MtrReg)) c.regs r).bad || (u.mreg r).bad) = some r →
      v = ((((u.write mEngine (u.ckptAddr c.slot) (c.bytes ((List.range 12).map s.fdrElsb) r)).wr R.MTR_CKPT_FREG.REG r).raise
        R.MTR_CKPT_CFG.HALT).raise R.MTR_INTSTAT.CKPTHALT).event 0x0807 (subj := r) →
      w = (v.egressHalt 5 0 (Config.free32 v.fresh).toNat).taken → exec .checkpointComplete s =
          .next (({ w with mtr := { w.mtr with waits := [] } } : State).each w.mtr.waits State.mtrWaited).ckptNext)

/-- METER_CLEAR, METER_CKPT, METER_RESTORE, CALAPPLY and MTR_MDATA_WRITE (R13, R277, R292 to R302): a command while GO reads 1 is
ignored; one the state does not admit ends with RESULT 5, one with an argument out of range with RESULT 1; a CLEAR waits for the
next round, and a CLEAR, CKPT or RESTORE during a checkpoint for its end, GO reading 1 meanwhile; CKPT starts a checkpoint and
ends with RESULT 0; CALAPPLY while one is pending ends with RESULT 4, of a bad record with RESULT 2, else it waits for its
boundary and ends with RESULT 0; a write of an engine word that firmware may write now is made, any other raises WRREJ, and
MTR_MADDR advances in every case. -/
def Obligations.metering_commands : Prop :=
  ∀ (s : State),
    (∀ n, s.on R.MTR_CMD.GO = true → exec .meterCkpt s = .next s ∧ exec (.meterClear n) s = .next s ∧ exec (.meterRestore n) s = .next s ∧ exec (.calapply n) s = .next s) ∧
    (∀ (n : Nat) (u : State), n < 512 → s.on R.MTR_CMD.GO = false → u = (s.wr R.MTR_CMD.OP 1).wr R.MTR_CMD.ARG n →
      (u.running .mtr = false → exec (.meterClear n) s = .next (u.mtrDone 5)) ∧
      (u.running .mtr = true → n = 0 ∨ 12 < n → exec (.meterClear n) s = .next (u.mtrDone 1)) ∧
      (u.running .mtr = true → 1 ≤ n → n ≤ 12 → u.mtr.ckpt = none → exec (.meterClear n) s =
        .next (({ u with mtr := { u.mtr with clearPend := u.mtr.clearPend ++ [n - 1] } } : State).raise R.MTR_CMD.GO)) ∧
      (u.running .mtr = true → 1 ≤ n → n ≤ 12 → u.mtr.ckpt ≠ none → exec (.meterClear n) s =
        .next (({ u with mtr := { u.mtr with waits := u.mtr.waits ++ [.clear (n - 1)] } } : State).raise R.MTR_CMD.GO))) ∧
    (∀ u : State, s.on R.MTR_CMD.GO = false → u = (s.wr R.MTR_CMD.OP 2).wr R.MTR_CMD.ARG (s.rd R.MTR_CMD.ARG) →
      (u.mtrAwake = false → exec .meterCkpt s = .next (u.mtrDone 5)) ∧
      (u.mtrAwake = true → u.mtr.ckpt = none → exec .meterCkpt s = .next (u.ckptStart.mtrDone 0)) ∧
      (u.mtrAwake = true → u.mtr.ckpt ≠ none → exec .meterCkpt s =
        .next (({ u with mtr := { u.mtr with waits := u.mtr.waits ++ [.ckpt] } } : State).raise R.MTR_CMD.GO))) ∧
    (∀ (n : Nat) (u : State), n < 512 → s.on R.MTR_CMD.GO = false → u = (s.wr R.MTR_CMD.OP 3).wr R.MTR_CMD.ARG n →
      (u.mtrAwake = false → exec (.meterRestore n) s = .next (u.mtrDone 5)) ∧
      (u.mtrAwake = true → 383 < n → exec (.meterRestore n) s = .next (u.mtrDone 1)) ∧
      (u.mtrAwake = true → n ≤ 383 → u.mtr.ckpt = none → exec (.meterRestore n) s = .next (u.restoreReg n)) ∧
      (u.mtrAwake = true → n ≤ 383 → u.mtr.ckpt ≠ none → exec (.meterRestore n) s =
        .next (({ u with mtr := { u.mtr with waits := u.mtr.waits ++ [.restore n] } } : State).raise R.MTR_CMD.GO))) ∧
    (∀ (n : Nat) (u : State), n < 512 → s.on R.MTR_CMD.GO = false → u = (s.wr R.MTR_CMD.OP 4).wr R.MTR_CMD.ARG n →
      (u.running .mtr = false → exec (.calapply n) s = .next (u.mtrDone 5)) ∧
      (u.running .mtr = true → 39 < n → exec (.calapply n) s = .next (u.mtrDone 1)) ∧
      (u.running .mtr = true → n ≤ 39 → u.mtr.calPend ≠ none → exec (.calapply n) s = .next (u.mtrDone 4)) ∧
      (u.running .mtr = true → n ≤ 39 → u.mtr.calPend = none → u.badChannel 40 = true → exec (.calapply n) s = .next (u.mtrDone 2)) ∧
      (u.running .mtr = true → n ≤ 39 → u.mtr.calPend = none → u.badChannel 40 = false →
        exec (.calapply n) s = .next (({ u with mtr := { u.mtr with calPend := some n } } : State).mtrDone 0))) ∧
    (∀ v : Word, ∃ t, exec (.mtrMdataWrite v) s = .next t ∧ t.rd R.MTR_MADDR.WADDR = (s.rd R.MTR_MADDR.WADDR + 1) % 2 ^ R.MTR_MADDR.WADDR.w ∧ t.mem = s.mem ∧
      (s.mtrWritable (s.rd R.MTR_MADDR.WADDR) = true → ∀ a, a ≠ R.MTR_MADDR.addr → t.reg a = s.reg a) ∧
      (s.mtrWritable (s.rd R.MTR_MADDR.WADDR) = false → t.mtr = s.mtr ∧ t.rd R.MTR_INTSTAT.WRREJ = 1 ∧
        ∀ a, a ≠ R.MTR_MADDR.addr → a ≠ R.MTR_INTSTAT.addr → t.reg a = s.reg a))

/-- R284 and R285, for a register that is not EA_NET: its residue stays a fraction of one LSB, COUNT stays below 2^48, and COUNT
with the residue is the exact sum modulo 2^48 LSB; the WRAP count changes only where COUNT wraps or borrows; a BAD register
changes not at all. That a negative increment borrows is the model's reading. -/
def Obligations.energy_register_exact : Prop :=
  ∀ (x : MtrReg) (inc : Int),
    (x.bad = true → x.add false inc = (x, false)) ∧
    (x.bad = false → x.count < 2 ^ 48 → 0 ≤ x.resid → x.resid < 2 ^ 32 →
      (x.add false inc).1.count < 2 ^ 48 ∧ 0 ≤ (x.add false inc).1.resid ∧ (x.add false inc).1.resid < 2 ^ 32 ∧
      (((x.add false inc).1.count : Int) * 2 ^ 32 + (x.add false inc).1.resid - (x.count * 2 ^ 32 + x.resid + inc)) % 2 ^ 80 = 0 ∧
      ((x.add false inc).2 = false → (x.add false inc).1.wrap = x.wrap ∧
        ((x.add false inc).1.count : Int) * 2 ^ 32 + (x.add false inc).1.resid = x.count * 2 ^ 32 + x.resid + inc))

/-- DI_EDGE, DI_FILTER_ACCEPT, DI_FILTER_WRITE, FREQ_GATE_WINDOW_END, COUNTER_CONFIG_WRITE, COUNTER_CLEAR and COUNTER_LOAD (R305 to
R310): new levels, once in an IO cycle, become states at once where no filter works, and those of a filter that accepts in this
cycle become its states, while a filtered level that changes restarts its count; a filter accepts its level after its time; a
filter of 0 passes the level at once; a gate window ends at its instant of MT; CLEAR and LOAD write the count, before an edge
counted in the same IO cycle; a reserved MODE, GATE_MS or ZERO is discarded. -/
def Obligations.inputs_and_counters : Prop :=
  ∀ (s : State),
    (∀ (l : BitVec 32), s.dio.edgeCycle ≠ s.ioCycle → (∀ ch, ch < 32 → 8 ≤ ch → s.filterTime ch = 0) → exec (.diEdge l) s = .next
      (State.diStates { s with dio := { s.dio with raw := l, edgeCycle := s.ioCycle } } ((List.range 32).foldl (fun n ch => withBit n ch (l.getLsbD ch)) (s.rd R.DIO_DI_STATE.STATE)))) ∧
    (∀ (l : BitVec 32) (u v : State), u = (if s.dio.edgeCycle = s.ioCycle then s.advance (10 * s.ioCycle) else s) →
      v = u.each (below 32 fun ch => 8 ≤ ch && u.filterTime ch != 0 && l.getLsbD ch != u.dio.raw.getLsbD ch) (fun w ch =>
        { w with dio := { w.dio with since := SMap.set (fun _ => 0) w.dio.since ch w.now } }) →
      exec (.diEdge l) s = .next (State.diStates { v with dio := { v.dio with raw := l, edgeCycle := u.ioCycle } }
        ((List.range 32).foldl (fun n ch => if 8 ≤ ch && u.filterTime ch != 0 then n else withBit n ch (l.getLsbD ch))
          (u.filtersDue.foldl (fun n ch => withBit n ch (u.dio.raw.getLsbD ch)) (u.rd R.DIO_DI_STATE.STATE))))) ∧
    (∀ (ch : Nat) (u : State), 8 ≤ ch → ch < 32 → s.filterTime ch ≠ 0 → s.dio.raw.getLsbD ch ≠ s.di ch →
      u = s.advance (SMap.get (fun _ => 0) s.dio.since ch + s.filterTime ch) →
      exec (.diFilterAccept ch) s = .next (u.diStates (withBit (u.rd R.DIO_DI_STATE.STATE) ch (s.dio.raw.getLsbD ch)))) ∧
    (∀ ch, 8 ≤ ch → ch < 32 → s.filterTime ch = 0 ∨ s.dio.raw.getLsbD ch = s.di ch → exec (.diFilterAccept ch) s = .next s) ∧
    (∀ (ch : Nat) (v : Word) (u : State), 8 ≤ ch → ch < 32 →
      u = { (s.wr (R.DIO_FLT.FLT (ch - 8)) ((R.DIO_FLT.FLT (ch - 8)).of v)).wr (R.DIO_FLT.FUNIT (ch - 8)) ((R.DIO_FLT.FUNIT (ch - 8)).of v) with
        dio := { s.dio with since := SMap.set (fun _ => 0) s.dio.since ch s.now } } →
      (u.filterTime ch ≠ 0 → exec (.diFilterWrite ch v) s = .next u) ∧
      (u.filterTime ch = 0 → exec (.diFilterWrite ch v) s = .next (u.diStates (withBit (u.rd R.DIO_DI_STATE.STATE) ch (s.dio.raw.getLsbD ch))))) ∧
    (∀ k, k < 8 → s.rd (R.DIO_CNT_CFG.MODE k) = cntOff → exec (.freqGateWindowEnd k) s = .next s) ∧
    (∀ k, k < 8 → s.rd (R.DIO_CNT_CFG.MODE k) ≠ cntOff → exec (.freqGateWindowEnd k) s = .next ((s.advanceMt (s.gateEnd k)).freqEnd k)) ∧
    (∀ k, k < 8 → (∀ up, (s.cnt k).step ≠ some (s.ioCycle, up)) → (∃ t, exec (.counterClear k) s = .next t ∧ t.rd (R.DIO_CNT_VAL.VAL k) = 0 ∧ t.mem = s.mem ∧ t.dio = s.dio ∧
        ∀ a, a ≠ (R.DIO_CNT_VAL.VAL k).addr → t.reg a = s.reg a) ∧
      ∃ t, exec (.counterLoad k) s = .next t ∧ t.rd (R.DIO_CNT_VAL.VAL k) = s.rd (R.DIO_CNT_PRESET.PRESET k) ∧ t.mem = s.mem ∧ t.dio = s.dio ∧
        ∀ a, a ≠ (R.DIO_CNT_VAL.VAL k).addr → t.reg a = s.reg a) ∧
    (∀ (k : Nat) (up : Bool), k < 8 → (s.cnt k).step = some (s.ioCycle, up) →
      exec (.counterClear k) s = .next ((s.wr (R.DIO_CNT_VAL.VAL k) 0).countOne k up) ∧
      exec (.counterLoad k) s = .next ((s.wr (R.DIO_CNT_VAL.VAL k) (s.rd (R.DIO_CNT_PRESET.PRESET k))).countOne k up)) ∧
    (∀ (k : Nat) (v : Word) (u : State), k < 8 →
      u = ((((s.wrIf ((R.DIO_CNT_CFG.MODE k).of v < 2 || ((R.DIO_CNT_CFG.MODE k).of v == 2 && k % 2 == 0)) (R.DIO_CNT_CFG.MODE k) ((R.DIO_CNT_CFG.MODE k).of v)).wrIf
        ((R.DIO_CNT_CFG.EDGE k).of v < 3) (R.DIO_CNT_CFG.EDGE k) ((R.DIO_CNT_CFG.EDGE k).of v)).wr (R.DIO_CNT_CFG.DIR k) ((R.DIO_CNT_CFG.DIR k).of v)).wrIf
        (1 ≤ (R.DIO_CNT_CFG.GATE_MS k).of v && (R.DIO_CNT_CFG.GATE_MS k).of v ≤ 1000) (R.DIO_CNT_CFG.GATE_MS k) ((R.DIO_CNT_CFG.GATE_MS k).of v)).wrIf
        (1 ≤ (R.DIO_CNT_CFG.ZERO k).of v) (R.DIO_CNT_CFG.ZERO k) ((R.DIO_CNT_CFG.ZERO k).of v) →
      (u.rd (R.DIO_CNT_CFG.MODE k) = s.rd (R.DIO_CNT_CFG.MODE k) → u.rd (R.DIO_CNT_CFG.GATE_MS k) = s.rd (R.DIO_CNT_CFG.GATE_MS k) →
        exec (.counterConfigWrite k v) s = .next u) ∧
      (u.rd (R.DIO_CNT_CFG.MODE k) = s.rd (R.DIO_CNT_CFG.MODE k) → u.rd (R.DIO_CNT_CFG.GATE_MS k) ≠ s.rd (R.DIO_CNT_CFG.GATE_MS k) →
        exec (.counterConfigWrite k v) s = .next (u.setCnt k { u.cnt k with winEnd := s.mtNs })) ∧
      (u.rd (R.DIO_CNT_CFG.MODE k) ≠ s.rd (R.DIO_CNT_CFG.MODE k) → exec (.counterConfigWrite k v) s =
        .next ((((u.wr (R.DIO_CNT_VAL.VAL k) 0).wr (R.DIO_CNT_FREQ.FREQ k) 0).clear (R.DIO_CNT_STAT.FZERO k)).setCnt k
          { qerrAt := (s.cnt k).qerrAt, winEnd := s.mtNs })))

/-- DO_RESUME, DO_RESUMEALL, DO_OCCLR, OUTPUT_RELOAD, OUTPUT_ENABLE, OUTPUT_DISABLE, DO_CONFIG_WRITE, KEEPALIVE_SILENCE, KICK,
KICK_EXPIRY and KA_CFG_WRITE (R314 to R320, R335): a command to a channel that is none ends with BADCH, a RESUME without keep-
alive with NOKA; OCCLR clears OC; RELOAD sends the configuration again; OUTEN sends configurations and starts the keep-alive; a
configuration word is written but for reserved values and sent while OUTEN = 1, a locked one is not written; a LIVE output whose
keep-alive is silent for TMO, and at most a tenth more, is SAFE; a kick restarts the supervisor and clears KASTOP; its expiry
stops the keep-alive; a toggle or a kick of the same cycle prevails over the silence and the expiry (R321). DO_OVERCURRENT,
AO_OVERCURRENT, FIELD_SUPPLY_FAIL and FIELD_SUPPLY_RETURN (R312, R315, R317, R334, Table 9-3): a trip without supply, or of a
tripped output, does nothing; another sets OC, drives the terminal off, raises DOOC and is counted and recorded; an analog
output that limits its current keeps running; a supply that fails takes its outputs to NOSUPPLY with nothing held; one that
returns takes them to DEFAULT and, with OUTEN, sends their configuration again. -/
def Obligations.outputs_and_field_supplies : Prop :=
  ∀ (s : State),
    (∀ o : OutCh, o.nameable = true →
      (o.ok = false → exec (.doResume o) s = .next (s.outCmdDone o.isAnalog (some o.ch) 1 ocBadch)) ∧
      (o.ok = true → s.on (fOUTACT o.isAnalog) = false → exec (.doResume o) s = .next ((s.resume o).outCmdDone o.isAnalog (some o.ch) 1 ocNoka)) ∧
      (o.ok = true → s.on (fOUTACT o.isAnalog) = true → exec (.doResume o) s = .next ((s.resume o).outCmdDone o.isAnalog (some o.ch) 1 ocOk))) ∧
    (∀ o : OutCh, s.on (fOUTACT o.isAnalog) = false → s.resume o = s) ∧
    (∀ a : Bool, exec (.doResumeall a) s = .next ((s.resumeAll a).outCmdDone a none 2 (if s.on (fOUTACT a) then ocOk else ocNoka))) ∧
    (∀ ch, (24 ≤ ch → ch < 32 → exec (.doOcclr ch) s = .next (s.outCmdDone false (some ch) 3 ocBadch)) ∧
      (ch < 24 → exec (.doOcclr ch) s = .next (((s.clear (R.DIO_DO_STAT.OC ch)).drive (.digital ch)).outCmdDone false (some ch) 3 ocOk))) ∧
    (∀ o : OutCh, o.nameable = true →
      (o.ok = false → exec (.outputReload o) s = .next (s.outCmdDone o.isAnalog (some o.ch) (if o.isAnalog then 3 else 4) ocBadch)) ∧
      (o.ok = true → exec (.outputReload o) s = .next ((s.cfgFrame o false).outCmdDone o.isAnalog (some o.ch) (if o.isAnalog then 3 else 4) ocOk))) ∧
    (∀ a : Bool, (s.on (fOUTEN a) = true → exec (.outputEnable a) s = .next s) ∧
      (s.on (fOUTEN a) = false → exec (.outputEnable a) s =
        .next ((((s.raise (fOUTEN a)).laneOn a).each (blockOuts a) fun v o => v.cfgFrame o true).kaUpdate)) ∧
      exec (.outputDisable a) s = .next (s.clear (fOUTEN a)).kaUpdate) ∧
    (∀ (o : OutCh) (b : Bool) (v : Word), o.ok = true → o.isAnalog = true ∨ b = false → s.locked = true → exec (.doConfigWrite o b v) s = .next s) ∧
    (∀ (c : Nat) (v : Word) (u : State), c < 24 → s.locked = false →
      u = (s.wrIf (c < 8 || (R.DIO_DO_CFG.SAFE c).of v != 3) (R.DIO_DO_CFG.SAFE c) ((R.DIO_DO_CFG.SAFE c).of v)).wrIf
        (1 ≤ (R.DIO_DO_CFG.TMO c).of v) (R.DIO_DO_CFG.TMO c) ((R.DIO_DO_CFG.TMO c).of v) →
      exec (.doConfigWrite (.digital c) false v) s = .next (if u.on R.DIO_CTRL.OUTEN then u.cfgFrame (.digital c) false else u)) ∧
    (∀ (c : Nat) (v : Word) (u : State), c < 8 → s.locked = false →
      u = (((s.wrIf ((R.AIO_AO_CFG.SAFE c).of v != 3) (R.AIO_AO_CFG.SAFE c) ((R.AIO_AO_CFG.SAFE c).of v)).wrIf
        (1 ≤ (R.AIO_AO_CFG.TMO c).of v) (R.AIO_AO_CFG.TMO c) ((R.AIO_AO_CFG.TMO c).of v)).wr (R.AIO_AO_CFG.SRC c) ((R.AIO_AO_CFG.SRC c).of v)) →
      exec (.doConfigWrite (.analog c) false v) s = .next (if u.on R.AIO_CTRL.OUTEN then u.cfgFrame (.analog c) false else u)) ∧
    (∀ (c : Nat) (v : Word) (u : State), c < 8 → s.locked = false → u = s.wr (R.AIO_AO_SAFECODE.CODE c) ((R.AIO_AO_SAFECODE.CODE c).of v) →
      exec (.doConfigWrite (.analog c) true v) s = .next (if u.on R.AIO_CTRL.OUTEN then u.cfgFrame (.analog c) false else u)) ∧
    (∀ (o : OutCh) (u : State), o.ok = true → s.rd o.FSTATE = fsLive → s.on (fOUTACT o.isAnalog) = false →
      u = (s.advance ((s.out o).toggleAt + ms * (s.out o).timing + Config.freeNat s.fresh % (ms * (s.out o).timing / 10 + 1))).taken →
      ((u.kickNext && u.on R.DIO_STAT.KASTOP && u.on (fOUTEN o.isAnalog)) = true → exec (.keepaliveSilence o) s = .next u) ∧
      ((u.kickNext && u.on R.DIO_STAT.KASTOP && u.on (fOUTEN o.isAnalog)) = false → ∀ v, v = (u.setFst o fsSafe).drive o →
        exec (.keepaliveSilence o) s = .next (if o.isAnalog then (v.raise R.AIO_INTSTAT.AOSAFE).event 0x0909 (unit := o.ch)
          else (v.raise R.DIO_INTSTAT.DOSAFE).event 0x0900 (unit := o.ch)))) ∧
    (∀ o : OutCh, o.ok = true → s.rd o.FSTATE ≠ fsLive ∨ s.on (fOUTACT o.isAnalog) = true → exec (.keepaliveSilence o) s = .next s) ∧
    (exec .kick s = .next (({ s with dio := { s.dio with kickFrom := s.now } } : State).clear R.DIO_STAT.KASTOP).kaUpdate) ∧
    (∀ u : State, s.rd R.DIO_KA_CFG.KICK_MS ≠ 0 → s.on R.DIO_STAT.KASUSP = false → s.on R.DIO_STAT.KASTOP = false →
      u = s.advance (s.dio.kickFrom + ms * s.rd R.DIO_KA_CFG.KICK_MS) →
      (u.kickNext = true → exec .kickExpiry s = .next u) ∧
      (u.kickNext = false →
        exec .kickExpiry s = .next ((((u.raise R.DIO_STAT.KASTOP).raise R.DIO_INTSTAT.KASTOP).bump R.DIO_CNT_KASTOP.COUNT).event 0x0904).kaUpdate)) ∧
    (s.rd R.DIO_KA_CFG.KICK_MS = 0 ∨ s.on R.DIO_STAT.KASUSP = true ∨ s.on R.DIO_STAT.KASTOP = true → exec .kickExpiry s = .next s) ∧
    (∀ v : Word, (s.locked = true ∨ 1000 < R.DIO_KA_CFG.KICK_MS.of v → exec (.kaCfgWrite v) s = .next s) ∧
      (s.locked = false → R.DIO_KA_CFG.KICK_MS.of v ≤ 1000 → ∃ t, exec (.kaCfgWrite v) s = .next t ∧ t.rd R.DIO_KA_CFG.KICK_MS = R.DIO_KA_CFG.KICK_MS.of v ∧
        t.dio.kickFrom = s.now ∧ t.mem = s.mem ∧ ∀ a, a ≠ R.DIO_KA_CFG.addr → t.reg a = s.reg a)) ∧
    (∀ ch, ch < 24 → s.rd (R.DIO_DO_STAT.FSTATE ch) = fsNosupply ∨ s.on (R.DIO_DO_STAT.OC ch) = true → exec (.doOvercurrent ch) s = .next s) ∧
    (∀ ch, ch < 24 → s.rd (R.DIO_DO_STAT.FSTATE ch) ≠ fsNosupply → s.on (R.DIO_DO_STAT.OC ch) = false → exec (.doOvercurrent ch) s =
      .next (((((s.raise (R.DIO_DO_STAT.OC ch)).drive (.digital ch)).raise R.DIO_INTSTAT.DOOC).bump R.DIO_CNT_OC.COUNT).event 0x0901 (unit := ch))) ∧
    (∀ ch, ch < 8 → (s.rd (R.AIO_AO_STAT.FSTATE ch) = fsNosupply → exec (.aoOvercurrent ch) s = .next s) ∧
      (s.rd (R.AIO_AO_STAT.FSTATE ch) ≠ fsNosupply → exec (.aoOvercurrent ch) s =
        .next (((s.raise (R.AIO_AO_STAT.OC ch)).raise R.AIO_INTSTAT.AOOC).event 0x090A (unit := ch)))) ∧
    (∀ g, 1 ≤ g → g ≤ 4 → (s.supplied g = false → exec (.fieldSupplyFail g) s = .next s) ∧ (s.supplied g = true → exec (.fieldSupplyReturn g) s = .next s)) ∧
    (∀ (g : Nat) (u : State), 1 ≤ g → g ≤ 4 → s.supplied g = true →
      u = (s.clear (fsOk g)).each (groupOuts g) (fun v o => (((v.setOutX o {}).clear o.OC).setFst o fsNosupply).drive o) →
      exec (.fieldSupplyFail g) s = .next ((u.raise (if g = 4 then R.AIO_INTSTAT.FSFAIL else R.DIO_INTSTAT.FSFAIL)).event 0x0902 (unit := g))) ∧
    (∀ (g : Nat) (u v : State), 1 ≤ g → g ≤ 4 → s.supplied g = false → u = (s.raise (fsOk g)).each (groupOuts g) (fun v o => (v.setFst o fsDefault).drive o) →
      v = (u.raise (if g = 4 then R.AIO_INTSTAT.FSRET else R.DIO_INTSTAT.FSRET)).event 0x0903 (unit := g) →
      (v.on (fOUTEN (g = 4)) = false → exec (.fieldSupplyReturn g) s = .next v) ∧
      (v.on (fOUTEN (g = 4)) = true → ∀ w, w = v.each (groupOuts g) (fun x o => x.cfgFrame o false) →
        exec (.fieldSupplyReturn g) s = .next (if w.on (fAUTORES (g = 4)) then w.each (groupOuts g) fun x o => x.resume o else w)))

/-- REFLEX_ARM, REFLEX_DISARM, REFLEX_ENABLE, REFLEX_DISABLE, REFLEX_CFG_WRITE and PULSE_EXPIRY (R323, R324, R9): valid rules that
are asked for and not armed become armed, an invalid one raises WRREJ; a written 1 disarms; RFXEN activates the armed rules; an
armed rule's configuration keeps its words and raises WRREJ; a configuration word drops its reserved bits; a pulse that ends
writes V 0, on a forced output nothing; the arming that an IO cycle began with acts to its end (R329). -/
def Obligations.reflex_rules : Prop :=
  ∀ (s : State),
    (∀ (w : Nat) (v : Word) (asked good : List Nat) (u : State), w < 2 →
      asked = (List.range 32).filter (fun b => v.getLsbD b && !s.rfxArmed (32 * w + b)) → good = (asked.map (32 * w + ·)).filter s.rfxValid →
      u = s.rfxNoteArms.each good (fun s r => s.setBit (R.DIO_RFX_ARM.ARM (r / 32)) (r % 32) true) →
      exec (.reflexArm w v) s = .next ((if good.length < asked.length then u.raise R.DIO_INTSTAT.WRREJ else u).rfxActivate good)) ∧
    (∀ (w : Nat) (v : Word), w < 2 → ∃ t, exec (.reflexDisarm w v) s = .next t ∧ t.reg (R.DIO_RFX_ARM.addr w) = s.reg (R.DIO_RFX_ARM.addr w) &&& ~~~v ∧
      t.mem = s.mem ∧ (∀ a, a ≠ R.DIO_RFX_ARM.addr w → t.reg a = s.reg a) ∧
      t.dio = { s.dio with rfx := { s.rfxCycle with arms := some (s.rfxCycle.arms.getD s.rfxArms) } }) ∧
    ((s.on R.DIO_CTRL.RFXEN = true → exec .reflexEnable s = .next s) ∧
      (s.on R.DIO_CTRL.RFXEN = false → exec .reflexEnable s = .next ((s.raise R.DIO_CTRL.RFXEN).rfxActivate (below 64 s.rfxArmed))) ∧
      exec .reflexDisable s = .next (s.clear R.DIO_CTRL.RFXEN)) ∧
    (∀ (r : Nat) (v : Word), r < 64 → (s.rfxArmed r = true → ∀ w, w < 2 → exec (.reflexCfgWrite r w v) s = .next (s.raise R.DIO_INTSTAT.WRREJ)) ∧
      (s.rfxArmed r = false → exec (.reflexCfgWrite r 0 v) s = .next (s.setReg (R.DIO_RFX_CFG0.addr r) (v &&& 0x001FFFFF#32)) ∧
        exec (.reflexCfgWrite r 1 v) s = .next (s.setReg (R.DIO_RFX_CFG1.addr r) (v &&& 0x0000FFFF#32)))) ∧
    (∀ c, c < 8 → (s.pulse c = none → exec (.pulseExpiry c) s = .next s) ∧ ∀ (i : Nat) (u : State), s.pulse c = some i → u = s.advance i →
      (u.bit R.DIO_DO_FMASK.FMASK c = true → exec (.pulseExpiry c) s = .next (u.setPulse c none)) ∧
      (u.bit R.DIO_DO_FMASK.FMASK c = false → exec (.pulseExpiry c) s = .next (u.otherV c false)))

/-- AI_CONVERSION_COMPLETE and AI_CONFIG_WRITE (R331 to R333): a disabled channel converts nothing; a conversion counts, stores its
code, range, engineering value and fault code, and raises AIFAULT or AIOK where its fault condition changes; a write that leaves
EN, RANGE and CONV as they are abandons no conversion, another abandons it and the next begins now. -/
def Obligations.analog_inputs : Prop :=
  ∀ (s : State),
    (∀ (c : Nat) (r : AiResult), c < 8 → r.code < 65536 → s.on (R.AIO_AI_CFG.EN c) = false → exec (.aiConversionComplete c r) s = .next s) ∧
    (∀ (c fc g : Nat) (r : AiResult) (u v : State), c < 8 → r.code < 65536 → s.on (R.AIO_AI_CFG.EN c) = true →
      u = s.advance ((s.ai c).convStart + convTime (s.rd (R.AIO_AI_CFG.CONV c))) → g = u.rd (R.AIO_AI_CFG.RANGE c) →
      fc = faultOf g r (u.on (R.AIO_AI_CFG.WBDIS c)) u.fresh →
      v = ((((((u.wr (R.AIO_AI_CNT.COUNT c) (u.rd (R.AIO_AI_CNT.COUNT c) + 1)).setReg (R.AIO_AI_ENG.addr c) (engOf g r.code u.fresh)).wr
          (R.AIO_AI_DATA.CODE c) r.code).wr (R.AIO_AI_DATA.RANGE c) g).wrb (R.AIO_AI_DATA.FAULT c) (fc != 0)).wr (R.AIO_AI_DATA.FCODE c) fc).taken →
      (fc = 0 → u.bit R.AIO_STAT.AIFAULT c = false → ∃ t, exec (.aiConversionComplete c r) s = .next t ∧
        t = (v.setAi c { done := true, endMt := some v.mtNs, convStart := v.now }).setBit R.AIO_STAT.AIFAULT c false) ∧
      (fc ≠ 0 → u.bit R.AIO_STAT.AIFAULT c = false → ∃ t, exec (.aiConversionComplete c r) s = .next t ∧
        t = (((v.setAi c { done := true, endMt := some v.mtNs, convStart := v.now }).setBit R.AIO_STAT.AIFAULT c true).raise R.AIO_INTSTAT.AIFAULT).event
          0x0907 (unit := c)) ∧
      (fc = 0 → u.bit R.AIO_STAT.AIFAULT c = true → ∃ t, exec (.aiConversionComplete c r) s = .next t ∧
        t = (((v.setAi c { done := true, endMt := some v.mtNs, convStart := v.now }).setBit R.AIO_STAT.AIFAULT c false).raise R.AIO_INTSTAT.AIOK).event
          0x0908 (unit := c)) ∧
      (fc ≠ 0 → u.bit R.AIO_STAT.AIFAULT c = true → ∃ t, exec (.aiConversionComplete c r) s = .next t ∧
        t = (v.setAi c { done := true, endMt := some v.mtNs, convStart := v.now }).setBit R.AIO_STAT.AIFAULT c true)) ∧
    (∀ (c : Nat) (v : Word) (u : State), c < 8 → u = s.setReg (R.AIO_AI_CFG.addr c) (v &&& 0x3F#32) →
      (s.reg (R.AIO_AI_CFG.addr c) &&& 0x1F#32 = v &&& 0x1F#32 → exec (.aiConfigWrite c v) s = .next u) ∧
      (s.reg (R.AIO_AI_CFG.addr c) &&& 0x1F#32 ≠ v &&& 0x1F#32 → exec (.aiConfigWrite c v) s =
        .next (u.setAi c { s.ai c with done := false, convStart := s.now })))

/-- CAN_TX_REQUEST, CAN_TX_CANCEL, CAN_FRAME_START, CAN_TX_ATTEMPT_END, CAN_ABORTALL and CAN_TXRESUME (R348 to R353, R365): each
written 1 requests or cancels its buffer, a cancel in the cycle of the buffer's own start of frame being latched; off the bus,
halted, listening or with an attempt at hand no attempt starts; the buffer that wins arbitration becomes ACTIVE with its time
stamp, the sample point of its data bits taken with it, and one that holds a failing ID or CTL word is halted POISON; a good end
counts TXOK, lowers TEC and ends the buffer OK, marked where a cancel came late; a lost arbitration leaves it PENDING, or
ABORTED under a cancel; another error counts ATTEMPTS and raises TEC by 8; TXRESUME ends a halt. -/
def Obligations.can_transmission : Prop :=
  ∀ (s : State) (c : Nat) (_ : c < 4),
    (∀ w (v : Word), w < 2 → exec (.canTxRequest c w v) s = .next (s.each (below 32 fun b => v.getLsbD b) fun u b => u.txRequest c (32 * w + b)) ∧
      ∀ u, u = s.each (below 32 fun b => v.getLsbD b) (fun u b => u.cancelAt c (32 * w + b)) →
        exec (.canTxCancel c w v) s = .next (u.stnFill c (u.canOf c).stnOut.length)) ∧
    (∀ b, (∀ d rest, s.pending ≠ .canFrameStart d :: rest) → s.cancelAt c b = s.txCancel c b) ∧
    (∀ (b : Nat) (rest : List Instr), s.pending = .canFrameStart c :: rest → s.txst c b = txPending →
      ((s.canStartFrame c).canOf c).attempt.any (·.buf == b) = true → s.cancelAt c b = s.raise (canCan c b)) ∧
    (s.canOnBus c = false ∨ s.running (canUnit c) = false ∨ s.on (R.CAN_STAT.TXHALT c) = true ∨ s.on (R.CAN_CFG.LISTEN c) = true ∨
      (s.canOf c).sleepPending = true ∨ (s.canOf c).attempt ≠ none ∨ s.winner c = none → exec (.canFrameStart c) s = .next s) ∧
    (∀ (b : Nat) (u : State), s.canOnBus c = true → s.running (canUnit c) = true → s.on (R.CAN_STAT.TXHALT c) = false → s.on (R.CAN_CFG.LISTEN c) = false →
      (s.canOf c).sleepPending = false → (s.canOf c).attempt = none → s.winner c = some b → s.badTbWord c b = none →
      u = (s.setTxst c b txActive).setCanRam c (tbWord b + 2) (BitVec.ofNat 32 (s.setTxst c b txActive).canTs) →
      ∀ v w, u.dataCheck c b = (v, w) → exec (.canFrameStart c) s = .next (w.setCan c { w.canOf c with attempt := some { buf := b, check := v } })) ∧
    (∀ (b i : Nat), s.canOnBus c = true → s.running (canUnit c) = true → s.on (R.CAN_STAT.TXHALT c) = false → s.on (R.CAN_CFG.LISTEN c) = false →
      (s.canOf c).sleepPending = false → (s.canOf c).attempt = none → s.winner c = some b → s.badTbWord c b = some i → i < 2 →
      exec (.canFrameStart c) s = .next (s.taken.txHalt c b i)) ∧
    ((s.canOf c).attempt = none → ∀ r, exec (.canTxAttemptEnd c r) s = .next s) ∧
    (∀ (a : CanAttempt) (u : State), (s.canOf c).attempt = some a → u = s.setCan c { s.canOf c with attempt := none } →
      exec (.canTxAttemptEnd c .arbLost) s = .next ((u.bump (R.CAN_CNT_ARBLOST.COUNT c)).attemptBack c a.buf) ∧
      exec (.canTxAttemptEnd c .noAck) s = .next (u.ackError c a.buf) ∧
      (∀ lec, exec (.canTxAttemptEnd c (.error lec)) s = .next ((((u.errorFrame c lec).attemptFailed c a.buf).tecUp c).attemptBack c a.buf)) ∧
      (u.on (canCan c a.buf) = false → exec (.canTxAttemptEnd c .ok) s =
        .next (((((u.bump (R.CAN_CNT_TXOK.COUNT c)).wr (R.CAN_ERR.TEC c) ((u.bump (R.CAN_CNT_TXOK.COUNT c)).rd (R.CAN_ERR.TEC c) - 1)).canErrState c).ackSeen c).txEnd
          c a.buf txOk)) ∧
      (u.on (canCan c a.buf) = true → ∀ v, v = ((((u.bump (R.CAN_CNT_TXOK.COUNT c)).wr (R.CAN_ERR.TEC c)
          ((u.bump (R.CAN_CNT_TXOK.COUNT c)).rd (R.CAN_ERR.TEC c) - 1)).canErrState c).ackSeen c) → exec (.canTxAttemptEnd c .ok) s =
        .next ((v.setTbStat c a.buf (putField (v.tbStat c a.buf) 3 1 1)).txEnd c a.buf txOk))) ∧
    (∀ u, u = s.each (List.range 64) (fun u b => u.cancelAt c b) → exec (.canAbortall c) s = .next ((u.stnFill c (u.canOf c).stnOut.length).canCmd c 5 0)) ∧
    ((s.on (R.CAN_STAT.TXHALT c) = false → exec (.canTxresume c) s = .next (s.canCmd c 4 4)) ∧
      (s.on (R.CAN_STAT.TXHALT c) = true → exec (.canTxresume c) s = .next (((s.clear (R.CAN_STAT.TXHALT c)).clear (R.CAN_TXHALT.HALT c)).canCmd c 4 0)))

/-- CAN_FRAME_RECEIVED, CAN_RX_ERROR, CAN_PROTOCOL_EXCEPTION, CAN_RX_LOCK, CAN_RX_RELEASE, CAN_LOCK_TIMEOUT, CAN_RXNEW_FREE,
CAN_MDATA_WRITE and CAN_INTEGRATION_COMPLETE (R340, R345 to R357, R362, R368): off the bus nothing is received; a good frame
counts RXOK, lowers REC, ends ACKRUN and meets the filters; an FD frame without FDEN is a form error, and a protocol exception
is counted with FDEN alone and recorded once a second; an error counts REC; a listening controller only notes it; a lock holds
one buffer for at most 1 ms; each written 1 of RXNEW frees its buffer; MADDR advances in every case. -/
def Obligations.can_reception : Prop :=
  ∀ (s : State) (c : Nat) (_ : c < 4),
    (s.canOnBus c = false → (∀ f, exec (.canFrameReceived c f) s = .next s) ∧ (∀ l, exec (.canRxError c l) s = .next s) ∧ exec (.canProtocolException c) s = .next s) ∧
    (∀ f : CanFrame, s.canOnBus c = true →
      (f.fdf = true → s.on (R.CAN_CFG.FDEN c) = false → exec (.canFrameReceived c f) s = .next (s.canRxErr c 2)) ∧
      (f.fdf = false ∨ s.on (R.CAN_CFG.FDEN c) = true → exec (.canFrameReceived c f) s =
        .next ((((s.bump (R.CAN_CNT_RXOK.COUNT c)).recDown c).ackSeen c).canFilterFrame c f))) ∧
    (∀ l, s.canOnBus c = true → (s.on (R.CAN_CFG.LISTEN c) = true → exec (.canRxError c l) s = .next (s.wr (R.CAN_ERR.LEC c) l)) ∧
      (s.on (R.CAN_CFG.LISTEN c) = false → exec (.canRxError c l) s =
        .next (((s.errorFrame c l).wr (R.CAN_ERR.REC c) (min 255 ((s.errorFrame c l).rd (R.CAN_ERR.REC c) + 1))).canErrState c))) ∧
    (∀ u, s.canOnBus c = true → s.on (R.CAN_CFG.FDEN c) = true →
      u = (((s.raise (R.CAN_STAT.INTEG c)).bump (R.CAN_CNT_PXE.COUNT c)).raise (R.CAN_INTSTAT.PXE c)).wr (R.CAN_ERR.LEC c) 7 →
      exec (.canProtocolException c) s = .next (if dueAgain (u.canOf c).pxeAt u.now sec then
        (u.setCan c { u.canOf c with pxeAt := some u.now }).event 0x0A08 (unit := c) else u)) ∧
    (s.canOnBus c = true → s.on (R.CAN_CFG.FDEN c) = false → exec (.canProtocolException c) s = .next s) ∧
    (∀ (b : Nat) (u : State), b < 128 → u = (if (s.canOf c).lock.any (·.buf == b) then s else s.rxUnlock c) →
      exec (.canRxLock c b) s = .next (((u.wr (R.CAN_RXLOCK.BUF c) b).raise (R.CAN_RXLOCK.LOCK c)).setCan c
        { ((u.wr (R.CAN_RXLOCK.BUF c) b).raise (R.CAN_RXLOCK.LOCK c)).canOf c with lock := some { buf := b, since := ((u.wr (R.CAN_RXLOCK.BUF c) b).raise (R.CAN_RXLOCK.LOCK c)).now } })) ∧
    (exec (.canRxRelease c false) s = .next ((s.rxUnlock c).setReg (R.CAN_RXLOCK.addr c) 0) ∧
      exec (.canRxRelease c true) s = .next (((s.rxUnlock c).setReg (R.CAN_RXLOCK.addr c) 0).fifoPop c)) ∧
    (((s.canOf c).lock = none → exec (.canLockTimeout c) s = .next s) ∧
      ∀ l, (s.canOf c).lock = some l → exec (.canLockTimeout c) s =
        .next ((((s.advance (l.since + ms)).rxUnlock c).clear (R.CAN_RXLOCK.LOCK c)).raise (R.CAN_INTSTAT.LOCKTO c))) ∧
    (∀ w (v : Word), w < 4 → exec (.canRxnewFree c w v) s = .next (s.each (below 32 fun b => v.getLsbD b) fun u b => u.rbFree c (32 * w + b))) ∧
    (∀ v : Word, ∃ t, exec (.canMdataWrite c v) s = .next t ∧ t.rd (R.CAN_MADDR.WADDR c) = (s.rd (R.CAN_MADDR.WADDR c) + 1) % 2 ^ (R.CAN_MADDR.WADDR c).w ∧ t.mem = s.mem ∧
      (∀ u, u = s.wr (R.CAN_MADDR.WADDR c) (s.rd (R.CAN_MADDR.WADDR c) + 1) →
        (u.canWriteMay c (s.rd (R.CAN_MADDR.WADDR c)) = .done → t = u.setCanRam c (s.rd (R.CAN_MADDR.WADDR c)) v) ∧
        (u.canWriteMay c (s.rd (R.CAN_MADDR.WADDR c)) = .silent → t = u) ∧
        (u.canWriteMay c (s.rd (R.CAN_MADDR.WADDR c)) = .rejected → t = u.raise (R.CAN_INTSTAT.WRREJ c)))) ∧
    (((s.canOf c).recovering = true → exec (.canIntegrationComplete c) s = .next s) ∧
      ((s.canOf c).recovering = false → exec (.canIntegrationComplete c) s = .next (s.clear (R.CAN_STAT.INTEG c))))

/-- CAN_SLEEP, CAN_SLEEP_ENTERED, CAN_WAKE, CAN_WAKE_EVENT, CAN_BORECOV, CAN_BUSOFF_RECOVERY_COMPLETE and CAN_TS_CAPTURE (R361,
R363, R366, R367): SLEEP outside RUN or in BUS_OFF ends with RESULT 1, with a wake frame longer than 8 with RESULT 2; another is
entered when the frame on the bus has ended; WAKE wakes with source 4; a wake event wakes a sleeping controller alone; BORECOV
outside BUS_OFF ends with RESULT 3; a completed recovery sets EST, TEC and REC to 0; a capture takes the counter and MT at a
whole millisecond. -/
def Obligations.can_sleep_and_recovery : Prop :=
  ∀ (s : State) (c : Nat) (_ : c < 4),
    (s.running (canUnit c) = false ∨ s.rd (R.CAN_ERR.EST c) = 2 → exec (.canSleep c) s = .next (s.canCmd c 1 1)) ∧
    (s.running (canUnit c) = true → s.rd (R.CAN_ERR.EST c) ≠ 2 →
      (s.on (R.CAN_WUF_CFG.WMODE c) = true → 8 < s.rd (R.CAN_WUF_CFG.DLC c) → exec (.canSleep c) s = .next (s.canCmd c 1 2)) ∧
      (s.on (R.CAN_WUF_CFG.WMODE c) = false ∨ s.rd (R.CAN_WUF_CFG.DLC c) ≤ 8 → exec (.canSleep c) s =
        .next ((s.setCan c { s.canOf c with sleepPending := !s.on (R.CAN_STAT.SLEEP c) }).canCmd c 1 0))) ∧
    (((s.canOf c).sleepPending = true → (s.canOf c).attempt = none → exec (.canSleepEntered c) s =
        .next ((s.setCan c { s.canOf c with sleepPending := false }).raise (R.CAN_STAT.SLEEP c))) ∧
      ((s.canOf c).sleepPending = false ∨ (s.canOf c).attempt ≠ none → exec (.canSleepEntered c) s = .next s)) ∧
    ((s.running (canUnit c) = false → exec (.canWake c) s = .next (s.canCmd c 2 1)) ∧
      (s.running (canUnit c) = true → s.canSleeps c = true → exec (.canWake c) s = .next ((s.canWakeUp c 4).canCmd c 2 0)) ∧
      (s.running (canUnit c) = true → s.canSleeps c = false → exec (.canWake c) s = .next (s.canCmd c 2 0))) ∧
    (∀ e, (s.wakeSource c e = none ∨ s.canSleeps c = false → exec (.canWakeEvent c e) s = .next s) ∧
      ∀ k, s.wakeSource c e = some k → s.canSleeps c = true → exec (.canWakeEvent c e) s = .next (s.canWakeUp c k)) ∧
    ((s.rd (R.CAN_ERR.EST c) = 2 → exec (.canBorecov c) s =
        .next (((s.setCan c { s.canOf c with recovering := true }).raise (R.CAN_STAT.INTEG c)).canCmd c 3 0)) ∧
      (s.rd (R.CAN_ERR.EST c) ≠ 2 → exec (.canBorecov c) s = .next (s.canCmd c 3 3))) ∧
    (∀ r p, (s.canCmd c p r).rd (R.CAN_CMD.OP c) = p % 2 ^ (R.CAN_CMD.OP c).w ∧ (s.canCmd c p r).rd (R.CAN_CMD.RESULT c) = r % 2 ^ (R.CAN_CMD.RESULT c).w ∧
      (s.canCmd c p r).on (R.CAN_INTSTAT.CMDDONE c) = true ∧ (s.canCmd c p r).mem = s.mem ∧
      ∀ a, a ≠ (R.CAN_CMD.OP c).addr → a ≠ (R.CAN_INTSTAT.CMDDONE c).addr → (s.canCmd c p r).reg a = s.reg a) ∧
    (((s.canOf c).recovering = false → exec (.canBusoffRecoveryComplete c) s = .next s) ∧
      ((s.canOf c).recovering = true → ∃ t u : State, exec (.canBusoffRecoveryComplete c) s = .next t ∧
        t = ((u.raise (R.CAN_INTSTAT.BORECOV c)).raise (R.CAN_INTSTAT.ERRACT c)).event 0x0A01 (unit := c) ∧ u.rd (R.CAN_ERR.EST c) = 0 ∧
        u.rd (R.CAN_ERR.TEC c) = 0 ∧ u.rd (R.CAN_ERR.REC c) = 0 ∧ u.mem = s.mem ∧
        ∀ a, a ≠ (R.CAN_ERR.EST c).addr → a ≠ (R.CAN_STAT.INTEG c).addr → u.reg a = s.reg a)) ∧
    (∀ (i : Nat) (u : State), i = (s.mtNs + ms - 1) / ms * ms →
      u = s.advanceMt (if i = s.rd64 (R.CAN_TSC_MT_LO.addr c) (R.CAN_TSC_MT_HI.addr c) then i + ms else i) →
      exec (.canTsCapture c) s = .next ((u.wr (R.CAN_TSC_CNT.CNT c) u.canTs).wr64 (R.CAN_TSC_MT_LO.addr c) (R.CAN_TSC_MT_HI.addr c) u.mtNs))

/-- REWRITE_QUEUE_SERVICE, SCRUB_STEP, SECDED_SCRUB, DRAM_SCRUB_BURST, BUCKET_LEAK, EGRESS_RELEASE_FABTX, EGRESS_RELEASE_MIRROR and
SMAP_WRITE (R379, R386, R393 to R397): outside RUN no sweep moves; the oldest queued word is rewritten where it still fails and
can be rebuilt, a stripe word from its data words, and leaves the queue; a step empties the queue, scrubs one stripe row and
moves on, at the last row it counts a sweep; a leak takes 1 from a level above 0 and changes nothing else; a release clears its
halt; the map is written in OFF alone, a row newly mapped holding free values (notes/assumptions/19), and its address advances. -/
def Obligations.scrubbing_and_repair : Prop :=
  ∀ (s : State),
    (s.running .mem = false → exec .rewriteQueueService s = .next s ∧ exec .secdedScrub s = .next s) ∧
    (s.running .mem = true → s.integ.rewriteQ = [] → exec .rewriteQueueService s = .next s) ∧
    (∀ (w : Nat) (rest : List Nat) (u : State), s.running .mem = true → s.integ.rewriteQ = w :: rest → u = { s with integ := { s.integ with rewriteQ := rest } } →
      (stripeWindow ≤ w → w < stripeWindow + 65536 → exec .rewriteQueueService s = .next (u.rewriteStripe (w - stripeWindow))) ∧
      (w < stripeWindow ∨ stripeWindow + 65536 ≤ w → (u.flaw w).poisoned = false → (u.flaw w).invalid ≠ 0 → (u.flaw w).tagOpen = false →
        u.lost w = 0 → exec .rewriteQueueService s = .next (u.rewriteRebuilt w)) ∧
      (w < stripeWindow ∨ stripeWindow + 65536 ≤ w → (u.flaw w).poisoned = true ∨ (u.flaw w).invalid = 0 ∨ (u.flaw w).tagOpen = true ∨
        u.lost w ≠ 0 → exec .rewriteQueueService s = .next u)) ∧
    (s.working .mem = false → exec .scrubStep s = .next s) ∧
    (∀ (k : Nat) (q u : State), s.working .mem = true → q = s.rewriteAll 16 → k = q.rd R.MEM_DRS_POS.POS →
      u = (((q.each (List.range 16) fun v b => v.scrubWord k b (((List.range 16).map fun b => q.lost (rowWord k b)).getD b 0)).scrubStripe k).consistency k).repairStep →
      (k ≠ 65535 → exec .scrubStep s = .next (u.wr R.MEM_DRS_POS.POS (k + 1))) ∧
      (k = 65535 → exec .scrubStep s = .next (((u.wr R.MEM_DRS_POS.POS (k + 1)).wrap R.MEM_DRS_SWEEPS.SWEEPS).raise R.MEM_INTSTAT.SWEEP))) ∧
    (∀ u : State, s.running .mem = true → u = (s.readWord mDresser (0x09000000 / 8 + s.integ.secPos)).st →
      exec .secdedScrub s = .next { u with integ := { u.integ with secPos := (s.integ.secPos + 1) % (0x880000 / 8) } }) ∧
    (s.running .mem = false ∨ s.on R.MEM_DRS_CFG.DRAMEN = false → exec .dramScrubBurst s = .next s) ∧
    (∀ (a : Nat) (u : State), s.running .mem = true → s.on R.MEM_DRS_CFG.DRAMEN = true → u = s →
      a = (if u.dramLo ≤ u.rd R.MEM_DRS_DPOS.DPOS ∧ u.rd R.MEM_DRS_DPOS.DPOS < u.dramEnd then u.rd R.MEM_DRS_DPOS.DPOS / 64 * 64 else u.dramLo) →
      ∃ t v : State, exec .dramScrubBurst s = .next t ∧ v = u.each (List.range 8) (fun s i => s.scrubDram (wordOf a + i)) ∧
        t = v.wr R.MEM_DRS_DPOS.DPOS (if a + 64 < v.dramEnd then a + 64 else v.dramLo)) ∧
    (∀ k, k < 7 → ∃ t, exec (.bucketLeak k) s = .next t ∧ t.rd (R.MEM_LB_STAT.LEVEL k) = s.rd (R.MEM_LB_STAT.LEVEL k) - 1 ∧ t.mem = s.mem ∧
      t.rd (R.MEM_LB_STAT.OVF k) = s.rd (R.MEM_LB_STAT.OVF k) ∧ ∀ a, a ≠ (R.MEM_LB_STAT.LEVEL k).addr → t.reg a = s.reg a) ∧
    ((s.on R.MEM_EGR_HALT.FABTX = false → exec .egressReleaseFabtx s = .next s) ∧
      (s.on R.MEM_EGR_HALT.FABTX = true → exec .egressReleaseFabtx s =
        .next ((({ s with fab := { s.fab with txWait := [] } } : State).clear R.MEM_EGR_HALT.FABTX).txResume (s.fab.txWait.drop 1)))) ∧
    (exec .egressReleaseMirror s = .next (State.clear { s with pair := { s.pair with halted := none } } R.MEM_EGR_HALT.MIRROR)) ∧
    (∀ (v : Word) (e : Nat) (u : State), e = s.rd R.MEM_SMAP_ADDR.ENTRY → u = s.setSpare e { row := getField v 0 9, valid := getField v 15 1 = 1 } →
      (s.rd UnitId.mem.STATE ≠ stOff ∨ (s.spare e).fuse = true ∨ 136 ≤ e → exec (.smapWrite v) s =
        .next ((s.raise R.MEM_INTSTAT.WRREJ).wr R.MEM_SMAP_ADDR.ENTRY (e + 1))) ∧
      (s.rd UnitId.mem.STATE = stOff → (s.spare e).fuse = false → e < 136 →
        getField v 15 1 = 0 ∨ ((s.spare e).valid = true ∧ (s.spare e).row = getField v 0 9) →
        exec (.smapWrite v) s = .next (u.wr R.MEM_SMAP_ADDR.ENTRY (e + 1))) ∧
      (s.rd UnitId.mem.STATE = stOff → (s.spare e).fuse = false → e < 136 →
        getField v 15 1 = 1 → (s.spare e).valid = false ∨ (s.spare e).row ≠ getField v 0 9 →
        exec (.smapWrite v) s = .next ((u.freshRow (e / 8) (getField v 0 9)).wr R.MEM_SMAP_ADDR.ENTRY (e + 1))))

/-- INJECT_ODD, INJECT_EVEN, INJECT_PAR, INJECT_TAG, INJECT_POISON, INJECT_DOUBLE and STRIPE_WINDOW_STORE (R402): outside TEST an
injection ends with RESULT 1 and WRREJ and alters no memory; at an address it may not alter it ends with RESULT 2; else it
alters the word as its kind says and ends with RESULT 0; a store into the window sets the row's stripe word in TEST alone. Which
two bits DOUBLE flips is a free value (notes/assumptions/15). -/
def Obligations.error_injection : Prop :=
  ∀ (s : State),
    (s.rd R.MEM_PHASE.PHASE ≠ 2 → ∀ (l : BitVec 8) c, c ∈ [Instr.injectOdd l, .injectEven l, .injectPar l, .injectTag, .injectPoison l] →
      ∃ t, exec c s = .next t ∧ t.rd R.MEM_INJ_CTRL.RESULT = 1 ∧ t.rd R.MEM_INTSTAT.WRREJ = 1 ∧ t.mem = s.mem ∧ t.integ = s.integ ∧
        ∀ a, a ≠ R.MEM_INJ_CTRL.addr → a ≠ R.MEM_INTSTAT.addr → t.reg a = s.reg a) ∧
    (∀ (l : BitVec 8) (u : State) (a : Nat), s.rd R.MEM_PHASE.PHASE = 2 → a = 8 * s.rd R.MEM_INJ_ADDR.WADDR → injectable a = true → isLocal (s.rd R.MEM_INJ_ADDR.WADDR) = false →
      (u = (s.wr R.MEM_INJ_CTRL.KIND 1).wr R.MEM_INJ_CTRL.LANES l.toNat → exec (.injectOdd l) s = .next ((u.alter a { data := laneBits l 0, par := l }).wr R.MEM_INJ_CTRL.RESULT 0)) ∧
      (u = (s.wr R.MEM_INJ_CTRL.KIND 2).wr R.MEM_INJ_CTRL.LANES l.toNat → exec (.injectEven l) s = .next ((u.alter a { data := laneBits l 0 ||| laneBits l 1 }).wr R.MEM_INJ_CTRL.RESULT 0)) ∧
      (u = (s.wr R.MEM_INJ_CTRL.KIND 3).wr R.MEM_INJ_CTRL.LANES l.toNat → exec (.injectPar l) s = .next ((u.alter a { par := l }).wr R.MEM_INJ_CTRL.RESULT 0)) ∧
      (u = (s.wr R.MEM_INJ_CTRL.KIND 4).wr R.MEM_INJ_CTRL.LANES (s.rd R.MEM_INJ_CTRL.LANES) → exec .injectTag s = .next ((u.alter a { tag := true }).wr R.MEM_INJ_CTRL.RESULT 0)) ∧
      (u = (s.wr R.MEM_INJ_CTRL.KIND 5).wr R.MEM_INJ_CTRL.LANES l.toNat → exec (.injectPoison l) s = .next ((u.alter a { poison := true }).wr R.MEM_INJ_CTRL.RESULT 0))) ∧
    (∀ (l : BitVec 8) (u : State), s.rd R.MEM_PHASE.PHASE = 2 → injectable (8 * s.rd R.MEM_INJ_ADDR.WADDR) = false →
      u = (s.wr R.MEM_INJ_CTRL.KIND 1).wr R.MEM_INJ_CTRL.LANES l.toNat → exec (.injectOdd l) s = .next (u.wr R.MEM_INJ_CTRL.RESULT 2)) ∧
    (∃ i j, i < 72 ∧ j < 72 ∧ i ≠ j ∧ exec .injectDouble s =
      .next ((s.inject 6 (BitVec.ofNat 8 (s.rd R.MEM_INJ_CTRL.LANES)) { flips := (1#72 <<< i) ||| (1#72 <<< j) }).taken 2)) ∧
    (∀ (a : Nat) (d : Word64), 0x18000000 ≤ a → a < 0x18080000 →
      (s.rd R.MEM_PHASE.PHASE ≠ 2 → exec (.stripeWindowStore a d) s = .next s) ∧
      (s.rd R.MEM_PHASE.PHASE = 2 → ∃ t, exec (.stripeWindowStore a d) s = .next t ∧ t.stripeWord ((a - 0x18000000) / 8) = d ∧ t.spar ((a - 0x18000000) / 8) = 0 ∧
        t.regs = s.regs ∧ t.mem = s.mem))

/-- R374 to R377 with R402: in TEST, where every word of the row is valid and the stripe matches, an odd error injected into any set
of lanes of a shared SRAM word fails their parity, and a read by any master still receives the word's old data, not poisoned;
the correction is counted in its class. -/
def Obligations.injected_odd_error_is_rebuilt : Prop :=
  ∀ (s : State) (m : Nat) (l : BitVec 8) (w : Nat), w = s.rd R.MEM_INJ_ADDR.WADDR → s.rd R.MEM_PHASE.PHASE = 2 → isShared w = true →
    (∀ b, b < 16 → s.flaw (rowWord (rowOf w) b) = {}) → s.sdiff (rowOf w) = 0 → s.spar (rowOf w) = 0 → l ≠ 0 →
    ∃ t, exec (.injectOdd l) s = .next t ∧ (t.flaw w).invalid = l ∧ t.rd R.MEM_INJ_CTRL.RESULT = 0 ∧
      (t.readWord m w).data = s.word w ∧ (t.readWord m w).poisoned = false ∧
      (t.readWord m w).st.rd (R.MEM_CNT_CORR.COUNT 0) = min (s.rd (R.MEM_CNT_CORR.COUNT 0) + 1) (2 ^ (R.MEM_CNT_CORR.COUNT 0).w - 1)

/-- KEY_CQTAIL_WRITE, the 21 operations of Table 12-8 and KEY_OP_COMPLETE (R416, R421): a tail more than the ring ahead raises
CQFULL and changes nothing else; the descriptor at the ring's front that carries the command's OP enters the engine with the
status, the result and the effect that its latching gives, and BUSY is set; nothing enters while the engine is not ready, and a
front descriptor that cannot be read, is not owned or carries another OP is left to the ring's own walk; a completed operation
that ended OK or STALE_GEN writes its result and its effect, ends its descriptor and makes way for the next, one with another
status ends it alone; an ADOPT whose switch hold has ended meanwhile completes NOTHELD. That an operation's arguments are
latched where it enters is the model's reading of R416. EXTEND, DECLARE, ADOPT and SETPOL (R417, R419): EXTEND and SETPOL are
refused with LOCKED after the lock; ADOPT outside HELD for a switch is refused with NOTHELD, without a declared successor with
NOSUCC; an EXTEND's effect makes M the SHA-256 of the old M followed by the digest and counts EXTENDS; a DECLARE's effect makes
KEY_SUCC the digest; an ADOPT's effect makes M the declared successor. -/
def Obligations.key_ring_operations : Prop :=
  ∀ (s : State),
    (∀ (v : Word), s.cqSize < (R.KEY_CQTAIL.TAIL.of v + 0x10000 - s.rd R.KEY_CQHEAD.HEAD) % 0x10000 → exec (.keyCqtailWrite v) s = .next (s.raise R.KEY_INTSTAT.CQFULL)) ∧
    (∀ (v : Word) (u : State), (R.KEY_CQTAIL.TAIL.of v + 0x10000 - s.rd R.KEY_CQHEAD.HEAD) % 0x10000 ≤ s.cqSize → u = s.wr R.KEY_CQTAIL.TAIL (R.KEY_CQTAIL.TAIL.of v) →
      exec (.keyCqtailWrite v) s = .next (State.cqFront { u with key := { u.key with stopped := false } })) ∧
    (s.cqReady = false → ∀ c ∈ [Instr.keyHash, .keyHmac, .keyKdf, .keyGcmEnc, .keyGcmDec, .keySign, .keyVerify, .keyEcdh, .keyKeygen, .keyPubkey, .keyRandom,
      .keyWrap, .keyUnwrap, .keySeal, .keyUnseal, .keyReseal, .keyImport, .keyExtend, .keyDeclare, .keyAdopt, .keySetpol], exec c s = .next s) ∧
    (∀ r : Fetched, s.cqReady = true → r = s.fetch mEngine (s.cqAddr (s.rd R.KEY_CQHEAD.HEAD)) 64 → r.poison = none → numAt r.bytes 39 1 % 2 = 1 →
      ∀ p ∈ [(Instr.keyHash, 1, opHash), (.keyHmac, 2, opHmac), (.keyKdf, 3, opKdf), (.keyGcmEnc, 4, opGcmEnc), (.keyGcmDec, 5, opGcmDec), (.keySign, 6, opSign),
        (.keyVerify, 7, opVerify), (.keyEcdh, 8, opEcdh), (.keyKeygen, 9, opKeygen), (.keyPubkey, 10, opPubkey), (.keyRandom, 11, opRandom), (.keyWrap, 12, opWrap),
        (.keyUnwrap, 13, opUnwrap), (.keySeal, 14, opSeal), (.keyUnseal, 15, opUnseal), (.keyReseal, 16, opReseal), (.keyImport, 17, opImport), (.keyExtend, 18, opExtend),
        (.keyDeclare, 19, opDeclare), (.keyAdopt, 20, opAdopt), (.keySetpol, 21, opSetpol)],
      ∀ x (y : KeyInside), (KeyDesc.ofBytes r.bytes).op = p.2.1 → x = p.2.2 (KeyDesc.ofBytes r.bytes) r.st →
      y = { seq := s.rd R.KEY_CQHEAD.HEAD, keys := x.keys, status := x.status, dst := (KeyDesc.ofBytes r.bytes).dst, out := if x.status = ksOk then x.out else [], effect := if x.status = ksOk then x.effect else .none, rng := x.rng } →
      exec p.1 s = .next (({ x.st with key := { x.st.key with inside := some y } } : State).raise R.KEY_STAT.BUSY)) ∧
    (s.working .key = false → exec .keyOpComplete s = .next s) ∧
    (s.working .key = true → s.key.inside = none → exec .keyOpComplete s = .next s) ∧
    (∀ r : Fetched, s.cqReady = true → r = s.fetch mEngine (s.cqAddr (s.rd R.KEY_CQHEAD.HEAD)) 64 →
      ∀ p ∈ [(Instr.keyHash, 1), (.keyHmac, 2), (.keyKdf, 3), (.keyGcmEnc, 4), (.keyGcmDec, 5), (.keySign, 6), (.keyVerify, 7), (.keyEcdh, 8),
        (.keyKeygen, 9), (.keyPubkey, 10), (.keyRandom, 11), (.keyWrap, 12), (.keyUnwrap, 13), (.keySeal, 14), (.keyUnseal, 15), (.keyReseal, 16),
        (.keyImport, 17), (.keyExtend, 18), (.keyDeclare, 19), (.keyAdopt, 20), (.keySetpol, 21)],
      r.poison ≠ none ∨ numAt r.bytes 39 1 % 2 = 0 ∨ (KeyDesc.ofBytes r.bytes).op ≠ p.2 → exec p.1 s = .next r.st.cqFront) ∧
    (∀ x : KeyInside, (x.effect ≠ .adopt ∨ s.heldForSwitch = true → s.keyEnds x = x) ∧
      (x.effect = .adopt → s.heldForSwitch = false → s.keyEnds x = { x with status := ksNotHeld, effect := .none })) ∧
    (∀ (x i : KeyInside) (u v : State), s.working .key = true → s.key.inside = some x → i = s.keyEnds x →
      u = ({ s with key := { s.key with inside := none } } : State).clear R.KEY_STAT.BUSY → v = (u.write mEngine i.dst i.out).keyEffect i.effect →
      (i.status ≠ ksOk → i.status ≠ ksStaleGen → exec .keyOpComplete s = .next (u.cqEnd i.seq i.status none 0).cqFront) ∧
      (i.status = ksOk ∨ i.status = ksStaleGen → (∀ n y, i.effect ≠ .slot n y) →
        exec .keyOpComplete s = .next ((v.cqEnd i.seq i.status none i.out.length).cqFront)) ∧
      (∀ n y, i.status = ksOk ∨ i.status = ksStaleGen → i.effect = .slot n y →
        exec .keyOpComplete s = .next ((v.cqEnd i.seq i.status (some n) i.out.length).cqFront))) ∧
    (∀ d : KeyDesc, s.isLocked = true → (opExtend d s).status = ksLocked ∧ (opExtend d s).st = s ∧ (opSetpol d s).status = ksLocked ∧ (opSetpol d s).st = s) ∧
    (∀ d : KeyDesc, (s.heldForSwitch = false → (opAdopt d s).status = ksNotHeld) ∧ (s.heldForSwitch = true → s.on R.KEY_MSTAT.SUCCV = false → (opAdopt d s).status = ksNoSucc) ∧
      (s.heldForSwitch = true → s.on R.KEY_MSTAT.SUCCV = true → (opAdopt d s).status = ksOk ∧ (opAdopt d s).effect = .adopt)) ∧
    (∀ x : BitVec 256, (s.keyEffect (.measure x)).measM = sha256 (s.measM ++ bytesLE x.toNat 32) ∧ (s.keyEffect (.measure x)).mem = s.mem ∧
      (s.keyEffect (.measure x)).rd R.KEY_MSTAT.EXTENDS = min (s.rd R.KEY_MSTAT.EXTENDS + 1) (2 ^ R.KEY_MSTAT.EXTENDS.w - 1)) ∧
    (∀ x : BitVec 256, (s.keyEffect (.declare x)).measSucc = bytesLE x.toNat 32 ∧ (s.keyEffect (.declare x)).rd R.KEY_MSTAT.SUCCV = 1 ∧
      (s.keyEffect (.declare x)).measM = s.measM) ∧
    ((s.keyEffect .adopt).measM = s.measSucc ∧ (s.keyEffect .adopt).rd R.KEY_MSTAT.SUCCV = 0 ∧ (s.keyEffect .adopt).rd R.KEY_MSTAT.ADOPTED = 1)

/-- KEY_SESSION_ESTABLISH, KEY_SESSION_CRYPT, KEY_TENANT_HMAC, KEY_FABRIC_DERIVE, KEY_INVAL, KEY_ERASE, DRBG_RESEED and
ENTROPY_HEALTH_FAILURE (R409, R414, R415, R422 to R424): the ports do nothing outside RUN, and count a use of a usable root or
site key, or its refusal; INVAL of slot 1 and ERASE of slots 0 and 1 end with RESULT 2, of an empty slot with RESULT 1; INVAL
counts GEN up, and that of slot 0 slot 1's too (notes/assumptions/166), ERASE empties the slot and its descendants; a reseed
that passes makes the DRBG READY with its count 0, a failure takes it to ERROR. -/
def Obligations.key_ports_and_slots : Prop :=
  ∀ (s : State),
    (s.running .key = false → (∀ r, r.session < 512 → exec (.keySessionEstablish r) s = .next s) ∧ (∀ t d, t < 256 → exec (.keyTenantHmac t d) s = .next s) ∧
      ∀ r, exec (.keyFabricDerive r) s = .next s) ∧
    (∀ (r : KeyEstablish) (u : State) (a : KeyAns), r.session < 512 → s.rootUse = (a, u) → a ≠ .ok → exec (.keySessionEstablish r) s = .next u) ∧
    (∀ (r : KeyEstablish) (u v : State) (t : Tenant), r.session < 512 → s.rootUse = (.ok, u) → u.tenant r.tenant = (t, v) →
      exec (.keySessionEstablish r) s = .next (v.establish r.session r.tenant r.rights (v.tenantKey r.tenant t.gen) (bytesBE r.peer.toNat 64) r.context).2) ∧
    (∀ k d n, k < 512 → (∀ u, s.askUse k (.bare d n) = (true, u) → exec (.keySessionCrypt k d n) s = .next (u.keyCount ksOk)) ∧
      (∀ u, s.askUse k (.bare d n) = (false, u) → exec (.keySessionCrypt k d n) s = .next u)) ∧
    (∀ (c : Nat) (u : State), s.running .key = true → s.useSlot (s.rd R.GATE_CFG.KSLOT) = (c, u) → ∀ t d, t < 256 → exec (.keyTenantHmac t d) s = .next (u.keyCount c)) ∧
    (∀ (c : Nat) (u : State), s.running .key = true → s.useSlot (s.rd R.FAB_SEC.KSLOT) = (c, u) → ∀ r, exec (.keyFabricDerive r) s = .next (u.keyCount c)) ∧
    (∀ u : State, u = (s.wr R.KEY_SCMD.SLOT 1).wr R.KEY_SCMD.OP 1 → exec (.keyInval 1) s = .next (u.scmdDone 2)) ∧
    (∀ (n : Nat) (u : State), n < 64 → n ≠ 1 → u = (s.wr R.KEY_SCMD.SLOT n).wr R.KEY_SCMD.OP 1 → ((u.kslot n).kind = 0 → exec (.keyInval n) s = .next (u.scmdDone 1)) ∧
      ((u.kslot n).kind ≠ 0 → n ≠ 0 → ∀ v, v = u.raiseGen n →
        exec (.keyInval n) s = .next ((v.event 0x0C05 (unit := n) (val1 := (v.kslot n).gen)).scmdDone 0)) ∧
      ((u.kslot n).kind ≠ 0 → n = 0 → ∀ v w, v = u.raiseGen 0 → w = (if (v.kslot 1).kind ≠ 0 then v.raiseGen 1 else v) →
        exec (.keyInval n) s = .next ((w.event 0x0C05 (unit := 0) (val1 := (w.kslot 0).gen)).scmdDone 0))) ∧
    (∀ n, ((s.kslot n).gen < 0xFFFF → s.raiseGen n = (s.staleInside n).setKslot n { s.kslot n with gen := ((s.kslot n).gen + 1) % 2 ^ 16 }) ∧
      (0xFFFF ≤ (s.kslot n).gen → s.raiseGen n = ((s.staleInside n).each ((s.staleInside n).descendants n) fun v k => v.setKslot k {}).setKslot n
        { s.kslot n with gen := ((s.kslot n).gen + 1) % 2 ^ 16 })) ∧
    (∀ (n : Nat) (u : State), n < 64 → u = (s.wr R.KEY_SCMD.SLOT n).wr R.KEY_SCMD.OP 2 → (n < 2 → exec (.keyErase n) s = .next (u.scmdDone 2)) ∧
      (2 ≤ n → (u.kslot n).kind = 0 → exec (.keyErase n) s = .next (u.scmdDone 1)) ∧
      (2 ≤ n → (u.kslot n).kind ≠ 0 → exec (.keyErase n) s = .next
        ((((u.staleInside n).each (n :: (u.staleInside n).descendants n) fun v k => v.setKslot k {}).event 0x0C05 (unit := n) (val1 := 0)).scmdDone 0))) ∧
    (∃ t, exec (.drbgReseed true) s = .next t ∧ t.rd R.KEY_DRBG.STATE = drbgReady ∧ t.rd R.KEY_DRBG.RESEED = 0 ∧ t.rd R.KEY_DRBG_CNT.CNT = 0 ∧ t.mem = s.mem ∧
      ∀ a, a ≠ R.KEY_DRBG.addr → a ≠ R.KEY_DRBG_CNT.addr → t.reg a = s.reg a) ∧
    (exec (.drbgReseed false) s = .next (s.clear R.KEY_DRBG.RESEED).drbgFails ∧ exec .entropyHealthFailure s = .next s.drbgFails ∧
      s.drbgFails.rd R.KEY_DRBG.STATE = drbgError)

/-- TAMPER_ACK, ZEROIZE, TAMPER_LOOP_CONFIRM and ON_DIE_TAMPER (R425 to R429): an ACK while a source is active ends with RESULT 1
and clears nothing; another clears the latch and its sources; a source that fires latches, zeroizes and is recorded; a loop that
is not enabled, or was active already, fires nothing. The zeroize line empties every slot and session record. -/
def Obligations.tamper_response : Prop :=
  ∀ (s : State),
    (s.key.active ≠ 0 → exec .tamperAck s = .next (s.wr R.KEY_TAMP_CMD.RESULT 1)) ∧
    (s.key.active = 0 → ∃ t, exec .tamperAck s = .next t ∧ t.rd R.RTC_TLATCH.LATCH = 0 ∧ t.rd R.RTC_TLATCH.FIRED = 0 ∧ t.rd R.KEY_TAMP.LATCH = 0 ∧
      t.rd R.KEY_TAMP.FIRED = 0 ∧ t.rd R.KEY_TAMP_CMD.RESULT = 0 ∧ t.mem = s.mem ∧
      ∀ a, a ≠ R.RTC_TLATCH.addr → a ≠ R.KEY_TAMP.addr → a ≠ R.KEY_TAMP_CMD.addr → t.reg a = s.reg a) ∧
    (exec .zeroize s = .next (((s.latchTamper 6).zeroizeLine).event 0x0C03 (unit := 6)) ∧
      ∀ k, k < 3 → exec (.onDieTamper k) s = .next (((s.latchTamper (3 + k)).zeroizeLine).event 0x0C03 (unit := 3 + k))) ∧
    (∀ i b, i < 3 → (s.rtc.stopped = true → exec (.tamperLoopConfirm i b) s = .next s) ∧
      ∀ u, s.rtc.stopped = false →
        u = State.setActive { s with rtc := { s.rtc with loops := if b then s.rtc.loops ||| BitVec.ofNat 3 (2 ^ i) else s.rtc.loops &&& ~~~BitVec.ofNat 3 (2 ^ i) } } i
          (s.loopTampers i b) →
        (s.loopTampers i b = false ∨ s.key.active.getLsbD i = true → exec (.tamperLoopConfirm i b) s = .next u) ∧
        (s.loopTampers i b = true → s.key.active.getLsbD i = false → u.on R.RTC_STAT.ONMAIN = true → exec (.tamperLoopConfirm i b) s = .next (u.tamperFire i)) ∧
        (s.loopTampers i b = true → s.key.active.getLsbD i = false → u.on R.RTC_STAT.ONMAIN = false → exec (.tamperLoopConfirm i b) s = .next (u.latchTamper i))) ∧
    (s.zeroizeLine.key.slots = [] ∧ s.zeroizeLine.key.sessions = [] ∧ s.zeroizeLine.key.kPuf = none ∧ s.zeroizeLine.key.seed = 0 ∧ s.zeroizeLine.rd R.KEY_TAMP.ZEROED = 1)

/-- EVENT_POST, SW_POST, RECORD_WRITE, TAIL_WRITE and EVT_FLUSH (R438 to R441): a post of a source of Table 13-2 joins the end of
staging with the present MT, or is counted as dropped when 960 wait, one of a reserved source is refused (R435); a software post
with a source that its master may not use ends with RESULT 1, with staging full with RESULT 2, else it joins staging and RESULT
is 0; a record is taken oldest first, counted where its class suppresses it, dropped and counted where its words are bad; the
tail's oldest record is written to its slot; a flush writes the whole tail queue. EVT_CLEAR, TAIL_SCAN_COMPLETE and
EVT_OLDEST_READ (R443 to R445): a clear outside RUN or during the scan ends with RESULT 1; another takes every staged record,
makes FLOOR the next SEQ and TCLR the next tail index, writes the header and records EVT_CLEAR; the scan of a start sets the
next tail index and the next SEQ from the header and the valid slots, records EVT_START and ends SCAN, and outside SCAN nothing
happens; a read of EVT_OLDEST_LO latches OLDEST, NEXT and FLOOR of one instant and returns OLDEST bits [31:0]. -/
def Obligations.event_recorder : Prop :=
  ∀ (s : State),
    (∀ (e : EvtPost), evtSource (e.code / 256) = false → exec (.eventPost e) s = .next s) ∧
    (∀ (e : EvtPost), evtSource (e.code / 256) = true → s.evt.staging.length < 960 → ∃ t : State, exec (.eventPost e) s = .next t ∧
      t.evt.staging = s.evt.staging ++ [{ mt := s.mt, code := e.code, tenant := e.tenant, unit := e.unit, subj := e.subj, val1 := e.val1, val2 := e.val2, extra := e.extra, poison := e.poison }] ∧
      t.evt.dropped = s.evt.dropped ∧ t.rd R.EVT_STAGE.STAGED = (s.evt.staging.length + 1) % 2 ^ R.EVT_STAGE.STAGED.w ∧ t.mem = s.mem ∧
      ∀ a, a ≠ R.EVT_STAGE.addr → t.reg a = s.reg a) ∧
    (∀ (e : EvtPost), evtSource (e.code / 256) = true → 960 ≤ s.evt.staging.length → exec (.eventPost e) s =
      .next ((({ s with evt := { s.evt with dropped := s.evt.dropped + 1 } } : State).bump R.EVT_CNT_DROP.COUNT).raise R.EVT_INTSTAT.DROP)) ∧
    (∀ m, m < 17 → (mayPost m (s.rd (R.EVT_SW_HDR.CODE m) / 256) = false → exec (.swPost m) s = .next (s.wr (R.EVT_SW_GO.RESULT m) 1)) ∧
      (mayPost m (s.rd (R.EVT_SW_HDR.CODE m) / 256) = true → 960 ≤ s.evt.staging.length → exec (.swPost m) s = .next (s.wr (R.EVT_SW_GO.RESULT m) 2)) ∧
      (mayPost m (s.rd (R.EVT_SW_HDR.CODE m) / 256) = true → s.evt.staging.length < 960 → exec (.swPost m) s =
        .next ((s.post {
          mt := s.mt, code := s.rd (R.EVT_SW_HDR.CODE m), tenant := s.rd (R.EVT_SW_HDR.TENANT m), unit := s.rd (R.EVT_SW_UNIT.UNIT m)
          subj := s.rd (R.EVT_SW_ARG.ARG m 0), val1 := s.rd (R.EVT_SW_ARG.ARG m 1) + 2 ^ 32 * s.rd (R.EVT_SW_ARG.ARG m 2)
          val2 := s.rd (R.EVT_SW_ARG.ARG m 3) + 2 ^ 32 * s.rd (R.EVT_SW_ARG.ARG m 4)
          extra := s.rd (R.EVT_SW_ARG.ARG m 5) + 2 ^ 32 * s.rd (R.EVT_SW_ARG.ARG m 6) + 2 ^ 64 * s.rd (R.EVT_SW_ARG.ARG m 7) }).wr (R.EVT_SW_GO.RESULT m) 0))) ∧
    (s.evtReady = false → ∀ b, exec (.recordWrite b) s = .next s) ∧
    (s.evt.staging = [] → ∀ b, exec (.recordWrite b) s = .next s) ∧
    (∀ (r : EvtRec) (rest : List EvtRec) (u v : State), s.evtReady = true → s.evt.staging = r :: rest →
      v = ({ s with evt := { s.evt with staging := rest } } : State).wr R.EVT_STAGE.STAGED rest.length → u = v.overflow →
      (clsSuppress (u.classByte r.code) = true → alwaysKept r.code = false → exec (.recordWrite false) s = .next (u.bump R.EVT_CNT_SUPP.COUNT)) ∧
      (clsSuppress (u.classByte r.code) = false ∨ alwaysKept r.code = true → exec (.recordWrite false) s = .next (u.number r (u.classByte r.code))) ∧
      exec (.recordWrite true) s =
        .next (((({ v with evt := { v.evt with dropped := v.evt.dropped + 1 } } : State).bump R.EVT_CNT_DROP.COUNT).raise R.EVT_INTSTAT.DROP).overflow)) ∧
    (s.evt.tailQ = [] → exec .tailWrite s = .next s) ∧
    (∀ (tidx : Nat) (b : List Byte) (rest : List (Nat × List Byte)), s.evt.tailQ = (tidx, b) :: rest →
      exec .tailWrite s = .next (({ s with evt := { s.evt with tailQ := rest } } : State).write mEngine (s.tailSlot tidx) b)) ∧
    ((s.running .evt = true → exec .evtFlush s = .next (s.flushTail.evtCmdDone 2 0)) ∧ (s.running .evt = false → exec .evtFlush s = .next (s.evtCmdDone 2 1)) ∧
      s.flushTail.evt.tailQ = []) ∧
    (s.evtReady = false → exec .evtClear s = .next (s.evtCmdDone 1 1)) ∧
    (∀ u v w : State, s.evtReady = true → u = s.takeAll (s.evt.staging.length + 1) → v = { u with evt := { u.evt with floor := u.evt.seqAssign } } →
      w = (v.wr R.EVT_TFIRST.TCLR (v.rd R.EVT_TNEXT.TNEXT)).writeTailHeader →
      exec .evtClear s = .next (((w.direct 0x0D02).raise R.EVT_INTSTAT.CLEARED).evtCmdDone 1 0)) ∧
    (s.running .evt = false ∨ s.on R.EVT_STAT.SCAN = false → exec .tailScanComplete s = .next s) ∧
    (s.running .evt = true → s.on R.EVT_STAT.SCAN = true → ∃ t : State, exec .tailScanComplete s = .next t ∧ t.rd R.EVT_STAT.SCAN = 0 ∧
      t.rd R.EVT_INTSTAT.SCANDONE = 1 ∧
      (s.tailEntries = [] → s.tailHeader.best s = none → ∃ u v : State,
        u = (({ (s.wr R.EVT_TNEXT.TNEXT 0).wr R.EVT_TFIRST.TCLR 0 with evt := { s.evt with seqAssign := 1, next := 1, base := 1, floor := 0, seqRes := 1 + 65536, scanned := true } } : State).wrb
          R.EVT_STAT.HDRBAD true).writeTailHeader ∧
        v = u.bumpBy R.EVT_CNT_TAILBAD.COUNT 0 ∧ t = ((v.direct 0x0D00 (val2 := 1)).clear R.EVT_STAT.SCAN).raise R.EVT_INTSTAT.SCANDONE)) ∧
    (∀ (b : List Byte) (ts : List Nat) (hi span gaps tnext : Nat) (u v : State), s.running .evt = true → s.on R.EVT_STAT.SCAN = true →
      s.tailHeader.best s = some b → ts = s.tailEntries.map (·.1) → hi = ts.foldl max 0 → span = min (hi + 1 - ts.foldl min hi) 32768 →
      gaps = (if s.tailEntries.isEmpty then 0 else span - ts.length) → tnext = (if s.tailEntries.isEmpty then numAt b 12 4 else hi + 1) →
      u = (({ (s.wr R.EVT_TNEXT.TNEXT tnext).wr R.EVT_TFIRST.TCLR (numAt b 12 4) with
        evt := { s.evt with seqAssign := numAt b 16 8, next := numAt b 16 8, base := numAt b 16 8, floor := numAt b 24 8, seqRes := numAt b 16 8 + 65536, scanned := true } } : State).wrb
        R.EVT_STAT.HDRBAD false).writeTailHeader →
      v = (u.bumpBy R.EVT_CNT_TAILBAD.COUNT gaps).direct 0x0D00 (val1 := (s.tailEntries.map (·.2)).foldl max 0)
        (extra := gaps % 2 ^ 32 + 2 ^ 32 * tnext) →
      exec .tailScanComplete s = .next (((if gaps = 0 then v else
        v.direct 0x0D03 (subj := firstGap (ts.map (· % 32768)) (hi + 1 - span) (ts.length + 1)) (val1 := gaps)).clear R.EVT_STAT.SCAN).raise
        R.EVT_INTSTAT.SCANDONE)) ∧
    (∃ t : State, exec .evtOldestRead s = .next t ∧ t.busRead.toNat = s.evtOldest % 2 ^ 32 ∧ t.mem = s.mem ∧ t.evt = s.evt ∧
      ∀ a, a ≠ R.EVT_OLDEST_LO.addr → a ≠ R.EVT_OLDEST_HI.addr → a ≠ R.EVT_NEXT_LO.addr → a ≠ R.EVT_NEXT_HI.addr → a ≠ R.EVT_FLOOR_LO.addr → a ≠ R.EVT_FLOOR_HI.addr →
        t.reg a = s.reg a)

/-- FANTAIL_SEND, FANTAIL_RECEIVED, PATH_LOSS, PARTNER_LOSS and ELECT_TIMEOUT (R452, R453, R464): a solo module, or one with no
partner, sends none and takes none; one that names another node or safety node is dropped; a valid one is counted on its path
and shows its node and epoch; each row of Table 14-1 follows; a path that is up is lost LOSS × HB after its last Fantail, the
standby takes over and the active module reports its partner lost LOSS × HB after both, a Fantail of the same FAB cycle, just
before or next in the queue, making the expiry void (R465); in any other state neither timer runs; an election that times out
takes over. PAIR_SWITCHOVER, PAIR_RESYNC and PAIR_DEMOTE (R452, R469, R473): a switchover of a module that is not ACTIVE, whose
partner is not READY, that is withheld or has a switch point armed ends with NOTREADY; else a switch point lies one HB ahead,
armed, with SWPEND; while GO reads 1 the three commands are ignored; a standby asks for a base copy; an ACTIVE module demotes;
in another role both end with ROLE. A demotion leaves the role DEMOTED with DEMOTE raised. -/
def Obligations.fantails_and_roles : Prop :=
  ∀ (s : State),
    (s.role = roleSolo ∨ s.partnerValid = false → exec .fantailSend s = .next s) ∧
    (s.role ≠ roleSolo → s.partnerValid = true → exec .fantailSend s = .next ((s.advance (s.pair.lastBeat + s.hbNs)).p4Offer.sendFantail false)) ∧
    (∀ (p : Bool) (f : Fantail) (u : State), u = s.takePair p tyFantail f.node (f.bytes (if p then 0 else 1)) →
      (u.role = roleSolo ∨ u.partnerValid = false ∨ f.node ≠ u.rd R.PAIR_CFG.PNODE ∨ f.snode ≠ u.rd R.PAIR_SNODE.SNODE → exec (.fantailReceived p f) s = .next u) ∧
      (u.role ≠ roleSolo → u.partnerValid = true → f.node = u.rd R.PAIR_CFG.PNODE → f.snode = u.rd R.PAIR_SNODE.SNODE →
        exec (.fantailReceived p f) s = .next ((u.noteFantail p f).roleFantail f))) ∧
    (∀ f : Fantail, (s.role = roleElecting → f.role = roleActive → s.roleFantail f = s.toStandby.pairEvent 0x0E01) ∧
      (s.role = roleElecting → f.role = roleElecting → s.wins f = false → s.roleFantail f = s.toStandby.pairEvent 0x0E01) ∧
      (s.role = roleElecting → f.role = roleElecting → s.wins f = true → s.takeOver.1 = true → s.roleFantail f = s.takeOver.2.pairEvent 0x0E00) ∧
      (s.role = roleElecting → f.role = roleElecting → s.wins f = true → s.takeOver.1 = false → s.roleFantail f = s.takeOver.2) ∧
      (s.role = roleStandby → f.handoff = true → s.roleFantail f = s.standbyTakesOver) ∧
      (s.role = roleElecting → f.role ≠ roleActive → f.role ≠ roleElecting → s.roleFantail f = s) ∧
      (s.role = roleStandby → f.handoff = false → f.role ≠ roleActive ∨ s.on R.PAIR_STAT.CFGMIS = false → s.roleFantail f = s) ∧
      (s.role = roleStandby → f.handoff = false → f.role = roleActive → s.on R.PAIR_STAT.CFGMIS = true → s.roleFantail f = s.needSync) ∧
      (s.role = roleActive → f.role = roleStandby → f.needsync = true → s.roleFantail f = s.startBase) ∧
      (s.role = roleActive → f.role = roleActive → s.rd R.PAIR_EPOCH.EPOCH < f.epoch → s.roleFantail f = s.pairDemote) ∧
      (s.role = roleActive → f.role = roleActive → f.epoch ≤ s.rd R.PAIR_EPOCH.EPOCH → s.roleFantail f = s) ∧
      (s.role = roleDemoted → f.role = roleActive → s.roleFantail f = s.toStandby)) ∧
    (∀ (p : Bool) (b : Nat) (l : State → State), b = (if p then 0 else 1) →
      (∀ u, l u = ((u.clear (if p then R.PAIR_STAT.P4OK else R.PAIR_STAT.FABOK)).raise R.PAIR_INTSTAT.PATHLOSS).pairEvent 0x0E04) →
      (s.pair.void.getLsbD b = true → exec (.pathLoss p) s = .next { s with pair := { s.pair with void := s.pair.void &&& ~~~(1#3 <<< b) } }) ∧
      (s.pair.void.getLsbD b = false → s.pathExpiry p = none → exec (.pathLoss p) s = .next s) ∧
      ∀ t, s.pair.void.getLsbD b = false → s.pathExpiry p = some t →
        (s.fantailNext = none → exec (.pathLoss p) s = .next (l (s.advance t))) ∧
        (∀ q f, s.fantailNext = some (q, f) → (q ≠ p → exec (.pathLoss p) s = .next (l (s.advance t))) ∧
          (q = p → exec (.pathLoss p) s = .next ((s.advance t).heardNow q f)))) ∧
    (∀ p, (s.on (if p then R.PAIR_STAT.P4OK else R.PAIR_STAT.FABOK) = false ∨ (if p then s.pair.heardP4 else s.pair.heardFab) = none → s.pathExpiry p = none) ∧
      ∀ t, s.on (if p then R.PAIR_STAT.P4OK else R.PAIR_STAT.FABOK) = true → (if p then s.pair.heardP4 else s.pair.heardFab) = some t →
        s.pathExpiry p = some (t + s.lossNs)) ∧
    (∀ (t : Nat) (l : State → State), (∀ u : State, l u = if u.role = roleStandby then u.standbyTakesOver else u.partnerLost) →
      (s.pair.void.getLsbD 2 = true → exec .partnerLoss s = .next { s with pair := { s.pair with void := s.pair.void &&& ~~~(1#3 <<< 2) } }) ∧
      (s.pair.void.getLsbD 2 = false → s.role ≠ roleStandby → s.role ≠ roleActive ∨ s.pair.silent = true → exec .partnerLoss s = .next s) ∧
      (s.pair.void.getLsbD 2 = false → (s.role = roleStandby ∧ t = s.lastActive + s.lossNs) ∨ (s.role = roleActive ∧ s.pair.silent = false ∧ t = s.lastHeard + s.lossNs) →
        (s.fantailNext = none → exec .partnerLoss s = .next (l (s.advance t))) ∧
        (∀ q f, s.fantailNext = some (q, f) → (s.stopsLoss f = false → exec .partnerLoss s = .next (l (s.advance t))) ∧
          (s.stopsLoss f = true → exec .partnerLoss s = .next ((s.advance t).heardNow q f))))) ∧
    (∀ u : Bool × State, s.role = roleElecting → s.partnerValid = true → u = (s.advance (s.lastHeard + ms * s.rd R.PAIR_FTL.ELECT_MS)).takeOver →
      (u.1 = true → exec .electTimeout s = .next u.2.partnerLost) ∧ (u.1 = false → exec .electTimeout s = .next u.2)) ∧
    ((s.role = roleElecting → s.partnerValid = false → exec .electTimeout s = .next s) ∧
      (s.role ≠ roleElecting → s.role ≠ roleDemoted → exec .electTimeout s = .next s) ∧
      (s.role = roleDemoted → exec .electTimeout s = .next ((s.advance (s.lastActive + ms * s.rd R.PAIR_FTL.ELECT_MS)).setRole roleElecting))) ∧
    (s.starting = true ∨ s.nextEpoch ≤ 0xFFFFFFFF → s.takeOver.1 = true) ∧
    (s.on R.PAIR_CMD.GO = true → ∀ c ∈ [Instr.pairSwitchover, .pairResync, .pairDemote], exec c s = .next s) ∧
    (∀ u : State, s.on R.PAIR_CMD.GO = false → u = s.wr R.PAIR_CMD.OP 1 → (u.role ≠ roleActive ∨ u.withheld = true ∨ u.on R.SCH_SWP_CMD.ARM = true ∨ u.pair.partner = none →
        exec .pairSwitchover s = .next (u.pairDone prNotready)) ∧
      ∀ f, u.pair.partner = some f → (f.ready = false ∨ f.role ≠ roleStandby → exec .pairSwitchover s = .next (u.pairDone prNotready)) ∧
        (u.role = roleActive → f.ready = true → f.role = roleStandby → u.withheld = false → u.on R.SCH_SWP_CMD.ARM = false → exec .pairSwitchover s =
          .next (((((u.wr64 R.SCH_SWP_LO.addr R.SCH_SWP_HI.addr (u.mtNs + u.hbNs)).raise R.PAIR_CMD.GO).raise R.PAIR_STAT.SWPEND).armSwitch).atHeld))) ∧
    (∀ u : State, s.on R.PAIR_CMD.GO = false → u = s.wr R.PAIR_CMD.OP 2 → (u.role = roleStandby → exec .pairResync s = .next ((u.raise R.PAIR_STAT.NEEDSYNC).pairDone prOk)) ∧
      (u.role ≠ roleStandby → exec .pairResync s = .next (u.pairDone prRole))) ∧
    (∀ u : State, s.on R.PAIR_CMD.GO = false → u = s.wr R.PAIR_CMD.OP 3 → (u.role = roleActive → exec .pairDemote s = .next (u.pairDemote.pairDone prOk)) ∧
      (u.role ≠ roleActive → exec .pairDemote s = .next (u.pairDone prRole))) ∧
    (s.role = roleActive → s.pairDemote.role = roleDemoted ∧ s.pairDemote.rd R.PAIR_INTSTAT.DEMOTE = 1)

/-- MIRROR_SEND, MIRROR_RECEIVED, LOOP_STATE_SYNC and P4_FRAME_RECEIVED (R458 to R461): nothing is sent while the channel is not
ready; the oldest queued batch is sent, or halted by the poison in it; only a standby takes a mirror frame; one of another
configuration sets CFGMIS and asks for a base copy; frames of a batch are joined in order and a complete one is applied; one out
of order asks for a base copy; only an ACTIVE module sweeps its loop states; a frame on P4 whose link is down is not received;
one for this node with TTL 1 is a KEYX, or, under the SA, a FANTAIL or MIRROR that waits for the pair block; any other is
discarded and counted. -/
def Obligations.mirroring : Prop :=
  ∀ (s : State),
    (s.mirrorReady = false → exec .mirrorSend s = .next s) ∧
    (∀ (b : MirBatch) (rest : List MirBatch), s.mirrorReady = true → s.pair.queue = b :: rest →
      exec .mirrorSend s = .next (State.sendBatch { s with pair := { s.pair with queue := rest } } b)) ∧
    (∀ (b : MirBatch) (a : Nat), b.poisonAt = some a → s.sendBatch b =
      ((State.egressHalt { s with pair := { s.pair with halted := some b } } 2 0 a).raise R.PAIR_INTSTAT.MIRLOST).toFault .mch 1) ∧
    (s.mirrorReady = true → s.pair.queue = [] → exec .mirrorSend s = .next s.sendBase.sendQueued) ∧
    (∀ (f : MirFrame) (u : State), u = (s.takePair true tyMirror 0 f.bytes).takePair false tyMirror (s.rd R.PAIR_CFG.PNODE) f.bytes →
      (u.role ≠ roleStandby → exec (.mirrorReceived f) s = .next u) ∧
      (u.role = roleStandby → f.cfgid ≠ u.rd R.PAIR_CFGID.CFGID → exec (.mirrorReceived f) s =
        .next (State.setCfgmis { u with pair := { u.pair with rxFrames := [], rxNext := some ((f.mseq + 1) % 2 ^ 32) } }).mirGap) ∧
      (u.role = roleStandby → f.cfgid = u.rd R.PAIR_CFGID.CFGID → f.frag = 0 → u.pair.rxFrames = [] → u.pair.rxNext = some f.mseq → f.last = true →
        exec (.mirrorReceived f) s = .next (State.mirApply { u with pair := { u.pair with rxFrames := [], rxNext := some ((f.mseq + 1) % 2 ^ 32) } } [f])) ∧
      (u.role = roleStandby → f.cfgid = u.rd R.PAIR_CFGID.CFGID → f.frag ≠ 0 → u.pair.rxFrames.length ≠ f.frag →
        exec (.mirrorReceived f) s = .next (State.mirGap { u with pair := { u.pair with rxFrames := [], rxNext := some ((f.mseq + 1) % 2 ^ 32) } })) ∧
      (u.role = roleStandby → f.cfgid = u.rd R.PAIR_CFGID.CFGID → f.frag = 0 → u.pair.rxFrames = [] → u.pair.rxNext = none ∨ u.pair.rxNext = some f.mseq →
        f.last = false →
        exec (.mirrorReceived f) s = .next { u with pair := { u.pair with rxFrames := [f], rxNext := some ((f.mseq + 1) % 2 ^ 32) } }) ∧
      (u.role = roleStandby → f.cfgid = u.rd R.PAIR_CFGID.CFGID → f.frag ≠ 0 → u.pair.rxFrames ≠ [] → u.pair.rxFrames.length = f.frag →
        (u.pair.rxFrames.all (·.mseq == f.mseq)) = true → (f.last = false → exec (.mirrorReceived f) s =
          .next { u with pair := { u.pair with rxFrames := u.pair.rxFrames ++ [f], rxNext := some ((f.mseq + 1) % 2 ^ 32) } }) ∧
        (f.last = true → exec (.mirrorReceived f) s = .next (State.mirApply
          { u with pair := { u.pair with rxFrames := [], rxNext := some ((f.mseq + 1) % 2 ^ 32) } } (u.pair.rxFrames ++ [f]))))) ∧
    ((s.role ≠ roleActive → exec .loopStateSync s = .next s) ∧
      ∀ u : State, s.role = roleActive → u = s.advance (s.pair.lsyncAt + ms * s.rd R.PAIR_LSYNC.LSYNC_MS) →
        exec .loopStateSync s = .next (State.loopSweep { u with pair := { u.pair with lsyncAt := u.now } })) ∧
    (∀ f : Leat, s.pair.p4Link = false → exec (.p4FrameReceived f) s = .next s) ∧
    (∀ f : Leat, s.pair.p4Link = true → (f.dst ≠ s.rd R.FAB_NODE.CFG ∨ f.ttl ≠ 1 ∨ headerOk f = false → exec (.p4FrameReceived f) s = .next (s.bump R.PAIR_CNT_P4DISC.COUNT)) ∧
      (f.dst = s.rd R.FAB_NODE.CFG → f.ttl = 1 → headerOk f = true → f.typ = tyKeyx → exec (.p4FrameReceived f) s = .next (s.p4KeyxIn f)) ∧
      (f.dst = s.rd R.FAB_NODE.CFG → f.ttl = 1 → headerOk f = true → f.typ = tyFantail ∨ f.typ = tyMirror → s.p4Up = true →
        exec (.p4FrameReceived f) s = .next { s with pair := { s.pair with p4In := s.pair.p4In ++ [f] } }) ∧
      (f.dst = s.rd R.FAB_NODE.CFG → f.ttl = 1 → headerOk f = true → f.typ = tyFantail ∨ f.typ = tyMirror → s.p4Up = false →
        exec (.p4FrameReceived f) s = .next (s.bump R.PAIR_CNT_P4DISC.COUNT)) ∧
      (f.dst = s.rd R.FAB_NODE.CFG → f.ttl = 1 → headerOk f = true → f.typ ≠ tyKeyx → f.typ ≠ tyFantail → f.typ ≠ tyMirror →
        exec (.p4FrameReceived f) s = .next (s.bump R.PAIR_CNT_P4DISC.COUNT)))

/-- BULK_OPEN, BULK_DATA, BULK_BLOCK_PROGRAMMED, BULK_END, BULK_ABORT, TRANSFER_TIMEOUT, FLASH_ERASE_COMPLETE and VERIFY_COMPLETE
(R482 to R484): an OPEN that may not be accepted is answered with its code; a message of another kind, and but for OPEN one of
another source or XID than the transfer's, is taken and ignored; an accepted one starts the erase of the slot that is not
running, which becomes RECEIVING; DATA in offset order is buffered, other DATA is answered with the offset expected; a block
that fails its CRC, its programming or its read ends the transfer with the stated code and slot state; an END with data missing
is answered with the offset expected; ABORT and ten seconds of silence drop the transfer; a verification's result goes to who
asked for it. -/
def Obligations.update_transfers : Prop :=
  ∀ (s : State),
    (∀ (src : Nat) (x : BulkMsg) (u : State), u = s.takeInbox tyBulk src x.bytes →
      (u.running .upd = false ∨ x.kind ≠ 1 → exec (.bulkOpen src x) s = .next u) ∧
      (u.running .upd = true → x.kind = 1 → u.openCode x.size ≠ ucOk → exec (.bulkOpen src x) s =
        .next (u.bulkAnswer src { kind := 2, xid := x.xid, status := u.openCode x.size })) ∧
      (∀ v : State, u.running .upd = true → x.kind = 1 → u.openCode x.size = ucOk → v = (u.setSlot (1 - u.runSlot) slReceiving).bump R.UPD_CNT_BULKRX.COUNT →
        exec (.bulkOpen src x) s = .next ((((State.wr { v with upd := { v.upd with
            xfer := some { src := src, xid := x.xid, slot := 1 - u.runSlot, blen := x.size, lastData := u.now }
            erase := some { slot := 1 - u.runSlot, forOpen := true } } } R.UPD_XFER.XID x.xid).wr R.UPD_XFER.SRC src).wr R.UPD_XOFS.OFS 0).raise R.UPD_STAT.XFER))) ∧
    (∀ (src : Nat) (x : BulkMsg) (y : UpdXfer) (u : State), u = s.takeInbox tyBulk src x.bytes →
      u.running .upd = true → u.upd.xfer = some y → y.src = src → y.xid = x.xid →
      (x.kind = 3 → y.takes x = true → exec (.bulkData src x) s = .next (State.bump { u with upd := { u.upd with
          xfer := some { y with buf := y.buf ++ x.data, expected := y.expected + x.size, lastData := u.now } } } R.UPD_CNT_BULKRX.COUNT)) ∧
      (x.kind = 3 → y.takes x = false → exec (.bulkData src x) s = .next (State.bulkAnswer { u with upd := { u.upd with
          xfer := some { y with lastData := u.now } } } src { kind := 4, xid := x.xid, offset := y.expected })) ∧
      (x.kind = 5 → y.expected < y.blen → exec (.bulkEnd src x) s = .next (u.bulkAnswer src { kind := 4, xid := x.xid, offset := y.expected })) ∧
      (x.kind = 5 → y.blen ≤ y.expected → (y.programmed ≠ y.blen ∨ y.ended = true) → exec (.bulkEnd src x) s =
        .next (State.bump { u with upd := { u.upd with xfer := some { y with ended := true } } } R.UPD_CNT_BULKRX.COUNT)) ∧
      (x.kind = 5 → y.blen ≤ y.expected → y.programmed = y.blen → y.ended = false → exec (.bulkEnd src x) s =
        .next ((State.bump { u with upd := { u.upd with xfer := some { y with ended := true } } } R.UPD_CNT_BULKRX.COUNT).startVerify y.slot)) ∧
      (x.kind = 7 → exec (.bulkAbort src x) s = .next ((u.bump R.UPD_CNT_BULKRX.COUNT).dropXfer y slEmpty none))) ∧
    (∀ (src : Nat) (x : BulkMsg) (u : State), u = s.takeInbox tyBulk src x.bytes →
      ∀ c ∈ [(Instr.bulkData src x, 3), (.bulkEnd src x, 5), (.bulkAbort src x, 7)],
      u.running .upd = false ∨ x.kind ≠ c.2 ∨ u.upd.xfer = none ∨ (∃ y, u.upd.xfer = some y ∧ (y.src ≠ src ∨ y.xid ≠ x.xid)) → exec c.1 s = .next u) ∧
    (∀ (r : FlashEnd) (y : UpdXfer) (data : List Byte), s.upd.xfer = some y → y.block = some data →
      (s.working .upd = false → exec (.bulkBlockProgrammed r) s = .next s) ∧
      (s.working .upd = true → s.blockCheck y data ≠ ucOk → exec (.bulkBlockProgrammed r) s =
        .next ((s.bump R.UPD_CNT_CRCERR.COUNT).dropXfer y slBad (some (s.blockCheck y data)))) ∧
      (s.working .upd = true → s.blockCheck y data = ucOk → r = .ok → exec (.bulkBlockProgrammed r) s = .next (s.blockDone y data)) ∧
      (s.working .upd = true → s.blockCheck y data = ucOk → r = .failed → exec (.bulkBlockProgrammed r) s =
        .next (((s.wr R.UPD_FADDR.FADDR y.flashOffset).updFail 2).dropXfer y slEmpty (some ucFlash))) ∧
      (∀ a, s.working .upd = true → s.blockCheck y data = ucOk → r = .poison a → exec (.bulkBlockProgrammed r) s =
        .next (((s.egressHalt 6 0 a).updFail 1).dropXfer y slEmpty (some ucPoison)))) ∧
    (∀ (r : FlashEnd) (y : UpdXfer), s.upd.xfer = some y → y.block = none → exec (.bulkBlockProgrammed r) s = .next s) ∧
    (s.upd.xfer = none → (∀ r, exec (.bulkBlockProgrammed r) s = .next s) ∧ exec .transferTimeout s = .next s) ∧
    (∀ y : UpdXfer, s.upd.xfer = some y → (y.ended = true → exec .transferTimeout s = .next s) ∧
      (y.ended = false → exec .transferTimeout s = .next ((s.advance (y.lastData + 10 * sec)).dropXfer y slEmpty none))) ∧
    (∀ b, (s.upd.erase = none → exec (.flashEraseComplete b) s = .next s) ∧ (s.running .upd = false → exec (.flashEraseComplete b) s = .next s)) ∧
    (∀ (e : UpdErase) (u : State), s.running .upd = true → s.upd.erase = some e →
      u = State.unlist { s with upd := { s.upd with erase := none } } (slotBase e.slot) slotSize →
      (e.forOpen = false → exec (.flashEraseComplete true) s = .next (u.updDone ucOk)) ∧
      (∀ y : UpdXfer, e.forOpen = true → u.upd.xfer = some y → exec (.flashEraseComplete true) s =
        .next (State.bulkAnswer { u with upd := { u.upd with xfer := some { y with opened := true } } } y.src { kind := 2, xid := y.xid, status := ucOk })) ∧
      (e.forOpen = false → exec (.flashEraseComplete false) s =
        .next (((State.wr { s with upd := { s.upd with erase := none } } R.UPD_FADDR.FADDR (slotBase e.slot - norBase)).updFail 2).updDone ucFlash)) ∧
      (∀ v : State, e.forOpen = true → v = (State.wr { s with upd := { s.upd with erase := none } } R.UPD_FADDR.FADDR (slotBase e.slot - norBase)).updFail 2 →
        (v.upd.xfer = none → exec (.flashEraseComplete false) s = .next v) ∧
        (∀ y : UpdXfer, v.upd.xfer = some y → exec (.flashEraseComplete false) s = .next (v.dropXfer y slEmpty (some ucFlash)))) ∧
      (e.forOpen = true → u.upd.xfer = none → exec (.flashEraseComplete true) s = .next u)) ∧
    ((s.upd.verifying = none ∨ s.running .upd = false → exec .verifyComplete s = .next s) ∧
      ∀ (k r : Nat) (u : State), s.running .upd = true → s.upd.verifying = some k → State.verifySlot { s with upd := { s.upd with verifying := none } } k = (r, u) →
        (u.upd.xfer = none → exec .verifyComplete s = .next (u.updDone r)) ∧
        (∀ y : UpdXfer, u.upd.xfer = some y → exec .verifyComplete s = .next (u.bulkAnswer y.src { kind := 6, xid := y.xid, status := r }).endXfer))

/-- UPD_ERASE, UPD_VERIFY, UPD_STAGE, UPD_UNSTAGE, UPD_ACTIVATE, UPD_CONFIRM, UPD_RECOVER, UPD_COMMIT, UPD_ABORT, STAGE_COMPLETE,
MIGRATION_COMPLETE and HOLDMAX_EXPIRY (R486 to R496): a command issued while one runs is ignored; outside RUN (the model's
reading, notes/assumptions/45), or where its own condition of Table 15-8 or of the phase fails, it ends with STATE; else GO is
set and it has its effect. The migration step takes the phase from HOLD to READY; HOLDMAX aborts a handover before COMMIT and
resets the module in COMMIT. -/
def Obligations.update_commands : Prop :=
  ∀ (s : State),
    (s.updBusy = true → (∀ k, k < 2 → exec (.updErase k) s = .next s ∧ exec (.updVerify k) s = .next s ∧ exec (.updStage k) s = .next s ∧
      exec (.updActivate k) s = .next s ∧ exec (.updConfirm k) s = .next s) ∧ exec .updUnstage s = .next s ∧ exec .updRecover s = .next s ∧
      exec .updCommit s = .next s ∧ exec .updAbort s = .next s) ∧
    (∀ (k : Nat) (r : Nat → State), k < 2 → s.updBusy = false → (∀ op, r op = (s.wr R.UPD_CMD.OP op).wr R.UPD_CMD.SLOT k) →
      (s.mayErase k = false ∨ s.upd.erase ≠ none → exec (.updErase k) s = .next ((r 1).updDone ucState)) ∧
      (s.upd.verifying ≠ none ∨ (s.slotState k ≠ slReceived ∧ (s.slotState k ≠ slEmpty ∨ s.slotData k = false)) → exec (.updVerify k) s = .next ((r 2).updDone ucState)) ∧
      (s.slotState k ≠ slVerified ∨ s.rd R.UPD_PHASE.PHASE ≠ phIdle → exec (.updStage k) s = .next ((r 3).updDone ucState)) ∧
      (s.slotState k ≠ slVerified → exec (.updActivate k) s = .next ((r 5).updDone ucState)) ∧
      (k ≠ s.runSlot ∨ s.slotState k ≠ slTrial → exec (.updConfirm k) s = .next ((r 6).updDone ucState))) ∧
    (∀ (k : Nat) (u : Nat → State), k < 2 → s.updBusy = false → (∀ op, u op = ((s.wr R.UPD_CMD.OP op).wr R.UPD_CMD.SLOT k).raise R.UPD_CMD.GO) → s.running .upd = true →
      (s.mayErase k = true → s.upd.erase = none → ∀ t : State, t = (u 1).setSlot k slEmpty →
        exec (.updErase k) s = .next { t with upd := { (u 1).upd with job := some .erase, erase := some { slot := k, forOpen := false } } }) ∧
      (s.slotState k = slReceived ∨ (s.slotState k = slEmpty ∧ s.slotData k = true) → s.upd.verifying = none →
        exec (.updVerify k) s = .next { u 2 with upd := { s.upd with job := some .verify, verifying := some k } }) ∧
      (s.slotState k = slVerified → s.rd R.UPD_PHASE.PHASE = phIdle → exec (.updStage k) s = .next { u 3 with upd := { s.upd with job := some .stage, staged := k } }) ∧
      (s.slotState k = slVerified → exec (.updActivate k) s = .next (((u 5).makeTrial k).updDone ucOk)) ∧
      (k = s.runSlot → s.slotState k = slTrial → exec (.updConfirm k) s = .next (((u 6).confirmSlot k).updDone ucOk))) ∧
    (∀ (u : Nat → State) (p : Nat), s.updBusy = false → (∀ op, u op = ((s.wr R.UPD_CMD.OP op).wr R.UPD_CMD.SLOT (s.rd R.UPD_CMD.SLOT)).raise R.UPD_CMD.GO) →
      s.running .upd = true → p = s.rd R.UPD_PHASE.PHASE →
      (p = phStaged → exec .updUnstage s = .next (((((u 4).unpin (u 4 |>.rd R.IMG_LBANK.NEXT)).unstageBays).wr R.UPD_PHASE.PHASE phIdle).updDone ucOk)) ∧
      exec .updRecover s = .next ((((u 7).putBoot { (u 7).boot with recovery := true }).event 0x0F07 (unit := (u 7).boot.act)).updDone ucOk) ∧
      (p = phReady → (∀ t, s.upd.holdEnds = some t → s.now / 4 < t / 4) → exec .updCommit s = .next ((u 8).commitPhase s.upd.staged)) ∧
      (p = phArmed → exec .updAbort s = .next ((u 9).cancelSwitch.updDone ucOk)) ∧
      (p = phHold ∨ p = phReady → exec .updAbort s = .next ((u 9).updAbort.updDone ucOk))) ∧
    (∀ (u : Nat → State) (p : Nat), s.updBusy = false → (∀ op, u op = (s.wr R.UPD_CMD.OP op).wr R.UPD_CMD.SLOT (s.rd R.UPD_CMD.SLOT)) → p = s.rd R.UPD_PHASE.PHASE →
      (p ≠ phStaged → exec .updUnstage s = .next ((u 4).updDone ucState)) ∧ (p ≠ phReady ∨ s.holdLeft = false → exec .updCommit s = .next ((u 8).updDone ucState)) ∧
      (p ≠ phArmed → p ≠ phHold → p ≠ phReady → exec .updAbort s = .next ((u 9).updDone ucState))) ∧
    (∀ (k : Nat) (r : Nat → State), k < 2 → s.updBusy = false → s.running .upd = false → (∀ op, r op = (s.wr R.UPD_CMD.OP op).wr R.UPD_CMD.SLOT k) →
      ∀ c ∈ [(Instr.updErase k, 1), (.updVerify k, 2), (.updStage k, 3), (.updActivate k, 5), (.updConfirm k, 6)], exec c.1 s = .next ((r c.2).updDone ucState)) ∧
    (∀ u : Nat → State, s.updBusy = false → s.running .upd = false → (∀ op, u op = (s.wr R.UPD_CMD.OP op).wr R.UPD_CMD.SLOT (s.rd R.UPD_CMD.SLOT)) →
      ∀ c ∈ [(Instr.updUnstage, 4), (.updRecover, 7), (.updCommit, 8), (.updAbort, 9)], exec c.1 s = .next ((u c.2).updDone ucState)) ∧
    ((s.running .upd = false ∨ s.upd.job ≠ some .stage → exec .stageComplete s = .next s) ∧
      (s.running .upd = true → s.upd.job = some .stage → s.checkStage s.upd.staged ≠ ucOk → exec .stageComplete s = .next (s.updDone (s.checkStage s.upd.staged)))) ∧
    (∀ (k : Nat) (ps : List Part), s.running .upd = true → s.upd.job = some .stage → k = s.upd.staged → s.checkStage k = ucOk →
      ps = (s.manifest k).parts.filter (fun p => p.typ == 2 || p.typ == 4) →
      ((∃ p ∈ ps, s.digestOk k p = false) → exec .stageComplete s =
        .next ((((s.wr (R.UPD_SLOT_STAT.RESULT k) ucDigest).setSlot k slBad).event 0x0F01 (unit := k) (val1 := ucDigest)).updDone ucDigest)) ∧
      ((∀ p ∈ ps, s.digestOk k p = true) → ∀ (b : Nat) (u v w : State), u = s.each ps (fun s p => s.stagePart k p) → b = 1 - u.rd R.IMG_LBANK.ACT →
        v = ((u.stageLists k b).wr R.IMG_LBANK.NEXT b).pinScan b → w = v.keyEffect (.declare (BitVec.ofNat 256 (natLE (v.bytes32 (R.UPD_SMEAS.addr 0))))) →
        exec .stageComplete s = .next (((State.wr { w with upd := { w.upd with staged := k } } R.UPD_PHASE.PHASE phStaged).event 0x0F02 (unit := k)).updDone ucOk))) ∧
    ((s.rd R.UPD_PHASE.PHASE ≠ phHold ∨ s.heldForSwitch = false ∨ s.running .upd = false → exec .migrationComplete s = .next s) ∧
      (s.rd R.UPD_PHASE.PHASE = phHold → s.heldForSwitch = true → s.running .upd = true →
        exec .migrationComplete s = .next (((s.migrate s.upd.staged).raise R.UPD_INTSTAT.MIGDONE).wr R.UPD_PHASE.PHASE phReady))) ∧
    ((s.upd.holdEnds = none → exec .holdmaxExpiry s = .next s) ∧ ∀ (t : Nat) (u : State), s.upd.holdEnds = some t → u = s.advance t →
      (s.rd R.UPD_PHASE.PHASE = phHold ∨ s.rd R.UPD_PHASE.PHASE = phReady → exec .holdmaxExpiry s = .next u.updAbort) ∧
      (s.rd R.UPD_PHASE.PHASE = phCommit → exec .holdmaxExpiry s = .next (u.moduleReset rcHandoverTmo)) ∧
      (s.rd R.UPD_PHASE.PHASE < phHold → exec .holdmaxExpiry s = .next u))

/-- R495, whole: a COMMIT in the same SYS cycle (of 4 ns) as the expiry of HOLDMAX, before its instant or at it, ends with STATE and
starts no commit phase, and the expiry that follows aborts the handover: PHASE IDLE and ABORTED raised. -/
def Obligations.late_commit_is_refused : Prop :=
  ∀ (s : State),
    ∀ e, s.upd.holdEnds = some e → s.now / 4 = e / 4 → s.rd R.UPD_PHASE.PHASE = phReady → s.updBusy = false → s.running .upd = true →
      ∃ t u : State, exec .updCommit s = .next t ∧ t.rd R.UPD_CMD.RESULT = ucState ∧ t.rd R.UPD_CMD.GO = 0 ∧ t.rd R.UPD_PHASE.PHASE = phReady ∧ t.mem = s.mem ∧
        exec .holdmaxExpiry t = .next u ∧ u = (t.advance e).updAbort ∧ u.rd R.UPD_PHASE.PHASE = phIdle ∧ u.rd R.UPD_INTSTAT.ABORTED = 1

/-- RECOVERY_ANNOUNCE_TIMER, RECOVERY_LOAD, RECOVERY_ENROL, RECOVERY_RESTART, TFTP_DATA_RECEIVED and TFTP_RETRANSMIT_TIMER (R498,
R499): outside recovery mode, or once an order is accepted, nothing is announced; an announcement carries a fresh nonce that the
spec leaves open, and the next is due 1 s later; an order for another module, of another kind or with another nonce is ignored;
a LOAD while one runs is answered BUSY (the model's choice), one of the running GOOD slot STATE, another erases its slot and
sends the read request for its file; an ENROL without the recovery input held is answered STATE, with it the module is enrolled;
a RESTART clears the RECOVERY bit and resets the module; a DATA block already programmed is acknowledged again, one out of order
or above 512 bytes ignored, one past the slot's size ends the load with TFTP error 3; the next one is programmed, checked and
acknowledged, a failed check leaves the slot BAD, a shorter one that stands its checks ends the transfer and starts VERIFY;
after five repeats the load ends with FLASH. With no load in hand DATA and the retransmit timer change nothing. -/
def Obligations.recovery_mode : Prop :=
  ∀ (s : State),
    ((s.upd.recovery = none ∨ s.upd.ordered = true → exec .recoveryAnnounceTimer s = .next s) ∧
      ∀ (reason : Nat) (u : State), s.upd.recovery = some reason → s.upd.ordered = false → u = s.advance s.upd.announceAt →
        ∃ (n : BitVec 128) (v : State), v = { u with upd := { u.upd with nonce := n, announceAt := u.now + sec } } ∧
          exec .recoveryAnnounceTimer s = .next (v.drawn.recSend (.announce reason (u.rd R.KEY_PUF.STATE) n))) ∧
    (∀ m : RecMsg, s.recSend m = { s with upd := { s.upd with lastRecovery := some m, lastRecBytes := s.recBytes m } }) ∧
    (∀ o : RecOrder, (o.op ≠ 1 → exec (.recoveryLoad o) s = .next s) ∧ (o.op ≠ 2 → exec (.recoveryEnrol o) s = .next s) ∧ (o.op ≠ 3 → exec (.recoveryRestart o) s = .next s)) ∧
    (∀ o : RecOrder, s.upd.recovery = none ∨ s.upd.lastRecovery = none ∨ o.mac ≠ s.ownMac ∨ o.nonce ≠ s.upd.nonce → exec (.recoveryLoad o) s = .next s ∧
      exec (.recoveryEnrol o) s = .next s ∧ exec (.recoveryRestart o) s = .next s) ∧
    (∀ o : RecOrder, s.upd.recovery ≠ none → s.upd.lastRecovery ≠ none → o.mac = s.ownMac → o.nonce = s.upd.nonce →
      (o.op = 1 → s.upd.tftp ≠ none → exec (.recoveryLoad o) s = .next (s.recDone 1 ucBusy o.tool 0 0)) ∧
      (o.op = 1 → s.upd.tftp = none → 1 < o.slot ∨ (o.slot = s.boot.act ∧ s.boot.slot o.slot = slGood ∧ s.bootRec ≠ none) →
        exec (.recoveryLoad o) s = .next (s.recDone 1 ucState o.tool 0 0)) ∧
      (∀ u : State, o.op = 1 → s.upd.tftp = none → o.slot < 2 → o.slot ≠ s.boot.act ∨ s.boot.slot o.slot ≠ slGood ∨ s.bootRec = none →
        u = (State.unlist { s with upd := { s.upd with ordered := true } } (slotBase o.slot) slotSize).setSlot o.slot slReceiving →
        exec (.recoveryLoad o) s = .next (State.recSend { u with upd := { u.upd with tftp := some { slot := o.slot, tool := o.tool, file := o.file, last := u.now } } } (.tftpRead o.file))) ∧
      (o.op = 2 → s.on R.PWR_STAT.RCV = false → exec (.recoveryEnrol o) s = .next (s.recDone 2 ucState o.tool 0 0)) ∧
      (o.op = 2 → s.on R.PWR_STAT.RCV = true → exec (.recoveryEnrol o) s =
        .next ((State.enrol { s with upd := { s.upd with ordered := true } }).recDone 2 ucOk o.tool 0 0)) ∧
      (o.op = 3 → exec (.recoveryRestart o) s =
        .next (((State.clearRecovery { s with upd := { s.upd with ordered := true } }).recDone 3 ucOk o.tool 0 0).moduleReset rcRecovery))) ∧
    (s.upd.tftp = none → (∀ b d, exec (.tftpDataReceived b d) s = .next s) ∧ exec .tftpRetransmitTimer s = .next s) ∧
    (∀ (b : Nat) (d : List Byte), s.upd.recovery = none ∨ 512 < d.length → exec (.tftpDataReceived b d) s = .next s) ∧
    (∀ (t : UpdTftp) (b : Nat) (d : List Byte), s.upd.tftp = some t → s.upd.recovery ≠ none → d.length ≤ 512 →
      (b % 65536 ≠ (t.block + 1) % 65536 → b % 65536 = t.block % 65536 → t.block ≠ 0 →
        exec (.tftpDataReceived b d) s = .next (s.recSend (.tftpAck t.block))) ∧
      (b % 65536 ≠ (t.block + 1) % 65536 → b % 65536 ≠ t.block % 65536 ∨ t.block = 0 → exec (.tftpDataReceived b d) s = .next s) ∧
      (b % 65536 = (t.block + 1) % 65536 → slotSize < t.received + d.length → exec (.tftpDataReceived b d) s =
        .next ((s.tftpEnd t slEmpty ucBadpart).recSend (.tftpError 3))) ∧
      ∀ (w : UpdTftp) (u v : State) (c : Nat), b % 65536 = (t.block + 1) % 65536 → t.received + d.length ≤ slotSize → u = s.putBytes (slotBase t.slot + t.received) d →
        w = { t with block := t.block + 1, received := t.received + d.length, repeats := 0, last := u.now } →
        c = (if d = [] then ucOk else u.tftpChecks t.slot t.received w.received (d.length < 512)) →
        v = State.recSend { u with upd := { u.upd with tftp := some w } } (.tftpAck w.block) →
        (c ≠ ucOk → exec (.tftpDataReceived b d) s = .next (u.tftpEnd w slBad c)) ∧
        (c = ucOk → d.length = 512 → exec (.tftpDataReceived b d) s = .next v) ∧
        (c = ucOk → d.length < 512 → exec (.tftpDataReceived b d) s = .next (v.tftpVerify w))) ∧
    (∀ (t : UpdTftp) (u : State), s.upd.tftp = some t → u = s.advance (t.last + sec) →
      (5 ≤ t.repeats → exec .tftpRetransmitTimer s = .next (u.tftpEnd t slEmpty ucFlash)) ∧
      (t.repeats < 5 → exec .tftpRetransmitTimer s = .next (State.recSend { u with upd := { u.upd with
        tftp := some { t with repeats := t.repeats + 1, last := u.now } } } (if t.block = 0 then .tftpRead t.file else .tftpAck t.block)))) ∧
    (∀ (t : UpdTftp) (r : Nat × State) (v : State), r = State.verifySlot ({ s.setSlot t.slot slReceived with upd := { s.upd with tftp := none } } : State) t.slot →
      v = r.2.recDone 1 r.1 t.tool t.received (r.2.manifest t.slot).version →
      (r.1 = ucOk → s.tftpVerify t = ((v.makeTrial t.slot).clearRecovery).moduleReset rcRecovery) ∧ (r.1 ≠ ucOk → s.tftpVerify t = v))

/-- POWER_GOOD, HU_CAP_MEASURED, HU_FULL, POWER_SOURCE_CHANGE, VIN_LOW, VIN_WARNING, TESTBRAKE, HALT, BRAKE_MARKER_WRITTEN,
VIN_RESUME_LEVEL, RESUME_WINDOW_COMPLETE and HU_RESET_LEVEL (R503 to R516): reset is released once VIN has been at or above 9.0
V for 20 ms with HU at or above 44 V, on PoE alone only with Type 2 power; a capacity below 448 uF is reported; a full HU ends
the charge; a change of source is reported; VIN below 9.0 V and not below the warning level restarts the window and, out of
reset in NORMAL, counts INLOW, its event at most once a second; a warning closes the hold-up switch, begins Brake from NORMAL
after lock (a lock that follows in the same cycle counts as before it) and no second one outside it; PWR_CMD ends with LOCKED
before lock and STATE outside NORMAL; what Brake's begin writes is said; the marker, at 2,650 us at the latest, ends BRAKING in
BRAKED; VIN at 9.0 V opens the switch and starts the window; the window of 20 ms resumes a BRAKED module that HALT did not stop,
unless HU falls below the reset level in that cycle; the resume invalidates the marker, ends the hold, moves the watchdog's
instant by the dip and counts, or with a handover in its commit phase resets the module; HU below the reset level resets it. -/
def Obligations.power_and_brake : Prop :=
  ∀ (s : State),
    (∀ r : Rails, (s.pwr.released = true ∨ r.vin < 9000 ∨ r.vhu < 44000 ∨ (s.on R.PWR_STAT.SRCPOE = true ∧ s.on R.PWR_STAT.SRCX1 = false ∧ s.on R.PWR_STAT.POET2 = false) →
        exec (.powerGood r) s = .next s) ∧
      ∀ u v : State, s.pwr.released = false → 9000 ≤ r.vin → 44000 ≤ r.vhu → s.on R.PWR_STAT.SRCPOE = false ∨ s.on R.PWR_STAT.SRCX1 = true ∨ s.on R.PWR_STAT.POET2 = true →
        u = (s.rails r).vinGood r → v = u.advance (u.pwr.okSince.getD u.now + 20 * ms) → exec (.powerGood r) s = .next { v with pwr := { v.pwr with released := true } }) ∧
    (∀ n u, u = s.wr R.PWR_HUCAP.HUCAP (min n 65535) → (448 ≤ n → exec (.huCapMeasured n) s = .next u) ∧
      (n < 448 → exec (.huCapMeasured n) s = .next ((u.raise R.PWR_INTSTAT.HULOW).event 0x1004 (val1 := n)))) ∧
    (∃ t : State, exec .huFull s = .next t ∧ t.rd R.PWR_STAT.CHG = 0 ∧ t.mem = s.mem ∧ ∀ a, a ≠ R.PWR_STAT.addr → t.reg a = s.reg a) ∧
    (∀ (x1 poe t2 : Bool) (u : State), u = ((s.wrb R.PWR_STAT.SRCX1 x1).wrb R.PWR_STAT.SRCPOE poe).wrb R.PWR_STAT.POET2 (t2 && !x1) →
      (s.on R.PWR_STAT.SRCX1 = x1 → s.on R.PWR_STAT.SRCPOE = poe → exec (.powerSourceChange x1 poe t2) s = .next u) ∧
      (s.on R.PWR_STAT.SRCX1 ≠ x1 ∨ s.on R.PWR_STAT.SRCPOE ≠ poe → exec (.powerSourceChange x1 poe t2) s = .next ((u.raise R.PWR_INTSTAT.SRCCHG).event 0x1003))) ∧
    (∀ (r : Rails) (u : State), u = State.clear ((s.rails r).clear R.PWR_STAT.WARN) R.PWR_STAT.VINOK →
      (9000 ≤ r.vin ∨ r.vin < 8500 → exec (.vinLow r) s = .next s) ∧
      (8500 ≤ r.vin → r.vin < 9000 → s.pwr.released = false ∨ u.pstate ≠ psNormal ∨ s.on R.PWR_STAT.VINOK = false →
        exec (.vinLow r) s = .next { u with pwr := { u.pwr with okSince := none } }) ∧
      (∀ v : State, 8500 ≤ r.vin → r.vin < 9000 → s.pwr.released = true → u.pstate = psNormal → s.on R.PWR_STAT.VINOK = true →
        v = (State.raise { u with pwr := { u.pwr with okSince := none } } R.PWR_INTSTAT.INLOW).bump R.PWR_CNT_INLOW.COUNT →
        (dueAgain v.pwr.inlowAt v.now sec = false → exec (.vinLow r) s = .next v) ∧
        (dueAgain v.pwr.inlowAt v.now sec = true → exec (.vinLow r) s = .next (State.event { v with pwr := { v.pwr with inlowAt := some v.now } } 0x1005)))) ∧
    (∀ (r : Rails) (l u : State), l = (if s.lockFollows then s.lockSet else s) → u = State.clear ((((l.rails r).raise R.PWR_STAT.WARN).clear R.PWR_STAT.VINOK).raise R.PWR_STAT.HUSW) R.PWR_STAT.CHG →
      (8500 ≤ r.vin → exec (.vinWarning r) s = .next l) ∧
      (r.vin < 8500 → u.pwr.released = false → exec (.vinWarning r) s = .next { u with pwr := { u.pwr with okSince := none } }) ∧
      (r.vin < 8500 → u.pwr.released = true → u.on R.SYS_LOCK.LOCK = false →
        exec (.vinWarning r) s = .next (State.moduleReset { u with pwr := { u.pwr with okSince := none, released := false } } rcWarnstart)) ∧
      (r.vin < 8500 → u.pwr.released = true → u.on R.SYS_LOCK.LOCK = true → u.pstate = psNormal →
        exec (.vinWarning r) s = .next (State.brakeBegin { u with pwr := { u.pwr with okSince := none } } 1)) ∧
      (r.vin < 8500 → u.pwr.released = true → u.on R.SYS_LOCK.LOCK = true → u.pstate ≠ psNormal →
        exec (.vinWarning r) s = .next { u with pwr := { u.pwr with okSince := none } })) ∧
    (∀ u : State, ∀ c ∈ [(Instr.testbrake, 1, 2), (.halt, 2, 3)], u = s.wr R.PWR_CMD.OP c.2.1 →
      (u.on R.SYS_LOCK.LOCK = false → exec c.1 s = .next ((u.wr R.PWR_CMD.RESULT 2).raise R.PWR_INTSTAT.CMDDONE)) ∧
      (u.on R.SYS_LOCK.LOCK = true → u.pstate ≠ psNormal → exec c.1 s = .next ((u.wr R.PWR_CMD.RESULT 1).raise R.PWR_INTSTAT.CMDDONE)) ∧
      (u.on R.SYS_LOCK.LOCK = true → u.pstate = psNormal → exec c.1 s = .next (((u.brakeBegin c.2.2).wr R.PWR_CMD.RESULT 0).raise R.PWR_INTSTAT.CMDDONE))) ∧
    (∃ t : State, s.brakeBegin 1 = ((((t.raise R.PWR_INTSTAT.BRAKE).event 0x1000 (val1 := 1)).kaSuspend.ckptStart).flushTail).brakeHold ∧ t.pstate = psBraking ∧ t.rd R.PWR_STAT.BCAUSE = 1 ∧
      t.rd64 R.PWR_BRK_LO.addr R.PWR_BRK_HI.addr = s.mtNs % 2 ^ 64 ∧ t.rd R.PWR_CNT_BRAKE.COUNT = min (s.rd R.PWR_CNT_BRAKE.COUNT + 1) (2 ^ R.PWR_CNT_BRAKE.COUNT.w - 1) ∧ t.mem = s.mem) ∧
    ((s.pstate ≠ psBraking → exec .brakeMarkerWritten s = .next s) ∧
      ∀ (b : Nat) (w u v : State), s.pstate = psBraking → b = s.pwr.brakeAt + 2650 * us →
        w = (if s.brakeDone then s else ((s.expireBefore b).expireBefore b).advance b) → u = (w.putBytes w.markerAt w.marker).raise R.PWR_STAT.MKVALID →
        v = (u.wr R.PWR_STAT.PSTATE psBraked).wrb R.PWR_STAT.HALTED (u.rd R.PWR_STAT.BCAUSE == 3) →
        exec .brakeMarkerWritten s = .next ((((((v.wr R.PWR_BRKTIME.TBRAKED (v.brakeUs v.now 16)).wr R.PWR_BRKTIME.THELD
          (v.brakeUs (v.pwr.heldAt.getD v.now) 16)).raise R.PWR_INTSTAT.BRAKED).event 0x1001)).resumeIfDue)) ∧
    (∀ r : Rails, (r.vin < 9000 → exec (.vinResumeLevel r) s = .next s) ∧ (9000 ≤ r.vin → exec (.vinResumeLevel r) s = .next ((s.rails r).vinGood r))) ∧
    ((s.pwr.okSince = none ∨ s.pstate ≠ psBraked → exec .resumeWindowComplete s = .next s) ∧
      ∀ (t : Nat) (u : State), s.pwr.okSince = some t → s.pstate = psBraked → u = s.advance (t + 20 * ms) →
        (s.rd R.PWR_STAT.BCAUSE = 3 → exec .resumeWindowComplete s = .next u) ∧ (s.rd R.PWR_STAT.BCAUSE ≠ 3 → s.collapseNext = true → exec .resumeWindowComplete s = .next u) ∧
        (s.rd R.PWR_STAT.BCAUSE ≠ 3 → s.collapseNext = false → exec .resumeWindowComplete s = .next u.resumeBrake)) ∧
    ((s.upd.brakeInCommit = true → s.resumeBrake = s.moduleReset rcHandoverBrake) ∧
      ∀ u v : State, s.upd.brakeInCommit = false → u = ((((s.putNum s.markerAt 4 0).clear R.PWR_STAT.MKVALID).wr R.PWR_STAT.PSTATE psNormal).endHold).kaUnsuspend →
        v = State.bump (State.wr { u with start := { u.start with wdtAt := u.start.wdtAt.map (· + (u.now - u.pwr.brakeAt)) } } R.PWR_DIP.DIP (u.brakeUs u.now 32))
          R.PWR_CNT_RESUME.COUNT → s.resumeBrake = (v.raise R.PWR_INTSTAT.RESUME).event 0x1002 (val1 := v.rd R.PWR_DIP.DIP)) ∧
    ((s.pwr.released = false → exec .huResetLevel s = .next s) ∧ (s.pwr.released = true → exec .huResetLevel s =
      .next (State.moduleReset { s.clear R.PWR_STAT.HUOK with pwr := { s.pwr with released := false } } rcHucollapse)))

/-- R508, whole: a warning before SYS_LOCK.LOCK is set (in recovery mode too: the state is any state out of reset with LOCK clear,
where no lock follows in the same cycle) begins no Brake, resets the module with the cause of a warning during start, and the
next power-good releases the reset, from which the module starts again. -/
def Obligations.warning_before_lock_resets : Prop :=
  ∀ (s : State) (r r' : Rails) (f : RomFacts),
    s.lockFollows = false → r.vin < 8500 → s.pwr.released = true → s.start.phase ≠ 0 → s.on R.SYS_LOCK.LOCK = false →
      ∃ t : State, exec (.vinWarning r) s = .next t ∧ t.rd R.SYS_RSTCAUSE.CAUSE = rcWarnstart ∧ t.pstate = psNormal ∧ t.start.phase = 0 ∧ t.pwr.released = false ∧
        exec (.moduleResetRelease f) t = .next t ∧
        (9000 ≤ r'.vin → 44000 ≤ r'.vhu → t.on R.PWR_STAT.SRCX1 = true → ∃ u v : State, exec (.powerGood r') t = .next u ∧ u.pwr.released = true ∧ u.start.phase = 0 ∧
          exec (.moduleResetRelease f) u = .next v ∧ v = u.romStart f)

/-- MODULE_RESET_RELEASE, RUNTIME_START, REPLICA_WAIT_END, SYS_LOCK_SET, SYS_RST_RESET, SYS_RST_FATAL, MT_LOAD and
START_RECORD_WRITE (R546 to R569): before power-good, or once a start runs, a release changes nothing; else the ROM starts: a
failed self-test resets with BISTFAIL or halts where that was the last cause, a vault that fails enters recovery mode with
reason 5, else the boot record says: its RECOVERY bit, no startable slot and the recovery input enter recovery with 1, 2 and 3,
no boot record and no slot that passes with 4, and otherwise the slot found is entered (the ROM enters one TRIAL or GOOD slot of
the record, or the first that passes without one). The runtime's part runs once after the ROM's, and ends in CFGFAIL where the
configuration, a block or the pin scan fails; how the kind is chosen (Table 18-4); the lock, set again or before the runtime's
part, changes LOCK alone, else it records SYS_TLOCK and SYS_LOCKED and enters service or, cold, the wait for replicas; a wait
ends with the ranges LIVE or at COLDWAIT_MS, and is nothing where none runs; a reset by command takes the cause of its OP; MT is
loaded from MTINIT before lock alone; each second after lock LASTMT is written, and a migrated configuration after the first
release. -/
def Obligations.start_lock_and_reset : Prop :=
  ∀ (s : State),
    (∀ f : RomFacts, s.start.phase ≠ 0 ∨ s.pwr.released = false → exec (.moduleResetRelease f) s = .next s) ∧
    (∀ (f : RomFacts) (u v w : State) (p : Bool), s.start.phase = 0 → s.pwr.released = true →
      u = State.backupCheck (State.wrb (State.fieldSample { s with start := { s.start with phase := 1, origin := s.now } }) R.PWR_STAT.RCV f.rcv) → u.selfTest f = (p, v) →
      (p = false → v.rd R.SYS_RSTCAUSE.CAUSE = rcBistfail → exec (.moduleResetRelease f) s = .next { v with start := { v.start with phase := 4 } }) ∧
      (p = false → v.rd R.SYS_RSTCAUSE.CAUSE ≠ rcBistfail → exec (.moduleResetRelease f) s = .next (v.moduleReset rcBistfail)) ∧
      (p = true → w = (v.wr R.MEM_PHASE.PHASE 1).vaultStart f → w.rd R.KEY_PUF.STATE = pufFail → exec (.moduleResetRelease f) s = .next (w.showSlots.enterRecovery 5)) ∧
      (p = true → w = (v.wr R.MEM_PHASE.PHASE 1).vaultStart f → w.rd R.KEY_PUF.STATE ≠ pufFail → exec (.moduleResetRelease f) s = .next (w.chooseSlot f.rcv))) ∧
    (∀ (b : BootRec) (rcv : Bool) (k : Nat) (fell : Bool) (u : State), (s.bootRec = some b → b.recovery = true → s.chooseSlot rcv = s.showSlots.enterRecovery 1) ∧
      (s.bootRec = some b → b.recovery = false → b.wanted = none → s.chooseSlot rcv = s.showSlots.enterRecovery 2) ∧
      (s.bootRec = some b → b.recovery = false → b.wanted ≠ none → s.showSlots.pickSlot false 3 = (some (k, fell), u) →
        s.chooseSlot true = s.showSlots.enterRecovery 3 ∧ s.chooseSlot false = u.enterSlot k fell) ∧
      (s.bootRec = some b → b.recovery = false → b.wanted ≠ none → s.showSlots.pickSlot false 3 = (none, u) → s.chooseSlot rcv = u.enterRecovery 2) ∧
      (s.bootRec = none → s.pickVendor = (none, u) → s.chooseSlot rcv = u.enterRecovery 4) ∧
      (s.bootRec = none → s.pickVendor = (some (k, fell), u) → s.chooseSlot true = s.enterRecovery 3 ∧ s.chooseSlot false = u.enterSlot k fell)) ∧
    ((s.start.phase ≠ 1 ∨ s.start.kind ≠ 0 → exec .runtimeStart s = .next s) ∧
      ∀ u : State, s.start.phase = 1 → s.start.kind = 0 → (s.chooseStart.loadCfg s.runSlot = (false, u) → exec .runtimeStart s = .next u.clearRing.cfgFail) ∧
        ∀ v w : State, s.chooseStart.loadCfg s.runSlot = (true, u) →
          ((u.clearRing.restore s.runSlot).enableBlocks = (false, v) → exec .runtimeStart s = .next v.cfgFail) ∧
          ((u.clearRing.restore s.runSlot).enableBlocks = (true, v) → v.pinActive = (false, w) → exec .runtimeStart s = .next w.cfgFail) ∧
          ((u.clearRing.restore s.runSlot).enableBlocks = (true, v) → v.pinActive = (true, w) → exec .runtimeStart s = .next w.beforeLock)) ∧
    (∀ (r : StartRec) (m : Option Nat) (fl : Nat), chooseKind true r m = (kindCold, false, false, true) ∧
      (r.reqkind = kindCold ∨ 3 ≤ r.crashes → chooseKind false r m = (kindCold, false, false, false)) ∧
      (r.reqkind ≠ kindCold → r.crashes < 3 → chooseKind false r (some fl) = (kindWarm, fl.testBit 1, true, false) ∧ chooseKind false r none = (kindWarm, true, false, false))) ∧
    (∀ u : State, u = s.raise R.SYS_LOCK.LOCK → (s.start.phase ≠ 1 ∨ s.start.kind = 0 → exec .sysLockSet s = .next u) ∧
      ∀ (n : Nat) (v : State), s.start.phase = 1 → s.start.kind ≠ 0 → v = u.wr R.SYS_TLOCK.US (min ((s.now - s.start.origin) / 1000) (2 ^ 32 - 1)) →
        n = v.rd R.SYS_TLOCK.US →
        (s.start.kind = kindCold → s.rd R.SYS_STARTCFG.COLDWAIT_MS ≠ 0 → ∃ w : State, w = v.event 0x0101 (val1 := n) ∧
          exec .sysLockSet s = .next { w with start := { w.start with phase := 2, lockedAt := w.now, lastMtAt := w.now, waiting := true } }) ∧
        (s.start.kind ≠ kindCold ∨ s.rd R.SYS_STARTCFG.COLDWAIT_MS = 0 → ∃ w : State, w = v.event 0x0101 (val1 := n) ∧
          exec .sysLockSet s = .next (State.enterService { w with start := { w.start with phase := 2, lockedAt := w.now, lastMtAt := w.now, waiting := false } }))) ∧
    ((s.start.waiting = false → exec .replicaWaitEnd s = .next s) ∧ (s.start.waiting = true → s.inputsLive = true → exec .replicaWaitEnd s = .next s.enterService) ∧
      (s.start.waiting = true → s.inputsLive = false → exec .replicaWaitEnd s = .next (s.advance (s.start.lockedAt + ms * s.rd R.SYS_STARTCFG.COLDWAIT_MS)).enterService)) ∧
    (∀ p ∈ [(Instr.sysRstReset, 4), (.sysRstFatal, 6)], ∃ t : State, exec p.1 s = .next t ∧ t.start.phase = 0 ∧
      t.rd R.SYS_RSTCAUSE.CAUSE = (if s.start.phase = 0 then min p.2 (s.rd R.SYS_RSTCAUSE.CAUSE) else p.2) ∧ t.pending = s.pending ∧ t.now = s.now ∧ t.mt = 0 ∧
      t.mem = s.mem.filter (fun x => nonvolatile x.1)) ∧
    ((s.on R.SYS_LOCK.LOCK = true → exec .mtLoad s = .next s) ∧ (s.on R.SYS_LOCK.LOCK = false → exec .mtLoad s =
      .next (s.setMt (s.rd64 R.SYS_MTINIT_LO.addr R.SYS_MTINIT_HI.addr))) ∧
      ∀ n, (s.setMt n).mt = BitVec.ofNat 64 n ∧ (s.setMt n).sch = { s.sch with lastMade := none, winStart := none } ∧ (s.setMt n).regs = s.regs ∧ (s.setMt n).mem = s.mem) ∧
    ((s.start.phase ≠ 2 → exec .startRecordWrite s = .next s) ∧
      ∀ (u v w : State) (r : StartRec), s.start.phase = 2 → u = s.advance (s.start.lastMtAt + sec) → v = { u with start := { u.start with lastMtAt := u.now } } → r = v.startRec →
        w = v.putStartRec { r with lastmt := v.mtNs, crwin := if 0 < r.crashes then r.crwin + 1 else r.crwin } →
        (w.start.migDue = false ∨ w.start.firstRel = false → exec .startRecordWrite s = .next w) ∧
        (w.start.migDue = true → w.start.firstRel = true → exec .startRecordWrite s = .next (w.writeMigrated w.runSlot)))

/-- R562 and R565, whole. WDT_KICK and WDT_EXPIRY: a kick starts the watchdog again, WDT_MS ahead, where WDT_MS is not 0, and none
runs where it is 0; so does a write of WDT_MS before lock that is not discarded; an expiry of a running watchdog resets the
module with cause WDT while PSTATE is NORMAL, but with the cause that a SYS_RST names which is the command that follows it, in
the same CORE cycle, and outside NORMAL (Brake and the BRAKED wait) nothing happens; after lock a write leaves WDT_MS and the
watchdog as they are. A command of the same cycle is the model's next one in the queue (DESIGN CHOICE, notes/assumptions/33). -/
def Obligations.watchdog_runs_and_resets : Prop :=
  ∀ (s : State),
    (∃ t : State, exec .wdtKick s = .next t ∧ t.start.wdtAt = (if s.rd R.SYS_WDT.WDT_MS = 0 then none else some (s.now + ms * s.rd R.SYS_WDT.WDT_MS)) ∧
      t.regs = s.regs ∧ t.mem = s.mem ∧ t.now = s.now) ∧
    ((s.start.wdtAt = none ∨ s.pstate ≠ psNormal → exec .wdtExpiry s = .next s) ∧
      ∀ t, s.start.wdtAt = some t → s.pstate = psNormal → exec .wdtExpiry s = .next ((s.advance t).moduleReset s.wdtCause)) ∧
    ((∀ q, s.pending = .sysRstReset :: q → s.wdtCause = rcSwreset) ∧ (∀ q, s.pending = .sysRstFatal :: q → s.wdtCause = rcFatal) ∧
      (∀ m a v q, s.pending = .registerWrite m a v :: q → s.wdtCause =
        if a = R.SYS_RST.addr ∧ v.getLsbD 8 = true ∧ R.SYS_RST.OP.of v = 1 then rcSwreset
        else if a = R.SYS_RST.addr ∧ v.getLsbD 8 = true ∧ R.SYS_RST.OP.of v = 2 then rcFatal else rcWdt) ∧
      ((∀ c q, s.pending = c :: q → c ≠ .sysRstReset ∧ c ≠ .sysRstFatal ∧ ∀ m a v, c ≠ .registerWrite m a v) → s.wdtCause = rcWdt)) ∧
    (s.start.wdtAt ≠ none → s.pstate = psNormal → s.start.phase ≠ 0 → s.wdtCause = rcWdt → ∃ t : State, exec .wdtExpiry s = .next t ∧ t.rd R.SYS_RSTCAUSE.CAUSE = rcWdt ∧ t.start.phase = 0) ∧
    (∀ m v, m < 17 → s.locked = true → ∃ t : State, exec (.registerWrite m R.SYS_WDT.addr v) s = .next t ∧ t.start = s.start ∧ t.regs = s.regs ∧ t.mem = s.mem) ∧
    (∀ m v, m < 17 → s.locked = false → ∃ t : State, exec (.registerWrite m R.SYS_WDT.addr v) s = .next t ∧ t.mem = s.mem ∧
      ((R.SYS_WDT.WDT_MS.of v = 0 → t.start.wdtAt = none ∧ t.rd R.SYS_WDT.WDT_MS = 0) ∧
      (10 ≤ R.SYS_WDT.WDT_MS.of v → R.SYS_WDT.WDT_MS.of v ≤ 10000 → t.start.wdtAt = some (s.now + ms * R.SYS_WDT.WDT_MS.of v) ∧ t.rd R.SYS_WDT.WDT_MS = R.SYS_WDT.WDT_MS.of v) ∧
      ((0 < R.SYS_WDT.WDT_MS.of v ∧ R.SYS_WDT.WDT_MS.of v < 10) ∨ 10000 < R.SYS_WDT.WDT_MS.of v → R.SYS_WDT.WDT_MS.of v ≠ s.rd R.SYS_WDT.WDT_MS → t.start = s.start ∧ t.rd R.SYS_WDT.WDT_MS = s.rd R.SYS_WDT.WDT_MS)))

/-- RTC_TICK, OSC_STOP, BACKUP_POWER_ON, BACKUP_SOURCE_CHANGE, VBAT_MEASURE, RTC_FREEZE_READ, FREEZE_TIMEOUT, RTC_SET, RTC_SYNC,
SYNC_MATCH, BBINIT and BACKUP_BYTE_WRITE (R528 to R542): a tick counts one second and zeroes SUBSEC, but is discarded by a SET
or SYNC commit that waited for it; a stop sets OSF and TQ 0, a second one nothing; a lost backup supply puts the domain at its
reset values; the source shows in ONMAIN; VBAT is measured on main power, low below 2.5 V, its event once an hour, cleared at
2.6 V; a time register's read freezes all seven, returns the shadow, and a read of YEAR releases; 50 ms without one release too,
with the event; SET, SYNC and BBINIT are ignored while one waits, SET and SYNC end with BUSY while a SYNC is pending, with
BADDATE for a date that does not exist, SYNC with LATE less than 1 ms ahead; with the oscillator stopped a commit waits for a
tick; a match without a pending SYNC, or again, is nothing; a commit sets the calendar and clears OSF, but staged values that
have become no date end a SYNC with BADDATE (the model's, notes/assumptions/171); BBINIT zeroes the bytes, a write of the same
RTC cycle coming after it; the backup bytes keep their CRC. That a tick after a stop shows the oscillator running is the model's
(notes/assumptions/42). -/
def Obligations.clock_and_backup_domain : Prop :=
  ∀ (s : State),
    (s.rtc.setPending = true → exec .rtcTick s = .next ((s.rtcCommit 1).rtcDone 1 0)) ∧
    (s.rtc.setPending = false → s.rtc.syncDue = true → exec .rtcTick s = .next s.syncCommit) ∧
    (∀ (u v w : State), s.rtc.setPending = false → s.rtc.syncDue = false → u = (if s.rtc.stopped then s else s.advance (s.rtc.secAt + sec)) →
      v = { u with rtc := { u.rtc with secAt := (if s.rtc.stopped then s.now else s.rtc.secAt + sec), stopped := false, prior := s.timeNow (if s.rtc.stopped then s.subsec else 32767) } } → w = (v.setCalendar v.calendar.next).wr R.RTC_SUBSEC.SUBSEC 0 →
      (w.on R.RTC_STAT.ONMAIN = true → exec .rtcTick s = .next (w.raise R.RTC_INTSTAT.TICK)) ∧ (w.on R.RTC_STAT.ONMAIN = false → exec .rtcTick s = .next w)) ∧
    (s.staged.valid = true → s.syncCommit = (s.clear R.RTC_STAT.SYNCPEND).rtcCommit (if s.rtc.syncLocked then 2 else 1)) ∧
    (s.staged.valid = false → ∃ u : State, u = s.clear R.RTC_STAT.SYNCPEND ∧ s.syncCommit = State.rtcDone { u with rtc := { u.rtc with syncDue := false } } 2 1) ∧
    (∀ c : Calendar, (c.second < 59 → c.next = { c with second := c.second + 1 }) ∧
      (c = ⟨2024, 2, 28, 23, 59, 59⟩ → c.next = ⟨2024, 2, 29, 0, 0, 0⟩) ∧ (c = ⟨2100, 2, 28, 23, 59, 59⟩ → c.next = ⟨2100, 3, 1, 0, 0, 0⟩) ∧
      (c = ⟨2199, 12, 31, 23, 59, 59⟩ → c.next = ⟨2000, 1, 1, 0, 0, 0⟩) ∧ (c.valid = true → c.next.valid = true)) ∧
    (s.rtc.stopped = true → exec .oscStop s = .next s) ∧
    (∀ u : State, s.rtc.stopped = false → u = (State.raise { s.wr R.RTC_SUBSEC.SUBSEC s.subsec with rtc := { s.rtc with stopped := true } } R.RTC_STAT.OSF).wr R.RTC_STAT.TQ 0 →
      (u.on R.RTC_STAT.ONMAIN = true → exec .oscStop s = .next ((u.raise R.RTC_INTSTAT.OSCSTOP).event 0x1101)) ∧ (u.on R.RTC_STAT.ONMAIN = false → exec .oscStop s = .next u)) ∧
    (∃ t : State, exec .backupPowerOn s = .next t ∧ t.rd R.RTC_STAT.OSF = 1 ∧ t.rd R.RTC_STAT.BBAD = 1 ∧ t.rd R.RTC_STAT.TQ = 0 ∧ t.rd R.KEY_TAMP.LATCH = 2 ∧
      t.rd R.KEY_TAMP.FIRED = 0 ∧ t.rtc.lost = true ∧ t.rtc.setPending = s.rtc.setPending ∧ t.rtc.stopped = false ∧ t.mem = s.mem ∧ ∀ a ∈ R.SYS_RSTCAUSE.addr :: backupRegs, t.reg a = resetOf a) ∧
    (∀ b, exec (.backupSourceChange b) s = .next (s.wrb R.RTC_STAT.ONMAIN b)) ∧
    (∀ (n : Nat) (u v : State), u = s.wr R.RTC_VBAT.VBAT (min n 4095) → v = (u.raise R.RTC_STAT.VBLOW).raise R.RTC_INTSTAT.VBLOW →
      (s.on R.RTC_STAT.ONMAIN = false → exec (.vbatMeasure n) s = .next s) ∧
      (s.on R.RTC_STAT.ONMAIN = true → 2600 ≤ n → exec (.vbatMeasure n) s = .next (u.clear R.RTC_STAT.VBLOW)) ∧
      (s.on R.RTC_STAT.ONMAIN = true → 2500 ≤ n → n < 2600 → exec (.vbatMeasure n) s = .next u) ∧
      (s.on R.RTC_STAT.ONMAIN = true → n < 2500 → dueAgain s.rtc.vblowAt s.now (3600 * sec) = false → exec (.vbatMeasure n) s = .next v) ∧
      (s.on R.RTC_STAT.ONMAIN = true → n < 2500 → dueAgain s.rtc.vblowAt s.now (3600 * sec) = true → exec (.vbatMeasure n) s =
        .next (State.event { v with rtc := { v.rtc with vblowAt := some v.now } } 0x1104 (val1 := n)))) ∧
    (∀ a ∈ timeRegs, ∀ u : State, (s.on R.RTC_STAT.FROZEN = true → u = s) →
      (s.on R.RTC_STAT.FROZEN = false → u = State.raise { s with rtc := { s.rtc with shadows := s.timeCopy, frozenAt := s.now } } R.RTC_STAT.FROZEN) →
      ∃ t : State, exec (.rtcFreezeRead a) s = .next t ∧ t.busRead = (u.rtc.shadows.getD (timeRegs.idxOf a) 0).setWidth 64 ∧ t.rtc = u.rtc ∧ t.mem = s.mem ∧
        t.rd R.RTC_STAT.FROZEN = (if a = R.RTC_YEAR.addr then 0 else 1)) ∧
    ((s.on R.RTC_STAT.FROZEN = false → exec .freezeTimeout s = .next s) ∧ (s.on R.RTC_STAT.FROZEN = true → exec .freezeTimeout s =
      .next ((((s.advance (s.rtc.frozenAt + 50 * ms)).clear R.RTC_STAT.FROZEN).raise R.RTC_INTSTAT.FRZ_TO).event 0x1103))) ∧
    (s.on R.RTC_CMD.GO = true → exec .rtcSet s = .next s ∧ exec .rtcSync s = .next s ∧ exec .bbinit s = .next s) ∧
    (s.on R.RTC_CMD.GO = false →
      (s.on R.RTC_STAT.SYNCPEND = true → exec .rtcSet s = .next (s.rtcDone 1 2) ∧ exec .rtcSync s = .next (s.rtcDone 2 2)) ∧
      (s.on R.RTC_STAT.SYNCPEND = false → s.staged.valid = false → exec .rtcSet s = .next (s.rtcDone 1 1) ∧ exec .rtcSync s = .next (s.rtcDone 2 1)) ∧
      (s.on R.RTC_STAT.SYNCPEND = false → s.staged.valid = true → s.rtc.stopped = false → exec .rtcSet s = .next ((s.rtcCommit 1).rtcDone 1 0)) ∧
      (s.on R.RTC_STAT.SYNCPEND = false → s.staged.valid = true → s.rtc.stopped = true → exec .rtcSet s =
        .next ((State.raise { s with rtc := { s.rtc with setPending := true } } R.RTC_CMD.GO).wr R.RTC_CMD.OP 1)) ∧
      (s.on R.RTC_STAT.SYNCPEND = false → s.staged.valid = true → s.rd64 R.RTC_SYNC_LO.addr R.RTC_SYNC_HI.addr < s.mtNs + ms →
        exec .rtcSync s = .next (s.rtcDone 2 3)) ∧
      (s.on R.RTC_STAT.SYNCPEND = false → s.staged.valid = true → s.mtNs + ms ≤ s.rd64 R.RTC_SYNC_LO.addr R.RTC_SYNC_HI.addr → exec .rtcSync s =
        .next ((State.raise { s with rtc := { s.rtc with syncLocked := s.rd R.FAB_PTP_STAT.STATE == ptpLocked } } R.RTC_STAT.SYNCPEND).rtcDone 2 0))) ∧
    ((s.on R.RTC_STAT.SYNCPEND = false ∨ s.rtc.syncDue = true → exec .syncMatch s = .next s) ∧
      ∀ u : State, s.on R.RTC_STAT.SYNCPEND = true → s.rtc.syncDue = false → u = s.advanceMt (s.rd64 R.RTC_SYNC_LO.addr R.RTC_SYNC_HI.addr) →
        (u.rtc.stopped = true → exec .syncMatch s = .next { u with rtc := { u.rtc with syncDue := true } }) ∧ (u.rtc.stopped = false → exec .syncMatch s = .next u.syncCommit)) ∧
    (∀ n, n < 4 → ∃ t : State, s.rtcCommit n = t ∧ (s.staged.valid = true → t.calendar = s.staged) ∧ t.rd R.RTC_STAT.OSF = 0 ∧ t.rd R.RTC_STAT.TQ = n ∧ t.rd R.RTC_SUBSEC.SUBSEC = 0 ∧
      t.rtc.stopped = false ∧ t.rtc.setPending = false ∧ t.rtc.syncDue = false ∧ t.rtc.secAt = s.now ∧ t.rtc.shadows = s.rtc.shadows ∧ t.rd R.RTC_INTSTAT.SETDONE = 1 ∧ t.mem = s.mem) ∧
    (∀ u v : State, s.on R.RTC_CMD.GO = false → u = s.each (List.range 16) (fun s i => s.setReg (R.RTC_BKP.addr i) 0) →
      v = u.each u.wroteNow (fun s w => s.setReg (R.RTC_BKP.addr w.1) w.2) → exec .bbinit s = .next ((v.backupCrc.clear R.RTC_STAT.BBAD).rtcDone 3 0)) ∧
    (∀ i v, i < 16 → ∃ t : State, exec (.backupByteWrite i v) s = .next t ∧ t.reg (R.RTC_BKP.addr i) = v ∧ (∀ j, j < 16 → j ≠ i → t.reg (R.RTC_BKP.addr j) = s.reg (R.RTC_BKP.addr j)) ∧
      t.rd R.RTC_BKCRC.CRC = crc32c t.backupBytes % 2 ^ 32 ∧ t.rtc = { s.rtc with wrote := s.wroteNow ++ [(i, v)], wroteCyc := s.rtcCycle } ∧ t.mem = s.mem) ∧
    (s.backupCrc.rd R.RTC_BKCRC.CRC = crc32c s.backupBytes % 2 ^ 32)

/-- A step with a command at the front of the queue is that command on the state with the queue's rest, for every command, every
state and every rest. The queue is the model's own (notes/assumptions/1). -/
def Obligations.step_runs_the_front_command : Prop :=
  ∀ (s : State) (c : Instr) (q : List Instr),
    step { s with pending := c :: q } = exec c { s with pending := q }

/-- The model's own choice (notes/assumptions/1, DESIGN CHOICE), no rule of the spec: with an empty queue a step lets one CORE cycle
of 2 ns pass: time goes on, each port sends a frame where it can, and the link-state ages follow; no other block acts. -/
def Obligations.step_with_no_command : Prop :=
  ∀ (s : State),
    ∀ u : State, s.pending = [] → u = s.elapse 2 → u.now = s.now + 2 ∧ u.mt = s.mt + 2 ∧ u.regs = s.regs ∧ u.mem = s.mem ∧
      step s = .next ((u.each (List.range 4) (fun t p => t.txPort p)).showAges)

/-- At reset memory and the register file are in their canonical forms and no command waits: the invariant that every step keeps
holds. -/
def Obligations.invariant_at_reset : Prop :=
  State.reset.Inv

/-- At reset every register reads the value of its Reset column (R14), every block is OFF and disabled (R33), no core has an idle
minimum below 10,000 (R69), every class byte is 0x0A (R437), the power supervisor is in NORMAL (R512), the reset cause is
POWERON (R560), the backup domain shows OSF, BBAD and no time quality (R529), memory lists nothing and no command waits. -/
def Obligations.values_at_reset : Prop :=
  (∀ a, State.reset.reg a = resetOf a) ∧ (∀ u ∈ allUnits, State.reset.rd u.STATE = stOff ∧ State.reset.rd u.EN = 0) ∧
  (∀ c, c < 16 → State.reset.rd (R.SCH_CORE_IDLEMIN.IDLEMIN c) = 10000) ∧ (∀ i, SMap.get defaultClass State.reset.evt.classes i = 0x0A#8) ∧
  State.reset.pstate = psNormal ∧ State.reset.rd R.SYS_RSTCAUSE.CAUSE = rcPoweron ∧ State.reset.rd R.RTC_STAT.OSF = 1 ∧ State.reset.rd R.RTC_STAT.BBAD = 1 ∧
  State.reset.rd R.RTC_STAT.TQ = 0 ∧ State.reset.mem = [] ∧ State.reset.pending = [] ∧ State.reset.mt = 0

/-- Every command whose units the module has answers a next state from every state, and every other command stops with the fault
noSuchUnit: the units are those of the spec's tables, and no command names another. -/
def Obligations.commands_complete : Prop :=
  ∀ (s : State) (c : Instr),
    (c.wf = true → ∃ t, exec c s = .next t) ∧
    (c.wf = false → exec c s = .fault .noSuchUnit)

/-- From every state in which memory and the register file are in their canonical forms and every waiting command is well formed,
the step answers a next state, takes exactly the front command off the queue, and the invariant holds again. So a run from such
a state never stops. -/
def Obligations.every_step_keeps_the_invariant : Prop :=
  ∀ (s : State),
    s.Inv → ∃ t, step s = .next t ∧ t.Inv ∧ t.pending = s.pending.tail
end

