-- ==== Sys2Proof/Laws/SMap.lean ====
section
/-!
SUPPORT. Laws of sparse maps: a read after a write, and the canonical form kept by every operation.
-/

namespace Sys2Proof.Machine

variable {β : Type}

theorem SMap.above_mono {j k : Nat} (h : j ≤ k) {m : SMap β} (hm : SMap.above k m = true) : SMap.above j m = true := by
  simp only [SMap.above, List.all_eq_true, decide_eq_true_eq] at *
  intro e he
  exact Nat.lt_of_le_of_lt h (hm e he)

/-- An erased map lists no key that the map does not. -/
theorem SMap.mem_erase {m : SMap β} {k : Nat} {e : Nat × β} (h : e ∈ SMap.erase m k) : e ∈ m := by
  induction m with
  | nil => simp [SMap.erase] at h
  | cons a m ih =>
    obtain ⟨j, v⟩ := a
    unfold SMap.erase at h
    split at h
    · exact List.mem_cons_of_mem _ (ih h)
    · rcases List.mem_cons.mp h with h | h
      · exact h ▸ List.mem_cons_self
      · exact List.mem_cons_of_mem _ (ih h)

theorem SMap.above_erase {m : SMap β} {j k : Nat} (h : SMap.above j m = true) : SMap.above j (SMap.erase m k) = true := by
  simp only [SMap.above, List.all_eq_true, decide_eq_true_eq] at *
  exact fun e he => h e (SMap.mem_erase he)

theorem SMap.above_insert {m : SMap β} {j k : Nat} {v : β} (h : SMap.above j m = true) (hk : j < k) :
    SMap.above j (SMap.insert k v m) = true := by
  induction m with
  | nil => simp [SMap.insert, SMap.above, hk]
  | cons a m ih =>
    obtain ⟨i, w⟩ := a
    simp only [SMap.above, List.all_cons, Bool.and_eq_true, decide_eq_true_eq] at h ih
    unfold SMap.insert
    split
    · simp only [SMap.above, List.all_cons, Bool.and_eq_true, decide_eq_true_eq]
      exact ⟨hk, h.1, h.2⟩
    · simp only [SMap.above, List.all_cons, Bool.and_eq_true, decide_eq_true_eq]
      exact ⟨h.1, ih h.2⟩

variable [DecidableEq β] {d : Nat → β}

theorem SMap.wf_cons {k : Nat} {v : β} {m : SMap β} :
    SMap.wf d ((k, v) :: m) = true ↔ SMap.above k m = true ∧ v ≠ d k ∧ SMap.wf d m = true := by
  simp [SMap.wf, and_assoc]

theorem SMap.wf_erase {m : SMap β} {k : Nat} (h : SMap.wf d m = true) : SMap.wf d (SMap.erase m k) = true := by
  induction m with
  | nil => rfl
  | cons a m ih =>
    obtain ⟨j, v⟩ := a
    obtain ⟨h1, h2, h3⟩ := SMap.wf_cons.mp h
    unfold SMap.erase
    split
    · exact ih h3
    · exact SMap.wf_cons.mpr ⟨SMap.above_erase h1, h2, ih h3⟩

theorem SMap.wf_insert {m : SMap β} {k : Nat} {v : β} (h : SMap.wf d m = true) (hv : v ≠ d k)
    (hk : ∀ e ∈ m, e.1 ≠ k) : SMap.wf d (SMap.insert k v m) = true := by
  induction m with
  | nil => simp [SMap.insert, SMap.wf, SMap.above, hv]
  | cons a m ih =>
    obtain ⟨j, w⟩ := a
    obtain ⟨h1, h2, h3⟩ := SMap.wf_cons.mp h
    unfold SMap.insert
    split
    · rename_i hlt
      refine SMap.wf_cons.mpr ⟨?_, hv, h⟩
      simp only [SMap.above, List.all_cons, Bool.and_eq_true, decide_eq_true_eq]
      exact ⟨hlt, SMap.above_mono (Nat.le_of_lt hlt) h1⟩
    · rename_i hlt
      have hne : j ≠ k := hk (j, w) List.mem_cons_self
      refine SMap.wf_cons.mpr ⟨SMap.above_insert h1 (by omega), h2, ih h3 fun e he => hk e (List.mem_cons_of_mem _ he)⟩

omit [DecidableEq β] in
theorem SMap.erase_ne {m : SMap β} {k : Nat} : ∀ e ∈ SMap.erase m k, e.1 ≠ k := by
  induction m with
  | nil => simp [SMap.erase]
  | cons a m ih =>
    obtain ⟨j, v⟩ := a
    unfold SMap.erase
    split
    · exact ih
    · rename_i hne
      intro e he
      rcases List.mem_cons.mp he with rfl | he
      · exact hne
      · exact ih e he

/-- A write keeps the canonical form. -/
theorem SMap.wf_set {m : SMap β} {k : Nat} {v : β} (h : SMap.wf d m = true) : SMap.wf d (SMap.set d m k v) = true := by
  unfold SMap.set
  split
  · exact SMap.wf_erase h
  · exact SMap.wf_insert (SMap.wf_erase h) ‹_› SMap.erase_ne

theorem SMap.wf_setMany {m : SMap β} {k : Nat} {vs : List β} (h : SMap.wf d m = true) :
    SMap.wf d (SMap.setMany d m k vs) = true := by
  induction vs generalizing m k with
  | nil => exact h
  | cons v vs ih => exact ih (SMap.wf_set h)

theorem SMap.wf_filter {m : SMap β} {p : Nat × β → Bool} (h : SMap.wf d m = true) : SMap.wf d (m.filter p) = true := by
  induction m with
  | nil => rfl
  | cons a m ih =>
    obtain ⟨j, v⟩ := a
    obtain ⟨h1, h2, h3⟩ := SMap.wf_cons.mp h
    rw [List.filter_cons]
    split
    · refine SMap.wf_cons.mpr ⟨?_, h2, ih h3⟩
      simp only [SMap.above, List.all_eq_true, decide_eq_true_eq] at *
      exact fun e he => h1 e (List.mem_of_mem_filter he)
    · exact ih h3

omit [DecidableEq β] in
theorem SMap.get_insert {m : SMap β} {k i : Nat} {v : β} (hk : ∀ e ∈ m, e.1 ≠ k) :
    SMap.get d (SMap.insert k v m) i = if i = k then v else SMap.get d m i := by
  induction m with
  | nil => simp only [SMap.insert, SMap.get, eq_comm]
  | cons a m ih =>
    obtain ⟨j, w⟩ := a
    have hne : j ≠ k := hk (j, w) List.mem_cons_self
    have ih := ih fun e he => hk e (List.mem_cons_of_mem _ he)
    unfold SMap.insert
    split
    · simp only [SMap.get, eq_comm]
    · simp only [SMap.get, ih]
      by_cases h1 : j = i
      · subst h1; simp [hne]
      · simp [h1]

omit [DecidableEq β] in
theorem SMap.get_erase {m : SMap β} {k i : Nat} :
    i ≠ k → SMap.get d (SMap.erase m k) i = SMap.get d m i := by
  intro hi
  induction m with
  | nil => rfl
  | cons a m ih =>
    obtain ⟨j, w⟩ := a
    unfold SMap.erase
    split
    · rename_i h; subst h; simp only [SMap.get, ih, Ne.symm hi, if_false]
    · simp only [SMap.get, ih]

omit [DecidableEq β] in
theorem SMap.get_erase_self {m : SMap β} {k : Nat} : SMap.get d (SMap.erase m k) k = d k := by
  induction m with
  | nil => rfl
  | cons a m ih =>
    obtain ⟨j, w⟩ := a
    unfold SMap.erase
    split
    · exact ih
    · rename_i h; simp only [SMap.get, h, if_false, ih]

/-- A read after a write: the key written gives the value, every other key what it gave. -/
theorem SMap.get_set {m : SMap β} {k i : Nat} {v : β} :
    SMap.get d (SMap.set d m k v) i = if i = k then v else SMap.get d m i := by
  unfold SMap.set
  split
  · rename_i h
    by_cases hi : i = k
    · subst hi; simp [SMap.get_erase_self, h]
    · simp [hi, SMap.get_erase hi]
  · rw [SMap.get_insert SMap.erase_ne]
    by_cases hi : i = k
    · simp [hi]
    · simp [hi, SMap.get_erase hi]

@[simp] theorem SMap.get_set_self {m : SMap β} {k : Nat} {v : β} : SMap.get d (SMap.set d m k v) k = v := by
  simp [SMap.get_set]

theorem SMap.get_set_ne {m : SMap β} {k i : Nat} {v : β} (h : i ≠ k) :
    SMap.get d (SMap.set d m k v) i = SMap.get d m i := by simp [SMap.get_set, h]

/-- A read outside a range written. -/
theorem SMap.get_setMany_of_lt {m : SMap β} {k i : Nat} {vs : List β} (h : i < k ∨ k + vs.length ≤ i) :
    SMap.get d (SMap.setMany d m k vs) i = SMap.get d m i := by
  induction vs generalizing m k with
  | nil => rfl
  | cons v vs ih =>
    simp only [SMap.setMany, List.length_cons] at *
    rw [ih (by omega), SMap.get_set_ne (by omega)]

end Sys2Proof.Machine
end

