-- ==== Sys2Proof/Laws/State.lean ====
section
/-!
SUPPORT. What each update of State leaves: one lemma per field per update, true by rfl.
-/

namespace Sys2Proof.Machine

variable (s : State)

@[simp] theorem State.setReg_latched (a : Nat) (v : Word) : (s.setReg a v).latched = s.latched := rfl
@[simp] theorem State.setReg_mt (a : Nat) (v : Word) : (s.setReg a v).mt = s.mt := rfl
@[simp] theorem State.setReg_now (a : Nat) (v : Word) : (s.setReg a v).now = s.now := rfl
@[simp] theorem State.setReg_busRead (a : Nat) (v : Word) : (s.setReg a v).busRead = s.busRead := rfl
@[simp] theorem State.setReg_fresh (a : Nat) (v : Word) : (s.setReg a v).fresh = s.fresh := rfl
@[simp] theorem State.setReg_asn (a : Nat) (v : Word) : (s.setReg a v).asn = s.asn := rfl
@[simp] theorem State.setReg_sch (a : Nat) (v : Word) : (s.setReg a v).sch = s.sch := rfl
@[simp] theorem State.setReg_img (a : Nat) (v : Word) : (s.setReg a v).img = s.img := rfl
@[simp] theorem State.setReg_hop (a : Nat) (v : Word) : (s.setReg a v).hop = s.hop := rfl
@[simp] theorem State.setReg_fab (a : Nat) (v : Word) : (s.setReg a v).fab = s.fab := rfl
@[simp] theorem State.setReg_gate (a : Nat) (v : Word) : (s.setReg a v).gate = s.gate := rfl
@[simp] theorem State.setReg_loop (a : Nat) (v : Word) : (s.setReg a v).loop = s.loop := rfl
@[simp] theorem State.setReg_mtr (a : Nat) (v : Word) : (s.setReg a v).mtr = s.mtr := rfl
@[simp] theorem State.setReg_dio (a : Nat) (v : Word) : (s.setReg a v).dio = s.dio := rfl
@[simp] theorem State.setReg_can (a : Nat) (v : Word) : (s.setReg a v).can = s.can := rfl
@[simp] theorem State.setReg_integ (a : Nat) (v : Word) : (s.setReg a v).integ = s.integ := rfl
@[simp] theorem State.setReg_key (a : Nat) (v : Word) : (s.setReg a v).key = s.key := rfl
@[simp] theorem State.setReg_evt (a : Nat) (v : Word) : (s.setReg a v).evt = s.evt := rfl
@[simp] theorem State.setReg_pair (a : Nat) (v : Word) : (s.setReg a v).pair = s.pair := rfl
@[simp] theorem State.setReg_upd (a : Nat) (v : Word) : (s.setReg a v).upd = s.upd := rfl
@[simp] theorem State.setReg_pwr (a : Nat) (v : Word) : (s.setReg a v).pwr = s.pwr := rfl
@[simp] theorem State.setReg_rtc (a : Nat) (v : Word) : (s.setReg a v).rtc = s.rtc := rfl
@[simp] theorem State.setReg_start (a : Nat) (v : Word) : (s.setReg a v).start = s.start := rfl
@[simp] theorem State.setReg_pending (a : Nat) (v : Word) : (s.setReg a v).pending = s.pending := rfl
@[simp] theorem State.setReg_mem (a : Nat) (v : Word) : (s.setReg a v).mem = s.mem := rfl
@[simp] theorem State.setReg_byte (a : Nat) (v : Word) (j : Nat) : (s.setReg a v).byte j = s.byte j := rfl
@[simp] theorem State.setReg_mtNs (a : Nat) (v : Word) : (s.setReg a v).mtNs = s.mtNs := rfl

@[simp] theorem State.wr_latched (f : Fld) (v : Nat) : (s.wr f v).latched = s.latched := rfl
@[simp] theorem State.wr_mt (f : Fld) (v : Nat) : (s.wr f v).mt = s.mt := rfl
@[simp] theorem State.wr_now (f : Fld) (v : Nat) : (s.wr f v).now = s.now := rfl
@[simp] theorem State.wr_busRead (f : Fld) (v : Nat) : (s.wr f v).busRead = s.busRead := rfl
@[simp] theorem State.wr_fresh (f : Fld) (v : Nat) : (s.wr f v).fresh = s.fresh := rfl
@[simp] theorem State.wr_asn (f : Fld) (v : Nat) : (s.wr f v).asn = s.asn := rfl
@[simp] theorem State.wr_sch (f : Fld) (v : Nat) : (s.wr f v).sch = s.sch := rfl
@[simp] theorem State.wr_img (f : Fld) (v : Nat) : (s.wr f v).img = s.img := rfl
@[simp] theorem State.wr_hop (f : Fld) (v : Nat) : (s.wr f v).hop = s.hop := rfl
@[simp] theorem State.wr_fab (f : Fld) (v : Nat) : (s.wr f v).fab = s.fab := rfl
@[simp] theorem State.wr_gate (f : Fld) (v : Nat) : (s.wr f v).gate = s.gate := rfl
@[simp] theorem State.wr_loop (f : Fld) (v : Nat) : (s.wr f v).loop = s.loop := rfl
@[simp] theorem State.wr_mtr (f : Fld) (v : Nat) : (s.wr f v).mtr = s.mtr := rfl
@[simp] theorem State.wr_dio (f : Fld) (v : Nat) : (s.wr f v).dio = s.dio := rfl
@[simp] theorem State.wr_can (f : Fld) (v : Nat) : (s.wr f v).can = s.can := rfl
@[simp] theorem State.wr_integ (f : Fld) (v : Nat) : (s.wr f v).integ = s.integ := rfl
@[simp] theorem State.wr_key (f : Fld) (v : Nat) : (s.wr f v).key = s.key := rfl
@[simp] theorem State.wr_evt (f : Fld) (v : Nat) : (s.wr f v).evt = s.evt := rfl
@[simp] theorem State.wr_pair (f : Fld) (v : Nat) : (s.wr f v).pair = s.pair := rfl
@[simp] theorem State.wr_upd (f : Fld) (v : Nat) : (s.wr f v).upd = s.upd := rfl
@[simp] theorem State.wr_pwr (f : Fld) (v : Nat) : (s.wr f v).pwr = s.pwr := rfl
@[simp] theorem State.wr_rtc (f : Fld) (v : Nat) : (s.wr f v).rtc = s.rtc := rfl
@[simp] theorem State.wr_start (f : Fld) (v : Nat) : (s.wr f v).start = s.start := rfl
@[simp] theorem State.wr_pending (f : Fld) (v : Nat) : (s.wr f v).pending = s.pending := rfl
@[simp] theorem State.wr_mem (f : Fld) (v : Nat) : (s.wr f v).mem = s.mem := rfl
@[simp] theorem State.wr_byte (f : Fld) (v : Nat) (j : Nat) : (s.wr f v).byte j = s.byte j := rfl
@[simp] theorem State.wr_mtNs (f : Fld) (v : Nat) : (s.wr f v).mtNs = s.mtNs := rfl

@[simp] theorem State.wrb_latched (f : Fld) (b : Bool) : (s.wrb f b).latched = s.latched := rfl
@[simp] theorem State.wrb_mt (f : Fld) (b : Bool) : (s.wrb f b).mt = s.mt := rfl
@[simp] theorem State.wrb_now (f : Fld) (b : Bool) : (s.wrb f b).now = s.now := rfl
@[simp] theorem State.wrb_busRead (f : Fld) (b : Bool) : (s.wrb f b).busRead = s.busRead := rfl
@[simp] theorem State.wrb_fresh (f : Fld) (b : Bool) : (s.wrb f b).fresh = s.fresh := rfl
@[simp] theorem State.wrb_asn (f : Fld) (b : Bool) : (s.wrb f b).asn = s.asn := rfl
@[simp] theorem State.wrb_sch (f : Fld) (b : Bool) : (s.wrb f b).sch = s.sch := rfl
@[simp] theorem State.wrb_img (f : Fld) (b : Bool) : (s.wrb f b).img = s.img := rfl
@[simp] theorem State.wrb_hop (f : Fld) (b : Bool) : (s.wrb f b).hop = s.hop := rfl
@[simp] theorem State.wrb_fab (f : Fld) (b : Bool) : (s.wrb f b).fab = s.fab := rfl
@[simp] theorem State.wrb_gate (f : Fld) (b : Bool) : (s.wrb f b).gate = s.gate := rfl
@[simp] theorem State.wrb_loop (f : Fld) (b : Bool) : (s.wrb f b).loop = s.loop := rfl
@[simp] theorem State.wrb_mtr (f : Fld) (b : Bool) : (s.wrb f b).mtr = s.mtr := rfl
@[simp] theorem State.wrb_dio (f : Fld) (b : Bool) : (s.wrb f b).dio = s.dio := rfl
@[simp] theorem State.wrb_can (f : Fld) (b : Bool) : (s.wrb f b).can = s.can := rfl
@[simp] theorem State.wrb_integ (f : Fld) (b : Bool) : (s.wrb f b).integ = s.integ := rfl
@[simp] theorem State.wrb_key (f : Fld) (b : Bool) : (s.wrb f b).key = s.key := rfl
@[simp] theorem State.wrb_evt (f : Fld) (b : Bool) : (s.wrb f b).evt = s.evt := rfl
@[simp] theorem State.wrb_pair (f : Fld) (b : Bool) : (s.wrb f b).pair = s.pair := rfl
@[simp] theorem State.wrb_upd (f : Fld) (b : Bool) : (s.wrb f b).upd = s.upd := rfl
@[simp] theorem State.wrb_pwr (f : Fld) (b : Bool) : (s.wrb f b).pwr = s.pwr := rfl
@[simp] theorem State.wrb_rtc (f : Fld) (b : Bool) : (s.wrb f b).rtc = s.rtc := rfl
@[simp] theorem State.wrb_start (f : Fld) (b : Bool) : (s.wrb f b).start = s.start := rfl
@[simp] theorem State.wrb_pending (f : Fld) (b : Bool) : (s.wrb f b).pending = s.pending := rfl
@[simp] theorem State.wrb_mem (f : Fld) (b : Bool) : (s.wrb f b).mem = s.mem := rfl
@[simp] theorem State.wrb_byte (f : Fld) (b : Bool) (j : Nat) : (s.wrb f b).byte j = s.byte j := rfl
@[simp] theorem State.wrb_mtNs (f : Fld) (b : Bool) : (s.wrb f b).mtNs = s.mtNs := rfl

@[simp] theorem State.raise_latched (f : Fld) : (s.raise f).latched = s.latched := rfl
@[simp] theorem State.raise_mt (f : Fld) : (s.raise f).mt = s.mt := rfl
@[simp] theorem State.raise_now (f : Fld) : (s.raise f).now = s.now := rfl
@[simp] theorem State.raise_busRead (f : Fld) : (s.raise f).busRead = s.busRead := rfl
@[simp] theorem State.raise_fresh (f : Fld) : (s.raise f).fresh = s.fresh := rfl
@[simp] theorem State.raise_asn (f : Fld) : (s.raise f).asn = s.asn := rfl
@[simp] theorem State.raise_sch (f : Fld) : (s.raise f).sch = s.sch := rfl
@[simp] theorem State.raise_img (f : Fld) : (s.raise f).img = s.img := rfl
@[simp] theorem State.raise_hop (f : Fld) : (s.raise f).hop = s.hop := rfl
@[simp] theorem State.raise_fab (f : Fld) : (s.raise f).fab = s.fab := rfl
@[simp] theorem State.raise_gate (f : Fld) : (s.raise f).gate = s.gate := rfl
@[simp] theorem State.raise_loop (f : Fld) : (s.raise f).loop = s.loop := rfl
@[simp] theorem State.raise_mtr (f : Fld) : (s.raise f).mtr = s.mtr := rfl
@[simp] theorem State.raise_dio (f : Fld) : (s.raise f).dio = s.dio := rfl
@[simp] theorem State.raise_can (f : Fld) : (s.raise f).can = s.can := rfl
@[simp] theorem State.raise_integ (f : Fld) : (s.raise f).integ = s.integ := rfl
@[simp] theorem State.raise_key (f : Fld) : (s.raise f).key = s.key := rfl
@[simp] theorem State.raise_evt (f : Fld) : (s.raise f).evt = s.evt := rfl
@[simp] theorem State.raise_pair (f : Fld) : (s.raise f).pair = s.pair := rfl
@[simp] theorem State.raise_upd (f : Fld) : (s.raise f).upd = s.upd := rfl
@[simp] theorem State.raise_pwr (f : Fld) : (s.raise f).pwr = s.pwr := rfl
@[simp] theorem State.raise_rtc (f : Fld) : (s.raise f).rtc = s.rtc := rfl
@[simp] theorem State.raise_start (f : Fld) : (s.raise f).start = s.start := rfl
@[simp] theorem State.raise_pending (f : Fld) : (s.raise f).pending = s.pending := rfl
@[simp] theorem State.raise_mem (f : Fld) : (s.raise f).mem = s.mem := rfl
@[simp] theorem State.raise_byte (f : Fld) (j : Nat) : (s.raise f).byte j = s.byte j := rfl
@[simp] theorem State.raise_mtNs (f : Fld) : (s.raise f).mtNs = s.mtNs := rfl

@[simp] theorem State.clear_latched (f : Fld) : (s.clear f).latched = s.latched := rfl
@[simp] theorem State.clear_mt (f : Fld) : (s.clear f).mt = s.mt := rfl
@[simp] theorem State.clear_now (f : Fld) : (s.clear f).now = s.now := rfl
@[simp] theorem State.clear_busRead (f : Fld) : (s.clear f).busRead = s.busRead := rfl
@[simp] theorem State.clear_fresh (f : Fld) : (s.clear f).fresh = s.fresh := rfl
@[simp] theorem State.clear_asn (f : Fld) : (s.clear f).asn = s.asn := rfl
@[simp] theorem State.clear_sch (f : Fld) : (s.clear f).sch = s.sch := rfl
@[simp] theorem State.clear_img (f : Fld) : (s.clear f).img = s.img := rfl
@[simp] theorem State.clear_hop (f : Fld) : (s.clear f).hop = s.hop := rfl
@[simp] theorem State.clear_fab (f : Fld) : (s.clear f).fab = s.fab := rfl
@[simp] theorem State.clear_gate (f : Fld) : (s.clear f).gate = s.gate := rfl
@[simp] theorem State.clear_loop (f : Fld) : (s.clear f).loop = s.loop := rfl
@[simp] theorem State.clear_mtr (f : Fld) : (s.clear f).mtr = s.mtr := rfl
@[simp] theorem State.clear_dio (f : Fld) : (s.clear f).dio = s.dio := rfl
@[simp] theorem State.clear_can (f : Fld) : (s.clear f).can = s.can := rfl
@[simp] theorem State.clear_integ (f : Fld) : (s.clear f).integ = s.integ := rfl
@[simp] theorem State.clear_key (f : Fld) : (s.clear f).key = s.key := rfl
@[simp] theorem State.clear_evt (f : Fld) : (s.clear f).evt = s.evt := rfl
@[simp] theorem State.clear_pair (f : Fld) : (s.clear f).pair = s.pair := rfl
@[simp] theorem State.clear_upd (f : Fld) : (s.clear f).upd = s.upd := rfl
@[simp] theorem State.clear_pwr (f : Fld) : (s.clear f).pwr = s.pwr := rfl
@[simp] theorem State.clear_rtc (f : Fld) : (s.clear f).rtc = s.rtc := rfl
@[simp] theorem State.clear_start (f : Fld) : (s.clear f).start = s.start := rfl
@[simp] theorem State.clear_pending (f : Fld) : (s.clear f).pending = s.pending := rfl
@[simp] theorem State.clear_mem (f : Fld) : (s.clear f).mem = s.mem := rfl
@[simp] theorem State.clear_byte (f : Fld) (j : Nat) : (s.clear f).byte j = s.byte j := rfl
@[simp] theorem State.clear_mtNs (f : Fld) : (s.clear f).mtNs = s.mtNs := rfl

@[simp] theorem State.bumpBy_latched (f : Fld) (n : Nat) : (s.bumpBy f n).latched = s.latched := rfl
@[simp] theorem State.bumpBy_mt (f : Fld) (n : Nat) : (s.bumpBy f n).mt = s.mt := rfl
@[simp] theorem State.bumpBy_now (f : Fld) (n : Nat) : (s.bumpBy f n).now = s.now := rfl
@[simp] theorem State.bumpBy_busRead (f : Fld) (n : Nat) : (s.bumpBy f n).busRead = s.busRead := rfl
@[simp] theorem State.bumpBy_fresh (f : Fld) (n : Nat) : (s.bumpBy f n).fresh = s.fresh := rfl
@[simp] theorem State.bumpBy_asn (f : Fld) (n : Nat) : (s.bumpBy f n).asn = s.asn := rfl
@[simp] theorem State.bumpBy_sch (f : Fld) (n : Nat) : (s.bumpBy f n).sch = s.sch := rfl
@[simp] theorem State.bumpBy_img (f : Fld) (n : Nat) : (s.bumpBy f n).img = s.img := rfl
@[simp] theorem State.bumpBy_hop (f : Fld) (n : Nat) : (s.bumpBy f n).hop = s.hop := rfl
@[simp] theorem State.bumpBy_fab (f : Fld) (n : Nat) : (s.bumpBy f n).fab = s.fab := rfl
@[simp] theorem State.bumpBy_gate (f : Fld) (n : Nat) : (s.bumpBy f n).gate = s.gate := rfl
@[simp] theorem State.bumpBy_loop (f : Fld) (n : Nat) : (s.bumpBy f n).loop = s.loop := rfl
@[simp] theorem State.bumpBy_mtr (f : Fld) (n : Nat) : (s.bumpBy f n).mtr = s.mtr := rfl
@[simp] theorem State.bumpBy_dio (f : Fld) (n : Nat) : (s.bumpBy f n).dio = s.dio := rfl
@[simp] theorem State.bumpBy_can (f : Fld) (n : Nat) : (s.bumpBy f n).can = s.can := rfl
@[simp] theorem State.bumpBy_integ (f : Fld) (n : Nat) : (s.bumpBy f n).integ = s.integ := rfl
@[simp] theorem State.bumpBy_key (f : Fld) (n : Nat) : (s.bumpBy f n).key = s.key := rfl
@[simp] theorem State.bumpBy_evt (f : Fld) (n : Nat) : (s.bumpBy f n).evt = s.evt := rfl
@[simp] theorem State.bumpBy_pair (f : Fld) (n : Nat) : (s.bumpBy f n).pair = s.pair := rfl
@[simp] theorem State.bumpBy_upd (f : Fld) (n : Nat) : (s.bumpBy f n).upd = s.upd := rfl
@[simp] theorem State.bumpBy_pwr (f : Fld) (n : Nat) : (s.bumpBy f n).pwr = s.pwr := rfl
@[simp] theorem State.bumpBy_rtc (f : Fld) (n : Nat) : (s.bumpBy f n).rtc = s.rtc := rfl
@[simp] theorem State.bumpBy_start (f : Fld) (n : Nat) : (s.bumpBy f n).start = s.start := rfl
@[simp] theorem State.bumpBy_pending (f : Fld) (n : Nat) : (s.bumpBy f n).pending = s.pending := rfl
@[simp] theorem State.bumpBy_mem (f : Fld) (n : Nat) : (s.bumpBy f n).mem = s.mem := rfl
@[simp] theorem State.bumpBy_byte (f : Fld) (n : Nat) (j : Nat) : (s.bumpBy f n).byte j = s.byte j := rfl
@[simp] theorem State.bumpBy_mtNs (f : Fld) (n : Nat) : (s.bumpBy f n).mtNs = s.mtNs := rfl

@[simp] theorem State.bump_latched (f : Fld) : (s.bump f).latched = s.latched := rfl
@[simp] theorem State.bump_mt (f : Fld) : (s.bump f).mt = s.mt := rfl
@[simp] theorem State.bump_now (f : Fld) : (s.bump f).now = s.now := rfl
@[simp] theorem State.bump_busRead (f : Fld) : (s.bump f).busRead = s.busRead := rfl
@[simp] theorem State.bump_fresh (f : Fld) : (s.bump f).fresh = s.fresh := rfl
@[simp] theorem State.bump_asn (f : Fld) : (s.bump f).asn = s.asn := rfl
@[simp] theorem State.bump_sch (f : Fld) : (s.bump f).sch = s.sch := rfl
@[simp] theorem State.bump_img (f : Fld) : (s.bump f).img = s.img := rfl
@[simp] theorem State.bump_hop (f : Fld) : (s.bump f).hop = s.hop := rfl
@[simp] theorem State.bump_fab (f : Fld) : (s.bump f).fab = s.fab := rfl
@[simp] theorem State.bump_gate (f : Fld) : (s.bump f).gate = s.gate := rfl
@[simp] theorem State.bump_loop (f : Fld) : (s.bump f).loop = s.loop := rfl
@[simp] theorem State.bump_mtr (f : Fld) : (s.bump f).mtr = s.mtr := rfl
@[simp] theorem State.bump_dio (f : Fld) : (s.bump f).dio = s.dio := rfl
@[simp] theorem State.bump_can (f : Fld) : (s.bump f).can = s.can := rfl
@[simp] theorem State.bump_integ (f : Fld) : (s.bump f).integ = s.integ := rfl
@[simp] theorem State.bump_key (f : Fld) : (s.bump f).key = s.key := rfl
@[simp] theorem State.bump_evt (f : Fld) : (s.bump f).evt = s.evt := rfl
@[simp] theorem State.bump_pair (f : Fld) : (s.bump f).pair = s.pair := rfl
@[simp] theorem State.bump_upd (f : Fld) : (s.bump f).upd = s.upd := rfl
@[simp] theorem State.bump_pwr (f : Fld) : (s.bump f).pwr = s.pwr := rfl
@[simp] theorem State.bump_rtc (f : Fld) : (s.bump f).rtc = s.rtc := rfl
@[simp] theorem State.bump_start (f : Fld) : (s.bump f).start = s.start := rfl
@[simp] theorem State.bump_pending (f : Fld) : (s.bump f).pending = s.pending := rfl
@[simp] theorem State.bump_mem (f : Fld) : (s.bump f).mem = s.mem := rfl
@[simp] theorem State.bump_byte (f : Fld) (j : Nat) : (s.bump f).byte j = s.byte j := rfl
@[simp] theorem State.bump_mtNs (f : Fld) : (s.bump f).mtNs = s.mtNs := rfl

@[simp] theorem State.wrap_latched (f : Fld) : (s.wrap f).latched = s.latched := rfl
@[simp] theorem State.wrap_mt (f : Fld) : (s.wrap f).mt = s.mt := rfl
@[simp] theorem State.wrap_now (f : Fld) : (s.wrap f).now = s.now := rfl
@[simp] theorem State.wrap_busRead (f : Fld) : (s.wrap f).busRead = s.busRead := rfl
@[simp] theorem State.wrap_fresh (f : Fld) : (s.wrap f).fresh = s.fresh := rfl
@[simp] theorem State.wrap_asn (f : Fld) : (s.wrap f).asn = s.asn := rfl
@[simp] theorem State.wrap_sch (f : Fld) : (s.wrap f).sch = s.sch := rfl
@[simp] theorem State.wrap_img (f : Fld) : (s.wrap f).img = s.img := rfl
@[simp] theorem State.wrap_hop (f : Fld) : (s.wrap f).hop = s.hop := rfl
@[simp] theorem State.wrap_fab (f : Fld) : (s.wrap f).fab = s.fab := rfl
@[simp] theorem State.wrap_gate (f : Fld) : (s.wrap f).gate = s.gate := rfl
@[simp] theorem State.wrap_loop (f : Fld) : (s.wrap f).loop = s.loop := rfl
@[simp] theorem State.wrap_mtr (f : Fld) : (s.wrap f).mtr = s.mtr := rfl
@[simp] theorem State.wrap_dio (f : Fld) : (s.wrap f).dio = s.dio := rfl
@[simp] theorem State.wrap_can (f : Fld) : (s.wrap f).can = s.can := rfl
@[simp] theorem State.wrap_integ (f : Fld) : (s.wrap f).integ = s.integ := rfl
@[simp] theorem State.wrap_key (f : Fld) : (s.wrap f).key = s.key := rfl
@[simp] theorem State.wrap_evt (f : Fld) : (s.wrap f).evt = s.evt := rfl
@[simp] theorem State.wrap_pair (f : Fld) : (s.wrap f).pair = s.pair := rfl
@[simp] theorem State.wrap_upd (f : Fld) : (s.wrap f).upd = s.upd := rfl
@[simp] theorem State.wrap_pwr (f : Fld) : (s.wrap f).pwr = s.pwr := rfl
@[simp] theorem State.wrap_rtc (f : Fld) : (s.wrap f).rtc = s.rtc := rfl
@[simp] theorem State.wrap_start (f : Fld) : (s.wrap f).start = s.start := rfl
@[simp] theorem State.wrap_pending (f : Fld) : (s.wrap f).pending = s.pending := rfl
@[simp] theorem State.wrap_mem (f : Fld) : (s.wrap f).mem = s.mem := rfl
@[simp] theorem State.wrap_byte (f : Fld) (j : Nat) : (s.wrap f).byte j = s.byte j := rfl
@[simp] theorem State.wrap_mtNs (f : Fld) : (s.wrap f).mtNs = s.mtNs := rfl

@[simp] theorem State.wr64_latched (lo hi v : Nat) : (s.wr64 lo hi v).latched = s.latched := rfl
@[simp] theorem State.wr64_mt (lo hi v : Nat) : (s.wr64 lo hi v).mt = s.mt := rfl
@[simp] theorem State.wr64_now (lo hi v : Nat) : (s.wr64 lo hi v).now = s.now := rfl
@[simp] theorem State.wr64_busRead (lo hi v : Nat) : (s.wr64 lo hi v).busRead = s.busRead := rfl
@[simp] theorem State.wr64_fresh (lo hi v : Nat) : (s.wr64 lo hi v).fresh = s.fresh := rfl
@[simp] theorem State.wr64_asn (lo hi v : Nat) : (s.wr64 lo hi v).asn = s.asn := rfl
@[simp] theorem State.wr64_sch (lo hi v : Nat) : (s.wr64 lo hi v).sch = s.sch := rfl
@[simp] theorem State.wr64_img (lo hi v : Nat) : (s.wr64 lo hi v).img = s.img := rfl
@[simp] theorem State.wr64_hop (lo hi v : Nat) : (s.wr64 lo hi v).hop = s.hop := rfl
@[simp] theorem State.wr64_fab (lo hi v : Nat) : (s.wr64 lo hi v).fab = s.fab := rfl
@[simp] theorem State.wr64_gate (lo hi v : Nat) : (s.wr64 lo hi v).gate = s.gate := rfl
@[simp] theorem State.wr64_loop (lo hi v : Nat) : (s.wr64 lo hi v).loop = s.loop := rfl
@[simp] theorem State.wr64_mtr (lo hi v : Nat) : (s.wr64 lo hi v).mtr = s.mtr := rfl
@[simp] theorem State.wr64_dio (lo hi v : Nat) : (s.wr64 lo hi v).dio = s.dio := rfl
@[simp] theorem State.wr64_can (lo hi v : Nat) : (s.wr64 lo hi v).can = s.can := rfl
@[simp] theorem State.wr64_integ (lo hi v : Nat) : (s.wr64 lo hi v).integ = s.integ := rfl
@[simp] theorem State.wr64_key (lo hi v : Nat) : (s.wr64 lo hi v).key = s.key := rfl
@[simp] theorem State.wr64_evt (lo hi v : Nat) : (s.wr64 lo hi v).evt = s.evt := rfl
@[simp] theorem State.wr64_pair (lo hi v : Nat) : (s.wr64 lo hi v).pair = s.pair := rfl
@[simp] theorem State.wr64_upd (lo hi v : Nat) : (s.wr64 lo hi v).upd = s.upd := rfl
@[simp] theorem State.wr64_pwr (lo hi v : Nat) : (s.wr64 lo hi v).pwr = s.pwr := rfl
@[simp] theorem State.wr64_rtc (lo hi v : Nat) : (s.wr64 lo hi v).rtc = s.rtc := rfl
@[simp] theorem State.wr64_start (lo hi v : Nat) : (s.wr64 lo hi v).start = s.start := rfl
@[simp] theorem State.wr64_pending (lo hi v : Nat) : (s.wr64 lo hi v).pending = s.pending := rfl
@[simp] theorem State.wr64_mem (lo hi v : Nat) : (s.wr64 lo hi v).mem = s.mem := rfl
@[simp] theorem State.wr64_byte (lo hi v : Nat) (j : Nat) : (s.wr64 lo hi v).byte j = s.byte j := rfl
@[simp] theorem State.wr64_mtNs (lo hi v : Nat) : (s.wr64 lo hi v).mtNs = s.mtNs := rfl

@[simp] theorem State.setBit_latched (f : Fld) (i : Nat) (b : Bool) : (s.setBit f i b).latched = s.latched := rfl
@[simp] theorem State.setBit_mt (f : Fld) (i : Nat) (b : Bool) : (s.setBit f i b).mt = s.mt := rfl
@[simp] theorem State.setBit_now (f : Fld) (i : Nat) (b : Bool) : (s.setBit f i b).now = s.now := rfl
@[simp] theorem State.setBit_busRead (f : Fld) (i : Nat) (b : Bool) : (s.setBit f i b).busRead = s.busRead := rfl
@[simp] theorem State.setBit_fresh (f : Fld) (i : Nat) (b : Bool) : (s.setBit f i b).fresh = s.fresh := rfl
@[simp] theorem State.setBit_asn (f : Fld) (i : Nat) (b : Bool) : (s.setBit f i b).asn = s.asn := rfl
@[simp] theorem State.setBit_sch (f : Fld) (i : Nat) (b : Bool) : (s.setBit f i b).sch = s.sch := rfl
@[simp] theorem State.setBit_img (f : Fld) (i : Nat) (b : Bool) : (s.setBit f i b).img = s.img := rfl
@[simp] theorem State.setBit_hop (f : Fld) (i : Nat) (b : Bool) : (s.setBit f i b).hop = s.hop := rfl
@[simp] theorem State.setBit_fab (f : Fld) (i : Nat) (b : Bool) : (s.setBit f i b).fab = s.fab := rfl
@[simp] theorem State.setBit_gate (f : Fld) (i : Nat) (b : Bool) : (s.setBit f i b).gate = s.gate := rfl
@[simp] theorem State.setBit_loop (f : Fld) (i : Nat) (b : Bool) : (s.setBit f i b).loop = s.loop := rfl
@[simp] theorem State.setBit_mtr (f : Fld) (i : Nat) (b : Bool) : (s.setBit f i b).mtr = s.mtr := rfl
@[simp] theorem State.setBit_dio (f : Fld) (i : Nat) (b : Bool) : (s.setBit f i b).dio = s.dio := rfl
@[simp] theorem State.setBit_can (f : Fld) (i : Nat) (b : Bool) : (s.setBit f i b).can = s.can := rfl
@[simp] theorem State.setBit_integ (f : Fld) (i : Nat) (b : Bool) : (s.setBit f i b).integ = s.integ := rfl
@[simp] theorem State.setBit_key (f : Fld) (i : Nat) (b : Bool) : (s.setBit f i b).key = s.key := rfl
@[simp] theorem State.setBit_evt (f : Fld) (i : Nat) (b : Bool) : (s.setBit f i b).evt = s.evt := rfl
@[simp] theorem State.setBit_pair (f : Fld) (i : Nat) (b : Bool) : (s.setBit f i b).pair = s.pair := rfl
@[simp] theorem State.setBit_upd (f : Fld) (i : Nat) (b : Bool) : (s.setBit f i b).upd = s.upd := rfl
@[simp] theorem State.setBit_pwr (f : Fld) (i : Nat) (b : Bool) : (s.setBit f i b).pwr = s.pwr := rfl
@[simp] theorem State.setBit_rtc (f : Fld) (i : Nat) (b : Bool) : (s.setBit f i b).rtc = s.rtc := rfl
@[simp] theorem State.setBit_start (f : Fld) (i : Nat) (b : Bool) : (s.setBit f i b).start = s.start := rfl
@[simp] theorem State.setBit_pending (f : Fld) (i : Nat) (b : Bool) : (s.setBit f i b).pending = s.pending := rfl
@[simp] theorem State.setBit_mem (f : Fld) (i : Nat) (b : Bool) : (s.setBit f i b).mem = s.mem := rfl
@[simp] theorem State.setBit_byte (f : Fld) (i : Nat) (b : Bool) (j : Nat) : (s.setBit f i b).byte j = s.byte j := rfl
@[simp] theorem State.setBit_mtNs (f : Fld) (i : Nat) (b : Bool) : (s.setBit f i b).mtNs = s.mtNs := rfl

@[simp] theorem State.setByte_latched (a : Nat) (v : Byte) : (s.setByte a v).latched = s.latched := rfl
@[simp] theorem State.setByte_mt (a : Nat) (v : Byte) : (s.setByte a v).mt = s.mt := rfl
@[simp] theorem State.setByte_now (a : Nat) (v : Byte) : (s.setByte a v).now = s.now := rfl
@[simp] theorem State.setByte_busRead (a : Nat) (v : Byte) : (s.setByte a v).busRead = s.busRead := rfl
@[simp] theorem State.setByte_fresh (a : Nat) (v : Byte) : (s.setByte a v).fresh = s.fresh := rfl
@[simp] theorem State.setByte_asn (a : Nat) (v : Byte) : (s.setByte a v).asn = s.asn := rfl
@[simp] theorem State.setByte_sch (a : Nat) (v : Byte) : (s.setByte a v).sch = s.sch := rfl
@[simp] theorem State.setByte_img (a : Nat) (v : Byte) : (s.setByte a v).img = s.img := rfl
@[simp] theorem State.setByte_hop (a : Nat) (v : Byte) : (s.setByte a v).hop = s.hop := rfl
@[simp] theorem State.setByte_fab (a : Nat) (v : Byte) : (s.setByte a v).fab = s.fab := rfl
@[simp] theorem State.setByte_gate (a : Nat) (v : Byte) : (s.setByte a v).gate = s.gate := rfl
@[simp] theorem State.setByte_loop (a : Nat) (v : Byte) : (s.setByte a v).loop = s.loop := rfl
@[simp] theorem State.setByte_mtr (a : Nat) (v : Byte) : (s.setByte a v).mtr = s.mtr := rfl
@[simp] theorem State.setByte_dio (a : Nat) (v : Byte) : (s.setByte a v).dio = s.dio := rfl
@[simp] theorem State.setByte_can (a : Nat) (v : Byte) : (s.setByte a v).can = s.can := rfl
@[simp] theorem State.setByte_integ (a : Nat) (v : Byte) : (s.setByte a v).integ = s.integ := rfl
@[simp] theorem State.setByte_key (a : Nat) (v : Byte) : (s.setByte a v).key = s.key := rfl
@[simp] theorem State.setByte_evt (a : Nat) (v : Byte) : (s.setByte a v).evt = s.evt := rfl
@[simp] theorem State.setByte_pair (a : Nat) (v : Byte) : (s.setByte a v).pair = s.pair := rfl
@[simp] theorem State.setByte_upd (a : Nat) (v : Byte) : (s.setByte a v).upd = s.upd := rfl
@[simp] theorem State.setByte_pwr (a : Nat) (v : Byte) : (s.setByte a v).pwr = s.pwr := rfl
@[simp] theorem State.setByte_rtc (a : Nat) (v : Byte) : (s.setByte a v).rtc = s.rtc := rfl
@[simp] theorem State.setByte_start (a : Nat) (v : Byte) : (s.setByte a v).start = s.start := rfl
@[simp] theorem State.setByte_pending (a : Nat) (v : Byte) : (s.setByte a v).pending = s.pending := rfl
@[simp] theorem State.setByte_regs (a : Nat) (v : Byte) : (s.setByte a v).regs = s.regs := rfl
@[simp] theorem State.setByte_reg (a : Nat) (v : Byte) (i : Nat) : (s.setByte a v).reg i = s.reg i := rfl
@[simp] theorem State.setByte_rd (a : Nat) (v : Byte) (f : Fld) : (s.setByte a v).rd f = s.rd f := rfl

@[simp] theorem State.putBytes_latched (a : Nat) (bs : List Byte) : (s.putBytes a bs).latched = s.latched := rfl
@[simp] theorem State.putBytes_mt (a : Nat) (bs : List Byte) : (s.putBytes a bs).mt = s.mt := rfl
@[simp] theorem State.putBytes_now (a : Nat) (bs : List Byte) : (s.putBytes a bs).now = s.now := rfl
@[simp] theorem State.putBytes_busRead (a : Nat) (bs : List Byte) : (s.putBytes a bs).busRead = s.busRead := rfl
@[simp] theorem State.putBytes_fresh (a : Nat) (bs : List Byte) : (s.putBytes a bs).fresh = s.fresh := rfl
@[simp] theorem State.putBytes_asn (a : Nat) (bs : List Byte) : (s.putBytes a bs).asn = s.asn := rfl
@[simp] theorem State.putBytes_sch (a : Nat) (bs : List Byte) : (s.putBytes a bs).sch = s.sch := rfl
@[simp] theorem State.putBytes_img (a : Nat) (bs : List Byte) : (s.putBytes a bs).img = s.img := rfl
@[simp] theorem State.putBytes_hop (a : Nat) (bs : List Byte) : (s.putBytes a bs).hop = s.hop := rfl
@[simp] theorem State.putBytes_fab (a : Nat) (bs : List Byte) : (s.putBytes a bs).fab = s.fab := rfl
@[simp] theorem State.putBytes_gate (a : Nat) (bs : List Byte) : (s.putBytes a bs).gate = s.gate := rfl
@[simp] theorem State.putBytes_loop (a : Nat) (bs : List Byte) : (s.putBytes a bs).loop = s.loop := rfl
@[simp] theorem State.putBytes_mtr (a : Nat) (bs : List Byte) : (s.putBytes a bs).mtr = s.mtr := rfl
@[simp] theorem State.putBytes_dio (a : Nat) (bs : List Byte) : (s.putBytes a bs).dio = s.dio := rfl
@[simp] theorem State.putBytes_can (a : Nat) (bs : List Byte) : (s.putBytes a bs).can = s.can := rfl
@[simp] theorem State.putBytes_integ (a : Nat) (bs : List Byte) : (s.putBytes a bs).integ = s.integ := rfl
@[simp] theorem State.putBytes_key (a : Nat) (bs : List Byte) : (s.putBytes a bs).key = s.key := rfl
@[simp] theorem State.putBytes_evt (a : Nat) (bs : List Byte) : (s.putBytes a bs).evt = s.evt := rfl
@[simp] theorem State.putBytes_pair (a : Nat) (bs : List Byte) : (s.putBytes a bs).pair = s.pair := rfl
@[simp] theorem State.putBytes_upd (a : Nat) (bs : List Byte) : (s.putBytes a bs).upd = s.upd := rfl
@[simp] theorem State.putBytes_pwr (a : Nat) (bs : List Byte) : (s.putBytes a bs).pwr = s.pwr := rfl
@[simp] theorem State.putBytes_rtc (a : Nat) (bs : List Byte) : (s.putBytes a bs).rtc = s.rtc := rfl
@[simp] theorem State.putBytes_start (a : Nat) (bs : List Byte) : (s.putBytes a bs).start = s.start := rfl
@[simp] theorem State.putBytes_pending (a : Nat) (bs : List Byte) : (s.putBytes a bs).pending = s.pending := rfl
@[simp] theorem State.putBytes_regs (a : Nat) (bs : List Byte) : (s.putBytes a bs).regs = s.regs := rfl
@[simp] theorem State.putBytes_reg (a : Nat) (bs : List Byte) (i : Nat) : (s.putBytes a bs).reg i = s.reg i := rfl
@[simp] theorem State.putBytes_rd (a : Nat) (bs : List Byte) (f : Fld) : (s.putBytes a bs).rd f = s.rd f := rfl

@[simp] theorem State.taken_latched (n : Nat) : (s.taken n).latched = s.latched := rfl
@[simp] theorem State.taken_mt (n : Nat) : (s.taken n).mt = s.mt := rfl
@[simp] theorem State.taken_now (n : Nat) : (s.taken n).now = s.now := rfl
@[simp] theorem State.taken_busRead (n : Nat) : (s.taken n).busRead = s.busRead := rfl
@[simp] theorem State.taken_asn (n : Nat) : (s.taken n).asn = s.asn := rfl
@[simp] theorem State.taken_sch (n : Nat) : (s.taken n).sch = s.sch := rfl
@[simp] theorem State.taken_img (n : Nat) : (s.taken n).img = s.img := rfl
@[simp] theorem State.taken_hop (n : Nat) : (s.taken n).hop = s.hop := rfl
@[simp] theorem State.taken_fab (n : Nat) : (s.taken n).fab = s.fab := rfl
@[simp] theorem State.taken_gate (n : Nat) : (s.taken n).gate = s.gate := rfl
@[simp] theorem State.taken_loop (n : Nat) : (s.taken n).loop = s.loop := rfl
@[simp] theorem State.taken_mtr (n : Nat) : (s.taken n).mtr = s.mtr := rfl
@[simp] theorem State.taken_dio (n : Nat) : (s.taken n).dio = s.dio := rfl
@[simp] theorem State.taken_can (n : Nat) : (s.taken n).can = s.can := rfl
@[simp] theorem State.taken_integ (n : Nat) : (s.taken n).integ = s.integ := rfl
@[simp] theorem State.taken_key (n : Nat) : (s.taken n).key = s.key := rfl
@[simp] theorem State.taken_evt (n : Nat) : (s.taken n).evt = s.evt := rfl
@[simp] theorem State.taken_pair (n : Nat) : (s.taken n).pair = s.pair := rfl
@[simp] theorem State.taken_upd (n : Nat) : (s.taken n).upd = s.upd := rfl
@[simp] theorem State.taken_pwr (n : Nat) : (s.taken n).pwr = s.pwr := rfl
@[simp] theorem State.taken_rtc (n : Nat) : (s.taken n).rtc = s.rtc := rfl
@[simp] theorem State.taken_start (n : Nat) : (s.taken n).start = s.start := rfl
@[simp] theorem State.taken_pending (n : Nat) : (s.taken n).pending = s.pending := rfl
@[simp] theorem State.taken_regs (n : Nat) : (s.taken n).regs = s.regs := rfl
@[simp] theorem State.taken_mem (n : Nat) : (s.taken n).mem = s.mem := rfl
@[simp] theorem State.taken_rd (n : Nat) (f : Fld) : (s.taken n).rd f = s.rd f := rfl
@[simp] theorem State.taken_fresh (n : Nat) : (s.taken n).fresh = s.fresh + n := rfl

@[simp] theorem State.with_latched_mt (l : SMap (Option Word)) : ({ s with latched := l } : State).mt = s.mt := rfl
@[simp] theorem State.with_latched_now (l : SMap (Option Word)) : ({ s with latched := l } : State).now = s.now := rfl
@[simp] theorem State.with_latched_busRead (l : SMap (Option Word)) : ({ s with latched := l } : State).busRead = s.busRead := rfl
@[simp] theorem State.with_latched_fresh (l : SMap (Option Word)) : ({ s with latched := l } : State).fresh = s.fresh := rfl
@[simp] theorem State.with_latched_asn (l : SMap (Option Word)) : ({ s with latched := l } : State).asn = s.asn := rfl
@[simp] theorem State.with_latched_sch (l : SMap (Option Word)) : ({ s with latched := l } : State).sch = s.sch := rfl
@[simp] theorem State.with_latched_img (l : SMap (Option Word)) : ({ s with latched := l } : State).img = s.img := rfl
@[simp] theorem State.with_latched_hop (l : SMap (Option Word)) : ({ s with latched := l } : State).hop = s.hop := rfl
@[simp] theorem State.with_latched_fab (l : SMap (Option Word)) : ({ s with latched := l } : State).fab = s.fab := rfl
@[simp] theorem State.with_latched_gate (l : SMap (Option Word)) : ({ s with latched := l } : State).gate = s.gate := rfl
@[simp] theorem State.with_latched_loop (l : SMap (Option Word)) : ({ s with latched := l } : State).loop = s.loop := rfl
@[simp] theorem State.with_latched_mtr (l : SMap (Option Word)) : ({ s with latched := l } : State).mtr = s.mtr := rfl
@[simp] theorem State.with_latched_dio (l : SMap (Option Word)) : ({ s with latched := l } : State).dio = s.dio := rfl
@[simp] theorem State.with_latched_can (l : SMap (Option Word)) : ({ s with latched := l } : State).can = s.can := rfl
@[simp] theorem State.with_latched_integ (l : SMap (Option Word)) : ({ s with latched := l } : State).integ = s.integ := rfl
@[simp] theorem State.with_latched_key (l : SMap (Option Word)) : ({ s with latched := l } : State).key = s.key := rfl
@[simp] theorem State.with_latched_evt (l : SMap (Option Word)) : ({ s with latched := l } : State).evt = s.evt := rfl
@[simp] theorem State.with_latched_pair (l : SMap (Option Word)) : ({ s with latched := l } : State).pair = s.pair := rfl
@[simp] theorem State.with_latched_upd (l : SMap (Option Word)) : ({ s with latched := l } : State).upd = s.upd := rfl
@[simp] theorem State.with_latched_pwr (l : SMap (Option Word)) : ({ s with latched := l } : State).pwr = s.pwr := rfl
@[simp] theorem State.with_latched_rtc (l : SMap (Option Word)) : ({ s with latched := l } : State).rtc = s.rtc := rfl
@[simp] theorem State.with_latched_start (l : SMap (Option Word)) : ({ s with latched := l } : State).start = s.start := rfl
@[simp] theorem State.with_latched_pending (l : SMap (Option Word)) : ({ s with latched := l } : State).pending = s.pending := rfl
@[simp] theorem State.with_latched_mem (l : SMap (Option Word)) : ({ s with latched := l } : State).mem = s.mem := rfl
@[simp] theorem State.with_latched_regs (l : SMap (Option Word)) : ({ s with latched := l } : State).regs = s.regs := rfl

end Sys2Proof.Machine
end

