-- ==== Sys2Proof/Laws/Fields.lean ====
section
/-!
SUPPORT. A register or a field read after a write: the same field, a field of another register, another field of the same register.
-/

namespace Sys2Proof.Machine

variable {s : State}

theorem State.reg_setReg (a b : Nat) (v : Word) : (s.setReg a v).reg b = if b = a then v else s.reg b := SMap.get_set

@[simp] theorem State.reg_setReg_same (a : Nat) (v : Word) : (s.setReg a v).reg a = v := by
  rw [State.reg_setReg, if_pos rfl]

theorem State.reg_setReg_ne {a b : Nat} {v : Word} (h : b ≠ a) : (s.setReg a v).reg b = s.reg b := by
  rw [State.reg_setReg, if_neg h]

theorem State.reg_wr_ne {f : Fld} {v a : Nat} (h : a ≠ f.addr) : (s.wr f v).reg a = s.reg a := State.reg_setReg_ne h

/-- The bits of a word with a field replaced, as a number. -/
theorem putField_toNat {x : Word} {lo w v : Nat} (h : lo + w ≤ 32) :
    (putField x lo w v).toNat = x.toNat % 2 ^ lo + v % 2 ^ w * 2 ^ lo + x.toNat / 2 ^ (lo + w) * 2 ^ (lo + w) := by
  have hv : v % 2 ^ w < 2 ^ w := Nat.mod_lt _ (Nat.two_pow_pos w)
  have hl : x.toNat % 2 ^ lo < 2 ^ lo := Nat.mod_lt _ (Nat.two_pow_pos lo)
  have hx : x.toNat < 2 ^ 32 := x.isLt
  have hs : 2 ^ (lo + w) = 2 ^ w * 2 ^ lo := by rw [pow_add, mul_comm]
  obtain ⟨k, hk⟩ := Nat.exists_eq_add_of_le h
  have hp : 2 ^ 32 = 2 ^ k * 2 ^ (lo + w) := by rw [hk, pow_add, mul_comm]
  have hq : x.toNat / 2 ^ (lo + w) < 2 ^ k := Nat.div_lt_of_lt_mul (by rw [mul_comm, ← hp]; exact hx)
  have hlow : x.toNat % 2 ^ lo + v % 2 ^ w * 2 ^ lo < 2 ^ (lo + w) := by
    rw [hs]
    calc x.toNat % 2 ^ lo + v % 2 ^ w * 2 ^ lo < 2 ^ lo + v % 2 ^ w * 2 ^ lo := by omega
      _ = (v % 2 ^ w + 1) * 2 ^ lo := by ring
      _ ≤ 2 ^ w * 2 ^ lo := Nat.mul_le_mul_right _ hv
  unfold putField
  rw [Nat.mul_comm (2 ^ lo), Nat.mul_comm (2 ^ (lo + w)), BitVec.toNat_ofNat, Nat.mod_eq_of_lt]
  calc x.toNat % 2 ^ lo + v % 2 ^ w * 2 ^ lo + x.toNat / 2 ^ (lo + w) * 2 ^ (lo + w)
      < 2 ^ (lo + w) + x.toNat / 2 ^ (lo + w) * 2 ^ (lo + w) := by omega
    _ = (x.toNat / 2 ^ (lo + w) + 1) * 2 ^ (lo + w) := by ring
    _ ≤ 2 ^ k * 2 ^ (lo + w) := Nat.mul_le_mul_right _ hq
    _ = 2 ^ 32 := hp.symm

theorem getField_putField_same {x : Word} {lo w v : Nat} (h : lo + w ≤ 32) :
    getField (putField x lo w v) lo w = v % 2 ^ w := by
  have hl : x.toNat % 2 ^ lo < 2 ^ lo := Nat.mod_lt _ (Nat.two_pow_pos lo)
  unfold getField
  rw [putField_toNat h]
  have e : x.toNat % 2 ^ lo + v % 2 ^ w * 2 ^ lo + x.toNat / 2 ^ (lo + w) * 2 ^ (lo + w)
      = x.toNat % 2 ^ lo + (v % 2 ^ w + x.toNat / 2 ^ (lo + w) * 2 ^ w) * 2 ^ lo := by
    rw [pow_add]; ring
  rw [e, Nat.add_mul_div_right _ _ (Nat.two_pow_pos lo), Nat.div_eq_of_lt hl, Nat.zero_add, Nat.add_mul_mod_self_right,
    Nat.mod_mod]

/-- A field below the one replaced. -/
theorem getField_putField_below {x : Word} {lo w v lo' w' : Nat} (h : lo + w ≤ 32) (hd : lo' + w' ≤ lo) :
    getField (putField x lo w v) lo' w' = getField x lo' w' := by
  unfold getField
  rw [putField_toNat h]
  have key : ∀ n, n % 2 ^ lo / 2 ^ lo' % 2 ^ w' = n / 2 ^ lo' % 2 ^ w' := fun n => by
    obtain ⟨k, hk⟩ := Nat.exists_eq_add_of_le hd
    have e : 2 ^ lo = 2 ^ lo' * (2 ^ w' * 2 ^ k) := by rw [hk, pow_add, pow_add]; ring
    rw [e, Nat.mod_mul_right_div_self, Nat.mod_mul_right_mod]
  rw [← key, ← key x.toNat]
  congr 2
  have e : x.toNat % 2 ^ lo + v % 2 ^ w * 2 ^ lo + x.toNat / 2 ^ (lo + w) * 2 ^ (lo + w)
      = x.toNat % 2 ^ lo + (v % 2 ^ w + x.toNat / 2 ^ (lo + w) * 2 ^ w) * 2 ^ lo := by
    rw [pow_add]; ring
  rw [e, Nat.add_mul_mod_self_right, Nat.mod_mod]

/-- A field above the one replaced. -/
theorem getField_putField_above {x : Word} {lo w v lo' w' : Nat} (h : lo + w ≤ 32) (hd : lo + w ≤ lo') :
    getField (putField x lo w v) lo' w' = getField x lo' w' := by
  unfold getField
  rw [putField_toNat h]
  obtain ⟨k, hk⟩ := Nat.exists_eq_add_of_le hd
  have hv : v % 2 ^ w < 2 ^ w := Nat.mod_lt _ (Nat.two_pow_pos w)
  have hl : x.toNat % 2 ^ lo < 2 ^ lo := Nat.mod_lt _ (Nat.two_pow_pos lo)
  have hlow : x.toNat % 2 ^ lo + v % 2 ^ w * 2 ^ lo < 2 ^ (lo + w) := by
    calc x.toNat % 2 ^ lo + v % 2 ^ w * 2 ^ lo < 2 ^ lo + v % 2 ^ w * 2 ^ lo := by omega
      _ = (v % 2 ^ w + 1) * 2 ^ lo := by ring
      _ ≤ 2 ^ w * 2 ^ lo := Nat.mul_le_mul_right _ hv
      _ = 2 ^ (lo + w) := by rw [pow_add, mul_comm]
  rw [hk, pow_add 2 (lo + w) k, ← Nat.div_div_eq_div_mul, ← Nat.div_div_eq_div_mul, Nat.add_mul_div_right _ _ (Nat.two_pow_pos _),
    Nat.div_eq_of_lt hlow, Nat.zero_add]

/-- A field read after a write of the same field. -/
theorem State.rd_wr_same {f : Fld} {v : Nat} (h : f.lo + f.w ≤ 32) : (s.wr f v).rd f = v % 2 ^ f.w := by
  unfold State.rd State.wr
  rw [State.reg_setReg_same, getField_putField_same h]

/-- A field read after a write in another register. -/
theorem State.rd_wr_ne {f g : Fld} {v : Nat} (h : g.addr ≠ f.addr) : (s.wr f v).rd g = s.rd g := by
  unfold State.rd State.wr
  rw [State.reg_setReg_ne h]

/-- A field read after a write of another field of the same register. -/
theorem State.rd_wr_apart {f g : Fld} {v : Nat} (h : f.lo + f.w ≤ 32) (hd : g.lo + g.w ≤ f.lo ∨ f.lo + f.w ≤ g.lo) :
    (s.wr f v).rd g = s.rd g := by
  by_cases ha : g.addr = f.addr
  · unfold State.rd State.wr
    rw [ha, State.reg_setReg_same]
    rcases hd with hd | hd
    · exact getField_putField_below h hd
    · exact getField_putField_above h hd
  · exact State.rd_wr_ne ha

/-- A register another than that of the field written. -/
theorem State.rd_setReg_ne {f : Fld} {a : Nat} {v : Word} (h : f.addr ≠ a) : (s.setReg a v).rd f = s.rd f := by
  unfold State.rd
  rw [State.reg_setReg_ne h]

/-- A command that names a unit of the module ends in the state its meaning gives. -/
theorem onUnit_next {p : Bool} (h : p = true) (t : State) : onUnit p t = .next t := by rw [h]; rfl

/-- A command that names no unit of the module faults. -/
theorem onUnit_fault {p : Bool} (h : p = false) (t : State) : onUnit p t = .fault .noSuchUnit := by rw [h]; rfl

end Sys2Proof.Machine
end

