-- ==== Sys2Proof/Laws/Gcm.lean ====
section
/-! SUPPORT. GCM of the session protection (R215): what a key sealed, the same key, nonce and additional data open. -/

namespace Sys2Proof.Machine

/-- The round keys hold a last key of 16 bytes, so that every block is 16 bytes. -/
def roundKeysWhole (ks : List (List Byte)) : Prop := (ks.getD 14 []).length = 16

theorem xorBytes_length (a b : List Byte) : (xorBytes a b).length = min a.length b.length := by simp [xorBytes]

theorem aesBlock_length {ks : List (List Byte)} (h : roundKeysWhole ks) (b : List Byte) : (aesBlock ks b).length = 16 := by
  unfold roundKeysWhole at h
  simp only [aesBlock, xorBytes_length, aesShift, List.length_map, List.length_range, h, Nat.min_self]

theorem xorBytes_twice : ∀ (a k : List Byte), a.length ≤ k.length → xorBytes (xorBytes a k) k = a
  | [], _, _ => by simp [xorBytes]
  | _ :: _, [], h => by simp at h
  | x :: a, y :: k, h => by
    have := xorBytes_twice a k (by simpa using h)
    simp_all [xorBytes]

theorem chunks_nil : chunks 16 ([] : List Byte) = [] := by simp [chunks]

theorem chunks_cons {xs : List Byte} (h : xs ≠ []) : chunks 16 xs = xs.take 16 :: chunks 16 (xs.drop 16) := by
  have hl : 0 < xs.length := List.length_pos_iff.mpr h
  have hn : (xs.length + 15) / 16 = (xs.length - 16 + 15) / 16 + 1 := by omega
  simp only [chunks, List.length_drop, Nat.reduceSub, hn, List.range_succ_eq_map, List.map_cons, List.map_map]
  simp [Function.comp_def, Nat.mul_add, Nat.add_comm]

/-- Counter mode from block number i + 2 on. -/
def ctrFrom (ks : List (List Byte)) (iv : List Byte) (i : Nat) (data : List Byte) : List Byte :=
  ((chunks 16 data).zipIdx i).flatMap fun (c, j) => xorBytes c (aesBlock ks (iv ++ bytesBE (j + 2) 4))

theorem ctrFrom_nil (ks : List (List Byte)) (iv : List Byte) (i : Nat) : ctrFrom ks iv i [] = [] := by simp [ctrFrom, chunks_nil]

theorem ctrFrom_cons (ks : List (List Byte)) (iv : List Byte) (i : Nat) {data : List Byte} (h : data ≠ []) :
    ctrFrom ks iv i data =
      xorBytes (data.take 16) (aesBlock ks (iv ++ bytesBE (i + 2) 4)) ++ ctrFrom ks iv (i + 1) (data.drop 16) := by
  simp [ctrFrom, chunks_cons h]

/-- Counter mode keeps the length, and applied twice gives the data back. -/
theorem ctrFrom_twice {ks : List (List Byte)} (hk : roundKeysWhole ks) (iv : List Byte) :
    ∀ (n i : Nat) (data : List Byte), data.length ≤ n →
      (ctrFrom ks iv i data).length = data.length ∧ ctrFrom ks iv i (ctrFrom ks iv i data) = data := by
  intro n
  induction n with
  | zero =>
    intro i data h
    have : data = [] := List.eq_nil_of_length_eq_zero (by omega)
    simp [this, ctrFrom_nil]
  | succ n ih =>
    intro i data h
    by_cases hd : data = []
    · simp [hd, ctrFrom_nil]
    have hl : 0 < data.length := List.length_pos_iff.mpr hd
    obtain ⟨h1, h2⟩ := ih (i + 1) (data.drop 16) (by simp; omega)
    have hb := aesBlock_length hk (iv ++ bytesBE (i + 2) 4)
    have hx : (xorBytes (data.take 16) (aesBlock ks (iv ++ bytesBE (i + 2) 4))).length = min 16 data.length := by
      simp [xorBytes_length, hb]
    have hlen : (ctrFrom ks iv i data).length = data.length := by
      rw [ctrFrom_cons ks iv i hd, List.length_append, hx, h1, List.length_drop]; omega
    refine ⟨hlen, ?_⟩
    have hne : ctrFrom ks iv i data ≠ [] := by intro h0; rw [h0] at hlen; simp at hlen; omega
    rw [ctrFrom_cons ks iv i hne, ctrFrom_cons ks iv i hd]
    generalize hB : aesBlock ks (iv ++ bytesBE (i + 2) 4) = B at hx hb ⊢
    by_cases hs : 16 ≤ data.length
    · have hx' : (xorBytes (data.take 16) B).length = 16 := by omega
      rw [List.take_left' hx', List.drop_left' hx', h2, xorBytes_twice _ _ (by simp [hb])]
      exact List.take_append_drop 16 data
    · have h0 : data.drop 16 = [] := List.drop_eq_nil_of_le (by omega)
      have h3 : data.take 16 = data := List.take_of_length_le (by omega)
      have h4 : (xorBytes data B).length ≤ 16 := by simp [xorBytes_length]; omega
      rw [h0, ctrFrom_nil, List.append_nil, h3, List.take_of_length_le h4, List.drop_eq_nil_of_le h4, ctrFrom_nil,
        List.append_nil, xorBytes_twice _ _ (by omega)]

theorem gcmTag_length {ks : List (List Byte)} (hk : roundKeysWhole ks) (iv aad ct : List Byte) :
    (gcmTag ks iv aad ct).length = 16 := by
  simp [gcmTag, xorBytes_length, aesBlock_length hk, bytesBE, bytesLE]

/-- What a key sealed, it opens (R215). -/
theorem gcmOpen_gcmSeal {key : List Byte} (hk : roundKeysWhole (aesRoundKeys key)) (iv aad pt : List Byte) :
    gcmOpen key iv aad (gcmSeal key iv aad pt) = some pt := by
  have h := ctrFrom_twice hk iv pt.length 0 pt (Nat.le_refl _)
  have ht := gcmTag_length hk iv aad (gcmCtr (aesRoundKeys key) iv pt)
  have hc : ∀ d, gcmCtr (aesRoundKeys key) iv d = ctrFrom (aesRoundKeys key) iv 0 d := fun d => rfl
  simp only [gcmOpen, gcmSeal, List.length_append, ht, Nat.add_sub_cancel, List.take_left', List.drop_left', ne_eq,
    not_true_eq_false, or_false]
  rw [if_neg (by omega), hc, hc, h.2]

/-- A frame sealed under the session's key opens to its plaintext, where its SEQ is fresh (R215). -/
theorem openFrame_sealed {s : State} {k : Nat} {h : Leat} {key pt : List Byte} (hk : roundKeysWhole (aesRoundKeys key))
    (hs : s.sessKey k = key) (hf : ((s.keyCount ksOk).sess k).fresh h.seq = true) :
    s.openFrame k { h with payload := gcmSeal key (sessNonce h.session h.seq 0) (sessAad h) pt } =
      (some pt, s.keyCount ksOk) := by
  have ha : sessAad { h with payload := gcmSeal key (sessNonce h.session h.seq 0) (sessAad h) pt } = sessAad h := rfl
  simp only [State.openFrame, ha, hs, gcmOpen_gcmSeal hk, hf, if_true]

end Sys2Proof.Machine
end

