-- ==== Sys2Proof/Laws/PerInstr.lean ====
section
/-!
SUPPORT. The units that a command names lie below what the module has of them, command by command: the family UnitRange.
-/

namespace Sys2Proof.Laws.UnitRange

open Sys2Proof Sys2Proof.Machine

/-- The unit numbers that a command names, each with how many of those units the module has. -/
def unitNumbers : Instr → List (Nat × Nat)
  | .registerWrite m _ _ => [(m, 17)]
  | .readClear m _ => [(m, 17)]
  | .latchingRead m _ => [(m, 17)]
  | .addrDataRead m _ => [(m, 17)]
  | .blockEnable _ => []
  | .blockDisable _ => []
  | .blockModeWrite _ _ _ => []
  | .drainUnitComplete _ => []
  | .engineCrossbarError _ => []
  | .coreMemoryAccess c _ addr _ _ => [(c, 17), (addr, 2 ^ 32)]
  | .fence c => [(c, 17)]
  | .cdwbi c addr => [(c, 17), (addr, 2 ^ 32)]
  | .cdinv c addr => [(c, 17), (addr, 2 ^ 32)]
  | .ciinv c => [(c, 17)]
  | .meinfoWrite c _ => [(c, 17)]
  | .assistKick _ => []
  | .assistTimeout _ => []
  | .taskLeadStart t => [(t, 256)]
  | .taskRelease t => [(t, 256)]
  | .freeRunRelease t => [(t, 256)]
  | .freeRunBoundExpiry t => [(t, 256)]
  | .schDone m => [(m, 17)]
  | .schAbort m => [(m, 17)]
  | .taskStop t => [(t, 256)]
  | .taskStart t => [(t, 256)]
  | .idleWindowEnd => []
  | .idleWinWrite _ => []
  | .idleClrmin => []
  | .holdBoundExpiry => []
  | .switchArm => []
  | .switchCancel => []
  | .switchInstant => []
  | .switchGo => []
  | .inputCopy => []
  | .inputCopyComplete => []
  | .commitStart => []
  | .commitJournalStaged => []
  | .commitComplete => []
  | .journalWrite => []
  | .stationInPdu n _ => [(n, 64)]
  | .stationStatusPdu n _ => [(n, 64)]
  | .stationRefresh n => [(n, 64)]
  | .stationTimeout n => [(n, 64)]
  | .stationRearm n => [(n, 64)]
  | .stationProbe n => [(n, 64)]
  | .stationEnable n => [(n, 64)]
  | .stationDisable n => [(n, 64)]
  | .forceSet => []
  | .forceClear => []
  | .forceClearall => []
  | .imgMdataWrite _ => []
  | .pushSend _ => []
  | .subReceived _ _ => []
  | .unsubReceived _ _ => []
  | .fetchReceived _ _ => []
  | .subackReceived _ _ => []
  | .pushReceived _ _ => []
  | .rangeStaleTimer r => [(r, 8192)]
  | .subRetryTimer r => [(r, 8192)]
  | .leaseRenewalTimer r => [(r, 8192)]
  | .outboundLeaseExpiry e => [(e, 4096)]
  | .producerRangeTimer e => [(e, 4096)]
  | .hopInitComplete => []
  | .pinscan bank => [(bank, 2)]
  | .pinscanComplete => []
  | .unpin bank => [(bank, 2)]
  | .lookupRead p => [(p, 4)]
  | .lookupTouch p => [(p, 4)]
  | .pageInComplete page => [(page, 2048)]
  | .refetchTimer slot => [(slot, 262144)]
  | .hopTdataWrite _ => []
  | .frameForward p _ => [(p, 5)]
  | .udpDatagramReceived p _ => [(p, 4)]
  | .neighborSolicitReceived p _ => [(p, 4)]
  | .echoRequestReceived p _ => [(p, 4)]
  | .linkUp p _ => [(p, 5)]
  | .linkDown p => [(p, 5)]
  | .keyxOfferReceived p _ => [(p, 4)]
  | .keyxAnswerReceived p _ => [(p, 4)]
  | .keyxOfferTimer p => [(p, 4)]
  | .keyingTimeout p => [(p, 4)]
  | .rekeyTimer p => [(p, 4)]
  | .oldSaDelete p => [(p, 4)]
  | .helloTimer p => [(p, 4)]
  | .helloReceived p _ => [(p, 4)]
  | .deadTimer p => [(p, 4)]
  | .nodeClaimPick => []
  | .tentativeTimer => []
  | .nonodeRetry => []
  | .lsaReceived p _ => [(p, 4)]
  | .lsackReceived p _ => [(p, 4)]
  | .lsaRetransmit p => [(p, 4)]
  | .lsaRefresh => []
  | .lsaAgeOut n => [(n, 4096)]
  | .routeComputeStart => []
  | .routeComputeComplete => []
  | .quenchReceived p _ => [(p, 5)]
  | .quenchResend => []
  | .quenchRuleExpiry k => [(k, 160)]
  | .preemptVerifyComplete p _ => [(p, 4)]
  | .ptpMessageReceived p _ => [(p, 4)]
  | .ptpTxTimer p => [(p, 4)]
  | .ptpAnnounceTimeout => []
  | .mbxSend _ => []
  | .openReceived _ => []
  | .confirmReceived _ => []
  | .abandonReceived _ => []
  | .pendingTimeout slot => [(slot, 512)]
  | .sessionRead _ => []
  | .sessionWrite _ => []
  | .sessionSub _ => []
  | .sessionUnsub _ => []
  | .sessionForce _ => []
  | .sessionClose _ => []
  | .evread _ => []
  | .subPeriodPush slot => [(slot, 512)]
  | .sessionIdleExpiry slot => [(slot, 512)]
  | .sessionLifetimeExpiry slot => [(slot, 512)]
  | .expiredSlotFree slot => [(slot, 512)]
  | .tenantRevoke t => [(t, 256)]
  | .tenantCloseall t => [(t, 256)]
  | .slotClose => []
  | .authQuenchReceived p _ => [(p, 5)]
  | .assistResultReceived _ => []
  | .loopDue group n => [(n, if group then 32 else 256)]
  | .loopEvaluation => []
  | .groupEvaluation => []
  | .loopMdataWrite _ => []
  | .sampleSetArrival _ => []
  | .zcTimeout => []
  | .syntheticCrossing => []
  | .checkpointTimer => []
  | .checkpointComplete => []
  | .meterClear _ => []
  | .meterCkpt => []
  | .meterRestore _ => []
  | .calapply _ => []
  | .mtrMdataWrite _ => []
  | .diEdge _ => []
  | .diFilterAccept ch => [(ch, 32)]
  | .diFilterWrite ch _ => [(ch, 32)]
  | .freqGateWindowEnd k => [(k, 8)]
  | .counterConfigWrite k _ => [(k, 8)]
  | .counterClear k => [(k, 8)]
  | .counterLoad k => [(k, 8)]
  | .doResume _ => []
  | .doResumeall _ => []
  | .doOcclr ch => [(ch, 32)]
  | .outputReload _ => []
  | .outputEnable _ => []
  | .outputDisable _ => []
  | .doConfigWrite _ _ _ => []
  | .keepaliveSilence _ => []
  | .kick => []
  | .kickExpiry => []
  | .kaCfgWrite _ => []
  | .doOvercurrent ch => [(ch, 24)]
  | .aoOvercurrent ch => [(ch, 8)]
  | .fieldSupplyFail g => [(g, 5)]
  | .fieldSupplyReturn g => [(g, 5)]
  | .reflexArm w _ => [(w, 2)]
  | .reflexDisarm w _ => [(w, 2)]
  | .reflexEnable => []
  | .reflexDisable => []
  | .reflexCfgWrite rule word _ => [(rule, 64), (word, 2)]
  | .pulseExpiry target => [(target, 8)]
  | .aiConversionComplete ch r => [(ch, 8), (r.code, 65536)]
  | .aiConfigWrite ch _ => [(ch, 8)]
  | .canTxRequest c w _ => [(c, 4), (w, 2)]
  | .canTxCancel c w _ => [(c, 4), (w, 2)]
  | .canFrameStart c => [(c, 4)]
  | .canTxAttemptEnd c _ => [(c, 4)]
  | .canFrameReceived c _ => [(c, 4)]
  | .canProtocolException c => [(c, 4)]
  | .canRxLock c buf => [(c, 4), (buf, 128)]
  | .canRxRelease c _ => [(c, 4)]
  | .canLockTimeout c => [(c, 4)]
  | .canRxnewFree c w _ => [(c, 4), (w, 4)]
  | .canMdataWrite c _ => [(c, 4)]
  | .canSleep c => [(c, 4)]
  | .canSleepEntered c => [(c, 4)]
  | .canWake c => [(c, 4)]
  | .canWakeEvent c _ => [(c, 4)]
  | .canBorecov c => [(c, 4)]
  | .canBusoffRecoveryComplete c => [(c, 4)]
  | .canTxresume c => [(c, 4)]
  | .canAbortall c => [(c, 4)]
  | .canTsCapture c => [(c, 4)]
  | .rewriteQueueService => []
  | .scrubStep => []
  | .secdedScrub => []
  | .dramScrubBurst => []
  | .bucketLeak k => [(k, 7)]
  | .egressReleaseFabtx => []
  | .egressReleaseMirror => []
  | .injectOdd _ => []
  | .injectEven _ => []
  | .injectPar _ => []
  | .injectTag => []
  | .injectPoison _ => []
  | .injectDouble => []
  | .stripeWindowStore addr _ => [(addr, 0x18080000)]
  | .smapWrite _ => []
  | .keyCqtailWrite _ => []
  | .keyHash => []
  | .keyHmac => []
  | .keyKdf => []
  | .keyGcmEnc => []
  | .keyGcmDec => []
  | .keySign => []
  | .keyVerify => []
  | .keyEcdh => []
  | .keyKeygen => []
  | .keyPubkey => []
  | .keyRandom => []
  | .keyWrap => []
  | .keyUnwrap => []
  | .keySeal => []
  | .keyUnseal => []
  | .keyReseal => []
  | .keyImport => []
  | .keyExtend => []
  | .keyDeclare => []
  | .keyAdopt => []
  | .keySetpol => []
  | .keyOpComplete => []
  | .keySessionEstablish r => [(r.session, 512)]
  | .keySessionCrypt session _ _ => [(session, 512)]
  | .keyTenantHmac tenant _ => [(tenant, 256)]
  | .keyFabricDerive _ => []
  | .keyInval slot => [(slot, 64)]
  | .keyErase slot => [(slot, 64)]
  | .tamperAck => []
  | .zeroize => []
  | .tamperLoopConfirm loop _ => [(loop, 3)]
  | .onDieTamper src => [(src, 3)]
  | .drbgReseed _ => []
  | .entropyHealthFailure => []
  | .eventPost _ => []
  | .swPost m => [(m, 17)]
  | .recordWrite _ => []
  | .tailWrite => []
  | .evtClear => []
  | .evtFlush => []
  | .tailScanComplete => []
  | .evtOldestRead => []
  | .fantailSend => []
  | .fantailReceived _ _ => []
  | .pathLoss _ => []
  | .partnerLoss => []
  | .electTimeout => []
  | .mirrorSend => []
  | .mirrorReceived _ => []
  | .loopStateSync => []
  | .p4FrameReceived _ => []
  | .pairSwitchover => []
  | .pairResync => []
  | .pairDemote => []
  | .bulkOpen _ _ => []
  | .bulkData _ _ => []
  | .bulkBlockProgrammed _ => []
  | .bulkEnd _ _ => []
  | .bulkAbort _ _ => []
  | .transferTimeout => []
  | .updErase slot => [(slot, 2)]
  | .updVerify slot => [(slot, 2)]
  | .verifyComplete => []
  | .updStage slot => [(slot, 2)]
  | .stageComplete => []
  | .updUnstage => []
  | .updActivate slot => [(slot, 2)]
  | .updConfirm slot => [(slot, 2)]
  | .updRecover => []
  | .migrationComplete => []
  | .updCommit => []
  | .updAbort => []
  | .holdmaxExpiry => []
  | .recoveryAnnounceTimer => []
  | .recoveryLoad _ => []
  | .recoveryEnrol _ => []
  | .recoveryRestart _ => []
  | .tftpDataReceived _ _ => []
  | .tftpRetransmitTimer => []
  | .powerGood _ => []
  | .huCapMeasured _ => []
  | .huFull => []
  | .powerSourceChange _ _ _ => []
  | .vinLow _ => []
  | .vinWarning _ => []
  | .testbrake => []
  | .halt => []
  | .brakeMarkerWritten => []
  | .vinResumeLevel _ => []
  | .resumeWindowComplete => []
  | .huResetLevel => []
  | .moduleResetRelease _ => []
  | .runtimeStart => []
  | .replicaWaitEnd => []
  | .sysLockSet => []
  | .sysRstReset => []
  | .sysRstFatal => []
  | .wdtKick => []
  | .wdtExpiry => []
  | .mtLoad => []
  | .rtcTick => []
  | .oscStop => []
  | .backupPowerOn => []
  | .backupSourceChange _ => []
  | .vbatMeasure _ => []
  | .rtcFreezeRead _ => []
  | .freezeTimeout => []
  | .rtcSet => []
  | .rtcSync => []
  | .syncMatch => []
  | .bbinit => []
  | .backupByteWrite i _ => [(i, 16)]
  | .canRxError c _ => [(c, 4)]
  | .canIntegrationComplete c => [(c, 4)]
  | .flashEraseComplete _ => []
  | .startRecordWrite => []

/-- A well-formed command names only units that the module has. -/
def Statement (i : Instr) : Prop := i.wf = true → ∀ p ∈ unitNumbers i, p.1 < p.2

theorem none_named : ∀ p ∈ ([] : List (Nat × Nat)), p.1 < p.2 := by simp

theorem one_below {n k : Nat} (h : decide (n < k) = true) : ∀ p ∈ [(n, k)], p.1 < p.2 := by simpa using h

theorem two_below {n k m l : Nat} (h : (decide (n < k) && decide (m < l)) = true) : ∀ p ∈ [(n, k), (m, l)], p.1 < p.2 := by
  simpa using h

theorem two_and_more {n k m l : Nat} {b : Bool} (h : (decide (n < k) && decide (m < l) && b) = true) :
    ∀ p ∈ [(n, k), (m, l)], p.1 < p.2 := two_below (by simp at h; simp [h])

theorem within {n j k : Nat} (h : (decide (j ≤ n) && decide (n < k)) = true) : ∀ p ∈ [(n, k)], p.1 < p.2 :=
  one_below (by simp at h; simp [h])

theorem up_to {n j k : Nat} (h : (decide (j ≤ n) && decide (n ≤ k)) = true) : ∀ p ∈ [(n, k + 1)], p.1 < p.2 :=
  one_below (by simp at h; simp; omega)

theorem registerWrite : ∀ a0 a1 a2, Statement (.registerWrite a0 a1 a2) := fun _ _ _ h => one_below h

theorem readClear : ∀ a0 a1, Statement (.readClear a0 a1) := fun _ _ h => one_below h

theorem latchingRead : ∀ a0 a1, Statement (.latchingRead a0 a1) := fun _ _ h => one_below h

theorem addrDataRead : ∀ a0 a1, Statement (.addrDataRead a0 a1) := fun _ _ h => one_below h

theorem blockEnable : ∀ a0, Statement (.blockEnable a0) := fun _ _ => none_named

theorem blockDisable : ∀ a0, Statement (.blockDisable a0) := fun _ _ => none_named

theorem blockModeWrite : ∀ a0 a1 a2, Statement (.blockModeWrite a0 a1 a2) := fun _ _ _ _ => none_named

theorem drainUnitComplete : ∀ a0, Statement (.drainUnitComplete a0) := fun _ _ => none_named

theorem engineCrossbarError : ∀ a0, Statement (.engineCrossbarError a0) := fun _ _ => none_named

theorem coreMemoryAccess : ∀ a0 a1 a2 a3 a4, Statement (.coreMemoryAccess a0 a1 a2 a3 a4) := fun _ _ _ _ _ h => two_and_more h

theorem fence : ∀ a0, Statement (.fence a0) := fun _ h => one_below h

theorem cdwbi : ∀ a0 a1, Statement (.cdwbi a0 a1) := fun _ _ h => two_below h

theorem cdinv : ∀ a0 a1, Statement (.cdinv a0 a1) := fun _ _ h => two_below h

theorem ciinv : ∀ a0, Statement (.ciinv a0) := fun _ h => one_below h

theorem meinfoWrite : ∀ a0 a1, Statement (.meinfoWrite a0 a1) := fun _ _ h => one_below h

theorem assistKick : ∀ a0, Statement (.assistKick a0) := fun _ _ => none_named

theorem assistTimeout : ∀ a0, Statement (.assistTimeout a0) := fun _ _ => none_named

theorem taskLeadStart : ∀ a0, Statement (.taskLeadStart a0) := fun _ h => one_below h

theorem taskRelease : ∀ a0, Statement (.taskRelease a0) := fun _ h => one_below h

theorem freeRunRelease : ∀ a0, Statement (.freeRunRelease a0) := fun _ h => one_below h

theorem freeRunBoundExpiry : ∀ a0, Statement (.freeRunBoundExpiry a0) := fun _ h => one_below h

theorem schDone : ∀ a0, Statement (.schDone a0) := fun _ h => one_below h

theorem schAbort : ∀ a0, Statement (.schAbort a0) := fun _ h => one_below h

theorem taskStop : ∀ a0, Statement (.taskStop a0) := fun _ h => one_below h

theorem taskStart : ∀ a0, Statement (.taskStart a0) := fun _ h => one_below h

theorem idleWindowEnd : Statement .idleWindowEnd := fun _ => none_named

theorem idleWinWrite : ∀ a0, Statement (.idleWinWrite a0) := fun _ _ => none_named

theorem idleClrmin : Statement .idleClrmin := fun _ => none_named

theorem holdBoundExpiry : Statement .holdBoundExpiry := fun _ => none_named

theorem switchArm : Statement .switchArm := fun _ => none_named

theorem switchCancel : Statement .switchCancel := fun _ => none_named

theorem switchInstant : Statement .switchInstant := fun _ => none_named

theorem switchGo : Statement .switchGo := fun _ => none_named

theorem inputCopy : Statement .inputCopy := fun _ => none_named

theorem inputCopyComplete : Statement .inputCopyComplete := fun _ => none_named

theorem commitStart : Statement .commitStart := fun _ => none_named

theorem commitJournalStaged : Statement .commitJournalStaged := fun _ => none_named

theorem commitComplete : Statement .commitComplete := fun _ => none_named

theorem journalWrite : Statement .journalWrite := fun _ => none_named

theorem stationInPdu : ∀ a0 a1, Statement (.stationInPdu a0 a1) := fun _ _ h => one_below h

theorem stationStatusPdu : ∀ a0 a1, Statement (.stationStatusPdu a0 a1) := fun _ _ h => one_below h

theorem stationRefresh : ∀ a0, Statement (.stationRefresh a0) := fun _ h => one_below h

theorem stationTimeout : ∀ a0, Statement (.stationTimeout a0) := fun _ h => one_below h

theorem stationRearm : ∀ a0, Statement (.stationRearm a0) := fun _ h => one_below h

theorem stationProbe : ∀ a0, Statement (.stationProbe a0) := fun _ h => one_below h

theorem stationEnable : ∀ a0, Statement (.stationEnable a0) := fun _ h => one_below h

theorem stationDisable : ∀ a0, Statement (.stationDisable a0) := fun _ h => one_below h

theorem forceSet : Statement .forceSet := fun _ => none_named

theorem forceClear : Statement .forceClear := fun _ => none_named

theorem forceClearall : Statement .forceClearall := fun _ => none_named

theorem imgMdataWrite : ∀ a0, Statement (.imgMdataWrite a0) := fun _ _ => none_named

theorem pushSend : ∀ a0, Statement (.pushSend a0) := fun _ _ => none_named

theorem subReceived : ∀ a0 a1, Statement (.subReceived a0 a1) := fun _ _ _ => none_named

theorem unsubReceived : ∀ a0 a1, Statement (.unsubReceived a0 a1) := fun _ _ _ => none_named

theorem fetchReceived : ∀ a0 a1, Statement (.fetchReceived a0 a1) := fun _ _ _ => none_named

theorem subackReceived : ∀ a0 a1, Statement (.subackReceived a0 a1) := fun _ _ _ => none_named

theorem pushReceived : ∀ a0 a1, Statement (.pushReceived a0 a1) := fun _ _ _ => none_named

theorem rangeStaleTimer : ∀ a0, Statement (.rangeStaleTimer a0) := fun _ h => one_below h

theorem subRetryTimer : ∀ a0, Statement (.subRetryTimer a0) := fun _ h => one_below h

theorem leaseRenewalTimer : ∀ a0, Statement (.leaseRenewalTimer a0) := fun _ h => one_below h

theorem outboundLeaseExpiry : ∀ a0, Statement (.outboundLeaseExpiry a0) := fun _ h => one_below h

theorem producerRangeTimer : ∀ a0, Statement (.producerRangeTimer a0) := fun _ h => one_below h

theorem hopInitComplete : Statement .hopInitComplete := fun _ => none_named

theorem pinscan : ∀ a0, Statement (.pinscan a0) := fun _ h => one_below h

theorem pinscanComplete : Statement .pinscanComplete := fun _ => none_named

theorem unpin : ∀ a0, Statement (.unpin a0) := fun _ h => one_below h

theorem lookupRead : ∀ a0, Statement (.lookupRead a0) := fun _ h => one_below h

theorem lookupTouch : ∀ a0, Statement (.lookupTouch a0) := fun _ h => one_below h

theorem pageInComplete : ∀ a0, Statement (.pageInComplete a0) := fun _ h => one_below h

theorem refetchTimer : ∀ a0, Statement (.refetchTimer a0) := fun _ h => one_below h

theorem hopTdataWrite : ∀ a0, Statement (.hopTdataWrite a0) := fun _ _ => none_named

theorem frameForward : ∀ a0 a1, Statement (.frameForward a0 a1) := fun _ _ h => one_below h

theorem udpDatagramReceived : ∀ a0 a1, Statement (.udpDatagramReceived a0 a1) := fun _ _ h => one_below h

theorem neighborSolicitReceived : ∀ a0 a1, Statement (.neighborSolicitReceived a0 a1) := fun _ _ h => one_below h

theorem echoRequestReceived : ∀ a0 a1, Statement (.echoRequestReceived a0 a1) := fun _ _ h => one_below h

theorem linkUp : ∀ a0 a1, Statement (.linkUp a0 a1) := fun _ _ h => one_below h

theorem linkDown : ∀ a0, Statement (.linkDown a0) := fun _ h => one_below h

theorem keyxOfferReceived : ∀ a0 a1, Statement (.keyxOfferReceived a0 a1) := fun _ _ h => one_below h

theorem keyxAnswerReceived : ∀ a0 a1, Statement (.keyxAnswerReceived a0 a1) := fun _ _ h => one_below h

theorem keyxOfferTimer : ∀ a0, Statement (.keyxOfferTimer a0) := fun _ h => one_below h

theorem keyingTimeout : ∀ a0, Statement (.keyingTimeout a0) := fun _ h => one_below h

theorem rekeyTimer : ∀ a0, Statement (.rekeyTimer a0) := fun _ h => one_below h

theorem oldSaDelete : ∀ a0, Statement (.oldSaDelete a0) := fun _ h => one_below h

theorem helloTimer : ∀ a0, Statement (.helloTimer a0) := fun _ h => one_below h

theorem helloReceived : ∀ a0 a1, Statement (.helloReceived a0 a1) := fun _ _ h => one_below h

theorem deadTimer : ∀ a0, Statement (.deadTimer a0) := fun _ h => one_below h

theorem nodeClaimPick : Statement .nodeClaimPick := fun _ => none_named

theorem tentativeTimer : Statement .tentativeTimer := fun _ => none_named

theorem nonodeRetry : Statement .nonodeRetry := fun _ => none_named

theorem lsaReceived : ∀ a0 a1, Statement (.lsaReceived a0 a1) := fun _ _ h => one_below h

theorem lsackReceived : ∀ a0 a1, Statement (.lsackReceived a0 a1) := fun _ _ h => one_below h

theorem lsaRetransmit : ∀ a0, Statement (.lsaRetransmit a0) := fun _ h => one_below h

theorem lsaRefresh : Statement .lsaRefresh := fun _ => none_named

theorem lsaAgeOut : ∀ a0, Statement (.lsaAgeOut a0) := fun _ h => one_below h

theorem routeComputeStart : Statement .routeComputeStart := fun _ => none_named

theorem routeComputeComplete : Statement .routeComputeComplete := fun _ => none_named

theorem quenchReceived : ∀ a0 a1, Statement (.quenchReceived a0 a1) := fun _ _ h => one_below h

theorem quenchResend : Statement .quenchResend := fun _ => none_named

theorem quenchRuleExpiry : ∀ a0, Statement (.quenchRuleExpiry a0) := fun _ h => one_below h

theorem preemptVerifyComplete : ∀ a0 a1, Statement (.preemptVerifyComplete a0 a1) := fun _ _ h => one_below h

theorem ptpMessageReceived : ∀ a0 a1, Statement (.ptpMessageReceived a0 a1) := fun _ _ h => one_below h

theorem ptpTxTimer : ∀ a0, Statement (.ptpTxTimer a0) := fun _ h => one_below h

theorem ptpAnnounceTimeout : Statement .ptpAnnounceTimeout := fun _ => none_named

theorem mbxSend : ∀ a0, Statement (.mbxSend a0) := fun _ _ => none_named

theorem openReceived : ∀ a0, Statement (.openReceived a0) := fun _ _ => none_named

theorem confirmReceived : ∀ a0, Statement (.confirmReceived a0) := fun _ _ => none_named

theorem abandonReceived : ∀ a0, Statement (.abandonReceived a0) := fun _ _ => none_named

theorem pendingTimeout : ∀ a0, Statement (.pendingTimeout a0) := fun _ h => one_below h

theorem sessionRead : ∀ a0, Statement (.sessionRead a0) := fun _ _ => none_named

theorem sessionWrite : ∀ a0, Statement (.sessionWrite a0) := fun _ _ => none_named

theorem sessionSub : ∀ a0, Statement (.sessionSub a0) := fun _ _ => none_named

theorem sessionUnsub : ∀ a0, Statement (.sessionUnsub a0) := fun _ _ => none_named

theorem sessionForce : ∀ a0, Statement (.sessionForce a0) := fun _ _ => none_named

theorem sessionClose : ∀ a0, Statement (.sessionClose a0) := fun _ _ => none_named

theorem evread : ∀ a0, Statement (.evread a0) := fun _ _ => none_named

theorem subPeriodPush : ∀ a0, Statement (.subPeriodPush a0) := fun _ h => one_below h

theorem sessionIdleExpiry : ∀ a0, Statement (.sessionIdleExpiry a0) := fun _ h => one_below h

theorem sessionLifetimeExpiry : ∀ a0, Statement (.sessionLifetimeExpiry a0) := fun _ h => one_below h

theorem expiredSlotFree : ∀ a0, Statement (.expiredSlotFree a0) := fun _ h => one_below h

theorem tenantRevoke : ∀ a0, Statement (.tenantRevoke a0) := fun _ h => one_below h

theorem tenantCloseall : ∀ a0, Statement (.tenantCloseall a0) := fun _ h => one_below h

theorem slotClose : Statement .slotClose := fun _ => none_named

theorem authQuenchReceived : ∀ a0 a1, Statement (.authQuenchReceived a0 a1) := fun _ _ h => one_below h

theorem assistResultReceived : ∀ a0, Statement (.assistResultReceived a0) := fun _ _ => none_named

theorem loopDue : ∀ a0 a1, Statement (.loopDue a0 a1) := fun _ _ h => one_below h

theorem loopEvaluation : Statement .loopEvaluation := fun _ => none_named

theorem groupEvaluation : Statement .groupEvaluation := fun _ => none_named

theorem loopMdataWrite : ∀ a0, Statement (.loopMdataWrite a0) := fun _ _ => none_named

theorem sampleSetArrival : ∀ a0, Statement (.sampleSetArrival a0) := fun _ _ => none_named

theorem zcTimeout : Statement .zcTimeout := fun _ => none_named

theorem syntheticCrossing : Statement .syntheticCrossing := fun _ => none_named

theorem checkpointTimer : Statement .checkpointTimer := fun _ => none_named

theorem checkpointComplete : Statement .checkpointComplete := fun _ => none_named

theorem meterClear : ∀ a0, Statement (.meterClear a0) := fun _ _ => none_named

theorem meterCkpt : Statement .meterCkpt := fun _ => none_named

theorem meterRestore : ∀ a0, Statement (.meterRestore a0) := fun _ _ => none_named

theorem calapply : ∀ a0, Statement (.calapply a0) := fun _ _ => none_named

theorem mtrMdataWrite : ∀ a0, Statement (.mtrMdataWrite a0) := fun _ _ => none_named

theorem diEdge : ∀ a0, Statement (.diEdge a0) := fun _ _ => none_named

theorem diFilterAccept : ∀ a0, Statement (.diFilterAccept a0) := fun _ h => within h

theorem diFilterWrite : ∀ a0 a1, Statement (.diFilterWrite a0 a1) := fun _ _ h => within h

theorem freqGateWindowEnd : ∀ a0, Statement (.freqGateWindowEnd a0) := fun _ h => one_below h

theorem counterConfigWrite : ∀ a0 a1, Statement (.counterConfigWrite a0 a1) := fun _ _ h => one_below h

theorem counterClear : ∀ a0, Statement (.counterClear a0) := fun _ h => one_below h

theorem counterLoad : ∀ a0, Statement (.counterLoad a0) := fun _ h => one_below h

theorem doResume : ∀ a0, Statement (.doResume a0) := fun _ _ => none_named

theorem doResumeall : ∀ a0, Statement (.doResumeall a0) := fun _ _ => none_named

theorem doOcclr : ∀ a0, Statement (.doOcclr a0) := fun _ h => one_below h

theorem outputReload : ∀ a0, Statement (.outputReload a0) := fun _ _ => none_named

theorem outputEnable : ∀ a0, Statement (.outputEnable a0) := fun _ _ => none_named

theorem outputDisable : ∀ a0, Statement (.outputDisable a0) := fun _ _ => none_named

theorem doConfigWrite : ∀ a0 a1 a2, Statement (.doConfigWrite a0 a1 a2) := fun _ _ _ _ => none_named

theorem keepaliveSilence : ∀ a0, Statement (.keepaliveSilence a0) := fun _ _ => none_named

theorem kick : Statement .kick := fun _ => none_named

theorem kickExpiry : Statement .kickExpiry := fun _ => none_named

theorem kaCfgWrite : ∀ a0, Statement (.kaCfgWrite a0) := fun _ _ => none_named

theorem doOvercurrent : ∀ a0, Statement (.doOvercurrent a0) := fun _ h => one_below h

theorem aoOvercurrent : ∀ a0, Statement (.aoOvercurrent a0) := fun _ h => one_below h

theorem fieldSupplyFail : ∀ a0, Statement (.fieldSupplyFail a0) := fun _ h => up_to h

theorem fieldSupplyReturn : ∀ a0, Statement (.fieldSupplyReturn a0) := fun _ h => up_to h

theorem reflexArm : ∀ a0 a1, Statement (.reflexArm a0 a1) := fun _ _ h => one_below h

theorem reflexDisarm : ∀ a0 a1, Statement (.reflexDisarm a0 a1) := fun _ _ h => one_below h

theorem reflexEnable : Statement .reflexEnable := fun _ => none_named

theorem reflexDisable : Statement .reflexDisable := fun _ => none_named

theorem reflexCfgWrite : ∀ a0 a1 a2, Statement (.reflexCfgWrite a0 a1 a2) := fun _ _ _ h => two_below h

theorem pulseExpiry : ∀ a0, Statement (.pulseExpiry a0) := fun _ h => one_below h

theorem aiConversionComplete : ∀ a0 a1, Statement (.aiConversionComplete a0 a1) := fun _ _ h => two_below h

theorem aiConfigWrite : ∀ a0 a1, Statement (.aiConfigWrite a0 a1) := fun _ _ h => one_below h

theorem canTxRequest : ∀ a0 a1 a2, Statement (.canTxRequest a0 a1 a2) := fun _ _ _ h => two_below h

theorem canTxCancel : ∀ a0 a1 a2, Statement (.canTxCancel a0 a1 a2) := fun _ _ _ h => two_below h

theorem canFrameStart : ∀ a0, Statement (.canFrameStart a0) := fun _ h => one_below h

theorem canTxAttemptEnd : ∀ a0 a1, Statement (.canTxAttemptEnd a0 a1) := fun _ _ h => one_below h

theorem canFrameReceived : ∀ a0 a1, Statement (.canFrameReceived a0 a1) := fun _ _ h => one_below h

theorem canProtocolException : ∀ a0, Statement (.canProtocolException a0) := fun _ h => one_below h

theorem canRxLock : ∀ a0 a1, Statement (.canRxLock a0 a1) := fun _ _ h => two_below h

theorem canRxRelease : ∀ a0 a1, Statement (.canRxRelease a0 a1) := fun _ _ h => one_below h

theorem canLockTimeout : ∀ a0, Statement (.canLockTimeout a0) := fun _ h => one_below h

theorem canRxnewFree : ∀ a0 a1 a2, Statement (.canRxnewFree a0 a1 a2) := fun _ _ _ h => two_below h

theorem canMdataWrite : ∀ a0 a1, Statement (.canMdataWrite a0 a1) := fun _ _ h => one_below h

theorem canSleep : ∀ a0, Statement (.canSleep a0) := fun _ h => one_below h

theorem canSleepEntered : ∀ a0, Statement (.canSleepEntered a0) := fun _ h => one_below h

theorem canWake : ∀ a0, Statement (.canWake a0) := fun _ h => one_below h

theorem canWakeEvent : ∀ a0 a1, Statement (.canWakeEvent a0 a1) := fun _ _ h => one_below h

theorem canBorecov : ∀ a0, Statement (.canBorecov a0) := fun _ h => one_below h

theorem canBusoffRecoveryComplete : ∀ a0, Statement (.canBusoffRecoveryComplete a0) := fun _ h => one_below h

theorem canTxresume : ∀ a0, Statement (.canTxresume a0) := fun _ h => one_below h

theorem canAbortall : ∀ a0, Statement (.canAbortall a0) := fun _ h => one_below h

theorem canTsCapture : ∀ a0, Statement (.canTsCapture a0) := fun _ h => one_below h

theorem rewriteQueueService : Statement .rewriteQueueService := fun _ => none_named

theorem scrubStep : Statement .scrubStep := fun _ => none_named

theorem secdedScrub : Statement .secdedScrub := fun _ => none_named

theorem dramScrubBurst : Statement .dramScrubBurst := fun _ => none_named

theorem bucketLeak : ∀ a0, Statement (.bucketLeak a0) := fun _ h => one_below h

theorem egressReleaseFabtx : Statement .egressReleaseFabtx := fun _ => none_named

theorem egressReleaseMirror : Statement .egressReleaseMirror := fun _ => none_named

theorem injectOdd : ∀ a0, Statement (.injectOdd a0) := fun _ _ => none_named

theorem injectEven : ∀ a0, Statement (.injectEven a0) := fun _ _ => none_named

theorem injectPar : ∀ a0, Statement (.injectPar a0) := fun _ _ => none_named

theorem injectTag : Statement .injectTag := fun _ => none_named

theorem injectPoison : ∀ a0, Statement (.injectPoison a0) := fun _ _ => none_named

theorem injectDouble : Statement .injectDouble := fun _ => none_named

theorem stripeWindowStore : ∀ a0 a1, Statement (.stripeWindowStore a0 a1) := fun _ _ h => within h

theorem smapWrite : ∀ a0, Statement (.smapWrite a0) := fun _ _ => none_named

theorem keyCqtailWrite : ∀ a0, Statement (.keyCqtailWrite a0) := fun _ _ => none_named

theorem keyHash : Statement .keyHash := fun _ => none_named

theorem keyHmac : Statement .keyHmac := fun _ => none_named

theorem keyKdf : Statement .keyKdf := fun _ => none_named

theorem keyGcmEnc : Statement .keyGcmEnc := fun _ => none_named

theorem keyGcmDec : Statement .keyGcmDec := fun _ => none_named

theorem keySign : Statement .keySign := fun _ => none_named

theorem keyVerify : Statement .keyVerify := fun _ => none_named

theorem keyEcdh : Statement .keyEcdh := fun _ => none_named

theorem keyKeygen : Statement .keyKeygen := fun _ => none_named

theorem keyPubkey : Statement .keyPubkey := fun _ => none_named

theorem keyRandom : Statement .keyRandom := fun _ => none_named

theorem keyWrap : Statement .keyWrap := fun _ => none_named

theorem keyUnwrap : Statement .keyUnwrap := fun _ => none_named

theorem keySeal : Statement .keySeal := fun _ => none_named

theorem keyUnseal : Statement .keyUnseal := fun _ => none_named

theorem keyReseal : Statement .keyReseal := fun _ => none_named

theorem keyImport : Statement .keyImport := fun _ => none_named

theorem keyExtend : Statement .keyExtend := fun _ => none_named

theorem keyDeclare : Statement .keyDeclare := fun _ => none_named

theorem keyAdopt : Statement .keyAdopt := fun _ => none_named

theorem keySetpol : Statement .keySetpol := fun _ => none_named

theorem keyOpComplete : Statement .keyOpComplete := fun _ => none_named

theorem keySessionEstablish : ∀ a0, Statement (.keySessionEstablish a0) := fun _ h => one_below h

theorem keySessionCrypt : ∀ a0 a1 a2, Statement (.keySessionCrypt a0 a1 a2) := fun _ _ _ h => one_below h

theorem keyTenantHmac : ∀ a0 a1, Statement (.keyTenantHmac a0 a1) := fun _ _ h => one_below h

theorem keyFabricDerive : ∀ a0, Statement (.keyFabricDerive a0) := fun _ _ => none_named

theorem keyInval : ∀ a0, Statement (.keyInval a0) := fun _ h => one_below h

theorem keyErase : ∀ a0, Statement (.keyErase a0) := fun _ h => one_below h

theorem tamperAck : Statement .tamperAck := fun _ => none_named

theorem zeroize : Statement .zeroize := fun _ => none_named

theorem tamperLoopConfirm : ∀ a0 a1, Statement (.tamperLoopConfirm a0 a1) := fun _ _ h => one_below h

theorem onDieTamper : ∀ a0, Statement (.onDieTamper a0) := fun _ h => one_below h

theorem drbgReseed : ∀ a0, Statement (.drbgReseed a0) := fun _ _ => none_named

theorem entropyHealthFailure : Statement .entropyHealthFailure := fun _ => none_named

theorem eventPost : ∀ a0, Statement (.eventPost a0) := fun _ _ => none_named

theorem swPost : ∀ a0, Statement (.swPost a0) := fun _ h => one_below h

theorem recordWrite : ∀ a0, Statement (.recordWrite a0) := fun _ _ => none_named

theorem tailWrite : Statement .tailWrite := fun _ => none_named

theorem evtClear : Statement .evtClear := fun _ => none_named

theorem evtFlush : Statement .evtFlush := fun _ => none_named

theorem tailScanComplete : Statement .tailScanComplete := fun _ => none_named

theorem evtOldestRead : Statement .evtOldestRead := fun _ => none_named

theorem fantailSend : Statement .fantailSend := fun _ => none_named

theorem fantailReceived : ∀ a0 a1, Statement (.fantailReceived a0 a1) := fun _ _ _ => none_named

theorem pathLoss : ∀ a0, Statement (.pathLoss a0) := fun _ _ => none_named

theorem partnerLoss : Statement .partnerLoss := fun _ => none_named

theorem electTimeout : Statement .electTimeout := fun _ => none_named

theorem mirrorSend : Statement .mirrorSend := fun _ => none_named

theorem mirrorReceived : ∀ a0, Statement (.mirrorReceived a0) := fun _ _ => none_named

theorem loopStateSync : Statement .loopStateSync := fun _ => none_named

theorem p4FrameReceived : ∀ a0, Statement (.p4FrameReceived a0) := fun _ _ => none_named

theorem pairSwitchover : Statement .pairSwitchover := fun _ => none_named

theorem pairResync : Statement .pairResync := fun _ => none_named

theorem pairDemote : Statement .pairDemote := fun _ => none_named

theorem bulkOpen : ∀ a0 a1, Statement (.bulkOpen a0 a1) := fun _ _ _ => none_named

theorem bulkData : ∀ a0 a1, Statement (.bulkData a0 a1) := fun _ _ _ => none_named

theorem bulkBlockProgrammed : ∀ a0, Statement (.bulkBlockProgrammed a0) := fun _ _ => none_named

theorem bulkEnd : ∀ a0 a1, Statement (.bulkEnd a0 a1) := fun _ _ _ => none_named

theorem bulkAbort : ∀ a0 a1, Statement (.bulkAbort a0 a1) := fun _ _ _ => none_named

theorem transferTimeout : Statement .transferTimeout := fun _ => none_named

theorem updErase : ∀ a0, Statement (.updErase a0) := fun _ h => one_below h

theorem updVerify : ∀ a0, Statement (.updVerify a0) := fun _ h => one_below h

theorem verifyComplete : Statement .verifyComplete := fun _ => none_named

theorem updStage : ∀ a0, Statement (.updStage a0) := fun _ h => one_below h

theorem stageComplete : Statement .stageComplete := fun _ => none_named

theorem updUnstage : Statement .updUnstage := fun _ => none_named

theorem updActivate : ∀ a0, Statement (.updActivate a0) := fun _ h => one_below h

theorem updConfirm : ∀ a0, Statement (.updConfirm a0) := fun _ h => one_below h

theorem updRecover : Statement .updRecover := fun _ => none_named

theorem migrationComplete : Statement .migrationComplete := fun _ => none_named

theorem updCommit : Statement .updCommit := fun _ => none_named

theorem updAbort : Statement .updAbort := fun _ => none_named

theorem holdmaxExpiry : Statement .holdmaxExpiry := fun _ => none_named

theorem recoveryAnnounceTimer : Statement .recoveryAnnounceTimer := fun _ => none_named

theorem recoveryLoad : ∀ a0, Statement (.recoveryLoad a0) := fun _ _ => none_named

theorem recoveryEnrol : ∀ a0, Statement (.recoveryEnrol a0) := fun _ _ => none_named

theorem recoveryRestart : ∀ a0, Statement (.recoveryRestart a0) := fun _ _ => none_named

theorem tftpDataReceived : ∀ a0 a1, Statement (.tftpDataReceived a0 a1) := fun _ _ _ => none_named

theorem tftpRetransmitTimer : Statement .tftpRetransmitTimer := fun _ => none_named

theorem powerGood : ∀ a0, Statement (.powerGood a0) := fun _ _ => none_named

theorem huCapMeasured : ∀ a0, Statement (.huCapMeasured a0) := fun _ _ => none_named

theorem huFull : Statement .huFull := fun _ => none_named

theorem powerSourceChange : ∀ a0 a1 a2, Statement (.powerSourceChange a0 a1 a2) := fun _ _ _ _ => none_named

theorem vinLow : ∀ a0, Statement (.vinLow a0) := fun _ _ => none_named

theorem vinWarning : ∀ a0, Statement (.vinWarning a0) := fun _ _ => none_named

theorem testbrake : Statement .testbrake := fun _ => none_named

theorem halt : Statement .halt := fun _ => none_named

theorem brakeMarkerWritten : Statement .brakeMarkerWritten := fun _ => none_named

theorem vinResumeLevel : ∀ a0, Statement (.vinResumeLevel a0) := fun _ _ => none_named

theorem resumeWindowComplete : Statement .resumeWindowComplete := fun _ => none_named

theorem huResetLevel : Statement .huResetLevel := fun _ => none_named

theorem moduleResetRelease : ∀ a0, Statement (.moduleResetRelease a0) := fun _ _ => none_named

theorem runtimeStart : Statement .runtimeStart := fun _ => none_named

theorem replicaWaitEnd : Statement .replicaWaitEnd := fun _ => none_named

theorem sysLockSet : Statement .sysLockSet := fun _ => none_named

theorem sysRstReset : Statement .sysRstReset := fun _ => none_named

theorem sysRstFatal : Statement .sysRstFatal := fun _ => none_named

theorem wdtKick : Statement .wdtKick := fun _ => none_named

theorem wdtExpiry : Statement .wdtExpiry := fun _ => none_named

theorem mtLoad : Statement .mtLoad := fun _ => none_named

theorem rtcTick : Statement .rtcTick := fun _ => none_named

theorem oscStop : Statement .oscStop := fun _ => none_named

theorem backupPowerOn : Statement .backupPowerOn := fun _ => none_named

theorem backupSourceChange : ∀ a0, Statement (.backupSourceChange a0) := fun _ _ => none_named

theorem vbatMeasure : ∀ a0, Statement (.vbatMeasure a0) := fun _ _ => none_named

theorem rtcFreezeRead : ∀ a0, Statement (.rtcFreezeRead a0) := fun _ _ => none_named

theorem freezeTimeout : Statement .freezeTimeout := fun _ => none_named

theorem rtcSet : Statement .rtcSet := fun _ => none_named

theorem rtcSync : Statement .rtcSync := fun _ => none_named

theorem syncMatch : Statement .syncMatch := fun _ => none_named

theorem bbinit : Statement .bbinit := fun _ => none_named

theorem backupByteWrite : ∀ a0 a1, Statement (.backupByteWrite a0 a1) := fun _ _ h => one_below h

theorem canRxError : ∀ a0 a1, Statement (.canRxError a0 a1) := fun _ _ h => one_below h

theorem canIntegrationComplete : ∀ a0, Statement (.canIntegrationComplete a0) := fun _ h => one_below h

theorem flashEraseComplete : ∀ a0, Statement (.flashEraseComplete a0) := fun _ _ => none_named

theorem startRecordWrite : Statement .startRecordWrite := fun _ => none_named

end Sys2Proof.Laws.UnitRange
end

