-- ==== Sys2Proof/Laws/Sound.lean ====
section
/-!
SUPPORT. What every operation keeps: the queue, and the canonical forms of memory and registers. The lemmas on single operations
are in the files Sound… beside this one, one per operation, in the operations' order.
-/

namespace Sys2Proof.Machine

variable {q : List Instr} {s t : State}

/-- An update of other fields keeps what `Sound` says. -/
theorem Sound.upd (h : Sound q s) {latched mt now busRead fresh asn sch img hop fab gate loop mtr dio can integ key evt pair upd pwr rtc
    start} :
    Sound q { s with latched, mt, now, busRead, fresh, asn, sch, img, hop, fab, gate, loop, mtr, dio, can, integ, key, evt, pair, upd, pwr, rtc, start } :=
  ⟨h.queue, h.mem, h.regs⟩

theorem Sound.ite {c : Prop} [Decidable c] (hs : Sound q s) (ht : Sound q t) : Sound q (if c then s else t) := by
  split
  · exact hs
  · exact ht

theorem id_sound (h : Sound q s) : Sound q (id s) := h

/-- A pair's state, where the pair is known. -/
theorem Sound.ofSnd {α : Type} {p : α × State} {a : α} (e : p = (a, t)) (h : Sound q p.2) : Sound q t := by
  subst e; exact h

theorem Sound.ofSnd2 {α β : Type} {p : α × β × State} {a : α} {b : β} (e : p = (a, b, t)) (h : Sound q p.2.2) :
    Sound q t := by
  subst e; exact h

/-- An optional state, an optional pair with a state, an outcome: sound where there is one. -/
def SomeSound (q : List Instr) (o : Option State) : Prop := ∀ u, o = some u → Sound q u

def SomeSound2 {α : Type} (q : List Instr) (o : Option (α × State)) : Prop := ∀ u, o = some u → Sound q u.2

def NextSound (q : List Instr) (o : Host.Outcome State Fault Refusal) : Prop := ∀ u, o = .next u → Sound q u

theorem SomeSound.none : SomeSound q none := fun _ e => by cases e

theorem SomeSound.some (h : Sound q s) : SomeSound q (some s) := fun _ e => by cases e; exact h

theorem SomeSound2.none {α : Type} : SomeSound2 (α := α) q none := fun _ e => by cases e

theorem SomeSound2.some {α : Type} {a : α} (h : Sound q s) : SomeSound2 q (some (a, s)) := fun _ e => by cases e; exact h

theorem SomeSound2.some' {α : Type} {p : α × State} (h : Sound q p.2) : SomeSound2 q (Option.some p) :=
  fun _ e => by cases e; exact h

/-- An optional reaped descriptor. -/
def SomeSoundR (q : List Instr) (o : Option Reaped) : Prop := ∀ r, o = some r → Sound q r.st

theorem SomeSoundR.none : SomeSoundR q none := fun _ e => by cases e

theorem SomeSoundR.some {r : Reaped} (h : Sound q r.st) : SomeSoundR q (Option.some r) := fun _ e => by cases e; exact h

theorem Sound.ofSomeR {o : Option Reaped} {r : Reaped} (e : o = some r) (h : SomeSoundR q o) : Sound q r.st := h r e

theorem SomeSound.map {α : Type} {o : Option α} {f : α → State} (h : ∀ a, Sound q (f a)) : SomeSound q (o.map f) := by
  intro u e
  cases o
  · cases e
  · cases e; exact h _

theorem SomeSound2.getD {α : Type} {o : Option (α × State)} {p : α × State} (h : SomeSound2 q o) (hp : Sound q p.2) :
    Sound q (o.getD p).2 := by
  cases o
  · exact hp
  · exact h _ rfl

/-- What every step of a fold keeps. -/
theorem foldl_keep {α β : Type} {P : β → Prop} {f : β → α → β} {l : List α} {b : β} (hf : ∀ b a, P b → P (f b a)) (hb : P b) :
    P (l.foldl f b) := by
  induction l generalizing b with
  | nil => exact hb
  | cons a l ih => exact ih (hf b a hb)

theorem Sound.ofNext {o : Host.Outcome State Fault Refusal} (e : o = .next t) (h : NextSound q o) : Sound q t := h t e

theorem NextSound.next (h : Sound q s) : NextSound q (.next s) := fun _ e => by cases e; exact h

theorem NextSound.fault {r : Fault} : NextSound q (.fault r) := fun _ e => by cases e

theorem NextSound.refused {r : Refusal} : NextSound q (.refused r) := fun _ e => by cases e

theorem Sound.ofSome {o : Option State} (e : o = some t) (h : SomeSound q o) : Sound q t := h t e

theorem Sound.ofSomeSnd {α : Type} {o : Option (α × State)} {a : α} (e : o = some (a, t)) (h : SomeSound2 q o) :
    Sound q t := h _ e

theorem State.each_sound {α : Type} {l : List α} {f : State → α → State} (h : Sound q s)
    (hf : ∀ s a, Sound q s → Sound q (f s a)) : Sound q (s.each l f) := by
  unfold State.each
  induction l generalizing s with
  | nil => exact h
  | cons a l ih => exact ih (hf s a h)

theorem onUnit_sound {ok : Bool} (h : Sound q s) : NextSound q (onUnit ok s) := by
  unfold onUnit
  split
  · exact NextSound.next h
  · exact NextSound.fault

theorem State.setReg_sound {a : Nat} {v : Word} (h : Sound q s) : Sound q (s.setReg a v) :=
  ⟨h.queue, h.mem, SMap.wf_set h.regs⟩

theorem State.setByte_sound {a : Nat} {b : Byte} (h : Sound q s) : Sound q (s.setByte a b) :=
  ⟨h.queue, SMap.wf_set h.mem, h.regs⟩

theorem State.putBytes_sound {a : Nat} {bs : List Byte} (h : Sound q s) : Sound q (s.putBytes a bs) :=
  ⟨h.queue, SMap.wf_setMany h.mem, h.regs⟩

end Sys2Proof.Machine
end

