-- ==== Sys2Proof/Laws/SoundOps.lean ====
section
/-!
SUPPORT. Every operation of Machine/Ops.lean keeps the queue and the canonical forms of memory and registers.
-/

namespace Sys2Proof.Machine

theorem State.wr_sound {q : List Instr} {s : State} {f : Fld} {v : ℕ} (hs : Sound q s) :
    Sound q (State.wr s f v) := by
  unfold State.wr
  exact State.setReg_sound hs

theorem State.wrb_sound {q : List Instr} {s : State} {f : Fld} {b : Bool} (hs : Sound q s) :
    Sound q (State.wrb s f b) := by
  unfold State.wrb
  exact State.wr_sound hs

theorem State.raise_sound {q : List Instr} {s : State} {f : Fld} (hs : Sound q s) :
    Sound q (State.raise s f) := by
  unfold State.raise
  exact State.wr_sound hs

theorem State.clear_sound {q : List Instr} {s : State} {f : Fld} (hs : Sound q s) :
    Sound q (State.clear s f) := by
  unfold State.clear
  exact State.wr_sound hs

theorem State.bumpBy_sound {q : List Instr} {s : State} {f : Fld} {n : ℕ} (hs : Sound q s) :
    Sound q (State.bumpBy s f n) := by
  unfold State.bumpBy
  exact State.wr_sound hs

theorem State.bump_sound {q : List Instr} {s : State} {f : Fld} (hs : Sound q s) :
    Sound q (State.bump s f) := by
  unfold State.bump
  exact State.bumpBy_sound hs

theorem State.wrap_sound {q : List Instr} {s : State} {f : Fld} (hs : Sound q s) :
    Sound q (State.wrap s f) := by
  unfold State.wrap
  exact State.wr_sound hs

theorem State.wr64_sound {q : List Instr} {s : State} {lo : ℕ} {hi : ℕ} {v : ℕ} (hs : Sound q s) :
    Sound q (State.wr64 s lo hi v) := by
  unfold State.wr64
  refine State.setReg_sound ?_
  exact State.setReg_sound hs

theorem State.wrIf_sound {q : List Instr} {s : State} {ok : Bool} {f : Fld} {v : ℕ} (hs : Sound q s) :
    Sound q (State.wrIf s ok f v) := by
  unfold State.wrIf
  refine Sound.ite ?_ ?_
  · exact State.wr_sound hs
  · exact hs

theorem State.setBit_sound {q : List Instr} {s : State} {f : Fld} {i : ℕ} {b : Bool} (hs : Sound q s) :
    Sound q (State.setBit s f i b) := by
  unfold State.setBit
  exact State.wrb_sound hs

theorem State.taken_sound {q : List Instr} {s : State} {n : ℕ} (hs : Sound q s) :
    Sound q (State.taken s n) := by
  unfold State.taken
  exact Sound.upd hs

theorem State.putNum_sound {q : List Instr} {s : State} {a : ℕ} {n : ℕ} {v : ℕ} (hs : Sound q s) :
    Sound q (State.putNum s a n v) := by
  unfold State.putNum
  exact State.putBytes_sound hs

theorem State.setTask_sound {q : List Instr} {s : State} {t : ℕ} {x2 : SchTask} (hs : Sound q s) :
    Sound q (State.setTask s t x2) := by
  unfold State.setTask
  exact Sound.upd hs

theorem State.setCore_sound {q : List Instr} {s : State} {c : ℕ} {x2 : SchCore} (hs : Sound q s) :
    Sound q (State.setCore s c x2) := by
  unfold State.setCore
  exact Sound.upd hs

theorem State.spend_sound {q : List Instr} {s : State} {d : ℕ} {c : ℕ} (hs : Sound q s) :
    Sound q (State.spend s d c) := by
  unfold State.spend
  extract_lets -merge -useContext +onlyGivenNames v1 v2 v3 v4 v5
  try clear_value v1
  try clear_value v2
  have hv3 : Sound q v3 := by
    unfold v3
    refine Sound.ite ?_ ?_
    · exact State.setCore_sound hs
    · exact hs
  try clear_value v3
  try clear_value v4
  try clear_value v5
  refine Sound.ite ?_ ?_
  · exact State.setTask_sound hv3
  · exact hv3

theorem State.elapse_sound {q : List Instr} {s : State} {d : ℕ} (hs : Sound q s) :
    Sound q (State.elapse s d) := by
  unfold State.elapse
  refine Sound.ite ?_ ?_
  · exact hs
  · extract_lets -merge -useContext +onlyGivenNames v1
    have hv1 : Sound q v1 := by
      unfold v1
      refine foldl_keep (P := fun (x : State) => Sound q x) ?_ ?_
      · intro a2 a3 ha2
        beta_reduce at *
        exact State.spend_sound ha2
      · exact hs
    try clear_value v1
    exact Sound.upd hv1

theorem State.advance_sound {q : List Instr} {s : State} {t : ℕ} (hs : Sound q s) :
    Sound q (State.advance s t) := by
  unfold State.advance
  exact State.elapse_sound hs

theorem State.advanceMt_sound {q : List Instr} {s : State} {t : ℕ} (hs : Sound q s) :
    Sound q (State.advanceMt s t) := by
  unfold State.advanceMt
  exact State.elapse_sound hs

theorem State.toFault_sound {q : List Instr} {s : State} {u' : UnitId} {cause : ℕ} {arg : ℕ} (hs : Sound q s) :
    Sound q (State.toFault s u' cause arg) := by
  unfold State.toFault
  extract_lets -merge -useContext +onlyGivenNames v1
  have hv1 : Sound q v1 := by
    unfold v1
    refine State.wr_sound ?_
    exact State.wr_sound hs
  try clear_value v1
  split
  · exact State.wr_sound hv1
  · exact hv1

end Sys2Proof.Machine
end

