-- ==== Sys2Proof/Laws/SoundEvtOps.lean ====
section
/-!
SUPPORT. Every operation of Machine/EvtOps.lean keeps the queue and the canonical forms of memory and registers.
-/

namespace Sys2Proof.Machine

theorem State.post_sound {q : List Instr} {s : State} {r : EvtRec} (hs : Sound q s) :
    Sound q (State.post s r) := by
  unfold State.post
  refine Sound.ite ?_ ?_
  · extract_lets -merge -useContext +onlyGivenNames v1 v2
    try clear_value v1
    have hv2 : Sound q v2 := by
      unfold v2
      exact Sound.upd hs
    try clear_value v2
    exact State.wr_sound hv2
  · extract_lets -merge -useContext +onlyGivenNames v3 v4
    try clear_value v3
    have hv4 : Sound q v4 := by
      unfold v4
      exact Sound.upd hs
    try clear_value v4
    refine State.raise_sound ?_
    exact State.bump_sound hv4

theorem State.event_sound {q : List Instr} {s : State} {code : ℕ} {unit : ℕ} {subj : ℕ} {val1 : ℕ} {val2 : ℕ} {tenant : ℕ} {extra : ℕ} (hs : Sound q s) :
    Sound q (State.event s code unit subj val1 val2 tenant extra) := by
  unfold State.event
  exact State.post_sound hs

end Sys2Proof.Machine
end

