-- ==== Sys2Proof/Laws/SoundMemOps.lean ====
section
/-!
SUPPORT. Every operation of Machine/MemOps.lean keeps the queue and the canonical forms of memory and registers.
-/

namespace Sys2Proof.Machine

theorem State.setFlaw_sound {q : List Instr} {s : State} {w : ℕ} {f : Flaw} (hs : Sound q s) :
    Sound q (State.setFlaw s w f) := by
  unfold State.setFlaw
  exact Sound.upd hs

theorem State.putWord_sound {q : List Instr} {s : State} {w : ℕ} {d : Word64} (hs : Sound q s) :
    Sound q (State.putWord s w d) := by
  unfold State.putWord
  exact State.putNum_sound hs

theorem State.setSdiff_sound {q : List Instr} {s : State} {k : ℕ} {d : Word64} (hs : Sound q s) :
    Sound q (State.setSdiff s k d) := by
  unfold State.setSdiff
  exact Sound.upd hs

theorem State.setSpar_sound {q : List Instr} {s : State} {k : ℕ} {p : BitVec 8} (hs : Sound q s) :
    Sound q (State.setSpar s k p) := by
  unfold State.setSpar
  exact Sound.upd hs

theorem State.corrected_sound {q : List Instr} {s : State} {c : ℕ} (hs : Sound q s) :
    Sound q (State.corrected s c) := by
  unfold State.corrected
  extract_lets -merge -useContext +onlyGivenNames v1 v2 v3
  have hv1 : Sound q v1 := by
    unfold v1
    exact State.bump_sound hs
  try clear_value v1
  try clear_value v2
  have hv3 : Sound q v3 := by
    unfold v3
    refine State.bump_sound ?_
    exact State.wr_sound hv1
  try clear_value v3
  refine Sound.ite ?_ ?_
  · exact State.wr_sound hv1
  · refine Sound.ite ?_ ?_
    · exact hv3
    · refine State.event_sound ?_
      exact State.raise_sound hv3

theorem State.uncorrectable_sound {q : List Instr} {s : State} {m : ℕ} {w : ℕ} {cls : ℕ} {lanes : BitVec 8} (hs : Sound q s) :
    Sound q (State.uncorrectable s m w cls lanes) := by
  unfold State.uncorrectable
  extract_lets -merge -useContext +onlyGivenNames v1 v2 v3 v4 v5 v6
  have hv1 : Sound q v1 := by
    unfold v1
    refine State.raise_sound ?_
    exact State.bump_sound hs
  try clear_value v1
  try clear_value v2
  try clear_value v3
  have hv4 : Sound q v4 := by
    unfold v4
    refine Sound.ite ?_ ?_
    · exact State.event_sound hv1
    · exact hv1
  try clear_value v4
  try clear_value v5
  have hv6 : Sound q v6 := by
    unfold v6
    exact Sound.upd hv4
  try clear_value v6
  refine Sound.ite ?_ ?_
  · exact hv6
  · refine State.raise_sound ?_
    refine State.wr_sound ?_
    refine State.wr_sound ?_
    refine State.wr_sound ?_
    exact State.wr_sound hv6

theorem State.poison_sound {q : List Instr} {s : State} {m : ℕ} {w : ℕ} {lanes : BitVec 8} (hs : Sound q s) :
    Sound q (State.poison s m w lanes) := by
  unfold State.poison
  extract_lets -merge -useContext +onlyGivenNames v1
  have hv1 : Sound q v1 := by
    unfold v1
    refine Sound.ite ?_ ?_
    · exact hs
    · exact State.setFlaw_sound hs
  try clear_value v1
  exact State.uncorrectable_sound hv1

theorem State.queueRewrite_sound {q : List Instr} {s : State} {w : ℕ} (hs : Sound q s) :
    Sound q (State.queueRewrite s w) := by
  unfold State.queueRewrite
  refine Sound.ite ?_ ?_
  · exact Sound.upd hs
  · exact State.bump_sound hs

theorem State.readSecded_sound {q : List Instr} {s : State} {m : ℕ} {w : ℕ} (hs : Sound q s) :
    Sound q ((State.readSecded s m w)).st := by
  unfold State.readSecded
  extract_lets -merge -useContext +onlyGivenNames v1 v2
  try clear_value v1
  try clear_value v2
  split
  · try dsimp -zeta only
    exact hs
  · split
    · try dsimp -zeta only
      exact hs
    · split
      · try dsimp -zeta only
        refine State.corrected_sound ?_
        exact State.setFlaw_sound hs
      · split
        · try dsimp -zeta only
          refine State.poison_sound ?_
          exact State.putWord_sound hs
        · try dsimp -zeta only
          exact State.taken_sound hs

theorem State.readShared_sound {q : List Instr} {s : State} {m : ℕ} {w : ℕ} (hs : Sound q s) :
    Sound q ((State.readShared s m w)).st := by
  unfold State.readShared
  extract_lets -merge -useContext +onlyGivenNames v1 v2
  try clear_value v1
  have hv2 : Sound q v2 := by
    unfold v2
    refine Sound.ite ?_ ?_
    · exact State.bump_sound hs
    · exact hs
  try clear_value v2
  split
  · try dsimp -zeta only
    exact hv2
  · split
    · try dsimp -zeta only
      exact hv2
    · split
      · try dsimp -zeta only
        exact State.poison_sound hv2
      · try dsimp -zeta only
        refine State.queueRewrite_sound ?_
        exact State.corrected_sound hv2

theorem State.readDram_sound {q : List Instr} {s : State} {m : ℕ} {w : ℕ} (hs : Sound q s) :
    Sound q ((State.readDram s m w)).st := by
  unfold State.readDram
  extract_lets -merge -useContext +onlyGivenNames v1
  try clear_value v1
  split
  · try dsimp -zeta only
    exact hs
  · split
    · try dsimp -zeta only
      exact hs
    · try dsimp -zeta only
      exact State.poison_sound hs

theorem State.readMram_sound {q : List Instr} {s : State} {m : ℕ} {w : ℕ} (hs : Sound q s) :
    Sound q ((State.readMram s m w)).st := by
  unfold State.readMram
  extract_lets -merge -useContext +onlyGivenNames v1
  try clear_value v1
  split
  · try dsimp -zeta only
    exact hs
  · split
    · try dsimp -zeta only
      exact State.corrected_sound hs
    · try dsimp -zeta only
      exact State.poison_sound hs

theorem State.readStripe_sound {q : List Instr} {s : State} {k : ℕ} (hs : Sound q s) :
    Sound q ((State.readStripe s k)).st := by
  unfold State.readStripe
  extract_lets -merge -useContext +onlyGivenNames v1
  try clear_value v1
  split
  · try dsimp -zeta only
    exact hs
  · try dsimp -zeta only
    refine State.queueRewrite_sound ?_
    exact State.corrected_sound hs

theorem State.readRom_sound {q : List Instr} {s : State} {w : ℕ} (hs : Sound q s) :
    Sound q ((State.readRom s w)).st := by
  unfold State.readRom
  try dsimp -zeta only
  exact hs

theorem State.readWord_sound {q : List Instr} {s : State} {m : ℕ} {w : ℕ} (hs : Sound q s) :
    Sound q ((State.readWord s m w)).st := by
  unfold State.readWord
  split
  · exact State.readShared_sound hs
  · split
    · exact State.readSecded_sound hs
    · split
      · exact State.readDram_sound hs
      · split
        · exact State.readMram_sound hs
        · split
          · exact State.readRom_sound hs
          · try dsimp -zeta only
            exact hs

theorem State.settleRow_sound {q : List Instr} {s : State} {m : ℕ} {k : ℕ} {lost : BitVec 8} (hs : Sound q s) :
    Sound q (State.settleRow s m k lost) := by
  unfold State.settleRow
  extract_lets -merge -useContext +onlyGivenNames v1 v2
  try clear_value v1
  have hv2 : Sound q v2 := by
    unfold v2
    refine State.each_sound hs ?_
    intro a3 a4 ha3
    exact State.poison_sound ha3
  try clear_value v2
  refine State.setSpar_sound ?_
  exact State.setSdiff_sound hv2

theorem State.prepareShared_sound {q : List Instr} {s : State} {m : ℕ} {w : ℕ} (hs : Sound q s) :
    Sound q (State.prepareShared s m w) := by
  unfold State.prepareShared
  extract_lets -merge -useContext +onlyGivenNames v1 v2 v3 v4
  try clear_value v1
  try clear_value v2
  try clear_value v3
  try clear_value v4
  refine Sound.ite ?_ ?_
  · refine Sound.ite ?_ ?_
    · exact State.bump_sound hs
    · exact hs
  · refine Sound.ite ?_ ?_
    · exact hs
    · refine Sound.ite ?_ ?_
      · exact State.settleRow_sound hs
      · refine State.corrected_sound ?_
        refine State.setFlaw_sound ?_
        refine State.setSdiff_sound ?_
        exact State.putWord_sound hs

theorem State.prepareOther_sound {q : List Instr} {s : State} {m : ℕ} {w : ℕ} (hs : Sound q s) :
    Sound q (State.prepareOther s m w) := by
  unfold State.prepareOther
  refine Sound.ite ?_ ?_
  · exact State.readWord_sound hs
  · exact hs

theorem State.writeWord_sound {q : List Instr} {s : State} {m : ℕ} {w : ℕ} {o : ℕ} {bs : List Byte} (hs : Sound q s) :
    Sound q (State.writeWord s m w o bs) := by
  unfold State.writeWord
  extract_lets -merge -useContext +onlyGivenNames v1 v2 v3
  try clear_value v1
  have hv2 : Sound q v2 := by
    unfold v2
    refine Sound.ite ?_ ?_
    · exact State.prepareShared_sound hs
    · refine Sound.ite ?_ ?_
      · exact hs
      · exact State.prepareOther_sound hs
  try clear_value v2
  have hv3 : Sound q v3 := by
    unfold v3
    exact State.putBytes_sound hv2
  try clear_value v3
  refine Sound.ite ?_ ?_
  · exact State.setFlaw_sound hv3
  · refine Sound.ite ?_ ?_
    · exact State.setFlaw_sound hv3
    · refine Sound.ite ?_ ?_
      · exact State.setFlaw_sound hv3
      · exact hv3

theorem State.writeWords_sound {q : List Instr} {s : State} {m : ℕ} {a : ℕ} {bs : List Byte} {a_ : ℕ} (hs : Sound q s) :
    Sound q (State.writeWords s m a bs a_) := by
  unfold State.writeWords
  split
  · exact hs
  · extract_lets -merge -useContext +onlyGivenNames v1 v2 v3
    try clear_value v1
    try clear_value v2
    have hv3 : Sound q v3 := by
      unfold v3
      exact State.writeWord_sound hs
    try clear_value v3
    refine Sound.ite ?_ ?_
    · exact hv3
    · exact State.writeWords_sound hv3

theorem State.write_sound {q : List Instr} {s : State} {m : ℕ} {a : ℕ} {bs : List Byte} (hs : Sound q s) :
    Sound q (State.write s m a bs) := by
  unfold State.write
  refine Sound.ite ?_ ?_
  · exact hs
  · exact State.writeWords_sound hs

theorem State.writeNum_sound {q : List Instr} {s : State} {m : ℕ} {a : ℕ} {n : ℕ} {v : ℕ} (hs : Sound q s) :
    Sound q (State.writeNum s m a n v) := by
  unfold State.writeNum
  exact State.write_sound hs

theorem State.writePoison_sound {q : List Instr} {s : State} {m : ℕ} {w : ℕ} {d : Word64} (hs : Sound q s) :
    Sound q (State.writePoison s m w d) := by
  unfold State.writePoison
  extract_lets -merge -useContext +onlyGivenNames v1
  have hv1 : Sound q v1 := by
    unfold v1
    exact State.writeWord_sound hs
  try clear_value v1
  refine Sound.ite ?_ ?_
  · exact hv1
  · exact State.setFlaw_sound hv1

theorem State.readWords_sound {q : List Instr} {s : State} {m : ℕ} {w : ℕ} {a : ℕ} (hs : Sound q s) :
    Sound q ((State.readWords s m w a)).st := by
  unfold State.readWords
  split
  · try dsimp -zeta only
    exact hs
  · extract_lets -merge -useContext +onlyGivenNames v1 v2
    have hv1 : Sound q (v1).st := by
      unfold v1
      exact State.readWord_sound hs
    try clear_value v1
    have hv2 : Sound q (v2).st := by
      unfold v2
      exact State.readWords_sound hv1
    try clear_value v2
    try dsimp -zeta only
    exact hv2

theorem State.fetch_sound {q : List Instr} {s : State} {m : ℕ} {a : ℕ} {n : ℕ} (hs : Sound q s) :
    Sound q ((State.fetch s m a n)).st := by
  unfold State.fetch
  extract_lets -merge -useContext +onlyGivenNames v1 v2
  try clear_value v1
  have hv2 : Sound q (v2).st := by
    unfold v2
    exact State.readWords_sound hs
  try clear_value v2
  try dsimp -zeta only
  exact hv2

theorem State.egressHalt_sound {q : List Instr} {s : State} {chan : ℕ} {unit : ℕ} {a : ℕ} (hs : Sound q s) :
    Sound q (State.egressHalt s chan unit a) := by
  unfold State.egressHalt
  extract_lets -merge -useContext +onlyGivenNames v1 v2
  have hv1 : Sound q v1 := by
    unfold v1
    refine State.event_sound ?_
    exact State.raise_sound hs
  try clear_value v1
  have hv2 : Sound q v2 := by
    unfold v2
    refine Sound.ite ?_ ?_
    · exact State.raise_sound hv1
    · refine Sound.ite ?_ ?_
      · exact State.raise_sound hv1
      · exact hv1
  try clear_value v2
  refine Sound.ite ?_ ?_
  · exact hv2
  · refine State.raise_sound ?_
    refine State.wr_sound ?_
    refine State.wr_sound ?_
    exact State.wr_sound hv2

theorem State.setHart_sound {q : List Instr} {s : State} {c : ℕ} {x2 : CoreTrap} (hs : Sound q s) :
    Sound q (State.setHart s c x2) := by
  unfold State.setHart
  exact Sound.upd hs

end Sys2Proof.Machine
end

