-- ==== Sys2Proof/Laws/SoundAsnOps.lean ====
section
/-!
SUPPORT. Every operation of Machine/AsnOps.lean keeps the queue and the canonical forms of memory and registers.
-/

namespace Sys2Proof.Machine

theorem State.setPosts_sound {q : List Instr} {s : State} {b : AsnBlock} {ps : List AsnPost} (hs : Sound q s) :
    Sound q (State.setPosts s b ps) := by
  unfold State.setPosts
  exact Sound.upd hs

theorem State.syncFull_sound {q : List Instr} {s : State} {b : AsnBlock} (hs : Sound q s) :
    Sound q (State.syncFull s b) := by
  unfold State.syncFull
  exact State.wrb_sound hs

theorem State.signalServer_sound {q : List Instr} {s : State} {b : AsnBlock} (hs : Sound q s) :
    Sound q (State.signalServer s b) := by
  unfold State.signalServer
  refine Sound.ite ?_ ?_
  · exact hs
  · extract_lets -merge -useContext +onlyGivenNames v1
    try clear_value v1
    exact State.setHart_sound hs

theorem State.asnPost_sound {q : List Instr} {s : State} {b : AsnBlock} {func : ℕ} {src : ℕ} {arg : List Byte} {poison : Bool} {ctx : List ℕ} {code : Option ℕ} {at_ : ℕ} (hs : Sound q s) :
    Sound q ((State.asnPost s b func src arg poison ctx code at_)).2 := by
  unfold State.asnPost
  split
  · split
    · try dsimp -zeta only
      exact State.bump_sound hs
    · try dsimp -zeta only
      refine State.event_sound ?_
      exact State.bump_sound hs
    · try dsimp -zeta only
      refine State.taken_sound ?_
      refine State.event_sound ?_
      exact State.bump_sound hs
  · extract_lets -merge -useContext +onlyGivenNames v1 v2 v3 v4 v5 v6
    try clear_value v1
    try clear_value v2
    have hv3 : Sound q v3 := by
      unfold v3
      exact State.write_sound hs
    try clear_value v3
    have hv4 : Sound q v4 := by
      unfold v4
      exact State.write_sound hv3
    try clear_value v4
    have hv5 : Sound q v5 := by
      unfold v5
      exact State.wr_sound hv4
    try clear_value v5
    try clear_value v6
    try dsimp -zeta only
    refine State.signalServer_sound ?_
    refine State.syncFull_sound ?_
    exact State.setPosts_sound hv5

theorem State.asnReap_sound {q : List Instr} {s : State} {b : AsnBlock} (hs : Sound q s) :
    SomeSoundR q (State.asnReap s b) := by
  unfold State.asnReap
  split
  · exact SomeSoundR.none
  · extract_lets -merge -useContext +onlyGivenNames v1 v2 v3 v4 v5
    try clear_value v1
    have hv2 : Sound q v2 := by
      unfold v2
      refine State.syncFull_sound ?_
      refine State.wr_sound ?_
      exact State.setPosts_sound hs
    try clear_value v2
    have hv3 : Sound q v3 := by
      unfold v3
      refine Sound.ite ?_ ?_
      · exact State.raise_sound hv2
      · exact hv2
    try clear_value v3
    have hv4 : Sound q (v4).st := by
      unfold v4
      exact State.fetch_sound hv3
    try clear_value v4
    try clear_value v5
    split
    · exact SomeSoundR.none
    · refine SomeSoundR.some ?_
      try dsimp -zeta only
      exact hv4

theorem State.asnKick_sound {q : List Instr} {s : State} {b : AsnBlock} {apply : Reaped → State} {a : ℕ} (hs : Sound q s) (happly : ∀ x0, Sound q (x0).st → Sound q (apply x0)) :
    Sound q (State.asnKick s b apply a) := by
  unfold State.asnKick
  split
  · exact hs
  · split
    · exact hs
    · rename_i p1 e2
      have hp1 : Sound q (p1).st := by
        refine Sound.ofSomeR e2 ?_
        exact State.asnReap_sound hs
      refine State.asnKick_sound ?_ happly
      exact happly _ hp1

theorem State.asnTimeout_sound {q : List Instr} {s : State} {b : AsnBlock} (hs : Sound q s) :
    SomeSound2 q (State.asnTimeout s b) := by
  unfold State.asnTimeout
  extract_lets -merge -useContext +onlyGivenNames v1
  try clear_value v1
  split
  · exact SomeSound2.none
  · extract_lets -merge -useContext +onlyGivenNames v2
    try clear_value v2
    refine SomeSound2.some ?_
    refine State.bump_sound ?_
    exact State.setPosts_sound hs

theorem State.ringStart_sound {q : List Instr} {s : State} {b : AsnBlock} (hs : Sound q s) :
    Sound q (State.ringStart s b) := by
  unfold State.ringStart
  refine State.syncFull_sound ?_
  refine State.setPosts_sound ?_
  refine State.wr_sound ?_
  exact State.wr_sound hs

end Sys2Proof.Machine
end

