-- ==== Sys2Proof/Laws/SoundRecords.lean ====
section
/-!
SUPPORT. Every operation of Machine/Records.lean keeps the queue and the canonical forms of memory and registers.
-/

namespace Sys2Proof.Machine

theorem TwoCopy.rewrite_sound {q : List Instr} {c : TwoCopy} {s : State} {mk : ℕ → List Byte} (hs : Sound q s) :
    Sound q (TwoCopy.rewrite c s mk) := by
  unfold TwoCopy.rewrite
  exact State.write_sound hs

theorem State.putStartRec_sound {q : List Instr} {s : State} {r : StartRec} (hs : Sound q s) :
    Sound q (State.putStartRec s r) := by
  unfold State.putStartRec
  exact TwoCopy.rewrite_sound hs

theorem State.putIdentRec_sound {q : List Instr} {s : State} {r : IdentRec} (hs : Sound q s) :
    Sound q (State.putIdentRec s r) := by
  unfold State.putIdentRec
  exact TwoCopy.rewrite_sound hs

end Sys2Proof.Machine
end

