-- ==== Sys2Proof/Laws/SoundCanOps.lean ====
section
/-!
SUPPORT. Every operation of Machine/CanOps.lean keeps the queue and the canonical forms of memory and registers.
-/

namespace Sys2Proof.Machine

theorem State.setCan_sound {q : List Instr} {s : State} {c : ℕ} {x2 : CanState} (hs : Sound q s) :
    Sound q (State.setCan s c x2) := by
  unfold State.setCan
  exact Sound.upd hs

theorem State.setCanRam_sound {q : List Instr} {s : State} {c : ℕ} {w : ℕ} {v : Word} (hs : Sound q s) :
    Sound q (State.setCanRam s c w v) := by
  unfold State.setCanRam
  exact State.setCan_sound hs

theorem State.setCanWords_sound {q : List Instr} {s : State} {c : ℕ} {a : ℕ} {a_ : List Word} (hs : Sound q s) :
    Sound q (State.setCanWords s c a a_) := by
  unfold State.setCanWords
  split
  · exact hs
  · refine State.setCanWords_sound ?_
    exact State.setCanRam_sound hs

theorem State.setTbStat_sound {q : List Instr} {s : State} {c : ℕ} {b : ℕ} {v : Word} (hs : Sound q s) :
    Sound q (State.setTbStat s c b v) := by
  unfold State.setTbStat
  exact State.setCanRam_sound hs

theorem State.setTxst_sound {q : List Instr} {s : State} {c : ℕ} {b : ℕ} {st : ℕ} (hs : Sound q s) :
    Sound q (State.setTxst s c b st) := by
  unfold State.setTxst
  exact State.setTbStat_sound hs

theorem State.txEndState_sound {q : List Instr} {s : State} {c : ℕ} {b : ℕ} {st : ℕ} (hs : Sound q s) :
    Sound q (State.txEndState s c b st) := by
  unfold State.txEndState
  extract_lets -merge -useContext +onlyGivenNames v1
  have hv1 : Sound q v1 := by
    unfold v1
    exact State.setTxst_sound hs
  try clear_value v1
  refine State.raise_sound ?_
  refine State.raise_sound ?_
  refine State.clear_sound ?_
  exact State.clear_sound hv1

theorem State.txPend_sound {q : List Instr} {s : State} {c : ℕ} {b : ℕ} (hs : Sound q s) :
    Sound q (State.txPend s c b) := by
  unfold State.txPend
  refine State.raise_sound ?_
  exact State.setTxst_sound hs

theorem State.txRequest_sound {q : List Instr} {s : State} {c : ℕ} {b : ℕ} (hs : Sound q s) :
    Sound q (State.txRequest s c b) := by
  unfold State.txRequest
  extract_lets -merge -useContext +onlyGivenNames v1 v2 v3 v4 v5 v6
  try clear_value v1
  try clear_value v2
  try clear_value v3
  try clear_value v4
  try clear_value v5
  have hv6 : Sound q v6 := by
    unfold v6
    exact State.setTbStat_sound hs
  try clear_value v6
  refine Sound.ite ?_ ?_
  · exact hs
  · refine Sound.ite ?_ ?_
    · exact State.txEndState_sound hv6
    · exact State.txPend_sound hv6

theorem State.txCancel_sound {q : List Instr} {s : State} {c : ℕ} {b : ℕ} (hs : Sound q s) :
    Sound q (State.txCancel s c b) := by
  unfold State.txCancel
  refine Sound.ite ?_ ?_
  · exact State.txEndState_sound hs
  · refine Sound.ite ?_ ?_
    · exact State.raise_sound hs
    · exact hs

theorem State.stnPlace_sound {q : List Instr} {s : State} {c : ℕ} {b : ℕ} {stn : ℕ} {pdu : List Byte} (hs : Sound q s) :
    Sound q (State.stnPlace s c b stn pdu) := by
  unfold State.stnPlace
  extract_lets -merge -useContext +onlyGivenNames v1 v2 v3 v4 v5
  try clear_value v1
  try clear_value v2
  try clear_value v3
  try clear_value v4
  have hv5 : Sound q v5 := by
    unfold v5
    exact State.setCanWords_sound hs
  try clear_value v5
  refine State.txRequest_sound ?_
  exact State.setCanWords_sound hv5

theorem State.stnFill_sound {q : List Instr} {s : State} {c : ℕ} {a : ℕ} (hs : Sound q s) :
    Sound q (State.stnFill s c a) := by
  unfold State.stnFill
  split
  · exact hs
  · split
    · refine State.stnFill_sound ?_
      refine State.stnPlace_sound ?_
      exact State.setCan_sound hs
    · exact hs

theorem State.canStation_sound {q : List Instr} {s : State} {c : ℕ} {stn : ℕ} {pdus : List (List Byte)} (hs : Sound q s) :
    Sound q (State.canStation s c stn pdus) := by
  unfold State.canStation
  extract_lets -merge -useContext +onlyGivenNames v1 v2 v3 v4
  try clear_value v1
  try clear_value v2
  try clear_value v3
  have hv4 : Sound q v4 := by
    unfold v4
    exact State.setCan_sound hs
  try clear_value v4
  exact State.stnFill_sound hv4

theorem State.txEnd_sound {q : List Instr} {s : State} {c : ℕ} {b : ℕ} {st : ℕ} (hs : Sound q s) :
    Sound q (State.txEnd s c b st) := by
  unfold State.txEnd
  extract_lets -merge -useContext +onlyGivenNames v1
  have hv1 : Sound q v1 := by
    unfold v1
    exact State.txEndState_sound hs
  try clear_value v1
  exact State.stnFill_sound hv1

theorem State.rxWords_sound {q : List Instr} {s : State} {f : CanFrame} {filter : ℕ} (hs : Sound q s) :
    Sound q ((State.rxWords s f filter)).2 := by
  unfold State.rxWords
  extract_lets -merge -useContext +onlyGivenNames v1 v2 v3 v4 v5 v6
  try clear_value v1
  try clear_value v2
  try clear_value v3
  try clear_value v4
  try clear_value v5
  try clear_value v6
  try dsimp -zeta only
  exact State.taken_sound hs

theorem State.rxovr_sound {q : List Instr} {s : State} {c : ℕ} {k : ℕ} (hs : Sound q s) :
    Sound q (State.rxovr s c k) := by
  unfold State.rxovr
  extract_lets -merge -useContext +onlyGivenNames v1 v2
  have hv1 : Sound q v1 := by
    unfold v1
    refine State.raise_sound ?_
    exact State.bump_sound hs
  try clear_value v1
  try clear_value v2
  refine Sound.ite ?_ ?_
  · refine State.event_sound ?_
    exact State.setCan_sound hv1
  · exact hv1

theorem State.rbWrite_sound {q : List Instr} {s : State} {c : ℕ} {k : ℕ} {ws : List Word} {ovr : Bool} (hs : Sound q s) :
    Sound q (State.rbWrite s c k ws ovr) := by
  unfold State.rbWrite
  extract_lets -merge -useContext +onlyGivenNames v1 v2
  have hv1 : Sound q v1 := by
    unfold v1
    exact State.setCanWords_sound hs
  try clear_value v1
  have hv2 : Sound q v2 := by
    unfold v2
    exact State.setCanRam_sound hv1
  try clear_value v2
  refine State.raise_sound ?_
  exact State.raise_sound hv2

theorem State.rbStore_sound {q : List Instr} {s : State} {c : ℕ} {k : ℕ} {ws : List Word} (hs : Sound q s) :
    Sound q (State.rbStore s c k ws) := by
  unfold State.rbStore
  refine Sound.ite ?_ ?_
  · exact State.rbWrite_sound hs
  · refine Sound.ite ?_ ?_
    · refine State.rxovr_sound ?_
      exact State.rbWrite_sound hs
    · exact State.rxovr_sound hs

theorem State.rxStore_sound {q : List Instr} {s : State} {c : ℕ} {k : ℕ} {ws : List Word} (hs : Sound q s) :
    Sound q (State.rxStore s c k ws) := by
  unfold State.rxStore
  extract_lets -merge -useContext +onlyGivenNames v1 v2
  try clear_value v1
  have hv2 : Sound q v2 := by
    unfold v2
    refine Sound.ite ?_ ?_
    · exact State.setCan_sound hs
    · exact hs
  try clear_value v2
  refine Sound.ite ?_ ?_
  · refine Sound.ite ?_ ?_
    · exact State.rxovr_sound hv2
    · refine Sound.ite ?_ ?_
      · exact State.setCan_sound hs
      · exact State.rxovr_sound hs
  · exact State.rbStore_sound hs

theorem State.fifoSync_sound {q : List Instr} {s : State} {c : ℕ} (hs : Sound q s) :
    Sound q (State.fifoSync s c) := by
  unfold State.fifoSync
  extract_lets -merge -useContext +onlyGivenNames v1
  try clear_value v1
  refine State.wr_sound ?_
  exact State.wr_sound hs

theorem State.fifoStore_sound {q : List Instr} {s : State} {c : ℕ} {ws : List Word} (hs : Sound q s) :
    Sound q (State.fifoStore s c ws) := by
  unfold State.fifoStore
  extract_lets -merge -useContext +onlyGivenNames v1 v2 v3 v4
  try clear_value v1
  try clear_value v2
  try clear_value v3
  have hv4 : Sound q v4 := by
    unfold v4
    exact State.setCan_sound hs
  try clear_value v4
  refine Sound.ite ?_ ?_
  · exact State.rxovr_sound hs
  · refine State.fifoSync_sound ?_
    exact State.rxStore_sound hv4

theorem State.rbFree_sound {q : List Instr} {s : State} {c : ℕ} {k : ℕ} (hs : Sound q s) :
    Sound q (State.rbFree s c k) := by
  unfold State.rbFree
  refine State.clear_sound ?_
  exact State.setCanRam_sound hs

theorem State.fifoPop_sound {q : List Instr} {s : State} {c : ℕ} (hs : Sound q s) :
    Sound q (State.fifoPop s c) := by
  unfold State.fifoPop
  extract_lets -merge -useContext +onlyGivenNames v1 v2 v3
  try clear_value v1
  have hv2 : Sound q v2 := by
    unfold v2
    exact State.rbFree_sound hs
  try clear_value v2
  try clear_value v3
  refine Sound.ite ?_ ?_
  · exact hs
  · refine State.fifoSync_sound ?_
    exact State.setCan_sound hv2

theorem State.rxUnlock_sound {q : List Instr} {s : State} {c : ℕ} (hs : Sound q s) :
    Sound q (State.rxUnlock s c) := by
  unfold State.rxUnlock
  extract_lets -merge -useContext +onlyGivenNames v1
  try clear_value v1
  split
  · exact hs
  · extract_lets -merge -useContext +onlyGivenNames v2
    have hv2 : Sound q v2 := by
      unfold v2
      exact State.setCan_sound hs
    try clear_value v2
    split
    · exact State.rbStore_sound hv2
    · exact hv2

theorem State.canStart_sound {q : List Instr} {s : State} {c : ℕ} (hs : Sound q s) :
    Sound q (State.canStart s c) := by
  unfold State.canStart
  extract_lets -merge -useContext +onlyGivenNames v1 v2 v3 v4 v5 v6 v7
  try clear_value v1
  try clear_value v2
  have hv3 : Sound q v3 := by
    unfold v3
    refine State.clear_sound ?_
    refine State.wr_sound ?_
    exact State.wr_sound hs
  try clear_value v3
  have hv4 : Sound q v4 := by
    unfold v4
    refine Sound.ite ?_ ?_
    · exact hv3
    · exact State.wr_sound hv3
  try clear_value v4
  have hv5 : Sound q v5 := by
    unfold v5
    refine Sound.ite ?_ ?_
    · exact State.raise_sound hv4
    · exact hv4
  try clear_value v5
  try clear_value v6
  have hv7 : Sound q v7 := by
    unfold v7
    exact State.setCan_sound hv5
  try clear_value v7
  exact State.raise_sound hv7

end Sys2Proof.Machine
end

