-- ==== Sys2Proof/Laws/SoundKeyOps.lean ====
section
/-!
SUPPORT. Every operation of Machine/KeyOps.lean keeps the queue and the canonical forms of memory and registers.
-/

namespace Sys2Proof.Machine

theorem State.setKslot_sound {q : List Instr} {s : State} {n : ℕ} {k : KeySlot} (hs : Sound q s) :
    Sound q (State.setKslot s n k) := by
  unfold State.setKslot
  exact Sound.upd hs

theorem State.useSlot_sound {q : List Instr} {s : State} {n : ℕ} (hs : Sound q s) :
    Sound q ((State.useSlot s n)).2 := by
  unfold State.useSlot
  extract_lets -merge -useContext +onlyGivenNames v1 v2
  try clear_value v1
  try clear_value v2
  split
  · try dsimp -zeta only
    refine State.event_sound ?_
    refine State.raise_sound ?_
    exact State.setKslot_sound hs
  · try dsimp -zeta only
    exact hs

theorem State.keyCount_sound {q : List Instr} {s : State} {status : ℕ} (hs : Sound q s) :
    Sound q (State.keyCount s status) := by
  unfold State.keyCount
  extract_lets -merge -useContext +onlyGivenNames v1
  have hv1 : Sound q v1 := by
    unfold v1
    exact State.bump_sound hs
  try clear_value v1
  refine Sound.ite ?_ ?_
  · exact State.bump_sound hv1
  · refine Sound.ite ?_ ?_
    · exact State.bump_sound hv1
    · refine Sound.ite ?_ ?_
      · exact State.bump_sound hv1
      · exact hv1

theorem State.drawn_sound {q : List Instr} {s : State} {n : ℕ} (hs : Sound q s) :
    Sound q (State.drawn s n) := by
  unfold State.drawn
  extract_lets -merge -useContext +onlyGivenNames v1
  try clear_value v1
  refine State.wr_sound ?_
  exact State.taken_sound hs

theorem State.tenant_sound {q : List Instr} {s : State} {t : ℕ} (hs : Sound q s) :
    Sound q ((State.tenant s t)).2 := by
  unfold State.tenant
  extract_lets -merge -useContext +onlyGivenNames v1 v2 v3 v4 v5 v6
  have hv1 : Sound q (v1).st := by
    unfold v1
    exact State.fetch_sound hs
  try clear_value v1
  try clear_value v2
  try clear_value v3
  try clear_value v4
  try clear_value v5
  try clear_value v6
  try dsimp -zeta only
  exact hv1

theorem State.setKsess_sound {q : List Instr} {s : State} {k : ℕ} {x2 : KeySession} (hs : Sound q s) :
    Sound q (State.setKsess s k x2) := by
  unfold State.setKsess
  exact Sound.upd hs

theorem State.useRefused_sound {q : List Instr} {s : State} (hs : Sound q s) :
    Sound q (State.useRefused s) := by
  unfold State.useRefused
  refine State.raise_sound ?_
  exact State.bump_sound hs

theorem State.keyUse_sound {q : List Instr} {s : State} {k : ℕ} (hs : Sound q s) :
    Sound q ((State.keyUse s k)).2 := by
  unfold State.keyUse
  split
  · try dsimp -zeta only
    exact hs
  · extract_lets -merge -useContext +onlyGivenNames v1 v2
    try clear_value v1
    try clear_value v2
    split
    · try dsimp -zeta only
      exact State.useRefused_sound hs
    · split
      · rename_i p3 p4 e5
        have hp4 : Sound q p4 := by
          refine Sound.ofSnd e5 ?_
          exact State.useSlot_sound hs
        split
        · try dsimp -zeta only
          refine State.bump_sound ?_
          exact State.useRefused_sound hp4
        · split
          · try dsimp -zeta only
            exact State.useRefused_sound hp4
          · try dsimp -zeta only
            exact hp4

theorem State.rootUse_sound {q : List Instr} {s : State} (hs : Sound q s) :
    Sound q ((State.rootUse s)).2 := by
  unfold State.rootUse
  split
  · try dsimp -zeta only
    exact hs
  · split
    · rename_i p1 p2 e3
      have hp2 : Sound q p2 := by
        refine Sound.ofSnd e3 ?_
        exact State.useSlot_sound hs
      split
      · try dsimp -zeta only
        exact hp2
      · try dsimp -zeta only
        exact State.keyCount_sound hp2

theorem State.tenantUse_sound {q : List Instr} {s : State} (hs : Sound q s) :
    Sound q ((State.tenantUse s)).2 := by
  unfold State.tenantUse
  split
  · rename_i p1 e2
    have hp1 : Sound q p1 := by
      refine Sound.ofSnd e2 ?_
      exact State.rootUse_sound hs
    try dsimp -zeta only
    exact State.keyCount_sound hp1
  · exact State.rootUse_sound hs

theorem State.establish_sound {q : List Instr} {s : State} {k : ℕ} {tenant : ℕ} {rights : ℕ} {kt : List Byte} {peer : List Byte} {ctx : List Byte} (hs : Sound q s) :
    Sound q ((State.establish s k tenant rights kt peer ctx)).2 := by
  unfold State.establish
  split
  · try dsimp -zeta only
    exact State.keyCount_sound hs
  · split
    · try dsimp -zeta only
      exact State.keyCount_sound hs
    · extract_lets -merge -useContext +onlyGivenNames v1 v2 v3
      try clear_value v1
      try clear_value v2
      have hv3 : Sound q v3 := by
        unfold v3
        refine State.setKsess_sound ?_
        exact State.drawn_sound hs
      try clear_value v3
      try dsimp -zeta only
      exact State.keyCount_sound hv3

end Sys2Proof.Machine
end

