-- ==== Sys2Proof/Laws/SoundPoints.lean ====
section
/-!
SUPPORT. Every operation of Machine/Points.lean keeps the queue and the canonical forms of memory and registers.
-/

namespace Sys2Proof.Machine

theorem State.setRange_sound {q : List Instr} {s : State} {e : ℕ} {r : HopRange} (hs : Sound q s) :
    Sound q (State.setRange s e r) := by
  unfold State.setRange
  exact Sound.upd hs

theorem State.initRecord_sound {q : List Instr} {s : State} {i : ℕ} {multiw : Bool} (hs : Sound q s) :
    Sound q (State.initRecord s i multiw) := by
  unfold State.initRecord
  refine State.writeNum_sound ?_
  exact State.writeNum_sound hs

theorem State.markPending_sound {q : List Instr} {s : State} {i : ℕ} (hs : Sound q s) :
    Sound q (State.markPending s i) := by
  unfold State.markPending
  refine Sound.ite ?_ ?_
  · exact Sound.upd hs
  · exact hs

theorem State.countOwn_sound {q : List Instr} {s : State} {m : ℕ} {i : ℕ} (hs : Sound q s) :
    Sound q (State.countOwn s m i) := by
  unfold State.countOwn
  refine State.markPending_sound ?_
  exact State.writeNum_sound hs

theorem State.ownWrite_sound {q : List Instr} {s : State} {m : ℕ} {i : ℕ} {val : ℕ} {st : PStat} {ts : ℕ} (hs : Sound q s) :
    Sound q (State.ownWrite s m i val st ts) := by
  unfold State.ownWrite
  refine Sound.ite ?_ ?_
  · extract_lets -merge -useContext +onlyGivenNames v1 v2 v3
    try clear_value v1
    try clear_value v2
    have hv3 : Sound q v3 := by
      unfold v3
      refine State.writeNum_sound ?_
      refine State.writeNum_sound ?_
      exact State.writeNum_sound hs
    try clear_value v3
    refine Sound.ite ?_ ?_
    · exact State.countOwn_sound hv3
    · exact hv3
  · exact hs

theorem State.setFrame_sound {q : List Instr} {s : State} {f : ℕ} {x2 : HopFrame} (hs : Sound q s) :
    Sound q (State.setFrame s f x2) := by
  unfold State.setFrame
  exact Sound.upd hs

end Sys2Proof.Machine
end

