-- ==== Sys2Proof/Laws/SoundLeatOps.lean ====
section
/-!
SUPPORT. Every operation of Machine/LeatOps.lean keeps the queue and the canonical forms of memory and registers.
-/

namespace Sys2Proof.Machine

theorem State.setPort_sound {q : List Instr} {s : State} {p : ℕ} {x2 : FabPort} (hs : Sound q s) :
    Sound q (State.setPort s p x2) := by
  unfold State.setPort
  exact Sound.upd hs

theorem State.setLane_sound {q : List Instr} {s : State} {p : ℕ} {lane : ℕ} {q' : List FabQueued} (hs : Sound q s) :
    Sound q (State.setLane s p lane q') := by
  unfold State.setLane
  exact Sound.upd hs

theorem State.enqueue_sound {q : List Instr} {s : State} {inPort : ℕ} {p : ℕ} {f : Leat} (hs : Sound q s) :
    Sound q (State.enqueue s inPort p f) := by
  unfold State.enqueue
  extract_lets -merge -useContext +onlyGivenNames v1
  try clear_value v1
  split
  · exact State.setLane_sound hs
  · exact State.setLane_sound hs
  · exact State.bump_sound hs

theorem State.ctlPolice_sound {q : List Instr} {s : State} {inPort : ℕ} {egress : ℕ} {f : Leat} (hs : Sound q s) :
    SomeSound q (State.ctlPolice s inPort egress f) := by
  unfold State.ctlPolice
  split
  · refine SomeSound.some ?_
    exact hs
  · extract_lets -merge -useContext +onlyGivenNames v1 v2 v3
    try clear_value v1
    try clear_value v2
    try clear_value v3
    split
    · refine SomeSound.map ?_
      intro a4
      exact State.setPort_sound hs
    · refine SomeSound.map ?_
      intro a5
      exact State.setPort_sound hs

theorem State.setRule_sound {q : List Instr} {s : State} {p : ℕ} {r : ℕ} {x3 : FabRule} (hs : Sound q s) :
    Sound q (State.setRule s p r x3) := by
  unfold State.setRule
  exact Sound.upd hs

theorem State.quenched_sound {q : List Instr} {s : State} {p : ℕ} {r : ℕ} (hs : Sound q s) :
    Sound q (State.quenched s p r) := by
  unfold State.quenched
  extract_lets -merge -useContext +onlyGivenNames v1 v2
  try clear_value v1
  have hv2 : Sound q v2 := by
    unfold v2
    exact State.setRule_sound hs
  try clear_value v2
  refine Sound.ite ?_ ?_
  · exact State.bump_sound hv2
  · exact hv2

theorem State.mbxPut_sound {q : List Instr} {s : State} {o : ℕ} {bs : List Byte} (hs : Sound q s) :
    Sound q (State.mbxPut s o bs) := by
  unfold State.mbxPut
  refine State.each_sound hs ?_
  intro a1 a2 ha1
  extract_lets -merge -useContext +onlyGivenNames v3 v4
  try clear_value v3
  try clear_value v4
  exact Sound.upd ha1

theorem State.mbxReceive_sound {q : List Instr} {s : State} {f : Leat} (hs : Sound q s) :
    Sound q (State.mbxReceive s f) := by
  unfold State.mbxReceive
  split
  · refine State.raise_sound ?_
    refine State.setBit_sound ?_
    exact State.mbxPut_sound hs
  · exact State.bump_sound hs

theorem State.toInbox_sound {q : List Instr} {s : State} {f : Leat} (hs : Sound q s) :
    Sound q (State.toInbox s f) := by
  unfold State.toInbox
  exact Sound.upd hs

theorem State.deliver_sound {q : List Instr} {s : State} {f : Leat} (hs : Sound q s) :
    Sound q (State.deliver s f) := by
  unfold State.deliver
  refine Sound.ite ?_ ?_
  · exact State.bump_sound hs
  · refine Sound.ite ?_ ?_
    · exact State.mbxReceive_sound hs
    · exact State.toInbox_sound hs

theorem State.leave_sound {q : List Instr} {s : State} {inPort : ℕ} {p : ℕ} {f : Leat} (hs : Sound q s) :
    Sound q (State.leave s inPort p f) := by
  unfold State.leave
  refine Sound.ite ?_ ?_
  · exact State.enqueue_sound hs
  · split
    · rename_i p1 e2
      have hp1 : Sound q p1 := by
        refine Sound.ofSome e2 ?_
        exact State.ctlPolice_sound hs
      exact State.enqueue_sound hp1
    · exact State.bump_sound hs

theorem State.enter_sound {q : List Instr} {s : State} {f₀ : Leat} (hs : Sound q s) :
    Sound q ((State.enter s f₀)).2 := by
  unfold State.enter
  extract_lets -merge -useContext +onlyGivenNames v1 v2
  try clear_value v1
  try clear_value v2
  split
  · try dsimp -zeta only
    exact State.quenched_sound hs
  · split
    · try dsimp -zeta only
      exact hs
    · split
      · try dsimp -zeta only
        refine State.each_sound hs ?_
        intro a3 a4 ha3
        exact State.leave_sound ha3
      · split
        · try dsimp -zeta only
          exact State.leave_sound hs
        · split
          · try dsimp -zeta only
            exact State.deliver_sound hs
          · try dsimp -zeta only
            exact State.bump_sound hs

theorem State.txIn_sound {q : List Instr} {s : State} {f : Leat} {poisonAt : Option ℕ} (hs : Sound q s) :
    Sound q ((State.txIn s f poisonAt)).2 := by
  unfold State.txIn
  extract_lets -merge -useContext +onlyGivenNames v1
  have hv1 : ∀ x0, Sound q x0 → Sound q (v1 x0) := by
    unfold v1
    intro a2 ha2
    exact Sound.upd ha2
  try clear_value v1
  split
  · try dsimp -zeta only
    exact hv1 _ hs
  · split
    · try dsimp -zeta only
      refine hv1 _ ?_
      exact State.egressHalt_sound hs
    · exact State.enter_sound hs

theorem State.tookSeq_sound {q : List Instr} {s : State} {f : Leat} (hs : Sound q s) :
    Sound q (State.tookSeq s f) := by
  unfold State.tookSeq
  exact Sound.upd hs

theorem State.leatSend_sound {q : List Instr} {s : State} {typ : ℕ} {lane : ℕ} {dst : ℕ} {payload : List Byte} {session : ℕ} {flow : ℕ} {poisonAt : Option ℕ} (hs : Sound q s) :
    Sound q ((State.leatSend s typ lane dst payload session flow poisonAt)).2 := by
  unfold State.leatSend
  split
  · extract_lets -merge -useContext +onlyGivenNames v1
    try clear_value v1
    refine State.txIn_sound ?_
    exact State.tookSeq_sound hs
  · try dsimp -zeta only
    exact hs

theorem State.leatPost_sound {q : List Instr} {s : State} {typ : ℕ} {lane : ℕ} {dst : ℕ} {payload : List Byte} (hs : Sound q s) :
    Sound q (State.leatPost s typ lane dst payload) := by
  unfold State.leatPost
  exact State.leatSend_sound hs

theorem State.takeInbox_sound {q : List Instr} {s : State} {typ : ℕ} {src : ℕ} {payload : List Byte} (hs : Sound q s) :
    Sound q (State.takeInbox s typ src payload) := by
  unfold State.takeInbox
  split
  · exact Sound.upd hs
  · exact hs

end Sys2Proof.Machine
end

