-- ==== Sys2Proof/Laws/SoundGateSess.lean ====
section
/-!
SUPPORT. Every operation of Machine/GateSess.lean keeps the queue and the canonical forms of memory and registers.
-/

namespace Sys2Proof.Machine

theorem State.syncSessions_sound {q : List Instr} {s : State} (hs : Sound q s) :
    Sound q (State.syncSessions s) := by
  unfold State.syncSessions
  extract_lets -merge -useContext +onlyGivenNames v1
  try clear_value v1
  refine State.wr_sound ?_
  exact State.wr_sound hs

theorem State.setSess_sound {q : List Instr} {s : State} {k : ℕ} {x2 : Session} (hs : Sound q s) :
    Sound q (State.setSess s k x2) := by
  unfold State.setSess
  refine State.syncSessions_sound ?_
  exact Sound.upd hs

theorem State.freeSess_sound {q : List Instr} {s : State} {k : ℕ} (hs : Sound q s) :
    Sound q (State.freeSess s k) := by
  unfold State.freeSess
  extract_lets -merge -useContext +onlyGivenNames v1 v2
  have hv1 : Sound q v1 := by
    unfold v1
    refine State.setKsess_sound ?_
    exact State.setSess_sound hs
  try clear_value v1
  try clear_value v2
  exact Sound.upd hv1

theorem State.keyClosed_sound {q : List Instr} {s : State} {k : ℕ} (hs : Sound q s) :
    Sound q (State.keyClosed s k) := by
  unfold State.keyClosed
  refine State.raise_sound ?_
  refine State.bump_sound ?_
  exact State.freeSess_sound hs

theorem State.refuses_sound {q : List Instr} {s : State} (hs : Sound q s) :
    Sound q (State.refuses s) := by
  unfold State.refuses
  exact State.bump_sound hs

theorem State.refuseRaw_sound {q : List Instr} {s : State} {f : Leat} {code : ℕ} {tenant : ℕ} (hs : Sound q s) :
    Sound q (State.refuseRaw s f code tenant) := by
  have e0 : @State.refuseRaw = @State.refuseRaw := rfl
  conv at e0 => rhs; delta State.refuseRaw
  rw [e0]
  clear e0
  beta_reduce
  refine State.leatPost_sound ?_
  exact State.refuses_sound hs

theorem State.refuseNosess_sound {q : List Instr} {s : State} {f : Leat} (hs : Sound q s) :
    Sound q (State.refuseNosess s f) := by
  unfold State.refuseNosess
  refine Sound.ite ?_ ?_
  · refine State.refuseRaw_sound ?_
    exact Sound.upd hs
  · exact State.refuses_sound hs

theorem State.sealOut_sound {q : List Instr} {s : State} {k : ℕ} {f : Leat} {thenFree : Bool} (hs : Sound q s) :
    Sound q (State.sealOut s k f thenFree) := by
  have e0 : @State.sealOut = @State.sealOut := rfl
  conv at e0 => rhs; delta State.sealOut
  rw [e0]
  clear e0
  beta_reduce
  extract_lets -merge -useContext +onlyGivenNames v1 v2
  try clear_value v1
  have hv2 : Sound q v2 := by
    unfold v2
    refine State.txIn_sound ?_
    exact State.keyCount_sound hs
  try clear_value v2
  refine Sound.ite ?_ ?_
  · exact State.freeSess_sound hv2
  · exact hv2

theorem State.useDenied_sound {q : List Instr} {s : State} {k : ℕ} {a : KeyAns} {act : KeyAct} (hs : Sound q s) :
    Sound q (State.useDenied s k a act) := by
  unfold State.useDenied
  split
  · exact State.keyClosed_sound hs
  · split
    · exact State.refuseRaw_sound hs
    · exact State.refuseRaw_sound hs
    · refine Sound.ite ?_ ?_
      · exact State.freeSess_sound hs
      · exact State.refuses_sound hs
    · exact hs

theorem State.askUse_sound {q : List Instr} {s : State} {k : ℕ} {act : KeyAct} (hs : Sound q s) :
    Sound q ((State.askUse s k act)).2 := by
  have e0 : @State.askUse = @State.askUse := rfl
  conv at e0 => rhs; delta State.askUse
  rw [e0]
  clear e0
  beta_reduce
  split
  · rename_i p1 e2
    have hp1 : Sound q p1 := by
      refine Sound.ofSnd e2 ?_
      exact State.keyUse_sound hs
    split
    · extract_lets -merge -useContext +onlyGivenNames v3 v4 v5
      try clear_value v3
      try clear_value v4
      try clear_value v5
      split
      · rename_i p6 e7
        have hp6 : Sound q p6 := by
          refine Sound.ofSnd e7 ?_
          exact State.asnPost_sound hp1
        try dsimp -zeta only
        exact Sound.upd hp6
      · rename_i p8 e9
        have hp8 : Sound q p8 := by
          refine Sound.ofSnd e9 ?_
          exact State.asnPost_sound hp1
        try dsimp -zeta only
        refine State.useDenied_sound ?_
        exact State.useRefused_sound hp8
    · try dsimp -zeta only
      exact hp1
  · rename_i p10 p11 _ e12
    have hp11 : Sound q p11 := by
      refine Sound.ofSnd e12 ?_
      exact State.keyUse_sound hs
    try dsimp -zeta only
    exact State.useDenied_sound hp11

theorem State.sendSess_sound {q : List Instr} {s : State} {k : ℕ} {typ : ℕ} {lane : ℕ} {plain : List Byte} {thenFree : Bool} (hs : Sound q s) :
    Sound q (State.sendSess s k typ lane plain thenFree) := by
  unfold State.sendSess
  extract_lets -merge -useContext +onlyGivenNames v1 v2 v3
  try clear_value v1
  try clear_value v2
  try clear_value v3
  refine Sound.ite ?_ ?_
  · split
    · rename_i p4 e5
      have hp4 : Sound q p4 := by
        refine Sound.ofSnd e5 ?_
        refine State.askUse_sound ?_
        exact State.tookSeq_sound hs
      exact State.sealOut_sound hp4
    · rename_i p6 e7
      have hp6 : Sound q p6 := by
        refine Sound.ofSnd e7 ?_
        refine State.askUse_sound ?_
        exact State.tookSeq_sound hs
      exact hp6
  · refine Sound.ite ?_ ?_
    · exact State.freeSess_sound hs
    · exact hs

theorem State.sendReply_sound {q : List Instr} {s : State} {k : ℕ} {typ : ℕ} {lane : ℕ} {reqid : ℕ} {result : ℕ} {thenFree : Bool} (hs : Sound q s) :
    Sound q (State.sendReply s k typ lane reqid result thenFree) := by
  unfold State.sendReply
  exact State.sendSess_sound hs

theorem State.sendRefuse_sound {q : List Instr} {s : State} {k : ℕ} {typ : ℕ} {lane : ℕ} {reqid : ℕ} {code : ℕ} (hs : Sound q s) :
    Sound q (State.sendRefuse s k typ lane reqid code) := by
  unfold State.sendRefuse
  refine State.sendSess_sound ?_
  exact State.refuses_sound hs

theorem State.charge_sound {q : List Instr} {s : State} {k : ℕ} {cost : ℕ} (hs : Sound q s) :
    Sound q ((State.charge s k cost)).2 := by
  unfold State.charge
  extract_lets -merge -useContext +onlyGivenNames v1 v2
  try clear_value v1
  try clear_value v2
  split
  · rename_i p3 p4 e5
    have hp4 : Sound q p4 := by
      refine Sound.ofSnd e5 ?_
      exact State.tenant_sound hs
    extract_lets -merge -useContext +onlyGivenNames v6 v7 v8 v9 v10 v11
    try clear_value v6
    try clear_value v7
    try clear_value v8
    try clear_value v9
    have hv10 : Sound q v10 := by
      unfold v10
      exact State.setSess_sound hp4
    try clear_value v10
    try clear_value v11
    try dsimp -zeta only
    exact Sound.upd hv10

theorem State.settleTenant_sound {q : List Instr} {s : State} {t : ℕ} (hs : Sound q s) :
    Sound q (State.settleTenant s t) := by
  unfold State.settleTenant
  split
  · rename_i p1 p2 e3
    have hp2 : Sound q p2 := by
      refine Sound.ofSnd e3 ?_
      exact State.tenant_sound hs
    extract_lets -merge -useContext +onlyGivenNames v4 v5
    try clear_value v4
    try clear_value v5
    exact Sound.upd hp2

theorem State.settleAt_sound {q : List Instr} {s : State} {p : ℕ} (hs : Sound q s) :
    Sound q (State.settleAt s p) := by
  unfold State.settleAt
  extract_lets -merge -useContext +onlyGivenNames v1
  try clear_value v1
  refine Sound.ite ?_ ?_
  · exact State.settleTenant_sound hs
  · exact hs

theorem State.openCharge_sound {q : List Instr} {s : State} (hs : Sound q s) :
    Sound q ((State.openCharge s)).2 := by
  unfold State.openCharge
  extract_lets -merge -useContext +onlyGivenNames v1 v2 v3 v4
  try clear_value v1
  try clear_value v2
  try clear_value v3
  try clear_value v4
  split
  · try dsimp -zeta only
    exact Sound.upd hs
  · try dsimp -zeta only
    refine State.raise_sound ?_
    refine State.bump_sound ?_
    exact Sound.upd hs

theorem State.sendAssist_sound {q : List Instr} {s : State} {b : AsnBlock} {seq : ℕ} (hs : Sound q s) :
    Sound q (State.sendAssist s b seq) := by
  unfold State.sendAssist
  split
  · refine Sound.ite ?_ ?_
    · exact State.sendSess_sound hs
    · exact hs
  · exact hs

theorem State.asnPostTo_sound {q : List Instr} {s : State} {b : AsnBlock} {func : ℕ} {src : ℕ} {arg : List Byte} {poison : Bool} {ctx : List ℕ} {code : Option ℕ} {at_ : ℕ} (hs : Sound q s) :
    Sound q ((State.asnPostTo s b func src arg poison ctx code at_)).2 := by
  have e0 : @State.asnPostTo = @State.asnPostTo := rfl
  conv at e0 => rhs; delta State.asnPostTo
  rw [e0]
  clear e0
  beta_reduce
  extract_lets -merge -useContext +onlyGivenNames v1
  try clear_value v1
  split
  · rename_i p2 e3
    have hp2 : Sound q p2 := by
      refine Sound.ofSnd e3 ?_
      exact State.asnPost_sound hs
    try dsimp -zeta only
    refine Sound.ite ?_ ?_
    · exact State.sendAssist_sound hp2
    · exact hp2
  · exact State.asnPost_sound hs

end Sys2Proof.Machine
end

