-- ==== Sys2Proof/Laws/SoundEvents.lean ====
section
/-!
SUPPORT. Every operation of Machine/Events.lean keeps the queue and the canonical forms of memory and registers.
-/

namespace Sys2Proof.Machine

theorem State.writeTailHeader_sound {q : List Instr} {s : State} (hs : Sound q s) :
    Sound q (State.writeTailHeader s) := by
  unfold State.writeTailHeader
  exact TwoCopy.rewrite_sound hs

theorem State.reserve_sound {q : List Instr} {s : State} (hs : Sound q s) :
    Sound q (State.reserve s) := by
  unfold State.reserve
  refine Sound.ite ?_ ?_
  · refine State.writeTailHeader_sound ?_
    exact Sound.upd hs
  · exact hs

theorem State.emit_sound {q : List Instr} {s : State} {r : EvtRec} {seq : ℕ} {flags : ℕ} (hs : Sound q s) :
    Sound q (State.emit s r seq flags) := by
  unfold State.emit
  extract_lets -merge -useContext +onlyGivenNames v1 v2 v3 v4 v5 v6 v7 v8 v9 v10 v11 v12 v13
  try clear_value v1
  try clear_value v2
  have hv3 : Sound q v3 := by
    unfold v3
    refine Sound.ite ?_ ?_
    · refine State.raise_sound ?_
      exact State.bump_sound hs
    · exact hs
  try clear_value v3
  try clear_value v4
  try clear_value v5
  try clear_value v6
  try clear_value v7
  have hv8 : Sound q v8 := by
    unfold v8
    exact State.write_sound hv3
  try clear_value v8
  have hv9 : Sound q v9 := by
    unfold v9
    exact State.wr_sound hv8
  try clear_value v9
  try clear_value v10
  have hv11 : Sound q v11 := by
    unfold v11
    refine Sound.ite ?_ ?_
    · exact Sound.upd hv9
    · exact hv8
  try clear_value v11
  have hv12 : Sound q v12 := by
    unfold v12
    exact State.bump_sound hv11
  try clear_value v12
  try clear_value v13
  exact Sound.upd hv12

theorem State.emitReady_sound {q : List Instr} {s : State} {a : ℕ} (hs : Sound q s) :
    Sound q (State.emitReady s a) := by
  unfold State.emitReady
  split
  · exact hs
  · split
    · refine State.emitReady_sound ?_
      refine State.emit_sound ?_
      exact Sound.upd hs
    · exact hs

theorem State.line_sound {q : List Instr} {s : State} {e : EvtInFlight} (hs : Sound q s) :
    Sound q (State.line s e) := by
  unfold State.line
  extract_lets -merge -useContext +onlyGivenNames v1 v2
  try clear_value v1
  have hv2 : Sound q v2 := by
    unfold v2
    exact Sound.upd hs
  try clear_value v2
  exact State.emitReady_sound hv2

theorem State.number_sound {q : List Instr} {s : State} {r : EvtRec} {cls : ℕ} (hs : Sound q s) :
    Sound q (State.number s r cls) := by
  unfold State.number
  extract_lets -merge -useContext +onlyGivenNames v1 v2 v3 v4 v5 v6 v7 v8
  try clear_value v1
  try clear_value v2
  try clear_value v3
  have hv4 : Sound q v4 := by
    unfold v4
    refine State.reserve_sound ?_
    exact Sound.upd hs
  try clear_value v4
  try clear_value v5
  have hv6 : Sound q v6 := by
    unfold v6
    exact State.write_sound hv4
  try clear_value v6
  try clear_value v7
  try clear_value v8
  refine Sound.ite ?_ ?_
  · split
    · rename_i p9 p10 e11
      have hp10 : Sound q p10 := by
        refine Sound.ofSnd e11 ?_
        refine State.asnPostTo_sound ?_
        refine Sound.ite ?_ ?_
        · exact hv4
        · exact hv6
      refine Sound.ite ?_ ?_
      · exact State.line_sound hp10
      · refine State.line_sound ?_
        exact State.bump_sound hp10
  · exact State.line_sound hv4

theorem State.record_sound {q : List Instr} {s : State} {r : EvtRec} (hs : Sound q s) :
    Sound q (State.record s r) := by
  unfold State.record
  extract_lets -merge -useContext +onlyGivenNames v1
  try clear_value v1
  refine Sound.ite ?_ ?_
  · exact State.bump_sound hs
  · exact State.number_sound hs

theorem State.overflow_sound {q : List Instr} {s : State} (hs : Sound q s) :
    Sound q (State.overflow s) := by
  unfold State.overflow
  refine Sound.ite ?_ ?_
  · exact hs
  · extract_lets -merge -useContext +onlyGivenNames v1 v2 v3
    try clear_value v1
    try clear_value v2
    have hv3 : Sound q v3 := by
      unfold v3
      exact Sound.upd hs
    try clear_value v3
    exact State.wr_sound hv3

theorem State.takeStaged_sound {q : List Instr} {s : State} {bad : Bool} (hs : Sound q s) :
    Sound q (State.takeStaged s bad) := by
  unfold State.takeStaged
  split
  · exact hs
  · extract_lets -merge -useContext +onlyGivenNames v1 v2 v3 v4 v5
    try clear_value v1
    have hv2 : Sound q v2 := by
      unfold v2
      exact Sound.upd hs
    try clear_value v2
    have hv3 : Sound q v3 := by
      unfold v3
      exact State.wr_sound hv2
    try clear_value v3
    try clear_value v4
    have hv5 : Sound q v5 := by
      unfold v5
      exact Sound.upd hv3
    try clear_value v5
    refine Sound.ite ?_ ?_
    · refine State.overflow_sound ?_
      refine State.raise_sound ?_
      exact State.bump_sound hv5
    · refine State.record_sound ?_
      exact State.overflow_sound hv3

theorem State.takeAll_sound {q : List Instr} {s : State} {a : ℕ} (hs : Sound q s) :
    Sound q (State.takeAll s a) := by
  unfold State.takeAll
  split
  · exact hs
  · refine State.takeAll_sound ?_
    exact State.takeStaged_sound hs

theorem State.tailWrite_sound {q : List Instr} {s : State} (hs : Sound q s) :
    Sound q (State.tailWrite s) := by
  unfold State.tailWrite
  split
  · exact hs
  · refine State.write_sound ?_
    exact Sound.upd hs

theorem State.flushTail_sound {q : List Instr} {s : State} (hs : Sound q s) :
    Sound q (State.flushTail s) := by
  unfold State.flushTail
  refine foldl_keep (P := fun (x : State) => Sound q x) ?_ ?_
  · intro a1 a2 ha1
    beta_reduce at *
    exact State.tailWrite_sound ha1
  · exact hs

theorem State.direct_sound {q : List Instr} {s : State} {code : ℕ} {subj : ℕ} {val1 : ℕ} {val2 : ℕ} {extra : ℕ} (hs : Sound q s) :
    Sound q (State.direct s code subj val1 val2 extra) := by
  unfold State.direct
  exact State.record_sound hs

theorem State.tailScan_sound {q : List Instr} {s : State} (hs : Sound q s) :
    Sound q (State.tailScan s) := by
  unfold State.tailScan
  extract_lets -merge -useContext +onlyGivenNames v1 v2 v3 v4 v5 v6 v7 v8 v9 v10 v11 v12 v13 v14 v15 v16 v17 v18 v19
  try clear_value v1
  try clear_value v2
  try clear_value v3
  try clear_value v4
  try clear_value v5
  try clear_value v6
  try clear_value v7
  try clear_value v8
  try clear_value v9
  try clear_value v10
  try clear_value v11
  try clear_value v12
  have hv13 : Sound q v13 := by
    unfold v13
    refine State.wr_sound ?_
    exact State.wr_sound hs
  try clear_value v13
  try clear_value v14
  have hv15 : Sound q v15 := by
    unfold v15
    exact Sound.upd hv13
  try clear_value v15
  have hv16 : Sound q v16 := by
    unfold v16
    refine State.writeTailHeader_sound ?_
    exact State.wrb_sound hv15
  try clear_value v16
  have hv17 : Sound q v17 := by
    unfold v17
    exact State.bumpBy_sound hv16
  try clear_value v17
  have hv18 : Sound q v18 := by
    unfold v18
    exact State.direct_sound hv17
  try clear_value v18
  have hv19 : Sound q v19 := by
    unfold v19
    refine Sound.ite ?_ ?_
    · exact hv18
    · exact State.direct_sound hv18
  try clear_value v19
  refine State.raise_sound ?_
  exact State.clear_sound hv19

theorem State.evtStart_sound {q : List Instr} {s : State} (hs : Sound q s) :
    Sound q (State.evtStart s) := by
  unfold State.evtStart
  refine Sound.ite ?_ ?_
  · exact hs
  · exact State.raise_sound hs

theorem State.evtXbar_sound {q : List Instr} {s : State} (hs : Sound q s) :
    Sound q (State.evtXbar s) := by
  unfold State.evtXbar
  extract_lets -merge -useContext +onlyGivenNames v1 v2 v3 v4
  have hv1 : Sound q v1 := by
    unfold v1
    exact State.clear_sound hs
  try clear_value v1
  try clear_value v2
  try clear_value v3
  try clear_value v4
  split
  · exact Sound.upd hv1
  · refine State.wr_sound ?_
    exact Sound.upd hv1

theorem State.evtOff_sound {q : List Instr} {s : State} (hs : Sound q s) :
    Sound q (State.evtOff s) := by
  unfold State.evtOff
  exact State.clear_sound hs

theorem State.evtResult_sound {q : List Instr} {s : State} {dseq : ℕ} {ok : Bool} (hs : Sound q s) :
    Sound q (State.evtResult s dseq ok) := by
  unfold State.evtResult
  extract_lets -merge -useContext +onlyGivenNames v1 v2 v3 v4 v5 v6 v7 v8 v9
  have hv1 : Sound q (v1).st := by
    unfold v1
    exact State.fetch_sound hs
  try clear_value v1
  try clear_value v2
  try clear_value v3
  try clear_value v4
  try clear_value v5
  try clear_value v6
  have hv7 : Sound q v7 := by
    unfold v7
    refine Sound.ite ?_ ?_
    · exact State.bump_sound hv1
    · exact hv1
  try clear_value v7
  try clear_value v8
  have hv9 : Sound q v9 := by
    unfold v9
    exact Sound.upd hv7
  try clear_value v9
  exact State.emitReady_sound hv9

theorem State.evtCmdDone_sound {q : List Instr} {s : State} {op : ℕ} {result : ℕ} (hs : Sound q s) :
    Sound q (State.evtCmdDone s op result) := by
  unfold State.evtCmdDone
  refine State.raise_sound ?_
  refine State.wr_sound ?_
  exact State.wr_sound hs

theorem execEventPost_sound {q : List Instr} {e : EvtPost} {s : State} (hs : Sound q s) :
    NextSound q (execEventPost e s) := by
  unfold execEventPost
  refine NextSound.next ?_
  refine Sound.ite ?_ ?_
  · exact State.post_sound hs
  · exact hs

theorem execSwPost_sound {q : List Instr} {m : ℕ} {s : State} (hs : Sound q s) :
    NextSound q (execSwPost m s) := by
  unfold execSwPost
  extract_lets -merge -useContext +onlyGivenNames v1 v2
  try clear_value v1
  try clear_value v2
  refine onUnit_sound ?_
  refine Sound.ite ?_ ?_
  · exact State.wr_sound hs
  · refine Sound.ite ?_ ?_
    · exact State.wr_sound hs
    · refine State.wr_sound ?_
      exact State.event_sound hs

theorem execRecordWrite_sound {q : List Instr} {bad : Bool} {s : State} (hs : Sound q s) :
    NextSound q (execRecordWrite bad s) := by
  unfold execRecordWrite
  refine NextSound.next ?_
  refine Sound.ite ?_ ?_
  · exact State.takeStaged_sound hs
  · exact hs

theorem execTailWrite_sound {q : List Instr} {s : State} (hs : Sound q s) :
    NextSound q (execTailWrite s) := by
  unfold execTailWrite
  refine NextSound.next ?_
  exact State.tailWrite_sound hs

theorem execEvtClear_sound {q : List Instr} {s : State} (hs : Sound q s) :
    NextSound q (execEvtClear s) := by
  unfold execEvtClear
  refine NextSound.next ?_
  refine Sound.ite ?_ ?_
  · exact State.evtCmdDone_sound hs
  · extract_lets -merge -useContext +onlyGivenNames v1 v2 v3 v4
    have hv1 : Sound q v1 := by
      unfold v1
      exact State.takeAll_sound hs
    try clear_value v1
    try clear_value v2
    have hv3 : Sound q v3 := by
      unfold v3
      exact Sound.upd hv1
    try clear_value v3
    have hv4 : Sound q v4 := by
      unfold v4
      refine State.writeTailHeader_sound ?_
      exact State.wr_sound hv3
    try clear_value v4
    refine State.evtCmdDone_sound ?_
    refine State.raise_sound ?_
    exact State.direct_sound hv4

theorem execEvtFlush_sound {q : List Instr} {s : State} (hs : Sound q s) :
    NextSound q (execEvtFlush s) := by
  unfold execEvtFlush
  refine NextSound.next ?_
  refine Sound.ite ?_ ?_
  · refine State.evtCmdDone_sound ?_
    exact State.flushTail_sound hs
  · exact State.evtCmdDone_sound hs

theorem execTailScanComplete_sound {q : List Instr} {s : State} (hs : Sound q s) :
    NextSound q (execTailScanComplete s) := by
  unfold execTailScanComplete
  refine NextSound.next ?_
  refine Sound.ite ?_ ?_
  · exact State.tailScan_sound hs
  · exact hs

theorem State.oldestRead_sound {q : List Instr} {s : State} (hs : Sound q s) :
    Sound q (State.oldestRead s) := by
  unfold State.oldestRead
  extract_lets -merge -useContext +onlyGivenNames v1 v2 v3
  try clear_value v1
  have hv2 : Sound q v2 := by
    unfold v2
    refine State.wr64_sound ?_
    exact State.wr64_sound hs
  try clear_value v2
  have hv3 : Sound q v3 := by
    unfold v3
    exact State.wr64_sound hv2
  try clear_value v3
  exact Sound.upd hv3

theorem execEvtOldestRead_sound {q : List Instr} {s : State} (hs : Sound q s) :
    NextSound q (execEvtOldestRead s) := by
  unfold execEvtOldestRead
  refine NextSound.next ?_
  exact State.oldestRead_sound hs

end Sys2Proof.Machine
end

