-- ==== Sys2Proof/Laws/SoundMirOps.lean ====
section
/-!
SUPPORT. Every operation of Machine/MirOps.lean keeps the queue and the canonical forms of memory and registers.
-/

namespace Sys2Proof.Machine

theorem State.pairEvent_sound {q : List Instr} {s : State} {code : ℕ} {val2 : ℕ} (hs : Sound q s) :
    Sound q (State.pairEvent s code val2) := by
  unfold State.pairEvent
  exact State.event_sound hs

theorem State.mirLost_sound {q : List Instr} {s : State} (hs : Sound q s) :
    Sound q (State.mirLost s) := by
  unfold State.mirLost
  refine State.pairEvent_sound ?_
  refine State.bump_sound ?_
  exact State.raise_sound hs

theorem State.queueBatch_sound {q : List Instr} {s : State} {items : List MirItem} {base : Bool} {poisonAt : Option ℕ} (hs : Sound q s) :
    Sound q (State.queueBatch s items base poisonAt) := by
  unfold State.queueBatch
  refine Sound.ite ?_ ?_
  · exact hs
  · extract_lets -merge -useContext +onlyGivenNames v1 v2 v3 v4
    have hv1 : Sound q v1 := by
      unfold v1
      exact State.wr_sound hs
    try clear_value v1
    try clear_value v2
    try clear_value v3
    try clear_value v4
    refine Sound.ite ?_ ?_
    · exact State.mirLost_sound hv1
    · exact Sound.upd hv1

end Sys2Proof.Machine
end

