-- ==== Sys2Proof/Laws/SoundImgBase.lean ====
section
/-!
SUPPORT. Every operation of Machine/ImgBase.lean keeps the queue and the canonical forms of memory and registers.
-/

namespace Sys2Proof.Machine

theorem State.setImgTask_sound {q : List Instr} {s : State} {t : ℕ} {x2 : ImgTask} (hs : Sound q s) :
    Sound q (State.setImgTask s t x2) := by
  unfold State.setImgTask
  exact Sound.upd hs

theorem State.imgFinish_sound {q : List Instr} {s : State} {t : ℕ} (hs : Sound q s) :
    Sound q (State.imgFinish s t) := by
  unfold State.imgFinish
  extract_lets -merge -useContext +onlyGivenNames v1 v2 v3 v4 v5
  try clear_value v1
  try clear_value v2
  try clear_value v3
  try clear_value v4
  have hv5 : Sound q v5 := by
    unfold v5
    exact State.writeNum_sound hs
  try clear_value v5
  exact State.wr_sound hv5

theorem State.imgSample_sound {q : List Instr} {s : State} {t : ℕ} (hs : Sound q s) :
    Sound q (State.imgSample s t) := by
  unfold State.imgSample
  split
  · extract_lets -merge -useContext +onlyGivenNames v1 v2 v3 v4 v5
    have hv1 : Sound q v1 := by
      unfold v1
      refine foldl_keep (P := fun (x : State) => Sound q x) ?_ ?_
      · intro a6 a7 ha6
        beta_reduce at *
        exact State.wr_sound ha6
      · exact hs
    try clear_value v1
    try clear_value v2
    have hv3 : Sound q v3 := by
      unfold v3
      exact State.write_sound hv1
    try clear_value v3
    have hv4 : Sound q v4 := by
      unfold v4
      exact State.write_sound hv3
    try clear_value v4
    try clear_value v5
    exact State.setImgTask_sound hv4

theorem State.queueXfer_sound {q : List Instr} {s : State} {x1 : Xfer} (hs : Sound q s) :
    Sound q (State.queueXfer s x1) := by
  unfold State.queueXfer
  exact Sound.upd hs

theorem State.queueCopy_sound {q : List Instr} {s : State} {t : ℕ} {relInst : ℕ} (hs : Sound q s) :
    Sound q (State.queueCopy s t relInst) := by
  unfold State.queueCopy
  extract_lets -merge -useContext +onlyGivenNames v1 v2
  try clear_value v1
  have hv2 : Sound q v2 := by
    unfold v2
    exact State.setImgTask_sound hs
  try clear_value v2
  refine Sound.ite ?_ ?_
  · exact hv2
  · exact State.queueXfer_sound hv2

theorem State.queueCommit_sound {q : List Instr} {s : State} {t : ℕ} (hs : Sound q s) :
    Sound q (State.queueCommit s t) := by
  unfold State.queueCommit
  exact State.queueXfer_sound hs

theorem State.dropCopy_sound {q : List Instr} {s : State} {t : ℕ} (hs : Sound q s) :
    Sound q (State.dropCopy s t) := by
  unfold State.dropCopy
  extract_lets -merge -useContext +onlyGivenNames v1 v2 v3
  try clear_value v1
  try clear_value v2
  try clear_value v3
  exact Sound.upd hs

end Sys2Proof.Machine
end

