-- ==== Sys2Proof/Laws/SoundLoopBase.lean ====
section
/-!
SUPPORT. Every operation of Machine/LoopBase.lean keeps the queue and the canonical forms of memory and registers.
-/

namespace Sys2Proof.Machine

theorem State.setLoopWord_sound {q : List Instr} {s : State} {w : ℕ} {v : Word} (hs : Sound q s) :
    Sound q (State.setLoopWord s w v) := by
  unfold State.setLoopWord
  exact Sound.upd hs

theorem State.setLw_sound {q : List Instr} {s : State} {n : ℕ} {ofs : ℕ} {v : Word} (hs : Sound q s) :
    Sound q (State.setLw s n ofs v) := by
  unfold State.setLw
  exact State.setLoopWord_sound hs

theorem State.setGw_sound {q : List Instr} {s : State} {g : ℕ} {j : ℕ} {v : Word} (hs : Sound q s) :
    Sound q (State.setGw s g j v) := by
  unfold State.setGw
  exact State.setLoopWord_sound hs

theorem State.setLoopX_sound {q : List Instr} {s : State} {n : ℕ} {x2 : LoopX} (hs : Sound q s) :
    Sound q (State.setLoopX s n x2) := by
  unfold State.setLoopX
  exact Sound.upd hs

theorem State.setGroupX_sound {q : List Instr} {s : State} {g : ℕ} {x2 : LoopX} (hs : Sound q s) :
    Sound q (State.setGroupX s g x2) := by
  unfold State.setGroupX
  exact Sound.upd hs

theorem State.setLstat_sound {q : List Instr} {s : State} {n : ℕ} {b : ℕ} {v : Bool} (hs : Sound q s) :
    Sound q (State.setLstat s n b v) := by
  unfold State.setLstat
  exact State.setLw_sound hs

theorem State.loopGaps_sound {q : List Instr} {s : State} (hs : Sound q s) :
    Sound q (State.loopGaps s) := by
  unfold State.loopGaps
  refine State.each_sound hs ?_
  intro a1 a2 ha1
  exact State.setLstat_sound ha1

theorem State.loopHoldEnd_sound {q : List Instr} {s : State} (hs : Sound q s) :
    Sound q (State.loopHoldEnd s) := by
  unfold State.loopHoldEnd
  refine State.loopGaps_sound ?_
  exact Sound.upd hs

theorem State.loopMtStep_sound {q : List Instr} {s : State} {old : ℕ} (hs : Sound q s) :
    Sound q (State.loopMtStep s old) := by
  unfold State.loopMtStep
  extract_lets -merge -useContext +onlyGivenNames v1 v2 v3
  have hv1 : Sound q v1 := by
    unfold v1
    refine State.raise_sound ?_
    exact State.loopGaps_sound hs
  try clear_value v1
  have hv2 : ∀ x0 x1, Sound q x0 → Sound q (v2 x0 x1) := by
    unfold v2
    intro a4 a5 ha4
    refine Sound.ite ?_ ?_
    · exact State.bumpBy_sound ha4
    · exact ha4
  try clear_value v2
  have hv3 : Sound q v3 := by
    unfold v3
    refine State.each_sound hv1 ?_
    intro a6 a7 ha6
    split
    · refine hv2 _ _ ?_
      exact State.setLoopX_sound ha6
  try clear_value v3
  refine State.each_sound hv3 ?_
  intro a8 a9 ha8
  extract_lets -merge -useContext +onlyGivenNames v10
  try clear_value v10
  split
  · refine hv2 _ _ ?_
    exact State.setGroupX_sound ha8

theorem State.loopDrain_sound {q : List Instr} {s : State} (hs : Sound q s) :
    Sound q (State.loopDrain s) := by
  unfold State.loopDrain
  exact Sound.upd hs

theorem State.loopXbar_sound {q : List Instr} {s : State} (hs : Sound q s) :
    Sound q (State.loopXbar s) := by
  unfold State.loopXbar
  exact Sound.upd hs

end Sys2Proof.Machine
end

