-- ==== Sys2Proof/Laws/SoundSchOps.lean ====
section
/-!
SUPPORT. Every operation of Machine/SchOps.lean keeps the queue and the canonical forms of memory and registers.
-/

namespace Sys2Proof.Machine

theorem State.setTstate_sound {q : List Instr} {s : State} {t : ℕ} {st : ℕ} (hs : Sound q s) :
    Sound q (State.setTstate s t st) := by
  unfold State.setTstate
  exact State.wr_sound hs

theorem State.setCause_sound {q : List Instr} {s : State} {c : ℕ} {b : ℕ} {task : Option ℕ} (hs : Sound q s) :
    Sound q (State.setCause s c b task) := by
  unfold State.setCause
  extract_lets -merge -useContext +onlyGivenNames v1 v2 v3
  have hv1 : Sound q v1 := by
    unfold v1
    exact State.raise_sound hs
  try clear_value v1
  have hv2 : Sound q v2 := by
    unfold v2
    split
    · exact State.wr_sound hv1
    · exact hv1
  try clear_value v2
  try clear_value v3
  refine Sound.ite ?_ ?_
  · exact hv2
  · refine Sound.ite ?_ ?_
    · exact State.setCore_sound hv2
    · exact State.raise_sound hv2

theorem State.errorMoment_sound {q : List Instr} {s : State} {c : ℕ} (hs : Sound q s) :
    Sound q (State.errorMoment s c) := by
  unfold State.errorMoment
  refine Sound.ite ?_ ?_
  · refine State.bump_sound ?_
    exact State.setCore_sound hs
  · exact hs

theorem State.showDisp_sound {q : List Instr} {s : State} {c : ℕ} {t : ℕ} {kind : ℕ} {late : Bool} {late1 : Bool} (hs : Sound q s) :
    Sound q (State.showDisp s c t kind late late1) := by
  unfold State.showDisp
  refine State.wrb_sound ?_
  refine State.wrb_sound ?_
  refine State.wr_sound ?_
  exact State.wr_sound hs

theorem State.dispatch_sound {q : List Instr} {s : State} {c : ℕ} {t : ℕ} (hs : Sound q s) :
    Sound q (State.dispatch s c t) := by
  unfold State.dispatch
  extract_lets -merge -useContext +onlyGivenNames v1 v2 v3
  try clear_value v1
  have hv2 : Sound q v2 := by
    unfold v2
    refine State.setTask_sound ?_
    exact State.setTstate_sound hs
  try clear_value v2
  have hv3 : Sound q v3 := by
    unfold v3
    refine State.raise_sound ?_
    exact State.wr_sound hv2
  try clear_value v3
  exact State.showDisp_sound hv3

theorem State.dispatchError_sound {q : List Instr} {s : State} {c : ℕ} (hs : Sound q s) :
    Sound q (State.dispatchError s c) := by
  unfold State.dispatchError
  extract_lets -merge -useContext +onlyGivenNames v1 v2 v3
  have hv1 : Sound q v1 := by
    unfold v1
    refine State.raise_sound ?_
    exact State.clear_sound hs
  try clear_value v1
  try clear_value v2
  have hv3 : Sound q v3 := by
    unfold v3
    exact State.setCore_sound hv1
  try clear_value v3
  refine State.taken_sound ?_
  exact State.showDisp_sound hv3

theorem State.settle_sound {q : List Instr} {s : State} {c : ℕ} (hs : Sound q s) :
    Sound q (State.settle s c) := by
  unfold State.settle
  refine Sound.ite ?_ ?_
  · exact hs
  · refine Sound.ite ?_ ?_
    · extract_lets -merge -useContext +onlyGivenNames v1
      try clear_value v1
      split
      · refine Sound.ite ?_ ?_
        · refine State.dispatch_sound ?_
          refine State.bump_sound ?_
          exact State.setTstate_sound hs
        · exact hs
      · exact hs
    · refine Sound.ite ?_ ?_
      · exact State.dispatchError_sound hs
      · split
        · exact State.dispatch_sound hs
        · extract_lets -merge -useContext +onlyGivenNames v2
          have hv2 : Sound q v2 := by
            unfold v2
            exact State.errorMoment_sound hs
          try clear_value v2
          refine Sound.ite ?_ ?_
          · exact State.dispatchError_sound hv2
          · exact State.wr_sound hv2

theorem State.raiseCause_sound {q : List Instr} {s : State} {c : ℕ} {b : ℕ} {task : Option ℕ} (hs : Sound q s) :
    Sound q (State.raiseCause s c b task) := by
  unfold State.raiseCause
  refine State.settle_sound ?_
  exact State.setCause_sound hs

theorem State.leadStart_sound {q : List Instr} {s : State} {t : ℕ} {relInst : ℕ} (hs : Sound q s) :
    Sound q (State.leadStart s t relInst) := by
  unfold State.leadStart
  extract_lets -merge -useContext +onlyGivenNames v1 v2
  try clear_value v1
  have hv2 : Sound q v2 := by
    unfold v2
    refine State.setTask_sound ?_
    exact State.setTstate_sound hs
  try clear_value v2
  exact State.queueCopy_sound hv2

theorem State.dropLead_sound {q : List Instr} {s : State} {t : ℕ} (hs : Sound q s) :
    Sound q (State.dropLead s t) := by
  unfold State.dropLead
  refine Sound.ite ?_ ?_
  · refine State.setTstate_sound ?_
    exact State.dropCopy_sound hs
  · exact hs

theorem State.firstRelease_sound {q : List Instr} {s : State} (hs : Sound q s) :
    Sound q (State.firstRelease s) := by
  unfold State.firstRelease
  refine Sound.ite ?_ ?_
  · exact hs
  · extract_lets -merge -useContext +onlyGivenNames v1 v2
    try clear_value v1
    have hv2 : Sound q v2 := by
      unfold v2
      exact Sound.upd hs
    try clear_value v2
    exact State.wr_sound hv2

theorem State.noteRelease_sound {q : List Instr} {s : State} {t : ℕ} (hs : Sound q s) :
    Sound q (State.noteRelease s t) := by
  unfold State.noteRelease
  refine Sound.ite ?_ ?_
  · exact hs
  · exact Sound.upd hs

theorem State.makeRelease_sound {q : List Instr} {s : State} {t : ℕ} {late1 : Bool} (hs : Sound q s) :
    Sound q (State.makeRelease s t late1) := by
  unfold State.makeRelease
  extract_lets -merge -useContext +onlyGivenNames v1 v2 v3 v4 v5 v6
  try clear_value v1
  have hv2 : Sound q v2 := by
    unfold v2
    refine State.noteRelease_sound ?_
    refine State.wrap_sound ?_
    refine State.imgSample_sound ?_
    exact State.firstRelease_sound hs
  try clear_value v2
  try clear_value v3
  have hv4 : Sound q v4 := by
    unfold v4
    exact State.setTask_sound hv2
  try clear_value v4
  have hv5 : Sound q v5 := by
    unfold v5
    exact State.wrb_sound hv4
  try clear_value v5
  have hv6 : Sound q v6 := by
    unfold v6
    exact State.bump_sound hv5
  try clear_value v6
  refine Sound.ite ?_ ?_
  · refine State.settle_sound ?_
    refine State.setTstate_sound ?_
    exact State.imgFinish_sound hv5
  · refine Sound.ite ?_ ?_
    · refine Sound.ite ?_ ?_
      · refine State.settle_sound ?_
        refine State.errorMoment_sound ?_
        exact State.setCause_sound hv6
      · exact State.raiseCause_sound hv6
    · exact hv6

theorem State.releaseNow_sound {q : List Instr} {s : State} {t : ℕ} {late1 : Bool} (hs : Sound q s) :
    Sound q (State.releaseNow s t late1) := by
  unfold State.releaseNow
  refine State.makeRelease_sound ?_
  exact State.leadStart_sound hs

theorem State.copyDone_sound {q : List Instr} {s : State} {t : ℕ} (hs : Sound q s) :
    Sound q (State.copyDone s t) := by
  unfold State.copyDone
  extract_lets -merge -useContext +onlyGivenNames v1 v2
  try clear_value v1
  have hv2 : Sound q v2 := by
    unfold v2
    exact State.setTask_sound hs
  try clear_value v2
  refine Sound.ite ?_ ?_
  · refine State.settle_sound ?_
    refine State.setTstate_sound ?_
    exact State.imgFinish_sound hv2
  · exact hv2

theorem State.defer_sound {q : List Instr} {s : State} {t : ℕ} {n : ℕ} (hs : Sound q s) :
    Sound q (State.defer s t n) := by
  unfold State.defer
  exact State.bumpBy_sound hs

theorem State.armTask_sound {q : List Instr} {s : State} {t : ℕ} (hs : Sound q s) :
    Sound q (State.armTask s t) := by
  unfold State.armTask
  refine Sound.ite ?_ ?_
  · extract_lets -merge -useContext +onlyGivenNames v1 v2
    try clear_value v1
    have hv2 : Sound q v2 := by
      unfold v2
      exact State.setTask_sound hs
    try clear_value v2
    exact State.leadStart_sound hv2
  · exact State.setTask_sound hs

theorem State.freeTheCore_sound {q : List Instr} {s : State} {t : ℕ} (hs : Sound q s) :
    Sound q (State.freeTheCore s t) := by
  unfold State.freeTheCore
  extract_lets -merge -useContext +onlyGivenNames v1
  try clear_value v1
  refine Sound.ite ?_ ?_
  · exact State.clear_sound hs
  · exact hs

theorem State.leadAfterEnd_sound {q : List Instr} {s : State} {t : ℕ} (hs : Sound q s) :
    Sound q (State.leadAfterEnd s t) := by
  unfold State.leadAfterEnd
  extract_lets -merge -useContext +onlyGivenNames v1
  try clear_value v1
  refine Sound.ite ?_ ?_
  · exact hs
  · refine Sound.ite ?_ ?_
    · exact State.armTask_sound hs
    · refine Sound.ite ?_ ?_
      · exact State.leadStart_sound hs
      · exact hs

theorem State.iterEnd_sound {q : List Instr} {s : State} {t : ℕ} (hs : Sound q s) :
    Sound q (State.iterEnd s t) := by
  unfold State.iterEnd
  extract_lets -merge -useContext +onlyGivenNames v1 v2 v3 v4 v5 v6 v7 v8
  try clear_value v1
  try clear_value v2
  have hv3 : Sound q v3 := by
    unfold v3
    exact State.clear_sound hs
  try clear_value v3
  have hv4 : Sound q v4 := by
    unfold v4
    exact State.setTask_sound hv3
  try clear_value v4
  try clear_value v5
  have hv6 : Sound q v6 := by
    unfold v6
    exact State.setTstate_sound hv4
  try clear_value v6
  try clear_value v7
  have hv8 : Sound q v8 := by
    unfold v8
    refine Sound.ite ?_ ?_
    · exact State.setTask_sound hv6
    · exact hv6
  try clear_value v8
  refine Sound.ite ?_ ?_
  · refine State.setTask_sound ?_
    refine State.wr_sound ?_
    exact State.setTstate_sound hv4
  · refine Sound.ite ?_ ?_
    · refine Sound.ite ?_ ?_
      · exact State.defer_sound hv8
      · refine State.releaseNow_sound ?_
        exact State.bump_sound hv8
    · exact State.leadAfterEnd_sound hv8

theorem State.handoverHeld_sound {q : List Instr} {s : State} (hs : Sound q s) :
    Sound q (State.handoverHeld s) := by
  unfold State.handoverHeld
  refine Sound.ite ?_ ?_
  · exact Sound.upd hs
  · exact hs

theorem State.checkHeld_sound {q : List Instr} {s : State} (hs : Sound q s) :
    Sound q (State.checkHeld s) := by
  unfold State.checkHeld
  refine Sound.ite ?_ ?_
  · extract_lets -merge -useContext +onlyGivenNames v1 v2 v3 v4
    try clear_value v1
    have hv2 : Sound q v2 := by
      unfold v2
      exact Sound.upd hs
    try clear_value v2
    try clear_value v3
    have hv4 : Sound q v4 := by
      unfold v4
      refine Sound.ite ?_ ?_
      · exact Sound.upd hv2
      · exact hv2
    try clear_value v4
    refine State.handoverHeld_sound ?_
    refine State.raise_sound ?_
    exact State.wr_sound hv4
  · exact hs

theorem State.commitDone_sound {q : List Instr} {s : State} {t : ℕ} (hs : Sound q s) :
    Sound q (State.commitDone s t) := by
  unfold State.commitDone
  extract_lets -merge -useContext +onlyGivenNames v1 v2 v3 v4 v5 v6 v7 v8 v9
  try clear_value v1
  try clear_value v2
  have hv3 : Sound q v3 := by
    unfold v3
    exact State.wr_sound hs
  try clear_value v3
  try clear_value v4
  have hv5 : Sound q v5 := by
    unfold v5
    exact State.wr_sound hv3
  try clear_value v5
  have hv6 : Sound q v6 := by
    unfold v6
    exact State.wr_sound hv5
  try clear_value v6
  try clear_value v7
  have hv8 : Sound q v8 := by
    unfold v8
    exact State.wr_sound hv6
  try clear_value v8
  have hv9 : Sound q v9 := by
    unfold v9
    exact State.errorMoment_sound hv8
  try clear_value v9
  refine State.checkHeld_sound ?_
  refine State.settle_sound ?_
  exact State.iterEnd_sound hv9

theorem State.abortIter_sound {q : List Instr} {s : State} {t : ℕ} {cause : ℕ} (hs : Sound q s) :
    Sound q (State.abortIter s t cause) := by
  unfold State.abortIter
  extract_lets -merge -useContext +onlyGivenNames v1 v2 v3
  try clear_value v1
  have hv2 : Sound q v2 := by
    unfold v2
    refine State.bump_sound ?_
    refine State.freeTheCore_sound ?_
    exact State.dropCopy_sound hs
  try clear_value v2
  have hv3 : Sound q v3 := by
    unfold v3
    refine State.errorMoment_sound ?_
    exact State.setCause_sound hv2
  try clear_value v3
  refine State.checkHeld_sound ?_
  refine State.settle_sound ?_
  exact State.iterEnd_sound hv3

theorem State.limitStop_sound {q : List Instr} {s : State} {t : ℕ} (hs : Sound q s) :
    Sound q (State.limitStop s t) := by
  unfold State.limitStop
  extract_lets -merge -useContext +onlyGivenNames v1 v2 v3 v4 v5 v6
  try clear_value v1
  have hv2 : Sound q v2 := by
    unfold v2
    refine State.bump_sound ?_
    refine State.freeTheCore_sound ?_
    exact State.dropCopy_sound hs
  try clear_value v2
  try clear_value v3
  have hv4 : Sound q v4 := by
    unfold v4
    refine State.setTask_sound ?_
    exact State.clear_sound hv2
  try clear_value v4
  have hv5 : Sound q v5 := by
    unfold v5
    refine State.wr_sound ?_
    exact State.setTstate_sound hv4
  try clear_value v5
  have hv6 : Sound q v6 := by
    unfold v6
    refine State.errorMoment_sound ?_
    refine State.raise_sound ?_
    exact State.setCause_sound hv5
  try clear_value v6
  refine State.checkHeld_sound ?_
  exact State.settle_sound hv6

theorem State.overrun_sound {q : List Instr} {s : State} {t : ℕ} (hs : Sound q s) :
    Sound q (State.overrun s t) := by
  unfold State.overrun
  extract_lets -merge -useContext +onlyGivenNames v1 v2 v3 v4 v5 v6 v7
  try clear_value v1
  have hv2 : Sound q v2 := by
    unfold v2
    exact State.bump_sound hs
  try clear_value v2
  try clear_value v3
  have hv4 : Sound q v4 := by
    unfold v4
    refine Sound.ite ?_ ?_
    · exact State.wr_sound hv2
    · refine State.taken_sound ?_
      exact State.wr_sound hv2
  try clear_value v4
  have hv5 : Sound q v5 := by
    unfold v5
    refine Sound.ite ?_ ?_
    · exact State.setCause_sound hv4
    · exact hv4
  try clear_value v5
  have hv6 : Sound q v6 := by
    unfold v6
    refine Sound.ite ?_ ?_
    · exact State.bump_sound hv5
    · refine Sound.ite ?_ ?_
      · exact hv5
      · exact State.raise_sound hv5
  try clear_value v6
  try clear_value v7
  refine Sound.ite ?_ ?_
  · exact State.limitStop_sound hv6
  · exact State.settle_sound hv6

theorem State.dropLeads_sound {q : List Instr} {s : State} (hs : Sound q s) :
    Sound q (State.dropLeads s) := by
  unfold State.dropLeads
  refine State.each_sound hs ?_
  intro a1 a2 ha1
  exact State.dropLead_sound ha1

theorem State.beginHold_sound {q : List Instr} {s : State} {src : ℕ} (hs : Sound q s) :
    Sound q (State.beginHold s src) := by
  unfold State.beginHold
  extract_lets -merge -useContext +onlyGivenNames v1 v2 v3 v4 v5
  try clear_value v1
  try clear_value v2
  have hv3 : Sound q v3 := by
    unfold v3
    refine State.dropLeads_sound ?_
    exact State.wr_sound hs
  try clear_value v3
  try clear_value v4
  have hv5 : Sound q v5 := by
    unfold v5
    exact Sound.upd hv3
  try clear_value v5
  refine Sound.ite ?_ ?_
  · exact hv3
  · refine State.checkHeld_sound ?_
    exact State.wr_sound hv5

theorem State.switchoverOff_sound {q : List Instr} {s : State} (hs : Sound q s) :
    Sound q (State.switchoverOff s) := by
  unfold State.switchoverOff
  refine Sound.ite ?_ ?_
  · refine State.raise_sound ?_
    refine State.wr_sound ?_
    refine State.clear_sound ?_
    exact State.clear_sound hs
  · exact hs

theorem State.unstageBays_sound {q : List Instr} {s : State} (hs : Sound q s) :
    Sound q (State.unstageBays s) := by
  unfold State.unstageBays
  refine State.wr_sound ?_
  exact State.wr_sound hs

theorem State.brakeHandover_sound {q : List Instr} {s : State} (hs : Sound q s) :
    Sound q (State.brakeHandover s) := by
  unfold State.brakeHandover
  extract_lets -merge -useContext +onlyGivenNames v1 v2 v3 v4
  try clear_value v1
  try clear_value v2
  have hv3 : Sound q v3 := by
    unfold v3
    exact Sound.upd hs
  try clear_value v3
  try clear_value v4
  refine Sound.ite ?_ ?_
  · refine State.bump_sound ?_
    refine State.raise_sound ?_
    refine State.wr_sound ?_
    exact State.unstageBays_sound hv3
  · refine Sound.ite ?_ ?_
    · exact Sound.upd hs
    · exact hs

theorem State.brakeHold_sound {q : List Instr} {s : State} (hs : Sound q s) :
    Sound q (State.brakeHold s) := by
  unfold State.brakeHold
  extract_lets -merge -useContext +onlyGivenNames v1 v2
  try clear_value v1
  have hv2 : Sound q v2 := by
    unfold v2
    refine Sound.ite ?_ ?_
    · refine State.switchoverOff_sound ?_
      refine State.raise_sound ?_
      exact State.clear_sound hs
    · exact hs
  try clear_value v2
  refine State.beginHold_sound ?_
  exact State.brakeHandover_sound hv2

theorem State.resumeTask_sound {q : List Instr} {s : State} {t : ℕ} (hs : Sound q s) :
    Sound q (State.resumeTask s t) := by
  unfold State.resumeTask
  extract_lets -merge -useContext +onlyGivenNames v1 v2 v3 v4 v5 v6
  try clear_value v1
  try clear_value v2
  have hv3 : Sound q v3 := by
    unfold v3
    refine Sound.ite ?_ ?_
    · exact State.defer_sound hs
    · exact hs
  try clear_value v3
  try clear_value v4
  have hv5 : Sound q v5 := by
    unfold v5
    refine Sound.ite ?_ ?_
    · exact State.defer_sound hs
    · exact hs
  try clear_value v5
  try clear_value v6
  refine Sound.ite ?_ ?_
  · exact hs
  · refine Sound.ite ?_ ?_
    · refine Sound.ite ?_ ?_
      · exact hs
      · exact State.armTask_sound hv3
    · exact State.setTask_sound hv5

theorem State.endHold_sound {q : List Instr} {s : State} (hs : Sound q s) :
    Sound q (State.endHold s) := by
  unfold State.endHold
  extract_lets -merge -useContext +onlyGivenNames v1 v2 v3 v4 v5
  try clear_value v1
  have hv2 : Sound q v2 := by
    unfold v2
    exact Sound.upd hs
  try clear_value v2
  have hv3 : Sound q v3 := by
    unfold v3
    refine State.wr_sound ?_
    exact State.wr_sound hv2
  try clear_value v3
  have hv4 : Sound q v4 := by
    unfold v4
    refine Sound.ite ?_ ?_
    · refine State.each_sound hv3 ?_
      intro a6 a7 ha6
      exact State.resumeTask_sound ha6
    · exact hv3
  try clear_value v4
  have hv5 : Sound q v5 := by
    unfold v5
    refine State.each_sound hv4 ?_
    intro a8 a9 ha8
    exact State.setCause_sound ha8
  try clear_value v5
  refine State.loopHoldEnd_sound ?_
  refine State.each_sound hv5 ?_
  intro a10 a11 ha10
  exact State.settle_sound ha10

theorem State.dropWindow_sound {q : List Instr} {s : State} (hs : Sound q s) :
    Sound q (State.dropWindow s) := by
  unfold State.dropWindow
  exact Sound.upd hs

theorem State.setMt_sound {q : List Instr} {s : State} {mt : ℕ} (hs : Sound q s) :
    Sound q (State.setMt s mt) := by
  unfold State.setMt
  refine State.dropWindow_sound ?_
  exact Sound.upd hs

theorem State.stepTask_sound {q : List Instr} {s : State} {old : ℕ} {t : ℕ} (hs : Sound q s) :
    Sound q (State.stepTask s old t) := by
  unfold State.stepTask
  extract_lets -merge -useContext +onlyGivenNames v1 v2 v3 v4 v5
  try clear_value v1
  try clear_value v2
  try clear_value v3
  try clear_value v4
  have hv5 : Sound q v5 := by
    unfold v5
    refine State.setTask_sound ?_
    refine State.defer_sound ?_
    exact State.dropLead_sound hs
  try clear_value v5
  refine Sound.ite ?_ ?_
  · exact hs
  · refine Sound.ite ?_ ?_
    · refine Sound.ite ?_ ?_
      · exact hs
      · refine Sound.ite ?_ ?_
        · exact State.leadAfterEnd_sound hv5
        · exact hv5
    · refine Sound.ite ?_ ?_
      · exact hs
      · exact State.setTask_sound hs

theorem State.mtrMtStep_sound {q : List Instr} {s : State} (hs : Sound q s) :
    Sound q (State.mtrMtStep s) := by
  unfold State.mtrMtStep
  refine Sound.ite ?_ ?_
  · exact Sound.upd hs
  · exact hs

theorem State.mtStep_sound {q : List Instr} {s : State} {mt : ℕ} (hs : Sound q s) :
    Sound q (State.mtStep s mt) := by
  unfold State.mtStep
  extract_lets -merge -useContext +onlyGivenNames v1 v2 v3 v4
  try clear_value v1
  have hv2 : Sound q v2 := by
    unfold v2
    refine State.dropWindow_sound ?_
    exact Sound.upd hs
  try clear_value v2
  have hv3 : Sound q v3 := by
    unfold v3
    refine State.each_sound hv2 ?_
    intro a5 a6 ha5
    exact State.stepTask_sound ha5
  try clear_value v3
  have hv4 : Sound q v4 := by
    unfold v4
    refine State.each_sound hv3 ?_
    intro a7 a8 ha7
    exact State.setCause_sound ha7
  try clear_value v4
  refine State.mtrMtStep_sound ?_
  refine State.loopMtStep_sound ?_
  refine State.raise_sound ?_
  refine State.each_sound hv4 ?_
  intro a9 a10 ha9
  exact State.settle_sound ha9

theorem State.syncTasks_sound {q : List Instr} {s : State} {t : ℕ} (hs : Sound q s) :
    Sound q (State.syncTasks s t) := by
  unfold State.syncTasks
  extract_lets -merge -useContext +onlyGivenNames v1
  have hv1 : Sound q v1 := by
    unfold v1
    refine State.each_sound hs ?_
    intro a2 a3 ha2
    exact State.wr_sound ha2
  try clear_value v1
  refine Sound.ite ?_ ?_
  · exact State.setTstate_sound hv1
  · refine Sound.ite ?_ ?_
    · refine State.setTask_sound ?_
      exact State.setTstate_sound hv1
    · exact hv1

theorem State.schStart_sound {q : List Instr} {s : State} (hs : Sound q s) :
    Sound q (State.schStart s) := by
  unfold State.schStart
  extract_lets -merge -useContext +onlyGivenNames v1
  have hv1 : Sound q v1 := by
    unfold v1
    refine State.each_sound hs ?_
    intro a2 a3 ha2
    exact State.armTask_sound ha2
  try clear_value v1
  refine State.each_sound hv1 ?_
  intro a4 a5 ha4
  extract_lets -merge -useContext +onlyGivenNames v6 v7
  try clear_value v6
  have hv7 : Sound q v7 := by
    unfold v7
    refine Sound.ite ?_ ?_
    · exact ha4
    · refine Sound.ite ?_ ?_
      · exact State.setCore_sound ha4
      · exact State.raise_sound ha4
  try clear_value v7
  exact State.settle_sound hv7

theorem State.schDrain_sound {q : List Instr} {s : State} (hs : Sound q s) :
    Sound q (State.schDrain s) := by
  unfold State.schDrain
  extract_lets -merge -useContext +onlyGivenNames v1 v2
  try clear_value v1
  have hv2 : Sound q v2 := by
    unfold v2
    exact Sound.upd hs
  try clear_value v2
  exact State.dropLeads_sound hv2

theorem State.schOff_sound {q : List Instr} {s : State} (hs : Sound q s) :
    Sound q (State.schOff s) := by
  unfold State.schOff
  extract_lets -merge -useContext +onlyGivenNames v1 v2 v3
  try clear_value v1
  have hv2 : Sound q v2 := by
    unfold v2
    exact Sound.upd hs
  try clear_value v2
  have hv3 : Sound q v3 := by
    unfold v3
    refine State.each_sound hv2 ?_
    intro a4 a5 ha4
    exact State.setTask_sound ha4
  try clear_value v3
  refine State.each_sound hv3 ?_
  intro a6 a7 ha6
  refine State.setCore_sound ?_
  exact State.clear_sound ha6

end Sys2Proof.Machine
end

