-- ==== Sys2Proof/Laws/SoundStnOps.lean ====
section
/-!
SUPPORT. Every operation of Machine/StnOps.lean keeps the queue and the canonical forms of memory and registers.
-/

namespace Sys2Proof.Machine

theorem State.setStn_sound {q : List Instr} {s : State} {n : ℕ} {x2 : Stn} (hs : Sound q s) :
    Sound q (State.setStn s n x2) := by
  unfold State.setStn
  exact Sound.upd hs

theorem State.stnPut_sound {q : List Instr} {s : State} {n : ℕ} {pdus : List (List Byte)} (hs : Sound q s) :
    Sound q (State.stnPut s n pdus) := by
  unfold State.stnPut
  refine Sound.ite ?_ ?_
  · refine State.each_sound hs ?_
    intro a1 a2 ha1
    exact State.leatSend_sound ha1
  · exact State.canStation_sound hs

theorem State.sendOut_sound {q : List Instr} {s : State} {n : ℕ} {fresh : Bool} (hs : Sound q s) :
    Sound q (State.sendOut s n fresh) := by
  unfold State.sendOut
  extract_lets -merge -useContext +onlyGivenNames v1 v2 v3 v4 v5
  try clear_value v1
  try clear_value v2
  have hv3 : Sound q v3 := by
    unfold v3
    exact State.setStn_sound hs
  try clear_value v3
  try clear_value v4
  have hv5 : Sound q v5 := by
    unfold v5
    exact State.setStn_sound hv3
  try clear_value v5
  refine Sound.ite ?_ ?_
  · exact State.stnPut_sound hv5
  · exact hv3

theorem State.putCtrl_sound {q : List Instr} {s : State} {n : ℕ} {code : ℕ} (hs : Sound q s) :
    Sound q (State.putCtrl s n code) := by
  unfold State.putCtrl
  extract_lets -merge -useContext +onlyGivenNames v1
  try clear_value v1
  refine State.stnPut_sound ?_
  exact State.taken_sound hs

theorem State.sendProbe_sound {q : List Instr} {s : State} {n : ℕ} (hs : Sound q s) :
    Sound q (State.sendProbe s n) := by
  unfold State.sendProbe
  refine Sound.ite ?_ ?_
  · exact State.putCtrl_sound hs
  · exact State.setStn_sound hs

theorem State.sendSafe_sound {q : List Instr} {s : State} {n : ℕ} (hs : Sound q s) :
    Sound q (State.sendSafe s n) := by
  unfold State.sendSafe
  refine Sound.ite ?_ ?_
  · exact State.putCtrl_sound hs
  · exact hs

theorem State.openGate_sound {q : List Instr} {s : State} (hs : Sound q s) :
    Sound q (State.openGate s) := by
  unfold State.openGate
  extract_lets -merge -useContext +onlyGivenNames v1
  have hv1 : Sound q v1 := by
    unfold v1
    exact State.raise_sound hs
  try clear_value v1
  refine State.each_sound hv1 ?_
  intro a2 a3 ha2
  refine State.putCtrl_sound ?_
  exact State.setStn_sound ha2

theorem State.closeGate_sound {q : List Instr} {s : State} (hs : Sound q s) :
    Sound q (State.closeGate s) := by
  unfold State.closeGate
  exact State.clear_sound hs

theorem State.stnEvent_sound {q : List Instr} {s : State} {code : ℕ} {n : ℕ} (hs : Sound q s) :
    Sound q (State.stnEvent s code n) := by
  unfold State.stnEvent
  exact State.event_sound hs

theorem State.raiseStation_sound {q : List Instr} {s : State} {n : ℕ} (hs : Sound q s) :
    Sound q (State.raiseStation s n) := by
  unfold State.raiseStation
  refine State.each_sound hs ?_
  intro a1 a2 ha1
  exact State.raiseCause_sound ha1

theorem State.stnBegin_sound {q : List Instr} {s : State} {n : ℕ} (hs : Sound q s) :
    Sound q (State.stnBegin s n) := by
  unfold State.stnBegin
  refine Sound.ite ?_ ?_
  · extract_lets -merge -useContext +onlyGivenNames v1 v2
    try clear_value v1
    have hv2 : Sound q v2 := by
      unfold v2
      exact State.setStn_sound hs
    try clear_value v2
    refine State.sendProbe_sound ?_
    exact State.wr_sound hv2
  · exact hs

theorem State.stnEnd_sound {q : List Instr} {s : State} {n : ℕ} (hs : Sound q s) :
    Sound q (State.stnEnd s n) := by
  unfold State.stnEnd
  extract_lets -merge -useContext +onlyGivenNames v1 v2 v3
  try clear_value v1
  have hv2 : Sound q v2 := by
    unfold v2
    refine Sound.ite ?_ ?_
    · exact State.sendSafe_sound hs
    · exact hs
  try clear_value v2
  try clear_value v3
  refine Sound.ite ?_ ?_
  · exact hs
  · refine State.setStn_sound ?_
    exact State.wr_sound hv2

theorem State.dropout_sound {q : List Instr} {s : State} {n : ℕ} {cause : ℕ} (hs : Sound q s) :
    Sound q (State.dropout s n cause) := by
  unfold State.dropout
  refine Sound.ite ?_ ?_
  · extract_lets -merge -useContext +onlyGivenNames v1 v2
    have hv1 : Sound q v1 := by
      unfold v1
      refine State.wr_sound ?_
      exact State.wr_sound hs
    try clear_value v1
    have hv2 : Sound q v2 := by
      unfold v2
      refine State.raise_sound ?_
      exact State.bump_sound hv1
    try clear_value v2
    refine State.stnEvent_sound ?_
    exact State.raiseStation_sound hv2
  · exact hs

theorem State.rearm_sound {q : List Instr} {s : State} {n : ℕ} (hs : Sound q s) :
    Sound q (State.rearm s n) := by
  unfold State.rearm
  refine Sound.ite ?_ ?_
  · refine State.stnEvent_sound ?_
    exact State.wr_sound hs
  · exact hs

theorem State.inState_sound {q : List Instr} {s : State} {n : ℕ} (hs : Sound q s) :
    Sound q (State.inState s n) := by
  unfold State.inState
  extract_lets -merge -useContext +onlyGivenNames v1 v2 v3
  try clear_value v1
  have hv2 : Sound q v2 := by
    unfold v2
    refine State.raise_sound ?_
    exact State.wr_sound hs
  try clear_value v2
  have hv3 : Sound q v3 := by
    unfold v3
    refine State.stnEvent_sound ?_
    exact State.raiseStation_sound hv2
  try clear_value v3
  refine Sound.ite ?_ ?_
  · refine State.stnEvent_sound ?_
    refine State.raise_sound ?_
    exact State.wr_sound hs
  · refine Sound.ite ?_ ?_
    · refine Sound.ite ?_ ?_
      · exact State.rearm_sound hv3
      · exact hv3
    · exact hs

theorem State.badPdu_sound {q : List Instr} {s : State} {n : ℕ} (hs : Sound q s) :
    Sound q (State.badPdu s n) := by
  unfold State.badPdu
  extract_lets -merge -useContext +onlyGivenNames v1 v2
  have hv1 : Sound q v1 := by
    unfold v1
    refine State.raise_sound ?_
    exact State.bump_sound hs
  try clear_value v1
  try clear_value v2
  refine Sound.ite ?_ ?_
  · refine State.stnEvent_sound ?_
    exact State.setStn_sound hv1
  · exact hv1

theorem State.seeEpoch_sound {q : List Instr} {s : State} {n : ℕ} {e : ℕ} (hs : Sound q s) :
    Sound q (State.seeEpoch s n e) := by
  unfold State.seeEpoch
  exact State.wr_sound hs

theorem State.acceptBlock_sound {q : List Instr} {s : State} {n : ℕ} {seq : ℕ} {blk : List Byte} (hs : Sound q s) :
    Sound q (State.acceptBlock s n seq blk) := by
  unfold State.acceptBlock
  extract_lets -merge -useContext +onlyGivenNames v1 v2 v3
  try clear_value v1
  try clear_value v2
  have hv3 : Sound q v3 := by
    unfold v3
    exact State.setStn_sound hs
  try clear_value v3
  refine State.inState_sound ?_
  exact State.wr_sound hv3

theorem State.inSegment_sound {q : List Instr} {s : State} {n : ℕ} {pdu : List Byte} (hs : Sound q s) :
    Sound q (State.inSegment s n pdu) := by
  unfold State.inSegment
  extract_lets -merge -useContext +onlyGivenNames v1 v2 v3 v4 v5 v6 v7 v8 v9 v10 v11
  try clear_value v1
  try clear_value v2
  try clear_value v3
  try clear_value v4
  try clear_value v5
  try clear_value v6
  have hv7 : Sound q v7 := by
    unfold v7
    refine Sound.ite ?_ ?_
    · exact State.badPdu_sound hs
    · exact hs
  try clear_value v7
  try clear_value v8
  try clear_value v9
  try clear_value v10
  try clear_value v11
  refine Sound.ite ?_ ?_
  · exact State.badPdu_sound hs
  · refine Sound.ite ?_ ?_
    · refine State.badPdu_sound ?_
      exact State.setStn_sound hv7
    · refine Sound.ite ?_ ?_
      · refine State.acceptBlock_sound ?_
        refine State.seeEpoch_sound ?_
        exact State.setStn_sound hv7
      · exact State.setStn_sound hv7

theorem State.takeStnPdu_sound {q : List Instr} {s : State} {n : ℕ} {pdu : List Byte} (hs : Sound q s) :
    Sound q (State.takeStnPdu s n pdu) := by
  unfold State.takeStnPdu
  refine Sound.ite ?_ ?_
  · exact State.takeInbox_sound hs
  · extract_lets -merge -useContext +onlyGivenNames v1 v2
    try clear_value v1
    try clear_value v2
    split
    · exact State.setCan_sound hs
    · exact hs

theorem State.markMirrors_sound {q : List Instr} {s : State} {n : ℕ} {undeliv : Bool} (hs : Sound q s) :
    Sound q (State.markMirrors s n undeliv) := by
  unfold State.markMirrors
  refine State.each_sound hs ?_
  intro a1 a2 ha1
  extract_lets -merge -useContext +onlyGivenNames v3 v4
  try clear_value v3
  try clear_value v4
  refine Sound.ite ?_ ?_
  · exact ha1
  · exact State.ownWrite_sound ha1

theorem State.setOut_sound {q : List Instr} {s : State} {n : ℕ} {ofs : ℕ} {bs : List Byte} (hs : Sound q s) :
    Sound q (State.setOut s n ofs bs) := by
  unfold State.setOut
  exact State.setStn_sound hs

theorem State.commitBlock_sound {q : List Instr} {s : State} {n : ℕ} (hs : Sound q s) :
    Sound q (State.commitBlock s n) := by
  unfold State.commitBlock
  refine Sound.ite ?_ ?_
  · refine State.sendOut_sound ?_
    refine State.markMirrors_sound ?_
    exact State.clear_sound hs
  · refine State.markMirrors_sound ?_
    exact State.raise_sound hs

theorem State.forcedBlock_sound {q : List Instr} {s : State} {n : ℕ} (hs : Sound q s) :
    Sound q (State.forcedBlock s n) := by
  unfold State.forcedBlock
  refine Sound.ite ?_ ?_
  · refine Sound.ite ?_ ?_
    · exact hs
    · exact State.sendOut_sound hs
  · refine State.markMirrors_sound ?_
    exact State.raise_sound hs

theorem State.unreach_sound {q : List Instr} {s : State} {p : ℕ → Bool} (hs : Sound q s) :
    Sound q (State.unreach s p) := by
  unfold State.unreach
  refine State.each_sound hs ?_
  intro a1 a2 ha1
  exact State.dropout_sound ha1

theorem State.canUnreach_sound {q : List Instr} {s : State} {c : ℕ} (hs : Sound q s) :
    Sound q (State.canUnreach s c) := by
  unfold State.canUnreach
  exact State.unreach_sound hs

theorem State.fabUnreach_sound {q : List Instr} {s : State} (hs : Sound q s) :
    Sound q (State.fabUnreach s) := by
  unfold State.fabUnreach
  exact State.unreach_sound hs

end Sys2Proof.Machine
end

