-- ==== Sys2Proof/Laws/SoundHopOps.lean ====
section
/-!
SUPPORT. Every operation of Machine/HopOps.lean keeps the queue and the canonical forms of memory and registers.
-/

namespace Sys2Proof.Machine

theorem State.setOutEntry_sound {q : List Instr} {s : State} {e : ℕ} {x2 : HopOut} (hs : Sound q s) :
    Sound q (State.setOutEntry s e x2) := by
  unfold State.setOutEntry
  exact Sound.upd hs

theorem State.changeOut_sound {q : List Instr} {s : State} {e : ℕ} {x2 : HopOut} (hs : Sound q s) :
    Sound q (State.changeOut s e x2) := by
  unfold State.changeOut
  extract_lets -merge -useContext +onlyGivenNames v1
  have hv1 : Sound q v1 := by
    unfold v1
    exact State.setOutEntry_sound hs
  try clear_value v1
  exact State.queueBatch_sound hv1

theorem State.sendPoint_sound {q : List Instr} {s : State} {kind : ℕ} {node : ℕ} {items : List (List Byte)} (hs : Sound q s) :
    Sound q (State.sendPoint s kind node items) := by
  unfold State.sendPoint
  refine State.each_sound hs ?_
  intro a1 a2 ha1
  exact State.leatSend_sound ha1

theorem State.sendSub_sound {q : List Instr} {s : State} {e : ℕ} {dump : Bool} (hs : Sound q s) :
    Sound q (State.sendSub s e dump) := by
  unfold State.sendSub
  extract_lets -merge -useContext +onlyGivenNames v1 v2 v3
  try clear_value v1
  have hv2 : Sound q v2 := by
    unfold v2
    exact State.setRange_sound hs
  try clear_value v2
  try clear_value v3
  refine Sound.ite ?_ ?_
  · refine Sound.ite ?_ ?_
    · exact hv2
    · refine State.event_sound ?_
      exact State.setRange_sound hv2
  · exact State.sendPoint_sound hv2

theorem State.rangeLive_sound {q : List Instr} {s : State} {e : ℕ} (hs : Sound q s) :
    Sound q (State.rangeLive s e) := by
  unfold State.rangeLive
  extract_lets -merge -useContext +onlyGivenNames v1 v2
  try clear_value v1
  have hv2 : Sound q v2 := by
    unfold v2
    exact State.setRange_sound hs
  try clear_value v2
  refine Sound.ite ?_ ?_
  · exact hv2
  · exact State.event_sound hv2

theorem State.rangeStale_sound {q : List Instr} {s : State} {e : ℕ} (hs : Sound q s) :
    Sound q (State.rangeStale s e) := by
  unfold State.rangeStale
  extract_lets -merge -useContext +onlyGivenNames v1 v2
  try clear_value v1
  have hv2 : Sound q v2 := by
    unfold v2
    refine State.raise_sound ?_
    exact State.setRange_sound hs
  try clear_value v2
  refine State.sendSub_sound ?_
  exact State.event_sound hv2

theorem State.producersLost_sound {q : List Instr} {s : State} {nodes : List ℕ} (hs : Sound q s) :
    Sound q (State.producersLost s nodes) := by
  unfold State.producersLost
  refine Sound.ite ?_ ?_
  · refine State.each_sound hs ?_
    intro a1 a2 ha1
    exact State.rangeStale_sound ha1
  · exact hs

theorem State.pushItem_sound {q : List Instr} {s : State} {i : ℕ} (hs : Sound q s) :
    Sound q ((State.pushItem s i)).2 := by
  unfold State.pushItem
  extract_lets -merge -useContext +onlyGivenNames v1 v2 v3
  have hv1 : Sound q (v1).st := by
    unfold v1
    exact State.fetch_sound hs
  try clear_value v1
  try clear_value v2
  try clear_value v3
  try dsimp -zeta only
  exact hv1

theorem State.pushTo_sound {q : List Instr} {s : State} {node : ℕ} {idx : List ℕ} (hs : Sound q s) :
    Sound q (State.pushTo s node idx) := by
  unfold State.pushTo
  refine State.each_sound hs ?_
  intro a1 a2 ha1
  split
  · rename_i p3 p4 e5
    have hp4 : Sound q p4 := by
      refine Sound.ofSnd e5 ?_
      refine foldl_keep (P := fun (x : List (List Byte) × State) => Sound q (x).2) ?_ ?_
      · intro a6 a7 ha6
        beta_reduce at *
        split
        · rename_i p8 p9 e10
          have hp9 : Sound q p9 := by
            refine Sound.ofSnd e10 ?_
            exact State.pushItem_sound ha6
          try dsimp -zeta only
          exact hp9
      · try dsimp -zeta only
        exact ha1
    refine Sound.ite ?_ ?_
    · exact hp4
    · split
      · rename_i p11 p12 e13
        have hp12 : Sound q p12 := by
          refine Sound.ofSnd e13 ?_
          exact State.leatSend_sound hp4
        refine Sound.ite ?_ ?_
        · exact State.bumpBy_sound hp12
        · exact hp12

theorem State.pushRange_sound {q : List Instr} {s : State} {x1 : HopOut} (hs : Sound q s) :
    Sound q (State.pushRange s x1) := by
  unfold State.pushRange
  exact State.pushTo_sound hs

theorem State.pushPending_sound {q : List Instr} {s : State} {n : ℕ} (hs : Sound q s) :
    Sound q (State.pushPending s n) := by
  unfold State.pushPending
  extract_lets -merge -useContext +onlyGivenNames v1 v2
  try clear_value v1
  have hv2 : Sound q v2 := by
    unfold v2
    refine State.each_sound hs ?_
    intro a3 a4 ha3
    extract_lets -merge -useContext +onlyGivenNames v5
    try clear_value v5
    exact State.pushTo_sound ha3
  try clear_value v2
  refine State.each_sound hv2 ?_
  intro a6 a7 ha6
  exact Sound.upd ha6

theorem State.subItem_sound {q : List Instr} {s : State} {src : ℕ} {it : List Byte} (hs : Sound q s) :
    Sound q (((State.subItem s src it)).2).2 := by
  unfold State.subItem
  extract_lets -merge -useContext +onlyGivenNames v1 v2 v3 v4 v5
  try clear_value v1
  try clear_value v2
  try clear_value v3
  try clear_value v4
  try clear_value v5
  split
  · try dsimp -zeta only
    try dsimp -zeta only
    exact hs
  · split
    · try dsimp -zeta only
      try dsimp -zeta only
      exact hs
    · split
      · try dsimp -zeta only
        try dsimp -zeta only
        exact State.event_sound hs
      · extract_lets -merge -useContext +onlyGivenNames v6 v7 v8
        try clear_value v6
        try clear_value v7
        have hv8 : Sound q v8 := by
          unfold v8
          exact State.changeOut_sound hs
        try clear_value v8
        try dsimp -zeta only
        try dsimp -zeta only
        exact hv8

theorem State.subIn_sound {q : List Instr} {s : State} {src : ℕ} {items : List (List Byte)} (hs : Sound q s) :
    Sound q (State.subIn s src items) := by
  unfold State.subIn
  split
  · rename_i p1 p2 p3 e4
    have hp3 : Sound q p3 := by
      refine Sound.ofSnd2 e4 ?_
      refine foldl_keep (P := fun (x : List (List Byte) × List ℕ × State) => Sound q ((x).2).2) ?_ ?_
      · intro a5 a6 ha5
        beta_reduce at *
        split
        · rename_i p7 p8 p9 e10
          have hp9 : Sound q p9 := by
            refine Sound.ofSnd2 e10 ?_
            refine State.subItem_sound ?_
            exact ha5
          try dsimp -zeta only
          try dsimp -zeta only
          exact hp9
      · try dsimp -zeta only
        try dsimp -zeta only
        exact hs
    extract_lets -merge -useContext +onlyGivenNames v11
    have hv11 : Sound q v11 := by
      unfold v11
      refine Sound.ite ?_ ?_
      · exact hp3
      · exact State.sendPoint_sound hp3
    try clear_value v11
    refine State.each_sound hv11 ?_
    intro a12 a13 ha12
    exact State.pushRange_sound ha12

theorem State.unsubIn_sound {q : List Instr} {s : State} {src : ℕ} {items : List (List Byte)} (hs : Sound q s) :
    Sound q (State.unsubIn s src items) := by
  unfold State.unsubIn
  refine State.each_sound hs ?_
  intro a1 a2 ha1
  split
  · exact State.changeOut_sound ha1
  · exact ha1

theorem State.fetchIn_sound {q : List Instr} {s : State} {src : ℕ} {items : List (List Byte)} (hs : Sound q s) :
    Sound q (State.fetchIn s src items) := by
  unfold State.fetchIn
  refine State.each_sound hs ?_
  intro a1 a2 ha1
  extract_lets -merge -useContext +onlyGivenNames v3
  try clear_value v3
  exact State.pushTo_sound ha1

theorem State.subackIn_sound {q : List Instr} {s : State} {src : ℕ} {pinc : ℕ} {items : List (List Byte)} (hs : Sound q s) :
    Sound q (State.subackIn s src pinc items) := by
  unfold State.subackIn
  refine State.each_sound hs ?_
  intro a1 a2 ha1
  split
  · exact ha1
  · extract_lets -merge -useContext +onlyGivenNames v3 v4 v5 v6
    try clear_value v3
    try clear_value v4
    have hv5 : Sound q v5 := by
      unfold v5
      refine Sound.ite ?_ ?_
      · exact ha1
      · exact State.setRange_sound ha1
    try clear_value v5
    have hv6 : Sound q v6 := by
      unfold v6
      exact State.raise_sound ha1
    try clear_value v6
    refine Sound.ite ?_ ?_
    · refine Sound.ite ?_ ?_
      · exact State.rangeLive_sound hv5
      · exact hv5
    · refine Sound.ite ?_ ?_
      · refine Sound.ite ?_ ?_
        · exact hv6
        · refine State.event_sound ?_
          exact State.setRange_sound hv6
      · exact ha1

theorem State.putReplica_sound {q : List Instr} {s : State} {slot : ℕ} {rec_ : List Byte} (hs : Sound q s) :
    Sound q (State.putReplica s slot rec_) := by
  unfold State.putReplica
  extract_lets -merge -useContext +onlyGivenNames v1
  have hv1 : Sound q v1 := State.write_sound hs
  clear_value v1
  split
  · exact State.write_sound hv1
  · exact hv1

theorem State.pushIn1_sound {q : List Instr} {s : State} {src : ℕ} {pinc : ℕ} {it : List Byte} (hs : Sound q s) :
    Sound q (State.pushIn1 s src pinc it) := by
  unfold State.pushIn1
  extract_lets -merge -useContext +onlyGivenNames v1 v2 v3 v4 v5 v6
  try clear_value v1
  try clear_value v2
  try clear_value v3
  try clear_value v4
  try clear_value v5
  try clear_value v6
  split
  · exact State.bump_sound hs
  · extract_lets -merge -useContext +onlyGivenNames v7 v8 v9 v10 v11 v12 v13 v14 v15
    try clear_value v7
    try clear_value v8
    try clear_value v9
    try clear_value v10
    have hv11 : Sound q v11 := by
      unfold v11
      refine Sound.ite ?_ ?_
      · refine State.event_sound ?_
        exact State.setRange_sound hs
      · exact hs
    try clear_value v11
    try clear_value v12
    have hv13 : Sound q v13 := by
      unfold v13
      refine State.putReplica_sound ?_
      exact State.bump_sound hv11
    try clear_value v13
    try clear_value v14
    have hv15 : Sound q v15 := by
      unfold v15
      refine Sound.ite ?_ ?_
      · refine State.corrected_sound ?_
        refine State.bump_sound ?_
        exact Sound.upd hv13
      · exact hv13
    try clear_value v15
    refine Sound.ite ?_ ?_
    · exact State.bump_sound hs
    · refine Sound.ite ?_ ?_
      · exact State.rangeLive_sound hv15
      · exact hv15

theorem State.pointMsg_sound {q : List Instr} {s : State} {src : ℕ} {body : List Byte} (hs : Sound q s) :
    Sound q (State.pointMsg s src body) := by
  unfold State.pointMsg
  extract_lets -merge -useContext +onlyGivenNames v1 v2 v3 v4 v5
  have hv1 : Sound q v1 := by
    unfold v1
    exact State.takeInbox_sound hs
  try clear_value v1
  try clear_value v2
  try clear_value v3
  try clear_value v4
  try clear_value v5
  refine Sound.ite ?_ ?_
  · exact hv1
  · refine Sound.ite ?_ ?_
    · refine State.raise_sound ?_
      exact State.bump_sound hv1
    · split
      · exact State.subIn_sound hv1
      · exact State.subackIn_sound hv1
      · exact State.unsubIn_sound hv1
      · refine State.each_sound hv1 ?_
        intro a6 a7 ha6
        exact State.pushIn1_sound ha6
      · exact State.fetchIn_sound hv1

theorem State.syncCache_sound {q : List Instr} {s : State} (hs : Sound q s) :
    Sound q (State.syncCache s) := by
  unfold State.syncCache
  extract_lets -merge -useContext +onlyGivenNames v1
  try clear_value v1
  refine State.wr_sound ?_
  exact State.wr_sound hs

theorem State.clock_sound {q : List Instr} {s : State} {a : ℕ} (hs : Sound q s) :
    Sound q ((State.clock s a)).2 := by
  unfold State.clock
  split
  · try dsimp -zeta only
    exact hs
  · extract_lets -merge -useContext +onlyGivenNames v1 v2 v3 v4
    try clear_value v1
    try clear_value v2
    try clear_value v3
    have hv4 : Sound q v4 := by
      unfold v4
      exact Sound.upd hs
    try clear_value v4
    split
    · exact State.clock_sound hv4
    · split
      · refine State.clock_sound ?_
        exact State.setFrame_sound hv4
      · try dsimp -zeta only
        exact hv4

theorem State.victim_sound {q : List Instr} {s : State} (hs : Sound q s) :
    Sound q ((State.victim s)).2 := by
  unfold State.victim
  exact State.clock_sound hs

theorem State.beginPage_sound {q : List Instr} {s : State} {f : ℕ} {page : ℕ} (hs : Sound q s) :
    Sound q (State.beginPage s f page) := by
  unfold State.beginPage
  extract_lets -merge -useContext +onlyGivenNames v1 v2
  try clear_value v1
  have hv2 : Sound q v2 := by
    unfold v2
    refine Sound.ite ?_ ?_
    · exact State.bump_sound hs
    · exact hs
  try clear_value v2
  refine State.syncCache_sound ?_
  exact State.setFrame_sound hv2

theorem State.sendFetch_sound {q : List Instr} {s : State} {slot : ℕ} (hs : Sound q s) :
    Sound q (State.sendFetch s slot) := by
  unfold State.sendFetch
  split
  · extract_lets -merge -useContext +onlyGivenNames v1
    try clear_value v1
    exact State.sendPoint_sound hs
  · exact hs

theorem State.askRefetch_sound {q : List Instr} {s : State} {slot : ℕ} (hs : Sound q s) :
    Sound q (State.askRefetch s slot) := by
  unfold State.askRefetch
  refine Sound.ite ?_ ?_
  · exact hs
  · refine State.sendFetch_sound ?_
    exact Sound.upd hs

theorem State.moveRecord_sound {q : List Instr} {s : State} {f : ℕ} {slot : ℕ} (hs : Sound q s) :
    Sound q (State.moveRecord s f slot) := by
  unfold State.moveRecord
  extract_lets -merge -useContext +onlyGivenNames v1 v2 v3 v4 v5 v6
  have hv1 : Sound q (v1).st := by
    unfold v1
    exact State.fetch_sound hs
  try clear_value v1
  try clear_value v2
  have hv3 : Sound q v3 := by
    unfold v3
    exact hv1
  try clear_value v3
  try clear_value v4
  try clear_value v5
  have hv6 : Sound q v6 := by
    unfold v6
    refine State.each_sound hv3 ?_
    intro a7 a8 ha7
    exact State.writePoison_sound ha7
  try clear_value v6
  refine Sound.ite ?_ ?_
  · exact State.write_sound hv3
  · exact State.askRefetch_sound hv6

theorem State.endPage_sound {q : List Instr} {s : State} {f : ℕ} {page : ℕ} (hs : Sound q s) :
    Sound q (State.endPage s f page) := by
  unfold State.endPage
  extract_lets -merge -useContext +onlyGivenNames v1 v2
  have hv1 : Sound q v1 := by
    unfold v1
    refine State.each_sound hs ?_
    intro a3 a4 ha3
    exact State.moveRecord_sound ha3
  try clear_value v1
  try clear_value v2
  refine State.syncCache_sound ?_
  exact State.setFrame_sound hv1

theorem State.readFrame_sound {q : List Instr} {s : State} {e : ℕ} {f : ℕ} {slot : ℕ} (hs : Sound q s) :
    Sound q ((State.readFrame s e f slot)).2 := by
  unfold State.readFrame
  extract_lets -merge -useContext +onlyGivenNames v1 v2
  have hv1 : Sound q (v1).st := by
    unfold v1
    exact State.fetch_sound hs
  try clear_value v1
  try clear_value v2
  try dsimp -zeta only
  exact State.setFrame_sound hv1

theorem State.miss_sound {q : List Instr} {s : State} {port : ℕ} {id : ℕ} {page : ℕ} (hs : Sound q s) :
    Sound q ((State.miss s port id page)).2 := by
  unfold State.miss
  extract_lets -merge -useContext +onlyGivenNames v1 v2 v3
  have hv1 : Sound q v1 := by
    unfold v1
    exact State.bump_sound hs
  try clear_value v1
  have hv2 : ∀ x0 x1, Sound q x0 → Sound q (v2 x0 x1) := by
    unfold v2
    intro a4 a5 ha4
    exact Sound.upd ha4
  try clear_value v2
  have hv3 : ∀ x0, Sound q x0 → Sound q ((v3 x0)).2 := by
    unfold v3
    intro a6 ha6
    try dsimp -zeta only
    refine State.raise_sound ?_
    exact State.bump_sound ha6
  try clear_value v3
  split
  · exact hv3 _ hv1
  · split
    · try dsimp -zeta only
      exact hv2 _ _ hv1
    · split
      · rename_i p7 e8
        have hp7 : Sound q p7 := by
          refine Sound.ofSnd e8 ?_
          exact State.victim_sound hv1
        exact hv3 _ hp7
      · rename_i p9 p10 e11
        have hp10 : Sound q p10 := by
          refine Sound.ofSnd e11 ?_
          exact State.victim_sound hv1
        split
        · extract_lets -merge -useContext +onlyGivenNames v12 v13
          try clear_value v12
          try clear_value v13
          split
          · rename_i p14 e15
            have hp14 : Sound q p14 := by
              refine Sound.ofSnd e15 ?_
              exact State.asnPost_sound hp10
            try dsimp -zeta only
            exact hv2 _ _ hp14
          · rename_i p16 e17
            have hp16 : Sound q p16 := by
              refine Sound.ofSnd e17 ?_
              exact State.asnPost_sound hp10
            try dsimp -zeta only
            refine hv2 _ _ ?_
            exact State.beginPage_sound hp16
        · try dsimp -zeta only
          refine hv2 _ _ ?_
          exact State.beginPage_sound hp10

theorem State.lookup_sound {q : List Instr} {s : State} {port : ℕ} {id : ℕ} (hs : Sound q s) :
    Sound q ((State.lookup s port id)).2 := by
  unfold State.lookup
  split
  · try dsimp -zeta only
    exact hs
  · extract_lets -merge -useContext +onlyGivenNames v1
    have hv1 : Sound q (v1).st := by
      unfold v1
      exact State.fetch_sound hs
    try clear_value v1
    try dsimp -zeta only
    exact hv1
  · split
    · try dsimp -zeta only
      exact hs
    · split
      · split
        · rename_i p2 p3 e4
          have hp3 : Sound q p3 := by
            refine Sound.ofSnd e4 ?_
            exact State.readFrame_sound hs
          try dsimp -zeta only
          exact State.bump_sound hp3
      · exact State.miss_sound hs

theorem State.showLookup_sound {q : List Instr} {s : State} {p : ℕ} {a : LkAns} {miss : Bool} (hs : Sound q s) :
    Sound q (State.showLookup s p a miss) := by
  unfold State.showLookup
  extract_lets -merge -useContext +onlyGivenNames v1
  have hv1 : ∀ x0 x1, Sound q x0 → Sound q (v1 x0 x1) := by
    unfold v1
    intro a2 a3 ha2
    refine State.clear_sound ?_
    refine State.wrb_sound ?_
    exact State.wr_sound ha2
  try clear_value v1
  split
  · extract_lets -merge -useContext +onlyGivenNames v4
    have hv4 : Sound q v4 := by
      unfold v4
      refine State.each_sound hs ?_
      intro a5 a6 ha5
      exact State.wr_sound ha5
    try clear_value v4
    refine hv1 _ _ ?_
    exact State.wr_sound hv4
  · exact hv1 _ _ hs
  · exact hv1 _ _ hs
  · exact hv1 _ _ hs
  · exact State.raise_sound hs

theorem State.answerMisses_sound {q : List Instr} {s : State} {page : ℕ} (hs : Sound q s) :
    Sound q ((State.answerMisses s page)).2 := by
  unfold State.answerMisses
  split
  · extract_lets -merge -useContext +onlyGivenNames v1 v2 v3
    try clear_value v1
    have hv2 : Sound q v2 := by
      unfold v2
      exact Sound.upd hs
    try clear_value v2
    have hv3 : Sound q v3 := by
      unfold v3
      refine State.each_sound hv2 ?_
      intro a4 a5 ha4
      split
      · split
        · split
          · rename_i p6 p7 e8
            have hp7 : Sound q p7 := by
              refine Sound.ofSnd e8 ?_
              exact State.readFrame_sound ha4
            exact State.showLookup_sound hp7
        · exact ha4
      · exact ha4
    try clear_value v3
    try dsimp -zeta only
    exact hv3

theorem State.giveFrame_sound {q : List Instr} {s : State} {page : ℕ} {f : ℕ} (hs : Sound q s) :
    Sound q (State.giveFrame s page f) := by
  unfold State.giveFrame
  exact Sound.upd hs

theorem State.choose_sound {q : List Instr} {s : State} {page : ℕ} {server : Option ℕ} {fallback : ℕ} (hs : Sound q s) :
    Sound q (State.choose s page server fallback) := by
  unfold State.choose
  extract_lets -merge -useContext +onlyGivenNames v1 v2
  try clear_value v1
  have hv2 : Sound q v2 := by
    unfold v2
    exact State.bump_sound hs
  try clear_value v2
  split
  · rename_i p3 p4 e5
    have hp4 : Sound q p4 := by
      refine Sound.ofSnd e5 ?_
      split
      · split
        · try dsimp -zeta only
          exact hs
        · split
          · try dsimp -zeta only
            exact hv2
          · exact State.victim_sound hv2
      · split
        · try dsimp -zeta only
          exact hv2
        · exact State.victim_sound hv2
    split
    · exact State.giveFrame_sound hp4
    · refine State.giveFrame_sound ?_
      exact State.beginPage_sound hp4
    · exact hp4

theorem State.hopResult_sound {q : List Instr} {r : Reaped} (hr : Sound q (r).st) :
    Sound q (State.hopResult r) := by
  unfold State.hopResult
  split
  · refine Sound.ite ?_ ?_
    · exact hr
    · exact State.choose_sound hr
  · exact hr

theorem State.hopTimeout_sound {q : List Instr} {s : State} {p : AsnPost} (hs : Sound q s) :
    Sound q (State.hopTimeout s p) := by
  unfold State.hopTimeout
  split
  · exact State.choose_sound hs
  · exact hs

theorem State.scanDone_sound {q : List Instr} {s : State} {bank : ℕ} (hs : Sound q s) :
    Sound q (State.scanDone s bank) := by
  unfold State.scanDone
  extract_lets -merge -useContext +onlyGivenNames v1 v2 v3 v4 v5 v6 v7 v8 v9 v10
  try clear_value v1
  try clear_value v2
  try clear_value v3
  try clear_value v4
  try clear_value v5
  have hv6 : Sound q v6 := by
    unfold v6
    exact Sound.upd hs
  try clear_value v6
  have hv7 : Sound q v7 := by
    unfold v7
    refine State.raise_sound ?_
    exact State.clear_sound hv6
  try clear_value v7
  try clear_value v8
  have hv9 : ∀ x0 x1, Sound q x0 → Sound q (v9 x0 x1) := by
    unfold v9
    intro a11 a12 ha11
    exact State.setFrame_sound ha11
  try clear_value v9
  have hv10 : Sound q v10 := by
    unfold v10
    refine State.each_sound hv7 ?_
    intro a13 a14 ha13
    split
    · refine hv9 _ _ ?_
      refine Sound.ite ?_ ?_
      · exact State.endPage_sound ha13
      · exact ha13
    · split
      · rename_i p15 p16 e17
        have hp16 : Sound q p16 := by
          refine Sound.ofSnd e17 ?_
          exact State.victim_sound ha13
        refine hv9 _ _ ?_
        refine State.endPage_sound ?_
        exact State.beginPage_sound hp16
      · rename_i p18 e19
        have hp18 : Sound q p18 := by
          refine Sound.ofSnd e19 ?_
          exact State.victim_sound ha13
        exact hp18
  try clear_value v10
  refine Sound.ite ?_ ?_
  · refine State.event_sound ?_
    refine State.raise_sound ?_
    exact State.wr_sound hv7
  · refine State.syncCache_sound ?_
    refine State.wr_sound ?_
    exact State.wr_sound hv10

theorem State.scanLost_sound {q : List Instr} {s : State} (hs : Sound q s) :
    Sound q (State.scanLost s) := by
  unfold State.scanLost
  refine Sound.ite ?_ ?_
  · extract_lets -merge -useContext +onlyGivenNames v1 v2
    try clear_value v1
    have hv2 : Sound q v2 := by
      unfold v2
      exact Sound.upd hs
    try clear_value v2
    refine State.raise_sound ?_
    refine State.clear_sound ?_
    exact State.wr_sound hv2
  · exact hs

theorem State.hopTurned_sound {q : List Instr} {s : State} (hs : Sound q s) :
    Sound q (State.hopTurned s) := by
  unfold State.hopTurned
  extract_lets -merge -useContext +onlyGivenNames v1 v2 v3
  have hv1 : Sound q v1 := by
    unfold v1
    exact State.scanLost_sound hs
  try clear_value v1
  have hv2 : Sound q v2 := by
    unfold v2
    refine State.each_sound hv1 ?_
    intro a4 a5 ha4
    exact State.showLookup_sound ha4
  try clear_value v2
  try clear_value v3
  exact Sound.upd hv2

theorem State.hopXbar_sound {q : List Instr} {s : State} (hs : Sound q s) :
    Sound q (State.hopXbar s) := by
  unfold State.hopXbar
  extract_lets -merge -useContext +onlyGivenNames v1 v2 v3
  have hv1 : Sound q v1 := by
    unfold v1
    exact State.hopTurned_sound hs
  try clear_value v1
  try clear_value v2
  try clear_value v3
  refine State.syncCache_sound ?_
  exact Sound.upd hv1

theorem State.hopLose_sound {q : List Instr} {s : State} (hs : Sound q s) :
    Sound q (State.hopLose s) := by
  unfold State.hopLose
  extract_lets -merge -useContext +onlyGivenNames v1 v2 v3 v4
  have hv1 : Sound q v1 := by
    unfold v1
    exact State.hopTurned_sound hs
  try clear_value v1
  have hv2 : Sound q v2 := by
    unfold v2
    refine State.each_sound hv1 ?_
    intro a5 a6 ha5
    exact State.setRange_sound ha5
  try clear_value v2
  try clear_value v3
  have hv4 : Sound q v4 := by
    unfold v4
    exact Sound.upd hv2
  try clear_value v4
  refine State.syncCache_sound ?_
  exact State.clear_sound hv4

theorem State.refetchAgain_sound {q : List Instr} {s : State} (hs : Sound q s) :
    Sound q (State.refetchAgain s) := by
  unfold State.refetchAgain
  extract_lets -merge -useContext +onlyGivenNames v1 v2 v3
  try clear_value v1
  try clear_value v2
  have hv3 : Sound q v3 := by
    unfold v3
    exact Sound.upd hs
  try clear_value v3
  refine State.each_sound hv3 ?_
  intro a4 a5 ha4
  exact State.sendFetch_sound ha4

theorem State.hopStart_sound {q : List Instr} {s : State} (hs : Sound q s) :
    Sound q (State.hopStart s) := by
  unfold State.hopStart
  refine State.raise_sound ?_
  exact State.hopLose_sound hs

theorem State.hopDrain_sound {q : List Instr} {s : State} (hs : Sound q s) :
    Sound q (State.hopDrain s) := by
  unfold State.hopDrain
  refine State.each_sound hs ?_
  intro a1 a2 ha1
  extract_lets -merge -useContext +onlyGivenNames v3 v4
  try clear_value v3
  have hv4 : Sound q v4 := by
    unfold v4
    refine Sound.ite ?_ ?_
    · exact State.sendPoint_sound ha1
    · exact ha1
  try clear_value v4
  exact State.setRange_sound hv4

theorem State.hopSubscribe_sound {q : List Instr} {s : State} (hs : Sound q s) :
    Sound q (State.hopSubscribe s) := by
  unfold State.hopSubscribe
  refine State.refetchAgain_sound ?_
  refine State.each_sound hs ?_
  intro a1 a2 ha1
  refine State.sendSub_sound ?_
  exact State.setRange_sound ha1

theorem State.hopInit_sound {q : List Instr} {s : State} (hs : Sound q s) :
    Sound q (State.hopInit s) := by
  unfold State.hopInit
  refine Sound.ite ?_ ?_
  · extract_lets -merge -useContext +onlyGivenNames v1 v2
    have hv1 : Sound q v1 := by
      unfold v1
      refine State.each_sound hs ?_
      intro a3 a4 ha3
      extract_lets -merge -useContext +onlyGivenNames v5
      try clear_value v5
      refine State.each_sound ha3 ?_
      intro a6 a7 ha6
      exact State.write_sound ha6
    try clear_value v1
    have hv2 : Sound q v2 := by
      unfold v2
      refine State.raise_sound ?_
      exact State.clear_sound hv1
    try clear_value v2
    exact State.hopSubscribe_sound hv2
  · exact hs

end Sys2Proof.Machine
end

