-- ==== Sys2Proof/Laws/SoundFabOps.lean ====
section
/-!
SUPPORT. Every operation of Machine/FabOps.lean keeps the queue and the canonical forms of memory and registers.
-/

namespace Sys2Proof.Machine

theorem State.linkSend_sound {q : List Instr} {s : State} {p : ℕ} {typ : ℕ} {payload : List Byte} (hs : Sound q s) :
    Sound q (State.linkSend s p typ payload) := by
  unfold State.linkSend
  extract_lets -merge -useContext +onlyGivenNames v1
  try clear_value v1
  refine State.leave_sound ?_
  exact State.tookSeq_sound hs

theorem State.sendKeyx_sound {q : List Instr} {s : State} {p : ℕ} {msg : ℕ} {an : ℕ} {peerNonce : BitVec 128} (hs : Sound q s) :
    Sound q (State.sendKeyx s p msg an peerNonce) := by
  unfold State.sendKeyx
  refine Sound.ite ?_ ?_
  · exact hs
  · extract_lets -merge -useContext +onlyGivenNames v1 v2 v3
    try clear_value v1
    try clear_value v2
    try clear_value v3
    exact State.linkSend_sound hs

theorem State.offer_sound {q : List Instr} {s : State} {p : ℕ} (hs : Sound q s) :
    Sound q (State.offer s p) := by
  unfold State.offer
  refine State.sendKeyx_sound ?_
  exact State.setPort_sound hs

theorem State.newNonce_sound {q : List Instr} {s : State} {p : ℕ} (hs : Sound q s) :
    Sound q (State.newNonce s p) := by
  unfold State.newNonce
  refine Sound.ite ?_ ?_
  · refine State.drawn_sound ?_
    exact State.setPort_sound hs
  · exact State.setPort_sound hs

theorem State.keying_sound {q : List Instr} {s : State} {p : ℕ} (hs : Sound q s) :
    Sound q (State.keying s p) := by
  unfold State.keying
  extract_lets -merge -useContext +onlyGivenNames v1 v2 v3
  have hv1 : Sound q v1 := by
    unfold v1
    exact State.wr_sound hs
  try clear_value v1
  try clear_value v2
  have hv3 : Sound q v3 := by
    unfold v3
    exact State.setPort_sound hv1
  try clear_value v3
  refine State.offer_sound ?_
  exact State.newNonce_sound hv3

theorem State.sendHello_sound {q : List Instr} {s : State} {p : ℕ} (hs : Sound q s) :
    Sound q (State.sendHello s p) := by
  unfold State.sendHello
  extract_lets -merge -useContext +onlyGivenNames v1 v2
  try clear_value v1
  have hv2 : Sound q v2 := by
    unfold v2
    exact State.setPort_sound hs
  try clear_value v2
  exact State.linkSend_sound hv2

theorem State.setLsa_sound {q : List Instr} {s : State} {n : ℕ} {x2 : Option FabLsa} (hs : Sound q s) :
    Sound q (State.setLsa s n x2) := by
  unfold State.setLsa
  exact Sound.upd hs

theorem State.showLsa_sound {q : List Instr} {s : State} {n : ℕ} (hs : Sound q s) :
    Sound q (State.showLsa s n) := by
  unfold State.showLsa
  refine Sound.ite ?_ ?_
  · exact hs
  · split
    · exact State.write_sound hs
    · refine State.taken_sound ?_
      exact State.write_sound hs

theorem State.showAges_sound {q : List Instr} {s : State} (hs : Sound q s) :
    Sound q (State.showAges s) := by
  unfold State.showAges
  extract_lets -merge -useContext +onlyGivenNames v1 v2 v3
  try clear_value v1
  try clear_value v2
  have hv3 : Sound q v3 := by
    unfold v3
    exact Sound.upd hs
  try clear_value v3
  refine State.each_sound hv3 ?_
  intro a4 a5 ha4
  split
  · refine Sound.ite ?_ ?_
    · exact ha4
    · exact State.showLsa_sound ha4
  · exact ha4

theorem State.dbChanged_sound {q : List Instr} {s : State} (hs : Sound q s) :
    Sound q (State.dbChanged s) := by
  unfold State.dbChanged
  exact Sound.upd hs

theorem State.installLsa_sound {q : List Instr} {s : State} {n : ℕ} {l : Lsa} (hs : Sound q s) :
    Sound q (State.installLsa s n l) := by
  unfold State.installLsa
  refine State.dbChanged_sound ?_
  refine State.showLsa_sound ?_
  exact State.setLsa_sound hs

theorem State.removeLsa_sound {q : List Instr} {s : State} {n : ℕ} (hs : Sound q s) :
    Sound q (State.removeLsa s n) := by
  unfold State.removeLsa
  refine Sound.ite ?_ ?_
  · refine State.dbChanged_sound ?_
    refine State.showLsa_sound ?_
    exact State.setLsa_sound hs
  · exact hs

theorem State.sendLsas_sound {q : List Instr} {s : State} {p : ℕ} {ls : List Lsa} (hs : Sound q s) :
    Sound q (State.sendLsas s p ls) := by
  unfold State.sendLsas
  extract_lets -merge -useContext +onlyGivenNames v1 v2 v3
  have hv1 : Sound q v1 := by
    unfold v1
    refine State.each_sound hs ?_
    intro a4 a5 ha4
    exact State.linkSend_sound ha4
  try clear_value v1
  try clear_value v2
  try clear_value v3
  exact State.setPort_sound hv1

theorem State.flood_sound {q : List Instr} {s : State} {l : Lsa} {except : Option ℕ} (hs : Sound q s) :
    Sound q (State.flood s l except) := by
  unfold State.flood
  refine State.each_sound hs ?_
  intro a1 a2 ha1
  exact State.sendLsas_sound ha1

theorem State.sendAck_sound {q : List Instr} {s : State} {p : ℕ} {l : Lsa} (hs : Sound q s) :
    Sound q (State.sendAck s p l) := by
  unfold State.sendAck
  exact State.linkSend_sound hs

theorem State.originate_sound {q : List Instr} {s : State} {node : ℕ} {state : ℕ} {seq : Option ℕ} (hs : Sound q s) :
    Sound q (State.originate s node state seq) := by
  unfold State.originate
  extract_lets -merge -useContext +onlyGivenNames v1 v2 v3 v4 v5 v6 v7
  try clear_value v1
  try clear_value v2
  have hv3 : Sound q v3 := by
    unfold v3
    exact State.flood_sound hs
  try clear_value v3
  try clear_value v4
  have hv5 : Sound q v5 := by
    unfold v5
    exact Sound.upd hv3
  try clear_value v5
  have hv6 : Sound q v6 := by
    unfold v6
    refine Sound.ite ?_ ?_
    · exact State.removeLsa_sound hv5
    · exact State.installLsa_sound hv5
  try clear_value v6
  try clear_value v7
  exact Sound.upd hv6

theorem State.reoriginate_sound {q : List Instr} {s : State} (hs : Sound q s) :
    Sound q (State.reoriginate s) := by
  unfold State.reoriginate
  refine Sound.ite ?_ ?_
  · exact State.originate_sound hs
  · refine Sound.ite ?_ ?_
    · exact State.originate_sound hs
    · exact hs

theorem State.aliasLsa_sound {q : List Instr} {s : State} {on : Bool} (hs : Sound q s) :
    Sound q (State.aliasLsa s on) := by
  unfold State.aliasLsa
  extract_lets -merge -useContext +onlyGivenNames v1 v2 v3
  try clear_value v1
  try clear_value v2
  have hv3 : Sound q v3 := by
    unfold v3
    exact State.flood_sound hs
  try clear_value v3
  refine Sound.ite ?_ ?_
  · refine Sound.ite ?_ ?_
    · exact State.installLsa_sound hv3
    · exact State.removeLsa_sound hv3
  · exact hs

theorem State.leaveUp_sound {q : List Instr} {s : State} {p : ℕ} {to_ : ℕ} {event : Bool} (hs : Sound q s) :
    Sound q (State.leaveUp s p to_ event) := by
  unfold State.leaveUp
  extract_lets -merge -useContext +onlyGivenNames v1 v2 v3 v4 v5 v6
  try clear_value v1
  try clear_value v2
  have hv3 : Sound q v3 := by
    unfold v3
    exact State.wr_sound hs
  try clear_value v3
  try clear_value v4
  have hv5 : Sound q v5 := by
    unfold v5
    exact State.setPort_sound hv3
  try clear_value v5
  have hv6 : Sound q v6 := by
    unfold v6
    refine State.reoriginate_sound ?_
    exact State.raise_sound hv5
  try clear_value v6
  refine Sound.ite ?_ ?_
  · refine Sound.ite ?_ ?_
    · exact State.event_sound hv6
    · exact hv6
  · exact hv5

theorem State.preemptSync_sound {q : List Instr} {s : State} {p : ℕ} (hs : Sound q s) :
    Sound q (State.preemptSync s p) := by
  unfold State.preemptSync
  extract_lets -merge -useContext +onlyGivenNames v1
  try clear_value v1
  refine Sound.ite ?_ ?_
  · refine State.clear_sound ?_
    exact State.setPort_sound hs
  · exact hs

theorem State.dropSa_sound {q : List Instr} {s : State} {p : ℕ} (hs : Sound q s) :
    Sound q (State.dropSa s p) := by
  unfold State.dropSa
  exact State.setPort_sound hs

theorem State.portDown_sound {q : List Instr} {s : State} {p : ℕ} (hs : Sound q s) :
    Sound q (State.portDown s p) := by
  unfold State.portDown
  refine State.dropSa_sound ?_
  exact State.leaveUp_sound hs

theorem State.dropQueues_sound {q : List Instr} {s : State} {p : ℕ} (hs : Sound q s) :
    Sound q (State.dropQueues s p) := by
  unfold State.dropQueues
  refine State.each_sound hs ?_
  intro a1 a2 ha1
  refine State.setLane_sound ?_
  exact State.bumpBy_sound ha1

theorem State.noNode_sound {q : List Instr} {s : State} (hs : Sound q s) :
    Sound q (State.noNode s) := by
  unfold State.noNode
  extract_lets -merge -useContext +onlyGivenNames v1 v2
  have hv1 : Sound q v1 := by
    unfold v1
    refine State.event_sound ?_
    refine State.raise_sound ?_
    exact State.wr_sound hs
  try clear_value v1
  try clear_value v2
  exact Sound.upd hv1

theorem State.pickNode_sound {q : List Instr} {s : State} (hs : Sound q s) :
    Sound q (State.pickNode s) := by
  unfold State.pickNode
  extract_lets -merge -useContext +onlyGivenNames v1 v2 v3 v4 v5
  try clear_value v1
  try clear_value v2
  try clear_value v3
  have hv4 : Sound q v4 := by
    unfold v4
    exact State.wr_sound hs
  try clear_value v4
  try clear_value v5
  split
  · exact State.noNode_sound hs
  · extract_lets -merge -useContext +onlyGivenNames v6
    have hv6 : Sound q v6 := by
      unfold v6
      exact Sound.upd hv4
    try clear_value v6
    exact State.originate_sound hv6

theorem State.yieldNode_sound {q : List Instr} {s : State} {node : ℕ} (hs : Sound q s) :
    Sound q (State.yieldNode s node) := by
  unfold State.yieldNode
  extract_lets -merge -useContext +onlyGivenNames v1 v2 v3 v4
  have hv1 : Sound q v1 := by
    unfold v1
    exact State.originate_sound hs
  try clear_value v1
  have hv2 : Sound q v2 := by
    unfold v2
    exact State.wr_sound hv1
  try clear_value v2
  try clear_value v3
  have hv4 : Sound q v4 := by
    unfold v4
    exact Sound.upd hv2
  try clear_value v4
  refine Sound.ite ?_ ?_
  · exact State.wr_sound hv4
  · refine State.event_sound ?_
    refine State.raise_sound ?_
    exact State.wr_sound hv4

theorem State.installRoutes_sound {q : List Instr} {s : State} {t : SMap Word} (hs : Sound q s) :
    Sound q (State.installRoutes s t) := by
  unfold State.installRoutes
  extract_lets -merge -useContext +onlyGivenNames v1 v2 v3 v4
  try clear_value v1
  try clear_value v2
  have hv3 : Sound q v3 := by
    unfold v3
    exact Sound.upd hs
  try clear_value v3
  have hv4 : Sound q v4 := by
    unfold v4
    refine State.raise_sound ?_
    exact State.bump_sound hv3
  try clear_value v4
  refine Sound.ite ?_ ?_
  · exact hv4
  · refine State.producersLost_sound ?_
    refine State.fabUnreach_sound ?_
    refine State.each_sound ?_ ?_
    · exact State.raise_sound hv4
    · intro a5 a6 ha5
      exact State.event_sound ha5

theorem State.spfBusy_sound {q : List Instr} {s : State} (hs : Sound q s) :
    Sound q (State.spfBusy s) := by
  unfold State.spfBusy
  exact State.wrb_sound hs

theorem State.routeResult_sound {q : List Instr} {r : Reaped} (hr : Sound q (r).st) :
    Sound q (State.routeResult r) := by
  unfold State.routeResult
  extract_lets -merge -useContext +onlyGivenNames v1
  have hv1 : Sound q v1 := by
    unfold v1
    refine Sound.ite ?_ ?_
    · exact State.installRoutes_sound hr
    · exact hr
  try clear_value v1
  exact State.spfBusy_sound hv1

theorem State.installQuench_sound {q : List Instr} {s : State} {q' : ℕ} {f : Leat} (hs : Sound q s) :
    Sound q (State.installQuench s q' f) := by
  unfold State.installQuench
  extract_lets -merge -useContext +onlyGivenNames v1 v2 v3
  try clear_value v1
  try clear_value v2
  try clear_value v3
  refine Sound.ite ?_ ?_
  · split
    · exact State.setRule_sound hs
    · exact hs
  · split
    · refine State.event_sound ?_
      refine State.raise_sound ?_
      exact State.bump_sound hs
    · extract_lets -merge -useContext +onlyGivenNames v4
      have hv4 : Sound q v4 := by
        unfold v4
        exact State.setRule_sound hs
      try clear_value v4
      refine State.event_sound ?_
      exact State.raise_sound hv4

theorem State.quenchHop_sound {q : List Instr} {s : State} {inPort : ℕ} {f : Leat} (hs : Sound q s) :
    Sound q (State.quenchHop s inPort f) := by
  unfold State.quenchHop
  refine Sound.ite ?_ ?_
  · exact State.bump_sound hs
  · extract_lets -merge -useContext +onlyGivenNames v1
    try clear_value v1
    refine Sound.ite ?_ ?_
    · refine Sound.ite ?_ ?_
      · exact State.bump_sound hs
      · exact State.bump_sound hs
    · refine Sound.ite ?_ ?_
      · exact State.installQuench_sound hs
      · refine Sound.ite ?_ ?_
        · exact State.bump_sound hs
        · refine State.leave_sound ?_
          exact State.installQuench_sound hs

theorem State.quenchIssue_sound {q : List Instr} {s : State} {f : Leat} (hs : Sound q s) :
    Sound q (State.quenchIssue s f) := by
  unfold State.quenchIssue
  extract_lets -merge -useContext +onlyGivenNames v1 v2
  have hv1 : Sound q v1 := by
    unfold v1
    exact State.quenchHop_sound hs
  try clear_value v1
  try clear_value v2
  exact Sound.upd hv1

end Sys2Proof.Machine
end

