-- ==== Sys2Proof/Laws/SoundFabTx.lean ====
section
/-!
SUPPORT. Every operation of Machine/FabTx.lean keeps the queue and the canonical forms of memory and registers.
-/

namespace Sys2Proof.Machine

theorem State.pnExhausted_sound {q : List Instr} {s : State} {p : ℕ} (hs : Sound q s) :
    Sound q (State.pnExhausted s p) := by
  unfold State.pnExhausted
  refine State.keying_sound ?_
  refine State.dropSa_sound ?_
  exact State.leaveUp_sound hs

theorem State.spendPn_sound {q : List Instr} {s : State} {p : ℕ} {n : ℕ} (hs : Sound q s) :
    Sound q (State.spendPn s p n) := by
  unfold State.spendPn
  extract_lets -merge -useContext +onlyGivenNames v1 v2
  try clear_value v1
  have hv2 : Sound q v2 := by
    unfold v2
    exact State.setPort_sound hs
  try clear_value v2
  refine Sound.ite ?_ ?_
  · exact hv2
  · exact State.pnExhausted_sound hv2

theorem State.putOnWire_sound {q : List Instr} {s : State} {p : ℕ} {f : Leat} {cut : Bool} (hs : Sound q s) :
    Sound q (State.putOnWire s p f cut) := by
  unfold State.putOnWire
  refine Sound.ite ?_ ?_
  · exact State.bump_sound hs
  · extract_lets -merge -useContext +onlyGivenNames v1 v2 v3 v4
    try clear_value v1
    have hv2 : Sound q v2 := by
      unfold v2
      exact State.bump_sound hs
    try clear_value v2
    try clear_value v3
    have hv4 : Sound q v4 := by
      unfold v4
      exact Sound.upd hv2
    try clear_value v4
    exact State.spendPn_sound hv4

theorem State.setDeficit_sound {q : List Instr} {s : State} {p : ℕ} {l : ℕ} {d : ℕ} (hs : Sound q s) :
    Sound q (State.setDeficit s p l d) := by
  unfold State.setDeficit
  exact Sound.upd hs

theorem State.drrTurn.nextLane_sound {q : List Instr} {s : State} {p : ℕ} {l : ℕ} (hs : Sound q s) :
    Sound q (State.drrTurn.nextLane s p l) := by
  unfold State.drrTurn.nextLane
  extract_lets -merge -useContext +onlyGivenNames v1 v2 v3
  try clear_value v1
  try clear_value v2
  have hv3 : Sound q v3 := by
    unfold v3
    exact Sound.upd hs
  try clear_value v3
  exact State.setDeficit_sound hv3

theorem State.drrTurn_sound {q : List Instr} {s : State} {p : ℕ} {a : ℕ} (hs : Sound q s) :
    Sound q (State.drrTurn s p a) := by
  unfold State.drrTurn
  split
  · exact hs
  · extract_lets -merge -useContext +onlyGivenNames v1
    try clear_value v1
    split
    · refine Sound.ite ?_ ?_
      · refine State.putOnWire_sound ?_
        refine State.setLane_sound ?_
        exact State.setDeficit_sound hs
      · refine State.drrTurn_sound ?_
        exact State.drrTurn.nextLane_sound hs
    · refine State.drrTurn_sound ?_
      refine State.drrTurn.nextLane_sound ?_
      exact State.setDeficit_sound hs

theorem State.txPort_sound {q : List Instr} {s : State} {p : ℕ} (hs : Sound q s) :
    Sound q (State.txPort s p) := by
  unfold State.txPort
  refine Sound.ite ?_ ?_
  · exact hs
  · split
    · split
      · refine State.putOnWire_sound ?_
        exact State.setLane_sound hs
      · exact hs
    · refine Sound.ite ?_ ?_
      · exact hs
      · exact State.drrTurn_sound hs

theorem State.nodeStart_sound {q : List Instr} {s : State} (hs : Sound q s) :
    Sound q (State.nodeStart s) := by
  unfold State.nodeStart
  extract_lets -merge -useContext +onlyGivenNames v1 v2
  try clear_value v1
  have hv2 : Sound q v2 := by
    unfold v2
    refine State.raise_sound ?_
    refine State.wr_sound ?_
    exact State.wr_sound hs
  try clear_value v2
  refine Sound.ite ?_ ?_
  · exact State.wr_sound hs
  · refine State.originate_sound ?_
    exact State.event_sound hv2

theorem State.portAgain_sound {q : List Instr} {s : State} {p : ℕ} (hs : Sound q s) :
    Sound q (State.portAgain s p) := by
  unfold State.portAgain
  refine Sound.ite ?_ ?_
  · exact State.keying_sound hs
  · exact hs

theorem State.fabStart_sound {q : List Instr} {s : State} (hs : Sound q s) :
    Sound q (State.fabStart s) := by
  unfold State.fabStart
  extract_lets -merge -useContext +onlyGivenNames v1 v2
  try clear_value v1
  have hv2 : Sound q v2 := by
    unfold v2
    exact Sound.upd hs
  try clear_value v2
  refine State.each_sound ?_ ?_
  · refine State.nodeStart_sound ?_
    refine State.wr_sound ?_
    exact State.wr_sound hv2
  · intro a3 a4 ha3
    exact State.portAgain_sound ha3

theorem State.fabAgain_sound {q : List Instr} {s : State} (hs : Sound q s) :
    Sound q (State.fabAgain s) := by
  unfold State.fabAgain
  refine Sound.ite ?_ ?_
  · exact State.originate_sound hs
  · refine Sound.ite ?_ ?_
    · exact Sound.upd hs
    · exact hs

theorem State.fabDrain_sound {q : List Instr} {s : State} (hs : Sound q s) :
    Sound q (State.fabDrain s) := by
  unfold State.fabDrain
  refine Sound.ite ?_ ?_
  · exact State.originate_sound hs
  · refine Sound.ite ?_ ?_
    · exact State.originate_sound hs
    · exact hs

theorem State.fabOff_sound {q : List Instr} {s : State} (hs : Sound q s) :
    Sound q (State.fabOff s) := by
  unfold State.fabOff
  extract_lets -merge -useContext +onlyGivenNames v1 v2 v3 v4 v5 v6
  try clear_value v1
  have hv2 : Sound q v2 := by
    unfold v2
    refine State.each_sound hs ?_
    intro a7 a8 ha7
    refine State.showLsa_sound ?_
    exact State.setLsa_sound ha7
  try clear_value v2
  have hv3 : Sound q v3 := by
    unfold v3
    refine State.each_sound hv2 ?_
    intro a9 a10 ha9
    refine State.dropQueues_sound ?_
    refine State.dropSa_sound ?_
    exact State.wr_sound ha9
  try clear_value v3
  try clear_value v4
  have hv5 : Sound q v5 := by
    unfold v5
    exact Sound.upd hv3
  try clear_value v5
  have hv6 : Sound q v6 := by
    unfold v6
    refine State.wr_sound ?_
    exact State.wr_sound hv5
  try clear_value v6
  refine State.producersLost_sound ?_
  refine State.fabUnreach_sound ?_
  refine State.spfBusy_sound ?_
  refine State.wr_sound ?_
  exact State.wr_sound hv6

theorem State.fabXbar_sound {q : List Instr} {s : State} (hs : Sound q s) :
    Sound q (State.fabXbar s) := by
  unfold State.fabXbar
  refine State.spfBusy_sound ?_
  exact Sound.upd hs

theorem State.portStop_sound {q : List Instr} {s : State} {p : ℕ} (hs : Sound q s) :
    Sound q (State.portStop s p) := by
  unfold State.portStop
  refine State.clear_sound ?_
  exact State.portDown_sound hs

theorem State.portOff_sound {q : List Instr} {s : State} {p : ℕ} (hs : Sound q s) :
    Sound q (State.portOff s p) := by
  unfold State.portOff
  refine State.wr_sound ?_
  refine State.clear_sound ?_
  refine State.dropQueues_sound ?_
  exact State.portStop_sound hs

theorem State.portStart_sound {q : List Instr} {s : State} {p : ℕ} (hs : Sound q s) :
    Sound q (State.portStart s p) := by
  unfold State.portStart
  refine Sound.ite ?_ ?_
  · extract_lets -merge -useContext +onlyGivenNames v1 v2 v3
    try clear_value v1
    try clear_value v2
    try clear_value v3
    exact Sound.upd hs
  · exact hs

end Sys2Proof.Machine
end

