-- ==== Sys2Proof/Laws/SoundDioOps.lean ====
section
/-!
SUPPORT. Every operation of Machine/DioOps.lean keeps the queue and the canonical forms of memory and registers.
-/

namespace Sys2Proof.Machine

theorem State.setOutX_sound {q : List Instr} {s : State} {o : OutCh} {x2 : OutX} (hs : Sound q s) :
    Sound q (State.setOutX s o x2) := by
  unfold State.setOutX
  exact Sound.upd hs

theorem State.drive_sound {q : List Instr} {s : State} {o : OutCh} (hs : Sound q s) :
    Sound q (State.drive s o) := by
  unfold State.drive
  extract_lets -merge -useContext +onlyGivenNames v1 v2 v3
  try clear_value v1
  try clear_value v2
  have hv3 : Sound q v3 := by
    unfold v3
    exact State.setOutX_sound hs
  try clear_value v3
  split
  · exact hv3
  · split
    · exact State.setBit_sound hv3
    · refine State.taken_sound ?_
      exact State.setBit_sound hv3

theorem State.setFst_sound {q : List Instr} {s : State} {o : OutCh} {v : ℕ} (hs : Sound q s) :
    Sound q (State.setFst s o v) := by
  unfold State.setFst
  extract_lets -merge -useContext +onlyGivenNames v1
  have hv1 : Sound q v1 := by
    unfold v1
    exact State.wr_sound hs
  try clear_value v1
  split
  · exact hv1
  · exact State.setBit_sound hv1

theorem State.applyVal_sound {q : List Instr} {s : State} {o : OutCh} (hs : Sound q s) :
    Sound q (State.applyVal s o) := by
  unfold State.applyVal
  extract_lets -merge -useContext +onlyGivenNames v1 v2
  try clear_value v1
  try clear_value v2
  refine Sound.ite ?_ ?_
  · refine State.drive_sound ?_
    exact State.setOutX_sound hs
  · exact hs

theorem State.cfgFrame_sound {q : List Instr} {s : State} {o : OutCh} {outen : Bool} (hs : Sound q s) :
    Sound q (State.cfgFrame s o outen) := by
  unfold State.cfgFrame
  extract_lets -merge -useContext +onlyGivenNames v1 v2 v3 v4 v5
  try clear_value v1
  try clear_value v2
  try clear_value v3
  try clear_value v4
  have hv5 : Sound q v5 := by
    unfold v5
    exact State.setOutX_sound hs
  try clear_value v5
  refine Sound.ite ?_ ?_
  · exact hs
  · refine Sound.ite ?_ ?_
    · exact hv5
    · refine State.drive_sound ?_
      exact State.setFst_sound hv5

theorem State.resume_sound {q : List Instr} {s : State} {o : OutCh} (hs : Sound q s) :
    Sound q (State.resume s o) := by
  unfold State.resume
  extract_lets -merge -useContext +onlyGivenNames v1 v2
  try clear_value v1
  try clear_value v2
  refine Sound.ite ?_ ?_
  · refine State.drive_sound ?_
    refine State.setOutX_sound ?_
    exact State.setFst_sound hs
  · exact hs

theorem State.kaUpdate1_sound {q : List Instr} {s : State} {analog : Bool} (hs : Sound q s) :
    Sound q (State.kaUpdate1 s analog) := by
  unfold State.kaUpdate1
  extract_lets -merge -useContext +onlyGivenNames v1 v2
  try clear_value v1
  have hv2 : Sound q v2 := by
    unfold v2
    refine Sound.ite ?_ ?_
    · refine State.each_sound hs ?_
      intro a3 a4 ha3
      exact State.setOutX_sound ha3
    · exact hs
  try clear_value v2
  exact State.wrb_sound hv2

theorem State.kaUpdate_sound {q : List Instr} {s : State} (hs : Sound q s) :
    Sound q (State.kaUpdate s) := by
  unfold State.kaUpdate
  refine State.kaUpdate1_sound ?_
  exact State.kaUpdate1_sound hs

theorem State.kaSuspend_sound {q : List Instr} {s : State} (hs : Sound q s) :
    Sound q (State.kaSuspend s) := by
  unfold State.kaSuspend
  exact State.raise_sound hs

theorem State.kaUnsuspend_sound {q : List Instr} {s : State} (hs : Sound q s) :
    Sound q (State.kaUnsuspend s) := by
  unfold State.kaUnsuspend
  extract_lets -merge -useContext +onlyGivenNames v1 v2
  have hv1 : Sound q v1 := by
    unfold v1
    exact State.clear_sound hs
  try clear_value v1
  try clear_value v2
  exact Sound.upd hv1

theorem State.resumeAll_sound {q : List Instr} {s : State} {analog : Bool} (hs : Sound q s) :
    Sound q (State.resumeAll s analog) := by
  unfold State.resumeAll
  refine State.each_sound hs ?_
  intro a1 a2 ha1
  exact State.resume_sound ha1

theorem State.setPulse_sound {q : List Instr} {s : State} {c : ℕ} {t : Option ℕ} (hs : Sound q s) :
    Sound q (State.setPulse s c t) := by
  unfold State.setPulse
  exact Sound.upd hs

theorem State.setRfxCycle_sound {q : List Instr} {s : State} {y : RfxCycle} (hs : Sound q s) :
    Sound q (State.setRfxCycle s y) := by
  unfold State.setRfxCycle
  exact Sound.upd hs

theorem State.writeV_sound {q : List Instr} {s : State} {c : ℕ} {b : Bool} (hs : Sound q s) :
    Sound q (State.writeV s c b) := by
  unfold State.writeV
  refine State.applyVal_sound ?_
  refine State.setPulse_sound ?_
  exact State.setBit_sound hs

theorem State.writeCode_sound {q : List Instr} {s : State} {c : ℕ} {v : ℕ} (hs : Sound q s) :
    Sound q (State.writeCode s c v) := by
  unfold State.writeCode
  refine State.applyVal_sound ?_
  exact State.wr_sound hs

theorem State.aoWrite_sound {q : List Instr} {s : State} {c : ℕ} {v : ℕ} {src : ℕ} (hs : Sound q s) :
    Sound q (State.aoWrite s c v src) := by
  unfold State.aoWrite
  refine Sound.ite ?_ ?_
  · exact State.writeCode_sound hs
  · refine State.raise_sound ?_
    exact State.bump_sound hs

theorem State.rfxAction_sound {q : List Instr} {s : State} {r : ℕ} {lvl : Bool} {old : Bool} (hs : Sound q s) :
    Sound q (State.rfxAction s r lvl old) := by
  unfold State.rfxAction
  extract_lets -merge -useContext +onlyGivenNames v1
  try clear_value v1
  split
  · exact State.writeV_sound hs
  · exact State.writeV_sound hs
  · exact State.writeV_sound hs
  · refine State.setPulse_sound ?_
    exact State.writeV_sound hs
  · exact State.writeV_sound hs
  · exact State.writeV_sound hs
  · exact hs

theorem State.rfxSettle_sound {q : List Instr} {s : State} (hs : Sound q s) :
    Sound q (State.rfxSettle s) := by
  unfold State.rfxSettle
  extract_lets -merge -useContext +onlyGivenNames v1 v2 v3 v4 v5 v6 v7
  try clear_value v1
  try clear_value v2
  try clear_value v3
  try clear_value v4
  have hv5 : Sound q v5 := by
    unfold v5
    refine State.each_sound hs ?_
    intro a8 a9 ha8
    split
    · exact State.rfxAction_sound ha8
  try clear_value v5
  try clear_value v6
  have hv7 : Sound q v7 := by
    unfold v7
    refine State.each_sound hv5 ?_
    intro a10 a11 ha10
    split
    · exact State.writeV_sound ha10
  try clear_value v7
  refine State.setRfxCycle_sound ?_
  exact State.bumpBy_sound hv7

theorem State.otherV_sound {q : List Instr} {s : State} {c : ℕ} {b : Bool} (hs : Sound q s) :
    Sound q (State.otherV s c b) := by
  unfold State.otherV
  extract_lets -merge -useContext +onlyGivenNames v1
  try clear_value v1
  refine State.setRfxCycle_sound ?_
  exact State.writeV_sound hs

theorem State.ioBatch_sound {q : List Instr} {s : State} {dos : List (ℕ × Bool)} {aos : List (ℕ × ℕ)} (hs : Sound q s) :
    Sound q (State.ioBatch s dos aos) := by
  unfold State.ioBatch
  extract_lets -merge -useContext +onlyGivenNames v1 v2 v3 v4
  try clear_value v1
  have hv2 : Sound q v2 := by
    unfold v2
    refine State.each_sound hs ?_
    intro a5 a6 ha5
    split
    · refine Sound.ite ?_ ?_
      · exact ha5
      · exact State.otherV_sound ha5
  try clear_value v2
  have hv3 : Sound q v3 := by
    unfold v3
    exact State.rfxSettle_sound hv2
  try clear_value v3
  have hv4 : Sound q v4 := by
    unfold v4
    refine Sound.ite ?_ ?_
    · refine State.raise_sound ?_
      exact State.bump_sound hv3
    · exact hv3
  try clear_value v4
  refine State.each_sound hv4 ?_
  intro a7 a8 ha7
  split
  · exact State.aoWrite_sound ha7

theorem State.ioForce_sound {q : List Instr} {s : State} {o : OutCh} {forced : Bool} {v : Option ℕ} (hs : Sound q s) :
    Sound q (State.ioForce s o forced v) := by
  unfold State.ioForce
  split
  · extract_lets -merge -useContext +onlyGivenNames v1
    have hv1 : Sound q v1 := by
      unfold v1
      exact State.setBit_sound hs
    try clear_value v1
    split
    · exact State.otherV_sound hv1
    · exact hv1
  · extract_lets -merge -useContext +onlyGivenNames v2
    have hv2 : Sound q v2 := by
      unfold v2
      exact State.wrb_sound hs
    try clear_value v2
    split
    · exact State.writeCode_sound hv2
    · exact hv2

theorem State.rfxMark_sound {q : List Instr} {s : State} {r : ℕ} (hs : Sound q s) :
    Sound q (State.rfxMark s r) := by
  unfold State.rfxMark
  extract_lets -merge -useContext +onlyGivenNames v1 v2 v3 v4 v5 v6 v7 v8
  have hv1 : Sound q v1 := by
    unfold v1
    exact State.setBit_sound hs
  try clear_value v1
  have hv2 : Sound q v2 := by
    unfold v2
    refine Sound.ite ?_ ?_
    · exact State.setBit_sound hv1
    · exact hv1
  try clear_value v2
  try clear_value v3
  try clear_value v4
  have hv5 : Sound q v5 := by
    unfold v5
    refine Sound.ite ?_ ?_
    · refine State.setBit_sound ?_
      exact State.setRfxCycle_sound hv2
    · exact hv2
  try clear_value v5
  have hv6 : Sound q v6 := by
    unfold v6
    exact State.raise_sound hv5
  try clear_value v6
  try clear_value v7
  have hv8 : Sound q v8 := by
    unfold v8
    exact Sound.upd hv6
  try clear_value v8
  refine Sound.ite ?_ ?_
  · refine Sound.ite ?_ ?_
    · exact State.event_sound hv8
    · exact hv6
  · exact hv5

theorem State.rfxActivate_sound {q : List Instr} {s : State} {rs : List ℕ} (hs : Sound q s) :
    Sound q (State.rfxActivate s rs) := by
  unfold State.rfxActivate
  refine Sound.ite ?_ ?_
  · extract_lets -merge -useContext +onlyGivenNames v1
    try clear_value v1
    refine State.rfxSettle_sound ?_
    exact State.setRfxCycle_sound hs
  · exact hs

theorem State.rfxNoteArms_sound {q : List Instr} {s : State} (hs : Sound q s) :
    Sound q (State.rfxNoteArms s) := by
  unfold State.rfxNoteArms
  extract_lets -merge -useContext +onlyGivenNames v1
  try clear_value v1
  exact State.setRfxCycle_sound hs

theorem State.rfxFire_sound {q : List Instr} {s : State} {old : ℕ} (hs : Sound q s) :
    Sound q (State.rfxFire s old) := by
  unfold State.rfxFire
  refine Sound.ite ?_ ?_
  · extract_lets -merge -useContext +onlyGivenNames v1 v2 v3
    try clear_value v1
    try clear_value v2
    try clear_value v3
    refine State.each_sound ?_ ?_
    · refine State.rfxSettle_sound ?_
      exact State.setRfxCycle_sound hs
    · intro a4 a5 ha4
      exact State.rfxMark_sound ha4
  · exact hs

theorem State.setCnt_sound {q : List Instr} {s : State} {k : ℕ} {x2 : CntX} (hs : Sound q s) :
    Sound q (State.setCnt s k x2) := by
  unfold State.setCnt
  exact Sound.upd hs

theorem State.countOne_sound {q : List Instr} {s : State} {k : ℕ} {up : Bool} (hs : Sound q s) :
    Sound q (State.countOne s k up) := by
  unfold State.countOne
  extract_lets -merge -useContext +onlyGivenNames v1 v2 v3 v4 v5
  try clear_value v1
  try clear_value v2
  try clear_value v3
  have hv4 : Sound q v4 := by
    unfold v4
    exact State.setCnt_sound hs
  try clear_value v4
  have hv5 : Sound q v5 := by
    unfold v5
    exact State.wr_sound hv4
  try clear_value v5
  refine Sound.ite ?_ ?_
  · refine State.raise_sound ?_
    exact State.raise_sound hv5
  · exact hv5

theorem State.setCount_sound {q : List Instr} {s : State} {k : ℕ} {v : ℕ} (hs : Sound q s) :
    Sound q (State.setCount s k v) := by
  unfold State.setCount
  extract_lets -merge -useContext +onlyGivenNames v1
  have hv1 : Sound q v1 := by
    unfold v1
    exact State.wr_sound hs
  try clear_value v1
  split
  · refine Sound.ite ?_ ?_
    · exact State.countOne_sound hv1
    · exact hv1
  · exact hv1

theorem State.freqEdge_sound {q : List Instr} {s : State} {k : ℕ} (hs : Sound q s) :
    Sound q (State.freqEdge s k) := by
  unfold State.freqEdge
  extract_lets -merge -useContext +onlyGivenNames v1 v2 v3
  try clear_value v1
  try clear_value v2
  try clear_value v3
  split
  · exact State.setCnt_sound hs
  · exact State.setCnt_sound hs

theorem State.quad_sound {q : List Instr} {s : State} {k : ℕ} {old : ℕ} (hs : Sound q s) :
    Sound q (State.quad s k old) := by
  unfold State.quad
  extract_lets -merge -useContext +onlyGivenNames v1 v2 v3 v4 v5 v6 v7
  try clear_value v1
  try clear_value v2
  try clear_value v3
  try clear_value v4
  have hv5 : Sound q v5 := by
    unfold v5
    refine State.raise_sound ?_
    exact State.bump_sound hs
  try clear_value v5
  try clear_value v6
  try clear_value v7
  refine Sound.ite ?_ ?_
  · refine Sound.ite ?_ ?_
    · refine State.event_sound ?_
      exact State.setCnt_sound hv5
    · exact hv5
  · refine Sound.ite ?_ ?_
    · exact State.countOne_sound hs
    · exact hs

theorem State.countInput_sound {q : List Instr} {s : State} {old : ℕ} {k : ℕ} (hs : Sound q s) :
    Sound q (State.countInput s old k) := by
  unfold State.countInput
  extract_lets -merge -useContext +onlyGivenNames v1 v2 v3 v4 v5
  try clear_value v1
  try clear_value v2
  try clear_value v3
  try clear_value v4
  have hv5 : Sound q v5 := by
    unfold v5
    refine Sound.ite ?_ ?_
    · exact State.quad_sound hs
    · refine Sound.ite ?_ ?_
      · refine Sound.ite ?_ ?_
        · exact State.countOne_sound hs
        · exact hs
      · exact hs
  try clear_value v5
  refine Sound.ite ?_ ?_
  · exact State.freqEdge_sound hv5
  · exact hv5

theorem State.diStates_sound {q : List Instr} {s : State} {new : ℕ} (hs : Sound q s) :
    Sound q (State.diStates s new) := by
  unfold State.diStates
  extract_lets -merge -useContext +onlyGivenNames v1 v2 v3
  try clear_value v1
  have hv2 : Sound q v2 := by
    unfold v2
    exact State.wr_sound hs
  try clear_value v2
  have hv3 : Sound q v3 := by
    unfold v3
    exact State.wr_sound hv2
  try clear_value v3
  refine State.rfxFire_sound ?_
  refine State.each_sound hv3 ?_
  intro a4 a5 ha4
  exact State.countInput_sound ha4

theorem State.freqQuiet_sound {q : List Instr} {s : State} {k : ℕ} {x2 : CntX} (hs : Sound q s) :
    Sound q (State.freqQuiet s k x2) := by
  unfold State.freqQuiet
  extract_lets -merge -useContext +onlyGivenNames v1 v2 v3
  try clear_value v1
  try clear_value v2
  try clear_value v3
  refine Sound.ite ?_ ?_
  · refine State.raise_sound ?_
    refine State.wr_sound ?_
    exact State.setCnt_sound hs
  · exact State.setCnt_sound hs

theorem State.freqEnd_sound {q : List Instr} {s : State} {k : ℕ} (hs : Sound q s) :
    Sound q (State.freqEnd s k) := by
  unfold State.freqEnd
  extract_lets -merge -useContext +onlyGivenNames v1 v2 v3
  try clear_value v1
  have hv2 : Sound q v2 := by
    unfold v2
    exact State.setCnt_sound hs
  try clear_value v2
  have hv3 : Sound q v3 := by
    unfold v3
    exact State.setCnt_sound hv2
  try clear_value v3
  refine Sound.ite ?_ ?_
  · exact hv2
  · split
    · refine Sound.ite ?_ ?_
      · extract_lets -merge -useContext +onlyGivenNames v4 v5 v6
        try clear_value v4
        try clear_value v5
        have hv6 : Sound q v6 := by
          unfold v6
          refine Sound.ite ?_ ?_
          · refine State.taken_sound ?_
            exact State.wr_sound hv3
          · exact State.wr_sound hv3
        try clear_value v6
        exact State.clear_sound hv6
      · exact State.freqQuiet_sound hv2
    · exact State.freqQuiet_sound hv2

theorem State.setAi_sound {q : List Instr} {s : State} {ch : ℕ} {x2 : AiX} (hs : Sound q s) :
    Sound q (State.setAi s ch x2) := by
  unfold State.setAi
  exact Sound.upd hs

end Sys2Proof.Machine
end

