-- ==== Sys2Proof/Laws/SoundPairOps.lean ====
section
/-!
SUPPORT. Every operation of Machine/PairOps.lean keeps the queue and the canonical forms of memory and registers.
-/

namespace Sys2Proof.Machine

theorem State.setRole_sound {q : List Instr} {s : State} {r : ℕ} (hs : Sound q s) :
    Sound q (State.setRole s r) := by
  unfold State.setRole
  extract_lets -merge -useContext +onlyGivenNames v1 v2 v3
  have hv1 : Sound q v1 := by
    unfold v1
    refine Sound.ite ?_ ?_
    · exact hs
    · exact State.raise_sound hs
  try clear_value v1
  have hv2 : Sound q v2 := by
    unfold v2
    exact State.wr_sound hv1
  try clear_value v2
  try clear_value v3
  exact Sound.upd hv2

theorem State.setCfgmis_sound {q : List Instr} {s : State} (hs : Sound q s) :
    Sound q (State.setCfgmis s) := by
  unfold State.setCfgmis
  refine Sound.ite ?_ ?_
  · exact hs
  · refine State.pairEvent_sound ?_
    refine State.raise_sound ?_
    exact State.raise_sound hs

theorem State.needSync_sound {q : List Instr} {s : State} (hs : Sound q s) :
    Sound q (State.needSync s) := by
  unfold State.needSync
  refine State.raise_sound ?_
  exact State.clear_sound hs

theorem State.toStandby_sound {q : List Instr} {s : State} (hs : Sound q s) :
    Sound q (State.toStandby s) := by
  unfold State.toStandby
  extract_lets -merge -useContext +onlyGivenNames v1 v2
  have hv1 : Sound q v1 := by
    unfold v1
    refine State.needSync_sound ?_
    exact State.setRole_sound hs
  try clear_value v1
  try clear_value v2
  exact Sound.upd hv1

theorem State.claim_sound {q : List Instr} {s : State} (hs : Sound q s) :
    Sound q ((State.claim s)).2 := by
  unfold State.claim
  extract_lets -merge -useContext +onlyGivenNames v1 v2
  try clear_value v1
  try clear_value v2
  split
  · try dsimp -zeta only
    exact State.pairEvent_sound hs
  · try dsimp -zeta only
    refine State.wr_sound ?_
    exact State.putIdentRec_sound hs

theorem State.disableWith_sound {q : List Instr} {s : State} {u' : UnitId} {drain : State → State} {off : State → State} (hs : Sound q s) (hdrain : ∀ x0, Sound q x0 → Sound q (drain x0)) (hoff : ∀ x0, Sound q x0 → Sound q (off x0)) :
    Sound q (State.disableWith s u' drain off) := by
  unfold State.disableWith
  extract_lets -merge -useContext +onlyGivenNames v1 v2 v3
  try clear_value v1
  have hv2 : Sound q v2 := by
    unfold v2
    refine State.clear_sound ?_
    exact State.clear_sound hs
  try clear_value v2
  have hv3 : Sound q v3 := by
    unfold v3
    refine State.clear_sound ?_
    exact State.wr_sound hv2
  try clear_value v3
  refine Sound.ite ?_ ?_
  · refine hdrain _ ?_
    exact State.wr_sound hv2
  · refine Sound.ite ?_ ?_
    · refine hoff _ ?_
      split
      · exact State.clear_sound hv3
      · exact hv3
    · exact hv2

theorem State.stepDown_sound {q : List Instr} {s : State} (hs : Sound q s) :
    Sound q (State.stepDown s) := by
  have e0 : @State.stepDown = @State.stepDown := rfl
  conv at e0 => rhs; delta State.stepDown
  rw [e0]
  clear e0
  beta_reduce
  extract_lets -merge -useContext +onlyGivenNames v1 v2 v3 v4 v5
  have hv1 : Sound q v1 := by
    unfold v1
    exact State.closeGate_sound hs
  try clear_value v1
  have hv2 : Sound q v2 := by
    unfold v2
    refine State.disableWith_sound hv1 ?_ ?_
    · intro a6 ha6
      exact State.schDrain_sound ha6
    · intro a7 ha7
      exact State.schOff_sound ha7
  try clear_value v2
  have hv3 : Sound q v3 := by
    unfold v3
    refine State.disableWith_sound hv2 ?_ ?_
    · intro a8 ha8
      exact State.loopDrain_sound ha8
    · intro a9 ha9
      exact id_sound ha9
  try clear_value v3
  have hv4 : Sound q v4 := by
    unfold v4
    refine State.kaUpdate_sound ?_
    refine State.clear_sound ?_
    exact State.clear_sound hv3
  try clear_value v4
  have hv5 : Sound q v5 := by
    unfold v5
    refine State.each_sound hv4 ?_
    intro a10 a11 ha10
    exact State.freeSess_sound ha10
  try clear_value v5
  exact State.aliasLsa_sound hv5

theorem State.pairDone_sound {q : List Instr} {s : State} {result : ℕ} (hs : Sound q s) :
    Sound q (State.pairDone s result) := by
  unfold State.pairDone
  refine State.raise_sound ?_
  refine State.clear_sound ?_
  exact State.wr_sound hs

theorem State.pairDemote_sound {q : List Instr} {s : State} (hs : Sound q s) :
    Sound q (State.pairDemote s) := by
  unfold State.pairDemote
  refine Sound.ite ?_ ?_
  · exact hs
  · extract_lets -merge -useContext +onlyGivenNames v1 v2 v3
    have hv1 : Sound q v1 := by
      unfold v1
      refine State.stepDown_sound ?_
      refine Sound.ite ?_ ?_
      · refine State.pairDone_sound ?_
        exact State.clear_sound hs
      · exact hs
    try clear_value v1
    try clear_value v2
    have hv3 : Sound q v3 := by
      unfold v3
      exact Sound.upd hv1
    try clear_value v3
    refine State.pairEvent_sound ?_
    refine State.raise_sound ?_
    exact State.setRole_sound hv3

theorem State.pairOutrej_sound {q : List Instr} {s : State} {epoch : ℕ} (hs : Sound q s) :
    Sound q (State.pairOutrej s epoch) := by
  unfold State.pairOutrej
  refine Sound.ite ?_ ?_
  · exact hs
  · refine Sound.ite ?_ ?_
    · refine State.pairDemote_sound ?_
      exact State.raise_sound hs
    · refine Sound.ite ?_ ?_
      · extract_lets -merge -useContext +onlyGivenNames v1
        have hv1 : Sound q (v1).2 := by
          unfold v1
          exact State.claim_sound hs
        try clear_value v1
        refine Sound.ite ?_ ?_
        · exact State.pairEvent_sound hv1
        · exact hv1
      · exact hs

theorem State.p4Put_sound {q : List Instr} {s : State} {f : Leat} (hs : Sound q s) :
    Sound q (State.p4Put s f) := by
  unfold State.p4Put
  extract_lets -merge -useContext +onlyGivenNames v1 v2 v3 v4
  try clear_value v1
  try clear_value v2
  have hv3 : Sound q v3 := by
    unfold v3
    refine State.setPort_sound ?_
    exact State.tookSeq_sound hs
  try clear_value v3
  try clear_value v4
  exact Sound.upd hv3

theorem State.sendFantail_sound {q : List Instr} {s : State} {handoff : Bool} (hs : Sound q s) :
    Sound q (State.sendFantail s handoff) := by
  unfold State.sendFantail
  extract_lets -merge -useContext +onlyGivenNames v1 v2 v3 v4
  try clear_value v1
  try clear_value v2
  have hv3 : Sound q v3 := by
    unfold v3
    exact Sound.upd hs
  try clear_value v3
  have hv4 : Sound q v4 := by
    unfold v4
    refine Sound.ite ?_ ?_
    · exact State.p4Put_sound hv3
    · exact hv3
  try clear_value v4
  exact State.leatSend_sound hv4

theorem State.ptItem_sound {q : List Instr} {s : State} {i : ℕ} (hs : Sound q s) :
    Sound q (((State.ptItem s i)).2).2 := by
  unfold State.ptItem
  extract_lets -merge -useContext +onlyGivenNames v1
  have hv1 : Sound q (v1).st := by
    unfold v1
    exact State.fetch_sound hs
  try clear_value v1
  try dsimp -zeta only
  try dsimp -zeta only
  exact hv1

theorem State.ptItems_sound {q : List Instr} {s : State} {pts : List ℕ} (hs : Sound q s) :
    Sound q (((State.ptItems s pts)).2).2 := by
  unfold State.ptItems
  refine foldl_keep (P := fun (x : List MirItem × Option ℕ × State) => Sound q ((x).2).2) ?_ ?_
  · intro a1 a2 ha1
    beta_reduce at *
    split
    · rename_i p3 p4 p5 e6
      have hp5 : Sound q p5 := by
        refine Sound.ofSnd2 e6 ?_
        refine State.ptItem_sound ?_
        exact ha1
      try dsimp -zeta only
      try dsimp -zeta only
      exact hp5
  · try dsimp -zeta only
    try dsimp -zeta only
    exact hs

theorem State.mirrorCommit_sound {q : List Instr} {s : State} {t : ℕ} {c : ℕ} {pts : List ℕ} (hs : Sound q s) :
    Sound q (State.mirrorCommit s t c pts) := by
  unfold State.mirrorCommit
  refine Sound.ite ?_ ?_
  · exact hs
  · extract_lets -merge -useContext +onlyGivenNames v1
    try clear_value v1
    refine Sound.ite ?_ ?_
    · exact hs
    · split
      · rename_i p2 p3 p4 e5
        have hp4 : Sound q p4 := by
          refine Sound.ofSnd2 e5 ?_
          exact State.ptItems_sound hs
        split
        · exact State.queueBatch_sound hp4

theorem State.loopSweep_sound {q : List Instr} {s : State} (hs : Sound q s) :
    Sound q (State.loopSweep s) := by
  unfold State.loopSweep
  exact State.queueBatch_sound hs

theorem State.putMirror_sound {q : List Instr} {s : State} {f : MirFrame} (hs : Sound q s) :
    Sound q (State.putMirror s f) := by
  unfold State.putMirror
  extract_lets -merge -useContext +onlyGivenNames v1 v2
  try clear_value v1
  have hv2 : Sound q v2 := by
    unfold v2
    exact Sound.upd hs
  try clear_value v2
  refine Sound.ite ?_ ?_
  · exact State.p4Put_sound hv2
  · exact State.leatSend_sound hv2

theorem State.sendBatch_sound {q : List Instr} {s : State} {b : MirBatch} (hs : Sound q s) :
    Sound q (State.sendBatch s b) := by
  unfold State.sendBatch
  split
  · extract_lets -merge -useContext +onlyGivenNames v1 v2
    try clear_value v1
    have hv2 : Sound q v2 := by
      unfold v2
      exact Sound.upd hs
    try clear_value v2
    refine State.toFault_sound ?_
    refine State.raise_sound ?_
    exact State.egressHalt_sound hv2
  · extract_lets -merge -useContext +onlyGivenNames v3 v4 v5 v6
    have hv3 : Sound q v3 := by
      unfold v3
      refine State.each_sound hs ?_
      intro a7 a8 ha7
      exact State.putMirror_sound ha7
    try clear_value v3
    try clear_value v4
    have hv5 : Sound q v5 := by
      unfold v5
      exact Sound.upd hv3
    try clear_value v5
    have hv6 : Sound q v6 := by
      unfold v6
      refine Sound.ite ?_ ?_
      · exact State.clear_sound hv5
      · exact hv5
    try clear_value v6
    exact State.bump_sound hv6

theorem State.sendQueued_sound {q : List Instr} {s : State} (hs : Sound q s) :
    Sound q (State.sendQueued s) := by
  unfold State.sendQueued
  split
  · exact hs
  · refine Sound.ite ?_ ?_
    · refine State.sendBatch_sound ?_
      exact Sound.upd hs
    · exact hs

theorem State.mirrorFlush_sound {q : List Instr} {s : State} (hs : Sound q s) :
    Sound q (State.mirrorFlush s) := by
  unfold State.mirrorFlush
  refine foldl_keep (P := fun (x : State) => Sound q x) ?_ ?_
  · intro a1 a2 ha1
    beta_reduce at *
    exact State.sendQueued_sound ha1
  · exact hs

theorem State.handOff_sound {q : List Instr} {s : State} (hs : Sound q s) :
    Sound q (State.handOff s) := by
  unfold State.handOff
  extract_lets -merge -useContext +onlyGivenNames v1 v2 v3
  have hv1 : Sound q v1 := by
    unfold v1
    refine State.clear_sound ?_
    refine State.sendFantail_sound ?_
    exact State.mirrorFlush_sound hs
  try clear_value v1
  have hv2 : Sound q v2 := by
    unfold v2
    exact State.stepDown_sound hv1
  try clear_value v2
  have hv3 : Sound q v3 := by
    unfold v3
    refine Sound.ite ?_ ?_
    · refine State.wr_sound ?_
      exact State.schOff_sound hv2
    · exact hv2
  try clear_value v3
  refine State.pairDone_sound ?_
  refine State.toStandby_sound ?_
  exact State.endHold_sound hv3

theorem State.atHeld_sound {q : List Instr} {s : State} (hs : Sound q s) :
    Sound q (State.atHeld s) := by
  unfold State.atHeld
  refine Sound.ite ?_ ?_
  · exact State.handOff_sound hs
  · exact hs

end Sys2Proof.Machine
end

