-- ==== Sys2Proof/Laws/SoundImgOps.lean ====
section
/-!
SUPPORT. Every operation of Machine/ImgOps.lean keeps the queue and the canonical forms of memory and registers.
-/

namespace Sys2Proof.Machine

theorem State.recordSlot_sound {q : List Instr} {s : State} {a : ℕ} {range : Option ℕ} (hs : Sound q s) :
    Sound q ((State.recordSlot s a range)).2 := by
  unfold State.recordSlot
  extract_lets -merge -useContext +onlyGivenNames v1 v2 v3 v4 v5 v6 v7 v8 v9 v10
  have hv1 : Sound q (v1).st := by
    unfold v1
    exact State.fetch_sound hs
  try clear_value v1
  have hv2 : Sound q (v2).st := by
    unfold v2
    exact State.fetch_sound hv1
  try clear_value v2
  have hv3 : Sound q (v3).st := by
    unfold v3
    exact State.fetch_sound hv2
  try clear_value v3
  try clear_value v4
  try clear_value v5
  try clear_value v6
  try clear_value v7
  try clear_value v8
  try clear_value v9
  try clear_value v10
  try dsimp -zeta only
  exact hv3

theorem State.pointSlot_sound {q : List Instr} {s : State} {id : ℕ} (hs : Sound q s) :
    Sound q ((State.pointSlot s id)).2 := by
  unfold State.pointSlot
  split
  · rename_i p1 p2 e3
    have hp2 : Sound q p2 := by
      refine Sound.ofSnd e3 ?_
      split
      · exact State.recordSlot_sound hs
      · try dsimp -zeta only
        exact hs
      · split
        · try dsimp -zeta only
          exact hs
        · split
          · exact State.recordSlot_sound hs
          · try dsimp -zeta only
            exact State.bump_sound hs
    split
    · try dsimp -zeta only
      exact hp2
    · try dsimp -zeta only
      exact hp2

theorem State.inSlot_sound {q : List Instr} {s : State} {e : ImgEntry} (hs : Sound q s) :
    Sound q ((State.inSlot s e)).2 := by
  unfold State.inSlot
  split
  · exact State.pointSlot_sound hs
  · split
    · extract_lets -merge -useContext +onlyGivenNames v1 v2
      try clear_value v1
      try clear_value v2
      try dsimp -zeta only
      exact hs
    · split
      · try dsimp -zeta only
        exact hs
      · try dsimp -zeta only
        exact hs

theorem State.putSlot_sound {q : List Instr} {s : State} {a : ℕ} {x2 : Slot} (hs : Sound q s) :
    Sound q (State.putSlot s a x2) := by
  unfold State.putSlot
  extract_lets -merge -useContext +onlyGivenNames v1
  have hv1 : ∀ x0 x1 x2 x3, Sound q x0 → Sound q (v1 x0 x1 x2 x3) := by
    unfold v1
    intro a2 a3 a4 a5 ha2
    refine Sound.ite ?_ ?_
    · exact State.writePoison_sound ha2
    · exact State.writeNum_sound ha2
  try clear_value v1
  refine hv1 _ _ _ _ ?_
  exact hv1 _ _ _ _ hs

theorem State.inputCopy_sound {q : List Instr} {s : State} (hs : Sound q s) :
    Sound q (State.inputCopy s) := by
  unfold State.inputCopy
  split
  · refine Sound.ite ?_ ?_
    · exact hs
    · extract_lets -merge -useContext +onlyGivenNames v1 v2 v3 v4 v5
      try clear_value v1
      try clear_value v2
      have hv3 : Sound q v3 := by
        unfold v3
        exact Sound.upd hs
      try clear_value v3
      try clear_value v4
      have hv5 : Sound q v5 := by
        unfold v5
        refine State.each_sound hv3 ?_
        intro a6 a7 ha6
        exact State.setStn_sound ha6
      try clear_value v5
      refine State.each_sound hv5 ?_
      intro a8 a9 ha8
      split
      · rename_i p10 p11 e12
        have hp11 : Sound q p11 := by
          refine Sound.ofSnd e12 ?_
          exact State.inSlot_sound ha8
        extract_lets -merge -useContext +onlyGivenNames v13 v14
        have hv13 : Sound q v13 := by
          unfold v13
          exact State.putSlot_sound hp11
        try clear_value v13
        try clear_value v14
        exact State.setImgTask_sound hv13
  · exact hs

theorem State.unlockStn_sound {q : List Instr} {s : State} {n : ℕ} (hs : Sound q s) :
    Sound q (State.unlockStn s n) := by
  unfold State.unlockStn
  extract_lets -merge -useContext +onlyGivenNames v1
  try clear_value v1
  split
  · exact State.setStn_sound hs
  · exact State.setStn_sound hs

theorem State.copyComplete_sound {q : List Instr} {s : State} (hs : Sound q s) :
    Sound q (State.copyComplete s) := by
  unfold State.copyComplete
  split
  · exact hs
  · refine Sound.ite ?_ ?_
    · exact hs
    · extract_lets -merge -useContext +onlyGivenNames v1 v2 v3 v4 v5
      try clear_value v1
      have hv2 : Sound q v2 := by
        unfold v2
        exact State.advance_sound hs
      try clear_value v2
      have hv3 : Sound q v3 := by
        unfold v3
        refine State.each_sound hv2 ?_
        intro a6 a7 ha6
        exact State.unlockStn_sound ha6
      try clear_value v3
      try clear_value v4
      have hv5 : Sound q v5 := by
        unfold v5
        exact Sound.upd hv3
      try clear_value v5
      refine Sound.ite ?_ ?_
      · exact hv5
      · refine State.copyDone_sound ?_
        exact State.wr_sound hv5

theorem State.mirrorForce_sound {q : List Instr} {s : State} {set : List ℕ} {cleared : List ℕ} (hs : Sound q s) :
    Sound q (State.mirrorForce s set cleared) := by
  unfold State.mirrorForce
  exact State.queueBatch_sound hs

theorem State.syncForces_sound {q : List Instr} {s : State} (hs : Sound q s) :
    Sound q (State.syncForces s) := by
  unfold State.syncForces
  exact State.wr_sound hs

theorem State.setForce_sound {q : List Instr} {s : State} {i : ℕ} {f : Force} (hs : Sound q s) :
    Sound q (State.setForce s i f) := by
  unfold State.setForce
  refine State.syncForces_sound ?_
  refine State.putBytes_sound ?_
  exact Sound.upd hs

theorem State.forceItem_sound {q : List Instr} {s : State} {n : ℕ} {ofs : ℕ} {v : ℕ} (hs : Sound q s) :
    Sound q (State.forceItem s n ofs v) := by
  unfold State.forceItem
  split
  · refine State.forcedBlock_sound ?_
    exact State.setOut_sound hs
  · exact hs

theorem State.applyForce_sound {q : List Instr} {s : State} {k : ForceKey} {v : ℕ} (hs : Sound q s) :
    Sound q (State.applyForce s k v) := by
  unfold State.applyForce
  split
  · exact State.ownWrite_sound hs
  · exact State.ioForce_sound hs
  · exact State.ioForce_sound hs
  · exact State.forceItem_sound hs
  · exact hs

theorem State.releaseForce_sound {q : List Instr} {s : State} {k : ForceKey} {shadow : Option ℕ} (hs : Sound q s) :
    Sound q (State.releaseForce s k shadow) := by
  unfold State.releaseForce
  split
  · extract_lets -merge -useContext +onlyGivenNames v1 v2
    try clear_value v1
    try clear_value v2
    exact State.ownWrite_sound hs
  · exact State.ioForce_sound hs
  · exact State.ioForce_sound hs
  · split
    · exact State.forceItem_sound hs
    · exact hs
  · exact hs

theorem State.removeForce_sound {q : List Instr} {s : State} {i : ℕ} (hs : Sound q s) :
    Sound q (State.removeForce s i) := by
  unfold State.removeForce
  extract_lets -merge -useContext +onlyGivenNames v1 v2
  try clear_value v1
  have hv2 : Sound q v2 := by
    unfold v2
    exact State.setForce_sound hs
  try clear_value v2
  refine Sound.ite ?_ ?_
  · exact State.releaseForce_sound hv2
  · exact hv2

theorem State.forceDone_sound {q : List Instr} {s : State} {op : ℕ} {code : ℕ} {result : ℕ} (hs : Sound q s) :
    Sound q (State.forceDone s op code result) := by
  unfold State.forceDone
  extract_lets -merge -useContext +onlyGivenNames v1
  have hv1 : Sound q v1 := by
    unfold v1
    refine State.wr_sound ?_
    exact State.wr_sound hs
  try clear_value v1
  exact State.event_sound hv1

theorem State.forceSet_sound {q : List Instr} {s : State} (hs : Sound q s) :
    Sound q (State.forceSet s) := by
  unfold State.forceSet
  extract_lets -merge -useContext +onlyGivenNames v1 v2 v3
  try clear_value v1
  try clear_value v2
  try clear_value v3
  refine Sound.ite ?_ ?_
  · exact State.forceDone_sound hs
  · split
    · refine State.forceDone_sound ?_
      exact State.raise_sound hs
    · extract_lets -merge -useContext +onlyGivenNames v4 v5 v6
      try clear_value v4
      have hv5 : Sound q v5 := by
        unfold v5
        exact State.setForce_sound hs
      try clear_value v5
      have hv6 : Sound q v6 := by
        unfold v6
        refine Sound.ite ?_ ?_
        · exact State.applyForce_sound hv5
        · exact hv5
      try clear_value v6
      refine State.forceDone_sound ?_
      exact State.mirrorForce_sound hv6
    · extract_lets -merge -useContext +onlyGivenNames v7 v8
      have hv7 : Sound q v7 := by
        unfold v7
        exact State.setForce_sound hs
      try clear_value v7
      have hv8 : Sound q v8 := by
        unfold v8
        refine Sound.ite ?_ ?_
        · exact State.applyForce_sound hv7
        · exact hv7
      try clear_value v8
      refine State.forceDone_sound ?_
      exact State.mirrorForce_sound hv8

theorem State.forceClear_sound {q : List Instr} {s : State} (hs : Sound q s) :
    Sound q (State.forceClear s) := by
  unfold State.forceClear
  split
  · exact State.forceDone_sound hs
  · refine State.forceDone_sound ?_
    refine State.mirrorForce_sound ?_
    exact State.removeForce_sound hs

theorem State.forceClearAll_sound {q : List Instr} {s : State} (hs : Sound q s) :
    Sound q (State.forceClearAll s) := by
  unfold State.forceClearAll
  extract_lets -merge -useContext +onlyGivenNames v1 v2
  try clear_value v1
  have hv2 : Sound q v2 := by
    unfold v2
    refine State.each_sound hs ?_
    intro a3 a4 ha3
    exact State.removeForce_sound ha3
  try clear_value v2
  refine State.forceDone_sound ?_
  exact State.mirrorForce_sound hv2

theorem State.forcesOnline_sound {q : List Instr} {s : State} (hs : Sound q s) :
    Sound q (State.forcesOnline s) := by
  unfold State.forcesOnline
  extract_lets -merge -useContext +onlyGivenNames v1
  try clear_value v1
  refine State.each_sound hs ?_
  intro a2 a3 ha2
  split
  · refine State.event_sound ?_
    refine State.raise_sound ?_
    exact State.setForce_sound ha2

theorem State.forcesWarm_sound {q : List Instr} {s : State} (hs : Sound q s) :
    Sound q (State.forcesWarm s) := by
  unfold State.forcesWarm
  refine State.each_sound hs ?_
  intro a1 a2 ha1
  extract_lets -merge -useContext +onlyGivenNames v3 v4
  try clear_value v3
  have hv4 : Sound q v4 := by
    unfold v4
    exact State.setForce_sound ha1
  try clear_value v4
  refine Sound.ite ?_ ?_
  · exact ha1
  · refine Sound.ite ?_ ?_
    · refine State.event_sound ?_
      exact State.setForce_sound ha1
    · refine Sound.ite ?_ ?_
      · exact State.applyForce_sound hv4
      · exact hv4

theorem State.forcesCold_sound {q : List Instr} {s : State} (hs : Sound q s) :
    Sound q (State.forcesCold s) := by
  unfold State.forcesCold
  refine State.syncForces_sound ?_
  refine State.putBytes_sound ?_
  exact Sound.upd hs

theorem State.shadowForce_sound {q : List Instr} {s : State} {began : List ℕ} {key : ℕ} {v : ℕ} (hs : Sound q s) :
    Sound q (State.shadowForce s began key v) := by
  unfold State.shadowForce
  split
  · refine Sound.ite ?_ ?_
    · exact State.setForce_sound hs
    · exact hs
  · exact hs

theorem State.outSlot_sound {q : List Instr} {s : State} {a : ℕ} (hs : Sound q s) :
    Sound q ((State.outSlot s a)).2 := by
  unfold State.outSlot
  extract_lets -merge -useContext +onlyGivenNames v1 v2
  have hv1 : Sound q (v1).st := by
    unfold v1
    exact State.fetch_sound hs
  try clear_value v1
  try clear_value v2
  try dsimp -zeta only
  exact hv1

theorem State.readOuts_sound {q : List Instr} {s : State} {t : ℕ} {a : List ImgEntry} (hs : Sound q s) :
    Sound q ((State.readOuts s t a)).2 := by
  unfold State.readOuts
  split
  · try dsimp -zeta only
    exact hs
  · split
    · rename_i p1 p2 e3
      have hp2 : Sound q p2 := by
        refine Sound.ofSnd e3 ?_
        exact State.outSlot_sound hs
      split
      · rename_i p4 p5 e6
        have hp5 : Sound q p5 := by
          refine Sound.ofSnd e6 ?_
          exact State.readOuts_sound hp2
        try dsimp -zeta only
        exact hp5

theorem State.poisonOut_sound {q : List Instr} {s : State} {t : ℕ} {item : ℕ} (hs : Sound q s) :
    Sound q (State.poisonOut s t item) := by
  unfold State.poisonOut
  exact State.event_sound hs

theorem State.commitPoint_sound {q : List Instr} {s : State} {x1 : Xfer} {i : ℕ} {o : OutRead} {value : ℕ} {undeliv : Option Bool} {item : ItemForce} (hs : Sound q s) :
    Sound q (State.commitPoint s x1 i o value undeliv item) := by
  unfold State.commitPoint
  extract_lets -merge -useContext +onlyGivenNames v1 v2 v3 v4 v5 v6 v7
  try clear_value v1
  try clear_value v2
  try clear_value v3
  try clear_value v4
  try clear_value v5
  try clear_value v6
  try clear_value v7
  refine Sound.ite ?_ ?_
  · refine State.poisonOut_sound ?_
    exact State.ownWrite_sound hs
  · refine State.ownWrite_sound ?_
    refine Sound.ite ?_ ?_
    · exact State.shadowForce_sound hs
    · exact hs

theorem Gather.dig_sound {q : List Instr} {g : Gather} {x1 : Xfer} {e : ImgEntry} {o : OutRead} (hg : Sound q (g).st) :
    Sound q ((Gather.dig g x1 e o)).st := by
  unfold Gather.dig
  extract_lets -merge -useContext +onlyGivenNames v1 v2 v3
  try clear_value v1
  have hv2 : Sound q v2 := by
    unfold v2
    refine State.each_sound hg ?_
    intro a4 a5 ha4
    exact State.shadowForce_sound ha4
  try clear_value v2
  try clear_value v3
  split
  · try dsimp -zeta only
    exact State.poisonOut_sound hg
  · try dsimp -zeta only
    exact hv2

theorem Gather.ana_sound {q : List Instr} {g : Gather} {x1 : Xfer} {e : ImgEntry} {o : OutRead} (hg : Sound q (g).st) :
    Sound q ((Gather.ana g x1 e o)).st := by
  unfold Gather.ana
  extract_lets -merge -useContext +onlyGivenNames v1 v2
  try clear_value v1
  have hv2 : Sound q v2 := by
    unfold v2
    exact State.shadowForce_sound hg
  try clear_value v2
  split
  · try dsimp -zeta only
    exact State.poisonOut_sound hg
  · try dsimp -zeta only
    exact hv2

theorem Gather.sout_sound {q : List Instr} {g : Gather} {x1 : Xfer} {e : ImgEntry} {o : OutRead} (hg : Sound q (g).st) :
    Sound q ((Gather.sout g x1 e o)).st := by
  unfold Gather.sout
  extract_lets -merge -useContext +onlyGivenNames v1 v2 v3 v4 v5 v6 v7 v8 v9 v10 v11
  try clear_value v1
  try clear_value v2
  try clear_value v3
  try clear_value v4
  have hv5 : Sound q v5 := by
    unfold v5
    refine State.poisonOut_sound ?_
    exact State.raise_sound hg
  try clear_value v5
  try clear_value v6
  try clear_value v7
  try clear_value v8
  try clear_value v9
  have hv10 : Sound q v10 := by
    unfold v10
    refine Sound.ite ?_ ?_
    · exact State.shadowForce_sound hg
    · exact hg
  try clear_value v10
  try clear_value v11
  split
  · try dsimp -zeta only
    exact hv5
  · try dsimp -zeta only
    exact State.setOut_sound hv10

theorem Gather.entry_sound {q : List Instr} {g : Gather} {x1 : Xfer} {e : ImgEntry} {o : OutRead} (hg : Sound q (g).st) :
    Sound q ((Gather.entry g x1 e o)).st := by
  unfold Gather.entry
  split
  · extract_lets -merge -useContext +onlyGivenNames v1
    try clear_value v1
    try dsimp -zeta only
    exact State.commitPoint_sound hg
  · split
    · exact Gather.dig_sound hg
    · split
      · exact Gather.ana_sound hg
      · exact Gather.sout_sound hg

theorem State.stageJrn_sound {q : List Instr} {s : State} {r : JrnRec} (hs : Sound q s) :
    SomeSound q (State.stageJrn s r) := by
  unfold State.stageJrn
  split
  · extract_lets -merge -useContext +onlyGivenNames v1 v2
    try clear_value v1
    try clear_value v2
    refine SomeSound.some ?_
    refine State.bump_sound ?_
    exact Sound.upd hs
  · split
    · refine SomeSound.some ?_
      exact Sound.upd hs
    · exact SomeSound.none

theorem State.unstageJrn_sound {q : List Instr} {s : State} {x1 : Xfer} (hs : Sound q s) :
    Sound q (State.unstageJrn s x1) := by
  unfold State.unstageJrn
  split
  · exact Sound.upd hs
  · exact hs

theorem State.jrnRecord_sound {q : List Instr} {s : State} {t : ℕ} {c : ℕ} (hs : Sound q s) :
    Sound q ((State.jrnRecord s t c)).2 := by
  unfold State.jrnRecord
  extract_lets -merge -useContext +onlyGivenNames v1 v2 v3
  try clear_value v1
  have hv2 : Sound q (v2).st := by
    unfold v2
    exact State.fetch_sound hs
  try clear_value v2
  try clear_value v3
  try dsimp -zeta only
  exact hv2

theorem State.setCur_sound {q : List Instr} {s : State} {x1 : Option Xfer} (hs : Sound q s) :
    Sound q (State.setCur s x1) := by
  unfold State.setCur
  exact Sound.upd hs

theorem State.journalStep_sound {q : List Instr} {s : State} {x1 : Xfer} {r : JrnRec} (hs : Sound q s) :
    Sound q (State.journalStep s x1 r) := by
  unfold State.journalStep
  refine Sound.ite ?_ ?_
  · refine State.bump_sound ?_
    exact State.setCur_sound hs
  · extract_lets -merge -useContext +onlyGivenNames v1
    try clear_value v1
    split
    · rename_i p2 e3
      have hp2 : Sound q p2 := by
        refine Sound.ofSome e3 ?_
        exact State.stageJrn_sound hs
      exact State.setCur_sound hp2
    · exact State.setCur_sound hs

theorem State.commitJournal_sound {q : List Instr} {s : State} {x1 : Xfer} (hs : Sound q s) :
    Sound q (State.commitJournal s x1) := by
  unfold State.commitJournal
  refine Sound.ite ?_ ?_
  · exact hs
  · split
    · rename_i p1 p2 e3
      have hp2 : Sound q p2 := by
        refine Sound.ofSnd e3 ?_
        exact State.jrnRecord_sound hs
      exact State.journalStep_sound hp2

theorem State.commitStart_sound {q : List Instr} {s : State} (hs : Sound q s) :
    Sound q (State.commitStart s) := by
  have e0 : @State.commitStart = @State.commitStart := rfl
  conv at e0 => rhs; delta State.commitStart
  rw [e0]
  clear e0
  beta_reduce
  split
  · refine Sound.ite ?_ ?_
    · exact hs
    · split
      · rename_i p1 p2 e3
        have hp2 : Sound q p2 := by
          refine Sound.ofSnd e3 ?_
          exact State.readOuts_sound hs
        extract_lets -merge -useContext +onlyGivenNames v4 v5
        try clear_value v4
        try clear_value v5
        refine State.commitJournal_sound ?_
        exact Sound.upd hp2
  · exact hs

theorem State.commitStaged_sound {q : List Instr} {s : State} (hs : Sound q s) :
    Sound q (State.commitStaged s) := by
  unfold State.commitStaged
  split
  · split
    · exact State.journalStep_sound hs
    · exact hs
  · exact hs

theorem State.commitOutputs_sound {q : List Instr} {s : State} {x1 : Xfer} (hs : Sound q s) :
    Sound q (State.commitOutputs s x1) := by
  unfold State.commitOutputs
  extract_lets -merge -useContext +onlyGivenNames v1 v2 v3 v4
  have hv1 : Sound q (v1).st := by
    unfold v1
    refine foldl_keep (P := fun (x : Gather) => Sound q (x).st) ?_ ?_
    · intro a5 a6 ha5
      beta_reduce at *
      split
      · exact Gather.entry_sound ha5
    · try dsimp -zeta only
      exact hs
  try clear_value v1
  have hv2 : Sound q v2 := by
    unfold v2
    refine State.each_sound hv1 ?_
    intro a7 a8 ha7
    exact State.commitPoint_sound ha7
  try clear_value v2
  have hv3 : Sound q v3 := by
    unfold v3
    refine State.each_sound hv2 ?_
    intro a9 a10 ha9
    exact State.commitBlock_sound ha9
  try clear_value v3
  have hv4 : Sound q v4 := by
    unfold v4
    exact State.ioBatch_sound hv3
  try clear_value v4
  exact State.mirrorCommit_sound hv4

theorem State.commitComplete_sound {q : List Instr} {s : State} (hs : Sound q s) :
    Sound q (State.commitComplete s) := by
  unfold State.commitComplete
  split
  · exact hs
  · refine Sound.ite ?_ ?_
    · exact hs
    · extract_lets -merge -useContext +onlyGivenNames v1 v2 v3
      try clear_value v1
      have hv2 : Sound q v2 := by
        unfold v2
        refine State.commitOutputs_sound ?_
        exact State.advance_sound hs
      try clear_value v2
      have hv3 : Sound q v3 := by
        unfold v3
        refine State.wr_sound ?_
        exact State.setCur_sound hv2
      try clear_value v3
      exact State.commitDone_sound hv3

theorem State.journalWrite_sound {q : List Instr} {s : State} (hs : Sound q s) :
    Sound q (State.journalWrite s) := by
  unfold State.journalWrite
  split
  · exact hs
  · refine Sound.ite ?_ ?_
    · exact hs
    · extract_lets -merge -useContext +onlyGivenNames v1 v2 v3 v4 v5
      try clear_value v1
      have hv2 : Sound q v2 := by
        unfold v2
        exact Sound.upd hs
      try clear_value v2
      try clear_value v3
      have hv4 : Sound q v4 := by
        unfold v4
        exact State.putBytes_sound hv2
      try clear_value v4
      try clear_value v5
      split
      · extract_lets -merge -useContext +onlyGivenNames v6
        have hv6 : Sound q v6 := by
          unfold v6
          refine State.wr_sound ?_
          exact State.toFault_sound hv2
        try clear_value v6
        refine State.commitStaged_sound ?_
        refine State.egressHalt_sound ?_
        refine State.event_sound ?_
        exact State.raise_sound hv6
      · exact State.setImgTask_sound hv4

theorem State.syncMulti_sound {q : List Instr} {s : State} (hs : Sound q s) :
    Sound q (State.syncMulti s) := by
  unfold State.syncMulti
  extract_lets -merge -useContext +onlyGivenNames v1
  try clear_value v1
  refine State.each_sound hs ?_
  intro a2 a3 ha2
  extract_lets -merge -useContext +onlyGivenNames v4
  try clear_value v4
  refine Sound.ite ?_ ?_
  · exact ha2
  · exact State.writeNum_sound ha2

theorem State.stnsBegin_sound {q : List Instr} {s : State} (hs : Sound q s) :
    Sound q (State.stnsBegin s) := by
  unfold State.stnsBegin
  refine State.each_sound hs ?_
  intro a1 a2 ha1
  exact State.stnBegin_sound ha1

theorem State.imgStart_sound {q : List Instr} {s : State} (hs : Sound q s) :
    Sound q (State.imgStart s) := by
  unfold State.imgStart
  refine State.stnsBegin_sound ?_
  refine State.syncMulti_sound ?_
  exact State.wr_sound hs

theorem State.imgOff_sound {q : List Instr} {s : State} (hs : Sound q s) :
    Sound q (State.imgOff s) := by
  unfold State.imgOff
  refine State.each_sound hs ?_
  intro a1 a2 ha1
  exact State.stnEnd_sound ha1

theorem State.imgDrop_sound {q : List Instr} {s : State} (hs : Sound q s) :
    Sound q (State.imgDrop s) := by
  unfold State.imgDrop
  split
  · refine Sound.ite ?_ ?_
    · refine State.abortIter_sound ?_
      refine State.setCur_sound ?_
      exact State.unstageJrn_sound hs
    · refine State.each_sound ?_ ?_
      · exact State.setCur_sound hs
      · intro a1 a2 ha1
        exact State.unlockStn_sound ha1
  · refine Sound.ite ?_ ?_
    · refine State.abortIter_sound ?_
      exact Sound.upd hs
    · exact Sound.upd hs
  · exact hs

theorem State.imgXbar_sound {q : List Instr} {s : State} (hs : Sound q s) :
    Sound q (State.imgXbar s) := by
  unfold State.imgXbar
  refine State.imgDrop_sound ?_
  exact State.toFault_sound hs

end Sys2Proof.Machine
end

