-- ==== Sys2Proof/Laws/SoundGateOps.lean ====
section
/-!
SUPPORT. Every operation of Machine/GateOps.lean keeps the queue and the canonical forms of memory and registers.
-/

namespace Sys2Proof.Machine

theorem State.gateLook_sound {q : List Instr} {s : State} {id : ℕ} {resumed : Bool} (hs : Sound q s) :
    Sound q ((State.gateLook s id resumed)).2 := by
  unfold State.gateLook
  split
  · split
    · exact State.readFrame_sound hs
    · exact State.lookup_sound hs
  · exact State.lookup_sound hs

theorem State.see_sound {q : List Instr} {s : State} {masks : List ℕ} {x2 : Session} {id : ℕ} {resumed : Bool} (hs : Sound q s) :
    Sound q ((State.see s masks x2 id resumed)).2 := by
  unfold State.see
  split
  · rename_i p1 p2 p3 p4 e5
    have hp4 : Sound q p4 := by
      refine Sound.ofSnd e5 ?_
      exact State.gateLook_sound hs
    try dsimp -zeta only
    exact hp4
  · rename_i p6 e7
    have hp6 : Sound q p6 := by
      refine Sound.ofSnd e7 ?_
      exact State.gateLook_sound hs
    try dsimp -zeta only
    exact hp6
  · rename_i p8 e9
    have hp8 : Sound q p8 := by
      refine Sound.ofSnd e9 ?_
      exact State.gateLook_sound hs
    try dsimp -zeta only
    exact hp8
  · rename_i p10 e11
    have hp10 : Sound q p10 := by
      refine Sound.ofSnd e11 ?_
      exact State.gateLook_sound hs
    try dsimp -zeta only
    exact hp10
  · rename_i p12 e13
    have hp12 : Sound q p12 := by
      refine Sound.ofSnd e13 ?_
      exact State.gateLook_sound hs
    try dsimp -zeta only
    exact hp12

theorem State.counted_sound {q : List Instr} {s : State} {code : ℕ} (hs : Sound q s) :
    Sound q (State.counted s code) := by
  unfold State.counted
  refine Sound.ite ?_ ?_
  · exact hs
  · exact State.refuses_sound hs

theorem State.writeItem_sound {q : List Instr} {s : State} {x1 : Session} {id : ℕ} {it : List Byte} {seen : Sight} (hs : Sound q s) :
    Sound q ((State.writeItem s x1 id it seen)).2 := by
  unfold State.writeItem
  split
  · try dsimp -zeta only
    exact hs
  · try dsimp -zeta only
    exact hs
  · split
    · split
      · try dsimp -zeta only
        exact hs
      · split
        · try dsimp -zeta only
          exact hs
        · try dsimp -zeta only
          exact State.ownWrite_sound hs
    · try dsimp -zeta only
      exact hs

theorem State.subOne_sound {q : List Instr} {s : State} {k : ℕ} {id : ℕ} {per : ℕ} (hs : Sound q s) :
    Sound q ((State.subOne s k id per)).2 := by
  unfold State.subOne
  extract_lets -merge -useContext +onlyGivenNames v1 v2 v3
  try clear_value v1
  try clear_value v2
  try clear_value v3
  split
  · try dsimp -zeta only
    exact Sound.upd hs
  · split
    · try dsimp -zeta only
      exact State.raise_sound hs
    · try dsimp -zeta only
      exact Sound.upd hs

theorem State.jobItem_sound {q : List Instr} {s : State} {j : GateJob} {resumed : Bool} {it : List Byte} (hs : Sound q s) :
    Sound q ((State.jobItem s j resumed it)).2 := by
  unfold State.jobItem
  extract_lets -merge -useContext +onlyGivenNames v1 v2
  try clear_value v1
  try clear_value v2
  split
  · rename_i p3 p4 e5
    have hp4 : Sound q p4 := by
      refine Sound.ofSnd e5 ?_
      exact State.see_sound hs
    split
    · try dsimp -zeta only
      exact hp4
    · split
      · split
        · try dsimp -zeta only
          exact hp4
        · try dsimp -zeta only
          exact State.refuses_sound hp4
        · try dsimp -zeta only
          exact hp4
      · split
        · rename_i p6 p7 e8
          have hp7 : Sound q p7 := by
            refine Sound.ofSnd e8 ?_
            exact State.writeItem_sound hp4
          try dsimp -zeta only
          exact State.counted_sound hp7
      · split
        · split
          · rename_i p9 p10 e11
            have hp10 : Sound q p10 := by
              refine Sound.ofSnd e11 ?_
              exact State.subOne_sound hp4
            try dsimp -zeta only
            exact State.counted_sound hp10
        · try dsimp -zeta only
          exact State.refuses_sound hp4
        · try dsimp -zeta only
          exact hp4
      · split
        · split
          · try dsimp -zeta only
            exact hp4
          · try dsimp -zeta only
            exact hp4
        · split
          · try dsimp -zeta only
            exact hp4
          · try dsimp -zeta only
            exact hp4
        · try dsimp -zeta only
          exact hp4

theorem State.pushed_sound {q : List Instr} {s : State} {k : ℕ} {items : List (List Byte)} (hs : Sound q s) :
    Sound q (State.pushed s k items) := by
  unfold State.pushed
  extract_lets -merge -useContext +onlyGivenNames v1 v2
  try clear_value v1
  try clear_value v2
  exact Sound.upd hs

theorem State.finishJob_sound {q : List Instr} {s : State} {j : GateJob} (hs : Sound q s) :
    Sound q (State.finishJob s j) := by
  unfold State.finishJob
  extract_lets -merge -useContext +onlyGivenNames v1 v2 v3 v4 v5
  try clear_value v1
  have hv2 : Sound q v2 := by
    unfold v2
    refine State.each_sound hs ?_
    intro a6 a7 ha6
    extract_lets -merge -useContext +onlyGivenNames v8 v9
    try clear_value v8
    have hv9 : Sound q (v9).2 := by
      unfold v9
      refine State.charge_sound ?_
      exact State.taken_sound ha6
    try clear_value v9
    refine Sound.ite ?_ ?_
    · refine State.pushed_sound ?_
      exact State.sendSess_sound hv9
    · exact hv9
  try clear_value v2
  have hv3 : Sound q v3 := by
    unfold v3
    exact State.bump_sound hs
  try clear_value v3
  try clear_value v4
  try clear_value v5
  split
  · refine Sound.ite ?_ ?_
    · exact State.freeSess_sound hv2
    · exact hv2
  · refine Sound.ite ?_ ?_
    · exact State.sendSess_sound hv3
    · refine State.sendSess_sound ?_
      exact State.sendSess_sound hv3
  · refine State.sendSess_sound ?_
    exact State.bump_sound hs
  · refine State.sendSess_sound ?_
    exact State.bump_sound hs

theorem State.runJob_sound {q : List Instr} {s : State} {j : GateJob} {resumed : Bool} {a : List (List Byte)} (hs : Sound q s) :
    Sound q (State.runJob s j resumed a) := by
  unfold State.runJob
  split
  · exact State.finishJob_sound hs
  · split
    · rename_i p1 e2
      have hp1 : Sound q p1 := by
        refine Sound.ofSnd e2 ?_
        exact State.jobItem_sound hs
      exact Sound.upd hp1
    · rename_i p3 e4
      have hp3 : Sound q p3 := by
        refine Sound.ofSnd e4 ?_
        exact State.jobItem_sound hs
      exact State.runJob_sound hp3
    · rename_i p5 p6 e7
      have hp6 : Sound q p6 := by
        refine Sound.ofSnd e7 ?_
        exact State.jobItem_sound hs
      exact State.runJob_sound hp6

theorem State.gateResume_sound {q : List Instr} {s : State} {ids : Option (List ℕ)} (hs : Sound q s) :
    Sound q (State.gateResume s ids) := by
  unfold State.gateResume
  extract_lets -merge -useContext +onlyGivenNames v1
  try clear_value v1
  refine State.each_sound hs ?_
  intro a2 a3 ha2
  split
  · refine State.runJob_sound ?_
    exact Sound.upd ha2
  · exact ha2

theorem State.closeSess_sound {q : List Instr} {s : State} {k : ℕ} (hs : Sound q s) :
    Sound q (State.closeSess s k) := by
  unfold State.closeSess
  refine Sound.ite ?_ ?_
  · exact hs
  · refine Sound.ite ?_ ?_
    · exact State.setSess_sound hs
    · exact State.freeSess_sound hs

theorem State.gateForce_sound {q : List Instr} {s : State} {op : ℕ} {key : ℕ} {value : ℕ} (hs : Sound q s) :
    Sound q ((State.gateForce s op key value)).2 := by
  unfold State.gateForce
  extract_lets -merge -useContext +onlyGivenNames v1 v2
  have hv1 : Sound q v1 := by
    unfold v1
    refine State.wr64_sound ?_
    exact State.wr_sound hs
  try clear_value v1
  have hv2 : Sound q v2 := by
    unfold v2
    refine Sound.ite ?_ ?_
    · exact State.forceSet_sound hv1
    · refine Sound.ite ?_ ?_
      · exact State.forceClear_sound hv1
      · exact State.forceClearAll_sound hv1
  try clear_value v2
  try dsimp -zeta only
  exact hv2

theorem State.serve_sound {q : List Instr} {s : State} {k : ℕ} {f : Leat} {reqid : ℕ} {r : Request} (hs : Sound q s) :
    Sound q (State.serve s k f reqid r) := by
  unfold State.serve
  split
  · exact State.runJob_sound hs
  · extract_lets -merge -useContext +onlyGivenNames v1 v2
    try clear_value v1
    have hv2 : Sound q v2 := by
      unfold v2
      exact Sound.upd hs
    try clear_value v2
    refine State.sendSess_sound ?_
    exact State.bump_sound hv2
  · split
    · rename_i p3 p4 e5
      have hp4 : Sound q p4 := by
        refine Sound.ofSnd e5 ?_
        exact State.gateForce_sound hs
      refine State.sendReply_sound ?_
      refine Sound.ite ?_ ?_
      · exact State.bump_sound hp4
      · exact State.refuses_sound hp4
  · refine State.sendReply_sound ?_
    exact State.bump_sound hs
  · refine State.sendSess_sound ?_
    exact State.bump_sound hs
  · exact hs

theorem State.gateRequest_sound {q : List Instr} {s : State} {k : ℕ} {f : Leat} {pt : List Byte} (hs : Sound q s) :
    Sound q (State.gateRequest s k f pt) := by
  unfold State.gateRequest
  extract_lets -merge -useContext +onlyGivenNames v1 v2
  try clear_value v1
  try clear_value v2
  refine Sound.ite ?_ ?_
  · refine State.sendRefuse_sound ?_
    exact State.bump_sound hs
  · refine Sound.ite ?_ ?_
    · exact State.sendRefuse_sound hs
    · exact State.serve_sound hs

theorem State.rateRefused_sound {q : List Instr} {s : State} {k : ℕ} {f : Leat} {reqid : ℕ} (hs : Sound q s) :
    Sound q (State.rateRefused s k f reqid) := by
  unfold State.rateRefused
  extract_lets -merge -useContext +onlyGivenNames v1 v2
  have hv1 : Sound q v1 := by
    unfold v1
    refine State.raise_sound ?_
    exact State.bump_sound hs
  try clear_value v1
  try clear_value v2
  refine Sound.ite ?_ ?_
  · refine State.sendRefuse_sound ?_
    exact State.setSess_sound hv1
  · exact hv1

theorem State.confirm_sound {q : List Instr} {s : State} {k : ℕ} {f : Leat} {reqid : ℕ} (hs : Sound q s) :
    Sound q (State.confirm s k f reqid) := by
  unfold State.confirm
  extract_lets -merge -useContext +onlyGivenNames v1 v2 v3
  try clear_value v1
  try clear_value v2
  have hv3 : Sound q v3 := by
    unfold v3
    exact State.setSess_sound hs
  try clear_value v3
  refine State.sendReply_sound ?_
  exact State.bump_sound hv3

theorem State.openFrame_sound {q : List Instr} {s : State} {k : ℕ} {f : Leat} (hs : Sound q s) :
    Sound q ((State.openFrame s k f)).2 := by
  unfold State.openFrame
  split
  · try dsimp -zeta only
    refine State.raise_sound ?_
    refine State.bump_sound ?_
    exact State.keyCount_sound hs
  · extract_lets -merge -useContext +onlyGivenNames v1
    have hv1 : Sound q v1 := by
      unfold v1
      exact State.keyCount_sound hs
    try clear_value v1
    split
    · try dsimp -zeta only
      exact hv1
    · try dsimp -zeta only
      exact State.bump_sound hv1

theorem State.gateCharged_sound {q : List Instr} {s : State} {k : ℕ} {f : Leat} {pt : List Byte} {reqid : ℕ} (hs : Sound q s) :
    Sound q (State.gateCharged s k f pt reqid) := by
  unfold State.gateCharged
  extract_lets -merge -useContext +onlyGivenNames v1
  have hv1 : Sound q (v1).2 := by
    unfold v1
    exact State.charge_sound hs
  try clear_value v1
  refine Sound.ite ?_ ?_
  · exact State.gateRequest_sound hv1
  · exact State.rateRefused_sound hv1

theorem State.gatePlain_sound {q : List Instr} {s : State} {k : ℕ} {f : Leat} {pt : List Byte} (hs : Sound q s) :
    Sound q (State.gatePlain s k f pt) := by
  unfold State.gatePlain
  extract_lets -merge -useContext +onlyGivenNames v1 v2 v3 v4
  try clear_value v1
  try clear_value v2
  try clear_value v3
  have hv4 : Sound q v4 := by
    unfold v4
    exact State.setSess_sound hs
  try clear_value v4
  refine Sound.ite ?_ ?_
  · refine Sound.ite ?_ ?_
    · exact State.confirm_sound hs
    · refine Sound.ite ?_ ?_
      · refine State.sendRefuse_sound ?_
        exact State.bump_sound hs
      · exact State.refuseNosess_sound hs
  · refine Sound.ite ?_ ?_
    · exact State.sendRefuse_sound hv4
    · exact State.gateCharged_sound hv4

theorem State.gateOpened_sound {q : List Instr} {s : State} {k : ℕ} {f : Leat} (hs : Sound q s) :
    Sound q (State.gateOpened s k f) := by
  have e0 : @State.gateOpened = @State.gateOpened := rfl
  conv at e0 => rhs; delta State.gateOpened
  rw [e0]
  clear e0
  beta_reduce
  split
  · rename_i p1 e2
    have hp1 : Sound q p1 := by
      refine Sound.ofSnd e2 ?_
      exact State.openFrame_sound hs
    exact hp1
  · rename_i p3 p4 e5
    have hp4 : Sound q p4 := by
      refine Sound.ofSnd e5 ?_
      exact State.openFrame_sound hs
    exact State.gatePlain_sound hp4

theorem State.openAck_sound {q : List Instr} {s : State} {f : Leat} {t : ℕ} {ten : Tenant} {kt : List Byte} {k : ℕ} (hs : Sound q s) :
    Sound q (State.openAck s f t ten kt k) := by
  unfold State.openAck
  extract_lets -merge -useContext +onlyGivenNames v1 v2 v3 v4 v5 v6 v7
  try clear_value v1
  try clear_value v2
  try clear_value v3
  try clear_value v4
  try clear_value v5
  try clear_value v6
  try clear_value v7
  split
  · rename_i p8 e9
    have hp8 : Sound q p8 := by
      refine Sound.ofSnd e9 ?_
      refine State.establish_sound ?_
      exact State.drawn_sound hs
    exact State.refuseRaw_sound hp8
  · rename_i p10 p11 e12
    have hp11 : Sound q p11 := by
      refine Sound.ofSnd e12 ?_
      refine State.establish_sound ?_
      exact State.drawn_sound hs
    extract_lets -merge -useContext +onlyGivenNames v13 v14 v15 v16
    have hv13 : Sound q v13 := by
      unfold v13
      exact State.setSess_sound hp11
    try clear_value v13
    try clear_value v14
    try clear_value v15
    try clear_value v16
    refine Sound.ite ?_ ?_
    · refine State.txIn_sound ?_
      exact State.tookSeq_sound hv13
    · exact hv13

theorem State.openIn_sound {q : List Instr} {s : State} {f : Leat} (hs : Sound q s) :
    Sound q (State.openIn s f) := by
  have e0 : @State.openIn = @State.openIn := rfl
  conv at e0 => rhs; delta State.openIn
  rw [e0]
  clear e0
  beta_reduce
  extract_lets -merge -useContext +onlyGivenNames v1 v2 v3
  try clear_value v1
  try clear_value v2
  have hv3 : Sound q (v3).2 := by
    unfold v3
    exact State.openCharge_sound hs
  try clear_value v3
  refine Sound.ite ?_ ?_
  · exact State.refuseRaw_sound hs
  · refine Sound.ite ?_ ?_
    · exact hv3
    · split
      · rename_i p4 e5
        have hp4 : Sound q p4 := by
          refine Sound.ofSnd e5 ?_
          exact State.tenantUse_sound hv3
        split
        · rename_i p6 p7 e8
          have hp7 : Sound q p7 := by
            refine Sound.ofSnd e8 ?_
            exact State.tenant_sound hp4
          extract_lets -merge -useContext +onlyGivenNames v9 v10
          try clear_value v9
          try clear_value v10
          refine Sound.ite ?_ ?_
          · refine State.raise_sound ?_
            exact State.bump_sound hp7
          · refine Sound.ite ?_ ?_
            · exact State.refuseRaw_sound hp7
            · refine Sound.ite ?_ ?_
              · exact State.refuseRaw_sound hp7
              · split
                · refine State.refuseRaw_sound ?_
                  exact State.raise_sound hp7
                · exact State.openAck_sound hp7
      · rename_i p11 p12 _ e13
        have hp12 : Sound q p12 := by
          refine Sound.ofSnd e13 ?_
          exact State.tenantUse_sound hv3
        exact State.refuseRaw_sound hp12

theorem State.abandonIn_sound {q : List Instr} {s : State} {f : Leat} (hs : Sound q s) :
    Sound q (State.abandonIn s f) := by
  have e0 : @State.abandonIn = @State.abandonIn := rfl
  conv at e0 => rhs; delta State.abandonIn
  rw [e0]
  clear e0
  beta_reduce
  extract_lets -merge -useContext +onlyGivenNames v1 v2 v3 v4 v5
  try clear_value v1
  try clear_value v2
  try clear_value v3
  try clear_value v4
  have hv5 : Sound q (v5).2 := by
    unfold v5
    exact State.openCharge_sound hs
  try clear_value v5
  refine Sound.ite ?_ ?_
  · exact hv5
  · split
    · rename_i p6 e7
      have hp6 : Sound q p6 := by
        refine Sound.ofSnd e7 ?_
        exact State.tenantUse_sound hv5
      split
      · rename_i p8 p9 e10
        have hp9 : Sound q p9 := by
          refine Sound.ofSnd e10 ?_
          exact State.tenant_sound hp6
        extract_lets -merge -useContext +onlyGivenNames v11
        try clear_value v11
        refine Sound.ite ?_ ?_
        · refine State.raise_sound ?_
          exact State.bump_sound hp9
        · refine Sound.ite ?_ ?_
          · exact State.freeSess_sound hp9
          · exact State.bump_sound hp9
    · rename_i p12 p13 _ e14
      have hp13 : Sound q p13 := by
        refine Sound.ofSnd e14 ?_
        exact State.tenantUse_sound hv5
      exact State.bump_sound hp13

theorem State.gateFrame_sound {q : List Instr} {s : State} {f : Leat} (hs : Sound q s) :
    Sound q (State.gateFrame s f) := by
  unfold State.gateFrame
  extract_lets -merge -useContext +onlyGivenNames v1 v2
  have hv1 : Sound q v1 := by
    unfold v1
    exact State.takeInbox_sound hs
  try clear_value v1
  try clear_value v2
  refine Sound.ite ?_ ?_
  · exact hv1
  · refine Sound.ite ?_ ?_
    · refine Sound.ite ?_ ?_
      · exact State.openIn_sound hv1
      · refine Sound.ite ?_ ?_
        · exact State.abandonIn_sound hv1
        · exact State.bump_sound hv1
    · split
      · exact State.refuseNosess_sound hv1
      · split
        · rename_i p3 e4
          have hp3 : Sound q p3 := by
            refine Sound.ofSnd e4 ?_
            exact State.askUse_sound hv1
          exact State.gateOpened_sound hp3
        · rename_i p5 e6
          have hp5 : Sound q p5 := by
            refine Sound.ofSnd e6 ?_
            exact State.askUse_sound hv1
          exact hp5

theorem State.quenchOpened_sound {q : List Instr} {s : State} {p : ℕ} {k : ℕ} {f : Leat} (hs : Sound q s) :
    Sound q (State.quenchOpened s p k f) := by
  unfold State.quenchOpened
  extract_lets -merge -useContext +onlyGivenNames v1 v2 v3 v4 v5
  try clear_value v1
  have hv2 : Sound q v2 := by
    unfold v2
    exact State.keyCount_sound hs
  try clear_value v2
  try clear_value v3
  try clear_value v4
  have hv5 : Sound q v5 := by
    unfold v5
    exact State.setSess_sound hv2
  try clear_value v5
  refine Sound.ite ?_ ?_
  · refine State.raise_sound ?_
    refine State.bump_sound ?_
    exact State.keyCount_sound hs
  · refine Sound.ite ?_ ?_
    · exact State.bump_sound hv2
    · refine Sound.ite ?_ ?_
      · exact State.refuseNosess_sound hv2
      · refine Sound.ite ?_ ?_
        · exact State.sendRefuse_sound hv5
        · refine Sound.ite ?_ ?_
          · exact State.sendRefuse_sound hv5
          · exact State.quenchHop_sound hv5

theorem State.authQuenchIn_sound {q : List Instr} {s : State} {p : ℕ} {f : Leat} (hs : Sound q s) :
    Sound q (State.authQuenchIn s p f) := by
  have e0 : @State.authQuenchIn = @State.authQuenchIn := rfl
  conv at e0 => rhs; delta State.authQuenchIn
  rw [e0]
  clear e0
  beta_reduce
  have h1 := State.takeInbox_sound (typ := f.typ) (src := f.src) (payload := f.payload) hs
  revert h1
  generalize s.takeInbox f.typ f.src f.payload = t
  intro h1
  refine Sound.ite h1 (Sound.ite (State.bump_sound h1) ?_)
  generalize t.sessionOf f = o
  cases o with
  | none => exact State.refuseNosess_sound h1
  | some k =>
    dsimp only
    have h2 := State.askUse_sound (k := k) (act := .quench p f) h1
    revert h2
    generalize t.askUse k (.quench p f) = r
    intro h2
    obtain ⟨x, u⟩ := r
    cases x
    · exact h2
    · exact State.quenchOpened_sound h2

theorem State.pushDue_sound {q : List Instr} {s : State} {k : ℕ} (hs : Sound q s) :
    Sound q (State.pushDue s k) := by
  unfold State.pushDue
  extract_lets -merge -useContext +onlyGivenNames v1
  try clear_value v1
  split
  · exact hs
  · refine Sound.ite ?_ ?_
    · exact hs
    · extract_lets -merge -useContext +onlyGivenNames v2 v3 v4 v5 v6
      have hv2 : Sound q v2 := by
        unfold v2
        exact State.advance_sound hs
      try clear_value v2
      try clear_value v3
      try clear_value v4
      try clear_value v5
      have hv6 : Sound q v6 := by
        unfold v6
        exact Sound.upd hv2
      try clear_value v6
      exact State.runJob_sound hv6

theorem State.expire_sound {q : List Instr} {s : State} {k : ℕ} (hs : Sound q s) :
    Sound q (State.expire s k) := by
  unfold State.expire
  extract_lets -merge -useContext +onlyGivenNames v1 v2 v3
  try clear_value v1
  have hv2 : Sound q v2 := by
    unfold v2
    exact State.setSess_sound hs
  try clear_value v2
  try clear_value v3
  exact Sound.upd hv2

theorem State.closeTenant_sound {q : List Instr} {s : State} {t : ℕ} (hs : Sound q s) :
    Sound q (State.closeTenant s t) := by
  unfold State.closeTenant
  refine State.each_sound hs ?_
  intro a1 a2 ha1
  exact State.closeSess_sound ha1

theorem State.tcmdDone_sound {q : List Instr} {s : State} {t : ℕ} {op : ℕ} (hs : Sound q s) :
    Sound q (State.tcmdDone s t op) := by
  unfold State.tcmdDone
  refine State.raise_sound ?_
  refine State.clear_sound ?_
  refine State.wr_sound ?_
  exact State.wr_sound hs

theorem State.gateStart_sound {q : List Instr} {s : State} (hs : Sound q s) :
    Sound q (State.gateStart s) := by
  unfold State.gateStart
  extract_lets -merge -useContext +onlyGivenNames v1 v2
  try clear_value v1
  try clear_value v2
  exact Sound.upd hs

theorem State.gateOff_sound {q : List Instr} {s : State} (hs : Sound q s) :
    Sound q (State.gateOff s) := by
  unfold State.gateOff
  refine State.each_sound hs ?_
  intro a1 a2 ha1
  exact State.freeSess_sound ha1

theorem State.gateXbar_sound {q : List Instr} {s : State} (hs : Sound q s) :
    Sound q (State.gateXbar s) := by
  unfold State.gateXbar
  exact Sound.upd hs

end Sys2Proof.Machine
end

