-- ==== Sys2Proof/Laws/SoundLoopOps.lean ====
section
/-!
SUPPORT. Every operation of Machine/LoopOps.lean keeps the queue and the canonical forms of memory and registers.
-/

namespace Sys2Proof.Machine

theorem State.ownSource_sound {q : List Instr} {s : State} {i : ℕ} (hs : Sound q s) :
    Sound q ((State.ownSource s i)).2 := by
  unfold State.ownSource
  split
  · try dsimp -zeta only
    exact hs
  · extract_lets -merge -useContext +onlyGivenNames v1 v2
    have hv1 : Sound q (v1).st := by
      unfold v1
      exact State.fetch_sound hs
    try clear_value v1
    try clear_value v2
    try dsimp -zeta only
    exact hv1

theorem State.loopSource_sound {q : List Instr} {s : State} {w : Word} (hs : Sound q s) :
    Sound q ((State.loopSource s w)).2 := by
  unfold State.loopSource
  extract_lets -merge -useContext +onlyGivenNames v1
  try clear_value v1
  split
  · try dsimp -zeta only
    exact hs
  · exact State.ownSource_sound hs
  · try dsimp -zeta only
    exact hs
  · try dsimp -zeta only
    exact hs
  · try dsimp -zeta only
    exact hs

theorem State.loopPoint_sound {q : List Instr} {s : State} {i : ℕ} {x2 : Word} {q' : ℕ} {start : ℕ} (hs : Sound q s) :
    Sound q (State.loopPoint s i x2 q' start) := by
  unfold State.loopPoint
  extract_lets -merge -useContext +onlyGivenNames v1 v2 v3 v4 v5 v6
  try clear_value v1
  try clear_value v2
  try clear_value v3
  have hv4 : Sound q v4 := by
    unfold v4
    exact State.taken_sound hs
  try clear_value v4
  try clear_value v5
  try clear_value v6
  refine State.ownWrite_sound ?_
  refine Sound.ite ?_ ?_
  · exact State.shadowForce_sound hv4
  · exact hv4

theorem State.loopDest_sound {q : List Instr} {s : State} {dest : Word} {u' : Word} {gain : Word} {ofs : Word} {q' : ℕ} {start : ℕ} (hs : Sound q s) :
    Sound q (State.loopDest s dest u' gain ofs q' start) := by
  unfold State.loopDest
  extract_lets -merge -useContext +onlyGivenNames v1 v2
  try clear_value v1
  try clear_value v2
  split
  · refine Sound.ite ?_ ?_
    · exact State.shadowForce_sound hs
    · exact State.aoWrite_sound hs
  · exact State.loopPoint_sound hs
  · exact hs

theorem State.loopBegin_sound {q : List Instr} {s : State} {n : ℕ} {forced : Option Word} (hs : Sound q s) :
    Sound q ((State.loopBegin s n forced)).2 := by
  unfold State.loopBegin
  extract_lets -merge -useContext +onlyGivenNames v1 v2 v3 v4 v5
  try clear_value v1
  try clear_value v2
  try clear_value v3
  try clear_value v4
  try clear_value v5
  split
  · rename_i p6 p7 e8
    have hp7 : Sound q p7 := by
      refine Sound.ofSnd e8 ?_
      exact State.loopSource_sound hs
    split
    · rename_i p9 p10 e11
      have hp10 : Sound q p10 := by
        refine Sound.ofSnd e11 ?_
        split
        · try dsimp -zeta only
          exact hp7
        · exact State.loopSource_sound hp7
      split
      · rename_i p12 p13 e14
        have hp13 : Sound q p13 := by
          refine Sound.ofSnd e14 ?_
          split
          · exact State.ownSource_sound hp10
          · try dsimp -zeta only
            exact hp10
        split
        · extract_lets -merge -useContext +onlyGivenNames v15 v16 v17
          try clear_value v15
          try clear_value v16
          try clear_value v17
          split
          · try dsimp -zeta only
            exact hp13
          · split
            · split
              · try dsimp -zeta only
                exact hp13
              · try dsimp -zeta only
                exact hp13
            · extract_lets -merge -useContext +onlyGivenNames v18 v19 v20 v21
              try clear_value v18
              try clear_value v19
              try clear_value v20
              try clear_value v21
              split
              · try dsimp -zeta only
                exact hp13
              · split
                · try dsimp -zeta only
                  exact hp13
                · try dsimp -zeta only
                  exact hp13

theorem State.loopFlag_sound {q : List Instr} {s : State} {n : ℕ} {b : ℕ} {on : Bool} {entry : State → State} {exit : State → State} (hs : Sound q s) (hentry : ∀ x0, Sound q x0 → Sound q (entry x0)) (hexit : ∀ x0, Sound q x0 → Sound q (exit x0)) :
    Sound q (State.loopFlag s n b on entry exit) := by
  unfold State.loopFlag
  extract_lets -merge -useContext +onlyGivenNames v1 v2
  try clear_value v1
  have hv2 : Sound q v2 := by
    unfold v2
    exact State.setLstat_sound hs
  try clear_value v2
  refine Sound.ite ?_ ?_
  · exact hentry _ hv2
  · refine Sound.ite ?_ ?_
    · exact hexit _ hv2
    · exact hv2

theorem State.loopNoted_sound {q : List Instr} {s : State} {v : LoopEv} (hs : Sound q s) :
    Sound q (State.loopNoted s v) := by
  unfold State.loopNoted
  extract_lets -merge -useContext +onlyGivenNames v1 v2 v3 v4 v5 v6 v7 v8 v9 v10 v11 v12 v13
  try clear_value v1
  have hv2 : Sound q v2 := by
    unfold v2
    split
    · exact State.setLw_sound hs
    · exact hs
  try clear_value v2
  have hv3 : Sound q v3 := by
    unfold v3
    exact State.setLw_sound hv2
  try clear_value v3
  have hv4 : Sound q v4 := by
    unfold v4
    refine State.loopFlag_sound hv3 ?_ ?_
    · intro a14 ha14
      refine State.event_sound ?_
      refine State.raise_sound ?_
      exact State.bump_sound ha14
    · intro a15 ha15
      exact State.event_sound ha15
  try clear_value v4
  have hv5 : Sound q v5 := by
    unfold v5
    exact State.setLstat_sound hv4
  try clear_value v5
  have hv6 : Sound q v6 := by
    unfold v6
    refine State.loopFlag_sound hv5 ?_ ?_
    · intro a16 ha16
      refine State.event_sound ?_
      exact State.raise_sound ha16
    · intro a17 ha17
      exact id_sound ha17
  try clear_value v6
  have hv7 : Sound q v7 := by
    unfold v7
    refine State.loopFlag_sound hv6 ?_ ?_
    · intro a18 ha18
      refine State.event_sound ?_
      exact State.raise_sound ha18
    · intro a19 ha19
      exact id_sound ha19
  try clear_value v7
  have hv8 : Sound q v8 := by
    unfold v8
    refine State.loopFlag_sound hv7 ?_ ?_
    · intro a20 ha20
      exact State.raise_sound ha20
    · intro a21 ha21
      exact id_sound ha21
  try clear_value v8
  have hv9 : Sound q v9 := by
    unfold v9
    refine State.setLstat_sound ?_
    refine State.setLstat_sound ?_
    exact State.setLstat_sound hv8
  try clear_value v9
  have hv10 : Sound q v10 := by
    unfold v10
    split
    · exact State.setLstat_sound hv9
    · exact hv9
  try clear_value v10
  have hv11 : Sound q v11 := by
    unfold v11
    refine State.setLw_sound ?_
    exact State.setLw_sound hv10
  try clear_value v11
  have hv12 : Sound q v12 := by
    unfold v12
    refine State.bump_sound ?_
    exact State.setLw_sound hv11
  try clear_value v12
  try clear_value v13
  exact State.setLoopX_sound hv12

theorem State.publish_sound {q : List Instr} {s : State} {v : LoopEv} (hs : Sound q s) :
    Sound q (State.publish s v) := by
  unfold State.publish
  extract_lets -merge -useContext +onlyGivenNames v1 v2 v3 v4 v5 v6
  try clear_value v1
  try clear_value v2
  have hv3 : Sound q v3 := by
    unfold v3
    exact State.setLoopX_sound hs
  try clear_value v3
  try clear_value v4
  have hv5 : Sound q v5 := by
    unfold v5
    exact State.loopPoint_sound hv3
  try clear_value v5
  have hv6 : Sound q v6 := by
    unfold v6
    exact State.loopPoint_sound hv5
  try clear_value v6
  refine Sound.ite ?_ ?_
  · exact hs
  · refine Sound.ite ?_ ?_
    · exact State.setLoopX_sound hs
    · exact State.loopPoint_sound hv6

theorem State.writeBack_sound {q : List Instr} {s : State} {v : LoopEv} {out : Word} (hs : Sound q s) :
    Sound q (State.writeBack s v out) := by
  unfold State.writeBack
  extract_lets -merge -useContext +onlyGivenNames v1 v2 v3
  try clear_value v1
  have hv2 : Sound q v2 := by
    unfold v2
    refine State.setLw_sound ?_
    exact State.setLw_sound hs
  try clear_value v2
  have hv3 : Sound q v3 := by
    unfold v3
    refine Sound.ite ?_ ?_
    · exact hv2
    · refine State.setLw_sound ?_
      refine State.setLw_sound ?_
      refine State.setLw_sound ?_
      refine State.setLw_sound ?_
      exact State.setLw_sound hv2
  try clear_value v3
  refine Sound.ite ?_ ?_
  · refine State.setLw_sound ?_
    exact State.setLw_sound hv3
  · exact hv3

theorem State.missDest_sound {q : List Instr} {s : State} {dest : Word} (hs : Sound q s) :
    Sound q (State.missDest s dest) := by
  unfold State.missDest
  refine Sound.ite ?_ ?_
  · extract_lets -merge -useContext +onlyGivenNames v1 v2
    try clear_value v1
    try clear_value v2
    exact State.ownWrite_sound hs
  · exact hs

theorem State.loopMiss_sound {q : List Instr} {s : State} {n : ℕ} (hs : Sound q s) :
    Sound q (State.loopMiss s n) := by
  unfold State.loopMiss
  extract_lets -merge -useContext +onlyGivenNames v1 v2 v3 v4 v5 v6
  try clear_value v1
  have hv2 : Sound q v2 := by
    unfold v2
    exact State.setLw_sound hs
  try clear_value v2
  have hv3 : Sound q v3 := by
    unfold v3
    refine State.setLstat_sound ?_
    refine State.setLstat_sound ?_
    exact State.bump_sound hv2
  try clear_value v3
  have hv4 : Sound q v4 := by
    unfold v4
    exact State.raise_sound hv3
  try clear_value v4
  try clear_value v5
  have hv6 : Sound q v6 := by
    unfold v6
    refine Sound.ite ?_ ?_
    · refine State.event_sound ?_
      exact State.setLoopX_sound hv4
    · exact hv4
  try clear_value v6
  split
  · exact State.missDest_sound hv6
  · exact State.missDest_sound hv6

theorem State.loopPost_sound {q : List Instr} {s : State} {v : LoopEv} {grp : ℕ} (hs : Sound q s) :
    Sound q ((State.loopPost s v grp)).2 := by
  unfold State.loopPost
  extract_lets -merge -useContext +onlyGivenNames v1 v2 v3 v4
  try clear_value v1
  try clear_value v2
  try clear_value v3
  try clear_value v4
  split
  · rename_i p5 e6
    have hp5 : Sound q p5 := by
      refine Sound.ofSnd e6 ?_
      exact State.asnPost_sound hs
    try dsimp -zeta only
    exact State.setLoopX_sound hp5
  · rename_i p7 e8
    have hp7 : Sound q p7 := by
      refine Sound.ofSnd e8 ?_
      exact State.asnPost_sound hs
    try dsimp -zeta only
    exact State.loopMiss_sound hp7

theorem State.syncLoad_sound {q : List Instr} {s : State} (hs : Sound q s) :
    Sound q (State.syncLoad s) := by
  unfold State.syncLoad
  extract_lets -merge -useContext +onlyGivenNames v1 v2
  try clear_value v1
  try clear_value v2
  exact State.wr_sound hs

theorem State.loopToOff_sound {q : List Instr} {s : State} {n : ℕ} (hs : Sound q s) :
    Sound q (State.loopToOff s n) := by
  unfold State.loopToOff
  extract_lets -merge -useContext +onlyGivenNames v1
  have hv1 : Sound q v1 := by
    unfold v1
    exact State.setLw_sound hs
  try clear_value v1
  refine State.syncLoad_sound ?_
  exact State.setLw_sound hv1

theorem State.loopPoisoned_sound {q : List Instr} {s : State} {n : ℕ} (hs : Sound q s) :
    Sound q (State.loopPoisoned s n) := by
  unfold State.loopPoisoned
  refine State.event_sound ?_
  refine State.raise_sound ?_
  refine State.setLstat_sound ?_
  exact State.loopToOff_sound hs

theorem State.loopApply_sound {q : List Instr} {s : State} {v : LoopEv} (hs : Sound q s) :
    Sound q (State.loopApply s v) := by
  unfold State.loopApply
  extract_lets -merge -useContext +onlyGivenNames v1
  have hv1 : Sound q v1 := by
    unfold v1
    exact State.loopNoted_sound hs
  try clear_value v1
  refine Sound.ite ?_ ?_
  · exact State.publish_sound hv1
  · refine State.publish_sound ?_
    refine State.loopDest_sound ?_
    exact State.writeBack_sound hv1

theorem State.loopRun_sound {q : List Instr} {s : State} {n : ℕ} (hs : Sound q s) :
    Sound q (State.loopRun s n) := by
  unfold State.loopRun
  refine Sound.ite ?_ ?_
  · exact hs
  · refine Sound.ite ?_ ?_
    · exact State.loopPoisoned_sound hs
    · split
      · rename_i p1 p2 e3
        have hp2 : Sound q p2 := by
          refine Sound.ofSnd e3 ?_
          exact State.loopBegin_sound hs
        refine Sound.ite ?_ ?_
        · split
          · rename_i p4 e5
            have hp4 : Sound q p4 := by
              refine Sound.ofSnd e5 ?_
              exact State.loopPost_sound hp2
            exact Sound.upd hp4
          · rename_i p6 e7
            have hp6 : Sound q p6 := by
              refine Sound.ofSnd e7 ?_
              exact State.loopPost_sound hp2
            exact hp6
        · exact State.loopApply_sound hp2

theorem State.memberAlone_sound {q : List Instr} {s : State} {v : LoopEv} (hs : Sound q s) :
    Sound q (State.memberAlone s v) := by
  unfold State.memberAlone
  extract_lets -merge -useContext +onlyGivenNames v1 v2 v3
  try clear_value v1
  have hv2 : Sound q v2 := by
    unfold v2
    exact State.loopNoted_sound hs
  try clear_value v2
  try clear_value v3
  refine State.publish_sound ?_
  refine Sound.ite ?_ ?_
  · exact hv2
  · exact State.writeBack_sound hv2

theorem State.memberUnder_sound {q : List Instr} {s : State} {win : ℕ} {forced : Bool} {out : Word} {v : LoopEv} (hs : Sound q s) :
    Sound q (State.memberUnder s win forced out v) := by
  unfold State.memberUnder
  extract_lets -merge -useContext +onlyGivenNames v1 v2 v3 v4 v5
  try clear_value v1
  have hv2 : Sound q v2 := by
    unfold v2
    exact State.loopNoted_sound hs
  try clear_value v2
  try clear_value v3
  have hv4 : Sound q v4 := by
    unfold v4
    refine Sound.ite ?_ ?_
    · exact State.setLw_sound hv2
    · refine Sound.ite ?_ ?_
      · exact State.writeBack_sound hv2
      · exact State.writeBack_sound hv2
  try clear_value v4
  have hv5 : Sound q v5 := by
    unfold v5
    refine Sound.ite ?_ ?_
    · refine State.setLstat_sound ?_
      refine Sound.ite ?_ ?_
      · exact hv4
      · exact State.setLw_sound hv4
    · exact hv4
  try clear_value v5
  exact State.publish_sound hv5

theorem State.groupSelect_sound {q : List Instr} {s : State} {g : ℕ} {all : List LoopEv} (hs : Sound q s) :
    Sound q (State.groupSelect s g all) := by
  unfold State.groupSelect
  extract_lets -merge -useContext +onlyGivenNames v1 v2 v3 v4 v5 v6 v7
  try clear_value v1
  try clear_value v2
  try clear_value v3
  try clear_value v4
  have hv5 : Sound q v5 := by
    unfold v5
    refine State.wr_sound ?_
    exact State.setGw_sound hs
  try clear_value v5
  have hv6 : Sound q v6 := by
    unfold v6
    refine State.raise_sound ?_
    exact State.raise_sound hv5
  try clear_value v6
  have hv7 : Sound q v7 := by
    unfold v7
    refine Sound.ite ?_ ?_
    · exact hv6
    · exact State.event_sound hv6
  try clear_value v7
  split
  · refine State.each_sound hv7 ?_
    intro a8 a9 ha8
    exact State.memberAlone_sound ha8
  · extract_lets -merge -useContext +onlyGivenNames v10 v11 v12 v13
    try clear_value v10
    have hv11 : Sound q v11 := by
      unfold v11
      refine State.setGw_sound ?_
      exact State.setGw_sound hs
    try clear_value v11
    have hv12 : Sound q v12 := by
      unfold v12
      refine State.clear_sound ?_
      exact State.wr_sound hv11
    try clear_value v12
    have hv13 : Sound q v13 := by
      unfold v13
      exact State.loopDest_sound hv12
    try clear_value v13
    refine State.each_sound hv13 ?_
    intro a14 a15 ha14
    exact State.memberUnder_sound ha14

theorem State.groupRun_sound {q : List Instr} {s : State} {g : ℕ} (hs : Sound q s) :
    Sound q (State.groupRun s g) := by
  unfold State.groupRun
  extract_lets -merge -useContext +onlyGivenNames v1 v2
  try clear_value v1
  have hv2 : ∀ x0 x1, Sound q (x0).2 → Sound q ((v2 x0 x1)).2 := by
    unfold v2
    intro a3 a4 ha3
    extract_lets -merge -useContext +onlyGivenNames v5
    have hv5 : Sound q v5 := by
      unfold v5
      exact ha3
    try clear_value v5
    split
    · exact ha3
    · split
      · try dsimp -zeta only
        exact State.loopPoisoned_sound hv5
      · split
        · rename_i p6 p7 e8
          have hp7 : Sound q p7 := by
            refine Sound.ofSnd e8 ?_
            exact State.loopBegin_sound hv5
          extract_lets -merge -useContext +onlyGivenNames v9
          try clear_value v9
          split
          · split
            · rename_i p10 e11
              have hp10 : Sound q p10 := by
                refine Sound.ofSnd e11 ?_
                exact State.loopPost_sound hp7
              try dsimp -zeta only
              exact hp10
            · rename_i p12 e13
              have hp12 : Sound q p12 := by
                refine Sound.ofSnd e13 ?_
                exact State.loopPost_sound hp7
              try dsimp -zeta only
              exact hp12
          · try dsimp -zeta only
            exact hp7
  try clear_value v2
  split
  · rename_i p14 p15 e16
    have hp15 : Sound q p15 := by
      refine Sound.ofSnd e16 ?_
      refine foldl_keep (P := fun (x : List LoopEv × State) => Sound q (x).2) ?_ ?_
      · intro a17 a18 ha17
        beta_reduce at *
        exact hv2 _ _ ha17
      · try dsimp -zeta only
        exact hs
    refine Sound.ite ?_ ?_
    · exact Sound.upd hp15
    · exact State.groupSelect_sound hp15

theorem State.loopAnswer_sound {q : List Instr} {s : State} {n : ℕ} {req : Option Word} (hs : Sound q s) :
    Sound q (State.loopAnswer s n req) := by
  unfold State.loopAnswer
  extract_lets -merge -useContext +onlyGivenNames v1 v2 v3 v4 v5 v6 v7
  try clear_value v1
  have hv2 : Sound q v2 := by
    unfold v2
    exact State.setLoopX_sound hs
  try clear_value v2
  try clear_value v3
  have hv4 : Sound q v4 := by
    unfold v4
    refine Sound.ite ?_ ?_
    · exact State.loopMiss_sound hv2
    · exact hv2
  try clear_value v4
  try clear_value v5
  try clear_value v6
  try clear_value v7
  split
  · extract_lets -merge -useContext +onlyGivenNames v8 v9
    try clear_value v8
    try clear_value v9
    refine Sound.ite ?_ ?_
    · exact Sound.upd hv4
    · refine State.groupSelect_sound ?_
      exact Sound.upd hv4
  · split
    · extract_lets -merge -useContext +onlyGivenNames v10
      have hv10 : Sound q v10 := by
        unfold v10
        exact Sound.upd hv4
      try clear_value v10
      refine Sound.ite ?_ ?_
      · exact hv10
      · exact State.loopApply_sound hv10
    · exact hv4

theorem State.loopResult_sound {q : List Instr} {r : Reaped} (hr : Sound q (r).st) :
    Sound q (State.loopResult r) := by
  unfold State.loopResult
  split
  · refine Sound.ite ?_ ?_
    · exact hr
    · exact State.loopAnswer_sound hr
  · exact hr

theorem State.loopTimeout_sound {q : List Instr} {s : State} {p : AsnPost} (hs : Sound q s) :
    Sound q (State.loopTimeout s p) := by
  unfold State.loopTimeout
  split
  · exact State.loopAnswer_sound hs
  · exact hs

theorem State.cfgFailed_sound {q : List Instr} {s : State} {n : ℕ} {code : ℕ} (hs : Sound q s) :
    Sound q (State.cfgFailed s n code) := by
  unfold State.cfgFailed
  extract_lets -merge -useContext +onlyGivenNames v1 v2
  have hv1 : Sound q v1 := by
    unfold v1
    exact State.loopToOff_sound hs
  try clear_value v1
  have hv2 : Sound q v2 := by
    unfold v2
    exact State.setLw_sound hv1
  try clear_value v2
  refine State.event_sound ?_
  exact State.raise_sound hv2

theorem State.loopStart_sound {q : List Instr} {s : State} (hs : Sound q s) :
    Sound q (State.loopStart s) := by
  unfold State.loopStart
  extract_lets -merge -useContext +onlyGivenNames v1 v2 v3
  have hv1 : Sound q v1 := by
    unfold v1
    refine State.each_sound hs ?_
    intro a4 a5 ha4
    split
    · exact State.cfgFailed_sound ha4
    · exact ha4
  try clear_value v1
  have hv2 : Sound q v2 := by
    unfold v2
    refine State.each_sound hv1 ?_
    intro a6 a7 ha6
    exact State.setLoopX_sound ha6
  try clear_value v2
  try clear_value v3
  refine State.syncLoad_sound ?_
  exact Sound.upd hv2

theorem State.resumeWhenDue_sound {q : List Instr} {s : State} (hs : Sound q s) :
    Sound q (State.resumeWhenDue s) := by
  unfold State.resumeWhenDue
  extract_lets -merge -useContext +onlyGivenNames v1 v2 v3 v4
  try clear_value v1
  try clear_value v2
  try clear_value v3
  try clear_value v4
  refine Sound.ite ?_ ?_
  · refine State.resumeAll_sound ?_
    refine State.resumeAll_sound ?_
    exact Sound.upd hs
  · exact hs

end Sys2Proof.Machine
end

