-- ==== Sys2Proof/Laws/SoundMemory.lean ====
section
/-!
SUPPORT. Every operation of Machine/Memory.lean keeps the queue and the canonical forms of memory and registers.
-/

namespace Sys2Proof.Machine

theorem State.rewriteRebuilt_sound {q : List Instr} {s : State} {w : ℕ} (hs : Sound q s) :
    Sound q (State.rewriteRebuilt s w) := by
  unfold State.rewriteRebuilt
  extract_lets -merge -useContext +onlyGivenNames v1 v2
  try clear_value v1
  try clear_value v2
  refine State.setFlaw_sound ?_
  refine State.setSdiff_sound ?_
  exact State.putWord_sound hs

theorem State.rewriteStripe_sound {q : List Instr} {s : State} {k : ℕ} (hs : Sound q s) :
    Sound q (State.rewriteStripe s k) := by
  unfold State.rewriteStripe
  refine State.setSpar_sound ?_
  exact State.setSdiff_sound hs

theorem State.rewriteNext_sound {q : List Instr} {s : State} (hs : Sound q s) :
    Sound q (State.rewriteNext s) := by
  unfold State.rewriteNext
  split
  · exact hs
  · extract_lets -merge -useContext +onlyGivenNames v1 v2 v3
    try clear_value v1
    have hv2 : Sound q v2 := by
      unfold v2
      exact Sound.upd hs
    try clear_value v2
    try clear_value v3
    refine Sound.ite ?_ ?_
    · exact State.rewriteStripe_sound hv2
    · refine Sound.ite ?_ ?_
      · exact State.rewriteRebuilt_sound hv2
      · exact hv2

theorem execRewriteQueueService_sound {q : List Instr} {s : State} (hs : Sound q s) :
    NextSound q (execRewriteQueueService s) := by
  unfold execRewriteQueueService
  refine NextSound.next ?_
  refine Sound.ite ?_ ?_
  · exact State.rewriteNext_sound hs
  · exact hs

theorem State.noteCorrected_sound {q : List Instr} {s : State} {bank : ℕ} {row : ℕ} (hs : Sound q s) :
    Sound q (State.noteCorrected s bank row) := by
  unfold State.noteCorrected
  extract_lets -merge -useContext +onlyGivenNames v1 v2 v3 v4 v5
  try clear_value v1
  try clear_value v2
  try clear_value v3
  try clear_value v4
  try clear_value v5
  exact Sound.upd hs

theorem State.setSpare_sound {q : List Instr} {s : State} {e : ℕ} {x2 : SpareEntry} (hs : Sound q s) :
    Sound q (State.setSpare s e x2) := by
  unfold State.setSpare
  exact Sound.upd hs

theorem State.considerRepair_sound {q : List Instr} {s : State} {bank : ℕ} {row : ℕ} (hs : Sound q s) :
    Sound q (State.considerRepair s bank row) := by
  unfold State.considerRepair
  extract_lets -merge -useContext +onlyGivenNames v1 v2 v3 v4
  try clear_value v1
  try clear_value v2
  try clear_value v3
  try clear_value v4
  refine Sound.ite ?_ ?_
  · exact hs
  · split
    · refine State.raise_sound ?_
      exact Sound.upd hs
    · refine Sound.ite ?_ ?_
      · exact hs
      · refine State.event_sound ?_
        refine State.raise_sound ?_
        exact Sound.upd hs

theorem State.mendWord_sound {q : List Instr} {s : State} {k : ℕ} {b : ℕ} {lost : BitVec 8} (hs : Sound q s) :
    Sound q ((State.mendWord s k b lost)).2 := by
  unfold State.mendWord
  extract_lets -merge -useContext +onlyGivenNames v1 v2
  try clear_value v1
  try clear_value v2
  split
  · try dsimp -zeta only
    refine State.setFlaw_sound ?_
    exact State.bump_sound hs
  · split
    · try dsimp -zeta only
      exact State.poison_sound hs
    · split
      · try dsimp -zeta only
        exact hs
      · split
        · try dsimp -zeta only
          exact State.setFlaw_sound hs
        · split
          · try dsimp -zeta only
            exact State.poison_sound hs
          · try dsimp -zeta only
            refine State.corrected_sound ?_
            exact State.rewriteRebuilt_sound hs

theorem State.scrubWord_sound {q : List Instr} {s : State} {k : ℕ} {b : ℕ} {lost : BitVec 8} (hs : Sound q s) :
    Sound q (State.scrubWord s k b lost) := by
  unfold State.scrubWord
  split
  · rename_i p1 e2
    have hp1 : Sound q p1 := by
      refine Sound.ofSnd e2 ?_
      exact State.mendWord_sound hs
    refine State.considerRepair_sound ?_
    exact State.noteCorrected_sound hp1
  · rename_i p3 e4
    have hp3 : Sound q p3 := by
      refine Sound.ofSnd e4 ?_
      exact State.mendWord_sound hs
    exact hp3

theorem State.scrubStripe_sound {q : List Instr} {s : State} {k : ℕ} (hs : Sound q s) :
    Sound q (State.scrubStripe s k) := by
  unfold State.scrubStripe
  refine Sound.ite ?_ ?_
  · exact hs
  · refine State.considerRepair_sound ?_
    refine State.noteCorrected_sound ?_
    refine State.corrected_sound ?_
    exact State.rewriteStripe_sound hs

theorem State.copyWord_sound {q : List Instr} {s : State} {bank : ℕ} {k : ℕ} (hs : Sound q s) :
    Sound q (State.copyWord s bank k) := by
  unfold State.copyWord
  refine Sound.ite ?_ ?_
  · refine Sound.ite ?_ ?_
    · exact hs
    · refine State.corrected_sound ?_
      exact State.rewriteStripe_sound hs
  · exact State.mendWord_sound hs

theorem State.repairStep_sound {q : List Instr} {s : State} (hs : Sound q s) :
    Sound q (State.repairStep s) := by
  unfold State.repairStep
  split
  · exact hs
  · extract_lets -merge -useContext +onlyGivenNames v1 v2 v3 v4 v5
    have hv1 : Sound q v1 := by
      unfold v1
      refine State.each_sound hs ?_
      intro a6 a7 ha6
      exact State.copyWord_sound ha6
    try clear_value v1
    try clear_value v2
    have hv3 : Sound q v3 := by
      unfold v3
      exact State.setSpare_sound hv1
    try clear_value v3
    try clear_value v4
    have hv5 : Sound q v5 := by
      unfold v5
      exact Sound.upd hv3
    try clear_value v5
    refine Sound.ite ?_ ?_
    · exact Sound.upd hv1
    · refine State.event_sound ?_
      refine State.bump_sound ?_
      refine State.raise_sound ?_
      exact State.clear_sound hv5

theorem State.consistency_sound {q : List Instr} {s : State} {k : ℕ} (hs : Sound q s) :
    Sound q (State.consistency s k) := by
  unfold State.consistency
  extract_lets -merge -useContext +onlyGivenNames v1 v2 v3
  try clear_value v1
  have hv2 : Sound q v2 := by
    unfold v2
    refine State.event_sound ?_
    refine State.raise_sound ?_
    exact State.bump_sound hs
  try clear_value v2
  have hv3 : Sound q v3 := by
    unfold v3
    exact State.setSdiff_sound hv2
  try clear_value v3
  refine Sound.ite ?_ ?_
  · exact hs
  · refine Sound.ite ?_ ?_
    · exact hv3
    · refine State.each_sound hv3 ?_
      intro a4 a5 ha4
      exact State.setFlaw_sound ha4

theorem State.rewriteAll_sound {q : List Instr} {s : State} {a : ℕ} (hs : Sound q s) :
    Sound q (State.rewriteAll s a) := by
  unfold State.rewriteAll
  split
  · exact hs
  · refine State.rewriteAll_sound ?_
    exact State.rewriteNext_sound hs

theorem execScrubStep_sound {q : List Instr} {s : State} (hs : Sound q s) :
    NextSound q (execScrubStep s) := by
  unfold execScrubStep
  refine NextSound.next ?_
  refine Sound.ite ?_ ?_
  · exact hs
  · extract_lets -merge -useContext +onlyGivenNames v1 v2 v3 v4 v5 v6
    have hv1 : Sound q v1 := by
      unfold v1
      exact State.rewriteAll_sound hs
    try clear_value v1
    try clear_value v2
    try clear_value v3
    have hv4 : Sound q v4 := by
      unfold v4
      refine State.each_sound hv1 ?_
      intro a7 a8 ha7
      exact State.scrubWord_sound ha7
    try clear_value v4
    have hv5 : Sound q v5 := by
      unfold v5
      refine State.repairStep_sound ?_
      refine State.consistency_sound ?_
      exact State.scrubStripe_sound hv4
    try clear_value v5
    have hv6 : Sound q v6 := by
      unfold v6
      exact State.wr_sound hv5
    try clear_value v6
    refine Sound.ite ?_ ?_
    · refine State.raise_sound ?_
      exact State.wrap_sound hv6
    · exact hv6

theorem execSecdedScrub_sound {q : List Instr} {s : State} (hs : Sound q s) :
    NextSound q (execSecdedScrub s) := by
  unfold execSecdedScrub
  refine NextSound.next ?_
  refine Sound.ite ?_ ?_
  · exact hs
  · extract_lets -merge -useContext +onlyGivenNames v1 v2 v3
    try clear_value v1
    have hv2 : Sound q v2 := by
      unfold v2
      exact State.readWord_sound hs
    try clear_value v2
    try clear_value v3
    exact Sound.upd hv2

theorem execBucketLeak_sound {q : List Instr} {k : ℕ} {s : State} (hs : Sound q s) :
    NextSound q (execBucketLeak k s) := by
  unfold execBucketLeak
  refine onUnit_sound ?_
  exact State.wr_sound hs

theorem State.alter_sound {q : List Instr} {s : State} {a : ℕ} {i : Injection} (hs : Sound q s) :
    Sound q (State.alter s a i) := by
  unfold State.alter
  refine Sound.ite ?_ ?_
  · extract_lets -merge -useContext +onlyGivenNames v1
    try clear_value v1
    refine State.setSpar_sound ?_
    exact State.setSdiff_sound hs
  · extract_lets -merge -useContext +onlyGivenNames v2 v3 v4
    try clear_value v2
    try clear_value v3
    have hv4 : Sound q v4 := by
      unfold v4
      refine Sound.ite ?_ ?_
      · exact State.setSdiff_sound hs
      · exact hs
    try clear_value v4
    refine Sound.ite ?_ ?_
    · exact State.setFlaw_sound hs
    · refine Sound.ite ?_ ?_
      · exact State.setFlaw_sound hs
      · refine State.setFlaw_sound ?_
        exact State.putWord_sound hv4

theorem State.inject_sound {q : List Instr} {s : State} {kind : ℕ} {lanes : BitVec 8} {i : Injection} (hs : Sound q s) :
    Sound q (State.inject s kind lanes i) := by
  unfold State.inject
  extract_lets -merge -useContext +onlyGivenNames v1 v2
  have hv1 : Sound q v1 := by
    unfold v1
    refine State.wr_sound ?_
    exact State.wr_sound hs
  try clear_value v1
  try clear_value v2
  refine Sound.ite ?_ ?_
  · refine State.raise_sound ?_
    exact State.wr_sound hv1
  · refine Sound.ite ?_ ?_
    · exact State.wr_sound hv1
    · refine State.wr_sound ?_
      exact State.alter_sound hv1

theorem execInjectOdd_sound {q : List Instr} {lanes : BitVec 8} {s : State} (hs : Sound q s) :
    NextSound q (execInjectOdd lanes s) := by
  unfold execInjectOdd
  refine NextSound.next ?_
  exact State.inject_sound hs

theorem execInjectEven_sound {q : List Instr} {lanes : BitVec 8} {s : State} (hs : Sound q s) :
    NextSound q (execInjectEven lanes s) := by
  unfold execInjectEven
  refine NextSound.next ?_
  exact State.inject_sound hs

theorem execInjectPar_sound {q : List Instr} {lanes : BitVec 8} {s : State} (hs : Sound q s) :
    NextSound q (execInjectPar lanes s) := by
  unfold execInjectPar
  refine NextSound.next ?_
  exact State.inject_sound hs

theorem execInjectTag_sound {q : List Instr} {s : State} (hs : Sound q s) :
    NextSound q (execInjectTag s) := by
  unfold execInjectTag
  refine NextSound.next ?_
  exact State.inject_sound hs

theorem execInjectPoison_sound {q : List Instr} {lanes : BitVec 8} {s : State} (hs : Sound q s) :
    NextSound q (execInjectPoison lanes s) := by
  unfold execInjectPoison
  refine NextSound.next ?_
  exact State.inject_sound hs

theorem execInjectDouble_sound {q : List Instr} {s : State} (hs : Sound q s) :
    NextSound q (execInjectDouble s) := by
  unfold execInjectDouble
  extract_lets -merge -useContext +onlyGivenNames v1 v2
  try clear_value v1
  try clear_value v2
  refine NextSound.next ?_
  refine State.taken_sound ?_
  exact State.inject_sound hs

theorem State.stripeStore_sound {q : List Instr} {s : State} {a : ℕ} {d : Word64} (hs : Sound q s) :
    Sound q (State.stripeStore s a d) := by
  unfold State.stripeStore
  refine Sound.ite ?_ ?_
  · extract_lets -merge -useContext +onlyGivenNames v1
    try clear_value v1
    refine State.setSpar_sound ?_
    exact State.setSdiff_sound hs
  · exact hs

theorem execStripeWindowStore_sound {q : List Instr} {addr : ℕ} {data : Word64} {s : State} (hs : Sound q s) :
    NextSound q (execStripeWindowStore addr data s) := by
  unfold execStripeWindowStore
  refine onUnit_sound ?_
  exact State.stripeStore_sound hs

theorem State.freshRow_sound {q : List Instr} {s : State} {bank : ℕ} {row : ℕ} (hs : Sound q s) :
    Sound q (State.freshRow s bank row) := by
  unfold State.freshRow
  refine foldl_keep (P := fun (x : State) => Sound q x) ?_ ?_
  · intro a1 a2 ha1
    beta_reduce at *
    extract_lets -merge -useContext +onlyGivenNames v3 v4 v5
    try clear_value v3
    try clear_value v4
    try clear_value v5
    refine Sound.ite ?_ ?_
    · refine State.taken_sound ?_
      exact State.setSdiff_sound ha1
    · refine State.taken_sound ?_
      refine State.setFlaw_sound ?_
      refine State.putWord_sound ?_
      exact State.setSdiff_sound ha1
  · exact hs

theorem State.smapWrite_sound {q : List Instr} {s : State} {v : Word} (hs : Sound q s) :
    Sound q (State.smapWrite s v) := by
  unfold State.smapWrite
  extract_lets -merge -useContext +onlyGivenNames v1 v2 v3 v4 v5
  try clear_value v1
  try clear_value v2
  try clear_value v3
  have hv4 : Sound q v4 := by
    unfold v4
    exact State.setSpare_sound hs
  try clear_value v4
  have hv5 : Sound q v5 := by
    unfold v5
    refine Sound.ite ?_ ?_
    · exact State.raise_sound hs
    · refine Sound.ite ?_ ?_
      · exact State.freshRow_sound hv4
      · exact hv4
  try clear_value v5
  exact State.wr_sound hv5

theorem execSmapWrite_sound {q : List Instr} {v : Word} {s : State} (hs : Sound q s) :
    NextSound q (execSmapWrite v s) := by
  unfold execSmapWrite
  refine NextSound.next ?_
  exact State.smapWrite_sound hs

theorem State.memStart_sound {q : List Instr} {s : State} (hs : Sound q s) :
    Sound q (State.memStart s) := by
  unfold State.memStart
  exact Sound.upd hs

end Sys2Proof.Machine
end

