-- ==== Sys2Proof/Laws/SoundMtrOps.lean ====
section
/-!
SUPPORT. Every operation of Machine/MtrOps.lean keeps the queue and the canonical forms of memory and registers.
-/

namespace Sys2Proof.Machine

theorem State.setMw_sound {q : List Instr} {s : State} {w : ℕ} {v : Word} (hs : Sound q s) :
    Sound q (State.setMw s w v) := by
  unfold State.setMw
  exact Sound.upd hs

theorem State.setFlag_sound {q : List Instr} {s : State} {b : ℕ} {set : ℕ} (hs : Sound q s) :
    Sound q (State.setFlag s b set) := by
  unfold State.setFlag
  extract_lets -merge -useContext +onlyGivenNames v1 v2
  try clear_value v1
  try clear_value v2
  exact Sound.upd hs

theorem State.hdrFlag_sound {q : List Instr} {s : State} {b : ℕ} (hs : Sound q s) :
    Sound q (State.hdrFlag s b) := by
  unfold State.hdrFlag
  exact Sound.upd hs

theorem State.flagChannel_sound {q : List Instr} {s : State} {b : ℕ} {c : ℕ} (hs : Sound q s) :
    Sound q (State.flagChannel s b c) := by
  unfold State.flagChannel
  refine State.each_sound hs ?_
  intro a1 a2 ha1
  exact State.setFlag_sound ha1

theorem State.setMreg_sound {q : List Instr} {s : State} {r : ℕ} {x2 : MtrReg} (hs : Sound q s) :
    Sound q (State.setMreg s r x2) := by
  unfold State.setMreg
  exact Sound.upd hs

theorem State.addReg_sound {q : List Instr} {s : State} {r : ℕ} {inc : ℤ} (hs : Sound q s) :
    Sound q (State.addReg s r inc) := by
  unfold State.addReg
  split
  · extract_lets -merge -useContext +onlyGivenNames v1
    have hv1 : Sound q v1 := by
      unfold v1
      exact State.setMreg_sound hs
    try clear_value v1
    refine Sound.ite ?_ ?_
    · refine State.event_sound ?_
      exact State.raise_sound hv1
    · exact hv1

theorem State.addSigned_sound {q : List Instr} {s : State} {rPos : ℕ} {rNeg : ℕ} {inc : ℤ} (hs : Sound q s) :
    Sound q (State.addSigned s rPos rNeg inc) := by
  unfold State.addSigned
  refine Sound.ite ?_ ?_
  · exact State.addReg_sound hs
  · exact State.addReg_sound hs

theorem State.addSample_sound {q : List Instr} {s : State} {f : ℕ} {incs : List ℤ} (hs : Sound q s) :
    Sound q (State.addSample s f incs) := by
  unfold State.addSample
  extract_lets -merge -useContext +onlyGivenNames v1 v2
  try clear_value v1
  have hv2 : Sound q v2 := by
    unfold v2
    refine State.each_sound hs ?_
    intro a3 a4 ha3
    split
    · extract_lets -merge -useContext +onlyGivenNames v5 v6 v7
      try clear_value v5
      have hv6 : Sound q v6 := by
        unfold v6
        refine State.addReg_sound ?_
        exact State.addSigned_sound ha3
      try clear_value v6
      have hv7 : Sound q v7 := by
        unfold v7
        exact State.addReg_sound hv6
      try clear_value v7
      refine Sound.ite ?_ ?_
      · exact hv7
      · exact State.addSigned_sound hv7
  try clear_value v2
  refine Sound.ite ?_ ?_
  · exact State.addSigned_sound hv2
  · exact hv2

theorem State.addCycle_sound {q : List Instr} {s : State} {f : ℕ} {incs : List (ℤ × ℤ × ℤ)} (hs : Sound q s) :
    Sound q (State.addCycle s f incs) := by
  unfold State.addCycle
  extract_lets -merge -useContext +onlyGivenNames v1 v2 v3
  try clear_value v1
  try clear_value v2
  have hv3 : Sound q v3 := by
    unfold v3
    refine State.each_sound hs ?_
    intro a4 a5 ha4
    split
    · extract_lets -merge -useContext +onlyGivenNames v6 v7 v8
      try clear_value v6
      have hv7 : Sound q v7 := by
        unfold v7
        refine State.addReg_sound ?_
        refine State.addSigned_sound ?_
        exact State.addSigned_sound ha4
      try clear_value v7
      have hv8 : Sound q v8 := by
        unfold v8
        exact State.addReg_sound hv7
      try clear_value v8
      refine Sound.ite ?_ ?_
      · exact hv8
      · refine State.addSigned_sound ?_
        exact State.addSigned_sound hv8
  try clear_value v3
  refine Sound.ite ?_ ?_
  · refine State.addSigned_sound ?_
    exact State.addSigned_sound hv3
  · exact hv3

theorem State.ckptStart_sound {q : List Instr} {s : State} (hs : Sound q s) :
    Sound q (State.ckptStart s) := by
  unfold State.ckptStart
  refine Sound.ite ?_ ?_
  · exact Sound.upd hs
  · extract_lets -merge -useContext +onlyGivenNames v1 v2 v3
    try clear_value v1
    try clear_value v2
    try clear_value v3
    refine State.raise_sound ?_
    exact Sound.upd hs

theorem State.ckptNext_sound {q : List Instr} {s : State} (hs : Sound q s) :
    Sound q (State.ckptNext s) := by
  unfold State.ckptNext
  refine Sound.ite ?_ ?_
  · exact State.ckptStart_sound hs
  · exact hs

theorem State.mtrDone_sound {q : List Instr} {s : State} {result : ℕ} (hs : Sound q s) :
    Sound q (State.mtrDone s result) := by
  unfold State.mtrDone
  refine State.raise_sound ?_
  refine State.wr_sound ?_
  exact State.clear_sound hs

theorem State.unhalt_sound {q : List Instr} {s : State} {r : ℕ → Bool} (hs : Sound q s) :
    Sound q (State.unhalt s r) := by
  unfold State.unhalt
  refine Sound.ite ?_ ?_
  · refine State.ckptNext_sound ?_
    exact State.clear_sound hs
  · exact hs

theorem State.restoreReg_sound {q : List Instr} {s : State} {r : ℕ} (hs : Sound q s) :
    Sound q (State.restoreReg s r) := by
  unfold State.restoreReg
  split
  · exact State.mtrDone_sound hs
  · extract_lets -merge -useContext +onlyGivenNames v1 v2 v3 v4 v5
    try clear_value v1
    try clear_value v2
    have hv3 : Sound q v3 := by
      unfold v3
      refine State.setFlag_sound ?_
      exact State.setMreg_sound hs
    try clear_value v3
    try clear_value v4
    have hv5 : Sound q v5 := by
      unfold v5
      exact Sound.upd hv3
    try clear_value v5
    refine State.unhalt_sound ?_
    refine State.mtrDone_sound ?_
    exact State.event_sound hv5

theorem State.clearFeeder_sound {q : List Instr} {s : State} {f : ℕ} (hs : Sound q s) :
    Sound q (State.clearFeeder s f) := by
  unfold State.clearFeeder
  extract_lets -merge -useContext +onlyGivenNames v1 v2 v3 v4
  have hv1 : Sound q v1 := by
    unfold v1
    refine State.each_sound hs ?_
    intro a5 a6 ha5
    exact State.setMreg_sound ha5
  try clear_value v1
  try clear_value v2
  have hv3 : Sound q v3 := by
    unfold v3
    exact Sound.upd hv1
  try clear_value v3
  have hv4 : Sound q v4 := by
    unfold v4
    refine State.each_sound hv3 ?_
    intro a7 a8 ha7
    exact State.setFlag_sound ha7
  try clear_value v4
  refine State.ckptStart_sound ?_
  refine State.unhalt_sound ?_
  refine State.mtrDone_sound ?_
  exact State.event_sound hv4

theorem State.mtrWaited_sound {q : List Instr} {s : State} {a : MtrWait} (hs : Sound q s) :
    Sound q (State.mtrWaited s a) := by
  unfold State.mtrWaited
  split
  · exact Sound.upd hs
  · exact State.restoreReg_sound hs
  · refine State.mtrDone_sound ?_
    exact State.ckptStart_sound hs

theorem State.ckptEnd_sound {q : List Instr} {s : State} (hs : Sound q s) :
    Sound q (State.ckptEnd s) := by
  unfold State.ckptEnd
  split
  · exact hs
  · extract_lets -merge -useContext +onlyGivenNames v1 v2 v3 v4 v5 v6 v7 v8 v9 v10
    try clear_value v1
    try clear_value v2
    have hv3 : Sound q v3 := by
      unfold v3
      exact Sound.upd hs
    try clear_value v3
    have hv4 : Sound q v4 := by
      unfold v4
      exact State.clear_sound hv3
    try clear_value v4
    try clear_value v5
    have hv6 : Sound q v6 := by
      unfold v6
      exact State.write_sound hv4
    try clear_value v6
    have hv7 : Sound q v7 := by
      unfold v7
      split
      · extract_lets -merge -useContext +onlyGivenNames v11 v12
        have hv11 : Sound q v11 := by
          unfold v11
          exact State.write_sound hv4
        try clear_value v11
        have hv12 : Sound q v12 := by
          unfold v12
          refine State.event_sound ?_
          refine State.raise_sound ?_
          refine State.raise_sound ?_
          exact State.wr_sound hv11
        try clear_value v12
        refine State.taken_sound ?_
        exact State.egressHalt_sound hv12
      · refine State.wr_sound ?_
        exact State.wr_sound hv6
    try clear_value v7
    try clear_value v8
    try clear_value v9
    have hv10 : Sound q v10 := by
      unfold v10
      exact Sound.upd hv7
    try clear_value v10
    refine State.ckptNext_sound ?_
    refine State.each_sound hv10 ?_
    intro a13 a14 ha13
    exact State.mtrWaited_sound ha13

theorem State.restoreAll_sound {q : List Instr} {s : State} (hs : Sound q s) :
    Sound q (State.restoreAll s) := by
  unfold State.restoreAll
  split
  · refine State.event_sound ?_
    refine State.raise_sound ?_
    exact State.clear_sound hs
  · extract_lets -merge -useContext +onlyGivenNames v1 v2 v3 v4 v5 v6
    try clear_value v1
    have hv2 : Sound q v2 := by
      unfold v2
      refine State.each_sound hs ?_
      intro a7 a8 ha7
      exact State.setMreg_sound ha7
    try clear_value v2
    have hv3 : Sound q v3 := by
      unfold v3
      refine State.each_sound hv2 ?_
      intro a9 a10 ha9
      refine State.taken_sound ?_
      exact State.event_sound ha9
    try clear_value v3
    have hv4 : Sound q v4 := by
      unfold v4
      refine State.wr_sound ?_
      exact State.wr_sound hv3
    try clear_value v4
    try clear_value v5
    have hv6 : Sound q v6 := by
      unfold v6
      exact Sound.upd hv4
    try clear_value v6
    refine State.hdrFlag_sound ?_
    exact State.raise_sound hv6

theorem State.setPhase_sound {q : List Instr} {s : State} {i : ℕ} {p : MtrPhase} (hs : Sound q s) :
    Sound q (State.setPhase s i p) := by
  unfold State.setPhase
  exact Sound.upd hs

theorem State.latchPage_sound {q : List Instr} {s : State} {close : ℕ} (hs : Sound q s) :
    Sound q (State.latchPage s close) := by
  unfold State.latchPage
  extract_lets -merge -useContext +onlyGivenNames v1 v2 v3 v4 v5 v6 v7 v8 v9
  try clear_value v1
  try clear_value v2
  try clear_value v3
  have hv4 : Sound q v4 := by
    unfold v4
    exact State.taken_sound hs
  try clear_value v4
  try clear_value v5
  have hv6 : Sound q v6 := by
    unfold v6
    exact Sound.upd hv4
  try clear_value v6
  try clear_value v7
  have hv8 : Sound q v8 := by
    unfold v8
    exact Sound.upd hv6
  try clear_value v8
  have hv9 : Sound q v9 := by
    unfold v9
    refine State.raise_sound ?_
    refine State.wr_sound ?_
    exact State.wr_sound hv8
  try clear_value v9
  refine Sound.ite ?_ ?_
  · exact State.event_sound hv9
  · exact hv9

theorem State.meterPublish_sound {q : List Instr} {s : State} {e : ℕ} (hs : Sound q s) :
    Sound q (State.meterPublish s e) := by
  unfold State.meterPublish
  split
  · refine Sound.ite ?_ ?_
    · exact hs
    · extract_lets -merge -useContext +onlyGivenNames v1 v2 v3 v4 v5 v6 v7 v8 v9 v10 v11 v12 v13 v14 v15 v16 v17 v18 v19
      try clear_value v1
      try clear_value v2
      try clear_value v3
      try clear_value v4
      try clear_value v5
      try clear_value v6
      try clear_value v7
      try clear_value v8
      try clear_value v9
      try clear_value v10
      try clear_value v11
      try clear_value v12
      try clear_value v13
      try clear_value v14
      have hv15 : Sound q v15 := by
        unfold v15
        exact State.taken_sound hs
      try clear_value v15
      try clear_value v16
      try clear_value v17
      try clear_value v18
      have hv19 : Sound q v19 := by
        unfold v19
        exact Sound.upd hv15
      try clear_value v19
      refine State.ownWrite_sound ?_
      refine Sound.ite ?_ ?_
      · exact State.shadowForce_sound hv19
      · exact hv19

theorem State.publishRound_sound {q : List Instr} {s : State} (hs : Sound q s) :
    Sound q (State.publishRound s) := by
  unfold State.publishRound
  split
  · exact hs
  · extract_lets -merge -useContext +onlyGivenNames v1 v2
    have hv1 : Sound q v1 := by
      unfold v1
      refine Sound.ite ?_ ?_
      · refine State.each_sound hs ?_
        intro a3 a4 ha3
        exact State.meterPublish_sound ha3
      · exact hs
    try clear_value v1
    try clear_value v2
    exact Sound.upd hv1

theorem State.cycleFeeder_sound {q : List Instr} {s : State} {f : ℕ} (hs : Sound q s) :
    Sound q (State.cycleFeeder s f) := by
  unfold State.cycleFeeder
  refine Sound.ite ?_ ?_
  · exact hs
  · extract_lets -merge -useContext +onlyGivenNames v1 v2 v3 v4 v5
    try clear_value v1
    try clear_value v2
    try clear_value v3
    try clear_value v4
    have hv5 : Sound q v5 := by
      unfold v5
      refine State.each_sound hs ?_
      intro a6 a7 ha6
      extract_lets -merge -useContext +onlyGivenNames v8
      try clear_value v8
      split
      · exact State.setPhase_sound ha6
    try clear_value v5
    refine State.taken_sound ?_
    exact State.addCycle_sound hv5

theorem State.selectSeg_sound {q : List Instr} {s : State} {c : ℕ} (hs : Sound q s) :
    Sound q (State.selectSeg s c) := by
  unfold State.selectSeg
  refine Sound.ite ?_ ?_
  · exact hs
  · extract_lets -merge -useContext +onlyGivenNames v1 v2 v3
    try clear_value v1
    try clear_value v2
    try clear_value v3
    refine Sound.ite ?_ ?_
    · exact hs
    · refine State.flagChannel_sound ?_
      refine State.bump_sound ?_
      exact State.wr_sound hs

theorem State.installCal_sound {q : List Instr} {s : State} (hs : Sound q s) :
    Sound q (State.installCal s) := by
  unfold State.installCal
  split
  · exact hs
  · extract_lets -merge -useContext +onlyGivenNames v1 v2 v3
    have hv1 : Sound q v1 := by
      unfold v1
      refine State.each_sound hs ?_
      intro a4 a5 ha4
      exact State.setMw_sound ha4
    try clear_value v1
    try clear_value v2
    have hv3 : Sound q v3 := by
      unfold v3
      exact Sound.upd hv1
    try clear_value v3
    refine State.flagChannel_sound ?_
    exact State.event_sound hv3

theorem State.cycleBoundary_sound {q : List Instr} {s : State} {at_ : ℕ} {ends : Bool} (hs : Sound q s) :
    Sound q (State.cycleBoundary s at_ ends) := by
  unfold State.cycleBoundary
  extract_lets -merge -useContext +onlyGivenNames v1 v2 v3 v4 v5 v6 v7 v8 v9 v10
  have hv1 : Sound q v1 := by
    unfold v1
    refine State.each_sound hs ?_
    intro a11 a12 ha11
    exact State.cycleFeeder_sound ha11
  try clear_value v1
  try clear_value v2
  have hv3 : Sound q v3 := by
    unfold v3
    exact State.setReg_sound hv1
  try clear_value v3
  have hv4 : Sound q v4 := by
    unfold v4
    refine Sound.ite ?_ ?_
    · refine State.hdrFlag_sound ?_
      exact State.taken_sound hv3
    · exact State.taken_sound hv3
  try clear_value v4
  try clear_value v5
  have hv6 : Sound q v6 := by
    unfold v6
    exact Sound.upd hv4
  try clear_value v6
  have hv7 : Sound q v7 := by
    unfold v7
    refine Sound.ite ?_ ?_
    · exact hs
    · refine Sound.ite ?_ ?_
      · exact State.latchPage_sound hv6
      · exact hv6
  try clear_value v7
  have hv8 : Sound q v8 := by
    unfold v8
    exact State.installCal_sound hv7
  try clear_value v8
  have hv9 : Sound q v9 := by
    unfold v9
    refine Sound.ite ?_ ?_
    · refine State.each_sound hv8 ?_
      intro a13 a14 ha13
      exact State.selectSeg_sound ha13
    · exact hv8
  try clear_value v9
  try clear_value v10
  exact Sound.upd hv9

theorem State.validCrossing_sound {q : List Instr} {s : State} {at_ : ℕ} {el : ℕ} (hs : Sound q s) :
    Sound q (State.validCrossing s at_ el) := by
  unfold State.validCrossing
  extract_lets -merge -useContext +onlyGivenNames v1 v2 v3 v4 v5 v6 v7 v8 v9
  try clear_value v1
  try clear_value v2
  try clear_value v3
  have hv4 : Sound q v4 := by
    unfold v4
    exact Sound.upd hs
  try clear_value v4
  try clear_value v5
  try clear_value v6
  have hv7 : Sound q v7 := by
    unfold v7
    exact Sound.upd hv4
  try clear_value v7
  have hv8 : Sound q v8 := by
    unfold v8
    refine State.wr_sound ?_
    exact State.hdrFlag_sound hv7
  try clear_value v8
  have hv9 : Sound q v9 := by
    unfold v9
    refine State.event_sound ?_
    exact State.raise_sound hv8
  try clear_value v9
  refine Sound.ite ?_ ?_
  · refine State.cycleBoundary_sound ?_
    exact State.wr_sound hv4
  · refine Sound.ite ?_ ?_
    · exact State.cycleBoundary_sound hv4
    · refine Sound.ite ?_ ?_
      · exact hv7
      · refine Sound.ite ?_ ?_
        · exact hv9
        · exact State.cycleBoundary_sound hv9

theorem State.zeroCross_sound {q : List Instr} {s : State} {ref : ℚ} {stamp : ℕ} (hs : Sound q s) :
    Sound q (State.zeroCross s ref stamp) := by
  unfold State.zeroCross
  extract_lets -merge -useContext +onlyGivenNames v1 v2 v3 v4 v5 v6 v7
  try clear_value v1
  try clear_value v2
  try clear_value v3
  try clear_value v4
  try clear_value v5
  try clear_value v6
  have hv7 : Sound q v7 := by
    unfold v7
    exact Sound.upd hs
  try clear_value v7
  refine Sound.ite ?_ ?_
  · exact hv7
  · split
    · refine Sound.ite ?_ ?_
      · exact State.bump_sound hv7
      · exact State.validCrossing_sound hv7
    · exact State.validCrossing_sound hv7

theorem State.toFallback_sound {q : List Instr} {s : State} (hs : Sound q s) :
    Sound q (State.toFallback s) := by
  unfold State.toFallback
  extract_lets -merge -useContext +onlyGivenNames v1 v2 v3 v4 v5
  have hv1 : Sound q v1 := by
    unfold v1
    exact State.advance_sound hs
  try clear_value v1
  try clear_value v2
  have hv3 : Sound q v3 := by
    unfold v3
    refine State.cycleBoundary_sound ?_
    exact State.hdrFlag_sound hv1
  try clear_value v3
  try clear_value v4
  have hv5 : Sound q v5 := by
    unfold v5
    exact Sound.upd hv3
  try clear_value v5
  refine State.event_sound ?_
  refine State.raise_sound ?_
  refine State.bump_sound ?_
  exact State.wr_sound hv5

theorem State.synthetic_sound {q : List Instr} {s : State} (hs : Sound q s) :
    Sound q (State.synthetic s) := by
  unfold State.synthetic
  extract_lets -merge -useContext +onlyGivenNames v1 v2
  try clear_value v1
  have hv2 : Sound q v2 := by
    unfold v2
    exact Sound.upd hs
  try clear_value v2
  refine State.cycleBoundary_sound ?_
  exact State.hdrFlag_sound hv2

theorem State.frontEnd_sound {q : List Instr} {s : State} {c : ℕ} {raw : ℤ} {faulty : Bool} (hs : Sound q s) :
    Sound q (State.frontEnd s c raw faulty) := by
  unfold State.frontEnd
  refine Sound.ite ?_ ?_
  · exact hs
  · extract_lets -merge -useContext +onlyGivenNames v1 v2 v3 v4 v5
    have hv1 : Sound q v1 := by
      unfold v1
      refine Sound.ite ?_ ?_
      · refine State.event_sound ?_
        exact State.raise_sound hs
      · exact hs
    try clear_value v1
    have hv2 : Sound q v2 := by
      unfold v2
      exact State.wrb_sound hv1
    try clear_value v2
    have hv3 : Sound q v3 := by
      unfold v3
      refine State.bump_sound ?_
      refine State.raise_sound ?_
      exact State.raise_sound hv2
    try clear_value v3
    try clear_value v4
    try clear_value v5
    refine Sound.ite ?_ ?_
    · exact hv2
    · refine Sound.ite ?_ ?_
      · refine State.event_sound ?_
        exact Sound.upd hv3
      · exact hv3

theorem State.sampleFlags_sound {q : List Instr} {s : State} {c : ℕ} {raw : ℤ} (hs : Sound q s) :
    Sound q (State.sampleFlags s c raw) := by
  unfold State.sampleFlags
  refine Sound.ite ?_ ?_
  · exact hs
  · refine Sound.ite ?_ ?_
    · exact State.flagChannel_sound hs
    · refine Sound.ite ?_ ?_
      · exact State.flagChannel_sound hs
      · exact hs

theorem State.filterSet_sound {q : List Instr} {s : State} {raw : ℕ → ℤ} (hs : Sound q s) :
    Sound q (State.filterSet s raw) := by
  unfold State.filterSet
  extract_lets -merge -useContext +onlyGivenNames v1 v2
  try clear_value v1
  try clear_value v2
  exact Sound.upd hs

theorem State.sampleGap_sound {q : List Instr} {s : State} {c : ℕ} (hs : Sound q s) :
    Sound q (State.sampleGap s c) := by
  unfold State.sampleGap
  refine State.flagChannel_sound ?_
  refine State.raise_sound ?_
  exact State.bump_sound hs

theorem State.stream_sound {q : List Instr} {s : State} {c : ℕ} {x2 : ℚ} {stamp : ℕ} {ovr : Bool} (hs : Sound q s) :
    Sound q (State.stream s c x2 stamp ovr) := by
  unfold State.stream
  extract_lets -merge -useContext +onlyGivenNames v1 v2 v3 v4
  try clear_value v1
  try clear_value v2
  try clear_value v3
  try clear_value v4
  split
  · rename_i p5 e6
    have hp5 : Sound q p5 := by
      refine Sound.ofSnd e6 ?_
      refine State.asnPostTo_sound ?_
      exact State.taken_sound hs
    exact hp5
  · rename_i p7 e8
    have hp7 : Sound q p7 := by
      refine Sound.ofSnd e8 ?_
      refine State.asnPostTo_sound ?_
      exact State.taken_sound hs
    exact State.sampleGap_sound hp7

theorem State.feederSlots_sound {q : List Instr} {s : State} {f : ℕ} {v : ℕ → ℚ} {i : ℕ → ℚ} (hs : Sound q s) :
    Sound q (State.feederSlots s f v i) := by
  unfold State.feederSlots
  extract_lets -merge -useContext +onlyGivenNames v1 v2 v3 v4
  try clear_value v1
  try clear_value v2
  have hv3 : Sound q v3 := by
    unfold v3
    refine State.each_sound hs ?_
    intro a5 a6 ha5
    split
    · exact State.setPhase_sound ha5
  try clear_value v3
  try clear_value v4
  refine Sound.ite ?_ ?_
  · exact hv3
  · refine Sound.ite ?_ ?_
    · refine State.each_sound hv3 ?_
      intro a7 a8 ha7
      exact State.setFlag_sound ha7
    · refine State.taken_sound ?_
      exact State.addSample_sound hv3

theorem State.regParity_sound {q : List Instr} {s : State} {one : List ℕ} {both : List ℕ} (hs : Sound q s) :
    Sound q (State.regParity s one both) := by
  unfold State.regParity
  extract_lets -merge -useContext +onlyGivenNames v1
  have hv1 : Sound q v1 := by
    unfold v1
    refine State.each_sound hs ?_
    intro a2 a3 ha2
    exact State.bump_sound ha2
  try clear_value v1
  refine State.each_sound hv1 ?_
  intro a4 a5 ha4
  refine Sound.ite ?_ ?_
  · exact ha4
  · refine State.event_sound ?_
    refine State.raise_sound ?_
    exact State.setMreg_sound ha4

theorem State.mtrRound_sound {q : List Instr} {s : State} {m : MtrInput} (hs : Sound q s) :
    Sound q (State.mtrRound s m) := by
  unfold State.mtrRound
  extract_lets -merge -useContext +onlyGivenNames v1 v2 v3 v4 v5 v6 v7 v8 v9 v10 v11 v12 v13 v14 v15 v16 v17 v18
  try clear_value v1
  try clear_value v2
  try clear_value v3
  have hv4 : Sound q v4 := by
    unfold v4
    exact Sound.upd hs
  try clear_value v4
  have hv5 : Sound q v5 := by
    unfold v5
    refine State.regParity_sound ?_
    refine State.each_sound hv4 ?_
    intro a19 a20 ha19
    exact State.clearFeeder_sound ha19
  try clear_value v5
  try clear_value v6
  have hv7 : Sound q v7 := by
    unfold v7
    refine State.filterSet_sound ?_
    refine State.each_sound hv5 ?_
    intro a21 a22 ha21
    exact State.frontEnd_sound ha21
  try clear_value v7
  have hv8 : Sound q v8 := by
    unfold v8
    exact State.zeroCross_sound hv7
  try clear_value v8
  have hv9 : Sound q v9 := by
    unfold v9
    refine State.each_sound hv8 ?_
    intro a23 a24 ha23
    exact State.sampleFlags_sound ha23
  try clear_value v9
  try clear_value v10
  try clear_value v11
  have hv12 : Sound q v12 := by
    unfold v12
    exact hv9
  try clear_value v12
  have hv13 : Sound q v13 := by
    unfold v13
    refine State.each_sound hv9 ?_
    intro a25 a26 ha25
    exact State.feederSlots_sound ha25
  try clear_value v13
  try clear_value v14
  try clear_value v15
  have hv16 : Sound q v16 := by
    unfold v16
    refine State.each_sound hv13 ?_
    intro a27 a28 ha27
    exact State.stream_sound ha27
  try clear_value v16
  try clear_value v17
  have hv18 : Sound q v18 := by
    unfold v18
    exact Sound.upd hv16
  try clear_value v18
  refine State.bump_sound ?_
  exact State.publishRound_sound hv18

theorem State.mtrStart_sound {q : List Instr} {s : State} (hs : Sound q s) :
    Sound q (State.mtrStart s) := by
  unfold State.mtrStart
  extract_lets -merge -useContext +onlyGivenNames v1 v2 v3 v4 v5 v6 v7 v8
  try clear_value v1
  try clear_value v2
  try clear_value v3
  try clear_value v4
  have hv5 : Sound q v5 := by
    unfold v5
    exact State.taken_sound hs
  try clear_value v5
  have hv6 : Sound q v6 := by
    unfold v6
    exact Sound.upd hv5
  try clear_value v6
  have hv7 : Sound q v7 := by
    unfold v7
    refine State.each_sound hv6 ?_
    intro a9 a10 ha9
    exact State.wr_sound ha9
  try clear_value v7
  have hv8 : Sound q v8 := by
    unfold v8
    exact State.wr_sound hv7
  try clear_value v8
  refine Sound.ite ?_ ?_
  · exact State.restoreAll_sound hv8
  · exact State.clear_sound hv8

theorem State.mtrOff_sound {q : List Instr} {s : State} (hs : Sound q s) :
    Sound q (State.mtrOff s) := by
  unfold State.mtrOff
  exact State.ckptStart_sound hs

theorem State.abandonRound_sound {q : List Instr} {s : State} (hs : Sound q s) :
    Sound q (State.abandonRound s) := by
  unfold State.abandonRound
  split
  · exact hs
  · refine Sound.ite ?_ ?_
    · exact hs
    · extract_lets -merge -useContext +onlyGivenNames v1 v2
      try clear_value v1
      have hv2 : Sound q v2 := by
        unfold v2
        exact Sound.upd hs
      try clear_value v2
      refine State.raise_sound ?_
      exact State.bumpBy_sound hv2

theorem State.mtrXbar_sound {q : List Instr} {s : State} (hs : Sound q s) :
    Sound q (State.mtrXbar s) := by
  unfold State.mtrXbar
  refine State.each_sound ?_ ?_
  · exact State.abandonRound_sound hs
  · intro a1 a2 ha1
    exact State.setFlag_sound ha1

end Sys2Proof.Machine
end

