-- ==== Sys2Proof/Laws/SoundCan.lean ====
section
/-!
SUPPORT. Every operation of Machine/Can.lean keeps the queue and the canonical forms of memory and registers.
-/

namespace Sys2Proof.Machine

theorem State.canErrState_sound {q : List Instr} {s : State} {c : ℕ} (hs : Sound q s) :
    Sound q (State.canErrState s c) := by
  unfold State.canErrState
  extract_lets -merge -useContext +onlyGivenNames v1 v2
  try clear_value v1
  try clear_value v2
  refine Sound.ite ?_ ?_
  · refine State.event_sound ?_
    refine State.raise_sound ?_
    exact State.wr_sound hs
  · refine Sound.ite ?_ ?_
    · refine State.raise_sound ?_
      exact State.wr_sound hs
    · exact hs

theorem State.busOff_sound {q : List Instr} {s : State} {c : ℕ} (hs : Sound q s) :
    Sound q (State.busOff s c) := by
  unfold State.busOff
  extract_lets -merge -useContext +onlyGivenNames v1 v2 v3 v4
  have hv1 : Sound q v1 := by
    unfold v1
    refine State.taken_sound ?_
    refine State.wr_sound ?_
    exact State.wr_sound hs
  try clear_value v1
  have hv2 : Sound q v2 := by
    unfold v2
    refine State.event_sound ?_
    exact State.raise_sound hv1
  try clear_value v2
  try clear_value v3
  have hv4 : Sound q v4 := by
    unfold v4
    refine Sound.ite ?_ ?_
    · refine State.raise_sound ?_
      exact State.setCan_sound hv2
    · exact hv2
  try clear_value v4
  exact State.canUnreach_sound hv4

theorem State.tecUp_sound {q : List Instr} {s : State} {c : ℕ} (hs : Sound q s) :
    Sound q (State.tecUp s c) := by
  unfold State.tecUp
  extract_lets -merge -useContext +onlyGivenNames v1
  try clear_value v1
  refine Sound.ite ?_ ?_
  · exact State.busOff_sound hs
  · refine State.canErrState_sound ?_
    exact State.wr_sound hs

theorem State.ackSeen_sound {q : List Instr} {s : State} {c : ℕ} (hs : Sound q s) :
    Sound q (State.ackSeen s c) := by
  unfold State.ackSeen
  refine State.clear_sound ?_
  exact State.wr_sound hs

theorem State.errorFrame_sound {q : List Instr} {s : State} {c : ℕ} {lec : ℕ} (hs : Sound q s) :
    Sound q (State.errorFrame s c lec) := by
  unfold State.errorFrame
  refine State.wr_sound ?_
  exact State.bump_sound hs

theorem State.txHalt_sound {q : List Instr} {s : State} {c : ℕ} {b : ℕ} {i : ℕ} (hs : Sound q s) :
    Sound q (State.txHalt s c b i) := by
  unfold State.txHalt
  extract_lets -merge -useContext +onlyGivenNames v1 v2
  have hv1 : Sound q v1 := by
    unfold v1
    refine State.raise_sound ?_
    exact State.txEnd_sound hs
  try clear_value v1
  have hv2 : Sound q v2 := by
    unfold v2
    refine State.wr_sound ?_
    refine State.raise_sound ?_
    exact State.wr_sound hv1
  try clear_value v2
  refine State.egressHalt_sound ?_
  refine State.event_sound ?_
  exact State.raise_sound hv2

theorem State.attemptFailed_sound {q : List Instr} {s : State} {c : ℕ} {b : ℕ} (hs : Sound q s) :
    Sound q (State.attemptFailed s c b) := by
  unfold State.attemptFailed
  extract_lets -merge -useContext +onlyGivenNames v1
  try clear_value v1
  exact State.setTbStat_sound hs

theorem State.dataCheck_sound {q : List Instr} {s : State} {c : ℕ} {b : ℕ} (hs : Sound q s) :
    Sound q ((State.dataCheck s c b)).2 := by
  unfold State.dataCheck
  split
  · try dsimp -zeta only
    exact hs
  · split
    · extract_lets -merge -useContext +onlyGivenNames v1
      have hv1 : Sound q v1 := by
        unfold v1
        refine State.taken_sound ?_
        exact State.wr_sound hs
      try clear_value v1
      try dsimp -zeta only
      exact hv1
    · try dsimp -zeta only
      exact hs

theorem State.canStartFrame_sound {q : List Instr} {s : State} {c : ℕ} (hs : Sound q s) :
    Sound q (State.canStartFrame s c) := by
  unfold State.canStartFrame
  refine Sound.ite ?_ ?_
  · exact hs
  · split
    · exact hs
    · split
      · refine Sound.ite ?_ ?_
        · refine State.txHalt_sound ?_
          exact State.taken_sound hs
        · refine State.txHalt_sound ?_
          refine State.tecUp_sound ?_
          refine State.attemptFailed_sound ?_
          refine State.errorFrame_sound ?_
          exact State.taken_sound hs
      · extract_lets -merge -useContext +onlyGivenNames v1 v2
        have hv1 : Sound q v1 := by
          unfold v1
          exact State.setTxst_sound hs
        try clear_value v1
        have hv2 : Sound q v2 := by
          unfold v2
          exact State.setCanRam_sound hv1
        try clear_value v2
        split
        · rename_i p3 p4 e5
          have hp4 : Sound q p4 := by
            refine Sound.ofSnd e5 ?_
            exact State.dataCheck_sound hv2
          exact State.setCan_sound hp4

theorem State.attemptBack_sound {q : List Instr} {s : State} {c : ℕ} {b : ℕ} (hs : Sound q s) :
    Sound q (State.attemptBack s c b) := by
  unfold State.attemptBack
  refine Sound.ite ?_ ?_
  · exact State.txEnd_sound hs
  · exact State.txPend_sound hs

theorem State.loneAbort_sound {q : List Instr} {s : State} {c : ℕ} (hs : Sound q s) :
    Sound q (State.loneAbort s c) := by
  unfold State.loneAbort
  refine State.each_sound hs ?_
  intro a1 a2 ha1
  exact State.txEndState_sound ha1

theorem State.ackError_sound {q : List Instr} {s : State} {c : ℕ} {b : ℕ} (hs : Sound q s) :
    Sound q (State.ackError s c b) := by
  unfold State.ackError
  extract_lets -merge -useContext +onlyGivenNames v1 v2 v3 v4 v5 v6 v7
  have hv1 : Sound q v1 := by
    unfold v1
    refine State.attemptFailed_sound ?_
    refine State.errorFrame_sound ?_
    exact State.bump_sound hs
  try clear_value v1
  have hv2 : Sound q v2 := by
    unfold v2
    refine Sound.ite ?_ ?_
    · exact State.tecUp_sound hv1
    · exact hv1
  try clear_value v2
  try clear_value v3
  have hv4 : Sound q v4 := by
    unfold v4
    exact State.wr_sound hv2
  try clear_value v4
  try clear_value v5
  have hv6 : Sound q v6 := by
    unfold v6
    refine Sound.ite ?_ ?_
    · refine State.event_sound ?_
      refine State.raise_sound ?_
      exact State.raise_sound hv4
    · exact hv4
  try clear_value v6
  have hv7 : Sound q v7 := by
    unfold v7
    exact State.attemptBack_sound hv6
  try clear_value v7
  refine Sound.ite ?_ ?_
  · refine Sound.ite ?_ ?_
    · refine State.stnFill_sound ?_
      exact State.loneAbort_sound hv7
    · refine Sound.ite ?_ ?_
      · exact State.txEnd_sound hv7
      · exact hv7
  · exact hv7

theorem State.canEndAttempt_sound {q : List Instr} {s : State} {c : ℕ} {r : CanEnd} (hs : Sound q s) :
    Sound q (State.canEndAttempt s c r) := by
  unfold State.canEndAttempt
  split
  · exact hs
  · extract_lets -merge -useContext +onlyGivenNames v1 v2 v3 v4 v5 v6 v7 v8
    try clear_value v1
    try clear_value v2
    have hv3 : Sound q v3 := by
      unfold v3
      exact State.setCan_sound hs
    try clear_value v3
    try clear_value v4
    have hv5 : Sound q v5 := by
      unfold v5
      exact State.bump_sound hv3
    try clear_value v5
    have hv6 : Sound q v6 := by
      unfold v6
      refine State.canErrState_sound ?_
      exact State.wr_sound hv5
    try clear_value v6
    have hv7 : Sound q v7 := by
      unfold v7
      exact State.ackSeen_sound hv6
    try clear_value v7
    have hv8 : Sound q v8 := by
      unfold v8
      refine Sound.ite ?_ ?_
      · exact State.setTbStat_sound hv7
      · exact hv7
    try clear_value v8
    split
    · exact State.txEnd_sound hv8
    · refine State.attemptBack_sound ?_
      exact State.bump_sound hv3
    · exact State.ackError_sound hv3
    · refine State.attemptBack_sound ?_
      refine State.tecUp_sound ?_
      refine State.attemptFailed_sound ?_
      exact State.errorFrame_sound hv3

theorem State.fltovf_sound {q : List Instr} {s : State} {c : ℕ} (hs : Sound q s) :
    Sound q (State.fltovf s c) := by
  unfold State.fltovf
  extract_lets -merge -useContext +onlyGivenNames v1 v2
  have hv1 : Sound q v1 := by
    unfold v1
    refine State.raise_sound ?_
    exact State.bump_sound hs
  try clear_value v1
  try clear_value v2
  refine Sound.ite ?_ ?_
  · refine State.event_sound ?_
    exact State.setCan_sound hv1
  · exact hv1

theorem State.canToServer_sound {q : List Instr} {s : State} {c : ℕ} {f : CanFrame} (hs : Sound q s) :
    Sound q (State.canToServer s c f) := by
  unfold State.canToServer
  split
  · exact State.fltovf_sound hs
  · refine Sound.ite ?_ ?_
    · refine State.fltovf_sound ?_
      exact State.bump_sound hs
    · split
      · rename_i p1 p2 e3
        have hp2 : Sound q p2 := by
          refine Sound.ofSnd e3 ?_
          refine State.rxWords_sound ?_
          exact State.taken_sound hs
        extract_lets -merge -useContext +onlyGivenNames v4 v5
        have hv4 : Sound q v4 := by
          unfold v4
          exact State.setCanWords_sound hp2
        try clear_value v4
        try clear_value v5
        exact State.asnPost_sound hv4

theorem State.canFilterFrame_sound {q : List Instr} {s : State} {c : ℕ} {f : CanFrame} (hs : Sound q s) :
    Sound q (State.canFilterFrame s c f) := by
  unfold State.canFilterFrame
  extract_lets -merge -useContext +onlyGivenNames v1 v2 v3 v4
  try clear_value v1
  try clear_value v2
  have hv3 : Sound q v3 := by
    unfold v3
    exact State.bump_sound hs
  try clear_value v3
  try clear_value v4
  refine Sound.ite ?_ ?_
  · refine Sound.ite ?_ ?_
    · exact State.setCan_sound hv3
    · exact State.bump_sound hs
  · refine Sound.ite ?_ ?_
    · exact State.canToServer_sound hs
    · split
      · extract_lets -merge -useContext +onlyGivenNames v5
        try clear_value v5
        refine Sound.ite ?_ ?_
        · exact State.bump_sound hs
        · split
          · rename_i p6 p7 e8
            have hp7 : Sound q p7 := by
              refine Sound.ofSnd e8 ?_
              exact State.rxWords_sound hs
            refine Sound.ite ?_ ?_
            · exact State.fifoStore_sound hp7
            · exact State.rxStore_sound hp7
      · refine Sound.ite ?_ ?_
        · split
          · rename_i p9 p10 e11
            have hp10 : Sound q p10 := by
              refine Sound.ofSnd e11 ?_
              exact State.rxWords_sound hs
            exact State.fifoStore_sound hp10
        · exact State.bump_sound hs

theorem State.canRxErr_sound {q : List Instr} {s : State} {c : ℕ} {lec : ℕ} (hs : Sound q s) :
    Sound q (State.canRxErr s c lec) := by
  unfold State.canRxErr
  refine Sound.ite ?_ ?_
  · exact hs
  · refine Sound.ite ?_ ?_
    · exact State.wr_sound hs
    · extract_lets -merge -useContext +onlyGivenNames v1
      have hv1 : Sound q v1 := by
        unfold v1
        exact State.errorFrame_sound hs
      try clear_value v1
      refine State.canErrState_sound ?_
      exact State.wr_sound hv1

theorem State.recDown_sound {q : List Instr} {s : State} {c : ℕ} (hs : Sound q s) :
    Sound q (State.recDown s c) := by
  unfold State.recDown
  extract_lets -merge -useContext +onlyGivenNames v1
  try clear_value v1
  refine Sound.ite ?_ ?_
  · refine State.canErrState_sound ?_
    refine State.taken_sound ?_
    exact State.wr_sound hs
  · exact State.wr_sound hs

theorem State.canReceive_sound {q : List Instr} {s : State} {c : ℕ} {f : CanFrame} (hs : Sound q s) :
    Sound q (State.canReceive s c f) := by
  unfold State.canReceive
  refine Sound.ite ?_ ?_
  · exact hs
  · refine Sound.ite ?_ ?_
    · exact State.canRxErr_sound hs
    · refine State.canFilterFrame_sound ?_
      refine State.ackSeen_sound ?_
      refine State.recDown_sound ?_
      exact State.bump_sound hs

theorem State.canResult_sound {q : List Instr} {r : Reaped} {c : ℕ} (hr : Sound q (r).st) :
    Sound q (State.canResult r c) := by
  unfold State.canResult
  extract_lets -merge -useContext +onlyGivenNames v1 v2 v3 v4 v5
  have hv1 : Sound q v1 := by
    unfold v1
    exact hr
  try clear_value v1
  try clear_value v2
  try clear_value v3
  try clear_value v4
  try clear_value v5
  refine Sound.ite ?_ ?_
  · exact hv1
  · refine Sound.ite ?_ ?_
    · exact hv1
    · refine Sound.ite ?_ ?_
      · exact State.fltovf_sound hv1
      · refine Sound.ite ?_ ?_
        · exact State.bump_sound hv1
        · refine Sound.ite ?_ ?_
          · exact State.fifoStore_sound hv1
          · refine Sound.ite ?_ ?_
            · exact hv1
            · exact State.rxStore_sound hv1

theorem State.canMdata_sound {q : List Instr} {s : State} {c : ℕ} {v : Word} (hs : Sound q s) :
    Sound q (State.canMdata s c v) := by
  unfold State.canMdata
  extract_lets -merge -useContext +onlyGivenNames v1 v2
  try clear_value v1
  have hv2 : Sound q v2 := by
    unfold v2
    exact State.wr_sound hs
  try clear_value v2
  split
  · exact State.setCanRam_sound hv2
  · exact hv2
  · exact State.raise_sound hv2

theorem State.canReadRam_sound {q : List Instr} {s : State} {c : ℕ} {w : ℕ} (hs : Sound q s) :
    Sound q ((State.canReadRam s c w)).2 := by
  unfold State.canReadRam
  split
  · try dsimp -zeta only
    exact hs
  · extract_lets -merge -useContext +onlyGivenNames v1 v2 v3 v4
    try clear_value v1
    have hv2 : Sound q v2 := by
      unfold v2
      exact State.raise_sound hs
    try clear_value v2
    try clear_value v3
    have hv4 : Sound q v4 := by
      unfold v4
      refine Sound.ite ?_ ?_
      · exact State.setCanRam_sound hv2
      · exact hv2
    try clear_value v4
    split
    · try dsimp -zeta only
      exact hs
    · try dsimp -zeta only
      exact hv4

theorem State.canCmd_sound {q : List Instr} {s : State} {c : ℕ} {op : ℕ} {result : ℕ} (hs : Sound q s) :
    Sound q (State.canCmd s c op result) := by
  unfold State.canCmd
  refine State.raise_sound ?_
  refine State.wr_sound ?_
  exact State.wr_sound hs

theorem State.canWakeUp_sound {q : List Instr} {s : State} {c : ℕ} {src : ℕ} (hs : Sound q s) :
    Sound q (State.canWakeUp s c src) := by
  unfold State.canWakeUp
  extract_lets -merge -useContext +onlyGivenNames v1 v2 v3
  try clear_value v1
  have hv2 : Sound q v2 := by
    unfold v2
    exact State.setCan_sound hs
  try clear_value v2
  have hv3 : Sound q v3 := by
    unfold v3
    refine State.raise_sound ?_
    refine State.wr_sound ?_
    exact State.clear_sound hv2
  try clear_value v3
  refine State.event_sound ?_
  exact State.raise_sound hv3

theorem execCanTxRequest_sound {q : List Instr} {c : ℕ} {w : ℕ} {v : Word} {s : State} (hs : Sound q s) :
    NextSound q (execCanTxRequest c w v s) := by
  unfold execCanTxRequest
  refine onUnit_sound ?_
  refine State.each_sound hs ?_
  intro a1 a2 ha1
  exact State.txRequest_sound ha1

theorem State.cancelAt_sound {q : List Instr} {s : State} {c : ℕ} {b : ℕ} (hs : Sound q s) :
    Sound q (State.cancelAt s c b) := by
  unfold State.cancelAt
  split
  · refine Sound.ite ?_ ?_
    · exact State.raise_sound hs
    · exact State.txCancel_sound hs
  · exact State.txCancel_sound hs

theorem execCanTxCancel_sound {q : List Instr} {c : ℕ} {w : ℕ} {v : Word} {s : State} (hs : Sound q s) :
    NextSound q (execCanTxCancel c w v s) := by
  unfold execCanTxCancel
  refine onUnit_sound ?_
  extract_lets -merge -useContext +onlyGivenNames v1
  have hv1 : Sound q v1 := by
    unfold v1
    refine State.each_sound hs ?_
    intro a2 a3 ha2
    exact State.cancelAt_sound ha2
  try clear_value v1
  exact State.stnFill_sound hv1

theorem execCanFrameStart_sound {q : List Instr} {c : ℕ} {s : State} (hs : Sound q s) :
    NextSound q (execCanFrameStart c s) := by
  unfold execCanFrameStart
  refine onUnit_sound ?_
  exact State.canStartFrame_sound hs

theorem execCanTxAttemptEnd_sound {q : List Instr} {c : ℕ} {r : CanEnd} {s : State} (hs : Sound q s) :
    NextSound q (execCanTxAttemptEnd c r s) := by
  unfold execCanTxAttemptEnd
  refine onUnit_sound ?_
  exact State.canEndAttempt_sound hs

theorem execCanFrameReceived_sound {q : List Instr} {c : ℕ} {f : CanFrame} {s : State} (hs : Sound q s) :
    NextSound q (execCanFrameReceived c f s) := by
  unfold execCanFrameReceived
  refine onUnit_sound ?_
  exact State.canReceive_sound hs

theorem execCanProtocolException_sound {q : List Instr} {c : ℕ} {s : State} (hs : Sound q s) :
    NextSound q (execCanProtocolException c s) := by
  unfold execCanProtocolException
  refine onUnit_sound ?_
  refine Sound.ite ?_ ?_
  · extract_lets -merge -useContext +onlyGivenNames v1 v2 v3
    have hv1 : Sound q v1 := by
      unfold v1
      refine State.bump_sound ?_
      exact State.raise_sound hs
    try clear_value v1
    have hv2 : Sound q v2 := by
      unfold v2
      refine State.wr_sound ?_
      exact State.raise_sound hv1
    try clear_value v2
    try clear_value v3
    refine Sound.ite ?_ ?_
    · refine State.event_sound ?_
      exact State.setCan_sound hv2
    · exact hv2
  · exact hs

theorem execCanRxLock_sound {q : List Instr} {c : ℕ} {buf : ℕ} {s : State} (hs : Sound q s) :
    NextSound q (execCanRxLock c buf s) := by
  unfold execCanRxLock
  refine onUnit_sound ?_
  extract_lets -merge -useContext +onlyGivenNames v1 v2 v3
  have hv1 : Sound q v1 := by
    unfold v1
    refine Sound.ite ?_ ?_
    · exact hs
    · exact State.rxUnlock_sound hs
  try clear_value v1
  have hv2 : Sound q v2 := by
    unfold v2
    refine State.raise_sound ?_
    exact State.wr_sound hv1
  try clear_value v2
  try clear_value v3
  exact State.setCan_sound hv2

theorem execCanRxRelease_sound {q : List Instr} {c : ℕ} {pop : Bool} {s : State} (hs : Sound q s) :
    NextSound q (execCanRxRelease c pop s) := by
  unfold execCanRxRelease
  refine onUnit_sound ?_
  extract_lets -merge -useContext +onlyGivenNames v1
  have hv1 : Sound q v1 := by
    unfold v1
    refine State.setReg_sound ?_
    exact State.rxUnlock_sound hs
  try clear_value v1
  refine Sound.ite ?_ ?_
  · exact State.fifoPop_sound hv1
  · exact hv1

theorem execCanLockTimeout_sound {q : List Instr} {c : ℕ} {s : State} (hs : Sound q s) :
    NextSound q (execCanLockTimeout c s) := by
  unfold execCanLockTimeout
  refine onUnit_sound ?_
  split
  · exact hs
  · refine State.raise_sound ?_
    refine State.clear_sound ?_
    refine State.rxUnlock_sound ?_
    exact State.advance_sound hs

theorem execCanRxnewFree_sound {q : List Instr} {c : ℕ} {w : ℕ} {v : Word} {s : State} (hs : Sound q s) :
    NextSound q (execCanRxnewFree c w v s) := by
  unfold execCanRxnewFree
  refine onUnit_sound ?_
  refine State.each_sound hs ?_
  intro a1 a2 ha1
  exact State.rbFree_sound ha1

theorem execCanMdataWrite_sound {q : List Instr} {c : ℕ} {v : Word} {s : State} (hs : Sound q s) :
    NextSound q (execCanMdataWrite c v s) := by
  unfold execCanMdataWrite
  refine onUnit_sound ?_
  exact State.canMdata_sound hs

theorem execCanSleep_sound {q : List Instr} {c : ℕ} {s : State} (hs : Sound q s) :
    NextSound q (execCanSleep c s) := by
  unfold execCanSleep
  refine onUnit_sound ?_
  refine Sound.ite ?_ ?_
  · exact State.canCmd_sound hs
  · refine Sound.ite ?_ ?_
    · exact State.canCmd_sound hs
    · refine State.canCmd_sound ?_
      exact State.setCan_sound hs

theorem execCanSleepEntered_sound {q : List Instr} {c : ℕ} {s : State} (hs : Sound q s) :
    NextSound q (execCanSleepEntered c s) := by
  unfold execCanSleepEntered
  refine onUnit_sound ?_
  refine Sound.ite ?_ ?_
  · refine State.raise_sound ?_
    exact State.setCan_sound hs
  · exact hs

theorem execCanWake_sound {q : List Instr} {c : ℕ} {s : State} (hs : Sound q s) :
    NextSound q (execCanWake c s) := by
  unfold execCanWake
  refine onUnit_sound ?_
  refine Sound.ite ?_ ?_
  · exact State.canCmd_sound hs
  · refine Sound.ite ?_ ?_
    · refine State.canCmd_sound ?_
      exact State.canWakeUp_sound hs
    · exact State.canCmd_sound hs

theorem execCanWakeEvent_sound {q : List Instr} {c : ℕ} {e : CanWake} {s : State} (hs : Sound q s) :
    NextSound q (execCanWakeEvent c e s) := by
  unfold execCanWakeEvent
  refine onUnit_sound ?_
  split
  · refine Sound.ite ?_ ?_
    · exact State.canWakeUp_sound hs
    · exact hs
  · exact hs

theorem execCanBorecov_sound {q : List Instr} {c : ℕ} {s : State} (hs : Sound q s) :
    NextSound q (execCanBorecov c s) := by
  unfold execCanBorecov
  refine onUnit_sound ?_
  refine Sound.ite ?_ ?_
  · refine State.canCmd_sound ?_
    refine State.raise_sound ?_
    exact State.setCan_sound hs
  · exact State.canCmd_sound hs

theorem execCanBusoffRecoveryComplete_sound {q : List Instr} {c : ℕ} {s : State} (hs : Sound q s) :
    NextSound q (execCanBusoffRecoveryComplete c s) := by
  unfold execCanBusoffRecoveryComplete
  refine onUnit_sound ?_
  refine Sound.ite ?_ ?_
  · extract_lets -merge -useContext +onlyGivenNames v1 v2 v3
    try clear_value v1
    have hv2 : Sound q v2 := by
      unfold v2
      refine State.clear_sound ?_
      exact State.setCan_sound hs
    try clear_value v2
    have hv3 : Sound q v3 := by
      unfold v3
      refine State.wr_sound ?_
      refine State.wr_sound ?_
      exact State.wr_sound hv2
    try clear_value v3
    refine State.event_sound ?_
    refine State.raise_sound ?_
    exact State.raise_sound hv3
  · exact hs

theorem execCanTxresume_sound {q : List Instr} {c : ℕ} {s : State} (hs : Sound q s) :
    NextSound q (execCanTxresume c s) := by
  unfold execCanTxresume
  refine onUnit_sound ?_
  refine Sound.ite ?_ ?_
  · refine State.canCmd_sound ?_
    refine State.clear_sound ?_
    exact State.clear_sound hs
  · exact State.canCmd_sound hs

theorem execCanAbortall_sound {q : List Instr} {c : ℕ} {s : State} (hs : Sound q s) :
    NextSound q (execCanAbortall c s) := by
  unfold execCanAbortall
  refine onUnit_sound ?_
  extract_lets -merge -useContext +onlyGivenNames v1
  have hv1 : Sound q v1 := by
    unfold v1
    refine State.each_sound hs ?_
    intro a2 a3 ha2
    exact State.cancelAt_sound ha2
  try clear_value v1
  refine State.canCmd_sound ?_
  exact State.stnFill_sound hv1

theorem execCanTsCapture_sound {q : List Instr} {c : ℕ} {s : State} (hs : Sound q s) :
    NextSound q (execCanTsCapture c s) := by
  unfold execCanTsCapture
  refine onUnit_sound ?_
  extract_lets -merge -useContext +onlyGivenNames v1 v2 v3
  try clear_value v1
  try clear_value v2
  have hv3 : Sound q v3 := by
    unfold v3
    exact State.advanceMt_sound hs
  try clear_value v3
  refine State.wr64_sound ?_
  exact State.wr_sound hv3

theorem execCanRxError_sound {q : List Instr} {c : ℕ} {lec : ℕ} {s : State} (hs : Sound q s) :
    NextSound q (execCanRxError c lec s) := by
  unfold execCanRxError
  refine onUnit_sound ?_
  exact State.canRxErr_sound hs

theorem execCanIntegrationComplete_sound {q : List Instr} {c : ℕ} {s : State} (hs : Sound q s) :
    NextSound q (execCanIntegrationComplete c s) := by
  unfold execCanIntegrationComplete
  refine onUnit_sound ?_
  refine Sound.ite ?_ ?_
  · exact hs
  · exact State.clear_sound hs

end Sys2Proof.Machine
end

