-- ==== Sys2Proof/Laws/SoundDio.lean ====
section
/-!
SUPPORT. Every operation of Machine/Dio.lean keeps the queue and the canonical forms of memory and registers.
-/

namespace Sys2Proof.Machine

theorem State.diLevels_sound {q : List Instr} {s : State} {levels : BitVec 32} (hs : Sound q s) :
    Sound q (State.diLevels s levels) := by
  unfold State.diLevels
  extract_lets -merge -useContext +onlyGivenNames v1 v2 v3 v4 v5 v6 v7
  have hv1 : Sound q v1 := by
    unfold v1
    refine Sound.ite ?_ ?_
    · exact State.advance_sound hs
    · exact hs
  try clear_value v1
  try clear_value v2
  try clear_value v3
  try clear_value v4
  have hv5 : Sound q v5 := by
    unfold v5
    refine State.each_sound hv1 ?_
    intro a8 a9 ha8
    exact Sound.upd ha8
  try clear_value v5
  try clear_value v6
  have hv7 : Sound q v7 := by
    unfold v7
    exact Sound.upd hv5
  try clear_value v7
  exact State.diStates_sound hv7

theorem State.fieldSample_sound {q : List Instr} {s : State} (hs : Sound q s) :
    Sound q (State.fieldSample s) := by
  unfold State.fieldSample
  extract_lets -merge -useContext +onlyGivenNames v1 v2 v3
  try clear_value v1
  try clear_value v2
  try clear_value v3
  refine State.wrb_sound ?_
  refine State.wr_sound ?_
  refine State.wr_sound ?_
  exact State.wr_sound hs

theorem State.diAccept_sound {q : List Instr} {s : State} {ch : ℕ} (hs : Sound q s) :
    Sound q (State.diAccept s ch) := by
  unfold State.diAccept
  extract_lets -merge -useContext +onlyGivenNames v1 v2
  try clear_value v1
  have hv2 : Sound q v2 := by
    unfold v2
    exact State.advance_sound hs
  try clear_value v2
  refine Sound.ite ?_ ?_
  · exact State.diStates_sound hv2
  · exact hs

theorem State.filterWrite_sound {q : List Instr} {s : State} {ch : ℕ} {v : Word} (hs : Sound q s) :
    Sound q (State.filterWrite s ch v) := by
  unfold State.filterWrite
  extract_lets -merge -useContext +onlyGivenNames v1 v2 v3 v4
  have hv1 : Sound q v1 := by
    unfold v1
    exact State.wr_sound hs
  have hv2 : Sound q v2 := by
    unfold v2
    exact State.wr_sound hv1
  have hv4 : Sound q v4 := by
    unfold v4
    exact Sound.upd hv2
  refine Sound.ite ?_ ?_
  · exact State.diStates_sound hv4
  · exact hv4

theorem execDiEdge_sound {q : List Instr} {levels : BitVec 32} {s : State} (hs : Sound q s) :
    NextSound q (execDiEdge levels s) := by
  unfold execDiEdge
  refine NextSound.next ?_
  exact State.diLevels_sound hs

theorem execDiFilterAccept_sound {q : List Instr} {ch : ℕ} {s : State} (hs : Sound q s) :
    NextSound q (execDiFilterAccept ch s) := by
  unfold execDiFilterAccept
  refine onUnit_sound ?_
  exact State.diAccept_sound hs

theorem execDiFilterWrite_sound {q : List Instr} {ch : ℕ} {v : Word} {s : State} (hs : Sound q s) :
    NextSound q (execDiFilterWrite ch v s) := by
  unfold execDiFilterWrite
  refine onUnit_sound ?_
  exact State.filterWrite_sound hs

theorem execFreqGateWindowEnd_sound {q : List Instr} {k : ℕ} {s : State} (hs : Sound q s) :
    NextSound q (execFreqGateWindowEnd k s) := by
  unfold execFreqGateWindowEnd
  refine onUnit_sound ?_
  refine Sound.ite ?_ ?_
  · exact hs
  · refine State.freqEnd_sound ?_
    exact State.advanceMt_sound hs

theorem State.counterConfig_sound {q : List Instr} {s : State} {k : ℕ} {v : Word} (hs : Sound q s) :
    Sound q (State.counterConfig s k v) := by
  unfold State.counterConfig
  extract_lets -merge -useContext +onlyGivenNames v1 v2 v3 v4 v5 v6 v7 v8 v9 v10 v11
  try clear_value v1
  try clear_value v2
  try clear_value v3
  try clear_value v4
  have hv5 : Sound q v5 := by
    unfold v5
    exact State.wrIf_sound hs
  try clear_value v5
  have hv6 : Sound q v6 := by
    unfold v6
    exact State.wrIf_sound hv5
  try clear_value v6
  have hv7 : Sound q v7 := by
    unfold v7
    exact State.wr_sound hv6
  try clear_value v7
  have hv8 : Sound q v8 := by
    unfold v8
    exact State.wrIf_sound hv7
  try clear_value v8
  have hv9 : Sound q v9 := by
    unfold v9
    exact State.wrIf_sound hv8
  try clear_value v9
  have hv10 : Sound q v10 := by
    unfold v10
    refine State.wr_sound ?_
    exact State.wr_sound hv9
  try clear_value v10
  try clear_value v11
  refine Sound.ite ?_ ?_
  · refine State.setCnt_sound ?_
    exact State.clear_sound hv10
  · refine Sound.ite ?_ ?_
    · exact State.setCnt_sound hv9
    · exact hv9

theorem execCounterConfigWrite_sound {q : List Instr} {k : ℕ} {v : Word} {s : State} (hs : Sound q s) :
    NextSound q (execCounterConfigWrite k v s) := by
  unfold execCounterConfigWrite
  refine onUnit_sound ?_
  exact State.counterConfig_sound hs

theorem execCounterClear_sound {q : List Instr} {k : ℕ} {s : State} (hs : Sound q s) :
    NextSound q (execCounterClear k s) := by
  unfold execCounterClear
  refine onUnit_sound ?_
  exact State.setCount_sound hs

theorem execCounterLoad_sound {q : List Instr} {k : ℕ} {s : State} (hs : Sound q s) :
    NextSound q (execCounterLoad k s) := by
  unfold execCounterLoad
  refine onUnit_sound ?_
  exact State.setCount_sound hs

theorem State.outCmdDone_sound {q : List Instr} {s : State} {analog : Bool} {ch : Option ℕ} {op : ℕ} {res : ℕ} (hs : Sound q s) :
    Sound q (State.outCmdDone s analog ch op res) := by
  unfold State.outCmdDone
  refine Sound.ite ?_ ?_
  · extract_lets -merge -useContext +onlyGivenNames v1
    have hv1 : Sound q v1 := by
      unfold v1
      split
      · exact State.wr_sound hs
      · exact hs
    try clear_value v1
    refine State.raise_sound ?_
    refine State.wr_sound ?_
    exact State.wr_sound hv1
  · extract_lets -merge -useContext +onlyGivenNames v2
    have hv2 : Sound q v2 := by
      unfold v2
      split
      · exact State.wr_sound hs
      · exact hs
    try clear_value v2
    refine State.raise_sound ?_
    refine State.wr_sound ?_
    exact State.wr_sound hv2

theorem State.doResume_sound {q : List Instr} {s : State} {o : OutCh} (hs : Sound q s) :
    Sound q (State.doResume s o) := by
  unfold State.doResume
  extract_lets -merge -useContext +onlyGivenNames v1
  try clear_value v1
  refine Sound.ite ?_ ?_
  · exact State.outCmdDone_sound hs
  · refine State.outCmdDone_sound ?_
    exact State.resume_sound hs

theorem State.doResumeAll_sound {q : List Instr} {s : State} {analog : Bool} (hs : Sound q s) :
    Sound q (State.doResumeAll s analog) := by
  unfold State.doResumeAll
  refine State.outCmdDone_sound ?_
  exact State.resumeAll_sound hs

theorem State.occlr_sound {q : List Instr} {s : State} {ch : ℕ} (hs : Sound q s) :
    Sound q (State.occlr s ch) := by
  unfold State.occlr
  refine Sound.ite ?_ ?_
  · exact State.outCmdDone_sound hs
  · refine State.outCmdDone_sound ?_
    refine State.drive_sound ?_
    exact State.clear_sound hs

theorem State.reload_sound {q : List Instr} {s : State} {o : OutCh} (hs : Sound q s) :
    Sound q (State.reload s o) := by
  unfold State.reload
  extract_lets -merge -useContext +onlyGivenNames v1 v2
  try clear_value v1
  try clear_value v2
  refine Sound.ite ?_ ?_
  · exact State.outCmdDone_sound hs
  · refine State.outCmdDone_sound ?_
    exact State.cfgFrame_sound hs

theorem execDoResume_sound {q : List Instr} {o : OutCh} {s : State} (hs : Sound q s) :
    NextSound q (execDoResume o s) := by
  unfold execDoResume
  refine onUnit_sound ?_
  exact State.doResume_sound hs

theorem execDoResumeall_sound {q : List Instr} {analog : Bool} {s : State} (hs : Sound q s) :
    NextSound q (execDoResumeall analog s) := by
  unfold execDoResumeall
  refine NextSound.next ?_
  exact State.doResumeAll_sound hs

theorem execDoOcclr_sound {q : List Instr} {ch : ℕ} {s : State} (hs : Sound q s) :
    NextSound q (execDoOcclr ch s) := by
  unfold execDoOcclr
  refine onUnit_sound ?_
  exact State.occlr_sound hs

theorem execOutputReload_sound {q : List Instr} {o : OutCh} {s : State} (hs : Sound q s) :
    NextSound q (execOutputReload o s) := by
  unfold execOutputReload
  refine onUnit_sound ?_
  exact State.reload_sound hs

theorem State.laneOn_sound {q : List Instr} {s : State} {analog : Bool} (hs : Sound q s) :
    Sound q (State.laneOn s analog) := by
  unfold State.laneOn
  exact Sound.upd hs

theorem State.outEnable_sound {q : List Instr} {s : State} {analog : Bool} (hs : Sound q s) :
    Sound q (State.outEnable s analog) := by
  unfold State.outEnable
  refine Sound.ite ?_ ?_
  · exact hs
  · extract_lets -merge -useContext +onlyGivenNames v1
    have hv1 : Sound q v1 := by
      unfold v1
      exact State.raise_sound hs
    try clear_value v1
    refine State.kaUpdate_sound ?_
    refine State.each_sound ?_ ?_
    · exact State.laneOn_sound hv1
    · intro a2 a3 ha2
      exact State.cfgFrame_sound ha2

theorem State.outDisable_sound {q : List Instr} {s : State} {analog : Bool} (hs : Sound q s) :
    Sound q (State.outDisable s analog) := by
  unfold State.outDisable
  refine State.kaUpdate_sound ?_
  exact State.clear_sound hs

theorem execOutputEnable_sound {q : List Instr} {analog : Bool} {s : State} (hs : Sound q s) :
    NextSound q (execOutputEnable analog s) := by
  unfold execOutputEnable
  refine NextSound.next ?_
  exact State.outEnable_sound hs

theorem execOutputDisable_sound {q : List Instr} {analog : Bool} {s : State} (hs : Sound q s) :
    NextSound q (execOutputDisable analog s) := by
  unfold execOutputDisable
  refine NextSound.next ?_
  exact State.outDisable_sound hs

theorem State.outConfig_sound {q : List Instr} {s : State} {o : OutCh} {safeCode : Bool} {v : Word} (hs : Sound q s) :
    Sound q (State.outConfig s o safeCode v) := by
  unfold State.outConfig
  refine Sound.ite ?_ ?_
  · exact hs
  · extract_lets -merge -useContext +onlyGivenNames v1
    have hv1 : Sound q v1 := by
      unfold v1
      split
      · extract_lets -merge -useContext +onlyGivenNames v2 v3
        try clear_value v2
        try clear_value v3
        refine State.wrIf_sound ?_
        exact State.wrIf_sound hs
      · refine Sound.ite ?_ ?_
        · exact State.wr_sound hs
        · extract_lets -merge -useContext +onlyGivenNames v4 v5
          try clear_value v4
          try clear_value v5
          refine State.wr_sound ?_
          refine State.wrIf_sound ?_
          exact State.wrIf_sound hs
    try clear_value v1
    refine Sound.ite ?_ ?_
    · exact State.cfgFrame_sound hv1
    · exact hv1

theorem execDoConfigWrite_sound {q : List Instr} {o : OutCh} {safeCode : Bool} {v : Word} {s : State} (hs : Sound q s) :
    NextSound q (execDoConfigWrite o safeCode v s) := by
  unfold execDoConfigWrite
  refine onUnit_sound ?_
  exact State.outConfig_sound hs

theorem State.silence_sound {q : List Instr} {s : State} {o : OutCh} (hs : Sound q s) :
    Sound q (State.silence s o) := by
  unfold State.silence
  refine Sound.ite ?_ ?_
  · extract_lets -merge -useContext +onlyGivenNames v1 v2 v3 v4
    try clear_value v1
    try clear_value v2
    have hv3 : Sound q v3 := by
      unfold v3
      refine State.taken_sound ?_
      exact State.advance_sound hs
    try clear_value v3
    have hv4 : Sound q v4 := by
      unfold v4
      refine State.drive_sound ?_
      exact State.setFst_sound hv3
    try clear_value v4
    refine Sound.ite ?_ ?_
    · exact hv3
    · refine Sound.ite ?_ ?_
      · refine State.event_sound ?_
        exact State.raise_sound hv4
      · refine State.event_sound ?_
        exact State.raise_sound hv4
  · exact hs

theorem execKeepaliveSilence_sound {q : List Instr} {o : OutCh} {s : State} (hs : Sound q s) :
    NextSound q (execKeepaliveSilence o s) := by
  unfold execKeepaliveSilence
  refine onUnit_sound ?_
  exact State.silence_sound hs

theorem State.kickNow_sound {q : List Instr} {s : State} (hs : Sound q s) :
    Sound q (State.kickNow s) := by
  unfold State.kickNow
  exact Sound.upd hs

theorem State.kick_sound {q : List Instr} {s : State} (hs : Sound q s) :
    Sound q (State.kick s) := by
  unfold State.kick
  refine State.kaUpdate_sound ?_
  refine State.clear_sound ?_
  exact State.kickNow_sound hs

theorem State.kickExpiry_sound {q : List Instr} {s : State} (hs : Sound q s) :
    Sound q (State.kickExpiry s) := by
  unfold State.kickExpiry
  extract_lets -merge -useContext +onlyGivenNames v1 v2 v3
  try clear_value v1
  have hv2 : Sound q v2 := by
    unfold v2
    exact State.advance_sound hs
  try clear_value v2
  have hv3 : Sound q v3 := by
    unfold v3
    refine State.raise_sound ?_
    exact State.raise_sound hv2
  try clear_value v3
  refine Sound.ite ?_ ?_
  · refine Sound.ite ?_ ?_
    · exact hv2
    · refine State.kaUpdate_sound ?_
      refine State.event_sound ?_
      exact State.bump_sound hv3
  · exact hs

theorem State.kaCfg_sound {q : List Instr} {s : State} {v : Word} (hs : Sound q s) :
    Sound q (State.kaCfg s v) := by
  unfold State.kaCfg
  extract_lets -merge -useContext +onlyGivenNames v1
  try clear_value v1
  refine Sound.ite ?_ ?_
  · exact hs
  · refine State.kickNow_sound ?_
    exact State.wr_sound hs

theorem execKick_sound {q : List Instr} {s : State} (hs : Sound q s) :
    NextSound q (execKick s) := by
  unfold execKick
  refine NextSound.next ?_
  exact State.kick_sound hs

theorem execKickExpiry_sound {q : List Instr} {s : State} (hs : Sound q s) :
    NextSound q (execKickExpiry s) := by
  unfold execKickExpiry
  refine NextSound.next ?_
  exact State.kickExpiry_sound hs

theorem execKaCfgWrite_sound {q : List Instr} {v : Word} {s : State} (hs : Sound q s) :
    NextSound q (execKaCfgWrite v s) := by
  unfold execKaCfgWrite
  refine NextSound.next ?_
  exact State.kaCfg_sound hs

theorem State.doTrip_sound {q : List Instr} {s : State} {ch : ℕ} (hs : Sound q s) :
    Sound q (State.doTrip s ch) := by
  unfold State.doTrip
  refine Sound.ite ?_ ?_
  · exact hs
  · extract_lets -merge -useContext +onlyGivenNames v1
    have hv1 : Sound q v1 := by
      unfold v1
      refine State.raise_sound ?_
      refine State.drive_sound ?_
      exact State.raise_sound hs
    try clear_value v1
    refine State.event_sound ?_
    exact State.bump_sound hv1

theorem State.aoTrip_sound {q : List Instr} {s : State} {ch : ℕ} (hs : Sound q s) :
    Sound q (State.aoTrip s ch) := by
  unfold State.aoTrip
  refine Sound.ite ?_ ?_
  · exact hs
  · refine State.event_sound ?_
    refine State.raise_sound ?_
    exact State.raise_sound hs

theorem execDoOvercurrent_sound {q : List Instr} {ch : ℕ} {s : State} (hs : Sound q s) :
    NextSound q (execDoOvercurrent ch s) := by
  unfold execDoOvercurrent
  refine onUnit_sound ?_
  exact State.doTrip_sound hs

theorem execAoOvercurrent_sound {q : List Instr} {ch : ℕ} {s : State} (hs : Sound q s) :
    NextSound q (execAoOvercurrent ch s) := by
  unfold execAoOvercurrent
  refine onUnit_sound ?_
  exact State.aoTrip_sound hs

theorem State.fsFail_sound {q : List Instr} {s : State} {g : ℕ} (hs : Sound q s) :
    Sound q (State.fsFail s g) := by
  unfold State.fsFail
  refine Sound.ite ?_ ?_
  · exact hs
  · extract_lets -merge -useContext +onlyGivenNames v1 v2
    have hv1 : Sound q v1 := by
      unfold v1
      exact State.clear_sound hs
    try clear_value v1
    have hv2 : Sound q v2 := by
      unfold v2
      refine State.each_sound hv1 ?_
      intro a3 a4 ha3
      refine State.drive_sound ?_
      refine State.setFst_sound ?_
      refine State.clear_sound ?_
      exact State.setOutX_sound ha3
    try clear_value v2
    refine State.event_sound ?_
    exact State.raise_sound hv2

theorem State.fsReturn_sound {q : List Instr} {s : State} {g : ℕ} (hs : Sound q s) :
    Sound q (State.fsReturn s g) := by
  unfold State.fsReturn
  refine Sound.ite ?_ ?_
  · exact hs
  · extract_lets -merge -useContext +onlyGivenNames v1 v2 v3 v4 v5
    try clear_value v1
    have hv2 : Sound q v2 := by
      unfold v2
      exact State.raise_sound hs
    try clear_value v2
    have hv3 : Sound q v3 := by
      unfold v3
      refine State.each_sound hv2 ?_
      intro a6 a7 ha6
      refine State.drive_sound ?_
      exact State.setFst_sound ha6
    try clear_value v3
    have hv4 : Sound q v4 := by
      unfold v4
      refine State.event_sound ?_
      exact State.raise_sound hv3
    try clear_value v4
    have hv5 : Sound q v5 := by
      unfold v5
      refine State.each_sound hv4 ?_
      intro a8 a9 ha8
      exact State.cfgFrame_sound ha8
    try clear_value v5
    refine Sound.ite ?_ ?_
    · refine Sound.ite ?_ ?_
      · refine State.each_sound hv5 ?_
        intro a10 a11 ha10
        exact State.resume_sound ha10
      · exact hv5
    · exact hv4

theorem execFieldSupplyFail_sound {q : List Instr} {g : ℕ} {s : State} (hs : Sound q s) :
    NextSound q (execFieldSupplyFail g s) := by
  unfold execFieldSupplyFail
  refine onUnit_sound ?_
  exact State.fsFail_sound hs

theorem execFieldSupplyReturn_sound {q : List Instr} {g : ℕ} {s : State} (hs : Sound q s) :
    NextSound q (execFieldSupplyReturn g s) := by
  unfold execFieldSupplyReturn
  refine onUnit_sound ?_
  exact State.fsReturn_sound hs

theorem State.rfxArm_sound {q : List Instr} {s : State} {w : ℕ} {v : Word} (hs : Sound q s) :
    Sound q (State.rfxArm s w v) := by
  unfold State.rfxArm
  extract_lets -merge -useContext +onlyGivenNames v1 v2 v3 v4
  try clear_value v1
  try clear_value v2
  have hv3 : Sound q v3 := by
    unfold v3
    refine State.each_sound ?_ ?_
    · exact State.rfxNoteArms_sound hs
    · intro a5 a6 ha5
      exact State.setBit_sound ha5
  try clear_value v3
  have hv4 : Sound q v4 := by
    unfold v4
    refine Sound.ite ?_ ?_
    · exact State.raise_sound hv3
    · exact hv3
  try clear_value v4
  exact State.rfxActivate_sound hv4

theorem execReflexArm_sound {q : List Instr} {w : ℕ} {v : Word} {s : State} (hs : Sound q s) :
    NextSound q (execReflexArm w v s) := by
  unfold execReflexArm
  refine onUnit_sound ?_
  exact State.rfxArm_sound hs

theorem execReflexDisarm_sound {q : List Instr} {w : ℕ} {v : Word} {s : State} (hs : Sound q s) :
    NextSound q (execReflexDisarm w v s) := by
  unfold execReflexDisarm
  refine onUnit_sound ?_
  refine State.setReg_sound ?_
  exact State.rfxNoteArms_sound hs

theorem State.rfxEnable_sound {q : List Instr} {s : State} (hs : Sound q s) :
    Sound q (State.rfxEnable s) := by
  unfold State.rfxEnable
  refine Sound.ite ?_ ?_
  · exact hs
  · refine State.rfxActivate_sound ?_
    exact State.raise_sound hs

theorem execReflexEnable_sound {q : List Instr} {s : State} (hs : Sound q s) :
    NextSound q (execReflexEnable s) := by
  unfold execReflexEnable
  refine NextSound.next ?_
  exact State.rfxEnable_sound hs

theorem execReflexDisable_sound {q : List Instr} {s : State} (hs : Sound q s) :
    NextSound q (execReflexDisable s) := by
  unfold execReflexDisable
  refine NextSound.next ?_
  exact State.clear_sound hs

theorem State.rfxConfig_sound {q : List Instr} {s : State} {rule : ℕ} {word : ℕ} {v : Word} (hs : Sound q s) :
    Sound q (State.rfxConfig s rule word v) := by
  unfold State.rfxConfig
  refine Sound.ite ?_ ?_
  · exact State.raise_sound hs
  · refine Sound.ite ?_ ?_
    · exact State.setReg_sound hs
    · exact State.setReg_sound hs

theorem execReflexCfgWrite_sound {q : List Instr} {rule : ℕ} {word : ℕ} {v : Word} {s : State} (hs : Sound q s) :
    NextSound q (execReflexCfgWrite rule word v s) := by
  unfold execReflexCfgWrite
  refine onUnit_sound ?_
  exact State.rfxConfig_sound hs

theorem State.pulseEnd_sound {q : List Instr} {s : State} {target : ℕ} (hs : Sound q s) :
    Sound q (State.pulseEnd s target) := by
  unfold State.pulseEnd
  split
  · extract_lets -merge -useContext +onlyGivenNames v1
    have hv1 : Sound q v1 := by
      unfold v1
      exact State.advance_sound hs
    try clear_value v1
    refine Sound.ite ?_ ?_
    · exact State.setPulse_sound hv1
    · exact State.otherV_sound hv1
  · exact hs

theorem execPulseExpiry_sound {q : List Instr} {target : ℕ} {s : State} (hs : Sound q s) :
    NextSound q (execPulseExpiry target s) := by
  unfold execPulseExpiry
  refine onUnit_sound ?_
  exact State.pulseEnd_sound hs

theorem State.aiConversion_sound {q : List Instr} {s : State} {ch : ℕ} {r : AiResult} (hs : Sound q s) :
    Sound q (State.aiConversion s ch r) := by
  unfold State.aiConversion
  refine Sound.ite ?_ ?_
  · exact hs
  · extract_lets -merge -useContext +onlyGivenNames v1 v2 v3 v4 v5 v6 v7 v8 v9
    have hv1 : Sound q v1 := by
      unfold v1
      exact State.advance_sound hs
    try clear_value v1
    try clear_value v2
    try clear_value v3
    try clear_value v4
    have hv5 : Sound q v5 := by
      unfold v5
      refine State.setReg_sound ?_
      exact State.wr_sound hv1
    try clear_value v5
    have hv6 : Sound q v6 := by
      unfold v6
      refine State.wr_sound ?_
      exact State.wr_sound hv5
    try clear_value v6
    have hv7 : Sound q v7 := by
      unfold v7
      refine State.taken_sound ?_
      refine State.wr_sound ?_
      exact State.wrb_sound hv6
    try clear_value v7
    have hv8 : Sound q v8 := by
      unfold v8
      exact State.setAi_sound hv7
    try clear_value v8
    have hv9 : Sound q v9 := by
      unfold v9
      exact State.setBit_sound hv8
    try clear_value v9
    refine Sound.ite ?_ ?_
    · refine State.event_sound ?_
      exact State.raise_sound hv9
    · refine Sound.ite ?_ ?_
      · refine State.event_sound ?_
        exact State.raise_sound hv9
      · exact hv9

theorem execAiConversionComplete_sound {q : List Instr} {ch : ℕ} {r : AiResult} {s : State} (hs : Sound q s) :
    NextSound q (execAiConversionComplete ch r s) := by
  unfold execAiConversionComplete
  refine onUnit_sound ?_
  exact State.aiConversion_sound hs

theorem State.aiConfig_sound {q : List Instr} {s : State} {ch : ℕ} {v : Word} (hs : Sound q s) :
    Sound q (State.aiConfig s ch v) := by
  unfold State.aiConfig
  extract_lets -merge -useContext +onlyGivenNames v1 v2 v3
  try clear_value v1
  have hv2 : Sound q v2 := by
    unfold v2
    exact State.setReg_sound hs
  try clear_value v2
  try clear_value v3
  refine Sound.ite ?_ ?_
  · exact hv2
  · exact State.setAi_sound hv2

theorem execAiConfigWrite_sound {q : List Instr} {ch : ℕ} {v : Word} {s : State} (hs : Sound q s) :
    NextSound q (execAiConfigWrite ch v s) := by
  unfold execAiConfigWrite
  refine onUnit_sound ?_
  exact State.aiConfig_sound hs

end Sys2Proof.Machine
end

