-- ==== Sys2Proof/Laws/SoundHop.lean ====
section
/-!
SUPPORT. Every operation of Machine/Hop.lean keeps the queue and the canonical forms of memory and registers.
-/

namespace Sys2Proof.Machine

theorem execPushSend_sound {q : List Instr} {n : ℕ} {s : State} (hs : Sound q s) :
    NextSound q (execPushSend n s) := by
  unfold execPushSend
  refine NextSound.next ?_
  refine Sound.ite ?_ ?_
  · exact State.pushPending_sound hs
  · exact hs

theorem execSubReceived_sound {q : List Instr} {src : ℕ} {body : List Byte} {s : State} (hs : Sound q s) :
    NextSound q (execSubReceived src body s) := by
  unfold execSubReceived
  refine NextSound.next ?_
  exact State.pointMsg_sound hs

theorem execUnsubReceived_sound {q : List Instr} {src : ℕ} {body : List Byte} {s : State} (hs : Sound q s) :
    NextSound q (execUnsubReceived src body s) := by
  unfold execUnsubReceived
  refine NextSound.next ?_
  exact State.pointMsg_sound hs

theorem execFetchReceived_sound {q : List Instr} {src : ℕ} {body : List Byte} {s : State} (hs : Sound q s) :
    NextSound q (execFetchReceived src body s) := by
  unfold execFetchReceived
  refine NextSound.next ?_
  exact State.pointMsg_sound hs

theorem execSubackReceived_sound {q : List Instr} {src : ℕ} {body : List Byte} {s : State} (hs : Sound q s) :
    NextSound q (execSubackReceived src body s) := by
  unfold execSubackReceived
  refine NextSound.next ?_
  exact State.pointMsg_sound hs

theorem execPushReceived_sound {q : List Instr} {src : ℕ} {body : List Byte} {s : State} (hs : Sound q s) :
    NextSound q (execPushReceived src body s) := by
  unfold execPushReceived
  refine NextSound.next ?_
  exact State.pointMsg_sound hs

theorem State.staleTimer_sound {q : List Instr} {s : State} {e : ℕ} (hs : Sound q s) :
    Sound q (State.staleTimer s e) := by
  unfold State.staleTimer
  refine Sound.ite ?_ ?_
  · refine State.rangeStale_sound ?_
    exact State.advance_sound hs
  · exact hs

theorem execRangeStaleTimer_sound {q : List Instr} {r : ℕ} {s : State} (hs : Sound q s) :
    NextSound q (execRangeStaleTimer r s) := by
  unfold execRangeStaleTimer
  refine onUnit_sound ?_
  exact State.staleTimer_sound hs

theorem State.retryTimer_sound {q : List Instr} {s : State} {e : ℕ} (hs : Sound q s) :
    Sound q (State.retryTimer s e) := by
  unfold State.retryTimer
  extract_lets -merge -useContext +onlyGivenNames v1
  try clear_value v1
  refine Sound.ite ?_ ?_
  · refine State.sendSub_sound ?_
    exact State.advance_sound hs
  · exact hs

theorem execSubRetryTimer_sound {q : List Instr} {r : ℕ} {s : State} (hs : Sound q s) :
    NextSound q (execSubRetryTimer r s) := by
  unfold execSubRetryTimer
  refine onUnit_sound ?_
  exact State.retryTimer_sound hs

theorem State.renewTimer_sound {q : List Instr} {s : State} {e : ℕ} (hs : Sound q s) :
    Sound q (State.renewTimer s e) := by
  unfold State.renewTimer
  refine Sound.ite ?_ ?_
  · refine State.sendSub_sound ?_
    exact State.advance_sound hs
  · exact hs

theorem execLeaseRenewalTimer_sound {q : List Instr} {r : ℕ} {s : State} (hs : Sound q s) :
    NextSound q (execLeaseRenewalTimer r s) := by
  unfold execLeaseRenewalTimer
  refine onUnit_sound ?_
  exact State.renewTimer_sound hs

theorem State.leaseOut_sound {q : List Instr} {s : State} {e : ℕ} (hs : Sound q s) :
    Sound q (State.leaseOut s e) := by
  unfold State.leaseOut
  extract_lets -merge -useContext +onlyGivenNames v1 v2
  try clear_value v1
  have hv2 : Sound q v2 := by
    unfold v2
    refine State.changeOut_sound ?_
    exact State.advance_sound hs
  try clear_value v2
  refine Sound.ite ?_ ?_
  · refine State.event_sound ?_
    exact State.raise_sound hv2
  · exact hs

theorem execOutboundLeaseExpiry_sound {q : List Instr} {e : ℕ} {s : State} (hs : Sound q s) :
    NextSound q (execOutboundLeaseExpiry e s) := by
  unfold execOutboundLeaseExpiry
  refine onUnit_sound ?_
  exact State.leaseOut_sound hs

theorem State.fullPush_sound {q : List Instr} {s : State} {e : ℕ} (hs : Sound q s) :
    Sound q (State.fullPush s e) := by
  unfold State.fullPush
  extract_lets -merge -useContext +onlyGivenNames v1 v2
  try clear_value v1
  have hv2 : Sound q v2 := by
    unfold v2
    refine State.pushRange_sound ?_
    exact State.advance_sound hs
  try clear_value v2
  refine Sound.ite ?_ ?_
  · exact State.setOutEntry_sound hv2
  · exact hs

theorem execProducerRangeTimer_sound {q : List Instr} {e : ℕ} {s : State} (hs : Sound q s) :
    NextSound q (execProducerRangeTimer e s) := by
  unfold execProducerRangeTimer
  refine onUnit_sound ?_
  exact State.fullPush_sound hs

theorem execHopInitComplete_sound {q : List Instr} {s : State} (hs : Sound q s) :
    NextSound q (execHopInitComplete s) := by
  unfold execHopInitComplete
  refine NextSound.next ?_
  exact State.hopInit_sound hs

theorem State.pinScan_sound {q : List Instr} {s : State} {bank : ℕ} (hs : Sound q s) :
    Sound q (State.pinScan s bank) := by
  unfold State.pinScan
  refine Sound.ite ?_ ?_
  · exact hs
  · extract_lets -merge -useContext +onlyGivenNames v1 v2
    have hv1 : Sound q v1 := by
      unfold v1
      refine State.wr_sound ?_
      exact State.wr_sound hs
    try clear_value v1
    try clear_value v2
    refine Sound.ite ?_ ?_
    · refine State.raise_sound ?_
      exact Sound.upd hv1
    · refine State.raise_sound ?_
      exact State.wr_sound hv1

theorem execPinscan_sound {q : List Instr} {bank : ℕ} {s : State} (hs : Sound q s) :
    NextSound q (execPinscan bank s) := by
  unfold execPinscan
  refine onUnit_sound ?_
  exact State.pinScan_sound hs

theorem execPinscanComplete_sound {q : List Instr} {s : State} (hs : Sound q s) :
    NextSound q (execPinscanComplete s) := by
  unfold execPinscanComplete
  refine NextSound.next ?_
  split
  · refine Sound.ite ?_ ?_
    · exact State.scanDone_sound hs
    · exact hs
  · exact hs

theorem State.unpin_sound {q : List Instr} {s : State} {bank : ℕ} (hs : Sound q s) :
    Sound q (State.unpin s bank) := by
  unfold State.unpin
  refine Sound.ite ?_ ?_
  · exact hs
  · extract_lets -merge -useContext +onlyGivenNames v1 v2 v3
    have hv1 : Sound q v1 := by
      unfold v1
      refine State.wr_sound ?_
      exact State.wr_sound hs
    try clear_value v1
    try clear_value v2
    have hv3 : Sound q v3 := by
      unfold v3
      refine State.each_sound hv1 ?_
      intro a4 a5 ha4
      exact State.setFrame_sound ha4
    try clear_value v3
    refine State.syncCache_sound ?_
    refine State.raise_sound ?_
    exact State.wr_sound hv3

theorem execUnpin_sound {q : List Instr} {bank : ℕ} {s : State} (hs : Sound q s) :
    NextSound q (execUnpin bank s) := by
  unfold execUnpin
  refine onUnit_sound ?_
  exact State.unpin_sound hs

theorem State.portRead_sound {q : List Instr} {s : State} {p : ℕ} (hs : Sound q s) :
    Sound q (State.portRead s p) := by
  unfold State.portRead
  refine Sound.ite ?_ ?_
  · exact hs
  · split
    · rename_i p1 p2 e3
      have hp2 : Sound q p2 := by
        refine Sound.ofSnd e3 ?_
        refine State.lookup_sound ?_
        exact State.wr_sound hs
      exact State.showLookup_sound hp2

theorem execLookupRead_sound {q : List Instr} {p : ℕ} {s : State} (hs : Sound q s) :
    NextSound q (execLookupRead p s) := by
  unfold execLookupRead
  refine onUnit_sound ?_
  exact State.portRead_sound hs

theorem State.portTouch_sound {q : List Instr} {s : State} {p : ℕ} (hs : Sound q s) :
    Sound q (State.portTouch s p) := by
  unfold State.portTouch
  refine Sound.ite ?_ ?_
  · exact hs
  · extract_lets -merge -useContext +onlyGivenNames v1 v2
    have hv1 : Sound q v1 := by
      unfold v1
      exact State.wr_sound hs
    try clear_value v1
    have hv2 : ∀ x0 x1, Sound q x0 → Sound q (v2 x0 x1) := by
      unfold v2
      intro a3 a4 ha3
      refine State.clear_sound ?_
      exact State.wr_sound ha3
    try clear_value v2
    refine Sound.ite ?_ ?_
    · exact hv2 _ _ hv1
    · split
      · refine hv2 _ _ ?_
        refine State.wr_sound ?_
        exact State.markPending_sound hv1
      · exact hv2 _ _ hv1
      · exact hv2 _ _ hv1

theorem execLookupTouch_sound {q : List Instr} {p : ℕ} {s : State} (hs : Sound q s) :
    NextSound q (execLookupTouch p s) := by
  unfold execLookupTouch
  refine onUnit_sound ?_
  exact State.portTouch_sound hs

theorem State.pageResident_sound {q : List Instr} {s : State} {f : ℕ} {page : ℕ} (hs : Sound q s) :
    Sound q (State.pageResident s f page) := by
  have h := State.answerMisses_sound (page := page) (State.endPage_sound (f := f) (page := page) hs)
  unfold State.pageResident
  revert h
  generalize (s.endPage f page).answerMisses page = r
  intro h
  exact State.gateResume_sound h

theorem State.pageIn_sound {q : List Instr} {s : State} {page : ℕ} (hs : Sound q s) :
    Sound q (State.pageIn s page) := by
  unfold State.pageIn
  split
  · exact State.pageResident_sound hs
  · exact hs

theorem execPageInComplete_sound {q : List Instr} {page : ℕ} {s : State} (hs : Sound q s) :
    NextSound q (execPageInComplete page s) := by
  unfold execPageInComplete
  refine onUnit_sound ?_
  exact State.pageIn_sound hs

theorem State.refetchOut_sound {q : List Instr} {s : State} {slot : ℕ} (hs : Sound q s) :
    Sound q (State.refetchOut s slot) := by
  have e0 : @State.refetchOut = @State.refetchOut := rfl
  conv at e0 => rhs; delta State.refetchOut
  rw [e0]
  clear e0
  beta_reduce
  split
  · exact hs
  · refine Sound.ite ?_ ?_
    · exact hs
    · extract_lets -merge -useContext +onlyGivenNames v1 v2 v3 v4
      have hv1 : Sound q v1 := by
        unfold v1
        exact State.advance_sound hs
      try clear_value v1
      try clear_value v2
      try clear_value v3
      have hv4 : Sound q v4 := by
        unfold v4
        exact Sound.upd hv1
      try clear_value v4
      refine Sound.ite ?_ ?_
      · refine State.sendFetch_sound ?_
        exact Sound.upd hv1
      · refine State.event_sound ?_
        refine State.raise_sound ?_
        exact State.bump_sound hv4

theorem execRefetchTimer_sound {q : List Instr} {slot : ℕ} {s : State} (hs : Sound q s) :
    NextSound q (execRefetchTimer slot s) := by
  unfold execRefetchTimer
  refine onUnit_sound ?_
  exact State.refetchOut_sound hs

theorem State.tagWrite_sound {q : List Instr} {s : State} {v : Word} (hs : Sound q s) :
    Sound q (State.tagWrite s v) := by
  unfold State.tagWrite
  extract_lets -merge -useContext +onlyGivenNames v1 v2 v3 v4 v5 v6
  try clear_value v1
  try clear_value v2
  try clear_value v3
  try clear_value v4
  try clear_value v5
  have hv6 : Sound q v6 := by
    unfold v6
    refine Sound.ite ?_ ?_
    · exact hs
    · refine Sound.ite ?_ ?_
      · exact Sound.upd hs
      · refine Sound.ite ?_ ?_
        · exact State.setRange_sound hs
        · exact hs
  try clear_value v6
  exact State.wr_sound hv6

theorem execHopTdataWrite_sound {q : List Instr} {v : Word} {s : State} (hs : Sound q s) :
    NextSound q (execHopTdataWrite v s) := by
  unfold execHopTdataWrite
  refine NextSound.next ?_
  exact State.tagWrite_sound hs

end Sys2Proof.Machine
end

