-- ==== Sys2Proof/Laws/SoundImage.lean ====
section
/-!
SUPPORT. Every operation of Machine/Image.lean keeps the queue and the canonical forms of memory and registers.
-/

namespace Sys2Proof.Machine

theorem State.statusPdu_sound {q : List Instr} {s : State} {n : ℕ} {pdu : List Byte} (hs : Sound q s) :
    Sound q (State.statusPdu s n pdu) := by
  unfold State.statusPdu
  extract_lets -merge -useContext +onlyGivenNames v1 v2 v3 v4
  try clear_value v1
  try clear_value v2
  have hv3 : Sound q v3 := by
    unfold v3
    exact State.seeEpoch_sound hs
  try clear_value v3
  have hv4 : Sound q v4 := by
    unfold v4
    refine Sound.ite ?_ ?_
    · refine State.pairOutrej_sound ?_
      refine State.stnEvent_sound ?_
      refine State.raise_sound ?_
      exact State.raise_sound hv3
    · exact hv3
  try clear_value v4
  refine Sound.ite ?_ ?_
  · exact State.dropout_sound hv4
  · refine Sound.ite ?_ ?_
    · exact hv4
    · exact State.dropout_sound hv4

theorem State.stnPdu_sound {q : List Instr} {s : State} {n : ℕ} {pdu : List Byte} (hs : Sound q s) :
    Sound q (State.stnPdu s n pdu) := by
  unfold State.stnPdu
  extract_lets -merge -useContext +onlyGivenNames v1 v2
  have hv1 : Sound q v1 := by
    unfold v1
    exact State.takeStnPdu_sound hs
  try clear_value v1
  try clear_value v2
  refine Sound.ite ?_ ?_
  · exact hv1
  · refine Sound.ite ?_ ?_
    · exact State.inSegment_sound hv1
    · refine Sound.ite ?_ ?_
      · refine Sound.ite ?_ ?_
        · exact State.statusPdu_sound hv1
        · exact State.badPdu_sound hv1
      · exact State.badPdu_sound hv1

theorem State.stnRefresh_sound {q : List Instr} {s : State} {n : ℕ} (hs : Sound q s) :
    Sound q (State.stnRefresh s n) := by
  unfold State.stnRefresh
  refine Sound.ite ?_ ?_
  · refine State.sendOut_sound ?_
    exact State.advance_sound hs
  · exact hs

theorem State.stnTimeout_sound {q : List Instr} {s : State} {n : ℕ} (hs : Sound q s) :
    Sound q (State.stnTimeout s n) := by
  unfold State.stnTimeout
  refine Sound.ite ?_ ?_
  · refine State.dropout_sound ?_
    exact State.advance_sound hs
  · exact hs

theorem State.imgMdata_sound {q : List Instr} {s : State} {v : Word} (hs : Sound q s) :
    Sound q (State.imgMdata s v) := by
  unfold State.imgMdata
  extract_lets -merge -useContext +onlyGivenNames v1 v2 v3 v4
  try clear_value v1
  have hv2 : Sound q v2 := by
    unfold v2
    exact State.wr_sound hs
  try clear_value v2
  try clear_value v3
  try clear_value v4
  refine Sound.ite ?_ ?_
  · exact Sound.upd hv2
  · exact hv2

theorem execInputCopy_sound {q : List Instr} {s : State} (hs : Sound q s) :
    NextSound q (execInputCopy s) := by
  unfold execInputCopy
  refine NextSound.next ?_
  exact State.inputCopy_sound hs

theorem execInputCopyComplete_sound {q : List Instr} {s : State} (hs : Sound q s) :
    NextSound q (execInputCopyComplete s) := by
  unfold execInputCopyComplete
  refine NextSound.next ?_
  exact State.copyComplete_sound hs

theorem execCommitStart_sound {q : List Instr} {s : State} (hs : Sound q s) :
    NextSound q (execCommitStart s) := by
  unfold execCommitStart
  refine NextSound.next ?_
  exact State.commitStart_sound hs

theorem execCommitJournalStaged_sound {q : List Instr} {s : State} (hs : Sound q s) :
    NextSound q (execCommitJournalStaged s) := by
  unfold execCommitJournalStaged
  refine NextSound.next ?_
  exact State.commitStaged_sound hs

theorem State.commitSeen_sound {q : List Instr} {s : State} (hs : Sound q s) :
    Sound q (State.commitSeen s) := by
  unfold State.commitSeen
  extract_lets -merge -useContext +onlyGivenNames v1 v2
  have hv1 : Sound q v1 := by
    unfold v1
    exact State.commitComplete_sound hs
  try clear_value v1
  try clear_value v2
  split
  · refine Sound.ite ?_ ?_
    · refine State.resumeWhenDue_sound ?_
      exact Sound.upd hv1
    · exact hv1
  · exact hv1

theorem execCommitComplete_sound {q : List Instr} {s : State} (hs : Sound q s) :
    NextSound q (execCommitComplete s) := by
  unfold execCommitComplete
  refine NextSound.next ?_
  refine State.atHeld_sound ?_
  exact State.commitSeen_sound hs

theorem execJournalWrite_sound {q : List Instr} {s : State} (hs : Sound q s) :
    NextSound q (execJournalWrite s) := by
  unfold execJournalWrite
  refine NextSound.next ?_
  exact State.journalWrite_sound hs

theorem execStationInPdu_sound {q : List Instr} {n : ℕ} {pdu : List Byte} {s : State} (hs : Sound q s) :
    NextSound q (execStationInPdu n pdu s) := by
  unfold execStationInPdu
  refine onUnit_sound ?_
  exact State.stnPdu_sound hs

theorem execStationStatusPdu_sound {q : List Instr} {n : ℕ} {pdu : List Byte} {s : State} (hs : Sound q s) :
    NextSound q (execStationStatusPdu n pdu s) := by
  unfold execStationStatusPdu
  refine onUnit_sound ?_
  exact State.stnPdu_sound hs

theorem execStationRefresh_sound {q : List Instr} {n : ℕ} {s : State} (hs : Sound q s) :
    NextSound q (execStationRefresh n s) := by
  unfold execStationRefresh
  refine onUnit_sound ?_
  exact State.stnRefresh_sound hs

theorem execStationTimeout_sound {q : List Instr} {n : ℕ} {s : State} (hs : Sound q s) :
    NextSound q (execStationTimeout n s) := by
  unfold execStationTimeout
  refine onUnit_sound ?_
  exact State.stnTimeout_sound hs

theorem execStationRearm_sound {q : List Instr} {n : ℕ} {s : State} (hs : Sound q s) :
    NextSound q (execStationRearm n s) := by
  unfold execStationRearm
  refine onUnit_sound ?_
  exact State.rearm_sound hs

theorem execStationProbe_sound {q : List Instr} {n : ℕ} {s : State} (hs : Sound q s) :
    NextSound q (execStationProbe n s) := by
  unfold execStationProbe
  refine onUnit_sound ?_
  refine Sound.ite ?_ ?_
  · exact hs
  · exact State.sendProbe_sound hs

theorem execStationEnable_sound {q : List Instr} {n : ℕ} {s : State} (hs : Sound q s) :
    NextSound q (execStationEnable n s) := by
  unfold execStationEnable
  refine onUnit_sound ?_
  extract_lets -merge -useContext +onlyGivenNames v1
  have hv1 : Sound q v1 := by
    unfold v1
    exact State.raise_sound hs
  try clear_value v1
  refine Sound.ite ?_ ?_
  · exact State.stnBegin_sound hv1
  · exact hv1

theorem execStationDisable_sound {q : List Instr} {n : ℕ} {s : State} (hs : Sound q s) :
    NextSound q (execStationDisable n s) := by
  unfold execStationDisable
  refine onUnit_sound ?_
  refine State.stnEnd_sound ?_
  exact State.clear_sound hs

theorem execForceSet_sound {q : List Instr} {s : State} (hs : Sound q s) :
    NextSound q (execForceSet s) := by
  unfold execForceSet
  refine NextSound.next ?_
  exact State.forceSet_sound hs

theorem execForceClear_sound {q : List Instr} {s : State} (hs : Sound q s) :
    NextSound q (execForceClear s) := by
  unfold execForceClear
  refine NextSound.next ?_
  exact State.forceClear_sound hs

theorem execForceClearall_sound {q : List Instr} {s : State} (hs : Sound q s) :
    NextSound q (execForceClearall s) := by
  unfold execForceClearall
  refine NextSound.next ?_
  exact State.forceClearAll_sound hs

theorem execImgMdataWrite_sound {q : List Instr} {v : Word} {s : State} (hs : Sound q s) :
    NextSound q (execImgMdataWrite v s) := by
  unfold execImgMdataWrite
  refine NextSound.next ?_
  exact State.imgMdata_sound hs

end Sys2Proof.Machine
end

