-- ==== Sys2Proof/Laws/SoundLoop.lean ====
section
/-!
SUPPORT. Every operation of Machine/Loop.lean keeps the queue and the canonical forms of memory and registers.
-/

namespace Sys2Proof.Machine

theorem State.dueNow_sound {q : List Instr} {s : State} {d : LoopDue} {late : Bool} {missed : List ℕ} (hs : Sound q s) :
    Sound q (State.dueNow s d late missed) := by
  unfold State.dueNow
  refine Sound.ite ?_ ?_
  · exact hs
  · refine Sound.ite ?_ ?_
    · exact State.bump_sound hs
    · extract_lets -merge -useContext +onlyGivenNames v1 v2 v3 v4
      have hv1 : Sound q v1 := by
        unfold v1
        refine Sound.ite ?_ ?_
        · refine State.each_sound hs ?_
          intro a5 a6 ha5
          exact State.loopMiss_sound ha5
        · exact hs
      try clear_value v1
      try clear_value v2
      try clear_value v3
      try clear_value v4
      refine Sound.ite ?_ ?_
      · exact hv1
      · exact Sound.upd hv1

theorem State.loopFallsDue_sound {q : List Instr} {s : State} {n : ℕ} (hs : Sound q s) :
    Sound q (State.loopFallsDue s n) := by
  unfold State.loopFallsDue
  refine Sound.ite ?_ ?_
  · exact hs
  · extract_lets -merge -useContext +onlyGivenNames v1 v2 v3 v4
    try clear_value v1
    try clear_value v2
    have hv3 : Sound q v3 := by
      unfold v3
      refine State.setLoopX_sound ?_
      exact State.advanceMt_sound hs
    try clear_value v3
    try clear_value v4
    exact State.dueNow_sound hv3

theorem State.groupFallsDue_sound {q : List Instr} {s : State} {g : ℕ} (hs : Sound q s) :
    Sound q (State.groupFallsDue s g) := by
  unfold State.groupFallsDue
  extract_lets -merge -useContext +onlyGivenNames v1 v2 v3 v4 v5 v6
  try clear_value v1
  try clear_value v2
  try clear_value v3
  try clear_value v4
  have hv5 : Sound q v5 := by
    unfold v5
    refine State.setGroupX_sound ?_
    exact State.advanceMt_sound hs
  try clear_value v5
  try clear_value v6
  refine Sound.ite ?_ ?_
  · exact hs
  · exact State.dueNow_sound hv5

theorem execLoopDue_sound {q : List Instr} {group : Bool} {n : ℕ} {s : State} (hs : Sound q s) :
    NextSound q (execLoopDue group n s) := by
  unfold execLoopDue
  refine onUnit_sound ?_
  refine Sound.ite ?_ ?_
  · exact State.groupFallsDue_sound hs
  · exact State.loopFallsDue_sound hs

theorem State.serveDue_sound {q : List Instr} {s : State} {group : Bool} (hs : Sound q s) :
    Sound q (State.serveDue s group) := by
  unfold State.serveDue
  split
  · refine Sound.ite ?_ ?_
    · exact hs
    · extract_lets -merge -useContext +onlyGivenNames v1 v2
      try clear_value v1
      have hv2 : Sound q v2 := by
        unfold v2
        exact Sound.upd hs
      try clear_value v2
      refine Sound.ite ?_ ?_
      · exact State.groupRun_sound hv2
      · exact State.loopRun_sound hv2
  · exact hs

theorem execLoopEvaluation_sound {q : List Instr} {s : State} (hs : Sound q s) :
    NextSound q (execLoopEvaluation s) := by
  unfold execLoopEvaluation
  refine NextSound.next ?_
  refine State.resumeWhenDue_sound ?_
  exact State.serveDue_sound hs

theorem execGroupEvaluation_sound {q : List Instr} {s : State} (hs : Sound q s) :
    NextSound q (execGroupEvaluation s) := by
  unfold execGroupEvaluation
  refine NextSound.next ?_
  refine State.resumeWhenDue_sound ?_
  exact State.serveDue_sound hs

theorem State.loopRej_sound {q : List Instr} {s : State} (hs : Sound q s) :
    Sound q (State.loopRej s) := by
  unfold State.loopRej
  exact State.raise_sound hs

theorem State.loopCtrl_sound {q : List Instr} {s : State} {n : ℕ} {v : Word} (hs : Sound q s) :
    Sound q (State.loopCtrl s n v) := by
  unfold State.loopCtrl
  extract_lets -merge -useContext +onlyGivenNames v1 v2 v3 v4 v5 v6 v7 v8 v9 v10 v11
  try clear_value v1
  try clear_value v2
  have hv3 : Sound q v3 := by
    unfold v3
    exact State.setLw_sound hs
  try clear_value v3
  have hv4 : Sound q v4 := by
    unfold v4
    refine State.setLstat_sound ?_
    exact State.setLw_sound hv3
  try clear_value v4
  try clear_value v5
  have hv6 : Sound q v6 := by
    unfold v6
    exact State.setLoopX_sound hv4
  try clear_value v6
  have hv7 : Sound q v7 := by
    unfold v7
    split
    · refine Sound.ite ?_ ?_
      · exact State.setGroupX_sound hv6
      · exact hv6
    · exact hv6
  try clear_value v7
  have hv8 : Sound q v8 := by
    unfold v8
    exact State.setLw_sound hv3
  try clear_value v8
  try clear_value v9
  have hv10 : Sound q v10 := by
    unfold v10
    exact State.setLoopX_sound hv8
  try clear_value v10
  try clear_value v11
  refine Sound.ite ?_ ?_
  · exact hv3
  · refine Sound.ite ?_ ?_
    · split
      · refine State.syncLoad_sound ?_
        exact State.cfgFailed_sound hv3
      · exact State.syncLoad_sound hv7
    · refine Sound.ite ?_ ?_
      · refine State.syncLoad_sound ?_
        exact Sound.upd hv10
      · exact State.syncLoad_sound hv3

theorem State.loopWrite_sound {q : List Instr} {s : State} {n : ℕ} {ofs : ℕ} {v : Word} (hs : Sound q s) :
    Sound q (State.loopWrite s n ofs v) := by
  unfold State.loopWrite
  extract_lets -merge -useContext +onlyGivenNames v1 v2 v3
  try clear_value v1
  try clear_value v2
  have hv3 : Sound q v3 := by
    unfold v3
    exact State.setLoopX_sound hs
  try clear_value v3
  refine Sound.ite ?_ ?_
  · exact State.loopCtrl_sound hv3
  · refine Sound.ite ?_ ?_
    · refine Sound.ite ?_ ?_
      · exact State.setLw_sound hv3
      · exact State.loopRej_sound hv3
    · refine Sound.ite ?_ ?_
      · exact State.setLw_sound hv3
      · refine Sound.ite ?_ ?_
        · refine Sound.ite ?_ ?_
          · exact State.setLw_sound hv3
          · exact State.loopRej_sound hv3
        · refine Sound.ite ?_ ?_
          · exact State.setLw_sound hv3
          · exact State.loopRej_sound hv3

theorem State.groupWrite_sound {q : List Instr} {s : State} {g : ℕ} {j : ℕ} {v : Word} (hs : Sound q s) :
    Sound q (State.groupWrite s g j v) := by
  unfold State.groupWrite
  refine Sound.ite ?_ ?_
  · exact State.loopRej_sound hs
  · split
    · exact State.setGw_sound hs
    · exact State.loopRej_sound hs
    · exact hs
    · exact State.setGw_sound hs

theorem State.loopMdata_sound {q : List Instr} {s : State} {v : Word} (hs : Sound q s) :
    Sound q (State.loopMdata s v) := by
  unfold State.loopMdata
  extract_lets -merge -useContext +onlyGivenNames v1 v2
  try clear_value v1
  have hv2 : Sound q v2 := by
    unfold v2
    refine Sound.ite ?_ ?_
    · exact State.loopWrite_sound hs
    · refine Sound.ite ?_ ?_
      · exact State.groupWrite_sound hs
      · exact hs
  try clear_value v2
  exact State.wr_sound hv2

theorem execLoopMdataWrite_sound {q : List Instr} {v : Word} {s : State} (hs : Sound q s) :
    NextSound q (execLoopMdataWrite v s) := by
  unfold execLoopMdataWrite
  refine NextSound.next ?_
  exact State.loopMdata_sound hs

end Sys2Proof.Machine
end

