-- ==== Sys2Proof/Laws/SoundMtr.lean ====
section
/-!
SUPPORT. Every operation of Machine/Mtr.lean keeps the queue and the canonical forms of memory and registers.
-/

namespace Sys2Proof.Machine

theorem execSampleSetArrival_sound {q : List Instr} {m : MtrInput} {s : State} (hs : Sound q s) :
    NextSound q (execSampleSetArrival m s) := by
  unfold execSampleSetArrival
  refine NextSound.next ?_
  refine Sound.ite ?_ ?_
  · exact hs
  · extract_lets -merge -useContext +onlyGivenNames v1 v2 v3
    have hv1 : Sound q v1 := by
      unfold v1
      exact State.advance_sound hs
    try clear_value v1
    try clear_value v2
    have hv3 : Sound q v3 := by
      unfold v3
      exact Sound.upd hv1
    try clear_value v3
    exact State.mtrRound_sound hv3

theorem execZcTimeout_sound {q : List Instr} {s : State} (hs : Sound q s) :
    NextSound q (execZcTimeout s) := by
  unfold execZcTimeout
  refine NextSound.next ?_
  refine Sound.ite ?_ ?_
  · exact hs
  · exact State.toFallback_sound hs

theorem execSyntheticCrossing_sound {q : List Instr} {s : State} (hs : Sound q s) :
    NextSound q (execSyntheticCrossing s) := by
  unfold execSyntheticCrossing
  refine NextSound.next ?_
  refine Sound.ite ?_ ?_
  · exact State.synthetic_sound hs
  · exact hs

theorem execCheckpointTimer_sound {q : List Instr} {s : State} (hs : Sound q s) :
    NextSound q (execCheckpointTimer s) := by
  unfold execCheckpointTimer
  refine NextSound.next ?_
  refine Sound.ite ?_ ?_
  · exact hs
  · extract_lets -merge -useContext +onlyGivenNames v1 v2 v3
    have hv1 : Sound q v1 := by
      unfold v1
      exact State.advance_sound hs
    try clear_value v1
    try clear_value v2
    have hv3 : Sound q v3 := by
      unfold v3
      exact Sound.upd hv1
    try clear_value v3
    exact State.ckptStart_sound hv3

theorem execCheckpointComplete_sound {q : List Instr} {s : State} (hs : Sound q s) :
    NextSound q (execCheckpointComplete s) := by
  unfold execCheckpointComplete
  refine NextSound.next ?_
  exact State.ckptEnd_sound hs

theorem State.mtrCmd_sound {q : List Instr} {s : State} {op : ℕ} {arg : ℕ} {f : State → State} (hs : Sound q s) (hf : ∀ x0, Sound q x0 → Sound q (f x0)) :
    Sound q (State.mtrCmd s op arg f) := by
  unfold State.mtrCmd
  refine Sound.ite ?_ ?_
  · exact hs
  · refine hf _ ?_
    refine State.wr_sound ?_
    exact State.wr_sound hs

theorem State.mtrHold_sound {q : List Instr} {s : State} {w : MtrWait} (hs : Sound q s) :
    Sound q (State.mtrHold s w) := by
  unfold State.mtrHold
  refine State.raise_sound ?_
  exact Sound.upd hs

theorem State.meterClear_sound {q : List Instr} {s : State} {n : ℕ} (hs : Sound q s) :
    Sound q (State.meterClear s n) := by
  unfold State.meterClear
  refine Sound.ite ?_ ?_
  · exact State.mtrDone_sound hs
  · refine Sound.ite ?_ ?_
    · exact State.mtrDone_sound hs
    · refine Sound.ite ?_ ?_
      · exact State.mtrHold_sound hs
      · refine State.raise_sound ?_
        exact Sound.upd hs

theorem execMeterClear_sound {q : List Instr} {feeder : ℕ} {s : State} (hs : Sound q s) :
    NextSound q (execMeterClear feeder s) := by
  unfold execMeterClear
  refine NextSound.next ?_
  refine State.mtrCmd_sound hs ?_
  intro a1 ha1
  exact State.meterClear_sound ha1

theorem State.meterCkpt_sound {q : List Instr} {s : State} (hs : Sound q s) :
    Sound q (State.meterCkpt s) := by
  unfold State.meterCkpt
  refine Sound.ite ?_ ?_
  · exact State.mtrDone_sound hs
  · refine Sound.ite ?_ ?_
    · exact State.mtrHold_sound hs
    · refine State.mtrDone_sound ?_
      exact State.ckptStart_sound hs

theorem execMeterCkpt_sound {q : List Instr} {s : State} (hs : Sound q s) :
    NextSound q (execMeterCkpt s) := by
  unfold execMeterCkpt
  refine NextSound.next ?_
  refine State.mtrCmd_sound hs ?_
  intro a1 ha1
  exact State.meterCkpt_sound ha1

theorem State.meterRestore_sound {q : List Instr} {s : State} {r : ℕ} (hs : Sound q s) :
    Sound q (State.meterRestore s r) := by
  unfold State.meterRestore
  refine Sound.ite ?_ ?_
  · exact State.mtrDone_sound hs
  · refine Sound.ite ?_ ?_
    · exact State.mtrDone_sound hs
    · refine Sound.ite ?_ ?_
      · exact State.mtrHold_sound hs
      · exact State.restoreReg_sound hs

theorem execMeterRestore_sound {q : List Instr} {reg : ℕ} {s : State} (hs : Sound q s) :
    NextSound q (execMeterRestore reg s) := by
  unfold execMeterRestore
  refine NextSound.next ?_
  refine State.mtrCmd_sound hs ?_
  intro a1 ha1
  exact State.meterRestore_sound ha1

theorem State.meterCal_sound {q : List Instr} {s : State} {c : ℕ} (hs : Sound q s) :
    Sound q (State.meterCal s c) := by
  unfold State.meterCal
  refine Sound.ite ?_ ?_
  · exact State.mtrDone_sound hs
  · refine Sound.ite ?_ ?_
    · exact State.mtrDone_sound hs
    · refine Sound.ite ?_ ?_
      · exact State.mtrDone_sound hs
      · refine Sound.ite ?_ ?_
        · exact State.mtrDone_sound hs
        · refine State.mtrDone_sound ?_
          exact Sound.upd hs

theorem execCalapply_sound {q : List Instr} {ch : ℕ} {s : State} (hs : Sound q s) :
    NextSound q (execCalapply ch s) := by
  unfold execCalapply
  refine NextSound.next ?_
  refine State.mtrCmd_sound hs ?_
  intro a1 ha1
  exact State.meterCal_sound ha1

theorem State.mtrMdata_sound {q : List Instr} {s : State} {v : Word} (hs : Sound q s) :
    Sound q (State.mtrMdata s v) := by
  unfold State.mtrMdata
  extract_lets -merge -useContext +onlyGivenNames v1 v2
  try clear_value v1
  have hv2 : Sound q v2 := by
    unfold v2
    refine Sound.ite ?_ ?_
    · exact State.setMw_sound hs
    · exact State.raise_sound hs
  try clear_value v2
  exact State.wr_sound hv2

theorem execMtrMdataWrite_sound {q : List Instr} {v : Word} {s : State} (hs : Sound q s) :
    NextSound q (execMtrMdataWrite v s) := by
  unfold execMtrMdataWrite
  refine NextSound.next ?_
  exact State.mtrMdata_sound hs

end Sys2Proof.Machine
end

