-- ==== Sys2Proof/Laws/SoundFab.lean ====
section
/-!
SUPPORT. Every operation of Machine/Fab.lean keeps the queue and the canonical forms of memory and registers.
-/

namespace Sys2Proof.Machine

theorem State.badEnd_sound {q : List Instr} {s : State} {p : ℕ} {f : RxFrame} (hs : Sound q s) :
    Sound q (State.badEnd s p f) := by
  unfold State.badEnd
  refine Sound.ite ?_ ?_
  · exact State.bump_sound hs
  · exact State.bump_sound hs

theorem State.icvCut_sound {q : List Instr} {s : State} {p : ℕ} {q' : ℕ} {f : RxFrame} (hs : Sound q s) :
    Sound q (State.icvCut s p q' f) := by
  unfold State.icvCut
  extract_lets -merge -useContext +onlyGivenNames v1 v2 v3 v4
  try clear_value v1
  have hv2 : Sound q v2 := by
    unfold v2
    exact State.putOnWire_sound hs
  try clear_value v2
  have hv3 : Sound q v3 := by
    unfold v3
    refine State.raise_sound ?_
    refine State.bump_sound ?_
    exact State.badEnd_sound hv2
  try clear_value v3
  try clear_value v4
  refine Sound.ite ?_ ?_
  · refine State.event_sound ?_
    exact Sound.upd hv3
  · exact hv3

theorem State.route_sound {q : List Instr} {s : State} {p : ℕ} {l : Leat} (hs : Sound q s) :
    Sound q (State.route s p l) := by
  unfold State.route
  refine Sound.ite ?_ ?_
  · exact hs
  · refine Sound.ite ?_ ?_
    · refine Sound.ite ?_ ?_
      · refine Sound.ite ?_ ?_
        · exact State.toInbox_sound hs
        · exact State.bump_sound hs
      · exact State.quenchHop_sound hs
    · refine Sound.ite ?_ ?_
      · refine Sound.ite ?_ ?_
        · extract_lets -merge -useContext +onlyGivenNames v1
          have hv1 : Sound q v1 := by
            unfold v1
            exact State.deliver_sound hs
          try clear_value v1
          refine Sound.ite ?_ ?_
          · exact State.bump_sound hv1
          · refine State.each_sound hv1 ?_
            intro a2 a3 ha2
            exact State.leave_sound ha2
        · exact hs
      · extract_lets -merge -useContext +onlyGivenNames v4
        try clear_value v4
        refine Sound.ite ?_ ?_
        · exact State.bump_sound hs
        · refine Sound.ite ?_ ?_
          · exact State.deliver_sound hs
          · refine Sound.ite ?_ ?_
            · exact State.bump_sound hs
            · exact State.leave_sound hs

theorem State.switch_sound {q : List Instr} {s : State} {p : ℕ} {l : Leat} (hs : Sound q s) :
    Sound q (State.switch s p l) := by
  unfold State.switch
  split
  · exact State.quenched_sound hs
  · split
    · exact State.bump_sound hs
    · rename_i p1 e2
      have hp1 : Sound q p1 := by
        refine Sound.ofSome e2 ?_
        exact State.ctlPolice_sound hs
      exact State.route_sound hp1

theorem State.frameGo_sound {q : List Instr} {s : State} {p : ℕ} {f : RxFrame} (hs : Sound q s) :
    Sound q (State.frameGo s p f) := by
  unfold State.frameGo
  extract_lets -merge -useContext +onlyGivenNames v1 v2 v3 v4 v5 v6
  try clear_value v1
  try clear_value v2
  try clear_value v3
  have hv4 : Sound q v4 := by
    unfold v4
    refine Sound.ite ?_ ?_
    · exact State.setPort_sound hs
    · exact hs
  try clear_value v4
  try clear_value v5
  try clear_value v6
  refine Sound.ite ?_ ?_
  · exact State.bump_sound hv4
  · refine Sound.ite ?_ ?_
    · exact hv4
    · refine Sound.ite ?_ ?_
      · split
        · exact State.bump_sound hv4
        · rename_i p7 e8
          have hp7 : Sound q p7 := by
            refine Sound.ofSome e8 ?_
            exact State.ctlPolice_sound hv4
          refine Sound.ite ?_ ?_
          · exact State.putOnWire_sound hp7
          · exact State.icvCut_sound hp7
      · refine Sound.ite ?_ ?_
        · exact State.switch_sound hv4
        · exact State.badEnd_sound hv4

theorem State.frameIn_sound {q : List Instr} {s : State} {p : ℕ} {f : RxFrame} (hs : Sound q s) :
    Sound q (State.frameIn s p f) := by
  unfold State.frameIn
  refine Sound.ite ?_ ?_
  · exact hs
  · extract_lets -merge -useContext +onlyGivenNames v1 v2 v3
    try clear_value v1
    have hv2 : Sound q v2 := by
      unfold v2
      refine State.bump_sound ?_
      exact State.setPort_sound hs
    try clear_value v2
    have hv3 : Sound q v3 := by
      unfold v3
      exact State.bump_sound hv2
    try clear_value v3
    refine Sound.ite ?_ ?_
    · exact hv3
    · refine Sound.ite ?_ ?_
      · exact hv3
      · refine Sound.ite ?_ ?_
        · exact hv2
        · split
          · exact State.bump_sound hv2
          · refine Sound.ite ?_ ?_
            · exact State.bump_sound hv2
            · exact State.frameGo_sound hv2

theorem State.frameFromInside_sound {q : List Instr} {s : State} {f : RxFrame} (hs : Sound q s) :
    Sound q (State.frameFromInside s f) := by
  unfold State.frameFromInside
  refine Sound.ite ?_ ?_
  · refine State.txIn_sound ?_
    exact State.tookSeq_sound hs
  · exact hs

theorem execFrameForward_sound {q : List Instr} {p : ℕ} {f : RxFrame} {s : State} (hs : Sound q s) :
    NextSound q (execFrameForward p f s) := by
  unfold execFrameForward
  refine onUnit_sound ?_
  refine Sound.ite ?_ ?_
  · exact State.frameFromInside_sound hs
  · exact State.frameIn_sound hs

theorem State.datagramIn_sound {q : List Instr} {s : State} {p : ℕ} {d : Datagram} (hs : Sound q s) :
    Sound q (State.datagramIn s p d) := by
  unfold State.datagramIn
  refine Sound.ite ?_ ?_
  · exact hs
  · extract_lets -merge -useContext +onlyGivenNames v1 v2
    try clear_value v1
    try clear_value v2
    refine Sound.ite ?_ ?_
    · exact State.bump_sound hs
    · exact State.frameIn_sound hs

theorem execUdpDatagramReceived_sound {q : List Instr} {p : ℕ} {d : Datagram} {s : State} (hs : Sound q s) :
    NextSound q (execUdpDatagramReceived p d s) := by
  unfold execUdpDatagramReceived
  refine onUnit_sound ?_
  exact State.datagramIn_sound hs

theorem State.solicit_sound {q : List Instr} {s : State} {p : ℕ} {target : BitVec 128} (hs : Sound q s) :
    Sound q (State.solicit s p target) := by
  unfold State.solicit
  extract_lets -merge -useContext +onlyGivenNames v1 v2
  try clear_value v1
  try clear_value v2
  refine Sound.ite ?_ ?_
  · exact Sound.upd hs
  · exact hs

theorem execNeighborSolicitReceived_sound {q : List Instr} {p : ℕ} {target : BitVec 128} {s : State} (hs : Sound q s) :
    NextSound q (execNeighborSolicitReceived p target s) := by
  unfold execNeighborSolicitReceived
  refine onUnit_sound ?_
  exact State.solicit_sound hs

theorem State.echo_sound {q : List Instr} {s : State} {p : ℕ} {dst : BitVec 128} (hs : Sound q s) :
    Sound q (State.echo s p dst) := by
  unfold State.echo
  refine Sound.ite ?_ ?_
  · exact Sound.upd hs
  · exact hs

theorem execEchoRequestReceived_sound {q : List Instr} {p : ℕ} {dst : BitVec 128} {s : State} (hs : Sound q s) :
    NextSound q (execEchoRequestReceived p dst s) := by
  unfold execEchoRequestReceived
  refine onUnit_sound ?_
  exact State.echo_sound hs

theorem State.linkUp_sound {q : List Instr} {s : State} {p : ℕ} {speed : ℕ} (hs : Sound q s) :
    Sound q (State.linkUp s p speed) := by
  unfold State.linkUp
  refine Sound.ite ?_ ?_
  · extract_lets -merge -useContext +onlyGivenNames v1
    have hv1 : Sound q v1 := by
      unfold v1
      refine State.wr_sound ?_
      exact State.raise_sound hs
    try clear_value v1
    refine Sound.ite ?_ ?_
    · exact State.keying_sound hv1
    · exact hv1
  · exact hs

theorem State.linkDown_sound {q : List Instr} {s : State} {p : ℕ} (hs : Sound q s) :
    Sound q (State.linkDown s p) := by
  unfold State.linkDown
  refine Sound.ite ?_ ?_
  · exact State.portOff_sound hs
  · exact hs

theorem State.keyFail_sound {q : List Instr} {s : State} {p : ℕ} (hs : Sound q s) :
    Sound q (State.keyFail s p) := by
  unfold State.keyFail
  extract_lets -merge -useContext +onlyGivenNames v1
  try clear_value v1
  refine Sound.ite ?_ ?_
  · refine State.raise_sound ?_
    exact State.setPort_sound hs
  · exact hs

theorem State.learnPeer_sound {q : List Instr} {s : State} {p : ℕ} {k : Keyx} (hs : Sound q s) :
    Sound q (State.learnPeer s p k) := by
  unfold State.learnPeer
  refine State.preemptSync_sound ?_
  exact State.setPort_sound hs

theorem State.rekey_sound {q : List Instr} {s : State} {p : ℕ} (hs : Sound q s) :
    Sound q (State.rekey s p) := by
  unfold State.rekey
  split
  · refine State.offer_sound ?_
    exact State.setPort_sound hs
  · exact hs

theorem State.keyxOffer_sound {q : List Instr} {s : State} {p : ℕ} {k : Keyx} (hs : Sound q s) :
    Sound q (State.keyxOffer s p k) := by
  unfold State.keyxOffer
  refine Sound.ite ?_ ?_
  · exact hs
  · refine Sound.ite ?_ ?_
    · exact State.keyFail_sound hs
    · extract_lets -merge -useContext +onlyGivenNames v1 v2 v3 v4 v5 v6
      have hv1 : Sound q v1 := by
        unfold v1
        exact State.learnPeer_sound hs
      try clear_value v1
      try clear_value v2
      have hv3 : Sound q v3 := by
        unfold v3
        exact State.setPort_sound hv1
      try clear_value v3
      try clear_value v4
      try clear_value v5
      have hv6 : Sound q v6 := by
        unfold v6
        refine Sound.ite ?_ ?_
        · exact State.rekey_sound hv3
        · exact hv3
      try clear_value v6
      exact State.sendKeyx_sound hv6

theorem State.keyxAnswer_sound {q : List Instr} {s : State} {p : ℕ} {k : Keyx} (hs : Sound q s) :
    Sound q (State.keyxAnswer s p k) := by
  unfold State.keyxAnswer
  extract_lets -merge -useContext +onlyGivenNames v1 v2 v3 v4 v5 v6
  try clear_value v1
  have hv2 : Sound q v2 := by
    unfold v2
    exact State.learnPeer_sound hs
  try clear_value v2
  try clear_value v3
  try clear_value v4
  try clear_value v5
  have hv6 : Sound q v6 := by
    unfold v6
    exact State.setPort_sound hv2
  try clear_value v6
  refine Sound.ite ?_ ?_
  · exact hs
  · refine Sound.ite ?_ ?_
    · exact State.keyFail_sound hs
    · refine Sound.ite ?_ ?_
      · exact hs
      · refine Sound.ite ?_ ?_
        · refine State.sendHello_sound ?_
          exact State.wr_sound hv6
        · exact hv6

theorem execKeyxOfferReceived_sound {q : List Instr} {p : ℕ} {k : Keyx} {s : State} (hs : Sound q s) :
    NextSound q (execKeyxOfferReceived p k s) := by
  unfold execKeyxOfferReceived
  refine onUnit_sound ?_
  exact State.keyxOffer_sound hs

theorem execKeyxAnswerReceived_sound {q : List Instr} {p : ℕ} {k : Keyx} {s : State} (hs : Sound q s) :
    NextSound q (execKeyxAnswerReceived p k s) := by
  unfold execKeyxAnswerReceived
  refine onUnit_sound ?_
  exact State.keyxAnswer_sound hs

theorem State.offerTimer_sound {q : List Instr} {s : State} {p : ℕ} (hs : Sound q s) :
    Sound q (State.offerTimer s p) := by
  unfold State.offerTimer
  refine Sound.ite ?_ ?_
  · extract_lets -merge -useContext +onlyGivenNames v1
    have hv1 : Sound q v1 := by
      unfold v1
      exact State.advance_sound hs
    try clear_value v1
    refine State.offer_sound ?_
    refine Sound.ite ?_ ?_
    · exact State.newNonce_sound hv1
    · exact hv1
  · exact hs

theorem State.keyingTimeout_sound {q : List Instr} {s : State} {p : ℕ} (hs : Sound q s) :
    Sound q (State.keyingTimeout s p) := by
  unfold State.keyingTimeout
  refine Sound.ite ?_ ?_
  · extract_lets -merge -useContext +onlyGivenNames v1 v2
    have hv1 : Sound q v1 := by
      unfold v1
      exact State.advance_sound hs
    try clear_value v1
    try clear_value v2
    refine State.event_sound ?_
    exact State.setPort_sound hv1
  · exact hs

theorem State.rekeyTimer_sound {q : List Instr} {s : State} {p : ℕ} (hs : Sound q s) :
    Sound q (State.rekeyTimer s p) := by
  unfold State.rekeyTimer
  extract_lets -merge -useContext +onlyGivenNames v1 v2 v3
  try clear_value v1
  have hv2 : Sound q v2 := by
    unfold v2
    refine Sound.ite ?_ ?_
    · exact hs
    · exact State.advance_sound hs
  try clear_value v2
  try clear_value v3
  refine Sound.ite ?_ ?_
  · refine State.rekey_sound ?_
    exact State.setPort_sound hv2
  · exact hs

theorem State.oldSaDelete_sound {q : List Instr} {s : State} {p : ℕ} (hs : Sound q s) :
    Sound q (State.oldSaDelete s p) := by
  unfold State.oldSaDelete
  split
  · extract_lets -merge -useContext +onlyGivenNames v1 v2
    have hv1 : Sound q v1 := by
      unfold v1
      exact State.advance_sound hs
    try clear_value v1
    try clear_value v2
    exact State.setPort_sound hv1
  · exact hs

theorem execKeyxOfferTimer_sound {q : List Instr} {p : ℕ} {s : State} (hs : Sound q s) :
    NextSound q (execKeyxOfferTimer p s) := by
  unfold execKeyxOfferTimer
  refine onUnit_sound ?_
  exact State.offerTimer_sound hs

theorem execKeyingTimeout_sound {q : List Instr} {p : ℕ} {s : State} (hs : Sound q s) :
    NextSound q (execKeyingTimeout p s) := by
  unfold execKeyingTimeout
  refine onUnit_sound ?_
  exact State.keyingTimeout_sound hs

theorem execRekeyTimer_sound {q : List Instr} {p : ℕ} {s : State} (hs : Sound q s) :
    NextSound q (execRekeyTimer p s) := by
  unfold execRekeyTimer
  refine onUnit_sound ?_
  exact State.rekeyTimer_sound hs

theorem execOldSaDelete_sound {q : List Instr} {p : ℕ} {s : State} (hs : Sound q s) :
    NextSound q (execOldSaDelete p s) := by
  unfold execOldSaDelete
  refine onUnit_sound ?_
  exact State.oldSaDelete_sound hs

theorem State.helloTimer_sound {q : List Instr} {s : State} {p : ℕ} (hs : Sound q s) :
    Sound q (State.helloTimer s p) := by
  unfold State.helloTimer
  refine Sound.ite ?_ ?_
  · refine State.sendHello_sound ?_
    exact State.advance_sound hs
  · exact hs

theorem State.comeUp_sound {q : List Instr} {s : State} {p : ℕ} (hs : Sound q s) :
    Sound q (State.comeUp s p) := by
  unfold State.comeUp
  extract_lets -merge -useContext +onlyGivenNames v1 v2 v3 v4
  have hv1 : Sound q v1 := by
    unfold v1
    refine State.event_sound ?_
    refine State.raise_sound ?_
    exact State.wr_sound hs
  try clear_value v1
  have hv2 : Sound q v2 := by
    unfold v2
    exact State.reoriginate_sound hv1
  try clear_value v2
  have hv3 : Sound q v3 := by
    unfold v3
    exact State.sendLsas_sound hv2
  try clear_value v3
  try clear_value v4
  refine Sound.ite ?_ ?_
  · exact Sound.upd hv3
  · exact hv3

theorem State.hello_sound {q : List Instr} {s : State} {p : ℕ} {h : Hello} (hs : Sound q s) :
    Sound q (State.hello s p h) := by
  unfold State.hello
  refine Sound.ite ?_ ?_
  · exact hs
  · extract_lets -merge -useContext +onlyGivenNames v1 v2 v3 v4 v5 v6 v7 v8
    try clear_value v1
    try clear_value v2
    have hv3 : Sound q v3 := by
      unfold v3
      exact State.setPort_sound hs
    try clear_value v3
    try clear_value v4
    try clear_value v5
    try clear_value v6
    try clear_value v7
    have hv8 : Sound q v8 := by
      unfold v8
      refine State.wr_sound ?_
      exact State.setPort_sound hv3
    try clear_value v8
    refine Sound.ite ?_ ?_
    · refine State.keying_sound ?_
      refine State.dropSa_sound ?_
      exact State.leaveUp_sound hv3
    · refine Sound.ite ?_ ?_
      · exact State.leaveUp_sound hv8
      · refine Sound.ite ?_ ?_
        · exact State.comeUp_sound hv8
        · exact hv8

theorem State.deadTimer_sound {q : List Instr} {s : State} {p : ℕ} (hs : Sound q s) :
    Sound q (State.deadTimer s p) := by
  unfold State.deadTimer
  extract_lets -merge -useContext +onlyGivenNames v1
  try clear_value v1
  split
  · refine Sound.ite ?_ ?_
    · exact hs
    · refine Sound.ite ?_ ?_
      · exact State.setPort_sound hs
      · refine Sound.ite ?_ ?_
        · refine State.setPort_sound ?_
          exact State.advance_sound hs
        · refine State.portDown_sound ?_
          exact State.advance_sound hs
  · exact hs

theorem execHelloTimer_sound {q : List Instr} {p : ℕ} {s : State} (hs : Sound q s) :
    NextSound q (execHelloTimer p s) := by
  unfold execHelloTimer
  refine onUnit_sound ?_
  exact State.helloTimer_sound hs

theorem execHelloReceived_sound {q : List Instr} {p : ℕ} {h : Hello} {s : State} (hs : Sound q s) :
    NextSound q (execHelloReceived p h s) := by
  unfold execHelloReceived
  refine onUnit_sound ?_
  exact State.hello_sound hs

theorem execDeadTimer_sound {q : List Instr} {p : ℕ} {s : State} (hs : Sound q s) :
    NextSound q (execDeadTimer p s) := by
  unfold execDeadTimer
  refine onUnit_sound ?_
  exact State.deadTimer_sound hs

theorem State.claimPick_sound {q : List Instr} {s : State} (hs : Sound q s) :
    Sound q (State.claimPick s) := by
  unfold State.claimPick
  refine Sound.ite ?_ ?_
  · exact hs
  · refine Sound.ite ?_ ?_
    · exact State.pickNode_sound hs
    · refine Sound.ite ?_ ?_
      · refine State.pickNode_sound ?_
        exact State.advance_sound hs
      · exact hs

theorem State.claimed_sound {q : List Instr} {s : State} (hs : Sound q s) :
    Sound q (State.claimed s) := by
  have e0 : @State.claimed = @State.claimed := rfl
  conv at e0 => rhs; delta State.claimed
  rw [e0]
  clear e0
  beta_reduce
  split
  · exact hs
  · refine Sound.ite ?_ ?_
    · exact hs
    · extract_lets -merge -useContext +onlyGivenNames v1 v2 v3 v4 v5 v6 v7
      have hv1 : Sound q v1 := by
        unfold v1
        exact State.advance_sound hs
      try clear_value v1
      try clear_value v2
      have hv3 : Sound q v3 := by
        unfold v3
        refine State.wr_sound ?_
        exact State.wr_sound hv1
      try clear_value v3
      try clear_value v4
      have hv5 : Sound q v5 := by
        unfold v5
        exact Sound.upd hv3
      try clear_value v5
      try clear_value v6
      have hv7 : Sound q v7 := by
        unfold v7
        refine State.putIdentRec_sound ?_
        exact State.originate_sound hv5
      try clear_value v7
      refine State.event_sound ?_
      exact State.raise_sound hv7

theorem State.claimRetry_sound {q : List Instr} {s : State} (hs : Sound q s) :
    Sound q (State.claimRetry s) := by
  unfold State.claimRetry
  refine Sound.ite ?_ ?_
  · refine State.pickNode_sound ?_
    exact State.advance_sound hs
  · exact hs

theorem execNodeClaimPick_sound {q : List Instr} {s : State} (hs : Sound q s) :
    NextSound q (execNodeClaimPick s) := by
  unfold execNodeClaimPick
  refine NextSound.next ?_
  exact State.claimPick_sound hs

theorem execTentativeTimer_sound {q : List Instr} {s : State} (hs : Sound q s) :
    NextSound q (execTentativeTimer s) := by
  unfold execTentativeTimer
  refine NextSound.next ?_
  exact State.claimed_sound hs

theorem execNonodeRetry_sound {q : List Instr} {s : State} (hs : Sound q s) :
    NextSound q (execNonodeRetry s) := by
  unfold execNonodeRetry
  refine NextSound.next ?_
  exact State.claimRetry_sound hs

theorem State.takeLsa_sound {q : List Instr} {s : State} {p : ℕ} {l : Lsa} (hs : Sound q s) :
    Sound q (State.takeLsa s p l) := by
  unfold State.takeLsa
  extract_lets -merge -useContext +onlyGivenNames v1 v2
  have hv1 : Sound q v1 := by
    unfold v1
    refine State.sendAck_sound ?_
    exact State.bump_sound hs
  try clear_value v1
  have hv2 : Sound q v2 := by
    unfold v2
    exact State.flood_sound hv1
  try clear_value v2
  refine Sound.ite ?_ ?_
  · exact State.removeLsa_sound hv2
  · exact State.installLsa_sound hv2

theorem State.lsaBySeq_sound {q : List Instr} {s : State} {p : ℕ} {l : Lsa} (hs : Sound q s) :
    Sound q (State.lsaBySeq s p l) := by
  unfold State.lsaBySeq
  split
  · refine Sound.ite ?_ ?_
    · exact State.sendAck_sound hs
    · refine Sound.ite ?_ ?_
      · exact State.takeLsa_sound hs
      · exact State.sendLsas_sound hs
  · exact State.takeLsa_sound hs

theorem State.aliasIn_sound {q : List Instr} {s : State} {p : ℕ} {l : Lsa} (hs : Sound q s) :
    Sound q (State.aliasIn s p l) := by
  unfold State.aliasIn
  extract_lets -merge -useContext +onlyGivenNames v1
  try clear_value v1
  refine Sound.ite ?_ ?_
  · refine Sound.ite ?_ ?_
    · refine State.pairDemote_sound ?_
      exact State.lsaBySeq_sound hs
    · refine Sound.ite ?_ ?_
      · refine State.sendAck_sound ?_
        refine State.setLsa_sound ?_
        exact State.bump_sound hs
      · exact State.sendAck_sound hs
  · exact State.lsaBySeq_sound hs

theorem State.ownLsaIn_sound {q : List Instr} {s : State} {p : ℕ} {l : Lsa} (hs : Sound q s) :
    Sound q (State.ownLsaIn s p l) := by
  unfold State.ownLsaIn
  refine Sound.ite ?_ ?_
  · refine State.originate_sound ?_
    exact State.sendAck_sound hs
  · refine Sound.ite ?_ ?_
    · exact State.sendAck_sound hs
    · split
      · exact State.sendLsas_sound hs
      · exact State.sendAck_sound hs

theorem State.lsaIn_sound {q : List Instr} {s : State} {p : ℕ} {l : Lsa} (hs : Sound q s) :
    Sound q (State.lsaIn s p l) := by
  unfold State.lsaIn
  refine Sound.ite ?_ ?_
  · exact hs
  · refine Sound.ite ?_ ?_
    · exact hs
    · refine Sound.ite ?_ ?_
      · exact State.aliasIn_sound hs
      · refine Sound.ite ?_ ?_
        · refine State.lsaBySeq_sound ?_
          exact State.yieldNode_sound hs
        · refine Sound.ite ?_ ?_
          · exact State.ownLsaIn_sound hs
          · exact State.lsaBySeq_sound hs

theorem State.lsackIn_sound {q : List Instr} {s : State} {p : ℕ} {items : List (ℕ × ℕ)} (hs : Sound q s) :
    Sound q (State.lsackIn s p items) := by
  unfold State.lsackIn
  refine Sound.ite ?_ ?_
  · exact hs
  · extract_lets -merge -useContext +onlyGivenNames v1 v2 v3 v4
    try clear_value v1
    try clear_value v2
    have hv3 : Sound q v3 := by
      unfold v3
      exact State.setPort_sound hs
    try clear_value v3
    try clear_value v4
    refine Sound.ite ?_ ?_
    · exact Sound.upd hv3
    · exact hv3

theorem State.lsaRepeat_sound {q : List Instr} {s : State} {p : ℕ} (hs : Sound q s) :
    Sound q (State.lsaRepeat s p) := by
  unfold State.lsaRepeat
  extract_lets -merge -useContext +onlyGivenNames v1 v2 v3 v4
  try clear_value v1
  have hv2 : Sound q v2 := by
    unfold v2
    exact State.advance_sound hs
  try clear_value v2
  try clear_value v3
  try clear_value v4
  refine Sound.ite ?_ ?_
  · refine State.sendLsas_sound ?_
    exact State.setPort_sound hv2
  · exact hs

theorem State.lsaRefresh_sound {q : List Instr} {s : State} (hs : Sound q s) :
    Sound q (State.lsaRefresh s) := by
  unfold State.lsaRefresh
  refine Sound.ite ?_ ?_
  · refine State.reoriginate_sound ?_
    exact State.advance_sound hs
  · exact hs

theorem State.lsaAgeOut_sound {q : List Instr} {s : State} {n : ℕ} (hs : Sound q s) :
    Sound q (State.lsaAgeOut s n) := by
  unfold State.lsaAgeOut
  split
  · refine Sound.ite ?_ ?_
    · exact hs
    · refine State.removeLsa_sound ?_
      exact State.advance_sound hs
  · exact hs

theorem execLsaReceived_sound {q : List Instr} {p : ℕ} {l : Lsa} {s : State} (hs : Sound q s) :
    NextSound q (execLsaReceived p l s) := by
  unfold execLsaReceived
  refine onUnit_sound ?_
  exact State.lsaIn_sound hs

theorem execLsackReceived_sound {q : List Instr} {p : ℕ} {items : List (ℕ × ℕ)} {s : State} (hs : Sound q s) :
    NextSound q (execLsackReceived p items s) := by
  unfold execLsackReceived
  refine onUnit_sound ?_
  exact State.lsackIn_sound hs

theorem execLsaRetransmit_sound {q : List Instr} {p : ℕ} {s : State} (hs : Sound q s) :
    NextSound q (execLsaRetransmit p s) := by
  unfold execLsaRetransmit
  refine onUnit_sound ?_
  exact State.lsaRepeat_sound hs

theorem execLsaRefresh_sound {q : List Instr} {s : State} (hs : Sound q s) :
    NextSound q (execLsaRefresh s) := by
  unfold execLsaRefresh
  refine NextSound.next ?_
  exact State.lsaRefresh_sound hs

theorem execLsaAgeOut_sound {q : List Instr} {n : ℕ} {s : State} (hs : Sound q s) :
    NextSound q (execLsaAgeOut n s) := by
  unfold execLsaAgeOut
  refine onUnit_sound ?_
  exact State.lsaAgeOut_sound hs

theorem State.routeStart_sound {q : List Instr} {s : State} (hs : Sound q s) :
    Sound q (State.routeStart s) := by
  have e0 : @State.routeStart = @State.routeStart := rfl
  conv at e0 => rhs; delta State.routeStart
  rw [e0]
  clear e0
  beta_reduce
  split
  · refine Sound.ite ?_ ?_
    · exact hs
    · extract_lets -merge -useContext +onlyGivenNames v1 v2 v3 v4
      have hv1 : Sound q v1 := by
        unfold v1
        exact State.advance_sound hs
      try clear_value v1
      try clear_value v2
      have hv3 : Sound q v3 := by
        unfold v3
        exact Sound.upd hv1
      try clear_value v3
      try clear_value v4
      refine Sound.ite ?_ ?_
      · refine State.spfBusy_sound ?_
        exact State.asnPostTo_sound hv3
      · refine State.spfBusy_sound ?_
        exact Sound.upd hv3
  · exact hs

theorem State.routeDone_sound {q : List Instr} {s : State} (hs : Sound q s) :
    Sound q (State.routeDone s) := by
  unfold State.routeDone
  split
  · refine State.installRoutes_sound ?_
    refine State.spfBusy_sound ?_
    exact Sound.upd hs
  · exact hs

theorem execRouteComputeStart_sound {q : List Instr} {s : State} (hs : Sound q s) :
    NextSound q (execRouteComputeStart s) := by
  unfold execRouteComputeStart
  refine NextSound.next ?_
  exact State.routeStart_sound hs

theorem execRouteComputeComplete_sound {q : List Instr} {s : State} (hs : Sound q s) :
    NextSound q (execRouteComputeComplete s) := by
  unfold execRouteComputeComplete
  refine NextSound.next ?_
  exact State.routeDone_sound hs

theorem State.quenchIn_sound {q : List Instr} {s : State} {p : ℕ} {f : Leat} (hs : Sound q s) :
    Sound q (State.quenchIn s p f) := by
  unfold State.quenchIn
  extract_lets -merge -useContext +onlyGivenNames v1
  try clear_value v1
  refine Sound.ite ?_ ?_
  · exact hs
  · refine Sound.ite ?_ ?_
    · refine Sound.ite ?_ ?_
      · exact State.toInbox_sound hs
      · exact State.quenchIssue_sound hs
    · refine Sound.ite ?_ ?_
      · exact State.switch_sound hs
      · exact hs

theorem State.quenchResend_sound {q : List Instr} {s : State} (hs : Sound q s) :
    Sound q (State.quenchResend s) := by
  unfold State.quenchResend
  split
  · exact hs
  · extract_lets -merge -useContext +onlyGivenNames v1 v2 v3 v4
    have hv1 : Sound q v1 := by
      unfold v1
      exact State.advance_sound hs
    try clear_value v1
    try clear_value v2
    try clear_value v3
    have hv4 : Sound q v4 := by
      unfold v4
      exact Sound.upd hv1
    try clear_value v4
    refine Sound.ite ?_ ?_
    · exact State.quenchHop_sound hv4
    · exact hv4

theorem State.ruleExpiry_sound {q : List Instr} {s : State} {k : ℕ} (hs : Sound q s) :
    Sound q (State.ruleExpiry s k) := by
  unfold State.ruleExpiry
  extract_lets -merge -useContext +onlyGivenNames v1
  try clear_value v1
  refine Sound.ite ?_ ?_
  · refine State.setRule_sound ?_
    exact State.advance_sound hs
  · exact hs

theorem execQuenchReceived_sound {q : List Instr} {p : ℕ} {f : Leat} {s : State} (hs : Sound q s) :
    NextSound q (execQuenchReceived p f s) := by
  unfold execQuenchReceived
  refine onUnit_sound ?_
  exact State.quenchIn_sound hs

theorem execQuenchResend_sound {q : List Instr} {s : State} (hs : Sound q s) :
    NextSound q (execQuenchResend s) := by
  unfold execQuenchResend
  refine NextSound.next ?_
  exact State.quenchResend_sound hs

theorem execQuenchRuleExpiry_sound {q : List Instr} {k : ℕ} {s : State} (hs : Sound q s) :
    NextSound q (execQuenchRuleExpiry k s) := by
  unfold execQuenchRuleExpiry
  refine onUnit_sound ?_
  exact State.ruleExpiry_sound hs

theorem State.verifyDone_sound {q : List Instr} {s : State} {p : ℕ} {ok : Bool} (hs : Sound q s) :
    Sound q (State.verifyDone s p ok) := by
  unfold State.verifyDone
  extract_lets -merge -useContext +onlyGivenNames v1 v2
  try clear_value v1
  have hv2 : Sound q v2 := by
    unfold v2
    refine State.wrb_sound ?_
    exact State.setPort_sound hs
  try clear_value v2
  refine Sound.ite ?_ ?_
  · exact hs
  · refine Sound.ite ?_ ?_
    · exact hv2
    · refine State.event_sound ?_
      exact State.raise_sound hv2

theorem execPreemptVerifyComplete_sound {q : List Instr} {p : ℕ} {ok : Bool} {s : State} (hs : Sound q s) :
    NextSound q (execPreemptVerifyComplete p ok s) := by
  unfold execPreemptVerifyComplete
  refine onUnit_sound ?_
  exact State.verifyDone_sound hs

theorem State.setPtp_sound {q : List Instr} {s : State} {x1 : FabPtp} (hs : Sound q s) :
    Sound q (State.setPtp s x1) := by
  unfold State.setPtp
  exact Sound.upd hs

theorem State.ptpDecide_sound {q : List Instr} {s : State} (hs : Sound q s) :
    Sound q (State.ptpDecide s) := by
  unfold State.ptpDecide
  extract_lets -merge -useContext +onlyGivenNames v1 v2 v3 v4 v5 v6 v7
  try clear_value v1
  try clear_value v2
  try clear_value v3
  try clear_value v4
  have hv5 : Sound q v5 := by
    unfold v5
    exact State.setPtp_sound hs
  try clear_value v5
  have hv6 : Sound q v6 := by
    unfold v6
    refine State.wr_sound ?_
    exact State.wr_sound hv5
  try clear_value v6
  have hv7 : Sound q v7 := by
    unfold v7
    refine Sound.ite ?_ ?_
    · exact hv6
    · exact State.wr_sound hv6
  try clear_value v7
  split
  · extract_lets -merge -useContext +onlyGivenNames v8 v9 v10 v11 v12
    try clear_value v8
    try clear_value v9
    have hv10 : Sound q v10 := by
      unfold v10
      exact State.setPtp_sound hs
    try clear_value v10
    have hv11 : Sound q v11 := by
      unfold v11
      refine State.wr_sound ?_
      exact State.wr_sound hv10
    try clear_value v11
    have hv12 : Sound q v12 := by
      unfold v12
      refine Sound.ite ?_ ?_
      · exact hv11
      · exact State.wr_sound hv11
    try clear_value v12
    refine Sound.ite ?_ ?_
    · exact hv12
    · refine State.event_sound ?_
      exact State.raise_sound hv12
  · refine Sound.ite ?_ ?_
    · exact hs
    · refine Sound.ite ?_ ?_
      · refine State.event_sound ?_
        exact State.raise_sound hv7
      · exact hv7

theorem State.setForeign_sound {q : List Instr} {s : State} {p : ℕ} {a : Option PtpAnnounce} (hs : Sound q s) :
    Sound q (State.setForeign s p a) := by
  unfold State.setForeign
  extract_lets -merge -useContext +onlyGivenNames v1 v2 v3
  try clear_value v1
  have hv2 : Sound q v2 := by
    unfold v2
    exact State.setPtp_sound hs
  try clear_value v2
  try clear_value v3
  exact State.setPort_sound hv2

theorem State.ptpAnnounce_sound {q : List Instr} {s : State} {p : ℕ} {a : PtpAnnounce} (hs : Sound q s) :
    Sound q (State.ptpAnnounce s p a) := by
  unfold State.ptpAnnounce
  refine Sound.ite ?_ ?_
  · exact hs
  · refine State.ptpDecide_sound ?_
    exact State.setForeign_sound hs

theorem State.ptpOffset_sound {q : List Instr} {s : State} {offset : ℤ} {dt : ℕ} (hs : Sound q s) :
    Sound q (State.ptpOffset s offset dt) := by
  unfold State.ptpOffset
  extract_lets -merge -useContext +onlyGivenNames v1 v2 v3 v4 v5 v6 v7
  try clear_value v1
  have hv2 : Sound q v2 := by
    unfold v2
    exact State.setReg_sound hs
  try clear_value v2
  try clear_value v3
  have hv4 : Sound q v4 := by
    unfold v4
    refine State.wr_sound ?_
    exact State.setPtp_sound hv2
  try clear_value v4
  try clear_value v5
  have hv6 : Sound q v6 := by
    unfold v6
    exact State.setPtp_sound hv2
  try clear_value v6
  have hv7 : Sound q v7 := by
    unfold v7
    exact Sound.upd hv6
  try clear_value v7
  refine Sound.ite ?_ ?_
  · refine State.event_sound ?_
    refine State.raise_sound ?_
    exact State.mtStep_sound hv4
  · refine Sound.ite ?_ ?_
    · exact State.wr_sound hv7
    · exact hv7

theorem State.ptpPut_sound {q : List Instr} {s : State} {p : ℕ} {m : List PtpMsg} (hs : Sound q s) :
    Sound q (State.ptpPut s p m) := by
  unfold State.ptpPut
  extract_lets -merge -useContext +onlyGivenNames v1 v2 v3
  try clear_value v1
  try clear_value v2
  have hv3 : Sound q v3 := by
    unfold v3
    exact State.setPtp_sound hs
  try clear_value v3
  refine State.spendPn_sound ?_
  exact State.bumpBy_sound hv3

theorem State.ptpIn_sound {q : List Instr} {s : State} {p : ℕ} {domain : ℕ} {m : PtpMsg} (hs : Sound q s) :
    Sound q (State.ptpIn s p domain m) := by
  unfold State.ptpIn
  refine Sound.ite ?_ ?_
  · exact hs
  · extract_lets -merge -useContext +onlyGivenNames v1 v2 v3 v4
    try clear_value v1
    try clear_value v2
    try clear_value v3
    try clear_value v4
    split
    · exact State.ptpAnnounce_sound hs
    · refine Sound.ite ?_ ?_
      · exact hs
      · extract_lets -merge -useContext +onlyGivenNames v5 v6
        try clear_value v5
        have hv6 : Sound q v6 := by
          unfold v6
          exact State.setPtp_sound hs
        try clear_value v6
        split
        · exact State.ptpOffset_sound hv6
        · exact hv6
    · refine Sound.ite ?_ ?_
      · exact hs
      · split
        · exact State.setPtp_sound hs
        · exact hs
    · refine Sound.ite ?_ ?_
      · exact State.ptpPut_sound hs
      · exact hs

theorem execPtpMessageReceived_sound {q : List Instr} {p : ℕ} {x1 : PtpFrame} {s : State} (hs : Sound q s) :
    NextSound q (execPtpMessageReceived p x1 s) := by
  unfold execPtpMessageReceived
  refine onUnit_sound ?_
  exact State.ptpIn_sound hs

theorem State.ptpTx_sound {q : List Instr} {s : State} {p : ℕ} (hs : Sound q s) :
    Sound q (State.ptpTx s p) := by
  unfold State.ptpTx
  refine Sound.ite ?_ ?_
  · exact hs
  · extract_lets -merge -useContext +onlyGivenNames v1 v2 v3 v4 v5 v6 v7 v8
    have hv1 : Sound q v1 := by
      unfold v1
      exact State.advance_sound hs
    try clear_value v1
    try clear_value v2
    have hv3 : Sound q v3 := by
      unfold v3
      exact State.setPort_sound hv1
    try clear_value v3
    try clear_value v4
    try clear_value v5
    have hv6 : Sound q v6 := by
      unfold v6
      exact State.setPtp_sound hv3
    try clear_value v6
    try clear_value v7
    try clear_value v8
    split
    · refine State.ptpPut_sound ?_
      exact State.setPtp_sound hv6
    · exact State.ptpPut_sound hv6
    · exact hv6

theorem execPtpTxTimer_sound {q : List Instr} {p : ℕ} {s : State} (hs : Sound q s) :
    NextSound q (execPtpTxTimer p s) := by
  unfold execPtpTxTimer
  refine onUnit_sound ?_
  exact State.ptpTx_sound hs

theorem State.ptpLost_sound {q : List Instr} {s : State} (hs : Sound q s) :
    Sound q (State.ptpLost s) := by
  unfold State.ptpLost
  extract_lets -merge -useContext +onlyGivenNames v1
  try clear_value v1
  split
  · extract_lets -merge -useContext +onlyGivenNames v2 v3
    have hv2 : Sound q v2 := by
      unfold v2
      refine State.setForeign_sound ?_
      exact State.advance_sound hs
    try clear_value v2
    have hv3 : Sound q v3 := by
      unfold v3
      refine State.event_sound ?_
      refine State.raise_sound ?_
      exact State.wr_sound hv2
    try clear_value v3
    exact State.ptpDecide_sound hv3
  · exact hs

theorem execPtpAnnounceTimeout_sound {q : List Instr} {s : State} (hs : Sound q s) :
    NextSound q (execPtpAnnounceTimeout s) := by
  unfold execPtpAnnounceTimeout
  refine NextSound.next ?_
  exact State.ptpLost_sound hs

theorem State.mbxSend_sound {q : List Instr} {s : State} {len : ℕ} (hs : Sound q s) :
    Sound q (State.mbxSend s len) := by
  unfold State.mbxSend
  extract_lets -merge -useContext +onlyGivenNames v1 v2 v3 v4
  have hv1 : Sound q v1 := by
    unfold v1
    exact State.wr_sound hs
  try clear_value v1
  try clear_value v2
  have hv3 : ∀ x0 x1, Sound q x0 → Sound q (v3 x0 x1) := by
    unfold v3
    intro a5 a6 ha5
    exact State.wr_sound ha5
  try clear_value v3
  try clear_value v4
  refine Sound.ite ?_ ?_
  · exact hv3 _ _ hv1
  · refine Sound.ite ?_ ?_
    · exact hv3 _ _ hv1
    · refine Sound.ite ?_ ?_
      · refine hv3 _ _ ?_
        exact State.bump_sound hv1
      · refine Sound.ite ?_ ?_
        · refine hv3 _ _ ?_
          exact State.toInbox_sound hv1
        · refine Sound.ite ?_ ?_
          · refine hv3 _ _ ?_
            exact State.bump_sound hv1
          · refine Sound.ite ?_ ?_
            · refine hv3 _ _ ?_
              exact State.quenchIssue_sound hv1
            · refine hv3 _ _ ?_
              refine State.txIn_sound ?_
              exact State.tookSeq_sound hv1

theorem execMbxSend_sound {q : List Instr} {len : ℕ} {s : State} (hs : Sound q s) :
    NextSound q (execMbxSend len s) := by
  unfold execMbxSend
  refine NextSound.next ?_
  exact State.mbxSend_sound hs

end Sys2Proof.Machine
end

