-- ==== Sys2Proof/Laws/SoundRtc.lean ====
section
/-!
SUPPORT. Every operation of Machine/Rtc.lean keeps the queue and the canonical forms of memory and registers.
-/

namespace Sys2Proof.Machine

theorem State.setCalendar_sound {q : List Instr} {s : State} {c : Calendar} (hs : Sound q s) :
    Sound q (State.setCalendar s c) := by
  unfold State.setCalendar
  extract_lets -merge -useContext +onlyGivenNames v1 v2
  have hv1 : Sound q v1 := by
    unfold v1
    refine State.wr_sound ?_
    refine State.wr_sound ?_
    exact State.wr_sound hs
  try clear_value v1
  have hv2 : Sound q v2 := by
    unfold v2
    refine State.wr_sound ?_
    refine State.wr_sound ?_
    exact State.wr_sound hv1
  try clear_value v2
  exact State.wr_sound hv2

theorem State.rtcDone_sound {q : List Instr} {s : State} {op : ℕ} {res : ℕ} (hs : Sound q s) :
    Sound q (State.rtcDone s op res) := by
  unfold State.rtcDone
  refine State.raise_sound ?_
  refine State.clear_sound ?_
  refine State.wr_sound ?_
  exact State.wr_sound hs

theorem State.rtcCommit_sound {q : List Instr} {s : State} {tq : ℕ} (hs : Sound q s) :
    Sound q (State.rtcCommit s tq) := by
  unfold State.rtcCommit
  extract_lets -merge -useContext +onlyGivenNames v1 v2 v3 v4 v5 v6
  try clear_value v1
  have hv2 : Sound q v2 := by
    unfold v2
    exact Sound.upd hs
  try clear_value v2
  have hv3 : Sound q v3 := by
    unfold v3
    exact State.setCalendar_sound hv2
  try clear_value v3
  try clear_value v4
  have hv5 : Sound q v5 := by
    unfold v5
    exact Sound.upd hv3
  try clear_value v5
  have hv6 : Sound q v6 := by
    unfold v6
    refine State.raise_sound ?_
    refine State.wr_sound ?_
    refine State.clear_sound ?_
    exact State.wr_sound hv5
  try clear_value v6
  refine State.taken_sound ?_
  exact State.event_sound hv6

theorem execRtcSet_sound {q : List Instr} {s : State} (hs : Sound q s) :
    NextSound q (execRtcSet s) := by
  unfold execRtcSet
  refine NextSound.next ?_
  refine Sound.ite ?_ ?_
  · exact hs
  · refine Sound.ite ?_ ?_
    · exact State.rtcDone_sound hs
    · refine Sound.ite ?_ ?_
      · exact State.rtcDone_sound hs
      · refine Sound.ite ?_ ?_
        · refine State.wr_sound ?_
          refine State.raise_sound ?_
          exact Sound.upd hs
        · refine State.rtcDone_sound ?_
          exact State.rtcCommit_sound hs

theorem execRtcSync_sound {q : List Instr} {s : State} (hs : Sound q s) :
    NextSound q (execRtcSync s) := by
  unfold execRtcSync
  refine NextSound.next ?_
  refine Sound.ite ?_ ?_
  · exact hs
  · refine Sound.ite ?_ ?_
    · exact State.rtcDone_sound hs
    · refine Sound.ite ?_ ?_
      · exact State.rtcDone_sound hs
      · refine Sound.ite ?_ ?_
        · exact State.rtcDone_sound hs
        · extract_lets -merge -useContext +onlyGivenNames v1 v2 v3
          try clear_value v1
          try clear_value v2
          have hv3 : Sound q v3 := by
            unfold v3
            exact Sound.upd hs
          try clear_value v3
          refine State.rtcDone_sound ?_
          exact State.raise_sound hv3

theorem State.syncCommit_sound {q : List Instr} {s : State} (hs : Sound q s) :
    Sound q (State.syncCommit s) := by
  unfold State.syncCommit
  extract_lets -merge -useContext +onlyGivenNames v1 v2
  have hv1 : Sound q v1 := by
    unfold v1
    exact State.clear_sound hs
  try clear_value v1
  try clear_value v2
  refine Sound.ite ?_ ?_
  · exact State.rtcCommit_sound hv1
  · refine State.rtcDone_sound ?_
    exact Sound.upd hv1

theorem execSyncMatch_sound {q : List Instr} {s : State} (hs : Sound q s) :
    NextSound q (execSyncMatch s) := by
  unfold execSyncMatch
  refine NextSound.next ?_
  refine Sound.ite ?_ ?_
  · extract_lets -merge -useContext +onlyGivenNames v1 v2
    have hv1 : Sound q v1 := by
      unfold v1
      exact State.advanceMt_sound hs
    try clear_value v1
    try clear_value v2
    refine Sound.ite ?_ ?_
    · exact Sound.upd hv1
    · exact State.syncCommit_sound hv1
  · exact hs

theorem execRtcTick_sound {q : List Instr} {s : State} (hs : Sound q s) :
    NextSound q (execRtcTick s) := by
  unfold execRtcTick
  refine NextSound.next ?_
  refine Sound.ite ?_ ?_
  · refine State.rtcDone_sound ?_
    exact State.rtcCommit_sound hs
  · refine Sound.ite ?_ ?_
    · exact State.syncCommit_sound hs
    · extract_lets -merge -useContext +onlyGivenNames v1 v2 v3 v4 v5 v6
      try clear_value v1
      have hv2 : Sound q v2 := by
        unfold v2
        refine Sound.ite ?_ ?_
        · exact hs
        · exact State.advance_sound hs
      try clear_value v2
      try clear_value v3
      try clear_value v4
      have hv5 : Sound q v5 := by
        unfold v5
        exact Sound.upd hv2
      try clear_value v5
      have hv6 : Sound q v6 := by
        unfold v6
        refine State.wr_sound ?_
        exact State.setCalendar_sound hv5
      try clear_value v6
      refine Sound.ite ?_ ?_
      · exact State.raise_sound hv6
      · exact hv6

theorem execOscStop_sound {q : List Instr} {s : State} (hs : Sound q s) :
    NextSound q (execOscStop s) := by
  unfold execOscStop
  refine NextSound.next ?_
  refine Sound.ite ?_ ?_
  · exact hs
  · extract_lets -merge -useContext +onlyGivenNames v1 v2 v3 v4
    have hv1 : Sound q v1 := by
      unfold v1
      exact State.wr_sound hs
    try clear_value v1
    try clear_value v2
    have hv3 : Sound q v3 := by
      unfold v3
      exact Sound.upd hv1
    try clear_value v3
    have hv4 : Sound q v4 := by
      unfold v4
      refine State.wr_sound ?_
      exact State.raise_sound hv3
    try clear_value v4
    refine Sound.ite ?_ ?_
    · refine State.event_sound ?_
      exact State.raise_sound hv4
    · exact hv4

theorem execBackupPowerOn_sound {q : List Instr} {s : State} (hs : Sound q s) :
    NextSound q (execBackupPowerOn s) := by
  unfold execBackupPowerOn
  refine NextSound.next ?_
  extract_lets -merge -useContext +onlyGivenNames v1 v2 v3 v4 v5 v6 v7
  have hv1 : Sound q v1 := by
    unfold v1
    refine State.each_sound hs ?_
    intro a8 a9 ha8
    exact State.setReg_sound ha8
  try clear_value v1
  have hv2 : Sound q v2 := by
    unfold v2
    refine State.wr_sound ?_
    refine State.raise_sound ?_
    exact State.raise_sound hv1
  try clear_value v2
  have hv3 : Sound q v3 := by
    unfold v3
    refine State.wr_sound ?_
    exact State.wr_sound hv2
  try clear_value v3
  try clear_value v4
  try clear_value v5
  have hv6 : Sound q v6 := by
    unfold v6
    exact Sound.upd hv3
  try clear_value v6
  try clear_value v7
  refine State.wrb_sound ?_
  exact Sound.upd hv6

theorem execBackupSourceChange_sound {q : List Instr} {main : Bool} {s : State} (hs : Sound q s) :
    NextSound q (execBackupSourceChange main s) := by
  unfold execBackupSourceChange
  refine NextSound.next ?_
  exact State.wrb_sound hs

theorem execVbatMeasure_sound {q : List Instr} {mV : ℕ} {s : State} (hs : Sound q s) :
    NextSound q (execVbatMeasure mV s) := by
  unfold execVbatMeasure
  refine NextSound.next ?_
  refine Sound.ite ?_ ?_
  · exact hs
  · extract_lets -merge -useContext +onlyGivenNames v1 v2 v3
    have hv1 : Sound q v1 := by
      unfold v1
      exact State.wr_sound hs
    try clear_value v1
    have hv2 : Sound q v2 := by
      unfold v2
      refine State.raise_sound ?_
      exact State.raise_sound hv1
    try clear_value v2
    try clear_value v3
    refine Sound.ite ?_ ?_
    · refine Sound.ite ?_ ?_
      · refine State.event_sound ?_
        exact Sound.upd hv2
      · exact hv2
    · refine Sound.ite ?_ ?_
      · exact State.clear_sound hv1
      · exact hv1

theorem State.freezeRead_sound {q : List Instr} {s : State} {a : ℕ} (hs : Sound q s) :
    Sound q (State.freezeRead s a) := by
  unfold State.freezeRead
  extract_lets -merge -useContext +onlyGivenNames v1 v2 v3 v4
  try clear_value v1
  have hv2 : Sound q v2 := by
    unfold v2
    refine Sound.ite ?_ ?_
    · exact hs
    · refine State.raise_sound ?_
      exact Sound.upd hs
  try clear_value v2
  try clear_value v3
  have hv4 : Sound q v4 := by
    unfold v4
    exact Sound.upd hv2
  try clear_value v4
  refine Sound.ite ?_ ?_
  · exact State.clear_sound hv4
  · exact hv4

theorem execRtcFreezeRead_sound {q : List Instr} {a : ℕ} {s : State} (hs : Sound q s) :
    NextSound q (execRtcFreezeRead a s) := by
  unfold execRtcFreezeRead
  refine onUnit_sound ?_
  exact State.freezeRead_sound hs

theorem execFreezeTimeout_sound {q : List Instr} {s : State} (hs : Sound q s) :
    NextSound q (execFreezeTimeout s) := by
  unfold execFreezeTimeout
  refine NextSound.next ?_
  refine Sound.ite ?_ ?_
  · extract_lets -merge -useContext +onlyGivenNames v1
    have hv1 : Sound q v1 := by
      unfold v1
      exact State.advance_sound hs
    try clear_value v1
    refine State.event_sound ?_
    refine State.raise_sound ?_
    exact State.clear_sound hv1
  · exact hs

theorem State.backupCrc_sound {q : List Instr} {s : State} (hs : Sound q s) :
    Sound q (State.backupCrc s) := by
  unfold State.backupCrc
  exact State.wr_sound hs

theorem State.backupCheck_sound {q : List Instr} {s : State} (hs : Sound q s) :
    Sound q (State.backupCheck s) := by
  unfold State.backupCheck
  refine Sound.ite ?_ ?_
  · exact hs
  · exact State.raise_sound hs

theorem execBbinit_sound {q : List Instr} {s : State} (hs : Sound q s) :
    NextSound q (execBbinit s) := by
  unfold execBbinit
  refine NextSound.next ?_
  refine Sound.ite ?_ ?_
  · exact hs
  · extract_lets -merge -useContext +onlyGivenNames v1 v2
    have hv1 : Sound q v1 := by
      unfold v1
      refine State.each_sound hs ?_
      intro a3 a4 ha3
      exact State.setReg_sound ha3
    try clear_value v1
    have hv2 : Sound q v2 := by
      unfold v2
      refine State.each_sound hv1 ?_
      intro a5 a6 ha5
      exact State.setReg_sound ha5
    try clear_value v2
    refine State.rtcDone_sound ?_
    refine State.clear_sound ?_
    exact State.backupCrc_sound hv2

theorem State.backupWrite_sound {q : List Instr} {s : State} {i : ℕ} {v : Word} (hs : Sound q s) :
    Sound q (State.backupWrite s i v) := by
  unfold State.backupWrite
  extract_lets -merge -useContext +onlyGivenNames v1 v2
  try clear_value v1
  have hv2 : Sound q v2 := by
    unfold v2
    exact Sound.upd hs
  try clear_value v2
  refine State.backupCrc_sound ?_
  exact State.setReg_sound hv2

theorem execBackupByteWrite_sound {q : List Instr} {i : ℕ} {v : Word} {s : State} (hs : Sound q s) :
    NextSound q (execBackupByteWrite i v s) := by
  unfold execBackupByteWrite
  refine onUnit_sound ?_
  exact State.backupWrite_sound hs

end Sys2Proof.Machine
end

