-- ==== Sys2Proof/Laws/SoundSched.lean ====
section
/-!
SUPPORT. Every operation of Machine/Sched.lean keeps the queue and the canonical forms of memory and registers.
-/

namespace Sys2Proof.Machine

theorem State.taskLead_sound {q : List Instr} {s : State} {t : ℕ} (hs : Sound q s) :
    Sound q (State.taskLead s t) := by
  unfold State.taskLead
  extract_lets -merge -useContext +onlyGivenNames v1 v2
  try clear_value v1
  have hv2 : Sound q v2 := by
    unfold v2
    exact State.advanceMt_sound hs
  try clear_value v2
  refine Sound.ite ?_ ?_
  · exact hs
  · refine Sound.ite ?_ ?_
    · exact State.leadStart_sound hv2
    · exact hs

theorem State.switchInstant_sound {q : List Instr} {s : State} (hs : Sound q s) :
    Sound q (State.switchInstant s) := by
  unfold State.switchInstant
  refine Sound.ite ?_ ?_
  · extract_lets -merge -useContext +onlyGivenNames v1 v2
    try clear_value v1
    have hv2 : Sound q v2 := by
      unfold v2
      refine Sound.ite ?_ ?_
      · refine State.wr_sound ?_
        exact Sound.upd hs
      · exact hs
    try clear_value v2
    refine State.beginHold_sound ?_
    exact State.clear_sound hv2
  · exact hs

theorem State.releaseInstant_sound {q : List Instr} {s : State} {t : ℕ} (hs : Sound q s) :
    Sound q (State.releaseInstant s t) := by
  unfold State.releaseInstant
  extract_lets -merge -useContext +onlyGivenNames v1
  try clear_value v1
  refine Sound.ite ?_ ?_
  · exact State.defer_sound hs
  · refine Sound.ite ?_ ?_
    · exact State.releaseNow_sound hs
    · refine Sound.ite ?_ ?_
      · exact State.makeRelease_sound hs
      · exact State.overrun_sound hs

theorem State.switchDue_sound {q : List Instr} {s : State} {at_ : ℕ} (hs : Sound q s) :
    Sound q (State.switchDue s at_) := by
  unfold State.switchDue
  refine Sound.ite ?_ ?_
  · exact State.switchInstant_sound hs
  · exact hs

theorem State.shareRelease_sound {q : List Instr} {s : State} {at_ : ℕ} {t : ℕ} (hs : Sound q s) :
    Sound q (State.shareRelease s at_ t) := by
  unfold State.shareRelease
  refine State.releaseInstant_sound ?_
  exact State.setTask_sound hs

theorem State.taskRelease_sound {q : List Instr} {s : State} {t : ℕ} (hs : Sound q s) :
    Sound q (State.taskRelease s t) := by
  unfold State.taskRelease
  extract_lets -merge -useContext +onlyGivenNames v1 v2 v3 v4
  try clear_value v1
  have hv2 : Sound q v2 := by
    unfold v2
    refine State.switchDue_sound ?_
    exact State.advanceMt_sound hs
  try clear_value v2
  have hv3 : Sound q v3 := by
    unfold v3
    refine State.each_sound hv2 ?_
    intro a5 a6 ha5
    exact State.shareRelease_sound ha5
  try clear_value v3
  try clear_value v4
  refine Sound.ite ?_ ?_
  · exact hs
  · refine Sound.ite ?_ ?_
    · exact State.setTask_sound hs
    · exact State.setTask_sound hv3

theorem State.freeRelease_sound {q : List Instr} {s : State} {t : ℕ} (hs : Sound q s) :
    Sound q (State.freeRelease s t) := by
  unfold State.freeRelease
  extract_lets -merge -useContext +onlyGivenNames v1 v2 v3 v4 v5
  try clear_value v1
  have hv2 : Sound q v2 := by
    unfold v2
    exact State.advance_sound hs
  try clear_value v2
  have hv3 : Sound q v3 := by
    unfold v3
    exact State.switchDue_sound hv2
  try clear_value v3
  try clear_value v4
  have hv5 : Sound q v5 := by
    unfold v5
    exact State.setTask_sound hv3
  try clear_value v5
  refine Sound.ite ?_ ?_
  · exact hs
  · exact State.releaseInstant_sound hv5

theorem State.freeBound_sound {q : List Instr} {s : State} {t : ℕ} (hs : Sound q s) :
    Sound q (State.freeBound s t) := by
  unfold State.freeBound
  extract_lets -merge -useContext +onlyGivenNames v1 v2 v3
  try clear_value v1
  have hv2 : Sound q v2 := by
    unfold v2
    exact State.advance_sound hs
  try clear_value v2
  try clear_value v3
  refine Sound.ite ?_ ?_
  · exact hs
  · refine State.overrun_sound ?_
    exact State.setTask_sound hv2

theorem State.schDone_sound {q : List Instr} {s : State} {m : ℕ} (hs : Sound q s) :
    Sound q (State.schDone s m) := by
  unfold State.schDone
  refine Sound.ite ?_ ?_
  · exact hs
  · refine Sound.ite ?_ ?_
    · extract_lets -merge -useContext +onlyGivenNames v1 v2 v3 v4
      try clear_value v1
      try clear_value v2
      have hv3 : Sound q v3 := by
        unfold v3
        refine State.setCore_sound ?_
        exact State.clear_sound hs
      try clear_value v3
      have hv4 : Sound q v4 := by
        unfold v4
        refine Sound.ite ?_ ?_
        · refine State.errorMoment_sound ?_
          exact State.raise_sound hv3
        · exact hv3
      try clear_value v4
      exact State.settle_sound hv4
    · refine Sound.ite ?_ ?_
      · extract_lets -merge -useContext +onlyGivenNames v5 v6
        try clear_value v5
        have hv6 : Sound q v6 := by
          unfold v6
          refine State.queueCommit_sound ?_
          refine State.setTstate_sound ?_
          exact State.freeTheCore_sound hs
        try clear_value v6
        exact State.settle_sound hv6
      · exact hs

theorem State.schAbort_sound {q : List Instr} {s : State} {m : ℕ} (hs : Sound q s) :
    Sound q (State.schAbort s m) := by
  unfold State.schAbort
  refine Sound.ite ?_ ?_
  · exact hs
  · refine Sound.ite ?_ ?_
    · extract_lets -merge -useContext +onlyGivenNames v1 v2 v3 v4 v5
      try clear_value v1
      have hv2 : Sound q v2 := by
        unfold v2
        refine State.bump_sound ?_
        exact State.clear_sound hs
      try clear_value v2
      try clear_value v3
      have hv4 : Sound q v4 := by
        unfold v4
        exact State.setCore_sound hv2
      try clear_value v4
      have hv5 : Sound q v5 := by
        unfold v5
        refine Sound.ite ?_ ?_
        · refine State.errorMoment_sound ?_
          exact State.raise_sound hv4
        · exact hv4
      try clear_value v5
      exact State.settle_sound hv5
    · refine Sound.ite ?_ ?_
      · exact State.abortIter_sound hs
      · exact hs

theorem State.stopTask_sound {q : List Instr} {s : State} {t : ℕ} (hs : Sound q s) :
    Sound q (State.stopTask s t) := by
  unfold State.stopTask
  extract_lets -merge -useContext +onlyGivenNames v1 v2 v3 v4
  try clear_value v1
  try clear_value v2
  have hv3 : Sound q v3 := by
    unfold v3
    exact State.dropLead_sound hs
  try clear_value v3
  try clear_value v4
  refine Sound.ite ?_ ?_
  · exact hs
  · refine Sound.ite ?_ ?_
    · refine State.setTask_sound ?_
      exact State.clear_sound hs
    · refine State.setTask_sound ?_
      refine State.wr_sound ?_
      exact State.setTstate_sound hv3

theorem State.startTask_sound {q : List Instr} {s : State} {t : ℕ} (hs : Sound q s) :
    Sound q (State.startTask s t) := by
  unfold State.startTask
  refine Sound.ite ?_ ?_
  · exact hs
  · extract_lets -merge -useContext +onlyGivenNames v1
    have hv1 : Sound q v1 := by
      unfold v1
      refine State.wr_sound ?_
      exact State.setTstate_sound hs
    try clear_value v1
    refine Sound.ite ?_ ?_
    · exact hv1
    · refine Sound.ite ?_ ?_
      · exact hv1
      · exact State.armTask_sound hv1

theorem State.publishIdle_sound {q : List Instr} {s : State} {total : ℕ} {c : ℕ} (hs : Sound q s) :
    Sound q (State.publishIdle s total c) := by
  unfold State.publishIdle
  extract_lets -merge -useContext +onlyGivenNames v1 v2 v3 v4 v5 v6
  try clear_value v1
  try clear_value v2
  have hv3 : Sound q v3 := by
    unfold v3
    exact State.setCore_sound hs
  try clear_value v3
  try clear_value v4
  try clear_value v5
  have hv6 : Sound q v6 := by
    unfold v6
    exact State.wr_sound hv3
  try clear_value v6
  refine Sound.ite ?_ ?_
  · exact State.wr_sound hv6
  · exact hv6

theorem State.idleWindow_sound {q : List Instr} {s : State} (hs : Sound q s) :
    Sound q (State.idleWindow s) := by
  have e0 : @State.idleWindow = @State.idleWindow := rfl
  conv at e0 => rhs; delta State.idleWindow
  rw [e0]
  clear e0
  beta_reduce
  extract_lets -merge -useContext +onlyGivenNames v1 v2 v3 v4
  try clear_value v1
  have hv2 : Sound q v2 := by
    unfold v2
    exact State.advanceMt_sound hs
  try clear_value v2
  have hv3 : Sound q v3 := by
    unfold v3
    refine State.each_sound hv2 ?_
    intro a5 a6 ha5
    exact State.setCore_sound ha5
  try clear_value v3
  try clear_value v4
  split
  · extract_lets -merge -useContext +onlyGivenNames v7 v8 v9 v10
    have hv7 : Sound q v7 := by
      unfold v7
      exact State.advanceMt_sound hs
    try clear_value v7
    try clear_value v8
    have hv9 : Sound q v9 := by
      unfold v9
      refine State.each_sound hv7 ?_
      intro a11 a12 ha11
      exact State.publishIdle_sound ha11
    try clear_value v9
    try clear_value v10
    exact Sound.upd hv9
  · exact Sound.upd hv3

theorem State.clearIdleMin_sound {q : List Instr} {s : State} (hs : Sound q s) :
    Sound q (State.clearIdleMin s) := by
  unfold State.clearIdleMin
  refine State.each_sound hs ?_
  intro a1 a2 ha1
  exact State.wr_sound ha1

theorem State.writeIdleWin_sound {q : List Instr} {s : State} {v : Word} (hs : Sound q s) :
    Sound q (State.writeIdleWin s v) := by
  unfold State.writeIdleWin
  extract_lets -merge -useContext +onlyGivenNames v1 v2
  try clear_value v1
  have hv2 : Sound q v2 := by
    unfold v2
    refine Sound.ite ?_ ?_
    · refine State.dropWindow_sound ?_
      exact State.wr_sound hs
    · exact hs
  try clear_value v2
  refine Sound.ite ?_ ?_
  · exact State.clearIdleMin_sound hv2
  · exact hv2

theorem State.holdExpiry_sound {q : List Instr} {s : State} (hs : Sound q s) :
    Sound q (State.holdExpiry s) := by
  unfold State.holdExpiry
  split
  · exact hs
  · extract_lets -merge -useContext +onlyGivenNames v1 v2 v3 v4 v5 v6 v7
    have hv1 : Sound q v1 := by
      unfold v1
      exact State.advance_sound hs
    try clear_value v1
    try clear_value v2
    have hv3 : Sound q v3 := by
      unfold v3
      exact Sound.upd hv1
    try clear_value v3
    try clear_value v4
    have hv5 : Sound q v5 := by
      unfold v5
      refine Sound.ite ?_ ?_
      · exact hv3
      · exact State.raise_sound hv3
    try clear_value v5
    try clear_value v6
    have hv7 : Sound q v7 := by
      unfold v7
      refine Sound.ite ?_ ?_
      · exact Sound.upd hv5
      · exact hv5
    try clear_value v7
    refine State.checkHeld_sound ?_
    refine State.each_sound hv7 ?_
    intro a8 a9 ha8
    exact State.abortIter_sound ha8

theorem State.armSwitch_sound {q : List Instr} {s : State} (hs : Sound q s) :
    Sound q (State.armSwitch s) := by
  unfold State.armSwitch
  refine Sound.ite ?_ ?_
  · exact hs
  · extract_lets -merge -useContext +onlyGivenNames v1 v2 v3 v4 v5
    try clear_value v1
    try clear_value v2
    have hv3 : Sound q v3 := by
      unfold v3
      exact Sound.upd hs
    try clear_value v3
    have hv4 : Sound q v4 := by
      unfold v4
      exact State.raise_sound hv3
    try clear_value v4
    have hv5 : Sound q v5 := by
      unfold v5
      refine Sound.ite ?_ ?_
      · exact State.wr_sound hv4
      · exact hv4
    try clear_value v5
    refine Sound.ite ?_ ?_
    · exact State.switchInstant_sound hv5
    · exact hv5

theorem execTaskLeadStart_sound {q : List Instr} {t : ℕ} {s : State} (hs : Sound q s) :
    NextSound q (execTaskLeadStart t s) := by
  unfold execTaskLeadStart
  refine onUnit_sound ?_
  exact State.taskLead_sound hs

theorem execSchAbort_sound {q : List Instr} {m : ℕ} {s : State} (hs : Sound q s) :
    NextSound q (execSchAbort m s) := by
  unfold execSchAbort
  refine onUnit_sound ?_
  refine State.atHeld_sound ?_
  exact State.schAbort_sound hs

theorem execSchDone_sound {q : List Instr} {m : ℕ} {s : State} (hs : Sound q s) :
    NextSound q (execSchDone m s) := by
  unfold execSchDone
  refine onUnit_sound ?_
  exact State.schDone_sound hs

theorem execTaskRelease_sound {q : List Instr} {t : ℕ} {s : State} (hs : Sound q s) :
    NextSound q (execTaskRelease t s) := by
  unfold execTaskRelease
  refine onUnit_sound ?_
  refine State.atHeld_sound ?_
  exact State.taskRelease_sound hs

theorem execFreeRunRelease_sound {q : List Instr} {t : ℕ} {s : State} (hs : Sound q s) :
    NextSound q (execFreeRunRelease t s) := by
  unfold execFreeRunRelease
  refine onUnit_sound ?_
  exact State.freeRelease_sound hs

theorem execFreeRunBoundExpiry_sound {q : List Instr} {t : ℕ} {s : State} (hs : Sound q s) :
    NextSound q (execFreeRunBoundExpiry t s) := by
  unfold execFreeRunBoundExpiry
  refine onUnit_sound ?_
  refine State.atHeld_sound ?_
  exact State.freeBound_sound hs

theorem execTaskStop_sound {q : List Instr} {t : ℕ} {s : State} (hs : Sound q s) :
    NextSound q (execTaskStop t s) := by
  unfold execTaskStop
  refine onUnit_sound ?_
  exact State.stopTask_sound hs

theorem execTaskStart_sound {q : List Instr} {t : ℕ} {s : State} (hs : Sound q s) :
    NextSound q (execTaskStart t s) := by
  unfold execTaskStart
  refine onUnit_sound ?_
  exact State.startTask_sound hs

theorem execIdleWindowEnd_sound {q : List Instr} {s : State} (hs : Sound q s) :
    NextSound q (execIdleWindowEnd s) := by
  unfold execIdleWindowEnd
  refine NextSound.next ?_
  exact State.idleWindow_sound hs

theorem execIdleWinWrite_sound {q : List Instr} {v : Word} {s : State} (hs : Sound q s) :
    NextSound q (execIdleWinWrite v s) := by
  unfold execIdleWinWrite
  refine NextSound.next ?_
  exact State.writeIdleWin_sound hs

theorem execIdleClrmin_sound {q : List Instr} {s : State} (hs : Sound q s) :
    NextSound q (execIdleClrmin s) := by
  unfold execIdleClrmin
  refine NextSound.next ?_
  exact State.clearIdleMin_sound hs

theorem State.cancelSwitch_sound {q : List Instr} {s : State} (hs : Sound q s) :
    Sound q (State.cancelSwitch s) := by
  unfold State.cancelSwitch
  refine Sound.ite ?_ ?_
  · extract_lets -merge -useContext +onlyGivenNames v1
    have hv1 : Sound q v1 := by
      unfold v1
      refine Sound.ite ?_ ?_
      · exact State.wr_sound hs
      · exact hs
    try clear_value v1
    refine State.switchoverOff_sound ?_
    exact State.clear_sound hv1
  · exact hs

theorem execSwitchCancel_sound {q : List Instr} {s : State} (hs : Sound q s) :
    NextSound q (execSwitchCancel s) := by
  unfold execSwitchCancel
  refine NextSound.next ?_
  exact State.cancelSwitch_sound hs

theorem execHoldBoundExpiry_sound {q : List Instr} {s : State} (hs : Sound q s) :
    NextSound q (execHoldBoundExpiry s) := by
  unfold execHoldBoundExpiry
  refine NextSound.next ?_
  refine State.atHeld_sound ?_
  exact State.holdExpiry_sound hs

theorem execSwitchArm_sound {q : List Instr} {s : State} (hs : Sound q s) :
    NextSound q (execSwitchArm s) := by
  unfold execSwitchArm
  refine NextSound.next ?_
  refine State.atHeld_sound ?_
  exact State.armSwitch_sound hs

theorem execSwitchInstant_sound {q : List Instr} {s : State} (hs : Sound q s) :
    NextSound q (execSwitchInstant s) := by
  unfold execSwitchInstant
  refine NextSound.next ?_
  refine Sound.ite ?_ ?_
  · refine State.atHeld_sound ?_
    refine State.switchInstant_sound ?_
    exact State.advanceMt_sound hs
  · exact hs

end Sys2Proof.Machine
end

