-- ==== Sys2Proof/Laws/SoundVaultOps.lean ====
section
/-!
SUPPORT. Every operation of Machine/VaultOps.lean keeps the queue and the canonical forms of memory and registers.
-/

namespace Sys2Proof.Machine

theorem State.setBytes32_sound {q : List Instr} {s : State} {a : ℕ} {b : List Byte} (hs : Sound q s) :
    Sound q (State.setBytes32 s a b) := by
  unfold State.setBytes32
  refine State.each_sound hs ?_
  intro a1 a2 ha1
  exact State.setReg_sound ha1

theorem State.extendM_sound {q : List Instr} {s : State} {d : List Byte} (hs : Sound q s) :
    Sound q (State.extendM s d) := by
  unfold State.extendM
  refine State.bump_sound ?_
  exact State.setBytes32_sound hs

theorem State.cqEnd_sound {q : List Instr} {s : State} {seq : ℕ} {status : ℕ} {rslot : Option ℕ} {outlen : ℕ} (hs : Sound q s) :
    Sound q (State.cqEnd s seq status rslot outlen) := by
  unfold State.cqEnd
  extract_lets -merge -useContext +onlyGivenNames v1 v2 v3 v4 v5 v6 v7
  try clear_value v1
  try clear_value v2
  have hv3 : Sound q v3 := by
    unfold v3
    exact State.writeNum_sound hs
  try clear_value v3
  have hv4 : Sound q v4 := by
    unfold v4
    split
    · exact State.writeNum_sound hv3
    · exact hv3
  try clear_value v4
  have hv5 : Sound q v5 := by
    unfold v5
    refine State.writeNum_sound ?_
    exact State.writeNum_sound hv4
  try clear_value v5
  have hv6 : Sound q v6 := by
    unfold v6
    exact State.writeNum_sound hv5
  try clear_value v6
  have hv7 : Sound q v7 := by
    unfold v7
    refine State.keyCount_sound ?_
    exact State.wr_sound hv6
  try clear_value v7
  refine Sound.ite ?_ ?_
  · exact State.raise_sound hv7
  · exact hv7

theorem State.cqSkip_sound {q : List Instr} {s : State} {a : ℕ} (hs : Sound q s) :
    Sound q (State.cqSkip s a) := by
  unfold State.cqSkip
  split
  · exact hs
  · refine Sound.ite ?_ ?_
    · exact hs
    · extract_lets -merge -useContext +onlyGivenNames v1 v2 v3 v4
      try clear_value v1
      have hv2 : Sound q (v2).st := by
        unfold v2
        exact State.fetch_sound hs
      try clear_value v2
      have hv3 : Sound q v3 := by
        unfold v3
        exact hv2
      try clear_value v3
      try clear_value v4
      refine Sound.ite ?_ ?_
      · refine State.cqSkip_sound ?_
        exact State.cqEnd_sound hv2
      · refine Sound.ite ?_ ?_
        · exact Sound.upd hv3
        · refine Sound.ite ?_ ?_
          · refine State.cqSkip_sound ?_
            exact State.cqEnd_sound hv2
          · exact hv2

theorem State.cqFront_sound {q : List Instr} {s : State} (hs : Sound q s) :
    Sound q (State.cqFront s) := by
  unfold State.cqFront
  exact State.cqSkip_sound hs

theorem kErr_sound {q : List Instr} {s : State} {status : ℕ} (hs : Sound q s) :
    Sound q ((kErr s status)).st := by
  unfold kErr
  try dsimp -zeta only
  exact hs

theorem State.keyOp_sound {q : List Instr} {s : State} {op : ℕ} {f : KeyDesc → State → KeyRes} (hs : Sound q s) (hf : ∀ x0 x1, Sound q x1 → Sound q ((f x0 x1)).st) :
    Sound q (State.keyOp s op f) := by
  unfold State.keyOp
  refine Sound.ite ?_ ?_
  · exact hs
  · extract_lets -merge -useContext +onlyGivenNames v1 v2 v3 v4 v5 v6 v7 v8
    try clear_value v1
    have hv2 : Sound q (v2).st := by
      unfold v2
      exact State.fetch_sound hs
    try clear_value v2
    try clear_value v3
    have hv4 : Sound q (v4).st := by
      unfold v4
      exact hf _ _ hv2
    try clear_value v4
    try clear_value v5
    try clear_value v6
    have hv7 : Sound q v7 := by
      unfold v7
      exact hv4
    try clear_value v7
    try clear_value v8
    refine Sound.ite ?_ ?_
    · exact State.cqFront_sound hv2
    · refine State.raise_sound ?_
      exact Sound.upd hv7

theorem State.keyRead_sound {q : List Instr} {s : State} {a : ℕ} {n : ℕ} {k : List Byte → State → KeyRes} (hs : Sound q s) (hk : ∀ x0 x1, Sound q x1 → Sound q ((k x0 x1)).st) :
    Sound q ((State.keyRead s a n k)).st := by
  unfold State.keyRead
  split
  · exact kErr_sound hs
  · split
    · exact hk _ _ hs
    · extract_lets -merge -useContext +onlyGivenNames v1
      have hv1 : Sound q (v1).st := by
        unfold v1
        exact State.fetch_sound hs
      try clear_value v1
      split
      · exact kErr_sound hv1
      · exact hk _ _ hv1

theorem State.keyFits_sound {q : List Instr} {s : State} {d : KeyDesc} {n : ℕ} {k : State → KeyRes} (hs : Sound q s) (hk : ∀ x0, Sound q x0 → Sound q ((k x0)).st) :
    Sound q ((State.keyFits s d n k)).st := by
  unfold State.keyFits
  split
  · exact kErr_sound hs
  · split
    · exact kErr_sound hs
    · exact hk _ hs

theorem State.keyOf_sound {q : List Instr} {s : State} {n : ℕ} {kinds : List ℕ} {bit : Option ℕ} {k : KeySlot → State → KeyRes} (hs : Sound q s)
    (hk : ∀ x0 x1, Sound q x1 → Sound q (k x0 x1).st) : Sound q (State.keyOf s n kinds bit k).st := by
  have e0 : @State.keyOf = @State.keyOf := rfl
  conv at e0 => rhs; delta State.keyOf
  rw [e0]
  clear e0
  beta_reduce
  have h := State.useSlot_sound (n := n) hs
  revert h
  generalize s.useSlot n = r
  intro h
  obtain ⟨st, t⟩ := r
  have h1 : Sound q t := h
  clear h
  dsimp -zeta only
  split
  · exact kErr_sound h1
  · extract_lets -merge -useContext +onlyGivenNames v4
    clear_value v4
    split
    · exact kErr_sound h1
    · split
      · exact kErr_sound h1
      · exact hk _ _ h1

theorem State.keyDest_sound {q : List Instr} {s : State} {x1 : ℕ} {k : ℕ → KeyRes} (hs : Sound q s) (hk : ∀ x0, Sound q ((k x0)).st) :
    Sound q ((State.keyDest s x1 k)).st := by
  unfold State.keyDest
  split
  · split
    · exact hk _
    · exact kErr_sound hs
  · split
    · exact kErr_sound hs
    · split
      · exact kErr_sound hs
      · exact hk _

theorem State.keyMake_sound {q : List Instr} {s : State} {d : KeyDesc} {parent : ℕ} {kind : ℕ} {usage : BitVec 16} {purpose : ℕ} {bind : Bool} {material : List Byte} {out : List Byte} (hs : Sound q s) :
    Sound q ((State.keyMake s d parent kind usage purpose bind material out)).st := by
  unfold State.keyMake
  split
  · rename_i p1 p2 e3
    have hp2 : Sound q p2 := by
      refine Sound.ofSnd e3 ?_
      exact State.useSlot_sound hs
    extract_lets -merge -useContext +onlyGivenNames v4
    try clear_value v4
    split
    · exact kErr_sound hp2
    · split
      · exact kErr_sound hp2
      · refine State.keyDest_sound hp2 ?_
        intro a5
        try dsimp -zeta only
        exact hp2

theorem State.keyRng_sound {q : List Instr} {s : State} {k : State → KeyRes} (hs : Sound q s) (hk : ∀ x0, Sound q x0 → Sound q ((k x0)).st) :
    Sound q ((State.keyRng s k)).st := by
  unfold State.keyRng
  split
  · extract_lets -merge -useContext +onlyGivenNames v1
    have hv1 : Sound q (v1).st := by
      unfold v1
      exact hk _ hs
    try clear_value v1
    try dsimp -zeta only
    exact hv1
  · exact kErr_sound hs

theorem opHash_sound {q : List Instr} {d : KeyDesc} {s : State} (hs : Sound q s) :
    Sound q ((opHash d s)).st := by
  unfold opHash
  split
  · exact kErr_sound hs
  · refine State.keyRead_sound hs ?_
    intro a1 a2 ha2
    refine State.keyRead_sound ha2 ?_
    intro a3 a4 ha4
    refine State.keyFits_sound ha4 ?_
    intro a5 ha5
    extract_lets -merge -useContext +onlyGivenNames v6 v7 v8
    try clear_value v6
    try clear_value v7
    try clear_value v8
    try dsimp -zeta only
    exact ha5

theorem opHmac_sound {q : List Instr} {d : KeyDesc} {s : State} (hs : Sound q s) :
    Sound q ((opHmac d s)).st := by
  unfold opHmac
  refine State.keyOf_sound hs ?_
  intro a1 a2 ha2
  split
  · exact kErr_sound ha2
  · refine State.keyRead_sound ha2 ?_
    intro a3 a4 ha4
    refine State.keyFits_sound ha4 ?_
    intro a5 ha5
    try dsimp -zeta only
    exact ha5

theorem opKdf_sound {q : List Instr} {d : KeyDesc} {s : State} (hs : Sound q s) :
    Sound q ((opKdf d s)).st := by
  unfold opKdf
  refine State.keyOf_sound hs ?_
  intro a1 a2 ha2
  split
  · exact kErr_sound ha2
  · split
    · exact kErr_sound ha2
    · split
      · exact kErr_sound ha2
      · refine State.keyRead_sound ha2 ?_
        intro a3 a4 ha4
        extract_lets -merge -useContext +onlyGivenNames v5 v6
        try clear_value v5
        try clear_value v6
        exact State.keyMake_sound ha4

theorem opGcmEnc_sound {q : List Instr} {d : KeyDesc} {s : State} (hs : Sound q s) :
    Sound q ((opGcmEnc d s)).st := by
  unfold opGcmEnc
  refine State.keyOf_sound hs ?_
  intro a1 a2 ha2
  split
  · exact kErr_sound ha2
  · refine State.keyRead_sound ha2 ?_
    intro a3 a4 ha4
    refine State.keyRead_sound ha4 ?_
    intro a5 a6 ha6
    refine State.keyFits_sound ha6 ?_
    intro a7 ha7
    try dsimp -zeta only
    exact ha7

theorem opGcmDec_sound {q : List Instr} {d : KeyDesc} {s : State} (hs : Sound q s) :
    Sound q ((opGcmDec d s)).st := by
  unfold opGcmDec
  refine State.keyOf_sound hs ?_
  intro a1 a2 ha2
  split
  · exact kErr_sound ha2
  · refine State.keyRead_sound ha2 ?_
    intro a3 a4 ha4
    refine State.keyRead_sound ha4 ?_
    intro a5 a6 ha6
    refine State.keyFits_sound ha6 ?_
    intro a7 ha7
    split
    · try dsimp -zeta only
      exact ha7
    · exact kErr_sound ha7

theorem opSign_sound {q : List Instr} {d : KeyDesc} {s : State} (hs : Sound q s) :
    Sound q ((opSign d s)).st := by
  unfold opSign
  refine State.keyOf_sound hs ?_
  intro a1 a2 ha2
  split
  · exact kErr_sound ha2
  · refine State.keyRead_sound ha2 ?_
    intro a3 a4 ha4
    refine State.keyFits_sound ha4 ?_
    intro a5 ha5
    refine State.keyRng_sound ha5 ?_
    intro a6 ha6
    try dsimp -zeta only
    exact State.drawn_sound ha6

theorem verifyWith_sound {q : List Instr} {q' : List Byte} {d : KeyDesc} {s : State} (hs : Sound q s) :
    Sound q ((verifyWith q' d s)).st := by
  unfold verifyWith
  split
  · exact kErr_sound hs
  · refine State.keyRead_sound hs ?_
    intro a1 a2 ha2
    split
    · exact kErr_sound ha2
    · split
      · try dsimp -zeta only
        exact ha2
      · exact kErr_sound ha2

theorem opVerify_sound {q : List Instr} {d : KeyDesc} {s : State} (hs : Sound q s) :
    Sound q ((opVerify d s)).st := by
  unfold opVerify
  split
  · split
    · exact kErr_sound hs
    · refine State.keyRead_sound hs ?_
      intro a1 a2 ha2
      exact verifyWith_sound ha2
  · refine State.keyOf_sound hs ?_
    intro a3 a4 ha4
    exact verifyWith_sound ha4

theorem opEcdh_sound {q : List Instr} {d : KeyDesc} {s : State} (hs : Sound q s) :
    Sound q ((opEcdh d s)).st := by
  unfold opEcdh
  refine State.keyOf_sound hs ?_
  intro a1 a2 ha2
  split
  · exact kErr_sound ha2
  · split
    · exact kErr_sound ha2
    · refine State.keyRead_sound ha2 ?_
      intro a3 a4 ha4
      split
      · exact kErr_sound ha4
      · exact State.keyMake_sound ha4

theorem opKeygen_sound {q : List Instr} {d : KeyDesc} {s : State} (hs : Sound q s) :
    Sound q ((opKeygen d s)).st := by
  unfold opKeygen
  split
  · exact kErr_sound hs
  · refine State.keyFits_sound hs ?_
    intro a1 ha1
    refine State.keyRng_sound ha1 ?_
    intro a2 ha2
    extract_lets -merge -useContext +onlyGivenNames v3 v4
    try clear_value v3
    have hv4 : Sound q (v4).st := by
      unfold v4
      refine State.keyMake_sound ?_
      exact State.drawn_sound ha2
    try clear_value v4
    try dsimp -zeta only
    exact hv4

theorem opPubkey_sound {q : List Instr} {d : KeyDesc} {s : State} (hs : Sound q s) :
    Sound q ((opPubkey d s)).st := by
  unfold opPubkey
  refine State.keyOf_sound hs ?_
  intro a1 a2 ha2
  refine State.keyFits_sound ha2 ?_
  intro a3 ha3
  try dsimp -zeta only
  exact ha3

theorem opRandom_sound {q : List Instr} {d : KeyDesc} {s : State} (hs : Sound q s) :
    Sound q ((opRandom d s)).st := by
  unfold opRandom
  split
  · exact kErr_sound hs
  · refine State.keyFits_sound hs ?_
    intro a1 ha1
    refine State.keyRng_sound ha1 ?_
    intro a2 ha2
    try dsimp -zeta only
    exact State.drawn_sound ha2

theorem opWrap_sound {q : List Instr} {d : KeyDesc} {s : State} (hs : Sound q s) :
    Sound q ((opWrap d s)).st := by
  unfold opWrap
  refine State.keyOf_sound hs ?_
  intro a1 a2 ha2
  extract_lets -merge -useContext +onlyGivenNames v3
  have hv3 : Sound q (v3).st := by
    unfold v3
    refine State.keyOf_sound ha2 ?_
    intro a4 a5 ha5
    extract_lets -merge -useContext +onlyGivenNames v6 v7
    try clear_value v6
    try clear_value v7
    refine State.keyFits_sound ha5 ?_
    intro a8 ha8
    refine State.keyRng_sound ha8 ?_
    intro a9 ha9
    extract_lets -merge -useContext +onlyGivenNames v10
    try clear_value v10
    try dsimp -zeta only
    exact State.drawn_sound ha9
  try clear_value v3
  exact hv3

theorem State.unwrapTo_sound {q : List Instr} {s : State} {d : KeyDesc} {parent : ℕ} {b : List Byte} {pt : List Byte} (hs : Sound q s) :
    Sound q ((State.unwrapTo s d parent b pt)).st := by
  unfold State.unwrapTo
  extract_lets -merge -useContext +onlyGivenNames v1
  try clear_value v1
  split
  · exact kErr_sound hs
  · exact State.keyMake_sound hs

theorem opUnwrap_sound {q : List Instr} {d : KeyDesc} {s : State} (hs : Sound q s) :
    Sound q ((opUnwrap d s)).st := by
  unfold opUnwrap
  refine State.keyOf_sound hs ?_
  intro a1 a2 ha2
  split
  · exact kErr_sound ha2
  · refine State.keyRead_sound ha2 ?_
    intro a3 a4 ha4
    extract_lets -merge -useContext +onlyGivenNames v5
    try clear_value v5
    split
    · exact kErr_sound ha4
    · split
      · exact State.unwrapTo_sound ha4
      · exact kErr_sound ha4

theorem State.sealData_sound {q : List Instr} {s : State} {d : KeyDesc} {k : List Byte} {bind : Bool} {to_ : List Byte} {pt : List Byte} (hs : Sound q s) :
    Sound q ((State.sealData s d k bind to_ pt)).st := by
  unfold State.sealData
  refine State.keyFits_sound hs ?_
  intro a1 ha1
  refine State.keyRng_sound ha1 ?_
  intro a2 ha2
  extract_lets -merge -useContext +onlyGivenNames v3
  try clear_value v3
  try dsimp -zeta only
  exact State.drawn_sound ha2

theorem opSeal_sound {q : List Instr} {d : KeyDesc} {s : State} (hs : Sound q s) :
    Sound q ((opSeal d s)).st := by
  unfold opSeal
  refine State.keyOf_sound hs ?_
  intro a1 a2 ha2
  split
  · exact kErr_sound ha2
  · split
    · exact kErr_sound ha2
    · refine State.keyRead_sound ha2 ?_
      intro a3 a4 ha4
      exact State.sealData_sound ha4

theorem opUnseal_sound {q : List Instr} {d : KeyDesc} {s : State} (hs : Sound q s) :
    Sound q ((opUnseal d s)).st := by
  unfold opUnseal
  refine State.keyOf_sound hs ?_
  intro a1 a2 ha2
  split
  · exact kErr_sound ha2
  · refine State.keyRead_sound ha2 ?_
    intro a3 a4 ha4
    refine State.keyFits_sound ha4 ?_
    intro a5 ha5
    split
    · try dsimp -zeta only
      exact ha5
    · exact kErr_sound ha5

theorem opReseal_sound {q : List Instr} {d : KeyDesc} {s : State} (hs : Sound q s) :
    Sound q ((opReseal d s)).st := by
  unfold opReseal
  refine State.keyOf_sound hs ?_
  intro a1 a2 ha2
  split
  · exact kErr_sound ha2
  · split
    · exact kErr_sound ha2
    · refine State.keyRead_sound ha2 ?_
      intro a3 a4 ha4
      split
      · exact State.sealData_sound ha4
      · exact kErr_sound ha4

theorem opImport_sound {q : List Instr} {d : KeyDesc} {s : State} (hs : Sound q s) :
    Sound q ((opImport d s)).st := by
  unfold opImport
  refine State.keyOf_sound hs ?_
  intro a1 a2 ha2
  split
  · exact kErr_sound ha2
  · refine State.keyRead_sound ha2 ?_
    intro a3 a4 ha4
    refine State.keyRead_sound ha4 ?_
    intro a5 a6 ha6
    split
    · exact kErr_sound ha6
    · extract_lets -merge -useContext +onlyGivenNames v7
      try clear_value v7
      split
      · exact kErr_sound ha6
      · split
        · exact State.unwrapTo_sound ha6
        · exact kErr_sound ha6

theorem opExtend_sound {q : List Instr} {d : KeyDesc} {s : State} (hs : Sound q s) :
    Sound q ((opExtend d s)).st := by
  unfold opExtend
  split
  · exact kErr_sound hs
  · split
    · exact kErr_sound hs
    · refine State.keyRead_sound hs ?_
      intro a1 a2 ha2
      try dsimp -zeta only
      exact ha2

theorem opDeclare_sound {q : List Instr} {d : KeyDesc} {s : State} (hs : Sound q s) :
    Sound q ((opDeclare d s)).st := by
  unfold opDeclare
  split
  · exact kErr_sound hs
  · refine State.keyRead_sound hs ?_
    intro a1 a2 ha2
    try dsimp -zeta only
    exact ha2

theorem opAdopt_sound {q : List Instr} {x0 : KeyDesc} {s : State} (hs : Sound q s) :
    Sound q ((opAdopt x0 s)).st := by
  unfold opAdopt
  split
  · exact kErr_sound hs
  · split
    · exact kErr_sound hs
    · try dsimp -zeta only
      exact hs

theorem opSetpol_sound {q : List Instr} {d : KeyDesc} {s : State} (hs : Sound q s) :
    Sound q ((opSetpol d s)).st := by
  unfold opSetpol
  split
  · exact kErr_sound hs
  · split
    · exact kErr_sound hs
    · split
      · exact kErr_sound hs
      · try dsimp -zeta only
        exact hs

theorem State.keyEffect_sound {q : List Instr} {s : State} {a : KeyEffect} (hs : Sound q s) :
    Sound q (State.keyEffect s a) := by
  unfold State.keyEffect
  split
  · exact hs
  · exact State.setKslot_sound hs
  · exact State.write_sound hs
  · exact State.extendM_sound hs
  · refine State.raise_sound ?_
    exact State.setBytes32_sound hs
  · refine State.event_sound ?_
    refine State.raise_sound ?_
    refine State.clear_sound ?_
    exact State.setBytes32_sound hs
  · split
    · extract_lets -merge -useContext +onlyGivenNames v1 v2
      try clear_value v1
      try clear_value v2
      refine State.wr_sound ?_
      refine TwoCopy.rewrite_sound ?_
      exact State.drawn_sound hs
    · exact hs

theorem State.keyDone_sound {q : List Instr} {s : State} (hs : Sound q s) :
    Sound q (State.keyDone s) := by
  unfold State.keyDone
  split
  · exact hs
  · extract_lets -merge -useContext +onlyGivenNames v1 v2 v3 v4 v5 v6 v7
    try clear_value v1
    try clear_value v2
    have hv3 : Sound q v3 := by
      unfold v3
      exact Sound.upd hs
    try clear_value v3
    have hv4 : Sound q v4 := by
      unfold v4
      exact State.clear_sound hv3
    try clear_value v4
    try clear_value v5
    have hv6 : Sound q v6 := by
      unfold v6
      refine Sound.ite ?_ ?_
      · refine State.keyEffect_sound ?_
        exact State.write_sound hv4
      · exact hv4
    try clear_value v6
    try clear_value v7
    refine State.cqFront_sound ?_
    exact State.cqEnd_sound hv6

theorem State.staleInside_sound {q : List Instr} {s : State} {n : ℕ} (hs : Sound q s) :
    Sound q (State.staleInside s n) := by
  unfold State.staleInside
  split
  · extract_lets -merge -useContext +onlyGivenNames v1 v2
    try clear_value v1
    try clear_value v2
    refine Sound.ite ?_ ?_
    · exact Sound.upd hs
    · exact hs
  · exact hs

theorem State.scmdDone_sound {q : List Instr} {s : State} {result : ℕ} (hs : Sound q s) :
    Sound q (State.scmdDone s result) := by
  unfold State.scmdDone
  refine State.raise_sound ?_
  exact State.wr_sound hs

theorem State.raiseGen_sound {q : List Instr} {s : State} {n : ℕ} (hs : Sound q s) :
    Sound q (State.raiseGen s n) := by
  unfold State.raiseGen
  extract_lets -merge -useContext +onlyGivenNames v1 v2 v3
  try clear_value v1
  have hv2 : Sound q v2 := by
    unfold v2
    exact State.staleInside_sound hs
  try clear_value v2
  have hv3 : Sound q v3 := by
    unfold v3
    refine Sound.ite ?_ ?_
    · exact hv2
    · refine State.each_sound hv2 ?_
      intro a4 a5 ha4
      exact State.setKslot_sound ha4
  try clear_value v3
  exact State.setKslot_sound hv3

theorem State.invalSlot_sound {q : List Instr} {s : State} {n : ℕ} (hs : Sound q s) :
    Sound q (State.invalSlot s n) := by
  unfold State.invalSlot
  refine Sound.ite ?_ ?_
  · exact State.scmdDone_sound hs
  · refine Sound.ite ?_ ?_
    · exact State.scmdDone_sound hs
    · extract_lets -merge -useContext +onlyGivenNames v1 v2
      have hv1 : Sound q v1 := by
        unfold v1
        exact State.raiseGen_sound hs
      try clear_value v1
      have hv2 : Sound q v2 := by
        unfold v2
        refine Sound.ite ?_ ?_
        · exact State.raiseGen_sound hv1
        · exact hv1
      try clear_value v2
      refine State.scmdDone_sound ?_
      exact State.event_sound hv2

theorem State.eraseSlot_sound {q : List Instr} {s : State} {n : ℕ} (hs : Sound q s) :
    Sound q (State.eraseSlot s n) := by
  unfold State.eraseSlot
  refine Sound.ite ?_ ?_
  · exact State.scmdDone_sound hs
  · refine Sound.ite ?_ ?_
    · exact State.scmdDone_sound hs
    · extract_lets -merge -useContext +onlyGivenNames v1 v2
      have hv1 : Sound q v1 := by
        unfold v1
        exact State.staleInside_sound hs
      try clear_value v1
      have hv2 : Sound q v2 := by
        unfold v2
        refine State.each_sound hv1 ?_
        intro a3 a4 ha3
        exact State.setKslot_sound ha3
      try clear_value v2
      refine State.scmdDone_sound ?_
      exact State.event_sound hv2

theorem State.zeroRing_sound {q : List Instr} {s : State} {a : ℕ} (hs : Sound q s) :
    Sound q (State.zeroRing s a) := by
  unfold State.zeroRing
  split
  · exact hs
  · extract_lets -merge -useContext +onlyGivenNames v1
    try clear_value v1
    refine Sound.ite ?_ ?_
    · exact hs
    · refine State.zeroRing_sound ?_
      exact State.cqEnd_sound hs

theorem State.latchTamper_sound {q : List Instr} {s : State} {src : ℕ} (hs : Sound q s) :
    Sound q (State.latchTamper s src) := by
  unfold State.latchTamper
  extract_lets -merge -useContext +onlyGivenNames v1
  have hv1 : Sound q v1 := by
    unfold v1
    refine State.wr_sound ?_
    exact State.setBit_sound hs
  try clear_value v1
  refine State.wr_sound ?_
  exact State.wr_sound hv1

theorem State.eraseSeed_sound {q : List Instr} {s : State} (hs : Sound q s) :
    Sound q (State.eraseSeed s) := by
  unfold State.eraseSeed
  refine State.write_sound ?_
  exact State.write_sound hs

theorem State.zeroizeLine_sound {q : List Instr} {s : State} (hs : Sound q s) :
    Sound q (State.zeroizeLine s) := by
  have e0 : @State.zeroizeLine = @State.zeroizeLine := rfl
  conv at e0 => rhs; delta State.zeroizeLine
  rw [e0]
  clear e0
  beta_reduce
  extract_lets -merge -useContext +onlyGivenNames v1 v2 v3 v4 v5 v6 v7 v8 v9 v10 v11 v12
  try clear_value v1
  have hv2 : Sound q v2 := by
    unfold v2
    exact Sound.upd hs
  try clear_value v2
  have hv3 : Sound q v3 := by
    unfold v3
    split
    · refine State.cqEnd_sound ?_
      exact State.clear_sound hv2
    · exact hs
  try clear_value v3
  have hv4 : Sound q v4 := by
    unfold v4
    refine Sound.ite ?_ ?_
    · exact State.zeroRing_sound hv3
    · exact hv3
  try clear_value v4
  try clear_value v5
  have hv6 : Sound q v6 := by
    unfold v6
    exact Sound.upd hv4
  try clear_value v6
  have hv7 : Sound q v7 := by
    unfold v7
    refine State.clear_sound ?_
    refine State.setBytes32_sound ?_
    exact State.setBytes32_sound hv6
  try clear_value v7
  have hv8 : Sound q v8 := by
    unfold v8
    refine State.wr_sound ?_
    exact State.wr_sound hv7
  try clear_value v8
  have hv9 : Sound q v9 := by
    unfold v9
    refine State.each_sound hv8 ?_
    intro a13 a14 ha13
    refine Sound.ite ?_ ?_
    · exact State.pnExhausted_sound ha13
    · exact State.dropSa_sound ha13
  try clear_value v9
  have hv10 : Sound q v10 := by
    unfold v10
    refine State.each_sound hv9 ?_
    intro a15 a16 ha15
    exact State.freeSess_sound ha15
  try clear_value v10
  try clear_value v11
  have hv12 : Sound q v12 := by
    unfold v12
    exact Sound.upd hv10
  try clear_value v12
  refine State.raise_sound ?_
  refine State.raise_sound ?_
  exact State.eraseSeed_sound hv12

theorem State.tamperFire_sound {q : List Instr} {s : State} {src : ℕ} (hs : Sound q s) :
    Sound q (State.tamperFire s src) := by
  unfold State.tamperFire
  refine State.event_sound ?_
  refine State.zeroizeLine_sound ?_
  exact State.latchTamper_sound hs

theorem State.setActive_sound {q : List Instr} {s : State} {i : ℕ} {b : Bool} (hs : Sound q s) :
    Sound q (State.setActive s i b) := by
  unfold State.setActive
  extract_lets -merge -useContext +onlyGivenNames v1 v2
  try clear_value v1
  try clear_value v2
  refine State.wrb_sound ?_
  exact Sound.upd hs

theorem State.tamperLoop_sound {q : List Instr} {s : State} {i : ℕ} {isOpen : Bool} (hs : Sound q s) :
    Sound q (State.tamperLoop s i isOpen) := by
  unfold State.tamperLoop
  refine Sound.ite ?_ ?_
  · exact hs
  · extract_lets -merge -useContext +onlyGivenNames v1 v2 v3 v4 v5 v6
    try clear_value v1
    try clear_value v2
    try clear_value v3
    have hv4 : Sound q v4 := by
      unfold v4
      exact Sound.upd hs
    try clear_value v4
    try clear_value v5
    have hv6 : Sound q v6 := by
      unfold v6
      exact State.setActive_sound hv4
    try clear_value v6
    refine Sound.ite ?_ ?_
    · exact hv6
    · refine Sound.ite ?_ ?_
      · exact State.tamperFire_sound hv6
      · exact State.latchTamper_sound hv6

theorem State.keyStart_sound {q : List Instr} {s : State} (hs : Sound q s) :
    Sound q (State.keyStart s) := by
  unfold State.keyStart
  refine State.cqFront_sound ?_
  exact Sound.upd hs

theorem State.keyXbar_sound {q : List Instr} {s : State} (hs : Sound q s) :
    Sound q (State.keyXbar s) := by
  unfold State.keyXbar
  extract_lets -merge -useContext +onlyGivenNames v1 v2 v3
  try clear_value v1
  try clear_value v2
  have hv3 : Sound q v3 := by
    unfold v3
    refine State.clear_sound ?_
    exact Sound.upd hs
  try clear_value v3
  refine State.each_sound hv3 ?_
  intro a4 a5 ha4
  exact State.useDenied_sound ha4

theorem State.drbgFails_sound {q : List Instr} {s : State} (hs : Sound q s) :
    Sound q (State.drbgFails s) := by
  unfold State.drbgFails
  extract_lets -merge -useContext +onlyGivenNames v1 v2
  have hv1 : Sound q v1 := by
    unfold v1
    refine State.event_sound ?_
    refine State.raise_sound ?_
    exact State.wr_sound hs
  try clear_value v1
  try clear_value v2
  split
  · refine Sound.ite ?_ ?_
    · exact Sound.upd hv1
    · exact hv1
  · exact hv1

end Sys2Proof.Machine
end

