-- ==== Sys2Proof/Laws/SoundVault.lean ====
section
/-!
SUPPORT. Every operation of Machine/Vault.lean keeps the queue and the canonical forms of memory and registers.
-/

namespace Sys2Proof.Machine

theorem execKeyCqtailWrite_sound {q : List Instr} {v : Word} {s : State} (hs : Sound q s) :
    NextSound q (execKeyCqtailWrite v s) := by
  unfold execKeyCqtailWrite
  extract_lets -merge -useContext +onlyGivenNames v1 v2 v3 v4
  try clear_value v1
  try clear_value v2
  have hv3 : Sound q v3 := by
    unfold v3
    exact State.wr_sound hs
  try clear_value v3
  try clear_value v4
  refine NextSound.next ?_
  refine Sound.ite ?_ ?_
  · exact State.raise_sound hs
  · refine State.cqFront_sound ?_
    exact Sound.upd hv3

theorem execKeyHash_sound {q : List Instr} {s : State} (hs : Sound q s) :
    NextSound q (execKeyHash s) := by
  unfold execKeyHash
  refine NextSound.next ?_
  refine State.keyOp_sound hs ?_
  intro a1 a2 ha2
  exact opHash_sound ha2

theorem execKeyHmac_sound {q : List Instr} {s : State} (hs : Sound q s) :
    NextSound q (execKeyHmac s) := by
  unfold execKeyHmac
  refine NextSound.next ?_
  refine State.keyOp_sound hs ?_
  intro a1 a2 ha2
  exact opHmac_sound ha2

theorem execKeyKdf_sound {q : List Instr} {s : State} (hs : Sound q s) :
    NextSound q (execKeyKdf s) := by
  unfold execKeyKdf
  refine NextSound.next ?_
  refine State.keyOp_sound hs ?_
  intro a1 a2 ha2
  exact opKdf_sound ha2

theorem execKeyGcmEnc_sound {q : List Instr} {s : State} (hs : Sound q s) :
    NextSound q (execKeyGcmEnc s) := by
  unfold execKeyGcmEnc
  refine NextSound.next ?_
  refine State.keyOp_sound hs ?_
  intro a1 a2 ha2
  exact opGcmEnc_sound ha2

theorem execKeyGcmDec_sound {q : List Instr} {s : State} (hs : Sound q s) :
    NextSound q (execKeyGcmDec s) := by
  unfold execKeyGcmDec
  refine NextSound.next ?_
  refine State.keyOp_sound hs ?_
  intro a1 a2 ha2
  exact opGcmDec_sound ha2

theorem execKeySign_sound {q : List Instr} {s : State} (hs : Sound q s) :
    NextSound q (execKeySign s) := by
  unfold execKeySign
  refine NextSound.next ?_
  refine State.keyOp_sound hs ?_
  intro a1 a2 ha2
  exact opSign_sound ha2

theorem execKeyVerify_sound {q : List Instr} {s : State} (hs : Sound q s) :
    NextSound q (execKeyVerify s) := by
  unfold execKeyVerify
  refine NextSound.next ?_
  refine State.keyOp_sound hs ?_
  intro a1 a2 ha2
  exact opVerify_sound ha2

theorem execKeyEcdh_sound {q : List Instr} {s : State} (hs : Sound q s) :
    NextSound q (execKeyEcdh s) := by
  unfold execKeyEcdh
  refine NextSound.next ?_
  refine State.keyOp_sound hs ?_
  intro a1 a2 ha2
  exact opEcdh_sound ha2

theorem execKeyKeygen_sound {q : List Instr} {s : State} (hs : Sound q s) :
    NextSound q (execKeyKeygen s) := by
  unfold execKeyKeygen
  refine NextSound.next ?_
  refine State.keyOp_sound hs ?_
  intro a1 a2 ha2
  exact opKeygen_sound ha2

theorem execKeyPubkey_sound {q : List Instr} {s : State} (hs : Sound q s) :
    NextSound q (execKeyPubkey s) := by
  unfold execKeyPubkey
  refine NextSound.next ?_
  refine State.keyOp_sound hs ?_
  intro a1 a2 ha2
  exact opPubkey_sound ha2

theorem execKeyRandom_sound {q : List Instr} {s : State} (hs : Sound q s) :
    NextSound q (execKeyRandom s) := by
  unfold execKeyRandom
  refine NextSound.next ?_
  refine State.keyOp_sound hs ?_
  intro a1 a2 ha2
  exact opRandom_sound ha2

theorem execKeyWrap_sound {q : List Instr} {s : State} (hs : Sound q s) :
    NextSound q (execKeyWrap s) := by
  unfold execKeyWrap
  refine NextSound.next ?_
  refine State.keyOp_sound hs ?_
  intro a1 a2 ha2
  exact opWrap_sound ha2

theorem execKeyUnwrap_sound {q : List Instr} {s : State} (hs : Sound q s) :
    NextSound q (execKeyUnwrap s) := by
  unfold execKeyUnwrap
  refine NextSound.next ?_
  refine State.keyOp_sound hs ?_
  intro a1 a2 ha2
  exact opUnwrap_sound ha2

theorem execKeySeal_sound {q : List Instr} {s : State} (hs : Sound q s) :
    NextSound q (execKeySeal s) := by
  unfold execKeySeal
  refine NextSound.next ?_
  refine State.keyOp_sound hs ?_
  intro a1 a2 ha2
  exact opSeal_sound ha2

theorem execKeyUnseal_sound {q : List Instr} {s : State} (hs : Sound q s) :
    NextSound q (execKeyUnseal s) := by
  unfold execKeyUnseal
  refine NextSound.next ?_
  refine State.keyOp_sound hs ?_
  intro a1 a2 ha2
  exact opUnseal_sound ha2

theorem execKeyReseal_sound {q : List Instr} {s : State} (hs : Sound q s) :
    NextSound q (execKeyReseal s) := by
  unfold execKeyReseal
  refine NextSound.next ?_
  refine State.keyOp_sound hs ?_
  intro a1 a2 ha2
  exact opReseal_sound ha2

theorem execKeyImport_sound {q : List Instr} {s : State} (hs : Sound q s) :
    NextSound q (execKeyImport s) := by
  unfold execKeyImport
  refine NextSound.next ?_
  refine State.keyOp_sound hs ?_
  intro a1 a2 ha2
  exact opImport_sound ha2

theorem execKeyExtend_sound {q : List Instr} {s : State} (hs : Sound q s) :
    NextSound q (execKeyExtend s) := by
  unfold execKeyExtend
  refine NextSound.next ?_
  refine State.keyOp_sound hs ?_
  intro a1 a2 ha2
  exact opExtend_sound ha2

theorem execKeyDeclare_sound {q : List Instr} {s : State} (hs : Sound q s) :
    NextSound q (execKeyDeclare s) := by
  unfold execKeyDeclare
  refine NextSound.next ?_
  refine State.keyOp_sound hs ?_
  intro a1 a2 ha2
  exact opDeclare_sound ha2

theorem execKeyAdopt_sound {q : List Instr} {s : State} (hs : Sound q s) :
    NextSound q (execKeyAdopt s) := by
  unfold execKeyAdopt
  refine NextSound.next ?_
  refine State.keyOp_sound hs ?_
  intro a1 a2 ha2
  exact opAdopt_sound ha2

theorem execKeySetpol_sound {q : List Instr} {s : State} (hs : Sound q s) :
    NextSound q (execKeySetpol s) := by
  unfold execKeySetpol
  refine NextSound.next ?_
  refine State.keyOp_sound hs ?_
  intro a1 a2 ha2
  exact opSetpol_sound ha2

theorem execKeyOpComplete_sound {q : List Instr} {s : State} (hs : Sound q s) :
    NextSound q (execKeyOpComplete s) := by
  unfold execKeyOpComplete
  refine NextSound.next ?_
  refine Sound.ite ?_ ?_
  · exact State.keyDone_sound hs
  · exact hs

theorem execKeySessionEstablish_sound {q : List Instr} {r : KeyEstablish} {s : State} (hs : Sound q s) :
    NextSound q (execKeySessionEstablish r s) := by
  have e0 : @execKeySessionEstablish = @execKeySessionEstablish := rfl
  conv at e0 => rhs; delta execKeySessionEstablish
  rw [e0]
  clear e0
  beta_reduce
  refine onUnit_sound ?_
  split
  · rename_i p1 e2
    have hp1 : Sound q p1 := by
      refine Sound.ofSnd e2 ?_
      exact State.rootUse_sound hs
    split
    · rename_i p3 p4 e5
      have hp4 : Sound q p4 := by
        refine Sound.ofSnd e5 ?_
        exact State.tenant_sound hp1
      exact State.establish_sound hp4
  · rename_i p6 p7 _ e8
    have hp7 : Sound q p7 := by
      refine Sound.ofSnd e8 ?_
      exact State.rootUse_sound hs
    exact hp7

theorem execKeySessionCrypt_sound {q : List Instr} {session : ℕ} {dir : ℕ} {seq : ℕ} {s : State} (hs : Sound q s) :
    NextSound q (execKeySessionCrypt session dir seq s) := by
  unfold execKeySessionCrypt
  refine onUnit_sound ?_
  split
  · rename_i p1 e2
    have hp1 : Sound q p1 := by
      refine Sound.ofSnd e2 ?_
      exact State.askUse_sound hs
    exact State.keyCount_sound hp1
  · rename_i p3 e4
    have hp3 : Sound q p3 := by
      refine Sound.ofSnd e4 ?_
      exact State.askUse_sound hs
    exact hp3

theorem execKeyTenantHmac_sound {q : List Instr} {tenant : ℕ} {_data : List Byte} {s : State} (hs : Sound q s) :
    NextSound q (execKeyTenantHmac tenant _data s) := by
  unfold execKeyTenantHmac
  refine onUnit_sound ?_
  exact State.tenantUse_sound hs

theorem execKeyFabricDerive_sound {q : List Instr} {_r : KeyFabric} {s : State} (hs : Sound q s) :
    NextSound q (execKeyFabricDerive _r s) := by
  unfold execKeyFabricDerive
  refine NextSound.next ?_
  refine Sound.ite ?_ ?_
  · exact hs
  · split
    · rename_i p1 p2 e3
      have hp2 : Sound q p2 := by
        refine Sound.ofSnd e3 ?_
        exact State.useSlot_sound hs
      exact State.keyCount_sound hp2

theorem execKeyInval_sound {q : List Instr} {slot : ℕ} {s : State} (hs : Sound q s) :
    NextSound q (execKeyInval slot s) := by
  unfold execKeyInval
  refine onUnit_sound ?_
  refine State.invalSlot_sound ?_
  refine State.wr_sound ?_
  exact State.wr_sound hs

theorem execKeyErase_sound {q : List Instr} {slot : ℕ} {s : State} (hs : Sound q s) :
    NextSound q (execKeyErase slot s) := by
  unfold execKeyErase
  refine onUnit_sound ?_
  refine State.eraseSlot_sound ?_
  refine State.wr_sound ?_
  exact State.wr_sound hs

theorem execTamperAck_sound {q : List Instr} {s : State} (hs : Sound q s) :
    NextSound q (execTamperAck s) := by
  unfold execTamperAck
  refine NextSound.next ?_
  refine Sound.ite ?_ ?_
  · exact State.wr_sound hs
  · extract_lets -merge -useContext +onlyGivenNames v1
    have hv1 : Sound q v1 := by
      unfold v1
      refine State.wr_sound ?_
      exact State.wr_sound hs
    try clear_value v1
    refine State.wr_sound ?_
    refine State.wr_sound ?_
    exact State.wr_sound hv1

theorem execZeroize_sound {q : List Instr} {s : State} (hs : Sound q s) :
    NextSound q (execZeroize s) := by
  unfold execZeroize
  refine NextSound.next ?_
  exact State.tamperFire_sound hs

theorem execTamperLoopConfirm_sound {q : List Instr} {loop : ℕ} {isOpen : Bool} {s : State} (hs : Sound q s) :
    NextSound q (execTamperLoopConfirm loop isOpen s) := by
  unfold execTamperLoopConfirm
  refine onUnit_sound ?_
  exact State.tamperLoop_sound hs

theorem execOnDieTamper_sound {q : List Instr} {src : ℕ} {s : State} (hs : Sound q s) :
    NextSound q (execOnDieTamper src s) := by
  unfold execOnDieTamper
  refine onUnit_sound ?_
  exact State.tamperFire_sound hs

theorem execDrbgReseed_sound {q : List Instr} {pass : Bool} {s : State} (hs : Sound q s) :
    NextSound q (execDrbgReseed pass s) := by
  unfold execDrbgReseed
  refine NextSound.next ?_
  extract_lets -merge -useContext +onlyGivenNames v1
  have hv1 : Sound q v1 := by
    unfold v1
    exact State.clear_sound hs
  try clear_value v1
  refine Sound.ite ?_ ?_
  · refine State.wr_sound ?_
    exact State.wr_sound hv1
  · exact State.drbgFails_sound hv1

theorem execEntropyHealthFailure_sound {q : List Instr} {s : State} (hs : Sound q s) :
    NextSound q (execEntropyHealthFailure s) := by
  unfold execEntropyHealthFailure
  refine NextSound.next ?_
  exact State.drbgFails_sound hs

end Sys2Proof.Machine
end

