-- ==== Sys2Proof/Laws/SoundRegOps.lean ====
section
/-!
SUPPORT. Every operation of Machine/RegOps.lean keeps the queue and the canonical forms of memory and registers.
-/

namespace Sys2Proof.Machine

theorem State.writeField_sound {q : List Instr} {s : State} {a : ℕ} {v : Word} {f : FieldDesc} (hs : Sound q s) :
    Sound q (State.writeField s a v f) := by
  unfold State.writeField
  extract_lets -merge -useContext +onlyGivenNames v1 v2
  try clear_value v1
  try clear_value v2
  refine Sound.ite ?_ ?_
  · exact hs
  · split
    · exact State.wrIf_sound hs
    · exact State.wrIf_sound hs
    · exact State.wrIf_sound hs
    · exact State.setReg_sound hs
    · exact State.setReg_sound hs
    · exact hs
    · exact hs
    · exact hs
    · exact hs

theorem State.afterWrite_sound {q : List Instr} {s : State} {a : ℕ} {v : Word} (hs : Sound q s) :
    Sound q (State.afterWrite s a v) := by
  unfold State.afterWrite
  split
  · exact State.syncTasks_sound hs
  · split
    · refine Sound.ite ?_ ?_
      · refine State.fifoSync_sound ?_
        exact State.setCan_sound hs
      · exact hs
    · refine Sound.ite ?_ ?_
      · extract_lets -merge -useContext +onlyGivenNames v1 v2
        try clear_value v1
        try clear_value v2
        refine Sound.ite ?_ ?_
        · exact hs
        · exact Sound.upd hs
      · refine Sound.ite ?_ ?_
        · refine State.each_sound hs ?_
          intro a3 a4 ha3
          refine Sound.ite ?_ ?_
          · exact ha3
          · exact State.setActive_sound ha3
        · split
          · exact State.preemptSync_sound hs
          · exact hs

theorem State.tableWrite_sound {q : List Instr} {s : State} {m : ℕ} {a : ℕ} {v : Word} {d : RegDesc} (hs : Sound q s) :
    Sound q (State.tableWrite s m a v d) := by
  unfold State.tableWrite
  refine Sound.ite ?_ ?_
  · exact hs
  · extract_lets -merge -useContext +onlyGivenNames v1 v2 v3 v4
    try clear_value v1
    try clear_value v2
    have hv3 : Sound q v3 := by
      unfold v3
      refine foldl_keep (P := fun (x : State) => Sound q x) ?_ ?_
      · intro a5 a6 ha5
        beta_reduce at *
        exact State.writeField_sound ha5
      · exact hs
    try clear_value v3
    have hv4 : Sound q v4 := by
      unfold v4
      refine Sound.ite ?_ ?_
      · exact State.raise_sound hv3
      · exact hv3
    try clear_value v4
    exact State.afterWrite_sound hv4

theorem State.plainWrite_sound {q : List Instr} {s : State} {m : ℕ} {a : ℕ} {v : Word} (hs : Sound q s) :
    Sound q (State.plainWrite s m a v) := by
  have e0 : @State.plainWrite = @State.plainWrite := rfl
  conv at e0 => rhs; delta State.plainWrite
  rw [e0]
  clear e0
  beta_reduce
  generalize mailboxWord a = o
  generalize regAt a = d
  cases o
  · cases d
    · exact hs
    · exact State.tableWrite_sound hs
  · exact Sound.upd hs

theorem State.modeWrite_sound {q : List Instr} {s : State} {b : AsnBlock} {ring : Bool} {v : Word} (hs : Sound q s) :
    Sound q (State.modeWrite s b ring v) := by
  unfold State.modeWrite
  extract_lets -merge -useContext +onlyGivenNames v1 v2 v3 v4 v5 v6 v7
  try clear_value v1
  try clear_value v2
  try clear_value v3
  try clear_value v4
  have hv5 : Sound q v5 := by
    unfold v5
    exact State.wrIf_sound hs
  try clear_value v5
  have hv6 : Sound q v6 := by
    unfold v6
    refine State.wr_sound ?_
    exact State.wrIf_sound hv5
  try clear_value v6
  have hv7 : Sound q v7 := by
    unfold v7
    exact State.wr_sound hv6
  try clear_value v7
  refine Sound.ite ?_ ?_
  · refine Sound.ite ?_ ?_
    · exact hv7
    · refine Sound.ite ?_ ?_
      · exact hs
      · exact State.raise_sound hs
  · refine Sound.ite ?_ ?_
    · refine State.wr_sound ?_
      exact State.wr_sound hs
    · refine Sound.ite ?_ ?_
      · exact hs
      · exact State.raise_sound hs

theorem State.classWrite_sound {q : List Instr} {s : State} {v : Word} (hs : Sound q s) :
    Sound q (State.classWrite s v) := by
  unfold State.classWrite
  extract_lets -merge -useContext +onlyGivenNames v1 v2 v3
  try clear_value v1
  try clear_value v2
  try clear_value v3
  refine State.wr_sound ?_
  exact Sound.upd hs

theorem State.shadowWrite_sound {q : List Instr} {s : State} {v : Word} (hs : Sound q s) :
    Sound q (State.shadowWrite s v) := by
  unfold State.shadowWrite
  extract_lets -merge -useContext +onlyGivenNames v1 v2 v3 v4
  try clear_value v1
  try clear_value v2
  try clear_value v3
  have hv4 : Sound q v4 := by
    unfold v4
    refine Sound.ite ?_ ?_
    · exact Sound.upd hs
    · exact hs
  try clear_value v4
  exact State.wr_sound hv4

theorem State.handlerCan_sound {q : List Instr} {s : State} {a : ℕ} {v : Word} (hs : Sound q s) :
    SomeSound q (State.handlerCan s a v) := by
  unfold State.handlerCan
  refine SomeSound.map ?_
  intro a1
  exact State.canMdata_sound hs

theorem State.handlerIo_sound {q : List Instr} {s : State} {a : ℕ} {v : Word} (hs : Sound q s) :
    SomeSound q (State.handlerIo s a v) := by
  unfold State.handlerIo
  split
  · refine SomeSound.some ?_
    exact State.kaCfg_sound hs
  · split
    · refine SomeSound.some ?_
      exact State.filterWrite_sound hs
    · split
      · refine SomeSound.some ?_
        exact State.counterConfig_sound hs
      · split
        · refine SomeSound.some ?_
          exact State.outConfig_sound hs
        · split
          · refine SomeSound.some ?_
            exact State.rfxConfig_sound hs
          · refine SomeSound.map ?_
            intro a1
            exact State.rfxConfig_sound hs

theorem State.handlerAio_sound {q : List Instr} {s : State} {a : ℕ} {v : Word} (hs : Sound q s) :
    SomeSound q (State.handlerAio s a v) := by
  unfold State.handlerAio
  split
  · refine SomeSound.some ?_
    exact State.aiConfig_sound hs
  · split
    · refine SomeSound.some ?_
      exact State.outConfig_sound hs
    · refine SomeSound.map ?_
      intro a1
      exact State.outConfig_sound hs

theorem State.handler_sound {q : List Instr} {s : State} {a : ℕ} {v : Word} (hs : Sound q s) :
    SomeSound q (State.handler s a v) := by
  unfold State.handler
  split
  · refine SomeSound.some ?_
    exact State.writeIdleWin_sound hs
  · split
    · refine SomeSound.some ?_
      exact State.imgMdata_sound hs
    · split
      · refine SomeSound.some ?_
        exact State.tagWrite_sound hs
      · split
        · refine SomeSound.some ?_
          exact State.loopMdata_sound hs
        · split
          · refine SomeSound.some ?_
            exact State.mtrMdata_sound hs
          · split
            · refine SomeSound.some ?_
              exact State.smapWrite_sound hs
            · split
              · refine SomeSound.some ?_
                exact State.classWrite_sound hs
              · split
                · refine SomeSound.some ?_
                  exact State.shadowWrite_sound hs
                · split
                  · refine SomeSound.some ?_
                    exact State.modeWrite_sound hs
                  · split
                    · refine SomeSound.some ?_
                      exact State.backupWrite_sound hs
                    · split
                      · exact State.handlerCan_sound hs
                      · split
                        · exact State.handlerIo_sound hs
                        · split
                          · exact State.handlerAio_sound hs
                          · exact SomeSound.none

theorem State.cfgWrite_sound {q : List Instr} {s : State} {m : ℕ} {a : ℕ} {v : Word} (hs : Sound q s) :
    Sound q (State.cfgWrite s m a v) := by
  unfold State.cfgWrite
  split
  · rename_i p1 e2
    have hp1 : Sound q p1 := by
      refine Sound.ofSome e2 ?_
      exact State.handler_sound hs
    exact hp1
  · extract_lets -merge -useContext +onlyGivenNames v3
    have hv3 : Sound q v3 := by
      unfold v3
      exact State.plainWrite_sound hs
    try clear_value v3
    split
    · exact State.wr_sound hv3
    · exact hv3

theorem State.latch_sound {q : List Instr} {s : State} {m : ℕ} {a : ℕ} (hs : Sound q s) :
    Sound q (State.latch s m a) := by
  unfold State.latch
  refine State.each_sound hs ?_
  intro a1 a2 ha1
  exact Sound.upd ha1

theorem State.unlatch_sound {q : List Instr} {s : State} {a : ℕ} (hs : Sound q s) :
    Sound q (State.unlatch s a) := by
  unfold State.unlatch
  exact Sound.upd hs

theorem State.clearRc_sound {q : List Instr} {s : State} {m : ℕ} {a : ℕ} (hs : Sound q s) :
    Sound q (State.clearRc s m a) := by
  have e0 : @State.clearRc = @State.clearRc := rfl
  conv at e0 => rhs; delta State.clearRc
  rw [e0]
  clear e0
  beta_reduce
  split
  · exact hs
  · refine foldl_keep (P := fun x => Sound q x) ?_ hs
    intro s f hs
    beta_reduce at *
    split
    · exact State.wr_sound hs
    · exact hs

theorem State.ramView_sound {q : List Instr} {s : State} {a : ℕ} (hs : Sound q s) :
    SomeSound2 q (State.ramView s a) := by
  unfold State.ramView
  split
  · refine SomeSound2.some' ?_
    exact State.canReadRam_sound hs
  · split
    · extract_lets -merge -useContext +onlyGivenNames v1
      try clear_value v1
      refine SomeSound2.some' ?_
      split
      · exact State.canReadRam_sound hs
      · try dsimp -zeta only
        exact hs
    · exact SomeSound2.none

theorem State.viewTaken_sound {q : List Instr} {s : State} {a : ℕ} (hs : Sound q s) :
    Sound q (State.viewTaken s a) := by
  unfold State.viewTaken
  refine Sound.ite ?_ ?_
  · exact State.taken_sound hs
  · exact hs

theorem State.regRead_sound {q : List Instr} {s : State} {m : ℕ} {a : ℕ} (hs : Sound q s) :
    Sound q (State.regRead s m a) := by
  unfold State.regRead
  refine Sound.ite ?_ ?_
  · exact State.freezeRead_sound hs
  · refine Sound.ite ?_ ?_
    · exact State.oldestRead_sound hs
    · split
      · rename_i p1 p2 e3
        have hp2 : Sound q p2 := by
          refine Sound.ofSnd e3 ?_
          refine SomeSound2.getD ?_ ?_
          · exact State.ramView_sound hs
          · try dsimp -zeta only
            exact State.viewTaken_sound hs
        extract_lets -merge -useContext +onlyGivenNames v4 v5
        have hv4 : Sound q v4 := by
          unfold v4
          refine State.clearRc_sound ?_
          exact State.latch_sound hp2
        try clear_value v4
        have hv5 : Sound q v5 := by
          unfold v5
          split
          · exact State.wr_sound hv4
          · exact hv4
        try clear_value v5
        exact Sound.upd hv5

theorem execReadClear_sound {q : List Instr} {m : ℕ} {a : ℕ} {s : State} (hs : Sound q s) :
    NextSound q (execReadClear m a s) := by
  unfold execReadClear
  refine onUnit_sound ?_
  exact State.regRead_sound hs

theorem execLatchingRead_sound {q : List Instr} {m : ℕ} {a : ℕ} {s : State} (hs : Sound q s) :
    NextSound q (execLatchingRead m a s) := by
  unfold execLatchingRead
  refine onUnit_sound ?_
  exact State.regRead_sound hs

theorem execAddrDataRead_sound {q : List Instr} {m : ℕ} {a : ℕ} {s : State} (hs : Sound q s) :
    NextSound q (execAddrDataRead m a s) := by
  unfold execAddrDataRead
  refine onUnit_sound ?_
  exact State.regRead_sound hs

theorem execBlockModeWrite_sound {q : List Instr} {b : AsnBlock} {ring : Bool} {v : Word} {s : State} (hs : Sound q s) :
    NextSound q (execBlockModeWrite b ring v s) := by
  unfold execBlockModeWrite
  refine NextSound.next ?_
  exact State.modeWrite_sound hs

end Sys2Proof.Machine
end

