-- ==== Sys2Proof/Laws/SoundUpdOps.lean ====
section
/-!
SUPPORT. Every operation of Machine/UpdOps.lean keeps the queue and the canonical forms of memory and registers.
-/

namespace Sys2Proof.Machine

theorem State.unlist_sound {q : List Instr} {s : State} {a : ℕ} {n : ℕ} (hs : Sound q s) :
    Sound q (State.unlist s a n) :=
  ⟨hs.queue, SMap.wf_filter hs.mem, hs.regs⟩

theorem State.showBoot_sound {q : List Instr} {s : State} {r : BootRec} (hs : Sound q s) :
    Sound q (State.showBoot s r) := by
  unfold State.showBoot
  extract_lets -merge -useContext +onlyGivenNames v1
  have hv1 : Sound q v1 := by
    unfold v1
    refine State.wr_sound ?_
    refine State.wr_sound ?_
    exact State.wr_sound hs
  try clear_value v1
  refine State.wr_sound ?_
  refine State.wrb_sound ?_
  exact State.wrb_sound hv1

theorem State.putBoot_sound {q : List Instr} {s : State} {r : BootRec} (hs : Sound q s) :
    Sound q (State.putBoot s r) := by
  unfold State.putBoot
  extract_lets -merge -useContext +onlyGivenNames v1 v2
  try clear_value v1
  have hv2 : Sound q v2 := by
    unfold v2
    exact TwoCopy.rewrite_sound hs
  try clear_value v2
  exact State.showBoot_sound hv2

theorem State.placeSigner_sound {q : List Instr} {s : State} {signer : List Byte} (hs : Sound q s) :
    Sound q (State.placeSigner s signer) := by
  unfold State.placeSigner
  extract_lets -merge -useContext +onlyGivenNames v1 v2
  try clear_value v1
  try clear_value v2
  split
  · exact State.setKslot_sound hs
  · exact hs

theorem State.putMem_sound {q : List Instr} {s : State} {x1 : ℕ × ℕ × List Byte} (hs : Sound q s) :
    Sound q (State.putMem s x1) := by
  unfold State.putMem
  split
  · split
    · refine State.each_sound hs ?_
      intro a1 a2 ha1
      split
      · refine State.cfgWrite_sound ?_
        exact State.wr_sound ha1
    · refine Sound.ite ?_ ?_
      · exact State.write_sound hs
      · exact hs

theorem State.showVersions_sound {q : List Instr} {s : State} (hs : Sound q s) :
    Sound q (State.showVersions s) := by
  unfold State.showVersions
  extract_lets -merge -useContext +onlyGivenNames v1
  try clear_value v1
  refine State.wr64_sound ?_
  exact State.wr64_sound hs

theorem State.setSlot_sound {q : List Instr} {s : State} {k : ℕ} {st : ℕ} (hs : Sound q s) :
    Sound q (State.setSlot s k st) := by
  unfold State.setSlot
  extract_lets -merge -useContext +onlyGivenNames v1 v2 v3
  have hv1 : Sound q v1 := by
    unfold v1
    exact State.wr_sound hs
  try clear_value v1
  try clear_value v2
  have hv3 : Sound q v3 := by
    unfold v3
    refine Sound.ite ?_ ?_
    · exact hv1
    · exact State.putBoot_sound hv1
  try clear_value v3
  exact State.showVersions_sound hv3

theorem State.verified_sound {q : List Instr} {s : State} {k : ℕ} {r : ℕ} (hs : Sound q s) :
    Sound q (State.verified s k r) := by
  unfold State.verified
  extract_lets -merge -useContext +onlyGivenNames v1
  have hv1 : Sound q v1 := by
    unfold v1
    exact State.wr_sound hs
  try clear_value v1
  refine Sound.ite ?_ ?_
  · refine State.event_sound ?_
    refine State.setBytes32_sound ?_
    exact State.setSlot_sound hv1
  · refine State.event_sound ?_
    exact State.setSlot_sound hv1

theorem State.verifySlot_sound {q : List Instr} {s : State} {k : ℕ} (hs : Sound q s) :
    Sound q ((State.verifySlot s k)).2 := by
  unfold State.verifySlot
  extract_lets -merge -useContext +onlyGivenNames v1 v2 v3 v4 v5
  have hv1 : Sound q v1 := by
    unfold v1
    exact State.bump_sound hs
  try clear_value v1
  try clear_value v2
  try clear_value v3
  have hv4 : Sound q v4 := by
    unfold v4
    refine Sound.ite ?_ ?_
    · exact State.placeSigner_sound hv1
    · exact hv1
  try clear_value v4
  try clear_value v5
  try dsimp -zeta only
  exact State.verified_sound hv4

theorem State.bulkAnswer_sound {q : List Instr} {s : State} {dst : ℕ} {x2 : BulkMsg} (hs : Sound q s) :
    Sound q (State.bulkAnswer s dst x2) := by
  unfold State.bulkAnswer
  extract_lets -merge -useContext +onlyGivenNames v1 v2
  try clear_value v1
  have hv2 : Sound q v2 := by
    unfold v2
    exact Sound.upd hs
  try clear_value v2
  exact State.leatSend_sound hv2

theorem State.endXfer_sound {q : List Instr} {s : State} (hs : Sound q s) :
    Sound q (State.endXfer s) := by
  unfold State.endXfer
  extract_lets -merge -useContext +onlyGivenNames v1 v2
  try clear_value v1
  have hv2 : Sound q v2 := by
    unfold v2
    exact Sound.upd hs
  try clear_value v2
  refine State.raise_sound ?_
  exact State.clear_sound hv2

theorem State.dropXfer_sound {q : List Instr} {s : State} {x1 : UpdXfer} {st : ℕ} {code : Option ℕ} (hs : Sound q s) :
    Sound q (State.dropXfer s x1 st code) := by
  unfold State.dropXfer
  extract_lets -merge -useContext +onlyGivenNames v1 v2 v3 v4
  have hv1 : Sound q v1 := by
    unfold v1
    split
    · refine State.wr_sound ?_
      exact State.bulkAnswer_sound hs
    · exact hs
  try clear_value v1
  try clear_value v2
  have hv3 : Sound q v3 := by
    unfold v3
    exact Sound.upd hv1
  try clear_value v3
  have hv4 : Sound q v4 := by
    unfold v4
    refine Sound.ite ?_ ?_
    · exact State.event_sound hv3
    · exact hv3
  try clear_value v4
  refine State.endXfer_sound ?_
  refine State.clear_sound ?_
  exact State.setSlot_sound hv4

theorem State.updFail_sound {q : List Instr} {s : State} {cause : ℕ} (hs : Sound q s) :
    Sound q (State.updFail s cause) := by
  unfold State.updFail
  refine State.raise_sound ?_
  exact State.toFault_sound hs

theorem State.startVerify_sound {q : List Instr} {s : State} {k : ℕ} (hs : Sound q s) :
    Sound q (State.startVerify s k) := by
  unfold State.startVerify
  extract_lets -merge -useContext +onlyGivenNames v1 v2
  have hv1 : Sound q v1 := by
    unfold v1
    exact State.setSlot_sound hs
  try clear_value v1
  try clear_value v2
  exact Sound.upd hv1

theorem State.blockDone_sound {q : List Instr} {s : State} {x1 : UpdXfer} {data : List Byte} (hs : Sound q s) :
    Sound q (State.blockDone s x1 data) := by
  unfold State.blockDone
  extract_lets -merge -useContext +onlyGivenNames v1 v2 v3 v4 v5 v6
  have hv1 : Sound q v1 := by
    unfold v1
    exact State.putBytes_sound hs
  try clear_value v1
  try clear_value v2
  try clear_value v3
  have hv4 : Sound q v4 := by
    unfold v4
    exact Sound.upd hv1
  try clear_value v4
  have hv5 : Sound q v5 := by
    unfold v5
    refine State.bulkAnswer_sound ?_
    exact State.wr_sound hv4
  try clear_value v5
  try clear_value v6
  refine Sound.ite ?_ ?_
  · exact State.dropXfer_sound hv5
  · refine Sound.ite ?_ ?_
    · exact State.startVerify_sound hv5
    · exact hv5

theorem State.updDone_sound {q : List Instr} {s : State} {res : ℕ} (hs : Sound q s) :
    Sound q (State.updDone s res) := by
  unfold State.updDone
  extract_lets -merge -useContext +onlyGivenNames v1 v2
  try clear_value v1
  have hv2 : Sound q v2 := by
    unfold v2
    exact Sound.upd hs
  try clear_value v2
  refine State.raise_sound ?_
  refine State.clear_sound ?_
  exact State.wr_sound hv2

theorem State.updCmd_sound {q : List Instr} {s : State} {op : ℕ} {slot : ℕ} {ok : Bool} {run : State → State} (hs : Sound q s) (hrun : ∀ x0, Sound q x0 → Sound q (run x0)) :
    Sound q (State.updCmd s op slot ok run) := by
  unfold State.updCmd
  refine Sound.ite ?_ ?_
  · exact hs
  · extract_lets -merge -useContext +onlyGivenNames v1
    have hv1 : Sound q v1 := by
      unfold v1
      refine State.wr_sound ?_
      exact State.wr_sound hs
    try clear_value v1
    refine Sound.ite ?_ ?_
    · refine hrun _ ?_
      exact State.raise_sound hv1
    · exact State.updDone_sound hv1

theorem State.stagePart_sound {q : List Instr} {s : State} {k : ℕ} {p : Part} (hs : Sound q s) :
    Sound q (State.stagePart s k p) := by
  unfold State.stagePart
  extract_lets -merge -useContext +onlyGivenNames v1 v2
  try clear_value v1
  have hv2 : Sound q v2 := by
    unfold v2
    exact State.write_sound hs
  try clear_value v2
  exact State.setBit_sound hv2

theorem State.stageLists_sound {q : List Instr} {s : State} {k : ℕ} {bank : ℕ} (hs : Sound q s) :
    Sound q (State.stageLists s k bank) := by
  unfold State.stageLists
  extract_lets -merge -useContext +onlyGivenNames v1
  try clear_value v1
  refine State.each_sound hs ?_
  intro a2 a3 ha2
  split
  · refine State.each_sound ha2 ?_
    intro a4 a5 ha4
    split
    · refine Sound.ite ?_ ?_
      · refine State.imgMdata_sound ?_
        exact State.wr_sound ha4
      · exact ha4

theorem State.stageDone_sound {q : List Instr} {s : State} {k : ℕ} (hs : Sound q s) :
    Sound q (State.stageDone s k) := by
  unfold State.stageDone
  extract_lets -merge -useContext +onlyGivenNames v1 v2 v3 v4 v5 v6 v7 v8
  try clear_value v1
  try clear_value v2
  have hv3 : Sound q v3 := by
    unfold v3
    refine State.each_sound hs ?_
    intro a9 a10 ha9
    exact State.stagePart_sound ha9
  try clear_value v3
  try clear_value v4
  have hv5 : Sound q v5 := by
    unfold v5
    refine State.pinScan_sound ?_
    refine State.wr_sound ?_
    exact State.stageLists_sound hv3
  try clear_value v5
  have hv6 : Sound q v6 := by
    unfold v6
    exact State.keyEffect_sound hv5
  try clear_value v6
  try clear_value v7
  have hv8 : Sound q v8 := by
    unfold v8
    exact Sound.upd hv6
  try clear_value v8
  refine Sound.ite ?_ ?_
  · exact State.updDone_sound hs
  · refine Sound.ite ?_ ?_
    · refine State.updDone_sound ?_
      refine State.event_sound ?_
      refine State.setSlot_sound ?_
      exact State.wr_sound hs
    · refine State.updDone_sound ?_
      refine State.event_sound ?_
      exact State.wr_sound hv8

theorem State.migrate_sound {q : List Instr} {s : State} {k : ℕ} (hs : Sound q s) :
    Sound q (State.migrate s k) := by
  unfold State.migrate
  extract_lets -merge -useContext +onlyGivenNames v1 v2 v3
  try clear_value v1
  try clear_value v2
  try clear_value v3
  exact State.write_sound hs

theorem State.placeMigrated_sound {q : List Instr} {s : State} {k : ℕ} (hs : Sound q s) :
    Sound q (State.placeMigrated s k) := by
  unfold State.placeMigrated
  refine foldl_keep (P := fun (x : ℕ × State) => Sound q (x).2) ?_ ?_
  · intro a1 a2 ha1
    beta_reduce at *
    split
    · try dsimp -zeta only
      exact State.write_sound ha1
  · try dsimp -zeta only
    exact hs

theorem State.rangesChanged_sound {q : List Instr} {s : State} {old : State} (hs : Sound q s) (hold : Sound q old) :
    Sound q (State.rangesChanged s old) := by
  unfold State.rangesChanged
  extract_lets -merge -useContext +onlyGivenNames v1
  try clear_value v1
  refine State.each_sound hs ?_
  intro a2 a3 ha2
  extract_lets -merge -useContext +onlyGivenNames v4 v5
  try clear_value v4
  try clear_value v5
  refine Sound.ite ?_ ?_
  · exact ha2
  · refine Sound.ite ?_ ?_
    · refine State.sendSub_sound ?_
      exact State.setRange_sound ha2
    · exact State.setRange_sound ha2

theorem State.loopRecord_sound {q : List Instr} {s : State} {n : ℕ} {words : List (ℕ × Word)} (hs : Sound q s) :
    Sound q (State.loopRecord s n words) := by
  unfold State.loopRecord
  extract_lets -merge -useContext +onlyGivenNames v1 v2 v3 v4 v5
  try clear_value v1
  try clear_value v2
  try clear_value v3
  try clear_value v4
  have hv5 : Sound q v5 := by
    unfold v5
    refine Sound.ite ?_ ?_
    · refine foldl_keep (P := fun (x : State) => Sound q x) ?_ ?_
      · intro a6 a7 ha6
        beta_reduce at *
        split
        · exact State.loopWrite_sound ha6
      · exact State.loopCtrl_sound hs
    · exact hs
  try clear_value v5
  refine Sound.ite ?_ ?_
  · exact State.loopCtrl_sound hs
  · refine State.loopCtrl_sound ?_
    refine foldl_keep (P := fun (x : State) => Sound q x) ?_ ?_
    · intro a8 a9 ha8
      beta_reduce at *
      split
      · exact State.loopWrite_sound ha8
    · exact hv5

theorem State.loopsChanged_sound {q : List Instr} {s : State} {mems : List (ℕ × ℕ × List Byte)} (hs : Sound q s) :
    Sound q (State.loopsChanged s mems) := by
  unfold State.loopsChanged
  extract_lets -merge -useContext +onlyGivenNames v1
  try clear_value v1
  refine State.each_sound hs ?_
  intro a2 a3 ha2
  exact State.loopRecord_sound ha2

theorem State.tablesChanged_sound {q : List Instr} {s : State} {ownBefore : ℕ} {mems : List (ℕ × ℕ × List Byte)} (hs : Sound q s) :
    Sound q (State.tablesChanged s ownBefore mems) := by
  unfold State.tablesChanged
  extract_lets -merge -useContext +onlyGivenNames v1 v2 v3 v4 v5
  have hv1 : Sound q v1 := by
    unfold v1
    exact hs
  try clear_value v1
  have hv2 : Sound q v2 := by
    unfold v2
    refine State.each_sound hs ?_
    intro a6 a7 ha6
    exact State.putMem_sound ha6
  try clear_value v2
  have hv3 : Sound q v3 := by
    unfold v3
    exact State.rangesChanged_sound hv2 hv1
  try clear_value v3
  have hv4 : Sound q v4 := by
    unfold v4
    refine State.each_sound hv3 ?_
    intro a8 a9 ha8
    split
    · refine State.each_sound ha8 ?_
      intro a10 a11 ha10
      split
      · extract_lets -merge -useContext +onlyGivenNames v12
        try clear_value v12
        refine Sound.ite ?_ ?_
        · exact State.write_sound ha10
        · exact ha10
  try clear_value v4
  have hv5 : Sound q v5 := by
    unfold v5
    refine State.each_sound hv4 ?_
    intro a13 a14 ha13
    exact State.initRecord_sound ha13
  try clear_value v5
  refine State.each_sound hv5 ?_
  intro a15 a16 ha15
  split
  · refine State.each_sound ha15 ?_
    intro a17 a18 ha17
    split
    · extract_lets -merge -useContext +onlyGivenNames v19
      try clear_value v19
      refine Sound.ite ?_ ?_
      · refine State.loopMdata_sound ?_
        exact State.wr_sound ha17
      · refine Sound.ite ?_ ?_
        · refine State.mtrMdata_sound ?_
          exact State.wr_sound ha17
        · exact ha17

theorem State.commitPhase_sound {q : List Instr} {s : State} {k : ℕ} (hs : Sound q s) :
    Sound q (State.commitPhase s k) := by
  unfold State.commitPhase
  extract_lets -merge -useContext +onlyGivenNames v1 v2 v3 v4 v5 v6 v7 v8 v9 v10
  have hv1 : Sound q v1 := by
    unfold v1
    exact State.wr_sound hs
  try clear_value v1
  have hv2 : Sound q v2 := by
    unfold v2
    exact State.wr_sound hv1
  try clear_value v2
  try clear_value v3
  have hv4 : Sound q v4 := by
    unfold v4
    exact State.putBoot_sound hv2
  try clear_value v4
  have hv5 : Sound q v5 := by
    unfold v5
    exact State.placeMigrated_sound hv4
  try clear_value v5
  try clear_value v6
  try clear_value v7
  try clear_value v8
  have hv9 : Sound q v9 := by
    unfold v9
    refine State.each_sound hv5 ?_
    intro a11 a12 ha11
    split
    · exact State.cfgWrite_sound ha11
  try clear_value v9
  have hv10 : Sound q v10 := by
    unfold v10
    refine State.loopsChanged_sound ?_
    exact State.tablesChanged_sound hv9
  try clear_value v10
  refine Sound.ite ?_ ?_
  · exact State.keyEffect_sound hv10
  · exact hv10

theorem State.updAbort_sound {q : List Instr} {s : State} (hs : Sound q s) :
    Sound q (State.updAbort s) := by
  unfold State.updAbort
  extract_lets -merge -useContext +onlyGivenNames v1 v2 v3 v4 v5
  have hv1 : Sound q v1 := by
    unfold v1
    exact State.unstageBays_sound hs
  try clear_value v1
  try clear_value v2
  have hv3 : Sound q v3 := by
    unfold v3
    exact Sound.upd hv1
  try clear_value v3
  have hv4 : Sound q v4 := by
    unfold v4
    refine Sound.ite ?_ ?_
    · exact State.endHold_sound hv3
    · exact hv3
  try clear_value v4
  have hv5 : Sound q v5 := by
    unfold v5
    refine State.bump_sound ?_
    refine State.raise_sound ?_
    exact State.wr_sound hv4
  try clear_value v5
  exact State.event_sound hv5

theorem State.switchGo_sound {q : List Instr} {s : State} (hs : Sound q s) :
    Sound q (State.switchGo s) := by
  unfold State.switchGo
  refine Sound.ite ?_ ?_
  · exact State.raise_sound hs
  · extract_lets -merge -useContext +onlyGivenNames v1 v2 v3 v4 v5 v6 v7 v8 v9 v10 v11 v12 v13 v14 v15
    try clear_value v1
    try clear_value v2
    have hv3 : Sound q v3 := by
      unfold v3
      refine State.wr_sound ?_
      exact State.wr_sound hs
    try clear_value v3
    have hv4 : Sound q v4 := by
      unfold v4
      refine Sound.ite ?_ ?_
      · refine State.unpin_sound ?_
        exact State.syncMulti_sound hv3
      · exact hv3
    try clear_value v4
    try clear_value v5
    have hv6 : Sound q v6 := by
      unfold v6
      exact Sound.upd hv4
    try clear_value v6
    have hv7 : Sound q v7 := by
      unfold v7
      exact State.wr_sound hv6
    try clear_value v7
    try clear_value v8
    have hv9 : Sound q v9 := by
      unfold v9
      exact State.forcesOnline_sound hv7
    try clear_value v9
    try clear_value v10
    have hv11 : Sound q v11 := by
      unfold v11
      exact Sound.upd hv9
    try clear_value v11
    have hv12 : Sound q v12 := by
      unfold v12
      exact State.wr_sound hv11
    try clear_value v12
    have hv13 : Sound q v13 := by
      unfold v13
      refine State.bump_sound ?_
      refine State.raise_sound ?_
      exact State.showVersions_sound hv12
    try clear_value v13
    have hv14 : Sound q v14 := by
      unfold v14
      refine State.taken_sound ?_
      exact State.event_sound hv13
    try clear_value v14
    have hv15 : Sound q v15 := by
      unfold v15
      refine Sound.ite ?_ ?_
      · exact State.updDone_sound hv14
      · exact hv7
    try clear_value v15
    exact State.endHold_sound hv15

theorem State.updStart_sound {q : List Instr} {s : State} (hs : Sound q s) :
    Sound q (State.updStart s) := by
  unfold State.updStart
  exact State.clear_sound hs

theorem State.updDrain_sound {q : List Instr} {s : State} (hs : Sound q s) :
    Sound q (State.updDrain s) := by
  unfold State.updDrain
  refine Sound.ite ?_ ?_
  · exact State.raise_sound hs
  · exact hs

end Sys2Proof.Machine
end

