-- ==== Sys2Proof/Laws/SoundUnits.lean ====
section
/-!
SUPPORT. Every operation of Machine/Units.lean keeps the queue and the canonical forms of memory and registers.
-/

namespace Sys2Proof.Machine

theorem State.unitStart_sound {q : List Instr} {s : State} {u' : UnitId} (hs : Sound q s) :
    Sound q (State.unitStart s u') := by
  unfold State.unitStart
  split
  · exact State.schStart_sound hs
  · exact State.imgStart_sound hs
  · exact hs
  · exact State.hopStart_sound hs
  · exact State.fabStart_sound hs
  · exact State.portStart_sound hs
  · exact State.gateStart_sound hs
  · exact State.loopStart_sound hs
  · exact State.mtrStart_sound hs
  · exact State.canStart_sound hs
  · exact State.memStart_sound hs
  · exact State.keyStart_sound hs
  · exact State.evtStart_sound hs
  · exact hs
  · exact State.updStart_sound hs

theorem State.unitAgain_sound {q : List Instr} {s : State} {u' : UnitId} (hs : Sound q s) :
    Sound q (State.unitAgain s u') := by
  unfold State.unitAgain
  split
  · exact State.stnsBegin_sound hs
  · refine State.schStart_sound ?_
    exact Sound.upd hs
  · refine Sound.ite ?_ ?_
    · exact hs
    · refine State.hopSubscribe_sound ?_
      exact State.scanLost_sound hs
  · exact State.fabAgain_sound hs
  · exact State.portAgain_sound hs
  · exact State.gateStart_sound hs
  · exact State.keyStart_sound hs
  · exact State.updStart_sound hs
  · exact hs

theorem State.unitDrain_sound {q : List Instr} {s : State} {u' : UnitId} (hs : Sound q s) :
    Sound q (State.unitDrain s u') := by
  unfold State.unitDrain
  split
  · exact State.schDrain_sound hs
  · exact State.commitStaged_sound hs
  · exact State.hopDrain_sound hs
  · exact State.fabDrain_sound hs
  · exact State.portStop_sound hs
  · exact State.loopDrain_sound hs
  · refine Sound.ite ?_ ?_
    · exact State.wr_sound hs
    · exact hs
  · exact State.updDrain_sound hs
  · exact hs

theorem State.unitOff_sound {q : List Instr} {s : State} {u' : UnitId} (hs : Sound q s) :
    Sound q (State.unitOff s u') := by
  unfold State.unitOff
  split
  · exact State.schOff_sound hs
  · exact State.imgOff_sound hs
  · refine State.gateResume_sound ?_
    refine State.hopLose_sound ?_
    exact State.hopDrain_sound hs
  · exact State.fabOff_sound hs
  · exact State.portOff_sound hs
  · exact State.gateOff_sound hs
  · exact State.mtrOff_sound hs
  · exact State.evtOff_sound hs
  · exact hs

theorem State.enable_sound {q : List Instr} {s : State} {u' : UnitId} (hs : Sound q s) :
    Sound q (State.enable s u') := by
  unfold State.enable
  extract_lets -merge -useContext +onlyGivenNames v1 v2 v3
  have hv1 : Sound q v1 := by
    unfold v1
    refine State.raise_sound ?_
    exact State.raise_sound hs
  try clear_value v1
  have hv2 : Sound q v2 := by
    unfold v2
    split
    · refine Sound.ite ?_ ?_
      · exact State.raise_sound hv1
      · exact hv1
    · exact hv1
  try clear_value v2
  have hv3 : Sound q v3 := by
    unfold v3
    split
    · refine Sound.ite ?_ ?_
      · exact State.ringStart_sound hv2
      · exact hv2
    · exact hv2
  try clear_value v3
  refine Sound.ite ?_ ?_
  · exact hv1
  · split
    · extract_lets -merge -useContext +onlyGivenNames v4
      have hv4 : Sound q v4 := by
        unfold v4
        exact State.toFault_sound hv2
      try clear_value v4
      refine Sound.ite ?_ ?_
      · exact State.raise_sound hv4
      · exact hv4
    · refine State.unitStart_sound ?_
      exact State.wr_sound hv3

theorem State.disable_sound {q : List Instr} {s : State} {u' : UnitId} (hs : Sound q s) :
    Sound q (State.disable s u') := by
  unfold State.disable
  refine State.disableWith_sound hs ?_ ?_
  · intro a1 ha1
    exact State.unitDrain_sound ha1
  · intro a2 ha2
    exact State.unitOff_sound ha2

theorem State.drainDone_sound {q : List Instr} {s : State} {u' : UnitId} (hs : Sound q s) :
    Sound q (State.drainDone s u') := by
  unfold State.drainDone
  refine Sound.ite ?_ ?_
  · refine Sound.ite ?_ ?_
    · refine State.unitAgain_sound ?_
      exact State.wr_sound hs
    · refine State.unitOff_sound ?_
      exact State.wr_sound hs
  · exact hs

theorem State.unitAbandon_sound {q : List Instr} {s : State} {u' : UnitId} (hs : Sound q s) :
    Sound q (State.unitAbandon s u') := by
  unfold State.unitAbandon
  split
  · exact State.imgXbar_sound hs
  · refine State.commitStaged_sound ?_
    exact State.raise_sound hs
  · refine State.gateResume_sound ?_
    exact State.hopXbar_sound hs
  · exact State.fabXbar_sound hs
  · exact State.gateXbar_sound hs
  · exact State.loopXbar_sound hs
  · exact State.mtrXbar_sound hs
  · exact State.keyXbar_sound hs
  · exact State.evtXbar_sound hs
  · exact Sound.upd hs
  · exact State.raise_sound hs
  · exact hs

theorem State.xbarError_sound {q : List Instr} {s : State} {u' : UnitId} (hs : Sound q s) :
    Sound q (State.xbarError s u') := by
  unfold State.xbarError
  split
  · exact hs
  · refine Sound.ite ?_ ?_
    · refine State.unitAbandon_sound ?_
      exact State.toFault_sound hs
    · exact hs

theorem execBlockEnable_sound {q : List Instr} {u' : UnitId} {s : State} (hs : Sound q s) :
    NextSound q (execBlockEnable u' s) := by
  unfold execBlockEnable
  refine NextSound.next ?_
  exact State.enable_sound hs

theorem execBlockDisable_sound {q : List Instr} {u' : UnitId} {s : State} (hs : Sound q s) :
    NextSound q (execBlockDisable u' s) := by
  unfold execBlockDisable
  refine NextSound.next ?_
  exact State.disable_sound hs

theorem execDrainUnitComplete_sound {q : List Instr} {u' : UnitId} {s : State} (hs : Sound q s) :
    NextSound q (execDrainUnitComplete u' s) := by
  unfold execDrainUnitComplete
  refine NextSound.next ?_
  exact State.drainDone_sound hs

theorem execEngineCrossbarError_sound {q : List Instr} {u' : UnitId} {s : State} (hs : Sound q s) :
    NextSound q (execEngineCrossbarError u' s) := by
  unfold execEngineCrossbarError
  refine NextSound.next ?_
  refine State.atHeld_sound ?_
  exact State.xbarError_sound hs

end Sys2Proof.Machine
end

