-- ==== Sys2Proof/Laws/SoundPair.lean ====
section
/-!
SUPPORT. Every operation of Machine/Pair.lean keeps the queue and the canonical forms of memory and registers.
-/

namespace Sys2Proof.Machine

theorem State.restoreRet_sound {q : List Instr} {s : State} {t : ℕ} (hs : Sound q s) :
    Sound q (State.restoreRet s t) := by
  unfold State.restoreRet
  refine Sound.ite ?_ ?_
  · exact hs
  · split
    · exact State.write_sound hs
    · exact hs

theorem State.pincUp_sound {q : List Instr} {s : State} (hs : Sound q s) :
    Sound q (State.pincUp s) := by
  unfold State.pincUp
  extract_lets -merge -useContext +onlyGivenNames v1 v2
  try clear_value v1
  try clear_value v2
  refine State.wr_sound ?_
  exact State.putIdentRec_sound hs

theorem State.takeOver_sound {q : List Instr} {s : State} (hs : Sound q s) :
    Sound q ((State.takeOver s)).2 := by
  unfold State.takeOver
  extract_lets -merge -useContext +onlyGivenNames v1 v2 v3 v4 v5 v6 v7 v8 v9 v10 v11 v12 v13
  try clear_value v1
  have hv2 : Sound q v2 := by
    unfold v2
    exact Sound.upd hs
  try clear_value v2
  have hv3 : Sound q (v3).2 := by
    unfold v3
    split
    · try dsimp -zeta only
      exact hv2
    · exact State.claim_sound hv2
  try clear_value v3
  have hv4 : Sound q v4 := by
    unfold v4
    refine Sound.ite ?_ ?_
    · refine State.each_sound hv3 ?_
      intro a14 a15 ha14
      exact State.freeSess_sound ha14
    · exact hv3
  try clear_value v4
  have hv5 : Sound q v5 := by
    unfold v5
    refine State.clear_sound ?_
    refine State.clear_sound ?_
    exact State.setRole_sound hv4
  try clear_value v5
  have hv6 : Sound q v6 := by
    unfold v6
    refine State.pincUp_sound ?_
    exact State.openGate_sound hv5
  try clear_value v6
  have hv7 : Sound q v7 := by
    unfold v7
    refine State.each_sound hv6 ?_
    intro a16 a17 ha16
    exact State.pushRange_sound ha16
  try clear_value v7
  have hv8 : Sound q v8 := by
    unfold v8
    refine State.each_sound ?_ ?_
    · exact State.aliasLsa_sound hv7
    · intro a18 a19 ha18
      exact State.restoreRet_sound ha18
  try clear_value v8
  have hv9 : Sound q v9 := by
    unfold v9
    refine State.each_sound hv8 ?_
    intro a20 a21 ha20
    exact State.markMirrors_sound ha20
  try clear_value v9
  have hv10 : Sound q v10 := by
    unfold v10
    refine State.outEnable_sound ?_
    refine State.enable_sound ?_
    exact State.enable_sound hv9
  try clear_value v10
  have hv11 : Sound q v11 := by
    unfold v11
    exact State.outEnable_sound hv10
  try clear_value v11
  try clear_value v12
  try clear_value v13
  split
  · try dsimp -zeta only
    exact hv4
  · split
    · try dsimp -zeta only
      refine State.clear_sound ?_
      refine State.clear_sound ?_
      exact State.setRole_sound hv4
    · try dsimp -zeta only
      exact Sound.upd hv11

theorem State.standbyTakesOver_sound {q : List Instr} {s : State} (hs : Sound q s) :
    Sound q (State.standbyTakesOver s) := by
  unfold State.standbyTakesOver
  extract_lets -merge -useContext +onlyGivenNames v1 v2
  have hv1 : Sound q (v1).2 := by
    unfold v1
    exact State.takeOver_sound hs
  try clear_value v1
  have hv2 : Sound q v2 := by
    unfold v2
    refine State.bump_sound ?_
    exact State.raise_sound hv1
  try clear_value v2
  refine Sound.ite ?_ ?_
  · exact hv1
  · refine State.taken_sound ?_
    exact State.pairEvent_sound hv2

theorem State.sendBase_sound {q : List Instr} {s : State} (hs : Sound q s) :
    Sound q (State.sendBase s) := by
  unfold State.sendBase
  split
  · exact hs
  · extract_lets -merge -useContext +onlyGivenNames v1 v2
    try clear_value v1
    have hv2 : Sound q v2 := by
      unfold v2
      exact Sound.upd hs
    try clear_value v2
    split
    · split
      · rename_i p3 p4 p5 e6
        have hp5 : Sound q p5 := by
          refine Sound.ofSnd2 e6 ?_
          exact State.ptItems_sound hv2
        exact State.queueBatch_sound hp5
    · exact State.queueBatch_sound hv2
    · split
      · exact State.queueBatch_sound hv2
    · exact State.queueBatch_sound hv2
    · exact State.queueBatch_sound hv2
    · exact State.queueBatch_sound hv2

theorem State.startBase_sound {q : List Instr} {s : State} (hs : Sound q s) :
    Sound q (State.startBase s) := by
  unfold State.startBase
  extract_lets -merge -useContext +onlyGivenNames v1 v2
  try clear_value v1
  try clear_value v2
  refine Sound.ite ?_ ?_
  · exact hs
  · refine State.raise_sound ?_
    exact Sound.upd hs

theorem State.mirrorSend_sound {q : List Instr} {s : State} (hs : Sound q s) :
    Sound q (State.mirrorSend s) := by
  unfold State.mirrorSend
  refine Sound.ite ?_ ?_
  · exact hs
  · refine Sound.ite ?_ ?_
    · refine State.sendQueued_sound ?_
      exact State.sendBase_sound hs
    · exact State.sendQueued_sound hs

theorem State.p4Keyx_sound {q : List Instr} {s : State} {msg : ℕ} {an : ℕ} {peerNonce : BitVec 128} (hs : Sound q s) :
    Sound q (State.p4Keyx s msg an peerNonce) := by
  unfold State.p4Keyx
  refine Sound.ite ?_ ?_
  · exact hs
  · extract_lets -merge -useContext +onlyGivenNames v1 v2
    try clear_value v1
    try clear_value v2
    exact State.p4Put_sound hs

theorem State.p4Offer_sound {q : List Instr} {s : State} (hs : Sound q s) :
    Sound q (State.p4Offer s) := by
  unfold State.p4Offer
  extract_lets -merge -useContext +onlyGivenNames v1 v2 v3
  try clear_value v1
  have hv2 : Sound q v2 := by
    unfold v2
    refine Sound.ite ?_ ?_
    · exact State.newNonce_sound hs
    · exact hs
  try clear_value v2
  try clear_value v3
  refine Sound.ite ?_ ?_
  · exact hs
  · refine State.p4Keyx_sound ?_
    exact State.setPort_sound hv2

theorem State.p4KeyFail_sound {q : List Instr} {s : State} (hs : Sound q s) :
    Sound q (State.p4KeyFail s) := by
  unfold State.p4KeyFail
  refine Sound.ite ?_ ?_
  · refine State.raise_sound ?_
    exact State.setPort_sound hs
  · exact hs

theorem State.p4KeyxIn_sound {q : List Instr} {s : State} {f : Leat} (hs : Sound q s) :
    Sound q (State.p4KeyxIn s f) := by
  unfold State.p4KeyxIn
  extract_lets -merge -useContext +onlyGivenNames v1 v2 v3 v4 v5 v6 v7 v8 v9 v10
  try clear_value v1
  try clear_value v2
  try clear_value v3
  try clear_value v4
  try clear_value v5
  have hv6 : Sound q v6 := by
    unfold v6
    exact State.setPort_sound hs
  try clear_value v6
  have hv7 : Sound q v7 := by
    unfold v7
    refine Sound.ite ?_ ?_
    · exact hv6
    · exact State.newNonce_sound hv6
  try clear_value v7
  try clear_value v8
  try clear_value v9
  try clear_value v10
  refine Sound.ite ?_ ?_
  · exact hs
  · refine Sound.ite ?_ ?_
    · exact State.p4KeyFail_sound hs
    · refine Sound.ite ?_ ?_
      · refine State.p4Keyx_sound ?_
        exact State.setPort_sound hv7
      · refine Sound.ite ?_ ?_
        · exact State.setPort_sound hv7
        · exact hv7

theorem State.p4LinkUp_sound {q : List Instr} {s : State} (hs : Sound q s) :
    Sound q (State.p4LinkUp s) := by
  unfold State.p4LinkUp
  exact Sound.upd hs

theorem State.p4LinkDown_sound {q : List Instr} {s : State} (hs : Sound q s) :
    Sound q (State.p4LinkDown s) := by
  unfold State.p4LinkDown
  refine State.setPort_sound ?_
  exact Sound.upd hs

theorem execLinkUp_sound {q : List Instr} {p : ℕ} {speed : ℕ} {s : State} (hs : Sound q s) :
    NextSound q (execLinkUp p speed s) := by
  unfold execLinkUp
  refine onUnit_sound ?_
  refine Sound.ite ?_ ?_
  · exact State.p4LinkUp_sound hs
  · exact State.linkUp_sound hs

theorem execLinkDown_sound {q : List Instr} {p : ℕ} {s : State} (hs : Sound q s) :
    NextSound q (execLinkDown p s) := by
  unfold execLinkDown
  refine onUnit_sound ?_
  refine Sound.ite ?_ ?_
  · exact State.p4LinkDown_sound hs
  · exact State.linkDown_sound hs

theorem State.p4Receive_sound {q : List Instr} {s : State} {f : Leat} (hs : Sound q s) :
    Sound q (State.p4Receive s f) := by
  unfold State.p4Receive
  refine Sound.ite ?_ ?_
  · exact hs
  · refine Sound.ite ?_ ?_
    · exact State.bump_sound hs
    · refine Sound.ite ?_ ?_
      · exact State.p4KeyxIn_sound hs
      · refine Sound.ite ?_ ?_
        · exact Sound.upd hs
        · exact State.bump_sound hs

theorem State.takePair_sound {q : List Instr} {s : State} {onP4 : Bool} {typ : ℕ} {src : ℕ} {payload : List Byte} (hs : Sound q s) :
    Sound q (State.takePair s onP4 typ src payload) := by
  unfold State.takePair
  refine Sound.ite ?_ ?_
  · split
    · exact Sound.upd hs
    · exact hs
  · exact State.takeInbox_sound hs

theorem State.fantailBeat_sound {q : List Instr} {s : State} (hs : Sound q s) :
    Sound q (State.fantailBeat s) := by
  unfold State.fantailBeat
  refine Sound.ite ?_ ?_
  · exact hs
  · refine State.sendFantail_sound ?_
    refine State.p4Offer_sound ?_
    exact State.advance_sound hs

theorem State.noteFantail_sound {q : List Instr} {s : State} {onP4 : Bool} {f : Fantail} (hs : Sound q s) :
    Sound q (State.noteFantail s onP4 f) := by
  unfold State.noteFantail
  extract_lets -merge -useContext +onlyGivenNames v1 v2 v3 v4 v5 v6 v7 v8 v9 v10
  have hv1 : Sound q v1 := by
    unfold v1
    exact State.bump_sound hs
  try clear_value v1
  have hv2 : Sound q v2 := by
    unfold v2
    refine State.wr_sound ?_
    exact State.wr_sound hv1
  try clear_value v2
  try clear_value v3
  try clear_value v4
  try clear_value v5
  have hv6 : Sound q v6 := by
    unfold v6
    exact Sound.upd hv2
  try clear_value v6
  have hv7 : Sound q v7 := by
    unfold v7
    exact State.raise_sound hv6
  try clear_value v7
  try clear_value v8
  have hv9 : Sound q v9 := by
    unfold v9
    refine Sound.ite ?_ ?_
    · refine State.pairEvent_sound ?_
      exact State.raise_sound hv7
    · exact hv7
  try clear_value v9
  have hv10 : Sound q v10 := by
    unfold v10
    exact State.wrb_sound hv9
  try clear_value v10
  refine Sound.ite ?_ ?_
  · exact State.setCfgmis_sound hv10
  · exact State.clear_sound hv10

theorem State.roleFantail_sound {q : List Instr} {s : State} {f : Fantail} (hs : Sound q s) :
    Sound q (State.roleFantail s f) := by
  unfold State.roleFantail
  extract_lets -merge -useContext +onlyGivenNames v1 v2
  try clear_value v1
  have hv2 : Sound q (v2).2 := by
    unfold v2
    exact State.takeOver_sound hs
  try clear_value v2
  refine Sound.ite ?_ ?_
  · refine Sound.ite ?_ ?_
    · refine State.pairEvent_sound ?_
      exact State.toStandby_sound hs
    · refine Sound.ite ?_ ?_
      · refine Sound.ite ?_ ?_
        · refine Sound.ite ?_ ?_
          · exact State.pairEvent_sound hv2
          · exact hv2
        · refine State.pairEvent_sound ?_
          exact State.toStandby_sound hs
      · exact hs
  · refine Sound.ite ?_ ?_
    · refine Sound.ite ?_ ?_
      · exact State.standbyTakesOver_sound hs
      · refine Sound.ite ?_ ?_
        · exact State.needSync_sound hs
        · exact hs
    · refine Sound.ite ?_ ?_
      · refine Sound.ite ?_ ?_
        · refine Sound.ite ?_ ?_
          · exact State.pairDemote_sound hs
          · exact hs
        · refine Sound.ite ?_ ?_
          · exact State.startBase_sound hs
          · exact hs
      · refine Sound.ite ?_ ?_
        · exact State.toStandby_sound hs
        · exact hs

theorem State.fantailIn_sound {q : List Instr} {s : State} {onP4 : Bool} {f : Fantail} (hs : Sound q s) :
    Sound q (State.fantailIn s onP4 f) := by
  unfold State.fantailIn
  extract_lets -merge -useContext +onlyGivenNames v1
  have hv1 : Sound q v1 := by
    unfold v1
    exact State.takePair_sound hs
  try clear_value v1
  refine Sound.ite ?_ ?_
  · exact hv1
  · refine State.roleFantail_sound ?_
    exact State.noteFantail_sound hv1

theorem State.heardNow_sound {q : List Instr} {s : State} {onP4 : Bool} {f : Fantail} (hs : Sound q s) :
    Sound q (State.heardNow s onP4 f) := by
  unfold State.heardNow
  extract_lets -merge -useContext +onlyGivenNames v1 v2 v3
  try clear_value v1
  try clear_value v2
  try clear_value v3
  exact Sound.upd hs

theorem State.lossTimer_sound {q : List Instr} {s : State} {bit : ℕ} {due : Option ℕ} {stops : Bool → Fantail → Bool} {lost : State → State} (hs : Sound q s) (hlost : ∀ x0, Sound q x0 → Sound q (lost x0)) :
    Sound q (State.lossTimer s bit due stops lost) := by
  unfold State.lossTimer
  refine Sound.ite ?_ ?_
  · exact Sound.upd hs
  · split
    · exact hs
    · split
      · refine Sound.ite ?_ ?_
        · refine State.heardNow_sound ?_
          exact State.advance_sound hs
        · refine hlost _ ?_
          exact State.advance_sound hs
      · refine hlost _ ?_
        exact State.advance_sound hs

theorem State.pathLost_sound {q : List Instr} {s : State} {onP4 : Bool} (hs : Sound q s) :
    Sound q (State.pathLost s onP4) := by
  unfold State.pathLost
  refine State.lossTimer_sound hs ?_
  intro a1 ha1
  refine State.pairEvent_sound ?_
  refine State.raise_sound ?_
  exact State.clear_sound ha1

theorem State.partnerLost_sound {q : List Instr} {s : State} (hs : Sound q s) :
    Sound q (State.partnerLost s) := by
  unfold State.partnerLost
  refine State.pairEvent_sound ?_
  refine State.raise_sound ?_
  exact Sound.upd hs

theorem State.partnerSilent_sound {q : List Instr} {s : State} (hs : Sound q s) :
    Sound q (State.partnerSilent s) := by
  unfold State.partnerSilent
  refine State.lossTimer_sound hs ?_
  intro a1 ha1
  refine Sound.ite ?_ ?_
  · exact State.standbyTakesOver_sound ha1
  · exact State.partnerLost_sound ha1

theorem State.electTimeout_sound {q : List Instr} {s : State} (hs : Sound q s) :
    Sound q (State.electTimeout s) := by
  unfold State.electTimeout
  extract_lets -merge -useContext +onlyGivenNames v1 v2
  try clear_value v1
  have hv2 : Sound q (v2).2 := by
    unfold v2
    refine State.takeOver_sound ?_
    exact State.advance_sound hs
  try clear_value v2
  refine Sound.ite ?_ ?_
  · refine Sound.ite ?_ ?_
    · exact State.partnerLost_sound hv2
    · exact hv2
  · refine Sound.ite ?_ ?_
    · refine State.setRole_sound ?_
      exact State.advance_sound hs
    · exact hs

theorem State.mirGap_sound {q : List Instr} {s : State} (hs : Sound q s) :
    Sound q (State.mirGap s) := by
  unfold State.mirGap
  extract_lets -merge -useContext +onlyGivenNames v1 v2
  have hv1 : Sound q v1 := by
    unfold v1
    exact State.needSync_sound hs
  try clear_value v1
  try clear_value v2
  exact Sound.upd hv1

theorem State.mirForce_sound {q : List Instr} {s : State} {f : Force} (hs : Sound q s) :
    Sound q (State.mirForce s f) := by
  unfold State.mirForce
  split
  · exact State.setForce_sound hs
  · split
    · refine Sound.ite ?_ ?_
      · exact State.setForce_sound hs
      · exact hs
    · exact hs

theorem State.mirClear_sound {q : List Instr} {s : State} {key : ℕ} (hs : Sound q s) :
    Sound q (State.mirClear s key) := by
  unfold State.mirClear
  extract_lets -merge -useContext +onlyGivenNames v1
  try clear_value v1
  refine State.each_sound hs ?_
  intro a2 a3 ha2
  exact State.setForce_sound ha2

theorem State.mirOut_sound {q : List Instr} {s : State} {e : ℕ} {b : List Byte} (hs : Sound q s) :
    Sound q (State.mirOut s e b) := by
  unfold State.mirOut
  extract_lets -merge -useContext +onlyGivenNames v1 v2 v3
  try clear_value v1
  try clear_value v2
  try clear_value v3
  exact State.setOutEntry_sound hs

theorem State.mirJournal_sound {q : List Instr} {s : State} {t : ℕ} {items : List MirItem} (hs : Sound q s) :
    Sound q (State.mirJournal s t items) := by
  unfold State.mirJournal
  extract_lets -merge -useContext +onlyGivenNames v1 v2 v3 v4 v5
  try clear_value v1
  try clear_value v2
  try clear_value v3
  try clear_value v4
  try clear_value v5
  refine Sound.ite ?_ ?_
  · exact hs
  · refine State.setImgTask_sound ?_
    exact State.putBytes_sound hs

theorem State.mirItem_sound {q : List Instr} {s : State} {i : MirItem} (hs : Sound q s) :
    Sound q (State.mirItem s i) := by
  unfold State.mirItem
  split
  · refine Sound.ite ?_ ?_
    · exact State.write_sound hs
    · exact hs
  · exact State.mirForce_sound hs
  · exact State.mirClear_sound hs
  · exact hs
  · refine Sound.ite ?_ ?_
    · extract_lets -merge -useContext +onlyGivenNames v1 v2
      have hv1 : Sound q v1 := by
        unfold v1
        refine State.setLstat_sound ?_
        refine State.each_sound hs ?_
        intro a3 a4 ha3
        split
        · exact State.setLw_sound ha3
      try clear_value v1
      try clear_value v2
      exact State.setLoopX_sound hv1
    · exact hs
  · refine Sound.ite ?_ ?_
    · exact State.mirOut_sound hs
    · exact hs
  · exact hs
  · extract_lets -merge -useContext +onlyGivenNames v5 v6 v7
    try clear_value v5
    try clear_value v6
    have hv7 : Sound q v7 := by
      unfold v7
      exact Sound.upd hs
    try clear_value v7
    refine Sound.ite ?_ ?_
    · refine State.pairEvent_sound ?_
      refine State.raise_sound ?_
      refine State.clear_sound ?_
      exact State.raise_sound hv7
    · exact hv7
  · exact hs

theorem State.mirApply_sound {q : List Instr} {s : State} {frames : List MirFrame} (hs : Sound q s) :
    Sound q (State.mirApply s frames) := by
  unfold State.mirApply
  extract_lets -merge -useContext +onlyGivenNames v1 v2 v3 v4 v5 v6
  try clear_value v1
  try clear_value v2
  try clear_value v3
  have hv4 : Sound q v4 := by
    unfold v4
    refine Sound.ite ?_ ?_
    · exact Sound.upd hs
    · exact hs
  try clear_value v4
  try clear_value v5
  have hv6 : Sound q v6 := by
    unfold v6
    refine State.each_sound ?_ ?_
    · refine State.each_sound hv4 ?_
      intro a7 a8 ha7
      exact State.mirJournal_sound ha7
    · intro a9 a10 ha9
      exact State.mirItem_sound ha9
  try clear_value v6
  refine Sound.ite ?_ ?_
  · exact State.mirGap_sound hs
  · refine State.bump_sound ?_
    exact State.wr_sound hv6

theorem State.mirFrame_sound {q : List Instr} {s : State} {f : MirFrame} (hs : Sound q s) :
    Sound q (State.mirFrame s f) := by
  unfold State.mirFrame
  extract_lets -merge -useContext +onlyGivenNames v1 v2 v3 v4 v5
  try clear_value v1
  try clear_value v2
  have hv3 : ∀ x0 x1, Sound q x0 → Sound q (v3 x0 x1) := by
    unfold v3
    intro a6 a7 ha6
    exact Sound.upd ha6
  try clear_value v3
  have hv4 : ∀ x0 x1, Sound q x0 → Sound q (v4 x0 x1) := by
    unfold v4
    intro a8 a9 ha8
    refine Sound.ite ?_ ?_
    · refine State.mirApply_sound ?_
      exact hv3 _ _ ha8
    · exact hv3 _ _ ha8
  try clear_value v4
  have hv5 : Sound q v5 := by
    unfold v5
    refine Sound.ite ?_ ?_
    · exact hs
    · exact State.mirGap_sound hs
  try clear_value v5
  refine Sound.ite ?_ ?_
  · refine State.mirGap_sound ?_
    refine State.setCfgmis_sound ?_
    exact hv3 _ _ hs
  · refine Sound.ite ?_ ?_
    · exact hv4 _ _ hv5
    · refine Sound.ite ?_ ?_
      · exact hv4 _ _ hs
      · refine State.mirGap_sound ?_
        exact hv3 _ _ hs

theorem State.mirrorIn_sound {q : List Instr} {s : State} {f : MirFrame} (hs : Sound q s) :
    Sound q (State.mirrorIn s f) := by
  unfold State.mirrorIn
  extract_lets -merge -useContext +onlyGivenNames v1
  have hv1 : Sound q v1 := by
    unfold v1
    refine State.takePair_sound ?_
    exact State.takePair_sound hs
  try clear_value v1
  refine Sound.ite ?_ ?_
  · exact State.mirFrame_sound hv1
  · exact hv1

theorem State.pairOp_sound {q : List Instr} {s : State} {op : ℕ} (hs : Sound q s) :
    Sound q (State.pairOp s op) := by
  unfold State.pairOp
  exact State.wr_sound hs

theorem State.switchover_sound {q : List Instr} {s : State} (hs : Sound q s) :
    Sound q (State.switchover s) := by
  unfold State.switchover
  extract_lets -merge -useContext +onlyGivenNames v1 v2 v3
  have hv1 : Sound q v1 := by
    unfold v1
    exact State.pairOp_sound hs
  try clear_value v1
  try clear_value v2
  have hv3 : Sound q v3 := by
    unfold v3
    refine State.raise_sound ?_
    exact State.wr64_sound hv1
  try clear_value v3
  refine Sound.ite ?_ ?_
  · exact State.pairDone_sound hv1
  · refine State.atHeld_sound ?_
    refine State.armSwitch_sound ?_
    exact State.raise_sound hv3

theorem execFantailSend_sound {q : List Instr} {s : State} (hs : Sound q s) :
    NextSound q (execFantailSend s) := by
  unfold execFantailSend
  refine NextSound.next ?_
  exact State.fantailBeat_sound hs

theorem execFantailReceived_sound {q : List Instr} {onP4 : Bool} {f : Fantail} {s : State} (hs : Sound q s) :
    NextSound q (execFantailReceived onP4 f s) := by
  unfold execFantailReceived
  refine NextSound.next ?_
  exact State.fantailIn_sound hs

theorem execPathLoss_sound {q : List Instr} {onP4 : Bool} {s : State} (hs : Sound q s) :
    NextSound q (execPathLoss onP4 s) := by
  unfold execPathLoss
  refine NextSound.next ?_
  exact State.pathLost_sound hs

theorem execPartnerLoss_sound {q : List Instr} {s : State} (hs : Sound q s) :
    NextSound q (execPartnerLoss s) := by
  unfold execPartnerLoss
  refine NextSound.next ?_
  exact State.partnerSilent_sound hs

theorem execElectTimeout_sound {q : List Instr} {s : State} (hs : Sound q s) :
    NextSound q (execElectTimeout s) := by
  unfold execElectTimeout
  refine NextSound.next ?_
  exact State.electTimeout_sound hs

theorem execMirrorSend_sound {q : List Instr} {s : State} (hs : Sound q s) :
    NextSound q (execMirrorSend s) := by
  unfold execMirrorSend
  refine NextSound.next ?_
  exact State.mirrorSend_sound hs

theorem execMirrorReceived_sound {q : List Instr} {f : MirFrame} {s : State} (hs : Sound q s) :
    NextSound q (execMirrorReceived f s) := by
  unfold execMirrorReceived
  refine NextSound.next ?_
  exact State.mirrorIn_sound hs

theorem execLoopStateSync_sound {q : List Instr} {s : State} (hs : Sound q s) :
    NextSound q (execLoopStateSync s) := by
  unfold execLoopStateSync
  refine NextSound.next ?_
  refine Sound.ite ?_ ?_
  · exact hs
  · extract_lets -merge -useContext +onlyGivenNames v1 v2
    have hv1 : Sound q v1 := by
      unfold v1
      exact State.advance_sound hs
    try clear_value v1
    try clear_value v2
    refine State.loopSweep_sound ?_
    exact Sound.upd hv1

theorem execP4FrameReceived_sound {q : List Instr} {f : Leat} {s : State} (hs : Sound q s) :
    NextSound q (execP4FrameReceived f s) := by
  unfold execP4FrameReceived
  refine NextSound.next ?_
  exact State.p4Receive_sound hs

theorem execPairSwitchover_sound {q : List Instr} {s : State} (hs : Sound q s) :
    NextSound q (execPairSwitchover s) := by
  unfold execPairSwitchover
  refine NextSound.next ?_
  refine Sound.ite ?_ ?_
  · exact hs
  · exact State.switchover_sound hs

theorem execPairResync_sound {q : List Instr} {s : State} (hs : Sound q s) :
    NextSound q (execPairResync s) := by
  unfold execPairResync
  refine NextSound.next ?_
  refine Sound.ite ?_ ?_
  · exact hs
  · extract_lets -merge -useContext +onlyGivenNames v1
    have hv1 : Sound q v1 := by
      unfold v1
      exact State.pairOp_sound hs
    try clear_value v1
    refine Sound.ite ?_ ?_
    · refine State.pairDone_sound ?_
      exact State.raise_sound hv1
    · exact State.pairDone_sound hv1

theorem execPairDemote_sound {q : List Instr} {s : State} (hs : Sound q s) :
    NextSound q (execPairDemote s) := by
  unfold execPairDemote
  refine NextSound.next ?_
  refine Sound.ite ?_ ?_
  · exact hs
  · extract_lets -merge -useContext +onlyGivenNames v1
    have hv1 : Sound q v1 := by
      unfold v1
      exact State.pairOp_sound hs
    try clear_value v1
    refine Sound.ite ?_ ?_
    · refine State.pairDone_sound ?_
      exact State.pairDemote_sound hv1
    · exact State.pairDone_sound hv1

theorem execEgressReleaseMirror_sound {q : List Instr} {s : State} (hs : Sound q s) :
    NextSound q (execEgressReleaseMirror s) := by
  unfold execEgressReleaseMirror
  refine NextSound.next ?_
  refine State.clear_sound ?_
  exact Sound.upd hs

end Sys2Proof.Machine
end

