-- ==== Sys2Proof/Laws/SoundReset.lean ====
section
/-!
SUPPORT. Every operation of Machine/Reset.lean keeps the queue and the canonical forms of memory and registers.
-/

namespace Sys2Proof.Machine

theorem State.moduleReset_sound {q : List Instr} {s : State} {cause : ℕ} (hs : Sound q s) :
    Sound q (State.moduleReset s cause) := by
  unfold State.moduleReset
  extract_lets -merge -useContext +onlyGivenNames v1 v2 v3 v4 v5 v6 v7 v8 v9
  have hv7 : Sound q v7 := ⟨hs.queue, SMap.wf_filter hs.mem, rfl⟩
  clear_value v7
  have hv8 : Sound q v8 := State.each_sound hv7 fun _ _ h => State.setReg_sound h
  clear_value v8
  have hv9 : Sound q v9 := State.each_sound hv8 fun _ _ h => State.wr_sound h
  clear_value v9
  exact State.wr_sound hv9

end Sys2Proof.Machine
end

