-- ==== Sys2Proof/Laws/SoundPower.lean ====
section
/-!
SUPPORT. Every operation of Machine/Power.lean keeps the queue and the canonical forms of memory and registers.
-/

namespace Sys2Proof.Machine

theorem State.rails_sound {q : List Instr} {s : State} {r : Rails} (hs : Sound q s) :
    Sound q (State.rails s r) := by
  unfold State.rails
  extract_lets -merge -useContext +onlyGivenNames v1 v2
  have hv1 : Sound q v1 := by
    unfold v1
    refine State.wr_sound ?_
    refine State.wr_sound ?_
    exact State.wr_sound hs
  try clear_value v1
  have hv2 : Sound q v2 := by
    unfold v2
    exact State.wrb_sound hv1
  try clear_value v2
  refine Sound.ite ?_ ?_
  · exact State.wr_sound hv2
  · exact hv2

theorem State.vinGood_sound {q : List Instr} {s : State} {r : Rails} (hs : Sound q s) :
    Sound q (State.vinGood s r) := by
  unfold State.vinGood
  extract_lets -merge -useContext +onlyGivenNames v1 v2 v3
  have hv1 : Sound q v1 := by
    unfold v1
    refine State.clear_sound ?_
    refine State.raise_sound ?_
    exact State.clear_sound hs
  try clear_value v1
  have hv2 : Sound q v2 := by
    unfold v2
    exact State.wrb_sound hv1
  try clear_value v2
  try clear_value v3
  split
  · exact hv2
  · exact Sound.upd hv2

theorem State.powerGood_sound {q : List Instr} {s : State} {r : Rails} (hs : Sound q s) :
    Sound q (State.powerGood s r) := by
  have e0 : @State.powerGood = @State.powerGood := rfl
  conv at e0 => rhs; delta State.powerGood
  rw [e0]
  clear e0
  beta_reduce
  extract_lets -merge -useContext +onlyGivenNames v1 v2 v3 v4
  try clear_value v1
  have hv2 : Sound q v2 := by
    unfold v2
    refine State.vinGood_sound ?_
    exact State.rails_sound hs
  try clear_value v2
  have hv3 : Sound q v3 := by
    unfold v3
    exact State.advance_sound hv2
  try clear_value v3
  try clear_value v4
  refine Sound.ite ?_ ?_
  · exact hs
  · exact Sound.upd hv3

theorem execPowerGood_sound {q : List Instr} {r : Rails} {s : State} (hs : Sound q s) :
    NextSound q (execPowerGood r s) := by
  unfold execPowerGood
  refine NextSound.next ?_
  exact State.powerGood_sound hs

theorem execHuCapMeasured_sound {q : List Instr} {uF : ℕ} {s : State} (hs : Sound q s) :
    NextSound q (execHuCapMeasured uF s) := by
  unfold execHuCapMeasured
  refine NextSound.next ?_
  extract_lets -merge -useContext +onlyGivenNames v1
  have hv1 : Sound q v1 := by
    unfold v1
    exact State.wr_sound hs
  try clear_value v1
  refine Sound.ite ?_ ?_
  · refine State.event_sound ?_
    exact State.raise_sound hv1
  · exact hv1

theorem execHuFull_sound {q : List Instr} {s : State} (hs : Sound q s) :
    NextSound q (execHuFull s) := by
  unfold execHuFull
  refine NextSound.next ?_
  exact State.clear_sound hs

theorem execPowerSourceChange_sound {q : List Instr} {x1 : Bool} {poe : Bool} {type2 : Bool} {s : State} (hs : Sound q s) :
    NextSound q (execPowerSourceChange x1 poe type2 s) := by
  unfold execPowerSourceChange
  refine NextSound.next ?_
  extract_lets -merge -useContext +onlyGivenNames v1 v2
  try clear_value v1
  have hv2 : Sound q v2 := by
    unfold v2
    refine State.wrb_sound ?_
    refine State.wrb_sound ?_
    exact State.wrb_sound hs
  try clear_value v2
  refine Sound.ite ?_ ?_
  · refine State.event_sound ?_
    exact State.raise_sound hv2
  · exact hv2

theorem State.brakeBegin_sound {q : List Instr} {s : State} {cause : ℕ} (hs : Sound q s) :
    Sound q (State.brakeBegin s cause) := by
  unfold State.brakeBegin
  extract_lets -merge -useContext +onlyGivenNames v1 v2 v3 v4 v5 v6
  try clear_value v1
  have hv2 : Sound q v2 := by
    unfold v2
    exact Sound.upd hs
  try clear_value v2
  have hv3 : Sound q v3 := by
    unfold v3
    refine State.wr_sound ?_
    exact State.wr_sound hv2
  try clear_value v3
  have hv4 : Sound q v4 := by
    unfold v4
    exact State.wr64_sound hv3
  try clear_value v4
  have hv5 : Sound q v5 := by
    unfold v5
    refine State.bump_sound ?_
    exact State.wr_sound hv4
  try clear_value v5
  have hv6 : Sound q v6 := by
    unfold v6
    refine State.kaSuspend_sound ?_
    refine State.event_sound ?_
    exact State.raise_sound hv5
  try clear_value v6
  refine State.brakeHold_sound ?_
  refine State.flushTail_sound ?_
  exact State.ckptStart_sound hv6

theorem State.vinWarning_sound {q : List Instr} {s : State} {r : Rails} (hs : Sound q s) :
    Sound q (State.vinWarning s r) := by
  unfold State.vinWarning
  refine Sound.ite ?_ ?_
  · exact hs
  · extract_lets -merge -useContext +onlyGivenNames v1 v2 v3 v4 v5 v6
    have hv1 : Sound q v1 := by
      unfold v1
      exact State.rails_sound hs
    try clear_value v1
    have hv2 : Sound q v2 := by
      unfold v2
      refine State.raise_sound ?_
      refine State.clear_sound ?_
      exact State.raise_sound hv1
    try clear_value v2
    have hv3 : Sound q v3 := by
      unfold v3
      exact State.clear_sound hv2
    try clear_value v3
    try clear_value v4
    have hv5 : Sound q v5 := by
      unfold v5
      exact Sound.upd hv3
    try clear_value v5
    try clear_value v6
    refine Sound.ite ?_ ?_
    · exact hv5
    · refine Sound.ite ?_ ?_
      · refine State.moduleReset_sound ?_
        exact Sound.upd hv5
      · refine Sound.ite ?_ ?_
        · exact State.brakeBegin_sound hv5
        · exact hv5

theorem State.vinLow_sound {q : List Instr} {s : State} {r : Rails} (hs : Sound q s) :
    Sound q (State.vinLow s r) := by
  unfold State.vinLow
  refine Sound.ite ?_ ?_
  · exact hs
  · extract_lets -merge -useContext +onlyGivenNames v1 v2 v3 v4 v5 v6
    try clear_value v1
    have hv2 : Sound q v2 := by
      unfold v2
      refine State.clear_sound ?_
      refine State.clear_sound ?_
      exact State.rails_sound hs
    try clear_value v2
    try clear_value v3
    have hv4 : Sound q v4 := by
      unfold v4
      exact Sound.upd hv2
    try clear_value v4
    have hv5 : Sound q v5 := by
      unfold v5
      refine State.bump_sound ?_
      exact State.raise_sound hv4
    try clear_value v5
    try clear_value v6
    refine Sound.ite ?_ ?_
    · exact hv4
    · refine Sound.ite ?_ ?_
      · refine State.event_sound ?_
        exact Sound.upd hv5
      · exact hv5

theorem execVinLow_sound {q : List Instr} {r : Rails} {s : State} (hs : Sound q s) :
    NextSound q (execVinLow r s) := by
  unfold execVinLow
  refine NextSound.next ?_
  exact State.vinLow_sound hs

theorem State.pwrCmd_sound {q : List Instr} {s : State} {op : ℕ} {cause : ℕ} (hs : Sound q s) :
    Sound q (State.pwrCmd s op cause) := by
  unfold State.pwrCmd
  extract_lets -merge -useContext +onlyGivenNames v1 v2
  have hv1 : Sound q v1 := by
    unfold v1
    exact State.wr_sound hs
  try clear_value v1
  have hv2 : ∀ x0 x1, Sound q x0 → Sound q (v2 x0 x1) := by
    unfold v2
    intro a3 a4 ha3
    refine State.raise_sound ?_
    exact State.wr_sound ha3
  try clear_value v2
  refine Sound.ite ?_ ?_
  · exact hv2 _ _ hv1
  · refine Sound.ite ?_ ?_
    · exact hv2 _ _ hv1
    · refine hv2 _ _ ?_
      exact State.brakeBegin_sound hv1

theorem execTestbrake_sound {q : List Instr} {s : State} (hs : Sound q s) :
    NextSound q (execTestbrake s) := by
  unfold execTestbrake
  refine NextSound.next ?_
  exact State.pwrCmd_sound hs

theorem execHalt_sound {q : List Instr} {s : State} (hs : Sound q s) :
    NextSound q (execHalt s) := by
  unfold execHalt
  refine NextSound.next ?_
  exact State.pwrCmd_sound hs

theorem State.resumeBrake_sound {q : List Instr} {s : State} (hs : Sound q s) :
    Sound q (State.resumeBrake s) := by
  unfold State.resumeBrake
  refine Sound.ite ?_ ?_
  · exact State.moduleReset_sound hs
  · extract_lets -merge -useContext +onlyGivenNames v1 v2 v3 v4 v5 v6
    have hv1 : Sound q v1 := by
      unfold v1
      refine State.clear_sound ?_
      exact State.putNum_sound hs
    try clear_value v1
    have hv2 : Sound q v2 := by
      unfold v2
      refine State.kaUnsuspend_sound ?_
      refine State.endHold_sound ?_
      exact State.wr_sound hv1
    try clear_value v2
    try clear_value v3
    try clear_value v4
    have hv5 : Sound q v5 := by
      unfold v5
      exact Sound.upd hv2
    try clear_value v5
    have hv6 : Sound q v6 := by
      unfold v6
      refine State.bump_sound ?_
      exact State.wr_sound hv5
    try clear_value v6
    refine State.event_sound ?_
    exact State.raise_sound hv6

theorem State.resumeIfDue_sound {q : List Instr} {s : State} (hs : Sound q s) :
    Sound q (State.resumeIfDue s) := by
  unfold State.resumeIfDue
  split
  · refine Sound.ite ?_ ?_
    · exact State.resumeBrake_sound hs
    · exact hs
  · exact hs

theorem State.expireBefore_sound {q : List Instr} {s : State} {at_ : ℕ} (hs : Sound q s) :
    Sound q (State.expireBefore s at_) := by
  unfold State.expireBefore
  refine Sound.ite ?_ ?_
  · exact State.holdExpiry_sound hs
  · exact hs

theorem State.brakeMarker_sound {q : List Instr} {s : State} (hs : Sound q s) :
    Sound q (State.brakeMarker s) := by
  unfold State.brakeMarker
  refine Sound.ite ?_ ?_
  · exact hs
  · extract_lets -merge -useContext +onlyGivenNames v1 v2 v3 v4 v5
    try clear_value v1
    have hv2 : Sound q v2 := by
      unfold v2
      refine Sound.ite ?_ ?_
      · exact hs
      · refine State.advance_sound ?_
        refine State.expireBefore_sound ?_
        exact State.expireBefore_sound hs
    try clear_value v2
    have hv3 : Sound q v3 := by
      unfold v3
      refine State.raise_sound ?_
      exact State.putBytes_sound hv2
    try clear_value v3
    have hv4 : Sound q v4 := by
      unfold v4
      refine State.wrb_sound ?_
      exact State.wr_sound hv3
    try clear_value v4
    have hv5 : Sound q v5 := by
      unfold v5
      refine State.wr_sound ?_
      exact State.wr_sound hv4
    try clear_value v5
    refine State.resumeIfDue_sound ?_
    refine State.event_sound ?_
    exact State.raise_sound hv5

theorem execBrakeMarkerWritten_sound {q : List Instr} {s : State} (hs : Sound q s) :
    NextSound q (execBrakeMarkerWritten s) := by
  unfold execBrakeMarkerWritten
  refine NextSound.next ?_
  exact State.brakeMarker_sound hs

theorem execVinResumeLevel_sound {q : List Instr} {r : Rails} {s : State} (hs : Sound q s) :
    NextSound q (execVinResumeLevel r s) := by
  unfold execVinResumeLevel
  refine NextSound.next ?_
  refine Sound.ite ?_ ?_
  · exact hs
  · refine State.vinGood_sound ?_
    exact State.rails_sound hs

theorem State.windowComplete_sound {q : List Instr} {s : State} (hs : Sound q s) :
    Sound q (State.windowComplete s) := by
  unfold State.windowComplete
  split
  · refine Sound.ite ?_ ?_
    · refine State.resumeIfDue_sound ?_
      exact State.advance_sound hs
    · exact hs
  · exact hs

theorem execResumeWindowComplete_sound {q : List Instr} {s : State} (hs : Sound q s) :
    NextSound q (execResumeWindowComplete s) := by
  unfold execResumeWindowComplete
  refine NextSound.next ?_
  exact State.windowComplete_sound hs

theorem execHuResetLevel_sound {q : List Instr} {s : State} (hs : Sound q s) :
    NextSound q (execHuResetLevel s) := by
  unfold execHuResetLevel
  refine NextSound.next ?_
  refine Sound.ite ?_ ?_
  · exact hs
  · extract_lets -merge -useContext +onlyGivenNames v1 v2 v3
    have hv1 : Sound q v1 := by
      unfold v1
      exact State.clear_sound hs
    try clear_value v1
    try clear_value v2
    have hv3 : Sound q v3 := by
      unfold v3
      exact Sound.upd hv1
    try clear_value v3
    exact State.moduleReset_sound hv3

end Sys2Proof.Machine
end

