-- ==== Sys2Proof/Laws/SoundRomVault.lean ====
section
/-!
SUPPORT. Every operation of Machine/RomVault.lean keeps the queue and the canonical forms of memory and registers.
-/

namespace Sys2Proof.Machine

theorem State.enrol_sound {q : List Instr} {s : State} (hs : Sound q s) :
    Sound q (State.enrol s) := by
  unfold State.enrol
  extract_lets -merge -useContext +onlyGivenNames v1 v2 v3 v4 v5
  try clear_value v1
  try clear_value v2
  have hv3 : Sound q v3 := by
    unfold v3
    refine State.putBytes_sound ?_
    exact State.drawn_sound hs
  try clear_value v3
  try clear_value v4
  have hv5 : Sound q v5 := by
    unfold v5
    exact Sound.upd hv3
  try clear_value v5
  refine State.event_sound ?_
  exact State.raise_sound hv5

theorem State.newSeed_sound {q : List Instr} {s : State} {kp : List Byte} (hs : Sound q s) :
    Sound q (State.newSeed s kp) := by
  unfold State.newSeed
  extract_lets -merge -useContext +onlyGivenNames v1 v2 v3 v4 v5 v6
  try clear_value v1
  try clear_value v2
  have hv3 : Sound q v3 := by
    unfold v3
    exact State.drawn_sound hs
  try clear_value v3
  have hv4 : Sound q v4 := by
    unfold v4
    exact State.write_sound hv3
  try clear_value v4
  try clear_value v5
  have hv6 : Sound q v6 := by
    unfold v6
    exact Sound.upd hv4
  try clear_value v6
  refine State.event_sound ?_
  refine State.wr_sound ?_
  exact State.raise_sound hv6

theorem State.loadSeed_sound {q : List Instr} {s : State} {kp : List Byte} (hs : Sound q s) :
    Sound q (State.loadSeed s kp) := by
  unfold State.loadSeed
  split
  · exact State.newSeed_sound hs
  · extract_lets -merge -useContext +onlyGivenNames v1 v2
    try clear_value v1
    try clear_value v2
    refine State.wr_sound ?_
    exact Sound.upd hs

theorem State.romTamper_sound {q : List Instr} {s : State} (hs : Sound q s) :
    Sound q (State.romTamper s) := by
  unfold State.romTamper
  refine State.event_sound ?_
  exact State.eraseSeed_sound hs

theorem State.romUnknown_sound {q : List Instr} {s : State} {kp : List Byte} (hs : Sound q s) :
    Sound q (State.romUnknown s kp) := by
  unfold State.romUnknown
  split
  · exact hs
  · refine Sound.ite ?_ ?_
    · exact State.romTamper_sound hs
    · exact State.event_sound hs

theorem State.fillRoots_sound {q : List Instr} {s : State} {kp : List Byte} (hs : Sound q s) :
    Sound q (State.fillRoots s kp) := by
  unfold State.fillRoots
  extract_lets -merge -useContext +onlyGivenNames v1 v2 v3 v4 v5
  try clear_value v1
  try clear_value v2
  have hv3 : Sound q v3 := by
    unfold v3
    exact State.setKslot_sound hs
  try clear_value v3
  have hv4 : Sound q v4 := by
    unfold v4
    exact State.setKslot_sound hv3
  try clear_value v4
  try clear_value v5
  exact Sound.upd hv4

theorem State.vaultFrom_sound {q : List Instr} {s : State} {kp : List Byte} (hs : Sound q s) :
    Sound q (State.vaultFrom s kp) := by
  unfold State.vaultFrom
  extract_lets -merge -useContext +onlyGivenNames v1
  have hv1 : Sound q v1 := by
    unfold v1
    refine Sound.ite ?_ ?_
    · exact State.romUnknown_sound hs
    · exact hs
  try clear_value v1
  refine State.wr_sound ?_
  refine State.fillRoots_sound ?_
  exact State.loadSeed_sound hv1

theorem State.pufTry_sound {q : List Instr} {s : State} {f : RomFacts} (hs : Sound q s) :
    Sound q (State.pufTry s f) := by
  unfold State.pufTry
  split
  · extract_lets -merge -useContext +onlyGivenNames v1 v2
    try clear_value v1
    try clear_value v2
    refine Sound.ite ?_ ?_
    · exact Sound.upd hs
    · exact hs
  · exact hs

theorem State.vaultOpen_sound {q : List Instr} {s : State} (hs : Sound q s) :
    Sound q (State.vaultOpen s) := by
  unfold State.vaultOpen
  split
  · exact State.vaultFrom_sound hs
  · refine State.event_sound ?_
    exact State.wr_sound hs

theorem State.drbgStart_sound {q : List Instr} {s : State} {pass : Bool} (hs : Sound q s) :
    Sound q (State.drbgStart s pass) := by
  unfold State.drbgStart
  refine Sound.ite ?_ ?_
  · exact State.wr_sound hs
  · exact State.drbgFails_sound hs

theorem State.vaultStart_sound {q : List Instr} {s : State} {f : RomFacts} (hs : Sound q s) :
    Sound q (State.vaultStart s f) := by
  unfold State.vaultStart
  extract_lets -merge -useContext +onlyGivenNames v1 v2 v3 v4 v5
  have hv1 : Sound q v1 := by
    unfold v1
    refine State.wr_sound ?_
    exact State.drbgStart_sound hs
  try clear_value v1
  try clear_value v2
  have hv3 : Sound q v3 := by
    unfold v3
    exact Sound.upd hv1
  try clear_value v3
  have hv4 : Sound q v4 := by
    unfold v4
    refine Sound.ite ?_ ?_
    · exact State.romTamper_sound hv3
    · exact hv3
  try clear_value v4
  have hv5 : Sound q v5 := by
    unfold v5
    refine Sound.ite ?_ ?_
    · exact State.pufTry_sound hv4
    · refine State.enrol_sound ?_
      exact State.wr_sound hv4
  try clear_value v5
  exact State.vaultOpen_sound hv5

end Sys2Proof.Machine
end

