-- ==== Sys2Proof/Laws/SoundUpd.lean ====
section
/-!
SUPPORT. Every operation of Machine/Upd.lean keeps the queue and the canonical forms of memory and registers.
-/

namespace Sys2Proof.Machine

theorem State.bulkIn_sound {q : List Instr} {s : State} {kind : ℕ} {src : ℕ} {x3 : BulkMsg} {f : State → State} (hs : Sound q s) (hf : ∀ x0, Sound q x0 → Sound q (f x0)) :
    Sound q (State.bulkIn s kind src x3 f) := by
  unfold State.bulkIn
  extract_lets -merge -useContext +onlyGivenNames v1
  have hv1 : Sound q v1 := by
    unfold v1
    exact State.takeInbox_sound hs
  try clear_value v1
  refine Sound.ite ?_ ?_
  · exact hf _ hv1
  · exact hv1

theorem State.bulkOf_sound {q : List Instr} {s : State} {src : ℕ} {x2 : BulkMsg} {f : UpdXfer → State → State} (hs : Sound q s) (hf : ∀ x0 x1, Sound q x1 → Sound q (f x0 x1)) :
    Sound q (State.bulkOf s src x2 f) := by
  unfold State.bulkOf
  split
  · refine Sound.ite ?_ ?_
    · exact hf _ _ hs
    · exact hs
  · exact hs

theorem State.bulkOpen_sound {q : List Instr} {s : State} {src : ℕ} {x2 : BulkMsg} (hs : Sound q s) :
    Sound q (State.bulkOpen s src x2) := by
  unfold State.bulkOpen
  extract_lets -merge -useContext +onlyGivenNames v1 v2 v3 v4 v5 v6
  try clear_value v1
  try clear_value v2
  try clear_value v3
  have hv4 : Sound q v4 := by
    unfold v4
    refine State.bump_sound ?_
    exact State.setSlot_sound hs
  try clear_value v4
  try clear_value v5
  have hv6 : Sound q v6 := by
    unfold v6
    exact Sound.upd hv4
  try clear_value v6
  refine Sound.ite ?_ ?_
  · exact State.bulkAnswer_sound hs
  · refine State.raise_sound ?_
    refine State.wr_sound ?_
    refine State.wr_sound ?_
    exact State.wr_sound hv6

theorem execBulkOpen_sound {q : List Instr} {src : ℕ} {x1 : BulkMsg} {s : State} (hs : Sound q s) :
    NextSound q (execBulkOpen src x1 s) := by
  unfold execBulkOpen
  refine NextSound.next ?_
  refine State.bulkIn_sound hs ?_
  intro a1 ha1
  exact State.bulkOpen_sound ha1

theorem State.bulkData_sound {q : List Instr} {s : State} {x1 : BulkMsg} {y : UpdXfer} (hs : Sound q s) :
    Sound q (State.bulkData s x1 y) := by
  unfold State.bulkData
  refine Sound.ite ?_ ?_
  · extract_lets -merge -useContext +onlyGivenNames v1 v2
    try clear_value v1
    try clear_value v2
    refine State.bump_sound ?_
    exact Sound.upd hs
  · extract_lets -merge -useContext +onlyGivenNames v3 v4
    try clear_value v3
    have hv4 : Sound q v4 := by
      unfold v4
      exact Sound.upd hs
    try clear_value v4
    exact State.bulkAnswer_sound hv4

theorem execBulkData_sound {q : List Instr} {src : ℕ} {x1 : BulkMsg} {s : State} (hs : Sound q s) :
    NextSound q (execBulkData src x1 s) := by
  unfold execBulkData
  refine NextSound.next ?_
  refine State.bulkIn_sound hs ?_
  intro a1 ha1
  refine State.bulkOf_sound ha1 ?_
  intro a2 a3 ha3
  exact State.bulkData_sound ha3

theorem State.blockEnd_sound {q : List Instr} {s : State} {r : FlashEnd} {y : UpdXfer} {data : List Byte} (hs : Sound q s) :
    Sound q (State.blockEnd s r y data) := by
  unfold State.blockEnd
  extract_lets -merge -useContext +onlyGivenNames v1
  try clear_value v1
  refine Sound.ite ?_ ?_
  · refine State.dropXfer_sound ?_
    exact State.bump_sound hs
  · split
    · exact State.blockDone_sound hs
    · refine State.dropXfer_sound ?_
      refine State.updFail_sound ?_
      exact State.wr_sound hs
    · refine State.dropXfer_sound ?_
      refine State.updFail_sound ?_
      exact State.egressHalt_sound hs

theorem execBulkBlockProgrammed_sound {q : List Instr} {r : FlashEnd} {s : State} (hs : Sound q s) :
    NextSound q (execBulkBlockProgrammed r s) := by
  unfold execBulkBlockProgrammed
  refine NextSound.next ?_
  split
  · split
    · refine Sound.ite ?_ ?_
      · exact State.blockEnd_sound hs
      · exact hs
    · exact hs
  · exact hs

theorem State.bulkEnd_sound {q : List Instr} {s : State} {y : UpdXfer} (hs : Sound q s) :
    Sound q (State.bulkEnd s y) := by
  unfold State.bulkEnd
  refine Sound.ite ?_ ?_
  · exact State.bulkAnswer_sound hs
  · extract_lets -merge -useContext +onlyGivenNames v1 v2 v3
    try clear_value v1
    have hv2 : Sound q v2 := by
      unfold v2
      exact Sound.upd hs
    try clear_value v2
    have hv3 : Sound q v3 := by
      unfold v3
      exact State.bump_sound hv2
    try clear_value v3
    refine Sound.ite ?_ ?_
    · exact State.startVerify_sound hv3
    · exact hv3

theorem execBulkEnd_sound {q : List Instr} {src : ℕ} {x1 : BulkMsg} {s : State} (hs : Sound q s) :
    NextSound q (execBulkEnd src x1 s) := by
  unfold execBulkEnd
  refine NextSound.next ?_
  refine State.bulkIn_sound hs ?_
  intro a1 ha1
  refine State.bulkOf_sound ha1 ?_
  intro a2 a3 ha3
  exact State.bulkEnd_sound ha3

theorem execBulkAbort_sound {q : List Instr} {src : ℕ} {x1 : BulkMsg} {s : State} (hs : Sound q s) :
    NextSound q (execBulkAbort src x1 s) := by
  unfold execBulkAbort
  refine NextSound.next ?_
  refine State.bulkIn_sound hs ?_
  intro a1 ha1
  refine State.bulkOf_sound ha1 ?_
  intro a2 a3 ha3
  refine State.dropXfer_sound ?_
  exact State.bump_sound ha3

theorem execTransferTimeout_sound {q : List Instr} {s : State} (hs : Sound q s) :
    NextSound q (execTransferTimeout s) := by
  unfold execTransferTimeout
  refine NextSound.next ?_
  split
  · refine Sound.ite ?_ ?_
    · exact hs
    · refine State.dropXfer_sound ?_
      exact State.advance_sound hs
  · exact hs

theorem State.eraseEnd_sound {q : List Instr} {s : State} {ok : Bool} {e : UpdErase} (hs : Sound q s) :
    Sound q (State.eraseEnd s ok e) := by
  have e0 : @State.eraseEnd = @State.eraseEnd := rfl
  conv at e0 => rhs; delta State.eraseEnd
  rw [e0]
  clear e0
  beta_reduce
  extract_lets -merge -useContext +onlyGivenNames v1 v2 v3 v4 v5
  have hv2 : Sound q v2 := Sound.upd hs
  clear_value v2 v3
  have hv4 : Sound q v4 := Sound.ite (State.updFail_sound (State.wr_sound hv2)) (State.unlist_sound hv2)
  clear_value v4
  refine Sound.ite ?_ (State.updDone_sound hv4)
  generalize v4.upd.xfer = o
  cases o
  · exact hv4
  · exact Sound.ite (State.dropXfer_sound hv4) (State.bulkAnswer_sound (Sound.upd hv4))

theorem execFlashEraseComplete_sound {q : List Instr} {ok : Bool} {s : State} (hs : Sound q s) :
    NextSound q (execFlashEraseComplete ok s) := by
  unfold execFlashEraseComplete
  refine NextSound.next ?_
  split
  · refine Sound.ite ?_ ?_
    · exact State.eraseEnd_sound hs
    · exact hs
  · exact hs

theorem execUpdErase_sound {q : List Instr} {slot : ℕ} {s : State} (hs : Sound q s) :
    NextSound q (execUpdErase slot s) := by
  unfold execUpdErase
  refine onUnit_sound ?_
  refine State.updCmd_sound hs ?_
  intro a1 ha1
  extract_lets -merge -useContext +onlyGivenNames v2 v3
  have hv2 : Sound q v2 := by
    unfold v2
    exact State.setSlot_sound ha1
  try clear_value v2
  try clear_value v3
  exact Sound.upd hv2

theorem execUpdVerify_sound {q : List Instr} {slot : ℕ} {s : State} (hs : Sound q s) :
    NextSound q (execUpdVerify slot s) := by
  unfold execUpdVerify
  extract_lets -merge -useContext +onlyGivenNames v1 v2
  try clear_value v1
  try clear_value v2
  refine onUnit_sound ?_
  refine State.updCmd_sound hs ?_
  intro a3 ha3
  exact Sound.upd ha3

theorem State.verifyAnswer_sound {q : List Instr} {s : State} {r : ℕ} (hs : Sound q s) :
    Sound q (State.verifyAnswer s r) := by
  unfold State.verifyAnswer
  split
  · refine State.endXfer_sound ?_
    exact State.bulkAnswer_sound hs
  · exact State.updDone_sound hs

theorem State.verifyEnd_sound {q : List Instr} {s : State} {k : ℕ} (hs : Sound q s) :
    Sound q (State.verifyEnd s k) := by
  have e0 : @State.verifyEnd = @State.verifyEnd := rfl
  conv at e0 => rhs; delta State.verifyEnd
  rw [e0]
  clear e0
  beta_reduce
  have h0 : Sound q ({ s with upd := { s.upd with verifying := none } } : State) := Sound.upd hs
  have h := State.verifySlot_sound (k := k) h0
  revert h
  generalize State.verifySlot _ k = r
  intro h
  obtain ⟨x, t⟩ := r
  exact State.verifyAnswer_sound h

theorem execVerifyComplete_sound {q : List Instr} {s : State} (hs : Sound q s) :
    NextSound q (execVerifyComplete s) := by
  unfold execVerifyComplete
  refine NextSound.next ?_
  split
  · refine Sound.ite ?_ ?_
    · exact State.verifyEnd_sound hs
    · exact hs
  · exact hs

theorem execUpdStage_sound {q : List Instr} {slot : ℕ} {s : State} (hs : Sound q s) :
    NextSound q (execUpdStage slot s) := by
  unfold execUpdStage
  refine onUnit_sound ?_
  refine State.updCmd_sound hs ?_
  intro a1 ha1
  exact Sound.upd ha1

theorem execStageComplete_sound {q : List Instr} {s : State} (hs : Sound q s) :
    NextSound q (execStageComplete s) := by
  unfold execStageComplete
  refine NextSound.next ?_
  refine Sound.ite ?_ ?_
  · exact State.stageDone_sound hs
  · exact hs

theorem execUpdUnstage_sound {q : List Instr} {s : State} (hs : Sound q s) :
    NextSound q (execUpdUnstage s) := by
  unfold execUpdUnstage
  refine NextSound.next ?_
  refine State.updCmd_sound hs ?_
  intro a1 ha1
  refine State.updDone_sound ?_
  refine State.wr_sound ?_
  refine State.unstageBays_sound ?_
  exact State.unpin_sound ha1

theorem State.makeTrial_sound {q : List Instr} {s : State} {slot : ℕ} (hs : Sound q s) :
    Sound q (State.makeTrial s slot) := by
  unfold State.makeTrial
  extract_lets -merge -useContext +onlyGivenNames v1 v2
  have hv1 : Sound q v1 := by
    unfold v1
    exact State.wr_sound hs
  try clear_value v1
  try clear_value v2
  refine State.showVersions_sound ?_
  exact State.putBoot_sound hv1

theorem execUpdActivate_sound {q : List Instr} {slot : ℕ} {s : State} (hs : Sound q s) :
    NextSound q (execUpdActivate slot s) := by
  unfold execUpdActivate
  refine onUnit_sound ?_
  refine State.updCmd_sound hs ?_
  intro a1 ha1
  refine State.updDone_sound ?_
  exact State.makeTrial_sound ha1

theorem State.confirmSlot_sound {q : List Instr} {s : State} {slot : ℕ} (hs : Sound q s) :
    Sound q (State.confirmSlot s slot) := by
  unfold State.confirmSlot
  extract_lets -merge -useContext +onlyGivenNames v1 v2 v3 v4 v5 v6
  try clear_value v1
  try clear_value v2
  try clear_value v3
  have hv4 : Sound q v4 := by
    unfold v4
    exact State.wr_sound hs
  try clear_value v4
  try clear_value v5
  have hv6 : Sound q v6 := by
    unfold v6
    exact State.putBoot_sound hv4
  try clear_value v6
  refine State.event_sound ?_
  exact State.showVersions_sound hv6

theorem execUpdConfirm_sound {q : List Instr} {slot : ℕ} {s : State} (hs : Sound q s) :
    NextSound q (execUpdConfirm slot s) := by
  unfold execUpdConfirm
  refine onUnit_sound ?_
  refine State.updCmd_sound hs ?_
  intro a1 ha1
  refine State.updDone_sound ?_
  exact State.confirmSlot_sound ha1

theorem execUpdRecover_sound {q : List Instr} {s : State} (hs : Sound q s) :
    NextSound q (execUpdRecover s) := by
  unfold execUpdRecover
  refine NextSound.next ?_
  refine State.updCmd_sound hs ?_
  intro a1 ha1
  refine State.updDone_sound ?_
  refine State.event_sound ?_
  exact State.putBoot_sound ha1

theorem execMigrationComplete_sound {q : List Instr} {s : State} (hs : Sound q s) :
    NextSound q (execMigrationComplete s) := by
  unfold execMigrationComplete
  refine NextSound.next ?_
  refine Sound.ite ?_ ?_
  · refine State.wr_sound ?_
    refine State.raise_sound ?_
    exact State.migrate_sound hs
  · exact hs

theorem execUpdCommit_sound {q : List Instr} {s : State} (hs : Sound q s) :
    NextSound q (execUpdCommit s) := by
  unfold execUpdCommit
  refine NextSound.next ?_
  refine State.updCmd_sound hs ?_
  intro a1 ha1
  exact State.commitPhase_sound ha1

theorem execUpdAbort_sound {q : List Instr} {s : State} (hs : Sound q s) :
    NextSound q (execUpdAbort s) := by
  unfold execUpdAbort
  extract_lets -merge -useContext +onlyGivenNames v1
  try clear_value v1
  refine NextSound.next ?_
  refine State.updCmd_sound hs ?_
  intro a2 ha2
  refine State.updDone_sound ?_
  refine Sound.ite ?_ ?_
  · exact State.cancelSwitch_sound ha2
  · exact State.updAbort_sound ha2

theorem execHoldmaxExpiry_sound {q : List Instr} {s : State} (hs : Sound q s) :
    NextSound q (execHoldmaxExpiry s) := by
  unfold execHoldmaxExpiry
  refine NextSound.next ?_
  split
  · extract_lets -merge -useContext +onlyGivenNames v1 v2
    have hv1 : Sound q v1 := by
      unfold v1
      exact State.advance_sound hs
    try clear_value v1
    try clear_value v2
    refine Sound.ite ?_ ?_
    · exact State.updAbort_sound hv1
    · refine Sound.ite ?_ ?_
      · exact State.moduleReset_sound hv1
      · exact hv1
  · exact hs

theorem execSwitchGo_sound {q : List Instr} {s : State} (hs : Sound q s) :
    NextSound q (execSwitchGo s) := by
  unfold execSwitchGo
  refine NextSound.next ?_
  exact State.switchGo_sound hs

theorem State.recSend_sound {q : List Instr} {s : State} {m : RecMsg} (hs : Sound q s) :
    Sound q (State.recSend s m) := by
  unfold State.recSend
  exact Sound.upd hs

theorem execRecoveryAnnounceTimer_sound {q : List Instr} {s : State} (hs : Sound q s) :
    NextSound q (execRecoveryAnnounceTimer s) := by
  unfold execRecoveryAnnounceTimer
  refine NextSound.next ?_
  split
  · refine Sound.ite ?_ ?_
    · exact hs
    · extract_lets -merge -useContext +onlyGivenNames v1 v2 v3 v4
      have hv1 : Sound q v1 := by
        unfold v1
        exact State.advance_sound hs
      try clear_value v1
      try clear_value v2
      try clear_value v3
      have hv4 : Sound q v4 := by
        unfold v4
        exact Sound.upd hv1
      try clear_value v4
      refine State.recSend_sound ?_
      exact State.drawn_sound hv4
  · exact hs

theorem State.recLog_sound {q : List Instr} {s : State} {op : ℕ} {result : ℕ} {tool : ℕ} {version : ℕ} (hs : Sound q s) :
    Sound q (State.recLog s op result tool version) := by
  unfold State.recLog
  extract_lets -merge -useContext +onlyGivenNames v1 v2 v3 v4
  try clear_value v1
  try clear_value v2
  have hv3 : Sound q v3 := by
    unfold v3
    refine State.putBytes_sound ?_
    exact State.taken_sound hs
  try clear_value v3
  try clear_value v4
  exact Sound.upd hv3

theorem State.recDone_sound {q : List Instr} {s : State} {op : ℕ} {result : ℕ} {tool : ℕ} {received : ℕ} {version : ℕ} (hs : Sound q s) :
    Sound q (State.recDone s op result tool received version) := by
  unfold State.recDone
  refine State.recSend_sound ?_
  exact State.recLog_sound hs

theorem State.recOrder_sound {q : List Instr} {s : State} {o : RecOrder} {op : ℕ} {f : State → State} (hs : Sound q s) (hf : ∀ x0, Sound q x0 → Sound q (f x0)) :
    Sound q (State.recOrder s o op f) := by
  unfold State.recOrder
  refine Sound.ite ?_ ?_
  · exact hf _ hs
  · exact hs

theorem State.recAccept_sound {q : List Instr} {s : State} (hs : Sound q s) :
    Sound q (State.recAccept s) := by
  unfold State.recAccept
  exact Sound.upd hs

theorem State.recLoad_sound {q : List Instr} {s : State} {o : RecOrder} (hs : Sound q s) :
    Sound q (State.recLoad s o) := by
  unfold State.recLoad
  extract_lets -merge -useContext +onlyGivenNames v1 v2 v3 v4
  try clear_value v1
  have hv2 : Sound q v2 := by
    unfold v2
    refine State.setSlot_sound ?_
    refine State.unlist_sound ?_
    exact State.recAccept_sound hs
  try clear_value v2
  try clear_value v3
  have hv4 : Sound q v4 := by
    unfold v4
    exact Sound.upd hv2
  try clear_value v4
  refine Sound.ite ?_ ?_
  · exact State.recDone_sound hs
  · refine Sound.ite ?_ ?_
    · exact State.recDone_sound hs
    · exact State.recSend_sound hv4

theorem execRecoveryLoad_sound {q : List Instr} {o : RecOrder} {s : State} (hs : Sound q s) :
    NextSound q (execRecoveryLoad o s) := by
  unfold execRecoveryLoad
  refine NextSound.next ?_
  refine State.recOrder_sound hs ?_
  intro a1 ha1
  exact State.recLoad_sound ha1

theorem execRecoveryEnrol_sound {q : List Instr} {o : RecOrder} {s : State} (hs : Sound q s) :
    NextSound q (execRecoveryEnrol o s) := by
  unfold execRecoveryEnrol
  refine NextSound.next ?_
  refine State.recOrder_sound hs ?_
  intro a1 ha1
  refine Sound.ite ?_ ?_
  · refine State.recDone_sound ?_
    refine State.enrol_sound ?_
    exact State.recAccept_sound ha1
  · exact State.recDone_sound ha1

theorem State.clearRecovery_sound {q : List Instr} {s : State} (hs : Sound q s) :
    Sound q (State.clearRecovery s) := by
  unfold State.clearRecovery
  refine Sound.ite ?_ ?_
  · exact State.putBoot_sound hs
  · exact hs

theorem execRecoveryRestart_sound {q : List Instr} {o : RecOrder} {s : State} (hs : Sound q s) :
    NextSound q (execRecoveryRestart o s) := by
  unfold execRecoveryRestart
  refine NextSound.next ?_
  refine State.recOrder_sound hs ?_
  intro a1 ha1
  refine State.moduleReset_sound ?_
  refine State.recDone_sound ?_
  refine State.clearRecovery_sound ?_
  exact State.recAccept_sound ha1

theorem State.tftpEnd_sound {q : List Instr} {s : State} {t : UpdTftp} {st : ℕ} {result : ℕ} (hs : Sound q s) :
    Sound q (State.tftpEnd s t st result) := by
  unfold State.tftpEnd
  extract_lets -merge -useContext +onlyGivenNames v1 v2 v3
  try clear_value v1
  have hv2 : Sound q v2 := by
    unfold v2
    exact Sound.upd hs
  try clear_value v2
  have hv3 : Sound q v3 := by
    unfold v3
    refine State.wr_sound ?_
    exact State.setSlot_sound hv2
  try clear_value v3
  exact State.recDone_sound hv3

theorem State.tftpVerify_sound {q : List Instr} {s : State} {t : UpdTftp} (hs : Sound q s) :
    Sound q (State.tftpVerify s t) := by
  unfold State.tftpVerify
  split
  · rename_i p1 p2 e3
    have hp2 : Sound q p2 := by
      refine Sound.ofSnd e3 ?_
      refine State.verifySlot_sound ?_
      extract_lets -merge -useContext +onlyGivenNames v4 v5
      have hv4 : Sound q v4 := by
        unfold v4
        exact State.setSlot_sound hs
      try clear_value v4
      try clear_value v5
      exact Sound.upd hv4
    extract_lets -merge -useContext +onlyGivenNames v6
    have hv6 : Sound q v6 := by
      unfold v6
      exact State.recDone_sound hp2
    try clear_value v6
    refine Sound.ite ?_ ?_
    · refine State.moduleReset_sound ?_
      refine State.clearRecovery_sound ?_
      exact State.makeTrial_sound hv6
    · exact hv6

theorem State.tftpBlock_sound {q : List Instr} {s : State} {t : UpdTftp} {data : List Byte} (hs : Sound q s) :
    Sound q (State.tftpBlock s t data) := by
  unfold State.tftpBlock
  extract_lets -merge -useContext +onlyGivenNames v1 v2 v3 v4 v5 v6 v7 v8
  try clear_value v1
  try clear_value v2
  have hv3 : Sound q v3 := by
    unfold v3
    exact State.putBytes_sound hs
  try clear_value v3
  try clear_value v4
  try clear_value v5
  try clear_value v6
  have hv7 : Sound q v7 := by
    unfold v7
    exact Sound.upd hv3
  try clear_value v7
  have hv8 : Sound q v8 := by
    unfold v8
    exact State.recSend_sound hv7
  try clear_value v8
  refine Sound.ite ?_ ?_
  · refine State.recSend_sound ?_
    exact State.tftpEnd_sound hs
  · refine Sound.ite ?_ ?_
    · exact State.tftpEnd_sound hv3
    · refine Sound.ite ?_ ?_
      · exact State.tftpVerify_sound hv8
      · exact hv8

theorem execTftpDataReceived_sound {q : List Instr} {block : ℕ} {data : List Byte} {s : State} (hs : Sound q s) :
    NextSound q (execTftpDataReceived block data s) := by
  unfold execTftpDataReceived
  refine NextSound.next ?_
  split
  · refine Sound.ite ?_ ?_
    · exact hs
    · refine Sound.ite ?_ ?_
      · exact State.tftpBlock_sound hs
      · refine Sound.ite ?_ ?_
        · exact State.recSend_sound hs
        · exact hs
  · exact hs

theorem execTftpRetransmitTimer_sound {q : List Instr} {s : State} (hs : Sound q s) :
    NextSound q (execTftpRetransmitTimer s) := by
  unfold execTftpRetransmitTimer
  refine NextSound.next ?_
  split
  · extract_lets -merge -useContext +onlyGivenNames v1 v2 v3
    have hv1 : Sound q v1 := by
      unfold v1
      exact State.advance_sound hs
    try clear_value v1
    try clear_value v2
    have hv3 : Sound q v3 := by
      unfold v3
      exact Sound.upd hv1
    try clear_value v3
    refine Sound.ite ?_ ?_
    · exact State.tftpEnd_sound hv1
    · exact State.recSend_sound hv3
  · exact hs

end Sys2Proof.Machine
end

