-- ==== Sys2Proof/Laws/SoundRomStart.lean ====
section
/-!
SUPPORT. Every operation of Machine/RomStart.lean keeps the queue and the canonical forms of memory and registers.
-/

namespace Sys2Proof.Machine

theorem State.mapRow_sound {q : List Instr} {s : State} {bank : ℕ} {row : ℕ} (hs : Sound q s) :
    Sound q ((State.mapRow s bank row)).2 := by
  unfold State.mapRow
  split
  · try dsimp -zeta only
    exact hs
  · split
    · try dsimp -zeta only
      refine State.bump_sound ?_
      exact State.setSpare_sound hs
    · try dsimp -zeta only
      exact hs

theorem State.loadSoftMap_sound {q : List Instr} {s : State} (hs : Sound q s) : Sound q (State.loadSoftMap s) := by
  unfold State.loadSoftMap
  split
  · exact hs
  · refine State.each_sound hs ?_
    intro s e hs
    extract_lets -merge -useContext +onlyGivenNames v1
    split
    · exact State.setSpare_sound hs
    · exact hs

theorem State.selfTest_sound {q : List Instr} {s : State} {f : RomFacts} (hs : Sound q s) :
    Sound q ((State.selfTest s f)).2 := by
  unfold State.selfTest
  split
  · rename_i p1 p2 e3
    have hp2 : Sound q p2 := by
      refine Sound.ofSnd e3 ?_
      refine foldl_keep (P := fun (x : Bool × State) => Sound q (x).2) ?_ ?_
      · intro a4 a5 ha4
        beta_reduce at *
        split
        · split
          · rename_i p6 p7 e8
            have hp7 : Sound q p7 := by
              refine Sound.ofSnd e8 ?_
              exact State.mapRow_sound ha4
            try dsimp -zeta only
            exact hp7
      · try dsimp -zeta only
        exact hs
    extract_lets -merge -useContext +onlyGivenNames v9 v10
    try clear_value v9
    have hv10 : Sound q v10 := by
      unfold v10
      refine State.wrb_sound ?_
      refine State.wrb_sound ?_
      exact State.raise_sound hp2
    try clear_value v10
    try dsimp -zeta only
    refine State.loadSoftMap_sound ?_
    refine Sound.ite ?_ ?_
    · exact hv10
    · refine State.event_sound ?_
      exact State.wr_sound hv10

theorem State.bistFail_sound {q : List Instr} {s : State} (hs : Sound q s) :
    Sound q (State.bistFail s) := by
  unfold State.bistFail
  refine Sound.ite ?_ ?_
  · exact Sound.upd hs
  · exact State.moduleReset_sound hs

theorem State.startCheck_sound {q : List Instr} {s : State} {k : ℕ} {anchors : List Byte} {floor : ℕ} (hs : Sound q s) :
    Sound q ((State.startCheck s k anchors floor)).2 := by
  unfold State.startCheck
  extract_lets -merge -useContext +onlyGivenNames v1 v2 v3
  try clear_value v1
  have hv2 : Sound q v2 := by
    unfold v2
    refine Sound.ite ?_ ?_
    · exact State.placeSigner_sound hs
    · exact hs
  try clear_value v2
  try clear_value v3
  try dsimp -zeta only
  exact hv2

theorem State.slotBad_sound {q : List Instr} {s : State} {k : ℕ} {code : ℕ} (hs : Sound q s) :
    Sound q (State.slotBad s k code) := by
  unfold State.slotBad
  extract_lets -merge -useContext +onlyGivenNames v1 v2 v3 v4 v5
  try clear_value v1
  try clear_value v2
  have hv3 : Sound q v3 := by
    unfold v3
    refine State.wr_sound ?_
    exact State.wr_sound hs
  try clear_value v3
  try clear_value v4
  have hv5 : Sound q v5 := by
    unfold v5
    exact State.putBoot_sound hv3
  try clear_value v5
  refine Sound.ite ?_ ?_
  · exact State.event_sound hv5
  · exact hv5

theorem State.showSlots_sound {q : List Instr} {s : State} (hs : Sound q s) :
    Sound q (State.showSlots s) := by
  unfold State.showSlots
  extract_lets -merge -useContext +onlyGivenNames v1
  try clear_value v1
  refine State.wr_sound ?_
  refine State.wr_sound ?_
  exact State.showBoot_sound hs

theorem State.pickSlot_sound {q : List Instr} {s : State} {fell : Bool} {a : ℕ} (hs : Sound q s) :
    Sound q ((State.pickSlot s fell a)).2 := by
  unfold State.pickSlot
  split
  · try dsimp -zeta only
    exact hs
  · extract_lets -merge -useContext +onlyGivenNames v1
    try clear_value v1
    split
    · try dsimp -zeta only
      exact hs
    · split
      · refine State.pickSlot_sound ?_
        exact State.slotBad_sound hs
      · split
        · rename_i p2 p3 e4
          have hp3 : Sound q p3 := by
            refine Sound.ofSnd e4 ?_
            exact State.startCheck_sound hs
          split
          · try dsimp -zeta only
            exact hp3
          · refine State.pickSlot_sound ?_
            exact State.slotBad_sound hp3

theorem State.pickVendor_sound {q : List Instr} {s : State} (hs : Sound q s) :
    Sound q ((State.pickVendor s)).2 := by
  unfold State.pickVendor
  split
  · rename_i p1 p2 e3
    have hp2 : Sound q p2 := by
      refine Sound.ofSnd e3 ?_
      exact State.startCheck_sound hs
    split
    · try dsimp -zeta only
      refine State.showSlots_sound ?_
      exact State.putBoot_sound hp2
    · split
      · rename_i p4 p5 e6
        have hp5 : Sound q p5 := by
          refine Sound.ofSnd e6 ?_
          exact State.startCheck_sound hp2
        split
        · try dsimp -zeta only
          refine State.showSlots_sound ?_
          exact State.putBoot_sound hp5
        · try dsimp -zeta only
          exact hp5

theorem State.enterRecovery_sound {q : List Instr} {s : State} {reason : ℕ} (hs : Sound q s) :
    Sound q (State.enterRecovery s reason) := by
  unfold State.enterRecovery
  extract_lets -merge -useContext +onlyGivenNames v1 v2 v3
  have hv1 : Sound q v1 := by
    unfold v1
    exact State.wr_sound hs
  try clear_value v1
  try clear_value v2
  try clear_value v3
  exact Sound.upd hv1

theorem State.placePart_sound {q : List Instr} {s : State} {k : ℕ} {p : Part} (hs : Sound q s) :
    Sound q (State.placePart s k p) := by
  unfold State.placePart
  refine Sound.ite ?_ ?_
  · exact State.write_sound hs
  · refine Sound.ite ?_ ?_
    · extract_lets -merge -useContext +onlyGivenNames v1
      try clear_value v1
      refine State.write_sound ?_
      exact State.taken_sound hs
    · refine Sound.ite ?_ ?_
      · exact State.write_sound hs
      · refine Sound.ite ?_ ?_
        · exact State.write_sound hs
        · exact hs

theorem State.extendBundle_sound {q : List Instr} {s : State} {k : ℕ} (hs : Sound q s) :
    Sound q (State.extendBundle s k) := by
  unfold State.extendBundle
  extract_lets -merge -useContext +onlyGivenNames v1 v2
  try clear_value v1
  have hv2 : Sound q v2 := by
    unfold v2
    exact State.extendM_sound hs
  try clear_value v2
  refine State.each_sound hv2 ?_
  intro a3 a4 ha3
  exact State.extendM_sound ha3

theorem State.enterSlot_sound {q : List Instr} {s : State} {k : ℕ} {fell : Bool} (hs : Sound q s) :
    Sound q (State.enterSlot s k fell) := by
  unfold State.enterSlot
  extract_lets -merge -useContext +onlyGivenNames v1 v2 v3 v4 v5 v6
  try clear_value v1
  try clear_value v2
  have hv3 : Sound q v3 := by
    unfold v3
    refine Sound.ite ?_ ?_
    · exact State.putBoot_sound hs
    · exact hs
  try clear_value v3
  try clear_value v4
  have hv5 : Sound q v5 := by
    unfold v5
    exact Sound.upd hv3
  try clear_value v5
  have hv6 : Sound q v6 := by
    unfold v6
    refine State.each_sound hv5 ?_
    intro a7 a8 ha7
    exact State.placePart_sound ha7
  try clear_value v6
  refine State.showVersions_sound ?_
  exact State.extendBundle_sound hv6

theorem State.slotOfRecord_sound {q : List Instr} {s : State} (hs : Sound q s) :
    Sound q (State.slotOfRecord s) := by
  have e0 : @State.slotOfRecord = @State.slotOfRecord := rfl
  conv at e0 => rhs; delta State.slotOfRecord
  rw [e0]
  clear e0
  beta_reduce
  have h := State.pickSlot_sound (fell := false) (a := 3) hs
  revert h
  generalize s.pickSlot false 3 = r
  intro h
  obtain ⟨x, t⟩ := r
  cases x
  · exact State.enterRecovery_sound h
  · exact State.enterSlot_sound h

theorem State.enterVendor_sound {q : List Instr} {s : State} {rcv : Bool} {t : State} {a : Option (ℕ × Bool)} (hs : Sound q s) (ht : Sound q t) :
    Sound q (State.enterVendor s rcv t a) := by
  unfold State.enterVendor
  split
  · refine Sound.ite ?_ ?_
    · exact State.enterRecovery_sound hs
    · exact State.enterSlot_sound ht
  · exact State.enterRecovery_sound ht

theorem State.slotOfVendor_sound {q : List Instr} {s : State} {rcv : Bool} (hs : Sound q s) :
    Sound q (State.slotOfVendor s rcv) := by
  have h := State.pickVendor_sound hs
  unfold State.slotOfVendor
  revert h
  generalize s.pickVendor = r
  intro h
  exact State.enterVendor_sound hs h

theorem State.slotFrom_sound {q : List Instr} {s : State} {b : BootRec} {rcv : Bool} (hs : Sound q s) :
    Sound q (State.slotFrom s b rcv) := by
  unfold State.slotFrom
  refine Sound.ite ?_ ?_
  · exact State.enterRecovery_sound hs
  · refine Sound.ite ?_ ?_
    · exact State.enterRecovery_sound hs
    · refine Sound.ite ?_ ?_
      · exact State.enterRecovery_sound hs
      · exact State.slotOfRecord_sound hs

theorem State.chooseSlot_sound {q : List Instr} {s : State} {rcv : Bool} (hs : Sound q s) :
    Sound q (State.chooseSlot s rcv) := by
  have e0 : @State.chooseSlot = @State.chooseSlot := rfl
  conv at e0 => rhs; delta State.chooseSlot
  rw [e0]
  clear e0
  beta_reduce
  generalize s.bootRec = o
  cases o
  · exact State.slotOfVendor_sound hs
  · exact State.slotFrom_sound (State.showSlots_sound hs)

theorem State.romStart_sound {q : List Instr} {s : State} {f : RomFacts} (hs : Sound q s) :
    Sound q (State.romStart s f) := by
  unfold State.romStart
  extract_lets -merge -useContext +onlyGivenNames v1 v2 v3
  try clear_value v1
  have hv2 : Sound q v2 := by
    unfold v2
    refine State.fieldSample_sound ?_
    exact Sound.upd hs
  try clear_value v2
  have hv3 : Sound q v3 := by
    unfold v3
    refine State.backupCheck_sound ?_
    exact State.wrb_sound hv2
  try clear_value v3
  split
  · rename_i p4 p5 e6
    have hp5 : Sound q p5 := by
      refine Sound.ofSnd e6 ?_
      exact State.selfTest_sound hv3
    refine Sound.ite ?_ ?_
    · exact State.bistFail_sound hp5
    · extract_lets -merge -useContext +onlyGivenNames v7
      have hv7 : Sound q v7 := by
        unfold v7
        refine State.vaultStart_sound ?_
        exact State.wr_sound hp5
      try clear_value v7
      refine Sound.ite ?_ ?_
      · refine State.enterRecovery_sound ?_
        exact State.showSlots_sound hv7
      · exact State.chooseSlot_sound hv7

theorem execModuleResetRelease_sound {q : List Instr} {f : RomFacts} {s : State} (hs : Sound q s) :
    NextSound q (execModuleResetRelease f s) := by
  unfold execModuleResetRelease
  refine NextSound.next ?_
  refine Sound.ite ?_ ?_
  · exact State.romStart_sound hs
  · exact hs

end Sys2Proof.Machine
end

