-- ==== Sys2Proof/Laws/SoundStart.lean ====
section
/-!
SUPPORT. Every operation of Machine/Start.lean keeps the queue and the canonical forms of memory and registers.
-/

namespace Sys2Proof.Machine

theorem State.chooseStart_sound {q : List Instr} {s : State} (hs : Sound q s) :
    Sound q (State.chooseStart s) := by
  unfold State.chooseStart
  extract_lets -merge -useContext +onlyGivenNames v1 v2 v3
  try clear_value v1
  try clear_value v2
  try clear_value v3
  split
  · extract_lets -merge -useContext +onlyGivenNames v4 v5 v6 v7 v8
    have hv4 : Sound q v4 := by
      unfold v4
      refine State.wrb_sound ?_
      exact State.wr_sound hs
    try clear_value v4
    have hv5 : Sound q v5 := by
      unfold v5
      refine State.wrb_sound ?_
      exact State.wrb_sound hv4
    try clear_value v5
    have hv6 : Sound q v6 := by
      unfold v6
      refine State.wr_sound ?_
      exact State.wrb_sound hv5
    try clear_value v6
    have hv7 : Sound q v7 := by
      unfold v7
      exact State.putStartRec_sound hv6
    try clear_value v7
    try clear_value v8
    exact Sound.upd hv7

theorem State.initOwn_sound {q : List Instr} {s : State} (hs : Sound q s) :
    Sound q (State.initOwn s) := by
  unfold State.initOwn
  extract_lets -merge -useContext +onlyGivenNames v1
  try clear_value v1
  refine State.each_sound hs ?_
  intro a2 a3 ha2
  exact State.initRecord_sound ha2

theorem State.applyCfg_sound {q : List Instr} {s : State} {a : ℕ} (hs : Sound q s) :
    Sound q (State.applyCfg s a) := by
  unfold State.applyCfg
  extract_lets -merge -useContext +onlyGivenNames v1 v2 v3
  have hv1 : Sound q v1 := by
    unfold v1
    refine State.each_sound hs ?_
    intro a4 a5 ha4
    exact State.putMem_sound ha4
  try clear_value v1
  have hv2 : Sound q v2 := by
    unfold v2
    refine State.each_sound hv1 ?_
    intro a6 a7 ha6
    split
    · exact State.cfgWrite_sound ha6
  try clear_value v2
  have hv3 : Sound q v3 := by
    unfold v3
    refine State.wr_sound ?_
    exact State.wr_sound hv2
  try clear_value v3
  exact State.initOwn_sound hv3

theorem State.writeMigrated_sound {q : List Instr} {s : State} {k : ℕ} (hs : Sound q s) :
    Sound q (State.writeMigrated s k) := by
  unfold State.writeMigrated
  split
  · extract_lets -merge -useContext +onlyGivenNames v1 v2 v3 v4
    try clear_value v1
    try clear_value v2
    have hv3 : Sound q v3 := by
      unfold v3
      exact State.putBytes_sound hs
    try clear_value v3
    try clear_value v4
    refine State.event_sound ?_
    exact Sound.upd hv3

theorem State.loadCfg_sound {q : List Instr} {s : State} {k : ℕ} (hs : Sound q s) :
    Sound q ((State.loadCfg s k)).2 := by
  unfold State.loadCfg
  split
  · extract_lets -merge -useContext +onlyGivenNames v1 v2 v3 v4 v5 v6 v7 v8
    try clear_value v1
    try clear_value v2
    try clear_value v3
    try clear_value v4
    try clear_value v5
    try clear_value v6
    have hv7 : Sound q v7 := by
      unfold v7
      exact Sound.upd hs
    try clear_value v7
    have hv8 : Sound q v8 := by
      unfold v8
      exact State.wrb_sound hv7
    try clear_value v8
    split
    · try dsimp -zeta only
      exact hs
    · split
      · try dsimp -zeta only
        exact hs
      · try dsimp -zeta only
        refine State.wr_sound ?_
        exact State.applyCfg_sound hv8

theorem State.rewriteJournal_sound {q : List Instr} {s : State} {t : ℕ} {c : ℕ} {data : List Byte} (hs : Sound q s) :
    Sound q (State.rewriteJournal s t c data) := by
  unfold State.rewriteJournal
  extract_lets -merge -useContext +onlyGivenNames v1
  try clear_value v1
  refine State.putBytes_sound ?_
  exact State.putBytes_sound hs

theorem State.restoreTask_sound {q : List Instr} {s : State} {t : ℕ} {mt : ℕ} {found : Option (List Byte × Option ℕ)} (hs : Sound q s) :
    Sound q (State.restoreTask s t mt found) := by
  unfold State.restoreTask
  extract_lets -merge -useContext +onlyGivenNames v1 v2
  try clear_value v1
  try clear_value v2
  split
  · refine State.rewriteJournal_sound ?_
    exact State.write_sound hs
  · exact State.rewriteJournal_sound hs

theorem State.loadMt_sound {q : List Instr} {s : State} {t : ℕ} (hs : Sound q s) :
    Sound q (State.loadMt s t) := by
  unfold State.loadMt
  refine State.setMt_sound ?_
  exact State.wr64_sound hs

theorem State.restoreForces_sound {q : List Instr} {s : State} {warm : Bool} (hs : Sound q s) :
    Sound q (State.restoreForces s warm) := by
  unfold State.restoreForces
  refine Sound.ite ?_ ?_
  · exact State.forcesWarm_sound hs
  · extract_lets -merge -useContext +onlyGivenNames v1 v2
    try clear_value v1
    have hv2 : Sound q v2 := by
      unfold v2
      exact State.forcesCold_sound hs
    try clear_value v2
    refine Sound.ite ?_ ?_
    · exact State.event_sound hv2
    · exact hv2

theorem State.restore_sound {q : List Instr} {s : State} {k : ℕ} (hs : Sound q s) :
    Sound q (State.restore s k) := by
  unfold State.restore
  extract_lets -merge -useContext +onlyGivenNames v1 v2 v3 v4 v5 v6 v7 v8 v9
  try clear_value v1
  try clear_value v2
  try clear_value v3
  have hv4 : Sound q v4 := by
    unfold v4
    exact State.loadMt_sound hs
  try clear_value v4
  have hv5 : Sound q v5 := by
    unfold v5
    refine State.each_sound hv4 ?_
    intro a10 a11 ha10
    exact State.restoreTask_sound ha10
  try clear_value v5
  try clear_value v6
  try clear_value v7
  have hv8 : Sound q v8 := by
    unfold v8
    exact Sound.upd hv5
  try clear_value v8
  have hv9 : Sound q v9 := by
    unfold v9
    refine State.pincUp_sound ?_
    exact State.restoreForces_sound hv8
  try clear_value v9
  exact State.wr_sound hv9

theorem State.pairBegin_sound {q : List Instr} {s : State} (hs : Sound q s) :
    Sound q (State.pairBegin s) := by
  unfold State.pairBegin
  refine Sound.ite ?_ ?_
  · extract_lets -merge -useContext +onlyGivenNames v1
    have hv1 : Sound q v1 := by
      unfold v1
      refine State.enable_sound ?_
      exact State.setRole_sound hs
    try clear_value v1
    refine Sound.ite ?_ ?_
    · exact hv1
    · exact State.setCfgmis_sound hv1
  · exact hs

theorem State.startEvent_sound {q : List Instr} {s : State} {task : ℕ} (hs : Sound q s) :
    Sound q (State.startEvent s task) := by
  unfold State.startEvent
  extract_lets -merge -useContext +onlyGivenNames v1
  try clear_value v1
  refine State.taken_sound ?_
  exact State.event_sound hs

theorem State.startEvents_sound {q : List Instr} {s : State} (hs : Sound q s) :
    Sound q (State.startEvents s) := by
  unfold State.startEvents
  refine State.each_sound ?_ ?_
  · exact State.startEvent_sound hs
  · intro a1 a2 ha1
    exact State.startEvent_sound ha1

theorem State.enableBlocks_sound {q : List Instr} {s : State} (hs : Sound q s) :
    Sound q ((State.enableBlocks s)).2 := by
  unfold State.enableBlocks
  extract_lets -merge -useContext +onlyGivenNames v1 v2 v3 v4
  have hv1 : Sound q v1 := by
    unfold v1
    refine State.pairBegin_sound ?_
    refine State.each_sound hs ?_
    intro a5 a6 ha5
    exact State.enable_sound ha5
  try clear_value v1
  have hv2 : Sound q v2 := by
    unfold v2
    refine State.startEvents_sound ?_
    refine State.outEnable_sound ?_
    exact State.outEnable_sound hv1
  try clear_value v2
  try clear_value v3
  have hv4 : Sound q v4 := by
    unfold v4
    refine Sound.ite ?_ ?_
    · refine State.event_sound ?_
      exact Sound.upd hv2
    · exact hv2
  try clear_value v4
  try dsimp -zeta only
  exact hv4

theorem State.pinActive_sound {q : List Instr} {s : State} (hs : Sound q s) :
    Sound q ((State.pinActive s)).2 := by
  unfold State.pinActive
  extract_lets -merge -useContext +onlyGivenNames v1 v2 v3
  try clear_value v1
  have hv2 : Sound q v2 := by
    unfold v2
    refine State.pinScan_sound ?_
    exact State.hopInit_sound hs
  try clear_value v2
  have hv3 : Sound q v3 := by
    unfold v3
    split
    · exact State.scanDone_sound hv2
    · exact hv2
  try clear_value v3
  try dsimp -zeta only
  exact hv3

theorem State.clearRing_sound {q : List Instr} {s : State} (hs : Sound q s) :
    Sound q (State.clearRing s) := by
  unfold State.clearRing
  extract_lets -merge -useContext +onlyGivenNames v1 v2 v3
  try clear_value v1
  have hv2 : Sound q v2 := by
    unfold v2
    exact State.unlist_sound hs
  try clear_value v2
  try clear_value v3
  refine Sound.ite ?_ ?_
  · exact hs
  · exact Sound.upd hv2

theorem State.beforeLock_sound {q : List Instr} {s : State} (hs : Sound q s) :
    Sound q (State.beforeLock s) := by
  unfold State.beforeLock
  extract_lets -merge -useContext +onlyGivenNames v1 v2 v3
  have hv1 : Sound q v1 := by
    unfold v1
    exact State.putNum_sound hs
  try clear_value v1
  try clear_value v2
  have hv3 : Sound q v3 := by
    unfold v3
    exact State.putStartRec_sound hv1
  try clear_value v3
  exact State.wr_sound hv3

theorem State.cfgFail_sound {q : List Instr} {s : State} (hs : Sound q s) :
    Sound q (State.cfgFail s) := by
  unfold State.cfgFail
  refine State.moduleReset_sound ?_
  refine State.slotBad_sound ?_
  exact State.wr_sound hs

theorem State.runtimeStart_sound {q : List Instr} {s : State} (hs : Sound q s) :
    Sound q (State.runtimeStart s) := by
  unfold State.runtimeStart
  extract_lets -merge -useContext +onlyGivenNames v1 v2 v3 v4 v5 v6
  try clear_value v1
  have hv2 : Sound q v2 := by
    unfold v2
    exact State.chooseStart_sound hs
  try clear_value v2
  have hv3 : Sound q (v3).2 := by
    unfold v3
    exact State.loadCfg_sound hv2
  try clear_value v3
  have hv4 : Sound q v4 := by
    unfold v4
    exact State.clearRing_sound hv3
  try clear_value v4
  have hv5 : Sound q (v5).2 := by
    unfold v5
    refine State.enableBlocks_sound ?_
    exact State.restore_sound hv4
  try clear_value v5
  have hv6 : Sound q (v6).2 := by
    unfold v6
    exact State.pinActive_sound hv5
  try clear_value v6
  refine Sound.ite ?_ ?_
  · exact State.cfgFail_sound hv4
  · refine Sound.ite ?_ ?_
    · exact State.cfgFail_sound hv5
    · refine Sound.ite ?_ ?_
      · exact State.cfgFail_sound hv6
      · exact State.beforeLock_sound hv6

theorem execRuntimeStart_sound {q : List Instr} {s : State} (hs : Sound q s) :
    NextSound q (execRuntimeStart s) := by
  unfold execRuntimeStart
  refine NextSound.next ?_
  refine Sound.ite ?_ ?_
  · exact State.runtimeStart_sound hs
  · exact hs

theorem State.enterService_sound {q : List Instr} {s : State} (hs : Sound q s) :
    Sound q (State.enterService s) := by
  unfold State.enterService
  extract_lets -merge -useContext +onlyGivenNames v1 v2 v3 v4 v5 v6 v7 v8
  try clear_value v1
  have hv2 : Sound q v2 := by
    unfold v2
    exact Sound.upd hs
  try clear_value v2
  have hv3 : Sound q v3 := by
    unfold v3
    exact State.takeOver_sound hv2
  try clear_value v3
  try clear_value v4
  have hv5 : Sound q (v5).2 := by
    unfold v5
    refine State.claim_sound ?_
    exact State.setRole_sound hv2
  try clear_value v5
  have hv6 : Sound q v6 := by
    unfold v6
    refine Sound.ite ?_ ?_
    · exact State.openGate_sound hv5
    · exact hv5
  try clear_value v6
  have hv7 : Sound q v7 := by
    unfold v7
    refine State.enable_sound ?_
    exact State.enable_sound hv6
  try clear_value v7
  try clear_value v8
  refine Sound.ite ?_ ?_
  · refine Sound.ite ?_ ?_
    · refine State.resumeWhenDue_sound ?_
      exact Sound.upd hv3
    · exact hv2
  · refine State.resumeWhenDue_sound ?_
    exact Sound.upd hv7

theorem State.lockSet_sound {q : List Instr} {s : State} (hs : Sound q s) :
    Sound q (State.lockSet s) := by
  unfold State.lockSet
  extract_lets -merge -useContext +onlyGivenNames v1 v2 v3 v4 v5 v6
  have hv1 : Sound q v1 := by
    unfold v1
    exact State.raise_sound hs
  try clear_value v1
  try clear_value v2
  have hv3 : Sound q v3 := by
    unfold v3
    exact State.wr_sound hv1
  try clear_value v3
  have hv4 : Sound q v4 := by
    unfold v4
    exact State.event_sound hv3
  try clear_value v4
  try clear_value v5
  have hv6 : Sound q v6 := by
    unfold v6
    exact Sound.upd hv4
  try clear_value v6
  refine Sound.ite ?_ ?_
  · refine Sound.ite ?_ ?_
    · exact hv6
    · exact State.enterService_sound hv6
  · exact hv1

theorem execSysLockSet_sound {q : List Instr} {s : State} (hs : Sound q s) :
    NextSound q (execSysLockSet s) := by
  unfold execSysLockSet
  refine NextSound.next ?_
  exact State.lockSet_sound hs

theorem execReplicaWaitEnd_sound {q : List Instr} {s : State} (hs : Sound q s) :
    NextSound q (execReplicaWaitEnd s) := by
  unfold execReplicaWaitEnd
  refine NextSound.next ?_
  refine Sound.ite ?_ ?_
  · exact hs
  · refine Sound.ite ?_ ?_
    · exact State.enterService_sound hs
    · refine State.enterService_sound ?_
      exact State.advance_sound hs

theorem execVinWarning_sound {q : List Instr} {r : Rails} {s : State} (hs : Sound q s) :
    NextSound q (execVinWarning r s) := by
  unfold execVinWarning
  refine NextSound.next ?_
  refine State.vinWarning_sound ?_
  refine Sound.ite ?_ ?_
  · exact State.lockSet_sound hs
  · exact hs

theorem execSysRstReset_sound {q : List Instr} {s : State} (hs : Sound q s) :
    NextSound q (execSysRstReset s) := by
  unfold execSysRstReset
  refine NextSound.next ?_
  exact State.moduleReset_sound hs

theorem execSysRstFatal_sound {q : List Instr} {s : State} (hs : Sound q s) :
    NextSound q (execSysRstFatal s) := by
  unfold execSysRstFatal
  refine NextSound.next ?_
  exact State.moduleReset_sound hs

theorem State.wdtKick_sound {q : List Instr} {s : State} (hs : Sound q s) :
    Sound q (State.wdtKick s) := by
  unfold State.wdtKick
  extract_lets -merge -useContext +onlyGivenNames v1 v2
  try clear_value v1
  try clear_value v2
  exact Sound.upd hs

theorem execWdtKick_sound {q : List Instr} {s : State} (hs : Sound q s) :
    NextSound q (execWdtKick s) := by
  unfold execWdtKick
  refine NextSound.next ?_
  exact State.wdtKick_sound hs

theorem execWdtExpiry_sound {q : List Instr} {s : State} (hs : Sound q s) :
    NextSound q (execWdtExpiry s) := by
  unfold execWdtExpiry
  refine NextSound.next ?_
  split
  · refine Sound.ite ?_ ?_
    · refine State.moduleReset_sound ?_
      exact State.advance_sound hs
    · exact hs
  · exact hs

theorem State.mtLoad_sound {q : List Instr} {s : State} (hs : Sound q s) :
    Sound q (State.mtLoad s) := by
  unfold State.mtLoad
  refine Sound.ite ?_ ?_
  · exact hs
  · exact State.setMt_sound hs

theorem execMtLoad_sound {q : List Instr} {s : State} (hs : Sound q s) :
    NextSound q (execMtLoad s) := by
  unfold execMtLoad
  refine NextSound.next ?_
  exact State.mtLoad_sound hs

theorem State.startTick_sound {q : List Instr} {s : State} (hs : Sound q s) :
    Sound q (State.startTick s) := by
  unfold State.startTick
  refine Sound.ite ?_ ?_
  · exact hs
  · extract_lets -merge -useContext +onlyGivenNames v1 v2 v3 v4 v5
    have hv1 : Sound q v1 := by
      unfold v1
      exact State.advance_sound hs
    try clear_value v1
    try clear_value v2
    have hv3 : Sound q v3 := by
      unfold v3
      exact Sound.upd hv1
    try clear_value v3
    try clear_value v4
    have hv5 : Sound q v5 := by
      unfold v5
      exact State.putStartRec_sound hv3
    try clear_value v5
    refine Sound.ite ?_ ?_
    · exact State.writeMigrated_sound hv5
    · exact hv5

theorem execStartRecordWrite_sound {q : List Instr} {s : State} (hs : Sound q s) :
    NextSound q (execStartRecordWrite s) := by
  unfold execStartRecordWrite
  refine NextSound.next ?_
  exact State.startTick_sound hs

end Sys2Proof.Machine
end

