-- ==== Sys2Proof/Laws/SoundAssist.lean ====
section
/-!
SUPPORT. Every operation of Machine/Assist.lean keeps the queue and the canonical forms of memory and registers.
-/

namespace Sys2Proof.Machine

theorem State.useAllowed_sound {q : List Instr} {s : State} {k : ℕ} {act : KeyAct} {openedAssist : State → ℕ → Leat → State} (hs : Sound q s) (hopenedAssist : ∀ x0 x1 x2, Sound q x0 → Sound q (openedAssist x0 x1 x2)) :
    Sound q (State.useAllowed s k act openedAssist) := by
  unfold State.useAllowed
  split
  · refine Sound.ite ?_ ?_
    · exact hopenedAssist _ _ _ hs
    · exact State.gateOpened_sound hs
  · exact State.quenchOpened_sound hs
  · exact State.sealOut_sound hs
  · exact State.keyCount_sound hs

theorem State.takeUse_sound {q : List Instr} {s : State} {seq : ℕ} (hs : Sound q s) :
    Sound q ((State.takeUse s seq)).2 := by
  unfold State.takeUse
  split
  · try dsimp -zeta only
    exact Sound.upd hs
  · try dsimp -zeta only
    exact hs

theorem State.useTurned_sound {q : List Instr} {s : State} {seq : ℕ} (hs : Sound q s) :
    Sound q (State.useTurned s seq) := by
  unfold State.useTurned
  split
  · rename_i p1 p2 e3
    have hp2 : Sound q p2 := by
      refine Sound.ofSnd e3 ?_
      exact State.takeUse_sound hs
    refine State.useDenied_sound ?_
    exact State.useRefused_sound hp2
  · rename_i p4 e5
    have hp4 : Sound q p4 := by
      refine Sound.ofSnd e5 ?_
      exact State.takeUse_sound hs
    exact hp4

theorem State.useGone_sound {q : List Instr} {s : State} {act : KeyAct} (hs : Sound q s) :
    Sound q (State.useGone s act) := by
  unfold State.useGone
  split
  · exact State.refuseNosess_sound hs
  · exact State.refuseNosess_sound hs
  · exact State.useRefused_sound hs

theorem keyResult_sound {q : List Instr} {r : Reaped} {openedAssist : State → ℕ → Leat → State} (hr : Sound q (r).st) (hopenedAssist : ∀ x0 x1 x2, Sound q x0 → Sound q (openedAssist x0 x1 x2)) :
    Sound q (keyResult r openedAssist) := by
  unfold keyResult
  split
  · rename_i p1 p2 e3
    have hp2 : Sound q p2 := by
      refine Sound.ofSnd e3 ?_
      exact State.takeUse_sound hr
    refine Sound.ite ?_ ?_
    · exact State.useGone_sound hp2
    · refine Sound.ite ?_ ?_
      · split
        · rename_i p4 e5
          have hp4 : Sound q p4 := by
            refine Sound.ofSnd e5 ?_
            exact State.keyUse_sound hp2
          exact State.useAllowed_sound hp4 hopenedAssist
        · rename_i p6 p7 _ e8
          have hp7 : Sound q p7 := by
            refine Sound.ofSnd e8 ?_
            exact State.keyUse_sound hp2
          exact State.useDenied_sound hp7
      · refine State.useDenied_sound ?_
        exact State.useRefused_sound hp2
  · rename_i p9 e10
    have hp9 : Sound q p9 := by
      refine Sound.ofSnd e10 ?_
      exact State.takeUse_sound hr
    exact hp9

theorem asnApply_sound {q : List Instr} {b : AsnBlock} {openedAssist : State → ℕ → Leat → State} {r : Reaped} (hopenedAssist : ∀ x0 x1 x2, Sound q x0 → Sound q (openedAssist x0 x1 x2)) (hr : Sound q (r).st) :
    Sound q (asnApply b openedAssist r) := by
  unfold asnApply
  split
  · exact State.hopResult_sound hr
  · exact State.routeResult_sound hr
  · exact State.loopResult_sound hr
  · exact hr
  · exact State.canResult_sound hr
  · exact keyResult_sound hr hopenedAssist
  · refine Sound.ite ?_ ?_
    · exact hr
    · exact State.evtResult_sound hr

theorem State.kick'_sound {q : List Instr} {s : State} {b : AsnBlock} {openedAssist : State → ℕ → Leat → State} (hs : Sound q s) (hopenedAssist : ∀ x0 x1 x2, Sound q x0 → Sound q (openedAssist x0 x1 x2)) :
    Sound q (State.kick' s b openedAssist) := by
  unfold State.kick'
  refine Sound.ite ?_ ?_
  · refine State.asnKick_sound hs ?_
    intro a1 ha1
    exact asnApply_sound hopenedAssist ha1
  · exact hs

theorem State.putResult_sound {q : List Instr} {s : State} {b : AsnBlock} {d : List Byte} (hs : Sound q s) :
    Sound q (State.putResult s b d) := by
  unfold State.putResult
  extract_lets -merge -useContext +onlyGivenNames v1
  try clear_value v1
  refine State.write_sound ?_
  exact State.write_sound hs

theorem State.putRoutes_sound {q : List Instr} {s : State} {b : AsnBlock} {es : List (List Byte)} (hs : Sound q s) :
    Sound q (State.putRoutes s b es) := by
  unfold State.putRoutes
  refine Sound.ite ?_ ?_
  · extract_lets -merge -useContext +onlyGivenNames v1 v2
    try clear_value v1
    try clear_value v2
    exact Sound.upd hs
  · exact hs

theorem State.assistResult_sound {q : List Instr} {s : State} {b : AsnBlock} {pt : List Byte} {openedAssist : State → ℕ → Leat → State} (hs : Sound q s) (hopenedAssist : ∀ x0 x1 x2, Sound q x0 → Sound q (openedAssist x0 x1 x2)) :
    Sound q (State.assistResult s b pt openedAssist) := by
  unfold State.assistResult
  extract_lets -merge -useContext +onlyGivenNames v1 v2 v3
  try clear_value v1
  try clear_value v2
  have hv3 : Sound q v3 := by
    unfold v3
    exact State.putRoutes_sound hs
  try clear_value v3
  refine Sound.ite ?_ ?_
  · exact State.bump_sound hs
  · refine Sound.ite ?_ ?_
    · exact hv3
    · refine State.kick'_sound ?_ hopenedAssist
      exact State.putResult_sound hv3

theorem State.assistOpened_sound {q : List Instr} {s : State} {k : ℕ} {f : Leat} (hs : Sound q s) :
    Sound q (State.assistOpened s k f) := by
  unfold State.assistOpened
  split
  · rename_i p1 e2
    have hp1 : Sound q p1 := by
      refine Sound.ofSnd e2 ?_
      exact State.openFrame_sound hs
    exact hp1
  · rename_i p3 p4 e5
    have hp4 : Sound q p4 := by
      refine Sound.ofSnd e5 ?_
      exact State.openFrame_sound hs
    extract_lets -merge -useContext +onlyGivenNames v6 v7 v8
    try clear_value v6
    try clear_value v7
    have hv8 : Sound q v8 := by
      unfold v8
      exact State.setSess_sound hp4
    try clear_value v8
    refine Sound.ite ?_ ?_
    · exact State.refuseNosess_sound hp4
    · refine Sound.ite ?_ ?_
      · exact State.sendRefuse_sound hv8
      · split
        · exact State.bump_sound hv8
        · refine Sound.ite ?_ ?_
          · refine State.assistResult_sound hv8 ?_
            intro a9 a10 a11 ha9
            exact ha9
          · exact State.sendRefuse_sound hv8

theorem State.assistResultIn_sound {q : List Instr} {s : State} {f : Leat} (hs : Sound q s) :
    Sound q (State.assistResultIn s f) := by
  unfold State.assistResultIn
  extract_lets -merge -useContext +onlyGivenNames v1
  have hv1 : Sound q v1 := by
    unfold v1
    exact State.takeInbox_sound hs
  try clear_value v1
  refine Sound.ite ?_ ?_
  · exact hv1
  · refine Sound.ite ?_ ?_
    · exact State.bump_sound hv1
    · split
      · exact State.refuseNosess_sound hv1
      · split
        · rename_i p2 e3
          have hp2 : Sound q p2 := by
            refine Sound.ofSnd e3 ?_
            exact State.askUse_sound hv1
          exact State.assistOpened_sound hp2
        · rename_i p4 e5
          have hp4 : Sound q p4 := by
            refine Sound.ofSnd e5 ?_
            exact State.askUse_sound hv1
          exact hp4

theorem execAssistResultReceived_sound {q : List Instr} {f : Leat} {s : State} (hs : Sound q s) :
    NextSound q (execAssistResultReceived f s) := by
  unfold execAssistResultReceived
  refine NextSound.next ?_
  exact State.assistResultIn_sound hs

theorem State.asnKicked_sound {q : List Instr} {s : State} {b : AsnBlock} (hs : Sound q s) :
    Sound q (State.asnKicked s b) := by
  unfold State.asnKicked
  refine State.kick'_sound hs ?_
  intro a1 a2 a3 ha1
  exact State.assistOpened_sound ha1

theorem execAssistKick_sound {q : List Instr} {b : AsnBlock} {s : State} (hs : Sound q s) :
    NextSound q (execAssistKick b s) := by
  unfold execAssistKick
  refine NextSound.next ?_
  exact State.asnKicked_sound hs

theorem State.asnFallback_sound {q : List Instr} {s : State} {b : AsnBlock} {p : AsnPost} (hs : Sound q s) :
    Sound q (State.asnFallback s b p) := by
  unfold State.asnFallback
  split
  · exact State.hopTimeout_sound hs
  · exact State.spfBusy_sound hs
  · exact State.loopTimeout_sound hs
  · exact State.sampleGap_sound hs
  · exact State.fltovf_sound hs
  · exact State.useTurned_sound hs
  · exact State.evtResult_sound hs

theorem State.asnExpire_sound {q : List Instr} {s : State} {b : AsnBlock} (hs : Sound q s) :
    Sound q (State.asnExpire s b) := by
  unfold State.asnExpire
  split
  · exact hs
  · split
    · rename_i p1 p2 e3
      have hp2 : Sound q p2 := by
        refine Sound.ofSomeSnd e3 ?_
        refine State.asnTimeout_sound ?_
        exact State.advance_sound hs
      exact State.asnFallback_sound hp2
    · exact hs

theorem execAssistTimeout_sound {q : List Instr} {b : AsnBlock} {s : State} (hs : Sound q s) :
    NextSound q (execAssistTimeout b s) := by
  unfold execAssistTimeout
  refine NextSound.next ?_
  exact State.asnExpire_sound hs

end Sys2Proof.Machine
end

