-- ==== Sys2Proof/Laws/SoundGate.lean ====
section
/-!
SUPPORT. Every operation of Machine/Gate.lean keeps the queue and the canonical forms of memory and registers.
-/

namespace Sys2Proof.Machine

theorem execOpenReceived_sound {q : List Instr} {f : Leat} {s : State} (hs : Sound q s) :
    NextSound q (execOpenReceived f s) := by
  unfold execOpenReceived
  refine NextSound.next ?_
  exact State.gateFrame_sound hs

theorem execConfirmReceived_sound {q : List Instr} {f : Leat} {s : State} (hs : Sound q s) :
    NextSound q (execConfirmReceived f s) := by
  unfold execConfirmReceived
  refine NextSound.next ?_
  exact State.gateFrame_sound hs

theorem execAbandonReceived_sound {q : List Instr} {f : Leat} {s : State} (hs : Sound q s) :
    NextSound q (execAbandonReceived f s) := by
  unfold execAbandonReceived
  refine NextSound.next ?_
  exact State.gateFrame_sound hs

theorem State.pendingOut_sound {q : List Instr} {s : State} {k : ℕ} (hs : Sound q s) :
    Sound q (State.pendingOut s k) := by
  unfold State.pendingOut
  refine Sound.ite ?_ ?_
  · refine State.freeSess_sound ?_
    exact State.advance_sound hs
  · exact hs

theorem execPendingTimeout_sound {q : List Instr} {slot : ℕ} {s : State} (hs : Sound q s) :
    NextSound q (execPendingTimeout slot s) := by
  unfold execPendingTimeout
  refine onUnit_sound ?_
  exact State.pendingOut_sound hs

theorem execSessionRead_sound {q : List Instr} {f : Leat} {s : State} (hs : Sound q s) :
    NextSound q (execSessionRead f s) := by
  unfold execSessionRead
  refine NextSound.next ?_
  exact State.gateFrame_sound hs

theorem execSessionWrite_sound {q : List Instr} {f : Leat} {s : State} (hs : Sound q s) :
    NextSound q (execSessionWrite f s) := by
  unfold execSessionWrite
  refine NextSound.next ?_
  exact State.gateFrame_sound hs

theorem execSessionSub_sound {q : List Instr} {f : Leat} {s : State} (hs : Sound q s) :
    NextSound q (execSessionSub f s) := by
  unfold execSessionSub
  refine NextSound.next ?_
  exact State.gateFrame_sound hs

theorem execSessionUnsub_sound {q : List Instr} {f : Leat} {s : State} (hs : Sound q s) :
    NextSound q (execSessionUnsub f s) := by
  unfold execSessionUnsub
  refine NextSound.next ?_
  exact State.gateFrame_sound hs

theorem execSessionForce_sound {q : List Instr} {f : Leat} {s : State} (hs : Sound q s) :
    NextSound q (execSessionForce f s) := by
  unfold execSessionForce
  refine NextSound.next ?_
  exact State.gateFrame_sound hs

theorem execSessionClose_sound {q : List Instr} {f : Leat} {s : State} (hs : Sound q s) :
    NextSound q (execSessionClose f s) := by
  unfold execSessionClose
  refine NextSound.next ?_
  exact State.gateFrame_sound hs

theorem execEvread_sound {q : List Instr} {f : Leat} {s : State} (hs : Sound q s) :
    NextSound q (execEvread f s) := by
  unfold execEvread
  refine NextSound.next ?_
  exact State.gateFrame_sound hs

theorem execSubPeriodPush_sound {q : List Instr} {slot : ℕ} {s : State} (hs : Sound q s) :
    NextSound q (execSubPeriodPush slot s) := by
  unfold execSubPeriodPush
  refine onUnit_sound ?_
  exact State.pushDue_sound hs

theorem State.idleOut_sound {q : List Instr} {s : State} {k : ℕ} (hs : Sound q s) :
    Sound q (State.idleOut s k) := by
  unfold State.idleOut
  extract_lets -merge -useContext +onlyGivenNames v1
  try clear_value v1
  refine Sound.ite ?_ ?_
  · refine State.expire_sound ?_
    exact State.advance_sound hs
  · exact hs

theorem execSessionIdleExpiry_sound {q : List Instr} {slot : ℕ} {s : State} (hs : Sound q s) :
    NextSound q (execSessionIdleExpiry slot s) := by
  unfold execSessionIdleExpiry
  refine onUnit_sound ?_
  exact State.idleOut_sound hs

theorem State.lifeOut_sound {q : List Instr} {s : State} {k : ℕ} (hs : Sound q s) :
    Sound q (State.lifeOut s k) := by
  unfold State.lifeOut
  extract_lets -merge -useContext +onlyGivenNames v1
  try clear_value v1
  refine Sound.ite ?_ ?_
  · refine State.expire_sound ?_
    exact State.advance_sound hs
  · exact hs

theorem execSessionLifetimeExpiry_sound {q : List Instr} {slot : ℕ} {s : State} (hs : Sound q s) :
    NextSound q (execSessionLifetimeExpiry slot s) := by
  unfold execSessionLifetimeExpiry
  refine onUnit_sound ?_
  exact State.lifeOut_sound hs

theorem State.expiredOut_sound {q : List Instr} {s : State} {k : ℕ} (hs : Sound q s) :
    Sound q (State.expiredOut s k) := by
  unfold State.expiredOut
  extract_lets -merge -useContext +onlyGivenNames v1
  try clear_value v1
  refine Sound.ite ?_ ?_
  · refine State.freeSess_sound ?_
    exact State.advance_sound hs
  · exact hs

theorem execExpiredSlotFree_sound {q : List Instr} {slot : ℕ} {s : State} (hs : Sound q s) :
    NextSound q (execExpiredSlotFree slot s) := by
  unfold execExpiredSlotFree
  refine onUnit_sound ?_
  exact State.expiredOut_sound hs

theorem State.revoke_sound {q : List Instr} {s : State} {t : ℕ} (hs : Sound q s) :
    Sound q (State.revoke s t) := by
  unfold State.revoke
  extract_lets -merge -useContext +onlyGivenNames v1 v2
  try clear_value v1
  have hv2 : Sound q v2 := by
    unfold v2
    exact State.writeNum_sound hs
  try clear_value v2
  refine State.tcmdDone_sound ?_
  exact State.closeTenant_sound hv2

theorem execTenantRevoke_sound {q : List Instr} {t : ℕ} {s : State} (hs : Sound q s) :
    NextSound q (execTenantRevoke t s) := by
  unfold execTenantRevoke
  refine onUnit_sound ?_
  exact State.revoke_sound hs

theorem execTenantCloseall_sound {q : List Instr} {t : ℕ} {s : State} (hs : Sound q s) :
    NextSound q (execTenantCloseall t s) := by
  unfold execTenantCloseall
  refine onUnit_sound ?_
  refine State.tcmdDone_sound ?_
  exact State.closeTenant_sound hs

theorem execSlotClose_sound {q : List Instr} {s : State} (hs : Sound q s) :
    NextSound q (execSlotClose s) := by
  unfold execSlotClose
  refine NextSound.next ?_
  exact State.closeSess_sound hs

theorem execAuthQuenchReceived_sound {q : List Instr} {p : ℕ} {f : Leat} {s : State} (hs : Sound q s) :
    NextSound q (execAuthQuenchReceived p f s) := by
  unfold execAuthQuenchReceived
  refine onUnit_sound ?_
  exact State.authQuenchIn_sound hs

end Sys2Proof.Machine
end

