-- ==== Sys2Proof/Laws/SoundScrub.lean ====
section
/-!
SUPPORT. Every operation of Machine/Scrub.lean keeps the queue and the canonical forms of memory and registers.
-/

namespace Sys2Proof.Machine

theorem State.scrubDram_sound {q : List Instr} {s : State} {w : ℕ} (hs : Sound q s) :
    Sound q (State.scrubDram s w) := by
  unfold State.scrubDram
  extract_lets -merge -useContext +onlyGivenNames v1 v2 v3
  have hv1 : Sound q (v1).st := by
    unfold v1
    exact State.readWord_sound hs
  try clear_value v1
  have hv2 : Sound q v2 := by
    unfold v2
    exact hv1
  try clear_value v2
  try clear_value v3
  refine Sound.ite ?_ ?_
  · exact State.askRefetch_sound hv2
  · exact hv2

theorem execDramScrubBurst_sound {q : List Instr} {s : State} (hs : Sound q s) :
    NextSound q (execDramScrubBurst s) := by
  unfold execDramScrubBurst
  refine NextSound.next ?_
  refine Sound.ite ?_ ?_
  · exact hs
  · extract_lets -merge -useContext +onlyGivenNames v1 v2 v3
    try clear_value v1
    try clear_value v2
    have hv3 : Sound q v3 := by
      unfold v3
      refine State.each_sound hs ?_
      intro a4 a5 ha4
      exact State.scrubDram_sound ha4
    try clear_value v3
    exact State.wr_sound hv3

theorem State.txResume_sound {q : List Instr} {s : State} {fs : List (Leat × Option ℕ)} (hs : Sound q s) :
    Sound q (State.txResume s fs) := by
  unfold State.txResume
  refine State.each_sound hs ?_
  intro a1 a2 ha1
  split
  · exact State.txIn_sound ha1

theorem execEgressReleaseFabtx_sound {q : List Instr} {s : State} (hs : Sound q s) :
    NextSound q (execEgressReleaseFabtx s) := by
  unfold execEgressReleaseFabtx
  refine NextSound.next ?_
  refine Sound.ite ?_ ?_
  · exact hs
  · extract_lets -merge -useContext +onlyGivenNames v1 v2 v3
    try clear_value v1
    try clear_value v2
    have hv3 : Sound q v3 := by
      unfold v3
      exact Sound.upd hs
    try clear_value v3
    refine State.txResume_sound ?_
    exact State.clear_sound hv3

end Sys2Proof.Machine
end

