-- ==== Sys2Proof/Laws/SoundBus.lean ====
section
/-!
SUPPORT. Every operation of Machine/Bus.lean keeps the queue and the canonical forms of memory and registers.
-/

namespace Sys2Proof.Machine

theorem State.obey_sound {q : List Instr} {s : State} {f : State → Host.Outcome State Fault Refusal} (hs : Sound q s) (hf : ∀ x0, Sound q x0 → NextSound q (f x0)) :
    Sound q (State.obey s f) := by
  unfold State.obey
  split
  · rename_i p1 e2
    have hp1 : Sound q p1 := by
      refine Sound.ofNext e2 ?_
      exact hf _ hs
    exact hp1
  · exact hs
  · exact hs

theorem State.obeyIf_sound {q : List Instr} {s : State} {v : Word} {bit : ℕ} {f : State → Host.Outcome State Fault Refusal} (hs : Sound q s) (hf : ∀ x0, Sound q x0 → NextSound q (f x0)) :
    Sound q (State.obeyIf s v bit f) := by
  unfold State.obeyIf
  refine Sound.ite ?_ ?_
  · exact State.obey_sound hs hf
  · exact hs

theorem State.obeyBit_sound {q : List Instr} {s : State} {v : Word} {bit : ℕ} {set : State → Host.Outcome State Fault Refusal} {clear : State → Host.Outcome State Fault Refusal} (hs : Sound q s) (hset : ∀ x0, Sound q x0 → NextSound q (set x0)) (hclear : ∀ x0, Sound q x0 → NextSound q (clear x0)) :
    Sound q (State.obeyBit s v bit set clear) := by
  unfold State.obeyBit
  refine Sound.ite ?_ ?_
  · exact State.obey_sound hs hset
  · exact State.obey_sound hs hclear

theorem State.obeyLevel_sound {q : List Instr} {s : State} {v : Word} {f : Fld} {set : State → Host.Outcome State Fault Refusal} {clear : State → Host.Outcome State Fault Refusal} (hs : Sound q s) (hset : ∀ x0, Sound q x0 → NextSound q (set x0)) (hclear : ∀ x0, Sound q x0 → NextSound q (clear x0)) :
    Sound q (State.obeyLevel s v f set clear) := by
  unfold State.obeyLevel
  refine Sound.ite ?_ ?_
  · exact hs
  · refine Sound.ite ?_ ?_
    · exact State.obey_sound hs hclear
    · exact State.obey_sound hs hset

theorem State.ctrlWrite_sound {q : List Instr} {s : State} {u' : UnitId} {v : Word} (hs : Sound q s) :
    Sound q (State.ctrlWrite s u' v) := by
  unfold State.ctrlWrite
  extract_lets -merge -useContext +onlyGivenNames v1
  have hv1 : Sound q v1 := by
    unfold v1
    split
    · exact State.modeWrite_sound hs
    · exact hs
  try clear_value v1
  refine State.obeyBit_sound hv1 ?_ ?_
  · intro a2 ha2
    exact execBlockEnable_sound ha2
  · intro a3 ha3
    exact execBlockDisable_sound ha3

theorem State.obeySch_sound {q : List Instr} {s : State} {m : ℕ} {a : ℕ} {v : Word} (hs : Sound q s) :
    Sound q (State.obeySch s m a v) := by
  unfold State.obeySch
  refine Sound.ite ?_ ?_
  · refine State.obeyIf_sound ?_ ?_
    · refine State.obeyIf_sound ?_ ?_
      · refine State.obeyIf_sound hs ?_
        intro a1 ha1
        exact execSwitchCancel_sound ha1
      · intro a2 ha2
        exact execSwitchArm_sound ha2
    · intro a3 ha3
      exact execSwitchGo_sound ha3
  · refine Sound.ite ?_ ?_
    · refine State.obeyIf_sound hs ?_
      intro a4 ha4
      exact execSchDone_sound ha4
    · refine Sound.ite ?_ ?_
      · refine State.obeyIf_sound hs ?_
        intro a5 ha5
        exact execSchAbort_sound ha5
      · split
        · refine Sound.ite ?_ ?_
          · refine State.obey_sound hs ?_
            intro a6 ha6
            exact execTaskStop_sound ha6
          · refine State.obeyIf_sound hs ?_
            intro a7 ha7
            exact execTaskStart_sound ha7
        · exact hs

theorem State.obeyImg_sound {q : List Instr} {s : State} {a : ℕ} {v : Word} (hs : Sound q s) :
    Sound q (State.obeyImg s a v) := by
  unfold State.obeyImg
  refine Sound.ite ?_ ?_
  · refine Sound.ite ?_ ?_
    · split
      · refine State.obey_sound hs ?_
        intro a1 ha1
        exact execForceSet_sound ha1
      · refine State.obey_sound hs ?_
        intro a2 ha2
        exact execForceClear_sound ha2
      · refine State.obey_sound hs ?_
        intro a3 ha3
        exact execForceClearall_sound ha3
      · exact hs
    · exact hs
  · split
    · refine State.obeyLevel_sound hs ?_ ?_
      · intro a4 ha4
        exact execStationEnable_sound ha4
      · intro a5 ha5
        exact execStationDisable_sound ha5
    · split
      · refine State.obeyIf_sound ?_ ?_
        · refine State.obeyIf_sound hs ?_
          intro a6 ha6
          exact execStationRearm_sound ha6
        · intro a7 ha7
          exact execStationProbe_sound ha7
      · exact hs

theorem State.obeyHop_sound {q : List Instr} {s : State} {a : ℕ} {v : Word} (hs : Sound q s) :
    Sound q (State.obeyHop s a v) := by
  unfold State.obeyHop
  refine Sound.ite ?_ ?_
  · extract_lets -merge -useContext +onlyGivenNames v1
    try clear_value v1
    refine Sound.ite ?_ ?_
    · split
      · refine State.obey_sound hs ?_
        intro a2 ha2
        exact execPinscan_sound ha2
      · refine State.obey_sound hs ?_
        intro a3 ha3
        exact execUnpin_sound ha3
      · exact hs
    · exact hs
  · split
    · refine Sound.ite ?_ ?_
      · split
        · refine State.obey_sound hs ?_
          intro a4 ha4
          exact execLookupRead_sound ha4
        · refine State.obey_sound hs ?_
          intro a5 ha5
          exact execLookupTouch_sound ha5
        · exact hs
      · exact hs
    · exact hs

theorem State.obeyGate_sound {q : List Instr} {s : State} {a : ℕ} {v : Word} (hs : Sound q s) :
    Sound q (State.obeyGate s a v) := by
  unfold State.obeyGate
  refine Sound.ite ?_ ?_
  · extract_lets -merge -useContext +onlyGivenNames v1
    try clear_value v1
    refine Sound.ite ?_ ?_
    · split
      · refine State.obey_sound hs ?_
        intro a2 ha2
        exact execTenantRevoke_sound ha2
      · refine State.obey_sound hs ?_
        intro a3 ha3
        exact execTenantCloseall_sound ha3
      · exact hs
    · exact hs
  · refine Sound.ite ?_ ?_
    · refine State.obeyIf_sound hs ?_
      intro a4 ha4
      exact execSlotClose_sound ha4
    · exact hs

theorem State.obeyMtr_sound {q : List Instr} {s : State} {a : ℕ} {v : Word} (hs : Sound q s) :
    Sound q (State.obeyMtr s a v) := by
  unfold State.obeyMtr
  extract_lets -merge -useContext +onlyGivenNames v1
  try clear_value v1
  refine Sound.ite ?_ ?_
  · split
    · refine State.obey_sound hs ?_
      intro a2 ha2
      exact execMeterClear_sound ha2
    · refine State.obey_sound hs ?_
      intro a3 ha3
      exact execMeterCkpt_sound ha3
    · refine State.obey_sound hs ?_
      intro a4 ha4
      exact execMeterRestore_sound ha4
    · refine State.obey_sound hs ?_
      intro a5 ha5
      exact execCalapply_sound ha5
    · exact hs
  · exact hs

theorem State.obeyDio_sound {q : List Instr} {s : State} {a : ℕ} {v : Word} (hs : Sound q s) :
    Sound q (State.obeyDio s a v) := by
  unfold State.obeyDio
  refine Sound.ite ?_ ?_
  · refine State.obeyLevel_sound ?_ ?_ ?_
    · refine State.obeyLevel_sound hs ?_ ?_
      · intro a1 ha1
        exact execOutputEnable_sound ha1
      · intro a2 ha2
        exact execOutputDisable_sound ha2
    · intro a3 ha3
      exact execReflexEnable_sound ha3
    · intro a4 ha4
      exact execReflexDisable_sound ha4
  · refine Sound.ite ?_ ?_
    · refine State.obeyIf_sound hs ?_
      intro a5 ha5
      exact execKick_sound ha5
    · refine Sound.ite ?_ ?_
      · extract_lets -merge -useContext +onlyGivenNames v6
        try clear_value v6
        refine Sound.ite ?_ ?_
        · split
          · refine State.obey_sound hs ?_
            intro a7 ha7
            exact execDoResume_sound ha7
          · refine State.obey_sound hs ?_
            intro a8 ha8
            exact execDoResumeall_sound ha8
          · refine State.obey_sound hs ?_
            intro a9 ha9
            exact execDoOcclr_sound ha9
          · refine State.obey_sound hs ?_
            intro a10 ha10
            exact execOutputReload_sound ha10
          · exact hs
        · exact hs
      · split
        · refine State.obey_sound hs ?_
          intro a11 ha11
          exact execReflexArm_sound ha11
        · split
          · refine State.obey_sound hs ?_
            intro a12 ha12
            exact execReflexDisarm_sound ha12
          · split
            · refine Sound.ite ?_ ?_
              · refine State.obey_sound hs ?_
                intro a13 ha13
                exact execCounterLoad_sound ha13
              · refine State.obeyIf_sound hs ?_
                intro a14 ha14
                exact execCounterClear_sound ha14
            · exact hs

theorem State.obeyAio_sound {q : List Instr} {s : State} {a : ℕ} {v : Word} (hs : Sound q s) :
    Sound q (State.obeyAio s a v) := by
  unfold State.obeyAio
  refine Sound.ite ?_ ?_
  · refine State.obeyLevel_sound hs ?_ ?_
    · intro a1 ha1
      exact execOutputEnable_sound ha1
    · intro a2 ha2
      exact execOutputDisable_sound ha2
  · refine Sound.ite ?_ ?_
    · extract_lets -merge -useContext +onlyGivenNames v3
      try clear_value v3
      refine Sound.ite ?_ ?_
      · split
        · refine State.obey_sound hs ?_
          intro a4 ha4
          exact execDoResume_sound ha4
        · refine State.obey_sound hs ?_
          intro a5 ha5
          exact execDoResumeall_sound ha5
        · refine State.obey_sound hs ?_
          intro a6 ha6
          exact execOutputReload_sound ha6
        · exact hs
      · exact hs
    · exact hs

theorem State.obeyCan_sound {q : List Instr} {s : State} {c : ℕ} {o : ℕ} {v : Word} (hs : Sound q s) :
    Sound q (State.obeyCan s c o v) := by
  unfold State.obeyCan
  refine Sound.ite ?_ ?_
  · refine Sound.ite ?_ ?_
    · split
      · refine State.obey_sound hs ?_
        intro a1 ha1
        exact execCanSleep_sound ha1
      · refine State.obey_sound hs ?_
        intro a2 ha2
        exact execCanWake_sound ha2
      · refine State.obey_sound hs ?_
        intro a3 ha3
        exact execCanBorecov_sound ha3
      · refine State.obey_sound hs ?_
        intro a4 ha4
        exact execCanTxresume_sound ha4
      · refine State.obey_sound hs ?_
        intro a5 ha5
        exact execCanAbortall_sound ha5
      · exact hs
    · exact hs
  · refine Sound.ite ?_ ?_
    · refine Sound.ite ?_ ?_
      · refine State.obey_sound hs ?_
        intro a6 ha6
        exact execCanRxLock_sound ha6
      · refine State.obey_sound hs ?_
        intro a7 ha7
        exact execCanRxRelease_sound ha7
    · split
      · refine State.obey_sound hs ?_
        intro a8 ha8
        exact execCanTxRequest_sound ha8
      · split
        · refine State.obey_sound hs ?_
          intro a9 ha9
          exact execCanTxCancel_sound ha9
        · split
          · refine State.obey_sound hs ?_
            intro a10 ha10
            exact execCanRxnewFree_sound ha10
          · exact hs

theorem State.obeyMem_sound {q : List Instr} {s : State} {a : ℕ} {v : Word} (hs : Sound q s) :
    Sound q (State.obeyMem s a v) := by
  unfold State.obeyMem
  refine Sound.ite ?_ ?_
  · refine State.obeyIf_sound ?_ ?_
    · refine State.obeyIf_sound hs ?_
      intro a1 ha1
      exact execEgressReleaseFabtx_sound ha1
    · intro a2 ha2
      exact execEgressReleaseMirror_sound ha2
  · refine Sound.ite ?_ ?_
    · extract_lets -merge -useContext +onlyGivenNames v3
      try clear_value v3
      split
      · refine State.obey_sound hs ?_
        intro a4 ha4
        exact execInjectOdd_sound ha4
      · refine State.obey_sound hs ?_
        intro a5 ha5
        exact execInjectEven_sound ha5
      · refine State.obey_sound hs ?_
        intro a6 ha6
        exact execInjectPar_sound ha6
      · refine State.obey_sound hs ?_
        intro a7 ha7
        exact execInjectTag_sound ha7
      · refine State.obey_sound hs ?_
        intro a8 ha8
        exact execInjectPoison_sound ha8
      · refine State.obey_sound hs ?_
        intro a9 ha9
        exact execInjectDouble_sound ha9
      · exact hs
    · exact hs

theorem State.obeyKey_sound {q : List Instr} {s : State} {a : ℕ} {v : Word} (hs : Sound q s) :
    Sound q (State.obeyKey s a v) := by
  unfold State.obeyKey
  refine Sound.ite ?_ ?_
  · refine State.obey_sound hs ?_
    intro a1 ha1
    exact execKeyCqtailWrite_sound ha1
  · refine Sound.ite ?_ ?_
    · extract_lets -merge -useContext +onlyGivenNames v2
      try clear_value v2
      refine Sound.ite ?_ ?_
      · split
        · refine State.obey_sound hs ?_
          intro a3 ha3
          exact execKeyInval_sound ha3
        · refine State.obey_sound hs ?_
          intro a4 ha4
          exact execKeyErase_sound ha4
        · exact hs
      · exact hs
    · refine Sound.ite ?_ ?_
      · refine State.obeyIf_sound ?_ ?_
        · refine State.obeyIf_sound hs ?_
          intro a5 ha5
          exact execTamperAck_sound ha5
        · intro a6 ha6
          exact execZeroize_sound ha6
      · refine Sound.ite ?_ ?_
        · exact State.raise_sound hs
        · exact hs

theorem State.obeyEvt_sound {q : List Instr} {s : State} {m : ℕ} {a : ℕ} {v : Word} (hs : Sound q s) :
    Sound q (State.obeyEvt s m a v) := by
  unfold State.obeyEvt
  refine Sound.ite ?_ ?_
  · split
    · refine State.obey_sound hs ?_
      intro a1 ha1
      exact execEvtClear_sound ha1
    · refine State.obey_sound hs ?_
      intro a2 ha2
      exact execEvtFlush_sound ha2
    · exact hs
  · refine Sound.ite ?_ ?_
    · refine State.obeyIf_sound hs ?_
      intro a3 ha3
      exact execSwPost_sound ha3
    · exact hs

theorem State.obeyPair_sound {q : List Instr} {s : State} {a : ℕ} {v : Word} (hs : Sound q s) :
    Sound q (State.obeyPair s a v) := by
  unfold State.obeyPair
  refine Sound.ite ?_ ?_
  · split
    · refine State.obey_sound hs ?_
      intro a1 ha1
      exact execPairSwitchover_sound ha1
    · refine State.obey_sound hs ?_
      intro a2 ha2
      exact execPairResync_sound ha2
    · refine State.obey_sound hs ?_
      intro a3 ha3
      exact execPairDemote_sound ha3
    · exact hs
  · exact hs

theorem State.obeyUpd_sound {q : List Instr} {s : State} {a : ℕ} {v : Word} (hs : Sound q s) :
    Sound q (State.obeyUpd s a v) := by
  unfold State.obeyUpd
  extract_lets -merge -useContext +onlyGivenNames v1
  try clear_value v1
  refine Sound.ite ?_ ?_
  · split
    · refine State.obey_sound hs ?_
      intro a2 ha2
      exact execUpdErase_sound ha2
    · refine State.obey_sound hs ?_
      intro a3 ha3
      exact execUpdVerify_sound ha3
    · refine State.obey_sound hs ?_
      intro a4 ha4
      exact execUpdStage_sound ha4
    · refine State.obey_sound hs ?_
      intro a5 ha5
      exact execUpdUnstage_sound ha5
    · refine State.obey_sound hs ?_
      intro a6 ha6
      exact execUpdActivate_sound ha6
    · refine State.obey_sound hs ?_
      intro a7 ha7
      exact execUpdConfirm_sound ha7
    · refine State.obey_sound hs ?_
      intro a8 ha8
      exact execUpdRecover_sound ha8
    · refine State.obey_sound hs ?_
      intro a9 ha9
      exact execUpdCommit_sound ha9
    · refine State.obey_sound hs ?_
      intro a10 ha10
      exact execUpdAbort_sound ha10
    · exact hs
  · exact hs

theorem State.obeySys_sound {q : List Instr} {s : State} {a : ℕ} {v : Word} (hs : Sound q s) :
    Sound q (State.obeySys s a v) := by
  unfold State.obeySys
  refine Sound.ite ?_ ?_
  · split
    · refine State.obey_sound hs ?_
      intro a1 ha1
      exact execTestbrake_sound ha1
    · refine State.obey_sound hs ?_
      intro a2 ha2
      exact execHalt_sound ha2
    · exact hs
  · refine Sound.ite ?_ ?_
    · split
      · refine State.obey_sound hs ?_
        intro a3 ha3
        exact execRtcSet_sound ha3
      · refine State.obey_sound hs ?_
        intro a4 ha4
        exact execRtcSync_sound ha4
      · refine State.obey_sound hs ?_
        intro a5 ha5
        exact execBbinit_sound ha5
      · exact hs
    · refine Sound.ite ?_ ?_
      · refine State.obeyIf_sound hs ?_
        intro a6 ha6
        exact execSysLockSet_sound ha6
      · refine Sound.ite ?_ ?_
        · split
          · refine State.obey_sound hs ?_
            intro a7 ha7
            exact execSysRstReset_sound ha7
          · refine State.obey_sound hs ?_
            intro a8 ha8
            exact execSysRstFatal_sound ha8
          · exact hs
        · refine Sound.ite ?_ ?_
          · refine State.obeyIf_sound hs ?_
            intro a9 ha9
            exact execWdtKick_sound ha9
          · refine Sound.ite ?_ ?_
            · refine State.obeyIf_sound hs ?_
              intro a10 ha10
              exact execMtLoad_sound ha10
            · exact hs

theorem State.obeyWord_sound {q : List Instr} {s : State} {m : ℕ} {a : ℕ} {v : Word} (hs : Sound q s) :
    Sound q (State.obeyWord s m a v) := by
  unfold State.obeyWord
  split
  · exact State.ctrlWrite_sound hs
  · split
    · refine State.obeyIf_sound hs ?_
      intro a1 ha1
      exact execAssistKick_sound ha1
    · split
      · exact State.obeySch_sound hs
      · exact State.obeyImg_sound hs
      · exact State.obeyHop_sound hs
      · exact State.obeyMem_sound hs
      · refine Sound.ite ?_ ?_
        · refine State.obeyIf_sound hs ?_
          intro a2 ha2
          exact execMbxSend_sound ha2
        · exact hs
      · exact State.obeyGate_sound hs
      · exact State.obeyMtr_sound hs
      · exact State.obeyDio_sound hs
      · exact State.obeyAio_sound hs
      · exact State.obeyCan_sound hs
      · exact State.obeyKey_sound hs
      · exact State.obeyEvt_sound hs
      · exact State.obeyPair_sound hs
      · exact State.obeyUpd_sound hs
      · exact State.obeySys_sound hs

theorem State.regWrite_sound {q : List Instr} {s : State} {m : ℕ} {a : ℕ} {v : Word} (hs : Sound q s) :
    Sound q (State.regWrite s m a v) := by
  unfold State.regWrite
  refine Sound.ite ?_ ?_
  · exact hs
  · extract_lets -merge -useContext +onlyGivenNames v1
    have hv1 : Sound q v1 := by
      unfold v1
      exact State.unlatch_sound hs
    try clear_value v1
    split
    · rename_i p2 e3
      have hp2 : Sound q p2 := by
        refine Sound.ofSome e3 ?_
        exact State.handler_sound hv1
      exact hp2
    · refine State.obeyWord_sound ?_
      exact State.plainWrite_sound hv1

theorem execRegisterWrite_sound {q : List Instr} {m : ℕ} {a : ℕ} {v : Word} {s : State} (hs : Sound q s) :
    NextSound q (execRegisterWrite m a v s) := by
  unfold execRegisterWrite
  refine onUnit_sound ?_
  exact State.regWrite_sound hs

end Sys2Proof.Machine
end

