-- ==== Sys2Proof/Laws/SoundCores.lean ====
section
/-!
SUPPORT. Every operation of Machine/Cores.lean keeps the queue and the canonical forms of memory and registers.
-/

namespace Sys2Proof.Machine

theorem State.trap_sound {q : List Instr} {s : State} {c : ℕ} {cause : ℕ} {a : ℕ} (hs : Sound q s) :
    Sound q (State.trap s c cause a) := by
  unfold State.trap
  extract_lets -merge -useContext +onlyGivenNames v1
  try clear_value v1
  exact State.setHart_sound hs

theorem State.illegal_sound {q : List Instr} {s : State} {c : ℕ} (hs : Sound q s) :
    Sound q (State.illegal s c) := by
  unfold State.illegal
  refine State.taken_sound ?_
  exact State.trap_sound hs

theorem State.vendorCsr_sound {q : List Instr} {s : State} {c : ℕ} {t : State} (hs : Sound q s) (ht : Sound q t) :
    Sound q (State.vendorCsr s c t) := by
  unfold State.vendorCsr
  refine Sound.ite ?_ ?_
  · exact State.illegal_sound hs
  · exact ht

theorem State.poisonTrap_sound {q : List Instr} {s : State} {c : ℕ} {k : MemKind} {a : ℕ} {w : ℕ} {new : Bool} {lanes : BitVec 8} (hs : Sound q s) :
    Sound q (State.poisonTrap s c k a w new lanes) := by
  unfold State.poisonTrap
  extract_lets -merge -useContext +onlyGivenNames v1 v2 v3 v4
  try clear_value v1
  try clear_value v2
  try clear_value v3
  have hv4 : Sound q v4 := by
    unfold v4
    exact State.setHart_sound hs
  try clear_value v4
  exact State.trap_sound hv4

theorem State.setLine_sound {q : List Instr} {s : State} {fetch : Bool} {key : ℕ} {x3 : Option CacheLine} (hs : Sound q s) :
    Sound q (State.setLine s fetch key x3) := by
  unfold State.setLine
  refine Sound.ite ?_ ?_
  · exact Sound.upd hs
  · exact Sound.upd hs

theorem State.fillWords_sound {q : List Instr} {s : State} {c : ℕ} {w : ℕ} {a : ℕ} (hs : Sound q s) :
    Sound q ((State.fillWords s c w a)).2 := by
  unfold State.fillWords
  split
  · try dsimp -zeta only
    exact hs
  · extract_lets -merge -useContext +onlyGivenNames v1
    have hv1 : Sound q (v1).st := by
      unfold v1
      exact State.readWord_sound hs
    try clear_value v1
    split
    · rename_i p2 p3 e4
      have hp3 : Sound q p3 := by
        refine Sound.ofSnd e4 ?_
        exact State.fillWords_sound hv1
      try dsimp -zeta only
      exact hp3

theorem State.openLine_sound {q : List Instr} {s : State} {c : ℕ} {fetch : Bool} {p : ℕ} (hs : Sound q s) :
    Sound q (((State.openLine s c fetch p)).2).2 := by
  unfold State.openLine
  split
  · try dsimp -zeta only
    try dsimp -zeta only
    exact hs
  · split
    · rename_i p1 p2 e3
      have hp2 : Sound q p2 := by
        refine Sound.ofSnd e3 ?_
        exact State.fillWords_sound hs
      extract_lets -merge -useContext +onlyGivenNames v4
      try clear_value v4
      try dsimp -zeta only
      try dsimp -zeta only
      exact State.setLine_sound hp2

theorem State.lineBack_sound {q : List Instr} {s : State} {c : ℕ} {key : ℕ} {x3 : CacheLine} (hs : Sound q s) :
    Sound q (State.lineBack s c key x3) := by
  unfold State.lineBack
  refine Sound.ite ?_ ?_
  · exact hs
  · extract_lets -merge -useContext +onlyGivenNames v1
    try clear_value v1
    refine State.each_sound hs ?_
    intro a2 a3 ha2
    extract_lets -merge -useContext +onlyGivenNames v4
    try clear_value v4
    refine Sound.ite ?_ ?_
    · exact State.writePoison_sound ha2
    · refine State.write_sound ?_
      exact State.settleAt_sound ha2

theorem State.dropLine_sound {q : List Instr} {s : State} {fetch : Bool} {key : ℕ} (hs : Sound q s) :
    Sound q (State.dropLine s fetch key) := by
  unfold State.dropLine
  split
  · refine State.setLine_sound ?_
    exact State.lineBack_sound hs
  · exact hs

theorem State.evictSome_sound {q : List Instr} {s : State} {c : ℕ} {fetch : Bool} (hs : Sound q s) :
    Sound q (State.evictSome s c fetch) := by
  unfold State.evictSome
  extract_lets -merge -useContext +onlyGivenNames v1 v2
  try clear_value v1
  have hv2 : Sound q v2 := by
    unfold v2
    split
    · refine Sound.ite ?_ ?_
      · exact State.dropLine_sound hs
      · exact hs
    · exact hs
  try clear_value v2
  exact State.taken_sound hv2

theorem State.coreWord_sound {q : List Instr} {s : State} {c : ℕ} {fetch : Bool} {w : ℕ} (hs : Sound q s) :
    Sound q (State.coreWord s c fetch w).st := by
  have e0 : @State.coreWord = @State.coreWord := rfl
  conv at e0 => rhs; delta State.coreWord
  rw [e0]
  clear e0
  beta_reduce
  split
  · exact State.readStripe_sound hs
  · split
    · have h := State.openLine_sound (c := c) (fetch := fetch) (p := 8 * w) hs
      revert h
      generalize s.openLine c fetch (8 * w) = r
      intro h
      obtain ⟨x, ws, t⟩ := r
      exact State.evictSome_sound h
    · exact State.readWord_sound hs

theorem State.coreRead_sound {q : List Instr} {s : State} {c : ℕ} {fetch : Bool} {a : ℕ} {n : ℕ} (hs : Sound q s) :
    Sound q ((State.coreRead s c fetch a n)).st := by
  unfold State.coreRead
  refine foldl_keep (P := fun (x : Fetched) => Sound q (x).st) ?_ ?_
  · intro a1 a2 ha1
    beta_reduce at *
    extract_lets -merge -useContext +onlyGivenNames v3 v4 v5
    try clear_value v3
    have hv4 : Sound q (v4).st := by
      unfold v4
      exact State.coreWord_sound ha1
    try clear_value v4
    try clear_value v5
    try dsimp -zeta only
    exact hv4
  · try dsimp -zeta only
    exact hs

theorem State.breakResv_sound {q : List Instr} {s : State} {c : ℕ} {p : ℕ} {n : ℕ} (hs : Sound q s) :
    Sound q (State.breakResv s c p n) := by
  unfold State.breakResv
  refine State.each_sound hs ?_
  intro a1 a2 ha1
  extract_lets -merge -useContext +onlyGivenNames v3
  try clear_value v3
  refine Sound.ite ?_ ?_
  · exact State.setHart_sound ha1
  · exact ha1

theorem State.coreStoreWord_sound {q : List Instr} {s : State} {c : ℕ} {p : ℕ} {bs : List Byte} (hs : Sound q s) :
    Sound q (State.coreStoreWord s c p bs) := by
  unfold State.coreStoreWord
  refine Sound.ite ?_ ?_
  · extract_lets -merge -useContext +onlyGivenNames v1 v2
    try clear_value v1
    try clear_value v2
    exact State.stripeStore_sound hs
  · refine Sound.ite ?_ ?_
    · split
      · rename_i p3 p4 p5 e6
        have hp5 : Sound q p5 := by
          refine Sound.ofSnd2 e6 ?_
          exact State.openLine_sound hs
        extract_lets -merge -useContext +onlyGivenNames v7 v8
        try clear_value v7
        try clear_value v8
        refine State.evictSome_sound ?_
        exact State.setLine_sound hp5
    · refine State.write_sound ?_
      exact State.settleAt_sound hs

theorem State.coreStore_sound {q : List Instr} {s : State} {c : ℕ} {a : ℕ} {bs : List Byte} (hs : Sound q s) :
    Sound q (State.coreStore s c a bs) := by
  unfold State.coreStore
  refine State.each_sound hs ?_
  intro a1 a2 ha1
  extract_lets -merge -useContext +onlyGivenNames v3
  try clear_value v3
  refine State.breakResv_sound ?_
  exact State.coreStoreWord_sound ha1

theorem State.returned_sound {q : List Instr} {s : State} {v : ℕ} (hs : Sound q s) :
    Sound q (State.returned s v) := by
  unfold State.returned
  exact Sound.upd hs

theorem State.setResv_sound {q : List Instr} {s : State} {c : ℕ} {r : Option ℕ} (hs : Sound q s) :
    Sound q (State.setResv s c r) := by
  unfold State.setResv
  exact State.setHart_sound hs

theorem State.memAccess_sound {q : List Instr} {s : State} {c : ℕ} {k : MemKind} {a : ℕ} {n : ℕ} {v : Word64} (hs : Sound q s) :
    Sound q (State.memAccess s c k a n v) := by
  have e0 : @State.memAccess = @State.memAccess := rfl
  conv at e0 => rhs; delta State.memAccess
  rw [e0]
  clear e0
  beta_reduce
  extract_lets -merge -useContext +onlyGivenNames v1 v2 v3 v4
  have hv1 : Sound q v1.st := by
    unfold v1
    exact State.coreRead_sound hs
  clear_value v1
  have hv2 : ∀ g : State → ℕ → State, (∀ t x, Sound q t → Sound q (g t x)) → Sound q (v2 g) := by
    unfold v2
    intro g hg
    split
    · exact State.poisonTrap_sound hv1
    · exact hg _ _ (State.returned_sound hv1)
  clear_value v2
  clear_value v3
  have hv4 : Sound q v4 := by
    unfold v4
    refine State.taken_sound (State.setResv_sound (Sound.ite ?_ ?_))
    · exact State.coreStore_sound hs
    · exact hs
  clear_value v4
  split
  · exact hv2 _ fun _ _ h => h
  · exact hv2 _ fun _ _ h => h
  · exact State.coreStore_sound hs
  · exact hv2 _ fun _ _ h => State.setResv_sound h
  · exact State.returned_sound hv4
  · exact hv2 _ fun _ _ h => State.coreStore_sound h

theorem State.regAccess_sound {q : List Instr} {s : State} {c : ℕ} {k : MemKind} {a : ℕ} {n : ℕ} {v : Word64} (hs : Sound q s) :
    Sound q (State.regAccess s c k a n v) := by
  unfold State.regAccess
  extract_lets -merge -useContext +onlyGivenNames v1 v2 v3 v4 v5
  try clear_value v1
  have hv2 : Sound q v2 := by
    unfold v2
    exact State.regRead_sound hs
  try clear_value v2
  try clear_value v3
  try clear_value v4
  have hv5 : Sound q v5 := by
    unfold v5
    refine State.taken_sound ?_
    refine State.setResv_sound ?_
    refine Sound.ite ?_ ?_
    · exact State.regWrite_sound hs
    · exact hs
  try clear_value v5
  split
  · exact State.returned_sound hv2
  · exact State.returned_sound hv2
  · refine State.taken_sound ?_
    exact State.regWrite_sound hs
  · refine State.setResv_sound ?_
    exact State.returned_sound hv2
  · exact State.returned_sound hv5
  · refine State.regWrite_sound ?_
    exact State.returned_sound hv2

theorem State.coreAccess_sound {q : List Instr} {s : State} {c : ℕ} {k : MemKind} {a : ℕ} {n : ℕ} {v : Word64} (hs : Sound q s) :
    Sound q (State.coreAccess s c k a n v) := by
  unfold State.coreAccess
  refine Sound.ite ?_ ?_
  · exact State.trap_sound hs
  · refine Sound.ite ?_ ?_
    · exact State.regAccess_sound hs
    · refine Sound.ite ?_ ?_
      · refine State.memAccess_sound ?_
        exact State.showAges_sound hs
      · exact State.memAccess_sound hs

theorem execCoreMemoryAccess_sound {q : List Instr} {c : ℕ} {k : MemKind} {addr : ℕ} {size : ℕ} {data : Word64} {s : State} (hs : Sound q s) :
    NextSound q (execCoreMemoryAccess c k addr size data s) := by
  unfold execCoreMemoryAccess
  refine onUnit_sound ?_
  exact State.coreAccess_sound hs

theorem execFence_sound {q : List Instr} {c : ℕ} {s : State} (hs : Sound q s) :
    NextSound q (execFence c s) := by
  unfold execFence
  exact onUnit_sound hs

theorem execCdwbi_sound {q : List Instr} {c : ℕ} {addr : ℕ} {s : State} (hs : Sound q s) :
    NextSound q (execCdwbi c addr s) := by
  unfold execCdwbi
  refine onUnit_sound ?_
  refine State.vendorCsr_sound hs ?_
  exact State.dropLine_sound hs

theorem execCdinv_sound {q : List Instr} {c : ℕ} {addr : ℕ} {s : State} (hs : Sound q s) :
    NextSound q (execCdinv c addr s) := by
  unfold execCdinv
  refine onUnit_sound ?_
  refine State.vendorCsr_sound hs ?_
  exact State.setLine_sound hs

theorem State.dropCode_sound {q : List Instr} {s : State} {c : ℕ} (hs : Sound q s) :
    Sound q (State.dropCode s c) := by
  unfold State.dropCode
  exact Sound.upd hs

theorem execCiinv_sound {q : List Instr} {c : ℕ} {s : State} (hs : Sound q s) :
    NextSound q (execCiinv c s) := by
  unfold execCiinv
  refine onUnit_sound ?_
  refine State.vendorCsr_sound hs ?_
  exact State.dropCode_sound hs

theorem execMeinfoWrite_sound {q : List Instr} {c : ℕ} {_v : Word} {s : State} (hs : Sound q s) :
    NextSound q (execMeinfoWrite c _v s) := by
  unfold execMeinfoWrite
  refine onUnit_sound ?_
  refine State.vendorCsr_sound hs ?_
  exact State.setHart_sound hs

end Sys2Proof.Machine
end

