-- ==== Sys2Proof/Laws/SoundDispatch.lean ====
section
/-!
SUPPORT. Every operation of Machine/Dispatch.lean keeps the queue and the canonical forms of memory and registers.
-/

namespace Sys2Proof.Machine

theorem exec_sound {q : List Instr} {i : Instr} {s : State} (hs : Sound q s) :
    NextSound q (exec i s) := by
  unfold exec
  split
  · exact execRegisterWrite_sound hs
  · exact execReadClear_sound hs
  · exact execLatchingRead_sound hs
  · exact execAddrDataRead_sound hs
  · exact execBlockEnable_sound hs
  · exact execBlockDisable_sound hs
  · exact execBlockModeWrite_sound hs
  · exact execDrainUnitComplete_sound hs
  · exact execEngineCrossbarError_sound hs
  · exact execCoreMemoryAccess_sound hs
  · exact execFence_sound hs
  · exact execCdwbi_sound hs
  · exact execCdinv_sound hs
  · exact execCiinv_sound hs
  · exact execMeinfoWrite_sound hs
  · exact execAssistKick_sound hs
  · exact execAssistTimeout_sound hs
  · exact execTaskLeadStart_sound hs
  · exact execTaskRelease_sound hs
  · exact execFreeRunRelease_sound hs
  · exact execFreeRunBoundExpiry_sound hs
  · exact execSchDone_sound hs
  · exact execSchAbort_sound hs
  · exact execTaskStop_sound hs
  · exact execTaskStart_sound hs
  · exact execIdleWindowEnd_sound hs
  · exact execIdleWinWrite_sound hs
  · exact execIdleClrmin_sound hs
  · exact execHoldBoundExpiry_sound hs
  · exact execSwitchArm_sound hs
  · exact execSwitchCancel_sound hs
  · exact execSwitchInstant_sound hs
  · exact execSwitchGo_sound hs
  · exact execInputCopy_sound hs
  · exact execInputCopyComplete_sound hs
  · exact execCommitStart_sound hs
  · exact execCommitJournalStaged_sound hs
  · exact execCommitComplete_sound hs
  · exact execJournalWrite_sound hs
  · exact execStationInPdu_sound hs
  · exact execStationStatusPdu_sound hs
  · exact execStationRefresh_sound hs
  · exact execStationTimeout_sound hs
  · exact execStationRearm_sound hs
  · exact execStationProbe_sound hs
  · exact execStationEnable_sound hs
  · exact execStationDisable_sound hs
  · exact execForceSet_sound hs
  · exact execForceClear_sound hs
  · exact execForceClearall_sound hs
  · exact execImgMdataWrite_sound hs
  · exact execPushSend_sound hs
  · exact execSubReceived_sound hs
  · exact execUnsubReceived_sound hs
  · exact execFetchReceived_sound hs
  · exact execSubackReceived_sound hs
  · exact execPushReceived_sound hs
  · exact execRangeStaleTimer_sound hs
  · exact execSubRetryTimer_sound hs
  · exact execLeaseRenewalTimer_sound hs
  · exact execOutboundLeaseExpiry_sound hs
  · exact execProducerRangeTimer_sound hs
  · exact execHopInitComplete_sound hs
  · exact execPinscan_sound hs
  · exact execPinscanComplete_sound hs
  · exact execUnpin_sound hs
  · exact execLookupRead_sound hs
  · exact execLookupTouch_sound hs
  · exact execPageInComplete_sound hs
  · exact execRefetchTimer_sound hs
  · exact execHopTdataWrite_sound hs
  · exact execFrameForward_sound hs
  · exact execUdpDatagramReceived_sound hs
  · exact execNeighborSolicitReceived_sound hs
  · exact execEchoRequestReceived_sound hs
  · exact execLinkUp_sound hs
  · exact execLinkDown_sound hs
  · exact execKeyxOfferReceived_sound hs
  · exact execKeyxAnswerReceived_sound hs
  · exact execKeyxOfferTimer_sound hs
  · exact execKeyingTimeout_sound hs
  · exact execRekeyTimer_sound hs
  · exact execOldSaDelete_sound hs
  · exact execHelloTimer_sound hs
  · exact execHelloReceived_sound hs
  · exact execDeadTimer_sound hs
  · exact execNodeClaimPick_sound hs
  · exact execTentativeTimer_sound hs
  · exact execNonodeRetry_sound hs
  · exact execLsaReceived_sound hs
  · exact execLsackReceived_sound hs
  · exact execLsaRetransmit_sound hs
  · exact execLsaRefresh_sound hs
  · exact execLsaAgeOut_sound hs
  · exact execRouteComputeStart_sound hs
  · exact execRouteComputeComplete_sound hs
  · exact execQuenchReceived_sound hs
  · exact execQuenchResend_sound hs
  · exact execQuenchRuleExpiry_sound hs
  · exact execPreemptVerifyComplete_sound hs
  · exact execPtpMessageReceived_sound hs
  · exact execPtpTxTimer_sound hs
  · exact execPtpAnnounceTimeout_sound hs
  · exact execMbxSend_sound hs
  · exact execOpenReceived_sound hs
  · exact execConfirmReceived_sound hs
  · exact execAbandonReceived_sound hs
  · exact execPendingTimeout_sound hs
  · exact execSessionRead_sound hs
  · exact execSessionWrite_sound hs
  · exact execSessionSub_sound hs
  · exact execSessionUnsub_sound hs
  · exact execSessionForce_sound hs
  · exact execSessionClose_sound hs
  · exact execEvread_sound hs
  · exact execSubPeriodPush_sound hs
  · exact execSessionIdleExpiry_sound hs
  · exact execSessionLifetimeExpiry_sound hs
  · exact execExpiredSlotFree_sound hs
  · exact execTenantRevoke_sound hs
  · exact execTenantCloseall_sound hs
  · exact execSlotClose_sound hs
  · exact execAuthQuenchReceived_sound hs
  · exact execAssistResultReceived_sound hs
  · exact execLoopDue_sound hs
  · exact execLoopEvaluation_sound hs
  · exact execGroupEvaluation_sound hs
  · exact execLoopMdataWrite_sound hs
  · exact execSampleSetArrival_sound hs
  · exact execZcTimeout_sound hs
  · exact execSyntheticCrossing_sound hs
  · exact execCheckpointTimer_sound hs
  · exact execCheckpointComplete_sound hs
  · exact execMeterClear_sound hs
  · exact execMeterCkpt_sound hs
  · exact execMeterRestore_sound hs
  · exact execCalapply_sound hs
  · exact execMtrMdataWrite_sound hs
  · exact execDiEdge_sound hs
  · exact execDiFilterAccept_sound hs
  · exact execDiFilterWrite_sound hs
  · exact execFreqGateWindowEnd_sound hs
  · exact execCounterConfigWrite_sound hs
  · exact execCounterClear_sound hs
  · exact execCounterLoad_sound hs
  · exact execDoResume_sound hs
  · exact execDoResumeall_sound hs
  · exact execDoOcclr_sound hs
  · exact execOutputReload_sound hs
  · exact execOutputEnable_sound hs
  · exact execOutputDisable_sound hs
  · exact execDoConfigWrite_sound hs
  · exact execKeepaliveSilence_sound hs
  · exact execKick_sound hs
  · exact execKickExpiry_sound hs
  · exact execKaCfgWrite_sound hs
  · exact execDoOvercurrent_sound hs
  · exact execAoOvercurrent_sound hs
  · exact execFieldSupplyFail_sound hs
  · exact execFieldSupplyReturn_sound hs
  · exact execReflexArm_sound hs
  · exact execReflexDisarm_sound hs
  · exact execReflexEnable_sound hs
  · exact execReflexDisable_sound hs
  · exact execReflexCfgWrite_sound hs
  · exact execPulseExpiry_sound hs
  · exact execAiConversionComplete_sound hs
  · exact execAiConfigWrite_sound hs
  · exact execCanTxRequest_sound hs
  · exact execCanTxCancel_sound hs
  · exact execCanFrameStart_sound hs
  · exact execCanTxAttemptEnd_sound hs
  · exact execCanFrameReceived_sound hs
  · exact execCanProtocolException_sound hs
  · exact execCanRxLock_sound hs
  · exact execCanRxRelease_sound hs
  · exact execCanLockTimeout_sound hs
  · exact execCanRxnewFree_sound hs
  · exact execCanMdataWrite_sound hs
  · exact execCanSleep_sound hs
  · exact execCanSleepEntered_sound hs
  · exact execCanWake_sound hs
  · exact execCanWakeEvent_sound hs
  · exact execCanBorecov_sound hs
  · exact execCanBusoffRecoveryComplete_sound hs
  · exact execCanTxresume_sound hs
  · exact execCanAbortall_sound hs
  · exact execCanTsCapture_sound hs
  · exact execRewriteQueueService_sound hs
  · exact execScrubStep_sound hs
  · exact execSecdedScrub_sound hs
  · exact execDramScrubBurst_sound hs
  · exact execBucketLeak_sound hs
  · exact execEgressReleaseFabtx_sound hs
  · exact execEgressReleaseMirror_sound hs
  · exact execInjectOdd_sound hs
  · exact execInjectEven_sound hs
  · exact execInjectPar_sound hs
  · exact execInjectTag_sound hs
  · exact execInjectPoison_sound hs
  · exact execInjectDouble_sound hs
  · exact execStripeWindowStore_sound hs
  · exact execSmapWrite_sound hs
  · exact execKeyCqtailWrite_sound hs
  · exact execKeyHash_sound hs
  · exact execKeyHmac_sound hs
  · exact execKeyKdf_sound hs
  · exact execKeyGcmEnc_sound hs
  · exact execKeyGcmDec_sound hs
  · exact execKeySign_sound hs
  · exact execKeyVerify_sound hs
  · exact execKeyEcdh_sound hs
  · exact execKeyKeygen_sound hs
  · exact execKeyPubkey_sound hs
  · exact execKeyRandom_sound hs
  · exact execKeyWrap_sound hs
  · exact execKeyUnwrap_sound hs
  · exact execKeySeal_sound hs
  · exact execKeyUnseal_sound hs
  · exact execKeyReseal_sound hs
  · exact execKeyImport_sound hs
  · exact execKeyExtend_sound hs
  · exact execKeyDeclare_sound hs
  · exact execKeyAdopt_sound hs
  · exact execKeySetpol_sound hs
  · exact execKeyOpComplete_sound hs
  · exact execKeySessionEstablish_sound hs
  · exact execKeySessionCrypt_sound hs
  · exact execKeyTenantHmac_sound hs
  · exact execKeyFabricDerive_sound hs
  · exact execKeyInval_sound hs
  · exact execKeyErase_sound hs
  · exact execTamperAck_sound hs
  · exact execZeroize_sound hs
  · exact execTamperLoopConfirm_sound hs
  · exact execOnDieTamper_sound hs
  · exact execDrbgReseed_sound hs
  · exact execEntropyHealthFailure_sound hs
  · exact execEventPost_sound hs
  · exact execSwPost_sound hs
  · exact execRecordWrite_sound hs
  · exact execTailWrite_sound hs
  · exact execEvtClear_sound hs
  · exact execEvtFlush_sound hs
  · exact execTailScanComplete_sound hs
  · exact execEvtOldestRead_sound hs
  · exact execFantailSend_sound hs
  · exact execFantailReceived_sound hs
  · exact execPathLoss_sound hs
  · exact execPartnerLoss_sound hs
  · exact execElectTimeout_sound hs
  · exact execMirrorSend_sound hs
  · exact execMirrorReceived_sound hs
  · exact execLoopStateSync_sound hs
  · exact execP4FrameReceived_sound hs
  · exact execPairSwitchover_sound hs
  · exact execPairResync_sound hs
  · exact execPairDemote_sound hs
  · exact execBulkOpen_sound hs
  · exact execBulkData_sound hs
  · exact execBulkBlockProgrammed_sound hs
  · exact execBulkEnd_sound hs
  · exact execBulkAbort_sound hs
  · exact execTransferTimeout_sound hs
  · exact execUpdErase_sound hs
  · exact execUpdVerify_sound hs
  · exact execVerifyComplete_sound hs
  · exact execUpdStage_sound hs
  · exact execStageComplete_sound hs
  · exact execUpdUnstage_sound hs
  · exact execUpdActivate_sound hs
  · exact execUpdConfirm_sound hs
  · exact execUpdRecover_sound hs
  · exact execMigrationComplete_sound hs
  · exact execUpdCommit_sound hs
  · exact execUpdAbort_sound hs
  · exact execHoldmaxExpiry_sound hs
  · exact execRecoveryAnnounceTimer_sound hs
  · exact execRecoveryLoad_sound hs
  · exact execRecoveryEnrol_sound hs
  · exact execRecoveryRestart_sound hs
  · exact execTftpDataReceived_sound hs
  · exact execTftpRetransmitTimer_sound hs
  · exact execPowerGood_sound hs
  · exact execHuCapMeasured_sound hs
  · exact execHuFull_sound hs
  · exact execPowerSourceChange_sound hs
  · exact execVinLow_sound hs
  · exact execVinWarning_sound hs
  · exact execTestbrake_sound hs
  · exact execHalt_sound hs
  · exact execBrakeMarkerWritten_sound hs
  · exact execVinResumeLevel_sound hs
  · exact execResumeWindowComplete_sound hs
  · exact execHuResetLevel_sound hs
  · exact execModuleResetRelease_sound hs
  · exact execRuntimeStart_sound hs
  · exact execReplicaWaitEnd_sound hs
  · exact execSysLockSet_sound hs
  · exact execSysRstReset_sound hs
  · exact execSysRstFatal_sound hs
  · exact execWdtKick_sound hs
  · exact execWdtExpiry_sound hs
  · exact execMtLoad_sound hs
  · exact execRtcTick_sound hs
  · exact execOscStop_sound hs
  · exact execBackupPowerOn_sound hs
  · exact execBackupSourceChange_sound hs
  · exact execVbatMeasure_sound hs
  · exact execRtcFreezeRead_sound hs
  · exact execFreezeTimeout_sound hs
  · exact execRtcSet_sound hs
  · exact execRtcSync_sound hs
  · exact execSyncMatch_sound hs
  · exact execBbinit_sound hs
  · exact execBackupByteWrite_sound hs
  · exact execCanRxError_sound hs
  · exact execCanIntegrationComplete_sound hs
  · exact execFlashEraseComplete_sound hs
  · exact execStartRecordWrite_sound hs

end Sys2Proof.Machine
end

