-- ==== Sys2Proof/Laws/SoundTick.lean ====
section
/-!
SUPPORT. Every operation of Machine/Tick.lean keeps the queue and the canonical forms of memory and registers.
-/

namespace Sys2Proof.Machine

theorem State.idle_sound {q : List Instr} {s : State} (hs : Sound q s) :
    Sound q (State.idle s) := by
  unfold State.idle
  extract_lets -merge -useContext +onlyGivenNames v1
  have hv1 : Sound q v1 := by
    unfold v1
    exact State.elapse_sound hs
  try clear_value v1
  refine State.showAges_sound ?_
  refine State.each_sound hv1 ?_
  intro a2 a3 ha2
  exact State.txPort_sound ha2

end Sys2Proof.Machine
end

