-- ==== Sys2Proof/Laws/SoundStep.lean ====
section
/-!
SUPPORT. Every operation of Machine/Step.lean keeps the queue and the canonical forms of memory and registers.
-/

namespace Sys2Proof.Machine

theorem step_sound {c : Instr} {rest : List Instr} {s : State} (hs : Sound (c :: rest) s) :
    NextSound rest (step s) := by
  have e : step s = exec c { s with pending := rest } := by
    unfold step
    rw [hs.queue]
  rw [e]
  exact exec_sound ⟨rfl, hs.mem, hs.regs⟩

theorem step_idle_sound {s : State} (hs : Sound [] s) : NextSound [] (step s) := by
  have e : step s = .next s.idle := by
    unfold step
    rw [hs.queue]
  rw [e]
  exact NextSound.next (State.idle_sound hs)

end Sys2Proof.Machine
end

