-- ==== Sys2Proof/Laws/Time.lean ====
section
/-!
SUPPORT. What time passing and posting an event leave: `State.elapse` moves the clocks and the scheduler's accounts, `State.event`
the recorder's staging and its three registers.
-/

namespace Sys2Proof.Machine

/-- What passing time leaves as it is. -/
structure SameButTime (s t : State) : Prop where
  regs : t.regs = s.regs
  latched : t.latched = s.latched
  mem : t.mem = s.mem
  busRead : t.busRead = s.busRead
  fresh : t.fresh = s.fresh
  asn : t.asn = s.asn
  img : t.img = s.img
  hop : t.hop = s.hop
  fab : t.fab = s.fab
  gate : t.gate = s.gate
  loop : t.loop = s.loop
  mtr : t.mtr = s.mtr
  dio : t.dio = s.dio
  can : t.can = s.can
  integ : t.integ = s.integ
  key : t.key = s.key
  evt : t.evt = s.evt
  pair : t.pair = s.pair
  upd : t.upd = s.upd
  pwr : t.pwr = s.pwr
  rtc : t.rtc = s.rtc
  start : t.start = s.start
  pending : t.pending = s.pending

theorem SameButTime.refl (s : State) : SameButTime s s := by constructor <;> rfl

theorem SameButTime.trans {s t u : State} (h : SameButTime s t) (k : SameButTime t u) : SameButTime s u := by
  constructor
  all_goals first
    | exact k.regs.trans h.regs | exact k.latched.trans h.latched | exact k.mem.trans h.mem | exact k.busRead.trans h.busRead
    | exact k.fresh.trans h.fresh | exact k.asn.trans h.asn | exact k.img.trans h.img | exact k.hop.trans h.hop
    | exact k.fab.trans h.fab | exact k.gate.trans h.gate | exact k.loop.trans h.loop | exact k.mtr.trans h.mtr
    | exact k.dio.trans h.dio | exact k.can.trans h.can | exact k.integ.trans h.integ | exact k.key.trans h.key
    | exact k.evt.trans h.evt | exact k.pair.trans h.pair | exact k.upd.trans h.upd | exact k.pwr.trans h.pwr
    | exact k.rtc.trans h.rtc | exact k.start.trans h.start | exact k.pending.trans h.pending

/-- What holds of both branches holds of the choice. -/
theorem ite_keep {α : Type} {P : α → Prop} {c : Prop} [Decidable c] {x y : α} (hx : P x) (hy : P y) : P (if c then x else y) := by
  by_cases h : c
  · rw [if_pos h]; exact hx
  · rw [if_neg h]; exact hy

theorem spend_same (s : State) (d c : Nat) : SameButTime s (s.spend d c) ∧ (s.spend d c).now = s.now ∧ (s.spend d c).mt = s.mt := by
  have h1 : ∀ x, SameButTime s (s.setCore c x) ∧ (s.setCore c x).now = s.now ∧ (s.setCore c x).mt = s.mt := fun x =>
    ⟨by constructor <;> rfl, rfl, rfl⟩
  have h0 : SameButTime s s ∧ s.now = s.now ∧ s.mt = s.mt := ⟨SameButTime.refl s, rfl, rfl⟩
  have h2 : ∀ u : State, SameButTime s u ∧ u.now = s.now ∧ u.mt = s.mt → ∀ t x,
      SameButTime s (u.setTask t x) ∧ (u.setTask t x).now = s.now ∧ (u.setTask t x).mt = s.mt := fun u h t x =>
    ⟨h.1.trans (by constructor <;> rfl), h.2.1, h.2.2⟩
  have h3 : ∀ b : Bool, ∀ x, SameButTime s (if b then s.setCore c x else s) ∧ (if b then s.setCore c x else s).now = s.now ∧
      (if b then s.setCore c x else s).mt = s.mt := fun b x => by cases b; exacts [h0, h1 x]
  unfold State.spend
  exact ite_keep (P := fun u : State => SameButTime s u ∧ u.now = s.now ∧ u.mt = s.mt) (h2 _ (h3 _ _) _ _) (h3 _ _)

theorem spends_same (d : Nat) (l : List Nat) (s : State) :
    SameButTime s (l.foldl (fun s c => s.spend d c) s) ∧ (l.foldl (fun s c => s.spend d c) s).now = s.now ∧
      (l.foldl (fun s c => s.spend d c) s).mt = s.mt := by
  induction l generalizing s with
  | nil => exact ⟨SameButTime.refl s, rfl, rfl⟩
  | cons c l ih =>
    have h := spend_same s d c
    have k := ih (s.spend d c)
    exact ⟨h.1.trans k.1, k.2.1.trans h.2.1, k.2.2.trans h.2.2⟩

/-- Everything that passing time does to what is not the scheduler's. -/
theorem State.elapse_cases (s : State) (d : Nat) :
    SameButTime s (s.elapse d) ∧ (s.elapse d).now = s.now + d ∧ (s.elapse d).mt = s.mt + BitVec.ofNat 64 d := by
  have h := spends_same d (List.range 16) s
  unfold State.elapse
  revert h
  generalize (List.range 16).foldl (fun s c => s.spend d c) s = t
  intro ⟨h1, h2, h3⟩
  by_cases hd : d = 0
  · rw [if_pos hd]
    exact ⟨SameButTime.refl s, by omega, by simp [hd]⟩
  · rw [if_neg hd]
    refine ⟨h1.trans ?_, ?_, ?_⟩
    · constructor <;> rfl
    · rw [← h2]
    · rw [← h3]

theorem State.elapse_same (s : State) (d : Nat) : SameButTime s (s.elapse d) := (s.elapse_cases d).1

theorem State.elapse_now (s : State) (d : Nat) : (s.elapse d).now = s.now + d := (s.elapse_cases d).2.1

theorem State.elapse_mt (s : State) (d : Nat) : (s.elapse d).mt = s.mt + BitVec.ofNat 64 d := (s.elapse_cases d).2.2

theorem State.advance_same (s : State) (t : Nat) : SameButTime s (s.advance t) := s.elapse_same _

theorem State.advanceMt_same (s : State) (t : Nat) : SameButTime s (s.advanceMt t) := s.elapse_same _

/-- A timer's command acts at its instant, or now where that is past. -/
theorem State.advance_now (s : State) (t : Nat) : (s.advance t).now = max s.now t := by
  unfold State.advance
  rw [State.elapse_now]
  omega

@[simp] theorem State.advance_reg (s : State) (t a : Nat) : (s.advance t).reg a = s.reg a := by
  unfold State.reg
  rw [(s.advance_same t).regs]

@[simp] theorem State.advance_rd (s : State) (t : Nat) (f : Fld) : (s.advance t).rd f = s.rd f := by
  unfold State.rd
  rw [State.advance_reg]

@[simp] theorem State.advanceMt_reg (s : State) (t a : Nat) : (s.advanceMt t).reg a = s.reg a := by
  unfold State.reg
  rw [(s.advanceMt_same t).regs]

@[simp] theorem State.advanceMt_rd (s : State) (t : Nat) (f : Fld) : (s.advanceMt t).rd f = s.rd f := by
  unfold State.rd
  rw [State.advanceMt_reg]

/-- A record posted changes no register but EVT_STAGE, EVT_CNT_DROP and EVT_INTSTAT. -/
theorem State.post_reg (s : State) (r : EvtRec) {a : Nat} (h1 : a ≠ R.EVT_STAGE.addr) (h2 : a ≠ R.EVT_CNT_DROP.addr)
    (h3 : a ≠ R.EVT_INTSTAT.addr) : (s.post r).reg a = s.reg a := by
  unfold State.post
  exact ite_keep (P := fun u : State => u.reg a = s.reg a) (SMap.get_set_ne h1) ((SMap.get_set_ne h3).trans (SMap.get_set_ne h2))

theorem State.post_mem (s : State) (r : EvtRec) : (s.post r).mem = s.mem := by
  have key : ∀ u, u = s.post r → u.mem = s.mem := by
    intro u hu
    unfold State.post at hu
    rw [hu]
    exact ite_keep (P := fun u : State => u.mem = s.mem) (State.wr_mem _ _ _)
      ((State.raise_mem _ _).trans (State.bump_mem _ _))
  exact key _ rfl

theorem State.event_reg (s : State) {code unit subj val1 val2 tenant extra a : Nat} (h1 : a ≠ R.EVT_STAGE.addr)
    (h2 : a ≠ R.EVT_CNT_DROP.addr) (h3 : a ≠ R.EVT_INTSTAT.addr) :
    (s.event code unit subj val1 val2 tenant extra).reg a = s.reg a := s.post_reg _ h1 h2 h3

theorem State.event_rd (s : State) {code unit subj val1 val2 tenant extra : Nat} {f : Fld} (h1 : f.addr ≠ R.EVT_STAGE.addr)
    (h2 : f.addr ≠ R.EVT_CNT_DROP.addr) (h3 : f.addr ≠ R.EVT_INTSTAT.addr) :
    (s.event code unit subj val1 val2 tenant extra).rd f = s.rd f := by
  unfold State.rd
  rw [State.event_reg s h1 h2 h3]

@[simp] theorem State.event_mem (s : State) {code unit subj val1 val2 tenant extra : Nat} :
    (s.event code unit subj val1 val2 tenant extra).mem = s.mem := s.post_mem _

end Sys2Proof.Machine
end

