-- ==== Sys2Proof/Machine/Flags.lean ====
section
/-!
DEFINITION. What the module shows outside as a function of its state: the LEDs of the front face (R521, R117, Table 16-7), and
each block's interrupt line, which stands while a bit of INTSTAT that INTEN enables is set.
-/

namespace Sys2Proof.Machine

/-- What an LED shows; periods in milliseconds. -/
inductive Led where
  | off
  | on
  | blink (periodMs : Nat)
  | flash (onMs everyMs : Nat)
  | flicker
  deriving DecidableEq, Repr

/-- A two-colour LED. -/
inductive PairLed where
  | off | green | amber
  deriving DecidableEq, Repr

/-- A unit reads FAULT (Table 1-9). -/
def State.anyFault (s : State) : Bool := allUnits.any fun u => s.rd u.STATE == stFault

/-- An egress channel is halted (R386): the two of MEM_EGR_HALT, CAN transmit. The journal's halt reads FAULT. -/
def State.egressHalted (s : State) : Bool :=
  s.on R.MEM_EGR_HALT.FABTX || s.on R.MEM_EGR_HALT.MIRROR || (List.range 4).any fun c => s.on (R.CAN_STAT.TXHALT c)

def State.ledRun (s : State) : Led :=
  match s.start.phase with
  | 1 => .blink 500
  | 2 =>
    if s.rd R.SCH_STAT.HOLD ≠ 0 ∨ s.rd R.PWR_STAT.PSTATE = 2 then .flash 200 2000
    else if s.starting then .blink 500
    else if s.running .sch then .on
    else .off
  | _ => .off

def State.ledFault (s : State) : Led :=
  if s.start.phase = 3 then .blink 1000
  else if s.anyFault || (s.on R.MEM_BIST.DONE && !s.on R.MEM_BIST.PASS) || s.egressHalted then .on
  else .off

def State.ledForce (s : State) : Led := if s.rd R.IMG_FRC_STAT.COUNT = 0 then .off else .on

def State.ledPair (s : State) : PairLed :=
  match s.rd R.PAIR_STAT.ROLE with
  | 3 => .green
  | 2 => .amber
  | _ => .off

/-- Lit only with main power. -/
def State.ledTamper (s : State) : Led :=
  if !s.on R.RTC_STAT.ONMAIN then .off
  else
    match s.rd R.RTC_TLATCH.LATCH with
    | 1 => .blink 500
    | 2 => .blink 2000
    | _ => .off

/-- A port's link/activity LED, P4's included. DESIGN CHOICE: it flickers for 100 ms after a frame has passed
(notes/assumptions/154). -/
def State.ledLink (s : State) (p : Nat) : Led :=
  let up := if p < 4 then s.on (R.FAB_P_STAT.LINK p) else s.pair.p4Link
  let busy : Bool := match (s.port p).trafficAt with | some t => s.now < t + 100 * ms | none => false
  if !up then .off else if busy then .flicker else .on

/-- The interrupt line of the block whose INTEN and INTSTAT lie at these addresses. -/
def State.irq (s : State) (inten intstat : Nat) : Bool := s.reg inten &&& s.reg intstat != 0

end Sys2Proof.Machine
end

