-- ==== Sys2Proof/Tests/Slice0.lean ====
section
/-!
SUPPORT. Tests: published vectors of the functions that the spec names, the calendar, the well-formedness checks, and for each
statement states and operands that meet its hypotheses, clause by clause and at the ends of their ranges.
-/

namespace Sys2Proof.Tests

set_option Elab.async false
set_option maxRecDepth 4096
set_option linter.unusedVariables false

open Machine

/-! Published vectors. -/

/-- FIPS 180-4: the digest of "abc". -/
theorem test_sha256_abc : natBE (sha256 (ascii "abc")) =
    0xBA7816BF8F01CFEA414140DE5DAE2223B00361A396177A9CB410FF61F20015AD := by decide +kernel

/-- RFC 4231, test case 2: HMAC-SHA-256 under "Jefe". -/
theorem test_hmac_jefe : natBE (hmac (ascii "Jefe") (ascii "what do ya want for nothing?")) =
    0x5BDCC146BF60754E6A042426089575C75A003F089D2739839DEC58B964EC3843 := by decide +kernel

/-- FIPS 197, C.3: one block under AES-256. -/
theorem test_aes256_block : natBE (aesBlock (aesRoundKeys ((List.range 32).map (BitVec.ofNat 8)))
    ((List.range 16).map fun i => BitVec.ofNat 8 (17 * i))) = 0x8EA2B7CA516745BFEAFC49904B496089 := by decide +kernel

/-! The calendar (R531): leap days, the turn of a year. -/

theorem test_leap_day : Calendar.next ⟨2024, 2, 28, 23, 59, 59⟩ = ⟨2024, 2, 29, 0, 0, 0⟩ := by decide

theorem test_leap_century : Calendar.next ⟨2000, 2, 28, 23, 59, 59⟩ = ⟨2000, 2, 29, 0, 0, 0⟩ := by decide

theorem test_plain_century : Calendar.next ⟨2100, 2, 28, 23, 59, 59⟩ = ⟨2100, 3, 1, 0, 0, 0⟩ := by decide

theorem test_year_end : Calendar.next ⟨2024, 12, 31, 23, 59, 59⟩ = ⟨2025, 1, 1, 0, 0, 0⟩ := by decide

/-! The table gives no row bits: no word spells a command. -/

theorem test_decode_none : decodeTableWord 32 0xFFFFFFFF = none := by decide

theorem test_withFetchWord_none : (State.reset.withFetchWord 32 0).pending = [] := by decide +kernel

/-! Well-formedness: every command at the last unit of its range is well formed, and one past it (or below it) is not. -/

theorem test_wf_accepts_0 :
    ([.registerWrite 16 0 0, .readClear 16 0, .latchingRead 16 0, .addrDataRead 16 0,
      .coreMemoryAccess 16 .load 0xFFFFFFFF 8 0, .fence 16, .cdwbi 16 4294967295, .cdinv 16 4294967295, .ciinv 16,
      .meinfoWrite 16 0, .taskLeadStart 255, .taskRelease 255, .freeRunRelease 255, .freeRunBoundExpiry 255,
      .schDone 16, .schAbort 16, .taskStop 255, .taskStart 255, .stationInPdu 63 [], .stationStatusPdu 63 [],
      .stationRefresh 63, .stationTimeout 63, .stationRearm 63, .stationProbe 63] : List Instr).all (fun c => c.wf == true) = true := by
  decide +kernel

theorem test_wf_accepts_1 :
    ([.stationEnable 63, .stationDisable 63, .rangeStaleTimer 8191, .subRetryTimer 8191, .leaseRenewalTimer 8191,
      .outboundLeaseExpiry 4095, .producerRangeTimer 4095, .pinscan 1, .unpin 1, .lookupRead 3, .lookupTouch 3,
      .pageInComplete 2047, .refetchTimer 262143,
      .frameForward 4 ({ leat := ({ lane := 0, dst := 1, src := 2, typ := 4, len := 0, payload := [] } : Leat) } : RxFrame),
      .udpDatagramReceived 3 ({ srcAddr := 0, srcPort := 0, dstPort := 0, frame := { leat := { lane := 0, dst := 1, src := 2, typ := 4, len := 0, payload := [] } } } : Datagram),
      .neighborSolicitReceived 3 (0 : BitVec 128), .echoRequestReceived 3 (0 : BitVec 128), .linkUp 4 0, .linkDown 4,
      .keyxOfferReceived 3 ({ an := 1, caps := 1, port := 0, mac := 1, node := 1, nonce := 0 } : Keyx),
      .keyxAnswerReceived 3 ({ an := 1, caps := 1, port := 0, mac := 1, node := 1, nonce := 0 } : Keyx), .keyxOfferTimer 3,
      .keyingTimeout 3, .rekeyTimer 3] : List Instr).all (fun c => c.wf == true) = true := by
  decide +kernel

theorem test_wf_accepts_2 :
    ([.oldSaDelete 3, .helloTimer 3,
      .helloReceived 3 ({ node := 1, nstate := 0, mac := 0, port := 0, int := 1, dead := 3, heard := 0 } : Hello),
      .deadTimer 3, .lsaReceived 3 ({ node := 4094, state := 3, mac := 1, seq := 1 } : Lsa), .lsackReceived 3 [],
      .lsaRetransmit 3, .lsaAgeOut 4095,
      .quenchReceived 4 ({ lane := 0, dst := 1, src := 2, typ := 4, len := 0, payload := [] } : Leat), .quenchRuleExpiry 159,
      .preemptVerifyComplete 3 false, .ptpMessageReceived 3 ⟨0, .delayReq 0⟩, .ptpTxTimer 3, .pendingTimeout 511,
      .subPeriodPush 511, .sessionIdleExpiry 511, .sessionLifetimeExpiry 511, .expiredSlotFree 511, .tenantRevoke 255,
      .tenantCloseall 255,
      .authQuenchReceived 4 ({ lane := 0, dst := 1, src := 2, typ := 4, len := 0, payload := [] } : Leat), .loopDue true 31,
      .diFilterAccept 31, .diFilterWrite 31 0] : List Instr).all (fun c => c.wf == true) = true := by
  decide +kernel

theorem test_wf_accepts_3 :
    ([.freqGateWindowEnd 7, .counterConfigWrite 7 0, .counterClear 7, .counterLoad 7, .doResume (.digital 31),
      .doOcclr 31, .outputReload (.digital 31), .doConfigWrite (.analog 7) true 0, .keepaliveSilence (.digital 23),
      .doOvercurrent 23, .aoOvercurrent 7, .fieldSupplyFail 4, .fieldSupplyReturn 4, .reflexArm 1 0,
      .reflexDisarm 1 0, .reflexCfgWrite 63 1 0, .pulseExpiry 7,
      .aiConversionComplete 7 ({ code := 65535 } : AiResult), .aiConfigWrite 7 0, .canTxRequest 3 1 0,
      .canTxCancel 3 1 0, .canFrameStart 3, .canTxAttemptEnd 3 .ok,
      .canFrameReceived 3 ({ id := 1, dlc := 0, data := [] } : CanFrame)] : List Instr).all (fun c => c.wf == true) = true := by
  decide +kernel

theorem test_wf_accepts_4 :
    ([.canProtocolException 3, .canRxLock 3 127, .canRxRelease 3 false, .canLockTimeout 3, .canRxnewFree 3 3 0,
      .canMdataWrite 3 0, .canSleep 3, .canSleepEntered 3, .canWake 3, .canWakeEvent 3 .pattern, .canBorecov 3,
      .canBusoffRecoveryComplete 3, .canTxresume 3, .canAbortall 3, .canTsCapture 3, .bucketLeak 6,
      .stripeWindowStore 403177471 0,
      .keySessionEstablish ({ session := 511, tenant := 255, rights := 0, peer := 0, context := [] } : KeyEstablish),
      .keySessionCrypt 511 0 0, .keyTenantHmac 255 [], .keyInval 63, .keyErase 63, .tamperLoopConfirm 2 false, .onDieTamper 2] : List Instr).all (fun c => c.wf == true) = true := by
  decide +kernel

theorem test_wf_accepts_5 :
    ([.swPost 16, .updErase 1, .updVerify 1, .updStage 1, .updActivate 1, .updConfirm 1, .rtcFreezeRead R.RTC_SEC.addr,
      .backupByteWrite 15 0, .canRxError 3 0, .canIntegrationComplete 3] : List Instr).all (fun c => c.wf == true) = true := by
  decide +kernel

theorem test_wf_refuses_0 :
    ([.registerWrite 17 0 0, .readClear 17 0, .latchingRead 17 0, .addrDataRead 17 0,
      .coreMemoryAccess 17 .load 0 8 0, .coreMemoryAccess 16 .load 0x100000000 8 0, .coreMemoryAccess 16 .load 0 3 0,
      .coreMemoryAccess 16 .fetch 0 8 0, .fence 17, .cdwbi 17 4294967295, .cdwbi 16 4294967296, .cdinv 17 4294967295,
      .cdinv 16 4294967296, .ciinv 17, .meinfoWrite 17 0, .taskLeadStart 256, .taskRelease 256, .freeRunRelease 256,
      .freeRunBoundExpiry 256, .schDone 17, .schAbort 17, .taskStop 256, .taskStart 256, .stationInPdu 64 []] : List Instr).all (fun c => c.wf == false) = true := by
  decide +kernel

theorem test_wf_refuses_1 :
    ([.stationStatusPdu 64 [], .stationRefresh 64, .stationTimeout 64, .stationRearm 64, .stationProbe 64, .stationEnable 64,
      .stationDisable 64, .rangeStaleTimer 8192, .subRetryTimer 8192, .leaseRenewalTimer 8192, .outboundLeaseExpiry 4096,
      .producerRangeTimer 4096, .pinscan 2, .unpin 2, .lookupRead 4, .lookupTouch 4, .pageInComplete 2048,
      .refetchTimer 262144,
      .frameForward 5 ({ leat := ({ lane := 0, dst := 1, src := 2, typ := 4, len := 0, payload := [] } : Leat) } : RxFrame),
      .udpDatagramReceived 4 ({ srcAddr := 0, srcPort := 0, dstPort := 0, frame := { leat := { lane := 0, dst := 1, src := 2, typ := 4, len := 0, payload := [] } } } : Datagram),
      .neighborSolicitReceived 4 (0 : BitVec 128), .echoRequestReceived 4 (0 : BitVec 128), .linkUp 5 0, .linkDown 5] : List Instr).all (fun c => c.wf == false) = true := by
  decide +kernel

theorem test_wf_refuses_2 :
    ([.keyxOfferReceived 4 ({ an := 1, caps := 1, port := 0, mac := 1, node := 1, nonce := 0 } : Keyx),
      .keyxAnswerReceived 4 ({ an := 1, caps := 1, port := 0, mac := 1, node := 1, nonce := 0 } : Keyx), .keyxOfferTimer 4,
      .keyingTimeout 4, .rekeyTimer 4, .oldSaDelete 4, .helloTimer 4,
      .helloReceived 4 ({ node := 1, nstate := 0, mac := 0, port := 0, int := 1, dead := 3, heard := 0 } : Hello),
      .deadTimer 4, .lsaReceived 4 ({ node := 4094, state := 3, mac := 1, seq := 1 } : Lsa), .lsackReceived 4 [],
      .lsaRetransmit 4, .lsaAgeOut 4096,
      .quenchReceived 5 ({ lane := 0, dst := 1, src := 2, typ := 4, len := 0, payload := [] } : Leat), .quenchRuleExpiry 160,
      .preemptVerifyComplete 4 false, .ptpMessageReceived 4 ⟨0, .delayReq 0⟩, .ptpTxTimer 4, .pendingTimeout 512,
      .subPeriodPush 512, .sessionIdleExpiry 512, .sessionLifetimeExpiry 512, .expiredSlotFree 512, .tenantRevoke 256] : List Instr).all (fun c => c.wf == false) = true := by
  decide +kernel

theorem test_wf_refuses_3 :
    ([.tenantCloseall 256,
      .authQuenchReceived 5 ({ lane := 0, dst := 1, src := 2, typ := 4, len := 0, payload := [] } : Leat), .loopDue true 32,
      .loopDue false 256, .diFilterAccept 7, .diFilterAccept 32, .diFilterWrite 7 0, .diFilterWrite 32 0,
      .freqGateWindowEnd 8, .counterConfigWrite 8 0, .counterClear 8, .counterLoad 8, .doResume (.digital 32),
      .doResume (.analog 8), .doOcclr 32, .outputReload (.digital 32), .outputReload (.analog 8),
      .doConfigWrite (.digital 31) true 0, .doConfigWrite (.analog 8) false 0, .keepaliveSilence (.digital 32),
      .keepaliveSilence (.analog 8), .doOvercurrent 24, .aoOvercurrent 8, .fieldSupplyFail 0] : List Instr).all (fun c => c.wf == false) = true := by
  decide +kernel

theorem test_wf_refuses_4 :
    ([.fieldSupplyFail 5, .fieldSupplyReturn 0, .fieldSupplyReturn 5, .reflexArm 2 0, .reflexDisarm 2 0,
      .reflexCfgWrite 64 1 0, .reflexCfgWrite 63 2 0, .pulseExpiry 8,
      .aiConversionComplete 8 ({ code := 65535 } : AiResult), .aiConversionComplete 7 ({ code := 65536 } : AiResult),
      .aiConfigWrite 8 0, .canTxRequest 4 1 0, .canTxRequest 3 2 0, .canTxCancel 4 1 0,
      .canTxCancel 3 2 0, .canFrameStart 4, .canTxAttemptEnd 4 .ok,
      .canFrameReceived 4 ({ id := 1, dlc := 0, data := [] } : CanFrame), .canProtocolException 4, .canRxLock 4 127,
      .canRxLock 3 128, .canRxRelease 4 false, .canLockTimeout 4, .canRxnewFree 4 3 0] : List Instr).all (fun c => c.wf == false) = true := by
  decide +kernel

theorem test_wf_refuses_5 :
    ([.canRxnewFree 3 4 0, .canMdataWrite 4 0, .canSleep 4, .canSleepEntered 4, .canWake 4,
      .canWakeEvent 4 .pattern, .canBorecov 4, .canBusoffRecoveryComplete 4, .canTxresume 4, .canAbortall 4, .canTsCapture 4,
      .bucketLeak 7, .stripeWindowStore 402653183 0, .stripeWindowStore 403177472 0,
      .keySessionEstablish ({ session := 512, tenant := 255, rights := 0, peer := 0, context := [] } : KeyEstablish),
      .keySessionCrypt 512 0 0, .keyTenantHmac 256 [], .keyInval 64, .keyErase 64, .tamperLoopConfirm 3 false,
      .onDieTamper 3, .swPost 17, .updErase 2, .updVerify 2] : List Instr).all (fun c => c.wf == false) = true := by
  decide +kernel

theorem test_wf_refuses_6 :
    ([.updStage 2, .updActivate 2, .updConfirm 2, .rtcFreezeRead 0, .backupByteWrite 16 0, .canRxError 4 0,
      .canIntegrationComplete 4] : List Instr).all (fun c => c.wf == false) = true := by
  decide +kernel

/-! What the witnesses below are built with. -/

/-- A record finds no room beside one other that fills the staging. -/
theorem stage_full {s : State} {r : JrnRec} (n : Nat) (h : s.img.staged = [{ task := 1, bytes := List.replicate n 0 }])
    (ht : r.task ≠ 1) (hn : stagingBytes < n + r.bytes.length) : s.stageJrn r = none := by
  have h1 : (1 == r.task) = false := by simpa using ht.symm
  have h2 : ¬ n + r.bytes.length ≤ stagingBytes := by omega
  simp [State.stageJrn, State.stagingUsed, h, h1, h2]

/-- NOR flash that holds a boot record as one written the first time: the states of slots A and B, its flags, CRC and tag. -/
def bootFlash (a b flags crc tag : Nat) : SMap Byte :=
  (bytesLE 0x52434255 4 ++ bytesLE 1 4 ++ bytesLE 1 4 ++ [0#8] ++ bytesLE a 1 ++ bytesLE b 1 ++ bytesLE flags 1 ++ zeros 204 ++
    bytesLE crc 4 ++ bytesBE tag 32).zipIdx.map fun (x, i) => (norBase + i, x)

/-- A state of the module whose MAC is m; what else stands in the registers keeps its value. -/
def withMac (s : State) (m : Nat) : State :=
  { s with regs := (R.FAB_MAC_LO.addr, BitVec.ofNat 32 m) :: (R.FAB_MAC_HI.addr, 0#32) :: s.regs }

/-- Where a slot is FREE, a new session finds one, whichever it is. -/
theorem newSlot_some {s : State} (h : (below 512 fun k => (s.sess k).state == sFree) ≠ []) : s.newSlot.isSome = true := by
  have hl : 0 < (below 512 fun k => (s.sess k).state == sFree).length := List.length_pos_iff.mpr h
  simp [State.newSlot, Nat.mod_lt _ hl]

/-- What decides whether the keep-alive restarts does not depend on the instant. -/
theorem restart_any (s : State) (t : Nat) (f g : Fld) :
    (((s.advance t).taken : State).kickNext && ((s.advance t).taken : State).on f && ((s.advance t).taken : State).on g) =
      (s.kickNext && s.on f && s.on g) := by
  have h := s.advance_same t
  have hr : ∀ f, ((s.advance t).taken : State).on f = s.on f := fun f => by
    show (s.advance t).on f = s.on f
    simp [State.on]
  have hk : ((s.advance t).taken : State).kickNext = s.kickNext := by
    show (match (s.advance t).pending with | .kick :: _ => true | .registerWrite _ a v :: _ => _ | _ => false) = _
    rw [h.pending]; rfl
  rw [hr, hr, hk]

/-- The round keys of the key of zeros are whole. -/
theorem zero_keys_whole : roundKeysWhole (aesRoundKeys (zeros 32)) := by
  show ((aesRoundKeys (zeros 32)).getD 14 []).length = 16; decide +kernel

/-- A frame sealed under the session key of zeros. -/
def sealed (h : Leat) (pt : List Byte) : Leat :=
  { h with payload := gcmSeal (zeros 32) (sessNonce h.session h.seq 0) (sessAad h) pt }

/-- A pair is its first component's value and its own second component. -/
theorem fst_is {α β : Type} {x : α × β} {a : α} (h : x.1 = a) : x = (a, x.2) := by cases x; cases h; rfl


/-- A pair is its components. -/
theorem pair_is {α β : Type} {x : α × β} : x = (x.1, x.2) := rfl


/-- An option that holds something holds what it answers with any default. -/
theorem some_is {α : Type} {x : Option α} (d : α) (h : x.isSome = true) : x = some (x.getD d) := by
  cases x <;> simp_all


/-- The same of an option of a pair. -/
theorem some_pair_is {α β : Type} {x : Option (α × β)} (d : α × β) (h : x.isSome = true) :
    x = some ((x.getD d).1, (x.getD d).2) := by
  cases x <;> simp_all


/-- A pair whose first component holds something. -/
theorem fst_some_is {α β : Type} {x : Option α × β} (d : α) (h : x.1.isSome = true) : x = (some (x.1.getD d), x.2) := by
  cases x with
  | mk a b => cases a <;> simp_all

/-! Witnesses of register_write_by_access_code. -/

theorem test_witness_register_write_by_access_code_0_0 : ∃ s : State, ∃ m : Nat, ∃ v : Word,
    m < 17 :=
  ⟨State.reset, 16, (0 : Word), by decide +kernel⟩

theorem test_witness_register_write_by_access_code_0_1 : ∃ s : State, ∃ m : Nat, ∃ v : Word,
    m < 17 ∧ s.locked = true :=
  ⟨(State.reset.raise R.SYS_LOCK.LOCK), 16, (0 : Word), by decide +kernel, by decide +kernel⟩

theorem test_witness_register_write_by_access_code_0_2 : ∃ s : State, ∃ m : Nat, ∃ v : Word,
    m < 17 ∧ s.locked = false ∧ R.SYS_STARTCFG.COLDWAIT_MS.of v ≤ 600 :=
  ⟨(State.reset.clear R.SYS_LOCK.LOCK), 16, 600, by decide +kernel, by decide +kernel, by decide +kernel⟩

theorem test_witness_register_write_by_access_code_0_3 : ∃ s : State, ∃ m : Nat, ∃ v : Word,
    m < 17 ∧ 600 < R.SYS_STARTCFG.COLDWAIT_MS.of v :=
  ⟨State.reset, 16, 601, by decide +kernel, by decide +kernel⟩

/-! Witnesses of register_read_effects. -/

theorem test_witness_register_read_effects_0_0 : ∃ s : State, ∃ m : Nat, ∃ a,
    m < 17 ∧ SMap.get (fun _ => (none : Option Word)) s.latched a = none ∧
    a ∈ [R.HOP_CNT_HIT.addr, R.GATE_CNT_ACCEPT.addr, R.LOOP_CNT_EVAL.addr, R.IMG_CNT_JSKIP.addr] :=
  ⟨State.reset, 16, R.IMG_CNT_JSKIP.addr, by decide +kernel, by decide +kernel, by simp⟩

theorem test_witness_register_read_effects_0_1 : ∃ s : State, ∃ m : Nat, ∃ a, ∃ b,
    m < 17 ∧ SMap.get (fun _ => (none : Option Word)) s.latched a = none ∧ b ≠ a ∧
    a ∈ [R.HOP_CNT_HIT.addr, R.GATE_CNT_ACCEPT.addr, R.LOOP_CNT_EVAL.addr, R.IMG_CNT_JSKIP.addr] :=
  ⟨State.reset, 16, R.IMG_CNT_JSKIP.addr, 0, by decide +kernel, by decide +kernel, by decide +kernel, by simp⟩

theorem test_witness_register_read_effects_0_2 : ∃ s : State, ∃ m : Nat,
    m < 17 ∧ SMap.get (fun _ => (none : Option Word)) s.latched R.SYS_MT_LO.addr = none :=
  ⟨State.reset, 16, by decide +kernel, by decide +kernel⟩

theorem test_witness_register_read_effects_0_3 : ∃ s : State, ∃ m : Nat, ∃ w,
    m < 17 ∧ SMap.get (fun _ => (none : Option Word)) s.latched R.SYS_MT_HI.addr = some w :=
  ⟨({ State.reset with latched := [(R.SYS_MT_HI.addr, some 1)] } : State), 16, 1, by decide +kernel, by decide +kernel⟩

theorem test_witness_register_read_effects_0_4 : ∃ s : State, ∃ m : Nat,
    m < 17 ∧ SMap.get (fun _ => (none : Option Word)) s.latched R.FAB_Q_DATA.addr = none :=
  ⟨State.reset, 16, by decide +kernel, by decide +kernel⟩

/-! Witnesses of block_enable. -/

theorem test_witness_block_enable_0_0 : ∃ s : State, ∃ u : UnitId,
    ((s.raise u.EN).raise u.ENREQ).rd u.STATE ≠ stOff :=
  ⟨(State.reset.wr UnitId.hop.STATE stRun), UnitId.hop, by decide +kernel⟩

theorem test_witness_block_enable_1_0 : ∃ s : State, ∃ u : UnitId, ∃ cause : Nat, ∃ arg : Nat,
    ((s.raise u.EN).raise u.ENREQ : State).rd u.STATE = stOff ∧
    ((match u.ring with | some b => if (((s.raise u.EN).raise u.ENREQ : State).assist u && ((s.raise u.EN).raise u.ENREQ : State).ringBad b) = true then ((s.raise u.EN).raise u.ENREQ : State).raise b.BADRING else ((s.raise u.EN).raise u.ENREQ : State) | none => ((s.raise u.EN).raise u.ENREQ : State)) : State).unitFault u = some (cause, arg) :=
  ⟨((State.reset.wr UnitId.hop.STATE stOff).wr R.HOP_RBASE.RBASE 0), UnitId.hop, _, _, by decide +kernel,
   some_pair_is (0, 0) (by decide +kernel)⟩

theorem test_witness_block_enable_2_0 : ∃ s : State, ∃ u : UnitId,
    ((s.raise u.EN).raise u.ENREQ : State).rd u.STATE = stOff ∧
    ((match u.ring with | some b => if (((s.raise u.EN).raise u.ENREQ : State).assist u && ((s.raise u.EN).raise u.ENREQ : State).ringBad b) = true then ((s.raise u.EN).raise u.ENREQ : State).raise b.BADRING else ((s.raise u.EN).raise u.ENREQ : State) | none => ((s.raise u.EN).raise u.ENREQ : State)) : State).unitFault u = none :=
  ⟨(State.reset.wr UnitId.jrn.STATE stOff), UnitId.jrn, by decide +kernel, by decide +kernel⟩

/-! Witnesses of block_disable. -/

theorem test_witness_block_disable_0_0 : ∃ s : State, ∃ u : UnitId,
    s.rd u.STATE = stRun :=
  ⟨(State.reset.wr UnitId.hop.STATE stRun), UnitId.hop, by decide +kernel⟩

theorem test_witness_block_disable_1_0 : ∃ s : State, ∃ u : UnitId,
    s.rd u.STATE = stFault ∧ u.FARG = none :=
  ⟨(State.reset.wr UnitId.jrn.STATE stFault), UnitId.jrn, by decide +kernel, by decide +kernel⟩

theorem test_witness_block_disable_2_0 : ∃ s : State, ∃ u : UnitId, ∃ f : Fld,
    s.rd u.STATE = stFault ∧ u.FARG = some f :=
  ⟨(State.reset.wr UnitId.hop.STATE stFault), UnitId.hop, R.HOP_STAT.FARG, by decide +kernel, by decide +kernel⟩

theorem test_witness_block_disable_3_0 : ∃ s : State, ∃ u : UnitId,
    (s.rd u.STATE = stOff ∨ s.rd u.STATE = stDrain) :=
  ⟨(State.reset.wr UnitId.hop.STATE stOff), UnitId.hop, by decide +kernel⟩

theorem test_witness_block_disable_4_0 : ∃ s : State, ∃ u : UnitId,
    s.rd u.STATE = stDrain ∧ s.unitDrained u = true ∧ s.on u.ENREQ = false :=
  ⟨((State.reset.wr UnitId.hop.STATE stDrain).clear UnitId.hop.ENREQ), UnitId.hop, by decide +kernel, by decide +kernel,
   by decide +kernel⟩

theorem test_witness_block_disable_5_0 : ∃ s : State, ∃ u : UnitId,
    s.rd u.STATE = stDrain ∧ s.unitDrained u = true ∧ s.on u.ENREQ = true :=
  ⟨((State.reset.wr UnitId.hop.STATE stDrain).raise UnitId.hop.ENREQ), UnitId.hop, by decide +kernel, by decide +kernel,
   by decide +kernel⟩

theorem test_witness_block_disable_6_0 : ∃ s : State, ∃ u : UnitId,
    (s.rd u.STATE ≠ stDrain ∨ s.unitDrained u = false) :=
  ⟨State.reset, UnitId.hop, by decide +kernel⟩

theorem test_witness_block_disable_7_0 : ∃ s : State, ∃ u : UnitId, ∃ cause : Nat,
    u.xbarCause = some cause ∧ s.working u = true :=
  ⟨(State.reset.wr UnitId.hop.STATE stRun), UnitId.hop, _, some_is 0 (by decide +kernel), by decide +kernel⟩

theorem test_witness_block_disable_8_0 : ∃ s : State, ∃ u : UnitId,
    (u.xbarCause = none ∨ s.working u = false) :=
  ⟨State.reset, UnitId.hop, by decide +kernel⟩

/-! Witnesses of mode_and_assist. -/

theorem test_witness_mode_and_assist_0_0 : ∃ s : State, ∃ b : AsnBlock, ∃ v : Word,
    s.rd b.unit.STATE = stOff :=
  ⟨(State.reset.wr AsnBlock.hop.unit.STATE stOff), AsnBlock.hop, (0 : Word), by decide +kernel⟩

theorem test_witness_mode_and_assist_1_0 : ∃ s : State, ∃ b : AsnBlock, ∃ v : Word,
    s.rd b.unit.STATE ≠ stOff ∧ s.rd b.unit.MODE ≠ b.unit.MODE.of v :=
  ⟨(State.reset.wr AsnBlock.hop.unit.STATE stRun), AsnBlock.hop, 0xFFFFFFFF, by decide +kernel, by decide +kernel⟩

theorem test_witness_mode_and_assist_2_0 : ∃ s : State, ∃ b : AsnBlock, ∃ v : Word,
    s.rd b.unit.STATE ≠ stOff ∧ s.rd b.unit.MODE = b.unit.MODE.of v :=
  ⟨((State.reset.wr AsnBlock.hop.unit.STATE stRun).wr AsnBlock.hop.unit.MODE (AsnBlock.hop.unit.MODE.of (0 : Word))),
   AsnBlock.hop, (0 : Word), by decide +kernel, by decide +kernel⟩

theorem test_witness_mode_and_assist_3_0 : ∃ s : State, ∃ b : AsnBlock, ∃ v : Word,
    s.rd b.unit.STATE = stOff :=
  ⟨(State.reset.wr AsnBlock.hop.unit.STATE stOff), AsnBlock.hop, (0 : Word), by decide +kernel⟩

theorem test_witness_mode_and_assist_3_1 : ∃ s : State, ∃ b : AsnBlock, ∃ v : Word,
    s.rd b.unit.STATE ≠ stOff :=
  ⟨(State.reset.wr AsnBlock.hop.unit.STATE stRun), AsnBlock.hop, (0 : Word), by decide +kernel⟩

theorem test_witness_mode_and_assist_4_0 : ∃ s : State, ∃ b : AsnBlock,
    (s.working b.unit = false ∨ s.assist b.unit = false ∨ s.asnReap b = none) :=
  ⟨State.reset, AsnBlock.hop, by decide +kernel⟩

theorem test_witness_mode_and_assist_5_0 : ∃ s : State, ∃ b : AsnBlock, ∃ r : Reaped,
    s.working b.unit = true ∧ s.assist b.unit = true ∧ s.asnReap b = some r ∧ (asnApply b State.assistOpened r).asnReap b = none :=
  ⟨((((State.reset.wr (AsnBlock.hop.unit).STATE stRun).raise (AsnBlock.hop.unit).MODE_ACT).wr AsnBlock.hop.BASE 0x800000).setPosts AsnBlock.hop [{ seq := 0, func := 1, src := 0, postedAt := 0 }]),
   AsnBlock.hop, _, by decide +kernel, by decide +kernel,
   some_is ({ post := { seq := 0, func := 1, src := 0, postedAt := 0 }, status := 0, result := [], ok := true, st := State.reset } : Reaped) (by decide +kernel),
   by decide +kernel⟩

theorem test_witness_mode_and_assist_6_0 : ∃ s : State, ∃ b : AsnBlock,
    (s.posts b).find? (fun p => !p.timedOut && s.owned b p) = none :=
  ⟨State.reset, AsnBlock.hop, by decide +kernel⟩

theorem test_witness_mode_and_assist_7_0 : ∃ s : State, ∃ b : AsnBlock, ∃ p : AsnPost, ∃ x : AsnPost, ∃ t : State,
    (s.posts b).find? (fun q => !q.timedOut && s.owned b q) = some p ∧
    (s.advance (p.postedAt + us * s.rd b.TMO)).asnTimeout b = some (x, t) :=
  ⟨(((State.reset.setPosts AsnBlock.hop [{ seq := 0, func := 1, src := 0, postedAt := 0 }]).wr AsnBlock.hop.BASE 0x800000).putBytes 0x10000003 [1]),
   AsnBlock.hop, ({ seq := 0, func := 1, src := 0, postedAt := 0 } : AsnPost), _, _, by decide +kernel,
   some_pair_is (({ seq := 0, func := 1, src := 0, postedAt := 0 } : AsnPost), State.reset) (by decide +kernel)⟩

/-! Witnesses of core_access. -/

theorem test_witness_core_access_0_0 : ∃ s : State, ∃ c : Nat, ∃ addr : Nat, ∃ size : Nat, ∃ k : MemKind, ∃ v : Word64,
    c < 17 ∧ addr < 2 ^ 32 ∧ sizeOk k size = true ∧ s.busError c k addr size = true :=
  ⟨State.reset, 16, (4294967295), 8, .load, (0 : Word64), by decide +kernel, by decide +kernel, by decide +kernel,
   by decide +kernel⟩

theorem test_witness_core_access_2_0 : ∃ s : State, ∃ c : Nat, ∃ addr : Nat, ∃ size : Nat, ∃ k : MemKind, ∃ v : Word64,
    c < 17 ∧ addr < 2 ^ 32 ∧ sizeOk k size = true ∧ (k = .load ∨ k = .fetch) ∧ s.busError c k addr size = false ∧
    regionOf addr ≠ some .regs ∧
    (((if inGeneral addr size = true then s.showAges else s) : State).coreRead c (k == .fetch) addr size : Fetched).poison = none :=
  ⟨State.reset, 16, 0x107FFFF8, 8, .load, (0 : Word64), by decide +kernel, by decide +kernel, by decide +kernel,
   by decide +kernel, by decide +kernel, by decide +kernel, by decide +kernel⟩

theorem test_witness_core_access_2_1 : ∃ s : State, ∃ c : Nat, ∃ addr : Nat, ∃ size : Nat, ∃ k : MemKind, ∃ v : Word64, ∃ w,
    c < 17 ∧ addr < 2 ^ 32 ∧ sizeOk k size = true ∧ (k = .load ∨ k = .fetch) ∧ s.busError c k addr size = false ∧
    regionOf addr ≠ some .regs ∧
    (((if inGeneral addr size = true then s.showAges else s) : State).coreRead c (k == .fetch) addr size : Fetched).poison = some w :=
  ⟨(State.reset.setFlaw 0x2000000 { par := 0xFF, tags := 1 }), 16, 0x10000000, 8, MemKind.load, (0 : Word64), _,
   by decide +kernel, by decide +kernel, by decide +kernel, by decide +kernel, by decide +kernel, by decide +kernel,
   some_is 0 (by decide +kernel)⟩

theorem test_witness_core_access_4_0 : ∃ s : State, ∃ c : Nat, ∃ addr : Nat, ∃ size : Nat, ∃ v : Word64,
    c < 17 ∧ addr < 2 ^ 32 ∧ sizeOk .store size = true ∧ s.busError c .store addr size = false ∧ regionOf addr ≠ some .regs :=
  ⟨State.reset, 16, 0x107FFFF8, 8, (0 : Word64), by decide +kernel, by decide +kernel, by decide +kernel, by decide +kernel,
   by decide +kernel⟩

theorem test_witness_core_access_5_0 : ∃ s : State, ∃ c : Nat, ∃ addr : Nat, ∃ size : Nat, ∃ v : Word64,
    c < 17 ∧ addr < 2 ^ 32 ∧ sizeOk (.amo (.sc : AmoOp)) size = true ∧ s.busError c (.amo (.sc : AmoOp)) addr size = false ∧
    addr % 4 = 0 ∧ regionOf addr ≠ some .regs ∧
    ((if inGeneral addr size = true then s.showAges else s) : State).holds c (((if inGeneral addr size = true then s.showAges else s) : State).phys c addr) = false :=
  ⟨State.reset, 16, 0x107FFFFC, 4, (0 : Word64), by decide +kernel, by decide +kernel, by decide +kernel, by decide +kernel,
   by decide +kernel, by decide +kernel, by decide +kernel⟩

theorem test_witness_core_access_5_2 : ∃ s : State, ∃ c : Nat, ∃ addr : Nat, ∃ size : Nat, ∃ v : Word64,
    c < 17 ∧ addr < 2 ^ 32 ∧ sizeOk (.amo (.lr : AmoOp)) size = true ∧ s.busError c (.amo (.lr : AmoOp)) addr size = false ∧
    addr % 4 = 0 ∧ regionOf addr ≠ some .regs ∧
    (((if inGeneral addr size = true then s.showAges else s) : State).coreRead c false addr size).poison = none :=
  ⟨State.reset, 16, 0x107FFFFC, 4, (0 : Word64), by decide +kernel, by decide +kernel, by decide +kernel, by decide +kernel,
   by decide +kernel, by decide +kernel, by decide +kernel⟩

theorem test_witness_core_access_5_3 : ∃ s : State, ∃ c : Nat, ∃ addr : Nat, ∃ size : Nat, ∃ v : Word64, ∃ op : AmoOp,
    c < 17 ∧ addr < 2 ^ 32 ∧ sizeOk (.amo op) size = true ∧ s.busError c (.amo op) addr size = false ∧ addr % 4 = 0 ∧
    regionOf addr ≠ some .regs ∧ op ≠ .sc ∧ op ≠ .lr ∧
    (((if inGeneral addr size = true then s.showAges else s) : State).coreRead c false addr size).poison = none :=
  ⟨State.reset, 16, 0x107FFFFC, 4, (0 : Word64), AmoOp.swap, by decide +kernel, by decide +kernel, by decide +kernel,
   by decide +kernel, by decide +kernel, by decide +kernel, by decide +kernel, by decide +kernel, by decide +kernel⟩

theorem test_witness_core_access_6_0 : ∃ s : State, ∃ c : Nat, ∃ addr : Nat, ∃ size : Nat, ∃ k : MemKind, ∃ v : Word64,
    c < 17 ∧ addr < 2 ^ 32 ∧ sizeOk k size = true ∧ s.busError c k addr size = false ∧ misAmo k addr = false ∧
    regionOf addr = some .regs :=
  ⟨State.reset, 16, 0x4011FFF8, 8, MemKind.load, (0 : Word64), by decide +kernel, by decide +kernel, by decide +kernel,
   by decide +kernel, by decide +kernel, by decide +kernel⟩

theorem test_witness_core_access_7_0 : ∃ s : State, ∃ c,
    c < 17 :=
  ⟨(State.reset.setLine false (lineKey 16 4294967295) (some { dirty := true, data := zeros 64 })), 16, by decide +kernel⟩

theorem test_witness_core_access_8_0 : ∃ s : State, ∃ c : Nat, ∃ addr : Nat, ∃ v : Word,
    c < 17 ∧ addr < 2 ^ 32 ∧ (s.hart c).user = true :=
  ⟨(State.reset.setHart 16 { user := true }), 16, (4294967295), (0 : Word), by decide +kernel, by decide +kernel,
   by decide +kernel⟩

theorem test_witness_core_access_9_0 : ∃ s : State, ∃ c, ∃ addr,
    c < 17 ∧ addr < 2 ^ 32 ∧ (s.hart c).user = false ∧ s.cacheLine false (lineKey c addr) = none :=
  ⟨State.reset, 16, (4294967295), by decide +kernel, by decide +kernel, by decide +kernel, by decide +kernel⟩

theorem test_witness_core_access_10_0 : ∃ s : State, ∃ c : Nat, ∃ addr : Nat, ∃ x : CacheLine,
    c < 17 ∧ addr < 2 ^ 32 ∧ (s.hart c).user = false ∧ s.cacheLine false (lineKey c addr) = some x :=
  ⟨(State.reset.setLine false (lineKey 15 4294967295) (some { dirty := false, data := zeros 64 })), 15, (4294967295),
   { dirty := false, data := zeros 64 }, by decide +kernel, by decide +kernel, by decide +kernel, by decide +kernel⟩

theorem test_witness_core_access_10_1 : ∃ s : State, ∃ c : Nat, ∃ addr : Nat, ∃ x : CacheLine,
    c < 17 ∧ addr < 2 ^ 32 ∧ (s.hart c).user = false ∧ s.cacheLine false (lineKey c addr) = some x ∧ x.dirty = false :=
  ⟨(State.reset.setLine false (lineKey 15 4294967295) (some { dirty := false, data := zeros 64 })), 15, (4294967295),
   { dirty := false, data := zeros 64 }, by decide +kernel, by decide +kernel, by decide +kernel, by decide +kernel,
   by decide +kernel⟩

theorem test_witness_core_access_11_0 : ∃ s : State, ∃ c, ∃ addr,
    c < 17 ∧ addr < 2 ^ 32 ∧ (s.hart c).user = false :=
  ⟨State.reset, 16, (4294967295), by decide +kernel, by decide +kernel, by decide +kernel⟩

theorem test_witness_core_access_12_0 : ∃ s : State, ∃ c,
    c < 17 ∧ (s.hart c).user = false :=
  ⟨State.reset, 16, by decide +kernel, by decide +kernel⟩

theorem test_witness_core_access_12_1 : ∃ s : State, ∃ c, ∃ p,
    c < 17 ∧ (s.hart c).user = false ∧ p < 2 ^ 32 :=
  ⟨State.reset, 16, (4294967295), by decide +kernel, by decide +kernel, by decide +kernel⟩

theorem test_witness_core_access_13_0 : ∃ s : State, ∃ c : Nat, ∃ v : Word,
    c < 17 ∧ (s.hart c).user = false :=
  ⟨State.reset, 16, (0 : Word), by decide +kernel, by decide +kernel⟩

/-! Witnesses of task_release. -/

theorem test_witness_task_release_0_0 : ∃ s : State, ∃ t : Nat,
    t < 256 ∧ s.withheld = false ∧ s.freeTask t = false ∧ (s.task t).armed = true ∧ s.tstate t = tsIdle ∧ s.leadNs t ≠ 0 ∧
    (s.advanceMt ((s.task t).nextRel - s.leadNs t) : State).mtNs < (s.task t).nextRel :=
  ⟨((((((State.reset.setTask 255 { armed := true }).wr UnitId.sch.STATE stRun).clear (R.SCH_CORE_CFG.FREE 0)).wr (R.SCH_TASK_STAT.STATE 255) tsIdle).setTask 255 { armed := true, nextRel := 1000000 }).wr (R.SCH_TASK_LEAD.LEAD_US 255) 1),
   255, by decide +kernel, by decide +kernel, by decide +kernel, by decide +kernel, by decide +kernel, by decide +kernel,
   by decide +kernel⟩

theorem test_witness_task_release_0_1 : ∃ s : State, ∃ t : Nat,
    t < 256 ∧ s.withheld = false ∧ s.freeTask t = false ∧ (s.task t).armed = true ∧ s.tstate t = tsIdle ∧ s.leadNs t ≠ 0 ∧
    (s.task t).nextRel ≤ (s.advanceMt ((s.task t).nextRel - s.leadNs t) : State).mtNs :=
  ⟨((((((State.reset.setTask 255 { armed := true }).wr UnitId.sch.STATE stRun).clear (R.SCH_CORE_CFG.FREE 0)).wr (R.SCH_TASK_STAT.STATE 255) tsIdle).setTask 255 { armed := true, nextRel := 0 }).wr (R.SCH_TASK_LEAD.LEAD_US 255) 1),
   255, by decide +kernel, by decide +kernel, by decide +kernel, by decide +kernel, by decide +kernel, by decide +kernel,
   by decide +kernel⟩

theorem test_witness_task_release_1_0 : ∃ s : State, ∃ t,
    t < 256 ∧ (s.withheld = true ∨ s.freeTask t = true ∨ (s.task t).armed = false ∨ s.tstate t ≠ tsIdle ∨ s.leadNs t = 0) :=
  ⟨State.reset, 255, by decide +kernel, by decide +kernel⟩

theorem test_witness_task_release_2_0 : ∃ s : State, ∃ t : Nat,
    t < 256 ∧ s.freeTask t = false ∧ (s.task t).armed = true ∧ (s.task t).sharedAt ≠ some s.mtNs :=
  ⟨((State.reset.setTask 255 { armed := true }).clear (R.SCH_CORE_CFG.FREE 0)), 255, by decide +kernel, by decide +kernel,
   by decide +kernel, by decide +kernel⟩

theorem test_witness_task_release_3_0 : ∃ s : State, ∃ t,
    t < 256 ∧ s.freeTask t = false ∧ (s.task t).armed = true ∧ (s.task t).sharedAt = some s.mtNs :=
  ⟨((((State.reset.setTask 255 { armed := true }).setTask 255 { sharedAt := some State.reset.mtNs }).clear (R.SCH_CORE_CFG.FREE 0)).setTask 255 { armed := true, sharedAt := some 0 }),
   255, by decide +kernel, by decide +kernel, by decide +kernel, by decide +kernel⟩

theorem test_witness_task_release_4_0 : ∃ s : State, ∃ t,
    t < 256 ∧ (s.freeTask t = true ∨ (s.task t).armed = false) :=
  ⟨(State.reset.raise (R.SCH_CORE_CFG.FREE 0)), 255, by decide +kernel, by decide +kernel⟩

theorem test_witness_task_release_6_0 : ∃ s : State,
    s.withheld = true :=
  ⟨State.reset, by decide +kernel⟩

theorem test_witness_task_release_6_1 : ∃ s : State, ∃ t,
    s.withheld = false ∧ s.tstate t = tsIdle :=
  ⟨((State.reset.wr UnitId.sch.STATE stRun).wr (R.SCH_TASK_STAT.STATE 0) tsIdle), 0, by decide +kernel, by decide +kernel⟩

theorem test_witness_task_release_6_2 : ∃ s : State, ∃ t,
    s.withheld = false ∧ s.tstate t = tsImaging ∧ (s.task t).released = false :=
  ⟨((State.reset.wr UnitId.sch.STATE stRun).wr (R.SCH_TASK_STAT.STATE 0) tsImaging), 0, by decide +kernel, by decide +kernel,
   by decide +kernel⟩

theorem test_witness_task_release_6_3 : ∃ s : State, ∃ t,
    s.withheld = false ∧ s.tstate t ≠ tsIdle ∧ (s.tstate t ≠ tsImaging ∨ (s.task t).released = true) :=
  ⟨(State.reset.wr UnitId.sch.STATE stRun), 0, by decide +kernel, by decide +kernel, by decide +kernel⟩

theorem test_witness_task_release_7_0 : ∃ s : State, ∃ t : Nat,
    t < 256 ∧ s.freeTask t = true ∧ (s.task t).armed = true :=
  ⟨((State.reset.setTask 255 { armed := true }).raise (R.SCH_CORE_CFG.FREE 0)), 255, by decide +kernel, by decide +kernel,
   by decide +kernel⟩

theorem test_witness_task_release_8_0 : ∃ s : State, ∃ t,
    t < 256 ∧ (s.freeTask t = false ∨ (s.task t).armed = false) :=
  ⟨(State.reset.clear (R.SCH_CORE_CFG.FREE 0)), 255, by decide +kernel, by decide +kernel⟩

theorem test_witness_task_release_9_0 : ∃ s : State, ∃ t : Nat,
    t < 256 ∧ s.freeTask t = true ∧ s.inFlight t = true :=
  ⟨((State.reset.raise (R.SCH_CORE_CFG.FREE 0)).wr (R.SCH_TASK_STAT.STATE 255) tsReady), 255, by decide +kernel,
   by decide +kernel, by decide +kernel⟩

theorem test_witness_task_release_10_0 : ∃ s : State, ∃ t,
    t < 256 ∧ (s.freeTask t = false ∨ s.inFlight t = false) :=
  ⟨(State.reset.clear (R.SCH_CORE_CFG.FREE 0)), 255, by decide +kernel, by decide +kernel⟩

/-! Witnesses of iteration_end. -/

theorem test_witness_iteration_end_0_0 : ∃ s : State, ∃ m : Nat,
    m < 16 ∧ s.on (R.SCH_CORE_STAT.ERRRUN m) = false ∧ s.on (R.SCH_CORE_STAT.BUSY m) = true :=
  ⟨((State.reset.clear (R.SCH_CORE_STAT.ERRRUN 15)).raise (R.SCH_CORE_STAT.BUSY 15)), 15, by decide +kernel, by decide +kernel,
   by decide +kernel⟩

theorem test_witness_iteration_end_1_0 : ∃ s : State, ∃ m,
    m < 16 ∧ s.on (R.SCH_CORE_STAT.ERRRUN m) = false ∧ s.on (R.SCH_CORE_STAT.BUSY m) = false :=
  ⟨((State.reset.clear (R.SCH_CORE_STAT.ERRRUN 15)).clear (R.SCH_CORE_STAT.BUSY 15)), 15, by decide +kernel, by decide +kernel,
   by decide +kernel⟩

theorem test_witness_iteration_end_3_0 : ∃ s : State, ∃ m : Nat,
    m < 16 ∧ s.on (R.SCH_CORE_STAT.ERRRUN m) = true :=
  ⟨(State.reset.raise (R.SCH_CORE_STAT.ERRRUN 15)), 15, by decide +kernel, by decide +kernel⟩

theorem test_witness_iteration_end_4_0 : ∃ s : State, ∃ m : Nat,
    m < 16 ∧ s.on (R.SCH_CORE_STAT.ERRRUN m) = true :=
  ⟨(State.reset.raise (R.SCH_CORE_STAT.ERRRUN 15)), 15, by decide +kernel, by decide +kernel⟩

theorem test_witness_iteration_end_5_0 : ∃ s : State, ∃ m,
    m < 16 ∧ s.on (R.SCH_CORE_STAT.ERRRUN m) = false ∧ s.on (R.SCH_CORE_STAT.BUSY m) = false :=
  ⟨((State.reset.clear (R.SCH_CORE_STAT.ERRRUN 15)).clear (R.SCH_CORE_STAT.BUSY 15)), 15, by decide +kernel, by decide +kernel,
   by decide +kernel⟩

theorem test_witness_iteration_end_6_0 : ∃ s : State, ∃ m,
    m < 16 ∧ s.on (R.SCH_CORE_STAT.ERRRUN m) = false ∧ s.on (R.SCH_CORE_STAT.BUSY m) = true :=
  ⟨((State.reset.clear (R.SCH_CORE_STAT.ERRRUN 15)).raise (R.SCH_CORE_STAT.BUSY 15)), 15, by decide +kernel, by decide +kernel,
   by decide +kernel⟩

theorem test_witness_iteration_end_8_0 : ∃ s : State, ∃ t,
    t < 256 ∧ s.inFlight t = true :=
  ⟨(State.reset.wr (R.SCH_TASK_STAT.STATE 255) tsReady), 255, by decide +kernel, by decide +kernel⟩

theorem test_witness_iteration_end_9_0 : ∃ s : State, ∃ t,
    t < 256 ∧ s.tstate t = tsImaging ∧ (s.task t).released = false :=
  ⟨(State.reset.wr (R.SCH_TASK_STAT.STATE 255) tsImaging), 255, by decide +kernel, by decide +kernel, by decide +kernel⟩

theorem test_witness_iteration_end_10_0 : ∃ s : State, ∃ t,
    t < 256 ∧ (s.tstate t = tsUnused ∨ s.tstate t = tsStopped) :=
  ⟨(State.reset.wr (R.SCH_TASK_STAT.STATE 255) tsUnused), 255, by decide +kernel, by decide +kernel⟩

theorem test_witness_iteration_end_11_0 : ∃ s : State, ∃ t,
    t < 256 ∧ s.tstate t = tsIdle :=
  ⟨(State.reset.wr (R.SCH_TASK_STAT.STATE 255) tsIdle), 255, by decide +kernel, by decide +kernel⟩

theorem test_witness_iteration_end_12_0 : ∃ s : State, ∃ t,
    t < 256 ∧ s.tstate t ≠ tsStopped :=
  ⟨State.reset, 255, by decide +kernel, by decide +kernel⟩

theorem test_witness_iteration_end_13_0 : ∃ s : State, ∃ t : Nat,
    t < 256 ∧ s.tstate t = tsStopped ∧ ((s.setTstate t tsIdle).wr (R.SCH_TASK_STAT.STOPSRC t) 0 : State).working .sch = false :=
  ⟨(State.reset.wr (R.SCH_TASK_STAT.STATE 255) tsStopped), 255, by decide +kernel, by decide +kernel, by decide +kernel⟩

theorem test_witness_iteration_end_14_0 : ∃ s : State, ∃ t : Nat,
    t < 256 ∧ s.tstate t = tsStopped ∧ ((s.setTstate t tsIdle).wr (R.SCH_TASK_STAT.STOPSRC t) 0 : State).working .sch = true ∧
    ((s.setTstate t tsIdle).wr (R.SCH_TASK_STAT.STOPSRC t) 0 : State).withheld = false :=
  ⟨((State.reset.wr (R.SCH_TASK_STAT.STATE 255) tsStopped).wr UnitId.sch.STATE stRun), 255, by decide +kernel,
   by decide +kernel, by decide +kernel, by decide +kernel⟩

theorem test_witness_iteration_end_15_0 : ∃ s : State, ∃ t : Nat,
    t < 256 ∧ s.tstate t = tsStopped ∧ ((s.setTstate t tsIdle).wr (R.SCH_TASK_STAT.STOPSRC t) 0 : State).working .sch = true ∧
    ((s.setTstate t tsIdle).wr (R.SCH_TASK_STAT.STOPSRC t) 0 : State).withheld = true :=
  ⟨(((State.reset.wr (R.SCH_TASK_STAT.STATE 255) tsStopped).wr UnitId.sch.STATE stRun).wr R.SCH_STAT.HOLD 1), 255,
   by decide +kernel, by decide +kernel, by decide +kernel, by decide +kernel⟩

/-! Witnesses of idle_windows. -/

theorem test_witness_idle_windows_0_0 : ∃ s : State,
    s.sch.winStart = none :=
  ⟨({ State.reset with sch.winStart := none } : State), by decide +kernel⟩

theorem test_witness_idle_windows_1_0 : ∃ s : State, ∃ b : Nat,
    s.sch.winStart = some b :=
  ⟨({ State.reset with sch.winStart := some 0 } : State), 0, by decide +kernel⟩

theorem test_witness_idle_windows_2_0 : ∃ s : State, ∃ v : Word,
    v.getLsbD 31 = false ∧ 1 ≤ getField v 0 13 ∧ getField v 0 13 ≤ 8000 ∧ getField v 0 13 ≠ s.rd R.SCH_IDLE_WIN.WIN_MS :=
  ⟨State.reset, 8000, by decide +kernel, by decide +kernel, by decide +kernel, by decide +kernel⟩

theorem test_witness_idle_windows_3_0 : ∃ s : State, ∃ v : Word,
    v.getLsbD 31 = false ∧ (getField v 0 13 = 0 ∨ 8000 < getField v 0 13) :=
  ⟨State.reset, (0 : Word), by decide +kernel, by decide +kernel⟩

theorem test_witness_idle_windows_4_1 : ∃ s : State, ∃ c,
    c < 16 :=
  ⟨State.reset, 15, by decide +kernel⟩

theorem test_witness_idle_windows_4_2 : ∃ s : State, ∃ a,
    (∀ c, (c < 16) → a ≠ R.SCH_CORE_IDLEMIN.addr c) :=
  ⟨State.reset, 0, by decide +kernel⟩

/-! Witnesses of switch_points. -/

theorem test_witness_switch_points_0_0 : ∃ s : State,
    s.sch.nextBound = none :=
  ⟨State.reset, by decide +kernel⟩

theorem test_witness_switch_points_1_0 : ∃ s : State, ∃ b : Nat, ∃ v : State,
    s.sch.nextBound = some b ∧
    ((({ s.advance b with sch := { (s.advance b).sch with holdBound := stillAhead b (s.advance b).sch.holdBound, drainBound := stillAhead b (s.advance b).sch.drainBound } } : State).sch.tasks.map (·.1)).filter (fun t => ({ s.advance b with sch := { (s.advance b).sch with holdBound := stillAhead b (s.advance b).sch.holdBound, drainBound := stillAhead b (s.advance b).sch.drainBound } } : State).inFlight t && ({ s.advance b with sch := { (s.advance b).sch with holdBound := stillAhead b (s.advance b).sch.holdBound, drainBound := stillAhead b (s.advance b).sch.drainBound } } : State).tstate t != tsCommitting) : List Nat) = [] :=
  ⟨({ State.reset with sch.holdBound := some 5 } : State), 5, State.reset, by decide +kernel, by decide +kernel⟩

theorem test_witness_switch_points_1_1 : ∃ s : State, ∃ b : Nat,
    s.sch.nextBound = some b ∧
    ((({ s.advance b with sch := { (s.advance b).sch with holdBound := stillAhead b (s.advance b).sch.holdBound, drainBound := stillAhead b (s.advance b).sch.drainBound } } : State).sch.tasks.map (·.1)).filter (fun t => ({ s.advance b with sch := { (s.advance b).sch with holdBound := stillAhead b (s.advance b).sch.holdBound, drainBound := stillAhead b (s.advance b).sch.drainBound } } : State).inFlight t && ({ s.advance b with sch := { (s.advance b).sch with holdBound := stillAhead b (s.advance b).sch.holdBound, drainBound := stillAhead b (s.advance b).sch.drainBound } } : State).tstate t != tsCommitting) : List Nat) ≠ [] ∧
    (({ s.advance b with sch := { (s.advance b).sch with holdBound := stillAhead b (s.advance b).sch.holdBound, drainBound := stillAhead b (s.advance b).sch.drainBound } } : State).raise R.SCH_INTSTAT.QABORT : State).rd R.SCH_STAT.HOLDSRC ≠ 2 :=
  ⟨((((({ State.reset with sch.holdBound := some 5 } : State).wr (R.SCH_TASK_STAT.STATE 0) tsRunning).setTask 0 { released := true }).wr R.SCH_STAT.HOLD 1).wr R.SCH_STAT.HOLDSRC 1),
   5, by decide +kernel, by decide +kernel, by decide +kernel⟩

theorem test_witness_switch_points_1_2 : ∃ s : State, ∃ b : Nat,
    s.sch.nextBound = some b ∧
    ((({ s.advance b with sch := { (s.advance b).sch with holdBound := stillAhead b (s.advance b).sch.holdBound, drainBound := stillAhead b (s.advance b).sch.drainBound } } : State).sch.tasks.map (·.1)).filter (fun t => ({ s.advance b with sch := { (s.advance b).sch with holdBound := stillAhead b (s.advance b).sch.holdBound, drainBound := stillAhead b (s.advance b).sch.drainBound } } : State).inFlight t && ({ s.advance b with sch := { (s.advance b).sch with holdBound := stillAhead b (s.advance b).sch.holdBound, drainBound := stillAhead b (s.advance b).sch.drainBound } } : State).tstate t != tsCommitting) : List Nat) ≠ [] ∧
    (({ s.advance b with sch := { (s.advance b).sch with holdBound := stillAhead b (s.advance b).sch.holdBound, drainBound := stillAhead b (s.advance b).sch.drainBound } } : State).raise R.SCH_INTSTAT.QABORT : State).rd R.SCH_STAT.HOLDSRC = 2 :=
  ⟨((((({ (State.reset.wr R.SCH_STAT.HOLDSRC 2) with sch.holdBound := some 5 } : State).wr (R.SCH_TASK_STAT.STATE 0) tsRunning).setTask 0 { released := true }).wr R.SCH_STAT.HOLD 1).wr R.SCH_STAT.HOLDSRC 2),
   5, by decide +kernel, by decide +kernel, by decide +kernel⟩

theorem test_witness_switch_points_2_0 : ∃ s : State,
    (s.on R.SCH_SWP_CMD.ARM = true ∨ s.rd R.SCH_STAT.HOLD ≠ 0) :=
  ⟨(State.reset.raise R.SCH_SWP_CMD.ARM), by decide +kernel⟩

theorem test_witness_switch_points_3_0 : ∃ s : State,
    s.on R.SCH_SWP_CMD.ARM = false ∧ s.rd R.SCH_STAT.HOLD = 0 :=
  ⟨(((State.reset.clear R.SCH_SWP_CMD.ARM).wr R.SCH_STAT.HOLD 0).wr64 R.SCH_SWP_LO.addr R.SCH_SWP_HI.addr 1),
   by decide +kernel, by decide +kernel⟩

theorem test_witness_switch_points_4_0 : ∃ s : State,
    s.on R.SCH_SWP_CMD.ARM = false :=
  ⟨(State.reset.clear R.SCH_SWP_CMD.ARM), by decide +kernel⟩

theorem test_witness_switch_points_5_0 : ∃ s : State,
    s.on R.SCH_SWP_CMD.ARM = true ∧ s.rd R.UPD_PHASE.PHASE ≠ 2 :=
  ⟨(State.reset.raise R.SCH_SWP_CMD.ARM), by decide +kernel, by decide +kernel⟩

theorem test_witness_switch_points_6_0 : ∃ s : State,
    s.on R.SCH_SWP_CMD.ARM = true ∧ s.rd R.UPD_PHASE.PHASE = 2 :=
  ⟨((State.reset.raise R.SCH_SWP_CMD.ARM).wr R.UPD_PHASE.PHASE 2), by decide +kernel, by decide +kernel⟩

theorem test_witness_switch_points_7_0 : ∃ s : State,
    s.on R.SCH_SWP_CMD.ARM = true ∧ s.rd R.UPD_PHASE.PHASE ≠ 2 :=
  ⟨(State.reset.raise R.SCH_SWP_CMD.ARM), by decide +kernel, by decide +kernel⟩

theorem test_witness_switch_points_7_1 : ∃ s : State,
    s.on R.SCH_SWP_CMD.ARM = true ∧ s.rd R.UPD_PHASE.PHASE = 2 :=
  ⟨((State.reset.raise R.SCH_SWP_CMD.ARM).wr R.UPD_PHASE.PHASE 2), by decide +kernel, by decide +kernel⟩

theorem test_witness_switch_points_8_0 : ∃ s : State,
    (s.rd R.SCH_STAT.HOLD = 0 ∨ s.rd R.SCH_STAT.HOLDSRC ≠ 1) :=
  ⟨(State.reset.wr R.SCH_STAT.HOLD 0), by decide +kernel⟩

theorem test_witness_switch_points_8_1 : ∃ s : State, ∃ a,
    (s.rd R.SCH_STAT.HOLD = 0 ∨ s.rd R.SCH_STAT.HOLDSRC ≠ 1) ∧ a ≠ R.SCH_INTSTAT.addr :=
  ⟨(State.reset.wr R.SCH_STAT.HOLD 0), 0, by decide +kernel, by decide +kernel⟩

theorem test_witness_switch_points_9_0 : ∃ s : State,
    s.rd R.SCH_STAT.HOLD ≠ 0 ∧ s.rd R.SCH_STAT.HOLDSRC = 1 ∧ s.rd R.UPD_PHASE.PHASE ≠ phCommit :=
  ⟨((State.reset.wr R.SCH_STAT.HOLD 1).wr R.SCH_STAT.HOLDSRC 1), by decide +kernel, by decide +kernel, by decide +kernel⟩

theorem test_witness_switch_points_9_1 : ∃ s : State, ∃ v : State,
    s.rd R.SCH_STAT.HOLD ≠ 0 ∧ s.rd R.SCH_STAT.HOLDSRC = 1 ∧ s.rd R.UPD_PHASE.PHASE = phCommit :=
  ⟨(((State.reset.wr R.SCH_STAT.HOLD 1).wr R.SCH_STAT.HOLDSRC 1).wr R.UPD_PHASE.PHASE phCommit), State.reset,
   by decide +kernel, by decide +kernel, by decide +kernel⟩

/-! Witnesses of image_transfers. -/

theorem test_witness_image_transfers_0_0 : ∃ s : State, ∃ x, ∃ rest,
    s.img.queue = x :: rest ∧ s.img.cur = none ∧ s.running .img = true ∧ x.kind = .copy :=
  ⟨({ (({ State.reset with img.queue := ({ kind := .copy, task := 255 } : Xfer) :: ([] : List Xfer) } : State).wr UnitId.img.STATE stRun) with img.queue := [({ kind := .copy, task := 255 } : Xfer)] } : State),
   ({ kind := .copy, task := 255 } : Xfer), ([] : List Xfer), by decide +kernel, by decide +kernel, by decide +kernel,
   by decide +kernel⟩

theorem test_witness_image_transfers_1_0 : ∃ s : State, ∃ x : Xfer, ∃ rest : List Xfer,
    s.img.queue = x :: rest ∧ x.kind ≠ .copy :=
  ⟨({ ({ State.reset with img.queue := ({ kind := .commit, task := 255 } : Xfer) :: [] } : State) with img.queue := [({ kind := .commit, task := 255 } : Xfer)] } : State),
   ({ kind := .commit, task := 255 } : Xfer), [], by decide +kernel, by decide +kernel⟩

theorem test_witness_image_transfers_1_1 : ∃ s : State, ∃ x : Xfer, ∃ rest : List Xfer,
    s.img.queue = x :: rest ∧ x.kind ≠ .commit :=
  ⟨({ ({ State.reset with img.queue := ({ kind := .copy, task := 255 } : Xfer) :: [] } : State) with img.queue := [({ kind := .copy, task := 255 } : Xfer)] } : State),
   ({ kind := .copy, task := 255 } : Xfer), [], by decide +kernel, by decide +kernel⟩

theorem test_witness_image_transfers_2_0 : ∃ s : State,
    (s.img.queue = [] ∨ s.img.cur ≠ none ∨ s.running .img = false) :=
  ⟨({ State.reset with img.queue := [] } : State), by decide +kernel⟩

theorem test_witness_image_transfers_3_0 : ∃ s : State, ∃ x : Xfer,
    s.img.cur = some x ∧ x.kind = .copy ∧ x.discard = true :=
  ⟨({ State.reset with img.cur := some ({ kind := .copy, task := 255, discard := true } : Xfer) } : State),
   ({ kind := .copy, task := 255, discard := true } : Xfer), by decide +kernel, by decide +kernel, by decide +kernel⟩

theorem test_witness_image_transfers_3_1 : ∃ s : State, ∃ x : Xfer,
    s.img.cur = some x ∧ x.kind = .copy ∧ x.discard = false :=
  ⟨({ State.reset with img.cur := some ({ kind := .copy, task := 255, discard := false } : Xfer) } : State),
   ({ kind := .copy, task := 255, discard := false } : Xfer), by decide +kernel, by decide +kernel, by decide +kernel⟩

theorem test_witness_image_transfers_4_0 : ∃ s : State, ∃ x : Xfer,
    (s.img.cur = none ∨ (s.img.cur = some x ∧ x.kind ≠ .copy)) :=
  ⟨({ State.reset with img.cur := some { kind := .commit, task := 255, waits := some { task := 255, bytes := [] } } } : State),
   ({ kind := .commit, task := 255, waits := some { task := 255, bytes := [] } } : Xfer), by decide +kernel⟩

theorem test_witness_image_transfers_5_0 : ∃ s : State, ∃ x : Xfer, ∃ rest : List Xfer,
    s.img.queue = x :: rest ∧ s.img.cur = none ∧ s.running .img = true ∧ x.kind = .commit :=
  ⟨(({ State.reset with img.queue := ({ kind := .commit, task := 255 } : Xfer) :: ([] : List Xfer) } : State).wr UnitId.img.STATE stRun),
   ({ kind := .commit, task := 255 } : Xfer), ([] : List Xfer), by decide +kernel, by decide +kernel, by decide +kernel,
   by decide +kernel⟩

theorem test_witness_image_transfers_7_0 : ∃ s : State, ∃ x : Xfer, ∃ r : JrnRec, ∃ u : State,
    s.running .jrn = true ∧ s.stageJrn r = some u :=
  ⟨(State.reset.wr UnitId.jrn.STATE stRun), ({ kind := .copy, task := 255 } : Xfer), ({ task := 255, bytes := [] } : JrnRec),
   _, by decide +kernel, some_is State.reset (by decide +kernel)⟩

theorem test_witness_image_transfers_7_1 : ∃ s : State, ∃ x : Xfer, ∃ r : JrnRec,
    s.running .jrn = true ∧ s.stageJrn r = none :=
  ⟨({ (State.reset.wr UnitId.jrn.STATE stRun) with img.staged := [({ task := 1, bytes := List.replicate 94208 0 } : JrnRec)] } : State),
   ({ kind := .copy, task := 255 } : Xfer), ({ task := 255, bytes := [0] } : JrnRec), by decide +kernel,
   stage_full 94208 rfl (by decide) (by decide +kernel)⟩

theorem test_witness_image_transfers_8_0 : ∃ s : State, ∃ x : Xfer,
    s.running .jrn = false :=
  ⟨State.reset, ({ kind := .copy, task := 255 } : Xfer), by decide +kernel⟩

theorem test_witness_image_transfers_9_0 : ∃ s : State, ∃ x : Xfer, ∃ r : JrnRec,
    s.img.cur = some x ∧ x.waits = some r :=
  ⟨({ ({ State.reset with img.cur := some ({ kind := .commit, task := 255, waits := some { task := 255, bytes := [] } } : Xfer) } : State) with img.cur := some ({ kind := .commit, task := 255, waits := some { task := 255, bytes := [] } } : Xfer) } : State),
   ({ kind := .commit, task := 255, waits := some { task := 255, bytes := [] } } : Xfer),
   ({ task := 255, bytes := [] } : JrnRec), by decide +kernel, by decide +kernel⟩

theorem test_witness_image_transfers_10_0 : ∃ s : State, ∃ x : Xfer,
    s.img.cur = some x ∧ x.waits = none :=
  ⟨({ State.reset with img.cur := some ({ kind := .copy, task := 255, waits := none } : Xfer) } : State),
   ({ kind := .copy, task := 255, waits := none } : Xfer), by decide +kernel, by decide +kernel⟩

theorem test_witness_image_transfers_11_0 : ∃ s : State,
    s.img.cur = none :=
  ⟨State.reset, by decide +kernel⟩

theorem test_witness_image_transfers_12_0 : ∃ s : State, ∃ x : Xfer,
    s.img.cur = some x ∧ (x.kind ≠ .commit ∨ x.waits ≠ none) :=
  ⟨({ State.reset with img.cur := some ({ kind := .copy, task := 255 } : Xfer) } : State),
   ({ kind := .copy, task := 255 } : Xfer), by decide +kernel, by decide +kernel⟩

theorem test_witness_image_transfers_13_0 : ∃ s : State, ∃ x : Xfer,
    s.img.cur = some x ∧ x.kind = .commit ∧ x.waits = none ∧
    (((((s.advance (x.started + (16 * s.ocount x.task + s.retlen x.task) / 2)).commitOutputs x).setCur none : State).wr (R.IMG_TASK_TIME.OCOMMIT x.task) (t10 ((((s.advance (x.started + (16 * s.ocount x.task + s.retlen x.task) / 2)).commitOutputs x).setCur none : State).now - x.started))).commitDone x.task : State).img.cur = none :=
  ⟨({ State.reset with img.cur := some ({ kind := .commit, task := 255, waits := none } : Xfer) } : State),
   ({ kind := .commit, task := 255, waits := none } : Xfer), by decide +kernel, by decide +kernel, by decide +kernel,
   by decide +kernel⟩

theorem test_witness_image_transfers_14_0 : ∃ s : State, ∃ r : JrnRec, ∃ rest : List JrnRec,
    s.img.staged = r :: rest ∧ s.running .jrn = true ∧ r.poisonAt = none :=
  ⟨(({ State.reset with img.staged := ({ task := 255, bytes := [], poisonAt := none } : JrnRec) :: [] } : State).wr UnitId.jrn.STATE stRun),
   ({ task := 255, bytes := [], poisonAt := none } : JrnRec), [], by decide +kernel, by decide +kernel, by decide +kernel⟩

theorem test_witness_image_transfers_15_0 : ∃ s : State, ∃ r : JrnRec, ∃ rest : List JrnRec, ∃ a : Nat,
    s.img.staged = r :: rest ∧ s.running .jrn = true ∧ r.poisonAt = some a :=
  ⟨(({ State.reset with img.staged := ({ task := 255, bytes := [], poisonAt := some 0 } : JrnRec) :: [] } : State).wr UnitId.jrn.STATE stRun),
   ({ task := 255, bytes := [], poisonAt := some 0 } : JrnRec), [], 0, by decide +kernel, by decide +kernel, by decide +kernel⟩

theorem test_witness_image_transfers_17_0 : ∃ s : State,
    (s.img.staged = [] ∨ s.running .jrn = false) :=
  ⟨({ State.reset with img.staged := [] } : State), by decide +kernel⟩

/-! Witnesses of remote_stations. -/

theorem test_witness_remote_stations_0_0 : ∃ s : State, ∃ n : Nat, ∃ p : List Byte,
    n < 64 ∧ (s.takeStnPdu n p).stnState n = stnOff :=
  ⟨(State.reset.wr (R.IMG_STN_STAT.STATE 63) stnOff), 63, [], by decide +kernel, by decide +kernel⟩

theorem test_witness_remote_stations_1_0 : ∃ s : State, ∃ n : Nat, ∃ p : List Byte,
    n < 64 ∧ (s.takeStnPdu n p).stnState n ≠ stnOff ∧ pduKind p = 2 :=
  ⟨(State.reset.wr (R.IMG_STN_STAT.STATE 63) stnUp), 63, ([0x12] ++ zeros 7), by decide +kernel, by decide +kernel,
   by decide +kernel⟩

theorem test_witness_remote_stations_2_0 : ∃ s : State, ∃ n : Nat, ∃ p : List Byte,
    n < 64 ∧ (s.takeStnPdu n p).stnState n ≠ stnOff ∧ pduKind p = 4 ∧ numAt p 1 1 = 16 ∧
    p.length = pduLength (!(s.takeStnPdu n p).on (R.IMG_STN_CFG.XPORT n)) 8 :=
  ⟨(State.reset.wr (R.IMG_STN_STAT.STATE 63) stnUp), 63, ([0x14, 16] ++ zeros 14), by decide +kernel, by decide +kernel,
   by decide +kernel, by decide +kernel, by decide +kernel⟩

theorem test_witness_remote_stations_4_0 : ∃ s : State, ∃ n : Nat, ∃ p : List Byte,
    n < 64 ∧ (s.takeStnPdu n p).stnState n ≠ stnOff ∧ pduKind p ≠ 2 ∧
    (pduKind p ≠ 4 ∨ numAt p 1 1 ≠ 16 ∨ p.length ≠ pduLength (!(s.takeStnPdu n p).on (R.IMG_STN_CFG.XPORT n)) 8) :=
  ⟨(State.reset.wr (R.IMG_STN_STAT.STATE 63) stnUp), 63, [], by decide +kernel, by decide +kernel, by decide +kernel,
   by decide +kernel⟩

theorem test_witness_remote_stations_5_0 : ∃ s : State, ∃ n,
    n < 64 ∧ s.stationsRun = true ∧ s.delivers n = true ∧ s.on (R.IMG_STN_STAT.UNDELIV n) = false ∧ (s.stn n).outSent = true ∧
    s.gateOpen = true :=
  ⟨(((((State.reset.setStn 63 { outSent := true }).wr UnitId.img.STATE stRun).wr (R.IMG_STN_STAT.STATE 63) stnUp).clear (R.IMG_STN_STAT.UNDELIV 63)).raise R.PAIR_STAT.GATE),
   63, by decide +kernel, by decide +kernel, by decide +kernel, by decide +kernel, by decide +kernel, by decide +kernel⟩

theorem test_witness_remote_stations_6_0 : ∃ s : State, ∃ n,
    n < 64 ∧
    (s.delivers n = false ∨ s.on (R.IMG_STN_STAT.UNDELIV n) = true ∨ s.gateOpen = false ∨ (s.stn n).outSent = false ∨ s.stationsRun = false) :=
  ⟨State.reset, 63, by decide +kernel, by decide +kernel⟩

theorem test_witness_remote_stations_7_0 : ∃ s : State, ∃ n : Nat,
    n < 64 ∧ (s.stnState n = stnUp ∨ s.stnState n = stnRejoin) :=
  ⟨(State.reset.wr (R.IMG_STN_STAT.STATE 63) stnUp), 63, by decide +kernel, by decide +kernel⟩

theorem test_witness_remote_stations_8_0 : ∃ s : State, ∃ n,
    n < 64 ∧ s.stnState n ≠ stnUp ∧ s.stnState n ≠ stnRejoin :=
  ⟨State.reset, 63, by decide +kernel, by decide +kernel, by decide +kernel⟩

theorem test_witness_remote_stations_9_0 : ∃ s : State, ∃ n,
    n < 64 ∧ s.stnState n = stnRejoin :=
  ⟨(State.reset.wr (R.IMG_STN_STAT.STATE 63) stnRejoin), 63, by decide +kernel, by decide +kernel⟩

theorem test_witness_remote_stations_10_0 : ∃ s : State, ∃ n,
    n < 64 ∧ s.stnState n ≠ stnRejoin :=
  ⟨State.reset, 63, by decide +kernel, by decide +kernel⟩

theorem test_witness_remote_stations_11_0 : ∃ s : State, ∃ n,
    n < 64 ∧ s.stnState n = stnOff :=
  ⟨(State.reset.wr (R.IMG_STN_STAT.STATE 63) stnOff), 63, by decide +kernel, by decide +kernel⟩

theorem test_witness_remote_stations_12_0 : ∃ s : State, ∃ n,
    n < 64 ∧ s.stnState n ≠ stnOff ∧ s.gateOpen = true :=
  ⟨((State.reset.wr (R.IMG_STN_STAT.STATE 63) stnUp).raise R.PAIR_STAT.GATE), 63, by decide +kernel, by decide +kernel,
   by decide +kernel⟩

theorem test_witness_remote_stations_13_0 : ∃ s : State, ∃ n,
    n < 64 ∧ s.stnState n ≠ stnOff ∧ s.gateOpen = false :=
  ⟨((State.reset.wr (R.IMG_STN_STAT.STATE 63) stnUp).clear R.PAIR_STAT.GATE), 63, by decide +kernel, by decide +kernel,
   by decide +kernel⟩

theorem test_witness_remote_stations_14_0 : ∃ s : State, ∃ n,
    n < 64 ∧ s.running .img = true ∧ s.stnState n = stnOff :=
  ⟨((State.reset.wr UnitId.img.STATE stRun).wr (R.IMG_STN_STAT.STATE 63) stnOff), 63, by decide +kernel, by decide +kernel,
   by decide +kernel⟩

theorem test_witness_remote_stations_14_1 : ∃ s : State, ∃ n, ∃ a,
    n < 64 ∧ s.running .img = true ∧ s.stnState n = stnOff ∧ a ≠ (R.IMG_STN_CFG.EN n).addr ∧ a ≠ (R.IMG_STN_STAT.STATE n).addr :=
  ⟨((State.reset.wr UnitId.img.STATE stRun).wr (R.IMG_STN_STAT.STATE 63) stnOff), 63, 0, by decide +kernel, by decide +kernel,
   by decide +kernel, by decide +kernel, by decide +kernel⟩

theorem test_witness_remote_stations_15_0 : ∃ s : State, ∃ n,
    n < 64 ∧ (s.raise (R.IMG_STN_CFG.EN n)).stnState n ≠ stnOff :=
  ⟨((State.reset.wr (R.IMG_STN_STAT.STATE 63) stnUp).wr (R.IMG_STN_STAT.STATE 63) stnRejoin), 63, by decide +kernel,
   by decide +kernel⟩

theorem test_witness_remote_stations_16_0 : ∃ s : State, ∃ n,
    n < 64 ∧ s.running .img = false :=
  ⟨State.reset, 63, by decide +kernel, by decide +kernel⟩

theorem test_witness_remote_stations_17_0 : ∃ s : State, ∃ n : Nat,
    n < 64 ∧ (s.clear (R.IMG_STN_CFG.EN n) : State).stnState n = stnOff :=
  ⟨(State.reset.wr (R.IMG_STN_STAT.STATE 63) stnOff), 63, by decide +kernel, by decide +kernel⟩

theorem test_witness_remote_stations_18_0 : ∃ s : State, ∃ n : Nat,
    n < 64 ∧ (s.clear (R.IMG_STN_CFG.EN n) : State).stnState n = stnUp :=
  ⟨(State.reset.wr (R.IMG_STN_STAT.STATE 63) stnUp), 63, by decide +kernel, by decide +kernel⟩

theorem test_witness_remote_stations_19_0 : ∃ s : State, ∃ n : Nat,
    n < 64 ∧ (s.clear (R.IMG_STN_CFG.EN n) : State).stnState n ≠ stnOff ∧
    (s.clear (R.IMG_STN_CFG.EN n) : State).stnState n ≠ stnUp :=
  ⟨((State.reset.wr (R.IMG_STN_STAT.STATE 63) stnUp).wr (R.IMG_STN_STAT.STATE 63) stnRejoin), 63, by decide +kernel,
   by decide +kernel, by decide +kernel⟩

/-! Witnesses of force_commands. -/

theorem test_witness_force_commands_0_0 : ∃ s : State,
    s.forceKey s.frcKey = .bad :=
  ⟨(State.reset.wr R.IMG_FRC_KEY.KEY 0xFF), by decide +kernel⟩

theorem test_witness_force_commands_2_0 : ∃ s : State, ∃ i,
    s.forceKey s.frcKey ≠ .bad ∧ s.forceIdx s.frcKey = some i :=
  ⟨(State.reset.setForce 1023 { valid := true }), _, by decide +kernel, some_is 0 (by decide +kernel)⟩

theorem test_witness_force_commands_3_0 : ∃ s : State, ∃ i,
    s.forceKey s.frcKey ≠ .bad ∧ s.forceIdx s.frcKey = none ∧ ((List.range 1024).find? fun i => !(s.forceAt i).valid) = some i :=
  ⟨State.reset, _, by decide +kernel, by decide +kernel, some_is 0 (by decide +kernel)⟩

theorem test_witness_force_commands_4_0 : ∃ s : State,
    s.forceIdx s.frcKey = none :=
  ⟨State.reset, by decide +kernel⟩

theorem test_witness_force_commands_5_0 : ∃ s : State, ∃ i,
    s.forceIdx s.frcKey = some i :=
  ⟨(State.reset.setForce 1023 { valid := true }), _, some_is 0 (by decide +kernel)⟩

theorem test_witness_force_commands_7_1 : ∃ s : State, ∃ v : Word, ∃ a,
    a ≠ R.IMG_MADDR.addr :=
  ⟨State.reset, (0 : Word), 0, by decide +kernel⟩

theorem test_witness_force_commands_7_2 : ∃ s : State, ∃ v : Word,
    s.rd R.IMG_MADDR.WADDR / 0xC000 < 2 ∧ s.rd R.IMG_MADDR.WADDR / 0xC000 ≠ s.rd R.IMG_LBANK.ACT :=
  ⟨(State.reset.wr R.IMG_LBANK.ACT 1), (0 : Word), by decide +kernel, by decide +kernel⟩

theorem test_witness_force_commands_7_3 : ∃ s : State, ∃ v : Word,
    s.rd R.IMG_MADDR.WADDR / 0xC000 < 2 ∧ s.rd R.IMG_STAT.STATE = stOff :=
  ⟨(State.reset.wr R.IMG_STAT.STATE stOff), (0 : Word), by decide +kernel, by decide +kernel⟩

theorem test_witness_force_commands_7_4 : ∃ s : State, ∃ v : Word,
    (2 ≤ s.rd R.IMG_MADDR.WADDR / 0xC000 ∨ (s.rd R.IMG_MADDR.WADDR / 0xC000 = s.rd R.IMG_LBANK.ACT ∧ s.rd R.IMG_STAT.STATE ≠ stOff)) :=
  ⟨(State.reset.wr R.IMG_MADDR.WADDR 0x18000), (0 : Word), by decide +kernel⟩

/-! Witnesses of point_messages. -/

theorem test_witness_point_messages_0_0 : ∃ s : State, ∃ src : Nat, ∃ b : List Byte, ∃ c,
    (s.takeInbox tyPoint src b : State).hopServes = false ∧
    c ∈ [Instr.subReceived src b, .unsubReceived src b, .fetchReceived src b, .subackReceived src b, .pushReceived src b] :=
  ⟨State.reset, 0, [], (.pushReceived 0 []), by decide +kernel, by simp⟩

theorem test_witness_point_messages_1_0 : ∃ s : State, ∃ src : Nat, ∃ b : List Byte, ∃ c,
    (s.takeInbox tyPoint src b : State).hopServes = true ∧
    (numAt b 0 1 = 0 ∨ 5 < numAt b 0 1 ∨ numAt b 1 1 ≠ 1 ∨ numAt b 2 2 = 0 ∨ 32 < numAt b 2 2 ∨ b.length ≠ 8 + numAt b 2 2 * itemSize (numAt b 0 1)) ∧
    c ∈ [Instr.subReceived src b, .unsubReceived src b, .fetchReceived src b, .subackReceived src b, .pushReceived src b] :=
  ⟨(State.reset.wr UnitId.hop.STATE stRun), 0, [], (.pushReceived 0 []), by decide +kernel, by decide +kernel, by simp⟩

theorem test_witness_point_messages_2_0 : ∃ s : State, ∃ src : Nat, ∃ b : List Byte, ∃ c,
    (s.takeInbox tyPoint src b : State).hopServes = true ∧ numAt b 1 1 = 1 ∧ numAt b 2 2 ≠ 0 ∧ numAt b 2 2 ≤ 32 ∧
    b.length = 8 + numAt b 2 2 * itemSize (numAt b 0 1) ∧ numAt b 0 1 = kSub ∧
    c ∈ [Instr.subReceived src b, .unsubReceived src b, .fetchReceived src b, .subackReceived src b, .pushReceived src b] :=
  ⟨(State.reset.wr UnitId.hop.STATE stRun), 0, ([1, 1, 1, 0] ++ zeros 16), (.pushReceived 0 ([1, 1, 1, 0] ++ zeros 16)),
   by decide +kernel, by decide +kernel, by decide +kernel, by decide +kernel, by decide +kernel, by decide +kernel, by simp⟩

theorem test_witness_point_messages_2_1 : ∃ s : State, ∃ src : Nat, ∃ b : List Byte, ∃ c,
    (s.takeInbox tyPoint src b : State).hopServes = true ∧ numAt b 1 1 = 1 ∧ numAt b 2 2 ≠ 0 ∧ numAt b 2 2 ≤ 32 ∧
    b.length = 8 + numAt b 2 2 * itemSize (numAt b 0 1) ∧ numAt b 0 1 = kSuback ∧
    c ∈ [Instr.subReceived src b, .unsubReceived src b, .fetchReceived src b, .subackReceived src b, .pushReceived src b] :=
  ⟨(State.reset.wr UnitId.hop.STATE stRun), 0, ([2, 1, 1, 0] ++ zeros 12), (.pushReceived 0 ([2, 1, 1, 0] ++ zeros 12)),
   by decide +kernel, by decide +kernel, by decide +kernel, by decide +kernel, by decide +kernel, by decide +kernel, by simp⟩

theorem test_witness_point_messages_2_2 : ∃ s : State, ∃ src : Nat, ∃ b : List Byte, ∃ c,
    (s.takeInbox tyPoint src b : State).hopServes = true ∧ numAt b 1 1 = 1 ∧ numAt b 2 2 ≠ 0 ∧ numAt b 2 2 ≤ 32 ∧
    b.length = 8 + numAt b 2 2 * itemSize (numAt b 0 1) ∧ numAt b 0 1 = kUnsub ∧
    c ∈ [Instr.subReceived src b, .unsubReceived src b, .fetchReceived src b, .subackReceived src b, .pushReceived src b] :=
  ⟨(State.reset.wr UnitId.hop.STATE stRun), 0, ([3, 1, 1, 0] ++ zeros 12), (.pushReceived 0 ([3, 1, 1, 0] ++ zeros 12)),
   by decide +kernel, by decide +kernel, by decide +kernel, by decide +kernel, by decide +kernel, by decide +kernel, by simp⟩

theorem test_witness_point_messages_2_3 : ∃ s : State, ∃ src : Nat, ∃ b : List Byte, ∃ c,
    (s.takeInbox tyPoint src b : State).hopServes = true ∧ numAt b 1 1 = 1 ∧ numAt b 2 2 ≠ 0 ∧ numAt b 2 2 ≤ 32 ∧
    b.length = 8 + numAt b 2 2 * itemSize (numAt b 0 1) ∧ numAt b 0 1 = kPush ∧
    c ∈ [Instr.subReceived src b, .unsubReceived src b, .fetchReceived src b, .subackReceived src b, .pushReceived src b] :=
  ⟨(State.reset.wr UnitId.hop.STATE stRun), 0, ([4, 1, 1, 0] ++ zeros 40), (.pushReceived 0 ([4, 1, 1, 0] ++ zeros 40)),
   by decide +kernel, by decide +kernel, by decide +kernel, by decide +kernel, by decide +kernel, by decide +kernel, by simp⟩

theorem test_witness_point_messages_2_4 : ∃ s : State, ∃ src : Nat, ∃ b : List Byte, ∃ c,
    (s.takeInbox tyPoint src b : State).hopServes = true ∧ numAt b 1 1 = 1 ∧ numAt b 2 2 ≠ 0 ∧ numAt b 2 2 ≤ 32 ∧
    b.length = 8 + numAt b 2 2 * itemSize (numAt b 0 1) ∧ numAt b 0 1 = kFetch ∧
    c ∈ [Instr.subReceived src b, .unsubReceived src b, .fetchReceived src b, .subackReceived src b, .pushReceived src b] :=
  ⟨(State.reset.wr UnitId.hop.STATE stRun), 0, ([5, 1, 1, 0] ++ zeros 12), (.pushReceived 0 ([5, 1, 1, 0] ++ zeros 12)),
   by decide +kernel, by decide +kernel, by decide +kernel, by decide +kernel, by decide +kernel, by decide +kernel, by simp⟩

theorem test_witness_point_messages_3_0 : ∃ s : State, ∃ src : Nat, ∃ pinc : Nat, ∃ it : List Byte,
    s.rangeOf src (numAt it 0 4 % 2 ^ 20) = none :=
  ⟨State.reset, 0, 0, [], by decide +kernel⟩

theorem test_witness_point_messages_4_0 : ∃ s : State, ∃ src : Nat, ∃ pinc : Nat, ∃ it : List Byte, ∃ e : Nat,
    s.rangeOf src (numAt it 0 4 % 2 ^ 20) = some e ∧ (s.range e).pinc = pinc ∧
    2 ^ 31 ≤ ((recSeq (it.drop 4) + 2 ^ 32 - recSeq (s.bytes (s.storeAddr ((s.range e).slot + (numAt it 0 4 % 2 ^ 20 - (s.range e).first) : Nat)) 32)) % 2 ^ 32 : Nat) :=
  ⟨(({ ((State.reset.setRange 0 { pinc := 0 }).wr R.HOP_RBASE.RBASE 256) with hop.nodeTab := [(1, 1 <<< 14)] } : State).setRange 0 { node := 1, count := 1 }),
   1, 0, (zeros 28 ++ [0, 0, 0, 0x80] ++ zeros 4), 0, by decide +kernel, by decide +kernel, by decide +kernel⟩

theorem test_witness_point_messages_4_1 : ∃ s : State, ∃ src : Nat, ∃ pinc : Nat, ∃ it : List Byte, ∃ e : Nat,
    s.rangeOf src (numAt it 0 4 % 2 ^ 20) = some e ∧
    ((s.range e).pinc ≠ pinc ∨ ((recSeq (it.drop 4) + 2 ^ 32 - recSeq (s.bytes (s.storeAddr ((s.range e).slot + (numAt it 0 4 % 2 ^ 20 - (s.range e).first) : Nat)) 32)) % 2 ^ 32 : Nat) < 2 ^ 31) ∧
    ((if (s.range e).pinc = pinc then s else (s.setRange e { s.range e with pinc := pinc, pincKnown := true }).event 0x0406 (subj := (s.range e).name) (val1 := pinc)) : State).needsRepair ((s.range e).slot + (numAt it 0 4 % 2 ^ 20 - (s.range e).first) : Nat) = false :=
  ⟨(({ State.reset with hop.nodeTab := [(1, 1 <<< 14)] } : State).setRange 0 { node := 1, count := 1, pinc := 7 }), 1, 0,
   (zeros 36), 0, by decide +kernel, by decide +kernel, by decide +kernel⟩

theorem test_witness_point_messages_5_0 : ∃ s : State,
    s.hopServes = false :=
  ⟨State.reset, by decide +kernel⟩

theorem test_witness_point_messages_6_0 : ∃ s : State, ∃ n : Nat,
    s.hopServes = true :=
  ⟨(State.reset.wr UnitId.hop.STATE stRun), 0, by decide +kernel⟩

/-! Witnesses of range_timers. -/

theorem test_witness_range_timers_0_0 : ∃ s : State, ∃ r : Nat,
    r < 8192 ∧ s.hopServes = true ∧ (s.range r).state = rngLive :=
  ⟨((State.reset.setRange 8191 { state := rngLive }).wr UnitId.hop.STATE stRun), 8191, by decide +kernel, by decide +kernel,
   by decide +kernel⟩

theorem test_witness_range_timers_1_0 : ∃ s : State, ∃ r,
    r < 8192 ∧ (s.hopServes = false ∨ (s.range r).state ≠ rngLive) :=
  ⟨State.reset, 8191, by decide +kernel, by decide +kernel⟩

theorem test_witness_range_timers_2_0 : ∃ s : State, ∃ r,
    r < 8192 ∧ s.hopServes = true ∧ ((s.range r).state = rngSub ∨ (s.range r).state = rngStale) :=
  ⟨((State.reset.setRange 8191 { state := rngSub }).wr UnitId.hop.STATE stRun), 8191, by decide +kernel, by decide +kernel,
   by decide +kernel⟩

theorem test_witness_range_timers_3_0 : ∃ s : State, ∃ r,
    r < 8192 ∧ (s.hopServes = false ∨ ((s.range r).state ≠ rngSub ∧ (s.range r).state ≠ rngStale)) :=
  ⟨State.reset, 8191, by decide +kernel, by decide +kernel⟩

theorem test_witness_range_timers_4_0 : ∃ s : State, ∃ e,
    e < 4096 ∧ s.hopServes = false :=
  ⟨State.reset, 4095, by decide +kernel, by decide +kernel⟩

theorem test_witness_range_timers_5_0 : ∃ s : State, ∃ r,
    r < 8192 ∧ s.hopServes = true ∧ (s.range r).state = rngLive :=
  ⟨((State.reset.setRange 8191 { state := rngLive }).wr UnitId.hop.STATE stRun), 8191, by decide +kernel, by decide +kernel,
   by decide +kernel⟩

theorem test_witness_range_timers_6_0 : ∃ s : State, ∃ e,
    e < 4096 ∧ (s.outEntry e).valid = true :=
  ⟨(State.reset.setOutEntry 4095 { valid := true }), 4095, by decide +kernel, by decide +kernel⟩

theorem test_witness_range_timers_7_0 : ∃ s : State, ∃ e,
    e < 4096 ∧ (s.outEntry e).valid = false :=
  ⟨State.reset, 4095, by decide +kernel, by decide +kernel⟩

theorem test_witness_range_timers_8_0 : ∃ s : State, ∃ e : Nat,
    e < 4096 ∧ (s.outEntry e).valid = true ∧ s.hopServes = true :=
  ⟨((State.reset.setOutEntry 4095 { valid := true }).wr UnitId.hop.STATE stRun), 4095, by decide +kernel, by decide +kernel,
   by decide +kernel⟩

/-! Witnesses of replica_store. -/

theorem test_witness_replica_store_0_0 : ∃ s : State,
    s.on R.HOP_STAT.INIT = true ∧ s.running .hop = true :=
  ⟨((State.reset.raise R.HOP_STAT.INIT).wr UnitId.hop.STATE stRun), by decide +kernel, by decide +kernel⟩

theorem test_witness_replica_store_1_0 : ∃ s : State,
    (s.on R.HOP_STAT.INIT = false ∨ s.running .hop = false) :=
  ⟨(State.reset.clear R.HOP_STAT.INIT), by decide +kernel⟩

theorem test_witness_replica_store_2_0 : ∃ s : State, ∃ b,
    b < 2 ∧ s.hop.scan.isSome = true :=
  ⟨({ State.reset with hop.scan := some 1 } : State), 1, by decide +kernel, by decide +kernel⟩

theorem test_witness_replica_store_3_0 : ∃ s : State, ∃ b : Nat,
    b < 2 ∧ s.hop.scan = none ∧ ((s.wr R.HOP_PIN_CMD.OP 1).wr R.HOP_PIN_CMD.BANK b : State).hopServes = true :=
  ⟨(State.reset.wr UnitId.hop.STATE stRun), 1, by decide +kernel, by decide +kernel, by decide +kernel⟩

theorem test_witness_replica_store_4_0 : ∃ s : State, ∃ b : Nat,
    b < 2 ∧ s.hop.scan = none ∧ ((s.wr R.HOP_PIN_CMD.OP 1).wr R.HOP_PIN_CMD.BANK b : State).hopServes = false :=
  ⟨State.reset, 1, by decide +kernel, by decide +kernel, by decide +kernel⟩

theorem test_witness_replica_store_5_0 : ∃ s : State,
    (s.hop.scan = none ∨ s.running .hop = false) :=
  ⟨State.reset, by decide +kernel⟩

theorem test_witness_replica_store_6_0 : ∃ s : State, ∃ b,
    s.hop.scan = some b ∧ s.running .hop = true :=
  ⟨(({ State.reset with hop.scan := some 0 } : State).wr UnitId.hop.STATE stRun), 0, by decide +kernel, by decide +kernel⟩

theorem test_witness_replica_store_7_0 : ∃ s : State, ∃ b : Nat,
    b < 2 ∧ s.hop.scan = none :=
  ⟨State.reset, 1, by decide +kernel, by decide +kernel⟩

theorem test_witness_replica_store_8_0 : ∃ s : State, ∃ p,
    p < 4 ∧ s.on (R.HOP_LK_CMD.GO p) = true :=
  ⟨(State.reset.raise (R.HOP_LK_CMD.GO 3)), 3, by decide +kernel, by decide +kernel⟩

theorem test_witness_replica_store_9_0 : ∃ s : State, ∃ p,
    p < 4 ∧ s.on (R.HOP_LK_CMD.GO p) = false :=
  ⟨(State.reset.clear (R.HOP_LK_CMD.GO 3)), 3, by decide +kernel, by decide +kernel⟩

theorem test_witness_replica_store_10_0 : ∃ s : State, ∃ p : Nat,
    p < 4 ∧ s.on (R.HOP_LK_CMD.GO p) = false ∧ (s.wr (R.HOP_LK_CMD.OP p) 2 : State).running .hop = false :=
  ⟨(State.reset.clear (R.HOP_LK_CMD.GO 3)), 3, by decide +kernel, by decide +kernel, by decide +kernel⟩

theorem test_witness_replica_store_11_0 : ∃ s : State, ∃ p : Nat, ∃ i : Nat,
    p < 4 ∧ s.on (R.HOP_LK_CMD.GO p) = false ∧ (s.wr (R.HOP_LK_CMD.OP p) 2 : State).running .hop = true ∧
    (s.wr (R.HOP_LK_CMD.OP p) 2 : State).resolve ((s.wr (R.HOP_LK_CMD.OP p) 2 : State).rd (R.HOP_LK_ID.ID p)) = .own i :=
  ⟨(((((State.reset.clear (R.HOP_LK_CMD.GO 3)).wr UnitId.hop.STATE stRun).wr R.HOP_NODE.NODE 1).wr R.HOP_OWN_CNT.COUNT 1).wr (R.HOP_LK_ID.ID 3) 0x100000),
   3, 0, by decide +kernel, by decide +kernel, by decide +kernel, by decide +kernel⟩

theorem test_witness_replica_store_12_0 : ∃ s : State, ∃ p : Nat, ∃ i : Nat, ∃ slot : Nat,
    p < 4 ∧ s.on (R.HOP_LK_CMD.GO p) = false ∧ (s.wr (R.HOP_LK_CMD.OP p) 2 : State).running .hop = true ∧
    (s.wr (R.HOP_LK_CMD.OP p) 2 : State).resolve ((s.wr (R.HOP_LK_CMD.OP p) 2 : State).rd (R.HOP_LK_ID.ID p)) = .replica i slot :=
  ⟨(((({ ((State.reset.clear (R.HOP_LK_CMD.GO 3)).wr UnitId.hop.STATE stRun) with hop.nodeTab := [(1, 1 <<< 14)] } : State).setRange 0 { node := 1, count := 1 }).wr R.HOP_NODE.NODE 2).wr (R.HOP_LK_ID.ID 3) 0x100000),
   3, 0, 0, by decide +kernel, by decide +kernel, by decide +kernel, by decide +kernel⟩

theorem test_witness_replica_store_12_1 : ∃ s : State, ∃ p : Nat, ∃ i : Nat, ∃ slot : Nat,
    p < 4 ∧ s.on (R.HOP_LK_CMD.GO p) = false ∧ (s.wr (R.HOP_LK_CMD.OP p) 2 : State).running .hop = true ∧
    (s.wr (R.HOP_LK_CMD.OP p) 2 : State).resolve ((s.wr (R.HOP_LK_CMD.OP p) 2 : State).rd (R.HOP_LK_ID.ID p)) = .nothing :=
  ⟨((State.reset.clear (R.HOP_LK_CMD.GO 3)).wr UnitId.hop.STATE stRun), 3, 0, 0, by decide +kernel, by decide +kernel,
   by decide +kernel, by decide +kernel⟩

theorem test_witness_replica_store_13_0 : ∃ s : State, ∃ page : Nat, ∃ f : Nat,
    page < 2048 ∧ s.pageFrame page = some f :=
  ⟨({ State.reset with hop.misses := [{ port := 0, id := 0, page := 2047, frame := some 0 }] } : State), 2047, 0,
   by decide +kernel, by decide +kernel⟩

theorem test_witness_replica_store_14_0 : ∃ s : State, ∃ page,
    page < 2048 ∧ s.pageFrame page = none :=
  ⟨({ State.reset with hop.refetch := [{ slot := 262143, tries := 2, sentAt := 0 }] } : State), 2047, by decide +kernel,
   by decide +kernel⟩

theorem test_witness_replica_store_15_0 : ∃ s : State, ∃ k : Nat, ∃ x : HopRefetch,
    k < 262144 ∧ s.hop.refetch.find? (·.slot == k) = some x ∧ x.tries < 3 ∧ s.hopServes = true :=
  ⟨({ (State.reset.wr UnitId.hop.STATE stRun) with hop.refetch := [{ slot := 262143, tries := 2, sentAt := 0 }] } : State),
   262143, { slot := 262143, tries := 2, sentAt := 0 }, by decide +kernel, by decide +kernel, by decide +kernel,
   by decide +kernel⟩

theorem test_witness_replica_store_16_0 : ∃ s : State, ∃ k : Nat, ∃ x : HopRefetch,
    k < 262144 ∧ s.hop.refetch.find? (·.slot == k) = some x ∧ 3 ≤ x.tries ∧ s.hopServes = true :=
  ⟨({ (State.reset.wr UnitId.hop.STATE stRun) with hop.refetch := [{ slot := 262143, tries := 3, sentAt := 0 }] } : State),
   262143, { slot := 262143, tries := 3, sentAt := 0 }, by decide +kernel, by decide +kernel, by decide +kernel,
   by decide +kernel⟩

theorem test_witness_replica_store_17_0 : ∃ s : State, ∃ k,
    k < 262144 ∧ s.hopServes = false :=
  ⟨State.reset, 262143, by decide +kernel, by decide +kernel⟩

theorem test_witness_replica_store_18_0 : ∃ s : State, ∃ k,
    k < 262144 ∧ s.hop.refetch.find? (·.slot == k) = none :=
  ⟨State.reset, 262143, by decide +kernel, by decide +kernel⟩

theorem test_witness_replica_store_19_1 : ∃ s : State, ∃ v : Word, ∃ a,
    a ≠ R.HOP_TADDR.addr :=
  ⟨State.reset, (0 : Word), 0, by decide +kernel⟩

theorem test_witness_replica_store_19_2 : ∃ s : State, ∃ v : Word,
    s.rd UnitId.hop.STATE ≠ stOff ∧ s.rd R.UPD_PHASE.PHASE ≠ 5 :=
  ⟨(State.reset.wr UnitId.hop.STATE stRun), (0 : Word), by decide +kernel, by decide +kernel⟩

theorem test_witness_replica_store_19_3 : ∃ s : State, ∃ v : Word,
    (s.rd UnitId.hop.STATE = stOff ∨ s.rd R.UPD_PHASE.PHASE = 5) ∧ 0x2000 ≤ 4 * s.rd R.HOP_TADDR.WADDR ∧
    4 * s.rd R.HOP_TADDR.WADDR < 0x6000 :=
  ⟨((State.reset.wr UnitId.hop.STATE stOff).wr R.HOP_TADDR.WADDR 0x800), (0 : Word), by decide +kernel, by decide +kernel,
   by decide +kernel⟩

theorem test_witness_replica_store_19_4 : ∃ s : State, ∃ v : Word,
    (s.rd UnitId.hop.STATE = stOff ∨ s.rd R.UPD_PHASE.PHASE = 5) ∧ 0x6000 ≤ 4 * s.rd R.HOP_TADDR.WADDR ∧
    4 * s.rd R.HOP_TADDR.WADDR < 0x26000 :=
  ⟨((State.reset.wr UnitId.hop.STATE stOff).wr R.HOP_TADDR.WADDR 0x1800), (0 : Word), by decide +kernel, by decide +kernel,
   by decide +kernel⟩

/-! Witnesses of frames_forwarded. -/

theorem test_witness_frames_forwarded_0_0 : ∃ s : State, ∃ p : Nat, ∃ f : RxFrame,
    p < 4 ∧ s.takesFrames p = false :=
  ⟨State.reset, 3, ({ leat := ({ lane := 0, dst := 1, src := 2, typ := 4, len := 0, payload := [] } : Leat) } : RxFrame),
   by decide +kernel, by decide +kernel⟩

theorem test_witness_frames_forwarded_1_0 : ∃ s : State, ∃ p : Nat, ∃ f : RxFrame,
    p < 4 ∧ s.takesFrames p = true ∧ f.daOk = false :=
  ⟨(((State.reset.wr (portUnit 3).STATE stRun).wr UnitId.fab.STATE stRun).raise (R.FAB_P_STAT.LINK 3)), 3,
   ({ leat := ({ lane := 0, dst := 1, src := 2, typ := 4, len := 0, payload := [] } : Leat), daOk := false } : RxFrame),
   by decide +kernel, by decide +kernel, by decide +kernel⟩

theorem test_witness_frames_forwarded_1_1 : ∃ s : State, ∃ p : Nat, ∃ f : RxFrame,
    p < 4 ∧ s.takesFrames p = true ∧ f.daOk = true ∧ f.secured = (f.leat.typ == tyKeyx) :=
  ⟨(((State.reset.wr (portUnit 3).STATE stRun).wr UnitId.fab.STATE stRun).raise (R.FAB_P_STAT.LINK 3)), 3,
   ({ leat := { ver := 1, lane := 3, dst := 1, src := 2, typ := 4, len := 0, payload := []  }, secured := false } : RxFrame),
   by decide +kernel, by decide +kernel, by decide +kernel, by decide +kernel⟩

theorem test_witness_frames_forwarded_1_2 : ∃ s : State, ∃ p : Nat, ∃ f : RxFrame,
    p < 4 ∧ s.takesFrames p = true ∧ f.daOk = true ∧ f.secured = false ∧ f.leat.typ = tyKeyx :=
  ⟨(((State.reset.wr (portUnit 3).STATE stRun).wr UnitId.fab.STATE stRun).raise (R.FAB_P_STAT.LINK 3)), 3,
   ({ ({ leat := ({ lane := 0, dst := 1, src := 2, typ := 4, len := 0, payload := [] } : Leat), daOk := true, secured := false } : RxFrame) with leat.typ := tyKeyx } : RxFrame),
   by decide +kernel, by decide +kernel, by decide +kernel, by decide +kernel, by decide +kernel⟩

theorem test_witness_frames_forwarded_2_0 : ∃ s : State, ∃ p : Nat, ∃ f : RxFrame,
    p < 4 ∧ s.takesFrames p = true ∧ f.daOk = true ∧ f.secured = true ∧ f.leat.typ ≠ tyKeyx ∧
    ((((s.setPort p { s.port p with trafficAt := some s.now }).bump (R.FAB_P_CNT_RXFRM.COUNT p) : State).port p).rx.find? fun a => a.an == f.an) = none :=
  ⟨(((State.reset.wr (portUnit 3).STATE stRun).wr UnitId.fab.STATE stRun).raise (R.FAB_P_STAT.LINK 3)), 3,
   ({ leat := ({ lane := 0, dst := 1, src := 2, typ := 4, len := 0, payload := [] } : Leat), daOk := true, secured := true } : RxFrame),
   by decide +kernel, by decide +kernel, by decide +kernel, by decide +kernel, by decide +kernel, by decide +kernel⟩

theorem test_witness_frames_forwarded_3_0 : ∃ s : State, ∃ p : Nat, ∃ f : RxFrame, ∃ a : FabSa,
    p < 4 ∧ s.takesFrames p = true ∧ f.daOk = true ∧ f.secured = true ∧ f.leat.typ ≠ tyKeyx ∧
    ((((s.setPort p { s.port p with trafficAt := some s.now }).bump (R.FAB_P_CNT_RXFRM.COUNT p) : State).port p).rx.find? fun a => a.an == f.an) = some a ∧
    f.pn + ((s.setPort p { s.port p with trafficAt := some s.now }).bump (R.FAB_P_CNT_RXFRM.COUNT p) : State).rd R.FAB_SEC.RPW ≤ a.highPn :=
  ⟨((((State.reset.wr (portUnit 3).STATE stRun).wr UnitId.fab.STATE stRun).raise (R.FAB_P_STAT.LINK 3)).setPort 3 { rx := [({ an := 0, sak := [], highPn := 100000 } : FabSa)] }),
   3,
   ({ leat := ({ lane := 0, dst := 1, src := 2, typ := 4, len := 0, payload := [] } : Leat), daOk := true, secured := true } : RxFrame),
   ({ an := 0, sak := [], highPn := 100000 } : FabSa), by decide +kernel, by decide +kernel, by decide +kernel,
   by decide +kernel, by decide +kernel, by decide +kernel, by decide +kernel⟩

theorem test_witness_frames_forwarded_3_1 : ∃ s : State, ∃ p : Nat, ∃ f : RxFrame, ∃ a : FabSa,
    p < 4 ∧ s.takesFrames p = true ∧ f.daOk = true ∧ f.secured = true ∧ f.leat.typ ≠ tyKeyx ∧
    ((((s.setPort p { s.port p with trafficAt := some s.now }).bump (R.FAB_P_CNT_RXFRM.COUNT p) : State).port p).rx.find? fun a => a.an == f.an) = some a ∧
    a.highPn < f.pn + ((s.setPort p { s.port p with trafficAt := some s.now }).bump (R.FAB_P_CNT_RXFRM.COUNT p) : State).rd R.FAB_SEC.RPW :=
  ⟨((((State.reset.wr (portUnit 3).STATE stRun).wr UnitId.fab.STATE stRun).raise (R.FAB_P_STAT.LINK 3)).setPort 3 { rx := [({ an := 0, sak := [], highPn := 0 } : FabSa)] }),
   3,
   ({ leat := { ver := 1, lane := 3, dst := 1, src := 2, typ := 4, len := 0, payload := []  }, pn := 1, secured := true } : RxFrame),
   ({ an := 0, sak := [], highPn := 0 } : FabSa), by decide +kernel, by decide +kernel, by decide +kernel, by decide +kernel,
   by decide +kernel, by decide +kernel, by decide +kernel⟩

theorem test_witness_frames_forwarded_4_0 : ∃ s : State, ∃ p : Nat, ∃ f : RxFrame,
    f.leat.ver ≠ 1 :=
  ⟨State.reset, 0, ({ leat := { ver := 2, lane := 3, dst := 1, src := 2, typ := 4, len := 0, payload := []  } } : RxFrame),
   by decide +kernel⟩

theorem test_witness_frames_forwarded_4_1 : ∃ s : State, ∃ p : Nat, ∃ f : RxFrame,
    f.leat.ver = 1 ∧ s.rd R.FAB_NODE.ACT = 0 ∧ linkType f.leat.typ = false :=
  ⟨(State.reset.wr R.FAB_NODE.ACT 0), 0,
   ({ leat := { ver := 1, lane := 3, dst := 1, src := 2, typ := tyMbx, len := 0, payload := []  } } : RxFrame),
   by decide +kernel, by decide +kernel, by decide +kernel⟩

theorem test_witness_frames_forwarded_4_2 : ∃ s : State, ∃ p : Nat, ∃ f : RxFrame,
    f.leat.ver = 1 ∧ (s.rd R.FAB_NODE.ACT ≠ 0 ∨ linkType f.leat.typ = true) ∧
    (f.leat.dst = 4095 ∨ f.leat.dst = 0 ∨ 4 ≤ (s.routePort f.leat.dst : Nat) ∨ f.leat.ttl = 0 ∨ f.leat.typ = tyQuench ∨ linkType f.leat.typ = true ∨ s.cutThrough p (s.routePort f.leat.dst : Nat) f.leat = false) ∧
    f.icvOk = true ∧ f.fcsOk = true :=
  ⟨(State.reset.wr R.FAB_NODE.ACT 1), 0,
   ({ ({ leat := ({ lane := 0, dst := 1, src := 2, typ := 4, len := 0, payload := [] } : Leat), icvOk := true, fcsOk := true } : RxFrame) with leat.ver := 1, leat.dst := 4095 } : RxFrame),
   by decide +kernel, by decide +kernel, by decide +kernel, by decide +kernel, by decide +kernel⟩

theorem test_witness_frames_forwarded_4_3 : ∃ s : State, ∃ p : Nat, ∃ f : RxFrame,
    f.leat.ver = 1 ∧ (s.rd R.FAB_NODE.ACT ≠ 0 ∨ linkType f.leat.typ = true) ∧
    (f.leat.dst = 4095 ∨ f.leat.dst = 0 ∨ 4 ≤ (s.routePort f.leat.dst : Nat) ∨ f.leat.ttl = 0 ∨ f.leat.typ = tyQuench ∨ linkType f.leat.typ = true ∨ s.cutThrough p (s.routePort f.leat.dst : Nat) f.leat = false) ∧
    (f.icvOk = false ∨ f.fcsOk = false) :=
  ⟨(State.reset.wr R.FAB_NODE.ACT 1), 0,
   ({ ({ leat := ({ lane := 0, dst := 1, src := 2, typ := 4, len := 0, payload := [] } : Leat), icvOk := false } : RxFrame) with leat.ver := 1, leat.dst := 4095 } : RxFrame),
   by decide +kernel, by decide +kernel, by decide +kernel, by decide +kernel⟩

theorem test_witness_frames_forwarded_4_4 : ∃ s : State, ∃ p : Nat, ∃ f : RxFrame,
    f.leat.ver = 1 ∧ s.rd R.FAB_NODE.ACT ≠ 0 ∧ f.leat.dst ≠ 4095 ∧ f.leat.dst ≠ 0 ∧ (s.routePort f.leat.dst : Nat) < 4 ∧
    f.leat.ttl ≠ 0 ∧ f.leat.typ ≠ tyQuench ∧ linkType f.leat.typ = false ∧
    s.cutThrough p (s.routePort f.leat.dst : Nat) f.leat = true ∧
    ((if f.icvOk = true ∧ f.fcsOk = true then s.setPort p { s.port p with rx := (s.port p).rx.map fun a => if a.an = f.an then { a with highPn := max a.highPn f.pn } else a } else s) : State).ctlPolice p (s.routePort f.leat.dst : Nat) f.leat = none :=
  ⟨((((((({ (State.reset.wr R.FAB_NODE.ACT 1) with fab.routes := [(1, 0#32)] } : State).wr (portUnit 0).STATE stRun).raise (R.FAB_P_STAT.LINK 0)).setPort 0 { tx := some { an := 0, sak := [] } }).wr R.FAB_NODE.ACT 2).wr UnitId.fab.STATE stRun).setPort 3 { ctlUsed := 12288 * 800000000000 }),
   3, ({ leat := { ver := 1, lane := 0, dst := 1, src := 2, typ := tyMbx, len := 0, payload := [] , ttl := 5 } } : RxFrame),
   by decide +kernel, by decide +kernel, by decide +kernel, by decide +kernel, by decide +kernel, by decide +kernel,
   by decide +kernel, by decide +kernel, by decide +kernel, by decide +kernel⟩

theorem test_witness_frames_forwarded_4_5 : ∃ s : State, ∃ p : Nat, ∃ f : RxFrame, ∃ v : State,
    f.leat.ver = 1 ∧ s.rd R.FAB_NODE.ACT ≠ 0 ∧ f.leat.dst ≠ 4095 ∧ f.leat.dst ≠ 0 ∧ (s.routePort f.leat.dst : Nat) < 4 ∧
    f.leat.ttl ≠ 0 ∧ f.leat.typ ≠ tyQuench ∧ linkType f.leat.typ = false ∧
    s.cutThrough p (s.routePort f.leat.dst : Nat) f.leat = true ∧
    ((if f.icvOk = true ∧ f.fcsOk = true then s.setPort p { s.port p with rx := (s.port p).rx.map fun a => if a.an = f.an then { a with highPn := max a.highPn f.pn } else a } else s) : State).ctlPolice p (s.routePort f.leat.dst : Nat) f.leat = some v ∧
    f.icvOk = true ∧ f.fcsOk = true :=
  ⟨(((((({ (State.reset.wr R.FAB_NODE.ACT 1) with fab.routes := [(1, 0#32)] } : State).wr (portUnit 0).STATE stRun).raise (R.FAB_P_STAT.LINK 0)).setPort 0 { tx := some { an := 0, sak := [] } }).wr R.FAB_NODE.ACT 2).wr UnitId.fab.STATE stRun),
   3, ({ leat := { ver := 1, lane := 0, dst := 1, src := 2, typ := tyMbx, len := 0, payload := [] , ttl := 5 } } : RxFrame), _,
   by decide +kernel, by decide +kernel, by decide +kernel, by decide +kernel, by decide +kernel, by decide +kernel,
   by decide +kernel, by decide +kernel, by decide +kernel, some_is State.reset (by decide +kernel), by decide +kernel,
   by decide +kernel⟩

theorem test_witness_frames_forwarded_4_6 : ∃ s : State, ∃ p : Nat, ∃ f : RxFrame, ∃ v : State,
    f.leat.ver = 1 ∧ s.rd R.FAB_NODE.ACT ≠ 0 ∧ f.leat.dst ≠ 4095 ∧ f.leat.dst ≠ 0 ∧ (s.routePort f.leat.dst : Nat) < 4 ∧
    f.leat.ttl ≠ 0 ∧ f.leat.typ ≠ tyQuench ∧ linkType f.leat.typ = false ∧
    s.cutThrough p (s.routePort f.leat.dst : Nat) f.leat = true ∧
    ((if f.icvOk = true ∧ f.fcsOk = true then s.setPort p { s.port p with rx := (s.port p).rx.map fun a => if a.an = f.an then { a with highPn := max a.highPn f.pn } else a } else s) : State).ctlPolice p (s.routePort f.leat.dst : Nat) f.leat = some v ∧
    (f.icvOk = false ∨ f.fcsOk = false) :=
  ⟨(((((({ (State.reset.wr R.FAB_NODE.ACT 1) with fab.routes := [(1, 0#32)] } : State).wr (portUnit 0).STATE stRun).raise (R.FAB_P_STAT.LINK 0)).setPort 0 { tx := some { an := 0, sak := [] } }).wr R.FAB_NODE.ACT 2).wr UnitId.fab.STATE stRun),
   3,
   ({ leat := { ver := 1, lane := 0, dst := 1, src := 2, typ := tyMbx, len := 0, payload := [] , ttl := 5 }, fcsOk := false } : RxFrame),
   _, by decide +kernel, by decide +kernel, by decide +kernel, by decide +kernel, by decide +kernel, by decide +kernel,
   by decide +kernel, by decide +kernel, by decide +kernel, some_is State.reset (by decide +kernel), by decide +kernel⟩

theorem test_witness_frames_forwarded_5_0 : ∃ s : State, ∃ f : RxFrame,
    s.canSend = true ∧ f.leat.typ ≠ tyQuench ∧ f.leat.payload.length ≤ maxSend :=
  ⟨((State.reset.wr UnitId.fab.STATE stRun).wr R.FAB_NODE.ACT 1),
   ({ leat := ({ lane := 0, dst := 1, src := 2, typ := 4, len := 0, payload := [] } : Leat) } : RxFrame), by decide +kernel,
   by decide +kernel, by decide +kernel⟩

theorem test_witness_frames_forwarded_6_0 : ∃ s : State, ∃ f : RxFrame,
    (s.canSend = false ∨ f.leat.typ = tyQuench ∨ maxSend < f.leat.payload.length) :=
  ⟨State.reset, ({ leat := ({ lane := 0, dst := 1, src := 2, typ := 4, len := 0, payload := [] } : Leat) } : RxFrame),
   by decide +kernel⟩

theorem test_witness_frames_forwarded_7_0 : ∃ s : State, ∃ p : Nat, ∃ d : Datagram,
    p < 4 ∧ (s.udp p = false ∨ s.portLive p = false) :=
  ⟨State.reset, 3,
   ({ srcAddr := 0, srcPort := 0, dstPort := 0, frame := { leat := { lane := 0, dst := 1, src := 2, typ := 4, len := 0, payload := [] } } } : Datagram),
   by decide +kernel, by decide +kernel⟩

theorem test_witness_frames_forwarded_8_0 : ∃ s : State, ∃ p : Nat, ∃ d : Datagram,
    p < 4 ∧ s.udp p = true ∧ s.portLive p = true ∧
    (d.srcAddr ≠ s.ip6 (R.FAB_P_PEER.addr p 0) ∨ d.srcPort ≠ s.rd (R.FAB_P_UDP.PORT p) ∨ d.dstPort ≠ s.rd (R.FAB_P_UDP.PORT p) ∨ d.extHeader = true ∨ d.sumOk = false) :=
  ⟨((((State.reset.wr (R.FAB_P_CTRL.MEDIA 3) mediaUdp).wr (portUnit 3).STATE stRun).wr UnitId.fab.STATE stRun).raise (R.FAB_P_STAT.LINK 3)),
   3,
   ({ srcAddr := 0, srcPort := 0, dstPort := 0, frame := { leat := { lane := 0, dst := 1, src := 2, typ := 4, len := 0, payload := [] } } } : Datagram),
   by decide +kernel, by decide +kernel, by decide +kernel, by decide +kernel⟩

theorem test_witness_frames_forwarded_9_0 : ∃ s : State, ∃ p : Nat, ∃ d : Datagram,
    p < 4 ∧ s.udp p = true ∧ s.portLive p = true ∧ d.srcAddr = s.ip6 (R.FAB_P_PEER.addr p 0) ∧
    d.srcPort = s.rd (R.FAB_P_UDP.PORT p) ∧ d.dstPort = s.rd (R.FAB_P_UDP.PORT p) ∧ d.extHeader = false ∧ d.sumOk = true :=
  ⟨((((State.reset.wr (R.FAB_P_CTRL.MEDIA 3) mediaUdp).wr (portUnit 3).STATE stRun).wr UnitId.fab.STATE stRun).raise (R.FAB_P_STAT.LINK 3)),
   3,
   ({ srcAddr := ((((State.reset.wr (R.FAB_P_CTRL.MEDIA 3) mediaUdp).wr (portUnit 3).STATE stRun).wr UnitId.fab.STATE stRun).raise (R.FAB_P_STAT.LINK 3)).ip6 (R.FAB_P_PEER.addr 3 0), srcPort := ((((State.reset.wr (R.FAB_P_CTRL.MEDIA 3) mediaUdp).wr (portUnit 3).STATE stRun).wr UnitId.fab.STATE stRun).raise (R.FAB_P_STAT.LINK 3)).rd (R.FAB_P_UDP.PORT 3), dstPort := ((((State.reset.wr (R.FAB_P_CTRL.MEDIA 3) mediaUdp).wr (portUnit 3).STATE stRun).wr UnitId.fab.STATE stRun).raise (R.FAB_P_STAT.LINK 3)).rd (R.FAB_P_UDP.PORT 3), frame := { leat := { lane := 0, dst := 1, src := 2, typ := 4, len := 0, payload := [] } }, extHeader := false, sumOk := true } : Datagram),
   by decide +kernel, by decide +kernel, by decide +kernel, by decide +kernel, by decide +kernel, by decide +kernel,
   by decide +kernel, by decide +kernel⟩

theorem test_witness_frames_forwarded_10_0 : ∃ s : State, ∃ p : Nat, ∃ x : BitVec 128,
    p < 4 ∧
    (if s.upd.recovery.isSome = true then p = 0 ∧ x = s.recoveryIp else s.udp p = true ∧ s.portOn p = true ∧ x = s.ip6 (R.FAB_P_IP.addr p 0)) :=
  ⟨((((((State.reset.wr (portUnit 3).STATE stRun).wr UnitId.fab.STATE stRun).raise (R.FAB_P_STAT.LINK 3)).wr (portUnit 3).STATE stRun).raise (R.FAB_P_STAT.LINK 3)).wr (R.FAB_P_CTRL.MEDIA 3) mediaUdp),
   3,
   (((((((State.reset.wr (portUnit 3).STATE stRun).wr UnitId.fab.STATE stRun).raise (R.FAB_P_STAT.LINK 3)).wr (portUnit 3).STATE stRun).raise (R.FAB_P_STAT.LINK 3)).wr (R.FAB_P_CTRL.MEDIA 3) mediaUdp).ip6 (R.FAB_P_IP.addr 3 0)),
   by decide +kernel, by decide +kernel⟩

theorem test_witness_frames_forwarded_11_0 : ∃ s : State, ∃ p : Nat, ∃ x : BitVec 128,
    p < 4 ∧
    ¬ (if s.upd.recovery.isSome = true then p = 0 ∧ x = s.recoveryIp else s.udp p = true ∧ s.portOn p = true ∧ x = s.ip6 (R.FAB_P_IP.addr p 0)) :=
  ⟨State.reset, 3, (0 : BitVec 128), by decide +kernel, by decide +kernel⟩

theorem test_witness_frames_forwarded_12_0 : ∃ s : State, ∃ p : Nat,
    p < 4 ∧ s.upd.recovery = none ∧ s.udp p = true ∧ s.portOn p = true :=
  ⟨((((State.reset.wr (R.FAB_P_CTRL.MEDIA 3) mediaUdp).wr (portUnit 3).STATE stRun).wr UnitId.fab.STATE stRun).raise (R.FAB_P_STAT.LINK 3)),
   3, by decide +kernel, by decide +kernel, by decide +kernel, by decide +kernel⟩

theorem test_witness_frames_forwarded_13_0 : ∃ s : State, ∃ p : Nat, ∃ x : BitVec 128,
    p < 4 ∧ (s.upd.recovery ≠ none ∨ s.udp p = false ∨ s.portOn p = false ∨ x ≠ s.ip6 (R.FAB_P_IP.addr p 0)) :=
  ⟨({ State.reset with upd.recovery := some 0 } : State), 3, (0 : BitVec 128), by decide +kernel, by decide +kernel⟩

/-! Witnesses of links_and_keys. -/

theorem test_witness_links_and_keys_0_0 : ∃ s : State, ∃ p : Nat, ∃ v : Nat,
    p < 4 ∧ s.running (portUnit p) = true ∧ s.speedOk p v = true ∧
    ((s.raise (R.FAB_P_STAT.LINK p)).wr (R.FAB_P_STAT.SPEED p) v : State).rd (fADJ p) = adjDown ∧
    ((s.raise (R.FAB_P_STAT.LINK p)).wr (R.FAB_P_STAT.SPEED p) v : State).running .fab = true :=
  ⟨(((State.reset.wr (portUnit 3).STATE stRun).wr (fADJ 3) adjDown).wr UnitId.fab.STATE stRun), 3, 1, by decide +kernel,
   by decide +kernel, by decide +kernel, by decide +kernel, by decide +kernel⟩

theorem test_witness_links_and_keys_0_1 : ∃ s : State, ∃ p : Nat, ∃ v : Nat,
    p < 4 ∧ s.running (portUnit p) = true ∧ s.speedOk p v = true ∧
    (((s.raise (R.FAB_P_STAT.LINK p)).wr (R.FAB_P_STAT.SPEED p) v : State).rd (fADJ p) ≠ adjDown ∨ ((s.raise (R.FAB_P_STAT.LINK p)).wr (R.FAB_P_STAT.SPEED p) v : State).running .fab = false) :=
  ⟨((State.reset.wr (portUnit 3).STATE stRun).wr (fADJ 3) adjHello), 3, 1, by decide +kernel, by decide +kernel,
   by decide +kernel, by decide +kernel⟩

theorem test_witness_links_and_keys_1_0 : ∃ s : State, ∃ p, ∃ v,
    p < 4 ∧ (s.running (portUnit p) = false ∨ s.speedOk p v = false) :=
  ⟨State.reset, 3, 0, by decide +kernel, by decide +kernel⟩

theorem test_witness_links_and_keys_3_0 : ∃ s : State, ∃ p,
    p < 4 ∧ s.on (R.FAB_P_STAT.LINK p) = true :=
  ⟨(State.reset.raise (R.FAB_P_STAT.LINK 3)), 3, by decide +kernel, by decide +kernel⟩

theorem test_witness_links_and_keys_4_0 : ∃ s : State, ∃ p,
    p < 4 ∧ s.on (R.FAB_P_STAT.LINK p) = false :=
  ⟨(State.reset.clear (R.FAB_P_STAT.LINK 3)), 3, by decide +kernel, by decide +kernel⟩

theorem test_witness_links_and_keys_5_0 : ∃ s : State, ∃ p : Nat, ∃ k : Keyx,
    p < 4 ∧ (s.keyxOpen p = false ∨ s.fabKeyOk = false) :=
  ⟨State.reset, 3, ({ an := 1, caps := 1, port := 0, mac := 1, node := 1, nonce := 0 } : Keyx), by decide +kernel,
   by decide +kernel⟩

theorem test_witness_links_and_keys_6_0 : ∃ s : State, ∃ p : Nat, ∃ k : Keyx,
    p < 4 ∧ s.keyxOpen p = true ∧ s.fabKeyOk = true ∧ k.tagOk = false :=
  ⟨((((((State.reset.wr (portUnit 3).STATE stRun).wr UnitId.fab.STATE stRun).raise (R.FAB_P_STAT.LINK 3)).wr (fADJ 3) adjHello).wr UnitId.key.STATE stRun).setKslot (State.reset.rd R.FAB_SEC.KSLOT) { kind := 3, parent := 0xFF, purpose := 4 }),
   3, ({ an := 1, caps := 1, port := 0, mac := 1, node := 1, nonce := 0, tagOk := false } : Keyx), by decide +kernel,
   by decide +kernel, by decide +kernel, by decide +kernel⟩

theorem test_witness_links_and_keys_7_0 : ∃ s : State, ∃ p : Nat, ∃ k : Keyx, ∃ v : State,
    p < 4 ∧ s.keyxOpen p = true ∧ s.fabKeyOk = true ∧ k.tagOk = true ∧
    (((((s.learnPeer p k).setPort p { (s.learnPeer p k).port p with peerAn := k.an, offerSeen := true } : State).port p).rekeying = true ∨ (∀ a, ((((s.learnPeer p k).setPort p { (s.learnPeer p k).port p with peerAn := k.an, offerSeen := true } : State).port p).tx = some a) → a.an = k.an)) → v = ((s.learnPeer p k).setPort p { (s.learnPeer p k).port p with peerAn := k.an, offerSeen := true } : State)) ∧
    (((((s.learnPeer p k).setPort p { (s.learnPeer p k).port p with peerAn := k.an, offerSeen := true } : State).port p).rekeying = false) → (∃ a, (((s.learnPeer p k).setPort p { (s.learnPeer p k).port p with peerAn := k.an, offerSeen := true } : State).port p).tx = some a ∧ a.an ≠ k.an) → v = ((s.learnPeer p k).setPort p { (s.learnPeer p k).port p with peerAn := k.an, offerSeen := true } : State).rekey p) :=
  ⟨((((((State.reset.wr (portUnit 3).STATE stRun).wr UnitId.fab.STATE stRun).raise (R.FAB_P_STAT.LINK 3)).wr (fADJ 3) adjHello).wr UnitId.key.STATE stRun).setKslot (State.reset.rd R.FAB_SEC.KSLOT) { kind := 3, parent := 0xFF, purpose := 4 }),
   3, ({ an := 1, caps := 1, port := 0, mac := 1, node := 1, nonce := 0, tagOk := true } : Keyx),
   ((((((((State.reset.wr (portUnit 3).STATE stRun).wr UnitId.fab.STATE stRun).raise (R.FAB_P_STAT.LINK 3)).wr (fADJ 3) adjHello).wr UnitId.key.STATE stRun).setKslot (State.reset.rd R.FAB_SEC.KSLOT) { kind := 3, parent := 0xFF, purpose := 4 }).learnPeer 3 ({ an := 1, caps := 1, port := 0, mac := 1, node := 1, nonce := 0, tagOk := true } : Keyx)).setPort 3 { (((((((State.reset.wr (portUnit 3).STATE stRun).wr UnitId.fab.STATE stRun).raise (R.FAB_P_STAT.LINK 3)).wr (fADJ 3) adjHello).wr UnitId.key.STATE stRun).setKslot (State.reset.rd R.FAB_SEC.KSLOT) { kind := 3, parent := 0xFF, purpose := 4 }).learnPeer 3 ({ an := 1, caps := 1, port := 0, mac := 1, node := 1, nonce := 0, tagOk := true } : Keyx)).port 3 with peerAn := ({ an := 1, caps := 1, port := 0, mac := 1, node := 1, nonce := 0, tagOk := true } : Keyx).an, offerSeen := true } : State),
   by decide +kernel, by decide +kernel, by decide +kernel, by decide +kernel, fun _ => rfl,
   fun _ h => by obtain ⟨a, h, _⟩ := h; exact absurd ((congrArg Option.isSome h).trans (rfl : _ = true)) (by decide +kernel)⟩

theorem test_witness_links_and_keys_8_0 : ∃ s : State, ∃ p : Nat, ∃ k : Keyx,
    p < 4 ∧ s.keyxOpen p = true ∧ s.fabKeyOk = true ∧ k.tagOk = true ∧
    (k.peerNonce ≠ (s.port p).nonce ∨ (s.rd (fADJ p) ≠ adjKeying ∧ (s.port p).rekeying = false)) :=
  ⟨((((((State.reset.wr (portUnit 3).STATE stRun).wr UnitId.fab.STATE stRun).raise (R.FAB_P_STAT.LINK 3)).wr (fADJ 3) adjHello).wr UnitId.key.STATE stRun).setKslot (State.reset.rd R.FAB_SEC.KSLOT) { kind := 3, parent := 0xFF, purpose := 4 }),
   3, ({ an := 1, caps := 1, port := 0, mac := 1, node := 1, nonce := 0, tagOk := true } : Keyx), by decide +kernel,
   by decide +kernel, by decide +kernel, by decide +kernel, by decide +kernel⟩

theorem test_witness_links_and_keys_9_0 : ∃ s : State, ∃ p : Nat, ∃ k : Keyx,
    p < 4 ∧ s.keyxOpen p = true ∧ s.fabKeyOk = true ∧ k.tagOk = true ∧ k.peerNonce = (s.port p).nonce ∧
    (s.rd (fADJ p) = adjKeying ∨ (s.port p).rekeying = true) ∧
    ((s.learnPeer p k : State).setPort p { (s.learnPeer p k : State).port p with tx := some { an := ((if (s.learnPeer p k : State).ownMac < k.mac then (s.port p).offerAn else if (s.port p).offerSeen then (s.port p).peerAn else k.an) : Nat), sak := (s.learnPeer p k : State).sak k.mac (s.port p).nonce k.nonce ((if (s.learnPeer p k : State).ownMac < k.mac then (s.port p).offerAn else if (s.port p).offerSeen then (s.port p).peerAn else k.an) : Nat) }, rx := { an := ((if (s.learnPeer p k : State).ownMac < k.mac then (s.port p).offerAn else if (s.port p).offerSeen then (s.port p).peerAn else k.an) : Nat), sak := (s.learnPeer p k : State).sak k.mac (s.port p).nonce k.nonce ((if (s.learnPeer p k : State).ownMac < k.mac then (s.port p).offerAn else if (s.port p).offerSeen then (s.port p).peerAn else k.an) : Nat) } :: (((s.learnPeer p k : State).port p).rx.filter (·.an != ((if (s.learnPeer p k : State).ownMac < k.mac then (s.port p).offerAn else if (s.port p).offerSeen then (s.port p).peerAn else k.an) : Nat))).take 1, txPn := 0, saAt := (s.learnPeer p k : State).now, oldSaAt := if ((s.learnPeer p k : State).port p).rx.isEmpty then none else some ((s.learnPeer p k : State).now + sec), rekeying := false } : State).rd (fADJ p) = adjKeying :=
  ⟨(((((((State.reset.wr (portUnit 3).STATE stRun).wr UnitId.fab.STATE stRun).raise (R.FAB_P_STAT.LINK 3)).wr (fADJ 3) adjHello).wr UnitId.key.STATE stRun).setKslot (State.reset.rd R.FAB_SEC.KSLOT) { kind := 3, parent := 0xFF, purpose := 4 }).wr (fADJ 3) adjKeying),
   3,
   ({ an := 1, caps := 1, port := 0, mac := 1, node := 1, nonce := 0, tagOk := true, peerNonce := ((((((((State.reset.wr (portUnit 3).STATE stRun).wr UnitId.fab.STATE stRun).raise (R.FAB_P_STAT.LINK 3)).wr (fADJ 3) adjHello).wr UnitId.key.STATE stRun).setKslot (State.reset.rd R.FAB_SEC.KSLOT) { kind := 3, parent := 0xFF, purpose := 4 }).wr (fADJ 3) adjKeying).port 3).nonce } : Keyx),
   by decide +kernel, by decide +kernel, by decide +kernel, by decide +kernel, by decide +kernel, by decide +kernel,
   by decide +kernel⟩

theorem test_witness_links_and_keys_9_1 : ∃ s : State, ∃ p : Nat, ∃ k : Keyx,
    p < 4 ∧ s.keyxOpen p = true ∧ s.fabKeyOk = true ∧ k.tagOk = true ∧ k.peerNonce = (s.port p).nonce ∧
    (s.rd (fADJ p) = adjKeying ∨ (s.port p).rekeying = true) ∧
    ((s.learnPeer p k : State).setPort p { (s.learnPeer p k : State).port p with tx := some { an := ((if (s.learnPeer p k : State).ownMac < k.mac then (s.port p).offerAn else if (s.port p).offerSeen then (s.port p).peerAn else k.an) : Nat), sak := (s.learnPeer p k : State).sak k.mac (s.port p).nonce k.nonce ((if (s.learnPeer p k : State).ownMac < k.mac then (s.port p).offerAn else if (s.port p).offerSeen then (s.port p).peerAn else k.an) : Nat) }, rx := { an := ((if (s.learnPeer p k : State).ownMac < k.mac then (s.port p).offerAn else if (s.port p).offerSeen then (s.port p).peerAn else k.an) : Nat), sak := (s.learnPeer p k : State).sak k.mac (s.port p).nonce k.nonce ((if (s.learnPeer p k : State).ownMac < k.mac then (s.port p).offerAn else if (s.port p).offerSeen then (s.port p).peerAn else k.an) : Nat) } :: (((s.learnPeer p k : State).port p).rx.filter (·.an != ((if (s.learnPeer p k : State).ownMac < k.mac then (s.port p).offerAn else if (s.port p).offerSeen then (s.port p).peerAn else k.an) : Nat))).take 1, txPn := 0, saAt := (s.learnPeer p k : State).now, oldSaAt := if ((s.learnPeer p k : State).port p).rx.isEmpty then none else some ((s.learnPeer p k : State).now + sec), rekeying := false } : State).rd (fADJ p) ≠ adjKeying :=
  ⟨(((((((((State.reset.wr (portUnit 3).STATE stRun).wr UnitId.fab.STATE stRun).raise (R.FAB_P_STAT.LINK 3)).wr (fADJ 3) adjHello).wr UnitId.key.STATE stRun).setKslot (State.reset.rd R.FAB_SEC.KSLOT) { kind := 3, parent := 0xFF, purpose := 4 }).wr (fADJ 3) adjKeying).wr (fADJ 3) adjUp).setPort 3 { rekeying := true }),
   3,
   ({ an := 1, caps := 1, port := 0, mac := 1, node := 1, nonce := 0, tagOk := true, peerNonce := ((((((((((State.reset.wr (portUnit 3).STATE stRun).wr UnitId.fab.STATE stRun).raise (R.FAB_P_STAT.LINK 3)).wr (fADJ 3) adjHello).wr UnitId.key.STATE stRun).setKslot (State.reset.rd R.FAB_SEC.KSLOT) { kind := 3, parent := 0xFF, purpose := 4 }).wr (fADJ 3) adjKeying).wr (fADJ 3) adjUp).setPort 3 { rekeying := true }).port 3).nonce } : Keyx),
   by decide +kernel, by decide +kernel, by decide +kernel, by decide +kernel, by decide +kernel, by decide +kernel,
   by decide +kernel⟩

theorem test_witness_links_and_keys_10_0 : ∃ s : State, ∃ p : Nat,
    p < 4 ∧ s.portLive p = true ∧ (s.rd (fADJ p) = adjKeying ∨ (s.port p).rekeying = true) :=
  ⟨((((State.reset.wr (portUnit 3).STATE stRun).wr UnitId.fab.STATE stRun).raise (R.FAB_P_STAT.LINK 3)).wr (fADJ 3) adjKeying),
   3, by decide +kernel, by decide +kernel, by decide +kernel⟩

theorem test_witness_links_and_keys_11_0 : ∃ s : State, ∃ p,
    p < 4 ∧ s.portLive p = false :=
  ⟨State.reset, 3, by decide +kernel, by decide +kernel⟩

theorem test_witness_links_and_keys_12_0 : ∃ s : State, ∃ p : Nat,
    p < 4 ∧ s.portLive p = true ∧ s.rd (fADJ p) = adjKeying :=
  ⟨((((State.reset.wr (portUnit 3).STATE stRun).wr UnitId.fab.STATE stRun).raise (R.FAB_P_STAT.LINK 3)).wr (fADJ 3) adjKeying),
   3, by decide +kernel, by decide +kernel, by decide +kernel⟩

theorem test_witness_links_and_keys_13_0 : ∃ s : State, ∃ p : Nat,
    p < 4 ∧ (s.port p).tx.isSome = true ∧ (s.port p).rekeying = false ∧ s.portLive p = true :=
  ⟨((((State.reset.wr (portUnit 3).STATE stRun).wr UnitId.fab.STATE stRun).raise (R.FAB_P_STAT.LINK 3)).setPort 3 { tx := some { an := 0, sak := [] } }),
   3, by decide +kernel, by decide +kernel, by decide +kernel, by decide +kernel⟩

theorem test_witness_links_and_keys_14_0 : ∃ s : State, ∃ p,
    p < 4 ∧ ((s.port p).tx = none ∨ (s.port p).rekeying = true) :=
  ⟨State.reset, 3, by decide +kernel, by decide +kernel⟩

theorem test_witness_links_and_keys_15_0 : ∃ s : State, ∃ p,
    p < 4 ∧ s.rd (fADJ p) ≠ adjKeying :=
  ⟨State.reset, 3, by decide +kernel, by decide +kernel⟩

theorem test_witness_links_and_keys_15_1 : ∃ s : State, ∃ p,
    p < 4 ∧ s.rd (fADJ p) ≠ adjKeying ∧ (s.port p).rekeying = false :=
  ⟨State.reset, 3, by decide +kernel, by decide +kernel, by decide +kernel⟩

theorem test_witness_links_and_keys_16_0 : ∃ s : State, ∃ p : Nat, ∃ i : Nat,
    p < 4 ∧ (s.port p).oldSaAt = some i :=
  ⟨(State.reset.setPort 3 { oldSaAt := some 0 }), 3, 0, by decide +kernel, by decide +kernel⟩

theorem test_witness_links_and_keys_17_0 : ∃ s : State, ∃ p,
    p < 4 ∧ (s.port p).oldSaAt = none :=
  ⟨State.reset, 3, by decide +kernel, by decide +kernel⟩

/-! Witnesses of adjacency_and_node_number. -/

theorem test_witness_adjacency_and_node_number_0_0 : ∃ s : State, ∃ p,
    p < 4 ∧ s.helloing p = true :=
  ⟨((((State.reset.wr (portUnit 3).STATE stRun).wr UnitId.fab.STATE stRun).raise (R.FAB_P_STAT.LINK 3)).wr (fADJ 3) adjHello),
   3, by decide +kernel, by decide +kernel⟩

theorem test_witness_adjacency_and_node_number_1_0 : ∃ s : State, ∃ p : Nat, ∃ h : Hello,
    p < 4 ∧ s.helloing p = false :=
  ⟨State.reset, 3, ({ node := 1, nstate := 0, mac := 0, port := 0, int := 1, dead := 3, heard := 0 } : Hello),
   by decide +kernel, by decide +kernel⟩

theorem test_witness_adjacency_and_node_number_2_0 : ∃ s : State, ∃ p : Nat, ∃ h : Hello,
    p < 4 ∧ s.helloing p = true ∧
    (s.setPort p { s.port p with deadAt := some (s.now + 100 * us * h.int * h.dead), deadVoid := (match (s.port p).deadAt with | some t => decide (t ≤ s.now + fabCycle) | none => false) } : State).rd (fADJ p) = adjUp ∧
    (h.mac ≠ ((s.setPort p { s.port p with deadAt := some (s.now + 100 * us * h.int * h.dead), deadVoid := (match (s.port p).deadAt with | some t => decide (t ≤ s.now + fabCycle) | none => false) } : State).port p).peerMac ∨ h.node ≠ ((s.setPort p { s.port p with deadAt := some (s.now + 100 * us * h.int * h.dead), deadVoid := (match (s.port p).deadAt with | some t => decide (t ≤ s.now + fabCycle) | none => false) } : State).port p).peerNode) :=
  ⟨(((((State.reset.wr (portUnit 3).STATE stRun).wr UnitId.fab.STATE stRun).raise (R.FAB_P_STAT.LINK 3)).wr (fADJ 3) adjHello).wr (fADJ 3) adjUp),
   3, ({ node := 1, nstate := 0, mac := 0, port := 0, int := 1, dead := 3, heard := 0 } : Hello), by decide +kernel,
   by decide +kernel, by decide +kernel, by decide +kernel⟩

theorem test_witness_adjacency_and_node_number_2_1 : ∃ s : State, ∃ p : Nat, ∃ h : Hello,
    p < 4 ∧ s.helloing p = true ∧
    (s.setPort p { s.port p with deadAt := some (s.now + 100 * us * h.int * h.dead), deadVoid := (match (s.port p).deadAt with | some t => decide (t ≤ s.now + fabCycle) | none => false) } : State).rd (fADJ p) = adjUp ∧
    h.mac = ((s.setPort p { s.port p with deadAt := some (s.now + 100 * us * h.int * h.dead), deadVoid := (match (s.port p).deadAt with | some t => decide (t ≤ s.now + fabCycle) | none => false) } : State).port p).peerMac ∧
    h.node = ((s.setPort p { s.port p with deadAt := some (s.now + 100 * us * h.int * h.dead), deadVoid := (match (s.port p).deadAt with | some t => decide (t ≤ s.now + fabCycle) | none => false) } : State).port p).peerNode ∧
    h.heard ≠ (s.setPort p { s.port p with deadAt := some (s.now + 100 * us * h.int * h.dead), deadVoid := (match (s.port p).deadAt with | some t => decide (t ≤ s.now + fabCycle) | none => false) } : State).rd R.FAB_NODE.ACT ∧
    (((s.setPort p { s.port p with deadAt := some (s.now + 100 * us * h.int * h.dead), deadVoid := (match (s.port p).deadAt with | some t => decide (t ≤ s.now + fabCycle) | none => false) } : State).setPort p { (s.setPort p { s.port p with deadAt := some (s.now + 100 * us * h.int * h.dead), deadVoid := (match (s.port p).deadAt with | some t => decide (t ≤ s.now + fabCycle) | none => false) } : State).port p with peerMac := h.mac, peerNode := h.node }).wr (R.FAB_P_STAT.NBR p) h.node : State).rd R.FAB_NODE.ACT = (s.setPort p { s.port p with deadAt := some (s.now + 100 * us * h.int * h.dead), deadVoid := (match (s.port p).deadAt with | some t => decide (t ≤ s.now + fabCycle) | none => false) } : State).rd R.FAB_NODE.ACT :=
  ⟨(((((((State.reset.wr (portUnit 3).STATE stRun).wr UnitId.fab.STATE stRun).raise (R.FAB_P_STAT.LINK 3)).wr (fADJ 3) adjHello).wr (fADJ 3) adjUp).wr R.FAB_NODE.ACT ((State.reset.setPort 3 { State.reset.port 3 with deadAt := some (State.reset.now + 100 * us * ({ node := 0, nstate := 0, mac := 0, port := 0, int := 1, dead := 3, heard := 5 } : Hello).int * ({ node := 0, nstate := 0, mac := 0, port := 0, int := 1, dead := 3, heard := 5 } : Hello).dead), deadVoid := (match (State.reset.port 3).deadAt with | some t => decide (t ≤ State.reset.now + fabCycle) | none => false) } : State).rd R.FAB_NODE.ACT)).wr R.FAB_NODE.ACT 4094),
   3, ({ node := 0, nstate := 0, mac := 0, port := 0, int := 1, dead := 3, heard := 5 } : Hello), by decide +kernel,
   by decide +kernel, by decide +kernel, by decide +kernel, by decide +kernel, by decide +kernel, by decide +kernel⟩

theorem test_witness_adjacency_and_node_number_2_2 : ∃ s : State, ∃ p : Nat, ∃ h : Hello,
    p < 4 ∧ s.helloing p = true ∧
    (s.setPort p { s.port p with deadAt := some (s.now + 100 * us * h.int * h.dead), deadVoid := (match (s.port p).deadAt with | some t => decide (t ≤ s.now + fabCycle) | none => false) } : State).rd (fADJ p) = adjUp ∧
    h.mac = ((s.setPort p { s.port p with deadAt := some (s.now + 100 * us * h.int * h.dead), deadVoid := (match (s.port p).deadAt with | some t => decide (t ≤ s.now + fabCycle) | none => false) } : State).port p).peerMac ∧
    h.node = ((s.setPort p { s.port p with deadAt := some (s.now + 100 * us * h.int * h.dead), deadVoid := (match (s.port p).deadAt with | some t => decide (t ≤ s.now + fabCycle) | none => false) } : State).port p).peerNode ∧
    h.heard = (s.setPort p { s.port p with deadAt := some (s.now + 100 * us * h.int * h.dead), deadVoid := (match (s.port p).deadAt with | some t => decide (t ≤ s.now + fabCycle) | none => false) } : State).rd R.FAB_NODE.ACT :=
  ⟨((((((State.reset.wr (portUnit 3).STATE stRun).wr UnitId.fab.STATE stRun).raise (R.FAB_P_STAT.LINK 3)).wr (fADJ 3) adjHello).wr (fADJ 3) adjUp).wr R.FAB_NODE.ACT 4094),
   3, ({ node := 0, nstate := 0, mac := 0, port := 0, int := 1, dead := 3, heard := 4094 } : Hello), by decide +kernel,
   by decide +kernel, by decide +kernel, by decide +kernel, by decide +kernel, by decide +kernel⟩

theorem test_witness_adjacency_and_node_number_2_3 : ∃ s : State, ∃ p : Nat, ∃ h : Hello,
    p < 4 ∧ s.helloing p = true ∧
    (s.setPort p { s.port p with deadAt := some (s.now + 100 * us * h.int * h.dead), deadVoid := (match (s.port p).deadAt with | some t => decide (t ≤ s.now + fabCycle) | none => false) } : State).rd (fADJ p) ≠ adjUp ∧
    h.heard = (s.setPort p { s.port p with deadAt := some (s.now + 100 * us * h.int * h.dead), deadVoid := (match (s.port p).deadAt with | some t => decide (t ≤ s.now + fabCycle) | none => false) } : State).rd R.FAB_NODE.ACT :=
  ⟨(((((State.reset.wr (portUnit 3).STATE stRun).wr UnitId.fab.STATE stRun).raise (R.FAB_P_STAT.LINK 3)).wr (fADJ 3) adjHello).wr R.FAB_NODE.ACT 4094),
   3, ({ node := 1, nstate := 0, mac := 0, port := 0, int := 1, dead := 3, heard := 4094 } : Hello), by decide +kernel,
   by decide +kernel, by decide +kernel, by decide +kernel⟩

theorem test_witness_adjacency_and_node_number_2_4 : ∃ s : State, ∃ p : Nat, ∃ h : Hello,
    p < 4 ∧ s.helloing p = true ∧
    (s.setPort p { s.port p with deadAt := some (s.now + 100 * us * h.int * h.dead), deadVoid := (match (s.port p).deadAt with | some t => decide (t ≤ s.now + fabCycle) | none => false) } : State).rd (fADJ p) ≠ adjUp ∧
    h.heard ≠ (s.setPort p { s.port p with deadAt := some (s.now + 100 * us * h.int * h.dead), deadVoid := (match (s.port p).deadAt with | some t => decide (t ≤ s.now + fabCycle) | none => false) } : State).rd R.FAB_NODE.ACT :=
  ⟨(((((State.reset.wr (portUnit 3).STATE stRun).wr UnitId.fab.STATE stRun).raise (R.FAB_P_STAT.LINK 3)).wr (fADJ 3) adjHello).wr R.FAB_NODE.ACT 4094),
   3, ({ node := 1, nstate := 0, mac := 0, port := 0, int := 1, dead := 3, heard := 5 } : Hello), by decide +kernel,
   by decide +kernel, by decide +kernel, by decide +kernel⟩

theorem test_witness_adjacency_and_node_number_3_0 : ∃ s : State, ∃ p, ∃ i : Nat,
    p < 4 ∧ (s.port p).deadAt = some i ∧ s.helloing p = true ∧ (s.port p).deadVoid = true :=
  ⟨(((((((State.reset.setPort 3 { deadAt := some 7 }).setPort 3 { deadVoid := true }).wr (portUnit 3).STATE stRun).wr UnitId.fab.STATE stRun).raise (R.FAB_P_STAT.LINK 3)).wr (fADJ 3) adjHello).setPort 3 { deadAt := some 7, deadVoid := true }),
   3, 7, by decide +kernel, by decide +kernel, by decide +kernel, by decide +kernel⟩

theorem test_witness_adjacency_and_node_number_3_1 : ∃ s : State, ∃ p, ∃ i : Nat,
    p < 4 ∧ (s.port p).deadAt = some i ∧ s.helloing p = true ∧ (s.port p).deadVoid = false ∧ s.helloNext p = true :=
  ⟨({ ((((((State.reset.setPort 3 { deadAt := some 7 }).wr (portUnit 3).STATE stRun).wr UnitId.fab.STATE stRun).raise (R.FAB_P_STAT.LINK 3)).wr (fADJ 3) adjHello).setPort 3 { deadAt := some 7 }) with pending := [.helloReceived 3 ({ node := 1, nstate := 0, mac := 0, port := 0, int := 1, dead := 3, heard := 5 } : Hello)] } : State),
   3, 7, by decide +kernel, by decide +kernel, by decide +kernel, by decide +kernel, by decide +kernel⟩

theorem test_witness_adjacency_and_node_number_3_2 : ∃ s : State, ∃ p, ∃ i : Nat,
    p < 4 ∧ (s.port p).deadAt = some i ∧ s.helloing p = true ∧ (s.port p).deadVoid = false ∧ s.helloNext p = false :=
  ⟨((((((State.reset.setPort 3 { deadAt := some 7 }).wr (portUnit 3).STATE stRun).wr UnitId.fab.STATE stRun).raise (R.FAB_P_STAT.LINK 3)).wr (fADJ 3) adjHello).setPort 3 { deadAt := some 7 }),
   3, 7, by decide +kernel, by decide +kernel, by decide +kernel, by decide +kernel, by decide +kernel⟩

theorem test_witness_adjacency_and_node_number_4_0 : ∃ s : State, ∃ p,
    p < 4 ∧ (s.helloing p = false ∨ (s.port p).deadAt = none) :=
  ⟨State.reset, 3, by decide +kernel, by decide +kernel⟩

theorem test_witness_adjacency_and_node_number_5_0 : ∃ s : State,
    s.running .fab = true ∧ s.rd R.FAB_NODE.NSTATE = nsClaiming ∧ s.fab.tentativeAt = none ∧ s.fab.exchanged = true :=
  ⟨((({ State.reset with fab.exchanged := true } : State).wr UnitId.fab.STATE stRun).wr R.FAB_NODE.NSTATE nsClaiming),
   by decide +kernel, by decide +kernel, by decide +kernel, by decide +kernel⟩

theorem test_witness_adjacency_and_node_number_5_1 : ∃ s : State,
    s.running .fab = true ∧ s.rd R.FAB_NODE.NSTATE = nsClaiming ∧ s.fab.tentativeAt = none ∧ s.fab.exchanged = false ∧
    s.upPorts = [] :=
  ⟨((({ State.reset with fab.exchanged := false } : State).wr UnitId.fab.STATE stRun).wr R.FAB_NODE.NSTATE nsClaiming),
   by decide +kernel, by decide +kernel, by decide +kernel, by decide +kernel, by decide +kernel⟩

theorem test_witness_adjacency_and_node_number_5_2 : ∃ s : State,
    s.running .fab = true ∧ s.rd R.FAB_NODE.NSTATE = nsClaiming ∧ s.fab.tentativeAt = none ∧ s.fab.exchanged = false ∧
    s.upPorts ≠ [] :=
  ⟨(((((({ State.reset with fab.exchanged := false } : State).wr UnitId.fab.STATE stRun).wr R.FAB_NODE.NSTATE nsClaiming).wr (portUnit 3).STATE stRun).raise (R.FAB_P_STAT.LINK 3)).wr (fADJ 3) adjUp),
   by decide +kernel, by decide +kernel, by decide +kernel, by decide +kernel, by decide +kernel⟩

theorem test_witness_adjacency_and_node_number_6_0 : ∃ s : State,
    (s.running .fab = false ∨ s.rd R.FAB_NODE.NSTATE ≠ nsClaiming ∨ s.fab.tentativeAt ≠ none) :=
  ⟨State.reset, by decide +kernel⟩

theorem test_witness_adjacency_and_node_number_7_0 : ∃ s : State, ∃ i : Nat,
    s.fab.tentativeAt = some i ∧ s.running .fab = true :=
  ⟨(({ State.reset with fab.tentativeAt := some 0 } : State).wr UnitId.fab.STATE stRun), 0, by decide +kernel, by decide +kernel⟩

theorem test_witness_adjacency_and_node_number_8_0 : ∃ s : State,
    (s.fab.tentativeAt = none ∨ s.running .fab = false) :=
  ⟨State.reset, by decide +kernel⟩

theorem test_witness_adjacency_and_node_number_9_0 : ∃ s : State,
    s.running .fab = true ∧ s.rd R.FAB_NODE.NSTATE = nsNonode :=
  ⟨((State.reset.wr UnitId.fab.STATE stRun).wr R.FAB_NODE.NSTATE nsNonode), by decide +kernel, by decide +kernel⟩

theorem test_witness_adjacency_and_node_number_10_0 : ∃ s : State,
    (s.running .fab = false ∨ s.rd R.FAB_NODE.NSTATE ≠ nsNonode) :=
  ⟨State.reset, by decide +kernel⟩

/-! Witnesses of link_state_routing. -/

theorem test_witness_link_state_routing_0_0 : ∃ s : State, ∃ p : Nat, ∃ l : Lsa, ∃ x : List (Nat × Nat),
    p < 4 ∧ s.helloing p = false :=
  ⟨State.reset, 3, ({ node := 4094, state := 3, mac := 1, seq := 1 } : Lsa), [], by decide +kernel, by decide +kernel⟩

theorem test_witness_link_state_routing_1_0 : ∃ s : State, ∃ p : Nat, ∃ l : Lsa,
    p < 4 ∧ s.running .fab = false :=
  ⟨State.reset, 3, ({ node := 4094, state := 3, mac := 1, seq := 1 } : Lsa), by decide +kernel, by decide +kernel⟩

theorem test_witness_link_state_routing_2_0 : ∃ s : State, ∃ p : Nat, ∃ l : Lsa,
    p < 4 ∧ s.helloing p = true ∧ s.running .fab = true ∧ 1 ≤ l.node ∧ l.node ≤ 4094 ∧ 1 ≤ l.state ∧ l.state ≤ 3 ∧
    l.alias_ = true :=
  ⟨((((State.reset.wr (portUnit 3).STATE stRun).wr UnitId.fab.STATE stRun).raise (R.FAB_P_STAT.LINK 3)).wr (fADJ 3) adjHello),
   3, ({ node := 4094, state := 3, mac := 1, seq := 1, alias_ := true } : Lsa), by decide +kernel, by decide +kernel,
   by decide +kernel, by decide +kernel, by decide +kernel, by decide +kernel, by decide +kernel, by decide +kernel⟩

theorem test_witness_link_state_routing_2_1 : ∃ s : State, ∃ p : Nat, ∃ l : Lsa,
    p < 4 ∧ s.helloing p = true ∧ s.running .fab = true ∧ 1 ≤ l.node ∧ l.node ≤ 4094 ∧ 1 ≤ l.state ∧ l.state ≤ 3 ∧
    l.alias_ = false ∧ l.node = s.myNode ∧ l.mac ≠ s.ownMac ∧ l.state ≠ lsWithdrawn ∧ s.yieldsTo l = true :=
  ⟨(withMac ((((((State.reset.wr (portUnit 3).STATE stRun).wr UnitId.fab.STATE stRun).raise (R.FAB_P_STAT.LINK 3)).wr (fADJ 3) adjHello).wr R.FAB_NODE.ACT 4094)) 0),
   3, ({ node := 4094, state := 2, mac := 1, seq := 7 } : Lsa), by decide +kernel, by decide +kernel, by decide +kernel,
   by decide +kernel, by decide +kernel, by decide +kernel, by decide +kernel, by decide +kernel, by decide +kernel,
   by decide +kernel, by decide +kernel, by decide +kernel⟩

theorem test_witness_link_state_routing_2_2 : ∃ s : State, ∃ p : Nat, ∃ l : Lsa,
    p < 4 ∧ s.helloing p = true ∧ s.running .fab = true ∧ 1 ≤ l.node ∧ l.node ≤ 4094 ∧ 1 ≤ l.state ∧ l.state ≤ 3 ∧
    l.alias_ = false ∧ l.node = s.myNode ∧ (l.mac = s.ownMac ∨ l.state = lsWithdrawn ∨ s.yieldsTo l = false) ∧
    seqNewer l.seq s.fab.ownSeq = true :=
  ⟨(withMac (({ ({ (((((State.reset.wr (portUnit 3).STATE stRun).wr UnitId.fab.STATE stRun).raise (R.FAB_P_STAT.LINK 3)).wr (fADJ 3) adjHello).wr R.FAB_NODE.ACT 4094) with fab.ownSeq := 5 } : State) with fab.ownFlooded := true } : State)) 0),
   3, ({ node := 4094, state := 3, mac := 1, seq := 7 } : Lsa), by decide +kernel, by decide +kernel, by decide +kernel,
   by decide +kernel, by decide +kernel, by decide +kernel, by decide +kernel, by decide +kernel, by decide +kernel,
   by decide +kernel, by decide +kernel⟩

theorem test_witness_link_state_routing_2_3 : ∃ s : State, ∃ p : Nat, ∃ l : Lsa,
    p < 4 ∧ s.helloing p = true ∧ s.running .fab = true ∧ 1 ≤ l.node ∧ l.node ≤ 4094 ∧ 1 ≤ l.state ∧ l.state ≤ 3 ∧
    l.alias_ = false ∧ l.node = s.myNode ∧ (l.mac = s.ownMac ∨ l.state = lsWithdrawn ∨ s.yieldsTo l = false) ∧
    seqNewer l.seq s.fab.ownSeq = false ∧ l.seq = s.fab.ownSeq :=
  ⟨(withMac (({ ({ (((((State.reset.wr (portUnit 3).STATE stRun).wr UnitId.fab.STATE stRun).raise (R.FAB_P_STAT.LINK 3)).wr (fADJ 3) adjHello).wr R.FAB_NODE.ACT 4094) with fab.ownSeq := 5 } : State) with fab.ownFlooded := true } : State)) 0),
   3, ({ node := 4094, state := 3, mac := 1, seq := 5 } : Lsa), by decide +kernel, by decide +kernel, by decide +kernel,
   by decide +kernel, by decide +kernel, by decide +kernel, by decide +kernel, by decide +kernel, by decide +kernel,
   by decide +kernel, by decide +kernel, by decide +kernel⟩

theorem test_witness_link_state_routing_2_4 : ∃ s : State, ∃ p : Nat, ∃ l : Lsa,
    p < 4 ∧ s.helloing p = true ∧ s.running .fab = true ∧ 1 ≤ l.node ∧ l.node ≤ 4094 ∧ 1 ≤ l.state ∧ l.state ≤ 3 ∧
    l.alias_ = false ∧ l.node = s.myNode ∧ (l.mac = s.ownMac ∨ l.state = lsWithdrawn ∨ s.yieldsTo l = false) ∧
    seqNewer l.seq s.fab.ownSeq = false ∧ l.seq ≠ s.fab.ownSeq ∧ s.lsa l.node = none :=
  ⟨(withMac (({ ({ (((((State.reset.wr (portUnit 3).STATE stRun).wr UnitId.fab.STATE stRun).raise (R.FAB_P_STAT.LINK 3)).wr (fADJ 3) adjHello).wr R.FAB_NODE.ACT 4094) with fab.ownSeq := 5 } : State) with fab.ownFlooded := true } : State)) 0),
   3, ({ node := 4094, state := 3, mac := 1, seq := 4 } : Lsa), by decide +kernel, by decide +kernel, by decide +kernel,
   by decide +kernel, by decide +kernel, by decide +kernel, by decide +kernel, by decide +kernel, by decide +kernel,
   by decide +kernel, by decide +kernel, by decide +kernel, by decide +kernel⟩

theorem test_witness_link_state_routing_2_5 : ∃ s : State, ∃ p : Nat, ∃ l : Lsa, ∃ x : FabLsa,
    p < 4 ∧ s.helloing p = true ∧ s.running .fab = true ∧ 1 ≤ l.node ∧ l.node ≤ 4094 ∧ 1 ≤ l.state ∧ l.state ≤ 3 ∧
    l.alias_ = false ∧ l.node = s.myNode ∧ (l.mac = s.ownMac ∨ l.state = lsWithdrawn ∨ s.yieldsTo l = false) ∧
    seqNewer l.seq s.fab.ownSeq = false ∧ l.seq ≠ s.fab.ownSeq ∧ s.lsa l.node = some x :=
  ⟨(withMac ((({ ({ (((((State.reset.wr (portUnit 3).STATE stRun).wr UnitId.fab.STATE stRun).raise (R.FAB_P_STAT.LINK 3)).wr (fADJ 3) adjHello).wr R.FAB_NODE.ACT 4094) with fab.ownSeq := 5 } : State) with fab.ownFlooded := true } : State).setLsa 4094 (some ({ lsa := { node := 4094, state := 2, mac := 1, seq := 9 }, at_ := 0 } : FabLsa)))) 0),
   3, ({ node := 4094, state := 3, mac := 1, seq := 4 } : Lsa),
   ({ lsa := { node := 4094, state := 2, mac := 1, seq := 9 }, at_ := 0 } : FabLsa), by decide +kernel, by decide +kernel,
   by decide +kernel, by decide +kernel, by decide +kernel, by decide +kernel, by decide +kernel, by decide +kernel,
   by decide +kernel, by decide +kernel, by decide +kernel, by decide +kernel, by decide +kernel⟩

theorem test_witness_link_state_routing_4_0 : ∃ s : State, ∃ p : Nat, ∃ l : Lsa,
    p < 4 ∧ (l.node = 0 ∨ 4094 < l.node ∨ l.state = 0 ∨ 3 < l.state) :=
  ⟨State.reset, 3, ({ node := 0, state := 3, mac := 1, seq := 1 } : Lsa), by decide +kernel, by decide +kernel⟩

theorem test_witness_link_state_routing_5_0 : ∃ s : State, ∃ p : Nat, ∃ l : Lsa,
    p < 4 ∧ s.helloing p = true ∧ s.running .fab = true ∧ 1 ≤ l.node ∧ l.node ≤ 4094 ∧ 1 ≤ l.state ∧ l.state ≤ 3 ∧
    l.alias_ = false ∧ l.node ≠ s.myNode ∧ s.lsa l.node = none :=
  ⟨((((State.reset.wr (portUnit 3).STATE stRun).wr UnitId.fab.STATE stRun).raise (R.FAB_P_STAT.LINK 3)).wr (fADJ 3) adjHello),
   3, ({ node := 4094, state := 3, mac := 1, seq := 1, alias_ := false } : Lsa), by decide +kernel, by decide +kernel,
   by decide +kernel, by decide +kernel, by decide +kernel, by decide +kernel, by decide +kernel, by decide +kernel,
   by decide +kernel, by decide +kernel⟩

theorem test_witness_link_state_routing_5_1 : ∃ s : State, ∃ p : Nat, ∃ l : Lsa, ∃ x : FabLsa,
    p < 4 ∧ s.helloing p = true ∧ s.running .fab = true ∧ 1 ≤ l.node ∧ l.node ≤ 4094 ∧ 1 ≤ l.state ∧ l.state ≤ 3 ∧
    l.alias_ = false ∧ l.node ≠ s.myNode ∧ s.lsa l.node = some x ∧ l.seq = x.lsa.seq :=
  ⟨(((((State.reset.wr (portUnit 3).STATE stRun).wr UnitId.fab.STATE stRun).raise (R.FAB_P_STAT.LINK 3)).wr (fADJ 3) adjHello).setLsa 4094 (some ({ lsa := { node := 4094, state := 2, mac := 1, seq := 1 }, at_ := 0 } : FabLsa))),
   3, ({ node := 4094, state := 3, mac := 1, seq := 1 } : Lsa),
   ({ lsa := { node := 4094, state := 2, mac := 1, seq := 1 }, at_ := 0 } : FabLsa), by decide +kernel, by decide +kernel,
   by decide +kernel, by decide +kernel, by decide +kernel, by decide +kernel, by decide +kernel, by decide +kernel,
   by decide +kernel, by decide +kernel, by decide +kernel⟩

theorem test_witness_link_state_routing_5_2 : ∃ s : State, ∃ p : Nat, ∃ l : Lsa, ∃ x : FabLsa,
    p < 4 ∧ s.helloing p = true ∧ s.running .fab = true ∧ 1 ≤ l.node ∧ l.node ≤ 4094 ∧ 1 ≤ l.state ∧ l.state ≤ 3 ∧
    l.alias_ = false ∧ l.node ≠ s.myNode ∧ s.lsa l.node = some x ∧ l.seq ≠ x.lsa.seq ∧ seqNewer l.seq x.lsa.seq = true :=
  ⟨(((((State.reset.wr (portUnit 3).STATE stRun).wr UnitId.fab.STATE stRun).raise (R.FAB_P_STAT.LINK 3)).wr (fADJ 3) adjHello).setLsa 4094 (some ({ lsa := { node := 4094, state := 2, mac := 1, seq := 1 }, at_ := 0 } : FabLsa))),
   3, ({ node := 4094, state := 3, mac := 1, seq := 2 } : Lsa),
   ({ lsa := { node := 4094, state := 2, mac := 1, seq := 1 }, at_ := 0 } : FabLsa), by decide +kernel, by decide +kernel,
   by decide +kernel, by decide +kernel, by decide +kernel, by decide +kernel, by decide +kernel, by decide +kernel,
   by decide +kernel, by decide +kernel, by decide +kernel, by decide +kernel⟩

theorem test_witness_link_state_routing_5_3 : ∃ s : State, ∃ p : Nat, ∃ l : Lsa, ∃ x : FabLsa,
    p < 4 ∧ s.helloing p = true ∧ s.running .fab = true ∧ 1 ≤ l.node ∧ l.node ≤ 4094 ∧ 1 ≤ l.state ∧ l.state ≤ 3 ∧
    l.alias_ = false ∧ l.node ≠ s.myNode ∧ s.lsa l.node = some x ∧ l.seq ≠ x.lsa.seq ∧ seqNewer l.seq x.lsa.seq = false :=
  ⟨(((((State.reset.wr (portUnit 3).STATE stRun).wr UnitId.fab.STATE stRun).raise (R.FAB_P_STAT.LINK 3)).wr (fADJ 3) adjHello).setLsa 4094 (some ({ lsa := { node := 4094, state := 2, mac := 1, seq := 1 }, at_ := 0 } : FabLsa))),
   3, ({ node := 4094, state := 3, mac := 1, seq := 0 } : Lsa),
   ({ lsa := { node := 4094, state := 2, mac := 1, seq := 1 }, at_ := 0 } : FabLsa), by decide +kernel, by decide +kernel,
   by decide +kernel, by decide +kernel, by decide +kernel, by decide +kernel, by decide +kernel, by decide +kernel,
   by decide +kernel, by decide +kernel, by decide +kernel, by decide +kernel⟩

theorem test_witness_link_state_routing_6_0 : ∃ s : State, ∃ p : Nat, ∃ l : List (Nat × Nat),
    p < 4 ∧ s.helloing p = true ∧ ((s.port p).unacked.filter (fun x => !l.contains (x.node, x.seq)) : List Lsa) = [] ∧
    (s.setPort p { s.port p with unacked := ((s.port p).unacked.filter (fun x => !l.contains (x.node, x.seq)) : List Lsa) } : State).rd (fADJ p) = adjUp :=
  ⟨(((((State.reset.wr (portUnit 3).STATE stRun).wr UnitId.fab.STATE stRun).raise (R.FAB_P_STAT.LINK 3)).wr (fADJ 3) adjHello).wr (fADJ 3) adjUp),
   3, [], by decide +kernel, by decide +kernel, by decide +kernel, by decide +kernel⟩

theorem test_witness_link_state_routing_6_1 : ∃ s : State, ∃ p : Nat, ∃ l : List (Nat × Nat),
    p < 4 ∧ s.helloing p = true ∧
    (((s.port p).unacked.filter (fun x => !l.contains (x.node, x.seq)) : List Lsa) ≠ [] ∨ (s.setPort p { s.port p with unacked := ((s.port p).unacked.filter (fun x => !l.contains (x.node, x.seq)) : List Lsa) } : State).rd (fADJ p) ≠ adjUp) :=
  ⟨((((State.reset.wr (portUnit 3).STATE stRun).wr UnitId.fab.STATE stRun).raise (R.FAB_P_STAT.LINK 3)).wr (fADJ 3) adjHello),
   3, [], by decide +kernel, by decide +kernel, by decide +kernel⟩

theorem test_witness_link_state_routing_7_0 : ∃ s : State, ∃ p : Nat,
    p < 4 ∧ s.portLive p = true ∧ s.rd (fADJ p) = adjUp ∧ (s.port p).unacked ≠ [] :=
  ⟨(((((State.reset.wr (portUnit 3).STATE stRun).wr UnitId.fab.STATE stRun).raise (R.FAB_P_STAT.LINK 3)).wr (fADJ 3) adjUp).setPort 3 { unacked := [({ node := 1, state := 2, mac := 1, seq := 1 } : Lsa)] }),
   3, by decide +kernel, by decide +kernel, by decide +kernel, by decide +kernel⟩

theorem test_witness_link_state_routing_8_0 : ∃ s : State, ∃ p,
    p < 4 ∧ (s.portLive p = false ∨ (s.port p).unacked = [] ∨ s.rd (fADJ p) ≠ adjUp) :=
  ⟨(State.reset.setLsa 4095 (some { lsa := { node := 4095, state := 2, mac := 1, seq := 1 }, at_ := 0 })), 3,
   by decide +kernel, by decide +kernel⟩

theorem test_witness_link_state_routing_9_0 : ∃ s : State,
    s.running .fab = true ∧ s.rd R.FAB_NODE.NSTATE = nsAssigned :=
  ⟨((State.reset.wr UnitId.fab.STATE stRun).wr R.FAB_NODE.NSTATE nsAssigned), by decide +kernel, by decide +kernel⟩

theorem test_witness_link_state_routing_10_0 : ∃ s : State,
    (s.running .fab = false ∨ s.rd R.FAB_NODE.NSTATE ≠ nsAssigned) :=
  ⟨State.reset, by decide +kernel⟩

theorem test_witness_link_state_routing_11_0 : ∃ s : State, ∃ n : Nat, ∃ x : FabLsa,
    n < 4096 ∧ s.lsa n = some x ∧ n ≠ s.myNode :=
  ⟨(State.reset.setLsa 4095 (some ({ lsa := { node := 4095, state := 2, mac := 1, seq := 1 }, at_ := 0 } : FabLsa))), 4095,
   ({ lsa := { node := 4095, state := 2, mac := 1, seq := 1 }, at_ := 0 } : FabLsa), by decide +kernel, by decide +kernel,
   by decide +kernel⟩

theorem test_witness_link_state_routing_12_0 : ∃ s : State, ∃ n,
    n < 4096 ∧ (s.lsa n = none ∨ n = s.myNode) :=
  ⟨({ State.reset with fab.computing := some [] } : State), 4095, by decide +kernel, by decide +kernel⟩

theorem test_witness_link_state_routing_13_0 : ∃ s : State, ∃ i : Nat,
    s.fab.dirtyAt = some i ∧ s.fab.computing = none ∧ s.running .fab = true ∧
    ({ s.advance (i + 500 * us) with fab := { (s.advance (i + 500 * us)).fab with dirtyAt := none } } : State).assist .fab = false :=
  ⟨(({ State.reset with fab.dirtyAt := some 0 } : State).wr UnitId.fab.STATE stRun), 0, by decide +kernel, by decide +kernel,
   by decide +kernel, by decide +kernel⟩

theorem test_witness_link_state_routing_13_1 : ∃ s : State, ∃ i : Nat,
    s.fab.dirtyAt = some i ∧ s.fab.computing = none ∧ s.running .fab = true ∧
    ({ s.advance (i + 500 * us) with fab := { (s.advance (i + 500 * us)).fab with dirtyAt := none } } : State).assist .fab = true :=
  ⟨((({ State.reset with fab.dirtyAt := some 0 } : State).wr UnitId.fab.STATE stRun).raise UnitId.fab.MODE_ACT), 0,
   by decide +kernel, by decide +kernel, by decide +kernel, by decide +kernel⟩

theorem test_witness_link_state_routing_14_0 : ∃ s : State,
    (s.fab.dirtyAt = none ∨ s.fab.computing ≠ none ∨ s.running .fab = false) :=
  ⟨State.reset, by decide +kernel⟩

theorem test_witness_link_state_routing_15_0 : ∃ s : State, ∃ r : SMap (BitVec 32),
    s.fab.computing = some r :=
  ⟨({ ({ State.reset with fab.computing := some ([] : SMap (BitVec 32)) } : State) with fab.computing := some [] } : State),
   ([] : SMap (BitVec 32)), by decide +kernel⟩

theorem test_witness_link_state_routing_16_0 : ∃ s : State,
    s.fab.computing = none :=
  ⟨State.reset, by decide +kernel⟩

/-! Witnesses of quench_and_preemption. -/

theorem test_witness_quench_and_preemption_0_0 : ∃ s : State, ∃ p : Nat, ∃ f : Leat,
    p < 5 ∧ s.canSend = false :=
  ⟨State.reset, 4, ({ lane := 0, dst := 1, src := 2, typ := 4, len := 0, payload := [] } : Leat), by decide +kernel,
   by decide +kernel⟩

theorem test_witness_quench_and_preemption_1_0 : ∃ s : State, ∃ f : Leat,
    s.canSend = true ∧ f.auth = true :=
  ⟨((State.reset.wr UnitId.fab.STATE stRun).wr R.FAB_NODE.ACT 1),
   ({ lane := 0, dst := 1, src := 2, typ := 4, len := 0, payload := [], auth := true } : Leat), by decide +kernel,
   by decide +kernel⟩

theorem test_witness_quench_and_preemption_1_1 : ∃ s : State, ∃ f : Leat,
    s.canSend = true ∧ f.auth = false :=
  ⟨((State.reset.wr UnitId.fab.STATE stRun).wr R.FAB_NODE.ACT 1),
   ({ lane := 0, dst := 1, src := 2, typ := 4, len := 0, payload := [], auth := false } : Leat), by decide +kernel,
   by decide +kernel⟩

theorem test_witness_quench_and_preemption_2_0 : ∃ s : State, ∃ p : Nat, ∃ f : Leat,
    p < 4 ∧ s.canSend = true ∧ s.takesFrames p = true :=
  ⟨((((State.reset.wr UnitId.fab.STATE stRun).wr R.FAB_NODE.ACT 1).wr (portUnit 3).STATE stRun).raise (R.FAB_P_STAT.LINK 3)),
   3, ({ lane := 0, dst := 1, src := 2, typ := 4, len := 0, payload := [] } : Leat), by decide +kernel, by decide +kernel,
   by decide +kernel⟩

theorem test_witness_quench_and_preemption_2_1 : ∃ s : State, ∃ p : Nat, ∃ f : Leat,
    p < 4 ∧ s.canSend = true ∧ s.takesFrames p = false :=
  ⟨((State.reset.wr UnitId.fab.STATE stRun).wr R.FAB_NODE.ACT 1), 3,
   ({ lane := 0, dst := 1, src := 2, typ := 4, len := 0, payload := [] } : Leat), by decide +kernel, by decide +kernel,
   by decide +kernel⟩

theorem test_witness_quench_and_preemption_3_0 : ∃ s : State, ∃ p : Nat, ∃ g : Leat, ∃ r : Nat,
    g.typ = tyQuench ∧ s.ruleHit p g = some r :=
  ⟨({ State.reset with fab.rules := [(31, { valid := true, payload := [2, 0, 0, 0, 1] ++ zeros 31 })] } : State), 0,
   ({ lane := 0, dst := 1, src := 2, typ := tyQuench, auth := false, len := 20, payload := zeros 20 } : Leat), 31,
   by decide +kernel, by decide +kernel⟩

theorem test_witness_quench_and_preemption_3_1 : ∃ s : State, ∃ p : Nat, ∃ g : Leat,
    g.typ = tyQuench ∧ s.ruleHit p g = none ∧ s.ctlPolice p p g = none :=
  ⟨(State.reset.setPort 3 { ctlUsed := 12288 * 800000000000 }), 3,
   ({ lane := 0, dst := 1, src := 2, typ := tyQuench, auth := false, len := 20, payload := zeros 20 } : Leat),
   by decide +kernel, by decide +kernel, by decide +kernel⟩

theorem test_witness_quench_and_preemption_3_2 : ∃ s : State, ∃ p : Nat, ∃ g : Leat, ∃ u : State,
    g.typ = tyQuench ∧ s.ruleHit p g = none ∧ s.ctlPolice p p g = some u ∧ g.auth = false :=
  ⟨State.reset, 3, ({ lane := 0, dst := 1, src := 2, typ := tyQuench, auth := false, len := 20, payload := zeros 20 } : Leat),
   _, by decide +kernel, by decide +kernel, some_is State.reset (by decide +kernel), by decide +kernel⟩

theorem test_witness_quench_and_preemption_3_3 : ∃ s : State, ∃ p : Nat, ∃ g : Leat, ∃ u : State,
    g.typ = tyQuench ∧ s.ruleHit p g = none ∧ s.ctlPolice p p g = some u ∧ g.auth = true ∧ headerOk g = true :=
  ⟨State.reset, 3,
   ({ lane := 0, cp := true, dst := 1, src := 2, typ := tyQuench, auth := true, session := 1, len := 36, payload := zeros 36 } : Leat),
   _, by decide +kernel, by decide +kernel, some_is State.reset (by decide +kernel), by decide +kernel, by decide +kernel⟩

theorem test_witness_quench_and_preemption_3_4 : ∃ s : State, ∃ p : Nat, ∃ g : Leat, ∃ u : State,
    g.typ = tyQuench ∧ s.ruleHit p g = none ∧ s.ctlPolice p p g = some u ∧ g.auth = true ∧ headerOk g = false :=
  ⟨State.reset, 3, ({ lane := 0, dst := 1, src := 2, typ := tyQuench, auth := true, len := 37, payload := zeros 36 } : Leat),
   _, by decide +kernel, by decide +kernel, some_is State.reset (by decide +kernel), by decide +kernel, by decide +kernel⟩

theorem test_witness_quench_and_preemption_4_0 : ∃ s : State,
    s.fab.resend = [] :=
  ⟨({ ({ State.reset with fab.resend := [] } : State) with fab.rules := [(127, { valid := true, payload := [2, 0, 0, 0, 1] ++ zeros 31 })] } : State),
   by decide +kernel⟩

theorem test_witness_quench_and_preemption_5_0 : ∃ s : State, ∃ x : FabResend, ∃ rest : List FabResend,
    s.fab.resend = x :: rest :=
  ⟨({ ({ State.reset with fab.resend := ({ frame := { lane := 0, dst := 1, src := 2, typ := 5, len := 0, payload := [] }, left := 1, at_ := 0 } : FabResend) :: [] } : State) with fab.resend := [({ frame := { lane := 0, dst := 1, src := 2, typ := 5, len := 0, payload := [] }, left := 1, at_ := 0 } : FabResend)] } : State),
   ({ frame := { lane := 0, dst := 1, src := 2, typ := 5, len := 0, payload := [] }, left := 1, at_ := 0 } : FabResend), [],
   by decide +kernel⟩

theorem test_witness_quench_and_preemption_6_0 : ∃ s : State, ∃ k : Nat,
    k < 160 ∧ (s.rule (k / 32) (k % 32)).valid = true :=
  ⟨({ State.reset with fab.rules := [(127, { valid := true })] } : State), 127, by decide +kernel, by decide +kernel⟩

theorem test_witness_quench_and_preemption_7_0 : ∃ s : State, ∃ k,
    k < 160 ∧ (s.rule (k / 32) (k % 32)).valid = false :=
  ⟨State.reset, 159, by decide +kernel, by decide +kernel⟩

theorem test_witness_quench_and_preemption_8_0 : ∃ s : State, ∃ p,
    p < 4 ∧ s.portLive p = true ∧ s.on (R.FAB_P_CTRL.PREEMPT_EN p) = true ∧ (s.port p).peerKnown = true ∧
    (s.port p).peerCaps % 2 = 1 ∧ s.udp p = false :=
  ⟨((((((State.reset.setPort 3 { peerKnown := true }).wr (portUnit 3).STATE stRun).wr UnitId.fab.STATE stRun).raise (R.FAB_P_STAT.LINK 3)).raise (R.FAB_P_CTRL.PREEMPT_EN 3)).setPort 3 { peerKnown := true, peerCaps := 1 }),
   3, by decide +kernel, by decide +kernel, by decide +kernel, by decide +kernel, by decide +kernel, by decide +kernel⟩

theorem test_witness_quench_and_preemption_8_1 : ∃ s : State, ∃ p,
    p < 4 ∧ s.portLive p = true ∧ s.on (R.FAB_P_CTRL.PREEMPT_EN p) = true ∧ (s.port p).peerKnown = true ∧
    (s.port p).peerCaps % 2 = 1 ∧ s.udp p = false :=
  ⟨((((((State.reset.setPort 3 { peerKnown := true }).wr (portUnit 3).STATE stRun).wr UnitId.fab.STATE stRun).raise (R.FAB_P_STAT.LINK 3)).raise (R.FAB_P_CTRL.PREEMPT_EN 3)).setPort 3 { peerKnown := true, peerCaps := 1 }),
   3, by decide +kernel, by decide +kernel, by decide +kernel, by decide +kernel, by decide +kernel, by decide +kernel⟩

theorem test_witness_quench_and_preemption_8_2 : ∃ s : State, ∃ p, ∃ a,
    p < 4 ∧ s.portLive p = true ∧ s.on (R.FAB_P_CTRL.PREEMPT_EN p) = true ∧ (s.port p).peerKnown = true ∧
    (s.port p).peerCaps % 2 = 1 ∧ s.udp p = false ∧ a ≠ (R.FAB_P_STAT.PREEMPT_ACT p).addr :=
  ⟨((((((State.reset.setPort 3 { peerKnown := true }).wr (portUnit 3).STATE stRun).wr UnitId.fab.STATE stRun).raise (R.FAB_P_STAT.LINK 3)).raise (R.FAB_P_CTRL.PREEMPT_EN 3)).setPort 3 { peerKnown := true, peerCaps := 1 }),
   3, 0, by decide +kernel, by decide +kernel, by decide +kernel, by decide +kernel, by decide +kernel, by decide +kernel,
   by decide +kernel⟩

theorem test_witness_quench_and_preemption_9_0 : ∃ s : State, ∃ p,
    p < 4 ∧
    (s.portLive p = false ∨ s.on (R.FAB_P_CTRL.PREEMPT_EN p) = false ∨ s.udp p = true ∨ (s.port p).peerKnown = false ∨ (s.port p).peerCaps % 2 = 0) :=
  ⟨(State.reset.setPort 3 { peerKnown := true, peerCaps := 1 }), 3, by decide +kernel, by decide +kernel⟩

theorem test_witness_quench_and_preemption_10_0 : ∃ s : State, ∃ n : Nat,
    (n < 28 ∨ 1188 < n ∨ (((s.wr R.FAB_MBX_TX.LEN n : State).stamped ((s.wr R.FAB_MBX_TX.LEN n : State).mbxFrame n) : Leat).typ ≠ tyQuench ∧ ((s.wr R.FAB_MBX_TX.LEN n : State).stamped ((s.wr R.FAB_MBX_TX.LEN n : State).mbxFrame n) : Leat).typ ≠ tyMbx)) :=
  ⟨State.reset, 27, by decide +kernel⟩

theorem test_witness_quench_and_preemption_10_1 : ∃ s : State, ∃ n : Nat, ∃ a,
    (n < 28 ∨ 1188 < n ∨ (((s.wr R.FAB_MBX_TX.LEN n : State).stamped ((s.wr R.FAB_MBX_TX.LEN n : State).mbxFrame n) : Leat).typ ≠ tyQuench ∧ ((s.wr R.FAB_MBX_TX.LEN n : State).stamped ((s.wr R.FAB_MBX_TX.LEN n : State).mbxFrame n) : Leat).typ ≠ tyMbx)) ∧
    a ≠ R.FAB_MBX_TX.addr :=
  ⟨State.reset, 27, 0, by decide +kernel, by decide +kernel⟩

theorem test_witness_quench_and_preemption_11_0 : ∃ s : State, ∃ n : Nat,
    28 ≤ n ∧ n ≤ 1188 ∧
    (((s.wr R.FAB_MBX_TX.LEN n : State).stamped ((s.wr R.FAB_MBX_TX.LEN n : State).mbxFrame n) : Leat).typ = tyQuench ∨ ((s.wr R.FAB_MBX_TX.LEN n : State).stamped ((s.wr R.FAB_MBX_TX.LEN n : State).mbxFrame n) : Leat).typ = tyMbx) ∧
    (s.wr R.FAB_MBX_TX.LEN n : State).canSend = false :=
  ⟨(({ ({ State.reset with fab.mailbox := [(0, 0x00010041#32), (1, 0x00F0000#32), (2, 0#32), (4, 0#32)] } : State) with fab.routes := [(1, 0#32)] } : State).wr R.FAB_NODE.ACT 0),
   1188, by decide +kernel, by decide +kernel, by decide +kernel, by decide +kernel⟩

theorem test_witness_quench_and_preemption_11_1 : ∃ s : State, ∃ n : Nat,
    28 ≤ n ∧ n ≤ 1188 ∧
    (((s.wr R.FAB_MBX_TX.LEN n : State).stamped ((s.wr R.FAB_MBX_TX.LEN n : State).mbxFrame n) : Leat).typ = tyQuench ∨ ((s.wr R.FAB_MBX_TX.LEN n : State).stamped ((s.wr R.FAB_MBX_TX.LEN n : State).mbxFrame n) : Leat).typ = tyMbx) ∧
    (s.wr R.FAB_MBX_TX.LEN n : State).canSend = true ∧
    ((s.wr R.FAB_MBX_TX.LEN n : State).stamped ((s.wr R.FAB_MBX_TX.LEN n : State).mbxFrame n) : Leat).typ = tyMbx ∧
    ((s.wr R.FAB_MBX_TX.LEN n : State).stamped ((s.wr R.FAB_MBX_TX.LEN n : State).mbxFrame n) : Leat).dst ≠ 0 ∧
    (((s.wr R.FAB_MBX_TX.LEN n : State).stamped ((s.wr R.FAB_MBX_TX.LEN n : State).mbxFrame n) : Leat).dst = 4095 ∨ (s.wr R.FAB_MBX_TX.LEN n : State).routePort ((s.wr R.FAB_MBX_TX.LEN n : State).stamped ((s.wr R.FAB_MBX_TX.LEN n : State).mbxFrame n) : Leat).dst ≠ portNone) :=
  ⟨(({ ({ ((State.reset.wr UnitId.fab.STATE stRun).wr R.FAB_NODE.ACT 1) with fab.mailbox := [(0, 0x00010071#32), (1, 0x00F0000#32), (2, 0#32), (4, 0#32)] } : State) with fab.routes := [(1, 0#32)] } : State).wr R.FAB_NODE.ACT 4094),
   1188, by decide +kernel, by decide +kernel, by decide +kernel, by decide +kernel, by decide +kernel, by decide +kernel,
   by decide +kernel⟩

theorem test_witness_quench_and_preemption_11_2 : ∃ s : State, ∃ n : Nat,
    28 ≤ n ∧ n ≤ 1188 ∧
    (((s.wr R.FAB_MBX_TX.LEN n : State).stamped ((s.wr R.FAB_MBX_TX.LEN n : State).mbxFrame n) : Leat).typ = tyQuench ∨ ((s.wr R.FAB_MBX_TX.LEN n : State).stamped ((s.wr R.FAB_MBX_TX.LEN n : State).mbxFrame n) : Leat).typ = tyMbx) ∧
    (s.wr R.FAB_MBX_TX.LEN n : State).canSend = true ∧
    ((s.wr R.FAB_MBX_TX.LEN n : State).stamped ((s.wr R.FAB_MBX_TX.LEN n : State).mbxFrame n) : Leat).typ = tyMbx ∧
    (((s.wr R.FAB_MBX_TX.LEN n : State).stamped ((s.wr R.FAB_MBX_TX.LEN n : State).mbxFrame n) : Leat).dst = 0 ∨ (((s.wr R.FAB_MBX_TX.LEN n : State).stamped ((s.wr R.FAB_MBX_TX.LEN n : State).mbxFrame n) : Leat).dst ≠ 4095 ∧ (s.wr R.FAB_MBX_TX.LEN n : State).routePort ((s.wr R.FAB_MBX_TX.LEN n : State).stamped ((s.wr R.FAB_MBX_TX.LEN n : State).mbxFrame n) : Leat).dst = portNone)) :=
  ⟨(({ ({ ((State.reset.wr UnitId.fab.STATE stRun).wr R.FAB_NODE.ACT 1) with fab.mailbox := [(0, 0x00020071#32), (1, 0x00F0000#32), (2, 0#32), (4, 0#32)] } : State) with fab.routes := [(1, 0#32)] } : State).wr R.FAB_NODE.ACT 4094),
   1188, by decide +kernel, by decide +kernel, by decide +kernel, by decide +kernel, by decide +kernel, by decide +kernel⟩

theorem test_witness_quench_and_preemption_11_3 : ∃ s : State, ∃ n : Nat,
    28 ≤ n ∧ n ≤ 1188 ∧
    (((s.wr R.FAB_MBX_TX.LEN n : State).stamped ((s.wr R.FAB_MBX_TX.LEN n : State).mbxFrame n) : Leat).typ = tyQuench ∨ ((s.wr R.FAB_MBX_TX.LEN n : State).stamped ((s.wr R.FAB_MBX_TX.LEN n : State).mbxFrame n) : Leat).typ = tyMbx) ∧
    (s.wr R.FAB_MBX_TX.LEN n : State).canSend = true ∧
    ((s.wr R.FAB_MBX_TX.LEN n : State).stamped ((s.wr R.FAB_MBX_TX.LEN n : State).mbxFrame n) : Leat).typ = tyQuench ∧
    (if ((s.wr R.FAB_MBX_TX.LEN n : State).stamped ((s.wr R.FAB_MBX_TX.LEN n : State).mbxFrame n) : Leat).auth = true then headerOk ((s.wr R.FAB_MBX_TX.LEN n : State).stamped ((s.wr R.FAB_MBX_TX.LEN n : State).mbxFrame n) : Leat) else quenchOk ((s.wr R.FAB_MBX_TX.LEN n : State).stamped ((s.wr R.FAB_MBX_TX.LEN n : State).mbxFrame n) : Leat)) = false :=
  ⟨(({ ({ ((State.reset.wr UnitId.fab.STATE stRun).wr R.FAB_NODE.ACT 1) with fab.mailbox := [(0, 0x00010041#32), (1, 0x0050000#32), (2, 0#32), (4, 0#32)] } : State) with fab.routes := [(1, 0#32)] } : State).wr R.FAB_NODE.ACT 4094),
   28, by decide +kernel, by decide +kernel, by decide +kernel, by decide +kernel, by decide +kernel, by decide +kernel⟩

theorem test_witness_quench_and_preemption_11_4 : ∃ s : State, ∃ n : Nat,
    28 ≤ n ∧ n ≤ 1188 ∧
    (((s.wr R.FAB_MBX_TX.LEN n : State).stamped ((s.wr R.FAB_MBX_TX.LEN n : State).mbxFrame n) : Leat).typ = tyQuench ∨ ((s.wr R.FAB_MBX_TX.LEN n : State).stamped ((s.wr R.FAB_MBX_TX.LEN n : State).mbxFrame n) : Leat).typ = tyMbx) ∧
    (s.wr R.FAB_MBX_TX.LEN n : State).canSend = true ∧
    ((s.wr R.FAB_MBX_TX.LEN n : State).stamped ((s.wr R.FAB_MBX_TX.LEN n : State).mbxFrame n) : Leat).typ = tyQuench ∧
    ((s.wr R.FAB_MBX_TX.LEN n : State).stamped ((s.wr R.FAB_MBX_TX.LEN n : State).mbxFrame n) : Leat).auth = true ∧
    headerOk ((s.wr R.FAB_MBX_TX.LEN n : State).stamped ((s.wr R.FAB_MBX_TX.LEN n : State).mbxFrame n) : Leat) = true :=
  ⟨(({ ({ ((State.reset.wr UnitId.fab.STATE stRun).wr R.FAB_NODE.ACT 1) with fab.mailbox := [(0, 0x00010041#32), (1, 0x01050000#32), (2, 1#32), (4, 20#32)] } : State) with fab.routes := [(1, 0#32)] } : State).wr R.FAB_NODE.ACT 4094),
   48, by decide +kernel, by decide +kernel, by decide +kernel, by decide +kernel, by decide +kernel, by decide +kernel,
   by decide +kernel⟩

theorem test_witness_quench_and_preemption_11_5 : ∃ s : State, ∃ n : Nat,
    28 ≤ n ∧ n ≤ 1188 ∧
    (((s.wr R.FAB_MBX_TX.LEN n : State).stamped ((s.wr R.FAB_MBX_TX.LEN n : State).mbxFrame n) : Leat).typ = tyQuench ∨ ((s.wr R.FAB_MBX_TX.LEN n : State).stamped ((s.wr R.FAB_MBX_TX.LEN n : State).mbxFrame n) : Leat).typ = tyMbx) ∧
    (s.wr R.FAB_MBX_TX.LEN n : State).canSend = true ∧
    ((s.wr R.FAB_MBX_TX.LEN n : State).stamped ((s.wr R.FAB_MBX_TX.LEN n : State).mbxFrame n) : Leat).typ = tyQuench ∧
    ((s.wr R.FAB_MBX_TX.LEN n : State).stamped ((s.wr R.FAB_MBX_TX.LEN n : State).mbxFrame n) : Leat).auth = false ∧
    quenchOk ((s.wr R.FAB_MBX_TX.LEN n : State).stamped ((s.wr R.FAB_MBX_TX.LEN n : State).mbxFrame n) : Leat) = true ∧
    (((s.wr R.FAB_MBX_TX.LEN n : State).stamped ((s.wr R.FAB_MBX_TX.LEN n : State).mbxFrame n) : Leat).dst = 0 ∨ ((s.wr R.FAB_MBX_TX.LEN n : State).stamped ((s.wr R.FAB_MBX_TX.LEN n : State).mbxFrame n) : Leat).dst = 4095 ∨ (s.wr R.FAB_MBX_TX.LEN n : State).routePort ((s.wr R.FAB_MBX_TX.LEN n : State).stamped ((s.wr R.FAB_MBX_TX.LEN n : State).mbxFrame n) : Leat).dst = portNone) :=
  ⟨(({ ({ ((State.reset.wr UnitId.fab.STATE stRun).wr R.FAB_NODE.ACT 1) with fab.mailbox := [(0, 0x00020041#32), (1, 0x0050000#32), (2, 0#32), (4, 20#32)] } : State) with fab.routes := [(1, 0#32)] } : State).wr R.FAB_NODE.ACT 4094),
   48, by decide +kernel, by decide +kernel, by decide +kernel, by decide +kernel, by decide +kernel, by decide +kernel,
   by decide +kernel, by decide +kernel⟩

theorem test_witness_quench_and_preemption_11_6 : ∃ s : State, ∃ n : Nat,
    28 ≤ n ∧ n ≤ 1188 ∧
    (((s.wr R.FAB_MBX_TX.LEN n : State).stamped ((s.wr R.FAB_MBX_TX.LEN n : State).mbxFrame n) : Leat).typ = tyQuench ∨ ((s.wr R.FAB_MBX_TX.LEN n : State).stamped ((s.wr R.FAB_MBX_TX.LEN n : State).mbxFrame n) : Leat).typ = tyMbx) ∧
    (s.wr R.FAB_MBX_TX.LEN n : State).canSend = true ∧
    ((s.wr R.FAB_MBX_TX.LEN n : State).stamped ((s.wr R.FAB_MBX_TX.LEN n : State).mbxFrame n) : Leat).typ = tyQuench ∧
    ((s.wr R.FAB_MBX_TX.LEN n : State).stamped ((s.wr R.FAB_MBX_TX.LEN n : State).mbxFrame n) : Leat).auth = false ∧
    quenchOk ((s.wr R.FAB_MBX_TX.LEN n : State).stamped ((s.wr R.FAB_MBX_TX.LEN n : State).mbxFrame n) : Leat) = true ∧
    ((s.wr R.FAB_MBX_TX.LEN n : State).stamped ((s.wr R.FAB_MBX_TX.LEN n : State).mbxFrame n) : Leat).dst ≠ 0 ∧
    ((s.wr R.FAB_MBX_TX.LEN n : State).stamped ((s.wr R.FAB_MBX_TX.LEN n : State).mbxFrame n) : Leat).dst ≠ 4095 ∧
    (s.wr R.FAB_MBX_TX.LEN n : State).routePort ((s.wr R.FAB_MBX_TX.LEN n : State).stamped ((s.wr R.FAB_MBX_TX.LEN n : State).mbxFrame n) : Leat).dst ≠ portNone :=
  ⟨(({ ({ ((State.reset.wr UnitId.fab.STATE stRun).wr R.FAB_NODE.ACT 1) with fab.mailbox := [(0, 0x00010041#32), (1, 0x0050000#32), (2, 0#32), (4, 20#32)] } : State) with fab.routes := [(1, 0#32)] } : State).wr R.FAB_NODE.ACT 4094),
   48, by decide +kernel, by decide +kernel, by decide +kernel, by decide +kernel, by decide +kernel, by decide +kernel,
   by decide +kernel, by decide +kernel, by decide +kernel, by decide +kernel⟩

/-! Witnesses of fabric_time. -/

theorem test_witness_fabric_time_0_0 : ∃ s : State, ∃ p : Nat, ∃ d : Nat, ∃ m : PtpMsg,
    p < 4 ∧ (s.ptpPort p = false ∨ d ≠ s.rd R.FAB_PTP_CFG.DOMAIN) :=
  ⟨State.reset, 3, 0, PtpMsg.delayReq 0, by decide +kernel, by decide +kernel⟩

theorem test_witness_fabric_time_1_0 : ∃ s : State, ∃ p : Nat, ∃ a : PtpAnnounce,
    p < 4 ∧ s.ptpPort p = true ∧ (a.gm = s.ownMac ∨ 255 ≤ a.steps) :=
  ⟨(withMac ((((((State.reset.setPort 3 { tx := some { an := 0, sak := [] } }).wr (portUnit 3).STATE stRun).wr UnitId.fab.STATE stRun).raise (R.FAB_P_STAT.LINK 3)).raise (R.FAB_P_CTRL.PTP_EN 3))) 0),
   3,
   ({ port := 3, priority1 := 1, clockClass := 1, accuracy := 1, variance := 1, priority2 := 1, gm := (withMac ((((((State.reset.setPort 3 { tx := some { an := 0, sak := [] } }).wr (portUnit 3).STATE stRun).wr UnitId.fab.STATE stRun).raise (R.FAB_P_STAT.LINK 3)).raise (R.FAB_P_CTRL.PTP_EN 3))) 0).ownMac, steps := 1, sender := 1 } : PtpAnnounce),
   by decide +kernel, by decide +kernel, by decide +kernel⟩

theorem test_witness_fabric_time_1_1 : ∃ s : State, ∃ p : Nat, ∃ a : PtpAnnounce,
    p < 4 ∧ s.ptpPort p = true ∧ a.gm ≠ s.ownMac ∧ a.steps < 255 :=
  ⟨(withMac ((((((State.reset.setPort 3 { tx := some { an := 0, sak := [] } }).wr (portUnit 3).STATE stRun).wr UnitId.fab.STATE stRun).raise (R.FAB_P_STAT.LINK 3)).raise (R.FAB_P_CTRL.PTP_EN 3))) 0),
   3,
   ({ port := 3, priority1 := 1, clockClass := 1, accuracy := 1, variance := 1, priority2 := 1, gm := 1, steps := 254, sender := 1 } : PtpAnnounce),
   by decide +kernel, by decide +kernel, by decide +kernel, by decide +kernel⟩

theorem test_witness_fabric_time_2_0 : ∃ s : State, ∃ p,
    p < 4 ∧ (s.rd R.FAB_PTP_STAT.SLAVE ≠ p ∨ s.fab.ptp.best = none) :=
  ⟨State.reset, 3, by decide +kernel, by decide +kernel⟩

theorem test_witness_fabric_time_3_0 : ∃ s : State, ∃ p : Nat, ∃ o : Nat, ∃ i : Nat,
    p < 4 ∧ s.ptpPort p = true ∧ s.rd R.FAB_PTP_STAT.SLAVE = p ∧ s.fab.ptp.best.isSome = true ∧ s.fab.ptp.toMaster = none :=
  ⟨({ ((((((State.reset.setPort 3 { tx := some { an := 0, sak := [] } }).wr (portUnit 3).STATE stRun).wr UnitId.fab.STATE stRun).raise (R.FAB_P_STAT.LINK 3)).raise (R.FAB_P_CTRL.PTP_EN 3)).wr R.FAB_PTP_STAT.SLAVE 3) with fab.ptp := { best := some ({ port := 3, priority1 := 1, clockClass := 1, accuracy := 1, variance := 1, priority2 := 1, gm := 1, steps := 1, sender := 1 } : PtpAnnounce) } } : State),
   3, 0, 0, by decide +kernel, by decide +kernel, by decide +kernel, by decide +kernel, by decide +kernel⟩

theorem test_witness_fabric_time_3_1 : ∃ s : State, ∃ p : Nat, ∃ o : Nat, ∃ i : Nat, ∃ m : Int,
    p < 4 ∧ s.ptpPort p = true ∧ s.rd R.FAB_PTP_STAT.SLAVE = p ∧ s.fab.ptp.best.isSome = true ∧ s.fab.ptp.toMaster = some m :=
  ⟨({ ((((((State.reset.setPort 3 { tx := some { an := 0, sak := [] } }).wr (portUnit 3).STATE stRun).wr UnitId.fab.STATE stRun).raise (R.FAB_P_STAT.LINK 3)).raise (R.FAB_P_CTRL.PTP_EN 3)).wr R.FAB_PTP_STAT.SLAVE 3) with fab.ptp := { best := some ({ port := 3, priority1 := 1, clockClass := 1, accuracy := 1, variance := 1, priority2 := 1, gm := 1, steps := 1, sender := 1 } : PtpAnnounce), toMaster := some (-1) } } : State),
   3, 0, 0, -1, by decide +kernel, by decide +kernel, by decide +kernel, by decide +kernel, by decide +kernel⟩

theorem test_witness_fabric_time_4_0 : ∃ s : State, ∃ p : Nat, ∃ r : Nat,
    p < 4 ∧ s.ptpPort p = true ∧ s.rd R.FAB_PTP_STAT.SLAVE = p ∧ s.fab.ptp.best.isSome = true ∧ s.fab.ptp.t3 = none :=
  ⟨({ ((((((State.reset.setPort 3 { tx := some { an := 0, sak := [] } }).wr (portUnit 3).STATE stRun).wr UnitId.fab.STATE stRun).raise (R.FAB_P_STAT.LINK 3)).raise (R.FAB_P_CTRL.PTP_EN 3)).wr R.FAB_PTP_STAT.SLAVE 3) with fab.ptp := { best := some ({ port := 3, priority1 := 1, clockClass := 1, accuracy := 1, variance := 1, priority2 := 1, gm := 1, steps := 1, sender := 1 } : PtpAnnounce) } } : State),
   3, 0, by decide +kernel, by decide +kernel, by decide +kernel, by decide +kernel, by decide +kernel⟩

theorem test_witness_fabric_time_4_1 : ∃ s : State, ∃ p : Nat, ∃ r : Nat, ∃ t3 : Nat,
    p < 4 ∧ s.ptpPort p = true ∧ s.rd R.FAB_PTP_STAT.SLAVE = p ∧ s.fab.ptp.best.isSome = true ∧ s.fab.ptp.t3 = some t3 :=
  ⟨({ ((((((State.reset.setPort 3 { tx := some { an := 0, sak := [] } }).wr (portUnit 3).STATE stRun).wr UnitId.fab.STATE stRun).raise (R.FAB_P_STAT.LINK 3)).raise (R.FAB_P_CTRL.PTP_EN 3)).wr R.FAB_PTP_STAT.SLAVE 3) with fab.ptp := { best := some ({ port := 3, priority1 := 1, clockClass := 1, accuracy := 1, variance := 1, priority2 := 1, gm := 1, steps := 1, sender := 1 } : PtpAnnounce), t3 := some 5 } } : State),
   3, 0, 5, by decide +kernel, by decide +kernel, by decide +kernel, by decide +kernel, by decide +kernel⟩

theorem test_witness_fabric_time_5_0 : ∃ s : State, ∃ p,
    p < 4 ∧ s.ptpPort p = true ∧ s.ptpRole p = .master :=
  ⟨((((((State.reset.setPort 3 { tx := some { an := 0, sak := [] } }).wr (portUnit 3).STATE stRun).wr UnitId.fab.STATE stRun).raise (R.FAB_P_STAT.LINK 3)).raise (R.FAB_P_CTRL.PTP_EN 3)).raise R.FAB_PTP_CFG.GMCAP),
   3, by decide +kernel, by decide +kernel, by decide +kernel⟩

theorem test_witness_fabric_time_5_1 : ∃ s : State, ∃ p,
    p < 4 ∧ s.ptpPort p = true ∧ s.ptpRole p ≠ .master :=
  ⟨(((((State.reset.setPort 3 { tx := some { an := 0, sak := [] } }).wr (portUnit 3).STATE stRun).wr UnitId.fab.STATE stRun).raise (R.FAB_P_STAT.LINK 3)).raise (R.FAB_P_CTRL.PTP_EN 3)),
   3, by decide +kernel, by decide +kernel, by decide +kernel⟩

theorem test_witness_fabric_time_6_0 : ∃ s : State, ∃ p,
    p < 4 ∧ s.ptpPort p = false :=
  ⟨State.reset, 3, by decide +kernel, by decide +kernel⟩

theorem test_witness_fabric_time_7_0 : ∃ s : State, ∃ p : Nat,
    p < 4 ∧ s.ptpPort p = true ∧
    (((s.advance (s.port p).ptpTxAt : State).setPort p { (s.advance (s.port p).ptpTxAt : State).port p with ptpTxAt := (s.advance (s.port p).ptpTxAt : State).now + 62500 * us }).setPtp { (s.advance (s.port p).ptpTxAt : State).fab.ptp with intervals := SMap.set (fun _ => 0) (s.advance (s.port p).ptpTxAt : State).fab.ptp.intervals p ((SMap.get (fun _ => 0) (s.advance (s.port p).ptpTxAt : State).fab.ptp.intervals p : Nat) + 1) } : State).ptpRole p = .slave :=
  ⟨((({ (((((State.reset.setPort 3 { tx := some { an := 0, sak := [] } }).wr (portUnit 3).STATE stRun).wr UnitId.fab.STATE stRun).raise (R.FAB_P_STAT.LINK 3)).raise (R.FAB_P_CTRL.PTP_EN 3)) with fab.ptp := { foreign := [(3, some ({ port := 3, priority1 := 1, clockClass := 1, accuracy := 1, variance := 1, priority2 := 1, gm := 1, steps := 1, sender := 1 } : PtpAnnounce))] } } : State).setPort 3 { annAt := some 7, tx := some { an := 0, sak := [] } }).wr R.FAB_PTP_STAT.SLAVE 3),
   3, by decide +kernel, by decide +kernel, by decide +kernel⟩

theorem test_witness_fabric_time_7_1 : ∃ s : State, ∃ p : Nat,
    p < 4 ∧ s.ptpPort p = true ∧
    (((s.advance (s.port p).ptpTxAt : State).setPort p { (s.advance (s.port p).ptpTxAt : State).port p with ptpTxAt := (s.advance (s.port p).ptpTxAt : State).now + 62500 * us }).setPtp { (s.advance (s.port p).ptpTxAt : State).fab.ptp with intervals := SMap.set (fun _ => 0) (s.advance (s.port p).ptpTxAt : State).fab.ptp.intervals p ((SMap.get (fun _ => 0) (s.advance (s.port p).ptpTxAt : State).fab.ptp.intervals p : Nat) + 1) } : State).ptpRole p = .master :=
  ⟨((((((State.reset.setPort 3 { tx := some { an := 0, sak := [] } }).wr (portUnit 3).STATE stRun).wr UnitId.fab.STATE stRun).raise (R.FAB_P_STAT.LINK 3)).raise (R.FAB_P_CTRL.PTP_EN 3)).raise R.FAB_PTP_CFG.GMCAP),
   3, by decide +kernel, by decide +kernel, by decide +kernel⟩

theorem test_witness_fabric_time_7_2 : ∃ s : State, ∃ p : Nat,
    p < 4 ∧ s.ptpPort p = true ∧
    ((((s.advance (s.port p).ptpTxAt : State).setPort p { (s.advance (s.port p).ptpTxAt : State).port p with ptpTxAt := (s.advance (s.port p).ptpTxAt : State).now + 62500 * us }).setPtp { (s.advance (s.port p).ptpTxAt : State).fab.ptp with intervals := SMap.set (fun _ => 0) (s.advance (s.port p).ptpTxAt : State).fab.ptp.intervals p ((SMap.get (fun _ => 0) (s.advance (s.port p).ptpTxAt : State).fab.ptp.intervals p : Nat) + 1) } : State).ptpRole p = .passive ∨ (((s.advance (s.port p).ptpTxAt : State).setPort p { (s.advance (s.port p).ptpTxAt : State).port p with ptpTxAt := (s.advance (s.port p).ptpTxAt : State).now + 62500 * us }).setPtp { (s.advance (s.port p).ptpTxAt : State).fab.ptp with intervals := SMap.set (fun _ => 0) (s.advance (s.port p).ptpTxAt : State).fab.ptp.intervals p ((SMap.get (fun _ => 0) (s.advance (s.port p).ptpTxAt : State).fab.ptp.intervals p : Nat) + 1) } : State).ptpRole p = .listening) :=
  ⟨(((((State.reset.setPort 3 { tx := some { an := 0, sak := [] } }).wr (portUnit 3).STATE stRun).wr UnitId.fab.STATE stRun).raise (R.FAB_P_STAT.LINK 3)).raise (R.FAB_P_CTRL.PTP_EN 3)),
   3, by decide +kernel, by decide +kernel, by decide +kernel⟩

theorem test_witness_fabric_time_8_0 : ∃ s : State, ∃ b : PtpAnnounce, ∃ i : Nat,
    s.fab.ptp.best = some b ∧ (s.port (s.rd R.FAB_PTP_STAT.SLAVE : Nat)).annAt = some i :=
  ⟨((({ State.reset with fab.ptp := { best := some ({ port := 3, priority1 := 1, clockClass := 1, accuracy := 1, variance := 1, priority2 := 1, gm := 1, steps := 1, sender := 1 } : PtpAnnounce) } } : State).setPort 3 { annAt := some 7 }).wr R.FAB_PTP_STAT.SLAVE 3),
   ({ port := 3, priority1 := 1, clockClass := 1, accuracy := 1, variance := 1, priority2 := 1, gm := 1, steps := 1, sender := 1 } : PtpAnnounce),
   7, by decide +kernel, by decide +kernel⟩

theorem test_witness_fabric_time_9_0 : ∃ s : State,
    (s.fab.ptp.best = none ∨ (s.port (s.rd R.FAB_PTP_STAT.SLAVE)).annAt = none) :=
  ⟨State.reset, by decide +kernel⟩

/-! Witnesses of gate_frames_turned_away. -/

theorem test_witness_gate_frames_turned_away_0_0 : ∃ s : State, ∃ f : Leat, ∃ c,
    (s.takeInbox f.typ f.src f.payload : State).running .gate = false ∧
    c ∈ [Instr.openReceived f, .confirmReceived f, .abandonReceived f, .sessionRead f, .sessionWrite f, .sessionSub f, .sessionUnsub f,
    .sessionForce f, .sessionClose f, .evread f] :=
  ⟨State.reset, ({ lane := 0, dst := 1, src := 2, typ := 4, len := 0, payload := [] } : Leat),
   (.evread ({ lane := 0, dst := 1, src := 2, typ := 4, len := 0, payload := [] } : Leat)), by decide +kernel, by simp⟩

theorem test_witness_gate_frames_turned_away_1_0 : ∃ s : State, ∃ f : Leat, ∃ c,
    (s.takeInbox f.typ f.src f.payload : State).running .gate = true ∧ f.auth = false ∧
    (f.typ ≠ tySession ∨ f.lane ≠ laneControl ∨ ¬ ((numAt f.payload 0 2 = 0x101 ∧ f.payload.length = 104) ∨ (numAt f.payload 0 2 = 0x105 ∧ f.payload.length = 40))) ∧
    c ∈ [Instr.openReceived f, .confirmReceived f, .abandonReceived f, .sessionRead f, .sessionWrite f, .sessionSub f, .sessionUnsub f,
    .sessionForce f, .sessionClose f, .evread f] :=
  ⟨(State.reset.wr UnitId.gate.STATE stRun),
   ({ lane := 0, dst := 1, src := 2, typ := 4, len := 0, payload := [], auth := false } : Leat),
   (.evread ({ lane := 0, dst := 1, src := 2, typ := 4, len := 0, payload := [], auth := false } : Leat)), by decide +kernel,
   by decide +kernel, by decide +kernel, by simp⟩

theorem test_witness_gate_frames_turned_away_2_0 : ∃ s : State, ∃ f : Leat, ∃ c,
    (s.takeInbox f.typ f.src f.payload : State).running .gate = true ∧ f.auth = true ∧
    (s.takeInbox f.typ f.src f.payload : State).sessionOf f = none ∧
    c ∈ [Instr.openReceived f, .confirmReceived f, .abandonReceived f, .sessionRead f, .sessionWrite f, .sessionSub f, .sessionUnsub f,
    .sessionForce f, .sessionClose f, .evread f] :=
  ⟨(State.reset.wr UnitId.gate.STATE stRun),
   ({ lane := 0, dst := 1, src := 2, typ := 4, len := 0, payload := [], auth := true } : Leat),
   (.evread ({ lane := 0, dst := 1, src := 2, typ := 4, len := 0, payload := [], auth := true } : Leat)), by decide +kernel,
   by decide +kernel, by decide +kernel, by simp⟩

theorem test_witness_gate_frames_turned_away_3_0 : ∃ s : State, ∃ f : Leat, ∃ k : Nat, ∃ v : State, ∃ c,
    (s.takeInbox f.typ f.src f.payload : State).running .gate = true ∧ f.auth = true ∧
    (s.takeInbox f.typ f.src f.payload : State).sessionOf f = some k ∧
    (s.takeInbox f.typ f.src f.payload : State).askUse k (.openIn f) = (false, v) ∧
    c ∈ [Instr.openReceived f, .confirmReceived f, .abandonReceived f, .sessionRead f, .sessionWrite f, .sessionSub f, .sessionUnsub f,
    .sessionForce f, .sessionClose f, .evread f] :=
  ⟨({ ((((State.reset.wr UnitId.gate.STATE stRun).wr UnitId.key.STATE stRun).setKslot (State.reset.rd R.GATE_CFG.KSLOT) { kind := 3, parent := 0xFF, purpose := 3 }).setSess 0 { state := sOpen, node := 2, rights := 255, bucket := { tokens := 1000000000 } }) with gate.tenantBuckets := [(0, { tokens := 1000000000 })] } : State),
   ({ lane := laneControl, dst := 1, src := 2, typ := tySession, auth := true, len := 20, payload := [] } : Leat), 0, _,
   (.evread ({ lane := laneControl, dst := 1, src := 2, typ := tySession, auth := true, len := 20, payload := [] } : Leat)),
   by decide +kernel, by decide +kernel, by decide +kernel, fst_is (by decide +kernel), by simp⟩

theorem test_witness_gate_frames_turned_away_4_0 : ∃ s : State, ∃ f : Leat, ∃ k : Nat, ∃ v : State, ∃ w : State, ∃ c,
    (s.takeInbox f.typ f.src f.payload : State).running .gate = true ∧ f.auth = true ∧
    (s.takeInbox f.typ f.src f.payload : State).sessionOf f = some k ∧
    (s.takeInbox f.typ f.src f.payload : State).askUse k (.openIn f) = (true, v) ∧ v.openFrame k f = (none, w) ∧
    c ∈ [Instr.openReceived f, .confirmReceived f, .abandonReceived f, .sessionRead f, .sessionWrite f, .sessionSub f, .sessionUnsub f,
    .sessionForce f, .sessionClose f, .evread f] :=
  ⟨({ (((((((State.reset.wr UnitId.gate.STATE stRun).wr UnitId.key.STATE stRun).wr R.GATE_TBASE.BASE 0x2000).putBytes 0x80000000 (zeros 16 ++ [0xFF, 0xFF, 0xFF, 0, 0, 0, 0, 0, 0xFF, 0xFF, 0xFF])).setKslot (State.reset.rd R.GATE_CFG.KSLOT) { kind := 3, parent := 0xFF, purpose := 3 }).setKsess 0 { valid := true }).setSess 0 { state := sOpen, node := 2, rights := 255, bucket := { tokens := 1000000000 } }) with gate.tenantBuckets := [(0, { tokens := 1000000000 })] } : State),
   ({ lane := laneControl, dst := 1, src := 2, typ := tySession, auth := true, len := 20, payload := [] } : Leat), 0, _, _,
   (.evread ({ lane := laneControl, dst := 1, src := 2, typ := tySession, auth := true, len := 20, payload := [] } : Leat)),
   by decide +kernel, by decide +kernel, by decide +kernel, fst_is (by decide +kernel), fst_is (by decide +kernel), by simp⟩

theorem test_witness_gate_frames_turned_away_5_0 : ∃ s : State, ∃ f : Leat, ∃ k : Nat, ∃ v : State, ∃ w : State, ∃ pt : List Byte, ∃ c,
    (s.takeInbox f.typ f.src f.payload : State).running .gate = true ∧ f.auth = true ∧
    (s.takeInbox f.typ f.src f.payload : State).sessionOf f = some k ∧
    (s.takeInbox f.typ f.src f.payload : State).askUse k (.openIn f) = (true, v) ∧ v.openFrame k f = (some pt, w) ∧
    (w.sess k).state = sPending ∧ numAt pt 0 1 ≠ 3 ∧
    c ∈ [Instr.openReceived f, .confirmReceived f, .abandonReceived f, .sessionRead f, .sessionWrite f, .sessionSub f, .sessionUnsub f,
    .sessionForce f, .sessionClose f, .evread f] :=
  ⟨({ (((((((State.reset.wr UnitId.gate.STATE stRun).wr UnitId.key.STATE stRun).wr R.GATE_TBASE.BASE 0x2000).putBytes 0x80000000 (zeros 16 ++ [0xFF, 0xFF, 0xFF, 0, 0, 0, 0, 0, 0xFF, 0xFF, 0xFF])).setKslot (State.reset.rd R.GATE_CFG.KSLOT) { kind := 3, parent := 0xFF, purpose := 3 }).setKsess 0 { valid := true }).setSess 0 { state := sPending, node := 2, rights := 255, bucket := { tokens := 1000000000 } }) with gate.tenantBuckets := [(0, { tokens := 1000000000 })] } : State),
   (sealed ({ lane := laneControl, dst := 1, src := 2, typ := tySession, auth := true, len := 20, payload := [] } : Leat) ([30, 1, 0, 0])),
   0, _,
   ((((({ (((((((State.reset.wr UnitId.gate.STATE stRun).wr UnitId.key.STATE stRun).wr R.GATE_TBASE.BASE 0x2000).putBytes 0x80000000 (zeros 16 ++ [0xFF, 0xFF, 0xFF, 0, 0, 0, 0, 0, 0xFF, 0xFF, 0xFF])).setKslot (State.reset.rd R.GATE_CFG.KSLOT) { kind := 3, parent := 0xFF, purpose := 3 }).setKsess 0 { valid := true }).setSess 0 { state := sPending, node := 2, rights := 255, bucket := { tokens := 1000000000 } }) with gate.tenantBuckets := [(0, { tokens := 1000000000 })] } : State).takeInbox (sealed ({ lane := laneControl, dst := 1, src := 2, typ := tySession, auth := true, len := 20, payload := [] } : Leat) ([30, 1, 0, 0])).typ (sealed ({ lane := laneControl, dst := 1, src := 2, typ := tySession, auth := true, len := 20, payload := [] } : Leat) ([30, 1, 0, 0])).src (sealed ({ lane := laneControl, dst := 1, src := 2, typ := tySession, auth := true, len := 20, payload := [] } : Leat) ([30, 1, 0, 0])).payload : State).askUse 0 (.openIn (sealed ({ lane := laneControl, dst := 1, src := 2, typ := tySession, auth := true, len := 20, payload := [] } : Leat) ([30, 1, 0, 0])))).2).keyCount ksOk),
   ([30, 1, 0, 0]),
   (.evread (sealed ({ lane := laneControl, dst := 1, src := 2, typ := tySession, auth := true, len := 20, payload := [] } : Leat) ([30, 1, 0, 0]))),
   by decide +kernel, by decide +kernel, by decide +kernel, fst_is (by decide +kernel),
   openFrame_sealed zero_keys_whole (by decide +kernel) (by decide +kernel), by decide +kernel, by decide +kernel, by simp⟩

theorem test_witness_gate_frames_turned_away_5_1 : ∃ s : State, ∃ f : Leat, ∃ k : Nat, ∃ v : State, ∃ w : State, ∃ pt : List Byte, ∃ c,
    (s.takeInbox f.typ f.src f.payload : State).running .gate = true ∧ f.auth = true ∧
    (s.takeInbox f.typ f.src f.payload : State).sessionOf f = some k ∧
    (s.takeInbox f.typ f.src f.payload : State).askUse k (.openIn f) = (true, v) ∧ v.openFrame k f = (some pt, w) ∧
    (w.sess k).state = sPending ∧ numAt pt 0 1 = 3 ∧
    (pt.length ≠ 4 ∨ numAt pt 0 2 ≠ 0x103 ∨ f.lane ≠ laneControl ∨ f.typ ≠ tySession) ∧
    c ∈ [Instr.openReceived f, .confirmReceived f, .abandonReceived f, .sessionRead f, .sessionWrite f, .sessionSub f, .sessionUnsub f,
    .sessionForce f, .sessionClose f, .evread f] :=
  ⟨({ (((((((State.reset.wr UnitId.gate.STATE stRun).wr UnitId.key.STATE stRun).wr R.GATE_TBASE.BASE 0x2000).putBytes 0x80000000 (zeros 16 ++ [0xFF, 0xFF, 0xFF, 0, 0, 0, 0, 0, 0xFF, 0xFF, 0xFF])).setKslot (State.reset.rd R.GATE_CFG.KSLOT) { kind := 3, parent := 0xFF, purpose := 3 }).setKsess 0 { valid := true }).setSess 0 { state := sPending, node := 2, rights := 255, bucket := { tokens := 1000000000 } }) with gate.tenantBuckets := [(0, { tokens := 1000000000 })] } : State),
   (sealed ({ lane := laneEvent, dst := 1, src := 2, typ := tySession, auth := true, len := 20, payload := [] } : Leat) ([3, 1, 0, 0])),
   0, _,
   ((((({ (((((((State.reset.wr UnitId.gate.STATE stRun).wr UnitId.key.STATE stRun).wr R.GATE_TBASE.BASE 0x2000).putBytes 0x80000000 (zeros 16 ++ [0xFF, 0xFF, 0xFF, 0, 0, 0, 0, 0, 0xFF, 0xFF, 0xFF])).setKslot (State.reset.rd R.GATE_CFG.KSLOT) { kind := 3, parent := 0xFF, purpose := 3 }).setKsess 0 { valid := true }).setSess 0 { state := sPending, node := 2, rights := 255, bucket := { tokens := 1000000000 } }) with gate.tenantBuckets := [(0, { tokens := 1000000000 })] } : State).takeInbox (sealed ({ lane := laneEvent, dst := 1, src := 2, typ := tySession, auth := true, len := 20, payload := [] } : Leat) ([3, 1, 0, 0])).typ (sealed ({ lane := laneEvent, dst := 1, src := 2, typ := tySession, auth := true, len := 20, payload := [] } : Leat) ([3, 1, 0, 0])).src (sealed ({ lane := laneEvent, dst := 1, src := 2, typ := tySession, auth := true, len := 20, payload := [] } : Leat) ([3, 1, 0, 0])).payload : State).askUse 0 (.openIn (sealed ({ lane := laneEvent, dst := 1, src := 2, typ := tySession, auth := true, len := 20, payload := [] } : Leat) ([3, 1, 0, 0])))).2).keyCount ksOk),
   ([3, 1, 0, 0]),
   (.evread (sealed ({ lane := laneEvent, dst := 1, src := 2, typ := tySession, auth := true, len := 20, payload := [] } : Leat) ([3, 1, 0, 0]))),
   by decide +kernel, by decide +kernel, by decide +kernel, fst_is (by decide +kernel),
   openFrame_sealed zero_keys_whole (by decide +kernel) (by decide +kernel), by decide +kernel, by decide +kernel,
   by decide +kernel, by simp⟩

theorem test_witness_gate_frames_turned_away_6_0 : ∃ s : State, ∃ f : Leat, ∃ k : Nat, ∃ v : State, ∃ w : State, ∃ pt : List Byte, ∃ c,
    (s.takeInbox f.typ f.src f.payload : State).running .gate = true ∧ f.auth = true ∧
    (s.takeInbox f.typ f.src f.payload : State).sessionOf f = some k ∧
    (s.takeInbox f.typ f.src f.payload : State).askUse k (.openIn f) = (true, v) ∧ v.openFrame k f = (some pt, w) ∧
    (w.sess k).state = sExpired ∧
    c ∈ [Instr.openReceived f, .confirmReceived f, .abandonReceived f, .sessionRead f, .sessionWrite f, .sessionSub f, .sessionUnsub f,
    .sessionForce f, .sessionClose f, .evread f] :=
  ⟨({ (((((((State.reset.wr UnitId.gate.STATE stRun).wr UnitId.key.STATE stRun).wr R.GATE_TBASE.BASE 0x2000).putBytes 0x80000000 (zeros 16 ++ [0xFF, 0xFF, 0xFF, 0, 0, 0, 0, 0, 0xFF, 0xFF, 0xFF])).setKslot (State.reset.rd R.GATE_CFG.KSLOT) { kind := 3, parent := 0xFF, purpose := 3 }).setKsess 0 { valid := true }).setSess 0 { state := sExpired, node := 2, rights := 255, bucket := { tokens := 1000000000 } }) with gate.tenantBuckets := [(0, { tokens := 1000000000 })] } : State),
   (sealed ({ lane := laneControl, dst := 1, src := 2, typ := tySession, auth := true, len := 20, payload := [] } : Leat) ([30, 1, 0, 0])),
   0, _,
   ((((({ (((((((State.reset.wr UnitId.gate.STATE stRun).wr UnitId.key.STATE stRun).wr R.GATE_TBASE.BASE 0x2000).putBytes 0x80000000 (zeros 16 ++ [0xFF, 0xFF, 0xFF, 0, 0, 0, 0, 0, 0xFF, 0xFF, 0xFF])).setKslot (State.reset.rd R.GATE_CFG.KSLOT) { kind := 3, parent := 0xFF, purpose := 3 }).setKsess 0 { valid := true }).setSess 0 { state := sExpired, node := 2, rights := 255, bucket := { tokens := 1000000000 } }) with gate.tenantBuckets := [(0, { tokens := 1000000000 })] } : State).takeInbox (sealed ({ lane := laneControl, dst := 1, src := 2, typ := tySession, auth := true, len := 20, payload := [] } : Leat) ([30, 1, 0, 0])).typ (sealed ({ lane := laneControl, dst := 1, src := 2, typ := tySession, auth := true, len := 20, payload := [] } : Leat) ([30, 1, 0, 0])).src (sealed ({ lane := laneControl, dst := 1, src := 2, typ := tySession, auth := true, len := 20, payload := [] } : Leat) ([30, 1, 0, 0])).payload : State).askUse 0 (.openIn (sealed ({ lane := laneControl, dst := 1, src := 2, typ := tySession, auth := true, len := 20, payload := [] } : Leat) ([30, 1, 0, 0])))).2).keyCount ksOk),
   ([30, 1, 0, 0]),
   (.evread (sealed ({ lane := laneControl, dst := 1, src := 2, typ := tySession, auth := true, len := 20, payload := [] } : Leat) ([30, 1, 0, 0]))),
   by decide +kernel, by decide +kernel, by decide +kernel, fst_is (by decide +kernel),
   openFrame_sealed zero_keys_whole (by decide +kernel) (by decide +kernel), by decide +kernel, by simp⟩

theorem test_witness_gate_frames_turned_away_7_0 : ∃ s : State, ∃ f : Leat, ∃ k : Nat, ∃ v : State, ∃ w : State, ∃ pt : List Byte, ∃ c, ∃ y,
    (s.takeInbox f.typ f.src f.payload : State).running .gate = true ∧ f.auth = true ∧
    (s.takeInbox f.typ f.src f.payload : State).sessionOf f = some k ∧
    (s.takeInbox f.typ f.src f.payload : State).askUse k (.openIn f) = (true, v) ∧ v.openFrame k f = (some pt, w) ∧
    (w.sess k).state = sOpen ∧
    (w.setSess k { (w.sess k).accept f.seq with lastReq := w.now } : State).charge k (f.len + 64) = (false, y) ∧
    c ∈ [Instr.openReceived f, .confirmReceived f, .abandonReceived f, .sessionRead f, .sessionWrite f, .sessionSub f, .sessionUnsub f,
    .sessionForce f, .sessionClose f, .evread f] :=
  ⟨(({ (((((((State.reset.wr UnitId.gate.STATE stRun).wr UnitId.key.STATE stRun).wr R.GATE_TBASE.BASE 0x2000).putBytes 0x80000000 (zeros 16 ++ [0xFF, 0xFF, 0xFF, 0, 0, 0, 0, 0, 0xFF, 0xFF, 0xFF])).setKslot (State.reset.rd R.GATE_CFG.KSLOT) { kind := 3, parent := 0xFF, purpose := 3 }).setKsess 0 { valid := true }).setSess 0 { state := sOpen, node := 2, rights := 255, bucket := { tokens := 1000000000 } }) with gate.tenantBuckets := [(0, { tokens := 1000000000 })] } : State).setSess 0 { state := sOpen, node := 2, rights := 255 }),
   (sealed ({ lane := laneControl, dst := 1, src := 2, typ := tySession, auth := true, len := 20, payload := [] } : Leat) ([30, 1, 0, 0])),
   0, _,
   (((((({ (((((((State.reset.wr UnitId.gate.STATE stRun).wr UnitId.key.STATE stRun).wr R.GATE_TBASE.BASE 0x2000).putBytes 0x80000000 (zeros 16 ++ [0xFF, 0xFF, 0xFF, 0, 0, 0, 0, 0, 0xFF, 0xFF, 0xFF])).setKslot (State.reset.rd R.GATE_CFG.KSLOT) { kind := 3, parent := 0xFF, purpose := 3 }).setKsess 0 { valid := true }).setSess 0 { state := sOpen, node := 2, rights := 255, bucket := { tokens := 1000000000 } }) with gate.tenantBuckets := [(0, { tokens := 1000000000 })] } : State).setSess 0 { state := sOpen, node := 2, rights := 255 }).takeInbox (sealed ({ lane := laneControl, dst := 1, src := 2, typ := tySession, auth := true, len := 20, payload := [] } : Leat) ([30, 1, 0, 0])).typ (sealed ({ lane := laneControl, dst := 1, src := 2, typ := tySession, auth := true, len := 20, payload := [] } : Leat) ([30, 1, 0, 0])).src (sealed ({ lane := laneControl, dst := 1, src := 2, typ := tySession, auth := true, len := 20, payload := [] } : Leat) ([30, 1, 0, 0])).payload : State).askUse 0 (.openIn (sealed ({ lane := laneControl, dst := 1, src := 2, typ := tySession, auth := true, len := 20, payload := [] } : Leat) ([30, 1, 0, 0])))).2).keyCount ksOk),
   ([30, 1, 0, 0]),
   (.evread (sealed ({ lane := laneControl, dst := 1, src := 2, typ := tySession, auth := true, len := 20, payload := [] } : Leat) ([30, 1, 0, 0]))),
   _, by decide +kernel, by decide +kernel, by decide +kernel, fst_is (by decide +kernel),
   openFrame_sealed zero_keys_whole (by decide +kernel) (by decide +kernel), by decide +kernel, fst_is (by decide +kernel),
   by simp⟩

theorem test_witness_gate_frames_turned_away_7_1 : ∃ s : State, ∃ f : Leat, ∃ k : Nat, ∃ v : State, ∃ w : State, ∃ pt : List Byte, ∃ c, ∃ y,
    (s.takeInbox f.typ f.src f.payload : State).running .gate = true ∧ f.auth = true ∧
    (s.takeInbox f.typ f.src f.payload : State).sessionOf f = some k ∧
    (s.takeInbox f.typ f.src f.payload : State).askUse k (.openIn f) = (true, v) ∧ v.openFrame k f = (some pt, w) ∧
    (w.sess k).state = sOpen ∧
    (w.setSess k { (w.sess k).accept f.seq with lastReq := w.now } : State).charge k (f.len + 64) = (true, y) ∧
    requestOf f.typ f.lane pt = .bad ∧
    c ∈ [Instr.openReceived f, .confirmReceived f, .abandonReceived f, .sessionRead f, .sessionWrite f, .sessionSub f, .sessionUnsub f,
    .sessionForce f, .sessionClose f, .evread f] :=
  ⟨({ (((((((State.reset.wr UnitId.gate.STATE stRun).wr UnitId.key.STATE stRun).wr R.GATE_TBASE.BASE 0x2000).putBytes 0x80000000 (zeros 16 ++ [0xFF, 0xFF, 0xFF, 0, 0, 0, 0, 0, 0xFF, 0xFF, 0xFF])).setKslot (State.reset.rd R.GATE_CFG.KSLOT) { kind := 3, parent := 0xFF, purpose := 3 }).setKsess 0 { valid := true }).setSess 0 { state := sOpen, node := 2, rights := 255, bucket := { tokens := 1000000000 } }) with gate.tenantBuckets := [(0, { tokens := 1000000000 })] } : State),
   (sealed ({ lane := laneControl, dst := 1, src := 2, typ := tySession, auth := true, len := 20, payload := [] } : Leat) ([99, 1, 0, 0])),
   0, _,
   ((((({ (((((((State.reset.wr UnitId.gate.STATE stRun).wr UnitId.key.STATE stRun).wr R.GATE_TBASE.BASE 0x2000).putBytes 0x80000000 (zeros 16 ++ [0xFF, 0xFF, 0xFF, 0, 0, 0, 0, 0, 0xFF, 0xFF, 0xFF])).setKslot (State.reset.rd R.GATE_CFG.KSLOT) { kind := 3, parent := 0xFF, purpose := 3 }).setKsess 0 { valid := true }).setSess 0 { state := sOpen, node := 2, rights := 255, bucket := { tokens := 1000000000 } }) with gate.tenantBuckets := [(0, { tokens := 1000000000 })] } : State).takeInbox (sealed ({ lane := laneControl, dst := 1, src := 2, typ := tySession, auth := true, len := 20, payload := [] } : Leat) ([99, 1, 0, 0])).typ (sealed ({ lane := laneControl, dst := 1, src := 2, typ := tySession, auth := true, len := 20, payload := [] } : Leat) ([99, 1, 0, 0])).src (sealed ({ lane := laneControl, dst := 1, src := 2, typ := tySession, auth := true, len := 20, payload := [] } : Leat) ([99, 1, 0, 0])).payload : State).askUse 0 (.openIn (sealed ({ lane := laneControl, dst := 1, src := 2, typ := tySession, auth := true, len := 20, payload := [] } : Leat) ([99, 1, 0, 0])))).2).keyCount ksOk),
   ([99, 1, 0, 0]),
   (.evread (sealed ({ lane := laneControl, dst := 1, src := 2, typ := tySession, auth := true, len := 20, payload := [] } : Leat) ([99, 1, 0, 0]))),
   _, by decide +kernel, by decide +kernel, by decide +kernel, fst_is (by decide +kernel),
   openFrame_sealed zero_keys_whole (by decide +kernel) (by decide +kernel), by decide +kernel, fst_is (by decide +kernel),
   by decide +kernel, by simp⟩

theorem test_witness_gate_frames_turned_away_7_2 : ∃ s : State, ∃ f : Leat, ∃ k : Nat, ∃ v : State, ∃ w : State, ∃ pt : List Byte, ∃ c, ∃ y, ∃ b : Nat,
    (s.takeInbox f.typ f.src f.payload : State).running .gate = true ∧ f.auth = true ∧
    (s.takeInbox f.typ f.src f.payload : State).sessionOf f = some k ∧
    (s.takeInbox f.typ f.src f.payload : State).askUse k (.openIn f) = (true, v) ∧ v.openFrame k f = (some pt, w) ∧
    (w.sess k).state = sOpen ∧
    (w.setSess k { (w.sess k).accept f.seq with lastReq := w.now } : State).charge k (f.len + 64) = (true, y) ∧
    requestOf f.typ f.lane pt ≠ .bad ∧ (requestOf f.typ f.lane pt).right = some b ∧ (y.sess k).rights.testBit b = false ∧
    c ∈ [Instr.openReceived f, .confirmReceived f, .abandonReceived f, .sessionRead f, .sessionWrite f, .sessionSub f, .sessionUnsub f,
    .sessionForce f, .sessionClose f, .evread f] :=
  ⟨({ (((((((State.reset.wr UnitId.gate.STATE stRun).wr UnitId.key.STATE stRun).wr R.GATE_TBASE.BASE 0x2000).putBytes 0x80000000 (zeros 16 ++ [0xFF, 0xFF, 0xFF, 0, 0, 0, 0, 0, 0xFF, 0xFF, 0xFF])).setKslot (State.reset.rd R.GATE_CFG.KSLOT) { kind := 3, parent := 0xFF, purpose := 3 }).setKsess 0 { valid := true }).setSess 0 { state := sOpen, node := 2, rights := 0, bucket := { tokens := 1000000000 } }) with gate.tenantBuckets := [(0, { tokens := 1000000000 })] } : State),
   (sealed ({ lane := laneEvent, dst := 1, src := 2, typ := tySession, auth := true, len := 28, payload := [] } : Leat) ([22, 1, 0, 0, 0, 0, 1, 0] ++ zeros 4)),
   0, _,
   ((((({ (((((((State.reset.wr UnitId.gate.STATE stRun).wr UnitId.key.STATE stRun).wr R.GATE_TBASE.BASE 0x2000).putBytes 0x80000000 (zeros 16 ++ [0xFF, 0xFF, 0xFF, 0, 0, 0, 0, 0, 0xFF, 0xFF, 0xFF])).setKslot (State.reset.rd R.GATE_CFG.KSLOT) { kind := 3, parent := 0xFF, purpose := 3 }).setKsess 0 { valid := true }).setSess 0 { state := sOpen, node := 2, rights := 0, bucket := { tokens := 1000000000 } }) with gate.tenantBuckets := [(0, { tokens := 1000000000 })] } : State).takeInbox (sealed ({ lane := laneEvent, dst := 1, src := 2, typ := tySession, auth := true, len := 28, payload := [] } : Leat) ([22, 1, 0, 0, 0, 0, 1, 0] ++ zeros 4)).typ (sealed ({ lane := laneEvent, dst := 1, src := 2, typ := tySession, auth := true, len := 28, payload := [] } : Leat) ([22, 1, 0, 0, 0, 0, 1, 0] ++ zeros 4)).src (sealed ({ lane := laneEvent, dst := 1, src := 2, typ := tySession, auth := true, len := 28, payload := [] } : Leat) ([22, 1, 0, 0, 0, 0, 1, 0] ++ zeros 4)).payload : State).askUse 0 (.openIn (sealed ({ lane := laneEvent, dst := 1, src := 2, typ := tySession, auth := true, len := 28, payload := [] } : Leat) ([22, 1, 0, 0, 0, 0, 1, 0] ++ zeros 4)))).2).keyCount ksOk),
   ([22, 1, 0, 0, 0, 0, 1, 0] ++ zeros 4),
   (.evread (sealed ({ lane := laneEvent, dst := 1, src := 2, typ := tySession, auth := true, len := 28, payload := [] } : Leat) ([22, 1, 0, 0, 0, 0, 1, 0] ++ zeros 4))),
   _, rtSub, by decide +kernel, by decide +kernel, by decide +kernel, fst_is (by decide +kernel),
   openFrame_sealed zero_keys_whole (by decide +kernel) (by decide +kernel), by decide +kernel, fst_is (by decide +kernel),
   by decide +kernel, by decide +kernel, by decide +kernel, by simp⟩

/-! Witnesses of gate_requests. -/

theorem test_witness_gate_requests_0_0 : ∃ s : State, ∃ f : Leat, ∃ c,
    (s.takeInbox f.typ f.src f.payload : State).running .gate = true ∧ f.auth = false ∧ f.typ = tySession ∧
    f.lane = laneControl ∧ numAt f.payload 0 2 = 0x101 ∧ f.payload.length = 104 ∧
    c ∈ [Instr.openReceived f, .confirmReceived f, .abandonReceived f, .sessionRead f, .sessionWrite f, .sessionSub f, .sessionUnsub f,
    .sessionForce f, .sessionClose f, .evread f] :=
  ⟨(State.reset.wr UnitId.gate.STATE stRun),
   ({ lane := laneControl, dst := 1, src := 2, typ := tySession, auth := false, len := 104, payload := [1, 1] ++ zeros 102 } : Leat),
   (.evread ({ lane := laneControl, dst := 1, src := 2, typ := tySession, auth := false, len := 104, payload := [1, 1] ++ zeros 102 } : Leat)),
   by decide +kernel, by decide +kernel, by decide +kernel, by decide +kernel, by decide +kernel, by decide +kernel, by simp⟩

theorem test_witness_gate_requests_0_1 : ∃ s : State, ∃ f : Leat, ∃ c,
    (s.takeInbox f.typ f.src f.payload : State).running .gate = true ∧ f.auth = false ∧ f.typ = tySession ∧
    f.lane = laneControl ∧ numAt f.payload 0 2 = 0x105 ∧ f.payload.length = 40 ∧
    c ∈ [Instr.openReceived f, .confirmReceived f, .abandonReceived f, .sessionRead f, .sessionWrite f, .sessionSub f, .sessionUnsub f,
    .sessionForce f, .sessionClose f, .evread f] :=
  ⟨(State.reset.wr UnitId.gate.STATE stRun),
   ({ lane := laneControl, dst := 1, src := 2, typ := tySession, auth := false, len := 40, payload := [5, 1] ++ zeros 38 } : Leat),
   (.evread ({ lane := laneControl, dst := 1, src := 2, typ := tySession, auth := false, len := 40, payload := [5, 1] ++ zeros 38 } : Leat)),
   by decide +kernel, by decide +kernel, by decide +kernel, by decide +kernel, by decide +kernel, by decide +kernel, by simp⟩

theorem test_witness_gate_requests_1_0 : ∃ s : State, ∃ f : Leat,
    s.rd R.PAIR_STAT.ROLE = roleStandby :=
  ⟨(((((((State.reset.wr R.PAIR_STAT.ROLE roleStandby).wr UnitId.key.STATE stRun).wr R.GATE_TBASE.BASE 0x2000).putBytes 0x80000000 (zeros 16 ++ [0xFF, 0xFF, 0xFF, 0, 0, 0, 0, 0, 0xFF, 0xFF, 0xFF])).setKslot (State.reset.rd R.GATE_CFG.KSLOT) { kind := 3, parent := 0xFF, purpose := 3 }).setKsess 0 { valid := true }).setSess 0 { state := sPending, node := 2, rights := 255 }),
   { ({ lane := laneControl, dst := 1, src := 2, typ := tySession, auth := true, len := 20, payload := [] } : Leat) with payload := gcmSeal (zeros 32) (zeros 12) (sessAad ({ lane := laneControl, dst := 1, src := 2, typ := tySession, auth := true, len := 20, payload := [] } : Leat)) ([3, 1, 0, 0]) },
   by decide +kernel⟩

theorem test_witness_gate_requests_1_1 : ∃ s : State, ∃ f : Leat, ∃ u,
    s.rd R.PAIR_STAT.ROLE ≠ roleStandby ∧ s.openCharge = (false, u) :=
  ⟨State.reset, ({ lane := 0, dst := 1, src := 2, typ := 4, len := 0, payload := [] } : Leat), _, by decide +kernel,
   fst_is (by decide +kernel)⟩

theorem test_witness_gate_requests_1_2 : ∃ s : State, ∃ f : Leat, ∃ u : State, ∃ v : State, ∃ w : State, ∃ ten : Tenant, ∃ k : Nat,
    s.rd R.PAIR_STAT.ROLE ≠ roleStandby ∧ s.openCharge = (true, u) ∧ u.tenantUse = (.ok, v) ∧
    v.tenant (numAt f.payload 2 1) = (ten, w) ∧
    openTag (w.tenantKey (numAt f.payload 2 1) ten.gen : List Byte) f (f.payload.take 88) ≠ f.payload.drop 88 :=
  ⟨(({ ((((State.reset.wr UnitId.key.STATE stRun).wr R.GATE_TBASE.BASE 0x2000).putBytes 0x80000000 ([0x7F, 0, 0, 2, 0, 0, 1, 0, 1, 0, 0, 0, 1, 0, 0, 0, 0xFF, 0xFF, 0xFF, 0, 1, 0, 0, 0, 0xFF, 0xFF, 0xFF])).setKslot (State.reset.rd R.GATE_CFG.KSLOT) { kind := 3, parent := 0xFF, purpose := 3 }) with gate.openBucket := { tokens := 1000000000 } } : State).wr R.GATE_CFG.OPEN_RATE 1),
   ({ lane := laneControl, dst := 1, src := 2, typ := tySession, auth := false, len := 104, payload := [] } : Leat), _, _, _,
   _, 0, by decide +kernel, fst_is (by decide +kernel), fst_is (by decide +kernel), pair_is, by decide +kernel⟩

theorem test_witness_gate_requests_1_3 : ∃ s : State, ∃ f : Leat, ∃ u : State, ∃ v : State, ∃ w : State, ∃ ten : Tenant, ∃ k : Nat,
    s.rd R.PAIR_STAT.ROLE ≠ roleStandby ∧ s.openCharge = (true, u) ∧ u.tenantUse = (.ok, v) ∧
    v.tenant (numAt f.payload 2 1) = (ten, w) ∧
    openTag (w.tenantKey (numAt f.payload 2 1) ten.gen : List Byte) f (f.payload.take 88) = f.payload.drop 88 ∧
    (w.gate.sessions.filter fun (_, x) => x.tenant == (numAt f.payload 2 1) && (x.state == sPending || x.state == sOpen)).length < ten.maxsess ∧
    w.newSlot = some k :=
  ⟨(({ ((((State.reset.wr UnitId.key.STATE stRun).wr R.GATE_TBASE.BASE 0x2000).putBytes 0x80000000 ([0x7F, 0, 0, 2, 0, 0, 1, 0, 1, 0, 0, 0, 1, 0, 0, 0, 0xFF, 0xFF, 0xFF, 0, 1, 0, 0, 0, 0xFF, 0xFF, 0xFF])).setKslot (State.reset.rd R.GATE_CFG.KSLOT) { kind := 3, parent := 0xFF, purpose := 3 }) with gate.openBucket := { tokens := 1000000000 } } : State).wr R.GATE_CFG.OPEN_RATE 1),
   ({ ({ lane := laneControl, dst := 1, src := 2, typ := tySession, auth := false, len := 104, payload := [] } : Leat) with payload := ([1, 1] ++ zeros 86) ++ openTag (kdf ([].take 32) (ascii "GATE-TENANT") (bytesLE 0 1 ++ bytesLE 0 2)) ({ lane := laneControl, dst := 1, src := 2, typ := tySession, auth := false, len := 104, payload := [] } : Leat) ([1, 1] ++ zeros 86) } : Leat),
   _, _, _, _, _, by decide +kernel, fst_is (by decide +kernel), fst_is (by decide +kernel), pair_is, by decide +kernel,
   by decide +kernel, some_is 0 (newSlot_some (by decide +kernel))⟩

theorem test_witness_gate_requests_2_0 : ∃ s : State, ∃ f : Leat, ∃ u : State, ∃ v : State, ∃ w : State, ∃ ten : Tenant,
    s.openCharge = (true, u) ∧ u.tenantUse = (.ok, v) ∧ v.tenant (numAt f.payload 2 1 : Nat) = (ten, w) ∧
    openTag (w.tenantKey (numAt f.payload 2 1 : Nat) ten.gen) f (f.payload.take 24) = f.payload.drop 24 ∧
    ((w.sess (numAt f.payload 4 4 % 512 : Nat)).state = sPending ∨ (w.sess (numAt f.payload 4 4 % 512 : Nat)).state = sOpen) ∧
    (w.sess (numAt f.payload 4 4 % 512 : Nat)).sid = numAt f.payload 4 4 ∧
    (w.sess (numAt f.payload 4 4 % 512 : Nat)).node = f.src ∧
    (w.sess (numAt f.payload 4 4 % 512 : Nat)).tenant = (numAt f.payload 2 1 : Nat) ∧
    (w.sess (numAt f.payload 4 4 % 512 : Nat)).nc.toNat = natBE ((f.payload.drop 8).take 16) :=
  ⟨((({ ((((State.reset.wr UnitId.key.STATE stRun).wr R.GATE_TBASE.BASE 0x2000).putBytes 0x80000000 ([0x7F, 0, 0, 2, 0, 0, 1, 0, 1, 0, 0, 0, 1, 0, 0, 0, 0xFF, 0xFF, 0xFF, 0, 1, 0, 0, 0, 0xFF, 0xFF, 0xFF])).setKslot (State.reset.rd R.GATE_CFG.KSLOT) { kind := 3, parent := 0xFF, purpose := 3 }) with gate.openBucket := { tokens := 1000000000 } } : State).wr R.GATE_CFG.OPEN_RATE 1).setSess 0 { state := sOpen, node := 2 }),
   ({ ({ lane := laneControl, dst := 1, src := 2, typ := tySession, auth := false, len := 40, payload := [] } : Leat) with payload := ([7, 1, 0, 0, 0, 0, 0, 0] ++ zeros 16) ++ openTag (kdf ([].take 32) (ascii "GATE-TENANT") (bytesLE 0 1 ++ bytesLE 0 2)) ({ lane := laneControl, dst := 1, src := 2, typ := tySession, auth := false, len := 40, payload := [] } : Leat) ([7, 1, 0, 0, 0, 0, 0, 0] ++ zeros 16) } : Leat),
   _, _, _, _, fst_is (by decide +kernel), fst_is (by decide +kernel), pair_is, by decide +kernel, by decide +kernel,
   by decide +kernel, by decide +kernel, by decide +kernel, by decide +kernel⟩

theorem test_witness_gate_requests_3_0 : ∃ s : State, ∃ f : Leat, ∃ k : Nat, ∃ v : State, ∃ w : State, ∃ pt : List Byte, ∃ c,
    (s.takeInbox f.typ f.src f.payload : State).running .gate = true ∧ f.auth = true ∧
    (s.takeInbox f.typ f.src f.payload : State).sessionOf f = some k ∧
    (s.takeInbox f.typ f.src f.payload : State).askUse k (.openIn f) = (true, v) ∧ v.openFrame k f = (some pt, w) ∧
    (w.sess k).state = sPending ∧ pt.length = 4 ∧ numAt pt 0 2 = 0x103 ∧ f.lane = laneControl ∧ f.typ = tySession ∧
    c ∈ [Instr.openReceived f, .confirmReceived f, .abandonReceived f, .sessionRead f, .sessionWrite f, .sessionSub f, .sessionUnsub f,
    .sessionForce f, .sessionClose f, .evread f] :=
  ⟨({ (((((((State.reset.wr UnitId.gate.STATE stRun).wr UnitId.key.STATE stRun).wr R.GATE_TBASE.BASE 0x2000).putBytes 0x80000000 (zeros 16 ++ [0xFF, 0xFF, 0xFF, 0, 0, 0, 0, 0, 0xFF, 0xFF, 0xFF])).setKslot (State.reset.rd R.GATE_CFG.KSLOT) { kind := 3, parent := 0xFF, purpose := 3 }).setKsess 0 { valid := true }).setSess 0 { state := sPending, node := 2, rights := 255, bucket := { tokens := 1000000000 } }) with gate.tenantBuckets := [(0, { tokens := 1000000000 })] } : State),
   (sealed ({ lane := laneControl, dst := 1, src := 2, typ := tySession, auth := true, len := 20, payload := [] } : Leat) ([3, 1, 0, 0])),
   0, _,
   ((((({ (((((((State.reset.wr UnitId.gate.STATE stRun).wr UnitId.key.STATE stRun).wr R.GATE_TBASE.BASE 0x2000).putBytes 0x80000000 (zeros 16 ++ [0xFF, 0xFF, 0xFF, 0, 0, 0, 0, 0, 0xFF, 0xFF, 0xFF])).setKslot (State.reset.rd R.GATE_CFG.KSLOT) { kind := 3, parent := 0xFF, purpose := 3 }).setKsess 0 { valid := true }).setSess 0 { state := sPending, node := 2, rights := 255, bucket := { tokens := 1000000000 } }) with gate.tenantBuckets := [(0, { tokens := 1000000000 })] } : State).takeInbox (sealed ({ lane := laneControl, dst := 1, src := 2, typ := tySession, auth := true, len := 20, payload := [] } : Leat) ([3, 1, 0, 0])).typ (sealed ({ lane := laneControl, dst := 1, src := 2, typ := tySession, auth := true, len := 20, payload := [] } : Leat) ([3, 1, 0, 0])).src (sealed ({ lane := laneControl, dst := 1, src := 2, typ := tySession, auth := true, len := 20, payload := [] } : Leat) ([3, 1, 0, 0])).payload : State).askUse 0 (.openIn (sealed ({ lane := laneControl, dst := 1, src := 2, typ := tySession, auth := true, len := 20, payload := [] } : Leat) ([3, 1, 0, 0])))).2).keyCount ksOk),
   ([3, 1, 0, 0]),
   (.evread (sealed ({ lane := laneControl, dst := 1, src := 2, typ := tySession, auth := true, len := 20, payload := [] } : Leat) ([3, 1, 0, 0]))),
   by decide +kernel, by decide +kernel, by decide +kernel, fst_is (by decide +kernel),
   openFrame_sealed zero_keys_whole (by decide +kernel) (by decide +kernel), by decide +kernel, by decide +kernel,
   by decide +kernel, by decide +kernel, by decide +kernel, by simp⟩

theorem test_witness_gate_requests_4_0 : ∃ s : State, ∃ f : Leat, ∃ k : Nat, ∃ v : State, ∃ w : State, ∃ y : State, ∃ pt : List Byte, ∃ c, ∃ its : List (List Byte),
    (s.takeInbox f.typ f.src f.payload : State).running .gate = true ∧ f.auth = true ∧
    (s.takeInbox f.typ f.src f.payload : State).sessionOf f = some k ∧
    (s.takeInbox f.typ f.src f.payload : State).askUse k (.openIn f) = (true, v) ∧ v.openFrame k f = (some pt, w) ∧
    (w.sess k).state = sOpen ∧
    (w.setSess k { (w.sess k).accept f.seq with lastReq := w.now } : State).charge k (f.len + 64) = (true, y) ∧
    requestOf f.typ f.lane pt = .items .read rtRead its ∧ (y.sess k).rights.testBit rtRead = true ∧
    c ∈ [Instr.openReceived f, .confirmReceived f, .abandonReceived f, .sessionRead f, .sessionWrite f, .sessionSub f, .sessionUnsub f,
    .sessionForce f, .sessionClose f, .evread f] :=
  ⟨({ (((((((State.reset.wr UnitId.gate.STATE stRun).wr UnitId.key.STATE stRun).wr R.GATE_TBASE.BASE 0x2000).putBytes 0x80000000 (zeros 16 ++ [0xFF, 0xFF, 0xFF, 0, 0, 0, 0, 0, 0xFF, 0xFF, 0xFF])).setKslot (State.reset.rd R.GATE_CFG.KSLOT) { kind := 3, parent := 0xFF, purpose := 3 }).setKsess 0 { valid := true }).setSess 0 { state := sOpen, node := 2, rights := 255, bucket := { tokens := 1000000000 } }) with gate.tenantBuckets := [(0, { tokens := 1000000000 })] } : State),
   (sealed ({ lane := laneEvent, dst := 1, src := 2, typ := tySession, auth := true, len := 28, payload := [] } : Leat) ([16, 1, 0, 0, 1, 0, 0, 0] ++ zeros 4)),
   0, _,
   ((((({ (((((((State.reset.wr UnitId.gate.STATE stRun).wr UnitId.key.STATE stRun).wr R.GATE_TBASE.BASE 0x2000).putBytes 0x80000000 (zeros 16 ++ [0xFF, 0xFF, 0xFF, 0, 0, 0, 0, 0, 0xFF, 0xFF, 0xFF])).setKslot (State.reset.rd R.GATE_CFG.KSLOT) { kind := 3, parent := 0xFF, purpose := 3 }).setKsess 0 { valid := true }).setSess 0 { state := sOpen, node := 2, rights := 255, bucket := { tokens := 1000000000 } }) with gate.tenantBuckets := [(0, { tokens := 1000000000 })] } : State).takeInbox (sealed ({ lane := laneEvent, dst := 1, src := 2, typ := tySession, auth := true, len := 28, payload := [] } : Leat) ([16, 1, 0, 0, 1, 0, 0, 0] ++ zeros 4)).typ (sealed ({ lane := laneEvent, dst := 1, src := 2, typ := tySession, auth := true, len := 28, payload := [] } : Leat) ([16, 1, 0, 0, 1, 0, 0, 0] ++ zeros 4)).src (sealed ({ lane := laneEvent, dst := 1, src := 2, typ := tySession, auth := true, len := 28, payload := [] } : Leat) ([16, 1, 0, 0, 1, 0, 0, 0] ++ zeros 4)).payload : State).askUse 0 (.openIn (sealed ({ lane := laneEvent, dst := 1, src := 2, typ := tySession, auth := true, len := 28, payload := [] } : Leat) ([16, 1, 0, 0, 1, 0, 0, 0] ++ zeros 4)))).2).keyCount ksOk),
   _, ([16, 1, 0, 0, 1, 0, 0, 0] ++ zeros 4),
   (.evread (sealed ({ lane := laneEvent, dst := 1, src := 2, typ := tySession, auth := true, len := 28, payload := [] } : Leat) ([16, 1, 0, 0, 1, 0, 0, 0] ++ zeros 4))),
   [zeros 4], by decide +kernel, by decide +kernel, by decide +kernel, fst_is (by decide +kernel),
   openFrame_sealed zero_keys_whole (by decide +kernel) (by decide +kernel), by decide +kernel, fst_is (by decide +kernel),
   by decide +kernel, by decide +kernel, by simp⟩

theorem test_witness_gate_requests_4_1 : ∃ s : State, ∃ f : Leat, ∃ k : Nat, ∃ v : State, ∃ w : State, ∃ y : State, ∃ pt : List Byte, ∃ c, ∃ its : List (List Byte),
    (s.takeInbox f.typ f.src f.payload : State).running .gate = true ∧ f.auth = true ∧
    (s.takeInbox f.typ f.src f.payload : State).sessionOf f = some k ∧
    (s.takeInbox f.typ f.src f.payload : State).askUse k (.openIn f) = (true, v) ∧ v.openFrame k f = (some pt, w) ∧
    (w.sess k).state = sOpen ∧
    (w.setSess k { (w.sess k).accept f.seq with lastReq := w.now } : State).charge k (f.len + 64) = (true, y) ∧
    requestOf f.typ f.lane pt = .items .write rtWrite its ∧ (y.sess k).rights.testBit rtWrite = true ∧
    c ∈ [Instr.openReceived f, .confirmReceived f, .abandonReceived f, .sessionRead f, .sessionWrite f, .sessionSub f, .sessionUnsub f,
    .sessionForce f, .sessionClose f, .evread f] :=
  ⟨({ (((((((State.reset.wr UnitId.gate.STATE stRun).wr UnitId.key.STATE stRun).wr R.GATE_TBASE.BASE 0x2000).putBytes 0x80000000 (zeros 16 ++ [0xFF, 0xFF, 0xFF, 0, 0, 0, 0, 0, 0xFF, 0xFF, 0xFF])).setKslot (State.reset.rd R.GATE_CFG.KSLOT) { kind := 3, parent := 0xFF, purpose := 3 }).setKsess 0 { valid := true }).setSess 0 { state := sOpen, node := 2, rights := 255, bucket := { tokens := 1000000000 } }) with gate.tenantBuckets := [(0, { tokens := 1000000000 })] } : State),
   (sealed ({ lane := laneControl, dst := 1, src := 2, typ := tySession, auth := true, len := 40, payload := [] } : Leat) ([18, 1, 0, 0, 1, 0, 0, 0] ++ zeros 16)),
   0, _,
   ((((({ (((((((State.reset.wr UnitId.gate.STATE stRun).wr UnitId.key.STATE stRun).wr R.GATE_TBASE.BASE 0x2000).putBytes 0x80000000 (zeros 16 ++ [0xFF, 0xFF, 0xFF, 0, 0, 0, 0, 0, 0xFF, 0xFF, 0xFF])).setKslot (State.reset.rd R.GATE_CFG.KSLOT) { kind := 3, parent := 0xFF, purpose := 3 }).setKsess 0 { valid := true }).setSess 0 { state := sOpen, node := 2, rights := 255, bucket := { tokens := 1000000000 } }) with gate.tenantBuckets := [(0, { tokens := 1000000000 })] } : State).takeInbox (sealed ({ lane := laneControl, dst := 1, src := 2, typ := tySession, auth := true, len := 40, payload := [] } : Leat) ([18, 1, 0, 0, 1, 0, 0, 0] ++ zeros 16)).typ (sealed ({ lane := laneControl, dst := 1, src := 2, typ := tySession, auth := true, len := 40, payload := [] } : Leat) ([18, 1, 0, 0, 1, 0, 0, 0] ++ zeros 16)).src (sealed ({ lane := laneControl, dst := 1, src := 2, typ := tySession, auth := true, len := 40, payload := [] } : Leat) ([18, 1, 0, 0, 1, 0, 0, 0] ++ zeros 16)).payload : State).askUse 0 (.openIn (sealed ({ lane := laneControl, dst := 1, src := 2, typ := tySession, auth := true, len := 40, payload := [] } : Leat) ([18, 1, 0, 0, 1, 0, 0, 0] ++ zeros 16)))).2).keyCount ksOk),
   _, ([18, 1, 0, 0, 1, 0, 0, 0] ++ zeros 16),
   (.evread (sealed ({ lane := laneControl, dst := 1, src := 2, typ := tySession, auth := true, len := 40, payload := [] } : Leat) ([18, 1, 0, 0, 1, 0, 0, 0] ++ zeros 16))),
   [zeros 16], by decide +kernel, by decide +kernel, by decide +kernel, fst_is (by decide +kernel),
   openFrame_sealed zero_keys_whole (by decide +kernel) (by decide +kernel), by decide +kernel, fst_is (by decide +kernel),
   by decide +kernel, by decide +kernel, by simp⟩

theorem test_witness_gate_requests_4_2 : ∃ s : State, ∃ f : Leat, ∃ k : Nat, ∃ v : State, ∃ w : State, ∃ y : State, ∃ pt : List Byte, ∃ c, ∃ per, ∃ its : List (List Byte),
    (s.takeInbox f.typ f.src f.payload : State).running .gate = true ∧ f.auth = true ∧
    (s.takeInbox f.typ f.src f.payload : State).sessionOf f = some k ∧
    (s.takeInbox f.typ f.src f.payload : State).askUse k (.openIn f) = (true, v) ∧ v.openFrame k f = (some pt, w) ∧
    (w.sess k).state = sOpen ∧
    (w.setSess k { (w.sess k).accept f.seq with lastReq := w.now } : State).charge k (f.len + 64) = (true, y) ∧
    requestOf f.typ f.lane pt = .items (.sub per) rtSub its ∧ (y.sess k).rights.testBit rtSub = true ∧
    c ∈ [Instr.openReceived f, .confirmReceived f, .abandonReceived f, .sessionRead f, .sessionWrite f, .sessionSub f, .sessionUnsub f,
    .sessionForce f, .sessionClose f, .evread f] :=
  ⟨({ (((((((State.reset.wr UnitId.gate.STATE stRun).wr UnitId.key.STATE stRun).wr R.GATE_TBASE.BASE 0x2000).putBytes 0x80000000 (zeros 16 ++ [0xFF, 0xFF, 0xFF, 0, 0, 0, 0, 0, 0xFF, 0xFF, 0xFF])).setKslot (State.reset.rd R.GATE_CFG.KSLOT) { kind := 3, parent := 0xFF, purpose := 3 }).setKsess 0 { valid := true }).setSess 0 { state := sOpen, node := 2, rights := 255, bucket := { tokens := 1000000000 } }) with gate.tenantBuckets := [(0, { tokens := 1000000000 })] } : State),
   (sealed ({ lane := laneEvent, dst := 1, src := 2, typ := tySession, auth := true, len := 28, payload := [] } : Leat) ([20, 1, 0, 0, 0x70, 0x17, 1, 0] ++ zeros 4)),
   0, _,
   ((((({ (((((((State.reset.wr UnitId.gate.STATE stRun).wr UnitId.key.STATE stRun).wr R.GATE_TBASE.BASE 0x2000).putBytes 0x80000000 (zeros 16 ++ [0xFF, 0xFF, 0xFF, 0, 0, 0, 0, 0, 0xFF, 0xFF, 0xFF])).setKslot (State.reset.rd R.GATE_CFG.KSLOT) { kind := 3, parent := 0xFF, purpose := 3 }).setKsess 0 { valid := true }).setSess 0 { state := sOpen, node := 2, rights := 255, bucket := { tokens := 1000000000 } }) with gate.tenantBuckets := [(0, { tokens := 1000000000 })] } : State).takeInbox (sealed ({ lane := laneEvent, dst := 1, src := 2, typ := tySession, auth := true, len := 28, payload := [] } : Leat) ([20, 1, 0, 0, 0x70, 0x17, 1, 0] ++ zeros 4)).typ (sealed ({ lane := laneEvent, dst := 1, src := 2, typ := tySession, auth := true, len := 28, payload := [] } : Leat) ([20, 1, 0, 0, 0x70, 0x17, 1, 0] ++ zeros 4)).src (sealed ({ lane := laneEvent, dst := 1, src := 2, typ := tySession, auth := true, len := 28, payload := [] } : Leat) ([20, 1, 0, 0, 0x70, 0x17, 1, 0] ++ zeros 4)).payload : State).askUse 0 (.openIn (sealed ({ lane := laneEvent, dst := 1, src := 2, typ := tySession, auth := true, len := 28, payload := [] } : Leat) ([20, 1, 0, 0, 0x70, 0x17, 1, 0] ++ zeros 4)))).2).keyCount ksOk),
   _, ([20, 1, 0, 0, 0x70, 0x17, 1, 0] ++ zeros 4),
   (.evread (sealed ({ lane := laneEvent, dst := 1, src := 2, typ := tySession, auth := true, len := 28, payload := [] } : Leat) ([20, 1, 0, 0, 0x70, 0x17, 1, 0] ++ zeros 4))),
   6000, [zeros 4], by decide +kernel, by decide +kernel, by decide +kernel, fst_is (by decide +kernel),
   openFrame_sealed zero_keys_whole (by decide +kernel) (by decide +kernel), by decide +kernel, fst_is (by decide +kernel),
   by decide +kernel, by decide +kernel, by simp⟩

theorem test_witness_gate_requests_4_3 : ∃ s : State, ∃ f : Leat, ∃ k : Nat, ∃ v : State, ∃ w : State, ∃ y : State, ∃ pt : List Byte, ∃ c, ∃ ids : List Nat,
    (s.takeInbox f.typ f.src f.payload : State).running .gate = true ∧ f.auth = true ∧
    (s.takeInbox f.typ f.src f.payload : State).sessionOf f = some k ∧
    (s.takeInbox f.typ f.src f.payload : State).askUse k (.openIn f) = (true, v) ∧ v.openFrame k f = (some pt, w) ∧
    (w.sess k).state = sOpen ∧
    (w.setSess k { (w.sess k).accept f.seq with lastReq := w.now } : State).charge k (f.len + 64) = (true, y) ∧
    requestOf f.typ f.lane pt = .unsub ids ∧ (y.sess k).rights.testBit rtSub = true ∧
    c ∈ [Instr.openReceived f, .confirmReceived f, .abandonReceived f, .sessionRead f, .sessionWrite f, .sessionSub f, .sessionUnsub f,
    .sessionForce f, .sessionClose f, .evread f] :=
  ⟨({ (((((((State.reset.wr UnitId.gate.STATE stRun).wr UnitId.key.STATE stRun).wr R.GATE_TBASE.BASE 0x2000).putBytes 0x80000000 (zeros 16 ++ [0xFF, 0xFF, 0xFF, 0, 0, 0, 0, 0, 0xFF, 0xFF, 0xFF])).setKslot (State.reset.rd R.GATE_CFG.KSLOT) { kind := 3, parent := 0xFF, purpose := 3 }).setKsess 0 { valid := true }).setSess 0 { state := sOpen, node := 2, rights := 255, bucket := { tokens := 1000000000 } }) with gate.tenantBuckets := [(0, { tokens := 1000000000 })] } : State),
   (sealed ({ lane := laneEvent, dst := 1, src := 2, typ := tySession, auth := true, len := 28, payload := [] } : Leat) ([22, 1, 0, 0, 0, 0, 1, 0] ++ zeros 4)),
   0, _,
   ((((({ (((((((State.reset.wr UnitId.gate.STATE stRun).wr UnitId.key.STATE stRun).wr R.GATE_TBASE.BASE 0x2000).putBytes 0x80000000 (zeros 16 ++ [0xFF, 0xFF, 0xFF, 0, 0, 0, 0, 0, 0xFF, 0xFF, 0xFF])).setKslot (State.reset.rd R.GATE_CFG.KSLOT) { kind := 3, parent := 0xFF, purpose := 3 }).setKsess 0 { valid := true }).setSess 0 { state := sOpen, node := 2, rights := 255, bucket := { tokens := 1000000000 } }) with gate.tenantBuckets := [(0, { tokens := 1000000000 })] } : State).takeInbox (sealed ({ lane := laneEvent, dst := 1, src := 2, typ := tySession, auth := true, len := 28, payload := [] } : Leat) ([22, 1, 0, 0, 0, 0, 1, 0] ++ zeros 4)).typ (sealed ({ lane := laneEvent, dst := 1, src := 2, typ := tySession, auth := true, len := 28, payload := [] } : Leat) ([22, 1, 0, 0, 0, 0, 1, 0] ++ zeros 4)).src (sealed ({ lane := laneEvent, dst := 1, src := 2, typ := tySession, auth := true, len := 28, payload := [] } : Leat) ([22, 1, 0, 0, 0, 0, 1, 0] ++ zeros 4)).payload : State).askUse 0 (.openIn (sealed ({ lane := laneEvent, dst := 1, src := 2, typ := tySession, auth := true, len := 28, payload := [] } : Leat) ([22, 1, 0, 0, 0, 0, 1, 0] ++ zeros 4)))).2).keyCount ksOk),
   _, ([22, 1, 0, 0, 0, 0, 1, 0] ++ zeros 4),
   (.evread (sealed ({ lane := laneEvent, dst := 1, src := 2, typ := tySession, auth := true, len := 28, payload := [] } : Leat) ([22, 1, 0, 0, 0, 0, 1, 0] ++ zeros 4))),
   [0], by decide +kernel, by decide +kernel, by decide +kernel, fst_is (by decide +kernel),
   openFrame_sealed zero_keys_whole (by decide +kernel) (by decide +kernel), by decide +kernel, fst_is (by decide +kernel),
   by decide +kernel, by decide +kernel, by simp⟩

theorem test_witness_gate_requests_4_4 : ∃ s : State, ∃ f : Leat, ∃ k : Nat, ∃ v : State, ∃ w : State, ∃ y : State, ∃ pt : List Byte, ∃ c, ∃ op, ∃ key, ∃ val : Nat,
    (s.takeInbox f.typ f.src f.payload : State).running .gate = true ∧ f.auth = true ∧
    (s.takeInbox f.typ f.src f.payload : State).sessionOf f = some k ∧
    (s.takeInbox f.typ f.src f.payload : State).askUse k (.openIn f) = (true, v) ∧ v.openFrame k f = (some pt, w) ∧
    (w.sess k).state = sOpen ∧
    (w.setSess k { (w.sess k).accept f.seq with lastReq := w.now } : State).charge k (f.len + 64) = (true, y) ∧
    requestOf f.typ f.lane pt = .force op key val ∧ (y.sess k).rights.testBit rtForce = true ∧
    c ∈ [Instr.openReceived f, .confirmReceived f, .abandonReceived f, .sessionRead f, .sessionWrite f, .sessionSub f, .sessionUnsub f,
    .sessionForce f, .sessionClose f, .evread f] :=
  ⟨({ (((((((State.reset.wr UnitId.gate.STATE stRun).wr UnitId.key.STATE stRun).wr R.GATE_TBASE.BASE 0x2000).putBytes 0x80000000 (zeros 16 ++ [0xFF, 0xFF, 0xFF, 0, 0, 0, 0, 0, 0xFF, 0xFF, 0xFF])).setKslot (State.reset.rd R.GATE_CFG.KSLOT) { kind := 3, parent := 0xFF, purpose := 3 }).setKsess 0 { valid := true }).setSess 0 { state := sOpen, node := 2, rights := 255, bucket := { tokens := 1000000000 } }) with gate.tenantBuckets := [(0, { tokens := 1000000000 })] } : State),
   (sealed ({ lane := laneControl, dst := 1, src := 2, typ := tySession, auth := true, len := 36, payload := [] } : Leat) ([24, 1, 0, 0, 3, 0, 0, 0] ++ zeros 12)),
   0, _,
   ((((({ (((((((State.reset.wr UnitId.gate.STATE stRun).wr UnitId.key.STATE stRun).wr R.GATE_TBASE.BASE 0x2000).putBytes 0x80000000 (zeros 16 ++ [0xFF, 0xFF, 0xFF, 0, 0, 0, 0, 0, 0xFF, 0xFF, 0xFF])).setKslot (State.reset.rd R.GATE_CFG.KSLOT) { kind := 3, parent := 0xFF, purpose := 3 }).setKsess 0 { valid := true }).setSess 0 { state := sOpen, node := 2, rights := 255, bucket := { tokens := 1000000000 } }) with gate.tenantBuckets := [(0, { tokens := 1000000000 })] } : State).takeInbox (sealed ({ lane := laneControl, dst := 1, src := 2, typ := tySession, auth := true, len := 36, payload := [] } : Leat) ([24, 1, 0, 0, 3, 0, 0, 0] ++ zeros 12)).typ (sealed ({ lane := laneControl, dst := 1, src := 2, typ := tySession, auth := true, len := 36, payload := [] } : Leat) ([24, 1, 0, 0, 3, 0, 0, 0] ++ zeros 12)).src (sealed ({ lane := laneControl, dst := 1, src := 2, typ := tySession, auth := true, len := 36, payload := [] } : Leat) ([24, 1, 0, 0, 3, 0, 0, 0] ++ zeros 12)).payload : State).askUse 0 (.openIn (sealed ({ lane := laneControl, dst := 1, src := 2, typ := tySession, auth := true, len := 36, payload := [] } : Leat) ([24, 1, 0, 0, 3, 0, 0, 0] ++ zeros 12)))).2).keyCount ksOk),
   _, ([24, 1, 0, 0, 3, 0, 0, 0] ++ zeros 12),
   (.evread (sealed ({ lane := laneControl, dst := 1, src := 2, typ := tySession, auth := true, len := 36, payload := [] } : Leat) ([24, 1, 0, 0, 3, 0, 0, 0] ++ zeros 12))),
   3, 0, 0, by decide +kernel, by decide +kernel, by decide +kernel, fst_is (by decide +kernel),
   openFrame_sealed zero_keys_whole (by decide +kernel) (by decide +kernel), by decide +kernel, fst_is (by decide +kernel),
   by decide +kernel, by decide +kernel, by simp⟩

theorem test_witness_gate_requests_4_5 : ∃ s : State, ∃ f : Leat, ∃ k : Nat, ∃ v : State, ∃ w : State, ∃ y : State, ∃ pt : List Byte, ∃ c,
    (s.takeInbox f.typ f.src f.payload : State).running .gate = true ∧ f.auth = true ∧
    (s.takeInbox f.typ f.src f.payload : State).sessionOf f = some k ∧
    (s.takeInbox f.typ f.src f.payload : State).askUse k (.openIn f) = (true, v) ∧ v.openFrame k f = (some pt, w) ∧
    (w.sess k).state = sOpen ∧
    (w.setSess k { (w.sess k).accept f.seq with lastReq := w.now } : State).charge k (f.len + 64) = (true, y) ∧
    requestOf f.typ f.lane pt = .close ∧
    c ∈ [Instr.openReceived f, .confirmReceived f, .abandonReceived f, .sessionRead f, .sessionWrite f, .sessionSub f, .sessionUnsub f,
    .sessionForce f, .sessionClose f, .evread f] :=
  ⟨({ (((((((State.reset.wr UnitId.gate.STATE stRun).wr UnitId.key.STATE stRun).wr R.GATE_TBASE.BASE 0x2000).putBytes 0x80000000 (zeros 16 ++ [0xFF, 0xFF, 0xFF, 0, 0, 0, 0, 0, 0xFF, 0xFF, 0xFF])).setKslot (State.reset.rd R.GATE_CFG.KSLOT) { kind := 3, parent := 0xFF, purpose := 3 }).setKsess 0 { valid := true }).setSess 0 { state := sOpen, node := 2, rights := 255, bucket := { tokens := 1000000000 } }) with gate.tenantBuckets := [(0, { tokens := 1000000000 })] } : State),
   (sealed ({ lane := laneControl, dst := 1, src := 2, typ := tySession, auth := true, len := 20, payload := [] } : Leat) ([30, 1, 0, 0])),
   0, _,
   ((((({ (((((((State.reset.wr UnitId.gate.STATE stRun).wr UnitId.key.STATE stRun).wr R.GATE_TBASE.BASE 0x2000).putBytes 0x80000000 (zeros 16 ++ [0xFF, 0xFF, 0xFF, 0, 0, 0, 0, 0, 0xFF, 0xFF, 0xFF])).setKslot (State.reset.rd R.GATE_CFG.KSLOT) { kind := 3, parent := 0xFF, purpose := 3 }).setKsess 0 { valid := true }).setSess 0 { state := sOpen, node := 2, rights := 255, bucket := { tokens := 1000000000 } }) with gate.tenantBuckets := [(0, { tokens := 1000000000 })] } : State).takeInbox (sealed ({ lane := laneControl, dst := 1, src := 2, typ := tySession, auth := true, len := 20, payload := [] } : Leat) ([30, 1, 0, 0])).typ (sealed ({ lane := laneControl, dst := 1, src := 2, typ := tySession, auth := true, len := 20, payload := [] } : Leat) ([30, 1, 0, 0])).src (sealed ({ lane := laneControl, dst := 1, src := 2, typ := tySession, auth := true, len := 20, payload := [] } : Leat) ([30, 1, 0, 0])).payload : State).askUse 0 (.openIn (sealed ({ lane := laneControl, dst := 1, src := 2, typ := tySession, auth := true, len := 20, payload := [] } : Leat) ([30, 1, 0, 0])))).2).keyCount ksOk),
   _, ([30, 1, 0, 0]),
   (.evread (sealed ({ lane := laneControl, dst := 1, src := 2, typ := tySession, auth := true, len := 20, payload := [] } : Leat) ([30, 1, 0, 0]))),
   by decide +kernel, by decide +kernel, by decide +kernel, fst_is (by decide +kernel),
   openFrame_sealed zero_keys_whole (by decide +kernel) (by decide +kernel), by decide +kernel, fst_is (by decide +kernel),
   by decide +kernel, by simp⟩

theorem test_witness_gate_requests_4_6 : ∃ s : State, ∃ f : Leat, ∃ k : Nat, ∃ v : State, ∃ w : State, ∃ y : State, ∃ pt : List Byte, ∃ c, ∃ a, ∃ n,
    (s.takeInbox f.typ f.src f.payload : State).running .gate = true ∧ f.auth = true ∧
    (s.takeInbox f.typ f.src f.payload : State).sessionOf f = some k ∧
    (s.takeInbox f.typ f.src f.payload : State).askUse k (.openIn f) = (true, v) ∧ v.openFrame k f = (some pt, w) ∧
    (w.sess k).state = sOpen ∧
    (w.setSess k { (w.sess k).accept f.seq with lastReq := w.now } : State).charge k (f.len + 64) = (true, y) ∧
    requestOf f.typ f.lane pt = .evread a n ∧ (y.sess k).rights.testBit rtEvent = true ∧
    c ∈ [Instr.openReceived f, .confirmReceived f, .abandonReceived f, .sessionRead f, .sessionWrite f, .sessionSub f, .sessionUnsub f,
    .sessionForce f, .sessionClose f, .evread f] :=
  ⟨({ (((((((State.reset.wr UnitId.gate.STATE stRun).wr UnitId.key.STATE stRun).wr R.GATE_TBASE.BASE 0x2000).putBytes 0x80000000 (zeros 16 ++ [0xFF, 0xFF, 0xFF, 0, 0, 0, 0, 0, 0xFF, 0xFF, 0xFF])).setKslot (State.reset.rd R.GATE_CFG.KSLOT) { kind := 3, parent := 0xFF, purpose := 3 }).setKsess 0 { valid := true }).setSess 0 { state := sOpen, node := 2, rights := 255, bucket := { tokens := 1000000000 } }) with gate.tenantBuckets := [(0, { tokens := 1000000000 })] } : State),
   (sealed ({ lane := laneEvent, dst := 1, src := 2, typ := tyEvent, auth := true, len := 32, payload := [] } : Leat) ([40, 1, 0, 0] ++ zeros 8 ++ [17, 0, 0, 0])),
   0, _,
   ((((({ (((((((State.reset.wr UnitId.gate.STATE stRun).wr UnitId.key.STATE stRun).wr R.GATE_TBASE.BASE 0x2000).putBytes 0x80000000 (zeros 16 ++ [0xFF, 0xFF, 0xFF, 0, 0, 0, 0, 0, 0xFF, 0xFF, 0xFF])).setKslot (State.reset.rd R.GATE_CFG.KSLOT) { kind := 3, parent := 0xFF, purpose := 3 }).setKsess 0 { valid := true }).setSess 0 { state := sOpen, node := 2, rights := 255, bucket := { tokens := 1000000000 } }) with gate.tenantBuckets := [(0, { tokens := 1000000000 })] } : State).takeInbox (sealed ({ lane := laneEvent, dst := 1, src := 2, typ := tyEvent, auth := true, len := 32, payload := [] } : Leat) ([40, 1, 0, 0] ++ zeros 8 ++ [17, 0, 0, 0])).typ (sealed ({ lane := laneEvent, dst := 1, src := 2, typ := tyEvent, auth := true, len := 32, payload := [] } : Leat) ([40, 1, 0, 0] ++ zeros 8 ++ [17, 0, 0, 0])).src (sealed ({ lane := laneEvent, dst := 1, src := 2, typ := tyEvent, auth := true, len := 32, payload := [] } : Leat) ([40, 1, 0, 0] ++ zeros 8 ++ [17, 0, 0, 0])).payload : State).askUse 0 (.openIn (sealed ({ lane := laneEvent, dst := 1, src := 2, typ := tyEvent, auth := true, len := 32, payload := [] } : Leat) ([40, 1, 0, 0] ++ zeros 8 ++ [17, 0, 0, 0])))).2).keyCount ksOk),
   _, ([40, 1, 0, 0] ++ zeros 8 ++ [17, 0, 0, 0]),
   (.evread (sealed ({ lane := laneEvent, dst := 1, src := 2, typ := tyEvent, auth := true, len := 32, payload := [] } : Leat) ([40, 1, 0, 0] ++ zeros 8 ++ [17, 0, 0, 0]))),
   0, 17, by decide +kernel, by decide +kernel, by decide +kernel, fst_is (by decide +kernel),
   openFrame_sealed zero_keys_whole (by decide +kernel) (by decide +kernel), by decide +kernel, fst_is (by decide +kernel),
   by decide +kernel, by decide +kernel, by simp⟩

theorem test_witness_gate_requests_5_0 : ∃ s : State, ∃ f : Leat, ∃ p : Nat,
    p < 5 ∧ (s.takeInbox f.typ f.src f.payload : State).running .gate = false :=
  ⟨State.reset, ({ lane := 0, dst := 1, src := 2, typ := 4, len := 0, payload := [] } : Leat), 4, by decide +kernel,
   by decide +kernel⟩

theorem test_witness_gate_requests_5_1 : ∃ s : State, ∃ f : Leat, ∃ p : Nat,
    p < 5 ∧ (s.takeInbox f.typ f.src f.payload : State).running .gate = true ∧ (f.auth = false ∨ f.payload.length ≠ 36) :=
  ⟨(State.reset.wr UnitId.gate.STATE stRun),
   ({ lane := 0, dst := 1, src := 2, typ := 4, len := 0, payload := [], auth := false } : Leat), 4, by decide +kernel,
   by decide +kernel, by decide +kernel⟩

theorem test_witness_gate_requests_5_2 : ∃ s : State, ∃ f : Leat, ∃ p : Nat,
    p < 5 ∧ (s.takeInbox f.typ f.src f.payload : State).running .gate = true ∧ f.auth = true ∧ f.payload.length = 36 ∧
    (s.takeInbox f.typ f.src f.payload : State).sessionOf f = none :=
  ⟨(State.reset.wr UnitId.gate.STATE stRun),
   ({ lane := 0, dst := 1, src := 2, typ := 5, auth := true, len := 36, payload := zeros 36 } : Leat), 4, by decide +kernel,
   by decide +kernel, by decide +kernel, by decide +kernel, by decide +kernel⟩

theorem test_witness_gate_requests_5_3 : ∃ s : State, ∃ f : Leat, ∃ p : Nat, ∃ k : Nat, ∃ v : State,
    p < 5 ∧ (s.takeInbox f.typ f.src f.payload : State).running .gate = true ∧ f.auth = true ∧ f.payload.length = 36 ∧
    (s.takeInbox f.typ f.src f.payload : State).sessionOf f = some k ∧
    (s.takeInbox f.typ f.src f.payload : State).askUse k (.quench p f) = (true, v) :=
  ⟨({ (((((State.reset.wr UnitId.gate.STATE stRun).wr UnitId.key.STATE stRun).setKslot (State.reset.rd R.GATE_CFG.KSLOT) { kind := 3, parent := 0xFF, purpose := 3 }).setKsess 0 { valid := true }).setSess 0 { state := sOpen, node := 2, rights := 255, bucket := { tokens := 1000000000 } }) with gate.tenantBuckets := [(0, { tokens := 1000000000 })] } : State),
   ({ lane := 0, dst := 1, src := 2, typ := 5, auth := true, len := 36, payload := zeros 36 } : Leat), 4, 0, _,
   by decide +kernel, by decide +kernel, by decide +kernel, by decide +kernel, by decide +kernel, fst_is (by decide +kernel)⟩

theorem test_witness_gate_requests_6_0 : ∃ s : State, ∃ f : Leat, ∃ k : Nat, ∃ v : State,
    (s.takeInbox f.typ f.src f.payload : State).running .gate = false :=
  ⟨State.reset, ({ lane := 0, dst := 1, src := 2, typ := 4, len := 0, payload := [] } : Leat), 0, State.reset, by decide +kernel⟩

theorem test_witness_gate_requests_6_1 : ∃ s : State, ∃ f : Leat, ∃ k : Nat, ∃ v : State,
    (s.takeInbox f.typ f.src f.payload : State).running .gate = true ∧ (f.auth = false ∨ f.typ ≠ tyAssistResult) :=
  ⟨(State.reset.wr UnitId.gate.STATE stRun),
   ({ lane := 0, dst := 1, src := 2, typ := 4, len := 0, payload := [], auth := false } : Leat), 0, State.reset,
   by decide +kernel, by decide +kernel⟩

theorem test_witness_gate_requests_6_2 : ∃ s : State, ∃ f : Leat, ∃ k : Nat, ∃ v : State,
    (s.takeInbox f.typ f.src f.payload : State).running .gate = true ∧ f.auth = true ∧ f.typ = tyAssistResult ∧
    (s.takeInbox f.typ f.src f.payload : State).sessionOf f = none :=
  ⟨(State.reset.wr UnitId.gate.STATE stRun),
   ({ lane := 0, dst := 1, src := 2, typ := tyAssistResult, len := 0, payload := [], auth := true } : Leat), 0, State.reset,
   by decide +kernel, by decide +kernel, by decide +kernel, by decide +kernel⟩

theorem test_witness_gate_requests_6_3 : ∃ s : State, ∃ f : Leat, ∃ k : Nat, ∃ v : State,
    (s.takeInbox f.typ f.src f.payload : State).running .gate = true ∧ f.auth = true ∧ f.typ = tyAssistResult ∧
    (s.takeInbox f.typ f.src f.payload : State).sessionOf f = some k ∧
    (s.takeInbox f.typ f.src f.payload : State).askUse k (.openIn f) = (false, v) :=
  ⟨((State.reset.wr UnitId.gate.STATE stRun).setSess 0 { state := sOpen, node := 2 }),
   ({ lane := laneControl, dst := 1, src := 2, typ := tyAssistResult, auth := true, len := 20, payload := [] } : Leat), 0, _,
   by decide +kernel, by decide +kernel, by decide +kernel, by decide +kernel, fst_is (by decide +kernel)⟩

theorem test_witness_gate_requests_6_4 : ∃ s : State, ∃ f : Leat, ∃ k : Nat, ∃ v : State, ∃ w : State, ∃ pt : List Byte, ∃ b : AsnBlock,
    (s.takeInbox f.typ f.src f.payload : State).running .gate = true ∧ f.auth = true ∧ f.typ = tyAssistResult ∧
    (s.takeInbox f.typ f.src f.payload : State).sessionOf f = some k ∧
    (s.takeInbox f.typ f.src f.payload : State).askUse k (.openIn f) = (true, v) ∧ v.openFrame k f = (some pt, w) ∧
    (w.sess k : Session).state = sOpen ∧ remoteBlock (numAt pt 0 1) = some b ∧
    (w.setSess k { (w.sess k : Session).accept f.seq with lastReq := w.now } : State).rd b.SRV_KIND = 2 ∧
    (w.sess k : Session).rights.testBit rtAssist = true ∧
    (w.setSess k { (w.sess k : Session).accept f.seq with lastReq := w.now } : State).assistSession b = some k :=
  ⟨((({ ((((((((State.reset.wr UnitId.gate.STATE stRun).wr AsnBlock.mtr.SRV_KIND 2).wr UnitId.key.STATE stRun).wr R.GATE_TBASE.BASE 0x2000).putBytes 0x80000000 (zeros 16 ++ [0xFF, 0xFF, 0xFF, 0, 0, 0, 0, 0, 0xFF, 0xFF, 0xFF])).setKslot (State.reset.rd R.GATE_CFG.KSLOT) { kind := 3, parent := 0xFF, purpose := 3 }).setKsess 0 { valid := true }).setSess 0 { state := sOpen, node := 2, rights := 255, bucket := { tokens := 1000000000 } }) with gate.tenantBuckets := [(0, { tokens := 1000000000 })] } : State).wr AsnBlock.mtr.SRV_KIND 2).wr AsnBlock.mtr.SRV_NODE 2),
   (sealed ({ lane := laneControl, dst := 1, src := 2, typ := tyAssistResult, auth := true, len := 24, payload := [] } : Leat) ([8] ++ zeros 7)),
   0, _,
   ((((((({ ((((((((State.reset.wr UnitId.gate.STATE stRun).wr AsnBlock.mtr.SRV_KIND 2).wr UnitId.key.STATE stRun).wr R.GATE_TBASE.BASE 0x2000).putBytes 0x80000000 (zeros 16 ++ [0xFF, 0xFF, 0xFF, 0, 0, 0, 0, 0, 0xFF, 0xFF, 0xFF])).setKslot (State.reset.rd R.GATE_CFG.KSLOT) { kind := 3, parent := 0xFF, purpose := 3 }).setKsess 0 { valid := true }).setSess 0 { state := sOpen, node := 2, rights := 255, bucket := { tokens := 1000000000 } }) with gate.tenantBuckets := [(0, { tokens := 1000000000 })] } : State).wr AsnBlock.mtr.SRV_KIND 2).wr AsnBlock.mtr.SRV_NODE 2).takeInbox (sealed ({ lane := laneControl, dst := 1, src := 2, typ := tyAssistResult, auth := true, len := 24, payload := [] } : Leat) ([8] ++ zeros 7)).typ (sealed ({ lane := laneControl, dst := 1, src := 2, typ := tyAssistResult, auth := true, len := 24, payload := [] } : Leat) ([8] ++ zeros 7)).src (sealed ({ lane := laneControl, dst := 1, src := 2, typ := tyAssistResult, auth := true, len := 24, payload := [] } : Leat) ([8] ++ zeros 7)).payload : State).askUse 0 (.openIn (sealed ({ lane := laneControl, dst := 1, src := 2, typ := tyAssistResult, auth := true, len := 24, payload := [] } : Leat) ([8] ++ zeros 7)))).2).keyCount ksOk),
   ([8] ++ zeros 7), AsnBlock.mtr, by decide +kernel, by decide +kernel, by decide +kernel, by decide +kernel,
   fst_is (by decide +kernel), openFrame_sealed zero_keys_whole (by decide +kernel) (by decide +kernel), by decide +kernel,
   by decide +kernel, by decide +kernel, by decide +kernel, by decide +kernel⟩

theorem test_witness_gate_requests_6_5 : ∃ s : State, ∃ f : Leat, ∃ k : Nat, ∃ v : State, ∃ w : State, ∃ pt : List Byte, ∃ b : AsnBlock,
    (s.takeInbox f.typ f.src f.payload : State).running .gate = true ∧ f.auth = true ∧ f.typ = tyAssistResult ∧
    (s.takeInbox f.typ f.src f.payload : State).sessionOf f = some k ∧
    (s.takeInbox f.typ f.src f.payload : State).askUse k (.openIn f) = (true, v) ∧ v.openFrame k f = (some pt, w) ∧
    (w.sess k : Session).state = sOpen ∧ remoteBlock (numAt pt 0 1) = some b ∧
    ((w.setSess k { (w.sess k : Session).accept f.seq with lastReq := w.now } : State).rd b.SRV_KIND ≠ 2 ∨ (w.sess k : Session).rights.testBit rtAssist = false ∨ (w.setSess k { (w.sess k : Session).accept f.seq with lastReq := w.now } : State).assistSession b ≠ some k) :=
  ⟨({ (((((((State.reset.wr UnitId.gate.STATE stRun).wr UnitId.key.STATE stRun).wr R.GATE_TBASE.BASE 0x2000).putBytes 0x80000000 (zeros 16 ++ [0xFF, 0xFF, 0xFF, 0, 0, 0, 0, 0, 0xFF, 0xFF, 0xFF])).setKslot (State.reset.rd R.GATE_CFG.KSLOT) { kind := 3, parent := 0xFF, purpose := 3 }).setKsess 0 { valid := true }).setSess 0 { state := sOpen, node := 2, rights := 255, bucket := { tokens := 1000000000 } }) with gate.tenantBuckets := [(0, { tokens := 1000000000 })] } : State),
   (sealed ({ lane := laneControl, dst := 1, src := 2, typ := tyAssistResult, auth := true, len := 24, payload := [] } : Leat) ([8] ++ zeros 7)),
   0, _,
   ((((({ (((((((State.reset.wr UnitId.gate.STATE stRun).wr UnitId.key.STATE stRun).wr R.GATE_TBASE.BASE 0x2000).putBytes 0x80000000 (zeros 16 ++ [0xFF, 0xFF, 0xFF, 0, 0, 0, 0, 0, 0xFF, 0xFF, 0xFF])).setKslot (State.reset.rd R.GATE_CFG.KSLOT) { kind := 3, parent := 0xFF, purpose := 3 }).setKsess 0 { valid := true }).setSess 0 { state := sOpen, node := 2, rights := 255, bucket := { tokens := 1000000000 } }) with gate.tenantBuckets := [(0, { tokens := 1000000000 })] } : State).takeInbox (sealed ({ lane := laneControl, dst := 1, src := 2, typ := tyAssistResult, auth := true, len := 24, payload := [] } : Leat) ([8] ++ zeros 7)).typ (sealed ({ lane := laneControl, dst := 1, src := 2, typ := tyAssistResult, auth := true, len := 24, payload := [] } : Leat) ([8] ++ zeros 7)).src (sealed ({ lane := laneControl, dst := 1, src := 2, typ := tyAssistResult, auth := true, len := 24, payload := [] } : Leat) ([8] ++ zeros 7)).payload : State).askUse 0 (.openIn (sealed ({ lane := laneControl, dst := 1, src := 2, typ := tyAssistResult, auth := true, len := 24, payload := [] } : Leat) ([8] ++ zeros 7)))).2).keyCount ksOk),
   ([8] ++ zeros 7), AsnBlock.mtr, by decide +kernel, by decide +kernel, by decide +kernel, by decide +kernel,
   fst_is (by decide +kernel), openFrame_sealed zero_keys_whole (by decide +kernel) (by decide +kernel), by decide +kernel,
   by decide +kernel, by decide +kernel⟩

/-! Witnesses of gate_timers_and_commands. -/

theorem test_witness_gate_timers_and_commands_0_0 : ∃ s : State, ∃ k,
    k < 512 ∧ (s.sess k).state = sPending :=
  ⟨(State.reset.setSess 511 { state := sPending }), 511, by decide +kernel, by decide +kernel⟩

theorem test_witness_gate_timers_and_commands_1_0 : ∃ s : State, ∃ k,
    k < 512 ∧ (s.sess k).state ≠ sPending :=
  ⟨State.reset, 511, by decide +kernel, by decide +kernel⟩

theorem test_witness_gate_timers_and_commands_2_0 : ∃ s : State, ∃ k : Nat,
    k < 512 ∧ (s.sess k).state = sOpen :=
  ⟨(State.reset.setSess 511 { state := sOpen }), 511, by decide +kernel, by decide +kernel⟩

theorem test_witness_gate_timers_and_commands_2_1 : ∃ s : State, ∃ k : Nat,
    k < 512 ∧ (s.sess k).state = sOpen :=
  ⟨(State.reset.setSess 511 { state := sOpen }), 511, by decide +kernel, by decide +kernel⟩

theorem test_witness_gate_timers_and_commands_3_0 : ∃ s : State, ∃ k,
    k < 512 ∧ (s.sess k).state ≠ sOpen :=
  ⟨State.reset, 511, by decide +kernel, by decide +kernel⟩

theorem test_witness_gate_timers_and_commands_5_0 : ∃ s : State, ∃ k,
    k < 512 ∧ (s.sess k).state = sExpired :=
  ⟨(State.reset.setSess 511 { state := sExpired }), 511, by decide +kernel, by decide +kernel⟩

theorem test_witness_gate_timers_and_commands_6_0 : ∃ s : State, ∃ k,
    k < 512 ∧ (s.sess k).state ≠ sExpired :=
  ⟨State.reset, 511, by decide +kernel, by decide +kernel⟩

theorem test_witness_gate_timers_and_commands_7_0 : ∃ s : State, ∃ t,
    t < 256 :=
  ⟨State.reset, 255, by decide +kernel⟩

theorem test_witness_gate_timers_and_commands_7_1 : ∃ s : State, ∃ t, ∃ a,
    t < 256 ∧ a ≠ R.GATE_TCMD.addr ∧ a ≠ R.GATE_INTSTAT.addr :=
  ⟨State.reset, 255, 0, by decide +kernel, by decide +kernel, by decide +kernel⟩

theorem test_witness_gate_timers_and_commands_8_0 : ∃ s : State, ∃ t,
    t < 256 :=
  ⟨State.reset, 255, by decide +kernel⟩

theorem test_witness_gate_timers_and_commands_9_0 : ∃ s : State,
    (s.sess (s.rd R.GATE_SADDR.SLOT)).state = sFree :=
  ⟨State.reset, by decide +kernel⟩

theorem test_witness_gate_timers_and_commands_9_1 : ∃ s : State,
    (s.sess (s.rd R.GATE_SADDR.SLOT)).state ≠ sFree ∧ s.gate.waits.any (·.slot == (s.rd R.GATE_SADDR.SLOT)) = true :=
  ⟨({ (State.reset.setSess 0 { state := sOpen }) with gate.waits := [{ slot := 0, typ := 8, lane := 2, reqid := 0, what := .read, masks := [], todo := [] }] } : State),
   by decide +kernel, by decide +kernel⟩

theorem test_witness_gate_timers_and_commands_9_2 : ∃ s : State,
    (s.sess (s.rd R.GATE_SADDR.SLOT)).state ≠ sFree ∧ s.gate.waits.any (·.slot == (s.rd R.GATE_SADDR.SLOT)) = false :=
  ⟨(State.reset.setSess 0 { state := sOpen }), by decide +kernel, by decide +kernel⟩

theorem test_witness_gate_timers_and_commands_10_0 : ∃ s : State, ∃ k,
    k < 512 ∧ (s.running .gate = false ∨ (s.sess k).state ≠ sOpen) :=
  ⟨State.reset, 511, by decide +kernel, by decide +kernel⟩

theorem test_witness_gate_timers_and_commands_11_0 : ∃ s : State, ∃ k : Nat, ∃ d : Nat, ∃ ds : List Nat,
    k < 512 ∧ s.running .gate = true ∧ (s.sess k).state = sOpen ∧ (s.gate.subs.filter (·.slot == k)).map (·.due) = d :: ds :=
  ⟨({ ((State.reset.wr UnitId.gate.STATE stRun).setSess 511 { state := sOpen }) with gate.subs := [{ slot := 511, id := 0, per := 1, due := 5 }] } : State),
   511, 5, [], by decide +kernel, by decide +kernel, by decide +kernel, by decide +kernel⟩

/-! Witnesses of loop_commands. -/

theorem test_witness_loop_commands_0_0 : ∃ s : State, ∃ n,
    n < 256 ∧ (s.loopMode n = lmOff ∨ (s.groupOf n).isSome = true) :=
  ⟨State.reset, 255, by decide +kernel, by decide +kernel⟩

theorem test_witness_loop_commands_1_0 : ∃ s : State, ∃ n : Nat,
    n < 256 ∧ s.loopMode n ≠ lmOff ∧ s.groupOf n = none ∧
    ((s.advanceMt ((if (s.loopX n).armed then (s.loopX n).nextDue else gridNext (s.loopPer n) (s.loopOfs n) s.mtNs) : Nat)).setLoopX n { s.loopX n with armed := true, nextDue := ((if (s.loopX n).armed then (s.loopX n).nextDue else gridNext (s.loopPer n) (s.loopOfs n) s.mtNs) : Nat) + s.loopPer n } : State).running .loop = false :=
  ⟨(State.reset.setLw 255 0 1), 255, by decide +kernel, by decide +kernel, by decide +kernel, by decide +kernel⟩

theorem test_witness_loop_commands_1_1 : ∃ s : State, ∃ n : Nat,
    n < 256 ∧ s.loopMode n ≠ lmOff ∧ s.groupOf n = none ∧
    ((s.advanceMt ((if (s.loopX n).armed then (s.loopX n).nextDue else gridNext (s.loopPer n) (s.loopOfs n) s.mtNs) : Nat)).setLoopX n { s.loopX n with armed := true, nextDue := ((if (s.loopX n).armed then (s.loopX n).nextDue else gridNext (s.loopPer n) (s.loopOfs n) s.mtNs) : Nat) + s.loopPer n } : State).running .loop = true ∧
    ((s.advanceMt ((if (s.loopX n).armed then (s.loopX n).nextDue else gridNext (s.loopPer n) (s.loopOfs n) s.mtNs) : Nat)).setLoopX n { s.loopX n with armed := true, nextDue := ((if (s.loopX n).armed then (s.loopX n).nextDue else gridNext (s.loopPer n) (s.loopOfs n) s.mtNs) : Nat) + s.loopPer n } : State).loopHeld = true :=
  ⟨((((State.reset.wr UnitId.loop.STATE stRun).setLw 255 0 1).wr R.SCH_STAT.HOLD 1).wr R.SCH_STAT.HOLDSRC 1), 255,
   by decide +kernel, by decide +kernel, by decide +kernel, by decide +kernel, by decide +kernel⟩

theorem test_witness_loop_commands_1_2 : ∃ s : State, ∃ n : Nat,
    n < 256 ∧ s.loopMode n ≠ lmOff ∧ s.groupOf n = none ∧
    ((s.advanceMt ((if (s.loopX n).armed then (s.loopX n).nextDue else gridNext (s.loopPer n) (s.loopOfs n) s.mtNs) : Nat)).setLoopX n { s.loopX n with armed := true, nextDue := ((if (s.loopX n).armed then (s.loopX n).nextDue else gridNext (s.loopPer n) (s.loopOfs n) s.mtNs) : Nat) + s.loopPer n } : State).running .loop = true ∧
    ((s.advanceMt ((if (s.loopX n).armed then (s.loopX n).nextDue else gridNext (s.loopPer n) (s.loopOfs n) s.mtNs) : Nat)).setLoopX n { s.loopX n with armed := true, nextDue := ((if (s.loopX n).armed then (s.loopX n).nextDue else gridNext (s.loopPer n) (s.loopOfs n) s.mtNs) : Nat) + s.loopPer n } : State).loopHeld = false ∧
    (s.loopX n).posted = false ∧
    (((s.advanceMt ((if (s.loopX n).armed then (s.loopX n).nextDue else gridNext (s.loopPer n) (s.loopOfs n) s.mtNs) : Nat)).setLoopX n { s.loopX n with armed := true, nextDue := ((if (s.loopX n).armed then (s.loopX n).nextDue else gridNext (s.loopPer n) (s.loopOfs n) s.mtNs) : Nat) + s.loopPer n } : State).loop.queue.any fun e => !e.group && e.n == n) = false :=
  ⟨((State.reset.wr UnitId.loop.STATE stRun).setLw 255 0 1), 255, by decide +kernel, by decide +kernel, by decide +kernel,
   by decide +kernel, by decide +kernel, by decide +kernel, by decide +kernel⟩

theorem test_witness_loop_commands_1_3 : ∃ s : State, ∃ n : Nat,
    n < 256 ∧ s.loopMode n ≠ lmOff ∧ s.groupOf n = none ∧
    ((s.advanceMt ((if (s.loopX n).armed then (s.loopX n).nextDue else gridNext (s.loopPer n) (s.loopOfs n) s.mtNs) : Nat)).setLoopX n { s.loopX n with armed := true, nextDue := ((if (s.loopX n).armed then (s.loopX n).nextDue else gridNext (s.loopPer n) (s.loopOfs n) s.mtNs) : Nat) + s.loopPer n } : State).running .loop = true ∧
    ((s.advanceMt ((if (s.loopX n).armed then (s.loopX n).nextDue else gridNext (s.loopPer n) (s.loopOfs n) s.mtNs) : Nat)).setLoopX n { s.loopX n with armed := true, nextDue := ((if (s.loopX n).armed then (s.loopX n).nextDue else gridNext (s.loopPer n) (s.loopOfs n) s.mtNs) : Nat) + s.loopPer n } : State).loopHeld = false ∧
    (((s.advanceMt ((if (s.loopX n).armed then (s.loopX n).nextDue else gridNext (s.loopPer n) (s.loopOfs n) s.mtNs) : Nat)).setLoopX n { s.loopX n with armed := true, nextDue := ((if (s.loopX n).armed then (s.loopX n).nextDue else gridNext (s.loopPer n) (s.loopOfs n) s.mtNs) : Nat) + s.loopPer n } : State).loopX n).posted = true ∧
    ((((s.advanceMt ((if (s.loopX n).armed then (s.loopX n).nextDue else gridNext (s.loopPer n) (s.loopOfs n) s.mtNs) : Nat)).setLoopX n { s.loopX n with armed := true, nextDue := ((if (s.loopX n).armed then (s.loopX n).nextDue else gridNext (s.loopPer n) (s.loopOfs n) s.mtNs) : Nat) + s.loopPer n } : State).loopMiss n).loopX n).posted = true ∧
    (s.loopX n).posted = true :=
  ⟨(((State.reset.wr UnitId.loop.STATE stRun).setLw 255 0 1).setLoopX 255 { posted := true }), 255, by decide +kernel,
   by decide +kernel, by decide +kernel, by decide +kernel, by decide +kernel, by decide +kernel, by decide +kernel,
   by decide +kernel⟩

theorem test_witness_loop_commands_2_0 : ∃ s : State, ∃ g,
    g < 32 ∧ (s.groupOn g = false ∨ ((s.members g).filter fun n => s.loopMode n != lmOff) = []) :=
  ⟨State.reset, 31, by decide +kernel, by decide +kernel⟩

theorem test_witness_loop_commands_3_0 : ∃ s : State, ∃ g : Nat,
    g < 32 ∧ s.groupOn g = true ∧ ((s.members g).filter fun n => s.loopMode n != lmOff) ≠ [] :=
  ⟨((State.reset.setLw 0 0 1).setGw 31 2 1), 31, by decide +kernel, by decide +kernel, by decide +kernel⟩

theorem test_witness_loop_commands_4_0 : ∃ s : State, ∃ d : LoopDue, ∃ rest : List LoopDue,
    s.loop.queue = d :: rest ∧ s.loopHeld = false ∧ s.running .loop = true ∧ d.group = false :=
  ⟨(({ State.reset with loop.queue := ({ at_ := 0, group := false, n := 0 } : LoopDue) :: [] } : State).wr UnitId.loop.STATE stRun),
   ({ at_ := 0, group := false, n := 0 } : LoopDue), [], by decide +kernel, by decide +kernel, by decide +kernel,
   by decide +kernel⟩

theorem test_witness_loop_commands_4_1 : ∃ s : State, ∃ d : LoopDue, ∃ rest : List LoopDue,
    s.loop.queue = d :: rest ∧ s.loopHeld = false ∧ s.running .loop = true ∧ d.group = true :=
  ⟨(({ State.reset with loop.queue := ({ at_ := 0, group := true, n := 0 } : LoopDue) :: [] } : State).wr UnitId.loop.STATE stRun),
   ({ at_ := 0, group := true, n := 0 } : LoopDue), [], by decide +kernel, by decide +kernel, by decide +kernel,
   by decide +kernel⟩

theorem test_witness_loop_commands_5_0 : ∃ s : State,
    (s.loop.queue = [] ∨ s.loopHeld = true ∨ s.running .loop = false) :=
  ⟨({ State.reset with loop.queue := [] } : State), by decide +kernel⟩

theorem test_witness_loop_commands_6_0 : ∃ s : State, ∃ v : Word,
    0x4100 ≤ s.rd R.LOOP_MADDR.WADDR :=
  ⟨(State.reset.wr R.LOOP_MADDR.WADDR 0x4100), (0 : Word), by decide +kernel⟩

theorem test_witness_loop_commands_7_0 : ∃ s : State, ∃ v : Word, ∃ n : Nat,
    n < 256 ∧ (0 : Nat) < 64 ∧ s.rd R.LOOP_MADDR.WADDR = 64 * n + (0 : Nat) :=
  ⟨(State.reset.wr R.LOOP_MADDR.WADDR (64 * 255 + (0 : Nat))), (0 : Word), 255, by decide +kernel, by decide +kernel,
   by decide +kernel⟩

theorem test_witness_loop_commands_7_1 : ∃ s : State, ∃ v : Word, ∃ n : Nat, ∃ j : Nat,
    n < 256 ∧ j < 64 ∧ s.rd R.LOOP_MADDR.WADDR = 64 * n + j ∧
    ((8 ≤ j ∧ j < 32) ∨ (32 ≤ j ∧ j ≤ 35 ∧ s.loopMode n = lmOff) ∨ (1 ≤ j ∧ j < 8 ∧ s.groupOf n = none ∧ s.loopMode n = lmOff) ∨ (1 ≤ j ∧ j < 8 ∧ s.groupOf n ≠ none ∧ s.rd UnitId.loop.STATE = stOff)) :=
  ⟨(State.reset.wr R.LOOP_MADDR.WADDR (64 * 255 + 31)), (0 : Word), 255, 31, by decide +kernel, by decide +kernel,
   by decide +kernel, by decide +kernel⟩

theorem test_witness_loop_commands_7_2 : ∃ s : State, ∃ v : Word, ∃ n : Nat,
    n < 256 ∧ (40 : Nat) < 64 ∧ s.rd R.LOOP_MADDR.WADDR = 64 * n + (40 : Nat) :=
  ⟨(State.reset.wr R.LOOP_MADDR.WADDR (64 * 255 + (40 : Nat))), (0 : Word), 255, by decide +kernel, by decide +kernel,
   by decide +kernel⟩

theorem test_witness_loop_commands_7_3 : ∃ s : State, ∃ v : Word, ∃ n : Nat, ∃ j : Nat,
    n < 256 ∧ j < 64 ∧ s.rd R.LOOP_MADDR.WADDR = 64 * n + j ∧
    ((35 < j ∧ j ≠ 40) ∨ (32 ≤ j ∧ j ≤ 35 ∧ s.loopMode n ≠ lmOff) ∨ (1 ≤ j ∧ j < 8 ∧ s.groupOf n = none ∧ s.loopMode n ≠ lmOff) ∨ (1 ≤ j ∧ j < 8 ∧ s.groupOf n ≠ none ∧ s.rd UnitId.loop.STATE ≠ stOff)) :=
  ⟨(State.reset.wr R.LOOP_MADDR.WADDR (64 * 255 + 36)), (0 : Word), 255, 36, by decide +kernel, by decide +kernel,
   by decide +kernel, by decide +kernel⟩

theorem test_witness_loop_commands_8_0 : ∃ s : State, ∃ v : Word, ∃ g : Nat, ∃ j : Nat,
    g < 32 ∧ j < 8 ∧ s.rd R.LOOP_MADDR.WADDR = 0x4000 + 8 * g + j ∧ s.rd UnitId.loop.STATE ≠ stOff ∧ s.rd R.UPD_PHASE.PHASE ≠ 5 :=
  ⟨(((State.reset.wr R.LOOP_MADDR.WADDR (0x4000 + 8 * 31 + 7)).wr UnitId.loop.STATE stRun).setLw 0 0 1), (0 : Word), 31, 7,
   by decide +kernel, by decide +kernel, by decide +kernel, by decide +kernel, by decide +kernel⟩

theorem test_witness_loop_commands_8_1 : ∃ s : State, ∃ v : Word, ∃ g : Nat, ∃ j : Nat,
    g < 32 ∧ j < 8 ∧ s.rd R.LOOP_MADDR.WADDR = 0x4000 + 8 * g + j ∧
    (s.rd UnitId.loop.STATE = stOff ∨ s.rd R.UPD_PHASE.PHASE = 5) ∧ j ≠ 2 ∧ j ≠ 4 ∧ j ≠ 7 :=
  ⟨(((State.reset.wr R.LOOP_MADDR.WADDR (0x4000 + 8 * 31 + 6)).wr UnitId.loop.STATE stOff).wr R.LOOP_MADDR.WADDR 0x40FE),
   (0 : Word), 31, 6, by decide +kernel, by decide +kernel, by decide +kernel, by decide +kernel, by decide +kernel,
   by decide +kernel, by decide +kernel⟩

theorem test_witness_loop_commands_8_2 : ∃ s : State, ∃ v : Word, ∃ g : Nat,
    g < 32 ∧ (2 : Nat) < 8 ∧ s.rd R.LOOP_MADDR.WADDR = 0x4000 + 8 * g + (2 : Nat) ∧
    (s.rd UnitId.loop.STATE = stOff ∨ s.rd R.UPD_PHASE.PHASE = 5) :=
  ⟨((State.reset.wr R.LOOP_MADDR.WADDR (0x4000 + 8 * 31 + (2 : Nat))).wr UnitId.loop.STATE stOff), (0 : Word), 31,
   by decide +kernel, by decide +kernel, by decide +kernel, by decide +kernel⟩

theorem test_witness_loop_commands_8_3 : ∃ s : State, ∃ v : Word, ∃ g : Nat,
    g < 32 ∧ (4 : Nat) < 8 ∧ s.rd R.LOOP_MADDR.WADDR = 0x4000 + 8 * g + (4 : Nat) ∧
    (s.rd UnitId.loop.STATE = stOff ∨ s.rd R.UPD_PHASE.PHASE = 5) :=
  ⟨((State.reset.wr R.LOOP_MADDR.WADDR (0x4000 + 8 * 31 + (4 : Nat))).wr UnitId.loop.STATE stOff), (0 : Word), 31,
   by decide +kernel, by decide +kernel, by decide +kernel, by decide +kernel⟩

/-! Witnesses of metering_rounds. -/

theorem test_witness_metering_rounds_0_0 : ∃ s : State, ∃ m : MtrInput,
    s.running .mtr = false :=
  ⟨State.reset, ({ samples := [] } : MtrInput), by decide +kernel⟩

theorem test_witness_metering_rounds_1_0 : ∃ s : State, ∃ m : MtrInput,
    s.running .mtr = true :=
  ⟨(State.reset.wr UnitId.mtr.STATE stRun), ({ samples := [] } : MtrInput), by decide +kernel⟩

theorem test_witness_metering_rounds_2_0 : ∃ s : State,
    s.running .mtr = true ∧ s.rd R.MTR_STAT.ZCSTATE ≠ zcFallback :=
  ⟨(State.reset.wr UnitId.mtr.STATE stRun), by decide +kernel, by decide +kernel⟩

theorem test_witness_metering_rounds_3_0 : ∃ s : State,
    s.rd R.MTR_STAT.ZCSTATE = zcFallback :=
  ⟨(State.reset.wr R.MTR_STAT.ZCSTATE zcFallback), by decide +kernel⟩

theorem test_witness_metering_rounds_4_0 : ∃ s : State,
    s.running .mtr = true ∧ s.rd R.MTR_STAT.ZCSTATE = zcFallback ∧ s.synthAt (s.mtr.fbCount + 1) ≤ s.mtr.fbSamples :=
  ⟨({ ((State.reset.wr UnitId.mtr.STATE stRun).wr R.MTR_STAT.ZCSTATE zcFallback) with mtr.fbSamples := 160 } : State),
   by decide +kernel, by decide +kernel, by decide +kernel⟩

theorem test_witness_metering_rounds_5_0 : ∃ s : State,
    (s.rd R.MTR_STAT.ZCSTATE ≠ zcFallback ∨ s.mtr.fbSamples < s.synthAt (s.mtr.fbCount + 1)) :=
  ⟨State.reset, by decide +kernel⟩

theorem test_witness_metering_rounds_6_0 : ∃ s : State,
    s.running .mtr = true :=
  ⟨(State.reset.wr UnitId.mtr.STATE stRun), by decide +kernel⟩

theorem test_witness_metering_rounds_7_0 : ∃ s : State,
    s.mtr.ckpt = none :=
  ⟨State.reset, by decide +kernel⟩

theorem test_witness_metering_rounds_8_0 : ∃ s : State, ∃ c : MtrCkpt,
    s.mtr.ckpt = some c ∧
    ((List.range 384).find? fun r => (SMap.get (fun _ => ({} : MtrReg)) c.regs r).bad || ((({ s with mtr := { s.mtr with ckpt := none } } : State).clear R.MTR_CKPT_CFG.BUSY : State).mreg r).bad) = none :=
  ⟨({ State.reset with mtr.ckpt := some ({ slot := 0, cseq := 0, mt := 0, regs := [] } : MtrCkpt) } : State),
   ({ slot := 0, cseq := 0, mt := 0, regs := [] } : MtrCkpt), by decide +kernel, by decide +kernel⟩

theorem test_witness_metering_rounds_9_0 : ∃ s : State, ∃ c : MtrCkpt, ∃ r : Nat,
    s.mtr.ckpt = some c ∧
    ((List.range 384).find? fun r => (SMap.get (fun _ => ({} : MtrReg)) c.regs r).bad || ((({ s with mtr := { s.mtr with ckpt := none } } : State).clear R.MTR_CKPT_CFG.BUSY : State).mreg r).bad) = some r :=
  ⟨({ ({ State.reset with mtr.ckpt := some ({ slot := 0, cseq := 0, mt := 0, regs := [(383, { bad := true })] } : MtrCkpt) } : State) with mtr.ckpt := some ({ slot := 0, cseq := 0, mt := 0, regs := [(383, { bad := true })] } : MtrCkpt) } : State),
   ({ slot := 0, cseq := 0, mt := 0, regs := [(383, { bad := true })] } : MtrCkpt), 383, by decide +kernel, by decide +kernel⟩

/-! Witnesses of metering_commands. -/

theorem test_witness_metering_commands_0_0 : ∃ s : State,
    s.on R.MTR_CMD.GO = true :=
  ⟨(State.reset.raise R.MTR_CMD.GO), by decide +kernel⟩

theorem test_witness_metering_commands_1_0 : ∃ s : State, ∃ n : Nat,
    n < 512 ∧ s.on R.MTR_CMD.GO = false ∧ ((s.wr R.MTR_CMD.OP 1).wr R.MTR_CMD.ARG n : State).running .mtr = false :=
  ⟨(State.reset.clear R.MTR_CMD.GO), 511, by decide +kernel, by decide +kernel, by decide +kernel⟩

theorem test_witness_metering_commands_1_1 : ∃ s : State, ∃ n : Nat,
    n < 512 ∧ s.on R.MTR_CMD.GO = false ∧ ((s.wr R.MTR_CMD.OP 1).wr R.MTR_CMD.ARG n : State).running .mtr = true ∧
    (n = 0 ∨ 12 < n) :=
  ⟨((State.reset.clear R.MTR_CMD.GO).wr UnitId.mtr.STATE stRun), 0, by decide +kernel, by decide +kernel, by decide +kernel,
   by decide +kernel⟩

theorem test_witness_metering_commands_1_2 : ∃ s : State, ∃ n : Nat,
    n < 512 ∧ s.on R.MTR_CMD.GO = false ∧ ((s.wr R.MTR_CMD.OP 1).wr R.MTR_CMD.ARG n : State).running .mtr = true ∧ 1 ≤ n ∧
    n ≤ 12 ∧ ((s.wr R.MTR_CMD.OP 1).wr R.MTR_CMD.ARG n : State).mtr.ckpt = none :=
  ⟨((State.reset.clear R.MTR_CMD.GO).wr UnitId.mtr.STATE stRun), 1, by decide +kernel, by decide +kernel, by decide +kernel,
   by decide +kernel, by decide +kernel, by decide +kernel⟩

theorem test_witness_metering_commands_1_3 : ∃ s : State, ∃ n : Nat,
    n < 512 ∧ s.on R.MTR_CMD.GO = false ∧ ((s.wr R.MTR_CMD.OP 1).wr R.MTR_CMD.ARG n : State).running .mtr = true ∧ 1 ≤ n ∧
    n ≤ 12 ∧ ((s.wr R.MTR_CMD.OP 1).wr R.MTR_CMD.ARG n : State).mtr.ckpt ≠ none :=
  ⟨({ ((State.reset.clear R.MTR_CMD.GO).wr UnitId.mtr.STATE stRun) with mtr.ckpt := some { slot := 0, cseq := 0, mt := 0, regs := [] } } : State),
   12, by decide +kernel, by decide +kernel, by decide +kernel, by decide +kernel, by decide +kernel, by decide +kernel⟩

theorem test_witness_metering_commands_2_0 : ∃ s : State,
    s.on R.MTR_CMD.GO = false ∧ ((s.wr R.MTR_CMD.OP 2).wr R.MTR_CMD.ARG (s.rd R.MTR_CMD.ARG) : State).mtrAwake = false :=
  ⟨((State.reset.clear R.MTR_CMD.GO).wr UnitId.mtr.STATE stDrain), by decide +kernel, by decide +kernel⟩

theorem test_witness_metering_commands_2_1 : ∃ s : State,
    s.on R.MTR_CMD.GO = false ∧ ((s.wr R.MTR_CMD.OP 2).wr R.MTR_CMD.ARG (s.rd R.MTR_CMD.ARG) : State).mtrAwake = true ∧
    ((s.wr R.MTR_CMD.OP 2).wr R.MTR_CMD.ARG (s.rd R.MTR_CMD.ARG) : State).mtr.ckpt = none :=
  ⟨(State.reset.clear R.MTR_CMD.GO), by decide +kernel, by decide +kernel, by decide +kernel⟩

theorem test_witness_metering_commands_2_2 : ∃ s : State,
    s.on R.MTR_CMD.GO = false ∧ ((s.wr R.MTR_CMD.OP 2).wr R.MTR_CMD.ARG (s.rd R.MTR_CMD.ARG) : State).mtrAwake = true ∧
    ((s.wr R.MTR_CMD.OP 2).wr R.MTR_CMD.ARG (s.rd R.MTR_CMD.ARG) : State).mtr.ckpt ≠ none :=
  ⟨({ (State.reset.clear R.MTR_CMD.GO) with mtr.ckpt := some { slot := 0, cseq := 0, mt := 0, regs := [] } } : State),
   by decide +kernel, by decide +kernel, by decide +kernel⟩

theorem test_witness_metering_commands_3_0 : ∃ s : State, ∃ n : Nat,
    n < 512 ∧ s.on R.MTR_CMD.GO = false ∧ ((s.wr R.MTR_CMD.OP 3).wr R.MTR_CMD.ARG n : State).mtrAwake = false :=
  ⟨((State.reset.clear R.MTR_CMD.GO).wr UnitId.mtr.STATE stDrain), 511, by decide +kernel, by decide +kernel, by decide +kernel⟩

theorem test_witness_metering_commands_3_1 : ∃ s : State, ∃ n : Nat,
    n < 512 ∧ s.on R.MTR_CMD.GO = false ∧ ((s.wr R.MTR_CMD.OP 3).wr R.MTR_CMD.ARG n : State).mtrAwake = true ∧ 383 < n :=
  ⟨(State.reset.clear R.MTR_CMD.GO), 384, by decide +kernel, by decide +kernel, by decide +kernel, by decide +kernel⟩

theorem test_witness_metering_commands_3_2 : ∃ s : State, ∃ n : Nat,
    n < 512 ∧ s.on R.MTR_CMD.GO = false ∧ ((s.wr R.MTR_CMD.OP 3).wr R.MTR_CMD.ARG n : State).mtrAwake = true ∧ n ≤ 383 ∧
    ((s.wr R.MTR_CMD.OP 3).wr R.MTR_CMD.ARG n : State).mtr.ckpt = none :=
  ⟨(State.reset.clear R.MTR_CMD.GO), 383, by decide +kernel, by decide +kernel, by decide +kernel, by decide +kernel,
   by decide +kernel⟩

theorem test_witness_metering_commands_3_3 : ∃ s : State, ∃ n : Nat,
    n < 512 ∧ s.on R.MTR_CMD.GO = false ∧ ((s.wr R.MTR_CMD.OP 3).wr R.MTR_CMD.ARG n : State).mtrAwake = true ∧ n ≤ 383 ∧
    ((s.wr R.MTR_CMD.OP 3).wr R.MTR_CMD.ARG n : State).mtr.ckpt ≠ none :=
  ⟨({ (State.reset.clear R.MTR_CMD.GO) with mtr.ckpt := some { slot := 0, cseq := 0, mt := 0, regs := [] } } : State), 383,
   by decide +kernel, by decide +kernel, by decide +kernel, by decide +kernel, by decide +kernel⟩

theorem test_witness_metering_commands_4_0 : ∃ s : State, ∃ n : Nat,
    n < 512 ∧ s.on R.MTR_CMD.GO = false ∧ ((s.wr R.MTR_CMD.OP 4).wr R.MTR_CMD.ARG n : State).running .mtr = false :=
  ⟨(State.reset.clear R.MTR_CMD.GO), 511, by decide +kernel, by decide +kernel, by decide +kernel⟩

theorem test_witness_metering_commands_4_1 : ∃ s : State, ∃ n : Nat,
    n < 512 ∧ s.on R.MTR_CMD.GO = false ∧ ((s.wr R.MTR_CMD.OP 4).wr R.MTR_CMD.ARG n : State).running .mtr = true ∧ 39 < n :=
  ⟨((State.reset.clear R.MTR_CMD.GO).wr UnitId.mtr.STATE stRun), 40, by decide +kernel, by decide +kernel, by decide +kernel,
   by decide +kernel⟩

theorem test_witness_metering_commands_4_2 : ∃ s : State, ∃ n : Nat,
    n < 512 ∧ s.on R.MTR_CMD.GO = false ∧ ((s.wr R.MTR_CMD.OP 4).wr R.MTR_CMD.ARG n : State).running .mtr = true ∧ n ≤ 39 ∧
    ((s.wr R.MTR_CMD.OP 4).wr R.MTR_CMD.ARG n : State).mtr.calPend ≠ none :=
  ⟨({ ((State.reset.clear R.MTR_CMD.GO).wr UnitId.mtr.STATE stRun) with mtr.calPend := some 1 } : State), 39,
   by decide +kernel, by decide +kernel, by decide +kernel, by decide +kernel, by decide +kernel⟩

theorem test_witness_metering_commands_4_3 : ∃ s : State, ∃ n : Nat,
    n < 512 ∧ s.on R.MTR_CMD.GO = false ∧ ((s.wr R.MTR_CMD.OP 4).wr R.MTR_CMD.ARG n : State).running .mtr = true ∧ n ≤ 39 ∧
    ((s.wr R.MTR_CMD.OP 4).wr R.MTR_CMD.ARG n : State).mtr.calPend = none ∧
    ((s.wr R.MTR_CMD.OP 4).wr R.MTR_CMD.ARG n : State).badChannel 40 = true :=
  ⟨((State.reset.clear R.MTR_CMD.GO).wr UnitId.mtr.STATE stRun), 39, by decide +kernel, by decide +kernel, by decide +kernel,
   by decide +kernel, by decide +kernel, by decide +kernel⟩

theorem test_witness_metering_commands_4_4 : ∃ s : State, ∃ n : Nat,
    n < 512 ∧ s.on R.MTR_CMD.GO = false ∧ ((s.wr R.MTR_CMD.OP 4).wr R.MTR_CMD.ARG n : State).running .mtr = true ∧ n ≤ 39 ∧
    ((s.wr R.MTR_CMD.OP 4).wr R.MTR_CMD.ARG n : State).mtr.calPend = none ∧
    ((s.wr R.MTR_CMD.OP 4).wr R.MTR_CMD.ARG n : State).badChannel 40 = false :=
  ⟨({ ((State.reset.clear R.MTR_CMD.GO).wr UnitId.mtr.STATE stRun) with mtr.mem := [(1281, 0x3F800000#32), (1284, 0x3F800000#32), (1285, 0x3F800001#32), (1286, 0x3F800002#32), (1287, 0x3F800003#32), (1288, 0x3F800004#32), (1289, 0x3F800005#32), (1290, 0x3F800006#32), (1292, 0x3F800000#32), (1293, 0x3F800000#32), (1294, 0x3F800000#32), (1295, 0x3F800000#32), (1296, 0x3F800000#32), (1297, 0x3F800000#32), (1298, 0x3F800000#32), (1299, 0x3F800000#32)] } : State),
   0, by decide +kernel, by decide +kernel, by decide +kernel, by decide +kernel, by decide +kernel, by decide +kernel⟩

theorem test_witness_metering_commands_5_1 : ∃ s : State, ∃ v : Word, ∃ a,
    s.mtrWritable (s.rd R.MTR_MADDR.WADDR) = true ∧ a ≠ R.MTR_MADDR.addr :=
  ⟨State.reset, (0 : Word), 0, by decide +kernel, by decide +kernel⟩

theorem test_witness_metering_commands_5_2 : ∃ s : State, ∃ v : Word,
    s.mtrWritable (s.rd R.MTR_MADDR.WADDR) = false :=
  ⟨(State.reset.wr R.MTR_MADDR.WADDR 0xFFF), (0 : Word), by decide +kernel⟩

theorem test_witness_metering_commands_5_3 : ∃ s : State, ∃ v : Word, ∃ a,
    s.mtrWritable (s.rd R.MTR_MADDR.WADDR) = false ∧ a ≠ R.MTR_MADDR.addr ∧ a ≠ R.MTR_INTSTAT.addr :=
  ⟨(State.reset.wr R.MTR_MADDR.WADDR 0xFFF), (0 : Word), 0, by decide +kernel, by decide +kernel, by decide +kernel⟩

/-! Witnesses of energy_register_exact. -/

theorem test_witness_energy_register_exact_0_0 : ∃ x : MtrReg, ∃ inc : Int,
    x.bad = true :=
  ⟨({ bad := true } : MtrReg), 0, by decide +kernel⟩

theorem test_witness_energy_register_exact_1_0 : ∃ x : MtrReg, ∃ inc : Int,
    x.bad = false ∧ x.count < 2 ^ 48 ∧ 0 ≤ x.resid ∧ x.resid < 2 ^ 32 :=
  ⟨({ bad := false, resid := 0 } : MtrReg), 0, by decide +kernel, by decide +kernel, by decide +kernel, by decide +kernel⟩

theorem test_witness_energy_register_exact_1_1 : ∃ x : MtrReg, ∃ inc : Int,
    x.bad = false ∧ x.count < 2 ^ 48 ∧ 0 ≤ x.resid ∧ x.resid < 2 ^ 32 ∧ (x.add false inc).2 = false :=
  ⟨({ bad := false, resid := 0 } : MtrReg), 0, by decide +kernel, by decide +kernel, by decide +kernel, by decide +kernel,
   by decide +kernel⟩

/-! Witnesses of inputs_and_counters. -/

theorem test_witness_inputs_and_counters_0_0 : ∃ s : State, ∃ l : BitVec 32,
    s.dio.edgeCycle ≠ s.ioCycle ∧ (∀ ch, (ch < 32) → (8 ≤ ch) → s.filterTime ch = 0) :=
  ⟨State.reset, (0 : BitVec 32), by decide +kernel, by decide +kernel⟩

theorem test_witness_inputs_and_counters_2_0 : ∃ s : State, ∃ ch : Nat,
    8 ≤ ch ∧ ch < 32 ∧ s.filterTime ch ≠ 0 ∧ s.dio.raw.getLsbD ch ≠ s.di ch :=
  ⟨({ (State.reset.wr (R.DIO_FLT.FLT 23) 1) with dio.raw := 0x80000000#32 } : State), 31, by decide +kernel, by decide +kernel,
   by decide +kernel, by decide +kernel⟩

theorem test_witness_inputs_and_counters_3_0 : ∃ s : State, ∃ ch,
    8 ≤ ch ∧ ch < 32 ∧ (s.filterTime ch = 0 ∨ s.dio.raw.getLsbD ch = s.di ch) :=
  ⟨State.reset, 31, by decide +kernel, by decide +kernel, by decide +kernel⟩

theorem test_witness_inputs_and_counters_4_0 : ∃ s : State, ∃ ch : Nat, ∃ v : Word,
    8 ≤ ch ∧ ch < 32 ∧
    ({ (s.wr (R.DIO_FLT.FLT (ch - 8)) ((R.DIO_FLT.FLT (ch - 8)).of v)).wr (R.DIO_FLT.FUNIT (ch - 8)) ((R.DIO_FLT.FUNIT (ch - 8)).of v) with dio := { s.dio with since := SMap.set (fun _ => 0) s.dio.since ch s.now } } : State).filterTime ch ≠ 0 :=
  ⟨State.reset, 31, 1, by decide +kernel, by decide +kernel, by decide +kernel⟩

theorem test_witness_inputs_and_counters_4_1 : ∃ s : State, ∃ ch : Nat, ∃ v : Word,
    8 ≤ ch ∧ ch < 32 ∧
    ({ (s.wr (R.DIO_FLT.FLT (ch - 8)) ((R.DIO_FLT.FLT (ch - 8)).of v)).wr (R.DIO_FLT.FUNIT (ch - 8)) ((R.DIO_FLT.FUNIT (ch - 8)).of v) with dio := { s.dio with since := SMap.set (fun _ => 0) s.dio.since ch s.now } } : State).filterTime ch = 0 :=
  ⟨State.reset, 8, (0 : Word), by decide +kernel, by decide +kernel, by decide +kernel⟩

theorem test_witness_inputs_and_counters_5_0 : ∃ s : State, ∃ k,
    k < 8 ∧ s.rd (R.DIO_CNT_CFG.MODE k) = cntOff :=
  ⟨(State.reset.wr (R.DIO_CNT_CFG.MODE 7) cntOff), 7, by decide +kernel, by decide +kernel⟩

theorem test_witness_inputs_and_counters_6_0 : ∃ s : State, ∃ k,
    k < 8 ∧ s.rd (R.DIO_CNT_CFG.MODE k) ≠ cntOff :=
  ⟨(State.reset.wr (R.DIO_CNT_CFG.MODE 7) 1), 7, by decide +kernel, by decide +kernel⟩

theorem test_witness_inputs_and_counters_7_0 : ∃ s : State, ∃ k,
    k < 8 ∧ (∀ up, (s.cnt k).step ≠ some (s.ioCycle, up)) :=
  ⟨State.reset, 7, by decide +kernel, by decide +kernel⟩

theorem test_witness_inputs_and_counters_7_1 : ∃ s : State, ∃ k, ∃ a,
    k < 8 ∧ (∀ up, (s.cnt k).step ≠ some (s.ioCycle, up)) ∧ a ≠ (R.DIO_CNT_VAL.VAL k).addr :=
  ⟨State.reset, 7, 0, by decide +kernel, by decide +kernel, by decide +kernel⟩

theorem test_witness_inputs_and_counters_7_2 : ∃ s : State, ∃ k,
    k < 8 ∧ (∀ up, (s.cnt k).step ≠ some (s.ioCycle, up)) :=
  ⟨State.reset, 7, by decide +kernel, by decide +kernel⟩

theorem test_witness_inputs_and_counters_7_3 : ∃ s : State, ∃ k, ∃ a,
    k < 8 ∧ (∀ up, (s.cnt k).step ≠ some (s.ioCycle, up)) ∧ a ≠ (R.DIO_CNT_VAL.VAL k).addr :=
  ⟨State.reset, 7, 0, by decide +kernel, by decide +kernel, by decide +kernel⟩

theorem test_witness_inputs_and_counters_8_0 : ∃ s : State, ∃ k : Nat, ∃ up : Bool,
    k < 8 ∧ (s.cnt k).step = some (s.ioCycle, up) :=
  ⟨(State.reset.setCnt 7 { step := some (1, true) }), 7, true, by decide +kernel, by decide +kernel⟩

theorem test_witness_inputs_and_counters_9_0 : ∃ s : State, ∃ k : Nat, ∃ v : Word,
    k < 8 ∧
    (((((s.wrIf ((R.DIO_CNT_CFG.MODE k).of v < 2 || ((R.DIO_CNT_CFG.MODE k).of v == 2 && k % 2 == 0)) (R.DIO_CNT_CFG.MODE k) ((R.DIO_CNT_CFG.MODE k).of v)).wrIf ((R.DIO_CNT_CFG.EDGE k).of v < 3) (R.DIO_CNT_CFG.EDGE k) ((R.DIO_CNT_CFG.EDGE k).of v)).wr (R.DIO_CNT_CFG.DIR k) ((R.DIO_CNT_CFG.DIR k).of v)).wrIf (1 ≤ (R.DIO_CNT_CFG.GATE_MS k).of v && (R.DIO_CNT_CFG.GATE_MS k).of v ≤ 1000) (R.DIO_CNT_CFG.GATE_MS k) ((R.DIO_CNT_CFG.GATE_MS k).of v)).wrIf (1 ≤ (R.DIO_CNT_CFG.ZERO k).of v) (R.DIO_CNT_CFG.ZERO k) ((R.DIO_CNT_CFG.ZERO k).of v) : State).rd (R.DIO_CNT_CFG.MODE k) = s.rd (R.DIO_CNT_CFG.MODE k) ∧
    (((((s.wrIf ((R.DIO_CNT_CFG.MODE k).of v < 2 || ((R.DIO_CNT_CFG.MODE k).of v == 2 && k % 2 == 0)) (R.DIO_CNT_CFG.MODE k) ((R.DIO_CNT_CFG.MODE k).of v)).wrIf ((R.DIO_CNT_CFG.EDGE k).of v < 3) (R.DIO_CNT_CFG.EDGE k) ((R.DIO_CNT_CFG.EDGE k).of v)).wr (R.DIO_CNT_CFG.DIR k) ((R.DIO_CNT_CFG.DIR k).of v)).wrIf (1 ≤ (R.DIO_CNT_CFG.GATE_MS k).of v && (R.DIO_CNT_CFG.GATE_MS k).of v ≤ 1000) (R.DIO_CNT_CFG.GATE_MS k) ((R.DIO_CNT_CFG.GATE_MS k).of v)).wrIf (1 ≤ (R.DIO_CNT_CFG.ZERO k).of v) (R.DIO_CNT_CFG.ZERO k) ((R.DIO_CNT_CFG.ZERO k).of v) : State).rd (R.DIO_CNT_CFG.GATE_MS k) = s.rd (R.DIO_CNT_CFG.GATE_MS k) :=
  ⟨((State.reset.wr (R.DIO_CNT_CFG.MODE 7) (State.reset.rd (R.DIO_CNT_CFG.MODE 7))).wr (R.DIO_CNT_CFG.GATE_MS 7) (State.reset.rd (R.DIO_CNT_CFG.GATE_MS 7))),
   7, (0 : Word), by decide +kernel, by decide +kernel, by decide +kernel⟩

theorem test_witness_inputs_and_counters_9_1 : ∃ s : State, ∃ k : Nat, ∃ v : Word,
    k < 8 ∧
    (((((s.wrIf ((R.DIO_CNT_CFG.MODE k).of v < 2 || ((R.DIO_CNT_CFG.MODE k).of v == 2 && k % 2 == 0)) (R.DIO_CNT_CFG.MODE k) ((R.DIO_CNT_CFG.MODE k).of v)).wrIf ((R.DIO_CNT_CFG.EDGE k).of v < 3) (R.DIO_CNT_CFG.EDGE k) ((R.DIO_CNT_CFG.EDGE k).of v)).wr (R.DIO_CNT_CFG.DIR k) ((R.DIO_CNT_CFG.DIR k).of v)).wrIf (1 ≤ (R.DIO_CNT_CFG.GATE_MS k).of v && (R.DIO_CNT_CFG.GATE_MS k).of v ≤ 1000) (R.DIO_CNT_CFG.GATE_MS k) ((R.DIO_CNT_CFG.GATE_MS k).of v)).wrIf (1 ≤ (R.DIO_CNT_CFG.ZERO k).of v) (R.DIO_CNT_CFG.ZERO k) ((R.DIO_CNT_CFG.ZERO k).of v) : State).rd (R.DIO_CNT_CFG.MODE k) = s.rd (R.DIO_CNT_CFG.MODE k) ∧
    (((((s.wrIf ((R.DIO_CNT_CFG.MODE k).of v < 2 || ((R.DIO_CNT_CFG.MODE k).of v == 2 && k % 2 == 0)) (R.DIO_CNT_CFG.MODE k) ((R.DIO_CNT_CFG.MODE k).of v)).wrIf ((R.DIO_CNT_CFG.EDGE k).of v < 3) (R.DIO_CNT_CFG.EDGE k) ((R.DIO_CNT_CFG.EDGE k).of v)).wr (R.DIO_CNT_CFG.DIR k) ((R.DIO_CNT_CFG.DIR k).of v)).wrIf (1 ≤ (R.DIO_CNT_CFG.GATE_MS k).of v && (R.DIO_CNT_CFG.GATE_MS k).of v ≤ 1000) (R.DIO_CNT_CFG.GATE_MS k) ((R.DIO_CNT_CFG.GATE_MS k).of v)).wrIf (1 ≤ (R.DIO_CNT_CFG.ZERO k).of v) (R.DIO_CNT_CFG.ZERO k) ((R.DIO_CNT_CFG.ZERO k).of v) : State).rd (R.DIO_CNT_CFG.GATE_MS k) ≠ s.rd (R.DIO_CNT_CFG.GATE_MS k) :=
  ⟨(State.reset.wr (R.DIO_CNT_CFG.MODE 7) (State.reset.rd (R.DIO_CNT_CFG.MODE 7))), 7,
   BitVec.ofNat 32 (3 * 2 ^ (R.DIO_CNT_CFG.GATE_MS 7).lo), by decide +kernel, by decide +kernel, by decide +kernel⟩

theorem test_witness_inputs_and_counters_9_2 : ∃ s : State, ∃ k : Nat, ∃ v : Word,
    k < 8 ∧
    (((((s.wrIf ((R.DIO_CNT_CFG.MODE k).of v < 2 || ((R.DIO_CNT_CFG.MODE k).of v == 2 && k % 2 == 0)) (R.DIO_CNT_CFG.MODE k) ((R.DIO_CNT_CFG.MODE k).of v)).wrIf ((R.DIO_CNT_CFG.EDGE k).of v < 3) (R.DIO_CNT_CFG.EDGE k) ((R.DIO_CNT_CFG.EDGE k).of v)).wr (R.DIO_CNT_CFG.DIR k) ((R.DIO_CNT_CFG.DIR k).of v)).wrIf (1 ≤ (R.DIO_CNT_CFG.GATE_MS k).of v && (R.DIO_CNT_CFG.GATE_MS k).of v ≤ 1000) (R.DIO_CNT_CFG.GATE_MS k) ((R.DIO_CNT_CFG.GATE_MS k).of v)).wrIf (1 ≤ (R.DIO_CNT_CFG.ZERO k).of v) (R.DIO_CNT_CFG.ZERO k) ((R.DIO_CNT_CFG.ZERO k).of v) : State).rd (R.DIO_CNT_CFG.MODE k) ≠ s.rd (R.DIO_CNT_CFG.MODE k) :=
  ⟨State.reset, 7, 1, by decide +kernel, by decide +kernel⟩

/-! Witnesses of outputs_and_field_supplies. -/

theorem test_witness_outputs_and_field_supplies_0_0 : ∃ s : State, ∃ o : OutCh,
    o.nameable = true ∧ o.ok = false :=
  ⟨State.reset, (OutCh.digital 31), by decide +kernel, by decide +kernel⟩

theorem test_witness_outputs_and_field_supplies_0_1 : ∃ s : State, ∃ o : OutCh,
    o.nameable = true ∧ o.ok = true ∧ s.on (fOUTACT o.isAnalog) = false :=
  ⟨(State.reset.clear (fOUTACT (OutCh.digital 23).isAnalog)), (OutCh.digital 23), by decide +kernel, by decide +kernel,
   by decide +kernel⟩

theorem test_witness_outputs_and_field_supplies_0_2 : ∃ s : State, ∃ o : OutCh,
    o.nameable = true ∧ o.ok = true ∧ s.on (fOUTACT o.isAnalog) = true :=
  ⟨(State.reset.raise (fOUTACT (OutCh.digital 23).isAnalog)), (OutCh.digital 23), by decide +kernel, by decide +kernel,
   by decide +kernel⟩

theorem test_witness_outputs_and_field_supplies_1_0 : ∃ s : State, ∃ o : OutCh,
    s.on (fOUTACT o.isAnalog) = false :=
  ⟨(State.reset.clear (fOUTACT (OutCh.digital 23).isAnalog)), (OutCh.digital 23), by decide +kernel⟩

theorem test_witness_outputs_and_field_supplies_3_0 : ∃ s : State, ∃ ch,
    24 ≤ ch ∧ ch < 32 :=
  ⟨State.reset, 24, by decide +kernel, by decide +kernel⟩

theorem test_witness_outputs_and_field_supplies_3_1 : ∃ s : State, ∃ ch,
    ch < 24 :=
  ⟨State.reset, 23, by decide +kernel⟩

theorem test_witness_outputs_and_field_supplies_4_0 : ∃ s : State, ∃ o : OutCh,
    o.nameable = true ∧ o.ok = false :=
  ⟨State.reset, (OutCh.digital 31), by decide +kernel, by decide +kernel⟩

theorem test_witness_outputs_and_field_supplies_4_1 : ∃ s : State, ∃ o : OutCh,
    o.nameable = true ∧ o.ok = true :=
  ⟨State.reset, (OutCh.digital 23), by decide +kernel, by decide +kernel⟩

theorem test_witness_outputs_and_field_supplies_5_1 : ∃ s : State, ∃ a : Bool,
    s.on (fOUTEN a) = true :=
  ⟨(State.reset.raise (fOUTEN false)), false, by decide +kernel⟩

theorem test_witness_outputs_and_field_supplies_5_2 : ∃ s : State, ∃ a : Bool,
    s.on (fOUTEN a) = false :=
  ⟨(State.reset.clear (fOUTEN false)), false, by decide +kernel⟩

theorem test_witness_outputs_and_field_supplies_6_0 : ∃ s : State, ∃ o : OutCh, ∃ b : Bool, ∃ v : Word,
    o.ok = true ∧ (o.isAnalog = true ∨ b = false) ∧ s.locked = true :=
  ⟨(State.reset.raise R.SYS_LOCK.LOCK), (OutCh.analog 7), false, (0 : Word), by decide +kernel, by decide +kernel,
   by decide +kernel⟩

theorem test_witness_outputs_and_field_supplies_7_0 : ∃ s : State, ∃ c : Nat, ∃ v : Word,
    c < 24 ∧ s.locked = false :=
  ⟨(State.reset.clear R.SYS_LOCK.LOCK), 23, (0 : Word), by decide +kernel, by decide +kernel⟩

theorem test_witness_outputs_and_field_supplies_8_0 : ∃ s : State, ∃ c : Nat, ∃ v : Word,
    c < 8 ∧ s.locked = false :=
  ⟨(State.reset.clear R.SYS_LOCK.LOCK), 7, (0 : Word), by decide +kernel, by decide +kernel⟩

theorem test_witness_outputs_and_field_supplies_9_0 : ∃ s : State, ∃ c : Nat, ∃ v : Word,
    c < 8 ∧ s.locked = false :=
  ⟨(State.reset.clear R.SYS_LOCK.LOCK), 7, (0 : Word), by decide +kernel, by decide +kernel⟩

theorem test_witness_outputs_and_field_supplies_10_0 : ∃ s : State, ∃ o : OutCh,
    o.ok = true ∧ s.rd o.FSTATE = fsLive ∧ s.on (fOUTACT o.isAnalog) = false ∧
    (((s.advance ((s.out o).toggleAt + ms * (s.out o).timing + Config.freeNat s.fresh % (ms * (s.out o).timing / 10 + 1))).taken : State).kickNext && ((s.advance ((s.out o).toggleAt + ms * (s.out o).timing + Config.freeNat s.fresh % (ms * (s.out o).timing / 10 + 1))).taken : State).on R.DIO_STAT.KASTOP && ((s.advance ((s.out o).toggleAt + ms * (s.out o).timing + Config.freeNat s.fresh % (ms * (s.out o).timing / 10 + 1))).taken : State).on (fOUTEN o.isAnalog)) = true :=
  ⟨({ ((((((State.reset.wr (OutCh.digital 23).FSTATE fsLive).clear (fOUTACT (OutCh.digital 23).isAnalog)).raise (fOUTEN (OutCh.digital 23).isAnalog)).wr (OutCh.digital 23).FSTATE fsLive).raise (fOUTEN false)).raise R.DIO_STAT.KASTOP) with pending := [.kick] } : State),
   (OutCh.digital 23), by decide +kernel, by decide +kernel, by decide +kernel, (restart_any _ _ _ _).trans (by decide +kernel)⟩

theorem test_witness_outputs_and_field_supplies_10_1 : ∃ s : State, ∃ o : OutCh,
    o.ok = true ∧ s.rd o.FSTATE = fsLive ∧ s.on (fOUTACT o.isAnalog) = false ∧
    (((s.advance ((s.out o).toggleAt + ms * (s.out o).timing + Config.freeNat s.fresh % (ms * (s.out o).timing / 10 + 1))).taken : State).kickNext && ((s.advance ((s.out o).toggleAt + ms * (s.out o).timing + Config.freeNat s.fresh % (ms * (s.out o).timing / 10 + 1))).taken : State).on R.DIO_STAT.KASTOP && ((s.advance ((s.out o).toggleAt + ms * (s.out o).timing + Config.freeNat s.fresh % (ms * (s.out o).timing / 10 + 1))).taken : State).on (fOUTEN o.isAnalog)) = false :=
  ⟨((((State.reset.wr (OutCh.digital 23).FSTATE fsLive).clear (fOUTACT (OutCh.digital 23).isAnalog)).clear (fOUTEN (OutCh.digital 23).isAnalog)).wr (OutCh.digital 23).FSTATE fsLive),
   (OutCh.digital 23), by decide +kernel, by decide +kernel, by decide +kernel, (restart_any _ _ _ _).trans (by decide +kernel)⟩

theorem test_witness_outputs_and_field_supplies_11_0 : ∃ s : State, ∃ o : OutCh,
    o.ok = true ∧ (s.rd o.FSTATE ≠ fsLive ∨ s.on (fOUTACT o.isAnalog) = true) :=
  ⟨State.reset, (.digital 23), by decide +kernel, by decide +kernel⟩

theorem test_witness_outputs_and_field_supplies_13_0 : ∃ s : State,
    s.rd R.DIO_KA_CFG.KICK_MS ≠ 0 ∧ s.on R.DIO_STAT.KASUSP = false ∧ s.on R.DIO_STAT.KASTOP = false ∧
    (s.advance (s.dio.kickFrom + ms * s.rd R.DIO_KA_CFG.KICK_MS) : State).kickNext = true :=
  ⟨({ (((State.reset.wr R.DIO_KA_CFG.KICK_MS 1).clear R.DIO_STAT.KASUSP).clear R.DIO_STAT.KASTOP) with pending := [.kick] } : State),
   by decide +kernel, by decide +kernel, by decide +kernel, by decide +kernel⟩

theorem test_witness_outputs_and_field_supplies_13_1 : ∃ s : State,
    s.rd R.DIO_KA_CFG.KICK_MS ≠ 0 ∧ s.on R.DIO_STAT.KASUSP = false ∧ s.on R.DIO_STAT.KASTOP = false ∧
    (s.advance (s.dio.kickFrom + ms * s.rd R.DIO_KA_CFG.KICK_MS) : State).kickNext = false :=
  ⟨(((State.reset.wr R.DIO_KA_CFG.KICK_MS 1).clear R.DIO_STAT.KASUSP).clear R.DIO_STAT.KASTOP), by decide +kernel,
   by decide +kernel, by decide +kernel, by decide +kernel⟩

theorem test_witness_outputs_and_field_supplies_14_0 : ∃ s : State,
    (s.rd R.DIO_KA_CFG.KICK_MS = 0 ∨ s.on R.DIO_STAT.KASUSP = true ∨ s.on R.DIO_STAT.KASTOP = true) :=
  ⟨(State.reset.wr R.DIO_KA_CFG.KICK_MS 0), by decide +kernel⟩

theorem test_witness_outputs_and_field_supplies_15_0 : ∃ s : State, ∃ v : Word,
    (s.locked = true ∨ 1000 < R.DIO_KA_CFG.KICK_MS.of v) :=
  ⟨(State.reset.raise R.SYS_LOCK.LOCK), (0 : Word), by decide +kernel⟩

theorem test_witness_outputs_and_field_supplies_15_1 : ∃ s : State, ∃ v : Word,
    s.locked = false ∧ R.DIO_KA_CFG.KICK_MS.of v ≤ 1000 :=
  ⟨(State.reset.clear R.SYS_LOCK.LOCK), (0 : Word), by decide +kernel, by decide +kernel⟩

theorem test_witness_outputs_and_field_supplies_15_2 : ∃ s : State, ∃ v : Word, ∃ a,
    s.locked = false ∧ R.DIO_KA_CFG.KICK_MS.of v ≤ 1000 ∧ a ≠ R.DIO_KA_CFG.addr :=
  ⟨(State.reset.clear R.SYS_LOCK.LOCK), (0 : Word), 0, by decide +kernel, by decide +kernel, by decide +kernel⟩

theorem test_witness_outputs_and_field_supplies_16_0 : ∃ s : State, ∃ ch,
    ch < 24 ∧ (s.rd (R.DIO_DO_STAT.FSTATE ch) = fsNosupply ∨ s.on (R.DIO_DO_STAT.OC ch) = true) :=
  ⟨(State.reset.wr (R.DIO_DO_STAT.FSTATE 23) fsNosupply), 23, by decide +kernel, by decide +kernel⟩

theorem test_witness_outputs_and_field_supplies_17_0 : ∃ s : State, ∃ ch,
    ch < 24 ∧ s.rd (R.DIO_DO_STAT.FSTATE ch) ≠ fsNosupply ∧ s.on (R.DIO_DO_STAT.OC ch) = false :=
  ⟨((State.reset.clear (R.DIO_DO_STAT.OC 23)).wr (R.DIO_DO_STAT.FSTATE 23) fsLive), 23, by decide +kernel, by decide +kernel,
   by decide +kernel⟩

theorem test_witness_outputs_and_field_supplies_18_0 : ∃ s : State, ∃ ch,
    ch < 8 ∧ s.rd (R.AIO_AO_STAT.FSTATE ch) = fsNosupply :=
  ⟨(State.reset.wr (R.AIO_AO_STAT.FSTATE 7) fsNosupply), 7, by decide +kernel, by decide +kernel⟩

theorem test_witness_outputs_and_field_supplies_18_1 : ∃ s : State, ∃ ch,
    ch < 8 ∧ s.rd (R.AIO_AO_STAT.FSTATE ch) ≠ fsNosupply :=
  ⟨(State.reset.wr (R.AIO_AO_STAT.FSTATE 7) fsLive), 7, by decide +kernel, by decide +kernel⟩

theorem test_witness_outputs_and_field_supplies_19_0 : ∃ s : State, ∃ g,
    1 ≤ g ∧ g ≤ 4 ∧ s.supplied g = false :=
  ⟨State.reset, 1, by decide +kernel, by decide +kernel, by decide +kernel⟩

theorem test_witness_outputs_and_field_supplies_19_1 : ∃ s : State, ∃ g,
    1 ≤ g ∧ g ≤ 4 ∧ s.supplied g = true :=
  ⟨(State.reset.wr (R.AIO_AO_STAT.FSTATE 7) fsLive), 4, by decide +kernel, by decide +kernel, by decide +kernel⟩

theorem test_witness_outputs_and_field_supplies_20_0 : ∃ s : State, ∃ g : Nat,
    1 ≤ g ∧ g ≤ 4 ∧ s.supplied g = true :=
  ⟨(State.reset.wr (R.AIO_AO_STAT.FSTATE 7) fsLive), 4, by decide +kernel, by decide +kernel, by decide +kernel⟩

theorem test_witness_outputs_and_field_supplies_21_0 : ∃ s : State, ∃ g : Nat, ∃ v : State,
    1 ≤ g ∧ g ≤ 4 ∧ s.supplied g = false ∧
    v = (((s.raise (fsOk g)).each (groupOuts g) (fun v o => (v.setFst o fsDefault).drive o) : State).raise (if g = 4 then R.AIO_INTSTAT.FSRET else R.DIO_INTSTAT.FSRET)).event 0x0903 (unit := g) ∧
    v.on (fOUTEN (g = 4)) = false :=
  ⟨(State.reset.clear (fOUTEN (4 = 4))), 4, _, by decide +kernel, by decide +kernel, by decide +kernel, rfl, by decide +kernel⟩

theorem test_witness_outputs_and_field_supplies_21_1 : ∃ s : State, ∃ g : Nat, ∃ v : State,
    1 ≤ g ∧ g ≤ 4 ∧ s.supplied g = false ∧
    v = (((s.raise (fsOk g)).each (groupOuts g) (fun v o => (v.setFst o fsDefault).drive o) : State).raise (if g = 4 then R.AIO_INTSTAT.FSRET else R.DIO_INTSTAT.FSRET)).event 0x0903 (unit := g) ∧
    v.on (fOUTEN (g = 4)) = true :=
  ⟨(State.reset.raise (fOUTEN (4 = 4))), 4, _, by decide +kernel, by decide +kernel, by decide +kernel, rfl, by decide +kernel⟩

/-! Witnesses of reflex_rules. -/

theorem test_witness_reflex_rules_0_0 : ∃ s : State, ∃ w : Nat, ∃ v : Word,
    w < 2 :=
  ⟨State.reset, 1, (0 : Word), by decide +kernel⟩

theorem test_witness_reflex_rules_1_0 : ∃ s : State, ∃ w : Nat, ∃ v : Word,
    w < 2 :=
  ⟨State.reset, 1, (0 : Word), by decide +kernel⟩

theorem test_witness_reflex_rules_1_1 : ∃ s : State, ∃ w : Nat, ∃ v : Word, ∃ a,
    w < 2 ∧ a ≠ R.DIO_RFX_ARM.addr w :=
  ⟨State.reset, 1, (0 : Word), 0, by decide +kernel, by decide +kernel⟩

theorem test_witness_reflex_rules_2_1 : ∃ s : State,
    s.on R.DIO_CTRL.RFXEN = true :=
  ⟨(State.reset.raise R.DIO_CTRL.RFXEN), by decide +kernel⟩

theorem test_witness_reflex_rules_2_2 : ∃ s : State,
    s.on R.DIO_CTRL.RFXEN = false :=
  ⟨(State.reset.clear R.DIO_CTRL.RFXEN), by decide +kernel⟩

theorem test_witness_reflex_rules_3_0 : ∃ s : State, ∃ r : Nat, ∃ v : Word, ∃ w,
    r < 64 ∧ s.rfxArmed r = true ∧ w < 2 :=
  ⟨(State.reset.setBit (R.DIO_RFX_ARM.ARM 1) 31 true), 63, (0 : Word), 1, by decide +kernel, by decide +kernel,
   by decide +kernel⟩

theorem test_witness_reflex_rules_3_1 : ∃ s : State, ∃ r : Nat, ∃ v : Word,
    r < 64 ∧ s.rfxArmed r = false :=
  ⟨State.reset, 63, (0 : Word), by decide +kernel, by decide +kernel⟩

theorem test_witness_reflex_rules_4_0 : ∃ s : State, ∃ c,
    c < 8 ∧ s.pulse c = none :=
  ⟨State.reset, 7, by decide +kernel, by decide +kernel⟩

theorem test_witness_reflex_rules_4_1 : ∃ s : State, ∃ c, ∃ i : Nat,
    c < 8 ∧ s.pulse c = some i ∧ (s.advance i : State).bit R.DIO_DO_FMASK.FMASK c = true :=
  ⟨((State.reset.setPulse 7 (some 5)).setBit R.DIO_DO_FMASK.FMASK 7 true), 7, 5, by decide +kernel, by decide +kernel,
   by decide +kernel⟩

theorem test_witness_reflex_rules_4_2 : ∃ s : State, ∃ c, ∃ i : Nat,
    c < 8 ∧ s.pulse c = some i ∧ (s.advance i : State).bit R.DIO_DO_FMASK.FMASK c = false :=
  ⟨(State.reset.setPulse 7 (some 5)), 7, 5, by decide +kernel, by decide +kernel, by decide +kernel⟩

/-! Witnesses of analog_inputs. -/

theorem test_witness_analog_inputs_0_0 : ∃ s : State, ∃ c : Nat, ∃ r : AiResult,
    c < 8 ∧ r.code < 65536 ∧ s.on (R.AIO_AI_CFG.EN c) = false :=
  ⟨(State.reset.clear (R.AIO_AI_CFG.EN 7)), 7, ({ code := 65535 } : AiResult), by decide +kernel, by decide +kernel,
   by decide +kernel⟩

theorem test_witness_analog_inputs_1_0 : ∃ s : State, ∃ c : Nat, ∃ r : AiResult,
    c < 8 ∧ r.code < 65536 ∧ s.on (R.AIO_AI_CFG.EN c) = true ∧
    (faultOf ((s.advance ((s.ai c).convStart + convTime (s.rd (R.AIO_AI_CFG.CONV c))) : State).rd (R.AIO_AI_CFG.RANGE c) : Nat) r ((s.advance ((s.ai c).convStart + convTime (s.rd (R.AIO_AI_CFG.CONV c))) : State).on (R.AIO_AI_CFG.WBDIS c)) (s.advance ((s.ai c).convStart + convTime (s.rd (R.AIO_AI_CFG.CONV c))) : State).fresh : Nat) = 0 ∧
    (s.advance ((s.ai c).convStart + convTime (s.rd (R.AIO_AI_CFG.CONV c))) : State).bit R.AIO_STAT.AIFAULT c = false :=
  ⟨(State.reset.raise (R.AIO_AI_CFG.EN 7)), 7, { code := 30000 }, by decide +kernel, by decide +kernel, by decide +kernel,
   by decide +kernel, by decide +kernel⟩

theorem test_witness_analog_inputs_1_1 : ∃ s : State, ∃ c : Nat, ∃ r : AiResult,
    c < 8 ∧ r.code < 65536 ∧ s.on (R.AIO_AI_CFG.EN c) = true ∧
    (faultOf ((s.advance ((s.ai c).convStart + convTime (s.rd (R.AIO_AI_CFG.CONV c))) : State).rd (R.AIO_AI_CFG.RANGE c) : Nat) r ((s.advance ((s.ai c).convStart + convTime (s.rd (R.AIO_AI_CFG.CONV c))) : State).on (R.AIO_AI_CFG.WBDIS c)) (s.advance ((s.ai c).convStart + convTime (s.rd (R.AIO_AI_CFG.CONV c))) : State).fresh : Nat) ≠ 0 ∧
    (s.advance ((s.ai c).convStart + convTime (s.rd (R.AIO_AI_CFG.CONV c))) : State).bit R.AIO_STAT.AIFAULT c = false :=
  ⟨(State.reset.raise (R.AIO_AI_CFG.EN 7)), 7, ({ code := 65535 } : AiResult), by decide +kernel, by decide +kernel,
   by decide +kernel, by decide +kernel, by decide +kernel⟩

theorem test_witness_analog_inputs_1_2 : ∃ s : State, ∃ c : Nat, ∃ r : AiResult,
    c < 8 ∧ r.code < 65536 ∧ s.on (R.AIO_AI_CFG.EN c) = true ∧
    (faultOf ((s.advance ((s.ai c).convStart + convTime (s.rd (R.AIO_AI_CFG.CONV c))) : State).rd (R.AIO_AI_CFG.RANGE c) : Nat) r ((s.advance ((s.ai c).convStart + convTime (s.rd (R.AIO_AI_CFG.CONV c))) : State).on (R.AIO_AI_CFG.WBDIS c)) (s.advance ((s.ai c).convStart + convTime (s.rd (R.AIO_AI_CFG.CONV c))) : State).fresh : Nat) = 0 ∧
    (s.advance ((s.ai c).convStart + convTime (s.rd (R.AIO_AI_CFG.CONV c))) : State).bit R.AIO_STAT.AIFAULT c = true :=
  ⟨((State.reset.raise (R.AIO_AI_CFG.EN 7)).setBit R.AIO_STAT.AIFAULT 7 true), 7, { code := 30000 }, by decide +kernel,
   by decide +kernel, by decide +kernel, by decide +kernel, by decide +kernel⟩

theorem test_witness_analog_inputs_1_3 : ∃ s : State, ∃ c : Nat, ∃ r : AiResult,
    c < 8 ∧ r.code < 65536 ∧ s.on (R.AIO_AI_CFG.EN c) = true ∧
    (faultOf ((s.advance ((s.ai c).convStart + convTime (s.rd (R.AIO_AI_CFG.CONV c))) : State).rd (R.AIO_AI_CFG.RANGE c) : Nat) r ((s.advance ((s.ai c).convStart + convTime (s.rd (R.AIO_AI_CFG.CONV c))) : State).on (R.AIO_AI_CFG.WBDIS c)) (s.advance ((s.ai c).convStart + convTime (s.rd (R.AIO_AI_CFG.CONV c))) : State).fresh : Nat) ≠ 0 ∧
    (s.advance ((s.ai c).convStart + convTime (s.rd (R.AIO_AI_CFG.CONV c))) : State).bit R.AIO_STAT.AIFAULT c = true :=
  ⟨((State.reset.raise (R.AIO_AI_CFG.EN 7)).setBit R.AIO_STAT.AIFAULT 7 true), 7, ({ code := 65535 } : AiResult),
   by decide +kernel, by decide +kernel, by decide +kernel, by decide +kernel, by decide +kernel⟩

theorem test_witness_analog_inputs_2_0 : ∃ s : State, ∃ c : Nat, ∃ v : Word,
    c < 8 ∧ s.reg (R.AIO_AI_CFG.addr c) &&& 0x1F#32 = v &&& 0x1F#32 :=
  ⟨State.reset, 7, (0 : Word), by decide +kernel, by decide +kernel⟩

theorem test_witness_analog_inputs_2_1 : ∃ s : State, ∃ c : Nat, ∃ v : Word,
    c < 8 ∧ s.reg (R.AIO_AI_CFG.addr c) &&& 0x1F#32 ≠ v &&& 0x1F#32 :=
  ⟨State.reset, 7, 0x1F, by decide +kernel, by decide +kernel⟩

/-! Witnesses of can_transmission. -/

theorem test_witness_can_transmission_0_0 : ∃ s : State, ∃ c : Nat, ∃ w, ∃ v : Word,
    c < 4 ∧ w < 2 :=
  ⟨State.reset, 3, 1, (0 : Word), by decide +kernel, by decide +kernel⟩

theorem test_witness_can_transmission_0_1 : ∃ s : State, ∃ c : Nat, ∃ w, ∃ v : Word, ∃ u,
    c < 4 ∧ w < 2 ∧ u = s.each (below 32 fun b => v.getLsbD b) (fun u b => u.cancelAt c (32 * w + b)) :=
  ⟨State.reset, 3, 1, (0 : Word), _, by decide +kernel, by decide +kernel, rfl⟩

theorem test_witness_can_transmission_1_0 : ∃ s : State, ∃ c : Nat,
    c < 4 ∧ (∀ d rest, s.pending ≠ .canFrameStart d :: rest) :=
  ⟨State.reset, 3, by decide +kernel,
   fun d rest h => by have h := congrArg List.length h; exact Nat.noConfusion (h : 0 = rest.length + 1)⟩

theorem test_witness_can_transmission_2_0 : ∃ s : State, ∃ c : Nat, ∃ b : Nat, ∃ rest : List Instr,
    c < 4 ∧ s.pending = .canFrameStart c :: rest ∧ s.txst c b = txPending ∧
    ((s.canStartFrame c).canOf c).attempt.any (·.buf == b) = true :=
  ⟨(((((({ ({ State.reset with pending := .canFrameStart 3 :: [] } : State) with pending := [.canFrameStart 3] } : State).wr (canUnit 3).STATE stRun).clear (R.CAN_STAT.INTEG 3)).clear (R.CAN_STAT.TXHALT 3)).clear (R.CAN_CFG.LISTEN 3)).setTxst 3 63 txPending),
   3, 63, [], by decide +kernel, by decide +kernel, by decide +kernel, by decide +kernel⟩

theorem test_witness_can_transmission_3_0 : ∃ s : State, ∃ c : Nat,
    c < 4 ∧
    (s.canOnBus c = false ∨ s.running (canUnit c) = false ∨ s.on (R.CAN_STAT.TXHALT c) = true ∨ s.on (R.CAN_CFG.LISTEN c) = true ∨ (s.canOf c).sleepPending = true ∨ (s.canOf c).attempt ≠ none ∨ s.winner c = none) :=
  ⟨State.reset, 3, by decide +kernel, by decide +kernel⟩

theorem test_witness_can_transmission_4_0 : ∃ s : State, ∃ c : Nat, ∃ b : Nat, ∃ v, ∃ w,
    c < 4 ∧ s.canOnBus c = true ∧ s.running (canUnit c) = true ∧ s.on (R.CAN_STAT.TXHALT c) = false ∧
    s.on (R.CAN_CFG.LISTEN c) = false ∧ (s.canOf c).sleepPending = false ∧ (s.canOf c).attempt = none ∧ s.winner c = some b ∧
    s.badTbWord c b = none ∧
    ((s.setTxst c b txActive).setCanRam c (tbWord b + 2) (BitVec.ofNat 32 (s.setTxst c b txActive).canTs) : State).dataCheck c b = (v, w) :=
  ⟨(((((State.reset.wr (canUnit 3).STATE stRun).clear (R.CAN_STAT.INTEG 3)).clear (R.CAN_STAT.TXHALT 3)).clear (R.CAN_CFG.LISTEN 3)).setTxst 3 63 txPending),
   3, 63, _, _, by decide +kernel, by decide +kernel, by decide +kernel, by decide +kernel, by decide +kernel,
   by decide +kernel, by decide +kernel, by decide +kernel, by decide +kernel, pair_is⟩

theorem test_witness_can_transmission_5_0 : ∃ s : State, ∃ c : Nat, ∃ b : Nat, ∃ i : Nat,
    c < 4 ∧ s.canOnBus c = true ∧ s.running (canUnit c) = true ∧ s.on (R.CAN_STAT.TXHALT c) = false ∧
    s.on (R.CAN_CFG.LISTEN c) = false ∧ (s.canOf c).sleepPending = false ∧ (s.canOf c).attempt = none ∧ s.winner c = some b ∧
    s.badTbWord c b = some i ∧ i < 2 :=
  ⟨((((((State.reset.wr (canUnit 3).STATE stRun).clear (R.CAN_STAT.INTEG 3)).clear (R.CAN_STAT.TXHALT 3)).clear (R.CAN_CFG.LISTEN 3)).setCan 3 { badWords := [(tbWord 63, true)] }).setTxst 3 63 txPending),
   3, 63, 0, by decide +kernel, by decide +kernel, by decide +kernel, by decide +kernel, by decide +kernel, by decide +kernel,
   by decide +kernel, by decide +kernel, by decide +kernel, by decide +kernel⟩

theorem test_witness_can_transmission_6_0 : ∃ s : State, ∃ c : Nat,
    c < 4 ∧ (s.canOf c).attempt = none :=
  ⟨State.reset, 3, by decide +kernel, by decide +kernel⟩

theorem test_witness_can_transmission_7_0 : ∃ s : State, ∃ c : Nat, ∃ a : CanAttempt,
    c < 4 ∧ (s.canOf c).attempt = some a :=
  ⟨(State.reset.setCan 3 { attempt := some ({ buf := 63 } : CanAttempt) }), 3, ({ buf := 63 } : CanAttempt), by decide +kernel,
   by decide +kernel⟩

theorem test_witness_can_transmission_7_1 : ∃ s : State, ∃ c : Nat, ∃ a : CanAttempt,
    c < 4 ∧ (s.canOf c).attempt = some a :=
  ⟨(State.reset.setCan 3 { attempt := some ({ buf := 63 } : CanAttempt) }), 3, ({ buf := 63 } : CanAttempt), by decide +kernel,
   by decide +kernel⟩

theorem test_witness_can_transmission_7_2 : ∃ s : State, ∃ c : Nat, ∃ a : CanAttempt,
    c < 4 ∧ (s.canOf c).attempt = some a ∧ (s.setCan c { s.canOf c with attempt := none } : State).on (canCan c a.buf) = false :=
  ⟨((State.reset.setCan 3 { attempt := some ({ buf := 63 } : CanAttempt) }).clear (canCan 3 ({ buf := 63 } : CanAttempt).buf)),
   3, ({ buf := 63 } : CanAttempt), by decide +kernel, by decide +kernel, by decide +kernel⟩

theorem test_witness_can_transmission_7_3 : ∃ s : State, ∃ c : Nat, ∃ a : CanAttempt,
    c < 4 ∧ (s.canOf c).attempt = some a ∧ (s.setCan c { s.canOf c with attempt := none } : State).on (canCan c a.buf) = true :=
  ⟨((State.reset.setCan 3 { attempt := some ({ buf := 63 } : CanAttempt) }).raise (canCan 3 ({ buf := 63 } : CanAttempt).buf)),
   3, ({ buf := 63 } : CanAttempt), by decide +kernel, by decide +kernel, by decide +kernel⟩

theorem test_witness_can_transmission_8_0 : ∃ s : State, ∃ c : Nat, ∃ u,
    c < 4 ∧ u = s.each (List.range 64) (fun u b => u.cancelAt c b) :=
  ⟨State.reset, 3, _, by decide +kernel, rfl⟩

theorem test_witness_can_transmission_9_0 : ∃ s : State, ∃ c : Nat,
    c < 4 ∧ s.on (R.CAN_STAT.TXHALT c) = false :=
  ⟨(State.reset.clear (R.CAN_STAT.TXHALT 3)), 3, by decide +kernel, by decide +kernel⟩

theorem test_witness_can_transmission_9_1 : ∃ s : State, ∃ c : Nat,
    c < 4 ∧ s.on (R.CAN_STAT.TXHALT c) = true :=
  ⟨(State.reset.raise (R.CAN_STAT.TXHALT 3)), 3, by decide +kernel, by decide +kernel⟩

/-! Witnesses of can_reception. -/

theorem test_witness_can_reception_0_0 : ∃ s : State, ∃ c : Nat,
    c < 4 ∧ s.canOnBus c = false :=
  ⟨State.reset, 3, by decide +kernel, by decide +kernel⟩

theorem test_witness_can_reception_0_1 : ∃ s : State, ∃ c : Nat,
    c < 4 ∧ s.canOnBus c = false :=
  ⟨State.reset, 3, by decide +kernel, by decide +kernel⟩

theorem test_witness_can_reception_0_2 : ∃ s : State, ∃ c : Nat,
    c < 4 ∧ s.canOnBus c = false :=
  ⟨State.reset, 3, by decide +kernel, by decide +kernel⟩

theorem test_witness_can_reception_1_0 : ∃ s : State, ∃ c : Nat, ∃ f : CanFrame,
    c < 4 ∧ s.canOnBus c = true ∧ f.fdf = true ∧ s.on (R.CAN_CFG.FDEN c) = false :=
  ⟨(((State.reset.wr (canUnit 3).STATE stRun).clear (R.CAN_STAT.INTEG 3)).clear (R.CAN_CFG.FDEN 3)), 3,
   ({ id := 1, dlc := 0, data := [], fdf := true } : CanFrame), by decide +kernel, by decide +kernel, by decide +kernel,
   by decide +kernel⟩

theorem test_witness_can_reception_1_1 : ∃ s : State, ∃ c : Nat, ∃ f : CanFrame,
    c < 4 ∧ s.canOnBus c = true ∧ (f.fdf = false ∨ s.on (R.CAN_CFG.FDEN c) = true) :=
  ⟨((State.reset.wr (canUnit 3).STATE stRun).clear (R.CAN_STAT.INTEG 3)), 3,
   ({ id := 1, dlc := 0, data := [], fdf := false } : CanFrame), by decide +kernel, by decide +kernel, by decide +kernel⟩

theorem test_witness_can_reception_2_0 : ∃ s : State, ∃ c : Nat,
    c < 4 ∧ s.canOnBus c = true ∧ s.on (R.CAN_CFG.LISTEN c) = true :=
  ⟨(((State.reset.wr (canUnit 3).STATE stRun).clear (R.CAN_STAT.INTEG 3)).raise (R.CAN_CFG.LISTEN 3)), 3, by decide +kernel,
   by decide +kernel, by decide +kernel⟩

theorem test_witness_can_reception_2_1 : ∃ s : State, ∃ c : Nat,
    c < 4 ∧ s.canOnBus c = true ∧ s.on (R.CAN_CFG.LISTEN c) = false :=
  ⟨(((State.reset.wr (canUnit 3).STATE stRun).clear (R.CAN_STAT.INTEG 3)).clear (R.CAN_CFG.LISTEN 3)), 3, by decide +kernel,
   by decide +kernel, by decide +kernel⟩

theorem test_witness_can_reception_3_0 : ∃ s : State, ∃ c : Nat,
    c < 4 ∧ s.canOnBus c = true ∧ s.on (R.CAN_CFG.FDEN c) = true :=
  ⟨(((State.reset.wr (canUnit 3).STATE stRun).clear (R.CAN_STAT.INTEG 3)).raise (R.CAN_CFG.FDEN 3)), 3, by decide +kernel,
   by decide +kernel, by decide +kernel⟩

theorem test_witness_can_reception_4_0 : ∃ s : State, ∃ c : Nat,
    c < 4 ∧ s.canOnBus c = true ∧ s.on (R.CAN_CFG.FDEN c) = false :=
  ⟨(((State.reset.wr (canUnit 3).STATE stRun).clear (R.CAN_STAT.INTEG 3)).clear (R.CAN_CFG.FDEN 3)), 3, by decide +kernel,
   by decide +kernel, by decide +kernel⟩

theorem test_witness_can_reception_5_0 : ∃ s : State, ∃ c : Nat, ∃ b : Nat,
    c < 4 ∧ b < 128 :=
  ⟨State.reset, 3, 127, by decide +kernel, by decide +kernel⟩

theorem test_witness_can_reception_6_0 : ∃ s : State, ∃ c : Nat,
    c < 4 :=
  ⟨State.reset, 3, by decide +kernel⟩

theorem test_witness_can_reception_7_0 : ∃ s : State, ∃ c : Nat,
    c < 4 ∧ (s.canOf c).lock = none :=
  ⟨State.reset, 3, by decide +kernel, by decide +kernel⟩

theorem test_witness_can_reception_7_1 : ∃ s : State, ∃ c : Nat, ∃ l : CanLock,
    c < 4 ∧ (s.canOf c).lock = some l :=
  ⟨({ (State.reset.setCan 3 { lock := some ({ buf := 0, since := 0 } : CanLock) }) with can := [(3, { lock := some { buf := 0, since := 0 } })] } : State),
   3, ({ buf := 0, since := 0 } : CanLock), by decide +kernel, by decide +kernel⟩

theorem test_witness_can_reception_8_0 : ∃ s : State, ∃ c : Nat, ∃ w, ∃ v : Word,
    c < 4 ∧ w < 4 :=
  ⟨State.reset, 3, 3, (0 : Word), by decide +kernel, by decide +kernel⟩

theorem test_witness_can_reception_9_0 : ∃ s : State, ∃ c : Nat, ∃ v : Word,
    c < 4 :=
  ⟨State.reset, 3, (0 : Word), by decide +kernel⟩

theorem test_witness_can_reception_9_1 : ∃ s : State, ∃ c : Nat, ∃ v : Word,
    c < 4 ∧ (s.wr (R.CAN_MADDR.WADDR c) (s.rd (R.CAN_MADDR.WADDR c) + 1)).canWriteMay c (s.rd (R.CAN_MADDR.WADDR c)) = .done :=
  ⟨State.reset, 3, (0 : Word), by decide +kernel, by decide +kernel⟩

theorem test_witness_can_reception_9_2 : ∃ s : State, ∃ c : Nat, ∃ v : Word,
    c < 4 ∧ (s.wr (R.CAN_MADDR.WADDR c) (s.rd (R.CAN_MADDR.WADDR c) + 1)).canWriteMay c (s.rd (R.CAN_MADDR.WADDR c)) = .silent :=
  ⟨(State.reset.wr (R.CAN_MADDR.WADDR 3) 3), 3, (0 : Word), by decide +kernel, by decide +kernel⟩

theorem test_witness_can_reception_9_3 : ∃ s : State, ∃ c : Nat, ∃ v : Word,
    c < 4 ∧ (s.wr (R.CAN_MADDR.WADDR c) (s.rd (R.CAN_MADDR.WADDR c) + 1)).canWriteMay c (s.rd (R.CAN_MADDR.WADDR c)) = .rejected :=
  ⟨((State.reset.wr (canUnit 3).STATE stRun).wr (R.CAN_MADDR.WADDR 3) 4607), 3, (0 : Word), by decide +kernel, by decide +kernel⟩

theorem test_witness_can_reception_10_0 : ∃ s : State, ∃ c : Nat,
    c < 4 ∧ (s.canOf c).recovering = true :=
  ⟨(State.reset.setCan 3 { recovering := true }), 3, by decide +kernel, by decide +kernel⟩

theorem test_witness_can_reception_10_1 : ∃ s : State, ∃ c : Nat,
    c < 4 ∧ (s.canOf c).recovering = false :=
  ⟨State.reset, 3, by decide +kernel, by decide +kernel⟩

/-! Witnesses of can_sleep_and_recovery. -/

theorem test_witness_can_sleep_and_recovery_0_0 : ∃ s : State, ∃ c : Nat,
    c < 4 ∧ (s.running (canUnit c) = false ∨ s.rd (R.CAN_ERR.EST c) = 2) :=
  ⟨State.reset, 3, by decide +kernel, by decide +kernel⟩

theorem test_witness_can_sleep_and_recovery_1_0 : ∃ s : State, ∃ c : Nat,
    c < 4 ∧ s.running (canUnit c) = true ∧ s.rd (R.CAN_ERR.EST c) ≠ 2 ∧ s.on (R.CAN_WUF_CFG.WMODE c) = true ∧
    8 < s.rd (R.CAN_WUF_CFG.DLC c) :=
  ⟨(((State.reset.wr (canUnit 3).STATE stRun).raise (R.CAN_WUF_CFG.WMODE 3)).wr (R.CAN_WUF_CFG.DLC 3) 9), 3, by decide +kernel,
   by decide +kernel, by decide +kernel, by decide +kernel, by decide +kernel⟩

theorem test_witness_can_sleep_and_recovery_1_1 : ∃ s : State, ∃ c : Nat,
    c < 4 ∧ s.running (canUnit c) = true ∧ s.rd (R.CAN_ERR.EST c) ≠ 2 ∧
    (s.on (R.CAN_WUF_CFG.WMODE c) = false ∨ s.rd (R.CAN_WUF_CFG.DLC c) ≤ 8) :=
  ⟨((State.reset.wr (canUnit 3).STATE stRun).clear (R.CAN_WUF_CFG.WMODE 3)), 3, by decide +kernel, by decide +kernel,
   by decide +kernel, by decide +kernel⟩

theorem test_witness_can_sleep_and_recovery_2_0 : ∃ s : State, ∃ c : Nat,
    c < 4 ∧ (s.canOf c).sleepPending = true ∧ (s.canOf c).attempt = none :=
  ⟨(State.reset.setCan 3 { sleepPending := true }), 3, by decide +kernel, by decide +kernel, by decide +kernel⟩

theorem test_witness_can_sleep_and_recovery_2_1 : ∃ s : State, ∃ c : Nat,
    c < 4 ∧ ((s.canOf c).sleepPending = false ∨ (s.canOf c).attempt ≠ none) :=
  ⟨State.reset, 3, by decide +kernel, by decide +kernel⟩

theorem test_witness_can_sleep_and_recovery_3_0 : ∃ s : State, ∃ c : Nat,
    c < 4 ∧ s.running (canUnit c) = false :=
  ⟨State.reset, 3, by decide +kernel, by decide +kernel⟩

theorem test_witness_can_sleep_and_recovery_3_1 : ∃ s : State, ∃ c : Nat,
    c < 4 ∧ s.running (canUnit c) = true ∧ s.canSleeps c = true :=
  ⟨((State.reset.wr (canUnit 3).STATE stRun).raise (R.CAN_STAT.SLEEP 3)), 3, by decide +kernel, by decide +kernel,
   by decide +kernel⟩

theorem test_witness_can_sleep_and_recovery_3_2 : ∃ s : State, ∃ c : Nat,
    c < 4 ∧ s.running (canUnit c) = true ∧ s.canSleeps c = false :=
  ⟨(State.reset.wr (canUnit 3).STATE stRun), 3, by decide +kernel, by decide +kernel, by decide +kernel⟩

theorem test_witness_can_sleep_and_recovery_4_0 : ∃ s : State, ∃ c : Nat, ∃ e,
    c < 4 ∧ (s.wakeSource c e = none ∨ s.canSleeps c = false) :=
  ⟨State.reset, 3, CanWake.pattern, by decide +kernel, by decide +kernel⟩

theorem test_witness_can_sleep_and_recovery_4_1 : ∃ s : State, ∃ c : Nat, ∃ e, ∃ k,
    c < 4 ∧ s.wakeSource c e = some k ∧ s.canSleeps c = true :=
  ⟨((State.reset.wr (canUnit 3).STATE stRun).raise (R.CAN_STAT.SLEEP 3)), 3, CanWake.pattern, _, by decide +kernel,
   some_is 0 (by decide +kernel), by decide +kernel⟩

theorem test_witness_can_sleep_and_recovery_5_0 : ∃ s : State, ∃ c : Nat,
    c < 4 ∧ s.rd (R.CAN_ERR.EST c) = 2 :=
  ⟨(State.reset.wr (R.CAN_ERR.EST 3) 2), 3, by decide +kernel, by decide +kernel⟩

theorem test_witness_can_sleep_and_recovery_5_1 : ∃ s : State, ∃ c : Nat,
    c < 4 ∧ s.rd (R.CAN_ERR.EST c) ≠ 2 :=
  ⟨State.reset, 3, by decide +kernel, by decide +kernel⟩

theorem test_witness_can_sleep_and_recovery_6_0 : ∃ s : State, ∃ c : Nat,
    c < 4 :=
  ⟨State.reset, 3, by decide +kernel⟩

theorem test_witness_can_sleep_and_recovery_6_1 : ∃ s : State, ∃ c : Nat, ∃ a,
    c < 4 ∧ a ≠ (R.CAN_CMD.OP c).addr ∧ a ≠ (R.CAN_INTSTAT.CMDDONE c).addr :=
  ⟨State.reset, 3, 0, by decide +kernel, by decide +kernel, by decide +kernel⟩

theorem test_witness_can_sleep_and_recovery_7_0 : ∃ s : State, ∃ c : Nat,
    c < 4 ∧ (s.canOf c).recovering = false :=
  ⟨State.reset, 3, by decide +kernel, by decide +kernel⟩

theorem test_witness_can_sleep_and_recovery_7_1 : ∃ s : State, ∃ c : Nat,
    c < 4 ∧ (s.canOf c).recovering = true :=
  ⟨(State.reset.setCan 3 { recovering := true }), 3, by decide +kernel, by decide +kernel⟩

theorem test_witness_can_sleep_and_recovery_7_2 : ∃ s : State, ∃ c : Nat, ∃ a,
    c < 4 ∧ (s.canOf c).recovering = true ∧ a ≠ (R.CAN_ERR.EST c).addr ∧ a ≠ (R.CAN_STAT.INTEG c).addr :=
  ⟨(State.reset.setCan 3 { recovering := true }), 3, 0, by decide +kernel, by decide +kernel, by decide +kernel,
   by decide +kernel⟩

theorem test_witness_can_sleep_and_recovery_8_0 : ∃ s : State, ∃ c : Nat,
    c < 4 :=
  ⟨State.reset, 3, by decide +kernel⟩

/-! Witnesses of scrubbing_and_repair. -/

theorem test_witness_scrubbing_and_repair_0_0 : ∃ s : State,
    s.running .mem = false :=
  ⟨State.reset, by decide +kernel⟩

theorem test_witness_scrubbing_and_repair_1_0 : ∃ s : State,
    s.running .mem = true ∧ s.integ.rewriteQ = [] :=
  ⟨((({ State.reset with integ.rewriteQ := [] } : State).wr UnitId.mem.STATE stRun).setFlaw 0 { par := 1 }), by decide +kernel,
   by decide +kernel⟩

theorem test_witness_scrubbing_and_repair_2_0 : ∃ s : State, ∃ w : Nat, ∃ rest : List Nat,
    s.running .mem = true ∧ s.integ.rewriteQ = w :: rest ∧ stripeWindow ≤ w ∧ w < stripeWindow + 65536 :=
  ⟨({ (({ State.reset with integ.rewriteQ := (stripeWindow + 65535) :: [] } : State).wr UnitId.mem.STATE stRun) with integ.rewriteQ := [(stripeWindow + 65535)] } : State),
   (stripeWindow + 65535), [], by decide +kernel, by decide +kernel, by decide +kernel, by decide +kernel⟩

theorem test_witness_scrubbing_and_repair_2_1 : ∃ s : State, ∃ w : Nat, ∃ rest : List Nat,
    s.running .mem = true ∧ s.integ.rewriteQ = w :: rest ∧ (w < stripeWindow ∨ stripeWindow + 65536 ≤ w) ∧
    (({ s with integ := { s.integ with rewriteQ := rest } } : State).flaw w).poisoned = false ∧
    (({ s with integ := { s.integ with rewriteQ := rest } } : State).flaw w).invalid ≠ 0 ∧
    (({ s with integ := { s.integ with rewriteQ := rest } } : State).flaw w).tagOpen = false ∧
    ({ s with integ := { s.integ with rewriteQ := rest } } : State).lost w = 0 :=
  ⟨(({ (({ State.reset with integ.rewriteQ := 0 :: [] } : State).wr UnitId.mem.STATE stRun) with integ.rewriteQ := [0] } : State).setFlaw 0 { par := 1 }),
   0, [], by decide +kernel, by decide +kernel, by decide +kernel, by decide +kernel, by decide +kernel, by decide +kernel,
   by decide +kernel⟩

theorem test_witness_scrubbing_and_repair_2_2 : ∃ s : State, ∃ w : Nat, ∃ rest : List Nat,
    s.running .mem = true ∧ s.integ.rewriteQ = w :: rest ∧ (w < stripeWindow ∨ stripeWindow + 65536 ≤ w) ∧
    ((({ s with integ := { s.integ with rewriteQ := rest } } : State).flaw w).poisoned = true ∨ (({ s with integ := { s.integ with rewriteQ := rest } } : State).flaw w).invalid = 0 ∨ (({ s with integ := { s.integ with rewriteQ := rest } } : State).flaw w).tagOpen = true ∨ ({ s with integ := { s.integ with rewriteQ := rest } } : State).lost w ≠ 0) :=
  ⟨(({ State.reset with integ.rewriteQ := 0 :: [] } : State).wr UnitId.mem.STATE stRun), 0, [], by decide +kernel,
   by decide +kernel, by decide +kernel, by decide +kernel⟩

theorem test_witness_scrubbing_and_repair_3_0 : ∃ s : State,
    s.working .mem = false :=
  ⟨State.reset, by decide +kernel⟩

theorem test_witness_scrubbing_and_repair_4_0 : ∃ s : State,
    s.working .mem = true ∧ ((s.rewriteAll 16 : State).rd R.MEM_DRS_POS.POS : Nat) ≠ 65535 :=
  ⟨(State.reset.wr UnitId.mem.STATE stRun), by decide +kernel, by decide +kernel⟩

theorem test_witness_scrubbing_and_repair_4_1 : ∃ s : State,
    s.working .mem = true ∧ ((s.rewriteAll 16 : State).rd R.MEM_DRS_POS.POS : Nat) = 65535 :=
  ⟨((State.reset.wr UnitId.mem.STATE stRun).wr R.MEM_DRS_POS.POS 65535), by decide +kernel, by decide +kernel⟩

theorem test_witness_scrubbing_and_repair_5_0 : ∃ s : State,
    s.running .mem = true :=
  ⟨(State.reset.wr UnitId.mem.STATE stRun), by decide +kernel⟩

theorem test_witness_scrubbing_and_repair_6_0 : ∃ s : State,
    (s.running .mem = false ∨ s.on R.MEM_DRS_CFG.DRAMEN = false) :=
  ⟨State.reset, by decide +kernel⟩

theorem test_witness_scrubbing_and_repair_7_0 : ∃ s : State,
    s.running .mem = true ∧ s.on R.MEM_DRS_CFG.DRAMEN = true :=
  ⟨((State.reset.wr UnitId.mem.STATE stRun).raise R.MEM_DRS_CFG.DRAMEN), by decide +kernel, by decide +kernel⟩

theorem test_witness_scrubbing_and_repair_8_0 : ∃ s : State, ∃ k,
    k < 7 :=
  ⟨State.reset, 6, by decide +kernel⟩

theorem test_witness_scrubbing_and_repair_8_1 : ∃ s : State, ∃ k, ∃ a,
    k < 7 ∧ a ≠ (R.MEM_LB_STAT.LEVEL k).addr :=
  ⟨State.reset, 6, 0, by decide +kernel, by decide +kernel⟩

theorem test_witness_scrubbing_and_repair_9_0 : ∃ s : State,
    s.on R.MEM_EGR_HALT.FABTX = false :=
  ⟨(State.reset.clear R.MEM_EGR_HALT.FABTX), by decide +kernel⟩

theorem test_witness_scrubbing_and_repair_9_1 : ∃ s : State,
    s.on R.MEM_EGR_HALT.FABTX = true :=
  ⟨(State.reset.raise R.MEM_EGR_HALT.FABTX), by decide +kernel⟩

theorem test_witness_scrubbing_and_repair_11_0 : ∃ s : State, ∃ v : Word,
    (s.rd UnitId.mem.STATE ≠ stOff ∨ (s.spare (s.rd R.MEM_SMAP_ADDR.ENTRY : Nat)).fuse = true ∨ 136 ≤ (s.rd R.MEM_SMAP_ADDR.ENTRY : Nat)) :=
  ⟨(State.reset.wr UnitId.mem.STATE stRun), (0 : Word), by decide +kernel⟩

theorem test_witness_scrubbing_and_repair_11_1 : ∃ s : State, ∃ v : Word,
    s.rd UnitId.mem.STATE = stOff ∧ (s.spare (s.rd R.MEM_SMAP_ADDR.ENTRY : Nat)).fuse = false ∧
    (s.rd R.MEM_SMAP_ADDR.ENTRY : Nat) < 136 ∧
    (getField v 15 1 = 0 ∨ ((s.spare (s.rd R.MEM_SMAP_ADDR.ENTRY : Nat)).valid = true ∧ (s.spare (s.rd R.MEM_SMAP_ADDR.ENTRY : Nat)).row = getField v 0 9)) :=
  ⟨(State.reset.wr UnitId.mem.STATE stOff), (0 : Word), by decide +kernel, by decide +kernel, by decide +kernel,
   by decide +kernel⟩

theorem test_witness_scrubbing_and_repair_11_2 : ∃ s : State, ∃ v : Word,
    s.rd UnitId.mem.STATE = stOff ∧ (s.spare (s.rd R.MEM_SMAP_ADDR.ENTRY : Nat)).fuse = false ∧
    (s.rd R.MEM_SMAP_ADDR.ENTRY : Nat) < 136 ∧ getField v 15 1 = 1 ∧
    ((s.spare (s.rd R.MEM_SMAP_ADDR.ENTRY : Nat)).valid = false ∨ (s.spare (s.rd R.MEM_SMAP_ADDR.ENTRY : Nat)).row ≠ getField v 0 9) :=
  ⟨(State.reset.wr UnitId.mem.STATE stOff), 0x8000, by decide +kernel, by decide +kernel, by decide +kernel, by decide +kernel,
   by decide +kernel⟩

/-! Witnesses of error_injection. -/

theorem test_witness_error_injection_0_0 : ∃ s : State, ∃ l : BitVec 8, ∃ c,
    s.rd R.MEM_PHASE.PHASE ≠ 2 ∧ c ∈ [Instr.injectOdd l, .injectEven l, .injectPar l, .injectTag, .injectPoison l] :=
  ⟨State.reset, (0 : BitVec 8), (.injectPoison (0 : BitVec 8)), by decide +kernel, by simp⟩

theorem test_witness_error_injection_0_1 : ∃ s : State, ∃ l : BitVec 8, ∃ c, ∃ a,
    s.rd R.MEM_PHASE.PHASE ≠ 2 ∧ c ∈ [Instr.injectOdd l, .injectEven l, .injectPar l, .injectTag, .injectPoison l] ∧
    a ≠ R.MEM_INJ_CTRL.addr ∧ a ≠ R.MEM_INTSTAT.addr :=
  ⟨State.reset, (0 : BitVec 8), (.injectPoison (0 : BitVec 8)), 0, by decide +kernel, by simp, by decide +kernel,
   by decide +kernel⟩

theorem test_witness_error_injection_1_0 : ∃ s : State, ∃ l : BitVec 8,
    s.rd R.MEM_PHASE.PHASE = 2 ∧ injectable (8 * s.rd R.MEM_INJ_ADDR.WADDR : Nat) = true ∧
    isLocal (s.rd R.MEM_INJ_ADDR.WADDR) = false :=
  ⟨((State.reset.wr R.MEM_PHASE.PHASE 2).wr R.MEM_INJ_ADDR.WADDR 0x20FFFFF), (0 : BitVec 8), by decide +kernel,
   by decide +kernel, by decide +kernel⟩

theorem test_witness_error_injection_1_1 : ∃ s : State, ∃ l : BitVec 8,
    s.rd R.MEM_PHASE.PHASE = 2 ∧ injectable (8 * s.rd R.MEM_INJ_ADDR.WADDR : Nat) = true ∧
    isLocal (s.rd R.MEM_INJ_ADDR.WADDR) = false :=
  ⟨((State.reset.wr R.MEM_PHASE.PHASE 2).wr R.MEM_INJ_ADDR.WADDR 0x20FFFFF), (0 : BitVec 8), by decide +kernel,
   by decide +kernel, by decide +kernel⟩

theorem test_witness_error_injection_1_2 : ∃ s : State, ∃ l : BitVec 8,
    s.rd R.MEM_PHASE.PHASE = 2 ∧ injectable (8 * s.rd R.MEM_INJ_ADDR.WADDR : Nat) = true ∧
    isLocal (s.rd R.MEM_INJ_ADDR.WADDR) = false :=
  ⟨((State.reset.wr R.MEM_PHASE.PHASE 2).wr R.MEM_INJ_ADDR.WADDR 0x20FFFFF), (0 : BitVec 8), by decide +kernel,
   by decide +kernel, by decide +kernel⟩

theorem test_witness_error_injection_1_3 : ∃ s : State, ∃ l : BitVec 8,
    s.rd R.MEM_PHASE.PHASE = 2 ∧ injectable (8 * s.rd R.MEM_INJ_ADDR.WADDR : Nat) = true ∧
    isLocal (s.rd R.MEM_INJ_ADDR.WADDR) = false :=
  ⟨((State.reset.wr R.MEM_PHASE.PHASE 2).wr R.MEM_INJ_ADDR.WADDR 0x20FFFFF), (0 : BitVec 8), by decide +kernel,
   by decide +kernel, by decide +kernel⟩

theorem test_witness_error_injection_1_4 : ∃ s : State, ∃ l : BitVec 8,
    s.rd R.MEM_PHASE.PHASE = 2 ∧ injectable (8 * s.rd R.MEM_INJ_ADDR.WADDR : Nat) = true ∧
    isLocal (s.rd R.MEM_INJ_ADDR.WADDR) = false :=
  ⟨((State.reset.wr R.MEM_PHASE.PHASE 2).wr R.MEM_INJ_ADDR.WADDR 0x20FFFFF), (0 : BitVec 8), by decide +kernel,
   by decide +kernel, by decide +kernel⟩

theorem test_witness_error_injection_2_0 : ∃ s : State, ∃ l : BitVec 8,
    s.rd R.MEM_PHASE.PHASE = 2 ∧ injectable (8 * s.rd R.MEM_INJ_ADDR.WADDR) = false :=
  ⟨(State.reset.wr R.MEM_PHASE.PHASE 2), (0 : BitVec 8), by decide +kernel, by decide +kernel⟩

theorem test_witness_error_injection_4_0 : ∃ s : State, ∃ a : Nat, ∃ d : Word64,
    0x18000000 ≤ a ∧ a < 0x18080000 ∧ s.rd R.MEM_PHASE.PHASE ≠ 2 :=
  ⟨State.reset, 402653184, (0 : Word64), by decide +kernel, by decide +kernel, by decide +kernel⟩

theorem test_witness_error_injection_4_1 : ∃ s : State, ∃ a : Nat, ∃ d : Word64,
    0x18000000 ≤ a ∧ a < 0x18080000 ∧ s.rd R.MEM_PHASE.PHASE = 2 :=
  ⟨(State.reset.wr R.MEM_PHASE.PHASE 2), 402653184, (0 : Word64), by decide +kernel, by decide +kernel, by decide +kernel⟩

/-! Witnesses of injected_odd_error_is_rebuilt. -/

theorem test_witness_injected_odd_error_is_rebuilt_0_0 : ∃ s : State, ∃ m : Nat, ∃ l : BitVec 8,
    s.rd R.MEM_PHASE.PHASE = 2 ∧ isShared (s.rd R.MEM_INJ_ADDR.WADDR : Nat) = true ∧
    (∀ b, (b < 16) → s.flaw (rowWord (rowOf (s.rd R.MEM_INJ_ADDR.WADDR : Nat)) b) = {}) ∧
    s.sdiff (rowOf (s.rd R.MEM_INJ_ADDR.WADDR : Nat)) = 0 ∧ s.spar (rowOf (s.rd R.MEM_INJ_ADDR.WADDR : Nat)) = 0 ∧ l ≠ 0 :=
  ⟨((State.reset.wr R.MEM_PHASE.PHASE 2).wr R.MEM_INJ_ADDR.WADDR 0x20FFFFF), 16, 1, by decide +kernel, by decide +kernel,
   by decide +kernel, by decide +kernel, by decide +kernel, by decide +kernel⟩

/-! Witnesses of key_ring_operations. -/

theorem test_witness_key_ring_operations_0_0 : ∃ s : State, ∃ v : Word,
    s.cqSize < (R.KEY_CQTAIL.TAIL.of v + 0x10000 - s.rd R.KEY_CQHEAD.HEAD) % 0x10000 :=
  ⟨State.reset, 0xFFFF, by decide +kernel⟩

theorem test_witness_key_ring_operations_1_0 : ∃ s : State, ∃ v : Word,
    (R.KEY_CQTAIL.TAIL.of v + 0x10000 - s.rd R.KEY_CQHEAD.HEAD) % 0x10000 ≤ s.cqSize :=
  ⟨State.reset, (0 : Word), by decide +kernel⟩

theorem test_witness_key_ring_operations_2_0 : ∃ s : State, ∃ c,
    s.cqReady = false ∧
    c ∈ [Instr.keyHash, .keyHmac, .keyKdf, .keyGcmEnc, .keyGcmDec, .keySign, .keyVerify, .keyEcdh, .keyKeygen, .keyPubkey, .keyRandom,
  .keyWrap, .keyUnwrap, .keySeal, .keyUnseal, .keyReseal, .keyImport, .keyExtend, .keyDeclare, .keyAdopt, .keySetpol] :=
  ⟨State.reset, .keySetpol, by decide +kernel, by simp⟩

theorem test_witness_key_ring_operations_3_0 : ∃ s : State, ∃ p : Instr × Nat × (KeyDesc → State → KeyRes),
    s.cqReady = true ∧ (s.fetch mEngine (s.cqAddr (s.rd R.KEY_CQHEAD.HEAD)) 64 : Fetched).poison = none ∧
    numAt (s.fetch mEngine (s.cqAddr (s.rd R.KEY_CQHEAD.HEAD)) 64 : Fetched).bytes 39 1 % 2 = 1 ∧
    (KeyDesc.ofBytes (s.fetch mEngine (s.cqAddr (s.rd R.KEY_CQHEAD.HEAD)) 64 : Fetched).bytes).op = p.2.1 ∧
    p ∈ [(Instr.keyHash, 1, opHash), (.keyHmac, 2, opHmac), (.keyKdf, 3, opKdf), (.keyGcmEnc, 4, opGcmEnc), (.keyGcmDec, 5, opGcmDec), (.keySign, 6, opSign),
    (.keyVerify, 7, opVerify), (.keyEcdh, 8, opEcdh), (.keyKeygen, 9, opKeygen), (.keyPubkey, 10, opPubkey), (.keyRandom, 11, opRandom), (.keyWrap, 12, opWrap),
    (.keyUnwrap, 13, opUnwrap), (.keySeal, 14, opSeal), (.keyUnseal, 15, opUnseal), (.keyReseal, 16, opReseal), (.keyImport, 17, opImport), (.keyExtend, 18, opExtend),
    (.keyDeclare, 19, opDeclare), (.keyAdopt, 20, opAdopt), (.keySetpol, 21, opSetpol)] :=
  ⟨((((State.reset.wr UnitId.key.STATE stRun).wr R.KEY_CQTAIL.TAIL 1).wr R.KEY_CQBASE.BASE 0x400000).putBytes ((((State.reset.wr UnitId.key.STATE stRun).wr R.KEY_CQTAIL.TAIL 1).wr R.KEY_CQBASE.BASE 0x400000).cqAddr ((((State.reset.wr UnitId.key.STATE stRun).wr R.KEY_CQTAIL.TAIL 1).wr R.KEY_CQBASE.BASE 0x400000).rd R.KEY_CQHEAD.HEAD)) ([21] ++ zeros 38 ++ [1])),
   (Instr.keySetpol, 21, opSetpol), by decide +kernel, by decide +kernel, by decide +kernel, by decide +kernel, by simp⟩

theorem test_witness_key_ring_operations_4_0 : ∃ s : State,
    s.working .key = false :=
  ⟨State.reset, by decide +kernel⟩

theorem test_witness_key_ring_operations_5_0 : ∃ s : State,
    s.working .key = true ∧ s.key.inside = none :=
  ⟨(State.reset.wr UnitId.key.STATE stRun), by decide +kernel, by decide +kernel⟩

theorem test_witness_key_ring_operations_6_0 : ∃ s : State, ∃ p,
    s.cqReady = true ∧
    ((s.fetch mEngine (s.cqAddr (s.rd R.KEY_CQHEAD.HEAD)) 64 : Fetched).poison ≠ none ∨ numAt (s.fetch mEngine (s.cqAddr (s.rd R.KEY_CQHEAD.HEAD)) 64 : Fetched).bytes 39 1 % 2 = 0 ∨ (KeyDesc.ofBytes (s.fetch mEngine (s.cqAddr (s.rd R.KEY_CQHEAD.HEAD)) 64 : Fetched).bytes).op ≠ p.2) ∧
    p ∈ [(Instr.keyHash, 1), (.keyHmac, 2), (.keyKdf, 3), (.keyGcmEnc, 4), (.keyGcmDec, 5), (.keySign, 6), (.keyVerify, 7), (.keyEcdh, 8),
    (.keyKeygen, 9), (.keyPubkey, 10), (.keyRandom, 11), (.keyWrap, 12), (.keyUnwrap, 13), (.keySeal, 14), (.keyUnseal, 15), (.keyReseal, 16),
    (.keyImport, 17), (.keyExtend, 18), (.keyDeclare, 19), (.keyAdopt, 20), (.keySetpol, 21)] :=
  ⟨(((State.reset.wr UnitId.key.STATE stRun).wr R.KEY_CQTAIL.TAIL 1).wr R.KEY_CQBASE.BASE 0x400000), (.keySetpol, 21),
   by decide +kernel, by decide +kernel, by simp⟩

theorem test_witness_key_ring_operations_7_0 : ∃ s : State, ∃ x : KeyInside,
    (x.effect ≠ .adopt ∨ s.heldForSwitch = true) :=
  ⟨State.reset, ({ seq := 0, keys := [], status := ksOk, dst := 0, out := [], effect := .none } : KeyInside), by decide +kernel⟩

theorem test_witness_key_ring_operations_7_1 : ∃ s : State, ∃ x : KeyInside,
    x.effect = .adopt ∧ s.heldForSwitch = false :=
  ⟨State.reset, ({ seq := 0, keys := [], status := ksOk, dst := 0, out := [], effect := .adopt } : KeyInside),
   by decide +kernel, by decide +kernel⟩

theorem test_witness_key_ring_operations_8_0 : ∃ s : State, ∃ x : KeyInside,
    s.working .key = true ∧ s.key.inside = some x ∧ (s.keyEnds x : KeyInside).status ≠ ksOk ∧
    (s.keyEnds x : KeyInside).status ≠ ksStaleGen :=
  ⟨({ (({ State.reset with key.inside := some ({ seq := 0, keys := [], status := 2, dst := 0, out := [], effect := .none } : KeyInside) } : State).wr UnitId.key.STATE stRun) with key.inside := some ({ seq := 0, keys := [], status := 2, dst := 0, out := [], effect := .none } : KeyInside) } : State),
   ({ seq := 0, keys := [], status := 2, dst := 0, out := [], effect := .none } : KeyInside), by decide +kernel,
   by decide +kernel, by decide +kernel, by decide +kernel⟩

theorem test_witness_key_ring_operations_8_1 : ∃ s : State, ∃ x : KeyInside,
    s.working .key = true ∧ s.key.inside = some x ∧
    ((s.keyEnds x : KeyInside).status = ksOk ∨ (s.keyEnds x : KeyInside).status = ksStaleGen) ∧
    (∀ n y, (s.keyEnds x : KeyInside).effect ≠ .slot n y) :=
  ⟨({ (({ State.reset with key.inside := some ({ seq := 0, keys := [], status := ksOk, dst := 0, out := [], effect := .none } : KeyInside) } : State).wr UnitId.key.STATE stRun) with key.inside := some ({ seq := 0, keys := [], status := ksOk, dst := 0, out := [], effect := .none } : KeyInside) } : State),
   ({ seq := 0, keys := [], status := ksOk, dst := 0, out := [], effect := .none } : KeyInside), by decide +kernel,
   by decide +kernel, by decide +kernel, by intro n x h; cases h⟩

theorem test_witness_key_ring_operations_8_2 : ∃ s : State, ∃ x : KeyInside, ∃ n : Nat, ∃ y : KeySlot,
    s.working .key = true ∧ s.key.inside = some x ∧
    ((s.keyEnds x : KeyInside).status = ksOk ∨ (s.keyEnds x : KeyInside).status = ksStaleGen) ∧
    (s.keyEnds x : KeyInside).effect = .slot n y :=
  ⟨({ (({ State.reset with key.inside := some ({ seq := 0, keys := [], status := ksOk, dst := 0, out := [], effect := .slot 63 {} } : KeyInside) } : State).wr UnitId.key.STATE stRun) with key.inside := some ({ seq := 0, keys := [], status := ksOk, dst := 0, out := [], effect := .slot 63 {} } : KeyInside) } : State),
   ({ seq := 0, keys := [], status := ksOk, dst := 0, out := [], effect := .slot 63 {} } : KeyInside), 63, ({} : KeySlot),
   by decide +kernel, by decide +kernel, by decide +kernel, by decide +kernel⟩

theorem test_witness_key_ring_operations_9_0 : ∃ s : State, ∃ d : KeyDesc,
    s.isLocked = true :=
  ⟨(State.reset.raise R.SYS_LOCK.LOCK),
   ({ op := 1, bind := false, succ := false, final := false, kslot := 0, xslot := 0, usage := 0, cmask := 0, purpose := 0, ckind := 0, tpol := 0, srclen := 0, src := 0, dst := 0, dstlen := 0, aux := 0, auxlen := 0 } : KeyDesc),
   by decide +kernel⟩

theorem test_witness_key_ring_operations_10_0 : ∃ s : State, ∃ d : KeyDesc,
    s.heldForSwitch = false :=
  ⟨State.reset,
   ({ op := 1, bind := false, succ := false, final := false, kslot := 0, xslot := 0, usage := 0, cmask := 0, purpose := 0, ckind := 0, tpol := 0, srclen := 0, src := 0, dst := 0, dstlen := 0, aux := 0, auxlen := 0 } : KeyDesc),
   by decide +kernel⟩

theorem test_witness_key_ring_operations_10_1 : ∃ s : State, ∃ d : KeyDesc,
    s.heldForSwitch = true ∧ s.on R.KEY_MSTAT.SUCCV = false :=
  ⟨(((State.reset.wr R.SCH_STAT.HOLD 2).wr R.SCH_STAT.HOLDSRC 1).clear R.KEY_MSTAT.SUCCV),
   ({ op := 1, bind := false, succ := false, final := false, kslot := 0, xslot := 0, usage := 0, cmask := 0, purpose := 0, ckind := 0, tpol := 0, srclen := 0, src := 0, dst := 0, dstlen := 0, aux := 0, auxlen := 0 } : KeyDesc),
   by decide +kernel, by decide +kernel⟩

theorem test_witness_key_ring_operations_10_2 : ∃ s : State, ∃ d : KeyDesc,
    s.heldForSwitch = true ∧ s.on R.KEY_MSTAT.SUCCV = true :=
  ⟨(((State.reset.wr R.SCH_STAT.HOLD 2).wr R.SCH_STAT.HOLDSRC 1).raise R.KEY_MSTAT.SUCCV),
   ({ op := 1, bind := false, succ := false, final := false, kslot := 0, xslot := 0, usage := 0, cmask := 0, purpose := 0, ckind := 0, tpol := 0, srclen := 0, src := 0, dst := 0, dstlen := 0, aux := 0, auxlen := 0 } : KeyDesc),
   by decide +kernel, by decide +kernel⟩

/-! Witnesses of key_ports_and_slots. -/

theorem test_witness_key_ports_and_slots_0_0 : ∃ s : State, ∃ r : KeyEstablish,
    s.running .key = false ∧ r.session < 512 :=
  ⟨State.reset, ({ session := 511, tenant := 255, rights := 0, peer := 0, context := [] } : KeyEstablish), by decide +kernel,
   by decide +kernel⟩

theorem test_witness_key_ports_and_slots_0_1 : ∃ s : State, ∃ t,
    s.running .key = false ∧ t < 256 :=
  ⟨State.reset, 255, by decide +kernel, by decide +kernel⟩

theorem test_witness_key_ports_and_slots_0_2 : ∃ s : State,
    s.running .key = false :=
  ⟨State.reset, by decide +kernel⟩

theorem test_witness_key_ports_and_slots_1_0 : ∃ s : State, ∃ r : KeyEstablish, ∃ u : State, ∃ a : KeyAns,
    r.session < 512 ∧ s.rootUse = (a, u) ∧ a ≠ .ok :=
  ⟨State.reset, ({ session := 511, tenant := 255, rights := 0, peer := 0, context := [] } : KeyEstablish), _, _,
   by decide +kernel, pair_is, by decide +kernel⟩

theorem test_witness_key_ports_and_slots_2_0 : ∃ s : State, ∃ r : KeyEstablish, ∃ u : State, ∃ v : State, ∃ t : Tenant,
    r.session < 512 ∧ s.rootUse = (.ok, u) ∧ u.tenant r.tenant = (t, v) :=
  ⟨(((State.reset.wr UnitId.key.STATE stRun).setKslot (State.reset.rd R.GATE_CFG.KSLOT) { kind := 3, parent := 0xFF, purpose := 3 }).setKsess 511 { valid := true }),
   ({ session := 511, tenant := 255, rights := 0, peer := 0, context := [] } : KeyEstablish), _, _, _, by decide +kernel,
   fst_is (by decide +kernel), pair_is⟩

theorem test_witness_key_ports_and_slots_3_0 : ∃ s : State, ∃ k : Nat, ∃ d : Nat, ∃ n : Nat, ∃ u : State,
    k < 512 ∧ s.askUse k (.bare d n) = (true, u) :=
  ⟨(((State.reset.wr UnitId.key.STATE stRun).setKslot (State.reset.rd R.GATE_CFG.KSLOT) { kind := 3, parent := 0xFF, purpose := 3 }).setKsess 0 { valid := true }),
   0, 0, 0, _, by decide +kernel, fst_is (by decide +kernel)⟩

theorem test_witness_key_ports_and_slots_3_1 : ∃ s : State, ∃ k, ∃ d, ∃ n, ∃ u,
    k < 512 ∧ s.askUse k (.bare d n) = (false, u) :=
  ⟨State.reset, 511, 0, 0, _, by decide +kernel, fst_is (by decide +kernel)⟩

theorem test_witness_key_ports_and_slots_4_0 : ∃ s : State, ∃ c : Nat, ∃ u : State, ∃ t,
    s.running .key = true ∧ s.useSlot (s.rd R.GATE_CFG.KSLOT) = (c, u) ∧ t < 256 :=
  ⟨(State.reset.wr UnitId.key.STATE stRun), _, _, 255, by decide +kernel, pair_is, by decide +kernel⟩

theorem test_witness_key_ports_and_slots_5_0 : ∃ s : State, ∃ c : Nat, ∃ u : State,
    s.running .key = true ∧ s.useSlot (s.rd R.FAB_SEC.KSLOT) = (c, u) :=
  ⟨(State.reset.wr UnitId.key.STATE stRun), _, _, by decide +kernel, pair_is⟩

theorem test_witness_key_ports_and_slots_7_0 : ∃ s : State, ∃ n : Nat,
    n < 64 ∧ n ≠ 1 ∧ (((s.wr R.KEY_SCMD.SLOT n).wr R.KEY_SCMD.OP 1 : State).kslot n).kind = 0 :=
  ⟨(State.reset.setKslot 63 { kind := 0 }), 63, by decide +kernel, by decide +kernel, by decide +kernel⟩

theorem test_witness_key_ports_and_slots_7_1 : ∃ s : State, ∃ n : Nat,
    n < 64 ∧ n ≠ 1 ∧ (((s.wr R.KEY_SCMD.SLOT n).wr R.KEY_SCMD.OP 1 : State).kslot n).kind ≠ 0 ∧ n ≠ 0 :=
  ⟨(State.reset.setKslot 63 { kind := 3 }), 63, by decide +kernel, by decide +kernel, by decide +kernel, by decide +kernel⟩

theorem test_witness_key_ports_and_slots_7_2 : ∃ s : State,
    (0 : Nat) < 64 ∧ (0 : Nat) ≠ 1 ∧ (((s.wr R.KEY_SCMD.SLOT (0 : Nat)).wr R.KEY_SCMD.OP 1 : State).kslot (0 : Nat)).kind ≠ 0 :=
  ⟨(State.reset.setKslot 0 { kind := 3 }), by decide +kernel, by decide +kernel, by decide +kernel⟩

theorem test_witness_key_ports_and_slots_8_0 : ∃ s : State, ∃ n,
    (s.kslot n).gen < 0xFFFF :=
  ⟨State.reset, 0, by decide +kernel⟩

theorem test_witness_key_ports_and_slots_8_1 : ∃ s : State, ∃ n : Nat,
    0xFFFF ≤ (s.kslot n).gen :=
  ⟨(State.reset.setKslot 63 { kind := 3, gen := 0xFFFF }), 63, by decide +kernel⟩

theorem test_witness_key_ports_and_slots_9_0 : ∃ s : State, ∃ n : Nat,
    n < 64 ∧ n < 2 :=
  ⟨State.reset, 1, by decide +kernel, by decide +kernel⟩

theorem test_witness_key_ports_and_slots_9_1 : ∃ s : State, ∃ n : Nat,
    n < 64 ∧ 2 ≤ n ∧ (((s.wr R.KEY_SCMD.SLOT n).wr R.KEY_SCMD.OP 2 : State).kslot n).kind = 0 :=
  ⟨(State.reset.setKslot 2 { kind := 0 }), 2, by decide +kernel, by decide +kernel, by decide +kernel⟩

theorem test_witness_key_ports_and_slots_9_2 : ∃ s : State, ∃ n : Nat,
    n < 64 ∧ 2 ≤ n ∧ (((s.wr R.KEY_SCMD.SLOT n).wr R.KEY_SCMD.OP 2 : State).kslot n).kind ≠ 0 :=
  ⟨(State.reset.setKslot 63 { kind := 3 }), 63, by decide +kernel, by decide +kernel, by decide +kernel⟩

theorem test_witness_key_ports_and_slots_10_1 : ∃ s : State, ∃ a,
    a ≠ R.KEY_DRBG.addr ∧ a ≠ R.KEY_DRBG_CNT.addr :=
  ⟨State.reset, 0, by decide +kernel, by decide +kernel⟩

/-! Witnesses of tamper_response. -/

theorem test_witness_tamper_response_0_0 : ∃ s : State,
    s.key.active ≠ 0 :=
  ⟨({ State.reset with key.active := 1 } : State), by decide +kernel⟩

theorem test_witness_tamper_response_1_0 : ∃ s : State,
    s.key.active = 0 :=
  ⟨({ State.reset with key.active := 0 } : State), by decide +kernel⟩

theorem test_witness_tamper_response_1_1 : ∃ s : State, ∃ a,
    s.key.active = 0 ∧ a ≠ R.RTC_TLATCH.addr ∧ a ≠ R.KEY_TAMP.addr ∧ a ≠ R.KEY_TAMP_CMD.addr :=
  ⟨({ State.reset with key.active := 0 } : State), 0, by decide +kernel, by decide +kernel, by decide +kernel, by decide +kernel⟩

theorem test_witness_tamper_response_2_1 : ∃ s : State, ∃ k,
    k < 3 :=
  ⟨State.reset, 2, by decide +kernel⟩

theorem test_witness_tamper_response_3_0 : ∃ s : State, ∃ i,
    i < 3 ∧ s.rtc.stopped = true :=
  ⟨({ State.reset with rtc.stopped := true } : State), 2, by decide +kernel, by decide +kernel⟩

theorem test_witness_tamper_response_3_1 : ∃ s : State, ∃ i, ∃ b,
    i < 3 ∧ s.rtc.stopped = false ∧ (s.loopTampers i b = false ∨ s.key.active.getLsbD i = true) :=
  ⟨({ State.reset with rtc.stopped := false } : State), 2, 0, by decide +kernel, by decide +kernel, by decide +kernel⟩

theorem test_witness_tamper_response_3_2 : ∃ s : State, ∃ i, ∃ b,
    i < 3 ∧ s.rtc.stopped = false ∧ s.loopTampers i b = true ∧ s.key.active.getLsbD i = false ∧
    (State.setActive { s with rtc := { s.rtc with loops := if b then s.rtc.loops ||| BitVec.ofNat 3 (2 ^ i) else s.rtc.loops &&& ~~~BitVec.ofNat 3 (2 ^ i) } } i (s.loopTampers i b)).on R.RTC_STAT.ONMAIN = true :=
  ⟨((({ State.reset with rtc.stopped := false } : State).raise R.RTC_STAT.ONMAIN).wrb ⟨R.RTC_TAMPCFG.addr, 2, 1⟩ true), 2,
   true, by decide +kernel, by decide +kernel, by decide +kernel, by decide +kernel, by decide +kernel⟩

theorem test_witness_tamper_response_3_3 : ∃ s : State, ∃ i, ∃ b,
    i < 3 ∧ s.rtc.stopped = false ∧ s.loopTampers i b = true ∧ s.key.active.getLsbD i = false ∧
    (State.setActive { s with rtc := { s.rtc with loops := if b then s.rtc.loops ||| BitVec.ofNat 3 (2 ^ i) else s.rtc.loops &&& ~~~BitVec.ofNat 3 (2 ^ i) } } i (s.loopTampers i b)).on R.RTC_STAT.ONMAIN = false :=
  ⟨((({ State.reset with rtc.stopped := false } : State).clear R.RTC_STAT.ONMAIN).wrb ⟨R.RTC_TAMPCFG.addr, 2, 1⟩ true), 2,
   true, by decide +kernel, by decide +kernel, by decide +kernel, by decide +kernel, by decide +kernel⟩

/-! Witnesses of event_recorder. -/

theorem test_witness_event_recorder_0_0 : ∃ s : State, ∃ e : EvtPost,
    evtSource (e.code / 256) = false :=
  ⟨State.reset, ({ code := 0x8000 } : EvtPost), by decide +kernel⟩

theorem test_witness_event_recorder_1_0 : ∃ s : State, ∃ e : EvtPost,
    evtSource (e.code / 256) = true ∧ s.evt.staging.length < 960 :=
  ⟨State.reset, ({ code := 0x0101 } : EvtPost), by decide +kernel, by decide +kernel⟩

theorem test_witness_event_recorder_1_1 : ∃ s : State, ∃ e : EvtPost, ∃ a,
    evtSource (e.code / 256) = true ∧ s.evt.staging.length < 960 ∧ a ≠ R.EVT_STAGE.addr :=
  ⟨State.reset, ({ code := 0x0101 } : EvtPost), 0, by decide +kernel, by decide +kernel, by decide +kernel⟩

theorem test_witness_event_recorder_2_0 : ∃ s : State, ∃ e : EvtPost,
    evtSource (e.code / 256) = true ∧ 960 ≤ s.evt.staging.length :=
  ⟨({ State.reset with evt.staging := List.replicate 960 { mt := 0, code := 0x0101 } } : State),
   ({ code := 0x0101 } : EvtPost), by decide +kernel, by decide +kernel⟩

theorem test_witness_event_recorder_3_0 : ∃ s : State, ∃ m,
    m < 17 ∧ mayPost m (s.rd (R.EVT_SW_HDR.CODE m) / 256) = false :=
  ⟨State.reset, 16, by decide +kernel, by decide +kernel⟩

theorem test_witness_event_recorder_3_1 : ∃ s : State, ∃ m,
    m < 17 ∧ mayPost m (s.rd (R.EVT_SW_HDR.CODE m) / 256) = true ∧ 960 ≤ s.evt.staging.length :=
  ⟨(({ State.reset with evt.staging := List.replicate 960 { mt := 0, code := 0x0101 } } : State).wr (R.EVT_SW_HDR.CODE 16) 0x2000),
   16, by decide +kernel, by decide +kernel, by decide +kernel⟩

theorem test_witness_event_recorder_3_2 : ∃ s : State, ∃ m,
    m < 17 ∧ mayPost m (s.rd (R.EVT_SW_HDR.CODE m) / 256) = true ∧ s.evt.staging.length < 960 :=
  ⟨(State.reset.wr (R.EVT_SW_HDR.CODE 16) 0x2000), 16, by decide +kernel, by decide +kernel, by decide +kernel⟩

theorem test_witness_event_recorder_4_0 : ∃ s : State,
    s.evtReady = false :=
  ⟨State.reset, by decide +kernel⟩

theorem test_witness_event_recorder_5_0 : ∃ s : State,
    s.evt.staging = [] :=
  ⟨({ State.reset with evt.staging := [] } : State), by decide +kernel⟩

theorem test_witness_event_recorder_6_0 : ∃ s : State, ∃ r : EvtRec, ∃ rest : List EvtRec,
    s.evtReady = true ∧ s.evt.staging = r :: rest :=
  ⟨((({ State.reset with evt.staging := ({ mt := 0, code := 0x0101 } : EvtRec) :: [] } : State).wr UnitId.evt.STATE stRun).clear R.EVT_STAT.SCAN),
   ({ mt := 0, code := 0x0101 } : EvtRec), [], by decide +kernel, by decide +kernel⟩

theorem test_witness_event_recorder_6_1 : ∃ s : State, ∃ r : EvtRec, ∃ rest : List EvtRec,
    s.evtReady = true ∧ s.evt.staging = r :: rest ∧
    clsSuppress (((({ s with evt := { s.evt with staging := rest } } : State).wr R.EVT_STAGE.STAGED rest.length : State).overflow : State).classByte r.code) = true ∧
    alwaysKept r.code = false :=
  ⟨({ ({ ((({ State.reset with evt.staging := ({ mt := 0, code := 0x0101 } : EvtRec) :: [] } : State).wr UnitId.evt.STATE stRun).clear R.EVT_STAT.SCAN) with evt.classes := [(1, 0x10)] } : State) with evt.staging := [({ mt := 0, code := 0x0101 } : EvtRec)] } : State),
   ({ mt := 0, code := 0x0101 } : EvtRec), [], by decide +kernel, by decide +kernel, by decide +kernel, by decide +kernel⟩

theorem test_witness_event_recorder_6_2 : ∃ s : State, ∃ r : EvtRec, ∃ rest : List EvtRec,
    s.evtReady = true ∧ s.evt.staging = r :: rest ∧
    (clsSuppress (((({ s with evt := { s.evt with staging := rest } } : State).wr R.EVT_STAGE.STAGED rest.length : State).overflow : State).classByte r.code) = false ∨ alwaysKept r.code = true) :=
  ⟨((({ State.reset with evt.staging := ({ mt := 0, code := 0x0101 } : EvtRec) :: [] } : State).wr UnitId.evt.STATE stRun).clear R.EVT_STAT.SCAN),
   ({ mt := 0, code := 0x0101 } : EvtRec), [], by decide +kernel, by decide +kernel, by decide +kernel⟩

theorem test_witness_event_recorder_7_0 : ∃ s : State,
    s.evt.tailQ = [] :=
  ⟨({ State.reset with evt.tailQ := [] } : State), by decide +kernel⟩

theorem test_witness_event_recorder_8_0 : ∃ s : State, ∃ tidx : Nat, ∃ b : List Byte, ∃ rest : List (Nat × List Byte),
    s.evt.tailQ = (tidx, b) :: rest :=
  ⟨({ State.reset with evt.tailQ := (0, []) :: [] } : State), 0, [], [], by decide +kernel⟩

theorem test_witness_event_recorder_9_1 : ∃ s : State,
    s.running .evt = true :=
  ⟨(State.reset.wr UnitId.evt.STATE stRun), by decide +kernel⟩

theorem test_witness_event_recorder_9_2 : ∃ s : State,
    s.running .evt = false :=
  ⟨State.reset, by decide +kernel⟩

theorem test_witness_event_recorder_10_0 : ∃ s : State,
    s.evtReady = false :=
  ⟨State.reset, by decide +kernel⟩

theorem test_witness_event_recorder_11_0 : ∃ s : State,
    s.evtReady = true :=
  ⟨((State.reset.wr UnitId.evt.STATE stRun).clear R.EVT_STAT.SCAN), by decide +kernel⟩

theorem test_witness_event_recorder_12_0 : ∃ s : State,
    (s.running .evt = false ∨ s.on R.EVT_STAT.SCAN = false) :=
  ⟨State.reset, by decide +kernel⟩

theorem test_witness_event_recorder_13_0 : ∃ s : State,
    s.running .evt = true ∧ s.on R.EVT_STAT.SCAN = true :=
  ⟨((State.reset.wr UnitId.evt.STATE stRun).raise R.EVT_STAT.SCAN), by decide +kernel, by decide +kernel⟩

theorem test_witness_event_recorder_13_1 : ∃ s : State,
    s.running .evt = true ∧ s.on R.EVT_STAT.SCAN = true ∧ s.tailEntries = [] ∧ s.tailHeader.best s = none :=
  ⟨((State.reset.wr UnitId.evt.STATE stRun).raise R.EVT_STAT.SCAN), by decide +kernel, by decide +kernel, by decide +kernel,
   by decide +kernel⟩

theorem test_witness_event_recorder_14_0 : ∃ s : State, ∃ b : List Byte,
    s.running .evt = true ∧ s.on R.EVT_STAT.SCAN = true ∧ s.tailHeader.best s = some b :=
  ⟨(((State.reset.wr UnitId.evt.STATE stRun).raise R.EVT_STAT.SCAN).writeTailHeader), _, by decide +kernel, by decide +kernel,
   some_is [] (by decide +kernel)⟩

theorem test_witness_event_recorder_15_1 : ∃ s : State, ∃ a,
    a ≠ R.EVT_OLDEST_LO.addr ∧ a ≠ R.EVT_OLDEST_HI.addr ∧ a ≠ R.EVT_NEXT_LO.addr ∧ a ≠ R.EVT_NEXT_HI.addr ∧
    a ≠ R.EVT_FLOOR_LO.addr ∧ a ≠ R.EVT_FLOOR_HI.addr :=
  ⟨State.reset, 0, by decide +kernel, by decide +kernel, by decide +kernel, by decide +kernel, by decide +kernel,
   by decide +kernel⟩

/-! Witnesses of fantails_and_roles. -/

theorem test_witness_fantails_and_roles_0_0 : ∃ s : State,
    (s.role = roleSolo ∨ s.partnerValid = false) :=
  ⟨(State.reset.wr R.PAIR_STAT.ROLE roleSolo), by decide +kernel⟩

theorem test_witness_fantails_and_roles_1_0 : ∃ s : State,
    s.role ≠ roleSolo ∧ s.partnerValid = true :=
  ⟨((State.reset.wr R.PAIR_STAT.ROLE roleElecting).wr R.PAIR_CFG.PNODE 1), by decide +kernel, by decide +kernel⟩

theorem test_witness_fantails_and_roles_2_0 : ∃ s : State, ∃ p : Bool, ∃ f : Fantail,
    ((s.takePair p tyFantail f.node (f.bytes (if p then 0 else 1)) : State).role = roleSolo ∨ (s.takePair p tyFantail f.node (f.bytes (if p then 0 else 1)) : State).partnerValid = false ∨ f.node ≠ (s.takePair p tyFantail f.node (f.bytes (if p then 0 else 1)) : State).rd R.PAIR_CFG.PNODE ∨ f.snode ≠ (s.takePair p tyFantail f.node (f.bytes (if p then 0 else 1)) : State).rd R.PAIR_SNODE.SNODE) :=
  ⟨(State.reset.wr R.PAIR_STAT.ROLE roleSolo), false,
   ({ role := 0, side := false, node := 2, snode := 0, epoch := 0, cfgid := 0 } : Fantail), by decide +kernel⟩

theorem test_witness_fantails_and_roles_2_1 : ∃ s : State, ∃ p : Bool, ∃ f : Fantail,
    (s.takePair p tyFantail f.node (f.bytes (if p then 0 else 1)) : State).role ≠ roleSolo ∧
    (s.takePair p tyFantail f.node (f.bytes (if p then 0 else 1)) : State).partnerValid = true ∧
    f.node = (s.takePair p tyFantail f.node (f.bytes (if p then 0 else 1)) : State).rd R.PAIR_CFG.PNODE ∧
    f.snode = (s.takePair p tyFantail f.node (f.bytes (if p then 0 else 1)) : State).rd R.PAIR_SNODE.SNODE :=
  ⟨(((State.reset.wr R.PAIR_STAT.ROLE roleElecting).wr R.PAIR_CFG.PNODE 1).wr R.PAIR_CFG.PNODE 2), false,
   ({ role := roleActive, side := false, ready := false, node := 2, snode := 0, epoch := 0, cfgid := 0 } : Fantail),
   by decide +kernel, by decide +kernel, by decide +kernel, by decide +kernel⟩

theorem test_witness_fantails_and_roles_3_0 : ∃ s : State, ∃ f : Fantail,
    s.role = roleElecting ∧ f.role = roleActive :=
  ⟨(State.reset.wr R.PAIR_STAT.ROLE roleElecting),
   ({ role := roleActive, side := false, node := 2, snode := 0, epoch := 0, cfgid := 0 } : Fantail), by decide +kernel,
   by decide +kernel⟩

theorem test_witness_fantails_and_roles_3_1 : ∃ s : State, ∃ f : Fantail,
    s.role = roleElecting ∧ f.role = roleElecting ∧ s.wins f = false :=
  ⟨(withMac ((State.reset.wr R.PAIR_STAT.ROLE roleElecting)) 0),
   ({ role := roleElecting, side := false, node := 2, snode := 0, epoch := 0, cfgid := 0 } : Fantail), by decide +kernel,
   by decide +kernel, by decide +kernel⟩

theorem test_witness_fantails_and_roles_3_2 : ∃ s : State, ∃ f : Fantail,
    s.role = roleElecting ∧ f.role = roleElecting ∧ s.wins f = true ∧ s.takeOver.1 = true :=
  ⟨((State.reset.wr R.PAIR_STAT.ROLE roleElecting).raise R.PAIR_CFG.PREF),
   ({ role := roleElecting, side := false, node := 2, snode := 0, epoch := 0, cfgid := 0 } : Fantail), by decide +kernel,
   by decide +kernel, by decide +kernel, by decide +kernel⟩

theorem test_witness_fantails_and_roles_3_3 : ∃ s : State, ∃ f : Fantail,
    s.role = roleElecting ∧ f.role = roleElecting ∧ s.wins f = true ∧ s.takeOver.1 = false :=
  ⟨(((State.reset.wr R.PAIR_STAT.ROLE roleElecting).putIdentRec { State.reset.identRec with epoch := 0xFFFFFFFF }).raise R.PAIR_CFG.PREF),
   ({ role := roleElecting, side := false, ready := false, node := 2, snode := 0, epoch := 4294967295, cfgid := 0, pref := false, mac := 1 } : Fantail),
   by decide +kernel, by decide +kernel, by decide +kernel, by decide +kernel⟩

theorem test_witness_fantails_and_roles_3_4 : ∃ s : State, ∃ f : Fantail,
    s.role = roleStandby ∧ f.handoff = true :=
  ⟨(State.reset.wr R.PAIR_STAT.ROLE roleStandby),
   ({ role := 0, side := false, node := 2, snode := 0, epoch := 0, cfgid := 0, handoff := true } : Fantail), by decide +kernel,
   by decide +kernel⟩

theorem test_witness_fantails_and_roles_3_5 : ∃ s : State, ∃ f : Fantail,
    s.role = roleElecting ∧ f.role ≠ roleActive ∧ f.role ≠ roleElecting :=
  ⟨(State.reset.wr R.PAIR_STAT.ROLE roleElecting),
   ({ role := 0, side := false, node := 2, snode := 0, epoch := 0, cfgid := 0 } : Fantail), by decide +kernel,
   by decide +kernel, by decide +kernel⟩

theorem test_witness_fantails_and_roles_3_6 : ∃ s : State, ∃ f : Fantail,
    s.role = roleStandby ∧ f.handoff = false ∧ (f.role ≠ roleActive ∨ s.on R.PAIR_STAT.CFGMIS = false) :=
  ⟨(State.reset.wr R.PAIR_STAT.ROLE roleStandby),
   ({ role := 0, side := false, node := 2, snode := 0, epoch := 0, cfgid := 0, handoff := false } : Fantail),
   by decide +kernel, by decide +kernel, by decide +kernel⟩

theorem test_witness_fantails_and_roles_3_7 : ∃ s : State, ∃ f : Fantail,
    s.role = roleStandby ∧ f.handoff = false ∧ f.role = roleActive ∧ s.on R.PAIR_STAT.CFGMIS = true :=
  ⟨((State.reset.wr R.PAIR_STAT.ROLE roleStandby).raise R.PAIR_STAT.CFGMIS),
   ({ role := roleActive, side := false, node := 2, snode := 0, epoch := 0, cfgid := 0, handoff := false } : Fantail),
   by decide +kernel, by decide +kernel, by decide +kernel, by decide +kernel⟩

theorem test_witness_fantails_and_roles_3_8 : ∃ s : State, ∃ f : Fantail,
    s.role = roleActive ∧ f.role = roleStandby ∧ f.needsync = true :=
  ⟨(State.reset.wr R.PAIR_STAT.ROLE roleActive),
   ({ role := roleStandby, side := false, node := 2, snode := 0, epoch := 0, cfgid := 0, needsync := true } : Fantail),
   by decide +kernel, by decide +kernel, by decide +kernel⟩

theorem test_witness_fantails_and_roles_3_9 : ∃ s : State, ∃ f : Fantail,
    s.role = roleActive ∧ f.role = roleActive ∧ s.rd R.PAIR_EPOCH.EPOCH < f.epoch :=
  ⟨(State.reset.wr R.PAIR_STAT.ROLE roleActive),
   ({ role := roleActive, side := false, ready := false, node := 2, snode := 0, epoch := 1, cfgid := 0, pref := false, mac := 1 } : Fantail),
   by decide +kernel, by decide +kernel, by decide +kernel⟩

theorem test_witness_fantails_and_roles_3_10 : ∃ s : State, ∃ f : Fantail,
    s.role = roleActive ∧ f.role = roleActive ∧ f.epoch ≤ s.rd R.PAIR_EPOCH.EPOCH :=
  ⟨(State.reset.wr R.PAIR_STAT.ROLE roleActive),
   ({ role := roleActive, side := false, node := 2, snode := 0, epoch := 0, cfgid := 0 } : Fantail), by decide +kernel,
   by decide +kernel, by decide +kernel⟩

theorem test_witness_fantails_and_roles_3_11 : ∃ s : State, ∃ f : Fantail,
    s.role = roleDemoted ∧ f.role = roleActive :=
  ⟨(State.reset.wr R.PAIR_STAT.ROLE roleDemoted),
   ({ role := roleActive, side := false, node := 2, snode := 0, epoch := 0, cfgid := 0 } : Fantail), by decide +kernel,
   by decide +kernel⟩

theorem test_witness_fantails_and_roles_4_0 : ∃ s : State, ∃ p : Bool, ∃ l : State → State,
    (∀ u, l u = ((u.clear (if p then R.PAIR_STAT.P4OK else R.PAIR_STAT.FABOK)).raise R.PAIR_INTSTAT.PATHLOSS).pairEvent 0x0E04) ∧
    s.pair.void.getLsbD ((if p then 0 else 1) : Nat) = true :=
  ⟨({ State.reset with pair.void := 1#3 } : State), true,
   (fun u => ((u.clear (if true then R.PAIR_STAT.P4OK else R.PAIR_STAT.FABOK)).raise R.PAIR_INTSTAT.PATHLOSS).pairEvent 0x0E04),
   fun _ => rfl, by decide +kernel⟩

theorem test_witness_fantails_and_roles_4_1 : ∃ s : State, ∃ p : Bool, ∃ l : State → State,
    (∀ u, l u = ((u.clear (if p then R.PAIR_STAT.P4OK else R.PAIR_STAT.FABOK)).raise R.PAIR_INTSTAT.PATHLOSS).pairEvent 0x0E04) ∧
    s.pair.void.getLsbD ((if p then 0 else 1) : Nat) = false ∧ s.pathExpiry p = none :=
  ⟨State.reset, false,
   (fun u => ((u.clear (if false then R.PAIR_STAT.P4OK else R.PAIR_STAT.FABOK)).raise R.PAIR_INTSTAT.PATHLOSS).pairEvent 0x0E04),
   fun _ => rfl, by decide +kernel, by decide +kernel⟩

theorem test_witness_fantails_and_roles_4_2 : ∃ s : State, ∃ p : Bool, ∃ l : State → State, ∃ t : Nat,
    (∀ u, l u = ((u.clear (if p then R.PAIR_STAT.P4OK else R.PAIR_STAT.FABOK)).raise R.PAIR_INTSTAT.PATHLOSS).pairEvent 0x0E04) ∧
    s.pair.void.getLsbD ((if p then 0 else 1) : Nat) = false ∧ s.pathExpiry p = some t ∧ s.fantailNext = none :=
  ⟨(({ State.reset with pair.heardP4 := some 5 } : State).raise R.PAIR_STAT.P4OK), true,
   (fun u => ((u.clear (if true then R.PAIR_STAT.P4OK else R.PAIR_STAT.FABOK)).raise R.PAIR_INTSTAT.PATHLOSS).pairEvent 0x0E04),
   _, fun _ => rfl, by decide +kernel, some_is 0 (by decide +kernel), by decide +kernel⟩

theorem test_witness_fantails_and_roles_4_3 : ∃ s : State, ∃ p : Bool, ∃ l : State → State, ∃ t : Nat, ∃ q : Bool, ∃ f : Fantail,
    (∀ u, l u = ((u.clear (if p then R.PAIR_STAT.P4OK else R.PAIR_STAT.FABOK)).raise R.PAIR_INTSTAT.PATHLOSS).pairEvent 0x0E04) ∧
    s.pair.void.getLsbD ((if p then 0 else 1) : Nat) = false ∧ s.pathExpiry p = some t ∧ s.fantailNext = some (q, f) ∧ q ≠ p :=
  ⟨({ (((({ State.reset with pair.heardP4 := some 5 } : State).raise R.PAIR_STAT.P4OK).wr R.PAIR_CFG.PNODE 2).wr R.PAIR_STAT.ROLE roleActive) with pending := [.fantailReceived false ({ role := roleActive, side := false, ready := false, node := 2, snode := 0, epoch := 0, cfgid := 0, pref := false, mac := 1 } : Fantail)] } : State),
   true,
   (fun u => ((u.clear (if true then R.PAIR_STAT.P4OK else R.PAIR_STAT.FABOK)).raise R.PAIR_INTSTAT.PATHLOSS).pairEvent 0x0E04),
   _, _, _, fun _ => rfl, by decide +kernel, some_is 0 (by decide +kernel),
   some_pair_is (false, ({ role := 0, side := false, node := 2, snode := 0, epoch := 0, cfgid := 0 } : Fantail)) (by decide +kernel),
   by decide +kernel⟩

theorem test_witness_fantails_and_roles_4_4 : ∃ s : State, ∃ p : Bool, ∃ l : State → State, ∃ t : Nat, ∃ f : Fantail,
    (∀ u, l u = ((u.clear (if p then R.PAIR_STAT.P4OK else R.PAIR_STAT.FABOK)).raise R.PAIR_INTSTAT.PATHLOSS).pairEvent 0x0E04) ∧
    s.pair.void.getLsbD ((if p then 0 else 1) : Nat) = false ∧ s.pathExpiry p = some t ∧ s.fantailNext = some ((p), f) :=
  ⟨({ (((({ State.reset with pair.heardP4 := some 5 } : State).raise R.PAIR_STAT.P4OK).wr R.PAIR_CFG.PNODE 2).wr R.PAIR_STAT.ROLE roleActive) with pending := [.fantailReceived true ({ role := roleActive, side := false, ready := false, node := 2, snode := 0, epoch := 0, cfgid := 0, pref := false, mac := 1 } : Fantail)] } : State),
   true,
   (fun u => ((u.clear (if true then R.PAIR_STAT.P4OK else R.PAIR_STAT.FABOK)).raise R.PAIR_INTSTAT.PATHLOSS).pairEvent 0x0E04),
   _,
   ({ role := roleActive, side := false, ready := false, node := 2, snode := 0, epoch := 0, cfgid := 0, pref := false, mac := 1 } : Fantail),
   fun _ => rfl, by decide +kernel, some_is 0 (by decide +kernel), by decide +kernel⟩

theorem test_witness_fantails_and_roles_5_0 : ∃ s : State, ∃ p : Bool,
    (s.on (if p then R.PAIR_STAT.P4OK else R.PAIR_STAT.FABOK) = false ∨ (if p then s.pair.heardP4 else s.pair.heardFab) = none) :=
  ⟨(State.reset.clear (if false then R.PAIR_STAT.P4OK else R.PAIR_STAT.FABOK)), false, by decide +kernel⟩

theorem test_witness_fantails_and_roles_5_1 : ∃ s : State, ∃ p : Bool, ∃ t : Nat,
    s.on (if p then R.PAIR_STAT.P4OK else R.PAIR_STAT.FABOK) = true ∧ (if p then s.pair.heardP4 else s.pair.heardFab) = some t :=
  ⟨(({ (State.reset.raise (if true then R.PAIR_STAT.P4OK else R.PAIR_STAT.FABOK)) with pair.heardP4 := some 5 } : State).raise R.PAIR_STAT.P4OK),
   true, 5, by decide +kernel, by decide +kernel⟩

theorem test_witness_fantails_and_roles_6_0 : ∃ s : State, ∃ t : Nat, ∃ l : State → State,
    (∀ u : State, l u = if u.role = roleStandby then u.standbyTakesOver else u.partnerLost) ∧ s.pair.void.getLsbD 2 = true :=
  ⟨({ State.reset with pair.void := 4#3 } : State), 0,
   (fun u => if u.role = roleStandby then u.standbyTakesOver else u.partnerLost), fun _ => rfl, by decide +kernel⟩

theorem test_witness_fantails_and_roles_6_1 : ∃ s : State, ∃ t : Nat, ∃ l : State → State,
    (∀ u : State, l u = if u.role = roleStandby then u.standbyTakesOver else u.partnerLost) ∧ s.pair.void.getLsbD 2 = false ∧
    s.role ≠ roleStandby ∧ (s.role ≠ roleActive ∨ s.pair.silent = true) :=
  ⟨((State.reset.wr R.PAIR_STAT.ROLE roleElecting).wr R.PAIR_STAT.ROLE roleElecting), 0,
   (fun u => if u.role = roleStandby then u.standbyTakesOver else u.partnerLost), fun _ => rfl, by decide +kernel,
   by decide +kernel, by decide +kernel⟩

theorem test_witness_fantails_and_roles_6_2 : ∃ s : State, ∃ t : Nat, ∃ l : State → State,
    (∀ u : State, l u = if u.role = roleStandby then u.standbyTakesOver else u.partnerLost) ∧ s.pair.void.getLsbD 2 = false ∧
    ((s.role = roleStandby ∧ t = s.lastActive + s.lossNs) ∨ (s.role = roleActive ∧ s.pair.silent = false ∧ t = s.lastHeard + s.lossNs)) ∧
    s.fantailNext = none :=
  ⟨((State.reset.wr R.PAIR_STAT.ROLE roleStandby).wr R.PAIR_STAT.ROLE roleStandby),
   (((State.reset.wr R.PAIR_STAT.ROLE roleStandby).wr R.PAIR_STAT.ROLE roleStandby).lastActive + ((State.reset.wr R.PAIR_STAT.ROLE roleStandby).wr R.PAIR_STAT.ROLE roleStandby).lossNs),
   (fun u => if u.role = roleStandby then u.standbyTakesOver else u.partnerLost), fun _ => rfl, by decide +kernel,
   by decide +kernel, by decide +kernel⟩

theorem test_witness_fantails_and_roles_6_3 : ∃ s : State, ∃ t : Nat, ∃ l : State → State, ∃ q : Bool, ∃ f : Fantail,
    (∀ u : State, l u = if u.role = roleStandby then u.standbyTakesOver else u.partnerLost) ∧ s.pair.void.getLsbD 2 = false ∧
    ((s.role = roleStandby ∧ t = s.lastActive + s.lossNs) ∨ (s.role = roleActive ∧ s.pair.silent = false ∧ t = s.lastHeard + s.lossNs)) ∧
    s.fantailNext = some (q, f) ∧ s.stopsLoss f = false :=
  ⟨({ (((State.reset.wr R.PAIR_STAT.ROLE roleStandby).wr R.PAIR_STAT.ROLE roleStandby).wr R.PAIR_CFG.PNODE 2) with pending := [.fantailReceived false ({ role := roleStandby, side := false, ready := false, node := 2, snode := 0, epoch := 0, cfgid := 0, pref := false, mac := 1 } : Fantail)] } : State),
   (({ (((State.reset.wr R.PAIR_STAT.ROLE roleStandby).wr R.PAIR_STAT.ROLE roleStandby).wr R.PAIR_CFG.PNODE 2) with pending := [.fantailReceived false ({ role := roleStandby, side := false, ready := false, node := 2, snode := 0, epoch := 0, cfgid := 0, pref := false, mac := 1 } : Fantail)] } : State).lastActive + ({ (((State.reset.wr R.PAIR_STAT.ROLE roleStandby).wr R.PAIR_STAT.ROLE roleStandby).wr R.PAIR_CFG.PNODE 2) with pending := [.fantailReceived false ({ role := roleStandby, side := false, ready := false, node := 2, snode := 0, epoch := 0, cfgid := 0, pref := false, mac := 1 } : Fantail)] } : State).lossNs),
   (fun u => if u.role = roleStandby then u.standbyTakesOver else u.partnerLost), _, _, fun _ => rfl, by decide +kernel,
   by decide +kernel,
   some_pair_is (false, ({ role := 0, side := false, node := 2, snode := 0, epoch := 0, cfgid := 0 } : Fantail)) (by decide +kernel),
   by decide +kernel⟩

theorem test_witness_fantails_and_roles_6_4 : ∃ s : State, ∃ t : Nat, ∃ l : State → State, ∃ q : Bool, ∃ f : Fantail,
    (∀ u : State, l u = if u.role = roleStandby then u.standbyTakesOver else u.partnerLost) ∧ s.pair.void.getLsbD 2 = false ∧
    ((s.role = roleStandby ∧ t = s.lastActive + s.lossNs) ∨ (s.role = roleActive ∧ s.pair.silent = false ∧ t = s.lastHeard + s.lossNs)) ∧
    s.fantailNext = some (q, f) ∧ s.stopsLoss f = true :=
  ⟨({ (((State.reset.wr R.PAIR_STAT.ROLE roleStandby).wr R.PAIR_STAT.ROLE roleStandby).wr R.PAIR_CFG.PNODE 2) with pending := [.fantailReceived false ({ role := roleActive, side := false, ready := false, node := 2, snode := 0, epoch := 0, cfgid := 0, pref := false, mac := 1 } : Fantail)] } : State),
   (({ (((State.reset.wr R.PAIR_STAT.ROLE roleStandby).wr R.PAIR_STAT.ROLE roleStandby).wr R.PAIR_CFG.PNODE 2) with pending := [.fantailReceived false ({ role := roleActive, side := false, ready := false, node := 2, snode := 0, epoch := 0, cfgid := 0, pref := false, mac := 1 } : Fantail)] } : State).lastActive + ({ (((State.reset.wr R.PAIR_STAT.ROLE roleStandby).wr R.PAIR_STAT.ROLE roleStandby).wr R.PAIR_CFG.PNODE 2) with pending := [.fantailReceived false ({ role := roleActive, side := false, ready := false, node := 2, snode := 0, epoch := 0, cfgid := 0, pref := false, mac := 1 } : Fantail)] } : State).lossNs),
   (fun u => if u.role = roleStandby then u.standbyTakesOver else u.partnerLost), _, _, fun _ => rfl, by decide +kernel,
   by decide +kernel,
   some_pair_is (false, ({ role := 0, side := false, node := 2, snode := 0, epoch := 0, cfgid := 0 } : Fantail)) (by decide +kernel),
   by decide +kernel⟩

theorem test_witness_fantails_and_roles_7_0 : ∃ s : State,
    s.role = roleElecting ∧ s.partnerValid = true ∧
    ((s.advance (s.lastHeard + ms * s.rd R.PAIR_FTL.ELECT_MS)).takeOver : Bool × State).1 = true :=
  ⟨((State.reset.wr R.PAIR_STAT.ROLE roleElecting).wr R.PAIR_CFG.PNODE 1), by decide +kernel, by decide +kernel,
   by decide +kernel⟩

theorem test_witness_fantails_and_roles_7_1 : ∃ s : State,
    s.role = roleElecting ∧ s.partnerValid = true ∧
    ((s.advance (s.lastHeard + ms * s.rd R.PAIR_FTL.ELECT_MS)).takeOver : Bool × State).1 = false :=
  ⟨((((State.reset.wr R.PAIR_STAT.ROLE roleElecting).wr R.PAIR_CFG.PNODE 1).putIdentRec { State.reset.identRec with epoch := 0xFFFFFFFF }).wr R.PAIR_CFG.PNODE 1),
   by decide +kernel, by decide +kernel, by decide +kernel⟩

theorem test_witness_fantails_and_roles_8_0 : ∃ s : State,
    s.role = roleElecting ∧ s.partnerValid = false :=
  ⟨(State.reset.wr R.PAIR_STAT.ROLE roleElecting), by decide +kernel, by decide +kernel⟩

theorem test_witness_fantails_and_roles_8_1 : ∃ s : State,
    s.role ≠ roleElecting ∧ s.role ≠ roleDemoted :=
  ⟨(((State.reset.wr R.PAIR_STAT.ROLE 0).wr R.PAIR_STAT.ROLE roleElecting).wr R.PAIR_STAT.ROLE roleActive), by decide +kernel,
   by decide +kernel⟩

theorem test_witness_fantails_and_roles_8_2 : ∃ s : State,
    s.role = roleDemoted :=
  ⟨(State.reset.wr R.PAIR_STAT.ROLE roleDemoted), by decide +kernel⟩

theorem test_witness_fantails_and_roles_9_0 : ∃ s : State,
    (s.starting = true ∨ s.nextEpoch ≤ 0xFFFFFFFF) :=
  ⟨State.reset, by decide +kernel⟩

theorem test_witness_fantails_and_roles_10_0 : ∃ s : State, ∃ c,
    s.on R.PAIR_CMD.GO = true ∧ c ∈ [Instr.pairSwitchover, .pairResync, .pairDemote] :=
  ⟨(State.reset.raise R.PAIR_CMD.GO), .pairDemote, by decide +kernel, by simp⟩

theorem test_witness_fantails_and_roles_11_0 : ∃ s : State,
    s.on R.PAIR_CMD.GO = false ∧
    ((s.wr R.PAIR_CMD.OP 1 : State).role ≠ roleActive ∨ (s.wr R.PAIR_CMD.OP 1 : State).withheld = true ∨ (s.wr R.PAIR_CMD.OP 1 : State).on R.SCH_SWP_CMD.ARM = true ∨ (s.wr R.PAIR_CMD.OP 1 : State).pair.partner = none) :=
  ⟨((State.reset.clear R.PAIR_CMD.GO).wr R.PAIR_STAT.ROLE roleElecting), by decide +kernel, by decide +kernel⟩

theorem test_witness_fantails_and_roles_11_1 : ∃ s : State, ∃ f : Fantail,
    s.on R.PAIR_CMD.GO = false ∧ (s.wr R.PAIR_CMD.OP 1 : State).pair.partner = some f ∧ (f.ready = false ∨ f.role ≠ roleStandby) :=
  ⟨({ (({ State.reset with pair.partner := some ({ role := roleStandby, side := false, ready := false, node := 2, snode := 0, epoch := 0, cfgid := 0, pref := false, mac := 1 } : Fantail) } : State).clear R.PAIR_CMD.GO) with pair.partner := some ({ role := roleStandby, side := false, ready := false, node := 2, snode := 0, epoch := 0, cfgid := 0, pref := false, mac := 1 } : Fantail) } : State),
   ({ role := roleStandby, side := false, ready := false, node := 2, snode := 0, epoch := 0, cfgid := 0, pref := false, mac := 1 } : Fantail),
   by decide +kernel, by decide +kernel, by decide +kernel⟩

theorem test_witness_fantails_and_roles_11_2 : ∃ s : State, ∃ f : Fantail,
    s.on R.PAIR_CMD.GO = false ∧ (s.wr R.PAIR_CMD.OP 1 : State).pair.partner = some f ∧
    (s.wr R.PAIR_CMD.OP 1 : State).role = roleActive ∧ f.ready = true ∧ f.role = roleStandby ∧
    (s.wr R.PAIR_CMD.OP 1 : State).withheld = false ∧ (s.wr R.PAIR_CMD.OP 1 : State).on R.SCH_SWP_CMD.ARM = false :=
  ⟨(({ ((((({ State.reset with pair.partner := some ({ role := roleStandby, side := false, ready := true, node := 2, snode := 0, epoch := 0, cfgid := 0, pref := false, mac := 1 } : Fantail) } : State).clear R.PAIR_CMD.GO).wr R.PAIR_STAT.ROLE roleActive).wr UnitId.sch.STATE stRun).clear R.SCH_SWP_CMD.ARM) with pair.partner := some ({ role := roleStandby, side := false, ready := true, node := 2, snode := 0, epoch := 0, cfgid := 0, pref := false, mac := 1 } : Fantail) } : State).wr R.PAIR_STAT.ROLE roleActive),
   ({ role := roleStandby, side := false, ready := true, node := 2, snode := 0, epoch := 0, cfgid := 0, pref := false, mac := 1 } : Fantail),
   by decide +kernel, by decide +kernel, by decide +kernel, by decide +kernel, by decide +kernel, by decide +kernel,
   by decide +kernel⟩

theorem test_witness_fantails_and_roles_12_0 : ∃ s : State,
    s.on R.PAIR_CMD.GO = false ∧ (s.wr R.PAIR_CMD.OP 2 : State).role = roleStandby :=
  ⟨((State.reset.clear R.PAIR_CMD.GO).wr R.PAIR_STAT.ROLE roleStandby), by decide +kernel, by decide +kernel⟩

theorem test_witness_fantails_and_roles_12_1 : ∃ s : State,
    s.on R.PAIR_CMD.GO = false ∧ (s.wr R.PAIR_CMD.OP 2 : State).role ≠ roleStandby :=
  ⟨((State.reset.clear R.PAIR_CMD.GO).wr R.PAIR_STAT.ROLE roleElecting), by decide +kernel, by decide +kernel⟩

theorem test_witness_fantails_and_roles_13_0 : ∃ s : State,
    s.on R.PAIR_CMD.GO = false ∧ (s.wr R.PAIR_CMD.OP 3 : State).role = roleActive :=
  ⟨((State.reset.clear R.PAIR_CMD.GO).wr R.PAIR_STAT.ROLE roleActive), by decide +kernel, by decide +kernel⟩

theorem test_witness_fantails_and_roles_13_1 : ∃ s : State,
    s.on R.PAIR_CMD.GO = false ∧ (s.wr R.PAIR_CMD.OP 3 : State).role ≠ roleActive :=
  ⟨((State.reset.clear R.PAIR_CMD.GO).wr R.PAIR_STAT.ROLE roleElecting), by decide +kernel, by decide +kernel⟩

theorem test_witness_fantails_and_roles_14_0 : ∃ s : State,
    s.role = roleActive :=
  ⟨(State.reset.wr R.PAIR_STAT.ROLE roleActive), by decide +kernel⟩

/-! Witnesses of mirroring. -/

theorem test_witness_mirroring_0_0 : ∃ s : State,
    s.mirrorReady = false :=
  ⟨State.reset, by decide +kernel⟩

theorem test_witness_mirroring_1_0 : ∃ s : State, ∃ b : MirBatch, ∃ rest : List MirBatch,
    s.mirrorReady = true ∧ s.pair.queue = b :: rest :=
  ⟨(((({ ({ State.reset with pair.p4Link := true } : State) with pair.queue := ({ frames := [] } : MirBatch) :: [] } : State).setPort 4 { tx := some { an := 0, sak := [] } }).wr R.PAIR_STAT.ROLE roleActive).wr UnitId.mch.STATE stRun),
   ({ frames := [] } : MirBatch), [], by decide +kernel, by decide +kernel⟩

theorem test_witness_mirroring_2_0 : ∃ s : State, ∃ b : MirBatch, ∃ a : Nat,
    b.poisonAt = some a :=
  ⟨State.reset, ({ frames := [], poisonAt := some 0 } : MirBatch), 0, by decide +kernel⟩

theorem test_witness_mirroring_3_0 : ∃ s : State,
    s.mirrorReady = true ∧ s.pair.queue = [] :=
  ⟨(((({ ({ State.reset with pair.p4Link := true } : State) with pair.queue := [] } : State).setPort 4 { tx := some { an := 0, sak := [] } }).wr R.PAIR_STAT.ROLE roleActive).wr UnitId.mch.STATE stRun),
   by decide +kernel, by decide +kernel⟩

theorem test_witness_mirroring_4_0 : ∃ s : State, ∃ f : MirFrame,
    ((s.takePair true tyMirror 0 f.bytes).takePair false tyMirror (s.rd R.PAIR_CFG.PNODE) f.bytes : State).role ≠ roleStandby :=
  ⟨(State.reset.wr R.PAIR_STAT.ROLE roleElecting), ({ mseq := 0, cfgid := 0, items := [] } : MirFrame), by decide +kernel⟩

theorem test_witness_mirroring_4_1 : ∃ s : State, ∃ f : MirFrame,
    ((s.takePair true tyMirror 0 f.bytes).takePair false tyMirror (s.rd R.PAIR_CFG.PNODE) f.bytes : State).role = roleStandby ∧
    f.cfgid ≠ ((s.takePair true tyMirror 0 f.bytes).takePair false tyMirror (s.rd R.PAIR_CFG.PNODE) f.bytes : State).rd R.PAIR_CFGID.CFGID :=
  ⟨(State.reset.wr R.PAIR_STAT.ROLE roleStandby), { mseq := 0, cfgid := 1, items := [] }, by decide +kernel, by decide +kernel⟩

theorem test_witness_mirroring_4_2 : ∃ s : State, ∃ f : MirFrame,
    ((s.takePair true tyMirror 0 f.bytes).takePair false tyMirror (s.rd R.PAIR_CFG.PNODE) f.bytes : State).role = roleStandby ∧
    f.cfgid = ((s.takePair true tyMirror 0 f.bytes).takePair false tyMirror (s.rd R.PAIR_CFG.PNODE) f.bytes : State).rd R.PAIR_CFGID.CFGID ∧
    f.frag = 0 ∧
    ((s.takePair true tyMirror 0 f.bytes).takePair false tyMirror (s.rd R.PAIR_CFG.PNODE) f.bytes : State).pair.rxFrames = [] ∧
    ((s.takePair true tyMirror 0 f.bytes).takePair false tyMirror (s.rd R.PAIR_CFG.PNODE) f.bytes : State).pair.rxNext = some f.mseq ∧
    f.last = true :=
  ⟨(({ ({ State.reset with pair.rxFrames := [] } : State) with pair.rxNext := some ({ last := true, mseq := 0, cfgid := 0, items := [] } : MirFrame).mseq } : State).wr R.PAIR_STAT.ROLE roleStandby),
   ({ last := true, mseq := 0, cfgid := 0, items := [] } : MirFrame), by decide +kernel, by decide +kernel, by decide +kernel,
   by decide +kernel, by decide +kernel, by decide +kernel⟩

theorem test_witness_mirroring_4_3 : ∃ s : State, ∃ f : MirFrame,
    ((s.takePair true tyMirror 0 f.bytes).takePair false tyMirror (s.rd R.PAIR_CFG.PNODE) f.bytes : State).role = roleStandby ∧
    f.cfgid = ((s.takePair true tyMirror 0 f.bytes).takePair false tyMirror (s.rd R.PAIR_CFG.PNODE) f.bytes : State).rd R.PAIR_CFGID.CFGID ∧
    f.frag ≠ 0 ∧
    ((s.takePair true tyMirror 0 f.bytes).takePair false tyMirror (s.rd R.PAIR_CFG.PNODE) f.bytes : State).pair.rxFrames.length ≠ f.frag :=
  ⟨((State.reset.wr R.PAIR_STAT.ROLE roleStandby).wr R.PAIR_STAT.ROLE roleStandby),
   ({ mseq := 0, cfgid := 0, items := [], frag := 1, last := false } : MirFrame), by decide +kernel, by decide +kernel,
   by decide +kernel, by decide +kernel⟩

theorem test_witness_mirroring_4_4 : ∃ s : State, ∃ f : MirFrame,
    ((s.takePair true tyMirror 0 f.bytes).takePair false tyMirror (s.rd R.PAIR_CFG.PNODE) f.bytes : State).role = roleStandby ∧
    f.cfgid = ((s.takePair true tyMirror 0 f.bytes).takePair false tyMirror (s.rd R.PAIR_CFG.PNODE) f.bytes : State).rd R.PAIR_CFGID.CFGID ∧
    f.frag = 0 ∧
    ((s.takePair true tyMirror 0 f.bytes).takePair false tyMirror (s.rd R.PAIR_CFG.PNODE) f.bytes : State).pair.rxFrames = [] ∧
    (((s.takePair true tyMirror 0 f.bytes).takePair false tyMirror (s.rd R.PAIR_CFG.PNODE) f.bytes : State).pair.rxNext = none ∨ ((s.takePair true tyMirror 0 f.bytes).takePair false tyMirror (s.rd R.PAIR_CFG.PNODE) f.bytes : State).pair.rxNext = some f.mseq) ∧
    f.last = false :=
  ⟨((({ State.reset with pair.rxFrames := [] } : State).wr R.PAIR_STAT.ROLE roleStandby).wr R.PAIR_STAT.ROLE roleStandby),
   ({ mseq := 0, cfgid := 0, items := [], frag := 0, last := false } : MirFrame), by decide +kernel, by decide +kernel,
   by decide +kernel, by decide +kernel, by decide +kernel, by decide +kernel⟩

theorem test_witness_mirroring_4_5 : ∃ s : State, ∃ f : MirFrame,
    ((s.takePair true tyMirror 0 f.bytes).takePair false tyMirror (s.rd R.PAIR_CFG.PNODE) f.bytes : State).role = roleStandby ∧
    f.cfgid = ((s.takePair true tyMirror 0 f.bytes).takePair false tyMirror (s.rd R.PAIR_CFG.PNODE) f.bytes : State).rd R.PAIR_CFGID.CFGID ∧
    f.frag ≠ 0 ∧
    ((s.takePair true tyMirror 0 f.bytes).takePair false tyMirror (s.rd R.PAIR_CFG.PNODE) f.bytes : State).pair.rxFrames ≠ [] ∧
    ((s.takePair true tyMirror 0 f.bytes).takePair false tyMirror (s.rd R.PAIR_CFG.PNODE) f.bytes : State).pair.rxFrames.length = f.frag ∧
    (((s.takePair true tyMirror 0 f.bytes).takePair false tyMirror (s.rd R.PAIR_CFG.PNODE) f.bytes : State).pair.rxFrames.all (·.mseq == f.mseq)) = true ∧
    f.last = false :=
  ⟨({ ((State.reset.wr R.PAIR_STAT.ROLE roleStandby).wr R.PAIR_STAT.ROLE roleStandby) with pair.rxFrames := [({ mseq := 0, cfgid := 0, items := [], frag := 0, last := false } : MirFrame)] } : State),
   ({ mseq := 0, cfgid := 0, items := [], frag := 1, last := false } : MirFrame), by decide +kernel, by decide +kernel,
   by decide +kernel, by decide +kernel, by decide +kernel, by decide +kernel, by decide +kernel⟩

theorem test_witness_mirroring_4_6 : ∃ s : State, ∃ f : MirFrame,
    ((s.takePair true tyMirror 0 f.bytes).takePair false tyMirror (s.rd R.PAIR_CFG.PNODE) f.bytes : State).role = roleStandby ∧
    f.cfgid = ((s.takePair true tyMirror 0 f.bytes).takePair false tyMirror (s.rd R.PAIR_CFG.PNODE) f.bytes : State).rd R.PAIR_CFGID.CFGID ∧
    f.frag ≠ 0 ∧
    ((s.takePair true tyMirror 0 f.bytes).takePair false tyMirror (s.rd R.PAIR_CFG.PNODE) f.bytes : State).pair.rxFrames ≠ [] ∧
    ((s.takePair true tyMirror 0 f.bytes).takePair false tyMirror (s.rd R.PAIR_CFG.PNODE) f.bytes : State).pair.rxFrames.length = f.frag ∧
    (((s.takePair true tyMirror 0 f.bytes).takePair false tyMirror (s.rd R.PAIR_CFG.PNODE) f.bytes : State).pair.rxFrames.all (·.mseq == f.mseq)) = true ∧
    f.last = true :=
  ⟨({ ((State.reset.wr R.PAIR_STAT.ROLE roleStandby).wr R.PAIR_STAT.ROLE roleStandby) with pair.rxFrames := [({ mseq := 0, cfgid := 0, items := [], frag := 0, last := false } : MirFrame)] } : State),
   ({ mseq := 0, cfgid := 0, items := [], frag := 1, last := true } : MirFrame), by decide +kernel, by decide +kernel,
   by decide +kernel, by decide +kernel, by decide +kernel, by decide +kernel, by decide +kernel⟩

theorem test_witness_mirroring_5_0 : ∃ s : State,
    s.role ≠ roleActive :=
  ⟨(State.reset.wr R.PAIR_STAT.ROLE roleElecting), by decide +kernel⟩

theorem test_witness_mirroring_5_1 : ∃ s : State,
    s.role = roleActive :=
  ⟨(State.reset.wr R.PAIR_STAT.ROLE roleActive), by decide +kernel⟩

theorem test_witness_mirroring_6_0 : ∃ s : State, ∃ f : Leat,
    s.pair.p4Link = false :=
  ⟨({ State.reset with pair.p4Link := false } : State),
   ({ lane := 0, dst := 1, src := 2, typ := 4, len := 0, payload := [] } : Leat), by decide +kernel⟩

theorem test_witness_mirroring_7_0 : ∃ s : State, ∃ f : Leat,
    s.pair.p4Link = true ∧ (f.dst ≠ s.rd R.FAB_NODE.CFG ∨ f.ttl ≠ 1 ∨ headerOk f = false) :=
  ⟨({ State.reset with pair.p4Link := true } : State),
   ({ lane := 0, dst := 1, src := 2, typ := 4, len := 0, payload := [] } : Leat), by decide +kernel, by decide +kernel⟩

theorem test_witness_mirroring_7_1 : ∃ s : State, ∃ f : Leat,
    s.pair.p4Link = true ∧ f.dst = s.rd R.FAB_NODE.CFG ∧ f.ttl = 1 ∧ headerOk f = true ∧ f.typ = tyKeyx :=
  ⟨({ ({ State.reset with pair.p4Link := true } : State) with pair.p4Link := true } : State),
   ({ ttl := 1, lane := 0, cp := true, dst := State.reset.rd R.FAB_NODE.CFG, src := 2, typ := tyKeyx, len := 0, payload := [] } : Leat),
   by decide +kernel, by decide +kernel, by decide +kernel, by decide +kernel, by decide +kernel⟩

theorem test_witness_mirroring_7_2 : ∃ s : State, ∃ f : Leat,
    s.pair.p4Link = true ∧ f.dst = s.rd R.FAB_NODE.CFG ∧ f.ttl = 1 ∧ headerOk f = true ∧
    (f.typ = tyFantail ∨ f.typ = tyMirror) ∧ s.p4Up = true :=
  ⟨(({ ({ State.reset with pair.p4Link := true } : State) with pair.p4Link := true } : State).setPort 4 { tx := some { an := 0, sak := [] } }),
   ({ ttl := 1, lane := 0, cp := true, dst := State.reset.rd R.FAB_NODE.CFG, src := 2, typ := tyFantail, len := 0, payload := [] } : Leat),
   by decide +kernel, by decide +kernel, by decide +kernel, by decide +kernel, by decide +kernel, by decide +kernel⟩

theorem test_witness_mirroring_7_3 : ∃ s : State, ∃ f : Leat,
    s.pair.p4Link = true ∧ f.dst = s.rd R.FAB_NODE.CFG ∧ f.ttl = 1 ∧ headerOk f = true ∧
    (f.typ = tyFantail ∨ f.typ = tyMirror) ∧ s.p4Up = false :=
  ⟨({ ({ State.reset with pair.p4Link := true } : State) with pair.p4Link := true } : State),
   ({ ttl := 1, lane := 0, cp := true, dst := State.reset.rd R.FAB_NODE.CFG, src := 2, typ := tyFantail, len := 0, payload := [] } : Leat),
   by decide +kernel, by decide +kernel, by decide +kernel, by decide +kernel, by decide +kernel, by decide +kernel⟩

theorem test_witness_mirroring_7_4 : ∃ s : State, ∃ f : Leat,
    s.pair.p4Link = true ∧ f.dst = s.rd R.FAB_NODE.CFG ∧ f.ttl = 1 ∧ headerOk f = true ∧ f.typ ≠ tyKeyx ∧ f.typ ≠ tyFantail ∧
    f.typ ≠ tyMirror :=
  ⟨({ ({ State.reset with pair.p4Link := true } : State) with pair.p4Link := true } : State),
   ({ ttl := 1, lane := 1, cp := false, dst := State.reset.rd R.FAB_NODE.CFG, src := 2, typ := tyPoint, len := 0, payload := [] } : Leat),
   by decide +kernel, by decide +kernel, by decide +kernel, by decide +kernel, by decide +kernel, by decide +kernel,
   by decide +kernel⟩

/-! Witnesses of update_transfers. -/

theorem test_witness_update_transfers_0_0 : ∃ s : State, ∃ src : Nat, ∃ x : BulkMsg,
    ((s.takeInbox tyBulk src x.bytes : State).running .upd = false ∨ x.kind ≠ 1) :=
  ⟨State.reset, 0, ({ kind := 1, xid := 1 } : BulkMsg), by decide +kernel⟩

theorem test_witness_update_transfers_0_1 : ∃ s : State, ∃ src : Nat, ∃ x : BulkMsg,
    (s.takeInbox tyBulk src x.bytes : State).running .upd = true ∧ x.kind = 1 ∧
    (s.takeInbox tyBulk src x.bytes : State).openCode x.size ≠ ucOk :=
  ⟨((State.reset.wr UnitId.upd.STATE stRun).wr R.UPD_PHASE.PHASE 1), 0, ({ kind := 1, xid := 1 } : BulkMsg), by decide +kernel,
   by decide +kernel, by decide +kernel⟩

theorem test_witness_update_transfers_0_2 : ∃ s : State, ∃ src : Nat, ∃ x : BulkMsg,
    (s.takeInbox tyBulk src x.bytes : State).running .upd = true ∧ x.kind = 1 ∧
    (s.takeInbox tyBulk src x.bytes : State).openCode x.size = ucOk :=
  ⟨(State.reset.wr UnitId.upd.STATE stRun), 0, ({ kind := 1, xid := 1 } : BulkMsg), by decide +kernel, by decide +kernel,
   by decide +kernel⟩

theorem test_witness_update_transfers_1_0 : ∃ s : State, ∃ src : Nat, ∃ x : BulkMsg, ∃ y : UpdXfer,
    (s.takeInbox tyBulk src x.bytes : State).running .upd = true ∧ (s.takeInbox tyBulk src x.bytes : State).upd.xfer = some y ∧
    y.src = src ∧ y.xid = x.xid ∧ x.kind = 3 ∧ y.takes x = true :=
  ⟨({ ((({ State.reset with upd.xfer := some ({ src := 1, xid := 1, slot := 1, blen := 8192, opened := true, expected := 0, programmed := 0 } : UpdXfer) } : State).wr UnitId.upd.STATE stRun).wr UnitId.upd.STATE stRun) with upd.xfer := some ({ src := 1, xid := 1, slot := 1, blen := 8192, opened := true, expected := 0, programmed := 0 } : UpdXfer) } : State),
   1, ({ kind := 3, xid := 1, size := 1024, data := zeros 1024 } : BulkMsg),
   ({ src := 1, xid := 1, slot := 1, blen := 8192, opened := true, expected := 0, programmed := 0 } : UpdXfer),
   by decide +kernel, by decide +kernel, by decide +kernel, by decide +kernel, by decide +kernel, by decide +kernel⟩

theorem test_witness_update_transfers_1_1 : ∃ s : State, ∃ src : Nat, ∃ x : BulkMsg, ∃ y : UpdXfer,
    (s.takeInbox tyBulk src x.bytes : State).running .upd = true ∧ (s.takeInbox tyBulk src x.bytes : State).upd.xfer = some y ∧
    y.src = src ∧ y.xid = x.xid ∧ x.kind = 3 ∧ y.takes x = false :=
  ⟨(({ State.reset with upd.xfer := some ({ src := 0, xid := ({ kind := 3, xid := 1 } : BulkMsg).xid, slot := 1, blen := 0 } : UpdXfer) } : State).wr UnitId.upd.STATE stRun),
   0, ({ kind := 3, xid := 1 } : BulkMsg),
   ({ src := 0, xid := ({ kind := 3, xid := 1 } : BulkMsg).xid, slot := 1, blen := 0 } : UpdXfer), by decide +kernel,
   by decide +kernel, by decide +kernel, by decide +kernel, by decide +kernel, by decide +kernel⟩

theorem test_witness_update_transfers_1_2 : ∃ s : State, ∃ src : Nat, ∃ x : BulkMsg, ∃ y : UpdXfer,
    (s.takeInbox tyBulk src x.bytes : State).running .upd = true ∧ (s.takeInbox tyBulk src x.bytes : State).upd.xfer = some y ∧
    y.src = src ∧ y.xid = x.xid ∧ x.kind = 5 ∧ y.expected < y.blen :=
  ⟨({ ((({ State.reset with upd.xfer := some ({ src := 1, xid := 1, slot := 1, blen := 8192, opened := true, expected := 8191, programmed := 0 } : UpdXfer) } : State).wr UnitId.upd.STATE stRun).wr UnitId.upd.STATE stRun) with upd.xfer := some ({ src := 1, xid := 1, slot := 1, blen := 8192, opened := true, expected := 8191, programmed := 0 } : UpdXfer) } : State),
   1, ({ kind := 5, xid := 1 } : BulkMsg),
   ({ src := 1, xid := 1, slot := 1, blen := 8192, opened := true, expected := 8191, programmed := 0 } : UpdXfer),
   by decide +kernel, by decide +kernel, by decide +kernel, by decide +kernel, by decide +kernel, by decide +kernel⟩

theorem test_witness_update_transfers_1_3 : ∃ s : State, ∃ src : Nat, ∃ x : BulkMsg, ∃ y : UpdXfer,
    (s.takeInbox tyBulk src x.bytes : State).running .upd = true ∧ (s.takeInbox tyBulk src x.bytes : State).upd.xfer = some y ∧
    y.src = src ∧ y.xid = x.xid ∧ x.kind = 5 ∧ y.blen ≤ y.expected ∧ (y.programmed ≠ y.blen ∨ y.ended = true) :=
  ⟨({ ((({ State.reset with upd.xfer := some ({ src := 1, xid := 1, slot := 1, blen := 8192, opened := true, expected := 8192, programmed := 4096 } : UpdXfer) } : State).wr UnitId.upd.STATE stRun).wr UnitId.upd.STATE stRun) with upd.xfer := some ({ src := 1, xid := 1, slot := 1, blen := 8192, opened := true, expected := 8192, programmed := 4096 } : UpdXfer) } : State),
   1, ({ kind := 5, xid := 1 } : BulkMsg),
   ({ src := 1, xid := 1, slot := 1, blen := 8192, opened := true, expected := 8192, programmed := 4096 } : UpdXfer),
   by decide +kernel, by decide +kernel, by decide +kernel, by decide +kernel, by decide +kernel, by decide +kernel,
   by decide +kernel⟩

theorem test_witness_update_transfers_1_4 : ∃ s : State, ∃ src : Nat, ∃ x : BulkMsg, ∃ y : UpdXfer,
    (s.takeInbox tyBulk src x.bytes : State).running .upd = true ∧ (s.takeInbox tyBulk src x.bytes : State).upd.xfer = some y ∧
    y.src = src ∧ y.xid = x.xid ∧ x.kind = 5 ∧ y.blen ≤ y.expected ∧ y.programmed = y.blen ∧ y.ended = false :=
  ⟨({ ((({ State.reset with upd.xfer := some ({ src := 1, xid := 1, slot := 1, blen := 8192, opened := true, expected := 8192, programmed := 8192 } : UpdXfer) } : State).wr UnitId.upd.STATE stRun).wr UnitId.upd.STATE stRun) with upd.xfer := some ({ src := 1, xid := 1, slot := 1, blen := 8192, opened := true, expected := 8192, programmed := 8192 } : UpdXfer) } : State),
   1, ({ kind := 5, xid := 1 } : BulkMsg),
   ({ src := 1, xid := 1, slot := 1, blen := 8192, opened := true, expected := 8192, programmed := 8192 } : UpdXfer),
   by decide +kernel, by decide +kernel, by decide +kernel, by decide +kernel, by decide +kernel, by decide +kernel,
   by decide +kernel, by decide +kernel⟩

theorem test_witness_update_transfers_1_5 : ∃ s : State, ∃ src : Nat, ∃ x : BulkMsg, ∃ y : UpdXfer,
    (s.takeInbox tyBulk src x.bytes : State).running .upd = true ∧ (s.takeInbox tyBulk src x.bytes : State).upd.xfer = some y ∧
    y.src = src ∧ y.xid = x.xid ∧ x.kind = 7 :=
  ⟨({ ((({ State.reset with upd.xfer := some ({ src := 1, xid := 1, slot := 1, blen := 8192, opened := true, expected := 0, programmed := 0 } : UpdXfer) } : State).wr UnitId.upd.STATE stRun).wr UnitId.upd.STATE stRun) with upd.xfer := some ({ src := 1, xid := 1, slot := 1, blen := 8192, opened := true, expected := 0, programmed := 0 } : UpdXfer) } : State),
   1, ({ kind := 7, xid := 1 } : BulkMsg),
   ({ src := 1, xid := 1, slot := 1, blen := 8192, opened := true, expected := 0, programmed := 0 } : UpdXfer),
   by decide +kernel, by decide +kernel, by decide +kernel, by decide +kernel, by decide +kernel⟩

theorem test_witness_update_transfers_2_0 : ∃ s : State, ∃ src : Nat, ∃ x : BulkMsg, ∃ c : Instr × Nat,
    ((s.takeInbox tyBulk src x.bytes : State).running .upd = false ∨ x.kind ≠ c.2 ∨ (s.takeInbox tyBulk src x.bytes : State).upd.xfer = none ∨ (∃ y, (s.takeInbox tyBulk src x.bytes : State).upd.xfer = some y ∧ (y.src ≠ src ∨ y.xid ≠ x.xid))) ∧
    c ∈ [(Instr.bulkData src x, 3), (.bulkEnd src x, 5), (.bulkAbort src x, 7)] :=
  ⟨State.reset, 1, ({ kind := 7, xid := 1 } : BulkMsg), (Instr.bulkAbort 1 ({ kind := 7, xid := 1 } : BulkMsg), 7),
   by decide +kernel, by simp⟩

theorem test_witness_update_transfers_3_0 : ∃ s : State, ∃ r : FlashEnd, ∃ y : UpdXfer, ∃ data : List Byte,
    s.upd.xfer = some y ∧ y.block = some data ∧ s.working .upd = false :=
  ⟨({ ({ State.reset with upd.xfer := some ({ src := 1, xid := 1, slot := 1, blen := 8192, opened := true, buf := zeros 4096, programmed := 4096 } : UpdXfer) } : State) with upd.xfer := some ({ src := 1, xid := 1, slot := 1, blen := 8192, opened := true, buf := zeros 4096, programmed := 4096 } : UpdXfer) } : State),
   FlashEnd.ok,
   ({ src := 1, xid := 1, slot := 1, blen := 8192, opened := true, buf := zeros 4096, programmed := 4096 } : UpdXfer),
   (zeros 4096), by decide +kernel, by decide +kernel, by decide +kernel⟩

theorem test_witness_update_transfers_3_2 : ∃ s : State, ∃ y : UpdXfer, ∃ data : List Byte,
    s.upd.xfer = some y ∧ y.block = some data ∧ s.working .upd = true ∧ s.blockCheck y data = ucOk :=
  ⟨({ ((({ State.reset with upd.xfer := some ({ src := 1, xid := 1, slot := 1, blen := 8192, opened := true, buf := zeros 4096, programmed := 4096 } : UpdXfer) } : State).wr UnitId.upd.STATE stRun).wr UnitId.upd.STATE stRun) with upd.xfer := some ({ src := 1, xid := 1, slot := 1, blen := 8192, opened := true, buf := zeros 4096, programmed := 4096 } : UpdXfer) } : State),
   ({ src := 1, xid := 1, slot := 1, blen := 8192, opened := true, buf := zeros 4096, programmed := 4096 } : UpdXfer),
   (zeros 4096), by decide +kernel, by decide +kernel, by decide +kernel, by decide +kernel⟩

theorem test_witness_update_transfers_3_3 : ∃ s : State, ∃ y : UpdXfer, ∃ data : List Byte,
    s.upd.xfer = some y ∧ y.block = some data ∧ s.working .upd = true ∧ s.blockCheck y data = ucOk :=
  ⟨({ ((({ State.reset with upd.xfer := some ({ src := 1, xid := 1, slot := 1, blen := 8192, opened := true, buf := zeros 4096, programmed := 4096 } : UpdXfer) } : State).wr UnitId.upd.STATE stRun).wr UnitId.upd.STATE stRun) with upd.xfer := some ({ src := 1, xid := 1, slot := 1, blen := 8192, opened := true, buf := zeros 4096, programmed := 4096 } : UpdXfer) } : State),
   ({ src := 1, xid := 1, slot := 1, blen := 8192, opened := true, buf := zeros 4096, programmed := 4096 } : UpdXfer),
   (zeros 4096), by decide +kernel, by decide +kernel, by decide +kernel, by decide +kernel⟩

theorem test_witness_update_transfers_3_4 : ∃ s : State, ∃ y : UpdXfer, ∃ data : List Byte,
    s.upd.xfer = some y ∧ y.block = some data ∧ s.working .upd = true ∧ s.blockCheck y data = ucOk :=
  ⟨({ ((({ State.reset with upd.xfer := some ({ src := 1, xid := 1, slot := 1, blen := 8192, opened := true, buf := zeros 4096, programmed := 4096 } : UpdXfer) } : State).wr UnitId.upd.STATE stRun).wr UnitId.upd.STATE stRun) with upd.xfer := some ({ src := 1, xid := 1, slot := 1, blen := 8192, opened := true, buf := zeros 4096, programmed := 4096 } : UpdXfer) } : State),
   ({ src := 1, xid := 1, slot := 1, blen := 8192, opened := true, buf := zeros 4096, programmed := 4096 } : UpdXfer),
   (zeros 4096), by decide +kernel, by decide +kernel, by decide +kernel, by decide +kernel⟩

theorem test_witness_update_transfers_4_0 : ∃ s : State, ∃ r : FlashEnd, ∃ y : UpdXfer,
    s.upd.xfer = some y ∧ y.block = none :=
  ⟨({ ({ State.reset with upd.xfer := some ({ src := 1, xid := 1, slot := 1, blen := 8192, opened := true } : UpdXfer) } : State) with upd.xfer := some ({ src := 1, xid := 1, slot := 1, blen := 8192, opened := true } : UpdXfer) } : State),
   FlashEnd.ok, ({ src := 1, xid := 1, slot := 1, blen := 8192, opened := true } : UpdXfer), by decide +kernel,
   by decide +kernel⟩

theorem test_witness_update_transfers_5_0 : ∃ s : State,
    s.upd.xfer = none :=
  ⟨State.reset, by decide +kernel⟩

theorem test_witness_update_transfers_5_1 : ∃ s : State,
    s.upd.xfer = none :=
  ⟨State.reset, by decide +kernel⟩

theorem test_witness_update_transfers_6_0 : ∃ s : State, ∃ y : UpdXfer,
    s.upd.xfer = some y ∧ y.ended = true :=
  ⟨({ State.reset with upd.xfer := some ({ src := 1, xid := 1, slot := 1, blen := 0, ended := true } : UpdXfer) } : State),
   ({ src := 1, xid := 1, slot := 1, blen := 0, ended := true } : UpdXfer), by decide +kernel, by decide +kernel⟩

theorem test_witness_update_transfers_6_1 : ∃ s : State, ∃ y : UpdXfer,
    s.upd.xfer = some y ∧ y.ended = false :=
  ⟨({ State.reset with upd.xfer := some ({ src := 1, xid := 1, slot := 1, blen := 0, ended := false } : UpdXfer) } : State),
   ({ src := 1, xid := 1, slot := 1, blen := 0, ended := false } : UpdXfer), by decide +kernel, by decide +kernel⟩

theorem test_witness_update_transfers_7_0 : ∃ s : State,
    s.upd.erase = none :=
  ⟨State.reset, by decide +kernel⟩

theorem test_witness_update_transfers_7_1 : ∃ s : State,
    s.running .upd = false :=
  ⟨State.reset, by decide +kernel⟩

theorem test_witness_update_transfers_8_0 : ∃ s : State, ∃ e : UpdErase,
    s.running .upd = true ∧ s.upd.erase = some e ∧ e.forOpen = false :=
  ⟨(({ State.reset with upd.erase := some ({ slot := 1, forOpen := false } : UpdErase) } : State).wr UnitId.upd.STATE stRun),
   ({ slot := 1, forOpen := false } : UpdErase), by decide +kernel, by decide +kernel, by decide +kernel⟩

theorem test_witness_update_transfers_8_1 : ∃ s : State, ∃ e : UpdErase, ∃ y : UpdXfer,
    s.running .upd = true ∧ s.upd.erase = some e ∧ e.forOpen = true ∧
    (State.unlist { s with upd := { s.upd with erase := none } } (slotBase e.slot) slotSize : State).upd.xfer = some y :=
  ⟨(({ ({ State.reset with upd.erase := some ({ slot := 1, forOpen := true } : UpdErase) } : State) with upd.xfer := some ({ src := 1, xid := 1, slot := 1, blen := 0 } : UpdXfer) } : State).wr UnitId.upd.STATE stRun),
   ({ slot := 1, forOpen := true } : UpdErase), ({ src := 1, xid := 1, slot := 1, blen := 0 } : UpdXfer), by decide +kernel,
   by decide +kernel, by decide +kernel, by decide +kernel⟩

theorem test_witness_update_transfers_8_2 : ∃ s : State, ∃ e : UpdErase,
    s.running .upd = true ∧ s.upd.erase = some e ∧ e.forOpen = false :=
  ⟨(({ State.reset with upd.erase := some ({ slot := 1, forOpen := false } : UpdErase) } : State).wr UnitId.upd.STATE stRun),
   ({ slot := 1, forOpen := false } : UpdErase), by decide +kernel, by decide +kernel, by decide +kernel⟩

theorem test_witness_update_transfers_8_3 : ∃ s : State, ∃ e : UpdErase,
    s.running .upd = true ∧ s.upd.erase = some e ∧ e.forOpen = true ∧
    ((State.wr { s with upd := { s.upd with erase := none } } R.UPD_FADDR.FADDR (slotBase e.slot - norBase)).updFail 2 : State).upd.xfer = none :=
  ⟨(({ State.reset with upd.erase := some ({ slot := 1, forOpen := true } : UpdErase) } : State).wr UnitId.upd.STATE stRun),
   ({ slot := 1, forOpen := true } : UpdErase), by decide +kernel, by decide +kernel, by decide +kernel, by decide +kernel⟩

theorem test_witness_update_transfers_8_4 : ∃ s : State, ∃ e : UpdErase, ∃ y : UpdXfer,
    s.running .upd = true ∧ s.upd.erase = some e ∧ e.forOpen = true ∧
    ((State.wr { s with upd := { s.upd with erase := none } } R.UPD_FADDR.FADDR (slotBase e.slot - norBase)).updFail 2 : State).upd.xfer = some y :=
  ⟨(({ ({ State.reset with upd.erase := some ({ slot := 1, forOpen := true } : UpdErase) } : State) with upd.xfer := some ({ src := 1, xid := 1, slot := 1, blen := 0 } : UpdXfer) } : State).wr UnitId.upd.STATE stRun),
   ({ slot := 1, forOpen := true } : UpdErase), ({ src := 1, xid := 1, slot := 1, blen := 0 } : UpdXfer), by decide +kernel,
   by decide +kernel, by decide +kernel, by decide +kernel⟩

theorem test_witness_update_transfers_8_5 : ∃ s : State, ∃ e : UpdErase,
    s.running .upd = true ∧ s.upd.erase = some e ∧ e.forOpen = true ∧
    (State.unlist { s with upd := { s.upd with erase := none } } (slotBase e.slot) slotSize : State).upd.xfer = none :=
  ⟨(({ State.reset with upd.erase := some ({ slot := 1, forOpen := true } : UpdErase) } : State).wr UnitId.upd.STATE stRun),
   ({ slot := 1, forOpen := true } : UpdErase), by decide +kernel, by decide +kernel, by decide +kernel, by decide +kernel⟩

theorem test_witness_update_transfers_9_0 : ∃ s : State,
    (s.upd.verifying = none ∨ s.running .upd = false) :=
  ⟨State.reset, by decide +kernel⟩

/-! Witnesses of update_commands. -/

theorem test_witness_update_commands_0_0 : ∃ s : State,
    s.updBusy = true :=
  ⟨(State.reset.raise R.UPD_CMD.GO), by decide +kernel⟩

theorem test_witness_update_commands_0_1 : ∃ s : State, ∃ k,
    s.updBusy = true ∧ k < 2 :=
  ⟨(State.reset.raise R.UPD_CMD.GO), 1, by decide +kernel, by decide +kernel⟩

theorem test_witness_update_commands_1_0 : ∃ s : State, ∃ k : Nat, ∃ r : Nat → State,
    k < 2 ∧ s.updBusy = false ∧ (∀ op, r op = (s.wr R.UPD_CMD.OP op).wr R.UPD_CMD.SLOT k) ∧
    (s.mayErase k = false ∨ s.upd.erase ≠ none) :=
  ⟨({ (State.reset.clear R.UPD_CMD.GO) with upd.erase := some { slot := 1, forOpen := false } } : State), 1,
   (fun op => (({ (State.reset.clear R.UPD_CMD.GO) with upd.erase := some { slot := 1, forOpen := false } } : State).wr R.UPD_CMD.OP op).wr R.UPD_CMD.SLOT 1),
   by decide +kernel, by decide +kernel, fun _ => rfl, by decide +kernel⟩

theorem test_witness_update_commands_1_1 : ∃ s : State, ∃ k : Nat, ∃ r : Nat → State,
    k < 2 ∧ s.updBusy = false ∧ (∀ op, r op = (s.wr R.UPD_CMD.OP op).wr R.UPD_CMD.SLOT k) ∧
    (s.upd.verifying ≠ none ∨ (s.slotState k ≠ slReceived ∧ (s.slotState k ≠ slEmpty ∨ s.slotData k = false))) :=
  ⟨((({ State.reset with upd.verifying := some 0 } : State).clear R.UPD_CMD.GO).wr (R.UPD_SLOT_STAT.STATE 1) slGood), 1,
   (fun op => (((({ State.reset with upd.verifying := some 0 } : State).clear R.UPD_CMD.GO).wr (R.UPD_SLOT_STAT.STATE 1) slGood).wr R.UPD_CMD.OP op).wr R.UPD_CMD.SLOT 1),
   by decide +kernel, by decide +kernel, fun _ => rfl, by decide +kernel⟩

theorem test_witness_update_commands_1_2 : ∃ s : State, ∃ k : Nat, ∃ r : Nat → State,
    k < 2 ∧ s.updBusy = false ∧ (∀ op, r op = (s.wr R.UPD_CMD.OP op).wr R.UPD_CMD.SLOT k) ∧
    (s.slotState k ≠ slVerified ∨ s.rd R.UPD_PHASE.PHASE ≠ phIdle) :=
  ⟨(State.reset.clear R.UPD_CMD.GO), 1, (fun op => ((State.reset.clear R.UPD_CMD.GO).wr R.UPD_CMD.OP op).wr R.UPD_CMD.SLOT 1),
   by decide +kernel, by decide +kernel, fun _ => rfl, by decide +kernel⟩

theorem test_witness_update_commands_1_3 : ∃ s : State, ∃ k : Nat, ∃ r : Nat → State,
    k < 2 ∧ s.updBusy = false ∧ (∀ op, r op = (s.wr R.UPD_CMD.OP op).wr R.UPD_CMD.SLOT k) ∧ s.slotState k ≠ slVerified :=
  ⟨(State.reset.clear R.UPD_CMD.GO), 1, (fun op => ((State.reset.clear R.UPD_CMD.GO).wr R.UPD_CMD.OP op).wr R.UPD_CMD.SLOT 1),
   by decide +kernel, by decide +kernel, fun _ => rfl, by decide +kernel⟩

theorem test_witness_update_commands_1_4 : ∃ s : State, ∃ k : Nat, ∃ r : Nat → State,
    k < 2 ∧ s.updBusy = false ∧ (∀ op, r op = (s.wr R.UPD_CMD.OP op).wr R.UPD_CMD.SLOT k) ∧
    (k ≠ s.runSlot ∨ s.slotState k ≠ slTrial) :=
  ⟨(State.reset.clear R.UPD_CMD.GO), 1, (fun op => ((State.reset.clear R.UPD_CMD.GO).wr R.UPD_CMD.OP op).wr R.UPD_CMD.SLOT 1),
   by decide +kernel, by decide +kernel, fun _ => rfl, by decide +kernel⟩

theorem test_witness_update_commands_2_0 : ∃ s : State, ∃ k : Nat, ∃ u : Nat → State,
    k < 2 ∧ s.updBusy = false ∧ (∀ op, u op = ((s.wr R.UPD_CMD.OP op).wr R.UPD_CMD.SLOT k).raise R.UPD_CMD.GO) ∧
    s.running .upd = true ∧ s.mayErase k = true ∧ s.upd.erase = none :=
  ⟨((State.reset.clear R.UPD_CMD.GO).wr UnitId.upd.STATE stRun), 1,
   (fun op => ((((State.reset.clear R.UPD_CMD.GO).wr UnitId.upd.STATE stRun).wr R.UPD_CMD.OP op).wr R.UPD_CMD.SLOT 1).raise R.UPD_CMD.GO),
   by decide +kernel, by decide +kernel, fun _ => rfl, by decide +kernel, by decide +kernel, by decide +kernel⟩

theorem test_witness_update_commands_2_1 : ∃ s : State, ∃ k : Nat, ∃ u : Nat → State,
    k < 2 ∧ s.updBusy = false ∧ (∀ op, u op = ((s.wr R.UPD_CMD.OP op).wr R.UPD_CMD.SLOT k).raise R.UPD_CMD.GO) ∧
    s.running .upd = true ∧ (s.slotState k = slReceived ∨ (s.slotState k = slEmpty ∧ s.slotData k = true)) ∧
    s.upd.verifying = none :=
  ⟨(((State.reset.clear R.UPD_CMD.GO).wr UnitId.upd.STATE stRun).wr (R.UPD_SLOT_STAT.STATE 1) slReceived), 1,
   (fun op => (((((State.reset.clear R.UPD_CMD.GO).wr UnitId.upd.STATE stRun).wr (R.UPD_SLOT_STAT.STATE 1) slReceived).wr R.UPD_CMD.OP op).wr R.UPD_CMD.SLOT 1).raise R.UPD_CMD.GO),
   by decide +kernel, by decide +kernel, fun _ => rfl, by decide +kernel, by decide +kernel, by decide +kernel⟩

theorem test_witness_update_commands_2_2 : ∃ s : State, ∃ k : Nat, ∃ u : Nat → State,
    k < 2 ∧ s.updBusy = false ∧ (∀ op, u op = ((s.wr R.UPD_CMD.OP op).wr R.UPD_CMD.SLOT k).raise R.UPD_CMD.GO) ∧
    s.running .upd = true ∧ s.slotState k = slVerified ∧ s.rd R.UPD_PHASE.PHASE = phIdle :=
  ⟨((((State.reset.clear R.UPD_CMD.GO).wr UnitId.upd.STATE stRun).wr (R.UPD_SLOT_STAT.STATE 1) slVerified).wr R.UPD_PHASE.PHASE phIdle),
   1,
   (fun op => ((((((State.reset.clear R.UPD_CMD.GO).wr UnitId.upd.STATE stRun).wr (R.UPD_SLOT_STAT.STATE 1) slVerified).wr R.UPD_PHASE.PHASE phIdle).wr R.UPD_CMD.OP op).wr R.UPD_CMD.SLOT 1).raise R.UPD_CMD.GO),
   by decide +kernel, by decide +kernel, fun _ => rfl, by decide +kernel, by decide +kernel, by decide +kernel⟩

theorem test_witness_update_commands_2_3 : ∃ s : State, ∃ k : Nat, ∃ u : Nat → State,
    k < 2 ∧ s.updBusy = false ∧ (∀ op, u op = ((s.wr R.UPD_CMD.OP op).wr R.UPD_CMD.SLOT k).raise R.UPD_CMD.GO) ∧
    s.running .upd = true ∧ s.slotState k = slVerified :=
  ⟨(((State.reset.clear R.UPD_CMD.GO).wr UnitId.upd.STATE stRun).wr (R.UPD_SLOT_STAT.STATE 1) slVerified), 1,
   (fun op => (((((State.reset.clear R.UPD_CMD.GO).wr UnitId.upd.STATE stRun).wr (R.UPD_SLOT_STAT.STATE 1) slVerified).wr R.UPD_CMD.OP op).wr R.UPD_CMD.SLOT 1).raise R.UPD_CMD.GO),
   by decide +kernel, by decide +kernel, fun _ => rfl, by decide +kernel, by decide +kernel⟩

theorem test_witness_update_commands_2_4 : ∃ s : State, ∃ u : Nat → State,
    (s.runSlot : Nat) < 2 ∧ s.updBusy = false ∧
    (∀ op, u op = ((s.wr R.UPD_CMD.OP op).wr R.UPD_CMD.SLOT (s.runSlot : Nat)).raise R.UPD_CMD.GO) ∧ s.running .upd = true ∧
    s.slotState (s.runSlot : Nat) = slTrial :=
  ⟨(((State.reset.clear R.UPD_CMD.GO).wr UnitId.upd.STATE stRun).wr (R.UPD_SLOT_STAT.STATE (State.reset.runSlot : Nat)) slTrial),
   (fun op => (((((State.reset.clear R.UPD_CMD.GO).wr UnitId.upd.STATE stRun).wr (R.UPD_SLOT_STAT.STATE (State.reset.runSlot : Nat)) slTrial).wr R.UPD_CMD.OP op).wr R.UPD_CMD.SLOT ((((State.reset.clear R.UPD_CMD.GO).wr UnitId.upd.STATE stRun).wr (R.UPD_SLOT_STAT.STATE (State.reset.runSlot : Nat)) slTrial).runSlot : Nat)).raise R.UPD_CMD.GO),
   by decide +kernel, by decide +kernel, fun _ => rfl, by decide +kernel, by decide +kernel⟩

theorem test_witness_update_commands_3_0 : ∃ s : State, ∃ u : Nat → State,
    s.updBusy = false ∧ (∀ op, u op = ((s.wr R.UPD_CMD.OP op).wr R.UPD_CMD.SLOT (s.rd R.UPD_CMD.SLOT)).raise R.UPD_CMD.GO) ∧
    s.running .upd = true :=
  ⟨((State.reset.clear R.UPD_CMD.GO).wr UnitId.upd.STATE stRun),
   (fun op => ((((State.reset.clear R.UPD_CMD.GO).wr UnitId.upd.STATE stRun).wr R.UPD_CMD.OP op).wr R.UPD_CMD.SLOT (((State.reset.clear R.UPD_CMD.GO).wr UnitId.upd.STATE stRun).rd R.UPD_CMD.SLOT)).raise R.UPD_CMD.GO),
   by decide +kernel, fun _ => rfl, by decide +kernel⟩

theorem test_witness_update_commands_3_1 : ∃ s : State, ∃ u : Nat → State,
    s.updBusy = false ∧ (∀ op, u op = ((s.wr R.UPD_CMD.OP op).wr R.UPD_CMD.SLOT (s.rd R.UPD_CMD.SLOT)).raise R.UPD_CMD.GO) ∧
    s.running .upd = true ∧ (s.rd R.UPD_PHASE.PHASE : Nat) = phStaged :=
  ⟨(((State.reset.clear R.UPD_CMD.GO).wr UnitId.upd.STATE stRun).wr R.UPD_PHASE.PHASE phStaged),
   (fun op => (((((State.reset.clear R.UPD_CMD.GO).wr UnitId.upd.STATE stRun).wr R.UPD_PHASE.PHASE phStaged).wr R.UPD_CMD.OP op).wr R.UPD_CMD.SLOT ((((State.reset.clear R.UPD_CMD.GO).wr UnitId.upd.STATE stRun).wr R.UPD_PHASE.PHASE phStaged).rd R.UPD_CMD.SLOT)).raise R.UPD_CMD.GO),
   by decide +kernel, fun _ => rfl, by decide +kernel, by decide +kernel⟩

theorem test_witness_update_commands_3_2 : ∃ s : State, ∃ u : Nat → State,
    s.updBusy = false ∧ (∀ op, u op = ((s.wr R.UPD_CMD.OP op).wr R.UPD_CMD.SLOT (s.rd R.UPD_CMD.SLOT)).raise R.UPD_CMD.GO) ∧
    s.running .upd = true ∧ (s.rd R.UPD_PHASE.PHASE : Nat) = phReady ∧ (∀ t, (s.upd.holdEnds = some t) → s.now / 4 < t / 4) :=
  ⟨(((State.reset.clear R.UPD_CMD.GO).wr UnitId.upd.STATE stRun).wr R.UPD_PHASE.PHASE phReady),
   (fun op => (((((State.reset.clear R.UPD_CMD.GO).wr UnitId.upd.STATE stRun).wr R.UPD_PHASE.PHASE phReady).wr R.UPD_CMD.OP op).wr R.UPD_CMD.SLOT ((((State.reset.clear R.UPD_CMD.GO).wr UnitId.upd.STATE stRun).wr R.UPD_PHASE.PHASE phReady).rd R.UPD_CMD.SLOT)).raise R.UPD_CMD.GO),
   by decide +kernel, fun _ => rfl, by decide +kernel, by decide +kernel, by decide +kernel⟩

theorem test_witness_update_commands_3_3 : ∃ s : State, ∃ u : Nat → State,
    s.updBusy = false ∧ (∀ op, u op = ((s.wr R.UPD_CMD.OP op).wr R.UPD_CMD.SLOT (s.rd R.UPD_CMD.SLOT)).raise R.UPD_CMD.GO) ∧
    s.running .upd = true ∧ (s.rd R.UPD_PHASE.PHASE : Nat) = phArmed :=
  ⟨(((State.reset.clear R.UPD_CMD.GO).wr UnitId.upd.STATE stRun).wr R.UPD_PHASE.PHASE phArmed),
   (fun op => (((((State.reset.clear R.UPD_CMD.GO).wr UnitId.upd.STATE stRun).wr R.UPD_PHASE.PHASE phArmed).wr R.UPD_CMD.OP op).wr R.UPD_CMD.SLOT ((((State.reset.clear R.UPD_CMD.GO).wr UnitId.upd.STATE stRun).wr R.UPD_PHASE.PHASE phArmed).rd R.UPD_CMD.SLOT)).raise R.UPD_CMD.GO),
   by decide +kernel, fun _ => rfl, by decide +kernel, by decide +kernel⟩

theorem test_witness_update_commands_3_4 : ∃ s : State, ∃ u : Nat → State,
    s.updBusy = false ∧ (∀ op, u op = ((s.wr R.UPD_CMD.OP op).wr R.UPD_CMD.SLOT (s.rd R.UPD_CMD.SLOT)).raise R.UPD_CMD.GO) ∧
    s.running .upd = true ∧ ((s.rd R.UPD_PHASE.PHASE : Nat) = phHold ∨ (s.rd R.UPD_PHASE.PHASE : Nat) = phReady) :=
  ⟨(((State.reset.clear R.UPD_CMD.GO).wr UnitId.upd.STATE stRun).wr R.UPD_PHASE.PHASE phHold),
   (fun op => (((((State.reset.clear R.UPD_CMD.GO).wr UnitId.upd.STATE stRun).wr R.UPD_PHASE.PHASE phHold).wr R.UPD_CMD.OP op).wr R.UPD_CMD.SLOT ((((State.reset.clear R.UPD_CMD.GO).wr UnitId.upd.STATE stRun).wr R.UPD_PHASE.PHASE phHold).rd R.UPD_CMD.SLOT)).raise R.UPD_CMD.GO),
   by decide +kernel, fun _ => rfl, by decide +kernel, by decide +kernel⟩

theorem test_witness_update_commands_4_0 : ∃ s : State, ∃ u : Nat → State,
    s.updBusy = false ∧ (∀ op, u op = (s.wr R.UPD_CMD.OP op).wr R.UPD_CMD.SLOT (s.rd R.UPD_CMD.SLOT)) ∧
    (s.rd R.UPD_PHASE.PHASE : Nat) ≠ phStaged :=
  ⟨(State.reset.clear R.UPD_CMD.GO),
   (fun op => ((State.reset.clear R.UPD_CMD.GO).wr R.UPD_CMD.OP op).wr R.UPD_CMD.SLOT ((State.reset.clear R.UPD_CMD.GO).rd R.UPD_CMD.SLOT)),
   by decide +kernel, fun _ => rfl, by decide +kernel⟩

theorem test_witness_update_commands_4_1 : ∃ s : State, ∃ u : Nat → State,
    s.updBusy = false ∧ (∀ op, u op = (s.wr R.UPD_CMD.OP op).wr R.UPD_CMD.SLOT (s.rd R.UPD_CMD.SLOT)) ∧
    ((s.rd R.UPD_PHASE.PHASE : Nat) ≠ phReady ∨ s.holdLeft = false) :=
  ⟨(State.reset.clear R.UPD_CMD.GO),
   (fun op => ((State.reset.clear R.UPD_CMD.GO).wr R.UPD_CMD.OP op).wr R.UPD_CMD.SLOT ((State.reset.clear R.UPD_CMD.GO).rd R.UPD_CMD.SLOT)),
   by decide +kernel, fun _ => rfl, by decide +kernel⟩

theorem test_witness_update_commands_4_2 : ∃ s : State, ∃ u : Nat → State,
    s.updBusy = false ∧ (∀ op, u op = (s.wr R.UPD_CMD.OP op).wr R.UPD_CMD.SLOT (s.rd R.UPD_CMD.SLOT)) ∧
    (s.rd R.UPD_PHASE.PHASE : Nat) ≠ phArmed ∧ (s.rd R.UPD_PHASE.PHASE : Nat) ≠ phHold ∧
    (s.rd R.UPD_PHASE.PHASE : Nat) ≠ phReady :=
  ⟨(State.reset.clear R.UPD_CMD.GO),
   (fun op => ((State.reset.clear R.UPD_CMD.GO).wr R.UPD_CMD.OP op).wr R.UPD_CMD.SLOT ((State.reset.clear R.UPD_CMD.GO).rd R.UPD_CMD.SLOT)),
   by decide +kernel, fun _ => rfl, by decide +kernel, by decide +kernel, by decide +kernel⟩

theorem test_witness_update_commands_5_0 : ∃ s : State, ∃ k : Nat, ∃ r : Nat → State, ∃ c : Instr × Nat,
    k < 2 ∧ s.updBusy = false ∧ s.running .upd = false ∧ (∀ op, r op = (s.wr R.UPD_CMD.OP op).wr R.UPD_CMD.SLOT k) ∧
    c ∈ [(Instr.updErase k, 1), (.updVerify k, 2), (.updStage k, 3), (.updActivate k, 5), (.updConfirm k, 6)] :=
  ⟨(State.reset.clear R.UPD_CMD.GO), 1, (fun op => ((State.reset.clear R.UPD_CMD.GO).wr R.UPD_CMD.OP op).wr R.UPD_CMD.SLOT 1),
   (Instr.updConfirm 1, 6), by decide +kernel, by decide +kernel, by decide +kernel, fun _ => rfl, by simp⟩

theorem test_witness_update_commands_6_0 : ∃ s : State, ∃ u : Nat → State, ∃ c,
    s.updBusy = false ∧ s.running .upd = false ∧
    (∀ op, u op = (s.wr R.UPD_CMD.OP op).wr R.UPD_CMD.SLOT (s.rd R.UPD_CMD.SLOT)) ∧
    c ∈ [(Instr.updUnstage, 4), (.updRecover, 7), (.updCommit, 8), (.updAbort, 9)] :=
  ⟨((({ ((State.reset.clear R.UPD_CMD.GO).wr64 R.UPD_RVER_LO.addr R.UPD_RVER_HI.addr 0xFFFFFFFFFFFFFFFF) with upd.staged := 1 } : State).putBytes (slotBase 1 + 6) [1, 0]).putBytes (slotBase 1 + 128) [2, 0]),
   (fun op => (((({ ((State.reset.clear R.UPD_CMD.GO).wr64 R.UPD_RVER_LO.addr R.UPD_RVER_HI.addr 0xFFFFFFFFFFFFFFFF) with upd.staged := 1 } : State).putBytes (slotBase 1 + 6) [1, 0]).putBytes (slotBase 1 + 128) [2, 0]).wr R.UPD_CMD.OP op).wr R.UPD_CMD.SLOT (((({ ((State.reset.clear R.UPD_CMD.GO).wr64 R.UPD_RVER_LO.addr R.UPD_RVER_HI.addr 0xFFFFFFFFFFFFFFFF) with upd.staged := 1 } : State).putBytes (slotBase 1 + 6) [1, 0]).putBytes (slotBase 1 + 128) [2, 0]).rd R.UPD_CMD.SLOT)),
   (.updAbort, 9), by decide +kernel, by decide +kernel, fun _ => rfl, by simp⟩

theorem test_witness_update_commands_7_0 : ∃ s : State,
    (s.running .upd = false ∨ s.upd.job ≠ some .stage) :=
  ⟨State.reset, by decide +kernel⟩

theorem test_witness_update_commands_7_1 : ∃ s : State,
    s.running .upd = true ∧ s.upd.job = some .stage ∧ s.checkStage s.upd.staged ≠ ucOk :=
  ⟨(({ State.reset with upd.job := some .stage } : State).wr UnitId.upd.STATE stRun), by decide +kernel, by decide +kernel,
   by decide +kernel⟩

theorem test_witness_update_commands_8_1 : ∃ s : State,
    s.running .upd = true ∧ s.upd.job = some .stage ∧ s.checkStage (s.upd.staged : Nat) = ucOk ∧
    (∀ p ∈ ((s.manifest (s.upd.staged : Nat)).parts.filter (fun p => p.typ == 2 || p.typ == 4) : List Part), s.digestOk (s.upd.staged : Nat) p = true) :=
  ⟨(({ ((({ State.reset with upd.job := some .stage } : State).wr UnitId.upd.STATE stRun).wr64 R.UPD_RVER_LO.addr R.UPD_RVER_HI.addr 0xFFFFFFFFFFFFFFFF) with upd.staged := 1 } : State).putBytes (slotBase 1 + 6) (zeros 2)),
   by decide +kernel, by decide +kernel, by decide +kernel, by decide +kernel⟩

theorem test_witness_update_commands_9_0 : ∃ s : State,
    (s.rd R.UPD_PHASE.PHASE ≠ phHold ∨ s.heldForSwitch = false ∨ s.running .upd = false) :=
  ⟨State.reset, by decide +kernel⟩

theorem test_witness_update_commands_9_1 : ∃ s : State,
    s.rd R.UPD_PHASE.PHASE = phHold ∧ s.heldForSwitch = true ∧ s.running .upd = true :=
  ⟨((((State.reset.wr R.UPD_PHASE.PHASE phHold).wr R.SCH_STAT.HOLD 2).wr R.SCH_STAT.HOLDSRC 1).wr UnitId.upd.STATE stRun),
   by decide +kernel, by decide +kernel, by decide +kernel⟩

theorem test_witness_update_commands_10_0 : ∃ s : State,
    s.upd.holdEnds = none :=
  ⟨State.reset, by decide +kernel⟩

theorem test_witness_update_commands_10_1 : ∃ s : State, ∃ t : Nat,
    s.upd.holdEnds = some t ∧ (s.rd R.UPD_PHASE.PHASE = phHold ∨ s.rd R.UPD_PHASE.PHASE = phReady) :=
  ⟨(({ State.reset with upd.holdEnds := some 0 } : State).wr R.UPD_PHASE.PHASE phHold), 0, by decide +kernel, by decide +kernel⟩

theorem test_witness_update_commands_10_2 : ∃ s : State, ∃ t : Nat,
    s.upd.holdEnds = some t ∧ s.rd R.UPD_PHASE.PHASE = phCommit :=
  ⟨(({ State.reset with upd.holdEnds := some 0 } : State).wr R.UPD_PHASE.PHASE phCommit), 0, by decide +kernel,
   by decide +kernel⟩

theorem test_witness_update_commands_10_3 : ∃ s : State, ∃ t : Nat,
    s.upd.holdEnds = some t ∧ s.rd R.UPD_PHASE.PHASE < phHold :=
  ⟨({ State.reset with upd.holdEnds := some 0 } : State), 0, by decide +kernel, by decide +kernel⟩

/-! Witnesses of late_commit_is_refused. -/

theorem test_witness_late_commit_is_refused_0_0 : ∃ s : State, ∃ e,
    s.upd.holdEnds = some e ∧ s.now / 4 = e / 4 ∧ s.rd R.UPD_PHASE.PHASE = phReady ∧ s.updBusy = false ∧ s.running .upd = true :=
  ⟨(((({ State.reset with upd.holdEnds := some 0 } : State).wr R.UPD_PHASE.PHASE phReady).clear R.UPD_CMD.GO).wr UnitId.upd.STATE stRun),
   0, by decide +kernel, by decide +kernel, by decide +kernel, by decide +kernel, by decide +kernel⟩

/-! Witnesses of recovery_mode. -/

theorem test_witness_recovery_mode_0_0 : ∃ s : State,
    (s.upd.recovery = none ∨ s.upd.ordered = true) :=
  ⟨State.reset, by decide +kernel⟩

theorem test_witness_recovery_mode_0_1 : ∃ s : State, ∃ reason : Nat,
    s.upd.recovery = some reason ∧ s.upd.ordered = false :=
  ⟨({ ({ State.reset with upd.recovery := some 0 } : State) with upd.ordered := false } : State), 0, by decide +kernel,
   by decide +kernel⟩

theorem test_witness_recovery_mode_2_0 : ∃ s : State, ∃ o : RecOrder,
    o.op ≠ 1 :=
  ⟨State.reset, ({ mac := 0, op := 2, slot := 0, nonce := 0, server := 0, port := 0, tool := 1 } : RecOrder), by decide +kernel⟩

theorem test_witness_recovery_mode_2_1 : ∃ s : State, ∃ o : RecOrder,
    o.op ≠ 2 :=
  ⟨State.reset, ({ mac := 0, op := 1, slot := 0, nonce := 0, server := 0, port := 0, tool := 1 } : RecOrder), by decide +kernel⟩

theorem test_witness_recovery_mode_2_2 : ∃ s : State, ∃ o : RecOrder,
    o.op ≠ 3 :=
  ⟨State.reset, ({ mac := 0, op := 1, slot := 0, nonce := 0, server := 0, port := 0, tool := 1 } : RecOrder), by decide +kernel⟩

theorem test_witness_recovery_mode_3_0 : ∃ s : State, ∃ o : RecOrder,
    (s.upd.recovery = none ∨ s.upd.lastRecovery = none ∨ o.mac ≠ s.ownMac ∨ o.nonce ≠ s.upd.nonce) :=
  ⟨State.reset, ({ mac := 0, op := 1, slot := 0, nonce := 0, server := 0, port := 0, tool := 1 } : RecOrder), by decide +kernel⟩

theorem test_witness_recovery_mode_4_0 : ∃ s : State, ∃ o : RecOrder,
    s.upd.recovery ≠ none ∧ s.upd.lastRecovery ≠ none ∧ o.mac = s.ownMac ∧ o.nonce = s.upd.nonce ∧ o.op = 1 ∧ s.upd.tftp ≠ none :=
  ⟨(withMac (({ ({ ({ State.reset with upd.recovery := some 0 } : State) with upd.lastRecovery := some (.tftpRead []) } : State) with upd.tftp := some { slot := 0, tool := 1 } } : State)) 0),
   ({ mac := 0, op := 1, slot := 0, nonce := 0, server := 0, port := 0, tool := 1 } : RecOrder), by decide +kernel,
   by decide +kernel, by decide +kernel, by decide +kernel, by decide +kernel, by decide +kernel⟩

theorem test_witness_recovery_mode_4_1 : ∃ s : State, ∃ o : RecOrder,
    s.upd.recovery ≠ none ∧ s.upd.lastRecovery ≠ none ∧ o.mac = s.ownMac ∧ o.nonce = s.upd.nonce ∧ o.op = 1 ∧
    s.upd.tftp = none ∧ (1 < o.slot ∨ (o.slot = s.boot.act ∧ s.boot.slot o.slot = slGood ∧ s.bootRec ≠ none)) :=
  ⟨(withMac (({ ({ State.reset with upd.recovery := some 0 } : State) with upd.lastRecovery := some (.tftpRead []) } : State)) 0),
   ({ mac := 0, op := 1, slot := 2, nonce := 0, server := 0, port := 0, tool := 1 } : RecOrder), by decide +kernel,
   by decide +kernel, by decide +kernel, by decide +kernel, by decide +kernel, by decide +kernel, by decide +kernel⟩

theorem test_witness_recovery_mode_4_2 : ∃ s : State, ∃ o : RecOrder,
    s.upd.recovery ≠ none ∧ s.upd.lastRecovery ≠ none ∧ o.mac = s.ownMac ∧ o.nonce = s.upd.nonce ∧ o.op = 1 ∧
    s.upd.tftp = none ∧ o.slot < 2 ∧ (o.slot ≠ s.boot.act ∨ s.boot.slot o.slot ≠ slGood ∨ s.bootRec = none) :=
  ⟨(withMac (({ ({ State.reset with upd.recovery := some 0 } : State) with upd.lastRecovery := some (.tftpRead []) } : State)) 0),
   ({ mac := 0, op := 1, slot := 0, nonce := 0, server := 0, port := 0, tool := 1 } : RecOrder), by decide +kernel,
   by decide +kernel, by decide +kernel, by decide +kernel, by decide +kernel, by decide +kernel, by decide +kernel,
   by decide +kernel⟩

theorem test_witness_recovery_mode_4_3 : ∃ s : State, ∃ o : RecOrder,
    s.upd.recovery ≠ none ∧ s.upd.lastRecovery ≠ none ∧ o.mac = s.ownMac ∧ o.nonce = s.upd.nonce ∧ o.op = 2 ∧
    s.on R.PWR_STAT.RCV = false :=
  ⟨(withMac ((({ ({ State.reset with upd.recovery := some 0 } : State) with upd.lastRecovery := some (.tftpRead []) } : State).clear R.PWR_STAT.RCV)) 0),
   ({ mac := 0, op := 2, slot := 0, nonce := 0, server := 0, port := 0, tool := 1 } : RecOrder), by decide +kernel,
   by decide +kernel, by decide +kernel, by decide +kernel, by decide +kernel, by decide +kernel⟩

theorem test_witness_recovery_mode_4_4 : ∃ s : State, ∃ o : RecOrder,
    s.upd.recovery ≠ none ∧ s.upd.lastRecovery ≠ none ∧ o.mac = s.ownMac ∧ o.nonce = s.upd.nonce ∧ o.op = 2 ∧
    s.on R.PWR_STAT.RCV = true :=
  ⟨(withMac ((({ ({ State.reset with upd.recovery := some 0 } : State) with upd.lastRecovery := some (.tftpRead []) } : State).raise R.PWR_STAT.RCV)) 0),
   ({ mac := 0, op := 2, slot := 0, nonce := 0, server := 0, port := 0, tool := 1 } : RecOrder), by decide +kernel,
   by decide +kernel, by decide +kernel, by decide +kernel, by decide +kernel, by decide +kernel⟩

theorem test_witness_recovery_mode_4_5 : ∃ s : State, ∃ o : RecOrder,
    s.upd.recovery ≠ none ∧ s.upd.lastRecovery ≠ none ∧ o.mac = s.ownMac ∧ o.nonce = s.upd.nonce ∧ o.op = 3 :=
  ⟨(withMac (({ ({ State.reset with upd.recovery := some 0 } : State) with upd.lastRecovery := some (.tftpRead []) } : State)) 0),
   ({ mac := 0, op := 3, slot := 0, nonce := 0, server := 0, port := 0, tool := 1 } : RecOrder), by decide +kernel,
   by decide +kernel, by decide +kernel, by decide +kernel, by decide +kernel⟩

theorem test_witness_recovery_mode_5_0 : ∃ s : State,
    s.upd.tftp = none :=
  ⟨State.reset, by decide +kernel⟩

theorem test_witness_recovery_mode_5_1 : ∃ s : State,
    s.upd.tftp = none :=
  ⟨State.reset, by decide +kernel⟩

theorem test_witness_recovery_mode_6_0 : ∃ s : State, ∃ b : Nat, ∃ d : List Byte,
    (s.upd.recovery = none ∨ 512 < d.length) :=
  ⟨State.reset, 0, [], by decide +kernel⟩

theorem test_witness_recovery_mode_7_0 : ∃ s : State, ∃ t : UpdTftp, ∃ b : Nat, ∃ d : List Byte,
    s.upd.tftp = some t ∧ s.upd.recovery ≠ none ∧ d.length ≤ 512 ∧ b % 65536 ≠ (t.block + 1) % 65536 ∧
    b % 65536 = t.block % 65536 ∧ t.block ≠ 0 :=
  ⟨({ ({ ({ State.reset with upd.tftp := some ({ slot := 0, tool := 1, block := 1, received := 0 } : UpdTftp) } : State) with upd.recovery := some 0 } : State) with upd.tftp := some ({ slot := 0, tool := 1, block := 1, received := 0 } : UpdTftp) } : State),
   ({ slot := 0, tool := 1, block := 1, received := 0 } : UpdTftp), 1, zeros 512, by decide +kernel, by decide +kernel,
   by decide +kernel, by decide +kernel, by decide +kernel, by decide +kernel⟩

theorem test_witness_recovery_mode_7_1 : ∃ s : State, ∃ t : UpdTftp, ∃ b : Nat, ∃ d : List Byte,
    s.upd.tftp = some t ∧ s.upd.recovery ≠ none ∧ d.length ≤ 512 ∧ b % 65536 ≠ (t.block + 1) % 65536 ∧
    (b % 65536 ≠ t.block % 65536 ∨ t.block = 0) :=
  ⟨({ ({ State.reset with upd.tftp := some ({ slot := 0, tool := 1 } : UpdTftp) } : State) with upd.recovery := some 0 } : State),
   ({ slot := 0, tool := 1 } : UpdTftp), 0, [], by decide +kernel, by decide +kernel, by decide +kernel, by decide +kernel,
   by decide +kernel⟩

theorem test_witness_recovery_mode_7_2 : ∃ s : State, ∃ t : UpdTftp, ∃ b : Nat, ∃ d : List Byte,
    s.upd.tftp = some t ∧ s.upd.recovery ≠ none ∧ d.length ≤ 512 ∧ b % 65536 = (t.block + 1) % 65536 ∧
    slotSize < t.received + d.length :=
  ⟨({ ({ ({ State.reset with upd.tftp := some ({ slot := 0, tool := 1, block := 1, received := slotSize } : UpdTftp) } : State) with upd.recovery := some 0 } : State) with upd.tftp := some ({ slot := 0, tool := 1, block := 1, received := slotSize } : UpdTftp) } : State),
   ({ slot := 0, tool := 1, block := 1, received := slotSize } : UpdTftp), 2, zeros 1, by decide +kernel, by decide +kernel,
   by decide +kernel, by decide +kernel, by decide +kernel⟩

theorem test_witness_recovery_mode_7_4 : ∃ s : State, ∃ t : UpdTftp, ∃ b : Nat, ∃ d : List Byte,
    s.upd.tftp = some t ∧ s.upd.recovery ≠ none ∧ d.length ≤ 512 ∧ b % 65536 = (t.block + 1) % 65536 ∧
    t.received + d.length ≤ slotSize ∧
    ((if d = [] then ucOk else (s.putBytes (slotBase t.slot + t.received) d : State).tftpChecks t.slot t.received ({ t with block := t.block + 1, received := t.received + d.length, repeats := 0, last := (s.putBytes (slotBase t.slot + t.received) d : State).now } : UpdTftp).received (d.length < 512)) : Nat) = ucOk ∧
    d.length = 512 :=
  ⟨({ ({ ({ State.reset with upd.tftp := some ({ slot := 0, tool := 1, block := 0, received := 0 } : UpdTftp) } : State) with upd.recovery := some 0 } : State) with upd.tftp := some ({ slot := 0, tool := 1, block := 0, received := 0 } : UpdTftp) } : State),
   ({ slot := 0, tool := 1, block := 0, received := 0 } : UpdTftp), 1, zeros 512, by decide +kernel, by decide +kernel,
   by decide +kernel, by decide +kernel, by decide +kernel, by decide +kernel, by decide +kernel⟩

theorem test_witness_recovery_mode_7_5 : ∃ s : State, ∃ t : UpdTftp, ∃ b : Nat, ∃ d : List Byte,
    s.upd.tftp = some t ∧ s.upd.recovery ≠ none ∧ d.length ≤ 512 ∧ b % 65536 = (t.block + 1) % 65536 ∧
    t.received + d.length ≤ slotSize ∧
    ((if d = [] then ucOk else (s.putBytes (slotBase t.slot + t.received) d : State).tftpChecks t.slot t.received ({ t with block := t.block + 1, received := t.received + d.length, repeats := 0, last := (s.putBytes (slotBase t.slot + t.received) d : State).now } : UpdTftp).received (d.length < 512)) : Nat) = ucOk ∧
    d.length < 512 :=
  ⟨({ ({ ({ State.reset with upd.tftp := some ({ slot := 0, tool := 1, block := 1, received := 512 } : UpdTftp) } : State) with upd.recovery := some 0 } : State) with upd.tftp := some ({ slot := 0, tool := 1, block := 1, received := 512 } : UpdTftp) } : State),
   ({ slot := 0, tool := 1, block := 1, received := 512 } : UpdTftp), 2, [], by decide +kernel, by decide +kernel,
   by decide +kernel, by decide +kernel, by decide +kernel, by decide +kernel, by decide +kernel⟩

theorem test_witness_recovery_mode_8_0 : ∃ s : State, ∃ t : UpdTftp,
    s.upd.tftp = some t ∧ 5 ≤ t.repeats :=
  ⟨({ State.reset with upd.tftp := some ({ slot := 0, tool := 1, repeats := 5 } : UpdTftp) } : State),
   ({ slot := 0, tool := 1, repeats := 5 } : UpdTftp), by decide +kernel, by decide +kernel⟩

theorem test_witness_recovery_mode_8_1 : ∃ s : State, ∃ t : UpdTftp,
    s.upd.tftp = some t ∧ t.repeats < 5 :=
  ⟨({ State.reset with upd.tftp := some ({ slot := 0, tool := 1, repeats := 4 } : UpdTftp) } : State),
   ({ slot := 0, tool := 1, repeats := 4 } : UpdTftp), by decide +kernel, by decide +kernel⟩

/-! Witnesses of power_and_brake. -/

theorem test_witness_power_and_brake_0_0 : ∃ s : State, ∃ r : Rails,
    (s.pwr.released = true ∨ r.vin < 9000 ∨ r.vhu < 44000 ∨ (s.on R.PWR_STAT.SRCPOE = true ∧ s.on R.PWR_STAT.SRCX1 = false ∧ s.on R.PWR_STAT.POET2 = false)) :=
  ⟨({ State.reset with pwr.released := true } : State), ({ vin := 0, vhu := 0 } : Rails), by decide +kernel⟩

theorem test_witness_power_and_brake_0_1 : ∃ s : State, ∃ r : Rails,
    s.pwr.released = false ∧ 9000 ≤ r.vin ∧ 44000 ≤ r.vhu ∧
    (s.on R.PWR_STAT.SRCPOE = false ∨ s.on R.PWR_STAT.SRCX1 = true ∨ s.on R.PWR_STAT.POET2 = true) :=
  ⟨(({ State.reset with pwr.released := false } : State).clear R.PWR_STAT.SRCPOE), ({ vin := 9000, vhu := 44000 } : Rails),
   by decide +kernel, by decide +kernel, by decide +kernel, by decide +kernel⟩

theorem test_witness_power_and_brake_1_0 : ∃ s : State, ∃ n,
    448 ≤ n :=
  ⟨State.reset, 448, by decide +kernel⟩

theorem test_witness_power_and_brake_1_1 : ∃ s : State, ∃ n,
    n < 448 :=
  ⟨State.reset, 447, by decide +kernel⟩

theorem test_witness_power_and_brake_2_1 : ∃ s : State, ∃ a,
    a ≠ R.PWR_STAT.addr :=
  ⟨State.reset, 0, by decide +kernel⟩

theorem test_witness_power_and_brake_3_0 : ∃ s : State, ∃ x1 : Bool, ∃ poe : Bool, ∃ t2 : Bool,
    s.on R.PWR_STAT.SRCX1 = x1 ∧ s.on R.PWR_STAT.SRCPOE = poe :=
  ⟨((State.reset.clear R.PWR_STAT.SRCX1).clear R.PWR_STAT.SRCPOE), false, false, false, by decide +kernel, by decide +kernel⟩

theorem test_witness_power_and_brake_3_1 : ∃ s : State, ∃ x1 : Bool, ∃ poe : Bool, ∃ t2 : Bool,
    (s.on R.PWR_STAT.SRCX1 ≠ x1 ∨ s.on R.PWR_STAT.SRCPOE ≠ poe) :=
  ⟨(State.reset.clear R.PWR_STAT.SRCX1), true, false, false, by decide +kernel⟩

theorem test_witness_power_and_brake_4_0 : ∃ s : State, ∃ r : Rails,
    (9000 ≤ r.vin ∨ r.vin < 8500) :=
  ⟨State.reset, ({ vin := 9000, vhu := 0 } : Rails), by decide +kernel⟩

theorem test_witness_power_and_brake_4_1 : ∃ s : State, ∃ r : Rails,
    8500 ≤ r.vin ∧ r.vin < 9000 ∧
    (s.pwr.released = false ∨ (State.clear ((s.rails r).clear R.PWR_STAT.WARN) R.PWR_STAT.VINOK : State).pstate ≠ psNormal ∨ s.on R.PWR_STAT.VINOK = false) :=
  ⟨({ State.reset with pwr.released := false } : State), ({ vin := 8999, vhu := 0 } : Rails), by decide +kernel,
   by decide +kernel, by decide +kernel⟩

theorem test_witness_power_and_brake_4_2 : ∃ s : State, ∃ r : Rails,
    8500 ≤ r.vin ∧ r.vin < 9000 ∧ s.pwr.released = true ∧
    (State.clear ((s.rails r).clear R.PWR_STAT.WARN) R.PWR_STAT.VINOK : State).pstate = psNormal ∧
    s.on R.PWR_STAT.VINOK = true ∧
    dueAgain ((State.raise { (State.clear ((s.rails r).clear R.PWR_STAT.WARN) R.PWR_STAT.VINOK : State) with pwr := { (State.clear ((s.rails r).clear R.PWR_STAT.WARN) R.PWR_STAT.VINOK : State).pwr with okSince := none } } R.PWR_INTSTAT.INLOW).bump R.PWR_CNT_INLOW.COUNT : State).pwr.inlowAt ((State.raise { (State.clear ((s.rails r).clear R.PWR_STAT.WARN) R.PWR_STAT.VINOK : State) with pwr := { (State.clear ((s.rails r).clear R.PWR_STAT.WARN) R.PWR_STAT.VINOK : State).pwr with okSince := none } } R.PWR_INTSTAT.INLOW).bump R.PWR_CNT_INLOW.COUNT : State).now sec = false :=
  ⟨({ ((({ State.reset with pwr.released := true } : State).wr R.PWR_STAT.PSTATE psNormal).raise R.PWR_STAT.VINOK) with pwr.inlowAt := some 0 } : State),
   ({ vin := 8999, vhu := 0 } : Rails), by decide +kernel, by decide +kernel, by decide +kernel, by decide +kernel,
   by decide +kernel, by decide +kernel⟩

theorem test_witness_power_and_brake_4_3 : ∃ s : State, ∃ r : Rails,
    8500 ≤ r.vin ∧ r.vin < 9000 ∧ s.pwr.released = true ∧
    (State.clear ((s.rails r).clear R.PWR_STAT.WARN) R.PWR_STAT.VINOK : State).pstate = psNormal ∧
    s.on R.PWR_STAT.VINOK = true ∧
    dueAgain ((State.raise { (State.clear ((s.rails r).clear R.PWR_STAT.WARN) R.PWR_STAT.VINOK : State) with pwr := { (State.clear ((s.rails r).clear R.PWR_STAT.WARN) R.PWR_STAT.VINOK : State).pwr with okSince := none } } R.PWR_INTSTAT.INLOW).bump R.PWR_CNT_INLOW.COUNT : State).pwr.inlowAt ((State.raise { (State.clear ((s.rails r).clear R.PWR_STAT.WARN) R.PWR_STAT.VINOK : State) with pwr := { (State.clear ((s.rails r).clear R.PWR_STAT.WARN) R.PWR_STAT.VINOK : State).pwr with okSince := none } } R.PWR_INTSTAT.INLOW).bump R.PWR_CNT_INLOW.COUNT : State).now sec = true :=
  ⟨((({ State.reset with pwr.released := true } : State).wr R.PWR_STAT.PSTATE psNormal).raise R.PWR_STAT.VINOK),
   ({ vin := 8999, vhu := 0 } : Rails), by decide +kernel, by decide +kernel, by decide +kernel, by decide +kernel,
   by decide +kernel, by decide +kernel⟩

theorem test_witness_power_and_brake_5_0 : ∃ s : State, ∃ r : Rails,
    8500 ≤ r.vin :=
  ⟨State.reset, ({ vin := 8500, vhu := 0 } : Rails), by decide +kernel⟩

theorem test_witness_power_and_brake_5_1 : ∃ s : State, ∃ r : Rails,
    r.vin < 8500 ∧
    (State.clear ((((((if s.lockFollows then s.lockSet else s) : State).rails r).raise R.PWR_STAT.WARN).clear R.PWR_STAT.VINOK).raise R.PWR_STAT.HUSW) R.PWR_STAT.CHG : State).pwr.released = false :=
  ⟨({ State.reset with pwr.released := false } : State), ({ vin := 8499, vhu := 0 } : Rails), by decide +kernel,
   by decide +kernel⟩

theorem test_witness_power_and_brake_5_2 : ∃ s : State, ∃ r : Rails,
    r.vin < 8500 ∧
    (State.clear ((((((if s.lockFollows then s.lockSet else s) : State).rails r).raise R.PWR_STAT.WARN).clear R.PWR_STAT.VINOK).raise R.PWR_STAT.HUSW) R.PWR_STAT.CHG : State).pwr.released = true ∧
    (State.clear ((((((if s.lockFollows then s.lockSet else s) : State).rails r).raise R.PWR_STAT.WARN).clear R.PWR_STAT.VINOK).raise R.PWR_STAT.HUSW) R.PWR_STAT.CHG : State).on R.SYS_LOCK.LOCK = false :=
  ⟨(({ State.reset with pwr.released := true } : State).clear R.SYS_LOCK.LOCK), ({ vin := 8499, vhu := 0 } : Rails),
   by decide +kernel, by decide +kernel, by decide +kernel⟩

theorem test_witness_power_and_brake_5_3 : ∃ s : State, ∃ r : Rails,
    r.vin < 8500 ∧
    (State.clear ((((((if s.lockFollows then s.lockSet else s) : State).rails r).raise R.PWR_STAT.WARN).clear R.PWR_STAT.VINOK).raise R.PWR_STAT.HUSW) R.PWR_STAT.CHG : State).pwr.released = true ∧
    (State.clear ((((((if s.lockFollows then s.lockSet else s) : State).rails r).raise R.PWR_STAT.WARN).clear R.PWR_STAT.VINOK).raise R.PWR_STAT.HUSW) R.PWR_STAT.CHG : State).on R.SYS_LOCK.LOCK = true ∧
    (State.clear ((((((if s.lockFollows then s.lockSet else s) : State).rails r).raise R.PWR_STAT.WARN).clear R.PWR_STAT.VINOK).raise R.PWR_STAT.HUSW) R.PWR_STAT.CHG : State).pstate = psNormal :=
  ⟨((({ State.reset with pwr.released := true } : State).raise R.SYS_LOCK.LOCK).wr R.PWR_STAT.PSTATE psNormal),
   ({ vin := 8499, vhu := 0 } : Rails), by decide +kernel, by decide +kernel, by decide +kernel, by decide +kernel⟩

theorem test_witness_power_and_brake_5_4 : ∃ s : State, ∃ r : Rails,
    r.vin < 8500 ∧
    (State.clear ((((((if s.lockFollows then s.lockSet else s) : State).rails r).raise R.PWR_STAT.WARN).clear R.PWR_STAT.VINOK).raise R.PWR_STAT.HUSW) R.PWR_STAT.CHG : State).pwr.released = true ∧
    (State.clear ((((((if s.lockFollows then s.lockSet else s) : State).rails r).raise R.PWR_STAT.WARN).clear R.PWR_STAT.VINOK).raise R.PWR_STAT.HUSW) R.PWR_STAT.CHG : State).on R.SYS_LOCK.LOCK = true ∧
    (State.clear ((((((if s.lockFollows then s.lockSet else s) : State).rails r).raise R.PWR_STAT.WARN).clear R.PWR_STAT.VINOK).raise R.PWR_STAT.HUSW) R.PWR_STAT.CHG : State).pstate ≠ psNormal :=
  ⟨((({ State.reset with pwr.released := true } : State).raise R.SYS_LOCK.LOCK).wr R.PWR_STAT.PSTATE psBraking),
   ({ vin := 8499, vhu := 0 } : Rails), by decide +kernel, by decide +kernel, by decide +kernel, by decide +kernel⟩

theorem test_witness_power_and_brake_6_0 : ∃ s : State, ∃ c,
    (s.wr R.PWR_CMD.OP c.2.1 : State).on R.SYS_LOCK.LOCK = false ∧ c ∈ [(Instr.testbrake, 1, 2), (.halt, 2, 3)] :=
  ⟨(State.reset.clear R.SYS_LOCK.LOCK), (.halt, 2, 3), by decide +kernel, by simp⟩

theorem test_witness_power_and_brake_6_1 : ∃ s : State, ∃ c,
    (s.wr R.PWR_CMD.OP c.2.1 : State).on R.SYS_LOCK.LOCK = true ∧ (s.wr R.PWR_CMD.OP c.2.1 : State).pstate ≠ psNormal ∧
    c ∈ [(Instr.testbrake, 1, 2), (.halt, 2, 3)] :=
  ⟨((State.reset.raise R.SYS_LOCK.LOCK).wr R.PWR_STAT.PSTATE psBraking), (.halt, 2, 3), by decide +kernel, by decide +kernel,
   by simp⟩

theorem test_witness_power_and_brake_6_2 : ∃ s : State, ∃ c,
    (s.wr R.PWR_CMD.OP c.2.1 : State).on R.SYS_LOCK.LOCK = true ∧ (s.wr R.PWR_CMD.OP c.2.1 : State).pstate = psNormal ∧
    c ∈ [(Instr.testbrake, 1, 2), (.halt, 2, 3)] :=
  ⟨((State.reset.raise R.SYS_LOCK.LOCK).wr R.PWR_STAT.PSTATE psNormal), (.halt, 2, 3), by decide +kernel, by decide +kernel,
   by simp⟩

theorem test_witness_power_and_brake_8_0 : ∃ s : State,
    s.pstate ≠ psBraking :=
  ⟨(State.reset.wr R.PWR_STAT.PSTATE psNormal), by decide +kernel⟩

theorem test_witness_power_and_brake_8_1 : ∃ s : State,
    s.pstate = psBraking :=
  ⟨((State.reset.wr R.PWR_STAT.PSTATE psBraking).wr R.SCH_STAT.HOLD 2), by decide +kernel⟩

theorem test_witness_power_and_brake_9_0 : ∃ s : State, ∃ r : Rails,
    r.vin < 9000 :=
  ⟨State.reset, ({ vin := 8999, vhu := 0 } : Rails), by decide +kernel⟩

theorem test_witness_power_and_brake_9_1 : ∃ s : State, ∃ r : Rails,
    9000 ≤ r.vin :=
  ⟨State.reset, ({ vin := 9000, vhu := 0 } : Rails), by decide +kernel⟩

theorem test_witness_power_and_brake_10_0 : ∃ s : State,
    (s.pwr.okSince = none ∨ s.pstate ≠ psBraked) :=
  ⟨State.reset, by decide +kernel⟩

theorem test_witness_power_and_brake_10_1 : ∃ s : State, ∃ t : Nat,
    s.pwr.okSince = some t ∧ s.pstate = psBraked ∧ s.rd R.PWR_STAT.BCAUSE = 3 :=
  ⟨((({ State.reset with pwr.okSince := some 0 } : State).wr R.PWR_STAT.PSTATE psBraked).wr R.PWR_STAT.BCAUSE 3), 0,
   by decide +kernel, by decide +kernel, by decide +kernel⟩

theorem test_witness_power_and_brake_10_2 : ∃ s : State, ∃ t : Nat,
    s.pwr.okSince = some t ∧ s.pstate = psBraked ∧ s.rd R.PWR_STAT.BCAUSE ≠ 3 ∧ s.collapseNext = true :=
  ⟨({ (({ State.reset with pwr.okSince := some 0 } : State).wr R.PWR_STAT.PSTATE psBraked) with pending := [.huResetLevel] } : State),
   0, by decide +kernel, by decide +kernel, by decide +kernel, by decide +kernel⟩

theorem test_witness_power_and_brake_10_3 : ∃ s : State, ∃ t : Nat,
    s.pwr.okSince = some t ∧ s.pstate = psBraked ∧ s.rd R.PWR_STAT.BCAUSE ≠ 3 ∧ s.collapseNext = false :=
  ⟨(({ State.reset with pwr.okSince := some 0 } : State).wr R.PWR_STAT.PSTATE psBraked), 0, by decide +kernel,
   by decide +kernel, by decide +kernel, by decide +kernel⟩

theorem test_witness_power_and_brake_11_0 : ∃ s : State,
    s.upd.brakeInCommit = true :=
  ⟨({ State.reset with upd.brakeInCommit := true } : State), by decide +kernel⟩

theorem test_witness_power_and_brake_11_1 : ∃ s : State,
    s.upd.brakeInCommit = false :=
  ⟨({ State.reset with upd.brakeInCommit := false } : State), by decide +kernel⟩

theorem test_witness_power_and_brake_12_0 : ∃ s : State,
    s.pwr.released = false :=
  ⟨({ State.reset with pwr.released := false } : State), by decide +kernel⟩

theorem test_witness_power_and_brake_12_1 : ∃ s : State,
    s.pwr.released = true :=
  ⟨({ State.reset with pwr.released := true } : State), by decide +kernel⟩

/-! Witnesses of warning_before_lock_resets. -/

theorem test_witness_warning_before_lock_resets_0_0 : ∃ s : State, ∃ r : Rails, ∃ r' : Rails, ∃ f : RomFacts,
    s.lockFollows = false ∧ r.vin < 8500 ∧ s.pwr.released = true ∧ s.start.phase ≠ 0 ∧ s.on R.SYS_LOCK.LOCK = false :=
  ⟨(({ ({ State.reset with pwr.released := true } : State) with start.phase := 1 } : State).clear R.SYS_LOCK.LOCK),
   ({ vin := 8499, vhu := 0 } : Rails), ({ vin := 0, vhu := 0 } : Rails),
   ({ bistPass := true, checkerPass := true, puf := none } : RomFacts), by decide +kernel, by decide +kernel,
   by decide +kernel, by decide +kernel, by decide +kernel⟩

/-! Witnesses of start_lock_and_reset. -/

theorem test_witness_start_lock_and_reset_0_0 : ∃ s : State, ∃ f : RomFacts,
    (s.start.phase ≠ 0 ∨ s.pwr.released = false) :=
  ⟨({ State.reset with start.phase := 1 } : State), ({ bistPass := true, checkerPass := true, puf := none } : RomFacts),
   by decide +kernel⟩

theorem test_witness_start_lock_and_reset_1_0 : ∃ s : State, ∃ f : RomFacts, ∃ v : State, ∃ w : State,
    s.start.phase = 0 ∧ s.pwr.released = true ∧
    (State.backupCheck (State.wrb (State.fieldSample { s with start := { s.start with phase := 1, origin := s.now } }) R.PWR_STAT.RCV f.rcv) : State).selfTest f = ((false : Bool), v) ∧
    v.rd R.SYS_RSTCAUSE.CAUSE = rcBistfail :=
  ⟨(({ ({ State.reset with start.phase := 0 } : State) with pwr.released := true } : State).wr R.SYS_RSTCAUSE.CAUSE rcBistfail),
   ({ bistPass := false, checkerPass := true, puf := none } : RomFacts), _, State.reset, by decide +kernel, by decide +kernel,
   fst_is (by decide +kernel), by decide +kernel⟩

theorem test_witness_start_lock_and_reset_1_1 : ∃ s : State, ∃ f : RomFacts, ∃ v : State, ∃ w : State,
    s.start.phase = 0 ∧ s.pwr.released = true ∧
    (State.backupCheck (State.wrb (State.fieldSample { s with start := { s.start with phase := 1, origin := s.now } }) R.PWR_STAT.RCV f.rcv) : State).selfTest f = ((false : Bool), v) ∧
    v.rd R.SYS_RSTCAUSE.CAUSE ≠ rcBistfail :=
  ⟨({ ({ State.reset with start.phase := 0 } : State) with pwr.released := true } : State),
   ({ bistPass := false, checkerPass := true, puf := none } : RomFacts), _, State.reset, by decide +kernel, by decide +kernel,
   fst_is (by decide +kernel), by decide +kernel⟩

theorem test_witness_start_lock_and_reset_1_2 : ∃ s : State, ∃ f : RomFacts, ∃ v : State,
    s.start.phase = 0 ∧ s.pwr.released = true ∧
    (State.backupCheck (State.wrb (State.fieldSample { s with start := { s.start with phase := 1, origin := s.now } }) R.PWR_STAT.RCV f.rcv) : State).selfTest f = ((true : Bool), v) ∧
    ((v.wr R.MEM_PHASE.PHASE 1).vaultStart f : State).rd R.KEY_PUF.STATE = pufFail :=
  ⟨((({ ({ State.reset with start.phase := 0 } : State) with pwr.released := true } : State).wr R.KEY_PUF.STATE pufFail).putBytes helperAt [0x48, 0x4C, 0x50, 0x46, 1, 0]),
   ({ bistPass := true, checkerPass := true, puf := none } : RomFacts), _, by decide +kernel, by decide +kernel,
   fst_is (by decide +kernel), by decide +kernel⟩

theorem test_witness_start_lock_and_reset_2_0 : ∃ s : State, ∃ b : BootRec, ∃ rcv : Bool, ∃ k : Nat, ∃ fell : Bool, ∃ u : State,
    s.bootRec = some b ∧ b.recovery = true :=
  ⟨({ State.reset with mem := bootFlash 0 0 1 0xA5102418 0x079A487DECA8BB38BDA0998465EB2047A74E5E9B517692396EE70F7942F6996D } : State),
   _, false, 0, false, State.reset, some_is ({} : BootRec) (by decide +kernel), by decide +kernel⟩

theorem test_witness_start_lock_and_reset_3_0 : ∃ s : State,
    (s.start.phase ≠ 1 ∨ s.start.kind ≠ 0) :=
  ⟨State.reset, by decide +kernel⟩

theorem test_witness_start_lock_and_reset_4_1 : ∃ s : State, ∃ r : StartRec, ∃ m : Option Nat, ∃ fl : Nat,
    (r.reqkind = kindCold ∨ 3 ≤ r.crashes) :=
  ⟨State.reset, ({ reqkind := kindCold } : StartRec), none, 0, by decide +kernel⟩

theorem test_witness_start_lock_and_reset_4_2 : ∃ s : State, ∃ r : StartRec, ∃ m : Option Nat, ∃ fl : Nat,
    r.reqkind ≠ kindCold ∧ r.crashes < 3 :=
  ⟨State.reset, ({ crashes := 2 } : StartRec), none, 0, by decide +kernel, by decide +kernel⟩

theorem test_witness_start_lock_and_reset_5_0 : ∃ s : State,
    (s.start.phase ≠ 1 ∨ s.start.kind = 0) :=
  ⟨State.reset, by decide +kernel⟩

theorem test_witness_start_lock_and_reset_5_1 : ∃ s : State,
    s.start.phase = 1 ∧ s.start.kind ≠ 0 ∧ s.start.kind = kindCold ∧ s.rd R.SYS_STARTCFG.COLDWAIT_MS ≠ 0 :=
  ⟨(({ ({ ({ State.reset with start.phase := 1 } : State) with start.kind := 1 } : State) with start.kind := kindCold } : State).wr R.SYS_STARTCFG.COLDWAIT_MS 1),
   by decide +kernel, by decide +kernel, by decide +kernel, by decide +kernel⟩

theorem test_witness_start_lock_and_reset_5_2 : ∃ s : State,
    s.start.phase = 1 ∧ s.start.kind ≠ 0 ∧ (s.start.kind ≠ kindCold ∨ s.rd R.SYS_STARTCFG.COLDWAIT_MS = 0) :=
  ⟨({ ({ State.reset with start.phase := 1 } : State) with start.kind := 1 } : State), by decide +kernel, by decide +kernel,
   by decide +kernel⟩

theorem test_witness_start_lock_and_reset_6_0 : ∃ s : State,
    s.start.waiting = false :=
  ⟨({ State.reset with start.waiting := false } : State), by decide +kernel⟩

theorem test_witness_start_lock_and_reset_6_1 : ∃ s : State,
    s.start.waiting = true ∧ s.inputsLive = true :=
  ⟨({ State.reset with start.waiting := true } : State), by decide +kernel, by decide +kernel⟩

theorem test_witness_start_lock_and_reset_7_0 : ∃ s : State, ∃ p,
    p ∈ [(Instr.sysRstReset, 4), (.sysRstFatal, 6)] :=
  ⟨State.reset, (.sysRstFatal, 6), by simp⟩

theorem test_witness_start_lock_and_reset_8_0 : ∃ s : State,
    s.on R.SYS_LOCK.LOCK = true :=
  ⟨(State.reset.raise R.SYS_LOCK.LOCK), by decide +kernel⟩

theorem test_witness_start_lock_and_reset_8_1 : ∃ s : State,
    s.on R.SYS_LOCK.LOCK = false :=
  ⟨(State.reset.clear R.SYS_LOCK.LOCK), by decide +kernel⟩

theorem test_witness_start_lock_and_reset_9_0 : ∃ s : State,
    s.start.phase ≠ 2 :=
  ⟨State.reset, by decide +kernel⟩

theorem test_witness_start_lock_and_reset_9_1 : ∃ s : State,
    s.start.phase = 2 ∧
    ((({ (s.advance (s.start.lastMtAt + sec) : State) with start := { (s.advance (s.start.lastMtAt + sec) : State).start with lastMtAt := (s.advance (s.start.lastMtAt + sec) : State).now } } : State).putStartRec { (({ (s.advance (s.start.lastMtAt + sec) : State) with start := { (s.advance (s.start.lastMtAt + sec) : State).start with lastMtAt := (s.advance (s.start.lastMtAt + sec) : State).now } } : State).startRec : StartRec) with lastmt := ({ (s.advance (s.start.lastMtAt + sec) : State) with start := { (s.advance (s.start.lastMtAt + sec) : State).start with lastMtAt := (s.advance (s.start.lastMtAt + sec) : State).now } } : State).mtNs, crwin := if 0 < (({ (s.advance (s.start.lastMtAt + sec) : State) with start := { (s.advance (s.start.lastMtAt + sec) : State).start with lastMtAt := (s.advance (s.start.lastMtAt + sec) : State).now } } : State).startRec : StartRec).crashes then (({ (s.advance (s.start.lastMtAt + sec) : State) with start := { (s.advance (s.start.lastMtAt + sec) : State).start with lastMtAt := (s.advance (s.start.lastMtAt + sec) : State).now } } : State).startRec : StartRec).crwin + 1 else (({ (s.advance (s.start.lastMtAt + sec) : State) with start := { (s.advance (s.start.lastMtAt + sec) : State).start with lastMtAt := (s.advance (s.start.lastMtAt + sec) : State).now } } : State).startRec : StartRec).crwin } : State).start.migDue = false ∨ (({ (s.advance (s.start.lastMtAt + sec) : State) with start := { (s.advance (s.start.lastMtAt + sec) : State).start with lastMtAt := (s.advance (s.start.lastMtAt + sec) : State).now } } : State).putStartRec { (({ (s.advance (s.start.lastMtAt + sec) : State) with start := { (s.advance (s.start.lastMtAt + sec) : State).start with lastMtAt := (s.advance (s.start.lastMtAt + sec) : State).now } } : State).startRec : StartRec) with lastmt := ({ (s.advance (s.start.lastMtAt + sec) : State) with start := { (s.advance (s.start.lastMtAt + sec) : State).start with lastMtAt := (s.advance (s.start.lastMtAt + sec) : State).now } } : State).mtNs, crwin := if 0 < (({ (s.advance (s.start.lastMtAt + sec) : State) with start := { (s.advance (s.start.lastMtAt + sec) : State).start with lastMtAt := (s.advance (s.start.lastMtAt + sec) : State).now } } : State).startRec : StartRec).crashes then (({ (s.advance (s.start.lastMtAt + sec) : State) with start := { (s.advance (s.start.lastMtAt + sec) : State).start with lastMtAt := (s.advance (s.start.lastMtAt + sec) : State).now } } : State).startRec : StartRec).crwin + 1 else (({ (s.advance (s.start.lastMtAt + sec) : State) with start := { (s.advance (s.start.lastMtAt + sec) : State).start with lastMtAt := (s.advance (s.start.lastMtAt + sec) : State).now } } : State).startRec : StartRec).crwin } : State).start.firstRel = false) :=
  ⟨({ ({ State.reset with start.phase := 2 } : State) with start.migDue := false } : State), by decide +kernel,
   by decide +kernel⟩

theorem test_witness_start_lock_and_reset_9_2 : ∃ s : State,
    s.start.phase = 2 ∧
    (({ (s.advance (s.start.lastMtAt + sec) : State) with start := { (s.advance (s.start.lastMtAt + sec) : State).start with lastMtAt := (s.advance (s.start.lastMtAt + sec) : State).now } } : State).putStartRec { (({ (s.advance (s.start.lastMtAt + sec) : State) with start := { (s.advance (s.start.lastMtAt + sec) : State).start with lastMtAt := (s.advance (s.start.lastMtAt + sec) : State).now } } : State).startRec : StartRec) with lastmt := ({ (s.advance (s.start.lastMtAt + sec) : State) with start := { (s.advance (s.start.lastMtAt + sec) : State).start with lastMtAt := (s.advance (s.start.lastMtAt + sec) : State).now } } : State).mtNs, crwin := if 0 < (({ (s.advance (s.start.lastMtAt + sec) : State) with start := { (s.advance (s.start.lastMtAt + sec) : State).start with lastMtAt := (s.advance (s.start.lastMtAt + sec) : State).now } } : State).startRec : StartRec).crashes then (({ (s.advance (s.start.lastMtAt + sec) : State) with start := { (s.advance (s.start.lastMtAt + sec) : State).start with lastMtAt := (s.advance (s.start.lastMtAt + sec) : State).now } } : State).startRec : StartRec).crwin + 1 else (({ (s.advance (s.start.lastMtAt + sec) : State) with start := { (s.advance (s.start.lastMtAt + sec) : State).start with lastMtAt := (s.advance (s.start.lastMtAt + sec) : State).now } } : State).startRec : StartRec).crwin } : State).start.migDue = true ∧
    (({ (s.advance (s.start.lastMtAt + sec) : State) with start := { (s.advance (s.start.lastMtAt + sec) : State).start with lastMtAt := (s.advance (s.start.lastMtAt + sec) : State).now } } : State).putStartRec { (({ (s.advance (s.start.lastMtAt + sec) : State) with start := { (s.advance (s.start.lastMtAt + sec) : State).start with lastMtAt := (s.advance (s.start.lastMtAt + sec) : State).now } } : State).startRec : StartRec) with lastmt := ({ (s.advance (s.start.lastMtAt + sec) : State) with start := { (s.advance (s.start.lastMtAt + sec) : State).start with lastMtAt := (s.advance (s.start.lastMtAt + sec) : State).now } } : State).mtNs, crwin := if 0 < (({ (s.advance (s.start.lastMtAt + sec) : State) with start := { (s.advance (s.start.lastMtAt + sec) : State).start with lastMtAt := (s.advance (s.start.lastMtAt + sec) : State).now } } : State).startRec : StartRec).crashes then (({ (s.advance (s.start.lastMtAt + sec) : State) with start := { (s.advance (s.start.lastMtAt + sec) : State).start with lastMtAt := (s.advance (s.start.lastMtAt + sec) : State).now } } : State).startRec : StartRec).crwin + 1 else (({ (s.advance (s.start.lastMtAt + sec) : State) with start := { (s.advance (s.start.lastMtAt + sec) : State).start with lastMtAt := (s.advance (s.start.lastMtAt + sec) : State).now } } : State).startRec : StartRec).crwin } : State).start.firstRel = true :=
  ⟨({ ({ ({ State.reset with start.phase := 2 } : State) with start.migDue := true } : State) with start.firstRel := true } : State),
   by decide +kernel, by decide +kernel, by decide +kernel⟩

/-! Witnesses of watchdog_runs_and_resets. -/

theorem test_witness_watchdog_runs_and_resets_1_0 : ∃ s : State,
    (s.start.wdtAt = none ∨ s.pstate ≠ psNormal) :=
  ⟨State.reset, by decide +kernel⟩

theorem test_witness_watchdog_runs_and_resets_1_1 : ∃ s : State, ∃ t,
    s.start.wdtAt = some t ∧ s.pstate = psNormal :=
  ⟨(({ State.reset with start.wdtAt := some 0 } : State).wr R.PWR_STAT.PSTATE psNormal), 0, by decide +kernel, by decide +kernel⟩

theorem test_witness_watchdog_runs_and_resets_2_0 : ∃ s : State, ∃ q : List Instr,
    s.pending = .sysRstReset :: q :=
  ⟨({ ({ State.reset with pending := .sysRstReset :: [] } : State) with pending := [.sysRstReset] } : State), [],
   by decide +kernel⟩

theorem test_witness_watchdog_runs_and_resets_2_1 : ∃ s : State, ∃ q : List Instr,
    s.pending = .sysRstFatal :: q :=
  ⟨({ ({ State.reset with pending := .sysRstFatal :: [] } : State) with pending := [.sysRstFatal] } : State), [],
   by decide +kernel⟩

theorem test_witness_watchdog_runs_and_resets_2_2 : ∃ s : State, ∃ m : Nat, ∃ a : Nat, ∃ v : Word, ∃ q : List Instr,
    s.pending = .registerWrite m a v :: q :=
  ⟨({ ({ State.reset with pending := .registerWrite 0 0 0 :: [] } : State) with pending := [.registerWrite 0 0 0] } : State),
   0, 0, 0, [], by decide +kernel⟩

theorem test_witness_watchdog_runs_and_resets_2_3 : ∃ s : State,
    (∀ c q, (s.pending = c :: q) → c ≠ .sysRstReset ∧ c ≠ .sysRstFatal ∧ (∀ m a v, c ≠ .registerWrite m a v)) :=
  ⟨State.reset, fun c q h => by have h := congrArg List.length h; exact Nat.noConfusion (h : 0 = q.length + 1)⟩

theorem test_witness_watchdog_runs_and_resets_3_0 : ∃ s : State,
    s.start.wdtAt ≠ none ∧ s.pstate = psNormal ∧ s.start.phase ≠ 0 ∧ s.wdtCause = rcWdt :=
  ⟨(({ ({ State.reset with start.wdtAt := some 0 } : State) with start.phase := 1 } : State).wr R.PWR_STAT.PSTATE psNormal),
   by decide +kernel, by decide +kernel, by decide +kernel, by decide +kernel⟩

theorem test_witness_watchdog_runs_and_resets_4_0 : ∃ s : State, ∃ m,
    m < 17 ∧ s.locked = true :=
  ⟨(State.reset.raise R.SYS_LOCK.LOCK), 16, by decide +kernel, by decide +kernel⟩

theorem test_witness_watchdog_runs_and_resets_5_0 : ∃ s : State, ∃ m,
    m < 17 ∧ s.locked = false :=
  ⟨(State.reset.clear R.SYS_LOCK.LOCK), 16, by decide +kernel, by decide +kernel⟩

theorem test_witness_watchdog_runs_and_resets_5_1 : ∃ s : State, ∃ m, ∃ v,
    m < 17 ∧ s.locked = false ∧ R.SYS_WDT.WDT_MS.of v = 0 :=
  ⟨(State.reset.clear R.SYS_LOCK.LOCK), 16, 0, by decide +kernel, by decide +kernel, by decide +kernel⟩

theorem test_witness_watchdog_runs_and_resets_5_2 : ∃ s : State, ∃ m : Nat, ∃ v : Word,
    m < 17 ∧ s.locked = false ∧ 10 ≤ R.SYS_WDT.WDT_MS.of v ∧ R.SYS_WDT.WDT_MS.of v ≤ 10000 :=
  ⟨(State.reset.clear R.SYS_LOCK.LOCK), 16, 10000, by decide +kernel, by decide +kernel, by decide +kernel, by decide +kernel⟩

theorem test_witness_watchdog_runs_and_resets_5_3 : ∃ s : State, ∃ m : Nat, ∃ v : Word,
    m < 17 ∧ s.locked = false ∧ ((0 < R.SYS_WDT.WDT_MS.of v ∧ R.SYS_WDT.WDT_MS.of v < 10) ∨ 10000 < R.SYS_WDT.WDT_MS.of v) ∧
    R.SYS_WDT.WDT_MS.of v ≠ s.rd R.SYS_WDT.WDT_MS :=
  ⟨(State.reset.clear R.SYS_LOCK.LOCK), 16, 9, by decide +kernel, by decide +kernel, by decide +kernel, by decide +kernel⟩

/-! Witnesses of clock_and_backup_domain. -/

theorem test_witness_clock_and_backup_domain_0_0 : ∃ s : State,
    s.rtc.setPending = true :=
  ⟨({ State.reset with rtc.setPending := true } : State), by decide +kernel⟩

theorem test_witness_clock_and_backup_domain_1_0 : ∃ s : State,
    s.rtc.setPending = false ∧ s.rtc.syncDue = true :=
  ⟨({ ({ State.reset with rtc.setPending := false } : State) with rtc.syncDue := true } : State), by decide +kernel,
   by decide +kernel⟩

theorem test_witness_clock_and_backup_domain_2_0 : ∃ s : State,
    s.rtc.setPending = false ∧ s.rtc.syncDue = false ∧
    ((({ ((if s.rtc.stopped then s else s.advance (s.rtc.secAt + sec)) : State) with rtc := { ((if s.rtc.stopped then s else s.advance (s.rtc.secAt + sec)) : State).rtc with secAt := (if s.rtc.stopped then s.now else s.rtc.secAt + sec), stopped := false, prior := s.timeNow (if s.rtc.stopped then s.subsec else 32767) } } : State).setCalendar ({ ((if s.rtc.stopped then s else s.advance (s.rtc.secAt + sec)) : State) with rtc := { ((if s.rtc.stopped then s else s.advance (s.rtc.secAt + sec)) : State).rtc with secAt := (if s.rtc.stopped then s.now else s.rtc.secAt + sec), stopped := false, prior := s.timeNow (if s.rtc.stopped then s.subsec else 32767) } } : State).calendar.next).wr R.RTC_SUBSEC.SUBSEC 0 : State).on R.RTC_STAT.ONMAIN = true :=
  ⟨(({ ({ State.reset with rtc.setPending := false } : State) with rtc.syncDue := false } : State).raise R.RTC_STAT.ONMAIN),
   by decide +kernel, by decide +kernel, by decide +kernel⟩

theorem test_witness_clock_and_backup_domain_2_1 : ∃ s : State,
    s.rtc.setPending = false ∧ s.rtc.syncDue = false ∧
    ((({ ((if s.rtc.stopped then s else s.advance (s.rtc.secAt + sec)) : State) with rtc := { ((if s.rtc.stopped then s else s.advance (s.rtc.secAt + sec)) : State).rtc with secAt := (if s.rtc.stopped then s.now else s.rtc.secAt + sec), stopped := false, prior := s.timeNow (if s.rtc.stopped then s.subsec else 32767) } } : State).setCalendar ({ ((if s.rtc.stopped then s else s.advance (s.rtc.secAt + sec)) : State) with rtc := { ((if s.rtc.stopped then s else s.advance (s.rtc.secAt + sec)) : State).rtc with secAt := (if s.rtc.stopped then s.now else s.rtc.secAt + sec), stopped := false, prior := s.timeNow (if s.rtc.stopped then s.subsec else 32767) } } : State).calendar.next).wr R.RTC_SUBSEC.SUBSEC 0 : State).on R.RTC_STAT.ONMAIN = false :=
  ⟨(({ ({ State.reset with rtc.setPending := false } : State) with rtc.syncDue := false } : State).clear R.RTC_STAT.ONMAIN),
   by decide +kernel, by decide +kernel, by decide +kernel⟩

theorem test_witness_clock_and_backup_domain_3_0 : ∃ s : State,
    s.staged.valid = true :=
  ⟨(((State.reset.wr R.RTC_SYEAR.YEAR 2024).wr R.RTC_SMON.MON 2).wr R.RTC_SDAY.DAY 29), by decide +kernel⟩

theorem test_witness_clock_and_backup_domain_4_0 : ∃ s : State,
    s.staged.valid = false :=
  ⟨State.reset, by decide +kernel⟩

theorem test_witness_clock_and_backup_domain_5_0 : ∃ s : State, ∃ c : Calendar,
    c.second < 59 :=
  ⟨State.reset, ({ year := 2024, month := 2, day := 29, hour := 23, minute := 59, second := 58 } : Calendar), by decide +kernel⟩

theorem test_witness_clock_and_backup_domain_5_4 : ∃ s : State, ∃ c : Calendar,
    c.valid = true :=
  ⟨State.reset, ({ year := 2024, month := 2, day := 29, hour := 23, minute := 59, second := 58 } : Calendar), by decide +kernel⟩

theorem test_witness_clock_and_backup_domain_6_0 : ∃ s : State,
    s.rtc.stopped = true :=
  ⟨({ State.reset with rtc.stopped := true } : State), by decide +kernel⟩

theorem test_witness_clock_and_backup_domain_7_0 : ∃ s : State,
    s.rtc.stopped = false ∧
    ((State.raise { s.wr R.RTC_SUBSEC.SUBSEC s.subsec with rtc := { s.rtc with stopped := true } } R.RTC_STAT.OSF).wr R.RTC_STAT.TQ 0 : State).on R.RTC_STAT.ONMAIN = true :=
  ⟨(({ State.reset with rtc.stopped := false } : State).raise R.RTC_STAT.ONMAIN), by decide +kernel, by decide +kernel⟩

theorem test_witness_clock_and_backup_domain_7_1 : ∃ s : State,
    s.rtc.stopped = false ∧
    ((State.raise { s.wr R.RTC_SUBSEC.SUBSEC s.subsec with rtc := { s.rtc with stopped := true } } R.RTC_STAT.OSF).wr R.RTC_STAT.TQ 0 : State).on R.RTC_STAT.ONMAIN = false :=
  ⟨(({ State.reset with rtc.stopped := false } : State).clear R.RTC_STAT.ONMAIN), by decide +kernel, by decide +kernel⟩

theorem test_witness_clock_and_backup_domain_8_1 : ∃ s : State, ∃ a,
    a ∈ R.SYS_RSTCAUSE.addr :: backupRegs :=
  ⟨State.reset, R.SYS_RSTCAUSE.addr, by decide +kernel⟩

theorem test_witness_clock_and_backup_domain_10_0 : ∃ s : State, ∃ n : Nat,
    s.on R.RTC_STAT.ONMAIN = false :=
  ⟨(State.reset.clear R.RTC_STAT.ONMAIN), 0, by decide +kernel⟩

theorem test_witness_clock_and_backup_domain_10_1 : ∃ s : State, ∃ n : Nat,
    s.on R.RTC_STAT.ONMAIN = true ∧ 2600 ≤ n :=
  ⟨(State.reset.raise R.RTC_STAT.ONMAIN), 2600, by decide +kernel, by decide +kernel⟩

theorem test_witness_clock_and_backup_domain_10_2 : ∃ s : State, ∃ n : Nat,
    s.on R.RTC_STAT.ONMAIN = true ∧ 2500 ≤ n ∧ n < 2600 :=
  ⟨(State.reset.raise R.RTC_STAT.ONMAIN), 2500, by decide +kernel, by decide +kernel, by decide +kernel⟩

theorem test_witness_clock_and_backup_domain_10_3 : ∃ s : State, ∃ n : Nat,
    s.on R.RTC_STAT.ONMAIN = true ∧ n < 2500 ∧ dueAgain s.rtc.vblowAt s.now (3600 * sec) = false :=
  ⟨({ (State.reset.raise R.RTC_STAT.ONMAIN) with rtc.vblowAt := some 0 } : State), 2499, by decide +kernel, by decide +kernel,
   by decide +kernel⟩

theorem test_witness_clock_and_backup_domain_10_4 : ∃ s : State, ∃ n : Nat,
    s.on R.RTC_STAT.ONMAIN = true ∧ n < 2500 ∧ dueAgain s.rtc.vblowAt s.now (3600 * sec) = true :=
  ⟨(State.reset.raise R.RTC_STAT.ONMAIN), 2499, by decide +kernel, by decide +kernel, by decide +kernel⟩

theorem test_witness_clock_and_backup_domain_11_0 : ∃ s : State, ∃ a, ∃ u : State,
    ((s.on R.RTC_STAT.FROZEN = true) → u = s) ∧
    ((s.on R.RTC_STAT.FROZEN = false) → u = State.raise { s with rtc := { s.rtc with shadows := s.timeCopy, frozenAt := s.now } } R.RTC_STAT.FROZEN) ∧
    a ∈ timeRegs :=
  ⟨State.reset, ((timeRegs).getLast!),
   State.raise { State.reset with rtc := { State.reset.rtc with shadows := State.reset.timeCopy, frozenAt := State.reset.now } } R.RTC_STAT.FROZEN,
   fun h => absurd h (by decide +kernel), fun _ => rfl, by decide +kernel⟩

theorem test_witness_clock_and_backup_domain_12_0 : ∃ s : State,
    s.on R.RTC_STAT.FROZEN = false :=
  ⟨(State.reset.clear R.RTC_STAT.FROZEN), by decide +kernel⟩

theorem test_witness_clock_and_backup_domain_12_1 : ∃ s : State,
    s.on R.RTC_STAT.FROZEN = true :=
  ⟨(State.reset.raise R.RTC_STAT.FROZEN), by decide +kernel⟩

theorem test_witness_clock_and_backup_domain_13_0 : ∃ s : State,
    s.on R.RTC_CMD.GO = true :=
  ⟨(State.reset.raise R.RTC_CMD.GO), by decide +kernel⟩

theorem test_witness_clock_and_backup_domain_14_0 : ∃ s : State,
    s.on R.RTC_CMD.GO = false ∧ s.on R.RTC_STAT.SYNCPEND = true :=
  ⟨((State.reset.clear R.RTC_CMD.GO).raise R.RTC_STAT.SYNCPEND), by decide +kernel, by decide +kernel⟩

theorem test_witness_clock_and_backup_domain_14_1 : ∃ s : State,
    s.on R.RTC_CMD.GO = false ∧ s.on R.RTC_STAT.SYNCPEND = false ∧ s.staged.valid = false :=
  ⟨((State.reset.clear R.RTC_CMD.GO).clear R.RTC_STAT.SYNCPEND), by decide +kernel, by decide +kernel, by decide +kernel⟩

theorem test_witness_clock_and_backup_domain_14_2 : ∃ s : State,
    s.on R.RTC_CMD.GO = false ∧ s.on R.RTC_STAT.SYNCPEND = false ∧ s.staged.valid = true ∧ s.rtc.stopped = false :=
  ⟨(((((({ State.reset with rtc.stopped := false } : State).clear R.RTC_CMD.GO).clear R.RTC_STAT.SYNCPEND).wr R.RTC_SYEAR.YEAR 2024).wr R.RTC_SMON.MON 2).wr R.RTC_SDAY.DAY 29),
   by decide +kernel, by decide +kernel, by decide +kernel, by decide +kernel⟩

theorem test_witness_clock_and_backup_domain_14_3 : ∃ s : State,
    s.on R.RTC_CMD.GO = false ∧ s.on R.RTC_STAT.SYNCPEND = false ∧ s.staged.valid = true ∧ s.rtc.stopped = true :=
  ⟨(((((({ State.reset with rtc.stopped := true } : State).clear R.RTC_CMD.GO).clear R.RTC_STAT.SYNCPEND).wr R.RTC_SYEAR.YEAR 2024).wr R.RTC_SMON.MON 2).wr R.RTC_SDAY.DAY 29),
   by decide +kernel, by decide +kernel, by decide +kernel, by decide +kernel⟩

theorem test_witness_clock_and_backup_domain_14_4 : ∃ s : State,
    s.on R.RTC_CMD.GO = false ∧ s.on R.RTC_STAT.SYNCPEND = false ∧ s.staged.valid = true ∧
    s.rd64 R.RTC_SYNC_LO.addr R.RTC_SYNC_HI.addr < s.mtNs + ms :=
  ⟨(((((State.reset.clear R.RTC_CMD.GO).clear R.RTC_STAT.SYNCPEND).wr R.RTC_SYEAR.YEAR 2024).wr R.RTC_SMON.MON 2).wr R.RTC_SDAY.DAY 29),
   by decide +kernel, by decide +kernel, by decide +kernel, by decide +kernel⟩

theorem test_witness_clock_and_backup_domain_14_5 : ∃ s : State,
    s.on R.RTC_CMD.GO = false ∧ s.on R.RTC_STAT.SYNCPEND = false ∧ s.staged.valid = true ∧
    s.mtNs + ms ≤ s.rd64 R.RTC_SYNC_LO.addr R.RTC_SYNC_HI.addr :=
  ⟨((((((State.reset.clear R.RTC_CMD.GO).clear R.RTC_STAT.SYNCPEND).wr R.RTC_SYEAR.YEAR 2024).wr R.RTC_SMON.MON 2).wr R.RTC_SDAY.DAY 29).wr64 R.RTC_SYNC_LO.addr R.RTC_SYNC_HI.addr 1000000),
   by decide +kernel, by decide +kernel, by decide +kernel, by decide +kernel⟩

theorem test_witness_clock_and_backup_domain_15_0 : ∃ s : State,
    (s.on R.RTC_STAT.SYNCPEND = false ∨ s.rtc.syncDue = true) :=
  ⟨(State.reset.clear R.RTC_STAT.SYNCPEND), by decide +kernel⟩

theorem test_witness_clock_and_backup_domain_15_1 : ∃ s : State,
    s.on R.RTC_STAT.SYNCPEND = true ∧ s.rtc.syncDue = false ∧
    (s.advanceMt (s.rd64 R.RTC_SYNC_LO.addr R.RTC_SYNC_HI.addr) : State).rtc.stopped = true :=
  ⟨(({ ({ State.reset with rtc.syncDue := false } : State) with rtc.stopped := true } : State).raise R.RTC_STAT.SYNCPEND),
   by decide +kernel, by decide +kernel, by decide +kernel⟩

theorem test_witness_clock_and_backup_domain_15_2 : ∃ s : State,
    s.on R.RTC_STAT.SYNCPEND = true ∧ s.rtc.syncDue = false ∧
    (s.advanceMt (s.rd64 R.RTC_SYNC_LO.addr R.RTC_SYNC_HI.addr) : State).rtc.stopped = false :=
  ⟨(({ ({ State.reset with rtc.syncDue := false } : State) with rtc.stopped := false } : State).raise R.RTC_STAT.SYNCPEND),
   by decide +kernel, by decide +kernel, by decide +kernel⟩

theorem test_witness_clock_and_backup_domain_16_0 : ∃ s : State, ∃ n,
    n < 4 :=
  ⟨State.reset, 3, by decide +kernel⟩

theorem test_witness_clock_and_backup_domain_16_1 : ∃ s : State, ∃ n,
    n < 4 ∧ s.staged.valid = true :=
  ⟨(((State.reset.wr R.RTC_SYEAR.YEAR 2024).wr R.RTC_SMON.MON 2).wr R.RTC_SDAY.DAY 29), 3, by decide +kernel, by decide +kernel⟩

theorem test_witness_clock_and_backup_domain_17_0 : ∃ s : State,
    s.on R.RTC_CMD.GO = false :=
  ⟨(State.reset.clear R.RTC_CMD.GO), by decide +kernel⟩

theorem test_witness_clock_and_backup_domain_18_0 : ∃ s : State, ∃ i,
    i < 16 :=
  ⟨State.reset, 15, by decide +kernel⟩

theorem test_witness_clock_and_backup_domain_18_1 : ∃ s : State, ∃ i : Nat, ∃ v : Word, ∃ j : Nat,
    i < 16 ∧ j < 16 ∧ j ≠ i :=
  ⟨State.reset, 15, 0, 14, by decide +kernel, by decide +kernel, by decide +kernel⟩

/-! Witnesses of step_with_no_command. -/

theorem test_witness_step_with_no_command_0_0 : ∃ s : State,
    s.pending = [] :=
  ⟨({ State.reset with pending := [] } : State), by decide +kernel⟩

/-! Witnesses of values_at_reset. -/

theorem test_witness_values_at_reset_0_2 : ∃ u,
    u ∈ allUnits :=
  ⟨UnitId.upd, by decide +kernel⟩

theorem test_witness_values_at_reset_0_3 : ∃ c,
    c < 16 :=
  ⟨15, by decide +kernel⟩

/-! Witnesses of commands_complete. -/

theorem test_witness_commands_complete_0_0 : ∃ s : State, ∃ c : Instr,
    c.wf = true :=
  ⟨State.reset, .sysRstReset, by decide +kernel⟩

theorem test_witness_commands_complete_1_0 : ∃ s : State, ∃ c : Instr,
    c.wf = false :=
  ⟨State.reset, (.registerWrite 17 0 0), by decide +kernel⟩

/-! Witnesses of every_step_keeps_the_invariant. -/

theorem test_witness_every_step_keeps_the_invariant_0_0 : ∃ s : State,
    s.Inv :=
  ⟨({ State.reset with mem := [(0x10000000, 5#8)], pending := [.sysRstReset] } : State),
   ⟨by decide +kernel, by decide +kernel, by decide +kernel⟩⟩

end Sys2Proof.Tests
end

/-!
R495: what a refused UPD_CMD leaves, what an abort of the handover shows, and how HOLDMAX_EXPIRY comes to abort.
-/

namespace Sys2Proof.Machine

/-- A counter's counting leaves the fields of every other register. -/
theorem State.rd_bump_ne {s : State} {f g : Fld} (h : g.addr ≠ f.addr) : (s.bump f).rd g = s.rd g := State.rd_wr_ne h

/-! A command's end (R496). -/

theorem State.updDone_rd_result (s : State) (res : Nat) : (s.updDone res).rd R.UPD_CMD.RESULT = res % 2 ^ 4 := by
  unfold State.updDone State.raise State.clear
  rw [State.rd_wr_ne (by decide), State.rd_wr_apart (by decide) (by decide), State.rd_wr_same (by decide)]
  rfl

theorem State.updDone_rd_go (s : State) (res : Nat) : (s.updDone res).rd R.UPD_CMD.GO = 0 := by
  unfold State.updDone State.raise State.clear
  rw [State.rd_wr_ne (by decide), State.rd_wr_same (by decide), Nat.zero_mod]

/-- A command's end changes no register but UPD_CMD and UPD_INTSTAT. -/
theorem State.updDone_rd_ne {s : State} {res : Nat} {f : Fld} (hcmd : f.addr ≠ R.UPD_CMD.addr)
    (hint : f.addr ≠ R.UPD_INTSTAT.addr) : (s.updDone res).rd f = s.rd f := by
  unfold State.updDone State.raise State.clear
  rw [State.rd_wr_ne hint, State.rd_wr_ne hcmd, State.rd_wr_ne hcmd]
  rfl

@[simp] theorem State.updDone_mem (s : State) (res : Nat) : (s.updDone res).mem = s.mem := rfl

@[simp] theorem State.updDone_holdEnds (s : State) (res : Nat) : (s.updDone res).upd.holdEnds = s.upd.holdEnds := rfl

/-- A command whose own condition fails ends with STATE at once: of its effect nothing happens. -/
theorem State.updCmd_refused {s : State} (op slot : Nat) (run : State → State) (hbusy : s.updBusy = false) :
    s.updCmd op slot false run = ((s.wr R.UPD_CMD.OP op).wr R.UPD_CMD.SLOT slot).updDone ucState := by
  simp [State.updCmd, hbusy]

/-! The handover's end (R490, R491, R495). -/

/-- In the SYS cycle of HOLDMAX's expiry no time of the hold is left. -/
theorem State.holdLeft_eq_false {s : State} {e : Nat} (hold : s.upd.holdEnds = some e) (hcycle : s.now / 4 = e / 4) :
    s.holdLeft = false := by
  simp [State.holdLeft, hold, hcycle]

/-- A COMMIT with no time of the hold left is refused. -/
theorem exec_updCommit_late {s : State} (hbusy : s.updBusy = false) (hleft : s.holdLeft = false) :
    exec .updCommit s = .next (((s.wr R.UPD_CMD.OP 8).wr R.UPD_CMD.SLOT s.cmdSlot).updDone ucState) := by
  change execUpdCommit s = _
  rw [execUpdCommit, hleft, Bool.and_false, State.updCmd_refused _ _ _ hbusy]

/-- HOLDMAX_EXPIRY acts at its instant, and aborts a handover that is READY. -/
theorem exec_holdmaxExpiry_ready {s : State} {e : Nat} (hold : s.upd.holdEnds = some e)
    (hready : s.rd R.UPD_PHASE.PHASE = phReady) : exec .holdmaxExpiry s = .next (s.advance e).updAbort := by
  change execHoldmaxExpiry s = _
  simp [execHoldmaxExpiry, hold, hready]

/-- An abort ends with PHASE IDLE, ABORTED raised, the abort counted and its event posted. -/
theorem State.updAbort_ends (s : State) : ∃ (v : State) (k : Nat), s.updAbort =
    (((v.wr R.UPD_PHASE.PHASE phIdle).raise R.UPD_INTSTAT.ABORTED).bump R.UPD_CNT_ABORT.COUNT).event 0x0F04 (unit := k) :=
  ⟨_, _, rfl⟩

theorem State.updAbort_rd_phase (s : State) : s.updAbort.rd R.UPD_PHASE.PHASE = phIdle := by
  obtain ⟨v, k, habort⟩ := s.updAbort_ends
  rw [habort, State.event_rd _ (by decide) (by decide) (by decide), State.rd_bump_ne (by decide), State.raise,
    State.rd_wr_ne (by decide), State.rd_wr_same (by decide)]
  rfl

theorem State.updAbort_rd_aborted (s : State) : s.updAbort.rd R.UPD_INTSTAT.ABORTED = 1 := by
  obtain ⟨v, k, habort⟩ := s.updAbort_ends
  rw [habort, State.event_rd _ (by decide) (by decide) (by decide), State.rd_bump_ne (by decide), State.raise,
    State.rd_wr_same (by decide)]
  rfl

/-- Settles O48: the refused COMMIT leaves PHASE READY and HOLDMAX running, so that the expiry finds a handover to abort. -/
theorem lateCommitIsRefused : Obligations.late_commit_is_refused := by
  intro s e hold hcycle hready hbusy _
  have hcommit := exec_updCommit_late hbusy (State.holdLeft_eq_false hold hcycle)
  generalize ht : ((s.wr R.UPD_CMD.OP 8).wr R.UPD_CMD.SLOT s.cmdSlot).updDone ucState = t at hcommit
  have htready : t.rd R.UPD_PHASE.PHASE = phReady := by
    rw [← ht, State.updDone_rd_ne (by decide) (by decide), State.rd_wr_ne (by decide), State.rd_wr_ne (by decide), hready]
  have hthold : t.upd.holdEnds = some e := by simp [← ht, hold]
  have hresult : t.rd R.UPD_CMD.RESULT = ucState := by rw [← ht]; exact State.updDone_rd_result _ _
  have hgo : t.rd R.UPD_CMD.GO = 0 := by rw [← ht]; exact State.updDone_rd_go _ _
  have hmem : t.mem = s.mem := by simp [← ht]
  exact ⟨t, (t.advance e).updAbort, hcommit, hresult, hgo, htready, hmem, exec_holdmaxExpiry_ready hthold htready, rfl,
    State.updAbort_rd_phase _, State.updAbort_rd_aborted _⟩

end Sys2Proof.Machine

/-!
R508: a warning before lock. What the module reset leaves of the start, the power block's own state, the reset cause and PSTATE;
what showing the rails leaves alone; and the release that follows the next power-good.
-/

namespace Sys2Proof.Machine

/-- What every step of a loop over a list keeps, the loop keeps. -/
theorem State.each_keeps {α β : Type} (get : State → β) {l : List α} {f : State → α → State}
    (hf : ∀ t, ∀ x ∈ l, get (f t x) = get t) (s : State) : get (s.each l f) = get s := by
  induction l generalizing s with
  | nil => rfl
  | cons x l ih =>
    calc get ((f s x).each l f) = get (f s x) := ih (fun t y hy => hf t y (List.mem_cons_of_mem x hy)) _
      _ = get s := hf s x List.mem_cons_self

/-! The module reset (R14, R560). -/

/-- The module reset of a state: a blank one of what survives, the registers and fields that are kept put back, the cause
recorded. -/
theorem State.moduleReset_eq (s : State) (c : Nat) : ∃ t : State,
    s.moduleReset c = (((t.each keptRegs fun t a => t.setReg a (s.reg a)).each keptFields fun t f => t.wr f (s.rd f)).wr
      R.SYS_RSTCAUSE.CAUSE (if s.start.phase = 0 then min c (s.rd R.SYS_RSTCAUSE.CAUSE) else c)) ∧
    t.regs = [] ∧ t.start = { resetAt := s.now } ∧ t.pwr = { s.pwr with brakeAt := 0, heldAt := none, qabort := false } :=
  ⟨_, rfl, rfl, rfl, rfl⟩

@[simp] theorem State.moduleReset_start (s : State) (c : Nat) : (s.moduleReset c).start = { resetAt := s.now } := by
  obtain ⟨t, hreset, -, hstart, -⟩ := s.moduleReset_eq c
  rw [hreset, State.wr_start, State.each_keeps State.start fun u f _ => u.wr_start f _,
    State.each_keeps State.start fun u a _ => u.setReg_start a _, hstart]

@[simp] theorem State.moduleReset_pwr (s : State) (c : Nat) :
    (s.moduleReset c).pwr = { s.pwr with brakeAt := 0, heldAt := none, qabort := false } := by
  obtain ⟨t, hreset, -, -, hpwr⟩ := s.moduleReset_eq c
  rw [hreset, State.wr_pwr, State.each_keeps State.pwr fun u f _ => u.wr_pwr f _,
    State.each_keeps State.pwr fun u a _ => u.setReg_pwr a _, hpwr]

/-- Out of reset, a module reset records its own cause (R560). -/
theorem State.moduleReset_rd_cause {s : State} {c : Nat} (hphase : s.start.phase ≠ 0) :
    (s.moduleReset c).rd R.SYS_RSTCAUSE.CAUSE = c % 2 ^ R.SYS_RSTCAUSE.CAUSE.w := by
  obtain ⟨t, hreset, -⟩ := s.moduleReset_eq c
  rw [hreset, if_neg hphase, State.rd_wr_same (by decide)]

/-- No register that a module reset keeps holds PSTATE. -/
theorem pstate_notMem_keptRegs : R.PWR_STAT.PSTATE.addr ∉ keptRegs := by decide

/-- Every field that a module reset keeps lies in another register than PSTATE, or above it. -/
theorem pstate_apart_keptFields : ∀ f ∈ keptFields, f.lo + f.w ≤ 32 ∧
    (R.PWR_STAT.PSTATE.addr ≠ f.addr ∨ R.PWR_STAT.PSTATE.lo + R.PWR_STAT.PSTATE.w ≤ f.lo) := by decide

/-- A module reset puts PSTATE at its reset value, NORMAL. -/
@[simp] theorem State.moduleReset_pstate (s : State) (c : Nat) : (s.moduleReset c).pstate = psNormal := by
  have hfields : ∀ (t : State), ∀ f ∈ keptFields, (t.wr f (s.rd f)).pstate = t.pstate := fun t f hf => by
    obtain ⟨hfits, hother | habove⟩ := pstate_apart_keptFields f hf
    · exact State.rd_wr_ne hother
    · exact State.rd_wr_apart hfits (.inl habove)
  have hregs : ∀ (t : State), ∀ a ∈ keptRegs, (t.setReg a (s.reg a)).pstate = t.pstate := fun t a ha =>
    State.rd_setReg_ne fun heq => pstate_notMem_keptRegs (heq ▸ ha)
  obtain ⟨t, hreset, hblank, -⟩ := s.moduleReset_eq c
  calc (s.moduleReset c).pstate
      = ((t.each keptRegs fun t a => t.setReg a (s.reg a)).each keptFields fun t f => t.wr f (s.rd f)).pstate := by
        rw [hreset]; exact State.rd_wr_ne (by decide)
    _ = t.pstate := (State.each_keeps State.pstate hfields _).trans (State.each_keeps State.pstate hregs _)
    _ = psNormal := by rw [State.pstate, State.rd, State.reg, hblank]; decide

/-! The rails as the registers show them (R507). -/

@[simp] theorem State.rails_start (s : State) (r : Rails) : (s.rails r).start = s.start :=
  ite_keep (P := fun u : State => u.start = s.start) rfl rfl

@[simp] theorem State.rails_pwr (s : State) (r : Rails) : (s.rails r).pwr = s.pwr :=
  ite_keep (P := fun u : State => u.pwr = s.pwr) rfl rfl

/-- The rails show in PWR_VIN, PWR_VHU, PWR_PIN, PWR_STAT and PWR_HUMIN alone. -/
theorem State.rails_rd_ne {s : State} {r : Rails} {f : Fld} (hvin : f.addr ≠ R.PWR_VIN.addr) (hvhu : f.addr ≠ R.PWR_VHU.addr)
    (hpin : f.addr ≠ R.PWR_PIN.addr) (hstat : f.addr ≠ R.PWR_STAT.addr) (hhumin : f.addr ≠ R.PWR_HUMIN.addr) :
    (s.rails r).rd f = s.rd f := by
  have hshown : ∀ n m k b, ((((s.wr R.PWR_VIN.VIN n).wr R.PWR_VHU.VHU m).wr R.PWR_PIN.PIN k).wrb R.PWR_STAT.HUOK b).rd f
      = s.rd f := fun _ _ _ _ =>
    (State.rd_wr_ne hstat).trans ((State.rd_wr_ne hpin).trans ((State.rd_wr_ne hvhu).trans (State.rd_wr_ne hvin)))
  exact ite_keep (P := fun u : State => u.rd f = s.rd f) ((State.rd_wr_ne hhumin).trans (hshown _ _ _ _)) (hshown _ _ _ _)

@[simp] theorem State.vinGood_start (s : State) (r : Rails) : (s.vinGood r).start = s.start := by
  unfold State.vinGood
  cases h : s.pwr.okSince <;> simp [h]

/-! Warning, power-good and release (R506, R508, R546). -/

/-- What a warning shows: the rails, VIN below its levels, the hold-up switch closed, the charger off; the window ends. -/
def State.warned (s : State) (r : Rails) : State :=
  let u := (((s.rails r).raise R.PWR_STAT.WARN).clear R.PWR_STAT.VINOK).raise R.PWR_STAT.HUSW
  { u.clear R.PWR_STAT.CHG with pwr := { u.pwr with okSince := none } }

@[simp] theorem State.warned_start (s : State) (r : Rails) : (s.warned r).start = s.start := s.rails_start r

@[simp] theorem State.warned_pwr (s : State) (r : Rails) : (s.warned r).pwr = { s.pwr with okSince := none } := by
  rw [← s.rails_pwr r]; rfl

theorem State.warned_rd_lock (s : State) (r : Rails) : (s.warned r).rd R.SYS_LOCK.LOCK = s.rd R.SYS_LOCK.LOCK := by
  change ((((s.rails r).wr R.PWR_STAT.WARN 1).wr R.PWR_STAT.VINOK 0).wr R.PWR_STAT.HUSW 1 |>.wr R.PWR_STAT.CHG 0).rd _ = _
  iterate 4 rw [State.rd_wr_ne (by decide)]
  exact State.rails_rd_ne (by decide) (by decide) (by decide) (by decide) (by decide)

/-- A warning out of reset and before lock resets the module, power no longer good. -/
theorem State.vinWarning_beforeLock {s : State} {r : Rails} (hwarn : r.vin < vWarning) (hrel : s.pwr.released = true)
    (hlock : s.on R.SYS_LOCK.LOCK = false) :
    s.vinWarning r = State.moduleReset { s.warned r with pwr := { (s.warned r).pwr with released := false } } rcWarnstart := by
  have hunlocked : (!(s.warned r).on R.SYS_LOCK.LOCK) = true := by rw [State.on, State.warned_rd_lock, ← State.on, hlock]; rfl
  have hreleased : ¬(!(s.warned r).pwr.released) = true := by rw [State.warned_pwr, hrel]; decide
  rw [State.vinWarning, if_neg (Nat.not_le.mpr hwarn)]
  exact (if_neg hreleased).trans (if_pos hunlocked)

/-- Power-good on X1: the rails show, VIN is good for its window, and the module reset is released. -/
theorem State.powerGood_x1 {s : State} {r : Rails} (hrel : s.pwr.released = false) (hvin : vResume ≤ r.vin)
    (hhu : huGood ≤ r.vhu) (hx1 : s.on R.PWR_STAT.SRCX1 = true) :
    ∃ (n : Nat) (u : State), u = ((s.rails r).vinGood r).advance n ∧
      s.powerGood r = { u with pwr := { u.pwr with released := true } } := by
  have hgood : ¬((s.pwr.released || decide (r.vin < vResume) || decide (r.vhu < huGood) ||
      (s.on R.PWR_STAT.SRCPOE && !s.on R.PWR_STAT.SRCX1 && !s.on R.PWR_STAT.POET2)) = true) := by
    simp [hrel, hx1, Nat.not_lt.mpr hvin, Nat.not_lt.mpr hhu]
  exact ⟨_, _, rfl, if_neg hgood⟩

theorem State.powerGood_x1_start {s : State} {r : Rails} (hrel : s.pwr.released = false) (hvin : vResume ≤ r.vin)
    (hhu : huGood ≤ r.vhu) (hx1 : s.on R.PWR_STAT.SRCX1 = true) : (s.powerGood r).start = s.start := by
  obtain ⟨n, u, hu, hgood⟩ := State.powerGood_x1 hrel hvin hhu hx1
  calc (s.powerGood r).start = u.start := by rw [hgood]
    _ = ((s.rails r).vinGood r).start := by rw [hu, (State.advance_same _ n).start]
    _ = s.start := by simp

theorem State.powerGood_x1_released {s : State} {r : Rails} (hrel : s.pwr.released = false) (hvin : vResume ≤ r.vin)
    (hhu : huGood ≤ r.vhu) (hx1 : s.on R.PWR_STAT.SRCX1 = true) : (s.powerGood r).pwr.released = true := by
  obtain ⟨n, u, -, hgood⟩ := State.powerGood_x1 hrel hvin hhu hx1
  rw [hgood]

/-- Before power-good a release changes nothing. -/
theorem exec_moduleResetRelease_unreleased {s : State} {f : RomFacts} (hrel : s.pwr.released = false) :
    exec (.moduleResetRelease f) s = .next s := by
  change execModuleResetRelease f s = _
  simp [execModuleResetRelease, hrel]

/-- After power-good the release starts the ROM. -/
theorem exec_moduleResetRelease_released {s : State} {f : RomFacts} (hrel : s.pwr.released = true) (hphase : s.start.phase = 0) :
    exec (.moduleResetRelease f) s = .next (s.romStart f) := by
  change execModuleResetRelease f s = _
  simp [execModuleResetRelease, hrel, hphase]

/-- Where no lock follows in the same cycle, VIN_WARNING before lock is a module reset of a state whose start stands as before it
and whose power is no longer good. -/
theorem exec_vinWarning_beforeLock {s : State} {r : Rails} (hno : s.lockFollows = false) (hwarn : r.vin < vWarning)
    (hrel : s.pwr.released = true) (hlock : s.on R.SYS_LOCK.LOCK = false) :
    ∃ u : State, exec (.vinWarning r) s = .next (u.moduleReset rcWarnstart) ∧ u.start = s.start ∧ u.pwr.released = false := by
  refine ⟨{ s.warned r with pwr := { (s.warned r).pwr with released := false } }, ?_, s.warned_start r, rfl⟩
  change execVinWarning r s = _
  rw [execVinWarning, hno, if_neg Bool.false_ne_true, State.vinWarning_beforeLock hwarn hrel hlock]

/-- Settles O51: the warning's own reset leaves the start at its beginning and power not good, so that only the next power-good
lets the ROM run. -/
theorem warningBeforeLockResets : Obligations.warning_before_lock_resets := by
  intro s r r' f hno hwarn hrel hphase hlock
  obtain ⟨u, hexec, hustart, hurel⟩ := exec_vinWarning_beforeLock hno hwarn hrel hlock
  generalize ht : u.moduleReset rcWarnstart = t at hexec
  have hcause : t.rd R.SYS_RSTCAUSE.CAUSE = rcWarnstart := by rw [← ht]; exact State.moduleReset_rd_cause (hustart ▸ hphase)
  have hnormal : t.pstate = psNormal := by simp [← ht]
  have htphase : t.start.phase = 0 := by simp [← ht]
  have htrel : t.pwr.released = false := by simp [← ht, hurel]
  refine ⟨t, hexec, hcause, hnormal, htphase, htrel, exec_moduleResetRelease_unreleased htrel, fun hvin hhu hx1 => ?_⟩
  have hgood : (t.powerGood r').pwr.released = true := State.powerGood_x1_released htrel hvin hhu hx1
  have hreset : (t.powerGood r').start.phase = 0 := by rw [State.powerGood_x1_start htrel hvin hhu hx1, htphase]
  exact ⟨_, _, rfl, hgood, hreset, exec_moduleResetRelease_released hgood hreset, rfl⟩

end Sys2Proof.Machine

/-!
R562 and R565: the module watchdog. What a write of SYS_WDT does to the register and to the watchdog, what an expiry does, and the
cause that the command behind it names.
-/

namespace Sys2Proof.Machine

/-- The table's entry of WDT_MS: RWL, every value reserved but 0 and 10 to 10,000. -/
def wdtMsDesc : FieldDesc := ⟨0, 14, .rwl, false, [(0, 0), (10, 10000)]⟩

theorem regAt_sysWdt : regAt R.SYS_WDT.addr = some ⟨R.SYS_WDT.addr, [], [wdtMsDesc]⟩ := by decide

theorem wdtMsDesc_allows_iff {x : Nat} : wdtMsDesc.allows x = true ↔ x = 0 ∨ 10 ≤ x ∧ x ≤ 10000 := by
  simp [wdtMsDesc, FieldDesc.allows]

theorem mailboxWord_sysWdt : mailboxWord R.SYS_WDT.addr = none := by decide

/-- SYS_WDT is written field by field. -/
theorem State.handler_sysWdt (s : State) (v : Word) : s.handler R.SYS_WDT.addr v = none := by
  have hassist : (asnBlocks.find? fun b => b.unit.base + 0x44 == R.SYS_WDT.addr) = none := by decide
  have hbackup : elem (R.RTC_BKP.addr 0) 4 16 R.SYS_WDT.addr = none := by decide
  unfold State.handler
  rw [hassist, hbackup]
  iterate 8 rw [if_neg (by decide)]
  dsimp only
  iterate 3 rw [if_neg (by decide)]

/-- No command of the power, clock and system controllers lies at SYS_WDT. -/
theorem State.obeySys_sysWdt (s : State) (v : Word) : s.obeySys R.SYS_WDT.addr v = s := by
  simp [State.obeySys, R.SYS_WDT.addr, R.PWR_CMD.addr, R.RTC_CMD.addr, R.SYS_LOCK.addr, R.SYS_RST.addr, R.SYS_WDTKICK.addr,
    R.SYS_MTCMD.addr]

/-- A word written to SYS_WDT starts no command. -/
theorem State.obeyWord_sysWdt (s : State) (m : Nat) (v : Word) : s.obeyWord m R.SYS_WDT.addr v = s := by
  have hctrl : ctrlUnit R.SYS_WDT.addr = none := by decide
  have hkick : kickBlock R.SYS_WDT.addr = none := by decide
  have hblock : R.SYS_WDT.addr / 0x10000 = 0x4000 := by decide
  unfold State.obeyWord
  rw [hctrl, hkick, hblock]
  exact s.obeySys_sysWdt v

/-- Behind a write of SYS_WDT the watchdog is started again, but where the write was discarded. -/
theorem State.afterWrite_sysWdt (s : State) (v : Word) : s.afterWrite R.SYS_WDT.addr v =
    if s.locked || R.SYS_WDT.WDT_MS.of v != s.rd R.SYS_WDT.WDT_MS then s else s.wdtKick := by
  have htask : elem (R.SCH_TASK_CFG.addr 0) 0x40 256 R.SYS_WDT.addr = none := by decide
  have hfifo : elem (R.CAN_RXFIFO.addr 0) 0x4000 4 R.SYS_WDT.addr = none := by decide
  unfold State.afterWrite
  rw [htask, hfifo, if_pos rfl]
  rfl

/-- What a write of SYS_WDT with a value of WDT_MS leaves: a reserved value is discarded, and every value after lock; behind it,
before lock, the watchdog is started again where WDT_MS holds the value written. -/
def State.wroteWdt (s : State) (x : Nat) : State :=
  let u := (s.unlatch R.SYS_WDT.addr).wrIf (!s.locked && wdtMsDesc.allows x) R.SYS_WDT.WDT_MS x
  if u.locked || x != u.rd R.SYS_WDT.WDT_MS then u else u.wdtKick

theorem exec_registerWrite_sysWdt {s : State} {m : Nat} {v : Word} (hm : m < 17) :
    exec (.registerWrite m R.SYS_WDT.addr v) s = .next (s.wroteWdt (R.SYS_WDT.WDT_MS.of v)) := by
  have hgo : ¬(regAt R.SYS_WDT.addr).any (·.badGo v) = true := by rw [regAt_sysWdt]; exact Bool.false_ne_true
  have hplain : (s.unlatch R.SYS_WDT.addr).plainWrite m R.SYS_WDT.addr v =
      ((s.unlatch R.SYS_WDT.addr).wrIf (!s.locked && wdtMsDesc.allows (R.SYS_WDT.WDT_MS.of v)) R.SYS_WDT.WDT_MS
        (R.SYS_WDT.WDT_MS.of v)).afterWrite R.SYS_WDT.addr v := by
    rw [State.plainWrite, mailboxWord_sysWdt, regAt_sysWdt]
    rfl
  change execRegisterWrite m R.SYS_WDT.addr v s = _
  rw [execRegisterWrite, onUnit_next (decide_eq_true hm), State.regWrite, if_neg hgo]
  simp only [State.handler_sysWdt, State.obeyWord_sysWdt, hplain, State.afterWrite_sysWdt, State.wroteWdt]

/-- After lock a write of SYS_WDT is discarded, and the watchdog stays as it is. -/
theorem State.wroteWdt_locked {s : State} {x : Nat} (hlock : s.locked = true) : s.wroteWdt x = s.unlatch R.SYS_WDT.addr := by
  have hdiscard : (!s.locked && wdtMsDesc.allows x) = false := by rw [hlock]; rfl
  have hulock : (s.unlatch R.SYS_WDT.addr).locked = true := hlock
  simp [State.wroteWdt, hdiscard, State.wrIf, hulock]

/-- A reserved value other than the one that WDT_MS holds is discarded, and the watchdog stays as it is. -/
theorem State.wroteWdt_reserved {s : State} {x : Nat} (hres : ¬wdtMsDesc.allows x = true) (hne : x ≠ s.rd R.SYS_WDT.WDT_MS) :
    s.wroteWdt x = s.unlatch R.SYS_WDT.addr := by
  have hdiscard : (!s.locked && wdtMsDesc.allows x) = false := by rw [Bool.eq_false_of_not_eq_true hres, Bool.and_false]
  have hune : (x != (s.unlatch R.SYS_WDT.addr).rd R.SYS_WDT.WDT_MS) = true := bne_iff_ne.mpr hne
  simp [State.wroteWdt, hdiscard, State.wrIf, hune]

/-- No write of WDT_MS locks or unlocks. -/
theorem State.locked_wr_wdtMs (s : State) (x : Nat) : (s.wr R.SYS_WDT.WDT_MS x).locked = s.locked := by
  rw [State.locked, State.on, State.rd_wr_ne (by decide), State.rd_wr_ne (by decide)]
  rfl

/-- WDT_MS holds every value that it takes. -/
theorem State.rd_wr_wdtMs {s : State} {x : Nat} (hallow : wdtMsDesc.allows x = true) :
    (s.wr R.SYS_WDT.WDT_MS x).rd R.SYS_WDT.WDT_MS = x := by
  have hfits : x < 2 ^ 14 := by have := wdtMsDesc_allows_iff.mp hallow; omega
  rw [State.rd_wr_same (by decide)]
  exact Nat.mod_eq_of_lt hfits

/-- Before lock a value that is not reserved is written, and the watchdog starts again with it. -/
theorem State.wroteWdt_taken {s : State} {x : Nat} (hlock : s.locked = false) (hallow : wdtMsDesc.allows x = true) :
    s.wroteWdt x = ((s.unlatch R.SYS_WDT.addr).wr R.SYS_WDT.WDT_MS x).wdtKick := by
  have htake : (!s.locked && wdtMsDesc.allows x) = true := by rw [hlock, hallow]; rfl
  have hulock : (s.unlatch R.SYS_WDT.addr).locked = false := hlock
  simp [State.wroteWdt, htake, State.wrIf, State.locked_wr_wdtMs, hulock, State.rd_wr_wdtMs hallow]

/-- A write of SYS_WDT changes no byte of memory. -/
theorem State.wroteWdt_mem (s : State) (x : Nat) : (s.wroteWdt x).mem = s.mem := by
  have hput : ((s.unlatch R.SYS_WDT.addr).wrIf (!s.locked && wdtMsDesc.allows x) R.SYS_WDT.WDT_MS x).mem = s.mem :=
    ite_keep (P := fun u : State => u.mem = s.mem) rfl rfl
  exact ite_keep (P := fun u : State => u.mem = s.mem) hput hput

/-- WDT_MS after a write that it takes, and the watchdog that ends that many milliseconds ahead, or none for 0. -/
theorem State.wroteWdt_taken_shows {s : State} {x : Nat} (hlock : s.locked = false) (hallow : wdtMsDesc.allows x = true) :
    (s.wroteWdt x).start.wdtAt = (if x = 0 then none else some (s.now + ms * x)) ∧ (s.wroteWdt x).rd R.SYS_WDT.WDT_MS = x := by
  have hms := State.rd_wr_wdtMs (s := s.unlatch R.SYS_WDT.addr) hallow
  rw [State.wroteWdt_taken hlock hallow]
  refine ⟨?_, hms⟩
  simp only [State.wdtKick, hms]
  rfl

/-! An expiry (R562, R565). -/

/-- No watchdog runs, or it is suspended: nothing happens. -/
theorem exec_wdtExpiry_suspended {s : State} (hno : s.start.wdtAt = none ∨ s.pstate ≠ psNormal) :
    exec .wdtExpiry s = .next s := by
  change execWdtExpiry s = _
  unfold execWdtExpiry
  cases hat : s.start.wdtAt with
  | none => rfl
  | some t => exact congrArg _ (if_neg (hno.resolve_left (by simp [hat])))

/-- A running watchdog resets the module at its instant while PSTATE is NORMAL. -/
theorem exec_wdtExpiry_normal {s : State} {t : Nat} (hat : s.start.wdtAt = some t) (hnormal : s.pstate = psNormal) :
    exec .wdtExpiry s = .next ((s.advance t).moduleReset s.wdtCause) := by
  change execWdtExpiry s = _
  simp [execWdtExpiry, hat, hnormal]

/-- The cause where the command that follows writes a register: a GO of SYS_RST with an OP that is not reserved names it. -/
theorem State.wdtCause_registerWrite {s : State} {m a : Nat} {v : Word} {q : List Instr}
    (hnext : s.pending = .registerWrite m a v :: q) : s.wdtCause =
      if a = R.SYS_RST.addr ∧ v.getLsbD 8 = true ∧ R.SYS_RST.OP.of v = 1 then rcSwreset
      else if a = R.SYS_RST.addr ∧ v.getLsbD 8 = true ∧ R.SYS_RST.OP.of v = 2 then rcFatal else rcWdt := by
  unfold State.wdtCause
  rw [hnext]
  by_cases hgo : a = R.SYS_RST.addr ∧ v.getLsbD 8 = true
  · obtain ⟨haddr, hbit⟩ := hgo
    simp [haddr, hbit]
  · have hother : (a != R.SYS_RST.addr || !v.getLsbD 8) = true := by
      simpa [imp_iff_not_or] using hgo
    rw [if_neg fun ⟨haddr, hbit, _⟩ => hgo ⟨haddr, hbit⟩, if_neg fun ⟨haddr, hbit, _⟩ => hgo ⟨haddr, hbit⟩]
    exact if_pos hother

/-- No reset is asked for in the same cycle: the cause is the watchdog. -/
theorem State.wdtCause_alone {s : State} (hnone : ∀ c q, s.pending = c :: q →
    c ≠ .sysRstReset ∧ c ≠ .sysRstFatal ∧ ∀ m a v, c ≠ .registerWrite m a v) : s.wdtCause = rcWdt := by
  unfold State.wdtCause
  split
  case h_1 q hnext =>
    obtain ⟨hreset, -, -⟩ := hnone _ _ hnext
    exact absurd rfl hreset
  case h_2 q hnext =>
    obtain ⟨-, hfatal, -⟩ := hnone _ _ hnext
    exact absurd rfl hfatal
  case h_3 m a v q hnext =>
    obtain ⟨-, -, hwrite⟩ := hnone _ _ hnext
    exact absurd rfl (hwrite m a v)
  case h_4 => rfl

/-- Out of reset the expiry alone leaves the module in reset with cause WDT. -/
theorem exec_wdtExpiry_resets {s : State} (hrun : s.start.wdtAt ≠ none) (hnormal : s.pstate = psNormal)
    (hphase : s.start.phase ≠ 0) (hcause : s.wdtCause = rcWdt) :
    ∃ t : State, exec .wdtExpiry s = .next t ∧ t.rd R.SYS_RSTCAUSE.CAUSE = rcWdt ∧ t.start.phase = 0 := by
  obtain ⟨n, hat⟩ := Option.ne_none_iff_exists'.mp hrun
  have hout : (s.advance n).start.phase ≠ 0 := by rwa [(s.advance_same n).start]
  have hshown : ((s.advance n).moduleReset rcWdt).rd R.SYS_RSTCAUSE.CAUSE = rcWdt := State.moduleReset_rd_cause hout
  exact ⟨_, hcause ▸ exec_wdtExpiry_normal hat hnormal, hshown, by simp⟩

/-- Settles O53: a kick and a write that WDT_MS takes start the watchdog alike; a discarded write leaves both; the expiry is a
module reset with the cause of the command behind it. -/
theorem watchdogRunsAndResets : Obligations.watchdog_runs_and_resets := by
  intro s
  have hreset : ∀ q, s.pending = .sysRstReset :: q → s.wdtCause = rcSwreset := fun q hnext => by rw [State.wdtCause, hnext]
  have hfatal : ∀ q, s.pending = .sysRstFatal :: q → s.wdtCause = rcFatal := fun q hnext => by rw [State.wdtCause, hnext]
  refine ⟨⟨s.wdtKick, rfl, rfl, rfl, rfl, rfl⟩, ⟨exec_wdtExpiry_suspended, fun t => exec_wdtExpiry_normal⟩,
    ⟨hreset, hfatal, fun m a v q => State.wdtCause_registerWrite, State.wdtCause_alone⟩, exec_wdtExpiry_resets,
    fun m v hm hlock => ⟨s.unlatch R.SYS_WDT.addr, ?_, rfl, rfl, rfl⟩,
    fun m v hm hlock => ⟨_, exec_registerWrite_sysWdt hm, State.wroteWdt_mem _ _, fun hzero => ?_, fun hlo hhi => ?_,
      fun hres hne => ?_⟩⟩
  · rw [exec_registerWrite_sysWdt hm, State.wroteWdt_locked hlock]
  · rw [hzero]
    exact State.wroteWdt_taken_shows hlock (wdtMsDesc_allows_iff.mpr (.inl rfl))
  · have hshows := State.wroteWdt_taken_shows hlock (wdtMsDesc_allows_iff.mpr (.inr ⟨hlo, hhi⟩))
    rwa [if_neg (by omega)] at hshows
  · rw [State.wroteWdt_reserved (fun hallow => by have := wdtMsDesc_allows_iff.mp hallow; omega) hne]
    exact ⟨rfl, rfl⟩

end Sys2Proof.Machine

/-!
The run of the module: every well-formed command completes, and a step keeps the invariant (log 7; R33, R437 for what reset
holds). The soundness of the single operations is in the files Sound….
-/

namespace Sys2Proof.Machine

/-- A command's meaning checks exactly what `Instr.wf` says: it ends in a state, or it names a unit that the module lacks. -/
theorem exec_eq_onUnit_wf (c : Instr) (s : State) : ∃ t, exec c s = onUnit c.wf t := by
  cases c <;> exact ⟨_, rfl⟩

/-- Settles O59: the one check of every meaning is its command's well-formedness. -/
theorem commandsComplete : Obligations.commands_complete := by
  intro s c
  obtain ⟨t, ht⟩ := exec_eq_onUnit_wf c s
  exact ⟨fun hwf => ⟨t, ht.trans (onUnit_next hwf t)⟩, fun hwf => ht.trans (onUnit_fault hwf t)⟩

theorem step_of_pending_cons {s : State} {c : Instr} {q : List Instr} (hq : s.pending = c :: q) :
    step s = exec c { s with pending := q } := by rw [step, hq]

theorem step_of_pending_nil {s : State} (hq : s.pending = []) : step s = .next s.idle := by rw [step, hq]

/-- A state with canonical forms and a queue of well-formed commands meets the invariant. -/
theorem Sound.inv {q : List Instr} {s : State} (h : Sound q s) (hq : ∀ c ∈ q, c.wf = true) : s.Inv :=
  ⟨h.mem, h.regs, h.queue ▸ hq⟩

/-- Settles O60, by the queue: an idle cycle and a well-formed front command both answer a state, and both are sound. -/
theorem everyStepKeepsTheInvariant : Obligations.every_step_keeps_the_invariant := by
  intro s hinv
  cases hq : s.pending with
  | nil =>
    have hstep := step_of_pending_nil hq
    have hsound := step_idle_sound ⟨hq, hinv.mem, hinv.regs⟩ _ hstep
    exact ⟨_, hstep, hsound.inv (by simp), hsound.queue⟩
  | cons c q =>
    have hwf : ∀ i ∈ c :: q, i.wf = true := hq ▸ hinv.queue
    obtain ⟨hdone, -⟩ := commandsComplete { s with pending := q } c
    obtain ⟨t, ht⟩ := hdone (hwf c List.mem_cons_self)
    have hstep := (step_of_pending_cons hq).trans ht
    have hsound := step_sound ⟨hq, hinv.mem, hinv.regs⟩ _ hstep
    exact ⟨t, hstep, hsound.inv fun i hi => hwf i (List.mem_cons_of_mem _ hi), hsound.queue⟩

/-- Settles O55. -/
theorem stepRunsTheFrontCommand : Obligations.step_runs_the_front_command :=
  fun _ _ _ => step_of_pending_cons rfl

/-- Settles O56: the idle cycle is 2 ns of passing time, the ports' transmissions and the ages. -/
theorem stepWithNoCommand : Obligations.step_with_no_command := by
  rintro s u hq rfl
  have hsame := s.elapse_same 2
  exact ⟨s.elapse_now 2, s.elapse_mt 2, hsame.regs, hsame.mem, step_of_pending_nil hq⟩

/-- Settles O57: at reset the register file lists nothing, memory lists nothing, no command waits. -/
theorem invariantAtReset : Obligations.invariant_at_reset := ⟨by decide, by decide, by simp [State.reset]⟩

/-- Settles O58: every register holds its Reset column, so each field's value is read off the tables. -/
theorem valuesAtReset : Obligations.values_at_reset := by
  refine ⟨fun a => rfl, ?_, ?_, fun i => rfl, ?_⟩
  · decide
  · decide
  · decide
end Sys2Proof.Machine

/-!
An injected lane error (R402) and its repair on the next read (R374 to R377): the injection alters the word, its check bits and
the row's disagreement with the stripe by the same lanes, so that the stripe gives the old data back.
-/

namespace Sys2Proof.Machine

/-! Bytes written and read back. -/

theorem SMap.getMany_setMany {β : Type} [DecidableEq β] {d : Nat → β} {m : SMap β} {k : Nat} {vs : List β} :
    SMap.getMany d (SMap.setMany d m k vs) k vs.length = vs := by
  induction vs generalizing m k with
  | nil => rfl
  | cons v vs ih =>
    have hfirst : SMap.get d (SMap.setMany d (SMap.set d m k v) (k + 1) vs) k = v := by
      rw [SMap.get_setMany_of_lt (.inl (Nat.lt_succ_self k)), SMap.get_set_self]
    simp only [SMap.setMany, List.length_cons, SMap.getMany, hfirst, ih]

@[simp] theorem bytesLE_length (x n : Nat) : (bytesLE x n).length = n := by
  induction n generalizing x with
  | zero => rfl
  | succ n ih => simp [bytesLE, ih]

theorem natLE_bytesLE (x n : Nat) : natLE (bytesLE x n) = x % 256 ^ n := by
  induction n generalizing x with
  | zero => simp [bytesLE, natLE, Nat.mod_one]
  | succ n ih => simp [bytesLE, natLE, ih, pow_succ', Nat.mod_mul]

@[simp] theorem State.word_putWord_same (s : State) (w : Nat) (d : Word64) : (s.putWord w d).word w = d := by
  have hbytes : (s.putWord w d).bytes (8 * w) 8 = bytesLE d.toNat 8 := by
    have hread := SMap.getMany_setMany (d := emptyByte) (m := s.mem) (k := 8 * w) (vs := bytesLE d.toNat 8)
    rwa [bytesLE_length] at hread
  rw [State.word, State.num, hbytes, natLE_bytesLE]
  exact BitVec.eq_of_toNat_eq (by simp [d.isLt])

/-! The check state after an update. -/

theorem State.flaw_setFlaw (s : State) (w v : Nat) (f : Flaw) : (s.setFlaw w f).flaw v = if v = w then f else s.flaw v := SMap.get_set

@[simp] theorem State.flaw_setFlaw_same (s : State) (w : Nat) (f : Flaw) : (s.setFlaw w f).flaw w = f := SMap.get_set_self

@[simp] theorem State.sdiff_setSdiff_same (s : State) (k : Nat) (d : Word64) : (s.setSdiff k d).sdiff k = d := SMap.get_set_self

theorem rowWord_rowOf {w : Nat} (h : isShared w = true) : rowWord (rowOf w) (w % 16) = w := by
  simp only [isShared, Bool.and_eq_true, decide_eq_true_eq] at h
  simp only [rowWord, rowOf]
  omega

theorem rowWord_ne {w b : Nat} (h : isShared w = true) (hb : b ≠ w % 16) : rowWord (rowOf w) b ≠ w := by
  simp only [isShared, Bool.and_eq_true, decide_eq_true_eq] at h
  simp only [rowWord, rowOf]
  omega

/-- A word whose row holds no other failing lane and whose stripe word is whole can be rebuilt. -/
theorem State.lost_eq_zero {s : State} {w : Nat} (hspar : s.spar (rowOf w) = 0)
    (hrow : ∀ b, b < 16 → b ≠ w % 16 → s.flaw (rowWord (rowOf w) b) = {}) : s.lost w = 0 := by
  have hclean : (({} : Flaw).invalid) = 0#8 := rfl
  have hothers : s.othersInvalid (rowOf w) (w % 16) = 0 := by
    have hmem : ∀ b ∈ below 16 (· != w % 16), (s.flaw (rowWord (rowOf w) b)).invalid = 0#8 := by
      intro b hb
      simp only [below, List.mem_filter, List.mem_range, bne_iff_ne] at hb
      rw [hrow b hb.1 hb.2, hclean]
    unfold State.othersInvalid
    revert hmem
    induction below 16 (· != w % 16) with
    | nil => exact fun _ => rfl
    | cons b bs ih =>
      intro hmem
      rw [List.foldl_cons, hmem b List.mem_cons_self, BitVec.or_zero]
      exact ih fun c hc => hmem c (List.mem_cons_of_mem _ hc)
  simp [State.lost, hspar, hothers]

/-- An ODD injection flips bits of the failing lanes alone. -/
theorem laneBits_and_laneMask : ∀ l : BitVec 8, laneBits l 0 &&& laneMask l = laneBits l 0 := by decide +kernel

/-! The correction of a class is counted once (R392). -/

theorem State.rd_bump_same {s : State} {f : Fld} (h : f.lo + f.w ≤ 32) : (s.bump f).rd f = min (s.rd f + 1) (2 ^ f.w - 1) := by
  have hlt : min (s.rd f + 1) (2 ^ f.w - 1) < 2 ^ f.w :=
    Nat.lt_of_le_of_lt (Nat.min_le_right _ _) (Nat.sub_lt (Nat.two_pow_pos _) Nat.one_pos)
  rw [State.bump, State.bumpBy, State.rd_wr_same h, Nat.mod_eq_of_lt hlt]

theorem State.corrected_rd_corr (s : State) :
    (s.corrected 0).rd (R.MEM_CNT_CORR.COUNT 0) = min (s.rd (R.MEM_CNT_CORR.COUNT 0) + 1) (2 ^ (R.MEM_CNT_CORR.COUNT 0).w - 1) := by
  rw [← State.rd_bump_same (by decide)]
  unfold State.corrected
  generalize s.bump (R.MEM_CNT_CORR.COUNT 0) = u
  have hfull : ((u.wr (R.MEM_LB_STAT.LEVEL 0) 0).bump (R.MEM_LB_STAT.OVF 0)).rd (R.MEM_CNT_CORR.COUNT 0) = u.rd (R.MEM_CNT_CORR.COUNT 0) :=
    (State.rd_wr_ne (by decide)).trans (State.rd_wr_ne (by decide))
  refine ite_keep (P := fun t : State => t.rd _ = u.rd _) (State.rd_wr_ne (by decide)) (ite_keep (P := fun t : State => t.rd _ = u.rd _) hfull ?_)
  exact (State.event_rd _ (by decide) (by decide) (by decide)).trans ((State.rd_wr_ne (by decide)).trans hfull)

theorem State.queueRewrite_rd_corr (s : State) (w : Nat) :
    (s.queueRewrite w).rd (R.MEM_CNT_CORR.COUNT 0) = s.rd (R.MEM_CNT_CORR.COUNT 0) :=
  ite_keep (P := fun t : State => t.rd _ = s.rd _) rfl (State.rd_bump_ne (by decide))

/-! The injection. -/

/-- A clean shared SRAM word whose lanes l fail, and the row's stripe that disagrees with it in just those lanes. -/
def State.oddError (s : State) (w : Nat) (l : BitVec 8) : State :=
  ((s.setSdiff (rowOf w) (laneBits l 0)).putWord w (s.word w ^^^ laneBits l 0)).setFlaw w { par := l }

theorem State.alter_odd {s : State} {w : Nat} {l : BitVec 8} (hw : isShared w = true) (hclean : s.flaw w = {})
    (hdiff : s.sdiff (rowOf w) = 0) : s.alter (8 * w) { data := laneBits l 0, par := l } = s.oddError w l := by
  have hrange : 33554432 ≤ w ∧ w < 34603008 := by simpa [isShared] using hw
  have hlocal : isLocal w = false := by simp [isLocal]; omega
  have hword : wordOf (8 * w) = w := by simp [wordOf]
  have hput : ∀ k d, (s.setSdiff k d).word w = s.word w := fun _ _ => rfl
  unfold State.alter
  rw [if_neg (by omega)]
  simp [hword, hlocal, hw, hclean, hdiff, hput, State.oddError]

/-- A read of the injured word rebuilds the failing lanes from the stripe (R377). -/
theorem State.readWord_oddError {t : State} {m w : Nat} {l : BitVec 8} {d : Word64} (hw : isShared w = true) (hl : l ≠ 0#8)
    (hflaw : t.flaw w = { par := l }) (hlost : t.lost w = 0) (hdiff : t.sdiff (rowOf w) = laneBits l 0)
    (hword : t.word w = d ^^^ laneBits l 0) :
    t.readWord m w = { data := d, st := (t.corrected 0).queueRewrite w } := by
  have hinv : (t.flaw w).invalid = l := by rw [hflaw]; rfl
  have htag : (t.flaw w).tagSettled = false := by rw [hflaw]; rfl
  have hopen : (t.flaw w).tagOpen = false := by rw [hflaw]; rfl
  have hpoison : (t.flaw w).poisoned = false := by rw [hflaw]; rfl
  have hdata : d ^^^ laneBits l 0 ^^^ (laneBits l 0 &&& laneMask l) = d := by
    rw [laneBits_and_laneMask, BitVec.xor_assoc, BitVec.xor_self, BitVec.xor_zero]
  rw [State.readWord, if_pos hw]
  simp [State.readShared, htag, hopen, hpoison, hinv, hl, hlost, hdiff, hword, hdata]

theorem State.oddError_lost {s : State} {w : Nat} {l : BitVec 8} (hw : isShared w = true) (hspar : s.spar (rowOf w) = 0)
    (hrow : ∀ b, b < 16 → s.flaw (rowWord (rowOf w) b) = {}) : (s.oddError w l).lost w = 0 := by
  refine State.lost_eq_zero hspar fun b hb hne => ?_
  rw [State.oddError, State.flaw_setFlaw, if_neg (rowWord_ne hw hne)]
  exact hrow b hb

/-! An injection by the phase and the address (R402). -/

/-- The injection's operands as MEM_INJ_CTRL shows them. -/
def State.injShown (s : State) (kind : Nat) (l : BitVec 8) : State :=
  (s.wr R.MEM_INJ_CTRL.KIND kind).wr R.MEM_INJ_CTRL.LANES l.toNat

theorem State.injShown_rd (s : State) (kind : Nat) (l : BitVec 8) {f : Fld} (h : f.addr ≠ R.MEM_INJ_CTRL.addr) :
    (s.injShown kind l).rd f = s.rd f := (State.rd_wr_ne h).trans (State.rd_wr_ne h)

theorem State.inject_eq (s : State) (kind : Nat) (l : BitVec 8) (i : Injection) : s.inject kind l i =
    if s.rd R.MEM_PHASE.PHASE ≠ 2 then ((s.injShown kind l).wr R.MEM_INJ_CTRL.RESULT 1).raise R.MEM_INTSTAT.WRREJ
    else if !injectable (8 * s.rd R.MEM_INJ_ADDR.WADDR) then (s.injShown kind l).wr R.MEM_INJ_CTRL.RESULT 2
    else ((s.injShown kind l).alter (8 * s.rd R.MEM_INJ_ADDR.WADDR) i).wr R.MEM_INJ_CTRL.RESULT 0 := by
  rw [← s.injShown_rd kind l (f := R.MEM_PHASE.PHASE) (by decide), ← s.injShown_rd kind l (f := R.MEM_INJ_ADDR.WADDR) (by decide)]
  rfl

theorem State.inject_outsideTest {s : State} {kind : Nat} {l : BitVec 8} {i : Injection} (h : s.rd R.MEM_PHASE.PHASE ≠ 2) :
    s.inject kind l i = ((s.injShown kind l).wr R.MEM_INJ_CTRL.RESULT 1).raise R.MEM_INTSTAT.WRREJ := by
  rw [State.inject_eq, if_pos h]

theorem State.inject_badAddr {s : State} {kind : Nat} {l : BitVec 8} {i : Injection} (h : s.rd R.MEM_PHASE.PHASE = 2)
    (ha : injectable (8 * s.rd R.MEM_INJ_ADDR.WADDR) = false) : s.inject kind l i = (s.injShown kind l).wr R.MEM_INJ_CTRL.RESULT 2 := by
  rw [State.inject_eq, if_neg (not_not.mpr h), if_pos (by simp [ha])]

theorem State.inject_done {s : State} {kind : Nat} {l : BitVec 8} {i : Injection} (h : s.rd R.MEM_PHASE.PHASE = 2)
    (ha : injectable (8 * s.rd R.MEM_INJ_ADDR.WADDR) = true) :
    s.inject kind l i = ((s.injShown kind l).alter (8 * s.rd R.MEM_INJ_ADDR.WADDR) i).wr R.MEM_INJ_CTRL.RESULT 0 := by
  rw [State.inject_eq, if_neg (not_not.mpr h), if_neg (by simp [ha])]

/-- In TEST an ODD injection into a clean shared SRAM word of a matching row ends well, and fails its lanes (R402). -/
theorem exec_injectOdd_shared {s : State} {w : Nat} {l : BitVec 8} (hat : s.rd R.MEM_INJ_ADDR.WADDR = w)
    (htest : s.rd R.MEM_PHASE.PHASE = 2) (hw : isShared w = true) (hclean : s.flaw w = {}) (hdiff : s.sdiff (rowOf w) = 0) :
    exec (.injectOdd l) s = .next (((s.injShown 1 l).oddError w l).wr R.MEM_INJ_CTRL.RESULT 0) := by
  have hrange : 33554432 ≤ w ∧ w < 34603008 := by simpa [isShared] using hw
  have hlocal : isLocal w = false := by simp [isLocal]; omega
  have hinj : injectable (8 * w) = true := by simp [injectable]; omega
  change Host.Outcome.next (s.inject 1 l _) = _
  rw [State.inject_done htest (hat ▸ hinj), hat, hlocal]
  exact congrArg (fun u : State => Host.Outcome.next (u.wr R.MEM_INJ_CTRL.RESULT 0)) (State.alter_odd hw hclean hdiff)

/-- Settles O39: the injection alters word, parity and stripe difference by the same lanes, and the read takes them off again. -/
theorem injectedOddErrorIsRebuilt : Obligations.injected_odd_error_is_rebuilt := by
  rintro s m l w hat htest hw hrow hdiff hspar hl
  have hclean : s.flaw w = {} := rowWord_rowOf hw ▸ hrow (w % 16) (Nat.mod_lt _ (by decide))
  have hlost := State.oddError_lost (s := s.injShown 1 l) (l := l) hw hspar hrow
  refine ⟨_, exec_injectOdd_shared hat.symm htest hw hclean hdiff, ?_⟩
  generalize ht : (State.wr _ R.MEM_INJ_CTRL.RESULT 0) = t
  have hflaw : t.flaw w = { par := l } := by rw [← ht]; exact State.flaw_setFlaw_same _ _ _
  have hread : t.readWord m w = { data := s.word w, st := (t.corrected 0).queueRewrite w } := by
    refine State.readWord_oddError hw hl hflaw (by rw [← ht]; exact hlost) ?_ ?_
    · rw [← ht]; exact State.sdiff_setSdiff_same s (rowOf w) _
    · rw [← ht]; exact State.word_putWord_same _ w _
  rw [hread, hflaw]
  refine ⟨rfl, ?_, rfl, rfl, ?_⟩
  · rw [← ht]; exact State.rd_wr_same (by decide)
  · rw [State.queueRewrite_rd_corr, State.corrected_rd_corr, ← ht]
    have hcount : ((s.injShown 1 l).oddError w l).rd (R.MEM_CNT_CORR.COUNT 0) = s.rd (R.MEM_CNT_CORR.COUNT 0) :=
      s.injShown_rd 1 l (by decide)
    rw [State.rd_wr_ne (by decide), hcount]
end Sys2Proof.Machine

/-!
The injections by kind, and the stripe diagnostic window (R402).
-/

namespace Sys2Proof.Machine

/-- A field's value fits its width. -/
theorem State.rd_lt (s : State) (f : Fld) : s.rd f < 2 ^ f.w := Nat.mod_lt _ (Nat.two_pow_pos _)

/-- A field of 8 bits passes through a byte unchanged. -/
theorem toNat_ofNat_rd_lanes (s : State) : (BitVec.ofNat 8 (s.rd R.MEM_INJ_CTRL.LANES)).toNat = s.rd R.MEM_INJ_CTRL.LANES :=
  Nat.mod_eq_of_lt (s.rd_lt R.MEM_INJ_CTRL.LANES)

/-- Every injection that MEM_INJ_CTRL names by KIND 1 to 5 is `State.inject` (R402). -/
theorem exec_inject_eq {s : State} {l : BitVec 8} {c : Instr}
    (hc : c ∈ [Instr.injectOdd l, .injectEven l, .injectPar l, .injectTag, .injectPoison l]) :
    ∃ kind l' i, exec c s = .next (s.inject kind l' i) := by
  simp only [List.mem_cons, List.not_mem_nil, or_false] at hc
  obtain rfl | rfl | rfl | rfl | rfl := hc <;> exact ⟨_, _, _, rfl⟩

/-- Outside TEST an injection shows NOTTEST and WRREJ and alters nothing else. -/
theorem State.inject_outsideTest_shows {s : State} {kind : Nat} {l : BitVec 8} {i : Injection} (h : s.rd R.MEM_PHASE.PHASE ≠ 2) :
    (s.inject kind l i).rd R.MEM_INJ_CTRL.RESULT = 1 ∧ (s.inject kind l i).rd R.MEM_INTSTAT.WRREJ = 1 ∧
      (s.inject kind l i).mem = s.mem ∧ (s.inject kind l i).integ = s.integ ∧
      ∀ a, a ≠ R.MEM_INJ_CTRL.addr → a ≠ R.MEM_INTSTAT.addr → (s.inject kind l i).reg a = s.reg a := by
  rw [State.inject_outsideTest h]
  refine ⟨?_, State.rd_wr_same (by decide), rfl, rfl, fun a hctrl hint => ?_⟩
  · exact (State.rd_wr_ne (by decide)).trans (State.rd_wr_same (by decide))
  · calc _ = ((s.injShown kind l).wr R.MEM_INJ_CTRL.RESULT 1).reg a := State.reg_wr_ne hint
      _ = (s.injShown kind l).reg a := State.reg_wr_ne hctrl
      _ = (s.wr R.MEM_INJ_CTRL.KIND kind).reg a := State.reg_wr_ne hctrl
      _ = s.reg a := State.reg_wr_ne hctrl

/-! The stripe word through its window. -/

@[simp] theorem State.spar_setSpar_same (s : State) (k : Nat) (p : BitVec 8) : (s.setSpar k p).spar k = p := SMap.get_set_self

theorem State.stripeWord_eq_xor (s : State) (k : Nat) :
    s.stripeWord k = s.sdiff k ^^^ (List.range 16).foldl (fun acc b => acc ^^^ s.word (rowWord k b)) 0 := by
  unfold State.stripeWord
  generalize s.sdiff k = d
  have hfold : ∀ (bs : List Nat) (x : Word64), bs.foldl (fun acc b => acc ^^^ s.word (rowWord k b)) (d ^^^ x) =
      d ^^^ bs.foldl (fun acc b => acc ^^^ s.word (rowWord k b)) x := by
    intro bs
    induction bs with
    | nil => exact fun _ => rfl
    | cons b bs ih => intro x; rw [List.foldl_cons, List.foldl_cons, BitVec.xor_assoc, ih]
  rw [← hfold]
  simp

/-- In TEST the stripe word takes the data stored, its parity right. -/
theorem State.stripeStore_stripeWord {s : State} {a : Nat} {d : Word64} (h : s.rd R.MEM_PHASE.PHASE = 2) :
    (s.stripeStore a d).stripeWord ((a - 0x18000000) / 8) = d := by
  generalize hk : (a - 0x18000000) / 8 = k
  have hdiff : (s.stripeStore a d).sdiff k = s.sdiff k ^^^ s.stripeWord k ^^^ d := by
    rw [State.stripeStore, if_pos h, hk]
    exact State.sdiff_setSdiff_same s k _
  have hword : (s.stripeStore a d).word = s.word := by rw [State.stripeStore, if_pos h]; rfl
  rw [State.stripeWord_eq_xor, hdiff, hword, State.stripeWord_eq_xor]
  generalize (List.range 16).foldl _ (0 : Word64) = x
  rw [← BitVec.xor_assoc, BitVec.xor_self, BitVec.zero_xor, BitVec.xor_assoc, BitVec.xor_comm d, ← BitVec.xor_assoc,
    BitVec.xor_self, BitVec.zero_xor]

theorem exec_stripeWindowStore {s : State} {a : Nat} {d : Word64} (hlo : 0x18000000 ≤ a) (hhi : a < 0x18080000) :
    exec (.stripeWindowStore a d) s = .next (s.stripeStore a d) :=
  onUnit_next (by simp [hlo, hhi]) _

/-- The two bits that DOUBLE flips differ: they lie 1 to 71 apart, modulo 72. -/
theorem double_bits_differ (m n : Nat) : m % 72 ≠ (m % 72 + 1 + n % 71) % 72 := by omega

/-- Settles O38, by the phase and the address of an injection, and for the window by the phase. -/
theorem errorInjection : Obligations.error_injection := by
  intro s
  refine ⟨fun htest l c hc => ?_, fun l u a htest ha hinj hlocal => ?_, fun l u htest hbad hu => ?_, ?_, fun a d hlo hhi => ?_⟩
  · obtain ⟨kind, l', i, hexec⟩ := exec_inject_eq (s := s) hc
    exact ⟨_, hexec, State.inject_outsideTest_shows htest⟩
  · subst ha
    have hdone : ∀ kind l i, Host.Outcome.next (s.inject kind l i) = (.next
        (((s.injShown kind l).alter (8 * s.rd R.MEM_INJ_ADDR.WADDR) i).wr R.MEM_INJ_CTRL.RESULT 0) : Host.Outcome State Fault Refusal) :=
      fun kind l i => congrArg Host.Outcome.next (State.inject_done htest hinj)
    refine ⟨?_, ?_, ?_, ?_, ?_⟩ <;> rintro rfl
    · refine Eq.trans ?_ (hdone 1 l { data := laneBits l 0, par := l })
      change Host.Outcome.next (s.inject 1 l { data := laneBits l 0, par := if isLocal (s.rd R.MEM_INJ_ADDR.WADDR) then 0 else l }) = _
      rw [hlocal]
      rfl
    · exact hdone 2 l _
    · exact hdone 3 l _
    · have htag := hdone 4 (BitVec.ofNat 8 (s.rd R.MEM_INJ_CTRL.LANES)) { tag := true }
      rw [State.injShown, toNat_ofNat_rd_lanes] at htag
      exact htag
    · exact hdone 5 l _
  · subst hu
    exact congrArg Host.Outcome.next (State.inject_badAddr htest hbad)
  · exact ⟨_, _, Nat.mod_lt _ (by decide), Nat.mod_lt _ (by decide), double_bits_differ _ _, rfl⟩
  · rw [exec_stripeWindowStore hlo hhi]
    refine ⟨fun hne => ?_, fun htest => ⟨_, rfl, State.stripeStore_stripeWord htest, ?_, ?_, ?_⟩⟩
    · rw [State.stripeStore, if_neg hne]
    · rw [State.stripeStore, if_pos htest]; exact State.spar_setSpar_same _ _ _
    · rw [State.stripeStore, if_pos htest]; rfl
    · rw [State.stripeStore, if_pos htest]; rfl
end Sys2Proof.Machine

/-!
The enable pair of every unit (Tables 1-7 to 1-9, R33 to R40): BLOCK_ENABLE, BLOCK_DISABLE, DRAIN_UNIT_COMPLETE and
ENGINE_CROSSBAR_ERROR.
-/

namespace Sys2Proof.Machine

/-! Enabling (Table 1-7). -/

/-- EN and ENREQ as a write of EN 1 leaves them. -/
def State.enAsked (s : State) (u : UnitId) : State := (s.raise u.EN).raise u.ENREQ

/-- The ring of an assist block checked where the block would use it. -/
def State.ringChecked (s : State) (u : UnitId) : State :=
  match u.ring with
  | some b => if (s.assist u && s.ringBad b) = true then s.raise b.BADRING else s
  | none => s

theorem State.enable_eq (s : State) (u : UnitId) : s.enable u =
    if (s.enAsked u).rd u.STATE ≠ stOff then s.enAsked u
    else match ((s.enAsked u).ringChecked u).unitFault u with
      | some (cause, arg) =>
        if u = .upd then (((s.enAsked u).ringChecked u).toFault u cause arg).raise R.UPD_INTSTAT.FAULT
        else ((s.enAsked u).ringChecked u).toFault u cause arg
      | none => ((match u.ring with
          | some b => if ((s.enAsked u).ringChecked u).assist u = true then ((s.enAsked u).ringChecked u).ringStart b
            else (s.enAsked u).ringChecked u
          | none => (s.enAsked u).ringChecked u : State).wr u.STATE stRun).unitStart u := rfl

/-- Settles O3, along Table 1-7: outside OFF, a failed check, a passed check. -/
theorem blockEnable : Obligations.block_enable := by
  intro s
  refine ⟨fun u hstate => ?_, fun u cause arg t r ht hoff hr hfault => ?_, fun u t r ht hoff hr hpass => ?_⟩
  · exact congrArg Host.Outcome.next ((s.enable_eq u).trans (if_pos hstate))
  all_goals
    subst ht
    obtain rfl : r = (s.enAsked u).ringChecked u := hr
    have hchecked := (s.enable_eq u).trans (if_neg (not_not.mpr hoff))
  · rw [hfault] at hchecked
    exact congrArg Host.Outcome.next hchecked
  · rw [hpass] at hchecked
    exact congrArg Host.Outcome.next hchecked

/-! Disabling and draining (Tables 1-8, 1-9). -/

/-- EN and ENREQ as a write of EN 0 leaves them. -/
def State.enCleared (s : State) (u : UnitId) : State := (s.clear u.EN).clear u.ENREQ

theorem State.disable_run {s : State} {u : UnitId} (h : s.rd u.STATE = stRun) :
    s.disable u = ((s.enCleared u).wr u.STATE stDrain).unitDrain u := if_pos h

theorem State.disable_fault {s : State} {u : UnitId} (h : s.rd u.STATE = stFault) : s.disable u =
    (match u.FARG with
      | some f => (((s.enCleared u).wr u.STATE stOff).clear u.FCAUSE).clear f
      | none => ((s.enCleared u).wr u.STATE stOff).clear u.FCAUSE : State).unitOff u :=
  (if_neg (by rw [h]; decide)).trans (if_pos h)

theorem State.disable_idle {s : State} {u : UnitId} (h : s.rd u.STATE = stOff ∨ s.rd u.STATE = stDrain) :
    s.disable u = s.enCleared u := by
  have hrun : s.rd u.STATE ≠ stRun := by rcases h with h | h <;> rw [h] <;> decide
  have hfault : s.rd u.STATE ≠ stFault := by rcases h with h | h <;> rw [h] <;> decide
  exact (if_neg hrun).trans (if_neg hfault)

theorem State.drainDone_drained {s : State} {u : UnitId} (h : s.rd u.STATE = stDrain) (hd : s.unitDrained u = true) :
    s.drainDone u = if s.on u.ENREQ then (s.wr u.STATE stRun).unitAgain u else (s.wr u.STATE stOff).unitOff u := if_pos ⟨h, hd⟩

theorem State.drainDone_other {s : State} {u : UnitId} (h : s.rd u.STATE ≠ stDrain ∨ s.unitDrained u = false) :
    s.drainDone u = s := if_neg fun ⟨hst, hd⟩ => h.elim (· hst) fun hno => by simp [hno] at hd

theorem State.xbarError_works {s : State} {u : UnitId} {cause : Nat} (hc : u.xbarCause = some cause) (hw : s.working u = true) :
    s.xbarError u = (s.toFault u cause).unitAbandon u := by simp [State.xbarError, hc, hw]

theorem State.xbarError_other {s : State} {u : UnitId} (h : u.xbarCause = none ∨ s.working u = false) : s.xbarError u = s := by
  unfold State.xbarError
  cases hc : u.xbarCause with
  | none => rfl
  | some cause => exact if_neg (by simpa [hc] using h)

/-- Settles O4, by the state that the command finds the unit in. -/
theorem blockDisable : Obligations.block_disable := by
  intro s
  refine ⟨fun u h => congrArg Host.Outcome.next (State.disable_run h), fun u h hf => ?_, fun u f h hf => ?_,
    fun u h => congrArg Host.Outcome.next (State.disable_idle h), fun u h hd hen => ?_, fun u h hd hen => ?_,
    fun u h => congrArg Host.Outcome.next (State.drainDone_other h),
    fun u cause hc hw => congrArg (fun t : State => Host.Outcome.next t.atHeld) (State.xbarError_works hc hw),
    fun u h => congrArg (fun t : State => Host.Outcome.next t.atHeld) (State.xbarError_other h)⟩
  · have hoff := State.disable_fault h
    rw [hf] at hoff
    exact congrArg Host.Outcome.next hoff
  · have hoff := State.disable_fault h
    rw [hf] at hoff
    exact congrArg Host.Outcome.next hoff
  · exact congrArg Host.Outcome.next ((State.drainDone_drained h hd).trans (if_neg (by simp [hen])))
  · exact congrArg Host.Outcome.next ((State.drainDone_drained h hd).trans (if_pos hen))
end Sys2Proof.Machine

/-!
Mode writes (R32) and the assist ring's kick and timeout (R40, R41).
-/

namespace Sys2Proof.Machine

/-! BLOCK_MODE_WRITE (R32). -/

theorem State.modeWrite_mode_off {s : State} {b : AsnBlock} {v : Word} (h : s.rd b.unit.STATE = stOff) :
    s.modeWrite b false v = (s.wr b.unit.MODE (b.unit.MODE.of v)).wr b.unit.MODE_ACT (b.unit.MODE.of v) := by
  simp [State.modeWrite, h]

theorem State.modeWrite_mode_on {s : State} {b : AsnBlock} {v : Word} (h : s.rd b.unit.STATE ≠ stOff) :
    s.modeWrite b false v = if s.rd b.unit.MODE = b.unit.MODE.of v then s else s.raise b.unit.MODE_REJ := by
  simp [State.modeWrite, h]

/-- The ring's register with the legal fields of a word written. -/
def State.ringWritten (s : State) (b : AsnBlock) (v : Word) : State :=
  (((s.wrIf (4 ≤ b.LOG2N.of v && b.LOG2N.of v ≤ 12) b.LOG2N (b.LOG2N.of v)).wrIf
    (b.SRV_KIND.of v ≤ 2) b.SRV_KIND (b.SRV_KIND.of v)).wr b.SRV_CORE (b.SRV_CORE.of v)).wr b.SRV_NODE (b.SRV_NODE.of v)

theorem State.modeWrite_ring (s : State) (b : AsnBlock) (v : Word) : s.modeWrite b true v =
    if s.rd b.unit.STATE = stOff then s.ringWritten b v
    else if (s.ringWritten b v).reg (b.unit.base + 0x44) = s.reg (b.unit.base + 0x44) then s else s.raise b.unit.MODE_REJ := by
  have hdef : s.modeWrite b true v = if (s.rd b.unit.STATE == stOff) = true then s.ringWritten b v
    else if (s.ringWritten b v).reg (b.unit.base + 0x44) = s.reg (b.unit.base + 0x44) then s else s.raise b.unit.MODE_REJ := rfl
  rw [hdef]
  simp only [beq_iff_eq]

/-! ASSIST_KICK and ASSIST_TIMEOUT (R40, R41). -/

/-- A kick of a block that does not use its ring, or whose oldest descriptor is not done, does nothing. -/
theorem State.asnKicked_idle {s : State} {b : AsnBlock}
    (h : s.working b.unit = false ∨ s.assist b.unit = false ∨ s.asnReap b = none) : s.asnKicked b = s := by
  unfold State.asnKicked State.kick'
  rcases h with h | h | h
  · simp [h]
  · simp [h]
  · simp [State.asnKick, h]

/-- A kick with one done descriptor in front applies it. -/
theorem State.asnKicked_one {s : State} {b : AsnBlock} {r : Reaped} (hw : s.working b.unit = true) (ha : s.assist b.unit = true)
    (hr : s.asnReap b = some r) (hlast : (asnApply b State.assistOpened r).asnReap b = none) :
    s.asnKicked b = asnApply b State.assistOpened r := by
  simp [State.asnKicked, State.kick', hw, ha, State.asnKick, hr, hlast]

theorem State.asnExpire_none {s : State} {b : AsnBlock}
    (h : (s.posts b).find? (fun p => !p.timedOut && s.owned b p) = none) : s.asnExpire b = s := by
  simp only [State.asnExpire, h]

theorem State.asnExpire_some {s t : State} {b : AsnBlock} {p x : AsnPost}
    (h : (s.posts b).find? (fun q => !q.timedOut && s.owned b q) = some p)
    (ht : (s.advance (p.postedAt + us * s.rd b.TMO)).asnTimeout b = some (x, t)) : s.asnExpire b = t.asnFallback b x := by
  simp only [State.asnExpire, h, ht]

/-- Settles O5: MODE and the ring by the state, the kick and the timeout by the ring's descriptors. -/
theorem modeAndAssist : Obligations.mode_and_assist := by
  intro s
  refine ⟨fun b v h => congrArg Host.Outcome.next (State.modeWrite_mode_off h), fun b v h hne => ?_, fun b v h heq => ?_, ?_,
    fun b h => congrArg Host.Outcome.next (State.asnKicked_idle h), fun b r hw ha hr hlast => congrArg Host.Outcome.next (State.asnKicked_one hw ha hr hlast),
    fun b h => congrArg Host.Outcome.next (State.asnExpire_none h), fun b p x t h ht => congrArg Host.Outcome.next (State.asnExpire_some h ht)⟩
  · exact congrArg Host.Outcome.next ((State.modeWrite_mode_on h).trans (if_neg hne))
  · exact congrArg Host.Outcome.next ((State.modeWrite_mode_on h).trans (if_pos heq))
  · rintro b v _ rfl
    exact ⟨fun h => congrArg Host.Outcome.next ((s.modeWrite_ring b v).trans (if_pos h)),
      fun h => congrArg Host.Outcome.next ((s.modeWrite_ring b v).trans (if_neg h))⟩
end Sys2Proof.Machine

/-!
The cores' accesses and cache instructions (R18 to R31, R384, R385): traps, the outcome of an access by its kind, the cache
instructions by the core's mode.
-/

namespace Sys2Proof.Machine

/-! Traps (R24, R384). -/

@[simp] theorem State.hart_setHart_same (s : State) (c : Nat) (x : CoreTrap) : (s.setHart c x).hart c = x := SMap.get_set_self

@[simp] theorem State.setHart_mem (s : State) (c : Nat) (x : CoreTrap) : (s.setHart c x).mem = s.mem := rfl

@[simp] theorem State.setHart_regs (s : State) (c : Nat) (x : CoreTrap) : (s.setHart c x).regs = s.regs := rfl

theorem State.trap_shows (s : State) (c cause a : Nat) : ((s.trap c cause a).hart c).cause = cause ∧ ((s.trap c cause a).hart c).mtval = a ∧
    ((s.trap c cause a).hart c).count = (s.hart c).count + 1 ∧ ((s.trap c cause a).hart c).user = false ∧
    (s.trap c cause a).mem = s.mem ∧ (s.trap c cause a).regs = s.regs := by
  simp [State.trap]

/-- A poison fault shows the word in MEADDR and VALID in MEINFO. -/
theorem State.poisonTrap_shows (s : State) (c a w : Nat) (k : MemKind) (new : Bool) (lanes : BitVec 8) :
    ((s.poisonTrap c k a w new lanes).hart c).cause = faultCause k ∧ ((s.poisonTrap c k a w new lanes).hart c).mtval = a ∧
    ((s.poisonTrap c k a w new lanes).hart c).meaddr = 8 * w ∧ ((s.poisonTrap c k a w new lanes).hart c).meinfo % 2 = 1 ∧
    (s.poisonTrap c k a w new lanes).mem = s.mem ∧ (s.poisonTrap c k a w new lanes).regs = s.regs := by
  have hodd : ∀ f n m l : Nat, (1 + 2 * f + 4 * n + 8 * m + 64 * l) % 2 = 1 := by omega
  refine ⟨by simp [State.poisonTrap, State.trap], by simp [State.poisonTrap, State.trap], by simp [State.poisonTrap, State.trap], ?_, rfl, rfl⟩
  simp only [State.poisonTrap, State.trap, State.hart_setHart_same, hodd]

/-! An access to memory, by its kind. -/

/-- A core of the module at an address of the bus. -/
theorem core_and_addr {c addr : Nat} (hc : c < 17) (ha : addr < 2 ^ 32) : (decide (c < 17) && decide (addr < 2 ^ 32)) = true := by
  rw [decide_eq_true hc, decide_eq_true ha]
  rfl

section
variable {s : State} {c addr size : Nat} {k : MemKind} {v : Word64}

theorem exec_coreMemoryAccess (hc : c < 17) (ha : addr < 2 ^ 32) (hsize : sizeOk k size = true) :
    exec (.coreMemoryAccess c k addr size v) s = .next (s.coreAccess c k addr size v) :=
  onUnit_next (by rw [core_and_addr hc ha, hsize]; rfl) _

theorem State.coreAccess_busError (h : s.busError c k addr size = true) :
    s.coreAccess c k addr size v = s.trap c (faultCause k) addr := by simp [State.coreAccess, h]

theorem State.coreAccess_regs (h : s.busError c k addr size = false) (hmis : misAmo k addr = false)
    (hreg : regionOf addr = some .regs) : s.coreAccess c k addr size v = s.regAccess c k addr size v := by
  simp [State.coreAccess, h, hmis, hreg]

/-- The state in which an access to memory acts: a read of the general region shows the link-state ages first. -/
def State.accessFrom (s : State) (addr size : Nat) : State := if inGeneral addr size = true then s.showAges else s

theorem State.coreAccess_mem (h : s.busError c k addr size = false) (hmis : misAmo k addr = false)
    (hreg : regionOf addr ≠ some .regs) :
    s.coreAccess c k addr size v = (s.accessFrom addr size).memAccess c k addr size v := by
  rw [State.coreAccess, if_neg (by simp [h, hmis]), if_neg hreg, State.accessFrom]
  exact (apply_ite (fun u : State => u.memAccess c k addr size v) _ _ _).symm

/-- A load or a fetch answers its bytes, or traps on the first poisoned word. -/
theorem State.memAccess_load_or_fetch (hk : k = .load ∨ k = .fetch) : s.memAccess c k addr size v =
    match (s.coreRead c (k == .fetch) addr size).poison with
    | some w => (s.coreRead c (k == .fetch) addr size).st.poisonTrap c k addr w (s.coreRead c (k == .fetch) addr size).new
        (s.coreRead c (k == .fetch) addr size).lanes
    | none => (s.coreRead c (k == .fetch) addr size).st.returned (natLE (s.coreRead c (k == .fetch) addr size).bytes) := by
  obtain rfl | rfl := hk <;> rfl

theorem State.memAccess_scFails (h : s.holds c (s.phys c addr) = false) :
    s.memAccess c (.amo .sc) addr size v = ((s.setResv c none).taken).returned 1 := by
  simp [State.memAccess, h]

theorem State.memAccess_scHolds (h : s.holds c (s.phys c addr) = true) :
    s.memAccess c (.amo .sc) addr size v = (((s.coreStore c addr (bytesLE v.toNat 4)).setResv c none).taken).returned 0 := by
  simp [State.memAccess, h]

theorem State.memAccess_lr (h : (s.coreRead c false addr size).poison = none) : s.memAccess c (.amo .lr) addr size v =
    ((s.coreRead c false addr size).st.returned (natLE (s.coreRead c false addr size).bytes)).setResv c (some (s.phys c addr / 4)) := by
  have hkind : (MemKind.amo .lr == .fetch) = false := rfl
  simp [State.memAccess, hkind, h]

/-- An atomic operation that reads and writes stores its result of the bytes read. -/
theorem State.memAccess_amo {op : AmoOp} (hsc : op ≠ .sc) (hlr : op ≠ .lr) (h : (s.coreRead c false addr size).poison = none) :
    s.memAccess c (.amo op) addr size v =
      ((s.coreRead c false addr size).st.returned (natLE (s.coreRead c false addr size).bytes)).coreStore c addr
        (bytesLE (amoResult op (BitVec.ofNat 32 (natLE (s.coreRead c false addr size).bytes)) (v.setWidth 32)).toNat 4) := by
  have hkind : (MemKind.amo op == .fetch) = false := rfl
  cases op with
  | sc => exact absurd rfl hsc
  | lr => exact absurd rfl hlr
  | _ => simp [State.memAccess, hkind, h]

end

/-! Cache instructions and MEINFO (R28, R385, Table 11-3). -/

theorem State.vendorCsr_user {s t : State} {c : Nat} (h : (s.hart c).user = true) : s.vendorCsr c t = s.illegal c := if_pos h

theorem State.vendorCsr_machine {s t : State} {c : Nat} (h : (s.hart c).user = false) : s.vendorCsr c t = t := if_neg (by simp [h])

theorem lineKey_div {c p : Nat} (hp : p < 2 ^ 32) : lineKey c p / 2 ^ 26 = c := by
  unfold lineKey
  omega

@[simp] theorem State.cacheLine_setLine_same (s : State) (fetch : Bool) (key : Nat) (x : Option CacheLine) :
    (s.setLine fetch key x).cacheLine fetch key = x := by
  cases fetch <;> exact SMap.get_set_self

/-- A filtered map answers the default for every key that the filter takes out. -/
theorem SMap.get_filter_key {β : Type} {d : Nat → β} {p : Nat → Bool} {k : Nat} (hk : p k = false) (m : SMap β) :
    SMap.get d (m.filter fun e => p e.1) k = d k := by
  induction m with
  | nil => rfl
  | cons e m ih =>
    obtain ⟨j, v⟩ := e
    rw [List.filter_cons]
    split
    · have hne : j ≠ k := by rintro rfl; simp_all
      simpa [SMap.get, hne] using ih
    · exact ih

/-- CIINV leaves no line of the core's instruction cache. -/
theorem State.dropCode_cacheLine (s : State) {c p : Nat} (hp : p < 2 ^ 32) : (s.dropCode c).cacheLine true (lineKey c p) = none :=
  SMap.get_filter_key (p := fun k => k / 2 ^ 26 != c) (by simp only [lineKey_div hp, bne_self_eq_false]) s.integ.icache

/-- Settles O6, by the kind of the access, then each cache instruction by the core's mode. -/
theorem coreAccess : Obligations.core_access := by
  intro s
  refine ⟨fun c addr size k v hc ha hsize h => ?_, s.trap_shows, ?_, ?_, ?_, ?_, ?_, ?_, ?_, ?_, ?_, ?_, ?_, ?_⟩
  · rw [exec_coreMemoryAccess hc ha hsize, State.coreAccess_busError h]
  · rintro c addr size k v _ _ hc ha hsize hk h hreg rfl rfl
    have hmis : misAmo k addr = false := by obtain rfl | rfl := hk <;> rfl
    have hexec := (exec_coreMemoryAccess (s := s) (v := v) hc ha hsize).trans
      (congrArg Host.Outcome.next ((State.coreAccess_mem h hmis hreg).trans (State.memAccess_load_or_fetch hk)))
    refine ⟨fun hp => hexec.trans ?_, fun w hp => hexec.trans ?_⟩ <;> rw [State.accessFrom, hp]
  · rintro c a w k new lanes _ rfl
    exact s.poisonTrap_shows c a w k new lanes
  · rintro c addr size v _ hc ha hsize h hreg rfl
    exact (exec_coreMemoryAccess hc ha hsize).trans (congrArg Host.Outcome.next (State.coreAccess_mem h rfl hreg))
  · rintro c addr size v _ op hc ha hsize h halign hreg rfl
    have hexec := (exec_coreMemoryAccess (s := s) (v := v) hc ha hsize).trans
      (congrArg Host.Outcome.next (State.coreAccess_mem h (by simp [misAmo, halign]) hreg))
    refine ⟨?_, ?_, ?_, fun hsc hlr hp => hexec.trans (congrArg Host.Outcome.next (State.memAccess_amo hsc hlr hp))⟩
    · rintro rfl hholds
      refine ⟨_, hexec.trans (congrArg Host.Outcome.next (State.memAccess_scFails hholds)), rfl, rfl, rfl, ?_⟩
      exact congrArg CoreTrap.resv (State.hart_setHart_same _ _ _)
    · rintro rfl hholds
      exact hexec.trans (congrArg Host.Outcome.next (State.memAccess_scHolds hholds))
    · rintro rfl hp
      exact hexec.trans (congrArg Host.Outcome.next (State.memAccess_lr hp))
  · intro c addr size k v hc ha hsize h hmis hreg
    rw [exec_coreMemoryAccess hc ha hsize, State.coreAccess_regs h hmis hreg]
  · exact fun c hc => onUnit_next (by simpa using hc) _
  · intro c addr v hc ha huser
    have hunit := core_and_addr hc ha
    have hcore : decide (c < 17) = true := by simpa using hc
    refine ⟨?_, ?_, ?_, ?_⟩
    · exact (onUnit_next hunit _).trans (congrArg Host.Outcome.next (State.vendorCsr_user huser))
    · exact (onUnit_next hunit _).trans (congrArg Host.Outcome.next (State.vendorCsr_user huser))
    · exact (onUnit_next hcore _).trans (congrArg Host.Outcome.next (State.vendorCsr_user huser))
    · exact (onUnit_next hcore _).trans (congrArg Host.Outcome.next (State.vendorCsr_user huser))
  · intro c addr hc ha hmach hline
    have hdrop : s.dropLine false (lineKey c addr) = s := by simp only [State.dropLine, hline]
    exact (onUnit_next (core_and_addr hc ha) _).trans (congrArg Host.Outcome.next ((State.vendorCsr_machine hmach).trans hdrop))
  · intro c addr x hc ha hmach hline
    have hdrop : s.dropLine false (lineKey c addr) = (s.lineBack c (lineKey c addr) x).setLine false (lineKey c addr) none := by
      simp only [State.dropLine, hline, lineKey_div ha]
    exact ⟨(onUnit_next (core_and_addr hc ha) _).trans (congrArg Host.Outcome.next ((State.vendorCsr_machine hmach).trans hdrop)),
      fun hclean => if_pos (by simp [hclean])⟩
  · intro c addr hc ha hmach
    exact ⟨_, (onUnit_next (core_and_addr hc ha) _).trans (congrArg Host.Outcome.next (State.vendorCsr_machine hmach)),
      State.cacheLine_setLine_same s false _ none, rfl, rfl⟩
  · intro c hc hmach
    exact ⟨_, (onUnit_next (by simpa using hc) _).trans (congrArg Host.Outcome.next (State.vendorCsr_machine hmach)),
      fun p hp => s.dropCode_cacheLine hp, rfl, rfl, rfl⟩
  · intro c v hc hmach
    exact (onUnit_next (by simpa using hc) _).trans (congrArg Host.Outcome.next (State.vendorCsr_machine hmach))
end Sys2Proof.Machine

/-!
The cycle scheduler's releases and the end of iterations (Table 2-2, R49 to R62, R72, R74, R76).
-/

namespace Sys2Proof.Machine

/-- A command on unit n of the k that the module has ends in the state its meaning gives. -/
theorem onUnit_lt {n k : Nat} (h : n < k) (t : State) : onUnit (decide (n < k)) t = .next t := onUnit_next (decide_eq_true h) t

theorem onUnit_lt_eq {n k : Nat} (h : n < k) {t u : State} (htu : t = u) : onUnit (decide (n < k)) t = .next u := htu ▸ onUnit_lt h _

/-- A field that lies within its register. -/
theorem Fld.fits {f : Fld} (h : decide (f.lo + f.w ≤ 32) = true) : f.lo + f.w ≤ 32 := of_decide_eq_true h

section
variable {s : State} {t : Nat}

/-! Leads (R51, R52). -/

theorem State.taskLead_begins (hw : s.withheld = false) (hfree : s.freeTask t = false) (harm : (s.task t).armed = true)
    (hidle : s.tstate t = tsIdle) (hlead : s.leadNs t ≠ 0) : s.taskLead t =
      if (s.advanceMt ((s.task t).nextRel - s.leadNs t)).mtNs < (s.task t).nextRel
      then (s.advanceMt ((s.task t).nextRel - s.leadNs t)).leadStart t (s.task t).nextRel else s := by
  simp [State.taskLead, hw, hfree, harm, hidle, hlead]

theorem State.taskLead_other (h : s.withheld = true ∨ s.freeTask t = true ∨ (s.task t).armed = false ∨ s.tstate t ≠ tsIdle ∨
    s.leadNs t = 0) : s.taskLead t = s := by
  have hno : (s.withheld || s.freeTask t || !(s.task t).armed || s.tstate t != tsIdle || s.leadNs t == 0) = true := by
    simpa [or_assoc] using h
  exact if_pos hno

/-! Releases (R49, R54, R59, R76, Table 2-2). -/

theorem State.taskRelease_absorbed (hfree : s.freeTask t = false) (harm : (s.task t).armed = true)
    (hmade : (s.task t).sharedAt = some s.mtNs) : s.taskRelease t = s.setTask t { s.task t with sharedAt := none } := by
  simp [State.taskRelease, hfree, harm, hmade]

theorem State.taskRelease_shared {u v : State} {r : Nat} (hfree : s.freeTask t = false) (harm : (s.task t).armed = true)
    (hmade : (s.task t).sharedAt ≠ some s.mtNs) (hr : r = (s.task t).nextRel) (hu : u = (s.advanceMt r).switchDue r)
    (hv : v = u.each (u.sharers r) fun w k => w.shareRelease r k) :
    s.taskRelease t = v.setTask t { v.task t with sharedAt := none } := by
  subst hr hu hv
  simp [State.taskRelease, hfree, harm, hmade]

theorem State.taskRelease_other (h : s.freeTask t = true ∨ (s.task t).armed = false) : s.taskRelease t = s :=
  if_pos (by simpa using h)

theorem State.releaseInstant_withheld (h : s.withheld = true) : s.releaseInstant t = s.bumpBy (R.SCH_TASK_DEFCNT.COUNT t) 1 := if_pos h

theorem State.releaseInstant_idle (hw : s.withheld = false) (h : s.tstate t = tsIdle) :
    s.releaseInstant t = (s.leadStart t s.mtNs).makeRelease t := by
  simp [State.releaseInstant, hw, h, State.releaseNow]

theorem State.releaseInstant_lead (hw : s.withheld = false) (h : s.tstate t = tsImaging) (hrel : (s.task t).released = false) :
    s.releaseInstant t = s.makeRelease t := by
  have hne : tsImaging ≠ tsIdle := by decide
  simp [State.releaseInstant, hw, h, hrel, hne]

theorem State.releaseInstant_flight (hw : s.withheld = false) (hidle : s.tstate t ≠ tsIdle)
    (h : s.tstate t ≠ tsImaging ∨ (s.task t).released = true) : s.releaseInstant t = s.overrun t := by
  have hno : ¬(s.tstate t = tsImaging ∧ (!(s.task t).released) = true) := by
    rintro ⟨himg, hrel⟩
    simp [himg] at h
    simp [h] at hrel
  simp only [State.releaseInstant, hw, hidle, hno, if_false, Bool.false_eq_true]

theorem State.freeRelease_armed {u v : State} (hfree : s.freeTask t = true) (harm : (s.task t).armed = true)
    (hu : u = s.advance (s.task t).nextRel) (hv : v = u.switchDue u.mtNs) :
    s.freeRelease t = State.releaseInstant (v.setTask t { v.task t with armed := false }) t := by
  subst hu hv
  simp [State.freeRelease, hfree, harm]

theorem State.freeRelease_other (h : s.freeTask t = false ∨ (s.task t).armed = false) : s.freeRelease t = s :=
  if_pos (by simpa using h)

theorem State.freeBound_flight (hfree : s.freeTask t = true) (hfl : s.inFlight t = true) : s.freeBound t =
    ((s.advance (s.task t).nextBound).setTask t { (s.advance (s.task t).nextBound).task t with
      nextBound := (s.task t).nextBound + (s.advance (s.task t).nextBound).perNs t }).overrun t := by
  simp [State.freeBound, hfree, hfl]

theorem State.freeBound_other (h : s.freeTask t = false ∨ s.inFlight t = false) : s.freeBound t = s :=
  if_pos (by simpa using h)

end

/-- A command that may end a hold's last iteration hands over afterwards (R473). -/
theorem onUnit_atHeld {n k : Nat} (h : n < k) {t u : State} (htu : t = u) :
    onUnit (decide (n < k)) t.atHeld = .next u.atHeld := htu ▸ onUnit_lt h _

/-- Settles O7, command by command: leads, grid releases, what a release instant does by the task's state, free runs. -/
theorem taskRelease : Obligations.task_release := by
  intro s
  refine ⟨?_, fun t ht h => (onUnit_lt ht _).trans (congrArg Host.Outcome.next (State.taskLead_other h)), ?_, ?_, ?_, ?_, ?_, ?_, ?_, ?_, ?_⟩
  · rintro t _ ht hw hfree harm hidle hlead rfl
    have hexec := (onUnit_lt ht _).trans (congrArg Host.Outcome.next (State.taskLead_begins hw hfree harm hidle hlead))
    exact ⟨fun hlt => hexec.trans (congrArg Host.Outcome.next (if_pos hlt)), fun hle => hexec.trans (congrArg Host.Outcome.next (if_neg (Nat.not_lt.mpr hle)))⟩
  · intro t r u v ht hfree harm hmade hr hu hv
    exact onUnit_atHeld ht (State.taskRelease_shared hfree harm hmade hr hu hv)
  · exact fun t ht hfree harm hmade => onUnit_atHeld ht (State.taskRelease_absorbed hfree harm hmade)
  · exact fun t ht h => onUnit_atHeld ht (State.taskRelease_other h)
  · rintro t r _ rfl
    rfl
  · exact fun t => ⟨State.releaseInstant_withheld, State.releaseInstant_idle, State.releaseInstant_lead, State.releaseInstant_flight⟩
  · exact fun t u v ht hfree harm hu hv => (onUnit_lt ht _).trans (congrArg Host.Outcome.next (State.freeRelease_armed hfree harm hu hv))
  · exact fun t ht h => (onUnit_lt ht _).trans (congrArg Host.Outcome.next (State.freeRelease_other h))
  · rintro t _ ht hfree hfl rfl
    exact onUnit_atHeld ht (State.freeBound_flight hfree hfl)
  · exact fun t ht h => onUnit_atHeld ht (State.freeBound_other h)
end Sys2Proof.Machine

/-!
SCH_DONE, SCH_ABORT, STOP and START (R57, R58, R61, R72, R572).
-/

namespace Sys2Proof.Machine

section
variable {s : State} {m t : Nat}

@[simp] theorem State.task_setTask_same (s : State) (t : Nat) (x : SchTask) : (s.setTask t x).task t = x := SMap.get_set_self

/-! SCH_DONE and SCH_ABORT of a control core (R57, R58, R72). -/

theorem State.schDone_busy (hm : m < 16) (herr : s.on (R.SCH_CORE_STAT.ERRRUN m) = false) (hbusy : s.on (R.SCH_CORE_STAT.BUSY m) = true)
    (ht : t = s.rd (R.SCH_CORE_STAT.TASK m)) :
    s.schDone m = (((s.freeTheCore t).setTstate t tsCommitting).queueCommit t).settle m := by
  simp [State.schDone, Nat.not_le.mpr hm, herr, hbusy, ht]

theorem State.schDone_nothing (hm : m < 16) (herr : s.on (R.SCH_CORE_STAT.ERRRUN m) = false)
    (hbusy : s.on (R.SCH_CORE_STAT.BUSY m) = false) : s.schDone m = s := by
  simp [State.schDone, Nat.not_le.mpr hm, herr, hbusy]

theorem State.schDone_errorTask {u : State} (hm : m < 16) (herr : s.on (R.SCH_CORE_STAT.ERRRUN m) = true)
    (hu : u = (s.clear (R.SCH_CORE_STAT.ERRRUN m)).setCore m { s.core m with errRaised := false }) :
    s.schDone m = State.settle
      (if ((s.core m).errRaised && u.working .sch) = true then (u.raise (R.SCH_CORE_STAT.ERRPEND m)).errorMoment m else u) m := by
  subst hu
  rw [State.schDone, if_neg (Nat.not_le.mpr hm), if_pos herr]

theorem State.schAbort_busy (hm : m < 16) (herr : s.on (R.SCH_CORE_STAT.ERRRUN m) = false) (hbusy : s.on (R.SCH_CORE_STAT.BUSY m) = true) :
    s.schAbort m = s.abortIter (s.rd (R.SCH_CORE_STAT.TASK m)) causeTrap := by
  simp [State.schAbort, Nat.not_le.mpr hm, herr, hbusy]

theorem State.schAbort_nothing (hm : m < 16) (herr : s.on (R.SCH_CORE_STAT.ERRRUN m) = false)
    (hbusy : s.on (R.SCH_CORE_STAT.BUSY m) = false) : s.schAbort m = s := by
  simp [State.schAbort, Nat.not_le.mpr hm, herr, hbusy]

theorem State.schAbort_errorTask {u : State} (hm : m < 16) (herr : s.on (R.SCH_CORE_STAT.ERRRUN m) = true)
    (hu : u = ((s.clear (R.SCH_CORE_STAT.ERRRUN m)).bump (R.SCH_CORE_ERRCNT.TRAPS m)).setCore m { s.core m with errRaised := false }) :
    s.schAbort m = State.settle
      (if ((s.core m).errRaised && u.working .sch) = true then (u.raise (R.SCH_CORE_STAT.ERRPEND m)).errorMoment m else u) m := by
  subst hu
  rw [State.schAbort, if_neg (Nat.not_le.mpr hm), if_pos herr]
  rfl

/-! STOP and START by the task's state (Table 2-2, R61, R572). -/

/-- A task in flight is neither unused nor stopped. -/
theorem State.not_stopped_of_inFlight (h : s.inFlight t = true) : ¬(s.tstate t = tsUnused ∨ s.tstate t = tsStopped) := by
  rintro (hst | hst) <;> simp [State.inFlight, hst, tsUnused, tsStopped, tsImaging, tsReady, tsRunning, tsPreempted, tsCommitting] at h

theorem State.stopTask_flight (h : s.inFlight t = true) : s.stopTask t =
    (s.clear (R.SCH_TASK_STAT.LATEPEND t)).setTask t { s.task t with stopWaits := true, armed := (s.task t).armed } :=
  (if_neg (State.not_stopped_of_inFlight h)).trans (if_pos h)

theorem State.stopTask_waiting (hst : ¬(s.tstate t = tsUnused ∨ s.tstate t = tsStopped)) (hfl : s.inFlight t = false) : s.stopTask t =
    (((s.dropLead t).setTstate t tsStopped).wr (R.SCH_TASK_STAT.STOPSRC t) 1).setTask t { (s.dropLead t).task t with armed := false } :=
  (if_neg hst).trans (if_neg (by simp [hfl]))

theorem State.stopTask_ignored (hst : s.tstate t = tsUnused ∨ s.tstate t = tsStopped) : s.stopTask t = s := if_pos hst

/-- An idle task has no lead to drop and no iteration in flight. -/
theorem State.stopTask_idle (hidle : s.tstate t = tsIdle) : s.stopTask t =
    ((s.setTstate t tsStopped).wr (R.SCH_TASK_STAT.STOPSRC t) 1).setTask t { s.task t with armed := false } := by
  have hfl : s.inFlight t = false := by
    simp [State.inFlight, hidle, tsIdle, tsImaging, tsReady, tsRunning, tsPreempted, tsCommitting]
  have hlead : s.dropLead t = s := if_neg (by simp [hidle, tsIdle, tsImaging])
  rw [State.stopTask_waiting (by simp [hidle, tsIdle, tsUnused, tsStopped]) hfl, hlead]

/-- A stopped task as START leaves it before it is armed. -/
def State.startedIdle (s : State) (t : Nat) : State := (s.setTstate t tsIdle).wr (R.SCH_TASK_STAT.STOPSRC t) 0

theorem State.startTask_stopped (hst : s.tstate t = tsStopped) : s.startTask t =
    if (!(s.startedIdle t).working .sch) = true then s.startedIdle t
    else if ((s.startedIdle t).withheld && (s.startedIdle t).freeTask t) = true then s.startedIdle t
    else (s.startedIdle t).armTask t := if_neg (not_not.mpr hst)

end

/-- Settles O8: the end of an iteration by what the core runs, STOP and START by the task's state. -/
theorem iterationEnd : Obligations.iteration_end := by
  intro s
  have hcore : ∀ {m}, m < 16 → m < 17 := fun h => Nat.lt_succ_of_lt h
  refine ⟨fun m t hm herr hbusy ht => ?_, fun m hm herr hbusy => ?_, ⟨rfl, rfl⟩, fun m u hm herr hu => ?_, fun m u hm herr hu => ?_,
    fun m hm herr hbusy => ?_, fun m hm herr hbusy => ?_, ?_, fun t ht hfl => ?_, fun t ht hst hrel => ?_, fun t ht hst => ?_,
    fun t ht hidle => ?_, fun t ht hst => ?_, ?_, ?_, ?_⟩
  · exact (onUnit_lt (hcore hm) _).trans (congrArg Host.Outcome.next (State.schDone_busy hm herr hbusy ht))
  · exact (onUnit_lt (hcore hm) _).trans (congrArg Host.Outcome.next (State.schDone_nothing hm herr hbusy))
  · exact (onUnit_lt (hcore hm) _).trans (congrArg Host.Outcome.next (State.schDone_errorTask hm herr hu))
  · exact onUnit_atHeld (hcore hm) (State.schAbort_errorTask hm herr hu)
  · exact onUnit_atHeld (hcore hm) (State.schAbort_nothing hm herr hbusy)
  · exact onUnit_atHeld (hcore hm) (State.schAbort_busy hm herr hbusy)
  · rintro t cause _ _ rfl rfl
    rfl
  · refine ⟨_, (onUnit_lt ht _).trans (congrArg Host.Outcome.next (State.stopTask_flight hfl)), ?_, State.rd_wr_same (Fld.fits rfl), ?_, rfl⟩
    · rw [State.task_setTask_same]
    · exact State.rd_wr_apart (Fld.fits rfl) (.inl (of_decide_eq_true rfl))
  · have hfl : s.inFlight t = false := by
      simp [State.inFlight, hst, hrel, tsImaging, tsReady, tsRunning, tsPreempted, tsCommitting]
    exact (onUnit_lt ht _).trans (congrArg Host.Outcome.next (State.stopTask_waiting (by simp [hst, tsImaging, tsUnused, tsStopped]) hfl))
  · exact (onUnit_lt ht _).trans (congrArg Host.Outcome.next (State.stopTask_ignored hst))
  · refine ⟨_, (onUnit_lt ht _).trans (congrArg Host.Outcome.next (State.stopTask_idle hidle)), ?_, State.rd_wr_same (Fld.fits rfl), ?_, rfl⟩
    · exact (State.rd_wr_apart (Fld.fits rfl) (.inl (of_decide_eq_true rfl))).trans (State.rd_wr_same (Fld.fits rfl))
    · rw [State.task_setTask_same]
  · exact (onUnit_lt ht _).trans (congrArg Host.Outcome.next (if_pos hst))
  all_goals
    rintro t _ ht hst rfl
    have hexec := (onUnit_lt ht _).trans (congrArg Host.Outcome.next (State.startTask_stopped hst))
  · intro hno
    exact hexec.trans (congrArg Host.Outcome.next (if_pos (by simpa [State.startedIdle] using hno)))
  · intro hwork hheld
    exact hexec.trans (congrArg Host.Outcome.next ((if_neg (by simpa [State.startedIdle] using hwork)).trans (if_neg (by simp [State.startedIdle, hheld]))))
  · intro hwork hheld
    have hhold : ((s.startedIdle t).withheld && (s.startedIdle t).freeTask t) = (s.startedIdle t).freeTask t := by
      rw [State.startedIdle, hheld, Bool.true_and]
    exact hexec.trans (congrArg Host.Outcome.next ((if_neg (by simpa [State.startedIdle] using hwork)).trans (by rw [hhold]; rfl)))
end Sys2Proof.Machine

/-!
The idle windows (R69).
-/

namespace Sys2Proof.Machine

/-- A loop that writes a field of its own register for each element leaves what it writes. -/
theorem State.each_wr_rd_of_mem {f : Nat → Fld} (hfits : ∀ i, (f i).lo + (f i).w ≤ 32) (hinj : ∀ i j, (f i).addr = (f j).addr → i = j)
    (x : Nat) {i : Nat} (l : List Nat) (s : State) (hmem : i ∈ l) :
    (s.each l fun t j => t.wr (f j) x).rd (f i) = x % 2 ^ (f i).w := by
  induction l using List.reverseRecOn with
  | nil => exact absurd hmem List.not_mem_nil
  | append_singleton l j ih =>
    have hlast : s.each (l ++ [j]) (fun t j => t.wr (f j) x) = (s.each l fun t j => t.wr (f j) x).wr (f j) x := by simp [State.each]
    rw [hlast]
    by_cases hij : i = j
    · rw [hij, State.rd_wr_same (hfits j)]
    · rw [State.rd_wr_ne fun ha => hij (hinj i j ha)]
      exact ih ((List.mem_append.mp hmem).resolve_right fun h => hij (List.mem_singleton.mp h))

theorem idlemin_addr_inj (i j : Nat) (h : (R.SCH_CORE_IDLEMIN.IDLEMIN i).addr = (R.SCH_CORE_IDLEMIN.IDLEMIN j).addr) : i = j := by
  simp only [R.SCH_CORE_IDLEMIN.IDLEMIN, R.SCH_CORE_IDLEMIN.addr] at h
  omega

/-- CLRMIN sets IDLEMIN of every core and touches nothing else. -/
theorem State.clearIdleMin_shows (s : State) : (∀ c, c < 16 → s.clearIdleMin.rd (R.SCH_CORE_IDLEMIN.IDLEMIN c) = 10000) ∧
    (∀ a, (∀ c, c < 16 → a ≠ R.SCH_CORE_IDLEMIN.addr c) → s.clearIdleMin.reg a = s.reg a) ∧ s.clearIdleMin.mem = s.mem := by
  refine ⟨fun c hc => ?_, fun a ha => ?_, ?_⟩
  · exact State.each_wr_rd_of_mem (fun i => Fld.fits rfl) idlemin_addr_inj 10000 _ s (List.mem_range.mpr hc)
  · exact State.each_keeps (fun t => t.reg a) (fun t c hc => State.reg_wr_ne (ha c (List.mem_range.mp hc))) s
  · exact State.each_keeps State.mem (fun t c hc => State.wr_mem t _ _) s

/-! IDLE_WIN_WRITE and IDLE_WINDOW_END (R69). -/

theorem State.writeIdleWin_legal {s : State} {v : Word} (hclr : v.getLsbD 31 = false) (hlo : 1 ≤ getField v 0 13)
    (hhi : getField v 0 13 ≤ 8000) (hne : getField v 0 13 ≠ s.rd R.SCH_IDLE_WIN.WIN_MS) :
    s.writeIdleWin v = (s.wr R.SCH_IDLE_WIN.WIN_MS (getField v 0 13)).dropWindow := by
  rw [State.writeIdleWin, if_neg (by rw [hclr]; decide), if_pos ⟨hlo, hhi, hne⟩]

theorem State.writeIdleWin_reserved {s : State} {v : Word} (hclr : v.getLsbD 31 = false)
    (hres : getField v 0 13 = 0 ∨ 8000 < getField v 0 13) : s.writeIdleWin v = s := by
  have hno : ¬(1 ≤ getField v 0 13 ∧ getField v 0 13 ≤ 8000 ∧ getField v 0 13 ≠ s.rd R.SCH_IDLE_WIN.WIN_MS) := by omega
  rw [State.writeIdleWin, if_neg (by rw [hclr]; decide), if_neg hno]

/-- With no window running a boundary starts one. -/
theorem State.idleWindow_starts {s : State} (h : s.sch.winStart = none) : s.idleWindow.sch.winStart.isSome = true := by
  simp only [State.idleWindow, h, Option.isSome_some]

theorem State.idleWindow_publishes {s u : State} {b : Nat} (h : s.sch.winStart = some b) (hu : u = s.advanceMt (b + s.winNs)) :
    s.idleWindow = (let v := u.each (List.range 16) fun x c => x.publishIdle (u.now - u.sch.winElapsed) c
      { v with sch := { v.sch with winStart := some (v.mtNs / s.winNs * s.winNs), winElapsed := v.now } }) := by
  subst hu
  simp only [State.idleWindow, h]

/-- Settles O9. -/
theorem idleWindows : Obligations.idle_windows := by
  intro s
  refine ⟨fun h => ⟨_, rfl, State.idleWindow_starts h⟩, fun b u h hu => congrArg Host.Outcome.next (State.idleWindow_publishes h hu),
    fun v hclr hlo hhi hne => ?_, fun v hclr hres => congrArg Host.Outcome.next (State.writeIdleWin_reserved hclr hres),
    ⟨_, rfl, s.clearIdleMin_shows⟩⟩
  refine ⟨_, congrArg Host.Outcome.next (State.writeIdleWin_legal hclr hlo hhi hne), ?_, rfl, rfl⟩
  calc (s.wr R.SCH_IDLE_WIN.WIN_MS (getField v 0 13)).rd R.SCH_IDLE_WIN.WIN_MS = getField v 0 13 % 2 ^ 13 := State.rd_wr_same (by decide)
    _ = getField v 0 13 := Nat.mod_mod _ _
end Sys2Proof.Machine

/-!
The hold bound and the switch point (R74 to R76, R488, R490).
-/

namespace Sys2Proof.Machine

section
variable {s : State}

/-! HOLD_BOUND_EXPIRY (R75). -/

theorem State.holdExpiry_none (h : s.sch.nextBound = none) : s.holdExpiry = s := by simp only [State.holdExpiry, h]

/-- The bounds that the expiry of one at instant b leaves. -/
def State.boundsLeft (s : State) (b : Nat) : State :=
  { s.advance b with sch := { (s.advance b).sch with
    holdBound := stillAhead b (s.advance b).sch.holdBound, drainBound := stillAhead b (s.advance b).sch.drainBound } }

/-- The tasks whose iteration a bound's expiry aborts. -/
def State.boundTasks (s : State) : List Nat := (s.sch.tasks.map (·.1)).filter fun t => s.inFlight t && s.tstate t != tsCommitting

theorem State.holdExpiry_some {b : Nat} (h : s.sch.nextBound = some b) : s.holdExpiry =
    (let u := s.boundsLeft b
     let v := if u.boundTasks.isEmpty then u else u.raise R.SCH_INTSTAT.QABORT
     let w : State := if !u.boundTasks.isEmpty && v.rd R.SCH_STAT.HOLDSRC == 2 then { v with pwr := { v.pwr with qabort := true } } else v
     (w.each u.boundTasks fun x t => x.abortIter t causeQabort).checkHeld) := by
  simp only [State.holdExpiry, h]
  rfl

theorem State.holdExpiry_noTask {b : Nat} (h : s.sch.nextBound = some b) (ht : (s.boundsLeft b).boundTasks = []) :
    s.holdExpiry = (s.boundsLeft b).checkHeld := by
  rw [State.holdExpiry_some h]
  dsimp only
  rw [ht]
  rfl

/-- With a task to abort QABORT is raised, and kept for the resume where power holds. -/
theorem State.holdExpiry_aborts {b : Nat} {v : State} (h : s.sch.nextBound = some b) (ht : (s.boundsLeft b).boundTasks ≠ [])
    (hv : v = (s.boundsLeft b).raise R.SCH_INTSTAT.QABORT) : s.holdExpiry =
      (State.each (if v.rd R.SCH_STAT.HOLDSRC = 2 then { v with pwr := { v.pwr with qabort := true } } else v)
        (s.boundsLeft b).boundTasks fun x t => x.abortIter t causeQabort).checkHeld := by
  subst hv
  rw [State.holdExpiry_some h]
  have hsome : (s.boundsLeft b).boundTasks.isEmpty = false := by simpa using ht
  simp only [hsome, Bool.not_false, Bool.true_and, beq_iff_eq, Bool.false_eq_true, if_false]

/-! SWITCH_ARM, SWITCH_CANCEL, SWITCH_INSTANT (R76, R488). -/

theorem State.armSwitch_ignored (h : s.on R.SCH_SWP_CMD.ARM = true ∨ s.rd R.SCH_STAT.HOLD ≠ 0) : s.armSwitch = s :=
  if_pos (by simpa using h)

theorem State.armSwitch_latches {i : Nat} {u v : State} (harm : s.on R.SCH_SWP_CMD.ARM = false) (hhold : s.rd R.SCH_STAT.HOLD = 0)
    (hi : i = s.rd64 R.SCH_SWP_LO.addr R.SCH_SWP_HI.addr)
    (hu : u = State.raise { s with sch := { s.sch with swInstant := i } } R.SCH_SWP_CMD.ARM)
    (hv : v = if u.rd R.UPD_PHASE.PHASE = 1 then u.wr R.UPD_PHASE.PHASE 2 else u) :
    s.armSwitch = if i ≤ v.mtNs then v.switchInstant else v := by
  subst hi hu hv
  exact if_neg (by simp [harm, hhold])

theorem State.switchInstant_armed {u : State} (harm : u.on R.SCH_SWP_CMD.ARM = true) : u.switchInstant =
    (State.clear (if u.rd R.UPD_PHASE.PHASE = 2 then
      State.wr { u with upd := { u.upd with swmt := u.sch.swInstant } } R.UPD_PHASE.PHASE 3 else u) R.SCH_SWP_CMD.ARM).beginHold 1 :=
  if_pos harm

theorem State.cancelSwitch_armed (harm : s.on R.SCH_SWP_CMD.ARM = true) : s.cancelSwitch =
    (State.clear (if s.rd R.UPD_PHASE.PHASE = 2 then s.wr R.UPD_PHASE.PHASE 1 else s) R.SCH_SWP_CMD.ARM).switchoverOff := if_pos harm

/-- The instant of an armed switch point: time advances to it and the hold begins. -/
theorem exec_switchInstant_armed {u : State} (harm : s.on R.SCH_SWP_CMD.ARM = true) (hu : u = s.advanceMt s.sch.swInstant) :
    exec .switchInstant s = .next ((State.clear (if s.rd R.UPD_PHASE.PHASE = 2 then
      State.wr { u with upd := { u.upd with swmt := u.sch.swInstant } } R.UPD_PHASE.PHASE 3 else u) R.SCH_SWP_CMD.ARM).beginHold 1).atHeld := by
  have hkept : u.rd R.SCH_SWP_CMD.ARM = s.rd R.SCH_SWP_CMD.ARM := hu ▸ State.advanceMt_rd _ _ _
  have hphase : u.rd R.UPD_PHASE.PHASE = s.rd R.UPD_PHASE.PHASE := hu ▸ State.advanceMt_rd _ _ _
  have hon : u.on R.SCH_SWP_CMD.ARM = true := by rwa [State.on, hkept]
  calc exec .switchInstant s = .next (s.advanceMt s.sch.swInstant).switchInstant.atHeld := congrArg Host.Outcome.next (if_pos harm)
    _ = .next u.switchInstant.atHeld := by rw [hu]
    _ = _ := by rw [State.switchInstant_armed hon, hphase]

/-! SWITCH_GO (R76, R490). -/

theorem State.switchGo_refused (h : s.rd R.SCH_STAT.HOLD = 0 ∨ s.rd R.SCH_STAT.HOLDSRC ≠ 1) :
    s.switchGo = s.raise R.SCH_INTSTAT.GOREJ := if_pos h

/-- The bays and the image bank that GO takes into service. -/
def State.banksTaken (s : State) : State := (s.wr R.UPD_BAYEXEC.BAY (s.rd R.UPD_BAYNEXT.BAY)).wr R.IMG_LBANK.ACT (s.rd R.IMG_LBANK.NEXT)

theorem State.switchGo_plain (hhold : s.rd R.SCH_STAT.HOLD ≠ 0) (hsrc : s.rd R.SCH_STAT.HOLDSRC = 1)
    (hphase : s.rd R.UPD_PHASE.PHASE ≠ phCommit) : s.switchGo =
      (State.wr { s.banksTaken with upd := { s.banksTaken.upd with holdEnds := none } } R.UPD_PHASE.PHASE phIdle).endHold := by
  have hdone : (s.rd R.UPD_PHASE.PHASE == phCommit) = false := by simpa using hphase
  rw [State.switchGo, if_neg (by simp [hhold, hsrc]), hdone]
  rfl

/-- A handover in its commit phase ends with the switch: the staged slot runs, with its configuration, and UPD_HANDOVER is recorded. -/
theorem State.switchGo_commit {x y z : State} (hhold : s.rd R.SCH_STAT.HOLD ≠ 0) (hsrc : s.rd R.SCH_STAT.HOLDSRC = 1)
    (hphase : s.rd R.UPD_PHASE.PHASE = phCommit)
    (hx : x = State.wr { s.banksTaken.syncMulti.unpin (s.rd R.IMG_LBANK.ACT) with
      upd := { (s.banksTaken.syncMulti.unpin (s.rd R.IMG_LBANK.ACT)).upd with holdEnds := none } } R.UPD_PHASE.PHASE phIdle)
    (hy : y = { x.forcesOnline with start := { x.start with slot := x.upd.staged } })
    (hz : z = ((y.wr R.PAIR_CFGID.CFGID (y.manifest x.upd.staged).cfgid).showVersions.raise R.UPD_INTSTAT.SWITCHED).bump R.UPD_CNT_HANDOVER.COUNT) :
    s.switchGo = (((z.event 0x0F03 (unit := x.upd.staged) (val1 := (z.manifest x.upd.staged).version)
      (val2 := Config.freeNat z.fresh)).taken).updDone ucOk).endHold := by
  subst hz hy hx
  have hdone : (s.rd R.UPD_PHASE.PHASE == phCommit) = true := by simpa using hphase
  rw [State.switchGo, if_neg (by simp [hhold, hsrc]), hdone]
  rfl

end

/-- Settles O10. -/
theorem switchPoints : Obligations.switch_points := by
  intro s
  refine ⟨fun h => congrArg (fun t : State => Host.Outcome.next t.atHeld) (State.holdExpiry_none h), ?_,
    fun h => congrArg (fun t : State => Host.Outcome.next t.atHeld) (State.armSwitch_ignored h),
    fun i u v harm hhold hi hu hv => congrArg (fun t : State => Host.Outcome.next t.atHeld) (State.armSwitch_latches harm hhold hi hu hv),
    fun harm => ?_, fun harm hphase => ?_, fun harm hphase => ?_, fun u harm hu => ?_, fun h => ?_, ?_⟩
  · rintro b _ v _ hb rfl rfl
    refine ⟨fun ht => congrArg (fun t : State => Host.Outcome.next t.atHeld) (State.holdExpiry_noTask hb ht), fun ht hv hsrc => ?_,
      fun ht hv hsrc => ?_⟩
    · have hexp := State.holdExpiry_aborts hb ht hv
      rw [if_neg hsrc] at hexp
      exact congrArg (fun t : State => Host.Outcome.next t.atHeld) hexp
    · have hexp := State.holdExpiry_aborts hb ht hv
      rw [if_pos hsrc] at hexp
      exact congrArg (fun t : State => Host.Outcome.next t.atHeld) hexp
  · exact ⟨congrArg Host.Outcome.next (if_neg (by simp [harm])), congrArg Host.Outcome.next (if_neg (by simp [harm]))⟩
  · have hcancel := State.cancelSwitch_armed harm
    rw [if_neg hphase] at hcancel
    exact congrArg Host.Outcome.next hcancel
  · have hcancel := State.cancelSwitch_armed harm
    rw [if_pos hphase] at hcancel
    exact congrArg Host.Outcome.next hcancel
  · have hinstant := exec_switchInstant_armed harm hu
    refine ⟨fun hphase => ?_, fun hphase => ?_⟩
    · rwa [if_neg hphase] at hinstant
    · rwa [if_pos hphase] at hinstant
  · refine ⟨_, congrArg Host.Outcome.next (State.switchGo_refused h), State.rd_wr_same (by decide), fun a ha => State.reg_wr_ne ha, rfl⟩
  · rintro _ v hhold hsrc rfl
    refine ⟨?_, fun x y z hphase hx hy hz => congrArg Host.Outcome.next (State.switchGo_commit hhold hsrc hphase hx hy hz)⟩
    rintro hphase rfl
    exact congrArg Host.Outcome.next (State.switchGo_plain hhold hsrc hphase)
end Sys2Proof.Machine

/-!
The image unit's transfers and the journal writer (R53, R57, R92, R96, R99, R121).
-/

namespace Sys2Proof.Machine

section
variable {s : State} {x : Xfer} {rest : List Xfer}

/-! INPUT_COPY and COMMIT_START: the transfer at the head of the queue, where the running unit has none in hand (log 28). -/

theorem State.inputCopy_copy (hq : s.img.queue = x :: rest) (hcur : s.img.cur = none) (hrun : s.running .img = true)
    (hk : x.kind = .copy) : s.inputCopy =
      (let u : State := { s with img := { s.img with queue := rest, cur := some { x with started := s.now } } }
       (u.each (u.copyStns x.task) fun s n => s.setStn n { s.stn n with locked := true }).each
        ((u.each (u.copyStns x.task) fun s n => s.setStn n { s.stn n with locked := true }).inList x.task) fun v e =>
          (((v.inSlot e).2.putSlot (u.ibuf x.task + e.iofs) (v.inSlot e).1).setImgTask x.task
            { ((v.inSlot e).2.putSlot (u.ibuf x.task + e.iofs) (v.inSlot e).1).imgTask x.task with
              flags := (((v.inSlot e).2.putSlot (u.ibuf x.task + e.iofs) (v.inSlot e).1).imgTask x.task).flags ||| (v.inSlot e).1.flags })) := by
  rw [State.inputCopy, hq, hcur, hrun]
  exact if_neg (not_not.mpr hk)

theorem State.inputCopy_otherKind (hq : s.img.queue = x :: rest) (hk : x.kind ≠ .copy) : s.inputCopy = s := by
  unfold State.inputCopy
  split
  · next hq' _ _ =>
    obtain ⟨rfl, -⟩ := List.cons.inj (hq.symm.trans hq')
    exact if_pos hk
  · rfl

theorem State.commitStart_otherKind (hq : s.img.queue = x :: rest) (hk : x.kind ≠ .commit) : s.commitStart = s := by
  unfold State.commitStart
  split
  · next hq' _ _ =>
    obtain ⟨rfl, -⟩ := List.cons.inj (hq.symm.trans hq')
    exact if_pos hk
  · rfl

/-- With no transfer waiting, one in hand or the unit outside RUN, neither starts. -/
theorem State.noTransfer (h : s.img.queue = [] ∨ s.img.cur ≠ none ∨ s.running .img = false) : s.inputCopy = s ∧ s.commitStart = s := by
  have hno : ∀ y ys, s.img.queue = y :: ys → s.img.cur = none → s.running .img = true → False := by
    intro y ys hq hcur hrun
    simp [hq, hcur, hrun] at h
  refine ⟨?_, ?_⟩
  · unfold State.inputCopy
    split
    · next hq hcur hrun => exact (hno _ _ hq hcur hrun).elim
    · rfl
  · unfold State.commitStart
    split
    · next hq hcur hrun => exact (hno _ _ hq hcur hrun).elim
    · rfl

theorem State.commitStart_commit {x' : Xfer} {u : State} (hq : s.img.queue = x :: rest) (hcur : s.img.cur = none)
    (hrun : s.running .img = true) (hk : x.kind = .commit)
    (hx : x' = { x with started := s.now, at_ := s.mtNs, outs := (s.readOuts x.task (s.outList x.task)).1, forced := s.forcedKeys })
    (hu : u = (s.readOuts x.task (s.outList x.task)).2) :
    s.commitStart = ({ u with img := { u.img with queue := rest, cur := some x' } }).commitJournal x' := by
  subst hx hu
  rw [State.commitStart, hq, hcur, hrun]
  exact if_neg (not_not.mpr hk)

/-! The end of a copy (R53). -/

/-- The state at a copy's end, its stations unlocked and the unit free. -/
def State.copyEnd (s : State) (x : Xfer) : State :=
  ((s.advance (x.started + (48 + 16 * s.icount x.task) / 2)).each
    ((s.advance (x.started + (48 + 16 * s.icount x.task) / 2)).copyStns x.task) fun s n => s.unlockStn n).setCur none

theorem State.copyComplete_copy (hcur : s.img.cur = some x) (hk : x.kind = .copy) : s.copyComplete =
    if x.discard then s.copyEnd x
    else ((s.copyEnd x).wr (R.IMG_TASK_TIME.ICOPY x.task) (t10 ((s.copyEnd x).now - x.started))).copyDone x.task := by
  simp only [State.copyComplete, hcur]
  exact if_neg (not_not.mpr hk)

theorem State.copyComplete_other (h : s.img.cur = none ∨ s.img.cur = some x ∧ x.kind ≠ .copy) : s.copyComplete = s := by
  rcases h with h | ⟨h, hk⟩
  · simp only [State.copyComplete, h]
  · simp only [State.copyComplete, h]
    exact if_pos hk

/-! The journal step of a commit, and the commit's end (R57, R99). -/

theorem State.journalStep_running {r : JrnRec} (hrun : s.running .jrn = true) : s.journalStep x r = match s.stageJrn r with
    | some u => u.setCur (some { x with waits := none, jrn := some (r, s.img.staged.find? (·.task == r.task)) })
    | none => s.setCur (some { x with waits := some r }) := if_neg (by simp [hrun])

theorem State.journalStep_skips {r : JrnRec} (hrun : s.running .jrn = false) :
    s.journalStep x r = (s.setCur (some { x with waits := none })).bump R.IMG_CNT_JSKIP.COUNT := if_pos (by simp [hrun])

theorem State.commitStaged_waits {r : JrnRec} (hcur : s.img.cur = some x) (hw : x.waits = some r) : s.commitStaged = s.journalStep x r := by
  simp only [State.commitStaged, hcur, hw]

theorem State.commitStaged_done (hcur : s.img.cur = some x) (hw : x.waits = none) : s.commitStaged = s := by
  simp only [State.commitStaged, hcur, hw]

theorem State.commitSeen_none (hcur : s.img.cur = none) : s.commitSeen = s := by
  simp only [State.commitSeen, State.commitComplete, hcur]

theorem State.commitSeen_other (hcur : s.img.cur = some x) (h : x.kind ≠ .commit ∨ x.waits ≠ none) : s.commitSeen = s := by
  have hkept : s.commitComplete = s := by
    simp only [State.commitComplete, hcur]
    exact if_pos (h.imp_right Option.isSome_iff_ne_none.mpr)
  simp [State.commitSeen, hkept, hcur]

/-- The state after a commit that has ended. -/
def State.commitEnd (s : State) (x : Xfer) : State :=
  ((s.advance (x.started + (16 * s.ocount x.task + s.retlen x.task) / 2)).commitOutputs x).setCur none

theorem State.commitSeen_commit {v : State} (hcur : s.img.cur = some x) (hk : x.kind = .commit) (hw : x.waits = none)
    (hv : v = ((s.commitEnd x).wr (R.IMG_TASK_TIME.OCOMMIT x.task) (t10 ((s.commitEnd x).now - x.started))).commitDone x.task)
    (hfree : v.img.cur = none) : s.commitSeen =
      State.resumeWhenDue { v with pair := { v.pair with committed := x.task :: v.pair.committed.filter (· != x.task) } } := by
  have hdone : s.commitComplete = v := by
    simp only [State.commitComplete, hcur]
    exact (if_neg (by simp [hk, hw])).trans hv.symm
  simp only [State.commitSeen, hdone, hcur]
  exact if_pos (by simp [hfree, hk])

/-! JOURNAL_WRITE (R99, R121). -/

theorem State.journalWrite_clean {r : JrnRec} {rs : List JrnRec} {u : State} {k : Nat} (hs : s.img.staged = r :: rs)
    (hrun : s.running .jrn = true) (hp : r.poisonAt = none) (hu : u = { s with img := { s.img with staged := rs } })
    (hk : k = u.nextSlot r.task) : s.journalWrite = (u.putBytes (u.jrnSlot r.task k) r.bytes).setImgTask r.task
      { (u.putBytes (u.jrnSlot r.task k) r.bytes).imgTask r.task with jslot := some k } := by
  subst hk hu
  simp only [State.journalWrite, hs, hrun, hp]
  rfl

theorem State.journalWrite_poison {r : JrnRec} {rs : List JrnRec} {u : State} {a : Nat} (hs : s.img.staged = r :: rs)
    (hrun : s.running .jrn = true) (hp : r.poisonAt = some a) (hu : u = { s with img := { s.img with staged := rs } }) :
    s.journalWrite = State.commitStaged ((((((u.toFault .jrn 1).wr R.IMG_JRN_FADDR.FADDR a).raise R.IMG_INTSTAT.JRNFAULT).event
      0x0320 (unit := r.task) (subj := a)).egressHalt 4 0 a)) := by
  subst hu
  simp only [State.journalWrite, hs, hrun, hp]
  rfl

theorem State.journalWrite_idle (h : s.img.staged = [] ∨ s.running .jrn = false) : s.journalWrite = s := by
  unfold State.journalWrite
  split
  · rfl
  · next hs => exact if_pos (by simpa [hs] using h)

end

/-- Settles O11. -/
theorem imageTransfers : Obligations.image_transfers := by
  intro s
  refine ⟨fun x rest hq hcur hrun hk => ⟨_, rfl, State.inputCopy_copy hq hcur hrun hk⟩,
    fun x rest hq => ⟨fun hk => congrArg Host.Outcome.next (State.inputCopy_otherKind hq hk),
      fun hk => congrArg Host.Outcome.next (State.commitStart_otherKind hq hk)⟩,
    fun h => ⟨congrArg Host.Outcome.next (State.noTransfer h).1, congrArg Host.Outcome.next (State.noTransfer h).2⟩,
    ?_, fun x h => congrArg Host.Outcome.next (State.copyComplete_other h),
    fun x x' rest u hq hcur hrun hk hx hu => congrArg Host.Outcome.next (State.commitStart_commit hq hcur hrun hk hx hu),
    fun x => rfl, ?_, fun x r hrun => State.journalStep_skips hrun,
    fun x r hcur hw => congrArg Host.Outcome.next (State.commitStaged_waits hcur hw),
    fun x hcur hw => congrArg Host.Outcome.next (State.commitStaged_done hcur hw),
    fun hcur => ⟨congrArg Host.Outcome.next (by simp only [State.commitStaged, hcur]),
      congrArg (fun t : State => Host.Outcome.next t.atHeld) (State.commitSeen_none hcur)⟩,
    fun x hcur h => congrArg (fun t : State => Host.Outcome.next t.atHeld) (State.commitSeen_other hcur h), ?_,
    fun r rs u k hs hrun hp hu hk => congrArg Host.Outcome.next (State.journalWrite_clean hs hrun hp hu hk),
    fun r rs a u hs hrun hp hu => congrArg Host.Outcome.next (State.journalWrite_poison hs hrun hp hu), fun t => ?_,
    fun h => congrArg Host.Outcome.next (State.journalWrite_idle h)⟩
  · rintro x _ hcur hk rfl
    have hend := State.copyComplete_copy hcur hk
    exact ⟨fun hd => congrArg Host.Outcome.next (hend.trans (if_pos hd)),
      fun hd => congrArg Host.Outcome.next (hend.trans (if_neg (by simp [hd])))⟩
  · rintro x r _ hrun rfl
    have hstep := State.journalStep_running (x := x) (r := r) hrun
    refine ⟨fun u hu => ?_, fun hnone => ?_⟩
    · rw [hu] at hstep
      exact hstep
    · rw [hnone] at hstep
      exact hstep
  · rintro x _ v hcur hk hw rfl hv hfree
    exact congrArg (fun t : State => Host.Outcome.next t.atHeld) (State.commitSeen_commit hcur hk hw hv hfree)
  · unfold State.nextSlot
    cases (s.imgTask t).jslot with
    | some k => rfl
    | none => simp only [Bool.and_eq_true, Bool.or_eq_true, Bool.not_eq_true', decide_eq_true_eq]
end Sys2Proof.Machine

/-!
The remote stations (Table 3-9, R100 to R109, R455).
-/

namespace Sys2Proof.Machine

section
variable {s : State} {n : Nat} {p : List Byte}

/-! A PDU from a station (R100, R103, R106). -/

/-- Both PDU commands take the PDU and judge it by its contents. -/
theorem exec_stationPdu (hn : n < 64) : exec (.stationInPdu n p) s = .next (s.stnPdu n p) ∧ exec (.stationStatusPdu n p) s = .next (s.stnPdu n p) :=
  ⟨onUnit_lt hn _, onUnit_lt hn _⟩

theorem State.stnPdu_off (h : (s.takeStnPdu n p).stnState n = stnOff) : s.stnPdu n p = s.takeStnPdu n p := if_pos h

theorem State.stnPdu_in (h : (s.takeStnPdu n p).stnState n ≠ stnOff) (hk : pduKind p = 2) :
    s.stnPdu n p = (s.takeStnPdu n p).inSegment n p := (if_neg h).trans (if_pos hk)

theorem State.stnPdu_status (h : (s.takeStnPdu n p).stnState n ≠ stnOff) (hk : pduKind p = 4) (h16 : numAt p 1 1 = 16)
    (hlen : p.length = pduLength (!(s.takeStnPdu n p).on (R.IMG_STN_CFG.XPORT n)) 8) :
    s.stnPdu n p = (s.takeStnPdu n p).statusPdu n p := by
  have hk2 : pduKind p ≠ 2 := by rw [hk]; decide
  exact (((if_neg h).trans (if_neg hk2)).trans (if_pos hk)).trans (if_pos ⟨h16, hlen⟩)

theorem State.stnPdu_bad (h : (s.takeStnPdu n p).stnState n ≠ stnOff) (hk2 : pduKind p ≠ 2) (hbad : pduKind p ≠ 4 ∨ numAt p 1 1 ≠ 16 ∨
    p.length ≠ pduLength (!(s.takeStnPdu n p).on (R.IMG_STN_CFG.XPORT n)) 8) : s.stnPdu n p = (s.takeStnPdu n p).badPdu n := by
  refine ((if_neg h).trans (if_neg hk2)).trans ?_
  by_cases hk : pduKind p = 4
  · refine (if_pos hk).trans (if_neg fun ⟨h16, hlen⟩ => ?_)
    exact (hbad.resolve_left (not_not.mpr hk)).elim (· h16) (· hlen)
  · exact if_neg hk

theorem State.statusPdu_eq {u v : State} (hu : u = s.seeEpoch n (numAt p 4 4))
    (hv : v = if numAt p 9 1 % 2 = 1 then
      (((u.raise (R.IMG_STN_STAT.OUTREJ n)).raise R.IMG_INTSTAT.OUTREJ).stnEvent 0x0304 n).pairOutrej (numAt p 4 4) else u) :
    s.statusPdu n p = if numAt p 8 1 = 0 then v.dropout n dropReboot
      else if numAt p 8 1 = 1 ∨ numAt p 8 1 = 2 then v else v.dropout n dropFault := by
  subst hv hu
  rfl

/-! Timers (R104, R107, R109). -/

theorem State.stnRefresh_sends (hrun : s.stationsRun = true) (hup : s.delivers n = true) (hun : s.on (R.IMG_STN_STAT.UNDELIV n) = false)
    (hsent : (s.stn n).outSent = true) (hgate : s.gateOpen = true) :
    s.stnRefresh n = (s.advance ((s.stn n).lastOut + ms * s.rd (R.IMG_STN_TIME.PER_MS n))).sendOut n false :=
  if_pos (by simp [hrun, hup, hun, hsent, hgate])

theorem State.stnRefresh_other (h : s.delivers n = false ∨ s.on (R.IMG_STN_STAT.UNDELIV n) = true ∨ s.gateOpen = false ∨
    (s.stn n).outSent = false ∨ s.stationsRun = false) : s.stnRefresh n = s := by
  refine if_neg fun hall => ?_
  simp only [Bool.and_eq_true, Bool.not_eq_true'] at hall
  obtain ⟨⟨⟨⟨hrun, hup⟩, hun⟩, hsent⟩, hgate⟩ := hall
  simp [hrun, hup, hun, hsent, hgate] at h

/-- A station that is UP or REJOIN drops out at its timeout. -/
theorem State.stnTimeout_drops {u : State} (h : s.stnState n = stnUp ∨ s.stnState n = stnRejoin)
    (hu : u = s.advance ((s.stn n).lastIn + ms * s.rd (R.IMG_STN_TIME.TMO_MS n))) : s.stnTimeout n =
      ((((((u.wr (R.IMG_STN_STAT.STATE n) stnDown).wr (R.IMG_STN_STAT.DCAUSE n) dropTimeout).bump
        (R.IMG_STN_CNT.DROPS n)).raise R.IMG_INTSTAT.STNDOWN).raiseStation n)).stnEvent 0x0301 n := by
  have hstate : u.stnState n = s.stnState n := hu ▸ State.advance_rd _ _ _
  subst hu
  exact (if_pos h).trans (if_pos (hstate ▸ h))

theorem State.stnTimeout_other (hup : s.stnState n ≠ stnUp) (hre : s.stnState n ≠ stnRejoin) : s.stnTimeout n = s :=
  if_neg fun h => h.elim hup hre

/-! Enabling and disabling (Table 3-9). -/

/-- The unit's own state lies below the stations' registers. -/
theorem img_state_ne_stnCfg (n : Nat) : (UnitId.STATE .img).addr ≠ (R.IMG_STN_CFG.EN n).addr := by
  have haddr : (UnitId.STATE .img).addr = 0x40020004 := rfl
  simp only [haddr, R.IMG_STN_CFG.EN, R.IMG_STN_CFG.addr]
  omega

theorem stnStat_ne_stnCfg (n : Nat) : (R.IMG_STN_STAT.STATE n).addr ≠ (R.IMG_STN_CFG.EN n).addr := by
  simp only [R.IMG_STN_STAT.STATE, R.IMG_STN_STAT.addr, R.IMG_STN_CFG.EN, R.IMG_STN_CFG.addr]
  omega

theorem State.raise_en_running : (s.raise (R.IMG_STN_CFG.EN n)).running .img = s.running .img := by
  have hstate : (s.raise (R.IMG_STN_CFG.EN n)).rd (UnitId.STATE .img) = s.rd (UnitId.STATE .img) := State.rd_wr_ne (img_state_ne_stnCfg n)
  rw [State.running, hstate]
  rfl

theorem exec_stationEnable (hn : n < 64) : exec (.stationEnable n) s =
    .next (if s.running .img then (s.raise (R.IMG_STN_CFG.EN n)).stnBegin n else s.raise (R.IMG_STN_CFG.EN n)) := by
  rw [← State.raise_en_running (s := s) (n := n)]
  exact onUnit_lt hn _

/-- A station that starts: its assembly empty, no probe held, STATE START. -/
def State.stnStarted (s : State) (n : Nat) : State :=
  (s.setStn n { s.stn n with asmActive := false, probeHeld := false }).wr (R.IMG_STN_STAT.STATE n) stnStart

theorem State.stnBegin_off (h : s.stnState n = stnOff) : s.stnBegin n = (s.stnStarted n).sendProbe n := if_pos h

theorem State.stnEnd_on (h : s.stnState n ≠ stnOff) : s.stnEnd n =
    ((if s.stnState n = stnUp then s.sendSafe n else s : State).wr (R.IMG_STN_STAT.STATE n) stnOff).setStn n
      { (if s.stnState n = stnUp then s.sendSafe n else s : State).stn n with asmActive := false, probeHeld := false } := if_neg h

theorem State.stnEnd_up (h : s.stnState n = stnUp) : s.stnEnd n = ((s.sendSafe n).wr (R.IMG_STN_STAT.STATE n) stnOff).setStn n
    { (s.sendSafe n).stn n with asmActive := false, probeHeld := false } := by
  have hon : s.stnState n ≠ stnOff := by rw [h]; decide
  rw [State.stnEnd_on hon, if_pos h]

theorem State.stnEnd_other (hoff : s.stnState n ≠ stnOff) (hup : s.stnState n ≠ stnUp) :
    s.stnEnd n = (s.wr (R.IMG_STN_STAT.STATE n) stnOff).setStn n { s.stn n with asmActive := false, probeHeld := false } := by
  rw [State.stnEnd_on hoff, if_neg hup]

end

/-- Settles O12, by the PDU's kind, then each timer and command by the station's state. -/
theorem remoteStations : Obligations.remote_stations := by
  intro s
  have hpdu : ∀ {n : Nat} {p : List Byte} {t : State}, n < 64 → s.stnPdu n p = t →
      exec (.stationInPdu n p) s = .next t ∧ exec (.stationStatusPdu n p) s = .next t := fun hn ht => ht ▸ exec_stationPdu hn
  have hunit : ∀ {n : Nat} {t u : State}, n < 64 → t = u → onUnit (decide (n < 64)) t = .next u := fun hn htu => htu ▸ onUnit_lt hn _
  refine ⟨fun n p hn h => hpdu hn (State.stnPdu_off h), fun n p hn h hk => hpdu hn (State.stnPdu_in h hk),
    fun n p hn h hk h16 hlen => (hpdu hn (State.stnPdu_status h hk h16 hlen)).symm, fun n p u v => State.statusPdu_eq,
    fun n p hn h hk hbad => hpdu hn (State.stnPdu_bad h hk hbad),
    fun n hn hrun hup hun hsent hgate => hunit hn (State.stnRefresh_sends hrun hup hun hsent hgate),
    fun n hn h => hunit hn (State.stnRefresh_other h), fun n u hn h hu => hunit hn (State.stnTimeout_drops h hu),
    fun n hn hup hre => hunit hn (State.stnTimeout_other hup hre), fun n hn h => hunit hn (if_pos h), fun n hn h => hunit hn (if_neg h),
    fun n hn h => hunit hn (if_pos h), fun n hn h hgate => hunit hn ((if_neg h).trans (if_pos hgate)),
    fun n hn h hgate => hunit hn ((if_neg h).trans (if_neg (by simp [hgate]))), fun n hn hrun h => ?_, fun n hn h => ?_,
    fun n hn hrun => ?_, ?_, ?_, ?_⟩
  · have hoff : (s.raise (R.IMG_STN_CFG.EN n)).stnState n = stnOff := (State.rd_wr_ne (stnStat_ne_stnCfg n)).trans h
    refine ⟨(s.raise (R.IMG_STN_CFG.EN n)).stnStarted n, State.rd_wr_same (Fld.fits rfl), ?_, ?_, rfl, fun a hcfg hstat => ?_⟩
    · rw [exec_stationEnable hn, if_pos hrun, State.stnBegin_off hoff]
    · have hen : ((s.raise (R.IMG_STN_CFG.EN n)).stnStarted n).rd (R.IMG_STN_CFG.EN n) = 1 :=
        (State.rd_wr_ne (stnStat_ne_stnCfg n).symm).trans (State.rd_wr_same (Fld.fits rfl))
      rw [State.on, hen]
      rfl
    · exact (State.reg_wr_ne hstat).trans (State.reg_wr_ne hcfg)
  · have hbegin : (s.raise (R.IMG_STN_CFG.EN n)).stnBegin n = s.raise (R.IMG_STN_CFG.EN n) := if_neg h
    rw [exec_stationEnable hn, hbegin, ite_self]
  · rw [exec_stationEnable hn, if_neg (by simp [hrun])]
  · rintro n _ hn rfl h
    exact hunit hn (if_pos h)
  · rintro n _ hn rfl h
    exact hunit hn (State.stnEnd_up h)
  · rintro n _ hn rfl hoff hup
    exact hunit hn (State.stnEnd_other hoff hup)
end Sys2Proof.Machine

/-!
Forces, and writes of the image unit's memory (R86, R112, R116, R117).
-/

namespace Sys2Proof.Machine

section
variable {s : State}

/-! FORCE_SET (R116). -/

/-- The lowest free entry of the force table. -/
def State.freeForce (s : State) : Option Nat := (List.range 1024).find? fun i => !(s.forceAt i).valid

/-- A force entry's end: an output force is applied, the change mirrored, RESULT 0. -/
def State.forceTaken (s u : State) (i : Nat) : State :=
  ((if (s.forceKey s.frcKey).isOut then u.applyForce (s.forceKey s.frcKey) u.frcVal else u).mirrorForce [i] []).forceDone 1 0x0310 0

theorem State.forceSet_bad (h : s.forceKey s.frcKey = .bad) : s.forceSet = s.forceDone 1 0x0310 3 := if_pos h

theorem State.forceSet_full (h : s.forceKey s.frcKey ≠ .bad) (hidx : s.forceIdx s.frcKey = none) (hfree : s.freeForce = none) :
    s.forceSet = (s.raise R.IMG_INTSTAT.FRCFULL).forceDone 1 0x0313 1 := by
  have hfree' : (List.range 1024).find? (fun i => !(s.forceAt i).valid) = none := hfree
  simp only [State.forceSet, if_neg h, hidx, hfree']

theorem State.forceSet_replaces {i : Nat} {u : State} (h : s.forceKey s.frcKey ≠ .bad) (hidx : s.forceIdx s.frcKey = some i)
    (hu : u = s.setForce i { s.forceAt i with value := BitVec.ofNat 64 s.frcVal, mt := s.mt }) : s.forceSet = s.forceTaken u i := by
  subst hu
  simp only [State.forceSet, if_neg h, hidx]
  rfl

theorem State.forceSet_adds {i : Nat} {u : State} (h : s.forceKey s.frcKey ≠ .bad) (hidx : s.forceIdx s.frcKey = none)
    (hfree : s.freeForce = some i) (hu : u = s.setForce i
      { valid := true, key := BitVec.ofNat 32 s.frcKey, out := (s.forceKey s.frcKey).isOut, value := BitVec.ofNat 64 s.frcVal, mt := s.mt }) : s.forceSet = s.forceTaken u i := by
  have hfree' : (List.range 1024).find? (fun i => !(s.forceAt i).valid) = some i := hfree
  subst hu
  simp only [State.forceSet, if_neg h, hidx, hfree']
  rfl

/-! FORCE_CLEAR and FORCE_CLEARALL (R116). -/

theorem State.forceClear_absent (h : s.forceIdx s.frcKey = none) : s.forceClear = s.forceDone 2 0x0311 2 := by
  simp only [State.forceClear, h]

theorem State.forceClear_present {i : Nat} (h : s.forceIdx s.frcKey = some i) :
    s.forceClear = ((s.removeForce i).mirrorForce [] [s.frcKey]).forceDone 2 0x0311 0 := by
  simp only [State.forceClear, h]

/-! IMG_MDATA_WRITE (R86). -/

/-- MADDR counted on by one. -/
def State.maddrNext (s : State) : State := s.wr R.IMG_MADDR.WADDR (s.rd R.IMG_MADDR.WADDR + 1)

theorem State.maddrNext_rd {f : Fld} (h : f.addr ≠ R.IMG_MADDR.addr) : s.maddrNext.rd f = s.rd f := State.rd_wr_ne h

theorem State.imgMdata_eq (v : Word) : s.imgMdata v =
    if s.rd R.IMG_MADDR.WADDR / 0xC000 < 2 ∧ (s.rd R.IMG_MADDR.WADDR / 0xC000 ≠ s.rd R.IMG_LBANK.ACT ∨ s.rd R.IMG_STAT.STATE = stOff)
    then { s.maddrNext with img := { s.img with lists := SMap.set (fun _ => 0) s.img.lists (s.rd R.IMG_MADDR.WADDR) v } }
    else s.maddrNext := by
  rw [← State.maddrNext_rd (s := s) (f := R.IMG_LBANK.ACT) (by decide), ← State.maddrNext_rd (s := s) (f := R.IMG_STAT.STATE) (by decide)]
  rfl

/-- The address advances, and nothing else of the registers and no memory changes, whether the word is stored or not. -/
theorem State.imgMdata_frame (v : Word) : (s.imgMdata v).rd R.IMG_MADDR.WADDR = (s.rd R.IMG_MADDR.WADDR + 1) % 2 ^ R.IMG_MADDR.WADDR.w ∧
    (s.imgMdata v).mem = s.mem ∧ ∀ a, a ≠ R.IMG_MADDR.addr → (s.imgMdata v).reg a = s.reg a := by
  rw [State.imgMdata_eq]
  refine ite_keep (P := fun t : State => t.rd R.IMG_MADDR.WADDR = _ ∧ t.mem = s.mem ∧ ∀ a, a ≠ R.IMG_MADDR.addr → t.reg a = s.reg a) ?_ ?_
  · exact ⟨State.rd_wr_same (f := R.IMG_MADDR.WADDR) (by decide), rfl, fun a ha => State.reg_wr_ne ha⟩
  · exact ⟨State.rd_wr_same (by decide), rfl, fun a ha => State.reg_wr_ne ha⟩

/-- A word that may be written is in the list memory afterwards, every other word as it was. -/
theorem State.imgMdata_stored {v : Word} (hbank : s.rd R.IMG_MADDR.WADDR / 0xC000 < 2)
    (h : s.rd R.IMG_MADDR.WADDR / 0xC000 ≠ s.rd R.IMG_LBANK.ACT ∨ s.rd R.IMG_STAT.STATE = stOff) (w : Nat) :
    SMap.get (fun _ => (0 : Word)) (s.imgMdata v).img.lists w =
      if w = s.rd R.IMG_MADDR.WADDR then v else SMap.get (fun _ => (0 : Word)) s.img.lists w := by
  rw [State.imgMdata_eq, if_pos ⟨hbank, h⟩]
  exact SMap.get_set

theorem State.imgMdata_notStored {v : Word} (h : 2 ≤ s.rd R.IMG_MADDR.WADDR / 0xC000 ∨
    s.rd R.IMG_MADDR.WADDR / 0xC000 = s.rd R.IMG_LBANK.ACT ∧ s.rd R.IMG_STAT.STATE ≠ stOff) : (s.imgMdata v).img = s.img := by
  have hno : ¬(s.rd R.IMG_MADDR.WADDR / 0xC000 < 2 ∧
      (s.rd R.IMG_MADDR.WADDR / 0xC000 ≠ s.rd R.IMG_LBANK.ACT ∨ s.rd R.IMG_STAT.STATE = stOff)) := by
    rintro ⟨hbank, hact⟩
    rcases h with h | ⟨heq, hoff⟩
    · exact absurd hbank (Nat.not_lt.mpr h)
    · exact hact.elim (· heq) hoff
  rw [State.imgMdata_eq, if_neg hno]
  rfl

end

/-- Settles O13. -/
theorem forceCommands : Obligations.force_commands := by
  intro s
  refine ⟨fun h => congrArg Host.Outcome.next (State.forceSet_bad h),
    fun h hidx hfree => congrArg Host.Outcome.next (State.forceSet_full h hidx hfree),
    fun i u h hidx hu => congrArg Host.Outcome.next (State.forceSet_replaces h hidx hu),
    fun i u h hidx hfree hu => congrArg Host.Outcome.next (State.forceSet_adds h hidx hfree hu),
    fun h => congrArg Host.Outcome.next (State.forceClear_absent h),
    fun i h => congrArg Host.Outcome.next (State.forceClear_present h), rfl, fun v => ?_⟩
  obtain ⟨haddr, hmem, hreg⟩ := State.imgMdata_frame (s := s) v
  exact ⟨_, rfl, haddr, hmem, hreg, fun ⟨hbank, hact⟩ => State.imgMdata_stored hbank (.inl hact),
    fun ⟨hbank, hoff⟩ => State.imgMdata_stored hbank (.inr hoff), State.imgMdata_notStored⟩
end Sys2Proof.Machine

/-!
Point messages and pushes (R130, R131, R134, R136).
-/

namespace Sys2Proof.Machine

section
variable {s u : State} {src : Nat} {b : List Byte}

/-- Each of the five message commands handles its body by what the body says. -/
theorem exec_pointMsg {c : Instr}
    (hc : c ∈ [Instr.subReceived src b, .unsubReceived src b, .fetchReceived src b, .subackReceived src b, .pushReceived src b]) :
    exec c s = .next (s.pointMsg src b) := by
  simp only [List.mem_cons, List.not_mem_nil, or_false] at hc
  obtain rfl | rfl | rfl | rfl | rfl := hc <;> rfl

/-- A body that Table 4-8 does not allow: kind, version, count or length. -/
def badPointMsg (b : List Byte) : Prop :=
  numAt b 0 1 = 0 ∨ 5 < numAt b 0 1 ∨ numAt b 1 1 ≠ 1 ∨ numAt b 2 2 = 0 ∨ 32 < numAt b 2 2 ∨
    b.length ≠ 8 + numAt b 2 2 * itemSize (numAt b 0 1)

theorem State.pointMsg_unserved (hu : u = s.takeInbox tyPoint src b) (h : u.hopServes = false) : s.pointMsg src b = u := by
  subst hu
  exact if_pos (by simp [h])

theorem State.pointMsg_bad (hu : u = s.takeInbox tyPoint src b) (h : u.hopServes = true) (hbad : badPointMsg b) :
    s.pointMsg src b = (u.bump R.HOP_CNT_BADMSG.COUNT).raise R.HOP_INTSTAT.BADMSG := by
  subst hu
  exact (if_neg (by simp [h])).trans (if_pos hbad)

/-- A well-formed body is handled by its kind. -/
theorem State.pointMsg_good (hu : u = s.takeInbox tyPoint src b) (h : u.hopServes = true) (hgood : ¬badPointMsg b) :
    s.pointMsg src b = match numAt b 0 1 with
      | 1 => u.subIn src (chunks (itemSize (numAt b 0 1)) (b.drop 8))
      | 2 => u.subackIn src (numAt b 4 2) (chunks (itemSize (numAt b 0 1)) (b.drop 8))
      | 3 => u.unsubIn src (chunks (itemSize (numAt b 0 1)) (b.drop 8))
      | 4 => u.each (chunks (itemSize (numAt b 0 1)) (b.drop 8)) fun v it => v.pushIn1 src (numAt b 4 2) it
      | _ => u.fetchIn src (chunks (itemSize (numAt b 0 1)) (b.drop 8)) := by
  subst hu
  exact (if_neg (by simp [h])).trans (if_neg hgood)

/-- A body of one of the five kinds with the version, count and length that its kind asks for. -/
theorem not_badPointMsg {k : Nat} (hk : numAt b 0 1 = k) (h1 : 1 ≤ k) (h5 : k ≤ 5) (hver : numAt b 1 1 = 1) (hzero : numAt b 2 2 ≠ 0)
    (hmax : numAt b 2 2 ≤ 32) (hlen : b.length = 8 + numAt b 2 2 * itemSize (numAt b 0 1)) : ¬badPointMsg b := by
  rintro (h | h | h | h | h | h)
  · omega
  · omega
  · exact h hver
  · exact hzero h
  · omega
  · exact h hlen

/-! A push of one index (R134, R136). -/

section
variable {pinc e slot d : Nat} {it : List Byte}

theorem State.pushIn1_noRange (h : s.rangeOf src (numAt it 0 4 % 2 ^ 20) = none) : s.pushIn1 src pinc it = s.bump R.HOP_CNT_NOSUB.COUNT := by
  simp only [State.pushIn1, h]

theorem State.pushIn1_old (h : s.rangeOf src (numAt it 0 4 % 2 ^ 20) = some e)
    (hslot : slot = (s.range e).slot + (numAt it 0 4 % 2 ^ 20 - (s.range e).first))
    (hd : d = (recSeq (it.drop 4) + 2 ^ 32 - recSeq (s.bytes (s.storeAddr slot) 32)) % 2 ^ 32)
    (hpinc : (s.range e).pinc = pinc) (hold : 2 ^ 31 ≤ d) : s.pushIn1 src pinc it = s.bump R.HOP_CNT_OLDSEQ.COUNT := by
  have hyes : (!(s.range e).pinc != pinc && decide (2 ^ 31 ≤ d)) = true := by simpa [hpinc] using hold
  rw [State.pushIn1]
  dsimp only
  rw [h]
  dsimp only
  rw [← hslot, ← hd, if_pos hyes]

/-- The range with the incarnation of the push taken and recorded, where it is another. -/
def State.pincTaken (s : State) (e pinc : Nat) : State :=
  if (s.range e).pinc = pinc then s
  else (s.setRange e { s.range e with pinc := pinc, pincKnown := true }).event 0x0406 (subj := (s.range e).name) (val1 := pinc)

theorem State.pushIn1_taken {u v : State} {st : PStat} {ty : Nat} (h : s.rangeOf src (numAt it 0 4 % 2 ^ 20) = some e)
    (hslot : slot = (s.range e).slot + (numAt it 0 4 % 2 ^ 20 - (s.range e).first))
    (hd : d = (recSeq (it.drop 4) + 2 ^ 32 - recSeq (s.bytes (s.storeAddr slot) 32)) % 2 ^ 32)
    (hnew : (s.range e).pinc ≠ pinc ∨ d < 2 ^ 31) (hu : u = s.pincTaken e pinc) (hrep : u.needsRepair slot = false)
    (hst : st = { recStat (it.drop 4) with stale := false }) (hty : ty = numAt (it.drop 4) 28 4)
    (hv : v = (u.bump R.HOP_CNT_PUSHRX.COUNT).putReplica slot ((it.drop 4).take 16 ++ bytesLE st.toNat 4 ++ ((it.drop 4).drop 20).take 8 ++
      bytesLE (if ty.testBit 8 then ty else ty + 256) 4)) :
    s.pushIn1 src pinc it = if (s.range e).state = rngLive ∨ (s.range e).state = rngStale then v.rangeLive e else v := by
  have hnot : ¬(!(s.range e).pinc != pinc && decide (2 ^ 31 ≤ d)) = true := by
    simp only [Bool.and_eq_true, Bool.not_eq_true', bne_eq_false_iff_eq, decide_eq_true_eq, not_and, not_le]
    exact fun heq => hnew.resolve_left (not_not.mpr heq)
  have hchanged : (if ((s.range e).pinc != pinc) = true then
      (s.setRange e { s.range e with pinc := pinc, pincKnown := true }).event 0x0406 (subj := (s.range e).name) (val1 := pinc) else s) = u := by
    rw [hu, State.pincTaken]
    by_cases heq : (s.range e).pinc = pinc <;> simp [heq]
  rw [State.pushIn1]
  dsimp only
  rw [h]
  dsimp only
  rw [← hslot, ← hd, if_neg hnot, hchanged, hrep, ← hst, ← hty, ← hv]
  rfl

end

theorem State.pushPending_eq {n : Nat} {idx : List Nat} (hidx : idx = ((s.hop.pending.filter (·.2)).map (·.1)).take n) :
    s.pushPending n = (s.each s.outList' fun u e => u.pushTo (u.outEntry e).node
      (idx.filter fun i => (u.outEntry e).first ≤ i && i < (u.outEntry e).first + (u.outEntry e).count)).each idx
        fun u i => { u with hop := { u.hop with pending := SMap.set (fun _ => false) u.hop.pending i false } } := by
  subst hidx
  rfl

end

/-- Settles O14, by the body of a message, then by the range and the sequence number of a push. -/
theorem pointMessages : Obligations.point_messages := by
  intro s
  refine ⟨fun src b u hu h c hc => ?_, fun src b u hu h hbad c hc => ?_, fun src b u hu h hver hzero hmax hlen c hc => ?_,
    fun src pinc it => State.pushIn1_noRange, fun src pinc it e slot d h hslot hd => ?_, fun n h => ?_, fun n idx h hidx => ?_⟩
  · rw [exec_pointMsg hc, State.pointMsg_unserved hu h]
  · rw [exec_pointMsg hc, State.pointMsg_bad hu h hbad]
  · have hkind : ∀ {k : Nat}, 1 ≤ k → k ≤ 5 → numAt b 0 1 = k → _ := fun h1 h5 hk =>
      (exec_pointMsg hc).trans (congrArg Host.Outcome.next
        (State.pointMsg_good hu h (not_badPointMsg hk h1 h5 hver hzero hmax hlen)))
    refine ⟨fun hk => ?_, fun hk => ?_, fun hk => ?_, fun hk => ?_, fun hk => ?_⟩
    all_goals
      rw [hkind (by decide) (by decide) hk, hk]
      rfl
  · exact ⟨State.pushIn1_old h hslot hd, fun hnew u v st ty hu hrep hst hty hv => State.pushIn1_taken h hslot hd hnew hu hrep hst hty hv⟩
  · exact congrArg Host.Outcome.next (if_neg (by simp [h]))
  · exact congrArg Host.Outcome.next ((if_pos h).trans (State.pushPending_eq hidx))
end Sys2Proof.Machine

/-!
Range, lease and push timers (Tables 4-5, 4-6, R129 to R131).
-/

namespace Sys2Proof.Machine

section
variable {s u : State} {r e : Nat}

theorem State.staleTimer_live (hs : s.hopServes = true) (h : (s.range r).state = rngLive) (hu : u = s.advance (s.range r).staleAt) :
    s.staleTimer r = (((u.setRange r { u.range r with state := rngStale }).raise R.HOP_INTSTAT.RNGSTALE).event 0x0401
      (subj := (u.range r).name)).sendSub r true := by
  subst hu
  exact if_pos (by simp [hs, h])

theorem State.renewTimer_live (hs : s.hopServes = true) (h : (s.range r).state = rngLive) :
    s.renewTimer r = (s.advance ((s.range r).lastSub + 20 * sec)).sendSub r false := if_pos (by simp [hs, h])

/-- The stale and the renewal timer are those of a LIVE range of a module that serves replicas. -/
theorem State.liveTimers_other (h : s.hopServes = false ∨ (s.range r).state ≠ rngLive) : s.staleTimer r = s ∧ s.renewTimer r = s := by
  have hno : ¬(s.hopServes && (s.range r).state == rngLive) = true := by
    rcases h with h | h <;> simp [h]
  exact ⟨if_neg hno, if_neg hno⟩

theorem State.retryTimer_waits (hs : s.hopServes = true) (h : (s.range r).state = rngSub ∨ (s.range r).state = rngStale) :
    s.retryTimer r = (s.advance ((s.range r).lastSub + s.tRetry)).sendSub r true := if_pos (by simpa [hs] using h)

theorem State.retryTimer_other (h : s.hopServes = false ∨ (s.range r).state ≠ rngSub ∧ (s.range r).state ≠ rngStale) :
    s.retryTimer r = s := by
  refine if_neg ?_
  rcases h with h | ⟨hsub, hstale⟩
  · simp [h]
  · simp [hsub, hstale]

theorem State.leaseOut_valid (h : (s.outEntry e).valid = true) : s.leaseOut e =
    (((s.advance (s.outEntry e).leaseEnd).changeOut e {}).raise R.HOP_INTSTAT.SUBEXP).event 0x0405
      (subj := (s.outEntry e).node * 2 ^ 20 + (s.outEntry e).first) := if_pos h

theorem State.fullPush_valid (h : (s.outEntry e).valid = true) (hs : s.hopServes = true)
    (hu : u = (s.advance (s.outEntry e).nextPush).pushRange (s.outEntry e)) :
    s.fullPush e = u.setOutEntry e { s.outEntry e with nextPush := u.now + 10 * ms * (s.outEntry e).maxper } := by
  subst hu
  exact if_pos (by simp [h, hs])

theorem State.fullPush_other (h : (s.outEntry e).valid = false ∨ s.hopServes = false) : s.fullPush e = s := by
  refine if_neg ?_
  rcases h with h | h <;> simp [h]

end

/-- Settles O15, timer by timer. -/
theorem rangeTimers : Obligations.range_timers := by
  intro s
  refine ⟨fun r u hr hs h hu => onUnit_lt_eq hr (State.staleTimer_live hs h hu), fun r hr h => ?_,
    fun r hr hs h => onUnit_lt_eq hr (State.retryTimer_waits hs h), fun r hr h => onUnit_lt_eq hr (State.retryTimer_other h),
    fun e he hs => onUnit_lt_eq he (State.fullPush_other (.inr hs)), fun r hr hs h => onUnit_lt_eq hr (State.renewTimer_live hs h),
    fun e he h => onUnit_lt_eq he (State.leaseOut_valid h),
    fun e he h => ⟨onUnit_lt_eq he (if_neg (by simp [h])), onUnit_lt_eq he (State.fullPush_other (.inl h))⟩,
    fun e u he h hs hu => onUnit_lt_eq he (State.fullPush_valid h hs hu)⟩
  obtain ⟨hstale, hrenew⟩ := State.liveTimers_other h
  exact ⟨onUnit_lt_eq hr hstale, onUnit_lt_eq hr hrenew⟩
end Sys2Proof.Machine

/-!
The replica store (R140 to R156): initialisation, pins, lookups, page transfers, refetches, the tag store.
-/

namespace Sys2Proof.Machine

section
variable {s u : State} {bank p page slot : Nat}

/-! Initialisation and pins (R140 to R142). -/

theorem State.hopInit_runs {v : State} (hinit : s.on R.HOP_STAT.INIT = true) (hrun : s.running .hop = true)
    (hu : u = s.each s.inEntries fun s e =>
      s.each (List.range (s.range e).count) fun t k => t.write mHopper (t.storeAddr ((s.range e).slot + k)) blankReplica)
    (hv : v = (u.clear R.HOP_STAT.INIT).raise R.HOP_INTSTAT.INITDONE) :
    s.hopInit = (v.each v.inEntries fun s e => (s.setRange e { s.range e with state := rngSub }).sendSub e true).refetchAgain := by
  subst hv hu
  exact if_pos ⟨hinit, hrun⟩

theorem State.hopInit_other (h : s.on R.HOP_STAT.INIT = false ∨ s.running .hop = false) : s.hopInit = s := by
  refine if_neg fun ⟨hinit, hrun⟩ => ?_
  simp [hinit, hrun] at h

/-- A GO of the pin engine while a scan runs is ignored. -/
theorem State.pins_busy (h : s.hop.scan.isSome = true) : s.pinScan bank = s ∧ s.unpin bank = s := ⟨if_pos h, if_pos h⟩

theorem State.pinScan_idle (h : s.hop.scan = none) (hu : u = (s.wr R.HOP_PIN_CMD.OP 1).wr R.HOP_PIN_CMD.BANK bank) :
    s.pinScan bank = if u.hopServes then State.raise { u with hop := { u.hop with scan := some bank } } R.HOP_PIN_CMD.GO
      else (u.wr R.HOP_PIN_STAT.RESULT 2).raise R.HOP_INTSTAT.PINDONE := by
  subst hu
  exact if_neg (by simp [h])

theorem State.unpin_idle (h : s.hop.scan = none) (hu : u = (s.wr R.HOP_PIN_CMD.OP 2).wr R.HOP_PIN_CMD.BANK bank) :
    s.unpin bank = ((((u.each (u.hop.frames.map (·.1)) fun v f =>
      v.setFrame f { v.frame f with pins := (v.frame f).pins &&& ~~~(if bank = 0 then 1#2 else 2#2) }).wr
        R.HOP_PIN_STAT.RESULT 0).raise R.HOP_INTSTAT.PINDONE).syncCache) := by
  subst hu
  exact if_neg (by simp [h])

theorem exec_pinscanComplete_done (h : s.hop.scan = some bank) (hrun : s.running .hop = true) :
    exec .pinscanComplete s = .next (s.scanDone bank) := by
  change execPinscanComplete s = _
  simp only [execPinscanComplete, h, hrun, if_true]

theorem exec_pinscanComplete_other (h : s.hop.scan = none ∨ s.running .hop = false) : exec .pinscanComplete s = .next s := by
  change execPinscanComplete s = _
  unfold execPinscanComplete
  cases hscan : s.hop.scan with
  | none => rfl
  | some b => exact congrArg Host.Outcome.next (if_neg (by simpa [hscan] using h))

/-! Lookup ports (R156). -/

/-- A GO to a busy port is ignored (R13). -/
theorem State.port_busy (h : s.on (R.HOP_LK_CMD.GO p) = true) : s.portRead p = s ∧ s.portTouch p = s := ⟨if_pos h, if_pos h⟩

theorem State.portRead_idle (h : s.on (R.HOP_LK_CMD.GO p) = false) : s.portRead p =
    ((s.wr (R.HOP_LK_CMD.OP p) 1).lookup (p + 1) (s.rd (R.HOP_LK_ID.ID p))).2.showLookup p
      ((s.wr (R.HOP_LK_CMD.OP p) 1).lookup (p + 1) (s.rd (R.HOP_LK_ID.ID p))).1 false := if_neg (by simp [h])

/-- The answer of a port: its RESULT, and no miss. -/
def State.portDone (s : State) (p r : Nat) : State := (s.wr (R.HOP_LK_STAT.RESULT p) r).clear (R.HOP_LK_STAT.MISS p)

theorem State.portTouch_idle (h : s.on (R.HOP_LK_CMD.GO p) = false) (hu : u = s.wr (R.HOP_LK_CMD.OP p) 2) : s.portTouch p =
    if !u.running .hop then u.portDone p lkNotrun
    else match u.resolve (u.rd (R.HOP_LK_ID.ID p)) with
      | .own i => ((u.markPending i).wr (R.HOP_LK_SLOT.SLOT p) i).portDone p lkOk
      | .replica _ _ => u.portDone p lkNotown
      | .nothing => u.portDone p lkAbsent := by
  subst hu
  exact if_neg (by simp [h])

theorem State.portTouch_running (h : s.on (R.HOP_LK_CMD.GO p) = false) (hu : u = s.wr (R.HOP_LK_CMD.OP p) 2)
    (hrun : u.running .hop = true) : s.portTouch p = match u.resolve (u.rd (R.HOP_LK_ID.ID p)) with
      | .own i => ((u.markPending i).wr (R.HOP_LK_SLOT.SLOT p) i).portDone p lkOk
      | .replica _ _ => u.portDone p lkNotown
      | .nothing => u.portDone p lkAbsent := (State.portTouch_idle h hu).trans (if_neg (by simp [hrun]))

/-! Page transfers and refetches (R144, R150). -/

theorem State.pageIn_frame {f : Nat} (h : s.pageFrame page = some f) : s.pageIn page =
    ((s.endPage f page).answerMisses page).2.gateResume (some ((s.endPage f page).answerMisses page).1) := by
  simp only [State.pageIn, h]
  rfl

theorem State.pageIn_none (h : s.pageFrame page = none) : s.pageIn page = s := by simp only [State.pageIn, h]

theorem State.refetchOut_found {x : HopRefetch} (h : s.hop.refetch.find? (·.slot == slot) = some x) (hs : s.hopServes = true)
    (hu : u = s.advance (x.sentAt + 100 * ms)) : s.refetchOut slot =
      if x.tries < 3 then State.sendFetch { u with hop := { u.hop with refetch := u.hop.refetch.map fun y =>
        if y.slot == slot then { y with tries := y.tries + 1, sentAt := u.now } else y } } slot
      else ((State.bump { u with hop := { u.hop with refetch := u.hop.refetch.filter (·.slot != slot) } } R.HOP_CNT_REFAIL.COUNT).raise
        R.HOP_INTSTAT.REFAIL).event 0x0404 (unit := slot / 128) (subj := slot) := by
  subst hu
  simp only [State.refetchOut, h]
  exact if_neg (by simp [hs])

theorem State.refetchOut_unserved (hs : s.hopServes = false) : s.refetchOut slot = s := by
  unfold State.refetchOut
  split
  · rfl
  · exact if_pos (by simp [hs])

theorem State.refetchOut_none (h : s.hop.refetch.find? (·.slot == slot) = none) : s.refetchOut slot = s := by
  simp only [State.refetchOut, h]

/-! The tag store (R154). -/

/-- The tables as a write of HOP_TDATA leaves them, by the word's byte address. -/
def State.tagStored (s : State) (w : Nat) (v : Word) : State :=
  if 0x2000 ≤ 4 * w ∧ 4 * w < 0x6000 then
    let tab := SMap.set (fun _ => (0 : BitVec 32)) s.hop.nodeTab ((4 * w - 0x2000) / 4) (v &&& 0x0FFFFFFF)
    { s with hop := { s.hop with nodeTab := tab } }
  else if 0x6000 ≤ 4 * w ∧ 4 * w < 0x26000 then
    s.setRange ((4 * w - 0x6000) / 16) ((s.range ((4 * w - 0x6000) / 16)).putWord (w % 4) v.toNat)
  else s

/-- The tables may be written: OFF, or a handover's commit phase. -/
def State.tagOpen (s : State) : Bool := s.rd UnitId.hop.STATE == stOff || s.rd R.UPD_PHASE.PHASE == 5

theorem State.tagWrite_eq (v : Word) : s.tagWrite v =
    (if s.tagOpen then s.tagStored (s.rd R.HOP_TADDR.WADDR) v else s).wr R.HOP_TADDR.WADDR (s.rd R.HOP_TADDR.WADDR + 1) := by
  have hdef : s.tagWrite v = (if !s.tagOpen then s else s.tagStored (s.rd R.HOP_TADDR.WADDR) v).wr R.HOP_TADDR.WADDR
      (s.rd R.HOP_TADDR.WADDR + 1) := rfl
  rw [hdef]
  cases s.tagOpen <;> rfl

theorem State.tagStored_frame (w : Nat) (v : Word) : (s.tagStored w v).regs = s.regs ∧ (s.tagStored w v).mem = s.mem := by
  unfold State.tagStored
  exact ite_keep (P := fun t : State => t.regs = s.regs ∧ t.mem = s.mem) ⟨rfl, rfl⟩
    (ite_keep (P := fun t : State => t.regs = s.regs ∧ t.mem = s.mem) ⟨rfl, rfl⟩ ⟨rfl, rfl⟩)

/-- Whatever is stored, the address advances and nothing else of the registers and no memory changes. -/
theorem State.tagWrite_frame (v : Word) : (s.tagWrite v).rd R.HOP_TADDR.WADDR = (s.rd R.HOP_TADDR.WADDR + 1) % 2 ^ R.HOP_TADDR.WADDR.w ∧
    (s.tagWrite v).mem = s.mem ∧ ∀ a, a ≠ R.HOP_TADDR.addr → (s.tagWrite v).reg a = s.reg a := by
  obtain ⟨hregs, hmem⟩ := State.tagStored_frame (s := s) (s.rd R.HOP_TADDR.WADDR) v
  rw [State.tagWrite_eq]
  refine ⟨State.rd_wr_same (by decide), ?_, fun a ha => (State.reg_wr_ne ha).trans ?_⟩
  · exact ite_keep (P := fun t : State => t.mem = s.mem) hmem rfl
  · exact ite_keep (P := fun t : State => t.reg a = s.reg a) (by unfold State.reg; rw [hregs]) rfl

theorem State.tagOpen_iff : s.tagOpen = true ↔ s.rd UnitId.hop.STATE = stOff ∨ s.rd R.UPD_PHASE.PHASE = 5 := by
  simp [State.tagOpen]

theorem State.tagWrite_hop_closed {v : Word} (h : s.tagOpen = false) : (s.tagWrite v).hop = s.hop := by
  rw [State.tagWrite_eq, h]
  rfl

theorem State.tagWrite_hop_open {v : Word} (h : s.tagOpen = true) :
    (s.tagWrite v).hop = (s.tagStored (s.rd R.HOP_TADDR.WADDR) v).hop := by
  rw [State.tagWrite_eq, h]
  rfl

end

/-- Settles O16. -/
theorem replicaStore : Obligations.replica_store := by
  intro s
  refine ⟨fun u v hinit hrun hu hv => congrArg Host.Outcome.next (State.hopInit_runs hinit hrun hu hv),
    fun h => congrArg Host.Outcome.next (State.hopInit_other h), fun b hb h => ?_, fun b u hb h hu hs => ?_, fun b u hb h hu hs => ?_,
    exec_pinscanComplete_other, fun b => exec_pinscanComplete_done, fun b u hb h hu => onUnit_lt_eq hb (State.unpin_idle h hu),
    fun p hp h => ?_, fun p hp h => onUnit_lt_eq hp (State.portRead_idle h), fun p u hp h hu hno => ?_,
    fun p i u hp h hu hrun hres => ?_, fun p i slot u hp h hu hrun => ?_, fun page f hpage h => onUnit_lt_eq hpage (State.pageIn_frame h),
    fun page hpage h => onUnit_lt_eq hpage (State.pageIn_none h), fun k x u hk h htries hs hu => ?_, fun k x u hk h htries hs hu => ?_,
    fun k hk hs => onUnit_lt_eq hk (State.refetchOut_unserved hs), fun k hk h => onUnit_lt_eq hk (State.refetchOut_none h), fun v => ?_⟩
  · obtain ⟨hscan, hunpin⟩ := State.pins_busy (bank := b) h
    exact ⟨onUnit_lt_eq hb hscan, onUnit_lt_eq hb hunpin⟩
  · exact onUnit_lt_eq hb ((State.pinScan_idle h hu).trans (if_pos hs))
  · refine ⟨_, onUnit_lt_eq hb ((State.pinScan_idle h hu).trans (if_neg (by simp [hs]))), rfl, ?_, State.rd_wr_same (by decide)⟩
    exact (State.rd_wr_ne (by decide)).trans (State.rd_wr_same (by decide))
  · obtain ⟨hread, htouch⟩ := State.port_busy h
    exact ⟨onUnit_lt_eq hp hread, onUnit_lt_eq hp htouch⟩
  · exact onUnit_lt_eq hp ((State.portTouch_idle h hu).trans (if_pos (by simp [hno])))
  · have htouch := State.portTouch_running h hu hrun
    rw [hres] at htouch
    exact onUnit_lt_eq hp htouch
  · have htouch := State.portTouch_running h hu hrun
    refine ⟨fun hres => ?_, fun hres => ?_⟩ <;> rw [hres] at htouch <;> exact onUnit_lt_eq hp htouch
  · exact onUnit_lt_eq hk ((State.refetchOut_found h hs hu).trans (if_pos htries))
  · exact onUnit_lt_eq hk ((State.refetchOut_found h hs hu).trans (if_neg (Nat.not_lt.mpr htries)))
  · obtain ⟨haddr, hmem, hreg⟩ := State.tagWrite_frame (s := s) v
    refine ⟨_, rfl, haddr, hmem, hreg, fun hoff hphase => ?_, fun hopen hlo hhi => ?_, ?_⟩
    · refine State.tagWrite_hop_closed ?_
      rw [← Bool.not_eq_true, State.tagOpen_iff]
      exact fun h => h.elim hoff hphase
    · have hstore : s.tagStored (s.rd R.HOP_TADDR.WADDR) v = _ := if_pos ⟨hlo, hhi⟩
      rw [State.tagWrite_hop_open (State.tagOpen_iff.mpr hopen), hstore]
      exact SMap.get_set_self
    · rintro _ hopen hlo hhi rfl
      have hnot : ¬(0x2000 ≤ 4 * s.rd R.HOP_TADDR.WADDR ∧ 4 * s.rd R.HOP_TADDR.WADDR < 0x6000) := by omega
      have hstore : s.tagStored (s.rd R.HOP_TADDR.WADDR) v = _ := (if_neg hnot).trans (if_pos ⟨hlo, hhi⟩)
      unfold State.range
      rw [State.tagWrite_hop_open (State.tagOpen_iff.mpr hopen), hstore]
      exact SMap.get_set_self
end Sys2Proof.Machine

/-!
Frames, datagrams, solicitations and echoes at a fabric port (R160 to R175, R181, R204, R497).
-/

namespace Sys2Proof.Machine

section
variable {s u v : State} {p q : Nat} {f : RxFrame} {a : FabSa} {d : Datagram} {x : BitVec 128}

theorem exec_frameForward_port (hp : p < 4) {t : State} (h : s.frameIn p f = t) : exec (.frameForward p f) s = .next t :=
  onUnit_lt_eq (by omega) ((if_neg (by omega)).trans h)

/-! A frame at a fabric port (R166). -/

theorem State.frameIn_off (h : s.takesFrames p = false) : s.frameIn p f = s := if_pos (by simp [h])

section
variable (hon : s.takesFrames p = true)
  (hu : u = (s.setPort p { s.port p with trafficAt := some s.now }).bump (R.FAB_P_CNT_RXFRM.COUNT p))
include hon hu

theorem State.frameIn_foreign (hda : f.daOk = false) : s.frameIn p f = u.bump (R.FAB_P_CNT_MISC.COUNT p) := by
  subst hu
  exact (if_neg (by simp [hon])).trans (if_pos (by simp [hda]))

theorem State.frameIn_wrongProtection (hda : f.daOk = true) (hsec : f.secured = (f.leat.typ == tyKeyx)) :
    s.frameIn p f = u.bump (R.FAB_P_CNT_MISC.COUNT p) := by
  subst hu
  exact (if_neg (by simp [hon])).trans ((if_neg (by simp [hda])).trans (if_pos (by simp [hsec])))

theorem State.frameIn_keyx (hda : f.daOk = true) (hsec : f.secured = false) (hty : f.leat.typ = tyKeyx) : s.frameIn p f = u := by
  subst hu
  exact (if_neg (by simp [hon])).trans ((if_neg (by simp [hda])).trans ((if_neg (by simp [hsec, hty])).trans (if_pos (by simp [hsec]))))

/-- A secured frame is judged by the SA of its AN. -/
theorem State.frameIn_secured (hda : f.daOk = true) (hsec : f.secured = true) (hty : f.leat.typ ≠ tyKeyx) : s.frameIn p f =
    match (u.port p).rx.find? fun a => a.an == f.an with
    | none => u.bump (R.FAB_P_CNT_ICVFAIL.COUNT p)
    | some a => if f.pn + u.rd R.FAB_SEC.RPW ≤ a.highPn then u.bump (R.FAB_P_CNT_REPLAY.COUNT p) else u.frameGo p f := by
  subst hu
  exact (if_neg (by simp [hon])).trans ((if_neg (by simp [hda])).trans ((if_neg (by simp [hsec, hty])).trans (if_neg (by simp [hsec]))))

end

/-! A frame that passed protection's header checks (R162, R169, R171, R181). -/

section
variable (hu : u = (if f.icvOk = true ∧ f.fcsOk = true then s.setPort p { s.port p with rx := (s.port p).rx.map fun a =>
    if a.an = f.an then { a with highPn := max a.highPn f.pn } else a } else s))
include hu

/-- The frame's way, from the state in which a good frame has moved its SA's replay window. -/
theorem State.frameGo_eq : s.frameGo p f =
    if f.leat.ver ≠ 1 then u.bump (R.FAB_P_CNT_MISC.COUNT p)
    else if s.rd R.FAB_NODE.ACT = 0 ∧ !linkType f.leat.typ then u
    else if f.leat.dst != 4095 && f.leat.dst != 0 && s.routePort f.leat.dst < 4 && f.leat.ttl != 0 && f.leat.typ != tyQuench
        && !linkType f.leat.typ && s.cutThrough p (s.routePort f.leat.dst) f.leat then
      match u.ctlPolice p (s.routePort f.leat.dst) f.leat with
      | none => u.bump (R.FAB_P_CNT_CTLPOL.COUNT p)
      | some v => if f.icvOk && f.fcsOk then v.putOnWire (s.routePort f.leat.dst) { f.leat with ttl := f.leat.ttl - 1 }
          else v.icvCut p (s.routePort f.leat.dst) f
    else if f.icvOk && f.fcsOk then u.switch p f.leat else u.badEnd p f := by
  subst hu
  simp only [State.frameGo, Bool.and_eq_true] <;> rfl

theorem State.frameGo_version (hver : f.leat.ver ≠ 1) : s.frameGo p f = u.bump (R.FAB_P_CNT_MISC.COUNT p) :=
  (State.frameGo_eq hu).trans (if_pos hver)

theorem State.frameGo_noNode (hver : f.leat.ver = 1) (hact : s.rd R.FAB_NODE.ACT = 0) (hlink : linkType f.leat.typ = false) :
    s.frameGo p f = u := (State.frameGo_eq hu).trans ((if_neg (by simp [hver])).trans (if_pos (by simp [hact, hlink])))

section
variable (hver : f.leat.ver = 1) (hact : s.rd R.FAB_NODE.ACT ≠ 0 ∨ linkType f.leat.typ = true)
include hver hact

theorem State.frameGo_whole (hq : q = s.routePort f.leat.dst)
    (h : f.leat.dst = 4095 ∨ f.leat.dst = 0 ∨ 4 ≤ q ∨ f.leat.ttl = 0 ∨ f.leat.typ = tyQuench ∨ linkType f.leat.typ = true ∨
      s.cutThrough p q f.leat = false) :
    s.frameGo p f = if f.icvOk && f.fcsOk then u.switch p f.leat else u.badEnd p f := by
  subst hq
  have hgo : ¬(s.rd R.FAB_NODE.ACT = 0 ∧ (!linkType f.leat.typ) = true) := by
    rcases hact with hact | hact <;> simp [hact]
  refine (State.frameGo_eq hu).trans ((if_neg (by simp [hver])).trans ((if_neg hgo).trans (if_neg ?_)))
  rcases h with h | h | h | h | h | h | h <;> simp [h]

theorem State.frameGo_cut (hq : q = s.routePort f.leat.dst) (hall : f.leat.dst ≠ 4095) (hdst : f.leat.dst ≠ 0) (hq4 : q < 4)
    (httl : f.leat.ttl ≠ 0) (hqu : f.leat.typ ≠ tyQuench) (hlink : linkType f.leat.typ = false) (hcut : s.cutThrough p q f.leat = true) :
    s.frameGo p f = match u.ctlPolice p q f.leat with
      | none => u.bump (R.FAB_P_CNT_CTLPOL.COUNT p)
      | some v => if f.icvOk && f.fcsOk then v.putOnWire q { f.leat with ttl := f.leat.ttl - 1 } else v.icvCut p q f := by
  subst hq
  have hact : s.rd R.FAB_NODE.ACT ≠ 0 := hact.resolve_right (by simp [hlink])
  exact (State.frameGo_eq hu).trans ((if_neg (by simp [hver])).trans ((if_neg (by simp [hact])).trans
    (if_pos (by simp [hall, hdst, hq4, httl, hqu, hlink, hcut]))))

end
end

/-! The internal port and the tunnel ports (R160, R173 to R175, R497). -/

theorem State.frameFromInside_sent (hc : s.canSend = true) (hty : f.leat.typ ≠ tyQuench) (hlen : f.leat.payload.length ≤ maxSend) :
    s.frameFromInside f = ((s.tookSeq f.leat).txIn f.leat f.poisonAt).2 := if_pos (by simp [hc, hty, hlen])

theorem State.frameFromInside_refused (h : s.canSend = false ∨ f.leat.typ = tyQuench ∨ maxSend < f.leat.payload.length) :
    s.frameFromInside f = s := by
  refine if_neg ?_
  rcases h with h | h | h
  · simp [h]
  · simp [h]
  · simp [Nat.not_le.2 h]

theorem State.datagramIn_closed (h : s.udp p = false ∨ s.portLive p = false) : s.datagramIn p d = s :=
  if_pos (by simpa using h)

theorem State.datagramIn_foreign (hudp : s.udp p = true) (hlive : s.portLive p = true)
    (h : d.srcAddr ≠ s.ip6 (R.FAB_P_PEER.addr p 0) ∨ d.srcPort ≠ s.rd (R.FAB_P_UDP.PORT p) ∨ d.dstPort ≠ s.rd (R.FAB_P_UDP.PORT p) ∨
      d.extHeader = true ∨ d.sumOk = false) : s.datagramIn p d = s.bump (R.FAB_P_CNT_MISC.COUNT p) :=
  (if_neg (by simp [hudp, hlive])).trans (if_pos (by simpa [or_assoc] using h))

theorem State.datagramIn_peer (hudp : s.udp p = true) (hlive : s.portLive p = true) (haddr : d.srcAddr = s.ip6 (R.FAB_P_PEER.addr p 0))
    (hsrc : d.srcPort = s.rd (R.FAB_P_UDP.PORT p)) (hdst : d.dstPort = s.rd (R.FAB_P_UDP.PORT p)) (hext : d.extHeader = false)
    (hsum : d.sumOk = true) : s.datagramIn p d = s.frameIn p { d.frame with fcsOk := true } :=
  (if_neg (by simp [hudp, hlive])).trans (if_neg (by simp [haddr, hsrc, hdst, hext, hsum]))

/-- A solicitation's target is this module's: the recovery address at port 0 in recovery mode, else a tunnel port's own address. -/
theorem State.solicit_eq : s.solicit p x =
    if (if s.upd.recovery.isSome = true then p = 0 ∧ x = s.recoveryIp
      else s.udp p = true ∧ s.portOn p = true ∧ x = s.ip6 (R.FAB_P_IP.addr p 0)) then
      { s with fab := { s.fab with ndAnswers := SMap.set (fun _ => 0) s.fab.ndAnswers p (SMap.get (fun _ => 0) s.fab.ndAnswers p + 1) } }
    else s := by
  unfold State.solicit
  by_cases h : s.upd.recovery.isSome = true <;> simp [h, and_assoc]

theorem State.solicit_answered (h : if s.upd.recovery.isSome = true then p = 0 ∧ x = s.recoveryIp
      else s.udp p = true ∧ s.portOn p = true ∧ x = s.ip6 (R.FAB_P_IP.addr p 0)) :
    (s.solicit p x).regs = s.regs ∧ (s.solicit p x).mem = s.mem ∧
      SMap.get (fun _ => 0) (s.solicit p x).fab.ndAnswers p = SMap.get (fun _ => 0) s.fab.ndAnswers p + 1 := by
  rw [State.solicit_eq, if_pos h]
  exact ⟨rfl, rfl, by simp [SMap.get_set_self]⟩

theorem State.echo_answered (hrec : s.upd.recovery = none) (hudp : s.udp p = true) (hon : s.portOn p = true)
    (hx : x = s.ip6 (R.FAB_P_IP.addr p 0)) : (s.echo p x).regs = s.regs ∧ (s.echo p x).mem = s.mem ∧
      SMap.get (fun _ => 0) (s.echo p x).fab.echoAnswers p = SMap.get (fun _ => 0) s.fab.echoAnswers p + 1 := by
  have hgo : (s.upd.recovery.isNone && s.udp p && s.portOn p && x == s.ip6 (R.FAB_P_IP.addr p 0)) = true := by
    simp [hrec, hudp, hon, hx]
  rw [State.echo, if_pos hgo]
  exact ⟨rfl, rfl, by simp [SMap.get_set_self]⟩

theorem State.echo_ignored (h : s.upd.recovery ≠ none ∨ s.udp p = false ∨ s.portOn p = false ∨ x ≠ s.ip6 (R.FAB_P_IP.addr p 0)) :
    s.echo p x = s := by
  refine if_neg ?_
  rcases h with h | h | h | h
  · simp [Option.isNone_iff_eq_none, h]
  · simp [h]
  · simp [h]
  · simp [h]

end

/-- Settles O17, step by step along R166's checks. -/
theorem framesForwarded : Obligations.frames_forwarded := by
  intro s
  refine ⟨fun p f hp h => exec_frameForward_port hp (State.frameIn_off h), fun p f u hp hon hu => ⟨fun hda => ?_, fun hda hsec => ?_,
      fun hda hsec hty => ?_⟩, fun p f u hp hon hu hda hsec hty hsa => exec_frameForward_port hp ?_,
    fun p f a u hp hon hu hda hsec hty hsa => ⟨fun hpn => exec_frameForward_port hp ?_, fun hpn => exec_frameForward_port hp ?_⟩,
    fun p q f u hq hu => ⟨State.frameGo_version hu, State.frameGo_noNode hu, fun hver hact hwhole => ⟨fun hicv hfcs => ?_, fun hbad => ?_⟩,
      fun hver hact hall hdst hq4 httl hqu hlink hcut => ?_⟩,
    fun f hc hty hlen => congrArg Host.Outcome.next (State.frameFromInside_sent hc hty hlen),
    fun f h => congrArg Host.Outcome.next (State.frameFromInside_refused h),
    fun p d hp h => onUnit_lt_eq hp (State.datagramIn_closed h),
    fun p d hp hudp hlive h => onUnit_lt_eq hp (State.datagramIn_foreign hudp hlive h),
    fun p d hp hudp hlive haddr hsrc hdst hext hsum => onUnit_lt_eq hp (State.datagramIn_peer hudp hlive haddr hsrc hdst hext hsum),
    fun p x hp h => ⟨_, onUnit_lt hp _, State.solicit_answered h⟩, fun p x hp h => onUnit_lt_eq hp (State.solicit_eq.trans (if_neg h)),
    fun p x hp hrec hudp hon hx => ⟨_, onUnit_lt hp _, State.echo_answered hrec hudp hon hx⟩,
    fun p x hp h => onUnit_lt_eq hp (State.echo_ignored h)⟩
  · exact exec_frameForward_port hp (State.frameIn_foreign hon hu hda)
  · exact exec_frameForward_port hp (State.frameIn_wrongProtection hon hu hda hsec)
  · exact exec_frameForward_port hp (State.frameIn_keyx hon hu hda hsec hty)
  · rw [State.frameIn_secured hon hu hda hsec hty, hsa]
  · rw [State.frameIn_secured hon hu hda hsec hty, hsa]
    exact if_pos hpn
  · rw [State.frameIn_secured hon hu hda hsec hty, hsa]
    exact if_neg (by omega)
  · exact (State.frameGo_whole hu hver hact hq hwhole).trans (if_pos (by simp [hicv, hfcs]))
  · exact (State.frameGo_whole hu hver hact hq hwhole).trans (if_neg (by simpa [← Bool.not_eq_true, imp_iff_not_or] using hbad))
  · rw [State.frameGo_cut hu hver (.inl hact) hq hall hdst hq4 httl hqu hlink hcut]
    refine ⟨fun hpol => by rw [hpol], fun v hpol => ⟨fun hicv hfcs => ?_, fun hbad => ?_⟩⟩ <;> rw [hpol]
    · exact if_pos (by simp [hicv, hfcs])
    · exact if_neg (by simpa [← Bool.not_eq_true, imp_iff_not_or] using hbad)
end Sys2Proof.Machine

/-!
Links, the key exchange and keys (Table 5-9, R157, R164, R165, R177).
-/

namespace Sys2Proof.Machine

section
variable {s u v : State} {p an i sp : Nat} {k : Keyx}

/-! Links (R157, R177). -/

theorem exec_linkUp_port (hp : p < 4) {t : State} (h : s.linkUp p sp = t) : exec (.linkUp p sp) s = .next t :=
  onUnit_lt_eq (by omega) ((if_neg (by omega)).trans h)

theorem exec_linkDown_port (hp : p < 4) {t : State} (h : s.linkDown p = t) : exec (.linkDown p) s = .next t :=
  onUnit_lt_eq (by omega) ((if_neg (by omega)).trans h)

theorem State.linkUp_up (hrun : s.running (portUnit p) = true) (hsp : s.speedOk p sp = true)
    (hu : u = (s.raise (R.FAB_P_STAT.LINK p)).wr (R.FAB_P_STAT.SPEED p) sp) :
    s.linkUp p sp = if u.rd (fADJ p) = adjDown ∧ u.running .fab then u.keying p else u := by
  subst hu
  exact if_pos ⟨hrun, hsp⟩

theorem State.linkUp_other (h : s.running (portUnit p) = false ∨ s.speedOk p sp = false) : s.linkUp p sp = s := by
  refine if_neg ?_
  rcases h with h | h <;> simp [h]

/-! The key exchange (R164, R165). -/

theorem State.keyxOffer_closed (h : s.keyxOpen p = false ∨ s.fabKeyOk = false) : s.keyxOffer p k = s := if_pos (by simpa using h)

theorem State.keyxAnswer_closed (h : s.keyxOpen p = false ∨ s.fabKeyOk = false) : s.keyxAnswer p k = s := if_pos (by simpa using h)

section
variable (hopen : s.keyxOpen p = true) (hkey : s.fabKeyOk = true)
include hopen hkey

theorem State.keyxOffer_badTag (htag : k.tagOk = false) : s.keyxOffer p k = s.keyFail p :=
  (if_neg (by simp [hopen, hkey])).trans (if_pos (by simp [htag]))

theorem State.keyxAnswer_badTag (htag : k.tagOk = false) : s.keyxAnswer p k = s.keyFail p :=
  (if_neg (by simp [hopen, hkey])).trans (if_pos (by simp [htag]))

/-- An OFFER is answered, after this side's own rekey where its SA has another AN and no rekey runs. -/
theorem State.keyxOffer_answered (htag : k.tagOk = true)
    (hu : u = (s.learnPeer p k).setPort p { (s.learnPeer p k).port p with peerAn := k.an, offerSeen := true })
    (hv : v = if !(u.port p).rekeying && (match (u.port p).tx with | some a => a.an != k.an | none => false) then u.rekey p else u) :
    s.keyxOffer p k = v.sendKeyx p 2 (if v.ownMac < k.mac then (v.port p).offerAn else k.an) k.nonce := by
  subst hu hv
  exact (if_neg (by simp [hopen, hkey])).trans (if_neg (by simp [htag]))

theorem State.keyxAnswer_stale (htag : k.tagOk = true)
    (h : k.peerNonce ≠ (s.port p).nonce ∨ (s.rd (fADJ p) ≠ adjKeying ∧ (s.port p).rekeying = false)) : s.keyxAnswer p k = s :=
  (if_neg (by simp [hopen, hkey])).trans ((if_neg (by simp [htag])).trans (if_pos (by simpa using h)))

theorem State.keyxAnswer_taken (htag : k.tagOk = true) (hnonce : k.peerNonce = (s.port p).nonce)
    (hadj : s.rd (fADJ p) = adjKeying ∨ (s.port p).rekeying = true) (hu : u = s.learnPeer p k)
    (han : an = (if u.ownMac < k.mac then (s.port p).offerAn else if (s.port p).offerSeen then (s.port p).peerAn else k.an))
    (hv : v = u.setPort p { u.port p with
      tx := some { an := an, sak := u.sak k.mac (s.port p).nonce k.nonce an },
      rx := { an := an, sak := u.sak k.mac (s.port p).nonce k.nonce an } :: ((u.port p).rx.filter (·.an != an)).take 1,
      txPn := 0, saAt := u.now, oldSaAt := if (u.port p).rx.isEmpty then none else some (u.now + sec), rekeying := false }) :
    s.keyxAnswer p k = if v.rd (fADJ p) = adjKeying then (v.wr (fADJ p) adjHello).sendHello p else v := by
  subst hu han hv
  exact (if_neg (by simp [hopen, hkey])).trans ((if_neg (by simp [htag])).trans (if_neg (by simpa [hnonce, imp_iff_not_or] using hadj)))

end

/-! The exchange's timers (R164, R165, Table 5-9). -/

theorem State.offerTimer_due (hlive : s.portLive p = true) (hadj : s.rd (fADJ p) = adjKeying ∨ (s.port p).rekeying = true)
    (hu : u = s.advance ((s.port p).offerAt + 100 * ms)) :
    s.offerTimer p = (if (u.port p).nonceAt + sec ≤ u.now then u.newNonce p else u).offer p := by
  subst hu
  exact if_pos (by simpa [hlive] using hadj)

theorem State.offerTimer_other (h : s.portLive p = false ∨ s.rd (fADJ p) ≠ adjKeying ∧ (s.port p).rekeying = false) :
    s.offerTimer p = s := by
  refine if_neg ?_
  rcases h with h | ⟨hadj, hre⟩
  · simp [h]
  · simp [hadj, hre]

theorem State.keyingTimeout_due (hlive : s.portLive p = true) (hadj : s.rd (fADJ p) = adjKeying)
    (hu : u = s.advance ((s.port p).keyingSince + 10 * sec)) :
    s.keyingTimeout p = (u.setPort p { u.port p with keyingSince := u.now }).event 0x0502 (unit := p) := by
  subst hu
  exact if_pos (by simp [hlive, hadj])

theorem State.keyingTimeout_other (h : s.portLive p = false ∨ s.rd (fADJ p) ≠ adjKeying) : s.keyingTimeout p = s := by
  refine if_neg ?_
  rcases h with h | h <;> simp [h]

theorem State.rekeyTimer_due (htx : (s.port p).tx.isSome = true) (hre : (s.port p).rekeying = false) (hlive : s.portLive p = true)
    (hu : u = (if 0xC0000000 ≤ (s.port p).txPn then s else s.advance ((s.port p).saAt + 60 * sec * s.rd R.FAB_SEC.REKEY_MIN))) :
    s.rekeyTimer p = (u.setPort p { u.port p with offerSeen := false }).rekey p := by
  subst hu
  exact if_pos (by simp [htx, hre, hlive])

theorem State.rekeyTimer_other (h : (s.port p).tx = none ∨ (s.port p).rekeying = true ∨ s.portLive p = false) : s.rekeyTimer p = s := by
  refine if_neg ?_
  rcases h with h | h | h <;> simp [h]

theorem State.oldSaDelete_eq : s.oldSaDelete p = match (s.port p).oldSaAt with
    | some i => (s.advance i).setPort p { (s.advance i).port p with rx := ((s.advance i).port p).rx.take 1, oldSaAt := none }
    | none => s := rfl

end

/-- Settles O18, command by command along Table 5-9. -/
theorem linksAndKeys : Obligations.links_and_keys := by
  intro s
  refine ⟨fun p sp u hp hrun hsp hu => ⟨fun hadj hfab => ?_, fun h => ?_⟩, fun p sp hp h => exec_linkUp_port hp (State.linkUp_other h),
    fun _ => ⟨rfl, rfl⟩, fun p hp h => exec_linkDown_port hp (if_pos h), fun p hp h => exec_linkDown_port hp (if_neg (by simp [h])),
    fun p k hp h => ⟨onUnit_lt_eq hp (State.keyxOffer_closed h), onUnit_lt_eq hp (State.keyxAnswer_closed h)⟩,
    fun p k hp hopen hkey htag => ⟨onUnit_lt_eq hp (State.keyxOffer_badTag hopen hkey htag),
      onUnit_lt_eq hp (State.keyxAnswer_badTag hopen hkey htag)⟩,
    fun p k u v hp hopen hkey htag hu hstay hrekey => onUnit_lt_eq hp (State.keyxOffer_answered hopen hkey htag hu ?_),
    fun p k hp hopen hkey htag h => onUnit_lt_eq hp (State.keyxAnswer_stale hopen hkey htag h),
    fun p an k u v hp hopen hkey htag hnonce hadj hu han hv => ?_,
    fun p u hp hlive hadj hu => onUnit_lt_eq hp (State.offerTimer_due hlive hadj hu),
    fun p hp h => ⟨onUnit_lt_eq hp (State.offerTimer_other (.inl h)), onUnit_lt_eq hp (State.keyingTimeout_other (.inl h)),
      onUnit_lt_eq hp (State.rekeyTimer_other (.inr (.inr h)))⟩,
    fun p u hp hlive hadj hu => onUnit_lt_eq hp (State.keyingTimeout_due hlive hadj hu),
    fun p u hp htx hre hlive hu => onUnit_lt_eq hp (State.rekeyTimer_due htx hre hlive hu),
    fun p hp h => onUnit_lt_eq hp (State.rekeyTimer_other (h.imp_right .inl)),
    fun p hp h => ⟨onUnit_lt_eq hp (State.keyingTimeout_other (.inr h)), fun hre => onUnit_lt_eq hp (State.offerTimer_other (.inr ⟨h, hre⟩))⟩,
    fun p i u hp hold hu => onUnit_lt_eq hp ?_, fun p hp hold => onUnit_lt_eq hp ?_⟩
  · exact exec_linkUp_port hp ((State.linkUp_up hrun hsp hu).trans (if_pos ⟨hadj, hfab⟩))
  · exact exec_linkUp_port hp ((State.linkUp_up hrun hsp hu).trans (if_neg (by rcases h with h | h <;> simp [h])))
  · cases hre : (u.port p).rekeying with
    | true => simp [hstay (.inl hre)]
    | false =>
      cases htx : (u.port p).tx with
      | none => simp [hstay (.inr (by simp [htx]))]
      | some a =>
        by_cases han : a.an = k.an
        · simp [hstay (.inr (by simp [htx, han])), han]
        · simp [hrekey hre ⟨a, htx, han⟩, han]
  · have htaken := State.keyxAnswer_taken hopen hkey htag hnonce hadj hu han hv
    exact ⟨fun h => onUnit_lt_eq hp (htaken.trans (if_pos h)), fun h => onUnit_lt_eq hp (htaken.trans (if_neg h))⟩
  · rw [State.oldSaDelete_eq, hold, hu]
  · rw [State.oldSaDelete_eq, hold]
end Sys2Proof.Machine

/-!
HELLO and the adjacency, dead neighbours, node numbers (Table 5-9, R176 to R180).
-/

namespace Sys2Proof.Machine

section
variable {s u v x w : State} {p i : Nat} {h : Hello}

/-! HELLO and the adjacency (R176, R178, Table 5-9). -/

theorem State.helloTimer_due (hh : s.helloing p = true) :
    s.helloTimer p = (s.advance ((s.port p).helloAt + 100 * us * s.rd R.FAB_HELLO.INT)).sendHello p := if_pos hh

section
variable (hh : s.helloing p = true)
  (hu : u = s.setPort p { s.port p with
    deadAt := some (s.now + 100 * us * h.int * h.dead),
    deadVoid := (match (s.port p).deadAt with | some t => decide (t ≤ s.now + fabCycle) | none => false) })
  (hv : v = (u.setPort p { u.port p with peerMac := h.mac, peerNode := h.node }).wr (R.FAB_P_STAT.NBR p) h.node)
include hh hu hv

/-- A HELLO from another MAC or node takes an adjacency that is UP through KEYING; otherwise what it names and the adjacency
decide. -/
theorem State.hello_eq : s.hello p h =
    if u.rd (fADJ p) == adjUp && (h.mac != (u.port p).peerMac || h.node != (u.port p).peerNode) then
      ((u.leaveUp p adjKeying true).dropSa p).keying p
    else if u.rd (fADJ p) == adjUp && !(h.heard == u.rd R.FAB_NODE.ACT) then v.leaveUp p adjHello false
    else if !(u.rd (fADJ p) == adjUp) && h.heard == u.rd R.FAB_NODE.ACT then v.comeUp p
    else v := by
  subst hu hv
  exact if_neg (by simp [hh])

theorem State.hello_otherPeer (hup : u.rd (fADJ p) = adjUp) (hne : h.mac ≠ (u.port p).peerMac ∨ h.node ≠ (u.port p).peerNode) :
    s.hello p h = ((u.leaveUp p adjKeying true).dropSa p).keying p :=
  (State.hello_eq hh hu hv).trans (if_pos (by simpa [hup] using hne))

theorem State.hello_samePeer (hup : u.rd (fADJ p) = adjUp) (hmac : h.mac = (u.port p).peerMac) (hnode : h.node = (u.port p).peerNode) :
    s.hello p h = if h.heard = u.rd R.FAB_NODE.ACT then v else v.leaveUp p adjHello false := by
  rw [State.hello_eq hh hu hv]
  by_cases hn : h.heard = u.rd R.FAB_NODE.ACT
  · simp [hup, hmac, hnode, hn]
  · simp [hup, hmac, hnode, hn]

theorem State.hello_notUp (hup : u.rd (fADJ p) ≠ adjUp) :
    s.hello p h = if h.heard = u.rd R.FAB_NODE.ACT then v.comeUp p else v := by
  simp [State.hello_eq hh hu hv, hup]

end

theorem State.deadTimer_running (hd : (s.port p).deadAt = some i) (hh : s.helloing p = true) : s.deadTimer p =
    if (s.port p).deadVoid then s.setPort p { s.port p with deadVoid := false }
    else if s.helloNext p then (s.advance i).setPort p { s.port p with deadAt := none }
    else (s.advance i).portDown p := by
  simp only [State.deadTimer, hd]
  exact if_neg (by simp [hh])

theorem State.deadTimer_other (h : s.helloing p = false ∨ (s.port p).deadAt = none) : s.deadTimer p = s := by
  unfold State.deadTimer
  rcases h with h | h
  · cases hd : (s.port p).deadAt <;> simp only [hd, h, Bool.not_false, if_true]
  · simp only [h]

/-! Node numbers (R179, R180). -/

theorem State.claimPick_claiming (hrun : s.running .fab = true) (hst : s.rd R.FAB_NODE.NSTATE = nsClaiming)
    (ht : s.fab.tentativeAt = none) : s.claimPick =
      if s.fab.exchanged then s.pickNode else if s.upPorts.isEmpty then (s.advance (s.fab.enAt + 500 * ms)).pickNode else s :=
  if_neg (by simp [hrun, hst, ht])

theorem State.claimPick_other (h : s.running .fab = false ∨ s.rd R.FAB_NODE.NSTATE ≠ nsClaiming ∨ s.fab.tentativeAt ≠ none) :
    s.claimPick = s := by
  refine if_pos ?_
  rcases h with h | h | h
  · simp [h]
  · simp [h]
  · simp [Option.isSome_iff_ne_none, h]

theorem State.claimed_due (ht : s.fab.tentativeAt = some i) (hrun : s.running .fab = true) (hu : u = s.advance (i + 300 * ms))
    (hv : v = (u.wr R.FAB_NODE.ACT u.fab.candidate).wr R.FAB_NODE.NSTATE nsAssigned)
    (hx : x = { v with fab := { v.fab with tentativeAt := none } }) (hw : w = x.originate u.fab.candidate lsAssigned) :
    s.claimed = ((w.putIdentRec { x.identRec with node := u.fab.candidate }).raise R.FAB_INTSTAT.NODEOK).event 0x0503
      (subj := u.fab.candidate) := by
  subst hu hv hx hw
  simp only [State.claimed, ht]
  exact if_neg (by simp [hrun])

theorem State.claimed_other (h : s.fab.tentativeAt = none ∨ s.running .fab = false) : s.claimed = s := by
  unfold State.claimed
  rcases h with h | h
  · simp [h]
  · cases s.fab.tentativeAt <;> simp [h]

theorem State.claimRetry_other (h : s.running .fab = false ∨ s.rd R.FAB_NODE.NSTATE ≠ nsNonode) : s.claimRetry = s := by
  refine if_neg ?_
  rcases h with h | h <;> simp [h]

end

/-- Settles O19, command by command along Table 5-9 and R179. -/
theorem adjacencyAndNodeNumber : Obligations.adjacency_and_node_number := by
  intro s
  refine ⟨fun p hp hh => onUnit_lt_eq hp (State.helloTimer_due hh),
    fun p h hp hh => ⟨onUnit_lt_eq hp (if_neg (by simp [hh])), onUnit_lt_eq hp (if_pos (by simp [hh]))⟩,
    fun p h u v hp hh hu hv => ⟨fun hup hne => onUnit_lt_eq hp (State.hello_otherPeer hh hu hv hup hne), fun hup hmac hnode => ?_,
      fun hup => ?_⟩,
    fun p i hp hd hh => ?_, fun p hp h => onUnit_lt_eq hp (State.deadTimer_other h), fun hrun hst ht => ?_,
    fun h => congrArg Host.Outcome.next (State.claimPick_other h),
    fun i u v x w ht hrun hu hv hx hw => congrArg Host.Outcome.next (State.claimed_due ht hrun hu hv hx hw),
    fun h => congrArg Host.Outcome.next (State.claimed_other h), fun hrun hst => congrArg Host.Outcome.next (if_pos ⟨hrun, hst⟩),
    fun h => congrArg Host.Outcome.next (State.claimRetry_other h)⟩
  · have hsame := State.hello_samePeer hh hu hv hup hmac hnode
    exact ⟨fun hn _ => onUnit_lt_eq hp (hsame.trans (if_neg hn)), fun hn => onUnit_lt_eq hp (hsame.trans (if_pos hn))⟩
  · have hother := State.hello_notUp hh hu hv hup
    exact ⟨fun hn => onUnit_lt_eq hp (hother.trans (if_pos hn)), fun hn => onUnit_lt_eq hp (hother.trans (if_neg hn))⟩
  · have hrun := State.deadTimer_running hd hh
    exact ⟨fun hvoid => onUnit_lt_eq hp (hrun.trans (if_pos hvoid)),
      fun hvoid hnext => onUnit_lt_eq hp (hrun.trans ((if_neg (by simp [hvoid])).trans (if_pos hnext))),
      fun hvoid hnext => onUnit_lt_eq hp (hrun.trans ((if_neg (by simp [hvoid])).trans (if_neg (by simp [hnext]))))⟩
  · have hpick := State.claimPick_claiming hrun hst ht
    exact ⟨fun hex => congrArg Host.Outcome.next (hpick.trans (if_pos hex)),
      fun hex hup => congrArg Host.Outcome.next (hpick.trans ((if_neg (by simp [hex])).trans (if_pos (by simp [hup])))),
      fun hex hup => congrArg Host.Outcome.next (hpick.trans ((if_neg (by simp [hex])).trans (if_neg (by simp [hup]))))⟩
end Sys2Proof.Machine

/-!
Link-state records and routes (R180, R182, R183, R185, R187).
-/

namespace Sys2Proof.Machine

section
variable {s u v : State} {p n i : Nat} {l : Lsa} {x : FabLsa} {items : List (Nat × Nat)} {left : List Lsa}

/-! An acknowledgement on its way leaves the node number as it is (R191). -/

theorem State.rd_node_bump {f : Fld} (h : 0x40050160 ≤ f.addr) : (s.bump f).rd R.FAB_NODE.ACT = s.rd R.FAB_NODE.ACT :=
  State.rd_bump_ne (by simp only [R.FAB_NODE.ACT, R.FAB_NODE.addr]; omega)

theorem State.enqueue_rd_node {inPort : Nat} {f : Leat} : (s.enqueue inPort p f).rd R.FAB_NODE.ACT = s.rd R.FAB_NODE.ACT := by
  simp only [State.enqueue]
  split
  · rfl
  · rfl
  · exact State.rd_node_bump (by simp only [R.FAB_P_CNT_DROP.COUNT, R.FAB_P_CNT_DROP.addr]; omega)

theorem State.ctlPolice_regs {inPort : Nat} {f : Leat} (h : s.ctlPolice inPort p f = some u) : u.regs = s.regs := by
  simp only [State.ctlPolice] at h
  split at h
  · exact Option.some.inj h ▸ rfl
  · split at h
    · obtain ⟨_, -, rfl⟩ := Option.map_eq_some_iff.1 h
      rfl
    · obtain ⟨_, -, rfl⟩ := Option.map_eq_some_iff.1 h
      rfl

theorem State.leave_rd_node {inPort : Nat} {f : Leat} : (s.leave inPort p f).rd R.FAB_NODE.ACT = s.rd R.FAB_NODE.ACT := by
  unfold State.leave
  split
  · exact State.enqueue_rd_node
  · split
    · next t ht => exact State.enqueue_rd_node.trans (by simp only [State.rd, State.reg, State.ctlPolice_regs ht])
    · exact State.rd_node_bump (by simp only [R.FAB_P_CNT_CTLPOL.COUNT, R.FAB_P_CNT_CTLPOL.addr]; omega)

theorem State.tookSeq_regs {f : Leat} : (s.tookSeq f).regs = s.regs := rfl

theorem State.sendAck_rd_node : (s.sendAck p l).rd R.FAB_NODE.ACT = s.rd R.FAB_NODE.ACT := by
  simp only [State.sendAck, State.linkSend, State.leave_rd_node]
  simp only [State.rd, State.reg, State.tookSeq_regs]

/-! LSAs received (R180, R182, R183). -/

theorem State.lsaIn_closed (h : s.helloing p = false ∨ s.running .fab = false) : s.lsaIn p l = s := if_pos (by simpa using h)

theorem State.lsaIn_malformed (h : l.node = 0 ∨ 4094 < l.node ∨ l.state = 0 ∨ 3 < l.state) : s.lsaIn p l = s :=
  ite_keep (P := (· = s)) rfl (if_pos h)

section
variable (hh : s.helloing p = true) (hrun : s.running .fab = true) (hnode : 1 ≤ l.node) (hnode' : l.node ≤ 4094) (hst : 1 ≤ l.state)
  (hst' : l.state ≤ 3)
include hh hrun hnode hnode' hst hst'

/-- A well-formed LSA at an open port is judged by whose node it names. -/
theorem State.lsaIn_open : s.lsaIn p l =
    if l.alias_ then s.aliasIn p l
    else if l.node = s.myNode ∧ l.mac ≠ s.ownMac ∧ l.state ≠ lsWithdrawn ∧ s.yieldsTo l then (s.yieldNode l.node).lsaBySeq p l
    else if l.node = s.myNode then s.ownLsaIn p l
    else s.lsaBySeq p l :=
  (if_neg (by simp [hh, hrun])).trans (if_neg (by omega))

theorem State.lsaIn_yields (hal : l.alias_ = false) (hown : l.node = s.myNode) (hmac : l.mac ≠ s.ownMac) (hw : l.state ≠ lsWithdrawn)
    (hy : s.yieldsTo l = true) : s.lsaIn p l = (s.yieldNode l.node).lsaBySeq p l :=
  (State.lsaIn_open hh hrun hnode hnode' hst hst').trans ((if_neg (by simp [hal])).trans (if_pos ⟨hown, hmac, hw, hy⟩))

theorem State.lsaIn_own (hal : l.alias_ = false) (hown : l.node = s.myNode)
    (hno : l.mac = s.ownMac ∨ l.state = lsWithdrawn ∨ s.yieldsTo l = false) : s.lsaIn p l = s.ownLsaIn p l := by
  refine (State.lsaIn_open hh hrun hnode hnode' hst hst').trans ((if_neg (by simp [hal])).trans ((if_neg ?_).trans (if_pos hown)))
  rintro ⟨-, hmac, hw, hy⟩
  rcases hno with hno | hno | hno
  · exact hmac hno
  · exact hw hno
  · simp [hno] at hy

theorem State.lsaIn_other (hal : l.alias_ = false) (hown : l.node ≠ s.myNode) : s.lsaIn p l = s.lsaBySeq p l :=
  (State.lsaIn_open hh hrun hnode hnode' hst hst').trans
    ((if_neg (by simp [hal])).trans ((if_neg fun h => hown h.1).trans (if_neg hown)))

end

theorem State.ownLsaIn_stored : s.ownLsaIn p l =
    if seqNewer l.seq s.fab.ownSeq then
      (s.sendAck p l).originate l.node (if s.rd R.FAB_NODE.ACT = 0 then lsTentative else lsAssigned) (some (l.seq + 1))
    else if l.seq = s.fab.ownSeq then s.sendAck p l
    else match s.lsa l.node with | some x => s.sendLsas p [x.lsa] | none => s.sendAck p l := rfl

theorem State.lsaBySeq_unknown (h : s.lsa l.node = none) : s.lsaBySeq p l = s.takeLsa p l := by
  simp only [State.lsaBySeq, h]

theorem State.lsaBySeq_known (h : s.lsa l.node = some x) : s.lsaBySeq p l =
    if l.seq = x.lsa.seq then s.sendAck p l else if seqNewer l.seq x.lsa.seq then s.takeLsa p l else s.sendLsas p [x.lsa] := by
  simp only [State.lsaBySeq, h]

theorem State.lsackIn_open (hh : s.helloing p = true)
    (hleft : left = (s.port p).unacked.filter (fun x => !items.contains (x.node, x.seq)))
    (hu : u = s.setPort p { s.port p with unacked := left }) : s.lsackIn p items =
      if left.isEmpty ∧ u.rd (fADJ p) = adjUp then { u with fab := { u.fab with exchanged := true } } else u := by
  subst hleft hu
  exact if_neg (by simp [hh])

/-! Repeats, refresh, age (R182, R183). -/

theorem State.lsaRepeat_due (hlive : s.portLive p = true) (hup : s.rd (fADJ p) = adjUp) (hun : (s.port p).unacked ≠ [])
    (hu : u = s.advance ((s.port p).lsaSentAt + 2 * ms)) : s.lsaRepeat p =
      (u.setPort p { u.port p with unacked := [], lsaSentAt := u.now }).sendLsas p
        ((s.port p).unacked.filter fun l => match u.lsa l.node with | some y => !seqNewer y.lsa.seq l.seq | none => true) := by
  subst hu
  exact if_pos ⟨hlive, hup, by simpa using hun⟩

theorem State.lsaRepeat_other (h : s.portLive p = false ∨ (s.port p).unacked = [] ∨ s.rd (fADJ p) ≠ adjUp) : s.lsaRepeat p = s := by
  refine if_neg ?_
  rcases h with h | h | h <;> simp [h]

theorem State.lsaRefresh_other (h : s.running .fab = false ∨ s.rd R.FAB_NODE.NSTATE ≠ nsAssigned) : s.lsaRefresh = s := by
  refine if_neg ?_
  rcases h with h | h <;> simp [h]

theorem State.lsaAgeOut_known (h : s.lsa n = some x) (hown : n ≠ s.myNode) :
    s.lsaAgeOut n = (s.advance (x.at_ + 120 * sec)).removeLsa n := by
  simp only [State.lsaAgeOut, h]
  exact if_neg hown

theorem State.lsaAgeOut_other (h : s.lsa n = none ∨ n = s.myNode) : s.lsaAgeOut n = s := by
  unfold State.lsaAgeOut
  rcases h with h | h
  · simp only [h]
  · cases s.lsa n <;> simp only [← h, if_true]

/-! Routes (R185, R187). -/

theorem State.routeStart_due (hd : s.fab.dirtyAt = some i) (hc : s.fab.computing = none) (hrun : s.running .fab = true)
    (hu : u = { s.advance (i + 500 * us) with fab := { (s.advance (i + 500 * us)).fab with dirtyAt := none } }) :
    s.routeStart = if u.assist .fab then
        (u.asnPostTo .fab 5 0 (bytesLE u.fab.generation 4 ++ bytesLE (u.rd R.FAB_NODE.ACT) 2 ++ zeros 10) false [] none).2.spfBusy
      else ({ u with fab := { u.fab with computing := some u.computeRoutes } } : State).spfBusy := by
  subst hu
  rw [State.routeStart, hd, hc]
  exact if_neg (by simp [hrun])

theorem State.routeStart_other (h : s.fab.dirtyAt = none ∨ s.fab.computing ≠ none ∨ s.running .fab = false) : s.routeStart = s := by
  unfold State.routeStart
  split
  · next i hd hc =>
    rcases h with h | h | h
    · simp [hd] at h
    · exact absurd hc h
    · exact if_pos (by simp [h])
  · rfl

theorem State.routeDone_eq : s.routeDone = match s.fab.computing with
    | some t => (({ s with fab := { s.fab with computing := none } } : State).spfBusy).installRoutes t
    | none => s := rfl

end

/-- Settles O20, record by record along R183 and R185. -/
theorem linkStateRouting : Obligations.link_state_routing := by
  intro s
  refine ⟨fun p l x hp hh => ⟨onUnit_lt_eq hp (State.lsaIn_closed (.inl hh)), onUnit_lt_eq hp (if_pos (by simp [hh]))⟩,
    fun p l hp hrun => onUnit_lt_eq hp (State.lsaIn_closed (.inr hrun)), fun p l hp hh hrun hn hn' hst hst' => ?_,
    ?_, fun p l hp h => onUnit_lt_eq hp (State.lsaIn_malformed h),
    fun p l hp hh hrun hn hn' hst hst' hal hown => ?_, fun p items left u hp hh hleft hu => ?_,
    fun p u hp hlive hup hun hu => onUnit_lt_eq hp (State.lsaRepeat_due hlive hup hun hu),
    fun p hp h => onUnit_lt_eq hp (State.lsaRepeat_other h), fun hrun hst => congrArg Host.Outcome.next (if_pos ⟨hrun, hst⟩),
    fun h => congrArg Host.Outcome.next (State.lsaRefresh_other h),
    fun n x hn h hown => onUnit_lt_eq hn (State.lsaAgeOut_known h hown), fun n hn h => onUnit_lt_eq hn (State.lsaAgeOut_other h),
    fun i u hd hc hrun hu => ?_, fun h => congrArg Host.Outcome.next (State.routeStart_other h),
    fun r hc => congrArg Host.Outcome.next ?_, fun hc => congrArg Host.Outcome.next ?_⟩
  · refine ⟨fun hal => onUnit_lt_eq hp ((State.lsaIn_open hh hrun hn hn' hst hst').trans (if_pos hal)),
      fun hal hown hmac hw hy => onUnit_lt_eq hp (State.lsaIn_yields hh hrun hn hn' hst hst' hal hown hmac hw hy), fun hal hown hno => ?_⟩
    have hlsa := (State.lsaIn_own hh hrun hn hn' hst hst' hal hown hno).trans State.ownLsaIn_stored
    refine ⟨fun hnew => ?_, fun hnew hseq => onUnit_lt_eq hp (hlsa.trans ((if_neg (by simp [hnew])).trans (if_pos hseq))),
      fun hnew hseq => ?_⟩
    · rw [State.sendAck_rd_node]
      exact onUnit_lt_eq hp (hlsa.trans (if_pos hnew))
    · have hold := hlsa.trans ((if_neg (by simp [hnew])).trans (if_neg hseq))
      exact ⟨fun hno => onUnit_lt_eq hp (by rw [hno] at hold; exact hold), fun x hx => onUnit_lt_eq hp (by rw [hx] at hold; exact hold)⟩
  · intro p l u v hu hv
    rw [hv, hu]
    rfl
  · have hlsa := State.lsaIn_other hh hrun hn hn' hst hst' hal hown
    refine ⟨fun hno => onUnit_lt_eq hp (hlsa.trans (State.lsaBySeq_unknown hno)), fun x hx => ?_⟩
    have hby := hlsa.trans (State.lsaBySeq_known hx)
    exact ⟨fun hseq => onUnit_lt_eq hp (hby.trans (if_pos hseq)),
      fun hseq hnew => onUnit_lt_eq hp (hby.trans ((if_neg hseq).trans (if_pos hnew))),
      fun hseq hnew => onUnit_lt_eq hp (hby.trans ((if_neg hseq).trans (if_neg (by simp [hnew]))))⟩
  · have hack := State.lsackIn_open hh hleft hu
    refine ⟨fun hnil hup => onUnit_lt_eq hp (hack.trans (if_pos ⟨by simp [hnil], hup⟩)), fun h => onUnit_lt_eq hp (hack.trans (if_neg ?_))⟩
    rcases h with h | h <;> simp [h]
  · have hstart := State.routeStart_due hd hc hrun hu
    exact ⟨fun has => congrArg Host.Outcome.next (hstart.trans (if_neg (by simp [has]))),
      fun has => congrArg Host.Outcome.next (hstart.trans (if_pos has))⟩
  · rw [State.routeDone_eq, hc]
  · rw [State.routeDone_eq, hc]
end Sys2Proof.Machine

/-!
QUENCH rules, preemption, the SVC mailbox (R181, R192 to R194, R201).
-/

namespace Sys2Proof.Machine

section
variable {s u : State} {p k n r : Nat} {f g : Leat} {x : FabResend} {rest : List FabResend}

/-! QUENCH (R193, R194). -/

theorem State.quenchIn_closed (h : s.canSend = false) : s.quenchIn p f = s := if_pos (by simp [h])

theorem State.quenchIn_inside (h : s.canSend = true) (hg : g = { f with typ := tyQuench }) :
    s.quenchIn 4 f = if f.auth then s.toInbox g else s.quenchIssue g := by
  subst hg
  exact (if_neg (by simp [h])).trans (if_pos rfl)

theorem State.quenchIn_port (hp : p < 4) (h : s.canSend = true) (hg : g = { f with typ := tyQuench }) :
    s.quenchIn p f = if s.takesFrames p then s.switch p g else s := by
  subst hg
  exact (if_neg (by simp [h])).trans (if_neg (by omega))

theorem State.switch_ruled (h : s.ruleHit p g = some r) : s.switch p g = s.quenched p r := by
  rw [State.switch, h]

theorem State.switch_policed (h : s.ruleHit p g = none) : s.switch p g =
    match s.ctlPolice p p g with | none => s.bump (R.FAB_P_CNT_CTLPOL.COUNT p) | some u => u.route p g := by
  rw [State.switch, h] <;> rfl

theorem State.route_quench (hg : g.typ = tyQuench) : u.route p g =
    if g.auth then (if headerOk g then u.toInbox g else u.bump R.FAB_CNT_BADHDR.COUNT) else u.quenchHop p g :=
  (if_neg (by rw [hg]; decide)).trans (if_pos hg)

theorem State.quenchResend_none (h : s.fab.resend = []) : s.quenchResend = s := by
  rw [State.quenchResend, h]

theorem State.quenchResend_oldest (h : s.fab.resend = x :: rest)
    (hu : u = { s.advance x.at_ with fab := { (s.advance x.at_).fab with
      resend := rest ++ (if x.left ≤ 1 then [] else [{ x with left := x.left - 1, at_ := (s.advance x.at_).now + 10 * ms }]) } }) :
    s.quenchResend = if u.canSend = true then u.quenchHop 4 (u.stamped x.frame) else u := by
  rw [State.quenchResend, h, hu]

theorem State.ruleExpiry_eq : s.ruleExpiry k = if (s.rule (k / 32) (k % 32)).valid then
    (s.advance (s.rule (k / 32) (k % 32)).until_).setRule (k / 32) (k % 32) {} else s := rfl

/-! Preemption (R174, R192). -/

section
variable (hlive : s.portLive p = true) (hen : s.on (R.FAB_P_CTRL.PREEMPT_EN p) = true) (hknown : (s.port p).peerKnown = true)
  (hcaps : (s.port p).peerCaps % 2 = 1) (hudp : s.udp p = false)
include hlive hen hknown hcaps hudp

theorem State.verifyDone_ok : s.verifyDone p true = (s.setPort p { s.port p with verified := true }).raise (R.FAB_P_STAT.PREEMPT_ACT p) :=
  if_neg (by simp [hlive, hen, hknown, hcaps, hudp])

theorem State.verifyDone_failed : s.verifyDone p false =
    (((s.setPort p { s.port p with verified := false }).clear (R.FAB_P_STAT.PREEMPT_ACT p)).raise R.FAB_INTSTAT.PREEMPTOFF).event 0x050E
      (unit := p) :=
  if_neg (by simp [hlive, hen, hknown, hcaps, hudp])

end

theorem State.verifyDone_other {b : Bool} (h : s.portLive p = false ∨ s.on (R.FAB_P_CTRL.PREEMPT_EN p) = false ∨ s.udp p = true ∨
    (s.port p).peerKnown = false ∨ (s.port p).peerCaps % 2 = 0) : s.verifyDone p b = s := by
  refine if_pos ?_
  rcases h with h | h | h | h | h <;> simp [h]

/-- PREEMPT_ACT of the port is all that a verified exchange changes in the registers. -/
theorem State.verifiedPort_shown {t : State} (ht : t = (s.setPort p { s.port p with verified := true }).raise (R.FAB_P_STAT.PREEMPT_ACT p)) :
    t.rd (R.FAB_P_STAT.PREEMPT_ACT p) = 1 ∧ (t.port p).verified = true ∧ t.mem = s.mem ∧
      ∀ a, a ≠ (R.FAB_P_STAT.PREEMPT_ACT p).addr → t.reg a = s.reg a := by
  subst ht
  exact ⟨State.rd_wr_same (Fld.fits rfl), by simp [State.port, State.setPort, State.raise], rfl, fun a ha => State.reg_wr_ne ha⟩

/-! The SVC mailbox (R201). -/

section
variable (hu : u = s.wr R.FAB_MBX_TX.LEN n) (hf : f = u.stamped (u.mbxFrame n))
include hu hf

theorem State.mbxSend_malformed (h : n < 28 ∨ 1188 < n ∨ (f.typ ≠ tyQuench ∧ f.typ ≠ tyMbx)) :
    s.mbxSend n = u.wr R.FAB_MBX_TX.RESULT 2 := by
  subst hu hf
  exact if_pos (by simpa using h)

theorem State.mbxSend_malformed_shown (h : n < 28 ∨ 1188 < n ∨ (f.typ ≠ tyQuench ∧ f.typ ≠ tyMbx)) :
    (s.mbxSend n).rd R.FAB_MBX_TX.RESULT = 2 ∧ (s.mbxSend n).mem = s.mem ∧ ∀ a, a ≠ R.FAB_MBX_TX.addr → (s.mbxSend n).reg a = s.reg a := by
  rw [State.mbxSend_malformed hu hf h, hu]
  exact ⟨State.rd_wr_same (by decide), (State.wr_mem _ _ _).trans (State.wr_mem _ _ _), fun a ha => (State.reg_wr_ne ha).trans (State.reg_wr_ne ha)⟩

/-- A well-formed frame is answered by the first of R201's checks that it fails. -/
theorem State.mbxSend_formed (hmin : 28 ≤ n) (hmax : n ≤ 1188) (hty : f.typ = tyQuench ∨ f.typ = tyMbx) : s.mbxSend n =
    if !u.canSend then u.wr R.FAB_MBX_TX.RESULT 1
    else if f.typ == tyQuench && !(if f.auth then headerOk f else quenchOk f) then
      (u.bump R.FAB_CNT_BADHDR.COUNT).wr R.FAB_MBX_TX.RESULT 2
    else if f.typ == tyQuench && f.auth then (u.toInbox f).wr R.FAB_MBX_TX.RESULT 0
    else if f.dst = 0 ∨ (f.dst = 4095 ∧ (f.typ == tyQuench)) ∨ (f.dst ≠ 4095 ∧ u.routePort f.dst = portNone) then
      (u.bump R.FAB_CNT_NOROUTE.COUNT).wr R.FAB_MBX_TX.RESULT 1
    else if f.typ == tyQuench then (u.quenchIssue f).wr R.FAB_MBX_TX.RESULT 0
    else ((u.tookSeq f).txIn f none).2.wr R.FAB_MBX_TX.RESULT 0 := by
  subst hu hf
  refine if_neg ?_
  rintro (h | h | ⟨hq, hm⟩)
  · omega
  · omega
  · exact hty.elim (fun h => by simp [h] at hq) hm

end

/-- A mailbox frame (type 13) past R201's form checks. -/
theorem mbx_checks {a b c d e z : State} (hm : f.typ = tyMbx) (hc : u.canSend = true) :
    (if !u.canSend then a
      else if f.typ == tyQuench && !(if f.auth then headerOk f else quenchOk f) then b
      else if f.typ == tyQuench && f.auth then c
      else if f.dst = 0 ∨ (f.dst = 4095 ∧ (f.typ == tyQuench)) ∨ (f.dst ≠ 4095 ∧ u.routePort f.dst = portNone) then d
      else if f.typ == tyQuench then e else z) =
    if f.dst = 0 ∨ (f.dst ≠ 4095 ∧ u.routePort f.dst = portNone) then d else z := by
  have hq : (f.typ == tyQuench) = false := by rw [hm]; decide
  simp [hq, hc]

/-- A QUENCH past R201's form checks. -/
theorem quench_checks {a b c d e z : State} (hq : f.typ = tyQuench) (hc : u.canSend = true) :
    (if !u.canSend then a
      else if f.typ == tyQuench && !(if f.auth then headerOk f else quenchOk f) then b
      else if f.typ == tyQuench && f.auth then c
      else if f.dst = 0 ∨ (f.dst = 4095 ∧ (f.typ == tyQuench)) ∨ (f.dst ≠ 4095 ∧ u.routePort f.dst = portNone) then d
      else if f.typ == tyQuench then e else z) =
    if (if f.auth then headerOk f else quenchOk f) = false then b
    else if f.auth then c
    else if f.dst = 0 ∨ f.dst = 4095 ∨ (f.dst ≠ 4095 ∧ u.routePort f.dst = portNone) then d else e := by
  simp [hq, hc]

end

/-- Settles O21, command by command along R193, R192 and R201. -/
theorem quenchAndPreemption : Obligations.quench_and_preemption := by
  intro s
  refine ⟨fun p f hp h => onUnit_lt_eq hp (State.quenchIn_closed h), fun f g h hg => ?_, fun p f g hp h hg => ?_, fun p g hg => ?_,
    fun h => congrArg Host.Outcome.next (State.quenchResend_none h),
    fun x rest u h hu => congrArg Host.Outcome.next (State.quenchResend_oldest h hu),
    fun k hk h => onUnit_lt_eq hk (State.ruleExpiry_eq.trans (if_pos h)),
    fun k hk h => onUnit_lt_eq hk (State.ruleExpiry_eq.trans (if_neg (by simp [h]))),
    fun p hp hlive hen hknown hcaps hudp => ⟨⟨_, onUnit_lt_eq hp (State.verifyDone_ok hlive hen hknown hcaps hudp),
      State.verifiedPort_shown rfl⟩,
      onUnit_lt_eq hp (State.verifyDone_failed hlive hen hknown hcaps hudp)⟩,
    fun p b hp h => onUnit_lt_eq hp (State.verifyDone_other h), fun n u f hu hf h => ⟨_, rfl, State.mbxSend_malformed_shown hu hf h⟩,
    fun n u f hu hf hmin hmax hty => ?_⟩
  · have hin := State.quenchIn_inside h hg
    exact ⟨fun ha => onUnit_lt_eq (k := 5) (by decide : 4 < 5) (hin.trans (if_pos ha)), fun ha => onUnit_lt_eq (k := 5) (by decide : 4 < 5) (hin.trans (if_neg (by simp [ha])))⟩
  · have hin := State.quenchIn_port hp h hg
    exact ⟨fun ht => onUnit_lt_eq (by omega) (hin.trans (if_pos ht)), fun ht => onUnit_lt_eq (by omega) (hin.trans (if_neg (by simp [ht])))⟩
  · refine ⟨fun r hr => State.switch_ruled hr, fun hr hpol => by rw [State.switch_policed hr, hpol], fun u hr hpol => ?_⟩
    have hroute : s.switch p g = u.route p g := by rw [State.switch_policed hr, hpol]
    rw [hroute, State.route_quench hg]
    exact ⟨fun ha => if_neg (by simp [ha]), fun ha hh => (if_pos ha).trans (if_pos hh), fun ha hh => (if_pos ha).trans (if_neg (by simp [hh]))⟩
  · have hsend := State.mbxSend_formed hu hf hmin hmax hty
    refine ⟨fun hc => congrArg Host.Outcome.next (hsend.trans (if_pos (by simp [hc]))), fun hc hm hd hr => ?_, fun hc hm hd => ?_,
      fun hc hq hno => ?_, fun hc hq ha hh => ?_, fun hc hq ha hok hd => ?_, fun hc hq ha hok hd hall hr => ?_⟩
    · refine congrArg Host.Outcome.next ((hsend.trans (mbx_checks hm hc)).trans (if_neg ?_))
      rcases hr with hr | hr <;> simp [hd, hr]
    · exact congrArg Host.Outcome.next ((hsend.trans (mbx_checks hm hc)).trans (if_pos hd))
    · exact congrArg Host.Outcome.next ((hsend.trans (quench_checks hq hc)).trans (if_pos hno))
    · exact congrArg Host.Outcome.next ((hsend.trans (quench_checks hq hc)).trans ((if_neg (by simp [ha, hh])).trans (if_pos ha)))
    · refine congrArg Host.Outcome.next ((hsend.trans (quench_checks hq hc)).trans
        ((if_neg (by simp [ha, hok])).trans ((if_neg (by simp [ha])).trans (if_pos ?_))))
      rcases hd with hd | hd | hd
      · exact .inl hd
      · exact .inr (.inl hd)
      · by_cases hall : f.dst = 4095
        · exact .inr (.inl hall)
        · exact .inr (.inr ⟨hall, hd⟩)
    · exact congrArg Host.Outcome.next ((hsend.trans (quench_checks hq hc)).trans
        ((if_neg (by simp [ha, hok])).trans ((if_neg (by simp [ha])).trans (if_neg (by simp [hd, hall, hr])))))
end Sys2Proof.Machine

/-!
Fabric time (R198, R199).
-/

namespace Sys2Proof.Machine

section
variable {s t u : State} {p d i o r n tx : Nat} {a b : PtpAnnounce} {e : Int} {m : PtpMsg}

/-! Messages of the clock's domain (R198). -/

theorem State.ptpIn_foreign (h : s.ptpPort p = false ∨ d ≠ s.rd R.FAB_PTP_CFG.DOMAIN) : s.ptpIn p d m = s := by
  refine if_pos ?_
  rcases h with h | h <;> simp [h]

/-- The follower's messages count at the slave port of a followed master alone. -/
theorem State.ptpIn_notSlave (h : s.rd R.FAB_PTP_STAT.SLAVE ≠ p ∨ s.fab.ptp.best = none) :
    s.ptpIn p d (.sync o i) = s ∧ s.ptpIn p d (.delayResp r) = s := by
  have hno : (!(s.rd R.FAB_PTP_STAT.SLAVE == p && s.fab.ptp.best.isSome)) = true := by
    rcases h with h | h <;> simp [h]
  exact ⟨ite_keep (P := (· = s)) rfl (if_pos hno), ite_keep (P := (· = s)) rfl (if_pos hno)⟩

section
variable (hport : s.ptpPort p = true) (hd : d = s.rd R.FAB_PTP_CFG.DOMAIN)
include hport hd

theorem State.ptpIn_announce : s.ptpIn p d (.announce a) =
    if a.gm = s.ownMac ∨ 255 ≤ a.steps then s else (s.setForeign p (some a)).ptpDecide := if_neg (by simp [hport, hd])

theorem State.ptpIn_delayReq : s.ptpIn p d (.delayReq i) =
    if s.ptpRole p = .master then s.ptpPut p [.delayResp (i - s.rd (R.FAB_P_PTPDLY.RXDLY p))] else s := if_neg (by simp [hport, hd])

section
variable (hslave : s.rd R.FAB_PTP_STAT.SLAVE = p) (hbest : s.fab.ptp.best.isSome = true)
include hslave hbest

theorem State.ptpIn_sync (he : e = (i : Int) - s.rd (R.FAB_P_PTPDLY.RXDLY p) - o)
    (hu : u = s.setPtp { s.fab.ptp with toSlave := e, syncAt := some s.now }) : s.ptpIn p d (.sync o i) =
      match s.fab.ptp.toMaster with
      | some m => u.ptpOffset ((e - m) / 2) (u.now - s.fab.ptp.syncAt.getD s.now)
      | none => u := by
  subst he hu
  exact (if_neg (by simp [hport, hd])).trans (if_neg (by simp [hslave, hbest]))

theorem State.ptpIn_delayResp : s.ptpIn p d (.delayResp r) =
    match s.fab.ptp.t3 with
    | some t3 => s.setPtp { s.fab.ptp with toMaster := some ((r : Int) - t3), t3 := none }
    | none => s := (if_neg (by simp [hport, hd])).trans (if_neg (by simp [hslave, hbest]))

end
end

/-! The port's own messages (R198) and the loss of the master (R199). -/

theorem State.ptpTx_closed (h : s.ptpPort p = false) : s.ptpTx p = s := if_pos (by simp [h])

theorem State.ptpTx_due (hport : s.ptpPort p = true) (ht : t = s.advance (s.port p).ptpTxAt)
    (hn : n = SMap.get (fun _ => 0) t.fab.ptp.intervals p)
    (hu : u = (t.setPort p { t.port p with ptpTxAt := t.now + 62500 * us }).setPtp
      { t.fab.ptp with intervals := SMap.set (fun _ => 0) t.fab.ptp.intervals p (n + 1) })
    (htx : tx = u.rd (R.FAB_P_PTPDLY.TXDLY p)) : s.ptpTx p =
      match u.ptpRole p with
      | .slave => (u.setPtp { u.fab.ptp with t3 := some (u.mtNs + tx) }).ptpPut p [.delayReq (u.mtNs + tx)]
      | .master => u.ptpPut p (.sync (u.mtNs + tx) 0 :: (if n % 16 = 0 then [.announce (u.ptpSelf p)] else []))
      | _ => u := by
  subst htx hu hn ht
  exact if_neg (by simp [hport])

theorem State.ptpLost_followed (hbest : s.fab.ptp.best = some b) (hp : p = s.rd R.FAB_PTP_STAT.SLAVE) (hat : (s.port p).annAt = some i)
    (hu : u = (s.advance (i + 3 * sec)).setForeign p none) :
    s.ptpLost = (((u.wr R.FAB_PTP_STAT.STATE ptpHoldover).raise R.FAB_INTSTAT.HOLDOVER).event 0x050D (unit := p)).ptpDecide := by
  subst hp hu
  simp only [State.ptpLost, hbest, hat]

theorem State.ptpLost_other (h : s.fab.ptp.best = none ∨ (s.port (s.rd R.FAB_PTP_STAT.SLAVE)).annAt = none) : s.ptpLost = s := by
  unfold State.ptpLost
  dsimp only
  split
  · next hb ha => simp [hb, ha] at h
  · rfl

end

/-- Settles O22, message by message and timer by timer. -/
theorem fabricTime : Obligations.fabric_time := by
  intro s
  refine ⟨fun p d m hp h => onUnit_lt_eq hp (State.ptpIn_foreign h), fun p d a hp hport hd => ⟨fun ha => ?_, fun hgm hst => ?_⟩,
    fun p d o i r hp h => ?_, fun p d o i e u hp hport hd hslave hbest he hu => ?_, fun p d r hp hport hd hslave hbest => ?_,
    fun p d i hp hport hd => ⟨fun hm => ?_, fun hm => ?_⟩, fun p hp h => onUnit_lt_eq hp (State.ptpTx_closed h),
    fun p n tx t u hp hport ht hn hu htx => ?_,
    fun b i p u hbest hp hat hu => congrArg Host.Outcome.next (State.ptpLost_followed hbest hp hat hu),
    fun h => congrArg Host.Outcome.next (State.ptpLost_other h)⟩
  · exact onUnit_lt_eq hp ((State.ptpIn_announce hport hd).trans (if_pos ha))
  · exact onUnit_lt_eq hp ((State.ptpIn_announce hport hd).trans (if_neg (by simp [hgm, hst])))
  · exact ⟨onUnit_lt_eq hp (State.ptpIn_notSlave (r := r) h).1, onUnit_lt_eq hp (State.ptpIn_notSlave (o := o) (i := i) h).2⟩
  · have hsync := State.ptpIn_sync hport hd hslave hbest he hu
    refine ⟨fun hm => onUnit_lt_eq hp ?_, fun m hm => onUnit_lt_eq hp ?_⟩ <;> exact hsync.trans (by rw [hm])
  · have hresp := State.ptpIn_delayResp (r := r) hport hd hslave hbest
    refine ⟨fun hm => onUnit_lt_eq hp ?_, fun m hm => onUnit_lt_eq hp ?_⟩ <;> exact hresp.trans (by rw [hm])
  · exact onUnit_lt_eq hp ((State.ptpIn_delayReq hport hd).trans (if_pos hm))
  · exact onUnit_lt_eq hp ((State.ptpIn_delayReq hport hd).trans (if_neg hm))
  · have hdue := State.ptpTx_due hport ht hn hu htx
    refine ⟨fun hrole => onUnit_lt_eq hp ?_, fun hrole => onUnit_lt_eq hp ?_, fun hrole => onUnit_lt_eq hp ?_⟩
    · exact hdue.trans (by rw [hrole])
    · exact hdue.trans (by rw [hrole])
    · rcases hrole with hrole | hrole <;> exact hdue.trans (by rw [hrole])
end Sys2Proof.Machine

/-!
Frames at the tenant gate (Table 6-1, R212, R215, R217, R225, R227, R230): one judgement for the ten commands that bring them.
-/

namespace Sys2Proof.Machine

/-- The ten commands that bring a client's frame. -/
def frameCommands (f : Leat) : List Instr :=
  [.openReceived f, .confirmReceived f, .abandonReceived f, .sessionRead f, .sessionWrite f, .sessionSub f, .sessionUnsub f,
    .sessionForce f, .sessionClose f, .evread f]

section
variable {s u v w x y : State} {f : Leat} {k b : Nat} {pt : List Byte} {c : Instr}

/-- A frame is judged by what it holds, whichever command brings it. -/
theorem exec_frameCommand (hc : c ∈ frameCommands f) : exec c s = .next (s.gateFrame f) := by
  simp only [frameCommands, List.mem_cons, List.not_mem_nil, or_false] at hc
  obtain rfl | rfl | rfl | rfl | rfl | rfl | rfl | rfl | rfl | rfl := hc <;> rfl

theorem exec_frameCommand_eq (hc : c ∈ frameCommands f) (h : s.gateFrame f = u) : exec c s = .next u :=
  (exec_frameCommand hc).trans (congrArg Host.Outcome.next h)

section
variable (hu : u = s.takeInbox f.typ f.src f.payload)
include hu

theorem State.gateFrame_off (hrun : u.running .gate = false) : s.gateFrame f = u := by
  subst hu
  exact if_pos (by simp [hrun])

section
variable (hrun : u.running .gate = true)
include hrun

/-- A frame in the clear is an OPEN, an ABANDON, or malformed (R214, R217, R218). -/
theorem State.gateFrame_clear (ha : f.auth = false) : s.gateFrame f =
    if f.typ = tySession ∧ numAt f.payload 0 2 = 0x101 ∧ f.payload.length = 104 ∧ f.lane = laneControl then u.openIn f
    else if f.typ = tySession ∧ numAt f.payload 0 2 = 0x105 ∧ f.payload.length = 40 ∧ f.lane = laneControl then u.abandonIn f
    else u.bump R.GATE_CNT_BADREQ.COUNT := by
  subst hu
  exact (if_neg (by simp [hrun])).trans (if_pos (by simp [ha]))

theorem State.gateFrame_malformed (ha : f.auth = false) (h : f.typ ≠ tySession ∨ f.lane ≠ laneControl ∨
    ¬ ((numAt f.payload 0 2 = 0x101 ∧ f.payload.length = 104) ∨ (numAt f.payload 0 2 = 0x105 ∧ f.payload.length = 40))) :
    s.gateFrame f = u.bump R.GATE_CNT_BADREQ.COUNT := by
  rw [State.gateFrame_clear hu hrun ha, if_neg, if_neg]
  · rintro ⟨hty, hkind, hlen, hlane⟩
    exact h.elim (· hty) (·.elim (· hlane) (· (.inr ⟨hkind, hlen⟩)))
  · rintro ⟨hty, hkind, hlen, hlane⟩
    exact h.elim (· hty) (·.elim (· hlane) (· (.inl ⟨hkind, hlen⟩)))

section
variable (ha : f.auth = true)
include ha

theorem State.gateFrame_session : s.gateFrame f = match u.sessionOf f with
    | none => u.refuseNosess f
    | some k => match u.askUse k (.openIn f) with | (true, v) => v.gateOpened k f | (false, v) => v := by
  subst hu
  exact (if_neg (by simp [hrun])).trans (if_neg (by simp [ha]))

theorem State.gateFrame_noSession (hk : u.sessionOf f = none) : s.gateFrame f = u.refuseNosess f := by
  rw [State.gateFrame_session hu hrun ha, hk]

section
variable (hk : u.sessionOf f = some k)
include hk

theorem State.gateFrame_useDenied (hask : u.askUse k (.openIn f) = (false, v)) : s.gateFrame f = v := by
  rw [State.gateFrame_session hu hrun ha, hk]
  simp only [hask]

section
variable (hask : u.askUse k (.openIn f) = (true, v))
include hask

theorem State.gateFrame_opened : s.gateFrame f = v.gateOpened k f := by
  rw [State.gateFrame_session hu hrun ha, hk]
  simp only [hask]

theorem State.gateFrame_sealed (ho : v.openFrame k f = (none, w)) : s.gateFrame f = w := by
  rw [State.gateFrame_opened hu hrun ha hk hask, State.gateOpened, ho]

section
variable (ho : v.openFrame k f = (some pt, w))
include ho

theorem State.gateFrame_plain : s.gateFrame f = w.gatePlain k f pt := by
  rw [State.gateFrame_opened hu hrun ha hk hask, State.gateOpened, ho]

/-- Under an OPEN session a frame is charged to its rate and then judged as a request. -/
theorem State.gateFrame_charged (hst : (w.sess k).state = sOpen)
    (hx : x = w.setSess k { (w.sess k).accept f.seq with lastReq := w.now }) : s.gateFrame f = x.gateCharged k f pt (numAt pt 2 2) := by
  have hgo : w.gatePlain k f pt =
      State.gateCharged (w.setSess k { (w.sess k).accept f.seq with lastReq := if (w.sess k).state = sOpen then w.now else (w.sess k).lastReq })
        k f pt (numAt pt 2 2) := (if_neg (by rw [hst]; decide)).trans (if_neg (by rw [hst]; decide))
  rw [State.gateFrame_plain hu hrun ha hk hask ho, hgo, hx, if_pos hst]

theorem State.gateFrame_expired (hst : (w.sess k).state = sExpired) : s.gateFrame f =
    (w.setSess k { (w.sess k).accept f.seq with lastReq := (w.sess k).lastReq }).sendRefuse k f.typ f.lane (numAt pt 2 2) gcExpired := by
  have hgo : w.gatePlain k f pt =
      State.sendRefuse
        (w.setSess k { (w.sess k).accept f.seq with lastReq := if (w.sess k).state = sOpen then w.now else (w.sess k).lastReq })
        k f.typ f.lane (numAt pt 2 2) gcExpired := (if_neg (by rw [hst]; decide)).trans (if_pos hst)
  rw [State.gateFrame_plain hu hrun ha hk hask ho, hgo, if_neg (by rw [hst]; decide)]

/-- A session that is PENDING takes a CONFIRM alone. -/
theorem State.gateFrame_pending (hst : (w.sess k).state = sPending) : s.gateFrame f =
    if pt.length = 4 ∧ numAt pt 0 2 = 0x103 ∧ f.lane = laneControl ∧ f.typ = tySession then w.confirm k f (numAt pt 2 2)
    else if numAt pt 0 1 = 3 then (w.bump R.GATE_CNT_BADREQ.COUNT).sendRefuse k f.typ f.lane (numAt pt 2 2) gcBadreq
    else w.refuseNosess f :=
  (State.gateFrame_plain hu hrun ha hk hask ho).trans (if_pos hst)

end
end
end
end
end
end

/-! A charged request (R220, R225, R230). -/

theorem State.gateCharged_over {reqid : Nat} (h : x.charge k (f.len + 64) = (false, y)) :
    x.gateCharged k f pt reqid = y.rateRefused k f reqid := by
  rw [State.gateCharged, h]
  rfl

theorem State.gateCharged_within {reqid : Nat} (h : x.charge k (f.len + 64) = (true, y)) : x.gateCharged k f pt reqid = y.gateRequest k f pt := by
  rw [State.gateCharged, h]
  rfl

theorem State.gateRequest_bad (h : requestOf f.typ f.lane pt = .bad) :
    y.gateRequest k f pt = (y.bump R.GATE_CNT_BADREQ.COUNT).sendRefuse k f.typ f.lane (numAt pt 2 2) gcBadreq := if_pos h

theorem State.gateRequest_noRight (hgood : requestOf f.typ f.lane pt ≠ .bad) (hright : (requestOf f.typ f.lane pt).right = some b)
    (hno : (y.sess k).rights.testBit b = false) : y.gateRequest k f pt = y.sendRefuse k f.typ f.lane (numAt pt 2 2) gcRight :=
  (if_neg hgood).trans (if_pos (by simp [hright, hno]))

theorem State.gateRequest_served {r : Request} (hr : requestOf f.typ f.lane pt = r) (hgood : r ≠ .bad)
    (hright : ∀ b, r.right = some b → (y.sess k).rights.testBit b = true) : y.gateRequest k f pt = y.serve k f (numAt pt 2 2) r := by
  subst hr
  refine (if_neg hgood).trans (if_neg ?_)
  cases h : (requestOf f.typ f.lane pt).right with
  | none => simp
  | some b => simp [hright b h]

end

/-- The low byte of a number of two bytes is the number modulo 256. -/
theorem numAt_one_of_two {l : List Byte} {n : Nat} (h : numAt l 0 2 = n) : numAt l 0 1 = n % 256 := by
  subst h
  cases l with
  | nil => rfl
  | cons b bs =>
    have hb : b.toNat < 256 := b.isLt
    simp [numAt, natLE, Nat.add_mul_mod_self_left, Nat.mod_eq_of_lt hb]

/-- Settles O23, check by check in the order of R230. -/
theorem gateFramesTurnedAway : Obligations.gate_frames_turned_away := by
  intro s f
  refine ⟨fun u hu hrun c hc => exec_frameCommand_eq hc (State.gateFrame_off hu hrun),
    fun u hu hrun ha h c hc => exec_frameCommand_eq hc (State.gateFrame_malformed hu hrun ha h),
    fun u hu hrun ha hk c hc => exec_frameCommand_eq hc (State.gateFrame_noSession hu hrun ha hk),
    fun k u v hu hrun ha hk hask c hc => exec_frameCommand_eq hc (State.gateFrame_useDenied hu hrun ha hk hask),
    fun k u v w hu hrun ha hk hask ho c hc => exec_frameCommand_eq hc (State.gateFrame_sealed hu hrun ha hk hask ho),
    fun k u v w pt hu hrun ha hk hask ho hst => ?_,
    fun k u v w pt hu hrun ha hk hask ho hst c hc => exec_frameCommand_eq hc (State.gateFrame_expired hu hrun ha hk hask ho hst),
    fun k u v w x pt hu hrun ha hk hask ho hst hx c hc => ?_⟩
  · have hpend := State.gateFrame_pending hu hrun ha hk hask ho hst
    refine ⟨fun hkind c hc => exec_frameCommand_eq hc (hpend.trans ((if_neg ?_).trans (if_neg hkind))),
      fun hkind h c hc => exec_frameCommand_eq hc (hpend.trans ((if_neg ?_).trans (if_pos hkind)))⟩
    · rintro ⟨-, h2, -, -⟩
      exact hkind (numAt_one_of_two h2)
    · rintro ⟨h4, h2, hlane, hty⟩
      exact h.elim (· h4) (·.elim (· h2) (·.elim (· hlane) (· hty)))
  · have hcharged := State.gateFrame_charged hu hrun ha hk hask ho hst hx
    exact ⟨fun y hy => exec_frameCommand_eq hc (hcharged.trans (State.gateCharged_over hy)),
      fun y hy hbad => exec_frameCommand_eq hc (hcharged.trans ((State.gateCharged_within hy).trans (State.gateRequest_bad hbad))),
      fun y b hy hgood hright hno =>
        exec_frameCommand_eq hc (hcharged.trans ((State.gateCharged_within hy).trans (State.gateRequest_noRight hgood hright hno)))⟩
end Sys2Proof.Machine

/-!
Requests of a session, handshakes, authorised QUENCH, assist results (R38, R204, R214 to R224, R230, R447).
-/

namespace Sys2Proof.Machine

section
variable {s u v w x y : State} {f : Leat} {k t p : Nat} {pt kt : List Byte} {ten : Tenant} {b : AsnBlock}

/-! The handshake (R214, R216, R218). -/

theorem State.openIn_standby (hr : s.rd R.PAIR_STAT.ROLE = roleStandby) : s.openIn f = s.refuseRaw f gcStandby (numAt f.payload 2 1) :=
  if_pos hr

theorem State.openIn_overRate (hr : s.rd R.PAIR_STAT.ROLE ≠ roleStandby) (hc : s.openCharge = (false, u)) : s.openIn f = u := by
  have h : s.openIn f = s.openCharge.2 := (if_neg hr).trans (if_pos (by simp [hc]))
  rw [h, hc]

section
variable (hc : s.openCharge = (true, u)) (hroot : u.tenantUse = (.ok, v)) (hten : v.tenant t = (ten, w))
include hc hroot hten

/-- An OPEN charged to the open rate is checked under the tenant root. -/
theorem State.openIn_rooted (ht : t = numAt f.payload 2 1) (hkt : kt = w.tenantKey t ten.gen)
    (hr : s.rd R.PAIR_STAT.ROLE ≠ roleStandby) : s.openIn f =
    if openTag kt f (f.payload.take 88) ≠ f.payload.drop 88 then (w.bump R.GATE_CNT_BADTAG.COUNT).raise R.GATE_INTSTAT.BADTAG
    else if ten.maxsess = 0 then w.refuseRaw f gcTenant t
    else if ten.maxsess ≤ (w.gate.sessions.filter fun x => x.2.tenant == t && (x.2.state == sPending || x.2.state == sOpen)).length then
      w.refuseRaw f gcFull t
    else match w.newSlot with
      | none => (w.raise R.GATE_INTSTAT.SESSFULL).refuseRaw f gcFull t
      | some k => w.openAck f t ten kt k := by
  subst ht hkt
  simp only [State.openIn, if_neg hr, hc, hroot, hten, Bool.not_true, Bool.false_eq_true, if_false] <;> cases w.newSlot <;> rfl

theorem State.abandonIn_rooted (ht : t = numAt f.payload 2 1) (hk : k = numAt f.payload 4 4 % 512) : s.abandonIn f =
    if openTag (w.tenantKey t ten.gen) f (f.payload.take 24) ≠ f.payload.drop 24 then
      (w.bump R.GATE_CNT_BADTAG.COUNT).raise R.GATE_INTSTAT.BADTAG
    else if ((w.sess k).state = sPending ∨ (w.sess k).state = sOpen) ∧ (w.sess k).sid = numAt f.payload 4 4 ∧ (w.sess k).node = f.src ∧
        (w.sess k).tenant = t ∧ (w.sess k).nc.toNat = natBE ((f.payload.drop 8).take 16) then w.freeSess k
    else w.bump R.GATE_CNT_BADREQ.COUNT := by
  subst ht hk
  simp only [State.abandonIn, hc, hroot, hten, Bool.not_true, Bool.false_eq_true, if_false]

end

/-! Authorised QUENCH (R223). -/

section
variable (hu : u = s.takeInbox f.typ f.src f.payload)
include hu

theorem State.authQuenchIn_off (hrun : u.running .gate = false) : s.authQuenchIn p f = u := by
  subst hu
  exact if_pos (by simp [hrun])

theorem State.authQuenchIn_malformed (hrun : u.running .gate = true) (h : f.auth = false ∨ f.payload.length ≠ 36) :
    s.authQuenchIn p f = u.bump R.GATE_CNT_BADREQ.COUNT := by
  subst hu
  exact (if_neg (by simp [hrun])).trans (if_pos (by simpa using h))

theorem State.authQuenchIn_formed (hrun : u.running .gate = true) (ha : f.auth = true) (hlen : f.payload.length = 36) :
    s.authQuenchIn p f = match u.sessionOf f with
      | none => u.refuseNosess f
      | some k => match u.askUse k (.quench p f) with | (true, v) => v.quenchOpened p k f | (false, v) => v := by
  subst hu
  exact (if_neg (by simp [hrun])).trans (if_neg (by simp [ha, hlen]))

/-! Results of a remote host (R38, R224). -/

theorem State.assistResultIn_off (hrun : u.running .gate = false) : s.assistResultIn f = u := by
  subst hu
  exact if_pos (by simp [hrun])

theorem State.assistResultIn_malformed (hrun : u.running .gate = true) (h : f.auth = false ∨ f.typ ≠ tyAssistResult) :
    s.assistResultIn f = u.bump R.GATE_CNT_BADREQ.COUNT := by
  subst hu
  exact (if_neg (by simp [hrun])).trans (if_pos (by simpa using h))

theorem State.assistResultIn_formed (hrun : u.running .gate = true) (ha : f.auth = true) (hty : f.typ = tyAssistResult) :
    s.assistResultIn f = match u.sessionOf f with
      | none => u.refuseNosess f
      | some k => match u.askUse k (.openIn f) with | (true, v) => v.assistOpened k f | (false, v) => v := by
  subst hu
  exact (if_neg (by simp [hrun])).trans (if_neg (by simp [ha, hty]))

end

/-- A result under an OPEN session for a block with a remote server: the server's own session alone gives it. -/
theorem State.assistOpened_open (ho : v.openFrame k f = (some pt, w)) (hst : (w.sess k).state = sOpen) (hb : remoteBlock (numAt pt 0 1) = some b)
    (hy : y = w.setSess k { (w.sess k).accept f.seq with lastReq := w.now }) : v.assistOpened k f =
      if y.rd b.SRV_KIND = 2 ∧ (w.sess k).rights.testBit rtAssist ∧ y.assistSession b = some k then y.assistResult b pt fun s _ _ => s
      else y.sendRefuse k f.typ f.lane 0 gcRight := by
  have hpend : sOpen ≠ sPending := by decide
  have hexp : sOpen ≠ sExpired := by decide
  simp only [State.assistOpened, ho, hst, hb, if_neg hpend, if_neg hexp, if_true, ← hy]

end

/-- Settles O24, request by request in the order of R230. -/
theorem gateRequests : Obligations.gate_requests := by
  intro s f
  refine ⟨fun u hu hrun ha hty hlane c hc => ⟨fun hkind hlen => ?_, fun hkind hlen => ?_⟩,
    fun t ht => ⟨fun hr => ht ▸ State.openIn_standby hr, fun u hr hc => State.openIn_overRate hr hc,
      fun u v w ten kt k hr hc hroot hten hkt => ⟨fun htag => ?_, fun htag hquota hslot => ?_⟩⟩,
    fun t k u v w ten ht hk hc hroot hten htag hst hsid hnode hten' hnc => ?_,
    fun k u v w pt x hu hrun ha hk hask ho hst hlen hkind hlane hty hx c hc => ?_,
    fun k u v w x y pt m hu hrun ha hk hask ho hst hx hcharge hm c hc => ?_, fun p u hp hu => ?_, fun k u v hu => ?_⟩
  · exact exec_frameCommand_eq hc ((State.gateFrame_clear hu hrun ha).trans (if_pos ⟨hty, hkind, hlen, hlane⟩))
  · exact exec_frameCommand_eq hc ((State.gateFrame_clear hu hrun ha).trans ((if_neg (by omega)).trans (if_pos ⟨hty, hkind, hlen, hlane⟩)))
  · exact (State.openIn_rooted hc hroot hten ht hkt hr).trans (if_pos htag)
  · rw [State.openIn_rooted hc hroot hten ht hkt hr, if_neg (not_not.2 htag),
      if_neg (Nat.ne_of_gt (Nat.zero_lt_of_lt hquota)), if_neg (Nat.not_le.2 hquota), hslot]
  · rw [State.abandonIn_rooted hc hroot hten ht hk, if_neg (not_not.2 htag), if_pos ⟨hst, hsid, hnode, hten', hnc⟩]
  · subst hx
    exact exec_frameCommand_eq hc ((State.gateFrame_pending hu hrun ha hk hask ho hst).trans (if_pos ⟨hlen, hkind, hlane, hty⟩))
  · subst hm
    have hreq : s.gateFrame f = y.gateRequest k f pt :=
      (State.gateFrame_charged hu hrun ha hk hask ho hst hx).trans (State.gateCharged_within hcharge)
    have hserve {r : Request} (hr : requestOf f.typ f.lane pt = r) (hgood : r ≠ .bad)
        (hright : ∀ b, r.right = some b → (y.sess k).rights.testBit b = true) : exec c s = .next (y.serve k f (numAt pt 2 2) r) :=
      exec_frameCommand_eq hc (hreq.trans (State.gateRequest_served hr hgood hright))
    refine ⟨fun its hr hb => (hserve hr (by simp) fun b h => ?_).trans rfl, fun its hr hb => (hserve hr (by simp) fun b h => ?_).trans rfl,
      fun per its hr hb => (hserve hr (by simp) fun b h => ?_).trans rfl, fun ids hr hb => (hserve hr (by simp) fun b h => ?_).trans rfl,
      fun op key v hr hb => (hserve hr (by simp) fun b h => ?_).trans rfl, fun hr => (hserve hr (by simp) fun b h => nomatch h).trans rfl,
      fun a n hr hb => (hserve hr (by simp) fun b h => ?_).trans rfl⟩ <;> exact Option.some.inj h ▸ hb
  · refine ⟨fun hrun => onUnit_lt_eq hp (State.authQuenchIn_off hu hrun), fun hrun h => onUnit_lt_eq hp (State.authQuenchIn_malformed hu hrun h),
      fun hrun ha hlen hk => onUnit_lt_eq hp ?_, fun k v hrun ha hlen hk hask => onUnit_lt_eq hp ?_⟩
    · rw [State.authQuenchIn_formed hu hrun ha hlen, hk]
    · rw [State.authQuenchIn_formed hu hrun ha hlen, hk]
      simp only [hask]
  · refine ⟨fun hrun => congrArg Host.Outcome.next (State.assistResultIn_off hu hrun),
      fun hrun h => congrArg Host.Outcome.next (State.assistResultIn_malformed hu hrun h), fun hrun ha hty hk => congrArg Host.Outcome.next ?_,
      fun hrun ha hty hk hask => congrArg Host.Outcome.next ?_, fun w y pt b x hrun ha hty hk hask ho hx hst hb hy => ?_⟩
    · rw [State.assistResultIn_formed hu hrun ha hty, hk]
    · rw [State.assistResultIn_formed hu hrun ha hty, hk]
      simp only [hask]
    · subst hx
      have hin : s.assistResultIn f = v.assistOpened k f := by
        rw [State.assistResultIn_formed hu hrun ha hty, hk]
        simp only [hask]
      have hopen := hin.trans (State.assistOpened_open ho hst hb hy)
      refine ⟨fun hkind hright hsess => congrArg Host.Outcome.next (hopen.trans (if_pos ⟨hkind, hright, hsess⟩)),
        fun h => congrArg Host.Outcome.next (hopen.trans (if_neg ?_))⟩
      rintro ⟨hkind, hright, hsess⟩
      exact h.elim (· hkind) (·.elim (fun hno => by simp [hno] at hright) (· hsess))
end Sys2Proof.Machine

/-!
Timers and commands of the tenant gate (R214, R221, R227, R228).
-/

namespace Sys2Proof.Machine

section
variable {s u : State} {k t d op : Nat} {ds : List Nat}

/-! Timers (R214, R227). -/

theorem State.idleOut_eq : s.idleOut k =
    if (s.sess k).state = sOpen then (s.advance ((s.sess k).lastReq + sec * (s.sess k).idleS)).expire k else s := rfl

theorem State.lifeOut_eq : s.lifeOut k =
    if (s.sess k).state = sOpen then (s.advance ((s.sess k).openedAt + 60 * sec * (s.sess k).lifeMin)).expire k else s := rfl

theorem State.expiredOut_eq : s.expiredOut k =
    if (s.sess k).state = sExpired then (s.advance ((s.sess k).since + 10 * sec)).freeSess k else s := rfl

theorem State.sess_setSess_same {x : Session} : (s.setSess k x).sess k = x := by
  simp [State.sess, State.setSess, State.syncSessions]

/-- An expired session keeps its slot and loses its subscriptions. -/
theorem State.expire_shown : ((s.expire k).sess k).state = sExpired ∧ ((s.expire k).sess k).since = s.now ∧
    (s.expire k).gate.subs = s.gate.subs.filter (·.slot != k) := by
  have hx : (s.expire k).sess k = { s.sess k with state := sExpired, since := s.now } :=
    State.sess_setSess_same (s := s) (x := { s.sess k with state := sExpired, since := s.now })
  exact ⟨by rw [hx], by rw [hx], rfl⟩

/-! Tenant commands and SLOT_CLOSE (R228). -/

/-- A tenant command that ends shows its tenant and operation, clears GO and raises TCMDDONE. -/
theorem State.tcmdDone_shown (ht : t < 256) (hop : op < 4) : (s.tcmdDone t op).rd R.GATE_TCMD.TENANT = t ∧
    (s.tcmdDone t op).rd R.GATE_TCMD.OP = op ∧ (s.tcmdDone t op).rd R.GATE_TCMD.GO = 0 ∧
    (s.tcmdDone t op).rd R.GATE_INTSTAT.TCMDDONE = 1 ∧ (s.tcmdDone t op).mem = s.mem ∧ (s.tcmdDone t op).gate = s.gate ∧
    ∀ a, a ≠ R.GATE_TCMD.addr → a ≠ R.GATE_INTSTAT.addr → (s.tcmdDone t op).reg a = s.reg a := by
  refine ⟨?_, ?_, ?_, State.rd_wr_same (by decide), rfl, rfl, fun a hcmd hint => ?_⟩
  · exact (State.rd_wr_ne (by decide)).trans ((State.rd_wr_apart (by decide) (by decide)).trans
      ((State.rd_wr_apart (by decide) (by decide)).trans ((State.rd_wr_same (by decide)).trans (Nat.mod_eq_of_lt ht))))
  · exact (State.rd_wr_ne (by decide)).trans ((State.rd_wr_apart (by decide) (by decide)).trans
      ((State.rd_wr_same (by decide)).trans (Nat.mod_eq_of_lt hop)))
  · exact (State.rd_wr_ne (by decide)).trans (State.rd_wr_same (by decide))
  · exact (State.reg_wr_ne hint).trans ((State.reg_wr_ne hcmd).trans ((State.reg_wr_ne hcmd).trans (State.reg_wr_ne hcmd)))

theorem State.closeSess_free (h : (s.sess k).state = sFree) : s.closeSess k = s := if_pos h

theorem State.closeSess_waits (h : (s.sess k).state ≠ sFree) (hw : s.gate.waits.any (·.slot == k) = true) :
    s.closeSess k = s.setSess k { s.sess k with closing := true } := (if_neg h).trans (if_pos hw)

theorem State.closeSess_idle (h : (s.sess k).state ≠ sFree) (hw : s.gate.waits.any (·.slot == k) = false) : s.closeSess k = s.freeSess k :=
  (if_neg h).trans (if_neg (by simp [hw]))

/-! Pushes (R221). -/

theorem State.pushDue_other (h : s.running .gate = false ∨ (s.sess k).state ≠ sOpen) : s.pushDue k = s := by
  unfold State.pushDue
  dsimp only
  split
  · rfl
  · exact if_pos (by simpa using h)

theorem State.pushDue_due (hrun : s.running .gate = true) (hst : (s.sess k).state = sOpen)
    (hdue : (s.gate.subs.filter (·.slot == k)).map (·.due) = d :: ds) (hu : u = s.advance (ds.foldl min d)) : s.pushDue k =
      State.runJob { u with gate := { u.gate with
          subs := u.gate.subs.map fun e => if e.slot == k && e.due ≤ u.now then { e with due := e.due + 10 * ms * e.per } else e } }
        { slot := k, typ := tySession, lane := laneEvent, reqid := 0, what := .push, masks := u.masksOf (u.sess k).tenant, todo := [] } false
        (((u.gate.subs.filter fun e => e.slot == k && e.due ≤ u.now).map (·.id)).map (bytesLE · 4)) := by
  rw [State.pushDue, hdue, hu]
  exact if_neg (by simp [hrun, hst])

end

/-- Settles O25, timer by timer and command by command. -/
theorem gateTimersAndCommands : Obligations.gate_timers_and_commands := by
  intro s
  refine ⟨fun k hk h => onUnit_lt_eq hk (if_pos h), fun k hk h => onUnit_lt_eq hk (if_neg h),
    fun k u hk h => ⟨fun hu => hu ▸ onUnit_lt_eq hk (State.idleOut_eq.trans (if_pos h)),
      fun hu => hu ▸ onUnit_lt_eq hk (State.lifeOut_eq.trans (if_pos h))⟩,
    fun k hk h => ⟨onUnit_lt_eq hk (State.idleOut_eq.trans (if_neg h)), onUnit_lt_eq hk (State.lifeOut_eq.trans (if_neg h))⟩,
    fun k => State.expire_shown, fun k hk h => onUnit_lt_eq hk (State.expiredOut_eq.trans (if_pos h)),
    fun k hk h => onUnit_lt_eq hk (State.expiredOut_eq.trans (if_neg h)),
    fun t ht => ⟨_, _, onUnit_lt ht _, rfl, State.tcmdDone_shown ht (by decide)⟩, fun t ht => onUnit_lt ht _,
    fun k hk => ?_, fun k hk h => onUnit_lt_eq hk (State.pushDue_other h),
    fun k d ds u hk hrun hst hdue hu => onUnit_lt_eq hk (State.pushDue_due hrun hst hdue hu)⟩
  subst hk
  exact ⟨fun h => congrArg Host.Outcome.next (State.closeSess_free h), fun h hw => congrArg Host.Outcome.next (State.closeSess_waits h hw),
    fun h hw => congrArg Host.Outcome.next (State.closeSess_idle h hw)⟩
end Sys2Proof.Machine

/-!
The metering engine: sample sets, crossings, checkpoints (R270 to R273, R293, R295), its commands (R13, R277, R292 to R302), and
the arithmetic of its registers (R284, R285).
-/

namespace Sys2Proof.Machine

section
variable {s u v w : State} {n r op arg : Nat} {m : MtrInput} {c : MtrCkpt} {x : Word}

/-! Rounds, crossings and checkpoints (R270 to R273, R293, R295). -/

theorem exec_sampleSetArrival_run (hrun : s.running .mtr = true) (hu : u = s.advance s.mtr.sampleAt) : exec (.sampleSetArrival m) s =
    .next (State.mtrRound { u with mtr := { u.mtr with sampleAt := u.now + 125 * us } } m) := by
  subst hu
  exact congrArg Host.Outcome.next (if_neg (by simp [hrun]))

theorem exec_checkpointTimer_run (hrun : s.running .mtr = true) (hu : u = s.advance s.mtr.ckptAt) : exec .checkpointTimer s =
    .next (State.ckptStart { u with mtr := { u.mtr with ckptAt := u.now + sec * u.rd R.MTR_CKPT_CFG.CKPT_S } }) := by
  subst hu
  exact congrArg Host.Outcome.next (if_neg (by simp [hrun]))

theorem exec_zcTimeout_other (h : s.running .mtr = false ∨ s.rd R.MTR_STAT.ZCSTATE = zcFallback) : exec .zcTimeout s = .next s := by
  refine congrArg Host.Outcome.next (if_pos ?_)
  rcases h with h | h <;> simp [h]

theorem exec_syntheticCrossing_other (h : s.running .mtr = false ∨ s.rd R.MTR_STAT.ZCSTATE ≠ zcFallback ∨
    s.mtr.fbSamples < s.synthAt (s.mtr.fbCount + 1)) : exec .syntheticCrossing s = .next s := by
  refine congrArg Host.Outcome.next (if_neg ?_)
  rcases h with h | h | h
  · simp [h]
  · simp [h]
  · simp [Nat.not_le.2 h]

section
variable (hc : s.mtr.ckpt = some c) (hu : u = ({ s with mtr := { s.mtr with ckpt := none } } : State).clear R.MTR_CKPT_CFG.BUSY)
include hc hu

/-- A checkpoint without a BAD register stands whole in its slot. -/
theorem State.ckptEnd_whole
    (hgood : ((List.range 384).find? fun r => (SMap.get (fun _ => ({} : MtrReg)) c.regs r).bad || (u.mreg r).bad) = none)
    (hv : v = ((u.write mEngine (u.ckptAddr c.slot) (withCrc (c.bytes ((List.range 12).map s.fdrElsb) 384))).wr
      R.MTR_CKPT_CFG.SLOT c.slot).wr R.MTR_CKPT_SEQ.CSEQ c.cseq) :
    s.ckptEnd = (({ v with mtr := { v.mtr with waits := [] } } : State).each v.mtr.waits State.mtrWaited).ckptNext := by
  simp only [State.ckptEnd, hc, ← hu, hgood, ← hv]

/-- One that meets a BAD register ends before it and halts the writer. -/
theorem State.ckptEnd_halted
    (hbad : ((List.range 384).find? fun r => (SMap.get (fun _ => ({} : MtrReg)) c.regs r).bad || (u.mreg r).bad) = some r)
    (hv : v = ((((u.write mEngine (u.ckptAddr c.slot) (c.bytes ((List.range 12).map s.fdrElsb) r)).wr R.MTR_CKPT_FREG.REG r).raise
      R.MTR_CKPT_CFG.HALT).raise R.MTR_INTSTAT.CKPTHALT).event 0x0807 (subj := r))
    (hw : w = (v.egressHalt 5 0 (Config.free32 v.fresh).toNat).taken) :
    s.ckptEnd = (({ w with mtr := { w.mtr with waits := [] } } : State).each w.mtr.waits State.mtrWaited).ckptNext := by
  simp only [State.ckptEnd, hc, ← hu, hbad, ← hv, ← hw]

end

/-! Commands (R13, R277, R292 to R302). -/

theorem State.mtrCmd_busy {f : State → State} (h : s.on R.MTR_CMD.GO = true) : s.mtrCmd op arg f = s := if_pos h

/-- A command starts from the state in which MTR_CMD shows its operation and argument. -/
theorem State.mtrCmd_idle {f : State → State} (h : s.on R.MTR_CMD.GO = false) (hu : u = (s.wr R.MTR_CMD.OP op).wr R.MTR_CMD.ARG arg) :
    s.mtrCmd op arg f = f u := by
  subst hu
  exact if_neg (by simp [h])

theorem State.rd_mtrArg (hn : n < 512) (hu : u = (s.wr R.MTR_CMD.OP op).wr R.MTR_CMD.ARG n) : u.rd R.MTR_CMD.ARG = n := by
  rw [hu, State.rd_wr_same (by decide)]
  exact Nat.mod_eq_of_lt hn

theorem State.meterClear_eq (hrun : u.running .mtr = true) (hn : 1 ≤ n) (hn' : n ≤ 12) : u.meterClear n =
    if u.mtr.ckpt.isSome then u.mtrHold (.clear (n - 1))
    else State.raise { u with mtr := { u.mtr with clearPend := u.mtr.clearPend ++ [n - 1] } } R.MTR_CMD.GO :=
  (if_neg (by simp [hrun])).trans (if_neg (by omega))

theorem State.meterCkpt_eq (hrun : u.mtrAwake = true) :
    u.meterCkpt = if u.mtr.ckpt.isSome then u.mtrHold .ckpt else u.ckptStart.mtrDone 0 := if_neg (by simp [hrun])

theorem State.meterRestore_eq (hrun : u.mtrAwake = true) (hn : n ≤ 383) : u.meterRestore n =
    if u.mtr.ckpt.isSome then u.mtrHold (.restore n) else u.restoreReg n := (if_neg (by simp [hrun])).trans (if_neg (by omega))

theorem State.meterCal_eq (hrun : u.running .mtr = true) (hn : n ≤ 39) : u.meterCal n =
    if u.mtr.calPend.isSome then u.mtrDone 4 else if u.badChannel 40 then u.mtrDone 2
    else State.mtrDone { u with mtr := { u.mtr with calPend := some n } } 0 := (if_neg (by simp [hrun])).trans (if_neg (by omega))

/-! The window on the engine memory (R300). -/

theorem State.mtrMdata_written (h : s.mtrWritable (s.rd R.MTR_MADDR.WADDR) = true) :
    s.mtrMdata x = (s.setMw (s.rd R.MTR_MADDR.WADDR) x).wr R.MTR_MADDR.WADDR (s.rd R.MTR_MADDR.WADDR + 1) :=
  congrArg (fun t : State => t.wr R.MTR_MADDR.WADDR (s.rd R.MTR_MADDR.WADDR + 1)) (if_pos h)

theorem State.mtrMdata_refused (h : s.mtrWritable (s.rd R.MTR_MADDR.WADDR) = false) :
    s.mtrMdata x = (s.raise R.MTR_INTSTAT.WRREJ).wr R.MTR_MADDR.WADDR (s.rd R.MTR_MADDR.WADDR + 1) :=
  congrArg (fun t : State => t.wr R.MTR_MADDR.WADDR (s.rd R.MTR_MADDR.WADDR + 1)) (if_neg (by simp [h]))

theorem State.mtrMdata_mem : (s.mtrMdata x).mem = s.mem := by
  cases h : s.mtrWritable (s.rd R.MTR_MADDR.WADDR)
  · rw [State.mtrMdata_refused h]
    exact State.wr_mem _ _ _
  · rw [State.mtrMdata_written h]
    exact State.wr_mem _ _ _

end

/-- Settles O27, command by command. -/
theorem meteringRounds : Obligations.metering_rounds := by
  intro s
  refine ⟨fun m h => ⟨congrArg Host.Outcome.next (if_pos (by simp [h])), exec_zcTimeout_other (.inl h), exec_syntheticCrossing_other (.inl h),
      congrArg Host.Outcome.next (if_pos (by simp [h]))⟩,
    fun m u hrun hu => exec_sampleSetArrival_run hrun hu, fun hrun hz => congrArg Host.Outcome.next (if_neg (by simp [hrun, hz])),
    fun hz => exec_zcTimeout_other (.inr hz), fun hrun hz hat => congrArg Host.Outcome.next (if_pos (by simp [hrun, hz, hat])),
    fun h => exec_syntheticCrossing_other (.inr h), fun u hrun hu => exec_checkpointTimer_run hrun hu, fun hc => congrArg Host.Outcome.next ?_,
    fun c u v hc hu hgood hv => congrArg Host.Outcome.next (State.ckptEnd_whole hc hu hgood hv),
    fun c u v w r hc hu hbad hv hw => congrArg Host.Outcome.next (State.ckptEnd_halted hc hu hbad hv hw)⟩
  rw [State.ckptEnd, hc]

/-- Settles O28, command by command along Table 8-19. -/
theorem meteringCommands : Obligations.metering_commands := by
  intro s
  refine ⟨fun n h => ⟨congrArg Host.Outcome.next (State.mtrCmd_busy h), congrArg Host.Outcome.next (State.mtrCmd_busy h),
      congrArg Host.Outcome.next (State.mtrCmd_busy h), congrArg Host.Outcome.next (State.mtrCmd_busy h)⟩,
    fun n u hn hgo hu => ?_, fun u hgo hu => ?_, fun n u hn hgo hu => ?_, fun n u hn hgo hu => ?_, fun x => ⟨_, rfl, ?_, State.mtrMdata_mem, ?_⟩⟩
  · have hcmd : exec (.meterClear n) s = .next (u.meterClear n) :=
      congrArg Host.Outcome.next ((State.mtrCmd_idle hgo hu).trans (by rw [State.rd_mtrArg hn hu]))
    rw [hcmd]
    refine ⟨fun hrun => congrArg Host.Outcome.next (if_pos (by simp [hrun])),
      fun hrun hbad => congrArg Host.Outcome.next ((if_neg (by simp [hrun])).trans (if_pos hbad)),
      fun hrun h1 h12 hck => congrArg Host.Outcome.next ((State.meterClear_eq hrun h1 h12).trans (if_neg (by simp [hck]))),
      fun hrun h1 h12 hck => congrArg Host.Outcome.next ((State.meterClear_eq hrun h1 h12).trans (if_pos (Option.isSome_iff_ne_none.2 hck)))⟩
  · have hcmd : exec .meterCkpt s = .next u.meterCkpt := congrArg Host.Outcome.next (State.mtrCmd_idle hgo hu)
    rw [hcmd]
    exact ⟨fun hrun => congrArg Host.Outcome.next (if_pos (by simp [hrun])),
      fun hrun hck => congrArg Host.Outcome.next ((State.meterCkpt_eq hrun).trans (if_neg (by simp [hck]))),
      fun hrun hck => congrArg Host.Outcome.next ((State.meterCkpt_eq hrun).trans (if_pos (Option.isSome_iff_ne_none.2 hck)))⟩
  · have hcmd : exec (.meterRestore n) s = .next (u.meterRestore n) :=
      congrArg Host.Outcome.next ((State.mtrCmd_idle hgo hu).trans (by rw [State.rd_mtrArg hn hu]))
    rw [hcmd]
    exact ⟨fun hrun => congrArg Host.Outcome.next (if_pos (by simp [hrun])),
      fun hrun hbad => congrArg Host.Outcome.next ((if_neg (by simp [hrun])).trans (if_pos hbad)),
      fun hrun hle hck => congrArg Host.Outcome.next ((State.meterRestore_eq hrun hle).trans (if_neg (by simp [hck]))),
      fun hrun hle hck => congrArg Host.Outcome.next ((State.meterRestore_eq hrun hle).trans (if_pos (Option.isSome_iff_ne_none.2 hck)))⟩
  · have hcmd : exec (.calapply n) s = .next (u.meterCal n) :=
      congrArg Host.Outcome.next ((State.mtrCmd_idle hgo hu).trans (by rw [State.rd_mtrArg hn hu]))
    rw [hcmd]
    exact ⟨fun hrun => congrArg Host.Outcome.next (if_pos (by simp [hrun])),
      fun hrun hbad => congrArg Host.Outcome.next ((if_neg (by simp [hrun])).trans (if_pos hbad)),
      fun hrun hle hp => congrArg Host.Outcome.next ((State.meterCal_eq hrun hle).trans (if_pos (Option.isSome_iff_ne_none.2 hp))),
      fun hrun hle hp hbad => congrArg Host.Outcome.next ((State.meterCal_eq hrun hle).trans ((if_neg (by simp [hp])).trans (if_pos hbad))),
      fun hrun hle hp hbad => congrArg Host.Outcome.next
        ((State.meterCal_eq hrun hle).trans ((if_neg (by simp [hp])).trans (if_neg (by simp [hbad]))))⟩
  · exact State.rd_wr_same (by decide)
  · refine ⟨fun hok a ha => ?_, fun hno => ?_⟩
    · rw [State.mtrMdata_written hok]
      exact State.reg_wr_ne ha
    · rw [State.mtrMdata_refused hno]
      exact ⟨rfl, (State.rd_wr_ne (by decide)).trans (State.rd_wr_same (by decide)), fun a ha hint => (State.reg_wr_ne ha).trans (State.reg_wr_ne hint)⟩

section
variable {x : MtrReg} {inc : Int}

/-! The arithmetic of a register (R284, R285). -/

theorem MtrReg.add_bad {net : Bool} (h : x.bad = true) : x.add net inc = (x, false) := if_pos h

theorem MtrReg.add_good (h : x.bad = false) : x.add false inc =
    ({ x with
       count := (((x.count : Int) + (x.resid + inc) / 2 ^ 32) % 2 ^ 48).toNat
       wrap := if 2 ^ 48 ≤ (x.count : Int) + (x.resid + inc) / 2 ^ 32 then (x.wrap + 1) % 256
         else if (x.count : Int) + (x.resid + inc) / 2 ^ 32 < 0 then (x.wrap + 255) % 256 else x.wrap
       resid := (x.resid + inc) % 2 ^ 32 },
     decide (2 ^ 48 ≤ (x.count : Int) + (x.resid + inc) / 2 ^ 32) || decide ((x.count : Int) + (x.resid + inc) / 2 ^ 32 < 0)) := by
  simp [MtrReg.add, h]

end

/-- Settles O29: the carry of the residue into COUNT loses nothing but whole turns of 2^48. -/
theorem energyRegisterExact : Obligations.energy_register_exact := by
  intro x inc
  refine ⟨MtrReg.add_bad, fun hgood hcount hres hres' => ?_⟩
  rw [MtrReg.add_good hgood]
  refine ⟨by dsimp only; omega, by dsimp only; omega, by dsimp only; omega, by dsimp only; omega, fun hno => ?_⟩
  simp only [Bool.or_eq_false_iff, decide_eq_false_iff_not] at hno
  obtain ⟨hwrap, hborrow⟩ := hno
  exact ⟨(if_neg hwrap).trans (if_neg hborrow), by dsimp only; omega⟩
end Sys2Proof.Machine

/-!
Digital inputs and counters (R305 to R311).
-/

namespace Sys2Proof.Machine

/-- A field of a word fits its own width. -/
theorem Fld.of_mod {f : Fld} {v : Word} : f.of v % 2 ^ f.w = f.of v := Nat.mod_mod _ _

/-- A command whose unit the module has ends in the state its meaning gives. -/
theorem onUnit_eq {b : Bool} (hb : b = true) {t u : State} (htu : t = u) : onUnit b t = .next u := htu ▸ onUnit_next hb t

/-- The same for a unit of a range of numbers. -/
theorem onUnit_range {lo n hi : Nat} (hlo : lo ≤ n) (hhi : n < hi) {t u : State} (htu : t = u) :
    onUnit (decide (lo ≤ n) && decide (n < hi)) t = .next u := onUnit_eq (by simp [hlo, hhi]) htu

theorem below_eq_nil {n : Nat} {p : Nat → Bool} (h : ∀ i, i < n → p i = false) : below n p = [] := by
  simpa [below, List.filter_eq_nil_iff] using h

section
variable {s u v : State} {l : BitVec 32} {ch k n : Nat} {w : Word} {up : Bool}

/-! Inputs and filters (R305, R306). -/

/-- New levels: the filters that accept in the cycle, then the channels without a filter; filtered levels that change count anew. -/
theorem State.diLevels_eq (hu : u = (if s.dio.edgeCycle = s.ioCycle then s.advance (10 * s.ioCycle) else s))
    (hv : v = u.each (below 32 fun ch => 8 ≤ ch && u.filterTime ch != 0 && l.getLsbD ch != u.dio.raw.getLsbD ch) (fun w ch =>
      { w with dio := { w.dio with since := SMap.set (fun _ => 0) w.dio.since ch w.now } })) :
    s.diLevels l = State.diStates { v with dio := { v.dio with raw := l, edgeCycle := u.ioCycle } }
      ((List.range 32).foldl (fun n ch => if 8 ≤ ch && u.filterTime ch != 0 then n else withBit n ch (l.getLsbD ch))
        (u.filtersDue.foldl (fun n ch => withBit n ch (u.dio.raw.getLsbD ch)) (u.rd R.DIO_DI_STATE.STATE))) := by
  subst hv hu
  rfl

/-- Without a filter at work the levels are the states at once. -/
theorem State.diLevels_unfiltered (hcycle : s.dio.edgeCycle ≠ s.ioCycle) (hflt : ∀ ch, ch < 32 → 8 ≤ ch → s.filterTime ch = 0) :
    s.diLevels l = State.diStates { s with dio := { s.dio with raw := l, edgeCycle := s.ioCycle } }
      ((List.range 32).foldl (fun n ch => withBit n ch (l.getLsbD ch)) (s.rd R.DIO_DI_STATE.STATE)) := by
  have hno (ch : Nat) (h : ch < 32) : (decide (8 ≤ ch) && s.filterTime ch != 0) = false := by
    by_cases h8 : 8 ≤ ch
    · simp [hflt ch h h8]
    · simp [h8]
  have hdue : s.filtersDue = [] := below_eq_nil fun ch h => by simp [hno ch h]
  have hrestart : (below 32 fun ch => 8 ≤ ch && s.filterTime ch != 0 && l.getLsbD ch != s.dio.raw.getLsbD ch) = [] :=
    below_eq_nil fun ch h => by simp [hno ch h]
  have hstates (n : Nat) : (List.range 32).foldl (fun n ch => if 8 ≤ ch && s.filterTime ch != 0 then n else withBit n ch (l.getLsbD ch)) n =
      (List.range 32).foldl (fun n ch => withBit n ch (l.getLsbD ch)) n :=
    List.foldl_ext _ _ _ fun m ch h => if_neg (by simp [hno ch (List.mem_range.1 h)])
  rw [State.diLevels_eq (if_neg hcycle).symm rfl, hrestart, hdue, hstates]
  rfl

theorem State.diAccept_held (hf : s.filterTime ch ≠ 0) (hl : s.dio.raw.getLsbD ch ≠ s.di ch)
    (hu : u = s.advance (SMap.get (fun _ => 0) s.dio.since ch + s.filterTime ch)) :
    s.diAccept ch = u.diStates (withBit (u.rd R.DIO_DI_STATE.STATE) ch (s.dio.raw.getLsbD ch)) := by
  subst hu
  exact if_pos ⟨hf, hl⟩

theorem State.diAccept_other (h : s.filterTime ch = 0 ∨ s.dio.raw.getLsbD ch = s.di ch) : s.diAccept ch = s := by
  refine if_neg ?_
  rcases h with h | h <;> simp [h]

theorem State.filterWrite_eq
    (hu : u = { (s.wr (R.DIO_FLT.FLT (ch - 8)) ((R.DIO_FLT.FLT (ch - 8)).of w)).wr (R.DIO_FLT.FUNIT (ch - 8)) ((R.DIO_FLT.FUNIT (ch - 8)).of w) with
      dio := { s.dio with since := SMap.set (fun _ => 0) s.dio.since ch s.now } }) :
    s.filterWrite ch w =
      if u.filterTime ch = 0 then u.diStates (withBit (u.rd R.DIO_DI_STATE.STATE) ch (u.dio.raw.getLsbD ch)) else u := by
  subst hu
  rfl

/-! Counters (R308 to R311). -/

/-- A count written with no edge counted in the cycle. -/
theorem State.setCount_quiet (h : ∀ up, (s.cnt k).step ≠ some (s.ioCycle, up)) : s.setCount k n = s.wr (R.DIO_CNT_VAL.VAL k) n := by
  simp only [State.setCount]
  split
  · next c up hstep =>
    refine if_neg fun hc => h up ?_
    have hcnt : (s.cnt k).step = some (c, up) := hstep
    rw [hcnt, hc]
    rfl
  · rfl

/-- An edge counted in the cycle counts after the count is written (R311). -/
theorem State.setCount_edge (h : (s.cnt k).step = some (s.ioCycle, up)) : s.setCount k n = (s.wr (R.DIO_CNT_VAL.VAL k) n).countOne k up := by
  have hstep : ((s.wr (R.DIO_CNT_VAL.VAL k) n).cnt k).step = some (s.ioCycle, up) := h
  simp only [State.setCount, hstep]
  exact if_pos rfl

theorem State.setCount_quiet_shown (h : ∀ up, (s.cnt k).step ≠ some (s.ioCycle, up)) (hn : n < 2 ^ 32) :
    (s.setCount k n).rd (R.DIO_CNT_VAL.VAL k) = n ∧ (s.setCount k n).mem = s.mem ∧ (s.setCount k n).dio = s.dio ∧
      ∀ a, a ≠ (R.DIO_CNT_VAL.VAL k).addr → (s.setCount k n).reg a = s.reg a := by
  rw [State.setCount_quiet h]
  exact ⟨(State.rd_wr_same (Fld.fits rfl)).trans (Nat.mod_eq_of_lt hn), rfl, rfl, fun a ha => State.reg_wr_ne ha⟩

theorem State.counterConfig_eq (hu : u =
      ((((s.wrIf ((R.DIO_CNT_CFG.MODE k).of w < 2 || ((R.DIO_CNT_CFG.MODE k).of w == 2 && k % 2 == 0)) (R.DIO_CNT_CFG.MODE k) ((R.DIO_CNT_CFG.MODE k).of w)).wrIf
      ((R.DIO_CNT_CFG.EDGE k).of w < 3) (R.DIO_CNT_CFG.EDGE k) ((R.DIO_CNT_CFG.EDGE k).of w)).wr (R.DIO_CNT_CFG.DIR k) ((R.DIO_CNT_CFG.DIR k).of w)).wrIf
      (1 ≤ (R.DIO_CNT_CFG.GATE_MS k).of w && (R.DIO_CNT_CFG.GATE_MS k).of w ≤ 1000) (R.DIO_CNT_CFG.GATE_MS k) ((R.DIO_CNT_CFG.GATE_MS k).of w)).wrIf
      (1 ≤ (R.DIO_CNT_CFG.ZERO k).of w) (R.DIO_CNT_CFG.ZERO k) ((R.DIO_CNT_CFG.ZERO k).of w)) : s.counterConfig k w =
    if u.rd (R.DIO_CNT_CFG.MODE k) ≠ s.rd (R.DIO_CNT_CFG.MODE k) then
      (((u.wr (R.DIO_CNT_VAL.VAL k) 0).wr (R.DIO_CNT_FREQ.FREQ k) 0).clear (R.DIO_CNT_STAT.FZERO k)).setCnt k
        { qerrAt := (s.cnt k).qerrAt, winEnd := s.mtNs }
    else if u.rd (R.DIO_CNT_CFG.GATE_MS k) ≠ s.rd (R.DIO_CNT_CFG.GATE_MS k) then u.setCnt k { u.cnt k with winEnd := s.mtNs }
    else u := by
  subst hu
  rfl

end

/-- Settles O30, command by command. -/
theorem inputsAndCounters : Obligations.inputs_and_counters := by
  intro s
  refine ⟨fun l hcycle hflt => congrArg Host.Outcome.next (State.diLevels_unfiltered hcycle hflt),
    fun l u v hu hv => congrArg Host.Outcome.next (State.diLevels_eq hu hv),
    fun ch u h8 h32 hf hl hu => onUnit_range h8 h32 (State.diAccept_held hf hl hu), fun ch h8 h32 h => onUnit_range h8 h32 (State.diAccept_other h),
    fun ch w u h8 h32 hu => ?_, fun k hk hm => onUnit_lt_eq hk (if_pos hm), fun k hk hm => onUnit_lt_eq hk (if_neg hm),
    fun k hk hstep => ⟨⟨_, onUnit_lt hk _, State.setCount_quiet_shown hstep (by decide)⟩,
      ⟨_, onUnit_lt hk _, State.setCount_quiet_shown hstep (State.rd_lt s (R.DIO_CNT_PRESET.PRESET k))⟩⟩,
    fun k up hk hstep => ⟨onUnit_lt_eq hk (State.setCount_edge hstep), onUnit_lt_eq hk (State.setCount_edge hstep)⟩,
    fun k w u hk hu => ?_⟩
  · have hraw : u.dio.raw = s.dio.raw := by rw [hu]
    have hwrite := State.filterWrite_eq hu
    rw [hraw] at hwrite
    exact ⟨fun hf => onUnit_range h8 h32 (hwrite.trans (if_neg hf)), fun hf => onUnit_range h8 h32 (hwrite.trans (if_pos hf))⟩
  · have hcfg := State.counterConfig_eq hu
    exact ⟨fun hm hg => onUnit_lt_eq hk (hcfg.trans ((if_neg (not_not.2 hm)).trans (if_neg (not_not.2 hg)))),
      fun hm hg => onUnit_lt_eq hk (hcfg.trans ((if_neg (not_not.2 hm)).trans (if_pos hg))),
      fun hm => onUnit_lt_eq hk (hcfg.trans (if_pos hm))⟩
end Sys2Proof.Machine

/-!
Output commands, the keep-alive and its supervisor, overcurrent and field supplies (R312 to R320, R334, R335, Table 9-3).
-/

namespace Sys2Proof.Machine

section
variable {s u v : State} {o : OutCh} {c g ch : Nat} {w : Word} {a b : Bool}

/-! Output commands (R315, R317, R318, Tables 9-9, 9-12). -/

theorem State.doResume_badChannel (h : o.ok = false) : s.doResume o = s.outCmdDone o.isAnalog (some o.ch) 1 ocBadch := if_pos (by simp [h])

theorem State.doResume_eq (h : o.ok = true) : s.doResume o =
    (s.resume o).outCmdDone o.isAnalog (some o.ch) 1 (if s.on (fOUTACT o.isAnalog) then ocOk else ocNoka) := if_neg (by simp [h])

theorem State.resume_silent (h : s.on (fOUTACT o.isAnalog) = false) : s.resume o = s := if_neg (by simp [h])

theorem State.reload_badChannel (h : o.ok = false) :
    s.reload o = s.outCmdDone o.isAnalog (some o.ch) (if o.isAnalog then 3 else 4) ocBadch := if_pos (by simp [h])

theorem State.reload_eq (h : o.ok = true) :
    s.reload o = (s.cfgFrame o false).outCmdDone o.isAnalog (some o.ch) (if o.isAnalog then 3 else 4) ocOk := if_neg (by simp [h])

/-! Configuration (R318, R335). -/

theorem exec_doConfigWrite_named (hok : o.ok = true) (hb : o.isAnalog = true ∨ b = false) (h : s.outConfig o b w = u) :
    exec (.doConfigWrite o b w) s = .next u := by
  refine onUnit_eq ?_ h
  rcases hb with hb | hb <;> simp [hok, hb]

theorem State.outConfig_digital (hl : s.locked = false)
    (hu : u = (s.wrIf (c < 8 || (R.DIO_DO_CFG.SAFE c).of w != 3) (R.DIO_DO_CFG.SAFE c) ((R.DIO_DO_CFG.SAFE c).of w)).wrIf
      (1 ≤ (R.DIO_DO_CFG.TMO c).of w) (R.DIO_DO_CFG.TMO c) ((R.DIO_DO_CFG.TMO c).of w)) :
    s.outConfig (.digital c) false w = if u.on R.DIO_CTRL.OUTEN then u.cfgFrame (.digital c) false else u := by
  subst hu
  exact if_neg (by simp [hl])

theorem State.outConfig_analog (hl : s.locked = false)
    (hu : u = (((s.wrIf ((R.AIO_AO_CFG.SAFE c).of w != 3) (R.AIO_AO_CFG.SAFE c) ((R.AIO_AO_CFG.SAFE c).of w)).wrIf
      (1 ≤ (R.AIO_AO_CFG.TMO c).of w) (R.AIO_AO_CFG.TMO c) ((R.AIO_AO_CFG.TMO c).of w)).wr (R.AIO_AO_CFG.SRC c) ((R.AIO_AO_CFG.SRC c).of w))) :
    s.outConfig (.analog c) false w = if u.on R.AIO_CTRL.OUTEN then u.cfgFrame (.analog c) false else u := by
  subst hu
  exact if_neg (by simp [hl])

theorem State.outConfig_safeCode (hl : s.locked = false) (hu : u = s.wr (R.AIO_AO_SAFECODE.CODE c) ((R.AIO_AO_SAFECODE.CODE c).of w)) :
    s.outConfig (.analog c) true w = if u.on R.AIO_CTRL.OUTEN then u.cfgFrame (.analog c) false else u := by
  subst hu
  exact if_neg (by simp [hl])

/-! The keep-alive and its supervisor (R316, R318 to R321). -/

theorem State.outEnable_off (h : s.on (fOUTEN a) = false) : s.outEnable a =
    ((((s.raise (fOUTEN a)).laneOn a).each (blockOuts a) fun v o => v.cfgFrame o true).kaUpdate) := if_neg (by simp [h])

theorem State.silence_live (hst : s.rd o.FSTATE = fsLive) (hact : s.on (fOUTACT o.isAnalog) = false)
    (hu : u = (s.advance ((s.out o).toggleAt + ms * (s.out o).timing + Config.freeNat s.fresh % (ms * (s.out o).timing / 10 + 1))).taken)
    (hv : v = (u.setFst o fsSafe).drive o) : s.silence o =
      if u.kickNext && u.on R.DIO_STAT.KASTOP && u.on (fOUTEN o.isAnalog) then u
      else if o.isAnalog then (v.raise R.AIO_INTSTAT.AOSAFE).event 0x0909 (unit := o.ch)
      else (v.raise R.DIO_INTSTAT.DOSAFE).event 0x0900 (unit := o.ch) := by
  subst hu hv
  exact if_pos ⟨hst, by simp [hact]⟩

theorem State.silence_other (h : s.rd o.FSTATE ≠ fsLive ∨ s.on (fOUTACT o.isAnalog) = true) : s.silence o = s := by
  refine if_neg ?_
  rcases h with h | h <;> simp [h]

theorem State.kickExpiry_due (hk : s.rd R.DIO_KA_CFG.KICK_MS ≠ 0) (hsusp : s.on R.DIO_STAT.KASUSP = false)
    (hstop : s.on R.DIO_STAT.KASTOP = false) (hu : u = s.advance (s.dio.kickFrom + ms * s.rd R.DIO_KA_CFG.KICK_MS)) :
    s.kickExpiry = if u.kickNext then u
      else ((((u.raise R.DIO_STAT.KASTOP).raise R.DIO_INTSTAT.KASTOP).bump R.DIO_CNT_KASTOP.COUNT).event 0x0904).kaUpdate := by
  subst hu
  exact if_pos ⟨hk, by simp [hsusp], by simp [hstop]⟩

theorem State.kickExpiry_other (h : s.rd R.DIO_KA_CFG.KICK_MS = 0 ∨ s.on R.DIO_STAT.KASUSP = true ∨ s.on R.DIO_STAT.KASTOP = true) :
    s.kickExpiry = s := by
  refine if_neg ?_
  rcases h with h | h | h <;> simp [h]

theorem State.kaCfg_discarded (h : s.locked = true ∨ 1000 < R.DIO_KA_CFG.KICK_MS.of w) : s.kaCfg w = s := if_pos (by simpa using h)

theorem State.kaCfg_written (hl : s.locked = false) (h : R.DIO_KA_CFG.KICK_MS.of w ≤ 1000) :
    s.kaCfg w = (s.wr R.DIO_KA_CFG.KICK_MS (R.DIO_KA_CFG.KICK_MS.of w)).kickNow := if_neg (by simp [hl, Nat.not_lt.2 h])

/-! Overcurrent and field supplies (R312, R315, R334). -/

theorem State.doTrip_trips (hst : s.rd (R.DIO_DO_STAT.FSTATE ch) ≠ fsNosupply) (hoc : s.on (R.DIO_DO_STAT.OC ch) = false) : s.doTrip ch =
    ((((s.raise (R.DIO_DO_STAT.OC ch)).drive (.digital ch)).raise R.DIO_INTSTAT.DOOC).bump R.DIO_CNT_OC.COUNT).event 0x0901 (unit := ch) :=
  if_neg (by simp [hst, hoc])

theorem State.fsFail_supplied (h : s.supplied g = true)
    (hu : u = (s.clear (fsOk g)).each (groupOuts g) (fun v o => (((v.setOutX o {}).clear o.OC).setFst o fsNosupply).drive o)) :
    s.fsFail g = (u.raise (if g = 4 then R.AIO_INTSTAT.FSFAIL else R.DIO_INTSTAT.FSFAIL)).event 0x0902 (unit := g) := by
  subst hu
  exact if_neg (by simp [h])

theorem State.fsReturn_unsupplied (h : s.supplied g = false)
    (hu : u = (s.raise (fsOk g)).each (groupOuts g) (fun v o => (v.setFst o fsDefault).drive o))
    (hv : v = (u.raise (if g = 4 then R.AIO_INTSTAT.FSRET else R.DIO_INTSTAT.FSRET)).event 0x0903 (unit := g)) :
    s.fsReturn g = if v.on (fOUTEN (g = 4)) then
        if (v.each (groupOuts g) fun x o => x.cfgFrame o false).on (fAUTORES (g = 4)) then
          (v.each (groupOuts g) fun x o => x.cfgFrame o false).each (groupOuts g) fun x o => x.resume o
        else v.each (groupOuts g) fun x o => x.cfgFrame o false
      else v := by
  subst hu hv
  refine (if_neg (by simp [h])).trans ?_
  simp only [decide_eq_true_eq]

end

/-- Settles O31, command by command along R314 to R320 and Table 9-3. -/
theorem outputsAndFieldSupplies : Obligations.outputs_and_field_supplies := by
  intro s
  refine ⟨fun o hn => ⟨fun h => onUnit_eq hn (State.doResume_badChannel h), fun h hact => ?_,
      fun h hact => ?_⟩,
    fun o h => State.resume_silent h, fun _ => rfl, fun ch => ⟨fun h24 h32 => onUnit_lt_eq h32 (if_pos h24), fun h24 => ?_⟩,
    fun o hn => ⟨fun h => onUnit_eq hn (State.reload_badChannel h),
      fun h => onUnit_eq hn (State.reload_eq h)⟩,
    fun a => ⟨fun h => congrArg Host.Outcome.next (if_pos h), fun h => congrArg Host.Outcome.next (State.outEnable_off h), rfl⟩,
    fun o b w hok hb hl => exec_doConfigWrite_named hok hb (if_pos hl),
    fun c w u hc hl hu => exec_doConfigWrite_named (decide_eq_true hc) (.inr rfl) (State.outConfig_digital hl hu),
    fun c w u hc hl hu => exec_doConfigWrite_named (decide_eq_true hc) (.inr rfl) (State.outConfig_analog hl hu),
    fun c w u hc hl hu => exec_doConfigWrite_named (decide_eq_true hc) (.inl rfl) (State.outConfig_safeCode hl hu),
    fun o u hok hst hact hu => ⟨fun hk => ?_, fun hk v hv => ?_⟩,
    fun o hok h => onUnit_eq hok (State.silence_other h), rfl,
    fun u hk hsusp hstop hu => ?_, fun h => congrArg Host.Outcome.next (State.kickExpiry_other h),
    fun w => ⟨fun h => congrArg Host.Outcome.next (State.kaCfg_discarded h), fun hl h => ?_⟩,
    fun ch hch h => onUnit_lt_eq hch (if_pos h), fun ch hch hst hoc => onUnit_lt_eq hch (State.doTrip_trips hst hoc),
    fun ch hch => ⟨fun h => onUnit_lt_eq hch (if_pos h), fun h => onUnit_lt_eq hch (if_neg h)⟩,
    fun g h1 h4 => ⟨fun h => ?_, fun h => ?_⟩, fun g u h1 h4 h hu => ?_, fun g u v h1 h4 h hu hv => ⟨fun hen => ?_, fun hen w hw => ?_⟩⟩
  · exact onUnit_eq hn ((State.doResume_eq h).trans (by simp [hact]))
  · exact onUnit_eq hn ((State.doResume_eq h).trans (by simp [hact]))
  · exact onUnit_lt_eq (by omega) (if_neg (by omega))
  · exact onUnit_eq hok ((State.silence_live hst hact hu rfl).trans (if_pos hk))
  · exact onUnit_eq hok ((State.silence_live hst hact hu hv).trans (if_neg (by simp [hk])))
  · have hdue := State.kickExpiry_due hk hsusp hstop hu
    exact ⟨fun hn => congrArg Host.Outcome.next (hdue.trans (if_pos hn)),
      fun hn => congrArg Host.Outcome.next (hdue.trans (if_neg (by simp [hn])))⟩
  · exact ⟨_, congrArg Host.Outcome.next (State.kaCfg_written hl h), (State.rd_wr_same (by decide)).trans Fld.of_mod, rfl, rfl,
      fun a ha => State.reg_wr_ne ha⟩
  · exact onUnit_eq (by simp [h1, h4]) (if_pos (by simp [h]))
  · exact onUnit_eq (by simp [h1, h4]) (if_pos h)
  · exact onUnit_eq (by simp [h1, h4]) (State.fsFail_supplied h hu)
  · exact onUnit_eq (by simp [h1, h4]) ((State.fsReturn_unsupplied h hu hv).trans (if_neg (by simp [hen])))
  · subst hw
    exact onUnit_eq (by simp [h1, h4]) ((State.fsReturn_unsupplied h hu hv).trans (if_pos hen))
end Sys2Proof.Machine

/-!
The reflex matrix (R323, R324, R326, R329) and the analog conversions (R331 to R333).
-/

namespace Sys2Proof.Machine

section
variable {s u v : State} {w r c i fc g : Nat} {x : Word} {asked good : List Nat} {m : AiResult}

/-! The reflex matrix (R323, R324). -/

theorem State.rfxArm_eq (hasked : asked = (List.range 32).filter (fun b => x.getLsbD b && !s.rfxArmed (32 * w + b)))
    (hgood : good = (asked.map (32 * w + ·)).filter s.rfxValid)
    (hu : u = s.rfxNoteArms.each good (fun s r => s.setBit (R.DIO_RFX_ARM.ARM (r / 32)) (r % 32) true)) :
    s.rfxArm w x = (if good.length < asked.length then u.raise R.DIO_INTSTAT.WRREJ else u).rfxActivate good := by
  subst hu hgood hasked
  rfl

theorem State.rfxNoteArms_dio :
    s.rfxNoteArms.dio = { s.dio with rfx := { s.rfxCycle with arms := some (s.rfxCycle.arms.getD s.rfxArms) } } := rfl

theorem State.rfxEnable_off (h : s.on R.DIO_CTRL.RFXEN = false) :
    s.rfxEnable = (s.raise R.DIO_CTRL.RFXEN).rfxActivate (below 64 s.rfxArmed) := if_neg (by simp [h])

theorem State.rfxConfig_disarmed (h : s.rfxArmed r = false) :
    s.rfxConfig r 0 x = s.setReg (R.DIO_RFX_CFG0.addr r) (x &&& 0x001FFFFF#32) ∧
      s.rfxConfig r 1 x = s.setReg (R.DIO_RFX_CFG1.addr r) (x &&& 0x0000FFFF#32) :=
  ⟨(if_neg (by simp [h])).trans (if_pos rfl), (if_neg (by simp [h])).trans (if_neg (by decide))⟩

theorem State.pulseEnd_none (h : s.pulse c = none) : s.pulseEnd c = s := by
  rw [State.pulseEnd, h]

theorem State.pulseEnd_due (h : s.pulse c = some i) (hu : u = s.advance i) :
    s.pulseEnd c = if u.bit R.DIO_DO_FMASK.FMASK c then u.setPulse c none else u.otherV c false := by
  rw [State.pulseEnd, h, hu]

/-! Analog conversions (R331 to R333). -/

/-- A conversion of an enabled channel: the result stored, then the entry to or the recovery from a fault condition. -/
theorem State.aiConversion_enabled (hen : s.on (R.AIO_AI_CFG.EN c) = true)
    (hu : u = s.advance ((s.ai c).convStart + convTime (s.rd (R.AIO_AI_CFG.CONV c)))) (hg : g = u.rd (R.AIO_AI_CFG.RANGE c))
    (hfc : fc = faultOf g m (u.on (R.AIO_AI_CFG.WBDIS c)) u.fresh)
    (hv : v = ((((((u.wr (R.AIO_AI_CNT.COUNT c) (u.rd (R.AIO_AI_CNT.COUNT c) + 1)).setReg (R.AIO_AI_ENG.addr c) (engOf g m.code u.fresh)).wr
      (R.AIO_AI_DATA.CODE c) m.code).wr (R.AIO_AI_DATA.RANGE c) g).wrb (R.AIO_AI_DATA.FAULT c) (fc != 0)).wr (R.AIO_AI_DATA.FCODE c) fc).taken)
    (w : State) (hw : w = (v.setAi c { done := true, endMt := some v.mtNs, convStart := v.now }).setBit R.AIO_STAT.AIFAULT c (fc != 0)) :
    s.aiConversion c m =
      if fc ≠ 0 ∧ !u.bit R.AIO_STAT.AIFAULT c then (w.raise R.AIO_INTSTAT.AIFAULT).event 0x0907 (unit := c)
      else if fc = 0 ∧ u.bit R.AIO_STAT.AIFAULT c then (w.raise R.AIO_INTSTAT.AIOK).event 0x0908 (unit := c)
      else w := by
  simp only [State.aiConversion, hen, Bool.not_true, Bool.false_eq_true, if_false, ← hu, ← hg, ← hfc, ← hv, ← hw]

theorem State.aiConfig_eq (hu : u = s.setReg (R.AIO_AI_CFG.addr c) (x &&& 0x3F#32)) : s.aiConfig c x =
    if s.reg (R.AIO_AI_CFG.addr c) &&& 0x1F#32 = x &&& 0x1F#32 then u else u.setAi c { s.ai c with done := false, convStart := s.now } := by
  subst hu
  rfl

end

/-- Settles O32, command by command. -/
theorem reflexRules : Obligations.reflex_rules := by
  intro s
  refine ⟨fun w x asked good u hw hasked hgood hu => onUnit_lt_eq hw (State.rfxArm_eq hasked hgood hu),
    fun w x hw => ⟨_, onUnit_lt hw _, State.reg_setReg_same _ _, rfl, fun a ha => State.reg_setReg_ne ha, State.rfxNoteArms_dio⟩,
    ⟨fun h => congrArg Host.Outcome.next (if_pos h), fun h => congrArg Host.Outcome.next (State.rfxEnable_off h), rfl⟩,
    fun r x hr => ⟨fun h w hw => onUnit_eq (by simp [hr, hw]) (if_pos h), fun h => ?_⟩,
    fun c hc => ⟨fun h => onUnit_lt_eq hc (State.pulseEnd_none h), fun i u h hu => ?_⟩⟩
  · obtain ⟨hzero, hone⟩ := State.rfxConfig_disarmed (x := x) h
    exact ⟨onUnit_eq (by simp [hr]) hzero, onUnit_eq (by simp [hr]) hone⟩
  · have hend := State.pulseEnd_due h hu
    exact ⟨fun hm => onUnit_lt_eq hc (hend.trans (if_pos hm)), fun hm => onUnit_lt_eq hc (hend.trans (if_neg (by simp [hm])))⟩

/-- Settles O33, by the fault condition before and after the conversion. -/
theorem analogInputs : Obligations.analog_inputs := by
  intro s
  refine ⟨fun c r hc hr hen => onUnit_eq (by simp [hc, hr]) (if_pos (by simp [hen])), fun c fc g r u v hc hr hen hu hg hfc hv => ?_,
    fun c x u hc hu => ⟨fun h => onUnit_lt_eq hc ((State.aiConfig_eq hu).trans (if_pos h)),
      fun h => onUnit_lt_eq hc ((State.aiConfig_eq hu).trans (if_neg h))⟩⟩
  have hconv := State.aiConversion_enabled hen hu hg hfc hv _ rfl
  have hbad (h : fc ≠ 0) : (fc != 0) = true := bne_iff_ne.2 h
  refine ⟨fun hz hwas => ⟨_, onUnit_eq (by simp [hc, hr]) (hconv.trans ?_), rfl⟩, fun hz hwas => ⟨_, onUnit_eq (by simp [hc, hr]) (hconv.trans ?_), rfl⟩,
    fun hz hwas => ⟨_, onUnit_eq (by simp [hc, hr]) (hconv.trans ?_), rfl⟩, fun hz hwas => ⟨_, onUnit_eq (by simp [hc, hr]) (hconv.trans ?_), rfl⟩⟩
  · simp [hz, hwas]
  · simp [hz, hwas, hbad hz]
  · simp [hz, hwas]
  · simp [hz, hwas, hbad hz]
end Sys2Proof.Machine

/-!
CAN transmission (R348 to R353, R362, R365).
-/

namespace Sys2Proof.Machine

section
variable {s u v : State} {c b w i d : Nat} {x : Word} {a : CanAttempt} {rest : List Instr}

/-! Cancels (R352, R353). -/

theorem State.cancelAt_apart (h : ∀ d rest, s.pending ≠ .canFrameStart d :: rest) : s.cancelAt c b = s.txCancel c b := by
  unfold State.cancelAt
  split
  · next d rest hp => exact absurd hp (h d rest)
  · rfl

theorem State.cancelAt_ownStart (hp : s.pending = .canFrameStart c :: rest) (hst : s.txst c b = txPending)
    (ha : ((s.canStartFrame c).canOf c).attempt.any (·.buf == b) = true) : s.cancelAt c b = s.raise (canCan c b) := by
  rw [State.cancelAt, hp]
  exact if_pos ⟨rfl, hst, ha⟩

/-! Starts (R348, R351). -/

theorem State.canStartFrame_blocked (h : s.canOnBus c = false ∨ s.running (canUnit c) = false ∨ s.on (R.CAN_STAT.TXHALT c) = true ∨
    s.on (R.CAN_CFG.LISTEN c) = true ∨ (s.canOf c).sleepPending = true ∨ (s.canOf c).attempt ≠ none ∨ s.winner c = none) :
    s.canStartFrame c = s := by
  by_cases hw : s.winner c = none
  · refine ite_keep (P := (· = s)) rfl ?_
    rw [hw]
  · refine if_pos ?_
    rcases h with h | h | h | h | h | h | h
    · simp [h]
    · simp [h]
    · simp [h]
    · simp [h]
    · simp [h]
    · simp [Option.isSome_iff_ne_none.2 h]
    · exact absurd h hw

section
variable (hbus : s.canOnBus c = true) (hrun : s.running (canUnit c) = true) (hhalt : s.on (R.CAN_STAT.TXHALT c) = false)
  (hlisten : s.on (R.CAN_CFG.LISTEN c) = false) (hsleep : (s.canOf c).sleepPending = false) (hnone : (s.canOf c).attempt = none)
  (hwin : s.winner c = some b)
include hbus hrun hhalt hlisten hsleep hnone hwin

/-- The buffer that wins starts, unless a word of it fails. -/
theorem State.canStartFrame_wins : s.canStartFrame c = match s.badTbWord c b with
    | some i => if i < 2 || Config.freeBit s.fresh then s.taken.txHalt c b i
      else (((s.taken.errorFrame c (s.rd (R.CAN_ERR.LEC c))).attemptFailed c b).tecUp c).txHalt c b i
    | none =>
      let s := s.setTxst c b txActive
      let s := s.setCanRam c (tbWord b + 2) (BitVec.ofNat 32 s.canTs)
      let (check, s) := s.dataCheck c b
      s.setCan c { s.canOf c with attempt := some { buf := b, check := check } } := by
  refine (if_neg (by simp [hbus, hrun, hhalt, hlisten, hsleep, hnone])).trans ?_
  rw [hwin] <;> rfl

theorem State.canStartFrame_starts {v : Option Nat} {w : State} (hgood : s.badTbWord c b = none)
    (hu : u = (s.setTxst c b txActive).setCanRam c (tbWord b + 2) (BitVec.ofNat 32 (s.setTxst c b txActive).canTs))
    (hcheck : u.dataCheck c b = (v, w)) :
    s.canStartFrame c = w.setCan c { w.canOf c with attempt := some { buf := b, check := v } } := by
  rw [State.canStartFrame_wins hbus hrun hhalt hlisten hsleep hnone hwin, hgood]
  simp only [← hu, hcheck]

theorem State.canStartFrame_halts (hbad : s.badTbWord c b = some i) (hi : i < 2) : s.canStartFrame c = s.taken.txHalt c b i := by
  rw [State.canStartFrame_wins hbus hrun hhalt hlisten hsleep hnone hwin, hbad]
  exact if_pos (by simp [hi])

end

/-! Ends of attempts (R349 to R352). -/

theorem State.canEndAttempt_none {r : CanEnd} (h : (s.canOf c).attempt = none) : s.canEndAttempt c r = s := by
  rw [State.canEndAttempt, h]

theorem State.canEndAttempt_some {r : CanEnd} (h : (s.canOf c).attempt = some a)
    (hu : u = s.setCan c { s.canOf c with attempt := none }) : s.canEndAttempt c r = match r with
      | .ok =>
        let t := (((u.bump (R.CAN_CNT_TXOK.COUNT c)).wr (R.CAN_ERR.TEC c)
          ((u.bump (R.CAN_CNT_TXOK.COUNT c)).rd (R.CAN_ERR.TEC c) - 1)).canErrState c).ackSeen c
        (if u.on (canCan c a.buf) then t.setTbStat c a.buf (putField (t.tbStat c a.buf) 3 1 1) else t).txEnd c a.buf txOk
      | .arbLost => (u.bump (R.CAN_CNT_ARBLOST.COUNT c)).attemptBack c a.buf
      | .noAck => u.ackError c a.buf
      | .error lec => (((u.errorFrame c lec).attemptFailed c a.buf).tecUp c).attemptBack c a.buf := by
  rw [State.canEndAttempt, h, hu] <;> cases r <;> rfl

end

/-- Settles O34, command by command. -/
theorem canTransmission : Obligations.can_transmission := by
  intro s c hc
  refine ⟨fun w x hw => ⟨onUnit_eq (by simp [hc, hw]) rfl, fun u hu => onUnit_eq (by simp [hc, hw]) (by rw [hu])⟩,
    fun b h => State.cancelAt_apart h, fun b rest hp hst ha => State.cancelAt_ownStart hp hst ha,
    fun h => onUnit_lt_eq hc (State.canStartFrame_blocked h),
    fun b u hbus hrun hhalt hlisten hsleep hnone hwin hgood hu v w hcheck =>
      onUnit_lt_eq hc (State.canStartFrame_starts hbus hrun hhalt hlisten hsleep hnone hwin hgood hu hcheck),
    fun b i hbus hrun hhalt hlisten hsleep hnone hwin hbad hi =>
      onUnit_lt_eq hc (State.canStartFrame_halts hbus hrun hhalt hlisten hsleep hnone hwin hbad hi),
    fun h r => onUnit_lt_eq hc (State.canEndAttempt_none h), fun a u h hu => ?_, fun u hu => onUnit_lt_eq hc (by rw [hu]),
    fun h => onUnit_lt_eq hc (if_neg (by simp [h])), fun h => onUnit_lt_eq hc (if_pos h)⟩
  have hend (r : CanEnd) := State.canEndAttempt_some (r := r) h hu
  refine ⟨onUnit_lt_eq hc (hend .arbLost), onUnit_lt_eq hc (hend .noAck), fun lec => onUnit_lt_eq hc (hend (.error lec)),
    fun hcan => onUnit_lt_eq hc ((hend .ok).trans ?_), fun hcan v hv => onUnit_lt_eq hc ((hend .ok).trans ?_)⟩
  · simp only [hcan, Bool.false_eq_true, if_false]
  · simp only [hcan, if_true, hv]
end Sys2Proof.Machine

/-!
CAN reception (R340, R345 to R357, R362, R368), and sleep, wake, bus-off recovery and time stamps (R361, R363, R366, R367).
-/

namespace Sys2Proof.Machine

section
variable {s u : State} {c b l k : Nat} {x : Word} {f : CanFrame} {e : CanWake}

/-! Frames and errors on the bus (R340, R354, R362). -/

theorem State.canRxErr_eq (hbus : s.canOnBus c = true) : s.canRxErr c l =
    if s.on (R.CAN_CFG.LISTEN c) then s.wr (R.CAN_ERR.LEC c) l
    else ((s.errorFrame c l).wr (R.CAN_ERR.REC c) (min 255 ((s.errorFrame c l).rd (R.CAN_ERR.REC c) + 1))).canErrState c :=
  if_neg (by simp [hbus])

theorem State.canReceive_formError (hbus : s.canOnBus c = true) (hfd : f.fdf = true) (hen : s.on (R.CAN_CFG.FDEN c) = false) :
    s.canReceive c f = s.canRxErr c 2 := (if_neg (by simp [hbus])).trans (if_pos (by simp [hfd, hen]))

theorem State.canReceive_good (hbus : s.canOnBus c = true) (h : f.fdf = false ∨ s.on (R.CAN_CFG.FDEN c) = true) :
    s.canReceive c f = (((s.bump (R.CAN_CNT_RXOK.COUNT c)).recDown c).ackSeen c).canFilterFrame c f :=
  (if_neg (by simp [hbus])).trans (if_neg (by rcases h with h | h <;> simp [h]))

theorem exec_canProtocolException_counted (hc : c < 4) (hbus : s.canOnBus c = true) (hen : s.on (R.CAN_CFG.FDEN c) = true)
    (hu : u = (((s.raise (R.CAN_STAT.INTEG c)).bump (R.CAN_CNT_PXE.COUNT c)).raise (R.CAN_INTSTAT.PXE c)).wr (R.CAN_ERR.LEC c) 7) :
    exec (.canProtocolException c) s = .next (if dueAgain (u.canOf c).pxeAt u.now sec then
      (u.setCan c { u.canOf c with pxeAt := some u.now }).event 0x0A08 (unit := c) else u) := by
  subst hu
  exact onUnit_lt_eq hc (if_pos (by simp [hbus, hen]))

theorem exec_canProtocolException_other (hc : c < 4) (h : s.canOnBus c = false ∨ s.on (R.CAN_CFG.FDEN c) = false) :
    exec (.canProtocolException c) s = .next s :=
  onUnit_lt_eq hc (if_neg (by rcases h with h | h <;> simp [h]))

/-! Locks (R357). -/

theorem exec_canLockTimeout_eq (hc : c < 4) : exec (.canLockTimeout c) s = .next (match (s.canOf c).lock with
    | none => s
    | some l => (((s.advance (l.since + ms)).rxUnlock c).clear (R.CAN_RXLOCK.LOCK c)).raise (R.CAN_INTSTAT.LOCKTO c)) := onUnit_lt hc _

/-! The window on the message RAM (R345, R347). -/

theorem State.canMdata_eq (hu : u = s.wr (R.CAN_MADDR.WADDR c) (s.rd (R.CAN_MADDR.WADDR c) + 1)) : s.canMdata c x =
    match u.canWriteMay c (s.rd (R.CAN_MADDR.WADDR c)) with
    | .done => u.setCanRam c (s.rd (R.CAN_MADDR.WADDR c)) x
    | .silent => u
    | .rejected => u.raise (R.CAN_INTSTAT.WRREJ c) := by
  subst hu
  rfl

/-- The address advances in every case, and memory stays as it is. -/
theorem State.canMdata_shown : (s.canMdata c x).rd (R.CAN_MADDR.WADDR c) = (s.rd (R.CAN_MADDR.WADDR c) + 1) % 2 ^ (R.CAN_MADDR.WADDR c).w ∧
    (s.canMdata c x).mem = s.mem := by
  have hrd : (s.wr (R.CAN_MADDR.WADDR c) (s.rd (R.CAN_MADDR.WADDR c) + 1)).rd (R.CAN_MADDR.WADDR c) =
      (s.rd (R.CAN_MADDR.WADDR c) + 1) % 2 ^ (R.CAN_MADDR.WADDR c).w := State.rd_wr_same (Fld.fits rfl)
  have hapart : (R.CAN_MADDR.WADDR c).addr ≠ (R.CAN_INTSTAT.WRREJ c).addr := by
    simp only [R.CAN_MADDR.WADDR, R.CAN_MADDR.addr, R.CAN_INTSTAT.WRREJ, R.CAN_INTSTAT.addr]
    omega
  rw [State.canMdata_eq rfl]
  split
  · exact ⟨hrd, by rw [State.setCanRam, State.setCan, State.wr_mem]⟩
  · exact ⟨hrd, by rw [State.wr_mem]⟩
  · exact ⟨(State.rd_wr_ne hapart).trans hrd, by rw [State.raise, State.wr_mem, State.wr_mem]⟩

/-! Commands of the controller (R363, R366, R367). -/

theorem canCmd_apart {g : Fld} (hg : g.addr = R.CAN_CMD.addr c) : g.addr ≠ (R.CAN_INTSTAT.CMDDONE c).addr := by
  simp only [hg, R.CAN_CMD.addr, R.CAN_INTSTAT.CMDDONE, R.CAN_INTSTAT.addr]
  omega

theorem State.canCmd_shown (r p : Nat) : (s.canCmd c p r).rd (R.CAN_CMD.OP c) = p % 2 ^ (R.CAN_CMD.OP c).w ∧
    (s.canCmd c p r).rd (R.CAN_CMD.RESULT c) = r % 2 ^ (R.CAN_CMD.RESULT c).w ∧ (s.canCmd c p r).on (R.CAN_INTSTAT.CMDDONE c) = true ∧
    (s.canCmd c p r).mem = s.mem ∧
    ∀ a, a ≠ (R.CAN_CMD.OP c).addr → a ≠ (R.CAN_INTSTAT.CMDDONE c).addr → (s.canCmd c p r).reg a = s.reg a := by
  refine ⟨?_, ?_, ?_, by rw [State.canCmd, State.raise, State.wr_mem, State.wr_mem, State.wr_mem], fun a hcmd hint => ?_⟩
  · exact (State.rd_wr_ne (canCmd_apart (g := R.CAN_CMD.OP c) rfl)).trans
      ((State.rd_wr_apart (Fld.fits rfl) (.inl (of_decide_eq_true rfl))).trans (State.rd_wr_same (Fld.fits rfl)))
  · exact (State.rd_wr_ne (canCmd_apart (g := R.CAN_CMD.RESULT c) rfl)).trans (State.rd_wr_same (Fld.fits rfl))
  · have hrd : (s.canCmd c p r).rd (R.CAN_INTSTAT.CMDDONE c) = 1 := State.rd_wr_same (Fld.fits rfl)
    simp [State.on, hrd]
  · exact (State.reg_wr_ne hint).trans ((State.reg_wr_ne (f := R.CAN_CMD.RESULT c) hcmd).trans (State.reg_wr_ne hcmd))

theorem exec_canWakeEvent_other (hc : c < 4) (h : s.wakeSource c e = none ∨ s.canSleeps c = false) : exec (.canWakeEvent c e) s = .next s := by
  refine onUnit_lt_eq hc ?_
  cases hk : s.wakeSource c e with
  | none => rfl
  | some k => exact if_neg (by simpa [hk] using h)

theorem exec_canWakeEvent_wakes (hc : c < 4) (hk : s.wakeSource c e = some k) (h : s.canSleeps c = true) :
    exec (.canWakeEvent c e) s = .next (s.canWakeUp c k) := by
  refine onUnit_lt_eq hc ?_
  rw [hk]
  exact if_pos h

/-- A completed recovery: error active, the error counters 0, integrated. -/
theorem State.recovered_shown (hu : u = ((((s.setCan c { s.canOf c with recovering := false }).clear (R.CAN_STAT.INTEG c)).wr (R.CAN_ERR.EST c) 0).wr
      (R.CAN_ERR.TEC c) 0).wr (R.CAN_ERR.REC c) 0) :
    u.rd (R.CAN_ERR.EST c) = 0 ∧ u.rd (R.CAN_ERR.TEC c) = 0 ∧ u.rd (R.CAN_ERR.REC c) = 0 ∧ u.mem = s.mem ∧
      ∀ a, a ≠ (R.CAN_ERR.EST c).addr → a ≠ (R.CAN_STAT.INTEG c).addr → u.reg a = s.reg a := by
  subst hu
  refine ⟨?_, ?_, State.rd_wr_same (Fld.fits rfl), ?_, fun a herr hstat => ?_⟩
  · exact (State.rd_wr_apart (Fld.fits rfl) (.inr (of_decide_eq_true rfl))).trans
      ((State.rd_wr_apart (Fld.fits rfl) (.inr (of_decide_eq_true rfl))).trans (State.rd_wr_same (Fld.fits rfl)))
  · exact (State.rd_wr_apart (Fld.fits rfl) (.inl (of_decide_eq_true rfl))).trans (State.rd_wr_same (Fld.fits rfl))
  · rw [State.wr_mem, State.wr_mem, State.wr_mem, State.clear, State.wr_mem, State.setCan]
  · exact (State.reg_wr_ne (f := R.CAN_ERR.REC c) herr).trans
      ((State.reg_wr_ne (f := R.CAN_ERR.TEC c) herr).trans ((State.reg_wr_ne herr).trans (State.reg_wr_ne hstat)))

end

/-- Settles O35, command by command. -/
theorem canReception : Obligations.can_reception := by
  intro s c hc
  refine ⟨fun hbus => ⟨fun f => onUnit_lt_eq hc (if_pos (by simp [hbus])), fun l => onUnit_lt_eq hc (if_pos (by simp [hbus])),
      exec_canProtocolException_other hc (.inl hbus)⟩,
    fun f hbus => ⟨fun hfd hen => onUnit_lt_eq hc (State.canReceive_formError hbus hfd hen),
      fun h => onUnit_lt_eq hc (State.canReceive_good hbus h)⟩,
    fun l hbus => ⟨fun h => onUnit_lt_eq hc ((State.canRxErr_eq hbus).trans (if_pos h)),
      fun h => onUnit_lt_eq hc ((State.canRxErr_eq hbus).trans (if_neg (by simp [h])))⟩,
    fun u hbus hen hu => exec_canProtocolException_counted hc hbus hen hu, fun hbus hen => exec_canProtocolException_other hc (.inr hen),
    fun b u hb hu => onUnit_eq (by simp [hc, hb]) (by rw [hu]), ⟨onUnit_lt_eq hc rfl, onUnit_lt_eq hc rfl⟩, ⟨fun h => ?_, fun l h => ?_⟩,
    fun w x hw => onUnit_eq (by simp [hc, hw]) rfl, fun x => ?_,
    fun h => onUnit_lt_eq hc (if_pos h), fun h => onUnit_lt_eq hc (if_neg (by simp [h]))⟩
  · rw [exec_canLockTimeout_eq hc, h]
  · rw [exec_canLockTimeout_eq hc, h]
  · obtain ⟨hrd, hmem⟩ := State.canMdata_shown (s := s) (c := c) (x := x)
    refine ⟨_, onUnit_lt hc _, hrd, hmem, fun u hu => ?_⟩
    have hdata := State.canMdata_eq (x := x) hu
    exact ⟨fun h => by rw [hdata, h], fun h => by rw [hdata, h], fun h => by rw [hdata, h]⟩

/-- Settles O36, command by command. -/
theorem canSleepAndRecovery : Obligations.can_sleep_and_recovery := by
  intro s c hc
  refine ⟨fun h => onUnit_lt_eq hc (if_pos (by simpa using h)), fun hrun hest => ⟨fun hm hd => ?_, fun h => ?_⟩,
    ⟨fun hp ha => onUnit_lt_eq hc (if_pos (by simp [hp, ha])), fun h => onUnit_lt_eq hc (if_neg ?_)⟩,
    ⟨fun hrun => onUnit_lt_eq hc (if_pos (by simp [hrun])), fun hrun h => onUnit_lt_eq hc ((if_neg (by simp [hrun])).trans (if_pos h)),
      fun hrun h => onUnit_lt_eq hc ((if_neg (by simp [hrun])).trans (if_neg (by simp [h])))⟩,
    fun e => ⟨fun h => exec_canWakeEvent_other hc h, fun k hk h => exec_canWakeEvent_wakes hc hk h⟩,
    ⟨fun h => onUnit_lt_eq hc (if_pos h), fun h => onUnit_lt_eq hc (if_neg h)⟩, fun r p => State.canCmd_shown r p,
    ⟨fun h => onUnit_lt_eq hc (if_neg (by simp [h])), fun h => ⟨_, _, onUnit_lt_eq hc (if_pos h), rfl, State.recovered_shown rfl⟩⟩,
    fun i u hi hu => onUnit_lt_eq hc (by rw [hu, hi])⟩
  · exact onUnit_lt_eq hc ((if_neg (by simp [hrun, hest])).trans (if_pos (by simp [hm, hd])))
  · refine onUnit_lt_eq hc ((if_neg (by simp [hrun, hest])).trans (if_neg ?_))
    rcases h with h | h
    · simp [h]
    · simp [Nat.not_lt.2 h]
  · rcases h with h | h
    · simp [h]
    · simp [h]
end Sys2Proof.Machine

/-!
Rewrites, scrub steps, leaky buckets, released egress channels and the spare-row map (R379, R386, R393 to R397).
-/

namespace Sys2Proof.Machine

section
variable {s q u v : State} {w k a e : Nat} {x : Word} {rest : List Nat}

/-! The rewrite queue (R379). -/

theorem State.rewriteNext_empty (h : s.integ.rewriteQ = []) : s.rewriteNext = s := by
  rw [State.rewriteNext, h]

theorem State.rewriteNext_oldest (h : s.integ.rewriteQ = w :: rest) (hu : u = { s with integ := { s.integ with rewriteQ := rest } }) :
    s.rewriteNext = if stripeWindow ≤ w ∧ w < stripeWindow + 65536 then u.rewriteStripe (w - stripeWindow)
      else if !(u.flaw w).poisoned && (u.flaw w).invalid != 0 && !(u.flaw w).tagOpen && u.lost w == 0 then u.rewriteRebuilt w else u := by
  subst hu
  unfold State.rewriteNext
  split
  next hnone => simp [h] at hnone
  next hsome =>
    obtain ⟨rfl, rfl⟩ := List.cons.inj (h.symm.trans hsome)
    rfl

/-! The sweeps (R394, R396, R397). -/

theorem exec_scrubStep_working (hw : s.working .mem = true) (hq : q = s.rewriteAll 16) (hk : k = q.rd R.MEM_DRS_POS.POS)
    (hu : u = (((q.each (List.range 16) fun v b => v.scrubWord k b (((List.range 16).map fun b => q.lost (rowWord k b)).getD b 0)).scrubStripe k).consistency
      k).repairStep) : exec .scrubStep s =
    .next (if k = 65535 then ((u.wr R.MEM_DRS_POS.POS (k + 1)).wrap R.MEM_DRS_SWEEPS.SWEEPS).raise R.MEM_INTSTAT.SWEEP
      else u.wr R.MEM_DRS_POS.POS (k + 1)) := by
  subst hq hk
  rw [hu]
  exact congrArg Host.Outcome.next (if_neg (by simp [hw]))

theorem exec_secdedScrub_run (hrun : s.running .mem = true) (hu : u = (s.readWord mDresser (0x09000000 / 8 + s.integ.secPos)).st) :
    exec .secdedScrub s = .next { u with integ := { u.integ with secPos := (s.integ.secPos + 1) % (0x880000 / 8) } } := by
  subst hu
  exact congrArg Host.Outcome.next (if_neg (by simp [hrun]))

theorem exec_dramScrubBurst_run (hrun : s.running .mem = true) (hen : s.on R.MEM_DRS_CFG.DRAMEN = true)
    (ha : a = (if s.dramLo ≤ s.rd R.MEM_DRS_DPOS.DPOS ∧ s.rd R.MEM_DRS_DPOS.DPOS < s.dramEnd then s.rd R.MEM_DRS_DPOS.DPOS / 64 * 64 else s.dramLo))
    (hv : v = s.each (List.range 8) (fun s i => s.scrubDram (wordOf a + i))) :
    exec .dramScrubBurst s = .next (v.wr R.MEM_DRS_DPOS.DPOS (if a + 64 < v.dramEnd then a + 64 else v.dramLo)) := by
  subst hv ha
  exact congrArg Host.Outcome.next (if_neg (by simp [hrun, hen]))

/-! Leaky buckets (R393). -/

theorem State.leak_shown (hu : u = s.wr (R.MEM_LB_STAT.LEVEL k) (s.rd (R.MEM_LB_STAT.LEVEL k) - 1)) :
    u.rd (R.MEM_LB_STAT.LEVEL k) = s.rd (R.MEM_LB_STAT.LEVEL k) - 1 ∧ u.mem = s.mem ∧
      u.rd (R.MEM_LB_STAT.OVF k) = s.rd (R.MEM_LB_STAT.OVF k) ∧ ∀ a, a ≠ (R.MEM_LB_STAT.LEVEL k).addr → u.reg a = s.reg a := by
  subst hu
  have hlevel : s.rd (R.MEM_LB_STAT.LEVEL k) < 2 ^ (R.MEM_LB_STAT.LEVEL k).w := State.rd_lt _ _
  exact ⟨(State.rd_wr_same (Fld.fits rfl)).trans (Nat.mod_eq_of_lt (Nat.lt_of_le_of_lt (Nat.sub_le _ _) hlevel)), State.wr_mem _ _ _,
    State.rd_wr_apart (Fld.fits rfl) (.inr (of_decide_eq_true rfl)), fun a ha => State.reg_wr_ne ha⟩

/-! The spare-row map (R397). -/

theorem State.smapWrite_refused (he : e = s.rd R.MEM_SMAP_ADDR.ENTRY)
    (h : s.rd UnitId.mem.STATE ≠ stOff ∨ (s.spare e).fuse = true ∨ 136 ≤ e) :
    s.smapWrite x = (s.raise R.MEM_INTSTAT.WRREJ).wr R.MEM_SMAP_ADDR.ENTRY (e + 1) := by
  subst he
  exact congrArg (fun t : State => t.wr R.MEM_SMAP_ADDR.ENTRY (s.rd R.MEM_SMAP_ADDR.ENTRY + 1)) (if_pos h)

/-- In OFF an entry that is not fused is stored; a row newly mapped holds free values. -/
theorem State.smapWrite_stored (he : e = s.rd R.MEM_SMAP_ADDR.ENTRY)
    (hu : u = s.setSpare e { row := getField x 0 9, valid := getField x 15 1 = 1 }) (hoff : s.rd UnitId.mem.STATE = stOff)
    (hfuse : (s.spare e).fuse = false) (h136 : e < 136) : s.smapWrite x =
      (if decide (getField x 15 1 = 1) && (!(s.spare e).valid || (s.spare e).row != getField x 0 9) then u.freshRow (e / 8) (getField x 0 9) else u).wr
        R.MEM_SMAP_ADDR.ENTRY (e + 1) := by
  subst hu he
  refine congrArg (fun t : State => t.wr R.MEM_SMAP_ADDR.ENTRY (s.rd R.MEM_SMAP_ADDR.ENTRY + 1)) (if_neg ?_)
  rintro (h | h | h)
  · exact h hoff
  · simp [hfuse] at h
  · omega

end

/-- Settles O37, command by command. -/
theorem scrubbingAndRepair : Obligations.scrubbing_and_repair := by
  intro s
  refine ⟨fun h => ⟨congrArg Host.Outcome.next (if_neg (by simp [h])), congrArg Host.Outcome.next (if_pos (by simp [h]))⟩,
    fun hrun hq => congrArg Host.Outcome.next ((if_pos hrun).trans (State.rewriteNext_empty hq)), fun w rest u hrun hq hu => ?_,
    fun h => congrArg Host.Outcome.next (if_pos (by simp [h])), fun k q u hw hq hk hu => ?_, fun u hrun hu => exec_secdedScrub_run hrun hu,
    fun h => congrArg Host.Outcome.next (if_pos (by simpa using h)), ?_, fun k hk => ⟨_, onUnit_lt hk _, State.leak_shown rfl⟩,
    ⟨fun h => congrArg Host.Outcome.next (if_pos (by simp [h])), fun h => congrArg Host.Outcome.next (if_neg (by simp [h]))⟩, rfl,
    fun x e u he hu => ⟨fun h => congrArg Host.Outcome.next (State.smapWrite_refused he h), fun hoff hfuse h136 h => ?_,
      fun hoff hfuse h136 hvalid h => ?_⟩⟩
  · have hnext : exec .rewriteQueueService s = .next _ :=
      congrArg Host.Outcome.next ((if_pos hrun).trans (State.rewriteNext_oldest hq hu))
    rw [hnext]
    refine ⟨fun hlo hhi => congrArg Host.Outcome.next (if_pos ⟨hlo, hhi⟩), fun hout hp hi ht hl => congrArg Host.Outcome.next ?_,
      fun hout h => congrArg Host.Outcome.next ?_⟩
    · refine (if_neg (by omega)).trans (if_pos ?_)
      simp only [Bool.and_eq_true, Bool.not_eq_true', bne_iff_ne, beq_iff_eq]
      exact ⟨⟨⟨hp, hi⟩, ht⟩, hl⟩
    · refine (if_neg (by omega)).trans (if_neg fun hgo => ?_)
      simp only [Bool.and_eq_true, Bool.not_eq_true', bne_iff_ne, beq_iff_eq] at hgo
      obtain ⟨⟨⟨hp, hi⟩, ht⟩, hl⟩ := hgo
      exact h.elim (by simp [hp]) (·.elim hi (·.elim (by simp [ht]) (absurd hl)))
  · have hstep := exec_scrubStep_working hw hq hk hu
    exact ⟨fun h => hstep.trans (congrArg Host.Outcome.next (if_neg h)), fun h => hstep.trans (congrArg Host.Outcome.next (if_pos h))⟩
  · rintro a u hrun hen rfl ha
    exact ⟨_, _, exec_dramScrubBurst_run hrun hen ha rfl, rfl, rfl⟩
  · rw [show exec (.smapWrite x) s = .next (s.smapWrite x) from rfl, State.smapWrite_stored he hu hoff hfuse h136, if_neg]
    rcases h with h | ⟨hvalid, hrow⟩
    · simp [h]
    · simp [hvalid, hrow]
  · rw [show exec (.smapWrite x) s = .next (s.smapWrite x) from rfl, State.smapWrite_stored he hu hoff hfuse h136, if_pos]
    simpa [hvalid] using h
end Sys2Proof.Machine

/-!
What a memory access, a posted event and a frame on its way out leave: every part of the state but registers, memory, its check states,
the free values, staging and the fabric.
-/

namespace Sys2Proof.Machine

/-- A part of the state that no memory access and no posted event changes. -/
structure KeptByMemory {β : Type} (get : State → β) : Prop where
  regs : ∀ (s : State) r, get { s with regs := r } = get s
  mem : ∀ (s : State) m, get { s with mem := m } = get s
  integ : ∀ (s : State) i, get { s with integ := i } = get s
  fresh : ∀ (s : State) n, get { s with fresh := n } = get s
  staging : ∀ (s : State) l d, get { s with evt := { s.evt with staging := l, dropped := d } } = get s

/-- One that no frame sent changes either. -/
structure KeptByFrames {β : Type} (get : State → β) : Prop extends KeptByMemory get where
  fab : ∀ (s : State) x, get { s with fab := x } = get s

section
variable {β : Type} {get : State → β} {s u : State} {a c i k m n p w : Nat} {l : BitVec 8} {f : Leat} {bs : List Byte}

/-- A fold keeps what each of its steps keeps. -/
theorem State.each_kept {α : Type} {xs : List α} {g : State → α → State} (hg : ∀ t x, ∃ u : State, g t x = u ∧ get u = get t) :
    get (s.each xs g) = get s :=
  State.each_keeps get (fun t x _ => (hg t x).elim fun _ hu => (congrArg get hu.1).trans hu.2) s

theorem State.ite_kept {q : Prop} [Decidable q] {x y : State} (hx : get x = get s) (hy : get y = get s) : get (if q then x else y) = get s :=
  ite_keep (P := fun t : State => get t = get s) hx hy

namespace KeptByMemory

variable (h : KeptByMemory get)
include h

theorem setReg {v : Word} : get (s.setReg a v) = get s := h.regs s _

theorem wr {g : Fld} : get (s.wr g n) = get s := h.setReg

theorem bump {g : Fld} : get (s.bump g) = get s := h.wr

theorem raise {g : Fld} : get (s.raise g) = get s := h.wr

theorem setFlaw {x : Flaw} : get (s.setFlaw w x) = get s := h.integ s _

theorem putBytes : get (s.putBytes a bs) = get s := h.mem s _

theorem taken : get (s.taken n) = get s := h.fresh s _

theorem post (r : EvtRec) : get (s.post r) = get s :=
  State.ite_kept (h.wr.trans (h.staging s _ _)) (h.raise.trans (h.bump.trans (h.staging s _ _)))

theorem event {code unit subj val1 val2 tenant extra : Nat} : get (s.event code unit subj val1 val2 tenant extra) = get s := h.post _

theorem corrected : get (s.corrected c) = get s := by
  simp only [State.corrected, apply_ite get, h.wr, h.bump, h.raise, h.event, ite_self]

theorem uncorrectable : get (s.uncorrectable m w c l) = get s := by
  simp only [State.uncorrectable, apply_ite get, h.wr, h.bump, h.raise, h.event, h.integ, ite_self]

theorem poison : get (s.poison m w l) = get s := h.uncorrectable.trans (State.ite_kept rfl h.setFlaw)

theorem queueRewrite : get (s.queueRewrite w) = get s := State.ite_kept (h.integ s _) h.bump

theorem readShared : get (s.readShared m w).st = get s := by
  simp only [State.readShared, apply_ite WordRead.st, apply_ite get, h.poison, h.queueRewrite, h.corrected, h.bump, ite_self]

theorem readSecded : get (s.readSecded m w).st = get s := by
  simp only [State.readSecded, apply_ite WordRead.st, apply_ite get, h.poison, h.corrected, State.putWord, State.putNum, h.putBytes, h.taken,
    h.setFlaw, ite_self]

theorem readDram : get (s.readDram m w).st = get s := by
  simp only [State.readDram, apply_ite WordRead.st, apply_ite get, h.poison, ite_self]

theorem readMram : get (s.readMram m w).st = get s := by
  simp only [State.readMram, apply_ite WordRead.st, apply_ite get, h.poison, h.corrected, ite_self]

theorem readWord : get (s.readWord m w).st = get s := by
  simp only [State.readWord, State.readRom, apply_ite WordRead.st, apply_ite get, h.readShared, h.readSecded, h.readDram, h.readMram, ite_self]

theorem settleRow : get (s.settleRow m k l) = get s := by
  simp only [State.settleRow, State.setSdiff, State.setSpar, h.integ]
  exact State.each_kept fun t b => ⟨_, rfl, h.poison⟩

theorem prepareShared : get (s.prepareShared m w) = get s := by
  simp only [State.prepareShared, apply_ite get, h.settleRow, h.corrected, h.bump, State.putWord, State.putNum, h.putBytes, h.setFlaw,
    State.setSdiff, h.integ, ite_self]

theorem prepareOther : get (s.prepareOther m w) = get s := State.ite_kept h.readWord rfl

theorem writeWord {o : Nat} : get (s.writeWord m w o bs) = get s := by
  simp only [State.writeWord, apply_ite get, h.setFlaw, h.putBytes, h.prepareShared, h.prepareOther, ite_self]

theorem writeWords : get (s.writeWords m a bs n) = get s := by
  induction n generalizing s a bs with
  | zero => rfl
  | succ n ih => simp only [State.writeWords, apply_ite get, ih, h.writeWord, ite_self]

theorem write : get (s.write m a bs) = get s := State.ite_kept rfl h.writeWords

theorem drawn : get (s.drawn n) = get s := h.wr.trans h.taken

end KeptByMemory

namespace KeptByFrames

variable (h : KeptByFrames get)
include h

theorem setPort {x : FabPort} : get (s.setPort p x) = get s := h.fab s _

theorem setLane {q : List FabQueued} : get (s.setLane p n q) = get s := h.fab s _

theorem enqueue : get (s.enqueue i p f) = get s := by
  simp only [State.enqueue]
  split
  · exact h.setLane
  · exact h.setLane
  · exact h.bump

theorem ctlPolice (hu : s.ctlPolice i p f = some u) : get u = get s := by
  simp only [State.ctlPolice] at hu
  split at hu
  · exact Option.some.inj hu ▸ rfl
  · split at hu
    · obtain ⟨_, -, rfl⟩ := Option.map_eq_some_iff.1 hu
      exact h.setPort
    · obtain ⟨_, -, rfl⟩ := Option.map_eq_some_iff.1 hu
      exact h.setPort

theorem leave : get (s.leave i p f) = get s := by
  unfold State.leave
  split
  · exact h.enqueue
  · split
    · next t ht => exact h.enqueue.trans (h.ctlPolice ht)
    · exact h.bump

theorem linkSend {ty : Nat} : get (s.linkSend p ty bs) = get s := h.leave.trans (h.fab s _)

theorem sendLsas {ls : List Lsa} : get (s.sendLsas p ls) = get s := by
  rw [State.sendLsas, h.setPort]
  exact State.each_kept fun t c => ⟨_, rfl, h.linkSend⟩

theorem showLsa : get (s.showLsa n) = get s := by
  unfold State.showLsa
  split
  · rfl
  · split
    · exact h.write
    · exact h.taken.trans h.write

theorem installLsa {x : Lsa} : get (s.installLsa n x) = get s := (h.fab _ _).trans (h.showLsa.trans (h.fab _ _))

theorem removeLsa : get (s.removeLsa n) = get s := State.ite_kept ((h.fab _ _).trans (h.showLsa.trans (h.fab _ _))) rfl

theorem flood {x : Lsa} : get (s.flood x) = get s := State.each_kept fun t p => ⟨_, rfl, h.sendLsas⟩

theorem originate {node state : Nat} {seq : Option Nat} : get (s.originate node state seq) = get s := by
  simp only [State.originate, h.fab, apply_ite get, h.removeLsa, h.installLsa, h.flood, ite_self]

theorem reoriginate : get s.reoriginate = get s := State.ite_kept h.originate (State.ite_kept h.originate rfl)

theorem leaveUp {to_ : Nat} {e : Bool} : get (s.leaveUp p to_ e) = get s := by
  simp only [State.leaveUp, apply_ite get, h.event, h.reoriginate, h.raise, h.setPort, h.wr, ite_self]

theorem newNonce : get (s.newNonce p) = get s := State.ite_kept (h.drawn.trans h.setPort) h.setPort

theorem sendKeyx {msg an : Nat} {x : BitVec 128} : get (s.sendKeyx p msg an x) = get s := State.ite_kept rfl h.linkSend

theorem keying : get (s.keying p) = get s := by
  rw [State.keying, State.offer, h.sendKeyx, h.setPort, h.newNonce, h.setPort, h.wr]

theorem pnExhausted : get (s.pnExhausted p) = get s := by
  rw [State.pnExhausted, h.keying, State.dropSa, h.setPort, h.leaveUp]

theorem dropSa : get (s.dropSa p) = get s := h.setPort

end KeptByFrames

end

/-- The key engine's own state is such a part. -/
theorem keptByFrames_key : KeptByFrames State.key := ⟨⟨fun _ _ => rfl, fun _ _ => rfl, fun _ _ => rfl, fun _ _ => rfl, fun _ _ _ => rfl⟩, fun _ _ => rfl⟩

/-- So is the recorder's tail queue. -/
theorem keptByFrames_tailQ : KeptByFrames fun s => s.evt.tailQ :=
  ⟨⟨fun _ _ => rfl, fun _ _ => rfl, fun _ _ => rfl, fun _ _ => rfl, fun _ _ _ => rfl⟩, fun _ _ => rfl⟩

end Sys2Proof.Machine

/-!
The command ring of the key engine (R416, R421): its operations, their completion, and the effects on the measurement (R417, R419).
-/

namespace Sys2Proof.Machine

section
variable {s u v : State} {a i k n x : Nat} {b : List Byte}

/-! Bytes in registers. -/

theorem natLE_lt : natLE b < 256 ^ b.length := by
  induction b with
  | nil => simp [natLE]
  | cons c b ih => simp only [natLE, List.length_cons, pow_succ]; omega

theorem bytesLE_natLE (h : b.length = n) : bytesLE (natLE b) n = b := by
  subst h
  induction b with
  | nil => rfl
  | cons c b ih =>
    have hlow : BitVec.ofNat 8 (c.toNat + 256 * natLE b) = c := BitVec.eq_of_toNat_eq (by simp; omega)
    have hhigh : (c.toNat + 256 * natLE b) / 256 = natLE b := by omega
    simp only [natLE, List.length_cons, bytesLE, hlow, hhigh, ih]

theorem flatMap_take_drop : ((List.range n).flatMap fun i => (b.drop (k * i)).take k) = b.take (k * n) := by
  induction n with
  | zero => simp
  | succ n ih => simp [List.range_succ, ih, Nat.mul_succ, List.take_add]

theorem State.reg_each_setReg {f : Nat → Word} (h : i < n) :
    (s.each (List.range n) fun s i => s.setReg (a + 4 * i) (f i)).reg (a + 4 * i) = f i := by
  induction n with
  | zero => omega
  | succ n ih =>
    simp only [State.each, List.range_succ, List.foldl_append, List.foldl_cons, List.foldl_nil] at ih ⊢
    by_cases hi : i = n
    · rw [hi, State.reg_setReg_same]
    · rw [State.reg_setReg_ne (by omega), ih (by omega)]

theorem State.setBytes32_reg (h : ∀ i < 8, x ≠ a + 4 * i) : (s.setBytes32 a b).reg x = s.reg x :=
  State.each_keeps (·.reg x) (fun _ i hi => State.reg_setReg_ne (h i (List.mem_range.1 hi))) s

theorem State.setBytes32_rd {f : Fld} (h : ∀ i < 8, f.addr ≠ a + 4 * i) : (s.setBytes32 a b).rd f = s.rd f := by
  rw [State.rd, State.setBytes32_reg h, ← State.rd]

theorem State.setBytes32_mem : (s.setBytes32 a b).mem = s.mem := State.each_keeps (f := fun s i => s.setReg (a + 4 * i) _) (·.mem) (fun _ _ _ => rfl) s

theorem State.bytes32_eq (h : ∀ i < 8, u.reg (a + 4 * i) = s.reg (a + 4 * i)) : u.bytes32 a = s.bytes32 a :=
  List.flatMap_congr fun i hi => by rw [h i (List.mem_range.1 hi)]

/-- What 32 bytes were set to is read back. -/
theorem State.bytes32_setBytes32 (hb : b.length = 32) : (s.setBytes32 a b).bytes32 a = b := by
  have hpart : ∀ i ∈ List.range 8, bytesLE ((s.setBytes32 a b).reg (a + 4 * i)).toNat 4 = (b.drop (4 * i)).take 4 := by
    intro i hi
    have hi8 : i < 8 := List.mem_range.1 hi
    have hlen : ((b.drop (4 * i)).take 4).length = 4 := by simp; omega
    have hlt := natLE_lt (b := (b.drop (4 * i)).take 4)
    rw [hlen, show 256 ^ 4 = 2 ^ 32 from rfl] at hlt
    rw [State.setBytes32, State.reg_each_setReg hi8, numAt, BitVec.toNat_ofNat, Nat.mod_eq_of_lt hlt, bytesLE_natLE hlen]
  rw [State.bytes32, List.flatMap_congr hpart, flatMap_take_drop, List.take_of_length_le (by omega)]

/-! The length of a digest. -/

theorem shaRound_length (w : List Word) (kw : Word × Word) : (shaRound w kw).length = w.length := by
  unfold shaRound
  split <;> rfl

theorem shaBlock_length {h : List Word} (hh : h.length = 8) (blk : List Byte) : (shaBlock h blk).length = 8 := by
  have hround : ∀ l : List (Word × Word), (l.foldl shaRound h).length = 8 := fun l =>
    foldl_keep (P := fun w : List Word => w.length = 8) (fun w kw hw => (shaRound_length w kw).trans hw) hh
  simp [shaBlock, hround, hh]

theorem sha256_length (m : List Byte) : (sha256 m).length = 32 := by
  have hblocks : (shaBlocks shaInit (m ++ shaPad m.length)).length = 8 :=
    foldl_keep (P := fun w : List Word => w.length = 8) (fun _ blk hw => shaBlock_length hw blk) rfl
  simp [sha256, shaBytes, bytesBE, List.length_flatMap, hblocks]

/-! The effects of EXTEND, DECLARE and ADOPT (R417, R419). -/

theorem keyMeas_ne_mstat {i : Nat} (h : i < 8) : R.KEY_MSTAT.addr ≠ R.KEY_MEAS.addr 0 + 4 * i := by
  simp only [R.KEY_MSTAT.addr, R.KEY_MEAS.addr]; omega

theorem keySucc_ne_mstat {i : Nat} (h : i < 8) : R.KEY_MSTAT.addr ≠ R.KEY_SUCC.addr 0 + 4 * i := by
  simp only [R.KEY_MSTAT.addr, R.KEY_SUCC.addr]; omega

theorem keyMeas_ne_keySucc {i j : Nat} (hi : i < 8) : R.KEY_MEAS.addr 0 + 4 * i ≠ R.KEY_SUCC.addr 0 + 4 * j := by
  simp only [R.KEY_MEAS.addr, R.KEY_SUCC.addr]; omega

/-- A write of KEY_MSTAT leaves M and KEY_SUCC. -/
theorem State.wr_mstat_measM {f : Fld} (hf : f.addr = R.KEY_MSTAT.addr) : (s.wr f n).measM = s.measM :=
  State.bytes32_eq fun _ hi => State.reg_wr_ne (hf ▸ (keyMeas_ne_mstat hi).symm)

theorem State.wr_mstat_measSucc {f : Fld} (hf : f.addr = R.KEY_MSTAT.addr) : (s.wr f n).measSucc = s.measSucc :=
  State.bytes32_eq fun _ hi => State.reg_wr_ne (hf ▸ (keySucc_ne_mstat hi).symm)

theorem State.keyEffect_measure (m : BitVec 256) :
    (s.keyEffect (.measure m)).measM = sha256 (s.measM ++ bytesLE m.toNat 32) ∧ (s.keyEffect (.measure m)).mem = s.mem ∧
      (s.keyEffect (.measure m)).rd R.KEY_MSTAT.EXTENDS = min (s.rd R.KEY_MSTAT.EXTENDS + 1) (2 ^ R.KEY_MSTAT.EXTENDS.w - 1) := by
  refine ⟨(State.wr_mstat_measM rfl).trans (State.bytes32_setBytes32 (sha256_length _)), (State.wr_mem _ _ _).trans State.setBytes32_mem, ?_⟩
  rw [State.keyEffect, State.extendM, State.rd_bump_same (Fld.fits rfl), State.setBytes32_rd fun _ hi => keyMeas_ne_mstat hi]

theorem State.keyEffect_declare (m : BitVec 256) :
    (s.keyEffect (.declare m)).measSucc = bytesLE m.toNat 32 ∧ (s.keyEffect (.declare m)).rd R.KEY_MSTAT.SUCCV = 1 ∧
      (s.keyEffect (.declare m)).measM = s.measM :=
  ⟨(State.wr_mstat_measSucc rfl).trans (State.bytes32_setBytes32 (bytesLE_length _ _)), State.rd_wr_same (Fld.fits rfl),
    (State.wr_mstat_measM rfl).trans (State.bytes32_eq fun _ hi => State.setBytes32_reg fun _ _ => keyMeas_ne_keySucc hi)⟩

theorem State.measSucc_length : s.measSucc.length = 32 := by simp [State.measSucc, State.bytes32, List.length_flatMap]

theorem State.keyEffect_adopt :
    (s.keyEffect .adopt).measM = s.measSucc ∧ (s.keyEffect .adopt).rd R.KEY_MSTAT.SUCCV = 0 ∧ (s.keyEffect .adopt).rd R.KEY_MSTAT.ADOPTED = 1 := by
  have hevent : ∀ {t : State} {f : Fld}, f.addr = R.KEY_MSTAT.addr → (t.event 0x0C08).rd f = t.rd f := fun hf =>
    State.event_rd _ (hf ▸ of_decide_eq_true rfl) (hf ▸ of_decide_eq_true rfl) (hf ▸ of_decide_eq_true rfl)
  refine ⟨?_, ?_, ?_⟩
  · calc (s.keyEffect .adopt).measM
      _ = (((s.setBytes32 (R.KEY_MEAS.addr 0) s.measSucc).clear R.KEY_MSTAT.SUCCV).raise R.KEY_MSTAT.ADOPTED).measM :=
        State.bytes32_eq fun i hi => State.event_reg _ (by simp only [R.KEY_MEAS.addr, R.EVT_STAGE.addr]; omega)
          (by simp only [R.KEY_MEAS.addr, R.EVT_CNT_DROP.addr]; omega) (by simp only [R.KEY_MEAS.addr, R.EVT_INTSTAT.addr]; omega)
      _ = (s.setBytes32 (R.KEY_MEAS.addr 0) s.measSucc).measM := (State.wr_mstat_measM rfl).trans (State.wr_mstat_measM rfl)
      _ = s.measSucc := State.bytes32_setBytes32 State.measSucc_length
  · exact (hevent rfl).trans ((State.rd_wr_apart (Fld.fits rfl) (.inl (of_decide_eq_true rfl))).trans (State.rd_wr_same (Fld.fits rfl)))
  · exact (hevent rfl).trans (State.rd_wr_same (Fld.fits rfl))

/-! The operations of Table 12-8 at the ring's front (R416, R421). -/

/-- Each command of the ring with its OP and its operation. -/
def keyOps : List (Instr × Nat × (KeyDesc → State → KeyRes)) :=
  [(.keyHash, 1, opHash), (.keyHmac, 2, opHmac), (.keyKdf, 3, opKdf), (.keyGcmEnc, 4, opGcmEnc), (.keyGcmDec, 5, opGcmDec), (.keySign, 6, opSign),
    (.keyVerify, 7, opVerify), (.keyEcdh, 8, opEcdh), (.keyKeygen, 9, opKeygen), (.keyPubkey, 10, opPubkey), (.keyRandom, 11, opRandom),
    (.keyWrap, 12, opWrap), (.keyUnwrap, 13, opUnwrap), (.keySeal, 14, opSeal), (.keyUnseal, 15, opUnseal), (.keyReseal, 16, opReseal),
    (.keyImport, 17, opImport), (.keyExtend, 18, opExtend), (.keyDeclare, 19, opDeclare), (.keyAdopt, 20, opAdopt), (.keySetpol, 21, opSetpol)]

theorem exec_keyOps : ∀ p ∈ keyOps, exec p.1 s = .next (s.keyOp p.2.1 p.2.2) := by
  simp only [keyOps, List.forall_mem_cons, List.not_mem_nil, false_imp_iff, implies_true, and_true]
  exact ⟨rfl, rfl, rfl, rfl, rfl, rfl, rfl, rfl, rfl, rfl, rfl, rfl, rfl, rfl, rfl, rfl, rfl, rfl, rfl, rfl, rfl⟩

theorem State.keyOp_notReady {op : Nat} {f : KeyDesc → State → KeyRes} (h : s.cqReady = false) : s.keyOp op f = s := if_pos (by simp [h])

/-- A front descriptor that cannot be read, is not owned or carries another OP is left to the ring's walk. -/
theorem State.keyOp_left {op : Nat} {f : KeyDesc → State → KeyRes} {r : Fetched} (hready : s.cqReady = true)
    (hr : r = s.fetch mEngine (s.cqAddr (s.rd R.KEY_CQHEAD.HEAD)) 64)
    (h : r.poison ≠ none ∨ numAt r.bytes 39 1 % 2 = 0 ∨ (KeyDesc.ofBytes r.bytes).op ≠ op) : s.keyOp op f = r.st.cqFront := by
  subst hr
  refine (if_neg (by simp [hready])).trans (if_pos ?_)
  simpa [Option.isSome_iff_ne_none, or_assoc] using h

theorem State.keyOp_enters {op : Nat} {f : KeyDesc → State → KeyRes} {r : Fetched} {x : KeyRes} {y : KeyInside} (hready : s.cqReady = true)
    (hr : r = s.fetch mEngine (s.cqAddr (s.rd R.KEY_CQHEAD.HEAD)) 64) (hread : r.poison = none) (hown : numAt r.bytes 39 1 % 2 = 1)
    (hop : (KeyDesc.ofBytes r.bytes).op = op) (hx : x = f (KeyDesc.ofBytes r.bytes) r.st)
    (hy : y = { seq := s.rd R.KEY_CQHEAD.HEAD, keys := x.keys, status := x.status, dst := (KeyDesc.ofBytes r.bytes).dst
                out := if x.status = ksOk then x.out else [], effect := if x.status = ksOk then x.effect else .none, rng := x.rng }) :
    s.keyOp op f = ({ x.st with key := { x.st.key with inside := some y } } : State).raise R.KEY_STAT.BUSY := by
  subst hy hx hr
  exact (if_neg (by simp [hready])).trans (if_neg (by simp [hread, hown, hop]))

/-! Completion (R416, R419, R421). -/

theorem State.keyEnds_same {y : KeyInside} (h : y.effect ≠ .adopt ∨ s.heldForSwitch = true) : s.keyEnds y = y :=
  if_neg (by rcases h with h | h <;> simp [h])

theorem State.keyEnds_notHeld {y : KeyInside} (h : y.effect = .adopt) (hheld : s.heldForSwitch = false) :
    s.keyEnds y = { y with status := ksNotHeld, effect := .none } := if_pos ⟨h, by simp [hheld]⟩

section
variable {y z : KeyInside} (hin : s.key.inside = some y) (hz : z = s.keyEnds y)
  (hu : u = ({ s with key := { s.key with inside := none } } : State).clear R.KEY_STAT.BUSY)
include hin hz hu

theorem State.keyDone_failed (hok : z.status ≠ ksOk) (hstale : z.status ≠ ksStaleGen) : s.keyDone = (u.cqEnd z.seq z.status none 0).cqFront := by
  have hgood : (z.status == ksOk || z.status == ksStaleGen) = false := by simp [hok, hstale]
  simp only [State.keyDone, hin, ← hz, ← hu, hgood, Bool.false_eq_true, if_false]

variable (hgood : z.status = ksOk ∨ z.status = ksStaleGen) (hv : v = (u.write mEngine z.dst z.out).keyEffect z.effect)
include hgood hv

theorem State.keyDone_written (hslot : ∀ n x, z.effect ≠ .slot n x) : s.keyDone = (v.cqEnd z.seq z.status none z.out.length).cqFront := by
  have hgood' : (z.status == ksOk || z.status == ksStaleGen) = true := by simpa using hgood
  simp only [State.keyDone, hin, ← hz, ← hu, hgood', if_true, ← hv]

theorem State.keyDone_slot {x : KeySlot} (hslot : z.effect = .slot n x) : s.keyDone = (v.cqEnd z.seq z.status (some n) z.out.length).cqFront := by
  have hgood' : (z.status == ksOk || z.status == ksStaleGen) = true := by simpa using hgood
  simp only [State.keyDone, hin, ← hz, ← hu, hgood', if_true, ← hv]
  rw [hslot]

end

end

/-- Settles O40: the command ring, its operations and their completion. -/
theorem keyRingOperations : Obligations.key_ring_operations := by
  intro s
  refine ⟨fun v h => congrArg Host.Outcome.next (if_pos h), ?_, fun h c hc => ?_, fun r hready hr hread hown p hp x y hop hx hy => ?_,
    fun h => congrArg Host.Outcome.next (if_neg (by simp [h])), fun hw hin => ?_, fun r hready hr p hp h => ?_,
    fun x => ⟨State.keyEnds_same, State.keyEnds_notHeld⟩, fun x i u v hw hin hi hu hv => ?_,
    fun d h => ⟨congrArg KeyRes.status (if_pos h), congrArg KeyRes.st (if_pos h), congrArg KeyRes.status (if_pos h), congrArg KeyRes.st (if_pos h)⟩,
    fun d => ⟨fun h => congrArg KeyRes.status (if_pos (by simp [h])), fun h hs => ?_, fun h hs => ?_⟩,
    State.keyEffect_measure, State.keyEffect_declare, State.keyEffect_adopt⟩
  · rintro v u h rfl
    exact congrArg Host.Outcome.next (if_neg (Nat.not_lt.2 h))
  · obtain ⟨p, hp, rfl⟩ := List.mem_map.1 (show c ∈ keyOps.map (·.1) from hc)
    exact (exec_keyOps p hp).trans (congrArg Host.Outcome.next (State.keyOp_notReady h))
  · exact (exec_keyOps p hp).trans (congrArg Host.Outcome.next (State.keyOp_enters hready hr hread hown hop hx hy))
  · refine congrArg Host.Outcome.next ((if_pos hw).trans ?_)
    rw [State.keyDone, hin]
  · obtain ⟨p, hop, rfl⟩ := List.mem_map.1 (show p ∈ keyOps.map fun p => (p.1, p.2.1) from hp)
    exact (exec_keyOps p hop).trans (congrArg Host.Outcome.next (State.keyOp_left hready hr h))
  · have hdone : exec .keyOpComplete s = .next s.keyDone := congrArg Host.Outcome.next (if_pos hw)
    exact ⟨fun hok hstale => hdone.trans (congrArg Host.Outcome.next (State.keyDone_failed hin hi hu hok hstale)),
      fun hgood hslot => hdone.trans (congrArg Host.Outcome.next (State.keyDone_written hin hi hu hgood hv hslot)),
      fun n y hgood hslot => hdone.trans (congrArg Host.Outcome.next (State.keyDone_slot hin hi hu hgood hv hslot))⟩
  · exact congrArg KeyRes.status ((if_neg (by simp [h])).trans (if_pos (by simp [hs])))
  · have hadopt : opAdopt d s = { st := s, effect := .adopt } := (if_neg (by simp [h])).trans (if_neg (by simp [hs]))
    rw [hadopt]
    exact ⟨rfl, rfl⟩

end Sys2Proof.Machine

/-!
The internal ports of the key engine, its slots and its random numbers (R409, R414, R415, R422 to R424).
-/

namespace Sys2Proof.Machine

section
variable {s u v w : State} {a : KeyAns} {c k n : Nat}

/-! Uses of the tenant root and of the site key (R422, R423). -/

theorem State.rootUse_notrun (h : s.running .key = false) : s.rootUse = (.notrun, s) := if_pos (by simp [h])

theorem State.tenantUse_notrun (h : s.running .key = false) : s.tenantUse.2 = s := by
  rw [State.tenantUse, State.rootUse_notrun h]

/-- A derivation under the tenant root is counted under its status. -/
theorem State.tenantUse_counted (hrun : s.running .key = true) (h : s.useSlot (s.rd R.GATE_CFG.KSLOT) = (c, u)) :
    s.tenantUse.2 = u.keyCount c := by
  by_cases hc : c = ksOk
  · have hroot : s.rootUse = (.ok, u) := by simp [State.rootUse, hrun, h, hc]
    rw [State.tenantUse, hroot, hc]
  · have hroot : s.rootUse = (if c = ksRevoked then .revoked else .refused, u.keyCount c) := by simp [State.rootUse, hrun, h, hc]
    rw [State.tenantUse, hroot]
    by_cases hr : c = ksRevoked <;> simp [hr]

theorem exec_keySessionEstablish_denied {r : KeyEstablish} (hr : r.session < 512) (h : s.rootUse = (a, u)) (ha : a ≠ .ok) :
    exec (.keySessionEstablish r) s = .next u := by
  refine onUnit_lt_eq hr ?_
  rw [h]
  cases a with
  | ok => exact absurd rfl ha
  | _ => rfl

theorem exec_keySessionEstablish_ok {r : KeyEstablish} {t : Tenant} (hr : r.session < 512) (h : s.rootUse = (.ok, u))
    (ht : u.tenant r.tenant = (t, v)) : exec (.keySessionEstablish r) s =
      .next (v.establish r.session r.tenant r.rights (v.tenantKey r.tenant t.gen) (bytesBE r.peer.toNat 64) r.context).2 := by
  refine onUnit_lt_eq hr ?_
  rw [h]
  simp only [ht]

theorem exec_keyFabricDerive_run (hrun : s.running .key = true) (h : s.useSlot (s.rd R.FAB_SEC.KSLOT) = (c, u)) (r : KeyFabric) :
    exec (.keyFabricDerive r) s = .next (u.keyCount c) := by
  refine congrArg Host.Outcome.next ((if_neg (by simp [hrun])).trans ?_)
  rw [h]

/-! Slots (R409, R414, R415). -/

theorem State.invalSlot_empty (h1 : n ≠ 1) (h : (s.kslot n).kind = 0) : s.invalSlot n = s.scmdDone 1 := (if_neg h1).trans (if_pos h)

theorem State.invalSlot_key (h1 : n ≠ 1) (h : (s.kslot n).kind ≠ 0) (h0 : n ≠ 0) (hv : v = s.raiseGen n) :
    s.invalSlot n = (v.event 0x0C05 (unit := n) (val1 := (v.kslot n).gen)).scmdDone 0 := by
  subst hv
  simp only [State.invalSlot, h1, h, h0, if_false, false_and]

theorem State.invalSlot_root (h : (s.kslot 0).kind ≠ 0) (hv : v = s.raiseGen 0)
    (hw : w = if (v.kslot 1).kind ≠ 0 then v.raiseGen 1 else v) :
    s.invalSlot 0 = (w.event 0x0C05 (unit := 0) (val1 := (w.kslot 0).gen)).scmdDone 0 := by
  subst hw hv
  simp only [State.invalSlot, h, if_false, true_and, Nat.zero_ne_one]

theorem State.raiseGen_next (h : (s.kslot n).gen < 0xFFFF) :
    s.raiseGen n = (s.staleInside n).setKslot n { s.kslot n with gen := ((s.kslot n).gen + 1) % 2 ^ 16 } := by
  rw [State.raiseGen]
  exact congrArg (fun t : State => t.setKslot n _) (if_pos h)

/-- At 0xFFFF the descendants are erased first (R414). -/
theorem State.raiseGen_last (h : 0xFFFF ≤ (s.kslot n).gen) :
    s.raiseGen n = ((s.staleInside n).each ((s.staleInside n).descendants n) fun v k => v.setKslot k {}).setKslot n
      { s.kslot n with gen := ((s.kslot n).gen + 1) % 2 ^ 16 } := by
  rw [State.raiseGen]
  exact congrArg (fun t : State => t.setKslot n _) (if_neg (Nat.not_lt.2 h))

theorem State.eraseSlot_empty (h2 : 2 ≤ n) (h : (s.kslot n).kind = 0) : s.eraseSlot n = s.scmdDone 1 :=
  (if_neg (Nat.not_lt.2 h2)).trans (if_pos h)

theorem State.eraseSlot_key (h2 : 2 ≤ n) (h : (s.kslot n).kind ≠ 0) : s.eraseSlot n =
    (((s.staleInside n).each (n :: (s.staleInside n).descendants n) fun v k => v.setKslot k {}).event 0x0C05 (unit := n) (val1 := 0)).scmdDone 0 :=
  (if_neg (Nat.not_lt.2 h2)).trans (if_neg h)

/-! Random numbers (R424). -/

theorem State.reseeded_shown (hu : u = ((s.clear R.KEY_DRBG.RESEED).wr R.KEY_DRBG.STATE drbgReady).wr R.KEY_DRBG_CNT.CNT 0) :
    u.rd R.KEY_DRBG.STATE = drbgReady ∧ u.rd R.KEY_DRBG.RESEED = 0 ∧ u.rd R.KEY_DRBG_CNT.CNT = 0 ∧ u.mem = s.mem ∧
      ∀ a, a ≠ R.KEY_DRBG.addr → a ≠ R.KEY_DRBG_CNT.addr → u.reg a = s.reg a := by
  subst hu
  refine ⟨(State.rd_wr_ne (of_decide_eq_true rfl)).trans (State.rd_wr_same (Fld.fits rfl)), ?_, State.rd_wr_same (Fld.fits rfl),
    (State.wr_mem _ _ _).trans ((State.wr_mem _ _ _).trans (State.wr_mem _ _ _)), fun a hd hc => ?_⟩
  · rw [State.rd_wr_ne (of_decide_eq_true rfl), State.rd_wr_apart (Fld.fits rfl) (.inr (of_decide_eq_true rfl))]
    exact State.rd_wr_same (Fld.fits rfl)
  · rw [State.reg_wr_ne (f := R.KEY_DRBG_CNT.CNT) hc, State.reg_wr_ne (f := R.KEY_DRBG.STATE) hd]
    exact State.reg_wr_ne (f := R.KEY_DRBG.RESEED) hd

theorem State.drbgFails_state : s.drbgFails.rd R.KEY_DRBG.STATE = drbgError := by
  have hstate : ∀ t : State, (((t.wr R.KEY_DRBG.STATE drbgError).raise R.KEY_INTSTAT.ENTROPY).event 0x0C07).rd R.KEY_DRBG.STATE = drbgError :=
    fun t => (State.event_rd _ (of_decide_eq_true rfl) (of_decide_eq_true rfl) (of_decide_eq_true rfl)).trans
      ((State.rd_wr_ne (of_decide_eq_true rfl)).trans (State.rd_wr_same (Fld.fits rfl)))
  rw [← hstate s, State.drbgFails]
  split
  · split <;> rfl
  · rfl

end

/-- Settles O41: the ports, the slots and the DRBG. -/
theorem keyPortsAndSlots : Obligations.key_ports_and_slots := by
  intro s
  refine ⟨fun h => ⟨fun r hr => exec_keySessionEstablish_denied hr (State.rootUse_notrun h) (by simp),
      fun t d ht => onUnit_lt_eq ht (State.tenantUse_notrun h), fun r => congrArg Host.Outcome.next (if_pos (by simp [h]))⟩,
    fun r u a hr h ha => exec_keySessionEstablish_denied hr h ha, fun r u v t hr h ht => exec_keySessionEstablish_ok hr h ht,
    fun k d n hk => ⟨fun u h => onUnit_lt_eq hk ?_, fun u h => onUnit_lt_eq hk ?_⟩,
    fun c u hrun h t d ht => onUnit_lt_eq ht (State.tenantUse_counted hrun h), fun c u hrun h r => exec_keyFabricDerive_run hrun h r,
    ?_, ?_, fun n => ⟨State.raiseGen_next, State.raiseGen_last⟩, ?_, ⟨_, rfl, State.reseeded_shown rfl⟩, rfl, rfl, State.drbgFails_state⟩
  · rw [h]
  · rw [h]
  · rintro u rfl
    exact onUnit_lt_eq (by decide : 1 < 64) (if_pos rfl)
  · rintro n u hn h1 rfl
    refine ⟨fun h => onUnit_lt_eq hn (State.invalSlot_empty h1 h), fun h h0 v hv => onUnit_lt_eq hn (State.invalSlot_key h1 h h0 hv), ?_⟩
    rintro h rfl v w hv hw
    exact onUnit_lt_eq hn (State.invalSlot_root h hv hw)
  · rintro n u hn rfl
    exact ⟨fun h2 => onUnit_lt_eq hn (if_pos h2), fun h2 h => onUnit_lt_eq hn (State.eraseSlot_empty h2 h),
      fun h2 h => onUnit_lt_eq hn (State.eraseSlot_key h2 h)⟩

end Sys2Proof.Machine

/-!
Tamper sources, their latch and the zeroize line (R425 to R429).
-/

namespace Sys2Proof.Machine

section
variable {s u : State} {a i k : Nat}

/-! The zeroize line (R426, R429). -/

theorem State.setBytes32_key {b : List Byte} : (s.setBytes32 a b).key = s.key := State.each_kept fun _ _ => ⟨_, rfl, rfl⟩

/-- No slot, no K_PUF and no vault seed is left. -/
def State.KeysGone (s : State) : Prop := s.key.slots = [] ∧ s.key.kPuf = none ∧ s.key.seed = 0

theorem State.KeysGone.of_key (h : s.KeysGone) (hu : u.key = s.key) : u.KeysGone := by
  unfold State.KeysGone
  rw [hu]
  exact h

theorem State.KeysGone.freeSess (h : s.KeysGone) : (s.freeSess k).KeysGone := h

/-- What the zeroize line comes to, from a state in which no key is left: the session records and the seed's copies are cleared. -/
theorem State.zeroizeLine_eq : ∃ u : State, u.KeysGone ∧
    s.zeroizeLine = ((State.eraseSeed { u with key := { u.key with sessions := [] } }).raise R.KEY_TAMP.ZEROED).raise R.KEY_INTSTAT.TAMPER := by
  refine ⟨_, ?_, rfl⟩
  refine foldl_keep (P := State.KeysGone) (fun t k ht => ht.freeSess) ?_
  refine State.KeysGone.of_key ?_ (State.each_kept fun t p => ⟨_, rfl, State.ite_kept keptByFrames_key.pnExhausted keptByFrames_key.dropSa⟩)
  refine State.KeysGone.of_key ?_ ((State.wr_key _ _ _).trans ((State.wr_key _ _ _).trans ((State.clear_key _ _).trans
    (State.setBytes32_key.trans State.setBytes32_key))))
  exact ⟨rfl, rfl, rfl⟩

theorem State.zeroizeLine_cleared : s.zeroizeLine.key.slots = [] ∧ s.zeroizeLine.key.sessions = [] ∧ s.zeroizeLine.key.kPuf = none ∧
    s.zeroizeLine.key.seed = 0 ∧ s.zeroizeLine.rd R.KEY_TAMP.ZEROED = 1 := by
  obtain ⟨u, ⟨hslots, hpuf, hseed⟩, hline⟩ := State.zeroizeLine_eq (s := s)
  have hkey : s.zeroizeLine.key = { u.key with sessions := [] } := by
    rw [hline, State.raise_key, State.raise_key, State.eraseSeed, keptByFrames_key.write, keptByFrames_key.write]
  refine ⟨?_, ?_, ?_, ?_, ?_⟩
  · rw [hkey]; exact hslots
  · rw [hkey]
  · rw [hkey]; exact hpuf
  · rw [hkey]; exact hseed
  · rw [hline]
    exact (State.rd_wr_ne (of_decide_eq_true rfl)).trans (State.rd_wr_same (Fld.fits rfl))

/-! The latch and the loops (R425 to R427). -/

theorem State.tamperAcked_shown (hu : u = ((((s.wr R.RTC_TLATCH.LATCH 0).wr R.RTC_TLATCH.FIRED 0).wr R.KEY_TAMP.LATCH 0).wr R.KEY_TAMP.FIRED 0).wr
      R.KEY_TAMP_CMD.RESULT 0) :
    u.rd R.RTC_TLATCH.LATCH = 0 ∧ u.rd R.RTC_TLATCH.FIRED = 0 ∧ u.rd R.KEY_TAMP.LATCH = 0 ∧ u.rd R.KEY_TAMP.FIRED = 0 ∧ u.rd R.KEY_TAMP_CMD.RESULT = 0 ∧
      u.mem = s.mem ∧ ∀ a, a ≠ R.RTC_TLATCH.addr → a ≠ R.KEY_TAMP.addr → a ≠ R.KEY_TAMP_CMD.addr → u.reg a = s.reg a := by
  subst hu
  refine ⟨?_, ?_, ?_, ?_, State.rd_wr_same (Fld.fits rfl), ?_, fun a hl hk hc => ?_⟩
  · rw [State.rd_wr_ne (of_decide_eq_true rfl), State.rd_wr_ne (of_decide_eq_true rfl), State.rd_wr_ne (of_decide_eq_true rfl),
      State.rd_wr_apart (Fld.fits rfl) (.inl (of_decide_eq_true rfl))]
    exact State.rd_wr_same (Fld.fits rfl)
  · rw [State.rd_wr_ne (of_decide_eq_true rfl), State.rd_wr_ne (of_decide_eq_true rfl), State.rd_wr_ne (of_decide_eq_true rfl)]
    exact State.rd_wr_same (Fld.fits rfl)
  · rw [State.rd_wr_ne (of_decide_eq_true rfl), State.rd_wr_apart (Fld.fits rfl) (.inl (of_decide_eq_true rfl))]
    exact State.rd_wr_same (Fld.fits rfl)
  · rw [State.rd_wr_ne (of_decide_eq_true rfl)]
    exact State.rd_wr_same (Fld.fits rfl)
  · rw [State.wr_mem, State.wr_mem, State.wr_mem, State.wr_mem, State.wr_mem]
  · rw [State.reg_wr_ne (f := R.KEY_TAMP_CMD.RESULT) hc, State.reg_wr_ne (f := R.KEY_TAMP.FIRED) hk, State.reg_wr_ne (f := R.KEY_TAMP.LATCH) hk,
      State.reg_wr_ne (f := R.RTC_TLATCH.FIRED) hl]
    exact State.reg_wr_ne (f := R.RTC_TLATCH.LATCH) hl

/-- A loop's confirmed state, as the oscillator runs. -/
theorem State.tamperLoop_running {o : Bool} (hrun : s.rtc.stopped = false)
    (hu : u = State.setActive { s with rtc := { s.rtc with
        loops := if o then s.rtc.loops ||| BitVec.ofNat 3 (2 ^ i) else s.rtc.loops &&& ~~~BitVec.ofNat 3 (2 ^ i) } } i (s.loopTampers i o)) :
    s.tamperLoop i o = if !s.loopTampers i o || s.key.active.getLsbD i then u else if u.on R.RTC_STAT.ONMAIN then u.tamperFire i else u.latchTamper i := by
  subst hu
  exact if_neg (by simp [hrun])

end

/-- Settles O42. -/
theorem tamperResponse : Obligations.tamper_response := by
  intro s
  refine ⟨fun h => congrArg Host.Outcome.next (if_pos h), fun h => ⟨_, congrArg Host.Outcome.next (if_neg (not_not.2 h)), State.tamperAcked_shown rfl⟩,
    ⟨rfl, fun k hk => onUnit_lt hk _⟩, fun i b hi => ⟨fun h => onUnit_lt_eq hi (if_pos h), fun u hrun hu => ?_⟩, State.zeroizeLine_cleared⟩
  have hloop := State.tamperLoop_running hrun hu
  refine ⟨fun h => onUnit_lt_eq hi (hloop.trans (if_pos ?_)), fun ht ha hm => onUnit_lt_eq hi (hloop.trans ((if_neg ?_).trans (if_pos hm))),
    fun ht ha hm => onUnit_lt_eq hi (hloop.trans ((if_neg ?_).trans (if_neg (by simp [hm]))))⟩
  · rcases h with h | h <;> simp [h]
  · simp [ht, ha]
  · simp [ht, ha]

end Sys2Proof.Machine

/-!
The event recorder: posts, records, the tail, the operator's clear and the scan of a start (R434 to R445).
-/

namespace Sys2Proof.Machine

section
variable {s t u v w : State} {r : EvtRec} {rest : List EvtRec} {b : List Byte} {k : Nat}

/-! Posts (R438, R441). -/

theorem State.post_staged (h : s.evt.staging.length < 960) :
    s.post r = ({ s with evt := { s.evt with staging := s.evt.staging ++ [r] } } : State).wr R.EVT_STAGE.STAGED (s.evt.staging ++ [r]).length := if_pos h

theorem State.post_dropped (h : 960 ≤ s.evt.staging.length) : s.post r =
    (({ s with evt := { s.evt with dropped := s.evt.dropped + 1 } } : State).bump R.EVT_CNT_DROP.COUNT).raise R.EVT_INTSTAT.DROP :=
  if_neg (Nat.not_lt.2 h)

theorem State.post_shown (h : s.evt.staging.length < 960) (ht : t = s.post r) :
    t.evt.staging = s.evt.staging ++ [r] ∧ t.evt.dropped = s.evt.dropped ∧
      t.rd R.EVT_STAGE.STAGED = (s.evt.staging.length + 1) % 2 ^ R.EVT_STAGE.STAGED.w ∧ t.mem = s.mem ∧ ∀ a, a ≠ R.EVT_STAGE.addr → t.reg a = s.reg a := by
  subst ht
  rw [State.post_staged h]
  refine ⟨rfl, rfl, ?_, State.wr_mem _ _ _, fun a ha => State.reg_wr_ne (f := R.EVT_STAGE.STAGED) ha⟩
  rw [State.rd_wr_same (Fld.fits rfl), List.length_append, List.length_singleton]

/-! Records taken from staging (R437, R439). -/

theorem State.takeStaged_empty {bad : Bool} (h : s.evt.staging = []) : s.takeStaged bad = s := by
  rw [State.takeStaged, h]

section
variable (h : s.evt.staging = r :: rest)
  (hv : v = ({ s with evt := { s.evt with staging := rest } } : State).wr R.EVT_STAGE.STAGED rest.length)
include h hv

theorem State.takeStaged_bad : s.takeStaged true =
    ((({ v with evt := { v.evt with dropped := v.evt.dropped + 1 } } : State).bump R.EVT_CNT_DROP.COUNT).raise R.EVT_INTSTAT.DROP).overflow := by
  subst hv
  rw [State.takeStaged, h]
  exact if_pos rfl

theorem State.takeStaged_good : s.takeStaged false = v.overflow.record r := by
  subst hv
  rw [State.takeStaged, h]
  exact if_neg Bool.false_ne_true

end

theorem State.record_suppressed (hs : clsSuppress (s.classByte r.code) = true) (hk : alwaysKept r.code = false) :
    s.record r = s.bump R.EVT_CNT_SUPP.COUNT := if_pos (by simp [hs, hk])

theorem State.record_numbered (h : clsSuppress (s.classByte r.code) = false ∨ alwaysKept r.code = true) :
    s.record r = s.number r (s.classByte r.code) := if_neg (by rcases h with h | h <;> simp [h])

/-! The tail queue (R440). -/

theorem State.tailWrite_empty (h : s.evt.tailQ = []) : s.tailWrite = s := by
  rw [State.tailWrite, h]

theorem State.tailWrite_oldest {q : List (Nat × List Byte)} (h : s.evt.tailQ = (k, b) :: q) :
    s.tailWrite = ({ s with evt := { s.evt with tailQ := q } } : State).write mEngine (s.tailSlot k) b := by
  rw [State.tailWrite, h]

/-- Each write takes the oldest record off the queue. -/
theorem State.tailWrite_tailQ : s.tailWrite.evt.tailQ = s.evt.tailQ.tail := by
  cases hq : s.evt.tailQ with
  | nil => rw [State.tailWrite_empty hq, hq, List.tail_nil]
  | cons x q =>
    rw [State.tailWrite_oldest hq]
    exact keptByFrames_tailQ.write

theorem State.flushTail_tailQ : s.flushTail.evt.tailQ = [] := by
  have hdrop : ∀ n, ((List.range n).foldl (fun t _ => State.tailWrite t) s).evt.tailQ = s.evt.tailQ.drop n := by
    intro n
    induction n with
    | zero => rfl
    | succ n ih =>
      rw [List.range_succ, List.foldl_append, List.foldl_cons, List.foldl_nil, State.tailWrite_tailQ, ih, List.tail_drop]
  rw [State.flushTail, hdrop, List.drop_length]

/-! The operator's clear (R444). -/

theorem exec_evtClear_ready (h : s.evtReady = true) (hu : u = s.takeAll (s.evt.staging.length + 1))
    (hv : v = { u with evt := { u.evt with floor := u.evt.seqAssign } }) (hw : w = (v.wr R.EVT_TFIRST.TCLR (v.rd R.EVT_TNEXT.TNEXT)).writeTailHeader) :
    exec .evtClear s = .next (((w.direct 0x0D02).raise R.EVT_INTSTAT.CLEARED).evtCmdDone 1 0) := by
  subst hw hv hu
  exact congrArg Host.Outcome.next (if_neg (by simp [h]))

/-! The scan of a start (R443). -/

theorem State.tailScan_shown : s.tailScan.rd R.EVT_STAT.SCAN = 0 ∧ s.tailScan.rd R.EVT_INTSTAT.SCANDONE = 1 :=
  ⟨(State.rd_wr_ne (of_decide_eq_true rfl)).trans (State.rd_wr_same (Fld.fits rfl)), State.rd_wr_same (Fld.fits rfl)⟩

/-- Without a header and a valid slot the tail begins at index 0 and the numbers at 1. -/
theorem State.tailScan_blank (he : s.tailEntries = []) (hb : s.tailHeader.best s = none)
    (hu : u = (({ (s.wr R.EVT_TNEXT.TNEXT 0).wr R.EVT_TFIRST.TCLR 0 with
      evt := { s.evt with seqAssign := 1, next := 1, base := 1, floor := 0, seqRes := 1 + 65536, scanned := true } } : State).wrb
        R.EVT_STAT.HDRBAD true).writeTailHeader) (hv : v = u.bumpBy R.EVT_CNT_TAILBAD.COUNT 0) :
    s.tailScan = ((v.direct 0x0D00 (val2 := 1)).clear R.EVT_STAT.SCAN).raise R.EVT_INTSTAT.SCANDONE := by
  subst hv hu
  rw [State.tailScan, he, hb]
  rfl

theorem State.tailScan_header {ts : List Nat} {hi span gaps tnext : Nat} (hb : s.tailHeader.best s = some b) (hts : ts = s.tailEntries.map (·.1))
    (hhi : hi = ts.foldl max 0) (hspan : span = min (hi + 1 - ts.foldl min hi) 32768)
    (hgaps : gaps = if s.tailEntries.isEmpty then 0 else span - ts.length)
    (hnext : tnext = if s.tailEntries.isEmpty then numAt b 12 4 else hi + 1)
    (hu : u = (({ (s.wr R.EVT_TNEXT.TNEXT tnext).wr R.EVT_TFIRST.TCLR (numAt b 12 4) with
      evt := { s.evt with seqAssign := numAt b 16 8, next := numAt b 16 8, base := numAt b 16 8, floor := numAt b 24 8
                          seqRes := numAt b 16 8 + 65536, scanned := true } } : State).wrb R.EVT_STAT.HDRBAD false).writeTailHeader)
    (hv : v = (u.bumpBy R.EVT_CNT_TAILBAD.COUNT gaps).direct 0x0D00 (val1 := (s.tailEntries.map (·.2)).foldl max 0)
      (extra := gaps % 2 ^ 32 + 2 ^ 32 * tnext)) :
    s.tailScan = ((if gaps = 0 then v else
      v.direct 0x0D03 (subj := firstGap (ts.map (· % 32768)) (hi + 1 - span) (ts.length + 1)) (val1 := gaps)).clear R.EVT_STAT.SCAN).raise
      R.EVT_INTSTAT.SCANDONE := by
  subst hts hhi hspan hgaps hnext hu hv
  rw [State.tailScan, hb]
  rfl

/-! The group of EVT_OLDEST (R445). -/

theorem State.reg_wr64_lo {lo hi n : Nat} (h : lo ≠ hi) : (s.wr64 lo hi n).reg lo = BitVec.ofNat 32 n :=
  (State.reg_setReg_ne h).trans (State.reg_setReg_same _ _)

theorem State.reg_wr64_ne {lo hi n a : Nat} (hlo : a ≠ lo) (hhi : a ≠ hi) : (s.wr64 lo hi n).reg a = s.reg a :=
  (State.reg_setReg_ne hhi).trans (State.reg_setReg_ne hlo)

/-- The three values latched at one instant. -/
def State.latchGroup (s : State) (old next floor : Nat) : State :=
  ((s.wr64 R.EVT_OLDEST_LO.addr R.EVT_OLDEST_HI.addr old).wr64 R.EVT_NEXT_LO.addr R.EVT_NEXT_HI.addr next).wr64 R.EVT_FLOOR_LO.addr R.EVT_FLOOR_HI.addr floor

theorem State.oldestRead_eq (hv : v = (s.wr64 R.EVT_OLDEST_LO.addr R.EVT_OLDEST_HI.addr s.evtOldest).wr64 R.EVT_NEXT_LO.addr R.EVT_NEXT_HI.addr s.evt.next)
    (hu : u = s.latchGroup s.evtOldest s.evt.next v.evt.floor) :
    s.oldestRead = { u with busRead := (u.reg R.EVT_OLDEST_LO.addr).setWidth 64 } := by
  rw [hu, State.latchGroup, hv]
  rfl

theorem State.latchGroup_reg {old next floor a : Nat} (h1 : a ≠ R.EVT_OLDEST_LO.addr) (h2 : a ≠ R.EVT_OLDEST_HI.addr) (h3 : a ≠ R.EVT_NEXT_LO.addr)
    (h4 : a ≠ R.EVT_NEXT_HI.addr) (h5 : a ≠ R.EVT_FLOOR_LO.addr) (h6 : a ≠ R.EVT_FLOOR_HI.addr) : (s.latchGroup old next floor).reg a = s.reg a :=
  (State.reg_wr64_ne h5 h6).trans ((State.reg_wr64_ne h3 h4).trans (State.reg_wr64_ne h1 h2))

/-- The low half of the first value is what the read returns. -/
theorem State.latchGroup_low {old next floor : Nat} : ((s.latchGroup old next floor).reg R.EVT_OLDEST_LO.addr).toNat = old % 2 ^ 32 := by
  rw [State.latchGroup, State.reg_wr64_ne (of_decide_eq_true rfl) (of_decide_eq_true rfl),
    State.reg_wr64_ne (of_decide_eq_true rfl) (of_decide_eq_true rfl), State.reg_wr64_lo (of_decide_eq_true rfl), BitVec.toNat_ofNat]

theorem State.latchGroup_mem {old next floor : Nat} : (s.latchGroup old next floor).mem = s.mem :=
  (State.wr64_mem _ _ _ _).trans ((State.wr64_mem _ _ _ _).trans (State.wr64_mem _ _ _ _))

theorem State.latchGroup_evt {old next floor : Nat} : (s.latchGroup old next floor).evt = s.evt :=
  (State.wr64_evt _ _ _ _).trans ((State.wr64_evt _ _ _ _).trans (State.wr64_evt _ _ _ _))

theorem State.oldestRead_shown :
    s.oldestRead.busRead.toNat = s.evtOldest % 2 ^ 32 ∧ s.oldestRead.mem = s.mem ∧ s.oldestRead.evt = s.evt ∧
      ∀ a, a ≠ R.EVT_OLDEST_LO.addr → a ≠ R.EVT_OLDEST_HI.addr → a ≠ R.EVT_NEXT_LO.addr → a ≠ R.EVT_NEXT_HI.addr → a ≠ R.EVT_FLOOR_LO.addr →
        a ≠ R.EVT_FLOOR_HI.addr → s.oldestRead.reg a = s.reg a := by
  obtain ⟨v, hv⟩ : ∃ v, v = (s.wr64 R.EVT_OLDEST_LO.addr R.EVT_OLDEST_HI.addr s.evtOldest).wr64 R.EVT_NEXT_LO.addr R.EVT_NEXT_HI.addr s.evt.next :=
    ⟨_, rfl⟩
  obtain ⟨u, hu⟩ : ∃ u, u = s.latchGroup s.evtOldest s.evt.next v.evt.floor := ⟨_, rfl⟩
  rw [State.oldestRead_eq hv hu]
  refine ⟨?_, ?_, ?_, fun a h1 h2 h3 h4 h5 h6 => ?_⟩
  · rw [BitVec.toNat_setWidth, hu, State.latchGroup_low]
    omega
  · exact (congrArg State.mem hu).trans State.latchGroup_mem
  · exact (congrArg State.evt hu).trans State.latchGroup_evt
  · exact (congrArg (State.reg · a) hu).trans (State.latchGroup_reg h1 h2 h3 h4 h5 h6)

end

/-- Settles O43. -/
theorem eventRecorder : Obligations.event_recorder := by
  intro s
  refine ⟨fun e h => congrArg Host.Outcome.next (if_neg (by simp [h])), fun e h hroom => ⟨_, congrArg Host.Outcome.next (if_pos h), State.post_shown hroom rfl⟩,
    fun e h hfull => congrArg Host.Outcome.next ((if_pos h).trans (State.post_dropped hfull)),
    fun m hm => ⟨fun h => onUnit_lt_eq hm (if_pos (by simp [h])), fun h hfull => onUnit_lt_eq hm ((if_neg (by simp [h])).trans (if_pos hfull)),
      fun h hroom => onUnit_lt_eq hm ((if_neg (by simp [h])).trans (if_neg (Nat.not_le.2 hroom)))⟩,
    fun h b => congrArg Host.Outcome.next (if_neg (by simp [h])),
    fun h b => congrArg Host.Outcome.next (ite_keep (P := (· = s)) (State.takeStaged_empty h) rfl), ?_,
    fun h => congrArg Host.Outcome.next (State.tailWrite_empty h), fun k b q h => congrArg Host.Outcome.next (State.tailWrite_oldest h),
    ⟨fun h => congrArg Host.Outcome.next (if_pos h), fun h => congrArg Host.Outcome.next (if_neg (by simp [h])), State.flushTail_tailQ⟩,
    fun h => congrArg Host.Outcome.next (if_pos (by simp [h])), fun u v w h hu hv hw => exec_evtClear_ready h hu hv hw,
    fun h => congrArg Host.Outcome.next (if_neg (by rcases h with h | h <;> simp [h])), ?_, ?_, ⟨_, rfl, State.oldestRead_shown⟩⟩
  · rintro r rest u v hready hs hv rfl
    have hexec : ∀ bad, exec (.recordWrite bad) s = .next (s.takeStaged bad) := fun bad => congrArg Host.Outcome.next (if_pos hready)
    have hgood := (hexec false).trans (congrArg Host.Outcome.next (State.takeStaged_good hs hv))
    exact ⟨fun h hk => hgood.trans (congrArg Host.Outcome.next (State.record_suppressed h hk)),
      fun h => hgood.trans (congrArg Host.Outcome.next (State.record_numbered h)),
      (hexec true).trans (congrArg Host.Outcome.next (State.takeStaged_bad hs hv))⟩
  · intro hrun hscan
    obtain ⟨hclear, hdone⟩ := State.tailScan_shown (s := s)
    exact ⟨s.tailScan, congrArg Host.Outcome.next (if_pos (by simp [hrun, hscan])), hclear, hdone,
      fun he hb => ⟨_, _, rfl, rfl, State.tailScan_blank he hb rfl rfl⟩⟩
  · intro b ts hi span gaps tnext u v hrun hscan hb hts hhi hspan hgaps hnext hu hv
    exact congrArg Host.Outcome.next ((if_pos (by simp [hrun, hscan])).trans (State.tailScan_header hb hts hhi hspan hgaps hnext hu hv))

end Sys2Proof.Machine

/-!
The redundant pair: Fantails, losses, elections, and the commands of the role (R452, R453, R464, R465, R469, R473).
-/

namespace Sys2Proof.Machine

section
variable {s u : State} {p : Bool} {f : Fantail} {t bit : Nat}

/-! Fantails received (R464). -/

theorem State.fantailIn_dropped (hu : u = s.takePair p tyFantail f.node (f.bytes (if p then 0 else 1)))
    (h : u.role = roleSolo ∨ u.partnerValid = false ∨ f.node ≠ u.rd R.PAIR_CFG.PNODE ∨ f.snode ≠ u.rd R.PAIR_SNODE.SNODE) : s.fantailIn p f = u := by
  subst hu
  refine if_pos ?_
  rw [State.fantailValid]
  rcases h with h | h | h | h <;> simp [h]

theorem State.fantailIn_taken (hu : u = s.takePair p tyFantail f.node (f.bytes (if p then 0 else 1))) (hr : u.role ≠ roleSolo)
    (hp : u.partnerValid = true) (hn : f.node = u.rd R.PAIR_CFG.PNODE) (hs : f.snode = u.rd R.PAIR_SNODE.SNODE) :
    s.fantailIn p f = (u.noteFantail p f).roleFantail f := by
  subst hu
  refine if_neg ?_
  simp [State.fantailValid, hr, hp, ← hn, ← hs]

/-! The rows of Table 14-1. -/

theorem State.roleFantail_electing (h : s.role = roleElecting) : s.roleFantail f =
    if f.role = roleActive then s.toStandby.pairEvent 0x0E01
    else if f.role = roleElecting then
      if s.wins f then (if s.takeOver.1 then s.takeOver.2.pairEvent 0x0E00 else s.takeOver.2) else s.toStandby.pairEvent 0x0E01
    else s := if_pos h

theorem State.roleFantail_standby (h : s.role = roleStandby) : s.roleFantail f =
    if f.handoff then s.standbyTakesOver else if f.role = roleActive ∧ s.on R.PAIR_STAT.CFGMIS then s.needSync else s :=
  (if_neg (h ▸ of_decide_eq_true rfl)).trans (if_pos h)

theorem State.roleFantail_active (h : s.role = roleActive) : s.roleFantail f =
    if f.role = roleActive then (if s.rd R.PAIR_EPOCH.EPOCH < f.epoch then s.pairDemote else s)
    else if f.role = roleStandby ∧ f.needsync then s.startBase else s :=
  (if_neg (h ▸ of_decide_eq_true rfl)).trans ((if_neg (h ▸ of_decide_eq_true rfl)).trans (if_pos h))

theorem State.roleFantail_demoted (h : s.role = roleDemoted) (hf : f.role = roleActive) : s.roleFantail f = s.toStandby :=
  (if_neg (h ▸ of_decide_eq_true rfl)).trans ((if_neg (h ▸ of_decide_eq_true rfl)).trans ((if_neg (h ▸ of_decide_eq_true rfl)).trans
    (if_pos ⟨h, hf⟩)))

theorem roleElecting_ne_active : roleElecting ≠ roleActive := of_decide_eq_true rfl

theorem roleStandby_ne_active : roleStandby ≠ roleActive := of_decide_eq_true rfl

theorem State.roleFantail_rows :
    (s.role = roleElecting → f.role = roleActive → s.roleFantail f = s.toStandby.pairEvent 0x0E01) ∧
      (s.role = roleElecting → f.role = roleElecting → s.wins f = false → s.roleFantail f = s.toStandby.pairEvent 0x0E01) ∧
      (s.role = roleElecting → f.role = roleElecting → s.wins f = true → s.takeOver.1 = true → s.roleFantail f = s.takeOver.2.pairEvent 0x0E00) ∧
      (s.role = roleElecting → f.role = roleElecting → s.wins f = true → s.takeOver.1 = false → s.roleFantail f = s.takeOver.2) ∧
      (s.role = roleStandby → f.handoff = true → s.roleFantail f = s.standbyTakesOver) ∧
      (s.role = roleElecting → f.role ≠ roleActive → f.role ≠ roleElecting → s.roleFantail f = s) ∧
      (s.role = roleStandby → f.handoff = false → f.role ≠ roleActive ∨ s.on R.PAIR_STAT.CFGMIS = false → s.roleFantail f = s) ∧
      (s.role = roleStandby → f.handoff = false → f.role = roleActive → s.on R.PAIR_STAT.CFGMIS = true → s.roleFantail f = s.needSync) ∧
      (s.role = roleActive → f.role = roleStandby → f.needsync = true → s.roleFantail f = s.startBase) ∧
      (s.role = roleActive → f.role = roleActive → s.rd R.PAIR_EPOCH.EPOCH < f.epoch → s.roleFantail f = s.pairDemote) ∧
      (s.role = roleActive → f.role = roleActive → f.epoch ≤ s.rd R.PAIR_EPOCH.EPOCH → s.roleFantail f = s) ∧
      (s.role = roleDemoted → f.role = roleActive → s.roleFantail f = s.toStandby) := by
  refine ⟨fun h hf => (State.roleFantail_electing h).trans (if_pos hf), fun h hf hw => (State.roleFantail_electing h).trans ?_,
    fun h hf hw ht => (State.roleFantail_electing h).trans ?_, fun h hf hw ht => (State.roleFantail_electing h).trans ?_,
    fun h hf => (State.roleFantail_standby h).trans (if_pos hf),
    fun h ha he => (State.roleFantail_electing h).trans ((if_neg ha).trans (if_neg he)),
    fun h hf hc => (State.roleFantail_standby h).trans ((if_neg (by simp [hf])).trans (if_neg ?_)),
    fun h hf ha hc => (State.roleFantail_standby h).trans ((if_neg (by simp [hf])).trans (if_pos ⟨ha, hc⟩)),
    fun h hf hn => (State.roleFantail_active h).trans ((if_neg (hf ▸ roleStandby_ne_active)).trans (if_pos ⟨hf, hn⟩)),
    fun h hf he => (State.roleFantail_active h).trans ((if_pos hf).trans (if_pos he)),
    fun h hf he => (State.roleFantail_active h).trans ((if_pos hf).trans (if_neg (Nat.not_lt.2 he))), State.roleFantail_demoted⟩
  · exact (if_neg (hf ▸ roleElecting_ne_active)).trans ((if_pos hf).trans (if_neg (by simp [hw])))
  · exact (if_neg (hf ▸ roleElecting_ne_active)).trans ((if_pos hf).trans ((if_pos hw).trans (if_pos ht)))
  · exact (if_neg (hf ▸ roleElecting_ne_active)).trans ((if_pos hf).trans ((if_pos hw).trans (if_neg (by simp [ht]))))
  · rintro ⟨ha, hm⟩
    rcases hc with hc | hc
    · exact hc ha
    · simp [hc] at hm

/-! The loss timers (R464, R465). -/

section
variable {due : Option Nat} {stops : Bool → Fantail → Bool} {lost : State → State}

theorem State.lossTimer_void (h : s.pair.void.getLsbD bit = true) :
    s.lossTimer bit due stops lost = { s with pair := { s.pair with void := s.pair.void &&& ~~~(1#3 <<< bit) } } := if_pos h

variable (hvoid : s.pair.void.getLsbD bit = false)
include hvoid

theorem State.lossTimer_off : s.lossTimer bit none stops lost = s := if_neg (by simp [hvoid])

theorem State.lossTimer_expires (hdue : due = some t)
    (h : s.fantailNext = none ∨ ∃ q f, s.fantailNext = some (q, f) ∧ stops q f = false) : s.lossTimer bit due stops lost = lost (s.advance t) := by
  subst hdue
  refine (if_neg (by simp [hvoid])).trans ?_
  rcases h with h | ⟨q, f, h, hs⟩
  · simp only [h]
  · simp only [h, hs, Bool.false_eq_true, if_false]

theorem State.lossTimer_prevails {q : Bool} (hdue : due = some t) (h : s.fantailNext = some (q, f)) (hs : stops q f = true) :
    s.lossTimer bit due stops lost = (s.advance t).heardNow q f := by
  subst hdue
  refine (if_neg (by simp [hvoid])).trans ?_
  simp only [h, hs, if_true]

end

theorem State.pathExpiry_off (h : s.on (if p then R.PAIR_STAT.P4OK else R.PAIR_STAT.FABOK) = false ∨
    (if p then s.pair.heardP4 else s.pair.heardFab) = none) : s.pathExpiry p = none := by
  rcases h with h | h
  · exact if_neg (by simp [h])
  · rw [State.pathExpiry, h]
    exact ite_self _

theorem State.pathExpiry_due (h : s.on (if p then R.PAIR_STAT.P4OK else R.PAIR_STAT.FABOK) = true)
    (ht : (if p then s.pair.heardP4 else s.pair.heardFab) = some t) : s.pathExpiry p = some (t + s.lossNs) := by
  rw [State.pathExpiry, ht]
  exact if_pos h

theorem State.lossExpiry_off (h : s.role ≠ roleStandby) (ha : s.role ≠ roleActive ∨ s.pair.silent = true) : s.lossExpiry = none := by
  refine (if_neg h).trans (if_neg ?_)
  rcases ha with ha | ha <;> simp [ha]

theorem State.lossExpiry_due (h : (s.role = roleStandby ∧ t = s.lastActive + s.lossNs) ∨
    (s.role = roleActive ∧ s.pair.silent = false ∧ t = s.lastHeard + s.lossNs)) : s.lossExpiry = some t := by
  rcases h with ⟨h, rfl⟩ | ⟨h, hs, rfl⟩
  · exact if_pos h
  · exact (if_neg (h ▸ roleStandby_ne_active.symm)).trans (if_pos ⟨h, by simp [hs]⟩)

/-! Takeover, demotion and elections (R452). -/

/-- A takeover succeeds unless its claim is refused. -/
theorem State.takeOver_succeeds (h : s.starting = true ∨ s.nextEpoch ≤ 0xFFFFFFFF) : s.takeOver.1 = true := by
  have hclaim : ∀ t : State, t.starting = s.starting → t.nextEpoch = s.nextEpoch → (if t.starting then (true, t) else t.claim).1 = true := by
    intro t hstart hepoch
    rcases h with h | h
    · rw [if_pos (hstart.trans h)]
    · cases hs : t.starting with
      | true => rfl
      | false =>
        rw [if_neg Bool.false_ne_true, State.claim, hepoch, if_neg (Nat.not_lt.2 h)]
  have htaken := hclaim { s with pair := { s.pair with rxFrames := [], rxBase := 0, rxNext := none, queue := [], base := [] } } rfl rfl
  rw [State.takeOver]
  simp only [htaken, Bool.not_true, Bool.false_eq_true, if_false, apply_ite Prod.fst, ite_self]

theorem State.setRole_role {r : Nat} (h : r < 2 ^ R.PAIR_STAT.ROLE.w) : (s.setRole r).role = r :=
  (State.rd_wr_same (Fld.fits rfl)).trans (Nat.mod_eq_of_lt h)

theorem State.pairDemote_shown (h : s.role = roleActive) : s.pairDemote.role = roleDemoted ∧ s.pairDemote.rd R.PAIR_INTSTAT.DEMOTE = 1 := by
  obtain ⟨u, hu⟩ : ∃ u : State, s.pairDemote = ((u.setRole roleDemoted).raise R.PAIR_INTSTAT.DEMOTE).pairEvent 0x0E03 := ⟨_, if_neg (not_not.2 h)⟩
  have hevent : ∀ (t : State) (g : Fld), g.addr = R.PAIR_STAT.addr ∨ g.addr = R.PAIR_INTSTAT.addr → (t.pairEvent 0x0E03).rd g = t.rd g := by
    intro t g hg
    refine State.event_rd _ ?_ ?_ ?_ <;> rcases hg with hg | hg <;> rw [hg] <;> exact of_decide_eq_true rfl
  rw [hu, State.role, hevent _ _ (.inl rfl), hevent _ _ (.inr rfl)]
  exact ⟨(State.rd_wr_ne (of_decide_eq_true rfl)).trans (State.setRole_role (of_decide_eq_true rfl)), State.rd_wr_same (Fld.fits rfl)⟩

theorem State.electTimeout_electing {r : Bool × State} (h : s.role = roleElecting) (hp : s.partnerValid = true)
    (hr : r = (s.advance (s.lastHeard + ms * s.rd R.PAIR_FTL.ELECT_MS)).takeOver) : s.electTimeout = if r.1 then r.2.partnerLost else r.2 := by
  subst hr
  exact if_pos ⟨h, hp⟩

theorem State.electTimeout_ignored (h : s.role ≠ roleDemoted) (he : s.role ≠ roleElecting ∨ s.partnerValid = false) : s.electTimeout = s := by
  refine (if_neg ?_).trans (if_neg h)
  rcases he with he | he <;> simp [he]

theorem State.electTimeout_demoted (h : s.role = roleDemoted) :
    s.electTimeout = (s.advance (s.lastActive + ms * s.rd R.PAIR_FTL.ELECT_MS)).setRole roleElecting :=
  (if_neg fun he => absurd (h.symm.trans he.1) (of_decide_eq_true rfl)).trans (if_pos h)

/-! The commands of the role (R469, R473). -/

/-- The partner reports READY as a standby. -/
def State.partnerReady (s : State) : Bool := match s.pair.partner with | some f => f.ready && f.role == roleStandby | none => false

theorem State.switchover_refused (hu : u = s.wr R.PAIR_CMD.OP 1)
    (h : u.role ≠ roleActive ∨ u.partnerReady = false ∨ u.withheld = true ∨ u.on R.SCH_SWP_CMD.ARM = true) : s.switchover = u.pairDone prNotready := by
  rw [State.switchover, State.pairOp, ← hu]
  exact if_pos (h.imp id (.imp (fun h => (Bool.not_eq_true' u.partnerReady).mpr h) (.imp id id)))

theorem State.switchover_armed (hu : u = s.wr R.PAIR_CMD.OP 1) (hr : u.role = roleActive) (hp : u.partnerReady = true) (hw : u.withheld = false)
    (ha : u.on R.SCH_SWP_CMD.ARM = false) : s.switchover =
      ((((u.wr64 R.SCH_SWP_LO.addr R.SCH_SWP_HI.addr (u.mtNs + u.hbNs)).raise R.PAIR_CMD.GO).raise R.PAIR_STAT.SWPEND).armSwitch).atHeld := by
  rw [State.switchover, State.pairOp, ← hu]
  refine if_neg ?_
  rintro (h | h | h | h)
  · exact h hr
  · exact absurd hp (Bool.eq_false_iff.1 ((Bool.not_eq_true' u.partnerReady).mp h))
  · exact Bool.false_ne_true (hw.symm.trans h)
  · exact Bool.false_ne_true (ha.symm.trans h)

theorem State.partnerReady_false (h : s.pair.partner = some f) (hf : f.ready = false ∨ f.role ≠ roleStandby) : s.partnerReady = false := by
  rw [State.partnerReady, h]
  rcases hf with hf | hf <;> simp [hf]

theorem State.partnerReady_true (h : s.pair.partner = some f) (hf : f.ready = true) (hr : f.role = roleStandby) : s.partnerReady = true := by
  rw [State.partnerReady, h]
  simp [hf, hr]

theorem State.partnerReady_none (h : s.pair.partner = none) : s.partnerReady = false := by
  rw [State.partnerReady, h]

end

/-- Settles O44. -/
theorem fantailsAndRoles : Obligations.fantails_and_roles := by
  intro s
  refine ⟨fun h => congrArg Host.Outcome.next (if_pos (by simpa using h)), fun hr hp => congrArg Host.Outcome.next (if_neg (by simp [hr, hp])),
    fun p f u hu => ⟨fun h => congrArg Host.Outcome.next (State.fantailIn_dropped hu h),
      fun hr hp hn hs => congrArg Host.Outcome.next (State.fantailIn_taken hu hr hp hn hs)⟩,
    fun f => State.roleFantail_rows, ?_, fun p => ⟨State.pathExpiry_off, fun t => State.pathExpiry_due⟩, ?_, ?_,
    ⟨fun h hp => congrArg Host.Outcome.next (State.electTimeout_ignored (h ▸ of_decide_eq_true rfl) (.inr hp)),
      fun he hd => congrArg Host.Outcome.next (State.electTimeout_ignored hd (.inl he)),
      fun h => congrArg Host.Outcome.next (State.electTimeout_demoted h)⟩,
    State.takeOver_succeeds, fun hgo c hc => ?_, ?_, ?_, ?_, State.pairDemote_shown⟩
  · intro p b l hb hl
    subst hb
    have hlost : l = fun u => ((u.clear (if p then R.PAIR_STAT.P4OK else R.PAIR_STAT.FABOK)).raise R.PAIR_INTSTAT.PATHLOSS).pairEvent 0x0E04 :=
      funext hl
    subst hlost
    exact ⟨fun h => congrArg Host.Outcome.next (State.lossTimer_void h),
      fun hv hd => congrArg Host.Outcome.next ((congrArg (State.lossTimer s _ · _ _) hd).trans (State.lossTimer_off hv)),
      fun t hv hd => ⟨fun hn => congrArg Host.Outcome.next (State.lossTimer_expires hv hd (.inl hn)),
        fun q f hn => ⟨fun hq => congrArg Host.Outcome.next (State.lossTimer_expires hv hd (.inr ⟨q, f, hn, by simpa using hq⟩)),
          fun hq => congrArg Host.Outcome.next (State.lossTimer_prevails hv hd hn (by simpa using hq))⟩⟩⟩
  · intro t l hl
    have hlost : l = fun u => if u.role = roleStandby then u.standbyTakesOver else u.partnerLost := funext hl
    subst hlost
    exact ⟨fun h => congrArg Host.Outcome.next (State.lossTimer_void h),
      fun hv hs ha => congrArg Host.Outcome.next ((congrArg (State.lossTimer s _ · _ _) (State.lossExpiry_off hs ha)).trans (State.lossTimer_off hv)),
      fun hv hd => ⟨fun hn => congrArg Host.Outcome.next (State.lossTimer_expires hv (State.lossExpiry_due hd) (.inl hn)),
        fun q f hn => ⟨fun hf => congrArg Host.Outcome.next (State.lossTimer_expires hv (State.lossExpiry_due hd) (.inr ⟨q, f, hn, hf⟩)),
          fun hf => congrArg Host.Outcome.next (State.lossTimer_prevails hv (State.lossExpiry_due hd) hn hf)⟩⟩⟩
  · intro r he hp hr
    have helect := State.electTimeout_electing he hp hr
    exact ⟨fun h => congrArg Host.Outcome.next (helect.trans (if_pos h)), fun h => congrArg Host.Outcome.next (helect.trans (if_neg (by simp [h])))⟩
  · have hsame : ∀ t : State, (if s.on R.PAIR_CMD.GO then s else t) = s := fun t => if_pos hgo
    simp only [List.mem_cons, List.not_mem_nil, or_false] at hc
    rcases hc with rfl | rfl | rfl <;> exact congrArg Host.Outcome.next (hsame _)
  · intro u hgo hu
    have hcmd : exec .pairSwitchover s = .next s.switchover := congrArg Host.Outcome.next (if_neg (by simp [hgo]))
    refine ⟨fun h => hcmd.trans (congrArg Host.Outcome.next (State.switchover_refused hu ?_)), fun f hf => ⟨fun h => ?_, fun hr hready hs hw ha => ?_⟩⟩
    · rcases h with h | h | h | h
      · exact .inl h
      · exact .inr (.inr (.inl h))
      · exact .inr (.inr (.inr h))
      · exact .inr (.inl (State.partnerReady_none h))
    · exact hcmd.trans (congrArg Host.Outcome.next (State.switchover_refused hu (.inr (.inl (State.partnerReady_false hf h)))))
    · exact hcmd.trans (congrArg Host.Outcome.next (State.switchover_armed hu hr (State.partnerReady_true hf hready hs) hw ha))
  · rintro u hgo rfl
    exact ⟨fun h => congrArg Host.Outcome.next ((if_neg (by simp [hgo])).trans (if_pos h)),
      fun h => congrArg Host.Outcome.next ((if_neg (by simp [hgo])).trans (if_neg h))⟩
  · rintro u hgo rfl
    exact ⟨fun h => congrArg Host.Outcome.next ((if_neg (by simp [hgo])).trans (if_pos h)),
      fun h => congrArg Host.Outcome.next ((if_neg (by simp [hgo])).trans (if_neg h))⟩

end Sys2Proof.Machine

/-!
The mirror channel at both ends, and the frames of P4 (R458 to R461).
-/

namespace Sys2Proof.Machine

section
variable {s u v : State} {f : MirFrame} {b : MirBatch} {rest : List MirBatch} {a : Nat}

/-! Sending (R460, R386). -/

theorem State.mirrorSend_queued (h : s.mirrorReady = true) (hq : s.pair.queue = b :: rest) :
    s.mirrorSend = State.sendBatch { s with pair := { s.pair with queue := rest } } b := by
  refine (if_neg (by simp [h])).trans ((if_neg (by simp [hq])).trans ?_)
  rw [State.sendQueued, hq]
  exact if_pos h

theorem State.sendBatch_halted (h : b.poisonAt = some a) : s.sendBatch b =
    ((State.egressHalt { s with pair := { s.pair with halted := some b } } 2 0 a).raise R.PAIR_INTSTAT.MIRLOST).toFault .mch 1 := by
  rw [State.sendBatch, h]

/-! Receiving (R459). -/

/-- The frames of the batch in hand, and the MSEQ expected after this frame. -/
def State.mirSeen (s : State) (f : MirFrame) (fs : List MirFrame) : State :=
  { s with pair := { s.pair with rxFrames := fs, rxNext := some ((f.mseq + 1) % 2 ^ 32) } }

theorem State.mirFrame_otherConfig (h : f.cfgid ≠ s.rd R.PAIR_CFGID.CFGID) : s.mirFrame f = (s.mirSeen f []).setCfgmis.mirGap := if_pos h

section
variable (hcfg : f.cfgid = s.rd R.PAIR_CFGID.CFGID)
include hcfg

theorem State.mirFrame_first (h : f.frag = 0) (hheld : s.pair.rxFrames = []) (hnext : s.pair.rxNext = none ∨ s.pair.rxNext = some f.mseq) :
    s.mirFrame f = if f.last then (s.mirSeen f []).mirApply [f] else s.mirSeen f [f] := by
  refine (if_neg (not_not.2 hcfg)).trans ((if_pos h).trans ?_)
  have hin : (s.pair.rxFrames.isEmpty && (s.pair.rxNext.isNone || s.pair.rxNext == some f.mseq)) = true := by
    rcases hnext with hn | hn <;> simp [hheld, hn]
  simp only [hin, if_true, State.mirSeen]

theorem State.mirFrame_next (h : f.frag ≠ 0) (hheld : s.pair.rxFrames ≠ []) (hlen : s.pair.rxFrames.length = f.frag)
    (hall : (s.pair.rxFrames.all (·.mseq == f.mseq)) = true) :
    s.mirFrame f = if f.last then (s.mirSeen f []).mirApply (s.pair.rxFrames ++ [f]) else s.mirSeen f (s.pair.rxFrames ++ [f]) := by
  refine (if_neg (not_not.2 hcfg)).trans ((if_neg h).trans ((if_pos ?_).trans rfl))
  simp [hheld, hlen, hall]

theorem State.mirFrame_gap (h : f.frag ≠ 0) (hlen : s.pair.rxFrames.length ≠ f.frag) : s.mirFrame f = (s.mirSeen f []).mirGap :=
  (if_neg (not_not.2 hcfg)).trans ((if_neg h).trans (if_neg (by simp [hlen])))

end

/-! P4 (R461). -/

section
variable {g : Leat} (hlink : s.pair.p4Link = true)
include hlink

theorem State.p4Receive_foreign (h : g.dst ≠ s.rd R.FAB_NODE.CFG ∨ g.ttl ≠ 1 ∨ headerOk g = false) : s.p4Receive g = s.bump R.PAIR_CNT_P4DISC.COUNT :=
  (if_neg (by simp [hlink])).trans (if_pos (by simpa using h))

variable (hdst : g.dst = s.rd R.FAB_NODE.CFG) (httl : g.ttl = 1) (hok : headerOk g = true)
include hdst httl hok

theorem State.p4Receive_own : s.p4Receive g = if g.typ = tyKeyx then s.p4KeyxIn g
    else if (g.typ = tyFantail ∨ g.typ = tyMirror) ∧ s.p4Up then { s with pair := { s.pair with p4In := s.pair.p4In ++ [g] } }
    else s.bump R.PAIR_CNT_P4DISC.COUNT :=
  (if_neg (by simp [hlink])).trans (if_neg (by simp [hdst, httl, hok]))

theorem State.p4Receive_pair (ht : g.typ = tyFantail ∨ g.typ = tyMirror) : s.p4Receive g =
    if s.p4Up then { s with pair := { s.pair with p4In := s.pair.p4In ++ [g] } } else s.bump R.PAIR_CNT_P4DISC.COUNT := by
  have hkeyx : g.typ ≠ tyKeyx := by rcases ht with h | h <;> rw [h] <;> exact of_decide_eq_true rfl
  refine (State.p4Receive_own hlink hdst httl hok).trans ((if_neg hkeyx).trans ?_)
  cases hup : s.p4Up with
  | true => exact if_pos ⟨ht, rfl⟩
  | false => exact if_neg (by simp)

theorem State.p4Receive_other (hk : g.typ ≠ tyKeyx) (hf : g.typ ≠ tyFantail) (hm : g.typ ≠ tyMirror) : s.p4Receive g = s.bump R.PAIR_CNT_P4DISC.COUNT :=
  (State.p4Receive_own hlink hdst httl hok).trans ((if_neg hk).trans (if_neg (by simp [hf, hm])))

end

end

/-- Settles O45. -/
theorem mirroring : Obligations.mirroring := by
  intro s
  refine ⟨fun h => congrArg Host.Outcome.next (if_pos (by simp [h])), fun b rest h hq => congrArg Host.Outcome.next (State.mirrorSend_queued h hq),
    fun b a h => State.sendBatch_halted h, fun h hq => congrArg Host.Outcome.next ((if_neg (by simp [h])).trans (if_pos (by simp [hq]))), ?_,
    ⟨fun h => congrArg Host.Outcome.next (if_pos h), ?_⟩, fun f h => congrArg Host.Outcome.next (if_pos (by simp [h])),
    fun f hl => ⟨fun h => congrArg Host.Outcome.next (State.p4Receive_foreign hl h),
      fun hd ht hok hk => congrArg Host.Outcome.next ((State.p4Receive_own hl hd ht hok).trans (if_pos hk)),
      fun hd ht hok htyp hup => congrArg Host.Outcome.next ((State.p4Receive_pair hl hd ht hok htyp).trans (if_pos hup)),
      fun hd ht hok htyp hup => congrArg Host.Outcome.next ((State.p4Receive_pair hl hd ht hok htyp).trans (if_neg (by simp [hup]))),
      fun hd ht hok hk hf hm => congrArg Host.Outcome.next (State.p4Receive_other hl hd ht hok hk hf hm)⟩⟩
  · intro f u hu
    subst hu
    have hin : State.role _ = roleStandby → exec (.mirrorReceived f) s = .next _ := fun h => congrArg Host.Outcome.next (if_pos h)
    exact ⟨fun h => congrArg Host.Outcome.next (if_neg h),
      fun h hc => (hin h).trans (congrArg Host.Outcome.next (State.mirFrame_otherConfig hc)),
      fun h hc hf hheld hnext hlast => (hin h).trans (congrArg Host.Outcome.next ((State.mirFrame_first hc hf hheld (.inr hnext)).trans (if_pos hlast))),
      fun h hc hf hlen => (hin h).trans (congrArg Host.Outcome.next (State.mirFrame_gap hc hf hlen)),
      fun h hc hf hheld hnext hlast => (hin h).trans (congrArg Host.Outcome.next ((State.mirFrame_first hc hf hheld hnext).trans (if_neg (by simp [hlast])))),
      fun h hc hf hheld hlen hall => ⟨fun hlast => (hin h).trans (congrArg Host.Outcome.next ((State.mirFrame_next hc hf hheld hlen hall).trans (if_neg (by simp [hlast])))),
        fun hlast => (hin h).trans (congrArg Host.Outcome.next ((State.mirFrame_next hc hf hheld hlen hall).trans (if_pos hlast)))⟩⟩
  · rintro u h rfl
    exact congrArg Host.Outcome.next (if_neg (not_not.2 h))

end Sys2Proof.Machine

/-!
The BULK exchange that brings a bundle in: its messages, the blocks it programs, the slot's erase and its verification (R482 to R484).
-/

namespace Sys2Proof.Machine

section
variable {s u v : State} {src k r : Nat} {x : BulkMsg} {y : UpdXfer} {e : UpdErase} {data : List Byte}

/-! Messages taken and ignored. -/

section
variable (hu : u = s.takeInbox tyBulk src x.bytes)
include hu

theorem State.bulkIn_ignored {f : State → State} (h : u.running .upd = false ∨ x.kind ≠ k) : s.bulkIn k src x f = u := by
  subst hu
  exact if_neg (by rcases h with h | h <;> simp [h])

theorem State.bulkIn_served {f : State → State} (hrun : u.running .upd = true) (hk : x.kind = k) : s.bulkIn k src x f = f u := by
  subst hu
  exact if_pos (by simp [hrun, hk])

theorem State.bulkIn_ofTransfer {f : UpdXfer → State → State} (hrun : u.running .upd = true) (hx : u.upd.xfer = some y) (hsrc : y.src = src)
    (hxid : y.xid = x.xid) (hk : x.kind = k) : (s.bulkIn k src x fun t => t.bulkOf src x f) = f y u := by
  refine (State.bulkIn_served hu hrun hk).trans ?_
  rw [State.bulkOf, hx]
  exact if_pos ⟨hsrc, hxid⟩

/-- A message of another kind, or of no transfer in hand, is taken and ignored. -/
theorem State.bulkIn_foreign {f : UpdXfer → State → State}
    (h : u.running .upd = false ∨ x.kind ≠ k ∨ u.upd.xfer = none ∨ ∃ y, u.upd.xfer = some y ∧ (y.src ≠ src ∨ y.xid ≠ x.xid)) :
    (s.bulkIn k src x fun t => t.bulkOf src x f) = u := by
  have hof : u.upd.xfer = none ∨ (∃ y, u.upd.xfer = some y ∧ (y.src ≠ src ∨ y.xid ≠ x.xid)) → u.bulkOf src x f = u := by
    rintro (hx | ⟨y, hx, hy⟩)
    · rw [State.bulkOf, hx]
    · rw [State.bulkOf, hx]
      exact if_neg (by rcases hy with hy | hy <;> simp [hy])
  rcases h with h | h | h
  · exact State.bulkIn_ignored hu (.inl h)
  · exact State.bulkIn_ignored hu (.inr h)
  · subst hu
    exact ite_keep (P := (· = s.takeInbox tyBulk src x.bytes)) (hof h) rfl

end

/-! OPEN, DATA, END (R483). -/

theorem State.bulkOpen_refused (h : s.openCode x.size ≠ ucOk) : s.bulkOpen src x = s.bulkAnswer src { kind := 2, xid := x.xid, status := s.openCode x.size } :=
  if_pos h

theorem State.bulkOpen_accepted (h : s.openCode x.size = ucOk) (hv : v = (s.setSlot (1 - s.runSlot) slReceiving).bump R.UPD_CNT_BULKRX.COUNT) :
    s.bulkOpen src x = (((State.wr { v with upd := { v.upd with
      xfer := some { src := src, xid := x.xid, slot := 1 - s.runSlot, blen := x.size, lastData := s.now }
      erase := some { slot := 1 - s.runSlot, forOpen := true } } } R.UPD_XFER.XID x.xid).wr R.UPD_XFER.SRC src).wr R.UPD_XOFS.OFS 0).raise
      R.UPD_STAT.XFER := by
  rw [hv]
  exact if_neg (not_not.2 h)

theorem State.bulkData_taken (h : y.takes x = true) : s.bulkData x y = State.bump { s with upd := { s.upd with
    xfer := some { y with buf := y.buf ++ x.data, expected := y.expected + x.size, lastData := s.now } } } R.UPD_CNT_BULKRX.COUNT := if_pos h

theorem State.bulkData_again (h : y.takes x = false) (hsrc : y.src = src) (hxid : y.xid = x.xid) : s.bulkData x y =
    State.bulkAnswer { s with upd := { s.upd with xfer := some { y with lastData := s.now } } } src { kind := 4, xid := x.xid, offset := y.expected } := by
  subst hsrc
  rw [← hxid]
  exact if_neg (by simp [h])

theorem State.bulkEnd_missing (h : y.expected < y.blen) (hsrc : y.src = src) (hxid : y.xid = x.xid) :
    s.bulkEnd y = s.bulkAnswer src { kind := 4, xid := x.xid, offset := y.expected } := by
  subst hsrc
  rw [← hxid]
  exact if_pos h

theorem State.bulkEnd_waits (h : y.blen ≤ y.expected) (hw : y.programmed ≠ y.blen ∨ y.ended = true) :
    s.bulkEnd y = State.bump { s with upd := { s.upd with xfer := some { y with ended := true } } } R.UPD_CNT_BULKRX.COUNT :=
  (if_neg (Nat.not_lt.2 h)).trans (if_neg (by rcases hw with hw | hw <;> simp [hw]))

theorem State.bulkEnd_verifies (h : y.blen ≤ y.expected) (hp : y.programmed = y.blen) (he : y.ended = false) : s.bulkEnd y =
    (State.bump { s with upd := { s.upd with xfer := some { y with ended := true } } } R.UPD_CNT_BULKRX.COUNT).startVerify y.slot :=
  (if_neg (Nat.not_lt.2 h)).trans (if_pos ⟨hp, by simp [he]⟩)

/-! Blocks (R483, R484). -/

theorem State.blockEnd_crc {r : FlashEnd} (h : s.blockCheck y data ≠ ucOk) :
    s.blockEnd r y data = (s.bump R.UPD_CNT_CRCERR.COUNT).dropXfer y slBad (some (s.blockCheck y data)) := if_pos h

section
variable (hx : s.upd.xfer = some y) (hb : y.block = some data)
include hx hb

theorem exec_bulkBlockProgrammed_idle {r : FlashEnd} (h : s.working .upd = false) : exec (.bulkBlockProgrammed r) s = .next s := by
  refine congrArg Host.Outcome.next ?_
  rw [hx]
  simp only [hb, h, Bool.false_eq_true, if_false]

theorem exec_bulkBlockProgrammed_working {r : FlashEnd} (h : s.working .upd = true) : exec (.bulkBlockProgrammed r) s = .next (s.blockEnd r y data) := by
  refine congrArg Host.Outcome.next ?_
  rw [hx]
  simp only [hb, h, if_true]

end

theorem exec_bulkBlockProgrammed_noBlock {r : FlashEnd} (hx : s.upd.xfer = some y) (hb : y.block = none) : exec (.bulkBlockProgrammed r) s = .next s := by
  refine congrArg Host.Outcome.next ?_
  rw [hx]
  simp only [hb]

theorem exec_bulkBlockProgrammed_noTransfer {r : FlashEnd} (hx : s.upd.xfer = none) : exec (.bulkBlockProgrammed r) s = .next s := by
  refine congrArg Host.Outcome.next ?_
  rw [hx]

/-! Silence. -/

theorem exec_transferTimeout_noTransfer (hx : s.upd.xfer = none) : exec .transferTimeout s = .next s := by
  refine congrArg Host.Outcome.next ?_
  rw [hx]

theorem exec_transferTimeout_transfer (hx : s.upd.xfer = some y) : exec .transferTimeout s =
    .next (if y.ended then s else (s.advance (y.lastData + 10 * sec)).dropXfer y slEmpty none) := by
  refine congrArg Host.Outcome.next ?_
  rw [hx]

/-! The erase (R484, R496). -/

theorem exec_flashEraseComplete_none {b : Bool} (h : s.upd.erase = none) : exec (.flashEraseComplete b) s = .next s := by
  refine congrArg Host.Outcome.next ?_
  rw [h]

theorem exec_flashEraseComplete_idle {b : Bool} (h : s.running .upd = false) : exec (.flashEraseComplete b) s = .next s := by
  refine congrArg Host.Outcome.next ?_
  cases s.upd.erase with
  | none => rfl
  | some e => exact if_neg (by simp [h])

theorem exec_flashEraseComplete_erase {b : Bool} (hrun : s.running .upd = true) (h : s.upd.erase = some e) :
    exec (.flashEraseComplete b) s = .next (s.eraseEnd b e) := by
  refine congrArg Host.Outcome.next ?_
  rw [h]
  exact if_pos hrun

section
variable (hu : u = State.unlist { s with upd := { s.upd with erase := none } } (slotBase e.slot) slotSize)
include hu

theorem State.eraseEnd_command (h : e.forOpen = false) : s.eraseEnd true e = u.updDone ucOk := by
  simp only [State.eraseEnd, Bool.not_true, Bool.false_eq_true, if_false, ← hu, h]

theorem State.eraseEnd_open (h : e.forOpen = true) (hx : u.upd.xfer = some y) : s.eraseEnd true e =
    State.bulkAnswer { u with upd := { u.upd with xfer := some { y with opened := true } } } y.src { kind := 2, xid := y.xid, status := ucOk } := by
  simp only [State.eraseEnd, Bool.not_true, Bool.false_eq_true, if_false, ← hu, h, if_true, hx]

theorem State.eraseEnd_openGone (h : e.forOpen = true) (hx : u.upd.xfer = none) : s.eraseEnd true e = u := by
  simp only [State.eraseEnd, Bool.not_true, Bool.false_eq_true, if_false, ← hu, h, if_true, hx]

end

section
variable (hv : v = (State.wr { s with upd := { s.upd with erase := none } } R.UPD_FADDR.FADDR (slotBase e.slot - norBase)).updFail 2)
include hv

theorem State.eraseEnd_commandFailed (h : e.forOpen = false) : s.eraseEnd false e = v.updDone ucFlash := by
  simp only [State.eraseEnd, Bool.not_false, if_true, ← hv, h, Bool.false_eq_true, if_false]

theorem State.eraseEnd_openFailed (h : e.forOpen = true) (hx : v.upd.xfer = some y) : s.eraseEnd false e = v.dropXfer y slEmpty (some ucFlash) := by
  simp only [State.eraseEnd, Bool.not_false, if_true, ← hv, h, hx]

theorem State.eraseEnd_openFailedGone (h : e.forOpen = true) (hx : v.upd.xfer = none) : s.eraseEnd false e = v := by
  simp only [State.eraseEnd, Bool.not_false, if_true, ← hv, h, hx]

end

/-! The verification. -/

theorem exec_verifyComplete_ignored (h : s.upd.verifying = none ∨ s.running .upd = false) : exec .verifyComplete s = .next s := by
  refine congrArg Host.Outcome.next ?_
  cases hk : s.upd.verifying with
  | none => rfl
  | some k => exact if_neg (by simpa [hk] using h)

theorem exec_verifyComplete_run (hrun : s.running .upd = true) (hk : s.upd.verifying = some k)
    (h : State.verifySlot { s with upd := { s.upd with verifying := none } } k = (r, u)) : exec .verifyComplete s = .next (u.verifyAnswer r) := by
  refine congrArg Host.Outcome.next ?_
  rw [hk]
  refine (if_pos hrun).trans ?_
  rw [State.verifyEnd, h]

theorem State.verifyAnswer_command (h : s.upd.xfer = none) : s.verifyAnswer r = s.updDone r := by
  rw [State.verifyAnswer, h]

theorem State.verifyAnswer_transfer (h : s.upd.xfer = some y) :
    s.verifyAnswer r = (s.bulkAnswer y.src { kind := 6, xid := y.xid, status := r }).endXfer := by
  rw [State.verifyAnswer, h]

end

/-- Settles O46. -/
theorem updateTransfers : Obligations.update_transfers := by
  intro s
  refine ⟨fun src x u hu => ⟨fun h => congrArg Host.Outcome.next (State.bulkIn_ignored hu h),
      fun hrun hk h => congrArg Host.Outcome.next ((State.bulkIn_served hu hrun hk).trans (State.bulkOpen_refused h)),
      fun v hrun hk h hv => congrArg Host.Outcome.next ((State.bulkIn_served hu hrun hk).trans (State.bulkOpen_accepted h hv))⟩,
    fun src x y u hu hrun hx hsrc hxid => ?_, fun src x u hu c hc h => ?_, fun r y data hx hb => ?_,
    fun r y hx hb => exec_bulkBlockProgrammed_noBlock hx hb,
    fun hx => ⟨fun r => exec_bulkBlockProgrammed_noTransfer hx, exec_transferTimeout_noTransfer hx⟩,
    fun y hx => ⟨fun h => (exec_transferTimeout_transfer hx).trans (congrArg Host.Outcome.next (if_pos h)),
      fun h => (exec_transferTimeout_transfer hx).trans (congrArg Host.Outcome.next (if_neg (by simp [h])))⟩,
    fun b => ⟨exec_flashEraseComplete_none, exec_flashEraseComplete_idle⟩, fun e u hrun he hu => ?_,
    ⟨exec_verifyComplete_ignored, fun k r u hrun hk h =>
      ⟨fun hx => (exec_verifyComplete_run hrun hk h).trans (congrArg Host.Outcome.next (State.verifyAnswer_command hx)),
        fun y hx => (exec_verifyComplete_run hrun hk h).trans (congrArg Host.Outcome.next (State.verifyAnswer_transfer hx))⟩⟩⟩
  · exact ⟨fun hk h => congrArg Host.Outcome.next ((State.bulkIn_ofTransfer hu hrun hx hsrc hxid hk).trans (State.bulkData_taken h)),
      fun hk h => congrArg Host.Outcome.next ((State.bulkIn_ofTransfer hu hrun hx hsrc hxid hk).trans (State.bulkData_again h hsrc hxid)),
      fun hk h => congrArg Host.Outcome.next ((State.bulkIn_ofTransfer hu hrun hx hsrc hxid hk).trans (State.bulkEnd_missing h hsrc hxid)),
      fun hk h hw => congrArg Host.Outcome.next ((State.bulkIn_ofTransfer hu hrun hx hsrc hxid hk).trans (State.bulkEnd_waits h hw)),
      fun hk h hp he => congrArg Host.Outcome.next ((State.bulkIn_ofTransfer hu hrun hx hsrc hxid hk).trans (State.bulkEnd_verifies h hp he)),
      fun hk => congrArg Host.Outcome.next (State.bulkIn_ofTransfer hu hrun hx hsrc hxid hk)⟩
  · simp only [List.mem_cons, List.not_mem_nil, or_false] at hc
    rcases hc with rfl | rfl | rfl
    · exact congrArg Host.Outcome.next (State.bulkIn_foreign hu h)
    · exact congrArg Host.Outcome.next (State.bulkIn_foreign hu h)
    · exact congrArg Host.Outcome.next (State.bulkIn_foreign hu h)
  · have hend := fun h => exec_bulkBlockProgrammed_working (r := r) hx hb h
    refine ⟨exec_bulkBlockProgrammed_idle hx hb, fun hw h => (hend hw).trans (congrArg Host.Outcome.next (State.blockEnd_crc h)), ?_, ?_, ?_⟩
    · rintro hw h rfl
      exact (hend hw).trans (congrArg Host.Outcome.next (if_neg (not_not.2 h)))
    · rintro hw h rfl
      exact (hend hw).trans (congrArg Host.Outcome.next (if_neg (not_not.2 h)))
    · rintro a hw h rfl
      exact (hend hw).trans (congrArg Host.Outcome.next (if_neg (not_not.2 h)))
  · have hend : ∀ b, exec (.flashEraseComplete b) s = .next (s.eraseEnd b e) := fun b => exec_flashEraseComplete_erase hrun he
    exact ⟨fun h => (hend true).trans (congrArg Host.Outcome.next (State.eraseEnd_command hu h)),
      fun y h hx => (hend true).trans (congrArg Host.Outcome.next (State.eraseEnd_open hu h hx)),
      fun h => (hend false).trans (congrArg Host.Outcome.next (State.eraseEnd_commandFailed rfl h)),
      fun v h hv => ⟨fun hx => (hend false).trans (congrArg Host.Outcome.next (State.eraseEnd_openFailedGone hv h hx)),
        fun y hx => (hend false).trans (congrArg Host.Outcome.next (State.eraseEnd_openFailed hv h hx))⟩,
      fun h hx => (hend true).trans (congrArg Host.Outcome.next (State.eraseEnd_openGone hu h hx))⟩

end Sys2Proof.Machine

/-!
The loader's commands and the handover they drive (R486 to R496).
-/

namespace Sys2Proof.Machine

section
variable {s u v w : State} {op k b : Nat} {ok : Bool} {run : State → State} {ps : List Part}

/-! How a command of the loader is issued (R13, Table 15-8). -/

theorem State.updCmd_busy (h : s.updBusy = true) : s.updCmd op k ok run = s := if_pos h

theorem State.updCmd_wr_running : ((s.wr R.UPD_CMD.OP op).wr R.UPD_CMD.SLOT k).running .upd = s.running .upd := by
  rw [State.running, State.rd_wr_ne (of_decide_eq_true rfl), State.rd_wr_ne (of_decide_eq_true rfl), ← State.running]

theorem State.updCmd_state (hbusy : s.updBusy = false) (h : s.running .upd = false ∨ ok = false) :
    s.updCmd op k ok run = ((s.wr R.UPD_CMD.OP op).wr R.UPD_CMD.SLOT k).updDone ucState := by
  refine (if_neg (by simp [hbusy])).trans (if_neg ?_)
  rw [State.updCmd_wr_running]
  rcases h with h | h <;> simp [h]

theorem State.updCmd_runs (hbusy : s.updBusy = false) (hrun : s.running .upd = true) (hok : ok = true) :
    s.updCmd op k ok run = run (((s.wr R.UPD_CMD.OP op).wr R.UPD_CMD.SLOT k).raise R.UPD_CMD.GO) := by
  refine (if_neg (by simp [hbusy])).trans (if_pos ?_)
  rw [State.updCmd_wr_running, hrun, hok, Bool.true_and]

/-! The conditions of the single commands (Table 15-8). -/

/-- Time is left before HOLDMAX expires, or none runs. -/
theorem State.holdLeft_true (h : ∀ t, s.upd.holdEnds = some t → s.now / 4 < t / 4) : s.holdLeft = true := by
  unfold State.holdLeft
  split
  · next t ht => exact decide_eq_true (h t ht)
  · rfl

theorem mayVerify_false {st : Nat} {data : Bool} {x : Option Nat} (h : x ≠ none ∨ (st ≠ slReceived ∧ (st ≠ slEmpty ∨ data = false))) :
    (x.isNone && (st == slReceived || (st == slEmpty && data))) = false := by
  rcases h with h | ⟨hr, he | hd⟩
  · simp [h]
  · simp [hr, he]
  · simp [hr, hd]

theorem mayVerify_true {st : Nat} {data : Bool} {x : Option Nat} (h : st = slReceived ∨ (st = slEmpty ∧ data = true)) (hx : x = none) :
    (x.isNone && (st == slReceived || (st == slEmpty && data))) = true := by
  rcases h with h | ⟨he, hd⟩
  · simp [hx, h]
  · simp [hx, he, hd]

/-! STAGE completes (R487). -/

theorem exec_stageComplete_run (hrun : s.running .upd = true) (hjob : s.upd.job = some .stage) : exec .stageComplete s = .next (s.stageDone s.upd.staged) :=
  congrArg Host.Outcome.next (if_pos (by simp [hrun, hjob]))

section
variable (hc : s.checkStage k = ucOk) (hps : ps = (s.manifest k).parts.filter (fun p => p.typ == 2 || p.typ == 4))
include hc hps

theorem State.stageDone_digest (h : ∃ p ∈ ps, s.digestOk k p = false) : s.stageDone k =
    (((s.wr (R.UPD_SLOT_STAT.RESULT k) ucDigest).setSlot k slBad).event 0x0F01 (unit := k) (val1 := ucDigest)).updDone ucDigest := by
  subst hps
  refine (if_neg (not_not.2 hc)).trans (if_pos ?_)
  simpa only [Bool.not_eq_true', List.all_eq_false, Bool.not_eq_true] using h

theorem State.stageDone_copied (h : ∀ p ∈ ps, s.digestOk k p = true) (hu : u = s.each ps fun s p => s.stagePart k p) (hb : b = 1 - u.rd R.IMG_LBANK.ACT)
    (hv : v = ((u.stageLists k b).wr R.IMG_LBANK.NEXT b).pinScan b)
    (hw : w = v.keyEffect (.declare (BitVec.ofNat 256 (natLE (v.bytes32 (R.UPD_SMEAS.addr 0)))))) : s.stageDone k =
      ((State.wr { w with upd := { w.upd with staged := k } } R.UPD_PHASE.PHASE phStaged).event 0x0F02 (unit := k)).updDone ucOk := by
  rw [hw, hv, hb, hu, hps]
  refine (if_neg (not_not.2 hc)).trans (if_neg ?_)
  rw [← hps, Bool.not_eq_true', Bool.not_eq_false]
  exact List.all_eq_true.2 h

end

/-! The migration step and HOLDMAX (R488, R491). -/

theorem exec_holdmaxExpiry_held {t : Nat} (h : s.upd.holdEnds = some t) (hu : u = s.advance t) : exec .holdmaxExpiry s =
    .next (if s.rd R.UPD_PHASE.PHASE = phHold ∨ s.rd R.UPD_PHASE.PHASE = phReady then u.updAbort
      else if s.rd R.UPD_PHASE.PHASE = phCommit then u.moduleReset rcHandoverTmo else u) := by
  subst hu
  refine congrArg Host.Outcome.next ?_
  rw [h]
  simp only [State.advance_rd]

theorem exec_holdmaxExpiry_none (h : s.upd.holdEnds = none) : exec .holdmaxExpiry s = .next s := by
  refine congrArg Host.Outcome.next ?_
  rw [h]

end

/-- Settles O47. -/
theorem updateCommands : Obligations.update_commands := by
  intro s
  refine ⟨fun h => ?_, ?_, ?_, ?_, ?_, ?_, ?_, ⟨fun h => ?_, fun hrun hjob h => ?_⟩, fun k ps hrun hjob hk hc hps => ?_, ⟨fun h => ?_, fun hp hh hrun => ?_⟩,
    exec_holdmaxExpiry_none, fun t u ht hu => ?_⟩
  · have hbusy : ∀ {op k ok run}, s.updCmd op k ok run = s := State.updCmd_busy h
    exact ⟨fun k hk => ⟨onUnit_lt_eq hk hbusy, onUnit_lt_eq hk hbusy, onUnit_lt_eq hk hbusy, onUnit_lt_eq hk hbusy, onUnit_lt_eq hk hbusy⟩,
      congrArg Host.Outcome.next hbusy, congrArg Host.Outcome.next hbusy, congrArg Host.Outcome.next hbusy, congrArg Host.Outcome.next hbusy⟩
  · intro k r hk hbusy hr
    obtain rfl : r = fun op => (s.wr R.UPD_CMD.OP op).wr R.UPD_CMD.SLOT k := funext hr
    exact ⟨fun h => onUnit_lt_eq hk (State.updCmd_state hbusy (.inr (by rcases h with h | h <;> simp [h, Option.isSome_iff_ne_none]))),
      fun h => onUnit_lt_eq hk (State.updCmd_state hbusy (.inr (mayVerify_false h))),
      fun h => onUnit_lt_eq hk (State.updCmd_state hbusy (.inr (by rcases h with h | h <;> simp [h]))),
      fun h => onUnit_lt_eq hk (State.updCmd_state hbusy (.inr (by simp [h]))),
      fun h => onUnit_lt_eq hk (State.updCmd_state hbusy (.inr (by rcases h with h | h <;> simp [h])))⟩
  · intro k r hk hbusy hr hrun
    obtain rfl : r = fun op => ((s.wr R.UPD_CMD.OP op).wr R.UPD_CMD.SLOT k).raise R.UPD_CMD.GO := funext hr
    refine ⟨?_, fun h hv => onUnit_lt_eq hk (State.updCmd_runs hbusy hrun (mayVerify_true h hv)),
      fun h hp => onUnit_lt_eq hk (State.updCmd_runs hbusy hrun (by simp [h, hp])), fun h => onUnit_lt_eq hk (State.updCmd_runs hbusy hrun (by simp [h])),
      fun hs h => onUnit_lt_eq hk (State.updCmd_runs hbusy hrun (by simp [← hs, h]))⟩
    rintro h he t rfl
    exact onUnit_lt_eq hk (State.updCmd_runs hbusy hrun (by simp [h, he]))
  · intro r p hbusy hr hrun hp
    obtain rfl : r = fun op => ((s.wr R.UPD_CMD.OP op).wr R.UPD_CMD.SLOT (s.rd R.UPD_CMD.SLOT)).raise R.UPD_CMD.GO := funext hr
    subst hp
    refine ⟨fun h => congrArg Host.Outcome.next (State.updCmd_runs hbusy hrun (by simp [h])),
      congrArg Host.Outcome.next (State.updCmd_runs hbusy hrun rfl),
      fun h hl => congrArg Host.Outcome.next (State.updCmd_runs hbusy hrun (by simp [h, State.holdLeft_true hl])), fun h => ?_, fun h => ?_⟩
    · exact congrArg Host.Outcome.next ((State.updCmd_runs hbusy hrun (by simp [h])).trans (congrArg (State.updDone · ucOk) (if_pos h)))
    · have harmed : s.rd R.UPD_PHASE.PHASE ≠ phArmed := by rcases h with h | h <;> rw [h] <;> exact of_decide_eq_true rfl
      exact congrArg Host.Outcome.next ((State.updCmd_runs hbusy hrun (by rcases h with h | h <;> simp [h])).trans
        (congrArg (State.updDone · ucOk) (if_neg harmed)))
  · intro r p hbusy hr hp
    obtain rfl : r = fun op => (s.wr R.UPD_CMD.OP op).wr R.UPD_CMD.SLOT (s.rd R.UPD_CMD.SLOT) := funext hr
    subst hp
    exact ⟨fun h => congrArg Host.Outcome.next (State.updCmd_state hbusy (.inr (by simp [h]))),
      fun h => congrArg Host.Outcome.next (State.updCmd_state hbusy (.inr (by rcases h with h | h <;> simp [h]))),
      fun ha hh hr => congrArg Host.Outcome.next (State.updCmd_state hbusy (.inr (by simp [ha, hh, hr])))⟩
  · intro k r hk hbusy hrun hr c hc
    obtain rfl : r = fun op => (s.wr R.UPD_CMD.OP op).wr R.UPD_CMD.SLOT k := funext hr
    simp only [List.mem_cons, List.not_mem_nil, or_false] at hc
    rcases hc with rfl | rfl | rfl | rfl | rfl <;> exact onUnit_lt_eq hk (State.updCmd_state hbusy (.inl hrun))
  · intro r hbusy hrun hr c hc
    obtain rfl : r = fun op => (s.wr R.UPD_CMD.OP op).wr R.UPD_CMD.SLOT (s.rd R.UPD_CMD.SLOT) := funext hr
    simp only [List.mem_cons, List.not_mem_nil, or_false] at hc
    rcases hc with rfl | rfl | rfl | rfl <;> exact congrArg Host.Outcome.next (State.updCmd_state hbusy (.inl hrun))
  · exact congrArg Host.Outcome.next (if_neg (by rcases h with h | h <;> simp [h]))
  · exact (exec_stageComplete_run hrun hjob).trans (congrArg Host.Outcome.next (if_pos h))
  · subst hk
    exact ⟨fun h => (exec_stageComplete_run hrun hjob).trans (congrArg Host.Outcome.next (State.stageDone_digest hc hps h)),
      fun h b u v w hu hb hv hw => (exec_stageComplete_run hrun hjob).trans (congrArg Host.Outcome.next (State.stageDone_copied hc hps h hu hb hv hw))⟩
  · refine congrArg Host.Outcome.next (if_neg ?_)
    rcases h with h | h | h <;> simp [h]
  · exact congrArg Host.Outcome.next (if_pos ⟨hp, hh, hrun⟩)
  · have hstep := exec_holdmaxExpiry_held ht hu
    have hcommit : phCommit ≠ phHold ∧ phCommit ≠ phReady := ⟨of_decide_eq_true rfl, of_decide_eq_true rfl⟩
    refine ⟨fun h => hstep.trans (congrArg Host.Outcome.next (if_pos h)), fun h => hstep.trans (congrArg Host.Outcome.next ((if_neg ?_).trans (if_pos h))),
      fun h => hstep.trans (congrArg Host.Outcome.next ((if_neg ?_).trans (if_neg ?_)))⟩
    · rw [h]
      exact not_or.2 hcommit
    · simp only [phHold, phReady] at h ⊢
      omega
    · simp only [phHold, phCommit] at h ⊢
      omega

end Sys2Proof.Machine

/-!
Recovery mode: the ROM's announcements, the orders it takes, and the load by TFTP (R498, R499).
-/

namespace Sys2Proof.Machine

section
variable {s u v : State} {o : RecOrder} {op reason b c : Nat} {n : BitVec 128} {t w : UpdTftp} {d : List Byte}

/-! Announcements (R498). -/

theorem exec_recoveryAnnounceTimer_silent (h : s.upd.recovery = none ∨ s.upd.ordered = true) : exec .recoveryAnnounceTimer s = .next s := by
  refine congrArg Host.Outcome.next ?_
  cases hrec : s.upd.recovery with
  | none => rfl
  | some reason => exact if_pos (by simpa [hrec] using h)

theorem exec_recoveryAnnounceTimer_due (hrec : s.upd.recovery = some reason) (hord : s.upd.ordered = false) (hu : u = s.advance s.upd.announceAt)
    (hn : n = (Config.free256 u.fresh).setWidth 128) (hv : v = { u with upd := { u.upd with nonce := n, announceAt := u.now + sec } }) :
    exec .recoveryAnnounceTimer s = .next (v.drawn.recSend (.announce reason (u.rd R.KEY_PUF.STATE) n)) := by
  have hpuf : v.rd R.KEY_PUF.STATE = u.rd R.KEY_PUF.STATE := by
    rw [hv]
    rfl
  rw [← hpuf, hv, hn, hu]
  refine congrArg Host.Outcome.next ?_
  rw [hrec]
  exact if_neg (by simp [hord])

/-! Orders (R498, R499). -/

theorem State.recOrder_ignored {f : State → State}
    (h : s.upd.recovery = none ∨ s.upd.lastRecovery = none ∨ o.op ≠ op ∨ o.mac ≠ s.ownMac ∨ o.nonce ≠ s.upd.nonce) : s.recOrder o op f = s := by
  refine if_neg ?_
  rcases h with h | h | h | h | h <;> simp [h]

section
variable (hrec : s.upd.recovery ≠ none) (hlast : s.upd.lastRecovery ≠ none) (hmac : o.mac = s.ownMac) (hnonce : o.nonce = s.upd.nonce)
include hrec hlast hmac hnonce

theorem State.recOrder_taken {f : State → State} (hop : o.op = op) : s.recOrder o op f = f s :=
  if_pos (by simp [Option.isSome_iff_ne_none, hrec, hlast, hmac, hnonce, hop])

end

theorem State.recLoad_busy (h : s.upd.tftp ≠ none) : s.recLoad o = s.recDone 1 ucBusy o.tool 0 0 := if_pos (Option.isSome_iff_ne_none.2 h)

theorem State.recLoad_refused (h : s.upd.tftp = none) (hslot : 1 < o.slot ∨ (o.slot = s.boot.act ∧ s.boot.slot o.slot = slGood ∧ s.bootRec ≠ none)) :
    s.recLoad o = s.recDone 1 ucState o.tool 0 0 :=
  (if_neg (by simp [h])).trans (if_pos (hslot.imp id fun ⟨hact, hgood, hboot⟩ => ⟨hact, hgood, Option.isSome_iff_ne_none.2 hboot⟩))

theorem State.recLoad_starts (h : s.upd.tftp = none) (hslot : o.slot < 2)
    (hother : o.slot ≠ s.boot.act ∨ s.boot.slot o.slot ≠ slGood ∨ s.bootRec = none)
    (hu : u = (State.unlist { s with upd := { s.upd with ordered := true } } (slotBase o.slot) slotSize).setSlot o.slot slReceiving) :
    s.recLoad o = State.recSend { u with upd := { u.upd with tftp := some { slot := o.slot, tool := o.tool, file := o.file, last := u.now } } }
      (.tftpRead o.file) := by
  rw [hu]
  refine (if_neg (by simp [h])).trans (if_neg ?_)
  rintro (h1 | ⟨hact, hgood, hboot⟩)
  · omega
  · rcases hother with ho | ho | ho
    · exact ho hact
    · exact ho hgood
    · simp [ho] at hboot

/-! The load by TFTP (R499). -/

theorem exec_tftpDataReceived_ignored (h : s.upd.tftp = none ∨ s.upd.recovery = none ∨ 512 < d.length) : exec (.tftpDataReceived b d) s = .next s := by
  refine congrArg Host.Outcome.next ?_
  cases ht : s.upd.tftp with
  | none => rfl
  | some t => exact if_pos (by simpa [ht] using h)

theorem exec_tftpDataReceived_block (ht : s.upd.tftp = some t) (hrec : s.upd.recovery ≠ none) (hlen : d.length ≤ 512) :
    exec (.tftpDataReceived b d) s = .next (if b % 65536 = (t.block + 1) % 65536 then s.tftpBlock t d
      else if b % 65536 = t.block % 65536 ∧ t.block ≠ 0 then s.recSend (.tftpAck t.block) else s) := by
  refine congrArg Host.Outcome.next ?_
  rw [ht]
  exact if_neg (by simp [hrec, hlen])

theorem State.tftpBlock_tooLong (h : slotSize < t.received + d.length) : s.tftpBlock t d = (s.tftpEnd t slEmpty ucBadpart).recSend (.tftpError 3) := if_pos h

/-- The next block that fits: its checks decide how the load goes on. -/
theorem State.tftpBlock_fits (h : t.received + d.length ≤ slotSize) (hu : u = s.putBytes (slotBase t.slot + t.received) d)
    (hw : w = { t with block := t.block + 1, received := t.received + d.length, repeats := 0, last := u.now })
    (hc : c = if d = [] then ucOk else u.tftpChecks t.slot t.received w.received (d.length < 512))
    (hv : v = State.recSend { u with upd := { u.upd with tftp := some w } } (.tftpAck w.block)) :
    s.tftpBlock t d = if c ≠ ucOk then u.tftpEnd w slBad c else if d.length < 512 then v.tftpVerify w else v := by
  have hempty : c = if d.isEmpty then ucOk else u.tftpChecks t.slot t.received w.received (d.length < 512) := by simp only [hc, List.isEmpty_iff]
  rw [hv, hempty, hw, hu]
  exact if_neg (Nat.not_lt.2 h)

theorem exec_tftpRetransmitTimer_none (h : s.upd.tftp = none) : exec .tftpRetransmitTimer s = .next s := by
  refine congrArg Host.Outcome.next ?_
  rw [h]

theorem exec_tftpRetransmitTimer_load (ht : s.upd.tftp = some t) (hu : u = s.advance (t.last + sec)) : exec .tftpRetransmitTimer s =
    .next (if 5 ≤ t.repeats then u.tftpEnd t slEmpty ucFlash else State.recSend { u with upd := { u.upd with
      tftp := some { t with repeats := t.repeats + 1, last := u.now } } } (if t.block = 0 then .tftpRead t.file else .tftpAck t.block)) := by
  rw [hu]
  refine congrArg Host.Outcome.next ?_
  rw [ht]

theorem State.tftpVerify_result {r : Nat × State}
    (hr : r = State.verifySlot ({ s.setSlot t.slot slReceived with upd := { s.upd with tftp := none } } : State) t.slot)
    (hv : v = r.2.recDone 1 r.1 t.tool t.received (r.2.manifest t.slot).version) :
    s.tftpVerify t = if r.1 = ucOk then ((v.makeTrial t.slot).clearRecovery).moduleReset rcRecovery else v := by
  rw [hv, State.tftpVerify, ← hr]

end

/-- Settles O49. -/
theorem recoveryMode : Obligations.recovery_mode := by
  intro s
  refine ⟨⟨exec_recoveryAnnounceTimer_silent, fun reason u hrec hord hu => ⟨_, _, rfl, exec_recoveryAnnounceTimer_due hrec hord hu rfl rfl⟩⟩,
    fun m => rfl,
    fun o => ⟨fun h => congrArg Host.Outcome.next (State.recOrder_ignored (.inr (.inr (.inl h)))),
      fun h => congrArg Host.Outcome.next (State.recOrder_ignored (.inr (.inr (.inl h)))),
      fun h => congrArg Host.Outcome.next (State.recOrder_ignored (.inr (.inr (.inl h))))⟩,
    fun o h => ?_, fun o hrec hlast hmac hnonce => ?_,
    fun h => ⟨fun b d => exec_tftpDataReceived_ignored (.inl h), exec_tftpRetransmitTimer_none h⟩,
    fun b d h => exec_tftpDataReceived_ignored (.inr h), fun t b d ht hrec hlen => ?_, fun t u ht hu => ?_, fun t r v hr hv => ?_⟩
  · have hignored : ∀ (op : Nat) (f : State → State), s.recOrder o op f = s := fun op f =>
      State.recOrder_ignored (h.imp id (.imp id .inr))
    exact ⟨congrArg Host.Outcome.next (hignored 1 _), congrArg Host.Outcome.next (hignored 2 _), congrArg Host.Outcome.next (hignored 3 _)⟩
  · have htaken : ∀ (op : Nat) (f : State → State), o.op = op → s.recOrder o op f = f s := fun op f hop =>
      State.recOrder_taken hrec hlast hmac hnonce hop
    exact ⟨fun hop h => congrArg Host.Outcome.next ((htaken 1 _ hop).trans (State.recLoad_busy h)),
      fun hop h hslot => congrArg Host.Outcome.next ((htaken 1 _ hop).trans (State.recLoad_refused h hslot)),
      fun u hop h hslot hother hu => congrArg Host.Outcome.next ((htaken 1 _ hop).trans (State.recLoad_starts h hslot hother hu)),
      fun hop h => congrArg Host.Outcome.next ((htaken 2 _ hop).trans (if_neg (by simp [h]))),
      fun hop h => congrArg Host.Outcome.next ((htaken 2 _ hop).trans (if_pos h)),
      fun hop => congrArg Host.Outcome.next (htaken 3 _ hop)⟩
  · have hblock := exec_tftpDataReceived_block (b := b) ht hrec hlen
    refine ⟨fun hb hs h0 => hblock.trans (congrArg Host.Outcome.next ((if_neg hb).trans (if_pos ⟨hs, h0⟩))),
      fun hb hs => hblock.trans (congrArg Host.Outcome.next ((if_neg hb).trans (if_neg ?_))),
      fun hb hl => hblock.trans (congrArg Host.Outcome.next ((if_pos hb).trans (State.tftpBlock_tooLong hl))), fun w u v c hb hl hu hw hc hv => ?_⟩
    · rcases hs with hs | hs <;> simp [hs]
    · have hnext := hblock.trans (congrArg Host.Outcome.next ((if_pos hb).trans (State.tftpBlock_fits hl hu hw hc hv)))
      exact ⟨fun h => hnext.trans (congrArg Host.Outcome.next (if_pos h)),
        fun h h512 => hnext.trans (congrArg Host.Outcome.next ((if_neg (not_not.2 h)).trans (if_neg (by omega)))),
        fun h h512 => hnext.trans (congrArg Host.Outcome.next ((if_neg (not_not.2 h)).trans (if_pos h512)))⟩
  · have htimer := exec_tftpRetransmitTimer_load ht hu
    exact ⟨fun h => htimer.trans (congrArg Host.Outcome.next (if_pos h)), fun h => htimer.trans (congrArg Host.Outcome.next (if_neg (by omega)))⟩
  · have hverify := State.tftpVerify_result hr hv
    exact ⟨fun h => hverify.trans (if_pos h), fun h => hverify.trans (if_neg h)⟩

end Sys2Proof.Machine

/-!
Power supervision, Brake and the resume (R503 to R516).
-/

namespace Sys2Proof.Machine

section
variable {s t u v w l : State} {r : Rails} {m n b : Nat}

/-! Power-good and the sources (R502, R503, R506). -/

theorem State.powerGood_waits (h : s.pwr.released = true ∨ r.vin < 9000 ∨ r.vhu < 44000 ∨
    (s.on R.PWR_STAT.SRCPOE = true ∧ s.on R.PWR_STAT.SRCX1 = false ∧ s.on R.PWR_STAT.POET2 = false)) : s.powerGood r = s := by
  refine if_pos ?_
  simp only [Bool.or_eq_true, Bool.and_eq_true, Bool.not_eq_true', decide_eq_true_eq, or_assoc, and_assoc]
  exact h

theorem State.powerGood_releases (hrel : s.pwr.released = false) (hvin : 9000 ≤ r.vin) (hhu : 44000 ≤ r.vhu)
    (hsrc : s.on R.PWR_STAT.SRCPOE = false ∨ s.on R.PWR_STAT.SRCX1 = true ∨ s.on R.PWR_STAT.POET2 = true) (hu : u = (s.rails r).vinGood r)
    (hv : v = u.advance (u.pwr.okSince.getD u.now + 20 * ms)) : s.powerGood r = { v with pwr := { v.pwr with released := true } } := by
  rw [hv, hu]
  refine if_neg ?_
  simp only [Bool.or_eq_true, Bool.and_eq_true, Bool.not_eq_true', decide_eq_true_eq, or_assoc, and_assoc]
  rintro (h | h | h | ⟨hpoe, hx1, ht2⟩)
  · exact Bool.false_ne_true (hrel.symm.trans h)
  · exact Nat.not_lt.2 hvin h
  · exact Nat.not_lt.2 hhu h
  · rcases hsrc with h | h | h
    · exact Bool.false_ne_true (h.symm.trans hpoe)
    · exact Bool.false_ne_true (hx1.symm.trans h)
    · exact Bool.false_ne_true (ht2.symm.trans h)

theorem exec_powerSourceChange {x1 poe t2 : Bool} (hu : u = ((s.wrb R.PWR_STAT.SRCX1 x1).wrb R.PWR_STAT.SRCPOE poe).wrb R.PWR_STAT.POET2 (t2 && !x1)) :
    exec (.powerSourceChange x1 poe t2) s =
      .next (if s.on R.PWR_STAT.SRCX1 != x1 || s.on R.PWR_STAT.SRCPOE != poe then (u.raise R.PWR_INTSTAT.SRCCHG).event 0x1003 else u) := by
  rw [hu]
  rfl

/-! VIN low and the warning (R507, R508, R512, R515). -/

section
variable (hlow : 8500 ≤ r.vin) (hvin : r.vin < 9000) (hu : u = State.clear ((s.rails r).clear R.PWR_STAT.WARN) R.PWR_STAT.VINOK)
include hlow hvin hu

theorem State.vinLow_quiet (h : s.pwr.released = false ∨ u.pstate ≠ psNormal ∨ s.on R.PWR_STAT.VINOK = false) :
    s.vinLow r = { u with pwr := { u.pwr with okSince := none } } := by
  have hpwr : u.pwr = s.pwr := by rw [hu, State.clear_pwr, State.clear_pwr, State.rails_pwr]
  rw [State.vinLow, ← hu]
  refine (if_neg ?_).trans (if_pos ?_)
  · simp only [vResume, vWarning]
    omega
  · exact h.imp (fun h => (Bool.not_eq_true' u.pwr.released).mpr ((congrArg PwrState.released hpwr).trans h))
      (.imp id fun h => (Bool.not_eq_true' _).mpr h)

theorem State.vinLow_counted (hrel : s.pwr.released = true) (hps : u.pstate = psNormal) (hwas : s.on R.PWR_STAT.VINOK = true)
    (hv : v = (State.raise { u with pwr := { u.pwr with okSince := none } } R.PWR_INTSTAT.INLOW).bump R.PWR_CNT_INLOW.COUNT) :
    s.vinLow r = if dueAgain v.pwr.inlowAt v.now sec then State.event { v with pwr := { v.pwr with inlowAt := some v.now } } 0x1005 else v := by
  have hpwr : u.pwr = s.pwr := by rw [hu, State.clear_pwr, State.clear_pwr, State.rails_pwr]
  rw [State.vinLow, ← hu, hv]
  refine (if_neg ?_).trans (if_neg ?_)
  · simp only [vResume, vWarning]
    omega
  · rintro (h | h | h)
    · exact Bool.false_ne_true (((Bool.not_eq_true' u.pwr.released).mp h).symm.trans ((congrArg PwrState.released hpwr).trans hrel))
    · exact h hps
    · exact Bool.false_ne_true (((Bool.not_eq_true' _).mp h).symm.trans hwas)

end

theorem State.vinLow_outside (h : 9000 ≤ r.vin ∨ r.vin < 8500) : s.vinLow r = s := if_pos h

section
variable (hlow : r.vin < 8500)
  (hu : u = State.clear ((((s.rails r).raise R.PWR_STAT.WARN).clear R.PWR_STAT.VINOK).raise R.PWR_STAT.HUSW) R.PWR_STAT.CHG)
include hlow hu

/-- A warning closes the hold-up switch and stops the window; the state then decides what follows. -/
theorem State.vinWarning_below (hw : w = { u with pwr := { u.pwr with okSince := none } }) : s.vinWarning r =
    if !w.pwr.released then w
    else if !w.on R.SYS_LOCK.LOCK then State.moduleReset { w with pwr := { w.pwr with released := false } } rcWarnstart
    else if w.pstate = psNormal then w.brakeBegin 1 else w := by
  rw [hw, hu]
  exact if_neg (Nat.not_le.2 hlow)

end

/-! Brake's commands, its begin and its end (R509 to R512). -/

theorem State.rd64_wr64 {lo hi : Nat} (h : lo ≠ hi) : (s.wr64 lo hi n).rd64 lo hi = n % 2 ^ 64 := by
  have hlo : (s.wr64 lo hi n).reg lo = BitVec.ofNat 32 n := (State.reg_setReg_ne h).trans (State.reg_setReg_same _ _)
  have hhi : (s.wr64 lo hi n).reg hi = BitVec.ofNat 32 (n / 2 ^ 32) := State.reg_setReg_same _ _
  rw [State.rd64, hlo, hhi, BitVec.toNat_ofNat, BitVec.toNat_ofNat, show 2 ^ 64 = 2 ^ 32 * 2 ^ 32 from rfl, Nat.mod_mul]

/-- What Brake's begin writes before it is reported and the other blocks stop. -/
theorem State.brakeBegun_shown (ht : t = (((((({ s with pwr := { s.pwr with brakeAt := s.now, heldAt := none, qabort := false } } : State).wr
      R.PWR_STAT.PSTATE psBraking).wr R.PWR_STAT.BCAUSE 1).wr64 R.PWR_BRK_LO.addr R.PWR_BRK_HI.addr n).wr R.PWR_HUMIN.HUMIN m).bump
      R.PWR_CNT_BRAKE.COUNT)) :
    t.pstate = psBraking ∧ t.rd R.PWR_STAT.BCAUSE = 1 ∧ t.rd64 R.PWR_BRK_LO.addr R.PWR_BRK_HI.addr = n % 2 ^ 64 ∧
      t.rd R.PWR_CNT_BRAKE.COUNT = min (s.rd R.PWR_CNT_BRAKE.COUNT + 1) (2 ^ R.PWR_CNT_BRAKE.COUNT.w - 1) ∧ t.mem = s.mem := by
  have hwide : ∀ (q : State) (f : Fld), f.addr ≠ R.PWR_BRK_LO.addr → f.addr ≠ R.PWR_BRK_HI.addr →
      (q.wr64 R.PWR_BRK_LO.addr R.PWR_BRK_HI.addr n).rd f = q.rd f := fun q f hlo hhi => (State.rd_setReg_ne hhi).trans (State.rd_setReg_ne hlo)
  subst ht
  refine ⟨?_, ?_, ?_, ?_, ?_⟩
  · rw [State.pstate, State.rd_bump_ne (of_decide_eq_true rfl), State.rd_wr_ne (of_decide_eq_true rfl),
      hwide _ _ (of_decide_eq_true rfl) (of_decide_eq_true rfl), State.rd_wr_apart (Fld.fits rfl) (.inl (of_decide_eq_true rfl))]
    exact State.rd_wr_same (Fld.fits rfl)
  · rw [State.rd_bump_ne (of_decide_eq_true rfl), State.rd_wr_ne (of_decide_eq_true rfl), hwide _ _ (of_decide_eq_true rfl) (of_decide_eq_true rfl)]
    exact State.rd_wr_same (Fld.fits rfl)
  · rw [State.rd64, State.bump, State.bumpBy, State.reg_wr_ne (of_decide_eq_true rfl), State.reg_wr_ne (of_decide_eq_true rfl),
      State.reg_wr_ne (of_decide_eq_true rfl), State.reg_wr_ne (of_decide_eq_true rfl), ← State.rd64]
    exact State.rd64_wr64 (of_decide_eq_true rfl)
  · rw [State.rd_bump_same (Fld.fits rfl), State.rd_wr_ne (of_decide_eq_true rfl), hwide _ _ (of_decide_eq_true rfl) (of_decide_eq_true rfl),
      State.rd_wr_ne (of_decide_eq_true rfl), State.rd_wr_ne (of_decide_eq_true rfl)]
    rfl
  · rw [State.bump_mem, State.wr_mem, State.wr64_mem, State.wr_mem, State.wr_mem]

theorem State.brakeMarker_written (h : s.pstate = psBraking) (hb : b = s.pwr.brakeAt + 2650 * us)
    (hw : w = if s.brakeDone then s else ((s.expireBefore b).expireBefore b).advance b) (hu : u = (w.putBytes w.markerAt w.marker).raise R.PWR_STAT.MKVALID)
    (hv : v = (u.wr R.PWR_STAT.PSTATE psBraked).wrb R.PWR_STAT.HALTED (u.rd R.PWR_STAT.BCAUSE == 3)) : s.brakeMarker =
      ((((v.wr R.PWR_BRKTIME.TBRAKED (v.brakeUs v.now 16)).wr R.PWR_BRKTIME.THELD (v.brakeUs (v.pwr.heldAt.getD v.now) 16)).raise
        R.PWR_INTSTAT.BRAKED).event 0x1001).resumeIfDue := by
  rw [hv, hu, hw, hb]
  exact if_neg (not_not.2 h)

/-! The resume (R512, R513). -/

theorem State.windowComplete_ignored (h : s.pwr.okSince = none ∨ s.pstate ≠ psBraked) : s.windowComplete = s := by
  unfold State.windowComplete
  rcases h with h | h
  · rw [h]
  · split
    · exact if_neg h
    · rfl

/-- At the window's end the module resumes where nothing keeps it BRAKED. -/
theorem State.windowComplete_due (h : s.pwr.okSince = some n) (hps : s.pstate = psBraked) (hu : u = s.advance (n + 20 * ms)) :
    s.windowComplete = if s.collapseNext = false ∧ s.rd R.PWR_STAT.BCAUSE ≠ 3 then u.resumeBrake else u := by
  have hsame := s.advance_same (n + 20 * ms)
  rw [← hu] at hsame
  have hpstate : u.pstate = psBraked := by rw [hu, State.pstate, State.advance_rd, ← State.pstate, hps]
  have hcause : u.rd R.PWR_STAT.BCAUSE = s.rd R.PWR_STAT.BCAUSE := by rw [hu, State.advance_rd]
  have hcollapse : u.collapseNext = s.collapseNext := by rw [State.collapseNext, hsame.pending, ← State.collapseNext]
  have hnow : n + 20 * ms ≤ u.now := by rw [hu, State.advance_now]; exact Nat.le_max_right _ _
  have hdue : u.resumeIfDue = if s.collapseNext = false ∧ s.rd R.PWR_STAT.BCAUSE ≠ 3 then u.resumeBrake else u := by
    rw [State.resumeIfDue, hsame.pwr, h]
    simp only [hpstate, hcause, hcollapse, hnow, true_and, and_true, Bool.not_eq_true']
  rw [State.windowComplete, h]
  exact (if_pos hps).trans (hu ▸ hdue)

theorem State.resumeBrake_inCommit (h : s.upd.brakeInCommit = true) : s.resumeBrake = s.moduleReset rcHandoverBrake := if_pos h

theorem State.resumeBrake_resumes (h : s.upd.brakeInCommit = false)
    (hu : u = ((((s.putNum s.markerAt 4 0).clear R.PWR_STAT.MKVALID).wr R.PWR_STAT.PSTATE psNormal).endHold).kaUnsuspend)
    (hv : v = State.bump (State.wr { u with start := { u.start with wdtAt := u.start.wdtAt.map (· + (u.now - u.pwr.brakeAt)) } } R.PWR_DIP.DIP
      (u.brakeUs u.now 32)) R.PWR_CNT_RESUME.COUNT) : s.resumeBrake = (v.raise R.PWR_INTSTAT.RESUME).event 0x1002 (val1 := v.rd R.PWR_DIP.DIP) := by
  have hdip : (State.brakeUs { u with start := { u.start with wdtAt := u.start.wdtAt.map (· + (u.now - u.pwr.brakeAt)) } } u.now 32) = u.brakeUs u.now 32 := rfl
  rw [hv, ← hdip, hu]
  exact if_neg (by simp [h])

end

/-- Settles O50. -/
theorem powerAndBrake : Obligations.power_and_brake := by
  intro s
  refine ⟨fun r => ⟨fun h => congrArg Host.Outcome.next (State.powerGood_waits h),
      fun u v hrel hvin hhu hsrc hu hv => congrArg Host.Outcome.next (State.powerGood_releases hrel hvin hhu hsrc hu hv)⟩, ?_,
    ⟨_, rfl, State.rd_wr_same (Fld.fits rfl), State.wr_mem _ _ _, fun a ha => State.reg_wr_ne (f := R.PWR_STAT.CHG) ha⟩,
    fun x1 poe t2 u hu => ⟨fun h1 h2 => (exec_powerSourceChange hu).trans (congrArg Host.Outcome.next (if_neg (by simp [h1, h2]))),
      fun h => (exec_powerSourceChange hu).trans (congrArg Host.Outcome.next (if_pos (by rcases h with h | h <;> simp [h])))⟩,
    fun r u hu => ⟨fun h => congrArg Host.Outcome.next (State.vinLow_outside h),
      fun hlow hvin h => congrArg Host.Outcome.next (State.vinLow_quiet hlow hvin hu h), fun v hlow hvin hrel hps hwas hv => ?_⟩,
    fun r l u hl hu => ?_, fun u c hc hu => ?_, ⟨_, rfl, State.brakeBegun_shown rfl⟩,
    ⟨fun h => congrArg Host.Outcome.next (if_pos h),
      fun b w u v h hb hw hu hv => congrArg Host.Outcome.next (State.brakeMarker_written h hb hw hu hv)⟩,
    fun r => ⟨fun h => congrArg Host.Outcome.next (if_pos h), fun h => congrArg Host.Outcome.next (if_neg (Nat.not_lt.2 h))⟩,
    ⟨fun h => congrArg Host.Outcome.next (State.windowComplete_ignored h), fun n u h hps hu => ?_⟩,
    ⟨State.resumeBrake_inCommit, fun u v h hu hv => State.resumeBrake_resumes h hu hv⟩,
    ⟨fun h => congrArg Host.Outcome.next (if_pos (by simp [h])), fun h => congrArg Host.Outcome.next (if_neg (by simp [h]))⟩⟩
  · rintro n u rfl
    exact ⟨fun h => congrArg Host.Outcome.next (if_neg (Nat.not_lt.2 h)), fun h => congrArg Host.Outcome.next (if_pos h)⟩
  · have hcount := State.vinLow_counted hlow hvin hu hrel hps hwas hv
    exact ⟨fun h => congrArg Host.Outcome.next (hcount.trans (if_neg (by simp [h]))), fun h => congrArg Host.Outcome.next (hcount.trans (if_pos h))⟩
  · have hexec : exec (.vinWarning r) s = .next (l.vinWarning r) := by rw [hl]; rfl
    have hbelow := fun h => hexec.trans (congrArg Host.Outcome.next (State.vinWarning_below (r := r) h hu rfl))
    exact ⟨fun h => hexec.trans (congrArg Host.Outcome.next (if_pos h)),
      fun h hr => (hbelow h).trans (congrArg Host.Outcome.next (if_pos ((Bool.not_eq_true' u.pwr.released).mpr hr))),
      fun h hr hl => (hbelow h).trans (congrArg Host.Outcome.next ((if_neg (by simp [hr])).trans (if_pos ((Bool.not_eq_true' (u.on _)).mpr hl)))),
      fun h hr hl hp => (hbelow h).trans (congrArg Host.Outcome.next ((if_neg (by simp [hr])).trans
        ((if_neg fun hn => Bool.false_ne_true (((Bool.not_eq_true' (u.on _)).mp hn).symm.trans hl)).trans (if_pos hp)))),
      fun h hr hl hp => (hbelow h).trans (congrArg Host.Outcome.next ((if_neg (by simp [hr])).trans
        ((if_neg fun hn => Bool.false_ne_true (((Bool.not_eq_true' (u.on _)).mp hn).symm.trans hl)).trans (if_neg hp))))⟩
  · have hcmd : exec c.1 s = .next (s.pwrCmd c.2.1 c.2.2) := by
      simp only [List.mem_cons, List.not_mem_nil, or_false] at hc
      rcases hc with rfl | rfl <;> rfl
    subst hu
    exact ⟨fun h => hcmd.trans (congrArg Host.Outcome.next (if_pos (by simp [h]))),
      fun h hp => hcmd.trans (congrArg Host.Outcome.next ((if_neg (by simp [h])).trans (if_pos hp))),
      fun h hp => hcmd.trans (congrArg Host.Outcome.next ((if_neg (by simp [h])).trans (if_neg (not_not.2 hp))))⟩
  · have hdue := State.windowComplete_due h hps hu
    exact ⟨fun hc => congrArg Host.Outcome.next (hdue.trans (if_neg fun hr => hr.2 hc)),
      fun hc hn => congrArg Host.Outcome.next (hdue.trans (if_neg fun hr => Bool.false_ne_true (hr.1.symm.trans hn))),
      fun hc hn => congrArg Host.Outcome.next (hdue.trans (if_pos ⟨hn, hc⟩))⟩

end Sys2Proof.Machine

/-!
PROOF. The real-time clock and its backup domain (O54): the calendar's law, what a commit leaves, the freeze of the time
registers, the loss of the backup supply, the backup bytes with their CRC.
-/

namespace Sys2Proof.Machine

section
variable {s t u v w x : State} {c : Calendar} {a b i n : Nat} {l : List Nat} {f : Fld}

/-! The calendar (R533, R538). -/

theorem le_daysIn (y m : Nat) : 28 ≤ daysIn y m := by
  unfold daysIn
  split
  · split <;> omega
  all_goals omega

theorem daysIn_le (y m : Nat) : daysIn y m ≤ 31 := by
  unfold daysIn
  split
  · split <;> omega
  all_goals omega

theorem Calendar.valid_iff : c.valid = true ↔ 2000 ≤ c.year ∧ c.year ≤ 2199 ∧ 1 ≤ c.month ∧ c.month ≤ 12 ∧ 1 ≤ c.day ∧
    c.day ≤ daysIn c.year c.month ∧ c.hour ≤ 23 ∧ c.minute ≤ 59 ∧ c.second ≤ 59 := by
  simp [Calendar.valid, and_assoc]

theorem Calendar.next_valid (h : c.valid = true) : c.next.valid = true := by
  rw [Calendar.valid_iff] at h ⊢
  have hd := le_daysIn
  have h1 := hd c.year (c.month + 1)
  have h2 := hd (c.year + 1) 1
  have h3 := hd 2000 1
  unfold Calendar.next
  split_ifs <;> dsimp only <;> omega

/-! The calendar's registers. -/

theorem State.calendar_wr (h : f.addr ∉ timeRegs.tail) : (s.wr f n).calendar = s.calendar := by
  simp only [timeRegs, List.tail_cons, List.mem_cons, List.not_mem_nil, or_false, not_or] at h
  obtain ⟨hs, hm, hh, hd, hmo, hy⟩ := h
  simp only [State.calendar, State.rd_wr_ne (f := f) (g := R.RTC_YEAR.YEAR) (Ne.symm hy), State.rd_wr_ne (f := f) (g := R.RTC_MON.MON) (Ne.symm hmo),
    State.rd_wr_ne (f := f) (g := R.RTC_DAY.DAY) (Ne.symm hd), State.rd_wr_ne (f := f) (g := R.RTC_HOUR.HOUR) (Ne.symm hh),
    State.rd_wr_ne (f := f) (g := R.RTC_MIN.MIN) (Ne.symm hm), State.rd_wr_ne (f := f) (g := R.RTC_SEC.SEC) (Ne.symm hs)]

theorem State.calendar_setCalendar (h : c.valid = true) : (s.setCalendar c).calendar = c := by
  obtain ⟨-, hy, -, hmo, -, hd, hh, hm, hs⟩ := Calendar.valid_iff.1 h
  have hd31 := hd.trans (daysIn_le _ _)
  have hyear : (s.setCalendar c).rd R.RTC_YEAR.YEAR = c.year := by
    simp (disch := decide) only [State.setCalendar, State.rd_wr_ne, State.rd_wr_same]
    exact Nat.mod_eq_of_lt (by change _ < 65536; omega)
  have hmonth : (s.setCalendar c).rd R.RTC_MON.MON = c.month := by
    simp (disch := decide) only [State.setCalendar, State.rd_wr_ne, State.rd_wr_same]
    exact Nat.mod_eq_of_lt (by change _ < 16; omega)
  have hday : (s.setCalendar c).rd R.RTC_DAY.DAY = c.day := by
    simp (disch := decide) only [State.setCalendar, State.rd_wr_apart, State.rd_wr_ne, State.rd_wr_same]
    exact Nat.mod_eq_of_lt (by change _ < 32; omega)
  have hhour : (s.setCalendar c).rd R.RTC_HOUR.HOUR = c.hour := by
    simp (disch := decide) only [State.setCalendar, State.rd_wr_ne, State.rd_wr_same]
    exact Nat.mod_eq_of_lt (by change _ < 32; omega)
  have hmin : (s.setCalendar c).rd R.RTC_MIN.MIN = c.minute := by
    simp (disch := decide) only [State.setCalendar, State.rd_wr_ne, State.rd_wr_same]
    exact Nat.mod_eq_of_lt (by change _ < 64; omega)
  have hsec : (s.setCalendar c).rd R.RTC_SEC.SEC = c.second := by
    simp (disch := decide) only [State.setCalendar, State.rd_wr_ne, State.rd_wr_same]
    exact Nat.mod_eq_of_lt (by change _ < 64; omega)
  simp only [State.calendar, hyear, hmonth, hday, hhour, hmin, hsec]

theorem State.setCalendar_mem : (s.setCalendar c).mem = s.mem := by simp only [State.setCalendar, State.wr_mem]

theorem State.setCalendar_rtc : (s.setCalendar c).rtc = s.rtc := by simp only [State.setCalendar, State.wr_rtc]

theorem State.setCalendar_now : (s.setCalendar c).now = s.now := by simp only [State.setCalendar, State.wr_now]

/-! The commit (R538). -/

/-- What the commit's last writes, its event and the values that it takes leave. -/
theorem State.commitMarks_shown (hn : n < 4)
    (hu : u = (((x.wr R.RTC_SUBSEC.SUBSEC 0).clear R.RTC_STAT.OSF).wr R.RTC_STAT.TQ n).raise R.RTC_INTSTAT.SETDONE)
    (ht : t = (u.event 0x1100 (val1 := a) (val2 := b)).taken 2) :
    t.calendar = x.calendar ∧ t.rd R.RTC_STAT.OSF = 0 ∧ t.rd R.RTC_STAT.TQ = n ∧ t.rd R.RTC_SUBSEC.SUBSEC = 0 ∧
      t.rd R.RTC_INTSTAT.SETDONE = 1 ∧ t.rtc = x.rtc ∧ t.mem = x.mem := by
  have hev : ∀ f : Fld, f.addr ≠ R.EVT_STAGE.addr → f.addr ≠ R.EVT_CNT_DROP.addr → f.addr ≠ R.EVT_INTSTAT.addr → t.rd f = u.rd f :=
    fun f h1 h2 h3 => by rw [ht, State.taken_rd, State.event_rd u h1 h2 h3]
  have hcal : t.calendar = u.calendar := by
    rw [State.calendar, hev _ (by decide) (by decide) (by decide), hev _ (by decide) (by decide) (by decide), hev _ (by decide) (by decide) (by decide),
      hev _ (by decide) (by decide) (by decide), hev _ (by decide) (by decide) (by decide), hev _ (by decide) (by decide) (by decide)]
    rfl
  have hrtc : t.rtc = u.rtc := by
    rw [ht, State.taken_rtc]
    exact KeptByMemory.event (get := State.rtc) ⟨fun _ _ => rfl, fun _ _ => rfl, fun _ _ => rfl, fun _ _ => rfl, fun _ _ _ => rfl⟩
  refine ⟨hcal.trans ?_, (hev _ (by decide) (by decide) (by decide)).trans ?_, (hev _ (by decide) (by decide) (by decide)).trans ?_,
    (hev _ (by decide) (by decide) (by decide)).trans ?_, (hev _ (by decide) (by decide) (by decide)).trans ?_, hrtc.trans ?_, ?_⟩
  · rw [hu, State.raise, State.clear, State.calendar_wr (by decide), State.calendar_wr (by decide), State.calendar_wr (by decide),
      State.calendar_wr (by decide)]
  · rw [hu, State.raise, State.rd_wr_ne (by decide), State.rd_wr_apart (by decide) (by decide), State.clear, State.rd_wr_same (by decide)]
    rfl
  · rw [hu, State.raise, State.rd_wr_ne (by decide), State.rd_wr_same (by decide)]
    exact Nat.mod_eq_of_lt hn
  · rw [hu, State.raise, State.clear, State.rd_wr_ne (by decide), State.rd_wr_ne (by decide), State.rd_wr_ne (by decide), State.rd_wr_same (by decide)]
    rfl
  · rw [hu, State.raise, State.rd_wr_same (by decide)]
    rfl
  · rw [hu, State.raise_rtc, State.wr_rtc, State.clear_rtc, State.wr_rtc]
  · rw [ht, State.taken_mem, State.event_mem, hu, State.raise_mem, State.wr_mem, State.clear_mem, State.wr_mem]

theorem State.rtcCommit_shown (hn : n < 4) : ∃ t : State, s.rtcCommit n = t ∧ (s.staged.valid = true → t.calendar = s.staged) ∧
    t.rd R.RTC_STAT.OSF = 0 ∧ t.rd R.RTC_STAT.TQ = n ∧ t.rd R.RTC_SUBSEC.SUBSEC = 0 ∧ t.rtc.stopped = false ∧ t.rtc.setPending = false ∧
    t.rtc.syncDue = false ∧ t.rtc.secAt = s.now ∧ t.rtc.shadows = s.rtc.shadows ∧ t.rd R.RTC_INTSTAT.SETDONE = 1 ∧ t.mem = s.mem := by
  obtain ⟨y, hy⟩ : ∃ y : State, y = { s with rtc := { s.rtc with prior := s.timeNow s.subsec } } := ⟨_, rfl⟩
  obtain ⟨z, hz⟩ : ∃ z : State, z = y.setCalendar y.staged := ⟨_, rfl⟩
  obtain ⟨x, hx⟩ : ∃ x : State, x = { z with rtc := { z.rtc with secAt := z.now, stopped := false, setPending := false, syncDue := false } } := ⟨_, rfl⟩
  have hst : y.staged = s.staged := by rw [hy]; rfl
  have hzn : z.now = s.now := by rw [hz, State.setCalendar_now, hy]
  have hzr : z.rtc.shadows = s.rtc.shadows := by rw [hz, State.setCalendar_rtc, hy]
  have hzm : z.mem = s.mem := by rw [hz, State.setCalendar_mem, hy]
  have ht : s.rtcCommit n = (((((x.wr R.RTC_SUBSEC.SUBSEC 0).clear R.RTC_STAT.OSF).wr R.RTC_STAT.TQ n).raise R.RTC_INTSTAT.SETDONE).event 0x1100
      (val1 := (Config.free64 x.fresh).toNat) (val2 := (Config.free64 (x.fresh + 1)).toNat)).taken 2 := by
    rw [State.rtcCommit, ← hy]
    dsimp only
    rw [← hz, ← hx]
    rfl
  obtain ⟨hcal, hosf, htq, hsub, hdone, hrtc, hmem⟩ := State.commitMarks_shown (t := s.rtcCommit n) hn rfl ht
  refine ⟨_, rfl, fun hv => hcal.trans ?_, hosf, htq, hsub, (congrArg RtcState.stopped hrtc).trans ?_, (congrArg RtcState.setPending hrtc).trans ?_,
    (congrArg RtcState.syncDue hrtc).trans ?_, (congrArg RtcState.secAt hrtc).trans ?_, (congrArg RtcState.shadows hrtc).trans ?_, hdone, hmem.trans ?_⟩
  · rw [hx]
    exact (congrArg State.calendar hz).trans ((State.calendar_setCalendar (hst ▸ hv)).trans hst)
  · rw [hx]
  · rw [hx]
  · rw [hx]
  · rw [hx]; exact hzn
  · rw [hx]; exact hzr
  · rw [hx]; exact hzm

theorem State.staged_clear_syncpend : (s.clear R.RTC_STAT.SYNCPEND).staged = s.staged := by
  simp (disch := decide) only [State.staged, State.clear, State.rd_wr_ne]

theorem State.syncCommit_date (h : s.staged.valid = true) :
    s.syncCommit = (s.clear R.RTC_STAT.SYNCPEND).rtcCommit (if s.rtc.syncLocked then 2 else 1) := by
  have hu : (s.clear R.RTC_STAT.SYNCPEND).staged.valid = true := by rw [State.staged_clear_syncpend, h]
  exact if_pos hu

theorem State.syncCommit_noDate (h : s.staged.valid = false) (hu : u = s.clear R.RTC_STAT.SYNCPEND) :
    s.syncCommit = State.rtcDone { u with rtc := { u.rtc with syncDue := false } } 2 1 := by
  have hn : ¬ (s.clear R.RTC_STAT.SYNCPEND).staged.valid = true := Bool.eq_false_iff.1 (by rw [State.staged_clear_syncpend, h])
  rw [hu]
  exact if_neg hn

/-! Ticks and stops (R533, R534). -/

/-- The two outcomes of a command that ends in a choice. -/
theorem outcome_of_ite {p : Bool} {o : Host.Outcome State Fault Refusal} (h : o = .next (if p then u else v)) :
    (p = true → o = .next u) ∧ (p = false → o = .next v) :=
  ⟨fun hp => h.trans (congrArg Host.Outcome.next (if_pos hp)), fun hp => h.trans (congrArg Host.Outcome.next (if_neg (Bool.eq_false_iff.1 hp)))⟩

theorem exec_rtcTick_counts (hset : s.rtc.setPending = false) (hsync : s.rtc.syncDue = false)
    (hu : u = if s.rtc.stopped then s else s.advance (s.rtc.secAt + sec))
    (hv : v = { u with rtc := { u.rtc with secAt := (if s.rtc.stopped then s.now else s.rtc.secAt + sec), stopped := false, prior := s.timeNow (if s.rtc.stopped then s.subsec else 32767) } })
    (hw : w = (v.setCalendar v.calendar.next).wr R.RTC_SUBSEC.SUBSEC 0) :
    exec .rtcTick s = .next (if w.on R.RTC_STAT.ONMAIN then w.raise R.RTC_INTSTAT.TICK else w) := by
  have hrtc : u.rtc = s.rtc := by
    rw [hu]
    split
    · rfl
    · exact (s.advance_same _).rtc
  have hat : (if u.rtc.stopped then u.now else u.rtc.secAt + sec) = if s.rtc.stopped then s.now else s.rtc.secAt + sec := by
    rw [hrtc]
    by_cases hstop : s.rtc.stopped = true
    · rw [if_pos hstop, if_pos hstop, hu, if_pos hstop]
    · rw [if_neg hstop, if_neg hstop]
  refine congrArg Host.Outcome.next ((if_neg (Bool.eq_false_iff.1 hset)).trans ((if_neg (ne_true_of_eq_false hsync)).trans ?_))
  dsimp only
  rw [← hu, hat, ← hv, ← hw]

theorem exec_oscStop_running (h : s.rtc.stopped = false)
    (hu : u = (State.raise { s.wr R.RTC_SUBSEC.SUBSEC s.subsec with rtc := { s.rtc with stopped := true } } R.RTC_STAT.OSF).wr R.RTC_STAT.TQ 0) :
    exec .oscStop s = .next (if u.on R.RTC_STAT.ONMAIN then (u.raise R.RTC_INTSTAT.OSCSTOP).event 0x1101 else u) := by
  rw [hu]
  exact congrArg Host.Outcome.next (if_neg (Bool.eq_false_iff.1 h))

/-! The domain's supply (R528 to R531). -/

theorem State.reg_each_resetOf : (s.each l fun s a => s.setReg a (resetOf a)).reg a = if a ∈ l then resetOf a else s.reg a := by
  induction l generalizing s with
  | nil => rfl
  | cons b l ih =>
    have hcons : (s.each (b :: l) fun s a => s.setReg a (resetOf a)) = (s.setReg b (resetOf b)).each l fun s a => s.setReg a (resetOf a) := rfl
    rw [hcons, ih, State.reg_setReg]
    by_cases hl : a ∈ l
    · rw [if_pos hl, if_pos (List.mem_cons_of_mem b hl)]
    · rw [if_neg hl]
      by_cases hb : a = b
      · rw [if_pos hb, if_pos (hb ▸ List.mem_cons_self), hb]
      · rw [if_neg hb, if_neg (List.not_mem_cons_of_ne_of_not_mem hb hl)]

theorem State.mem_each_resetOf : (s.each l fun s a => s.setReg a (resetOf a)).mem = s.mem :=
  State.each_keeps State.mem (f := fun s a => s.setReg a (resetOf a)) (fun _ _ _ => rfl) s

theorem State.rtc_each_resetOf : (s.each l fun s a => s.setReg a (resetOf a)).rtc = s.rtc :=
  State.each_keeps State.rtc (f := fun s a => s.setReg a (resetOf a)) (fun _ _ _ => rfl) s

theorem backup_apart : ∀ a ∈ R.SYS_RSTCAUSE.addr :: backupRegs, a ≠ R.RTC_STAT.addr ∧ a ≠ R.KEY_TAMP.addr := by decide

/-- What the domain's marks, written once its registers are at their reset values, leave. -/
theorem State.backupMarks_shown {k : KeyState} {r : RtcState} {p : Bool}
    (hu : u = (((s.raise R.RTC_STAT.OSF).raise R.RTC_STAT.BBAD).wr R.RTC_STAT.TQ 0)) (hv : v = (u.wr R.KEY_TAMP.LATCH 2).wr R.KEY_TAMP.FIRED 0)
    (ht : t = State.wrb { v with rtc := r, key := k } R.KEY_TAMP.ACTIVE p) :
    t.rd R.RTC_STAT.OSF = 1 ∧ t.rd R.RTC_STAT.BBAD = 1 ∧ t.rd R.RTC_STAT.TQ = 0 ∧ t.rd R.KEY_TAMP.LATCH = 2 ∧ t.rd R.KEY_TAMP.FIRED = 0 ∧
      t.rtc = r ∧ t.mem = s.mem ∧ ∀ a, a ≠ R.RTC_STAT.addr → a ≠ R.KEY_TAMP.addr → t.reg a = s.reg a := by
  have htv : ∀ f : Fld, f.addr ≠ R.KEY_TAMP.addr → t.rd f = u.rd f := fun f h => by
    rw [ht, State.wrb, State.rd_wr_ne h]
    change v.rd f = u.rd f
    rw [hv, State.rd_wr_ne h, State.rd_wr_ne h]
  have htl : ∀ f : Fld, f.lo + f.w ≤ 11 → t.rd f = v.rd f := fun f h => by
    rw [ht, State.wrb, State.rd_wr_apart (by decide) (Or.inl h)]
    rfl
  refine ⟨(htv _ (by decide)).trans ?_, (htv _ (by decide)).trans ?_, (htv _ (by decide)).trans ?_, (htl _ (by decide)).trans ?_, (htl _ (by decide)).trans ?_, ?_, ?_, fun a h1 h2 => ?_⟩
  · rw [hu, State.rd_wr_apart (by decide) (by decide), State.raise, State.rd_wr_apart (by decide) (by decide), State.raise, State.rd_wr_same (by decide)]
    rfl
  · rw [hu, State.rd_wr_apart (by decide) (by decide), State.raise, State.rd_wr_same (by decide)]
    rfl
  · rw [hu, State.rd_wr_same (by decide)]
    rfl
  · rw [hv, State.rd_wr_apart (by decide) (by decide), State.rd_wr_same (by decide)]
    rfl
  · rw [hv, State.rd_wr_same (by decide)]
    rfl
  · rw [ht, State.wrb_rtc]
  · rw [ht, State.wrb_mem]
    change v.mem = s.mem
    rw [hv, State.wr_mem, State.wr_mem, hu, State.wr_mem, State.raise_mem, State.raise_mem]
  · rw [ht, State.wrb, State.reg_wr_ne h2]
    change v.reg a = s.reg a
    rw [hv, State.reg_wr_ne h2, State.reg_wr_ne h2, hu, State.reg_wr_ne h1, State.raise, State.reg_wr_ne h1, State.raise, State.reg_wr_ne h1]

theorem exec_backupPowerOn (hu : u = s.each (R.SYS_RSTCAUSE.addr :: backupRegs) fun s a => s.setReg a (resetOf a))
    (hv : v = ((u.raise R.RTC_STAT.OSF).raise R.RTC_STAT.BBAD).wr R.RTC_STAT.TQ 0) (hw : w = (v.wr R.KEY_TAMP.LATCH 2).wr R.KEY_TAMP.FIRED 0) :
    exec .backupPowerOn s = .next (State.wrb { w with rtc := { w.rtc with secAt := w.now, stopped := false, lost := true }, key := { w.key with active := w.key.active &&& 0x78#7 } }
      R.KEY_TAMP.ACTIVE (w.key.active &&& 0x78#7 != 0)) := by
  change execBackupPowerOn s = _
  rw [execBackupPowerOn, ← hu]
  dsimp only
  rw [← hv, ← hw]

theorem exec_backupPowerOn_shown : ∃ t : State, exec .backupPowerOn s = .next t ∧ t.rd R.RTC_STAT.OSF = 1 ∧ t.rd R.RTC_STAT.BBAD = 1 ∧
    t.rd R.RTC_STAT.TQ = 0 ∧ t.rd R.KEY_TAMP.LATCH = 2 ∧ t.rd R.KEY_TAMP.FIRED = 0 ∧ t.rtc.lost = true ∧
    t.rtc.setPending = s.rtc.setPending ∧ t.rtc.stopped = false ∧ t.mem = s.mem ∧ ∀ a ∈ R.SYS_RSTCAUSE.addr :: backupRegs, t.reg a = resetOf a := by
  obtain ⟨y, hy⟩ : ∃ y : State, y = s.each (R.SYS_RSTCAUSE.addr :: backupRegs) fun s a => s.setReg a (resetOf a) := ⟨_, rfl⟩
  obtain ⟨u, hu⟩ : ∃ u : State, u = ((y.raise R.RTC_STAT.OSF).raise R.RTC_STAT.BBAD).wr R.RTC_STAT.TQ 0 := ⟨_, rfl⟩
  obtain ⟨v, hv⟩ : ∃ v : State, v = (u.wr R.KEY_TAMP.LATCH 2).wr R.KEY_TAMP.FIRED 0 := ⟨_, rfl⟩
  have hymem : y.mem = s.mem := by rw [hy, State.mem_each_resetOf]
  have hyrtc : y.rtc = s.rtc := by rw [hy, State.rtc_each_resetOf]
  have hvrtc : v.rtc = s.rtc := by rw [hv, State.wr_rtc, State.wr_rtc, hu, State.wr_rtc, State.raise_rtc, State.raise_rtc, hyrtc]
  have hyreg : ∀ a ∈ R.SYS_RSTCAUSE.addr :: backupRegs, y.reg a = resetOf a := fun a ha => by
    rw [hy, State.reg_each_resetOf, if_pos ha]
  obtain ⟨hosf, hbad, htq, hlatch, hfired, hrtc, hmem, hreg⟩ := State.backupMarks_shown (s := y) (v := v) (k := { v.key with active := v.key.active &&& 0x78#7 })
    (r := { v.rtc with secAt := v.now, stopped := false, lost := true }) (p := v.key.active &&& 0x78#7 != 0) hu hv rfl
  refine ⟨_, exec_backupPowerOn hy hu hv, hosf, hbad, htq, hlatch, hfired, congrArg RtcState.lost hrtc, (congrArg RtcState.setPending hrtc).trans (congrArg RtcState.setPending hvrtc :),
    congrArg RtcState.stopped hrtc, hmem.trans hymem, fun a ha => (hreg a (backup_apart a ha).1 (backup_apart a ha).2).trans (hyreg a ha)⟩

theorem exec_vbatMeasure_main (h : s.on R.RTC_STAT.ONMAIN = true) (hu : u = s.wr R.RTC_VBAT.VBAT (min n 4095))
    (hv : v = (u.raise R.RTC_STAT.VBLOW).raise R.RTC_INTSTAT.VBLOW) : exec (.vbatMeasure n) s =
      .next (if n < 2500 then
        if dueAgain v.rtc.vblowAt v.now (3600 * sec) then State.event { v with rtc := { v.rtc with vblowAt := some v.now } } 0x1104 (val1 := n) else v
        else if 2600 ≤ n then u.clear R.RTC_STAT.VBLOW else u) := by
  rw [hv, hu]
  exact congrArg Host.Outcome.next (if_neg (by rw [h]; decide))

theorem exec_vbatMeasure_low (h : s.on R.RTC_STAT.ONMAIN = true) (hu : u = s.wr R.RTC_VBAT.VBAT (min n 4095))
    (hv : v = (u.raise R.RTC_STAT.VBLOW).raise R.RTC_INTSTAT.VBLOW) (hn : n < 2500) : exec (.vbatMeasure n) s =
      .next (if dueAgain s.rtc.vblowAt s.now (3600 * sec) then State.event { v with rtc := { v.rtc with vblowAt := some v.now } } 0x1104 (val1 := n) else v) := by
  have hrtc : v.rtc = s.rtc := by rw [hv, State.raise_rtc, State.raise_rtc, hu, State.wr_rtc]
  have hnow : v.now = s.now := by rw [hv, State.raise_now, State.raise_now, hu, State.wr_now]
  rw [exec_vbatMeasure_main h hu hv, if_pos hn, hrtc, hnow]

/-! The freeze (R536). -/

theorem State.rd_of_on (h : s.on f = true) (hw : f.w = 1) : s.rd f = 1 := by
  have hlt : s.rd f < 2 ^ f.w := s.rd_lt f
  have hne : s.rd f ≠ 0 := bne_iff_ne.1 h
  rw [hw] at hlt
  omega

theorem State.freezeRead_shown (hfr : s.on R.RTC_STAT.FROZEN = true → u = s)
    (hun : s.on R.RTC_STAT.FROZEN = false → u = State.raise { s with rtc := { s.rtc with shadows := s.timeCopy, frozenAt := s.now } } R.RTC_STAT.FROZEN)
    (ht : t = s.freezeRead a) : t.busRead = (u.rtc.shadows.getD (timeRegs.idxOf a) 0).setWidth 64 ∧ t.rtc = u.rtc ∧ t.mem = s.mem ∧
      t.rd R.RTC_STAT.FROZEN = (if a = R.RTC_YEAR.addr then 0 else 1) := by
  have hu : (if s.on R.RTC_STAT.FROZEN then s else
      State.raise { s with rtc := { s.rtc with shadows := s.timeCopy, frozenAt := s.now } } R.RTC_STAT.FROZEN) = u := by
    cases h : s.on R.RTC_STAT.FROZEN
    · exact (hun h).symm
    · exact (hfr h).symm
  have hmem : u.mem = s.mem := by
    rw [← hu]
    exact ite_keep (P := fun t : State => t.mem = s.mem) rfl rfl
  have hone : u.rd R.RTC_STAT.FROZEN = 1 := by
    cases h : s.on R.RTC_STAT.FROZEN
    · rw [hun h, State.raise, State.rd_wr_same (by decide)]
      rfl
    · rw [hfr h, State.rd_of_on h rfl]
  rw [State.freezeRead] at ht
  dsimp only at ht
  rw [hu] at ht
  rw [ht]
  split
  · refine ⟨rfl, rfl, hmem, ?_⟩
    rw [State.clear, State.rd_wr_same (by decide)]
    rfl
  · exact ⟨rfl, rfl, hmem, hone⟩

/-! Commands (R538, R539, R542). -/

section
variable (hgo : s.on R.RTC_CMD.GO = false)
include hgo

theorem exec_rtcSet_syncWaits (h : s.on R.RTC_STAT.SYNCPEND = true) : exec .rtcSet s = .next (s.rtcDone 1 2) :=
  congrArg Host.Outcome.next ((if_neg (Bool.eq_false_iff.1 hgo)).trans (if_pos h))

theorem exec_rtcSync_syncWaits (h : s.on R.RTC_STAT.SYNCPEND = true) : exec .rtcSync s = .next (s.rtcDone 2 2) :=
  congrArg Host.Outcome.next ((if_neg (Bool.eq_false_iff.1 hgo)).trans (if_pos h))

variable (hsync : s.on R.RTC_STAT.SYNCPEND = false)
include hsync

theorem exec_rtcSet_free : exec .rtcSet s = .next (if !s.staged.valid then s.rtcDone 1 1 else if s.rtc.stopped then
    State.raise { s with rtc := { s.rtc with setPending := true } } R.RTC_CMD.GO |>.wr R.RTC_CMD.OP 1 else (s.rtcCommit 1).rtcDone 1 0) :=
  congrArg Host.Outcome.next ((if_neg (Bool.eq_false_iff.1 hgo)).trans (if_neg (Bool.eq_false_iff.1 hsync)))

theorem exec_rtcSync_free : exec .rtcSync s = .next (if !s.staged.valid then s.rtcDone 2 1
    else if s.rd64 R.RTC_SYNC_LO.addr R.RTC_SYNC_HI.addr < s.mtNs + ms then s.rtcDone 2 3
    else (State.raise { s with rtc := { s.rtc with syncLocked := s.rd R.FAB_PTP_STAT.STATE == ptpLocked } } R.RTC_STAT.SYNCPEND).rtcDone 2 0) :=
  congrArg Host.Outcome.next ((if_neg (Bool.eq_false_iff.1 hgo)).trans (if_neg (Bool.eq_false_iff.1 hsync)))

end

theorem exec_syncMatch_ignored (h : s.on R.RTC_STAT.SYNCPEND = false ∨ s.rtc.syncDue = true) : exec .syncMatch s = .next s :=
  congrArg Host.Outcome.next (if_neg (by rcases h with h | h <;> simp [h]))

theorem exec_syncMatch_due (hp : s.on R.RTC_STAT.SYNCPEND = true) (hd : s.rtc.syncDue = false)
    (hu : u = s.advanceMt (s.rd64 R.RTC_SYNC_LO.addr R.RTC_SYNC_HI.addr)) :
    exec .syncMatch s = .next (if u.rtc.stopped then { u with rtc := { u.rtc with syncDue := true } } else u.syncCommit) := by
  rw [hu]
  exact congrArg Host.Outcome.next (if_pos (by rw [hp, hd]; rfl))

/-! Backup bytes (R542). -/

theorem State.rd_backupCrc : s.backupCrc.rd R.RTC_BKCRC.CRC = crc32c s.backupBytes % 2 ^ 32 := State.rd_wr_same (by decide)

theorem bkp_addr_ne (h : i ≠ n) : R.RTC_BKP.addr i ≠ R.RTC_BKP.addr n := by
  simp only [R.RTC_BKP.addr]
  omega

theorem bkp_addr_ne_crc : R.RTC_BKP.addr i ≠ R.RTC_BKCRC.CRC.addr := by
  simp only [R.RTC_BKP.addr, R.RTC_BKCRC.CRC, R.RTC_BKCRC.addr]
  omega

theorem State.backupBytes_backupCrc : s.backupCrc.backupBytes = s.backupBytes := by
  simp only [State.backupBytes, State.backupCrc, State.reg_wr_ne bkp_addr_ne_crc]

theorem State.backupWrite_shown {v : Word} (ht : t = s.backupWrite i v) : t.reg (R.RTC_BKP.addr i) = v ∧
    (∀ j, j < 16 → j ≠ i → t.reg (R.RTC_BKP.addr j) = s.reg (R.RTC_BKP.addr j)) ∧ t.rd R.RTC_BKCRC.CRC = crc32c t.backupBytes % 2 ^ 32 ∧
    t.rtc = { s.rtc with wrote := s.wroteNow ++ [(i, v)], wroteCyc := s.rtcCycle } ∧ t.mem = s.mem := by
  obtain ⟨u, hu⟩ : ∃ u : State, u = State.setReg { s with rtc := { s.rtc with wrote := s.wroteNow ++ [(i, v)], wroteCyc := s.rtcCycle } } (R.RTC_BKP.addr i) v :=
    ⟨_, rfl⟩
  have htu : t = u.backupCrc := by rw [ht, State.backupWrite, hu]
  refine ⟨?_, fun j _ hj => ?_, ?_, ?_, ?_⟩
  · rw [htu, State.backupCrc, State.reg_wr_ne bkp_addr_ne_crc, hu, State.reg_setReg_same]
  · rw [htu, State.backupCrc, State.reg_wr_ne bkp_addr_ne_crc, hu, State.reg_setReg_ne (bkp_addr_ne hj)]
    rfl
  · rw [htu, State.rd_backupCrc, State.backupBytes_backupCrc]
  · rw [htu, State.backupCrc, State.wr_rtc, hu, State.setReg_rtc]
  · rw [htu, State.backupCrc, State.wr_mem, hu, State.setReg_mem]

end

/-- Settles O54. -/
theorem clockAndBackupDomain : Obligations.clock_and_backup_domain := by
  intro s
  refine ⟨fun h => congrArg Host.Outcome.next (if_pos h), fun h1 h2 => congrArg Host.Outcome.next ((if_neg (Bool.eq_false_iff.1 h1)).trans (if_pos h2)),
    fun u v w h1 h2 hu hv hw => outcome_of_ite (exec_rtcTick_counts h1 h2 hu hv hw), State.syncCommit_date, fun h => ⟨_, rfl, State.syncCommit_noDate h rfl⟩, fun c => ?calendar,
    fun h => congrArg Host.Outcome.next (if_pos h), fun u h hu => outcome_of_ite (exec_oscStop_running h hu), exec_backupPowerOn_shown, fun b => rfl, fun n u v hu hv => ?vbat,
    fun a ha u h1 h2 => ⟨_, onUnit_next (List.contains_iff_mem.2 ha) _, State.freezeRead_shown h1 h2 rfl⟩,
    ⟨fun h => congrArg Host.Outcome.next (if_neg (Bool.eq_false_iff.1 h)), fun h => congrArg Host.Outcome.next (if_pos h)⟩,
    fun h => ⟨congrArg Host.Outcome.next (if_pos h), congrArg Host.Outcome.next (if_pos h), congrArg Host.Outcome.next (if_pos h)⟩,
    fun hgo => ?commands, ⟨exec_syncMatch_ignored, fun u hp hd hu => outcome_of_ite (exec_syncMatch_due hp hd hu)⟩, fun n hn => State.rtcCommit_shown hn, fun u v hgo hu hv => ?bbinit,
    fun i v hi => ⟨_, onUnit_next (decide_eq_true hi) _, State.backupWrite_shown rfl⟩, State.rd_backupCrc⟩
  case calendar =>
    refine ⟨fun h => if_pos h, fun h => ?_, fun h => ?_, fun h => ?_, Calendar.next_valid⟩
    · rw [h]; decide
    · rw [h]; decide
    · rw [h]; decide
  case vbat =>
    refine ⟨fun h => congrArg Host.Outcome.next (if_pos ((Bool.not_eq_true' _).mpr h)), fun h hn => ?_, fun h h1 h2 => ?_, fun h hn hd => ?_, fun h hn hd => ?_⟩
    · exact (exec_vbatMeasure_main h hu hv).trans (congrArg Host.Outcome.next ((if_neg (by omega)).trans (if_pos hn)))
    · exact (exec_vbatMeasure_main h hu hv).trans (congrArg Host.Outcome.next ((if_neg (by omega)).trans (if_neg (by omega))))
    · exact (exec_vbatMeasure_low h hu hv hn).trans (congrArg Host.Outcome.next (if_neg (Bool.eq_false_iff.1 hd)))
    · exact (exec_vbatMeasure_low h hu hv hn).trans (congrArg Host.Outcome.next (if_pos hd))
  case commands =>
    have hno : ∀ {b : Bool}, b = true → ¬ (!b) = true := fun hb => by rw [hb]; decide
    refine ⟨fun h => ⟨exec_rtcSet_syncWaits hgo h, exec_rtcSync_syncWaits hgo h⟩, fun h hv => ?_, fun h hv hs => ?_, fun h hv hs => ?_, fun h hv hl => ?_, fun h hv hl => ?_⟩
    · exact ⟨(exec_rtcSet_free hgo h).trans (congrArg Host.Outcome.next (if_pos ((Bool.not_eq_true' _).mpr hv))),
        (exec_rtcSync_free hgo h).trans (congrArg Host.Outcome.next (if_pos ((Bool.not_eq_true' _).mpr hv)))⟩
    · exact (exec_rtcSet_free hgo h).trans (congrArg Host.Outcome.next ((if_neg (hno hv)).trans (if_neg (Bool.eq_false_iff.1 hs))))
    · exact (exec_rtcSet_free hgo h).trans (congrArg Host.Outcome.next ((if_neg (hno hv)).trans (if_pos hs)))
    · exact (exec_rtcSync_free hgo h).trans (congrArg Host.Outcome.next ((if_neg (hno hv)).trans (if_pos hl)))
    · exact (exec_rtcSync_free hgo h).trans (congrArg Host.Outcome.next ((if_neg (hno hv)).trans (if_neg (Nat.not_lt.2 hl))))
  case bbinit =>
    rw [hv, hu]
    exact congrArg Host.Outcome.next (if_neg (Bool.eq_false_iff.1 hgo))

end Sys2Proof.Machine

/-!
PROOF. A start from the release of reset to the lock and after it (O52): the ROM's self-test, vault and choice of a slot, the
runtime's part, the kind of the start, the lock, the wait for replicas, the resets by command, MT's load and the start record.
-/

namespace Sys2Proof.Machine

section
variable {s u v w : State} {f : RomFacts} {b : BootRec} {rcv p fell : Bool} {k n : Nat}

/-! The ROM's part (R546, R561). -/

/-- What follows the self-test. -/
theorem State.romStart_tested (hu : u = State.backupCheck (State.wrb (State.fieldSample { s with start := { s.start with phase := 1, origin := s.now } }) R.PWR_STAT.RCV f.rcv))
    (ht : u.selfTest f = (p, v)) (hw : w = (v.wr R.MEM_PHASE.PHASE 1).vaultStart f) : s.romStart f = if !p then v.bistFail else
      if w.rd R.KEY_PUF.STATE = pufFail then w.showSlots.enterRecovery 5 else w.chooseSlot f.rcv := by
  rw [State.romStart]
  dsimp only
  rw [← hu, ht]
  dsimp only
  rw [← hw]

/-! The slot (R486, R497). -/

theorem State.chooseSlot_record (h : s.bootRec = some b) : s.chooseSlot rcv = s.showSlots.slotFrom b rcv := by
  rw [State.chooseSlot, h]

theorem State.chooseSlot_vendor (h : s.bootRec = none) {r : Option (Nat × Bool)} (hp : s.pickVendor = (r, u)) : s.chooseSlot rcv = s.enterVendor rcv u r := by
  rw [State.chooseSlot, h]
  dsimp only
  rw [State.slotOfVendor, hp]

theorem State.slotOfRecord_found (h : s.pickSlot false 3 = (some (k, fell), u)) : s.slotOfRecord = u.enterSlot k fell := by
  delta State.slotOfRecord
  rw [h]

theorem State.slotOfRecord_none (h : s.pickSlot false 3 = (none, u)) : s.slotOfRecord = u.enterRecovery 2 := by
  delta State.slotOfRecord
  rw [h]

/-- Without its RECOVERY bit and with a slot that the record asks for, the recovery input decides. -/
theorem State.slotFrom_wanted (hr : b.recovery = false) (hw : b.wanted ≠ none) :
    s.slotFrom b rcv = if rcv && (s.pickSlot false 3).1.isSome then s.enterRecovery 3 else s.slotOfRecord :=
  (if_neg (Bool.eq_false_iff.1 hr)).trans (if_neg fun h => hw (Option.isNone_iff_eq_none.1 h))

/-! The runtime's part (Table 18-1 steps 7 to 13). -/

theorem State.runtimeStart_refused (h : s.chooseStart.loadCfg s.runSlot = (false, u)) : s.runtimeStart = u.clearRing.cfgFail := by
  rw [State.runtimeStart]
  dsimp only
  rw [h]
  rfl

theorem State.runtimeStart_loaded {q : Bool} (h : s.chooseStart.loadCfg s.runSlot = (true, u)) (hb : (u.clearRing.restore s.runSlot).enableBlocks = (p, v)) (hpin : v.pinActive = (q, w)) :
    s.runtimeStart = if !p then v.cfgFail else if !q then w.cfgFail else w.beforeLock := by
  rw [State.runtimeStart]
  dsimp only
  rw [h]
  dsimp only
  rw [hb]
  dsimp only
  rw [hpin]
  exact if_neg (by decide)

/-! The lock and the wait for replicas (R558, R569). -/

theorem State.lockSet_again (hu : u = s.raise R.SYS_LOCK.LOCK) (h : s.start.phase ≠ 1 ∨ s.start.kind = 0) : s.lockSet = u := by
  rw [hu]
  exact if_neg (fun hc => h.elim (fun h1 => h1 hc.1) fun h2 => hc.2 h2)

theorem State.lockSet_first {c : Bool} (hu : u = s.raise R.SYS_LOCK.LOCK) (hp : s.start.phase = 1) (hk : s.start.kind ≠ 0)
    (hc : (s.start.kind == kindCold && s.rd R.SYS_STARTCFG.COLDWAIT_MS != 0) = c)
    (hv : v = u.wr R.SYS_TLOCK.US (min ((s.now - s.start.origin) / 1000) (2 ^ 32 - 1))) (hn : n = v.rd R.SYS_TLOCK.US) (hw : w = v.event 0x0101 (val1 := n)) :
    s.lockSet = if c then { w with start := { w.start with phase := 2, lockedAt := w.now, lastMtAt := w.now, waiting := c } }
      else State.enterService { w with start := { w.start with phase := 2, lockedAt := w.now, lastMtAt := w.now, waiting := c } } := by
  have hcu : (u.start.kind == kindCold && u.rd R.SYS_STARTCFG.COLDWAIT_MS != 0) = c := by
    rw [hu, State.raise_start, State.raise, State.rd_wr_ne (by decide), hc]
  have hup : u.start.phase = 1 ∧ u.start.kind ≠ 0 := by
    rw [hu, State.raise_start]
    exact ⟨hp, hk⟩
  have hvu : v = u.wr R.SYS_TLOCK.US (min ((u.now - u.start.origin) / 1000) (2 ^ 32 - 1)) := by
    rw [hv, hu, State.raise_start, State.raise_now]
  rw [State.lockSet]
  dsimp only
  rw [← hu, if_pos hup, hcu, ← hvu, ← hn, ← hw]

/-! Resets by command (Table 18-8, R560). -/

/-- What a module reset leaves of time, the queue and memory. -/
theorem State.moduleReset_rest (c : Nat) : (s.moduleReset c).pending = s.pending ∧ (s.moduleReset c).now = s.now ∧ (s.moduleReset c).mt = 0 ∧
    (s.moduleReset c).mem = s.mem.filter fun x => nonvolatile x.1 := by
  obtain ⟨t, hreset, hpending, hnow, hmt, hmem⟩ : ∃ t : State,
      s.moduleReset c = (((t.each keptRegs fun t a => t.setReg a (s.reg a)).each keptFields fun t f => t.wr f (s.rd f)).wr
        R.SYS_RSTCAUSE.CAUSE (if s.start.phase = 0 then min c (s.rd R.SYS_RSTCAUSE.CAUSE) else c)) ∧
      t.pending = s.pending ∧ t.now = s.now ∧ t.mt = 0 ∧ t.mem = s.mem.filter fun x => nonvolatile x.1 := ⟨_, rfl, rfl, rfl, rfl, rfl⟩
  have hkept : ∀ {β : Type} (get : State → β), (∀ (x : State) a y, get (x.setReg a y) = get x) → get (s.moduleReset c) = get t := fun get h => by
    rw [hreset]
    exact (h _ _ _).trans ((State.each_keeps get (fun x f _ => h x _ _) _).trans (State.each_keeps get (fun x a _ => h x a _) _))
  exact ⟨(hkept State.pending fun _ _ _ => rfl).trans hpending, (hkept State.now fun _ _ _ => rfl).trans hnow, (hkept State.mt fun _ _ _ => rfl).trans hmt,
    (hkept State.mem fun _ _ _ => rfl).trans hmem⟩

theorem State.moduleReset_shown {c : Nat} (hc : c < 16) : (s.moduleReset c).start.phase = 0 ∧
    (s.moduleReset c).rd R.SYS_RSTCAUSE.CAUSE = (if s.start.phase = 0 then min c (s.rd R.SYS_RSTCAUSE.CAUSE) else c) ∧ (s.moduleReset c).pending = s.pending ∧
    (s.moduleReset c).now = s.now ∧ (s.moduleReset c).mt = 0 ∧ (s.moduleReset c).mem = s.mem.filter fun x => nonvolatile x.1 := by
  refine ⟨by rw [State.moduleReset_start], ?_, State.moduleReset_rest c⟩
  obtain ⟨t, hreset, -⟩ := s.moduleReset_eq c
  rw [hreset, State.rd_wr_same (by decide)]
  refine Nat.mod_eq_of_lt ?_
  change _ < 16
  split <;> omega

/-! The start record (R551, R556, R566). -/

theorem State.startTick_locked {r : StartRec} (h : s.start.phase = 2) (hu : u = s.advance (s.start.lastMtAt + sec))
    (hv : v = { u with start := { u.start with lastMtAt := u.now } }) (hr : r = v.startRec)
    (hw : w = v.putStartRec { r with lastmt := v.mtNs, crwin := if 0 < r.crashes then r.crwin + 1 else r.crwin }) :
    s.startTick = if w.start.migDue ∧ w.start.firstRel then w.writeMigrated w.runSlot else w := by
  rw [State.startTick, if_neg (not_not.2 h)]
  dsimp only
  rw [← hu, ← hv, ← hr, ← hw]

end

/-- Settles O52. -/
theorem startLockAndReset : Obligations.start_lock_and_reset := by
  intro s
  refine ⟨fun f h => congrArg Host.Outcome.next (if_neg fun hc => h.elim (fun h1 => h1 hc.1) fun h2 => Bool.false_ne_true (h2.symm.trans hc.2)),
    fun f u v w p hp hr hu ht => ?rom, fun b rcv k fell u => ?slot, ⟨fun h => congrArg Host.Outcome.next (if_neg fun hc => h.elim (fun h1 => h1 hc.1) fun h2 => h2 hc.2), fun u hp hk => ?runtime⟩,
    fun r m fl => ?kind, fun u hu => ⟨fun h => congrArg Host.Outcome.next (State.lockSet_again hu h), fun n v hp hk hv hn => ?lock⟩,
    ⟨fun h => congrArg Host.Outcome.next (if_pos ((Bool.not_eq_true' _).mpr h)), fun hw hl => ?live, fun hw hl => ?waited⟩, fun p hp => ?reset,
    ⟨fun h => congrArg Host.Outcome.next (if_pos h), fun h => congrArg Host.Outcome.next (if_neg (Bool.eq_false_iff.1 h)), fun n => ⟨rfl, rfl, rfl, rfl⟩⟩,
    ⟨fun h => congrArg Host.Outcome.next (if_pos h), fun u v w r h hu hv hr hw => ?tick⟩⟩
  case rom =>
    have hex := exec_moduleResetRelease_released (f := f) hr hp
    refine ⟨fun h hc => hex.trans (congrArg Host.Outcome.next ?_), fun h hc => hex.trans (congrArg Host.Outcome.next ?_),
      fun h hw hk => hex.trans (congrArg Host.Outcome.next ?_), fun h hw hk => hex.trans (congrArg Host.Outcome.next ?_)⟩
    · rw [State.romStart_tested hu ht rfl, h]
      exact if_pos hc
    · rw [State.romStart_tested hu ht rfl, h]
      exact if_neg hc
    · rw [State.romStart_tested hu ht hw, h, if_neg (by decide), if_pos hk]
    · rw [State.romStart_tested hu ht hw, h, if_neg (by decide), if_neg hk]
  case slot =>
    refine ⟨fun hb hr => ?_, fun hb hr hw => ?_, fun hb hr hw hp => ⟨?_, ?_⟩, fun hb hr hw hp => ?_, fun hb hp => State.chooseSlot_vendor hb hp,
      fun hb hp => ⟨State.chooseSlot_vendor hb hp, State.chooseSlot_vendor hb hp⟩⟩
    · exact (State.chooseSlot_record hb).trans (if_pos hr)
    · exact (State.chooseSlot_record hb).trans ((if_neg (Bool.eq_false_iff.1 hr)).trans (if_pos (by rw [hw]; rfl)))
    · rw [State.chooseSlot_record hb, State.slotFrom_wanted hr hw, hp]
      rfl
    · rw [State.chooseSlot_record hb, State.slotFrom_wanted hr hw, State.slotOfRecord_found hp]
      rfl
    · rw [State.chooseSlot_record hb, State.slotFrom_wanted hr hw, State.slotOfRecord_none hp, hp]
      exact if_neg (by simp)
  case runtime =>
    have hex : exec .runtimeStart s = .next s.runtimeStart := congrArg Host.Outcome.next (if_pos ⟨hp, hk⟩)
    refine ⟨fun h => hex.trans (congrArg Host.Outcome.next (State.runtimeStart_refused h)), fun v w h => ⟨fun hb => ?_, fun hb hpin => ?_, fun hb hpin => ?_⟩⟩
    · rw [hex, State.runtimeStart_loaded h hb rfl, if_pos (by decide)]
    · rw [hex, State.runtimeStart_loaded h hb hpin, if_neg (by decide), if_pos (by decide)]
    · rw [hex, State.runtimeStart_loaded h hb hpin, if_neg (by decide), if_neg (by decide)]
  case kind =>
    refine ⟨if_pos rfl, fun h => (if_neg (by decide)).trans (if_pos h), fun h1 h2 => ?_⟩
    have hno : ¬(r.reqkind = kindCold ∨ 3 ≤ r.crashes) := not_or.2 ⟨h1, Nat.not_le.2 h2⟩
    exact ⟨(if_neg (by decide)).trans (if_neg hno), (if_neg (by decide)).trans (if_neg hno)⟩
  case lock =>
    refine ⟨fun hcold hms => ⟨_, rfl, congrArg Host.Outcome.next ?_⟩, fun hno => ⟨_, rfl, congrArg Host.Outcome.next ?_⟩⟩
    · exact (State.lockSet_first (c := true) hu hp hk (by simp [hcold, hms]) hv hn rfl).trans (if_pos rfl)
    · exact (State.lockSet_first (c := false) hu hp hk (by rcases hno with h | h <;> simp [h]) hv hn rfl).trans (if_neg Bool.false_ne_true)
  case live =>
    exact congrArg Host.Outcome.next ((if_neg (by rw [hw]; decide)).trans (if_pos hl))
  case waited =>
    exact congrArg Host.Outcome.next ((if_neg (by rw [hw]; decide)).trans (if_neg (Bool.eq_false_iff.1 hl)))
  case reset =>
    simp only [List.mem_cons, List.not_mem_nil, or_false] at hp
    rcases hp with rfl | rfl
    · exact ⟨_, rfl, State.moduleReset_shown (by decide)⟩
    · exact ⟨_, rfl, State.moduleReset_shown (by decide)⟩
  case tick =>
    have hex : exec .startRecordWrite s = .next (if w.start.migDue ∧ w.start.firstRel then w.writeMigrated w.runSlot else w) :=
      congrArg Host.Outcome.next (State.startTick_locked h hu hv hr hw)
    refine ⟨fun hno => hex.trans (congrArg Host.Outcome.next (if_neg fun hc => ?_)), fun h1 h2 => hex.trans (congrArg Host.Outcome.next (if_pos ⟨h1, h2⟩))⟩
    exact hno.elim (fun h1 => Bool.false_ne_true (h1.symm.trans hc.1)) fun h2 => Bool.false_ne_true (h2.symm.trans hc.2)

end Sys2Proof.Machine
